-- ==== Sys2Proof/Word.lean ====
section
/-! DEFINITION. The byte type of the KL1296 model and the plainest names built on it. -/

namespace Sys2Proof

/-- One byte (R6: every multi-byte value is laid out in bytes, least significant first). -/
abbrev Byte := BitVec 8

/-- A run of bytes: parameters of a command, a reply body, a record, a stretch of the Bench. -/
abbrev Bytes := List Byte

end Sys2Proof
end

