-- ==== Sys2Proof/Machine/Bits.lean ====
section
/-! DEFINITION. Bit fields, byte order, sign, rounding and total access to fixed tables: the helpers every
unit's rules use (R4 to R11). -/

namespace Sys2Proof.Machine

/-- The byte at an offset; a byte past the end reads 0. -/
def byteAt (p : Bytes) (off : Nat) : Byte := p.getD off 0

/-- The `n`-byte little-endian unsigned value at an offset (R6). -/
def leAt (p : Bytes) : Nat → Nat → Nat
  | _, 0 => 0
  | off, n + 1 => (byteAt p off).toNat + 256 * leAt p (off + 1) n

def u8 (p : Bytes) (off : Nat) : Nat := leAt p off 1
def u16 (p : Bytes) (off : Nat) : Nat := leAt p off 2
def u24 (p : Bytes) (off : Nat) : Nat := leAt p off 3
def u32 (p : Bytes) (off : Nat) : Nat := leAt p off 4
def u64 (p : Bytes) (off : Nat) : Nat := leAt p off 8

/-- An unsigned value of `bits` bits read as two's complement (R8). -/
def toSigned (bits v : Nat) : Int :=
  if v % 2 ^ bits < 2 ^ (bits - 1) then ((v % 2 ^ bits : Nat) : Int) else ((v % 2 ^ bits : Nat) : Int) - 2 ^ bits

/-- A signed value in `bits` bits, as the unsigned word that carries it (R8). -/
def toUnsigned (bits : Nat) (v : Int) : Nat := (v % (2 ^ bits : Int)).toNat

def s8 (p : Bytes) (off : Nat) : Int := toSigned 8 (u8 p off)
def s16 (p : Bytes) (off : Nat) : Int := toSigned 16 (u16 p off)
def s32 (p : Bytes) (off : Nat) : Int := toSigned 32 (u32 p off)
def s64 (p : Bytes) (off : Nat) : Int := toSigned 64 (u64 p off)

/-- Bit `n` of a value (R4). -/
def bitOf (v n : Nat) : Bool := v.testBit n

/-- The field of `width` bits of `v` from bit `lo`. -/
def fieldOf (v lo width : Nat) : Nat := (v >>> lo) % 2 ^ width

def flagBit (b : Bool) (n : Nat) : Nat := if b then 2 ^ n else 0

/-- `n` little-endian bytes of a value (R6). -/
def le : Nat → Nat → Bytes
  | 0, _ => []
  | n + 1, v => BitVec.ofNat 8 v :: le n (v / 256)

/-- `n` little-endian bytes of a signed value (R6, R8). -/
def leI (n : Nat) (v : Int) : Bytes := le n (toUnsigned (8 * n) v)

def zeros (n : Nat) : Bytes := List.replicate n 0

/-- Bytes from `off`, `n` of them; bytes past the end read 0. -/
def slice (p : Bytes) (off n : Nat) : Bytes := (List.range n).map fun i => byteAt p (off + i)

/-- A run of bytes cut or zero-filled to exactly `n`. -/
def padTo (n : Nat) (p : Bytes) : Bytes := p.take n ++ zeros (n - p.length)

/-- The signed 32-bit difference of two wrapping 32-bit numbers (R11). -/
def sdiff32 (a b : Nat) : Int := toSigned 32 ((a + 2 ^ 32 - b % 2 ^ 32) % 2 ^ 32)

/-- `a` is later than `b` under R11. -/
def later32 (a b : Nat) : Bool := decide (0 < sdiff32 a b)

/-- The later of two 32-bit numbers under R11. -/
def max32 (a b : Nat) : Nat := if later32 a b then a else b

def wrap32 (v : Nat) : Nat := v % 2 ^ 32

/-- Round half up when `k` fraction bits are dropped (R10). -/
def roundShift (v : Int) (k : Nat) : Int :=
  match k with
  | 0 => v
  | k + 1 => (v + 2 ^ k) >>> (k + 1)

/-- Ceiling of a quotient. -/
def ceilDiv (a b : Nat) : Nat := (a + b - 1) / b

/-- Round half up of an exact quotient. -/
def roundDiv (a : Int) (b : Nat) : Int := (2 * a + b) / (2 * b)

def clampInt (lo hi v : Int) : Int := if v < lo then lo else if hi < v then hi else v

def absNat (v : Int) : Nat := v.natAbs

/-- Total read of a fixed table. -/
def vget {α : Type} [Inhabited α] {n : Nat} (v : Vector α n) (i : Nat) : α := (v[i]?).getD default

/-- Total write of a fixed table; an index past the end writes nothing. -/
def vset {α : Type} {n : Nat} (v : Vector α n) (i : Nat) (x : α) : Vector α n := v.setIfInBounds i x

/-- Change one entry of a fixed table. -/
def vmod {α : Type} [Inhabited α] {n : Nat} (v : Vector α n) (i : Nat) (f : α → α) : Vector α n := vset v i (f (vget v i))

/-- The first offset whose check fails: what ST_BAD_PARAM reports (Table 2-3). -/
def firstBad : List (Nat × Bool) → Option Nat
  | [] => none
  | (off, ok) :: rest => if ok then firstBad rest else some off

def inRange (lo hi v : Nat) : Bool := decide (lo ≤ v) && decide (v ≤ hi)

/-- Look a key up in a sparse table kept as a list; an absent key reads the default given. -/
def sget {κ α : Type} [DecidableEq κ] (l : List (κ × α)) (k : κ) (d : α) : α :=
  match l with
  | [] => d
  | (k', v) :: rest => if k' = k then v else sget rest k d

/-- Write a key of a sparse table keyed by number, kept in rising order; writing the default removes the key. -/
def sset {α : Type} [DecidableEq α] (l : List (Nat × α)) (k : Nat) (v d : α) : List (Nat × α) :=
  match l with
  | [] => if v = d then [] else [(k, v)]
  | (k', v') :: rest =>
    if k' < k then (k', v') :: sset rest k v d
    else if k' = k then (if v = d then rest else (k, v) :: rest)
    else if v = d then (k', v') :: rest
    else (k, v) :: (k', v') :: rest

/-- The entries `first .. first + n - 1` of a sparse table kept in rising order, absent keys reading `d` of the key. -/
def sexpand {α : Type} (l : List (Nat × α)) (d : Nat → α) (first : Nat) : Nat → List α
  | 0 => []
  | n + 1 =>
    match l.dropWhile fun kv => decide (kv.1 < first) with
    | [] => (List.range (n + 1)).map fun i => d (first + i)
    | (k, v) :: rest => if k = first then v :: sexpand rest d (first + 1) n else d first :: sexpand ((k, v) :: rest) d (first + 1) n

/-- Overlay a run of consecutive entries on a sparse table; entries equal to the default of their key are left out. -/
def soverlay {α : Type} [DecidableEq α] (l : List (Nat × α)) (d : Nat → α) (first : Nat) (vals : List α) : List (Nat × α) :=
  (l.filter fun kv => decide (kv.1 < first)) ++
  ((vals.zipIdx first).filterMap fun vi => if vi.1 = d vi.2 then none else some (vi.2, vi.1)) ++
  (l.filter fun kv => decide (first + vals.length ≤ kv.1))

/-- `n` fields of `bits` bits, the first in the lowest bits, of a packed number (R264). -/
def unpackBits (bits : Nat) : Nat → Nat → List Nat
  | 0, _ => []
  | n + 1, v => v % 2 ^ bits :: unpackBits bits n (v / 2 ^ bits)

/-- Pack values of `bits` bits, the first in the lowest bits (R264). -/
def packBits (bits : Nat) : List Nat → Nat
  | [] => 0
  | x :: xs => x % 2 ^ bits + 2 ^ bits * packBits bits xs

/-- The little-endian number that a run of bytes spells. -/
def leVal : Bytes → Nat
  | [] => 0
  | b :: bs => b.toNat + 256 * leVal bs

/-- `n` values of `w` bytes each from an offset. -/
def valsAt (p : Bytes) (off w n : Nat) : List Nat := (List.range n).map fun i => leAt p (off + w * i) w

/-- Insert into a list kept in the order of `before`, after its equals. -/
def insertBy {α : Type} (before : α → α → Bool) (x : α) : List α → List α
  | [] => [x]
  | y :: ys => if before x y then x :: y :: ys else y :: insertBy before x ys

/-- Sort by repeated insertion; equals keep their order. -/
def sortBy {α : Type} (before : α → α → Bool) (l : List α) : List α := l.foldl (fun acc x => insertBy before x acc) []

/-- Integer square root, by bits: the largest `r` with `r * r ≤ n`. -/
def isqrtAux (n : Nat) : Nat → Nat → Nat
  | 0, r => r
  | b + 1, r => if (r + 2 ^ b) * (r + 2 ^ b) ≤ n then isqrtAux n b (r + 2 ^ b) else isqrtAux n b r

def isqrt (n : Nat) : Nat := isqrtAux n (n.log2 / 2 + 1) 0

end Sys2Proof.Machine
end

