-- ==== Sys2Proof/Machine/ParLinks.lean ====
section
/-! DEFINITION. The staged settings of the camera links: LINK_CONFIG (Table 4-9), KX25_CONFIG and THROUGH_CONFIG,
and the parameters of PRBS_TEST (Table 4-12) and EYE_SCAN. -/

namespace Sys2Proof.Machine

/-- The link rate codes of Table 4-2, CoaXPress only, from slowest to fastest. -/
def cxpRates : List Nat := [1, 2, 3, 5, 6, 10, 12]

/-- The rate codes of Table 4-2 with KX-25. -/
def linkRates : List Nat := cxpRates ++ [25]

/-- The next lower CoaXPress rate (R194); none below CXP-1. -/
def nextLowerRate (r : Nat) : Option Nat := (cxpRates.filter (· < r)).getLast?

/-- Table 4-9. -/
structure LinkCfg where
  enable : Bool := false
  links : Nat := 1
  maxRate : Nat := 1
  pixelFormat : Nat := 8
  width : Nat := 1
  pktMax : Nat := 1024
  streamId : Nat := 0
  autoRecover : Bool := false
  autoDiscover : Bool := false
  eventQueue : Option Nat := none
  heartbeatTimeout : Nat := 0
  discoverTimeout : Nat := 100
  retryDelay : Nat := 10
  qualWarn : Nat := 0
  deriving DecidableEq, Repr, Inhabited

/-- SQ0 to SQ15, or 0xFF for none. -/
def queueRef (v : Nat) : Option Nat := if v = 0xFF then none else some v

def parLink (p : Bytes) : LinkCfg :=
  { enable := decide (u8 p 0 = 1), links := u8 p 1, maxRate := u8 p 2, pixelFormat := u8 p 3, width := u16 p 4, pktMax := u16 p 6,
    streamId := u32 p 8, autoRecover := bitOf (u8 p 12) 1, autoDiscover := bitOf (u8 p 12) 0, eventQueue := queueRef (u8 p 13),
    heartbeatTimeout := u16 p 14, discoverTimeout := u32 p 16, retryDelay := u16 p 20, qualWarn := u16 p 22 }

/-- Table 4-9 and R186. `other` is the staged setting of the port's other slot. -/
def badLink (unit : Nat) (p : Bytes) (other : LinkCfg) : Option Nat :=
  let off := decide (u8 p 0 = 0)
  let links := u8 p 1
  let isB := decide (unit % 2 = 1)
  let enableClash := isB && other.enable && decide (2 < other.links)
  let linksOk := inRange 1 4 links && (if isB then decide (links ≤ 2) else !(other.enable && decide (2 < links)))
  firstBad [(0, inRange 0 1 (u8 p 0) && (off || !enableClash)), (1, off || linksOk), (2, off || cxpRates.contains (u8 p 2)),
    (3, off || [8, 10, 12, 14, 16].contains (u8 p 3)), (4, off || inRange 1 32768 (u16 p 4)),
    (6, off || (inRange 1024 16384 (u16 p 6) && decide (u16 p 6 % 64 = 0))), (13, off || decide (u8 p 13 < 16) || decide (u8 p 13 = 0xFF)),
    (14, off || decide (u16 p 14 = 0) || inRange 10 10000 (u16 p 14)), (16, off || inRange 100 60000 (u32 p 16)),
    (20, off || inRange 10 60000 (u16 p 20)), (22, off || inRange 0 1000 (u16 p 22))]

/-- KX25_CONFIG. -/
structure KxCfg where
  enable : Bool := false
  require : Bool := false
  deriving DecidableEq, Repr, Inhabited

def parKx (p : Bytes) : KxCfg := { enable := decide (u8 p 0 = 1), require := bitOf (u8 p 1) 0 }

def badKx (p : Bytes) : Option Nat := firstBad [(0, inRange 0 1 (u8 p 0))]

/-- THROUGH_CONFIG. -/
structure ThroughCfg where
  outMode : Nat := 0
  inMode : Nat := 0
  relayOut : Bool := false
  relayAccept : Bool := false
  deriving DecidableEq, Repr, Inhabited

def parThrough (p : Bytes) : ThroughCfg :=
  { outMode := u8 p 0, inMode := u8 p 1, relayOut := bitOf (u8 p 2) 0, relayAccept := bitOf (u8 p 2) 1 }

def badThrough (p : Bytes) : Option Nat := firstBad [(0, inRange 0 2 (u8 p 0)), (1, inRange 0 1 (u8 p 1))]

/-- Table 4-12. -/
structure PrbsPar where
  pattern : Nat := 7
  generate : Bool := false
  invert : Bool := false
  force : Bool := false
  inject : Nat := 0
  burstLen : Nat := 1
  rate : Nat := 1
  interval : Nat := 0
  duration : Nat := 1
  deriving DecidableEq, Repr, Inhabited

def parPrbs (p : Bytes) : PrbsPar :=
  { pattern := u8 p 0, generate := decide (u8 p 1 = 1), invert := bitOf (u8 p 2) 1, force := bitOf (u8 p 2) 0, inject := u8 p 3,
    burstLen := u16 p 4, rate := u8 p 6, interval := u32 p 8, duration := u32 p 12 }

/-- Table 4-12: units 0 to 47 are camera links, which take no GENERATE; INJECT is for generators only. -/
def badPrbs (unit : Nat) (p : Bytes) : Option Nat :=
  let gen := decide (u8 p 1 = 1)
  firstBad [(0, [7, 15, 23, 31].contains (u8 p 0)), (1, inRange 0 1 (u8 p 1) && !(gen && decide (unit < 48))),
    (3, inRange 0 2 (u8 p 3) && (gen || decide (u8 p 3 = 0))), (4, !(gen && decide (u8 p 3 = 2)) || inRange 1 64 (u16 p 4)),
    (6, linkRates.contains (u8 p 6)), (12, inRange 1 3600000 (u32 p 12))]

end Sys2Proof.Machine
end

