-- ==== Sys2Proof/Machine/ParPlane.lean ====
section
/-! DEFINITION. The settings of the Plane and the parameters of its commands: PLANE_CONFIG (Tables 5-1 and 6-4),
LOAD_TABLE and READ_TABLE (Table 6-5), SET_ZONE_SHIM, JIG_DARK, JIG_FLAT (Table 6-6), JIG_GEOMETRY and JIG_RESULT. -/

namespace Sys2Proof.Machine

/-- Table 6-4; the defaults are those of Table 5-1 with CORRECT 0 and DRIFT 0 (R279). -/
structure PlaneCfg where
  fill : Nat := 0
  latMin : Nat := 0
  latMax : Nat := 50000
  fieldSource : Bool := false
  statsQueue : Option Nat := none
  statsFirst : Nat := 0
  statsLast : Nat := 32767
  darkLevel : Nat := 0
  correct : Bool := false
  linearise : Bool := false
  defectReplace : Bool := false
  drift : Nat := 0
  driftStep : Nat := 1
  deriving DecidableEq, Repr, Inhabited

def parPlane (p : Bytes) : PlaneCfg :=
  { fill := u32 p 0 % 2 ^ 18, latMin := u32 p 4, latMax := u32 p 8, fieldSource := decide (u8 p 12 = 1), statsQueue := queueRef (u8 p 13),
    statsFirst := u16 p 14, statsLast := u16 p 16, darkLevel := u32 p 20 % 2 ^ 18, correct := bitOf (u8 p 24) 0,
    linearise := bitOf (u8 p 24) 1, defectReplace := bitOf (u8 p 24) 2, drift := u8 p 25 % 16, driftStep := u16 p 26 }

/-- Table 6-4, R242 and R815 (DRIFT_STEP counts only with DRIFT). -/
def badPlane (p : Bytes) : Option Nat :=
  firstBad [(4, decide (u32 p 4 ≤ 999999) && decide (u32 p 4 < u32 p 8)), (8, inRange 1 1000000 (u32 p 8)), (12, inRange 0 1 (u8 p 12)),
    (13, decide (u8 p 13 < 16) || decide (u8 p 13 = 0xFF)), (14, inRange 0 32767 (u16 p 14)), (16, inRange (u16 p 14) 32767 (u16 p 16)),
    (26, decide (u8 p 25 % 16 = 0) || inRange 1 654 (u16 p 26))]

/-- A bulk reference (Table 2-4). -/
structure BulkRef where
  addr : Nat := 0
  length : Nat := 0
  space : Nat := 0
  deriving DecidableEq, Repr, Inhabited

def parBulk (p : Bytes) (off : Nat) : BulkRef := { addr := u64 p off, length := u32 p (off + 8), space := u8 p (off + 12) }

/-- The checks of Table 2-4 on a bulk reference that starts at parameter offset `off`. -/
def bulkChecks (p : Bytes) (off : Nat) : List (Nat × Bool) :=
  [(off, decide (u64 p off % 4 = 0)), (off + 8, decide (u32 p (off + 8) % 4 = 0)), (off + 12, inRange 0 1 (u8 p (off + 12)))]

/-- Table 6-5. -/
structure TablePar where
  kind : Nat := 0
  field : Nat := 0
  bank : Nat := 0
  first : Nat := 0
  count : Nat := 0
  ref : BulkRef := {}
  deriving DecidableEq, Repr, Inhabited

def parTable (p : Bytes) : TablePar :=
  { kind := u8 p 0, field := u8 p 1, bank := u8 p 2, first := u32 p 4, count := u32 p 8, ref := parBulk p 16 }

/-- Bytes of one entry of a table kind (Table 6-5). -/
def tableEntryBytes (kind : Nat) : Nat := if kind = 3 then 4 else 2

/-- LENGTH of Table 6-5 for a kind and count. -/
def tableLength (kind count : Nat) : Nat := (count * tableEntryBytes kind + 3) / 4 * 4

def tableCountOk (kind first count : Nat) : Bool :=
  match kind with
  | 0 => decide (1 ≤ count) && decide (first + count ≤ 32768)
  | 1 => decide (1 ≤ count) && decide (first + count ≤ 32768)
  | 2 => decide (count = 4)
  | 3 => decide (count = 1025)
  | _ => decide (count ≤ 1024)

def tableChecks (p : Bytes) : List (Nat × Bool) :=
  let kind := u8 p 0
  [(0, inRange 0 4 kind), (1, decide (2 ≤ kind) || inRange 0 3 (u8 p 1))]

def badLoadTable (p : Bytes) : Option Nat :=
  let kind := u8 p 0
  firstBad (tableChecks p ++
    [(4, if kind < 2 then inRange 0 32767 (u32 p 4) else decide (u32 p 4 = 0)), (8, tableCountOk kind (u32 p 4) (u32 p 8))] ++
    bulkChecks p 16 ++ [(24, decide (u32 p 24 = tableLength kind (u32 p 8)))])

/-- READ_TABLE: byte 2 is BANK, and a DEFECT read needs a LENGTH of at least 2,048. -/
def badReadTable (p : Bytes) : Option Nat :=
  let kind := u8 p 0
  firstBad (tableChecks p ++
    [(2, inRange 0 1 (u8 p 2)), (4, if kind < 2 then inRange 0 32767 (u32 p 4) else decide (u32 p 4 = 0)),
     (8, decide (kind = 4) || tableCountOk kind (u32 p 4) (u32 p 8))] ++
    bulkChecks p 16 ++ [(28, decide (u8 p 28 = 0)), (24, if kind = 4 then decide (2048 ≤ u32 p 24) else decide (tableLength kind (u32 p 8) ≤ u32 p 24))])

/-- Which calibration the Jig runs. -/
inductive JigKind where
  | dark | flat | geometry
  deriving DecidableEq, Repr, Inhabited

/-- Parameters of the three Jig commands (Table 6-6 and JIG_GEOMETRY). -/
structure JigPar where
  kind : JigKind := .dark
  fields : Nat := 1
  strobesOff : Bool := false
  darkShadow : Bool := false
  defectMode : Nat := 0
  gapStrips : Nat := 0
  lines : Nat := 256
  darkTol : Nat := 1
  darkMax : Nat := 1
  target : Nat := 0
  tolPpm : Nat := 1
  fractionPpm : Nat := 0
  gainMin : Nat := 0
  gainMax : Nat := 0
  stripePitch : Nat := 100
  firstStripe : Int := 0
  tolNm : Nat := 1
  edgeLevel : Nat := 0
  timeout : Nat := 100
  deriving DecidableEq, Repr, Inhabited

def parJig (kind : JigKind) (p : Bytes) : JigPar :=
  match kind with
  | .dark => { kind, fields := u8 p 0 % 16, strobesOff := bitOf (u8 p 1) 0, defectMode := u8 p 2, gapStrips := u8 p 3, lines := u32 p 4,
               darkTol := u16 p 8, darkMax := u16 p 12, fractionPpm := u32 p 16, timeout := u32 p 20 }
  | .flat => { kind, fields := u8 p 0 % 16, strobesOff := bitOf (u8 p 1) 0, darkShadow := bitOf (u8 p 1) 1, defectMode := u8 p 2,
               gapStrips := u8 p 3, lines := u32 p 4, target := u32 p 8, tolPpm := u32 p 12, fractionPpm := u32 p 16,
               gainMin := u16 p 20, gainMax := u16 p 22, timeout := u32 p 24 }
  | .geometry => { kind, fields := 1, gapStrips := u16 p 2, lines := u32 p 4, stripePitch := u32 p 8, firstStripe := s32 p 12,
                   tolNm := u32 p 16, edgeLevel := u32 p 20, timeout := u32 p 24 }

def badJig (kind : JigKind) (p : Bytes) : Option Nat :=
  match kind with
  | .dark => firstBad [(0, decide (u8 p 0 % 16 ≠ 0)), (2, inRange 0 2 (u8 p 2)), (4, inRange 256 65536 (u32 p 4)), (8, decide (1 ≤ u16 p 8)),
      (12, decide (1 ≤ u16 p 12)), (16, inRange 0 1000000 (u32 p 16)), (20, inRange 100 600000 (u32 p 20))]
  | .flat => firstBad [(0, decide (u8 p 0 % 16 ≠ 0)), (2, inRange 0 2 (u8 p 2)), (4, inRange 256 65536 (u32 p 4)),
      (8, decide (u32 p 8 ≤ 262143)), (12, inRange 1 1000000 (u32 p 12)), (16, inRange 0 1000000 (u32 p 16)),
      (20, decide (u16 p 20 ≤ u16 p 22)), (24, inRange 100 600000 (u32 p 24))]
  | .geometry => firstBad [(2, inRange 0 255 (u16 p 2)), (4, inRange 256 65536 (u32 p 4)), (8, inRange 100 100000 (u32 p 8)),
      (16, inRange 1 1000000 (u32 p 16)), (20, decide (u32 p 20 ≤ 262143)), (24, inRange 100 600000 (u32 p 24))]

end Sys2Proof.Machine
end

