-- ==== Sys2Proof/Machine/StPlane.lean ====
section
/-! DEFINITION. The state of the Plane and the Jig ("Correction and calibration"). -/

namespace Sys2Proof.Machine

/-- One bank of a slot's correction tables (Table 6-1). Entries equal to the default of Table 6-1 are not listed. -/
structure TableSet where
  dark : Vector (List (Nat × Nat)) 4 := .replicate 4 []
  gain : Vector (List (Nat × Nat)) 4 := .replicate 4 []
  gg : Vector Nat 4 := .replicate 4 4096
  lin : List (Nat × Nat) := []
  defect : List Nat := []
  deriving DecidableEq, Repr, Inhabited

/-- One checked table write: what LOAD_TABLE or the Jig puts into a bank. -/
structure TableWrite where
  kind : Nat := 0
  field : Nat := 0
  first : Nat := 0
  vals : List Nat := []
  deriving DecidableEq, Repr, Inhabited

/-- A shim update computed by drift tracking and in force from a later strip (R297). -/
structure ShimUpdate where
  field : Nat := 0
  zone : Nat := 0
  value : Nat := 16384
  fromLine : Nat := 0
  strip : Nat := 0
  deriving DecidableEq, Repr, Inhabited

/-- A pending capture of a drift reference: the zone, and the line from which a complete strip must begin (R296). -/
structure RefWant where
  field : Nat := 0
  zone : Nat := 0
  fromLine : Nat := 0
  deriving DecidableEq, Repr, Inhabited

/-- Table 6-8. -/
structure PlaneCounters where
  satLines : Nat := 0
  satSamples : Nat := 0
  replaced : Nat := 0
  driftUpdates : Nat := 0
  driftLimited : Nat := 0
  driftDiscarded : Nat := 0
  lateWrites : Nat := 0
  jigSkipped : Nat := 0
  jigAccepted : Nat := 0
  jigRejected : Nat := 0
  deriving DecidableEq, Repr, Inhabited

/-- One field of a corrected line as the Plane hands it on: samples, the line tag and its SAT flag; no samples for a gap. -/
structure CorrLine where
  line : Nat := 0
  field : Nat := 0
  gap : Bool := false
  samples : List Nat := []
  tag : Bytes := []
  sat : Bool := false
  deriving DecidableEq, Repr, Inhabited

/-- The Plane for one slot. -/
structure SlotPlane where
  active : TableSet := {}
  shadow : TableSet := {}
  /-- The bank captured at a hand-over; some while the bank is locked (R52, R58). -/
  captured : Option TableSet := none
  /-- Writes that met the lock, each with the ticket of its command (R53). -/
  held : List (TableWrite × Nat) := []
  /-- Zone shims, keyed by field x 64 + zone; 16,384 where not listed (R292). -/
  shims : List (Nat × Nat) := []
  updates : List ShimUpdate := []
  /-- Web line from which the last SET_ZONE_SHIM write to a zone is in force, keyed as the shims (R298). -/
  hostWrites : List (Nat × Nat) := []
  refs : List (Nat × Nat) := []
  wants : List RefWant := []
  /-- Ends of strips whose drift updates are still to be computed: strip, its last line, and the shims in force for it (R297). -/
  ends : List (Nat × Nat × List (Nat × Nat)) := []
  /-- Last web line the Plane began for the slot (R17). -/
  last : Option Nat := none
  /-- Corrected lines not yet taken by the Dovetail and the profile chain. -/
  out : List CorrLine := []
  cnt : PlaneCounters := {}
  deriving DecidableEq, Repr, Inhabited

/-- A calibration candidate (JIG_RESULT): pixel, field mask and reasons. -/
structure JigCand where
  pixel : Nat := 0
  fields : Nat := 0
  reasons : Nat := 0
  deriving DecidableEq, Repr, Inhabited

/-- Reasons of Table 6-7. -/
inductive JigReason where
  | none | fraction | defectLimit | edgeCount | knotDisagree | timeout | trigStopped | linkDown | configChanged | reset | linesShort
  deriving DecidableEq, Repr, Inhabited

def jigReasonCode : JigReason → Nat
  | .none => 0 | .fraction => 1 | .defectLimit => 2 | .edgeCount => 3 | .knotDisagree => 4 | .timeout => 5
  | .trigStopped => 6 | .linkDown => 7 | .configChanged => 8 | .reset => 9 | .linesShort => 10

/-- The completion figures of Table 6-7. -/
structure JigFigures where
  result : Nat := 0
  reason : JigReason := .none
  field : Nat := 0
  stripA : Nat := 0
  stripB : Nat := 0
  candidates : Nat := 0
  checked : Nat := 0
  agree : Nat := 0
  rms : Nat := 0
  peak : Nat := 0
  skipped : Nat := 0
  stageGen : Nat := 0
  targetUsed : Nat := 0
  deriving DecidableEq, Repr, Inhabited

/-- One knot of a geometry map (R333): X in um, P in 2^-20 pixel, D in Q8.24 pixels per um. -/
structure Knot where
  x : Int := 0
  p : Int := 0
  d : Int := 0
  deriving DecidableEq, Repr, Inhabited

/-- What an accepted calibration stages (R319, R324). -/
structure JigStaged where
  writes : List TableWrite := []
  map : Option (List Knot) := none
  deriving DecidableEq, Repr, Inhabited

/-- A Jig command running on a slot (R300 to R306). Sums are per field, one number a pixel. -/
structure JigRun where
  par : JigPar := {}
  ticket : Nat := 0
  /-- Time of acceptance, from which TIMEOUT runs. -/
  start : Nat := 0
  /-- First web line of pass A, once the Gauge has triggered it, and of pass B, once the Jig has reached it (R300). -/
  firstA : Option Nat := none
  firstB : Option Nat := none
  nextLine : Nat := 0
  passB : Bool := false
  sumsA : Vector (List Nat) 4 := .replicate 4 []
  sumsB : Vector (List Nat) 4 := .replicate 4 []
  nA : Vector Nat 4 := .replicate 4 0
  nB : Vector Nat 4 := .replicate 4 0
  darkCopy : Option TableSet := none
  skipped : Nat := 0
  skipEvent : Bool := false
  /-- Both passes are accumulated and the acceptance test may run (R326). -/
  ready : Bool := false
  /-- An accepted result waits for the Plane's swap of a pending glue-up (R320). -/
  result : Option (JigFigures × JigStaged × List JigCand) := none
  deriving DecidableEq, Repr, Inhabited

/-- The last Jig result of one kind on a slot (R322). -/
structure JigHeld where
  slot : Nat := 0
  kind : JigKind := .dark
  figures : JigFigures := {}
  cands : List JigCand := []
  deriving DecidableEq, Repr, Inhabited

/-- The Plane and the Jig. -/
structure PlaneUnit where
  slots : Vector SlotPlane 24 := .replicate 24 {}
  jig : Vector (Option JigRun) 24 := .replicate 24 none
  results : List JigHeld := []
  deriving DecidableEq, Repr, Inhabited

end Sys2Proof.Machine
end

