-- ==== Sys2Proof/Machine/StDovetail.lean ====
section
/-! DEFINITION. The settings and the state of the Dovetail ("Stitching across cameras"): GRID_CONFIG (Table 7-5),
KERF_CONFIG (Table 7-6), LOAD_GEOMETRY, seam shims, tracking, registration and tiling. -/

namespace Sys2Proof.Machine

/-- Table 7-5. -/
structure GridCfg where
  columns : Nat := 1
  pitchNm : Nat := 1000
  originUm : Int := 0
  kernel : Nat := 0
  anchor : Nat := 0
  order : List Nat := []
  uncoveredFill : Nat := 0
  base : Nat := 0
  exportCols : Nat := 0
  importCols : Nat := 0
  importWait : Nat := 100
  deriving DecidableEq, Repr, Inhabited

def parGrid (p : Bytes) : GridCfg :=
  { columns := u32 p 0, pitchNm := u32 p 4, originUm := s32 p 8, kernel := u8 p 13, anchor := u8 p 14,
    order := valsAt p 16 1 (min 24 (u8 p 12)), uncoveredFill := u32 p 40 % 2 ^ 18, base := u32 p 44, exportCols := u16 p 48,
    importCols := u16 p 50, importWait := u32 p 52 }

/-- Table 7-5: ranges, no slot twice in ORDER, 0xFF beyond SLOTS, ANCHOR below SLOTS. -/
def badGrid (p : Bytes) : Option Nat :=
  let n := u8 p 12
  let order := valsAt p 16 1 24
  let orderCheck := (List.range 24).map fun i =>
    let v := order.getD i 0
    (16 + i, if i < n then decide (v < 24) && !(order.take i).contains v else decide (v = 0xFF))
  firstBad ([(0, inRange 1 262144 (u32 p 0)), (4, inRange 1000 1000000 (u32 p 4)), (12, inRange 1 24 n), (13, inRange 0 2 (u8 p 13)),
    (14, decide (u8 p 14 < n))] ++ orderCheck ++
    [(48, decide (u16 p 48 ≤ 4096)), (50, decide (u16 p 50 ≤ 4096) && decide (u16 p 50 ≤ u32 p 0)), (52, inRange 100 10000 (u32 p 52))])

/-- Table 7-6. -/
structure KerfCfg where
  butt : Bool := false
  regEnable : Bool := false
  seamTrack : Bool := false
  shimStep : Nat := 1
  first : Nat := 0
  last : Nat := 0
  seamColumn : Nat := 0
  regAlarm : Nat := 1
  corrMin : Nat := 0
  deriving DecidableEq, Repr, Inhabited

def parKerf (p : Bytes) : KerfCfg :=
  { butt := decide (u8 p 0 = 1), regEnable := bitOf (u8 p 1) 1, seamTrack := bitOf (u8 p 1) 0, shimStep := u16 p 2, first := u32 p 4,
    last := u32 p 8, seamColumn := u32 p 12, regAlarm := u16 p 16, corrMin := u16 p 18 }

/-- A seam's kerf must lie clear of its staged neighbours' kerfs and splits (R352, R353, Table 7-6). KERF_FIRST and
KERF_LAST of seam 24 are ignored (R374). -/
def badKerf (unit : Nat) (p : Bytes) (prev next : Option KerfCfg) : Option Nat :=
  let first := u32 p 4
  let last := u32 p 8
  let isModule := decide (unit = 24)
  let butt := decide (u8 p 0 = 1)
  let afterPrev := match prev with
    | some k => decide (k.last < first) && (!k.butt || decide (k.seamColumn ≤ first))
    | none => true
  let beforeNext := match next with
    | some k => decide (last < k.first) && (!k.butt || decide (last < k.seamColumn))
    | none => true
  firstBad [(0, inRange 0 1 (u8 p 0)), (2, !bitOf (u8 p 1) 0 || inRange 1 654 (u16 p 2)), (4, isModule || afterPrev),
    (8, isModule || (decide (first ≤ last) && beforeNext)), (12, !butt || isModule || inRange first (last + 1) (u32 p 12)),
    (16, !bitOf (u8 p 1) 1 || inRange 1 32767 (u16 p 16))]

def parKnot (p : Bytes) (j : Nat) : Knot := { x := s32 p (8 + 16 * j), d := s32 p (12 + 16 * j), p := s64 p (16 + 16 * j) }

def parMap (p : Bytes) : List Knot := (List.range (u8 p 0)).map (parKnot p)

/-- LOAD_GEOMETRY: KNOTS 2 to 64; X strictly rising by at most 1,000,000 um (R333). -/
def badMap (p : Bytes) : Option Nat :=
  let n := u8 p 0
  firstBad ((0, inRange 2 64 n) ::
    (List.range n).map fun j =>
      let dx := (parKnot p j).x - (parKnot p (j - 1)).x
      (8 + 16 * j, decide (j = 0) || (decide (0 < dx) && decide (dx ≤ 1000000))))

/-- One import from the west neighbour (R372, R373). -/
structure ImportRow where
  line : Nat := 0
  field : Nat := 0
  /-- Column count that the export names. -/
  cols : Nat := 0
  gap : Bool := false
  sat : Bool := false
  samples : List Nat := []
  deriving DecidableEq, Repr, Inhabited

/-- A seam's sums over the present strip (R361, R364). Per field: SL and SR; field 0: the registration sums. -/
structure SeamAcc where
  strip : Nat := 0
  sl : Vector Nat 4 := .replicate 4 0
  sr : Vector Nat 4 := .replicate 4 0
  lines : Nat := 0
  corr : List Int := []
  el : Nat := 0
  er : Nat := 0
  deriving DecidableEq, Repr, Inhabited

/-- A seam's figures of the last complete strip (Table 7-7). -/
structure SeamFigures where
  strip : Nat := 0
  mismatch : Int := 0
  res : Int := 0
  corr : Nat := 0
  regValid : Bool := false
  outOfRange : Bool := false
  deriving DecidableEq, Repr, Inhabited

/-- Table 7-8. -/
structure DovetailCounters where
  stitched : Nat := 0
  dropped : Nat := 0
  importMissing : Nat := 0
  importLate : Nat := 0
  importMismatch : Nat := 0
  shimUpdates : Nat := 0
  shimLimited : Nat := 0
  shimDiscarded : Nat := 0
  lateWrites : Nat := 0
  regAlarms : Nat := 0
  deriving DecidableEq, Repr, Inhabited

/-- One slot's geometry map banks (R338). -/
structure MapBank where
  active : List Knot := []
  shadow : List Knot := []
  captured : Option (List Knot) := none
  held : List (List Knot × Nat) := []
  deriving DecidableEq, Repr, Inhabited

/-- The void samples of a stitched row (R384): rule 3 or 4 of R358, as column spans. -/
structure VoidRow where
  line : Nat := 0
  field : Nat := 0
  spans : List (Nat × Nat) := []
  deriving DecidableEq, Repr, Inhabited

/-- The strip ring's layout in force (R367, R371). -/
structure StripLayout where
  base : Nat := 0
  columns : Nat := 0
  fields : Nat := 1
  lines : Nat := 0
  deriving DecidableEq, Repr, Inhabited

/-- A stitched line on its way to the background filters (R475): per field its samples and its void columns. -/
structure FormedLine where
  line : Nat := 0
  rows : List (List Nat × List (Nat × Nat)) := []
  deriving DecidableEq, Repr, Inhabited

/-- The Dovetail. -/
structure Dovetail where
  maps : Vector MapBank 24 := .replicate 24 {}
  /-- The maps are captured and their shadow banks locked (R58). -/
  locked : Bool := false
  /-- Seam shims keyed by field x 32 + seam; 16,384 where not listed (R355). -/
  shims : List (Nat × Nat) := []
  updates : List ShimUpdate := []
  hostWrites : List (Nat × Nat) := []
  /-- Last web line begun. -/
  last : Option Nat := none
  imports : List ImportRow := []
  /-- Lines whose import was declared missing (R375). -/
  importMissing : List Nat := []
  acc : Vector SeamAcc 25 := .replicate 25 {}
  figures : Vector (Option SeamFigures) 25 := .replicate 25 none
  uncovered : Nat := 0
  layout : StripLayout := {}
  /-- First web line written under the present layout. -/
  layoutFrom : Option Nat := none
  voids : List VoidRow := []
  /-- Lines formed and not yet taken by the background filters. -/
  formed : List FormedLine := []
  cnt : DovetailCounters := {}
  deriving DecidableEq, Repr, Inhabited

end Sys2Proof.Machine
end

