-- ==== Sys2Proof/Machine/ParGauge.lean ====
section
/-! DEFINITION. The staged settings of the Gauge and of the operating range: SET_OPERATING_RANGE (Table 2-7),
ENCODER_CONFIG (Table 3-4), TRIGGER_CONFIG (Tables 3-5 and 3-6) and COMPARE_CONFIG, each with the reading of its
parameter bytes and the checks that ST_BAD_PARAM reports by offset. -/

namespace Sys2Proof.Machine

/-- Table 2-7. -/
structure OperatingRange where
  maxSpeed : Nat := 0
  minSpeed : Nat := 0
  countNm : Nat := 0
  deriving DecidableEq, Repr, Inhabited

def parOperatingRange (p : Bytes) : OperatingRange := { maxSpeed := u32 p 0, minSpeed := u32 p 4, countNm := u32 p 8 }

def badOperatingRange (p : Bytes) : Option Nat :=
  firstBad [(0, inRange 1 50000000 (u32 p 0)), (4, inRange 1 (u32 p 0) (u32 p 4)), (8, inRange 1 100000000 (u32 p 8))]

/-- Table 3-4. Roles: 0 off, 1 web, 2 reserve web, 3 axis. -/
structure EncoderCfg where
  role : Nat := 0
  filter : Nat := 1
  indexMode : Nat := 0
  sense : Bool := false
  speedAvg : Nat := 1
  reserveRatio : Nat := 0
  stillTimeout : Nat := 1000
  rezero : Int := 0
  deriving DecidableEq, Repr, Inhabited

def parEncoder (p : Bytes) : EncoderCfg :=
  { role := u8 p 0, filter := u8 p 1, indexMode := u8 p 2, sense := bitOf (u8 p 3) 0, speedAvg := u16 p 4,
    reserveRatio := u32 p 8, stillTimeout := u32 p 12, rezero := s64 p 16 }

/-- R141, R142 and Table 3-4; ROLE 0 is off, and R815 then leaves the other fields unchecked. -/
def badEncoder (unit : Nat) (p : Bytes) : Option Nat :=
  let role := u8 p 0
  let roleOk := decide (role = 0) || (decide (role = 1 ∨ role = 2) && decide (unit < 2)) || (decide (role = 3) && decide (2 ≤ unit))
  let off := decide (role = 0)
  firstBad [(0, roleOk), (1, off || inRange 1 15 (u8 p 1)),
    (2, off || (inRange 0 3 (u8 p 2) && !(decide (role = 1 ∨ role = 2) && decide (2 ≤ u8 p 2)))),
    (4, off || inRange 1 64 (u16 p 4)), (12, off || inRange 1000 1000000 (u32 p 12))]

/-- Table 3-5: the line sequence, TRIGGER_CONFIG unit 24. -/
structure LineSeq where
  pitch : Nat := 0
  k : Nat := 1
  adj : Int := 0
  fields : Nat := 1
  predict : Bool := false
  aLim : Nat := 0
  foff : List Nat := [0, 0, 0, 0]
  deriving DecidableEq, Repr, Inhabited

def parLineSeq (p : Bytes) : LineSeq :=
  { pitch := u32 p 0, k := u16 p 4, adj := s16 p 6, fields := u8 p 8, predict := decide (u8 p 9 = 1), aLim := u32 p 12,
    foff := [u32 p 16, u32 p 20, u32 p 24, u32 p 28] }

/-- Field offset of field f (R152). -/
def lineSeqFoff (q : LineSeq) (f : Nat) : Nat := q.foff.getD f 0

/-- Table 3-5 and R152: FOFF[0] is 0, offsets rise strictly with f over the fields in use and stay below PITCH. -/
def badLineSeq (p : Bytes) : Option Nat :=
  let n := u8 p 8
  let rise (f : Nat) : Bool :=
    decide (n ≤ f) || (decide (u32 p (16 + 4 * f - 4) < u32 p (16 + 4 * f)) && decide (u32 p (16 + 4 * f) < u32 p 0))
  firstBad [(0, decide (1 ≤ u32 p 0)), (4, decide (1 ≤ u16 p 4)), (8, inRange 1 4 n), (9, inRange 0 1 (u8 p 9)),
    (10, inRange 6 12 (u8 p 10)), (16, decide (u32 p 16 = 0)), (20, rise 1), (24, rise 2), (28, rise 3)]

/-- One strobe of a slot (R172); no TRG output is `none`. -/
structure Strobe where
  trg : Option Nat := none
  fieldMask : Nat := 0
  width : Nat := 8
  inverted : Bool := false
  deriving DecidableEq, Repr, Inhabited

/-- Table 3-6: a slot's triggers. -/
structure SlotTrigCfg where
  enable : Bool := false
  trgPacket : Bool := false
  offset : Int := 0
  lead : Nat := 0
  minPeriod : Nat := 1
  strobe0 : Strobe := {}
  strobe1 : Strobe := {}
  deriving DecidableEq, Repr, Inhabited

def strobeTrg (v : Nat) : Option Nat := if v = 0xFF then none else some v

def parSlotTrig (p : Bytes) : SlotTrigCfg :=
  { enable := decide (u8 p 0 = 1), trgPacket := bitOf (u8 p 1) 0, offset := s32 p 4, lead := u16 p 8, minPeriod := u16 p 10,
    strobe0 := { trg := strobeTrg (u8 p 12), fieldMask := u8 p 13 % 16, width := u16 p 16, inverted := bitOf (u8 p 20) 0 },
    strobe1 := { trg := strobeTrg (u8 p 14), fieldMask := u8 p 15 % 16, width := u16 p 18, inverted := bitOf (u8 p 20) 1 } }

/-- Table 3-6 with R815: an unused strobe's WIDTH and FIELDS, and every field of a slot with ENABLE 0, go unchecked. -/
def badSlotTrig (p : Bytes) : Option Nat :=
  let off := decide (u8 p 0 = 0)
  let trgOk (v : Nat) : Bool := decide (v < 8) || decide (v = 0xFF)
  firstBad [(0, inRange 0 1 (u8 p 0)), (10, off || decide (1 ≤ u16 p 10)), (12, off || trgOk (u8 p 12)), (14, off || trgOk (u8 p 14)),
    (16, off || decide (u8 p 12 = 0xFF) || decide (8 ≤ u16 p 16)), (18, off || decide (u8 p 14 = 0xFF) || decide (8 ≤ u16 p 18))]

/-- COMPARE_CONFIG. -/
structure CompareCfg where
  enable : Bool := false
  reverse : Bool := false
  output : Option Nat := none
  inverted : Bool := false
  width : Nat := 8
  eventEnable : Bool := false
  deriving DecidableEq, Repr, Inhabited

def parCompare (p : Bytes) : CompareCfg :=
  { enable := decide (u8 p 0 = 1), reverse := decide (u8 p 1 = 1), output := strobeTrg (u8 p 2), inverted := bitOf (u8 p 3) 0,
    width := u16 p 4, eventEnable := decide (u8 p 6 = 1) }

def badCompare (p : Bytes) : Option Nat :=
  let off := decide (u8 p 0 = 0)
  firstBad [(0, inRange 0 1 (u8 p 0)), (1, off || inRange 0 1 (u8 p 1)), (2, off || decide (u8 p 2 < 8) || decide (u8 p 2 = 0xFF)),
    (4, off || decide (u8 p 2 = 0xFF) || decide (8 ≤ u16 p 4)), (6, off || inRange 0 1 (u8 p 6))]

/-- One compare entry (Table 3-7). -/
structure CmpEntry where
  pos : Int := 0
  tag : Nat := 0
  pulse : Bool := false
  event : Bool := false
  axisStart : Bool := false
  axis : Nat := 0
  deriving DecidableEq, Repr, Inhabited

def parCmpEntry (p : Bytes) (off : Nat) : CmpEntry :=
  { pos := s64 p off, tag := u32 p (off + 8), pulse := bitOf (u8 p (off + 12)) 0, event := bitOf (u8 p (off + 12)) 1,
    axisStart := bitOf (u8 p (off + 12)) 2, axis := u8 p (off + 13) }

end Sys2Proof.Machine
end

