-- ==== Sys2Proof/Machine/StGauge.lean ====
section
/-! DEFINITION. The state of the Gauge: encoders, WebPos, the trigger sequencer, the TRG outputs and the compare
units ("Web encoders, sub-count line triggers and position compare"). -/

namespace Sys2Proof.Machine

/-- One encoder input (R132 to R150). Positions are in units of 2^-16 count. -/
structure Encoder where
  levelA : Bool := false
  levelB : Bool := false
  position : Int := 0
  /-- The present direction, true forward; none before the first count (R135). -/
  dir : Option Bool := none
  /-- Time of a held count opposite to the present direction (R135). -/
  held : Option Nat := none
  /-- Accepted counts since reset, the measure of the 4,096-count spans. -/
  counts : Nat := 0
  illegal : Nat := 0
  /-- Values of `counts` at the latest illegal transitions, newest first (R138). -/
  illegalAt : List Nat := []
  encFault : Bool := false
  /-- Time stamps of the counts accepted since start, reversal or standstill, newest first, at most 65. -/
  times : List Nat := []
  lastCount : Option Nat := none
  still : Bool := false
  indexPos : Int := 0
  /-- INDEX_MODE 2 acts at the next index edge only (R140). -/
  rezeroArmed : Bool := false
  deriving DecidableEq, Repr, Inhabited

/-- A trigger request of a slot: issued and waiting for its fire time, or held by MIN_PERIOD (R159, R163). -/
structure TrigPend where
  line : Nat := 0
  field : Nat := 0
  tpos : Int := 0
  /-- The request has been issued, and the target fires at `fireTime`. -/
  requested : Bool := false
  fireTime : Nat := 0
  late : Bool := false
  /-- The tag carries SKIP_BEFORE. -/
  skip : Bool := false
  deriving DecidableEq, Repr, Inhabited

/-- The trigger sequencer of one slot (R154, R163, R164). -/
structure SlotTrig where
  /-- The slot's next target, not yet requested or held: web line and field. -/
  nextLine : Nat := 0
  nextField : Nat := 0
  /-- It lay strictly behind WebPos when it became the next (R154). -/
  behind : Bool := false
  /-- Its request time came before the anchor count: the request waits for that count, and the tag carries LATE_TRIG (R162). -/
  overshot : Bool := false
  /-- Requests in order, those issued before those held. -/
  pend : List TrigPend := []
  lastRequest : Option Nat := none
  skipBefore : Bool := false
  deriving DecidableEq, Repr, Inhabited

/-- One TRG output: the active level it shows and when its pulse ends (R172, R178). -/
structure TrgOut where
  active : Bool := false
  inverted : Bool := false
  until_ : Nat := 0
  deriving DecidableEq, Repr, Inhabited

/-- An entry whose insertion has been accepted and completes within 2 us (R176). -/
structure CmpInsert where
  entry : CmpEntry := {}
  due : Nat := 0
  /-- The COMPARE_APPEND whose last entry this is. -/
  ticket : Option Nat := none
  deriving DecidableEq, Repr, Inhabited

/-- One compare unit (R174 to R181, R818). -/
structure CompareUnit where
  active : List CmpEntry := []
  shadow : List CmpEntry := []
  inserting : List CmpInsert := []
  /-- Entries of the COMPARE_APPEND in progress inserted and missed so far. -/
  inserted : Nat := 0
  notAhead : Nat := 0
  /-- Predicted fire time of the first active entry, when one is computed (R175). -/
  fireAt : Option Nat := none
  /-- End of the lock of a list swap (R179). -/
  lockUntil : Nat := 0
  lateWrites : Nat := 0
  deriving DecidableEq, Repr, Inhabited

/-- The Gauge's web position, reserve and line-trigger state. -/
structure Gauge where
  enc : Vector Encoder 6 := .replicate 6 {}
  webPos : Int := 0
  /-- `counts` of the web encoder at its last illegal transition (R137, R143). -/
  webIllegalAt : Option Nat := none
  /-- WebPos at that transition. -/
  webIllegalPos : Int := 0
  /-- The reserve offset of R143, in units of 2^-32 count. -/
  reserveOffset : Int := 0
  reserveActive : Bool := false
  trigEnabled : Bool := false
  trigHalted : Bool := false
  n0 : Nat := 0
  origin : Int := 0
  /-- START_LINE of the last accepted TRIGGER_ENABLE since reset. -/
  startLine : Option Nat := none
  /-- Last web line triggered. -/
  lastLine : Option Nat := none
  /-- Strip number and STRIP_SHIFT in force when that line was triggered (R46, R183). -/
  lastStrip : Nat := 0
  lastShift : Nat := 8
  /-- START_LINE has been accepted and its first target has not fired (R46). -/
  startPending : Bool := false
  /-- Last line to trigger under a MODE 0 disable (R168). -/
  stopAfter : Option Nat := none
  slots : Vector SlotTrig 24 := .replicate 24 {}
  lateTrig : Nat := 0
  trigSkip : Nat := 0
  missed : Nat := 0
  trg : Vector TrgOut 8 := .replicate 8 {}
  cmp : Vector CompareUnit 16 := .replicate 16 {}
  /-- Encoders for which an ENCODER_CONFIG was staged and answered ST_OK since the previous glue-up (R138). -/
  encStaged : List Nat := []
  /-- A TRIGGER_ENABLE that waits for the end of self-refresh (R556): its ticket and its parameters. -/
  enableWait : Option (Nat × Bytes) := none
  deriving DecidableEq, Repr, Inhabited

/-- A trigger tag (Table 3-2). -/
structure TrigTag where
  line : Nat := 0
  tpos : Int := 0
  stime : Nat := 0
  slot : Nat := 0
  field : Nat := 0
  skipBefore : Bool := false
  reserve : Bool := false
  late : Bool := false
  posq : Bool := false
  deriving DecidableEq, Repr, Inhabited

end Sys2Proof.Machine
end

