-- ==== Sys2Proof/Machine/StIngest.lean ====
section
/-! DEFINITION. The state of the ingest pipelines ("Line ingest, fields and shared pipelines"). -/

namespace Sys2Proof.Machine

/-- Gap causes of Table 5-4. -/
inductive GapCause where
  | buffer | deadline | incomplete | missing | noLink | skipped | stopped | relaid
  deriving DecidableEq, Repr, Inhabited

def gapCode : GapCause → Nat
  | .buffer => 1 | .deadline => 2 | .incomplete => 3 | .missing => 4 | .noLink => 5 | .skipped => 6 | .stopped => 7 | .relaid => 8

/-- An outstanding trigger tag; `passed` marks one that a later tag's line has overtaken (R249). -/
structure OutTag where
  tag : TrigTag := {}
  passed : Bool := false
  deriving DecidableEq, Repr, Inhabited

/-- A line in one of a slot's two entries (R253), or waiting under R699 when `tag` is none. -/
structure LineEntry where
  tag : Option TrigTag := none
  start : Nat := 0
  skew : Bool := false
  rfield : Nat := 0
  /-- The line has arrived whole; its pixel codes are `codes`. -/
  arrived : Bool := false
  codes : List Nat := []
  /-- Bytes and INCOMPLETE flag of a line that arrived whole before a tag for it did (R699). -/
  data : Bytes := []
  incomplete : Bool := false
  /-- Its Bench write is under way (R255). -/
  writing : Bool := false
  deriving DecidableEq, Repr, Inhabited

/-- Statistics gathered for one field of one strip (Table 5-5). Histogram bins hold the non-zero counts. -/
structure StripStats where
  strip : Nat := 0
  /-- First web line of the strip. -/
  firstLine : Nat := 0
  field : Nat := 0
  lines : Nat := 0
  gaps : Nat := 0
  count : Nat := 0
  hist : List (Nat × Nat) := []
  sum : Nat := 0
  min : Nat := 0x3FFFF
  max : Nat := 0
  sat : Nat := 0
  dark : Nat := 0
  grad : Nat := 0
  short : Nat := 0
  long : Nat := 0
  skew : Nat := 0
  deriving DecidableEq, Repr, Inhabited

/-- Table 5-7. -/
structure IngestCounters where
  linesWritten : Nat := 0
  gapBuffer : Nat := 0
  gapDeadline : Nat := 0
  gapIncomplete : Nat := 0
  gapMissing : Nat := 0
  gapNoLink : Nat := 0
  gapSkipped : Nat := 0
  gapStopped : Nat := 0
  gapRelaid : Nat := 0
  untriggered : Nat := 0
  short : Nat := 0
  long : Nat := 0
  fieldSkew : Nat := 0
  tagOverflow : Nat := 0
  deriving DecidableEq, Repr, Inhabited

/-- One slot of a pipeline. -/
structure SlotIngest where
  outstanding : List OutTag := []
  entries : List LineEntry := []
  /-- Lines of a passive module waiting up to 2 us for tags from JM (R699). -/
  unmatched : List LineEntry := []
  /-- Web line and field of the slot's previous tag (R251). -/
  prevTag : Option (Nat × Nat) := none
  /-- First web line not yet at or behind the ready point; none before the first tag (R266). -/
  nextReady : Option Nat := none
  /-- Tags written past the ready point: web line, field, gap cause code (0 for a line). -/
  written : List (Nat × Nat × Nat) := []
  /-- RELAID gaps of this slot that its readers have not passed: web line, field (R267). -/
  relaid : List (Nat × Nat) := []
  /-- Gap tags whose ring position still holds an unread line (R256): web line, field, line tag. -/
  gapsWaiting : List (Nat × Nat × Bytes) := []
  /-- Web lines of strips before the current one that an immediate stop kept from being triggered in this slot, as spans. -/
  holes : List (Nat × Nat) := []
  /-- First web line under the ring's present layout, until the slot's tags reach it (R267). -/
  relayFrom : Option Nat := none
  stats : List StripStats := []
  cnt : IngestCounters := {}
  deriving DecidableEq, Repr, Inhabited

/-- The layout of a pipeline's line ring in force (R263, R267). -/
structure RingLayout where
  base : Nat := 0
  widthA : Nat := 0
  widthB : Nat := 0
  fields : Nat := 1
  depth : Nat := 0
  statsDepth : Nat := 0
  deriving DecidableEq, Repr, Inhabited

/-- The ingest pipelines P0 to P11. -/
structure Ingest where
  slots : Vector SlotIngest 24 := .replicate 24 {}
  layout : Vector RingLayout 12 := .replicate 12 {}
  deriving DecidableEq, Repr, Inhabited

end Sys2Proof.Machine
end

