-- ==== Sys2Proof/Machine/StLinks.lean ====
section
/-! DEFINITION. The state of the camera links and through connectors ("Camera links: CoaXPress, KX-25 and through-lanes"). -/

namespace Sys2Proof.Machine

/-- The connection states of Table 4-4. -/
inductive ConnState where
  | off | search | configure | kxSwitch | stepUp | adapt | testConn | active | degraded | linkTest | error
  deriving DecidableEq, Repr, Inhabited

/-- The state codes under Table 4-5. -/
def connCode : ConnState → Nat
  | .off => 0 | .search => 1 | .configure => 2 | .kxSwitch => 3 | .stepUp => 4 | .adapt => 5
  | .testConn => 6 | .active => 7 | .degraded => 8 | .linkTest => 9 | .error => 10

/-- The connection causes of Table 4-5. -/
inductive ConnCause where
  | none | noCamera | ctrlFail | miswired | noLock | kxFail | lockLost | heartbeat | codeErrors | rateBelow | noHsUplink | kxFallback
  deriving DecidableEq, Repr, Inhabited

def connCauseCode : ConnCause → Nat
  | .none => 0 | .noCamera => 1 | .ctrlFail => 2 | .miswired => 3 | .noLock => 4 | .kxFail => 5 | .lockLost => 6
  | .heartbeat => 7 | .codeErrors => 8 | .rateBelow => 16 | .noHsUplink => 17 | .kxFallback => 18

/-- The PoCXP states of Table 4-10. -/
inductive PocxpState where
  | off | detecting | on | retryWait | fault | notPocxp | vcamLow
  deriving DecidableEq, Repr, Inhabited

def pocxpCode : PocxpState → Nat
  | .off => 0 | .detecting => 1 | .on => 2 | .retryWait => 3 | .fault => 4 | .notPocxp => 5 | .vcamLow => 6

/-- One receive lane: camera links 0 to 47, then the input lanes of TH0 and TH1 (R218 to R222). -/
structure Lane where
  quality : Nat := 0
  height : Nat := 0
  boost : Nat := 0
  locked : Bool := false
  connNo : Nat := 0
  codeErr : Nat := 0
  lockLoss : Nat := 0
  pktCrc : Nat := 0
  ctrlCrc : Nat := 0
  /-- The quality event has been raised and has not re-armed (R222). -/
  warned : Bool := false
  deriving DecidableEq, Repr, Inhabited

/-- What a control transaction of a slot is for (R193, R200, R213). -/
inductive CtrlTxn where
  | bootRead
  | kxCapsRead
  | connConfig (rate links : Nat)
  | kxRate
  | connReset
  | kxConfirm
  | kxStatus
  | pktMaxWrite
  | camRead (ticket addr len : Nat)
  | camWrite (ticket addr : Nat) (todo : Bytes) (done : Nat)
  deriving DecidableEq, Repr, Inhabited

/-- What a camera's bootstrap registers report (R187, R188, R191, R200). Lists run over the links of the group. -/
structure CamCaps where
  identities : List Nat := []
  connNos : List Nat := []
  maxRate : Nat := 1
  hsUplink : Bool := false
  tagSupport : Bool := false
  deriving DecidableEq, Repr, Inhabited

/-- The image header of a stream (R191, R211): line-scan mode and its pixel format in bits. -/
structure ImageHeader where
  lineScan : Bool := true
  pixelFormat : Nat := 8
  deriving DecidableEq, Repr, Inhabited

/-- A stream packet as received on a link (R210). `first` and `last` mark the packets at which a line starts and ends. -/
structure StreamPkt where
  link : Nat := 0
  tag : Nat := 0
  crcOk : Bool := true
  streamId : Nat := 0
  header : Option ImageHeader := none
  first : Bool := false
  last : Bool := false
  data : Bytes := []
  deriving DecidableEq, Repr, Inhabited

/-- A packet waiting in the reassembly window, with the short time at which it was complete. -/
structure WindowPkt where
  pkt : StreamPkt := {}
  time : Nat := 0
  deriving DecidableEq, Repr, Inhabited

/-- Reassembly of a slot's stream (R210 to R212). -/
structure StreamState where
  nextTag : Option Nat := none
  window : List WindowPkt := []
  headerOk : Bool := false
  /-- A line is being received: its start time, the payload so far and its INCOMPLETE flag. -/
  lineStart : Option Nat := none
  lineData : Bytes := []
  incomplete : Bool := false
  deriving DecidableEq, Repr, Inhabited

/-- One camera slot (Table 4-10 and the bring-up of R193 to R201). -/
structure SlotLink where
  state : ConnState := .off
  cause : ConnCause := .none
  /-- Time at which the present state or lock wait began. -/
  since : Nat := 0
  /-- Time of the last heartbeat, or of the entry into ACTIVE or DEGRADED. -/
  lastBeat : Nat := 0
  rate : Nat := 0
  links : Nat := 0
  caps : CamCaps := {}
  /-- The present step was already repeated once at this rate (R194). -/
  repeated : Bool := false
  tryRate : Nat := 0
  /-- KX-25 switch failures in this bring-up (R201). -/
  kxFails : Nat := 0
  /-- KX-25 has failed twice and is not tried again in this bring-up (R201). -/
  kxGiveUp : Bool := false
  /-- KX_CAPS as read (Table 4-6). -/
  kxCaps : Nat := 0
  /-- Ticket and start time of a LINK_DISCOVER waiting for its completion. -/
  discover : Option (Nat × Nat) := none
  ctrl : List CtrlTxn := []
  ctrlRetried : Bool := false
  /-- End of the wait that the camera's wait acknowledgements have extended (R214). -/
  ctrlDeadline : Nat := 0
  ctrlLatest : Nat := 0
  stream : StreamState := {}
  trigSent : Nat := 0
  trigNolink : Nat := 0
  trigAck : Nat := 0
  heartbeatMiss : Nat := 0
  eventPkt : Nat := 0
  streamErr : Nat := 0
  ctrlRetry : Nat := 0
  tagGap : Nat := 0
  deriving DecidableEq, Repr, Inhabited

/-- One slot's PoCXP switch, in the Holdfast domain (R204 to R209). -/
structure Pocxp where
  state : PocxpState := .off
  /-- Mode 1 is in force: a VCAM recovery repeats detection (R207). -/
  mode1 : Bool := false
  firstTrip : Option Nat := none
  /-- Time of the last trip, from which the retry runs (R206). -/
  trippedAt : Nat := 0
  deriving DecidableEq, Repr, Inhabited

/-- A running PRBS test (R223 to R228). -/
structure PrbsRun where
  lane : Nat := 0
  par : PrbsPar := {}
  ticket : Nat := 0
  deriving DecidableEq, Repr, Inhabited

/-- A running EYE_SCAN. -/
structure EyeRun where
  lane : Nat := 0
  mode : Nat := 0
  force : Bool := false
  ref : BulkRef := {}
  ticket : Nat := 0
  deriving DecidableEq, Repr, Inhabited

/-- One through connector (Table 4-11). -/
structure Through where
  relaySource : Bool := false
  relayLocked : Bool := false
  relayDelay : Option Nat := none
  relayCharErr : Nat := 0
  inLockLoss : Nat := 0
  deriving DecidableEq, Repr, Inhabited

/-- The camera-link layer. -/
structure Links where
  lanes : Vector Lane 96 := .replicate 96 {}
  slots : Vector SlotLink 24 := .replicate 24 {}
  pocxp : Vector Pocxp 24 := .replicate 24 {}
  vcamLow : Bool := false
  /-- Slots whose detection waits for its turn, in order (R756). -/
  detectQueue : List Nat := []
  /-- Time of the last PoCXP switch-on (R756). -/
  lastSwitchOn : Option Nat := none
  through : Vector Through 2 := .replicate 2 {}
  prbs : List PrbsRun := []
  eye : List EyeRun := []
  /-- Slots for which a LINK_CONFIG was staged since the previous glue-up (R197). -/
  linkStaged : List Nat := []
  deriving DecidableEq, Repr, Inhabited

end Sys2Proof.Machine
end

