-- ==== Sys2Proof/Config.lean ====
section
/-! DEFINITION. What one part fixes and the manual does not (R820, Table 18-6, R31), and the free values: constants
without a body, so that nothing can be proved of their values. -/

namespace Sys2Proof

/-- The value with number `n` among those that the manual leaves open; `State.free` counts them. -/
opaque Config.freeValue : Nat → Nat

/-- Eloarik's PCI Express Vendor ID (Table 13-1, Table 18-6). -/
opaque Config.vendorId : Nat
/-- SILICON_REV (R820). -/
opaque Config.siliconRev : Nat
/-- Module serial number. -/
opaque Config.serial : Nat
/-- MAC addresses of the Ethernet ports. -/
opaque Config.mac0 : Nat
opaque Config.mac1 : Nat
/-- Version, security version and key slot of the factory image and of what the update slots hold when shipped. -/
opaque Config.goldenVersion : Nat
opaque Config.goldenSecurity : Nat
/-- The factory pace table (R31): the pace at a VFAB in mV and a junction temperature in degrees. -/
opaque Config.paceTable : Nat → Int → Nat
/-- The configured worst case of records, patches and queue bodies in MB/s (Table 2-16): the manual gives one figure and no rule. Of the
enabled queues' body sizes in KiB and patch stores in MiB. -/
opaque Config.scribeDemand : List (Nat × Nat) → Nat
/-- clockIdentity and offsetScaledLogVariance of the local clock, which IEEE 1588-2019 needs and the manual does not give. -/
opaque Config.clockIdentity : Nat
opaque Config.clockVariance : Nat

/-- What the header and the checks of a command processor image say (R733): the manual lists its fields and not their
places, and the checks are cryptographic. -/
opaque Config.imageVersion : Bytes → Nat
opaque Config.imageSecurity : Bytes → Nat
opaque Config.imageKeySlot : Bytes → Nat
opaque Config.imageLength : Bytes → Nat
opaque Config.imageSigned : Bytes → Bool
opaque Config.imageDigest : Bytes → Bool
/-- What a debug token says (R735), likewise. -/
opaque Config.tokenSerial : Bytes → Nat
opaque Config.tokenChallenge : Bytes → Nat
opaque Config.tokenScope : Bytes → Nat
opaque Config.tokenKeySlot : Bytes → Nat
opaque Config.tokenSigned : Bytes → Bool

end Sys2Proof
end

