-- ==== Sys2Proof/Machine/StMarquetry.lean ====
section
/-! DEFINITION. The settings and the state of Marquetry ("Defect segmentation and classification"): CLASS_CONFIG
(Table 8-13), REGION_CONFIG (Table 8-14), RULE_CONFIG (Table 8-15), the region table, the run window, edge messages and
closed items. -/

namespace Sys2Proof.Machine

/-- Table 8-13. -/
structure ClassCfg where
  enable : Bool := false
  field : Nat := 0
  op : Nat := 0
  outside : Bool := false
  low : Int := 0
  high : Int := 0
  deriving DecidableEq, Repr, Inhabited

def parClass (p : Bytes) : ClassCfg :=
  { enable := decide (u8 p 0 = 1), field := u8 p 1, op := u8 p 2, outside := decide (u8 p 3 = 1), low := s32 p 4, high := s32 p 8 }

/-- The range of q for an OP (Table 8-1). -/
def classRange (op : Nat) : Int × Int :=
  match op with
  | 0 => (0, 262143)
  | 1 => (-262143, 262143)
  | _ => (0, 65535)

def badClass (p : Bytes) : Option Nat :=
  let off := decide (u8 p 0 = 0)
  let r := classRange (u8 p 2)
  let inQ (v : Int) : Bool := decide (r.1 ≤ v) && decide (v ≤ r.2)
  firstBad [(0, inRange 0 1 (u8 p 0)), (1, off || inRange 0 3 (u8 p 1)), (2, off || inRange 0 2 (u8 p 2)), (3, off || inRange 0 1 (u8 p 3)),
    (4, off || (inQ (s32 p 4) && decide (s32 p 4 ≤ s32 p 8))), (8, off || inQ (s32 p 8))]

/-- A decision: what a rule or the defaults give an item (R405). -/
structure Decision where
  rule : Nat := 64
  type : Nat := 0
  severity : Nat := 0
  actions : Nat := 0
  queue : Nat := 0
  station : Nat := 0
  deriving DecidableEq, Repr, Inhabited

/-- The actions of Table 8-6. -/
def actReport (d : Decision) : Bool := bitOf d.actions 0
def actPatch (d : Decision) : Bool := bitOf d.actions 1
def actMark (d : Decision) : Bool := bitOf d.actions 2
def actAlarm (d : Decision) : Bool := bitOf d.actions 3
def actSuppress (d : Decision) : Bool := bitOf d.actions 4

/-- An action set that keeps Table 8-6 (R408); bits 7 to 5 are ignored. -/
def actionsOk (a : Nat) : Bool :=
  let rep := bitOf a 0
  (!bitOf a 1 || rep) && (!bitOf a 2 || rep) && (!bitOf a 4 || decide (a % 16 = 0))

/-- Table 8-14; the defaults are those of R821. -/
structure RegionCfg where
  gc : Nat := 0
  gl : Nat := 0
  intField : Nat := 0
  lmax : Nat := 65536
  bgLag : Nat := 256
  dflt : Decision := {}
  overflowQueue : Option Nat := none
  alarmTrg : Option Nat := none
  alarmInverted : Bool := false
  alarmWidth : Nat := 8
  tableWarn : Nat := 0
  deriving DecidableEq, Repr, Inhabited

def parRegion (p : Bytes) : RegionCfg :=
  { gc := u8 p 0, gl := u8 p 1, intField := u8 p 2, lmax := u32 p 4, bgLag := u16 p 8,
    dflt := { rule := 64, type := u16 p 10, severity := u8 p 12, actions := u8 p 13 % 32, queue := u8 p 14,
              station := if bitOf (u8 p 13) 2 then u8 p 15 else 0 },
    overflowQueue := queueRef (u8 p 16), alarmTrg := strobeTrg (u8 p 17), alarmInverted := bitOf (u8 p 18) 0, alarmWidth := u16 p 20,
    tableWarn := u32 p 24 }

def badRegion (p : Bytes) : Option Nat :=
  firstBad [(0, inRange 0 63 (u8 p 0)), (1, inRange 0 63 (u8 p 1)), (2, inRange 0 3 (u8 p 2)), (4, inRange 16 65536 (u32 p 4)),
    (8, inRange 1 4096 (u16 p 8)), (12, inRange 0 7 (u8 p 12)), (13, actionsOk (u8 p 13)), (14, inRange 0 15 (u8 p 14)),
    (15, !bitOf (u8 p 13) 2 || inRange 0 3 (u8 p 15)), (16, decide (u8 p 16 < 16) || decide (u8 p 16 = 0xFF)),
    (17, decide (u8 p 17 < 8) || decide (u8 p 17 = 0xFF)), (20, decide (u8 p 17 = 0xFF) || decide (8 ≤ u16 p 20)),
    (24, inRange 0 131072 (u32 p 24))]

/-- One test of a rule (Table 8-15); `feature` none is 0xFF. -/
structure RuleTest where
  feature : Option Nat := none
  min : Nat := 0
  max : Nat := 0
  deriving DecidableEq, Repr, Inhabited

/-- Table 8-15. -/
structure RuleCfg where
  enable : Bool := false
  decision : Decision := {}
  maskAny : Nat := 0
  maskAll : Nat := 0
  maskNone : Nat := 0
  flagsAny : Nat := 0
  flagsNone : Nat := 0
  tests : List RuleTest := []
  deriving DecidableEq, Repr, Inhabited

def parRuleTest (p : Bytes) (i : Nat) : RuleTest :=
  { feature := if u8 p (20 + 12 * i) = 0xFF then none else some (u8 p (20 + 12 * i)), min := u32 p (24 + 12 * i), max := u32 p (28 + 12 * i) }

def parRule (unit : Nat) (p : Bytes) : RuleCfg :=
  { enable := decide (u8 p 0 = 1),
    decision := { rule := unit, actions := u8 p 1 % 32, severity := u8 p 2, queue := u8 p 3, type := u16 p 4,
                  station := if bitOf (u8 p 1) 2 then u8 p 16 else 0 },
    maskAny := u16 p 6, maskAll := u16 p 8, maskNone := u16 p 10, flagsAny := u16 p 12, flagsNone := u16 p 14,
    tests := (List.range 4).map (parRuleTest p) }

def badRule (p : Bytes) : Option Nat :=
  let off := decide (u8 p 0 = 0)
  let testChecks := (List.range 4).flatMap fun i =>
    let f := u8 p (20 + 12 * i)
    [(20 + 12 * i, off || decide (f ≤ 12) || decide (f = 0xFF)),
     (24 + 12 * i, off || decide (f = 0xFF) || decide (u32 p (24 + 12 * i) ≤ u32 p (28 + 12 * i)))]
  firstBad ([(0, inRange 0 1 (u8 p 0)), (1, off || actionsOk (u8 p 1)), (2, off || inRange 0 7 (u8 p 2)), (3, off || inRange 0 15 (u8 p 3)),
    (16, off || !bitOf (u8 p 1) 2 || inRange 0 3 (u8 p 16))] ++ testChecks)

/-- The banked segmentation settings (R379). -/
structure SegBank where
  classes : Vector ClassCfg 16 := .replicate 16 {}
  region : Option RegionCfg := none
  rules : Vector RuleCfg 64 := .replicate 64 {}
  deriving DecidableEq, Repr, Inhabited

/-- One write to the segmentation settings: opcode, unit and parameters, with the ticket of its command. -/
structure SegWrite where
  opcode : Nat := 0
  unit : Nat := 0
  params : Bytes := []
  ticket : Nat := 0
  deriving DecidableEq, Repr, Inhabited

/-- A region's exact sums (Table 8-3). Lines are offsets from FIRST_LINE, columns web-wide. -/
structure Feat where
  area : Nat := 0
  minCol : Nat := 0
  maxCol : Nat := 0
  firstLine : Nat := 0
  lastLine : Nat := 0
  firstPos : Int := 0
  lastPos : Int := 0
  firstStime : Nat := 0
  sc : Nat := 0
  scc : Nat := 0
  sl : Nat := 0
  sll : Nat := 0
  scl : Nat := 0
  isum : Nat := 0
  imin : Nat := 0x3FFFF
  imax : Nat := 0
  perim : Nat := 0
  votes : List Nat := []
  maskOr : Nat := 0
  deriving DecidableEq, Repr, Inhabited

/-- A region of the table: OPEN, or PENDING (R390). `flags` holds bits 8 to 15 of RFLAGS and those of applied fragments. -/
structure Region where
  id : Nat := 0
  chainId : Nat := 0
  chainIndex : Nat := 0
  feat : Feat := {}
  lastRun : Nat := 0
  pending : Bool := false
  links : List Nat := []
  flags : Nat := 0
  /-- It has held an edge run, or absorbed a region that has (R413). -/
  boundary : Bool := false
  deriving DecidableEq, Repr, Inhabited

/-- The slot of a region ID (R12). -/
def regionSlot (id : Nat) : Nat := id % 2 ^ 17
def regionId (gen slot : Nat) : Nat := (gen % 2 ^ 15) * 2 ^ 17 + slot

/-- A run of the window (R389). Ghost runs lie at negative local columns (R417). -/
structure WinRun where
  line : Nat := 0
  start : Int := 0
  stop : Int := 0
  mask : Nat := 0
  region : Nat := 0
  ghost : Bool := false
  deriving DecidableEq, Repr, Inhabited

/-- An edge run of an edge message, web-wide columns (Table 8-7). -/
structure EdgeRun where
  start : Nat := 0
  stop : Nat := 0
  mask : Nat := 0
  region : Nat := 0
  deriving DecidableEq, Repr, Inhabited

/-- A fragment of an edge message (Table 8-7). -/
structure Fragment where
  id : Nat := 0
  chainId : Nat := 0
  chainIndex : Nat := 0
  feat : Feat := {}
  lastRun : Nat := 0
  rflags : Nat := 0
  deriving DecidableEq, Repr, Inhabited

/-- An edge message (Table 8-7). -/
structure EdgeMsg where
  line : Nat := 0
  renames : List (Nat × Nat) := []
  runs : List EdgeRun := []
  fragments : List Fragment := []
  deriving DecidableEq, Repr, Inhabited

/-- A closed and classified item (R394, R405). -/
structure ClosedItem where
  id : Nat := 0
  chainId : Nat := 0
  chainIndex : Nat := 0
  feat : Feat := {}
  rflags : Nat := 0
  closeLine : Nat := 0
  lastRun : Nat := 0
  boundary : Bool := false
  decision : Decision := {}
  deriving DecidableEq, Repr, Inhabited

/-- The overflow count of a strip (R396). -/
structure Overflow where
  strip : Nat := 0
  runs : Nat := 0
  samples : Nat := 0
  minCol : Nat := 0
  maxCol : Nat := 0
  deriving DecidableEq, Repr, Inhabited

/-- Table 8-17. -/
structure MarqCounters where
  opened : Nat := 0
  closed : Nat := 0
  merges : Nat := 0
  cuts : Nat := 0
  flushed : Nat := 0
  ovfSamples : Nat := 0
  ovfStrips : Nat := 0
  runLimitLines : Nat := 0
  runLimitSamples : Nat := 0
  suppressed : Nat := 0
  handed : Nat := 0
  fragSent : Nat := 0
  fragApplied : Nat := 0
  fragLocal : Nat := 0
  edgeMissing : Nat := 0
  linksLost : Nat := 0
  lateWrites : Nat := 0
  alarms : Nat := 0
  deriving DecidableEq, Repr, Inhabited

/-- Marquetry. -/
structure Marquetry where
  active : SegBank := {}
  shadow : SegBank := {}
  captured : Option SegBank := none
  held : List SegWrite := []
  regions : List Region := []
  /-- Generation of each region slot, by slot; 0 where not listed (R390). -/
  gens : List (Nat × Nat) := []
  window : List WinRun := []
  /-- Segmented spans of the last two lines processed, web-wide columns, newest first (R402). -/
  spans : List (Nat × List (Nat × Nat)) := []
  /-- SFLAGS of the lines that hold any, as far back as an open region reaches (R403). -/
  lineFlags : List (Nat × Nat) := []
  closed : List ClosedItem := []
  overflow : Option Overflow := none
  edges : List EdgeMsg := []
  edgeMissing : List Nat := []
  last : Option Nat := none
  lastStrip : Nat := 0
  handed : Nat := 0
  highWater : Nat := 0
  ovfStrip : Nat := 0
  ovfSamples : Nat := 0
  warned : Bool := false
  hits : List (Nat × Nat) := []
  cnt : MarqCounters := {}
  deriving DecidableEq, Repr, Inhabited

end Sys2Proof.Machine
end

