-- ==== Sys2Proof/Machine/StScribe.lean ====
section
/-! DEFINITION. The settings and the state of the Scribe ("Defect records, patches, queues and mark scheduling"):
QUEUE_CONFIG, PATCH_CONFIG (Table 9-9), MARK_STATION (Table 9-10), the queues, patches and marks. -/

namespace Sys2Proof.Machine

structure QueueCfg where
  enable : Bool := false
  bodyKib : Nat := 0
  deriving DecidableEq, Repr, Inhabited

def parQueue (p : Bytes) : QueueCfg := { enable := decide (u8 p 0 = 1), bodyKib := u32 p 4 }

def isPow2 (v : Nat) : Bool := decide (0 < v) && decide (2 ^ v.log2 = v)

def badQueue (p : Bytes) : Option Nat :=
  firstBad [(0, inRange 0 1 (u8 p 0)), (4, decide (u8 p 0 = 0) || (isPow2 (u32 p 4) && inRange 64 1048576 (u32 p 4)))]

/-- Table 9-9. -/
structure PatchCfg where
  enable : Bool := false
  fields : Nat := 1
  marginCols : Nat := 0
  marginLines : Nat := 0
  level : Nat := 1
  pretransform : Bool := false
  engine : Nat := 0
  storeMib : Nat := 8
  deriving DecidableEq, Repr, Inhabited

def parPatch (p : Bytes) : PatchCfg :=
  { enable := decide (u8 p 0 = 1), fields := u8 p 1 % 16, marginCols := u8 p 2, marginLines := u8 p 3, level := u8 p 4,
    pretransform := bitOf (u8 p 5) 0, engine := u8 p 6, storeMib := u32 p 8 }

def badPatch (p : Bytes) : Option Nat :=
  let off := decide (u8 p 0 = 0)
  firstBad [(0, inRange 0 1 (u8 p 0)), (1, off || decide (u8 p 1 % 16 ≠ 0)), (4, off || inRange 1 9 (u8 p 4)), (6, off || inRange 0 15 (u8 p 6)),
    (8, off || inRange 8 4096 (u32 p 8))]

/-- Table 9-10. -/
structure StationCfg where
  enable : Bool := false
  posAxis : Nat := 0
  strokeAxis : Option Nat := none
  compare : Nat := 0
  pulse : Bool := false
  fireOffset : Int := 0
  colScale : Int := 0
  colOrigin : Int := 0
  travelMin : Int := 0
  travelMax : Int := 0
  maxCountRate : Nat := 1
  settle : Nat := 0
  dwell : Nat := 0
  deriving DecidableEq, Repr, Inhabited

def parStation (p : Bytes) : StationCfg :=
  { enable := decide (u8 p 0 = 1), posAxis := u8 p 1, strokeAxis := queueRef (u8 p 2), compare := u8 p 3, pulse := bitOf (u8 p 4) 0,
    fireOffset := s64 p 8, colScale := s32 p 16, colOrigin := s32 p 20, travelMin := s32 p 24, travelMax := s32 p 28,
    maxCountRate := u32 p 32, settle := u32 p 36, dwell := u32 p 40 }

def badStation (p : Bytes) : Option Nat :=
  let off := decide (u8 p 0 = 0)
  firstBad [(0, inRange 0 1 (u8 p 0)), (1, off || inRange 0 3 (u8 p 1)),
    (2, off || decide (u8 p 2 = 0xFF) || (inRange 0 3 (u8 p 2) && decide (u8 p 2 ≠ u8 p 1))), (3, off || inRange 0 15 (u8 p 3)),
    (24, off || decide (s32 p 24 ≤ s32 p 28)), (32, off || inRange 1 25000000 (u32 p 32)), (36, off || inRange 0 1000000 (u32 p 36)),
    (40, off || inRange 0 1000000 (u32 p 40))]

/-- The record kinds of Table 9-1. -/
inductive RecKind where
  | defect | statistics | camEvent | overflow
  deriving DecidableEq, Repr, Inhabited

def recKindCode : RecKind → Nat
  | .defect => 1 | .statistics => 2 | .camEvent => 3 | .overflow => 4

/-- The place of a kind within a strip (R429). -/
def recKindOrder : RecKind → Nat
  | .defect => 0 | .overflow => 1 | .statistics => 2 | .camEvent => 3

/-- An item waiting to be placed (R426). `body` is bytes 8 to 63 of its record; a DEFECT item carries its region. -/
structure ScribeItem where
  kind : RecKind := .defect
  queue : Nat := 0
  strip : Nat := 0
  /-- Last web line of the strip, by which strips are ordered. -/
  lastLine : Nat := 0
  slot : Nat := 0
  field : Nat := 0
  body : Bytes := []
  item : Option ClosedItem := none
  deriving DecidableEq, Repr, Inhabited

/-- A record placed and not yet released or overwritten. -/
structure LiveRec where
  seq : Nat := 0
  strip : Nat := 0
  ticket : Nat := 0
  patchTicket : Option Nat := none
  deriving DecidableEq, Repr, Inhabited

/-- The queue block of Table 9-12. -/
structure QueueCounters where
  written : Nat := 0
  released : Nat := 0
  lost : Nat := 0
  unreadLost : Nat := 0
  emptyReads : Nat := 0
  rewinds : Nat := 0
  markLosses : Nat := 0
  patchesCut : Nat := 0
  patchesLost : Nat := 0
  truncated : Nat := 0
  noPatch : Nat := 0
  offDiscards : Nat := 0
  deriving DecidableEq, Repr, Inhabited

/-- A stored patch (R450). Offsets are within the queue's store ring. -/
structure StoredPatch where
  seq : Nat := 0
  ticket : Nat := 0
  off : Nat := 0
  len : Nat := 0
  deriving DecidableEq, Repr, Inhabited

/-- One queue (R432 to R445). -/
structure Queue where
  on : Bool := false
  cap : Nat := 0
  base : Nat := 0
  wr : Nat := 0
  rd : Nat := 0
  rel : Nat := 0
  mkp : Nat := 0
  markValid : Bool := false
  markLost : Bool := false
  /-- Records in the head's stages, from RD on (R434). -/
  head : Nat := 0
  live : List LiveRec := []
  threshold : Nat := 0
  idleTimeout : Nat := 0
  /-- The threshold event has been raised and has not re-armed (R445). -/
  thresholdDone : Bool := false
  idleDone : Bool := false
  idleSince : Nat := 0
  /-- The record latched by the last read of the data word (R438). -/
  latched : Bytes := []
  /-- The present window read found no record (R440). -/
  latchedEmpty : Bool := true
  /-- Patch store: directory base, ring base, ring bytes, write point. -/
  dirBase : Nat := 0
  storeBase : Nat := 0
  storeSize : Nat := 0
  storeWrite : Nat := 0
  patches : List StoredPatch := []
  cnt : QueueCounters := {}
  deriving DecidableEq, Repr, Inhabited

/-- A patch fixed by R430 and not yet stored (R446 to R450). -/
structure PatchJob where
  queue : Nat := 0
  seq : Nat := 0
  ticket : Nat := 0
  item : ClosedItem := {}
  firstCol : Nat := 0
  cols : Nat := 0
  firstLine : Nat := 0
  lastLine : Nat := 0
  clipCols : Bool := false
  clipLines : Bool := false
  truncated : Bool := false
  lines : Nat := 0
  level : Nat := 1
  fields : Nat := 1
  pretransform : Bool := false
  engine : Nat := 0
  /-- The rows have been read from the strip ring; the payload follows. -/
  cut : Bool := false
  payload : Bytes := []
  deriving DecidableEq, Repr, Inhabited

/-- Causes of a failed mark (Table 9-11). -/
inductive MarkCause where
  | none | tooLate | outOfTravel | scheduleFull | axisDown | withdrawn | partnerLost
  deriving DecidableEq, Repr, Inhabited

def markCauseCode : MarkCause → Nat
  | .none => 0 | .tooLate => 1 | .outOfTravel => 2 | .scheduleFull => 3 | .axisDown => 4 | .withdrawn => 5 | .partnerLost => 6

/-- A pending mark's progress (MSTATE of Table 9-11). -/
inductive MarkState where
  | waiting | moving | settling | armed | complete | failed
  deriving DecidableEq, Repr, Inhabited

def markStateCode : MarkState → Nat
  | .waiting => 0 | .moving => 1 | .settling => 2 | .armed => 3 | .complete => 4 | .failed => 5

structure Mark where
  ticket : Nat := 0
  queue : Nat := 0
  seq : Nat := 0
  tgt : Int := 0
  fire : Int := 0
  state : MarkState := .waiting
  cause : MarkCause := .none
  deriving DecidableEq, Repr, Inhabited

/-- The station block of Table 9-12. -/
structure StationCounters where
  scheduled : Nat := 0
  fired : Nat := 0
  tooLate : Nat := 0
  outOfTravel : Nat := 0
  scheduleFull : Nat := 0
  axisDown : Nat := 0
  withdrawn : Nat := 0
  partnerLost : Nat := 0
  notScheduled : Nat := 0
  deriving DecidableEq, Repr, Inhabited

/-- One marker station (R453 to R460). -/
structure Station where
  pending : List Mark := []
  ended : List Mark := []
  /-- The head dwells after a firing and the next move waits for it (R457). -/
  dwelling : Bool := false
  /-- End of the dwell, or of the SETTLE of the current mark. -/
  due : Nat := 0
  cnt : StationCounters := {}
  deriving DecidableEq, Repr, Inhabited

/-- A DEFECT record placed, as the overlays of the view streams draw it (R486). -/
structure BoxRec where
  queue : Nat := 0
  strip : Nat := 0
  severity : Nat := 0
  minCol : Nat := 0
  maxCol : Nat := 0
  firstLine : Nat := 0
  lastLine : Nat := 0
  deriving DecidableEq, Repr, Inhabited

/-- The Scribe. -/
structure Scribe where
  queues : Vector Queue 16 := .replicate 16 {}
  inbox : List ScribeItem := []
  /-- Last web line of the last strip whose items Marquetry handed over (R427). -/
  marqDone : Option Nat := none
  /-- Last web line of the last strip that each slot has completed (R427). -/
  slotDone : Vector (Option Nat) 24 := .replicate 24 none
  /-- Web line of the last line each slot's camera delivered (R428). -/
  slotLine : Vector (Option Nat) 24 := .replicate 24 none
  /-- Camera events that wait for the slot's next line to give them their strip (R428). -/
  camHeld : List ScribeItem := []
  /-- Queue whose next item waits for a ticket (R430). -/
  ticketWait : Option Nat := none
  jobs : List PatchJob := []
  /-- Boxes of the records placed that a frame of an overlay may still draw. -/
  boxes : List BoxRec := []
  stations : Vector Station 4 := .replicate 4 {}
  deriving DecidableEq, Repr, Inhabited

end Sys2Proof.Machine
end

