-- ==== Sys2Proof/Machine/StProfiles.lean ====
section
/-! DEFINITION. The settings and the state of the profile chain and the Veneer ("Profiles, threshold events and live
views"): ZONE_CONFIG, GRIT_CONFIG, THRESHOLD_CONFIG (Table 10-6), VIEW_CONFIG (Table 10-7). -/

namespace Sys2Proof.Machine

/-- A slot's zone layout (R463): the first ZONES + 1 bounds. -/
structure ZoneCfg where
  zones : Nat := 1
  bounds : List Nat := []
  deriving DecidableEq, Repr, Inhabited

def parZones (p : Bytes) : ZoneCfg := { zones := u8 p 0, bounds := valsAt p 4 2 (u8 p 0 + 1) }

def badZones (p : Bytes) : Option Nat :=
  let n := u8 p 0
  firstBad ((0, inRange 1 64 n) :: (List.range (n + 1)).map fun i =>
    (4 + 2 * i, decide (u16 p (4 + 2 * i) ≤ 32768) && (decide (i = 0) || decide (u16 p (2 + 2 * i) < u16 p (4 + 2 * i)))))

/-- GRIT_CONFIG for a slot. -/
structure GritCfg where
  grit : Nat := 0
  median : Nat := 1
  fields : Nat := 0
  deriving DecidableEq, Repr, Inhabited

/-- GRIT_CONFIG for the background. -/
structure BgCfg where
  grit : Nat := 0
  fields : Nat := 0
  clip : Nat := 0
  deriving DecidableEq, Repr, Inhabited

def parGrit (p : Bytes) : GritCfg := { grit := u8 p 0, median := u8 p 1, fields := u8 p 2 % 16 }
def parBg (p : Bytes) : BgCfg := { grit := u8 p 0, fields := u8 p 1 % 16, clip := u32 p 4 % 2 ^ 18 }

def badGrit (p : Bytes) : Option Nat := firstBad [(0, inRange 0 3 (u8 p 0)), (1, [1, 3, 5, 7, 9].contains (u8 p 1))]
def badBg (p : Bytes) : Option Nat := firstBad [(0, inRange 0 3 (u8 p 0))]

/-- One zone's watch setting (Table 10-6). -/
structure WatchCfg where
  mode : Nat := 0
  high : Int := 0
  low : Int := 0
  hyst : Nat := 0
  minDur : Nat := 1
  deriving DecidableEq, Repr, Inhabited

def parWatch (p : Bytes) : WatchCfg := { mode := u8 p 3, high := s32 p 4, low := s32 p 8, hyst := u32 p 12, minDur := u16 p 16 }

def badWatch (p : Bytes) : Option Nat :=
  let off := decide (u8 p 3 = 0)
  firstBad [(0, inRange 0 3 (u8 p 0)), (1, inRange 0 63 (u8 p 1)), (2, inRange 1 (64 - u8 p 1) (u8 p 2)), (3, inRange 0 2 (u8 p 3)),
    (8, off || decide (s32 p 8 < s32 p 4)), (16, off || inRange 1 65535 (u16 p 16))]

/-- Table 10-7. -/
structure ViewCfg where
  enable : Bool := false
  field : Nat := 0
  delivery : Nat := 1
  overlay : Bool := false
  cropFirst : Nat := 0
  cropCols : Nat := 1
  xs : Nat := 1
  ys : Nat := 1
  height : Nat := 1
  queues : Nat := 0
  lag : Nat := 0
  port : Nat := 0
  mtu : Nat := 576
  destMac : Bytes := []
  destIp : Bytes := []
  destUdp : Nat := 0
  srcUdp : Nat := 0
  ttl : Nat := 1
  dscp : Nat := 0
  lut : Bytes := []
  deriving DecidableEq, Repr, Inhabited

def parView (p : Bytes) : ViewCfg :=
  { enable := decide (u8 p 0 = 1), field := u8 p 1, delivery := u8 p 2, overlay := bitOf (u8 p 3) 0, cropFirst := u32 p 4,
    cropCols := u32 p 8, xs := u16 p 12, ys := u16 p 14, height := u16 p 16, queues := u16 p 18, lag := u8 p 20, port := u8 p 21,
    mtu := u16 p 22, destMac := slice p 24 6, destIp := slice p 32 4, destUdp := u16 p 36, srcUdp := u16 p 38, ttl := u8 p 40,
    dscp := u8 p 41 % 64, lut := slice p 64 1024 }

def badView (p : Bytes) : Option Nat :=
  let off := decide (u8 p 0 = 0)
  let eth := decide (u8 p 0 = 1) && decide (u8 p 2 = 1)
  firstBad [(0, inRange 0 1 (u8 p 0)), (1, off || inRange 0 3 (u8 p 1)), (2, off || inRange 1 2 (u8 p 2)),
    (8, off || (inRange 1 262144 (u32 p 8) && decide (u16 p 12 ≠ 0 → u32 p 8 % u16 p 12 = 0) &&
      decide (u16 p 12 ≠ 0 → u32 p 8 / u16 p 12 ≤ 16384))),
    (12, off || inRange 1 256 (u16 p 12)), (14, off || inRange 1 256 (u16 p 14)), (16, off || inRange 1 4096 (u16 p 16)),
    (20, off || inRange 0 15 (u8 p 20)), (21, !eth || inRange 0 1 (u8 p 21)), (22, !eth || inRange 576 9000 (u16 p 22)),
    (40, !eth || inRange 1 255 (u8 p 40))]

/-- A grit filter: an order-3 CIC and its FIR. Lists hold the newest value first; a value before the restart reads the
first input after it (R470). -/
structure GritState where
  fill : Option Nat := none
  xs : List Nat := []
  ys : List Nat := []
  out : Option Nat := none
  deriving DecidableEq, Repr, Inhabited

/-- Watch states of Table 10-3. -/
inductive WatchState where
  | normal | high | low
  deriving DecidableEq, Repr, Inhabited

/-- One zone of one field (R464 to R472). -/
structure ZoneState where
  key : Nat := 0
  last : Option Nat := none
  means : List Nat := []
  grit : GritState := {}
  watch : WatchState := .normal
  count : Nat := 0
  deriving DecidableEq, Repr, Inhabited

/-- R494, bytes 0 to 19. -/
structure ProfileCounters where
  heldInputs : Nat := 0
  outputs : Nat := 0
  highEntries : Nat := 0
  lowEntries : Nat := 0
  clears : Nat := 0
  deriving DecidableEq, Repr, Inhabited

/-- The profile chain for one slot. Zones are keyed by field x 64 + zone, in rising order of first use. -/
structure SlotProfile where
  zones : List ZoneState := []
  blockEnd : Nat := 0
  /-- Last web line taken, per field. -/
  last : List (Nat × Nat) := []
  cnt : ProfileCounters := {}
  deriving DecidableEq, Repr, Inhabited

/-- One row of a background (R477): its web line and its entries, none where an entry has no output. -/
structure BgRow where
  line : Nat := 0
  entries : List (Option Nat) := []
  deriving DecidableEq, Repr, Inhabited

/-- One entry filter of a background (R476). -/
structure BgEntry where
  last : Option Nat := none
  grit : GritState := {}
  deriving DecidableEq, Repr, Inhabited

/-- The background of one field. -/
structure BgField where
  entries : List BgEntry := []
  /-- Held rows, oldest first (R478). -/
  rows : List BgRow := []
  /-- A completed row that waits for room. -/
  waiting : Option BgRow := none
  last : Option Nat := none
  /-- No row has been stored since the restart (R480). -/
  fresh : Bool := true
  deriving DecidableEq, Repr, Inhabited

/-- The profile chain. -/
structure Profiles where
  slots : Vector SlotProfile 24 := .replicate 24 {}
  bg : Vector BgField 4 := .replicate 4 {}
  bgRows : Nat := 0
  bgClipped : Nat := 0
  bgStalls : Nat := 0
  /-- The web line at which the Dovetail's present wait of R478 has been counted. -/
  stallLine : Option Nat := none
  deriving DecidableEq, Repr, Inhabited

/-- A frame taking its lines, or waiting to be formed (R483 to R488). -/
structure ViewFrame where
  seq : Nat := 0
  firstLine : Nat := 0
  strip : Nat := 0
  shift : Nat := 0
  lastLine : Nat := 0
  restart : Bool := false
  skipBefore : Bool := false
  ticket : Nat := 0
  skipped : Bool := false
  /-- CROP_FIRST in force for the frame's lines, the first line first; runs of (line, crop). -/
  crops : List (Nat × Nat) := []
  deriving DecidableEq, Repr, Inhabited

/-- One UDP datagram of a frame (R492, R493). -/
structure Datagram where
  port : Nat := 0
  destMac : Bytes := []
  destIp : Bytes := []
  destUdp : Nat := 0
  srcUdp : Nat := 0
  ttl : Nat := 0
  dscp : Nat := 0
  payload : Bytes := []
  deriving DecidableEq, Repr, Inhabited

/-- A formed frame on its delivery path. -/
structure SentFrame where
  ticket : Nat := 0
  header : Bytes := []
  image : Bytes := []
  overlay : Bytes := []
  delivery : Nat := 1
  port : Nat := 0
  /-- The datagrams of a frame sent over Ethernet (R493). -/
  datagrams : List Datagram := []
  deriving DecidableEq, Repr, Inhabited

structure ViewCounters where
  formed : Nat := 0
  delivered : Nat := 0
  skipped : Nat := 0
  failed : Nat := 0
  boxes : Nat := 0
  datagrams : Nat := 0
  deriving DecidableEq, Repr, Inhabited

/-- One view stream. -/
structure ViewStream where
  /-- CROP_FIRST in force (R485). -/
  crop : Nat := 0
  seq : Nat := 0
  /-- The stream waits for the first line of a strip after a restart. -/
  restart : Bool := true
  skipBefore : Bool := false
  cur : Option ViewFrame := none
  /-- Frames whose lines are all taken, oldest first. -/
  waiting : List ViewFrame := []
  sending : Option SentFrame := none
  last : Option Nat := none
  cnt : ViewCounters := {}
  deriving DecidableEq, Repr, Inhabited

end Sys2Proof.Machine
end

