-- ==== Sys2Proof/Machine/StCompress.lean ====
section
/-! DEFINITION. The settings and the state of the compressors, decompressors and the archive ("Compression and the pack
frame"): ARCHIVE_CONFIG (Table 11-7), COMPRESS_CONFIG, DECOMPRESS (Table 11-8). -/

namespace Sys2Proof.Machine

/-- Table 11-7. -/
structure ArchiveCfg where
  enable : Bool := false
  fields : List Nat := []
  bands : Nat := 1
  hostStream : Bool := false
  pretransform : Bool := false
  firstCol : Nat := 0
  bandCols : Nat := 1
  engines : List Nat := []
  indexStrips : Nat := 16
  deriving DecidableEq, Repr, Inhabited

/-- The set bits of a mask, counted upwards. -/
def maskList (n mask : Nat) : List Nat := (List.range n).filter fun i => bitOf mask i

def parArchive (p : Bytes) : ArchiveCfg :=
  { enable := decide (u8 p 0 = 1), fields := maskList 4 (u8 p 1), bands := u8 p 2, hostStream := bitOf (u8 p 3) 1,
    pretransform := bitOf (u8 p 3) 0, firstCol := u32 p 4, bandCols := u32 p 8, engines := maskList 16 (u16 p 12),
    indexStrips := u32 p 16 }

/-- Table 11-7 and R514. `fieldCount` is FIELDS and `columns` the width of the grid. -/
def badArchive (p : Bytes) (fieldCount columns : Nat) : Option Nat :=
  let off := decide (u8 p 0 = 0)
  firstBad [(0, inRange 0 1 (u8 p 0)), (1, off || ((maskList 4 (u8 p 1)).all fun f => decide (f < fieldCount))), (2, off || inRange 1 16 (u8 p 2)),
    (4, off || decide (u32 p 4 + u8 p 2 * u32 p 8 ≤ columns)), (8, off || inRange 1 262144 (u32 p 8)),
    (12, off || decide ((maskList 16 (u16 p 12)).length = u8 p 2 * (maskList 4 (u8 p 1)).length)), (16, off || inRange 16 65536 (u32 p 16))]

/-- What a compressor works on. -/
inductive CeSource where
  | patch (queue seq : Nat)
  | archive (stream : Nat)
  deriving DecidableEq, Repr

/-- A stream on a compressor (R498): its uncompressed bytes, and how far it has come. -/
structure CeJob where
  source : CeSource
  key : Nat := 0
  level : Nat := 0
  raw : Bytes := []
  ptCols : Nat := 0
  ptPeriod : Nat := 0
  blockSeq : Nat := 0
  /-- Frames of a patch so far: they are stored with its last one. -/
  frames : Bytes := []
  /-- The ticket of the present archive block; none when none was free (R519). -/
  ticket : Option Nat := none
  deriving DecidableEq, Repr

/-- R526, a compressor. -/
structure CeCounters where
  blocks : Nat := 0
  stored : Nat := 0
  rawBytes : Nat := 0
  packedBytes : Nat := 0
  transient : Nat := 0
  failed : Nat := 0
  deriving DecidableEq, Repr, Inhabited

structure DeCounters where
  frames : Nat := 0
  crcErrors : Nat := 0
  formatErrors : Nat := 0
  deriving DecidableEq, Repr, Inhabited

structure ArchiveCounters where
  archived : Nat := 0
  freed : Nat := 0
  hostSkips : Nat := 0
  noTicketBlocks : Nat := 0
  deriving DecidableEq, Repr, Inhabited

/-- One strip of one sub-ring (R516 to R518): its place, and the figures of its index entry. -/
structure ArcStrip where
  strip : Nat := 0
  off : Nat := 0
  len : Nat := 0
  raw : Nat := 0
  frames : Nat := 0
  noTicket : Bool := false
  verifyFailed : Bool := false
  /-- Its frames did not fit the frame area and have been given up. -/
  dropped : Bool := false
  complete : Bool := false
  deriving DecidableEq, Repr, Inhabited

/-- One stream's sub-ring (R516). Places of frames count from the start of its frame area. -/
structure SubRing where
  base : Nat := 0
  size : Nat := 0
  indexStrips : Nat := 16
  /-- Place of the next frame, from the start of the frame area. -/
  write : Nat := 0
  /-- Strips held, oldest first. -/
  strips : List ArcStrip := []
  /-- The strip being compressed. -/
  cur : Option ArcStrip := none
  deriving DecidableEq, Repr, Inhabited

/-- DECOMPRESS running on a decompressor (Table 11-8). -/
structure DecRun where
  ticket : Nat := 0
  padded : Bool := false
  contextOut : Option Nat := none
  contextIn : Option Nat := none
  invert : Bool := false
  source : BulkRef := {}
  dest : BulkRef := {}
  data : Bytes := []
  ctx : Bytes := []
  deriving DecidableEq, Repr, Inhabited

/-- The decompressor that DECOMPRESS or a look-back holds. -/
structure DeUnit where
  run : Option DecRun := none
  /-- Held by a look-back (R572). -/
  lookback : Bool := false
  cnt : DeCounters := {}
  deriving DecidableEq, Repr, Inhabited

structure CeUnit where
  job : Option CeJob := none
  cnt : CeCounters := {}
  deriving DecidableEq, Repr

/-- Compression. -/
structure Compress where
  ce : Vector CeUnit 16 := .replicate 16 { job := none }
  de : Vector DeUnit 4 := .replicate 4 {}
  rings : List SubRing := []
  /-- The settings and the partition under which the sub-rings are laid out. -/
  layout : Option (ArchiveCfg × Nat × Nat) := none
  /-- The strip whose streams began last, and its last web line (R515). -/
  archiveStrip : Option Nat := none
  archiveLine : Option Nat := none
  /-- Strips not yet delivered to the host stream, oldest first (R520). -/
  hostStrips : List Nat := []
  cnt : ArchiveCounters := {}
  deriving DecidableEq, Repr

end Sys2Proof.Machine
end

