-- ==== Sys2Proof/Machine/StBench.lean ====
section
/-! DEFINITION. The settings and the state of the Bench ("The Bench: central store and memory controller"):
PARTITION_CONFIG (Table 12-8), PORT_CONFIG, LOOKBACK, the controllers and their requests. -/

namespace Sys2Proof.Machine

/-- Table 12-8. -/
structure PartCfg where
  enable : Bool := false
  baseMib : Nat := 0
  sizeA : Nat := 0
  sizeB : Nat := 0
  deriving DecidableEq, Repr, Inhabited

def parPart (p : Bytes) : PartCfg := { enable := decide (u8 p 4 = 1), baseMib := u32 p 0, sizeA := u32 p 8, sizeB := u32 p 12 }

/-- Table 12-8; BASE_MIB is checked whatever ENABLE is (R815). -/
def badPart (unit : Nat) (p : Bytes) : Option Nat :=
  let off := decide (u8 p 4 = 0)
  let a := u32 p 8
  firstBad [(0, decide (u32 p 0 ≤ 49151)), (4, inRange 0 1 (u8 p 4)),
    (8, off || (if unit < 12 then inRange 16 65536 a else if unit = 12 then inRange 4 4096 a
      else if unit = 13 ∨ unit = 17 then inRange 1 24448 a else if unit = 16 then decide (a ≤ 512) else true)),
    (12, off || !decide (unit < 12) || decide (u32 p 12 ≤ 4096))]

/-- A port's targets (R542). -/
structure PortCfg where
  target : Nat := 1000
  deadline : Nat := 0
  deriving DecidableEq, Repr, Inhabited

def parPort (p : Bytes) : PortCfg := { target := u32 p 0, deadline := u32 p 4 }

def badPort (port : Nat) (p : Bytes) : Option Nat :=
  firstBad [(0, inRange 100 1000000 (u32 p 0)),
    (4, if port < 6 then inRange (u32 p 0) 1000000 (u32 p 4) else decide (u32 p 4 = 0))]

/-- Table 12-2. -/
def portDefault (port : Nat) : PortCfg :=
  let t := [1000, 1000, 1000, 1000, 1000, 1000, 2000, 2000, 4000, 20000, 10000, 10000, 5000, 2000, 100000, 50000].getD port 1000
  { target := t, deadline := if port < 6 then 8000 else 0 }

/-- Controller states (Table 12-4). -/
inductive CtlState where
  | training | ready | selfRefresh | frozen | fenced
  deriving DecidableEq, Repr, Inhabited

def ctlCode : CtlState → Nat
  | .training => 0 | .ready => 1 | .selfRefresh => 2 | .frozen => 3 | .fenced => 4

/-- What kind of error was seen: the causes of Table 12-9. -/
inductive BenchError where
  | read | writeParity | caParity
  deriving DecidableEq, Repr, Inhabited

def benchErrorCode : BenchError → Nat
  | .read => 1 | .writeParity => 2 | .caParity => 3

/-- The evidence of one error as the controller captures it (Table 12-9): place and raw data of both attempts. -/
structure ErrorCapture where
  cause : BenchError := .read
  port : Nat := 0
  offset : Nat := 0
  stime : Nat := 0
  row : Nat := 0
  bank : Nat := 0
  column : Nat := 0
  data1 : Nat := 0
  check1 : Nat := 0
  syndrome1 : Nat := 0
  data2 : Nat := 0
  check2 : Nat := 0
  syndrome2 : Nat := 0
  deriving DecidableEq, Repr, Inhabited

/-- The freeze capture (Table 12-9). -/
structure FreezeCapture where
  err : ErrorCapture := {}
  ticketsFailed : Nat := 0
  faultEntry : Nat := 0
  deriving DecidableEq, Repr, Inhabited

/-- One request at a controller (R531, R542 to R547). -/
structure BenchReq where
  id : Nat := 0
  port : Nat := 0
  offset : Nat := 0
  words : Nat := 1
  /-- Data of a write; none for a read. -/
  data : Option Bytes := none
  /-- Ticket of the item the request serves. -/
  ticket : Option Nat := none
  /-- The slot and web line of an ingest request (R547). -/
  slot : Nat := 0
  line : Nat := 0
  entered : Nat := 0
  deriving DecidableEq, Repr, Inhabited

/-- One controller. -/
structure BenchCtl where
  state : CtlState := .training
  temp : Int := 25
  hot : Bool := false
  /-- Refreshes owed per pseudo-channel, negative when pulled in ahead (R550). -/
  owed : Vector Int 32 := .replicate 32 0
  maxOwed : Nat := 0
  pending : List BenchReq := []
  issued : List BenchReq := []
  ce : Nat := 0
  ueTransient : Nat := 0
  wparTransient : Nat := 0
  caparTransient : Nat := 0
  refreshForced : Nat := 0
  srEntries : Nat := 0
  capture : Option FreezeCapture := none
  transients : List ErrorCapture := []
  deriving DecidableEq, Repr, Inhabited

/-- One port. -/
structure BenchPort where
  urgency : Nat := 0
  requests : Nat := 0
  bytes : Nat := 0
  urgent3 : Nat := 0
  misses : Nat := 0
  deriving DecidableEq, Repr, Inhabited

/-- LOOKBACK running (R568 to R575). -/
structure LookbackPar where
  field : Nat := 0
  source : Nat := 0
  firstCol : Nat := 0
  cols : Nat := 1
  firstPos : Int := 0
  lastPos : Int := 0
  dest : BulkRef := {}
  deriving DecidableEq, Repr, Inhabited

def parLookback (p : Bytes) : LookbackPar :=
  { field := u8 p 0, source := u8 p 1, firstCol := u32 p 4, cols := u32 p 8, firstPos := s64 p 12, lastPos := s64 p 20, dest := parBulk p 32 }

structure LookbackRun where
  par : LookbackPar := {}
  ticket : Nat := 0
  lines : List Nat := []
  de : Option Nat := none
  deriving DecidableEq, Repr, Inhabited

/-- A line sequence in force from a line on: what the strip-position table keeps (R568). -/
structure SeqEpoch where
  firstLine : Nat := 0
  firstStrip : Nat := 0
  n0 : Nat := 0
  origin : Int := 0
  shift : Nat := 8
  seq : LineSeq := {}
  deriving DecidableEq, Repr, Inhabited

/-- The Bench. `mem` is in the canonical form of Ops: strictly rising offsets, no byte equal to 0. -/
structure Bench where
  mem : List Host.Cell := []
  /-- Ranges (offset, size) emptied by the command that runs, before its writes: the model's own field, empty between commands. -/
  emptied : List (Nat × Nat) := []
  /-- Writes of the command that runs, oldest first: the model's own field, empty between commands. -/
  writes : List (Nat × Bytes) := []
  ctl : Vector BenchCtl 2 := .replicate 2 {}
  ports : Vector BenchPort 16 := .replicate 16 {}
  auto : Bool := false
  autoDelayMs : Nat := 1
  /-- Self-refresh entered by automatic self-refresh (R555). -/
  autoEntered : Bool := false
  /-- Entry has been accepted and is not complete: requests numbered below this are still served (R553). -/
  entering : Option Nat := none
  /-- The SELF_REFRESH commands that the end of an entry or exit answers (R553). -/
  srTickets : List Nat := []
  /-- The exit sequence runs (R556). -/
  exiting : Bool := false
  forced : Bool := false
  lastRequest : Nat := 0
  nextReq : Nat := 0
  hostHeld : Nat := 0
  /-- BAR4 reads that wait for an entry into or an exit from self-refresh (R555): Bench offset and size. -/
  hostWaiting : List (Nat × Nat) := []
  lookbacks : List LookbackRun := []
  epochs : List SeqEpoch := []
  deriving DecidableEq, Repr, Inhabited

end Sys2Proof.Machine
end

