-- ==== Sys2Proof/Machine/StHost.lean ====
section
/-! DEFINITION. The state of the host interface and the DMA channels ("PCI Express host interface and DMA"). -/

namespace Sys2Proof.Machine

/-- A reply slot's content of 1 or more slots, still to be written (R68 to R72, R82). A deferred entry keeps its place
in the order until its command ends (R82). -/
inductive PostEntry where
  | ready (ticket : Nat) (irq : Bool) (bytes : Bytes)
  | waiting (ticket : Nat)
  deriving DecidableEq, Repr

/-- One command ring pair (Table 13-5). -/
structure RingPair where
  cmdBase : Nat := 0
  cmdSize : Nat := 0
  cmdProd : Nat := 0
  cmdCons : Nat := 0
  ringErr : Bool := false
  cfgErr : Bool := false
  enabled : Bool := false
  /-- The ring stopped under R65 to R67. -/
  stopped : Bool := false
  rplBase : Nat := 0
  rplSize : Nat := 0
  rplProd : Nat := 0
  rplCons : Nat := 0
  phase : Bool := true
  /-- Reply slots written and not yet consumed, as RPLn_CONS shows (R71). -/
  unread : Nat := 0
  /-- Replies in the order in which they are to be posted (R62, R82), not yet written. -/
  posts : List PostEntry := []
  /-- Wait of the present packet for a ticket, from this time (R89). -/
  ticketWait : Option Nat := none
  deriving DecidableEq, Repr, Inhabited

/-- The event block (Table 13-7). Bit sets are numbers, source s at bit s. -/
structure EventBlock where
  base : Nat := 0
  size : Nat := 0
  prod : Nat := 0
  cons : Nat := 0
  overflow : Bool := false
  lost : Nat := 0
  lostBefore : Bool := false
  phase : Bool := true
  pending : Nat := 0
  mask : Nat := 2 ^ 1024 - 1
  /-- Vectors that differ from the reset map s >> 4. -/
  vectors : List (Nat × Nat) := []
  /-- Armed vectors, vector v at bit v (R592). -/
  armed : Nat := 2 ^ 64 - 1
  deriving DecidableEq, Repr, Inhabited

/-- One MSI-X table entry. -/
structure MsixEntry where
  addr : Nat := 0
  data : Nat := 0
  masked : Bool := true
  deriving DecidableEq, Repr, Inhabited

/-- The PCI Express function. -/
structure Pcie where
  /-- The link has trained and PERST# is deasserted. -/
  linkUp : Bool := false
  perst : Bool := true
  d3hot : Bool := false
  msixEnable : Bool := false
  funcMask : Bool := false
  table : List (Nat × MsixEntry) := []
  /-- Vectors whose message is held back by a mask (R594). -/
  heldMsgs : Nat := 0
  /-- log2 of the BAR4 size (R580). -/
  bar4Log : Nat := 28
  /-- Registers of configuration space that host software wrote, by their place. -/
  config : List (Nat × Nat) := []
  deriving DecidableEq, Repr, Inhabited

/-- Host registers. -/
structure HostIf where
  rings : Vector RingPair 4 := .replicate 4 {}
  /-- The ring that the command processor serves next (R89). -/
  nextRing : Nat := 0
  evt : EventBlock := {}
  pcie : Pcie := {}
  bar4Page : Nat := 0
  badAccess : Nat := 0
  bar4Dropped : Nat := 0
  /-- Low halves of 64-bit registers written and waiting for the high half (R582). -/
  lowHalves : List (Nat × Nat) := []
  deriving DecidableEq, Repr, Inhabited

/-- DMA channel configuration (Table 13-11, CFG_TIMER). -/
structure DmaCfg where
  cfg : Nat := 0
  timerNs : Nat := 0
  deriving DecidableEq, Repr, Inhabited

def dmaEnable (c : DmaCfg) : Bool := bitOf c.cfg 31
def dmaTimerEn (c : DmaCfg) : Bool := bitOf c.cfg 28
def dmaTimer (c : DmaCfg) : Nat := fieldOf c.cfg 24 4
def dmaPriority (c : DmaCfg) : Nat := fieldOf c.cfg 20 2
def dmaPages (c : DmaCfg) : Nat := fieldOf c.cfg 0 11

/-- Channel states (Table 13-17). -/
inductive DmaState where
  | off | idle | wait | run | stopped | fenced
  deriving DecidableEq, Repr, Inhabited

def dmaStateCode : DmaState → Nat
  | .off => 0 | .idle => 1 | .wait => 2 | .run => 3 | .stopped => 4 | .fenced => 5

/-- DSTATUS (Table 13-16). -/
inductive DStatus where
  | ok | badDesc | hostError | benchFrozen | aborted
  deriving DecidableEq, Repr, Inhabited

def dStatusCode : DStatus → Nat
  | .ok => 0 | .badDesc => 1 | .hostError => 2 | .benchFrozen => 3 | .aborted => 4

/-- A register bank (Table 13-10). -/
structure DmaBank where
  base : Nat := 0
  count : Nat := 0
  mode : Nat := 0
  deriving DecidableEq, Repr, Inhabited

/-- Writes that met the lock (R600). -/
inductive DmaHeld where
  | base (v : Nat)
  | count (v : Nat)
  | mode (v : Nat)
  | arm
  deriving DecidableEq, Repr

/-- A descriptor (Table 13-15). -/
structure Desc where
  src : Nat := 0
  dst : Nat := 0
  length : Nat := 0
  srcKind : Nat := 0
  srcUnit : Nat := 0
  dstKind : Nat := 0
  flags : Nat := 0
  deriving DecidableEq, Repr, Inhabited

def parDesc (p : Bytes) : Desc :=
  { src := u64 p 0, dst := u64 p 8, length := u32 p 16, srcKind := u8 p 20, srcUnit := u8 p 21, dstKind := u8 p 22, flags := u8 p 23 }

/-- One burst in a staging page (R611): its place in the destination and its bytes. -/
structure Burst where
  off : Nat := 0
  data : Bytes := []
  deriving DecidableEq, Repr, Inhabited

/-- The descriptor a channel runs. -/
structure DmaRun where
  desc : Desc := {}
  ticket : Nat := 0
  /-- Bytes the descriptor moves; less than LENGTH for a queue, view or archive source (R605). -/
  total : Nat := 0
  read : Nat := 0
  written : Nat := 0
  /-- Bursts read and not yet written, oldest first. -/
  pages : List Burst := []
  /-- The bytes of a queue, view or archive source, taken when the descriptor starts. -/
  payload : Option Bytes := none
  /-- The descriptor waits for a frame or a strip (R605). -/
  waiting : Bool := false
  /-- Its place among the requests for frames and strips (R605). -/
  req : Nat := 0
  /-- Bytes move from the end of the range (R608). -/
  down : Bool := false
  /-- The view frame's ticket that ends with the descriptor (R489, R615). -/
  frame : Option Nat := none
  /-- Context slots claimed for a Bench destination (R607). -/
  slots : List Nat := []
  status : DStatus := .ok
  deriving DecidableEq, Repr, Inhabited

/-- One DMA channel (R595 to R616). -/
structure DmaChan where
  state : DmaState := .off
  active : DmaBank := {}
  shadow : DmaBank := {}
  armed : Bool := false
  /-- The shadow bank is captured and the lock held until this time (R599). -/
  lockUntil : Option Nat := none
  held : List DmaHeld := []
  late : Bool := false
  eoc : Bool := false
  noTicket : Bool := false
  fencedBit : Bool := false
  done : Nat := 0
  lastTicket : Nat := 0
  lastStatus : Nat := 0
  bytes : Nat := 0
  lateWrites : Nat := 0
  ticksMissed : Nat := 0
  retries : Nat := 0
  descFailed : Nat := 0
  /-- A descriptor fetch is outstanding (R604). -/
  fetching : Bool := false
  /-- A fetched descriptor waits for a ticket, from this time (R604). -/
  ticketWait : Option (Desc × Nat) := none
  run : Option DmaRun := none
  /-- A fetched descriptor did not start because the module is passive (R698). -/
  passiveHold : Bool := false
  /-- CFG_STATUS and CFG_HOLDER (R595). -/
  cfgResult : Nat := 0
  cfgKind : Nat := 0
  cfgIndex : Nat := 0
  cfgHolder : Nat := 0
  deriving DecidableEq, Repr, Inhabited

/-- The DMA engines. -/
structure Dma where
  ch : Vector DmaChan 64 := .replicate 64 {}
  lastRead : Nat := 63
  lastWrite : Nat := 63
  /-- Requests for frames and strips made so far. -/
  requests : Nat := 0
  deriving DecidableEq, Repr, Inhabited

end Sys2Proof.Machine
end

