-- ==== Sys2Proof/Machine/StAxes.lean ====
section
/-! DEFINITION. The settings and the state of the marker axes ("Marker axes"): AXIS_CONFIG (Table 14-6), AXIS_GEAR
(Table 14-8), AXIS_STANDSTILL, AXIS_HOME (Table 14-7). -/

namespace Sys2Proof.Machine

/-- Table 14-6. -/
structure AxisCfg where
  enable : Bool := false
  requireHome : Bool := false
  stallEn : Bool := false
  invertDir : Bool := false
  encoder : Option Nat := none
  inputs : Nat := 0
  irun : Nat := 100
  toff : Nat := 2
  fast : Nat := 0
  blank : Nat := 5
  vmax : Nat := 1
  accel : Nat := 1
  decel : Nat := 1
  emerg : Nat := 1
  jerk : Nat := 0
  softMin : Int := 0
  softMax : Int := 1
  encScale : Int := 0
  stallWindow : Nat := 1
  debounce : Nat := 1
  chatterN : Nat := 2
  chatterWindow : Nat := 1
  strokeDist : Int := 0
  strokeHold : Nat := 0
  deriving DecidableEq, Repr, Inhabited

def parAxis (p : Bytes) : AxisCfg :=
  { enable := decide (u8 p 0 = 1), requireHome := bitOf (u8 p 1) 2, stallEn := bitOf (u8 p 1) 1, invertDir := bitOf (u8 p 1) 0,
    encoder := queueRef (u8 p 2), inputs := u8 p 3 % 64, irun := u16 p 4, toff := u8 p 8, fast := u8 p 9 % 16, blank := u8 p 10,
    vmax := u32 p 12, accel := u32 p 16, decel := u32 p 20, emerg := u32 p 24, jerk := u32 p 28, softMin := s32 p 32, softMax := s32 p 36,
    encScale := s32 p 40, stallWindow := u32 p 44, debounce := u16 p 48, chatterN := u8 p 50, chatterWindow := u16 p 52,
    strokeDist := s32 p 56, strokeHold := u32 p 60 }

/-- Table 14-6: ranges, DECEL at most EMERG_DECEL, SOFT_MIN below SOFT_MAX. -/
def badAxis (p : Bytes) : Option Nat :=
  let off := decide (u8 p 0 = 0)
  firstBad [(0, inRange 0 1 (u8 p 0)), (2, off || decide (u8 p 2 = 0xFF) || inRange 2 5 (u8 p 2)), (4, off || inRange 100 3000 (u16 p 4)),
    (8, off || inRange 2 30 (u8 p 8)), (10, off || inRange 5 30 (u8 p 10)), (12, off || inRange 1 10240000 (u32 p 12)),
    (16, off || inRange 1 1000000000 (u32 p 16)), (20, off || inRange 1 1000000000 (u32 p 20)),
    (24, off || (inRange 1 1000000000 (u32 p 24) && decide (u32 p 20 ≤ u32 p 24))), (32, off || decide (s32 p 32 < s32 p 36)),
    (44, off || !bitOf (u8 p 1) 1 || inRange 1 1048576 (u32 p 44)),
    (48, off || inRange 1 100 (u16 p 48)), (50, off || inRange 2 255 (u8 p 50)), (52, off || inRange 1 10000 (u16 p 52)),
    (60, off || decide (u32 p 60 ≤ 1000000))]

/-- Table 14-8. -/
structure GearCfg where
  enable : Bool := false
  master : Nat := 0
  atPos : Bool := false
  ratio0 : Int := 0
  engagePos : Int := 0
  window : Nat := 1
  changes : List (Int × Int) := []
  deriving DecidableEq, Repr, Inhabited

def parGear (p : Bytes) : GearCfg :=
  { enable := decide (u8 p 0 = 1), master := u8 p 1, atPos := decide (u8 p 2 = 1), ratio0 := s32 p 4, engagePos := s64 p 8,
    window := u32 p 16, changes := (List.range (u8 p 3)).map fun k => (s64 p (24 + 16 * k), s32 p (32 + 16 * k)) }

def badGear (p : Bytes) : Option Nat :=
  let off := decide (u8 p 0 = 0)
  firstBad ([(0, inRange 0 1 (u8 p 0)), (1, off || inRange 0 1 (u8 p 1)), (2, off || inRange 0 1 (u8 p 2)), (3, decide (u8 p 3 ≤ 16)),
    (16, off || inRange 1 16777216 (u32 p 16))] ++
    (List.range (u8 p 3)).map fun k => (24 + 16 * k, decide (k = 0) || decide (s64 p (8 + 16 * k) < s64 p (24 + 16 * k))))

/-- Standstill modes (R641). -/
inductive Standstill where
  | off | short | hold
  deriving DecidableEq, Repr, Inhabited

def standstillCode : Standstill → Nat
  | .off => 1 | .short => 2 | .hold => 3

structure StandCfg where
  mode : Standstill := .off
  safe : Standstill := .short
  holdDelay : Nat := 0
  ihold : Nat := 0
  deriving DecidableEq, Repr, Inhabited

def parStand (p : Bytes) : StandCfg :=
  { mode := (match u8 p 0 with | 0 => .off | 1 => .short | _ => .hold), safe := if u8 p 1 = 1 then .short else .hold,
    holdDelay := u16 p 2, ihold := u16 p 4 }

def badStand (p : Bytes) : Option Nat :=
  firstBad [(0, inRange 0 2 (u8 p 0)), (1, inRange 1 2 (u8 p 1)), (2, decide (u16 p 2 ≤ 10000)), (4, decide (u16 p 4 ≤ 3000))]

/-- Table 14-7. -/
structure HomePar where
  positive : Bool := false
  latchIndex : Bool := false
  fast : Nat := 1
  slow : Nat := 1
  backoff : Nat := 0
  homePos : Int := 0
  indexWindow : Nat := 1
  timeoutMs : Nat := 100
  deriving DecidableEq, Repr, Inhabited

def parHome (p : Bytes) : HomePar :=
  { positive := decide (u8 p 0 = 1), latchIndex := decide (u8 p 1 = 1), fast := u32 p 4, slow := u32 p 8, backoff := u32 p 12,
    homePos := s32 p 16, indexWindow := u32 p 20, timeoutMs := u32 p 24 }

def badHome (p : Bytes) (vmax : Nat) : Option Nat :=
  firstBad [(0, inRange 0 1 (u8 p 0)), (1, inRange 0 1 (u8 p 1)), (4, inRange 1 vmax (u32 p 4)), (8, inRange 1 (u32 p 4) (u32 p 8)),
    (12, decide (u32 p 12 ≤ 16777216)), (20, inRange 1 16777216 (u32 p 20)), (24, inRange 100 600000 (u32 p 24))]

/-- Axis states (Table 14-3). -/
inductive AxisState where
  | disabled | idle | moving | stroking | geared | homing | stopping | fault | safeStopped
  deriving DecidableEq, Repr, Inhabited

def axisStateCode : AxisState → Nat
  | .disabled => 0 | .idle => 1 | .moving => 2 | .stroking => 3 | .geared => 4 | .homing => 5 | .stopping => 6 | .fault => 7 | .safeStopped => 8

/-- Axis causes (Table 14-4). -/
inductive AxisCause where
  | none | stop | softLimit | hardLimit | limitChatter | stall | gearLag | encoder | overcurrent | overtemp | vmotorLow | vmotorHigh
  | safeStop | config | wedged
  deriving DecidableEq, Repr, Inhabited

def axisCauseCode : AxisCause → Nat
  | .none => 0 | .stop => 1 | .softLimit => 2 | .hardLimit => 3 | .limitChatter => 4 | .stall => 5 | .gearLag => 6 | .encoder => 7
  | .overcurrent => 8 | .overtemp => 9 | .vmotorLow => 10 | .vmotorHigh => 11 | .safeStop => 12 | .config => 13 | .wedged => 14

/-- One VIO input of an axis (R634 to R636). -/
structure AxisInput where
  /-- The accepted level (R634). -/
  level : Bool := false
  /-- Time of the latest change known. -/
  changedAt : Nat := 0
  chatter : Bool := false
  deriving DecidableEq, Repr, Inhabited

/-- Homing phases (Table 14-2). -/
inductive HomePhase where
  | search | reversing | clear | backoff | approach | set
  deriving DecidableEq, Repr, Inhabited

/-- Homing reasons (AXIS_HOME). -/
inductive HomeReason where
  | none | secondLimit | noIndex | timeout | chatter | fault
  deriving DecidableEq, Repr, Inhabited

def homeReasonCode : HomeReason → Nat
  | .none => 0 | .secondLimit => 1 | .noIndex => 2 | .timeout => 3 | .chatter => 4 | .fault => 5

/-- AXIS_HOME running. -/
structure HomeRun where
  par : HomePar := {}
  ticket : Nat := 0
  phase : HomePhase := .search
  /-- The phase has ended and the axis stops before the next one. -/
  braking : Bool := false
  reversed : Bool := false
  /-- Position at which BACKOFF began. -/
  backoffFrom : Int := 0
  /-- Position of the HOME edge in APPROACH (R645). -/
  edgeAt : Option Int := none
  latchPos : Int := 0
  latchEnc : Int := 0
  deadline : Nat := 0
  reason : HomeReason := .none
  deriving DecidableEq, Repr, Inhabited

/-- A stroke (R633): where it began, and its part. -/
inductive StrokePart where
  | away | holding (untilT : Nat) | back
  deriving DecidableEq, Repr

structure Stroke where
  start : Int := 0
  part : StrokePart := .away
  deriving DecidableEq, Repr

/-- What a stopping axis does at rest. -/
inductive AtRest where
  | idle | disabled | fault | safe
  deriving DecidableEq, Repr, Inhabited

structure Stopping where
  emerg : Bool := false
  cause : AxisCause := .none
  atRest : AtRest := .idle
  deriving DecidableEq, Repr, Inhabited

/-- Engaged gearing (R639): master and axis position at engagement. -/
structure GearRun where
  m0 : Int := 0
  p0 : Int := 0
  deriving DecidableEq, Repr, Inhabited

/-- R652. -/
structure AxisCounters where
  moves : Nat := 0
  strokes : Nat := 0
  startsMissed : Nat := 0
  homings : Nat := 0
  homeFailed : Nat := 0
  stalls : Nat := 0
  limitStops : Nat := 0
  softLimits : Nat := 0
  chatters : Nat := 0
  faults : Nat := 0
  safeStops : Nat := 0
  deriving DecidableEq, Repr, Inhabited

/-- A target accepted and waiting for the next line trigger (R632). -/
structure MoveWait where
  target : Int := 0
  notify : Bool := false
  /-- The web line at whose trigger it takes effect. -/
  line : Nat := 0
  deriving DecidableEq, Repr, Inhabited

/-- One axis. Position and velocity carry 32 fraction bits (R627). -/
structure Axis where
  state : AxisState := .disabled
  cause : AxisCause := .none
  homed : Bool := false
  xq : Int := 0
  vq : Int := 0
  /-- Acceleration in force, with 32 fraction bits; used with a jerk limit (R628). -/
  aq : Int := 0
  target : Int := 0
  notify : Bool := false
  /-- The move in progress is the Scribe's. -/
  scribe : Bool := false
  moveWait : Option MoveWait := none
  /-- A target that takes effect at the first update after a trigger (R632). -/
  moveDue : Option MoveWait := none
  stroke : Option Stroke := none
  home : Option HomeRun := none
  stopping : Option Stopping := none
  gear : Option GearRun := none
  /-- The gearing waits for the master to reach ENGAGE_POS (R640). -/
  gearArmed : Bool := false
  /-- The gearing engages once the axis is IDLE. -/
  gearDue : Bool := false
  /-- The stop beyond a soft limit has been reported (R631). -/
  softBrake : Bool := false
  inputs : Vector AxisInput 3 := .replicate 3 {}
  xref : Int := 0
  eref : Int := 0
  standstill : Option Standstill := none
  /-- Time at which the axis came to rest (R641). -/
  restAt : Option Nat := none
  /-- A motion waits for IRUN to be restored, until this time (R642). -/
  irunUntil : Option Nat := none
  tempWarn : Bool := false
  temp : Int := 25
  lastUpdate : Nat := 0
  /-- The settings from before a glue-up, in force until rest (R649). -/
  held : Option (AxisCfg × StandCfg) := none
  /-- A protection has switched the bridges off (R626). -/
  bridgesOff : Bool := false
  /-- VIO is below 0.8 V: every input reads asserted, and the axis cannot move (R744). -/
  vioLow : Bool := false
  /-- Time by which a jerk-limited motion has arrived (R628). -/
  due : Option Nat := none
  cnt : AxisCounters := {}
  deriving DecidableEq, Repr, Inhabited

structure Axes where
  ax : Vector Axis 4 := .replicate 4 {}
  vmotorMv : Nat := 24000
  deriving DecidableEq, Repr, Inhabited

end Sys2Proof.Machine
end

