-- ==== Sys2Proof/Machine/StTime.lean ====
section
/-! DEFINITION. The settings and the state of time ("Time and network time"): the local clock, TIME_CONFIG (Table 15-3),
PTP_CONFIG (Table 15-4), PTP ports and ring time. -/

namespace Sys2Proof.Machine

/-- Table 15-3. -/
structure TimeCfg where
  source : Nat := 0
  ringMaster : Nat := 0
  domain : Nat := 0
  boundary : Bool := false
  slaveOnly : Bool := false
  peer : Bool := false
  priority1 : Nat := 128
  priority2 : Nat := 128
  clockClass : Nat := 248
  accuracy : Nat := 254
  stepNs : Nat := 1000
  lockNs : Nat := 10
  maxSlew : Nat := 1
  deriving DecidableEq, Repr, Inhabited

def parTime (p : Bytes) : TimeCfg :=
  { source := u8 p 0, ringMaster := u8 p 1, domain := u8 p 2, boundary := bitOf (u8 p 3) 2, slaveOnly := bitOf (u8 p 3) 1,
    peer := bitOf (u8 p 3) 0, priority1 := u8 p 4, priority2 := u8 p 5, clockClass := u8 p 6, accuracy := u8 p 7, stepNs := u32 p 8,
    lockNs := u32 p 12, maxSlew := u16 p 16 }

def badTime (p : Bytes) : Option Nat :=
  firstBad [(0, inRange 0 2 (u8 p 0)), (1, decide (u8 p 0 ≠ 2) || inRange 0 63 (u8 p 1)), (2, inRange 0 127 (u8 p 2)),
    (8, inRange 1000 1000000000 (u32 p 8)), (12, inRange 10 1000000 (u32 p 12)), (16, inRange 1 500 (u16 p 16))]

/-- Table 15-4. -/
structure PtpCfg where
  speed : Nat := 0
  udp : Bool := false
  enable : Bool := false
  logSync : Int := 0
  logAnnounce : Nat := 0
  logDelay : Int := 0
  prefixLen : Nat := 0
  ipv4 : Nat := 0
  ingress : Int := 0
  egress : Int := 0
  deriving DecidableEq, Repr, Inhabited

def parPtp (p : Bytes) : PtpCfg :=
  { speed := u8 p 0, udp := bitOf (u8 p 1) 1, enable := bitOf (u8 p 1) 0, logSync := s8 p 2, logAnnounce := u8 p 3, logDelay := s8 p 4,
    prefixLen := u8 p 5, ipv4 := u32 p 8, ingress := s32 p 12, egress := s32 p 16 }

def badPtp (p : Bytes) : Option Nat :=
  firstBad [(0, inRange 0 2 (u8 p 0)), (2, decide (-3 ≤ s8 p 2) && decide (s8 p 2 ≤ 4)), (3, inRange 0 4 (u8 p 3)),
    (4, decide (-3 ≤ s8 p 4) && decide (s8 p 4 ≤ 5)), (5, inRange 0 32 (u8 p 5))]

/-- The local clock (R654, R655, R664). -/
structure Clock where
  seconds : Nat := 0
  ns : Nat := 0
  frac : Nat := 0
  addend : Nat := 8589934592
  /-- What is left of a slew, in units of 2^-32 ns. -/
  slew : Int := 0
  /-- MAX_SLEW_PPM with which the slew runs. -/
  slewPpm : Nat := 1
  deriving DecidableEq, Repr, Inhabited

/-- portState codes of R667. -/
inductive PtpState where
  | initializing | faulty | disabled | listening | preMaster | master | passive | uncalibrated | slave
  deriving DecidableEq, Repr, Inhabited

def ptpCode : PtpState → Nat
  | .initializing => 1 | .faulty => 2 | .disabled => 3 | .listening => 4 | .preMaster => 5 | .master => 6 | .passive => 7
  | .uncalibrated => 8 | .slave => 9

/-- What an Announce message says of its grandmaster, in the order of the default BMCA's comparison (R666). -/
structure Announce where
  priority1 : Nat := 0
  clockClass : Nat := 0
  accuracy : Nat := 0
  variance : Nat := 0
  priority2 : Nat := 0
  identity : Nat := 0
  steps : Nat := 0
  deriving DecidableEq, Repr, Inhabited

/-- Kinds of PTP message (R666). -/
inductive PtpKind where
  | sync | followUp | announce | delayReq | delayResp | pdelayReq | pdelayResp | pdelayFollowUp | management | signalling
  deriving DecidableEq, Repr, Inhabited

/-- A PTP message as received. Times are ns of the sender's and the receiver's clocks. -/
structure PtpMsg where
  kind : PtpKind := .sync
  version : Nat := 2
  minor : Nat := 1
  domain : Nat := 0
  /-- 802.1Q-tagged, IPv6 or unicast negotiation (Table 15-2). -/
  foreign : Bool := false
  udp : Bool := false
  twoStep : Bool := false
  seq : Nat := 0
  /-- Origin time stamp, or the receive time stamp that a response reports. -/
  origin : Int := 0
  correction : Int := 0
  /-- Time at which the message was received, on the local clock, before INGRESS_CORR. -/
  received : Int := 0
  announce : Announce := {}
  deriving DecidableEq, Repr, Inhabited

/-- One Ethernet port. -/
structure EthPort where
  linkUp : Bool := false
  state : PtpState := .disabled
  best : Option Announce := none
  /-- A two-step Sync waiting for its Follow_Up: sequence, receive time, correction. -/
  syncWait : Option (Nat × Int × Int) := none
  /-- Send time of the last delay request: sequence and time. -/
  delaySent : Option (Nat × Int) := none
  /-- Latest Sync: origin (corrected) and receive time. -/
  lastSync : Option (Int × Int) := none
  /-- Peer response times: its receipt of our request, our receipt of its response. -/
  pdelay : Option (Int × Int) := none
  pathDelay : Nat := 0
  lastSyncAt : Nat := 0
  seqOut : Nat := 0
  deriving DecidableEq, Repr, Inhabited

/-- Time and network time. -/
structure TimeUnit where
  clock : Clock := {}
  locked : Bool := false
  holdover : Bool := false
  lockCount : Nat := 0
  /-- EV 0x3D4 has been raised and has not re-armed (R668). -/
  stepBlocked : Bool := false
  offset : Int := 0
  pathDelay : Nat := 0
  gm : Nat := 0
  hops : Nat := 0
  ports : Vector EthPort 2 := .replicate 2 {}
  steps : Nat := 0
  discards : Nat := 0
  rxOther : Nat := 0
  /-- Link delays measured by echo, the last 16 of each of JE and JW, newest first (R671). -/
  linkDelays : Vector (List Nat) 2 := .replicate 2 []
  /-- Time of the last time message taken and its hops (R674, R690). -/
  ringMsgAt : Option Nat := none
  ringHops : Option Nat := none
  deriving DecidableEq, Repr, Inhabited

end Sys2Proof.Machine
end

