-- ==== Sys2Proof/Machine/StRing.lean ====
section
/-! DEFINITION. The settings and the state of the Janum ring and the redundant pair ("Janum ring and redundant pairs"). -/

namespace Sys2Proof.Machine

/-- One relay of RING_CONFIG (R691). -/
structure RelayCfg where
  enable : Bool := false
  srcModule : Nat := 0
  srcQueue : Nat := 0
  localQueue : Nat := 0
  deriving DecidableEq, Repr, Inhabited

/-- RING_CONFIG. After power-on reset every port is enabled. -/
structure RingCfg where
  je : Bool := true
  jw : Bool := true
  jm : Bool := true
  allowForerunner : Bool := false
  relays : List RelayCfg := []
  deriving DecidableEq, Repr, Inhabited

def parRelay (p : Bytes) (i : Nat) : RelayCfg :=
  { enable := bitOf (u8 p (8 + 4 * i)) 0, srcModule := u8 p (9 + 4 * i), srcQueue := u8 p (10 + 4 * i), localQueue := u8 p (11 + 4 * i) }

def parRing (p : Bytes) : RingCfg :=
  { je := bitOf (u8 p 0) 0, jw := bitOf (u8 p 0) 1, jm := bitOf (u8 p 0) 2, allowForerunner := bitOf (u8 p 1) 0,
    relays := (List.range 16).map (parRelay p) }

def badRing (p : Bytes) (gateway : Bool) : Option Nat :=
  let rs := (List.range 16).map (parRelay p)
  firstBad ((List.range 16).map fun i =>
    let r := parRelay p i
    (8 + 4 * i, !r.enable || (gateway && decide (r.srcModule < 64) && decide (r.srcQueue < 16) && decide (r.localQueue < 16) &&
      !((rs.take i).any fun q => q.enable && decide (q.localQueue = r.localQueue)))))

/-- PAIR_CONFIG. -/
structure PairCfg where
  enable : Bool := false
  leadComp : Bool := false
  preferActive : Bool := false
  portHome : Nat := 0
  axisOwner : Nat := 0
  hbTimeout : Nat := 500
  partner : Nat := 0
  deriving DecidableEq, Repr, Inhabited

def parPair (p : Bytes) : PairCfg :=
  { enable := decide (u8 p 0 = 1), leadComp := bitOf (u8 p 1) 1, preferActive := bitOf (u8 p 1) 0, portHome := u16 p 2 % 4096,
    axisOwner := u8 p 4 % 16, hbTimeout := u16 p 6, partner := u64 p 8 }

def badPair (p : Bytes) : Option Nat :=
  firstBad [(0, inRange 0 1 (u8 p 0)), (6, decide (u8 p 0 = 0) || inRange 500 2000 (u16 p 6))]

/-- Link port states (Table 16-1). -/
inductive PortState where
  | down | search | caps | stepUp | align | up | frDetect | frTrain | frLock | frCaps | frUp | fenced
  deriving DecidableEq, Repr, Inhabited

def portCode : PortState → Nat
  | .down => 0 | .search => 1 | .caps => 2 | .stepUp => 3 | .align => 4 | .up => 5 | .frDetect => 6 | .frTrain => 7 | .frLock => 8
  | .frCaps => 9 | .frUp => 10 | .fenced => 11

/-- Causes of the last DOWN of a port. The manual names them and gives no codes (Table 16-1, RING_STATUS). -/
inductive PortCause where
  | none | forerunnerRefused | capsTimeout | stepTimeout | alignTimeout | frTimeout | linkLost | fenced | reset
  deriving DecidableEq, Repr, Inhabited

/-- A ring packet (Table 16-2). -/
structure RingPkt where
  cls : Nat := 0
  type : Nat := 0
  src : Nat := 0
  dst : Nat := 0
  hops : Nat := 0
  rerouted : Bool := false
  last : Bool := true
  seq : Nat := 0
  stream : Nat := 0
  payload : Bytes := []
  deriving DecidableEq, Repr, Inhabited

/-- A packet sent and not yet acknowledged (R684). -/
structure Unacked where
  pkt : RingPkt := {}
  sentAt : Nat := 0
  retried : Bool := false
  deriving DecidableEq, Repr, Inhabited

/-- The RING block of one port (R716). -/
structure PortCounters where
  tx : Nat := 0
  rx : Nat := 0
  crcRetries : Nat := 0
  fences : Nat := 0
  downs : Nat := 0
  frDiscards : Nat := 0
  lateReplies : Nat := 0
  folds : Nat := 0
  deriving DecidableEq, Repr, Inhabited

/-- The neighbour on a port, from its capability block (R680). -/
structure Neighbour where
  serial : Nat := 0
  id : Nat := 0
  forerunner : Bool := false
  deriving DecidableEq, Repr, Inhabited

/-- One link port: JE, JW or JM. -/
structure LinkPort where
  state : PortState := .down
  /-- When the port entered its state. -/
  since : Nat := 0
  cause : PortCause := .none
  neighbour : Option Neighbour := none
  /-- Failed native bring-ups at 25.78125 Gbaud in a row; two make the next CAPS offer the lower rate. -/
  nativeFails : Nat := 0
  lowRate : Bool := false
  nextSeq : Nat := 0
  unacked : List Unacked := []
  /-- Packets that wait while 256 are unacknowledged (R684). -/
  waiting : List RingPkt := []
  cnt : PortCounters := {}
  deriving DecidableEq, Repr, Inhabited

/-- A module known on the ring (RING_STATUS). Hops are none when it cannot be reached that way. -/
structure RingModule where
  serial : Nat := 0
  id : Option Nat := none
  hopsEast : Option Nat := none
  hopsWest : Option Nat := none
  gateway : Bool := false
  forerunner : Bool := false
  deriving DecidableEq, Repr, Inhabited

/-- A command forwarded to another module and not yet answered (R92, R95). -/
structure Forwarded where
  ring : Nat := 0
  tag : Nat := 0
  ticket : Nat := 0
  module : Nat := 0
  opcode : Nat := 0
  irq : Bool := false
  sentAt : Nat := 0
  barrier : Bool := false
  /-- The immediate ST_ACCEPTED reply has come and the completion is awaited. -/
  accepted : Bool := false
  deriving DecidableEq, Repr, Inhabited

/-- The preparation of a broadcast glue-up at its gateway (R124 to R126). -/
structure Prepare where
  ring : Nat := 0
  ticket : Nat := 0
  tag : Nat := 0
  irq : Bool := false
  barrier : Bool := false
  /-- EARLIEST_STRIP that the command gives; none without AT_STRIP. -/
  earliest : Option Nat := none
  waiting : List Nat := []
  /-- Prepared modules with the current strip that each reports. -/
  prepared : List (Nat × Nat) := []
  sentAt : Nat := 0
  deriving DecidableEq, Repr, Inhabited

/-- A command to every module whose replies the gateway combines: a broadcast ABANDON, or a committed broadcast GLUEUP whose completions
are awaited (R127, R128). -/
structure Broadcast where
  ring : Nat := 0
  ticket : Nat := 0
  tag : Nat := 0
  opcode : Nat := 0
  irq : Bool := false
  barrier : Bool := false
  /-- The immediate reply has been posted, and the completion is awaited. -/
  completing : Bool := false
  waiting : List Nat := []
  /-- Answers so far: module, status and body. -/
  answers : List (Nat × Nat × Bytes) := []
  sentAt : Nat := 0
  deriving DecidableEq, Repr, Inhabited

/-- One open relay at the gateway or at its source (R691 to R694). At the source, `srcModule` is the gateway and `localQueue` is not
used. -/
structure RelayState where
  localQueue : Nat := 0
  srcModule : Nat := 0
  srcQueue : Nat := 0
  stallSince : Option Nat := none
  stallRaised : Bool := false
  deriving DecidableEq, Repr, Inhabited

/-- Pair roles (Table 16-6). -/
inductive PairRole where
  | solo | pairing | active | passive | passiveResync | takingOver | mirrorLost | failed
  deriving DecidableEq, Repr, Inhabited

def roleCode : PairRole → Nat
  | .solo => 0 | .pairing => 1 | .active => 2 | .passive => 3 | .passiveResync => 4 | .takingOver => 5 | .mirrorLost => 6 | .failed => 7

/-- Causes of a role change. The manual gives no codes for them; the model numbers them in this order. -/
inductive PairCause where
  | none | config | paired | mismatch | digest | snapshotLate | journal | partnerFail | heartbeat | switch | left | ownFail | resumed
  deriving DecidableEq, Repr, Inhabited

def pairCauseCode : PairCause → Nat
  | .none => 0 | .config => 1 | .paired => 2 | .mismatch => 3 | .digest => 4 | .snapshotLate => 5 | .journal => 6 | .partnerFail => 7
  | .heartbeat => 8 | .switch => 9 | .left => 10 | .ownFail => 11 | .resumed => 12

/-- One region slot of a snapshot or the mirror's figures of the partner (R707) are carried as the Marquetry's own state. -/
structure PartnerMark where
  station : Nat := 0
  mark : Mark := {}
  deriving DecidableEq, Repr, Inhabited

/-- The pairing exchange's figures (R709). -/
structure PairHello where
  serial : Nat := 0
  portHome : Nat := 0
  axisOwner : Nat := 0
  partnerSerial : Nat := 0
  preferActive : Bool := false
  triggering : Bool := false
  ringId : Option Nat := none
  deriving DecidableEq, Repr, Inhabited

/-- The ring, the mirror and the pair. -/
structure RingUnit where
  ports : Vector LinkPort 3 := .replicate 3 {}
  modules : List RingModule := []
  moduleId : Nat := 0
  enumerated : Bool := false
  gateway : Bool := false
  folded : Bool := false
  forwarded : List Forwarded := []
  prepare : Option Prepare := none
  broadcasts : List Broadcast := []
  /-- This module holds a broadcast glue-up preparation open for a gateway (R125): the gateway and the strip offered. -/
  prepared : Option (Nat × Nat) := none
  relays : List RelayState := []
  /-- Queues of this module that a gateway reads by relay (R692): queue and gateway. -/
  sources : List RelayState := []
  deriving DecidableEq, Repr, Inhabited

/-- What a strip's digest is formed from (R706), as far as it is known: the records placed, by queue; the region slots at the end
of the strip; the gap lines of each slot. -/
structure DigestWork where
  strip : Nat := 0
  recs : List (Nat × Bytes) := []
  regions : Option Bytes := none
  gaps : List (Nat × Nat) := []
  deriving DecidableEq, Repr, Inhabited

/-- A record with its queue and strip, as a resync carries it (R707). -/
structure SnapRecord where
  queue : Nat := 0
  seq : Nat := 0
  bytes : Bytes := []
  deriving DecidableEq, Repr, Inhabited

/-- The active module's snapshot (R707): Marquetry's state, the records of the strips replaced and WR of each queue. -/
structure Snapshot where
  strip : Nat := 0
  regions : List Region := []
  gens : List (Nat × Nat) := []
  window : List WinRun := []
  records : List SnapRecord := []
  wr : List Nat := []
  deriving DecidableEq, Repr, Inhabited

/-- A live trim accepted in a pair, which takes effect with a later web line of its unit (R705). -/
inductive Trim where
  | zoneShim (slot field zone value line : Nat)
  | zoneRef (slot field zones line : Nat)
  | seamShim (field seam value line : Nat)
  | viewCrop (stream value line : Nat)
  | queueTrim (queue : Nat) (threshold idle : Option Nat) (line : Nat)
  deriving DecidableEq, Repr

structure PairUnit where
  role : PairRole := .solo
  cause : PairCause := .none
  /-- The active role as the pairing exchange gave it (R709): true for this module. -/
  chosen : Option Bool := none
  partner : Option PairHello := none
  /-- The partner's role as its last heartbeat gave it. -/
  partnerRole : Nat := 0
  partnerFail : Bool := false
  /-- This module gives the failure signal (R711). -/
  signalling : Bool := false
  diverged : Bool := false
  lastHeartbeat : Option Nat := none
  /-- When this module last sent its own. -/
  lastSent : Option Nat := none
  jmOffset : Int := 0
  /-- Digests of this module's placed strips, newest first: strip and CRC (R706). -/
  digests : List (Nat × Nat) := []
  lastDigest : Nat := 0
  /-- Strips whose digest is not yet formed, oldest first. -/
  work : List DigestWork := []
  /-- Digests of the partner that wait for this module's own: strip and CRC. -/
  theirs : List (Nat × Nat) := []
  /-- The partner has been lost: marks of shadow stations end PARTNER_LOST (R713, Table 16-6). -/
  partnerLost : Bool := false
  /-- Live trims that wait for their web line, oldest first (R705). -/
  trims : List Trim := []
  /-- The line that the journal gives the trim being applied. -/
  journalLine : Option Nat := none
  mismatches : Nat := 0
  resyncs : Nat := 0
  failovers : Nat := 0
  posResyncs : Nat := 0
  journalEntries : Nat := 0
  /-- Strip at whose first line a resync or the pairing snapshot takes effect (R707, R709). -/
  atStrip : Option Nat := none
  /-- First strip that a resync replaces (R707). -/
  resyncFrom : Nat := 0
  /-- Since when Marquetry waits for the snapshot (R708). -/
  resyncSince : Option Nat := none
  /-- The snapshot: taken and not yet sent in the active module, received and not yet applied in the passive one. -/
  snapshot : Option Snapshot := none
  /-- Strip of a planned switch, and its PAIR_SWITCH (R714). -/
  switchAt : Option Nat := none
  switchTicket : Option Nat := none
  partnerMarks : List PartnerMark := []
  /-- RD and MK of each queue from the ledger traffic (R702): queue, RD, MK. -/
  ledger : List (Nat × Nat × Nat) := []
  deriving DecidableEq, Repr, Inhabited

end Sys2Proof.Machine
end

