-- ==== Sys2Proof/Machine/StSys.lean ====
section
/-! DEFINITION. The state of the command processor's own records (tickets, outstanding commands, dry-fit, glue-up), of the
fault log, the Holdfast, start-up and the fabric's pace ("Faults, the ticket ledger and the Holdfast", "Power-up, boot and
reset", "How a web line travels through the device"). -/

namespace Sys2Proof.Machine

/-- The ticket ledger (R43, R722): slots ISSUED, slots whose outcome waits to be reported, generations other than 0. -/
structure Ledger where
  issued : List Nat := []
  ended : List Nat := []
  gens : List (Nat × Nat) := []
  issuedCount : Nat := 0
  complete : Nat := 0
  failed : Nat := 0
  failedCommands : Nat := 0
  /-- FAILED tickets by ledger code 1 to 15 (Table 17-3). -/
  failedBy : List (Nat × Nat) := []
  highWater : Nat := 0
  fullEpisodes : Nat := 0
  noTicket : Nat := 0
  /-- The ledger is full, and the event of R44 has been raised; it re-arms below 90 %. -/
  full : Bool := false
  deriving DecidableEq, Repr, Inhabited

/-- A command taken and not yet finally answered (R82 to R84). -/
structure CmdRec where
  ticket : Nat := 0
  ring : Nat := 0
  tag : Nat := 0
  opcode : Nat := 0
  irq : Bool := false
  /-- ST_ACCEPTED has been posted and one slot is reserved for the completion (R72). -/
  accepted : Bool := false
  /-- A barrier command holds its ring until it has replied (R84). -/
  barrier : Bool := false
  /-- The gateway that forwarded the command, when it came over the ring (R92). -/
  via : Option Nat := none
  /-- The command came from the journal of the active module and has no reply (R704). -/
  silent : Bool := false
  deriving DecidableEq, Repr, Inhabited

/-- Units that take up web lines and so change configuration line by line (R48, R123). -/
inductive LineUnit where
  | gauge
  | link (slot : Nat)
  | plane (slot : Nat)
  | dovetail
  | profile (slot : Nat)
  | background
  | marquetry
  | veneer (stream : Nat)
  deriving DecidableEq, Repr

/-- The last dry-fit (R112, R117). -/
structure DryfitRec where
  gen : Nat := 0
  fit : Bool := false
  deriving DecidableEq, Repr, Inhabited

/-- A finding of a dry-fit (Table 2-11). -/
structure Finding where
  check : Nat := 0
  warning : Bool := false
  code : Nat := 0
  opcode : Nat := 0
  unit : Nat := 0
  kind : Nat := 0
  value : Int := 0
  limit : Int := 0
  deriving DecidableEq, Repr, Inhabited

/-- A dry-fit that runs (R112): its ticket, its report buffer, and what it found in the configuration staged when it was accepted. -/
structure DryfitRun where
  ticket : Nat := 0
  ref : BulkRef := {}
  gen : Nat := 0
  fit : Bool := false
  /-- The 64-byte header and the findings that the buffer holds. -/
  report : Bytes := []
  deriving DecidableEq, Repr, Inhabited

/-- A fenced unit: UNIT and INDEX as in Tables 17-7 and 18-8, with its fault log entry (R720). -/
structure Fence where
  unit : Nat := 0
  index : Nat := 0
  entry : Nat := 0
  deriving DecidableEq, Repr, Inhabited

/-- A fault log entry (Table 17-7). -/
structure FaultEntry where
  num : Nat := 0
  cls : Nat := 0
  persistent : Bool := false
  holdfast : Bool := false
  unit : Nat := 0
  index : Nat := 0
  cause : Nat := 0
  status : Nat := 0
  stime : Nat := 0
  seconds : Nat := 0
  ns : Nat := 0
  strip : Nat := 0
  tickets : Nat := 0
  detail : Bytes := []
  deriving DecidableEq, Repr, Inhabited

/-- The FAULTS block (Table 17-13). -/
structure FaultCounters where
  cmdSlot : Nat := 0
  hostBulk : Nat := 0
  command : Nat := 0
  verify : Nat := 0
  bench : Nat := 0
  ring : Nat := 0
  dma : Nat := 0
  selftest : Nat := 0
  fences : Nat := 0
  freezes : Nat := 0
  wedges : Nat := 0
  warmResets : Nat := 0
  powerFaults : Nat := 0
  thermalFaults : Nat := 0
  authFailures : Nat := 0
  smbusErrors : Nat := 0
  deriving DecidableEq, Repr, Inhabited

/-- An armed injection (R739). -/
structure Injection where
  kind : Nat := 0
  count : Nat := 0
  index : Nat := 0
  armedAt : Nat := 0
  deriving DecidableEq, Repr, Inhabited

structure SelftestRun where
  ticket : Nat := 0
  tests : Nat := 0
  start : Nat := 0
  deriving DecidableEq, Repr, Inhabited

structure Faults where
  log : List FaultEntry := []
  flash : List FaultEntry := []
  nextEntry : Nat := 1
  fences : List Fence := []
  cnt : FaultCounters := {}
  injections : List Injection := []
  selftest : Option SelftestRun := none
  deriving DecidableEq, Repr, Inhabited

/-- FABRIC of Table 13-19. -/
inductive FabricState where
  | running | wedged | resetting | booting
  deriving DecidableEq, Repr, Inhabited

def fabricCode : FabricState → Nat
  | .running => 0 | .wedged => 1 | .resetting => 2 | .booting => 3

/-- The paths to the Holdfast (R729). -/
inductive HfPath where
  | auto | bar2 | smbus
  deriving DecidableEq, Repr, Inhabited

def pathCode : HfPath → Nat
  | .auto => 0 | .bar2 => 1 | .smbus => 2

/-- The quantities of Table 17-5a. -/
inductive Monitor where
  | vmain | vfab | junction
  deriving DecidableEq, Repr, Inhabited

/-- Holdfast operations that take time (Table 17-5). -/
inductive HfBusy where
  | warmReset | recoveryBoot | forceSelfRefresh | releaseSelfRefresh
  deriving DecidableEq, Repr, Inhabited

/-- The Holdfast's registers and SMBus target (Tables 13-18, 13-19, 17-6). -/
structure Holdfast where
  fabric : FabricState := .booting
  /-- Valid keys: the path and the time of the key write (R618, R729). -/
  keys : List (HfPath × Nat) := []
  lastOp : Nat := 0
  opResult : Nat := 0
  opsTaken : Nat := 0
  busy : Option (HfBusy × HfPath) := none
  /-- Event sources latched while the fabric was wedged, source s at bit s. -/
  latched : Nat := 0
  /-- Latched sources with their arguments and times, oldest first, for delivery (R726). -/
  latchedEvents : List (Nat × Nat × Nat × Nat) := []
  logIndex : Nat := 0
  srForced : Bool := false
  /-- The fabric has been found wedged and has not run since (R726). -/
  wedgeSeen : Bool := false
  /-- A monitor fault holds the fabric in RESETTING (R727). -/
  monitorHold : Bool := false
  /-- Quantities outside their windows and not yet released (Table 17-5a). -/
  monitors : List Monitor := []
  addr : Nat := 0
  smbOffset : Nat := 0
  /-- Offset and value of the high half latched by a read of a low half over SMBus (R731). -/
  highSmb : Option (Nat × Nat) := none
  alert : Bool := false
  bar0Wedged : Nat := 0
  deriving DecidableEq, Repr, Inhabited

/-- A command processor image as its header and its checks report it (R733, R734). -/
structure ImageInfo where
  valid : Bool := false
  version : Nat := 0
  security : Nat := 0
  keySlot : Nat := 0
  length : Nat := 0
  /-- The signature over the header and the digest of the body hold. -/
  signed : Bool := false
  digest : Bool := false
  deriving DecidableEq, Repr, Inhabited

structure FwRun where
  ticket : Nat := 0
  slot : Nat := 0
  prefer : Bool := false
  image : ImageInfo := {}
  /-- RESULT other than 0: the image failed its checks and nothing is written. -/
  result : Nat := 0
  deriving DecidableEq, Repr, Inhabited

/-- Start-up, firmware and debug (Tables 18-1 to 18-9). -/
structure Boot where
  stage : Nat := 0
  vauxUp : Bool := false
  vmainUp : Bool := false
  /-- VAUX has been lost, or has not yet been in range: the next time in range is a power-on reset (R742). -/
  vauxLost : Bool := true
  /-- VMAIN has fallen below 8.0 V with VAUX held (R758). -/
  vmainLost : Bool := false
  refTime : Nat := 0
  cause : Nat := 0
  readyMs : Nat := 0
  restored : Bool := false
  warmResets : Nat := 0
  perstCount : Nat := 0
  powerOnAt : Nat := 0
  golden : ImageInfo := { valid := true, version := Config.goldenVersion, security := Config.goldenSecurity, signed := true, digest := true }
  slotA : ImageInfo := {}
  slotB : ImageInfo := {}
  preferred : Nat := 1
  /-- The image under verification, or running: 0 golden, 1 A, 2 B. -/
  image : Nat := 1
  /-- Images still to try, in the order of R734. -/
  tryNext : List Nat := []
  minSecurity : Nat := 0
  revoked : List Nat := []
  recovery : Bool := false
  warm : Bool := false
  /-- The warm reset was carried out at the release of a monitor fault. -/
  byMonitor : Bool := false
  fw : Option FwRun := none
  /-- An image is under verification (R734). -/
  verifying : Bool := false
  /-- The module is READY (Table 18-1, step 10). -/
  ready : Bool := false
  /-- Until when a warm reset holds the fabric (Table 18-4, step 4). -/
  holdUntil : Option Nat := none
  unlocked : Bool := false
  scope : Nat := 0
  unlockKey : Nat := 0
  challenge : Option (Nat × Nat) := none
  authFails : Nat := 0
  lastChange : Nat := 0
  deriving DecidableEq, Repr, Inhabited

/-- The fabric's pace and supply (R28 to R33, R749, R750). -/
structure Pace where
  figure : Nat := 0
  lowest : Option Nat := none
  scale : Nat := 1024
  clamped : Bool := false
  vfabMv : Nat := 820
  /-- Required pace of the running configuration, exact (R30). -/
  required : Rat := 0
  target : Nat := 0
  events : Nat := 0
  lowEvents : Nat := 0
  steps : Nat := 0
  deriving DecidableEq, Repr, Inhabited

/-- Measured supplies and temperatures. -/
structure Sense where
  vauxMv : Nat := 0
  vmainMv : Nat := 0
  tj : Int := 25
  tcp : Int := 25
  junctionHot : Bool := false
  deriving DecidableEq, Repr, Inhabited

/-- Cages of R779 and R780: JE, JW, JM, ETH0, ETH1. -/
structure Cage where
  present : Bool := false
  identifier : Nat := 0
  powerClass : Nat := 0
  /-- High power is enabled and the port may come up (R780). -/
  enabled : Bool := true
  deriving DecidableEq, Repr, Inhabited

end Sys2Proof.Machine
end

