-- ==== Sys2Proof/Machine/StCfg.lean ====
section
/-! DEFINITION. One whole configuration (R15, R16): every setting without banks that host software stages. Banked settings
(Table 1-10) stand in their units, each with its two banks. -/

namespace Sys2Proof.Machine

structure Cfg where
  range : Option OperatingRange := none
  enc : Vector EncoderCfg 6 := .replicate 6 {}
  seq : Option LineSeq := none
  /-- S as a power of two (Table 3-5); 256 lines until a line sequence is in force. -/
  shift : Nat := 8
  trig : Vector SlotTrigCfg 24 := .replicate 24 {}
  cmp : Vector CompareCfg 16 := .replicate 16 {}
  link : Vector LinkCfg 24 := .replicate 24 {}
  kx : Vector KxCfg 24 := .replicate 24 {}
  through : Vector ThroughCfg 2 := .replicate 2 {}
  plane : Vector PlaneCfg 24 := .replicate 24 {}
  grid : Option GridCfg := none
  kerf : Vector (Option KerfCfg) 25 := .replicate 25 none
  queue : Vector QueueCfg 16 := .replicate 16 {}
  patch : Vector PatchCfg 16 := .replicate 16 {}
  station : Vector StationCfg 4 := .replicate 4 {}
  zone : Vector ZoneCfg 24 := .replicate 24 {}
  grit : Vector GritCfg 24 := .replicate 24 {}
  bg : BgCfg := {}
  /-- Watch settings keyed by slot x 256 + field x 64 + zone; MODE 0 where not listed. -/
  watch : List (Nat × WatchCfg) := []
  view : Vector ViewCfg 8 := .replicate 8 {}
  part : Vector PartCfg 18 := .replicate 18 {}
  /-- Bench ports that PORT_CONFIG has staged; Table 12-2 otherwise. -/
  port : Vector (Option PortCfg) 16 := .replicate 16 none
  archive : ArchiveCfg := {}
  verify : Vector Nat 4 := .replicate 4 0
  axis : Vector AxisCfg 4 := .replicate 4 {}
  gear : Vector GearCfg 4 := .replicate 4 {}
  stand : Vector StandCfg 4 := .replicate 4 {}
  time : TimeCfg := {}
  ptp : Vector PtpCfg 2 := .replicate 2 {}
  ring : RingCfg := {}
  pair : PairCfg := {}
  dma : Vector DmaCfg 64 := .replicate 64 {}
  deriving DecidableEq, Repr, Inhabited

/-- A glue-up in progress (R47 to R50, R119 to R123). -/
structure Glue where
  next : Cfg := {}
  /-- The effective strip; 0 while deferred. -/
  strip : Nat := 0
  /-- First web line under the new configuration; none while deferred. -/
  first : Option Nat := none
  deferred : Bool := false
  gen : Nat := 0
  ticket : Nat := 0
  /-- Units that have taken the new configuration. -/
  applied : List LineUnit := []
  /-- Units that have captured their shadow banks and not swapped (R58). -/
  captured : List LineUnit := []
  lateWrites : Nat := 0
  fenced : Bool := false
  /-- The settings of units that take up no web lines have been applied. -/
  others : Bool := false
  deriving DecidableEq, Repr, Inhabited

end Sys2Proof.Machine
end

