-- ==== Sys2Proof/Machine/StWire.lean ====
section
/-! DEFINITION. What the world outside sends with a command or an event, and what the device sends out: the operand types of
Instr and the output lines of State. -/

namespace Sys2Proof.Machine

/-- How often a transfer with the host ended with an error status: 0 none, 1 the first attempt only, 2 both (R80). -/
abbrev Fails := Nat

/-- A Yilgen packet as the command processor has read it (Table 2-1), with what the world answers while it runs: the bytes
that a bulk reference reads from host memory, how often a bulk transfer fails (R80) and how often an internal step fails
(R90). -/
structure HostCmd where
  ring : Nat := 0
  irq : Bool := false
  barrier : Bool := false
  tag : Nat := 0
  module : Nat := 0xFF
  unit : Nat := 0xFF
  paramLen : Nat := 0
  slots : Nat := 1
  params : Bytes := []
  bulk : Bytes := []
  bulkFails : Fails := 0
  stepFails : Fails := 0
  deriving DecidableEq, Repr, Inhabited

/-- The packet at the front of a command ring: its bytes, and how often the slot read failed (R67). -/
structure RawPkt where
  bytes : Bytes := []
  readFails : Fails := 0
  bulk : Bytes := []
  bulkFails : Fails := 0
  stepFails : Fails := 0
  deriving DecidableEq, Repr, Inhabited

/-- The packet that a run of bytes spells, to be run for a ring (Table 2-1). -/
def parsePkt (ring : Nat) (r : RawPkt) : HostCmd :=
  let p := r.bytes
  { ring := ring, irq := bitOf (u16 p 2) 0, barrier := bitOf (u16 p 2) 1, tag := u32 p 4, module := u8 p 8, unit := u8 p 9,
    paramLen := u16 p 10, slots := u8 p 12, params := slice p 16 (u16 p 10), bulk := r.bulk, bulkFails := r.bulkFails,
    stepFails := r.stepFails }

def pktOpcode (r : RawPkt) : Nat := u16 r.bytes 0

/-- What a camera answers on the control channel (R213, R214). -/
inductive CtrlAnswer where
  | caps (c : CamCaps)
  | data (b : Bytes)
  | done
  | wait (ms : Nat)
  | error (code : Nat)
  /-- The acknowledgement came with a CRC error. -/
  | crcError
  deriving DecidableEq, Repr

/-- How a Bench read or a repeated command ended (R558 to R562). -/
inductive BenchOutcome where
  | clean
  | corrected
  | transient (e : ErrorCapture)
  | lasting (e : ErrorCapture)
  deriving DecidableEq, Repr

/-- Configuration registers of the PCI Express function that the manual gives a meaning (R578, R580, R594). -/
inductive CfgReg where
  | ids
  | classCode
  | serialNumber
  | interruptPin
  | msixControl
  | bar4Size
  | powerState
  | other (place : Nat)
  deriving DecidableEq, Repr

/-- A configuration request (R747). -/
inductive CfgOp where
  | read (r : CfgReg)
  | write (r : CfgReg) (v : Nat)
  deriving DecidableEq, Repr

/-- Registers of a DMA channel's shadow bank (R597). -/
inductive ShadowReg where
  | descBase | descCount | mode
  deriving DecidableEq, Repr, Inhabited

/-- Which mask a host removes (R594): a vector's, or the function's. -/
inductive MsixMask where
  | vector (v : Nat)
  | function
  deriving DecidableEq, Repr

/-- PTP messages that an interval makes a port send (R666). -/
inductive PtpTimer where
  | sync | announce | delayReq
  deriving DecidableEq, Repr, Inhabited

/-- A neighbour's capability block (R680). -/
structure RingCaps where
  serial : Nat := 0
  id : Nat := 0
  version : Nat := 1
  fullRate : Bool := true
  forerunner : Bool := false
  deriving DecidableEq, Repr, Inhabited

/-- A relayed patch: its header and its frames (R692). -/
structure RelayPatch where
  header : Bytes := []
  frames : Bytes := []
  deriving DecidableEq, Repr, Inhabited

/-- A configuration journal entry (R704): a command as the active module took it, with the line from which a live trim is in force
(R705), a DMA CFG write, or a glue-up with its
effective strip. -/
inductive JournalEntry where
  | command (opcode : Nat) (c : HostCmd) (line : Nat)
  | dmaCfg (ch : Nat) (timer : Bool) (v : Nat)
  | glueUp (strip : Nat)
  /-- An accepted Jig result as the staged edit it makes. -/
  | jig (slot : Nat) (w : JigStaged)
  /-- The running configuration and tables with an effective strip, and N0, ORIGIN and whether line triggering is enabled (R709). -/
  | snapshot (cfg : Cfg) (seg : SegBank) (maps : List (List Knot)) (tables : List TableSet) (strip n0 : Nat) (origin : Int) (triggering : Bool)
  deriving DecidableEq, Repr

/-- How one test of SELFTEST went (R738): 0 passed, 1 passed on the second attempt, 2 failed, with the unit it tests. -/
structure TestResult where
  bit : Nat := 0
  fails : Fails := 0
  unit : Nat := 0
  index : Nat := 0
  deriving DecidableEq, Repr, Inhabited

/-- Training of one stack (R538 to R540): the delay set's CRC failures, and the pseudo-channels that failed once or twice. -/
structure TrainResult where
  crcFails : Fails := 0
  failedOnce : List Nat := []
  failedTwice : List Nat := []
  lanes : Nat := 0
  deriving DecidableEq, Repr, Inhabited

/-- A line the device puts out. -/
inductive Emit where
  /-- Bytes written to host memory, Relaxed Ordering set or clear (R70, R614). -/
  | hostWrite (addr : Nat) (data : Bytes) (relaxed : Bool)
  | msix (vector : Nat)
  /-- A read completion: register, queue window or BAR4. -/
  | readData (data : Bytes)
  | unsupported
  | retryStatus
  | trigPacket (slot : Nat) (link : Nat) (delay : Nat)
  | ctrlRequest (slot : Nat) (txn : CtrlTxn)
  | ctrlAck (slot : Nat)
  | eventAck (slot : Nat)
  | axisStart (axis : Nat)
  | datagram (d : Datagram)
  | frame (stream : Nat) (bytes : Bytes)
  | ptp (port : Nat) (kind : PtpKind) (seq : Nat) (time : Int)
  | arpReply (port : Nat) (ip : Nat)
  | ringPacket (port : Nat) (p : RingPkt)
  | ringAck (port : Nat) (seq : Nat)
  | ringHello (port : Nat)
  /-- A topology message (R687). -/
  | topology (port : Nat) (modules : List RingModule)
  | keepalive (port : Nat)
  | mirrorTag (t : TrigTag)
  | mirrorPos (pos : Int) (strip : Nat)
  | journal (e : JournalEntry)
  | mirrorLedger (q rel rd mk : Nat)
  | mirrorMark (station : Nat) (m : Mark)
  | digest (strip crc : Nat)
  | snapshot (s : Snapshot)
  | heartbeat (role strip : Nat)
  | forward (module : Nat) (opcode : Nat) (c : HostCmd)
  | remoteReply (gateway : Nat) (bytes : Bytes)
  | relayRecord (gateway : Nat) (queue : Nat) (rec : Bytes) (patch : Bytes)
  | relayAck (module : Nat) (queue : Nat) (seq : Nat)
  | columnExport (row : ImportRow)
  | edgeMessage (m : EdgeMsg)
  /-- A relayed uplink character, sent on a link a fixed delay after the sender's request (R236). -/
  | relayChar (link : Nat) (char : Nat) (delay : Nat)
  | smbusData (data : Bytes)
  | prepare (module : Nat)
  | release (module : Nat)
  | commit (module : Nat) (strip : Nat)
  deriving DecidableEq, Repr

end Sys2Proof.Machine
end

