-- ==== Sys2Proof/Syntax.lean ====
section
/-! DEFINITION. The commands of the device: one constructor per row of the table of operations and events. Every command
carries the time `t` in ns of the timing island at which it happens; a Yilgen command carries its packet, and an event
carries what the world outside supplies with it. -/

namespace Sys2Proof

open Machine

inductive Instr where
  /-- NOP (R129). Command that tests the command path and replies ST_OK. -/
  | nop (t : Nat) (c : HostCmd)
  /-- GET_INFO (R129). Command that returns the module identity of Table 18-6. -/
  | getInfo (t : Nat) (c : HostCmd)
  /-- GET_STATUS (R129). Command that returns the start-up and reset state of Table 18-7. -/
  | getStatus (t : Nat) (c : HostCmd)
  /-- RESET_UNIT (R764). Command that resets one unit, clears its fence and ends its open tickets FAILED(RESET). -/
  | resetUnit (t : Nat) (c : HostCmd)
  /-- FW_UPDATE (R765). Command that starts writing and verifying an image into an update slot, or marks a slot preferred. -/
  | fwUpdate (t : Nat) (c : HostCmd)
  /-- FW_UPDATE_DONE (R765). The image write and read-back of FW_UPDATE finish, the slot is marked valid and the completion is posted. -/
  | fwUpdateDone (t : Nat) (readBackOk : Bool)
  /-- DEBUG_UNLOCK (R735). Command that requests a challenge, presents an unlock token or relocks the debug port. -/
  | debugUnlock (t : Nat) (c : HostCmd)
  /-- CHALLENGE_EXPIRED (R735). A debug challenge reaches its 10-minute validity and lapses. -/
  | challengeExpired (t : Nat)
  /-- GET_STAGE (R98). Command that returns STAGE_GEN, the dry-fit state, the pending glue-up and the current strip. -/
  | getStage (t : Nat) (c : HostCmd)
  /-- DRYFIT (R113). Command that starts the check of the whole staged configuration. -/
  | dryfit (t : Nat) (c : HostCmd)
  /-- DRYFIT_DONE (R112). The dry-fit checks finish, the report is written and the completion is posted. -/
  | dryfitDone (t : Nat) (fails : Fails)
  /-- GLUEUP (R119). Command that commits the staged configuration at an effective strip, or defers it while triggering is disabled. -/
  | glueup (t : Nat) (c : HostCmd)
  /-- GLUEUP_PREPARE_REPLY (R125). A module's answer to a broadcast glue-up preparation reaches the gateway, which commits one effective strip once all have prepared. -/
  | glueupPrepareReply (t : Nat) (module : Nat) (status : Nat) (strip : Nat)
  /-- GLUEUP_PREPARE_TIMEOUT (R126). A module fails to answer a broadcast glue-up preparation within 1 ms, and the gateway releases every module. -/
  | glueupPrepareTimeout (t : Nat)
  /-- ABANDON (R57). Command that discards the staged configuration and copies every active bank into its shadow bank. -/
  | abandon (t : Nat) (c : HostCmd)
  /-- GET_REPORT (R129). Command that reads the dry-fit report. -/
  | getReport (t : Nat) (c : HostCmd)
  /-- SET_OPERATING_RANGE (R110). Command that stages MAX_SPEED, MIN_SPEED and COUNT_NM. -/
  | setOperatingRange (t : Nat) (c : HostCmd)
  /-- CMD_SIZE_WRITE (R62). A write to CMDn_SIZE enables or disables a command ring pair. -/
  | cmdSizeWrite (t : Nat) (n : Nat) (v : Nat)
  /-- CMD_DOORBELL (R65). A write to CMDn_PROD exposes packets, or stops the ring when the index is out of range. -/
  | cmdDoorbell (t : Nat) (n : Nat) (v : Nat)
  /-- RPL_CONS_WRITE (R71). A write to RPLn_CONS frees reply slots, letting held replies post and packets be taken. -/
  | rplConsWrite (t : Nat) (n : Nat) (v : Nat)
  /-- COMMAND_TAKE (R89). The command processor, in round-robin turn, reads a whole packet, issues its ticket and executes or forwards it. -/
  | commandTake (t : Nat) (pkts : List RawPkt)
  /-- COMMAND_TICKET_TIMEOUT (R89). A packet waits 2 ms without a ticket and is answered ST_BUSY with cause 1. -/
  | commandTicketTimeout (t : Nat) (n : Nat) (pkt : RawPkt)
  /-- FORWARD_TIMEOUT (R95). No reply to a forwarded command arrives within 10 ms, and the gateway replies ST_TIMEOUT. -/
  | forwardTimeout (t : Nat) (ticket : Nat)
  /-- RING_COMMAND_RECEIVED (R94). A forwarded command packet arrives at its target module and executes there in ring order. -/
  | ringCommandReceived (t : Nat) (gateway : Nat) (pkt : RawPkt)
  /-- RING_COMMAND_REPLY (R92). A target's reply reaches the gateway and is posted on the originating reply ring with FORWARDED set. -/
  | ringCommandReply (t : Nat) (module : Nat) (ticket : Nat) (status : Nat) (completion : Bool) (body : Bytes)
  /-- ENCODER_CONFIG (R142). Command that stages an encoder's role, filter, index mode and sense. -/
  | encoderConfig (t : Nat) (c : HostCmd)
  /-- TRIGGER_CONFIG (R151). Command that stages the line sequence or one slot's triggers. -/
  | triggerConfig (t : Nat) (c : HostCmd)
  /-- COMPARE_CONFIG (R174). Command that stages a position-compare unit. -/
  | compareConfig (t : Nat) (c : HostCmd)
  /-- COMPARE_APPEND (R176). Command that inserts entries into a compare unit's active or shadow list. -/
  | compareAppend (t : Nat) (c : HostCmd)
  /-- COMPARE_INSERT_COMPLETE (R176). An appended entry's insertion completes and the entry is checked to lie ahead of WebPos. -/
  | compareInsertComplete (t : Nat) (u : Nat)
  /-- COMPARE_SWAP (R179). Command that makes a compare unit's shadow list active. -/
  | compareSwap (t : Nat) (c : HostCmd)
  /-- GAUGE_STATUS (R147). Command that returns an encoder's state and the trigger counters. -/
  | gaugeStatus (t : Nat) (c : HostCmd)
  /-- TRIGGER_ENABLE (R166). Command that starts line triggering at START_LINE or stops it at strip end or at once. -/
  | triggerEnable (t : Nat) (c : HostCmd)
  /-- ENCODER_COUNT (R134). An accepted change of A or B is decoded as a count, updating WebPos, speed, predictions, and firing targets and compare entries due on the count. -/
  | encoderCount (t : Nat) (e : Nat) (a : Bool) (b : Bool)
  /-- INDEX_EDGE (R140). A rising edge of Z is latched or rezeroes the position under INDEX_MODE. -/
  | indexEdge (t : Nat) (e : Nat)
  /-- STILL_TIMEOUT (R150). No count arrives for STILL_TIMEOUT, so SPEED reads 0, STILL is set and the standstill event is raised. -/
  | stillTimeout (t : Nat) (e : Nat)
  /-- TRIGGER_REQUEST (R159). The time fire_time − LEAD of a predicted target arrives and the slot's trigger request is issued. -/
  | triggerRequest (t : Nat) (slot : Nat)
  /-- TRIGGER_FIRE (R154). A slot's target fires at its predicted time, switching strobes and handing a trigger tag to the pipeline. -/
  | triggerFire (t : Nat) (slot : Nat)
  /-- MIN_PERIOD_RELEASE (R163). A held trigger request is released once MIN_PERIOD has passed since the previous request. -/
  | minPeriodRelease (t : Nat) (slot : Nat)
  /-- COMPARE_FIRE (R175). A forward compare entry fires at its predicted time and takes its PULSE, EVENT and AXIS_START actions. -/
  | compareFire (t : Nat) (u : Nat)
  /-- TRG_PULSE_END (R172). A strobe, compare or alarm pulse reaches its WIDTH and the TRG output returns to its inactive level. -/
  | trgPulseEnd (t : Nat) (trg : Nat)
  /-- LINK_CONFIG (R186). Command that stages a slot's link settings. -/
  | linkConfig (t : Nat) (c : HostCmd)
  /-- LINK_DISCOVER (R193). Command that starts bring-up of a slot at SEARCH. -/
  | linkDiscover (t : Nat) (c : HostCmd)
  /-- LINK_STATUS (R199). Command that returns a slot's or a through connector's state. -/
  | linkStatus (t : Nat) (c : HostCmd)
  /-- CAM_READ (R213). Command that reads camera registers over the control channel. -/
  | camRead (t : Nat) (c : HostCmd)
  /-- CAM_WRITE (R213). Command that writes camera registers over the control channel. -/
  | camWrite (t : Nat) (c : HostCmd)
  /-- KX25_CONFIG (R200). Command that stages KX-25 use for a slot. -/
  | kx25Config (t : Nat) (c : HostCmd)
  /-- POCXP_SWITCH (R205). Command that switches a slot's PoCXP off, on with detection, or clears FAULT. -/
  | pocxpSwitch (t : Nat) (c : HostCmd)
  /-- PRBS_TEST (R223). Command that starts a PRBS test on a lane. -/
  | prbsTest (t : Nat) (c : HostCmd)
  /-- PRBS_TEST_END (R224). A PRBS test reaches its DURATION and its completion is posted. -/
  | prbsTestEnd (t : Nat) (lane : Nat) (bits : Nat) (errors : Nat) (unlocks : Nat) (injections : Nat) (locked : Bool)
  /-- EYE_SCAN (R220). Command that starts an eye measurement, map or re-adaptation on a lane. -/
  | eyeScan (t : Nat) (c : HostCmd)
  /-- EYE_SCAN_DONE (R220). An eye scan finishes and its completion is posted. -/
  | eyeScanDone (t : Nat) (lane : Nat) (sweep : List (Nat × Nat)) (taps : Bytes) (map : Bytes) (fails : Fails)
  /-- THROUGH_CONFIG (R230). Command that stages a through connector's output, input and relay modes. -/
  | throughConfig (t : Nat) (c : HostCmd)
  /-- LINK_LOCK (R195). A link gains lock, moving the slot from SEARCH or STEP_UP onward. -/
  | linkLock (t : Nat) (link : Nat)
  /-- LOCK_LOST (R196). A link of an active slot loses lock and the slot enters ERROR. -/
  | lockLost (t : Nat) (link : Nat)
  /-- CODE_ERROR_LIMIT (R196). More than 64 CODE_ERR occur on one link within 1 ms and the slot enters ERROR. -/
  | codeErrorLimit (t : Nat) (link : Nat) (errors : Nat)
  /-- DISCOVER_TIMEOUT (R193). The master link does not lock within DISCOVER_TIMEOUT and the slot enters ERROR with NO_CAMERA. -/
  | discoverTimeout (t : Nat) (slot : Nat)
  /-- BRINGUP_STEP_TIMEOUT (R194). A STEP_UP or KX-25 lock wait of 200 ms expires, and the step repeats or falls to a lower rate. -/
  | bringupStepTimeout (t : Nat) (slot : Nat)
  /-- CONTROL_ANSWER (R213). A camera's control acknowledgement arrives, advancing bring-up or a CAM_READ or CAM_WRITE. -/
  | controlAnswer (t : Nat) (slot : Nat) (ans : CtrlAnswer)
  /-- CONTROL_TIMEOUT (R214). A control transaction gets no answer within its timeout and is retried once or ends NO_ANSWER. -/
  | controlTimeout (t : Nat) (slot : Nat)
  /-- ADAPT_SWEEP_DONE (R219). The equaliser sweep of ADAPT ends and each lane keeps its best boost. -/
  | adaptSweepDone (t : Nat) (slot : Nat) (sweeps : List (List (Nat × Nat)))
  /-- TEST_CONN_DONE (R193). The 10 ms connection test ends and the slot enters ACTIVE or DEGRADED. -/
  | testConnDone (t : Nat) (slot : Nat) (clean : Bool)
  /-- RETRY_DELAY_EXPIRED (R197). RETRY_DELAY elapses in ERROR with AUTO_RECOVER and bring-up restarts at SEARCH. -/
  | retryDelayExpired (t : Nat) (slot : Nat)
  /-- HEARTBEAT_TIMEOUT (R196). No camera heartbeat arrives for HEARTBEAT_TIMEOUT and the slot enters ERROR. -/
  | heartbeatTimeout (t : Nat) (slot : Nat)
  /-- STREAM_PACKET (R210). A stream packet is received, checked and reassembled in tag order, and a completed line is handed to Ingest. -/
  | streamPacket (t : Nat) (slot : Nat) (pkt : StreamPkt)
  /-- CAMERA_EVENT_PACKET (R215). A camera event packet is received and written as a CAM_EVENT record or discarded. -/
  | cameraEventPacket (t : Nat) (slot : Nat) (eventId : Nat) (ns : Nat) (time : Nat) (data : Bytes)
  /-- TRIGGER_ACK (R217). A camera trigger acknowledgement is received and counted. -/
  | triggerAck (t : Nat) (slot : Nat)
  /-- POCXP_DETECT_DONE (R205). PoCXP load detection ends and the switch turns on or stays off NOT_POCXP. -/
  | pocxpDetectDone (t : Nat) (slot : Nat) (camera : Bool)
  /-- POCXP_TRIP (R206). PoCXP current exceeds a trip threshold and the switch turns off, or latches FAULT on a second trip. -/
  | pocxpTrip (t : Nat) (slot : Nat) (currentMa : Nat)
  /-- POCXP_RETRY (R206). One second after a trip the PoCXP switch tries again. -/
  | pocxpRetry (t : Nat) (slot : Nat)
  /-- POCXP_SPACING_EXPIRED (R756). 10 ms after the last switch-on, a waiting PoCXP detection begins. -/
  | pocxpSpacingExpired (t : Nat)
  /-- VCAM_LOW (R207). VCAM falls below 20.0 V and every PoCXP switch turns off. -/
  | vcamLow (t : Nat)
  /-- VCAM_RESTORED (R207). VCAM exceeds 21.0 V and switches in mode 1 repeat detection. -/
  | vcamRestored (t : Nat)
  /-- LANE_QUALITY_UPDATE (R221). Every 100 ms a lane's quality figure is updated and the quality event may be raised or re-armed. -/
  | laneQualityUpdate (t : Nat) (lane : Nat) (steps : Nat) (codeErrors : Nat)
  /-- RELAY_LOCK (R236). The relay input first locks and RELAY_DELAY is measured by echo. -/
  | relayLock (t : Nat) (conn : Nat) (delay : Nat)
  /-- TAG_TIMEOUT (R245). An outstanding tag's age exceeds LAT_MAX and it ends as a MISSING or NO_LINK gap. -/
  | tagTimeout (t : Nat) (slot : Nat)
  /-- UNMATCHED_LINE_WAIT (R699). A passive module's unmatched line waits 2 µs for tags from JM and is then discarded as untriggered. -/
  | unmatchedLineWait (t : Nat) (slot : Nat)
  /-- INGEST_LINE_WRITE (R256). Once its ring position is released, a pipeline begins writing a waiting line into the line ring. -/
  | ingestLineWrite (t : Nat) (slot : Nat)
  /-- INGEST_WRITE_COMPLETE (R265). A line's last Bench write completes, its tag is written, its entry freed and the ready point advanced. -/
  | ingestWriteComplete (t : Nat) (slot : Nat)
  /-- PLANE_CONFIG (R242). Command that stages a slot's ingest fields and correction settings. -/
  | planeConfig (t : Nat) (c : HostCmd)
  /-- LOAD_TABLE (R56). Command that writes correction-table entries into the slot's shadow bank. -/
  | loadTable (t : Nat) (c : HostCmd)
  /-- READ_TABLE (R280). Command that reads entries of a correction table of either bank. -/
  | readTable (t : Nat) (c : HostCmd)
  /-- SET_ZONE_SHIM (R295). Command that sets, resets or captures references of zone shims. -/
  | setZoneShim (t : Nat) (c : HostCmd)
  /-- PLANE_LINE (R285). The Plane begins a ready web line of a slot and corrects it, capturing or swapping banks at a hand-over. -/
  | planeLine (t : Nat) (slot : Nat)
  /-- JIG_DARK (R308). Command that starts a dark calibration of a slot. -/
  | jigDark (t : Nat) (c : HostCmd)
  /-- JIG_FLAT (R313). Command that starts a flat calibration of a slot. -/
  | jigFlat (t : Nat) (c : HostCmd)
  /-- JIG_GEOMETRY (R323). Command that starts a geometry calibration of a slot. -/
  | jigGeometry (t : Nat) (c : HostCmd)
  /-- JIG_RESULT (R322). Command that returns the last Jig result and its candidate list. -/
  | jigResult (t : Nat) (c : HostCmd)
  /-- JIG_ACQUIRE_LINE (R301). The Jig reads a line of a pass from the line ring and accumulates it, or skips it. -/
  | jigAcquireLine (t : Nat) (slot : Nat)
  /-- JIG_COMPLETE (R316). The acceptance test after pass B ends and the Jig completes accepted or ST_CAL_DISAGREE. -/
  | jigComplete (t : Nat) (slot : Nat)
  /-- JIG_STAGE_RESULT (R320). After the pending glue-up's swap, the Jig writes an accepted result into the shadow bank as a staged edit. -/
  | jigStageResult (t : Nat) (slot : Nat)
  /-- JIG_TIMEOUT (R306). A Jig command's TIMEOUT expires before pass B and it ends ST_ABORTED. -/
  | jigTimeout (t : Nat) (slot : Nat)
  /-- GRID_CONFIG (R329). Command that stages the grid, ORDER, kernel and tiling. -/
  | gridConfig (t : Nat) (c : HostCmd)
  /-- LOAD_GEOMETRY (R338). Command that writes a slot's geometry map into the shadow bank. -/
  | loadGeometry (t : Nat) (c : HostCmd)
  /-- KERF_CONFIG (R352). Command that stages a seam. -/
  | kerfConfig (t : Nat) (c : HostCmd)
  /-- SET_SEAM_SHIM (R355). Command that sets or resets a seam shim of one field. -/
  | setSeamShim (t : Nat) (c : HostCmd)
  /-- SEAM_STATUS (R364). Command that returns a seam's figures for the last complete strip. -/
  | seamStatus (t : Nat) (c : HostCmd)
  /-- DOVETAIL_LINE (R349). The Dovetail begins a web line once all slots, the import and the ring position are ready, and stitches every field. -/
  | dovetailLine (t : Nat)
  /-- IMPORT_RECEIVED (R373). An export arrives from the west neighbour and is kept, or discarded as late or mismatched. -/
  | importReceived (t : Nat) (row : ImportRow)
  /-- IMPORT_TIMEOUT (R375). The import of a ready line does not arrive within IMPORT_WAIT and is declared missing. -/
  | importTimeout (t : Nat)
  /-- CLASS_CONFIG (R381). Command that stages one class. -/
  | classConfig (t : Nat) (c : HostCmd)
  /-- REGION_CONFIG (R388). Command that stages glue gaps, cut length, background lag, defaults and alarm output. -/
  | regionConfig (t : Nat) (c : HostCmd)
  /-- RULE_CONFIG (R406). Command that stages one classification rule. -/
  | ruleConfig (t : Nat) (c : HostCmd)
  /-- SEG_STATUS (R390). Command that returns the state of the region table. -/
  | segStatus (t : Nat) (c : HostCmd)
  /-- MARQUETRY_LINE (R391). Marquetry begins a web line once rows, background and edge message are ready, and codes, connects, closes and flushes regions. -/
  | marquetryLine (t : Nat)
  /-- EDGE_MESSAGE_RECEIVED (R414). The west neighbour's edge message for a line arrives. -/
  | edgeMessageReceived (t : Nat) (msg : EdgeMsg)
  /-- EDGE_MESSAGE_TIMEOUT (R419). An edge message is not received within IMPORT_WAIT and is declared missing, dropping links. -/
  | edgeMessageTimeout (t : Nat)
  /-- QUEUE_CONFIG (R432). Command that stages a queue. -/
  | queueConfig (t : Nat) (c : HostCmd)
  /-- QUEUE_TRIM (R445). Command that sets a queue's threshold and idle timeout. -/
  | queueTrim (t : Nat) (c : HostCmd)
  /-- QUEUE_MARK (R442). Command that saves the read point. -/
  | queueMark (t : Nat) (c : HostCmd)
  /-- QUEUE_REWIND (R443). Command that returns the read point to the mark. -/
  | queueRewind (t : Nat) (c : HostCmd)
  /-- QUEUE_RELEASE (R444). Command that releases records below UPTO and completes their tickets. -/
  | queueRelease (t : Nat) (c : HostCmd)
  /-- PATCH_CONFIG (R449). Command that stages a queue's patches. -/
  | patchConfig (t : Nat) (c : HostCmd)
  /-- MARK_STATION (R453). Command that stages a marker station. -/
  | markStation (t : Nat) (c : HostCmd)
  /-- QUEUE_STATUS (R433). Command that returns a queue's pointers or a station's schedule. -/
  | queueStatus (t : Nat) (c : HostCmd)
  /-- SCRIBE_PLACE_STRIP (R427). Once every source of a queue has completed a strip, the Scribe places its items, taking tickets, SEQ, patch boxes and marks. -/
  | scribePlaceStrip (t : Nat) (queue : Nat)
  /-- QUEUE_WINDOW_READ (R589). A read covering byte 0x000 of a queue window takes the record at RD and latches it. -/
  | queueWindowRead (t : Nat) (queue : Nat) (off : Nat) (size : Nat)
  /-- QUEUE_HEAD_REFILL (R434). A record is fetched from the body into the head when the head has room. -/
  | queueHeadRefill (t : Nat) (queue : Nat)
  /-- QUEUE_IDLE_TIMEOUT (R445). Unread records wait IDLE_TIMEOUT without a read and the idle event is raised. -/
  | queueIdleTimeout (t : Nat) (queue : Nat)
  /-- PATCH_CUT (R448). Once Marquetry has finished the box's last line, the queue's compressor reads the patch rows and compresses them. -/
  | patchCut (t : Nat) (queue : Nat)
  /-- MARK_SETTLE_EXPIRED (R457). SETTLE after the axis reaches a mark's target ends and the compare entry is appended. -/
  | markSettleExpired (t : Nat) (station : Nat)
  /-- MARK_DWELL_EXPIRED (R457). DWELL after a mark fires ends and the move to the next pending mark starts. -/
  | markDwellExpired (t : Nat) (station : Nat)
  /-- ZONE_CONFIG (R463). Command that stages a slot's zone layout. -/
  | zoneConfig (t : Nat) (c : HostCmd)
  /-- GRIT_CONFIG (R467). Command that stages zone or background filtering. -/
  | gritConfig (t : Nat) (c : HostCmd)
  /-- THRESHOLD_CONFIG (R471). Command that stages a watch for a run of zones. -/
  | thresholdConfig (t : Nat) (c : HostCmd)
  /-- VIEW_CONFIG (R482). Command that stages a view stream. -/
  | viewConfig (t : Nat) (c : HostCmd)
  /-- VIEW_CROP (R485). Command that moves a stream's crop as a live trim. -/
  | viewCrop (t : Nat) (c : HostCmd)
  /-- PROFILE_READ (R477). Command that returns zone outputs or the latest background row. -/
  | profileRead (t : Nat) (c : HostCmd)
  /-- PROFILE_LINE (R464). The profile chain takes a corrected line into zone means, medians, grits and watches, and a stitched line into the background filter. -/
  | profileLine (t : Nat) (slot : Nat)
  /-- BACKGROUND_ROW_STORE (R478). Once Marquetry has advanced far enough, a background row is stored in the profile memory. -/
  | backgroundRowStore (t : Nat) (field : Nat)
  /-- VENEER_LINE (R488). A web line enters the Veneer; at a frame's first line the frame's ticket is taken or the frame skipped. -/
  | veneerLine (t : Nat) (stream : Nat)
  /-- VIEW_FRAME_FORM (R487). Once its last line and overlay items are ready, a frame is formed and handed to delivery. -/
  | viewFrameForm (t : Nat) (stream : Nat)
  /-- VIEW_FRAME_SENT (R489). The last byte of a frame is handed to the Ethernet MAC and its ticket ends COMPLETE. -/
  | viewFrameSent (t : Nat) (stream : Nat)
  /-- ETH_LINK_DOWN (R489). An Ethernet port loses link and frames in transmission end FAILED(LINK_DOWN). -/
  | ethLinkDown (t : Nat) (port : Nat)
  /-- ARCHIVE_CONFIG (R514). Command that stages the archive. -/
  | archiveConfig (t : Nat) (c : HostCmd)
  /-- COMPRESS_CONFIG (R511). Command that stages a decompressor as verifier. -/
  | compressConfig (t : Nat) (c : HostCmd)
  /-- CONTEXT_SAVE (R524). Command that copies a context slot to host memory. -/
  | contextSave (t : Nat) (c : HostCmd)
  /-- CONTEXT_RESTORE (R525). Command that copies a context slot image from host memory. -/
  | contextRestore (t : Nat) (c : HostCmd)
  /-- DECOMPRESS (R522). Command that starts decoding pack frames. -/
  | decompress (t : Nat) (c : HostCmd)
  /-- DECOMPRESS_DONE (R522). A decompression ends at the last frame or the first failing frame and its completion is posted. -/
  | decompressDone (t : Nat) (de : Nat) (fails : Fails)
  /-- ARCHIVE_STRIP_START (R515). Once a strip's last row is complete, its archive streams begin on their compressors. -/
  | archiveStripStart (t : Nat)
  /-- COMPRESS_BLOCK_DONE (R502). A compressor finishes a block, the verifier checks it and the pack frame is written. -/
  | compressBlockDone (t : Nat) (ce : Nat) (fails : Fails)
  /-- PARTITION_CONFIG (R533). Command that stages a partition's place and size. -/
  | partitionConfig (t : Nat) (c : HostCmd)
  /-- PORT_CONFIG (R542). Command that stages a Bench port's targets. -/
  | portConfig (t : Nat) (c : HostCmd)
  /-- LOOKBACK (R569). Command that starts retrieval of past web content. -/
  | lookback (t : Nat) (c : HostCmd)
  /-- LOOKBACK_DONE (R574). A look-back finishes writing its line records and its completion is posted. -/
  | lookbackDone (t : Nat) (ticket : Nat) (fails : Fails)
  /-- SELF_REFRESH (R553). Command that enters, leaves or sets automatic self-refresh. -/
  | selfRefresh (t : Nat) (c : HostCmd)
  /-- BENCH_STATUS (R567). Command that returns controllers, ports and partitions. -/
  | benchStatus (t : Nat) (c : HostCmd)
  /-- READ_CAPTURE (R563). Command that returns a controller's freeze capture and transient log. -/
  | readCapture (t : Nat) (c : HostCmd)
  /-- BENCH_REQUEST (R542). A request enters a controller through its port. -/
  | benchRequest (t : Nat) (req : BenchReq)
  /-- BENCH_ISSUE (R544). A pseudo-channel issues its next request by urgency, age and port. -/
  | benchIssue (t : Nat) (pch : Nat) (allowed : List Nat)
  /-- BENCH_URGENCY_RISE (R543). A port's oldest request crosses an age threshold and its urgency rises, counting URGENT3 at level 3. -/
  | benchUrgencyRise (t : Nat) (port : Nat)
  /-- INGEST_DEADLINE (R547). An ingest request waits DEADLINE_NS, is withdrawn with the rest of its line, and the line is abandoned. -/
  | ingestDeadline (t : Nat) (slot : Nat)
  /-- BENCH_READ_DONE (R558). A read returns and is ECC-checked, corrected, retried, or freezes the controller. -/
  | benchReadDone (t : Nat) (id : Nat) (outcome : BenchOutcome)
  /-- BENCH_PARITY_ERROR (R561). A write or command-address parity error is reported and the command is repeated once or the controller freezes. -/
  | benchParityError (t : Nat) (id : Nat) (outcome : BenchOutcome)
  /-- BENCH_REFRESH_DUE (R549). A pseudo-channel's refresh interval elapses and a refresh is issued, postponed or forced. -/
  | benchRefreshDue (t : Nat) (pch : Nat)
  /-- STACK_TEMP_CHANGE (R551). A stack crosses 85 °C or returns to 80 °C, halving or restoring the refresh interval. -/
  | stackTempChange (t : Nat) (stack : Nat) (temp : Int)
  /-- SELF_REFRESH_ENTERED (R553). Self-refresh entry completes on every pseudo-channel. -/
  | selfRefreshEntered (t : Nat)
  /-- AUTO_SELF_REFRESH_TIMEOUT (R555). No request enters for AUTO_DELAY_MS with triggering disabled and automatic self-refresh begins. -/
  | autoSelfRefreshTimeout (t : Nat)
  /-- SELF_REFRESH_EXITED (R556). The self-refresh exit sequence completes and waiting requests are served. -/
  | selfRefreshExited (t : Nat)
  /-- BAR4_READ (R588). A BAR4 read reaches the Bench through port 13, or returns 0 or 0xFF. -/
  | bar4Read (t : Nat) (off : Nat) (size : Nat)
  /-- BAR4_WRITE (R588). A BAR4 write is discarded and counted in BAR4_DROPPED. -/
  | bar4Write (t : Nat) (off : Nat) (size : Nat)
  /-- RC_REGISTER_READ (R13). A read of an RC register returns its value and clears it. -/
  | rcRegisterRead (t : Nat) (bar : Nat) (off : Nat) (size : Nat)
  /-- REGISTER_WRITE (R581). A write to a BAR0 or BAR2 register with no row of its own, or a discarded malformed write. -/
  | registerWrite (t : Nat) (bar : Nat) (off : Nat) (size : Nat) (v : Nat)
  /-- PENDING_CLEAR (R593). A write of 1s to PENDING clears event pending bits. -/
  | pendingClear (t : Nat) (word : Nat) (v : Nat)
  /-- MASK_WRITE (R594). A write to MASK or VECTOR takes effect, treating newly unmasked pending sources as raised. -/
  | maskWrite (t : Nat) (off : Nat) (v : Nat)
  /-- VEC_ACK (R593). A write to VEC_ACK re-arms a vector and sends its message at once when a source is pending. -/
  | vecAck (t : Nat) (v : Nat)
  /-- MSIX_UNMASK (R594). MSI-X vector or function masking is removed and a held message is sent. -/
  | msixUnmask (t : Nat) (which : MsixMask)
  /-- DMA_CFG_WRITE (R595). A write to CFG or CFG_TIMER is checked as a staged edit and accepted or refused. -/
  | dmaCfgWrite (t : Nat) (ch : Nat) (timer : Bool) (v : Nat)
  /-- DMA_SHADOW_WRITE (R600). A write to DESC_BASE, DESC_COUNT or MODE goes to the shadow bank or is held as a late write. -/
  | dmaShadowWrite (t : Nat) (ch : Nat) (reg : ShadowReg) (v : Nat)
  /-- DMA_DOORBELL (R601). CTRL.DOORBELL starts or restarts a channel's set, or starts one descriptor. -/
  | dmaDoorbell (t : Nat) (ch : Nat)
  /-- DMA_ARM (R597). CTRL.ARM arms the shadow bank, or is held during a lock. -/
  | dmaArm (t : Nat) (ch : Nat)
  /-- DMA_ABORT (R612). CTRL.ABORT ends the present descriptor at the next burst boundary and the channel goes IDLE. -/
  | dmaAbort (t : Nat) (ch : Nat)
  /-- DMA_RESET (R612). CTRL.RESET aborts the channel and clears its status, DONE and fence. -/
  | dmaReset (t : Nat) (ch : Nat)
  /-- DMA_TIMER_TICK (R602). A pacing timer ticks and starts one descriptor on its channel. -/
  | dmaTimerTick (t : Nat) (timer : Nat)
  /-- DMA_DESC_FETCHED (R604). A descriptor fetch completes, is checked and takes its ticket. -/
  | dmaDescFetched (t : Nat) (ch : Nat) (desc : Bytes) (fails : Fails)
  /-- DMA_TICKET_TIMEOUT (R604). A descriptor waits 1 ms for a ticket and the channel enters STOPPED. -/
  | dmaTicketTimeout (t : Nat) (ch : Nat)
  /-- DMA_BURST_READ_DONE (R611). A burst read fills a staging page, retrying once or fencing on a host error. -/
  | dmaBurstReadDone (t : Nat) (ch : Nat) (data : Bytes) (fails : Fails)
  /-- DMA_BURST_WRITE (R611). The write engine drains a filled staging page to its destination. -/
  | dmaBurstWrite (t : Nat) (fails : Fails)
  /-- DMA_DESCRIPTOR_COMPLETE (R613). A descriptor's last write leaves and the channel updates DONE, writes back, and hands over or idles at end of count. -/
  | dmaDescriptorComplete (t : Nat) (ch : Nat)
  /-- DMA_FLUSH_DONE (R609). The zero-length read of a FLUSH descriptor completes. -/
  | dmaFlushDone (t : Nat) (ch : Nat) (fails : Fails)
  /-- D3HOT_ENTRY (R578). The function enters D3hot and every DMA channel is aborted. -/
  | d3hotEntry (t : Nat)
  /-- CONFIG_REQUEST (R747). A PCIe configuration request is answered, with retry status before start-up step 3. -/
  | configRequest (t : Nat) (op : CfgOp)
  /-- UNSUPPORTED_REQUEST (R578). An I/O request, AtomicOp or vendor message completes as Unsupported Request. -/
  | unsupportedRequest (t : Nat)
  /-- PERST_ASSERT (R763). PERST# is asserted, aborting DMA, disabling ring pairs and resetting BAR0 state. -/
  | perstAssert (t : Nat)
  /-- PERST_DEASSERT (R747). PERST# is deasserted and link training begins. -/
  | perstDeassert (t : Nat)
  /-- HF_KEY (R618). A write of the key to HF_KEY authorises one Holdfast operation on that path. -/
  | hfKey (t : Nat) (path : HfPath) (v : Nat)
  /-- HF_KEY_EXPIRED (R618). 1 ms passes after a key write without an operation and the key lapses. -/
  | hfKeyExpired (t : Nat) (path : HfPath)
  /-- SAFE_STOP (R646). HF_OP SAFE_STOP safe-stops the axes in its mask. -/
  | safeStop (t : Nat) (path : HfPath) (mask : Nat)
  /-- FORCE_SELF_REFRESH (R557). HF_OP FORCE_SELF_REFRESH stops all grants and forces the Bench into self-refresh. -/
  | forceSelfRefresh (t : Nat) (path : HfPath)
  /-- RELEASE_SELF_REFRESH (R557). HF_OP RELEASE_SELF_REFRESH leaves a forced self-refresh. -/
  | releaseSelfRefresh (t : Nat) (path : HfPath)
  /-- WARM_RESET (R760). HF_OP WARM_RESET starts the warm fabric reset of Table 18-4. -/
  | warmReset (t : Nat) (path : HfPath)
  /-- FAILOVER_SIGNAL (R711). HF_OP FAILOVER_SIGNAL makes the Holdfast give the failure signal. -/
  | failoverSignal (t : Nat) (path : HfPath)
  /-- RECOVERY_BOOT (R760). HF_OP RECOVERY_BOOT starts a warm reset with the golden image and no restore. -/
  | recoveryBoot (t : Nat) (path : HfPath)
  /-- CLEAR_LATCHED (R729). HF_OP CLEAR_LATCHED clears HF_LATCHED. -/
  | clearLatched (t : Nat) (path : HfPath)
  /-- FABRIC_RESET_HOLD_EXPIRED (R760). The 1 ms hold of a warm reset ends, FAIL is released and image verification begins. -/
  | fabricResetHoldExpired (t : Nat)
  /-- AXIS_CONFIG (R620). Command that stages an axis. -/
  | axisConfig (t : Nat) (c : HostCmd)
  /-- AXIS_MOVE (R632). Command that sets an axis target as a live trim. -/
  | axisMove (t : Nat) (c : HostCmd)
  /-- AXIS_HOME (R643). Command that starts homing an axis. -/
  | axisHome (t : Nat) (c : HostCmd)
  /-- AXIS_STOP (R648). Command that stops, safe-stops or clears an axis. -/
  | axisStop (t : Nat) (c : HostCmd)
  /-- AXIS_GEAR (R639). Command that stages electronic gearing. -/
  | axisGear (t : Nat) (c : HostCmd)
  /-- AXIS_STATUS (R651). Command that returns an axis's state. -/
  | axisStatus (t : Nat) (c : HostCmd)
  /-- AXIS_STANDSTILL (R641). Command that stages standstill behaviour. -/
  | axisStandstill (t : Nat) (c : HostCmd)
  /-- AXIS_PROFILE_UPDATE (R627). Every 1 µs the profile generator updates a moving axis, checking arrival, soft limits, stall and gear lag. -/
  | axisProfileUpdate (t : Nat) (axis : Nat)
  /-- PROFILE_WATCHDOG (R647). A moving axis gets no profile update for 20 µs and is safe-stopped with cause WEDGED. -/
  | profileWatchdog (t : Nat) (axis : Nat)
  /-- AXIS_INPUT_CHANGE (R634). A limit or home input's debounced level changes, stopping at a limit or advancing homing. -/
  | axisInputChange (t : Nat) (axis : Nat) (input : Nat) (level : Bool)
  /-- LIMIT_CHATTER (R636). An input changes more than CHATTER_N times in CHATTER_WINDOW and is treated as asserted. -/
  | limitChatter (t : Nat) (axis : Nat) (input : Nat)
  /-- AXIS_OVERCURRENT (R626). A bridge exceeds 4.5 A and the axis goes to FAULT. -/
  | axisOvercurrent (t : Nat) (axis : Nat)
  /-- STAGE_TEMPERATURE (R626). A power stage crosses its warning or over-temperature limit. -/
  | stageTemperature (t : Nat) (axis : Nat) (temp : Int)
  /-- VMOTOR_FAULT (R626). VMOTOR leaves 20.0 V to 52.0 V for 10 µs and every axis goes to FAULT. -/
  | vmotorFault (t : Nat) (mv : Nat)
  /-- STANDSTILL_DELAY_EXPIRED (R641). HOLD_DELAY after rest ends and the axis enters its standstill mode. -/
  | standstillDelayExpired (t : Nat) (axis : Nat)
  /-- IRUN_RESTORE_WAIT (R642). 1 ms after IRUN is restored from OFF or SHORT the motion starts. -/
  | irunRestoreWait (t : Nat) (axis : Nat)
  /-- STROKE_HOLD_EXPIRED (R633). STROKE_HOLD ends and the stroke returns to its start. -/
  | strokeHoldExpired (t : Nat) (axis : Nat)
  /-- HOMING_TIMEOUT (R645). Homing TIMEOUT expires and homing ends ST_HOME_FAILED. -/
  | homingTimeout (t : Nat) (axis : Nat)
  /-- TIME_CONFIG (R662). Command that stages the clock source and clock-wide PTP settings. -/
  | timeConfig (t : Nat) (c : HostCmd)
  /-- TIME_SET (R663). Command that steps the local clock. -/
  | timeSet (t : Nat) (c : HostCmd)
  /-- TIME_ADJUST (R664). Command that sets ADDEND or requests a slew. -/
  | timeAdjust (t : Nat) (c : HostCmd)
  /-- PTP_CONFIG (R670). Command that stages an Ethernet port's link, address and PTP settings. -/
  | ptpConfig (t : Nat) (c : HostCmd)
  /-- TIME_STATUS (R661). Command that returns the clock and its discipline. -/
  | timeStatus (t : Nat) (c : HostCmd)
  /-- SLEW_DONE (R664). A slew's OFFSET has been applied and the clock returns to ADDEND. -/
  | slewDone (t : Nat)
  /-- PTP_MESSAGE (R666). A PTP message is received and time-stamped, driving the port state and the servo. -/
  | ptpMessage (t : Nat) (port : Nat) (msg : PtpMsg)
  /-- PTP_INTERVAL_TIMER (R666). A sync, announce or delay-request interval elapses and the port sends its message. -/
  | ptpIntervalTimer (t : Nat) (port : Nat) (kind : PtpTimer)
  /-- TIME_SOURCE_LOST (R674). No Sync for 3 intervals or no ring time for 10 ms puts the clock in holdover. -/
  | timeSourceLost (t : Nat)
  /-- ARP_REQUEST (R670). An ARP request for the port's own address is answered. -/
  | arpRequest (t : Nat) (port : Nat) (ip : Nat)
  /-- ETH_OTHER_FRAME (R670). A frame that neither PTP nor ARP claims is discarded and counted in RX_OTHER. -/
  | ethOtherFrame (t : Nat) (port : Nat)
  /-- RING_TIME_SEND (R671). Every 1 ms the ring master sends its time in both directions. -/
  | ringTimeSend (t : Nat)
  /-- RING_TIME_MESSAGE (R672). A time message arrives and a follower disciplines its clock from it. -/
  | ringTimeMessage (t : Nat) (port : Nat) (hops : Nat) (payload : Bytes)
  /-- LINK_DELAY_ECHO (R671). Every 100 ms a hop measures its link delay by echo. -/
  | linkDelayEcho (t : Nat) (port : Nat) (ns : Nat)
  /-- RING_CONFIG (R691). Command that stages ring ports and relays. -/
  | ringConfig (t : Nat) (c : HostCmd)
  /-- RING_STATUS (R679). Command that returns the ring state and known modules. -/
  | ringStatus (t : Nat) (c : HostCmd)
  /-- PAIR_CONFIG (R710). Command that stages pairing. -/
  | pairConfig (t : Nat) (c : HostCmd)
  /-- PAIR_SWITCH (R714). Command that moves the active role at a strip boundary or leaves the pair. -/
  | pairSwitch (t : Nat) (c : HostCmd)
  /-- PAIR_STATUS (R715). Command that returns the pair state. -/
  | pairStatus (t : Nat) (c : HostCmd)
  /-- RING_PORT_DOWN_EXPIRED (R680). 10 ms in DOWN elapse and an enabled port begins SEARCH. -/
  | ringPortDownExpired (t : Nat) (port : Nat)
  /-- RING_HELLO (R680). A port receives its eighth consecutive valid HELLO and moves to CAPS. -/
  | ringHello (t : Nat) (port : Nat)
  /-- RING_CAPABILITY (R680). Capability blocks are exchanged and the port proceeds native, forerunner or DOWN. -/
  | ringCapability (t : Nat) (port : Nat) (caps : RingCaps)
  /-- RING_LANES_LOCKED (R680). Block or symbol lock is gained on all lanes of a port. -/
  | ringLanesLocked (t : Nat) (port : Nat)
  /-- RING_LANES_ALIGNED (R680). Lanes are deskewed by alignment markers and the port goes UP. -/
  | ringLanesAligned (t : Nat) (port : Nat)
  /-- RING_TERMINATION_DETECTED (R680). Receiver termination is detected on all lanes in FR_DETECT. -/
  | ringTerminationDetected (t : Nat) (port : Nat)
  /-- RING_TRAINING_PATTERN (R680). The forerunner neighbour's training pattern is received in FR_TRAIN. -/
  | ringTrainingPattern (t : Nat) (port : Nat)
  /-- RING_BRINGUP_TIMEOUT (R680). A bring-up wait of a link port expires and the port returns to DOWN. -/
  | ringBringupTimeout (t : Nat) (port : Nat)
  /-- RING_KEEPALIVE_TIMER (R680). Every 10 µs an UP port sends a keepalive. -/
  | ringKeepaliveTimer (t : Nat) (port : Nat)
  /-- RING_LINK_LOST (R687). Block lock is lost or no packet arrives for 160 µs, the port goes DOWN and the ring folds. -/
  | ringLinkLost (t : Nat) (port : Nat)
  /-- RING_FENCE_EXPIRED (R720). 100 ms after a port is fenced it returns to DOWN. -/
  | ringFenceExpired (t : Nat) (port : Nat)
  /-- RING_PACKET_RX (R684). A ring packet is received, CRC-checked, acknowledged and forwarded or consumed. -/
  | ringPacketRx (t : Nat) (port : Nat) (pkt : RingPkt) (crcOk : Bool)
  /-- RING_ACK_RX (R684). A next-hop acknowledgement frees an unacknowledged packet. -/
  | ringAckRx (t : Nat) (port : Nat) (seq : Nat)
  /-- RING_ACK_TIMEOUT (R684). A packet is not acknowledged within 20 µs and is resent once or the port is fenced. -/
  | ringAckTimeout (t : Nat) (port : Nat) (seq : Nat)
  /-- RING_TOPOLOGY_MESSAGE (R687). A topology message arrives and the module recomputes its routes. -/
  | ringTopologyMessage (t : Nat) (modules : List RingModule) (folded : Bool)
  /-- ENUMERATION (R754). The topology has been unchanged for 200 ms and the enumerator assigns module IDs. -/
  | enumeration (t : Nat)
  /-- RELAY_RESULT_RX (R693). A relayed record arrives at the gateway and is placed with its own SEQ. -/
  | relayResultRx (t : Nat) (module : Nat) (queue : Nat) (rec : Bytes) (patch : RelayPatch)
  /-- RELAY_ACK_RX (R693). The gateway's acknowledgement reaches the source, which releases the record. -/
  | relayAckRx (t : Nat) (queue : Nat) (seq : Nat)
  /-- RELAY_STALL_TIMEOUT (R694). A relay stalls for more than 10 ms and EV 0x3EC is raised. -/
  | relayStallTimeout (t : Nat) (queue : Nat)
  /-- JM_HEARTBEAT_TIMER (R702). Every 100 µs a module sends its heartbeat over JM. -/
  | jmHeartbeatTimer (t : Nat)
  /-- JM_HEARTBEAT_RX (R702). A partner heartbeat arrives over JM. -/
  | jmHeartbeatRx (t : Nat) (role : Nat) (strip : Nat)
  /-- PARTNER_HEARTBEAT_TIMEOUT (R712). Heartbeats are missed for HB_TIMEOUT, giving the failure signal or entering MIRROR_LOST. -/
  | partnerHeartbeatTimeout (t : Nat)
  /-- MIRROR_TAG_RX (R699). A trigger tag arrives over JM and becomes outstanding in the passive module. -/
  | mirrorTagRx (t : Nat) (tag : TrigTag)
  /-- MIRROR_POS_RX (R700). The active WebPos arrives at a strip boundary and the passive module corrects its WebPos. -/
  | mirrorPosRx (t : Nat) (pos : Int) (count : Int)
  /-- MIRROR_JOURNAL_RX (R704). A configuration journal entry arrives and the passive module applies it. -/
  | mirrorJournalRx (t : Nat) (entry : JournalEntry)
  /-- MIRROR_LEDGER_RX (R702). Queue REL, RD and MK updates arrive from the active module. -/
  | mirrorLedgerRx (t : Nat) (queue : Nat) (rel : Nat) (rd : Nat) (mk : Nat)
  /-- MIRROR_MARKS_RX (R701). The owner's pending and ended marks arrive and the partner updates its list. -/
  | mirrorMarksRx (t : Nat) (station : Nat) (mark : Mark)
  /-- MIRROR_DIGEST_RX (R706). A strip digest arrives and is compared; a mismatch starts resynchronisation. -/
  | mirrorDigestRx (t : Nat) (strip : Nat) (crc : Nat)
  /-- RESYNC_SNAPSHOT_RX (R707). The active snapshot arrives and the passive module replaces its region table, records and WR. -/
  | resyncSnapshotRx (t : Nat) (snap : Snapshot)
  /-- RESYNC_TIMEOUT (R708). The snapshot does not arrive within 20 ms and the passive module returns to PAIRING. -/
  | resyncTimeout (t : Nat)
  /-- JM_OFFSET_ECHO (R699). Every 1 ms JM_OFFSET is measured by echo over JM. -/
  | jmOffsetEcho (t : Nat) (offset : Int)
  /-- PAIRING_EXCHANGE (R709). Pairing identities are exchanged over JM and the active role is chosen. -/
  | pairingExchange (t : Nat) (hello : PairHello)
  /-- PARTNER_FAIL (R713). The partner's FAIL input asserts and a passive module takes over, or an active one goes SOLO. -/
  | partnerFail (t : Nat) (asserted : Bool)
  /-- SELFTEST (R737). Command that starts on-die self-tests. -/
  | selftest (t : Nat) (c : HostCmd)
  /-- SELFTEST_DONE (R738). The self-tests finish and the completion is posted. -/
  | selftestDone (t : Nat) (results : List TestResult)
  /-- READ_FAULT_LOG (R732). Command that returns fault log entries. -/
  | readFaultLog (t : Nat) (c : HostCmd)
  /-- INJECT_FAULT (R739). Command that arms one injected fault. -/
  | injectFault (t : Nat) (c : HostCmd)
  /-- INJECTION_LAPSE (R739). An armed injection finds no eligible operation within 1 s and lapses. -/
  | injectionLapse (t : Nat)
  /-- READ_COUNTERS (R740). Command that returns one counter group. -/
  | readCounters (t : Nat) (c : HostCmd)
  /-- PACE_STATUS (R28). Command that returns pace and supply figures. -/
  | paceStatus (t : Nat) (c : HostCmd)
  /-- PACE_UPDATE (R33). Every 1 ms the pace figure is updated and VFAB may be raised with the pace event. -/
  | paceUpdate (t : Nat) (figure : Nat)
  /-- FABRIC_WEDGE (R726). The pace gauge stalls 200 µs or liveness lapses 10 ms and the Holdfast declares the fabric WEDGED. -/
  | fabricWedge (t : Nat) (cause : Nat)
  /-- FABRIC_RESUME (R726). The fabric runs again and latched events are delivered. -/
  | fabricResume (t : Nat)
  /-- MONITOR_FAULT (R727). VMAIN, VFAB or junction temperature leaves its fault window and the Holdfast halts and holds the fabric. -/
  | monitorFault (t : Nat) (what : Monitor) (value : Int)
  /-- MONITOR_FAULT_RELEASE (R727). A monitor fault is released and the Holdfast carries out a warm reset. -/
  | monitorFaultRelease (t : Nat) (what : Monitor) (value : Int)
  /-- JUNCTION_WARNING (R727). The junction crosses 110 °C or re-arms below 105 °C. -/
  | junctionWarning (t : Nat) (temp : Int)
  /-- SMBUS_WRITE_REGISTER (R730). SMBus command 0x01 writes a 4-byte register of the BAR2 map. -/
  | smbusWriteRegister (t : Nat) (off : Nat) (v : Nat) (pecOk : Bool)
  /-- SMBUS_SET_OFFSET (R730). SMBus command 0x02 sets the read offset. -/
  | smbusSetOffset (t : Nat) (off : Nat) (pecOk : Bool)
  /-- SMBUS_READ (R730). SMBus command 0x03 reads the register at the read offset and advances it. -/
  | smbusRead (t : Nat) (pecOk : Bool)
  /-- SMBUS_ALERT_RESPONSE (R731). A read of the Alert Response Address releases SMBALERT#. -/
  | smbusAlertResponse (t : Nat)
  /-- VAUX_IN_RANGE (R742). VAUX comes in range, starting the Holdfast with a power-on reset after a loss. -/
  | vauxInRange (t : Nat) (addr : Nat) (mv : Nat)
  /-- VAUX_LOSS (R742). VAUX falls below 10.0 V for 100 µs. -/
  | vauxLoss (t : Nat)
  /-- VMAIN_IN_RANGE (R743). VMAIN comes in range, starting or restarting the fabric start-up. -/
  | vmainInRange (t : Nat) (mv : Nat)
  /-- VMAIN_LOSS (R758). VMAIN falls below 8.0 V with VAUX held. -/
  | vmainLoss (t : Nat)
  /-- VIO_LOW (R744). VIO below 0.8 V makes every limit and home input read asserted. -/
  | vioLow (t : Nat) (low : Bool)
  /-- IMAGE_VERIFY_DONE (R734). Verification of a command processor image ends and it is loaded or the next image is tried. -/
  | imageVerifyDone (t : Nat) (image : ImageInfo)
  /-- PACE_CALIBRATION_DONE (R749). The start-up pace calibration ends, setting PACE_SCALE and VFAB. -/
  | paceCalibrationDone (t : Nat) (figures : List Nat)
  /-- BENCH_TRAINING_DONE (R539). Delay writing and the sample-region test finish, the Bench is READY or fenced, and the module initialises. -/
  | benchTrainingDone (t : Nat) (stack0 : TrainResult) (stack1 : TrainResult)
  /-- STARTUP_RING_WAIT_EXPIRED (R753). Ring ports have searched 200 ms without a HELLO and start-up step 9 ends. -/
  | startupRingWaitExpired (t : Nat)
  /-- CAGE_MODULE_INSERTED (R780). A pluggable module is inserted and its identifier and power class are read. -/
  | cageModuleInserted (t : Nat) (cage : Nat) (identifier : Nat) (powerClass : Nat)
  /-- TH_INPUT_LOCK_LOSS (R238). A TH input lane loses lock, clears its IN_LOCKED bit, counts IN_LOCK_LOSS and raises EV 0x0F8 + c. -/
  | thInputLockLoss (t : Nat) (conn : Nat) (lane : Nat)
  /-- RELAY_CHARACTER_RX (R236). A relay frame arrives on a TH relay input and each slot's uplink character is sent on its link RELAY_DELAY after the sender's request, or counted in RELAY_CHAR_ERR. -/
  | relayCharacterRx (t : Nat) (conn : Nat) (frame : List (Option Nat))
  /-- CAMERA_HEARTBEAT (R196). A CoaXPress heartbeat from the camera is received and restarts the slot's HEARTBEAT_TIMEOUT. -/
  | cameraHeartbeat (t : Nat) (slot : Nat)
  /-- ETH_LINK_UP (R667). An Ethernet port gains link and its PTP port leaves INITIALIZING or FAULTY towards LISTENING. -/
  | ethLinkUp (t : Nat) (port : Nat)
  /-- PCIE_LINK_UP (R677). The PCIe link completes training and the module becomes a gateway with MODULE.GATEWAY 1. -/
  | pcieLinkUp (t : Nat)
  /-- PCIE_LINK_DOWN (R677). The PCIe link goes down without PERST# and the module stops being a gateway. -/
  | pcieLinkDown (t : Nat)
  /-- SAFE_STOP_REST (R646). The Holdfast's safe-stop ramp brings the axis to rest and applies SAFE_MODE, entering SAFE_STOPPED. -/
  | safeStopRest (t : Nat) (axis : Nat)
  /-- ANNOUNCE_RECEIPT_TIMEOUT (R667). A PTP port receives no Announce within its receipt timeout and changes state under the IEEE 1588-2019 state machine and BMCA. -/
  | announceReceiptTimeout (t : Nat) (port : Nat)
  /-- SMBUS_CLOCK_LOW_TIMEOUT (R805). SMBCLK is held low for 25 ms to 35 ms and the Holdfast's SMBus target abandons the transaction. -/
  | smbusClockLowTimeout (t : Nat)
  deriving DecidableEq, Repr

end Sys2Proof
end

