-- ==== Sys2Proof/Machine/AxisCalc.lean ====
section
/-! DEFINITION. The arithmetic of the axes: phase currents (R624), the profile generator (R627), gearing (R639), the
deviation (R637), counters (R652). -/

namespace Sys2Proof.Machine

/-- The first quarter of the reference table of R624: round(248 sin(2 pi k / 1,024)) for k from 0 to 256. -/
def sineQuarter : List Nat :=
  [0, 2, 3, 5, 6, 8, 9, 11, 12, 14, 15, 17, 18, 20, 21, 23, 24, 26, 27, 29, 30, 32, 33, 35, 36, 38, 39, 41, 42, 44, 45, 47] ++
  [48, 50, 51, 53, 54, 56, 57, 59, 60, 62, 63, 65, 66, 68, 69, 71, 72, 73, 75, 76, 78, 79, 81, 82, 84, 85, 86, 88, 89, 91, 92, 93] ++
  [95, 96, 98, 99, 100, 102, 103, 105, 106, 107, 109, 110, 112, 113, 114, 116, 117, 118, 120, 121, 122, 124, 125, 126, 127, 129, 130, 131, 133, 134, 135, 137] ++
  [138, 139, 140, 142, 143, 144, 145, 147, 148, 149, 150, 151, 153, 154, 155, 156, 157, 159, 160, 161, 162, 163, 164, 165, 167, 168, 169, 170, 171, 172, 173, 174] ++
  [175, 176, 178, 179, 180, 181, 182, 183, 184, 185, 186, 187, 188, 189, 190, 191, 192, 193, 194, 195, 196, 196, 197, 198, 199, 200, 201, 202, 203, 204, 204, 205] ++
  [206, 207, 208, 209, 210, 210, 211, 212, 213, 213, 214, 215, 216, 217, 217, 218, 219, 219, 220, 221, 222, 222, 223, 224, 224, 225, 225, 226, 227, 227, 228, 229] ++
  [229, 230, 230, 231, 231, 232, 232, 233, 234, 234, 235, 235, 235, 236, 236, 237, 237, 238, 238, 239, 239, 239, 240, 240, 241, 241, 241, 242, 242, 242, 243, 243] ++
  [243, 244, 244, 244, 244, 245, 245, 245, 245, 246, 246, 246, 246, 246, 246, 247, 247, 247, 247, 247, 247, 247, 248, 248, 248, 248, 248, 248, 248, 248, 248, 248] ++
  [248]

/-- S[k] of R624, 0 ≤ k < 1,024. -/
def sineRef (k : Nat) : Int :=
  let half (j : Nat) : Nat := if j ≤ 256 then sineQuarter.getD j 0 else sineQuarter.getD (512 - j) 0
  if k ≤ 512 then half k else -((half (k - 512) : Nat) : Int)

/-- A phase's target current in mA: S times I over 248, the magnitude rounded (R624). -/
def phaseCurrent (s : Int) (i : Nat) : Int :=
  let m : Int := ((2 * s.natAbs * i + 248) / 496 : Nat)
  if s < 0 then -m else m

/-- The targets of phases A and B at a position (R624); INVERT_DIR reverses the sense of phase B (R622). -/
def phaseTargets (invert : Bool) (m : Int) (i : Nat) : Int × Int :=
  let k := (m % 1024).toNat
  let b := phaseCurrent (sineRef ((k + 256) % 1024)) i
  (phaseCurrent (sineRef k) i, if invert then -b else b)

def q32 : Nat := 2 ^ 32

/-- The integer part of a position (R627). -/
def intPart (xq : Int) : Int := xq / (q32 : Int)

/-- A rate over one update of 1 us, with 32 fraction bits (R10, R627). -/
def perUpdate (v : Int) : Int := roundDiv v 1000000

def signOf (v : Int) : Int := if v < 0 then -1 else if 0 < v then 1 else 0

/-- One update of R627 towards a target, with its limits: the new position and velocity, and whether it has arrived. -/
def axisStep (vmax accel decel : Nat) (xq vq gq : Int) : Int × Int × Bool :=
  let r := gq - xq
  let ddt := perUpdate (decel * q32)
  if r.natAbs < q32 ∧ vq.natAbs * 1000000 ≤ decel * q32 then (gq, 0, true)
  else
    let v := if vq ≠ 0 ∧ (signOf vq ≠ signOf r ∨ 2 * decel * r.natAbs * q32 ≤ vq.natAbs * vq.natAbs) then
        vq - signOf vq * min (vq.natAbs : Int) ddt
      else signOf r * min ((vq.natAbs : Int) + perUpdate (accel * q32)) (vmax * q32)
    (xq + perUpdate v, v, false)

/-- One update of deceleration to rest: the new position and velocity. -/
def brakeStep (decel : Nat) (xq vq : Int) : Int × Int :=
  let v := vq - signOf vq * min (vq.natAbs : Int) (perUpdate (decel * q32))
  (xq + perUpdate v, v)

/-- One update at a constant speed, reached at ACCEL (homing). -/
def cruiseStep (speed accel decel : Nat) (dir : Int) (xq vq : Int) : Int × Int :=
  let want : Int := dir * (speed * q32)
  let v := if vq < want then min want (vq + perUpdate ((if vq < 0 then decel else accel) * q32))
    else max want (vq - perUpdate ((if 0 < vq then decel else accel) * q32))
  (xq + perUpdate v, v)

/-- Distance to rest at a deceleration, with 32 fraction bits, rounded up. -/
def stopDistance (decel : Nat) (vq : Int) : Nat := ceilDiv (vq.natAbs * vq.natAbs) (2 * decel * q32)

/-- The integral of r from one master position to another, times 2^32 (R639). `lo ≤ hi`. -/
def gearArea (ratio : Int) (changes : List (Int × Int)) (lo hi : Int) : Int :=
  match changes with
  | [] => ratio * (hi - lo)
  | (p, r) :: rest =>
    if p ≤ lo then gearArea r rest lo hi
    else if hi ≤ p then ratio * (hi - lo)
    else ratio * (p - lo) + gearArea r rest p hi

/-- p_g of R639, rounded to microsteps. -/
def gearCommand (c : GearCfg) (g : GearRun) (m : Int) : Int :=
  let a := if g.m0 ≤ m then gearArea c.ratio0 c.changes g.m0 m else -(gearArea c.ratio0 c.changes m g.m0)
  g.p0 + roundShift a 32

/-- dev of R637: x in microsteps, e in units of 2^-16 count, ENC_SCALE in Q16.16. -/
def axisDeviation (scale x xref e eref : Int) : Int := x - xref - roundShift (scale * (e - eref)) 32

/-- The AXES block of one axis (R652). -/
def axisCounterBytes (c : AxisCounters) : Bytes :=
  le 4 c.moves ++ le 4 c.strokes ++ le 4 c.startsMissed ++ le 4 c.homings ++ le 4 c.homeFailed ++ le 4 c.stalls ++ le 4 c.limitStops ++
    le 4 c.softLimits ++ le 4 c.chatters ++ le 4 c.faults ++ le 4 c.safeStops ++ zeros 4

end Sys2Proof.Machine
end

