-- ==== Sys2Proof/Machine/BenchCalc.lean ====
section
/-! DEFINITION. The Bench's arithmetic: pseudo-channels (R530), urgency (R543), the scheduler's choice (R544), partition
sizes (Table 12-1), look-back records (R574, Table 12-5), captures (Table 12-9). -/

namespace Sys2Proof.Machine

def benchSize : Nat := 0xC00000000
def stackSize : Nat := 0x600000000

/-- The stack of an offset (R529). -/
def stackOf (o : Nat) : Nat := if o < stackSize then 0 else 1

/-- R530: the pseudo-channel, 0 to 63, and the offset within it. -/
def pchOf (o : Nat) : Nat :=
  let s := o % stackSize
  32 * stackOf o + ((s / 256) ^^^ (s / 8192) ^^^ (s / 262144)) % 32

def pchOffset (o : Nat) : Nat := let s := o % stackSize; s / 8192 * 256 + s % 256

/-- The firmware working space (R535). -/
def inFirmware (o : Nat) : Bool :=
  (decide (0x5F8000000 ≤ o) && decide (o < 0x600000000)) || (decide (0xBF8000000 ≤ o) && decide (o < 0xC00000000))

/-- Urgency from an age (R543). -/
def urgencyOf (target age : Nat) : Nat :=
  if target ≤ age then 3 else if 3 * target ≤ 4 * age then 2 else if target ≤ 2 * age then 1 else 0

/-- The request a pseudo-channel takes before another (R544). -/
def issueBefore (urgency : Nat → Nat) (a b : BenchReq) : Bool :=
  let ua := urgency a.port
  let ub := urgency b.port
  decide (ub < ua) || (decide (ua = ub) && (decide (a.entered < b.entered) || (decide (a.entered = b.entered) && decide (a.port < b.port))))

/-- Whether two requests of one port overlap (R545). -/
def reqOverlap (a b : BenchReq) : Bool :=
  decide (a.port = b.port) && decide (a.offset < b.offset + 32 * b.words) && decide (b.offset < a.offset + 32 * a.words)

/-- The requests a pseudo-channel may issue: those allowed by timing, none with an older overlapping one of its port. -/
def issuable (pch : Nat) (allowed : List Nat) (l : List BenchReq) : List BenchReq :=
  l.filter fun r => decide (pchOf r.offset = pch) && allowed.contains r.id && !(l.any fun q => decide (q.id < r.id) && reqOverlap q r)

/-- The first of a list in an order. -/
def minBy {α : Type} (before : α → α → Bool) : List α → Option α
  | [] => none
  | x :: xs => some (xs.foldl (fun b y => if before y b then y else b) x)

def mib : Nat := 1048576

/-- Whole MiB of a byte count (R533). -/
def toMib (bytes : Nat) : Nat := ceilDiv bytes mib

/-- Bytes 0 to 23 of Table 12-9 after the VALID byte. -/
def captureHead (valid : Bool) (e : ErrorCapture) : Bytes :=
  le 1 (if valid then 1 else 0) ++ le 1 (benchErrorCode e.cause) ++ le 1 e.port ++ le 1 (pchOf e.offset) ++ le 8 e.offset ++ le 4 e.stime ++
    le 4 e.row ++ le 1 e.bank ++ le 2 e.column ++ zeros 1

/-- The freeze capture of Table 12-9. -/
def captureBytes : Option FreezeCapture → Bytes
  | none => zeros 64
  | some c => captureHead true c.err ++ le 8 c.err.data1 ++ le 1 c.err.check1 ++ le 1 c.err.syndrome1 ++ zeros 2 ++ le 8 c.err.data2 ++
      le 1 c.err.check2 ++ le 1 c.err.syndrome2 ++ zeros 2 ++ le 4 c.ticketsFailed ++ le 2 c.faultEntry ++ zeros 10

/-- One entry of the transient log (READ_CAPTURE). -/
def transientBytes (e : ErrorCapture) : Bytes := captureHead true e ++ le 1 e.syndrome1 ++ le 1 e.syndrome2 ++ zeros 6

/-- Bytes 8 to 31 of a controller block. -/
def ctlCounterBytes (c : BenchCtl) : Bytes :=
  le 4 c.ce ++ le 4 c.ueTransient ++ le 4 c.wparTransient ++ le 4 c.caparTransient ++ le 4 c.refreshForced ++ le 4 c.srEntries

def ctlBlock (auto : Bool) (c : BenchCtl) : Bytes :=
  le 1 (ctlCode c.state) ++ le 1 (if auto then 1 else 0) ++ leI 2 c.temp ++ le 1 c.maxOwed ++ zeros 3 ++ ctlCounterBytes c

/-- A look-back line header (Table 12-5). -/
def lookbackHead (line : Nat) (pos : Int) (stime field source sflags dropMask satMask strip : Nat) : Bytes :=
  le 4 line ++ leI 8 pos ++ le 4 stime ++ le 1 field ++ le 1 source ++ le 2 sflags ++ le 4 dropMask ++ le 4 satMask ++ le 4 strip

/-- LINE_BYTES of R574. -/
def lookbackStride (cols : Nat) : Nat := ceilDiv (32 + ceilDiv (cols * 18) 32 * 4) 64 * 64

/-- The 64-byte header of a look-back's output (R574). -/
def lookbackFront (first lines firstCol cols field stripLines archiveLines : Nat) : Bytes :=
  le 4 first ++ le 4 lines ++ le 4 firstCol ++ le 4 cols ++ le 1 field ++ zeros 3 ++ le 4 stripLines ++ le 4 archiveLines ++
    le 4 (lookbackStride cols) ++ zeros 32

def lookbackBytes (cols lines : Nat) : Nat := 64 + lines * lookbackStride cols

end Sys2Proof.Machine
end

