-- ==== Sys2Proof/Machine/IngestCalc.lean ====
section
/-! DEFINITION. Ingest's arithmetic: expansion to 18 bits (R260 to R262), packing (R264), the line ring's layout
(R263), the line tag (Table 5-3) and the statistics (R268 to R270). -/

namespace Sys2Proof.Machine

/-- The pixel codes of a payload of `b`-bit pixels; a partial trailing pixel is dropped (R260). Pixel i lies in bits
b·i .. b·i + b - 1 of the payload, first byte lowest (PRESUMED, assumption 13). -/
def unpackPixels (b : Nat) (payload : Bytes) : List Nat := unpackBits b (if b = 0 then 0 else payload.length * 8 / b) (leVal payload)

/-- x = c * 2^(18 - b) (R262). -/
def expandCode (b c : Nat) : Nat := c * 2 ^ (18 - b)

/-- The WIDTH samples written for a line: the received pixels expanded, then FILL (R261, R262). -/
def expandLine (b width fill : Nat) (codes : List Nat) : List Nat :=
  let got := (codes.take width).map (expandCode b)
  got ++ List.replicate (width - got.length) fill

/-- ceil(n · 18 / 512) · 64: the bytes of an area of n packed samples (R263, R367). -/
def areaBytes (n : Nat) : Nat := ceilDiv (n * 18) 512 * 64

/-- The bytes of a packed row of samples, zero-filled to its area (R264). -/
def packRow (samples : List Nat) : Bytes := le (areaBytes samples.length) (packBits 18 samples)

/-- The samples of a packed row. -/
def unpackRow (n : Nat) (row : Bytes) : List Nat := unpackBits 18 n (leVal row)

/-- `set` of R263. -/
def ringSet (l : RingLayout) : Nat := l.fields * (areaBytes l.widthA + areaBytes l.widthB)

/-- sample_off of R263; `slotB` selects slot B of the port. -/
def ringSampleOff (l : RingLayout) (n : Nat) (slotB : Bool) (f : Nat) : Nat :=
  (n % l.depth) * ringSet l + (if slotB then l.fields * areaBytes l.widthA else 0) +
    f * areaBytes (if slotB then l.widthB else l.widthA)

/-- tag_off of R263. -/
def ringTagOff (l : RingLayout) (n : Nat) (slotB : Bool) (f : Nat) : Nat :=
  l.depth * ringSet l + ((n % l.depth) * 8 + (if slotB then 4 else 0) + f) * 32

/-- hist_off of R263. -/
def ringHistOff (l : RingLayout) (k : Nat) (slotB : Bool) (f : Nat) : Nat :=
  l.depth * ringSet l + l.depth * 256 + (k % l.statsDepth) * 33280 + ((if slotB then 4 else 0) + f) * 4160

/-- partition bytes of R263. -/
def ringBytes (l : RingLayout) : Nat := l.depth * ringSet l + l.depth * 256 + l.statsDepth * 33280

/-- The flags a line tag copies from the trigger tag (Table 5-3, bits 3 to 0). -/
def tagFlags (t : TrigTag) : Nat := flagBit t.posq 0 + flagBit t.late 1 + flagBit t.reserve 2 + flagBit t.skipBefore 3

/-- The 24 bytes of a trigger tag (Table 3-2). -/
def trigTagBytes (t : TrigTag) : Bytes :=
  le 4 t.line ++ leI 8 t.tpos ++ le 4 t.stime ++ le 1 t.slot ++ le 1 t.field ++ le 2 (tagFlags t) ++ zeros 4

/-- A line tag (Table 5-3). `received` saturates at 65,535. -/
def lineTagBytes (t : TrigTag) (lstime received cause rfield : Nat) (short long skew gap : Bool) : Bytes :=
  le 4 t.line ++ leI 8 t.tpos ++ le 4 t.stime ++ le 4 lstime ++ le 1 t.slot ++ le 1 t.field ++
  le 2 (tagFlags t + flagBit gap 6 + flagBit short 7 + flagBit long 8 + flagBit skew 9) ++ le 2 (min received 65535) ++
  le 1 cause ++ le 1 rfield ++ zeros 4

/-- Reading a line tag back. -/
def lineTagWebline (b : Bytes) : Nat := u32 b 0
def lineTagStime (b : Bytes) : Nat := u32 b 12
def lineTagFlags (b : Bytes) : Nat := u16 b 22
def lineTagGap (b : Bytes) : Bool := bitOf (u16 b 22) 6
def lineTagReceived (b : Bytes) : Nat := u16 b 24

/-- Signed latency of a line start with respect to a tag's STIME (R243). -/
def latencyTo (start stime : Nat) : Int := sdiff32 start stime

/-- Count a value in a sparse histogram. -/
def histAdd (h : List (Nat × Nat)) (bin : Nat) : List (Nat × Nat) := sset h bin (sget h bin 0 + 1) 0

/-- The counted pixels of a line (R268): the codes with index from STATS_FIRST to the least of STATS_LAST, WIDTH - 1
and RECEIVED - 1. -/
def countedCodes (first last width : Nat) (codes : List Nat) : List Nat :=
  ((codes.take (min width (last + 1))).drop first)

/-- G of R269 over adjacent counted pixels. -/
def gradOf : List Nat → Nat
  | x :: y :: rest => (x - y) + (y - x) + gradOf (y :: rest)
  | _ => 0

/-- Add one line to a strip's statistics (R269). -/
def statsAddLine (b darkLevel : Nat) (codes : List Nat) (short long skew : Bool) (s : StripStats) : StripStats :=
  let xs := codes.map (expandCode b)
  { s with
    lines := s.lines + 1
    count := s.count + xs.length
    hist := xs.foldl (fun h x => histAdd h (x / 256)) s.hist
    sum := s.sum + xs.sum
    min := xs.foldl min s.min
    max := xs.foldl max s.max
    sat := s.sat + (codes.filter fun c => decide (c = 2 ^ b - 1)).length
    dark := s.dark + (xs.filter fun x => decide (x ≤ darkLevel)).length
    grad := s.grad + gradOf xs
    short := s.short + (if short then 1 else 0)
    long := s.long + (if long then 1 else 0)
    skew := s.skew + (if skew then 1 else 0) }

/-- MEAN of Table 5-5, also the pass mean of R303: floor((SUM·64 + floor(N/2)) / N). -/
def meanQ6 (sum n : Nat) : Nat := if n = 0 then 0 else (sum * 64 + n / 2) / n

/-- FOCUS of Table 5-5. -/
def focusOf (grad sum : Nat) : Nat := if sum = 0 then 0 else min 0xFFFFFFFF (2 ^ 20 * grad / sum)

/-- The histogram block of Table 5-6, SEAL included. -/
def histBlock (slot shift : Nat) (s : StripStats) : Bytes :=
  le 4 s.strip ++ le 1 slot ++ le 1 s.field ++ le 2 s.lines ++ le 2 s.gaps ++ zeros 2 ++ le 4 s.count ++ le 8 s.sum ++
  le 4 (meanQ6 s.sum s.count) ++ le 4 s.min ++ le 4 s.max ++ le 4 s.sat ++ le 4 s.dark ++ le 4 (focusOf s.grad s.sum) ++
  le 4 (s.strip * 2 ^ shift) ++ le 2 s.short ++ le 2 s.long ++ le 2 s.skew ++ zeros 2 ++ le 4 s.strip ++
  ((sexpand s.hist (fun _ => 0) 0 1024).flatMap (le 4))

/-- The counter block of Table 5-7. -/
def ingestCounterBytes (c : IngestCounters) : Bytes :=
  ([c.linesWritten, c.gapBuffer, c.gapDeadline, c.gapIncomplete, c.gapMissing, c.gapNoLink, c.gapSkipped, c.gapStopped,
    c.gapRelaid, c.untriggered, c.short, c.long, c.fieldSkew, c.tagOverflow].flatMap (le 4)) ++ zeros 8

/-- Count one gap by cause (Table 5-7). -/
def countGap (cause : GapCause) (c : IngestCounters) : IngestCounters :=
  match cause with
  | .buffer => { c with gapBuffer := wrap32 (c.gapBuffer + 1) }
  | .deadline => { c with gapDeadline := wrap32 (c.gapDeadline + 1) }
  | .incomplete => { c with gapIncomplete := wrap32 (c.gapIncomplete + 1) }
  | .missing => { c with gapMissing := wrap32 (c.gapMissing + 1) }
  | .noLink => { c with gapNoLink := wrap32 (c.gapNoLink + 1) }
  | .skipped => { c with gapSkipped := wrap32 (c.gapSkipped + 1) }
  | .stopped => { c with gapStopped := wrap32 (c.gapStopped + 1) }
  | .relaid => { c with gapRelaid := wrap32 (c.gapRelaid + 1) }

end Sys2Proof.Machine
end

