-- ==== Sys2Proof/Machine/PlaneCalc.lean ====
section
/-! DEFINITION. The Plane's correction arithmetic (R285 to R291), drift tracking (R297) and the Jig's calibrations
(R303, R308 to R318, R321, R323 to R325, R340 to R343). -/

namespace Sys2Proof.Machine

/-- The default of LIN knot i (Table 6-1). -/
def linDefault (i : Nat) : Nat := 1024 * i

/-- One 20-bit gain stage of R285: the clamped product and whether the clamp was chosen. -/
def gainStage (v gain round shift : Nat) : Nat × Bool :=
  let r := (v * gain + round) / 2 ^ shift
  (min 0xFFFFF r, decide (0xFFFFF < r))

/-- Linearisation of a 20-bit value (R285); the difference is signed. -/
def linearise (lin : Nat → Nat) (z : Nat) : Int :=
  let i := z / 1024
  let t := z % 1024
  (lin i : Int) + (((lin (i + 1) : Int) - lin i) * t + 0x200) >>> 10

/-- The corrected sample of R285 and its sat. -/
def correctPixel (dark gain shim gg : Nat) (lin : Option (Nat → Nat)) (x : Nat) : Nat × Bool :=
  let y := x - dark
  let z1 := gainStage y gain 0x2000 14
  let z2 := gainStage z1.1 shim 0x2000 14
  let z3 := gainStage z2.1 gg 0x800 12
  let z4 : Int := match lin with
    | some l => linearise l z3.1
    | none => z3.1
  (min 0x3FFFF z4.toNat, z1.2 || z2.2 || z3.2 || decide ((0x3FFFF : Int) < z4))

/-- LIN[i] of a table set. -/
def linAt (s : TableSet) (i : Nat) : Nat := sget s.lin i (linDefault i)

/-- Correct every received pixel of a line under R285; padding passes with no sat (R286). -/
def correctLine (s : TableSet) (c : PlaneCfg) (f : Nat) (shimOf : Nat → Nat) (received : Nat) (xs : List Nat) : List (Nat × Bool) :=
  let n := xs.length
  let dark := sexpand (vget s.dark f) (fun _ => 0) 0 n
  let gain := sexpand (vget s.gain f) (fun _ => 16384) 0 n
  let lin := if c.linearise then some (linAt s) else none
  (((xs.zip dark).zip gain).zipIdx).map fun e =>
    let u := e.2
    if received ≤ u then (e.1.1.1, false) else correctPixel e.1.1.2 e.1.2 (shimOf u) (vget s.gg f) lin e.1.1.1

/-- The nearest good pixel of R289 below u, within 33 pixels. -/
def goodBelow (defect : List Nat) (u : Nat) : Nat → Option Nat
  | 0 => none
  | k + 1 =>
    match goodBelow defect u k with
    | some v => some v
    | none => if k + 1 ≤ u ∧ ¬ (u - (k + 1)) ∈ defect then some (u - (k + 1)) else none

/-- The nearest good pixel of R289 above u and below `limit`, within 33 pixels. -/
def goodAbove (defect : List Nat) (limit u : Nat) : Nat → Option Nat
  | 0 => none
  | k + 1 =>
    match goodAbove defect limit u k with
    | some v => some v
    | none => if u + (k + 1) < limit ∧ ¬ (u + (k + 1)) ∈ defect then some (u + (k + 1)) else none

/-- The replacement of one defect pixel (R289); `limit` is RECEIVED capped at WIDTH. -/
def replacePixel (defect : List Nat) (limit fill : Nat) (out : List (Nat × Bool)) (u : Nat) : Nat :=
  let val (i : Nat) : Nat := (out.getD i (0, false)).1
  match goodBelow defect u 33, goodAbove defect limit u 33 with
  | some l, some r => (val l + val r + 1) / 2
  | some l, none => val l
  | none, some r => val r
  | none, none => fill

/-- What the Plane makes of one line of samples. -/
structure PlaneOut where
  samples : List Nat := []
  satSamples : Nat := 0
  replaced : Nat := 0
  deriving DecidableEq, Repr, Inhabited

/-- A whole line through R285, then R289 to R291; SAT counts neither padding nor replaced pixels (R287). -/
def planeLine (s : TableSet) (c : PlaneCfg) (f : Nat) (shimOf : Nat → Nat) (received : Nat) (xs : List Nat) : PlaneOut :=
  if !c.correct then { samples := xs }
  else
    let limit := min received xs.length
    let out := correctLine s c f shimOf limit xs
    let bad := if c.defectReplace then s.defect.filter (· < limit) else []
    let fin := out.zipIdx.map fun e => if e.2 ∈ bad then (replacePixel s.defect limit c.fill out e.2, false) else e.1
    { samples := fin.map Prod.fst, satSamples := (fin.filter Prod.snd).length, replaced := bad.length }

/-- R293. -/
def shimMin : Nat := 16057
def shimMax : Nat := 16711
def shimOk (v : Nat) : Bool := inRange shimMin shimMax v

/-- The step shared by R297 and R361: the new shim and whether the limit changed it; none when there is no update. -/
def shimStep (num den : Int) (shim step : Nat) : Nat × Bool :=
  let d := Int.fdiv (2 * num + den) (2 * den)
  let d := clampInt (-(step : Int)) step d
  let raw := (shim : Int) + d
  let new := clampInt shimMin shimMax raw
  (new.toNat, decide (new ≠ raw))

/-- R297: the new shim of a zone from its output M, its reference and the shim in force. -/
def driftStep (m ref shim step : Nat) : Option (Nat × Bool) :=
  if m = 0 ∨ ref = 0 then none else some (shimStep (((ref : Int) - m) * shim) m shim step)

/-- The first index of a list that breaks the DEFECT rules: not strictly ascending, above 32,767, or the 33rd entry of a
run of consecutive indices (R284, LOAD_TABLE). `run` counts the entries of the run so far. -/
def defectBadAt : List Nat → Option Nat → Nat → Nat → Option Nat
  | [], _, _, _ => none
  | v :: rest, prev, run, i =>
    let asc := match prev with | none => true | some p => decide (p < v)
    let run' := match prev with | some p => if v = p + 1 then run + 1 else 1 | none => 1
    if !asc || decide (32767 < v) || decide (32 < run') then some i else defectBadAt rest (some v) run' (i + 1)

/-- The first offending entry of a LOAD_TABLE source. -/
def tableBadEntry (kind : Nat) (vals : List Nat) : Option Nat :=
  match kind with
  | 3 => (vals.zipIdx.find? fun e => decide (1048576 < e.1)).map Prod.snd
  | 4 => defectBadAt vals none 0 0
  | _ => none

/-- Apply one write to a bank. -/
def tableApply (w : TableWrite) (s : TableSet) : TableSet :=
  match w.kind with
  | 0 => { s with dark := vmod s.dark w.field fun l => soverlay l (fun _ => 0) w.first w.vals }
  | 1 => { s with gain := vmod s.gain w.field fun l => soverlay l (fun _ => 16384) w.first w.vals }
  | 2 => { s with gg := (w.vals.zipIdx).foldl (fun g e => vset g e.2 e.1) s.gg }
  | 3 => { s with lin := soverlay s.lin linDefault 0 w.vals }
  | _ => { s with defect := w.vals }

/-- The entries READ_TABLE writes. -/
def tableRead (s : TableSet) (kind field first count : Nat) : List Nat :=
  match kind with
  | 0 => sexpand (vget s.dark field) (fun _ => 0) first count
  | 1 => sexpand (vget s.gain field) (fun _ => 16384) first count
  | 2 => s.gg.toList
  | 3 => sexpand s.lin linDefault 0 1025
  | _ => s.defect

/-- A field mask's fields in ascending order. -/
def maskFields (mask : Nat) : List Nat := (List.range 4).filter fun f => bitOf mask f

/-- Reasons of JIG_RESULT's candidates. -/
def candHot : Nat := 1
def candDark : Nat := 2
def candRange : Nat := 4
def candDisagree : Nat := 8

/-- One pixel of one field under test: its index, whether it is excluded, whether it agrees, and its candidate reason. -/
structure JigPixel where
  u : Nat := 0
  excluded : Bool := false
  agree : Bool := false
  reason : Nat := 0
  value : Nat := 0
  deriving DecidableEq, Repr, Inhabited

/-- JIG_DARK for one pixel (R308 to R310). -/
def jigDarkPixel (p : JigPar) (defect : List Nat) (u sumA nA sumB nB : Nat) : JigPixel :=
  let mean (s n : Nat) : Nat := if n = 0 then 0 else (s + n / 2) / n
  let dA := mean sumA nA
  let dB := mean sumB nB
  let hot := decide (p.darkMax < dA) || decide (p.darkMax < dB)
  let inList := decide (u ∈ defect)
  let excluded := hot || inList
  let agree := !excluded && decide (absNat ((dA : Int) - dB) ≤ p.darkTol)
  { u, excluded, agree, value := min dA 65535,
    reason := if hot then candHot else if !excluded && !agree then candDark else 0 }

/-- The gain of a pass (R313); `y` is the pass mean in Q18.6. -/
def jigGain (target y : Nat) : Nat := if y = 0 then 0 else (target * 2 ^ 20 + y / 2) / y

/-- JIG_FLAT for one pixel (R313, R314). -/
def jigFlatPixel (p : JigPar) (defect : List Nat) (target u yA yB : Nat) : JigPixel :=
  let gA := jigGain target yA
  let gB := jigGain target yB
  let out (y g : Nat) : Bool := decide (y = 0) || decide (65535 < g) || decide (g < p.gainMin) || decide (p.gainMax < g)
  let range := out yA gA || out yB gB
  let inList := decide (u ∈ defect)
  let excluded := range || inList
  let agree := !excluded && decide (absNat ((gA : Int) - gB) * 1000000 ≤ p.tolPpm * gB)
  { u, excluded, agree, value := if range then 16384 else gA,
    reason := if range then candRange else if !excluded && !agree then candDisagree else 0 }

/-- CHECKED and AGREE of R315. -/
def jigChecked (px : List JigPixel) : Nat := (px.filter fun q => !q.excluded).length
def jigAgree (px : List JigPixel) : Nat := (px.filter fun q => q.agree).length
def jigFieldPass (fractionPpm : Nat) (px : List JigPixel) : Bool :=
  decide (0 < jigChecked px) && decide (fractionPpm * jigChecked px ≤ jigAgree px * 1000000)

/-- The integer nearest to sqrt(num / den) · mul / div, for R317's figures; 0 for an empty sum. -/
def nearestRoot (num den mul div : Nat) : Nat :=
  if den = 0 ∨ div = 0 then 0
  else
    -- r is nearest when (2r - 1)² · den · div² ≤ 4 · num · mul² < (2r + 1)² · den · div²
    let q := 4 * num * mul * mul / (den * div * div)
    (isqrt q + 1) / 2

/-- RMS_PPM and PEAK_PPM of a field (R317) from ȳB, the gains and the target, over pixels neither excluded nor disagreeing. -/
def jigQuality (target : Nat) (px : List (JigPixel × Nat)) : Nat × Nat :=
  let es := (px.filter fun e => e.1.agree).map fun e => (((e.2 * e.1.value + 0x2000) / 2 ^ 14 : Nat) : Int) - 64 * target
  let sq := (es.map fun e => e.natAbs * e.natAbs).sum
  let peak := es.foldl (fun m e => max m e.natAbs) 0
  (nearestRoot sq es.length 1000000 (64 * target),
   if target = 0 then 0 else (roundDiv ((peak * 1000000 : Nat) : Int) (64 * target)).toNat)

/-- The union of two ascending lists without repeats (R321). -/
def mergeAsc (a b : List Nat) : List Nat := (a ++ b).foldl (fun acc x => if x ∈ acc then acc else insertBy (fun m n => decide (m < n)) x acc) []

/-- The new DEFECT list of R321. -/
def jigDefect (mode : Nat) (shadow cands : List Nat) : List Nat :=
  match mode with
  | 0 => shadow
  | 1 => mergeAsc shadow cands
  | _ => mergeAsc [] cands

/-- A DEFECT list that R321 and R284 allow. -/
def jigDefectOk (l : List Nat) : Bool := decide (l.length ≤ 1024) && (defectBadAt l none 0 0).isNone

/-- Crossings of EDGE_LEVEL in a mean line, in 1/256 pixel, interpolated linearly between bracketing pixels (R323).
`level` and the line are in the same scale; pixel i has its centre at i. -/
def crossings (level : Nat) : List Nat → Nat → List Nat
  | a :: b :: rest, i =>
    let here :=
      if decide (a < level) == decide (b < level) then []
      else [i * 256 + (roundDiv ((((level : Int) - a).natAbs * 256 : Nat) : Int) ((b : Int) - a).natAbs).toNat]
    here ++ crossings level (b :: rest) (i + 1)
  | _, _ => []

/-- The knot places of R340 among `n` crossings. -/
def knotPlaces (n : Nat) : List Nat :=
  let k := min 64 (n / 4)
  (List.range k).map fun m => if k ≤ 1 then 0 else (2 * m * (n - 1) + (k - 1)) / (2 * (k - 1))

/-- The position in um of crossing j, doubled: 2·FIRST_STRIPE + j·STRIPE_PITCH (R323). -/
def crossingPos2 (p : JigPar) (j : Nat) : Int := 2 * p.firstStripe + j * p.stripePitch

/-- The map fitted from a pass's crossings (R340, R341). -/
def fitMap (p : JigPar) (cs : List Nat) : List Knot :=
  let places := knotPlaces cs.length
  let kx (m : Nat) : Int := roundShift (crossingPos2 p (places.getD m 0)) 1
  let kp (m : Nat) : Int := ((cs.getD (places.getD m 0) 0 * 4096 : Nat) : Int)
  let last := places.length - 1
  (List.range places.length).map fun m =>
    let a := if m = 0 then m else m - 1
    let b := if m = last then m else m + 1
    let dx := kx b - kx a
    { x := kx m, p := kp m, d := if dx ≤ 0 then 0 else roundDiv (16 * (kp b - kp a)) dx.toNat }

/-- The knot disagreement of R342 within the tolerance. -/
def knotAgrees (tol : Nat) (a b : Knot) : Bool :=
  decide (a.d ≠ 0) && decide ((a.p - b.p).natAbs * 16000 ≤ tol * a.d.natAbs)

end Sys2Proof.Machine
end

