-- ==== Sys2Proof/Machine/State.lean ====
section
/-! DEFINITION. The state of the device, the reasons a step may stop, and the state right after power-on reset. -/

namespace Sys2Proof.Machine

/-- Faults of the model. There is none: whatever the device meets, the manual says what it does next. -/
inductive Fault where
  deriving DecidableEq, Repr

/-- Refusals of the model. -/
inductive Refusal where
  /-- A command that has no meaning yet; safe. Raised by Dispatch.exec only. -/
  | notModelled (mnemonic : String)
  deriving DecidableEq, Repr

/-- A run-time claim (R20, R109): resource kind and index, and the command that holds it. -/
structure RtClaim where
  kind : Nat := 0
  index : Nat := 0
  opcode : Nat := 0
  unit : Nat := 0
  deriving DecidableEq, Repr, Inhabited

structure State where
  /-- Time of the latest command, in ns. -/
  now : Nat
  /-- Free values used so far: the model's own field (Config.freeValue). -/
  free : Nat
  staged : Cfg
  running : Cfg
  /-- The configuration before the last completed glue-up, for web lines before its effective strip. -/
  prev : Option (Nat × Cfg)
  glue : Option Glue
  stageGen : Nat
  dryfit : Option DryfitRec
  dryfitRun : Option DryfitRun
  glueCount : Nat
  ledger : Ledger
  cmds : List CmdRec
  claims : List RtClaim
  /-- Spans of web lines triggered since reset, newest first (R166). -/
  spans : List (Nat × Nat)
  /-- The strip at which a source limited to once per strip was last raised. -/
  evOnce : List (Nat × Nat)
  gauge : Gauge
  links : Links
  ingest : Ingest
  plane : PlaneUnit
  dovetail : Dovetail
  marq : Marquetry
  scribe : Scribe
  prof : Profiles
  views : Vector ViewStream 8
  comp : Compress
  bench : Bench
  host : HostIf
  dma : Dma
  axes : Axes
  time : TimeUnit
  ring : RingUnit
  pair : PairUnit
  faults : Faults
  hf : Holdfast
  boot : Boot
  pace : Pace
  sense : Sense
  cages : Vector Cage 5
  /-- Host writes and replies of items that ended while the fabric did not run, in order (R724). -/
  heldOut : List Emit
  /-- What the device put out during the latest command: the model's own field. -/
  emit : List Emit
  /-- Commands waiting, first in, first out: the model's own field. -/
  pending : List Instr
  deriving DecidableEq, Repr

/-- The state right after power-on reset (R752, R759, Tables 13-4 to 13-19). -/
def State.reset : State where
  now := 0
  free := 0
  staged := {}
  running := {}
  prev := none
  glue := none
  stageGen := 0
  dryfit := none
  dryfitRun := none
  glueCount := 0
  ledger := {}
  cmds := []
  claims := []
  spans := []
  evOnce := []
  gauge := {}
  links := {}
  ingest := {}
  plane := {}
  dovetail := {}
  marq := {}
  scribe := {}
  prof := {}
  views := .replicate 8 {}
  comp := {}
  bench := {}
  host := {}
  dma := {}
  axes := {}
  time := {}
  ring := {}
  pair := {}
  faults := {}
  hf := {}
  boot := {}
  pace := {}
  sense := {}
  cages := .replicate 5 {}
  heldOut := []
  emit := []
  pending := []

end Sys2Proof.Machine
end

