-- ==== Sys2Proof/Machine/Ops.lean ====
section
/-! DEFINITION. The operations that every command shares: time, Bench memory, events, the ticket ledger, the fault log,
configurations by web line, and replies ("Yilgen command packets, dry-fit and glue-up", "Faults, the ticket ledger and the
Holdfast", "PCI Express host interface and DMA"). -/

namespace Sys2Proof.Machine

/-! ### Bench memory -/

/-- Whether a list of cells rises strictly. -/
def cellsRise : List Host.Cell → Bool
  | a :: b :: rest => decide (a.1 < b.1) && cellsRise (b :: rest)
  | _ => true

/-- The canonical form of Bench memory: strictly rising offsets inside the Bench, no byte equal to 0. -/
def Memory.wf (m : List Host.Cell) : Bool := cellsRise m && m.all fun c => decide (c.1 < benchSize) && decide (c.2 ≠ 0)

/-- `n` bytes from an offset; a byte nothing has written reads 0 (DESIGN CHOICE, assumption 4). -/
def memRead (m : List Host.Cell) (off n : Nat) : Bytes := sexpand m (fun _ => 0) off n

/-- Bytes written at an offset; what would fall beyond the Bench is dropped. -/
def memWrite (m : List Host.Cell) (off : Nat) (data : Bytes) : List Host.Cell :=
  soverlay m (fun _ => 0) off (data.take (benchSize - off))

def applyWrites (m : List Host.Cell) (ws : List (Nat × Bytes)) : List Host.Cell := ws.foldl (fun m w => memWrite m w.1 w.2) m

/-- Memory without the bytes of some ranges. -/
def emptyRanges (m : List Host.Cell) (rs : List (Nat × Nat)) : List Host.Cell :=
  rs.foldl (fun m r => m.filter fun c => !(decide (r.1 ≤ c.1) && decide (c.1 < r.1 + r.2))) m

/-- Memory as the command that runs has left it so far. -/
def memNow (b : Bench) : List Host.Cell := applyWrites (emptyRanges b.mem b.emptied) b.writes

def benchRead (s : State) (off n : Nat) : Bytes := memRead (memNow s.bench) off n

/-- A partition's contents are discarded and it is laid out anew, empty (R25, R567). Its bytes then read as bytes that nothing has
written. -/
def benchEmpty (off n : Nat) (s : State) : State :=
  { s with bench := { s.bench with
    emptied := s.bench.emptied ++ [(off, n)]
    writes := s.bench.writes.filter fun w => !(decide (off ≤ w.1) && decide (w.1 < off + n)) } }

def benchWrite (off : Nat) (data : Bytes) (s : State) : State :=
  { s with bench := { s.bench with writes := s.bench.writes ++ [(off, data)] } }

/-! ### Time -/

/-- The increment of the clock per timing-island cycle: ADDEND, or while a slew runs ADDEND changed by the slew's rate
(R655, R664). -/
def slewAddend (c : Clock) : Nat :=
  if c.slew = 0 then c.addend
  else (Int.fdiv (2 * c.addend * (1000000 + (if c.slew < 0 then -1 else 1) * (c.slewPpm : Int)) + 1000000) 2000000).toNat

/-- The clock read as one number in units of 2^-32 ns. -/
def clockUnits (c : Clock) : Int := ((c.seconds * 1000000000 + c.ns : Nat) : Int) * 2 ^ 32 + c.frac

/-- The clock set from one number in units of 2^-32 ns, SECONDS modulo 2^48 (R654, R655). -/
def setClock (c : Clock) (u : Int) : Clock :=
  let v := u.toNat
  let ns := v / 2 ^ 32
  { c with seconds := (ns / 1000000000) % 2 ^ 48, ns := ns % 1000000000, frac := v % 2 ^ 32 }

/-- `n` timing-island cycles pass (R655, R664). -/
def runClock (n : Nat) (c : Clock) : Clock :=
  let d : Int := (slewAddend c : Int) - c.addend
  if c.slew = 0 ∨ d = 0 then setClock c (clockUnits c + n * c.addend)
  else
    let left := ceilDiv c.slew.natAbs d.natAbs
    if n < left then { setClock c (clockUnits c + n * slewAddend c) with slew := c.slew - n * d }
    else { setClock c (clockUnits c + n * c.addend + c.slew) with slew := 0 }

/-- Time passes up to the command's time; outputs of the command before are cleared. A time behind the latest is taken as the
latest. -/
def tick (t : Nat) (s : State) : State :=
  let n := max s.now t
  { s with
    now := n
    time := { s.time with clock := runClock (n / 2 - s.now / 2) s.time.clock }
    emit := []
    bench := { s.bench with writes := [], emptied := [] } }

/-- What a command that began in `s` leaves: its Bench writes take effect on the memory of `s`, and the time and the queue of waiting
commands are those of `s`. -/
def commit (s r : State) : State :=
  { r with
    now := s.now
    pending := s.pending
    bench := { r.bench with mem := memNow { r.bench with mem := s.bench.mem }, writes := [], emptied := [] } }

/-- One command at time `t`: its effect between the passing of time and the commit. -/
def runAt (t : Nat) (s : State) (effect : State → State) : Host.Outcome State Fault Refusal :=
  .next (commit (tick t s) (effect (tick t s)))

/-- The short time of R660. -/
def shortTime (s : State) : Nat := (s.time.clock.seconds * 1000000000 + s.time.clock.ns) % 2 ^ 32

/-- The short time at a time of the timing island at or after the present one, at the clock's present rate. -/
def shortTimeAt (s : State) (t : Nat) : Nat :=
  let c := runClock (t / 2 - s.now / 2) s.time.clock
  (c.seconds * 1000000000 + c.ns) % 2 ^ 32

/-- A free value: what the manual leaves open. -/
def freshValue (s : State) : Nat × State := (Config.freeValue s.free, { s with free := s.free + 1 })

/-- `n` free bytes. -/
def freshBytes (n : Nat) (s : State) : Bytes × State :=
  ((List.range n).map fun i => BitVec.ofNat 8 (Config.freeValue (s.free + i)), { s with free := s.free + n })

def out (e : Emit) (s : State) : State := { s with emit := s.emit ++ [e] }

/-! ### Events (R590 to R594, R726) -/

def currentStrip (s : State) : Nat := s.gauge.lastStrip

def setBit (v n : Nat) (b : Bool) : Nat := if bitOf v n = b then v else if b then v + 2 ^ n else v - 2 ^ n

def vectorOf (e : EventBlock) (src : Nat) : Nat := sget e.vectors src (src / 16)

def msixEntry (p : Pcie) (v : Nat) : MsixEntry := sget p.table v {}

/-- Send a vector's MSI-X message, or keep it back while a mask holds it (R594). With MSI-X off no message is sent. -/
def sendMsix (v : Nat) (s : State) : State :=
  let p := s.host.pcie
  if !p.msixEnable then s
  else if p.funcMask || (msixEntry p v).masked then
    { s with host := { s.host with pcie := { p with heldMsgs := setBit p.heldMsgs v true } } }
  else out (.msix v) s

/-- A vector with something to say sends its message when armed, and disarms (R592). -/
def signalVector (v : Nat) (s : State) : State :=
  if bitOf s.host.evt.armed v then
    sendMsix v { s with host := { s.host with evt := { s.host.evt with armed := setBit s.host.evt.armed v false } } }
  else s

/-- Event record of Table 13-8. -/
def eventRecord (src eflags : Nat) (a0 a1 : Int) (stime : Nat) : Bytes :=
  le 2 src ++ le 1 eflags ++ le 1 0 ++ leI 4 a0 ++ leI 4 a1 ++ le 4 stime

/-- Write one event record, or count it lost when the ring is full (R590, R591). -/
def writeEvent (src : Nat) (a0 a1 : Int) (stime : Nat) (s : State) : State :=
  let e := s.host.evt
  if e.size = 0 then s
  else if (e.prod + e.size - e.cons % e.size) % e.size = e.size - 1 then
    { s with host := { s.host with evt := { e with overflow := true, lost := wrap32 (e.lost + 1), lostBefore := true } } }
  else
    let rec_ := eventRecord src (flagBit e.phase 0 + flagBit e.lostBefore 1) a0 a1 stime
    let next := (e.prod + 1) % e.size
    out (.hostWrite (e.base + 16 * e.prod) rec_ false)
      { s with host := { s.host with evt := { e with prod := next, lostBefore := false, phase := if next = 0 then !e.phase else e.phase } } }

/-- A source reaches the event block (R590 to R592). -/
def deliverEvent (src : Nat) (a0 a1 : Int) (stime : Nat) (s : State) : State :=
  let e := s.host.evt
  let s := { s with host := { s.host with evt := { e with pending := setBit e.pending src true } } }
  if bitOf e.mask src then s else signalVector (vectorOf e src) (writeEvent src a0 a1 stime s)

/-- A source raised while the fabric does not run is latched in the Holdfast (R131, R726). -/
def latchEvent (src : Nat) (a0 a1 : Int) (s : State) : State :=
  if bitOf s.hf.latched src && (s.hf.latchedEvents.any fun e => decide (e.1 = src)) then s
  else { s with hf := { s.hf with
    latched := setBit s.hf.latched src true
    latchedEvents := s.hf.latchedEvents ++ [(src, toUnsigned 32 a0, toUnsigned 32 a1, shortTime s)] } }

def raise (src : Nat) (a0 a1 : Int) (s : State) : State :=
  if s.hf.fabric = .running then deliverEvent src a0 a1 (shortTime s) s else latchEvent src a0 a1 s

/-- A source raised at most once per strip (Tables 3-9, 17-11 and the others). -/
def raiseOnce (src : Nat) (a0 a1 : Int) (s : State) : State :=
  if sget s.evOnce src 0 = currentStrip s + 1 then s
  else raise src a0 a1 { s with evOnce := sset s.evOnce src (currentStrip s + 1) 0 }

/-! ### The pair -/

/-- The module is the passive one of a pair, or has been chosen passive and is being aligned (Table 16-6, R709). -/
def isPassive (s : State) : Bool :=
  decide (s.pair.role = .passive) || decide (s.pair.role = .passiveResync) || (decide (s.pair.role = .pairing) && decide (s.pair.chosen = some false))

/-- The module is the active one of a pair, or has been chosen active and aligns its partner. -/
def isActive (s : State) : Bool := decide (s.pair.role = .active) || (decide (s.pair.role = .pairing) && decide (s.pair.chosen = some true))

/-- A journal entry goes to the partner (R704). -/
def journal (e : JournalEntry) (s : State) : State :=
  out (.journal e) { s with pair := { s.pair with journalEntries := wrap32 (s.pair.journalEntries + 1) } }

/-! ### The ticket ledger (R39 to R44, R722, R723) -/

def ledgerSlots : Nat := 262144

def insertNat (x : Nat) (l : List Nat) : List Nat := insertBy (fun a b => decide (a < b)) x l

/-- The lowest number from `k` on that a rising list does not hold. -/
def lowestSlot : Nat → List Nat → Nat
  | k, [] => k
  | k, x :: xs => if k < x then k else lowestSlot (x + 1) xs

def ticketSlot (w : Nat) : Nat := w % 2 ^ 18
def ticketGen (w : Nat) : Nat := w / 2 ^ 18 % 2 ^ 14

/-- The ticket is ISSUED: its slot is, in its generation. -/
def ticketLive (l : Ledger) (w : Nat) : Bool :=
  decide (w < 2 ^ 32) && l.issued.contains (ticketSlot w) && decide (sget l.gens (ticketSlot w) 0 = ticketGen w)

/-- An item takes the lowest FREE slot (DEDUCED, assumption 14); none when no slot is free (R43, R44). -/
def issueTicket (s : State) : Option (Nat × State) :=
  let l := s.ledger
  let slot := lowestSlot 0 (mergeAsc l.issued l.ended)
  if ledgerSlots ≤ slot then none
  else
    let issued := insertNat slot l.issued
    let filled := decide (issued.length = ledgerSlots) && !l.full
    let s' := { s with ledger := { l with
      issued := issued
      issuedCount := l.issuedCount + 1
      highWater := max l.highWater issued.length
      full := l.full || filled
      fullEpisodes := l.fullEpisodes + (if filled then 1 else 0) } }
    some (slot + 2 ^ 18 * sget l.gens slot 0, if filled then raiseOnce 0x001 issued.length 0 s' else s')

/-- The deciding event of a ticket: code 0 is COMPLETE, 1 to 15 a cause of Table 17-3, 0x8000 and above a command's status.
A ticket that is not ISSUED is left alone (R40). -/
def decideTicket (w code : Nat) (s : State) : State :=
  let l := s.ledger
  if !ticketLive l w then s
  else
    let issued := l.issued.erase (ticketSlot w)
    let eased := l.full && decide (issued.length * 10 < 9 * ledgerSlots)
    let s' := { s with ledger := { l with
      issued := issued
      ended := insertNat (ticketSlot w) l.ended
      complete := l.complete + (if code = 0 then 1 else 0)
      failed := l.failed + (if code = 0 then 0 else 1)
      failedCommands := l.failedCommands + (if 0x8000 ≤ code then 1 else 0)
      failedBy := if 0 < code ∧ code < 16 then sset l.failedBy code (sget l.failedBy code 0 + 1) 0 else l.failedBy
      full := l.full && !eased } }
    if eased then raise 0x002 issued.length 0 s' else s'

/-- The outcome has been reported: the slot is FREE in its next generation (R43). -/
def reportTicket (w : Nat) (s : State) : State :=
  let l := s.ledger
  let slot := ticketSlot w
  if decide (w < 2 ^ 32) && l.ended.contains slot && decide (sget l.gens slot 0 = ticketGen w) then
    { s with ledger := { l with ended := l.ended.erase slot, gens := sset l.gens slot ((ticketGen w + 1) % 2 ^ 14) 0 } }
  else s

/-- A ticket ends and is reported at once. -/
def endTicket (w code : Nat) (s : State) : State := reportTicket w (decideTicket w code s)

def endTickets (ws : List Nat) (code : Nat) (s : State) : State := ws.foldl (fun s w => endTicket w code s) s

/-- An occasion of Table 1-9 (R812). -/
def countNoTicket (s : State) : State := { s with ledger := { s.ledger with noTicket := s.ledger.noTicket + 1 } }

/-! ### The fault log and fences (R718 to R721, R732) -/

/-- Classes copied to the boot flash: FREEZE, WEDGE, POWER, THERMAL, SECURITY and BOOT (R732). -/
def persistentClass (cls : Nat) : Bool := inRange 3 8 cls

def takeLast {α : Type} (n : Nat) (l : List α) : List α := l.drop (l.length - n)

/-- Write one fault log entry (Table 17-7) and raise EV 0x008; the entry's number and the state. -/
def logFault (e : FaultEntry) (s : State) : Nat × State :=
  let n := s.faults.nextEntry
  let entry := { e with
    num := n
    persistent := persistentClass e.cls
    stime := shortTime s
    seconds := s.time.clock.seconds
    ns := s.time.clock.ns
    strip := currentStrip s }
  let f := { s.faults with
    log := takeLast 256 (s.faults.log ++ [entry])
    flash := if persistentClass e.cls then takeLast 64 (s.faults.flash ++ [entry]) else s.faults.flash
    nextEntry := if n = 65535 then 1 else n + 1 }
  (n, raise 0x008 n e.cls { s with faults := f, hf := { s.hf with alert := true } })

/-- TICKETS_FAILED of an entry becomes known. -/
def setTicketsFailed (num count : Nat) (s : State) : State :=
  let upd (l : List FaultEntry) := l.map fun e => if e.num = num then { e with tickets := count } else e
  { s with faults := { s.faults with log := upd s.faults.log, flash := upd s.faults.flash } }

def fenceOf (s : State) (unit index : Nat) : Option Fence := s.faults.fences.find? fun f => decide (f.unit = unit) && decide (f.index = index)

def isFenced (s : State) (unit index : Nat) : Bool := (fenceOf s unit index).isSome

/-- Fence a unit: one LASTING entry, and EV 0x003 (R720). -/
def fenceUnit (e : FaultEntry) (s : State) : Nat × State :=
  let r := logFault { e with cls := 2 } s
  let f := r.2.faults
  let s' := { r.2 with faults := { f with
    fences := f.fences ++ [⟨e.unit, e.index, r.1⟩]
    cnt := { f.cnt with fences := f.cnt.fences + 1 } } }
  (r.1, raise 0x003 r.1 (e.unit * 65536 + e.index) s')

def clearFence (unit index : Nat) (s : State) : State :=
  { s with faults := { s.faults with fences := s.faults.fences.filter fun f => !(decide (f.unit = unit) && decide (f.index = index)) } }

/-- Count a transient fault at a retry point, given by its place in the FAULTS block (Table 17-13), and raise EV 0x004. -/
def countTransient (point : Nat) (s : State) : State :=
  let c := s.faults.cnt
  let c' := match point with
    | 0 => { c with cmdSlot := c.cmdSlot + 1 }
    | 1 => { c with hostBulk := c.hostBulk + 1 }
    | 2 => { c with command := c.command + 1 }
    | 3 => { c with verify := c.verify + 1 }
    | 4 => { c with bench := c.bench + 1 }
    | 5 => { c with ring := c.ring + 1 }
    | 6 => { c with dma := c.dma + 1 }
    | _ => { c with selftest := c.selftest + 1 }
  raiseOnce 0x004 point 0 { s with faults := { s.faults with cnt := c' } }

/-! ### Configurations by web line (R45 to R50, R121) -/

/-- `n` is at or after `m` under R11. -/
def atOrAfter (n m : Nat) : Bool := decide (0 ≤ sdiff32 n m)

/-- The configuration for a web line: R48. -/
def cfgAt (s : State) (line : Nat) : Cfg :=
  let base := match s.prev with
    | some (f, old) => if atOrAfter line f then s.running else old
    | none => s.running
  match s.glue with
  | some g =>
    match g.first with
    | some f => if atOrAfter line f then g.next else base
    | none => base
  | none => base

/-- The configuration in force where no web line decides: a pending glue-up's once it has been applied there. -/
def cfgNow (s : State) : Cfg :=
  match s.glue with
  | some g => if g.others then g.next else s.running
  | none => s.running

def stripOf (shift line : Nat) : Nat := line / 2 ^ shift
def stripAt (s : State) (line : Nat) : Nat := stripOf (cfgAt s line).shift line

/-- First web line of a strip. -/
def stripFirst (shift strip : Nat) : Nat := wrap32 (strip * 2 ^ shift)

/-- Last web line of the strip of a web line. -/
def stripEnd (s : State) (line : Nat) : Nat :=
  let shift := (cfgAt s line).shift
  wrap32 (stripFirst shift (stripOf shift line) + 2 ^ shift - 1)

/-- The last line of its strip. -/
def isStripLast (shift line : Nat) : Bool := decide ((line + 1) % 2 ^ shift = 0)
def isStripFirst (shift line : Nat) : Bool := decide (line % 2 ^ shift = 0)

/-- Whether a web line has been triggered since reset, or lies between the first and last of a span of them. -/
def inSpans (s : State) (line : Nat) : Bool := s.spans.any fun p => atOrAfter line p.1 && atOrAfter p.2 line

/-- The line after `line` in the lines triggered since reset: the next number, or the first line of the next span. -/
def lineAfter (s : State) (line : Nat) : Nat :=
  let n := wrap32 (line + 1)
  if inSpans s n then n
  else
    match (s.spans.reverse.filter fun p => later32 p.1 line).head? with
    | some p => p.1
    | none => n

/-! ### Units at work -/

/-- The fabric runs (Table 13-19). -/
def fabricUp (s : State) : Bool := decide (s.hf.fabric = .running)

/-- A controller serves requests (Table 12-4). -/
def stackUp (s : State) (c : Nat) : Bool := decide ((vget s.bench.ctl c).state = .ready)

/-- The controller of a partition serves requests; a partition that is not enabled holds nothing up. -/
def partUp (s : State) (k : Nat) : Bool := let p := vget (cfgNow s).part k; !p.enable || stackUp s (stackOf (p.baseMib * mib))

/-- A unit of the fabric works only while the fabric runs and the Bench serves its partitions; until then its work waits (R554, R563,
R726). -/
def onFabric (parts : List Nat) (f : State → State) (s : State) : State := if fabricUp s && parts.all (partUp s) then f s else s

/-- One event of a fabric unit at time `t`. -/
def runFabric (t : Nat) (parts : List Nat) (s : State) (effect : State → State) : Host.Outcome State Fault Refusal :=
  runAt t s (onFabric parts effect)

/-! ### Run-time claims (R20, R109) -/

def holdRt (kind index opcode unit : Nat) (s : State) : State := { s with claims := s.claims ++ [⟨kind, index, opcode, unit⟩] }

def dropRt (kind index opcode unit : Nat) (s : State) : State :=
  { s with claims := s.claims.filter fun c => !(decide (c.kind = kind) && decide (c.index = index) && decide (c.opcode = opcode) && decide (c.unit = unit)) }

/-! ### Replies (R62, R68 to R72, R77, R82 to R84) -/

def stOk : Nat := 0
def stAccepted : Nat := 1
def stOkLate : Nat := 2
def stBadOpcode : Nat := 0x8001
def stBadParam : Nat := 0x8002
def stBadLength : Nat := 0x8003
def stBadTarget : Nat := 0x8004
def stConflict : Nat := 0x8005
def stBusy : Nat := 0x8006
def stNotStaged : Nat := 0x8007
def stNotFitted : Nat := 0x8008
def stCalDisagree : Nat := 0x8009
def stMarkLost : Nat := 0x800A
def stGone : Nat := 0x800B
def stFenced : Nat := 0x800C
def stBenchFrozen : Nat := 0x800D
def stTimeout : Nat := 0x800E
def stAuthFail : Nat := 0x800F
def stWrongState : Nat := 0x8010
def stHomeFailed : Nat := 0x8011
def stAborted : Nat := 0x8012
def stHostError : Nat := 0x8013

/-- Opcodes of class S (Table 2-19). -/
def stagedOpcodes : List Nat :=
  [0x0204, 0x0300, 0x0305, 0x0309, 0x0400, 0x0401, 0x0500, 0x0501, 0x0502, 0x0600, 0x0601, 0x0602, 0x0700, 0x0705, 0x0706] ++
  [0x0800, 0x0801, 0x0802, 0x0803, 0x0900, 0x0901, 0x0A00, 0x0A01, 0x0C00, 0x0C01, 0x0C02, 0x0D00, 0x0D04, 0x0D06, 0x0E00, 0x0E03] ++
  [0x0F00, 0x0F02]

def isStaged (opcode : Nat) : Bool := stagedOpcodes.contains opcode

/-- Reply header and body (Table 2-2); PHASE is set when the reply is written. -/
def replyBytes (opcode status tag ticket source rflags : Nat) (body : Bytes) : Bytes :=
  le 2 opcode ++ le 2 status ++ le 4 tag ++ le 4 ticket ++ le 1 source ++ le 1 rflags ++ le 2 body.length ++ body

def replySlots (bytes : Bytes) : Nat := ceilDiv bytes.length 64

/-- A completion reply by its RFLAGS. -/
def isCompletion (bytes : Bytes) : Bool := bitOf (u8 bytes 13) 1

/-- A reply of another module (R92). -/
def isForwarded (bytes : Bytes) : Bool := bitOf (u8 bytes 13) 2

/-- Reply slots reserved on a ring: one for each accepted command (R72), 16 for each command forwarded or broadcast and not answered,
one for each forwarded command that its target has accepted (R71). -/
def reservedSlots (s : State) (n : Nat) : Nat :=
  (s.cmds.filter fun r => decide (r.ring = n) && r.accepted && r.via.isNone).length +
  ((s.ring.forwarded.filter fun f => decide (f.ring = n)).map fun f => if f.accepted then 1 else 16).sum +
  16 * ((s.ring.broadcasts.filter fun b => decide (b.ring = n) && !b.completing).length + (s.ring.prepare.toList.filter fun b => decide (b.ring = n)).length)

/-- Reply slots of a ring that the device may write (R71). -/
def freeSlots (s : State) (n : Nat) : Nat := (vget s.host.rings n).rplSize - (vget s.host.rings n).unread - reservedSlots s n

def setRing (n : Nat) (f : RingPair → RingPair) (s : State) : State := { s with host := { s.host with rings := vmod s.host.rings n f } }

/-- The slots of a reply: its bytes with PHASE in RFLAGS, up to a whole number of slots (Table 2-2, R70). -/
def replyData (phase : Bool) (bytes : Bytes) : Bytes :=
  padTo (64 * replySlots bytes) (bytes.take 13 ++ le 1 (u8 bytes 13 / 2 * 2 + flagBit phase 0) ++ bytes.drop 14)

/-- Write one reply into consecutive slots from RPLn_PROD, with PHASE, and advance RPLn_PROD (R68, R70). -/
def writeReply (n : Nat) (irq : Bool) (bytes : Bytes) (s : State) : State :=
  let p := vget s.host.rings n
  let slots := replySlots bytes
  let data := replyData p.phase bytes
  let room := p.rplSize - p.rplProd
  let next := p.rplProd + slots
  let wraps := decide (p.rplSize ≤ next)
  let s := setRing n (fun p => { p with
    rplProd := if wraps then next - p.rplSize else next
    unread := p.unread + slots
    phase := if wraps then !p.phase else p.phase }) s
  let s := out (.hostWrite (p.rplBase + 64 * p.rplProd) (data.take (64 * room)) false) s
  let s := if room < slots then out (.hostWrite p.rplBase (data.drop (64 * room)) false) s else s
  if irq || isCompletion bytes then raise (0x010 + n) 0 0 s else s

/-- Post what can be posted, in order: an immediate reply waits behind one whose command has not ended (R82), a completion
and a reply of another module do not (R83, R94), and nothing passes a reply that lacks room. `hold` is 0, 1 for immediate replies held, 2 for all held. -/
def drainPosts (n : Nat) : List PostEntry → Nat → State → List PostEntry × State
  | [], _, s => ([], s)
  | .waiting t :: rest, hold, s =>
    let r := drainPosts n rest (max hold 1) s
    (.waiting t :: r.1, r.2)
  | .ready t irq bytes :: rest, hold, s =>
    let held := decide (hold = 2) || (decide (hold = 1) && !isCompletion bytes && !isForwarded bytes)
    let room := decide (replySlots bytes ≤ freeSlots s n)
    if held || !room then
      let r := drainPosts n rest (if held then hold else 2) s
      (.ready t irq bytes :: r.1, r.2)
    else drainPosts n rest hold (reportTicket t (writeReply n irq bytes s))

/-- Post what a ring has room for. A fabric that does not run posts nothing. -/
def flushRing (n : Nat) (s : State) : State :=
  let p := vget s.host.rings n
  if !p.enabled || decide (s.hf.fabric ≠ .running) then s
  else
    let r := drainPosts n p.posts 0 (setRing n (fun p => { p with posts := [] }) s)
    setRing n (fun p => { p with posts := r.1 }) r.2

/-- Put a reply in its place in the order of its ring: where the ring keeps a place for its command, else last. -/
def placePost (ticket : Nat) (e : PostEntry) (l : List PostEntry) : List PostEntry :=
  if l.any fun x => decide (x = .waiting ticket) then l.map fun x => if x = .waiting ticket then e else x else l ++ [e]

def postReply (n ticket : Nat) (irq : Bool) (bytes : Bytes) (s : State) : State :=
  flushRing n (setRing n (fun p => { p with posts := placePost ticket (.ready ticket irq bytes) p.posts }) s)

/-- The code with which a command's ticket ends (R88). -/
def ticketCode (status : Nat) : Nat := if status < 0x8000 then 0 else status

def dropCmd (ticket : Nat) (s : State) : State := { s with cmds := s.cmds.filter fun r => decide (r.ticket ≠ ticket) }

/-- TARGET_MODULE of a broadcast; `via` of the gateway's own share of one. -/
def allModules : Nat := 0xFE

/-- The combined outcome: the error of the lowest-numbered module that returned one, else ST_OK_LATE when one did, with the gateway's own
body (Table 2-2, R127, R128). Module, status and body. -/
def combinedAnswer (own : Nat) (l : List (Nat × Nat × Bytes)) : Nat × Nat × Bytes :=
  let bad := l.filter fun a => decide (0x8000 ≤ a.2.1)
  match bad.foldl (fun m a => match m with | some b => if a.1 < b.1 then some a else m | none => some a) (none : Option (Nat × Nat × Bytes)) with
  | some a => a
  | none => (own, (l.map (·.2.1)).foldl max 0, match l.find? fun a => decide (a.1 = own) with | some a => a.2.2 | none => [])

/-- One module's answer to a broadcast; the last one lets the combined reply be posted (R127, R128). -/
def collectAnswer (ticket m status : Nat) (body : Bytes) (s : State) : State :=
  match s.ring.broadcasts.find? fun b => decide (b.ticket = ticket) with
  | none => s
  | some b =>
    if !b.waiting.contains m then s
    else
      let b := { b with waiting := b.waiting.erase m, answers := b.answers ++ [(m, status, body)] }
      let others := s.ring.broadcasts.filter fun x => decide (x.ticket ≠ ticket)
      if b.waiting ≠ [] then { s with ring := { s.ring with broadcasts := others ++ [b] } }
      else
        let a := combinedAnswer s.ring.moduleId b.answers
        let s := decideTicket ticket (ticketCode a.2.1) (dropCmd ticket { s with ring := { s.ring with broadcasts := others } })
        postReply b.ring ticket b.irq (replyBytes b.opcode a.2.1 b.tag ticket a.1 (if b.completing then 2 else 0) a.2.2) s

/-- Send a reply of a command of this module: by its ring, to the gateway that forwarded it (R92), or to its broadcast. -/
def sendReply (r : CmdRec) (status rflags : Nat) (body : Bytes) (s : State) : State :=
  if r.silent then s else
  match r.via with
  | some g =>
    if g = allModules then collectAnswer (r.ticket % 2 ^ 32) s.ring.moduleId status body s
    else out (.remoteReply g (replyBytes r.opcode status r.tag 0 s.ring.moduleId rflags body)) s
  | none => postReply r.ring r.ticket r.irq (replyBytes r.opcode status r.tag r.ticket s.ring.moduleId rflags body) s

/-- The immediate reply of a command (R82, R88, R98). ST_ACCEPTED keeps the command until its completion (R72). -/
def answer (r : CmdRec) (status : Nat) (body : Bytes) (s : State) : State :=
  if status = stAccepted then
    let s := dropCmd r.ticket s
    sendReply r status 0 body { s with cmds := s.cmds ++ [{ r with accepted := true }] }
  else
    let s := decideTicket r.ticket (ticketCode status) (dropCmd r.ticket s)
    let s := if isStaged r.opcode && decide (status < 0x8000) then { s with stageGen := wrap32 (s.stageGen + 1) } else s
    sendReply r status 0 body s

/-- The completion of an accepted command (R83, R88). -/
def complete (ticket status : Nat) (body : Bytes) (s : State) : State :=
  match s.cmds.find? fun r => decide (r.ticket = ticket) with
  | none => s
  | some r =>
    if r.accepted then sendReply r status 2 body (decideTicket ticket (ticketCode status) (dropCmd ticket s))
    else answer r status body s

def cmdOf (s : State) (ticket : Nat) : Option CmdRec := s.cmds.find? fun r => decide (r.ticket = ticket)

end Sys2Proof.Machine
end

