-- ==== Sys2Proof/Machine/Operands.lean ====
section
/-! DEFINITION. The operand forms of Yilgen commands: the packet's lengths (R75, R76), its targets (R93, R96), bulk
references (Table 2-4, R80) and the error bodies of Table 2-3. -/

namespace Sys2Proof.Machine

/-- SLOTS with 0 taken as 1 (Table 2-1). -/
def packetSlots (c : HostCmd) : Nat := max 1 c.slots

/-- R75: the packet's own length fields agree. -/
def lengthsAgree (c : HostCmd) : Bool :=
  decide (16 + c.paramLen ≤ packetSlots c * 64) && decide (c.paramLen ≤ 4080) && decide (c.paramLen % 4 = 0)

/-- ST_BAD_LENGTH's body (Table 2-3). -/
def lengthBody (required received : Nat) : Bytes := le 2 required ++ le 2 received ++ zeros 4

def paramBody (off : Nat) : Bytes := le 2 off ++ zeros 6
def entryBody (index : Nat) : Bytes := le 2 index ++ le 1 1 ++ zeros 5
def targetBody (c : HostCmd) : Bytes := le 1 c.module ++ le 1 c.unit ++ zeros 6
def busyBody (cause ticket : Nat) : Bytes := le 1 cause ++ zeros 3 ++ le 4 ticket
def entryNoBody (entry : Nat) : Bytes := le 2 entry ++ zeros 6

/-- A resource's holder as ST_CONFLICT names it (Table 2-3). -/
structure Holder where
  kind : Nat := 0
  index : Nat := 0
  opcode : Nat := 0
  unit : Nat := 0
  state : Nat := 0
  deriving DecidableEq, Repr, Inhabited

def conflictBody (h : Holder) : Bytes := le 1 h.kind ++ zeros 1 ++ le 2 h.index ++ le 2 h.opcode ++ le 1 h.unit ++ le 1 h.state

/-- What a command's execution decides: its immediate reply, unless the reply comes later, and the state. -/
structure Verdict where
  status : Nat := 0
  body : Bytes := []
  later : Bool := false
  st : State

def ok (body : Bytes) (s : State) : Verdict := { status := stOk, body, st := s }
def accepted (body : Bytes) (s : State) : Verdict := { status := stAccepted, body, st := s }
/-- The reply is posted when the command ends (R82). -/
def replyLater (s : State) : Verdict := { status := stOk, later := true, st := s }
def fail (status : Nat) (body : Bytes) (s : State) : Verdict := { status, body, st := s }
def badParam (off : Nat) (s : State) : Verdict := fail stBadParam (paramBody off) s
def badEntry (index : Nat) (s : State) : Verdict := fail stBadParam (entryBody index) s
def wrongState (s : State) : Verdict := fail stWrongState (zeros 8) s
def busy (cause ticket : Nat) (s : State) : Verdict := fail stBusy (busyBody cause ticket) s
def conflict (h : Holder) (s : State) : Verdict := fail stConflict (conflictBody h) s

/-- Go on when the parameters are in range (Table 2-3). -/
def checked (bad : Option Nat) (s : State) (go : Unit → Verdict) : Verdict :=
  match bad with
  | some off => badParam off s
  | none => go ()

/-- A bulk transfer with host memory fails `fails` times: one failure is retried and counted, two end the command (R80). -/
def withBulk (fails : Fails) (ref : BulkRef) (s : State) (go : State → Verdict) : Verdict :=
  if ref.space = 1 ∨ fails = 0 then go s
  else if fails = 1 then go (countTransient 1 s)
  else fail stHostError (zeros 8) s

/-- Bytes a bulk reference names: the host memory that the packet's operand carries, or the Bench. The firmware working space
and offsets beyond the Bench read 0, as through BAR4 (R24, R588). -/
def bulkData (c : HostCmd) (ref : BulkRef) (s : State) : Bytes :=
  if ref.space = 1 then
    if inFirmware ref.addr || inFirmware (ref.addr + ref.length - 1) then zeros ref.length else benchRead s ref.addr ref.length
  else padTo ref.length c.bulk

/-- Bytes written to the host memory that a bulk reference names. -/
def bulkOut (ref : BulkRef) (data : Bytes) (s : State) : State := if data = [] then s else out (.hostWrite ref.addr data false) s

/-- What the completion of a command writes to host memory; a command that came from the partner's journal writes nothing (DEDUCED,
assumption 78). -/
def bulkFor (ticket : Nat) (ref : BulkRef) (data : Bytes) (s : State) : State :=
  if (cmdOf s ticket).any (·.silent) then s else bulkOut ref data s

/-- A destination lies in host memory: host data enters the Bench only through context slots (R24). -/
def bulkHostOnly (p : Bytes) (off : Nat) : List (Nat × Bool) := bulkChecks p off ++ [(off + 12, decide (u8 p (off + 12) = 0))]

/-- Stacks of the Bench that a bulk reference touches. -/
def bulkStacks (ref : BulkRef) : List Nat :=
  if ref.space = 1 then [stackOf ref.addr, stackOf (ref.addr + ref.length - 1)] else []

end Sys2Proof.Machine
end

