-- ==== Sys2Proof/Machine/Claims.lean ====
section
/-! DEFINITION. Resource claims (R104 to R109, Table 2-6). -/

namespace Sys2Proof.Machine

/-- One claim of a feature; `amount` counts pages or MiB for pooled kinds. -/
structure Claim where
  kind : Nat := 0
  index : Nat := 0
  amount : Nat := 1
  opcode : Nat := 0
  unit : Nat := 0
  deriving DecidableEq, Repr, Inhabited

def trgClaim (t : Option Nat) (opcode unit : Nat) : List Claim :=
  match t with
  | some i => [⟨1, i, 1, opcode, unit⟩]
  | none => []

def triggerClaims (cfg : Cfg) (u : Nat) : List Claim :=
  let c := vget cfg.trig u
  if c.enable then trgClaim c.strobe0.trg 0x0C01 u ++ trgClaim c.strobe1.trg 0x0C01 u else []

def compareClaims (cfg : Cfg) (u : Nat) : List Claim :=
  let c := vget cfg.cmp u
  if c.enable then trgClaim c.output 0x0C02 u else []

def regionClaims (r : Option RegionCfg) : List Claim :=
  match r with
  | some c => trgClaim c.alarmTrg 0x0601 0
  | none => []

/-- R620: the axis's enabled inputs and its encoder. -/
def axisClaims (cfg : Cfg) (a : Nat) : List Claim :=
  let c := vget cfg.axis a
  if c.enable then
    ((List.range 3).filterMap fun i => if bitOf c.inputs i then some ⟨3, 3 * a + i, 1, 0x0D00, a⟩ else none) ++
      (match c.encoder with | some e => [⟨2, e, 1, 0x0D00, a⟩] | none => [])
  else []

def gearClaims (cfg : Cfg) (a : Nat) : List Claim := if (vget cfg.gear a).enable then [⟨0x0D, a, 1, 0x0D04, a⟩] else []

/-- R453. -/
def stationClaims (cfg : Cfg) (t : Nat) : List Claim :=
  let c := vget cfg.station t
  if c.enable then
    ⟨0x0D, c.posAxis, 1, 0x0706, t⟩ :: (match c.strokeAxis with | some a => [⟨0x0D, a, 1, 0x0706, t⟩] | none => []) ++
      [⟨5, c.compare, 1, 0x0706, t⟩]
  else []

def patchClaims (cfg : Cfg) (q : Nat) : List Claim := if (vget cfg.patch q).enable then [⟨9, (vget cfg.patch q).engine, 1, 0x0705, q⟩] else []

def archiveClaims (cfg : Cfg) : List Claim := if cfg.archive.enable then cfg.archive.engines.map fun e => ⟨9, e, 1, 0x0A00, 0⟩ else []

def verifyClaims (cfg : Cfg) (d : Nat) : List Claim := if vget cfg.verify d = 0 then [] else [⟨0x0A, d, 1, 0x0A01, d⟩]

/-- Table 13-11: the channel, its pages and its pacing timer. -/
def dmaClaims (cfg : Cfg) (ch : Nat) : List Claim :=
  let c := vget cfg.dma ch
  if dmaEnable c then
    [⟨8, ch, 1, 0, ch⟩, ⟨6, 0, dmaPages c, 0, ch⟩] ++ (if dmaTimerEn c then [⟨4, dmaTimer c, 1, 0, ch⟩] else [])
  else []

def claimsOf (cfg : Cfg) (region : Option RegionCfg) : List Claim :=
  (List.range 24).flatMap (triggerClaims cfg) ++ (List.range 16).flatMap (compareClaims cfg) ++ regionClaims region ++
  (List.range 4).flatMap (axisClaims cfg) ++ (List.range 4).flatMap (gearClaims cfg) ++ (List.range 4).flatMap (stationClaims cfg) ++
  (List.range 16).flatMap (patchClaims cfg) ++ archiveClaims cfg ++ (List.range 4).flatMap (verifyClaims cfg) ++
  (List.range 64).flatMap (dmaClaims cfg)

def sameFeature (a b : Claim) : Bool := decide (a.opcode = b.opcode) && decide (a.unit = b.unit)

/-- Kind 0x06 is pooled (Table 2-6). -/
def pooledKind (kind : Nat) : Bool := decide (kind = 6)

def poolSize : Nat := 1024

/-- Holder state of Table 2-3 for a staged claim: 0 when the running configuration makes the same claim for the same feature. -/
def holderOf (running : List Claim) (c : Claim) : Holder :=
  { kind := c.kind, index := c.index, opcode := c.opcode, unit := c.unit, state := if running.contains c then 0 else 1 }

/-- The largest of some claims, the first of equals. -/
def largestClaim : List Claim → Option Claim
  | [] => none
  | c :: cs => match largestClaim cs with
    | none => some c
    | some d => if c.amount < d.amount then some d else some c

/-- Whether a claim of a feature collides with another claim of the list or with a run-time claim (R105, R108). -/
def collision (all running : List Claim) (rt : List RtClaim) (c : Claim) : Option Holder :=
  let rivals := all.filter fun d => decide (d.kind = c.kind) && decide (d.index = c.index) && !sameFeature c d
  let others :=
    if pooledKind c.kind then if poolSize < c.amount + (rivals.map (·.amount)).sum then largestClaim rivals else none
    else rivals.head?
  match others with
  | some d => some (holderOf running d)
  | none =>
    match rt.find? fun r => decide (r.kind = c.kind) && decide (r.index = c.index) with
    | some r => some { kind := c.kind, index := c.index, opcode := r.opcode, unit := r.unit, state := 2 }
    | none => none

/-- R105: the first collision of a feature's claims in a configuration. -/
def conflictOf (all running : List Claim) (rt : List RtClaim) (opcode unit : Nat) : Option Holder :=
  (all.filter fun c => decide (c.opcode = opcode) && decide (c.unit = unit)).findSome? (collision all running rt)

/-- Claims of the staged configuration. -/
def stagedClaims (s : State) : List Claim := claimsOf s.staged s.marq.shadow.region
/-- Claims of the running configuration. -/
def runningClaims (s : State) : List Claim := claimsOf (cfgNow s) s.marq.active.region

/-- R109: who holds a resource against a run-time claim. -/
def rtHolder (s : State) (kind index : Nat) : Option Holder :=
  match (runningClaims s).find? fun c => decide (c.kind = kind) && decide (c.index = index) with
  | some c => some { kind, index, opcode := c.opcode, unit := c.unit, state := 0 }
  | none =>
    match s.claims.find? fun c => decide (c.kind = kind) && decide (c.index = index) with
    | some c => some { kind, index, opcode := c.opcode, unit := c.unit, state := 2 }
    | none => none

/-- A staged edit of a setting without banks: parameters, pending glue-up (R100, R124), claims (R105), then the edit (R16). -/
def stageEdit (opcode unit : Nat) (bad : Option Nat) (edit : Cfg → Cfg) (s : State) : Verdict :=
  checked bad s fun _ =>
    if s.glue.isSome then busy 2 0 s
    else if s.ring.prepared.isSome then busy 5 0 s
    else
      let cfg := edit s.staged
      match conflictOf (claimsOf cfg s.marq.shadow.region) (runningClaims s) s.claims opcode unit with
      | some h => conflict h s
      | none => ok [] { s with staged := cfg }

end Sys2Proof.Machine
end

