-- ==== Sys2Proof/Machine/Units.lean ====
section
/-! DEFINITION. Ending the items in progress in a unit: when it is fenced (R721), reset (R764) or loses power under a reset
(R724). -/

namespace Sys2Proof.Machine

/-- Change one of the unit tables of State. -/
def setSlotLink (i : Nat) (f : SlotLink → SlotLink) (s : State) : State := { s with links := { s.links with slots := vmod s.links.slots i f } }
def setLane (i : Nat) (f : Lane → Lane) (s : State) : State := { s with links := { s.links with lanes := vmod s.links.lanes i f } }
def setPocxp (i : Nat) (f : Pocxp → Pocxp) (s : State) : State := { s with links := { s.links with pocxp := vmod s.links.pocxp i f } }
def setThrough (i : Nat) (f : Through → Through) (s : State) : State := { s with links := { s.links with through := vmod s.links.through i f } }
def setSlotIngest (i : Nat) (f : SlotIngest → SlotIngest) (s : State) : State := { s with ingest := { s.ingest with slots := vmod s.ingest.slots i f } }
def setSlotPlane (i : Nat) (f : SlotPlane → SlotPlane) (s : State) : State := { s with plane := { s.plane with slots := vmod s.plane.slots i f } }
def setJig (i : Nat) (j : Option JigRun) (s : State) : State := { s with plane := { s.plane with jig := vset s.plane.jig i j } }
def setQueue (i : Nat) (f : Queue → Queue) (s : State) : State := { s with scribe := { s.scribe with queues := vmod s.scribe.queues i f } }
def setStation (i : Nat) (f : Station → Station) (s : State) : State := { s with scribe := { s.scribe with stations := vmod s.scribe.stations i f } }
def setView (i : Nat) (f : ViewStream → ViewStream) (s : State) : State := { s with views := vmod s.views i f }
def setCe (i : Nat) (f : CeUnit → CeUnit) (s : State) : State :=
  { s with comp := { s.comp with ce := vset s.comp.ce i (f ((s.comp.ce[i]?).getD { job := none })) } }
def ceAt (s : State) (i : Nat) : CeUnit := (s.comp.ce[i]?).getD { job := none }
def setDe (i : Nat) (f : DeUnit → DeUnit) (s : State) : State := { s with comp := { s.comp with de := vmod s.comp.de i f } }
def setCtl (i : Nat) (f : BenchCtl → BenchCtl) (s : State) : State := { s with bench := { s.bench with ctl := vmod s.bench.ctl i f } }
def setPort (i : Nat) (f : BenchPort → BenchPort) (s : State) : State := { s with bench := { s.bench with ports := vmod s.bench.ports i f } }
def setChan (i : Nat) (f : DmaChan → DmaChan) (s : State) : State := { s with dma := { s.dma with ch := vmod s.dma.ch i f } }
def setAxis (i : Nat) (f : Axis → Axis) (s : State) : State := { s with axes := { s.axes with ax := vmod s.axes.ax i f } }
def setEth (i : Nat) (f : EthPort → EthPort) (s : State) : State := { s with time := { s.time with ports := vmod s.time.ports i f } }
def setLinkPort (i : Nat) (f : LinkPort → LinkPort) (s : State) : State := { s with ring := { s.ring with ports := vmod s.ring.ports i f } }
def setEnc (i : Nat) (f : Encoder → Encoder) (s : State) : State := { s with gauge := { s.gauge with enc := vmod s.gauge.enc i f } }
def setSlotTrig (i : Nat) (f : SlotTrig → SlotTrig) (s : State) : State := { s with gauge := { s.gauge with slots := vmod s.gauge.slots i f } }
def setCmp (i : Nat) (f : CompareUnit → CompareUnit) (s : State) : State := { s with gauge := { s.gauge with cmp := vmod s.gauge.cmp i f } }

/-- A pulse on a TRG output; one that begins while the output is active extends it (R172, R178, R409). -/
def pulseTrg (trg width : Nat) (inverted : Bool) (s : State) : State :=
  let o := vget s.gauge.trg trg
  let stop := s.now + width
  let o' : TrgOut := { active := true, inverted, until_ := if o.active then max o.until_ stop else stop }
  { s with gauge := { s.gauge with trg := vset s.gauge.trg trg o' } }

/-- A frame of stream v ends FAILED: its ticket, FRAMES_FAILED, EV 0x2C8 + v (R489), and the next frame carries
SKIP_BEFORE (R724). -/
def failFrame (v ticket code : Nat) (s : State) : State :=
  raise (0x2C8 + v) 0 0 (setView v (fun x => { x with skipBefore := true, cnt := { x.cnt with failed := x.cnt.failed + 1 } }) (endTicket ticket code s))

/-- Tickets of a stream's frames not yet delivered. -/
def frameTickets (x : ViewStream) : List Nat :=
  (match x.cur with | some f => if f.skipped then [] else [f.ticket] | none => []) ++
  ((x.waiting.filter fun f => !f.skipped).map (·.ticket)) ++ (match x.sending with | some f => [f.ticket] | none => [])

/-- End every frame of a stream in progress. -/
def dropFrames (v code : Nat) (s : State) : Nat × State :=
  let ts := frameTickets (vget s.views v)
  let s := setView v (fun x => { x with cur := none, waiting := [], sending := none }) s
  (ts.length, ts.foldl (fun s t => failFrame v t code s) s)

/-- Place of a record's entry in its queue's patch directory (R450). -/
def dirEntryOff (q : Queue) (seq : Nat) : Nat := q.dirBase + seq % q.cap * 16

def clearDirEntry (q seq : Nat) (s : State) : State :=
  let x := vget s.scribe.queues q
  if x.cap = 0 ∨ x.storeSize = 0 then s else benchWrite (dirEntryOff x seq) (zeros 16) s

/-- A patch not yet stored ends FAILED: PATCHES_LOST and directory entry 0 (R513, R565, R724). -/
def failPatchJob (j : PatchJob) (code : Nat) (s : State) : State :=
  clearDirEntry j.queue j.seq (setQueue j.queue (fun q => { q with cnt := { q.cnt with patchesLost := q.cnt.patchesLost + 1 } })
    (endTicket j.ticket code
      { s with scribe := { s.scribe with jobs := s.scribe.jobs.filter fun x => !(decide (x.queue = j.queue) && decide (x.seq = j.seq)) } }))

/-- End what a compressor works on: its archive block, and the patch that it compresses. -/
def dropCeItems (e code : Nat) (s : State) : Nat × State :=
  let blocks := match (ceAt s e).job with | some j => j.ticket.toList | none => []
  let patches := s.scribe.jobs.filter fun j => decide (j.engine = e) && j.cut
  let s := setCe e (fun u => { u with job := none }) (endTickets blocks code s)
  (blocks.length + patches.length, patches.foldl (fun s j => failPatchJob j code s) s)

/-- A Jig command ends without a result: its figures are held with their reason (R306, R322). -/
def jigFigureBytes (f : JigFigures) : Bytes :=
  le 1 f.result ++ le 1 (jigReasonCode f.reason) ++ le 1 f.field ++ zeros 1 ++ le 4 f.stripA ++ le 4 f.stripB ++ le 4 f.candidates ++
  le 4 f.checked ++ le 4 f.agree ++ le 4 f.rms ++ le 4 f.peak ++ le 4 f.skipped ++ le 4 f.stageGen ++ le 4 f.targetUsed ++ zeros 4

/-- First link of a slot's group: L0 of its port for slot A, L2 for slot B (R186). -/
def masterLink (slot : Nat) : Nat := slot / 2 * 4 + slot % 2 * 2

/-- The links of a slot's group under a configuration. -/
def groupLinks (cfg : Cfg) (slot : Nat) : List Nat := (List.range (vget cfg.link slot).links).map (masterLink slot + ·)

def jigOpcode : JigKind → Nat
  | .dark => 0x0404 | .flat => 0x0405 | .geometry => 0x0406

/-- Keep the last Jig result of a kind on a slot (R322). -/
def holdJigResult (slot : Nat) (kind : JigKind) (f : JigFigures) (cands : List JigCand) (s : State) : State :=
  { s with plane := { s.plane with
    results := (s.plane.results.filter fun h => !(decide (h.slot = slot) && decide (h.kind = kind))) ++ [⟨slot, kind, f, cands⟩] } }

/-- The claim of R304 ends. -/
def dropJigClaims (slot : Nat) (kind : JigKind) (s : State) : State :=
  { s with claims := s.claims.filter fun c => !(decide (c.kind = 0x0E) && decide (c.opcode = jigOpcode kind) && decide (c.unit = slot)) }

/-- First strip of a pass, once its first line is known. -/
def passStrip (s : State) (first : Option Nat) : Nat :=
  match first with
  | some n => stripAt s n
  | none => 0

/-- A Jig command ends aborted with a reason and changes nothing (R306). -/
def abortJig (slot : Nat) (reason : JigReason) (status : Nat) (s : State) : State :=
  match vget s.plane.jig slot with
  | none => s
  | some j =>
    let f : JigFigures := { result := 2, reason, stripA := passStrip s j.firstA, stripB := passStrip s j.firstB, skipped := j.skipped }
    let s := dropJigClaims slot j.par.kind (setJig slot none (holdJigResult slot j.par.kind f [] s))
    complete j.ticket status (jigFigureBytes f) s

/-- Camera transactions of a slot that host software started end with a status (R214). -/
def dropCtrl (slot status : Nat) (s : State) : State :=
  let txns := (vget s.links.slots slot).ctrl
  let s := setSlotLink slot (fun x => { x with ctrl := [], ctrlRetried := false }) s
  txns.foldl (fun s x => match x with
    | .camRead t _ _ => complete t status (zeros 8) s
    | .camWrite t _ _ _ => complete t status (zeros 8) s
    | _ => s) s

/-- A LINK_DISCOVER running on a slot ends with a status. -/
def endDiscover (slot status : Nat) (body : Bytes) (s : State) : State :=
  match (vget s.links.slots slot).discover with
  | none => s
  | some (t, _) => complete t status body (setSlotLink slot (fun x => { x with discover := none }) s)

/-- End the items in progress in a unit with a ledger code, and its commands in progress with a status; the tickets ended. -/
def endItems (unit index code status : Nat) (s : State) : Nat × State :=
  match unit with
  | 0x03 =>
    let x := vget s.links.slots index
    let n := x.discover.toList.length +
      (x.ctrl.filter fun c => match c with | .camRead _ _ _ => true | .camWrite _ _ _ _ => true | _ => false).length
    (n, dropCtrl index status (endDiscover index status (zeros 8) s))
  | 0x04 => ((vget s.plane.jig index).toList.length, abortJig index .reset status s)
  | 0x08 => dropFrames index code s
  | 0x0A =>
    if index < 16 then dropCeItems index code s
    else
      match (vget s.comp.de (index - 16)).run with
      | none => (0, s)
      | some r =>
        let s := { s with claims := s.claims.filter fun c => !(decide (c.opcode = 0x0A04) && decide (c.unit = index - 16)) }
        (1, complete r.ticket status (zeros 8) (setDe (index - 16) (fun u => { u with run := none }) s))
  | 0x0D =>
    match (vget s.axes.ax index).home with
    | none => (0, s)
    | some h => (1, complete h.ticket status (zeros 8) (setAxis index (fun a => { a with home := none, state := .idle }) s))
  | _ => (0, s)

end Sys2Proof.Machine
end

