-- ==== Sys2Proof/Machine/Command.lean ====
section
/-! DEFINITION. How the command processor runs one command: its ticket, lengths, targets, fences, the state of the Bench, its
effect, the retry of an internal step, its reply and its journal entry (R73 to R93, R554, R566, R703, R704). -/

namespace Sys2Proof.Machine

/-- What one opcode asks of its packet, and what it does. -/
structure CmdSpec where
  opcode : Nat
  /-- The length the opcode defines (or its minimum), and whether PARAM_LEN meets it (R76). -/
  need : HostCmd → Nat × Bool
  /-- TARGET_UNIT names a unit of the command. -/
  unitOk : State → HostCmd → Bool
  /-- Units that the command is addressed to, for R91. -/
  units : HostCmd → List (Nat × Nat) := fun _ => []
  /-- Stacks of the Bench that the command needs (R554, R566). -/
  dies : State → HostCmd → List Nat := fun _ _ => []
  run : CmdRec → HostCmd → State → Verdict
  /-- What follows the reply in the same step. -/
  after : State → State := id
  /-- What TARGET_MODULE 0xFE does (R96); none where it is not accepted. -/
  every : Option (CmdRec → HostCmd → State → State) := none

/-- PARAM_LEN is exactly `n`. -/
def exactly (n : Nat) (c : HostCmd) : Nat × Bool := (n, decide (c.paramLen = n))
def anyUnit (_ : State) (_ : HostCmd) : Bool := true
def unitIs (n : Nat) (_ : State) (c : HostCmd) : Bool := decide (c.unit = n)
def unitBelow (n : Nat) (_ : State) (c : HostCmd) : Bool := decide (c.unit < n)

/-- Queries of Table 2-19. -/
def queryOpcodes : List Nat :=
  [0x0100, 0x0101, 0x0102, 0x0107, 0x0203, 0x0302, 0x0402, 0x0407, 0x0504, 0x0603, 0x0707, 0x0805, 0x0904, 0x0905, 0x0C05, 0x0D05] ++
  [0x0E04, 0x0F01, 0x0F04, 0x1001, 0x1003, 0x1004]

def isQuery (opcode : Nat) : Bool := queryOpcodes.contains opcode

/-- Every opcode of Table 2-19. -/
def knownOpcode (opcode : Nat) : Bool :=
  isStaged opcode || isQuery opcode ||
  [0x0104, 0x0105, 0x0106, 0x0200, 0x0201, 0x0202, 0x0301, 0x0303, 0x0304, 0x0306, 0x0307, 0x0308, 0x0403, 0x0404, 0x0405, 0x0406,
   0x0503, 0x0701, 0x0702, 0x0703, 0x0704, 0x0804, 0x0902, 0x0903, 0x0A02, 0x0A03, 0x0A04, 0x0C03, 0x0C04, 0x0C06, 0x0D01, 0x0D02,
   0x0D03, 0x0E01, 0x0E02, 0x0F03, 0x1000, 0x1002].contains opcode

/-- R703: what a passive module refuses. -/
def passiveRefuses (s : State) (opcode : Nat) (c : HostCmd) : Bool :=
  isPassive s && !(isQuery opcode || decide (opcode / 256 = 0x0F) || decide (opcode / 256 = 0x10) ||
    ([0x0D01, 0x0D02, 0x0D03].contains opcode && bitOf (cfgNow s).pair.axisOwner c.unit))

/-- R704: what the active module journals. GLUEUP is journalled with its effective strip, elsewhere. -/
def journalled (s : State) (opcode : Nat) (c : HostCmd) : Bool :=
  isActive s && !(isQuery opcode || decide (opcode / 256 = 0x0F) ||
    [0x0201, 0x0702, 0x0703, 0x0704, 0x0301, 0x0303, 0x0304, 0x0404, 0x0405, 0x0406].contains opcode ||
    (decide (opcode / 256 = 0x0D) && !bitOf (cfgNow s).pair.axisOwner c.unit))

/-- The Bench cannot serve a command that needs some dies (R540, R554, R566). -/
def benchRefuses (s : State) (dies : List Nat) : Option Verdict :=
  match dies.find? fun c => decide ((vget s.bench.ctl c).state = .frozen) with
  | some c => some (fail stBenchFrozen (entryNoBody (match (vget s.bench.ctl c).capture with | some x => x.faultEntry | none => 0)) s)
  | none =>
    match dies.find? fun c => decide ((vget s.bench.ctl c).state = .fenced) with
    | some c => some (fail stFenced (entryNoBody (match fenceOf s 0x09 c with | some f => f.entry | none => 0)) s)
    | none =>
      if (dies.any fun c => decide ((vget s.bench.ctl c).state = .selfRefresh)) && !s.bench.autoEntered then some (wrongState s)
      else none

/-- A request ends automatic self-refresh: the exit starts (R555). -/
def wakeBench (dies : List Nat) (s : State) : State :=
  if (dies.any fun c => decide ((vget s.bench.ctl c).state = .selfRefresh)) && s.bench.autoEntered then
    { s with bench := { s.bench with exiting := true, lastRequest := s.now } }
  else s

/-- R90: an internal step fails `fails` times. -/
def withStep (sp : CmdSpec) (r : CmdRec) (c : HostCmd) (s : State) (v : Verdict) : Verdict :=
  if c.stepFails = 0 ∨ 0x8000 ≤ v.status then v
  else if c.stepFails = 1 then { v with st := countTransient 2 v.st }
  else
    let u := ((sp.units c).head?).getD (sp.opcode / 256, c.unit)
    let e := endItems u.1 u.2 14 stFenced s
    let f := fenceUnit { unit := u.1, index := u.2, cause := 1, status := stFenced, tickets := e.1 + 1,
                         detail := le 2 sp.opcode ++ zeros 2 ++ le 4 r.tag } e.2
    fail stFenced (entryNoBody f.1) f.2

/-- The verdict on a command at its own module. -/
def judge (sp : CmdSpec) (r : CmdRec) (c : HostCmd) (s : State) : Verdict :=
  if !(sp.need c).2 then fail stBadLength (lengthBody (sp.need c).1 c.paramLen) s
  else if !sp.unitOk s c then fail stBadTarget (targetBody c) s
  else if passiveRefuses s sp.opcode c then wrongState s
  else
    match (sp.units c).findSome? fun u => fenceOf s u.1 u.2 with
    | some f => fail stFenced (entryNoBody f.entry) s
    | none =>
      match benchRefuses s (sp.dies s c) with
      | some v => v
      | none =>
        let s := wakeBench (sp.dies s c) s
        let v := withStep sp r c s (sp.run r c s)
        if v.status = stAccepted ∧ 256 ≤ (s.cmds.filter fun x => x.accepted && decide (x.via ≠ some allModules)).length then busy 4 0 s else v

/-- Run a command here and reply, or keep its place for a reply that follows (R82). -/
def runHere (sp : CmdSpec) (r : CmdRec) (c : HostCmd) (s : State) : State :=
  let v := judge sp r c s
  let s' := if decide (v.status < 0x8000) && journalled v.st sp.opcode c then journal (.command sp.opcode c (u32 v.body 0)) v.st else v.st
  let s' :=
    if v.later then
      let s' := { s' with cmds := s'.cmds ++ [r] }
      if r.via.isNone then setRing r.ring (fun p => { p with posts := p.posts ++ [.waiting r.ticket] }) s' else s'
    else answer r v.status v.body s'
  if v.status < 0x8000 then sp.after s' else s'

/-- Another module that commands reach over the ring. -/
def reachable (s : State) (m : Nat) : Bool :=
  s.ring.modules.any fun x => decide (x.id = some m) && (x.hopsEast.isSome || x.hopsWest.isSome) && !x.forerunner

/-- This module's own ID, when it is numbered (R93). -/
def isOwnId (s : State) (m : Nat) : Bool := s.ring.enumerated && decide (m = s.ring.moduleId)

/-- Forward a packet to its target module (R92). -/
def forwardCmd (r : CmdRec) (c : HostCmd) (s : State) : State :=
  out (.forward c.module r.opcode c)
    { s with ring := { s.ring with forwarded := s.ring.forwarded ++
      [{ ring := r.ring, tag := r.tag, ticket := r.ticket, module := c.module, opcode := r.opcode, irq := r.irq, sentAt := s.now, barrier := r.barrier }] } }

/-- The other modules that a broadcast goes to: those numbered and reachable that are not of the KL640. -/
def otherModules (s : State) : List Nat :=
  (s.ring.modules.filter fun m => (m.hopsEast.isSome || m.hopsWest.isSome) && !m.forerunner).filterMap fun m =>
    m.id.bind fun i => if i = s.ring.moduleId then none else some i

/-- Run a packet whose ticket has been issued (R75, R93, R96). GLUEUP answers ST_BAD_LENGTH before ST_BAD_TARGET (R817). -/
def runCmd (sp : CmdSpec) (r : CmdRec) (c : HostCmd) (s : State) : State :=
  if !lengthsAgree c then answer r stBadLength (lengthBody (min 4080 (packetSlots c * 64 - 16)) c.paramLen) s
  else if decide (sp.opcode = 0x0201) && !(sp.need c).2 then answer r stBadLength (lengthBody (sp.need c).1 c.paramLen) s
  else if c.module = 0xFF ∨ isOwnId s c.module then runHere sp r c s
  else if c.module < 0x40 ∧ reachable s c.module then forwardCmd r c s
  else
    match sp.every with
    | some f => if c.module = allModules then f r c s else answer r stBadTarget (targetBody c) s
    | none => answer r stBadTarget (targetBody c) s

/-- The ticket under which this module keeps its own share of a broadcast: no word of its ledger. -/
def shareTicket (ticket : Nat) : Nat := ticket + 2 ^ 40

/-- The record of this module's own share of a broadcast. -/
def ownShare (r : CmdRec) : CmdRec := { r with ticket := shareTicket r.ticket, irq := false, barrier := false, via := some allModules }

/-- Take a packet of a ring: its ticket is issued, and it runs. Without a free slot the packet stays in its ring (R89). -/
def takeCmd (sp : CmdSpec) (c : HostCmd) (s : State) : State :=
  match issueTicket s with
  | none => s
  | some (w, s) => runCmd sp { ticket := w, ring := c.ring, tag := c.tag, opcode := sp.opcode, irq := c.irq, barrier := c.barrier } c s

/-- A command of its own row: the packet is taken and runs. -/
def execCmd (sp : CmdSpec) (t : Nat) (c : HostCmd) (s : State) : Host.Outcome State Fault Refusal := runFabric t [] s (takeCmd sp c)

end Sys2Proof.Machine
end

