-- ==== Sys2Proof/Machine/PairBase.lean ====
section
/-! DEFINITION. What the members of a redundant pair share with every unit: which stations and axes are this module's own (R701),
what goes to the partner over JM, and the material of the digest of each strip (R706). -/

namespace Sys2Proof.Machine

/-- A module of a pair drives only the axes of its AXIS_OWNER, in every role (R701). -/
def ownsAxis (cfg : Cfg) (a : Nat) : Bool := !cfg.pair.enable || bitOf cfg.pair.axisOwner a

/-- A station on axes of the partner (R701). -/
def shadowStation (cfg : Cfg) (t : Nat) : Bool :=
  let c := vget cfg.station t
  c.enable && (!ownsAxis cfg c.posAxis || (match c.strokeAxis with | some a => !ownsAxis cfg a | none => false))

/-- The roles in which the partner is reached over JM. -/
def paired (s : State) : Bool :=
  isActive s || isPassive s

/-- A mark that became pending or ended is reported to the partner (R701). -/
def reportMark (t : Nat) (m : Mark) (s : State) : State := if paired s then out (.mirrorMark t m) s else s

/-- REL of a queue has changed (Table 16-5). -/
def reportLedger (q : Nat) (s : State) : State :=
  let x := vget s.scribe.queues q
  if isActive s then out (.mirrorLedger q x.rel x.rd x.mkp) s else s

/-- The web line from which a live trim is in force: the next that its unit begins (R17), in a pair the first at least 16 lines
after acceptance (R705). -/
def trimLine (s : State) (next : Nat) : Nat :=
  match s.pair.journalLine with
  | some l => l
  | none => if isActive s then wrap32 (next + 15) else next

/-- Live trims wait for their line in a pair. -/
def trimWaits (s : State) : Bool := s.pair.journalLine.isSome || isActive s

def addTrim (t : Trim) (s : State) : State := { s with pair := { s.pair with trims := s.pair.trims ++ [t] } }

/-- The waiting trims that `due` picks, and the state without them. -/
def takeTrims (due : Trim → Bool) (s : State) : List Trim × State :=
  (s.pair.trims.filter due, { s with pair := { s.pair with trims := s.pair.trims.filter fun t => !due t } })

/-- Work on the digest of a strip. -/
def digestWork (strip : Nat) (f : DigestWork → DigestWork) (s : State) : State :=
  if !paired s then s
  else
    let w := s.pair.work
    let w := if w.any fun x => decide (x.strip = strip) then w else w ++ [({ strip := strip } : DigestWork)]
    { s with pair := { s.pair with work := w.map fun x => if x.strip = strip then f x else x } }

/-- A record placed for a strip, with RECFLAGS bits 5 and 4 read as 0. -/
def digestRecord (strip queue : Nat) (rec_ : Bytes) (s : State) : State :=
  let flags := u8 rec_ 7
  let plain := flags - flagBit (bitOf flags 5) 5 - flagBit (bitOf flags 4) 4
  digestWork strip (fun w => { w with recs := w.recs ++ [(queue, rec_.take 7 ++ le 1 plain ++ rec_.drop 8)] }) s

/-- A region slot in the digest; states FREE, OPEN and PENDING count 0, 1 and 2 (DESIGN CHOICE, assumption 61). -/
def digestRegion (r : Region) : Bytes :=
  le 4 r.id ++ le 1 (if r.pending then 2 else 1) ++ le 4 (min r.feat.area 0xFFFFFFFF) ++ le 4 r.feat.firstLine ++ le 4 r.lastRun

/-- The region table at the end of a strip. -/
def digestRegions (strip : Nat) (regions : List Region) (s : State) : State :=
  let rs := sortBy (fun a b : Region => decide (regionSlot a.id < regionSlot b.id)) regions
  digestWork strip (fun w => { w with regions := some (rs.flatMap digestRegion) }) s

/-- A web line of a slot that is a gap. -/
def digestGap (strip slot : Nat) (s : State) : State :=
  digestWork strip (fun w => { w with gaps := sset w.gaps slot (sget w.gaps slot 0 + 1) 0 }) s

end Sys2Proof.Machine
end

