-- ==== Sys2Proof/Machine/MarquetryCalc.lean ====
section
/-! DEFINITION. Marquetry's arithmetic and its work on one web line: class tests (R381 to R384), run coding (R385,
R386), connection, opening, merging, cutting and closing of regions (R388 to R400), features (R401 to R404),
classification (R405, R406) and edge messages (R413 to R419). -/

namespace Sys2Proof.Machine

/-- Rounded division of Table 8-3: floor((2n + d) / (2d)). -/
def divRound (n : Int) (d : Nat) : Int := if d = 0 then 0 else Int.fdiv (2 * n + d) (2 * d)

/-- Whether an enabled class hits a sample (R381); `bg` is the background entry, none where there is none (R383). -/
def classHits (c : ClassCfg) (bg : Option Nat) (v : Nat) : Bool :=
  let test (q : Int) : Bool := if c.outside then decide (q < c.low) || decide (c.high < q) else decide (c.low ≤ q) && decide (q ≤ c.high)
  match c.op, bg with
  | 0, _ => test v
  | _, none => false
  | 1, some b => test ((v : Int) - b)
  | _, some b => test (if b = 0 then 65535 else ((min 65535 ((v * 4096 + b / 2) / b) : Nat) : Int))

/-- The class mask of a column (R384). `vals` and `bgs` give, per field, the sample (none where it is void) and the background
entry. -/
def classMask (classes : Vector ClassCfg 16) (vals bgs : List (Option Nat)) : Nat :=
  (List.range 16).foldl (fun m i =>
    let c := vget classes i
    let hit := match vals.getD c.field none with | some v => classHits c (bgs.getD c.field none) v | none => false
    m + flagBit (c.enable && hit) i) 0

/-- A run of a line: START, END and MASK, local columns (R385). -/
structure Run where
  start : Nat := 0
  stop : Nat := 0
  mask : Nat := 0
  deriving DecidableEq, Repr, Inhabited

/-- Run coding of a line's masks from column `c` (R385). -/
def codeRuns : List Nat → Nat → List Run
  | [], _ => []
  | m :: rest, c =>
    let more := codeRuns rest (c + 1)
    if m = 0 then more
    else
      match more with
      | r :: rs => if r.start = c + 1 ∧ r.mask = m then { start := c, stop := r.stop, mask := m } :: rs else { start := c, stop := c, mask := m } :: r :: rs
      | [] => [{ start := c, stop := c, mask := m }]

/-- The run limit of R386. -/
def runLimit : Nat := 65536

/-- R388 for two runs given as local spans and lines. -/
def runsConnect (gc gl : Nat) (n : Nat) (rs re : Int) (m : Nat) (ss se : Int) : Bool :=
  let dn := sdiff32 n m
  decide (0 ≤ dn) && decide (dn ≤ gl + 1) && (decide (dn ≠ 0) || decide (ss < rs)) &&
    decide (rs ≤ se + 1 + gc) && decide (ss ≤ re + 1 + gc)

/-- A part's sums referred to a first line `d` lines earlier. -/
def featShift (d : Nat) (f : Feat) : Feat :=
  { f with sl := f.sl + d * f.area, sll := f.sll + 2 * d * f.sl + d * d * f.area, scl := f.scl + d * f.sc }

/-- Union of two parts (R404). An empty part leaves the other as it is. -/
def featCombine (a b : Feat) : Feat :=
  if a.area = 0 then { b with perim := a.perim + b.perim }
  else if b.area = 0 then { a with perim := a.perim + b.perim }
  else
    let bEarlier := later32 a.firstLine b.firstLine
    let e := if bEarlier then b else a
    let o := if bEarlier then a else b
    let o := featShift (sdiff32 o.firstLine e.firstLine).toNat o
    let lastB := later32 b.lastLine a.lastLine
    { area := e.area + o.area, minCol := min e.minCol o.minCol, maxCol := max e.maxCol o.maxCol,
      firstLine := e.firstLine, firstPos := e.firstPos, firstStime := e.firstStime,
      lastLine := if lastB then b.lastLine else a.lastLine, lastPos := if lastB then b.lastPos else a.lastPos,
      sc := e.sc + o.sc, scc := e.scc + o.scc, sl := e.sl + o.sl, sll := e.sll + o.sll, scl := e.scl + o.scl, isum := e.isum + o.isum,
      imin := min e.imin o.imin, imax := max e.imax o.imax, perim := e.perim + o.perim,
      votes := (List.range 16).map fun i => e.votes.getD i 0 + o.votes.getD i 0, maskOr := e.maskOr ||| o.maskOr }

/-- What Marquetry knows of the web line it processes. -/
structure SegLine where
  n : Nat := 0
  pos : Int := 0
  stime : Nat := 0
  base : Nat := 0
  columns : Nat := 0
  exporting : Bool := false
  eastUp : Bool := true
  cfg : RegionCfg := {}
  rules : Vector RuleCfg 64 := .replicate 64 {}
  shift : Nat := 8
  /-- Samples of the INT_FIELD plane. -/
  ints : Array Nat := #[]
  deriving DecidableEq, Repr

/-- The features of one run (R401). -/
def runFeat (l : SegLine) (r : Run) : Feat :=
  let cs := (List.range (r.stop + 1 - r.start)).map fun i => l.base + r.start + i
  let vs := (List.range (r.stop + 1 - r.start)).map fun i => l.ints.getD (r.start + i) 0
  { area := cs.length, minCol := l.base + r.start, maxCol := l.base + r.stop, firstLine := l.n, lastLine := l.n, firstPos := l.pos,
    lastPos := l.pos, firstStime := l.stime, sc := cs.sum, scc := (cs.map fun c => c * c).sum, isum := vs.sum,
    imin := vs.foldl min 0x3FFFF, imax := vs.foldl max 0,
    votes := (List.range 16).map fun i => if bitOf r.mask i then cs.length else 0, maskOr := r.mask }

/-- Bits of Table 8-4 that Marquetry sets itself. -/
def rfContinued : Nat := 2 ^ 7
def rfSuccessor : Nat := 2 ^ 8
def rfChainMerged : Nat := 2 ^ 9
def rfFlushed : Nat := 2 ^ 10
def rfBoundary : Nat := 2 ^ 12
def rfFragmentLost : Nat := 2 ^ 13
def rfLocalBoundary : Nat := 2 ^ 14
def rfRunLimit : Nat := 2 ^ 15

/-- RFLAGS bits 0 to 6 of a line's SFLAGS (Table 8-4): DROPPED takes in IMPORT_MISSING. -/
def lineRflags (sflags : Nat) : Nat := (sflags % 128) ||| flagBit (bitOf sflags 7) 3

/-- The OR of the line flags from one line to another (R403). -/
def flagsOver (lf : List (Nat × Nat)) (first last : Nat) : Nat :=
  lf.foldl (fun m e => if 0 ≤ sdiff32 e.1 first ∧ 0 ≤ sdiff32 last e.1 then m ||| e.2 else m) 0

def regionOf? (m : Marquetry) (id : Nat) : Option Region := m.regions.find? fun r => decide (r.id = id)

def updRegion (m : Marquetry) (id : Nat) (f : Region → Region) : Marquetry :=
  { m with regions := m.regions.map fun r => if r.id = id then f r else r }

/-- Free a region's slot and raise its generation modulo 2^15 (R393, R394). -/
def freeRegion (m : Marquetry) (id : Nat) : Marquetry :=
  let slot := regionSlot id
  { m with regions := m.regions.filter fun r => decide (r.id ≠ id), gens := sset m.gens slot ((sget m.gens slot 0 + 1) % 2 ^ 15) 0 }

/-- The lowest FREE slot of the 131,072 (R392). Regions are kept in slot order. -/
def lowestFreeFrom (k : Nat) : List Region → Nat
  | [] => k
  | r :: rest => if regionSlot r.id = k then lowestFreeFrom (k + 1) rest else k

def lowestFree (m : Marquetry) : Option Nat :=
  let k := lowestFreeFrom 0 m.regions
  if k < 131072 then some k else none

def insertRegion (r : Region) (l : List Region) : List Region := insertBy (fun a b => decide (regionSlot a.id < regionSlot b.id)) r l

/-- Take a region's runs out of the window (R389). -/
def dropRuns (m : Marquetry) (id : Nat) : Marquetry := { m with window := m.window.filter fun w => w.ghost || decide (w.region ≠ id) }

/-- The value of a rule feature (Table 8-5). -/
def ruleFeature (i : ClosedItem) (code : Nat) : Nat :=
  let f := i.feat
  let width := f.maxCol - f.minCol + 1
  let length := (sdiff32 f.lastLine f.firstLine).toNat + 1
  let dom := (List.range 16).foldl (fun d k => if f.votes.getD d 0 < f.votes.getD k 0 then k else d) 0
  match code with
  | 0 => min f.area 0xFFFFFFFF
  | 1 => width
  | 2 => length
  | 3 => f.imin
  | 4 => f.imax
  | 5 => (divRound f.isum f.area).toNat
  | 6 => f.perim
  | 7 => f.area * 1000000 / (width * length)
  | 8 => min 0xFFFFFFFF (1000 * length / width)
  | 9 => if f.area = 0 then 0 else f.votes.getD dom 0 * 1000000 / f.area
  | 10 => dom
  | 11 => (divRound (64 * f.sc) f.area).toNat / 64
  | _ => i.chainIndex

/-- R406. -/
def ruleMatches (r : RuleCfg) (i : ClosedItem) : Bool :=
  let m := i.feat.maskOr
  (decide (r.maskAny = 0) || decide (m &&& r.maskAny ≠ 0)) && (decide (m &&& r.maskAll = r.maskAll)) &&
  (decide (r.maskNone = 0) || decide (m &&& r.maskNone = 0)) && (decide (r.flagsAny = 0) || decide (i.rflags &&& r.flagsAny ≠ 0)) &&
  (decide (r.flagsNone = 0) || decide (i.rflags &&& r.flagsNone = 0)) &&
  r.tests.all fun t =>
    match t.feature with
    | none => true
    | some c => inRange t.min t.max (ruleFeature i c)

/-- R405: the first enabled rule that matches, else the defaults. -/
def classify (rules : Vector RuleCfg 64) (dflt : Decision) (i : ClosedItem) : Decision :=
  match rules.toList.find? fun r => r.enable && ruleMatches r i with
  | some r => r.decision
  | none => { dflt with rule := 64 }

/-- The item a region closes as, before classification; `extra` are flags of this close. -/
def itemOf (m : Marquetry) (n : Nat) (extra : Nat) (r : Region) : ClosedItem :=
  { id := r.id, chainId := r.chainId, chainIndex := r.chainIndex, feat := r.feat, closeLine := n, lastRun := r.lastRun, boundary := r.boundary,
    rflags := r.flags ||| extra ||| flagBit (decide (0 < r.chainIndex)) 8 ||| flagsOver m.lineFlags r.feat.firstLine r.feat.lastLine }

/-- The effects a line of Marquetry has outside its own state. -/
structure SegOut where
  items : List ClosedItem := []
  renames : List (Nat × Nat) := []
  cut : Bool := false
  /-- Runs of the line before, each with the part that its boundary samples belong to. -/
  owners : List (WinRun × Nat) := []
  flushed : Bool := false
  linksLost : Bool := false
  /-- The edge runs of the line with their regions at its end (R413, R414). -/
  edgeRuns : List EdgeRun := []
  deriving DecidableEq, Repr, Inhabited

/-- Marquetry with the parts closed so far on this line. -/
structure SegWork where
  m : Marquetry := {}
  out : SegOut := {}
  deriving DecidableEq, Repr, Inhabited

/-- Merge region `b` into region `a`, which survives (R393). -/
def mergeRegion (w : SegWork) (a b : Nat) : SegWork :=
  match regionOf? w.m a, regionOf? w.m b with
  | some ra, some rb =>
    let joined : Region :=
      { ra with
        feat := featCombine ra.feat rb.feat
        lastRun := if later32 rb.lastRun ra.lastRun then rb.lastRun else ra.lastRun
        pending := ra.pending && rb.pending
        links := ra.links ++ rb.links.filter fun i => decide (i ∉ ra.links)
        flags := (ra.flags ||| (rb.flags &&& (2 ^ 16 - 1 - rfSuccessor))) ||| (if 0 < rb.chainIndex then rfChainMerged else 0)
        boundary := ra.boundary || rb.boundary }
    let m := freeRegion w.m b
    let m := updRegion m a fun _ => joined
    let m := { m with window := m.window.map fun x => if !x.ghost && decide (x.region = b) then { x with region := a } else x,
                      cnt := { m.cnt with merges := wrap32 (m.cnt.merges + 1) } }
    { m, out := { w.out with
        renames := if rb.boundary then w.out.renames ++ [(b, a)] else w.out.renames
        owners := w.out.owners.map fun o => if o.2 = b then (o.1, a) else o } }
  | _, _ => w

/-- Cut region `id` at line n (R395): the successor keeps slot, chain, runs, links and LAST_RUN. Returns the new ID. -/
def cutRegion (w : SegWork) (n id : Nat) : SegWork × Nat :=
  match regionOf? w.m id with
  | none => (w, id)
  | some r =>
    let slot := regionSlot id
    let gen := (sget w.m.gens slot 0 + 1) % 2 ^ 15
    let nid := regionId gen slot
    let item := itemOf w.m n rfContinued r
    let succ : Region :=
      { id := nid, chainId := r.chainId, chainIndex := min 65535 (r.chainIndex + 1), feat := { firstLine := n, lastLine := n }, lastRun := r.lastRun,
        links := r.links, pending := false, flags := 0, boundary := r.boundary }
    let m := { w.m with
      regions := w.m.regions.map fun x => if x.id = id then succ else x
      gens := sset w.m.gens slot gen 0
      window := w.m.window.map fun x => if !x.ghost && decide (x.region = id) then { x with region := nid } else x
      cnt := { w.m.cnt with cuts := wrap32 (w.m.cnt.cuts + 1) } }
    ({ m, out := { w.out with items := w.out.items ++ [item], cut := true } }, nid)

/-- Add a segmented run to a region (R391): features, window, LAST_RUN, links to the ghost runs it met (R417). -/
def joinRun (l : SegLine) (w : SegWork) (id : Nat) (r : Run) (ghosts : List Nat) : SegWork :=
  let edge := l.exporting && decide (l.columns ≤ r.stop + 1 + l.cfg.gc)
  let m := updRegion w.m id fun x =>
    { x with feat := featCombine x.feat (runFeat l r), lastRun := l.n, links := x.links ++ ghosts.filter (fun g => decide (g ∉ x.links)),
             boundary := x.boundary || edge }
  { w with m := { m with window := m.window ++ [{ line := l.n, start := r.start, stop := r.stop, mask := r.mask, region := id }] } }

/-- Refuse a run for want of a slot (R396). -/
def overflowRun (l : SegLine) (w : SegWork) (r : Run) : SegWork :=
  let strip := l.n / 2 ^ l.shift
  let o := match w.m.overflow with
    | some o => if o.strip = strip then o else { strip, minCol := l.base + r.start, maxCol := l.base + r.stop }
    | none => { strip, minCol := l.base + r.start, maxCol := l.base + r.stop }
  let len := r.stop + 1 - r.start
  { w with m := { w.m with
      overflow := some { o with runs := o.runs + 1, samples := o.samples + len, minCol := min o.minCol (l.base + r.start),
                                maxCol := max o.maxCol (l.base + r.stop) }
      cnt := { w.m.cnt with ovfSamples := wrap32 (w.m.cnt.ovfSamples + len) } } }

/-- One segmented run of line n (the loop body of R391). -/
def segRun (l : SegLine) (w : SegWork) (r : Run) : SegWork :=
  let near := w.m.window.filter fun s => runsConnect l.cfg.gc l.cfg.gl l.n r.start r.stop s.line s.start s.stop
  let ghosts := ((near.filter (·.ghost)).map (·.region)).dedup
  let ids := ((near.filter fun s => !s.ghost).map (·.region)).dedup
  let open_ := ids.filter fun i => match regionOf? w.m i with | some x => !x.pending | none => false
  let sorted := sortBy (fun a b => decide (a < b)) open_
  -- cuts, in ascending region ID; a cut region is replaced by its successor
  let cutStep (acc : SegWork × List Nat) (i : Nat) : SegWork × List Nat :=
    match regionOf? acc.1.m i with
    | some x => if (l.cfg.lmax : Int) ≤ sdiff32 l.n x.feat.firstLine then let c := cutRegion acc.1 l.n i; (c.1, acc.2 ++ [c.2]) else (acc.1, acc.2 ++ [i])
    | none => acc
  let (w, cands) := sorted.foldl cutStep (w, [])
  match sortBy (fun a b => decide (a < b)) cands with
  | [] =>
    match lowestFree w.m with
    | none => overflowRun l w r
    | some slot =>
      let id := regionId (sget w.m.gens slot 0) slot
      let m := { w.m with
        highWater := max w.m.highWater (w.m.regions.length + 1)
        regions := insertRegion { id, chainId := id, feat := { firstLine := l.n, lastLine := l.n }, lastRun := l.n } w.m.regions
        cnt := { w.m.cnt with opened := wrap32 (w.m.cnt.opened + 1) } }
      joinRun l { w with m } id r ghosts
  | s :: others => joinRun l (others.foldl (fun w b => mergeRegion w s b) w) s r ghosts

/-- Whether a column lies in one of the spans. -/
def spanHas (spans : List (Nat × Nat)) (c : Nat) : Bool := spans.any fun s => decide (s.1 ≤ c) && decide (c ≤ s.2)

/-- The boundary samples of one run (R402): samples whose four neighbours are not all segmented. Spans are web-wide, the run
local; a neighbour outside the local grid is not segmented. -/
def perimOf (base cols : Nat) (above here below : List (Nat × Nat)) (r : WinRun) : Nat :=
  ((List.range (r.stop - r.start + 1).toNat).filter fun i =>
    let lc := r.start.toNat + i
    let c := base + lc
    !(decide (0 < lc) && spanHas here (c - 1) && decide (lc + 1 < cols) && spanHas here (c + 1) && spanHas above c && spanHas below c)).length

/-- The spans kept for a line; none kept is no segmented sample. -/
def spansAt (m : Marquetry) (n : Nat) : List (Nat × Nat) :=
  match m.spans.find? fun s => decide (s.1 = n) with
  | some s => s.2
  | none => []

/-- The own segmented runs of a line in the window. -/
def ownRuns (m : Marquetry) (n : Nat) : List WinRun := m.window.filter fun w => !w.ghost && decide (w.line = n)

def runSpans (base : Nat) (rs : List WinRun) : List (Nat × Nat) := rs.map fun w => (base + w.start.toNat, base + w.stop.toNat)

/-- Give a part's boundary count to the region or the item that owns it. -/
def addPerim (w : SegWork) (id count : Nat) : SegWork :=
  { m := updRegion w.m id fun r => { r with feat := { r.feat with perim := r.feat.perim + count } }
    out := { w.out with items := w.out.items.map fun i => if i.id = id then { i with feat := { i.feat with perim := i.feat.perim + count } } else i } }

/-- Count the boundary samples of line `n - 1` once line `n` is segmented (R402). -/
def settlePerim (l : SegLine) (w : SegWork) : SegWork :=
  let n := l.n
  let prev := wrap32 (n + 2 ^ 32 - 1)
  let here := spansAt w.m prev
  let above := spansAt w.m (wrap32 (prev + 2 ^ 32 - 1))
  let below := runSpans l.base (ownRuns w.m n)
  w.out.owners.foldl (fun w o => addPerim w o.2 (perimOf l.base l.columns above here below o.1)) w

/-- Start of line n (R391): the renames of the edge message (R416) and its ghost runs (R417); a missing message drops every
link held (R419). -/
def startLine (l : SegLine) (msg : Option EdgeMsg) (missing : Bool) (m : Marquetry) : SegWork :=
  let m := { m with window := m.window.filter fun w => decide (sdiff32 l.n w.line ≤ 64) }
  let owners := (ownRuns m (wrap32 (l.n + 2 ^ 32 - 1))).map fun w => (w, w.region)
  match msg with
  | some e =>
    let ren (id : Nat) : Nat := e.renames.foldl (fun i r => if i = r.1 then r.2 else i) id
    let ghosts := e.runs.map fun g =>
      { line := l.n, start := (g.start : Int) - l.base, stop := (g.stop : Int) - l.base, mask := g.mask, region := g.region, ghost := true : WinRun }
    { m := { m with
        window := (m.window.map fun w => if w.ghost then { w with region := ren w.region } else w) ++ ghosts
        regions := m.regions.map fun r => { r with links := (r.links.map ren).dedup } }
      out := { owners } }
  | none =>
    if missing then
      let lost := (m.regions.map fun r => r.links.length).sum
      { m := { m with
          window := m.window.filter fun w => !w.ghost
          regions := m.regions.map fun r => if r.links.isEmpty then r else { r with links := [], flags := r.flags ||| rfFragmentLost }
          cnt := { m.cnt with linksLost := wrap32 (m.cnt.linksLost + lost) } }
        out := { owners, linksLost := decide (0 < lost) } }
    else { m, out := { owners } }

/-- Close one region at the end of line n (R394): its runs leave the window, its slot is freed. -/
def closeRegion (l : SegLine) (extra : Nat) (w : SegWork) (r : Region) : SegWork :=
  let item := itemOf w.m l.n extra r
  { m := freeRegion (dropRuns w.m r.id) r.id, out := { w.out with items := w.out.items ++ [item] } }

/-- One fragment of the edge message of line n (R418). -/
def applyFragment (l : SegLine) (w : SegWork) (f : Fragment) : SegWork :=
  let m := { w.m with cnt := { w.m.cnt with fragApplied := wrap32 (w.m.cnt.fragApplied + 1) } }
  let w := { w with m }
  let ts := (w.m.regions.filter fun r => decide (f.id ∈ r.links)).map (·.id)
  match sortBy (fun a b => decide (a < b)) ts with
  | [] =>
    let item : ClosedItem :=
      { id := f.id, chainId := f.chainId, chainIndex := f.chainIndex, feat := f.feat, rflags := f.rflags ||| rfBoundary, closeLine := l.n,
        lastRun := f.lastRun, boundary := false }
    { w with out := { w.out with items := w.out.items ++ [item] } }
  | s :: others =>
    let w := others.foldl (fun w b => mergeRegion w s b) w
    let m := { w.m with regions := w.m.regions.map fun r => { r with links := r.links.filter (decide <| · ≠ f.id) } }
    let m := updRegion m s fun r =>
      { r with feat := featCombine r.feat f.feat, flags := r.flags ||| (f.rflags &&& (2 ^ 16 - 1 - rfSuccessor)) ||| rfBoundary }
    let w := { w with m }
    match regionOf? w.m s with
    | some r => if r.pending && r.links.isEmpty then closeRegion l 0 w r else w
    | none => w

/-- The closings at the end of line n (R394): an OPEN region whose last run lies Gl + 1 lines back closes, or becomes PENDING
while links remain; a PENDING region without links closes (R419). -/
def closeDue (l : SegLine) (w : SegWork) : SegWork :=
  w.m.regions.foldl (fun w r =>
    if r.pending then (if r.links.isEmpty then closeRegion l 0 w r else w)
    else if ((l.cfg.gl : Int) + 1) ≤ sdiff32 l.n r.lastRun then
      if r.links.isEmpty then closeRegion l 0 w r
      else { w with m := updRegion (dropRuns w.m r.id) r.id fun x => { x with pending := true } }
    else w) w

/-- A flush at the end of line n (R400). -/
def flushAll (l : SegLine) (w : SegWork) : SegWork :=
  -- the last line's boundary samples: no later line is processed
  let here := spansAt w.m l.n
  let above := spansAt w.m (wrap32 (l.n + 2 ^ 32 - 1))
  let w := (ownRuns w.m l.n).foldl (fun w r => addPerim w r.region (perimOf l.base l.columns above here [] r)) w
  let n := w.m.regions.length
  let w := w.m.regions.foldl (fun w r => closeRegion l (rfFlushed ||| if r.links.isEmpty then 0 else rfFragmentLost) w r) w
  { m := { w.m with window := [], cnt := { w.m.cnt with flushed := wrap32 (w.m.cnt.flushed + n) } }, out := { w.out with flushed := true } }

/-- Keep what R402 and R403 need of this line. -/
def noteLine (l : SegLine) (rflags : Nat) (m : Marquetry) : Marquetry :=
  let spans := (l.n, runSpans l.base (ownRuns m l.n)) :: m.spans.take 1
  { m with spans, lineFlags := if rflags = 0 then m.lineFlags else m.lineFlags ++ [(l.n, rflags)] }

/-- Drop line flags that no open region reaches (R403). -/
def pruneFlags (m : Marquetry) : Marquetry :=
  { m with lineFlags := m.lineFlags.filter fun e => m.regions.any fun r => decide (0 ≤ sdiff32 e.1 r.feat.firstLine) }

/-- The runs a line segments (R386): at most 65,536, and what the limit refused. -/
def limitRuns (rs : List Run) : List Run × Nat × Bool :=
  let refused := rs.drop runLimit
  (rs.take runLimit, (refused.map fun r => r.stop + 1 - r.start).sum, !refused.isEmpty)

/-- The whole of R391 on one web line: start, runs, fragments, closings and, when asked, the flush. -/
def segmentLine (l : SegLine) (rflags : Nat) (runs : List Run) (msg : Option EdgeMsg) (missing flush : Bool) (m : Marquetry) : SegWork :=
  let lim := limitRuns runs
  let w := startLine l msg missing m
  let w := lim.1.foldl (segRun l) w
  let w := settlePerim l w
  let w := { w with m := noteLine l rflags w.m }
  let w := if lim.2.2 then
      { w with m := { w.m with
          regions := w.m.regions.map fun r => if r.pending then r else { r with flags := r.flags ||| rfRunLimit }
          cnt := { w.m.cnt with runLimitLines := wrap32 (w.m.cnt.runLimitLines + 1), runLimitSamples := wrap32 (w.m.cnt.runLimitSamples + lim.2.1) } } }
    else w
  let w := match msg with
    | some e => (sortBy (fun a b : Fragment => decide (a.id < b.id)) e.fragments).foldl (applyFragment l) w
    | none => w
  let w := closeDue l w
  let edge := (ownRuns w.m l.n).filter fun r => l.exporting && decide ((l.columns : Int) ≤ r.stop + 1 + l.cfg.gc)
  let w := { w with out := { w.out with
    edgeRuns := edge.map fun r => { start := l.base + r.start.toNat, stop := l.base + r.stop.toNat, mask := r.mask, region := r.region } } }
  let w := if flush then flushAll l w else w
  { w with m := pruneFlags { w.m with last := some l.n } }

/-- The re-arm level of R398. -/
def rearmLevel (warn : Nat) : Nat := max (warn - 4096) (warn / 2)

/-- The hand-over order of R411. -/
def itemBefore (a b : ClosedItem) : Bool :=
  decide (a.feat.minCol < b.feat.minCol) || (decide (a.feat.minCol = b.feat.minCol) &&
    (later32 b.feat.firstLine a.feat.firstLine || (decide (a.feat.firstLine = b.feat.firstLine) && decide (a.id < b.id))))

/-- Derived figures of Table 8-3. -/
def centCol (f : Feat) : Nat := (divRound (64 * f.sc) f.area).toNat
def centLine (f : Feat) : Nat := (divRound (64 * f.sl) f.area).toNat
def momentXX (f : Feat) : Int := divRound (65536 * ((f.area : Int) * f.scc - (f.sc : Int) ^ 2)) (f.area ^ 2)
def momentYY (f : Feat) : Int := divRound (65536 * ((f.area : Int) * f.sll - (f.sl : Int) ^ 2)) (f.area ^ 2)
def momentXY (f : Feat) : Int := divRound (65536 * ((f.area : Int) * f.scl - (f.sc : Int) * f.sl)) (f.area ^ 2)
def imeanOf (f : Feat) : Nat := (divRound f.isum f.area).toNat

/-- The counter block of Table 8-17. -/
def marqCounterBytes (c : MarqCounters) : Bytes :=
  ([c.opened, c.closed, c.merges, c.cuts, c.flushed, c.ovfSamples, c.ovfStrips, c.runLimitLines, c.runLimitSamples, c.suppressed, c.handed,
    c.fragSent, c.fragApplied, c.fragLocal, c.edgeMissing, c.linksLost, c.lateWrites, c.alarms].flatMap (le 4)) ++ zeros 8

end Sys2Proof.Machine
end

