-- ==== Sys2Proof/Machine/ScribeCalc.lean ====
section
/-! DEFINITION. The Scribe's arithmetic: record layouts (Tables 9-1 to 9-3), patch boxes and rows (R446, R447), the patch
header (Table 9-5) and mark timing (R454 to R456). -/

namespace Sys2Proof.Machine

/-- CAP of R432. -/
def queueCap (bodyKib : Nat) : Nat := bodyKib * 16

/-- The record header of Table 9-1. -/
def recHeader (seq kind rule grade flags : Nat) : Bytes := le 4 seq ++ le 1 kind ++ le 1 rule ++ le 1 grade ++ le 1 flags

/-- Bytes 8 to 63 of a DEFECT record (Table 9-2). -/
def defectBody (i : ClosedItem) : Bytes :=
  let f := i.feat
  le 4 i.id ++ le 4 i.chainId ++ leI 8 f.firstPos ++ le 4 f.firstLine ++ le 4 f.lastLine ++ le 4 f.minCol ++ le 4 f.maxCol ++
  le 4 (centCol f) ++ le 4 (min f.area 0xFFFFFFFF) ++ le 2 i.chainIndex ++ le 2 i.decision.type ++ le 2 i.rflags ++ le 2 f.maskOr ++
  le 4 f.firstStime ++ le 4 (imeanOf f)

/-- Bytes 8 to 63 of an OVERFLOW record (Table 9-3). -/
def overflowBody (o : Overflow) : Bytes :=
  le 4 o.strip ++ zeros 8 ++ le 4 o.runs ++ le 4 o.samples ++ le 4 o.minCol ++ le 4 o.maxCol ++ zeros 24

/-- Bytes 8 to 63 of a CAM_EVENT record (Table 9-3): a packet's EVENT_ID, NAMESPACE, time stamp and data. -/
def camEventBody (strip slot eventId ns time : Nat) (data : Bytes) : Bytes :=
  le 4 strip ++ le 1 slot ++ zeros 1 ++ le 2 eventId ++ le 2 ns ++ le 2 data.length ++ zeros 12 ++ le 8 time ++ padTo 24 data

/-- RECFLAGS of Table 9-1. -/
def recFlags (mark patch alarm noMark noPatch : Bool) : Nat :=
  flagBit true 7 + flagBit noMark 5 + flagBit noPatch 4 + flagBit mark 3 + flagBit patch 2 + flagBit alarm 1

def recGrade (station severity : Nat) : Nat := station % 4 * 16 + severity % 8

/-- Order of items within one strip and queue (R429); equals keep their order of arrival. -/
def itemOrder (a b : ScribeItem) : Bool :=
  let ka := recKindOrder a.kind
  let kb := recKindOrder b.kind
  decide (ka < kb) || (decide (ka = kb) && decide (2 ≤ ka) &&
    (decide (a.slot < b.slot) || (decide (a.slot = b.slot) && decide (ka = 2) && decide (a.field < b.field))))

/-- The bytes of one packed patch row (R447). -/
def patchRowBytes (cols : Nat) : Nat := ceilDiv (cols * 18) 32 * 4

/-- The uncompressed limit of R447. -/
def patchLimit : Nat := 4194304

/-- Whole web lines that fit R447's limit. -/
def patchLines (cols fieldCount lines : Nat) : Nat :=
  let per := fieldCount * patchRowBytes cols
  if lines * per ≤ patchLimit then lines else patchLimit / per

/-- The patch header of Table 9-5. -/
def patchHeader (j : PatchJob) (raw packed : Nat) : Bytes :=
  let f := j.item.feat
  le 2 192 ++ le 1 1 ++ le 1 (flagBit j.truncated 2 + flagBit j.clipCols 1 + flagBit j.clipLines 0) ++ le 1 j.queue ++ le 1 j.level ++
  le 1 j.fields ++ zeros 1 ++ le 4 j.seq ++ le 4 j.item.id ++ le 4 j.firstCol ++ le 4 j.cols ++ le 4 j.firstLine ++ le 4 j.lines ++
  le 4 raw ++ le 4 packed ++ le 8 f.isum ++ le 4 f.imin ++ le 4 f.imax ++ leI 8 (momentXX f) ++ leI 8 (momentYY f) ++ leI 8 (momentXY f) ++
  le 4 f.perim ++ le 4 (centLine f) ++ leI 8 f.lastPos ++ le 4 j.item.closeLine ++
  ((List.range 16).flatMap fun i => le 4 (min (f.votes.getD i 0) 0xFFFFFFFF)) ++ zeros 28

/-- The target of R454; the shift is arithmetic. -/
def markTarget (c : StationCfg) (centColQ : Nat) : Int := c.colOrigin + ((centColQ : Int) * c.colScale + 2 ^ 21) >>> 22

/-- The least whole n with n ≥ c + sqrt x, for rationals of µs and µs². -/
def ceilRootPlus (x c : Rat) : Nat :=
  let r := isqrt x.floor.toNat
  let n := (c + (r : Rat)).ceil.toNat
  if x ≤ ((n : Rat) - c) * ((n : Rat) - c) ∧ c ≤ (n : Rat) then n else n + 1

/-- T(d) of R455 in whole µs, from VMAX, ACCEL, DECEL and JERK of the axis (JERK 0 is no limit). -/
def moveTime (v a d j dist : Nat) : Nat :=
  if dist = 0 ∨ v = 0 ∨ a = 0 ∨ d = 0 then 0
  else
    let V : Rat := v; let A : Rat := a; let D : Rat := d; let M : Rat := 1000000
    let jerk : Rat := if j = 0 then 0 else (A / j + D / j) * M
    if V * V / (2 * A) + V * V / (2 * D) ≤ (dist : Rat) then
      (((dist : Rat) / V + V / (2 * A) + V / (2 * D)) * M + jerk).ceil.toNat
    else ceilRootPlus (2 * dist * (A + D) / (A * D) * M * M) jerk

/-- need (µs) exceeds W of a span of web position (R455, R456). -/
def needExceeds (need : Nat) (span : Int) (rate : Nat) : Bool := decide (span * 1000000 < (need : Int) * 65536 * rate)

/-- A mark entry of QUEUE_STATUS (Table 9-11). -/
def markEntry (m : Mark) : Bytes :=
  le 4 m.ticket ++ le 1 m.queue ++ le 1 (markStateCode m.state) ++ le 1 (markCauseCode m.cause) ++ zeros 1 ++ le 4 m.seq ++ leI 4 m.tgt ++
  leI 8 m.fire ++ zeros 8

def queueCounterBytes (c : QueueCounters) : Bytes :=
  [c.written, c.released, c.lost, c.unreadLost, c.emptyReads, c.rewinds, c.markLosses, c.patchesCut, c.patchesLost, c.truncated, c.noPatch,
   c.offDiscards].flatMap (le 4)

def stationCounterBytes (c : StationCounters) : Bytes :=
  [c.scheduled, c.fired, c.tooLate, c.outOfTravel, c.scheduleFull, c.axisDown, c.withdrawn, c.partnerLost, c.notScheduled].flatMap (le 4)

end Sys2Proof.Machine
end

