-- ==== Sys2Proof/Machine/AxisOps.lean ====
section
/-! DEFINITION. The motion of the marker axes ("Marker axes", R620 to R653): targets, stops, strokes, gearing, homing, limits,
protections, standstill and the safe-stop. -/

namespace Sys2Proof.Machine

/-! ### Settings and readings -/

/-- AXIS_CONFIG of a configuration: an axis of the partner stays DISABLED whatever it stages (R701). -/
def axisIn (cfg : Cfg) (a : Nat) : AxisCfg := if ownsAxis cfg a then vget cfg.axis a else { vget cfg.axis a with enable := false }

/-- The AXIS_CONFIG in force: the one from before a glue-up until the axis rests (R649). -/
def axisCfg (s : State) (a : Nat) : AxisCfg :=
  match (vget s.axes.ax a).held with
  | some c => c.1
  | none => axisIn (cfgNow s) a

def standCfg (s : State) (a : Nat) : StandCfg :=
  match (vget s.axes.ax a).held with
  | some c => c.2
  | none => vget (cfgNow s).stand a

def axisPos (x : Axis) : Int := intPart x.xq

/-- The marker station that uses an axis, and whether as its stroke axis. -/
def stationUse (cfg : Cfg) (a : Nat) : Option (Nat × Bool) :=
  (List.range 4).findSome? fun t =>
    let c := vget cfg.station t
    if !c.enable then none
    else if c.posAxis = a then some (t, false)
    else if c.strokeAxis = some a then some (t, true)
    else none

/-- Encoder position of an axis, in units of 2^-16 count; 0 without an encoder. -/
def axisEnc (s : State) (a : Nat) : Int :=
  match (axisCfg s a).encoder with
  | some e => (vget s.gauge.enc e).position
  | none => 0

/-- An input is enabled, and asserted: with VIO low, in LIMIT_CHATTER, or at its active level (R634, R636, R744). 0 LIM-, 1 LIM+,
2 HOME. -/
def inputAsserted (c : AxisCfg) (x : Axis) (i : Nat) : Bool :=
  bitOf c.inputs i && (x.vioLow || (vget x.inputs i).chatter || decide ((vget x.inputs i).level = bitOf c.inputs (3 + i)))

/-- A motion in a direction is towards an asserted limit (R635); with VIO low no axis can move (R744). -/
def towardLimit (c : AxisCfg) (x : Axis) (d : Int) : Bool :=
  (decide (0 < d) && inputAsserted c x 1) || (decide (d < 0) && inputAsserted c x 0) || (decide (d ≠ 0) && x.vioLow)

def anyChatter (x : Axis) : Bool := (List.range 3).any fun i => (vget x.inputs i).chatter

/-- R650. -/
def axisReady (s : State) (a : Nat) : Bool :=
  let x := vget s.axes.ax a
  let c := axisCfg s a
  c.enable && (decide (x.state = .idle) || decide (x.state = .moving) || decide (x.state = .stroking)) && (!c.requireHome || x.homed)

/-- The direction of motion: that of the velocity, else towards the target of a motion. -/
def axisDir (x : Axis) : Int :=
  if x.vq ≠ 0 then signOf x.vq
  else match x.state with
    | .moving | .stroking | .geared => signOf (x.target - axisPos x)
    | _ => 0

/-- The deviation of R637 at the present position. -/
def axisDev (s : State) (a : Nat) : Int :=
  let x := vget s.axes.ax a
  match (axisCfg s a).encoder with
  | some _ => axisDeviation (axisCfg s a).encScale (axisPos x) x.xref (axisEnc s a) x.eref
  | none => 0

/-- Events of Table 14-10: the cause and the position. -/
def axisEvent (src a : Nat) (cause : AxisCause) (s : State) : State :=
  raise (src + a) (axisCauseCode cause) (axisPos (vget s.axes.ax a)) s

def countAxis (a : Nat) (f : AxisCounters → AxisCounters) (s : State) : State := setAxis a (fun x => { x with cnt := f x.cnt }) s

/-- The references of R637 are taken. -/
def takeRefs (a : Nat) (s : State) : State :=
  let e := axisEnc s a
  setAxis a (fun x => { x with xref := axisPos x, eref := e }) s

/-! ### Rest and the start of motion -/

/-- A move by command ends its claim (R621). -/
def endMoveClaim (a : Nat) (s : State) : State := dropRt 0x0D a 0x0D01 a s

/-- The axis comes to rest (R641): the phases stay at IRUN until HOLD_DELAY has passed. Held settings give way to the new ones. -/
def comeToRest (a : Nat) (state : AxisState) (s : State) : State :=
  setAxis a (fun x => { x with
    state := state
    vq := 0
    aq := 0
    scribe := false
    stroke := none
    stopping := none
    softBrake := false
    held := none
    due := none
    irunUntil := none
    restAt := some s.now }) s

/-- A motion starts: from OFF or SHORT it first restores IRUN and waits 1 ms (R642). `due` bounds a jerk-limited move (R628). -/
def leaveRest (a : Nat) (s : State) : State :=
  setAxis a (fun x => { x with
    restAt := none
    standstill := none
    lastUpdate := s.now
    irunUntil := match x.standstill with
      | some .off => some (s.now + 1000000)
      | some .short => some (s.now + 1000000)
      | _ => none }) s

/-- Time by which a jerk-limited move from standstill has arrived (R628). -/
def moveDue (c : AxisCfg) (start : Nat) (dist : Nat) : Option Nat :=
  if c.jerk = 0 then none else some (start + (moveTime c.vmax c.accel c.decel (c.jerk * 1000) dist + 5) * 1000)

/-- Time by which a jerk-limited deceleration has ended (assumption 60). -/
def stopDue (c : AxisCfg) (decel now : Nat) (vq : Int) : Option Nat :=
  if c.jerk = 0 then none
  else some (now + ceilDiv (vq.natAbs * 1000000000) (decel * q32) + ceilDiv (decel * 1000000000) (c.jerk * 1000) + 5000)

/-- The axis takes a target (R629): from IDLE it starts, while MOVING the target replaces the one in force. -/
def takeTarget (a : Nat) (target : Int) (notify scribe : Bool) (s : State) : State :=
  let x := vget s.axes.ax a
  let c := axisCfg s a
  let s := if x.state = .idle then leaveRest a s else s
  let start := ((vget s.axes.ax a).irunUntil).getD s.now
  countAxis a (fun n => { n with moves := wrap32 (n.moves + 1) })
    (setAxis a (fun x => { x with
      state := .moving
      target := target
      notify := notify
      scribe := scribe
      due := if x.vq = 0 then moveDue c start (target - axisPos x).natAbs else none }) s)

/-- Homing ends with a status and its reason (AXIS_HOME). -/
def endHoming (a status : Nat) (reason : HomeReason) (s : State) : State :=
  let x := vget s.axes.ax a
  match x.home with
  | none => s
  | some h =>
    let body := le 1 (if status = stOk then 0 else 1) ++ le 1 (homeReasonCode reason) ++ le 1 (if h.reversed then 1 else 0) ++ zeros 1 ++
      leI 4 h.latchPos ++ leI 8 h.latchEnc
    let s := dropRt 0x0D a 0x0D02 a (setAxis a (fun x => { x with home := none }) s)
    let s := if status = stHomeFailed then countAxis a (fun n => { n with homeFailed := wrap32 (n.homeFailed + 1) }) s else s
    complete h.ticket status body s

/-- What an axis was doing ends: its waiting targets, its claim, its stroke and its gearing. -/
def dropMotion (a : Nat) (s : State) : State :=
  endMoveClaim a (setAxis a (fun x => { x with
    moveWait := none
    moveDue := none
    stroke := none
    gear := none
    scribe := false
    softBrake := false }) s)

/-- What happens when a stopping axis is at rest (Table 14-3). -/
def finishStop (a : Nat) (p : Stopping) (s : State) : State :=
  let safe := (standCfg s a).safe
  match p.atRest with
  | .idle => axisEvent 0x3B0 a p.cause (setAxis a (fun x => { x with cause := p.cause }) (comeToRest a .idle s))
  | .disabled =>
    axisEvent 0x3B0 a p.cause (setAxis a (fun x => { x with cause := p.cause, standstill := none, restAt := none }) (comeToRest a .disabled s))
  | .fault =>
    countAxis a (fun n => { n with faults := wrap32 (n.faults + 1) })
      (axisEvent 0x3B0 a p.cause (setAxis a (fun x => { x with cause := p.cause }) (comeToRest a .fault s)))
  | .safe =>
    setAxis a (fun x => { x with cause := p.cause, standstill := some safe, restAt := none }) (comeToRest a .safeStopped s)

/-- The axis decelerates to rest at DECEL or EMERG_DECEL, for a cause, and then does what `p` says. -/
def startStop (a : Nat) (p : Stopping) (s : State) : State :=
  let x := vget s.axes.ax a
  let c := axisCfg s a
  let s := dropMotion a s
  if x.vq = 0 then finishStop a p s
  else setAxis a (fun x => { x with
    state := .stopping
    stopping := some p
    irunUntil := none
    due := stopDue c (if p.emerg then c.emerg else c.decel) s.now x.vq }) s

/-- A motion that a stop can act on. -/
def inMotion (x : Axis) : Bool :=
  decide (x.state = .moving) || decide (x.state = .stroking) || decide (x.state = .geared) || decide (x.state = .homing)

/-- A limit or a chattering input stops a motion at EMERG_DECEL into FAULT (R635, R636). A stop already under way becomes a limit
stop (DEDUCED, assumption 142). -/
def limitStop (a : Nat) (cause : AxisCause) (s : State) : State :=
  let x := vget s.axes.ax a
  if !(inMotion x || decide (x.state = .stopping)) || decide (x.state = .homing) then s
  else if x.stopping.any fun p => decide (p.atRest = .safe) then s
  else startStop a { emerg := true, cause, atRest := .fault } (countAxis a (fun n => { n with limitStops := wrap32 (n.limitStops + 1) }) s)

/-- R637, R638 and the lag of R640: the axis stops at EMERG_DECEL with the phases powered and enters FAULT; HOMED clears. -/
def faultStop (a : Nat) (cause : AxisCause) (s : State) : State :=
  let s := endHoming a stHomeFailed .fault s
  let s := setAxis a (fun x => { x with homed := false }) s
  let s := if cause = .stall then countAxis a (fun n => { n with stalls := wrap32 (n.stalls + 1) }) s else s
  startStop a { emerg := true, cause, atRest := .fault } s

/-- A protection of R626 switches the bridges off and puts the axis in FAULT. -/
def stageFault (a : Nat) (cause : AxisCause) (s : State) : State :=
  if (vget s.axes.ax a).state = .disabled then s
  else
    let s := dropMotion a (endHoming a stHomeFailed .fault s)
    let s := comeToRest a .fault s
    let s := setAxis a (fun x => { x with cause := cause, homed := false, bridgesOff := true, standstill := none, restAt := none }) s
    countAxis a (fun n => { n with faults := wrap32 (n.faults + 1) }) (axisEvent 0x3B0 a cause s)

/-- A safe-stop takes the axis from any state except DISABLED (R646). -/
def safeStopAxis (a : Nat) (cause : AxisCause) (s : State) : State :=
  let x := vget s.axes.ax a
  let ramping := match x.stopping with | some p => decide (p.atRest = .safe) | none => false
  if decide (x.state = .disabled) || decide (x.state = .safeStopped) || ramping then s
  else
    let s := endHoming a stAborted .none s
    let s := countAxis a (fun n => { n with safeStops := wrap32 (n.safeStops + 1) }) s
    let s := axisEvent 0x3B0 a cause (setAxis a (fun x => { x with cause := cause }) s)
    startStop a { emerg := true, cause, atRest := .safe } (setAxis a (fun x => { x with lastUpdate := s.now }) s)

/-- Where the Holdfast's own ramp has brought a safe-stopping axis by now, and its velocity (R646). -/
def safeRamp (c : AxisCfg) (x : Axis) (now : Nat) : Int × Int :=
  let e : Int := c.emerg * q32
  let stopNs := ceilDiv (x.vq.natAbs * 1000000000) (c.emerg * q32)
  let tau : Int := min (now - x.lastUpdate) stopNs
  let d := (2 * x.vq.natAbs * 1000000000 * tau - e * tau * tau) / (2 * 1000000000000000000)
  let v := if stopNs ≤ now - x.lastUpdate then 0 else (x.vq.natAbs : Int) - e * tau / 1000000000
  (x.xq + signOf x.vq * d, signOf x.vq * v)

/-- The safe-stop's ramp has come to rest, and SAFE_MODE is applied (R646). -/
def safeRest (a : Nat) (s : State) : State :=
  let x := vget s.axes.ax a
  match x.stopping with
  | some p =>
    if p.atRest ≠ .safe then s
    else
      let r := safeRamp (axisCfg s a) x s.now
      if r.2 ≠ 0 then s else finishStop a p (setAxis a (fun x => { x with xq := r.1 }) s)
  | none => s

/-! ### Strokes (R633) -/

/-- An AXIS_START from a compare unit: the state, and whether it was taken (R131, R633). -/
def startStroke (a : Nat) (s : State) : State × Bool :=
  let x := vget s.axes.ax a
  let c := axisCfg s a
  if decide (x.state = .idle) && decide (c.strokeDist ≠ 0) && !towardLimit c x c.strokeDist && decide (s.hf.fabric = .running) then
    let start := axisPos x
    let s := leaveRest a s
    let begin_ := ((vget s.axes.ax a).irunUntil).getD s.now
    (countAxis a (fun n => { n with strokes := wrap32 (n.strokes + 1) }) (setAxis a (fun x => { x with
      state := .stroking
      target := start + c.strokeDist
      stroke := some { start }
      due := moveDue c begin_ c.strokeDist.natAbs }) s), true)
  else (axisEvent 0x3C0 a .none (countAxis a (fun n => { n with startsMissed := wrap32 (n.startsMissed + 1) }) s), false)

/-- STROKE_HOLD has passed: the stroke returns to where it began. -/
def strokeBack (a : Nat) (s : State) : State :=
  let x := vget s.axes.ax a
  let c := axisCfg s a
  match x.stroke with
  | some ⟨start, .holding t⟩ =>
    if t ≤ s.now then setAxis a (fun x => { x with
      target := start
      lastUpdate := s.now
      stroke := some { start, part := .back }
      due := moveDue c s.now (start - axisPos x).natAbs }) s
    else s
  | _ => s

/-! ### Gearing (R639, R640) -/

def gearCfg (s : State) (a : Nat) : GearCfg := vget (cfgNow s).gear a

def masterPos (s : State) (g : GearCfg) : Int := (vget s.gauge.enc g.master).position

/-- A gearing that is due engages while the axis is IDLE and can move. -/
def gearTry (a : Nat) (s : State) : State :=
  let x := vget s.axes.ax a
  let g := gearCfg s a
  if x.gearDue && g.enable && !x.vioLow && decide (x.state = .idle) && (axisCfg s a).enable then
    let s := leaveRest a s
    setAxis a (fun x => { x with
      state := .geared
      gearDue := false
      target := axisPos x
      gear := some { m0 := masterPos s g, p0 := axisPos x } }) s
  else s

/-- The master has moved from one position to another: a gearing that waits for ENGAGE_POS becomes due when it is reached. -/
def gearMaster (e : Nat) (before after : Int) (s : State) : State :=
  (List.range 4).foldl (fun s a =>
    let g := gearCfg s a
    let x := vget s.axes.ax a
    let reached := (decide (before < g.engagePos) && decide (g.engagePos ≤ after)) ||
      (decide (g.engagePos < before) && decide (after ≤ g.engagePos)) || decide (before = g.engagePos)
    if x.gearArmed && g.enable && decide (g.master = e) && reached then
      gearTry a (setAxis a (fun x => { x with gearArmed := false, gearDue := true }) s)
    else s) s

/-! ### The profile generator (R627, R628, R631) -/

/-- What one update drives the axis towards. -/
inductive Motion where
  | toward (goal : Int) (decel : Nat)
  | brake (decel : Nat)
  | cruise (speed : Nat) (dir : Int)
  deriving DecidableEq, Repr

/-- One update of 1 us: the axis, and whether the motion has ended. -/
def driveAxis (c : AxisCfg) (x : Axis) : Motion → Axis × Bool
  | .toward goal decel =>
    let r := axisStep c.vmax c.accel decel x.xq x.vq (goal * q32)
    ({ x with xq := r.1, vq := r.2.1 }, r.2.2)
  | .brake decel =>
    let r := brakeStep decel x.xq x.vq
    ({ x with xq := r.1, vq := r.2 }, decide (r.2 = 0))
  | .cruise speed dir =>
    let r := cruiseStep speed c.accel c.decel dir x.xq x.vq
    ({ x with xq := r.1, vq := r.2 }, false)

/-- One update with a jerk limit: the acceleration is free within ACCEL and DECEL and within JERK of the last one, and the motion
has ended by the time of R628 (assumption 60). -/
def driveJerk (c : AxisCfg) (now n : Nat) (x : Axis) (m : Motion) : Axis × Bool :=
  let late := match x.due with | some t => decide (t ≤ now) | none => false
  let emergency := match m with | .brake d => max d c.accel | _ => max c.accel c.decel
  let lim : Int := emergency * q32
  let step : Int := perUpdate (c.jerk * 1000 * q32)
  let lo := max (-lim) (x.aq - step)
  let hi := min lim (x.aq + step)
  let acc := lo + (n % ((hi - lo).toNat + 1) : Nat)
  let speed := match m with | .cruise v _ => v | _ => c.vmax
  let v := clampInt (-(speed * q32 : Int)) (speed * q32) (x.vq + perUpdate acc)
  match m with
  | .toward goal _ =>
    if late || (decide ((goal * q32 - x.xq).natAbs < q32) && decide (x.vq.natAbs * 1000000 ≤ c.decel * q32)) then
      ({ x with xq := goal * q32, vq := 0, aq := 0 }, true)
    else ({ x with xq := x.xq + perUpdate v, vq := v, aq := acc }, false)
  | .brake _ =>
    let v := if late ∨ signOf v ≠ signOf x.vq then 0 else clampInt (-(x.vq.natAbs : Int)) x.vq.natAbs v
    ({ x with xq := x.xq + perUpdate v, vq := v, aq := if v = 0 then 0 else acc }, decide (v = 0))
  | .cruise _ _ => ({ x with xq := x.xq + perUpdate v, vq := v, aq := acc }, false)

/-- One update of an axis. -/
def drive (a : Nat) (m : Motion) (s : State) : State × Bool :=
  let c := axisCfg s a
  let x := vget s.axes.ax a
  let r := if c.jerk = 0 then (driveAxis c x m, s)
    else
      let f := freshValue s
      (driveJerk c s.now f.1 x m, f.2)
  (setAxis a (fun _ => { r.1.1 with lastUpdate := s.now }) r.2, r.1.2)

/-- The stop would lie beyond a soft limit (R631). A target within the limits is approached without an alarm: the generator tests
its stopping distance once per update, so the figure may pass the target by the travel of one update (DEDUCED, assumption 115). -/
def softAlarm (c : AxisCfg) (x : Axis) : Bool :=
  let slack : Int := if c.softMin ≤ x.target ∧ x.target ≤ c.softMax then perUpdate (c.vmax * q32) else 0
  (decide (0 < x.vq) && decide (c.softMax * q32 + slack < x.xq + stopDistance c.decel x.vq)) ||
  (decide (x.vq < 0) && decide (x.xq - stopDistance c.decel x.vq < c.softMin * q32 - slack))

/-- R631: the alarm is counted and reported, and the axis brakes at EMERG_DECEL; a geared axis disengages and stops. -/
def softStop (a : Nat) (s : State) : State :=
  let x := vget s.axes.ax a
  let s := countAxis a (fun n => { n with softLimits := wrap32 (n.softLimits + 1) }) s
  if x.state = .geared then startStop a { emerg := true, cause := .softLimit, atRest := .idle } s
  else
    let c := axisCfg s a
    axisEvent 0x3B0 a .softLimit (setAxis a (fun x => { x with
      cause := .softLimit
      softBrake := true
      due := stopDue c c.emerg s.now x.vq }) s)

/-- The axis reaches its target (Table 14-3, R633). -/
def arrive (a : Nat) (s : State) : State :=
  let x := vget s.axes.ax a
  let c := axisCfg s a
  match x.stroke with
  | some ⟨start, .away⟩ =>
    setAxis a (fun x => { x with vq := 0, due := none, stroke := some { start, part := .holding (s.now + c.strokeHold * 1000) } }) s
  | some _ => comeToRest a .idle s
  | none =>
    let s := endMoveClaim a (comeToRest a .idle s)
    if x.notify && !x.scribe then axisEvent 0x3B4 a .none s else s

/-- The emergency stop of R631 is at rest: the axis approaches its target, unless that lies beyond a soft limit (DEDUCED, assumption 115). -/
def afterSoftBrake (a : Nat) (s : State) : State :=
  let x := vget s.axes.ax a
  let c := axisCfg s a
  if c.softMin ≤ x.target ∧ x.target ≤ c.softMax then
    setAxis a (fun x => { x with softBrake := false, due := moveDue c s.now (x.target - axisPos x).natAbs }) s
  else endMoveClaim a (comeToRest a .idle s)

/-- MOVING, STROKING and GEARED: one update towards the target (R627, R631). -/
def moveUpdate (a : Nat) (s : State) : State :=
  let x := vget s.axes.ax a
  let c := axisCfg s a
  if x.softBrake then
    let r := drive a (.brake c.emerg) s
    if r.2 then afterSoftBrake a r.1 else r.1
  else if softAlarm c x then softStop a s
  else
    let r := drive a (.toward x.target c.decel) s
    if r.2 && decide (x.state ≠ .geared) then arrive a r.1 else r.1

/-! ### Homing (Table 14-2) -/

def homeDir (h : HomeRun) : Int := if h.par.positive then 1 else -1

def setHome (a : Nat) (f : HomeRun → HomeRun) (s : State) : State := setAxis a (fun x => { x with home := x.home.map f }) s

/-- Homing fails: the axis stops at DECEL and rests IDLE with HOMED clear (R645). -/
def failHoming (a : Nat) (reason : HomeReason) (s : State) : State :=
  match (vget s.axes.ax a).home with
  | none => s
  | some h => if h.reason = .none then
      setAxis a (fun x => { x with homed := false }) (setHome a (fun h => { h with reason, braking := true }) s)
    else s

/-- The latch of R644: the latched position becomes HOME_POS, and the references of R637 are taken. -/
def latchHome (a : Nat) (s : State) : State :=
  let x := vget s.axes.ax a
  match x.home with
  | none => s
  | some h =>
    let e := axisEnc s a
    takeRefs a (setAxis a (fun x => { x with
      xq := x.xq + (h.par.homePos - axisPos x) * q32
      homed := true
      home := some { h with phase := .set, braking := true, latchPos := axisPos x, latchEnc := e } }) s)

/-- What an asserted or deasserted HOME, or a limit that asserts, does in a phase: `home` is HOME's present assertion, `inDir` an
asserted limit in the direction DIR. -/
def homeSense (a : Nat) (s : State) : State :=
  let x := vget s.axes.ax a
  let c := axisCfg s a
  match x.home with
  | none => s
  | some h =>
    let home := inputAsserted c x 2
    let limit := inputAsserted c x (if h.par.positive then 1 else 0)
    if h.braking then s
    else match h.phase with
      | .search =>
        if home then setHome a (fun h => { h with braking := true, phase := .clear }) s
        else if limit then setHome a (fun h => { h with braking := true, phase := .reversing, reversed := true }) s
        else s
      | .reversing => if home then setHome a (fun h => { h with phase := .clear }) s else s
      | .clear => if !home then setHome a (fun h => { h with phase := .backoff, backoffFrom := axisPos x }) s else s
      | .approach =>
        if home && h.edgeAt.isNone then
          if h.par.latchIndex then setHome a (fun h => { h with edgeAt := some (axisPos x) }) s else latchHome a s
        else s
      | _ => s

/-- A limit trips in REVERSE, CLEAR, BACKOFF or APPROACH (R645). -/
def homeLimit (a : Nat) (s : State) : State :=
  match (vget s.axes.ax a).home with
  | some h => match h.phase with
    | .reversing => if h.braking then s else failHoming a .secondLimit s
    | .clear => if h.braking then s else failHoming a .secondLimit s
    | .backoff => failHoming a .secondLimit s
    | .approach => failHoming a .secondLimit s
    | _ => s
  | none => s

/-- Homing is at rest: done, failed, or at the start of its next motion. -/
def homeRest (a : Nat) (h : HomeRun) (s : State) : State :=
  if h.reason ≠ .none then comeToRest a .idle (endHoming a stHomeFailed h.reason s)
  else match h.phase with
    | .set => comeToRest a .idle (endHoming a stOk .none s)
    | .backoff => homeSense a (setHome a (fun h => { h with braking := false, phase := .approach }) s)
    | _ => homeSense a (setHome a (fun h => { h with braking := false }) s)

/-- One update of homing. -/
def homeUpdate (a : Nat) (s : State) : State :=
  let c := axisCfg s a
  match (vget s.axes.ax a).home with
  | none => s
  | some h =>
    if h.braking then
      if (vget s.axes.ax a).vq = 0 then homeRest a h s
      else
        let r := drive a (.brake c.decel) s
        if r.2 then homeRest a h r.1 else r.1
    else if (vget s.axes.ax a).vioLow then failHoming a .secondLimit s
    else
      let speed := if h.phase = .approach then h.par.slow else h.par.fast
      let dir := if h.phase = .search ∨ h.phase = .approach then homeDir h else -homeDir h
      let s := (drive a (.cruise speed dir) s).1
      let p := axisPos (vget s.axes.ax a)
      if h.phase = .backoff ∧ h.par.backoff ≤ (p - h.backoffFrom).natAbs then setHome a (fun h => { h with braking := true }) s
      else match h.phase, h.edgeAt with
        | .approach, some e => if h.par.indexWindow < (p - e).natAbs then failHoming a .noIndex s else s
        | _, _ => s

/-! ### One update -/

/-- A target accepted by command and released by a line trigger is taken (R632). One that would start towards an asserted limit is
stopped as under R635 (DEDUCED, assumption 142). -/
def takeDue (a : Nat) (s : State) : State :=
  let x := vget s.axes.ax a
  match x.moveDue with
  | none => s
  | some m =>
    let s := setAxis a (fun x => { x with moveDue := none }) s
    if x.state = .idle ∨ x.state = .moving then
      let s := takeTarget a m.target m.notify false s
      if towardLimit (axisCfg s a) x (m.target - axisPos x) then limitStop a .hardLimit s else s
    else s

/-- The stall watch of R637. -/
def stallCheck (a : Nat) (s : State) : State :=
  let x := vget s.axes.ax a
  let c := axisCfg s a
  let powered := !x.bridgesOff && (inMotion x || decide (x.standstill = some .hold))
  if c.stallEn && c.encoder.isSome && powered && decide (x.state ≠ .fault) && decide (x.state ≠ .safeStopped) &&
    decide (c.stallWindow < (axisDev s a).natAbs) then faultStop a .stall s
  else s

/-- The profile generator's update of one axis, 1 us after the last (R627 to R632, R637, R640, R643). -/
def axisUpdate (a : Nat) (s : State) : State :=
  if s.hf.fabric ≠ .running then s
  else
    let s := gearTry a (takeDue a s)
    let x := vget s.axes.ax a
    if x.irunUntil.isSome || decide (s.now < x.lastUpdate + 1000) then s
    else
      let s := match x.state with
        | .moving => moveUpdate a s
        | .stroking => match x.stroke with
          | some ⟨_, .holding _⟩ => setAxis a (fun x => { x with lastUpdate := s.now }) s
          | _ => moveUpdate a s
        | .geared => match x.gear with
          | some g =>
            let p := gearCommand (gearCfg s a) g (masterPos s (gearCfg s a))
            let s := setAxis a (fun x => { x with target := p }) s
            if (gearCfg s a).window < (p - axisPos x).natAbs then faultStop a .gearLag s else moveUpdate a s
          | none => s
        | .homing => homeUpdate a s
        | .stopping => match x.stopping with
          | some p =>
            if p.atRest = .safe then s
            else
              let c := axisCfg s a
              let r := drive a (.brake (if p.emerg then c.emerg else c.decel)) s
              if r.2 then finishStop a p r.1 else r.1
          | none => s
        | _ => s
      stallCheck a s

/-- No profile update for 20 us while the axis moves (R647). -/
def watchdogDue (s : State) (a : Nat) : Bool :=
  let x := vget s.axes.ax a
  let holding := match x.stroke with | some ⟨_, .holding _⟩ => true | _ => false
  let safe := match x.stopping with | some p => decide (p.atRest = .safe) | none => false
  (inMotion x || decide (x.state = .stopping)) && !holding && !safe && x.irunUntil.isNone && decide (x.lastUpdate + 20000 ≤ s.now)

/-! ### Inputs -/

/-- An input's accepted level changes (R634, R635), which may also move homing on (Table 14-2). -/
def inputChange (a i : Nat) (level : Bool) (s : State) : State :=
  let c := axisCfg s a
  let x := vget s.axes.ax a
  if !bitOf c.inputs i then s
  else
    let was := inputAsserted c x i
    let s := setAxis a (fun x => { x with inputs := vmod x.inputs i fun p => { p with level, changedAt := s.now } }) s
    let now := inputAsserted c (vget s.axes.ax a) i
    let rises := now && !was
    if x.state = .homing then
      let s := homeSense a s
      if rises && decide (i < 2) then homeLimit a s else s
    else if rises && ((decide (i = 1) && decide (0 < axisDir x)) || (decide (i = 0) && decide (axisDir x < 0))) then limitStop a .hardLimit s
    else s

/-- An input enters LIMIT_CHATTER, or goes on chattering (R636). -/
def inputChatter (a i : Nat) (s : State) : State :=
  let c := axisCfg s a
  let x := vget s.axes.ax a
  if !bitOf c.inputs i then s
  else
    let known := (vget x.inputs i).chatter
    let s := setAxis a (fun x => { x with inputs := vmod x.inputs i fun p => { p with chatter := true, changedAt := s.now } }) s
    if known then s
    else
      let s := axisEvent 0x3B8 a .limitChatter (countAxis a (fun n => { n with chatters := wrap32 (n.chatters + 1) }) s)
      if x.state = .homing then failHoming a .chatter s else limitStop a .limitChatter s

/-- VIO falls below 0.8 V, or rises above it again (R744): every input reads as asserted, an axis in motion stops as at a limit, and
homing meets what it then senses. -/
def vioAxis (a : Nat) (low : Bool) (s : State) : State :=
  let x := vget s.axes.ax a
  let s := setAxis a (fun x => { x with vioLow := low }) s
  if x.vioLow = low then s
  else if x.state = .homing then
    let s := homeSense a s
    if low then homeLimit a s else s
  else if low && inMotion x then limitStop a .hardLimit s
  else s

/-- AXIS_STOP MODE 3 finds which inputs have been stable for CHATTER_WINDOW (R636). -/
def settleChatter (a : Nat) (s : State) : State :=
  let c := axisCfg s a
  let settle (p : AxisInput) : AxisInput :=
    if p.chatter && decide (p.changedAt + c.chatterWindow * 1000000 ≤ s.now) then { p with chatter := false } else p
  setAxis a (fun x => { x with inputs := x.inputs.map settle }) s

/-- R648. -/
def clearAllowed (s : State) (a : Nat) : Bool :=
  decide (s.hf.fabric = .running) && inRange 21000 51000 s.axes.vmotorMv && decide ((vget s.axes.ax a).temp < 125) &&
  !anyChatter (vget s.axes.ax a)

/-! ### The effective strip of a glue-up (R640, R649) -/

/-- The axes take a new configuration: called with the new one in force, and the old one. -/
def applyAxes (old new : Cfg) (s : State) : State :=
  (List.range 4).foldl (fun s a =>
    let oc := axisIn old a
    let nc := axisIn new a
    let x := vget s.axes.ax a
    let changed := decide (oc ≠ nc) || decide (vget old.stand a ≠ vget new.stand a) || decide (stationUse old a ≠ stationUse new a)
    let geared := decide (vget old.gear a ≠ vget new.gear a)
    let s := if geared then
        let g := vget new.gear a
        setAxis a (fun x => { x with gearArmed := g.enable && g.atPos, gearDue := g.enable && !g.atPos }) s
      else s
    let s :=
      if changed then
        let keep := (oc, vget old.stand a)
        let atRest : AtRest := if nc.enable then .idle else .disabled
        match x.state with
        | .disabled =>
          if nc.enable then
            takeRefs a (setAxis a (fun y => { y with
              state := .idle
              restAt := none
              standstill := some (if (stationUse new a).isSome then .hold else (vget new.stand a).mode) }) s)
          else s
        | .idle =>
          let s := dropMotion a s
          if nc.enable then setAxis a (fun y => { y with standstill := none, restAt := some s.now }) s
          else setAxis a (fun y => { y with state := .disabled, standstill := none, restAt := none }) s
        | .stopping =>
          let rest (p : Stopping) : Stopping := if p.atRest = .idle then { p with atRest } else p
          setAxis a (fun y => { y with held := y.held <|> some keep, stopping := y.stopping.map rest }) s
        | .fault => s
        | .safeStopped => s
        | _ =>
          let s := endHoming a stAborted .none s
          startStop a { cause := .config, atRest } (setAxis a (fun y => { y with held := some keep }) s)
      else if geared && decide (x.state = .geared) then startStop a { cause := .config } s
      else s
    gearTry a s) s

/-- The Gauge triggers a web line: targets accepted for it are due at each axis's next update (R632). -/
def axesTriggered (line : Nat) (s : State) : State :=
  (List.range 4).foldl (fun s a => setAxis a (fun x => match x.moveWait with
    | some m => if atOrAfter line m.line then { x with moveWait := none, moveDue := some m } else x
    | none => x) s) s

/-- The web line that the Gauge triggers next. -/
def nextTriggered (s : State) : Nat :=
  match s.gauge.lastLine with
  | some l => if s.gauge.startPending then s.gauge.startLine.getD 0 else wrap32 (l + 1)
  | none => s.gauge.startLine.getD 0

end Sys2Proof.Machine
end

