-- ==== Sys2Proof/Machine/GaugeCalc.lean ====
section
/-! DEFINITION. The Gauge's arithmetic: target positions (R151, R152), speed (R148, R149), the prediction between
edges (R157) and the reserve encoder's scaling (R142 to R144). -/

namespace Sys2Proof.Machine

/-- P(n) of R151, from the line sequence, N0 and ORIGIN. -/
def linePos (q : LineSeq) (n0 : Nat) (origin : Int) (n : Nat) : Int :=
  let d := sdiff32 n n0
  origin + d * q.pitch + Int.fdiv d q.k * q.adj

/-- The target of slot, line and field of R152. -/
def targetPos (q : LineSeq) (n0 : Nat) (origin : Int) (c : SlotTrigCfg) (n f : Nat) : Int :=
  linePos q n0 origin n + c.offset + lineSeqFoff q f

/-- SPEED of R148 in signed Q32.16 from the time stamps (newest first) and SPEED_AVG; 0 with fewer than two counts. -/
def speedOf (times : List Nat) (avg : Nat) (forward : Bool) : Int :=
  let n := min avg (times.length - 1)
  if n = 0 then 0
  else
    let dt := times.getD 0 0 - times.getD n 0
    if dt = 0 then 0
    else
      let v : Int := (n * 1000000000 * 65536 : Nat)
      roundDiv (if forward then v else -v) dt

/-- The reported speed of R149: bounded by one count in the time since the last count. -/
def reportedSpeed (v : Int) (sinceLast : Nat) : Int :=
  if v = 0 ∨ sinceLast = 0 then v
  else
    let one : Int := (1000000000 * 65536 : Nat)
    if one < v.natAbs * sinceLast then roundDiv (if 0 ≤ v then one else -one) sinceLast else v

/-- A reserve position scaled by RESERVE_RATIO, rounded under R10 to 2^-16 count (R142, R144). -/
def scaleReserve (pos : Int) (ratio : Nat) : Int := roundShift (pos * ratio) 16

/-- The quantities of R157 at an accepted forward count: t[k], t[k-4], t[k-8], A_LIM in counts/s². Rates are per ns. -/
structure Predictor where
  tk : Nat := 0
  t1 : Rat := 0
  vk : Rat := 0
  a : Rat := 0
  deriving DecidableEq, Repr

/-- The predictor of R157, once t[k-8] exists. `times` is newest first. -/
def predictor (times : List Nat) (aLim : Nat) : Option Predictor :=
  match times[0]?, times[4]?, times[8]? with
  | some tk, some t4, some t8 =>
    if t4 < tk ∧ t8 < t4 then
      let t1 : Rat := ((tk - t4 : Nat) : Rat) / 4
      let t2 : Rat := ((t4 - t8 : Nat) : Rat) / 4
      let lim : Rat := (aLim : Rat) / 1000000000000000000
      let raw : Rat := (1 / t1 - 1 / t2) / (2 * (t1 + t2))
      let a := if raw < -lim then -lim else if lim < raw then lim else raw
      some { tk, t1, vk := 1 / t1 + a * 2 * t1, a }
    else none
  | _, _, _ => none

/-- Distance travelled after `tau` ns. -/
def travelled (m : Predictor) (tau : Rat) : Rat := m.vk * tau + m.a * tau * tau / 2

/-- The largest number of half-grid steps `h` (1 ns each) below `hi` at which the web is still short of `x`, by bits. -/
def shortOf (m : Predictor) (x : Rat) (hi : Nat) : Nat → Nat → Nat
  | 0, r => r
  | b + 1, r =>
    if r + 2 ^ b ≤ hi ∧ travelled m ((r + 2 ^ b : Nat) : Rat) < x then shortOf m x hi b (r + 2 ^ b) else shortOf m x hi b r

/-- The fire time of a target `x` counts ahead (R157): the smallest positive root, on the 2 ns grid, rounded to
nearest; none when there is no root or tau exceeds 4 t1. -/
def fireTimeOf (m : Predictor) (x : Rat) : Option Nat :=
  let lim := 4 * m.t1
  let top := if m.a < 0 then (if -m.vk / m.a < lim then -m.vk / m.a else lim) else lim
  if x ≤ 0 ∨ travelled m top < x then none
  else
    let below := shortOf m x top.floor.toNat 40 0
    -- tau lies in (below, below + 1]; the grid point 2j nearest to tau has tau < 2j + 1
    let j := if below % 2 = 1 then (below + 1) / 2 else if travelled m ((below + 1 : Nat) : Rat) ≤ x then (below + 2) / 2 else below / 2
    some (m.tk + 2 * j)

/-- Which way a change of A or B counts: the quadrature phase of R134, true forward; none when the levels do not change
by exactly one line. The sequence 00, 10, 11, 01 counts forward with SENSE 0. -/
def quadrature (a b a' b' sense : Bool) : Option Bool :=
  if a = a' ∧ b = b' then none
  else if a ≠ a' ∧ b ≠ b' then none
  else some (xor sense (if a ≠ a' then xor a b == false else xor a b))

/-- Two counts or more make an illegal transition when both lines change in one sample (R136). -/
def illegalChange (a b a' b' : Bool) : Bool := (a != a') && (b != b')

/-- The order of a unit's list: by position in the unit's direction, equals in insertion order (R174, R175). -/
def cmpBefore (reverse : Bool) (x y : CmpEntry) : Bool := if reverse then decide (y.pos < x.pos) else decide (x.pos < y.pos)

/-- Strictly ahead of WebPos in the unit's direction (R176). -/
def cmpAhead (reverse : Bool) (webPos : Int) (e : CmpEntry) : Bool := if reverse then decide (e.pos < webPos) else decide (webPos < e.pos)

end Sys2Proof.Machine
end

