-- ==== Sys2Proof/Machine/CompareOps.lean ====
section
/-! DEFINITION. WebPos and its prediction, and the lists of the position-compare units: insertion, misses, the predicted firing
of the first entry ("Web encoders, sub-count line triggers and position compare", R157, R174 to R181). -/

namespace Sys2Proof.Machine

/-! ### The web encoder in use -/

/-- The encoder of a role in a configuration: 1 web, 2 reserve. -/
def encOfRole (cfg : Cfg) (role : Nat) : Option Nat := (List.range 6).find? fun e => decide ((vget cfg.enc e).role = role)

/-- The encoder that gives WebPos: the web encoder, or the reserve once it has taken over (R144). -/
def webEnc (s : State) : Option Nat := encOfRole (cfgNow s) (if s.gauge.reserveActive then 2 else 1)

/-- Travel of WebPos per count of the encoder in use, in units of 2^-16 count. -/
def webStep (s : State) : Nat :=
  if s.gauge.reserveActive then
    match webEnc s with
    | some e => (vget (cfgNow s).enc e).reserveRatio
    | none => 65536
  else 65536

/-- Counts of the encoder in use from WebPos to a position ahead. -/
def countsAhead (s : State) (pos : Int) : Rat :=
  if webStep s = 0 then 0 else ((pos - s.gauge.webPos : Int) : Rat) / ((webStep s : Nat) : Rat)

/-- The web encoder counts forward and has eight intervals for a prediction under a line sequence (R157). -/
def webPredictor (s : State) (q : LineSeq) : Option Predictor :=
  match webEnc s with
  | some e =>
    let x := vget s.gauge.enc e
    if q.predict && decide (x.dir = some true) then predictor x.times q.aLim else none
  | none => none

/-- Fire time of a position within 4 counts beyond WebPos (R157). -/
def predictFire (s : State) (q : LineSeq) (pos : Int) : Option Nat :=
  match webPredictor s q with
  | none => none
  | some m =>
    let x := countsAhead s pos
    if 0 < x ∧ x ≤ 4 then fireTimeOf m x else none

/-- The web has reached the last count at or below a position, its anchor count (R162). -/
def atAnchor (s : State) (pos : Int) : Bool := decide (pos < s.gauge.webPos + webStep s)

/-- A position on a whole count fires on the count itself (R158). -/
def onCount (pos : Int) : Bool := decide (pos % 65536 = 0)

/-! ### The lists -/

def cmpCap : Nat := 4096

def cmpCfg (s : State) (u : Nat) : CompareCfg := vget (cfgNow s).cmp u

/-- The marker station of the running configuration that claims a compare unit (R180). -/
def stationOfCmp (cfg : Cfg) (u : Nat) : Option Nat :=
  (List.range 4).find? fun t => (vget cfg.station t).enable && decide ((vget cfg.station t).compare = u)

/-- Every raise of a unit's event: the TAG, and 0 fired or 1 missed; EVENT_ENABLE gates it (R818). -/
def raiseCompare (u : Nat) (e : CmpEntry) (cause : Nat) (s : State) : State :=
  if (cmpCfg s u).eventEnable then raise (0x3A0 + u) e.tag cause s else s

def countMissed (n : Nat) (s : State) : State := { s with gauge := { s.gauge with missed := wrap32 (s.gauge.missed + n) } }

/-- An entry that is not ahead counts as missed (R176, R179). -/
def missEntry (u : Nat) (e : CmpEntry) (s : State) : State := raiseCompare u e 1 (countMissed 1 s)

/-- The time at which the first entry of a unit's active list fires, computed from the latest counts (R175). -/
def planCompare (u : Nat) (s : State) : State :=
  let c := cmpCfg s u
  let x := vget s.gauge.cmp u
  let at_ := match x.active.head? with
    | some e => if !c.enable || c.reverse || onCount e.pos then none else (cfgNow s).seq.bind fun q => predictFire s q e.pos
    | none => none
  setCmp u (fun x => { x with fireAt := at_ }) s

/-- Entries accepted for a unit's active list: each is inserted within 2 us (R176). -/
def beginInserts (u : Nat) (es : List CmpEntry) (ticket : Option Nat) (s : State) : State :=
  let due := s.now + 2000
  let n := es.length
  let new := (es.zipIdx).map fun e => ({ entry := e.1, due, ticket := if e.2 + 1 = n then ticket else none } : CmpInsert)
  setCmp u (fun x => { x with inserting := x.inserting ++ new }) s

def listFree (l : List CmpEntry) : Nat := cmpCap - l.length

/-- COMPARE_APPEND's reply body. -/
def appendBody (inserted missed free : Nat) : Bytes := le 2 inserted ++ le 2 missed ++ le 2 free

/-- One insertion completes: the entry goes to its place, or is missed; with the last entry of a COMPARE_APPEND its reply is
posted. The state, and the entry when it was missed. -/
def completeInsert (u : Nat) (s : State) : State × Option CmpEntry :=
  let c := cmpCfg s u
  let x := vget s.gauge.cmp u
  match x.inserting with
  | [] => (s, none)
  | i :: rest =>
    let ahead := cmpAhead c.reverse s.gauge.webPos i.entry
    let x' := { x with
      inserting := rest
      active := if ahead then insertBy (cmpBefore c.reverse) i.entry x.active else x.active
      inserted := x.inserted + (if ahead then 1 else 0)
      notAhead := x.notAhead + (if ahead then 0 else 1) }
    let s := setCmp u (fun _ => x') s
    let s := if ahead then planCompare u s else missEntry u i.entry s
    let s := match i.ticket with
      | none => s
      | some t => complete t stOk (appendBody x'.inserted x'.notAhead (cmpCap - x'.active.length - rest.length))
          (setCmp u (fun x => { x with inserted := 0, notAhead := 0 }) s)
    (s, if ahead then none else some i.entry)

/-- A unit's lists are emptied, each unfired entry counting as missed without an event (R181, R818). -/
def emptyCompare (u : Nat) (s : State) : State :=
  let x := vget s.gauge.cmp u
  let n := x.active.length + x.shadow.length + x.inserting.length
  let ends := x.inserting.filterMap (·.ticket)
  let s := countMissed n (setCmp u (fun y => { y with
    active := []
    shadow := []
    inserting := []
    fireAt := none
    inserted := 0
    notAhead := 0 }) s)
  ends.foldl (fun s t => complete t stOk (appendBody x.inserted (x.notAhead + x.inserting.length) cmpCap) s) s

/-- A passive module holds inactive the output of every compare unit but those of stations on its own axes (R698). -/
def holdsCompare (s : State) (u : Nat) : Bool :=
  isPassive s && (match stationOfCmp (cfgNow s) u with | some t => shadowStation (cfgNow s) t | none => true)

/-- The actions of a firing that concern the outputs: PULSE and EVENT (R178). -/
def fireOutputs (u : Nat) (e : CmpEntry) (s : State) : State :=
  let c := cmpCfg s u
  let s := match e.pulse, c.output with
    | true, some o => if holdsCompare s u then s else pulseTrg o c.width c.inverted s
    | _, _ => s
  if e.event then raiseCompare u e 0 s else s

/-- COMPARE_SWAP's lists change places; entries of the new active list that are not ahead count as missed. How long the
lock lasts, up to 400 ns, is free (R56, R179). -/
def swapLists (u : Nat) (s : State) : State × Nat × Nat :=
  let c := cmpCfg s u
  let x := vget s.gauge.cmp u
  let keep := x.shadow.filter (cmpAhead c.reverse s.gauge.webPos)
  let gone := x.shadow.filter fun e => !cmpAhead c.reverse s.gauge.webPos e
  let lock := freshValue s
  let s := setCmp u (fun y => { y with active := keep, shadow := x.active, lockUntil := s.now + lock.1 % 401 }) lock.2
  let s := gone.foldl (fun s e => missEntry u e s) s
  (planCompare u s, keep.length, gone.length)

end Sys2Proof.Machine
end

