-- ==== Sys2Proof/Machine/MarkOps.lean ====
section
/-! DEFINITION. Mark scheduling on the marker stations (R453 to R460): feasibility, the sequence of moves, the compare entries and
the ends of marks. -/

namespace Sys2Proof.Machine

def stationCfg (s : State) (t : Nat) : StationCfg := vget (cfgNow s).station t

def stationAxes (c : StationCfg) : List Nat := c.posAxis :: c.strokeAxis.toList

/-- The ledger code of a mark's end (Table 17-3). -/
def markCode : MarkCause → Nat
  | .none => 0 | .tooLate => 3 | .outOfTravel => 7 | .scheduleFull => 8 | .axisDown => 6 | .withdrawn => 5 | .partnerLost => 4

def countMark (cause : MarkCause) (c : StationCounters) : StationCounters :=
  match cause with
  | .none => { c with fired := wrap32 (c.fired + 1) }
  | .tooLate => { c with tooLate := wrap32 (c.tooLate + 1) }
  | .outOfTravel => { c with outOfTravel := wrap32 (c.outOfTravel + 1) }
  | .scheduleFull => { c with scheduleFull := wrap32 (c.scheduleFull + 1) }
  | .axisDown => { c with axisDown := wrap32 (c.axisDown + 1) }
  | .withdrawn => { c with withdrawn := wrap32 (c.withdrawn + 1) }
  | .partnerLost => { c with partnerLost := wrap32 (c.partnerLost + 1) }

/-- A mark ends: its ticket, its counter, the list of ended marks, and for a failure EV 0x230 + t (R458, R460). -/
def endMark (t : Nat) (m : Mark) (cause : MarkCause) (s : State) : State :=
  let m' : Mark := { m with state := if cause = .none then .complete else .failed, cause }
  let s := endTicket m.ticket (markCode cause) s
  let s := setStation t (fun x => { x with
    pending := x.pending.filter fun y => decide (y.ticket ≠ m.ticket)
    ended := (m' :: x.ended).take 256
    cnt := countMark cause x.cnt }) s
  let s := reportMark t m' s
  if cause = .none then s else raise (0x230 + t) m.ticket (markCauseCode cause) s

/-- The move to the first pending mark starts (R457). -/
def startMark (t : Nat) (s : State) : State :=
  let x := vget s.scribe.stations t
  let c := stationCfg s t
  let s := setStation t (fun y => { y with dwelling := false }) s
  match x.pending with
  | [] => s
  | m :: _ =>
    if m.state ≠ .waiting then s
    else
      let s := setStation t (fun y => { y with pending := y.pending.map fun p => if p.ticket = m.ticket then { p with state := .moving } else p }) s
      let a := c.posAxis
      let ax := vget s.axes.ax a
      let s := takeTarget a m.tgt false true s
      if towardLimit (axisCfg s a) ax (m.tgt - axisPos ax) then limitStop a .hardLimit s else s

/-- Every pending mark of a station ends with a cause. -/
def failStation (t : Nat) (cause : MarkCause) (s : State) : State :=
  let ms := (vget s.scribe.stations t).pending
  setStation t (fun x => { x with dwelling := false }) (ms.foldl (fun s m => endMark t m cause s) s)

/-- A pending mark fails on its own; when it was the current one, the move to the next starts at once (R458). -/
def failMark (t ticket : Nat) (cause : MarkCause) (s : State) : State :=
  let ms := (vget s.scribe.stations t).pending
  match ms.find? fun m => decide (m.ticket = ticket) with
  | none => s
  | some m =>
    let first := decide ((ms.head?.map (·.ticket)) = some ticket)
    let s := endMark t m cause s
    if first then startMark t s else s

/-- An axis that no longer moves for its station. -/
def axisDown (x : Axis) : Bool :=
  decide (x.state = .disabled) || decide (x.state = .fault) || decide (x.state = .safeStopped) || decide (x.state = .stopping)

/-- What the change of the axes from `old` means for the marks (R457, R458): a stop under a fault, a limit or a safe-stop ends every
pending mark of the station, and a completed move starts SETTLE. -/
def marksAfter (old s : State) : State :=
  (List.range 4).foldl (fun s t =>
    let c := stationCfg s t
    let x := vget s.scribe.stations t
    if !c.enable || x.pending.isEmpty then s
    else
      let stopped := (stationAxes c).any fun a =>
        let o := vget old.axes.ax a
        let n := vget s.axes.ax a
        (axisDown n && !axisDown o) || (n.softBrake && !o.softBrake)
      let o := vget old.axes.ax c.posAxis
      let n := vget s.axes.ax c.posAxis
      let arrived := decide (o.state = .moving) && o.scribe && decide (n.state = .idle)
      if stopped then failStation t .axisDown s
      else if arrived then
        let settle (m : Mark) : Mark := if m.state = .moving then { m with state := .settling } else m
        setStation t (fun y => { y with pending := y.pending.map settle, due := s.now + c.settle * 1000 }) s
      else s) s

/-- An effect on the axes, with what follows for the marks. -/
def withMarks (f : State → State) (s : State) : State := marksAfter s (f s)

/-- T(d) on a station's positioning axis (R455). -/
def stationTime (s : State) (c : StationCfg) (d : Int) : Nat :=
  let a := axisCfg s c.posAxis
  moveTime a.vmax a.accel a.decel (a.jerk * 1000) d.natAbs

/-- Why a new mark cannot be scheduled (R456). -/
def markRefusal (s : State) (t : Nat) (tgt fire : Int) : Option MarkCause :=
  let c := stationCfg s t
  let ms := (vget s.scribe.stations t).pending
  if !c.enable || (stationAxes c).any (fun a => !axisReady s a) then some .axisDown
  else if tgt < c.travelMin ∨ c.travelMax < tgt then some .outOfTravel
  else if 256 ≤ ms.length then some .scheduleFull
  else if (match ms.head? with | some m => decide (fire ≤ m.fire) | none => false) then some .tooLate
  else
    let pred := (ms.filter fun m => decide (m.fire ≤ fire)).getLast?
    let succ := (ms.filter fun m => decide (fire < m.fire)).head?
    let late := match pred with
      | some p => needExceeds (c.dwell + stationTime s c (tgt - p.tgt) + c.settle) (fire - p.fire) c.maxCountRate
      | none => needExceeds (stationTime s c (tgt - axisPos (vget s.axes.ax c.posAxis)) + c.settle) (fire - s.gauge.webPos) c.maxCountRate
    let clash := match succ with
      | some q => needExceeds (c.dwell + stationTime s c (q.tgt - tgt) + c.settle) (q.fire - fire) c.maxCountRate
      | none => false
    if late || clash then some .tooLate else none

/-- A mark of a record is scheduled (R454, R456). -/
def scheduleMark (t queue seq ticket : Nat) (firstPos : Int) (centCol : Nat) (s : State) : State :=
  let c := stationCfg s t
  let m : Mark := { ticket, queue, seq, tgt := markTarget c centCol, fire := firstPos + c.fireOffset }
  match markRefusal s t m.tgt m.fire with
  | some cause => endMark t m cause s
  | none =>
    let first := (vget s.scribe.stations t).pending.isEmpty
    let s := reportMark t m (setStation t (fun x => { x with
      pending := insertBy (fun a b => decide (a.fire < b.fire)) m x.pending
      cnt := { x.cnt with scheduled := wrap32 (x.cnt.scheduled + 1) } }) s)
    if first then withMarks (startMark t) s else s

/-- SETTLE has passed: the compare entry of the current mark is appended (R457, R458). -/
def markSettled (t : Nat) (s : State) : State :=
  let c := stationCfg s t
  let x := vget s.scribe.stations t
  match x.pending with
  | [] => s
  | m :: _ =>
    if decide (m.state ≠ .settling) || decide (s.now < x.due) then s
    else
      let u := c.compare
      let y := vget s.gauge.cmp u
      if cmpCap ≤ y.active.length + y.inserting.length then withMarks (failMark t m.ticket .scheduleFull) (countMissed 1 s)
      else if !(cmpCfg s u).enable then withMarks (failMark t m.ticket .tooLate) (countMissed 1 s)
      else
        let e : CmpEntry := { pos := m.fire, tag := m.ticket, pulse := c.pulse, event := true, axisStart := c.strokeAxis.isSome,
                              axis := c.strokeAxis.getD 0 }
        let arm (p : Mark) : Mark := if p.ticket = m.ticket then { p with state := .armed } else p
        beginInserts u [e] none (setStation t (fun z => { z with pending := z.pending.map arm }) s)

/-- An entry of a station's unit was missed at its insertion (R458). -/
def markMissed (u : Nat) (e : CmpEntry) (s : State) : State :=
  match stationOfCmp (cfgNow s) u with
  | some t => withMarks (failMark t e.tag .tooLate) s
  | none => s

/-- An entry of a station's unit fires: its mark ends COMPLETE, or AXIS_DOWN when its AXIS_START was not taken, and the head
dwells before the next move (R457, R458). -/
def markFired (u : Nat) (e : CmpEntry) (taken : Bool) (s : State) : State :=
  match stationOfCmp (cfgNow s) u with
  | none => s
  | some t =>
    match (vget s.scribe.stations t).pending.find? fun m => decide (m.ticket = e.tag) with
    | none => s
    | some m =>
      let s := endMark t m (if taken then .none else .axisDown) s
      if (vget s.scribe.stations t).pending.isEmpty then s
      else setStation t (fun x => { x with dwelling := true, due := s.now + (stationCfg s t).dwell * 1000 }) s

/-- DWELL has passed: the move to the next pending mark starts. -/
def markDwelled (t : Nat) (s : State) : State :=
  let x := vget s.scribe.stations t
  if x.dwelling && decide (x.due ≤ s.now) then withMarks (startMark t) s else s

/-- A firing takes its entry's actions (R178). An AXIS_START while the fabric is wedged is not taken, and counts as missed
(R131). -/
def fireEntry (u : Nat) (e : CmpEntry) (s : State) : State :=
  let s := fireOutputs u e s
  if !e.axisStart then markFired u e true s
  else if s.hf.fabric ≠ .running then markFired u e false (countMissed 1 s)
  else
    let r := startStroke e.axis s
    markFired u e r.2 r.1

/-- The first entry of a unit's active list fires and leaves it. -/
def fireFirst (u : Nat) (s : State) : State :=
  match (vget s.gauge.cmp u).active with
  | [] => s
  | e :: rest => planCompare u (fireEntry u e (setCmp u (fun x => { x with active := rest, fireAt := none }) s))

/-- The stations at the effective strip of a glue-up: a changed MARK_STATION or COMPARE_CONFIG withdraws every pending mark, and a
changed axis ends them AXIS_DOWN (R458, R649). -/
def applyStations (old new : Cfg) (s : State) : State :=
  (List.range 4).foldl (fun s t =>
    let o := vget old.station t
    let n := vget new.station t
    let unit (c : StationCfg) : Bool := c.enable && decide (vget old.cmp c.compare ≠ vget new.cmp c.compare)
    let axis (c : StationCfg) : Bool := c.enable && (stationAxes c).any fun a =>
      decide (axisIn old a ≠ axisIn new a) || decide (vget old.stand a ≠ vget new.stand a)
    if decide (o ≠ n) || unit o || unit n then failStation t .withdrawn s
    else if axis o then failStation t .axisDown s
    else s) s

end Sys2Proof.Machine
end

