-- ==== Sys2Proof/Machine/Axes.lean ====
section
/-! DEFINITION. The commands of "Marker axes", and the axes' events. -/

namespace Sys2Proof.Machine

def axisUnits (c : HostCmd) : List (Nat × Nat) := [(0x0D, c.unit)]

def specAxisConfig : CmdSpec :=
  { opcode := 0x0D00, need := exactly 64, unitOk := unitBelow 4, units := axisUnits,
    run := fun _ c s => stageEdit 0x0D00 c.unit (badAxis c.params) (fun cfg => { cfg with axis := vset cfg.axis c.unit (parAxis c.params) }) s }

/-- AXIS_CONFIG stages an axis (Table 14-6). -/
def execAxisConfig (t : Nat) (c : HostCmd) (s : State) : Host.Outcome State Fault Refusal := execCmd specAxisConfig t c s

/-- The target that RELATIVE adds to: one that waits, the one in force, or the position at rest. -/
def moveBase (x : Axis) : Int :=
  match x.moveWait, x.moveDue with
  | some m, _ => m.target
  | none, some m => m.target
  | none, none => if x.state = .moving then x.target else axisPos x

def specAxisMove : CmdSpec :=
  { opcode := 0x0D01, need := exactly 8, unitOk := unitBelow 4, units := axisUnits,
    run := fun _ c s =>
      let a := c.unit
      let p := c.params
      let x := vget s.axes.ax a
      let cfg := axisCfg s a
      let target := s32 p 0 + (if bitOf (u8 p 4) 1 then moveBase x else 0)
      if !cfg.enable then wrongState s
      else
        checked (firstBad [(0, decide (cfg.softMin ≤ target ∧ target ≤ cfg.softMax))]) s fun _ =>
          let holder := (rtHolder s 0x0D a).filter fun h => decide (h.opcode ≠ 0x0D01)
          match holder with
          | some h => conflict h s
          | none =>
            if !axisReady s a || x.state = .stroking || towardLimit cfg x (target - axisPos x) then wrongState s
            else
              let s := holdRt 0x0D a 0x0D01 a (endMoveClaim a s)
              let line := trimLine s (nextTriggered s)
              let m : MoveWait := { target, notify := bitOf (u8 p 4) 0, line }
              if s.gauge.trigEnabled then ok (le 4 line) (setAxis a (fun x => { x with moveWait := some m, moveDue := none }) s)
              else ok (le 4 0) (setAxis a (fun x => { x with moveWait := none, moveDue := some m }) s) }

/-- AXIS_MOVE sets a target, taken at the next line trigger (R629 to R632). -/
def execAxisMove (t : Nat) (c : HostCmd) (s : State) : Host.Outcome State Fault Refusal := execCmd specAxisMove t c s

def specAxisHome : CmdSpec :=
  { opcode := 0x0D02, need := exactly 32, unitOk := unitBelow 4, units := axisUnits,
    run := fun r c s =>
      let a := c.unit
      let x := vget s.axes.ax a
      let cfg := axisCfg s a
      if !cfg.enable then wrongState s
      else
        checked (badHome c.params cfg.vmax) s fun _ =>
          let par := parHome c.params
          match x.home with
          | some h => busy 3 h.ticket s
          | none =>
            match rtHolder s 0x0D a with
            | some h => conflict h s
            | none =>
              if decide (x.state ≠ .idle) || !bitOf cfg.inputs 2 || (par.latchIndex && cfg.encoder.isNone) then wrongState s
              else
                let s := countAxis a (fun n => { n with homings := wrap32 (n.homings + 1) }) (leaveRest a (holdRt 0x0D a 0x0D02 a s))
                let run : HomeRun := { par, ticket := r.ticket, deadline := s.now + par.timeoutMs * 1000000 }
                accepted [] (homeSense a (setAxis a (fun x => { x with state := .homing, homed := false, home := some run }) s)) }

/-- AXIS_HOME starts homing (R643 to R645). -/
def execAxisHome (t : Nat) (c : HostCmd) (s : State) : Host.Outcome State Fault Refusal := execCmd specAxisHome t c s

def stateBody (a : Nat) (s : State) : Bytes :=
  let x := vget s.axes.ax a
  le 1 (axisStateCode x.state) ++ le 1 (axisCauseCode x.cause) ++ zeros 2

/-- AXIS_STOP MODE 0 and 1: a move by command, a stroke or homing stops. -/
def stopAxis (a : Nat) (emerg : Bool) (s : State) : State :=
  let x := vget s.axes.ax a
  let p : Stopping := { emerg, cause := .stop }
  match x.state with
  | .moving => startStop a p s
  | .stroking => startStop a p s
  | .homing => startStop a p (endHoming a stAborted .none s)
  | .idle => dropMotion a s
  | _ => s

/-- AXIS_STOP MODE 3 (R648). -/
def clearAxis (a : Nat) (s : State) : Verdict :=
  let s' := settleChatter a s
  let x := vget s'.axes.ax a
  let ending := x.stopping.any fun p => decide (p.atRest = .safe) || decide (p.atRest = .fault)
  if !clearAllowed s' a || ending then wrongState s'
  else
    let s' := if x.state = .fault ∨ x.state = .safeStopped then
        let s' := comeToRest a (if (axisIn (cfgNow s') a).enable then .idle else .disabled) s'
        setAxis a (fun x => { x with bridgesOff := false, standstill := none }) s'
      else s'
    let s' := takeRefs a s'
    ok (stateBody a s') s'

def specAxisStop : CmdSpec :=
  { opcode := 0x0D03, need := exactly 4, unitOk := unitBelow 4, units := axisUnits,
    run := fun _ c s =>
      let a := c.unit
      let mode := u8 c.params 0
      checked (firstBad [(0, inRange 0 3 mode)]) s fun _ =>
        if (vget s.axes.ax a).state = .disabled then wrongState s
        else if mode = 3 then clearAxis a s
        else if mode = 2 then
          let s := withMarks (safeStopAxis a .safeStop) s
          ok (stateBody a s) s
        else
          match (runningClaims s).find? fun k => decide (k.kind = 0x0D) && decide (k.index = a) with
          | some k => conflict { kind := 0x0D, index := a, opcode := k.opcode, unit := k.unit } s
          | none =>
            let s := withMarks (stopAxis a (decide (mode = 1))) s
            ok (stateBody a s) s }

/-- AXIS_STOP stops, safe-stops or clears an axis (R646 to R648). -/
def execAxisStop (t : Nat) (c : HostCmd) (s : State) : Host.Outcome State Fault Refusal := execCmd specAxisStop t c s

def specAxisGear : CmdSpec :=
  { opcode := 0x0D04, need := fun c => exactly (24 + 16 * u8 c.params 3) c, unitOk := unitBelow 4, units := axisUnits,
    run := fun _ c s => stageEdit 0x0D04 c.unit (badGear c.params) (fun cfg => { cfg with gear := vset cfg.gear c.unit (parGear c.params) }) s }

/-- AXIS_GEAR stages electronic gearing (R639, R640). -/
def execAxisGear (t : Nat) (c : HostCmd) (s : State) : Host.Outcome State Fault Refusal := execCmd specAxisGear t c s

/-- The current I of R624 in the axis's present state. -/
def axisCurrent (s : State) (a : Nat) : Nat :=
  let x := vget s.axes.ax a
  if x.bridgesOff ∨ x.state = .disabled then 0
  else match x.standstill with
    | some .off => 0
    | some .short => 0
    | some .hold => (standCfg s a).ihold
    | none => (axisCfg s a).irun

/-- Table 14-9. -/
def axisStatusBytes (s : State) (a : Nat) : Bytes :=
  let x0 := vget s.axes.ax a
  let c := axisCfg s a
  let ramping := x0.stopping.any fun p => decide (p.atRest = .safe)
  let r := safeRamp c x0 s.now
  let x := if ramping then { x0 with xq := r.1, vq := r.2 } else x0
  let target := match x.moveWait, x.moveDue with
    | some m, _ => m.target
    | none, some m => m.target
    | none, none => x.target
  let flags := flagBit x.homed 6 + flagBit (inputAsserted c x 2) 5 + flagBit (inputAsserted c x 1) 4 + flagBit (inputAsserted c x 0) 3 +
    flagBit (anyChatter x) 2 + flagBit x.tempWarn 1 + flagBit (axisReady s a) 0
  let i := phaseTargets c.invertDir (axisPos x) (axisCurrent s a)
  le 1 (axisStateCode x.state) ++ le 1 (axisCauseCode x.cause) ++ le 1 flags ++
  le 1 (match x.standstill with | some m => standstillCode m | none => 0) ++ leI 4 (axisPos x) ++ leI 4 target ++ leI 4 (roundShift x.vq 32) ++
  leI 8 (axisEnc s a) ++ leI 4 (axisDev s a) ++ leI 2 i.1 ++ leI 2 i.2 ++ le 2 s.axes.vmotorMv ++ leI 2 x.temp ++ zeros 12

def specAxisStatus : CmdSpec :=
  { opcode := 0x0D05, need := exactly 0, unitOk := unitBelow 4, run := fun _ c s => ok (axisStatusBytes s c.unit) s }

/-- AXIS_STATUS reads an axis (Table 14-9). -/
def execAxisStatus (t : Nat) (c : HostCmd) (s : State) : Host.Outcome State Fault Refusal := execCmd specAxisStatus t c s

def specAxisStandstill : CmdSpec :=
  { opcode := 0x0D06, need := exactly 8, unitOk := unitBelow 4, units := axisUnits,
    run := fun _ c s => stageEdit 0x0D06 c.unit (badStand c.params) (fun cfg => { cfg with stand := vset cfg.stand c.unit (parStand c.params) }) s }

/-- AXIS_STANDSTILL stages the standstill behaviour (R641, R646). -/
def execAxisStandstill (t : Nat) (c : HostCmd) (s : State) : Host.Outcome State Fault Refusal := execCmd specAxisStandstill t c s

/-! ### Events -/

/-- An event on axis `a`, with what follows for the marks. -/
def onAxis (t a : Nat) (f : State → State) (s : State) : Host.Outcome State Fault Refusal :=
  runAt t s (if a < 4 then withMarks f else id)

/-- The profile generator updates an axis (R627). -/
def execAxisProfileUpdate (t axis : Nat) (s : State) : Host.Outcome State Fault Refusal := onAxis t axis (onFabric [] (axisUpdate axis)) s

/-- A moving axis has had no profile update for 20 us (R647). -/
def execProfileWatchdog (t axis : Nat) (s : State) : Host.Outcome State Fault Refusal :=
  onAxis t axis (fun s => if watchdogDue s axis then safeStopAxis axis .wedged s else s) s

/-- An input's debounced level changes (R634, R635). -/
def execAxisInputChange (t axis input : Nat) (level : Bool) (s : State) : Host.Outcome State Fault Refusal :=
  onAxis t axis (if input < 3 then inputChange axis input level else id) s

/-- An input changes more than CHATTER_N times within CHATTER_WINDOW (R636). -/
def execLimitChatter (t axis input : Nat) (s : State) : Host.Outcome State Fault Refusal :=
  onAxis t axis (if input < 3 then inputChatter axis input else id) s

/-- A bridge carries more than 4.5 A (R626). -/
def execAxisOvercurrent (t axis : Nat) (s : State) : Host.Outcome State Fault Refusal := onAxis t axis (stageFault axis .overcurrent) s

/-- A stage's temperature: the warning above 135 degrees, which re-arms below 125, and the fault above 150 (R626). -/
def stageTemp (a : Nat) (temp : Int) (s : State) : State :=
  let x := vget s.axes.ax a
  let s := setAxis a (fun x => { x with temp := temp, tempWarn := if 135 < temp then true else if temp < 125 then false else x.tempWarn }) s
  let s := if 135 < temp ∧ x.tempWarn = false then axisEvent 0x3BC a .none s else s
  if 150 < temp then stageFault a .overtemp s else s

def execStageTemperature (t axis : Nat) (temp : Int) (s : State) : Host.Outcome State Fault Refusal := onAxis t axis (stageTemp axis temp) s

/-- VMOTOR leaves 20.0 V to 52.0 V for 10 us: every axis goes to FAULT (R626). -/
def vmotorFault (mv : Nat) (s : State) : State :=
  let s := { s with axes := { s.axes with vmotorMv := mv } }
  let all (c : AxisCause) (s : State) : State := (List.range 4).foldl (fun s a => stageFault a c s) s
  if mv < 20000 then all .vmotorLow s else if 52000 < mv then all .vmotorHigh s else s

def execVmotorFault (t mv : Nat) (s : State) : Host.Outcome State Fault Refusal := runAt t s (withMarks (vmotorFault mv))

/-- HOLD_DELAY after rest the axis enters its standstill mode; an axis of a station takes HOLD (R641). -/
def standstillDue (a : Nat) (s : State) : State :=
  let x := vget s.axes.ax a
  let c := standCfg s a
  match x.restAt with
  | none => s
  | some r =>
    if decide (s.now < r + c.holdDelay * 1000000) || x.bridgesOff then s
    else setAxis a (fun x => { x with restAt := none, standstill := some (if (stationUse (cfgNow s) a).isSome then .hold else c.mode) }) s

def execStandstillDelayExpired (t axis : Nat) (s : State) : Host.Outcome State Fault Refusal := onAxis t axis (standstillDue axis) s

/-- 1 ms after IRUN is restored the motion starts (R642). -/
def execIrunRestoreWait (t axis : Nat) (s : State) : Host.Outcome State Fault Refusal :=
  onAxis t axis (fun s => match (vget s.axes.ax axis).irunUntil with
    | some u => if u ≤ s.now then setAxis axis (fun x => { x with irunUntil := none, lastUpdate := s.now }) s else s
    | none => s) s

/-- STROKE_HOLD ends and the stroke returns to its start (R633). -/
def execStrokeHoldExpired (t axis : Nat) (s : State) : Host.Outcome State Fault Refusal := onAxis t axis (strokeBack axis) s

/-- TIMEOUT of homing expires (R645). -/
def execHomingTimeout (t axis : Nat) (s : State) : Host.Outcome State Fault Refusal :=
  onAxis t axis (fun s => match (vget s.axes.ax axis).home with
    | some h => if h.deadline ≤ s.now then failHoming axis .timeout s else s
    | none => s) s

/-- The safe-stop's ramp comes to rest (R646). -/
def execSafeStopRest (t axis : Nat) (s : State) : Host.Outcome State Fault Refusal := onAxis t axis (safeRest axis) s

/-- VIO crosses 0.8 V (R744). -/
def execVioLow (t : Nat) (low : Bool) (s : State) : Host.Outcome State Fault Refusal :=
  runAt t s fun s => (List.range 4).foldl (fun s a => withMarks (vioAxis a low) s) s

end Sys2Proof.Machine
end

