-- ==== Sys2Proof/Machine/IngestOps.lean ====
section
/-! DEFINITION. The operations of Ingest: trigger tags, matching, gaps, line tags, ready points, the re-lay of a line ring and
the statistics (R240 to R272). -/

namespace Sys2Proof.Machine

/-- The slot is enabled for Ingest (R240). -/
def ingestOn (cfg : Cfg) (slot : Nat) : Bool := (vget cfg.link slot).enable && (vget cfg.trig slot).enable

def fieldsOf (cfg : Cfg) : Nat := match cfg.seq with | some q => q.fields | none => 1

def planeCfgAt (s : State) (slot line : Nat) : PlaneCfg := vget (cfgAt s line).plane slot
def linkCfgAt (s : State) (slot line : Nat) : LinkCfg := vget (cfgAt s line).link slot

/-- The line ring of a port under a configuration (R263); a port whose partition is off has no ring. -/
def lineLayout (cfg : Cfg) (port : Nat) : RingLayout :=
  let part := vget cfg.part port
  let width (slot : Nat) : Nat := if ingestOn cfg slot then (vget cfg.link slot).width else 0
  if part.enable then
    { base := part.baseMib * 2 ^ 20, widthA := width (2 * port), widthB := width (2 * port + 1), fields := fieldsOf cfg,
      depth := part.sizeA, statsDepth := part.sizeB }
  else {}

def layoutAt (s : State) (slot : Nat) : RingLayout := vget s.ingest.layout (slot / 2)

def isSlotB (slot : Nat) : Bool := decide (slot % 2 = 1)

/-- A source of Table 5-8 is raised at most once per strip of the web line concerned (R274). -/
def raiseOnceIn (strip src : Nat) (a0 a1 : Int) (s : State) : State :=
  if sget s.evOnce src 0 = strip + 1 then s else raise src a0 a1 { s with evOnce := sset s.evOnce src (strip + 1) 0 }

/-- The readers of a slot's ring are past a web line (R256): the Plane has begun it, and the Dovetail too where the slot is in
ORDER. The Jig delays nothing (R301). A line that was never triggered, or never kept, holds nothing. -/
def lineReleased (s : State) (slot line : Nat) : Bool :=
  let cfg := cfgAt s line
  let x := vget s.ingest.slots slot
  let past (last : Option Nat) : Bool := match last with | some l => atOrAfter l line | none => false
  let inOrder := match cfg.grid with | some g => g.order.contains slot | none => false
  !inSpans s line || !ingestOn cfg slot || (x.relaid.any fun r => decide (r.1 = line)) ||
  (past (vget s.plane.slots slot).last && (!inOrder || past s.dovetail.last))

/-- The ring position of a web line is free of an unread line (R256). -/
def positionFree (s : State) (slot line : Nat) : Bool :=
  let d := (layoutAt s slot).depth
  d = 0 || lineReleased s slot ((line + 2 ^ 32 - d) % 2 ^ 32)

/-! ### Statistics (R268 to R272) -/

def statsOn (s : State) (slot line : Nat) : Bool :=
  (planeCfgAt s slot line).statsQueue.isSome && decide (1 ≤ (layoutAt s slot).statsDepth)

/-- Change the statistics of the strip of a slot's line and field. -/
def updStats (slot field line : Nat) (f : StripStats → StripStats) (s : State) : State :=
  let shift := (cfgAt s line).shift
  let strip := stripOf shift line
  setSlotIngest slot (fun x =>
    if x.stats.any fun t => decide (t.strip = strip) && decide (t.field = field) then
      { x with stats := x.stats.map fun t => if t.strip = strip ∧ t.field = field then f t else t }
    else { x with stats := x.stats ++ [f { strip, field, firstLine := stripFirst shift strip }] }) s

/-- STATISTICS record, bytes 8 to 63 (Table 9-3). -/
def statsBody (slot blockOff : Nat) (t : StripStats) : Bytes :=
  le 4 t.strip ++ le 1 slot ++ le 1 t.field ++ le 2 t.lines ++ le 2 t.gaps ++ zeros 2 ++ le 4 t.count ++ le 4 (meanQ6 t.sum t.count) ++
  le 4 t.min ++ le 4 t.max ++ le 4 t.sat ++ le 4 t.dark ++ le 4 (focusOf t.grad t.sum) ++ le 8 blockOff ++ zeros 8

/-- Write the histogram block of one field's strip, and hand its record to the Scribe (R270, R271). -/
def writeStats (slot : Nat) (t : StripStats) (s : State) : State :=
  let l := layoutAt s slot
  match (planeCfgAt s slot t.firstLine).statsQueue with
  | none => s
  | some q =>
    if l.statsDepth = 0 then s
    else
      let off := l.base + ringHistOff l t.strip (isSlotB slot) t.field
      let s := benchWrite off (histBlock slot (cfgAt s t.firstLine).shift t) s
      let item : ScribeItem := { kind := .statistics, queue := q, strip := t.strip, lastLine := stripEnd s t.firstLine, slot, field := t.field, body := statsBody slot off t }
      { s with scribe := { s.scribe with inbox := s.scribe.inbox ++ [item] } }

/-- The slot completes every strip before that of `line`: blocks are written, and the Scribe learns of it (R270, R427). -/
def completeStrips (slot line : Nat) (s : State) : State :=
  let strip := stripAt s line
  let x := vget s.ingest.slots slot
  let due := sortBy (fun a b => later32 b.strip a.strip || (decide (a.strip = b.strip) && decide (a.field < b.field)))
    (x.stats.filter fun t => later32 strip t.strip)
  let s := setSlotIngest slot (fun x => { x with stats := x.stats.filter fun t => !later32 strip t.strip }) s
  let s := due.foldl (fun s t => writeStats slot t s) s
  { s with scribe := { s.scribe with slotDone := vset s.scribe.slotDone slot (some (wrap32 (stripFirst (cfgAt s line).shift strip + 2 ^ 32 - 1))) } }

/-! ### The ready point (R266) -/

/-- The next web line at or after `line` that the slot can have: lines never triggered, and holes, are passed over. -/
def passOver (s : State) (slot line : Nat) : Nat :=
  let skip (l : Nat) : Nat := match (vget s.ingest.slots slot).holes.find? fun h => atOrAfter l h.1 && atOrAfter h.2 l with
    | some h => lineAfter s h.2
    | none => l
  if inSpans s line then skip line else skip (lineAfter s (wrap32 (line + 2 ^ 32 - 1)))

/-- Every field of a web line is written. -/
def lineWritten (s : State) (slot line : Nat) : Bool :=
  (List.range (fieldsOf (cfgAt s line))).all fun f =>
    (vget s.ingest.slots slot).written.any fun w => decide (w.1 = line) && decide (w.2.1 = f)

/-- Advance the ready point in order of web line number as far as written tags reach. -/
def advanceReady (slot : Nat) : Nat → State → State
  | 0, s => s
  | fuel + 1, s =>
    match (vget s.ingest.slots slot).nextReady with
    | none => s
    | some c =>
      let n := passOver s slot c
      if lineWritten s slot n then
        let next := passOver s slot (wrap32 (n + 1))
        let s := setSlotIngest slot (fun x => { x with nextReady := some next, written := x.written.filter fun w => decide (w.1 ≠ n) }) s
        let s := if stripAt s next = stripAt s n then s else completeStrips slot next s
        advanceReady slot fuel s
      else
        let s := setSlotIngest slot (fun x => { x with nextReady := some n }) s
        if n = c then s else completeStrips slot n s

def settleReady (slot : Nat) (s : State) : State := advanceReady slot ((vget s.ingest.slots slot).written.length + 1) s

/-- A web line of a slot is at or behind its ready point. -/
def isReady (s : State) (slot line : Nat) : Bool :=
  match (vget s.ingest.slots slot).nextReady with
  | some c => later32 c line
  | none => false

/-! ### Line tags and gaps (R251, R252, R265) -/

def blankTag (slot line field : Nat) : TrigTag := { slot, line, field }

def markWritten (slot line field code : Nat) (s : State) : State :=
  settleReady slot (setSlotIngest slot (fun x => { x with written := x.written ++ [(line, field, code)] }) s)

def ringWriteTag (slot line field : Nat) (bytes : Bytes) (s : State) : State :=
  let l := layoutAt s slot
  if l.depth = 0 then s else benchWrite (l.base + ringTagOff l line (isSlotB slot) field) bytes s

/-- A tag ends as a gap (R244 to R258, R267): counted by cause, its event raised, and its line tag written once its position
holds no unread line. RELAID gaps are not written to the ring. -/
def gapTag (t : TrigTag) (cause : GapCause) (s : State) : State :=
  let s := setSlotIngest t.slot (fun x => { x with cnt := countGap cause x.cnt }) s
  let strip := stripAt s t.line
  let s := match cause with
    | .buffer | .deadline => raiseOnceIn strip (0x100 + t.slot) 0 0 s
    | .missing | .noLink => raiseOnceIn strip (0x118 + t.slot) 0 0 s
    | _ => s
  let s := if statsOn s t.slot t.line then updStats t.slot t.field t.line (fun x => { x with gaps := x.gaps + 1 }) s else s
  if cause = .relaid then
    markWritten t.slot t.line t.field 8 (setSlotIngest t.slot (fun x => { x with relaid := x.relaid ++ [(t.line, t.field)] }) s)
  else
    let bytes := lineTagBytes t 0 0 (gapCode cause) 0 false false false true
    if positionFree s t.slot t.line then markWritten t.slot t.line t.field (gapCode cause) (ringWriteTag t.slot t.line t.field bytes s)
    else setSlotIngest t.slot (fun x => { x with gapsWaiting := x.gapsWaiting ++ [(t.line, t.field, bytes)] }) s

/-- Gap tags whose position has come free are written. -/
def flushGaps (slot : Nat) (s : State) : State :=
  ((vget s.ingest.slots slot).gapsWaiting).foldl (fun s w =>
    if positionFree s slot w.1 then
      markWritten slot w.1 w.2.1 (u8 w.2.2 26) (ringWriteTag slot w.1 w.2.1 w.2.2
        (setSlotIngest slot (fun x => { x with gapsWaiting := x.gapsWaiting.erase w }) s))
    else s) s

/-- What the readers of a slot are past need not be kept as RELAID any more. -/
def pruneRelaid (slot : Nat) (s : State) : State :=
  match (vget s.plane.slots slot).last with
  | none => s
  | some l => if (vget s.plane.jig slot).isSome then s
    else setSlotIngest slot (fun x => { x with relaid := x.relaid.filter fun r => later32 r.1 l }) s

/-- The slot's connection carries lines (R245). -/
def connUp (s : State) (slot : Nat) : Bool :=
  decide ((vget s.links.slots slot).state = .active) || decide ((vget s.links.slots slot).state = .degraded)

/-- The short time to which a tag's STIME is held against line starts: on a passive module the partner's STIME and JM_OFFSET
(R699). -/
def tagTime (s : State) (t : TrigTag) : Nat :=
  if isPassive s then (((t.stime : Int) + s.pair.jmOffset) % 2 ^ 32).toNat
  else t.stime

/-- End an outstanding tag as MISSING or NO_LINK (R245). -/
def missTag (o : OutTag) (s : State) : State :=
  let s := setSlotIngest o.tag.slot (fun x => { x with outstanding := x.outstanding.erase o }) s
  gapTag o.tag (if connUp s o.tag.slot then .missing else .noLink) s

/-- Outstanding tags whose latency or age with respect to `time` exceeds LAT_MAX end (R245, R246). -/
def expireTags (slot time : Nat) (s : State) : State :=
  ((vget s.ingest.slots slot).outstanding.filter fun o =>
    decide (((planeCfgAt s slot o.tag.line).latMax : Int) < latencyTo time (tagTime s o.tag))).foldl (fun s o => missTag o s) s

/-- Web lines and fields of a slot strictly between two tags, in order. -/
def tagsBetween (s : State) (slot : Nat) (a b : Nat × Nat) : List (Nat × Nat) :=
  ((List.range ((sdiff32 b.1 a.1).toNat + 1)).map fun i => wrap32 (a.1 + i)).flatMap fun n =>
    if inSpans s n && ingestOn (cfgAt s n) slot then
      ((List.range (fieldsOf (cfgAt s n))).filter fun f =>
        (decide (n ≠ a.1) || decide (a.2 < f)) && (decide (n ≠ b.1) || decide (f < b.2))).map fun f => (n, f)
    else []

/-! ### The re-lay of a line ring (R267) -/

/-- Readable or written lines of a slot before `first` that its readers have not read become RELAID, and so do its open tags. -/
def relaySlot (slot first : Nat) (s : State) : State :=
  let x := vget s.ingest.slots slot
  let before (n : Nat) : Bool := later32 first n
  let unread : List Nat :=
    match x.nextReady with
    | none => []
    | some c =>
      let start := match (vget s.plane.slots slot).last with
        | some l => wrap32 (l + 1)
        | none => match s.spans.getLast? with | some p => p.1 | none => c
      ((List.range (sdiff32 c start).toNat).map fun i => wrap32 (start + i)).filter fun n =>
        before n && inSpans s n && ingestOn (cfgAt s n) slot && !(x.holes.any fun h => atOrAfter n h.1 && atOrAfter h.2 n)
  let pairs := (unread.flatMap fun n => (List.range (fieldsOf (cfgAt s n))).map fun f => (n, f)) ++
    ((x.written.filter fun w => before w.1).map fun w => (w.1, w.2.1))
  let tags := ((x.outstanding.filter fun o => before o.tag.line).map (·.tag)) ++
    (x.entries.filterMap fun e => match e.tag with | some t => if before t.line then some t else none | none => none)
  let s := setSlotIngest slot (fun x => { x with
    relaid := x.relaid ++ pairs
    relayFrom := some first
    outstanding := x.outstanding.filter fun o => !before o.tag.line
    entries := x.entries.filter fun e => !(match e.tag with | some t => before t.line | none => false)
    gapsWaiting := x.gapsWaiting.filter fun w => !before w.1
    cnt := (List.range pairs.length).foldl (fun c _ => countGap .relaid c) x.cnt }) s
  let waiting := x.gapsWaiting.filter fun w => before w.1
  let s := waiting.foldl (fun s w => gapTag (blankTag slot w.1 w.2.1) .relaid s) s
  tags.foldl (fun s t => gapTag t .relaid s) s

/-- The first tag of a strip under another layout re-lays the ring at the strip's first line (R267). -/
def relayRing (t : TrigTag) (s : State) : State :=
  let port := t.slot / 2
  let cfg := cfgAt s t.line
  let old := match (vget s.ingest.slots t.slot).relayFrom with | some f => later32 f t.line | none => false
  if old || decide (lineLayout cfg port = vget s.ingest.layout port) then s
  else
    let first := stripFirst cfg.shift (stripOf cfg.shift t.line)
    let s := relaySlot (2 * port + 1) first (relaySlot (2 * port) first s)
    { s with ingest := { s.ingest with layout := vset s.ingest.layout port (lineLayout cfg port) } }

/-! ### Trigger tags (R240, R244, R251) -/

/-- The slot's ready point begins at its first tag, and passes over lines for which the slot was not enabled; so does the Plane. -/
def startReady (slot line : Nat) (s : State) : State :=
  let begin_ (s : State) : State :=
    completeStrips slot line (setSlotPlane slot (fun x => { x with last := some (wrap32 (line + 2 ^ 32 - 1)) })
      (setSlotIngest slot (fun x => { x with nextReady := some line }) s))
  match (vget s.ingest.slots slot).nextReady with
  | none => begin_ s
  | some c => if later32 line c && !ingestOn (cfgAt s c) slot then begin_ s else settleReady slot s

/-- A pipeline receives a trigger tag: gaps for skipped lines, the oldest of nine ends MISSING, and the tag is outstanding. A
tag from before a re-lay ends at once as RELAID. -/
def receiveTag (t : TrigTag) (s : State) : State :=
  if !ingestOn (cfgAt s t.line) t.slot then s
  else
    let s := startReady t.slot t.line (relayRing t s)
    let x := vget s.ingest.slots t.slot
    let s := match x.prevTag with
      | some p => if t.skipBefore then
          (tagsBetween s t.slot p (t.line, t.field)).foldl (fun s nf => gapTag (blankTag t.slot nf.1 nf.2) .skipped s) s
        else s
      | none => s
    let s := setSlotIngest t.slot (fun x => { x with prevTag := some (t.line, t.field) }) s
    if (match x.relayFrom with | some f => later32 f t.line | none => false) then gapTag t .relaid s
    else
      let s := setSlotIngest t.slot (fun x => { x with relayFrom := none }) s
      let s := if 8 ≤ x.outstanding.length then
          match (vget s.ingest.slots t.slot).outstanding.head? with
          | some o =>
            let s := setSlotIngest t.slot (fun x => { x with
              outstanding := x.outstanding.drop 1
              cnt := { x.cnt with tagOverflow := wrap32 (x.cnt.tagOverflow + 1) } }) s
            gapTag o.tag .missing s
          | none => s
        else s
      setSlotIngest t.slot (fun x => { x with outstanding := x.outstanding ++ [{ tag := t }] }) s

/-- After an immediate stop, every untriggered web line and field of the current strip ends as STOPPED (R252). Lines of earlier
strips that the slot had still to trigger are passed over (DEDUCED, assumption 123). -/
def stopSlot (strip shift slot : Nat) (s : State) : State :=
  let first := stripFirst shift strip
  let last := wrap32 (first + 2 ^ shift - 1)
  if !ingestOn (cfgAt s first) slot then s
  else
    let x := vget s.ingest.slots slot
    let inStrip (n : Nat) : Bool := atOrAfter n first && atOrAfter last n
    let nextOf (p : Nat × Nat) : Nat := if p.2 + 1 < fieldsOf (cfgAt s p.1) then p.1 else lineAfter s p.1
    -- the first line that the slot still misses, when it lies before the strip
    let missing : Option Nat := match x.prevTag with
      | some p => if inSpans s p.1 && later32 first (nextOf p) then some (nextOf p) else none
      | none => none
    let todo := ((List.range (2 ^ shift)).map fun i => wrap32 (first + i)).flatMap fun n =>
      ((List.range (fieldsOf (cfgAt s n))).filter fun f => match x.prevTag with
        | some p => !inStrip p.1 || later32 n p.1 || (decide (n = p.1) && decide (p.2 < f))
        | none => true).map fun f => (n, f)
    let s := match missing with
      | some m => setSlotIngest slot (fun x => { x with holes := x.holes ++ [(m, wrap32 (first + 2 ^ 32 - 1))] }) s
      | none => s
    let s := startReady slot first s
    let s := todo.foldl (fun s nf => gapTag (blankTag slot nf.1 nf.2) .stopped s) s
    setSlotIngest slot (fun x => { x with prevTag := some (last, fieldsOf (cfgAt s last) - 1) }) s

def stopGaps (strip shift : Nat) (s : State) : State := (List.range 24).foldl (fun s slot => stopSlot strip shift slot s) s

/-! ### Lines (R246 to R258) -/

/-- The field that the camera reports in pixel 0 of a line's first bytes (R248). -/
def reportedField (bits : Nat) (data : Bytes) : Nat := (unpackPixels bits data).getD 0 0 % 4

/-- The outstanding tag that a line answers (R246, R248). -/
def answeredTag (s : State) (slot start : Nat) (data : Bytes) : Option OutTag :=
  (vget s.ingest.slots slot).outstanding.find? fun o =>
    let c := planeCfgAt s slot o.tag.line
    let lat := latencyTo start (tagTime s o.tag)
    let rf := reportedField (linkCfgAt s slot o.tag.line).pixelFormat data
    decide ((c.latMin : Int) ≤ lat) && decide (lat ≤ c.latMax) &&
    (!c.fieldSource || (decide (rf = o.tag.field) && decide (rf < fieldsOf (cfgAt s o.tag.line))))

/-- A line that answers no tag is discarded whole (R247). -/
def countUntriggered (slot : Nat) (s : State) : State :=
  raiseOnceIn (currentStrip s) (0x118 + slot) 0 0
    (setSlotIngest slot (fun x => { x with cnt := { x.cnt with untriggered := wrap32 (x.cnt.untriggered + 1) } }) s)

/-- The slot's camera has delivered a line: later camera events belong to its strip, and so do those that waited for it (R428). -/
def noteDelivered (slot line : Nat) (s : State) : State :=
  let strip := stripAt s line
  let mine (i : ScribeItem) : Bool := decide (i.slot = slot)
  let items := (s.scribe.camHeld.filter mine).map fun i => { i with strip, lastLine := stripEnd s line, body := le 4 strip ++ i.body.drop 4 }
  { s with scribe := { s.scribe with
    slotLine := vset s.scribe.slotLine slot (some line)
    camHeld := s.scribe.camHeld.filter fun i => !mine i
    inbox := s.scribe.inbox ++ items } }

/-- A line takes the tag it answers: tags before it in the slot are passed over, and the line claims an entry, or ends as a gap
of cause BUFFER (R246, R249, R253, R254). -/
def takeLine (slot : Nat) (o : OutTag) (e : LineEntry) (data : Bytes) (s : State) : State :=
  let x := vget s.ingest.slots slot
  let oldest := match x.outstanding.head? with | some h => decide (h = o) | none => true
  let passed := (x.outstanding.takeWhile fun h => decide (h ≠ o)).map fun h => { h with passed := true }
  let rest := (x.outstanding.dropWhile fun h => decide (h ≠ o)).drop 1
  let c := planeCfgAt s slot o.tag.line
  let rfield := if c.fieldSource then reportedField (linkCfgAt s slot o.tag.line).pixelFormat data else o.tag.field
  let entry := { e with tag := some o.tag, skew := !oldest || o.passed, rfield }
  let s := setSlotIngest slot (fun x => { x with outstanding := passed ++ rest }) s
  if 2 ≤ x.entries.length then gapTag o.tag .buffer (noteDelivered slot o.tag.line s)
  else setSlotIngest slot (fun x => { x with entries := x.entries ++ [entry] }) s

/-- A line starts (R246). On a passive module a line that answers no tag waits for tags from JM (R699). -/
def lineStart (slot start : Nat) (data : Bytes) (s : State) : State :=
  let s := expireTags slot start s
  match answeredTag s slot start data with
  | some o => takeLine slot o { start } data s
  | none =>
    if isPassive s then
      setSlotIngest slot (fun x => { x with unmatched := x.unmatched ++ [{ start }] }) s
    else countUntriggered slot s

/-- The pixel codes of a line under the settings of the tag that it answers (R248, R260). -/
def lineCodes (s : State) (t : TrigTag) (data : Bytes) : List Nat :=
  let codes := unpackPixels (linkCfgAt s t.slot t.line).pixelFormat data
  if (planeCfgAt s t.slot t.line).fieldSource then codes.set 0 (codes.getD 1 0) else codes

/-- A line has arrived whole, or INCOMPLETE (R258). -/
def lineEnd (slot : Nat) (data : Bytes) (incomplete : Bool) (s : State) : State :=
  match (vget s.ingest.slots slot).entries.find? fun e => !e.arrived with
  | none => setSlotIngest slot (fun x => { x with
      unmatched := x.unmatched.map fun y => if y.arrived then y else { y with arrived := true, data, incomplete } }) s
  | some e =>
    match e.tag with
    | none => s
    | some t =>
      let s := noteDelivered slot t.line s
      if incomplete then gapTag t .incomplete (setSlotIngest slot (fun x => { x with entries := x.entries.erase e }) s)
      else setSlotIngest slot (fun x => { x with
        entries := x.entries.map fun y => if y = e then { y with arrived := true, codes := lineCodes s t data } else y }) s

/-- Lines of a passive module that waited for tags are matched as a tag arrives (R699). -/
def matchWaiting (slot : Nat) (s : State) : State :=
  ((vget s.ingest.slots slot).unmatched).foldl (fun s e =>
    let data := if e.arrived then e.data else (vget s.links.slots slot).stream.lineData
    match answeredTag s slot e.start data with
    | none => s
    | some o =>
      let s := takeLine slot o { start := e.start } data (setSlotIngest slot (fun x => { x with unmatched := x.unmatched.erase e }) s)
      if e.arrived then lineEnd slot e.data e.incomplete s else s) s

/-- Pipelines of a port write one line at a time, in order of line-start time, slot A first (R255). -/
def nextToWrite (s : State) (port : Nat) : Option (Nat × LineEntry) :=
  let of (slot : Nat) : List (Nat × LineEntry) := (vget s.ingest.slots slot).entries.map fun e => (slot, e)
  let all := of (2 * port) ++ of (2 * port + 1)
  if all.any fun p => p.2.writing then none
  else (sortBy (fun a b => later32 b.2.start a.2.start) all).head?

/-- A line's Bench write begins (R255, R256). -/
def beginWrite (slot : Nat) (s : State) : State :=
  match nextToWrite s (slot / 2) with
  | none => s
  | some (sl, e) =>
    match e.tag with
    | none => s
    | some t =>
      if sl = slot ∧ positionFree s slot t.line = true then
        setSlotIngest slot (fun x => { x with entries := x.entries.map fun y => if y = e then { y with writing := true } else y }) s
      else s

/-- The samples of a line in its ring area. -/
def ringWriteSamples (t : TrigTag) (row : Bytes) (s : State) : State :=
  let l := layoutAt s t.slot
  if l.depth = 0 then s else benchWrite (l.base + ringSampleOff l t.line (isSlotB t.slot) t.field) row s

/-- The row of a line as written (R261, R262, R264). -/
def lineRow (s : State) (t : TrigTag) (codes : List Nat) : Bytes :=
  let lc := linkCfgAt s t.slot t.line
  packRow (expandLine lc.pixelFormat lc.width (planeCfgAt s t.slot t.line).fill codes)

/-- A line's last Bench write has completed: its tag is written, counted and taken into the statistics, and its entry is freed
(R253, R261, R265, R269). -/
def finishWrite (slot : Nat) (s : State) : State :=
  match (vget s.ingest.slots slot).entries.find? fun e => e.writing && e.arrived with
  | none => s
  | some e =>
    match e.tag with
    | none => s
    | some t =>
      let lc := linkCfgAt s slot t.line
      let pc := planeCfgAt s slot t.line
      let n := e.codes.length
      let short := decide (n < lc.width)
      let long := decide (lc.width < n)
      let strip := stripAt s t.line
      let s := ringWriteSamples t (lineRow s t e.codes) s
      let s := ringWriteTag slot t.line t.field (lineTagBytes t e.start n 0 e.rfield short long e.skew false) s
      let s := setSlotIngest slot (fun x => { x with
        entries := x.entries.erase e
        cnt := { x.cnt with
          linesWritten := wrap32 (x.cnt.linesWritten + 1)
          short := wrap32 (x.cnt.short + (if short then 1 else 0))
          long := wrap32 (x.cnt.long + (if long then 1 else 0))
          fieldSkew := wrap32 (x.cnt.fieldSkew + (if e.skew then 1 else 0)) } }) s
      let s := if short || long || e.skew then raiseOnceIn strip (0x130 + slot) 0 0 s else s
      let s := if statsOn s slot t.line then
          updStats slot t.field t.line (statsAddLine lc.pixelFormat pc.darkLevel (countedCodes pc.statsFirst pc.statsLast lc.width e.codes)
            short long e.skew) s
        else s
      markWritten slot t.line t.field 0 s

/-- A write of a line missed its deadline: the line is abandoned (R257). How much of it stands in the ring is free. -/
def abandonWrite (slot : Nat) (s : State) : State :=
  match (vget s.ingest.slots slot).entries.find? (·.writing) with
  | none => s
  | some e =>
    match e.tag with
    | none => s
    | some t =>
      let codes := if e.arrived then e.codes else lineCodes s t (vget s.links.slots slot).stream.lineData
      let row := lineRow s t codes
      let r := freshValue s
      let s := ringWriteSamples t (row.take (r.1 % (row.length + 1))) r.2
      gapTag t .deadline (setSlotIngest slot (fun x => { x with entries := x.entries.erase e }) s)

/-- The controller withdraws the requests of a line that has missed its deadline, counts the miss on its port and reports it (R547,
R548). -/
def missDeadline (slot : Nat) (s : State) : State :=
  match (vget s.ingest.slots slot).entries.find? (·.writing) with
  | none => s
  | some e =>
    match e.tag with
    | none => s
    | some t =>
      let p := slot / 4
      let mine (r : BenchReq) : Bool := decide (r.port = p) && decide (r.slot = slot) && decide (r.line = t.line)
      let drop (c : BenchCtl) : BenchCtl := { c with pending := c.pending.filter fun r => !mine r }
      let s := { s with bench := { s.bench with ctl := s.bench.ctl.map drop } }
      let s := raiseOnce (0x360 + p) 0 0 (setPort p (fun x => { x with misses := wrap32 (x.misses + 1) }) s)
      abandonWrite slot s

/-- One field of a web line as its readers find it: the line tag, and the samples where it is no gap. -/
def readRingLine (s : State) (slot line field : Nat) : Bytes × Option (List Nat) :=
  let x := vget s.ingest.slots slot
  let l := layoutAt s slot
  if (x.relaid.contains (line, field)) || decide (l.depth = 0) then
    (lineTagBytes (blankTag slot line field) 0 0 8 0 false false false true, none)
  else
    let tag := benchRead s (l.base + ringTagOff l line (isSlotB slot) field) 32
    if lineTagGap tag then (tag, none)
    else
      let w := if isSlotB slot then l.widthB else l.widthA
      (tag, some (unpackRow w (benchRead s (l.base + ringSampleOff l line (isSlotB slot) field) (areaBytes w))))

end Sys2Proof.Machine
end

