-- ==== Sys2Proof/Machine/DovetailCalc.lean ====
section
/-! DEFINITION. The Dovetail's arithmetic: map evaluation (R334 to R336), cubic weights (R346), resampling (R344 to
R347), slot gains (R354), joining (R353, R357, R358), tracking (R361), registration (R364) and the strip ring's layout
(R367). -/

namespace Sys2Proof.Machine

/-- X_c of R329 in nm. -/
def columnX (g : GridCfg) (c : Nat) : Int := 1000 * g.originUm + c * g.pitchNm

/-- The pair of knots whose segment holds `x` (nm): the largest j ≤ K - 2 with 1000·X[j] ≤ x (R334). -/
def segmentOf (x : Int) : List Knot → Option (Knot × Knot)
  | a :: b :: rest =>
    if x < 1000 * a.x then none
    else
      match segmentOf x (b :: rest) with
      | some s => some s
      | none => if x ≤ 1000 * b.x then some (a, b) else none
  | _ => none

/-- POS of R334 at a cross-web position in nm, in units of 2^-20 pixel; none outside the map's range. -/
def mapPos (m : List Knot) (x : Int) : Option Int :=
  match segmentOf x m with
  | none => none
  | some (k0, k1) =>
    let h := k1.x - k0.x
    let a := x - 1000 * k0.x
    let b := 1000 * h
    let num := 16 * k0.p * (2 * a ^ 3 - 3 * a ^ 2 * b + b ^ 3) + h * k0.d * (a ^ 3 - 2 * a ^ 2 * b + a * b ^ 2) +
      16 * k1.p * (3 * a ^ 2 * b - 2 * a ^ 3) + h * k1.d * (a ^ 3 - a ^ 2 * b)
    some (Int.fdiv (num + 8 * b ^ 3) (16 * b ^ 3))

/-- A covered column's tap index and phase (R335, R336). -/
def tapOf (m : List Knot) (g : GridCfg) (width c : Nat) : Option (Nat × Nat) :=
  match mapPos m (columnX g c) with
  | none => none
  | some pos =>
    if pos < 0 ∨ ((width - 1) * 2 ^ 20 : Nat) < pos then none
    else
      let p := pos.toNat
      let i := p / 2 ^ 20
      let k := (p % 2 ^ 20 + 0x2000) / 2 ^ 14
      some (if k = 64 then (i + 1, 0) else (i, k))

/-- The weights of a phase up to 32, by the formulas of R346. -/
def cubicLow (k : Nat) : Int × Int × Int × Int :=
  let n : Int := k
  let w0 := roundShift (-(n * (64 - n) ^ 2)) 5
  let w2 := roundShift (-3 * n ^ 3 + 256 * n ^ 2 + 4096 * n) 5
  let w3 := roundShift (-(n ^ 2 * (64 - n))) 5
  (w0, 16384 - w0 - w2 - w3, w2, w3)

/-- Row k of the cubic weights (R346). -/
def cubicWeights (k : Nat) : Int × Int × Int × Int :=
  if k ≤ 32 then cubicLow k
  else
    let w := cubicLow (64 - k)
    (w.2.2.2, w.2.2.1, w.2.1, w.1)

/-- One corrected line as the Dovetail reads it, a tap outside it reading the edge pixel (R345). -/
def tapRead (xs : Array Nat) (i : Int) : Int :=
  ((xs.getD (if i < 0 then 0 else min i.toNat (xs.size - 1)) 0 : Nat) : Int)

/-- The resampled value of R344, clamped. -/
def resample (kernel : Nat) (xs : Array Nat) (i k : Nat) : Nat :=
  let x (o : Int) : Int := tapRead xs ((i : Int) + o)
  let v : Int :=
    match kernel with
    | 0 =>
      let w := cubicWeights k
      (w.1 * x (-1) + w.2.1 * x 0 + w.2.2.1 * x 1 + w.2.2.2 * x 2 + 0x2000) >>> 14
    | 1 => ((64 - (k : Int)) * 256 * x 0 + k * 256 * x 1 + 0x2000) >>> 14
    | _ => if k < 32 then x 0 else x 1
  (clampInt 0 0x3FFFF v).toNat

/-- The slot gain of R347. -/
def applyGain (v gain : Nat) : Nat := min 0x3FFFF ((v * gain + 0x2000) / 2 ^ 14)

/-- One link of the gain chain of R354. -/
def chainGain (g shim : Nat) : Nat := (g * shim + 0x2000) / 2 ^ 14

/-- The gains of ORDER right of the anchor, seam by seam. -/
def gainsRight (shimOf : Nat → Nat) : Nat → Nat → Nat → List Nat
  | _, _, 0 => []
  | k, g, n + 1 => let g' := chainGain g (shimOf k); g' :: gainsRight shimOf (k + 1) g' n

/-- The gains of ORDER left of the anchor, from the anchor outward. -/
def gainsLeft (shimOf : Nat → Nat) : Nat → Nat → List Nat
  | 0, _ => []
  | k + 1, g => let g' := chainGain g (shimOf k); g' :: gainsLeft shimOf k g'

/-- G of every entry of ORDER (R354). -/
def slotGains (shimOf : Nat → Nat) (anchor slots : Nat) : List Nat :=
  (gainsLeft shimOf anchor 16384).reverse ++ [16384] ++ gainsRight shimOf anchor 16384 (slots - 1 - anchor)

/-- One side of a column: a slot, or the import, as it serves the column (R358). -/
structure Side where
  covers : Bool := false
  gap : Bool := false
  value : Nat := 0
  fill : Nat := 0
  deriving DecidableEq, Repr, Inhabited

def sideUsable (s : Side) : Bool := s.covers && !s.gap

/-- The right slot's weight in a feather kerf (R357). -/
def featherWeight (first last c : Nat) : Nat :=
  let l := last - first + 1
  (512 * (c - first + 1) + l + 1) / (2 * (l + 1))

/-- The blend of R357. -/
def blend (vl vr w : Nat) : Nat := (vl * (256 - w) + vr * w + 128) / 256

/-- A formed column (R358): its value, and whether it is void (rule 3 or 4, R384). -/
def formOne (s : Side) (uncovered : Nat) : Nat × Bool :=
  if sideUsable s then (s.value, false) else if s.covers then (s.fill, true) else (uncovered, true)

def formTwo (l r : Side) (w uncovered : Nat) : Nat × Bool :=
  if sideUsable l && sideUsable r then (blend l.value r.value w, false)
  else if sideUsable l then (l.value, false)
  else if sideUsable r then (r.value, false)
  else if l.covers then (l.fill, true)
  else if r.covers then (r.fill, true)
  else (uncovered, true)

/-- Which entries of ORDER serve a column (R353): one index, or a blended pair with its kerf. -/
inductive Serving where
  | one (i : Nat)
  | two (i : Nat) (first last : Nat)
  deriving DecidableEq, Repr

/-- Walk the seams of ORDER from the left (R353). `k` is the seam index reached. -/
def servingFrom (kerfs : List KerfCfg) (k c : Nat) : Serving :=
  match kerfs with
  | [] => .one k
  | q :: rest =>
    if q.butt then (if c < q.seamColumn then .one k else servingFrom rest (k + 1) c)
    else if c < q.first then .one k
    else if c ≤ q.last then .two k q.first q.last
    else servingFrom rest (k + 1) c

/-- Column spans of the columns whose flag is set. -/
def spansOf : List Bool → Nat → List (Nat × Nat)
  | [], _ => []
  | b :: rest, c =>
    if b then
      match spansOf rest (c + 1) with
      | (a, e) :: more => if a = c + 1 then (c, e) :: more else (c, c) :: (a, e) :: more
      | [] => [(c, c)]
    else spansOf rest (c + 1)

/-- Differences of neighbouring values (R364). -/
def diffs : List Nat → List Int
  | a :: b :: rest => ((b : Int) - a) :: diffs (b :: rest)
  | _ => []

/-- The 17 correlation sums of one line (R364), tau from -8 to 8; dL and dR run from KERF_FIRST. -/
def corrLine (dl dr : List Int) : List Int :=
  let n := dl.length
  let core := (dl.drop 8).take (n - 16)
  (List.range 17).map fun i => ((core.zip ((dr.drop i).take (n - 16))).map fun e => e.1 * e.2).sum

/-- EL or ER of one line (R364). -/
def energyLine (d : List Int) : Nat := (((d.drop 8).take (d.length - 16)).map fun e => e.natAbs * e.natAbs).sum

/-- The order of R364's tie rule: larger C first, then smaller |tau|, then the negative one. Index i is tau + 8. -/
def tauBetter (c : List Int) (i j : Nat) : Bool :=
  let ci := c.getD i 0
  let cj := c.getD j 0
  let ai := absNat ((i : Int) - 8)
  let aj := absNat ((j : Int) - 8)
  decide (cj < ci) || (decide (ci = cj) && (decide (ai < aj) || (decide (ai = aj) && decide (i < j))))

def bestTau (c : List Int) : Nat := (List.range 17).foldl (fun b i => if tauBetter c i b then i else b) 8

/-- floor(65536 · C / sqrt(EL · ER)) (R364), 0 when EL · ER is 0; at most 65,535 in its Q0.16 field. -/
def corrFigure (c : Int) (el er : Nat) : Int :=
  if el * er = 0 then 0
  else if 0 ≤ c then (isqrt ((65536 * c.natAbs) ^ 2 / (el * er)) : Int)
  else
    let q := (65536 * c.natAbs) ^ 2 / (el * er)
    -- floor of a negative quotient: one more than the root of the magnitude unless it is exact
    let r := isqrt q
    if r * r * (el * er) = (65536 * c.natAbs) ^ 2 then -(r : Int) else -(r : Int) - 1

/-- RES of R364 in 1/256 column, for a tau inside the range. -/
def regResidual (c : List Int) (i : Nat) : Int :=
  let cm := c.getD (i - 1) 0
  let c0 := c.getD i 0
  let cp := c.getD (i + 1) 0
  let den := cm - 2 * c0 + cp
  let t := (i : Int) - 8
  if den < 0 then roundDiv (2 * 256 * t * den.natAbs - 256 * (cm - cp)) (2 * den.natAbs) else 256 * t

/-- MISMATCH_PPM of Table 7-7. -/
def mismatchPpm (sl sr : Nat) : Int := if sr = 0 then 0 else Int.fdiv (2 * ((sl : Int) - sr) * 1000000 + sr) (2 * sr)

/-- The numerator and denominator of R361's update for one seam and field; none when there is no update. -/
def seamStep (right : Bool) (sl sr shim : Nat) : Option (Int × Int) :=
  if sl = 0 ∨ sr = 0 then none
  else if right then some (((sl : Int) - sr) * shim, sr) else some (((sr : Int) - sl) * shim, sl)

/-- Offsets of R367. -/
def rowBytes (l : StripLayout) : Nat := areaBytes l.columns
def stripPos (l : StripLayout) (n : Nat) : Nat := n % l.lines
def stripSampleOff (l : StripLayout) (n f : Nat) : Nat := (stripPos l n * l.fields + f) * rowBytes l
def stripTagOff (l : StripLayout) (n f : Nat) : Nat := l.lines * l.fields * rowBytes l + (stripPos l n * l.fields + f) * 32
def stripBytes (l : StripLayout) : Nat := l.lines * l.fields * (rowBytes l + 32)

/-- The stitched tag of Table 7-2. -/
def stitchedTag (line : Nat) (webPos : Int) (stime field sflags dropMask satMask strip : Nat) : Bytes :=
  le 4 line ++ leI 8 webPos ++ le 4 stime ++ le 1 field ++ zeros 1 ++ le 2 sflags ++ le 4 dropMask ++ le 4 satMask ++ le 4 strip

/-- Reading a stitched tag. -/
def stTagLine (b : Bytes) : Nat := u32 b 0
def stTagPos (b : Bytes) : Int := s64 b 4
def stTagStime (b : Bytes) : Nat := u32 b 12
def stTagFlags (b : Bytes) : Nat := u16 b 18

/-- The whole-line delay of R348. -/
def lineDelay (offMax offset : Int) (pitch : Nat) : Nat := if pitch = 0 then 0 else ceilDiv (offMax - offset).toNat pitch

end Sys2Proof.Machine
end

