-- ==== Sys2Proof/Machine/ProfileCalc.lean ====
section
/-! DEFINITION. The arithmetic of the profile chain and the Veneer: zone means (R464), medians (R466), grits (R467),
watches (R471, R472), frames (R484, R486, R490) and datagrams (R493). -/

namespace Sys2Proof.Machine

/-- DEC of a grit, as its power of two (R467). -/
def gritShift (g : Nat) : Nat := 2 + 2 * min g 3
def gritDec (g : Nat) : Nat := 2 ^ gritShift g

/-- Table 10-1. -/
def firCoeffs : List Int := [92, 380, -160, -1100, -1050, 1350, 4700, 7960, 4700, 1350, -1050, -1100, -160, 380, 92]

/-- A boxcar of `d` ones applied to a coefficient list. -/
def boxcar (d : Nat) (h : List Nat) : List Nat :=
  (List.range (h.length + d - 1)).map fun i => ((h.zipIdx.filter fun e => decide (e.2 ≤ i) && decide (i < e.2 + d)).map Prod.fst).sum

/-- The 3·DEC − 2 coefficients of three cascaded boxcars (R467). -/
def cicCoeffs (d : Nat) : List Nat := boxcar d (boxcar d (List.replicate d 1))

/-- Q18.6 mean of N values, rounded half up (R464). -/
def meanQ18 (sum n : Nat) : Nat := (sum * 64 + n / 2) / n

/-- The middle of an odd number of values. -/
def medianOf (l : List Nat) : Nat := (sortBy (fun a b => decide (a < b)) l).getD (l.length / 2) 0

/-- Take one input into a grit filter, at web line `n`: the filter after it, and whether an output was formed (R467, R470). -/
def gritStep (grit n x : Nat) (g : GritState) : GritState × Bool :=
  let k := gritShift grit
  let dec := 2 ^ k
  let fill := g.fill.getD x
  let xs := (x :: g.xs).take (3 * dec - 2)
  if (n + 1) % dec ≠ 0 then ({ g with fill := some fill, xs := xs }, false)
  else
    let sumH := ((cicCoeffs dec).zipIdx.map fun e => e.1 * xs.getD e.2 fill).sum
    let y := (sumH + 2 ^ (3 * k - 1)) / 2 ^ (3 * k)
    let ys := (y :: g.ys).take 15
    let acc := (firCoeffs.zipIdx.map fun e => e.1 * ((ys.getD e.2 fill : Nat) : Int)).sum
    let o := (clampInt 0 0xFFFFFF ((acc + 0x2000) >>> 14)).toNat
    ({ fill := some fill, xs := xs, ys := ys, out := some o }, true)

/-- A zone mean through its median and its grit (R466). -/
def zoneStep (cfg : GritCfg) (n mean : Nat) (z : ZoneState) : ZoneState × Bool :=
  let fill := z.grit.fill.getD mean
  let means := (mean :: z.means).take cfg.median
  let med := medianOf (means ++ List.replicate (cfg.median - means.length) fill)
  let g := gritStep cfg.grit n med z.grit
  ({ z with last := some mean, means := means, grit := g.1 }, g.2)

/-- q of R471 for a zone with output `m`, `a` being the mean of its slot's zones; none when the output is not tested. -/
def watchValue (mode m a : Nat) : Option Int :=
  if mode = 1 then some m
  else if mode = 2 then (if a = 0 then none else some (Int.fdiv (2 * ((m : Int) - a) * 1000000 + a) (2 * a)))
  else none

/-- One output through Table 10-3: the next state and count. -/
def watchStep (c : WatchCfg) (st : WatchState) (count : Nat) (q : Int) : WatchState × Nat :=
  let go (hit : Bool) (dest : WatchState) : WatchState × Nat :=
    if hit then (if c.minDur ≤ count + 1 then (dest, 0) else (st, count + 1)) else (st, 0)
  match st with
  | .normal =>
    if c.high < q then go true .high else if q < c.low then go true .low else (.normal, 0)
  | .high => go (decide (q < c.high - c.hyst)) .normal
  | .low => go (decide (c.low + c.hyst < q)) .normal

/-- The entries of a background (R475). -/
def bgCount (columns : Nat) : Nat := (columns + 15) / 16

/-- The input of a background entry from its samples (none where a sample is void): the mean of R476, and how many
samples BG_CLIP replaced. -/
def bgInput (clip : Nat) (stored : Option Nat) (samples : List (Option Nat)) : Option Nat × Nat :=
  let vs := samples.filterMap id
  let fixed := vs.map fun v =>
    match stored with
    | some b => if clip ≠ 0 && decide (clip < absNat ((v : Int) - b)) then (b, 1) else (v, 0)
    | none => (v, 0)
  if vs.isEmpty then (none, 0)
  else (some (meanQ18 (fixed.map Prod.fst).sum vs.length), (fixed.map Prod.snd).sum)

/-- One line through one entry filter (R476, R477): the entry after it and the samples replaced. -/
def bgEntryStep (cfg : BgCfg) (n : Nat) (stored : Option Nat) (samples : List (Option Nat)) (e : BgEntry) : BgEntry × Nat :=
  let i := bgInput cfg.clip stored samples
  match i.1.or e.last with
  | none => (e, i.2)
  | some x => ({ last := some x, grit := (gritStep cfg.grit n x e.grit).1 }, i.2)

/-- A row of a background at a storing block end line (R477). -/
def bgRowOf (n : Nat) (es : List BgEntry) : Option BgRow :=
  if es.any fun e => e.grit.out.isSome then some { line := n, entries := es.map fun e => e.grit.out.map fun o => min 0x3FFFF ((o + 32) / 64) }
  else none

/-- The pixels of one output row from the samples of its YS lines (R484); each line is given from its own crop. -/
def viewRow (xs ys w : Nat) (lut : Bytes) (rows : List (List Nat)) : Bytes :=
  (List.range w).map fun i =>
    let s := (rows.map fun r => ((r.drop (i * xs)).take xs).sum).sum
    byteAt lut (((s + xs * ys / 2) / (xs * ys)) / 256)

/-- A box of R486 in output columns and rows, before clipping. -/
structure ViewBox where
  c0 : Int
  c1 : Int
  r0 : Int
  r1 : Int
  code : Nat
  deriving DecidableEq, Repr

def severityCode (s : Nat) : Nat := if s ≤ 2 then 1 else if s ≤ 5 then 2 else 3

/-- A region's box in a frame (R486); none when it lies wholly outside. `minCol` and `maxCol` are web-wide. -/
def viewBox (v : ViewCfg) (base crop first : Nat) (severity minCol maxCol fstLine lstLine : Nat) : Option ViewBox :=
  let w : Int := v.cropCols / v.xs
  let c0 := Int.fdiv ((minCol : Int) - base - crop) v.xs
  let c1 := Int.fdiv ((maxCol : Int) - base - crop) v.xs
  let r0 := Int.fdiv (sdiff32 fstLine first) v.ys
  let r1 := Int.fdiv (sdiff32 lstLine first) v.ys
  let h : Int := v.height
  if c1 < 0 ∨ w ≤ c0 ∨ r1 < 0 ∨ h ≤ r0 then none
  else some ⟨clampInt 0 (w - 1) c0, clampInt 0 (w - 1) c1, clampInt 0 (h - 1) r0, clampInt 0 (h - 1) r1, severityCode severity⟩

/-- The overlay code of one output pixel: the highest code of the outlines that pass through it. -/
def overlayAt (boxes : List ViewBox) (r i : Int) : Nat :=
  boxes.foldl (fun m b =>
    let inside := decide (b.r0 ≤ r) && decide (r ≤ b.r1) && decide (b.c0 ≤ i) && decide (i ≤ b.c1)
    let edge := decide (r = b.r0) || decide (r = b.r1) || decide (i = b.c0) || decide (i = b.c1)
    if inside && edge then max m b.code else m) 0

/-- The overlay plane, two bits a pixel (R490). -/
def overlayPlane (boxes : List ViewBox) (w h : Nat) : Bytes :=
  (List.range ((w * h + 3) / 4)).map fun b =>
    BitVec.ofNat 8 ((List.range 4).map fun k =>
      let p := 4 * b + k
      if p < w * h then overlayAt boxes ((p / w : Nat) : Int) ((p % w : Nat) : Int) * 4 ^ k else 0).sum

/-- Table 10-4. -/
def viewHeader (stream : Nat) (v : ViewCfg) (f : ViewFrame) (base : Nat) (pos : Int) (stime sflagsOr olStrip boxes : Nat) : Bytes :=
  let crop := (f.crops.head?.map Prod.snd).getD 0
  let moved := f.crops.any fun c => decide (c.2 ≠ crop)
  let w := v.cropCols / v.xs
  let ol := if v.overlay then (w * v.height + 3) / 4 else 0
  le 4 f.seq ++ le 4 f.strip ++ le 4 f.firstLine ++ leI 8 pos ++ le 4 stime ++ le 1 stream ++ le 1 v.field ++
    le 2 (flagBit f.skipBefore 3 + flagBit f.restart 2 + flagBit moved 1 + flagBit v.overlay 0) ++ le 2 w ++ le 2 v.height ++
    le 4 (base + crop) ++ le 2 v.xs ++ le 2 v.ys ++ le 4 (sflagsOr % 65536) ++ le 4 (w * v.height) ++ le 4 ol ++
    le 4 (if v.overlay then olStrip else 0) ++ le 4 (if v.overlay then boxes else 0) ++ zeros 4

/-- Chunks of at most `n` bytes, with their offsets; `fuel` bounds their number. -/
def chunksOf (n : Nat) : Nat → Nat → Bytes → List (Nat × Bytes)
  | 0, _, _ => []
  | fuel + 1, off, b => if b.isEmpty then [] else (off, b.take n) :: chunksOf n fuel (off + n) (b.drop n)

/-- The datagrams of a frame in order (R493, Table 10-5). -/
def viewDatagrams (stream : Nat) (v : ViewCfg) (f : ViewFrame) (header image overlay : Bytes) : List Datagram :=
  let size := v.mtu - 60
  let parts := (0, 0, header) :: ((chunksOf size image.length 0 image).map fun c => (1, c.1, c.2)) ++
    (chunksOf size overlay.length 0 overlay).map fun c => (2, c.1, c.2)
  parts.zipIdx.map fun e =>
    { port := v.port, destMac := v.destMac, destIp := v.destIp, destUdp := v.destUdp, srcUdp := v.srcUdp, ttl := v.ttl, dscp := v.dscp,
      payload := le 2 0x5645 ++ le 1 1 ++ le 1 e.1.1 ++ le 1 stream ++ zeros 1 ++ le 2 e.1.2.2.length ++ le 4 f.seq ++ le 4 f.strip ++
        le 4 e.1.2.1 ++ le 4 e.2 ++ le 4 parts.length ++ zeros 4 ++ e.1.2.2 }

/-- The layout of a frame in a host buffer (R490): each section on a 64-byte boundary. -/
def frameBytes (f : SentFrame) : Bytes :=
  let pad (b : Bytes) : Bytes := padTo ((b.length + 63) / 64 * 64) b
  f.header ++ pad f.image ++ pad f.overlay

/-- R494, the PROFILE group of a slot. -/
def profileCounterBytes (c : ProfileCounters) : Bytes :=
  le 4 c.heldInputs ++ le 4 c.outputs ++ le 4 c.highEntries ++ le 4 c.lowEntries ++ le 4 c.clears ++ zeros 4

def viewCounterBytes (c : ViewCounters) : Bytes :=
  le 4 c.formed ++ le 4 c.delivered ++ le 4 c.skipped ++ le 4 c.failed ++ le 4 c.boxes ++ le 4 c.datagrams

end Sys2Proof.Machine
end

