-- ==== Sys2Proof/Machine/PlaneOps.lean ====
section
/-! DEFINITION. The operations of the Plane and the Jig: banks and their hand-over (R52 to R58, R280), shims and drift tracking
(R292 to R299), one web line (R275 to R291), and a Jig command's passes and result (R300 to R325). -/

namespace Sys2Proof.Machine

/-! ### A unit's place in a glue-up -/

/-- The unit has taken the pending configuration, or none is pending. -/
def unitTaken (s : State) (u : LineUnit) : Bool := match s.glue with | some g => g.applied.contains u | none => true

def markTaken (u : LineUnit) (s : State) : State :=
  match s.glue with
  | some g => if g.applied.contains u then s else { s with glue := some { g with applied := g.applied ++ [u] } }
  | none => s

def countLate (n : Nat) (s : State) : State :=
  match s.glue with
  | some g => { s with glue := some { g with lateWrites := g.lateWrites + n } }
  | none => s

/-- A web line lies at or after the effective strip of the pending glue-up. -/
def afterGlue (s : State) (line : Nat) : Bool :=
  match s.glue with
  | some g => (match g.first with | some f => atOrAfter line f | none => false)
  | none => false

/-- A web line is the last before the effective strip of the pending glue-up (R58). -/
def lastBeforeGlue (s : State) (line : Nat) : Bool :=
  match s.glue with
  | some g => (match g.first with | some f => decide (wrap32 (line + 1) = f) | none => false)
  | none => false

/-- First web line from which strips lie under a configuration that has just come into force in a unit. -/
def glueFrom (s : State) (last : Option Nat) : Nat :=
  match s.glue with
  | some { first := some f, .. } => f
  | _ => match last with | some l => lineAfter s l | none => 0

/-- A staged edit of a bank (R53, R100 to R102): refused before capture, held while the bank is locked, else done at once. -/
def bankEdit (s : State) (u : LineUnit) (locked : Bool) (now later : State → State) : Verdict :=
  if s.ring.prepared.isSome then busy 5 0 s
  else if unitTaken s u then ok [] (now s)
  else if locked then replyLater (later s)
  else busy 2 0 s

/-- Late writes of a unit are answered after its swap (R101). -/
def answerLate (tickets : List Nat) (s : State) : State := tickets.foldl (fun s t => complete t stOkLate [] s) s

/-! ### Zone shims (R292 to R299) -/

def shimKey (field zone : Nat) : Nat := field * 64 + zone

def zoneShim (x : SlotPlane) (field zone : Nat) : Nat := sget x.shims (shimKey field zone) 16384

def setZoneShim (slot field zone v : Nat) (s : State) : State :=
  setSlotPlane slot (fun x => { x with shims := sset x.shims (shimKey field zone) v 16384 }) s

/-- The zone of a pixel under a layout (R463). -/
def zoneOf (z : ZoneCfg) (u : Nat) : Option Nat :=
  (List.range z.zones).find? fun i => decide (z.bounds.getD i 0 ≤ u) && decide (u < z.bounds.getD (i + 1) 0)

/-- The shims of a line's pixels (R276, R292). -/
def pixelShim (z : ZoneCfg) (x : SlotPlane) (field u : Nat) : Nat :=
  match zoneOf z u with
  | some i => zoneShim x field i
  | none => 16384

/-- The latest output of a zone's filter. -/
def zoneOutput (s : State) (slot field zone : Nat) : Option Nat :=
  match (vget s.prof.slots slot).zones.find? fun z => decide (z.key = shimKey field zone) with
  | some z => z.grit.out
  | none => none

/-- Updates that come into force at or before a web line, with those that a host write overtook discarded (R297, R298). -/
def applyUpdates (slot line : Nat) (s : State) : State :=
  let due := (vget s.plane.slots slot).updates.filter fun u => atOrAfter line u.fromLine
  let s := setSlotPlane slot (fun x => { x with updates := x.updates.filter fun u => !atOrAfter line u.fromLine }) s
  due.foldl (fun s u =>
    let x := vget s.plane.slots slot
    let k := shimKey u.field u.zone
    let shift := (cfgAt s (wrap32 (u.fromLine + 2 ^ 32 - 1))).shift
    let lastOfK := wrap32 (u.fromLine + 2 ^ 32 - 1 - 2 ^ shift)
    let overtaken := x.hostWrites.any fun w => decide (w.1 = k) && atOrAfter w.2 lastOfK
    if overtaken then setSlotPlane slot (fun x => { x with cnt := { x.cnt with driftDiscarded := wrap32 (x.cnt.driftDiscarded + 1) } }) s
    else
      let s := if zoneShim x u.field u.zone = u.value then s
        else setSlotPlane slot (fun x => { x with cnt := { x.cnt with driftUpdates := wrap32 (x.cnt.driftUpdates + 1) } }) s
      setZoneShim slot u.field u.zone u.value s) s

/-- The profile chain has taken a web line of every field that it watches for a slot. -/
def profilePast (s : State) (slot line : Nat) : Bool :=
  let cfg := cfgAt s line
  (maskFields (vget cfg.grit slot).fields).all fun f =>
    decide (fieldsOf cfg ≤ f) || ((vget s.prof.slots slot).last.any fun l => decide (l.1 = f) && atOrAfter l.2 line)

/-- Drift of one zone at the end of a strip: capture of its reference (R296), or a new shim from strip k + 2 on (R297, R299). -/
def driftZone (slot field zone strip lastLine shim step : Nat) (s : State) : State :=
  match zoneOutput s slot field zone with
  | none => s
  | some m =>
    let x := vget s.plane.slots slot
    let k := shimKey field zone
    let shift := (cfgAt s lastLine).shift
    let first := wrap32 (lastLine + 2 ^ 32 + 1 - 2 ^ shift)
    match x.wants.find? fun w => decide (w.field = field) && decide (w.zone = zone) with
    | some w =>
      if atOrAfter first w.fromLine then
        setSlotPlane slot (fun x => { x with wants := x.wants.erase w, refs := (x.refs.filter fun r => decide (r.1 ≠ k)) ++ [(k, m)] }) s
      else s
    | none =>
      match x.refs.find? fun r => decide (r.1 = k) with
      | none => s
      | some r =>
        match driftStep m r.2 shim step with
        | none => s
        | some (new, limited) =>
          let s := setSlotPlane slot (fun x => { x with
            updates := x.updates ++ [⟨field, zone, new, wrap32 (lastLine + 1 + 2 ^ shift), strip⟩]
            cnt := { x.cnt with driftLimited := wrap32 (x.cnt.driftLimited + (if limited then 1 else 0)) } }) s
          if limited then raiseOnceIn strip (0x160 + slot) 0 0 s else s

/-- Drift updates of strips that both the Plane and the profile chain have ended (R297). -/
def driftDue (slot : Nat) (s : State) : State :=
  let due := (vget s.plane.slots slot).ends.filter fun e => profilePast s slot e.2.1
  let s := setSlotPlane slot (fun x => { x with ends := x.ends.filter fun e => !profilePast s slot e.2.1 }) s
  due.foldl (fun s e =>
    let cfg := cfgAt s e.2.1
    let pc := vget cfg.plane slot
    (maskFields pc.drift).foldl (fun s f => (List.range (vget cfg.zone slot).zones).foldl (fun s z =>
      driftZone slot f z e.1 e.2.1 (sget e.2.2 (shimKey f z) 16384) pc.driftStep s) s) s) s

/-! ### The hand-over (R56, R58, R294, R296) -/

/-- The zones of a field return to 16,384, and what was tracked of them is forgotten (R294). -/
def resetField (slot field : Nat) (s : State) : State :=
  setSlotPlane slot (fun x => { x with
    shims := x.shims.filter fun k => decide (k.1 / 64 ≠ field)
    updates := x.updates.filter fun u => decide (u.field ≠ field) }) s

/-- References of a field are to be captured again, for strips that begin at or after a web line (R296). -/
def recapture (slot field zones fromLine : Nat) (s : State) : State :=
  setSlotPlane slot (fun x => { x with
    refs := x.refs.filter fun r => decide (r.1 / 64 ≠ field)
    wants := (x.wants.filter fun w => decide (w.field ≠ field)) ++ (List.range zones).map fun z => ⟨field, z, fromLine⟩ }) s

/-- A zone shim that host software sets is in force from a line (R292, R298). -/
def hostShim (slot field zone v line : Nat) (s : State) : State :=
  setSlotPlane slot (fun x => { x with
    hostWrites := (x.hostWrites.filter fun w => decide (w.1 ≠ shimKey field zone)) ++ [(shimKey field zone, line)] }) (setZoneShim slot field zone v s)

/-- Live trims of a slot's shims come into force with their line (R705). -/
def planeTrims (slot line : Nat) (s : State) : State :=
  let due (t : Trim) : Bool := match t with
    | .zoneShim i _ _ _ l => decide (i = slot) && atOrAfter line l
    | .zoneRef i _ _ l => decide (i = slot) && atOrAfter line l
    | _ => false
  let r := takeTrims due s
  r.1.foldl (fun s t => match t with
    | .zoneShim i f z v l => hostShim i f z v l s
    | .zoneRef i f zones l => recapture i f zones l s
    | _ => s) r.2

/-- The Plane captures a slot's shadow bank (R52). -/
def planeCapture (slot : Nat) (s : State) : State :=
  if unitTaken s (.plane slot) then s
  else setSlotPlane slot (fun x => { x with captured := some (x.captured.getD x.shadow) }) s

/-- The Plane of a slot takes the pending configuration: its banks swap, held writes go into the new shadow bank, shims and
references follow, and a Jig command whose lines it changes ends (R53, R56, R294, R296, R306). -/
def planeTake (slot : Nat) (s : State) : State :=
  if unitTaken s (.plane slot) then s
  else
    match s.glue with
    | none => s
    | some g =>
      let old := s.running
      let new := g.next
      let x := vget s.plane.slots slot
      let act := x.captured.getD x.shadow
      let shadow := x.held.foldl (fun b w => tableApply w.1 b) x.active
      let gainChanged (f : Nat) : Bool := decide (vget act.gain f ≠ vget x.active.gain f) || decide (vget act.gg f ≠ vget x.active.gg f)
      let zonesChanged := decide (vget old.zone slot ≠ vget new.zone slot)
      let s := setSlotPlane slot (fun x => { x with
        active := act
        shadow := shadow
        captured := none
        held := []
        cnt := { x.cnt with lateWrites := wrap32 (x.cnt.lateWrites + x.held.length) } }) s
      let s := countLate x.held.length s
      let s := (List.range 4).foldl (fun s f => if zonesChanged || gainChanged f then resetField slot f s else s) s
      let drift := (vget new.plane slot).drift
      let s := (List.range 4).foldl (fun s f =>
        if !bitOf drift f then setSlotPlane slot (fun x => { x with
          refs := x.refs.filter fun r => decide (r.1 / 64 ≠ f), wants := x.wants.filter fun w => decide (w.field ≠ f) }) s
        else if zonesChanged || gainChanged f || !bitOf (vget old.plane slot).drift f then
          recapture slot f (vget new.zone slot).zones (glueFrom s x.last) s
        else s) s
      let changed := decide ((vget old.link slot).width ≠ (vget new.link slot).width) || decide (fieldsOf old ≠ fieldsOf new) || !ingestOn new slot
      let s := if changed then abortJig slot .configChanged stAborted s else s
      answerLate (x.held.map (·.2)) (markTaken (.plane slot) s)

/-! ### One web line (R275 to R291) -/

/-- The next web line that the Plane may begin for a slot. -/
def planeNext (s : State) (slot : Nat) : Option Nat := (vget s.plane.slots slot).last.map fun l => passOver s slot (wrap32 (l + 1))

/-- One field of a web line through the Plane. -/
def planeField (slot line field : Nat) (s : State) : State :=
  let cfg := cfgAt s line
  let pc := vget cfg.plane slot
  let r := readRingLine s slot line field
  match r.2 with
  | none => setSlotPlane slot (fun x => { x with out := x.out ++ [{ line, field, gap := true, tag := r.1 }] }) s
  | some xs =>
    let x := vget s.plane.slots slot
    let received := min (lineTagReceived r.1) xs.length
    let o := planeLine x.active pc field (pixelShim (vget cfg.zone slot) x field) received xs
    let sat := decide (0 < o.satSamples)
    let s := setSlotPlane slot (fun x => { x with
      out := x.out ++ [{ line, field, samples := o.samples, tag := r.1, sat }]
      cnt := { x.cnt with
        satLines := wrap32 (x.cnt.satLines + (if sat then 1 else 0))
        satSamples := wrap32 (x.cnt.satSamples + o.satSamples)
        replaced := wrap32 (x.cnt.replaced + o.replaced) } }) s
    if sat then raiseOnceIn (stripAt s line) (0x148 + slot) 0 0 s else s

/-- The Plane begins a web line of a slot: it takes up the configuration of its strip, captures before a hand-over, applies
drift updates that come into force, and corrects every field. It does not begin strip k + 2 before the drift updates of
strip k are known. -/
def planeStep (slot : Nat) (s : State) : State :=
  match planeNext s slot with
  | none => s
  | some n =>
    let cfg := cfgAt s n
    let strip := stripOf cfg.shift n
    let blocked := (vget s.plane.slots slot).ends.any fun e => !later32 (wrap32 (e.1 + 2)) strip
    if !inSpans s n || !isReady s slot n || !ingestOn cfg slot || blocked || isFenced s 0x04 slot then s
    else
      let s := if afterGlue s n then planeTake slot s else if lastBeforeGlue s n then planeCapture slot s else s
      let s := applyUpdates slot n (planeTrims slot n (setSlotPlane slot (fun x => { x with last := some n }) s))
      let s := (List.range (fieldsOf cfg)).foldl (fun s f => planeField slot n f s) s
      let s := if isStripLast cfg.shift n && decide ((vget cfg.plane slot).drift ≠ 0) then
          setSlotPlane slot (fun x => { x with ends := x.ends ++ [(strip, n, x.shims)] }) s
        else s
      flushGaps slot (pruneRelaid slot (driftDue slot s))

/-! ### The Jig: acquisition (R300 to R303) -/

/-- First web line of pass B, from that of pass A (R300). -/
def jigFirstB (shift first : Nat) (p : JigPar) : Nat :=
  stripFirst shift (stripOf shift (wrap32 (first + p.lines - 1)) + 1 + p.gapStrips)

/-- STROBES_OFF holds a slot's strobes from the first line of pass A to the last of pass B (R307). -/
def jigHoldsStrobes (s : State) (slot line : Nat) : Bool :=
  match vget s.plane.jig slot with
  | some j =>
    match j.firstA with
    | some a => j.par.strobesOff && atOrAfter line a && later32 (wrap32 (jigFirstB (cfgAt s a).shift a j.par + j.par.lines)) line
    | none => false
  | none => false

/-- The first web line of a strip has been triggered: Jig commands that wait for it begin pass A there (R300). -/
def jigBegin (line : Nat) (s : State) : State :=
  (List.range 24).foldl (fun s slot => match vget s.plane.jig slot with
    | some j =>
      if j.firstA.isNone then
        let x := vget s.plane.slots slot
        let copy := if j.par.kind = .flat ∧ j.par.darkShadow then x.shadow else x.active
        setJig slot (some { j with firstA := some line, nextLine := line, darkCopy := some copy }) s
      else s
    | none => s) s

/-- Add one field's samples to the sums of a pass. -/
def addSums (old : List Nat) (xs : List Nat) : List Nat := if old = [] then xs else (old.zip xs).map fun p => p.1 + p.2

/-- What a Jig command adds of one field's samples: x, or for JIG_FLAT max(0, x - DARK) (R301, R311). -/
def jigSamples (j : JigRun) (field : Nat) (xs : List Nat) : List Nat :=
  match j.par.kind, j.darkCopy with
  | .flat, some t => (xs.zip (sexpand (vget t.dark field) (fun _ => 0) 0 xs.length)).map fun p => p.1 - p.2
  | _, _ => xs

/-- One field of a line is usable: no gap, neither SHORT nor LONG, and its ring position not yet reused (R301). -/
def jigUsable (tag : Bytes) (samples : Option (List Nat)) (line : Nat) : Bool :=
  samples.isSome && decide (lineTagWebline tag = line) && !bitOf (lineTagFlags tag) 7 && !bitOf (lineTagFlags tag) 8

/-- Accumulate a web line in every field of FIELDS. -/
def jigLine (slot line : Nat) (j : JigRun) (s : State) : JigRun × Nat :=
  (maskFields j.par.fields).foldl (fun (a : JigRun × Nat) f =>
    let r := readRingLine s slot line f
    match r.2 with
    | some xs =>
      if jigUsable r.1 r.2 line then
        let v := jigSamples a.1 f xs
        (if a.1.passB then { a.1 with sumsB := vmod a.1.sumsB f (addSums · v), nB := vmod a.1.nB f (· + 1) }
         else { a.1 with sumsA := vmod a.1.sumsA f (addSums · v), nA := vmod a.1.nA f (· + 1) }, a.2)
      else (a.1, a.2 + 1)
    | none => (a.1, a.2 + 1)) (j, 0)

/-- A pass ends with too few lines in some field (R302). -/
def passShort (j : JigRun) (n : Vector Nat 4) : Bool := (maskFields j.par.fields).any fun f => decide (2 * vget n f < j.par.lines)

/-- The Jig acquires the next line of its pass (R300 to R302). -/
def jigAcquire (slot : Nat) (s : State) : State :=
  match vget s.plane.jig slot with
  | none => s
  | some j =>
    match j.firstA with
    | none => s
    | some a =>
      let n := j.nextLine
      if j.ready || !isReady s slot n || !inSpans s n then s
      else
        let j := if j.passB && j.firstB.isNone then { j with firstB := some n, skipEvent := false } else j
        let r := jigLine slot n j s
        let skip := decide (0 < r.2)
        let j' := { r.1 with nextLine := wrap32 (n + 1), skipped := r.1.skipped + r.2, skipEvent := r.1.skipEvent || skip }
        let s := setSlotPlane slot (fun x => { x with cnt := { x.cnt with jigSkipped := wrap32 (x.cnt.jigSkipped + r.2) } }) s
        let s := if skip && !j.skipEvent then raise 0x17A 0 0 s else s
        let first := if j.passB then j'.firstB.getD n else a
        if wrap32 (n + 1) ≠ wrap32 (first + j.par.lines) then setJig slot (some j') s
        else if !j.passB then
          let s := raise 0x178 0 0 s
          if passShort j' j'.nA then abortJig slot .linesShort stAborted (setJig slot (some j') s)
          else setJig slot (some { j' with passB := true, nextLine := jigFirstB (cfgAt s a).shift a j.par }) s
        else
          let s := raise 0x179 0 0 s
          if passShort j' j'.nB then abortJig slot .linesShort stAborted (setJig slot (some j') s)
          else setJig slot (some { j' with ready := true }) s

/-! ### The Jig: the acceptance test (R308 to R325) -/

/-- What one field of a dark or flat calibration gives. -/
structure JigField where
  field : Nat := 0
  px : List JigPixel := []
  target : Nat := 0
  rms : Nat := 0
  peak : Nat := 0

def jigFieldOf (p : JigPar) (j : JigRun) (defect : List Nat) (f : Nat) : JigField :=
  let sa := vget j.sumsA f
  let sb := vget j.sumsB f
  let na := vget j.nA f
  let nb := vget j.nB f
  match p.kind with
  | .dark => { field := f, px := (sa.zip sb).zipIdx.map fun e => jigDarkPixel p defect e.2 e.1.1 na e.1.2 nb }
  | _ =>
    let ya := sa.map fun v => meanQ6 v na
    let yb := sb.map fun v => meanQ6 v nb
    let free := ya.zipIdx.filter fun e => !defect.contains e.2
    let mean := if free.length = 0 then 0 else (roundDiv (((free.map Prod.fst).sum : Nat) : Int) (64 * free.length)).toNat
    let t := if p.target = 0 then mean else p.target
    let px := (ya.zip yb).zipIdx.map fun e => jigFlatPixel p defect t e.2 e.1.1 e.1.2
    let q := jigQuality t (px.zip yb)
    { field := f, px, target := t, rms := q.1, peak := q.2 }

/-- Candidates of every field, in ascending pixel order, with their field masks and reasons. -/
def jigCands (fs : List JigField) : List JigCand :=
  let all := fs.flatMap fun x => (x.px.filter fun q => decide (q.reason ≠ 0)).map fun q => (x.field, q)
  (mergeAsc [] (all.map fun e => e.2.u)).map fun u =>
    let here := all.filter fun e => decide (e.2.u = u)
    { pixel := u, fields := (here.map fun e => 2 ^ e.1).sum, reasons := here.foldl (fun m e => m ||| e.2.reason) 0 }

/-- The worst field (R318): for an accepted calibration the highest RMS_PPM, else the lowest share of agreeing pixels; the lower
field on a tie. -/
def worstField (accepted : Bool) : List JigField → JigField
  | [] => {}
  | x :: xs => xs.foldl (fun w y =>
      let lower := decide (jigAgree y.px * jigChecked w.px < jigAgree w.px * jigChecked y.px) || (decide (jigChecked y.px = 0) && decide (jigChecked w.px ≠ 0))
      let worse := if accepted && decide (w.rms ≠ y.rms) then decide (w.rms < y.rms) else lower
      if worse then y else w) x

/-- The figures, the staged writes and the candidates of a dark or flat calibration. -/
def jigTables (j : JigRun) (shadow : TableSet) : JigFigures × Option JigStaged × List JigCand :=
  let fs := (maskFields j.par.fields).map (jigFieldOf j.par j shadow.defect)
  let cands := jigCands fs
  let pass := fs.all fun x => jigFieldPass j.par.fractionPpm x.px
  let list := jigDefect j.par.defectMode shadow.defect (cands.map (·.pixel))
  let accepted := pass && jigDefectOk list
  let w := worstField accepted fs
  let fig : JigFigures := {
    result := if accepted then 0 else 1
    reason := if !pass then .fraction else if accepted then .none else .defectLimit
    field := w.field, candidates := (fs.map fun x => (x.px.filter fun q => decide (q.reason ≠ 0)).length).sum
    checked := jigChecked w.px, agree := jigAgree w.px, rms := w.rms, peak := w.peak
    targetUsed := if j.par.kind = .flat then w.target else 0 }
  let writes := (fs.map fun x => ({ kind := if j.par.kind = .dark then 0 else 1, field := x.field, first := 0, vals := x.px.map (·.value) } : TableWrite)) ++
    (if j.par.defectMode = 0 then [] else [{ kind := 4, vals := list }])
  (fig, if accepted then some { writes } else none, cands)

/-- The mean line of a pass with DARK subtracted and GAIN applied, in Q18.6 (R323). -/
def meanLine (bank : TableSet) (sums : List Nat) (n : Nat) : List Nat :=
  let dark := sexpand (vget bank.dark 0) (fun _ => 0) 0 sums.length
  let gain := sexpand (vget bank.gain 0) (fun _ => 16384) 0 sums.length
  ((sums.zip dark).zip gain).map fun e => ((meanQ6 e.1.1 n - 64 * e.1.2) * e.2 + 0x2000) / 2 ^ 14

/-- Residuals in nm of pass B's crossings from the map of pass A (R343). -/
def jigResiduals (p : JigPar) (map : List Knot) (cs : List Nat) : List Rat :=
  cs.zipIdx.filterMap fun e =>
    let x : Int := 500 * crossingPos2 p e.2
    match segmentOf x map, mapPos map x with
    | some k, some pos => if k.1.d = 0 then none else some (((4096 * e.1 : Nat) - pos : Int) * 16000 / (k.1.d.natAbs : Rat))
    | _, _ => none

/-- The figures and the map of a geometry calibration (R323 to R325). -/
def jigGeometry (j : JigRun) (bank : TableSet) : JigFigures × Option JigStaged × List JigCand :=
  let p := j.par
  let ca := crossings (64 * p.edgeLevel) (meanLine bank (vget j.sumsA 0) (vget j.nA 0)) 0
  let cb := crossings (64 * p.edgeLevel) (meanLine bank (vget j.sumsB 0) (vget j.nB 0)) 0
  let edges := decide (ca.length = cb.length) && decide (8 ≤ ca.length)
  let ma := fitMap p ca
  let mb := fitMap p cb
  let agree := if edges then ((ma.zip mb).filter fun k => knotAgrees p.tolNm k.1 k.2).length else 0
  let accepted := edges && decide (agree = ma.length)
  let rs := if edges then jigResiduals p ma cb else []
  let sq : Rat := (rs.map fun r => r * r).sum
  let rms := if rs = [] then 0 else (isqrt (4 * sq / rs.length).floor.toNat + 1) / 2
  let peak : Rat := rs.foldl (fun m r => if m < |r| then |r| else m) 0
  ({ result := if accepted then 0 else 1, reason := if !edges then .edgeCount else if accepted then .none else .knotDisagree,
     checked := ca.length, agree, rms, peak := (peak + 1 / 2).floor.toNat }, if accepted then some { map := some ma } else none, [])

/-! ### The Jig: the result (R316, R319 to R322, R326) -/

/-- The unit whose shadow bank a calibration writes. -/
def jigUnit (slot : Nat) (kind : JigKind) : LineUnit := if kind = .geometry then .dovetail else .plane slot

/-- The command ends: its claim and its run are dropped, its result is kept, and the completion is posted. -/
def finishJig (slot status : Nat) (f : JigFigures) (cands : List JigCand) (s : State) : State :=
  match vget s.plane.jig slot with
  | none => s
  | some j => complete j.ticket status (jigFigureBytes f) (dropJigClaims slot j.par.kind (setJig slot none (holdJigResult slot j.par.kind f cands s)))

/-- The writes of a result to the shadow banks. -/
def jigWrite (slot : Nat) (w : JigStaged) (s : State) : State :=
  let s := setSlotPlane slot (fun x => { x with shadow := w.writes.foldl (fun b w => tableApply w b) x.shadow }) s
  match w.map with
  | some m => { s with dovetail := { s.dovetail with maps := vmod s.dovetail.maps slot fun b => { b with shadow := m } } }
  | none => s

/-- An accepted result is written into the shadow bank as one staged edit (R319, R324). The active module of a pair journals it (R704). -/
def stageJig (slot : Nat) (f : JigFigures) (w : JigStaged) (cands : List JigCand) (s : State) : State :=
  let s := setSlotPlane slot (fun x => { x with cnt := { x.cnt with jigAccepted := wrap32 (x.cnt.jigAccepted + 1) } }) (jigWrite slot w s)
  let gen := wrap32 (s.stageGen + 1)
  let s := if isActive s then journal (.jig slot w) s else s
  finishJig slot stOk { f with stageGen := gen } cands { s with stageGen := gen }

/-- The acceptance test runs once both passes are accumulated (R316, R326). -/
def jigComplete (slot : Nat) (s : State) : State :=
  match vget s.plane.jig slot with
  | none => s
  | some j =>
    if !j.ready || j.result.isSome then s
    else
      let x := vget s.plane.slots slot
      let r := if j.par.kind = .geometry then jigGeometry j x.active else jigTables j x.shadow
      let f := { r.1 with stripA := passStrip s j.firstA, stripB := passStrip s j.firstB, skipped := j.skipped }
      match r.2.1 with
      | none =>
        finishJig slot stCalDisagree f r.2.2
          (setSlotPlane slot (fun x => { x with cnt := { x.cnt with jigRejected := wrap32 (x.cnt.jigRejected + 1) } }) s)
      | some w =>
        if unitTaken s (jigUnit slot j.par.kind) then stageJig slot f w r.2.2 s
        else setJig slot (some { j with result := some (f, w, r.2.2) }) s

/-- An accepted result that waited for the swap of a pending glue-up is written (R320). -/
def jigStage (slot : Nat) (s : State) : State :=
  match vget s.plane.jig slot with
  | none => s
  | some j =>
    match j.result with
    | some (f, w, c) => if unitTaken s (jigUnit slot j.par.kind) then stageJig slot f w c s else s
    | none => s

/-- Every Jig command ends because line triggering stops (R306). -/
def abortJigs (reason : JigReason) (s : State) : State := (List.range 24).foldl (fun s slot => abortJig slot reason stAborted s) s

end Sys2Proof.Machine
end

