-- ==== Sys2Proof/Machine/DovetailOps.lean ====
section
/-! DEFINITION. The operations of the Dovetail: which web line it takes next (R349), when a strip ring position is free (R370,
R380, R448, R487, R515), the gathering of a line's sources, the forming of its planes (R350 to R360), tracking and registration
(R361 to R366), tiling (R372 to R375), and its part of a glue-up (R338, R356, R371). -/

namespace Sys2Proof.Machine

/-! ### What units that take up web lines share -/

/-- The next web line of a unit that has taken every line up to `last` and works under the configurations `on`: lines under a
configuration where it does nothing are passed over. -/
def unitNext (s : State) (last : Option Nat) (on : Cfg → Bool) : Option Nat :=
  let jump (c f : Nat) (cfg : Cfg) : Option Nat :=
    if later32 f c && on cfg then some (if inSpans s f then f else lineAfter s (wrap32 (f + 2 ^ 32 - 1))) else none
  match (match last with | some l => some (lineAfter s l) | none => (s.spans.getLast?).map (·.1)) with
  | none => none
  | some c =>
    if on (cfgAt s c) then some c
    else
      match s.glue with
      | some g => (match g.first with | some f => jump c f g.next | none => none)
      | none => (match s.prev with | some (f, _) => jump c f s.running | none => none)

/-- The line sequence, N0 and ORIGIN under which a web line was computed (R153, R568). -/
def epochAt (s : State) (line : Nat) : Option SeqEpoch :=
  (s.bench.epochs.filter fun e => atOrAfter line e.firstLine).getLast? <|> s.bench.epochs.head?

/-- P(n) of R151 for a web line triggered earlier. -/
def posOfLine (s : State) (line : Nat) : Int :=
  match epochAt s line with
  | some e => linePos e.seq e.n0 e.origin line
  | none => 0

/-- A neighbour on the ring can be reached (R688): by the direct link, or round the ring when that link is down. For tiling a
KL640 counts as unreachable (R681). -/
def neighbourUp (s : State) (east : Bool) : Bool :=
  match (vget s.ring.ports (if east then 0 else 1)).state with
  | .up => true
  | .frUp => false
  | _ => s.ring.modules.any fun m => !m.forerunner && (match (if east then m.hopsWest else m.hopsEast) with | some h => decide (0 < h) | none => false)

/-- Send an EDGE packet to the east neighbour; a KL640 there discards it (R681). -/
def sendEast (e : Emit) (s : State) : State :=
  if neighbourUp s true then out e s
  else if (vget s.ring.ports 0).state = .frUp then
    setLinkPort 0 (fun p => { p with cnt := { p.cnt with frDiscards := wrap32 (p.cnt.frDiscards + 1) } }) s
  else s

/-! ### The strip ring -/

/-- The strip ring's layout under a configuration (R367). -/
def stripLayout (cfg : Cfg) : StripLayout :=
  let p := vget cfg.part 12
  match cfg.grid with
  | some g => if p.enable then { base := p.baseMib * mib, columns := g.columns, fields := fieldsOf cfg, lines := p.sizeA * 2 ^ cfg.shift } else {}
  | none => {}

/-- Marquetry has finished every triggered web line at or before `line`. -/
def marqPast (s : State) (line : Nat) : Bool :=
  match s.marq.last with
  | some l => atOrAfter l line || later32 (lineAfter s l) line
  | none => false

/-- A patch fixed so far covers a line and has not been read (R448). -/
def patchHolds (s : State) (line : Nat) : Bool := s.scribe.jobs.any fun j => !j.cut && atOrAfter line j.firstLine && atOrAfter j.lastLine line

/-- The Scribe's hold on a web line of the strip ring (R448). -/
def scribeHolds (s : State) (line : Nat) : Bool :=
  let cfg := cfgAt s line
  let depth := (vget cfg.part 12).sizeA
  let strip := stripOf cfg.shift line + (depth - 2)
  patchHolds s line || !marqPast s (wrap32 (stripFirst cfg.shift strip + 2 ^ cfg.shift - 1))

/-- A view stream has still to read a web line (R487). Before a re-lay of the ring only the frames that can be formed without a
later strip count. -/
def viewHolds (s : State) (relay : Bool) (v line : Nat) : Bool :=
  let x := vget s.views v
  let cfg := vget (cfgAt s line).view v
  let covers (f : ViewFrame) : Bool := !f.skipped && atOrAfter line f.firstLine && atOrAfter f.lastLine line
  cfg.enable && !isFenced s 0x08 v &&
    (!(match x.last with | some l => atOrAfter l line | none => false) || (!(relay && cfg.overlay) && x.waiting.any covers) ||
      (!relay && (match x.cur with | some f => !f.skipped && atOrAfter line f.firstLine | none => false)))

/-- The archive's compressors have still to read a web line (R515). -/
def archiveHolds (s : State) (line : Nat) : Bool :=
  let cfg := cfgAt s line
  let strip := stripOf cfg.shift line
  cfg.archive.enable && !(cfg.archive.engines.all fun e => isFenced s 0x0A e) &&
    (match s.comp.archiveStrip with
     | none => true
     | some k => later32 strip k || (decide (strip = k) && (cfg.archive.engines.any fun e => match (ceAt s e).job with
        | some j => (match j.source with | .archive _ => true | .patch _ _ => false)
        | none => false)))

/-- A web line of the strip ring is released by its readers (R370, R380). `scribe` takes in the Scribe's hold. -/
def rowReleased (s : State) (scribe : Bool) (line : Nat) : Bool :=
  let d := s.dovetail
  let kept := inSpans s line && (match d.layoutFrom with | some f => atOrAfter line f | none => false) &&
    (match d.last with | some l => atOrAfter l line | none => false)
  let next := wrap32 (line + 1)
  !kept || (marqPast s (if inSpans s next then next else line) && !(scribe && scribeHolds s line) &&
    !((List.range 8).any fun v => viewHolds s (!scribe) v line) && !archiveHolds s line)

/-- The strip ring position of a web line is free (R370). -/
def rowFree (s : State) (line : Nat) : Bool :=
  let n := s.dovetail.layout.lines
  decide (n = 0) || rowReleased s true ((line + 2 ^ 32 - n) % 2 ^ 32)

/-- Every line in the ring has been read, the Scribe's hold for later strips apart, so that the ring may be re-laid (R371). -/
def ringDrained (s : State) : Bool :=
  match s.dovetail.last with
  | none => true
  | some l => (List.range s.dovetail.layout.lines).all fun i => rowReleased s false ((l + 2 ^ 32 - i) % 2 ^ 32)

/-- A stitched tag of the ring. -/
def readStitchedTag (s : State) (line field : Nat) : Bytes :=
  let l := s.dovetail.layout
  if l.lines = 0 then zeros 32 else benchRead s (l.base + stripTagOff l line field) 32

/-- A stitched row of the ring. -/
def readStitchedRow (s : State) (line field : Nat) : List Nat :=
  let l := s.dovetail.layout
  if l.lines = 0 then [] else unpackRow l.columns (benchRead s (l.base + stripSampleOff l line field) (rowBytes l))

/-- A web line has been stitched into the ring in force and not yet overwritten. -/
def inStripRing (s : State) (line : Nat) : Bool :=
  let d := s.dovetail
  decide (0 < d.layout.lines) && decide (stTagLine (readStitchedTag s line 0) = line) &&
    (match d.layoutFrom with | some f => atOrAfter line f | none => false) && (match d.last with | some l => atOrAfter l line | none => false)

/-! ### Which line is next (R349, R374, R375) -/

def stitchOn (cfg : Cfg) : Bool := cfg.grid.isSome

def orderOf (cfg : Cfg) : List Nat := match cfg.grid with | some g => g.order | none => []

/-- The next web line of the Dovetail or of a unit that follows it: lines that some slot of ORDER never had after an immediate
stop are passed over (DEDUCED, assumption 33). -/
def webNext (s : State) (last : Option Nat) (on : Cfg → Bool) : Option Nat :=
  (unitNext s last on).map fun c =>
    let pass (n : Nat) : Nat := (orderOf (cfgAt s c)).foldl (fun n slot => passOver s slot n) n
    pass (pass c)

def dovetailNext (s : State) : Option Nat := webNext s s.dovetail.last stitchOn

def importOf (s : State) (line field : Nat) : Option ImportRow := s.dovetail.imports.find? fun r => decide (r.line = line) && decide (r.field = field)

def importPresent (s : State) (line : Nat) : Bool := (List.range (fieldsOf (cfgAt s line))).all fun f => (importOf s line f).isSome

/-- The slots of ORDER have a web line ready, and the Plane has corrected it. -/
def slotsReady (s : State) (line : Nat) : Bool :=
  let cfg := cfgAt s line
  (orderOf cfg).all fun slot => isReady s slot line &&
    ((List.range (fieldsOf cfg)).all fun f => (vget s.plane.slots slot).out.any fun e => decide (e.line = line) && decide (e.field = f))

/-- The import of a ready line is declared missing (R375). -/
def declareMissing (line : Nat) (s : State) : State :=
  raiseOnceIn (stripAt s line) 0x1B1 0 0 { s with dovetail := { s.dovetail with
    importMissing := s.dovetail.importMissing ++ [line]
    cnt := { s.dovetail.cnt with importMissing := wrap32 (s.dovetail.cnt.importMissing + 1) } } }

/-- A row of field `f` may be stored in the profile memory (R478): fewer than 68 are held, or Marquetry has begun a line that no
longer needs the oldest. -/
def bgRoom (s : State) (f : Nat) : Bool :=
  let b := vget s.prof.bg f
  let lag := match s.marq.active.region with | some r => r.bgLag | none => 256
  decide (b.rows.length < 68) ||
    (match b.rows[1]?, s.marq.last with
     | some r, some n => atOrAfter (wrap32 (n + 2 ^ 32 - lag)) r.line
     | _, _ => false)

/-- A web line completes a row of the background (R477). -/
def bgCompletes (c : BgCfg) (line : Nat) : Bool := decide ((line + 1) % max (gritDec c.grit) 64 = 0)

/-- The Dovetail waits before a line that completes a background row (R478). -/
def bgWait (s : State) (line : Nat) : Bool :=
  let c := (cfgAt s line).bg
  bgCompletes c line && ((maskFields c.fields).any fun f =>
    !bgRoom s f || (vget s.prof.bg f).waiting.isSome || (s.dovetail.formed.any fun l => bgCompletes c l.line))

/-! ### Forming a line (R344 to R360) -/

/-- One source of a stitched line: a slot of ORDER, or the import where `slot` is none. -/
structure Source where
  slot : Option Nat := none
  gap : Bool := false
  sat : Bool := false
  tag : Bytes := []
  xs : Array Nat := #[]
  map : List Knot := []
  width : Nat := 0
  fill : Nat := 0
  gain : Nat := 16384
  cols : Nat := 0

def shimOf (s : State) (field seam : Nat) : Nat := sget s.dovetail.shims (field * 32 + seam) 16384

/-- A slot's line and field as the Plane handed it on. -/
def corrOf (s : State) (slot line field : Nat) : CorrLine :=
  ((vget s.plane.slots slot).out.find? fun e => decide (e.line = line) && decide (e.field = field)).getD { line, field, gap := true }

/-- The sources of one field of a web line, from the west: the import with IMPORT_COLUMNS not 0, then ORDER. -/
def sourcesOf (s : State) (g : GridCfg) (line field : Nat) : List Source :=
  let cfg := cfgAt s line
  let gains := slotGains (shimOf s field) g.anchor g.order.length
  let slots := (g.order.zip gains).map fun e =>
    let c := corrOf s e.1 line field
    { slot := some e.1, gap := c.gap, sat := c.sat, tag := c.tag, xs := c.samples.toArray, map := (vget s.dovetail.maps e.1).active,
      width := (vget cfg.link e.1).width, fill := (vget cfg.plane e.1).fill, gain := e.2 : Source }
  if g.importCols = 0 then slots
  else
    let r := importOf s line field
    let missing := s.dovetail.importMissing.contains line
    let i : Source := { slot := none, gap := missing || (match r with | some r => r.gap | none => true),
                        sat := !missing && (match r with | some r => r.sat | none => false),
                        xs := (match r with | some r => r.samples.toArray | none => #[]), fill := g.uncoveredFill,
                        gain := shimOf s field 24, cols := g.importCols }
    i :: slots

/-- A source at a column: R335, R344 to R347, R374. -/
def sideOf (g : GridCfg) (x : Source) (c : Nat) : Side :=
  match x.slot with
  | none => if c < x.cols then { covers := true, gap := x.gap, value := applyGain (x.xs.getD c 0) x.gain, fill := x.fill } else {}
  | some _ =>
    match tapOf x.map g x.width c with
    | none => {}
    | some (i, k) => { covers := true, gap := x.gap, value := if x.gap then 0 else applyGain (resample g.kernel x.xs i k) x.gain, fill := x.fill }

/-- The seams between the sources, with the number of each seam: the module seam's kerf is the imported columns (R374). -/
def seamsOf (cfg : Cfg) (g : GridCfg) : List (Nat × KerfCfg) :=
  let own := (List.range (g.order.length - 1)).map fun k => (k, (vget cfg.kerf k).getD {})
  if g.importCols = 0 then own
  else (24, { (vget cfg.kerf 24).getD {} with first := 0, last := g.importCols - 1 }) :: own

/-- One column of a stitched plane, and whether it is void (R353, R357, R358, R384). -/
def formColumn (g : GridCfg) (kerfs : List KerfCfg) (xs : Array Source) (c : Nat) : Nat × Bool :=
  match servingFrom kerfs 0 c with
  | .one i => formOne (sideOf g (xs.getD i {}) c) g.uncoveredFill
  | .two i first last => formTwo (sideOf g (xs.getD i {}) c) (sideOf g (xs.getD (i + 1) {}) c) (featherWeight first last c) g.uncoveredFill

/-- Columns that no slot of ORDER covers (R360). -/
def countUncovered (s : State) (cfg : Cfg) : Nat :=
  match cfg.grid with
  | none => 0
  | some g => ((List.range g.columns).filter fun c =>
      !(g.order.any fun slot => (tapOf (vget s.dovetail.maps slot).active g (vget cfg.link slot).width c).isSome)).length

/-! ### Tracking and registration (R361 to R366) -/

def setAcc (k : Nat) (f : SeamAcc → SeamAcc) (s : State) : State := { s with dovetail := { s.dovetail with acc := vmod s.dovetail.acc k f } }

/-- Add one line of a field to a seam's sums, from the two sources on either side. Sums are kept for every field that SEAM_TRACK
tracks, and for field 0. -/
def addSeam (g : GridCfg) (strip field : Nat) (k : Nat) (q : KerfCfg) (l r : Source) (s : State) : State :=
  let s := setAcc k (fun a => if a.strip = strip then a else { strip }) s
  if l.gap || r.gap || !(decide (field = 0) || q.seamTrack) then s
  else
    let cols := (List.range (q.last + 1 - q.first)).map (q.first + ·)
    let both := cols.filterMap fun c =>
      let a := sideOf g l c
      let b := sideOf g r c
      if a.covers && b.covers then some (a.value, b.value) else none
    let sl := (both.map (·.1)).sum
    let sr := (both.map (·.2)).sum
    let s := setAcc k (fun a => { a with sl := vmod a.sl field (· + sl), sr := vmod a.sr field (· + sr) }) s
    if field ≠ 0 ∨ !q.regEnable ∨ cols.length < 33 ∨ both.length ≠ cols.length then s
    else
      let dl := diffs (both.map (·.1))
      let dr := diffs (both.map (·.2))
      let line := corrLine dl dr
      setAcc k (fun a => { a with
        lines := a.lines + 1
        corr := if a.corr = [] then line else (a.corr.zip line).map fun e => e.1 + e.2
        el := a.el + energyLine dl
        er := a.er + energyLine dr }) s

/-- Place of a seam among the event sources of Table 7-9. -/
def seamEvent (k : Nat) : Nat := if k = 24 then 23 else k

/-- One field of a tracked seam at the end of strip k_s (R361, R363). -/
def trackSeam (g : GridCfg) (strip lastLine shift k field : Nat) (q : KerfCfg) (s : State) : State :=
  let a := vget s.dovetail.acc k
  let ss := shimOf s field k
  match seamStep (decide (g.anchor ≤ k) && decide (k ≠ 24)) (vget a.sl field) (vget a.sr field) ss with
  | none => s
  | some (num, den) =>
    let r := shimStep num den ss q.shimStep
    let s := { s with dovetail := { s.dovetail with
      updates := s.dovetail.updates ++ [⟨field, k, r.1, wrap32 (lastLine + 1 + 2 ^ shift), strip⟩]
      cnt := { s.dovetail.cnt with shimLimited := wrap32 (s.dovetail.cnt.shimLimited + (if r.2 then 1 else 0)) } } }
    if r.2 then raiseOnceIn strip (0x198 + seamEvent k) 0 0 s else s

/-- A seam at the end of a strip: its figures, its registration alarm and its tracking (R361 to R366, Table 7-7). -/
def endSeam (g : GridCfg) (fields strip lastLine shift : Nat) (k : Nat) (q : KerfCfg) (s : State) : State :=
  let a := vget s.dovetail.acc k
  let t := bestTau a.corr
  let measured := q.regEnable && decide (0 < a.lines)
  let outside := decide (t = 0) || decide (t = 16)
  let corr := corrFigure (a.corr.getD t 0) a.el a.er
  let res := if outside then 0 else regResidual a.corr t
  let fig : SeamFigures := {
    strip, mismatch := mismatchPpm (vget a.sl 0) (vget a.sr 0), res := if measured then res else 0,
    corr := if measured then (clampInt 0 65535 corr).toNat else 0, regValid := measured, outOfRange := measured && outside }
  let s := { s with dovetail := { s.dovetail with figures := vset s.dovetail.figures k (some fig) } }
  let s := if measured && decide ((q.corrMin : Int) ≤ corr) && (outside || decide (q.regAlarm < res.natAbs)) then
      raiseOnceIn strip (0x180 + seamEvent k) 0 0 { s with dovetail := { s.dovetail with
        cnt := { s.dovetail.cnt with regAlarms := wrap32 (s.dovetail.cnt.regAlarms + 1) } } }
    else s
  if q.seamTrack then (List.range fields).foldl (fun s f => trackSeam g strip lastLine shift k f q s) s else s

/-- Seam shim updates that come into force at or before a web line (R361 to R363). -/
def applySeamUpdates (line : Nat) (s : State) : State :=
  let due := s.dovetail.updates.filter fun u => atOrAfter line u.fromLine
  let s := { s with dovetail := { s.dovetail with updates := s.dovetail.updates.filter fun u => !atOrAfter line u.fromLine } }
  due.foldl (fun s u =>
    let d := s.dovetail
    let key := u.field * 32 + u.zone
    let shift := (cfgAt s (wrap32 (u.fromLine + 2 ^ 32 - 1))).shift
    let last := wrap32 (u.fromLine + 2 ^ 32 - 1 - 2 ^ shift)
    if d.hostWrites.any fun w => decide (w.1 = key) && atOrAfter w.2 last then
      { s with dovetail := { d with cnt := { d.cnt with shimDiscarded := wrap32 (d.cnt.shimDiscarded + 1) } } }
    else
      let changed := decide (sget d.shims key 16384 ≠ u.value)
      { s with dovetail := { d with
        shims := sset d.shims key u.value 16384
        cnt := { d.cnt with shimUpdates := wrap32 (d.cnt.shimUpdates + (if changed then 1 else 0)) } } }) s

/-- A seam shim that host software sets is in force from a line. -/
def hostSeam (key v line : Nat) (s : State) : State :=
  { s with dovetail := { s.dovetail with
    shims := sset s.dovetail.shims key v 16384
    hostWrites := (s.dovetail.hostWrites.filter fun w => decide (w.1 ≠ key)) ++ [(key, line)] } }

/-- Live trims of seam shims come into force with their line (R705). -/
def seamTrims (line : Nat) (s : State) : State :=
  let r := takeTrims (fun t => match t with | .seamShim _ _ _ l => atOrAfter line l | _ => false) s
  r.1.foldl (fun s t => match t with
    | .seamShim f k v l => hostSeam (f * 32 + k) v l s
    | _ => s) r.2

/-! ### The hand-over (R338, R356, R371) -/

/-- The Dovetail captures every geometry map's shadow bank (R52, R58). -/
def dovetailCapture (s : State) : State :=
  if unitTaken s .dovetail ∨ s.dovetail.locked then s
  else { s with dovetail := { s.dovetail with locked := true, maps := s.dovetail.maps.map fun b => { b with captured := some b.shadow } } }

/-- The bank swap of one geometry map: held writes go into the new shadow bank (R53). -/
def swapMap (b : MapBank) : MapBank :=
  { active := b.captured.getD b.shadow, shadow := (b.held.map (·.1)).getLast?.getD b.active }

/-- The shims of a seam return to 16,384 in every field, and what was tracked of them is forgotten (R356). -/
def resetSeam (k : Nat) (s : State) : State :=
  { s with dovetail := { s.dovetail with
    shims := s.dovetail.shims.filter fun e => decide (e.1 % 32 ≠ k)
    updates := s.dovetail.updates.filter fun u => decide (u.zone ≠ k) } }

/-- The Dovetail takes the pending configuration. -/
def dovetailTake (s : State) : State :=
  if unitTaken s .dovetail then s
  else
    match s.glue with
    | none => s
    | some g =>
      let old := s.running
      let new := g.next
      let held := (List.range 24).flatMap fun i => (vget s.dovetail.maps i).held
      let s := { s with dovetail := { s.dovetail with
        maps := s.dovetail.maps.map swapMap
        locked := false
        cnt := { s.dovetail.cnt with lateWrites := wrap32 (s.dovetail.cnt.lateWrites + held.length) } } }
      let s := countLate held.length s
      let anchorOf (c : Cfg) : Option Nat := c.grid.map (·.anchor)
      let all := decide (orderOf old ≠ orderOf new) || decide (anchorOf old ≠ anchorOf new)
      let s := (List.range 25).foldl (fun s k => if all || decide (vget old.kerf k ≠ vget new.kerf k) then resetSeam k s else s) s
      let s := { s with dovetail := { s.dovetail with uncovered := countUncovered s new } }
      answerLate (held.map (·.2)) (markTaken .dovetail s)

/-- The strip ring is re-laid at the first line of an effective strip. Patches and view frames whose rows are discarded end
FAILED, as OVERWRITTEN and WITHDRAWN (R25, R371; DEDUCED, assumption 132). -/
def relayStrips (line : Nat) (s : State) : State :=
  let lay := stripLayout (cfgAt s line)
  if s.dovetail.layout = lay then s
  else
    let lost := s.scribe.jobs.filter fun j => !j.cut && later32 line j.firstLine
    let s := lost.foldl (fun s j => failPatchJob j 1 s) { s with dovetail := { s.dovetail with layout := lay, layoutFrom := some line } }
    (List.range 8).foldl (fun s v =>
      let x := vget s.views v
      let frames := ((match x.cur with | some f => [f] | none => []) ++ x.waiting).filter fun f => !f.skipped
      let s := setView v (fun x => { x with cur := none, waiting := [], restart := x.restart || x.cur.isSome }) s
      frames.foldl (fun s f => failFrame v f.ticket 5 s) s) s

/-! ### One web line -/

/-- Flags of Table 7-2 that come from the line tags of the slots (R369). -/
def slotFlags (xs : List Source) : Nat :=
  xs.foldl (fun m x =>
    match x.slot with
    | none => m
    | some _ =>
      let t := lineTagFlags x.tag
      m ||| (t % 8) ||| flagBit (bitOf t 9) 5 ||| flagBit (bitOf t 7 || bitOf t 8) 6) 0

/-- The mask of the slots that satisfy `p`. -/
def slotMask (p : Source → Bool) (xs : List Source) : Nat :=
  xs.foldl (fun m x => match x.slot with | some i => if p x then m ||| 2 ^ i else m | none => m) 0

/-- Send one field's export columns east (R372). -/
def exportField (g : GridCfg) (line field : Nat) (xs : List Source) (s : State) : State :=
  match xs.getLast? with
  | none => s
  | some x =>
    if g.exportCols = 0 then s
    else
      let sides := (List.range g.exportCols).map fun i => sideOf g x (g.columns + i)
      let gap := !(sides.all sideUsable)
      sendEast (.columnExport { line, field, cols := g.exportCols, gap, sat := x.sat, samples := if gap then [] else sides.map (·.value) }) s

/-- One field of a web line (R350 to R369): its row, its tag, its sums, and its export; the formed row with its void columns. -/
def stitchField (g : GridCfg) (line strip field : Nat) (s : State) : (List Nat × List (Nat × Nat)) × State :=
  let cfg := cfgAt s line
  let xs := sourcesOf s g line field
  let seams := seamsOf cfg g
  let arr := xs.toArray
  let cols := (List.range g.columns).map (formColumn g (seams.map (·.2)) arr)
  let row := cols.map (·.1)
  let voids := spansOf (cols.map (·.2)) 0
  let drop := slotMask (·.gap) xs
  let sat := slotMask (·.sat) xs
  let missing := decide (g.importCols ≠ 0) && s.dovetail.importMissing.contains line
  let sflags := slotFlags xs ||| flagBit (decide (drop ≠ 0)) 3 ||| flagBit (xs.any (·.sat)) 4 ||| flagBit missing 7 |||
    flagBit (decide (0 < s.dovetail.uncovered)) 8
  let anchor := (xs.find? fun x => decide (x.slot = g.order[g.anchor]?) && x.slot.isSome).getD {}
  let tag := stitchedTag line (posOfLine s line) (lineTagStime anchor.tag) field sflags drop sat strip
  let l := s.dovetail.layout
  let s := if l.lines = 0 then s
    else benchWrite (l.base + stripTagOff l line field) tag (benchWrite (l.base + stripSampleOff l line field) (packRow row) s)
  let s := (seams.zip (xs.zip (xs.drop 1))).foldl (fun s e => addSeam g strip field e.1.1 e.1.2 e.2.1 e.2.2 s) s
  let s := if voids = [] then s else { s with dovetail := { s.dovetail with voids := s.dovetail.voids ++ [⟨line, field, voids⟩] } }
  let s := if drop = 0 then s
    else raiseOnceIn strip 0x1B0 0 0 { s with dovetail := { s.dovetail with cnt := { s.dovetail.cnt with dropped := wrap32 (s.dovetail.cnt.dropped + 1) } } }
  ((row, voids), exportField g line field xs s)

/-- Corrected lines that the Dovetail and the profile chain are past are dropped. -/
def pruneOut (slot : Nat) (s : State) : State :=
  let used (e : CorrLine) : Bool :=
    let cfg := cfgAt s e.line
    let inOrder := (orderOf cfg).contains slot
    let stitched := !inOrder || (match s.dovetail.last with | some l => atOrAfter l e.line | none => false)
    let profiled := !bitOf (vget cfg.grit slot).fields e.field ||
      ((vget s.prof.slots slot).last.any fun l => decide (l.1 = e.field) && atOrAfter l.2 e.line)
    stitched && profiled
  setSlotPlane slot (fun x => { x with out := x.out.filter fun e => !used e }) s

/-- The waiting Dovetail counts a wait of R478 once. -/
def countStall (line : Nat) (s : State) : State :=
  if s.prof.stallLine = some line then s
  else { s with prof := { s.prof with stallLine := some line, bgStalls := wrap32 (s.prof.bgStalls + 1) } }

/-- Stitch one web line whose sources are present. -/
def stitchLine (g : GridCfg) (line : Nat) (s : State) : State :=
  let s := if afterGlue s line then dovetailTake s else if lastBeforeGlue s line then dovetailCapture s else s
  let s := relayStrips line s
  let cfg := cfgAt s line
  let strip := stripOf cfg.shift line
  let s := applySeamUpdates line (seamTrims line { s with dovetail := { s.dovetail with last := some line } })
  let fields := fieldsOf cfg
  let r := (List.range fields).foldl (fun (a : List (List Nat × List (Nat × Nat)) × State) f =>
    let x := stitchField g line strip f a.2
    (a.1 ++ [x.1], x.2)) ([], s)
  let s := r.2
  let s := { s with dovetail := { s.dovetail with
    imports := s.dovetail.imports.filter fun i => later32 i.line line
    importMissing := s.dovetail.importMissing.filter fun i => later32 i line
    formed := if cfg.bg.fields = 0 then s.dovetail.formed else s.dovetail.formed ++ [⟨line, r.1⟩]
    cnt := { s.dovetail.cnt with stitched := wrap32 (s.dovetail.cnt.stitched + 1) } } }
  let s := if isStripLast cfg.shift line then
      (seamsOf cfg g).foldl (fun s e => endSeam g fields strip line cfg.shift e.1 e.2 s) s
    else s
  let s := (orderOf cfg).foldl (fun s slot =>
    if (List.range fields).any fun f => (corrOf s slot line f).gap then digestGap strip slot s else s) s
  (List.range 24).foldl (fun s slot => flushGaps slot (pruneRelaid slot (pruneOut slot s))) s

/-- The Dovetail begins its next web line when its slots, its import and its ring position are ready, and stitches every field
(R349). An import that a broken ring cannot bring is declared missing (R375). -/
def dovetailStep (s : State) : State :=
  match dovetailNext s with
  | none => s
  | some n =>
    let cfg := cfgAt s n
    match cfg.grid with
    | none => s
    | some g =>
      if !inSpans s n || !slotsReady s n || isFenced s 0x05 0 then s
      else
        let relay := decide (stripLayout cfg ≠ s.dovetail.layout)
        if !(if relay then ringDrained s else rowFree s n) then s
        else if bgWait s n then countStall n s
        else if g.importCols = 0 || importPresent s n || s.dovetail.importMissing.contains n then stitchLine g n s
        else if neighbourUp s false then s
        else stitchLine g n (declareMissing n s)

/-- An export of the west neighbour arrives: it is kept, or discarded for its column count or as late (R373). -/
def importRow (r : ImportRow) (s : State) : State :=
  match (cfgAt s r.line).grid with
  | none => s
  | some g =>
    if g.importCols = 0 then s
    else
      let strip := stripAt s r.line
      let d := s.dovetail
      if r.cols ≠ g.importCols then
        raiseOnceIn strip 0x1B2 0 0 { s with dovetail := { d with cnt := { d.cnt with importMismatch := wrap32 (d.cnt.importMismatch + 1) } } }
      else if (match d.last with | some l => atOrAfter l r.line | none => false) || d.importMissing.contains r.line then
        raiseOnceIn strip 0x1B2 0 0 { s with dovetail := { d with cnt := { d.cnt with importLate := wrap32 (d.cnt.importLate + 1) } } }
      else { s with dovetail := { d with imports := (d.imports.filter fun i => !(decide (i.line = r.line) && decide (i.field = r.field))) ++ [r] } }

/-- The import of a ready line has not arrived within IMPORT_WAIT (R375). -/
def importTimeout (s : State) : State :=
  match dovetailNext s with
  | none => s
  | some n =>
    match (cfgAt s n).grid with
    | none => s
    | some g =>
      if g.importCols = 0 || !inSpans s n || !slotsReady s n || importPresent s n || s.dovetail.importMissing.contains n then s
      else declareMissing n s

end Sys2Proof.Machine
end

