-- ==== Sys2Proof/Machine/MarqOps.lean ====
section
/-! DEFINITION. The operations of Marquetry: its banks (R379), which web line it takes and when (R378, R383), one web line from
the strip ring (R381 to R400), items and their hand-over (R405 to R412), and edge messages (R413 to R419). -/

namespace Sys2Proof.Machine

/-! ### Banks -/

/-- One write to a bank of segmentation settings. -/
def segApply (w : SegWrite) (b : SegBank) : SegBank :=
  if w.opcode = 0x0600 then { b with classes := vset b.classes w.unit (parClass w.params) }
  else if w.opcode = 0x0601 then { b with region := some (parRegion w.params) }
  else { b with rules := vset b.rules w.unit (parRule w.unit w.params) }

/-- Marquetry captures its shadow bank (R52, R58). -/
def marqCapture (s : State) : State :=
  if unitTaken s .marquetry then s
  else { s with marq := { s.marq with captured := some (s.marq.captured.getD s.marq.shadow) } }

/-- Marquetry takes the pending configuration: the banks swap, and held writes go into the new shadow bank (R53, R399). -/
def marqTake (s : State) : State :=
  if unitTaken s .marquetry then s
  else
    let m := s.marq
    let n := m.held.length
    let s := countLate n { s with marq := { m with
      active := m.captured.getD m.shadow
      shadow := m.held.foldl (fun b w => segApply w b) m.active
      captured := none
      held := []
      cnt := { m.cnt with lateWrites := wrap32 (m.cnt.lateWrites + n) } } }
    answerLate (m.held.map (·.ticket)) (markTaken .marquetry s)

/-- Region settings with the defaults of R821. -/
def regionCfg (b : SegBank) : RegionCfg := b.region.getD {}

/-! ### Which line is next (R378, R383) -/

def marqNext (s : State) : Option Nat := webNext s s.marq.last stitchOn

def isStitched (s : State) (line : Nat) : Bool := match s.dovetail.last with | some l => atOrAfter l line | none => false

/-- The bank in force for a web line that Marquetry is about to begin. -/
def segBankFor (s : State) (line : Nat) : SegBank :=
  if afterGlue s line && !unitTaken s .marquetry then s.marq.captured.getD s.marq.shadow else s.marq.active

/-- Fields that the enabled classes of a bank read. -/
def fieldsRead (b : SegBank) (backgroundOnly : Bool) : List Nat :=
  (List.range 4).filter fun f => b.classes.toList.any fun c => c.enable && decide (c.field = f) && (!backgroundOnly || decide (c.op ≠ 0))

/-- The profile chain has finished a web line of a field's background (R383, R479). -/
def bgFinished (s : State) (field line : Nat) : Bool :=
  !(s.dovetail.formed.any fun l => atOrAfter line l.line) &&
    (match (vget s.prof.bg field).waiting with | some r => later32 r.line line | none => true)

/-- The background rows that a line's class tests need exist (R383). -/
def bgReady (s : State) (b : SegBank) (line : Nat) : Bool :=
  let m := wrap32 (line + 2 ^ 32 - (regionCfg b).bgLag)
  (fieldsRead b true).all fun f => bgFinished s f m

/-- The background row that a web line uses (R382). -/
def bgRowFor (s : State) (b : SegBank) (field line : Nat) : Option BgRow :=
  let m := wrap32 (line + 2 ^ 32 - (regionCfg b).bgLag)
  ((vget s.prof.bg field).rows.filter fun r => atOrAfter m r.line).getLast?

/-! ### Flushing (R400) -/

/-- Settings whose change makes Marquetry flush before the effective strip. -/
def flushKey (c : Cfg) : Option (Nat × Nat × Nat × Nat) × Nat × Nat × Nat :=
  (c.grid.map fun g => (g.columns, g.base, g.exportCols, g.importCols), fieldsOf c, c.shift, (vget c.part 12).sizeA)

/-- Line triggering stops, or has stopped, after a web line. -/
def spanEnds (s : State) (line : Nat) : Bool :=
  decide (s.gauge.stopAfter = some line) || (s.spans.zipIdx.any fun p => decide (p.1.2 = line) && !(decide (p.2 = 0) && s.gauge.trigEnabled))

def flushAt (s : State) (line : Nat) : Bool :=
  let cfg := cfgAt s line
  isStripLast cfg.shift line && (spanEnds s line || decide (flushKey (cfgAt s (wrap32 (line + 1))) ≠ flushKey cfg))

/-! ### Items (R405 to R412) -/

/-- A closed item is classified, counted and kept for its hand-over (R405, R408, R410). -/
def closeItem (b : SegBank) (i : ClosedItem) (s : State) : State :=
  let i := { i with decision := classify b.rules (regionCfg b).dflt i }
  let d := i.decision
  let quiet := actSuppress d || !actReport d
  let m := s.marq
  { s with marq := { m with
    closed := m.closed ++ [i]
    hits := sset m.hits d.rule (wrap32 (sget m.hits d.rule 0 + 1)) 0
    cnt := { m.cnt with closed := wrap32 (m.cnt.closed + 1), suppressed := wrap32 (m.cnt.suppressed + (if quiet then 1 else 0)) } } }

/-- What leaves Marquetry of the items closed on a line: fragments for the east neighbour, and items kept (R415). -/
def routeItems (b : SegBank) (exporting : Bool) (strip : Nat) (items : List ClosedItem) (s : State) : List Fragment × State :=
  items.foldl (fun (a : List Fragment × State) i =>
    if !(exporting && i.boundary) then (a.1, closeItem b i a.2)
    else if neighbourUp a.2 true then
      (a.1 ++ [{ id := i.id, chainId := i.chainId, chainIndex := i.chainIndex, feat := i.feat, lastRun := i.lastRun, rflags := i.rflags }],
        { a.2 with marq := { a.2.marq with cnt := { a.2.marq.cnt with fragSent := wrap32 (a.2.marq.cnt.fragSent + 1) } } })
    else
      (a.1, raiseOnceIn strip 0x1C7 0 0 (closeItem b { i with rflags := i.rflags ||| rfLocalBoundary }
        { a.2 with marq := { a.2.marq with cnt := { a.2.marq.cnt with fragLocal := wrap32 (a.2.marq.cnt.fragLocal + 1) } } }))) ([], s)

/-- An ALARM item pulses ALARM_TRG and raises its event at the hand-over (R409). -/
def alarmItem (r : RegionCfg) (strip : Nat) (s : State) : State :=
  let s := match r.alarmTrg with
    | some t => if isPassive s then s else pulseTrg t r.alarmWidth r.alarmInverted s
    | none => s
  raiseOnceIn strip 0x1C6 0 0 { s with marq := { s.marq with cnt := { s.marq.cnt with alarms := wrap32 (s.marq.cnt.alarms + 1) } } }

/-- The hand-over of the items of a close strip (R397, R411). -/
def handOver (strip shift : Nat) (s : State) : State :=
  let r := regionCfg s.marq.active
  let mine (i : ClosedItem) : Bool := decide (stripOf shift i.closeLine = strip)
  let items := s.marq.closed.filter mine
  let s := { s with marq := { s.marq with closed := s.marq.closed.filter fun i => !mine i } }
  let hand := sortBy itemBefore (items.filter fun i => actReport i.decision && !actSuppress i.decision)
  let lastLine := wrap32 (stripFirst shift strip + 2 ^ shift - 1)
  let defects : List ScribeItem := hand.map fun i => { kind := .defect, queue := i.decision.queue, strip, lastLine, item := some i }
  let ovf := match s.marq.overflow with | some o => if o.strip = strip then some o else none | none => none
  let s := match ovf with
    | some o => raiseOnceIn strip 0x1C0 0 0 { s with marq := { s.marq with
        overflow := none
        ovfStrip := strip
        ovfSamples := o.samples
        cnt := { s.marq.cnt with ovfStrips := wrap32 (s.marq.cnt.ovfStrips + 1) } } }
    | none => s
  let extra : List ScribeItem := match ovf, r.overflowQueue with
    | some o, some q => [{ kind := .overflow, queue := q, strip, lastLine, body := overflowBody o }]
    | _, _ => []
  let all := defects ++ extra
  let s := (items.filter fun i => actAlarm i.decision).foldl (fun s _ => alarmItem r strip s) s
  let s := digestRegions strip s.marq.regions s
  { s with
    marq := { s.marq with lastStrip := strip, handed := all.length, cnt := { s.marq.cnt with handed := wrap32 (s.marq.cnt.handed + all.length) } }
    scribe := { s.scribe with inbox := s.scribe.inbox ++ all, marqDone := some lastLine } }

/-- Items of strips before `strip` whose last line Marquetry never reaches are handed over first (DEDUCED, assumption 135). -/
def handStale (strip shift : Nat) (s : State) : State :=
  let olds := (s.marq.closed.map fun i => stripOf shift i.closeLine) ++ (match s.marq.overflow with | some o => [o.strip] | none => [])
  (sortBy (fun a b => later32 b a) ((olds.filter fun k => later32 strip k).dedup)).foldl (fun s k => handOver k shift s) s

/-! ### One web line -/

/-- The edge message of a web line is declared missing (R419). -/
def declareEdgeMissing (line : Nat) (s : State) : State :=
  raiseOnceIn (stripAt s line) 0x1C5 0 0 { s with marq := { s.marq with
    edgeMissing := s.marq.edgeMissing ++ [line]
    cnt := { s.marq.cnt with edgeMissing := wrap32 (s.marq.cnt.edgeMissing + 1) } } }

/-- The masks of a line's columns from the rows that the classes read (R381 to R384). -/
def lineMasks (s : State) (b : SegBank) (columns line : Nat) : List Nat :=
  let fields := fieldsRead b false
  let rows : List (Array Nat) := (List.range 4).map fun f => if fields.contains f then (readStitchedRow s line f).toArray else #[]
  let voids : List (List (Nat × Nat)) := (List.range 4).map fun f =>
    ((s.dovetail.voids.find? fun v => decide (v.line = line) && decide (v.field = f)).map (·.spans)).getD []
  let bgs : List (Array (Option Nat)) := (List.range 4).map fun f => ((bgRowFor s b f line).map fun r => r.entries.toArray).getD #[]
  (List.range columns).map fun c =>
    classMask b.classes ((rows.zip voids).map fun e => if spanHas e.2 c then none else some (e.1.getD c 0)) (bgs.map fun e => e.getD (c / 16) none)

/-- The table warning of R398 at the end of a line. -/
def warnTable (warn : Nat) (s : State) : State :=
  let n := s.marq.regions.length
  let s := { s with marq := { s.marq with highWater := max s.marq.highWater n } }
  if warn = 0 then s
  else if !s.marq.warned && decide (warn < n) then raise 0x1C2 0 0 { s with marq := { s.marq with warned := true } }
  else if s.marq.warned && decide (n ≤ rearmLevel warn) then { s with marq := { s.marq with warned := false } }
  else s

/-- What Marquetry knows of a web line. -/
def segLineOf (s : State) (g : GridCfg) (line : Nat) : SegLine :=
  let b := s.marq.active
  let r := regionCfg b
  let tag := readStitchedTag s line 0
  { n := line, pos := stTagPos tag, stime := stTagStime tag, base := g.base, columns := g.columns, exporting := decide (g.exportCols ≠ 0),
    eastUp := neighbourUp s true, cfg := r, rules := b.rules, shift := (cfgAt s line).shift, ints := (readStitchedRow s line r.intField).toArray }

/-- What follows the segmentation of a line: events, items, the edge message, the table warning and the hand-over. -/
def settleLine (l : SegLine) (strip : Nat) (limited : Bool) (o : SegOut) (s : State) : State :=
  let s := if limited then raiseOnceIn strip 0x1C1 0 0 s else s
  let s := if o.cut then raiseOnceIn strip 0x1C3 0 0 s else s
  let s := if o.linksLost then raiseOnceIn strip 0x1C5 0 0 s else s
  let s := if o.flushed then raise 0x1C4 0 0 s else s
  let r := routeItems s.marq.active l.exporting strip o.items s
  let s := r.2
  let frags := sortBy (fun a b : Fragment => decide (a.id < b.id)) r.1
  let s := if l.exporting then sendEast (.edgeMessage { line := l.n, renames := o.renames, runs := o.edgeRuns, fragments := frags }) s else s
  let s := warnTable l.cfg.tableWarn s
  if isStripLast l.shift l.n then handOver strip l.shift s else s

/-- Marquetry processes one web line (R391). -/
def marqLine (g : GridCfg) (line : Nat) (s : State) : State :=
  let s := if afterGlue s line then marqTake s else if lastBeforeGlue s line then marqCapture s else s
  let cfg := cfgAt s line
  let strip := stripOf cfg.shift line
  let s := handStale strip cfg.shift s
  let b := s.marq.active
  let l := segLineOf s g line
  let rflags := (fieldsRead b false).foldl (fun m f => m ||| lineRflags (stTagFlags (readStitchedTag s line f))) 0
  let runs := codeRuns (lineMasks s b g.columns line) 0
  let missing := decide (g.importCols ≠ 0) && s.marq.edgeMissing.contains line
  let msg := if g.importCols = 0 ∨ missing then none else s.marq.edges.find? fun e => decide (e.line = line)
  let w := segmentLine l rflags runs msg missing (flushAt s line) s.marq
  let s := { s with
    marq := { w.m with edges := w.m.edges.filter (fun e => later32 e.line line), edgeMissing := w.m.edgeMissing.filter (fun n => later32 n line) }
    dovetail := { s.dovetail with voids := s.dovetail.voids.filter fun v => later32 v.line line } }
  settleLine l strip (limitRuns runs).2.2 w.out s

/-- Marquetry begins its next web line when its rows, its background and its edge message are ready (R378, R383, R419). -/
def marqStep (s : State) : State :=
  match marqNext s with
  | none => s
  | some n =>
    match (cfgAt s n).grid with
    | none => s
    | some g =>
      if !inSpans s n || !isStitched s n || isFenced s 0x06 0 || !bgReady s (segBankFor s n) n then s
      else if g.importCols = 0 || s.marq.edgeMissing.contains n || (s.marq.edges.any fun e => decide (e.line = n)) then marqLine g n s
      else if neighbourUp s false then s
      else marqLine g n (declareEdgeMissing n s)

/-- Line triggering has stopped after the last line that Marquetry has processed, or a frozen controller lets it end there: the
flush of R400 follows at once, and its items are handed over with their strip. -/
def marqFlushNow (s : State) : State :=
  match s.marq.last with
  | none => s
  | some n =>
    let cfg := cfgAt s n
    match cfg.grid with
    | none => s
    | some g =>
      if s.marq.regions.isEmpty && s.marq.window.isEmpty then s
      else
        let strip := stripOf cfg.shift n
        let l := segLineOf s g n
        let w := flushAll l { m := s.marq }
        let s := { s with marq := pruneFlags w.m }
        let s := raise 0x1C4 0 0 s
        let r := routeItems s.marq.active l.exporting strip w.out.items s
        let s := if r.1 = [] then r.2 else sendEast (.edgeMessage { line := n, fragments := r.1 }) r.2
        handOver strip cfg.shift s

/-- The west neighbour's edge message arrives; one for a line already declared missing or processed is discarded (R414, R419). -/
def edgeReceived (e : EdgeMsg) (s : State) : State :=
  let m := s.marq
  let late := m.edgeMissing.contains e.line || (match m.last with | some l => atOrAfter l e.line | none => false)
  match (cfgAt s e.line).grid with
  | none => s
  | some g => if late || decide (g.importCols = 0) then s else { s with marq := { m with edges := (m.edges.filter fun x => decide (x.line ≠ e.line)) ++ [e] } }

/-- The edge message of the next line has not come within IMPORT_WAIT (R419). -/
def edgeTimeout (s : State) : State :=
  match marqNext s with
  | none => s
  | some n =>
    match (cfgAt s n).grid with
    | none => s
    | some g =>
      if g.importCols = 0 || !inSpans s n || s.marq.edgeMissing.contains n || (s.marq.edges.any fun e => decide (e.line = n)) then s
      else declareEdgeMissing n s

end Sys2Proof.Machine
end

