-- ==== Sys2Proof/Machine/TrigStop.lean ====
section
/-! DEFINITION. Line triggering stops ("Starting and stopping line triggering", R120, R168, R252, R306). -/

namespace Sys2Proof.Machine

/-- Trigger requests of a slot that have not fired are dropped. -/
def dropPend (x : SlotTrig) : SlotTrig := { x with pend := [], overshot := false }

/-- Line triggering has ended with the last line of a strip: Jig commands end, a pending glue-up whose effective strip has not
begun becomes deferred (R50), and Marquetry's regions are flushed where it has nothing left to process and the fabric runs. -/
def stopTriggers (last : Option Nat) (s : State) : State :=
  let s := { s with gauge := { s.gauge with
    trigEnabled := false
    stopAfter := none
    startPending := false
    slots := s.gauge.slots.map dropPend } }
  let s := match s.glue with
    | some g =>
      let begun := match g.first with | some f => inSpans s f | none => true
      if begun then s
      else
        -- the line sequence that was to begin there begins where triggering resumes
        let epochs := s.bench.epochs.filter fun e => !(g.first.any fun f => decide (e.firstLine = f))
        { s with glue := some { g with first := none, strip := 0, deferred := true }, bench := { s.bench with epochs } }
    | none => s
  let s := raise 0x38E 0 0 (abortJigs .trigStopped s)
  match last, s.marq.last with
  | some l, some m => if l = m && fabricUp s then marqFlushNow s else s
  | _, _ => s

/-- An immediate stop (R168): the lines of the current strip that are not triggered end as gaps in every slot. Such a strip counts
as triggered up to its last line. -/
def stopNow (s : State) : State :=
  let g := s.gauge
  if !g.trigEnabled then s
  else
    let first := stripFirst g.lastShift g.lastStrip
    let last := wrap32 (first + 2 ^ g.lastShift - 1)
    let spans := match s.spans with
      | (a, b) :: rest => if g.startPending then (first, last) :: s.spans else if atOrAfter last b then (a, last) :: rest else s.spans
      | [] => [(first, last)]
    stopTriggers (some last) (stopGaps g.lastStrip g.lastShift { s with spans })

/-- A halt (R146, R564): an immediate stop, and TRIG_HALTED. -/
def haltTriggers (s : State) : State :=
  let s := stopNow s
  { s with gauge := { s.gauge with trigHalted := true } }

end Sys2Proof.Machine
end

