-- ==== Sys2Proof/Machine/FailSignal.lean ====
section
/-! DEFINITION. The pair role's changes and the failure signal (R711, R715). -/

namespace Sys2Proof.Machine

/-- The pair role changes: EV 0x3E6 with the new state and the cause (R715). -/
def setRole (r : PairRole) (cause : PairCause) (s : State) : State :=
  if s.pair.role = r then s
  else raise 0x3E6 (roleCode r) (pairCauseCode cause) { s with pair := { s.pair with role := r, cause := cause } }

/-- Axes of a mask are safe-stopped (R647). -/
def safeStopAxes (mask : Nat) (cause : AxisCause) (s : State) : State :=
  (List.range 4).foldl (fun s a => if bitOf mask a then withMarks (safeStopAxis a cause) s else s) s

/-- The uplink source of both through connectors (R697). -/
def setUplink (relay : Bool) (s : State) : State :=
  setThrough 0 (fun x => { x with relaySource := relay }) (setThrough 1 (fun x => { x with relaySource := relay }) s)

/-- A PAIR_SWITCH that has not completed ends ST_ABORTED: a failover intervenes, or the module leaves the pair. -/
def abortSwitch (s : State) : State :=
  let t := s.pair.switchTicket
  let s := { s with pair := { s.pair with switchAt := none, switchTicket := none } }
  match t with
  | some t => complete t stAborted [] s
  | none => s

/-- The Holdfast gives the failure signal: triggering halts, the axes safe-stop, the uplinks switch to RELAY (R711). -/
def giveSignal (s : State) : State :=
  if s.pair.signalling then s
  else
    let s := abortSwitch { s with pair := { s.pair with signalling := true } }
    raise 0x3F6 0 0 <| setRole .failed .ownFail (setUplink true (safeStopAxes 15 .safeStop (haltTriggers s)))

/-- The module is a member of a pair in force. -/
def inPair (s : State) : Bool := decide (s.pair.role ≠ .solo)

end Sys2Proof.Machine
end

