-- ==== Sys2Proof/Machine/Deflate.lean ====
section
/-! DEFINITION. The DEFLATE profile of the device (R499 to R505), a decoder for every block type of RFC 1951 (R522),
CRC-32C (R509) and the pre-transform (R506). Bits of a payload are lists of Bool, the first bit first. -/

namespace Sys2Proof.Machine

/-- One bit step of CRC-32C, reflected (R509). -/
def crcBit (c : Nat) : Nat := if c % 2 = 1 then (c / 2) ^^^ 0x82F63B78 else c / 2

def crcByte (c : Nat) (b : Byte) : Nat :=
  let x := c ^^^ b.toNat
  crcBit (crcBit (crcBit (crcBit (crcBit (crcBit (crcBit (crcBit x)))))))

/-- CRC-32C of a run of bytes (R509). -/
def crc32c (bs : Bytes) : Nat := (bs.foldl crcByte 0xFFFFFFFF) ^^^ 0xFFFFFFFF

/-- `n` bits of a value, least significant first: RFC 1951's order for everything but Huffman codes. -/
def bitsLsb : Nat → Nat → List Bool
  | 0, _ => []
  | n + 1, v => decide (v % 2 = 1) :: bitsLsb n (v / 2)

/-- `n` bits of a Huffman code, most significant first. -/
def bitsMsb (n v : Nat) : List Bool := (bitsLsb n v).reverse

def bitsVal : List Bool → Nat
  | [] => 0
  | b :: bs => (if b then 1 else 0) + 2 * bitsVal bs

/-- Bits to bytes, the last byte filled with 0 bits; `fuel` bounds the number of bytes. -/
def bitsToBytes : Nat → List Bool → Bytes
  | 0, _ => []
  | fuel + 1, bs => if bs.isEmpty then [] else BitVec.ofNat 8 (bitsVal (bs.take 8)) :: bitsToBytes fuel (bs.drop 8)

def bytesToBits (b : Bytes) : List Bool := b.flatMap fun x => bitsLsb 8 x.toNat

/-- A run of bits filled up to a byte boundary. -/
def padByte (bs : List Bool) : List Bool := bs ++ List.replicate ((8 - bs.length % 8) % 8) false

/-- Table 11-2. -/
structure SearchSet where
  depth : Nat
  nice : Nat
  lazyMax : Nat

/-- The settings of ARCHIVE mode (0) and of LEVEL 1 to 9. -/
def searchSet : Nat → SearchSet
  | 0 => ⟨1, 258, 0⟩
  | 1 => ⟨4, 16, 0⟩
  | 2 => ⟨8, 32, 0⟩
  | 3 => ⟨16, 64, 0⟩
  | 4 => ⟨32, 64, 16⟩
  | 5 => ⟨64, 128, 32⟩
  | 6 => ⟨128, 128, 64⟩
  | 7 => ⟨256, 258, 128⟩
  | 8 => ⟨1024, 258, 258⟩
  | _ => ⟨4096, 258, 258⟩

/-- h(p) of R503. -/
def hashAt (s : Array Nat) (p : Nat) : Nat :=
  ((s.getD p 0 <<< 10) ^^^ (s.getD (p + 1) 0 <<< 5) ^^^ s.getD (p + 2) 0) % 2 ^ 15

/-- The longest common run of s[p..] and s[i..], at most the fuel. -/
def runLen (s : Array Nat) (p i : Nat) : Nat → Nat
  | 0 => 0
  | n + 1 => if s.getD p 0 = s.getD i 0 then 1 + runLen s (p + 1) (i + 1) n else 0

/-- The candidates of R503 below a position, in descending order. -/
def searchGo (s : Array Nat) (limit nice i : Nat) : Nat → Nat → Option (Nat × Nat) → Option (Nat × Nat)
  | 0, _, best => best
  | p + 1, depth, best =>
    if depth = 0 ∨ 32768 < i - p then best
    else if hashAt s p ≠ hashAt s i then searchGo s limit nice i p depth best
    else
      let n := runLen s p i limit
      let best' := if decide (3 ≤ n) && (match best with | none => true | some b => decide (b.1 < n)) then some (n, i - p) else best
      match best' with
      | some b => if nice ≤ b.1 then best' else searchGo s limit nice i p (depth - 1) best'
      | none => searchGo s limit nice i p (depth - 1) best'

/-- search(i) of R503 for a block that ends before `b1`: length and distance. -/
def searchAt (s : Array Nat) (c : SearchSet) (b1 i : Nat) : Option (Nat × Nat) :=
  if b1 - i < 3 then none else searchGo s (min 258 (b1 - i)) c.nice i i c.depth none

/-- A symbol of a block's token stream. -/
inductive Token where
  | lit (v : Nat)
  | copy (len dist : Nat)
  deriving DecidableEq, Repr

/-- The choice loop of R503. -/
def tokensGo (s : Array Nat) (c : SearchSet) (b1 : Nat) : Nat → Nat → Option (Nat × Nat) → List Token
  | 0, _, _ => []
  | fuel + 1, i, m =>
    if b1 ≤ i then []
    else
      match m with
      | none => .lit (s.getD i 0) :: tokensGo s c b1 fuel (i + 1) (searchAt s c b1 (i + 1))
      | some (len, dist) =>
        let n := if len < c.lazyMax then searchAt s c b1 (i + 1) else none
        match n with
        | some (len', dist') =>
          if len < len' then .lit (s.getD i 0) :: tokensGo s c b1 fuel (i + 1) (some (len', dist'))
          else .copy len dist :: tokensGo s c b1 fuel (i + len) (searchAt s c b1 (i + len))
        | none => .copy len dist :: tokensGo s c b1 fuel (i + len) (searchAt s c b1 (i + len))

/-- The tokens of the block s[b0] to s[b1 - 1]. -/
def blockTokens (s : Array Nat) (c : SearchSet) (b0 b1 : Nat) : List Token := tokensGo s c b1 (b1 - b0 + 1) b0 (searchAt s c b1 b0)

/-- Length codes of RFC 1951: base and extra bits of symbols 257 to 285. -/
def lenBase : List Nat := [3, 4, 5, 6, 7, 8, 9, 10, 11, 13, 15, 17, 19, 23, 27, 31, 35, 43, 51, 59, 67, 83, 99, 115, 131, 163, 195, 227, 258]
def lenExtra : List Nat := [0, 0, 0, 0, 0, 0, 0, 0, 1, 1, 1, 1, 2, 2, 2, 2, 3, 3, 3, 3, 4, 4, 4, 4, 5, 5, 5, 5, 0]
def distBase : List Nat :=
  [1, 2, 3, 4, 5, 7, 9, 13, 17, 25, 33, 49, 65, 97, 129, 193, 257, 385, 513, 769, 1025, 1537, 2049, 3073, 4097, 6145, 8193, 12289, 16385, 24577]
def distExtra : List Nat := [0, 0, 0, 0, 1, 1, 2, 2, 3, 3, 4, 4, 5, 5, 6, 6, 7, 7, 8, 8, 9, 9, 10, 10, 11, 11, 12, 12, 13, 13]

/-- The index of the last base at or below a value. -/
def baseIndex (bases : List Nat) (v : Nat) : Nat := (bases.takeWhile fun b => decide (b ≤ v)).length - 1

/-- Uses of each symbol, as a dense list. -/
def countSyms (n : Nat) (l : List Nat) : List Nat := (List.range n).map fun i => l.count i

def litSym : Token → Nat
  | .lit v => v
  | .copy len _ => 257 + baseIndex lenBase len

def distSyms (ts : List Token) : List Nat := ts.filterMap fun t => match t with | .lit _ => none | .copy _ d => some (baseIndex distBase d)

/-- A node of R504: its key (sum of f, height, id) and the depths of its leaves. -/
structure HuffNode where
  f : Nat
  height : Nat
  id : Nat
  depths : List Nat

def nodeBefore (a b : HuffNode) : Bool :=
  decide (a.f < b.f) || (decide (a.f = b.f) && (decide (a.height < b.height) || (decide (a.height = b.height) && decide (a.id < b.id))))

/-- Joining the two smallest nodes until one is left. The list is kept in key order. -/
def huffJoin : Nat → Nat → List HuffNode → List Nat
  | fuel + 1, joins, a :: b :: rest =>
    huffJoin fuel (joins + 1)
      (insertBy nodeBefore ⟨a.f + b.f, 1 + max a.height b.height, 1000 + joins, (a.depths ++ b.depths).map (· + 1)⟩ rest)
  | _, _, a :: _ => a.depths
  | _, _, [] => []

/-- The highest b below a length with leaves. -/
def lastUsed (bl : List Nat) : Nat → Nat
  | 0 => 0
  | b + 1 => if bl.getD (b + 1) 0 = 0 then lastUsed bl b else b + 1

/-- The limit of R504. -/
def huffLimit (limit : Nat) : Nat → Nat → List Nat → List Nat
  | fuel + 1, excess, bl =>
    if excess = 0 then bl
    else
      let b := lastUsed bl (limit - 1)
      let bl := bl.set b (bl.getD b 0 - 1)
      let bl := bl.set (b + 1) (bl.getD (b + 1) 0 + 2)
      huffLimit limit fuel (excess - 2) (bl.set limit (bl.getD limit 0 - 1))
  | 0, _, bl => bl

/-- The symbols that get a code (R504): those used, and the lowest unused until two are present. -/
def huffPresent (freqs : List Nat) : List Nat :=
  let used := (List.range freqs.length).filter fun i => decide (0 < freqs.getD i 0)
  let unused := (List.range freqs.length).filter fun i => decide (freqs.getD i 0 = 0)
  used ++ unused.take (2 - used.length)

/-- Code lengths of R504, one per symbol, 0 for a symbol without a code. -/
def huffLengths (limit : Nat) (freqs : List Nat) : List Nat :=
  let present := huffPresent freqs
  let leaves := sortBy nodeBefore (present.map fun i => ⟨freqs.getD i 0, 0, i, [0]⟩)
  let depths := huffJoin present.length 0 leaves
  let excess := (depths.filter fun d => decide (limit < d)).length
  let bl := (List.range (limit + 1)).map fun d => (depths.filter fun e => decide (min e limit = d)).length
  let bl := huffLimit limit excess excess bl
  let lens := (List.range (limit + 1)).flatMap fun d => List.replicate (bl.getD d 0) d
  let order := sortBy (fun a b => decide (freqs.getD b 0 < freqs.getD a 0) || (decide (freqs.getD a 0 = freqs.getD b 0) && decide (a < b))) present
  let pairs := order.zip lens
  (List.range freqs.length).map fun i => ((pairs.find? fun p => decide (p.1 = i)).map Prod.snd).getD 0

/-- The canonical code of a symbol (RFC 1951, 3.2.2): its length and its value. -/
def codeStarts (lens : List Nat) : Nat → Nat → Nat → List Nat
  | 0, _, _ => []
  | n + 1, b, code =>
    let code := if b = 0 then 0 else (code + (if b = 1 then 0 else lens.count (b - 1))) * 2
    code :: codeStarts lens n (b + 1) code

def canonCodes (lens : List Nat) : List (Nat × Nat) :=
  let starts := codeStarts lens 17 0 0
  lens.zipIdx.map fun e => (e.1, starts.getD e.1 0 + ((lens.take e.2).count e.1))

def fixedLit : List Nat := List.replicate 144 8 ++ List.replicate 112 9 ++ List.replicate 24 7 ++ List.replicate 8 8
def fixedDist : List Nat := List.replicate 30 5

def putCode (codes : Array (Nat × Nat)) (sym : Nat) : List Bool := let c := codes.getD sym (0, 0); bitsMsb c.1 c.2

/-- The coded tokens of a block and its end. -/
def tokenBits (lit dist : Array (Nat × Nat)) (ts : List Token) : List Bool :=
  (ts.flatMap fun t =>
    match t with
    | .lit v => putCode lit v
    | .copy len d =>
      let a := baseIndex lenBase len
      let b := baseIndex distBase d
      putCode lit (257 + a) ++ bitsLsb (lenExtra.getD a 0) (len - lenBase.getD a 0) ++
        putCode dist b ++ bitsLsb (distExtra.getD b 0) (d - distBase.getD b 0)) ++ putCode lit 256

/-- One item of the run-coded length sequence: symbol, extra bits, their value. -/
abbrev LenItem := Nat × Nat × Nat

/-- A run of zeros (R505); `fuel` is its length. -/
def zeroRun : Nat → Nat → List LenItem
  | 0, _ => []
  | fuel + 1, r =>
    if r = 0 then []
    else if 11 ≤ r then (18, 7, min r 138 - 11) :: zeroRun fuel (r - min r 138)
    else if 3 ≤ r then [(17, 3, r - 3)]
    else (0, 0, 0) :: zeroRun fuel (r - 1)

/-- The repeats of a non-zero length (R505). -/
def repeatRun (v : Nat) : Nat → Nat → List LenItem
  | 0, _ => []
  | fuel + 1, r =>
    if r = 0 then []
    else if 3 ≤ r then (16, 2, min r 6 - 3) :: repeatRun v fuel (r - min r 6)
    else (v, 0, 0) :: repeatRun v fuel (r - 1)

/-- The run coding of R505. -/
def runCode : Nat → List Nat → List LenItem
  | 0, _ => []
  | _ + 1, [] => []
  | fuel + 1, v :: rest =>
    let r := 1 + (rest.takeWhile fun x => decide (x = v)).length
    (if v = 0 then zeroRun r r else (v, 0, 0) :: repeatRun v r (r - 1)) ++ runCode fuel ((v :: rest).drop r)

/-- The order of the code-length code lengths (RFC 1951). -/
def clOrder : List Nat := [16, 17, 18, 0, 8, 7, 9, 6, 10, 5, 11, 4, 12, 3, 13, 2, 14, 1, 15]

/-- One more than the last index with a non-zero value, and at least `least`. -/
def usedLen (least : Nat) (l : List Nat) : Nat := max least (l.length - (l.reverse.takeWhile fun x => decide (x = 0)).length)

/-- A dynamic block after its three header bits (R504, R505). -/
def dynamicBits (ts : List Token) : List Bool :=
  let lf := (countSyms 286 (ts.map litSym)).set 256 1
  let ll := huffLengths 15 lf
  let dl := huffLengths 15 (countSyms 30 (distSyms ts))
  let hlit := usedLen 257 ll
  let hdist := usedLen 1 dl
  let items := runCode (hlit + hdist) (ll.take hlit ++ dl.take hdist)
  let cl := huffLengths 7 (countSyms 19 (items.map Prod.fst))
  let clo := clOrder.map fun i => cl.getD i 0
  let hclen := usedLen 4 clo
  let clc := (canonCodes cl).toArray
  bitsLsb 5 (hlit - 257) ++ bitsLsb 5 (hdist - 1) ++ bitsLsb 4 (hclen - 4) ++ ((clo.take hclen).flatMap fun n => bitsLsb 3 n) ++
    (items.flatMap fun e => putCode clc e.1 ++ bitsLsb e.2.1 e.2.2) ++
    tokenBits (canonCodes ll).toArray (canonCodes dl).toArray ts

/-- A stored block's bytes after the bits before it. -/
def storedPayload (final : Bool) (raw : Bytes) : Bytes :=
  BitVec.ofNat 8 (if final then 1 else 0) :: (le 2 raw.length ++ le 2 (65535 - raw.length) ++ raw)

/-- The payload of the block s[b0] to s[b1 - 1] (R501, R502): its bytes, and whether it is stored. Level 0 is ARCHIVE mode. -/
def blockPayload (level : Nat) (s : Array Nat) (b0 b1 : Nat) (final : Bool) : Bytes × Bool :=
  let ts := blockTokens s (searchSet level) b0 b1
  let body := if level = 0 then [true, false] ++ tokenBits (canonCodes fixedLit).toArray (canonCodes fixedDist).toArray ts
    else [false, true] ++ dynamicBits ts
  let bits := final :: body
  let bits := if final then padByte bits else padByte (bits ++ [false, false, false]) ++ bitsLsb 16 0 ++ bitsLsb 16 0xFFFF
  let coded := bitsToBytes (bits.length / 8 + 1) bits
  let raw := ((s.toList.drop b0).take (b1 - b0)).map fun v => BitVec.ofNat 8 v
  if raw.length + 5 ≤ coded.length then (storedPayload final raw, true) else (coded, false)

/-- Decode one symbol of a canonical code from the front of the bits: the symbol and the rest. `n` lengths are left. -/
def decodeSym (lens : List Nat) : Nat → Nat → Nat → Nat → List Bool → Option (Nat × List Bool)
  | 0, _, _, _, _ => none
  | _ + 1, _, _, _, [] => none
  | n + 1, len, code, first, b :: bs =>
    let code := 2 * code + (if b then 1 else 0)
    let first := 2 * first
    let cnt := lens.count len
    if code - first < cnt ∧ first ≤ code then
      (((lens.zipIdx.filter fun e => decide (e.1 = len))[code - first]?).map Prod.snd).map fun s => (s, bs)
    else decodeSym lens n (len + 1) code (first + cnt) bs

def takeSym (lens : List Nat) (bs : List Bool) : Option (Nat × List Bool) := decodeSym lens 15 1 0 0 bs

/-- Take `n` bits as a number, least significant first. -/
def takeBits (n : Nat) (bs : List Bool) : Option (Nat × List Bool) :=
  if bs.length < n then none else some (bitsVal (bs.take n), bs.drop n)

/-- Copy `n` bytes from a distance back; the output is held newest first. -/
def copyBack (d : Nat) : Nat → Bytes → Bytes
  | 0, out => out
  | n + 1, out => copyBack d n (out.getD (d - 1) 0 :: out)

/-- The coded tokens of a block up to symbol 256: the output (newest first, history included) and the remaining bits. -/
def inflateCodes (ll dl : List Nat) : Nat → Bytes → List Bool → Option (Bytes × List Bool)
  | 0, _, _ => none
  | fuel + 1, out, bs =>
    match takeSym ll bs with
    | none => none
    | some (sym, bs) =>
      if sym < 256 then inflateCodes ll dl fuel (BitVec.ofNat 8 sym :: out) bs
      else if sym = 256 then some (out, bs)
      else if 285 < sym then none
      else
        match takeBits (lenExtra.getD (sym - 257) 0) bs with
        | none => none
        | some (e, bs) =>
          match takeSym dl bs with
          | none => none
          | some (ds, bs) =>
            if 29 < ds then none
            else
              match takeBits (distExtra.getD ds 0) bs with
              | none => none
              | some (de, bs) =>
                let d := distBase.getD ds 0 + de
                if out.length < d then none
                else inflateCodes ll dl fuel (copyBack d (lenBase.getD (sym - 257) 0 + e) out) bs

/-- The run-coded code lengths of a dynamic header, `need` of them, held newest first. -/
def readLens (cl : List Nat) (need : Nat) : Nat → List Nat → List Bool → Option (List Nat × List Bool)
  | 0, _, _ => none
  | fuel + 1, acc, bs =>
    if acc.length = need then some (acc.reverse, bs)
    else if need < acc.length then none
    else
      match takeSym cl bs with
      | none => none
      | some (sym, bs) =>
        if sym < 16 then readLens cl need fuel (sym :: acc) bs
        else
          let n := if sym = 16 then 2 else if sym = 17 then 3 else 7
          match takeBits n bs with
          | none => none
          | some (e, bs) =>
            if sym = 16 then (match acc with | [] => none | v :: _ => readLens cl need fuel (List.replicate (3 + e) v ++ acc) bs)
            else readLens cl need fuel (List.replicate ((if sym = 17 then 3 else 11) + e) 0 ++ acc) bs

/-- The two codes of a dynamic block. -/
def readDynamic (bs : List Bool) : Option ((List Nat × List Nat) × List Bool) :=
  match takeBits 14 bs with
  | none => none
  | some (h, bs) =>
    let hlit := h % 32 + 257
    let hdist := h / 32 % 32 + 1
    let hclen := h / 1024 + 4
    match takeBits (3 * hclen) bs with
    | none => none
    | some (v, bs) =>
      let cls := unpackBits 3 hclen v
      let cl := (List.range 19).map fun i => ((((clOrder.zip cls).find? fun e => decide (e.1 = i))).map Prod.snd).getD 0
      match readLens cl (hlit + hdist) (hlit + hdist + 1) [] bs with
      | none => none
      | some (ls, bs) => some ((ls.take hlit, ls.drop hlit), bs)

/-- What a decoded payload holds: its output with the history (newest first), the kind of its first block, BFINAL. -/
structure Inflated where
  out : Bytes
  stored : Bool
  final : Bool

/-- Decode the blocks of one payload; `total` is its length in bits, the measure of the byte boundary. -/
def inflateBlocks (total : Nat) : Nat → Option Bool → Bytes → List Bool → Option Inflated
  | 0, _, _, _ => none
  | fuel + 1, first, out, bs =>
    match takeBits 3 bs with
    | none => none
    | some (h, bs) =>
      let final := decide (h % 2 = 1)
      let kind := h / 2
      let stored := first.getD (decide (kind = 0))
      let body : Option (Bytes × List Bool) :=
        match kind with
        | 0 =>
          let used := total - bs.length
          let bs := bs.drop ((8 - used % 8) % 8)
          match takeBits 32 bs with
          | none => none
          | some (v, bs) =>
            let n := v % 65536
            if v / 65536 ≠ 65535 - n ∨ bs.length < 8 * n then none
            else some ((bitsToBytes n (bs.take (8 * n))).reverse ++ out, bs.drop (8 * n))
        | 1 => inflateCodes fixedLit (List.replicate 32 5) (bs.length + 1) out bs
        | 2 => match readDynamic bs with
          | none => none
          | some (c, bs) => inflateCodes c.1 c.2 (bs.length + 1) out bs
        | _ => none
      match body with
      | none => none
      | some (out, bs) =>
        if final then (if bs.length < 8 then some ⟨out, stored, true⟩ else none)
        else if bs.isEmpty then some ⟨out, stored, false⟩
        else inflateBlocks total fuel (some stored) out bs

/-- Decode one payload after `history` (newest first). -/
def inflate (history payload : Bytes) : Option Inflated :=
  let bits := bytesToBits payload
  inflateBlocks bits.length (bits.length + 1) none history bits

/-- One row through the pre-transform (R506), its predictor row given. -/
def transformRow (pred row : List Nat) : Bytes :=
  let z := row.zipIdx.map fun e =>
    let d := toSigned 18 (toUnsigned 18 ((e.1 : Int) - (pred.getD e.2 0 : Nat)))
    if 0 ≤ d then (2 * d).toNat else (-2 * d - 1).toNat
  (z.map fun v => BitVec.ofNat 8 v) ++ (z.map fun v => BitVec.ofNat 8 (v / 256)) ++
    le ((z.length + 3) / 4) (packBits 2 (z.map fun v => v / 65536))

/-- The transformed row's length. -/
def transformBytes (c : Nat) : Nat := 2 * c + (c + 3) / 4

/-- Undo `transformRow`. -/
def restoreRow (c : Nat) (pred : List Nat) (b : Bytes) : List Nat :=
  let hi := unpackBits 2 c (leVal (b.drop (2 * c)))
  (List.range c).map fun i =>
    let z := (byteAt b i).toNat + 256 * (byteAt b (c + i)).toNat + 65536 * hi.getD i 0
    let d : Int := if z % 2 = 0 then z / 2 else -((z + 1) / 2 : Nat)
    toUnsigned 18 ((pred.getD i 0 : Nat) + d)

/-- The rows of a stream through the pre-transform; earlier rows are held newest first. -/
def transformRows (period : Nat) : List (List Nat) → List (List Nat) → Bytes
  | _, [] => []
  | prev, row :: rest => transformRow (prev.getD (period - 1) []) row ++ transformRows period ((row :: prev).take period) rest

end Sys2Proof.Machine
end

