-- ==== Sys2Proof/Machine/DmaStart.lean ====
section
/-! DEFINITION. Start signals of the DMA channels and the swap of their register banks (R597 to R603). -/

namespace Sys2Proof.Machine

def modeStart (mode : Nat) : Nat := fieldOf mode 0 4
def modeIndex (mode : Nat) : Nat := fieldOf mode 24 8

def countTickMissed (c : Nat) (s : State) : State := setChan c (fun x => { x with ticksMissed := wrap32 (x.ticksMissed + 1) }) s

/-- A channel starts its next descriptor: it fetches it (R604). A fenced channel starts nothing (R610). -/
def fetchDesc (c : Nat) (s : State) : State :=
  if (vget s.dma.ch c).fencedBit then s else setChan c (fun x => { x with state := .run, fetching := true, passiveHold := false }) s

/-- A start signal reaches a channel in WAIT or RUN (R602, R603). -/
def startSignal (c : Nat) (s : State) : State :=
  let x := vget s.dma.ch c
  match x.state with
  | .wait => if x.done < x.active.count then fetchDesc c s else countTickMissed c s
  | .run => countTickMissed c s
  | _ => s

/-- The channel begins or goes on with its active set: from the doorbell at once, otherwise at its start signals (R602). -/
def beginSet (c : Nat) (s : State) : State :=
  if modeStart (vget s.dma.ch c).active.mode = 0 then fetchDesc c s else setChan c (fun x => { x with state := .wait }) s

/-- A held write is applied to the new shadow bank (R600). -/
def applyHeld (x : DmaChan) : DmaHeld → DmaChan
  | .base v => { x with shadow := { x.shadow with base := v } }
  | .count v => { x with shadow := { x.shadow with count := v } }
  | .mode v => { x with shadow := { x.shadow with mode := v } }
  | .arm => { x with armed := true }

/-- The banks of a channel swap (R599, R600). -/
def swapBanks (x : DmaChan) : DmaChan :=
  let y := { x with active := x.shadow, shadow := x.active, armed := false, done := 0, lockUntil := none, held := [], late := x.late || !x.held.isEmpty }
  x.held.foldl applyHeld y

/-- The end of count of a channel (START 2); a channel chained to itself never starts by it. -/
def chainSignal (src : Nat) (s : State) : State :=
  (List.range 64).foldl (fun s c =>
    let m := (vget s.dma.ch c).active.mode
    if c ≠ src ∧ modeStart m = 2 ∧ modeIndex m = src then startSignal c s else s) s

/-- End of count with no hand-over: EOC, the event and IDLE (R598). -/
def endCount (c : Nat) (arg0 arg1 : Int) (s : State) : State :=
  raise (0x300 + c) arg0 arg1 (setChan c (fun x => { x with state := .idle, eoc := true }) s)

/-- A lock that has lasted its time ends with the swap, and the channel goes on under the new MODE; one that left RUN meanwhile stays
where it is. A set of no descriptors is at its end of count at once (DEDUCED, assumption 64). -/
def settleLock (c : Nat) (s : State) : State :=
  let x := vget s.dma.ch c
  match x.lockUntil with
  | none => s
  | some t =>
    if s.now < t then s
    else
      let s := setChan c swapBanks s
      if x.state ≠ .run then s
      else if x.shadow.count = 0 then endCount c 0 0 s
      else beginSet c s

/-- Locks that have ended by now. -/
def settleLocks (s : State) : State :=
  if s.dma.ch.toList.all fun x => x.lockUntil.isNone then s else (List.range 64).foldl (fun s c => settleLock c s) s

/-- The threshold signal of a queue (R445). -/
def queueSignal (q : Nat) (s : State) : State :=
  (List.range 64).foldl (fun s c =>
    let m := (vget s.dma.ch c).active.mode
    if modeStart m = 3 ∧ modeIndex m = q then startSignal c s else s) (settleLocks s)

end Sys2Proof.Machine
end

