-- ==== Sys2Proof/Machine/ScribeOps.lean ====
section
/-! DEFINITION. The Scribe ("Defect records, patches, queues and mark scheduling"): placing items, the queues and their heads,
patches and their stores, and the queues at a glue-up. -/

namespace Sys2Proof.Machine

/-- The configuration in force in the Scribe, which takes a new one with Marquetry. -/
def scribeCfg (s : State) : Cfg :=
  match s.glue with
  | some g => if g.applied.contains .marquetry then g.next else s.running
  | none => s.running

/-! ### Layout (R432, R450, R534) -/

/-- Offset of queue q's body in a configuration. -/
def bodyBase (c : Cfg) (q : Nat) : Nat :=
  (vget c.part 15).baseMib * mib + (((List.range q).filter fun i => (vget c.queue i).enable).map fun i => (vget c.queue i).bodyKib * 1024).sum

def dirBytes (c : Cfg) (q : Nat) : Nat := ceilDiv (queueCap (vget c.queue q).bodyKib * 16) 65536 * 65536

def patchesOn (c : Cfg) (q : Nat) : Bool := (vget c.patch q).enable && (vget c.queue q).enable

/-- Offset of queue q's patch directory in a configuration. -/
def dirPlace (c : Cfg) (q : Nat) : Nat :=
  (vget c.part 14).baseMib * mib + (((List.range q).filter (patchesOn c)).map fun i => dirBytes c i + (vget c.patch i).storeMib * mib).sum

/-- Offset of a record in the Bench (R432). -/
def recordOff (x : Queue) (seq : Nat) : Nat := x.base + seq % x.cap * 64

def unread (x : Queue) : Nat := (x.wr + 2 ^ 32 - x.rd) % 2 ^ 32
def unreleased (x : Queue) : Nat := (x.wr + 2 ^ 32 - x.rel) % 2 ^ 32

/-! ### Threshold and idle time (R445) -/

/-- The threshold event is raised once WR - RD reaches THRESHOLD, and re-arms once it is below. -/
def queueLevel (q : Nat) (s : State) : State :=
  let x := vget s.scribe.queues q
  let reached := x.on && decide (x.threshold ≠ 0) && decide (x.threshold ≤ unread x)
  if reached && !x.thresholdDone then queueSignal q (raise (0x200 + q) 0 0 (setQueue q (fun x => { x with thresholdDone := true }) s))
  else if !reached && x.thresholdDone then setQueue q (fun x => { x with thresholdDone := false }) s
  else s

/-- The live trims of a queue are set (R445). -/
def trimQueue (q : Nat) (threshold idle : Option Nat) (s : State) : State :=
  let s := match threshold with
    | some v => setQueue q (fun x => { x with threshold := v, thresholdDone := false }) s
    | none => s
  let s := match idle with
    | some v => setQueue q (fun x => { x with idleTimeout := v, idleDone := false, idleSince := s.now }) s
    | none => s
  queueLevel q s

/-- Live trims of queues come into force with their line (R705). -/
def queueTrims (line : Nat) (s : State) : State :=
  let r := takeTrims (fun t => match t with | .queueTrim _ _ _ l => atOrAfter line l | _ => false) s
  r.1.foldl (fun s t => match t with
    | .queueTrim q th idle _ => trimQueue q th idle s
    | _ => s) r.2

/-- The idle event (R445). -/
def queueIdle (q : Nat) (s : State) : State :=
  let x := vget s.scribe.queues q
  if x.on && decide (x.idleTimeout ≠ 0) && decide (x.wr ≠ x.rd) && !x.idleDone && decide (x.idleSince + x.idleTimeout * 1000 ≤ s.now) then
    raise (0x210 + q) 0 0 (setQueue q (fun x => { x with idleDone := true }) s)
  else s

/-! ### Freeing patches -/

/-- A stored patch is freed: its space, its ticket with a code, its directory entry. One that is overwritten is counted in PATCHES_LOST
(Table 17-3). -/
def freeStored (q : Nat) (p : StoredPatch) (code : Nat) (s : State) : State :=
  let s := setQueue q (fun x => { x with
    patches := x.patches.filter fun y => decide (y.seq ≠ p.seq)
    live := x.live.map fun r => if r.seq = p.seq then { r with patchTicket := none } else r
    cnt := { x.cnt with patchesLost := wrap32 (x.cnt.patchesLost + (if code = 1 then 1 else 0)) } }) s
  clearDirEntry q p.seq (endTicket p.ticket code s)

/-- The patch of a record that ends: stored, or still to be cut or compressed. -/
def dropPatch (q : Nat) (r : LiveRec) (code : Nat) (s : State) : State :=
  match (vget s.scribe.queues q).patches.find? fun p => decide (p.seq = r.seq) with
  | some p => freeStored q p code s
  | none =>
    match r.patchTicket with
    | none => s
    | some w =>
      let mine (j : PatchJob) : Bool := decide (j.queue = q) && decide (j.seq = r.seq)
      let engines := (s.scribe.jobs.filter fun j => mine j && j.cut).map (·.engine)
      let s := engines.foldl (fun s e => setCe e (fun u => { u with job := none }) s) s
      let s := setQueue q (fun x => { x with cnt := { x.cnt with patchesLost := wrap32 (x.cnt.patchesLost + (if code = 1 then 1 else 0)) } }) s
      clearDirEntry q r.seq (endTicket w code { s with scribe := { s.scribe with jobs := s.scribe.jobs.filter fun j => !mine j } })

/-- A record ends: its ticket and its patch's. -/
def endRecord (q : Nat) (r : LiveRec) (code : Nat) (s : State) : State := dropPatch q r code (endTicket r.ticket code s)

/-! ### Writing (R436, R437) -/

/-- SEQ of the first of some records, or WR: SEQ has gaps in a queue fed by a relay (R693). -/
def nextRecord (x : Queue) (rest : List LiveRec) : Nat :=
  match rest with
  | r :: _ => r.seq
  | [] => x.wr

/-- A full queue gives up its oldest unreleased record (R437). -/
def overwriteOldest (q strip : Nat) (s : State) : State :=
  let x := vget s.scribe.queues q
  match x.live with
  | [] => s
  | r :: rest =>
    let s := endRecord q r 1 s
    let unreadLost := !later32 x.rd r.seq
    let overtaken := x.markValid && !later32 x.mkp r.seq
    let next := nextRecord x rest
    let s := setQueue q (fun y => { y with
      live := rest
      rel := next
      rd := if unreadLost then next else x.rd
      head := if unreadLost then x.head - 1 else x.head
      markValid := x.markValid && !overtaken
      markLost := x.markLost || overtaken
      cnt := { y.cnt with
        lost := wrap32 (y.cnt.lost + 1)
        unreadLost := wrap32 (y.cnt.unreadLost + (if unreadLost then 1 else 0))
        markLosses := wrap32 (y.cnt.markLosses + (if overtaken then 1 else 0)) } }) s
    reportLedger q (raiseOnceIn strip (0x220 + q) 0 0 s)

/-- A record is written at WR and offered to the head (R430, R434, R436). -/
def writeRecord (q strip ticket : Nat) (patch : Option Nat) (bytes : Bytes) (s : State) : State :=
  let s := if (vget s.scribe.queues q).cap ≤ unreleased (vget s.scribe.queues q) then overwriteOldest q strip s else s
  let x := vget s.scribe.queues q
  let s := benchWrite (recordOff x x.wr) bytes s
  let s := setQueue q (fun y => { y with
    wr := wrap32 (x.wr + 1)
    head := if x.head = unread x ∧ x.head < 32 then x.head + 1 else x.head
    live := x.live ++ [{ seq := x.wr, strip, ticket, patchTicket := patch }]
    idleSince := if x.wr = x.rd then s.now else x.idleSince
    cnt := { y.cnt with written := wrap32 (y.cnt.written + 1) } }) s
  queueLevel q (digestRecord strip q bytes s)

/-! ### Reading (R434, R438 to R440) -/

/-- The queue is the source of an open relay (R692). -/
def relayedAway (s : State) (q : Nat) : Bool := s.ring.sources.any fun r => decide (r.srcQueue = q)

/-- The read point after the record at RD. -/
def nextRead (x : Queue) : Nat := nextRecord x (x.live.filter fun r => later32 r.seq x.rd)

/-- A read of the data word takes the record in stage 0, or finds none (R438, R440). The source queue of an open relay is found empty
(R692). -/
def takeRecord (q : Nat) (s : State) : Bytes × State :=
  let x := vget s.scribe.queues q
  if x.head = 0 ∨ relayedAway s q then
    (zeros 64, setQueue q (fun y => { y with
      latched := zeros 64
      latchedEmpty := true
      idleDone := false
      cnt := { y.cnt with emptyReads := wrap32 (y.cnt.emptyReads + 1) } }) s)
  else
    let bytes := benchRead s (recordOff x x.rd) 64
    (bytes, queueLevel q (setQueue q (fun y => { y with
      rd := nextRead x
      head := min (x.head - 1) ((x.wr + 2 ^ 32 - nextRead x) % 2 ^ 32)
      latched := bytes
      latchedEmpty := false
      idleDone := false
      idleSince := s.now }) s))

/-- A record is fetched from the body into the head (R434). -/
def refillHead (q : Nat) (s : State) : State :=
  let x := vget s.scribe.queues q
  if x.on && !relayedAway s q && decide (x.head < 32) && decide (x.head < unread x) then setQueue q (fun y => { y with head := x.head + 1 }) s else s

/-! ### Relays at their source (R692 to R694) -/

/-- The stored patch of a record, read from the store. -/
def patchBytes (s : State) (x : Queue) (seq : Nat) : Bytes :=
  match x.patches.find? fun p => decide (p.seq = seq) with
  | some p =>
    let room := x.storeSize - p.off
    benchRead s (x.storeBase + p.off) (min p.len room) ++ benchRead s x.storeBase (p.len - room)
  | none => []

/-- The patch of a record is not yet in its store. -/
def patchPending (x : Queue) (r : LiveRec) : Bool := r.patchTicket.isSome && !x.patches.any fun p => decide (p.seq = r.seq)

/-- The records that can go now, in SEQ order: from RD on, up to one whose patch is not complete. -/
def relayReady (x : Queue) : List LiveRec := (x.live.filter fun r => atOrAfter r.seq x.rd).takeWhile fun r => !patchPending x r

/-- The source of an open relay sends each record, followed by its patch (R692). -/
def relaySend (q : Nat) (s : State) : State :=
  match s.ring.sources.find? fun r => decide (r.srcQueue = q) with
  | none => s
  | some r =>
    if !s.ring.modules.any fun m => decide (m.id = some r.srcModule) && (m.hopsEast.isSome || m.hopsWest.isSome) then s
    else
      (relayReady (vget s.scribe.queues q)).foldl (fun s l =>
        let x := vget s.scribe.queues q
        out (.relayRecord r.srcModule q (benchRead s (recordOff x l.seq) 64) (patchBytes s x l.seq))
          (setQueue q (fun y => { y with rd := nextRead x, head := 0 }) s)) s

/-! ### Patches (R446 to R449) -/

/-- The patch box of a DEFECT item (R446, R447). -/
def patchJob (s : State) (q seq ticket strip : Nat) (i : ClosedItem) : PatchJob :=
  let cfg := cfgAt s i.closeLine
  let p := vget (scribeCfg s).patch q
  let base := match cfg.grid with | some g => g.base | none => 0
  let cols := match cfg.grid with | some g => g.columns | none => 1
  let lo : Int := (i.feat.minCol : Int) - p.marginCols
  let hi := i.feat.maxCol + p.marginCols
  let c0 := max lo.toNat base
  let c1 := min hi (base + cols - 1)
  let depth := (vget cfg.part 12).sizeA
  let limit := stripFirst cfg.shift ((strip + 2 ^ 32 - (depth - 2)) % 2 ^ 32)
  let l0 := wrap32 (i.feat.firstLine + 2 ^ 32 - p.marginLines)
  let first := max32 l0 limit
  let last := wrap32 (i.feat.lastLine + p.marginLines)
  let lines := (sdiff32 last first).toNat + 1
  let width := c1 + 1 - c0
  let kept := patchLines width (maskFields p.fields).length lines
  { queue := q, seq, ticket, item := i, firstCol := c0, cols := width, firstLine := first, lastLine := wrap32 (first + kept - 1),
    clipCols := decide (lo ≠ (c0 : Int)) || decide (hi ≠ c1), clipLines := decide (first ≠ l0), truncated := decide (kept < lines), lines := kept,
    level := p.level, fields := p.fields, pretransform := p.pretransform, engine := p.engine }

/-- The rows of a patch as they stand in the strip ring, in order of web line and field (R446). -/
def patchRows (s : State) (j : PatchJob) : List (List Nat) :=
  let base := match (cfgAt s j.firstLine).grid with | some g => g.base | none => 0
  (List.range j.lines).flatMap fun n =>
    (maskFields j.fields).map fun f => ((readStitchedRow s (wrap32 (j.firstLine + n)) f).drop (j.firstCol - base)).take j.cols

/-- Rows of one width in the form of R447. -/
def packRows (cols : Nat) (rows : List (List Nat)) : Bytes := rows.flatMap fun xs => le (patchRowBytes cols) (packBits 18 xs)

/-- The oldest patch of a queue that is still to be cut. -/
def nextPatch (s : State) (q : Nat) : Option PatchJob :=
  if s.scribe.jobs.any fun j => decide (j.queue = q) && j.cut then none else s.scribe.jobs.find? fun j => decide (j.queue = q)

/-- The compressor of a queue reads its next patch once Marquetry has finished the box's last web line (R448, R449). -/
def cutPatch (q : Nat) (s : State) : State :=
  match nextPatch s q with
  | none => s
  | some j =>
    if !marqPast s j.lastLine || isFenced s 0x0A j.engine || (ceAt s j.engine).job.isSome then s
    else
      let rows := patchRows s j
      let raw := packRows j.cols rows
      let period := (maskFields j.fields).length
      let mine (x : PatchJob) : Bool := decide (x.queue = q) && decide (x.seq = j.seq)
      let s := { s with scribe := { s.scribe with jobs := s.scribe.jobs.map fun x => if mine x then { x with cut := true, payload := raw } else x } }
      let s := setCe j.engine (fun u => { u with job := some {
        source := .patch q j.seq
        key := j.seq
        level := j.level
        raw := if j.pretransform then transformRows period [] rows else raw
        ptCols := if j.pretransform then j.cols else 0
        ptPeriod := if j.pretransform then period else 0 } }) s
      setQueue q (fun x => { x with cnt := { x.cnt with
        patchesCut := wrap32 (x.cnt.patchesCut + 1)
        truncated := wrap32 (x.cnt.truncated + (if j.truncated then 1 else 0)) } }) s

/-! ### Placing items (R427 to R430) -/

/-- Marquetry feeds a queue, by a rule, the defaults or OVERFLOW_QUEUE. -/
def marqFeeds (b : SegBank) (q : Nat) : Bool :=
  let r := regionCfg b
  decide (r.overflowQueue = some q) || decide (r.dflt.queue = q) || b.rules.toList.any fun x => x.enable && decide (x.decision.queue = q)

/-- Every source configured to feed a queue has completed a strip (R427). -/
def sourcesDone (s : State) (q lastLine : Nat) : Bool :=
  let cfg := cfgAt s lastLine
  let past (d : Option Nat) : Bool := d.any fun k => atOrAfter k lastLine
  let marq := !cfg.grid.isSome || !marqFeeds s.marq.active q || past s.scribe.marqDone
  let slots := (List.range 24).all fun slot =>
    !ingestOn cfg slot || !(decide ((vget cfg.plane slot).statsQueue = some q) || decide ((vget cfg.link slot).eventQueue = some q)) ||
      past (vget s.scribe.slotDone slot)
  marq && slots

/-- The strip whose items a queue places next, by its last web line. -/
def nextStrip (s : State) (q : Nat) : Option Nat :=
  (s.scribe.inbox.filter fun i => decide (i.queue = q)).foldl (fun m i => match m with
    | some k => some (if later32 k i.lastLine then i.lastLine else k)
    | none => some i.lastLine) none

/-- MARK: the ticket and the schedule of R430, step 4. The state, and whether MARK_NOT_SCHEDULED is set. On a station of the partner's
axes no mark is scheduled; once the partner is lost it ends PARTNER_LOST (R701, R713). -/
def placeMark (q seq strip : Nat) (i : ClosedItem) (s : State) : State × Bool :=
  let t := i.decision.station
  let shadow := shadowStation (cfgNow s) t
  if shadow && !s.pair.partnerLost then (s, false)
  else
    match issueTicket s with
    | none =>
      let s := setStation t (fun x => { x with cnt := { x.cnt with notScheduled := wrap32 (x.cnt.notScheduled + 1) } }) (countNoTicket s)
      (raiseOnceIn strip 0x234 0 0 s, true)
    | some (w, s) =>
      if shadow then
        let c := stationCfg s t
        (endMark t { ticket := w, queue := q, seq, tgt := markTarget c (centCol i.feat), fire := i.feat.firstPos + c.fireOffset } .partnerLost s, false)
      else (scheduleMark t q seq w i.feat.firstPos (centCol i.feat) s, false)

/-- PATCH: the ticket and the box of R430, step 3. The state, the ticket, and whether NO_PATCH is set. -/
def placePatch (q seq strip : Nat) (i : ClosedItem) (s : State) : State × Option Nat × Bool :=
  match issueTicket s with
  | none =>
    let s := setQueue q (fun x => { x with cnt := { x.cnt with noPatch := wrap32 (x.cnt.noPatch + 1) } }) (countNoTicket s)
    (raiseOnceIn strip 0x234 0 0 s, none, true)
  | some (w, s) => ({ s with scribe := { s.scribe with jobs := s.scribe.jobs ++ [patchJob s q seq w strip i] } }, some w, false)

/-- Some enabled overlay draws the boxes of a queue (R486). -/
def overlayWants (s : State) (q : Nat) : Bool :=
  (List.range 8).any fun v => let c := vget (cfgNow s).view v; c.enable && c.overlay && bitOf c.queues q

/-- The steps of R430 for an item whose record's ticket is taken. -/
def placeItem (i : ScribeItem) (ticket : Nat) (s : State) : State :=
  let q := i.queue
  let seq := (vget s.scribe.queues q).wr
  match i.item with
  | none =>
    writeRecord q i.strip ticket none (recHeader seq (recKindCode i.kind) 0 0 (recFlags false false false false false) ++ i.body) s
  | some c =>
    let d := c.decision
    let wantsPatch := actPatch d && patchesOn (scribeCfg s) q
    let p := if wantsPatch then placePatch q seq i.strip c s else (s, none, false)
    let m := if actMark d then placeMark q seq i.strip c p.1 else (p.1, false)
    let bytes := recHeader seq 1 d.rule (recGrade d.station d.severity) (recFlags (actMark d) wantsPatch (actAlarm d) m.2 p.2.2) ++ defectBody c
    let s := writeRecord q i.strip ticket p.2.1 bytes m.1
    if overlayWants s q then { s with scribe := { s.scribe with boxes := s.scribe.boxes ++
        [⟨q, i.strip, d.severity, c.feat.minCol, c.feat.maxCol, c.feat.firstLine, c.feat.lastLine⟩] } }
    else s

/-- Place items in order while tickets last; the first that must wait counts once, and the items from it on stay (R430, R812). -/
def placeItems : List ScribeItem → State → List ScribeItem × State
  | [], s => ([], { s with scribe := { s.scribe with ticketWait := none } })
  | i :: rest, s =>
    if !(vget s.scribe.queues i.queue).on then
      placeItems rest (setQueue i.queue (fun x => { x with cnt := { x.cnt with offDiscards := wrap32 (x.cnt.offDiscards + 1) } }) s)
    else
      match issueTicket s with
      | none =>
        let s := if s.scribe.ticketWait.isSome then s else countNoTicket s
        (i :: rest, { s with scribe := { s.scribe with ticketWait := some i.queue } })
      | some (w, s) => placeItems rest (placeItem i w { s with scribe := { s.scribe with ticketWait := none } })

/-- The Scribe places the items of a queue's next strip (R427, R429). -/
def placeStrip (q : Nat) (s : State) : State :=
  if s.scribe.ticketWait.any fun w => decide (w ≠ q) then s
  else
    match nextStrip s q with
    | none => s
    | some k =>
      if !sourcesDone s q k then s
      else
        let mine (i : ScribeItem) : Bool := decide (i.queue = q) && decide (i.lastLine = k)
        let r := placeItems (sortBy itemOrder (s.scribe.inbox.filter mine)) { s with scribe := { s.scribe with inbox := s.scribe.inbox.filter fun i => !mine i } }
        { r.2 with scribe := { r.2.scribe with inbox := r.1 ++ r.2.scribe.inbox } }

/-! ### MARK, REWIND and RELEASE (R442 to R444) -/

/-- Records below UPTO are released; how many, and the state. -/
def releaseTo (q upto : Nat) (s : State) : Nat × State :=
  let x := vget s.scribe.queues q
  if !later32 upto x.rel then (0, s)
  else
    let gone := x.live.filter fun r => later32 upto r.seq
    let s := gone.foldl (fun s r => endRecord q r 0 s) s
    let drops := x.markValid && later32 upto x.mkp
    let s := setQueue q (fun y => { y with
      live := y.live.filter fun r => !later32 upto r.seq
      rel := upto
      markValid := y.markValid && !drops
      cnt := { y.cnt with released := wrap32 (y.cnt.released + gone.length) } }) s
    (gone.length, reportLedger q s)

/-- The read point returns to an earlier record: the head is emptied and refilled from there (R443). -/
def rewindTo (q seq : Nat) (s : State) : State :=
  queueLevel q (setQueue q (fun y => { y with
    rd := seq
    head := 0
    markLost := false
    cnt := { y.cnt with rewinds := wrap32 (y.cnt.rewinds + 1) } }) s)

/-! ### The effective strip (Table 9-4, R18, R25, R450) -/

/-- Every unreleased record of a queue ends OVERWRITTEN and is counted, and its read points move to WR (R25, Table 17-3). -/
def emptyQueue (q : Nat) (s : State) : State :=
  let x := vget s.scribe.queues q
  let unreadLost := (x.live.filter fun r => !later32 x.rd r.seq).length
  let s := x.live.foldl (fun s r => endRecord q r 1 s) s
  let s := setQueue q (fun y => { y with cnt := { y.cnt with lost := wrap32 (y.cnt.lost + x.live.length), unreadLost := wrap32 (y.cnt.unreadLost + unreadLost) } }) s
  setQueue q (fun x => { x with live := [], rd := x.wr, rel := x.wr, mkp := x.wr, markValid := false, markLost := false, head := 0, patches := [] }) s

/-- A queue takes its new configuration. -/
def queueTake (old new : Cfg) (q : Nat) (s : State) : State :=
  let x := vget s.scribe.queues q
  let c := vget new.queue q
  let cap := if c.enable then queueCap c.bodyKib else 0
  let base := if c.enable then bodyBase new q else 0
  let moved := decide (x.on ≠ c.enable) || decide (x.cap ≠ cap) || decide (x.base ≠ base)
  let s := if moved && x.on then emptyQueue q s else s
  let s := if decide (vget old.queue q ≠ c) then
      setQueue q (fun y => { y with threshold := 0, idleTimeout := 0, thresholdDone := false, idleDone := false }) s
    else s
  let s := setQueue q (fun y => { y with on := c.enable, cap, base, idleSince := if c.enable && !x.on then s.now else y.idleSince }) s
  let size := if patchesOn new q then (vget new.patch q).storeMib * mib else 0
  let dir := if patchesOn new q then dirPlace new q else 0
  if x.dirBase = dir ∧ x.storeSize = size ∧ x.cap = cap then s
  else
    -- the store is laid out anew: what it held ends (R25)
    let s := (vget s.scribe.queues q).patches.foldl (fun s p => freeStored q p 1 s) s
    let s := if size = 0 then
        (s.scribe.jobs.filter fun j => decide (j.queue = q)).foldl (fun s j => dropPatch q { seq := j.seq, patchTicket := some j.ticket } 1 s) s
      else s
    let s := setQueue q (fun y => { y with dirBase := dir, storeBase := dir + dirBytes new q, storeSize := size, storeWrite := 0, patches := [] }) s
    if size = 0 then s else (vget s.scribe.queues q).live.foldl (fun s r => clearDirEntry q r.seq s) s

/-- The queues and patch stores take a new configuration, with Marquetry. -/
def queuesTake (old new : Cfg) (s : State) : State := (List.range 16).foldl (fun s q => queueTake old new q s) s

end Sys2Proof.Machine
end

