-- ==== Sys2Proof/Machine/CompressOps.lean ====
section
/-! DEFINITION. The operations of the compressors, the archive and the decompressors ("Compression and the pack frame"). -/

namespace Sys2Proof.Machine

/-! ### Injected faults (R739) -/

/-- How many attempts an injection at a point makes fail, and the state without it. It lapses after 1 s. -/
def takeInjection (kind index : Nat) (s : State) : Nat × State :=
  let hit (i : Injection) : Bool := decide (i.kind = kind) && decide (i.index = index) && decide (s.now < i.armedAt + 1000000000)
  match s.faults.injections.find? hit with
  | some i => (i.count, { s with faults := { s.faults with injections := s.faults.injections.erase i } })
  | none => (0, s)

/-! ### Blocks and frames (R498 to R512) -/

def blockBytes : Nat := 32768

/-- STREAM_ID of a compressor's stream (Table 11-3). -/
def streamId (fields : List Nat) (bands : Nat) : CeSource → Nat
  | .patch q _ => 2 ^ 28 + q * 2 ^ 24
  | .archive j => 2 ^ 29 + fields.getD (j / bands) 0 * 2 ^ 24 + j % bands * 2 ^ 16

def jobStreamId (s : State) (j : CeJob) : Nat :=
  match s.comp.layout with
  | some l => streamId l.1.fields l.1.bands j.source
  | none => streamId [] 1 j.source

/-- The frame of a job's present block (R508, Table 11-3), and whether the block is FINAL and stored. -/
def blockFrame (s : State) (j : CeJob) : Bytes × Bool × Bool :=
  let b0 := j.blockSeq * blockBytes
  let b1 := min j.raw.length (b0 + blockBytes)
  let final := decide (b1 = j.raw.length)
  let p := blockPayload j.level (j.raw.map fun b => b.toNat).toArray b0 b1 final
  let raw := (j.raw.drop b0).take (b1 - b0)
  let flags := flagBit p.2 0 + flagBit final 1 + flagBit (decide (j.ptCols ≠ 0)) 2
  (le 1 0x4B ++ le 1 0x50 ++ le 1 1 ++ le 1 flags ++ le 4 (jobStreamId s j) ++ le 4 j.key ++ le 4 j.blockSeq ++ le 4 raw.length ++
    le 4 p.1.length ++ le 4 (crc32c raw) ++ le 3 j.ptCols ++ le 1 j.ptPeriod ++ p.1, final, p.2)

/-- The verifier of a compressor (R511). -/
def hasVerifier (s : State) (e : Nat) : Bool := (List.range 4).any fun d => bitOf (vget (cfgNow s).verify d) e

/-! ### The patch store (R450, R451) -/

/-- The oldest stored patches of a queue are freed until `n` bytes fit; `fuel` bounds how many. -/
def freeForPatch (q strip n : Nat) : Nat → State → State
  | 0, s => s
  | fuel + 1, s =>
    let x := vget s.scribe.queues q
    match x.patches with
    | [] => s
    | p :: _ =>
      if (x.patches.map (·.len)).sum + n ≤ x.storeSize then s
      else
        freeForPatch q strip n fuel (raiseOnceIn strip (0x220 + q) 0 0 (freeStored q p 1 s))

/-- Bytes written at a place of a ring of `size` bytes that begins at `base`, going on at its start. -/
def ringWrite (base size off : Nat) (data : Bytes) (s : State) : State :=
  let room := size - off
  let s := benchWrite (base + off) (data.take room) s
  if room < data.length then benchWrite base (data.drop room) s else s

/-- A patch's header and frames are written at the write point of its queue's store, then its directory entry (R450, R451); `lost` where
there is no room. -/
def storeBytes (q seq ticket : Nat) (bytes : Bytes) (lost : State → State) (s : State) : State :=
  let len := ceilDiv bytes.length 64 * 64
  let s := freeForPatch q (currentStrip s) len (vget s.scribe.queues q).patches.length s
  let x := vget s.scribe.queues q
  if x.storeSize < (x.patches.map (·.len)).sum + len then lost s
  else
    let s := ringWrite x.storeBase x.storeSize x.storeWrite (padTo len bytes) s
    let s := benchWrite (dirEntryOff x seq) (le 8 (x.storeBase + x.storeWrite) ++ le 4 bytes.length ++ le 4 seq) s
    setQueue q (fun x => { x with
      patches := x.patches ++ [⟨seq, ticket, x.storeWrite, len⟩]
      storeWrite := (x.storeWrite + len) % x.storeSize }) s

/-- A patch is complete: it is stored, and its job ends. -/
def storePatch (j : PatchJob) (frames : Bytes) (s : State) : State :=
  let s := storeBytes j.queue j.seq j.ticket (patchHeader j j.payload.length frames.length ++ frames) (failPatchJob j 1) s
  relaySend j.queue { s with scribe := { s.scribe with jobs := s.scribe.jobs.filter fun y => !(decide (y.queue = j.queue) && decide (y.seq = j.seq)) } }

/-! ### The archive (R514 to R520) -/

def archiveOn (c : Cfg) : Bool := c.archive.enable && c.grid.isSome

def archiveStreams (a : ArchiveCfg) : Nat := a.bands * a.fields.length

/-- The sub-rings of a configuration (R516). -/
def archiveRings (c : Cfg) : List SubRing :=
  let p := vget c.part 13
  let n := archiveStreams c.archive
  let size := if n = 0 ∨ !p.enable then 0 else p.sizeA * mib / n / 4096 * 4096
  (List.range n).map fun j => { base := p.baseMib * mib + j * size, size, indexStrips := c.archive.indexStrips }

def indexBytes (r : SubRing) : Nat := ceilDiv (r.indexStrips * 32) 4096 * 4096
def areaBase (r : SubRing) : Nat := r.base + indexBytes r
def areaSize (r : SubRing) : Nat := r.size - indexBytes r

def setSub (j : Nat) (f : SubRing → SubRing) (s : State) : State := { s with comp := { s.comp with rings := s.comp.rings.modify j f } }
def subAt (s : State) (j : Nat) : SubRing := s.comp.rings.getD j {}

/-- The index entry of a strip (Table 11-4). -/
def indexEntry (r : SubRing) (x : ArcStrip) : Bytes :=
  le 4 x.strip ++ le 4 x.frames ++ le 8 (if x.frames = 0 then 0 else areaBase r + x.off) ++ le 4 x.len ++ le 4 x.raw ++
    le 2 (flagBit x.complete 0 + flagBit x.verifyFailed 1 + flagBit x.noTicket 2) ++ zeros 2 ++ le 4 x.strip

def entryOff (r : SubRing) (strip : Nat) : Nat := r.base + strip % r.indexStrips * 32

/-- Bytes [a, a + n) of the frame area meet those of a strip held, which may go on at the start. -/
def stripMeets (size a n : Nat) (x : ArcStrip) : Bool :=
  let hit (lo hi : Nat) : Bool := decide (a < hi) && decide (lo < a + n)
  decide (0 < x.len) && (hit x.off (min size (x.off + x.len)) || (decide (size < x.off + x.len) && hit 0 (x.off + x.len - size)))

/-- The oldest strip of a sub-ring is freed (R518). -/
def freeStrip (j : Nat) (s : State) : State :=
  let r := subAt s j
  match r.strips with
  | [] => s
  | x :: rest =>
    let s := benchWrite (entryOff r x.strip) (zeros 32) (setSub j (fun r => { r with strips := rest }) s)
    { s with comp := { s.comp with cnt := { s.comp.cnt with freed := wrap32 (s.comp.cnt.freed + 1) } } }

/-- Strips are freed, oldest first, while one meets the bytes [a, a + n) of the frame area. -/
def freeForFrame (j a n : Nat) : Nat → State → State
  | 0, s => s
  | fuel + 1, s =>
    let r := subAt s j
    if r.strips.any (stripMeets (areaSize r) a n) then freeForFrame j a n fuel (freeStrip j s) else s

/-- One frame is written in a sub-ring (R510, R517, R518). A strip whose own frames leave no room is given up. -/
def placeFrame (j : Nat) (frame : Bytes) (raw : Nat) (noTicket : Bool) (s : State) : State :=
  let r := subAt s j
  let size := areaSize r
  let n := ceilDiv frame.length 64 * 64
  match r.cur with
  | none => s
  | some x =>
    let wraps := decide (size < r.write + n)
    let tail := if wraps then size - r.write else 0
    let at_ := if wraps then 0 else r.write
    let s := if tail = 0 then s else freeForFrame j r.write tail r.strips.length s
    let s := freeForFrame j at_ n r.strips.length s
    let own := x.frames ≠ 0 && (stripMeets size at_ n x || (wraps && stripMeets size r.write tail x))
    if x.dropped ∨ size < n ∨ own then
      let s := if x.dropped then s else { s with comp := { s.comp with cnt := { s.comp.cnt with freed := wrap32 (s.comp.cnt.freed + 1) } } }
      setSub j (fun r => { r with cur := some { x with dropped := true, raw := x.raw + raw, noTicket := x.noTicket || noTicket } }) s
    else
      let s := if tail = 0 then s else benchWrite (areaBase r + r.write) (zeros (min 64 tail)) s
      let s := benchWrite (areaBase r + at_) (padTo n frame) s
      let x := if x.frames = 0 then { x with off := at_, len := n } else { x with len := x.len + tail + n }
      setSub j (fun r => { r with
        write := at_ + n
        cur := some { x with frames := x.frames + 1, raw := x.raw + raw, noTicket := x.noTicket || noTicket } }) s

/-- Strips are freed up to and including the one whose entry lies at the index of a new strip (R518). -/
def freeForEntry (j strip : Nat) : Nat → State → State
  | 0, s => s
  | fuel + 1, s =>
    let r := subAt s j
    if r.strips.any fun x => decide (x.strip % r.indexStrips = strip % r.indexStrips) then freeForEntry j strip fuel (freeStrip j s) else s

/-- The strip of a sub-ring ends: its index entry is written (R516). -/
def finishStrip (j : Nat) (complete_ verifyFailed : Bool) (s : State) : State :=
  let r := subAt s j
  match r.cur with
  | none => s
  | some x =>
    let x := if x.dropped then { x with frames := 0, len := 0 } else x
    let x := { x with complete := complete_ && !x.dropped, verifyFailed }
    let s := freeForEntry j x.strip r.strips.length s
    let s := benchWrite (entryOff r x.strip) (indexEntry r x) s
    let s := setSub j (fun r => { r with cur := none, strips := r.strips ++ [x] }) s
    { s with comp := { s.comp with cnt := { s.comp.cnt with archived := wrap32 (s.comp.cnt.archived + (if x.complete then 1 else 0)) } } }

/-- An archive block begins: its ticket is taken (R519). -/
def beginBlock (e : Nat) (s : State) : State :=
  match issueTicket s with
  | some (w, s) => setCe e (fun u => { u with job := u.job.map fun j => { j with ticket := some w } }) s
  | none => setCe e (fun u => { u with job := u.job.map fun j => { j with ticket := none } }) (countNoTicket s)

/-- The archive's next strip to begin: its last web line. -/
def archiveNext (s : State) : Option Nat := (unitNext s s.comp.archiveLine archiveOn).map (stripEnd s)

/-- The packed or transformed rows of one stream of a strip (R515). -/
def archiveRaw (s : State) (a : ArchiveCfg) (j first lines : Nat) : Bytes :=
  let f := a.fields.getD (j / a.bands) 0
  let lo := a.firstCol + j % a.bands * a.bandCols
  let rows := (List.range lines).map fun i => ((readStitchedRow s (wrap32 (first + i)) f).drop lo).take a.bandCols
  if a.pretransform then transformRows 1 [] rows else packRows a.bandCols rows

/-- One stream of a strip begins on its compressor; on a fenced one its entry stays empty (R513). -/
def beginStream (a : ArchiveCfg) (strip first lines j : Nat) (s : State) : State :=
  let e := a.engines.getD j 0
  let s := setSub j (fun r => { r with cur := some { strip } }) s
  if isFenced s 0x0A e then finishStrip j false false s
  else
    let raw := archiveRaw s a j first lines
    beginBlock e (setCe e (fun u => { u with job := some { source := .archive j, key := strip, raw, ptCols := if a.pretransform then a.bandCols else 0,
                                                           ptPeriod := if a.pretransform then 1 else 0 } }) s)

def archiveBusy (s : State) : Bool :=
  (List.range 16).any fun e => match (ceAt s e).job with
    | some j => (match j.source with | .archive _ => true | .patch _ _ => false)
    | none => false

/-- A strip's archive streams begin once every row of its last web line is complete in the strip ring and the strip before it has
been compressed (R515). Under changed settings the archive ring is laid out anew first (R25). -/
def archiveStart (s : State) : State :=
  match archiveNext s with
  | none => s
  | some last =>
    let cfg := cfgAt s last
    let a := cfg.archive
    if !inSpans s last || !isStitched s last || archiveBusy s then s
    else if a.engines.any fun e => (ceAt s e).job.isSome && !isFenced s 0x0A e then s
    else
      let p := vget cfg.part 13
      let key := some (a, p.baseMib, p.sizeA)
      let s := if s.comp.layout = key then s
        else (archiveRings cfg).foldl (fun s r => benchEmpty r.base r.size s)
          { s with comp := { s.comp with rings := archiveRings cfg, layout := key, hostStrips := [] } }
      let strip := stripOf cfg.shift last
      let first := stripFirst cfg.shift strip
      let s := { s with comp := { s.comp with
        archiveStrip := some strip
        archiveLine := some last
        hostStrips := if a.hostStream then s.comp.hostStrips ++ [strip] else s.comp.hostStrips } }
      (List.range (archiveStreams a)).foldl (fun s j => beginStream a strip first (2 ^ cfg.shift) j s) s

/-! ### The host archive stream (R520, R605) -/

/-- The oldest strip not yet delivered whose entries are all written. -/
def hostStripReady (s : State) : Option Nat :=
  match s.comp.hostStrips with
  | [] => none
  | k :: _ => if s.comp.rings.any fun r => r.cur.any fun x => decide (x.strip = k) then none else some k

/-- The bytes of a ring of `size` bytes at `base`, from an offset on. -/
def ringRead (s : State) (base size off n : Nat) : Bytes :=
  let room := size - off
  benchRead s (base + off) (min n room) ++ (if room < n then benchRead s base (n - room) else [])

/-- One stream of a delivered strip: its entry and its frames, or its entry alone when it was freed or lacks a ticket. -/
def hostStreamBytes (s : State) (strip : Nat) (r : SubRing) : Bytes × Bool :=
  match r.strips.find? fun x => decide (x.strip = strip) with
  | some x =>
    if x.noTicket then (indexEntry r { x with frames := 0, len := 0, complete := false }, true)
    else (indexEntry r x ++ ringRead s (areaBase r) (areaSize r) x.off x.len, false)
  | none => (indexEntry r { strip }, true)

/-- A strip is taken by the host archive stream: its bytes, skips counted. -/
def takeHostStrip (strip : Nat) (s : State) : Bytes × State :=
  let parts := s.comp.rings.map (hostStreamBytes s strip)
  let skips := (parts.filter (·.2)).length
  let s := { s with comp := { s.comp with
    hostStrips := s.comp.hostStrips.filter fun k => decide (k ≠ strip)
    cnt := { s.comp.cnt with hostSkips := wrap32 (s.comp.cnt.hostSkips + skips) } } }
  (parts.flatMap (·.1), if skips = 0 then s else raiseOnce 0x2F1 0 0 s)

/-! ### A block is done (R502, R511 to R513, R519) -/

/-- Verification failed twice: the compressor is fenced, and its streams end (R512, R513). Patches that wait for it end alike
(DEDUCED, assumption 62). -/
def verifyFailed (e : Nat) (j : CeJob) (s : State) : State :=
  let waiting := s.scribe.jobs.filter fun p => decide (p.engine = e)
  let n := j.ticket.toList.length + waiting.length
  let s := setCe e (fun u => { u with job := none, cnt := { u.cnt with failed := wrap32 (u.cnt.failed + 1) } }) s
  let s := endTickets j.ticket.toList 9 s
  let s := match j.source with
    | .archive i => finishStrip i false true s
    | .patch _ _ => s
  let s := waiting.foldl (fun s p => failPatchJob p 9 s) s
  let f := fenceUnit { unit := 0x0A, index := e, cause := 1, tickets := n, detail := le 4 (jobStreamId s j) ++ le 4 j.key ++ le 4 j.blockSeq } s
  raise (0x2E0 + e) 0 0 f.2

/-- A compressor has finished a block, and the verifier has passed it. -/
def blockPassed (e : Nat) (j : CeJob) (s : State) : State :=
  let b := blockFrame s j
  let raw := min j.raw.length ((j.blockSeq + 1) * blockBytes) - j.blockSeq * blockBytes
  let s := setCe e (fun u => { u with cnt := { u.cnt with
    blocks := wrap32 (u.cnt.blocks + 1)
    stored := wrap32 (u.cnt.stored + (if b.2.2 then 1 else 0))
    rawBytes := u.cnt.rawBytes + raw
    packedBytes := u.cnt.packedBytes + (b.1.length - 32) } }) s
  let next := if b.2.1 then none else some { j with blockSeq := j.blockSeq + 1, frames := match j.source with
    | .patch _ _ => j.frames ++ b.1
    | .archive _ => [] }
  let s := setCe e (fun u => { u with job := next }) s
  match j.source with
  | .patch q seq =>
    if b.2.1 then
      match s.scribe.jobs.find? fun p => decide (p.queue = q) && decide (p.seq = seq) with
      | some p => storePatch p (j.frames ++ b.1) s
      | none => s
    else s
  | .archive i =>
    let s := endTickets j.ticket.toList 0 (placeFrame i b.1 raw j.ticket.isNone s)
    let s := if j.ticket.isSome then s
      else raiseOnce 0x2F2 0 0 { s with comp := { s.comp with cnt := { s.comp.cnt with noTicketBlocks := wrap32 (s.comp.cnt.noTicketBlocks + 1) } } }
    if b.2.1 then finishStrip i true false s else beginBlock e s

/-- A compressor finishes a block; its verifier's check fails `fails` times (R512). -/
def blockDone (e fails : Nat) (s : State) : State :=
  match (ceAt s e).job with
  | none => s
  | some j =>
    if isFenced s 0x0A e then s
    else if !hasVerifier s e then blockPassed e j s
    else
      let inj := takeInjection 4 e s
      let n := max fails inj.1
      let s := inj.2
      if 2 ≤ n then verifyFailed e j s
      else if n = 1 then
        blockPassed e j (raiseOnce 0x2F0 0 0 (countTransient 3
          (setCe e (fun u => { u with cnt := { u.cnt with transient := wrap32 (u.cnt.transient + 1) } }) s)))
      else blockPassed e j s

/-! ### Stream contexts (R524, R525) -/

def contextBytes : Nat := 1310720

def contextSlots (s : State) : Nat := let p := vget (cfgNow s).part 16; if p.enable then p.sizeA else 0

def contextOff (s : State) (slot : Nat) : Nat := (vget (cfgNow s).part 16).baseMib * mib + slot * contextBytes

/-- A decompressor's stream between two frames. History and rows are held newest first. -/
structure DecStream where
  id : Nat := 0
  key : Nat := 0
  next : Nat := 0
  hist : Bytes := []
  total : Nat := 0
  ptCols : Nat := 0
  ptPeriod : Nat := 0
  rows : List (List Nat) := []
  part : Bytes := []
  deriving DecidableEq, Repr, Inhabited

def contextHead (d : DecStream) : Bytes :=
  let h := le 4 d.id ++ le 4 d.key ++ le 4 d.next ++ le 4 (min 32768 d.hist.length) ++ le 8 d.total ++ le 4 d.ptCols ++ le 1 d.ptPeriod ++
    le 3 d.part.length ++ zeros 28
  h ++ le 4 (crc32c h)

/-- A saved context is intact (R525). -/
def contextValid (head : Bytes) : Bool := decide (crc32c (head.take 60) = u32 head 60)

/-- Write a context slot. Predictor rows stand oldest first, and bytes that hold nothing stay as they were (DESIGN CHOICE, assumption
63). -/
def saveContext (slot : Nat) (d : DecStream) (s : State) : State :=
  let o := contextOff s slot
  let s := benchWrite o (contextHead d) s
  let s := benchWrite (o + 64) (d.hist.take 32768).reverse s
  let s := benchWrite (o + 32832) (packRows d.ptCols d.rows.reverse) s
  benchWrite (o + 622656) d.part s

/-- The stream that a context slot holds; none when its check fails. -/
def loadContext (s : State) (slot : Nat) : Option DecStream :=
  let o := contextOff s slot
  let h := benchRead s o 64
  if !contextValid h then none
  else
    let cols := u32 h 24
    let period := u8 h 28 % 8
    let total := u64 h 16
    let row := transformBytes cols
    let held := if row = 0 then 0 else min period (total / row)
    let rows := (List.range held).map fun i => unpackBits 18 cols (leVal (benchRead s (o + 32832 + i * patchRowBytes cols) (patchRowBytes cols)))
    some { id := u32 h 0, key := u32 h 4, next := u32 h 8, hist := (benchRead s (o + 64) (u32 h 12)).reverse, total, ptCols := cols, ptPeriod := period,
           rows := rows.reverse, part := benchRead s (o + 622656) (u24 h 29) }

/-! ### DECOMPRESS (R522, R523) -/

/-- What a run of DECOMPRESS has found. -/
structure DecResult where
  result : Nat := 0
  frames : Nat := 0
  out : Bytes := []
  bad : Nat := 0
  lastSeq : Nat := 0
  final : Bool := false
  crcErrors : Nat := 0
  formatErrors : Nat := 0
  st : DecStream := {}
  deriving DecidableEq, Repr, Inhabited

/-- Whole transformed rows at the front of some bytes become rows of R507; `fuel` bounds their number. -/
def invertRows (cols period : Nat) : Nat → List (List Nat) → Bytes → Bytes → List (List Nat) × Bytes × Bytes
  | 0, rows, part, out => (rows, part, out)
  | fuel + 1, rows, part, out =>
    let n := transformBytes cols
    if n = 0 ∨ part.length < n then (rows, part, out)
    else
      let row := restoreRow cols (rows.getD (period - 1) []) (part.take n)
      invertRows cols period fuel ((row :: rows).take period) (part.drop n) (out ++ le (patchRowBytes cols) (packBits 18 row))

/-- One frame at the front of `src`: why it fails (1 CRC, 2 FORMAT, 4 SOURCE_ENDS), or its bytes. `st` is the stream so far, and
`cont` says that the frame must continue it. -/
def decodeFrame (src : Bytes) (st : Option DecStream) (must ended : Bool) : Except Nat (Bytes × DecStream) :=
  if src.length < 32 then .error 4
  else
    let seq := u32 src 12
    let cont := match st with
      | some d => decide (u32 src 4 = d.id) && decide (u32 src 8 = d.key) && decide (seq = d.next)
      | none => false
    if u16 src 0 ≠ 0x504B ∨ u8 src 2 ≠ 1 ∨ ended ∨ (must ∧ !cont) ∨ (!cont ∧ seq ≠ 0) then .error 2
    else if src.length < 32 + u32 src 20 then .error 4
    else
      let d := match cont, st with
        | true, some d => d
        | _, _ => ({ id := u32 src 4, key := u32 src 8 } : DecStream)
      match inflate d.hist (slice src 32 (u32 src 20)) with
      | none => .error 2
      | some r =>
        let n := r.out.length - d.hist.length
        if n ≠ u32 src 16 ∨ r.stored ≠ bitOf (u8 src 3) 0 ∨ r.final ≠ bitOf (u8 src 3) 1 then .error 2
        else
          let data := (r.out.take n).reverse
          if crc32c data ≠ u32 src 24 then .error 1
          else .ok (data, { d with next := seq + 1, hist := r.out.take 32768, total := d.total + n, ptCols := u24 src 28, ptPeriod := u8 src 31 % 8 })

/-- The frames of a source in order, up to the first that fails; `fuel` bounds their number. -/
def decodeFrames (run : DecRun) (room : Nat) : Nat → Nat → Option DecStream → DecResult → DecResult
  | 0, _, _, a => a
  | fuel + 1, off, st, a =>
    if run.data.length ≤ off then a
    else
      let src := run.data.drop off
      match decodeFrame src st (decide (0 < a.frames)) a.final with
      | .error e => { a with result := e, bad := off, crcErrors := if e = 1 then 1 else 0, formatErrors := if e = 2 then 1 else 0 }
      | .ok (data, d) =>
        let inv := run.invert && bitOf (u8 src 3) 2
        let x := if inv then invertRows d.ptCols d.ptPeriod (data.length + d.part.length) d.rows (d.part ++ data) [] else ([], [], data)
        if room < a.out.length + x.2.2.length then { a with result := 3, bad := off }
        else
          let d := if inv then { d with rows := x.1, part := x.2.1 } else { d with rows := [], part := [] }
          let n := 32 + u32 src 20
          decodeFrames run room fuel (off + (if run.padded then ceilDiv n 64 * 64 else n)) (some d)
            { a with frames := a.frames + 1, out := a.out ++ x.2.2, lastSeq := u32 src 12, final := bitOf (u8 src 3) 1, st := d }

/-- Table 11-9. -/
def decBody (r : DecResult) : Bytes :=
  le 1 r.result ++ zeros 3 ++ le 4 r.frames ++ le 8 r.out.length ++ le 4 r.bad ++ le 4 r.lastSeq ++ le 1 (if r.final then 1 else 0) ++ zeros 7

/-- The claims of a DECOMPRESS end. -/
def dropDecClaims (d : Nat) (s : State) : State :=
  { s with claims := s.claims.filter fun c => !(decide (c.opcode = 0x0A04) && decide (c.unit = d)) }

/-- DECOMPRESS ends: what the decoder found is written, and it is answered; two failed transfers end it ST_HOST_ERROR (R80). -/
def decompressDone (d fails : Nat) (s : State) : State :=
  match (vget s.comp.de d).run with
  | none => s
  | some run =>
    let s := dropDecClaims d (setDe d (fun u => { u with run := none }) s)
    if 2 ≤ fails then complete run.ticket stHostError (zeros 8) s
    else
      let s := if fails = 1 then countTransient 1 s else s
      let r := decodeFrames run run.dest.length (run.data.length / 32 + 1) 0 (match run.contextIn with | some k => loadContext s k | none => none) {}
      let s := setDe d (fun u => { u with cnt := {
        frames := wrap32 (u.cnt.frames + r.frames)
        crcErrors := wrap32 (u.cnt.crcErrors + r.crcErrors)
        formatErrors := wrap32 (u.cnt.formatErrors + r.formatErrors) } }) s
      let s := match run.contextOut with
        | some k => if r.frames = 0 then s else saveContext k r.st s
        | none => s
      complete run.ticket stOk (decBody r) (bulkFor run.ticket run.dest r.out s)

end Sys2Proof.Machine
end

