-- ==== Sys2Proof/Machine/ProfileOps.lean ====
section
/-! DEFINITION. The operations of the profile chain and the Veneer: zone filters and watches on a slot's lines (R463 to R474), the
background (R475 to R480), frames and their delivery (R482 to R493), and their parts of a glue-up. -/

namespace Sys2Proof.Machine

def setProf (i : Nat) (f : SlotProfile → SlotProfile) (s : State) : State := { s with prof := { s.prof with slots := vmod s.prof.slots i f } }
def setBg (i : Nat) (f : BgField → BgField) (s : State) : State := { s with prof := { s.prof with bg := vmod s.prof.bg i f } }

/-- Line triggering resumed after `last` and at or before `line` (R167). -/
def resumedBetween (s : State) (last : Option Nat) (line : Nat) : Bool :=
  match last with
  | none => false
  | some l => s.spans.any fun p => atOrAfter line p.1 && later32 p.1 l

/-! ### Zone filters (R463 to R474) -/

/-- Settings whose change restarts a slot's zone filters (R470). -/
def profileKey (c : Cfg) (slot : Nat) : ZoneCfg × GritCfg × Nat := (vget c.zone slot, vget c.grit slot, fieldsOf c)

def watchOf (c : Cfg) (slot key : Nat) : WatchCfg := sget c.watch (slot * 256 + key) {}

/-- The profile chain of a slot takes the pending configuration (R470, R474). -/
def profileTake (slot : Nat) (s : State) : State :=
  if unitTaken s (.profile slot) then s
  else
    match s.glue with
    | none => s
    | some g =>
      let s := if profileKey s.running slot ≠ profileKey g.next slot then setProf slot (fun x => { x with zones := [] }) s
        else
          let keep (z : ZoneState) : ZoneState :=
            if watchOf s.running slot z.key = watchOf g.next slot z.key then z else { z with watch := .normal, count := 0 }
          setProf slot (fun x => { x with zones := x.zones.map keep }) s
      markTaken (.profile slot) s

/-- The corrected line that the profile chain takes next for a slot. -/
def profileNext (s : State) (slot : Nat) : Option Nat :=
  ((vget s.plane.slots slot).out.find? fun e =>
    bitOf (vget (cfgAt s e.line).grit slot).fields e.field &&
      !((vget s.prof.slots slot).last.any fun l => decide (l.1 = e.field) && atOrAfter l.2 e.line)).map (·.line)

/-- A change of state of a watched zone: field, zone, new state. -/
abbrev ZoneChange := Nat × Nat × WatchState

/-- One zone of one field takes a line: its zone mean (R464, R465), its median and grit; whether an output was formed. -/
def zoneLine (cfg : Cfg) (slot : Nat) (e : CorrLine) (zone : Nat) (p : SlotProfile) : SlotProfile × Bool :=
  let z := vget cfg.zone slot
  let key := shimKey e.field zone
  let old := (p.zones.find? fun x => decide (x.key = key)).getD { key }
  let lo := z.bounds.getD zone 0
  let hi := min (min (z.bounds.getD (zone + 1) 0) e.samples.length) (lineTagReceived e.tag)
  let px := if e.gap then [] else (e.samples.take hi).drop lo
  let mean := if px = [] then old.last else some (meanQ18 px.sum px.length)
  match mean with
  | none => (p, false)
  | some m =>
    let r := zoneStep (vget cfg.grit slot) e.line m old
    let zones := if p.zones.any fun x => decide (x.key = key) then p.zones.map (fun x => if x.key = key then r.1 else x)
      else insertBy (fun a b => decide (a.key < b.key)) r.1 p.zones
    ({ p with zones, cnt := { p.cnt with
        heldInputs := wrap32 (p.cnt.heldInputs + (if px = [] then 1 else 0))
        outputs := wrap32 (p.cnt.outputs + (if r.2 then 1 else 0)) } }, r.2)

/-- The watches of one field at a block end line (R471, R472). -/
def watchField (cfg : Cfg) (slot field : Nat) (p : SlotProfile) : SlotProfile × List ZoneChange :=
  let mine := p.zones.filter fun z => decide (z.key / 64 = field) && z.grit.out.isSome
  let sum := (mine.map fun z => z.grit.out.getD 0).sum
  let a := if mine.length = 0 then 0 else (sum + mine.length / 2) / mine.length
  mine.foldl (fun (acc : SlotProfile × List ZoneChange) z =>
    let c := watchOf cfg slot z.key
    match watchValue c.mode (z.grit.out.getD 0) a with
    | none => acc
    | some q =>
      let r := watchStep c z.watch z.count q
      let zones := acc.1.zones.map fun x => if x.key = z.key then { x with watch := r.1, count := r.2 } else x
      let n := acc.1.cnt
      let cnt := if r.1 = z.watch then n else match r.1 with
        | .high => { n with highEntries := wrap32 (n.highEntries + 1) }
        | .low => { n with lowEntries := wrap32 (n.lowEntries + 1) }
        | .normal => { n with clears := wrap32 (n.clears + 1) }
      ({ acc.1 with zones, cnt }, if r.1 = z.watch then acc.2 else acc.2 ++ [(field, z.key % 64, r.1)])) (p, [])

/-- One field of a line through a slot's zones. -/
def profileField (cfg : Cfg) (slot : Nat) (e : CorrLine) (p : SlotProfile) : SlotProfile × List ZoneChange :=
  let r := (List.range (vget cfg.zone slot).zones).foldl (fun (a : SlotProfile × Bool) z =>
    let x := zoneLine cfg slot e z a.1
    (x.1, a.2 || x.2)) (p, false)
  let p := { r.1 with last := (r.1.last.filter fun l => decide (l.1 ≠ e.field)) ++ [(e.field, e.line)] }
  if r.2 then watchField cfg slot e.field { p with blockEnd := e.line } else (p, [])

/-- Each of a slot's three sources is raised once for the changes of one block end line, with FIELD and the lowest zone (R473). -/
def raiseWatch (slot : Nat) (changes : List ZoneChange) (s : State) : State :=
  [(WatchState.high, 0x240), (WatchState.low, 0x258), (WatchState.normal, 0x270)].foldl (fun s k =>
    match changes.find? fun c => decide (c.2.2 = k.1) with
    | some c => raise (k.2 + slot) c.1 c.2.1 s
    | none => s) s

/-- The profile chain takes the next corrected line of a slot (R464). -/
def profileStep (slot : Nat) (s : State) : State :=
  match profileNext s slot with
  | none => s
  | some n =>
    let s := if afterGlue s n then profileTake slot s else s
    let cfg := cfgAt s n
    let lastOf (p : SlotProfile) : Option Nat := p.last.foldl (fun m l => match m with | some x => some (max32 x l.2) | none => some l.2) none
    let p := vget s.prof.slots slot
    let p := if resumedBetween s (lastOf p) n then { p with zones := [] } else p
    let lines := (vget s.plane.slots slot).out.filter fun e => decide (e.line = n) && bitOf (vget cfg.grit slot).fields e.field
    let r := lines.foldl (fun (a : SlotProfile × List ZoneChange) e =>
      let x := profileField cfg slot e a.1
      (x.1, a.2 ++ x.2)) (p, [])
    let s := raiseWatch slot r.2 (setProf slot (fun _ => r.1) s)
    pruneOut slot (driftDue slot s)

/-! ### The background (R475 to R480) -/

/-- Settings whose change restarts the background (R480). -/
def bgKey (c : Cfg) : BgCfg × Option Nat × Nat := (c.bg, c.grid.map (·.columns), fieldsOf c)

def restartBackground (s : State) : State := { s with prof := { s.prof with bg := .replicate 4 {} } }

/-- The background takes the pending configuration (R480). -/
def bgTake (s : State) : State :=
  if unitTaken s .background then s
  else
    match s.glue with
    | none => s
    | some g => markTaken .background (if bgKey s.running ≠ bgKey g.next then restartBackground s else s)

/-- One field of a stitched line into its background filters (R476, R477). -/
def bgField (cfg : Cfg) (columns line field : Nat) (row : List Nat × List (Nat × Nat)) (s : State) : State :=
  let b := vget s.prof.bg field
  let stored : Array (Option Nat) := ((b.rows.getLast?).map fun r => r.entries.toArray).getD #[]
  let xs := row.1.toArray
  let old := b.entries.toArray
  let r := (List.range (bgCount columns)).foldl (fun (a : List BgEntry × Nat) e =>
    let samples := (List.range (min 16 (columns - 16 * e))).map fun i =>
      let c := 16 * e + i
      if spanHas row.2 c then none else some (xs.getD c 0)
    let x := bgEntryStep cfg.bg line (stored.getD e none) samples (old.getD e {})
    (a.1 ++ [x.1], a.2 + x.2)) ([], 0)
  let waiting := if bgCompletes cfg.bg line then bgRowOf line r.1 else b.waiting
  let s := setBg field (fun b => { b with entries := r.1, waiting, last := some line }) s
  { s with prof := { s.prof with bgClipped := wrap32 (s.prof.bgClipped + r.2) } }

/-- The background filters take the next stitched line. A line that restarts them waits until Marquetry is past every line before
it, so that no line of the old background loses its rows (R35). -/
def backgroundStep (s : State) : State :=
  match s.dovetail.formed with
  | [] => s
  | l :: rest =>
    let after := afterGlue s l.line && !unitTaken s .background
    let resumed := resumedBetween s ((List.range 4).findSome? fun f => (vget s.prof.bg f).last) l.line
    let pending := (List.range 4).any fun f => (vget s.prof.bg f).waiting.isSome
    if (after || resumed) && !marqPast s (wrap32 (l.line + 2 ^ 32 - 1)) then s
    else if pending && bgCompletes (cfgAt s l.line).bg l.line then s
    else
      let s := if after then bgTake s else s
      let s := if resumed then restartBackground s else s
      let cfg := cfgAt s l.line
      let columns := match cfg.grid with | some g => g.columns | none => 0
      let s := { s with dovetail := { s.dovetail with formed := rest } }
      (maskFields cfg.bg.fields).foldl (fun s f => match l.rows[f]? with
        | some row => bgField cfg columns l.line f row s
        | none => s) s

/-- A completed row is stored in the profile memory once it has room (R478, R480). -/
def storeRow (f : Nat) (s : State) : State :=
  let b := vget s.prof.bg f
  match b.waiting with
  | none => s
  | some r =>
    if !bgRoom s f then s
    else
      let s := setBg f (fun b => { b with rows := takeLast 68 (b.rows ++ [r]), waiting := none, fresh := false }) s
      let s := { s with prof := { s.prof with bgRows := wrap32 (s.prof.bgRows + 1) } }
      if b.fresh then raise (0x288 + f) 0 0 s else s

/-! ### Live views (R482 to R493) -/

/-- Settings whose change restarts a view stream (R483). -/
def viewKey (c : Cfg) (v : Nat) : ViewCfg × Nat × Nat × Option Nat := (vget c.view v, fieldsOf c, c.shift, c.grid.map (·.columns))

/-- A stream restarts at a glue-up that changes it: its frames end FAILED(WITHDRAWN), and its crop is the staged one (R485, R489). -/
def veneerTake (v : Nat) (s : State) : State :=
  if unitTaken s (.veneer v) then s
  else
    match s.glue with
    | none => s
    | some g =>
      let s := if viewKey s.running v = viewKey g.next v then s
        else
          let s := (dropFrames v 5 s).2
          setView v (fun x => { x with restart := true, crop := (vget g.next.view v).cropFirst }) s
      markTaken (.veneer v) s

def viewOn (v : Nat) (c : Cfg) : Bool := (vget c.view v).enable && c.grid.isSome

def viewNext (s : State) (v : Nat) : Option Nat := webNext s (vget s.views v).last (viewOn v)

/-- A frame's first web line enters the Veneer: its ticket is taken, or it is skipped for want of a ticket, or because a frame
formed before is still on its delivery path (R488). -/
def beginFrame (v line : Nat) (c : ViewCfg) (shift : Nat) (restart : Bool) (s : State) : State :=
  let x := vget s.views v
  let f : ViewFrame := { seq := x.seq, firstLine := line, strip := stripOf shift line, shift, lastLine := wrap32 (line + c.height * c.ys - 1),
                         restart, skipBefore := x.skipBefore, crops := [(line, x.crop)] }
  let skip (s : State) : State :=
    raiseOnceIn (stripOf shift line) (0x2C0 + v) 0 0 (setView v (fun x => { x with
      seq := wrap32 (x.seq + 1), restart := false, skipBefore := true, cur := some { f with skipped := true }
      cnt := { x.cnt with skipped := wrap32 (x.cnt.skipped + 1) } }) s)
  if x.sending.isSome then skip s
  else
    match issueTicket s with
    | none => skip (countNoTicket s)
    | some (w, s) => setView v (fun x => { x with seq := wrap32 (x.seq + 1), restart := false, skipBefore := false, cur := some { f with ticket := w } }) s

/-- Live trims of a stream's crop come into force with their line (R705). -/
def cropTrims (v line : Nat) (s : State) : State :=
  let r := takeTrims (fun t => match t with | .viewCrop i _ l => decide (i = v) && atOrAfter line l | _ => false) s
  r.1.foldl (fun s t => match t with
    | .viewCrop i crop _ => setView i (fun y => { y with crop }) s
    | _ => s) r.2

/-- A web line enters the Veneer for a stream (R483, R485, R488). A line that does not follow the last one restarts the stream. -/
def veneerStep (v : Nat) (s : State) : State :=
  match viewNext s v with
  | none => s
  | some n =>
    if !inSpans s n || !isStitched s n || isFenced s 0x08 v then s
    else
      let s := cropTrims v n (if afterGlue s n then veneerTake v s else s)
      let cfg := cfgAt s n
      let c := vget cfg.view v
      let x := vget s.views v
      let broken := (match x.last with | some l => decide (wrap32 (l + 1) ≠ n) | none => false) || resumedBetween s x.last n
      let s := match broken, x.cur with
        | true, some f =>
          let s := setView v (fun x => { x with cur := none, restart := true }) s
          if f.skipped then s else failFrame v f.ticket 5 s
        | true, none => setView v (fun x => { x with restart := true }) s
        | false, _ => s
      let s := setView v (fun x => { x with last := some n }) s
      let x := vget s.views v
      let s := if x.cur.isSome || isPassive s || (x.restart && !isStripFirst cfg.shift n) then s else beginFrame v n c cfg.shift x.restart s
      let x := vget s.views v
      match x.cur with
      | none => s
      | some f =>
        let f := if ((f.crops.getLast?).map Prod.snd) = some x.crop then f else { f with crops := f.crops ++ [(n, x.crop)] }
        if f.lastLine = n then setView v (fun x => { x with cur := none, waiting := if f.skipped then x.waiting else x.waiting ++ [f] }) s
        else setView v (fun x => { x with cur := some f }) s

/-- The Scribe has placed every DEFECT item of strips up to `strip` in the queues of a mask (R487). -/
def stripPlaced (s : State) (queues strip shift : Nat) : Bool :=
  let last := wrap32 (stripFirst shift strip + 2 ^ shift - 1)
  marqPast s last && !(s.scribe.inbox.any fun i => decide (i.kind = .defect) && bitOf queues i.queue && atOrAfter last i.lastLine)

/-- Boxes that no unfinished frame of an overlay can draw any more are dropped. -/
def pruneBoxes (s : State) : State :=
  let firsts := (List.range 8).filterMap fun v =>
    let x := vget s.views v
    if (vget (cfgNow s).view v).overlay && (vget (cfgNow s).view v).enable then
      match x.waiting.head?, x.cur, x.last with
      | some f, _, _ => some f.firstLine
      | none, some f, _ => some f.firstLine
      | none, none, some l => some (wrap32 (l + 1))
      | none, none, none => none
    else none
  { s with scribe := { s.scribe with boxes := s.scribe.boxes.filter fun b => firsts.any fun n => !later32 n b.lastLine } }

/-- The frame's samples, row by row, through the window LUT (R484). -/
def frameImage (s : State) (c : ViewCfg) (f : ViewFrame) : Bytes :=
  let w := c.cropCols / c.xs
  let cropAt (n : Nat) : Nat := ((f.crops.filter fun e => atOrAfter n e.1).getLast?.map Prod.snd).getD 0
  (List.range c.height).flatMap fun r =>
    viewRow c.xs c.ys w c.lut ((List.range c.ys).map fun j =>
      let n := wrap32 (f.firstLine + r * c.ys + j)
      (readStitchedRow s n c.field).drop (cropAt n))

/-- The oldest waiting frame is formed and handed to its delivery path (R484 to R490). An Ethernet frame whose port has no link ends
FAILED(LINK_DOWN). -/
def formFrame (v : Nat) (s : State) : State :=
  let x := vget s.views v
  match x.waiting with
  | [] => s
  | f :: rest =>
    let cfg := cfgAt s f.lastLine
    let c := vget cfg.view v
    let base := match cfg.grid with | some g => g.base | none => 0
    let last := stripOf cfg.shift f.lastLine + c.lag
    if x.sending.isSome || !isStitched s f.lastLine || (c.overlay && !stripPlaced s c.queues last cfg.shift) then s
    else
      let crop := (f.crops.head?.map Prod.snd).getD 0
      let boxes := if c.overlay then (s.scribe.boxes.filter fun b => bitOf c.queues b.queue && !later32 b.strip last).filterMap fun b =>
          viewBox c base crop f.firstLine b.severity b.minCol b.maxCol b.firstLine b.lastLine
        else []
      let tag := readStitchedTag s f.firstLine c.field
      let flags := (List.range (c.height * c.ys)).foldl (fun m i => m ||| stTagFlags (readStitchedTag s (wrap32 (f.firstLine + i)) c.field)) 0
      let header := viewHeader v c f base (stTagPos tag) (stTagStime tag) flags last boxes.length
      let image := frameImage s c f
      let overlay := if c.overlay then overlayPlane boxes (c.cropCols / c.xs) c.height else []
      let sent : SentFrame := { ticket := f.ticket, header, image, overlay, delivery := c.delivery, port := c.port,
                                datagrams := if c.delivery = 1 then viewDatagrams v c f header image overlay else [] }
      let s := pruneBoxes (setView v (fun x => { x with
        waiting := rest
        sending := some sent
        cnt := { x.cnt with formed := wrap32 (x.cnt.formed + 1), boxes := wrap32 (x.cnt.boxes + boxes.length) } }) s)
      if c.delivery = 1 && !(vget s.time.ports c.port).linkUp then failFrame v f.ticket 13 (setView v (fun x => { x with sending := none }) s)
      else s

/-- The last byte of a frame is handed to the Ethernet MAC: its datagrams have left, and its ticket ends COMPLETE (R489, R493). -/
def sendFrame (v : Nat) (s : State) : State :=
  match (vget s.views v).sending with
  | none => s
  | some f =>
    if f.delivery ≠ 1 then s
    else
      let s := f.datagrams.foldl (fun s d => out (.datagram d) s) s
      endTicket f.ticket 0 (setView v (fun x => { x with
        sending := none
        cnt := { x.cnt with delivered := wrap32 (x.cnt.delivered + 1), datagrams := wrap32 (x.cnt.datagrams + f.datagrams.length) } }) s)

/-- An Ethernet port loses link: frames on it end FAILED(LINK_DOWN), and the rest of each is not sent; how much had left is
free (R489). -/
def ethDownViews (port : Nat) (s : State) : State :=
  (List.range 8).foldl (fun s v =>
    match (vget s.views v).sending with
    | none => s
    | some f =>
      if f.delivery ≠ 1 ∨ f.port ≠ port then s
      else
        let r := freshValue s
        let gone := f.datagrams.take (r.1 % (f.datagrams.length + 1))
        let s := gone.foldl (fun s d => out (.datagram d) s) r.2
        failFrame v f.ticket 13 (setView v (fun x => { x with
          sending := none
          cnt := { x.cnt with datagrams := wrap32 (x.cnt.datagrams + gone.length) } }) s)) s

end Sys2Proof.Machine
end

