-- ==== Sys2Proof/Machine/DmaOps.lean ====
section
/-! DEFINITION. The operations of the DMA channels ("DMA channels", R595 to R616). -/

namespace Sys2Proof.Machine

/-! ### Configuration (R595, R596, Table 13-11) -/

def unitDma (s : State) (c : Nat) : DmaCfg := vget (cfgNow s).dma c

/-- The value of CFG or CFG_TIMER is in range. -/
def badDmaCfg (timer : Bool) (v : Nat) : Bool :=
  if timer then !(inRange 1000 4294967288 v && decide (v % 8 = 0)) else bitOf v 31 && !inRange 1 1024 (fieldOf v 0 11)

/-- CFG with its reserved bits read as 0. -/
def dmaCfgBits (v : Nat) : Nat := fieldOf v 31 1 * 2 ^ 31 + fieldOf v 24 5 * 2 ^ 24 + fieldOf v 20 2 * 2 ^ 20 + fieldOf v 0 11

def setDmaStaged (c : Nat) (timer : Bool) (v : Nat) (g : Cfg) : Cfg :=
  { g with dma := vmod g.dma c fun x => if timer then { x with timerNs := v } else { x with cfg := dmaCfgBits v } }

/-- CFG_STATUS and CFG_HOLDER report a refusal (R595). -/
def dmaRefuse (c result : Nat) (h : Holder) (s : State) : State :=
  setChan c (fun x => { x with cfgResult := result, cfgKind := h.kind, cfgIndex := h.index, cfgHolder := h.opcode * 65536 + h.unit * 256 + h.state }) s

/-- A write to CFG or CFG_TIMER is a staged edit (R595); a passive module refuses it (R703), an active one journals it (R704). -/
def dmaCfgWrite (c : Nat) (timer : Bool) (v : Nat) (s : State) : State :=
  let g := setDmaStaged c timer v s.staged
  if badDmaCfg timer v then dmaRefuse c 3 {} s
  else if isPassive s || s.glue.isSome || s.ring.prepared.isSome then dmaRefuse c 2 {} s
  else
    match conflictOf (claimsOf g s.marq.shadow.region) (runningClaims s) s.claims 0 c with
    | some h => dmaRefuse c 1 h s
    | none =>
      let s := dmaRefuse c 0 {} { s with staged := g, stageGen := wrap32 (s.stageGen + 1) }
      if isActive s then journal (.dmaCfg c timer v) s else s

/-! ### The shadow bank (R597, R600) -/

/-- A write that meets the lock is held and counted. -/
def holdLate (c : Nat) (h : DmaHeld) (s : State) : State :=
  setChan c (fun x => { x with held := x.held ++ [h], lateWrites := wrap32 (x.lateWrites + 1) }) s

def shadowWrite (c : Nat) (h : DmaHeld) (s : State) : State :=
  let s := settleLock c s
  if (vget s.dma.ch c).lockUntil.isSome then holdLate c h s else setChan c (fun x => applyHeld x h) s

/-- The write that a register and a value spell: DESC_BASE [63:5], DESC_COUNT, MODE [31:24] and [3:0]. -/
def shadowHeld (reg : ShadowReg) (v : Nat) : DmaHeld :=
  match reg with
  | .descBase => .base (v % 2 ^ 64 / 32 * 32)
  | .descCount => .count (wrap32 v)
  | .mode => .mode (fieldOf v 24 8 * 2 ^ 24 + fieldOf v 0 4)

/-- A hand-over begins: the shadow bank is captured, and the swap follows within 400 ns (R599). -/
def captureBank (c : Nat) (s : State) : State :=
  let r := freshValue s
  setChan c (fun x => { x with state := .run, lockUntil := some (s.now + r.1 % 401) }) r.2

/-- CTRL.DOORBELL (R601, R602). -/
def dmaDoorbell (c : Nat) (s : State) : State :=
  let s := settleLock c s
  let x := vget s.dma.ch c
  if x.fencedBit then s
  else
    match x.state with
    | .idle =>
      if x.lockUntil.isSome then s
      else if x.armed then captureBank c s
      else if x.active.count = 0 then s
      else beginSet c (setChan c (fun x => { x with done := 0 }) s)
    | .wait => startSignal c s
    | .run => if modeStart x.active.mode = 0 then s else startSignal c s
    | .stopped => fetchDesc c (setChan c (fun x => { x with noTicket := false }) s)
    | _ => s

/-! ### The end of a descriptor (R612, R613, R615) -/

/-- The ledger code of a status (Table 13-16). -/
def dCode : DStatus → Nat
  | .ok => 0 | .badDesc => 10 | .hostError => 11 | .benchFrozen => 2 | .aborted => 12

/-- Address of the descriptor that a channel runs: the one after those done. -/
def descAddr (x : DmaChan) : Nat := x.active.base + 32 * x.done

/-- The view frame that a descriptor carries ends with it (R615). -/
def endCarried (run : DmaRun) (status : DStatus) (code : Nat) (s : State) : State :=
  match run.frame with
  | none => s
  | some w =>
    let v := run.desc.srcUnit
    let s := setView v (fun x => { x with sending := none }) s
    if status = .ok then setView v (fun x => { x with cnt := { x.cnt with delivered := wrap32 (x.cnt.delivered + 1) } }) (endTicket w 0 s)
    else failFrame v w code s

/-- The present descriptor of a channel ends with a status and a ledger code; DONE counts it unless it was aborted. The channel's
state is left to the caller. -/
def endDesc (c : Nat) (status : DStatus) (code : Nat) (run : DmaRun) (s : State) : State :=
  let x := vget s.dma.ch c
  let addr := descAddr x
  let s := run.slots.foldl (fun s k => dropRt 0x0F k 0 c s) s
  let s := setChan c (fun x => { x with
    run := none
    fetching := false
    ticketWait := none
    done := if status = .aborted then x.done else x.done + 1
    lastTicket := run.ticket
    lastStatus := dStatusCode status
    descFailed := wrap32 (x.descFailed + (if status = .ok then 0 else 1)) }) s
  let s := if bitOf run.desc.flags 3 then out (.hostWrite (addr + 24) (le 4 run.written ++ le 2 (dStatusCode status) ++ le 1 1 ++ zeros 1) false) s else s
  endCarried run status code (endTicket run.ticket code s)

/-- ARG1 of EV 0x300 + c (R613). -/
def dmaArg1 (x : DmaChan) : Int := ((x.lastStatus + 65536 * (x.done % 65536) : Nat) : Int)

/-- The end of a descriptor is signalled, and the channel goes on (R598, R602, R613, Table 13-17). -/
def afterDesc (c : Nat) (event : Bool) (s : State) : State :=
  let x := vget s.dma.ch c
  let ends := decide (x.active.count ≤ x.done)
  let s := if event || ends then raise (0x300 + c) x.lastTicket (dmaArg1 x) s else s
  if ends then
    let s := chainSignal c (setChan c (fun x => { x with eoc := true }) s)
    if x.armed then captureBank c s else setChan c (fun x => { x with state := .idle }) s
  else if modeStart x.active.mode = 0 ∨ modeStart x.active.mode = 2 then fetchDesc c s
  else setChan c (fun x => { x with state := .wait }) s

/-- The descriptor completes (R613). -/
def completeDesc (c : Nat) (status : DStatus) (run : DmaRun) (s : State) : State :=
  afterDesc c (bitOf run.desc.flags 0) (endDesc c status (dCode status) run s)

/-- ABORT ends the present descriptor (R612); `code` is the cause of its ticket, `frameCode` that of a view frame it carries. -/
def abortChan (c code frameCode : Nat) (s : State) : State :=
  let s := settleLock c s
  let x := vget s.dma.ch c
  if x.state = .off then s
  else
    let s := match x.run with
      | some run =>
        let s := endDesc c .aborted code { run with frame := none } s
        let s := endCarried run .aborted frameCode s
        if bitOf run.desc.flags 0 then raise (0x300 + c) run.ticket (dmaArg1 (vget s.dma.ch c)) s else s
      | none => s
    setChan c (fun x => { x with state := .idle, fetching := false, ticketWait := none, passiveHold := false }) s

/-- RESET: as ABORT, and STATUS, DONE and the fence are cleared (R612). -/
def resetChan (c code frameCode : Nat) (s : State) : State :=
  let s := abortChan c code frameCode s
  if (vget s.dma.ch c).state = .off then s
  else
    clearFence 0x11 c (setChan c (fun x => { x with
      armed := false
      late := false
      eoc := false
      noTicket := false
      fencedBit := false
      lastStatus := 0
      done := 0 }) s)

/-- A host error at both attempts fences the channel (R610). -/
def fenceChan (c : Nat) (s : State) : State :=
  let x := vget s.dma.ch c
  let addr := descAddr x
  let s := match x.run with
    | some run => endDesc c .hostError 11 run s
    | none => setChan c (fun x => { x with fetching := false, lastStatus := 2 }) s
  let s := setChan c (fun x => { x with state := .fenced, fencedBit := true }) s
  let f := fenceUnit { unit := 0x11, index := c, cause := 2, tickets := x.run.toList.length, detail := le 8 addr } s
  raise (0x300 + c) (vget s.dma.ch c).lastTicket (dmaArg1 (vget s.dma.ch c)) f.2

/-- A transfer of a channel with host memory fails so often: 1 is retried and counted, 2 fences. -/
def hostTransfer (c fails : Nat) (s : State) (go : State → State) : State :=
  if fails = 0 then go s
  else if fails = 1 then go (countTransient 6 (setChan c (fun x => { x with retries := wrap32 (x.retries + 1) }) s))
  else fenceChan c s

/-! ### Starting a descriptor (R604 to R607) -/

/-- Bytes of a frame of a stream in host memory (R490). -/
def frameSize (v : ViewCfg) : Nat :=
  let w := v.cropCols / v.xs * v.height
  let pad (n : Nat) : Nat := ceilDiv n 64 * 64
  64 + pad w + (if v.overlay then pad (ceilDiv w 4) else 0)

/-- A Bench range lies in the Bench and outside the firmware working space. -/
def benchRangeOk (off n : Nat) : Bool :=
  decide (off + n ≤ benchSize) && !(decide (off < 0x600000000) && decide (0x5F8000000 < off + n)) && !decide (0xBF8000000 < off + n)

/-- The context slots that a Bench range lies in; none where it leaves them (R607). -/
def slotsOfRange (s : State) (off n : Nat) : Option (List Nat) :=
  let base := contextOff s 0
  if contextSlots s = 0 ∨ off < base ∨ base + contextSlots s * contextBytes < off + n ∨ n = 0 then none
  else some ((List.range ((off + n - 1 - base) / contextBytes - (off - base) / contextBytes + 1)).map ((off - base) / contextBytes + ·))

def flushDesc (d : Desc) : Bool := bitOf d.flags 1

/-- The source unit is enabled in force as the descriptor needs it. -/
def sourceOk (s : State) (d : Desc) : Bool :=
  let cfg := cfgNow s
  match d.srcKind with
  | 0 => true
  | 1 => true
  | 2 => decide (d.srcUnit < 16) && (vget s.scribe.queues d.srcUnit).on && decide (d.length % 64 = 0)
  | 3 => decide (d.srcUnit < 8) && (vget cfg.view d.srcUnit).enable && decide ((vget cfg.view d.srcUnit).delivery = 2) &&
      decide (frameSize (vget cfg.view d.srcUnit) ≤ d.length)
  | 4 => cfg.archive.enable && cfg.archive.hostStream
  | _ => false

/-- The checks of R606. -/
def descOk (s : State) (d : Desc) : Bool :=
  if flushDesc d then decide (d.length = 0) && decide (d.dstKind = 0)
  else
    decide (d.length ≠ 0) && decide (d.length % 4 = 0) && decide (d.dstKind ≤ 1) && !(decide (d.srcKind = 0) && decide (d.src % 4 ≠ 0)) &&
    !(decide (d.dstKind = 0) && decide (d.dst % 4 ≠ 0)) && sourceOk s d && (decide (d.srcKind ≠ 1) || benchRangeOk d.src d.length) &&
    !(decide (2 ≤ d.srcKind) && decide (d.dstKind = 1)) &&
    (decide (d.dstKind = 0) || (benchRangeOk d.dst d.length && (match slotsOfRange s d.dst d.length with
      | some l => l.all fun k => (rtHolder s 0x0F k).isNone
      | none => false)))

def stackFrozen (s : State) (c : Nat) : Bool := decide ((vget s.bench.ctl c).state = .frozen)

/-- The Bench range of a descriptor touches a frozen stack (R615). -/
def descFrozen (s : State) (d : Desc) : Bool :=
  let hit (off : Nat) : Bool := stackFrozen s (stackOf off) || stackFrozen s (stackOf (off + d.length - 1))
  !flushDesc d && ((decide (d.srcKind = 1) && hit d.src) || (decide (d.dstKind = 1) && hit d.dst))

/-- Whole records are taken from a queue, at most `n`, the head refilling from the body (R438, R439, R605). -/
def takeRecords (q : Nat) : Nat → State → Bytes × State
  | 0, s => ([], s)
  | n + 1, s =>
    let body := stackFrozen s (stackOf (vget s.scribe.queues q).base)
    let s := if body then s else refillHead q s
    if (vget s.scribe.queues q).head = 0 ∨ relayedAway s q then ([], s)
    else
      let r := takeRecord q s
      let rest := takeRecords q n r.2
      (r.1 ++ rest.1, rest.2)

/-- A descriptor whose ticket is taken starts. -/
def startDesc (c : Nat) (d : Desc) (ticket : Nat) (s : State) : State :=
  let run : DmaRun := { desc := d, ticket, down := decide (d.srcKind = d.dstKind) && decide (d.src < d.dst) }
  let s := setChan c (fun x => { x with fetching := false, ticketWait := none, state := .run }) s
  if !descOk s d then completeDesc c .badDesc run s
  else if descFrozen s d then completeDesc c .benchFrozen run s
  else if flushDesc d then setChan c (fun x => { x with run := some run }) s
  else
    let slots := if d.dstKind = 1 then (slotsOfRange s d.dst d.length).getD [] else []
    let s := slots.foldl (fun s k => holdRt 0x0F k 0 c s) s
    let run := { run with slots, total := d.length }
    match d.srcKind with
    | 2 =>
      let r := takeRecords d.srcUnit (min (d.length / 64) (unread (vget s.scribe.queues d.srcUnit))) s
      let run := { run with total := r.1.length, payload := some r.1 }
      if r.1 = [] then completeDesc c .ok run r.2 else setChan c (fun x => { x with run := some run }) r.2
    | 3 | 4 =>
      let s := { s with dma := { s.dma with requests := s.dma.requests + 1 } }
      setChan c (fun x => { x with run := some { run with waiting := true, req := s.dma.requests, total := 0 } }) s
    | _ => setChan c (fun x => { x with run := some run }) s

/-- The fetched descriptor takes its ticket, or waits for one (R604). On a passive module a descriptor with a queue, view or archive
source does not start, and its channel stays in WAIT (R698). -/
def takeDescTicket (c : Nat) (d : Desc) (s : State) : State :=
  if isPassive s && decide (2 ≤ d.srcKind) && !flushDesc d then setChan c (fun x => { x with state := .wait, fetching := false, ticketWait := none, passiveHold := true }) s
  else
    match issueTicket s with
    | some (w, s) => startDesc c d w s
    | none =>
      if (vget s.dma.ch c).ticketWait.isSome then s
      else countNoTicket (setChan c (fun x => { x with fetching := false, ticketWait := some (d, s.now) }) s)

/-- A descriptor fetch returns (R604, R610). -/
def descFetched (c : Nat) (desc : Bytes) (fails : Nat) (s : State) : State :=
  let s := settleLocks s
  let x := vget s.dma.ch c
  if !x.fetching then
    match x.ticketWait with
    | some (d, _) => takeDescTicket c d s
    | none => s
  else
    let inj := takeInjection 5 c s
    hostTransfer c (max fails inj.1) inj.2 fun s => takeDescTicket c (parDesc (padTo 32 desc)) s

/-- A ticket has become free for a waiting descriptor, or none has within 1 ms: NO_TICKET and STOPPED (R604). -/
def descTicketTimeout (c : Nat) (s : State) : State :=
  match (vget s.dma.ch c).ticketWait with
  | none => s
  | some (d, t) =>
    match issueTicket s with
    | some _ => takeDescTicket c d s
    | none => if s.now < t + 1000000 then s
      else setChan c (fun x => { x with state := .stopped, noTicket := true, ticketWait := none }) s

/-! ### Bursts (R608, R611) -/

/-- The next burst of a range of `n` bytes of which `got` are read: its place and length. It holds at most 4 KiB and crosses no 4 KiB
boundary of a host address. -/
def nextBurst (d : Desc) (down : Bool) (n got : Nat) : Nat × Nat :=
  let hosts := (if d.srcKind = 0 then [d.src] else []) ++ (if d.dstKind = 0 then [d.dst] else [])
  if down then
    let stop := n - got
    let len := hosts.foldl (fun l a => min l ((a + stop - 1) % 4096 + 1)) (min 4096 stop)
    (stop - len, len)
  else (got, hosts.foldl (fun l a => min l (4096 - (a + got) % 4096)) (min 4096 (n - got)))

/-- Channels that wait for the same source before this one. -/
def firstWaiter (s : State) (c : Nat) (run : DmaRun) : Bool :=
  (List.range 64).all fun k => match (vget s.dma.ch k).run with
    | some r => decide (k = c) || !r.waiting || decide (r.desc.srcKind ≠ run.desc.srcKind) ||
        (decide (run.desc.srcKind = 3) && decide (r.desc.srcUnit ≠ run.desc.srcUnit)) || decide (run.req < r.req)
    | none => true

/-- The strips that a descriptor of LENGTH `n` takes from the archive host stream: at least one, and as many whole strips as fit
(R605). -/
def takeStrips (n : Nat) : Nat → Bytes → State → Bytes × State
  | 0, got, s => (got, s)
  | fuel + 1, got, s =>
    match hostStripReady s with
    | none => (got, s)
    | some k =>
      let r := takeHostStrip k s
      if got ≠ [] ∧ n < got.length + r.1.length then (got, s) else takeStrips n fuel (got ++ r.1) r.2

/-- A waiting descriptor takes the frame or the strips it waits for, once they are there. -/
def feedWaiting (c : Nat) (s : State) : State :=
  match (vget s.dma.ch c).run with
  | none => s
  | some run =>
    if !run.waiting || !firstWaiter s c run then s
    else if run.desc.srcKind = 3 then
      match (vget s.views run.desc.srcUnit).sending with
      | some f =>
        if f.delivery ≠ 2 ∨ (List.range 64).any (fun k => (vget s.dma.ch k).run.any fun r => decide (r.frame = some f.ticket)) then s
        else
          let b := frameBytes f
          setChan c (fun x => { x with run := some { run with waiting := false, payload := some b, total := b.length, frame := some f.ticket } }) s
      | none => s
    else
      let r := takeStrips run.desc.length s.comp.hostStrips.length [] s
      if r.1 = [] then s else setChan c (fun x => { x with run := some { run with waiting := false, payload := some r.1, total := r.1.length } }) r.2

/-- A burst is read into a staging page of its channel (R610, R611). -/
def burstRead (c : Nat) (data : Bytes) (fails : Nat) (s : State) : State :=
  let s := feedWaiting c (settleLocks s)
  let x := vget s.dma.ch c
  match x.run with
  | none => s
  | some run =>
    if run.waiting || flushDesc run.desc || decide (run.total ≤ run.read) || decide (dmaPages (unitDma s c) ≤ run.pages.length) then s
    else
      let b := nextBurst run.desc run.down run.total run.read
      let fill (bytes : Bytes) (s : State) : State :=
        let page : Burst := { off := b.1, data := bytes }
        let s := { s with dma := { s.dma with lastRead := c } }
        setChan c (fun x => { x with run := some { run with read := run.read + b.2, pages := run.pages ++ [page] } }) s
      match run.desc.srcKind, run.payload with
      | 0, _ =>
        let inj := takeInjection 5 c s
        hostTransfer c (max fails inj.1) inj.2 (fill (padTo b.2 data))
      | _, some p => fill ((p.drop b.1).take b.2) s
      | _, none => fill (benchRead s (run.desc.src + b.1) b.2) s

/-- The channels with a filled page, in the order in which the write engine takes them (R611). -/
def writePick (s : State) : Option Nat :=
  let ready := ((List.range 64).map fun i => (s.dma.lastWrite + 1 + i) % 64).filter fun c =>
    match (vget s.dma.ch c).run with | some r => !r.pages.isEmpty | none => false
  minBy (fun a b => decide (dmaPriority (unitDma s a) < dmaPriority (unitDma s b))) ready

/-- The write engine drains the next filled page (R610, R611, R614). -/
def burstWrite (fails : Nat) (s : State) : State :=
  match writePick s with
  | none => s
  | some c =>
    match (vget s.dma.ch c).run with
    | none => s
    | some run =>
      match run.pages with
      | [] => s
      | b :: rest =>
        let go (s : State) : State :=
          let s := { s with dma := { s.dma with lastWrite := c } }
          let s := setChan c (fun x => { x with
            bytes := (x.bytes + b.data.length) % 2 ^ 64
            run := some { run with pages := rest, written := run.written + b.data.length } }) s
          if run.desc.dstKind = 1 then benchWrite (run.desc.dst + b.off) b.data s
          else out (.hostWrite (run.desc.dst + b.off) b.data (bitOf run.desc.flags 2)) s
        if run.desc.dstKind = 1 then go s else hostTransfer c fails s go

/-- The last write of a descriptor has left: it completes (R613). -/
def descComplete (c : Nat) (s : State) : State :=
  let s := settleLocks s
  match (vget s.dma.ch c).run with
  | none => s
  | some run =>
    if run.waiting || flushDesc run.desc || decide (run.written < run.total) then s else completeDesc c .ok run s

/-- The zero-length read of a FLUSH descriptor returns (R609). -/
def flushDone (c fails : Nat) (s : State) : State :=
  let s := settleLocks s
  match (vget s.dma.ch c).run with
  | none => s
  | some run => if flushDesc run.desc then hostTransfer c fails s (fun s => completeDesc c .ok run s) else s

/-! ### Glue-up, freeze, resets -/

/-- A channel whose CFG or CFG_TIMER changes at a glue-up (R596). -/
def dmaTakeOne (old new : Cfg) (c : Nat) (s : State) : State :=
  if vget old.dma c = vget new.dma c then s
  else
    let s := abortChan c 5 5 s
    setChan c (fun x => { x with state := if dmaEnable (vget new.dma c) then .idle else .off }) s

def dmaTake (old new : Cfg) (s : State) : State :=
  if old.dma = new.dma then s else (List.range 64).foldl (fun s c => dmaTakeOne old new c s) s

/-- Descriptors whose Bench range lies in a stack that has frozen end BENCH_FROZEN (R615): how many, and the state. A descriptor that
takes the archive host stream ends so when the archive ring lies there. -/
def dmaFreeze (archive : Bool) (s : State) : Nat × State :=
  (List.range 64).foldl (fun a c =>
    match (vget a.2.dma.ch c).run with
    | none => a
    | some run => if descFrozen a.2 run.desc || (archive && decide (run.desc.srcKind = 4) && !flushDesc run.desc) then (a.1 + 1, completeDesc c .benchFrozen run a.2) else a) (0, s)

/-- Every channel in force is aborted, and its banks return to their reset values (R763). -/
def dmaPerst (s : State) : State :=
  (List.range 64).foldl (fun s c =>
    let s := abortChan c 12 15 s
    setChan c (fun x => { x with
      state := if dmaEnable (unitDma s c) then .idle else .off
      active := {}
      shadow := {}
      armed := false
      lockUntil := none
      held := [] }) s) s

/-- The function enters D3hot: channels in WAIT and RUN are aborted (Table 13-17). -/
def dmaD3hot (s : State) : State :=
  (List.range 64).foldl (fun s c =>
    let x := vget s.dma.ch c
    if x.state = .wait ∨ x.state = .run then abortChan c 12 12 s else s) (settleLocks s)

end Sys2Proof.Machine
end

