-- ==== Sys2Proof/Machine/Flags.lean ====
section
/-! DEFINITION. The flag words that commands and registers report. -/

namespace Sys2Proof.Machine

/-! ### The Gauge -/

/-- POSQ of an encoder: ENC_FAULT, the 4,096 counts after an illegal transition, or the reserve in use for WebPos (R137, R139,
R144). -/
def encPosq (s : State) (e : Nat) : Bool :=
  let x := vget s.gauge.enc e
  x.encFault || (match x.illegalAt.head? with | some n => decide (x.counts < n + 4096) | none => false) ||
    (s.gauge.reserveActive && decide (webEnc s = some e))

/-- GFLAGS (Table 3-8). -/
def gaugeFlags (s : State) (e : Nat) : Nat :=
  let x := vget s.gauge.enc e
  flagBit (decide (x.dir = some false)) 0 + flagBit x.still 1 + flagBit (encPosq s e) 2 + flagBit x.encFault 3 +
  flagBit s.gauge.reserveActive 4 + flagBit s.gauge.trigEnabled 5 + flagBit s.gauge.trigHalted 6

/-- A tag with this target carries POSQ (R137, R139, R144). -/
def tagPosq (s : State) (tpos : Int) : Bool :=
  let near := match s.gauge.webIllegalAt with
    | some _ => decide (s.gauge.webIllegalPos < tpos) && decide (tpos ≤ s.gauge.webIllegalPos + 4096 * 65536)
    | none => false
  let fault := match encOfRole (cfgNow s) 1 with
    | some e => (vget s.gauge.enc e).encFault
    | none => false
  s.gauge.reserveActive || fault || near

/-- SPEED of an encoder (R148 to R150). -/
def encSpeed (s : State) (e : Nat) : Int :=
  let x := vget s.gauge.enc e
  if x.still then 0
  else reportedSpeed (speedOf x.times (vget (cfgNow s).enc e).speedAvg (decide (x.dir = some true))) (s.now - x.times.headD s.now)

/-! ### The Holdfast -/

/-- HF_STATUS (Table 13-19). -/
def hfStatus (s : State) : Nat :=
  let stopped := s.axes.ax.toList.any fun x => decide (x.state = .safeStopped)
  fabricCode s.hf.fabric * 2 ^ 24 + s.boot.stage * 2 ^ 16 + roleCode s.pair.role * 2 ^ 8 + flagBit s.hf.srForced 3 +
    flagBit s.gauge.trigHalted 2 + flagBit s.pair.signalling 1 + flagBit stopped 0

/-- HF_OP_STATUS (Table 13-18). -/
def hfOpStatus (s : State) : Nat := s.hf.lastOp % 256 * 2 ^ 24 + s.hf.opResult * 2 ^ 16 + s.hf.opsTaken % 2 ^ 16

/-! ### The host interface -/

/-- CMDn_STATUS (Table 13-6). -/
def ringStatus (p : RingPair) : Nat := flagBit p.cfgErr 0 + flagBit p.ringErr 1 + flagBit p.enabled 2

/-- EVR_STATUS (Table 13-7). -/
def evrStatus (e : EventBlock) : Nat := flagBit e.overflow 0 + flagBit (decide (e.size ≠ 0)) 1

/-- QSTATE (Table 9-4). -/
def queueState (x : Queue) : Nat :=
  if !x.on then 0 else if x.cap ≤ unreleased x then 3 else if x.wr = x.rd then 1 else 2

/-- QSTAT (Table 13-9). -/
def qstat (x : Queue) : Nat := queueState x + flagBit x.markValid 4 + flagBit x.markLost 5 + 256 * x.head

/-- STATUS of a DMA channel (Table 13-14). -/
def dmaStatus (x : DmaChan) : Nat :=
  flagBit x.eoc 0 + flagBit x.late 1 + flagBit x.armed 2 + flagBit x.fencedBit 3 + flagBit x.noTicket 4 + 2 ^ 16 * x.lastStatus +
    2 ^ 24 * dmaStateCode x.state

/-! ### Time -/

/-- TFLAGS (Table 15-5). -/
def timeFlags (s : State) : Nat := flagBit s.time.locked 0 + flagBit (decide (s.time.clock.slew ≠ 0)) 1 + flagBit s.time.holdover 2

end Sys2Proof.Machine
end

