-- ==== Sys2Proof/Machine/HostOps.lean ====
section
/-! DEFINITION. The operations of the host interface: command ring registers (R61 to R71, R586), the event block (R590 to R594), BAR4
(R587, R588), and the PCI Express function (R578, R747, R763). -/

namespace Sys2Proof.Machine

/-- BAR0 answers: the fabric runs (R583, R748). -/
def bar0Up (s : State) : Bool := decide (s.hf.fabric = .running)

def countWedged (s : State) : State := { s with hf := { s.hf with bar0Wedged := wrap32 (s.hf.bar0Wedged + 1) } }

/-- A BAR0 write: discarded and counted while the fabric does not run (R583). -/
def bar0Write (f : State → State) (s : State) : State := if bar0Up s then f s else countWedged s

/-! ### Command rings (R62, R66, R71, R586) -/

def ringSizeOk (v : Nat) : Bool := decide (v = 0) || (isPow2 v && inRange 64 65536 v)

def cfgErr (n : Nat) (s : State) : State := setRing n (fun p => { p with cfgErr := true }) s

/-- A write to CMDn_SIZE (R62, R586). -/
def cmdSizeWrite (n v : Nat) (s : State) : State :=
  let p := vget s.host.rings n
  if !ringSizeOk v then cfgErr n s
  else if p.enabled then
    if v = 0 then setRing n (fun p => { p with enabled := false, cmdSize := 0, stopped := false, ticketWait := none }) s else cfgErr n s
  else if v = 0 then s
  else if p.rplSize = 0 then cfgErr n s
  else
    flushRing n (setRing n (fun p => { p with
      enabled := true
      stopped := false
      cmdSize := v
      cmdProd := 0
      cmdCons := 0
      rplProd := 0
      rplCons := 0
      unread := 0
      phase := true
      ticketWait := none }) s)

/-- A ring stops (R66, R67). -/
def stopRing (n : Nat) (s : State) : State := raise (0x014 + n) 0 0 (setRing n (fun p => { p with stopped := true, ringErr := true }) s)

/-- A write to CMDn_PROD, the doorbell (R63, R66). -/
def cmdProdWrite (n v : Nat) (s : State) : State :=
  let p := vget s.host.rings n
  if !p.enabled then s else if p.cmdSize ≤ v then stopRing n s else setRing n (fun p => { p with cmdProd := v }) s

/-- A write to RPLn_CONS (R71, R586). -/
def rplConsWrite (n v : Nat) (s : State) : State :=
  let p := vget s.host.rings n
  if p.rplSize ≤ v then cfgErr n s
  else flushRing n (setRing n (fun p => { p with rplCons := v, unread := (p.rplProd + p.rplSize - v) % p.rplSize }) s)

/-- A write to RPLn_SIZE, CMDn_BASE or RPLn_BASE: only while the pair is disabled (R62, R586). -/
def ringSetWrite (n : Nat) (okValue : Bool) (f : RingPair → RingPair) (s : State) : State :=
  if (vget s.host.rings n).enabled || !okValue then cfgErr n s else setRing n f s

/-! ### The event block (R592 to R594) -/

def setEvt (f : EventBlock → EventBlock) (s : State) : State := { s with host := { s.host with evt := f s.host.evt } }

/-- Some source of a vector is pending and not masked. -/
def vectorPending (e : EventBlock) (v : Nat) : Bool :=
  (List.range 1024).any fun src => bitOf e.pending src && !bitOf e.mask src && decide (vectorOf e src = v)

/-- A write to VEC_ACK (R593). -/
def vecAck (v : Nat) (s : State) : State :=
  let s := setEvt (fun e => { e with armed := setBit e.armed v true }) s
  if vectorPending s.host.evt v then signalVector v s else s

/-- A write of ones to a word of PENDING. -/
def pendingClear (word v : Nat) (s : State) : State :=
  setEvt (fun e => { e with pending := (List.range 32).foldl (fun p i => if bitOf v i then setBit p (32 * word + i) false else p) e.pending }) s

/-- A write to a word of MASK: a source that becomes unmasked while pending is treated as raised at that moment (R594). Its event record
carries no arguments (DEDUCED, assumption 65). -/
def maskWrite (word v : Nat) (s : State) : State :=
  (List.range 32).foldl (fun s i =>
    let src := 32 * word + i
    let was := bitOf s.host.evt.mask src
    let s := setEvt (fun e => { e with mask := setBit e.mask src (bitOf v i) }) s
    if was && !bitOf v i && bitOf s.host.evt.pending src then deliverEvent src 0 0 (shortTime s) s else s) s

/-- A write of `n` bytes of VECTOR from source `src` on. -/
def vectorWrite (src n v : Nat) (s : State) : State :=
  setEvt (fun e => { e with vectors := (List.range n).foldl (fun l i => sset l (src + i) (v / 256 ^ i % 64) ((src + i) / 16)) e.vectors }) s

/-- EVR_SIZE: 0, or a power of two from 256 to 65,536; other values leave it. A change starts the ring at its first record (DESIGN
CHOICE, assumption 65). -/
def evrSizeWrite (v : Nat) (s : State) : State :=
  if v = s.host.evt.size then s
  else if v = 0 ∨ (isPow2 v && inRange 256 65536 v) then setEvt (fun e => { e with size := v, prod := 0, cons := 0, phase := true }) s
  else s

/-! ### MSI-X (R594) -/

def setPcie (f : Pcie → Pcie) (s : State) : State := { s with host := { s.host with pcie := f s.host.pcie } }

/-- Held messages that no mask holds any more are sent. -/
def sendHeld (s : State) : State :=
  (List.range 64).foldl (fun s v =>
    if bitOf s.host.pcie.heldMsgs v && s.host.pcie.msixEnable && !s.host.pcie.funcMask && !(msixEntry s.host.pcie v).masked then
      out (.msix v) (setPcie (fun p => { p with heldMsgs := setBit p.heldMsgs v false }) s)
    else s) s

def setMsixMask (v : Nat) (b : Bool) (s : State) : State :=
  setPcie (fun p => { p with table := sset p.table v { msixEntry p v with masked := b } {} }) s

/-- Masking is removed (R594). -/
def msixUnmask (which : MsixMask) (s : State) : State :=
  match which with
  | .vector v => if v < 64 then sendHeld (setMsixMask v false s) else s
  | .function => sendHeld (setPcie (fun p => { p with funcMask := false }) s)

/-! ### Queue windows (R438 to R440, R589) -/

/-- The window of a queue as a read finds it once it has taken its record (Table 13-9). -/
def windowBytes (x : Queue) : Bytes :=
  padTo 64 x.latched ++ le 4 x.wr ++ le 4 x.rd ++ le 4 x.rel ++ le 4 (qstat x)

/-- A read of a queue window: one that covers byte 0 with an allowed size and alignment takes a record. -/
def windowRead (q off n : Nat) (s : State) : Bytes × State :=
  let s := if off = 0 ∧ [4, 8, 16, 32, 64].contains n then (takeRecord q s).2 else s
  (((padTo 4096 (windowBytes (vget s.scribe.queues q))).drop off).take n, s)

/-! ### BAR4 (R554, R555, R587, R588) -/

/-- Bench offset of a BAR4 access. -/
def bar4Offset (s : State) (a : Nat) : Nat := s.host.bar4Page * 2 ^ s.host.pcie.bar4Log + a

def ones (n : Nat) : Bytes := List.replicate n (BitVec.ofNat 8 0xFF)

/-- What a BAR4 read finds in the Bench, byte by byte: 0 beyond it and in the firmware working space, 0xFF in a frozen stack. A stack
that is fenced gives free bytes. -/
def bar4Bytes (off n : Nat) (s : State) : Bytes × State :=
  let c := stackOf off
  if (vget s.bench.ctl c).state = .fenced ∨ (vget s.bench.ctl c).state = .training then freshBytes n s
  else
    ((benchRead s off n).zipIdx.map fun e =>
      let o := off + e.2
      if benchSize ≤ o ∨ inFirmware o then BitVec.ofNat 8 0 else if stackFrozen s (stackOf o) then BitVec.ofNat 8 0xFF else e.1, s)

def countHeld (s : State) : State := { s with bench := { s.bench with hostHeld := wrap32 (s.bench.hostHeld + 1) } }

def benchAsleep (s : State) : Bool := decide ((vget s.bench.ctl 0).state = .selfRefresh) || decide ((vget s.bench.ctl 1).state = .selfRefresh)

/-- The exit from self-refresh starts (R555, R556, Table 12-3). -/
def startExit (s : State) : State := { s with bench := { s.bench with exiting := true } }

/-- A BAR4 read: in commanded or forced self-refresh all ones at once, in automatic self-refresh, and during an entry or an exit, after
a wait. -/
def bar4Read (a n : Nat) (s : State) : State :=
  let off := bar4Offset s a
  if !bar0Up s then out (.readData (ones n)) s
  else
    let wait (s : State) : State := { s with bench := { s.bench with hostWaiting := s.bench.hostWaiting ++ [(off, n)] } }
    if benchAsleep s && (s.bench.forced || !(s.bench.autoEntered || s.bench.exiting)) then out (.readData (ones n)) (countHeld s)
    else if benchAsleep s then wait (startExit s)
    else if s.bench.entering.isSome then wait s
    else
      let r := bar4Bytes off n { s with bench := { s.bench with lastRequest := s.now } }
      out (.readData r.1) r.2

/-- A BAR4 write is discarded (R554, R588). -/
def bar4Write (s : State) : State :=
  if !bar0Up s then s
  else
    let s := { s with host := { s.host with bar4Dropped := wrap32 (s.host.bar4Dropped + 1) } }
    if benchAsleep s && (s.bench.forced || !s.bench.autoEntered) then countHeld s else s

/-! ### The PCI Express function -/

/-- Bits of the MSI-X message control register: the table's size, the function mask and the enable. -/
def msixControl (p : Pcie) : Nat := 63 + flagBit p.funcMask 14 + flagBit p.msixEnable 15

def cfgRead (s : State) : CfgReg → Bytes
  | .ids => le 2 Config.vendorId ++ le 2 0x1296
  | .classCode => le 1 (Config.siliconRev % 256) ++ le 3 0x118000
  | .serialNumber => le 8 Config.serial
  | .interruptPin => le 1 0
  | .msixControl => le 2 (msixControl s.host.pcie)
  | .bar4Size => le 1 (s.host.pcie.bar4Log - 20)
  | .powerState => le 1 (if s.host.pcie.d3hot then 3 else 0)
  | .other k => le 4 (sget s.host.pcie.config k 0)

/-- Entry to D3hot stops every DMA channel (R578). -/
def enterD3hot (s : State) : State := dmaD3hot (setPcie (fun p => { p with d3hot := true }) s)

def cfgWrite (r : CfgReg) (v : Nat) (s : State) : State :=
  match r with
  | .msixControl => sendHeld (setPcie (fun p => { p with funcMask := bitOf v 14, msixEnable := bitOf v 15 }) s)
  | .bar4Size => if inRange 8 16 v then setPcie (fun p => { p with bar4Log := 20 + v }) s else s
  | .powerState => if v % 4 = 3 then enterD3hot s else if v % 4 = 0 then setPcie (fun p => { p with d3hot := false }) s else s
  | .other k => setPcie (fun p => { p with config := sset p.config k (wrap32 v) 0 }) s
  | _ => s

/-- Start-up step 3 has not ended: it ends 60 ms after the reference point, the latest time of Table 18-1 (DESIGN CHOICE, assumption 66). -/
def beforeStep3 (s : State) : Bool := !s.boot.vmainUp || (!s.boot.warm && decide (s.boot.stage ≤ 2) && decide (s.now < s.boot.refTime + 60000000))

/-- A configuration request (R747): answered with retry status until start-up step 3 has ended. -/
def configRequest (op : CfgOp) (s : State) : State :=
  if beforeStep3 s then out .retryStatus s
  else match op with
    | .read r => out (.readData (cfgRead s r)) s
    | .write r v => cfgWrite r v s

/-- PERST# is asserted (R763, Table 18-3). -/
def perstAssert (s : State) : State :=
  if s.host.pcie.perst then s
  else
    let s := if bar0Up s then dmaPerst s else s
    let s := { s with
      host := { s.host with
        rings := s.host.rings.map fun p => { posts := p.posts }
        evt := {}
        pcie := {}
        bar4Page := 0
        badAccess := 0
        bar4Dropped := 0
        lowHalves := [] }
      ring := { s.ring with gateway := false }
      boot := { s.boot with perstCount := wrap32 (s.boot.perstCount + 1) } }
    (List.range 16).foldl (fun s q => setQueue q (fun x => { x with latched := [], latchedEmpty := true }) s) s

end Sys2Proof.Machine
end

