-- ==== Sys2Proof/Machine/BenchOps.lean ====
section
/-! DEFINITION. The operations of the Bench ("The Bench: central store and memory controller"): requests and their scheduling (R542 to
R550), self-refresh (R552 to R557), errors and the freeze (R558 to R567), look-back (R568 to R575). -/

namespace Sys2Proof.Machine

def portCfg (s : State) (p : Nat) : PortCfg := (vget (cfgNow s).port p).getD (portDefault p)

/-! ### Requests (R531, R542 to R546) -/

/-- A request lies in the Bench, in one stack, in whole words (R531). -/
def reqOk (r : BenchReq) : Bool :=
  decide (r.port < 16) && inRange 1 8 r.words && decide (r.offset % 32 = 0) && decide (r.offset + 32 * r.words ≤ benchSize) &&
    decide (stackOf r.offset = stackOf (r.offset + 32 * r.words - 1))

/-- A request enters its controller (R542, R543); in automatic self-refresh it starts the exit (R555). -/
def benchRequest (r : BenchReq) (s : State) : State :=
  if !reqOk r then s
  else
    let id := s.bench.nextReq
    let s := { s with bench := { s.bench with nextReq := id + 1, lastRequest := s.now } }
    let s := setPort r.port (fun p => { p with requests := wrap32 (p.requests + 1) }) s
    let s := setCtl (stackOf r.offset) (fun c => { c with pending := c.pending ++ [{ r with id, entered := s.now }] }) s
    if benchAsleep s && s.bench.autoEntered then startExit s else s

/-- The age of a port's oldest pending request (R543). -/
def portAge (s : State) (p : Nat) : Option Nat :=
  let mine := ((vget s.bench.ctl 0).pending ++ (vget s.bench.ctl 1).pending).filter fun r => decide (r.port = p)
  (minBy (fun a b : BenchReq => decide (a.entered < b.entered)) mine).map fun r => s.now - r.entered

def portUrgency (s : State) (p : Nat) : Nat :=
  match portAge s p with
  | some a => urgencyOf (portCfg s p).target a
  | none => 0

/-- A port's urgency is formed anew; reaching 3 raises EV 0x350 + p (R543, R546). -/
def urgencyRise (p : Nat) (s : State) : State :=
  let u := portUrgency s p
  let before := (vget s.bench.ports p).urgency
  let s := setPort p (fun x => { x with urgency := u }) s
  if u = 3 ∧ before < 3 then raiseOnce (0x350 + p) 0 0 s else s

/-- Requests that a controller may serve now: those that came before an accepted entry into self-refresh (R553). -/
def grantable (s : State) (l : List BenchReq) : List BenchReq :=
  match s.bench.entering with
  | some k => l.filter fun r => decide (r.id < k)
  | none => l

/-- A pseudo-channel issues its next request (R544, R545): a write is done, a read returns later. -/
def benchIssue (pch : Nat) (allowed : List Nat) (s : State) : State :=
  let c := pch / 32
  if !stackUp s c then s
  else
    match minBy (issueBefore (portUrgency s)) (issuable pch allowed (grantable s (vget s.bench.ctl c).pending)) with
    | none => s
    | some r =>
      let urgent := decide (portUrgency s r.port = 3)
      let s := setCtl c (fun x => { x with
        pending := x.pending.filter fun q => decide (q.id ≠ r.id)
        issued := (x.issued.filter fun q => q.data.isNone || decide (pchOf q.offset ≠ pch)) ++ [r] }) s
      let s := setPort r.port (fun p => { p with bytes := p.bytes + 32 * r.words, urgent3 := wrap32 (p.urgent3 + flagBit urgent 0) }) s
      let s := match r.data with
        | some d => benchWrite r.offset (d.take (32 * r.words)) s
        | none => s
      setPort r.port (fun p => { p with urgency := portUrgency s r.port }) s

/-! ### Refresh (R549, R550) -/

def urgentAt (s : State) (pch : Nat) : Bool :=
  (vget s.bench.ctl (pch / 32)).pending.any fun r => decide (pchOf r.offset = pch) && decide (2 ≤ portUrgency s r.port)

def pendingAt (s : State) (pch : Nat) : Bool := (vget s.bench.ctl (pch / 32)).pending.any fun r => decide (pchOf r.offset = pch)

/-- A pseudo-channel's refresh interval elapses. With no request pending every refresh owed is paid, and how many of at most 8 are pulled
in ahead is free; with an urgent request it is postponed, and at 8 owed one is forced; otherwise one is issued (R550). -/
def refreshDue (pch : Nat) (s : State) : State :=
  let c := pch / 32
  if 64 ≤ pch || !stackUp s c then s
  else
    let setOwed (v : Int) (s : State) : State :=
      setCtl c (fun x => { x with owed := vset x.owed (pch % 32) v, maxOwed := max x.maxOwed v.toNat }) s
    let o := vget (vget s.bench.ctl c).owed (pch % 32) + 1
    if !pendingAt s pch then
      let r := freshValue s
      setOwed (-((r.1 % 9 : Nat) : Int)) r.2
    else if urgentAt s pch then
      let s := setOwed o s
      if o < 8 then s
      else raiseOnce (0x34A + c) 0 0 (setOwed (o - 1) (setCtl c (fun x => { x with refreshForced := wrap32 (x.refreshForced + 1) }) s))
    else setOwed (o - 1) s

/-- A stack crosses 85 °C, or returns to 80 °C or below (R551). -/
def stackTemp (c : Nat) (temp : Int) (s : State) : State :=
  let x := vget s.bench.ctl c
  let hot := if x.hot then decide (80 < temp) else decide (85 < temp)
  let s := setCtl c (fun x => { x with temp, hot }) s
  if hot = x.hot then s else raise (0x346 + c) 0 0 s

/-! ### Self-refresh (R552 to R557) -/

def srBody (s : State) : Bytes := le 1 (ctlCode (vget s.bench.ctl 0).state) ++ le 1 (flagBit s.bench.auto 0) ++ zeros 2

/-- The SELF_REFRESH commands that waited for an entry or an exit are answered. -/
def answerSr (s : State) : State :=
  let ts := s.bench.srTickets
  ts.foldl (fun s t => complete t stOk (srBody s) s) { s with bench := { s.bench with srTickets := [] } }

/-- Waiting BAR4 reads are served. -/
def serveHost (s : State) : State :=
  let l := s.bench.hostWaiting
  l.foldl (fun s r => let b := bar4Bytes r.1 r.2 s; out (.readData b.1) b.2) { s with bench := { s.bench with hostWaiting := [] } }

/-- Waiting BAR4 reads complete with all ones (R554). -/
def refuseHost (s : State) : State :=
  let l := s.bench.hostWaiting
  l.foldl (fun s r => out (.readData (ones r.2)) (countHeld s)) { s with bench := { s.bench with hostWaiting := [] } }

/-- Both controllers stop their clocks; a frozen one stays frozen (Table 12-4). -/
def sleepCtls (s : State) : State :=
  let sleep (c : BenchCtl) : BenchCtl := if c.state = .ready then { c with state := .selfRefresh, srEntries := wrap32 (c.srEntries + 1) } else c
  { s with bench := { s.bench with ctl := s.bench.ctl.map sleep } }

/-- Entry into self-refresh is complete once every request granted before it is served (R553). Requests that came meanwhile start the exit
from automatic self-refresh. -/
def srEntered (s : State) : State :=
  match s.bench.entering with
  | none => s
  | some k =>
    let busy (c : BenchCtl) : Bool := (c.pending.any fun r => decide (r.id < k)) || c.issued.any fun r => r.data.isNone
    if busy (vget s.bench.ctl 0) || busy (vget s.bench.ctl 1) then s
    else
      let s := raise 0x348 0 0 (sleepCtls { s with bench := { s.bench with entering := none } })
      if s.bench.exiting then s
      else
        let s := answerSr s
        if s.bench.autoEntered then
          if s.bench.hostWaiting.isEmpty && (vget s.bench.ctl 0).pending.isEmpty && (vget s.bench.ctl 1).pending.isEmpty then s else startExit s
        else refuseHost s

/-- The exit sequence is complete (R556). -/
def srExited (s : State) : State :=
  if !s.bench.exiting || s.bench.entering.isSome then s
  else
    let wake (c : BenchCtl) : BenchCtl := if c.state = .selfRefresh then { c with state := .ready } else c
    let s := { s with bench := { s.bench with ctl := s.bench.ctl.map wake, exiting := false, autoEntered := false, forced := false, lastRequest := s.now } }
    answerSr (serveHost (raise 0x349 0 0 s))

/-- Automatic self-refresh begins (R555). -/
def autoEnter (s : State) : State :=
  let b := s.bench
  let idle := (vget b.ctl 0).pending.isEmpty && (vget b.ctl 1).pending.isEmpty
  if b.auto && !s.gauge.trigEnabled && stackUp s 0 && stackUp s 1 && b.entering.isNone && idle && decide (b.lastRequest + b.autoDelayMs * 1000000 ≤ s.now) then
    { s with bench := { b with entering := some b.nextReq, autoEntered := true } }
  else s

/-! ### Tickets of a frozen stack (R565) -/

/-- A partition in force lies in a stack. -/
def partIn (s : State) (k c : Nat) : Bool := let p := vget (cfgNow s).part k; p.enable && decide (stackOf (p.baseMib * mib) = c)

/-- View frames in formation end BENCH_FROZEN. -/
def freezeFrames (s : State) : Nat × State :=
  (List.range 8).foldl (fun (a : Nat × State) v =>
    let x := vget a.2.views v
    let ts := (((match x.cur with | some f => [f] | none => []) ++ x.waiting).filter fun f => !f.skipped).map (·.ticket)
    let s := setView v (fun x => { x with cur := none, waiting := [], restart := x.restart || x.cur.isSome }) a.2
    (a.1 + ts.length, ts.foldl (fun s t => failFrame v t 2 s) s)) (0, s)

/-- Patches cut from the strip ring, or on their way into the patch store, end BENCH_FROZEN. -/
def freezePatches (s : State) : Nat × State :=
  let jobs := s.scribe.jobs
  let busy := (List.range 16).filter fun e => (ceAt s e).job.any fun j => match j.source with | .patch _ _ => true | .archive _ => false
  let s := busy.foldl (fun s e => setCe e (fun u => { u with job := none }) s) s
  (jobs.length, jobs.foldl (fun s j => failPatchJob j 2 s) s)

/-- Archive blocks end BENCH_FROZEN, and their strips' entries lack COMPLETE. -/
def freezeArchive (s : State) : Nat × State :=
  (List.range 16).foldl (fun (a : Nat × State) e =>
    match (ceAt a.2 e).job with
    | some j => (match j.source with
      | .archive i => (a.1 + j.ticket.toList.length, finishStrip i false false (endTickets j.ticket.toList 2 (setCe e (fun u => { u with job := none }) a.2)))
      | .patch _ _ => a)
    | none => a) (0, s)

/-- Records in a frozen queue body, and stored patches in a frozen store, end BENCH_FROZEN. -/
def freezeRecords (s : State) : Nat × State :=
  let ts := ((List.range 16).flatMap fun q => (vget s.scribe.queues q).live.map (·.ticket)).filter (ticketLive s.ledger)
  (ts.length, endTickets ts 2 s)

def freezeStored (s : State) : Nat × State :=
  let ts := ((List.range 16).flatMap fun q => (vget s.scribe.queues q).patches.map (·.ticket)).filter (ticketLive s.ledger)
  (ts.length, endTickets ts 2 s)

/-- The command in progress of a decompressor ends when its source or its context slots lie in the stack. -/
def freezeDecompress (c : Nat) (s : State) : Nat × State :=
  (List.range 4).foldl (fun (a : Nat × State) d =>
    match (vget a.2.comp.de d).run with
    | some r =>
      let hit := (bulkStacks r.source).contains c || (partIn a.2 16 c && (r.contextIn.isSome || r.contextOut.isSome))
      if hit then (a.1 + 1, complete r.ticket stBenchFrozen (entryNoBody 0) (dropDecClaims d (setDe d (fun u => { u with run := none }) a.2))) else a
    | none => a) (0, s)

/-- A look-back ends: its decompressor is free again. -/
def dropLookback (r : LookbackRun) (s : State) : State :=
  let s := { s with bench := { s.bench with lookbacks := s.bench.lookbacks.filter fun x => decide (x.ticket ≠ r.ticket) } }
  match r.de with
  | some d => dropRt 0x0A d 0x0902 0 (setDe d (fun u => { u with lookback := false }) s)
  | none => s

def freezeLookbacks (strip archive : Bool) (s : State) : Nat × State :=
  s.bench.lookbacks.foldl (fun (a : Nat × State) r =>
    if (archive && r.de.isSome) || (strip && r.lines.any (inStripRing a.2)) then
      (a.1 + 1, complete r.ticket stBenchFrozen (entryNoBody 0) (dropLookback r a.2))
    else a) (0, s)

/-- One step of ending tickets, counted. -/
def andThen (on : Bool) (f : State → Nat × State) (a : Nat × State) : Nat × State :=
  if on then let r := f a.2; (a.1 + r.1, r.2) else a

/-- Every ticket whose item holds data in the stack ends (R565). -/
def freezeItems (c : Nat) (s : State) : Nat × State :=
  let strip := partIn s 12 c
  let archive := partIn s 13 c
  let a := andThen strip freezeFrames (0, s)
  let a := andThen (strip || partIn s 14 c) freezePatches a
  let a := andThen (strip || archive) freezeArchive a
  let a := andThen (partIn s 15 c) freezeRecords a
  let a := andThen (partIn s 14 c) freezeStored a
  let a := andThen true (freezeDecompress c) a
  let a := andThen (strip || archive) (freezeLookbacks strip archive) a
  andThen true (dmaFreeze archive) a

/-- A lasting error freezes the controller (R562 to R565). -/
def freezeCtl (c : Nat) (e : ErrorCapture) (s : State) : State :=
  let e := { e with stime := shortTime s }
  let s := setCtl c (fun x => { x with state := .frozen }) s
  let l := logFault { cls := 3, unit := 0x09, index := c, cause := benchErrorCode e.cause, tickets := 0xFFFFFFFF,
                      detail := le 8 e.offset ++ le 1 e.port ++ le 1 (pchOf e.offset) ++ le 1 e.syndrome1 ++ le 1 e.syndrome2 } s
  let s := { l.2 with faults := { l.2.faults with cnt := { l.2.faults.cnt with freezes := wrap32 (l.2.faults.cnt.freezes + 1) } } }
  let s := raise (0x340 + c) 0 0 (haltTriggers s)
  let r := freezeItems c s
  let s := setTicketsFailed l.1 r.1 r.2
  let s := setCtl c (fun x => { x with capture := some { err := e, ticketsFailed := r.1, faultEntry := l.1 }, pending := [], issued := [] }) s
  if inPair s then giveSignal s else s

/-! ### Errors (R558 to R562) -/

/-- A transient error is counted and logged (R560, R561). -/
def benchTransient (c : Nat) (e : ErrorCapture) (s : State) : State :=
  let e := { e with stime := shortTime s }
  let s := setCtl c (fun x =>
    let x := { x with transients := (e :: x.transients).take 8 }
    match e.cause with
    | .read => { x with ueTransient := wrap32 (x.ueTransient + 1) }
    | .writeParity => { x with wparTransient := wrap32 (x.wparTransient + 1) }
    | .caParity => { x with caparTransient := wrap32 (x.caparTransient + 1) }) s
  raiseOnce (0x342 + c) 0 0 (countTransient 4 s)

/-- A corrected error is counted (R559). -/
def benchCorrected (c : Nat) (s : State) : State := raiseOnce (0x344 + c) 0 0 (setCtl c (fun x => { x with ce := wrap32 (x.ce + 1) }) s)

/-- The controller that has issued a request. -/
def issuedBy (s : State) (id : Nat) : Option (Nat × BenchReq) :=
  [0, 1].findSome? fun c => ((vget s.bench.ctl c).issued.find? fun r => decide (r.id = id)).map fun r => (c, r)

def retire (c id : Nat) (s : State) : State := setCtl c (fun x => { x with issued := x.issued.filter fun r => decide (r.id ≠ id) }) s

/-- A read returns (R558 to R560, R562). An armed injection makes a clean read fail (R739). -/
def benchReadDone (id : Nat) (o : BenchOutcome) (s : State) : State :=
  match issuedBy s id with
  | none => s
  | some (c, r) =>
    if !stackUp s c then s
    else
      let s := retire c id s
      let inj := takeInjection 1 c s
      let cor := if inj.1 = 0 then takeInjection 2 c inj.2 else (0, inj.2)
      let e : ErrorCapture := { port := r.port, offset := r.offset }
      match o, inj.1, cor.1 with
      | .lasting e, _, _ => freezeCtl c e inj.2
      | .transient e, n, _ => if 2 ≤ n then freezeCtl c e inj.2 else benchTransient c e inj.2
      | _, 1, _ => benchTransient c e inj.2
      | .clean, 0, 0 => cor.2
      | _, 0, _ => benchCorrected c cor.2
      | _, _, _ => freezeCtl c e inj.2

/-- A write parity or command and address parity error is reported, and the command is repeated once (R561, R562). -/
def benchParity (id : Nat) (o : BenchOutcome) (s : State) : State :=
  match issuedBy s id with
  | none => s
  | some (c, _) =>
    if !stackUp s c then s
    else match o with
      | .transient e => benchTransient c e s
      | .lasting e => freezeCtl c e (retire c id s)
      | _ => s

/-! ### Discarding and laying out anew (R25, R567) -/

/-- Bytes of a partition before rounding (Table 12-1). -/
def partBytes (c : Cfg) (k : Nat) : Nat :=
  let p := vget c.part k
  if !p.enable then 0
  else if k < 12 then ringBytes (lineLayout c k)
  else if k = 12 then stripBytes (stripLayout c)
  else if k = 14 then (((List.range 16).filter (patchesOn c)).map fun q => dirBytes c q + (vget c.patch q).storeMib * mib).sum
  else if k = 15 then (((List.range 16).filter fun q => (vget c.queue q).enable).map fun q => (vget c.queue q).bodyKib * 1024).sum
  else if k = 16 then p.sizeA * contextBytes
  else p.sizeA * mib

/-- Its size, rounded up to a whole MiB (R533). -/
def partSize (c : Cfg) (k : Nat) : Nat := toMib (partBytes c k) * mib

/-- The web line after every line triggered so far. -/
def freshLine (s : State) : Nat := match s.spans with | p :: _ => wrap32 (p.2 + 1) | [] => 0

/-- A line ring is discarded: its unread lines end as RELAID gaps (R267). -/
def discardLines (p : Nat) (s : State) : State := relaySlot (2 * p + 1) (freshLine s) (relaySlot (2 * p) (freshLine s) s)

/-- The strip ring is discarded. Marquetry flushes its regions at the end of the last line it processed (R400), and the readers of the ring
pass over what it held. The archive passes over a strip of which rows are lost. -/
def discardStrips (s : State) : State :=
  let s := marqFlushNow s
  let last := s.dovetail.last
  let s := { s with
    dovetail := { s.dovetail with layoutFrom := some (match last with | some l => wrap32 (l + 1) | none => 0) }
    marq := { s.marq with last := last }
    comp := { s.comp with archiveLine := last.map (stripEnd s) } }
  (List.range 8).foldl (fun s v => setView v (fun x => { x with last := last, restart := true, cur := none, waiting := [] }) s) s

/-- The patches of a store are freed. -/
def discardStore (s : State) : State :=
  (List.range 16).foldl (fun s q =>
    let s := (vget s.scribe.queues q).patches.foldl (fun s p => freeStored q p 1 s) s
    setQueue q (fun x => { x with storeWrite := 0 }) s) s

/-- One partition of Table 12-1 is discarded and laid out again empty. -/
def discardPart (k : Nat) (s : State) : State :=
  let p := vget (cfgNow s).part k
  let s := if k < 12 then discardLines k s
    else if k = 12 then discardStrips s
    else if k = 13 then { s with comp := { s.comp with layout := none, rings := [], hostStrips := [] } }
    else if k = 14 then discardStore s
    else if k = 15 then (List.range 16).foldl (fun s q => emptyQueue q s) s
    else s
  if k = 15 ∨ k = 14 then s else benchEmpty (p.baseMib * mib) (partSize (cfgNow s) k) s

/-- The freeze of a controller ends (R567). The capture is kept. -/
def thawCtl (c : Nat) (s : State) : State :=
  if (vget s.bench.ctl c).state ≠ .frozen then s
  else
    let s := setCtl c (fun x => { x with state := .ready }) s
    ((List.range 18).filter fun k => partIn s k c).foldl (fun s k => discardPart k s) s

end Sys2Proof.Machine
end

