-- ==== Sys2Proof/Machine/LinksOps.lean ====
section
/-! DEFINITION. The operations of the camera links: bring-up (R193 to R201), control transactions (R213, R214), reassembly
(R210 to R212), trigger packets (R216), and what a glue-up does to a slot's link (Table 4-4). -/

namespace Sys2Proof.Machine

/-- Change the lanes of a list. -/
def setLanes (links : List Nat) (f : Lane → Lane) (s : State) : State := links.foldl (fun s l => setLane l f s) s

/-- The configuration in force on a slot's camera links. -/
def linkNow (s : State) (slot : Nat) : Cfg :=
  match s.glue with
  | some g => if g.applied.contains (.link slot) then g.next else s.running
  | none => s.running

def slotLinks (s : State) (slot : Nat) : List Nat := groupLinks (linkNow s slot) slot

/-- The slot whose group holds a camera link, under the settings in force (Table 4-1). -/
def slotOfLink (s : State) (link : Nat) : Option Nat :=
  let a := link / 4 * 2
  let has (slot : Nat) : Bool := (vget (linkNow s slot).link slot).enable && (slotLinks s slot).contains link
  if has a then some a else if has (a + 1) then some (a + 1) else none

/-- A STREAM_ERR on a slot (Table 4-3, Table 4-13). -/
def countStreamErr (slot : Nat) (s : State) : State :=
  raiseOnce 0x0FC 0 0 (setSlotLink slot (fun x => { x with streamErr := wrap32 (x.streamErr + 1) }) s)

/-- The line being received is handed to Ingest marked incomplete, and reassembly starts afresh (R196). -/
def cutStream (slot : Nat) (s : State) : State :=
  let st := (vget s.links.slots slot).stream
  let s := setSlotLink slot (fun x => { x with stream := {} }) s
  if st.lineStart.isSome then lineEnd slot st.lineData true s else s

/-- Completion body of LINK_DISCOVER. -/
def discoverBody (x : SlotLink) (ms : Nat) : Bytes :=
  le 1 (connCode x.state) ++ le 1 (connCauseCode x.cause) ++ le 1 x.rate ++ le 1 x.links ++ le 1 (flagBit x.caps.hsUplink 0) ++ zeros 3 ++ le 4 ms

/-- The slot's connection changes state (R199): its event is raised, a line in transfer is cut, a Jig command ends, and
LINK_DISCOVER completes in ACTIVE, DEGRADED and ERROR. -/
def setConn (slot : Nat) (st : ConnState) (cause : ConnCause) (s : State) : State :=
  let up (c : ConnState) : Bool := decide (c = .active) || decide (c = .degraded)
  let old := (vget s.links.slots slot).state
  let s := setSlotLink slot (fun x => { x with state := st, cause, since := s.now, lastBeat := if up st then s.now else x.lastBeat }) s
  let s := if up old && !up st then abortJig slot .linkDown stAborted (cutStream slot s) else s
  let s := if old = st then s else raise (0x080 + slot) 0 0 s
  if up st || decide (st = .error) then
    match (vget s.links.slots slot).discover with
    | some (_, start) => endDiscover slot stOk (discoverBody (vget s.links.slots slot) ((s.now - start) / 1000000)) s
    | none => s
  else s

/-! ### Control transactions (R213, R214) -/

def isCamTxn : CtrlTxn → Bool
  | .camRead .. => true
  | .camWrite .. => true
  | _ => false

/-- The transaction at the front starts, or starts again: its request goes out and 200 ms run. A passive module issues none
(R698). -/
def startTxn (slot : Nat) (s : State) : State :=
  match (vget s.links.slots slot).ctrl.head? with
  | none => s
  | some x =>
    let s := setSlotLink slot (fun y => { y with ctrlDeadline := s.now + 200000000, ctrlLatest := s.now + 10000000000 }) s
    if isPassive s then s else out (.ctrlRequest slot x) s

/-- Queue transactions: those of bring-up before CAM_READ and CAM_WRITE that have not started (R213). -/
def queueTxns (slot : Nat) (txns : List CtrlTxn) (s : State) : State :=
  let old := (vget s.links.slots slot).ctrl
  match old with
  | [] => startTxn slot (setSlotLink slot (fun x => { x with ctrl := txns, ctrlRetried := false }) s)
  | h :: rest =>
    let boot := rest.takeWhile fun x => !isCamTxn x
    let cams := rest.dropWhile fun x => !isCamTxn x
    let new := if txns.all isCamTxn then h :: (rest ++ txns) else h :: (boot ++ txns ++ cams)
    setSlotLink slot (fun x => { x with ctrl := new }) s

/-- The transaction at the front is over and the next starts. -/
def popTxn (slot : Nat) (s : State) : State :=
  startTxn slot (setSlotLink slot (fun x => { x with ctrl := x.ctrl.drop 1, ctrlRetried := false }) s)

/-- The transactions of a bring-up that is given up are dropped. -/
def dropBringup (slot : Nat) (s : State) : State :=
  let old := (vget s.links.slots slot).ctrl
  let kept := old.filter isCamTxn
  let s := setSlotLink slot (fun x => { x with ctrl := kept }) s
  if (match old.head? with | some x => isCamTxn x | none => true) then s
  else startTxn slot (setSlotLink slot (fun x => { x with ctrlRetried := false }) s)

/-- Reply head of CAM_READ and CAM_WRITE. -/
def camHead (result code moved : Nat) : Bytes := le 1 result ++ le 1 code ++ zeros 2 ++ le 4 moved

/-- CAM_READ and CAM_WRITE of a slot that is switched off end with NO_ANSWER. -/
def endCams (slot : Nat) (s : State) : State :=
  let txns := (vget s.links.slots slot).ctrl
  let s := setSlotLink slot (fun x => { x with ctrl := [], ctrlRetried := false }) s
  txns.foldl (fun s x => match x with
    | .camRead t _ _ => complete t stOk (camHead 2 0 0) s
    | .camWrite t _ _ n => complete t stOk (camHead 2 0 n) s
    | _ => s) s

/-! ### Bring-up (R193, R194, R200, R201) -/

/-- SEARCH: the receivers are at CXP-1. `fresh` begins a new bring-up. -/
def startSearch (slot : Nat) (fresh : Bool) (s : State) : State :=
  let s := dropBringup slot s
  let s := setLanes (slotLinks s slot) (fun l => { l with locked := false }) s
  let s := setSlotLink slot (fun x => { x with
    rate := 0, links := 0, repeated := false
    kxFails := if fresh then 0 else x.kxFails
    kxGiveUp := if fresh then false else x.kxGiveUp }) s
  setConn slot .search .none { s with scribe := { s.scribe with slotLine := vset s.scribe.slotLine slot none } }

def enterError (slot : Nat) (cause : ConnCause) (s : State) : State := setConn slot .error cause (dropBringup slot s)

/-- The highest CoaXPress rate up to MAX_RATE that the camera supports (R193). -/
def stepUpRate (maxRate camRate : Nat) : Nat :=
  ((cxpRates.filter fun r => decide (r ≤ maxRate) && decide (r ≤ camRate)).getLast?).getD 1

/-- STEP_UP at a rate: ConnectionConfig is written, and the links are to lock. -/
def startStep (slot rate : Nat) (s : State) : State :=
  let links := (vget (linkNow s slot).link slot).links
  let s := setLanes (slotLinks s slot) (fun l => { l with locked := false }) (dropBringup slot s)
  let s := setSlotLink slot (fun x => { x with tryRate := rate, rate := 0, links }) s
  queueTxns slot [.connConfig rate links] (setConn slot .stepUp .none s)

def firstStep (slot : Nat) (s : State) : State :=
  startStep slot (stepUpRate (vget (linkNow s slot).link slot).maxRate (vget s.links.slots slot).caps.maxRate)
    (setSlotLink slot (fun x => { x with repeated := false }) s)

/-- STEP_UP, ADAPT or TEST_CONN fails (R194): repeated once at the same rate, then the next lower rate. At 25 the repeat is of
the sweep, and the next lower rate is a CoaXPress rate that the camera and MAX_RATE allow. -/
def stepFail (slot : Nat) (s : State) : State :=
  let x := vget s.links.slots slot
  let c := vget (linkNow s slot).link slot
  let again := setSlotLink slot (fun x => { x with repeated := true }) s
  let fresh := setSlotLink slot (fun x => { x with repeated := false }) s
  if x.tryRate = 25 then
    if x.repeated then startStep slot (stepUpRate c.maxRate x.caps.maxRate) fresh else setConn slot .adapt .none again
  else if !x.repeated then startStep slot x.tryRate again
  else
    match nextLowerRate x.tryRate with
    | some r => startStep slot r fresh
    | none => enterError slot .noLock s

/-- Steps 4 to 6 of a KX-25 switch fail (R201). -/
def kxFail (slot : Nat) (s : State) : State :=
  if (vget s.links.slots slot).kxFails = 0 then startSearch slot false (setSlotLink slot (fun x => { x with kxFails := 1 }) s)
  else
    let s := setSlotLink slot (fun x => { x with kxFails := 2, kxGiveUp := true }) s
    if (vget (linkNow s slot).kx slot).require then enterError slot .kxFail s else firstStep slot s

/-- KX_CAPS advertises KX-25 (R200). -/
def kxAdvertised (caps : Nat) : Bool := decide (caps / 65536 = 0x4B58) && decide (caps / 256 % 256 = 1)

/-- The wiring is wrong (R188). -/
def miswired (c : CamCaps) : Bool :=
  decide (c.connNos.getD 0 0 ≠ 0) || (c.identities.any fun i => decide (i ≠ c.identities.getD 0 0))

/-- The KX-25 switch of R200, steps 1 to 3. -/
def startKx (slot : Nat) (s : State) : State :=
  let links := min (vget (linkNow s slot).link slot).links ((vget s.links.slots slot).kxCaps % 256)
  let s := setLanes (slotLinks s slot) (fun l => { l with locked := false }) s
  let s := setSlotLink slot (fun x => { x with links, tryRate := 25, rate := 0 }) s
  queueTxns slot [.connConfig 25 links, .kxRate, .connReset] (setConn slot .kxSwitch .none s)

/-- The bootstrap reads of CONFIGURE are complete (Table 4-4). -/
def configured (slot : Nat) (s : State) : State :=
  let x := vget s.links.slots slot
  if (vget (linkNow s slot).kx slot).enable && !x.kxGiveUp && kxAdvertised x.kxCaps then startKx slot s else firstStep slot s

def startAdapt (slot rate : Nat) (s : State) : State := setConn slot .adapt .none (setSlotLink slot (fun x => { x with rate }) s)

/-- The links in use of a slot's group. -/
def usedLinks (s : State) (slot : Nat) : List Nat := (slotLinks s slot).take (vget s.links.slots slot).links

def allLocked (s : State) (slot : Nat) : Bool := (usedLinks s slot).all fun l => (vget s.links.lanes l).locked

/-- A link of the slot has locked (R193, R200). -/
def lockGained (slot link : Nat) (s : State) : State :=
  match (vget s.links.slots slot).state with
  | .search => if link = masterLink slot then queueTxns slot [.bootRead] (setConn slot .configure .none s) else s
  | .stepUp => if allLocked s slot then startAdapt slot (vget s.links.slots slot).tryRate s else s
  | .kxSwitch => if allLocked s slot then queueTxns slot [.kxConfirm, .kxStatus] s else s
  | _ => s

/-- The cause of DEGRADED, the lowest code that applies (Table 4-5); none in ACTIVE. A slot that fell back from KX-25 is below
KX-25 by that fall back, which KX_FALLBACK reports (DEDUCED from R201, assumption 125). -/
def degradedCause (s : State) (slot : Nat) : ConnCause :=
  let x := vget s.links.slots slot
  let cfg := linkNow s slot
  let below := decide (x.rate ≠ 25) && (decide (x.rate < (vget cfg.link slot).maxRate) || ((vget cfg.kx slot).enable && !x.kxGiveUp))
  if below then .rateBelow
  else if (vget cfg.trig slot).trgPacket && !x.caps.hsUplink then .noHsUplink
  else if x.kxGiveUp then .kxFallback
  else .none

/-- TEST_CONN has passed: StreamPacketSizeMax is written and the slot comes up (R193). -/
def comeUp (slot : Nat) (s : State) : State :=
  let cause := degradedCause s slot
  queueTxns slot [.pktMaxWrite] (setConn slot (if cause = .none then .active else .degraded) cause s)

/-- A control transaction has ended, with the camera's answer or without one (R214). -/
def endTxn (slot : Nat) (x : CtrlTxn) (r : Option CtrlAnswer) (s : State) : State :=
  match x with
  | .bootRead =>
    match r with
    | some (.caps c) =>
      let s := setSlotLink slot (fun x => { x with caps := c, kxCaps := 0 }) s
      let s := ((slotLinks s slot).zip c.connNos).foldl (fun s p => setLane p.1 (fun l => { l with connNo := p.2 }) s) s
      if miswired c then enterError slot .miswired s
      else if (vget (linkNow s slot).kx slot).enable && !(vget s.links.slots slot).kxGiveUp then queueTxns slot [.kxCapsRead] s
      else configured slot s
    | _ => enterError slot .ctrlFail s
  | .kxCapsRead =>
    match r with
    | some (.data b) => configured slot (setSlotLink slot (fun x => { x with kxCaps := u32 b 0 }) s)
    | none => enterError slot .ctrlFail s
    | _ => configured slot s
  | .connConfig rate _ =>
    match r with
    | some .done => setSlotLink slot (fun x => { x with since := s.now }) s
    | none => if rate = 25 then kxFail slot s else stepFail slot s
    | _ => enterError slot .ctrlFail s
  | .kxRate => if r = some .done then s else kxFail slot s
  | .connReset => if r = some .done then setSlotLink slot (fun x => { x with since := s.now }) s else kxFail slot s
  | .kxConfirm => if r = some .done then s else kxFail slot s
  | .kxStatus =>
    match r with
    | some (.data b) => if bitOf (u32 b 0) 0 then startAdapt slot 25 s else kxFail slot s
    | _ => kxFail slot s
  | .pktMaxWrite => s
  | .camRead t _ n =>
    match r with
    | some (.data b) => complete t stOk (camHead 0 0 n ++ padTo n b) s
    | some (.error code) => complete t stOk (camHead 1 code 0) s
    | _ => complete t stOk (camHead 2 0 0) s
  | .camWrite t addr todo n =>
    match r with
    | some .done =>
      let now := min 256 todo.length
      if todo.length ≤ 256 then complete t stOk (camHead 0 0 (n + now)) s
      else
        let next : CtrlTxn := .camWrite t (addr + now) (todo.drop now) (n + now)
        let s := setSlotLink slot (fun x => { x with ctrl := next :: x.ctrl, ctrlRetried := false }) s
        startTxn slot s
    | some (.error code) => complete t stOk (camHead 1 code n) s
    | _ => complete t stOk (camHead 2 0 n) s

/-- The transaction at the front ends: it leaves the queue, what follows from it happens, and the next starts. -/
def finishTxn (slot : Nat) (r : Option CtrlAnswer) (s : State) : State :=
  match (vget s.links.slots slot).ctrl with
  | [] => s
  | x :: rest =>
    let s := setSlotLink slot (fun y => { y with ctrl := rest, ctrlRetried := false }) s
    let s := endTxn slot x r s
    if rest ≠ [] ∧ (vget s.links.slots slot).ctrl = rest then startTxn slot s else s

/-- A CRC error or a timeout: one retry, then NO_ANSWER (R214). -/
def retryTxn (slot : Nat) (s : State) : State :=
  if (vget s.links.slots slot).ctrlRetried then finishTxn slot none s
  else startTxn slot (setSlotLink slot (fun x => { x with ctrlRetried := true }) s)

/-- A camera's acknowledgement of the transaction at the front. -/
def takeAnswer (slot : Nat) (a : CtrlAnswer) (s : State) : State :=
  let x := vget s.links.slots slot
  if x.ctrl = [] then s
  else
    match a with
    | .wait ms => setSlotLink slot (fun x => { x with ctrlDeadline := min x.ctrlLatest (s.now + ms * 1000000) }) s
    | .crcError => retryTxn slot (setLane (masterLink slot) (fun l => { l with ctrlCrc := wrap32 (l.ctrlCrc + 1) }) s)
    | a => finishTxn slot (some a) (if x.ctrlRetried then setSlotLink slot (fun x => { x with ctrlRetry := wrap32 (x.ctrlRetry + 1) }) s else s)

/-! ### Trigger packets (R192, R198, R216, R217) -/

/-- A trigger request on a slot with TRG_PACKET: the packet starts at the first uplink character boundary after 48 ns, where that
boundary falls being free, and its delay field makes up 320 ns. -/
def sendTrigger (slot : Nat) (s : State) : State :=
  let x := vget s.links.slots slot
  if !connUp s slot || !x.caps.hsUplink then setSlotLink slot (fun x => { x with trigNolink := wrap32 (x.trigNolink + 1) }) s
  else if isPassive s then s
  else
    let r := freshValue s
    out (.trigPacket slot (masterLink slot) (320 - (48 + r.1 % 241)))
      (setSlotLink slot (fun x => { x with trigSent := wrap32 (x.trigSent + 1) }) r.2)

/-! ### Reassembly (R210 to R212, Table 4-3) -/

/-- A line of the slot starts with a packet's data. -/
def openLine (slot time : Nat) (data : Bytes) (incomplete : Bool) (s : State) : State :=
  lineStart slot time data
    (setSlotLink slot (fun x => { x with stream := { x.stream with lineStart := some time, lineData := data, incomplete } }) s)

/-- The line being received ends. -/
def closeLine (slot : Nat) (s : State) : State :=
  let st := (vget s.links.slots slot).stream
  let s := setSlotLink slot (fun x => { x with stream := { x.stream with lineStart := none, lineData := [], incomplete := false } }) s
  lineEnd slot st.lineData st.incomplete s

def setStream (slot : Nat) (f : StreamState → StreamState) (s : State) : State := setSlotLink slot (fun x => { x with stream := f x.stream }) s

/-- One packet in tag order. -/
def takePacket (slot : Nat) (w : WindowPkt) (s : State) : State :=
  let p := w.pkt
  let s := match p.header with
    | some h => setStream slot (fun t => { t with headerOk := h.lineScan && decide (h.pixelFormat = (vget (linkNow s slot).link slot).pixelFormat) }) s
    | none => s
  let st := (vget s.links.slots slot).stream
  let s :=
    if p.first then
      let s := if st.lineStart.isSome then closeLine slot (setStream slot (fun t => { t with incomplete := true }) s) else s
      if st.headerOk then openLine slot w.time p.data false s else countStreamErr slot s
    else if st.lineStart.isSome then setStream slot (fun t => { t with lineData := t.lineData ++ p.data }) s
    else if st.headerOk && st.incomplete && decide (p.data ≠ []) then openLine slot w.time p.data true s
    else s
  if p.last && (vget s.links.slots slot).stream.lineStart.isSome then closeLine slot s else s

/-- Packet tags count modulo 256 (PRESUMED, assumption 124: the packet tag of CoaXPress). -/
def tagAhead (a b : Nat) : Nat := (a + 256 - b % 256) % 256

/-- Take packets from the window as far as they follow on. -/
def drainWindow (slot : Nat) : Nat → State → State
  | 0, s => s
  | fuel + 1, s =>
    let st := (vget s.links.slots slot).stream
    match st.nextTag with
    | none => s
    | some n =>
      match st.window.find? fun w => decide (w.pkt.tag % 256 = n) with
      | none => s
      | some w =>
        let s := setStream slot (fun t => { t with nextTag := some ((n + 1) % 256), window := t.window.filter fun v => decide (v.pkt.tag % 256 ≠ n) }) s
        drainWindow slot fuel (takePacket slot w s)

/-- The window passes a missing tag: TAG_GAP, and its line is incomplete (R210). -/
def passTag (slot n : Nat) (s : State) : State :=
  setSlotLink slot (fun x => { x with
    tagGap := wrap32 (x.tagGap + 1)
    stream := { x.stream with nextTag := some ((n + 1) % 256), incomplete := true } }) s

/-- Move the window until a tag lies in it. -/
def moveWindow (slot tag : Nat) : Nat → State → State
  | 0, s => s
  | fuel + 1, s =>
    match (vget s.links.slots slot).stream.nextTag with
    | none => s
    | some n =>
      if tagAhead tag n < 16 then s
      else
        let have_ := (vget s.links.slots slot).stream.window.any fun w => decide (w.pkt.tag % 256 = n)
        moveWindow slot tag fuel (if have_ then drainWindow slot 1 s else passTag slot n s)

/-- A re-adaptation with FORCE runs on a link of the slot, and its stream stands still (EYE_SCAN mode 2). -/
def readapting (s : State) (slot : Nat) : Bool := s.links.eye.any fun e => decide (e.mode = 2) && (slotLinks s slot).contains e.lane

/-- A stream packet arrives (R210, Table 4-3). Tags up to 127 ahead are ahead; the others are behind the window and late. -/
def streamPacket (slot : Nat) (p : StreamPkt) (s : State) : State :=
  if !connUp s slot || readapting s slot then s
  else if !p.crcOk then setLane p.link (fun l => { l with pktCrc := wrap32 (l.pktCrc + 1) }) s
  else if p.streamId ≠ (vget (linkNow s slot).link slot).streamId then countStreamErr slot s
  else
    let tag := p.tag % 256
    let s := if (vget s.links.slots slot).stream.nextTag.isNone then setStream slot (fun t => { t with nextTag := some tag }) s else s
    match (vget s.links.slots slot).stream.nextTag with
    | none => s
    | some n =>
      if 128 ≤ tagAhead tag n then s
      else
        let s := moveWindow slot tag 128 s
        let time := shortTime s
        let s := setStream slot (fun t => { t with window := t.window ++ [{ pkt := { p with tag }, time }] }) s
        drainWindow slot 16 s

/-! ### PRBS tests and eye scans -/

/-- Tests on a lane end with a status. -/
def abortTests (lane status : Nat) (s : State) : State :=
  let ps := s.links.prbs.filter fun r => decide (r.lane = lane)
  let es := s.links.eye.filter fun r => decide (r.lane = lane)
  let s := { s with links := { s.links with
    prbs := s.links.prbs.filter fun r => decide (r.lane ≠ lane)
    eye := s.links.eye.filter fun r => decide (r.lane ≠ lane) } }
  let s := if ps = [] then s else dropRt 0x0E lane 0x0307 lane s
  let s := if es = [] then s else dropRt 0x0E lane 0x0308 lane s
  let s := ps.foldl (fun s r => complete r.ticket status (zeros 8) s) s
  es.foldl (fun s r => complete r.ticket status (zeros 8) s) s

/-! ### What a glue-up does (Table 4-4, THROUGH_CONFIG) -/

def applySlotLink (old new : Cfg) (slot : Nat) (s : State) : State :=
  let a := vget old.link slot
  let b := vget new.link slot
  let st := (vget s.links.slots slot).state
  let changed := decide (a.links ≠ b.links) || decide (a.maxRate ≠ b.maxRate) || decide (a.streamId ≠ b.streamId) ||
    decide (vget old.kx slot ≠ vget new.kx slot)
  let abort (s : State) : State := (groupLinks old slot).foldl (fun s l => abortTests l stAborted s) s
  if st = .off then if b.enable && !a.enable && b.autoDiscover then startSearch slot true s else s
  else if !b.enable then setConn slot .off .none (endCams slot (endDiscover slot stAborted (zeros 8) (abort (dropBringup slot s))))
  else if changed || (decide (st = .error) && s.links.linkStaged.contains slot) then startSearch slot true (abort s)
  else s

def applyThrough (old new : Cfg) (c : Nat) (s : State) : State :=
  let a := vget old.through c
  let b := vget new.through c
  let lanes := (List.range 24).map (48 + 24 * c + ·)
  let hit (s : State) (l : Nat) : Bool := s.links.prbs.any fun r => decide (r.lane = l) && (if r.par.generate then decide (a.outMode ≠ b.outMode) else decide (a.inMode ≠ b.inMode))
  let s := lanes.foldl (fun s l => if hit s l then abortTests l stAborted s else s) s
  let s := if b.inMode = 0 then setLanes lanes (fun l => { l with locked := false }) s else s
  if a.relayAccept && !b.relayAccept && (vget s.links.through c).relaySource then
    raise (0x0FA + c) 0 0 (setThrough c (fun x => { x with relaySource := false }) s)
  else s

/-- The links of a slot take a new configuration, which is already in force there. -/
def linkTake (old new : Cfg) (slot : Nat) (s : State) : State :=
  let s := applySlotLink old new slot s
  { s with links := { s.links with linkStaged := s.links.linkStaged.filter fun x => decide (x ≠ slot) } }

/-- The through connectors take a new configuration with the Gauge (THROUGH_CONFIG). -/
def throughTake (old new : Cfg) (s : State) : State := (List.range 2).foldl (fun s c => applyThrough old new c s) s

end Sys2Proof.Machine
end

