-- ==== Sys2Proof/Machine/PaceCalc.lean ====
section
/-! DEFINITION. The fabric's pace and its supply (R28 to R33, R111, R749, R750). -/

namespace Sys2Proof.Machine

/-- Line pitch in um (R111); 0 without a line sequence or an operating range. -/
def linePitch (c : Cfg) : Rat :=
  match c.seq, c.range with
  | some q, some r => (((q.k * q.pitch : Nat) : Int) + q.adj : Int) * (r.countNm : Rat) / ((q.k : Rat) * 65536000)
  | _, _ => 0

/-- Web lines per second at a web speed in um/s (R111). -/
def lineRate (c : Cfg) (v : Nat) : Rat := if linePitch c ≤ 0 then 0 else (v : Rat) / linePitch c

def maxSpeed (c : Cfg) : Nat := match c.range with | some r => r.maxSpeed | none => 0
def minSpeed (c : Cfg) : Nat := match c.range with | some r => r.minSpeed | none => 0

/-- Pixels of a web line over all slots and fields. -/
def linePixels (c : Cfg) : Nat :=
  ((List.range 24).map fun s => if ingestOn c s then (vget c.link s).width * fieldsOf c else 0).sum

/-- The planned pixel rate in pixels per second (R30). -/
def pixelRate (c : Cfg) : Rat := (linePixels c : Rat) * lineRate c (maxSpeed c)

/-- The required pace (R30). -/
def requiredPace (c : Cfg) : Rat := 1500 * pixelRate c / 96000000000

/-- The target pace (R30). -/
def targetPace (c : Cfg) : Nat := (requiredPace c * 112 / 100).ceil.toNat

/-- The scaled pace table at a VFAB and a temperature (R749). -/
def scaledPace (scale mv : Nat) (temp : Int) : Rat := (Config.paceTable mv temp : Rat) * scale / 1024

/-- Every junction temperature from the present one to 100 degrees (R31). -/
def tempsTo100 (tj : Int) : List Int := (List.range ((100 - tj).toNat + 1)).map fun i => if 100 < tj then tj else tj + i

/-- The lowest pace at a VFAB over those temperatures. -/
def lowestPace (scale mv : Nat) (tj : Int) : Rat := (tempsTo100 tj).foldl (fun m t => min m (scaledPace scale mv t)) (scaledPace scale mv tj)

/-- VFAB steps of 5 mV from 0.60 V to 0.95 V. -/
def vfabSteps : List Nat := (List.range 71).map fun i => 600 + 5 * i

/-- The lowest VFAB with at least a pace at every temperature (R31, R750). -/
def vfabFor (scale : Nat) (tj : Int) (pace : Nat) : Option Nat := vfabSteps.find? fun mv => decide ((pace : Rat) ≤ lowestPace scale mv tj)

/-- VFAB is set for a configuration (R31, R121); where none meets the target the highest is kept in use. -/
def paceTake (c : Cfg) (s : State) : State :=
  let target := targetPace c
  { s with pace := { s.pace with
    required := requiredPace c
    target := target
    vfabMv := (vfabFor s.pace.scale s.sense.tj target).getD 950 } }

/-- One pace figure (R28, R33). -/
def paceUpdate (figure : Nat) (s : State) : State :=
  let p := { s.pace with figure := figure % 65536, lowest := some (match s.pace.lowest with | some l => min l (figure % 65536) | none => figure % 65536) }
  let s := { s with pace := p }
  if s.gauge.trigEnabled && decide ((p.figure : Rat) < p.required * 104 / 100) then
    if p.vfabMv < 950 then
      raise 0x000 p.figure 0 { s with pace := { p with vfabMv := p.vfabMv + 5, events := wrap32 (p.events + 1), steps := wrap32 (p.steps + 1) } }
    else raise 0x000 p.figure 1 { s with pace := { p with events := wrap32 (p.events + 1), lowEvents := wrap32 (p.lowEvents + 1) } }
  else s

/-- PACE_SCALE from 16 figures (R749): the value, and whether the clamp changed it. -/
def paceScale (figures : List Nat) (tj : Int) : Nat × Bool :=
  let entry := Config.paceTable 820 tj
  if entry = 0 ∨ figures = [] then (1024, false)
  else
    let v := (roundDiv ((figures.sum * 1024 : Nat) : Int) (figures.length * entry)).toNat
    let c := max 922 (min 1126 v)
    (c, decide (c ≠ v))

/-- Start-up step 6 ends (R749, R750). -/
def paceCalibrate (figures : List Nat) (s : State) : State :=
  let r := paceScale figures s.sense.tj
  { s with pace := { s.pace with scale := r.1, clamped := r.2, vfabMv := (vfabFor r.1 s.sense.tj 300).getD 950 } }

/-- PACE_STATUS reply body. -/
def paceBody (s : State) : Bytes :=
  let p := s.pace
  le 2 p.figure ++ le 2 (p.lowest.getD 0) ++ le 2 (p.required * 10 + 1 / 2).floor.toNat ++ le 2 p.target ++ le 2 p.vfabMv ++ leI 2 s.sense.tj ++
  le 4 p.events ++ le 4 p.lowEvents ++ le 4 p.steps

end Sys2Proof.Machine
end

