-- ==== Sys2Proof/Machine/TimeOps.lean ====
section
/-! DEFINITION. The operations of time: steps and slews of the local clock, the servo, PTP ports and ring time ("Time and network time",
R654 to R674). -/

namespace Sys2Proof.Machine

def setClockOf (f : Clock → Clock) (s : State) : State := { s with time := { s.time with clock := f s.time.clock } }

def timeCfg (s : State) : TimeCfg := (cfgNow s).time
def ptpCfg (s : State) (p : Nat) : PtpCfg := vget (cfgNow s).ptp p

/-- A signed value that saturates at 32 bits. -/
def sat32 (v : Int) : Int := clampInt (-2147483648) 2147483647 v

/-! ### The clock (R656, R663, R664) -/

def nominalAddend : Nat := 8589934592

/-- R656. -/
def addendOk (v : Nat) : Bool := inRange 8585639625 8594229559 v

/-- The clock's time in ns. -/
def clockNs (c : Clock) : Nat := c.seconds * 1000000000 + c.ns

/-- A step (R663): SECONDS and NS take new values and FRAC is 0; EV 0x3D0 carries the step. -/
def stepClock (ns : Nat) (s : State) : State :=
  let old := clockNs s.time.clock
  let s := { s with time := { s.time with
    clock := { s.time.clock with seconds := ns / 1000000000 % 2 ^ 48, ns := ns % 1000000000, frac := 0 }
    steps := wrap32 (s.time.steps + 1) } }
  raise 0x3D0 (sat32 ((ns : Int) - old)) 0 s

/-- A slew of `ns` is requested; it adds to what is left of one in progress (R664). -/
def addSlew (ns : Int) (s : State) : State :=
  let ppm := (timeCfg s).maxSlew
  setClockOf (fun c => { c with slew := c.slew + ns * 2 ^ 32, slewPpm := ppm }) s

/-- What is left of a slew, in ns. -/
def slewLeft (c : Clock) : Int := roundShift c.slew 32

/-- What is left of a slew is less than a cycle's part of it: it is applied, and the clock returns to ADDEND (R664). -/
def endSlew (s : State) : State :=
  let c := s.time.clock
  if c.slew.natAbs ≤ ((slewAddend c : Int) - c.addend).natAbs then setClockOf (fun c => { setClock c (clockUnits c + c.slew) with slew := 0 }) s else s

/-! ### The servo (R668, R672, R674) -/

def setLocked (b : Bool) (s : State) : State :=
  if s.time.locked = b then s else raise 0x3D3 0 0 { s with time := { s.time with locked := b } }

/-- ADDEND as the servo sets it: within MAX_SLEW_PPM of nominal; the manual gives no control law, so its value there is free (assumption
67). -/
def servoAddend (s : State) : Nat × State :=
  let r := freshValue s
  let w := nominalAddend * (timeCfg s).maxSlew / 1000000
  (nominalAddend - w + r.1 % (2 * w + 1), r.2)

/-- LOCKED counts the measurements within LOCK_NS (R668). -/
def countLock (offset : Int) (s : State) : State :=
  if offset.natAbs ≤ (timeCfg s).lockNs then
    let n := min 16 (s.time.lockCount + 1)
    let s := { s with time := { s.time with lockCount := n } }
    if n = 16 then setLocked true s else s
  else setLocked false { s with time := { s.time with lockCount := 0 } }

/-- One measured offset of the local clock from its source: it is stepped, slewed or steered (R668). A later measurement replaces what is
left of a slew that an earlier one began (assumption 67). -/
def discipline (offset : Int) (delay : Nat) (s : State) : State :=
  let c := timeCfg s
  let s := { s with time := { s.time with offset, pathDelay := delay, holdover := false } }
  let s := if offset.natAbs < c.stepNs then { s with time := { s.time with stepBlocked := false } } else s
  let s :=
    if c.stepNs < offset.natAbs then
      if s.gauge.trigEnabled then
        let s := addSlew (-offset) (setClockOf (fun k => { k with slew := 0 }) s)
        if s.time.stepBlocked then s else raise 0x3D4 0 0 { s with time := { s.time with stepBlocked := true } }
      else stepClock ((clockNs s.time.clock : Int) - offset).toNat (setClockOf (fun k => { k with slew := 0 }) s)
    else
      let r := servoAddend s
      setClockOf (fun k => { k with addend := r.1, slew := 0 }) r.2
  countLock offset s

/-- The clock holds: it runs on at the last ADDEND with no slew (R674). -/
def holdClock (s : State) : State :=
  let was := s.time.locked
  let s := setClockOf (fun c => { c with slew := 0 }) { s with time := { s.time with holdover := true, locked := false, lockCount := 0 } }
  raise 0x3D5 1 0 (if was then raise 0x3D3 0 0 s else s)

/-! ### PTP ports (R666, R667, R669) -/

/-- Port p enters a state, with its event (R667). -/
def setPtpState (p : Nat) (st : PtpState) (s : State) : State :=
  if (vget s.time.ports p).state = st then s else raise (0x3D1 + p) (ptpCode st) 0 (setEth p (fun x => { x with state := st }) s)

/-- With BOUNDARY clear, an ordinary clock runs on one port: the lower-numbered of those with PTP enabled (assumption 68). -/
def ptpRuns (s : State) (p : Nat) : Bool :=
  let on := fun q => (ptpCfg s q).enable && decide ((ptpCfg s q).speed ≠ 0)
  on p && ((timeCfg s).boundary || decide (p = 0) || !on 0)

/-- The local clock's own data set. -/
def localAnnounce (s : State) : Announce :=
  let c := timeCfg s
  { priority1 := c.priority1, clockClass := c.clockClass, accuracy := c.accuracy, variance := Config.clockVariance, priority2 := c.priority2,
    identity := Config.clockIdentity }

/-- The order of the default BMCA: priority1, clockClass, clockAccuracy, variance, priority2, identity, then steps removed (IEEE 1588-2019,
assumption 68). -/
def announceKey (a : Announce) : List Nat := [a.priority1, a.clockClass, a.accuracy, a.variance, a.priority2, a.identity, a.steps]

def lexLess : List Nat → List Nat → Bool
  | a :: as, b :: bs => decide (a < b) || (decide (a = b) && lexLess as bs)
  | _, _ => false

def betterAnnounce (a b : Announce) : Bool := lexLess (announceKey a) (announceKey b)

/-- The port with the best Announce, and that Announce. -/
def bestPort (s : State) : Option (Nat × Announce) :=
  let of := fun p => if ptpRuns s p then (vget s.time.ports p).best.map fun a => (p, a) else none
  match of 0, of 1 with
  | some x, some y => if betterAnnounce y.2 x.2 then some y else some x
  | some x, none => some x
  | none, y => y

/-- The state decision of the default BMCA for a port (IEEE 1588-2019, assumption 68). -/
def decideState (s : State) (p : Nat) : PtpState :=
  let x := vget s.time.ports p
  let c := timeCfg s
  let mine := localAnnounce s
  let asMaster := if c.slaveOnly then PtpState.listening else .master
  match x.best, bestPort s with
  | none, none => if x.state = .listening then .listening else asMaster
  | some e, _ =>
    if inRange 1 127 c.clockClass && !c.slaveOnly then if betterAnnounce mine e then .master else .passive
    else if !c.slaveOnly && betterAnnounce mine e then .master
    else
      match bestPort s with
      | some (q, b) =>
        if q = p then if x.state = .slave then .slave else .uncalibrated
        else if b.identity = e.identity then .passive else if c.slaveOnly then .passive else .preMaster
      | none => asMaster
  | none, some _ => if x.state = .listening then .listening else if c.slaveOnly then .listening else if x.state = .master then .master else .preMaster

/-- GM_IDENTITY follows the port that is slave; a change raises EV 0x3D6 (R675). -/
def followGm (s : State) : State :=
  let gm := match bestPort s with
    | some (p, a) => let st := (vget s.time.ports p).state; if st = .slave ∨ st = .uncalibrated then a.identity else 0
    | none => 0
  if s.time.gm = gm then s else raise 0x3D6 0 0 { s with time := { s.time with gm } }

/-- Both running ports take the state that the BMCA gives them. -/
def runBmca (s : State) : State :=
  let one := fun p s =>
    let st := (vget s.time.ports p).state
    if !ptpRuns s p ∨ !(vget s.time.ports p).linkUp ∨ st = .faulty ∨ st = .disabled ∨ st = .initializing then s else setPtpState p (decideState s p) s
  followGm (one 1 (one 0 s))

/-- PTP on a port starts again at INITIALIZING, and listens once the link is up (R667). -/
def restartPtp (p : Nat) (s : State) : State :=
  let s := setEth p (fun x => { ({ linkUp := x.linkUp, state := x.state } : EthPort) with lastSyncAt := s.now }) s
  if !ptpRuns s p then setPtpState p .disabled s
  else
    let s := setPtpState p .initializing s
    if (vget s.time.ports p).linkUp then setPtpState p .listening s else s

/-- Table 15-2: what the profile does not take. -/
def ptpForeign (s : State) (p : Nat) (m : PtpMsg) : Bool :=
  let c := timeCfg s
  decide (m.version ≠ 2) || decide (1 < m.minor) || decide (m.domain ≠ c.domain) || decide (127 < m.domain) || m.foreign || (m.udp != (ptpCfg s p).udp) ||
  (match m.kind with
    | .management | .signalling => true
    | .delayReq | .delayResp => c.peer
    | .pdelayReq | .pdelayResp | .pdelayFollowUp => !c.peer
    | _ => false)

/-- The offset of a Sync: receive time less origin time less the mean path delay; the port becomes SLAVE with its first (R668). -/
def takeSync (p : Nat) (origin recv : Int) (s : State) : State :=
  let s := setEth p (fun x => { x with lastSync := some (origin, recv), lastSyncAt := s.now }) s
  let st := (vget s.time.ports p).state
  if (timeCfg s).source ≠ 1 ∨ !(st = .slave ∨ st = .uncalibrated) then s
  else
    let d := (vget s.time.ports p).pathDelay
    followGm (discipline (recv - origin - d) d (setPtpState p .slave s))

/-- A running port takes a message of its profile. Received times carry INGRESS_CORR (R665). -/
def takePtp (p : Nat) (m : PtpMsg) (s : State) : State :=
  let x := vget s.time.ports p
  let recv := m.received + (ptpCfg s p).ingress
  let answers := decide (x.state = .master)
  match m.kind with
  | .sync =>
    if m.twoStep then setEth p (fun x => { x with syncWait := some (m.seq, recv, m.correction) }) s else takeSync p (m.origin + m.correction) recv s
  | .followUp =>
    match x.syncWait with
    | some (seq, at_, corr) =>
      if seq = m.seq then takeSync p (m.origin + m.correction + corr) at_ (setEth p (fun x => { x with syncWait := none }) s) else s
    | none => s
  | .announce => runBmca (setEth p (fun x => { x with best := some { m.announce with steps := m.announce.steps + 1 } }) s)
  | .delayReq => if answers then out (.ptp p .delayResp m.seq recv) s else s
  | .delayResp =>
    match x.delaySent, x.lastSync with
    | some (seq, t3), some (t1, t2) =>
      if seq = m.seq then setEth p (fun x => { x with delaySent := none, pathDelay := (Int.fdiv ((t2 - t1) + (m.origin - m.correction - t3)) 2).toNat }) s else s
    | _, _ => s
  | .pdelayReq => out (.ptp p .pdelayFollowUp m.seq (clockNs s.time.clock + (ptpCfg s p).egress)) (out (.ptp p .pdelayResp m.seq recv) s)
  | .pdelayResp =>
    match x.delaySent with
    | some (seq, _) => if seq = m.seq then setEth p (fun x => { x with pdelay := some (m.origin, recv) }) s else s
    | none => s
  | .pdelayFollowUp =>
    match x.delaySent, x.pdelay with
    | some (seq, t1), some (t2, t4) =>
      if seq = m.seq then setEth p (fun x => { x with delaySent := none, pdelay := none, pathDelay := (Int.fdiv ((t4 - t1) - (m.origin + m.correction - t2)) 2).toNat }) s else s
    | _, _ => s
  | _ => s

/-- An interval of a port elapses and it sends its message (R666, R669). Transmitted times carry EGRESS_CORR. -/
def sendPtp (p : Nat) (kind : PtpTimer) (s : State) : State :=
  let x := vget s.time.ports p
  let c := ptpCfg s p
  let sent : Int := clockNs s.time.clock + c.egress
  let seq := (x.seqOut + 1) % 65536
  let bump (s : State) : State := setEth p (fun x => { x with seqOut := seq }) s
  match kind with
  | .sync => if x.state = .master then bump (out (.ptp p .followUp seq sent) (out (.ptp p .sync seq 0) s)) else s
  | .announce =>
    if x.state = .preMaster then setPtpState p .master s else if x.state = .master then bump (out (.ptp p .announce seq 0) s) else s
  | .delayReq =>
    if (timeCfg s).peer then bump (setEth p (fun x => { x with delaySent := some (seq, sent), pdelay := none }) (out (.ptp p .pdelayReq seq 0) s))
    else if x.state = .slave ∨ x.state = .uncalibrated then bump (setEth p (fun x => { x with delaySent := some (seq, sent) }) (out (.ptp p .delayReq seq 0) s))
    else s

/-! ### Time on the ring (R671 to R673, R690) -/

/-- Payload of a TIME message (R690). -/
def timePayload (s : State) : Bytes :=
  le 8 s.time.clock.seconds ++ le 4 s.time.clock.ns ++ zeros 4 ++ zeros 8 ++ le 1 s.ring.moduleId ++ zeros 7

/-- Mean of the last 16 delays of a link, in ns (R671). -/
def linkDelay (s : State) (port : Nat) : Nat :=
  let l := vget s.time.linkDelays port
  if l.length = 0 then 0 else (roundDiv ((l.sum : Nat) : Int) l.length).toNat

/-- A time message forwarded by this module: residence time, up to the 800 ns of R685 and free, and the delay of the link it came by are
added to CORRECTION. -/
def forwardTime (port : Nat) (payload : Bytes) (s : State) : Bytes × State :=
  let r := freshValue s
  let add : Int := ((r.1 % 801 + linkDelay s port : Nat) : Int) * 65536
  (payload.take 16 ++ leI 8 (s64 payload 16 + add) ++ payload.drop 24, r.2)

/-- A copy of a message that came the longer way: one with fewer hops was taken within half a period (R690, assumption 69). -/
def longerCopy (s : State) (hops : Nat) : Bool :=
  match s.time.ringMsgAt, s.time.ringHops with
  | some t, some h => decide (h < hops) && decide (s.now < t + 500000)
  | _, _ => false

/-- A time message of the ring master (R672). -/
def takeRingTime (port hops : Nat) (payload : Bytes) (s : State) : State :=
  let c := timeCfg s
  if c.source ≠ 2 ∨ c.ringMaster ≠ u8 payload 24 then s
  else if s.ring.enumerated && decide (s.ring.moduleId = c.ringMaster) then raise 0x3D5 2 0 s
  else if longerCopy s hops then s
  else
    let path := Int.fdiv (s64 payload 16) 65536 + linkDelay s port
    let master : Int := ((u64 payload 0 * 1000000000 + u32 payload 8 : Nat) : Int) + path
    let s := { s with time := { s.time with ringMsgAt := some s.now, ringHops := some hops, hops } }
    discipline ((clockNs s.time.clock : Int) - master) path.toNat s

/-- The time settings of a new configuration come into force (Tables 15-3 and 15-4, R673). -/
def timeTake (old new : Cfg) (s : State) : State :=
  let s :=
    if old.time.source ≠ new.time.source then
      let s := setLocked false (setClockOf (fun c => { c with slew := 0 }) s)
      let s := { s with time := { s.time with lockCount := 0, holdover := false, stepBlocked := false, hops := 0, ringMsgAt := none, ringHops := none } }
      if new.time.source = 2 ∧ s.ring.enumerated ∧ new.time.ringMaster = s.ring.moduleId then raise 0x3D5 2 0 s else s
    else s
  let one := fun p s =>
    if vget old.ptp p = vget new.ptp p then s
    else restartPtp p (if (vget new.ptp p).speed = (vget old.ptp p).speed then s else setEth p (fun x => { x with linkUp := false }) s)
  let s := one 1 (one 0 s)
  if old.time = new.time then s else runBmca s

end Sys2Proof.Machine
end

