-- ==== Sys2Proof/Machine/RingOps.lean ====
section
/-! DEFINITION. The operations of the Janum ring ("Janum ring and redundant pairs", R676 to R694): the link ports, packets, fold and
close, enumeration, relayed queues. -/

namespace Sys2Proof.Machine

/-! ### Ports (R680, Table 16-1) -/

def isPortUp (st : PortState) : Bool := decide (st = .up) || decide (st = .frUp)
def portUp (s : State) (p : Nat) : Bool := isPortUp (vget s.ring.ports p).state

/-- RING_CONFIG enables the port, and its cage's module may be used (R780). -/
def portEnabled (s : State) (p : Nat) : Bool :=
  let r := (cfgNow s).ring
  (match p with | 0 => r.je | 1 => r.jw | _ => r.jm) && (vget s.cages p).enabled

/-- A port changes state: EV 0x3E0 + p. -/
def enterPort (p : Nat) (st : PortState) (s : State) : State := raise (0x3E0 + p) 0 0 (setLinkPort p (fun x => { x with state := st, since := s.now }) s)

/-- The port has been in its state for `ns`. -/
def portAged (s : State) (p ns : Nat) : Bool := decide ((vget s.ring.ports p).since + ns ≤ s.now)

/-! ### Packets (R682 to R685) -/

/-- A packet is handed to a port, which holds up to 256 unacknowledged. An injected fault (R739) makes its first attempt, or both, fail. -/
def transmit (p : Nat) (pkt : RingPkt) (s : State) : State :=
  let x := vget s.ring.ports p
  if 256 ≤ x.unacked.length then setLinkPort p (fun x => { x with waiting := x.waiting ++ [pkt] }) s
  else
    let pkt := { pkt with seq := x.nextSeq }
    out (.ringPacket p pkt) (setLinkPort p (fun x => { x with
      nextSeq := wrap32 (x.nextSeq + 1)
      unacked := x.unacked ++ [{ pkt := pkt, sentAt := s.now, retried := false }]
      cnt := { x.cnt with tx := wrap32 (x.cnt.tx + 1) } }) s)

/-- Whether any route leads to a module. -/
def hasRoute (m : RingModule) : Bool := m.hopsEast.isSome || m.hopsWest.isSome

/-- Serials of the modules that can be reached. -/
def reachableSerials (ms : List RingModule) : List Nat := (ms.filter hasRoute).map (·.serial)

/-- The routes change; EV 0x3E4 when a module becomes reachable or unreachable (R688). -/
def setRoutes (ms : List RingModule) (s : State) : State :=
  let was := reachableSerials s.ring.modules
  let now := reachableSerials ms
  let s := { s with ring := { s.ring with modules := ms } }
  if was.all now.contains && now.all was.contains then s else raise 0x3E4 0 0 s

/-- Port to a module: the direction with fewer hops, east on a tie (R685). -/
def routeTo (s : State) (m : RingModule) : Option Nat :=
  match m.hopsEast, m.hopsWest with
  | some e, some w => if w < e then some 1 else some 0
  | some _, none => if portUp s 0 then some 0 else none
  | none, some _ => if portUp s 1 then some 1 else none
  | none, none => none

def moduleById (s : State) (id : Nat) : Option RingModule := s.ring.modules.find? fun m => decide (m.id = some id)

/-- A packet goes on through a port; EDGE packets towards a KL640 are discarded (R681). -/
def passOn (p : Nat) (pkt : RingPkt) (s : State) : State :=
  if !portUp s p then s
  else if (vget s.ring.ports p).state = .frUp ∧ pkt.cls = 2 then setLinkPort p (fun x => { x with cnt := { x.cnt with frDiscards := wrap32 (x.cnt.frDiscards + 1) } }) s
  else transmit p { pkt with hops := pkt.hops + 1 } s

/-- A packet received: acknowledged and counted; one for other modules goes on. What it carries for this module arrives as the command or
event of its own (R684, R685). Time messages take up this hop's residence time and link delay (R671). -/
def ringReceive (p : Nat) (pkt : RingPkt) (s : State) : State :=
  let s := out (.ringAck p pkt.seq) (setLinkPort p (fun x => { x with cnt := { x.cnt with rx := wrap32 (x.cnt.rx + 1) } }) s)
  let own := s.ring.enumerated && decide (pkt.dst = s.ring.moduleId)
  let mine := s.ring.enumerated && decide (pkt.src = s.ring.moduleId)
  if 2 ≤ p ∨ own ∨ mine then s
  else
    let r := if pkt.cls = 1 then forwardTime p pkt.payload s else (pkt.payload, s)
    let pkt := { pkt with payload := r.1 }
    let s := r.2
    if pkt.dst = 0xFE then passOn (1 - p) pkt s
    else
      match (moduleById s pkt.dst).bind (routeTo s) with
      | some q => passOn q pkt s
      | none => s

/-! ### Fold and close (R687, R688) -/

/-- The relays of a module that cannot be reached stall; at a source without its gateway the records not acknowledged are sent again
later (R694). -/
def stallRelays (s : State) : State :=
  let down (r : RelayState) : Bool := !s.ring.modules.any fun m => decide (m.id = some r.srcModule) && hasRoute m
  let mark (r : RelayState) : RelayState := if down r && r.stallSince.isNone then { r with stallSince := some s.now } else r
  let gone := (s.ring.sources.filter down).map (·.srcQueue)
  let s := { s with ring := { s.ring with relays := s.ring.relays.map mark, sources := s.ring.sources.map mark } }
  gone.foldl (fun s q => setQueue q (fun x => { x with rd := x.rel }) s) s

/-- The hop counts of one direction are lost with a port. -/
def dropRoutes (p : Nat) (ms : List RingModule) : List RingModule := ms.map fun m => if p = 0 then { m with hopsEast := none } else { m with hopsWest := none }

/-- The ring folds at port p: routes change, packets waiting on the dead port go the other way with REROUTED set, a topology message goes the
other way, and EV 0x3E3 is raised. -/
def foldRing (p : Nat) (old : LinkPort) (s : State) : State :=
  let s := setLinkPort p (fun x => { x with cnt := { x.cnt with folds := wrap32 (x.cnt.folds + 1) } }) s
  let s := setRoutes (dropRoutes p s.ring.modules) { s with ring := { s.ring with folded := true } }
  let s := raise 0x3E3 0 0 (stallRelays s)
  let q := 1 - p
  if portUp s q then
    (old.unacked.map (·.pkt) ++ old.waiting).foldl (fun s k => transmit q { k with rerouted := true } s) (out (.topology q s.ring.modules) s)
  else s

/-- A port leaves UP, or gives up its bring-up. -/
def portFalls (p : Nat) (st : PortState) (cause : PortCause) (s : State) : State :=
  let old := vget s.ring.ports p
  let was := isPortUp old.state
  let s := setLinkPort p (fun x => { x with
    cause := cause
    neighbour := none
    unacked := []
    waiting := []
    cnt := { x.cnt with downs := wrap32 (x.cnt.downs + (if was && decide (st = .down) then 1 else 0)) } }) s
  let s := enterPort p st s
  if was && decide (p < 2) then foldRing p old s else s

/-- A neighbour's entry: one hop away through port p. -/
def addNeighbour (p : Nat) (n : Neighbour) (ms : List RingModule) : List RingModule :=
  let hop (m : RingModule) : RingModule := if p = 0 then { m with hopsEast := some 1 } else { m with hopsWest := some 1 }
  if ms.any fun m => decide (m.serial = n.serial) then ms.map fun m => if m.serial = n.serial then hop m else m
  else ms ++ [hop { serial := n.serial, forerunner := n.forerunner }]

/-- A port comes up. With both JE and JW up the ring closes; its neighbours learn the topology from it. -/
def portRises (p : Nat) (st : PortState) (s : State) : State :=
  let s := enterPort p st (setLinkPort p (fun x => { x with nativeFails := 0, cause := .none }) s)
  if 2 ≤ p then s
  else
    let s := match (vget s.ring.ports p).neighbour with
      | some n => setRoutes (addNeighbour p n s.ring.modules) s
      | none => s
    let s := if portUp s (1 - p) then raise 0x3E3 0 0 (out (.topology (1 - p) s.ring.modules) { s with ring := { s.ring with folded := false } }) else s
    out (.topology p s.ring.modules) s

/-- The port is fenced: a fault log entry of class LASTING (R684, R720). -/
def fencePort (p : Nat) (pkt : RingPkt) (s : State) : State :=
  let s := setLinkPort p (fun x => { x with cnt := { x.cnt with fences := wrap32 (x.cnt.fences + 1) } }) s
  (fenceUnit { unit := 0x0F, index := p, cause := 1, detail := le 1 pkt.cls ++ zeros 3 ++ le 4 pkt.seq } (portFalls p .fenced .fenced s)).2

/-- A packet on the port has failed an attempt: it is sent once more, or the port is fenced (R684). -/
def packetFails (p seq : Nat) (s : State) : State :=
  match (vget s.ring.ports p).unacked.find? fun u => decide (u.pkt.seq = seq) with
  | none => s
  | some u =>
    if u.retried then fencePort p u.pkt s
    else
      out (.ringPacket p u.pkt) (setLinkPort p (fun x => { x with
        unacked := x.unacked.map fun v => if v.pkt.seq = seq then { v with retried := true, sentAt := s.now } else v
        cnt := { x.cnt with crcRetries := wrap32 (x.cnt.crcRetries + 1), tx := wrap32 (x.cnt.tx + 1) } }) s)

/-- A packet of this module goes out through a port; an injected fault of KIND 3 makes one attempt or both fail (R739). -/
def sendPacket (p : Nat) (pkt : RingPkt) (s : State) : State :=
  if !portUp s p then s
  else
    let seq := (vget s.ring.ports p).nextSeq
    let inj := takeInjection 3 p (transmit p pkt s)
    match inj.1 with
    | 0 => inj.2
    | 1 => packetFails p seq inj.2
    | _ => packetFails p seq (packetFails p seq inj.2)

/-- The next hop acknowledges a packet: its place is free, and a packet that waits goes out. A retry that succeeded is counted (R684). -/
def packetAcked (p seq : Nat) (s : State) : State :=
  match (vget s.ring.ports p).unacked.find? fun u => decide (u.pkt.seq = seq) with
  | none => s
  | some u =>
    let s := setLinkPort p (fun x => { x with unacked := x.unacked.filter fun v => decide (v.pkt.seq ≠ seq) }) s
    let s := if u.retried then raiseOnce 0x3E5 0 0 (countTransient 5 s) else s
    match (vget s.ring.ports p).waiting with
    | k :: rest => transmit p k (setLinkPort p (fun x => { x with waiting := rest }) s)
    | [] => s

/-- A topology message: the module recomputes its routes; through a port that is down nothing can be reached (R687). -/
def takeTopology (ms : List RingModule) (folded : Bool) (s : State) : State :=
  let ms := if portUp s 0 then ms else dropRoutes 0 ms
  let ms := if portUp s 1 then ms else dropRoutes 1 ms
  let changed := s.ring.folded != folded
  let s := setRoutes ms { s with ring := { s.ring with folded := folded } }
  let s := stallRelays s
  let s := if changed then raise 0x3E3 0 0 s else s
  s.ring.sources.foldl (fun s r => relaySend r.srcQueue s) s

/-! ### Enumeration (R678, R679) -/

/-- A module's place on the ring: hops east of this one, hops west counting down. -/
def ringPlace (closed : Bool) (m : RingModule) : Option Int :=
  match m.hopsEast, m.hopsWest with
  | some e, _ => some e
  | none, some w => if closed then none else some (-(w : Int))
  | none, none => none

/-- The modules in the order in which the enumerator numbers them: by hops east from itself; in a folded ring those it reaches westward
follow (R678). The list holds this module too. -/
def enumOrder (closed : Bool) (ms : List RingModule) (first : RingModule) : List RingModule :=
  let at0 := (ringPlace closed first).getD 0
  let n : Int := ms.length
  let key (m : RingModule) : Int :=
    let d := (ringPlace closed m).getD 0 - at0
    if closed then d % n else if 0 ≤ d then d else n - d
  sortBy (fun a b => decide (key a < key b)) ms

def lowestFreeId (used : List Nat) : Nat := ((List.range 64).find? fun i => !used.contains i).getD 63

/-- IDs for the modules that have none, in order: the lowest free each. -/
def numberAll : List RingModule → List Nat → List (Nat × Nat)
  | [], _ => []
  | m :: rest, used =>
    match m.id with
    | some i => (m.serial, i) :: numberAll rest used
    | none => let i := lowestFreeId used; (m.serial, i) :: numberAll rest (i :: used)

/-- This module as an entry of the ring. -/
def selfModule (s : State) : RingModule :=
  { serial := Config.serial, id := if s.ring.enumerated then some s.ring.moduleId else none, hopsEast := some 0, hopsWest := some 0, gateway := s.ring.gateway }

/-- The enumerator: the gateway with the lowest serial number. -/
def enumeratorOf : List RingModule → Option RingModule
  | [] => none
  | m :: ms =>
    match enumeratorOf ms with
    | some b => if m.gateway && decide (m.serial < b.serial) then some m else some b
    | none => if m.gateway then some m else none

/-- Enumeration assigns the IDs (R678). Without a gateway the modules stay unnumbered (R679). -/
def enumerate (s : State) : State :=
  let all := selfModule s :: s.ring.modules.filter hasRoute
  match enumeratorOf all with
  | none => s
  | some e =>
    let closed := portUp s 0 && portUp s 1 && !s.ring.folded
    let ids := numberAll (enumOrder closed all e) (all.filterMap (·.id))
    let idOf (serial : Nat) : Option Nat := (ids.find? fun x => decide (x.1 = serial)).map (·.2)
    let new := idOf Config.serial
    let ms := s.ring.modules.map fun m => if m.id.isSome then m else { m with id := idOf m.serial }
    let changed := decide (ms ≠ s.ring.modules) || (!s.ring.enumerated && new.isSome)
    let r := { s.ring with modules := ms, moduleId := if s.ring.enumerated then s.ring.moduleId else new.getD 0, enumerated := s.ring.enumerated || new.isSome }
    let s := { s with ring := r }
    if changed then raise 0x3E4 0 0 s else s

/-! ### Relayed queues (R691 to R694) -/

/-- The relays of the configuration in force; a passive module opens none (R698). -/
def openRelays (s : State) : State :=
  let rs := if isPassive s then [] else (cfgNow s).ring.relays.filter (·.enable)
  { s with ring := { s.ring with relays := rs.map fun r => { localQueue := r.localQueue, srcModule := r.srcModule, srcQueue := r.srcQueue } } }

/-- The patch of a relayed record takes a ticket and goes to the local store. -/
def relayedPatch (q seq : Nat) (p : RelayPatch) (s : State) : State × Option Nat :=
  if p.header = [] ∨ (vget s.scribe.queues q).storeSize = 0 then (s, none)
  else
    match issueTicket s with
    | none => (setQueue q (fun x => { x with cnt := { x.cnt with noPatch := wrap32 (x.cnt.noPatch + 1) } }) (countNoTicket s), none)
    | some (w, s) =>
      let lost (s : State) : State := setQueue q (fun x => { x with cnt := { x.cnt with patchesLost := x.cnt.patchesLost + 1 } }) (endTicket w 1 s)
      let s := storeBytes q seq w (p.header ++ p.frames) lost s
      (s, if ticketLive s.ledger w then some w else none)

/-- A relayed record is placed with its own SEQ and a new ticket, and WR becomes that SEQ + 1 (R693). A record placed before is only
acknowledged; one for which no ticket is free stays at its source. -/
def relayPlace (r : RelayState) (rec_ : Bytes) (p : RelayPatch) (s : State) : State :=
  let q := r.localQueue
  let seq := u32 rec_ 0
  let x := vget s.scribe.queues q
  let ack := Emit.relayAck r.srcModule r.srcQueue seq
  let fed (s : State) : State := { s with ring := { s.ring with relays := s.ring.relays.map fun y =>
    if y.localQueue = q then { y with stallSince := none, stallRaised := false } else y } }
  if !x.on then s
  else if x.live ≠ [] ∧ !atOrAfter seq x.wr then out ack (fed s)
  else
    match issueTicket s with
    | none => countNoTicket s
    | some (w, s) =>
      let empty := decide (x.live = [])
      let s := setQueue q (fun y => { y with
        wr := seq
        rd := if x.rd = x.wr then seq else x.rd
        rel := if empty then seq else x.rel }) s
      let pt := relayedPatch q seq p s
      out ack (fed (writeRecord q (currentStrip s) w pt.2 (padTo 64 rec_) pt.1))

/-- The gateway acknowledges a record: its source releases it, and the ticket ends COMPLETE (R693). The acknowledgement of a queue with no
open relay opens one (DESIGN CHOICE, assumption 70). -/
def relayAcked (q seq : Nat) (s : State) : State :=
  let s :=
    if relayedAway s q then s
    else
      match s.ring.modules.find? fun m => m.gateway && hasRoute m with
      | some m => { s with ring := { s.ring with sources := s.ring.sources ++ [{ srcModule := m.id.getD 0xFF, srcQueue := q }] } }
      | none => s
  let upto := wrap32 (seq + 1)
  let x := vget s.scribe.queues q
  let s := if later32 upto x.rd then s else (releaseTo q upto s).2
  relaySend q { s with ring := { s.ring with sources := s.ring.sources.map fun r => if r.srcQueue = q then { r with stallSince := none, stallRaised := false } else r } }

/-- A relay has stalled for more than 10 ms (R694). -/
def relayStalled (q : Nat) (s : State) : State :=
  let due (r : RelayState) : Bool := !r.stallRaised && r.stallSince.any fun t => decide (t + 10000000 ≤ s.now)
  let here (r : RelayState) : Bool := decide (r.localQueue = q) && due r
  let away (r : RelayState) : Bool := decide (r.srcQueue = q) && due r
  if s.ring.relays.any here || s.ring.sources.any away then
    raise 0x3EC 0 0 { s with ring := { s.ring with
      relays := s.ring.relays.map fun r => if here r then { r with stallRaised := true } else r
      sources := s.ring.sources.map fun r => if away r then { r with stallRaised := true } else r } }
  else s

/-- RING_CONFIG comes into force: a port switched off goes DOWN, and relays open (R691). -/
def ringTake (old new : Cfg) (s : State) : State :=
  if old.ring = new.ring then s
  else
    let off (p : Nat) (s : State) : State :=
      if portEnabled s p ∨ (vget s.ring.ports p).state = .down ∨ (vget s.ring.ports p).state = .fenced then s else portFalls p .down .none s
    let s := off 2 (off 1 (off 0 s))
    if old.ring.relays = new.ring.relays then s else openRelays s

end Sys2Proof.Machine
end

