-- ==== Sys2Proof/Machine/PairOps.lean ====
section
/-! DEFINITION. The operations of a redundant pair ("Janum ring and redundant pairs", R695 to R715): pairing, the mirror stream, digests,
resynchronisation. -/

namespace Sys2Proof.Machine

def setPair (f : PairUnit → PairUnit) (s : State) : State := { s with pair := f s.pair }

/-! ### Roles (R697, R709, R715) -/

/-- Frames in formation or waiting end when a module becomes passive and forms no more (R698, assumption 73). -/
def dropViews (s : State) : State := (List.range 8).foldl (fun s v => (dropFrames v 5 s).2) s

/-- The module is passive from now on: its uplinks relay, it opens no relay and forms no frame (R697, R698). -/
def becomePassive (cause : PairCause) (s : State) : State := openRelays (dropViews (setUplink true (setRole .passive cause s)))

/-- The module leaves pairs and stands alone: its uplinks are its own (R697, Table 16-6). -/
def becomeSolo (cause : PairCause) (s : State) : State :=
  let s := setPair (fun p => { p with chosen := none, atStrip := none, resyncSince := none, snapshot := none, work := [], theirs := [] }) (abortSwitch s)
  openRelays (setUplink false (setRole .solo cause s))

/-- A passive module that is no longer aligned with its partner keeps triggering off (DESIGN CHOICE, assumption 76). -/
def quiet (s : State) : State := if isPassive s then stopNow s else s

/-- PAIRING begins anew: nothing of an earlier alignment is kept. -/
def becomePairing (cause : PairCause) (s : State) : State :=
  let s := quiet s
  setRole .pairing cause
    (setPair (fun p => { p with chosen := none, partner := none, atStrip := none, resyncSince := none, snapshot := none, work := [], theirs := [] })
      (abortSwitch s))

/-- JM is UP and PAIR_CONFIG is enabled in force: PAIRING (R709). -/
def tryPairing (s : State) : State :=
  if (cfgNow s).pair.enable && portUp s 2 && decide (s.pair.role = .solo) then becomePairing .config s else s

/-- PAIR_CONFIG comes into force (R709). -/
def pairTake (old new : Cfg) (s : State) : State := if old.pair = new.pair then s else tryPairing s

/-! ### Strips ahead -/

/-- Whether strip a comes after strip b, by their first lines under R11. -/
def stripAfter (s : State) (a b : Nat) : Bool := let k := (cfgNow s).shift; later32 (stripFirst k a) (stripFirst k b)

/-- A strip `n` strips after the current one. -/
def stripAhead (s : State) (n : Nat) : Nat := (currentStrip s + n) % 2 ^ (32 - (cfgNow s).shift)

/-! ### The mirror stream (R700 to R702) -/

/-- The owner's mark: pending or ended (R701). -/
def takePartnerMark (t : Nat) (m : Mark) (s : State) : State :=
  let rest := s.pair.partnerMarks.filter fun p => !(decide (p.station = t) && decide (p.mark.ticket = m.ticket))
  setPair (fun p => { p with partnerMarks := if m.state = .complete ∨ m.state = .failed then rest else rest ++ [⟨t, m⟩] }) s

/-- A pending mark of the lost partner ends FAILED(PARTNER_LOST), reported with the partner's ticket (R713). -/
def losePartnerMark (e : PartnerMark) (s : State) : State :=
  let m := { e.mark with state := .failed, cause := .partnerLost }
  raise (0x230 + e.station) m.ticket (markCauseCode .partnerLost)
    (setStation e.station (fun x => { x with ended := (m :: x.ended).take 256, cnt := countMark .partnerLost x.cnt }) s)

/-- The partner is lost: its pending marks end, and later marks on shadow stations end the same way (R713, Table 16-6). -/
def losePartner (s : State) : State :=
  let ms := s.pair.partnerMarks
  ms.foldl (fun s m => losePartnerMark m s) (setPair (fun p => { p with partnerMarks := [], partnerLost := true }) s)

/-- The active WebPos at a strip boundary: a passive module takes it (R700). `count` is the module's own WebPos at that count. -/
def takeWebPos (pos own : Int) (s : State) : State :=
  if !isPassive s then s
  else
    let d := pos - own
    let s := { s with gauge := { s.gauge with webPos := s.gauge.webPos + d } }
    if 2 * 65536 < d.natAbs then raise 0x3EB 0 0 (setPair (fun p => { p with posResyncs := wrap32 (p.posResyncs + 1) }) s) else s

/-! ### Digests (R706) -/

/-- Gap lines of each slot in ORDER. -/
def digestGapBytes (cfg : Cfg) (w : DigestWork) : Bytes :=
  (match cfg.grid with | some g => g.order | none => []).flatMap fun slot => le 4 (sget w.gaps slot 0)

/-- What a strip's digest is formed from, in the order of R706. -/
def digestBytes (cfg : Cfg) (w : DigestWork) : Bytes :=
  ((List.range 16).flatMap fun q => (w.recs.filter fun r => decide (r.1 = q)).flatMap (·.2)) ++ w.regions.getD [] ++ digestGapBytes cfg w

/-- The items of a strip are placed: Marquetry has passed it, and every queue has placed what it holds of it. -/
def itemsPlaced (s : State) (strip : Nat) : Bool :=
  let cfg := cfgAt s (stripFirst (cfgNow s).shift strip)
  let last := wrap32 (stripFirst cfg.shift strip + 2 ^ cfg.shift - 1)
  !(s.scribe.inbox.any fun i => atOrAfter last i.lastLine) && (List.range 16).all fun q => !(vget cfg.queue q).enable || sourcesDone s q last

/-- A strip is replaced by the running resync, and its digest counts for nothing (R707). -/
def replaced (s : State) (strip : Nat) : Bool :=
  (decide (s.pair.role = .passiveResync) || decide (s.pair.role = .pairing)) &&
    (match s.pair.atStrip with | some j => stripAfter s j strip | none => true)

/-- A mismatch at strip k: the passive module resynchronises from it, and expects the snapshot for its current strip + 3, which the active
module names from the same digests (R707, assumption 73). -/
def beginResync (k : Nat) (s : State) : State :=
  setPair (fun p => { p with resyncFrom := k, atStrip := some (stripAhead s 3), resyncSince := none, snapshot := none }) s

/-- This module's digest of a strip meets the partner's. -/
def compareDigest (strip ours theirs : Nat) (s : State) : State :=
  if isActive s then
    -- the active module names strip j and will take its snapshot (R707)
    if ours = theirs ∨ s.pair.role ≠ .active ∨ s.pair.atStrip.isSome then s else beginResync strip s
  else if !isPassive s || replaced s strip then s
  else
    let s := setPair (fun p => { p with lastDigest := strip }) s
    if ours = theirs then
      if s.pair.atStrip ≠ some strip then s
      else
        let was := s.pair.role
        let s := setPair (fun p => { p with atStrip := none, resyncs := wrap32 (p.resyncs + 1) }) s
        if was = .pairing then becomePassive .paired s else raise 0x3E8 0 0 (becomePassive .resumed s)
    else
      let s := raise 0x3E7 strip 0 (setPair (fun p => { p with mismatches := wrap32 (p.mismatches + 1) }) s)
      let s := beginResync strip s
      if s.pair.role = .passive then setRole .passiveResync .digest s else s

/-- The partner's digest arrives: it is compared now, or when this module's own is formed. -/
def takeDigest (strip crc : Nat) (s : State) : State :=
  match s.pair.digests.find? fun d => decide (d.1 = strip) with
  | some d => compareDigest strip d.2 crc s
  | none => setPair (fun p => { p with theirs := takeLast 64 (p.theirs ++ [(strip, crc)]) }) s

/-- The digest of a finished strip is formed, sent, and compared with one that waits. -/
def formDigest (w : DigestWork) (s : State) : State :=
  let crc := crc32c (digestBytes (cfgAt s (stripFirst (cfgNow s).shift w.strip)) w)
  let s := setPair (fun p => { p with
    work := p.work.filter fun x => decide (x.strip ≠ w.strip)
    digests := ((w.strip, crc) :: p.digests).take 64 }) s
  let s := out (.digest w.strip crc) s
  match s.pair.theirs.find? fun d => decide (d.1 = w.strip) with
  | some d => compareDigest w.strip crc d.2 (setPair (fun p => { p with theirs := p.theirs.filter fun x => decide (x.1 ≠ w.strip) }) s)
  | none => s

/-- Strips whose items are placed have their digests formed (R706). -/
def pairDigest (s : State) : State :=
  if !paired s then s
  else s.pair.work.foldl (fun s w => if w.regions.isSome && itemsPlaced s w.strip then formDigest w s else s) s

/-! ### Resynchronisation (R707, R708) -/

/-- Marquetry has processed the last line before strip j. -/
def beforeStrip (s : State) (j : Nat) : Bool :=
  match s.marq.last with
  | some l => decide (wrap32 (l + 1) = stripFirst (cfgAt s (wrap32 (l + 1))).shift j)
  | none => false

/-- At the end of the last line before strip j the active module takes its snapshot of Marquetry (R707). -/
def takeSnapshot (s : State) : State :=
  match s.pair.atStrip with
  | some j =>
    if isActive s && s.pair.snapshot.isNone && beforeStrip s j then
      setPair (fun p => { p with snapshot := some { strip := j, regions := s.marq.regions, gens := s.marq.gens, window := s.marq.window } }) s
    else s
  | none => s

/-- Records of a queue placed for the strips from k up to j. -/
def resyncRecords (s : State) (q k j : Nat) : List SnapRecord :=
  let x := vget s.scribe.queues q
  (x.live.filter fun r => !stripAfter s k r.strip && stripAfter s j r.strip).map fun r => { queue := q, seq := r.seq, bytes := benchRead s (recordOff x r.seq) 64 }

/-- WR of a queue before the records of strip j. -/
def wrBefore (s : State) (q j : Nat) : Nat :=
  let x := vget s.scribe.queues q
  match x.live.find? fun r => !stripAfter s j r.strip with
  | some r => r.seq
  | none => x.wr

/-- Once the records of strip j - 1 are placed, the snapshot goes to the partner with them (R707). -/
def sendSnapshot (s : State) : State :=
  match s.pair.snapshot with
  | some n =>
    let j := n.strip
    let k := s.pair.resyncFrom
    let before := (j + 2 ^ 32 - 1) % 2 ^ (32 - (cfgNow s).shift)
    if !isActive s || !itemsPlaced s before then s
    else
      let n := { n with records := (List.range 16).flatMap (fun q => resyncRecords s q k j), wr := (List.range 16).map (fun q => wrBefore s q j) }
      out (.snapshot n) (setPair (fun p => { p with snapshot := none, atStrip := none }) s)
  | none => s

/-- One queue takes the active's records of the strips replaced: its own end FAILED(OVERWRITTEN), with their patches (R707). -/
def resyncQueue (n : Snapshot) (k q : Nat) (s : State) : State :=
  let x := vget s.scribe.queues q
  if !x.on then s
  else
    let gone := x.live.filter fun r => !stripAfter s k r.strip
    let s := gone.foldl (fun s r => endRecord q r 1 s) s
    let new := n.records.filter fun r => decide (r.queue = q)
    let wr := n.wr.getD q x.wr
    let start := match new with | r :: _ => r.seq | [] => wr
    let s := setQueue q (fun y => { y with
      live := y.live.filter fun r => stripAfter s k r.strip
      wr := start
      cnt := { y.cnt with lost := wrap32 (y.cnt.lost + gone.length) } }) s
    let s := new.foldl (fun s r =>
      let t := issueTicket s
      let w := match t with | some (w, _) => w | none => 2 ^ 32
      let s := match t with | some (_, s) => s | none => countNoTicket s
      let s := benchWrite (recordOff x r.seq) r.bytes s
      setQueue q (fun y => { y with live := y.live ++ [{ seq := r.seq, strip := (n.strip + 2 ^ 32 - 1) % 2 ^ 32, ticket := w }] }) s) s
    setQueue q (fun y => { y with
      wr := wr
      rd := if later32 y.rd wr then wr else y.rd
      rel := if later32 y.rel wr then wr else y.rel
      head := 0 }) s

/-- Before Marquetry begins line j the passive module takes the snapshot (R707). -/
def applySnapshot (s : State) : State :=
  match s.pair.snapshot with
  | some n =>
    if !isPassive s || !beforeStrip s n.strip then s
    else
      let s := { s with marq := { s.marq with regions := n.regions, gens := n.gens, window := n.window } }
      let s := (List.range 16).foldl (fun s q => resyncQueue n s.pair.resyncFrom q s) s
      setPair (fun p => { p with snapshot := none, resyncSince := none }) s
  | none => s

/-- The passive Marquetry waits at the start of strip j for the snapshot (R708). -/
def pairHolds (s : State) : Bool :=
  isPassive s && s.pair.role ≠ .passive && s.pair.snapshot.isNone &&
    (match s.pair.atStrip with | some j => beforeStrip s j && !(s.pair.digests.any fun d => decide (d.1 = j)) | none => false)

/-- A snapshot arrives (R707). -/
def takeSnapshotRx (n : Snapshot) (s : State) : State :=
  if !isPassive s ∨ s.pair.role = .passive then s
  else applySnapshot (setPair (fun p => { p with snapshot := some n, atStrip := some n.strip, resyncSince := none }) s)

/-! ### Pairing (R709) -/

/-- The exchange's figures of this module. -/
def ownHello (s : State) : PairHello :=
  let c := (cfgNow s).pair
  { serial := Config.serial, portHome := c.portHome, axisOwner := c.axisOwner, partnerSerial := c.partner, preferActive := c.preferActive,
    triggering := s.gauge.trigEnabled, ringId := if s.ring.enumerated then some s.ring.moduleId else none }

/-- The check of R709, step 1: serials as PARTNER_SERIAL asks, complementary PORT_HOME, disjoint AXIS_OWNER. -/
def helloMatches (a b : PairHello) : Bool :=
  (decide (a.partnerSerial = 0) || decide (a.partnerSerial = b.serial)) && (decide (b.partnerSerial = 0) || decide (b.partnerSerial = a.serial)) &&
  decide (a.portHome ^^^ b.portHome = 4095) && decide (a.axisOwner &&& b.axisOwner = 0)

/-- R709, step 2. -/
def choosesSelf (a b : PairHello) : Bool :=
  if a.preferActive != b.preferActive then a.preferActive
  else if a.triggering != b.triggering then a.triggering
  else decide (a.serial < b.serial)

/-- The journal snapshot of the chosen active module, with its effective strip (R709, step 3). -/
def pairSnapshot (strip : Nat) (s : State) : JournalEntry :=
  .snapshot (cfgNow s) s.marq.active (s.dovetail.maps.toList.map (·.active)) (s.plane.slots.toList.map (·.active)) strip s.gauge.n0 s.gauge.origin
    s.gauge.trigEnabled

/-- The pairing identities are exchanged (R709): with a mismatch both modules stay in PAIRING, with the cause. The chosen active module sends
its configuration, effective at its current strip + 3, and a resync follows 3 strips later (assumption 73). -/
def takeHello (h : PairHello) (s : State) : State :=
  if s.pair.role ≠ .pairing then s
  else
    let own := ownHello s
    let s := setPair (fun p => { p with partner := some h, partnerLost := false, diverged := false }) s
    if !helloMatches own h then raise 0x3E6 (roleCode .pairing) (pairCauseCode .mismatch) (setPair (fun p => { p with cause := .mismatch, chosen := none }) s)
    else
      let strip := stripAhead s 3
      if choosesSelf own h then
        journal (pairSnapshot strip s) (setPair (fun p => { p with chosen := some true, resyncFrom := strip, atStrip := some (stripAhead s 6), snapshot := none }) s)
      else
        -- the other module discards its staged configuration, and stops line triggering of its own
        setPair (fun p => { p with chosen := some false, atStrip := none }) { stopNow s with staged := cfgNow s }

/-! ### Heartbeats (R702, R711, R712) -/

/-- HB_TIMEOUT in ns. -/
def hbTimeout (s : State) : Nat := (cfgNow s).pair.hbTimeout * 1000

/-- Heartbeats have been missed for HB_TIMEOUT. -/
def missed (s : State) (since : Option Nat) : Bool := since.any fun t => decide (t + hbTimeout s ≤ s.now)

end Sys2Proof.Machine
end

