-- ==== Sys2Proof/Machine/GlueOps.lean ====
section
/-! DEFINITION. How a glue-up spreads through the units: when each unit takes the new configuration (R48, R50, R58, R123), what the
units that take up no web lines do at the Gauge's first line of the effective strip, and the completion (R98, R123). -/

namespace Sys2Proof.Machine

/-! ### The units and their lines -/

/-- The units of a glue-up, each after those that feed it. -/
def lineUnits : List LineUnit :=
  let slots := List.range 24
  LineUnit.gauge :: slots.map .link ++ slots.map .plane ++ slots.map .profile ++ [.dovetail, .background, .marquetry] ++ (List.range 8).map .veneer

/-- A unit processes web lines under a configuration. -/
def processes (c : Cfg) (u : LineUnit) : Bool :=
  match u with
  | .gauge => true
  | .link i => ingestOn c i
  | .plane i => ingestOn c i
  | .profile i => ingestOn c i && decide ((vget c.grit i).fields ≠ 0)
  | .dovetail => stitchOn c
  | .background => stitchOn c && decide (c.bg.fields ≠ 0)
  | .marquetry => stitchOn c
  | .veneer v => viewOn v c

/-- UNIT and INDEX under which a unit is fenced. -/
def unitFence (u : LineUnit) : Option (Nat × Nat) :=
  match u with
  | .gauge => none
  | .link i => some (0x03, i)
  | .plane i => some (0x04, i)
  | .profile i => some (0x04, i)
  | .dovetail => some (0x05, 0)
  | .background => none
  | .marquetry => some (0x06, 0)
  | .veneer v => some (0x08, v)

/-- The web line that a unit has to process next; none when it waits for lines that the unit before it has still to hand on. -/
def nextLineOf (s : State) (u : LineUnit) : Option Nat :=
  match u with
  | .plane i => planeNext s i
  | .profile i => profileNext s i
  | .dovetail => dovetailNext s
  | .background => (s.dovetail.formed.head?).map (·.line)
  | .marquetry => marqNext s
  | .veneer v => viewNext s v
  | _ => none

/-- The unit that hands web lines to a unit. -/
def feederOf (u : LineUnit) : LineUnit :=
  match u with
  | .profile i => .plane i
  | .background => .dovetail
  | _ => .gauge

/-- A slot's lines before `f` have all arrived, or ended as gaps. -/
def arrivedBefore (s : State) (slot : Nat) (f : Option Nat) : Bool :=
  let early (n : Nat) : Bool := f.all fun f => later32 f n
  let x := vget s.ingest.slots slot
  !(x.outstanding.any fun o => early o.tag.line) && !(x.entries.any fun e => !e.arrived && e.tag.any fun t => early t.line)

/-- The Gauge has fired a slot's triggers of every line before `f`. -/
def triggeredBefore (s : State) (slot f : Nat) : Bool :=
  let x := vget s.gauge.slots slot
  atOrAfter x.nextLine f && !(x.pend.any fun p => later32 f p.line)

/-- A unit has finished every web line before the effective strip that it processes under the old configuration (R50, R123). -/
def finishedOld (s : State) (g : Glue) (u : LineUnit) : Bool :=
  match u with
  | .link i =>
    arrivedBefore s i g.first && (match g.first with | some f => triggeredBefore s i f | none => true)
  | _ =>
    match g.first, nextLineOf s u with
    | some f, some n => atOrAfter n f
    | some _, none => unitTaken s .gauge && unitTaken s (feederOf u)
    | none, some n => !inSpans s n
    | none, none => unitTaken s (feederOf u)

/-- A unit takes the new configuration now, without a web line of the effective strip (R50, R123), or because it is fenced. Units that
process lines under the new configuration take it with the first one. -/
def takesNow (s : State) (g : Glue) (u : LineUnit) : Bool :=
  let old := processes s.running u
  match u with
  | .gauge => g.first.isNone
  | .link _ => if old then finishedOld s g u else unitTaken s .gauge
  | _ =>
    if (unitFence u).any fun x => isFenced s x.1 x.2 then true
    else if !old then g.first.isNone || !processes g.next u
    else (g.first.isNone || !processes g.next u) && finishedOld s g u

/-! ### The settings of units that take up no web lines -/

/-- The encoders at the effective strip (R135, R138, R140, R145). -/
def applyEncoders (old new : Cfg) (s : State) : State :=
  let staged := s.gauge.encStaged
  let one (s : State) (e : Nat) : State :=
    let a := vget old.enc e
    let b := vget new.enc e
    let fresh := decide (a.role ≠ b.role) || decide (a.sense ≠ b.sense)
    let again := staged.contains e
    let s := if fresh then
        setEnc e (fun x => { x with dir := none, held := none, times := [], lastCount := if b.role = 0 then none else some s.now, still := false }) s
      else s
    let s := if again then setEnc e (fun x => { x with encFault := false, illegalAt := [] }) s else s
    if again || decide (a ≠ b) then setEnc e (fun x => { x with rezeroArmed := decide (b.indexMode = 2) }) s else s
  let s := (List.range 6).foldl one s
  let web := encOfRole new 1
  let renewed := web.any fun e => staged.contains e
  let moved := decide (encOfRole old 1 ≠ web) || (renewed && s.gauge.reserveActive)
  let g := s.gauge
  let g := { g with
    encStaged := []
    reserveActive := g.reserveActive && !renewed
    webIllegalAt := if moved then none else g.webIllegalAt
    webPos := if moved then (web.map fun e => (vget g.enc e).position).getD g.webPos else g.webPos }
  { s with gauge := g }

/-- COMPARE_CONFIG at the effective strip: lists of changed units are emptied, and marks whose entries are removed are withdrawn (R181). -/
def applyCompares (old new : Cfg) (s : State) : State :=
  (List.range 16).foldl (fun s u => if vget old.cmp u = vget new.cmp u then planCompare u s else emptyCompare u s) s

/-- Partitions whose contents a glue-up discards with no unit of their own to do it: stream contexts and the journal (R25). -/
def applyParts (old new : Cfg) (s : State) : State :=
  [16, 17].foldl (fun s k =>
    let a := vget old.part k
    let b := vget new.part k
    if a = b then s else if b.enable then benchEmpty (b.baseMib * mib) (partSize new k) s else s) s

/-- The settings of units that take up no web lines come into force with the Gauge's first line of the effective strip, or at once
while the glue-up is deferred. VFAB is set first (R121). -/
def applyOthers (s : State) : State :=
  match s.glue with
  | none => s
  | some g =>
    if g.others then s
    else
      let old := s.running
      let new := g.next
      let s := paceTake new { s with glue := some { g with others := true } }
      let s := match g.first.bind (epochAt s) with
        | some e => { s with gauge := { s.gauge with n0 := e.n0, origin := e.origin } }
        | none => s
      let s := applyParts old new (throughTake old new (applyEncoders old new s))
      let s := withMarks (fun s => applyAxes old new (applyStations old new (applyCompares old new s))) s
      pairTake old new (ringTake old new (timeTake old new (dmaTake old new s)))

/-! ### Taking it up -/

/-- The slot's camera links take it up. -/
def linkUnitTake (slot : Nat) (s : State) : State :=
  match s.glue with
  | none => s
  | some g => if unitTaken s (.link slot) then s else linkTake s.running g.next slot (markTaken (.link slot) s)

/-- Marquetry takes it up, and with it the queues and the patch stores. -/
def marqUnitTake (s : State) : State :=
  match s.glue with
  | none => s
  | some g => if unitTaken s .marquetry then s else queuesTake s.running g.next (marqTake s)

/-- A unit takes the new configuration: it captures and swaps its banks together (R123). -/
def takeUnit (u : LineUnit) (s : State) : State :=
  match u with
  | .gauge => applyOthers (markTaken .gauge s)
  | .link i => linkUnitTake i s
  | .plane i => planeTake i s
  | .profile i => profileTake i s
  | .dovetail => dovetailTake s
  | .background => bgTake s
  | .marquetry => marqUnitTake s
  | .veneer v => veneerTake v s

/-- First web line not triggered so far. -/
def afterSpans (s : State) : Option Nat := (s.spans.head?).map fun p => wrap32 (p.2 + 1)

/-- The glue-up completes: the new configuration is the running one, and the completion is posted (Table 2-14). -/
def completeGlue (g : Glue) (s : State) : State :=
  let from_ := match g.first with | some f => some f | none => afterSpans s
  -- a glue-up that follows another before any line under that one leaves the lines before both as they were
  let before := from_.map fun f => match s.prev with
    | some (f0, old) => if f0 = f then (f, old) else (f, s.running)
    | none => (f, s.running)
  let s := { s with
    prev := before
    running := g.next
    glue := none
    stageGen := wrap32 (s.stageGen + 1)
    glueCount := s.glueCount + 1 }
  let status := if g.fenced then stFenced else if g.lateWrites ≠ 0 then stOkLate else stOk
  complete g.ticket status (le 4 (if g.deferred then 0 else g.strip) ++ le 4 g.lateWrites ++ le 2 s.pace.vfabMv ++ le 2 0) s

/-- Take what can be taken up now; once every unit has, the glue-up completes (R123). -/
def settleGlue (s : State) : State :=
  match s.glue with
  | none => s
  | some _ =>
    let s := lineUnits.foldl (fun s u => match s.glue with
      | some g =>
        if g.applied.contains u || !takesNow s g u then s
        else
          let fenced := (unitFence u).any fun x => isFenced s x.1 x.2
          let s := takeUnit u s
          if fenced then { s with glue := s.glue.map fun g => { g with fenced := true } } else s
      | none => s) s
    match s.glue with
    | some g => if g.others && lineUnits.all (g.applied.contains ·) then completeGlue g s else s
    | none => s

/-- What may follow from a line of any unit: glue-ups are taken up, digests formed, and a snapshot sent (R123, R706, R707). -/
def settle (s : State) : State := sendSnapshot (pairDigest (settleGlue s))

end Sys2Proof.Machine
end

