-- ==== Sys2Proof/Machine/System.lean ====
section
/-! DEFINITION. The system commands of "Power-up, boot and reset" and the small commands of the staged configuration:
NOP, GET_INFO, GET_STATUS, FW_UPDATE, DEBUG_UNLOCK, GET_STAGE, GET_REPORT, SET_OPERATING_RANGE. -/

namespace Sys2Proof.Machine

def specNop : CmdSpec :=
  { opcode := 0x0100, need := exactly 0, unitOk := anyUnit, run := fun _ _ s => ok [] s }

/-- NOP tests the command path and replies ST_OK. -/
def execNop (t : Nat) (c : HostCmd) (s : State) : Host.Outcome State Fault Refusal := execCmd specNop t c s

/-- An image by its number: 0 golden, 1 A, 2 B. -/
def imageOf (b : Boot) (n : Nat) : ImageInfo := match n with | 0 => b.golden | 1 => b.slotA | _ => b.slotB

/-- FW_VERSION: the version of the image that runs (R820). -/
def fwVersion (s : State) : Nat := (imageOf s.boot s.boot.image).version

def slotVersion (i : ImageInfo) : Nat := if i.valid then i.version else 0

/-- Table 18-6. -/
def infoBody (s : State) : Bytes :=
  le 4 0x1296 ++ le 2 Config.vendorId ++ le 2 Config.siliconRev ++ le 8 Config.serial ++ le 6 Config.mac0 ++ le 6 Config.mac1 ++
  le 4 (fwVersion s) ++ le 1 s.boot.image ++ le 1 s.boot.preferred ++ le 2 s.boot.minSecurity ++ le 4 s.boot.golden.version ++
  le 4 (slotVersion s.boot.slotA) ++ le 4 (slotVersion s.boot.slotB)

def specGetInfo : CmdSpec :=
  { opcode := 0x0101, need := exactly 0, unitOk := anyUnit, run := fun _ _ s => ok (infoBody s) s }

/-- GET_INFO reads the identity of the module. -/
def execGetInfo (t : Nat) (c : HostCmd) (s : State) : Host.Outcome State Fault Refusal := execCmd specGetInfo t c s

/-- Table 18-7. -/
def statusBody (s : State) : Bytes :=
  let b := s.boot
  le 1 b.stage ++ le 1 (fabricCode s.hf.fabric) ++ le 1 b.cause ++
  le 1 (flagBit s.pace.clamped 2 + flagBit b.restored 1 + flagBit b.unlocked 0) ++ le 4 b.readyMs ++ le 2 s.pace.scale ++ zeros 2 ++
  le 8 ((s.now - b.powerOnAt) / 1000000000) ++ le 4 b.warmResets ++ le 4 b.perstCount ++ zeros 4

def specGetStatus : CmdSpec :=
  { opcode := 0x0102, need := exactly 0, unitOk := anyUnit, run := fun _ _ s => ok (statusBody s) s }

/-- GET_STATUS reads the start-up and reset state. -/
def execGetStatus (t : Nat) (c : HostCmd) (s : State) : Host.Outcome State Fault Refusal := execCmd specGetStatus t c s

/-! ### FW_UPDATE (R733, R734, R765, R766) -/

def setImage (n : Nat) (i : ImageInfo) (b : Boot) : Boot := if n = 1 then { b with slotA := i } else { b with slotB := i }

def otherSlot (n : Nat) : Nat := if n = 1 then 2 else 1

/-- The image that a run of bytes spells. -/
def imageFrom (data : Bytes) : ImageInfo :=
  { valid := true, version := Config.imageVersion data, security := Config.imageSecurity data, keySlot := Config.imageKeySlot data,
    length := Config.imageLength data, signed := Config.imageSigned data, digest := Config.imageDigest data }

/-- R734: 0 the image may run, 1 its signature, key or digest fails, 2 its security version is below the minimum. -/
def imageFault (b : Boot) (i : ImageInfo) : Nat :=
  if !i.signed || !i.digest || b.revoked.contains i.keySlot then 1 else if i.security < b.minSecurity then 2 else 0

/-- RESULT of FW_UPDATE for an image of `len` bytes (Table 18-9): its header's length fits the bulk reference. -/
def updateResult (b : Boot) (i : ImageInfo) (len : Nat) : Nat :=
  if i.length < 256 ∨ len < i.length then 3 else imageFault b i

def badFwUpdate (p : Bytes) : Option Nat :=
  let write := decide (u8 p 0 = 0)
  firstBad ([(0, inRange 0 1 (u8 p 0)), (1, inRange 1 2 (u8 p 1))] ++
    (if write then bulkChecks p 4 ++ [(12, inRange 256 16777216 (u32 p 12))] else []))

/-- A signature or token fails, or the debug port is unlocked or locked again: a SECURITY entry (Table 17-8). -/
def logSecurity (cause status detail : Nat) (s : State) : State :=
  (logFault { cls := 7, unit := 0x14, cause, status, detail := le 4 detail } s).2

def countAuthFail (s : State) : State :=
  { s with faults := { s.faults with cnt := { s.faults.cnt with authFailures := s.faults.cnt.authFailures + 1 } } }

/-- Completion body of FW_UPDATE. -/
def fwBody (result version : Nat) : Bytes := le 1 result ++ zeros 3 ++ le 4 version

/-- MODE 0 reads and verifies the whole image at acceptance; when it passes, the slot is marked invalid and a preferred mark
on it moves to the other slot (R765). -/
def startUpdate (r : CmdRec) (slot : Nat) (prefer : Bool) (image : ImageInfo) (result : Nat) (s : State) : State :=
  let run : FwRun := { ticket := r.ticket, slot, prefer, image, result }
  if result = 0 then
    let b := setImage slot { imageOf s.boot slot with valid := false } s.boot
    { s with boot := { b with fw := some run, preferred := if b.preferred = slot then otherSlot slot else b.preferred } }
  else
    let s := { s with boot := { s.boot with fw := some run } }
    if result = 3 then s else logSecurity result stAuthFail image.version (countAuthFail s)

def specFwUpdate : CmdSpec :=
  { opcode := 0x0105, need := exactly 20, unitOk := anyUnit,
    run := fun r c s =>
      let p := c.params
      checked (badFwUpdate p) s fun _ =>
        match s.boot.fw with
        | some f => busy 3 f.ticket s
        | none =>
          let slot := u8 p 1
          if u8 p 0 = 1 then
            if (imageOf s.boot slot).valid then accepted [] { s with boot := { s.boot with preferred := slot, fw := some { ticket := r.ticket, slot, image := imageOf s.boot slot } } }
            else wrongState s
          else
            let ref := parBulk p 4
            if c.bulkFails < 2 ∨ ref.space = 1 then
              let s := if c.bulkFails = 1 ∧ ref.space = 0 then countTransient 1 s else s
              let data := bulkData c ref s
              let image := imageFrom data
              accepted [] (startUpdate r slot (bitOf (u8 p 2) 0) image (updateResult s.boot image ref.length) s)
            else accepted [] { s with boot := { s.boot with fw := some { ticket := r.ticket, slot, result := 4 } } } }

/-- FW_UPDATE starts writing an image into an update slot, or marks a slot preferred. -/
def execFwUpdate (t : Nat) (c : HostCmd) (s : State) : Host.Outcome State Fault Refusal := execCmd specFwUpdate t c s

/-- The image is written and read back: the slot is valid, PREFER moves the mark back, and the completion is posted. An image
that failed its checks, or a bulk read that failed twice (RESULT 4 of the model), completes with its error. A mark set by
MODE 1 completes here too. -/
def finishUpdate (readBackOk : Bool) (s : State) : State :=
  match s.boot.fw with
  | none => s
  | some f =>
    let s := { s with boot := { s.boot with fw := none } }
    match f.result with
    | 0 =>
      if readBackOk || (imageOf s.boot f.slot).valid then
        let b := if (imageOf s.boot f.slot).valid then s.boot else setImage f.slot { f.image with valid := true } s.boot
        complete f.ticket stOk (fwBody 0 f.image.version) { s with boot := { b with preferred := if f.prefer then f.slot else b.preferred } }
      else complete f.ticket stAborted (zeros 8) s
    | 3 => complete f.ticket stBadParam (fwBody 3 0) s
    | 4 => complete f.ticket stHostError (zeros 8) s
    | n => complete f.ticket stAuthFail (fwBody n 0) s

/-- FW_UPDATE_DONE. -/
def execFwUpdateDone (t : Nat) (readBackOk : Bool) (s : State) : Host.Outcome State Fault Refusal := runAt t s (finishUpdate readBackOk)

/-! ### DEBUG_UNLOCK (R735) -/

/-- Ten minutes in ns. -/
def challengeLife : Nat := 600000000000

/-- The challenge that is valid at the present time. -/
def liveChallenge (s : State) : Option Nat :=
  match s.boot.challenge with
  | some (v, at_) => if s.now < at_ + challengeLife then some v else none
  | none => none

/-- The token unlocks this module (R735). -/
def tokenOk (s : State) (challenge : Nat) (token : Bytes) : Bool :=
  Config.tokenSigned token && decide (Config.tokenSerial token = Config.serial) && decide (Config.tokenChallenge token = challenge) &&
  decide (Config.tokenKeySlot token < 4) && !s.boot.revoked.contains (Config.tokenKeySlot token)

/-- An attempt with a token: it spends the challenge. -/
def tryToken (token : Bytes) (s : State) : Verdict :=
  if 8 ≤ s.boot.authFails then fail stAuthFail (zeros 8) (countAuthFail s)
  else
    match liveChallenge s with
    | none => wrongState s
    | some v =>
      let s := { s with boot := { s.boot with challenge := none } }
      let key := Config.tokenKeySlot token
      if tokenOk s v token then
        let scope := wrap32 (Config.tokenScope token)
        let s := { s with boot := { s.boot with unlocked := true, scope, unlockKey := key } }
        ok (le 4 scope) (raise 0x3F9 1 key (logSecurity 4 stOk key s))
      else
        let s := countAuthFail { s with boot := { s.boot with authFails := s.boot.authFails + 1 } }
        fail stAuthFail (zeros 8) (logSecurity 3 stAuthFail key s)

def relock (s : State) : Verdict :=
  if !s.boot.unlocked then wrongState s
  else
    let key := s.boot.unlockKey
    ok [] (raise 0x3F9 0 key (logSecurity 5 stOk key { s with boot := { s.boot with unlocked := false, scope := 0 } }))

def specDebugUnlock : CmdSpec :=
  { opcode := 0x0106, need := fun c => exactly (if u8 c.params 0 = 1 then 132 else 4) c, unitOk := anyUnit,
    run := fun _ c s =>
      match u8 c.params 0 with
      | 0 =>
        let r := freshValue s
        let v := r.1 % 2 ^ 64
        ok (le 8 v) { r.2 with boot := { r.2.boot with challenge := some (v, s.now) } }
      | 1 => tryToken (slice c.params 4 128) s
      | 2 => relock s
      | _ => badParam 0 s }

/-- DEBUG_UNLOCK requests a challenge, presents a token, or relocks the debug port. -/
def execDebugUnlock (t : Nat) (c : HostCmd) (s : State) : Host.Outcome State Fault Refusal := execCmd specDebugUnlock t c s

/-- A challenge reaches its 10 minutes and lapses. -/
def execChallengeExpired (t : Nat) (s : State) : Host.Outcome State Fault Refusal :=
  runAt t s fun s => if (liveChallenge s).isNone then { s with boot := { s.boot with challenge := none } } else s

/-! ### The staging state -/

/-- Table 2-15. -/
def stageBody (s : State) : Bytes :=
  let last := (s.dryfit.getD {})
  le 4 s.stageGen ++ le 4 last.gen ++
  le 1 (flagBit (match s.glue with | some g => g.deferred | none => false) 2 + flagBit s.glue.isSome 1 + flagBit last.fit 0) ++ zeros 3 ++
  le 4 (match s.glue with | some g => g.strip | none => 0) ++ le 4 (currentStrip s) ++ le 4 s.glueCount

def specGetStage : CmdSpec :=
  { opcode := 0x0107, need := exactly 0, unitOk := anyUnit, run := fun _ _ s => ok (stageBody s) s }

/-- GET_STAGE reads STAGE_GEN, the dry-fit state, the pending glue-up and the current strip. -/
def execGetStage (t : Nat) (c : HostCmd) (s : State) : Host.Outcome State Fault Refusal := execCmd specGetStage t c s

/-- The manual gives GET_REPORT an opcode and a class and no parameters, units or reply body: it is a query that replies ST_OK
with a 64-byte body of free bytes (assumption 12). -/
def specGetReport : CmdSpec :=
  { opcode := 0x0203, need := fun c => (c.paramLen, true), unitOk := anyUnit,
    run := fun _ _ s => let r := freshBytes 64 s; ok r.1 r.2 }

def execGetReport (t : Nat) (c : HostCmd) (s : State) : Host.Outcome State Fault Refusal := execCmd specGetReport t c s

def specSetOperatingRange : CmdSpec :=
  { opcode := 0x0204, need := exactly 12, unitOk := unitIs 0xFF,
    run := fun _ c s =>
      stageEdit 0x0204 0xFF (badOperatingRange c.params) (fun cfg => { cfg with range := some (parOperatingRange c.params) }) s }

/-- SET_OPERATING_RANGE stages the web speed range and COUNT_NM (Table 2-7). -/
def execSetOperatingRange (t : Nat) (c : HostCmd) (s : State) : Host.Outcome State Fault Refusal := execCmd specSetOperatingRange t c s

end Sys2Proof.Machine
end

