-- ==== Sys2Proof/Machine/HfOps.lean ====
section
/-! DEFINITION. The Holdfast's operations ("Faults, the ticket ledger and the Holdfast", R618, R725 to R731): keys, HF_OP, the forced
self-refresh, the wedge and the monitors. -/

namespace Sys2Proof.Machine

def setHf (f : Holdfast → Holdfast) (s : State) : State := { s with hf := f s.hf }
def setBoot (f : Boot → Boot) (s : State) : State := { s with boot := f s.boot }

/-! ### What the fabric puts out once it runs again -/

/-- Host writes and replies that the fabric makes. -/
def fabricOut (e : Emit) : Bool :=
  match e with
  | .hostWrite _ _ _ => true
  | .remoteReply _ _ => true
  | _ => false

/-- What ends while the fabric does not run is reported once it runs again (R724). -/
def deferOut (f : State → State) (s : State) : State :=
  let s' := f s
  if fabricUp s' then s'
  else
    let made := s'.emit.drop s.emit.length
    { s' with
      emit := s.emit ++ made.filter fun e => !fabricOut e
      heldOut := s'.heldOut ++ made.filter fabricOut }

/-- The fabric runs again: the events latched meanwhile reach the event block, and what was held is put out (R726). -/
def deliverLatched (s : State) : State :=
  let events := s.hf.latchedEvents
  let s := { s with
    emit := s.emit ++ s.heldOut
    heldOut := []
    hf := { s.hf with latchedEvents := [] } }
  let s := events.foldl (fun s e => deliverEvent e.1 e.2.1 e.2.2.1 e.2.2.2 s) s
  (List.range 4).foldl (fun s n => flushRing n s) s

/-- FABRIC becomes RUNNING. After a wedge EV 0x007 carries the number of sources latched (Table 17-11). -/
def fabricRuns (s : State) : State :=
  let wedged := s.hf.wedgeSeen
  let n := s.hf.latchedEvents.length
  let s := deliverLatched (setHf (fun h => { h with fabric := .running, wedgeSeen := false }) s)
  if wedged then raise 0x007 n 0 s else s

/-! ### Items that a stopped Bench or a reset ends -/

/-- The item of a ticket ends BENCH_FROZEN, through its own channel (R557, R565). -/
def failItem (w : Nat) (s : State) : State :=
  if (cmdOf s w).isSome then
    let s := match s.bench.lookbacks.find? fun r => decide (r.ticket = w) with
      | some r => dropLookback r s
      | none => s
    let s := (List.range 4).foldl (fun s d =>
      if (vget s.comp.de d).run.any fun r => decide (r.ticket = w) then dropDecClaims d (setDe d (fun u => { u with run := none }) s) else s) s
    complete w stBenchFrozen (entryNoBody 0) s
  else
    match s.scribe.jobs.find? fun j => decide (j.ticket = w) with
    | some j => failPatchJob j 2 (setCe j.engine (fun u => { u with job := if j.cut then none else u.job }) s)
    | none =>
      match (List.range 64).findSome? fun c => ((vget s.dma.ch c).run.filter fun r => decide (r.ticket = w)).map fun r => (c, r) with
      | some (c, run) => completeDesc c .benchFrozen run s
      | none =>
        match (List.range 16).findSome? fun e => ((ceAt s e).job.filter fun j => decide (j.ticket = some w)).map fun j => (e, j) with
        | some (e, j) =>
          let s := endTicket w 2 (setCe e (fun u => { u with job := none }) s)
          (match j.source with
          | .archive i => finishStrip i false false s
          | .patch _ _ => s)
        | none =>
          match (List.range 8).find? fun v => (frameTickets (vget s.views v)).contains w with
          | some v =>
            let s := setView v (fun x => { x with
              restart := x.restart || x.cur.any fun f => decide (f.ticket = w)
              cur := x.cur.filter fun f => decide (f.ticket ≠ w)
              waiting := x.waiting.filter fun f => decide (f.ticket ≠ w)
              sending := x.sending.filter fun f => decide (f.ticket ≠ w) }) s
            failFrame v w 2 s
          | none => endTicket w 2 s

/-- The command records that a reset leaves no reply for are answered ST_ABORTED once the ring pair is enabled again (R724): the
gateway's own, then those forwarded and broadcast by it. -/
def abortCommands (s : State) : State :=
  let f := s.ring.forwarded
  let b := s.ring.broadcasts
  let p := s.ring.prepare
  let s := { s with ring := { s.ring with forwarded := [], broadcasts := [], prepare := none, prepared := none } }
  let post (ring ticket tag opcode : Nat) (irq completing : Bool) (s : State) : State :=
    postReply ring ticket irq (replyBytes opcode stAborted tag ticket s.ring.moduleId (if completing then 2 else 0) (zeros 8)) (decideTicket ticket 15 s)
  let s := f.foldl (fun s x => post x.ring x.ticket x.tag x.opcode x.irq x.accepted s) s
  let s := b.foldl (fun s x => post x.ring x.ticket x.tag x.opcode x.irq x.completing s) s
  let s := p.toList.foldl (fun s x => post x.ring x.ticket x.tag 0x0201 x.irq false s) s
  s.cmds.foldl (fun s r => complete r.ticket stAborted (zeros 8) (decideTicket r.ticket 15 s)) s

/-- Counters count from reset (R740): those that the ends below count begin at 0. -/
def freshCounts (s : State) : State :=
  { s with
    views := s.views.map fun x => { x with cnt := {} }
    dma := { s.dma with ch := s.dma.ch.map fun x => { x with bytes := 0, lateWrites := 0, ticksMissed := 0, retries := 0, descFailed := 0 } }
    scribe := { s.scribe with queues := s.scribe.queues.map fun x => { x with cnt := {} } } }

/-- The records of every queue end, counted in LOST, and with them their patches. -/
def endRecords (s : State) : State :=
  (List.range 16).foldl (fun s q =>
    let l := (vget s.scribe.queues q).live
    let s := l.foldl (fun s r => endRecord q r 15 s) s
    setQueue q (fun x => { x with live := [], cnt := { x.cnt with lost := wrap32 (x.cnt.lost + l.length) } }) s) s

/-- Every ISSUED ticket whose item the reset does not keep ends FAILED(RESET), through its channel (R724). A recovery boot keeps none. -/
def endForReset (recovery : Bool) (s : State) : State :=
  let s := abortCommands (freshCounts s)
  let s := s.scribe.jobs.foldl (fun s j => failPatchJob j 15 s) s
  let s := (List.range 16).foldl (fun s e =>
    match (ceAt s e).job with
    | none => s
    | some j =>
      let s := endTickets j.ticket.toList 15 (setCe e (fun u => { u with job := none }) s)
      match j.source with
      | .archive i => finishStrip i false false s
      | .patch _ _ => s) s
  let s := (List.range 64).foldl (fun s c => abortChan c 15 15 s) s
  let s := (List.range 8).foldl (fun s v => (dropFrames v 15 s).2) s
  if recovery then endRecords s else s

/-! ### Forced self-refresh (R557) -/

/-- All grants stop, every pending request is discarded, and its item ends BENCH_FROZEN. A Bench that is in self-refresh stays there. -/
def forceSr (s : State) : State :=
  let pend := (vget s.bench.ctl 0).pending ++ (vget s.bench.ctl 1).pending
  let asleep := benchAsleep s
  let s := { s with bench := { s.bench with
    ctl := s.bench.ctl.map fun c => { c with pending := [] }
    entering := if asleep then none else some s.bench.nextReq
    exiting := false
    autoEntered := false
    forced := true } }
  let s := if asleep then refuseHost s else s
  (pend.filterMap (·.ticket)).foldl (fun s w => failItem w s) s

/-! ### HF_OP (R618, R728, R729) -/

/-- The operation in progress is done: EV 0x3F5 for one taken through HF_OP (R729). -/
def opDone (op : Nat) (path : HfPath) (s : State) : State :=
  let s := setHf (fun h => { h with busy := none }) s
  if path = .auto then s else raise 0x3F5 op (pathCode path) (setHf (fun h => { h with lastOp := op, opResult := 0 }) s)

/-- A reset of the fabric is in progress. -/
def resetBusy (s : State) : Bool :=
  s.hf.busy.any fun b => decide (b.1 = .warmReset) || decide (b.1 = .recoveryBoot)

/-- Step 3 of Table 18-4 ends, and the fabric is held for 1 ms. -/
def resetHeld (recovery : Bool) (s : State) : State :=
  setBoot (fun b => { b with holdUntil := some (s.now + 1000000) }) (deferOut (endForReset recovery) s)

/-- Forced self-refresh is complete. A reset in progress then ends the tickets of the items that it does not keep (Table 18-4). -/
def forcedEntered (s : State) : State :=
  let s := setHf (fun h => { h with srForced := true }) s
  match s.hf.busy with
  | some (.forceSelfRefresh, p) => opDone 2 p s
  | some (.warmReset, _) => resetHeld false s
  | some (.recoveryBoot, _) => resetHeld true s
  | _ => s

/-- Forces self-refresh, which is complete at once where the Bench is in self-refresh. -/
def startForced (s : State) : State :=
  let s := deferOut forceSr s
  if s.bench.entering.isNone then forcedEntered s else s

/-- Entry into self-refresh completes; a forced one sets SR_FORCED. -/
def selfRefreshEntered (s : State) : State :=
  let was := s.bench.entering.isSome
  let s := srEntered s
  if was && s.bench.forced && s.bench.entering.isNone then forcedEntered s else s

/-- The Bench has left forced self-refresh. -/
def forcedExited (s : State) : State :=
  if !s.hf.srForced || s.bench.forced then s
  else
    let s := setHf (fun h => { h with srForced := false }) s
    match s.hf.busy with
    | some (.releaseSelfRefresh, p) => opDone 3 p s
    | _ => s

/-- Steps 1 and 2 of a warm fabric reset or a recovery boot, and the start of step 3 (Table 18-4). Events from here on are latched until
the fabric runs again. A reset that the Holdfast starts by itself takes the place of an operation in progress. -/
def startReset (recovery : Bool) (path : HfPath) (cause : Nat) (s : State) : State :=
  let path := match s.hf.busy with | some (_, p) => if path = .auto then p else path | none => path
  let s := setHf (fun h => { h with fabric := .resetting, busy := some (if recovery then .recoveryBoot else .warmReset, path), monitorHold := !h.monitors.isEmpty }) s
  let s := setBoot (fun b => { b with
    stage := 2
    recovery := recovery
    warm := true
    cause := cause
    refTime := s.now
    readyMs := 0
    warmResets := wrap32 (b.warmResets + 1)
    fw := none
    verifying := false
    ready := false
    holdUntil := none }) s
  let s := haltTriggers s
  let s := (logFault { cls := 9, unit := 0x12, holdfast := true, cause := if recovery then 4 else 3, detail := le 1 (pathCode path) } s).2
  let s := { s with faults := { s.faults with cnt := { s.faults.cnt with warmResets := wrap32 (s.faults.cnt.warmResets + 1) } } }
  startForced (safeStopAxes 15 .safeStop s)

/-- The path reaches the Holdfast: BAR2 needs VMAIN and a trained link, SMBus needs VAUX (R725). -/
def hfReached (s : State) (path : HfPath) : Bool :=
  match path with
  | .auto => s.boot.vauxUp
  | .bar2 => s.boot.vmainUp && s.host.pcie.linkUp
  | .smbus => s.boot.vauxUp

/-- A write to HF_KEY (R618). -/
def hfKey (path : HfPath) (v : Nat) (s : State) : State :=
  if v = 0x48464B59 ∧ path ≠ .auto then setHf (fun h => { h with keys := (h.keys.filter fun k => decide (k.1 ≠ path)) ++ [(path, s.now)] }) s else s

/-- A key lives 1 ms. -/
def keyLife : Nat := 1000000

def keyValid (s : State) (path : HfPath) : Bool := s.hf.keys.any fun k => decide (k.1 = path) && decide (s.now ≤ k.2 + keyLife)

/-- A path's key has lapsed. -/
def dropKeys (path : HfPath) (s : State) : State :=
  setHf (fun h => { h with keys := h.keys.filter fun k => decide (k.1 ≠ path) || decide (s.now < k.2 + keyLife) }) s

/-- HF_OP is refused (R618, R728, R729). -/
def refuseOp (op result : Nat) (s : State) : State := setHf (fun h => { h with lastOp := op, opResult := result }) s

/-- RESULT 3: another operation is in progress, or the state does not allow it (Table 17-5, R729). -/
def opForbidden (s : State) (op : Nat) : Bool :=
  s.hf.busy.isSome ||
  match op with
  | 2 => s.hf.srForced
  | 3 => !s.hf.srForced
  | 4 => false
  | 5 => decide (s.pair.role = .solo)
  | 6 => false
  | 7 => false
  | _ => true

/-- The operation is taken. -/
def takeOp (op : Nat) (path : HfPath) (s : State) : State :=
  match op with
  | 2 => startForced (setHf (fun h => { h with busy := some (.forceSelfRefresh, path) }) s)
  | 3 => startExit (setHf (fun h => { h with busy := some (.releaseSelfRefresh, path) }) s)
  | 4 => startReset false path 2 s
  | 5 => opDone 5 path (giveSignal s)
  | 6 => startReset true path 4 s
  | 7 => opDone 7 path (setHf (fun h => { h with latched := 0, latchedEvents := [] }) s)
  | _ => s

/-- One operation of Table 17-5 by a path: HF_OP through BAR2 or SMBus, or the Holdfast by itself. Each key allows one operation. -/
def hfOp (op arg : Nat) (path : HfPath) (s : State) : State :=
  let own := decide (path = .auto)
  let keyed := own || keyValid s path
  let s := setHf (fun h => { h with keys := h.keys.filter fun k => decide (k.1 ≠ path) }) s
  let count (s : State) : State := if own then s else setHf (fun h => { h with opsTaken := h.opsTaken + 1 }) s
  let begin_ (s : State) : State := if own then s else setHf (fun h => { h with lastOp := op, opResult := 1 }) (count s)
  if !keyed then refuseOp op 2 s
  else if op = 1 then
    let s := safeStopAxes (arg % 16) .safeStop (count s)
    if own then s
    else
      let s := if s.hf.busy.isSome then s else setHf (fun h => { h with lastOp := 1, opResult := 0 }) s
      raise 0x3F5 1 (pathCode path) s
  else if opForbidden s op then (if own then s else refuseOp op 3 s)
  else takeOp op path (begin_ s)

/-- An operation row: it has an effect where its path reaches the Holdfast. -/
def hfCommand (op arg : Nat) (path : HfPath) (s : State) : State := if hfReached s path then hfOp op arg path s else s

/-! ### The wedge (R711, R726, R674) -/

/-- Moving axes of a wedged fabric safe-stop (R647). -/
def stopMoving (s : State) : State :=
  (List.range 4).foldl (fun s a =>
    let x := vget s.axes.ax a
    if inMotion x || decide (x.state = .stopping) then withMarks (safeStopAxis a .wedged) s else s) s

/-- The fabric is found wedged: 1 by the pace gauge, 2 by liveness. -/
def wedge (cause : Nat) (s : State) : State :=
  if s.hf.fabric ≠ .running ∨ !inRange 1 2 cause then s
  else
    let s := setHf (fun h => { h with fabric := .wedged, wedgeSeen := true }) s
    let r := logFault { cls := 4, unit := 0x12, holdfast := true, cause := cause, detail := le 1 0 } s
    let s := { r.2 with faults := { r.2.faults with cnt := { r.2.faults.cnt with wedges := wrap32 (r.2.faults.cnt.wedges + 1) } } }
    let s := stopMoving (raise 0x3F0 r.1 cause s)
    let s := if inPair s then giveSignal s else s
    let s := if (timeCfg s).source ≠ 0 then holdClock s else s
    -- a glue-up of which no unit has begun the effective strip does not come into force while the fabric stands still
    { s with glue := s.glue.map fun g => if g.others then g else { g with first := none } }

/-- Marquetry flushes its regions where triggering has stopped and it has nothing left to process (R120). -/
def flushIdle (s : State) : State :=
  match s.spans.head?, s.marq.last with
  | some p, some m => if p.2 = m ∧ !s.gauge.trigEnabled then marqFlushNow s else s
  | _, _ => s

/-- A wedged fabric runs again. -/
def resume (s : State) : State := if s.hf.fabric = .wedged then flushIdle (fabricRuns s) else s

/-! ### The monitors (R727) -/

def monitorCause : Monitor → Nat
  | .vmain => 1 | .vfab => 2 | .junction => 3

def monitorEvent : Monitor → Nat
  | .junction => 0x3F4
  | _ => 0x3F2

def senseValue (what : Monitor) (v : Int) (s : State) : State :=
  match what with
  | .vmain =>
    { s with sense := { s.sense with vmainMv := v.toNat } }
  | .vfab => s
  | .junction =>
    { s with sense := { s.sense with tj := v } }

/-- A value lies outside the fault window of Table 17-5a; `set` is VFAB's set value. -/
def outsideWindow (what : Monitor) (set : Nat) (v : Int) : Bool :=
  match what with
  | .vmain => decide (v < 10400) || decide (13800 < v)
  | .vfab => decide (50 < (v - set).natAbs)
  | .junction => decide (125 < v)

def insideRelease (what : Monitor) (v : Int) : Bool :=
  match what with
  | .vmain => decide (10800 ≤ v) && decide (v ≤ 13200)
  | .vfab => false
  | .junction => decide (v < 100)

/-- A monitor fault (R727). A VFAB fault has no release of its own: the warm reset that sets VFAB again follows at once. -/
def monitorFault (what : Monitor) (v : Int) (s : State) : State :=
  let s := senseValue what v s
  if !outsideWindow what s.pace.vfabMv v || !s.boot.vmainUp || s.hf.monitors.contains what then s
  else
    let s := setHf (fun h => { h with fabric := .resetting, monitorHold := true, monitors := h.monitors ++ [what] }) s
    let s := haltTriggers s
    let s := safeStopAxes 15 .safeStop s
    let s := startForced s
    let s := if inPair s then giveSignal s else s
    let s := (logFault { cls := if what = .junction then 6 else 5, unit := 0x13, holdfast := true, cause := monitorCause what, detail := leI 4 v } s).2
    let c := s.faults.cnt
    let c := if what = .junction then { c with thermalFaults := wrap32 (c.thermalFaults + 1) } else { c with powerFaults := wrap32 (c.powerFaults + 1) }
    let s := raise (monitorEvent what) v 1 { s with faults := { s.faults with cnt := c } }
    if what = .vfab ∧ s.hf.monitors = [.vfab] then startReset false .auto 3 (setHf (fun h => { h with monitors := [] }) s) else s

/-- A monitor fault is released; with the last one the Holdfast carries out a warm reset by itself. -/
def monitorRelease (what : Monitor) (v : Int) (s : State) : State :=
  let s := senseValue what v s
  if !insideRelease what v || !s.hf.monitors.contains what || !s.boot.vmainUp then s
  else
    let s := raise (monitorEvent what) v 0 (setHf (fun h => { h with monitors := h.monitors.erase what }) s)
    if s.hf.monitors.all fun m => decide (m = .vfab) then startReset false .auto 3 (setHf (fun h => { h with monitors := [] }) s) else s

/-- The junction crosses 110 °C, or returns below 105 °C (Table 17-5a). -/
def junctionWarning (temp : Int) (s : State) : State :=
  let s := { s with sense := { s.sense with tj := temp } }
  if !s.sense.junctionHot ∧ 110 < temp then raise 0x006 temp 1 { s with sense := { s.sense with junctionHot := true } }
  else if s.sense.junctionHot ∧ temp < 105 then raise 0x006 temp 0 { s with sense := { s.sense with junctionHot := false } }
  else s

end Sys2Proof.Machine
end

