-- ==== Sys2Proof/Machine/LookOps.lean ====
section
/-! DEFINITION. The operations of look-back (R568 to R575). -/

namespace Sys2Proof.Machine

/-- How many of the places 0, 1, … below 2^bits have a value of `f` below `x`, for an `f` that rises. -/
def countBelow (f : Nat → Int) (x : Int) : Nat → Nat → Nat
  | 0, r => r
  | b + 1, r => if f (r + 2 ^ b - 1) < x then countBelow f x b (r + 2 ^ b) else countBelow f x b r

/-- Lines of one line sequence, as a first line and a count: those with FIRST ≤ P(n) ≤ LAST (R569). `len` bounds the lines under it. -/
def epochLines (e : SeqEpoch) (len : Nat) (first last : Int) : Nat × Nat :=
  let p (d : Nat) : Int := linePos e.seq e.n0 e.origin (wrap32 (e.firstLine + d))
  let a := min len (countBelow p first 30 0)
  let b := min len (countBelow p (last + 1) 30 0)
  (wrap32 (e.firstLine + a), b - a)

/-- Every line sequence kept, with the number of lines under it. -/
def epochSpans : List SeqEpoch → List (SeqEpoch × Nat)
  | [] => []
  | [e] => [(e, 2 ^ 30)]
  | e :: f :: rest => (e, (sdiff32 f.firstLine e.firstLine).toNat) :: epochSpans (f :: rest)

/-- The runs of web lines that a range selects. -/
def lookRuns (s : State) (first last : Int) : List (Nat × Nat) :=
  ((epochSpans s.bench.epochs).map fun e => epochLines e.1 e.2 first last).filter fun r => decide (0 < r.2)

/-- The web lines of some runs that have been triggered, or that follow every line triggered. -/
def lookLines (s : State) (runs : List (Nat × Nat)) : List Nat :=
  (runs.flatMap fun r => (List.range r.2).map fun i => wrap32 (r.1 + i)).filter fun n =>
    inSpans s n || atOrAfter n (freshLine s)

def lookShift (s : State) (line : Nat) : Nat := match epochAt s line with | some e => e.shift | none => (cfgNow s).shift

/-- The archive streams that hold a column range of a field, when it lies within archived bands (R570). -/
def lookStreams (s : State) (field lo cols : Nat) : List Nat :=
  match s.comp.layout with
  | none => []
  | some l =>
    let a := l.1
    match a.fields.findIdx? fun f => decide (f = field) with
    | none => []
    | some i =>
      if lo < a.firstCol ∨ a.firstCol + a.bands * a.bandCols < lo + cols ∨ a.bandCols = 0 ∨ cols = 0 then []
      else
        let b0 := (lo - a.firstCol) / a.bandCols
        let b1 := (lo + cols - 1 - a.firstCol) / a.bandCols
        (List.range (b1 + 1 - b0)).map fun b => i * a.bands + b0 + b

/-- A web line is held in the archive ring for some streams. -/
def inArchive (s : State) (streams : List Nat) (line : Nat) : Bool :=
  let strip := stripOf (lookShift s line) line
  !streams.isEmpty && streams.all fun j => (subAt s j).strips.any fun x => decide (x.strip = strip) && x.complete && !x.verifyFailed && !x.noTicket

/-- Which ring serves a line: 1 the strip ring, 2 the archive ring; none when it is gone. -/
def lookRing (s : State) (source : Nat) (streams : List Nat) (line : Nat) : Option Nat :=
  if source ≠ 2 && inStripRing s line then some 1 else if source ≠ 1 && inArchive s streams line then some 2 else none

/-- The oldest P(n) of a line held in either ring (R571); 0 when none is. -/
def oldestHeld (s : State) (streams : List Nat) : Int :=
  let n := s.dovetail.layout.lines
  let ring := match s.dovetail.last with
    | some l => ((List.range n).map fun i => wrap32 (l + 1 + i + 2 ^ 32 - n)).find? (inStripRing s)
    | none => none
  let arc := match streams with
    | [] => none
    | j :: _ => ((subAt s j).strips.map fun x => stripFirst (cfgNow s).shift x.strip).find? (inArchive s streams)
  match ring, arc with
  | some a, some b => posOfLine s (if later32 a b then b else a)
  | some a, none => posOfLine s a
  | none, some b => posOfLine s b
  | none, none => 0

/-- Parameters of LOOKBACK, in order (R569). -/
def badLookback (s : State) (p : Bytes) : Option Nat :=
  let x := parLookback p
  let cfg := cfgNow s
  let base := match cfg.grid with | some g => g.base | none => 0
  let columns := match cfg.grid with | some g => g.columns | none => 0
  let runs := lookRuns s x.firstPos x.lastPos
  let count := (runs.map (·.2)).sum
  let lines := if count ≤ 65536 then lookLines s runs else []
  let stitched (n : Nat) : Bool := match s.dovetail.last with | some l => atOrAfter l n | none => false
  firstBad ([(0, decide (x.field < fieldsOf cfg)), (1, inRange 0 2 x.source),
    (4, decide (base ≤ x.firstCol) && decide (x.firstCol < base + columns)),
    (8, inRange 1 262144 x.cols && decide (x.firstCol + x.cols ≤ base + columns)), (12, decide (0 < count) && (decide (65536 < count) || !lines.isEmpty)),
    (20, decide (count ≤ 65536) && lines.all stitched)] ++ bulkHostOnly p 32 ++
    [(40, decide (lookbackBytes x.cols lines.length ≤ x.dest.length))])

/-- The frames at the front of some bytes, each padded to 64 bytes. -/
def framesAhead : Nat → Bytes → Bytes
  | 0, _ => []
  | fuel + 1, b =>
    if b.length < 32 ∨ u16 b 0 ≠ 0x504B then []
    else
      let n := ceilDiv (32 + u32 b 20) 64 * 64
      b.take n ++ framesAhead fuel (b.drop n)

/-- The frames of one archived stream of a strip: before and after the wrap of its frame area (R518). -/
def streamFrames (s : State) (r : SubRing) (x : ArcStrip) : Bytes :=
  let all := ringRead s (areaBase r) (areaSize r) x.off x.len
  let room := areaSize r - x.off
  framesAhead (x.frames + 1) (all.take room) ++ framesAhead (x.frames + 1) (all.drop room)

/-- The rows of a band as its stream decodes them (R573). -/
def bandRow (s : State) (bandCols row : Nat) (r : SubRing) (x : ArcStrip) : List Nat :=
  let run : DecRun := { data := streamFrames s r x, padded := true, invert := true }
  let d := decodeFrames run (2 ^ 40) (x.frames + 1) 0 none {}
  let n := patchRowBytes bandCols
  unpackBits 18 bandCols (leVal (slice d.out (row * n) n))

/-- The samples of a line in a column range, taken from the archive ring. -/
def archiveSamples (s : State) (streams : List Nat) (lo cols line : Nat) : List Nat :=
  match s.comp.layout with
  | none => []
  | some l =>
    let a := l.1
    let shift := lookShift s line
    let row := line % 2 ^ shift
    let xs := streams.flatMap fun j =>
      match (subAt s j).strips.find? fun x => decide (x.strip = stripOf shift line) with
      | some x => bandRow s a.bandCols row (subAt s j) x
      | none => []
    let start := match streams with | j :: _ => a.firstCol + j % a.bands * a.bandCols | [] => 0
    (xs.drop (lo - start)).take cols

/-- One line record (R574). -/
def lookRecord (s : State) (x : LookbackPar) (base : Nat) (streams : List Nat) (line ring : Nat) : Bytes :=
  let strip := stripOf (lookShift s line) line
  let lo := x.firstCol - base
  let tag := readStitchedTag s line x.field
  let xs := if ring = 1 then ((readStitchedRow s line x.field).drop lo).take x.cols else archiveSamples s streams lo x.cols line
  let head := if ring = 1 then lookbackHead line (posOfLine s line) (stTagStime tag) x.field 1 (stTagFlags tag) (u32 tag 20) (u32 tag 24) strip
    else lookbackHead line (posOfLine s line) 0 x.field 2 0 0 0 strip
  padTo (lookbackStride x.cols) (head ++ le (patchRowBytes x.cols) (packBits 18 xs))

def gridBase (c : Cfg) : Nat := match c.grid with | some g => g.base | none => 0

/-- ST_GONE names the oldest WebPos still held. -/
def goneBody (s : State) (streams : List Nat) : Bytes := leI 8 (oldestHeld s streams)

/-- LOOKBACK is taken: the first line must be held, and lines only the archive holds need a decompressor (R571, R573). -/
def lookbackRun (r : CmdRec) (c : HostCmd) (s : State) : Verdict :=
  checked (badLookback s c.params) s fun _ =>
    let x := parLookback c.params
    let streams := lookStreams s x.field (x.firstCol - gridBase (cfgNow s)) x.cols
    let lines := lookLines s (lookRuns s x.firstPos x.lastPos)
    let rings := lines.map (lookRing s x.source streams)
    match rings with
    | some _ :: _ =>
      let run : LookbackRun := { par := x, ticket := r.ticket, lines }
      if rings.any fun k => decide (k = some 2) then
        match (List.range 4).find? fun d => (rtHolder s 0x0A d).isNone && !isFenced s 0x0A (16 + d) with
        | none => busy 3 0 s
        | some d =>
          let s := holdRt 0x0A d 0x0902 0 (setDe d (fun u => { u with lookback := true }) s)
          accepted [] { s with bench := { s.bench with lookbacks := s.bench.lookbacks ++ [{ run with de := some d }] } }
      else accepted [] { s with bench := { s.bench with lookbacks := s.bench.lookbacks ++ [run] } }
    | _ => fail stGone (goneBody s streams) s

/-- A look-back has read its lines and written its records (R572 to R574). -/
def lookbackDone (ticket fails : Nat) (s : State) : State :=
  match s.bench.lookbacks.find? fun r => decide (r.ticket = ticket) with
  | none => s
  | some r =>
    let x := r.par
    let streams := lookStreams s x.field (x.firstCol - gridBase (cfgNow s)) x.cols
    let rings := r.lines.map (lookRing s x.source streams)
    let s := dropLookback r s
    if rings.any (·.isNone) then complete ticket stGone (goneBody s streams) s
    else if 2 ≤ fails then complete ticket stHostError (zeros 8) s
    else
      let s := if fails = 1 then countTransient 1 s else s
      let recs := (r.lines.zip rings).flatMap fun e => lookRecord s x (gridBase (cfgNow s)) streams e.1 (e.2.getD 1)
      let strips := (rings.filter fun k => decide (k = some 1)).length
      let total := r.lines.length
      let data := lookbackFront (r.lines.headD 0) total x.firstCol x.cols x.field strips (total - strips) ++ recs
      complete ticket stOk (le 4 total ++ le 4 strips ++ le 4 (total - strips) ++ le 4 data.length) (bulkFor ticket x.dest data s)

end Sys2Proof.Machine
end

