-- ==== Sys2Proof/Machine/Bench.lean ====
section
/-! DEFINITION. The commands and events of the Bench ("The Bench: central store and memory controller"). -/

namespace Sys2Proof.Machine

def specPartitionConfig : CmdSpec :=
  { opcode := 0x0900, need := exactly 16, unitOk := unitBelow 18,
    run := fun _ c s => stageEdit 0x0900 c.unit (badPart c.unit c.params) (fun g => { g with part := vset g.part c.unit (parPart c.params) }) s }

/-- PARTITION_CONFIG stages a partition (R533, Table 12-8). -/
def execPartitionConfig (t : Nat) (c : HostCmd) (s : State) : Host.Outcome State Fault Refusal := execCmd specPartitionConfig t c s

def specPortConfig : CmdSpec :=
  { opcode := 0x0901, need := exactly 8, unitOk := unitBelow 16,
    run := fun _ c s => stageEdit 0x0901 c.unit (badPort c.unit c.params) (fun g => { g with port := vset g.port c.unit (some (parPort c.params)) }) s }

/-- PORT_CONFIG stages a port's targets (R542). -/
def execPortConfig (t : Nat) (c : HostCmd) (s : State) : Host.Outcome State Fault Refusal := execCmd specPortConfig t c s

/-- Stacks that hold the strip ring and the archive ring. -/
def lookDies (s : State) (_ : HostCmd) : List Nat :=
  [12, 13].filterMap fun k => let p := vget (cfgNow s).part k; if p.enable then some (stackOf (p.baseMib * mib)) else none

def specLookback : CmdSpec :=
  { opcode := 0x0902, need := exactly 48, unitOk := unitIs 0, dies := lookDies, run := lookbackRun }

/-- LOOKBACK retrieves past web content (R568 to R575). -/
def execLookback (t : Nat) (c : HostCmd) (s : State) : Host.Outcome State Fault Refusal := execCmd specLookback t c s

/-- A look-back has written its records. -/
def execLookbackDone (t ticket fails : Nat) (s : State) : Host.Outcome State Fault Refusal := runFabric t [12, 13] s (lookbackDone ticket fails)

/-! ### SELF_REFRESH -/

def badSelfRefresh (p : Bytes) : Option Nat :=
  firstBad [(0, inRange 0 3 (u8 p 0)), (4, decide (u8 p 0 ≠ 2) || inRange 1 60000 (u32 p 4))]

/-- The reply waits for an entry or an exit. -/
def waitSr (r : CmdRec) (s : State) : Verdict := replyLater { s with bench := { s.bench with srTickets := s.bench.srTickets ++ [r.ticket] } }

/-- A frozen controller, or a fenced Bench, refuses the command; forced self-refresh ends only through the Holdfast or a reset (R557). -/
def selfRefreshRun (r : CmdRec) (c : HostCmd) (s : State) : Verdict :=
  checked (badSelfRefresh c.params) s fun _ =>
    let asleep := benchAsleep s
    match benchRefuses { s with bench := { s.bench with autoEntered := true } } [0, 1] with
    | some v => { v with st := s }
    | none =>
      if asleep && s.bench.forced then wrongState s
      else match u8 c.params 0 with
        | 0 => if asleep || s.bench.entering.isSome then waitSr r (startExit s) else ok (srBody s) s
        | 1 =>
          if s.gauge.trigEnabled then wrongState s
          else if asleep then
            let s := { s with bench := { s.bench with autoEntered := false } }
            ok (srBody s) s
          else if s.bench.entering.isSome then waitSr r { s with bench := { s.bench with autoEntered := false } }
          else waitSr r { s with bench := { s.bench with entering := some s.bench.nextReq, autoEntered := false } }
        | 2 =>
          let s := { s with bench := { s.bench with auto := true, autoDelayMs := u32 c.params 4 } }
          ok (srBody s) s
        | _ =>
          let s := { s with bench := { s.bench with auto := false } }
          if (asleep || s.bench.entering.isSome) && s.bench.autoEntered then waitSr r (startExit s) else ok (srBody s) s

def specSelfRefresh : CmdSpec := { opcode := 0x0903, need := exactly 8, unitOk := unitIs 0, run := selfRefreshRun }

/-- SELF_REFRESH enters or leaves self-refresh, or sets automatic self-refresh (R553 to R556). -/
def execSelfRefresh (t : Nat) (c : HostCmd) (s : State) : Host.Outcome State Fault Refusal := execCmd specSelfRefresh t c s

/-! ### BENCH_STATUS and READ_CAPTURE -/

/-- A partition as BENCH_STATUS reports it; the firmware working space by its place in stack 0 (R535). -/
def partBlock (c : Cfg) (k : Nat) : Bytes :=
  if k = 18 then le 4 24448 ++ le 4 128
  else
    let p := vget c.part k
    if p.enable then le 4 p.baseMib ++ le 4 (toMib (partBytes c k)) else zeros 8

def benchStatusBody (s : State) : Bytes :=
  let cfg := cfgNow s
  ctlBlock s.bench.auto (vget s.bench.ctl 0) ++ ctlBlock s.bench.auto (vget s.bench.ctl 1) ++
  ((List.range 16).flatMap fun p => le 4 (portCfg s p).target ++ le 4 (portCfg s p).deadline) ++ (List.range 19).flatMap (partBlock cfg)

def specBenchStatus : CmdSpec := { opcode := 0x0904, need := exactly 0, unitOk := unitIs 0, run := fun _ _ s => ok (benchStatusBody s) s }

/-- BENCH_STATUS reads the controllers, ports and partitions in force. -/
def execBenchStatus (t : Nat) (c : HostCmd) (s : State) : Host.Outcome State Fault Refusal := execCmd specBenchStatus t c s

def captureBody (c : BenchCtl) : Bytes :=
  captureBytes c.capture ++ padTo 256 (c.transients.flatMap transientBytes)

def specReadCapture : CmdSpec :=
  { opcode := 0x0905, need := exactly 0, unitOk := unitBelow 2, run := fun _ c s => ok (captureBody (vget s.bench.ctl c.unit)) s }

/-- READ_CAPTURE reads a controller's freeze capture and its transient log (Table 12-9). -/
def execReadCapture (t : Nat) (c : HostCmd) (s : State) : Host.Outcome State Fault Refusal := execCmd specReadCapture t c s

/-! ### Events -/

/-- A request enters a controller through its port (R542). -/
def execBenchRequest (t : Nat) (req : BenchReq) (s : State) : Host.Outcome State Fault Refusal := runAt t s (benchRequest req)

/-- A pseudo-channel issues its next request, from those that HBM3 timing allows (R544). -/
def execBenchIssue (t pch : Nat) (allowed : List Nat) (s : State) : Host.Outcome State Fault Refusal :=
  runAt t s fun s => if 64 ≤ pch then s else benchIssue pch allowed s

/-- The age of a port's oldest request crosses a threshold (R543). -/
def execBenchUrgencyRise (t port : Nat) (s : State) : Host.Outcome State Fault Refusal :=
  runAt t s fun s => if 16 ≤ port then s else urgencyRise port s

/-- A read returns and is checked (R558 to R562). -/
def execBenchReadDone (t id : Nat) (outcome : BenchOutcome) (s : State) : Host.Outcome State Fault Refusal :=
  runAt t s (onFabric [] settle ∘ benchReadDone id outcome)

/-- A write or command parity error is reported (R561). -/
def execBenchParityError (t id : Nat) (outcome : BenchOutcome) (s : State) : Host.Outcome State Fault Refusal :=
  runAt t s (onFabric [] settle ∘ benchParity id outcome)

/-- A refresh interval elapses (R549, R550). -/
def execBenchRefreshDue (t pch : Nat) (s : State) : Host.Outcome State Fault Refusal := runAt t s (refreshDue pch)

/-- A stack's temperature crosses a threshold (R551). -/
def execStackTempChange (t stack : Nat) (temp : Int) (s : State) : Host.Outcome State Fault Refusal :=
  runAt t s fun s => if 2 ≤ stack then s else stackTemp stack temp s

/-- Entry into self-refresh is complete on every pseudo-channel (R553, R557). -/
def execSelfRefreshEntered (t : Nat) (s : State) : Host.Outcome State Fault Refusal := runAt t s selfRefreshEntered

/-- Nothing has entered a controller for AUTO_DELAY_MS (R555). -/
def execAutoSelfRefreshTimeout (t : Nat) (s : State) : Host.Outcome State Fault Refusal := runAt t s autoEnter

end Sys2Proof.Machine
end

