-- ==== Sys2Proof/Machine/Compares.lean ====
section
/-! DEFINITION. The commands that stage the encoders, the triggers and the compare units, the commands and events of the compare
units, and GAUGE_STATUS ("Web encoders, sub-count line triggers and position compare"). -/

namespace Sys2Proof.Machine

/-! ### Staged settings -/

def encoderConfigSpec : CmdSpec where
  opcode := 0x0C00
  need := exactly 24
  unitOk := unitBelow 6
  units := fun c => [(0x0C, c.unit)]
  run := fun _ c s =>
    let v := stageEdit 0x0C00 c.unit (badEncoder c.unit c.params) (fun g => { g with enc := vset g.enc c.unit (parEncoder c.params) }) s
    if v.status = stOk then
      { v with st := { v.st with gauge := { v.st.gauge with encStaged := c.unit :: v.st.gauge.encStaged.filter fun e => decide (e ≠ c.unit) } } }
    else v

/-- ENCODER_CONFIG stages an encoder's role and decoding. That it was staged is kept until the next glue-up (R138, R145). -/
def execEncoderConfig (t : Nat) (c : HostCmd) (s : State) : Host.Outcome State Fault Refusal := execCmd encoderConfigSpec t c s

def triggerConfigSpec : CmdSpec where
  opcode := 0x0C01
  need := exactly 48
  unitOk := unitBelow 25
  units := fun c => [(0x0C, c.unit)]
  run := fun _ c s =>
    if c.unit = 24 then
      stageEdit 0x0C01 24 (badLineSeq c.params)
        (fun g => { g with seq := some (parLineSeq c.params), shift := u8 c.params 10 }) s
    else stageEdit 0x0C01 c.unit (badSlotTrig c.params) (fun g => { g with trig := vset g.trig c.unit (parSlotTrig c.params) }) s

/-- TRIGGER_CONFIG stages the line sequence, or a slot's triggers and strobes. -/
def execTriggerConfig (t : Nat) (c : HostCmd) (s : State) : Host.Outcome State Fault Refusal := execCmd triggerConfigSpec t c s

def compareConfigSpec : CmdSpec where
  opcode := 0x0C02
  need := exactly 8
  unitOk := unitBelow 16
  units := fun c => [(0x0C, c.unit)]
  run := fun _ c s =>
    stageEdit 0x0C02 c.unit (badCompare c.params) (fun g => { g with cmp := vset g.cmp c.unit (parCompare c.params) }) s

/-- COMPARE_CONFIG stages a compare unit. -/
def execCompareConfig (t : Nat) (c : HostCmd) (s : State) : Host.Outcome State Fault Refusal := execCmd compareConfigSpec t c s

/-! ### The lists -/

/-- R180 and R814: the unit takes no list command. -/
def compareShut (s : State) (u : Nat) : Bool := (stationOfCmp (cfgNow s) u).isSome || !(cmpCfg s u).enable

def appendEntries (c : HostCmd) : List CmpEntry := (List.range (u16 c.params 2)).map fun i => parCmpEntry c.params (4 + 16 * i)

/-- COMPARE_APPEND's head and entries in range. -/
def badAppend (c : HostCmd) : Option Nat :=
  firstBad ([(0, inRange 0 1 (u8 c.params 0)), (1, !bitOf (u8 c.params 1) 0 || decide (u8 c.params 0 = 1)), (2, inRange 1 254 (u16 c.params 2))] ++
    (appendEntries c).zipIdx.map fun e => (4 + 16 * e.2 + 13, !e.1.axisStart || decide (e.1.axis < 4)))

/-- An append to the shadow list; during a swap's lock it is a late write to the list that was active (R53, R179). -/
def appendShadow (u : Nat) (clear : Bool) (es : List CmpEntry) (s : State) : Verdict :=
  let cfg := cmpCfg s u
  let late := decide (s.now < (vget s.gauge.cmp u).lockUntil)
  let s := setCmp u (fun x => { x with
    shadow := es.foldl (fun l e => insertBy (cmpBefore cfg.reverse) e l) (if clear then [] else x.shadow)
    lateWrites := x.lateWrites + (if late then 1 else 0) }) s
  let body := appendBody es.length 0 (listFree (vget s.gauge.cmp u).shadow)
  if late then { status := stOkLate, body, st := s } else ok body s

def compareAppend (r : CmdRec) (c : HostCmd) (s : State) : Verdict :=
  let u := c.unit
  if compareShut s u then wrongState s
  else checked (badAppend c) s fun _ =>
    let es := appendEntries c
    match (es.filter (·.axisStart)).findSome? fun e => rtHolder s 0x0D e.axis with
    | some h => conflict h s
    | none =>
      let x := vget s.gauge.cmp u
      let shadow := decide (u8 c.params 0 = 1)
      let clear := bitOf (u8 c.params 1) 0
      let free := if shadow then (if clear then cmpCap else listFree x.shadow) else cmpCap - x.active.length - x.inserting.length
      if free < es.length then badParam (4 + 16 * free) s
      else if shadow then appendShadow u clear es s
      else replyLater (beginInserts u es (some r.ticket) s)

def compareAppendSpec : CmdSpec where
  opcode := 0x0C03
  need := fun c => (4 + 16 * u16 c.params 2, decide (c.paramLen = 4 + 16 * u16 c.params 2))
  unitOk := unitBelow 16
  units := fun c => [(0x0C, c.unit)]
  run := compareAppend

/-- COMPARE_APPEND inserts entries into a unit's active list, which answers once the last insertion has completed (R176), or into
its shadow list. -/
def execCompareAppend (t : Nat) (c : HostCmd) (s : State) : Host.Outcome State Fault Refusal := execCmd compareAppendSpec t c s

/-- An appended entry's insertion completes: it goes to its place when it lies ahead of WebPos, else it is missed (R176). -/
def execCompareInsertComplete (t : Nat) (u : Nat) (s : State) : Host.Outcome State Fault Refusal :=
  runAt t s fun s =>
    if 16 ≤ u then s
    else
      let r := completeInsert u s
      match r.2 with
      | some e => markMissed u e r.1
      | none => r.1

def compareSwapSpec : CmdSpec where
  opcode := 0x0C04
  need := exactly 0
  unitOk := unitBelow 16
  units := fun c => [(0x0C, c.unit)]
  run := fun _ c s =>
    if compareShut s c.unit then wrongState s
    else
      let r := swapLists c.unit s
      ok (le 2 r.2.1 ++ le 2 r.2.2) r.1

/-- COMPARE_SWAP makes the shadow list active (R179). -/
def execCompareSwap (t : Nat) (c : HostCmd) (s : State) : Host.Outcome State Fault Refusal := execCmd compareSwapSpec t c s

/-- The predicted time of a unit's first entry has come (R175). Before the anchor count the prediction has overshot, and the entry
is computed again at the next count (R162). -/
def compareFire (u : Nat) (s : State) : State :=
  let x := vget s.gauge.cmp u
  match x.fireAt, x.active with
  | some f, e :: _ =>
    if s.now < f ∨ !(cmpCfg s u).enable then s
    else if !atAnchor s e.pos then setCmp u (fun x => { x with fireAt := none }) s
    else withMarks (fireFirst u) s
  | _, _ => s

/-- A forward compare entry fires at its predicted time, and takes its actions. -/
def execCompareFire (t : Nat) (u : Nat) (s : State) : Host.Outcome State Fault Refusal :=
  runAt t s fun s => if 16 ≤ u then s else compareFire u s

/-- A pulse of a TRG output ends, and the output returns to its inactive level (R172). -/
def execTrgPulseEnd (t : Nat) (trg : Nat) (s : State) : Host.Outcome State Fault Refusal :=
  runAt t s fun s =>
    let o := vget s.gauge.trg trg
    if trg < 8 ∧ o.active ∧ o.until_ ≤ s.now then { s with gauge := { s.gauge with trg := vset s.gauge.trg trg { o with active := false } } } else s

/-! ### GAUGE_STATUS -/

/-- Table 3-8. -/
def gaugeBody (s : State) (e : Nat) : Bytes :=
  let x := vget s.gauge.enc e
  leI 8 (if (vget (cfgNow s).enc e).role = 1 then s.gauge.webPos else x.position) ++ leI 8 (encSpeed s e) ++ leI 8 x.indexPos ++ le 4 x.illegal ++
  le 2 (gaugeFlags s e) ++ zeros 2 ++ le 4 (s.gauge.lastLine.getD 0) ++ le 4 s.gauge.lateTrig ++ le 4 s.gauge.trigSkip ++ le 4 s.gauge.missed

def gaugeStatusSpec : CmdSpec where
  opcode := 0x0C05
  need := exactly 0
  unitOk := unitBelow 6
  run := fun _ c s => ok (gaugeBody s c.unit) s

/-- GAUGE_STATUS reads an encoder's state and the trigger counters (Table 3-8). -/
def execGaugeStatus (t : Nat) (c : HostCmd) (s : State) : Host.Outcome State Fault Refusal := execCmd gaugeStatusSpec t c s

end Sys2Proof.Machine
end

