-- ==== Sys2Proof/Machine/Compress.lean ====
section
/-! DEFINITION. The commands and events of compression: ARCHIVE_CONFIG, COMPRESS_CONFIG, stream contexts, DECOMPRESS, the archive and
the compressors' blocks ("Compression and the pack frame"). -/

namespace Sys2Proof.Machine

def archiveConfigSpec : CmdSpec where
  opcode := 0x0A00
  need := exactly 24
  unitOk := unitIs 0
  run := fun _ c s =>
    let columns := match s.staged.grid with | some g => g.columns | none => 0
    stageEdit 0x0A00 0 (badArchive c.params (fieldsOf s.staged) columns) (fun g => { g with archive := parArchive c.params }) s

/-- ARCHIVE_CONFIG stages the archive (R514). -/
def execArchiveConfig (t : Nat) (c : HostCmd) (s : State) : Host.Outcome State Fault Refusal := execCmd archiveConfigSpec t c s

/-- A compressor named by another verifier of the staged configuration (R511). -/
def otherVerifier (s : State) (unit mask : Nat) : Option Holder :=
  (List.range 4).findSome? fun d =>
    if d = unit then none
    else
      match (maskList 16 mask).find? fun e => bitOf (vget s.staged.verify d) e with
      | some e => some { kind := 9, index := e, opcode := 0x0A01, unit := d, state := if bitOf (vget (cfgNow s).verify d) e then 0 else 1 }
      | none => none

def compressConfigSpec : CmdSpec where
  opcode := 0x0A01
  need := exactly 4
  unitOk := unitBelow 4
  units := fun c => [(0x0A, 16 + c.unit)]
  run := fun _ c s =>
    let mask := u16 c.params 0
    let stage (_ : Unit) := stageEdit 0x0A01 c.unit none (fun g => { g with verify := vset g.verify c.unit mask }) s
    if s.glue.isSome || s.ring.prepared.isSome then stage ()
    else match otherVerifier s c.unit mask with
      | some h => conflict h s
      | none => stage ()

/-- COMPRESS_CONFIG stages a decompressor as verifier (R511). -/
def execCompressConfig (t : Nat) (c : HostCmd) (s : State) : Host.Outcome State Fault Refusal := execCmd compressConfigSpec t c s

/-! ### Context slots -/

/-- A context slot that nothing else claims (R109). -/
def slotHolder (s : State) (slot : Nat) : Option Holder := rtHolder s 0x0F slot

def badContext (c : HostCmd) (s : State) : Option Nat :=
  firstBad ((0, decide (u16 c.params 0 < contextSlots s)) :: bulkHostOnly c.params 4 ++ [(12, decide (u32 c.params 12 = contextBytes))])

/-- The stack of the Bench that a context slot of the command lies in. -/
def contextDies (at_ : Nat) (s : State) (c : HostCmd) : List Nat :=
  let slot := u16 c.params at_
  if slot < contextSlots s then [stackOf (contextOff s slot)] else []

def contextSaveSpec : CmdSpec where
  opcode := 0x0A02
  need := exactly 20
  unitOk := unitIs 0
  dies := contextDies 0
  run := fun _ c s =>
    checked (badContext c s) s fun _ =>
      match slotHolder s (u16 c.params 0) with
      | some h => conflict h s
      | none =>
        let ref := parBulk c.params 4
        withBulk c.bulkFails ref s fun s => ok [] (bulkOut ref (benchRead s (contextOff s (u16 c.params 0)) contextBytes) s)

/-- CONTEXT_SAVE copies a context slot to host memory (R524). -/
def execContextSave (t : Nat) (c : HostCmd) (s : State) : Host.Outcome State Fault Refusal := execCmd contextSaveSpec t c s

def contextRestoreSpec : CmdSpec where
  opcode := 0x0A03
  need := exactly 20
  unitOk := unitIs 0
  dies := contextDies 0
  run := fun _ c s =>
    checked (badContext c s) s fun _ =>
      match slotHolder s (u16 c.params 0) with
      | some h => conflict h s
      | none =>
        let ref := parBulk c.params 4
        withBulk c.bulkFails ref s fun s =>
          let data := bulkData c ref s
          if !contextValid data then badParam 4 s else ok [] (benchWrite (contextOff s (u16 c.params 0)) data s)

/-- CONTEXT_RESTORE copies a slot image from host memory, when its check holds (R525). -/
def execContextRestore (t : Nat) (c : HostCmd) (s : State) : Host.Outcome State Fault Refusal := execCmd contextRestoreSpec t c s

/-! ### DECOMPRESS -/

def decIn (c : HostCmd) : Option Nat := if bitOf (u8 c.params 0) 1 then some (u16 c.params 2) else none
def decOut (c : HostCmd) : Option Nat := if bitOf (u8 c.params 0) 2 then some (u16 c.params 4) else none

/-- Parameters of DECOMPRESS; `src` are the bytes of SOURCE. -/
def badDecompress (c : HostCmd) (s : State) (src : Bytes) : Option Nat :=
  let below (k : Option Nat) : Bool := match k with | some i => decide (i < contextSlots s) | none => true
  firstBad ([(0, !((decOut c).isSome && bitOf (u8 c.params 0) 0) || decide (u8 src 31 % 8 * u24 src 28 ≤ 262144)), (2, below (decIn c)),
    (4, below (decOut c))] ++ bulkChecks c.params 8 ++ bulkHostOnly c.params 24)

/-- A decompressor that may be claimed. -/
def deFree (s : State) (d : Nat) : Bool := (rtHolder s 0x0A d).isNone && !isFenced s 0x0A (16 + d)

def decompressRun (r : CmdRec) (c : HostCmd) (s : State) : Verdict :=
  let ref := parBulk c.params 8
  let src := bulkData c ref s
  checked (badDecompress c s src) s fun _ =>
    let pick := if c.unit = 0xFF then (List.range 4).find? (deFree s) else some c.unit
    match pick with
    | none => busy 3 0 s
    | some d =>
      let slots := ((decIn c).toList ++ (decOut c).toList).eraseDups
      match (rtHolder s 0x0A d).or (slots.findSome? fun k => slotHolder s k) with
      | some h => conflict h s
      | none =>
        let s := holdRt 0x0A d 0x0A04 d s
        let s := slots.foldl (fun s k => holdRt 0x0F k 0x0A04 d s) s
        accepted [] (setDe d (fun u => { u with run := some {
          ticket := r.ticket
          padded := bitOf (u8 c.params 0) 3
          contextOut := decOut c
          contextIn := decIn c
          invert := bitOf (u8 c.params 0) 0
          source := ref
          dest := parBulk c.params 24
          data := src } }) s)

def decompressSpec : CmdSpec where
  opcode := 0x0A04
  need := exactly 48
  unitOk := fun _ c => decide (c.unit < 4) || decide (c.unit = 0xFF)
  units := fun c => if c.unit < 4 then [(0x0A, 16 + c.unit)] else []
  dies := fun s c =>
    let slot (k : Option Nat) : List Nat := match k with | some i => if i < contextSlots s then [stackOf (contextOff s i)] else [] | none => []
    bulkStacks (parBulk c.params 8) ++ slot (decIn c) ++ slot (decOut c)
  run := decompressRun

/-- DECOMPRESS decodes frames (R522, R523). -/
def execDecompress (t : Nat) (c : HostCmd) (s : State) : Host.Outcome State Fault Refusal := execCmd decompressSpec t c s

/-- A DECOMPRESS has read its source and written its output, with so many failed attempts at its transfers (R80). -/
def execDecompressDone (t : Nat) (de fails : Nat) (s : State) : Host.Outcome State Fault Refusal :=
  runFabric t [] s fun s => if 4 ≤ de then s else decompressDone de fails s

/-- The archive streams of the next strip begin (R515). -/
def execArchiveStripStart (t : Nat) (s : State) : Host.Outcome State Fault Refusal := runFabric t [12, 13] s archiveStart

/-- The Bench serves the partition that a compressor's job is written to. -/
def jobServed (s : State) (e : Nat) : Bool :=
  match (ceAt s e).job with
  | none => true
  | some j => match j.source with
    | .archive _ => partUp s 13
    | .patch _ _ => partUp s 14

/-- A compressor finishes a block, and its verifier's check fails so often (R502, R512). -/
def execCompressBlockDone (t : Nat) (ce fails : Nat) (s : State) : Host.Outcome State Fault Refusal :=
  runFabric t [] s fun s => if 16 ≤ ce || !jobServed s ce then s else blockDone ce fails s

end Sys2Proof.Machine
end

