-- ==== Sys2Proof/Machine/Dma.lean ====
section
/-! DEFINITION. The commands and events of the DMA channels ("DMA channels"). -/

namespace Sys2Proof.Machine

/-- A register write to a DMA channel: locks that have ended by now swap first. -/
def chanWrite (t ch : Nat) (s : State) (f : State → State) : Host.Outcome State Fault Refusal :=
  runAt t s (bar0Write fun s => if 64 ≤ ch then s else f (settleLocks s))

/-- A write to CFG or CFG_TIMER (R595). -/
def execDmaCfgWrite (t ch : Nat) (timer : Bool) (v : Nat) (s : State) : Host.Outcome State Fault Refusal :=
  chanWrite t ch s (dmaCfgWrite ch timer (wrap32 v))

/-- A write to DESC_BASE, DESC_COUNT or MODE (R597, R600). -/
def execDmaShadowWrite (t ch : Nat) (reg : ShadowReg) (v : Nat) (s : State) : Host.Outcome State Fault Refusal :=
  chanWrite t ch s (shadowWrite ch (shadowHeld reg v))

/-- CTRL.DOORBELL (R601, R602). -/
def execDmaDoorbell (t ch : Nat) (s : State) : Host.Outcome State Fault Refusal := chanWrite t ch s (dmaDoorbell ch)

/-- CTRL.ARM (R597, R600). -/
def execDmaArm (t ch : Nat) (s : State) : Host.Outcome State Fault Refusal := chanWrite t ch s (shadowWrite ch .arm)

/-- CTRL.ABORT (R612). -/
def execDmaAbort (t ch : Nat) (s : State) : Host.Outcome State Fault Refusal := chanWrite t ch s (abortChan ch 12 12)

/-- CTRL.RESET (R612). -/
def execDmaReset (t ch : Nat) (s : State) : Host.Outcome State Fault Refusal := chanWrite t ch s (resetChan ch 12 12)

/-- A pacing timer ticks: the channel that claims it and starts by its timer gets a start signal (R602). -/
def timerTick (timer : Nat) (s : State) : State :=
  (List.range 64).foldl (fun s c =>
    let g := unitDma s c
    if dmaEnable g && dmaTimerEn g && decide (dmaTimer g = timer) && decide (modeStart (vget s.dma.ch c).active.mode = 1) then startSignal c s else s)
    (settleLocks s)

def execDmaTimerTick (t timer : Nat) (s : State) : Host.Outcome State Fault Refusal := runFabric t [] s (timerTick timer)

/-- A descriptor fetch completes (R604, R610). -/
def execDmaDescFetched (t ch : Nat) (desc : Bytes) (fails : Nat) (s : State) : Host.Outcome State Fault Refusal :=
  runFabric t [] s fun s => if 64 ≤ ch then s else descFetched ch desc fails s

/-- A descriptor has waited for a ticket (R604). -/
def execDmaTicketTimeout (t ch : Nat) (s : State) : Host.Outcome State Fault Refusal :=
  runFabric t [] s fun s => if 64 ≤ ch then s else descTicketTimeout ch s

/-- A burst read fills a staging page (R610, R611). -/
def execDmaBurstReadDone (t ch : Nat) (data : Bytes) (fails : Nat) (s : State) : Host.Outcome State Fault Refusal :=
  runFabric t [] s fun s => if 64 ≤ ch then s else burstRead ch data fails s

/-- The write engine drains its next page (R610, R611). -/
def execDmaBurstWrite (t fails : Nat) (s : State) : Host.Outcome State Fault Refusal := runFabric t [] s (burstWrite fails)

/-- A descriptor's last write has left (R613). -/
def execDmaDescriptorComplete (t ch : Nat) (s : State) : Host.Outcome State Fault Refusal :=
  runFabric t [] s fun s => if 64 ≤ ch then s else descComplete ch s

/-- The zero-length read of a FLUSH descriptor completes (R609). -/
def execDmaFlushDone (t ch fails : Nat) (s : State) : Host.Outcome State Fault Refusal :=
  runFabric t [] s fun s => if 64 ≤ ch then s else flushDone ch fails s

end Sys2Proof.Machine
end

