-- ==== Sys2Proof/Machine/Plane.lean ====
section
/-! DEFINITION. The commands of "Correction and calibration", and the events of the Jig. -/

namespace Sys2Proof.Machine

/-- The configuration in force in a unit that takes up web lines. -/
def unitCfg (s : State) (u : LineUnit) : Cfg :=
  match s.glue with
  | some g => if g.applied.contains u then g.next else s.running
  | none => s.running

def planeUnits (c : HostCmd) : List (Nat × Nat) := [(0x04, c.unit)]

def specPlaneConfig : CmdSpec :=
  { opcode := 0x0400, need := exactly 32, unitOk := unitBelow 24, units := planeUnits,
    run := fun _ c s =>
      stageEdit 0x0400 c.unit (badPlane c.params) (fun cfg => { cfg with plane := vset cfg.plane c.unit (parPlane c.params) }) s }

/-- PLANE_CONFIG stages a slot's ingest fields and correction settings. -/
def execPlaneConfig (t : Nat) (c : HostCmd) (s : State) : Host.Outcome State Fault Refusal := execCmd specPlaneConfig t c s

/-! ### LOAD_TABLE and READ_TABLE (R280 to R288) -/

/-- The entries of a source (Table 6-5); a LIN knot has its value in bits [20:0]. -/
def tableEntries (p : TablePar) (data : Bytes) : List Nat :=
  let vs := valsAt data 0 (tableEntryBytes p.kind) p.count
  if p.kind = 3 then vs.map (· % 2 ^ 21) else vs

def specLoadTable : CmdSpec :=
  { opcode := 0x0401, need := exactly 32, unitOk := unitBelow 24, units := planeUnits,
    dies := fun _ c => bulkStacks (parBulk c.params 16),
    run := fun r c s =>
      checked (badLoadTable c.params) s fun _ =>
        let p := parTable c.params
        let slot := c.unit
        let gate := bankEdit s (.plane slot) (vget s.plane.slots slot).captured.isSome id id
        if 0x8000 ≤ gate.status then gate
        else
          withBulk c.bulkFails p.ref s fun s =>
            let vals := tableEntries p (bulkData c p.ref s)
            match tableBadEntry p.kind vals with
            | some i => badEntry i s
            | none =>
              let w : TableWrite := { kind := p.kind, field := p.field, first := p.first, vals }
              bankEdit s (.plane slot) (vget s.plane.slots slot).captured.isSome
                (setSlotPlane slot fun x => { x with shadow := tableApply w x.shadow })
                (setSlotPlane slot fun x => { x with held := x.held ++ [(w, r.ticket)] }) }

/-- LOAD_TABLE writes entries of one table into the slot's shadow bank. -/
def execLoadTable (t : Nat) (c : HostCmd) (s : State) : Host.Outcome State Fault Refusal := execCmd specLoadTable t c s

def specReadTable : CmdSpec :=
  { opcode := 0x0402, need := exactly 32, unitOk := unitBelow 24,
    run := fun _ c s =>
      checked (badReadTable c.params) s fun _ =>
        let p := parTable c.params
        let x := vget s.plane.slots c.unit
        let bank := if p.bank = 0 then x.active else x.captured.getD x.shadow
        let vals := tableRead bank p.kind p.field p.first p.count
        withBulk c.bulkFails p.ref s fun s =>
          ok (le 4 vals.length) (bulkOut p.ref (vals.flatMap (le (tableEntryBytes p.kind))) s) }

/-- READ_TABLE reads entries of one table; between capture and swap the shadow bank reads as captured. -/
def execReadTable (t : Nat) (c : HostCmd) (s : State) : Host.Outcome State Fault Refusal := execCmd specReadTable t c s

/-! ### SET_ZONE_SHIM (R292 to R298) -/

def badZoneShim (p : Bytes) (zones : Nat) : Option Nat :=
  let op := u8 p 1
  let first := u8 p 2
  firstBad ([(0, inRange 0 3 (u8 p 0)), (1, inRange 0 2 op), (2, inRange 0 63 first),
      (3, if op = 0 then inRange 1 64 (u8 p 3) else decide (u8 p 3 = 0))] ++
    (if op = 0 then (List.range (u8 p 3)).map fun i => (4 + 2 * i, shimOk (u16 p (4 + 2 * i)) && decide (first + i < zones)) else []))

def specSetZoneShim : CmdSpec :=
  { opcode := 0x0403, need := fun c => exactly (4 + 4 * ((u8 c.params 3 + 1) / 2)) c, unitOk := unitBelow 24, units := planeUnits,
    run := fun _ c s =>
      let p := c.params
      let slot := c.unit
      let cfg := unitCfg s (.plane slot)
      let zones := (vget cfg.zone slot).zones
      checked (badZoneShim p zones) s fun _ =>
        let f := u8 p 0
        let op := u8 p 1
        let line := trimLine s ((planeNext s slot).getD (s.gauge.startLine.getD 0))
        if !ingestOn cfg slot || (decide (op = 2) && !bitOf (vget cfg.plane slot).drift f) then wrongState s
        else
          let write (z v : Nat) (s : State) : State :=
            if trimWaits s then addTrim (.zoneShim slot f z v line) s else hostShim slot f z v line s
          let s := match op with
            | 0 => (List.range (u8 p 3)).foldl (fun s i => write (u8 p 2 + i) (u16 p (4 + 2 * i)) s) s
            | 1 => (List.range 64).foldl (fun s z => write z 16384 s) s
            | _ => if trimWaits s then addTrim (.zoneRef slot f zones line) s else recapture slot f zones line s
          ok (le 4 line) s }

/-- SET_ZONE_SHIM sets or resets zone shims of one field, or captures drift references; in force from the next web line that
the Plane begins for the slot. -/
def execSetZoneShim (t : Nat) (c : HostCmd) (s : State) : Host.Outcome State Fault Refusal := execCmd specSetZoneShim t c s

/-! ### The Jig's commands (R300 to R306) -/

/-- Start a Jig command: state, a running one, and the claim on every link of the group (R304, R305). -/
def startJig (kind : JigKind) (r : CmdRec) (c : HostCmd) (s : State) : Verdict :=
  checked (badJig kind c.params) s fun _ =>
    let slot := c.unit
    let par := parJig kind c.params
    let fields := fieldsOf (cfgNow s)
    if !connUp s slot || ((maskFields par.fields).any fun f => decide (fields ≤ f)) then wrongState s
    else
      match vget s.plane.jig slot with
      | some j => busy 3 j.ticket s
      | none =>
        let links := slotLinks s slot
        match links.findSome? fun l => rtHolder s 0x0E l with
        | some h => conflict h s
        | none =>
          let s := links.foldl (fun s l => holdRt 0x0E l (jigOpcode kind) slot s) s
          let s := { s with plane := { s.plane with results := s.plane.results.filter fun h => !(decide (h.slot = slot) && decide (h.kind = kind)) } }
          accepted [] (setJig slot (some { par, ticket := r.ticket, start := s.now }) s)

def specJigDark : CmdSpec :=
  { opcode := 0x0404, need := exactly 24, unitOk := unitBelow 24, units := planeUnits, run := startJig .dark }

/-- JIG_DARK starts a dark calibration of a slot. -/
def execJigDark (t : Nat) (c : HostCmd) (s : State) : Host.Outcome State Fault Refusal := execCmd specJigDark t c s

def specJigFlat : CmdSpec :=
  { opcode := 0x0405, need := exactly 32, unitOk := unitBelow 24, units := planeUnits, run := startJig .flat }

/-- JIG_FLAT starts a flat calibration of a slot. -/
def execJigFlat (t : Nat) (c : HostCmd) (s : State) : Host.Outcome State Fault Refusal := execCmd specJigFlat t c s

def specJigGeometry : CmdSpec :=
  { opcode := 0x0406, need := exactly 32, unitOk := unitBelow 24, units := planeUnits, run := startJig .geometry }

/-- JIG_GEOMETRY starts a geometry calibration of a slot. -/
def execJigGeometry (t : Nat) (c : HostCmd) (s : State) : Host.Outcome State Fault Refusal := execCmd specJigGeometry t c s

def jigKindOf (v : Nat) : JigKind := match v with | 0 => .dark | 1 => .flat | _ => .geometry

def badJigResult (p : Bytes) : Option Nat := firstBad ((0, inRange 0 2 (u8 p 0)) :: bulkHostOnly p 4)

def candBytes (c : JigCand) : Bytes := le 2 c.pixel ++ le 1 c.fields ++ le 1 c.reasons

def specJigResult : CmdSpec :=
  { opcode := 0x0407, need := exactly 20, unitOk := unitBelow 24,
    run := fun _ c s =>
      checked (badJigResult c.params) s fun _ =>
        match s.plane.results.find? fun h => decide (h.slot = c.unit) && decide (h.kind = jigKindOf (u8 c.params 0)) with
        | none => wrongState s
        | some h =>
          let ref := parBulk c.params 4
          let cands := h.cands.take (ref.length / 4)
          withBulk c.bulkFails ref s fun s =>
            ok (jigFigureBytes h.figures ++ le 4 cands.length) (bulkOut ref (cands.flatMap candBytes) s) }

/-- JIG_RESULT reads the last Jig result of one kind for a slot, with its candidates. -/
def execJigResult (t : Nat) (c : HostCmd) (s : State) : Host.Outcome State Fault Refusal := execCmd specJigResult t c s

/-! ### Events of the Jig -/

/-- The Jig acquires the next line of a pass (R301). -/
def execJigAcquireLine (t : Nat) (slot : Nat) (s : State) : Host.Outcome State Fault Refusal := runFabric t [slot / 2] s (jigAcquire slot)

/-- The Jig's acceptance test runs (R316, R326). -/
def execJigComplete (t : Nat) (slot : Nat) (s : State) : Host.Outcome State Fault Refusal := runFabric t [] s (jigComplete slot)

/-- An accepted result is written after the swap of a pending glue-up (R320). -/
def execJigStageResult (t : Nat) (slot : Nat) (s : State) : Host.Outcome State Fault Refusal := runFabric t [] s (jigStage slot)

/-- TIMEOUT expires before pass B is accumulated (R306). -/
def execJigTimeout (t : Nat) (slot : Nat) (s : State) : Host.Outcome State Fault Refusal :=
  runFabric t [] s fun s =>
    match vget s.plane.jig slot with
    | none => s
    | some j => if !j.ready && decide (j.start + j.par.timeout * 1000000 ≤ s.now) then abortJig slot .timeout stAborted s else s

end Sys2Proof.Machine
end

