-- ==== Sys2Proof/Machine/Dovetail.lean ====
section
/-! DEFINITION. The commands of "Stitching across cameras", and its imports. -/

namespace Sys2Proof.Machine

def dovetailUnits (_ : HostCmd) : List (Nat × Nat) := [(0x05, 0)]

/-- A seam: 0 to 22, or 24 for the module seam. -/
def seamUnit (_ : State) (c : HostCmd) : Bool := decide (c.unit < 23) || decide (c.unit = 24)

def specGridConfig : CmdSpec :=
  { opcode := 0x0500, need := exactly 64, unitOk := unitIs 0, units := dovetailUnits,
    run := fun _ c s => stageEdit 0x0500 0 (badGrid c.params) (fun cfg => { cfg with grid := some (parGrid c.params) }) s }

/-- GRID_CONFIG stages the grid, ORDER, kernel and tiling. -/
def execGridConfig (t : Nat) (c : HostCmd) (s : State) : Host.Outcome State Fault Refusal := execCmd specGridConfig t c s

def specLoadGeometry : CmdSpec :=
  { opcode := 0x0501, need := fun c => exactly (8 + 16 * u8 c.params 0) c, unitOk := unitBelow 24, units := dovetailUnits,
    run := fun r c s =>
      checked (badMap c.params) s fun _ =>
        let m := parMap c.params
        let edit (f : MapBank → MapBank) (s : State) : State := { s with dovetail := { s.dovetail with maps := vmod s.dovetail.maps c.unit f } }
        bankEdit s .dovetail s.dovetail.locked (edit fun b => { b with shadow := m }) (edit fun b => { b with held := b.held ++ [(m, r.ticket)] }) }

/-- LOAD_GEOMETRY writes a slot's geometry map into the shadow bank (R338). -/
def execLoadGeometry (t : Nat) (c : HostCmd) (s : State) : Host.Outcome State Fault Refusal := execCmd specLoadGeometry t c s

def specKerfConfig : CmdSpec :=
  { opcode := 0x0502, need := exactly 20, unitOk := seamUnit, units := dovetailUnits,
    run := fun _ c s =>
      let k := c.unit
      let prev := if 0 < k ∧ k < 23 then vget s.staged.kerf (k - 1) else none
      let next := if k < 22 then vget s.staged.kerf (k + 1) else none
      stageEdit 0x0502 k (badKerf k c.params prev next) (fun cfg => { cfg with kerf := vset cfg.kerf k (some (parKerf c.params)) }) s }

/-- KERF_CONFIG stages a seam. -/
def execKerfConfig (t : Nat) (c : HostCmd) (s : State) : Host.Outcome State Fault Refusal := execCmd specKerfConfig t c s

/-- A seam is in force: it joins two entries of ORDER, or it is the module seam of a module that imports columns. -/
def seamInForce (cfg : Cfg) (k : Nat) : Bool :=
  match cfg.grid with
  | none => false
  | some g => if k = 24 then decide (g.importCols ≠ 0) else decide (k + 1 < g.order.length) && (vget cfg.kerf k).isSome

def badSeamShim (p : Bytes) : Option Nat :=
  firstBad [(0, inRange 0 3 (u8 p 0)), (1, inRange 0 1 (u8 p 1)), (2, decide (u8 p 1 = 1) || shimOk (u16 p 2))]

def specSetSeamShim : CmdSpec :=
  { opcode := 0x0503, need := exactly 4, unitOk := seamUnit, units := dovetailUnits,
    run := fun _ c s =>
      checked (badSeamShim c.params) s fun _ =>
        if !seamInForce (unitCfg s .dovetail) c.unit then wrongState s
        else
          let key := u8 c.params 0 * 32 + c.unit
          let v := if u8 c.params 1 = 1 then 16384 else u16 c.params 2
          let line := trimLine s ((dovetailNext s).getD (s.gauge.startLine.getD 0))
          ok (le 4 line) (if trimWaits s then addTrim (.seamShim (u8 c.params 0) c.unit v line) s else hostSeam key v line s) }

/-- SET_SEAM_SHIM sets or resets a seam shim of one field, in force from the next web line that the Dovetail begins (R17). -/
def execSetSeamShim (t : Nat) (c : HostCmd) (s : State) : Host.Outcome State Fault Refusal := execCmd specSetSeamShim t c s

/-- Table 7-7. -/
def seamStatusBytes (s : State) (cfg : Cfg) (k : Nat) : Bytes :=
  let f := (vget s.dovetail.figures k).getD {}
  let q := (vget cfg.kerf k).getD {}
  let order := orderOf cfg
  let left := if k = 24 then 0xFE else order.getD k 0
  let right := if k = 24 then order.getD 0 0 else order.getD (k + 1) 0
  le 4 f.strip ++ le 1 left ++ le 1 right ++ le 1 (if q.butt then 1 else 0) ++
  le 1 (flagBit q.seamTrack 0 + flagBit f.regValid 1 + flagBit f.outOfRange 2) ++ ((List.range 4).flatMap fun i => le 2 (shimOf s i k)) ++
  leI 4 f.mismatch ++ leI 2 f.res ++ le 2 f.corr ++ le 4 s.dovetail.uncovered ++ zeros 4

def specSeamStatus : CmdSpec :=
  { opcode := 0x0504, need := exactly 0, unitOk := seamUnit,
    run := fun _ c s =>
      let cfg := unitCfg s .dovetail
      if seamInForce cfg c.unit then ok (seamStatusBytes s cfg c.unit) s else wrongState s }

/-- SEAM_STATUS reads a seam's figures for the last complete strip. -/
def execSeamStatus (t : Nat) (c : HostCmd) (s : State) : Host.Outcome State Fault Refusal := execCmd specSeamStatus t c s

/-- An export of the west neighbour arrives (R373). -/
def execImportReceived (t : Nat) (row : ImportRow) (s : State) : Host.Outcome State Fault Refusal := runFabric t [] s (importRow row)

/-- The import of a ready line does not arrive within IMPORT_WAIT (R375). -/
def execImportTimeout (t : Nat) (s : State) : Host.Outcome State Fault Refusal := runFabric t [] s importTimeout

end Sys2Proof.Machine
end

