-- ==== Sys2Proof/Machine/DryCalc.lean ====
section
/-! DEFINITION. The checks of DRYFIT (Table 2-9): the findings of each check in a staged configuration with its shadow banks, the Bench
demand, and the report (Tables 2-10 to 2-12, R813, R816). -/

namespace Sys2Proof.Machine

/-- A finding of Tables 2-11 and 2-12: its check is the code's high byte. -/
def finding (code opcode unit : Nat) (value limit : Int) (kind : Nat := 0) : Finding :=
  { check := code / 256, warning := decide (code / 256 = 5), code, opcode, unit, kind, value, limit }

def findingBytes (f : Finding) : Bytes :=
  le 1 f.check ++ le 1 (if f.warning then 1 else 2) ++ le 2 f.code ++ le 2 f.opcode ++ le 1 f.unit ++ le 1 f.kind ++ leI 4 f.value ++ leI 4 f.limit

/-- A reference to a unit that is not configured (R816). -/
def unconfigured (opcode unit value : Nat) (configured : Bool) : List Finding := if configured then [] else [finding 0x0004 opcode unit value 0]

/-- The lowest bit of a field mask at or above FIELDS. -/
def maskFinding (opcode unit mask fields : Nat) : List Finding :=
  match (List.range 4).find? fun f => bitOf mask f && decide (fields ≤ f) with
  | some f => [finding 0x0003 opcode unit f fields]
  | none => []

def fieldFinding (opcode unit field fields : Nat) : List Finding := if field < fields then [] else [finding 0x0003 opcode unit field fields]

/-! ### PARAMS -/

def queueOn (c : Cfg) (q : Nat) : Bool := (vget c.queue q).enable

def rangeFindings (c : Cfg) : List Finding := if c.range.isSome then [] else [finding 0x0001 0x0204 0xFF 0 0]

def triggerFindings (c : Cfg) (s : Nat) : List Finding :=
  let t := vget c.trig s
  let strobe (x : Strobe) : List Finding := if x.trg.isSome then maskFinding 0x0C01 s x.fieldMask (fieldsOf c) else []
  if !t.enable then []
  else if c.seq.isNone then [finding 0x0004 0x0C01 s 24 0]
  else strobe t.strobe0 ++ strobe t.strobe1

/-- R142, R813. -/
def encoderFindings (c : Cfg) : List Finding :=
  let r0 := (vget c.enc 0).role
  let r1 := (vget c.enc 1).role
  if r0 = r1 ∧ (r0 = 1 ∨ r0 = 2) then [finding 0x0005 0x0C00 1 r0 0]
  else if r0 = 2 ∧ r1 ≠ 1 then [finding 0x0005 0x0C00 0 2 0]
  else if r1 = 2 ∧ r0 ≠ 1 then [finding 0x0005 0x0C00 1 2 0]
  else []

def planeFindings (c : Cfg) (s : Nat) : List Finding :=
  let p := vget c.plane s
  (match p.statsQueue with | some q => unconfigured 0x0400 s q (queueOn c q) | none => []) ++ maskFinding 0x0400 s p.drift (fieldsOf c)

def linkFindings (c : Cfg) (s : Nat) : List Finding :=
  let l := vget c.link s
  if !l.enable then []
  else
    (match l.eventQueue with | some q => unconfigured 0x0300 s q (queueOn c q) | none => []) ++
      unconfigured 0x0300 s (s / 2) (vget c.part (s / 2)).enable

/-- Column range of a map: the first and last column whose centre lies in its X range (R339). -/
def mapColumns (g : GridCfg) (lo hi : Int) : Int × Int :=
  (-(Int.fdiv (1000 * g.originUm - lo) g.pitchNm), Int.fdiv (hi - 1000 * g.originUm) g.pitchNm)

/-- A map that covers no grid column, and the column that VALUE names (R339). -/
def mapMisses (g : GridCfg) (m : List Knot) (width : Nat) : Option Int :=
  match m.head?, m.getLast? with
  | some a, some b =>
    let lo := 1000 * a.x
    let hi := 1000 * b.x
    let (cl, ch) := mapColumns g lo hi
    let first := max 0 cl
    let last := min ((g.columns : Int) - 1) ch
    let top : Int := ((width - 1) * 2 ^ 20 : Nat)
    if first ≤ last then
      let step (acc : Bool × Option (Int × Int)) (i : Nat) : Bool × Option (Int × Int) :=
        if acc.1 then acc
        else
          match mapPos m (columnX g (first.toNat + i)) with
          | none => acc
          | some p =>
            if 0 ≤ p ∧ p ≤ top then (true, none)
            else
              let d := if p < 0 then -p else p - top
              match acc.2 with
              | some (d0, _) => if d < d0 then (false, some (d, first + i)) else acc
              | none => (false, some (d, first + i))
      let r := (List.range (last - first + 1).toNat).foldl step (false, none)
      if r.1 then none else some (match r.2 with | some x => x.2 | none => first)
    else if cl ≤ ch then some (if ch < 0 then ch else cl)
    else
      -- no centre in the range: ch lies below it and cl above it
      let below := lo - (1000 * g.originUm + ch * g.pitchNm)
      let above := 1000 * g.originUm + cl * g.pitchNm - hi
      some (if below ≤ above then ch else cl)
  | _, _ => some (-(2 ^ 31))

def gridFindings (c : Cfg) (maps : Nat → List Knot) : List Finding :=
  match c.grid with
  | none => []
  | some g =>
    (g.order.flatMap fun s =>
      if !ingestOn c s then [finding 0x0004 0x0500 0 s 0]
      else
        match mapMisses g (maps s) (vget c.link s).width with
        | some v => [finding 0x0002 0x0501 s v ((g.columns : Int) - 1)]
        | none => []) ++
    ((List.range (g.order.length - 1)).flatMap fun k => unconfigured 0x0500 0 k (vget c.kerf k).isSome) ++
    unconfigured 0x0500 0 12 (vget c.part 12).enable

/-- What a rule or the defaults refer to (R816). -/
def decisionFindings (c : Cfg) (opcode unit : Nat) (d : Decision) : List Finding :=
  (if actReport d then unconfigured opcode unit d.queue (queueOn c d.queue) else []) ++
  (if actPatch d then unconfigured opcode unit d.queue (vget c.patch d.queue).enable else []) ++
  (if actMark d then unconfigured opcode unit d.station (vget c.station d.station).enable else [])

def classFindings (c : Cfg) (b : SegBank) (i : Nat) : List Finding :=
  let k := vget b.classes i
  if !k.enable then []
  else fieldFinding 0x0600 i k.field (fieldsOf c) ++
    (if k.op ≠ 0 ∧ !bitOf c.bg.fields k.field then [finding 0x0004 0x0600 i k.field 0] else [])

def regionFindings (c : Cfg) (b : SegBank) : List Finding :=
  match b.region with
  | none => []
  | some r =>
    fieldFinding 0x0601 0 r.intField (fieldsOf c) ++
    (match r.overflowQueue with | some q => unconfigured 0x0601 0 q (queueOn c q) | none => []) ++ decisionFindings c 0x0601 0 r.dflt

def ruleFindings (c : Cfg) (b : SegBank) (i : Nat) : List Finding :=
  let r := vget b.rules i
  if r.enable then decisionFindings c 0x0602 i r.decision else []

def gritFindings (c : Cfg) (s : Nat) : List Finding := maskFinding 0x0801 s (vget c.grit s).fields (fieldsOf c)

def viewFindings (c : Cfg) (v : Nat) : List Finding :=
  let x := vget c.view v
  if !x.enable then []
  else
    fieldFinding 0x0803 v x.field (fieldsOf c) ++
    (match c.grid with
     | some g => if x.cropFirst + x.cropCols ≤ g.columns then []
         else [finding 0x0002 0x0803 v ((x.cropFirst + x.cropCols : Nat) - 1) ((g.columns : Int) - 1)]
     | none => [finding 0x0004 0x0803 v 0 0]) ++
    (if x.overlay then (List.range 16).flatMap fun q => if bitOf x.queues q then unconfigured 0x0803 v q (queueOn c q) else [] else [])

/-- R453, R816. -/
def stationFindings (c : Cfg) (t : Nat) : List Finding :=
  let x := vget c.station t
  if !x.enable then []
  else
    let u := vget c.cmp x.compare
    unconfigured 0x0706 t x.compare (u.enable && !u.reverse) ++ unconfigured 0x0706 t x.posAxis (vget c.axis x.posAxis).enable ++
    (match x.strokeAxis with | some a => unconfigured 0x0706 t a (vget c.axis a).enable | none => [])

def queueFindings (c : Cfg) (q : Nat) : List Finding :=
  let p := vget c.patch q
  (if queueOn c q then unconfigured 0x0700 q 15 (vget c.part 15).enable else []) ++
  (if p.enable then
    maskFinding 0x0705 q p.fields (fieldsOf c) ++ unconfigured 0x0705 q q (queueOn c q) ++ unconfigured 0x0705 q 14 (vget c.part 14).enable
   else [])

def archiveFindings (c : Cfg) : List Finding :=
  let a := c.archive
  if !a.enable then []
  else
    (a.fields.flatMap fun f => fieldFinding 0x0A00 0 f (fieldsOf c)) ++
    (match c.grid with
     | some g => if a.firstCol + a.bands * a.bandCols ≤ g.columns then []
         else [finding 0x0002 0x0A00 0 ((a.firstCol + a.bands * a.bandCols : Nat) - 1) ((g.columns : Int) - 1)]
     | none => [finding 0x0004 0x0A00 0 0 0]) ++
    unconfigured 0x0A00 0 13 (vget c.part 13).enable

/-- A verifier's compressor that no owner claims. -/
def verifyFindings (c : Cfg) (d : Nat) : List Finding :=
  let owned (e : Nat) : Bool := (c.archive.enable && c.archive.engines.contains e) ||
    (List.range 16).any fun q => (vget c.patch q).enable && decide ((vget c.patch q).engine = e)
  (List.range 16).flatMap fun e => if bitOf (vget c.verify d) e then unconfigured 0x0A01 d e (owned e) else []

/-- R620, and the references of AXIS_GEAR (R816). -/
def axisFindings (c : Cfg) (a : Nat) : List Finding :=
  let x := vget c.axis a
  let g := vget c.gear a
  (if x.enable then (match x.encoder with | some e => unconfigured 0x0D00 a e (decide ((vget c.enc e).role = 3)) | none => []) else []) ++
  (if g.enable then unconfigured 0x0D04 a a x.enable ++ unconfigured 0x0D04 a g.master (decide ((vget c.enc g.master).role ≠ 0)) else [])

/-- Sources configured for a queue of this module: opcode and unit (R691). -/
def queueSources (c : Cfg) (b : SegBank) (q : Nat) : List (Nat × Nat) :=
  ((List.range 24).filterMap fun s => if (vget c.link s).enable ∧ (vget c.link s).eventQueue = some q then some (0x0300, s) else none) ++
  ((List.range 24).filterMap fun s => if (vget c.plane s).statsQueue = some q then some (0x0400, s) else none) ++
  (match b.region with
   | some r => if (actReport r.dflt ∧ r.dflt.queue = q) ∨ r.overflowQueue = some q then [(0x0601, 0)] else []
   | none => []) ++
  ((List.range 64).filterMap fun i =>
    let r := vget b.rules i
    if r.enable ∧ actReport r.decision ∧ r.decision.queue = q then some (0x0602, i) else none)

def relayFindings (c : Cfg) (b : SegBank) (gateway : Bool) : List Finding :=
  if !gateway then []
  else
    (c.ring.relays.filter (·.enable)).flatMap fun r =>
      unconfigured 0x0F00 0 r.localQueue (queueOn c r.localQueue) ++
      (queueSources c b r.localQueue).map fun x => finding 0x0004 x.1 x.2 r.localQueue 0

def pairFindings (c : Cfg) : List Finding := if c.pair.enable then unconfigured 0x0F02 0 17 (vget c.part 17).enable else []

def paramFindings (c : Cfg) (b : SegBank) (maps : Nat → List Knot) (gateway : Bool) : List Finding :=
  let slots := List.range 24
  rangeFindings c ++ slots.flatMap (triggerFindings c) ++ encoderFindings c ++ slots.flatMap (planeFindings c) ++ slots.flatMap (linkFindings c) ++
  gridFindings c maps ++ (List.range 16).flatMap (classFindings c b) ++ regionFindings c b ++ (List.range 64).flatMap (ruleFindings c b) ++
  slots.flatMap (gritFindings c) ++ maskFinding 0x0801 24 c.bg.fields (fieldsOf c) ++ (List.range 8).flatMap (viewFindings c) ++
  (List.range 4).flatMap (stationFindings c) ++ (List.range 16).flatMap (queueFindings c) ++ archiveFindings c ++
  (List.range 4).flatMap (verifyFindings c) ++ (List.range 4).flatMap (axisFindings c) ++ relayFindings c b gateway ++ pairFindings c

/-! ### CLAIMS (R104 to R109) -/

def stackMib : Nat := 24576

/-- Base and end of an enabled partition in MiB (R533). -/
def partSpan (c : Cfg) (k : Nat) : Option (Nat × Nat) :=
  let p := vget c.part k
  if p.enable then some (p.baseMib, p.baseMib + partSize c k / mib) else none

def partSpans (c : Cfg) : List (Nat × Nat × Nat) := (List.range 18).filterMap fun k => (partSpan c k).map fun p => (k, p)

/-- Claims made twice, each with the first holder. -/
def doubleClaims : List Claim → List Claim → List Finding
  | _, [] => []
  | seen, x :: rest =>
    let first := seen.find? fun y => decide (y.kind = x.kind) && decide (y.index = x.index) && !sameFeature y x
    (match first with
     | some y => if pooledKind x.kind then [] else [finding 0x0101 x.opcode x.unit x.index y.opcode x.kind]
     | none => []) ++ doubleClaims (seen ++ [x]) rest

/-- Pages claimed by the DMA channels (kind 0x06), and the space of each stack (kind 0x07, R105, R813). -/
def poolFindings (c : Cfg) (all : List Claim) : List Finding :=
  let pages := all.filter fun x => pooledKind x.kind
  let total := (pages.map (·.amount)).sum
  (if poolSize < total then [finding 0x0102 0 ((pages.map (·.unit)).foldl max 0) total poolSize 6] else []) ++
  ([0, 1].flatMap fun s =>
    let mine := (partSpans c).filter fun p => decide (p.2.1 / stackMib = s)
    let sum := 128 + (mine.map fun p => p.2.2 - p.2.1).sum
    if stackMib < sum then [finding 0x0102 0x0900 ((mine.map (·.1)).foldl max 0) sum stackMib 7] else [])

def claimFindings (c : Cfg) (all : List Claim) (rt : List RtClaim) : List Finding :=
  doubleClaims [] all ++ poolFindings c all ++
  all.flatMap fun x =>
    match rt.find? fun r => decide (r.kind = x.kind) && decide (r.index = x.index) with
    | some r => [finding 0x0103 x.opcode x.unit x.index r.opcode x.kind]
    | none => []

/-! ### PARTITIONS (R26, R348, R536) -/

/-- D[s] of R348. -/
def wholeLineDelay (c : Cfg) (slot : Nat) : Nat :=
  match c.seq with
  | none => 0
  | some q =>
    let offs := (orderOf c).map fun s => (vget c.trig s).offset
    let most := offs.foldl max ((offs.head?).getD 0)
    if q.pitch = 0 then 0 else ceilDiv (most - (vget c.trig slot).offset).toNat q.pitch

/-- Lines that a pipeline's line ring needs (R26). -/
def linesNeeded (c : Cfg) (port : Nat) : Nat :=
  (([2 * port, 2 * port + 1].filter fun s => (orderOf c).contains s).map (wholeLineDelay c)).foldl max 0 + 8

def ringFindings (c : Cfg) (port : Nat) : List Finding :=
  let p := vget c.part port
  if p.enable && ((vget c.link (2 * port)).enable || (vget c.link (2 * port + 1)).enable) && decide (p.sizeA < linesNeeded c port) then
    [finding 0x0201 0x0900 port p.sizeA (linesNeeded c port)]
  else []

/-- A partition overlaps another or the firmware working space, crosses between the stacks, or reaches beyond MiB 49,151 (R535, R536). -/
def misplaced (all : List (Nat × Nat × Nat)) (p : Nat × Nat × Nat) : Bool :=
  let first := p.2.1
  let last := p.2.2
  let fw := (if first < stackMib then stackMib else 2 * stackMib) - 128
  decide (fw ≤ first) || decide (fw < last) || all.any fun q => decide (q.1 ≠ p.1) && decide (first < q.2.2) && decide (q.2.1 < last)

def partFindings (c : Cfg) : List Finding :=
  (List.range 12).flatMap (ringFindings c) ++
  (partSpans c).filterMap fun p => if misplaced (partSpans c) p then some (finding 0x0202 0x0900 p.1 p.2.1 stackMib) else none

/-! ### BANDWIDTH (R114, R521, R537) -/

/-- MB/s of a number of bytes per web line at MAX_SPEED. -/
def mbPerLine (c : Cfg) (bytes : Rat) : Rat := bytes * lineRate c (maxSpeed c) / 1000000

/-- Bytes of one archive row (R507). -/
def archiveRowBytes (c : Cfg) : Nat := ceilDiv (c.archive.bandCols * 18) 32 * 4

/-- Input of one archive stream (R521). -/
def streamInput (c : Cfg) : Rat := mbPerLine c (archiveRowBytes c)

/-- Planned writes and reads of each partition in MB/s (Tables 2-16 and 12-6): partition and traffic. -/
def partTraffic (c : Cfg) (b : SegBank) : List (Nat × Rat) :=
  let rate := lineRate c (maxSpeed c)
  let pixels (s : Nat) : Rat := if ingestOn c s then ((vget c.link s).width * fieldsOf c : Nat) else 0
  let stats (k s : Nat) : Rat :=
    if ingestOn c s && (vget c.plane s).statsQueue.isSome && decide (1 ≤ (vget c.part k).sizeB) then
      (4160 * fieldsOf c : Nat) * rate / (2 ^ c.shift : Nat) / 1000000 else 0
  let line (k : Nat) : Nat × Rat := (k, 2 * mbPerLine c ((pixels (2 * k) + pixels (2 * k + 1)) * 9 / 4) + stats k (2 * k) + stats k (2 * k + 1))
  let rows : Nat := match c.grid with | some g => g.columns | none => 0
  let reads := ((List.range 4).filter fun f => b.classes.toList.any fun k => k.enable && decide (k.field = f)).length
  let views := ((List.range 8).map fun v => if viewOn v c then (vget c.view v).cropCols else 0).sum
  let strip := mbPerLine c (((fieldsOf c + reads) * rows + views : Nat) * (9 / 4 : Rat))
  let queues := ((List.range 16).filter (queueOn c)).map fun q => ((vget c.queue q).bodyKib, if patchesOn c q then (vget c.patch q).storeMib else 0)
  let streams := if c.archive.enable then c.archive.bands * c.archive.fields.length else 0
  (List.range 12).map line ++ [(12, strip), (13, 2 * (streams : Rat) * streamInput c), (15, if queues = [] then 0 else (Config.scribeDemand queues : Rat))]

def demandOf (traffic : List (Nat × Rat)) : Rat := (traffic.map (·.2)).foldl (· + ·) 0

def benchBudget : Nat := 1146880
def stackBudget : Nat := 573440

def stackDemand (c : Cfg) (traffic : List (Nat × Rat)) (s : Nat) : Rat :=
  demandOf (traffic.filter fun t => (vget c.part t.1).enable && decide ((vget c.part t.1).baseMib / stackMib = s))

def bandFindings (c : Cfg) (traffic : List (Nat × Rat)) : List Finding :=
  let total := demandOf traffic
  let input := streamInput c
  (if (benchBudget : Rat) < total then [finding 0x0301 0x0204 0xFF total.ceil benchBudget] else []) ++
  ([0, 1].flatMap fun s =>
    let d := stackDemand c traffic s
    if (stackBudget : Rat) < d then [finding 0x0302 0x0204 s d.ceil stackBudget] else []) ++
  (if c.archive.enable ∧ 4000 < input then c.archive.engines.map fun e => finding 0x0303 0x0A00 e input.ceil 4000 else []) ++
  ((List.range 4).flatMap fun d =>
    let n := if c.archive.enable then (c.archive.engines.filter fun e => bitOf (vget c.verify d) e).length else 0
    let sum := (n : Rat) * input
    if 8000 < sum then [finding 0x0303 0x0A01 d sum.ceil 8000] else [])

/-! ### PACE (R30 to R32) and LATENCY (R115) -/

def paceFindings (scale : Nat) (tj : Int) (c : Cfg) : List Finding :=
  match vfabFor scale tj (targetPace c) with
  | some _ => []
  | none => [finding 0x0401 0x0204 0xFF (lowestPace scale 950 tj).floor (targetPace c)]

/-- The lowest web speed at which records keep their latency, um/s (R115). -/
def latencySpeed (c : Cfg) : Rat := (2 ^ c.shift : Nat) * linePitch c * 625

/-- Placement time of a station in us, and its transit time less 2 ms (R115). -/
def placement (c : Cfg) (t : Nat) : Nat × Int :=
  let x := vget c.station t
  let a := vget c.axis x.posAxis
  let countNm := match c.range with | some r => r.countNm | none => 0
  let place := moveTime a.vmax a.accel a.decel (a.jerk * 1000) (x.travelMax - x.travelMin).toNat + x.settle
  let v := maxSpeed c
  (place, if v = 0 then -2000 else ((x.fireOffset.natAbs * countNm * 1000 / (65536 * v) : Nat) : Int) - 2000)

def latencyFindings (c : Cfg) : List Finding :=
  if c.range.isNone then []
  else
    (if 0 < linePitch c ∧ (minSpeed c : Rat) < latencySpeed c then [finding 0x0501 0x0204 0xFF (minSpeed c) (latencySpeed c).ceil] else []) ++
    ((List.range 4).flatMap fun t =>
      let x := vget c.station t
      let p := placement c t
      if x.enable ∧ (vget c.axis x.posAxis).enable ∧ p.2 < p.1 then [finding 0x0502 0x0706 t p.1 (max 0 p.2)] else [])

/-! ### The report -/

/-- The staged configuration with its shadow banks, as DRYFIT checks it. -/
def dryFindings (s : State) : List Finding :=
  let c := s.staged
  let b := s.marq.shadow
  paramFindings c b (fun i => (vget s.dovetail.maps i).shadow) s.ring.gateway ++ claimFindings c (stagedClaims s) s.claims ++ partFindings c ++
  bandFindings c (partTraffic c b) ++ paceFindings s.pace.scale s.sense.tj c ++ latencyFindings c

/-- One bit per check with a finding of a severity. -/
def checkBits (warned : Bool) (fs : List Finding) : Nat :=
  ((List.range 6).map fun k => if fs.any fun f => decide (f.check = k) && decide (f.warning = warned) then 2 ^ k else 0).sum

/-- Table 2-10. -/
def dryHeader (s : State) (fs : List Finding) (written : Nat) : Bytes :=
  let c := s.staged
  let failed := checkBits false fs
  let timed := decide (0 < linePitch c) && c.range.isSome
  le 4 s.stageGen ++ le 1 (if failed = 0 then 0 else 1) ++ le 1 failed ++ le 1 (checkBits true fs) ++ zeros 1 ++ le 2 fs.length ++ le 2 written ++
  le 2 (requiredPace c * 10 + 1 / 2).floor.toNat ++ le 2 (targetPace c) ++
  le 2 ((vfabFor s.pace.scale s.sense.tj (targetPace c)).getD 0) ++ zeros 2 ++
  le 4 (pixelRate c / 1000000 + 1 / 2).floor.toNat ++ le 4 (demandOf (partTraffic c s.marq.shadow)).ceil.toNat ++ le 4 benchBudget ++
  le 4 (if timed then (latencySpeed c).ceil.toNat else 0) ++
  le 4 (if timed ∧ minSpeed c ≠ 0 then ((2 ^ c.shift : Nat) * linePitch c * 1000000 / (minSpeed c : Rat)).ceil.toNat else 0) ++ zeros 24

/-- What a dry-fit accepted now finds: the report that fits a buffer, and the result. -/
def dryReport (s : State) (len : Nat) : Bytes × Bool :=
  let fs := dryFindings s
  let shown := fs.take ((len - 64) / 16)
  (dryHeader s fs shown.length ++ shown.flatMap findingBytes, decide (checkBits false fs = 0))

end Sys2Proof.Machine
end

