-- ==== Sys2Proof/Machine/DryFit.lean ====
section
/-! DEFINITION. DRYFIT and its end (R112, R113, R116). -/

namespace Sys2Proof.Machine

def badDryfit (p : Bytes) : Option Nat := firstBad (bulkHostOnly p 0 ++ [(8, decide (64 ≤ u32 p 8))])

/-- The configuration staged at acceptance is checked; the report is written when the checks finish. -/
def specDryfit : CmdSpec where
  opcode := 0x0200
  need := exactly 16
  unitOk := unitIs 0xFF
  run := fun r c s => checked (badDryfit c.params) s fun _ =>
    if s.glue.isSome then busy 2 0 s
    else
      match s.dryfitRun with
      | some d => busy 3 d.ticket s
      | none =>
        let ref := parBulk c.params 0
        let rep := dryReport s ref.length
        accepted [] { s with dryfitRun := some { ticket := r.ticket, ref, gen := s.stageGen, fit := rep.2, report := rep.1 } }

/-- DRYFIT starts the check of the whole staged configuration. -/
def execDryfit (t : Nat) (c : HostCmd) (s : State) : Host.Outcome State Fault Refusal := execCmd specDryfit t c s

/-- The checks finish: the report goes to host memory, and the generation and the result are recorded (R112). A transfer that fails twice
ends the command and records nothing (R80). -/
def finishDryfit (fails : Fails) (s : State) : State :=
  match s.dryfitRun with
  | none => s
  | some d =>
    let s := { s with dryfitRun := none }
    if 2 ≤ fails then complete d.ticket stHostError (zeros 8) s
    else
      let s := if fails = 1 then countTransient 1 s else s
      let s := bulkFor d.ticket d.ref d.report s
      complete d.ticket stOk (d.report.take 48) { s with dryfit := some { gen := d.gen, fit := d.fit } }

/-- DRYFIT_DONE. -/
def execDryfitDone (t : Nat) (fails : Fails) (s : State) : Host.Outcome State Fault Refusal := runFabric t [] s (finishDryfit fails)

end Sys2Proof.Machine
end

