-- ==== Sys2Proof/Machine/GaugeOps.lean ====
section
/-! DEFINITION. The operations of the Gauge: counts (R134 to R139, R142 to R147), the targets of a slot and their requests (R151 to
R164), the firing of a target (R168 to R172), and stopping. -/

namespace Sys2Proof.Machine

/-! ### Web lines triggered -/

/-- Spans of web lines after line `n` is triggered; what lies more than 2^30 lines behind is forgotten. -/
def extendSpans (n : Nat) (fresh : Bool) (start : Nat) (spans : List (Nat × Nat)) : List (Nat × Nat) :=
  let far (l : Nat) : Bool := decide ((2 ^ 30 : Int) < sdiff32 n l)
  let l := match spans with
    | (a, b) :: rest => if fresh then (start, n) :: spans else (a, if later32 n b then n else b) :: rest
    | [] => [(start, n)]
  (l.filter fun p => !far p.2).map fun p => if far p.1 then (wrap32 (n + 2 ^ 32 - 2 ^ 30), p.2) else p

/-- The Gauge triggers a web line for the first time (R46, R121, R300, R632, R700): a pending glue-up comes into force with the first
line of its effective strip. -/
def lineTriggered (n : Nat) (s : State) : State :=
  let s := if afterGlue s n then onFabric [] (fun s => applyOthers (markTaken .gauge s)) s else s
  let g := s.gauge
  let shift := (cfgAt s n).shift
  let strip := stripOf shift n
  let newStrip := g.startPending || g.lastLine.isNone || decide (strip ≠ g.lastStrip) || decide (shift ≠ g.lastShift)
  let start := if g.startPending then g.startLine.getD n else n
  let s := { s with
    spans := extendSpans n g.startPending start s.spans
    prev := s.prev.filter fun p => decide (sdiff32 n p.1 < 2 ^ 30)
    gauge := { g with lastLine := some n, lastStrip := strip, lastShift := shift, startPending := false } }
  let s := if newStrip then
      let s := onFabric [] (jigBegin (stripFirst shift strip)) s
      if isActive s then out (.mirrorPos s.gauge.webPos strip) s else s
    else s
  axesTriggered n s

/-! ### Targets (R151 to R154) -/

def slotTrigAt (s : State) (slot line : Nat) : SlotTrigCfg := vget (cfgAt s line).trig slot

/-- A slot has no target from a web line on: line triggering stops before it, or the active role moves there (R168, R714). -/
def targetsEnd (s : State) (line : Nat) : Bool :=
  (s.gauge.stopAfter.any fun l => later32 line l) ||
    (isActive s && s.pair.switchAt.any fun j => atOrAfter line (stripFirst (cfgAt s line).shift j))

/-- The slot's next target: web line, field, position and line sequence. A slot that is not triggered has its next line where a
pending glue-up triggers it. -/
def nextTarget (s : State) (slot : Nat) : Option (Nat × Nat × Int × LineSeq) :=
  let x := vget s.gauge.slots slot
  let place : Option (Nat × Nat) :=
    if (slotTrigAt s slot x.nextLine).enable then some (x.nextLine, x.nextField)
    else match s.glue with
      | some { first := some f, .. } => if later32 f x.nextLine && (slotTrigAt s slot f).enable then some (f, 0) else none
      | _ => none
  match place with
  | none => none
  | some (n, f) =>
    if targetsEnd s n then none
    else match (cfgAt s n).seq, epochAt s n with
      | some q, some e => some (n, f, linePos e.seq e.n0 e.origin n + (slotTrigAt s slot n).offset + lineSeqFoff q f, q)
      | _, _ => none

/-- Whether the web moves in reverse. -/
def inReverse (s : State) : Bool := (webEnc s).any fun e => decide ((vget s.gauge.enc e).dir = some false)

/-- The slot goes on to the target after web line `n`, field `f`; `behind` records where that target lies (R154). -/
def advanceTarget (slot n f fields : Nat) (s : State) : State :=
  let p := if f + 1 < fields then (n, f + 1) else (wrap32 (n + 1), 0)
  let s := setSlotTrig slot (fun x => { x with nextLine := p.1, nextField := p.2, overshot := false, behind := false }) s
  match nextTarget s slot with
  | some (_, _, pos, _) => setSlotTrig slot (fun x => { x with behind := decide (pos < s.gauge.webPos) }) s
  | none => s

/-- LEAD of a slot, with the relay's delay where its uplink goes through the partner's relay and LEAD_COMP is set (R697, R713). -/
def leadOf (s : State) (slot line : Nat) : Nat :=
  let c := (cfgNow s).pair
  let relayed := c.enable && c.leadComp && !isPassive s && !bitOf c.portHome (slot / 2)
  (slotTrigAt s slot line).lead + (if relayed then (vget s.links.through (slot / 12)).relayDelay.getD 0 else 0)

/-- A target that fires on the count itself by R158. -/
def firesOnCount (s : State) (slot line : Nat) (pos : Int) : Bool := onCount pos && decide (leadOf s slot line = 0)

/-! ### Firing (R168 to R172) -/

/-- The strobes of a slot's field (R172). A passive module holds them, and STROBES_OFF does (R307, R698). -/
def strobeField (slot line field : Nat) (s : State) : State :=
  if isPassive s || jigHoldsStrobes s slot line then s
  else
    let c := slotTrigAt s slot line
    [c.strobe0, c.strobe1].foldl (fun s b => match b.trg with
      | some o => if bitOf b.fieldMask field then pulseTrg o b.width b.inverted s else s
      | none => s) s

/-- A target fires at `fire`: its line is triggered, its tag is formed and handed on, and its strobes switch. -/
def fireTag (slot : Nat) (p : TrigPend) (fire : Nat) (s : State) : State :=
  let newer := match s.gauge.lastLine with | some l => later32 p.line l | none => true
  let s := if newer || s.gauge.startPending then lineTriggered p.line s else s
  let tag : TrigTag := { line := p.line, tpos := p.tpos, stime := shortTimeAt s fire, slot, field := p.field, skipBefore := p.skip,
                         reserve := s.gauge.reserveActive, late := p.late, posq := tagPosq s p.tpos }
  let s := if p.late then raiseOnce 0x38F 0 0 { s with gauge := { s.gauge with lateTrig := wrap32 (s.gauge.lateTrig + 1) } } else s
  let s := if isActive s then out (.mirrorTag tag) s else s
  onFabric [] (receiveTag tag) (strobeField slot p.line p.field s)

/-- A trigger request goes out (R159, R171). -/
def issueRequest (slot line : Nat) (s : State) : State := if (slotTrigAt s slot line).trgPacket then sendTrigger slot s else s

/-- Requests of a slot held by MIN_PERIOD. -/
def heldOf (x : SlotTrig) : List TrigPend := x.pend.filter fun p => !p.requested

/-- A target falls due at `req`, to fire at `fire`: it is requested, or held by MIN_PERIOD, or its web line is skipped (R159, R163, R164).
SKIP_BEFORE goes to the first target due after the skip. -/
def dueTarget (slot n f fields : Nat) (pos : Int) (req fire : Nat) (late : Bool) (s : State) : State :=
  let x := vget s.gauge.slots slot
  let wait := !(heldOf x).isEmpty || x.lastRequest.any fun t => decide (req < t + (slotTrigAt s slot n).minPeriod * 8)
  if wait && decide (4 ≤ (heldOf x).length) then
    let s := { s with gauge := { s.gauge with trigSkip := wrap32 (s.gauge.trigSkip + 1) } }
    let s := setSlotTrig slot (fun x => { x with skipBefore := true }) s
    advanceTarget slot n fields fields (raiseOnce 0x390 0 0 s)
  else
    let p : TrigPend := { line := n, field := f, tpos := pos, requested := !wait, fireTime := fire, late := late || wait, skip := x.skipBefore }
    let s := setSlotTrig slot (fun x => { x with
      pend := x.pend ++ [p]
      skipBefore := false
      lastRequest := if wait then x.lastRequest else some req }) s
    advanceTarget slot n f fields (if wait then s else issueRequest slot n s)

/-- A predicted target is requested now (R157, R159, R162). -/
def requestNow (slot : Nat) (late : Bool) (fire n f : Nat) (pos : Int) (q : LineSeq) (s : State) : State :=
  let x := vget s.gauge.slots slot
  dueTarget slot n f q.fields pos s.now (max fire (s.now + leadOf s slot n)) (late || x.overshot) s

/-- Targets of a slot that the web has reached fire on the count, at the output-grid instant `g` (R154, R156, R158, R162). `counting` tells
that a count has just been accepted; `first` that no target of the slot has been taken at this count yet. -/
def reachTargets (slot g : Nat) (counting : Bool) : Nat → Bool → State → State
  | 0, _, s => s
  | k + 1, first, s =>
    match nextTarget s slot with
    | none => s
    | some (n, f, pos, q) =>
      if s.gauge.webPos < pos then s
      else
        let x := vget s.gauge.slots slot
        let late := if counting && first then x.behind || (q.predict && !firesOnCount s slot n pos) else decide (pos < s.gauge.webPos)
        reachTargets slot g counting k false (dueTarget slot n f q.fields pos g g late s)

/-- After a count, the request of a slot's next target that is already overdue is issued at once: the target came within reach of the
prediction only after its request time, or an overshot target's anchor count has come (R162). -/
def overdueRequests (slot : Nat) : Nat → State → State
  | 0, s => s
  | k + 1, s =>
    match nextTarget s slot with
    | none => s
    | some (n, f, pos, q) =>
      if firesOnCount s slot n pos || !atAnchor s pos && (vget s.gauge.slots slot).overshot then s
      else
        match predictFire s q pos with
        | some ft => if ft < s.now + leadOf s slot n then overdueRequests slot k (requestNow slot true ft n f pos q s) else s
        | none => s

/-- The first requests of a slot whose fire time has come, in order. -/
def ripe (now : Nat) (x : SlotTrig) : List TrigPend := x.pend.takeWhile fun p => p.requested && decide (p.fireTime ≤ now)

/-- Tags of one tick in the order of Table 1-2, step 1: by target position, slot and field (R155). -/
def tagOrder (a b : Nat × TrigPend) : Bool :=
  decide (a.2.tpos < b.2.tpos) || (decide (a.2.tpos = b.2.tpos) && (decide (a.1 < b.1) || (decide (a.1 = b.1) && decide (a.2.field < b.2.field))))

/-- Every slot's ripe requests fire. -/
def fireRipe (now : Nat) (s : State) : State :=
  let all := (List.range 24).flatMap fun i => (ripe now (vget s.gauge.slots i)).map fun p => (i, p)
  let s := { s with gauge := { s.gauge with slots := s.gauge.slots.map fun x => { x with pend := x.pend.drop (ripe now x).length } } }
  (sortBy tagOrder all).foldl (fun s e => fireTag e.1 e.2 e.2.fireTime s) s

/-! ### Stopping and switching -/

/-- Line triggering stops once every slot is past the last line to trigger (R168). -/
def checkStop (s : State) : State :=
  match s.gauge.stopAfter with
  | none => s
  | some l =>
    let done (slot : Nat) : Bool := (nextTarget s slot).isNone && (vget s.gauge.slots slot).pend.isEmpty
    if s.gauge.trigEnabled && (List.range 24).all done then stopTriggers (some l) s else s

/-- The old active module is past strip j: its queues' read points and marks go to the partner, and it is passive (R714). With line
triggering stopped it is past it too (assumption 71). -/
def checkSwitch (s : State) : State :=
  match s.pair.switchAt with
  | none => s
  | some _ =>
    let done (slot : Nat) : Bool := (nextTarget s slot).isNone && (vget s.gauge.slots slot).pend.isEmpty
    if isActive s && (!s.gauge.trigEnabled || (List.range 24).all done) then
      let t := s.pair.switchTicket
      let s := (List.range 16).foldl (fun s q => reportLedger q s) s
      let s := becomePassive .switch (setPair (fun p => { p with switchAt := none, switchTicket := none }) s)
      match t with
      | some t => complete t stOk [] s
      | none => s
    else s

/-- What follows a trigger: stopping, the end of a planned switch, and what glue-ups and digests wait for. -/
def afterTriggers (s : State) : State := onFabric [] (settle ∘ checkSwitch) (checkStop s)

/-- The sequencer fires: line triggering is enabled, and the module is not the passive one of a pair (R698). -/
def firing (s : State) : Bool := s.gauge.trigEnabled && !isPassive s

/-- Fuel for the targets of one count: more than a slot can have. -/
def targetFuel : Nat := 2 ^ 34

/-- The targets of every slot after a forward count, or when line triggering begins. -/
def driveTargets (counting : Bool) (s : State) : State :=
  if !firing s || inReverse s then s
  else
    let r := freshValue s
    let g := s.now + 2 * (r.1 % 4)
    let s := (List.range 24).foldl (fun s i => reachTargets i g counting targetFuel true s) r.2
    fireRipe g ((List.range 24).foldl (fun s i => overdueRequests i 64 s) s)

/-! ### Counts (R134 to R150) -/

/-- Forward travel since an illegal transition, or no illegal transition: the reserve offset follows (R143). -/
def offsetFollows (x : Encoder) : Bool := match x.illegalAt.head? with | some n => decide (n + 4096 ≤ x.counts) | none => true

/-- The reserve encoder's position scaled to web counts, exactly, in units of 2^-32 count. -/
def reserveExact (s : State) (cfg : Cfg) : Int :=
  match encOfRole cfg 2 with
  | some r => (vget s.gauge.enc r).position * (vget cfg.enc r).reserveRatio
  | none => 0

/-- WebPos after a count of encoder e (R143, R144, R147). -/
def followWeb (e : Nat) (s : State) : State :=
  let cfg := cfgNow s
  let role := (vget cfg.enc e).role
  let x := vget s.gauge.enc e
  let g := s.gauge
  if role = 1 ∧ !g.reserveActive then
    let s := { s with gauge := { g with webPos := x.position } }
    if offsetFollows x then { s with gauge := { s.gauge with reserveOffset := x.position * 65536 - reserveExact s cfg } } else s
  else if role = 2 then
    let fault := (encOfRole cfg 1).any fun w => (vget g.enc w).encFault
    if g.reserveActive || fault then
      let pos := roundShift (reserveExact s cfg + g.reserveOffset) 16
      let s := { s with gauge := { g with reserveActive := true, webPos := pos } }
      if g.reserveActive then s else raise 0x38C 0 0 s
    else s
  else s

/-- A count is accepted at `stamp`: R135. Whether position changed, and the state. -/
def applyCount (e : Nat) (forward : Bool) (stamp : Nat) (s : State) : Bool × State :=
  let x := vget s.gauge.enc e
  let step (n : Int) : Int := if forward then n * 65536 else -(n * 65536)
  let push (ts : List Nat) : List Nat := (stamp :: ts).take 65
  match x.held, x.dir with
  | some h, some d =>
    if d = forward then (false, setEnc e (fun x => { x with held := none }) s)
    else (true, setEnc e (fun x => { x with
      held := none
      dir := some forward
      position := x.position + step 2
      counts := x.counts + 2
      times := [stamp, h] }) s)
  | _, some d =>
    if d = forward then
      (true, setEnc e (fun x => { x with position := x.position + step 1, counts := x.counts + 1, times := push x.times }) s)
    else (false, setEnc e (fun x => { x with held := some stamp }) s)
  | _, none =>
    (true, setEnc e (fun x => { x with
      dir := some forward
      position := x.position + step 1
      counts := x.counts + 1
      times := push x.times }) s)

/-- STILL ends with the next count (R150). -/
def countSeen (e : Nat) (s : State) : State :=
  let x := vget s.gauge.enc e
  let s := setEnc e (fun x => { x with lastCount := some s.now, still := false, times := if x.still then [] else x.times }) s
  if x.still && decide (webEnc s = some e) then raise 0x391 0 0 s else s

/-- An illegal transition of encoder e (R136 to R139, R143, R146, R626). -/
def illegalStep (e : Nat) (s : State) : State :=
  let s := setEnc e (fun x => { x with illegal := wrap32 (x.illegal + 1), illegalAt := (x.counts :: x.illegalAt).take 8 }) s
  let x := vget s.gauge.enc e
  let role := (vget (cfgNow s).enc e).role
  let s := if role = 1 then { s with gauge := { s.gauge with webIllegalAt := some x.counts, webIllegalPos := s.gauge.webPos } } else s
  let eight := decide (x.illegalAt.length = 8) && (x.illegalAt.getLast?.any fun n => decide (x.counts ≤ n + 4096))
  if eight && !x.encFault then
    let s := raise (0x380 + e) 0 0 (setEnc e (fun x => { x with encFault := true }) s)
    let s := (List.range 4).foldl (fun s a =>
      let st := (vget s.axes.ax a).state
      let works := (axisCfg s a).enable && decide (st ≠ .disabled) && decide (st ≠ .fault) && decide (st ≠ .safeStopped)
      if works && decide ((axisCfg s a).encoder = some e) then withMarks (faultStop a .encoder) s else s) s
    if role = 2 && s.gauge.reserveActive then haltTriggers s else s
  else s

/-- An injection of KIND 6 makes a change of encoder e illegal; it is used up after COUNT of them (R739). -/
def injectedIllegal (e : Nat) (s : State) : Bool × State :=
  let hit (i : Injection) : Bool := decide (i.kind = 6) && decide (i.index = e) && decide (s.now < i.armedAt + 1000000000)
  match s.faults.injections.find? hit with
  | some i =>
    let rest := s.faults.injections.erase i
    (true, { s with faults := { s.faults with injections := if i.count ≤ 1 then rest else { i with count := i.count - 1 } :: rest } })
  | none => (false, s)

/-- The first entries of a compare unit that WebPos has crossed fire (R175). -/
def crossEntries (u : Nat) : Nat → State → State
  | 0, s => s
  | k + 1, s =>
    match (vget s.gauge.cmp u).active.head? with
    | some e => if cmpAhead (cmpCfg s u).reverse s.gauge.webPos e then s else crossEntries u k (withMarks (fireFirst u) s)
    | none => s

/-- The compare units after a count of the encoder in use: a unit fires in its own direction only. -/
def driveCompares (forward : Bool) (s : State) : State :=
  (List.range 16).foldl (fun s u =>
    let c := cmpCfg s u
    if !c.enable then s
    else
      let s := if c.reverse = forward then s else crossEntries u (cmpCap + 1) s
      planCompare u s) s

/-- A new level of A and B of encoder e is accepted (R132 to R147). -/
def encoderChange (e : Nat) (a b : Bool) (s : State) : State :=
  let x := vget s.gauge.enc e
  let c := vget (cfgNow s).enc e
  let moved := decide (a ≠ x.levelA) || decide (b ≠ x.levelB)
  let s := setEnc e (fun x => { x with levelA := a, levelB := b }) s
  if c.role = 0 ∨ !moved then s
  else
    let inj := injectedIllegal e s
    let s := inj.2
    if inj.1 || illegalChange x.levelA x.levelB a b then afterTriggers (illegalStep e s)
    else
      match quadrature x.levelA x.levelB a b c.sense with
      | none => s
      | some forward =>
        let stamp := s.now - 2 * (c.filter - 1)
        let s := countSeen e s
        let before := (vget s.gauge.enc e).position
        let r := applyCount e forward stamp s
        if !r.1 then r.2
        else
          let s := gearMaster e before (vget r.2.gauge.enc e).position (followWeb e r.2)
          if webEnc s ≠ some e then s
          else
            let s := if forward then driveTargets true s else s
            afterTriggers (driveCompares forward s)

end Sys2Proof.Machine
end

