-- ==== Sys2Proof/Machine/Pair.lean ====
section
/-! DEFINITION. The redundant pair ("Janum ring and redundant pairs", R695 to R715): PAIR_CONFIG, PAIR_SWITCH, PAIR_STATUS, heartbeats,
the mirror stream as it arrives, resynchronisation, pairing and takeover. The journal is in Take. -/

namespace Sys2Proof.Machine

/-! ### Commands -/

def specPairConfig : CmdSpec where
  opcode := 0x0F02
  need := exactly 16
  unitOk := unitIs 0
  run := fun _ c s =>
    if s.pair.role = .solo then stageEdit 0x0F02 0 (badPair c.params) (fun g => { g with pair := parPair c.params }) s else wrongState s

/-- PAIR_CONFIG stages pairing, while the module is SOLO (R710). -/
def execPairConfig (t : Nat) (c : HostCmd) (s : State) : Host.Outcome State Fault Refusal := execCmd specPairConfig t c s

/-- The module leaves the pair; a passive module keeps triggering off (Table 16-6). -/
def leavePair (s : State) : State :=
  becomeSolo .left (losePartner (quiet s))

/-- The command has been accepted: MODE 1 takes effect, and MODE 0 where there is nothing left to trigger. -/
def afterSwitch (s : State) : State :=
  match s.pair.switchAt, s.pair.switchTicket with
  | none, some w => afterTriggers (complete w stOk [] (leavePair (setPair (fun p => { p with switchTicket := none }) s)))
  | _, _ => afterTriggers s

def specPairSwitch : CmdSpec where
  opcode := 0x0F03
  need := exactly 4
  unitOk := unitIs 0
  run := fun r c s => checked (firstBad [(0, inRange 0 1 (u8 c.params 0))]) s fun _ =>
    if u8 c.params 0 = 1 then
      if s.pair.role = .solo then wrongState s
      else accepted (le 4 (currentStrip s)) (setPair (fun p => { p with switchTicket := some r.ticket }) (abortSwitch s))
    else if s.pair.role ≠ .active ∨ s.pair.partnerRole ≠ 3 ∨ s.pair.switchAt.isSome then wrongState s
    else
      let j := stripAhead s 3
      accepted (le 4 j) (setPair (fun p => { p with switchAt := some j, switchTicket := some r.ticket }) s)
  after := afterSwitch

/-- PAIR_SWITCH moves the active role (R714) or leaves the pair. -/
def execPairSwitch (t : Nat) (c : HostCmd) (s : State) : Host.Outcome State Fault Refusal := execCmd specPairSwitch t c s

/-- Table 16-8. -/
def pairStatusBody (s : State) : Bytes :=
  let p := s.pair
  le 1 (roleCode p.role) ++ le 1 (pairCauseCode p.cause) ++ le 1 ((p.partner.bind (·.ringId)).getD 0xFF) ++
  le 1 (flagBit p.diverged 0 + flagBit (portUp s 2) 1 + flagBit p.partnerFail 2) ++
  le 8 (match p.partner with | some h => h.serial | none => 0) ++ leI 4 p.jmOffset ++ le 4 p.lastDigest ++ le 4 p.mismatches ++ le 4 p.resyncs ++
  le 4 p.failovers ++ le 4 p.posResyncs ++ le 4 p.journalEntries

def specPairStatus : CmdSpec where
  opcode := 0x0F04
  need := exactly 0
  unitOk := unitIs 0
  run := fun _ _ s => ok (pairStatusBody s) s

/-- PAIR_STATUS reads the pair. -/
def execPairStatus (t : Nat) (c : HostCmd) (s : State) : Host.Outcome State Fault Refusal := execCmd specPairStatus t c s

/-! ### Heartbeats (R702, R711, R712) -/

/-- A message of the mirror arrives over JM. -/
def onMirror (t : Nat) (s : State) (f : State → State) : Host.Outcome State Fault Refusal :=
  runFabric t [] s fun s => if portUp s 2 then onFabric [] settle (f s) else s

/-- The fabric sends its heartbeat every 100 us (Table 16-5). -/
def sendHeartbeat (s : State) : State :=
  if portUp s 2 && inPair s then out (.heartbeat (roleCode s.pair.role) (currentStrip s)) (setPair (fun p => { p with lastSent := some s.now }) s) else s

def execJmHeartbeatTimer (t : Nat) (s : State) : Host.Outcome State Fault Refusal := runFabric t [] s sendHeartbeat

/-- RD and MK of each queue come from the ledger as the active role moves here (R714). -/
def takeLedgerMarks (s : State) : State :=
  s.pair.ledger.foldl (fun s e =>
    let q := e.1
    if (vget s.scribe.queues q).on then queueLevel q (setQueue q (fun x => { x with rd := e.2.1, mkp := e.2.2, head := 0 }) s) else s) s

/-- The partner's role moves this module along Table 16-6: a planned switch has made it passive, it has reached PASSIVE after pairing, or it
has left the pair. -/
def followPartner (role : Nat) (s : State) : State :=
  match s.pair.role with
  | .passive =>
    if role = 3 then openRelays (setUplink false (setRole .active .switch (takeLedgerMarks s)))
    else if role = 0 then leavePair s
    else s
  | .passiveResync => if role = 0 then leavePair s else s
  | .active => if role = 0 then leavePair s else s
  | .pairing => if role = 3 ∧ s.pair.chosen = some true then setRole .active .paired s else s
  | .mirrorLost => becomePairing .resumed s
  | _ => s

/-- A heartbeat of the partner arrives. -/
def takeHeartbeat (role : Nat) (s : State) : State :=
  followPartner role (setPair (fun p => { p with lastHeartbeat := some s.now, partnerRole := role }) s)

/-- The module has become active by a planned switch: it triggers from the first line of the strip (R714). -/
def takeUpTriggers (was : PairRole) (s : State) : State :=
  if was = .passive ∧ s.pair.role = .active then afterTriggers (driveTargets false s) else s

def execJmHeartbeatRx (t role _strip : Nat) (s : State) : Host.Outcome State Fault Refusal :=
  onMirror t s fun s => takeUpTriggers s.pair.role (takeHeartbeat role s)

/-- HB_TIMEOUT passes without a heartbeat: of this module's own fabric, whose Holdfast then gives the failure signal (R711), or of the
partner (R712). -/
def heartbeatTimeout (s : State) : State :=
  let s := if inPair s && missed s s.pair.lastSent then giveSignal s else s
  let mirrors := decide (s.pair.role = .passive) || decide (s.pair.role = .passiveResync)
  if mirrors && missed s s.pair.lastHeartbeat && !s.pair.partnerFail then raise 0x3EA 0 0 (setRole .mirrorLost .heartbeat (quiet s)) else s

def execPartnerHeartbeatTimeout (t : Nat) (s : State) : Host.Outcome State Fault Refusal := runAt t s (onFabric [] settle ∘ heartbeatTimeout)

/-! ### The mirror stream (R699 to R707) -/

/-- A trigger tag of the active module: the slot is past its target, the web line is triggered, and the pipeline matches lines to the tag
(R699). -/
def mirrorTag (tag : TrigTag) (s : State) : State :=
  let early := s.gauge.startPending && s.gauge.startLine.any fun f => later32 f tag.line
  if !isPassive s ∨ 24 ≤ tag.slot ∨ early then s
  else
    let newer := match s.gauge.lastLine with | some l => later32 tag.line l | none => true
    let s := if newer || s.gauge.startPending then lineTriggered tag.line s else s
    let s := advanceTarget tag.slot tag.line tag.field (fieldsOf (cfgAt s tag.line)) s
    checkStop (matchWaiting tag.slot (receiveTag tag s))

def execMirrorTagRx (t : Nat) (tag : TrigTag) (s : State) : Host.Outcome State Fault Refusal := onMirror t s (mirrorTag tag)

/-- WebPos of the active module at a count, with this module's own at that count (R700). -/
def execMirrorPosRx (t : Nat) (pos count : Int) (s : State) : Host.Outcome State Fault Refusal := onMirror t s (takeWebPos pos count)

/-- REL, RD and MK of a queue of the active module (Table 16-5): records released there are released here. -/
def mirrorLedger (q rel rd mk : Nat) (s : State) : State :=
  if !isPassive s ∨ 16 ≤ q then s
  else
    let s := setPair (fun p => { p with ledger := (q, rd, mk) :: p.ledger.filter fun e => decide (e.1 ≠ q) }) s
    if !(vget s.scribe.queues q).on then s
    else
      let s := (releaseTo q rel s).2
      let x := vget s.scribe.queues q
      if later32 x.rel x.rd then queueLevel q (setQueue q (fun x => { x with rd := x.rel, head := 0 }) s) else s

def execMirrorLedgerRx (t queue rel rd mk : Nat) (s : State) : Host.Outcome State Fault Refusal := onMirror t s (mirrorLedger queue rel rd mk)

/-- A mark of a shadow station became pending or ended (R701). -/
def execMirrorMarksRx (t station : Nat) (m : Mark) (s : State) : Host.Outcome State Fault Refusal :=
  onMirror t s (if station < 4 then takePartnerMark station m else id)

/-- The digest of a strip arrives (R706). -/
def execMirrorDigestRx (t strip crc : Nat) (s : State) : Host.Outcome State Fault Refusal := onMirror t s (takeDigest strip crc)

/-- The active module's snapshot arrives (R707). -/
def execResyncSnapshotRx (t : Nat) (snap : Snapshot) (s : State) : Host.Outcome State Fault Refusal := onMirror t s (takeSnapshotRx snap)

/-- Marquetry has waited 20 ms for the snapshot: the module returns to PAIRING (R708). -/
def resyncTimeout (s : State) : State :=
  if isPassive s && s.pair.snapshot.isNone && (s.pair.resyncSince.any fun w => decide (w + 20000000 ≤ s.now)) then becomePairing .snapshotLate s else s

def execResyncTimeout (t : Nat) (s : State) : Host.Outcome State Fault Refusal := runFabric t [] s (onFabric [] settle ∘ resyncTimeout)

/-- The echo over JM gives JM_OFFSET (R699). -/
def execJmOffsetEcho (t : Nat) (offset : Int) (s : State) : Host.Outcome State Fault Refusal :=
  onMirror t s (setPair fun p => { p with jmOffset := offset })

/-- The identities of the pairing check arrive (R709). -/
def execPairingExchange (t : Nat) (hello : PairHello) (s : State) : Host.Outcome State Fault Refusal := onMirror t s (takeHello hello)

/-! ### Takeover (R713) -/

/-- The first target of a line that lies ahead of WebPos. -/
def skipBehind (slot : Nat) : Nat → State → State
  | 0, s => s
  | k + 1, s =>
    match nextTarget s slot with
    | none => s
    | some (n, f, pos, q) =>
      if f = 0 ∧ s.gauge.webPos < pos then s else skipBehind slot k (advanceTarget slot n q.fields q.fields s)

/-- The slot takes over line triggering: its first tag carries SKIP_BEFORE (R713, step 1). -/
def takeOverSlot (s : State) (slot : Nat) : State := setSlotTrig slot (fun x => { x with skipBefore := true }) (skipBehind slot targetFuel s)

/-- A queue sets RD to REL, and MARK_VALID clears without MARK_LOST (R713, step 4). -/
def takeOverQueue (s : State) (q : Nat) : State :=
  if (vget s.scribe.queues q).on then queueLevel q (setQueue q (fun x => { x with rd := x.rel, markValid := false, head := 0 }) s) else s

/-- A DMA channel that a passive module kept in WAIT starts; a view stream restarts at the next strip (R713, step 5). -/
def startHeld (s : State) (c : Nat) : State := if (vget s.dma.ch c).passiveHold then fetchDesc c s else s

def restartView (s : State) (v : Nat) : State := setView v (fun x => { x with restart := true, cur := none }) s

/-- The passive module takes over from a failed partner (R713). -/
def takeOver (s : State) : State :=
  let resync := decide (s.pair.role = .passiveResync)
  let s := setRole .takingOver .partnerFail s
  let s := if s.gauge.trigEnabled then driveTargets false ((List.range 24).foldl takeOverSlot s) else s
  let s := losePartner (setUplink false s)
  let s := (List.range 8).foldl restartView ((List.range 64).foldl startHeld (openRelays ((List.range 16).foldl takeOverQueue s)))
  let s := becomeSolo .partnerFail (setPair (fun p => { p with diverged := resync, failovers := wrap32 (p.failovers + 1) }) s)
  afterTriggers (raise 0x3E9 0 (if resync then 1 else 0) s)

/-- The partner's FAIL line changes: a passive module takes over, an active one goes on alone (R712, Table 16-6). -/
def partnerFail (asserted : Bool) (s : State) : State :=
  let was := s.pair.partnerFail
  let s := setPair (fun p => { p with partnerFail := asserted }) s
  let s := if asserted && !was then raise 0x3F6 1 0 s else s
  if !asserted ∨ was then s
  else
    match s.pair.role with
    | .passive | .passiveResync => onFabric [] takeOver s
    | .active => onFabric [] (fun s => afterTriggers (becomeSolo .partnerFail (losePartner s))) s
    | _ => s

def execPartnerFail (t : Nat) (asserted : Bool) (s : State) : Host.Outcome State Fault Refusal := runAt t s (partnerFail asserted)

end Sys2Proof.Machine
end

