-- ==== Sys2Proof/Machine/Time.lean ====
section
/-! DEFINITION. The commands and events of time ("Time and network time"). -/

namespace Sys2Proof.Machine

def specTimeConfig : CmdSpec :=
  { opcode := 0x0E00, need := exactly 24, unitOk := unitIs 0,
    run := fun _ c s => stageEdit 0x0E00 0 (badTime c.params) (fun cfg => { cfg with time := parTime c.params }) s }

/-- TIME_CONFIG stages the clock's source and the clock-wide PTP settings (Table 15-3). -/
def execTimeConfig (t : Nat) (c : HostCmd) (s : State) : Host.Outcome State Fault Refusal := execCmd specTimeConfig t c s

/-- SECONDS and NS of the clock, 12 bytes. -/
def clockBody (c : Clock) : Bytes := le 8 c.seconds ++ le 4 c.ns

def specTimeSet : CmdSpec :=
  { opcode := 0x0E01, need := exactly 16, unitOk := unitIs 0,
    run := fun _ c s =>
      let p := c.params
      checked (firstBad [(8, decide (u32 p 8 < 1000000000))]) s fun _ =>
        if (timeCfg s).source ≠ 0 ∨ s.gauge.trigEnabled then wrongState s
        else ok (clockBody s.time.clock) (stepClock (u64 p 0 % 2 ^ 48 * 1000000000 + u32 p 8) s) }

/-- TIME_SET steps the clock (R663). -/
def execTimeSet (t : Nat) (c : HostCmd) (s : State) : Host.Outcome State Fault Refusal := execCmd specTimeSet t c s

def specTimeAdjust : CmdSpec :=
  { opcode := 0x0E02, need := exactly 24, unitOk := unitIs 0,
    run := fun _ c s =>
      let p := c.params
      let addend := u64 p 8 % 2 ^ 34
      let setsAddend := bitOf (u8 p 0) 0
      let slews := bitOf (u8 p 0) 1
      checked (firstBad [(8, !setsAddend || addendOk addend), (16, !slews || decide ((s64 p 16).natAbs ≤ 1000000000))]) s fun _ =>
        if (timeCfg s).source ≠ 0 then wrongState s
        else
          let s := if setsAddend then setClockOf (fun k => { k with addend := addend }) s else s
          let s := if slews then addSlew (s64 p 16) s else s
          ok (leI 8 (slewLeft s.time.clock)) s }

/-- TIME_ADJUST sets ADDEND or requests a slew (R664). -/
def execTimeAdjust (t : Nat) (c : HostCmd) (s : State) : Host.Outcome State Fault Refusal := execCmd specTimeAdjust t c s

def specPtpConfig : CmdSpec :=
  { opcode := 0x0E03, need := exactly 24, unitOk := unitBelow 2,
    run := fun _ c s =>
      stageEdit 0x0E03 c.unit (badPtp c.params) (fun cfg => { cfg with ptp := vset cfg.ptp c.unit (parPtp c.params) }) s }

/-- PTP_CONFIG stages an Ethernet port (Table 15-4). -/
def execPtpConfig (t : Nat) (c : HostCmd) (s : State) : Host.Outcome State Fault Refusal := execCmd specPtpConfig t c s

/-- Bytes 48 to 63 of Table 15-5, also the TIME group of READ_COUNTERS (R675). -/
def timeCounters (s : State) : Bytes := le 4 s.time.steps ++ le 4 s.time.discards ++ le 4 s.time.rxOther ++ zeros 4

/-- Table 15-5. -/
def timeBody (s : State) : Bytes :=
  let u := s.time
  clockBody u.clock ++ le 4 (shortTime s) ++ le 8 (slewAddend u.clock) ++ le 1 (timeCfg s).source ++ le 1 (timeFlags s) ++
  le 1 (ptpCode (vget u.ports 0).state) ++ le 1 (ptpCode (vget u.ports 1).state) ++ leI 4 (sat32 u.offset) ++ le 4 (min u.pathDelay 0xFFFFFFFF) ++
  le 8 u.gm ++ le 1 u.hops ++ zeros 3 ++ timeCounters s

def specTimeStatus : CmdSpec :=
  { opcode := 0x0E04, need := exactly 0, unitOk := unitIs 0, run := fun _ _ s => ok (timeBody s) s }

/-- TIME_STATUS reads the clock and its discipline (R661). -/
def execTimeStatus (t : Nat) (c : HostCmd) (s : State) : Host.Outcome State Fault Refusal := execCmd specTimeStatus t c s

/-- A slew has been applied. The clock runs in the Holdfast domain (R658, R664). -/
def execSlewDone (t : Nat) (s : State) : Host.Outcome State Fault Refusal := runAt t s endSlew

def countOther (s : State) : State := { s with time := { s.time with rxOther := wrap32 (s.time.rxOther + 1) } }

/-- A PTP message is received: discarded outside the profile of Table 15-2, taken otherwise. A port that runs no PTP does not claim it
(R670). -/
def execPtpMessage (t port : Nat) (msg : PtpMsg) (s : State) : Host.Outcome State Fault Refusal :=
  runFabric t [] s fun s =>
    if 2 ≤ port then s
    else if !(vget s.time.ports port).linkUp then s
    else if !ptpRuns s port then countOther s
    else if ptpForeign s port msg then { s with time := { s.time with discards := wrap32 (s.time.discards + 1) } }
    else takePtp port msg s

/-- An interval of a PTP port elapses (R666). -/
def execPtpIntervalTimer (t port : Nat) (kind : PtpTimer) (s : State) : Host.Outcome State Fault Refusal :=
  runFabric t [] s fun s => if 2 ≤ port ∨ !ptpRuns s port ∨ !(vget s.time.ports port).linkUp then s else sendPtp port kind s

/-- Sync interval of a port in ns. -/
def syncInterval (c : PtpCfg) : Nat := if 0 ≤ c.logSync then 1000000000 * 2 ^ c.logSync.toNat else 1000000000 / 2 ^ (-c.logSync).toNat

/-- The source in force has been silent for the time of R674. -/
def sourceSilent (s : State) : Bool :=
  match (timeCfg s).source with
  | 1 => [0, 1].any fun p =>
      let x := vget s.time.ports p
      decide (x.state = .slave) && decide (x.lastSyncAt + 3 * syncInterval (ptpCfg s p) ≤ s.now)
  | 2 => s.time.ringMsgAt.any fun a => decide (a + 10000000 ≤ s.now)
  | _ => false

/-- No Sync or time message has come for the time of R674: the clock holds. -/
def execTimeSourceLost (t : Nat) (s : State) : Host.Outcome State Fault Refusal :=
  runFabric t [] s fun s => if s.time.holdover || !sourceSilent s then s else holdClock s

/-- No Announce has come for a port's receipt timeout: its foreign master is forgotten, and it becomes master or listens (R667). -/
def execAnnounceReceiptTimeout (t port : Nat) (s : State) : Host.Outcome State Fault Refusal :=
  runFabric t [] s fun s =>
    if 2 ≤ port ∨ !ptpRuns s port ∨ !(vget s.time.ports port).linkUp then s
    else
      let s := setEth port (fun x => { x with best := none }) s
      let s := if (vget s.time.ports port).state = .listening ∧ !(timeCfg s).slaveOnly then setPtpState port .master s else s
      runBmca s

/-- An ARP request for the port's own address is answered (R670). -/
def execArpRequest (t port ip : Nat) (s : State) : Host.Outcome State Fault Refusal :=
  runFabric t [] s fun s =>
    if 2 ≤ port then s
    else
      let x := vget s.time.ports port
      if x.linkUp && decide ((ptpCfg s port).ipv4 ≠ 0) && decide ((ptpCfg s port).ipv4 = ip) then out (.arpReply port ip) s else s

/-- A frame that neither PTP nor ARP claims (R670). -/
def execEthOtherFrame (t port : Nat) (s : State) : Host.Outcome State Fault Refusal :=
  runFabric t [] s fun s => if 2 ≤ port ∨ !(vget s.time.ports port).linkUp then s else countOther s

/-- An Ethernet port gains link; its PTP listens (R667). The cage's module must be enabled (R780). -/
def execEthLinkUp (t port : Nat) (s : State) : Host.Outcome State Fault Refusal :=
  runFabric t [] s fun s =>
    if 2 ≤ port ∨ (ptpCfg s port).speed = 0 ∨ !(vget s.cages (3 + port)).enabled then s
    else
      let s := setEth port (fun x => { x with linkUp := true }) s
      let st := (vget s.time.ports port).state
      if ptpRuns s port ∧ (st = .initializing ∨ st = .faulty ∨ st = .disabled) then setPtpState port .listening s else s

/-- An Ethernet port loses link: frames in transmission end (R489), and its PTP is FAULTY with no foreign master (R667). -/
def execEthLinkDown (t port : Nat) (s : State) : Host.Outcome State Fault Refusal :=
  runFabric t [] s fun s =>
    if 2 ≤ port ∨ !(vget s.time.ports port).linkUp then s
    else
      let s := ethDownViews port (setEth port (fun x => { x with linkUp := false, best := none, syncWait := none }) s)
      runBmca (if ptpRuns s port then setPtpState port .faulty s else s)

/-- A hop measures the delay of a ring link by echo (R671). -/
def execLinkDelayEcho (t port ns : Nat) (s : State) : Host.Outcome State Fault Refusal :=
  runFabric t [] s fun s =>
    if 2 ≤ port then s else { s with time := { s.time with linkDelays := vmod s.time.linkDelays port fun l => (ns :: l).take 16 } }

/-- A time message arrives on a ring port (R672, R690). -/
def execRingTimeMessage (t port hops : Nat) (payload : Bytes) (s : State) : Host.Outcome State Fault Refusal :=
  runFabric t [] s fun s => if 2 ≤ port then s else takeRingTime port hops payload s

end Sys2Proof.Machine
end

