-- ==== Sys2Proof/Machine/Faults.lean ====
section
/-! DEFINITION. The commands of "Faults, the ticket ledger and the Holdfast": SELFTEST, READ_FAULT_LOG, INJECT_FAULT, READ_COUNTERS and
PACE_STATUS, and the pace figures. -/

namespace Sys2Proof.Machine

/-! ### SELFTEST (R737, R738) -/

def specSelftest : CmdSpec where
  opcode := 0x1000
  need := exactly 4
  unitOk := unitIs 0
  run := fun r c s =>
    let tests := u8 c.params 0 % 64
    let ready (k : Nat) : Bool := decide ((vget s.bench.ctl k).state = .ready)
    if s.gauge.trigEnabled || !ready 0 || !ready 1 then wrongState s
    else
      match s.faults.selftest with
      | some x => busy 3 x.ticket s
      | none => accepted [] { s with faults := { s.faults with selftest := some { ticket := r.ticket, tests, start := s.now } } }

/-- SELFTEST starts the tests of its TESTS bits. -/
def execSelftest (t : Nat) (c : HostCmd) (s : State) : Host.Outcome State Fault Refusal := execCmd specSelftest t c s

/-- One test has ended: a transient failure is counted, a lasting one fences the unit under test (R738). The fault log entry of the first
failure, 0 so far, and the state. -/
def testEnded (first : Nat) (x : TestResult) (s : State) : Nat × State :=
  if x.fails = 0 then (first, s)
  else if x.fails = 1 then (first, countTransient 7 s)
  else
    let e := endItems x.unit x.index 14 stFenced s
    let f := fenceUnit { unit := x.unit, index := x.index, cause := 1, tickets := e.1 } e.2
    (if first = 0 then f.1 else first, f.2)

/-- The TESTS bits whose tests ended in one way; PASSED, FAILED and TRANSIENT are such masks (DESIGN CHOICE, assumption 77). -/
def testMask (rs : List TestResult) (fails : Nat) : Nat := ((rs.filter fun x => decide (x.fails = fails)).map fun x => 2 ^ x.bit).sum

/-- How the tests of a mask went; a test not reported has passed. -/
def testsRun (tests : Nat) (rs : List TestResult) : List TestResult :=
  ((List.range 6).filter (bitOf tests)).map fun b => { ((rs.find? fun x => decide (x.bit = b)).getD {}) with bit := b }

def selftestDone (results : List TestResult) (s : State) : State :=
  match s.faults.selftest with
  | none => s
  | some run =>
    let rs := testsRun run.tests results
    let s := { s with faults := { s.faults with selftest := none } }
    let e := rs.foldl (fun a x => testEnded a.1 x a.2) (0, s)
    complete run.ticket stOk
      (le 1 (testMask rs 0) ++ le 1 (testMask rs 2) ++ le 1 (testMask rs 1) ++ zeros 1 ++ le 4 ((s.now - run.start) / 1000000) ++ le 2 e.1 ++ zeros 6) e.2

def execSelftestDone (t : Nat) (results : List TestResult) (s : State) : Host.Outcome State Fault Refusal := runFabric t [] s (selftestDone results)

/-! ### READ_FAULT_LOG (R732, Table 17-7) -/

/-- Table 17-7. -/
def faultBytes (e : FaultEntry) : Bytes :=
  le 2 e.num ++ le 1 e.cls ++ le 1 (flagBit e.holdfast 0 + flagBit e.persistent 1) ++ le 1 e.unit ++ zeros 1 ++ le 2 e.index ++ le 2 e.cause ++
  le 2 e.status ++ le 4 e.stime ++ le 6 e.seconds ++ zeros 2 ++ le 4 e.ns ++ le 4 e.strip ++ le 4 e.tickets ++ zeros 4 ++ padTo 24 e.detail

/-- Entries from a number on, in ascending order; 0 names the oldest held. Numbers run from 1 to 65,535 and wrap. -/
def entriesFrom (first : Nat) (l : List FaultEntry) : List FaultEntry :=
  if first = 0 then l else l.dropWhile fun e => decide (32768 ≤ (e.num + 65535 - first) % 65535)

def specReadFaultLog : CmdSpec where
  opcode := 0x1001
  need := exactly 20
  unitOk := unitIs 0
  run := fun _ c s =>
    checked (firstBad ((2, inRange 0 1 (u8 c.params 2)) :: bulkHostOnly c.params 4)) s fun _ =>
      let ref := parBulk c.params 4
      let held := if u8 c.params 2 = 0 then s.faults.log else s.faults.flash
      let given := (entriesFrom (u16 c.params 0) held).take (ref.length / 64)
      let num (e : Option FaultEntry) : Nat := match e with | some e => e.num | none => 0
      withBulk c.bulkFails ref s fun s =>
        ok (le 4 held.length ++ le 2 (num held.head?) ++ le 2 (num held.getLast?) ++ le 4 given.length) (bulkOut ref (given.flatMap faultBytes) s)

/-- READ_FAULT_LOG reads fault log entries. -/
def execReadFaultLog (t : Nat) (c : HostCmd) (s : State) : Host.Outcome State Fault Refusal := execCmd specReadFaultLog t c s

/-! ### INJECT_FAULT (R739) -/

/-- INDEX runs below this number for each KIND. -/
def injectUnits (kind : Nat) : Nat :=
  match kind with | 1 => 2 | 2 => 2 | 3 => 3 | 4 => 16 | 5 => 64 | 6 => 6 | _ => 0

def badInject (p : Bytes) : Option Nat :=
  let k := u8 p 0
  let most := if k = 2 then 1 else if k = 6 then 255 else 2
  firstBad [(0, inRange 1 6 k), (1, inRange 1 most (u8 p 1)), (2, decide (u8 p 2 < injectUnits k))]

def specInjectFault : CmdSpec where
  opcode := 0x1002
  need := exactly 8
  unitOk := unitIs 0
  run := fun _ c s => checked (badInject c.params) s fun _ =>
    let i : Injection := { kind := u8 c.params 0, count := u8 c.params 1, index := u8 c.params 2, armedAt := s.now }
    if i.kind ≠ 6 ∧ i.count = 2 ∧ s.gauge.trigEnabled then wrongState s
    else ok [] { s with faults := { s.faults with injections := s.faults.injections ++ [i] } }

/-- INJECT_FAULT arms one injected fault. -/
def execInjectFault (t : Nat) (c : HostCmd) (s : State) : Host.Outcome State Fault Refusal := execCmd specInjectFault t c s

/-- An injection lapses when nothing has met it within 1 s. -/
def execInjectionLapse (t : Nat) (s : State) : Host.Outcome State Fault Refusal :=
  runAt t s fun s => { s with faults := { s.faults with injections := s.faults.injections.filter fun i => decide (s.now < i.armedAt + 1000000000) } }

/-! ### READ_COUNTERS (R740, Tables 17-12 and 17-13) -/

/-- Block size and number of blocks of a group (Table 17-12). -/
def counterGroup (g : Nat) : Option (Nat × Nat) :=
  match g with
  | 0x01 => some (64, 24)
  | 0x02 => some (48, 24)
  | 0x03 => some (40, 1)
  | 0x04 => some (80, 1)
  | 0x05 => some (260, 1)
  | 0x06 => some (48, 16)
  | 0x07 => some (48, 4)
  | 0x08 => some (24, 25)
  | 0x09 => some (24, 8)
  | 0x0A => some (24, 21)
  | 0x0B => some (32, 2)
  | 0x0C => some (16, 16)
  | 0x0D => some (24, 64)
  | 0x0E => some (48, 4)
  | 0x0F => some (16, 1)
  | 0x10 => some (32, 3)
  | 0x11 => some (20, 1)
  | 0x12 => some (64, 2)
  | 0x13 => some (64, 1)
  | _ => none

/-- Table 6-8. -/
def planeCounterBytes (c : PlaneCounters) : Bytes :=
  [c.satLines, c.satSamples, c.replaced, c.driftUpdates, c.driftLimited, c.driftDiscarded, c.lateWrites, c.jigSkipped, c.jigAccepted, c.jigRejected].flatMap (le 4)

/-- Table 7-8. -/
def dovetailCounterBytes (c : DovetailCounters) : Bytes :=
  [c.stitched, c.dropped, c.importMissing, c.importLate, c.importMismatch, c.shimUpdates, c.shimLimited, c.shimDiscarded, c.lateWrites, c.regAlarms].flatMap (le 4)

/-- R526: compressors, then the archive, then decompressors. -/
def compressCounterBytes (s : State) (i : Nat) : Bytes :=
  if i < 16 then
    let c := (ceAt s i).cnt
    [c.blocks, c.stored, c.rawBytes / 1024, c.packedBytes / 1024, c.transient, c.failed].flatMap (le 4)
  else if i = 16 then
    let c := s.comp.cnt
    [c.archived, c.freed, c.hostSkips, c.noTicketBlocks].flatMap (le 4)
  else
    let c := (vget s.comp.de (i - 17)).cnt
    [c.frames, c.crcErrors, c.formatErrors].flatMap (le 4)

/-- R716. -/
def portCounterBytes (c : PortCounters) : Bytes :=
  [c.tx, c.rx, c.crcRetries, c.fences, c.downs, c.frDiscards, c.lateReplies, c.folds].flatMap (le 4)

/-- Table 17-13: LEDGER. -/
def ledgerBytes (l : Ledger) (i : Nat) : Bytes :=
  if i = 0 then [l.issued.length, l.highWater, l.issuedCount, l.complete, l.failed, l.fullEpisodes, l.noTicket].flatMap (le 4)
  else (l.failedCommands :: (List.range 15).map fun k => sget l.failedBy (k + 1) 0).flatMap (le 4)

/-- Table 17-13: FAULTS. -/
def faultCounterBytes (c : FaultCounters) : Bytes :=
  [c.cmdSlot, c.hostBulk, c.command, c.verify, c.bench, c.ring, c.dma, c.selftest, c.fences, c.freezes, c.wedges, c.warmResets, c.powerFaults,
   c.thermalFaults, c.authFailures, c.smbusErrors].flatMap (le 4)

/-- One DMA channel's block (Table 17-12). -/
def dmaCounterBytes (x : DmaChan) : Bytes := le 8 x.bytes ++ [x.lateWrites, x.ticksMissed, x.retries, x.descFailed].flatMap (le 4)

/-- R576. -/
def benchPortBytes (p : BenchPort) : Bytes := [p.requests, p.bytes / 1024, p.urgent3, p.misses].flatMap (le 4)

/-- The named bytes of one block of a group. -/
def counterBytes (s : State) (g i : Nat) : Bytes :=
  match g with
  | 0x01 => ingestCounterBytes (vget s.ingest.slots i).cnt
  | 0x02 => planeCounterBytes (vget s.plane.slots i).cnt
  | 0x03 => dovetailCounterBytes s.dovetail.cnt
  | 0x04 => marqCounterBytes s.marq.cnt
  | 0x05 => (List.range 65).flatMap fun k => le 4 (sget s.marq.hits k 0)
  | 0x06 => queueCounterBytes (vget s.scribe.queues i).cnt
  | 0x07 => stationCounterBytes (vget s.scribe.stations i).cnt
  | 0x08 => if i < 24 then profileCounterBytes (vget s.prof.slots i).cnt else le 4 s.prof.bgRows ++ le 4 s.prof.bgClipped ++ le 4 s.prof.bgStalls
  | 0x09 => viewCounterBytes (vget s.views i).cnt
  | 0x0A => compressCounterBytes s i
  | 0x0B => ctlCounterBytes (vget s.bench.ctl i) ++ le 4 s.bench.hostHeld
  | 0x0C => benchPortBytes (vget s.bench.ports i)
  | 0x0D => dmaCounterBytes (vget s.dma.ch i)
  | 0x0E => axisCounterBytes (vget s.axes.ax i).cnt
  | 0x0F => timeCounters s
  | 0x10 => portCounterBytes (vget s.ring.ports i).cnt
  | 0x11 => slice (pairStatusBody s) 20 20
  | 0x12 => ledgerBytes s.ledger i
  | 0x13 => faultCounterBytes s.faults.cnt
  | _ => []

def specReadCounters : CmdSpec where
  opcode := 0x1003
  need := fun c => (4, decide (c.paramLen = 4) || decide (c.paramLen = 20))
  unitOk := unitIs 0
  run := fun _ c s =>
    let p := c.params
    let g := u8 p 0
    let first := u8 p 1
    let shape := (counterGroup g).getD (1, 0)
    let left := shape.2 - first
    let asked := if u8 p 2 = 0 then left else min (u8 p 2) left
    let ref := parBulk p 4
    let bulk := decide (c.paramLen = 20)
    let blocks (n : Nat) : Bytes := (List.range n).flatMap fun i => padTo shape.1 (counterBytes s g (first + i))
    let head (n : Nat) : Bytes := le 1 g ++ le 1 first ++ le 1 n ++ zeros 1 ++ le 2 shape.1 ++ zeros 2
    checked (firstBad ([(0, (counterGroup g).isSome), (1, decide (first < shape.2))] ++
        (if bulk then bulkHostOnly p 4 ++ [(16, decide (asked * shape.1 ≤ ref.length))] else []))) s fun _ =>
      if bulk then withBulk c.bulkFails ref s fun s => ok (head asked) (bulkOut ref (blocks asked) s)
      else
        let n := min asked (1000 / shape.1)
        ok (head n ++ blocks n) s

/-- READ_COUNTERS reads one counter group. -/
def execReadCounters (t : Nat) (c : HostCmd) (s : State) : Host.Outcome State Fault Refusal := execCmd specReadCounters t c s

/-! ### The pace (R28 to R33) -/

def specPaceStatus : CmdSpec where
  opcode := 0x1004
  need := exactly 0
  unitOk := unitIs 0
  run := fun _ _ s => ok (paceBody s) s

/-- PACE_STATUS reads the fabric's pace and supply. -/
def execPaceStatus (t : Nat) (c : HostCmd) (s : State) : Host.Outcome State Fault Refusal := execCmd specPaceStatus t c s

/-- A pace figure is formed every 1 ms (R28, R33). -/
def execPaceUpdate (t figure : Nat) (s : State) : Host.Outcome State Fault Refusal := runFabric t [] s (paceUpdate figure)

end Sys2Proof.Machine
end

