-- ==== Sys2Proof/Machine/Gauge.lean ====
section
/-! DEFINITION. The Gauge ("Web encoders, sub-count line triggers and position compare"): TRIGGER_ENABLE, encoder counts and index
edges, and the events of the trigger sequencer. -/

namespace Sys2Proof.Machine

/-! ### TRIGGER_ENABLE (R166 to R169, R183) -/

/-- START_LINE is refused (R166, R183). -/
def startRefused (s : State) (start : Nat) : Bool :=
  let shift := (cfgNow s).shift
  let g := s.gauge
  decide (start % 2 ^ shift ≠ 0) || (g.lastLine.any fun l =>
    !later32 start l || (decide (shift ≠ g.lastShift) && !later32 (stripOf shift start) g.lastStrip))

/-- A SELFTEST in progress ends ST_ABORTED (R737). -/
def abortSelftest (s : State) : State :=
  match s.faults.selftest with
  | some r => complete r.ticket stAborted (zeros 4 ++ le 4 ((s.now - r.start) / 1000000) ++ zeros 8) { s with faults := { s.faults with selftest := none } }
  | none => s

/-- Line triggering begins at START_LINE, a strip's first line: it is the effective strip of a pending glue-up (R46, R166, R167). -/
def startTriggers (q : LineSeq) (start : Nat) (origin : Int) (s : State) : State :=
  let shift := (cfgNow s).shift
  let strip := stripOf shift start
  let epoch : SeqEpoch := { firstLine := start, firstStrip := strip, n0 := start, origin, shift, seq := q }
  let slot (x : SlotTrig) : SlotTrig := { x with nextLine := start, nextField := 0, overshot := false, pend := [], skipBefore := false }
  let s := { s with
    glue := s.glue.map fun g => if g.first.isNone then { g with first := some start, strip := strip } else g
    bench := { s.bench with epochs := s.bench.epochs ++ [epoch] }
    gauge := { s.gauge with
      trigEnabled := true
      trigHalted := false
      n0 := start
      origin := origin
      startLine := some start
      startPending := true
      lastStrip := strip
      lastShift := shift
      stopAfter := none
      slots := s.gauge.slots.map slot } }
  let s := raise 0x38D strip 0 s
  let mark (s : State) (i : Nat) : State :=
    match nextTarget s i with
    | some (_, _, pos, _) => setSlotTrig i (fun x => { x with behind := decide (pos < s.gauge.webPos) }) s
    | none => setSlotTrig i (fun x => { x with behind := false }) s
  afterTriggers (driveTargets false ((List.range 24).foldl mark s))

/-- TRIGGER_ENABLE with ENABLE 1, once the Bench is ready. -/
def enableTriggers (p : Bytes) (s : State) : Verdict :=
  let start := u32 p 4
  match (cfgNow s).seq, encOfRole (cfgNow s) 1 with
  | some q, some _ =>
    if startRefused s start then badParam 4 s
    else
      let origin := toSigned 64 (toUnsigned 64 (s64 p 8 + (if u8 p 1 = 1 then s.gauge.webPos else 0)))
      ok (le 4 start) (startTriggers q start origin (abortSelftest s))
  | _, _ => wrongState s

/-- TRIGGER_ENABLE with ENABLE 0 (R168). -/
def disableTriggers (atOnce : Bool) (s : State) : Verdict :=
  let g := s.gauge
  if atOnce then ok (le 4 (g.lastLine.getD 0)) (afterTriggers (stopNow s))
  else
    let last := wrap32 (stripFirst g.lastShift g.lastStrip + 2 ^ g.lastShift - 1)
    ok (le 4 last) (afterTriggers { s with gauge := { g with stopAfter := some last } })

def frozenCtl (s : State) : Option Nat := [0, 1].find? fun c => stackFrozen s c

def badTriggerEnable (p : Bytes) : Option Nat := firstBad [(0, inRange 0 1 (u8 p 0)), (1, inRange 0 1 (u8 p 1))]

def specTriggerEnable : CmdSpec where
  opcode := 0x0C06
  need := exactly 16
  unitOk := anyUnit
  run := fun r c s => checked (badTriggerEnable c.params) s fun _ =>
    if u8 c.params 0 = 0 then (if s.gauge.trigEnabled then disableTriggers (decide (u8 c.params 1 = 1)) s else wrongState s)
    else if s.gauge.trigEnabled || s.gauge.enableWait.isSome then wrongState s
    else
      match frozenCtl s with
      | some k => fail stBenchFrozen (entryNoBody (match (vget s.bench.ctl k).capture with | some x => x.faultEntry | none => 0)) s
      | none =>
        if benchAsleep s && s.bench.forced then wrongState s
        else if benchAsleep s || s.bench.entering.isSome then
          replyLater (startExit { s with gauge := { s.gauge with enableWait := some (r.ticket, c.params) } })
        else enableTriggers c.params s

/-- TRIGGER_ENABLE starts or stops line triggering. While the Bench is in self-refresh it is carried out after the exit (R556). -/
def execTriggerEnable (t : Nat) (c : HostCmd) (s : State) : Host.Outcome State Fault Refusal := execCmd specTriggerEnable t c s

/-- The exit from self-refresh completes; a TRIGGER_ENABLE that waited for it is carried out. -/
def leaveSelfRefresh (s : State) : State :=
  let s := forcedExited (srExited s)
  match s.gauge.enableWait with
  | some (w, p) =>
    if benchAsleep s || s.bench.entering.isSome then s
    else
      let s := { s with gauge := { s.gauge with enableWait := none } }
      let v := if s.gauge.trigEnabled then wrongState s else enableTriggers p s
      complete w v.status v.body v.st
  | none => s

/-- The Bench has left self-refresh (R556, Table 12-3). -/
def execSelfRefreshExited (t : Nat) (s : State) : Host.Outcome State Fault Refusal := runAt t s leaveSelfRefresh

/-! ### Encoders -/

/-- A new level of A or B of an encoder input is accepted (R132 to R147). -/
def execEncoderCount (t e : Nat) (a b : Bool) (s : State) : Host.Outcome State Fault Refusal := runAt t s (if e < 6 then encoderChange e a b else id)

/-- A rising edge of Z (R140): its position is latched, and in modes 2 and 3 the position is set to REZERO_VALUE. It is the index that
homing with LATCH 1 waits for. -/
def indexEdge (e : Nat) (s : State) : State :=
  let c := vget (cfgNow s).enc e
  let x := vget s.gauge.enc e
  let homes (a : Nat) : Bool :=
    decide ((axisCfg s a).encoder = some e) && (match (vget s.axes.ax a).home with
      | some h => h.par.latchIndex && decide (h.phase = .approach) && h.edgeAt.isSome && !h.braking
      | none => false)
  if c.role = 0 then s
  else
    let acts := c.indexMode = 1 ∨ c.indexMode = 3 ∨ (c.indexMode = 2 ∧ x.rezeroArmed)
    let s := (List.range 4).foldl (fun s a => if homes a then latchHome a s else s) s
    if acts then
      let s := setEnc e (fun x => { x with
        indexPos := x.position
        position := if c.indexMode = 1 then x.position else c.rezero
        rezeroArmed := false }) s
      raise (0x386 + e) 0 0 s
    else s

/-- An index edge of an encoder input. -/
def execIndexEdge (t e : Nat) (s : State) : Host.Outcome State Fault Refusal := runAt t s (if e < 6 then indexEdge e else id)

/-- No count has arrived for STILL_TIMEOUT (R150). -/
def stillTimeout (e : Nat) (s : State) : State :=
  let c := vget (cfgNow s).enc e
  let x := vget s.gauge.enc e
  if c.role ≠ 0 && !x.still && (x.lastCount.any fun l => decide (l + c.stillTimeout * 1000 ≤ s.now)) then
    let s := setEnc e (fun x => { x with still := true }) s
    if webEnc s = some e then raise 0x391 0 0 s else s
  else s

/-- STILL_TIMEOUT of an encoder passes without a count. -/
def execStillTimeout (t e : Nat) (s : State) : Host.Outcome State Fault Refusal := runAt t s (if e < 6 then stillTimeout e else id)

/-! ### Requests and firings -/

/-- The request time of a slot's next target has come, by the prediction of the latest count (R157, R159). Before the anchor count the
prediction has overshot (R162). -/
def triggerRequest (slot : Nat) (s : State) : State :=
  if !firing s || inReverse s then s
  else
    match nextTarget s slot with
    | none => s
    | some (n, f, pos, q) =>
      if firesOnCount s slot n pos then s
      else
        match predictFire s q pos with
        | none => s
        | some ft =>
          if s.now + leadOf s slot n < ft then s
          else if !atAnchor s pos then setSlotTrig slot (fun x => { x with overshot := true }) s
          else afterTriggers (fireRipe s.now (requestNow slot false ft n f pos q s))

/-- A slot's trigger request goes out at its request time. -/
def execTriggerRequest (t slot : Nat) (s : State) : Host.Outcome State Fault Refusal := runAt t s (if slot < 24 then triggerRequest slot else id)

/-- The fire time of a requested target has come. Targets of other slots whose fire time it is fire with it, in the order of Table 1-2, step
1 (R155). -/
def triggerFire (slot : Nat) (s : State) : State := if (ripe s.now (vget s.gauge.slots slot)).isEmpty then s else afterTriggers (fireRipe s.now s)

/-- A requested target of a slot fires. -/
def execTriggerFire (t slot : Nat) (s : State) : Host.Outcome State Fault Refusal := runAt t s (if slot < 24 then triggerFire slot else id)

/-- The oldest held request of a slot goes out once MIN_PERIOD has passed since the slot's previous request (R159, R163). -/
def releaseHeld (slot : Nat) (s : State) : State :=
  let x := vget s.gauge.slots slot
  match heldOf x with
  | [] => s
  | p :: _ =>
    if x.lastRequest.any fun l => decide (s.now < l + (slotTrigAt s slot p.line).minPeriod * 8) then s
    else
      let go : TrigPend := { p with requested := true, fireTime := s.now + leadOf s slot p.line }
      let s := setSlotTrig slot (fun x => { x with pend := (x.pend.filter (·.requested)) ++ go :: (heldOf x).drop 1, lastRequest := some s.now }) s
      afterTriggers (fireRipe s.now (issueRequest slot p.line s))

/-- MIN_PERIOD has passed, and a held request goes out. -/
def execMinPeriodRelease (t slot : Nat) (s : State) : Host.Outcome State Fault Refusal := runAt t s (if slot < 24 then releaseHeld slot else id)

end Sys2Proof.Machine
end

