-- ==== Sys2Proof/Machine/GlueUp.lean ====
section
/-! DEFINITION. GLUEUP and ABANDON (R117 to R128, R183, R817): the checks of an acceptance, the acceptance, the two phases of a
broadcast glue-up, and what ABANDON discards. -/

namespace Sys2Proof.Machine

/-! ### The checks (R817) -/

/-- The staged configuration, shadow banks included, is identical to the running one (Table 2-5). A repeated edit with equal values does
not make it differ (DEDUCED, assumption 74). -/
def nothingStaged (s : State) : Bool :=
  decide (s.staged = cfgNow s) && decide (s.marq.shadow = s.marq.active) &&
  (s.dovetail.maps.toList.all fun m => decide (m.shadow = m.active)) && s.plane.slots.toList.all fun x => decide (x.shadow = x.active)

def useCurrent (p : Bytes) : Bool := bitOf (u8 p 4) 1
def atStripSet (p : Bytes) : Bool := bitOf (u8 p 4) 0
def earliestStrip (p : Bytes) : Nat := u32 p 8

/-- R117: the last dry-fit checked exactly the generation to be committed and found it FIT. -/
def fitted (s : State) (gen : Nat) : Bool := decide (gen = s.stageGen) && s.dryfit.any fun d => decide (d.gen = gen) && d.fit

/-- R118: a staged claim collides with a run-time claim. -/
def rtCollision (s : State) : Option Holder :=
  (stagedClaims s).findSome? fun c =>
    (s.claims.find? fun r => decide (r.kind = c.kind) && decide (r.index = c.index)).map fun r =>
      { kind := c.kind, index := c.index, opcode := r.opcode, unit := r.unit, state := 2 }

/-- A glue-up lays partitions out anew, so it needs both stacks of the Bench (R540, R566). -/
def glueBench (s : State) : Option Verdict := benchRefuses { s with bench := { s.bench with autoEntered := true } } [0, 1]

/-- The first status that refuses a glue-up, from ST_BUSY on, in the order of R817. -/
def glueRefused (broadcast : Bool) (p : Bytes) (s : State) : Option Verdict :=
  let gen := if useCurrent p then s.stageGen else u32 p 0
  if s.glue.isSome then some (busy 2 0 s)
  else if s.ring.prepared.isSome then some (busy 5 0 s)
  else if nothingStaged s then some (fail stNotStaged (zeros 8) s)
  else if !fitted s gen then some (fail stNotFitted (le 4 s.stageGen ++ le 4 (s.dryfit.getD {}).gen) s)
  else if s.gauge.trigEnabled && decide (s.staged.shift ≠ (cfgNow s).shift) then some (wrongState s)
  else
    match glueBench s with
    | some v => some { v with st := s }
    | none =>
      match rtCollision s with
      | some h => some (conflict h s)
      | none =>
        if broadcast && !useCurrent p then some (badParam 4 s)
        else if s.gauge.trigEnabled && atStripSet p && decide (65536 < sdiff32 (earliestStrip p) (currentStrip s)) then some (badParam 8 s)
        else none

/-! ### Acceptance (R47, R119, R120, R153) -/

/-- The effective strip that this module would choose (R47, R119). -/
def glueStrip (p : Bytes) (s : State) : Nat :=
  let k := wrap32 (currentStrip s + 3)
  if atStripSet p && later32 (earliestStrip p) k then earliestStrip p else k

/-- Units that process no web line under the running configuration have nothing to finish: they stand at the last line triggered. -/
def idleUnits (s : State) : State :=
  match s.spans.head? with
  | none => s
  | some (_, l) =>
    let c := s.running
    let s := if processes c .dovetail then s else { s with dovetail := { s.dovetail with last := some l } }
    let s := if processes c .marquetry then s else { s with marq := { s.marq with last := some l } }
    (List.range 8).foldl (fun s v => if processes c (.veneer v) then s else setView v (fun x => { x with last := some l }) s) s

/-- The line sequence from the effective strip on. A change of PITCH, K or ADJ rebases it: N0 becomes the strip's first line, and ORIGIN
the P(N0) of the old sequence (R153). -/
def nextEpoch (first strip : Nat) (s : State) : List SeqEpoch :=
  match s.staged.seq, s.running.seq, epochAt s first with
  | some q, some q0, some e =>
    if q = q0 then []
    else
      let rebased := decide (q.pitch ≠ q0.pitch) || decide (q.k ≠ q0.k) || decide (q.adj ≠ q0.adj)
      let e' : SeqEpoch := { e with firstLine := first, firstStrip := strip, seq := q }
      [if rebased then { e' with n0 := first, origin := linePos e.seq e.n0 e.origin first } else e']
  | _, _, _ => []

/-- A glue-up is accepted for an effective strip: while line triggering is disabled it is deferred (R120). -/
def beginGlue (ticket strip : Nat) (s : State) : State :=
  let enabled := s.gauge.trigEnabled
  let first := stripFirst s.staged.shift strip
  let g : Glue := { next := s.staged, strip := if enabled then strip else 0, first := if enabled then some first else none,
                    deferred := !enabled, gen := s.stageGen, ticket }
  let s := idleUnits s
  let s := if enabled then { s with bench := { s.bench with epochs := s.bench.epochs ++ nextEpoch first strip s } } else s
  let s := { s with glue := some g }
  if isActive s then journal (.glueUp strip) s else s

/-- Immediate body (Table 2-14). -/
def glueBody (s : State) : Bytes :=
  match s.glue with
  | some g => le 4 g.strip ++ le 4 g.gen ++ le 1 (flagBit g.deferred 0) ++ zeros 3
  | none => zeros 12

def runGlueUp (r : CmdRec) (c : HostCmd) (s : State) : Verdict :=
  match glueRefused false c.params s with
  | some v => v
  | none =>
    let s := beginGlue r.ticket (glueStrip c.params s) s
    accepted (glueBody s) s

/-! ### A broadcast glue-up (R124 to R127) -/

/-- The second phase: one effective strip in every module. The gateway's own glue-up completes as its share of the broadcast. -/
def commitAll (q : Prepare) (s : State) : State :=
  let own := s.ring.moduleId
  let k := (q.prepared.map (·.2)).foldl (fun m x => if later32 x m then x else m) (currentStrip s)
  let k3 := wrap32 (k + 3)
  let strip := match q.earliest with | some e => if later32 e k3 then e else k3 | none => k3
  let others := (q.prepared.map (·.1)).filter fun m => decide (m ≠ own)
  let b : Broadcast := { ring := q.ring, ticket := q.ticket, tag := q.tag, opcode := 0x0201, irq := q.irq, completing := true,
                         waiting := own :: others, sentAt := s.now }
  let s := { s with ring := { s.ring with prepare := none, prepared := none, broadcasts := s.ring.broadcasts ++ [b] } }
  let s := others.foldl (fun s m => out (.commit m strip) s) s
  let r : CmdRec := { ticket := q.ticket, ring := q.ring, tag := q.tag, opcode := 0x0201, irq := q.irq, barrier := q.barrier }
  let s := beginGlue (shareTicket q.ticket) strip { s with cmds := s.cmds ++ [{ ownShare r with accepted := true }] }
  settle (answer r stAccepted (glueBody s) s)

/-- Every module is released and nothing is committed (R126). -/
def releaseAll (q : Prepare) (source status : Nat) (body : Bytes) (s : State) : State :=
  let mods := (q.prepared.map (·.1) ++ q.waiting).filter fun m => decide (m ≠ s.ring.moduleId)
  let s := mods.foldl (fun s m => out (.release m) s) { s with ring := { s.ring with prepare := none, prepared := none } }
  let s := decideTicket q.ticket (ticketCode status) (dropCmd q.ticket s)
  postReply q.ring q.ticket q.irq (replyBytes 0x0201 status q.tag q.ticket source 0 body) s

/-- The first phase at the gateway: its own preparation, and a request to every other module (R124). -/
def prepareAll (r : CmdRec) (c : HostCmd) (s : State) : State :=
  if passiveRefuses s 0x0201 c then answer r stWrongState (zeros 8) s
  else
    match glueRefused true c.params s with
    | some v => answer r v.status v.body s
    | none =>
      let others := otherModules s
      let own := (s.ring.moduleId, currentStrip s)
      let q : Prepare := { ring := r.ring, ticket := r.ticket, tag := r.tag, irq := r.irq, barrier := r.barrier,
                           earliest := if atStripSet c.params then some (earliestStrip c.params) else none,
                           waiting := others, prepared := [own], sentAt := s.now }
      let s := { s with ring := { s.ring with prepare := some q, prepared := some own } }
      if others = [] then commitAll q s else others.foldl (fun s m => out (.prepare m) s) s

def specGlueup : CmdSpec where
  opcode := 0x0201
  need := exactly 12
  unitOk := anyUnit
  run := runGlueUp
  after := settle
  every := some prepareAll

/-- GLUEUP commits the staged configuration at one strip boundary in every unit. -/
def execGlueup (t : Nat) (c : HostCmd) (s : State) : Host.Outcome State Fault Refusal := execCmd specGlueup t c s

/-- A module answers the preparation: with the last one the gateway commits; a refusal releases every module (R125, R126). -/
def takePrepared (m status strip : Nat) (s : State) : State :=
  match s.ring.prepare with
  | none => s
  | some q =>
    if !q.waiting.contains m then s
    else
      let q := { q with waiting := q.waiting.erase m }
      if 0x8000 ≤ status then releaseAll q m status (zeros 8) s
      else
        let q := { q with prepared := q.prepared ++ [(m, strip)] }
        if q.waiting = [] then commitAll q s else { s with ring := { s.ring with prepare := some q } }

/-- GLUEUP_PREPARE_REPLY. -/
def execGlueupPrepareReply (t module status strip : Nat) (s : State) : Host.Outcome State Fault Refusal :=
  runFabric t [] s (takePrepared module status strip)

/-- 1 ms has passed without every answer (R126). -/
def prepareLate (s : State) : State :=
  match s.ring.prepare with
  | none => s
  | some q =>
    match q.waiting with
    | [] => s
    | m :: ms =>
      let low := ms.foldl min m
      if q.sentAt + 1000000 ≤ s.now then releaseAll q low stTimeout (le 1 low ++ zeros 7) s else s

/-- GLUEUP_PREPARE_TIMEOUT. -/
def execGlueupPrepareTimeout (t : Nat) (s : State) : Host.Outcome State Fault Refusal := runFabric t [] s prepareLate

/-! ### ABANDON (R57, R98, R128) -/

/-- Each shadow bank takes the contents of its active bank, and every other staged edit is discarded. -/
def abandonStaged (s : State) : State :=
  { s with
    staged := cfgNow s
    stageGen := wrap32 (s.stageGen + 1)
    marq := { s.marq with shadow := s.marq.active }
    dovetail := { s.dovetail with maps := s.dovetail.maps.map fun m => { m with shadow := m.active } }
    plane := { s.plane with slots := s.plane.slots.map fun x => { x with shadow := x.active } }
    gauge := { s.gauge with encStaged := [] }
    links := { s.links with linkStaged := [] } }

def specAbandonHere : CmdSpec where
  opcode := 0x0202
  need := exactly 0
  unitOk := unitIs 0xFF
  run := fun _ _ s =>
    if s.glue.isSome then busy 2 0 s
    else if s.ring.prepared.isSome then busy 5 0 s
    else
      let s := abandonStaged s
      ok (le 4 s.stageGen) s

/-- A broadcast ABANDON runs in each module on its own (R128). -/
def abandonAll (r : CmdRec) (c : HostCmd) (s : State) : State :=
  let others := otherModules s
  let b : Broadcast := { ring := r.ring, ticket := r.ticket, tag := r.tag, opcode := 0x0202, irq := r.irq, barrier := r.barrier,
                         waiting := s.ring.moduleId :: others, sentAt := s.now }
  let s := { s with ring := { s.ring with broadcasts := s.ring.broadcasts ++ [b] } }
  let s := others.foldl (fun s m => out (.forward m 0x0202 c) s) s
  runHere specAbandonHere (ownShare r) c s

def specAbandon : CmdSpec := { specAbandonHere with every := some abandonAll }

/-- ABANDON discards the staged configuration. -/
def execAbandon (t : Nat) (c : HostCmd) (s : State) : Host.Outcome State Fault Refusal := execCmd specAbandon t c s

end Sys2Proof.Machine
end

