-- ==== Sys2Proof/Machine/HostRegs.lean ====
section
/-! DEFINITION. The registers of BAR0 and BAR2 as a whole ("PCI Express host interface and DMA", Tables 13-3 to 13-19): what each word reads,
what a write of each word does, and the register path of SMBus (R730, R731). -/

namespace Sys2Proof.Machine

/-! ### Words of BAR0 -/

def lo32 (v : Nat) : Nat := v % 2 ^ 32
def hi32 (v : Nat) : Nat := v / 2 ^ 32 % 2 ^ 32

/-- A word of a command ring pair (Table 13-5). -/
def ringWord (p : RingPair) (r : Nat) : Nat :=
  match r with
  | 0x00 => lo32 p.cmdBase
  | 0x04 => hi32 p.cmdBase
  | 0x08 => p.cmdSize
  | 0x0C => p.cmdProd
  | 0x10 => p.cmdCons
  | 0x14 => ringStatus p
  | 0x18 => lo32 p.rplBase
  | 0x1C => hi32 p.rplBase
  | 0x20 => p.rplSize
  | 0x24 => p.rplProd
  | 0x28 => p.rplCons
  | _ => 0

/-- A word of the event block (Table 13-7), by its offset in BAR0. -/
def eventWord (e : EventBlock) (off : Nat) : Nat :=
  match off with
  | 0x2000 => lo32 e.base
  | 0x2004 => hi32 e.base
  | 0x2008 => e.size
  | 0x200C => e.prod
  | 0x2010 => e.cons
  | 0x2014 => evrStatus e
  | 0x2018 => e.lost
  | _ =>
    if inRange 0x2100 0x217F off then fieldOf e.pending (8 * (off - 0x2100)) 32
    else if inRange 0x2180 0x21FF off then fieldOf e.mask (8 * (off - 0x2180)) 32
    else if inRange 0x2400 0x27FF off then ((List.range 4).map fun i => vectorOf e (off - 0x2400 + i) * 256 ^ i).sum
    else 0

/-- A word of a DMA channel (Table 13-10); CFG and CFG_TIMER read as staged. -/
def dmaWord (s : State) (c r : Nat) : Nat :=
  let x := vget s.dma.ch c
  let g := vget s.staged.dma c
  match r with
  | 0x00 => g.cfg
  | 0x04 => g.timerNs
  | 0x08 => x.cfgIndex * 65536 + x.cfgKind * 256 + x.cfgResult
  | 0x0C => x.cfgHolder
  | 0x10 => lo32 x.shadow.base
  | 0x14 => hi32 x.shadow.base
  | 0x18 => x.shadow.count
  | 0x1C => x.shadow.mode
  | 0x20 => lo32 x.active.base
  | 0x24 => hi32 x.active.base
  | 0x28 => x.active.count
  | 0x2C => x.active.mode
  | 0x34 => dmaStatus x
  | 0x38 => x.done
  | 0x3C => x.lastTicket
  | 0x40 => lo32 x.bytes
  | 0x44 => hi32 x.bytes
  | 0x48 => x.lateWrites
  | 0x4C => x.ticksMissed
  | 0x50 => x.retries
  | 0x54 => x.descFailed
  | _ => 0

/-- A word of the MSI-X table. -/
def msixWord (p : Pcie) (off : Nat) : Nat :=
  let e := msixEntry p (off / 16)
  match off % 16 with
  | 0 => lo32 e.addr
  | 4 => hi32 e.addr
  | 8 => e.data
  | _ => flagBit e.masked 0

/-- A word of BAR0, a multiple of 4. Offsets not listed are reserved and read 0. -/
def bar0Word (s : State) (off : Nat) : Nat :=
  match off with
  | 0x000 => 0x1296
  | 0x004 => Config.siliconRev % 65536
  | 0x008 => fwVersion s
  | 0x00C => flagBit s.ring.gateway 8 + s.ring.moduleId
  | 0x010 => s.host.bar4Page
  | 0x014 => s.host.badAccess
  | 0x018 => s.host.bar4Dropped
  | _ =>
    if inRange 0x1000 0x10FF off then ringWord (vget s.host.rings ((off - 0x1000) / 0x40)) (off % 0x40)
    else if inRange 0x2000 0x27FF off then eventWord s.host.evt off
    else if inRange 0x10000 0x1FFFF off then
      u32 ((padTo 4096 (windowBytes (vget s.scribe.queues ((off - 0x10000) / 0x1000)))).drop (off % 0x1000)) 0
    else if inRange 0x20000 0x23FFF off then dmaWord s ((off - 0x20000) / 0x100) (off % 0x100)
    else if inRange 0xF0000 0xF03FF off then msixWord s.host.pcie (off - 0xF0000)
    else if inRange 0xF8000 0xF8007 off then fieldOf s.host.pcie.heldMsgs (8 * (off - 0xF8000)) 32
    else 0

/-! ### Words of BAR2 -/

/-- The fault log entry shown at HF_LOG_DATA, or 64 bytes of 0 (R732). -/
def shownEntry (s : State) : Bytes :=
  match s.faults.log.find? fun e => decide (e.num = s.hf.logIndex) with
  | some e => padTo 64 (faultBytes e)
  | none => zeros 64

/-- A word of BAR2, a multiple of 4 (Table 13-18). Write-only registers and reserved offsets read 0. -/
def bar2Word (s : State) (off : Nat) : Nat :=
  let speed := match webEnc s with | some e => toUnsigned 64 (encSpeed s e) | none => 0
  match off with
  | 0x0000 => 0x1296
  | 0x0004 => hfStatus s
  | 0x0010 => hfOpStatus s
  | 0x0014 => s.hf.bar0Wedged
  | 0x0020 => s.hf.logIndex
  | 0x0024 => s.faults.log.length
  | 0x0200 => lo32 (toUnsigned 64 s.gauge.webPos)
  | 0x0204 => hi32 (toUnsigned 64 s.gauge.webPos)
  | 0x0208 => lo32 speed
  | 0x020C => hi32 speed
  | 0x0210 => s.gauge.lastLine.getD 0
  | 0x0300 => s.sense.vauxMv
  | 0x0304 => s.sense.vmainMv
  | 0x0308 => s.pace.vfabMv
  | 0x030C => toUnsigned 16 s.sense.tj + toUnsigned 16 s.sense.tcp * 65536
  | _ =>
    if inRange 0x0040 0x007F off then u32 (shownEntry s) (off - 0x0040)
    else if inRange 0x0100 0x017F off then fieldOf s.hf.latched (8 * (off - 0x0100)) 32
    else 0

/-! ### Reads (R13, R581) -/

/-- The bytes asked for, from the aligned words that cover them. -/
def wordBytes (word : Nat → Nat) (off n : Nat) : Bytes :=
  (((List.range ((off % 4 + n + 3) / 4)).flatMap fun i => le 4 (word (off / 4 * 4 + 4 * i))).drop (off % 4)).take n

/-- An aligned 4-byte or 8-byte access. -/
def aligned (off size : Nat) : Bool := (decide (size = 4) && decide (off % 4 = 0)) || (decide (size = 8) && decide (off % 8 = 0))

/-- An aligned read covers a register. -/
def covers (off size reg : Nat) : Bool := aligned off size && inRange off (off + size - 1) reg

/-- The registers of type RC that a read covers are cleared. -/
def clearBar0 (off size : Nat) (s : State) : State :=
  let s := if covers off size 0x014 then { s with host := { s.host with badAccess := 0 } } else s
  let s := if covers off size 0x018 then { s with host := { s.host with bar4Dropped := 0 } } else s
  if covers off size 0x2018 then setEvt (fun e => { e with lost := 0 }) s else s

/-- A read of BAR0: in a queue window it may take a record (R589). -/
def bar0Read (off size : Nat) (s : State) : State :=
  if !bar0Up s then out (.readData (ones size)) (countWedged s)
  else
    let s := settleLocks s
    if inRange 0x10000 0x1FFFF off then
      let r := windowRead ((off - 0x10000) / 0x1000) (off % 0x1000) size s
      out (.readData r.1) r.2
    else clearBar0 off size (out (.readData (wordBytes (bar0Word s) off size)) s)

def bar2Read (off size : Nat) (s : State) : State :=
  let s' := out (.readData (wordBytes (bar2Word s) off size)) s
  if covers off size 0x0014 then setHf (fun h => { h with bar0Wedged := 0 }) s' else s'

/-- A read of a register of BAR0 or BAR2. -/
def regRead (bar off size : Nat) (s : State) : State :=
  match bar with
  | 0 => bar0Read (off % 2 ^ 24) size s
  | 2 => if hfReached s .bar2 then bar2Read (off % 2 ^ 16) size s else s
  | _ => s

/-! ### Writes (R581, R582) -/

def countBad (s : State) : State := { s with host := { s.host with badAccess := wrap32 (s.host.badAccess + 1) } }

/-- The low half of a 64-bit register waits for its high half (R582). -/
def lowHalf (off v : Nat) (s : State) : State := { s with host := { s.host with lowHalves := (s.host.lowHalves.filter fun p => decide (p.1 ≠ off)) ++ [(off, v)] } }

/-- The high half of the register at `off` is written: its new value, with the low half last written, or the one it has. -/
def highHalf (off old v : Nat) (s : State) : Nat × State :=
  let low := match s.host.lowHalves.find? fun p => decide (p.1 = off) with | some p => p.2 | none => lo32 old
  (v * 2 ^ 32 + low, { s with host := { s.host with lowHalves := s.host.lowHalves.filter fun p => decide (p.1 ≠ off) } })

/-- A write of a word of a command ring pair. -/
def ringWrite32 (n r off v : Nat) (s : State) : State :=
  let p := vget s.host.rings n
  match r with
  | 0x00 => lowHalf off v s
  | 0x04 =>
    let h := highHalf (off - 4) p.cmdBase v s
    ringSetWrite n true (fun p => { p with cmdBase := h.1 / 4096 * 4096 }) h.2
  | 0x08 => cmdSizeWrite n v s
  | 0x0C => cmdProdWrite n v s
  | 0x14 => setRing n (fun p => { p with ringErr := p.ringErr && !bitOf v 1, cfgErr := p.cfgErr && !bitOf v 0 }) s
  | 0x18 => lowHalf off v s
  | 0x1C =>
    let h := highHalf (off - 4) p.rplBase v s
    ringSetWrite n true (fun p => { p with rplBase := h.1 / 4096 * 4096 }) h.2
  | 0x20 => ringSetWrite n (ringSizeOk v) (fun p => { p with rplSize := v }) s
  | 0x28 => rplConsWrite n v s
  | _ => s

/-- A write of a word of the event block. -/
def eventWrite32 (off v : Nat) (s : State) : State :=
  match off with
  | 0x2000 => lowHalf off v s
  | 0x2004 =>
    let h := highHalf 0x2000 s.host.evt.base v s
    setEvt (fun e => { e with base := h.1 / 4096 * 4096 }) h.2
  | 0x2008 => evrSizeWrite v s
  | 0x2010 => setEvt (fun e => { e with cons := v }) s
  | 0x2014 => if bitOf v 0 then setEvt (fun e => { e with overflow := false }) s else s
  | 0x2020 => vecAck (v % 64) s
  | _ =>
    if inRange 0x2100 0x217F off then pendingClear ((off - 0x2100) / 4) v s
    else if inRange 0x2180 0x21FF off then maskWrite ((off - 0x2180) / 4) v s
    else if inRange 0x2400 0x27FF off then vectorWrite (off - 0x2400) 4 v s
    else s

/-- CTRL of a channel (Table 13-13): several bits act in the order RESET, ABORT, ARM, DOORBELL. -/
def dmaCtrl (c v : Nat) (s : State) : State :=
  let s := if bitOf v 3 then resetChan c 12 12 s else s
  let s := if bitOf v 2 then abortChan c 12 12 s else s
  let s := if bitOf v 1 then shadowWrite c .arm s else s
  if bitOf v 0 then dmaDoorbell c s else s

/-- A write of a word of a DMA channel. -/
def dmaWrite32 (c r off v : Nat) (s : State) : State :=
  match r with
  | 0x00 => dmaCfgWrite c false v s
  | 0x04 => dmaCfgWrite c true v s
  | 0x10 => lowHalf off v s
  | 0x14 =>
    let h := highHalf (off - 4) (vget s.dma.ch c).shadow.base v s
    shadowWrite c (shadowHeld .descBase h.1) h.2
  | 0x18 => shadowWrite c (shadowHeld .descCount v) s
  | 0x1C => shadowWrite c (shadowHeld .mode v) s
  | 0x30 => dmaCtrl c v s
  | 0x34 => setChan c (fun x => { x with late := x.late && !bitOf v 1, eoc := x.eoc && !bitOf v 0 }) s
  | _ => s

/-- A write of a word of the MSI-X table; a message whose mask is removed is sent (R594). -/
def msixWrite32 (off v : Nat) (s : State) : State :=
  let n := off / 16
  let set (f : MsixEntry → MsixEntry) : State := setPcie (fun p => { p with table := sset p.table n (f (msixEntry p n)) {} }) s
  match off % 16 with
  | 0 => set fun e => { e with addr := hi32 e.addr * 2 ^ 32 + v / 4 * 4 }
  | 4 => set fun e => { e with addr := v * 2 ^ 32 + lo32 e.addr }
  | 8 => set fun e => { e with data := v }
  | _ => sendHeld (set fun e => { e with masked := bitOf v 0 })

/-- A write of one word of BAR0; a word that is read-only or reserved takes nothing. -/
def bar0Write32 (off v : Nat) (s : State) : State :=
  if off = 0x010 then { s with host := { s.host with bar4Page := v % 256 } }
  else if inRange 0x1000 0x10FF off then ringWrite32 ((off - 0x1000) / 0x40) (off % 0x40) off v s
  else if inRange 0x2000 0x27FF off then eventWrite32 off v s
  else if inRange 0x20000 0x23FFF off then dmaWrite32 ((off - 0x20000) / 0x100) (off % 0x100) off v (settleLocks s)
  else if inRange 0xF0000 0xF03FF off then msixWrite32 (off - 0xF0000) v s
  else s

/-- A write of one word of BAR2, over a path. -/
def bar2Write32 (path : HfPath) (off v : Nat) (s : State) : State :=
  match off with
  | 0x0008 => hfKey path v s
  | 0x000C => hfOp (v % 256) (v / 256 % 256) path s
  | 0x0020 => setHf (fun h => { h with logIndex := v }) s
  | _ => s

/-- One access writes one word, or two. -/
def writeWords (write : Nat → Nat → State → State) (off size v : Nat) (s : State) : State :=
  let s := write off (lo32 v) s
  if size = 8 then write (off + 4) (hi32 v) s else s

/-- A write of a register of BAR0 or BAR2. -/
def regWrite (bar off size v : Nat) (s : State) : State :=
  match bar with
  | 0 => bar0Write (fun s => if aligned off size then writeWords bar0Write32 (off % 2 ^ 24) size v s else countBad s) s
  | 2 =>
    if !hfReached s .bar2 then s
    else if aligned off size then writeWords (bar2Write32 .bar2) (off % 2 ^ 16) size v s else countBad s
  | _ => s

/-! ### SMBus (R730, R731) -/

/-- A transaction is discarded. -/
def smbusDiscard (s : State) : State :=
  let s := { s with faults := { s.faults with cnt := { s.faults.cnt with smbusErrors := wrap32 (s.faults.cnt.smbusErrors + 1) } } }
  raiseOnce 0x3FA s.faults.cnt.smbusErrors 0 s

/-- A transaction that the target takes: VAUX is there, and its Packet Error Code, if any, matches. -/
def smbus (pecOk : Bool) (f : State → State) (s : State) : State := if !s.boot.vauxUp then s else if pecOk then f s else smbusDiscard s

def smbusWrite (off v : Nat) (s : State) : State :=
  if off % 4 ≠ 0 ∨ 65536 ≤ off then smbusDiscard s else bar2Write32 .smbus off (lo32 v) (setHf (fun h => { h with highSmb := none }) s)

def smbusOffset (off : Nat) (s : State) : State := if off % 4 ≠ 0 ∨ 65536 ≤ off then smbusDiscard s else setHf (fun h => { h with smbOffset := off }) s

/-- Low halves of the 64-bit registers of BAR2. -/
def lowHalves2 : List Nat := [0x0200, 0x0208]

/-- A read at the read offset, which then moves on by 4. A low half latches the high half for the next read of it. -/
def smbusRead (s : State) : State :=
  let off := s.hf.smbOffset
  let v := match s.hf.highSmb with
    | some (o, v) => if o = off then v else bar2Word s off
    | none => bar2Word s off
  let high := if lowHalves2.contains off then some (off + 4, bar2Word s (off + 4)) else none
  let s := out (.smbusData (le 4 v)) s
  setHf (fun h => { h with
    smbOffset := (off + 4) % 65536
    highSmb := high
    bar0Wedged := if off = 0x0014 then 0 else h.bar0Wedged }) s

/-- The Alert Response Address is read: SMBALERT# is released, and the target gives its address. -/
def smbusAlert (s : State) : State :=
  if s.boot.vauxUp ∧ s.hf.alert then out (.smbusData (le 1 (2 * (0x58 + s.hf.addr)))) (setHf (fun h => { h with alert := false }) s) else s

end Sys2Proof.Machine
end

