-- ==== Sys2Proof/Machine/Holdfast.lean ====
section
/-! DEFINITION. Register accesses without a row of their own, the Holdfast's operations, the wedge, the monitors and SMBus ("Faults, the
ticket ledger and the Holdfast"; "PCI Express host interface and DMA"). -/

namespace Sys2Proof.Machine

/-- A read of a register: one of type RC is cleared by it (R13). -/
def execRcRegisterRead (t bar off size : Nat) (s : State) : Host.Outcome State Fault Refusal := runAt t s (regRead bar off size)

/-- A write of a register of BAR0 or BAR2 (R581, R582). -/
def execRegisterWrite (t bar off size v : Nat) (s : State) : Host.Outcome State Fault Refusal := runAt t s (regWrite bar off size v)

/-- A write to HF_KEY (R618). -/
def execHfKey (t : Nat) (path : HfPath) (v : Nat) (s : State) : Host.Outcome State Fault Refusal :=
  runAt t s fun s => if hfReached s path then hfKey path v s else s

/-- 1 ms passes after a key write (R618). -/
def execHfKeyExpired (t : Nat) (path : HfPath) (s : State) : Host.Outcome State Fault Refusal :=
  runAt t s (dropKeys path)

/-- SAFE_STOP (R646, R729). -/
def execSafeStop (t : Nat) (path : HfPath) (mask : Nat) (s : State) : Host.Outcome State Fault Refusal := runAt t s (hfCommand 1 mask path)

/-- FORCE_SELF_REFRESH (R557). -/
def execForceSelfRefresh (t : Nat) (path : HfPath) (s : State) : Host.Outcome State Fault Refusal := runAt t s (hfCommand 2 0 path)

/-- RELEASE_SELF_REFRESH (R557). -/
def execReleaseSelfRefresh (t : Nat) (path : HfPath) (s : State) : Host.Outcome State Fault Refusal := runAt t s (hfCommand 3 0 path)

/-- WARM_RESET starts the warm fabric reset (R760). -/
def execWarmReset (t : Nat) (path : HfPath) (s : State) : Host.Outcome State Fault Refusal := runAt t s (hfCommand 4 0 path)

/-- FAILOVER_SIGNAL (R711). -/
def execFailoverSignal (t : Nat) (path : HfPath) (s : State) : Host.Outcome State Fault Refusal := runAt t s (hfCommand 5 0 path)

/-- RECOVERY_BOOT (R760). -/
def execRecoveryBoot (t : Nat) (path : HfPath) (s : State) : Host.Outcome State Fault Refusal := runAt t s (hfCommand 6 0 path)

/-- CLEAR_LATCHED (R729). -/
def execClearLatched (t : Nat) (path : HfPath) (s : State) : Host.Outcome State Fault Refusal := runAt t s (hfCommand 7 0 path)

/-- The Holdfast finds the fabric wedged (R726). -/
def execFabricWedge (t cause : Nat) (s : State) : Host.Outcome State Fault Refusal := runAt t s (wedge cause)

/-- A wedged fabric runs again (R726). -/
def execFabricResume (t : Nat) (s : State) : Host.Outcome State Fault Refusal := runAt t s resume

/-- A quantity leaves its fault window (R727). -/
def execMonitorFault (t : Nat) (what : Monitor) (value : Int) (s : State) : Host.Outcome State Fault Refusal := runAt t s (monitorFault what value)

/-- A monitor fault is released (R727). -/
def execMonitorFaultRelease (t : Nat) (what : Monitor) (value : Int) (s : State) : Host.Outcome State Fault Refusal :=
  runAt t s (monitorRelease what value)

/-- The junction crosses a warning limit (R727). -/
def execJunctionWarning (t : Nat) (temp : Int) (s : State) : Host.Outcome State Fault Refusal := runAt t s (junctionWarning temp)

/-- SMBus command 0x01. -/
def execSmbusWriteRegister (t off v : Nat) (pecOk : Bool) (s : State) : Host.Outcome State Fault Refusal := runAt t s (smbus pecOk (smbusWrite off v))

/-- SMBus command 0x02. -/
def execSmbusSetOffset (t off : Nat) (pecOk : Bool) (s : State) : Host.Outcome State Fault Refusal := runAt t s (smbus pecOk (smbusOffset off))

/-- SMBus command 0x03. -/
def execSmbusRead (t : Nat) (pecOk : Bool) (s : State) : Host.Outcome State Fault Refusal := runAt t s (smbus pecOk smbusRead)

/-- The Alert Response Address is read (R731). -/
def execSmbusAlertResponse (t : Nat) (s : State) : Host.Outcome State Fault Refusal := runAt t s smbusAlert

/-- SMBCLK is held low: the transaction in progress is abandoned and has had no effect (R805). -/
def execSmbusClockLowTimeout (t : Nat) (s : State) : Host.Outcome State Fault Refusal := runAt t s id

end Sys2Proof.Machine
end

