-- ==== Sys2Proof/Machine/Host.lean ====
section
/-! DEFINITION. The register accesses and events of the host interface that have a row of their own ("PCI Express host interface and
DMA"). -/

namespace Sys2Proof.Machine

/-- A write to CMDn_SIZE (R62, R586). -/
def execCmdSizeWrite (t n v : Nat) (s : State) : Host.Outcome State Fault Refusal :=
  runAt t s (bar0Write fun s => if 4 ≤ n then s else cmdSizeWrite n (wrap32 v) s)

/-- A write to CMDn_PROD (R63, R66). -/
def execCmdDoorbell (t n v : Nat) (s : State) : Host.Outcome State Fault Refusal :=
  runAt t s (bar0Write fun s => if 4 ≤ n then s else cmdProdWrite n (wrap32 v) s)

/-- A write to RPLn_CONS (R71, R586). -/
def execRplConsWrite (t n v : Nat) (s : State) : Host.Outcome State Fault Refusal :=
  runAt t s (bar0Write fun s => if 4 ≤ n then s else rplConsWrite n (wrap32 v) s)

/-- A read of a queue window in BAR0 (R589). -/
def execQueueWindowRead (t queue off size : Nat) (s : State) : Host.Outcome State Fault Refusal :=
  runAt t s fun s =>
    if !bar0Up s then out (.readData (ones size)) (countWedged s)
    else if 16 ≤ queue then s
    else
      let r := windowRead queue off size s
      out (.readData r.1) r.2

/-- A read of BAR4 (R587, R588). -/
def execBar4Read (t off size : Nat) (s : State) : Host.Outcome State Fault Refusal := runAt t s (bar4Read off size)

/-- A write to BAR4 is discarded (R588); its place and size do not matter. -/
def execBar4Write (t _off _size : Nat) (s : State) : Host.Outcome State Fault Refusal := runAt t s bar4Write

/-- A write of ones to a word of PENDING. -/
def execPendingClear (t word v : Nat) (s : State) : Host.Outcome State Fault Refusal :=
  runAt t s (bar0Write fun s => if 32 ≤ word then s else pendingClear word v s)

/-- A 4-byte write to MASK or VECTOR at its BAR0 offset (Table 13-7, R594). -/
def execMaskWrite (t off v : Nat) (s : State) : Host.Outcome State Fault Refusal :=
  runAt t s (bar0Write fun s =>
    if off % 4 ≠ 0 then { s with host := { s.host with badAccess := wrap32 (s.host.badAccess + 1) } }
    else if inRange 0x2180 0x21FF off then maskWrite ((off - 0x2180) / 4) v s
    else if inRange 0x2400 0x27FF off then vectorWrite (off - 0x2400) 4 v s
    else s)

/-- A write to VEC_ACK (R593). -/
def execVecAck (t v : Nat) (s : State) : Host.Outcome State Fault Refusal := runAt t s (bar0Write (vecAck (v % 64)))

/-- MSI-X masking is removed (R594). -/
def execMsixUnmask (t : Nat) (which : MsixMask) (s : State) : Host.Outcome State Fault Refusal := runAt t s (bar0Write (msixUnmask which))

/-- The function enters D3hot (R578, R616). -/
def execD3hotEntry (t : Nat) (s : State) : Host.Outcome State Fault Refusal := runAt t s enterD3hot

/-- A configuration request (R747). -/
def execConfigRequest (t : Nat) (op : CfgOp) (s : State) : Host.Outcome State Fault Refusal := runAt t s (configRequest op)

/-- An I/O request, AtomicOp or vendor message (Table 13-1). -/
def execUnsupportedRequest (t : Nat) (s : State) : Host.Outcome State Fault Refusal := runAt t s (out .unsupported)

/-- PERST# is asserted (R763). -/
def execPerstAssert (t : Nat) (s : State) : Host.Outcome State Fault Refusal := runAt t s perstAssert

end Sys2Proof.Machine
end

