-- ==== Sys2Proof/Machine/Ingest.lean ====
section
/-! DEFINITION. The events of "Line ingest, fields and shared pipelines" that belong to no other chapter's step. -/

namespace Sys2Proof.Machine

/-- Outstanding tags whose age exceeds LAT_MAX end as gaps (R245). -/
def execTagTimeout (t : Nat) (slot : Nat) (s : State) : Host.Outcome State Fault Refusal :=
  runFabric t [] s fun s => expireTags slot (shortTime s) s

/-- A line of a passive module has waited 2 us for a tag from JM and answers none (R699). -/
def execUnmatchedLineWait (t : Nat) (slot : Nat) (s : State) : Host.Outcome State Fault Refusal :=
  runFabric t [] s fun s =>
    match (vget s.ingest.slots slot).unmatched.head? with
    | none => s
    | some e =>
      if 2000 ≤ sdiff32 (shortTime s) e.start then
        countUntriggered slot (setSlotIngest slot (fun x => { x with unmatched := x.unmatched.drop 1 }) s)
      else s

/-- A pipeline begins the Bench write of a slot's line (R255, R256). -/
def execIngestLineWrite (t : Nat) (slot : Nat) (s : State) : Host.Outcome State Fault Refusal := runFabric t [slot / 2] s (beginWrite slot)

/-- A line's last Bench write completes (R265). -/
def execIngestWriteComplete (t : Nat) (slot : Nat) (s : State) : Host.Outcome State Fault Refusal := runFabric t [slot / 2] s (finishWrite slot)

/-- The Bench reports that a write of a slot's line has missed its deadline (R257). -/
def execIngestDeadline (t : Nat) (slot : Nat) (s : State) : Host.Outcome State Fault Refusal := runFabric t [] s (missDeadline slot)

end Sys2Proof.Machine
end

