-- ==== Sys2Proof/Machine/Lines.lean ====
section
/-! DEFINITION. The web-line pipeline: one web line through the Plane, the profile chain, the Dovetail, Marquetry and the Veneer ("How a
web line travels through the device", R48). After each line, what waits for it goes on. -/

namespace Sys2Proof.Machine

/-- The Plane begins its next web line of a slot. -/
def execPlaneLine (t slot : Nat) (s : State) : Host.Outcome State Fault Refusal :=
  runFabric t [slot / 2] s (if slot < 24 then fun s => settle (pruneOut slot (planeStep slot s)) else id)

/-- The Dovetail begins its next web line. -/
def execDovetailLine (t : Nat) (s : State) : Host.Outcome State Fault Refusal := runFabric t [12] s (settle ∘ dovetailStep)

/-- Marquetry's next web line. The queues take a new configuration with Marquetry, and their live trims with its line; in a pair a snapshot
is taken up or taken before strip j, and the passive module waits for it there (R705, R707, R708). -/
def marqNextLine (s : State) : State :=
  let s := applySnapshot s
  if pairHolds s then { s with pair := { s.pair with resyncSince := s.pair.resyncSince <|> some s.now } }
  else
    let r := marqStep s
    let r := match s.glue with
      | some g => if unitTaken r .marquetry && !unitTaken s .marquetry then queuesTake s.running g.next r else r
      | none => r
    let r := match r.marq.last with
      | some l => if s.marq.last = some l then r else queueTrims l r
      | none => r
    takeSnapshot r

/-- Marquetry begins its next web line. -/
def execMarquetryLine (t : Nat) (s : State) : Host.Outcome State Fault Refusal := runFabric t [12] s (settle ∘ marqNextLine)

/-- The profile chain takes the next line of a slot, or as slot 24 the background the next stitched line. -/
def execProfileLine (t slot : Nat) (s : State) : Host.Outcome State Fault Refusal :=
  runFabric t [] s (if slot < 24 then settle ∘ profileStep slot else if slot = 24 then settle ∘ backgroundStep else id)

/-- A web line enters the Veneer for a stream. -/
def execVeneerLine (t stream : Nat) (s : State) : Host.Outcome State Fault Refusal :=
  runFabric t [12] s (if stream < 8 then settle ∘ veneerStep stream else id)

/-- The Scribe places the items of a queue's next strip, and the source of an open relay sends what it can (R427, R429, R692). -/
def execScribePlaceStrip (t queue : Nat) (s : State) : Host.Outcome State Fault Refusal :=
  runFabric t [14, 15] s (if queue < 16 then settle ∘ relaySend queue ∘ placeStrip queue else id)

end Sys2Proof.Machine
end

