-- ==== Sys2Proof/Machine/Links.lean ====
section
/-! DEFINITION. The commands and events of "Camera links: CoaXPress, KX-25 and through-lanes". -/

namespace Sys2Proof.Machine

/-- What a command's success also does. -/
def onOk (f : State → State) (v : Verdict) : Verdict := if v.status < 0x8000 then { v with st := f v.st } else v

/-! ### Settings -/

def specLinkConfig : CmdSpec :=
  { opcode := 0x0300, need := exactly 24, unitOk := unitBelow 24, units := fun c => [(0x03, c.unit)],
    run := fun _ c s =>
      let u := c.unit
      let other := vget s.staged.link (if u % 2 = 0 then u + 1 else u - 1)
      onOk (fun s => { s with links := { s.links with linkStaged := if s.links.linkStaged.contains u then s.links.linkStaged else s.links.linkStaged ++ [u] } })
        (stageEdit 0x0300 u (badLink u c.params other) (fun cfg => { cfg with link := vset cfg.link u (parLink c.params) }) s) }

/-- LINK_CONFIG stages a slot's link settings (Table 4-9, R186). -/
def execLinkConfig (t : Nat) (c : HostCmd) (s : State) : Host.Outcome State Fault Refusal := execCmd specLinkConfig t c s

def specKx25Config : CmdSpec :=
  { opcode := 0x0305, need := exactly 4, unitOk := unitBelow 24, units := fun c => [(0x03, c.unit)],
    run := fun _ c s => stageEdit 0x0305 c.unit (badKx c.params) (fun cfg => { cfg with kx := vset cfg.kx c.unit (parKx c.params) }) s }

/-- KX25_CONFIG stages KX-25 use for a slot. -/
def execKx25Config (t : Nat) (c : HostCmd) (s : State) : Host.Outcome State Fault Refusal := execCmd specKx25Config t c s

def specThroughConfig : CmdSpec :=
  { opcode := 0x0309, need := exactly 4, unitOk := unitBelow 2,
    run := fun _ c s =>
      stageEdit 0x0309 c.unit (badThrough c.params) (fun cfg => { cfg with through := vset cfg.through c.unit (parThrough c.params) }) s }

/-- THROUGH_CONFIG stages a through connector. -/
def execThroughConfig (t : Nat) (c : HostCmd) (s : State) : Host.Outcome State Fault Refusal := execCmd specThroughConfig t c s

/-! ### LINK_DISCOVER and LINK_STATUS -/

def specLinkDiscover : CmdSpec :=
  { opcode := 0x0301, need := exactly 0, unitOk := unitBelow 24, units := fun c => [(0x03, c.unit)],
    run := fun r c s =>
      let x := vget s.links.slots c.unit
      if !(vget (linkNow s c.unit).link c.unit).enable || decide (x.state = .linkTest) then wrongState s
      else
        match x.discover with
        | some (t, _) => busy 3 t s
        | none => accepted [] (startSearch c.unit true (setSlotLink c.unit (fun x => { x with discover := some (r.ticket, s.now) }) s)) }

/-- LINK_DISCOVER starts bring-up of a slot at SEARCH. -/
def execLinkDiscover (t : Nat) (c : HostCmd) (s : State) : Host.Outcome State Fault Refusal := execCmd specLinkDiscover t c s

/-- A link block of Table 4-10. -/
def linkBlock (s : State) (slot link : Nat) : Bytes :=
  let l := vget s.links.lanes link
  le 2 l.quality ++ le 2 l.height ++ le 1 l.boost ++
  le 1 (flagBit l.warned 2 + flagBit (decide (link = masterLink slot)) 1 + flagBit l.locked 0) ++ le 1 l.connNo ++ zeros 1 ++
  le 4 l.codeErr ++ le 4 l.lockLoss ++ le 4 l.pktCrc ++ le 4 l.ctrlCrc

/-- Links of a slot's group, whatever number it uses (Table 4-1): two while the port serves two cameras. -/
def wholeGroup (cfg : Cfg) (slot : Nat) : List Nat :=
  let two := decide (slot % 2 = 1) || (vget cfg.link (slot + 1)).enable
  (List.range (if two then 2 else 4)).map (masterLink slot + ·)

/-- Table 4-10. The measured current of a switch that is on is free. -/
def slotStatus (slot : Nat) (s : State) : Bytes × State :=
  let x := vget s.links.slots slot
  let p := vget s.links.pocxp slot
  let r := if p.state = .on then freshValue s else (0, s)
  let blocks := (wholeGroup (cfgNow s) slot).flatMap (linkBlock s slot)
  (le 1 (connCode x.state) ++ le 1 (connCauseCode x.cause) ++ le 1 x.rate ++ le 1 x.links ++ le 1 (flagBit x.caps.hsUplink 0) ++
    le 1 (pocxpCode p.state) ++ le 2 (r.1 % 1501) ++ le 4 x.trigSent ++ le 4 x.trigNolink ++ le 4 x.trigAck ++ le 4 x.heartbeatMiss ++
    le 4 x.eventPkt ++ le 4 x.streamErr ++ le 4 x.ctrlRetry ++ le 4 x.tagGap ++ padTo 96 blocks, r.2)

/-- One bit per input lane of a connector. -/
def laneBits (f : Lane → Bool) (s : State) (c : Nat) : Nat :=
  ((List.range 24).map fun j => flagBit (f (vget s.links.lanes (48 + 24 * c + j))) j).sum

/-- Table 4-11. -/
def connectorStatus (c : Nat) (s : State) : Bytes :=
  let cfg := vget (cfgNow s).through c
  let x := vget s.links.through c
  le 1 cfg.outMode ++ le 1 cfg.inMode ++ le 1 (flagBit x.relaySource 0) ++ le 1 (flagBit cfg.relayAccept 1 + flagBit x.relayLocked 0) ++
  le 2 (x.relayDelay.getD 0) ++ zeros 2 ++ le 4 (laneBits (·.locked) s c) ++ le 4 (laneBits (·.warned) s c) ++ le 4 x.relayCharErr ++
  le 4 x.inLockLoss

def specLinkStatus : CmdSpec :=
  { opcode := 0x0302, need := exactly 0, unitOk := unitBelow 26,
    run := fun _ c s => if c.unit < 24 then let r := slotStatus c.unit s; ok r.1 r.2 else ok (connectorStatus (c.unit - 24) s) s }

/-- LINK_STATUS reads a slot's or a through connector's state. -/
def execLinkStatus (t : Nat) (c : HostCmd) (s : State) : Host.Outcome State Fault Refusal := execCmd specLinkStatus t c s

/-! ### CAM_READ and CAM_WRITE -/

def camAllowed (s : State) (slot : Nat) : Bool := connUp s slot || decide ((vget s.links.slots slot).state = .linkTest)

def badCamRead (p : Bytes) : Option Nat := firstBad [(4, inRange 4 1000 (u16 p 4) && decide (u16 p 4 % 4 = 0))]

def specCamRead : CmdSpec :=
  { opcode := 0x0303, need := exactly 8, unitOk := unitBelow 24, units := fun c => [(0x03, c.unit)],
    run := fun r c s =>
      checked (badCamRead c.params) s fun _ =>
        if !camAllowed s c.unit then wrongState s
        else replyLater (queueTxns c.unit [.camRead r.ticket (u32 c.params 0) (u16 c.params 4)] s) }

/-- CAM_READ reads camera registers over the control channel; its reply follows the camera's answer (R82, R213). -/
def execCamRead (t : Nat) (c : HostCmd) (s : State) : Host.Outcome State Fault Refusal := execCmd specCamRead t c s

/-- Registers that CAM_WRITE may not touch: ConnectionReset, StreamPacketSizeMax and ConnectionConfig at their CoaXPress 2.1
addresses (PRESUMED, assumption 124), KX_RATE and KX_CONFIRM (Table 4-6). -/
def guardedRegs : List Nat := [0x4000, 0x4010, 0x4014, 0x6004, 0x600C]

def badCamWrite (p : Bytes) (len : Nat) : Option Nat :=
  let addr := u32 p 0
  let n := u16 p 4
  firstBad [(0, !(guardedRegs.any fun g => decide (addr < g + 4) && decide (g < addr + n))),
    (4, inRange 4 4072 n && decide (n % 4 = 0) && decide (n + 8 = len))]

def specCamWrite : CmdSpec :=
  { opcode := 0x0304, need := fun c => (12, decide (12 ≤ c.paramLen)), unitOk := unitBelow 24, units := fun c => [(0x03, c.unit)],
    run := fun r c s =>
      checked (badCamWrite c.params c.paramLen) s fun _ =>
        if !camAllowed s c.unit then wrongState s
        else replyLater (queueTxns c.unit [.camWrite r.ticket (u32 c.params 0) (slice c.params 8 (u16 c.params 4)) 0] s) }

/-- CAM_WRITE writes camera registers over the control channel, 256 bytes at a time. -/
def execCamWrite (t : Nat) (c : HostCmd) (s : State) : Host.Outcome State Fault Refusal := execCmd specCamWrite t c s

/-! ### PoCXP (R204 to R209, R756) -/

def setPocxpState (slot : Nat) (st : PocxpState) (s : State) : State := setPocxp slot (fun p => { p with state := st }) s

/-- Detection may begin: no other detects, and 10 ms have passed since a switch was last turned on (R756). -/
def detectFree (s : State) : Bool :=
  !((List.range 24).any fun i => decide ((vget s.links.pocxp i).state = .detecting)) &&
  (match s.links.lastSwitchOn with | some t => decide (t + 10000000 ≤ s.now) | none => true)

/-- The first waiting detection begins when it may. -/
def pumpDetect (s : State) : State :=
  match s.links.detectQueue with
  | [] => s
  | i :: rest =>
    if detectFree s then setPocxpState i .detecting { s with links := { s.links with detectQueue := rest } } else s

def queueDetect (slot : Nat) (s : State) : State :=
  pumpDetect { s with links := { s.links with detectQueue := (s.links.detectQueue.filter (· ≠ slot)) ++ [slot] } }

/-- POCXP_SWITCH: mode 0 off, 1 detect and power, 2 clear FAULT then as 1. While VCAM is low the switch waits for it. -/
def switchPocxp (slot mode : Nat) (s : State) : State :=
  let p := vget s.links.pocxp slot
  if mode = 0 then
    pumpDetect (setPocxp slot (fun p => { p with state := .off, mode1 := false, firstTrip := none })
      { s with links := { s.links with detectQueue := s.links.detectQueue.filter (· ≠ slot) } })
  else if p.state = .fault ∧ mode = 1 then s
  else
    let s := setPocxp slot (fun p => { p with mode1 := true, firstTrip := if mode = 2 then none else p.firstTrip }) s
    if s.links.vcamLow then setPocxpState slot .vcamLow s
    else if p.state = .on ∨ p.state = .detecting then s
    else queueDetect slot (setPocxpState slot .off s)

def specPocxpSwitch : CmdSpec :=
  { opcode := 0x0306, need := exactly 4, unitOk := unitBelow 24, units := fun c => [(0x03, c.unit)],
    run := fun _ c s =>
      checked (firstBad [(0, inRange 0 2 (u8 c.params 0))]) s fun _ =>
        let s := switchPocxp c.unit (u8 c.params 0) s
        let p := vget s.links.pocxp c.unit
        let r := if p.state = .on then freshValue s else (0, s)
        ok (le 1 (pocxpCode p.state) ++ zeros 1 ++ le 2 (r.1 % 1501)) r.2 }

/-- POCXP_SWITCH switches a slot's PoCXP. -/
def execPocxpSwitch (t : Nat) (c : HostCmd) (s : State) : Host.Outcome State Fault Refusal := execCmd specPocxpSwitch t c s

/-- PoCXP load detection ends (R205). -/
def execPocxpDetectDone (t : Nat) (slot : Nat) (camera : Bool) (s : State) : Host.Outcome State Fault Refusal :=
  runAt t s fun s =>
    if (vget s.links.pocxp slot).state ≠ .detecting then s
    else if camera then setPocxpState slot .on { s with links := { s.links with lastSwitchOn := some s.now } }
    else pumpDetect (raise (0x0B0 + slot) 0 0 (setPocxpState slot .notPocxp s))

/-- The current exceeds 0.65 A for 2 ms, or 1.50 A: the switch turns off, and a second trip within 10 s latches FAULT (R206). -/
def execPocxpTrip (t : Nat) (slot : Nat) (currentMa : Nat) (s : State) : Host.Outcome State Fault Refusal :=
  runAt t s fun s =>
    let p := vget s.links.pocxp slot
    if p.state ≠ .on ∨ currentMa ≤ 650 then s
    else
      let second := match p.firstTrip with | some f => decide (s.now ≤ f + 10000000000) | none => false
      raise (0x0B0 + slot) 0 0 (setPocxp slot (fun p =>
        if second then { p with state := .fault, mode1 := false, trippedAt := s.now }
        else { p with state := .retryWait, firstTrip := some s.now, trippedAt := s.now }) s)

/-- One second after a trip the switch tries again (R206). -/
def execPocxpRetry (t : Nat) (slot : Nat) (s : State) : Host.Outcome State Fault Refusal :=
  runAt t s fun s =>
    let p := vget s.links.pocxp slot
    if p.state = .retryWait ∧ p.trippedAt + 1000000000 ≤ s.now then
      setPocxpState slot .on { s with links := { s.links with lastSwitchOn := some s.now } }
    else s

/-- 10 ms after the last switch-on a waiting detection begins (R756). -/
def execPocxpSpacingExpired (t : Nat) (s : State) : Host.Outcome State Fault Refusal := runAt t s pumpDetect

/-- VCAM falls below 20.0 V: every switch turns off (R207). A latched FAULT stays latched. -/
def execVcamLow (t : Nat) (s : State) : Host.Outcome State Fault Refusal :=
  runAt t s fun s =>
    if s.links.vcamLow then s
    else
      (List.range 24).foldl (fun s i =>
        if (vget s.links.pocxp i).state = .fault then s else raise (0x0B0 + i) 0 0 (setPocxpState i .vcamLow s))
        { s with links := { s.links with vcamLow := true, detectQueue := [] } }

/-- VCAM exceeds 21.0 V: each switch that was in mode 1 repeats detection, in ascending slot order (R207, R756). -/
def execVcamRestored (t : Nat) (s : State) : Host.Outcome State Fault Refusal :=
  runAt t s fun s =>
    if !s.links.vcamLow then s
    else
      (List.range 24).foldl (fun s i =>
        if (vget s.links.pocxp i).state ≠ .vcamLow then s
        else if (vget s.links.pocxp i).mode1 then queueDetect i (setPocxpState i .off s) else setPocxpState i .off s)
        { s with links := { s.links with vcamLow := false } }

/-! ### PRBS_TEST and EYE_SCAN (R218 to R228) -/

/-- A TH lane's connector. -/
def laneConn (lane : Nat) : Nat := (lane - 48) / 24

/-- The ticket of a test that runs on a lane. -/
def laneTest (s : State) (lane : Nat) : Option Nat :=
  match s.links.prbs.find? fun r => decide (r.lane = lane) with
  | some r => some r.ticket
  | none => (s.links.eye.find? fun r => decide (r.lane = lane)).map (·.ticket)

/-- A slot that a test with FORCE takes out of service (R226). -/
def lanesSlotUp (s : State) (lane : Nat) : Option Nat :=
  match slotOfLink s lane with
  | some slot => if connUp s slot then some slot else none
  | none => none

def specPrbsTest : CmdSpec :=
  { opcode := 0x0307, need := exactly 20, unitOk := unitBelow 96,
    run := fun r c s =>
      let lane := c.unit
      checked (badPrbs lane c.params) s fun _ =>
        let p := parPrbs c.params
        let start (s : State) : Verdict := accepted [] { s with links := { s.links with prbs := s.links.prbs ++ [{ lane, par := p, ticket := r.ticket }] } }
        if lane < 48 then
          match rtHolder s 0x0E lane with
          | some h => conflict h s
          | none =>
            match lanesSlotUp s lane with
            | some slot =>
              if !p.force then wrongState s
              else start (setConn slot .linkTest .none (holdRt 0x0E lane 0x0307 lane s))
            | none => start (holdRt 0x0E lane 0x0307 lane s)
        else
          let th := vget (cfgNow s).through (laneConn lane)
          if (if p.generate then decide (th.outMode ≠ 2) else decide (th.inMode ≠ 0)) then wrongState s
          else
            match laneTest s lane with
            | some w => busy 3 w s
            | none => start s }

/-- PRBS_TEST starts a PRBS test on a lane. -/
def execPrbsTest (t : Nat) (c : HostCmd) (s : State) : Host.Outcome State Fault Refusal := execCmd specPrbsTest t c s

/-- A slot in LINK_TEST goes to SEARCH when the last test on its links has ended (Table 4-4). -/
def leaveLinkTest (lane : Nat) (s : State) : State :=
  match slotOfLink s lane with
  | none => s
  | some slot =>
    if (vget s.links.slots slot).state = .linkTest ∧ !((slotLinks s slot).any fun l => (laneTest s l).isSome) then startSearch slot true s
    else s

/-- A PRBS test reaches its DURATION. -/
def execPrbsTestEnd (t : Nat) (lane bits errors unlocks injections : Nat) (locked : Bool) (s : State) : Host.Outcome State Fault Refusal :=
  runFabric t [] s fun s =>
    match s.links.prbs.find? fun r => decide (r.lane = lane) with
    | none => s
    | some r =>
      let s := dropRt 0x0E lane 0x0307 lane { s with links := { s.links with prbs := s.links.prbs.erase r } }
      let s := complete r.ticket stOk (le 8 bits ++ le 8 errors ++ le 4 unlocks ++ le 4 injections ++ le 1 (flagBit locked 0) ++ zeros 3) s
      leaveLinkTest lane s

def badEyeScan (p : Bytes) : Option Nat :=
  firstBad ([(0, inRange 0 2 (u8 p 0))] ++
    (if u8 p 0 = 1 then bulkHostOnly p 4 ++ [(12, decide (4096 ≤ u32 p 12))] else []))

def specEyeScan : CmdSpec :=
  { opcode := 0x0308, need := exactly 20, unitOk := unitBelow 96,
    run := fun r c s =>
      let lane := c.unit
      checked (badEyeScan c.params) s fun _ =>
        let force := bitOf (u8 c.params 1) 0
        let run : EyeRun := { lane, mode := u8 c.params 0, force, ref := parBulk c.params 4, ticket := r.ticket }
        let start (s : State) : Verdict := accepted [] { s with links := { s.links with eye := s.links.eye ++ [run] } }
        if lane < 48 then
          match rtHolder s 0x0E lane with
          | some h => conflict h s
          | none =>
            match lanesSlotUp s lane with
            | some slot =>
              if run.mode = 2 then if force then start (cutStream slot (holdRt 0x0E lane 0x0308 lane s)) else wrongState s
              else start (holdRt 0x0E lane 0x0308 lane s)
            | none => start (holdRt 0x0E lane 0x0308 lane s)
        else
          match laneTest s lane with
          | some w => busy 3 w s
          | none => start s }

/-- EYE_SCAN starts an eye measurement, a map or a re-adaptation on a lane. -/
def execEyeScan (t : Nat) (c : HostCmd) (s : State) : Host.Outcome State Fault Refusal := execCmd specEyeScan t c s

/-- Inner eye width in mUI and eye height in mV of runs of phase and threshold steps (R220). -/
def eyeWidth (steps : Nat) : Nat := (roundDiv ((steps * 1000 : Nat) : Int) 64).toNat
def eyeHeight (steps : Nat) : Nat := 2 * steps
def eyeFigure (e : Nat × Nat) : Nat := eyeWidth e.1 * eyeHeight e.2

/-- The boost setting with the highest figure of merit, the lower on a tie (R219). -/
def bestBoost (sweep : List (Nat × Nat)) : Nat :=
  (sweep.zipIdx.foldl (fun b p => if eyeFigure (sweep.getD b (0, 0)) < eyeFigure p.1 then p.2 else b) 0)

/-- A lane keeps the best setting of a sweep (R219). -/
def keepBest (lane : Nat) (sweep : List (Nat × Nat)) (s : State) : State :=
  let b := bestBoost sweep
  let e := sweep.getD b (0, 0)
  setLane lane (fun l => { l with boost := b, quality := eyeWidth e.1, height := eyeHeight e.2 }) s

/-- An eye scan finishes. `sweep` is the one measurement of modes 0 and 1, or the 16 of a re-adaptation; a map that the host
refuses twice ends ST_HOST_ERROR (R80). -/
def execEyeScanDone (t : Nat) (lane : Nat) (sweep : List (Nat × Nat)) (taps : Bytes) (map : Bytes) (fails : Fails) (s : State) :
    Host.Outcome State Fault Refusal :=
  runFabric t [] s fun s =>
    match s.links.eye.find? fun r => decide (r.lane = lane) with
    | none => s
    | some r =>
      let s := dropRt 0x0E lane 0x0308 lane { s with links := { s.links with eye := s.links.eye.erase r } }
      let s := if r.mode = 2 then keepBest lane sweep s else s
      let e := if r.mode = 2 then sweep.getD (bestBoost sweep) (0, 0) else sweep.getD 0 (0, 0)
      let boost := (vget s.links.lanes lane).boost
      let body := le 2 (eyeWidth e.1) ++ le 2 (eyeHeight e.2) ++ le 4 (eyeFigure e) ++ le 1 boost ++ padTo 5 taps ++ zeros 2
      let s := if r.mode = 1 ∧ fails = 1 then countTransient 1 s else s
      if r.mode = 1 ∧ 2 ≤ fails then complete r.ticket stHostError (zeros 8) s
      else complete r.ticket stOk body (if r.mode = 1 then bulkFor r.ticket r.ref (padTo 4096 map) s else s)

/-! ### Locks and timeouts -/

/-- A link gains lock (R195). Numbers from 48 are TH input lanes. -/
def execLinkLock (t : Nat) (link : Nat) (s : State) : Host.Outcome State Fault Refusal :=
  runFabric t [] s fun s =>
    let s := setLane link (fun l => { l with locked := true }) s
    if link < 48 then
      match slotOfLink s link with
      | some slot => lockGained slot link s
      | none => s
    else s

/-- A link loses lock (R195, R196). -/
def execLockLost (t : Nat) (link : Nat) (s : State) : Host.Outcome State Fault Refusal :=
  runFabric t [] s fun s =>
    if 48 ≤ link ∨ !(vget s.links.lanes link).locked then s
    else
      let s := setLane link (fun l => { l with locked := false, lockLoss := wrap32 (l.lockLoss + 1) }) s
      match slotOfLink s link with
      | none => s
      | some slot =>
        match (vget s.links.slots slot).state with
        | .active => enterError slot .lockLost s
        | .degraded => enterError slot .lockLost s
        | .stepUp => stepFail slot s
        | .adapt => stepFail slot s
        | .testConn => stepFail slot s
        | _ => s

/-- More than 64 CODE_ERR occur on one link within 1 ms (R196). -/
def execCodeErrorLimit (t : Nat) (link errors : Nat) (s : State) : Host.Outcome State Fault Refusal :=
  runFabric t [] s fun s =>
    if 48 ≤ link ∨ errors ≤ 64 then s
    else
      let s := setLane link (fun l => { l with codeErr := wrap32 (l.codeErr + errors) }) s
      match slotOfLink s link with
      | some slot => if connUp s slot then enterError slot .codeErrors s else s
      | none => s

/-- The master link does not lock within DISCOVER_TIMEOUT (R193). -/
def execDiscoverTimeout (t : Nat) (slot : Nat) (s : State) : Host.Outcome State Fault Refusal :=
  runFabric t [] s fun s =>
    let x := vget s.links.slots slot
    if x.state = .search ∧ x.since + (vget (linkNow s slot).link slot).discoverTimeout * 1000000 ≤ s.now then enterError slot .noCamera s else s

/-- A lock wait of 200 ms expires (R193, R200). -/
def execBringupStepTimeout (t : Nat) (slot : Nat) (s : State) : Host.Outcome State Fault Refusal :=
  runFabric t [] s fun s =>
    let x := vget s.links.slots slot
    if x.since + 200000000 ≤ s.now then
      match x.state with
      | .stepUp => stepFail slot s
      | .kxSwitch => kxFail slot s
      | _ => s
    else s

/-- A camera's control acknowledgement arrives (R213, R214). -/
def execControlAnswer (t : Nat) (slot : Nat) (ans : CtrlAnswer) (s : State) : Host.Outcome State Fault Refusal :=
  runFabric t [] s (takeAnswer slot ans)

/-- A control transaction gets no answer within its timeout (R214). -/
def execControlTimeout (t : Nat) (slot : Nat) (s : State) : Host.Outcome State Fault Refusal :=
  runFabric t [] s fun s =>
    let x := vget s.links.slots slot
    if x.ctrl ≠ [] ∧ x.ctrlDeadline ≤ s.now then retryTxn slot s else s

/-- The equaliser sweep of ADAPT ends: each link keeps its best boost (R219). -/
def execAdaptSweepDone (t : Nat) (slot : Nat) (sweeps : List (List (Nat × Nat))) (s : State) : Host.Outcome State Fault Refusal :=
  runFabric t [] s fun s =>
    if (vget s.links.slots slot).state ≠ .adapt then s
    else setConn slot .testConn .none (((usedLinks s slot).zip sweeps).foldl (fun s p => keepBest p.1 p.2 s) s)

/-- The connection test ends (R193, R194). -/
def execTestConnDone (t : Nat) (slot : Nat) (clean : Bool) (s : State) : Host.Outcome State Fault Refusal :=
  runFabric t [] s fun s =>
    if (vget s.links.slots slot).state ≠ .testConn then s else if clean then comeUp slot s else stepFail slot s

/-- RETRY_DELAY elapses in ERROR with AUTO_RECOVER (R197). -/
def execRetryDelayExpired (t : Nat) (slot : Nat) (s : State) : Host.Outcome State Fault Refusal :=
  runFabric t [] s fun s =>
    let x := vget s.links.slots slot
    let c := vget (linkNow s slot).link slot
    if x.state = .error ∧ c.autoRecover = true ∧ x.since + c.retryDelay * 1000000 ≤ s.now then startSearch slot true s else s

/-- No heartbeat arrives for HEARTBEAT_TIMEOUT (R196). -/
def execHeartbeatTimeout (t : Nat) (slot : Nat) (s : State) : Host.Outcome State Fault Refusal :=
  runFabric t [] s fun s =>
    let x := vget s.links.slots slot
    let ms := (vget (linkNow s slot).link slot).heartbeatTimeout
    if connUp s slot ∧ ms ≠ 0 ∧ x.lastBeat + ms * 1000000 ≤ s.now then
      enterError slot .heartbeat (setSlotLink slot (fun x => { x with heartbeatMiss := wrap32 (x.heartbeatMiss + 1) }) s)
    else s

/-- A camera heartbeat is received (R196). -/
def execCameraHeartbeat (t : Nat) (slot : Nat) (s : State) : Host.Outcome State Fault Refusal :=
  runFabric t [] s fun s => setSlotLink slot (fun x => { x with lastBeat := s.now }) s

/-! ### Packets from cameras -/

/-- A stream packet is received and reassembled in tag order (R210). -/
def execStreamPacket (t : Nat) (slot : Nat) (pkt : StreamPkt) (s : State) : Host.Outcome State Fault Refusal := runFabric t [] s (streamPacket slot pkt)

/-- A camera event packet is counted, and recorded in EVENT_QUEUE when there is one, for the strip of the line
before it, or for that of the next line (R215, R238, R428). -/
def execCameraEventPacket (t : Nat) (slot eventId ns time : Nat) (data : Bytes) (s : State) : Host.Outcome State Fault Refusal :=
  runFabric t [] s fun s =>
    if 24 ≤ slot then s
    else
      let s := raise (0x098 + slot) 0 0 (setSlotLink slot (fun x => { x with eventPkt := wrap32 (x.eventPkt + 1) }) s)
      match (vget (linkNow s slot).link slot).eventQueue with
      | none => s
      | some q =>
        let item (strip lastLine : Nat) : ScribeItem :=
          { kind := .camEvent, queue := q, strip, lastLine, slot, body := camEventBody strip slot eventId ns time data }
        match vget s.scribe.slotLine slot with
        | some line => { s with scribe := { s.scribe with inbox := s.scribe.inbox ++ [item (stripAt s line) (stripEnd s line)] } }
        | none => { s with scribe := { s.scribe with camHeld := s.scribe.camHeld ++ [item 0 0] } }

/-- A trigger acknowledgement is counted (R217). -/
def execTriggerAck (t : Nat) (slot : Nat) (s : State) : Host.Outcome State Fault Refusal :=
  runFabric t [] s fun s => setSlotLink slot (fun x => { x with trigAck := wrap32 (x.trigAck + 1) }) s

/-! ### Lane quality and the through connectors -/

/-- QUAL_WARN of a lane: of the slot of its link; a TH input lane takes that of the link whose partner lane it carries (R229). -/
def laneQualWarn (s : State) (lane : Nat) : Nat :=
  match slotOfLink s (if lane < 48 then lane else lane - 48) with
  | some slot => (vget (linkNow s slot).link slot).qualWarn
  | none => 0

/-- A lane's quality figure is updated (R221, R222), with the invalid characters counted since the last update (R195, R202). -/
def execLaneQualityUpdate (t : Nat) (lane steps codeErrors : Nat) (s : State) : Host.Outcome State Fault Refusal :=
  runAt t s fun s =>
    if 96 ≤ lane then s
    else
      let q := eyeWidth steps
      let warn := laneQualWarn s lane
      let l := vget s.links.lanes lane
      let s := setLane lane (fun l => { l with quality := q, codeErr := wrap32 (l.codeErr + codeErrors) }) s
      if q < warn then
        if l.warned then s
        else raise (if lane < 48 then 0x0C8 + lane else 0x0F8 + laneConn lane) 0 0 (setLane lane (fun l => { l with warned := true }) s)
      else if warn + 50 < q then setLane lane (fun l => { l with warned := false }) s
      else s

/-- The relay input first locks and RELAY_DELAY is measured (R236). -/
def execRelayLock (t : Nat) (conn delay : Nat) (s : State) : Host.Outcome State Fault Refusal :=
  runAt t s fun s => setThrough conn (fun x => { x with relayLocked := true, relayDelay := some (x.relayDelay.getD delay) }) s

/-- A TH input lane loses lock (R238). -/
def execThInputLockLoss (t : Nat) (conn lane : Nat) (s : State) : Host.Outcome State Fault Refusal :=
  runAt t s fun s =>
    let l := 48 + 24 * conn + lane
    if conn < 2 ∧ lane < 24 ∧ (vget s.links.lanes l).locked then
      raise (0x0F8 + conn) 0 0 (setThrough conn (fun x => { x with inLockLoss := wrap32 (x.inLockLoss + 1) })
        (setLane l (fun l => { l with locked := false, lockLoss := wrap32 (l.lockLoss + 1) }) s))
    else s

/-- A relay frame arrives (R233, R235, R236): `frame` holds one entry a lane, none where the character is invalid and 0x13C for
K28.1. With the uplink source RELAY each due character goes out on its link. -/
def execRelayCharacterRx (t : Nat) (conn : Nat) (frame : List (Option Nat)) (s : State) : Host.Outcome State Fault Refusal :=
  runAt t s fun s =>
    if 2 ≤ conn then s
    else
      let x := vget s.links.through conn
      (frame.take 24).zipIdx.foldl (fun s p => match p.1 with
        | none => setThrough conn (fun x => { x with relayCharErr := wrap32 (x.relayCharErr + 1) }) s
        | some ch => if x.relaySource && decide (ch ≠ 0x13C) then out (.relayChar (24 * conn + p.2) ch (x.relayDelay.getD 0)) s else s) s

end Sys2Proof.Machine
end

