-- ==== Sys2Proof/Machine/Marquetry.lean ====
section
/-! DEFINITION. The commands of "Defect segmentation and classification", and its edge messages. -/

namespace Sys2Proof.Machine

def marqUnits (_ : HostCmd) : List (Nat × Nat) := [(0x06, 0)]

/-- A staged write to the segmentation settings (R53, R100, R379); REGION_CONFIG's claims are checked before the edit (R105). -/
def segEdit (opcode : Nat) (bad : HostCmd → Option Nat) (r : CmdRec) (c : HostCmd) (s : State) : Verdict :=
  checked (bad c) s fun _ =>
    let w : SegWrite := { opcode, unit := c.unit, params := c.params, ticket := r.ticket }
    let v := bankEdit s .marquetry s.marq.captured.isSome
      (fun s => { s with marq := { s.marq with shadow := segApply w s.marq.shadow } })
      (fun s => { s with marq := { s.marq with held := s.marq.held ++ [w] } })
    if 0x8000 ≤ v.status ∨ opcode ≠ 0x0601 then v
    else
      match conflictOf (claimsOf s.staged (some (parRegion c.params))) (runningClaims s) s.claims 0x0601 0 with
      | some h => conflict h s
      | none => v

def specClassConfig : CmdSpec :=
  { opcode := 0x0600, need := exactly 16, unitOk := unitBelow 16, units := marqUnits, run := segEdit 0x0600 fun c => badClass c.params }

/-- CLASS_CONFIG stages one class. -/
def execClassConfig (t : Nat) (c : HostCmd) (s : State) : Host.Outcome State Fault Refusal := execCmd specClassConfig t c s

def specRegionConfig : CmdSpec :=
  { opcode := 0x0601, need := exactly 32, unitOk := unitIs 0, units := marqUnits, run := segEdit 0x0601 fun c => badRegion c.params }

/-- REGION_CONFIG stages the glue gaps, the cut length, the background lag, the defaults and the alarm output. -/
def execRegionConfig (t : Nat) (c : HostCmd) (s : State) : Host.Outcome State Fault Refusal := execCmd specRegionConfig t c s

def specRuleConfig : CmdSpec :=
  { opcode := 0x0602, need := exactly 72, unitOk := unitBelow 64, units := marqUnits, run := segEdit 0x0602 fun c => badRule c.params }

/-- RULE_CONFIG stages one classification rule. -/
def execRuleConfig (t : Nat) (c : HostCmd) (s : State) : Host.Outcome State Fault Refusal := execCmd specRuleConfig t c s

/-- Table 8-16. -/
def segStatusBytes (m : Marquetry) : Bytes :=
  let pending := (m.regions.filter (·.pending)).length
  le 4 (m.regions.length - pending) ++ le 4 pending ++ le 4 m.highWater ++ le 4 (m.last.getD 0) ++ le 4 m.lastStrip ++ le 4 m.handed ++
  le 4 m.ovfStrip ++ le 4 m.ovfSamples ++ le 4 ((lowestFree m).getD 0xFFFFFFFF) ++ zeros 4

def specSegStatus : CmdSpec :=
  { opcode := 0x0603, need := exactly 0, unitOk := unitIs 0, run := fun _ _ s => ok (segStatusBytes s.marq) s }

/-- SEG_STATUS reads the state of the region table. -/
def execSegStatus (t : Nat) (c : HostCmd) (s : State) : Host.Outcome State Fault Refusal := execCmd specSegStatus t c s

/-- The west neighbour's edge message for a line arrives (R414). -/
def execEdgeMessageReceived (t : Nat) (msg : EdgeMsg) (s : State) : Host.Outcome State Fault Refusal := runFabric t [] s (edgeReceived msg)

/-- An edge message is not received within IMPORT_WAIT (R419). -/
def execEdgeMessageTimeout (t : Nat) (s : State) : Host.Outcome State Fault Refusal := runFabric t [] s edgeTimeout

end Sys2Proof.Machine
end

