-- ==== Sys2Proof/Machine/Profiles.lean ====
section
/-! DEFINITION. The commands of "Profiles, threshold events and live views", and the events of the profile memory and of the
frames. -/

namespace Sys2Proof.Machine

def specZoneConfig : CmdSpec :=
  { opcode := 0x0800, need := exactly 136, unitOk := unitBelow 24,
    run := fun _ c s => stageEdit 0x0800 c.unit (badZones c.params) (fun cfg => { cfg with zone := vset cfg.zone c.unit (parZones c.params) }) s }

/-- ZONE_CONFIG stages a slot's zone layout (R463). -/
def execZoneConfig (t : Nat) (c : HostCmd) (s : State) : Host.Outcome State Fault Refusal := execCmd specZoneConfig t c s

def specGritConfig : CmdSpec :=
  { opcode := 0x0801, need := exactly 8, unitOk := unitBelow 25,
    run := fun _ c s =>
      let p := c.params
      if c.unit = 24 then stageEdit 0x0801 24 (badBg p) (fun cfg => { cfg with bg := parBg p }) s
      else stageEdit 0x0801 c.unit (badGrit p) (fun cfg => { cfg with grit := vset cfg.grit c.unit (parGrit p) }) s }

/-- GRIT_CONFIG stages the filtering of a slot's zones, or with unit 24 of the background. -/
def execGritConfig (t : Nat) (c : HostCmd) (s : State) : Host.Outcome State Fault Refusal := execCmd specGritConfig t c s

/-- Place of a watch setting among those of its slot. -/
def watchKey (slot field zone : Nat) : Nat := slot * 256 + field * 64 + zone

def setWatches (slot : Nat) (p : Bytes) (cfg : Cfg) : Cfg :=
  { cfg with watch := (List.range (u8 p 2)).foldl (fun w i => sset w (watchKey slot (u8 p 0) (u8 p 1 + i)) (parWatch p) {}) cfg.watch }

def specThresholdConfig : CmdSpec :=
  { opcode := 0x0802, need := exactly 32, unitOk := unitBelow 24,
    run := fun _ c s => stageEdit 0x0802 c.unit (badWatch c.params) (setWatches c.unit c.params) s }

/-- THRESHOLD_CONFIG stages one watch setting for a run of zones of one field (Table 10-6). -/
def execThresholdConfig (t : Nat) (c : HostCmd) (s : State) : Host.Outcome State Fault Refusal := execCmd specThresholdConfig t c s

def viewUnits (c : HostCmd) : List (Nat × Nat) := [(0x08, c.unit)]

def specViewConfig : CmdSpec :=
  { opcode := 0x0803, need := exactly 1088, unitOk := unitBelow 8, units := viewUnits,
    run := fun _ c s => stageEdit 0x0803 c.unit (badView c.params) (fun cfg => { cfg with view := vset cfg.view c.unit (parView c.params) }) s }

/-- VIEW_CONFIG stages a view stream (Table 10-7). -/
def execViewConfig (t : Nat) (c : HostCmd) (s : State) : Host.Outcome State Fault Refusal := execCmd specViewConfig t c s

def specViewCrop : CmdSpec :=
  { opcode := 0x0804, need := exactly 4, unitOk := unitBelow 8, units := viewUnits,
    run := fun _ c s =>
      let v := c.unit
      let cfg := unitCfg s (.veneer v)
      let x := vget cfg.view v
      let crop := u32 c.params 0
      match cfg.grid with
      | none => wrongState s
      | some g =>
        if !x.enable then wrongState s
        else if g.columns < crop + x.cropCols then badParam 0 s
        else
          let line := trimLine s ((viewNext s v).getD (s.gauge.startLine.getD 0))
          ok (le 4 line) (if trimWaits s then addTrim (.viewCrop v crop line) s else setView v (fun y => { y with crop }) s) }

/-- VIEW_CROP moves a stream's crop from the next web line that the Veneer begins (R17, R485). -/
def execViewCrop (t : Nat) (c : HostCmd) (s : State) : Host.Outcome State Fault Refusal := execCmd specViewCrop t c s

/-- One entry of PROFILE_READ's reply for a slot. -/
def zoneEntry (z : ZoneState) : Bytes :=
  le 4 (z.grit.out.getD 0) ++ le 1 (match z.watch with | .normal => 0 | .high => 1 | .low => 2) ++ le 1 (min z.count 255) ++ zeros 2

/-- PROFILE_READ for a slot. -/
def readSlotProfile (c : HostCmd) (s : State) : Verdict :=
  let slot := c.unit
  let field := u8 c.params 0
  checked (firstBad [(0, inRange 0 3 field)]) s fun _ =>
    let cfg := unitCfg s (.profile slot)
    let p := vget s.prof.slots slot
    if !bitOf (vget cfg.grit slot).fields field then wrongState s
    else
      let entries := (List.range 64).flatMap fun z =>
        zoneEntry ((p.zones.find? fun x => decide (x.key = shimKey field z)).getD {})
      ok (le 4 p.blockEnd ++ le 1 (vget cfg.zone slot).zones ++ le 1 (vget cfg.grit slot).grit ++ zeros 2 ++ entries) s

/-- PROFILE_READ for the background. -/
def readBackground (c : HostCmd) (s : State) : Verdict :=
  let field := u8 c.params 0
  checked (firstBad ((0, inRange 0 3 field) :: bulkHostOnly c.params 4)) s fun _ =>
    if !bitOf (unitCfg s .background).bg.fields field then wrongState s
    else
      match (vget s.prof.bg field).rows.getLast? with
      | none => wrongState s
      | some r =>
        let ref := parBulk c.params 4
        let vals := r.entries.take (ref.length / 4)
        withBulk c.bulkFails ref s fun s =>
          ok (le 4 r.line ++ le 4 vals.length) (bulkOut ref (vals.flatMap fun v => le 4 (v.getD 0xFFFFFFFF)) s)

def specProfileRead : CmdSpec :=
  { opcode := 0x0805, need := fun c => exactly (if c.unit = 24 then 20 else 4) c, unitOk := unitBelow 25,
    run := fun _ c s => if c.unit = 24 then readBackground c s else readSlotProfile c s }

/-- PROFILE_READ reads a slot's latest zone outputs, or the latest background row. -/
def execProfileRead (t : Nat) (c : HostCmd) (s : State) : Host.Outcome State Fault Refusal := execCmd specProfileRead t c s

/-- A completed background row is stored in the profile memory (R478). -/
def execBackgroundRowStore (t field : Nat) (s : State) : Host.Outcome State Fault Refusal :=
  runFabric t [] s (if field < 4 then storeRow field else id)

/-- The Veneer forms a frame (R484 to R490). -/
def execViewFrameForm (t stream : Nat) (s : State) : Host.Outcome State Fault Refusal :=
  runFabric t [12] s (if stream < 8 then formFrame stream else id)

/-- A frame's last byte is handed to the Ethernet MAC (R489). -/
def execViewFrameSent (t stream : Nat) (s : State) : Host.Outcome State Fault Refusal :=
  runFabric t [] s (if stream < 8 then sendFrame stream else id)

end Sys2Proof.Machine
end

