-- ==== Sys2Proof/Machine/ResetUnit.lean ====
section
/-! DEFINITION. RESET_UNIT (R764, Table 18-8). Each reset answers the number of tickets it ended. -/

namespace Sys2Proof.Machine

/-- The connection of a slot goes to SEARCH. -/
def resetConn (i : Nat) (s : State) : Nat × State :=
  let e := endItems 0x03 i 15 stAborted s
  (e.1, startSearch i true e.2)

/-- The Plane of a slot: a Jig command ends with reason RESET, and the zone shims return to 16,384. -/
def resetPlane (i : Nat) (s : State) : Nat × State :=
  let e := endItems 0x04 i 15 stAborted s
  (e.1, setSlotPlane i (fun x => { x with shims := [], updates := [], hostWrites := [], ends := [] }) e.2)

/-- The Dovetail: the sums over its present strip and what it holds of its neighbour's columns are dropped (DESIGN CHOICE, assumption 75). -/
def resetDovetail (s : State) : State :=
  { s with dovetail := { s.dovetail with imports := [], importMissing := [], acc := .replicate 25 {} } }

/-- Marquetry: OPEN and PENDING regions are discarded without records, and the run window empties. -/
def resetMarq (s : State) : State :=
  let m := s.marq.regions.foldl (fun m r => freeRegion m r.id) s.marq
  { s with marq := { m with window := [], spans := [], lineFlags := [], overflow := none } }

/-- A compressor or decompressor. -/
def resetEngine (i : Nat) (s : State) : Nat × State :=
  let stream := if i < 16 then (ceAt s i).job.bind fun j => match j.source with | .archive k => some k | .patch _ _ => none else none
  let e := endItems 0x0A i 15 stAborted s
  (e.1, match stream with | some k => finishStrip k false false e.2 | none => e.2)

/-- A ring port goes to DOWN. -/
def resetPort (p : Nat) (s : State) : State := portFalls p .down .reset s

/-- A DMA channel: RESET in its CTRL (R612). -/
def resetDmaUnit (c : Nat) (s : State) : Nat × State :=
  let live := match (vget s.dma.ch c).run with | some r => 1 + r.frame.toList.length | none => 0
  (live, resetChan c 15 15 s)

/-- INDEX runs below this number for a UNIT of Table 18-8; 0 for a unit it does not list. -/
def resetUnits (unit : Nat) : Nat :=
  match unit with
  | 0x03 => 24
  | 0x04 => 24
  | 0x05 => 1
  | 0x06 => 1
  | 0x07 => 16
  | 0x08 => 8
  | 0x09 => 2
  | 0x0A => 20
  | 0x0F => 3
  | 0x11 => 64
  | _ => 0

/-- The last column of Table 18-8. -/
def resetForbidden (s : State) (unit i : Nat) : Bool :=
  match unit with
  | 0x03 => !(vget (linkNow s i).link i).enable
  | 0x05 => s.gauge.trigEnabled
  | 0x06 => s.gauge.trigEnabled
  | 0x07 => !(vget s.scribe.queues i).on
  | 0x08 => !(vget (cfgNow s).view i).enable
  | 0x09 => decide ((vget s.bench.ctl i).state ≠ .frozen)
  | _ => false

/-- The effect of Table 18-8; the fence is cleared. -/
def resetEffect (unit i : Nat) (s : State) : Nat × State :=
  let r := match unit with
    | 0x03 => resetConn i s
    | 0x04 => resetPlane i s
    | 0x05 => (0, resetDovetail s)
    | 0x06 => (0, resetMarq s)
    | 0x07 => (0, setQueue i (fun x => { x with head := min 32 (unread x) }) s)
    | 0x08 =>
      let e := dropFrames i 15 s
      (e.1, setView i (fun x => { x with restart := true }) e.2)
    | 0x09 => (0, thawCtl i s)
    | 0x0A => resetEngine i s
    | 0x0F => (0, resetPort i s)
    | 0x11 => resetDmaUnit i s
    | _ => (0, s)
  (r.1, clearFence unit i r.2)

def specResetUnit : CmdSpec where
  opcode := 0x0104
  need := exactly 4
  unitOk := anyUnit
  run := fun _ c s =>
    let unit := u8 c.params 0
    let i := u16 c.params 2
    if resetUnits unit = 0 then badParam 0 s
    else if resetUnits unit ≤ i then badParam 2 s
    else if resetForbidden s unit i then wrongState s
    else
      let r := resetEffect unit i s
      ok (le 4 r.1) r.2
  after := settle

/-- RESET_UNIT resets one unit, clears its fence and ends its open tickets FAILED(RESET). -/
def execResetUnit (t : Nat) (c : HostCmd) (s : State) : Host.Outcome State Fault Refusal := execCmd specResetUnit t c s

end Sys2Proof.Machine
end

