-- ==== Sys2Proof/Machine/BootOps.lean ====
section
/-! DEFINITION. Start-up and the resets of the whole module ("Power-up, boot and reset"): what each reset keeps (Table 18-3), the steps of
Tables 18-1 and 18-4, and the restoring of the configuration (R761, R762). -/

namespace Sys2Proof.Machine

/-! ### What a reset leaves (Table 18-3) -/

/-- BAR0 and BAR4_PAGE return to their reset values; replies not yet written stay for the ring pair's next enabling (R62). -/
def freshBar0 (h : HostIf) : HostIf :=
  { rings := h.rings.map fun p => { posts := p.posts }, pcie := { h.pcie with table := [], heldMsgs := 0 } }

/-- The last web line triggered since power-on or the last main power restart. -/
def lastTriggered (s : State) : Option Nat := (s.spans.head?).map (·.2)

/-- The fabric at its power-on value: what is in the Holdfast domain, the Bench's contents and replies not yet written stay. -/
def freshFabric (s : State) : State :=
  let port : LinkPort := { since := s.now }
  { s with
    staged := {}
    running := {}
    prev := none
    glue := none
    stageGen := 0
    dryfit := none
    dryfitRun := none
    glueCount := 0
    cmds := []
    claims := []
    evOnce := []
    links := { pocxp := s.links.pocxp, through := s.links.through, vcamLow := s.links.vcamLow, lastSwitchOn := s.links.lastSwitchOn }
    ingest := {}
    plane := {}
    dovetail := {}
    marq := {}
    scribe := {}
    prof := {}
    views := .replicate 8 {}
    comp := {}
    bench := {
      mem := s.bench.mem
      emptied := s.bench.emptied
      writes := s.bench.writes
      ctl := s.bench.ctl.map fun c => { state := c.state, temp := c.temp, hot := c.hot, capture := c.capture } }
    host := freshBar0 s.host
    dma := {}
    time := { clock := s.time.clock }
    ring := { ports := .replicate 3 port, moduleId := s.ring.moduleId, enumerated := s.ring.enumerated, gateway := s.ring.gateway }
    pair := {}
    faults := { s.faults with injections := [], selftest := none, fences := s.faults.fences.filter fun f => decide (f.unit = 0x09) }
    pace := { scale := s.pace.scale, clamped := s.pace.clamped, vfabMv := s.pace.vfabMv } }

/-- The Bench's contents are gone. -/
def wipeBench (s : State) : State := benchEmpty 0 benchSize { s with bench := { s.bench with epochs := [] } }

/-- The Gauge and its compare lists return to their power-on configuration: unfired entries count as missed, and the last triggered line
is kept where `keep` says so (R755, R759). -/
def freshGauge (keep : Bool) (s : State) : State :=
  let g := s.gauge
  let unfired := (g.cmp.toList.map fun u => u.active.length + u.shadow.length + u.inserting.length).sum
  let enc (x : Encoder) : Encoder := { levelA := x.levelA, levelB := x.levelB }
  let fresh : Gauge := { enc := g.enc.map enc, trigHalted := true, missed := wrap32 (g.missed + unfired) }
  let g' := if keep then { fresh with lastLine := g.lastLine, lastStrip := g.lastStrip, lastShift := g.lastShift } else fresh
  { s with gauge := g', spans := if keep then s.spans else [] }

/-- Every axis returns to its power-on configuration and is DISABLED, its position and HOMED kept (R759). -/
def freshAxes (s : State) : State :=
  let one (x : Axis) : Axis :=
    { homed := x.homed, xq := intPart x.xq * q32, inputs := x.inputs, vioLow := x.vioLow, temp := x.temp, tempWarn := x.tempWarn }
  { s with axes := { s.axes with ax := s.axes.ax.map one } }

/-- What remains of the device when the fabric starts from power-on values: a main power restart, a recovery boot, or a warm reset with
nothing to restore (R759, R762). -/
def fromPowerOn (keepLine : Bool) (s : State) : State := freshAxes (freshGauge keepLine (wipeBench (freshFabric s)))

/-! ### The restored configuration (R761) -/

/-- A queue after a warm reset: RD becomes REL, MARK_VALID clears, and its records keep their tickets. -/
def restoreQueue (now : Nat) (x : Queue) : Queue :=
  { x with
    rd := x.rel
    markValid := false
    head := 0
    threshold := 0
    idleTimeout := 0
    thresholdDone := false
    idleDone := false
    idleSince := now
    latched := []
    latchedEmpty := true }

/-- A sub-ring of the archive: the strip being compressed is given up. -/
def restoreSub (r : SubRing) : SubRing := { r with cur := none }

/-- Views restart; what a reset ended is counted, and the next frame carries SKIP_BEFORE (R724). -/
def restoreView (last : Option Nat) (x : ViewStream) : ViewStream := { restart := true, skipBefore := x.skipBefore, last := last, cnt := x.cnt }

/-- The state of the fabric once the configuration, the table banks and the queues are restored from a copy. -/
def restoredFabric (s : State) : State :=
  let f := freshFabric s
  let last := lastTriggered s
  let plane (x : SlotPlane) : SlotPlane := { active := x.active, shadow := x.shadow }
  let map (x : MapBank) : MapBank := { active := x.active, shadow := x.shadow }
  { f with
    staged := s.staged
    running := s.running
    prev := s.prev
    stageGen := s.stageGen
    links := { f.links with linkStaged := s.links.linkStaged }
    ingest := { f.ingest with layout := s.ingest.layout }
    plane := { f.plane with slots := s.plane.slots.map plane }
    dovetail := { f.dovetail with
      maps := s.dovetail.maps.map map
      layout := s.dovetail.layout
      layoutFrom := some (match last with | some l => wrap32 (l + 1) | none => 0)
      last := last }
    marq := { f.marq with active := s.marq.active, shadow := s.marq.shadow, last := last, lastStrip := s.gauge.lastStrip }
    scribe := { f.scribe with queues := s.scribe.queues.map (restoreQueue s.now) }
    views := s.views.map (restoreView last)
    comp := { f.comp with
      rings := s.comp.rings.map restoreSub
      layout := s.comp.layout
      archiveStrip := s.comp.archiveStrip
      archiveLine := last }
    bench := { f.bench with epochs := s.bench.epochs }
    dma := { f.dma with ch := s.dma.ch.map fun x => { descFailed := x.descFailed } }
    gauge := { s.gauge with enableWait := none }
    pace := { f.pace with required := requiredPace s.running, target := targetPace s.running } }

/-- The line rings and the strip ring are discarded (R761). -/
def emptyRings (s : State) : State :=
  ((List.range 13).filter fun k => (vget s.running.part k).enable).foldl (fun s k =>
    let p := vget s.running.part k
    benchEmpty (p.baseMib * mib) (partSize s.running k) s) s

/-- Units that act when they come into force: connections, channels, clocks and ports under the restored configuration. -/
def startUnits (s : State) : State :=
  let cfg := s.running
  let clock := s.time.clock
  let s := (List.range 24).foldl (fun s i => applySlotLink {} cfg i s) s
  let s := dmaTake {} cfg s
  let s := timeTake {} cfg s
  openRelays { s with time := { s.time with clock := clock } }

/-- The configuration is restored from a copy: a frozen stack is discarded (R567), the other partitions keep their contents. -/
def restoreConfig (s : State) : State :=
  let frozen := [0, 1].filter fun c => decide ((vget s.bench.ctl c).state = .frozen)
  let s := emptyRings (restoredFabric s)
  frozen.foldl (fun s c => thawCtl c s) s

/-! ### The Bench's training (R538 to R540) -/

/-- A delay set that fails its check twice, or a pseudo-channel that fails the test twice, fences the Bench. -/
def trainingFails (r : TrainResult) : Bool := decide (2 ≤ r.crcFails) || !r.failedTwice.isEmpty

def benchFenced (s : State) : Bool := decide ((vget s.bench.ctl 0).state = .fenced) || decide ((vget s.bench.ctl 1).state = .fenced)

/-- The Bench is fenced; one BOOT entry names the pseudo-channel and the lanes (Tables 17-1, 17-8). -/
def fenceBench (c : Nat) (r : TrainResult) (s : State) : State :=
  let detail := zeros 8 ++ le 1 (r.failedTwice.headD 0) ++ zeros 3 ++ le 4 r.lanes
  let l := logFault { cls := 8, unit := 0x09, index := c, cause := 4, detail } s
  let s := { l.2 with
    faults := { l.2.faults with
      fences := l.2.faults.fences ++ [⟨0x09, 0, l.1⟩, ⟨0x09, 1, l.1⟩]
      cnt := { l.2.faults.cnt with fences := wrap32 (l.2.faults.cnt.fences + 1) } }
    bench := { l.2.bench with ctl := l.2.bench.ctl.map fun x => { x with state := .fenced } } }
  raise 0x34C 0 0 (raise 0x003 l.1 (9 * 65536 + c) s)

/-- One stack is trained; a frozen one is left alone (Table 18-4). -/
def trainStack (c : Nat) (r : TrainResult) (s : State) : State :=
  let st := (vget s.bench.ctl c).state
  if decide (st = .frozen) || benchFenced s then s
  else if trainingFails r then fenceBench c r s
  else setCtl c (fun x => { x with state := .ready }) s

/-! ### Verification of images (R734, R746) -/

/-- The result of verifying an image: 0 it may run, 1 signature, key or digest, 2 security version. What the flash holds is in State; the
verification itself finds whether the signature and the digest hold. -/
def verifyFault (b : Boot) (n : Nat) (found : ImageInfo) : Nat :=
  let i := imageOf b n
  if !i.valid || !found.signed || !found.digest then 1 else imageFault b i

/-- Verification of an image begins, of the preferred one first (R734). -/
def beginVerify (s : State) : State :=
  setBoot (fun b =>
    let first := if b.recovery then 0 else b.preferred
    { b with
      stage := 2
      verifying := true
      image := first
      tryNext := if b.recovery then [] else [otherSlot b.preferred, 0] }) s

/-- An image is verified: it is loaded and the pace calibration begins, or the next one is tried (R734, R746). -/
def imageVerified (found : ImageInfo) (s : State) : State :=
  let b := s.boot
  if !b.verifying || s.hf.monitorHold then s
  else
    let f := verifyFault b b.image found
    if f = 0 then setBoot (fun b => { b with verifying := false, stage := 4, tryNext := [] }) s
    else
      let l := logFault { cls := 8, unit := 0x14, holdfast := true, cause := f, detail := le 4 (imageOf b b.image).version } s
      let s := raise 0x3F8 b.image l.1 l.2
      match b.tryNext with
      | n :: rest => setBoot (fun b => { b with image := n, tryNext := rest }) s
      | [] => setBoot (fun b => { b with verifying := false, stage := 9 }) s

/-! ### Readiness -/

/-- Time from the reference point in ms. -/
def sinceRef (s : State) : Nat := (s.now - s.boot.refTime) / 1000000

/-- The module is READY; an image with a higher security version has completed start-up, and the minimum rises (R734). -/
def becomeReady (s : State) : State :=
  let level := (imageOf s.boot s.boot.image).security
  setBoot (fun b => { b with ready := true, readyMs := sinceRef s, minSecurity := max b.minSecurity level }) s

/-- A gateway is on the ring, this module among them. -/
def ringHasGateway (s : State) : Bool := s.ring.gateway || s.ring.modules.any (·.gateway)

/-- Start-up step 9 ends; without a gateway step 10 ends at once (R753, R754). -/
def ringStepEnds (s : State) : State :=
  let s := setBoot (fun b => { b with stage := 8 }) s
  if ringHasGateway s then s else becomeReady s

/-- An enabled port keeps step 9 waiting: it is neither up nor has it searched for 200 ms (R753). -/
def portWaits (s : State) (p : Nat) : Bool :=
  let x := vget s.ring.ports p
  portEnabled s p && !isPortUp x.state && !(decide (x.state = .search) && portAged s p 200000000)

def ringStepDone (s : State) : Bool := decide (s.boot.stage = 7) && !((List.range 3).any (portWaits s))

def tryRingStep (s : State) : State := if ringStepDone s then ringStepEnds s else s

/-- Enumeration has run: once the module is numbered, step 10 ends. -/
def afterEnumeration (s : State) : State :=
  if decide (s.boot.stage = 8) && !s.boot.ready && s.ring.enumerated && fabricUp s then becomeReady s else s

/-! ### The start of the fabric (Tables 18-1 and 18-4, R752) -/

/-- Every ring port is DOWN from the end of step 8 on (R753). -/
def restartPorts (s : State) : State :=
  let port : LinkPort := { since := s.now }
  { s with ring := { s.ring with ports := .replicate 3 port } }

/-- Step 8 of a start from power: FABRIC becomes RUNNING. -/
def coldDone (s : State) : State :=
  let s := if s.boot.cause = 1 then freshAxes (freshGauge false s) else s
  let s := setBoot (fun b => { b with stage := 7, readyMs := sinceRef s }) s
  fabricRuns (restartPorts s)

/-- A copy of the configuration can be read from a stack that came through the reset (R761). -/
def copyReadable (before after : State) : Bool :=
  [0, 1].any fun c => decide ((vget before.bench.ctl c).state = .selfRefresh) && decide ((vget after.bench.ctl c).state = .ready)

/-- The operation that started the reset is done (R729). -/
def resetDone (s : State) : State :=
  match s.hf.busy with
  | some (.recoveryBoot, p) => opDone 6 p s
  | some (_, p) => opDone 4 p s
  | none => s

/-- Step 8 of a warm fabric reset or a recovery boot. -/
def warmDone (restorable : Bool) (s : State) : State :=
  let s := { s with bench := { s.bench with forced := false, entering := none, exiting := false, autoEntered := false } }
  let s := raise 0x349 0 0 (setHf (fun h => { h with srForced := false }) s)
  let restores := restorable && !s.boot.recovery
  let s := if restores then restoreConfig s
    else
      let s := if s.boot.recovery then s else deferOut endRecords s
      let s := fromPowerOn true s
      { s with bench := { s.bench with ctl := s.bench.ctl.map fun c => if c.state = .frozen then { c with state := .ready } else c } }
  let s := setBoot (fun b => { b with stage := 8, restored := restores }) s
  let s := fabricRuns (restartPorts s)
  becomeReady (resetDone (if restores then startUnits s else s))

/-- Both stacks are trained and tested, and the module initialises (R538 to R541, R751, R752, R760 to R762). -/
def trainingDone (r0 r1 : TrainResult) (s : State) : State :=
  if s.boot.stage ≠ 5 ∨ s.hf.monitorHold then s
  else
    let after := trainStack 1 r1 (trainStack 0 r0 s)
    if s.boot.warm then warmDone (copyReadable s after) after else coldDone after

/-- The start-up pace calibration ends (R749, R750). -/
def paceDone (figures : List Nat) (s : State) : State :=
  if s.boot.stage ≠ 4 ∨ s.hf.monitorHold then s else setBoot (fun b => { b with stage := 5 }) (paceCalibrate figures s)

/-- The fabric has been held in reset for 1 ms: FAIL is released, and verification begins (Table 18-4). -/
def holdExpired (s : State) : State :=
  if resetBusy s && !s.hf.monitorHold && (s.boot.holdUntil.any fun t => decide (t ≤ s.now)) then
    let s := setBoot (fun b => { b with holdUntil := none }) s
    let s := { s with pair := { s.pair with signalling := false } }
    beginVerify (setRole .solo .resumed s)
  else s

/-! ### Supplies (R742, R743, R758) -/

/-- Start-up begins: VAUX and VMAIN are in range. -/
def startUp (cause : Nat) (s : State) : State :=
  let s := setHf (fun h => { h with fabric := .booting, monitorHold := false, monitors := [], srForced := false, alert := true }) s
  let s := setBoot (fun b => { b with refTime := s.now, cause := cause, readyMs := 0, restored := false, recovery := false, warm := false, ready := false, holdUntil := none }) s
  let s := { s with pair := { s.pair with signalling := false } }
  beginVerify (setRole .solo .resumed s)

/-- VMAIN comes in range. -/
def vmainInRange (mv : Nat) (s : State) : State :=
  let up := s.boot.vmainUp
  let restart := s.boot.vmainLost
  let fault := s.hf.monitors.contains .vmain
  let s := setBoot (fun b => { b with vmainUp := true, vmainLost := false }) { s with sense := { s.sense with vmainMv := mv } }
  if up ∨ !s.boot.vauxUp then s
  else
    let s := if fault then raise 0x3F2 mv 0 s else s
    startUp (if restart then 1 else 0) s

/-- VMAIN falls below 8.0 V with VAUX held: everything outside the Holdfast domain is lost (Table 18-3). -/
def vmainLoss (s : State) : State :=
  if !s.boot.vmainUp then s
  else
    let s := setHf (fun h => { h with
      fabric := .booting
      busy := none
      opResult := if h.busy.isSome then 0 else h.opResult
      monitorHold := false
      monitors := h.monitors.filter fun m => decide (m = .vmain)
      alert := true }) s
    let s := setBoot (fun b => { b with vmainUp := false, vmainLost := b.vauxUp, stage := 0, verifying := false, ready := false, holdUntil := none, fw := none }) s
    if !s.boot.vauxUp then s
    else
      let s := safeStopAxes 15 .safeStop (haltTriggers s)
      let s := if inPair s then giveSignal s else s
      let p := s.pair
      let s := wipeBench (freshFabric (deferOut (endForReset true) s))
      { s with
        bench := { s.bench with ctl := .replicate 2 {} }
        faults := { s.faults with fences := [] }
        pace := {}
        host := { s.host with pcie := { perst := s.host.pcie.perst } }
        ring := { s.ring with gateway := false }
        pair := { role := p.role, cause := p.cause, signalling := p.signalling } }

/-- VAUX is lost: nothing of the module is kept but what its flash and its fuses hold, and what stands outside it. -/
def vauxLoss (s : State) : State :=
  { State.reset with
    now := s.now
    free := s.free
    pending := s.pending
    emit := s.emit
    bench := { State.reset.bench with emptied := [(0, benchSize)] }
    faults := { State.reset.faults with flash := s.faults.flash }
    boot := { State.reset.boot with
      vmainUp := s.boot.vmainUp
      golden := s.boot.golden
      slotA := s.boot.slotA
      slotB := s.boot.slotB
      preferred := s.boot.preferred
      minSecurity := s.boot.minSecurity
      revoked := s.boot.revoked }
    host := { State.reset.host with pcie := { perst := s.host.pcie.perst } }
    axes := { State.reset.axes with vmotorMv := s.axes.vmotorMv, ax := s.axes.ax.map fun x => { inputs := x.inputs, vioLow := x.vioLow, temp := x.temp } }
    links := { State.reset.links with vcamLow := s.links.vcamLow }
    sense := s.sense
    cages := s.cages }

/-- VAUX comes in range; after a loss, or for the first time, the module starts with a power-on reset (R742, R745). -/
def vauxInRange (addr mv : Nat) (s : State) : State :=
  let first := s.boot.vauxLost
  let s := { s with sense := { s.sense with vauxMv := mv } }
  if s.boot.vauxUp && !first then s
  else
    let s := setBoot (fun b => { b with vauxUp := true, vauxLost := false, vmainLost := false, powerOnAt := s.now }) s
    let s := setHf (fun h => { h with addr := addr % 4, alert := true }) s
    if s.boot.vmainUp then startUp 0 s else s

end Sys2Proof.Machine
end

