-- ==== Sys2Proof/Machine/Ring.lean ====
section
/-! DEFINITION. The Janum ring ("Janum ring and redundant pairs", R676 to R694): RING_CONFIG and RING_STATUS, the link states of Table
16-1, packets, topology, enumeration, relays, and the sending of ring time. -/

namespace Sys2Proof.Machine

/-! ### Commands -/

def specRingConfig : CmdSpec :=
  { opcode := 0x0F00, need := exactly 72, unitOk := unitIs 0,
    run := fun _ c s => stageEdit 0x0F00 0 (badRing c.params s.ring.gateway) (fun g => { g with ring := parRing c.params }) s }

/-- RING_CONFIG stages the ring ports and the relays (R691). -/
def execRingConfig (t : Nat) (c : HostCmd) (s : State) : Host.Outcome State Fault Refusal := execCmd specRingConfig t c s

/-- RING of RING_STATUS: ALONE with no link up, CLOSED, FOLDED. -/
def ringShape (s : State) : Nat :=
  if !portUp s 0 && !portUp s 1 then 0 else if portUp s 0 && portUp s 1 && !s.ring.folded then 1 else 2

/-- The modules known, this one among them, in ascending order of ID; those without an ID follow by serial number. -/
def knownModules (s : State) : List RingModule :=
  let key (m : RingModule) : Nat × Nat := (m.id.getD 256, m.serial)
  sortBy (fun a b => decide ((key a).1 < (key b).1) || (decide ((key a).1 = (key b).1) && decide ((key a).2 < (key b).2))) (selfModule s :: s.ring.modules)

def moduleBytes (m : RingModule) : Bytes :=
  le 8 m.serial ++ le 1 (m.id.getD 0) ++ le 1 (m.hopsEast.getD 0xFF) ++ le 1 (m.hopsWest.getD 0xFF) ++
  le 1 (flagBit (decide (m.serial = Config.serial)) 0 + flagBit m.gateway 1 + flagBit m.forerunner 2) ++ zeros 4

def portCauseCode : PortCause → Nat
  | .none => 0 | .forerunnerRefused => 1 | .capsTimeout => 2 | .stepTimeout => 3 | .alignTimeout => 4 | .frTimeout => 5 | .linkLost => 6
  | .fenced => 7 | .reset => 8

def ringStatusBody (s : State) (written : Nat) : Bytes :=
  let st (p : Nat) : Bytes := le 1 (portCode (vget s.ring.ports p).state)
  let cause (p : Nat) : Bytes := le 1 (portCauseCode (vget s.ring.ports p).cause)
  le 1 (ringShape s) ++ st 0 ++ st 1 ++ st 2 ++ le 1 (if s.ring.enumerated then s.ring.moduleId else 0) ++
  le 1 (flagBit s.ring.enumerated 0 + flagBit s.ring.gateway 1) ++ le 1 (knownModules s).length ++ zeros 1 ++ le 4 written ++
  cause 0 ++ cause 1 ++ cause 2 ++ zeros 17

def specRingStatus : CmdSpec :=
  { opcode := 0x0F01, need := fun c => (0, decide (c.paramLen = 0) || decide (c.paramLen = 16)), unitOk := unitIs 0,
    run := fun _ c s =>
      if c.paramLen = 0 then ok (ringStatusBody s 0) s
      else
        checked (firstBad (bulkHostOnly c.params 0)) s fun _ =>
          let ref := parBulk c.params 0
          let ms := (knownModules s).take (ref.length / 16)
          withBulk c.bulkFails ref s fun s => ok (ringStatusBody s ms.length) (bulkOut ref (ms.flatMap moduleBytes) s) }

/-- RING_STATUS reads the ring. -/
def execRingStatus (t : Nat) (c : HostCmd) (s : State) : Host.Outcome State Fault Refusal := execCmd specRingStatus t c s

/-! ### The link states (Table 16-1) -/

/-- A transition of port p out of a state, where the port is in it. -/
def onPort (t p : Nat) (st : PortState) (s : State) (f : State → State) : Host.Outcome State Fault Refusal :=
  runFabric t [] s fun s => if p < 3 ∧ (vget s.ring.ports p).state = st then f s else s

/-- A port that is DOWN and enabled begins its search after 10 ms, and sends HELLO. -/
def execRingPortDownExpired (t port : Nat) (s : State) : Host.Outcome State Fault Refusal :=
  onPort t port .down s fun s => if portEnabled s port && portAged s port 10000000 then out (.ringHello port) (enterPort port .search s) else s

/-- Eight consecutive valid HELLOs have been received. -/
def execRingHello (t port : Nat) (s : State) : Host.Outcome State Fault Refusal := onPort t port .search s (enterPort port .caps)

/-- The capability blocks have been exchanged and acknowledged. In FR_CAPS the forerunner exchange is complete. -/
def takeCaps (p : Nat) (c : RingCaps) (s : State) : State :=
  let x := vget s.ring.ports p
  let s := setLinkPort p (fun x => { x with neighbour := some { serial := c.serial, id := c.id, forerunner := c.forerunner } }) s
  match x.state with
  | .caps =>
    if !c.forerunner then enterPort p .stepUp (setLinkPort p (fun x => { x with lowRate := decide (2 ≤ x.nativeFails) || !c.fullRate }) s)
    else if p < 2 ∧ (cfgNow s).ring.allowForerunner then enterPort p .frDetect s
    else portFalls p .down .forerunnerRefused s
  | _ => tryRingStep (portRises p .frUp s)

def execRingCapability (t port : Nat) (caps : RingCaps) (s : State) : Host.Outcome State Fault Refusal :=
  runFabric t [] s fun s =>
    if port < 3 ∧ ((vget s.ring.ports port).state = .caps ∨ (vget s.ring.ports port).state = .frCaps) then takeCaps port caps s else s

/-- Block lock on all four lanes, or in FR_LOCK bit and symbol lock. -/
def execRingLanesLocked (t port : Nat) (s : State) : Host.Outcome State Fault Refusal :=
  runFabric t [] s fun s =>
    if 3 ≤ port then s
    else match (vget s.ring.ports port).state with
      | .stepUp => enterPort port .align s
      | .frLock => enterPort port .frCaps s
      | _ => s

/-- The lanes are deskewed: the port is UP and sends a keepalive every 10 us. JM UP begins pairing (R709). Start-up
step 9 ends once every enabled port is up (R753). -/
def execRingLanesAligned (t port : Nat) (s : State) : Host.Outcome State Fault Refusal :=
  onPort t port .align s fun s =>
    let s := tryRingStep (out (.keepalive port) (portRises port .up s))
    if port = 2 then tryPairing s else s

/-- Receiver termination is detected on all lanes. -/
def execRingTerminationDetected (t port : Nat) (s : State) : Host.Outcome State Fault Refusal := onPort t port .frDetect s (enterPort port .frTrain)

/-- The neighbour's training pattern is received. -/
def execRingTrainingPattern (t port : Nat) (s : State) : Host.Outcome State Fault Refusal := onPort t port .frTrain s (enterPort port .frLock)

/-- The time limit of a bring-up state in ns, and the cause of a DOWN from it. -/
def bringupLimit : PortState → Option (Nat × PortCause)
  | .caps => some (1000000, .capsTimeout)
  | .stepUp => some (10000000, .stepTimeout)
  | .align => some (2000000, .alignTimeout)
  | .frDetect => some (100000000, .frTimeout)
  | .frTrain => some (50000000, .frTimeout)
  | .frLock => some (20000000, .frTimeout)
  | .frCaps => some (10000000, .frTimeout)
  | _ => none

/-- A bring-up state lasts too long. Two failures of STEP_UP or ALIGN at the full rate make the next CAPS offer the lower one. -/
def bringupTimeout (p : Nat) (s : State) : State :=
  let x := vget s.ring.ports p
  match bringupLimit x.state with
  | none => s
  | some (ns, cause) =>
    if !portAged s p ns then s
    else
      let native := decide (x.state = .stepUp) || decide (x.state = .align)
      let fails := if !native then x.nativeFails else if x.lowRate then 0 else x.nativeFails + 1
      portFalls p .down cause (setLinkPort p (fun x => { x with nativeFails := fails }) s)

def execRingBringupTimeout (t port : Nat) (s : State) : Host.Outcome State Fault Refusal :=
  runFabric t [] s (if port < 3 then bringupTimeout port else id)

/-- A keepalive is due on a port that is up. -/
def execRingKeepaliveTimer (t port : Nat) (s : State) : Host.Outcome State Fault Refusal :=
  runFabric t [] s fun s => if port < 3 ∧ portUp s port then out (.keepalive port) s else s

/-- Block lock is lost on a lane, or no packet has come for 160 us: the port is DOWN, and the ring folds (R687). -/
def execRingLinkLost (t port : Nat) (s : State) : Host.Outcome State Fault Refusal :=
  runFabric t [] s fun s => if port < 3 ∧ portUp s port then portFalls port .down .linkLost s else s

/-- A fenced port returns to DOWN by itself after 100 ms (R720). -/
def execRingFenceExpired (t port : Nat) (s : State) : Host.Outcome State Fault Refusal :=
  onPort t port .fenced s fun s => if portAged s port 100000000 then clearFence 0x0F port (enterPort port .down s) else s

/-! ### Packets, topology, enumeration -/

/-- A packet arrives; one with a CRC error is not acknowledged, and its sender sends it once more (R684). -/
def execRingPacketRx (t port : Nat) (pkt : RingPkt) (crcOk : Bool) (s : State) : Host.Outcome State Fault Refusal :=
  runFabric t [] s fun s => if port < 3 ∧ portUp s port ∧ crcOk then ringReceive port pkt s else s

/-- The next hop acknowledges a packet. -/
def execRingAckRx (t port seq : Nat) (s : State) : Host.Outcome State Fault Refusal :=
  runFabric t [] s fun s => if port < 3 ∧ portUp s port then packetAcked port seq s else s

/-- A packet has not been acknowledged within 20 us (R684). -/
def ackTimeout (p seq : Nat) (s : State) : State :=
  match (vget s.ring.ports p).unacked.find? fun u => decide (u.pkt.seq = seq) with
  | some u => if u.sentAt + 20000 ≤ s.now then packetFails p seq s else s
  | none => s

def execRingAckTimeout (t port seq : Nat) (s : State) : Host.Outcome State Fault Refusal :=
  runFabric t [] s (if port < 3 then ackTimeout port seq else id)

/-- A topology message arrives (R687, R688). -/
def execRingTopologyMessage (t : Nat) (modules : List RingModule) (folded : Bool) (s : State) : Host.Outcome State Fault Refusal :=
  runFabric t [] s (takeTopology modules folded)

/-- Enumeration runs (R678, R679); start-up step 10 ends once the module is numbered (R754). -/
def execEnumeration (t : Nat) (s : State) : Host.Outcome State Fault Refusal := runFabric t [] s (afterEnumeration ∘ enumerate)

/-! ### Relays (R691 to R694) -/

/-- A relayed record arrives at the gateway: it goes to the local queue of its relay. -/
def relayResult (module queue : Nat) (record : Bytes) (patch : RelayPatch) (s : State) : State :=
  match s.ring.relays.find? fun r => decide (r.srcModule = module) && decide (r.srcQueue = queue) with
  | some r => relayPlace r record patch s
  | none => s

def execRelayResultRx (t module queue : Nat) (rec_ : Bytes) (patch : RelayPatch) (s : State) : Host.Outcome State Fault Refusal :=
  runFabric t [14, 15] s (relayResult module queue rec_ patch)

/-- The gateway acknowledges a relayed record. -/
def execRelayAckRx (t queue seq : Nat) (s : State) : Host.Outcome State Fault Refusal :=
  runFabric t [14, 15] s (if queue < 16 then relayAcked queue seq else id)

/-- A relay has stalled for more than 10 ms. -/
def execRelayStallTimeout (t queue : Nat) (s : State) : Host.Outcome State Fault Refusal := runFabric t [] s (relayStalled queue)

/-! ### Time on the ring -/

/-- The ring master sends its time in both directions once per ms (R671, R690). A module that follows the ring's time sends none. -/
def sendRingTime (s : State) : State :=
  if (timeCfg s).source = 2 ∨ !s.ring.enumerated then s
  else
    let p : RingPkt := { cls := 1, src := s.ring.moduleId, dst := 0xFE, payload := timePayload s }
    sendPacket 1 p (sendPacket 0 p s)

def execRingTimeSend (t : Nat) (s : State) : Host.Outcome State Fault Refusal := runFabric t [] s sendRingTime

end Sys2Proof.Machine
end

