-- ==== Sys2Proof/Machine/Scribe.lean ====
section
/-! DEFINITION. The commands of "Defect records, patches, queues and mark scheduling", and the events of the queues and the marker
stations. -/

namespace Sys2Proof.Machine

def queueUnits (c : HostCmd) : List (Nat × Nat) := [(0x07, c.unit)]

def specQueueConfig : CmdSpec :=
  { opcode := 0x0700, need := exactly 8, unitOk := unitBelow 16, units := queueUnits,
    run := fun _ c s => stageEdit 0x0700 c.unit (badQueue c.params) (fun cfg => { cfg with queue := vset cfg.queue c.unit (parQueue c.params) }) s }

/-- QUEUE_CONFIG stages a queue (R432). -/
def execQueueConfig (t : Nat) (c : HostCmd) (s : State) : Host.Outcome State Fault Refusal := execCmd specQueueConfig t c s

/-- Commands on a queue that is OFF reply ST_WRONG_STATE. -/
def onQueue (q : Nat) (s : State) (go : Queue → Verdict) : Verdict :=
  let x := vget s.scribe.queues q
  if x.on then go x else wrongState s

/-- MARK, REWIND and RELEASE of a queue whose records a relay takes reply ST_WRONG_STATE too (R692). -/
def onOwnQueue (q : Nat) (s : State) (go : Queue → Verdict) : Verdict := onQueue q s fun x => if relayedAway s q then wrongState s else go x

/-- A trim's value is checked only while SELECT sets it (R815). -/
def badTrim (cap : Nat) (p : Bytes) : Option Nat :=
  let idle := u32 p 4
  firstBad [(0, !bitOf (u8 p 8) 0 || decide (u32 p 0 ≤ cap)), (4, !bitOf (u8 p 8) 1 || decide (idle = 0) || inRange 10 10000000 idle)]

def specQueueTrim : CmdSpec :=
  { opcode := 0x0701, need := exactly 12, unitOk := unitBelow 16, units := queueUnits,
    run := fun _ c s =>
      let q := c.unit
      let p := c.params
      onQueue q s fun x =>
        checked (badTrim x.cap p) s fun _ =>
          let th := if bitOf (u8 p 8) 0 then some (u32 p 0) else none
          let idle := if bitOf (u8 p 8) 1 then some (u32 p 4) else none
          let line := trimLine s (nextTriggered s)
          ok (le 4 line) (if trimWaits s then addTrim (.queueTrim q th idle line) s else trimQueue q th idle s) }

/-- QUEUE_TRIM sets a queue's THRESHOLD and IDLE_TIMEOUT (R445); they act at once, and the reply names the next web line. -/
def execQueueTrim (t : Nat) (c : HostCmd) (s : State) : Host.Outcome State Fault Refusal := execCmd specQueueTrim t c s

def specQueueMark : CmdSpec :=
  { opcode := 0x0702, need := exactly 0, unitOk := unitBelow 16, units := queueUnits,
    run := fun _ c s => onOwnQueue c.unit s fun x =>
      ok (le 4 x.rd) (setQueue c.unit (fun x => { x with mkp := x.rd, markValid := true, markLost := false }) s) }

/-- QUEUE_MARK saves the read point (R442). -/
def execQueueMark (t : Nat) (c : HostCmd) (s : State) : Host.Outcome State Fault Refusal := execCmd specQueueMark t c s

def specQueueRewind : CmdSpec :=
  { opcode := 0x0703, need := exactly 0, unitOk := unitBelow 16, units := queueUnits,
    run := fun _ c s => onOwnQueue c.unit s fun x =>
      if x.markValid then ok (le 4 x.mkp) (rewindTo c.unit x.mkp s)
      else if x.markLost then fail stMarkLost (le 4 x.rel ++ zeros 4) (rewindTo c.unit x.rel s)
      else wrongState s }

/-- QUEUE_REWIND returns the read point to the mark, or to the oldest record when the mark was overtaken (R443). -/
def execQueueRewind (t : Nat) (c : HostCmd) (s : State) : Host.Outcome State Fault Refusal := execCmd specQueueRewind t c s

def specQueueRelease : CmdSpec :=
  { opcode := 0x0704, need := exactly 4, unitOk := unitBelow 16, units := queueUnits,
    run := fun _ c s => onOwnQueue c.unit s fun x =>
      let upto := u32 c.params 0
      if later32 upto x.rd then badParam 0 s
      else
        let r := releaseTo c.unit upto s
        ok (le 4 r.1 ++ le 4 (vget r.2.scribe.queues c.unit).rel) r.2 }

/-- QUEUE_RELEASE releases the records below UPTO (R444). -/
def execQueueRelease (t : Nat) (c : HostCmd) (s : State) : Host.Outcome State Fault Refusal := execCmd specQueueRelease t c s

def specPatchConfig : CmdSpec :=
  { opcode := 0x0705, need := exactly 16, unitOk := unitBelow 16, units := queueUnits,
    run := fun _ c s => stageEdit 0x0705 c.unit (badPatch c.params) (fun cfg => { cfg with patch := vset cfg.patch c.unit (parPatch c.params) }) s }

/-- PATCH_CONFIG stages a queue's patches (Table 9-9). -/
def execPatchConfig (t : Nat) (c : HostCmd) (s : State) : Host.Outcome State Fault Refusal := execCmd specPatchConfig t c s

def specMarkStation : CmdSpec :=
  { opcode := 0x0706, need := exactly 48, unitOk := unitBelow 4,
    run := fun _ c s => stageEdit 0x0706 c.unit (badStation c.params) (fun cfg => { cfg with station := vset cfg.station c.unit (parStation c.params) }) s }

/-- MARK_STATION stages a marker station (Table 9-10). -/
def execMarkStation (t : Nat) (c : HostCmd) (s : State) : Host.Outcome State Fault Refusal := execCmd specMarkStation t c s

/-- Queue body of Table 9-11. -/
def queueStatusBytes (x : Queue) : Bytes :=
  let used := (x.patches.map (·.len)).sum
  le 4 x.wr ++ le 1 (queueState x) ++ le 1 (flagBit x.markLost 1 + flagBit x.markValid 0) ++ le 1 x.head ++ zeros 1 ++ le 4 x.rd ++ le 4 x.rel ++
  le 4 x.mkp ++ le 4 x.cap ++ le 4 x.threshold ++ le 4 x.idleTimeout ++ le 4 ((x.storeSize - used) / 1024) ++ zeros 4

/-- QUEUE_STATUS of a station: the schedule, pending marks first. -/
def stationStatus (c : HostCmd) (t : Nat) (s : State) : Verdict :=
  let x := vget s.scribe.stations t
  let body (n : Nat) : Bytes := le 2 x.pending.length ++ le 2 n ++ le 1 (if (stationCfg s t).enable then 1 else 0) ++ zeros 3
  if c.paramLen = 0 then ok (body 0) s
  else
    checked (firstBad (bulkHostOnly c.params 0)) s fun _ =>
      let ref := parBulk c.params 0
      let entries := (x.pending ++ x.ended).take (ref.length / 32)
      withBulk c.bulkFails ref s fun s => ok (body entries.length) (bulkOut ref (entries.flatMap markEntry) s)

def specQueueStatus : CmdSpec :=
  { opcode := 0x0707,
    need := fun c => if c.unit < 16 then exactly 0 c else (16, decide (c.paramLen = 0) || decide (c.paramLen = 16)),
    unitOk := unitBelow 20,
    run := fun _ c s => if c.unit < 16 then ok (queueStatusBytes (vget s.scribe.queues c.unit)) s else stationStatus c (c.unit - 16) s }

/-- QUEUE_STATUS reads a queue's pointers, or a station's schedule (Table 9-11). -/
def execQueueStatus (t : Nat) (c : HostCmd) (s : State) : Host.Outcome State Fault Refusal := execCmd specQueueStatus t c s

/-! ### Events -/

/-- A record is fetched from the body into the head (R434). -/
def execQueueHeadRefill (t queue : Nat) (s : State) : Host.Outcome State Fault Refusal :=
  runFabric t [15] s (if queue < 16 then refillHead queue else id)

/-- Unread records have waited IDLE_TIMEOUT without a read (R445). -/
def execQueueIdleTimeout (t queue : Nat) (s : State) : Host.Outcome State Fault Refusal :=
  runFabric t [] s (if queue < 16 then queueIdle queue else id)

/-- A queue's compressor reads its next patch (R448, R449). -/
def execPatchCut (t queue : Nat) (s : State) : Host.Outcome State Fault Refusal :=
  runFabric t [12] s (if queue < 16 then cutPatch queue else id)

/-- SETTLE after the axis has reached a mark's target ends, and the entry is appended (R457). -/
def execMarkSettleExpired (t station : Nat) (s : State) : Host.Outcome State Fault Refusal :=
  runFabric t [] s (if station < 4 then markSettled station else id)

/-- DWELL after a mark fires ends, and the move to the next pending mark starts (R457). -/
def execMarkDwellExpired (t station : Nat) (s : State) : Host.Outcome State Fault Refusal :=
  runFabric t [] s (if station < 4 then markDwelled station else id)

end Sys2Proof.Machine
end

