-- ==== Sys2Proof/Machine/Startup.lean ====
section
/-! DEFINITION. The events of start-up, of the supplies, of the cages and of the PCI Express link ("Power-up, boot and reset"; "Module,
connectors and power"). -/

namespace Sys2Proof.Machine

/-- The 1 ms hold of a warm reset ends (Table 18-4, step 4). -/
def execFabricResetHoldExpired (t : Nat) (s : State) : Host.Outcome State Fault Refusal := runAt t s holdExpired

/-- VAUX comes in range (R742). -/
def execVauxInRange (t addr mv : Nat) (s : State) : Host.Outcome State Fault Refusal := runAt t s (vauxInRange addr mv)

/-- VAUX is lost (R742). -/
def execVauxLoss (t : Nat) (s : State) : Host.Outcome State Fault Refusal := runAt t s vauxLoss

/-- VMAIN comes in range (R743). -/
def execVmainInRange (t mv : Nat) (s : State) : Host.Outcome State Fault Refusal := runAt t s (vmainInRange mv)

/-- VMAIN falls below 8.0 V (R758). -/
def execVmainLoss (t : Nat) (s : State) : Host.Outcome State Fault Refusal := runAt t s vmainLoss

/-- Verification of an image ends (R734, R746). -/
def execImageVerifyDone (t : Nat) (image : ImageInfo) (s : State) : Host.Outcome State Fault Refusal := runAt t s (imageVerified image)

/-- The start-up pace calibration ends (R749, R750). -/
def execPaceCalibrationDone (t : Nat) (figures : List Nat) (s : State) : Host.Outcome State Fault Refusal := runAt t s (paceDone figures)

/-- The Bench is trained and tested, and the module initialises (R538 to R540, R751, R752, R761). -/
def execBenchTrainingDone (t : Nat) (stack0 stack1 : TrainResult) (s : State) : Host.Outcome State Fault Refusal :=
  runAt t s (trainingDone stack0 stack1)

/-- The ring ports have searched for 200 ms (R753). -/
def execStartupRingWaitExpired (t : Nat) (s : State) : Host.Outcome State Fault Refusal := runFabric t [] s tryRingStep

/-- A module in a QSFP28 cage (0 to 2) of power class 1 to 4, or in an SFP28 cage (3, 4) of level I to III, is enabled (R780). -/
def cageEnables (cage powerClass : Nat) : Bool := if cage < 3 then inRange 1 4 powerClass else inRange 1 3 powerClass

/-- The module of a cage is read; the port of one that may not have high power goes down and stays so. -/
def cageInserted (cage identifier powerClass : Nat) (s : State) : State :=
  let ok := cageEnables cage powerClass
  let s := { s with cages := vset s.cages cage { present := true, identifier := identifier, powerClass := powerClass, enabled := ok } }
  if ok ∨ !fabricUp s then s
  else if cage < 3 then (if (vget s.ring.ports cage).state = .down then s else portFalls cage .down .none s)
  else restartPtp (cage - 3) (setEth (cage - 3) (fun x => { x with linkUp := false }) s)

/-- A pluggable module is inserted (R779, R780). -/
def execCageModuleInserted (t cage identifier powerClass : Nat) (s : State) : Host.Outcome State Fault Refusal :=
  runAt t s fun s => if 5 ≤ cage then s else cageInserted cage identifier powerClass s

/-- PERST# is deasserted (R747). -/
def execPerstDeassert (t : Nat) (s : State) : Host.Outcome State Fault Refusal := runAt t s (setPcie fun p => { p with perst := false })

/-- The link completes training, once PERST# is deasserted and VMAIN is there: the module is a gateway (R677). -/
def linkUp (s : State) : State :=
  if s.host.pcie.perst || beforeStep3 s then s
  else
    let s := setPcie (fun p => { p with linkUp := true }) s
    { s with ring := { s.ring with gateway := true } }

def execPcieLinkUp (t : Nat) (s : State) : Host.Outcome State Fault Refusal := runAt t s linkUp

/-- The link goes down: the module is no gateway (R677). -/
def linkDown (s : State) : State :=
  let s := setPcie (fun p => { p with linkUp := false }) s
  { s with ring := { s.ring with gateway := false } }

def execPcieLinkDown (t : Nat) (s : State) : Host.Outcome State Fault Refusal := runAt t s linkDown

end Sys2Proof.Machine
end

