-- ==== Sys2Proof/Machine/Take.lean ====
section
/-! DEFINITION. The command processor takes packets from its rings and from other modules ("Yilgen command packets", R64 to R96), and a passive
module applies the journal of its partner (R704, R709). -/

namespace Sys2Proof.Machine

/-! ### Opcodes (Table 2-19) -/

def systemSpecs : List CmdSpec :=
  [specNop, specGetInfo, specGetStatus, specResetUnit, specFwUpdate, specDebugUnlock, specGetStage]

def stagingSpecs : List CmdSpec :=
  [specDryfit, specGlueup, specAbandon, specGetReport, specSetOperatingRange]

def linksSpecs : List CmdSpec :=
  [specLinkConfig, specLinkDiscover, specLinkStatus, specCamRead, specCamWrite, specKx25Config, specPocxpSwitch, specPrbsTest, specEyeScan, specThroughConfig]

def planeSpecs : List CmdSpec :=
  [specPlaneConfig, specLoadTable, specReadTable, specSetZoneShim, specJigDark, specJigFlat, specJigGeometry, specJigResult]

def dovetailSpecs : List CmdSpec :=
  [specGridConfig, specLoadGeometry, specKerfConfig, specSetSeamShim, specSeamStatus]

def marquetrySpecs : List CmdSpec :=
  [specClassConfig, specRegionConfig, specRuleConfig, specSegStatus]

def scribeSpecs : List CmdSpec :=
  [specQueueConfig, specQueueTrim, specQueueMark, specQueueRewind, specQueueRelease, specPatchConfig, specMarkStation, specQueueStatus]

def profilesSpecs : List CmdSpec :=
  [specZoneConfig, specGritConfig, specThresholdConfig, specViewConfig, specViewCrop, specProfileRead]

def benchSpecs : List CmdSpec :=
  [specPartitionConfig, specPortConfig, specLookback, specSelfRefresh, specBenchStatus, specReadCapture]

def compressionSpecs : List CmdSpec :=
  [archiveConfigSpec, compressConfigSpec, contextSaveSpec, contextRestoreSpec, decompressSpec]

def gaugeSpecs : List CmdSpec :=
  [encoderConfigSpec, triggerConfigSpec, compareConfigSpec, compareAppendSpec, compareSwapSpec, gaugeStatusSpec, specTriggerEnable]

def axesSpecs : List CmdSpec :=
  [specAxisConfig, specAxisMove, specAxisHome, specAxisStop, specAxisGear, specAxisStatus, specAxisStandstill]

def timeSpecs : List CmdSpec :=
  [specTimeConfig, specTimeSet, specTimeAdjust, specPtpConfig, specTimeStatus]

def ringSpecs : List CmdSpec :=
  [specRingConfig, specRingStatus, specPairConfig, specPairSwitch, specPairStatus]

def faultsSpecs : List CmdSpec :=
  [specSelftest, specReadFaultLog, specInjectFault, specReadCounters, specPaceStatus]

/-- Every command. -/
def cmdSpecs : List CmdSpec :=
  systemSpecs ++ stagingSpecs ++ linksSpecs ++ planeSpecs ++ dovetailSpecs ++ marquetrySpecs ++ scribeSpecs ++ profilesSpecs ++ benchSpecs ++ compressionSpecs ++ gaugeSpecs ++ axesSpecs ++ timeSpecs ++ ringSpecs ++ faultsSpecs

def specOf (opcode : Nat) : Option CmdSpec := cmdSpecs.find? fun sp => decide (sp.opcode = opcode)

/-- Runs a packet whose ticket has been issued, or answers ST_BAD_OPCODE (R130). -/
def runPacket (r : CmdRec) (c : HostCmd) (s : State) : State :=
  match specOf r.opcode with
  | some sp => runCmd sp r c s
  | none => answer r stBadOpcode (zeros 8) s

/-! ### Taking packets from the rings (R64 to R67, R71, R81, R84, R89) -/

/-- Slots from CONS to PROD. -/
def waitingSlots (p : RingPair) : Nat := if p.cmdSize = 0 then 0 else (p.cmdProd + p.cmdSize - p.cmdCons) % p.cmdSize

/-- A command of a ring: not one of another gateway or of the journal. -/
def ofRing (r : CmdRec) : Bool := !r.silent && (match r.via with | some g => decide (g = allModules) | none => true)

/-- Every command taken from any ring has posted its final reply (R84). -/
def allReplied (s : State) : Bool :=
  !(s.cmds.any ofRing) && s.ring.forwarded.isEmpty && s.ring.broadcasts.isEmpty && s.ring.prepare.isNone &&
  s.host.rings.toList.all fun p => p.posts.isEmpty

/-- A barrier command of ring n has not replied (R84). -/
def barrierHolds (s : State) (n : Nat) : Bool :=
  (s.cmds.any fun r => ofRing r && r.barrier && decide (r.ring = n) && !r.accepted) ||
  (s.ring.forwarded.any fun f => f.barrier && decide (f.ring = n) && !f.accepted) ||
  (s.ring.broadcasts.any fun b => b.barrier && decide (b.ring = n) && !b.completing) ||
  (s.ring.prepare.any fun q => q.barrier && decide (q.ring = n))

/-- Slots of the packet at the front of a ring. -/
def rawSlots (k : RawPkt) : Nat := packetSlots (parsePkt 0 k)

/-- The front packet of ring n can be read: it is whole, and the ring is neither disabled, stopped, short of reply slots nor held by a
barrier. -/
def ringReady (s : State) (n : Nat) (k : RawPkt) : Bool :=
  let p := vget s.host.rings n
  p.enabled && !p.stopped && decide (p.cmdProd ≠ p.cmdCons) && decide (rawSlots k ≤ waitingSlots p) && decide (16 ≤ freeSlots s n) &&
  !barrierHolds s n && (!(parsePkt n k).barrier || allReplied s)

/-- No ledger slot is FREE (R44). -/
def ledgerFull (s : State) : Bool := (issueTicket s).isNone

/-- The ring whose turn it is (R81). A ring whose packet waits for a ticket is passed over while the ledger is full (R89). -/
def nextTaken (s : State) (pkts : List RawPkt) : Option Nat :=
  ((List.range 4).map fun i => (s.host.nextRing + i) % 4).find? fun n =>
    ringReady s n (pkts.getD n {}) && !(ledgerFull s && (vget s.host.rings n).ticketWait.isSome)

/-- CONS moves past the packet, and any wait for a ticket has ended. -/
def passPacket (n : Nat) (k : RawPkt) (s : State) : State :=
  setRing n (fun p => { p with cmdCons := if p.cmdSize = 0 then p.cmdCons else (p.cmdCons + rawSlots k) % p.cmdSize, ticketWait := none }) s

/-- The command processor reads the packet, and takes it with its ticket (R67, R89). -/
def takeFront (n : Nat) (k : RawPkt) (s : State) : State :=
  let s := { s with host := { s.host with nextRing := (n + 1) % 4 } }
  if 2 ≤ k.readFails then stopRing n s
  else
    let s := if k.readFails = 1 then countTransient 0 s else s
    match issueTicket s with
    | none => setRing n (fun p => { p with ticketWait := some (p.ticketWait.getD s.now) }) s
    | some (w, s) =>
      let c := parsePkt n k
      runPacket { ticket := w, ring := n, tag := c.tag, opcode := pktOpcode k, irq := c.irq, barrier := c.barrier } c (passPacket n k s)

/-- One turn of the command processor. `pkts` is what the fronts of the four command rings hold. -/
def takeTurn (pkts : List RawPkt) (s : State) : State :=
  match nextTaken s pkts with
  | some n => takeFront n (pkts.getD n {}) s
  | none => s

def execCommandTake (t : Nat) (pkts : List RawPkt) (s : State) : Host.Outcome State Fault Refusal := runFabric t [] s (takeTurn pkts)

/-- A ticket word that names no ticket. -/
def noTicketWord : Nat := 2 ^ 32

/-- A packet has waited 2 ms for a ticket: ST_BUSY with cause 1, NO_TICKET and TICKET 0 (R89, R812). -/
def ticketTimeout (n : Nat) (k : RawPkt) (s : State) : State :=
  let p := vget s.host.rings n
  if p.enabled && !p.stopped && (p.ticketWait.any fun w => decide (w + 2000000 ≤ s.now)) && ledgerFull s then
    let c := parsePkt n k
    postReply n noTicketWord c.irq (replyBytes (pktOpcode k) stBusy c.tag 0 s.ring.moduleId 8 (busyBody 1 0)) (countNoTicket (passPacket n k s))
  else s

def execCommandTicketTimeout (t n : Nat) (pkt : RawPkt) (s : State) : Host.Outcome State Fault Refusal :=
  runFabric t [] s (if n < 4 then ticketTimeout n pkt else id)

/-! ### Commands of other modules (R92 to R96) -/

/-- A forwarded command gets a reply of its target, or the gateway's own. -/
def replyForwarded (f : Forwarded) (status source rflags : Nat) (body : Bytes) (s : State) : State :=
  let rest := s.ring.forwarded.filter fun x => !(decide (x.ticket = f.ticket) && decide (x.module = f.module))
  let keep := if status = stAccepted then [{ f with accepted := true }] else []
  let s := { s with ring := { s.ring with forwarded := rest ++ keep } }
  let s := if status = stAccepted then s else decideTicket f.ticket (ticketCode status) s
  postReply f.ring f.ticket f.irq (replyBytes f.opcode status f.tag f.ticket source rflags body) s

/-- A reply that comes after its ST_TIMEOUT is discarded and counted (R95). -/
def lateReply (module : Nat) (s : State) : State :=
  match (moduleById s module).bind (routeTo s) with
  | some p => setLinkPort p (fun x => { x with cnt := { x.cnt with lateReplies := wrap32 (x.cnt.lateReplies + 1) } }) s
  | none => s

/-- A target's reply reaches the gateway (R92). -/
def takeReply (module ticket status : Nat) (completion : Bool) (body : Bytes) (s : State) : State :=
  match s.ring.forwarded.find? fun f => decide (f.ticket = ticket) && decide (f.module = module) && decide (f.accepted = completion) with
  | some f => replyForwarded f status module (4 + flagBit completion 1) body s
  | none =>
    if s.ring.broadcasts.any fun b => decide (b.ticket = ticket) && b.waiting.contains module && decide (b.completing = completion) then
      collectAnswer ticket module status body s
    else lateReply module s

def execRingCommandReply (t module ticket status : Nat) (completion : Bool) (body : Bytes) (s : State) : Host.Outcome State Fault Refusal :=
  runFabric t [] s (takeReply module ticket status completion body)

/-- ST_TIMEOUT's body (Table 2-3). -/
def timeoutBody (module : Nat) : Bytes := le 1 module ++ zeros 7

/-- 10 ms have passed since a command was forwarded, without a reply (R95). -/
def forwardTimeout (ticket : Nat) (s : State) : State :=
  let late (at_ : Nat) : Bool := decide (at_ + 10000000 ≤ s.now)
  let s := (s.ring.forwarded.filter fun f => decide (f.ticket = ticket) && !f.accepted && late f.sentAt).foldl
    (fun s f => replyForwarded f stTimeout s.ring.moduleId 0 (timeoutBody f.module) s) s
  match s.ring.broadcasts.find? fun b => decide (b.ticket = ticket) && !b.completing && late b.sentAt with
  | some b => (b.waiting.filter fun m => decide (m ≠ s.ring.moduleId)).foldl (fun s m => collectAnswer ticket m stTimeout (timeoutBody m) s) s
  | none => s

def execForwardTimeout (t ticket : Nat) (s : State) : Host.Outcome State Fault Refusal := runFabric t [] s (forwardTimeout ticket)

/-- The key under which this module keeps a command that has no ticket of its own ledger. -/
def freshKey (s : State) : Nat := (s.cmds.map (·.ticket)).foldl max (2 ^ 41) + 1

/-- The preparation of a broadcast glue-up arrives at this module (R124). -/
def prepareHere (g : Nat) (r : CmdRec) (c : HostCmd) (s : State) : State :=
  if !(specGlueup.need c).2 then answer r stBadLength (lengthBody (specGlueup.need c).1 c.paramLen) s
  else if passiveRefuses s 0x0201 c then answer r stWrongState (zeros 8) s
  else
    match glueRefused true c.params s with
    | some v => answer r v.status v.body v.st
    | none => answer r stOk (le 4 (currentStrip s)) { s with ring := { s.ring with prepared := some (g, currentStrip s) } }

/-- The second phase arrives: the packet names the strip, or releases the module (R125, R126). The module answers with its completion. -/
def secondPhase (r : CmdRec) (c : HostCmd) (s : State) : State :=
  let s := { s with ring := { s.ring with prepared := none } }
  if atStripSet c.params then settle (beginGlue r.ticket (earliestStrip c.params) { s with cmds := s.cmds ++ [{ r with accepted := true }] }) else s

/-- A packet that a gateway forwarded arrives and runs here (R92, R94, R124, R128). -/
def takeForwarded (g : Nat) (k : RawPkt) (s : State) : State :=
  let c := parsePkt 0 k
  let r : CmdRec := { ticket := freshKey s, tag := c.tag, opcode := pktOpcode k, irq := c.irq, via := some g }
  match specOf r.opcode with
  | none => answer r stBadOpcode (zeros 8) s
  | some sp =>
    if c.module ≠ allModules then runHere sp r { c with module := 0xFF } s
    else if sp.opcode = 0x0201 then (if s.ring.prepared.any fun p => decide (p.1 = g) then secondPhase r c s else prepareHere g r c s)
    else if sp.every.isSome then runHere sp r c s
    else answer r stBadTarget (targetBody c) s

def execRingCommandReceived (t gateway : Nat) (pkt : RawPkt) (s : State) : Host.Outcome State Fault Refusal :=
  runFabric t [] s (takeForwarded gateway pkt)

/-! ### The journal (R704, R705, R709) -/

/-- What a journalled command writes to host memory belongs to the active module's host: nothing goes out here. -/
def hostQuiet (before : List Emit) (s : State) : State :=
  { s with emit := before ++ (s.emit.drop before.length).filter fun e => match e with | .hostWrite .. => false | _ => true }

/-- A command as the active module took it. It has no reply; a live trim takes effect from the line that the journal names. -/
def applyCommand (sp : CmdSpec) (c : HostCmd) (line : Nat) (s : State) : State :=
  let r : CmdRec := { ticket := freshKey s, tag := c.tag, opcode := sp.opcode, silent := true }
  let v := sp.run r c (setPair (fun p => { p with journalLine := some line }) s)
  let s' := setPair (fun p => { p with journalLine := none }) (hostQuiet s.emit v.st)
  if 0x8000 ≤ v.status then becomePairing .journal s
  else
    let s' :=
      if v.later then { s' with cmds := s'.cmds ++ [r] }
      else answer r v.status v.body s'
    sp.after s'

/-- Settings that the active module does not journal are this module's own: pairing, the ring ports and the axes of this module. -/
def ownSettings (own : Cfg) (cfg : Cfg) : Cfg :=
  let mine (a : Nat) : Bool := bitOf own.pair.axisOwner a
  { cfg with
    pair := own.pair
    ring := own.ring
    axis := cfg.axis.mapIdx fun a x => if mine a then vget own.axis a else x
    gear := cfg.gear.mapIdx fun a x => if mine a then vget own.gear a else x
    stand := cfg.stand.mapIdx fun a x => if mine a then vget own.stand a else x }

/-- The running configuration and tables of the active module, which this module commits at the strip named (R709, step 3, assumption 72). -/
def applyJournalSnapshot (cfg : Cfg) (seg : SegBank) (maps : List (List Knot)) (tables : List TableSet) (strip n0 : Nat) (origin : Int)
    (triggering : Bool) (s : State) : State :=
  let cfg := ownSettings (cfgNow s) cfg
  let first := stripFirst cfg.shift strip
  let newMaps := s.dovetail.maps.mapIdx fun i b => { b with shadow := maps.getD i b.shadow }
  let newTables := s.plane.slots.mapIdx fun i x => { x with shadow := tables.getD i x.shadow }
  let s := { s with
    staged := cfg
    stageGen := wrap32 (s.stageGen + 1)
    marq := { s.marq with shadow := seg }
    dovetail := { s.dovetail with maps := newMaps }
    plane := { s.plane with slots := newTables } }
  match triggering, cfg.seq with
  | true, some q =>
    let epoch : SeqEpoch := { firstLine := first, firstStrip := strip, n0, origin, shift := cfg.shift, seq := q }
    let slot (x : SlotTrig) : SlotTrig := { x with nextLine := first, nextField := 0, overshot := false, pend := [], skipBefore := false, behind := false }
    let s := { s with
      bench := { s.bench with epochs := s.bench.epochs ++ [epoch] }
      gauge := { s.gauge with
        trigEnabled := true
        trigHalted := false
        startLine := some first
        startPending := true
        lastStrip := strip
        lastShift := cfg.shift
        stopAfter := none
        slots := s.gauge.slots.map slot } }
    let g : Glue := { next := cfg, strip, first := some first, gen := s.stageGen, ticket := noTicketWord }
    { idleUnits s with glue := some g }
  | _, _ =>
    let s := { s with gauge := { s.gauge with n0 := n0, origin := origin } }
    { idleUnits s with glue := some { next := cfg, deferred := true, gen := s.stageGen, ticket := noTicketWord } }

/-- One journal entry; one that cannot be applied returns the module to PAIRING (R704). -/
def applyJournal (e : JournalEntry) (s : State) : State :=
  let fails := becomePairing .journal s
  match e with
  | .command opcode c line => match specOf opcode with | some sp => applyCommand sp c line s | none => fails
  | .dmaCfg ch timer v =>
    if 64 ≤ ch || badDmaCfg timer v || s.glue.isSome then fails
    else { s with staged := setDmaStaged ch timer v s.staged, stageGen := wrap32 (s.stageGen + 1) }
  | .glueUp strip => if s.glue.isSome then fails else beginGlue noTicketWord strip s
  | .jig slot w => if 24 ≤ slot then fails else { jigWrite slot w s with stageGen := wrap32 (s.stageGen + 1) }
  | .snapshot cfg seg maps tables strip n0 origin triggering =>
    if s.glue.isSome then fails else applyJournalSnapshot cfg seg maps tables strip n0 origin triggering s

def execMirrorJournalRx (t : Nat) (entry : JournalEntry) (s : State) : Host.Outcome State Fault Refusal :=
  onMirror t s fun s =>
    if isPassive s then setPair (fun p => { p with journalEntries := wrap32 (p.journalEntries + 1) }) (applyJournal entry s) else s

end Sys2Proof.Machine
end

