-- ==== Sys2Proof/Machine/Dispatch.lean ====
section
/-! DEFINITION. One arm per command. -/

namespace Sys2Proof.Machine

def exec (i : Instr) (s : State) : Host.Outcome State Fault Refusal :=
  match i with
  | .nop t c => Sys2Proof.Machine.execNop t c s
  | .getInfo t c => Sys2Proof.Machine.execGetInfo t c s
  | .getStatus t c => Sys2Proof.Machine.execGetStatus t c s
  | .resetUnit t c => Sys2Proof.Machine.execResetUnit t c s
  | .fwUpdate t c => Sys2Proof.Machine.execFwUpdate t c s
  | .fwUpdateDone t readBackOk => Sys2Proof.Machine.execFwUpdateDone t readBackOk s
  | .debugUnlock t c => Sys2Proof.Machine.execDebugUnlock t c s
  | .challengeExpired t => Sys2Proof.Machine.execChallengeExpired t s
  | .getStage t c => Sys2Proof.Machine.execGetStage t c s
  | .dryfit t c => Sys2Proof.Machine.execDryfit t c s
  | .dryfitDone t fails => Sys2Proof.Machine.execDryfitDone t fails s
  | .glueup t c => Sys2Proof.Machine.execGlueup t c s
  | .glueupPrepareReply t module status strip => Sys2Proof.Machine.execGlueupPrepareReply t module status strip s
  | .glueupPrepareTimeout t => Sys2Proof.Machine.execGlueupPrepareTimeout t s
  | .abandon t c => Sys2Proof.Machine.execAbandon t c s
  | .getReport t c => Sys2Proof.Machine.execGetReport t c s
  | .setOperatingRange t c => Sys2Proof.Machine.execSetOperatingRange t c s
  | .cmdSizeWrite t n v => Sys2Proof.Machine.execCmdSizeWrite t n v s
  | .cmdDoorbell t n v => Sys2Proof.Machine.execCmdDoorbell t n v s
  | .rplConsWrite t n v => Sys2Proof.Machine.execRplConsWrite t n v s
  | .commandTake t pkts => Sys2Proof.Machine.execCommandTake t pkts s
  | .commandTicketTimeout t n pkt => Sys2Proof.Machine.execCommandTicketTimeout t n pkt s
  | .forwardTimeout t ticket => Sys2Proof.Machine.execForwardTimeout t ticket s
  | .ringCommandReceived t gateway pkt => Sys2Proof.Machine.execRingCommandReceived t gateway pkt s
  | .ringCommandReply t module ticket status completion body => Sys2Proof.Machine.execRingCommandReply t module ticket status completion body s
  | .encoderConfig t c => Sys2Proof.Machine.execEncoderConfig t c s
  | .triggerConfig t c => Sys2Proof.Machine.execTriggerConfig t c s
  | .compareConfig t c => Sys2Proof.Machine.execCompareConfig t c s
  | .compareAppend t c => Sys2Proof.Machine.execCompareAppend t c s
  | .compareInsertComplete t u => Sys2Proof.Machine.execCompareInsertComplete t u s
  | .compareSwap t c => Sys2Proof.Machine.execCompareSwap t c s
  | .gaugeStatus t c => Sys2Proof.Machine.execGaugeStatus t c s
  | .triggerEnable t c => Sys2Proof.Machine.execTriggerEnable t c s
  | .encoderCount t e a b => Sys2Proof.Machine.execEncoderCount t e a b s
  | .indexEdge t e => Sys2Proof.Machine.execIndexEdge t e s
  | .stillTimeout t e => Sys2Proof.Machine.execStillTimeout t e s
  | .triggerRequest t slot => Sys2Proof.Machine.execTriggerRequest t slot s
  | .triggerFire t slot => Sys2Proof.Machine.execTriggerFire t slot s
  | .minPeriodRelease t slot => Sys2Proof.Machine.execMinPeriodRelease t slot s
  | .compareFire t u => Sys2Proof.Machine.execCompareFire t u s
  | .trgPulseEnd t trg => Sys2Proof.Machine.execTrgPulseEnd t trg s
  | .linkConfig t c => Sys2Proof.Machine.execLinkConfig t c s
  | .linkDiscover t c => Sys2Proof.Machine.execLinkDiscover t c s
  | .linkStatus t c => Sys2Proof.Machine.execLinkStatus t c s
  | .camRead t c => Sys2Proof.Machine.execCamRead t c s
  | .camWrite t c => Sys2Proof.Machine.execCamWrite t c s
  | .kx25Config t c => Sys2Proof.Machine.execKx25Config t c s
  | .pocxpSwitch t c => Sys2Proof.Machine.execPocxpSwitch t c s
  | .prbsTest t c => Sys2Proof.Machine.execPrbsTest t c s
  | .prbsTestEnd t lane bits errors unlocks injections locked => Sys2Proof.Machine.execPrbsTestEnd t lane bits errors unlocks injections locked s
  | .eyeScan t c => Sys2Proof.Machine.execEyeScan t c s
  | .eyeScanDone t lane sweep taps map fails => Sys2Proof.Machine.execEyeScanDone t lane sweep taps map fails s
  | .throughConfig t c => Sys2Proof.Machine.execThroughConfig t c s
  | .linkLock t link => Sys2Proof.Machine.execLinkLock t link s
  | .lockLost t link => Sys2Proof.Machine.execLockLost t link s
  | .codeErrorLimit t link errors => Sys2Proof.Machine.execCodeErrorLimit t link errors s
  | .discoverTimeout t slot => Sys2Proof.Machine.execDiscoverTimeout t slot s
  | .bringupStepTimeout t slot => Sys2Proof.Machine.execBringupStepTimeout t slot s
  | .controlAnswer t slot ans => Sys2Proof.Machine.execControlAnswer t slot ans s
  | .controlTimeout t slot => Sys2Proof.Machine.execControlTimeout t slot s
  | .adaptSweepDone t slot sweeps => Sys2Proof.Machine.execAdaptSweepDone t slot sweeps s
  | .testConnDone t slot clean => Sys2Proof.Machine.execTestConnDone t slot clean s
  | .retryDelayExpired t slot => Sys2Proof.Machine.execRetryDelayExpired t slot s
  | .heartbeatTimeout t slot => Sys2Proof.Machine.execHeartbeatTimeout t slot s
  | .streamPacket t slot pkt => Sys2Proof.Machine.execStreamPacket t slot pkt s
  | .cameraEventPacket t slot eventId ns time data => Sys2Proof.Machine.execCameraEventPacket t slot eventId ns time data s
  | .triggerAck t slot => Sys2Proof.Machine.execTriggerAck t slot s
  | .pocxpDetectDone t slot camera => Sys2Proof.Machine.execPocxpDetectDone t slot camera s
  | .pocxpTrip t slot currentMa => Sys2Proof.Machine.execPocxpTrip t slot currentMa s
  | .pocxpRetry t slot => Sys2Proof.Machine.execPocxpRetry t slot s
  | .pocxpSpacingExpired t => Sys2Proof.Machine.execPocxpSpacingExpired t s
  | .vcamLow t => Sys2Proof.Machine.execVcamLow t s
  | .vcamRestored t => Sys2Proof.Machine.execVcamRestored t s
  | .laneQualityUpdate t lane steps codeErrors => Sys2Proof.Machine.execLaneQualityUpdate t lane steps codeErrors s
  | .relayLock t conn delay => Sys2Proof.Machine.execRelayLock t conn delay s
  | .tagTimeout t slot => Sys2Proof.Machine.execTagTimeout t slot s
  | .unmatchedLineWait t slot => Sys2Proof.Machine.execUnmatchedLineWait t slot s
  | .ingestLineWrite t slot => Sys2Proof.Machine.execIngestLineWrite t slot s
  | .ingestWriteComplete t slot => Sys2Proof.Machine.execIngestWriteComplete t slot s
  | .planeConfig t c => Sys2Proof.Machine.execPlaneConfig t c s
  | .loadTable t c => Sys2Proof.Machine.execLoadTable t c s
  | .readTable t c => Sys2Proof.Machine.execReadTable t c s
  | .setZoneShim t c => Sys2Proof.Machine.execSetZoneShim t c s
  | .planeLine t slot => Sys2Proof.Machine.execPlaneLine t slot s
  | .jigDark t c => Sys2Proof.Machine.execJigDark t c s
  | .jigFlat t c => Sys2Proof.Machine.execJigFlat t c s
  | .jigGeometry t c => Sys2Proof.Machine.execJigGeometry t c s
  | .jigResult t c => Sys2Proof.Machine.execJigResult t c s
  | .jigAcquireLine t slot => Sys2Proof.Machine.execJigAcquireLine t slot s
  | .jigComplete t slot => Sys2Proof.Machine.execJigComplete t slot s
  | .jigStageResult t slot => Sys2Proof.Machine.execJigStageResult t slot s
  | .jigTimeout t slot => Sys2Proof.Machine.execJigTimeout t slot s
  | .gridConfig t c => Sys2Proof.Machine.execGridConfig t c s
  | .loadGeometry t c => Sys2Proof.Machine.execLoadGeometry t c s
  | .kerfConfig t c => Sys2Proof.Machine.execKerfConfig t c s
  | .setSeamShim t c => Sys2Proof.Machine.execSetSeamShim t c s
  | .seamStatus t c => Sys2Proof.Machine.execSeamStatus t c s
  | .dovetailLine t => Sys2Proof.Machine.execDovetailLine t s
  | .importReceived t row => Sys2Proof.Machine.execImportReceived t row s
  | .importTimeout t => Sys2Proof.Machine.execImportTimeout t s
  | .classConfig t c => Sys2Proof.Machine.execClassConfig t c s
  | .regionConfig t c => Sys2Proof.Machine.execRegionConfig t c s
  | .ruleConfig t c => Sys2Proof.Machine.execRuleConfig t c s
  | .segStatus t c => Sys2Proof.Machine.execSegStatus t c s
  | .marquetryLine t => Sys2Proof.Machine.execMarquetryLine t s
  | .edgeMessageReceived t msg => Sys2Proof.Machine.execEdgeMessageReceived t msg s
  | .edgeMessageTimeout t => Sys2Proof.Machine.execEdgeMessageTimeout t s
  | .queueConfig t c => Sys2Proof.Machine.execQueueConfig t c s
  | .queueTrim t c => Sys2Proof.Machine.execQueueTrim t c s
  | .queueMark t c => Sys2Proof.Machine.execQueueMark t c s
  | .queueRewind t c => Sys2Proof.Machine.execQueueRewind t c s
  | .queueRelease t c => Sys2Proof.Machine.execQueueRelease t c s
  | .patchConfig t c => Sys2Proof.Machine.execPatchConfig t c s
  | .markStation t c => Sys2Proof.Machine.execMarkStation t c s
  | .queueStatus t c => Sys2Proof.Machine.execQueueStatus t c s
  | .scribePlaceStrip t queue => Sys2Proof.Machine.execScribePlaceStrip t queue s
  | .queueWindowRead t queue off size => Sys2Proof.Machine.execQueueWindowRead t queue off size s
  | .queueHeadRefill t queue => Sys2Proof.Machine.execQueueHeadRefill t queue s
  | .queueIdleTimeout t queue => Sys2Proof.Machine.execQueueIdleTimeout t queue s
  | .patchCut t queue => Sys2Proof.Machine.execPatchCut t queue s
  | .markSettleExpired t station => Sys2Proof.Machine.execMarkSettleExpired t station s
  | .markDwellExpired t station => Sys2Proof.Machine.execMarkDwellExpired t station s
  | .zoneConfig t c => Sys2Proof.Machine.execZoneConfig t c s
  | .gritConfig t c => Sys2Proof.Machine.execGritConfig t c s
  | .thresholdConfig t c => Sys2Proof.Machine.execThresholdConfig t c s
  | .viewConfig t c => Sys2Proof.Machine.execViewConfig t c s
  | .viewCrop t c => Sys2Proof.Machine.execViewCrop t c s
  | .profileRead t c => Sys2Proof.Machine.execProfileRead t c s
  | .profileLine t slot => Sys2Proof.Machine.execProfileLine t slot s
  | .backgroundRowStore t field => Sys2Proof.Machine.execBackgroundRowStore t field s
  | .veneerLine t stream => Sys2Proof.Machine.execVeneerLine t stream s
  | .viewFrameForm t stream => Sys2Proof.Machine.execViewFrameForm t stream s
  | .viewFrameSent t stream => Sys2Proof.Machine.execViewFrameSent t stream s
  | .ethLinkDown t port => Sys2Proof.Machine.execEthLinkDown t port s
  | .archiveConfig t c => Sys2Proof.Machine.execArchiveConfig t c s
  | .compressConfig t c => Sys2Proof.Machine.execCompressConfig t c s
  | .contextSave t c => Sys2Proof.Machine.execContextSave t c s
  | .contextRestore t c => Sys2Proof.Machine.execContextRestore t c s
  | .decompress t c => Sys2Proof.Machine.execDecompress t c s
  | .decompressDone t de fails => Sys2Proof.Machine.execDecompressDone t de fails s
  | .archiveStripStart t => Sys2Proof.Machine.execArchiveStripStart t s
  | .compressBlockDone t ce fails => Sys2Proof.Machine.execCompressBlockDone t ce fails s
  | .partitionConfig t c => Sys2Proof.Machine.execPartitionConfig t c s
  | .portConfig t c => Sys2Proof.Machine.execPortConfig t c s
  | .lookback t c => Sys2Proof.Machine.execLookback t c s
  | .lookbackDone t ticket fails => Sys2Proof.Machine.execLookbackDone t ticket fails s
  | .selfRefresh t c => Sys2Proof.Machine.execSelfRefresh t c s
  | .benchStatus t c => Sys2Proof.Machine.execBenchStatus t c s
  | .readCapture t c => Sys2Proof.Machine.execReadCapture t c s
  | .benchRequest t req => Sys2Proof.Machine.execBenchRequest t req s
  | .benchIssue t pch allowed => Sys2Proof.Machine.execBenchIssue t pch allowed s
  | .benchUrgencyRise t port => Sys2Proof.Machine.execBenchUrgencyRise t port s
  | .ingestDeadline t slot => Sys2Proof.Machine.execIngestDeadline t slot s
  | .benchReadDone t id outcome => Sys2Proof.Machine.execBenchReadDone t id outcome s
  | .benchParityError t id outcome => Sys2Proof.Machine.execBenchParityError t id outcome s
  | .benchRefreshDue t pch => Sys2Proof.Machine.execBenchRefreshDue t pch s
  | .stackTempChange t stack temp => Sys2Proof.Machine.execStackTempChange t stack temp s
  | .selfRefreshEntered t => Sys2Proof.Machine.execSelfRefreshEntered t s
  | .autoSelfRefreshTimeout t => Sys2Proof.Machine.execAutoSelfRefreshTimeout t s
  | .selfRefreshExited t => Sys2Proof.Machine.execSelfRefreshExited t s
  | .bar4Read t off size => Sys2Proof.Machine.execBar4Read t off size s
  | .bar4Write t off size => Sys2Proof.Machine.execBar4Write t off size s
  | .rcRegisterRead t bar off size => Sys2Proof.Machine.execRcRegisterRead t bar off size s
  | .registerWrite t bar off size v => Sys2Proof.Machine.execRegisterWrite t bar off size v s
  | .pendingClear t word v => Sys2Proof.Machine.execPendingClear t word v s
  | .maskWrite t off v => Sys2Proof.Machine.execMaskWrite t off v s
  | .vecAck t v => Sys2Proof.Machine.execVecAck t v s
  | .msixUnmask t which => Sys2Proof.Machine.execMsixUnmask t which s
  | .dmaCfgWrite t ch timer v => Sys2Proof.Machine.execDmaCfgWrite t ch timer v s
  | .dmaShadowWrite t ch reg v => Sys2Proof.Machine.execDmaShadowWrite t ch reg v s
  | .dmaDoorbell t ch => Sys2Proof.Machine.execDmaDoorbell t ch s
  | .dmaArm t ch => Sys2Proof.Machine.execDmaArm t ch s
  | .dmaAbort t ch => Sys2Proof.Machine.execDmaAbort t ch s
  | .dmaReset t ch => Sys2Proof.Machine.execDmaReset t ch s
  | .dmaTimerTick t timer => Sys2Proof.Machine.execDmaTimerTick t timer s
  | .dmaDescFetched t ch desc fails => Sys2Proof.Machine.execDmaDescFetched t ch desc fails s
  | .dmaTicketTimeout t ch => Sys2Proof.Machine.execDmaTicketTimeout t ch s
  | .dmaBurstReadDone t ch data fails => Sys2Proof.Machine.execDmaBurstReadDone t ch data fails s
  | .dmaBurstWrite t fails => Sys2Proof.Machine.execDmaBurstWrite t fails s
  | .dmaDescriptorComplete t ch => Sys2Proof.Machine.execDmaDescriptorComplete t ch s
  | .dmaFlushDone t ch fails => Sys2Proof.Machine.execDmaFlushDone t ch fails s
  | .d3hotEntry t => Sys2Proof.Machine.execD3hotEntry t s
  | .configRequest t op => Sys2Proof.Machine.execConfigRequest t op s
  | .unsupportedRequest t => Sys2Proof.Machine.execUnsupportedRequest t s
  | .perstAssert t => Sys2Proof.Machine.execPerstAssert t s
  | .perstDeassert t => Sys2Proof.Machine.execPerstDeassert t s
  | .hfKey t path v => Sys2Proof.Machine.execHfKey t path v s
  | .hfKeyExpired t path => Sys2Proof.Machine.execHfKeyExpired t path s
  | .safeStop t path mask => Sys2Proof.Machine.execSafeStop t path mask s
  | .forceSelfRefresh t path => Sys2Proof.Machine.execForceSelfRefresh t path s
  | .releaseSelfRefresh t path => Sys2Proof.Machine.execReleaseSelfRefresh t path s
  | .warmReset t path => Sys2Proof.Machine.execWarmReset t path s
  | .failoverSignal t path => Sys2Proof.Machine.execFailoverSignal t path s
  | .recoveryBoot t path => Sys2Proof.Machine.execRecoveryBoot t path s
  | .clearLatched t path => Sys2Proof.Machine.execClearLatched t path s
  | .fabricResetHoldExpired t => Sys2Proof.Machine.execFabricResetHoldExpired t s
  | .axisConfig t c => Sys2Proof.Machine.execAxisConfig t c s
  | .axisMove t c => Sys2Proof.Machine.execAxisMove t c s
  | .axisHome t c => Sys2Proof.Machine.execAxisHome t c s
  | .axisStop t c => Sys2Proof.Machine.execAxisStop t c s
  | .axisGear t c => Sys2Proof.Machine.execAxisGear t c s
  | .axisStatus t c => Sys2Proof.Machine.execAxisStatus t c s
  | .axisStandstill t c => Sys2Proof.Machine.execAxisStandstill t c s
  | .axisProfileUpdate t axis => Sys2Proof.Machine.execAxisProfileUpdate t axis s
  | .profileWatchdog t axis => Sys2Proof.Machine.execProfileWatchdog t axis s
  | .axisInputChange t axis input level => Sys2Proof.Machine.execAxisInputChange t axis input level s
  | .limitChatter t axis input => Sys2Proof.Machine.execLimitChatter t axis input s
  | .axisOvercurrent t axis => Sys2Proof.Machine.execAxisOvercurrent t axis s
  | .stageTemperature t axis temp => Sys2Proof.Machine.execStageTemperature t axis temp s
  | .vmotorFault t mv => Sys2Proof.Machine.execVmotorFault t mv s
  | .standstillDelayExpired t axis => Sys2Proof.Machine.execStandstillDelayExpired t axis s
  | .irunRestoreWait t axis => Sys2Proof.Machine.execIrunRestoreWait t axis s
  | .strokeHoldExpired t axis => Sys2Proof.Machine.execStrokeHoldExpired t axis s
  | .homingTimeout t axis => Sys2Proof.Machine.execHomingTimeout t axis s
  | .timeConfig t c => Sys2Proof.Machine.execTimeConfig t c s
  | .timeSet t c => Sys2Proof.Machine.execTimeSet t c s
  | .timeAdjust t c => Sys2Proof.Machine.execTimeAdjust t c s
  | .ptpConfig t c => Sys2Proof.Machine.execPtpConfig t c s
  | .timeStatus t c => Sys2Proof.Machine.execTimeStatus t c s
  | .slewDone t => Sys2Proof.Machine.execSlewDone t s
  | .ptpMessage t port msg => Sys2Proof.Machine.execPtpMessage t port msg s
  | .ptpIntervalTimer t port kind => Sys2Proof.Machine.execPtpIntervalTimer t port kind s
  | .timeSourceLost t => Sys2Proof.Machine.execTimeSourceLost t s
  | .arpRequest t port ip => Sys2Proof.Machine.execArpRequest t port ip s
  | .ethOtherFrame t port => Sys2Proof.Machine.execEthOtherFrame t port s
  | .ringTimeSend t => Sys2Proof.Machine.execRingTimeSend t s
  | .ringTimeMessage t port hops payload => Sys2Proof.Machine.execRingTimeMessage t port hops payload s
  | .linkDelayEcho t port ns => Sys2Proof.Machine.execLinkDelayEcho t port ns s
  | .ringConfig t c => Sys2Proof.Machine.execRingConfig t c s
  | .ringStatus t c => Sys2Proof.Machine.execRingStatus t c s
  | .pairConfig t c => Sys2Proof.Machine.execPairConfig t c s
  | .pairSwitch t c => Sys2Proof.Machine.execPairSwitch t c s
  | .pairStatus t c => Sys2Proof.Machine.execPairStatus t c s
  | .ringPortDownExpired t port => Sys2Proof.Machine.execRingPortDownExpired t port s
  | .ringHello t port => Sys2Proof.Machine.execRingHello t port s
  | .ringCapability t port caps => Sys2Proof.Machine.execRingCapability t port caps s
  | .ringLanesLocked t port => Sys2Proof.Machine.execRingLanesLocked t port s
  | .ringLanesAligned t port => Sys2Proof.Machine.execRingLanesAligned t port s
  | .ringTerminationDetected t port => Sys2Proof.Machine.execRingTerminationDetected t port s
  | .ringTrainingPattern t port => Sys2Proof.Machine.execRingTrainingPattern t port s
  | .ringBringupTimeout t port => Sys2Proof.Machine.execRingBringupTimeout t port s
  | .ringKeepaliveTimer t port => Sys2Proof.Machine.execRingKeepaliveTimer t port s
  | .ringLinkLost t port => Sys2Proof.Machine.execRingLinkLost t port s
  | .ringFenceExpired t port => Sys2Proof.Machine.execRingFenceExpired t port s
  | .ringPacketRx t port pkt crcOk => Sys2Proof.Machine.execRingPacketRx t port pkt crcOk s
  | .ringAckRx t port seq => Sys2Proof.Machine.execRingAckRx t port seq s
  | .ringAckTimeout t port seq => Sys2Proof.Machine.execRingAckTimeout t port seq s
  | .ringTopologyMessage t modules folded => Sys2Proof.Machine.execRingTopologyMessage t modules folded s
  | .enumeration t => Sys2Proof.Machine.execEnumeration t s
  | .relayResultRx t module queue rec patch => Sys2Proof.Machine.execRelayResultRx t module queue rec patch s
  | .relayAckRx t queue seq => Sys2Proof.Machine.execRelayAckRx t queue seq s
  | .relayStallTimeout t queue => Sys2Proof.Machine.execRelayStallTimeout t queue s
  | .jmHeartbeatTimer t => Sys2Proof.Machine.execJmHeartbeatTimer t s
  | .jmHeartbeatRx t role strip => Sys2Proof.Machine.execJmHeartbeatRx t role strip s
  | .partnerHeartbeatTimeout t => Sys2Proof.Machine.execPartnerHeartbeatTimeout t s
  | .mirrorTagRx t tag => Sys2Proof.Machine.execMirrorTagRx t tag s
  | .mirrorPosRx t pos count => Sys2Proof.Machine.execMirrorPosRx t pos count s
  | .mirrorJournalRx t entry => Sys2Proof.Machine.execMirrorJournalRx t entry s
  | .mirrorLedgerRx t queue rel rd mk => Sys2Proof.Machine.execMirrorLedgerRx t queue rel rd mk s
  | .mirrorMarksRx t station mark => Sys2Proof.Machine.execMirrorMarksRx t station mark s
  | .mirrorDigestRx t strip crc => Sys2Proof.Machine.execMirrorDigestRx t strip crc s
  | .resyncSnapshotRx t snap => Sys2Proof.Machine.execResyncSnapshotRx t snap s
  | .resyncTimeout t => Sys2Proof.Machine.execResyncTimeout t s
  | .jmOffsetEcho t offset => Sys2Proof.Machine.execJmOffsetEcho t offset s
  | .pairingExchange t hello => Sys2Proof.Machine.execPairingExchange t hello s
  | .partnerFail t asserted => Sys2Proof.Machine.execPartnerFail t asserted s
  | .selftest t c => Sys2Proof.Machine.execSelftest t c s
  | .selftestDone t results => Sys2Proof.Machine.execSelftestDone t results s
  | .readFaultLog t c => Sys2Proof.Machine.execReadFaultLog t c s
  | .injectFault t c => Sys2Proof.Machine.execInjectFault t c s
  | .injectionLapse t => Sys2Proof.Machine.execInjectionLapse t s
  | .readCounters t c => Sys2Proof.Machine.execReadCounters t c s
  | .paceStatus t c => Sys2Proof.Machine.execPaceStatus t c s
  | .paceUpdate t figure => Sys2Proof.Machine.execPaceUpdate t figure s
  | .fabricWedge t cause => Sys2Proof.Machine.execFabricWedge t cause s
  | .fabricResume t => Sys2Proof.Machine.execFabricResume t s
  | .monitorFault t what value => Sys2Proof.Machine.execMonitorFault t what value s
  | .monitorFaultRelease t what value => Sys2Proof.Machine.execMonitorFaultRelease t what value s
  | .junctionWarning t temp => Sys2Proof.Machine.execJunctionWarning t temp s
  | .smbusWriteRegister t off v pecOk => Sys2Proof.Machine.execSmbusWriteRegister t off v pecOk s
  | .smbusSetOffset t off pecOk => Sys2Proof.Machine.execSmbusSetOffset t off pecOk s
  | .smbusRead t pecOk => Sys2Proof.Machine.execSmbusRead t pecOk s
  | .smbusAlertResponse t => Sys2Proof.Machine.execSmbusAlertResponse t s
  | .vauxInRange t addr mv => Sys2Proof.Machine.execVauxInRange t addr mv s
  | .vauxLoss t => Sys2Proof.Machine.execVauxLoss t s
  | .vmainInRange t mv => Sys2Proof.Machine.execVmainInRange t mv s
  | .vmainLoss t => Sys2Proof.Machine.execVmainLoss t s
  | .vioLow t low => Sys2Proof.Machine.execVioLow t low s
  | .imageVerifyDone t image => Sys2Proof.Machine.execImageVerifyDone t image s
  | .paceCalibrationDone t figures => Sys2Proof.Machine.execPaceCalibrationDone t figures s
  | .benchTrainingDone t stack0 stack1 => Sys2Proof.Machine.execBenchTrainingDone t stack0 stack1 s
  | .startupRingWaitExpired t => Sys2Proof.Machine.execStartupRingWaitExpired t s
  | .cageModuleInserted t cage identifier powerClass => Sys2Proof.Machine.execCageModuleInserted t cage identifier powerClass s
  | .thInputLockLoss t conn lane => Sys2Proof.Machine.execThInputLockLoss t conn lane s
  | .relayCharacterRx t conn frame => Sys2Proof.Machine.execRelayCharacterRx t conn frame s
  | .cameraHeartbeat t slot => Sys2Proof.Machine.execCameraHeartbeat t slot s
  | .ethLinkUp t port => Sys2Proof.Machine.execEthLinkUp t port s
  | .pcieLinkUp t => Sys2Proof.Machine.execPcieLinkUp t s
  | .pcieLinkDown t => Sys2Proof.Machine.execPcieLinkDown t s
  | .safeStopRest t axis => Sys2Proof.Machine.execSafeStopRest t axis s
  | .announceReceiptTimeout t port => Sys2Proof.Machine.execAnnounceReceiptTimeout t port s
  | .smbusClockLowTimeout t => Sys2Proof.Machine.execSmbusClockLowTimeout t s

end Sys2Proof.Machine
end

