-- ==== Sys2Proof/WellFormed.lean ====
section
/-! DEFINITION. When a command's operands are ones that the manual lets the world send: the unit a command names exists, and every
number fits the field that carries it. Whether the device accepts a command is no part of this: that is its meaning. -/

namespace Sys2Proof

open Machine

/-- The operand is below its bound. -/
def below (n v : Nat) : Bool := decide (v < n)

/-- A transfer fails on no attempt, on the first, or on both (R80). -/
def Machine.Fails.wf (f : Fails) : Bool := below 3 f

/-- A Yilgen packet: the fields of Table 2-1, and parameters that fit one packet (R74, Table 2-1). -/
def Machine.HostCmd.wf (c : HostCmd) : Bool :=
  below 4 c.ring && below (2 ^ 32) c.tag && below 256 c.module && below 256 c.unit && below 65536 c.paramLen && below 256 c.slots &&
  below 4081 c.params.length && Fails.wf c.bulkFails && Fails.wf c.stepFails

/-- A packet in a ring: at most 64 slots of 64 bytes (R61, Table 2-1). -/
def Machine.RawPkt.wf (p : RawPkt) : Bool :=
  below 4097 p.bytes.length && Fails.wf p.readFails && Fails.wf p.bulkFails && Fails.wf p.stepFails

/-- A Bench request: one of the 16 ports of Table 12-3, inside the Bench. -/
def Machine.BenchReq.wf (r : BenchReq) : Bool := below 16 r.port && below benchSize r.offset && below 24 r.slot && below (2 ^ 32) r.line

/-- A stream packet: one of the 48 links, and an 8-bit tag and stream (R210). -/
def Machine.StreamPkt.wf (p : StreamPkt) : Bool := below 48 p.link && below 256 p.tag && below 256 p.streamId

/-- A ring packet: the fields of the header of Table 16-2. -/
def Machine.RingPkt.wf (p : RingPkt) : Bool := below 256 p.cls && below 256 p.type && below 256 p.src && below 256 p.dst && below 256 p.hops && below 4097 p.payload.length

/-- Training names pseudo-channels of one stack. -/
def Machine.TrainResult.wf (r : TrainResult) : Bool := Fails.wf r.crcFails && r.failedOnce.all (below 32) && r.failedTwice.all (below 32)

/-- A test of Table 17-14. -/
def Machine.TestResult.wf (r : TestResult) : Bool := below 32 r.bit && Fails.wf r.fails

/-- A mask names one of the 64 vectors (R594). -/
def Machine.MsixMask.wf : MsixMask → Bool
  | .vector v => below 64 v
  | .function => true

/-- A journal entry of R704. -/
def Machine.JournalEntry.wf : JournalEntry → Bool
  | .command opcode c line => below 65536 opcode && c.wf && below (2 ^ 32) line
  | .dmaCfg ch _ v => below 64 ch && below (2 ^ 32) v
  | .glueUp strip => below (2 ^ 32) strip
  | .jig slot _ => below 24 slot
  | .snapshot _ _ _ _ strip n0 _ _ => below (2 ^ 32) strip && below (2 ^ 32) n0

/-- A trigger tag of Table 3-2 (R170). -/
def Machine.TrigTag.wf (t : TrigTag) : Bool := below (2 ^ 32) t.line && below (2 ^ 32) t.stime && below 24 t.slot && below 4 t.field

/-- The operands of every command; its time is any number. -/
def Instr.wf : Instr → Bool
  | .nop _ c => c.wf
  | .getInfo _ c => c.wf
  | .getStatus _ c => c.wf
  | .resetUnit _ c => c.wf
  | .fwUpdate _ c => c.wf
  | .fwUpdateDone _ _ => true
  | .debugUnlock _ c => c.wf
  | .challengeExpired _ => true
  | .getStage _ c => c.wf
  | .dryfit _ c => c.wf
  | .dryfitDone _ fails => Fails.wf fails
  | .glueup _ c => c.wf
  | .glueupPrepareReply _ module status strip => below 64 module && below 65536 status && below (2 ^ 32) strip
  | .glueupPrepareTimeout _ => true
  | .abandon _ c => c.wf
  | .getReport _ c => c.wf
  | .setOperatingRange _ c => c.wf
  | .cmdSizeWrite _ n v => below 4 n && below (2 ^ 32) v
  | .cmdDoorbell _ n v => below 4 n && below (2 ^ 32) v
  | .rplConsWrite _ n v => below 4 n && below (2 ^ 32) v
  | .commandTake _ pkts => pkts.all RawPkt.wf
  | .commandTicketTimeout _ n pkt => below 4 n && pkt.wf
  | .forwardTimeout _ ticket => below (2 ^ 32) ticket
  | .ringCommandReceived _ gateway pkt => below 64 gateway && pkt.wf
  | .ringCommandReply _ module ticket status _ _ => below 64 module && below (2 ^ 32) ticket && below 65536 status
  | .encoderConfig _ c => c.wf
  | .triggerConfig _ c => c.wf
  | .compareConfig _ c => c.wf
  | .compareAppend _ c => c.wf
  | .compareInsertComplete _ u => below 16 u
  | .compareSwap _ c => c.wf
  | .gaugeStatus _ c => c.wf
  | .triggerEnable _ c => c.wf
  | .encoderCount _ e _ _ => below 6 e
  | .indexEdge _ e => below 6 e
  | .stillTimeout _ e => below 6 e
  | .triggerRequest _ slot => below 24 slot
  | .triggerFire _ slot => below 24 slot
  | .minPeriodRelease _ slot => below 24 slot
  | .compareFire _ u => below 16 u
  | .trgPulseEnd _ trg => below 8 trg
  | .linkConfig _ c => c.wf
  | .linkDiscover _ c => c.wf
  | .linkStatus _ c => c.wf
  | .camRead _ c => c.wf
  | .camWrite _ c => c.wf
  | .kx25Config _ c => c.wf
  | .pocxpSwitch _ c => c.wf
  | .prbsTest _ c => c.wf
  | .prbsTestEnd _ lane _ _ _ _ _ => below 96 lane
  | .eyeScan _ c => c.wf
  | .eyeScanDone _ lane _ _ _ fails => below 96 lane && Fails.wf fails
  | .throughConfig _ c => c.wf
  | .linkLock _ link => below 48 link
  | .lockLost _ link => below 48 link
  | .codeErrorLimit _ link _ => below 48 link
  | .discoverTimeout _ slot => below 24 slot
  | .bringupStepTimeout _ slot => below 24 slot
  | .controlAnswer _ slot _ => below 24 slot
  | .controlTimeout _ slot => below 24 slot
  | .adaptSweepDone _ slot _ => below 24 slot
  | .testConnDone _ slot _ => below 24 slot
  | .retryDelayExpired _ slot => below 24 slot
  | .heartbeatTimeout _ slot => below 24 slot
  | .streamPacket _ slot pkt => below 24 slot && pkt.wf
  | .cameraEventPacket _ slot eventId _ _ _ => below 24 slot && below 65536 eventId
  | .triggerAck _ slot => below 24 slot
  | .pocxpDetectDone _ slot _ => below 24 slot
  | .pocxpTrip _ slot _ => below 24 slot
  | .pocxpRetry _ slot => below 24 slot
  | .pocxpSpacingExpired _ => true
  | .vcamLow _ => true
  | .vcamRestored _ => true
  | .laneQualityUpdate _ lane _ _ => below 96 lane
  | .relayLock _ conn _ => below 2 conn
  | .tagTimeout _ slot => below 24 slot
  | .unmatchedLineWait _ slot => below 24 slot
  | .ingestLineWrite _ slot => below 24 slot
  | .ingestWriteComplete _ slot => below 24 slot
  | .planeConfig _ c => c.wf
  | .loadTable _ c => c.wf
  | .readTable _ c => c.wf
  | .setZoneShim _ c => c.wf
  | .planeLine _ slot => below 24 slot
  | .jigDark _ c => c.wf
  | .jigFlat _ c => c.wf
  | .jigGeometry _ c => c.wf
  | .jigResult _ c => c.wf
  | .jigAcquireLine _ slot => below 24 slot
  | .jigComplete _ slot => below 24 slot
  | .jigStageResult _ slot => below 24 slot
  | .jigTimeout _ slot => below 24 slot
  | .gridConfig _ c => c.wf
  | .loadGeometry _ c => c.wf
  | .kerfConfig _ c => c.wf
  | .setSeamShim _ c => c.wf
  | .seamStatus _ c => c.wf
  | .dovetailLine _ => true
  | .importReceived _ _ => true
  | .importTimeout _ => true
  | .classConfig _ c => c.wf
  | .regionConfig _ c => c.wf
  | .ruleConfig _ c => c.wf
  | .segStatus _ c => c.wf
  | .marquetryLine _ => true
  | .edgeMessageReceived _ _ => true
  | .edgeMessageTimeout _ => true
  | .queueConfig _ c => c.wf
  | .queueTrim _ c => c.wf
  | .queueMark _ c => c.wf
  | .queueRewind _ c => c.wf
  | .queueRelease _ c => c.wf
  | .patchConfig _ c => c.wf
  | .markStation _ c => c.wf
  | .queueStatus _ c => c.wf
  | .scribePlaceStrip _ queue => below 16 queue
  | .queueWindowRead _ queue _ size => below 16 queue && below 4097 size
  | .queueHeadRefill _ queue => below 16 queue
  | .queueIdleTimeout _ queue => below 16 queue
  | .patchCut _ queue => below 16 queue
  | .markSettleExpired _ station => below 4 station
  | .markDwellExpired _ station => below 4 station
  | .zoneConfig _ c => c.wf
  | .gritConfig _ c => c.wf
  | .thresholdConfig _ c => c.wf
  | .viewConfig _ c => c.wf
  | .viewCrop _ c => c.wf
  | .profileRead _ c => c.wf
  | .profileLine _ slot => below 24 slot
  | .backgroundRowStore _ field => below 4 field
  | .veneerLine _ stream => below 8 stream
  | .viewFrameForm _ stream => below 8 stream
  | .viewFrameSent _ stream => below 8 stream
  | .ethLinkDown _ port => below 2 port
  | .archiveConfig _ c => c.wf
  | .compressConfig _ c => c.wf
  | .contextSave _ c => c.wf
  | .contextRestore _ c => c.wf
  | .decompress _ c => c.wf
  | .decompressDone _ de fails => below 4 de && Fails.wf fails
  | .archiveStripStart _ => true
  | .compressBlockDone _ ce fails => below 16 ce && Fails.wf fails
  | .partitionConfig _ c => c.wf
  | .portConfig _ c => c.wf
  | .lookback _ c => c.wf
  | .lookbackDone _ ticket fails => below (2 ^ 32) ticket && Fails.wf fails
  | .selfRefresh _ c => c.wf
  | .benchStatus _ c => c.wf
  | .readCapture _ c => c.wf
  | .benchRequest _ req => req.wf
  | .benchIssue _ pch _ => below 64 pch
  | .benchUrgencyRise _ port => below 16 port
  | .ingestDeadline _ slot => below 24 slot
  | .benchReadDone _ _ _ => true
  | .benchParityError _ _ _ => true
  | .benchRefreshDue _ pch => below 64 pch
  | .stackTempChange _ stack _ => below 2 stack
  | .selfRefreshEntered _ => true
  | .autoSelfRefreshTimeout _ => true
  | .selfRefreshExited _ => true
  | .bar4Read _ _ size => below 4097 size
  | .bar4Write _ _ size => below 4097 size
  | .rcRegisterRead _ bar _ size => (bar == 0 || bar == 2) && below 4097 size
  | .registerWrite _ bar _ size v => (bar == 0 || bar == 2) && below 4097 size && below (2 ^ 64) v
  | .pendingClear _ word v => below 32 word && below (2 ^ 32) v
  | .maskWrite _ _ v => below (2 ^ 32) v
  | .vecAck _ v => below 64 v
  | .msixUnmask _ which => which.wf
  | .dmaCfgWrite _ ch _ v => below 64 ch && below (2 ^ 32) v
  | .dmaShadowWrite _ ch _ v => below 64 ch && below (2 ^ 64) v
  | .dmaDoorbell _ ch => below 64 ch
  | .dmaArm _ ch => below 64 ch
  | .dmaAbort _ ch => below 64 ch
  | .dmaReset _ ch => below 64 ch
  | .dmaTimerTick _ timer => below 16 timer
  | .dmaDescFetched _ ch _ fails => below 64 ch && Fails.wf fails
  | .dmaTicketTimeout _ ch => below 64 ch
  | .dmaBurstReadDone _ ch _ fails => below 64 ch && Fails.wf fails
  | .dmaBurstWrite _ fails => Fails.wf fails
  | .dmaDescriptorComplete _ ch => below 64 ch
  | .dmaFlushDone _ ch fails => below 64 ch && Fails.wf fails
  | .d3hotEntry _ => true
  | .configRequest _ _ => true
  | .unsupportedRequest _ => true
  | .perstAssert _ => true
  | .perstDeassert _ => true
  | .hfKey _ _ v => below (2 ^ 32) v
  | .hfKeyExpired _ _ => true
  | .safeStop _ _ _ => true
  | .forceSelfRefresh _ _ => true
  | .releaseSelfRefresh _ _ => true
  | .warmReset _ _ => true
  | .failoverSignal _ _ => true
  | .recoveryBoot _ _ => true
  | .clearLatched _ _ => true
  | .fabricResetHoldExpired _ => true
  | .axisConfig _ c => c.wf
  | .axisMove _ c => c.wf
  | .axisHome _ c => c.wf
  | .axisStop _ c => c.wf
  | .axisGear _ c => c.wf
  | .axisStatus _ c => c.wf
  | .axisStandstill _ c => c.wf
  | .axisProfileUpdate _ axis => below 4 axis
  | .profileWatchdog _ axis => below 4 axis
  | .axisInputChange _ axis input _ => below 4 axis && below 3 input
  | .limitChatter _ axis input => below 4 axis && below 3 input
  | .axisOvercurrent _ axis => below 4 axis
  | .stageTemperature _ axis _ => below 4 axis
  | .vmotorFault _ _ => true
  | .standstillDelayExpired _ axis => below 4 axis
  | .irunRestoreWait _ axis => below 4 axis
  | .strokeHoldExpired _ axis => below 4 axis
  | .homingTimeout _ axis => below 4 axis
  | .timeConfig _ c => c.wf
  | .timeSet _ c => c.wf
  | .timeAdjust _ c => c.wf
  | .ptpConfig _ c => c.wf
  | .timeStatus _ c => c.wf
  | .slewDone _ => true
  | .ptpMessage _ port _ => below 2 port
  | .ptpIntervalTimer _ port _ => below 2 port
  | .timeSourceLost _ => true
  | .arpRequest _ port ip => below 2 port && below (2 ^ 32) ip
  | .ethOtherFrame _ port => below 2 port
  | .ringTimeSend _ => true
  | .ringTimeMessage _ port _ _ => below 2 port
  | .linkDelayEcho _ port _ => below 2 port
  | .ringConfig _ c => c.wf
  | .ringStatus _ c => c.wf
  | .pairConfig _ c => c.wf
  | .pairSwitch _ c => c.wf
  | .pairStatus _ c => c.wf
  | .ringPortDownExpired _ port => below 3 port
  | .ringHello _ port => below 3 port
  | .ringCapability _ port _ => below 3 port
  | .ringLanesLocked _ port => below 3 port
  | .ringLanesAligned _ port => below 3 port
  | .ringTerminationDetected _ port => below 3 port
  | .ringTrainingPattern _ port => below 3 port
  | .ringBringupTimeout _ port => below 3 port
  | .ringKeepaliveTimer _ port => below 3 port
  | .ringLinkLost _ port => below 3 port
  | .ringFenceExpired _ port => below 3 port
  | .ringPacketRx _ port pkt _ => below 3 port && pkt.wf
  | .ringAckRx _ port seq => below 3 port && below (2 ^ 32) seq
  | .ringAckTimeout _ port seq => below 3 port && below (2 ^ 32) seq
  | .ringTopologyMessage _ _ _ => true
  | .enumeration _ => true
  | .relayResultRx _ module queue _ _ => below 64 module && below 16 queue
  | .relayAckRx _ queue seq => below 16 queue && below (2 ^ 32) seq
  | .relayStallTimeout _ queue => below 16 queue
  | .jmHeartbeatTimer _ => true
  | .jmHeartbeatRx _ _ strip => below (2 ^ 32) strip
  | .partnerHeartbeatTimeout _ => true
  | .mirrorTagRx _ tag => tag.wf
  | .mirrorPosRx _ _ _ => true
  | .mirrorJournalRx _ entry => entry.wf
  | .mirrorLedgerRx _ queue rel rd mk => below 16 queue && below (2 ^ 32) rel && below (2 ^ 32) rd && below (2 ^ 32) mk
  | .mirrorMarksRx _ station _ => below 4 station
  | .mirrorDigestRx _ strip crc => below (2 ^ 32) strip && below (2 ^ 32) crc
  | .resyncSnapshotRx _ _ => true
  | .resyncTimeout _ => true
  | .jmOffsetEcho _ _ => true
  | .pairingExchange _ _ => true
  | .partnerFail _ _ => true
  | .selftest _ c => c.wf
  | .selftestDone _ results => results.all TestResult.wf
  | .readFaultLog _ c => c.wf
  | .injectFault _ c => c.wf
  | .injectionLapse _ => true
  | .readCounters _ c => c.wf
  | .paceStatus _ c => c.wf
  | .paceUpdate _ _ => true
  | .fabricWedge _ cause => below 256 cause
  | .fabricResume _ => true
  | .monitorFault _ _ _ => true
  | .monitorFaultRelease _ _ _ => true
  | .junctionWarning _ _ => true
  | .smbusWriteRegister _ off v _ => below 65536 off && below (2 ^ 32) v
  | .smbusSetOffset _ off _ => below 65536 off
  | .smbusRead _ _ => true
  | .smbusAlertResponse _ => true
  | .vauxInRange _ addr _ => below 128 addr
  | .vauxLoss _ => true
  | .vmainInRange _ _ => true
  | .vmainLoss _ => true
  | .vioLow _ _ => true
  | .imageVerifyDone _ _ => true
  | .paceCalibrationDone _ _ => true
  | .benchTrainingDone _ stack0 stack1 => stack0.wf && stack1.wf
  | .startupRingWaitExpired _ => true
  | .cageModuleInserted _ cage identifier powerClass => below 5 cage && below 256 identifier && below 256 powerClass
  | .thInputLockLoss _ conn lane => below 2 conn && below 24 lane
  | .relayCharacterRx _ conn _ => below 2 conn
  | .cameraHeartbeat _ slot => below 24 slot
  | .ethLinkUp _ port => below 2 port
  | .pcieLinkUp _ => true
  | .pcieLinkDown _ => true
  | .safeStopRest _ axis => below 4 axis
  | .announceReceiptTimeout _ port => below 2 port
  | .smbusClockLowTimeout _ => true

end Sys2Proof
end

