-- ==== Sys2Proof/Safety.lean ====
section
/-! DEFINITION. What the claims are stated in: what every command keeps, what a command may change beside its own effect, and when
a Yilgen command is carried out and answered at once. -/

namespace Sys2Proof.Machine

/-- What every command keeps: Bench memory in its canonical form, and no write of an earlier command outstanding. -/
structure State.Inv (s : State) : Prop where
  mem : Memory.wf s.bench.mem = true
  writes : s.bench.writes = []
  emptied : s.bench.emptied = []

/-- The command answers a next state of which `P` holds. -/
def Next (i : Instr) (s : State) (P : State → Prop) : Prop := ∃ r, exec i s = .next r ∧ P r

/-- `r` is `s` but for the time, the outputs and the event block: all else, every byte of the Bench among it, is as it was. -/
def OutFrame (s r : State) : Prop :=
  r = { s with
    now := r.now
    time := { s.time with clock := r.time.clock }
    evOnce := r.evOnce
    host := { s.host with evt := r.host.evt, pcie := { s.host.pcie with heldMsgs := r.host.pcie.heldMsgs } }
    hf := { s.hf with latched := r.hf.latched, latchedEvents := r.hf.latchedEvents }
    emit := r.emit }

/-- `r` is `s` but for the time, the outputs, the event block and what tickets and replies change: the ledger, the commands in
progress, the rings, the broadcasts whose answers are collected, and the count of journal entries. -/
def ReplyFrame (s r : State) : Prop :=
  r = { s with
    now := r.now
    time := { s.time with clock := r.time.clock }
    evOnce := r.evOnce
    host := { s.host with
      evt := r.host.evt
      pcie := { s.host.pcie with heldMsgs := r.host.pcie.heldMsgs }
      rings := r.host.rings }
    hf := { s.hf with latched := r.hf.latched, latchedEvents := r.hf.latchedEvents }
    ledger := r.ledger
    cmds := r.cmds
    ring := { s.ring with broadcasts := r.ring.broadcasts }
    pair := { s.pair with journalEntries := r.pair.journalEntries }
    emit := r.emit }

/-- The slot that the next item takes, and the ticket word it gets (R43). -/
def nextSlot (s : State) : Nat := lowestSlot 0 (mergeAsc s.ledger.issued s.ledger.ended)
def nextTicket (s : State) : Nat := nextSlot s + 2 ^ 18 * sget s.ledger.gens (nextSlot s) 0

/-- A Yilgen packet for this module that the command processor carries out and answers in one step: the fabric runs, a ticket is
free, the ring is enabled, answers in order and has room (R71), the packet's lengths and unit are right, and no fence, passive role
or sleeping stack refuses it. -/
structure Ready (sp : CmdSpec) (c : HostCmd) (s : State) : Prop where
  inv : s.Inv
  fabric : s.hf.fabric = .running
  slot : nextSlot s < ledgerSlots
  gen : sget s.ledger.gens (nextSlot s) 0 < 2 ^ 14
  ring : c.ring < 4
  enabled : (vget s.host.rings c.ring).enabled = true
  first : (vget s.host.rings c.ring).posts = []
  room : 16 ≤ freeSlots s c.ring
  here : c.module = 0xFF ∨ isOwnId s c.module = true
  lengths : lengthsAgree c = true
  length : (sp.need c).2 = true
  unit : sp.unitOk s c = true
  active : passiveRefuses s sp.opcode c = false
  unfenced : ∀ u ∈ sp.units c, fenceOf s u.1 u.2 = none
  awake : ∀ k ∈ [0, 1], (vget s.bench.ctl k).state = .ready
  steps : c.stepFails = 0

/-- The immediate reply is the next in the command's ring: its bytes go to the slots from RPLn_PROD, as far as the ring's end. -/
def Posted (opcode status : Nat) (body : Bytes) (c : HostCmd) (s r : State) : Prop :=
  let p := vget s.host.rings c.ring
  let bytes := replyBytes opcode status c.tag (nextTicket s) s.ring.moduleId 0 body
  Emit.hostWrite (p.rplBase + 64 * p.rplProd) ((replyData p.phase bytes).take (64 * (p.rplSize - p.rplProd))) false ∈ r.emit ∧
  (vget r.host.rings c.ring).unread = p.unread + replySlots bytes

/-- The command has replied ST_OK with a body, and its ticket ended COMPLETE (R88). -/
def Completes (opcode : Nat) (body : Bytes) (c : HostCmd) (s r : State) : Prop :=
  Posted opcode stOk body c s r ∧ r.ledger.complete = s.ledger.complete + 1

/-- The command has replied ST_ACCEPTED with a body and is in progress under its ticket (R83). -/
def Accepts (opcode : Nat) (body : Bytes) (c : HostCmd) (s r : State) : Prop :=
  Posted opcode stAccepted body c s r ∧ r.cmds.any (fun x => decide (x.ticket = nextTicket s) && x.accepted) = true

/-- The command keeps its place in the ring and is answered when it ends (R82). -/
def Deferred (c : HostCmd) (s r : State) : Prop :=
  (vget r.host.rings c.ring).posts = [.waiting (nextTicket s)] ∧ r.cmds.any (fun x => decide (x.ticket = nextTicket s) && !x.accepted) = true

/-- Fewer commands than the limit of R73 are accepted and not completed. -/
abbrev acceptsMore (s : State) : Prop := (s.cmds.filter fun x => x.accepted && decide (x.via ≠ some allModules)).length < 256

/-- The command has replied with an error and its body, and its ticket ended FAILED (R88). -/
def EndsFailed (opcode status : Nat) (body : Bytes) (c : HostCmd) (s r : State) : Prop :=
  Posted opcode status body c s r ∧ r.ledger.failed = s.ledger.failed + 1

/-- The state in which a packet taken at time `t` runs: its ticket has been issued. -/
def taken (t : Nat) (s : State) : State := match issueTicket (tick t s) with | some (_, s') => s' | none => tick t s

/-- A command that stages a setting (R16): where `cond` holds, no glue-up is pending and its claims are free, the edit stands in the
staged configuration, STAGE_GEN counts on, and the reply is ST_OK. -/
def Stages (i : Nat → HostCmd → Instr) (sp : CmdSpec) (cond : HostCmd → State → Prop) (edit : HostCmd → Cfg → Cfg) : Prop :=
  ∀ (t : Nat) (c : HostCmd) (s : State), Ready sp c s → cond c s → s.glue = none → s.ring.prepared = none →
    conflictOf (claimsOf (edit c s.staged) s.marq.shadow.region) (runningClaims s) s.claims sp.opcode c.unit = none →
    Next (i t c) s fun r =>
      r.staged = edit c s.staged ∧ r.stageGen = wrap32 (s.stageGen + 1) ∧ Completes sp.opcode [] c s r ∧
      ReplyFrame { s with
        staged := r.staged
        stageGen := r.stageGen
        gauge := { s.gauge with encStaged := r.gauge.encStaged }
        links := { s.links with linkStaged := r.links.linkStaged } } r

/-- A command that only reads: its reply is ST_OK with a body computed from the state in which it runs, what it writes to host memory is
put out, and nothing else changes. -/
def Answers (i : Nat → HostCmd → Instr) (sp : CmdSpec) (cond : HostCmd → State → Prop) (body : HostCmd → State → Bytes)
    (puts : HostCmd → State → List Emit) : Prop :=
  ∀ (t : Nat) (c : HostCmd) (s : State), Ready sp c s → cond c s →
    Next (i t c) s fun r =>
      Completes sp.opcode (body c (taken t s)) c s r ∧ puts c (taken t s) ⊆ r.emit ∧ ReplyFrame { s with free := r.free } r

/-- A command that acts at once: its reply is ST_OK, and the state is then `new` but for the time, the outputs and what replies change. -/
def Acts (i : Nat → HostCmd → Instr) (sp : CmdSpec) (cond : HostCmd → State → Prop) (body : HostCmd → State → Bytes)
    (new : Nat → HostCmd → State → State) : Prop :=
  ∀ (t : Nat) (c : HostCmd) (s : State), Ready sp c s → cond c s →
    Next (i t c) s fun r => Completes sp.opcode (body c (taken t s)) c s r ∧ ReplyFrame (new t c s) r

/-- A command that is accepted and runs on: its reply is ST_ACCEPTED, and the state is then `new` but for the same. -/
def Starts (i : Nat → HostCmd → Instr) (sp : CmdSpec) (cond : HostCmd → State → Prop) (new : Nat → HostCmd → State → State) : Prop :=
  ∀ (t : Nat) (c : HostCmd) (s : State), Ready sp c s → acceptsMore s → cond c s →
    Next (i t c) s fun r => Accepts sp.opcode [] c s r ∧ ReplyFrame (new t c s) r

/-- A command that is answered when it ends: it keeps its place in its ring, and the state is then `new` but for the same. -/
def Waits (i : Nat → HostCmd → Instr) (sp : CmdSpec) (cond : HostCmd → State → Prop) (new : Nat → HostCmd → State → State) : Prop :=
  ∀ (t : Nat) (c : HostCmd) (s : State), Ready sp c s → cond c s →
    Next (i t c) s fun r => Deferred c s r ∧ ReplyFrame (new t c s) r

/-- The write that LOAD_TABLE asks for: the entries of its source, for one table of the slot. -/
def tableLoaded (c : HostCmd) (s : State) : TableWrite :=
  let p := parTable c.params
  { kind := p.kind, field := p.field, first := p.first, vals := tableEntries p (bulkData c p.ref s) }

/-- The state with a slot's shadow table bank, the shadow geometry map of a slot, or the shadow segmentation bank changed, and STAGE_GEN
counted on (R98). -/
def counted (s : State) : State := { s with stageGen := wrap32 (s.stageGen + 1) }
def mapShadow (slot : Nat) (f : MapBank → MapBank) (s : State) : State := { s with dovetail := { s.dovetail with maps := vmod s.dovetail.maps slot f } }
def segShadow (f : SegBank → SegBank) (s : State) : State := { s with marq := { s.marq with shadow := f s.marq.shadow } }
def holdSeg (w : SegWrite) (s : State) : State := { s with marq := { s.marq with held := s.marq.held ++ [w] } }

/-- The web line from which a live trim of a slot, of the seams, or of a view stream is in force (R17, R705). -/
def planeTrimLine (slot : Nat) (s : State) : Nat := trimLine s ((planeNext s slot).getD (s.gauge.startLine.getD 0))
def seamTrimLine (s : State) : Nat := trimLine s ((dovetailNext s).getD (s.gauge.startLine.getD 0))
def viewTrimLine (v : Nat) (s : State) : Nat := trimLine s ((viewNext s v).getD (s.gauge.startLine.getD 0))

/-- The zone shims of a slot as SET_ZONE_SHIM leaves them: values set, reset, or the references of drift tracking captured anew. -/
def zonesTrimmed (c : HostCmd) (s : State) : State :=
  let f := u8 c.params 0
  let line := planeTrimLine c.unit s
  let write (z v : Nat) (s : State) : State := if trimWaits s then addTrim (.zoneShim c.unit f z v line) s else hostShim c.unit f z v line s
  let zones := (vget (unitCfg s (.plane c.unit)).zone c.unit).zones
  match u8 c.params 1 with
  | 0 => (List.range (u8 c.params 3)).foldl (fun s i => write (u8 c.params 2 + i) (u16 c.params (4 + 2 * i)) s) s
  | 1 => (List.range 64).foldl (fun s z => write z 16384 s) s
  | _ => if trimWaits s then addTrim (.zoneRef c.unit f zones line) s else recapture c.unit f zones line s

/-- What a query writes to the host memory that its bulk reference names. -/
def bulkEmits (ref : BulkRef) (data : Bytes) : List Emit := if data = [] then [] else [.hostWrite ref.addr data false]

/-- Table entries that READ_TABLE asks for. -/
def tableAsked (c : HostCmd) (s : State) : List Nat :=
  let p := parTable c.params
  let x := vget s.plane.slots c.unit
  tableRead (if p.bank = 0 then x.active else x.captured.getD x.shadow) p.kind p.field p.first p.count

/-- The Jig result that JIG_RESULT asks for. -/
def jigHeld (c : HostCmd) (s : State) : Option JigHeld :=
  s.plane.results.find? fun h => decide (h.slot = c.unit) && decide (h.kind = jigKindOf (u8 c.params 0))

/-- The log that READ_FAULT_LOG asks for, and the number of one of its entries. -/
def logAsked (c : HostCmd) (s : State) : List FaultEntry := if u8 c.params 2 = 0 then s.faults.log else s.faults.flash
def entryNumber (e : Option FaultEntry) : Nat := match e with | some e => e.num | none => 0

/-- What READ_COUNTERS reads: the group's block size and count, how many blocks it asks for, and how many its reply holds. -/
def blockShape (c : HostCmd) : Nat × Nat := (counterGroup (u8 c.params 0)).getD (1, 0)
def blocksAsked (c : HostCmd) : Nat :=
  let left := (blockShape c).2 - u8 c.params 1
  if u8 c.params 2 = 0 then left else min (u8 c.params 2) left
def blocksGiven (c : HostCmd) : Nat := min (blocksAsked c) (1000 / (blockShape c).1)

/-- The marks that QUEUE_STATUS of a station asks for: none without a bulk reference. -/
def marksAsked (c : HostCmd) (s : State) : List Mark :=
  let x := vget s.scribe.stations (c.unit - 16)
  if c.paramLen = 0 then [] else (x.pending ++ x.ended).take ((parBulk c.params 0).length / 32)

/-- The latest background row of the field that PROFILE_READ asks for. -/
def rowAsked (c : HostCmd) (s : State) : BgRow := ((vget s.prof.bg (u8 c.params 0)).rows.getLast?).getD default

/-- A command that is turned away: an error reply, and nothing else changes. -/
def Refuses (i : Nat → HostCmd → Instr) (sp : CmdSpec) (cond : HostCmd → State → Prop) (status : Nat) (body : HostCmd → State → Bytes) : Prop :=
  ∀ (t : Nat) (c : HostCmd) (s : State), Ready sp c s → cond c s →
    Next (i t c) s fun r => EndsFailed sp.opcode status (body c (taken t s)) c s r ∧ ReplyFrame s r

/-! ### What happens by itself -/

/-- The fabric runs. -/
abbrev up (s : State) : Prop := s.hf.fabric = .running

/-- What happens at a time: where `cond` holds of the state with time passed, the state is then `new` but for the time, the outputs and
the event block; each source of `evs` is pending, and `puts` are put out. -/
def Happens (i : Nat → Instr) (cond : State → Prop) (new : State → State) (evs : List Nat) (puts : State → List Emit) : Prop :=
  ∀ (t : Nat) (s : State), s.Inv → cond (tick t s) →
    Next (i t) s fun r =>
      r.now = max s.now t ∧ OutFrame (new (tick t s)) r ∧ (∀ e ∈ evs, bitOf r.host.evt.pending e = true) ∧ puts (tick t s) ⊆ r.emit

/-- A command in progress under a ticket of this module. -/
structure InProgress (w : Nat) (c : CmdRec) (s : State) : Prop where
  found : cmdOf s w = some c
  direct : c.via = none
  heard : c.silent = false
  live : ticketLive s.ledger w = true

/-- The command is over: its ticket has ended, COMPLETE or FAILED by its status (R88), and it is in progress no longer. -/
def Over (w status : Nat) (c : CmdRec) (s r : State) : Prop :=
  cmdOf r w = none ∧
  r.ledger.complete = s.ledger.complete + (if status < 0x8000 then 1 else 0) ∧
  r.ledger.failed = s.ledger.failed + (if status < 0x8000 then 0 else 1) ∧
  (c.accepted = true → r.stageGen = s.stageGen)

/-- What ends a command: as `Happens`, and the command is over with a status. -/
def Concludes (i : Nat → Instr) (cond : State → Prop) (w status : State → Nat) (new : State → State) (evs : List Nat)
    (puts : State → List Emit) : Prop :=
  ∀ (t : Nat) (s : State) (c : CmdRec), s.Inv → cond (tick t s) → InProgress (w (tick t s)) c s →
    Next (i t) s fun r =>
      r.now = max s.now t ∧ Over (w (tick t s)) (status (tick t s)) c s r ∧ ReplyFrame { new (tick t s) with stageGen := r.stageGen } r ∧
      (∀ e ∈ evs, bitOf r.host.evt.pending e = true) ∧ puts (tick t s) ⊆ r.emit

/-- Nothing is put out that need be named. -/
def noPuts (_ : State) : List Emit := []

/-- Nothing waits on a slot's connection: no LINK_DISCOVER, no control transaction, no Jig command, no line in transfer. -/
abbrev Calm (slot : Nat) (s : State) : Prop :=
  (vget s.links.slots slot).discover = none ∧ (vget s.links.slots slot).ctrl = [] ∧ (vget s.links.slots slot).stream.lineStart = none ∧
    vget s.plane.jig slot = none

/-- The slot's connection in another state of Table 4-4, entered now. -/
def connIn (slot : Nat) (st : ConnState) (cause : ConnCause) (s : State) : State :=
  setSlotLink slot (fun x => { x with state := st, cause := cause, since := s.now }) s

/-- The slot's connection in ERROR, with what it had received of a packet stream dropped. -/
def connLost (slot : Nat) (cause : ConnCause) (s : State) : State :=
  setSlotLink slot (fun x => { x with state := .error, cause := cause, since := s.now, stream := {} }) s

/-- A control transaction put behind those of the slot that wait; on an idle slot it starts, with 200 ms and at most 10 s to its answer. -/
def txnQueued (slot : Nat) (x : CtrlTxn) (now : Nat) (s : State) : State :=
  setSlotLink slot (fun y =>
    if y.ctrl = [] then { y with ctrl := [x], ctrlRetried := false, ctrlDeadline := now + 200000000, ctrlLatest := now + 10000000000 }
    else { y with ctrl := y.ctrl ++ [x] }) s

/-- A slot at SEARCH: its links unlocked, with no rate, at the beginning of a bring-up. -/
def searching (slot : Nat) (s : State) : State :=
  setSlotLink slot (fun x => { x with state := .search, cause := .none, since := s.now, rate := 0, links := 0, repeated := false, kxFails := 0, kxGiveUp := false })
    (setLanes (slotLinks s slot) (fun l => { l with locked := false }) { s with scribe := { s.scribe with slotLine := vset s.scribe.slotLine slot none } })

/-- A lane's lock. -/
def laneLocked (lane : Nat) (s : State) : Bool := (vget s.links.lanes lane).locked

/-- No glue-up is pending, the module stands alone, and no stop of line triggering is under way. -/
abbrev lone (s : State) : Prop := s.glue = none ∧ s.pair.role = .solo ∧ s.pair.switchAt = none ∧ s.gauge.stopAfter = none

/-- No marker station is in use. -/
abbrev noStations (s : State) : Prop := ∀ t : Nat, t < 4 → (vget (cfgNow s).station t).enable = false

/-- No compare unit is in use. -/
abbrev noCompares (s : State) : Prop := ∀ u : Nat, u < 16 → (vget (cfgNow s).cmp u).enable = false

/-- No axis is ready to engage its gearing. -/
abbrev noGearing (s : State) : Prop := ∀ a : Nat, a < 4 → (vget s.axes.ax a).gearArmed = false

/-- No trigger request is ripe: none fires at the present time. -/
abbrev noneRipe (s : State) : Prop := ∀ i : Nat, i < 24 → ripe s.now (vget s.gauge.slots i) = []

/-- An encoder as an accepted count leaves it: R135, and the time stamps of R148. -/
def counted1 (forward : Bool) (stamp now : Nat) (x : Encoder) : Encoder :=
  { x with
    dir := some forward
    position := x.position + (if forward then 65536 else -65536)
    counts := x.counts + 1
    times := (stamp :: (if x.still then [] else x.times)).take 65
    lastCount := some now
    still := false }

/-- The Bench after runs of bytes are written, in their order. -/
def written (ws : List (Nat × Bytes)) (s : State) : State := { s with bench := { s.bench with mem := applyWrites s.bench.mem ws } }

/-- A source limited to once per strip has not been raised in a strip. -/
abbrev firstIn (src strip : Nat) (s : State) : Prop := sget s.evOnce src 0 ≠ strip + 1

/-- The ready point of a slot waits at a web line other than `line`. -/
abbrev readyHeld (slot line : Nat) (s : State) : Prop :=
  ∃ c, (vget s.ingest.slots slot).nextReady = some c ∧ c ≠ line ∧ passOver s slot c = c ∧ lineWritten s slot c = false

/-- A line tag or a line of samples of a slot in its ring (R263). -/
def tagPlace (slot line field : Nat) (s : State) : Nat := (layoutAt s slot).base + ringTagOff (layoutAt s slot) line (isSlotB slot) field
def samplePlace (slot line field : Nat) (s : State) : Nat := (layoutAt s slot).base + ringSampleOff (layoutAt s slot) line (isSlotB slot) field

/-- A web line of one field that the Plane begins for a slot and that the profile chain takes: no glue-up, drift, trim, late gap or partner
has a part in it. -/
abbrev planePlain (slot n : Nat) (s : State) : Prop :=
  up s ∧ s.glue = none ∧ s.pair.role = .solo ∧ (vget s.plane.slots slot).out = [] ∧ bitOf (vget (cfgAt s n).grit slot).fields 0 = true ∧
  (∀ l ∈ (vget s.prof.slots slot).last, l.1 = 0 → atOrAfter l.2 n = false) ∧ s.pair.trims = [] ∧ planeNext s slot = some n ∧ inSpans s n = true ∧ isReady s slot n = true ∧ ingestOn (cfgAt s n) slot = true ∧
  fieldsOf (cfgAt s n) = 1 ∧ isFenced s 0x04 slot = false ∧ (vget s.plane.slots slot).ends = [] ∧ (vget s.plane.slots slot).updates = [] ∧
  (vget (cfgAt s n).plane slot).drift = 0 ∧ (vget s.ingest.slots slot).gapsWaiting = [] ∧ (vget s.ingest.slots slot).relaid = []

/-- The Plane with a corrected line of a slot put out. -/
def planed (slot n : Nat) (l : CorrLine) (f : PlaneCounters → PlaneCounters) (s : State) : State :=
  setSlotPlane slot (fun x => { x with last := some n, out := x.out ++ [l], cnt := f x.cnt }) s

/-- A Jig command of a slot is over: its claim and run are dropped and its result is kept. -/
def jigOver (slot : Nat) (j : JigRun) (f : JigFigures) (cands : List JigCand) (s : State) : State :=
  { s with
    claims := s.claims.filter fun c => !(decide (c.kind = 0x0E) && decide (c.opcode = jigOpcode j.par.kind) && decide (c.unit = slot))
    plane := { s.plane with
      jig := vset s.plane.jig slot none
      results := (s.plane.results.filter fun h => !(decide (h.slot = slot) && decide (h.kind = j.par.kind))) ++ [⟨slot, j.par.kind, f, cands⟩] } }

/-- A Jig command that a slot can start: its connection carries lines, its fields are configured, and no link of its group is claimed. -/
abbrev jigFree (kind : JigKind) (c : HostCmd) (s : State) : Prop :=
  badJig kind c.params = none ∧ connUp s c.unit = true ∧ (∀ f ∈ maskFields (parJig kind c.params).fields, f < fieldsOf (cfgNow s)) ∧
  vget s.plane.jig c.unit = none ∧ ∀ l ∈ slotLinks s c.unit, rtHolder s 0x0E l = none

/-- The state in which a Jig command runs: its links claimed, the slot's last result of its kind dropped. -/
def jigStarted (kind : JigKind) (t : Nat) (c : HostCmd) (s : State) : State :=
  { s with
    claims := s.claims ++ (slotLinks s c.unit).map fun l => ⟨0x0E, l, jigOpcode kind, c.unit⟩
    plane := { s.plane with
      results := s.plane.results.filter fun h => !(decide (h.slot = c.unit) && decide (h.kind = kind))
      jig := vset s.plane.jig c.unit (some { par := parJig kind c.params, ticket := nextTicket s, start := max s.now t }) } }

/-- No glue-up is pending and the module stands alone. -/
abbrev alone (s : State) : Prop := s.glue = none ∧ s.pair.role = .solo

/-- No slot has a late gap, a RELAID line, or corrected lines that wait, but for slot `i`. -/
abbrev slotsClear (i : Nat) (s : State) : Prop :=
  ∀ k : Nat, k < 24 → (vget s.ingest.slots k).gapsWaiting = [] ∧ (vget s.ingest.slots k).relaid = [] ∧ (k ≠ i → (vget s.plane.slots k).out = [])

/-- A web line of one field that the Dovetail stitches from one slot: no trim, update, import or re-lay has a part in it. -/
abbrev stitchPlain (i n : Nat) (g : GridCfg) (s : State) : Prop :=
  up s ∧ partUp s 12 = true ∧ alone s ∧ slotsClear i s ∧ s.pair.trims = [] ∧ dovetailNext s = some n ∧ (cfgAt s n).grid = some g ∧ g.order = [i] ∧
  g.anchor = 0 ∧ g.importCols = 0 ∧ g.exportCols = 0 ∧ inSpans s n = true ∧ slotsReady s n = true ∧ isFenced s 0x05 0 = false ∧
  stripLayout (cfgAt s n) = s.dovetail.layout ∧ s.dovetail.layout.lines ≠ 0 ∧ rowFree s n = true ∧ (cfgAt s n).bg.fields = 0 ∧
  fieldsOf (cfgAt s n) = 1 ∧ s.dovetail.updates = [] ∧ s.dovetail.imports = [] ∧ s.dovetail.importMissing = [] ∧
  bitOf (vget (cfgAt s n).grit i).fields 0 = false ∧ ∀ e ∈ (vget s.plane.slots i).out, e.line = n ∧ e.field = 0

/-- The web line that such a slot gives: its row, its void columns, its stitched tag, and the Dovetail and the ring with them. -/
def stitchSource (n : Nat) (g : GridCfg) (s : State) : Source := (sourcesOf s g n 0).headD {}
def stitchColumns (n : Nat) (g : GridCfg) (s : State) : List (Nat × Bool) := (List.range g.columns).map (formColumn g [] #[stitchSource n g s])
def stitchTag (i n : Nat) (g : GridCfg) (s : State) : Bytes :=
  let x := stitchSource n g s
  stitchedTag n (posOfLine s n) (lineTagStime x.tag) 0
    (slotFlags [x] ||| flagBit x.gap 3 ||| flagBit x.sat 4 ||| flagBit (decide (0 < s.dovetail.uncovered)) 8)
    (if x.gap then 2 ^ i else 0) (if x.sat then 2 ^ i else 0) (stripAt s n)
def stitched (i n : Nat) (g : GridCfg) (s : State) : State :=
  let cols := stitchColumns n g s
  let voids := spansOf (cols.map (·.2)) 0
  let l := s.dovetail.layout
  written [(l.base + stripSampleOff l n 0, packRow (cols.map (·.1))), (l.base + stripTagOff l n 0, stitchTag i n g s)]
    (setSlotPlane i (fun x => { x with out := [] }) { s with dovetail := { s.dovetail with
      last := some n
      voids := if voids = [] then s.dovetail.voids else s.dovetail.voids ++ [⟨n, 0, voids⟩]
      cnt := { s.dovetail.cnt with
        stitched := wrap32 (s.dovetail.cnt.stitched + 1)
        dropped := if (stitchSource n g s).gap then wrap32 (s.dovetail.cnt.dropped + 1) else s.dovetail.cnt.dropped } } })

/-- A web line that Marquetry takes with no region open: nothing of an edge, a trim or the partner has a part in it. -/
abbrev marqPlain (n : Nat) (g : GridCfg) (s : State) : Prop :=
  up s ∧ partUp s 12 = true ∧ alone s ∧ s.pair.snapshot = none ∧ s.pair.atStrip = none ∧ s.pair.trims = [] ∧ marqNext s = some n ∧
  (cfgAt s n).grid = some g ∧ g.importCols = 0 ∧ g.exportCols = 0 ∧ inSpans s n = true ∧ isStitched s n = true ∧ isFenced s 0x06 0 = false ∧
  bgReady s (segBankFor s n) n = true ∧ s.marq.regions = [] ∧ s.marq.window = [] ∧ s.marq.closed = [] ∧ s.marq.overflow = none ∧
  s.marq.edges = [] ∧ s.marq.edgeMissing = [] ∧ s.marq.warned = false ∧ s.marq.lineFlags = [] ∧ (regionCfg s.marq.active).tableWarn = 0 ∧
  s.dovetail.voids = []

/-- Marquetry with a web line behind it whose segmented spans are given. -/
def marqTaken (n : Nat) (spans : List (Nat × Nat)) (s : State) : State :=
  { s with marq := { s.marq with last := some n, spans := (n, spans) :: s.marq.spans.take 1 } }

/-- The queue of live records is open, has room, and its next record raises no threshold. -/
abbrev queueTakes (q : Nat) (s : State) : Prop :=
  (vget s.scribe.queues q).on = true ∧ unreleased (vget s.scribe.queues q) < (vget s.scribe.queues q).cap ∧
  (vget s.scribe.queues q).thresholdDone = false ∧
  ((vget s.scribe.queues q).threshold = 0 ∨ unread (vget s.scribe.queues q) + 1 < (vget s.scribe.queues q).threshold)

/-- A queue with a record written at WR under a ticket (R430, R434). -/
def queued (q strip ticket now : Nat) (x : Queue) : Queue :=
  { x with
    wr := wrap32 (x.wr + 1)
    head := if x.head = unread x ∧ x.head < 32 then x.head + 1 else x.head
    live := x.live ++ [{ seq := x.wr, strip, ticket }]
    idleSince := if x.wr = x.rd then now else x.idleSince
    cnt := { x.cnt with written := wrap32 (x.cnt.written + 1) } }

/-- The state with the next ticket issued. -/
def issued (s : State) : State := match issueTicket s with | some (_, s') => s' | none => s

/-- A corrected line of field 0 of a slot with one zone, which the profile chain takes first after a restart; the slot is not in ORDER. -/
abbrev profilePlain (slot : Nat) (e : CorrLine) (s : State) : Prop :=
  up s ∧ alone s ∧ e.field = 0 ∧ e.gap = false ∧ (vget s.plane.slots slot).out = [e] ∧ (vget s.plane.slots slot).ends = [] ∧
  (vget (cfgAt s e.line).grit slot).fields = 1 ∧ (vget (cfgAt s e.line).zone slot).zones = 1 ∧ (orderOf (cfgAt s e.line)).contains slot = false ∧
  (vget s.prof.slots slot).zones = [] ∧ (vget s.prof.slots slot).last = []

/-- The pixels of a line's zone 0, and the zone's filters with their mean (R464 to R467). -/
def zonePixels (slot : Nat) (e : CorrLine) (s : State) : List Nat :=
  let b := (vget (cfgAt s e.line).zone slot).bounds
  (e.samples.take (min (min (b.getD 1 0) e.samples.length) (lineTagReceived e.tag))).drop (b.getD 0 0)
def zoneTaken (slot : Nat) (e : CorrLine) (s : State) : ZoneState × Bool :=
  let px := zonePixels slot e s
  zoneStep (vget (cfgAt s e.line).grit slot) e.line (meanQ18 px.sum px.length) {}

/-- The profile chain of a slot with that line behind it. -/
def profiled (slot : Nat) (e : CorrLine) (z : ZoneState) (f : SlotProfile → SlotProfile) (s : State) : State :=
  setProf slot (fun x => f { x with zones := [z], last := [(0, e.line)] }) (setSlotPlane slot (fun x => { x with out := [] }) s)

/-- A web line that a view stream takes: no trim has a part in it. -/
abbrev viewPlain (v n : Nat) (s : State) : Prop :=
  up s ∧ partUp s 12 = true ∧ alone s ∧ s.pair.trims = [] ∧ viewNext s v = some n ∧ inSpans s n = true ∧ isStitched s n = true ∧
  isFenced s 0x08 v = false

/-- The oldest waiting frame of a stream without an overlay can be formed. -/
abbrev frameReady (v : Nat) (f : ViewFrame) (rest : List ViewFrame) (s : State) : Prop :=
  up s ∧ partUp s 12 = true ∧ (vget s.views v).waiting = f :: rest ∧ (vget s.views v).sending = none ∧ isStitched s f.lastLine = true ∧
  (vget (cfgAt s f.lastLine).view v).overlay = false ∧ s.scribe.boxes = []

/-- What that frame is sent as (R484, R490, R493). -/
def frameFormed (v : Nat) (f : ViewFrame) (s : State) : SentFrame :=
  let cfg := cfgAt s f.lastLine
  let c := vget cfg.view v
  let tag := readStitchedTag s f.firstLine c.field
  let flags := (List.range (c.height * c.ys)).foldl (fun m i => m ||| stTagFlags (readStitchedTag s (wrap32 (f.firstLine + i)) c.field)) 0
  let base := match cfg.grid with | some g => g.base | none => 0
  let header := viewHeader v c f base (stTagPos tag) (stTagStime tag) flags (stripOf cfg.shift f.lastLine + c.lag) 0
  { ticket := f.ticket, header, image := frameImage s c f, overlay := [], delivery := c.delivery, port := c.port,
    datagrams := if c.delivery = 1 then viewDatagrams v c f header (frameImage s c f) [] else [] }

/-- A compressor with a block done (R526). -/
def blocked (j : CeJob) (s : State) (c : CeCounters) : CeCounters :=
  let b := blockFrame s j
  { c with
    blocks := wrap32 (c.blocks + 1)
    stored := wrap32 (c.stored + (if b.2.2 then 1 else 0))
    rawBytes := c.rawBytes + (min j.raw.length ((j.blockSeq + 1) * blockBytes) - j.blockSeq * blockBytes)
    packedBytes := c.packedBytes + (b.1.length - 32) }

/-- What happens at a time, with every field of the state that follows. -/
def Exactly (i : Nat → Instr) (cond : State → Prop) (new : State → State) : Prop :=
  ∀ (t : Nat) (s : State), s.Inv → cond (tick t s) → exec (i t) s = .next (new (tick t s))

/-- An access of BAR0 that finds the fabric not running is counted (R583). -/
def wedgedAccess (s : State) : State := { s with hf := { s.hf with bar0Wedged := wrap32 (s.hf.bar0Wedged + 1) } }

/-- No DMA channel is between capture and swap. -/
abbrev noLocks (s : State) : Prop := ∀ c : Nat, c < 64 → (vget s.dma.ch c).lockUntil = none

/-- The first bytes of a reply that a ring has room for are put out at its RPLn_PROD. -/
def replyOut (n : Nat) (bytes : Bytes) (s : State) : Emit :=
  let p := vget s.host.rings n
  .hostWrite (p.rplBase + 64 * p.rplProd) ((replyData p.phase bytes).take (64 * (p.rplSize - p.rplProd))) false

/-- A ring posts at once whatever reply comes next. -/
abbrev postsNow (n : Nat) (s : State) : Prop :=
  n < 4 ∧ (vget s.host.rings n).enabled = true ∧ (vget s.host.rings n).posts = [] ∧ 16 ≤ freeSlots s n

/-- No DMA channel's swap is due. -/
abbrev locksHeld (s : State) : Prop := ∀ c : Nat, c < 64 → (vget s.dma.ch c).lockUntil.all (fun t => decide (s.now < t)) = true

/-- A DMA channel that starts the next descriptor of its set (R604), and the channel of a descriptor that has ended. -/
def fetchingNow (x : DmaChan) : DmaChan := { x with state := .run, fetching := true, passiveHold := false }

/-- A DMA channel runs a descriptor of a set that no other channel is chained to. -/
abbrev dmaRuns (c : Nat) (d : DmaRun) (s : State) : Prop :=
  c < 64 ∧ (vget s.dma.ch c).run = some d ∧ d.waiting = false ∧ d.frame = none ∧ d.slots = [] ∧ ticketLive s.ledger d.ticket = true ∧
  ∀ k : Nat, k < 64 → modeStart (vget s.dma.ch k).active.mode ≠ 2

/-- The claim that a move by command holds on an axis has ended. -/
def unmoved (a : Nat) (s : State) : State :=
  { s with claims := s.claims.filter fun c =>
      !(decide (c.kind = 0x0D) && decide (c.index = a) && decide (c.opcode = 0x0D01) && decide (c.unit = a)) }

/-- An axis whose motion is over: nothing waits on it, and it is as R641 leaves it at rest, in a state and since a time. -/
def restingAxis (st : AxisState) (now : Nat) (x : Axis) : Axis :=
  { x with
    state := st
    vq := 0
    aq := 0
    scribe := false
    stroke := none
    stopping := none
    softBrake := false
    held := none
    due := none
    irunUntil := none
    restAt := some now }

/-- What an axis was to do is dropped. -/
def droppedAxis (x : Axis) : Axis :=
  { x with moveWait := none, moveDue := none, stroke := none, gear := none, scribe := false, softBrake := false }

/-- A protection has put an axis in FAULT (R626). -/
def protectedAxis (cause : AxisCause) (now : Nat) (x : Axis) : Axis :=
  { restingAxis .fault now (droppedAxis x) with
    cause := cause
    homed := false
    bridgesOff := true
    standstill := none
    restAt := none
    cnt := { x.cnt with faults := wrap32 (x.cnt.faults + 1) } }

/-- An axis that decelerates to rest, without a jerk limit. -/
def brakingAxis (p : Stopping) (x : Axis) : Axis :=
  { droppedAxis x with state := .stopping, stopping := some p, irunUntil := none, due := none }

/-- An axis that the profile generator updates at this time, without a jerk limit, a stall watch or anything that waits for it. -/
abbrev updates (a : Nat) (s : State) : Prop :=
  up s ∧ noStations s ∧ (vget s.axes.ax a).moveDue = none ∧ (vget s.axes.ax a).gearDue = false ∧ (vget s.axes.ax a).irunUntil = none ∧
  (vget s.axes.ax a).lastUpdate + 1000 ≤ s.now ∧ (axisCfg s a).jerk = 0 ∧ (axisCfg s a).stallEn = false

/-- The position and velocity that R627 gives an axis at its next update, and whether it has arrived. -/
def axisNext (a : Nat) (s : State) : Int × Int × Bool :=
  let c := axisCfg s a
  let x := vget s.axes.ax a
  axisStep c.vmax c.accel c.decel x.xq x.vq (x.target * 2 ^ 32)

/-- Every axis is DISABLED. -/
abbrev axesOff (s : State) : Prop := ∀ a : Nat, a < 4 → (vget s.axes.ax a).state = .disabled

/-- A path of HF_OP with a valid key reaches the Holdfast, and no operation is in progress (R618, R729). -/
abbrev keyedPath (path : HfPath) (s : State) : Prop := path ≠ .auto ∧ hfReached s path = true ∧ keyValid s path = true ∧ s.hf.busy = none

/-- An operation has been taken by a path: its key is used up, and it is counted. -/
def opTaken (op result : Nat) (busy : Option (HfBusy × HfPath)) (path : HfPath) (s : State) : State :=
  { s with hf := { s.hf with
    keys := s.hf.keys.filter fun k => decide (k.1 ≠ path)
    opsTaken := s.hf.opsTaken + 1
    lastOp := op
    opResult := result
    busy := busy } }

/-- An operation has been refused with a result: its key is used up. -/
def opRefused (op result : Nat) (path : HfPath) (s : State) : State :=
  { s with hf := { s.hf with keys := s.hf.keys.filter fun k => decide (k.1 ≠ path), lastOp := op, opResult := result } }

/-- Nothing of the module is under way that a reset of the fabric would end: triggering is off, every axis is DISABLED, the module stands
alone, and the Bench serves requests with none waiting. -/
abbrev stillModule (s : State) : Prop :=
  s.gauge.trigEnabled = false ∧ axesOff s ∧ s.pair.role = .solo ∧ s.glue = none ∧ (vget s.bench.ctl 0).state = .ready ∧
  (vget s.bench.ctl 1).state = .ready ∧ (vget s.bench.ctl 0).pending = [] ∧ (vget s.bench.ctl 1).pending = []

/-- A warm fabric reset, or a recovery boot, has begun (Table 18-4, steps 1 to 3). -/
abbrev ResetBegun (recovery : Bool) (path : HfPath) (cause : Nat) (s r : State) : Prop :=
  r.hf.fabric = .resetting ∧ r.hf.busy = some (if recovery then .recoveryBoot else .warmReset, path) ∧
  r.boot = { s.boot with
    stage := 2, recovery := recovery, warm := true, cause := cause, refTime := r.now, readyMs := 0
    warmResets := wrap32 (s.boot.warmResets + 1), fw := none, verifying := false, ready := false, holdUntil := none } ∧
  r.gauge = { s.gauge with trigHalted := true } ∧ r.axes = s.axes ∧
  r.bench = { s.bench with entering := some s.bench.nextReq, exiting := false, autoEntered := false, forced := true } ∧
  r.faults.cnt = { s.faults.cnt with warmResets := wrap32 (s.faults.cnt.warmResets + 1) } ∧
  (∃ e, r.faults.log.getLast? = some e ∧ e.cls = 9 ∧ e.unit = 0x12 ∧ e.holdfast = true ∧ e.cause = (if recovery then 4 else 3)) ∧
  r.ledger = s.ledger ∧ r.running = s.running ∧ r.staged = s.staged ∧ r.cmds = s.cmds

/-! ### Time -/

/-- Ring time of the module that a time message comes from steers this module's clock (R671, R672). -/
abbrev followsRing (payload : Bytes) (s : State) : Prop :=
  (cfgNow s).time.source = 2 ∧ (cfgNow s).time.ringMaster = u8 payload 24

/-- The path of a time message: the CORRECTION it carries and the delay of the link it came by, in ns (R671). -/
def ringPath (port : Nat) (payload : Bytes) (s : State) : Int := Int.fdiv (s64 payload 16) 65536 + linkDelay s port

/-- The local clock less the master's time (R672). -/
def ringOffset (port : Nat) (payload : Bytes) (s : State) : Int :=
  clockNs s.time.clock - ((u64 payload 0 * 1000000000 + u32 payload 8 : Nat) + ringPath port payload s)

/-- The clock `k` steered: ADDEND within MAX_SLEW_PPM of nominal, no slew, and the time as it was (R668). -/
abbrev Steered (k : Clock) (ppm : Nat) (r : Clock) : Prop :=
  8589934592 - 8589934592 * ppm / 1000000 ≤ r.addend ∧ r.addend ≤ 8589934592 + 8589934592 * ppm / 1000000 ∧
  r = { k with addend := r.addend, slew := 0 }

/-- A port sends at once what it is given. -/
abbrev sends (p : Nat) (s : State) : Prop := isPortUp (vget s.ring.ports p).state = true ∧ (vget s.ring.ports p).unacked.length < 256

/-- The time message of the ring master (R690). -/
def masterTime (s : State) : RingPkt := { cls := 1, src := s.ring.moduleId, dst := 0xFE, payload := timePayload s }

/-- A packet has gone out through a port and waits for its acknowledgement (R684). -/
def sent (p : Nat) (pkt : RingPkt) (s : State) : State :=
  setLinkPort p (fun x => { x with
    nextSeq := wrap32 (x.nextSeq + 1)
    unacked := x.unacked ++ [{ pkt := { pkt with seq := x.nextSeq }, sentAt := s.now, retried := false }]
    cnt := { x.cnt with tx := wrap32 (x.cnt.tx + 1) } }) s

/-- PTP runs on a port with link. -/
abbrev runs (port : Nat) (s : State) : Prop := ptpRuns s port = true ∧ (vget s.time.ports port).linkUp = true

/-- The port is past INITIALIZING, and neither FAULTY nor DISABLED. -/
abbrev awake (port : Nat) (s : State) : Prop :=
  (vget s.time.ports port).state ≠ .initializing ∧ (vget s.time.ports port).state ≠ .faulty ∧ (vget s.time.ports port).state ≠ .disabled

/-- The offset that a one-step Sync gives: receive time less origin time less the mean path delay (R665, R668). -/
def syncOffset (port : Nat) (m : PtpMsg) (s : State) : Int :=
  m.received + (ptpCfg s port).ingress - (m.origin + m.correction) - (vget s.time.ports port).pathDelay

/-- The port alone runs PTP, and its master is the grandmaster. -/
abbrev keepsGm (port : Nat) (s : State) : Prop :=
  ptpRuns s (1 - port) = false ∧ (vget s.time.ports port).best.map (·.identity) = some s.time.gm

/-! ### The ring -/

/-- A link port has entered a state (Table 16-1). -/
def entered (p : Nat) (st : PortState) (s : State) : State := setLinkPort p (fun x => { x with state := st, since := s.now }) s

/-- A link port has come up: its failures and the cause of its last DOWN are cleared. -/
def risen (p : Nat) (st : PortState) (s : State) : State :=
  setLinkPort p (fun x => { x with state := st, since := s.now, nativeFails := 0, cause := .none }) s

/-- A link port has left its state for DOWN or FENCED with a cause; nothing waits on it, and `n` more DOWNs are counted. -/
def fallen (p : Nat) (st : PortState) (cause : PortCause) (n : Nat) (s : State) : State :=
  setLinkPort p (fun x => { x with
    state := st, since := s.now, cause := cause, neighbour := none, unacked := [], waiting := []
    cnt := { x.cnt with downs := wrap32 (x.cnt.downs + n) } }) s

/-- A link port is in a state. -/
abbrev portIn (p : Nat) (st : PortState) (s : State) : Prop := p < 3 ∧ (vget s.ring.ports p).state = st

/-- The ring has folded at port `p`: no module is reached through it (R687). -/
def foldedAt (p : Nat) (s : State) : State :=
  setLinkPort p (fun x => { x with cnt := { x.cnt with folds := wrap32 (x.cnt.folds + 1) } })
    { s with ring := { s.ring with
      folded := true, modules := s.ring.modules.map fun m => if p = 0 then { m with hopsEast := none } else { m with hopsWest := none } } }

/-- No relay is open. -/
abbrev noRelays (s : State) : Prop := s.ring.relays = [] ∧ s.ring.sources = []

/-- A packet has been received on a port (R684). -/
def received (p : Nat) (s : State) : State := setLinkPort p (fun x => { x with cnt := { x.cnt with rx := wrap32 (x.cnt.rx + 1) } }) s

/-- A packet of another module, not for this one. -/
abbrev passing (k : RingPkt) (s : State) : Prop := s.ring.enumerated = true ∧ k.dst ≠ s.ring.moduleId ∧ k.src ≠ s.ring.moduleId

/-! ### The pair -/

/-- JM is up, and neither a glue-up, a digest nor a snapshot waits for anything. -/
abbrev mirrors (s : State) : Prop :=
  up s ∧ isPortUp (vget s.ring.ports 2).state = true ∧ s.glue = none ∧ s.pair.work = [] ∧ s.pair.snapshot = none

/-- The pair's own state changed. -/
def pairWith (f : PairUnit → PairUnit) (s : State) : State := { s with pair := f s.pair }

/-- The module is in PAIRING again with a cause, and nothing of an earlier alignment is kept (R704, R708, R712). -/
def rejoins (cause : PairCause) (s : State) : State :=
  pairWith (fun p => { p with
    role := .pairing, cause := cause, chosen := none, partner := none, atStrip := none, resyncSince := none, snapshot := none, work := []
    theirs := [], switchAt := none, switchTicket := none }) s

/-- A passive module has found that a strip's digests differ: it resynchronises from it (R706, R707). -/
def mismatched (strip : Nat) (s : State) : State :=
  pairWith (fun p => { p with
    lastDigest := strip, mismatches := wrap32 (p.mismatches + 1), resyncFrom := strip, atStrip := some (stripAhead s 3), resyncSince := none
    snapshot := none }) s

/-- No queue has a threshold, and no DMA channel waits for the active role. -/
abbrev queuesPlain (s : State) : Prop :=
  (∀ q : Nat, q < 16 → (vget s.scribe.queues q).threshold = 0) ∧ ∀ c : Nat, c < 64 → (vget s.dma.ch c).passiveHold = false

/-- Nothing waits for the end of line triggering. -/
abbrev noStop (s : State) : Prop := s.gauge.stopAfter = none ∧ s.glue = none

/-! ### GLUEUP -/

/-- No table write waits for a glue-up, and no Jig command runs. -/
abbrev noneHeld (s : State) : Prop :=
  (∀ i : Nat, i < 24 → (vget s.plane.slots i).held = [] ∧ (vget s.dovetail.maps i).held = [] ∧ vget s.plane.jig i = none) ∧ s.marq.held = []

/-- The generation that a GLUEUP commits (R117). -/
def glueGen (c : HostCmd) (s : State) : Nat := if bitOf (u8 c.params 4) 1 then s.stageGen else u32 c.params 0

/-- The effective strip: the current strip + 3, or EARLIEST_STRIP where that is later (R47, R119). -/
def effectiveStrip (c : HostCmd) (s : State) : Nat :=
  if bitOf (u8 c.params 4) 0 && later32 (u32 c.params 8) (wrap32 (s.gauge.lastStrip + 3)) then u32 c.params 8 else wrap32 (s.gauge.lastStrip + 3)

/-- No glue-up is pending or in preparation here. -/
abbrev gluesFree (s : State) : Prop := s.glue = none ∧ s.ring.prepared = none

/-! ### Commands that are turned away, events, queues -/

/-- As `Ready`, for a packet whose own length, unit, units and module are still to be checked (R76, R91, R703). -/
structure Arrives (c : HostCmd) (s : State) : Prop where
  inv : s.Inv
  fabric : s.hf.fabric = .running
  slot : nextSlot s < ledgerSlots
  gen : sget s.ledger.gens (nextSlot s) 0 < 2 ^ 14
  ring : c.ring < 4
  enabled : (vget s.host.rings c.ring).enabled = true
  first : (vget s.host.rings c.ring).posts = []
  room : 16 ≤ freeSlots s c.ring
  here : c.module = 0xFF ∨ isOwnId s c.module = true
  lengths : lengthsAgree c = true

/-- A command that ends with an error changes nothing beside its reply (R87). -/
def TurnedAway (sp : CmdSpec) (t : Nat) (c : HostCmd) (s : State) (status : Nat) (body : Bytes) : Prop :=
  ∃ r, execCmd sp t c s = .next r ∧ EndsFailed sp.opcode status body c s r ∧ ReplyFrame s r

/-- The slots in use, and those whose tickets have ended unreported, rise, and no slot is both (R41, R43). -/
abbrev LedgerWf (l : Ledger) : Prop :=
  l.issued.Pairwise (fun a b => a < b) ∧ l.ended.Pairwise (fun a b => a < b) ∧ ∀ x ∈ l.issued, x ∉ l.ended

/-- The state with another event block. -/
def withEvt (f : EventBlock → EventBlock) (s : State) : State := { s with host := { s.host with evt := f s.host.evt } }

/-- Records of the event ring that the host has not read. -/
def evtUnread (e : EventBlock) : Nat := (e.prod + e.size - e.cons % e.size) % e.size

end Sys2Proof.Machine
end

