-- ==== Sys2Proof/Certificates/Slice0/Obligations.lean ====
section
/-! DEFINITION. The statements about the device. -/

open Sys2Proof Sys2Proof.Machine

/-- For every command and state, step of the state with that command at the front of its queue is exec of the command on the state with the queue's rest; on an empty queue the block idles, and a table word puts no command into the queue. The queue and idling are the model's own form of the interface (logs 1 and 2). -/
def Obligations.StepRunsTheFrontCommand : Prop :=
  (∀ (i : Instr) (rest : List Instr) (s : State), step { s with pending := i :: rest } = exec i { s with pending := rest }) ∧
  (∀ s : State, s.pending = [] → step s = .next s) ∧
  (∀ (s : State) (n w : Nat), decodeTableWord n w = none ∧ s.withFetchWord n w = s)

/-- From every state that meets the invariant a step answers a next state, never a fault or a refusal, and the invariant holds there: Bench memory is in its canonical form, and no write of the command is outstanding. Time does not go back, and the queue has lost its front command and nothing else. -/
def Obligations.StepAnswersAndKeepsTheInvariant : Prop :=
  ∀ s : State, s.Inv → ∃ r, step s = .next r ∧ r.Inv ∧ s.now ≤ r.now ∧ r.pending = s.pending.tail

/-- At reset the invariant holds, no command waits, the clock reads 0 with the nominal ADDEND, the current strip is 0 and triggering is off, every command ring is disabled, the event block is masked with every vector armed and nothing pending, no ticket is issued, no module ID is held, the axes are DISABLED, nothing is staged or running beyond the default settings, and the fabric is booting. Values that the manual does not give are those of log 3. -/
def Obligations.ResetLeavesTheDevice : Prop :=
  State.reset.Inv ∧ State.reset.pending = [] ∧ State.reset.now = 0 ∧
  State.reset.time.clock = { seconds := 0, ns := 0, frac := 0, addend := 8589934592, slew := 0, slewPpm := 1 } ∧
  currentStrip State.reset = 0 ∧ State.reset.gauge.trigEnabled = false ∧
  (∀ n : Nat, n < 4 → (vget State.reset.host.rings n).enabled = false ∧ (vget State.reset.host.rings n).unread = 0) ∧
  State.reset.host.evt.pending = 0 ∧ State.reset.host.evt.mask = 2 ^ 1024 - 1 ∧ State.reset.host.evt.armed = 2 ^ 64 - 1 ∧
  (∀ src : Nat, vectorOf State.reset.host.evt src = src / 16) ∧
  State.reset.ledger.issued = [] ∧ State.reset.ledger.ended = [] ∧ State.reset.ring.enumerated = false ∧ State.reset.pair.role = .solo ∧
  (∀ a : Nat, a < 4 → (vget State.reset.axes.ax a).state = .disabled) ∧
  State.reset.staged = State.reset.running ∧ State.reset.stageGen = 0 ∧ State.reset.hf.fabric = .booting ∧ State.reset.bench.mem = []

/-- For every clock without a slew, one cycle adds ADDEND to NS:FRAC in units of 2^-32 ns; when NS then reaches 1,000,000,000, NS is reduced by it and SECONDS increments modulo 2^48. NS never reads more. The cycles of an interval compose, and every command finds the clock run on by the 2 ns cycles since the one before. -/
def Obligations.ClockRunsByAddend : Prop :=
  (∀ c : Clock, c.slew = 0 → c.seconds < 2 ^ 48 → c.ns < 1000000000 → c.frac < 2 ^ 32 → 8585639625 ≤ c.addend → c.addend ≤ 8594229559 →
    runClock 1 c =
      (let v := c.ns * 2 ^ 32 + c.frac + c.addend
       if v / 2 ^ 32 < 1000000000 then { c with ns := v / 2 ^ 32, frac := v % 2 ^ 32 }
       else { c with seconds := (c.seconds + 1) % 2 ^ 48, ns := v / 2 ^ 32 - 1000000000, frac := v % 2 ^ 32 })) ∧
  (∀ (n : Nat) (c : Clock), (runClock n c).ns < 1000000000) ∧
  (∀ (m n : Nat) (c : Clock), c.slew = 0 → runClock (m + n) c = runClock n (runClock m c)) ∧
  (∀ (t : Nat) (s : State), (tick t s).time.clock = runClock (max s.now t / 2 - s.now / 2) s.time.clock)

/-- The event that ends a ticket in use counts it COMPLETE, or FAILED with its cause, not both; then the ticket is no longer in use, every ticket of another slot that was in use still is, and a later event for the same ticket changes nothing at all. It is stated where the ledger's two lists of slots rise and share none; that holds at reset, and issuing, ending and reporting a ticket keep it. A ticket that is issued takes a slot that no ticket held. -/
def Obligations.EachTicketEndsOnce : Prop :=
  (∀ (w code : Nat) (s : State), LedgerWf s.ledger → ticketLive s.ledger w = true →
    let r := (endTicket w code s).ledger
    ticketLive r w = false ∧
    r.complete = s.ledger.complete + (if code = 0 then 1 else 0) ∧ r.failed = s.ledger.failed + (if code = 0 then 0 else 1) ∧
    (0 < code → code < 16 → sget r.failedBy code 0 = sget s.ledger.failedBy code 0 + 1) ∧
    ∀ v, ticketSlot v ≠ ticketSlot w → ticketLive r v = ticketLive s.ledger v) ∧
  (∀ (w a b : Nat) (s : State), LedgerWf s.ledger → ticketLive s.ledger w = true → decideTicket w b (endTicket w a s) = endTicket w a s) ∧
  LedgerWf State.reset.ledger ∧
  (∀ (w : Nat) (s r : State), LedgerWf s.ledger → issueTicket s = some (w, r) →
    LedgerWf r.ledger ∧ ticketSlot w ∉ s.ledger.issued ∧ ticketSlot w ∉ s.ledger.ended ∧ ticketSlot w < ledgerSlots) ∧
  (∀ (w code : Nat) (s : State), LedgerWf s.ledger →
    LedgerWf (decideTicket w code s).ledger ∧ LedgerWf (reportTicket w s).ledger ∧ LedgerWf (endTicket w code s).ledger)

/-- Whatever the opcode: a packet whose PARAM_LEN is not what it asks for replies ST_BAD_LENGTH, one for a unit it does not have ST_BAD_TARGET, one that a passive module refuses ST_WRONG_STATE, one for a fenced unit ST_FENCED with the entry of the fence, in this order; with 256 commands accepted, one more that would otherwise be accepted replies ST_BUSY with cause 4 (for the opcodes that need no stack of the Bench). Nothing else changes but the reply and the command's ticket. -/
def Obligations.CommandsAreTurnedAway : Prop :=
  (∀ (sp : CmdSpec) (t : Nat) (c : HostCmd) (s : State), Arrives c s → (sp.need c).2 = false →
    TurnedAway sp t c s stBadLength (lengthBody (sp.need c).1 c.paramLen)) ∧
  (∀ (sp : CmdSpec) (t : Nat) (c : HostCmd) (s : State), Arrives c s → (sp.need c).2 = true → sp.unitOk (taken t s) c = false →
    TurnedAway sp t c s stBadTarget (targetBody c)) ∧
  (∀ (sp : CmdSpec) (t : Nat) (c : HostCmd) (s : State), Arrives c s → (sp.need c).2 = true → sp.unitOk (taken t s) c = true →
    passiveRefuses s sp.opcode c = true → TurnedAway sp t c s stWrongState (zeros 8)) ∧
  (∀ (sp : CmdSpec) (t : Nat) (c : HostCmd) (s : State) (u : Nat × Nat) (f : Fence), Arrives c s → (sp.need c).2 = true → sp.unitOk (taken t s) c = true →
    passiveRefuses s sp.opcode c = false → sp.units c = [u] → fenceOf s u.1 u.2 = some f → TurnedAway sp t c s stFenced (entryNoBody f.entry)) ∧
  (∀ (sp : CmdSpec) (t : Nat) (c : HostCmd) (s : State), Arrives c s → (sp.need c).2 = true → sp.unitOk (taken t s) c = true →
    passiveRefuses s sp.opcode c = false → (∀ u ∈ sp.units c, fenceOf s u.1 u.2 = none) → sp.dies (taken t s) c = [] → c.stepFails = 0 →
    (∀ k : CmdRec, (sp.run k c (taken t s)).status = stAccepted) → ¬ acceptsMore s → TurnedAway sp t c s stBusy (busyBody 4 0))

/-- While the fabric runs: raising a source sets its pending bit and no other; a masked source does nothing more. For a source that is not masked, with the ring enabled, the record of Table 13-8 is written at EVR_PROD with its PHASE, and EVR_PROD advances, PHASE inverting at the wrap; with EVR_SIZE - 1 records unread none is written, OVERFLOW is set and the record counted lost, the vector is disarmed as ever, and the next record carries LOST_BEFORE. The ring that is switched on after reset begins its first pass with PHASE 1. -/
def Obligations.EventsReachTheHost : Prop :=
  (∀ (src e : Nat) (a b : Int) (s : State), up s → (bitOf (raise src a b s).host.evt.pending e = true ↔ e = src ∨ bitOf s.host.evt.pending e = true)) ∧
  (∀ (src : Nat) (a b : Int) (s : State), up s → bitOf s.host.evt.mask src = true →
    raise src a b s = withEvt (fun e => { e with pending := (raise src a b s).host.evt.pending }) s) ∧
  (∀ (src : Nat) (a b : Int) (s : State), up s → bitOf s.host.evt.mask src = false → s.host.evt.size = 0 →
    (raise src a b s).host.evt.prod = s.host.evt.prod ∧ (raise src a b s).host.evt.lost = s.host.evt.lost) ∧
  (∀ (src : Nat) (a b : Int) (s : State), up s → bitOf s.host.evt.mask src = false → 1 < s.host.evt.size → s.host.evt.prod < s.host.evt.size →
    evtUnread s.host.evt < s.host.evt.size - 1 →
    Emit.hostWrite (s.host.evt.base + 16 * s.host.evt.prod)
      (le 2 src ++ le 1 ((if s.host.evt.phase then 1 else 0) + (if s.host.evt.lostBefore then 2 else 0)) ++ le 1 0 ++ leI 4 a ++ leI 4 b ++ le 4 (shortTime s))
      false ∈ (raise src a b s).emit ∧
    (raise src a b s).host.evt.prod = (if s.host.evt.prod + 1 = s.host.evt.size then 0 else s.host.evt.prod + 1) ∧
    (raise src a b s).host.evt.phase = (if s.host.evt.prod + 1 = s.host.evt.size then !s.host.evt.phase else s.host.evt.phase) ∧
    (raise src a b s).host.evt.lostBefore = false ∧ (raise src a b s).host.evt.lost = s.host.evt.lost) ∧
  (∀ (src : Nat) (a b : Int) (s : State), up s → bitOf s.host.evt.mask src = false → 1 < s.host.evt.size →
    evtUnread s.host.evt = s.host.evt.size - 1 →
    (raise src a b s).host.evt.overflow = true ∧ (raise src a b s).host.evt.lost = wrap32 (s.host.evt.lost + 1) ∧
    (raise src a b s).host.evt.lostBefore = true ∧ (raise src a b s).host.evt.prod = s.host.evt.prod ∧
    (raise src a b s).host.evt.phase = s.host.evt.phase ∧ (∀ o d w, Emit.hostWrite o d w ∈ (raise src a b s).emit → Emit.hostWrite o d w ∈ s.emit) ∧
    bitOf (raise src a b s).host.evt.armed (vectorOf s.host.evt src) = false) ∧
  (∀ k : Nat, 8 ≤ k → k ≤ 16 →
    let e := (evrSizeWrite (2 ^ k) State.reset).host.evt
    e.size = 2 ^ k ∧ e.prod = 0 ∧ e.phase = true)

/-- A source that is not masked sends its vector's MSI-X message when the vector is armed, and disarms it; a masked vector or function keeps the message back; a disarmed vector sends nothing. While the fabric does not run, a source is latched in the Holdfast with its time, once, and the event block is as it was. -/
def Obligations.VectorsAndLatchedEvents : Prop :=
  (∀ (src : Nat) (a b : Int) (s : State), up s → bitOf s.host.evt.mask src = false → bitOf s.host.evt.armed (vectorOf s.host.evt src) = true →
    bitOf (raise src a b s).host.evt.armed (vectorOf s.host.evt src) = false ∧
    (s.host.pcie.msixEnable = true → s.host.pcie.funcMask = false → (msixEntry s.host.pcie (vectorOf s.host.evt src)).masked = false →
      (raise src a b s).emit.getLast? = some (.msix (vectorOf s.host.evt src)) ∧ (raise src a b s).host.pcie = s.host.pcie) ∧
    (s.host.pcie.msixEnable = true → (s.host.pcie.funcMask = true ∨ (msixEntry s.host.pcie (vectorOf s.host.evt src)).masked = true) →
      (∀ v, Emit.msix v ∈ (raise src a b s).emit → Emit.msix v ∈ s.emit) ∧
      bitOf (raise src a b s).host.pcie.heldMsgs (vectorOf s.host.evt src) = true)) ∧
  (∀ (src : Nat) (a b : Int) (s : State), up s → bitOf s.host.evt.armed (vectorOf s.host.evt src) = false →
    (raise src a b s).host.pcie = s.host.pcie ∧ (raise src a b s).host.evt.armed = s.host.evt.armed ∧
    ∀ v, Emit.msix v ∈ (raise src a b s).emit → Emit.msix v ∈ s.emit) ∧
  (∀ (src : Nat) (a b : Int) (s : State), s.hf.fabric ≠ .running → bitOf s.hf.latched src = false →
    raise src a b s = { s with hf := { s.hf with
      latched := s.hf.latched + 2 ^ src
      latchedEvents := s.hf.latchedEvents ++ [(src, toUnsigned 32 a, toUnsigned 32 b, shortTime s)] } }) ∧
  (∀ (src : Nat) (a b : Int) (s : State), s.hf.fabric ≠ .running → bitOf s.hf.latched src = true → (∃ e ∈ s.hf.latchedEvents, e.1 = src) →
    raise src a b s = s)

/-- For memory in its canonical form: bytes written inside the Bench read back as written, every byte outside them reads as before, the form is kept, and two memories that read the same at every offset are the same data. A command reads what it has itself written. What a byte that nothing has written reads, 0, is the model's choice (log 4). -/
def Obligations.BenchReadsBackWhatWasWritten : Prop :=
  (∀ (m : List Host.Cell) (off : Nat) (d : Bytes), Memory.wf m = true → off + d.length ≤ benchSize →
    Memory.wf (memWrite m off d) = true ∧ memRead (memWrite m off d) off d.length = d ∧
    ∀ a, (a < off ∨ off + d.length ≤ a) → memRead (memWrite m off d) a 1 = memRead m a 1) ∧
  (∀ m n : List Host.Cell, Memory.wf m = true → Memory.wf n = true → (∀ a, memRead m a 1 = memRead n a 1) → m = n) ∧
  (∀ (s : State) (off : Nat) (d : Bytes), s.Inv → off + d.length ≤ benchSize → benchRead (benchWrite off d s) off d.length = d)

/-- When WR - REL is CAP, a new record stands where the oldest unreleased one stood; that record's ticket ends FAILED(OVERWRITTEN), and its patch's; LOST and REL increment; RD and UNREAD_LOST too where RD equalled the old REL; where MARK_VALID was set and MK equalled it, MARK_VALID clears and MARK_LOST sets. The overwrite event is raised where it has not been for the new record's strip, and not where it has. Stated for a queue with no threshold whose records follow one another; the patch may be stored, or still be cut or compressed. -/
def Obligations.FullQueuesOverwrite : Prop :=
  ∀ (q strip w : Nat) (d : Bytes) (s : State) (l : LiveRec) (rest : List LiveRec), q < 16 → up s → LedgerWf s.ledger → Memory.wf s.bench.mem = true →
    let x := vget s.scribe.queues q
    unreleased x = x.cap → 2 ^ 32 % x.cap = 0 → x.wr < 2 ^ 32 → x.rel < 2 ^ 32 → x.live = l :: rest → l.seq = x.rel →
    nextRecord x rest = wrap32 (x.rel + 1) → (x.rd = x.rel ∨ later32 x.rd x.rel = true) → (x.mkp = x.rel ∨ later32 x.mkp x.rel = true) →
    ticketLive s.ledger l.ticket = true → (l.patchTicket.all fun k => ticketLive s.ledger k && decide (ticketSlot k ≠ ticketSlot l.ticket)) = true →
    (∀ p ∈ x.patches, p.seq = l.seq → l.patchTicket = some p.ticket) → x.threshold = 0 → d.length = 64 → recordOff x x.wr + 64 ≤ benchSize →
    let r := writeRecord q strip w none d s
    let y := vget r.scribe.queues q
    recordOff x x.wr = recordOff x x.rel ∧ benchRead r (recordOff x x.wr) 64 = d ∧
    ticketLive r.ledger l.ticket = false ∧ (∀ k, l.patchTicket = some k → ticketLive r.ledger k = false) ∧
    sget r.ledger.failedBy 1 0 = sget s.ledger.failedBy 1 0 + (if l.patchTicket.isSome then 2 else 1) ∧
    y.wr = wrap32 (x.wr + 1) ∧ y.rel = wrap32 (x.rel + 1) ∧ y.cnt.lost = wrap32 (x.cnt.lost + 1) ∧
    y.rd = (if x.rd = x.rel then wrap32 (x.rel + 1) else x.rd) ∧
    y.cnt.unreadLost = wrap32 (x.cnt.unreadLost + (if x.rd = x.rel then 1 else 0)) ∧
    y.markValid = (x.markValid && decide (x.mkp ≠ x.rel)) ∧ y.markLost = (x.markLost || (x.markValid && decide (x.mkp = x.rel))) ∧
    (sget s.evOnce (0x220 + q) 0 ≠ strip + 1 → bitOf r.host.evt.pending (0x220 + q) = true) ∧
    (sget s.evOnce (0x220 + q) 0 = strip + 1 → bitOf r.host.evt.pending (0x220 + q) = bitOf s.host.evt.pending (0x220 + q))

/-- Within a stack, offset o lies in pseudo-channel ((o >> 8) XOR (o >> 13) XOR (o >> 18)) AND 0x1F of that stack, at pseudo-channel offset ((o >> 13) << 8) + (o AND 0xFF). Two different Bench offsets never lie in the same pseudo-channel at the same offset, and there are 32 pseudo-channels in each stack. -/
def Obligations.BenchPlacesAreDistinct : Prop :=
  (∀ o : Nat, o < benchSize →
    let w := o - stackSize * stackOf o
    pchOf o = 32 * stackOf o + (((w >>> 8) ^^^ (w >>> 13) ^^^ (w >>> 18)) &&& 0x1F) ∧ pchOffset o = ((w >>> 13) <<< 8) + (w &&& 0xFF) ∧
    pchOf o < 64 ∧ pchOf o / 32 = stackOf o) ∧
  (∀ a b : Nat, a < benchSize → b < benchSize → pchOf a = pchOf b → pchOffset a = pchOffset b → a = b)

/-- The state of the device runs, the packet is well formed, nothing refuses it and its claims are free: the parameters stand in the staged configuration at the command's place and nowhere else, the running configuration is unchanged, STAGE_GEN counts on, and the reply is ST_OK. SET_OPERATING_RANGE, LINK_CONFIG, KX25_CONFIG, THROUGH_CONFIG, ENCODER_CONFIG, TRIGGER_CONFIG, COMPARE_CONFIG, AXIS_CONFIG, AXIS_GEAR and AXIS_STANDSTILL. -/
def Obligations.SettingsOfLinksGaugeAndAxes : Prop :=
  Stages .setOperatingRange specSetOperatingRange (fun c _ => badOperatingRange c.params = none)
    (fun c g => { g with range := some (parOperatingRange c.params) }) ∧
  Stages .linkConfig specLinkConfig (fun c s => badLink c.unit c.params (vget s.staged.link (if c.unit % 2 = 0 then c.unit + 1 else c.unit - 1)) = none)
    (fun c g => { g with link := vset g.link c.unit (parLink c.params) }) ∧
  Stages .kx25Config specKx25Config (fun c _ => badKx c.params = none)
    (fun c g => { g with kx := vset g.kx c.unit (parKx c.params) }) ∧
  Stages .throughConfig specThroughConfig (fun c _ => badThrough c.params = none)
    (fun c g => { g with through := vset g.through c.unit (parThrough c.params) }) ∧
  Stages .encoderConfig encoderConfigSpec (fun c _ => badEncoder c.unit c.params = none)
    (fun c g => { g with enc := vset g.enc c.unit (parEncoder c.params) }) ∧
  Stages .triggerConfig triggerConfigSpec (fun c _ => (if c.unit = 24 then badLineSeq c.params else badSlotTrig c.params) = none)
    (fun c g => if c.unit = 24 then { g with seq := some (parLineSeq c.params), shift := u8 c.params 10 }
      else { g with trig := vset g.trig c.unit (parSlotTrig c.params) }) ∧
  Stages .compareConfig compareConfigSpec (fun c _ => badCompare c.params = none)
    (fun c g => { g with cmp := vset g.cmp c.unit (parCompare c.params) }) ∧
  Stages .axisConfig specAxisConfig (fun c _ => badAxis c.params = none)
    (fun c g => { g with axis := vset g.axis c.unit (parAxis c.params) }) ∧
  Stages .axisGear specAxisGear (fun c _ => badGear c.params = none)
    (fun c g => { g with gear := vset g.gear c.unit (parGear c.params) }) ∧
  Stages .axisStandstill specAxisStandstill (fun c _ => badStand c.params = none)
    (fun c g => { g with stand := vset g.stand c.unit (parStand c.params) })

/-- The state of the device runs, the packet is well formed, nothing refuses it and its claims are free: the parameters stand in the staged configuration at the command's place and nowhere else, the running configuration is unchanged, STAGE_GEN counts on, and the reply is ST_OK. PLANE_CONFIG, GRID_CONFIG, KERF_CONFIG, QUEUE_CONFIG, PATCH_CONFIG, MARK_STATION, ZONE_CONFIG, GRIT_CONFIG, THRESHOLD_CONFIG and VIEW_CONFIG. -/
def Obligations.SettingsOfTheLinePath : Prop :=
  Stages .planeConfig specPlaneConfig (fun c _ => badPlane c.params = none)
    (fun c g => { g with plane := vset g.plane c.unit (parPlane c.params) }) ∧
  Stages .gridConfig specGridConfig (fun c _ => badGrid c.params = none)
    (fun c g => { g with grid := some (parGrid c.params) }) ∧
  Stages .kerfConfig specKerfConfig (fun c s => badKerf c.unit c.params (if 0 < c.unit ∧ c.unit < 23 then vget s.staged.kerf (c.unit - 1) else none)
      (if c.unit < 22 then vget s.staged.kerf (c.unit + 1) else none) = none)
    (fun c g => { g with kerf := vset g.kerf c.unit (some (parKerf c.params)) }) ∧
  Stages .queueConfig specQueueConfig (fun c _ => badQueue c.params = none)
    (fun c g => { g with queue := vset g.queue c.unit (parQueue c.params) }) ∧
  Stages .patchConfig specPatchConfig (fun c _ => badPatch c.params = none)
    (fun c g => { g with patch := vset g.patch c.unit (parPatch c.params) }) ∧
  Stages .markStation specMarkStation (fun c _ => badStation c.params = none)
    (fun c g => { g with station := vset g.station c.unit (parStation c.params) }) ∧
  Stages .zoneConfig specZoneConfig (fun c _ => badZones c.params = none)
    (fun c g => { g with zone := vset g.zone c.unit (parZones c.params) }) ∧
  Stages .gritConfig specGritConfig (fun c _ => (if c.unit = 24 then badBg c.params else badGrit c.params) = none)
    (fun c g => if c.unit = 24 then { g with bg := parBg c.params } else { g with grit := vset g.grit c.unit (parGrit c.params) }) ∧
  Stages .thresholdConfig specThresholdConfig (fun c _ => badWatch c.params = none)
    (fun c g => setWatches c.unit c.params g) ∧
  Stages .viewConfig specViewConfig (fun c _ => badView c.params = none)
    (fun c g => { g with view := vset g.view c.unit (parView c.params) })

/-- The state of the device runs, the packet is well formed, nothing refuses it and its claims are free: the parameters stand in the staged configuration at the command's place and nowhere else, the running configuration is unchanged, STAGE_GEN counts on, and the reply is ST_OK. PARTITION_CONFIG, PORT_CONFIG, ARCHIVE_CONFIG, COMPRESS_CONFIG (no other verifier names its compressors), TIME_CONFIG, PTP_CONFIG, RING_CONFIG and PAIR_CONFIG (in the role SOLO). -/
def Obligations.SettingsOfStoreTimeRingAndPair : Prop :=
  Stages .partitionConfig specPartitionConfig (fun c _ => badPart c.unit c.params = none)
    (fun c g => { g with part := vset g.part c.unit (parPart c.params) }) ∧
  Stages .portConfig specPortConfig (fun c _ => badPort c.unit c.params = none)
    (fun c g => { g with port := vset g.port c.unit (some (parPort c.params)) }) ∧
  Stages .archiveConfig archiveConfigSpec (fun c s => badArchive c.params (fieldsOf s.staged) (match s.staged.grid with | some g => g.columns | none => 0) = none)
    (fun c g => { g with archive := parArchive c.params }) ∧
  Stages .compressConfig compressConfigSpec (fun c s => otherVerifier s c.unit (u16 c.params 0) = none)
    (fun c g => { g with verify := vset g.verify c.unit (u16 c.params 0) }) ∧
  Stages .timeConfig specTimeConfig (fun c _ => badTime c.params = none)
    (fun c g => { g with time := parTime c.params }) ∧
  Stages .ptpConfig specPtpConfig (fun c _ => badPtp c.params = none)
    (fun c g => { g with ptp := vset g.ptp c.unit (parPtp c.params) }) ∧
  Stages .ringConfig specRingConfig (fun c s => badRing c.params s.ring.gateway = none)
    (fun c g => { g with ring := parRing c.params }) ∧
  Stages .pairConfig specPairConfig (fun c s => s.pair.role = .solo ∧ badPair c.params = none)
    (fun c g => { g with pair := parPair c.params })

/-- The device runs, the packet is well formed and nothing refuses it: the reply is ST_OK with the body of the command's table, computed from the state in which the packet runs, its ticket ends COMPLETE, and no setting, running configuration, unit or byte of the Bench changes. NOP, GET_INFO, GET_STATUS, GET_STAGE, GET_REPORT (free bytes: DESIGN CHOICE, log entry 12), LINK_STATUS, SEG_STATUS, BENCH_STATUS, READ_CAPTURE, GAUGE_STATUS, AXIS_STATUS, TIME_STATUS, PAIR_STATUS and PACE_STATUS. -/
def Obligations.QueriesOfState : Prop :=
  Answers .nop specNop (fun _ _ => True)
    (fun _ _ => []) (fun _ _ => []) ∧
  Answers .getInfo specGetInfo (fun _ _ => True)
    (fun _ s => infoBody s) (fun _ _ => []) ∧
  Answers .getStatus specGetStatus (fun _ _ => True)
    (fun _ s => statusBody s) (fun _ _ => []) ∧
  Answers .getStage specGetStage (fun _ _ => True)
    (fun _ s => stageBody s) (fun _ _ => []) ∧
  Answers .getReport specGetReport (fun _ _ => True)
    (fun _ s => (freshBytes 64 s).1) (fun _ _ => []) ∧
  Answers .linkStatus specLinkStatus (fun _ _ => True)
    (fun c s => if c.unit < 24 then (slotStatus c.unit s).1 else connectorStatus (c.unit - 24) s) (fun _ _ => []) ∧
  Answers .segStatus specSegStatus (fun _ _ => True)
    (fun _ s => segStatusBytes s.marq) (fun _ _ => []) ∧
  Answers .benchStatus specBenchStatus (fun _ _ => True)
    (fun _ s => benchStatusBody s) (fun _ _ => []) ∧
  Answers .readCapture specReadCapture (fun _ _ => True)
    (fun c s => captureBody (vget s.bench.ctl c.unit)) (fun _ _ => []) ∧
  Answers .gaugeStatus gaugeStatusSpec (fun _ _ => True)
    (fun c s => gaugeBody s c.unit) (fun _ _ => []) ∧
  Answers .axisStatus specAxisStatus (fun _ _ => True)
    (fun c s => axisStatusBytes s c.unit) (fun _ _ => []) ∧
  Answers .timeStatus specTimeStatus (fun _ _ => True)
    (fun _ s => timeBody s) (fun _ _ => []) ∧
  Answers .pairStatus specPairStatus (fun _ _ => True)
    (fun _ s => pairStatusBody s) (fun _ _ => []) ∧
  Answers .paceStatus specPaceStatus (fun _ _ => True)
    (fun _ s => paceBody s) (fun _ _ => [])

/-- The device runs, the packet is well formed and nothing refuses it: the reply is ST_OK with the body of the command's table, computed from the state in which the packet runs, its ticket ends COMPLETE, and no setting, running configuration, unit or byte of the Bench changes. SEAM_STATUS of a seam in force, QUEUE_STATUS of a queue and of a station, RING_STATUS, PROFILE_READ of a slot and of the background, READ_TABLE, JIG_RESULT, READ_FAULT_LOG, READ_COUNTERS by both its forms and CONTEXT_SAVE. What a command's bulk reference asks for is written to host memory, when the transfer does not fail. -/
def Obligations.QueriesOfTablesAndLogs : Prop :=
  Answers .seamStatus specSeamStatus (fun c s => seamInForce (unitCfg s .dovetail) c.unit = true)
    (fun c s => seamStatusBytes s (unitCfg s .dovetail) c.unit) (fun _ _ => []) ∧
  Answers .queueStatus specQueueStatus (fun c _ => c.unit < 16)
    (fun c s => queueStatusBytes (vget s.scribe.queues c.unit)) (fun _ _ => []) ∧
  Answers .ringStatus specRingStatus (fun c _ => c.paramLen = 0 ∨ (firstBad (bulkHostOnly c.params 0) = none ∧ c.bulkFails = 0))
    (fun c s => ringStatusBody s (if c.paramLen = 0 then 0 else ((knownModules s).take ((parBulk c.params 0).length / 16)).length)) (fun c s => if c.paramLen = 0 then []
      else bulkEmits (parBulk c.params 0) (((knownModules s).take ((parBulk c.params 0).length / 16)).flatMap moduleBytes)) ∧
  Answers .profileRead specProfileRead (fun c s => c.unit < 24 ∧ u8 c.params 0 < 4 ∧ bitOf (vget (unitCfg s (.profile c.unit)).grit c.unit).fields (u8 c.params 0) = true)
    (fun c s => le 4 (vget s.prof.slots c.unit).blockEnd ++ le 1 (vget (unitCfg s (.profile c.unit)).zone c.unit).zones ++
      le 1 (vget (unitCfg s (.profile c.unit)).grit c.unit).grit ++ zeros 2 ++
      (List.range 64).flatMap fun z => zoneEntry (((vget s.prof.slots c.unit).zones.find? fun x => decide (x.key = shimKey (u8 c.params 0) z)).getD {})) (fun _ _ => []) ∧
  Answers .readTable specReadTable (fun c _ => badReadTable c.params = none ∧ c.bulkFails = 0)
    (fun c s => le 4 (tableAsked c s).length) (fun c s => bulkEmits (parTable c.params).ref ((tableAsked c s).flatMap (le (tableEntryBytes (parTable c.params).kind)))) ∧
  Answers .jigResult specJigResult (fun c s => badJigResult c.params = none ∧ c.bulkFails = 0 ∧ (jigHeld c s).isSome = true)
    (fun c s => jigFigureBytes ((jigHeld c s).getD default).figures ++ le 4 (((jigHeld c s).getD default).cands.take ((parBulk c.params 4).length / 4)).length) (fun c s => bulkEmits (parBulk c.params 4) ((((jigHeld c s).getD default).cands.take ((parBulk c.params 4).length / 4)).flatMap candBytes)) ∧
  Answers .readFaultLog specReadFaultLog (fun c _ => u8 c.params 2 < 2 ∧ firstBad (bulkHostOnly c.params 4) = none ∧ c.bulkFails = 0)
    (fun c s => le 4 (logAsked c s).length ++ le 2 (entryNumber (logAsked c s).head?) ++ le 2 (entryNumber (logAsked c s).getLast?) ++
      le 4 ((entriesFrom (u16 c.params 0) (logAsked c s)).take ((parBulk c.params 4).length / 64)).length) (fun c s => bulkEmits (parBulk c.params 4) (((entriesFrom (u16 c.params 0) (logAsked c s)).take ((parBulk c.params 4).length / 64)).flatMap faultBytes)) ∧
  Answers .readCounters specReadCounters (fun c _ => c.paramLen = 4 ∧ (counterGroup (u8 c.params 0)).isSome = true ∧ u8 c.params 1 < (blockShape c).2)
    (fun c s => le 1 (u8 c.params 0) ++ le 1 (u8 c.params 1) ++ le 1 (blocksGiven c) ++ zeros 1 ++ le 2 (blockShape c).1 ++ zeros 2 ++
      (List.range (blocksGiven c)).flatMap fun i => padTo (blockShape c).1 (counterBytes s (u8 c.params 0) (u8 c.params 1 + i))) (fun _ _ => []) ∧
  Answers .queueStatus specQueueStatus (fun c _ => 16 ≤ c.unit ∧ (c.paramLen = 0 ∨ (firstBad (bulkHostOnly c.params 0) = none ∧ c.bulkFails = 0)))
    (fun c s => le 2 (vget s.scribe.stations (c.unit - 16)).pending.length ++ le 2 (marksAsked c s).length ++
      le 1 (if (stationCfg s (c.unit - 16)).enable then 1 else 0) ++ zeros 3) (fun c s => bulkEmits (parBulk c.params 0) ((marksAsked c s).flatMap markEntry)) ∧
  Answers .profileRead specProfileRead (fun c s => c.unit = 24 ∧ u8 c.params 0 < 4 ∧ firstBad (bulkHostOnly c.params 4) = none ∧ c.bulkFails = 0 ∧
      bitOf (unitCfg s .background).bg.fields (u8 c.params 0) = true ∧ (vget s.prof.bg (u8 c.params 0)).rows ≠ [])
    (fun c s => le 4 (rowAsked c s).line ++ le 4 ((rowAsked c s).entries.take ((parBulk c.params 4).length / 4)).length) (fun c s => bulkEmits (parBulk c.params 4) (((rowAsked c s).entries.take ((parBulk c.params 4).length / 4)).flatMap fun v => le 4 (v.getD 0xFFFFFFFF))) ∧
  Answers .readCounters specReadCounters (fun c _ => c.paramLen = 20 ∧ c.bulkFails = 0 ∧ (counterGroup (u8 c.params 0)).isSome = true ∧ u8 c.params 1 < (blockShape c).2 ∧
      firstBad (bulkHostOnly c.params 4) = none ∧ blocksAsked c * (blockShape c).1 ≤ (parBulk c.params 4).length)
    (fun c _ => le 1 (u8 c.params 0) ++ le 1 (u8 c.params 1) ++ le 1 (blocksAsked c) ++ zeros 1 ++ le 2 (blockShape c).1 ++ zeros 2) (fun c s => bulkEmits (parBulk c.params 4) ((List.range (blocksAsked c)).flatMap fun i => padTo (blockShape c).1 (counterBytes s (u8 c.params 0) (u8 c.params 1 + i)))) ∧
  Answers .contextSave contextSaveSpec (fun c s => badContext c s = none ∧ slotHolder s (u16 c.params 0) = none ∧ c.bulkFails = 0)
    (fun _ _ => []) (fun c s => bulkEmits (parBulk c.params 4) (benchRead s (contextOff s (u16 c.params 0)) contextBytes))

/-- With no fault in the packet, no prepared glue-up and the unit's banks free, LOAD_TABLE, LOAD_GEOMETRY, CLASS_CONFIG, RULE_CONFIG and REGION_CONFIG change the shadow bank of their unit and nothing else, and reply ST_OK. Between the capture and the swap the write is held, and the reply waits for the swap. -/
def Obligations.BankedSettingsGoToTheShadowBank : Prop :=
  Acts .loadTable specLoadTable
    (fun c s => badLoadTable c.params = none ∧ s.ring.prepared = none ∧ unitTaken s (.plane c.unit) = true ∧ c.bulkFails = 0 ∧
      tableBadEntry (parTable c.params).kind (tableLoaded c s).vals = none)
    (fun _ _ => []) (fun _ c s => counted (setSlotPlane c.unit (fun x => { x with shadow := tableApply (tableLoaded c s) x.shadow }) s)) ∧
  Waits .loadTable specLoadTable
    (fun c s => badLoadTable c.params = none ∧ s.ring.prepared = none ∧ unitTaken s (.plane c.unit) = false ∧
      (vget s.plane.slots c.unit).captured.isSome = true ∧ c.bulkFails = 0 ∧ tableBadEntry (parTable c.params).kind (tableLoaded c s).vals = none)
    (fun _ c s => setSlotPlane c.unit (fun x => { x with held := x.held ++ [(tableLoaded c s, nextTicket s)] }) s) ∧
  Acts .loadGeometry specLoadGeometry (fun c s => badMap c.params = none ∧ s.ring.prepared = none ∧ unitTaken s .dovetail = true)
    (fun _ _ => []) (fun _ c s => counted (mapShadow c.unit (fun b => { b with shadow := parMap c.params }) s)) ∧
  Waits .loadGeometry specLoadGeometry
    (fun c s => badMap c.params = none ∧ s.ring.prepared = none ∧ unitTaken s .dovetail = false ∧ s.dovetail.locked = true)
    (fun _ c s => mapShadow c.unit (fun b => { b with held := b.held ++ [(parMap c.params, nextTicket s)] }) s) ∧
  Acts .classConfig specClassConfig (fun c s => badClass c.params = none ∧ s.ring.prepared = none ∧ unitTaken s .marquetry = true)
    (fun _ _ => []) (fun _ c s => counted (segShadow (fun b => { b with classes := vset b.classes c.unit (parClass c.params) }) s)) ∧
  Acts .ruleConfig specRuleConfig (fun c s => badRule c.params = none ∧ s.ring.prepared = none ∧ unitTaken s .marquetry = true)
    (fun _ _ => []) (fun _ c s => counted (segShadow (fun b => { b with rules := vset b.rules c.unit (parRule c.unit c.params) }) s)) ∧
  Acts .regionConfig specRegionConfig
    (fun c s => badRegion c.params = none ∧ s.ring.prepared = none ∧ unitTaken s .marquetry = true ∧
      conflictOf (claimsOf s.staged (some (parRegion c.params))) (runningClaims s) s.claims 0x0601 0 = none)
    (fun _ _ => []) (fun _ c s => counted (segShadow (fun b => { b with region := some (parRegion c.params) }) s)) ∧
  Waits .classConfig specClassConfig (fun c s => badClass c.params = none ∧ s.ring.prepared = none ∧ unitTaken s .marquetry = false ∧ s.marq.captured.isSome = true)
    (fun _ c s => holdSeg { opcode := 0x0600, unit := c.unit, params := c.params, ticket := nextTicket s } s) ∧
  Waits .ruleConfig specRuleConfig (fun c s => badRule c.params = none ∧ s.ring.prepared = none ∧ unitTaken s .marquetry = false ∧ s.marq.captured.isSome = true)
    (fun _ c s => holdSeg { opcode := 0x0602, unit := c.unit, params := c.params, ticket := nextTicket s } s) ∧
  Waits .regionConfig specRegionConfig
    (fun c s => badRegion c.params = none ∧ s.ring.prepared = none ∧ unitTaken s .marquetry = false ∧ s.marq.captured.isSome = true ∧
      conflictOf (claimsOf s.staged (some (parRegion c.params))) (runningClaims s) s.claims 0x0601 0 = none)
    (fun _ c s => holdSeg { opcode := 0x0601, unit := c.unit, params := c.params, ticket := nextTicket s } s)

/-- SET_ZONE_SHIM, SET_SEAM_SHIM, VIEW_CROP and QUEUE_TRIM with parameters in range, on a unit that is in use, change the shims, the crop or the queue's THRESHOLD and IDLE_TIMEOUT and nothing else, and reply ST_OK with the web line from which they are in force. In a pair the trim waits for its line. STAGE_GEN is unchanged. -/
def Obligations.LiveTrimsActFromTheNextLine : Prop :=
  Acts .setZoneShim specSetZoneShim
    (fun c s => badZoneShim c.params (vget (unitCfg s (.plane c.unit)).zone c.unit).zones = none ∧ ingestOn (unitCfg s (.plane c.unit)) c.unit = true ∧
      (u8 c.params 1 = 2 → bitOf (vget (unitCfg s (.plane c.unit)).plane c.unit).drift (u8 c.params 0) = true))
    (fun c s => le 4 (planeTrimLine c.unit s)) (fun _ c s => zonesTrimmed c s) ∧
  Acts .setSeamShim specSetSeamShim (fun c s => badSeamShim c.params = none ∧ seamInForce (unitCfg s .dovetail) c.unit = true)
    (fun _ s => le 4 (seamTrimLine s))
    (fun _ c s =>
      let v := if u8 c.params 1 = 1 then 16384 else u16 c.params 2
      if trimWaits s then addTrim (.seamShim (u8 c.params 0) c.unit v (seamTrimLine s)) s
      else { s with dovetail := { s.dovetail with
        shims := sset s.dovetail.shims (u8 c.params 0 * 32 + c.unit) v 16384
        hostWrites := (s.dovetail.hostWrites.filter fun w => decide (w.1 ≠ u8 c.params 0 * 32 + c.unit)) ++ [(u8 c.params 0 * 32 + c.unit, seamTrimLine s)] } }) ∧
  Acts .viewCrop specViewCrop
    (fun c s => ∃ g, (unitCfg s (.veneer c.unit)).grid = some g ∧ (vget (unitCfg s (.veneer c.unit)).view c.unit).enable = true ∧
      u32 c.params 0 + (vget (unitCfg s (.veneer c.unit)).view c.unit).cropCols ≤ g.columns)
    (fun c s => le 4 (viewTrimLine c.unit s))
    (fun _ c s => if trimWaits s then addTrim (.viewCrop c.unit (u32 c.params 0) (viewTrimLine c.unit s)) s
      else { s with views := vmod s.views c.unit fun y => { y with crop := u32 c.params 0 } }) ∧
  (∀ (t : Nat) (c : HostCmd) (s : State), Ready specQueueTrim c s → (vget s.scribe.queues c.unit).on = true →
    badTrim (vget s.scribe.queues c.unit).cap c.params = none → trimWaits s = false →
    Next (.queueTrim t c) s fun r =>
      Completes 0x0701 (le 4 (nextTriggered s)) c s r ∧
      (vget r.scribe.queues c.unit).threshold = (if bitOf (u8 c.params 8) 0 then u32 c.params 0 else (vget s.scribe.queues c.unit).threshold) ∧
      (vget r.scribe.queues c.unit).idleTimeout = (if bitOf (u8 c.params 8) 1 then u32 c.params 4 else (vget s.scribe.queues c.unit).idleTimeout) ∧
      (∀ q : Nat, q < 16 → q ≠ c.unit → vget r.scribe.queues q = vget s.scribe.queues q) ∧
      ReplyFrame { s with scribe := { s.scribe with queues := r.scribe.queues }, dma := { s.dma with ch := r.dma.ch } } r)

/-- On a queue that is on and whose records no relay takes: QUEUE_MARK saves RD and replies it; QUEUE_REWIND returns RD to the mark and replies it, or with the mark overtaken replies ST_MARK_LOST with REL and returns RD to REL; QUEUE_RELEASE moves REL forward to UPTO and never back. On a queue that is off they reply ST_WRONG_STATE and change nothing. -/
def Obligations.QueueReadPoints : Prop :=
  (∀ (t : Nat) (c : HostCmd) (s : State), Ready specQueueMark c s → (vget s.scribe.queues c.unit).on = true → relayedAway s c.unit = false →
    Next (.queueMark t c) s fun r =>
      Completes 0x0702 (le 4 (vget s.scribe.queues c.unit).rd) c s r ∧
      ReplyFrame (setQueue c.unit (fun x => { x with mkp := x.rd, markValid := true, markLost := false }) s) r) ∧
  (∀ (t : Nat) (c : HostCmd) (s : State), Ready specQueueRewind c s → (vget s.scribe.queues c.unit).on = true → relayedAway s c.unit = false →
    (vget s.scribe.queues c.unit).markValid = true →
    Next (.queueRewind t c) s fun r =>
      Completes 0x0703 (le 4 (vget s.scribe.queues c.unit).mkp) c s r ∧
      (vget r.scribe.queues c.unit).rd = (vget s.scribe.queues c.unit).mkp ∧ (vget r.scribe.queues c.unit).head = 0 ∧
      (vget r.scribe.queues c.unit).live = (vget s.scribe.queues c.unit).live ∧
      (∀ q : Nat, q < 16 → q ≠ c.unit → vget r.scribe.queues q = vget s.scribe.queues q) ∧
      ReplyFrame { s with scribe := { s.scribe with queues := r.scribe.queues }, dma := { s.dma with ch := r.dma.ch } } r) ∧
  (∀ (t : Nat) (c : HostCmd) (s : State), Ready specQueueRewind c s → (vget s.scribe.queues c.unit).on = true → relayedAway s c.unit = false →
    (vget s.scribe.queues c.unit).markValid = false → (vget s.scribe.queues c.unit).markLost = true →
    Next (.queueRewind t c) s fun r =>
      EndsFailed 0x0703 stMarkLost (le 4 (vget s.scribe.queues c.unit).rel ++ zeros 4) c s r ∧
      (vget r.scribe.queues c.unit).rd = (vget s.scribe.queues c.unit).rel ∧ (vget r.scribe.queues c.unit).markLost = false ∧
      ReplyFrame { s with scribe := { s.scribe with queues := r.scribe.queues }, dma := { s.dma with ch := r.dma.ch } } r) ∧
  (∀ (t : Nat) (c : HostCmd) (s : State), Ready specQueueRelease c s → (vget s.scribe.queues c.unit).on = true → relayedAway s c.unit = false →
    later32 (u32 c.params 0) (vget s.scribe.queues c.unit).rd = false →
    Next (.queueRelease t c) s fun r =>
      (vget r.scribe.queues c.unit).rel =
        (if later32 (u32 c.params 0) (vget s.scribe.queues c.unit).rel then u32 c.params 0 else (vget s.scribe.queues c.unit).rel) ∧
      (vget r.scribe.queues c.unit).rd = (vget s.scribe.queues c.unit).rd ∧
      (vget r.scribe.queues c.unit).wr = (vget s.scribe.queues c.unit).wr ∧
      r.staged = s.staged ∧ r.running = s.running ∧ r.stageGen = s.stageGen ∧ r.gauge = s.gauge ∧ r.links = s.links ∧ r.axes = s.axes) ∧
  Refuses .queueMark specQueueMark (fun c s => (vget s.scribe.queues c.unit).on = false) stWrongState (fun _ _ => zeros 8) ∧
  Refuses .queueRewind specQueueRewind (fun c s => (vget s.scribe.queues c.unit).on = false) stWrongState (fun _ _ => zeros 8) ∧
  Refuses .queueRelease specQueueRelease (fun c s => (vget s.scribe.queues c.unit).on = false) stWrongState (fun _ _ => zeros 8)

/-- FW_UPDATE in MODE 1 marks a valid slot preferred; in MODE 0 a passing image makes its slot invalid until it is written and moves the preferred mark off it. At the end a good read-back makes the slot valid and PREFER moves the mark to it; a bad one, or an image that failed, ends the command with its error. DEBUG_UNLOCK gives a challenge, lives 10 minutes on it, unlocks for a good token and counts a bad one. -/
def Obligations.FirmwareAndDebug : Prop :=
  Starts .fwUpdate specFwUpdate
    (fun c s => badFwUpdate c.params = none ∧ s.boot.fw = none ∧ u8 c.params 0 = 1 ∧ (imageOf s.boot (u8 c.params 1)).valid = true)
    (fun _ c s => { s with boot := { s.boot with
      preferred := u8 c.params 1, fw := some { ticket := nextTicket s, slot := u8 c.params 1, image := imageOf s.boot (u8 c.params 1) } } }) ∧
  Refuses .fwUpdate specFwUpdate
    (fun c s => badFwUpdate c.params = none ∧ s.boot.fw = none ∧ u8 c.params 0 = 1 ∧ (imageOf s.boot (u8 c.params 1)).valid = false)
    stWrongState (fun _ _ => zeros 8) ∧
  (∀ (t : Nat) (c : HostCmd) (s : State), Ready specFwUpdate c s → acceptsMore s → badFwUpdate c.params = none → s.boot.fw = none →
    u8 c.params 0 = 0 → c.bulkFails = 0 →
    Next (.fwUpdate t c) s fun r =>
      Accepts 0x0105 [] c s r ∧
      r.boot =
        (let n := u8 c.params 1
         let image := imageFrom (bulkData c (parBulk c.params 4) s)
         let result := updateResult s.boot image (parBulk c.params 4).length
         let run : FwRun := { ticket := nextTicket s, slot := n, prefer := bitOf (u8 c.params 2) 0, image := image, result := result }
         let b : Boot := if result = 0 then setImage n { imageOf s.boot n with valid := false } s.boot else s.boot
         { b with
           fw := some run
           preferred := if result = 0 ∧ s.boot.preferred = n then (if n = 1 then 2 else 1) else s.boot.preferred }) ∧
      ReplyFrame { s with boot := r.boot, faults := r.faults, hf := { s.hf with alert := r.hf.alert } } r) ∧
  (∀ ok, ∀ f : FwRun, f.result = 0 → Concludes (.fwUpdateDone · ok)
    (fun s => s.boot.fw = some f ∧ (ok || (imageOf s.boot f.slot).valid) = true ∧ (imageOf s.boot f.slot).valid = false)
    (fun _ => f.ticket) (fun _ => stOk)
    (fun s => { s with boot := { (setImage f.slot { f.image with valid := true } s.boot) with
      fw := none, preferred := if f.prefer then f.slot else s.boot.preferred } }) [] noPuts) ∧
  (∀ ok, ∀ f : FwRun, f.result = 0 → Concludes (.fwUpdateDone · ok)
    (fun s => s.boot.fw = some f ∧ (imageOf s.boot f.slot).valid = true) (fun _ => f.ticket) (fun _ => stOk)
    (fun s => { s with boot := { s.boot with fw := none, preferred := if f.prefer then f.slot else s.boot.preferred } }) [] noPuts) ∧
  (∀ f : FwRun, f.result = 0 → Concludes (.fwUpdateDone · false)
    (fun s => s.boot.fw = some f ∧ (imageOf s.boot f.slot).valid = false) (fun _ => f.ticket) (fun _ => stAborted)
    (fun s => { s with boot := { s.boot with fw := none } }) [] noPuts) ∧
  (∀ ok, ∀ f : FwRun, f.result ≠ 0 → Concludes (.fwUpdateDone · ok) (fun s => s.boot.fw = some f) (fun _ => f.ticket)
    (fun _ => match f.result with | 3 => stBadParam | 4 => stHostError | _ => stAuthFail)
    (fun s => { s with boot := { s.boot with fw := none } }) [] noPuts) ∧
  Acts .debugUnlock specDebugUnlock (fun c _ => u8 c.params 0 = 0)
    (fun _ s => le 8 (Config.freeValue s.free % 2 ^ 64))
    (fun t _ s => { s with free := s.free + 1, boot := { s.boot with challenge := some (Config.freeValue s.free % 2 ^ 64, max s.now t) } }) ∧
  (∀ (t : Nat) (c : HostCmd) (s : State) (v born : Nat), Ready specDebugUnlock c s → u8 c.params 0 = 1 → s.boot.authFails < 8 →
    s.boot.challenge = some (v, born) → max s.now t < born + challengeLife →
    Next (.debugUnlock t c) s fun r =>
      (if tokenOk s v (slice c.params 4 128) = true then
        Completes 0x0106 (le 4 (wrap32 (Config.tokenScope (slice c.params 4 128)))) c s r ∧ bitOf r.host.evt.pending 0x3F9 = true ∧
        r.boot = { s.boot with challenge := none, unlocked := true, scope := wrap32 (Config.tokenScope (slice c.params 4 128)),
                               unlockKey := Config.tokenKeySlot (slice c.params 4 128) }
      else
        EndsFailed 0x0106 stAuthFail (zeros 8) c s r ∧ r.faults.cnt.authFailures = s.faults.cnt.authFailures + 1 ∧
        r.boot = { s.boot with challenge := none, authFails := s.boot.authFails + 1 }) ∧
      ReplyFrame { s with boot := r.boot, faults := r.faults, hf := { s.hf with alert := true } } r) ∧
  Refuses .debugUnlock specDebugUnlock (fun c s => u8 c.params 0 = 2 ∧ s.boot.unlocked = false) stWrongState (fun _ _ => zeros 8) ∧
  Happens .challengeExpired (fun s => liveChallenge s = none) (fun s => { s with boot := { s.boot with challenge := none } }) [] noPuts ∧
  Happens .challengeExpired (fun s => (liveChallenge s).isSome = true) id [] noPuts

/-- DRYFIT is accepted with the generation and the report of the configuration then staged; its end writes the report and records the generation and the result, and a transfer that fails twice records nothing. ABANDON returns the staged settings and every shadow bank to what runs, and counts STAGE_GEN on. While a glue-up is pending both reply ST_BUSY with cause 2. RESET_UNIT resets the Dovetail or a queue's head, clears its fence and changes nothing else; where Table 18-8 forbids it, ST_WRONG_STATE, and for a unit it does not list ST_BAD_PARAM. -/
def Obligations.DryFitAbandonAndReset : Prop :=
  Starts .dryfit specDryfit (fun c s => badDryfit c.params = none ∧ s.glue = none ∧ s.dryfitRun = none)
    (fun t c s => { s with dryfitRun := some {
        ticket := nextTicket s, ref := parBulk c.params 0, gen := s.stageGen, fit := (dryReport (taken t s) (parBulk c.params 0).length).2
        report := (dryReport (taken t s) (parBulk c.params 0).length).1 } }) ∧
  Refuses .dryfit specDryfit (fun c s => badDryfit c.params = none ∧ s.glue.isSome = true) stBusy (fun _ _ => [2, 0, 0, 0, 0, 0, 0, 0]) ∧
  (∀ d : DryfitRun, d.report ≠ [] → Concludes (.dryfitDone · 0)
    (fun s => up s ∧ s.dryfitRun = some d ∧ (cmdOf s d.ticket).any (·.silent) = false) (fun _ => d.ticket) (fun _ => stOk)
    (fun s => { s with dryfitRun := none, dryfit := some { gen := d.gen, fit := d.fit } }) [] (fun _ => [.hostWrite d.ref.addr d.report false])) ∧
  (∀ fails, ∀ d : DryfitRun, 2 ≤ fails → Concludes (.dryfitDone · fails) (fun s => up s ∧ s.dryfitRun = some d) (fun _ => d.ticket)
    (fun _ => stHostError) (fun s => { s with dryfitRun := none }) [] noPuts) ∧
  Acts .abandon specAbandon (fun _ s => s.glue = none ∧ s.ring.prepared = none)
    (fun _ s => le 4 (wrap32 (s.stageGen + 1)))
    (fun _ _ s => { s with
      staged := s.running
      stageGen := wrap32 (s.stageGen + 1)
      marq := { s.marq with shadow := s.marq.active }
      dovetail := { s.dovetail with maps := s.dovetail.maps.map fun m => { m with shadow := m.active } }
      plane := { s.plane with slots := s.plane.slots.map fun x => { x with shadow := x.active } }
      gauge := { s.gauge with encStaged := [] }
      links := { s.links with linkStaged := [] } }) ∧
  Refuses .abandon specAbandon (fun _ s => s.glue.isSome = true) stBusy (fun _ _ => [2, 0, 0, 0, 0, 0, 0, 0]) ∧
  Acts .resetUnit specResetUnit
    (fun c s => u8 c.params 0 = 5 ∧ u16 c.params 2 = 0 ∧ s.gauge.trigEnabled = false ∧ s.glue = none ∧ s.pair.role = .solo)
    (fun _ _ => zeros 4)
    (fun _ _ s => { s with
      dovetail := { s.dovetail with imports := [], importMissing := [], acc := .replicate 25 {} }
      faults := { s.faults with fences := s.faults.fences.filter fun f => !(decide (f.unit = 5) && decide (f.index = 0)) } }) ∧
  Acts .resetUnit specResetUnit
    (fun c s => u8 c.params 0 = 7 ∧ u16 c.params 2 < 16 ∧ (vget s.scribe.queues (u16 c.params 2)).on = true ∧ s.glue = none ∧ s.pair.role = .solo)
    (fun _ _ => zeros 4)
    (fun _ c s => { setQueue (u16 c.params 2) (fun x => { x with head := min 32 (unread x) }) s with
      faults := { s.faults with fences := s.faults.fences.filter fun f => !(decide (f.unit = 7) && decide (f.index = u16 c.params 2)) } }) ∧
  Refuses .resetUnit specResetUnit (fun c s => (u8 c.params 0 = 5 ∨ u8 c.params 0 = 6) ∧ u16 c.params 2 = 0 ∧ s.gauge.trigEnabled = true)
    stWrongState (fun _ _ => zeros 8) ∧
  Refuses .resetUnit specResetUnit (fun c s => u8 c.params 0 = 9 ∧ u16 c.params 2 < 2 ∧ (vget s.bench.ctl (u16 c.params 2)).state ≠ .frozen)
    stWrongState (fun _ _ => zeros 8) ∧
  Refuses .resetUnit specResetUnit (fun c _ => resetUnits (u8 c.params 0) = 0) stBadParam (fun _ _ => zeros 8)

/-- LINK_DISCOVER on an enabled slot that is not up puts it in SEARCH and is accepted. CAM_READ and CAM_WRITE on a slot that is up or in LINK_TEST queue their control transaction and wait for its end. PRBS_TEST and EYE_SCAN on a lane that is free begin, with a run-time claim on a camera link and none on a TH lane. Otherwise ST_WRONG_STATE, and nothing changes. -/
def Obligations.LinkCommandsBegin : Prop :=
  Starts .linkDiscover specLinkDiscover
    (fun c s => (vget (linkNow s c.unit).link c.unit).enable = true ∧ (vget s.links.slots c.unit).state ≠ .linkTest ∧
      connUp s c.unit = false ∧ (vget s.links.slots c.unit).discover = none ∧ (vget s.links.slots c.unit).ctrl = [])
    (fun t c s => searching c.unit (setSlotLink c.unit (fun x => { x with discover := some (nextTicket s, max s.now t) }) { s with now := max s.now t })) ∧
  Refuses .linkDiscover specLinkDiscover (fun c s => (vget (linkNow s c.unit).link c.unit).enable = false ∨ (vget s.links.slots c.unit).state = .linkTest)
    stWrongState (fun _ _ => zeros 8) ∧
  Waits .camRead specCamRead (fun c s => badCamRead c.params = none ∧ camAllowed s c.unit = true)
    (fun t c s => txnQueued c.unit (.camRead (nextTicket s) (u32 c.params 0) (u16 c.params 4)) (max s.now t) s) ∧
  Refuses .camRead specCamRead (fun c s => badCamRead c.params = none ∧ camAllowed s c.unit = false) stWrongState (fun _ _ => zeros 8) ∧
  Waits .camWrite specCamWrite (fun c s => badCamWrite c.params c.paramLen = none ∧ camAllowed s c.unit = true)
    (fun t c s => txnQueued c.unit (.camWrite (nextTicket s) (u32 c.params 0) (slice c.params 8 (u16 c.params 4)) 0) (max s.now t) s) ∧
  Refuses .camWrite specCamWrite (fun c s => badCamWrite c.params c.paramLen = none ∧ camAllowed s c.unit = false) stWrongState (fun _ _ => zeros 8) ∧
  Starts .prbsTest specPrbsTest
    (fun c s => badPrbs c.unit c.params = none ∧ c.unit < 48 ∧ rtHolder s 0x0E c.unit = none ∧ lanesSlotUp s c.unit = none)
    (fun _ c s => holdRt 0x0E c.unit 0x0307 c.unit
      { s with links := { s.links with prbs := s.links.prbs ++ [{ lane := c.unit, par := parPrbs c.params, ticket := nextTicket s }] } }) ∧
  Starts .prbsTest specPrbsTest
    (fun c s => badPrbs c.unit c.params = none ∧ 48 ≤ c.unit ∧ laneTest s c.unit = none ∧
      (if (parPrbs c.params).generate then (vget (cfgNow s).through (laneConn c.unit)).outMode = 2
        else (vget (cfgNow s).through (laneConn c.unit)).inMode = 0))
    (fun _ c s => { s with links := { s.links with prbs := s.links.prbs ++ [{ lane := c.unit, par := parPrbs c.params, ticket := nextTicket s }] } }) ∧
  Refuses .prbsTest specPrbsTest
    (fun c s => badPrbs c.unit c.params = none ∧ c.unit < 48 ∧ rtHolder s 0x0E c.unit = none ∧ (lanesSlotUp s c.unit).isSome = true ∧
      (parPrbs c.params).force = false) stWrongState (fun _ _ => zeros 8) ∧
  Starts .eyeScan specEyeScan
    (fun c s => badEyeScan c.params = none ∧ (c.unit < 48 → rtHolder s 0x0E c.unit = none ∧ (lanesSlotUp s c.unit = none ∨ u8 c.params 0 ≠ 2)) ∧
      (48 ≤ c.unit → laneTest s c.unit = none))
    (fun _ c s =>
      let run : EyeRun := { lane := c.unit, mode := u8 c.params 0, force := bitOf (u8 c.params 1) 0, ref := parBulk c.params 4, ticket := nextTicket s }
      let s' := { s with links := { s.links with eye := s.links.eye ++ [run] } }
      if c.unit < 48 then holdRt 0x0E c.unit 0x0308 c.unit s' else s')

/-- POCXP_SWITCH mode 0 turns a slot's switch off; mode 1 begins detection, waits while VCAM is low, and leaves FAULT; mode 2 clears FAULT. Detection turns the switch on when it finds a PoCXP device, else NOT_POCXP. A trip turns it off to try again after 1 s; a second trip within 10 s latches FAULT. VCAM low turns every switch off; with VCAM restored a switch not in mode 1 stays off. Each change raises 0x0B0 + slot as R238 says and changes nothing else. -/
def Obligations.PocxpSwitches : Prop :=
  Acts .pocxpSwitch specPocxpSwitch
    (fun c s => u8 c.params 0 = 0 ∧ s.links.detectQueue.filter (· ≠ c.unit) = [])
    (fun _ _ => [0, 0, 0, 0])
    (fun _ c s => setPocxp c.unit (fun p => { p with state := .off, mode1 := false, firstTrip := none }) { s with links := { s.links with detectQueue := [] } }) ∧
  Acts .pocxpSwitch specPocxpSwitch
    (fun c s => (u8 c.params 0 = 1 ∧ (vget s.links.pocxp c.unit).state ≠ .fault ∨ u8 c.params 0 = 2) ∧ s.links.vcamLow = true)
    (fun _ _ => [6, 0, 0, 0])
    (fun _ c s => setPocxp c.unit (fun p => { p with state := .vcamLow, mode1 := true, firstTrip := if u8 c.params 0 = 2 then none else p.firstTrip }) s) ∧
  Acts .pocxpSwitch specPocxpSwitch
    (fun c s => u8 c.params 0 = 1 ∧ (vget s.links.pocxp c.unit).state = .off ∧ s.links.vcamLow = false ∧ s.links.detectQueue = [] ∧
      (∀ i : Nat, i < 24 → (vget s.links.pocxp i).state ≠ .detecting) ∧ (∀ o ∈ s.links.lastSwitchOn, o + 10000000 ≤ s.now))
    (fun _ _ => [1, 0, 0, 0]) (fun _ c s => setPocxp c.unit (fun p => { p with state := .detecting, mode1 := true }) s) ∧
  Acts .pocxpSwitch specPocxpSwitch
    (fun c s => u8 c.params 0 = 1 ∧ (vget s.links.pocxp c.unit).state = .fault)
    (fun _ _ => [4, 0, 0, 0]) (fun _ _ s => s) ∧
  (∀ slot, Happens (.pocxpDetectDone · slot true) (fun s => (vget s.links.pocxp slot).state = .detecting)
    (fun s => setPocxp slot (fun p => { p with state := .on }) { s with links := { s.links with lastSwitchOn := some s.now } }) [] noPuts) ∧
  (∀ slot, Happens (.pocxpDetectDone · slot false) (fun s => up s ∧ (vget s.links.pocxp slot).state = .detecting ∧ s.links.detectQueue = [])
    (setPocxp slot fun p => { p with state := .notPocxp }) [0x0B0 + slot] noPuts) ∧
  (∀ slot ma, 650 < ma → Happens (.pocxpTrip · slot ma)
    (fun s => up s ∧ (vget s.links.pocxp slot).state = .on ∧ (∀ f ∈ (vget s.links.pocxp slot).firstTrip, f + 10000000000 < s.now))
    (fun s => setPocxp slot (fun p => { p with state := .retryWait, firstTrip := some s.now, trippedAt := s.now }) s) [0x0B0 + slot] noPuts) ∧
  (∀ slot ma f, 650 < ma → Happens (.pocxpTrip · slot ma)
    (fun s => up s ∧ (vget s.links.pocxp slot).state = .on ∧ (vget s.links.pocxp slot).firstTrip = some f ∧ s.now ≤ f + 10000000000)
    (fun s => setPocxp slot (fun p => { p with state := .fault, mode1 := false, trippedAt := s.now }) s) [0x0B0 + slot] noPuts) ∧
  (∀ slot, Happens (.pocxpRetry · slot)
    (fun s => (vget s.links.pocxp slot).state = .retryWait ∧ (vget s.links.pocxp slot).trippedAt + 1000000000 ≤ s.now)
    (fun s => setPocxp slot (fun p => { p with state := .on }) { s with links := { s.links with lastSwitchOn := some s.now } }) [] noPuts) ∧
  (∀ slot rest, Happens .pocxpSpacingExpired (fun s => s.links.detectQueue = slot :: rest ∧ detectFree s = true)
    (fun s => setPocxp slot (fun p => { p with state := .detecting }) { s with links := { s.links with detectQueue := rest } }) [] noPuts) ∧
  (∀ t s, s.Inv → up s → s.links.vcamLow = false →
    Next (.vcamLow t) s fun r =>
      r.links.vcamLow = true ∧ r.links.detectQueue = [] ∧
      (∀ i : Nat, i < 24 → (vget r.links.pocxp i).state = (if (vget s.links.pocxp i).state = .fault then .fault else .vcamLow) ∧
        ((vget s.links.pocxp i).state ≠ .fault → bitOf r.host.evt.pending (0x0B0 + i) = true)) ∧
      OutFrame { s with links := { s.links with vcamLow := r.links.vcamLow, detectQueue := r.links.detectQueue, pocxp := r.links.pocxp } } r) ∧
  (∀ t s, s.Inv → s.links.vcamLow = true → (∀ i : Nat, i < 24 → (vget s.links.pocxp i).mode1 = false) →
    Next (.vcamRestored t) s fun r =>
      r.links.vcamLow = false ∧
      (∀ i : Nat, i < 24 → (vget r.links.pocxp i).state = (if (vget s.links.pocxp i).state = .vcamLow then .off else (vget s.links.pocxp i).state)) ∧
      OutFrame { s with links := { s.links with vcamLow := r.links.vcamLow, pocxp := r.links.pocxp } } r)

/-- With nothing waiting on the slot: the master link's lock in SEARCH begins CONFIGURE with the bootstrap reads; in STEP_UP the last lock begins ADAPT; ADAPT's sweep keeps each lane's best boost and goes on to TEST_CONN; a clean test brings the slot up, ACTIVE or DEGRADED with its cause. A lost lock, more than 64 code errors, a missing heartbeat, DISCOVER_TIMEOUT and a lock wait with CXP-1 tried twice enter ERROR with their cause; RETRY_DELAY with AUTO_RECOVER begins SEARCH. Each change raises 0x080 + slot and changes nothing else. -/
def Obligations.ConnectionStates : Prop :=
  (∀ link, 48 ≤ link → Happens (.linkLock · link) up (setLane link fun l => { l with locked := true }) [] noPuts) ∧
  (∀ link slot, link < 48 → Happens (.linkLock · link)
    (fun s => up s ∧ slotOfLink s link = some slot ∧ link = masterLink slot ∧ (vget s.links.slots slot).state = .search ∧ Calm slot s)
    (fun s => txnQueued slot .bootRead s.now (connIn slot .configure .none (setLane link (fun l => { l with locked := true }) s))) [0x080 + slot] noPuts) ∧
  (∀ link slot, link < 48 → Happens (.linkLock · link)
    (fun s => up s ∧ slotOfLink s link = some slot ∧ (vget s.links.slots slot).state = .stepUp ∧
      (∀ l ∈ usedLinks s slot, l ≠ link → laneLocked l s = true))
    (fun s => setSlotLink slot (fun x => { x with rate := x.tryRate, state := .adapt, cause := .none, since := s.now })
      (setLane link (fun l => { l with locked := true }) s)) [0x080 + slot] noPuts) ∧
  (∀ link, link < 48 → Happens (.lockLost · link) (fun s => up s ∧ laneLocked link s = true ∧ slotOfLink s link = none)
    (setLane link fun l => { l with locked := false, lockLoss := wrap32 (l.lockLoss + 1) }) [] noPuts) ∧
  (∀ link slot, link < 48 → Happens (.lockLost · link)
    (fun s => up s ∧ laneLocked link s = true ∧ slotOfLink s link = some slot ∧ connUp s slot = true ∧ Calm slot s)
    (fun s => connLost slot .lockLost (setLane link (fun l => { l with locked := false, lockLoss := wrap32 (l.lockLoss + 1) }) s)) [0x080 + slot] noPuts) ∧
  (∀ link n slot, link < 48 → 64 < n → Happens (.codeErrorLimit · link n)
    (fun s => up s ∧ slotOfLink s link = some slot ∧ connUp s slot = true ∧ Calm slot s)
    (fun s => connLost slot .codeErrors (setLane link (fun l => { l with codeErr := wrap32 (l.codeErr + n) }) s)) [0x080 + slot] noPuts) ∧
  (∀ slot, Happens (.discoverTimeout · slot)
    (fun s => up s ∧ (vget s.links.slots slot).state = .search ∧ Calm slot s ∧
      (vget s.links.slots slot).since + (vget (linkNow s slot).link slot).discoverTimeout * 1000000 ≤ s.now)
    (connIn slot .error .noCamera) [0x080 + slot] noPuts) ∧
  (∀ slot, slot < 24 → Happens (.bringupStepTimeout · slot)
    (fun s => up s ∧ (vget s.links.slots slot).state = .stepUp ∧ (vget s.links.slots slot).repeated = true ∧ (vget s.links.slots slot).tryRate = 1 ∧
      Calm slot s ∧ (vget s.links.slots slot).since + 200000000 ≤ s.now)
    (fun s => connIn slot .error .noLock s) [0x080 + slot] noPuts) ∧
  (∀ slot, slot < 24 → Happens (.bringupStepTimeout · slot)
    (fun s => up s ∧ (vget s.links.slots slot).state = .stepUp ∧ (vget s.links.slots slot).repeated = false ∧ (vget s.links.slots slot).tryRate = 25 ∧
      Calm slot s ∧ (vget s.links.slots slot).since + 200000000 ≤ s.now)
    (fun s => setSlotLink slot (fun x => { x with repeated := true, state := .adapt, cause := .none, since := s.now }) s) [0x080 + slot] noPuts) ∧
  (∀ slot sweeps, Happens (.adaptSweepDone · slot sweeps) (fun s => up s ∧ (vget s.links.slots slot).state = .adapt ∧ slot < 24)
    (fun s => connIn slot .testConn .none (((usedLinks s slot).zip sweeps).foldl (fun s p =>
      setLane p.1 (fun l => { l with
        boost := bestBoost p.2
        quality := eyeWidth (p.2.getD (bestBoost p.2) (0, 0)).1
        height := eyeHeight (p.2.getD (bestBoost p.2) (0, 0)).2 }) s) s)) [0x080 + slot] noPuts) ∧
  (∀ slot, Happens (.testConnDone · slot true)
    (fun s => up s ∧ (vget s.links.slots slot).state = .testConn ∧ Calm slot s ∧ slot < 24)
    (fun s => txnQueued slot .pktMaxWrite s.now (setSlotLink slot (fun x => { x with
      state := if degradedCause s slot = .none then .active else .degraded, cause := degradedCause s slot, since := s.now, lastBeat := s.now }) s))
    [0x080 + slot] noPuts) ∧
  (∀ slot, Happens (.retryDelayExpired · slot)
    (fun s => up s ∧ (vget s.links.slots slot).state = .error ∧ Calm slot s ∧ (vget (linkNow s slot).link slot).autoRecover = true ∧
      (vget s.links.slots slot).since + (vget (linkNow s slot).link slot).retryDelay * 1000000 ≤ s.now)
    (searching slot) [0x080 + slot] noPuts) ∧
  (∀ slot, Happens (.heartbeatTimeout · slot)
    (fun s => up s ∧ connUp s slot = true ∧ Calm slot s ∧ (vget (linkNow s slot).link slot).heartbeatTimeout ≠ 0 ∧
      (vget s.links.slots slot).lastBeat + (vget (linkNow s slot).link slot).heartbeatTimeout * 1000000 ≤ s.now)
    (fun s => connLost slot .heartbeat (setSlotLink slot (fun x => { x with heartbeatMiss := wrap32 (x.heartbeatMiss + 1) }) s)) [0x080 + slot] noPuts) ∧
  (∀ slot, Happens (.cameraHeartbeat · slot) up (fun s => setSlotLink slot (fun x => { x with lastBeat := s.now }) s) [] noPuts) ∧
  (∀ slot, Happens (.triggerAck · slot) up (setSlotLink slot fun x => { x with trigAck := wrap32 (x.trigAck + 1) }) [] noPuts)

/-- A PRBS test at its DURATION and a finished eye scan end their command with ST_OK and give up their claim; an eye map goes to host memory, or after two failures of its transfer ends ST_HOST_ERROR; a re-adaptation leaves the lane at the best boost. A camera's answer ends CAM_READ and the last part of CAM_WRITE. A wait acknowledgement puts the timeout off, up to 10 s. A timeout repeats the transaction once, and the second ends it. -/
def Obligations.LinkCommandsEnd : Prop :=
  (∀ lane bits errors unlocks injections locked, ∀ run : PrbsRun,
    Concludes (.prbsTestEnd · lane bits errors unlocks injections locked)
      (fun s => up s ∧ s.links.prbs.find? (fun r => decide (r.lane = lane)) = some run ∧
        ∀ slot ∈ slotOfLink s lane, (vget s.links.slots slot).state ≠ .linkTest)
      (fun _ => run.ticket) (fun _ => stOk)
      (fun s => dropRt 0x0E lane 0x0307 lane { s with links := { s.links with prbs := s.links.prbs.erase run } }) [] noPuts) ∧
  (∀ lane sweep taps map, ∀ run : EyeRun, run.mode = 0 →
    Concludes (.eyeScanDone · lane sweep taps map 0)
      (fun s => up s ∧ s.links.eye.find? (fun r => decide (r.lane = lane)) = some run) (fun _ => run.ticket) (fun _ => stOk)
      (fun s => dropRt 0x0E lane 0x0308 lane { s with links := { s.links with eye := s.links.eye.erase run } }) [] noPuts) ∧
  (∀ lane sweep taps map, ∀ run : EyeRun, run.mode = 1 →
    Concludes (.eyeScanDone · lane sweep taps map 0)
      (fun s => up s ∧ s.links.eye.find? (fun r => decide (r.lane = lane)) = some run ∧ (cmdOf s run.ticket).any (·.silent) = false)
      (fun _ => run.ticket) (fun _ => stOk)
      (fun s => dropRt 0x0E lane 0x0308 lane { s with links := { s.links with eye := s.links.eye.erase run } }) []
      (fun _ => [.hostWrite run.ref.addr (padTo 4096 map) false])) ∧
  (∀ lane sweep taps map fails, ∀ run : EyeRun, run.mode = 1 → 2 ≤ fails →
    Concludes (.eyeScanDone · lane sweep taps map fails)
      (fun s => up s ∧ s.links.eye.find? (fun r => decide (r.lane = lane)) = some run) (fun _ => run.ticket) (fun _ => stHostError)
      (fun s => dropRt 0x0E lane 0x0308 lane { s with links := { s.links with eye := s.links.eye.erase run } }) [] noPuts) ∧
  (∀ lane sweep taps map fails, ∀ run : EyeRun, run.mode = 2 →
    Concludes (.eyeScanDone · lane sweep taps map fails)
      (fun s => up s ∧ s.links.eye.find? (fun r => decide (r.lane = lane)) = some run) (fun _ => run.ticket) (fun _ => stOk)
      (fun s => setLane lane (fun l => { l with
          boost := bestBoost sweep
          quality := eyeWidth (sweep.getD (bestBoost sweep) (0, 0)).1
          height := eyeHeight (sweep.getD (bestBoost sweep) (0, 0)).2 })
        (dropRt 0x0E lane 0x0308 lane { s with links := { s.links with eye := s.links.eye.erase run } })) [] noPuts) ∧
  (∀ slot data w addr len, Concludes (.controlAnswer · slot (.data data))
    (fun s => up s ∧ slot < 24 ∧ (vget s.links.slots slot).ctrl = [.camRead w addr len] ∧ (vget s.links.slots slot).ctrlRetried = false)
    (fun _ => w) (fun _ => stOk) (setSlotLink slot fun x => { x with ctrl := [] }) [] noPuts) ∧
  (∀ slot w addr todo n, todo.length ≤ 256 → Concludes (.controlAnswer · slot .done)
    (fun s => up s ∧ slot < 24 ∧ (vget s.links.slots slot).ctrl = [.camWrite w addr todo n] ∧ (vget s.links.slots slot).ctrlRetried = false)
    (fun _ => w) (fun _ => stOk) (setSlotLink slot fun x => { x with ctrl := [] }) [] noPuts) ∧
  (∀ slot ms, Happens (.controlAnswer · slot (.wait ms)) (fun s => up s ∧ (vget s.links.slots slot).ctrl ≠ [])
    (fun s => setSlotLink slot (fun x => { x with ctrlDeadline := min x.ctrlLatest (s.now + ms * 1000000) }) s) [] noPuts) ∧
  (∀ slot x rest, Happens (.controlTimeout · slot)
    (fun s => up s ∧ isPassive s = false ∧ slot < 24 ∧ (vget s.links.slots slot).ctrl = x :: rest ∧ (vget s.links.slots slot).ctrlDeadline ≤ s.now ∧
      (vget s.links.slots slot).ctrlRetried = false)
    (fun s => setSlotLink slot (fun y => { y with ctrlRetried := true, ctrlDeadline := s.now + 200000000, ctrlLatest := s.now + 10000000000 }) s) []
    (fun _ => [.ctrlRequest slot x])) ∧
  (∀ slot w addr len, Concludes (.controlTimeout · slot)
    (fun s => up s ∧ slot < 24 ∧ (vget s.links.slots slot).ctrl = [.camRead w addr len] ∧ (vget s.links.slots slot).ctrlDeadline ≤ s.now ∧
      (vget s.links.slots slot).ctrlRetried = true)
    (fun _ => w) (fun _ => stOk) (setSlotLink slot fun x => { x with ctrl := [], ctrlRetried := false }) [] noPuts)

/-- A stream packet on a slot that is not up is ignored; one with a bad CRC or another STREAM_ID is counted and dropped; one behind the window is dropped; one ahead waits in it; the next in order goes to its line. A camera event packet is counted, raises 0x098 + slot and goes to EVENT_QUEUE with its strip. A lane's quality below QUAL_WARN raises its event once, and re-arms above QUAL_WARN + 50 mUI. A relay character goes out with RELAY_DELAY while the source is RELAY; an invalid one is counted; a TH lane that loses lock is counted. -/
def Obligations.PacketsLanesAndRelay : Prop :=
  (∀ slot pkt, Happens (.streamPacket · slot pkt) (fun s => up s ∧ connUp s slot = false) id [] noPuts) ∧
  (∀ slot, ∀ pkt : StreamPkt, pkt.crcOk = false → Happens (.streamPacket · slot pkt) (fun s => up s ∧ connUp s slot = true ∧ s.links.eye = [])
    (setLane pkt.link fun l => { l with pktCrc := wrap32 (l.pktCrc + 1) }) [] noPuts) ∧
  (∀ slot, ∀ pkt : StreamPkt, pkt.crcOk = true → Happens (.streamPacket · slot pkt)
    (fun s => up s ∧ connUp s slot = true ∧ s.links.eye = [] ∧ pkt.streamId ≠ (vget (linkNow s slot).link slot).streamId)
    (setSlotLink slot fun x => { x with streamErr := wrap32 (x.streamErr + 1) }) [] noPuts) ∧
  (∀ slot n, ∀ pkt : StreamPkt, pkt.crcOk = true → Happens (.streamPacket · slot pkt)
    (fun s => up s ∧ connUp s slot = true ∧ s.links.eye = [] ∧ pkt.streamId = (vget (linkNow s slot).link slot).streamId ∧
      (vget s.links.slots slot).stream.nextTag = some n ∧ 128 ≤ tagAhead (pkt.tag % 256) n) id [] noPuts) ∧
  (∀ slot n, ∀ pkt : StreamPkt, pkt.crcOk = true → slot < 24 → Happens (.streamPacket · slot pkt)
    (fun s => up s ∧ connUp s slot = true ∧ s.links.eye = [] ∧ pkt.streamId = (vget (linkNow s slot).link slot).streamId ∧
      (vget s.links.slots slot).stream.nextTag = some n ∧ 0 < tagAhead (pkt.tag % 256) n ∧ tagAhead (pkt.tag % 256) n < 16 ∧
      (vget s.links.slots slot).stream.window = [] ∧ n < 256)
    (fun s => setSlotLink slot (fun x => { x with stream := { x.stream with
      window := [{ pkt := { pkt with tag := pkt.tag % 256 }, time := shortTime s }] } }) s) [] noPuts) ∧
  (∀ slot n, ∀ pkt : StreamPkt, pkt.crcOk = true → slot < 24 → Happens (.streamPacket · slot pkt)
    (fun s => up s ∧ connUp s slot = true ∧ s.links.eye = [] ∧ pkt.streamId = (vget (linkNow s slot).link slot).streamId ∧
      (vget s.links.slots slot).stream.nextTag = some n ∧ pkt.tag % 256 = n ∧ pkt.header = none ∧ pkt.first = false ∧ pkt.last = false ∧
      (vget s.links.slots slot).stream.window = [] ∧ (vget s.links.slots slot).stream.lineStart.isSome = true)
    (fun s => setSlotLink slot (fun x => { x with stream := { x.stream with
      nextTag := some ((n + 1) % 256), lineData := x.stream.lineData ++ pkt.data } }) s) [] noPuts) ∧
  (∀ slot id_ ns time data, slot < 24 → Happens (.cameraEventPacket · slot id_ ns time data)
    (fun s => up s ∧ (vget (linkNow s slot).link slot).eventQueue = none)
    (setSlotLink slot fun x => { x with eventPkt := wrap32 (x.eventPkt + 1) }) [0x098 + slot] noPuts) ∧
  (∀ slot id_ ns time data q, ∀ line : Nat, slot < 24 → Happens (.cameraEventPacket · slot id_ ns time data)
    (fun s => up s ∧ (vget (linkNow s slot).link slot).eventQueue = some q ∧ vget s.scribe.slotLine slot = some line)
    (fun s => { setSlotLink slot (fun x => { x with eventPkt := wrap32 (x.eventPkt + 1) }) s with
      scribe := { s.scribe with inbox := s.scribe.inbox ++
        [{ kind := .camEvent, queue := q, strip := stripAt s line, lastLine := stripEnd s line, slot := slot,
           body := camEventBody (stripAt s line) slot id_ ns time data }] } }) [0x098 + slot] noPuts) ∧
  (∀ slot id_ ns time data q, slot < 24 → Happens (.cameraEventPacket · slot id_ ns time data)
    (fun s => up s ∧ (vget (linkNow s slot).link slot).eventQueue = some q ∧ vget s.scribe.slotLine slot = none)
    (fun s => { setSlotLink slot (fun x => { x with eventPkt := wrap32 (x.eventPkt + 1) }) s with
      scribe := { s.scribe with camHeld := s.scribe.camHeld ++
        [{ kind := .camEvent, queue := q, strip := 0, lastLine := 0, slot := slot, body := camEventBody 0 slot id_ ns time data }] } })
    [0x098 + slot] noPuts) ∧
  (∀ lane steps errs, lane < 96 → Happens (.laneQualityUpdate · lane steps errs)
    (fun s => up s ∧ eyeWidth steps < laneQualWarn s lane ∧ (vget s.links.lanes lane).warned = false)
    (setLane lane fun l => { l with quality := eyeWidth steps, codeErr := wrap32 (l.codeErr + errs), warned := true })
    [if lane < 48 then 0x0C8 + lane else 0x0F8 + laneConn lane] noPuts) ∧
  (∀ lane steps errs, lane < 96 → Happens (.laneQualityUpdate · lane steps errs)
    (fun s => eyeWidth steps < laneQualWarn s lane ∧ (vget s.links.lanes lane).warned = true ∨
      laneQualWarn s lane ≤ eyeWidth steps ∧ eyeWidth steps ≤ laneQualWarn s lane + 50)
    (setLane lane fun l => { l with quality := eyeWidth steps, codeErr := wrap32 (l.codeErr + errs) }) [] noPuts) ∧
  (∀ lane steps errs, lane < 96 → Happens (.laneQualityUpdate · lane steps errs) (fun s => laneQualWarn s lane + 50 < eyeWidth steps)
    (setLane lane fun l => { l with quality := eyeWidth steps, codeErr := wrap32 (l.codeErr + errs), warned := false }) [] noPuts) ∧
  (∀ conn delay, Happens (.relayLock · conn delay) (fun _ => True)
    (setThrough conn fun x => { x with relayLocked := true, relayDelay := some (x.relayDelay.getD delay) }) [] noPuts) ∧
  (∀ conn lane, conn < 2 → lane < 24 → Happens (.thInputLockLoss · conn lane) (fun s => up s ∧ laneLocked (48 + 24 * conn + lane) s = true)
    (fun s => setThrough conn (fun x => { x with inLockLoss := wrap32 (x.inLockLoss + 1) })
      (setLane (48 + 24 * conn + lane) (fun l => { l with locked := false, lockLoss := wrap32 (l.lockLoss + 1) }) s)) [0x0F8 + conn] noPuts) ∧
  (∀ conn ch, conn < 2 → ch ≠ 0x13C → Happens (.relayCharacterRx · conn [some ch]) (fun s => (vget s.links.through conn).relaySource = true) id []
    (fun s => [.relayChar (24 * conn) ch ((vget s.links.through conn).relayDelay.getD 0)])) ∧
  (∀ conn, conn < 2 → Happens (.relayCharacterRx · conn [none]) (fun _ => True)
    (setThrough conn fun x => { x with relayCharErr := wrap32 (x.relayCharErr + 1) }) [] noPuts)

/-- A quadrature change of an encoder in use adds or takes one count of 65,536, with its time stamp; the first count against the present direction is held; the web encoder's position is WebPos. A change of both lines is counted as illegal, and the eighth within 4,096 counts raises ENC_FAULT. An index edge latches the position, and in modes 2 (once) and 3 sets it to REZERO_VALUE. STILL_TIMEOUT without a count sets STILL. An unused input only shows its levels. -/
def Obligations.EncodersCount : Prop :=
  (∀ e a b, e < 6 → Happens (.encoderCount · e a b) (fun s => (vget (cfgNow s).enc e).role = 0)
    (setEnc e fun x => { x with levelA := a, levelB := b }) [] noPuts) ∧
  (∀ e a b forward, e < 6 → Happens (.encoderCount · e a b)
    (fun s => (vget (cfgNow s).enc e).role = 3 ∧ s.faults.injections = [] ∧ noGearing s ∧ webEnc s ≠ some e ∧
      quadrature (vget s.gauge.enc e).levelA (vget s.gauge.enc e).levelB a b (vget (cfgNow s).enc e).sense = some forward ∧
      (vget s.gauge.enc e).held = none ∧ ((vget s.gauge.enc e).dir = none ∨ (vget s.gauge.enc e).dir = some forward))
    (fun s => setEnc e (fun x => { counted1 forward (s.now - 2 * ((vget (cfgNow s).enc e).filter - 1)) s.now x with levelA := a, levelB := b }) s) [] noPuts) ∧
  (∀ e a b forward, e < 6 → Happens (.encoderCount · e a b)
    (fun s => (vget (cfgNow s).enc e).role = 3 ∧ s.faults.injections = [] ∧ webEnc s ≠ some e ∧
      quadrature (vget s.gauge.enc e).levelA (vget s.gauge.enc e).levelB a b (vget (cfgNow s).enc e).sense = some forward ∧
      (vget s.gauge.enc e).held = none ∧ (vget s.gauge.enc e).dir = some (!forward))
    (fun s => setEnc e (fun x => { x with
      levelA := a, levelB := b, held := some (s.now - 2 * ((vget (cfgNow s).enc e).filter - 1)), lastCount := some s.now, still := false
      times := if x.still then [] else x.times }) s) [] noPuts) ∧
  (∀ e a b forward, e < 6 → Happens (.encoderCount · e a b)
    (fun s => (vget (cfgNow s).enc e).role = 1 ∧ webEnc s = some e ∧ s.gauge.reserveActive = false ∧ s.faults.injections = [] ∧ noGearing s ∧
      noCompares s ∧ lone s ∧ s.gauge.trigEnabled = false ∧ (vget s.gauge.enc e).still = false ∧ (vget s.gauge.enc e).illegalAt = [] ∧
      encOfRole (cfgNow s) 2 = none ∧
      quadrature (vget s.gauge.enc e).levelA (vget s.gauge.enc e).levelB a b (vget (cfgNow s).enc e).sense = some forward ∧
      (vget s.gauge.enc e).held = none ∧ ((vget s.gauge.enc e).dir = none ∨ (vget s.gauge.enc e).dir = some forward))
    (fun s =>
      let s' := setEnc e (fun x => { counted1 forward (s.now - 2 * ((vget (cfgNow s).enc e).filter - 1)) s.now x with levelA := a, levelB := b }) s
      { s' with gauge := { s'.gauge with
        webPos := (vget s'.gauge.enc e).position
        reserveOffset := (vget s'.gauge.enc e).position * 65536 } }) [] noPuts) ∧
  (∀ e a b, e < 6 → Happens (.encoderCount · e a b)
    (fun s => (vget (cfgNow s).enc e).role = 3 ∧ s.faults.injections = [] ∧ lone s ∧ (vget s.gauge.enc e).illegalAt.length < 7 ∧
      illegalChange (vget s.gauge.enc e).levelA (vget s.gauge.enc e).levelB a b = true)
    (setEnc e fun x => { x with levelA := a, levelB := b, illegal := wrap32 (x.illegal + 1), illegalAt := x.counts :: x.illegalAt }) [] noPuts) ∧
  (∀ e a b, e < 6 → Happens (.encoderCount · e a b)
    (fun s => up s ∧ (vget (cfgNow s).enc e).role = 3 ∧ s.faults.injections = [] ∧ lone s ∧ (vget s.gauge.enc e).encFault = false ∧
      (vget s.gauge.enc e).illegalAt.length = 7 ∧
      (∀ n ∈ (vget s.gauge.enc e).illegalAt.getLast?, (vget s.gauge.enc e).counts ≤ n + 4096) ∧
      (∀ i : Nat, i < 4 → (axisCfg s i).encoder ≠ some e) ∧
      illegalChange (vget s.gauge.enc e).levelA (vget s.gauge.enc e).levelB a b = true)
    (setEnc e fun x => { x with
      levelA := a, levelB := b, illegal := wrap32 (x.illegal + 1), illegalAt := x.counts :: x.illegalAt, encFault := true }) [0x380 + e] noPuts) ∧
  (∀ e, e < 6 → Happens (.indexEdge · e)
    (fun s => up s ∧ (vget (cfgNow s).enc e).role ≠ 0 ∧ (∀ a : Nat, a < 4 → (vget s.axes.ax a).home = none) ∧
      ((vget (cfgNow s).enc e).indexMode = 1 ∨ (vget (cfgNow s).enc e).indexMode = 3 ∨
        (vget (cfgNow s).enc e).indexMode = 2 ∧ (vget s.gauge.enc e).rezeroArmed = true))
    (fun s => setEnc e (fun x => { x with
      indexPos := x.position
      position := if (vget (cfgNow s).enc e).indexMode = 1 then x.position else (vget (cfgNow s).enc e).rezero
      rezeroArmed := false }) s) [0x386 + e] noPuts) ∧
  (∀ e, e < 6 → Happens (.indexEdge · e)
    (fun s => (∀ a : Nat, a < 4 → (vget s.axes.ax a).home = none) ∧
      ((vget (cfgNow s).enc e).indexMode = 0 ∨ (vget (cfgNow s).enc e).indexMode = 2 ∧ (vget s.gauge.enc e).rezeroArmed = false)) id [] noPuts) ∧
  (∀ e l, e < 6 → Happens (.stillTimeout · e)
    (fun s => (vget (cfgNow s).enc e).role ≠ 0 ∧ webEnc s ≠ some e ∧ (vget s.gauge.enc e).lastCount = some l ∧
      l + (vget (cfgNow s).enc e).stillTimeout * 1000 ≤ s.now)
    (setEnc e fun x => { x with still := true }) [] noPuts) ∧
  (∀ e l, e < 6 → Happens (.stillTimeout · e)
    (fun s => up s ∧ (vget (cfgNow s).enc e).role ≠ 0 ∧ webEnc s = some e ∧ (vget s.gauge.enc e).still = false ∧
      (vget s.gauge.enc e).lastCount = some l ∧ l + (vget (cfgNow s).enc e).stillTimeout * 1000 ≤ s.now)
    (setEnc e fun x => { x with still := true }) [0x391] noPuts)

/-- With no slot triggered, TRIGGER_ENABLE begins line triggering at START_LINE and ORIGIN and raises 0x38D; ENABLE 0 in MODE 0 sets the last line to trigger, that of the strip's end. A target's request goes out when its predicted time less LEAD has come, or waits for its anchor count; a held request goes out once MIN_PERIOD has passed. A ripe request fires: its strobe's TRG output pulses for its width, and a pulse that ends returns the output. -/
def Obligations.LineTriggers : Prop :=
  (∀ (t : Nat) (c : HostCmd) (s : State) (q : LineSeq) (e : Nat), Ready specTriggerEnable c s → badTriggerEnable c.params = none → u8 c.params 0 = 1 →
    lone s → s.gauge.trigEnabled = false → s.gauge.enableWait = none → s.bench.entering = none → s.faults.selftest = none →
    (cfgNow s).seq = some q → encOfRole (cfgNow s) 1 = some e → startRefused s (u32 c.params 4) = false →
    (∀ i : Nat, i < 24 → (vget (cfgNow s).trig i).enable = false ∧ (vget s.gauge.slots i).pend = []) →
    Next (.triggerEnable t c) s fun r =>
      Completes 0x0C06 (le 4 (u32 c.params 4)) c s r ∧ bitOf r.host.evt.pending 0x38D = true ∧
      r.gauge.trigEnabled = true ∧ r.gauge.trigHalted = false ∧ r.gauge.startLine = some (u32 c.params 4) ∧ r.gauge.startPending = true ∧
      r.gauge.n0 = u32 c.params 4 ∧
      r.gauge.origin = toSigned 64 (toUnsigned 64 (s64 c.params 8 + (if u8 c.params 1 = 1 then s.gauge.webPos else 0))) ∧
      r.gauge.lastStrip = stripOf (cfgNow s).shift (u32 c.params 4) ∧ r.gauge.lastShift = (cfgNow s).shift ∧
      (∀ i : Nat, i < 24 → (vget r.gauge.slots i).nextLine = u32 c.params 4 ∧ (vget r.gauge.slots i).nextField = 0) ∧
      r.gauge.enc = s.gauge.enc ∧ r.gauge.webPos = s.gauge.webPos ∧ r.gauge.cmp = s.gauge.cmp ∧ r.gauge.trg = s.gauge.trg ∧
      r.gauge.lastLine = s.gauge.lastLine ∧
      ReplyFrame { s with free := r.free, gauge := r.gauge, bench := { s.bench with epochs := r.bench.epochs } } r) ∧
  Acts .triggerEnable specTriggerEnable
    (fun c s => u8 c.params 0 = 0 ∧ u8 c.params 1 = 0 ∧ s.gauge.trigEnabled = true ∧ s.glue = none ∧ s.pair.role = .solo ∧ s.pair.switchAt = none ∧
      ∃ i : Fin 24, (vget s.gauge.slots i).pend ≠ [])
    (fun _ s => le 4 (wrap32 (stripFirst s.gauge.lastShift s.gauge.lastStrip + 2 ^ s.gauge.lastShift - 1)))
    (fun _ _ s => { s with gauge := { s.gauge with
      stopAfter := some (wrap32 (stripFirst s.gauge.lastShift s.gauge.lastStrip + 2 ^ s.gauge.lastShift - 1)) } }) ∧
  Refuses .triggerEnable specTriggerEnable
    (fun c s => badTriggerEnable c.params = none ∧ (u8 c.params 0 = 0 ∧ s.gauge.trigEnabled = false ∨ u8 c.params 0 = 1 ∧ s.gauge.trigEnabled = true))
    stWrongState (fun _ _ => zeros 8) ∧
  (∀ slot, slot < 24 → Happens (.triggerRequest · slot) (fun s => firing s = false ∨ nextTarget s slot = none) id [] noPuts) ∧
  (∀ slot n f pos q ft, slot < 24 → Happens (.triggerRequest · slot)
    (fun s => firing s = true ∧ inReverse s = false ∧ nextTarget s slot = some (n, f, pos, q) ∧ firesOnCount s slot n pos = false ∧
      predictFire s q pos = some ft ∧ ft ≤ s.now + leadOf s slot n ∧ atAnchor s pos = false)
    (setSlotTrig slot fun x => { x with overshot := true }) [] noPuts) ∧
  (∀ (t : Nat) (s : State) (slot n f ft : Nat) (pos : Int) (q : LineSeq), s.Inv → slot < 24 → lone s → noneRipe (tick t s) →
    firing s = true → inReverse s = false → nextTarget (tick t s) slot = some (n, f, pos, q) → firesOnCount s slot n pos = false →
    predictFire (tick t s) q pos = some ft → ft ≤ max s.now t + leadOf s slot n → atAnchor s pos = true → 0 < leadOf s slot n →
    heldOf (vget s.gauge.slots slot) = [] →
    (∀ l ∈ (vget s.gauge.slots slot).lastRequest, l + (slotTrigAt s slot n).minPeriod * 8 ≤ max s.now t) → (slotTrigAt s slot n).trgPacket = false →
    Next (.triggerRequest t slot) s fun r =>
      (vget r.gauge.slots slot).pend = (vget s.gauge.slots slot).pend ++ [{
        line := n, field := f, tpos := pos, requested := true
        fireTime := max ft (max s.now t + leadOf s slot n), late := (vget s.gauge.slots slot).overshot, skip := (vget s.gauge.slots slot).skipBefore }] ∧
      (vget r.gauge.slots slot).lastRequest = some (max s.now t) ∧ (vget r.gauge.slots slot).skipBefore = false ∧
      ((vget r.gauge.slots slot).nextLine, (vget r.gauge.slots slot).nextField) = (if f + 1 < q.fields then (n, f + 1) else (wrap32 (n + 1), 0)) ∧
      (∀ i : Nat, i < 24 → i ≠ slot → vget r.gauge.slots i = vget s.gauge.slots i) ∧
      OutFrame { s with gauge := { s.gauge with slots := r.gauge.slots } } r) ∧
  (∀ slot, slot < 24 → Happens (.triggerFire · slot) (fun s => ripe s.now (vget s.gauge.slots slot) = []) id [] noPuts) ∧
  (∀ (p : TrigPend) (slot o : Nat), slot < 24 → o < 8 → p.late = false → Happens (.triggerFire · slot)
    (fun s => lone s ∧ s.gauge.startPending = false ∧ (∀ l ∈ s.gauge.lastLine, later32 p.line l = false) ∧ s.gauge.lastLine ≠ none ∧
      (vget s.gauge.slots slot).pend = [p] ∧ p.requested = true ∧ p.fireTime ≤ s.now ∧
      (∀ i : Nat, i < 24 → i ≠ slot → ripe s.now (vget s.gauge.slots i) = []) ∧ jigHoldsStrobes s slot p.line = false ∧
      ingestOn (cfgAt s p.line) slot = false ∧ (slotTrigAt s slot p.line).strobe0.trg = some o ∧
      bitOf (slotTrigAt s slot p.line).strobe0.fieldMask p.field = true ∧ (slotTrigAt s slot p.line).strobe1.trg = none)
    (fun s => setSlotTrig slot (fun x => { x with pend := [] }) { s with gauge := { s.gauge with trg := vset s.gauge.trg o {
      active := true, inverted := (slotTrigAt s slot p.line).strobe0.inverted
      until_ := if (vget s.gauge.trg o).active then max (vget s.gauge.trg o).until_ (s.now + (slotTrigAt s slot p.line).strobe0.width)
        else s.now + (slotTrigAt s slot p.line).strobe0.width } } }) [] noPuts) ∧
  (∀ slot, slot < 24 → Happens (.minPeriodRelease · slot) (fun s => heldOf (vget s.gauge.slots slot) = []) id [] noPuts) ∧
  (∀ (p : TrigPend) (rest : List TrigPend) (slot : Nat), slot < 24 → Happens (.minPeriodRelease · slot)
    (fun s => lone s ∧ noneRipe s ∧ heldOf (vget s.gauge.slots slot) = p :: rest ∧ 0 < leadOf s slot p.line ∧
      (∀ l ∈ (vget s.gauge.slots slot).lastRequest, l + (slotTrigAt s slot p.line).minPeriod * 8 ≤ s.now) ∧
      (slotTrigAt s slot p.line).trgPacket = false)
    (fun s => setSlotTrig slot (fun x => { x with
      pend := (x.pend.filter (·.requested)) ++ { p with requested := true, fireTime := s.now + leadOf s slot p.line } :: rest
      lastRequest := some s.now }) s) [] noPuts) ∧
  (∀ trg, trg < 8 → Happens (.trgPulseEnd · trg) (fun s => (vget s.gauge.trg trg).active = true ∧ (vget s.gauge.trg trg).until_ ≤ s.now)
    (fun s => { s with gauge := { s.gauge with trg := vset s.gauge.trg trg { (vget s.gauge.trg trg) with active := false } } }) [] noPuts) ∧
  (∀ trg, trg < 8 → Happens (.trgPulseEnd · trg) (fun s => s.now < (vget s.gauge.trg trg).until_) id [] noPuts)

/-- An append to the shadow list keeps the list in position order and replies at once; one to the active list waits for its last insertion. An insertion ahead of WebPos goes to its place, another counts as missed; the last one ends the command. COMPARE_SWAP exchanges the lists, each entry ahead kept, under a lock of up to 400 ns. A first entry fires at its predicted time from its anchor count on: it leaves the list, pulses its output and raises its event. A unit that a marker station claims, or that is off, replies ST_WRONG_STATE. -/
def Obligations.CompareUnits : Prop :=
  Acts .compareAppend compareAppendSpec
    (fun c s => badAppend c = none ∧ compareShut s c.unit = false ∧ u8 c.params 0 = 1 ∧ bitOf (u8 c.params 1) 0 = false ∧
      (∀ e ∈ appendEntries c, e.axisStart = false) ∧ (vget s.gauge.cmp c.unit).lockUntil ≤ s.now ∧
      (vget s.gauge.cmp c.unit).shadow.length + u16 c.params 2 ≤ 4096)
    (fun c s => appendBody (u16 c.params 2) 0 (4096 - ((vget s.gauge.cmp c.unit).shadow.length + u16 c.params 2)))
    (fun _ c s => setCmp c.unit (fun x => { x with
      shadow := (appendEntries c).foldl (fun l e => insertBy (cmpBefore (cmpCfg s c.unit).reverse) e l) x.shadow }) s) ∧
  Acts .compareAppend compareAppendSpec
    (fun c s => badAppend c = none ∧ compareShut s c.unit = false ∧ u8 c.params 0 = 1 ∧ bitOf (u8 c.params 1) 0 = true ∧
      (∀ e ∈ appendEntries c, e.axisStart = false) ∧ (vget s.gauge.cmp c.unit).lockUntil ≤ s.now)
    (fun c _ => appendBody (u16 c.params 2) 0 (4096 - u16 c.params 2))
    (fun _ c s => setCmp c.unit (fun x => { x with
      shadow := (appendEntries c).foldl (fun l e => insertBy (cmpBefore (cmpCfg s c.unit).reverse) e l) [] }) s) ∧
  Waits .compareAppend compareAppendSpec
    (fun c s => badAppend c = none ∧ compareShut s c.unit = false ∧ u8 c.params 0 = 0 ∧ (∀ e ∈ appendEntries c, e.axisStart = false) ∧
      (vget s.gauge.cmp c.unit).active.length + (vget s.gauge.cmp c.unit).inserting.length + u16 c.params 2 ≤ 4096)
    (fun t c s => setCmp c.unit (fun x => { x with
      inserting := x.inserting ++ (appendEntries c).zipIdx.map fun e =>
        { entry := e.1, due := max s.now t + 2000, ticket := if e.2 + 1 = u16 c.params 2 then some (nextTicket s) else none } }) s) ∧
  Refuses .compareAppend compareAppendSpec (fun c s => compareShut s c.unit = true) stWrongState (fun _ _ => zeros 8) ∧
  Acts .compareSwap compareSwapSpec
    (fun c s => compareShut s c.unit = false ∧ (cmpCfg s c.unit).reverse = true ∧
      ∀ e ∈ (vget s.gauge.cmp c.unit).shadow, e.pos < s.gauge.webPos)
    (fun c s => le 2 (vget s.gauge.cmp c.unit).shadow.length ++ le 2 0)
    (fun t c s => { setCmp c.unit (fun x => { x with
      active := x.shadow, shadow := x.active, lockUntil := max s.now t + Config.freeValue s.free % 401, fireAt := none }) s with free := s.free + 1 }) ∧
  Refuses .compareSwap compareSwapSpec (fun c s => compareShut s c.unit = true) stWrongState (fun _ _ => zeros 8) ∧
  (∀ u i rest, u < 16 → i.ticket = none → Happens (.compareInsertComplete · u)
    (fun s => (vget s.gauge.cmp u).inserting = i :: rest ∧ (cmpCfg s u).reverse = false ∧ s.gauge.webPos < i.entry.pos)
    (fun s => planCompare u (setCmp u (fun x => { x with
      inserting := rest, active := insertBy (fun a b => decide (a.pos < b.pos)) i.entry x.active, inserted := x.inserted + 1 }) s)) [] noPuts) ∧
  (∀ u i rest, u < 16 → i.ticket = none → Happens (.compareInsertComplete · u)
    (fun s => (vget s.gauge.cmp u).inserting = i :: rest ∧ (cmpCfg s u).reverse = false ∧ i.entry.pos ≤ s.gauge.webPos ∧
      (cmpCfg s u).eventEnable = false ∧ stationOfCmp (cfgNow s) u = none)
    (fun s => { setCmp u (fun x => { x with inserting := rest, notAhead := x.notAhead + 1 }) s with
      gauge := { (setCmp u (fun x => { x with inserting := rest, notAhead := x.notAhead + 1 }) s).gauge with missed := wrap32 (s.gauge.missed + 1) } })
    [] noPuts) ∧
  (∀ u i w, u < 16 → i.ticket = some w → Concludes (.compareInsertComplete · u)
    (fun s => (vget s.gauge.cmp u).inserting = [i] ∧ (cmpCfg s u).reverse = true ∧ i.entry.pos < s.gauge.webPos)
    (fun _ => w) (fun _ => stOk)
    (fun s => setCmp u (fun x => { x with
      inserting := [], active := insertBy (fun a b => decide (b.pos < a.pos)) i.entry x.active, inserted := 0, notAhead := 0, fireAt := none }) s)
    [] noPuts) ∧
  (∀ u f e rest o, u < 16 → o < 8 → e.axisStart = false → e.pulse = true → e.event = true → Happens (.compareFire · u)
    (fun s => up s ∧ noStations s ∧ (cmpCfg s u).enable = true ∧ (vget s.gauge.cmp u).fireAt = some f ∧ f ≤ s.now ∧
      (vget s.gauge.cmp u).active = e :: rest ∧ atAnchor s e.pos = true ∧ (cmpCfg s u).output = some o ∧ isPassive s = false ∧
      (cmpCfg s u).eventEnable = true)
    (fun s => planCompare u (setCmp u (fun x => { x with active := rest }) { s with gauge := { s.gauge with trg := vset s.gauge.trg o {
      active := true, inverted := (cmpCfg s u).inverted
      until_ := if (vget s.gauge.trg o).active then max (vget s.gauge.trg o).until_ (s.now + (cmpCfg s u).width) else s.now + (cmpCfg s u).width } } }))
    [0x3A0 + u] noPuts) ∧
  (∀ u f e rest, u < 16 → Happens (.compareFire · u)
    (fun s => (cmpCfg s u).enable = true ∧ (vget s.gauge.cmp u).fireAt = some f ∧ f ≤ s.now ∧ (vget s.gauge.cmp u).active = e :: rest ∧
      atAnchor s e.pos = false)
    (setCmp u fun x => { x with fireAt := none }) [] noPuts) ∧
  (∀ u, u < 16 → Happens (.compareFire · u) (fun s => (vget s.gauge.cmp u).fireAt = none) id [] noPuts)

/-- A tag older than LAT_MAX ends as a gap, MISSING or NO_LINK, and its line tag is written once its position is free. A line of a passive module without a tag for 2 us is counted and dropped. A pipeline begins a line's write when it is the port's oldest and its position is free; the last write puts samples and line tag at the offsets of R263 and counts the line, SHORT lines with their event. A missed deadline counts on the port and ends the line as a gap; how much of it was written is free. -/
def Obligations.IngestWritesLines : Prop :=
  (∀ slot, slot < 24 → Happens (.tagTimeout · slot)
    (fun s => ∀ o ∈ (vget s.ingest.slots slot).outstanding, latencyTo (shortTime s) (tagTime s o.tag) ≤ ((planeCfgAt s slot o.tag.line).latMax : Int))
    id [] noPuts) ∧
  (∀ slot, ∀ o : OutTag, slot < 24 → o.tag.slot = slot → Happens (.tagTimeout · slot)
    (fun s => up s ∧ (vget s.ingest.slots slot).outstanding = [o] ∧
      ((planeCfgAt s slot o.tag.line).latMax : Int) < latencyTo (shortTime s) (tagTime s o.tag) ∧
      statsOn s slot o.tag.line = false ∧ positionFree s slot o.tag.line = false ∧ firstIn (0x118 + slot) (stripAt s o.tag.line) s)
    (fun s => setSlotIngest slot (fun x => { x with
      outstanding := []
      cnt := countGap (if connUp s slot then .missing else .noLink) x.cnt
      gapsWaiting := x.gapsWaiting ++ [(o.tag.line, o.tag.field, lineTagBytes o.tag 0 0 (if connUp s slot then 4 else 5) 0 false false false true)] }) s)
    [0x118 + slot] noPuts) ∧
  (∀ slot, ∀ o : OutTag, slot < 24 → o.tag.slot = slot → Happens (.tagTimeout · slot)
    (fun s => up s ∧ (vget s.ingest.slots slot).outstanding = [o] ∧
      ((planeCfgAt s slot o.tag.line).latMax : Int) < latencyTo (shortTime s) (tagTime s o.tag) ∧ readyHeld slot o.tag.line s ∧
      statsOn s slot o.tag.line = false ∧ positionFree s slot o.tag.line = true ∧ (layoutAt s slot).depth ≠ 0 ∧
      firstIn (0x118 + slot) (stripAt s o.tag.line) s)
    (fun s => written [(tagPlace slot o.tag.line o.tag.field s, lineTagBytes o.tag 0 0 (if connUp s slot then 4 else 5) 0 false false false true)]
      (setSlotIngest slot (fun x => { x with
        outstanding := []
        cnt := countGap (if connUp s slot then .missing else .noLink) x.cnt
        written := x.written ++ [(o.tag.line, o.tag.field, if connUp s slot then 4 else 5)] }) s))
    [0x118 + slot] noPuts) ∧
  (∀ slot, ∀ e : LineEntry, ∀ rest : List LineEntry, slot < 24 → Happens (.unmatchedLineWait · slot)
    (fun s => up s ∧ (vget s.ingest.slots slot).unmatched = e :: rest ∧ 2000 ≤ sdiff32 (shortTime s) e.start ∧ firstIn (0x118 + slot) (currentStrip s) s)
    (setSlotIngest slot fun x => { x with unmatched := rest, cnt := { x.cnt with untriggered := wrap32 (x.cnt.untriggered + 1) } })
    [0x118 + slot] noPuts) ∧
  (∀ slot, slot < 24 → Happens (.unmatchedLineWait · slot)
    (fun s => ∀ e ∈ (vget s.ingest.slots slot).unmatched.head?, sdiff32 (shortTime s) e.start < 2000) id [] noPuts) ∧
  (∀ slot, ∀ e : LineEntry, ∀ g : TrigTag, slot < 24 → Happens (.ingestLineWrite · slot)
    (fun s => up s ∧ partUp s (slot / 2) = true ∧ nextToWrite s (slot / 2) = some (slot, e) ∧ e.tag = some g ∧ positionFree s slot g.line = true)
    (setSlotIngest slot fun x => { x with entries := x.entries.map fun y => if y = e then { y with writing := true } else y }) [] noPuts) ∧
  (∀ slot, slot < 24 → Happens (.ingestLineWrite · slot) (fun s => nextToWrite s (slot / 2) = none) id [] noPuts) ∧
  (∀ slot, ∀ e : LineEntry, ∀ g : TrigTag, slot < 24 → e.tag = some g → g.slot = slot → e.skew = false → Happens (.ingestWriteComplete · slot)
    (fun s => up s ∧ partUp s (slot / 2) = true ∧ (vget s.ingest.slots slot).entries.find? (fun e => e.writing && e.arrived) = some e ∧
      e.codes.length = (linkCfgAt s slot g.line).width ∧ statsOn s slot g.line = false ∧ (layoutAt s slot).depth ≠ 0 ∧ readyHeld slot g.line s)
    (fun s => written [(samplePlace slot g.line g.field s, lineRow s g e.codes),
        (tagPlace slot g.line g.field s, lineTagBytes g e.start e.codes.length 0 e.rfield false false false false)]
      (setSlotIngest slot (fun x => { x with
        entries := x.entries.erase e
        cnt := { x.cnt with linesWritten := wrap32 (x.cnt.linesWritten + 1) }
        written := x.written ++ [(g.line, g.field, 0)] }) s)) [] noPuts) ∧
  (∀ slot, ∀ e : LineEntry, ∀ g : TrigTag, slot < 24 → e.tag = some g → g.slot = slot → e.skew = false → Happens (.ingestWriteComplete · slot)
    (fun s => up s ∧ partUp s (slot / 2) = true ∧ (vget s.ingest.slots slot).entries.find? (fun e => e.writing && e.arrived) = some e ∧
      e.codes.length < (linkCfgAt s slot g.line).width ∧ statsOn s slot g.line = false ∧ (layoutAt s slot).depth ≠ 0 ∧ readyHeld slot g.line s ∧
      firstIn (0x130 + slot) (stripAt s g.line) s)
    (fun s => written [(samplePlace slot g.line g.field s, lineRow s g e.codes),
        (tagPlace slot g.line g.field s, lineTagBytes g e.start e.codes.length 0 e.rfield true false false false)]
      (setSlotIngest slot (fun x => { x with
        entries := x.entries.erase e
        cnt := { x.cnt with linesWritten := wrap32 (x.cnt.linesWritten + 1), short := wrap32 (x.cnt.short + 1) }
        written := x.written ++ [(g.line, g.field, 0)] }) s)) [0x130 + slot] noPuts) ∧
  (∀ slot, slot < 24 → Happens (.ingestWriteComplete · slot) (fun s => ∀ e ∈ (vget s.ingest.slots slot).entries, e.writing = false) id [] noPuts) ∧
  (∀ slot, ∀ e : LineEntry, ∀ g : TrigTag, slot < 24 → e.tag = some g → g.slot = slot → e.arrived = true → Happens (.ingestDeadline · slot)
    (fun s => up s ∧ (vget s.ingest.slots slot).entries.find? (·.writing) = some e ∧ statsOn s slot g.line = false ∧
      (layoutAt s slot).depth ≠ 0 ∧ readyHeld slot g.line s ∧ positionFree s slot g.line = true ∧
      firstIn (0x360 + slot / 4) (currentStrip s) s ∧ firstIn (0x100 + slot) (stripAt s g.line) s)
    (fun s =>
      let part := (lineRow s g e.codes).take (Config.freeValue s.free % ((lineRow s g e.codes).length + 1))
      let s' := written [(samplePlace slot g.line g.field s, part), (tagPlace slot g.line g.field s, lineTagBytes g 0 0 2 0 false false false true)]
        (setPort (slot / 4) (fun x => { x with misses := wrap32 (x.misses + 1) }) (setSlotIngest slot (fun x => { x with
          entries := x.entries.erase e
          cnt := { x.cnt with gapDeadline := wrap32 (x.cnt.gapDeadline + 1) }
          written := x.written ++ [(g.line, g.field, 2)] }) s))
      { s' with
        free := s.free + 1
        bench := { s'.bench with ctl := s.bench.ctl.map fun c => { c with
          pending := c.pending.filter fun r => !(decide (r.port = slot / 4) && decide (r.slot = slot) && decide (r.line = g.line)) } } })
    [0x360 + slot / 4, 0x100 + slot] noPuts) ∧
  (∀ slot, slot < 24 → Happens (.ingestDeadline · slot) (fun s => ∀ e ∈ (vget s.ingest.slots slot).entries, e.writing = false) id [] noPuts)

/-- The Plane begins a slot's next web line when it is ready and not fenced: a gap goes on as a gap, else the line is corrected and its saturated and replaced samples are counted, with the event. A Jig command claims its links and runs; a usable line adds to the sums, an unusable one is counted and raises JIG_SKIPPED once; pass B follows pass A. A rejected calibration ends with ST_CAL_DISAGREE, an accepted one writes the shadow bank and counts STAGE_GEN, and TIMEOUT aborts. This covers single-field lines with no glue-up pending. -/
def Obligations.PlaneAndJig : Prop :=
  (∀ slot, slot < 24 → Happens (.planeLine · slot) (fun s => s.glue = none ∧ s.pair.role = .solo ∧ (vget s.plane.slots slot).out = [] ∧
      ∀ n ∈ planeNext s slot, isReady s slot n = false ∨ isFenced s 0x04 slot = true) id [] noPuts) ∧
  (∀ slot n, ∀ tag : Bytes, slot < 24 → Happens (.planeLine · slot)
    (fun s => planePlain slot n s ∧ partUp s (slot / 2) = true ∧ readRingLine s slot n 0 = (tag, none))
    (planed slot n { line := n, field := 0, gap := true, tag } id) [] noPuts) ∧
  (∀ slot n, ∀ tag : Bytes, ∀ xs : List Nat, slot < 24 → Happens (.planeLine · slot)
    (fun s => planePlain slot n s ∧ partUp s (slot / 2) = true ∧ readRingLine s slot n 0 = (tag, some xs))
    (fun s =>
      let x := vget s.plane.slots slot
      let o := planeLine x.active (vget (cfgAt s n).plane slot) 0 (pixelShim (vget (cfgAt s n).zone slot) x 0) (min (lineTagReceived tag) xs.length) xs
      planed slot n { line := n, field := 0, samples := o.samples, tag, sat := decide (0 < o.satSamples) } (fun c => { c with
        satLines := wrap32 (c.satLines + (if 0 < o.satSamples then 1 else 0))
        satSamples := wrap32 (c.satSamples + o.satSamples)
        replaced := wrap32 (c.replaced + o.replaced) }) s) [] noPuts) ∧
  (∀ (t : Nat) (s : State) (slot n : Nat) (tag : Bytes) (xs : List Nat), s.Inv → slot < 24 → planePlain slot n (tick t s) → partUp s (slot / 2) = true →
    readRingLine (tick t s) slot n 0 = (tag, some xs) → firstIn (0x148 + slot) (stripAt s n) s →
    0 < (planeLine (vget s.plane.slots slot).active (vget (cfgAt s n).plane slot) 0
      (pixelShim (vget (cfgAt s n).zone slot) (vget s.plane.slots slot) 0) (min (lineTagReceived tag) xs.length) xs).satSamples →
    Next (.planeLine t slot) s fun r => bitOf r.host.evt.pending (0x148 + slot) = true ∧ r.bench = s.bench) ∧
  Starts .jigDark specJigDark (jigFree .dark) (jigStarted .dark) ∧
  Starts .jigFlat specJigFlat (jigFree .flat) (jigStarted .flat) ∧
  Starts .jigGeometry specJigGeometry (jigFree .geometry) (jigStarted .geometry) ∧
  Refuses .jigDark specJigDark (fun c s => badJig .dark c.params = none ∧ connUp s c.unit = false) stWrongState (fun _ _ => zeros 8) ∧
  (∀ slot, slot < 24 → Happens (.jigAcquireLine · slot)
    (fun s => ∀ j ∈ vget s.plane.jig slot, j.ready = true ∨ isReady s slot j.nextLine = false) id [] noPuts) ∧
  (∀ slot a, ∀ j : JigRun, ∀ tag : Bytes, ∀ xs : List Nat, slot < 24 → j.passB = false → j.ready = false → j.par.kind ≠ .flat → j.par.fields = 1 →
    j.firstA = some a → wrap32 (j.nextLine + 1) ≠ wrap32 (a + j.par.lines) → Happens (.jigAcquireLine · slot)
    (fun s => up s ∧ partUp s (slot / 2) = true ∧ vget s.plane.jig slot = some j ∧ isReady s slot j.nextLine = true ∧ inSpans s j.nextLine = true ∧
      readRingLine s slot j.nextLine 0 = (tag, some xs) ∧ jigUsable tag (some xs) j.nextLine = true)
    (setJig slot (some { j with sumsA := vmod j.sumsA 0 (addSums · xs), nA := vmod j.nA 0 (· + 1), nextLine := wrap32 (j.nextLine + 1) })) [] noPuts) ∧
  (∀ slot a, ∀ j : JigRun, ∀ tag : Bytes, slot < 24 → j.passB = false → j.ready = false → j.skipEvent = false → j.par.fields = 1 →
    j.firstA = some a → wrap32 (j.nextLine + 1) ≠ wrap32 (a + j.par.lines) → Happens (.jigAcquireLine · slot)
    (fun s => up s ∧ partUp s (slot / 2) = true ∧ vget s.plane.jig slot = some j ∧ isReady s slot j.nextLine = true ∧ inSpans s j.nextLine = true ∧
      readRingLine s slot j.nextLine 0 = (tag, none))
    (fun s => setJig slot (some { j with nextLine := wrap32 (j.nextLine + 1), skipped := j.skipped + 1, skipEvent := true })
      (setSlotPlane slot (fun x => { x with cnt := { x.cnt with jigSkipped := wrap32 (x.cnt.jigSkipped + 1) } }) s)) [0x17A] noPuts) ∧
  (∀ slot a, ∀ j : JigRun, ∀ tag : Bytes, ∀ xs : List Nat, slot < 24 → j.passB = false → j.ready = false → j.par.kind ≠ .flat → j.par.fields = 1 →
    j.firstA = some a → wrap32 (j.nextLine + 1) = wrap32 (a + j.par.lines) → j.par.lines ≤ 2 * (vget j.nA 0 + 1) → Happens (.jigAcquireLine · slot)
    (fun s => up s ∧ partUp s (slot / 2) = true ∧ vget s.plane.jig slot = some j ∧ isReady s slot j.nextLine = true ∧ inSpans s j.nextLine = true ∧
      readRingLine s slot j.nextLine 0 = (tag, some xs) ∧ jigUsable tag (some xs) j.nextLine = true)
    (fun s => setJig slot (some { j with
      sumsA := vmod j.sumsA 0 (addSums · xs), nA := vmod j.nA 0 (· + 1), passB := true
      nextLine := stripFirst (cfgAt s a).shift (stripOf (cfgAt s a).shift (wrap32 (a + j.par.lines - 1)) + 1 + j.par.gapStrips) }) s) [0x178] noPuts) ∧
  (∀ slot, slot < 24 → Happens (.jigComplete · slot) (fun s => ∀ j ∈ vget s.plane.jig slot, j.ready = false) id [] noPuts) ∧
  (∀ slot, ∀ j : JigRun, slot < 24 → j.ready = true → j.result = none → j.par.kind ≠ .geometry → Concludes (.jigComplete · slot)
    (fun s => up s ∧ vget s.plane.jig slot = some j ∧ (jigTables j (vget s.plane.slots slot).shadow).2.1 = none)
    (fun _ => j.ticket) (fun _ => stCalDisagree)
    (fun s => jigOver slot j
      { (jigTables j (vget s.plane.slots slot).shadow).1 with
        stripA := passStrip s j.firstA, stripB := passStrip s j.firstB, skipped := j.skipped }
      (jigTables j (vget s.plane.slots slot).shadow).2.2
      (setSlotPlane slot (fun x => { x with cnt := { x.cnt with jigRejected := wrap32 (x.cnt.jigRejected + 1) } }) s)) [] noPuts) ∧
  (∀ slot, ∀ j : JigRun, slot < 24 → j.ready = true → j.result = none → j.par.kind = .geometry → Concludes (.jigComplete · slot)
    (fun s => up s ∧ vget s.plane.jig slot = some j ∧ (jigGeometry j (vget s.plane.slots slot).active).2.1 = none)
    (fun _ => j.ticket) (fun _ => stCalDisagree)
    (fun s => jigOver slot j
      { (jigGeometry j (vget s.plane.slots slot).active).1 with
        stripA := passStrip s j.firstA, stripB := passStrip s j.firstB, skipped := j.skipped }
      [] (setSlotPlane slot (fun x => { x with cnt := { x.cnt with jigRejected := wrap32 (x.cnt.jigRejected + 1) } }) s)) [] noPuts) ∧
  (∀ (t : Nat) (s : State) (slot : Nat) (j : JigRun) (f : JigFigures) (w : List TableWrite) (k : List JigCand) (x : CmdRec), s.Inv → slot < 24 →
    s.hf.fabric = .running → s.glue = none → s.pair.role = .solo → vget s.plane.jig slot = some j → j.result = some (f, { writes := w }, k) →
    InProgress j.ticket x s →
    Next (.jigStageResult t slot) s fun r =>
      r.stageGen = wrap32 (s.stageGen + 1) ∧ cmdOf r j.ticket = none ∧ r.ledger.complete = s.ledger.complete + 1 ∧
      ReplyFrame { (jigOver slot j { f with stageGen := wrap32 (s.stageGen + 1) } k (setSlotPlane slot (fun x => { x with
        shadow := w.foldl (fun b w => tableApply w b) x.shadow
        cnt := { x.cnt with jigAccepted := wrap32 (x.cnt.jigAccepted + 1) } }) s)) with stageGen := r.stageGen } r) ∧
  (∀ slot, slot < 24 → Happens (.jigStageResult · slot) (fun s => ∀ j ∈ vget s.plane.jig slot, j.result = none) id [] noPuts) ∧
  (∀ slot, slot < 24 → Happens (.jigTimeout · slot)
    (fun s => ∀ j ∈ vget s.plane.jig slot, j.ready = true ∨ s.now < j.start + j.par.timeout * 1000000) id [] noPuts) ∧
  (∀ slot, ∀ j : JigRun, slot < 24 → j.ready = false → Concludes (.jigTimeout · slot)
    (fun s => up s ∧ vget s.plane.jig slot = some j ∧ j.start + j.par.timeout * 1000000 ≤ s.now)
    (fun _ => j.ticket) (fun _ => stAborted)
    (fun s => jigOver slot j { result := 2, reason := .timeout, stripA := passStrip s j.firstA, stripB := passStrip s j.firstB, skipped := j.skipped }
      [] s) [] noPuts)

/-- The Dovetail takes the next web line when its slots have it: the columns formed go packed to the sample offset of the ring, the stitched tag to its tag offset, and the line is counted; a gap slot is put in the drop mask, counted and reported. Before a line that completes a background row it may wait, counted once. An export of the west neighbour is kept, or counted and reported as of another width or late; a missing import is declared once. This covers one slot in ORDER and one field, with no glue-up pending. -/
def Obligations.DovetailStitches : Prop :=
  Happens (.dovetailLine ·) (fun s => alone s ∧ ∀ n ∈ dovetailNext s, slotsReady s n = false ∨ isFenced s 0x05 0 = true) id [] noPuts ∧
  (∀ i n, ∀ g : GridCfg, i < 24 → Happens (.dovetailLine ·)
    (fun s => stitchPlain i n g s ∧ (stitchSource n g s).gap = false) (stitched i n g) [] noPuts) ∧
  (∀ i n, ∀ g : GridCfg, i < 24 → Happens (.dovetailLine ·)
    (fun s => stitchPlain i n g s ∧ (stitchSource n g s).gap = true ∧ firstIn 0x1B0 (stripAt s n) s) (stitched i n g) [0x1B0] noPuts) ∧
  (∀ n, ∀ g : GridCfg, Happens (.dovetailLine ·)
    (fun s => up s ∧ partUp s 12 = true ∧ alone s ∧ dovetailNext s = some n ∧ (cfgAt s n).grid = some g ∧ inSpans s n = true ∧
      slotsReady s n = true ∧ isFenced s 0x05 0 = false ∧ stripLayout (cfgAt s n) = s.dovetail.layout ∧ rowFree s n = true ∧
      bgWait s n = true ∧ s.prof.stallLine ≠ some n)
    (fun s => { s with prof := { s.prof with stallLine := some n, bgStalls := wrap32 (s.prof.bgStalls + 1) } }) [] noPuts) ∧
  (∀ row : ImportRow, Happens (.importReceived · row)
    (fun s => (cfgAt s row.line).grid = none ∨ ∃ g ∈ (cfgAt s row.line).grid, g.importCols = 0) id [] noPuts) ∧
  (∀ row : ImportRow, ∀ g : GridCfg, Happens (.importReceived · row)
    (fun s => up s ∧ (cfgAt s row.line).grid = some g ∧ g.importCols ≠ 0 ∧ row.cols ≠ g.importCols ∧ firstIn 0x1B2 (stripAt s row.line) s)
    (fun s => { s with dovetail := { s.dovetail with cnt := { s.dovetail.cnt with
      importMismatch := wrap32 (s.dovetail.cnt.importMismatch + 1) } } }) [0x1B2] noPuts) ∧
  (∀ row : ImportRow, ∀ g : GridCfg, Happens (.importReceived · row)
    (fun s => up s ∧ (cfgAt s row.line).grid = some g ∧ g.importCols ≠ 0 ∧ row.cols = g.importCols ∧ row.line ∈ s.dovetail.importMissing ∧
      firstIn 0x1B2 (stripAt s row.line) s)
    (fun s => { s with dovetail := { s.dovetail with cnt := { s.dovetail.cnt with importLate := wrap32 (s.dovetail.cnt.importLate + 1) } } })
    [0x1B2] noPuts) ∧
  (∀ row : ImportRow, ∀ g : GridCfg, Happens (.importReceived · row)
    (fun s => up s ∧ (cfgAt s row.line).grid = some g ∧ g.importCols ≠ 0 ∧ row.cols = g.importCols ∧ s.dovetail.importMissing = [] ∧
      ∀ l ∈ s.dovetail.last, atOrAfter l row.line = false)
    (fun s => { s with dovetail := { s.dovetail with
      imports := (s.dovetail.imports.filter fun x => !(decide (x.line = row.line) && decide (x.field = row.field))) ++ [row] } }) [] noPuts) ∧
  Happens (.importTimeout ·) (fun s => ∀ n ∈ dovetailNext s, slotsReady s n = false ∨ importPresent s n = true) id [] noPuts ∧
  (∀ n, ∀ g : GridCfg, Happens (.importTimeout ·)
    (fun s => up s ∧ dovetailNext s = some n ∧ (cfgAt s n).grid = some g ∧ g.importCols ≠ 0 ∧ inSpans s n = true ∧ slotsReady s n = true ∧
      importPresent s n = false ∧ n ∉ s.dovetail.importMissing ∧ firstIn 0x1B1 (stripAt s n) s)
    (fun s => { s with dovetail := { s.dovetail with
      importMissing := s.dovetail.importMissing ++ [n]
      cnt := { s.dovetail.cnt with importMissing := wrap32 (s.dovetail.cnt.importMissing + 1) } } }) [0x1B1] noPuts)

/-- Marquetry takes the next stitched web line. A line without a segmented sample leaves the region table as it is; the last line of a strip hands its items over and tells the Scribe; a flush raises its event. With no region open, one run opens a region in slot 0 with that run's features. An edge message for a line to come is kept; for a line processed or declared missing it is discarded; one that does not come is declared missing and reported. This covers lines with no region open and no glue-up pending. -/
def Obligations.MarquetrySegments : Prop :=
  Happens (.marquetryLine ·)
    (fun s => alone s ∧ s.pair.snapshot = none ∧ s.pair.atStrip = none ∧ s.pair.trims = [] ∧
      ∀ n ∈ marqNext s, isStitched s n = false ∨ isFenced s 0x06 0 = true) id [] noPuts ∧
  (∀ n, ∀ g : GridCfg, Happens (.marquetryLine ·)
    (fun s => marqPlain n g s ∧ isStripLast (cfgAt s n).shift n = false ∧ (∀ c : Nat, c < 16 → (vget s.marq.active.classes c).enable = false))
    (marqTaken n []) [] noPuts) ∧
  (∀ n, ∀ g : GridCfg, Happens (.marquetryLine ·)
    (fun s => marqPlain n g s ∧ isStripLast (cfgAt s n).shift n = true ∧ flushAt s n = false ∧
      (∀ c : Nat, c < 16 → (vget s.marq.active.classes c).enable = false))
    (fun s =>
      let k := stripOf (cfgAt s n).shift n
      let s' := marqTaken n [] s
      { s' with
        marq := { s'.marq with lastStrip := k, handed := 0 }
        scribe := { s.scribe with marqDone := some (wrap32 (stripFirst (cfgAt s n).shift k + 2 ^ (cfgAt s n).shift - 1)) } }) [] noPuts) ∧
  (∀ n, ∀ g : GridCfg, Happens (.marquetryLine ·)
    (fun s => marqPlain n g s ∧ flushAt s n = true ∧ (∀ c : Nat, c < 16 → (vget s.marq.active.classes c).enable = false))
    (fun s =>
      let k := stripOf (cfgAt s n).shift n
      let s' := marqTaken n [] s
      { s' with
        marq := { s'.marq with lastStrip := k, handed := 0, cnt := { s.marq.cnt with flushed := wrap32 s.marq.cnt.flushed } }
        scribe := { s.scribe with marqDone := some (wrap32 (stripFirst (cfgAt s n).shift k + 2 ^ (cfgAt s n).shift - 1)) } }) [0x1C4] noPuts) ∧
  (∀ n, ∀ g : GridCfg, ∀ run : Run, Happens (.marquetryLine ·)
    (fun s => marqPlain n g s ∧ isStripLast (cfgAt s n).shift n = false ∧ codeRuns (lineMasks s s.marq.active g.columns n) 0 = [run] ∧
      (∀ f ∈ fieldsRead s.marq.active false, stTagFlags (readStitchedTag s n f) = 0))
    (fun s =>
      let id_ := regionId (sget s.marq.gens 0 0) 0
      let s' := marqTaken n [(g.base + run.start, g.base + run.stop)] s
      { s' with marq := { s'.marq with
        regions := [{ id := id_, chainId := id_, lastRun := n,
                      feat := featCombine { firstLine := n, lastLine := n } (runFeat (segLineOf s g n) run) }]
        window := [{ line := n, start := run.start, stop := run.stop, mask := run.mask, region := id_ }]
        highWater := max s.marq.highWater 1
        cnt := { s.marq.cnt with opened := wrap32 (s.marq.cnt.opened + 1) } } }) [] noPuts) ∧
  (∀ msg : EdgeMsg, ∀ g : GridCfg, Happens (.edgeMessageReceived · msg)
    (fun s => up s ∧ (cfgAt s msg.line).grid = some g ∧ g.importCols ≠ 0 ∧ msg.line ∉ s.marq.edgeMissing ∧ ∀ l ∈ s.marq.last, atOrAfter l msg.line = false)
    (fun s => { s with marq := { s.marq with edges := (s.marq.edges.filter fun x => decide (x.line ≠ msg.line)) ++ [msg] } }) [] noPuts) ∧
  (∀ msg : EdgeMsg, Happens (.edgeMessageReceived · msg)
    (fun s => msg.line ∈ s.marq.edgeMissing ∨ (∃ l ∈ s.marq.last, atOrAfter l msg.line = true) ∨ ∃ g ∈ (cfgAt s msg.line).grid, g.importCols = 0)
    id [] noPuts) ∧
  (∀ n, ∀ g : GridCfg, Happens (.edgeMessageTimeout ·)
    (fun s => up s ∧ marqNext s = some n ∧ (cfgAt s n).grid = some g ∧ g.importCols ≠ 0 ∧ inSpans s n = true ∧ n ∉ s.marq.edgeMissing ∧
      (∀ e ∈ s.marq.edges, e.line ≠ n) ∧ firstIn 0x1C5 (stripAt s n) s)
    (fun s => { s with marq := { s.marq with
      edgeMissing := s.marq.edgeMissing ++ [n], cnt := { s.marq.cnt with edgeMissing := wrap32 (s.marq.cnt.edgeMissing + 1) } } }) [0x1C5] noPuts) ∧
  Happens (.edgeMessageTimeout ·) (fun s => ∀ n ∈ marqNext s, n ∈ s.marq.edgeMissing) id [] noPuts

/-- When the sources of a strip are done, its items are placed: a queue that is on takes the record under a ticket of its own, 64 bytes at WR's place in the body, and WR, the head and the counters follow; a queue that is off discards it and counts it. A head with fewer than 32 records and unread ones behind it takes one. Unread records that have waited IDLE_TIMEOUT raise the idle event once. A patch's rows are cut for its compressor once Marquetry has passed its last line. -/
def Obligations.QueuesPlaceAndServe : Prop :=
  (∀ q, q < 16 → Happens (.scribePlaceStrip · q)
    (fun s => alone s ∧ s.ring.sources = [] ∧ (∀ i ∈ s.scribe.inbox, i.queue ≠ q)) id [] noPuts) ∧
  (∀ q k, ∀ i : ScribeItem, q < 16 → i.queue = q → i.item = none → Happens (.scribePlaceStrip · q)
    (fun s => up s ∧ partUp s 14 = true ∧ partUp s 15 = true ∧ alone s ∧ s.ring.sources = [] ∧ s.scribe.ticketWait = none ∧
      s.scribe.inbox = [i] ∧ nextStrip s q = some k ∧ sourcesDone s q k = true ∧ queueTakes q s ∧ nextSlot s < ledgerSlots)
    (fun s =>
      let x := vget s.scribe.queues q
      let s' := setQueue q (queued q i.strip (nextTicket s) s.now) { (issued s) with scribe := { s.scribe with inbox := [] } }
      written [(recordOff x x.wr, recHeader x.wr (recKindCode i.kind) 0 0 128 ++ i.body)] s') [] noPuts) ∧
  (∀ q k, ∀ i : ScribeItem, q < 16 → i.queue = q → Happens (.scribePlaceStrip · q)
    (fun s => up s ∧ partUp s 14 = true ∧ partUp s 15 = true ∧ alone s ∧ s.ring.sources = [] ∧ s.scribe.ticketWait = none ∧
      s.scribe.inbox = [i] ∧ nextStrip s q = some k ∧ sourcesDone s q k = true ∧ (vget s.scribe.queues q).on = false)
    (fun s => setQueue q (fun x => { x with cnt := { x.cnt with offDiscards := wrap32 (x.cnt.offDiscards + 1) } })
      { s with scribe := { s.scribe with inbox := [] } }) [] noPuts) ∧
  (∀ q k, q < 16 → Happens (.scribePlaceStrip · q)
    (fun s => alone s ∧ s.ring.sources = [] ∧ nextStrip s q = some k ∧ sourcesDone s q k = false) id [] noPuts) ∧
  (∀ q, q < 16 → Happens (.queueHeadRefill · q)
    (fun s => up s ∧ partUp s 15 = true ∧ (vget s.scribe.queues q).on = true ∧ s.ring.sources = [] ∧ (vget s.scribe.queues q).head < 32 ∧
      (vget s.scribe.queues q).head < unread (vget s.scribe.queues q))
    (setQueue q fun x => { x with head := x.head + 1 }) [] noPuts) ∧
  (∀ q, q < 16 → Happens (.queueHeadRefill · q)
    (fun s => (vget s.scribe.queues q).on = false ∨ (vget s.scribe.queues q).head = 32 ∨ (vget s.scribe.queues q).head = unread (vget s.scribe.queues q))
    id [] noPuts) ∧
  (∀ q, q < 16 → Happens (.queueIdleTimeout · q)
    (fun s => up s ∧ (vget s.scribe.queues q).on = true ∧ (vget s.scribe.queues q).idleTimeout ≠ 0 ∧
      (vget s.scribe.queues q).wr ≠ (vget s.scribe.queues q).rd ∧ (vget s.scribe.queues q).idleDone = false ∧
      (vget s.scribe.queues q).idleSince + (vget s.scribe.queues q).idleTimeout * 1000 ≤ s.now)
    (setQueue q fun x => { x with idleDone := true }) [0x210 + q] noPuts) ∧
  (∀ q, q < 16 → Happens (.queueIdleTimeout · q)
    (fun s => (vget s.scribe.queues q).idleDone = true ∨ (vget s.scribe.queues q).wr = (vget s.scribe.queues q).rd ∨
      s.now < (vget s.scribe.queues q).idleSince + (vget s.scribe.queues q).idleTimeout * 1000) id [] noPuts) ∧
  (∀ q, q < 16 → Happens (.patchCut · q) (fun s => ∀ j ∈ s.scribe.jobs, j.queue = q → j.cut = true) id [] noPuts) ∧
  (∀ q, ∀ j : PatchJob, q < 16 → j.engine < 16 → j.queue = q → j.cut = false → j.pretransform = false → Happens (.patchCut · q)
    (fun s => up s ∧ partUp s 12 = true ∧ s.scribe.jobs = [j] ∧ marqPast s j.lastLine = true ∧ isFenced s 0x0A j.engine = false ∧
      (ceAt s j.engine).job = none)
    (fun s =>
      let raw := packRows j.cols (patchRows s j)
      setQueue q (fun x => { x with cnt := { x.cnt with
          patchesCut := wrap32 (x.cnt.patchesCut + 1)
          truncated := wrap32 (x.cnt.truncated + (if j.truncated then 1 else 0)) } })
        (setCe j.engine (fun u => { u with job := some { source := .patch q j.seq, key := j.seq, level := j.level, raw := raw, ptCols := 0, ptPeriod := 0 } })
          { s with scribe := { s.scribe with jobs := [{ j with cut := true, payload := raw }] } })) [] noPuts)

/-- A slot's next corrected line goes through its zone's median and grit; at a block end a watched zone over its limit enters HIGH, is counted and reported. The background filters take formed lines; a completed row is stored while there is room, the first since a restart with its event. A view stream waits for the first line of a strip, takes a ticket and a frame, fills it line by line, forms it once nothing is on its delivery path, and ends its ticket when it is sent or when its port has no link. This covers one zone and one field, with no glue-up pending. -/
def Obligations.ProfilesAndViews : Prop :=
  (∀ slot, slot < 24 → Happens (.profileLine · slot) (fun s => alone s ∧ profileNext s slot = none) id [] noPuts) ∧
  (∀ slot, ∀ e : CorrLine, slot < 24 → Happens (.profileLine · slot)
    (fun s => profilePlain slot e s ∧ zonePixels slot e s ≠ [] ∧ (zoneTaken slot e s).2 = false)
    (fun s => profiled slot e (zoneTaken slot e s).1 (fun p => { p with cnt := { p.cnt with
      heldInputs := wrap32 p.cnt.heldInputs, outputs := wrap32 p.cnt.outputs } }) s) [] noPuts) ∧
  (∀ slot, ∀ m : Nat, ∀ e : CorrLine, ∀ w : WatchCfg, slot < 24 → w.mode = 1 → w.minDur ≤ 1 → w.high < (m : Int) → Happens (.profileLine · slot)
    (fun s => profilePlain slot e s ∧ zonePixels slot e s ≠ [] ∧ (zoneTaken slot e s).2 = true ∧ (zoneTaken slot e s).1.grit.out = some m ∧
      watchOf (cfgAt s e.line) slot 0 = w)
    (fun s => profiled slot e { (zoneTaken slot e s).1 with watch := .high, count := 0 } (fun p => { p with
      blockEnd := e.line
      cnt := { p.cnt with
        heldInputs := wrap32 p.cnt.heldInputs, outputs := wrap32 (p.cnt.outputs + 1)
        highEntries := wrap32 (p.cnt.highEntries + 1) } }) s) [0x240 + slot] noPuts) ∧
  Happens (.profileLine · 24) (fun s => alone s ∧ s.dovetail.formed = []) id [] noPuts ∧
  (∀ l : FormedLine, ∀ rest : List FormedLine, ∀ row : List Nat × List (Nat × Nat), ∀ g : GridCfg, l.rows = [row] → g.columns ≤ 16 → 0 < g.columns →
    Happens (.profileLine · 24)
    (fun s => up s ∧ alone s ∧ s.dovetail.formed = l :: rest ∧ (cfgAt s l.line).grid = some g ∧ (cfgAt s l.line).bg.fields = 1 ∧
      bgCompletes (cfgAt s l.line).bg l.line = false ∧ (∀ f : Nat, f < 4 → (vget s.prof.bg f).last = none) ∧
      (vget s.prof.bg 0).entries = [] ∧ (vget s.prof.bg 0).rows = [])
    (fun s =>
      let x := bgEntryStep (cfgAt s l.line).bg l.line none
        ((List.range g.columns).map fun c => if spanHas row.2 c then none else some (row.1.toArray.getD c 0)) {}
      let s' := setBg 0 (fun b => { b with entries := [x.1], last := some l.line }) s
      { s' with dovetail := { s.dovetail with formed := rest }, prof := { s'.prof with bgClipped := wrap32 (s.prof.bgClipped + x.2) } })
    [] noPuts) ∧
  (∀ f, f < 4 → Happens (.backgroundRowStore · f) (fun s => (vget s.prof.bg f).waiting = none ∨ bgRoom s f = false) id [] noPuts) ∧
  (∀ f, ∀ r : BgRow, f < 4 → Happens (.backgroundRowStore · f)
    (fun s => up s ∧ (vget s.prof.bg f).waiting = some r ∧ bgRoom s f = true ∧ (vget s.prof.bg f).fresh = false)
    (fun s =>
      let s' := setBg f (fun b => { b with rows := takeLast 68 (b.rows ++ [r]), waiting := none }) s
      { s' with prof := { s'.prof with bgRows := wrap32 (s.prof.bgRows + 1) } }) [] noPuts) ∧
  (∀ f, ∀ r : BgRow, f < 4 → Happens (.backgroundRowStore · f)
    (fun s => up s ∧ (vget s.prof.bg f).waiting = some r ∧ bgRoom s f = true ∧ (vget s.prof.bg f).fresh = true)
    (fun s =>
      let s' := setBg f (fun b => { b with rows := takeLast 68 (b.rows ++ [r]), waiting := none, fresh := false }) s
      { s' with prof := { s'.prof with bgRows := wrap32 (s.prof.bgRows + 1) } }) [0x288 + f] noPuts) ∧
  (∀ v, v < 8 → Happens (.veneerLine · v) (fun s => alone s ∧ ∀ n ∈ viewNext s v, isStitched s n = false ∨ isFenced s 0x08 v = true) id [] noPuts) ∧
  (∀ v n, v < 8 → Happens (.veneerLine · v)
    (fun s => viewPlain v n s ∧ (vget s.views v).last = none ∧ (vget s.views v).cur = none ∧ (vget s.views v).restart = true ∧
      isStripFirst (cfgAt s n).shift n = false)
    (setView v fun x => { x with last := some n }) [] noPuts) ∧
  (∀ v n, v < 8 → Happens (.veneerLine · v)
    (fun s => viewPlain v n s ∧ (vget s.views v).last = none ∧ (vget s.views v).cur = none ∧ (vget s.views v).sending = none ∧
      isStripFirst (cfgAt s n).shift n = true ∧ nextSlot s < ledgerSlots ∧
      wrap32 (n + (vget (cfgAt s n).view v).height * (vget (cfgAt s n).view v).ys - 1) ≠ n)
    (fun s => setView v (fun x => { x with
      last := some n, seq := wrap32 (x.seq + 1), restart := false, skipBefore := false
      cur := some {
        seq := x.seq, firstLine := n, strip := stripAt s n, shift := (cfgAt s n).shift, restart := x.restart, skipBefore := x.skipBefore
        lastLine := wrap32 (n + (vget (cfgAt s n).view v).height * (vget (cfgAt s n).view v).ys - 1)
        crops := [(n, x.crop)], ticket := nextTicket s } }) (issued s)) [] noPuts) ∧
  (∀ v n l, ∀ f : ViewFrame, v < 8 → wrap32 (l + 1) = n → Happens (.veneerLine · v)
    (fun s => viewPlain v n s ∧ (vget s.views v).last = some l ∧ resumedBetween s (some l) n = false ∧ (vget s.views v).cur = some f ∧
      (f.crops.getLast?).map Prod.snd = some (vget s.views v).crop)
    (fun s => setView v (fun x => { x with
      last := some n
      cur := if f.lastLine = n then none else some f
      waiting := if f.lastLine = n ∧ f.skipped = false then x.waiting ++ [f] else x.waiting }) s) [] noPuts) ∧
  (∀ v, v < 8 → Happens (.viewFrameForm · v) (fun s => (vget s.views v).waiting = [] ∨ (vget s.views v).sending.isSome = true) id [] noPuts) ∧
  (∀ v, ∀ f : ViewFrame, ∀ rest : List ViewFrame, v < 8 → Happens (.viewFrameForm · v)
    (fun s => frameReady v f rest s ∧ ((vget (cfgAt s f.lastLine).view v).delivery ≠ 1 ∨
      (vget s.time.ports (vget (cfgAt s f.lastLine).view v).port).linkUp = true))
    (fun s => setView v (fun x => { x with
      waiting := rest, sending := some (frameFormed v f s)
      cnt := { x.cnt with formed := wrap32 (x.cnt.formed + 1), boxes := wrap32 x.cnt.boxes } }) s) [] noPuts) ∧
  (∀ v, ∀ f : ViewFrame, ∀ rest : List ViewFrame, v < 8 → Happens (.viewFrameForm · v)
    (fun s => frameReady v f rest s ∧ (vget (cfgAt s f.lastLine).view v).delivery = 1 ∧
      (vget s.time.ports (vget (cfgAt s f.lastLine).view v).port).linkUp = false)
    (fun s => setView v (fun x => { x with
      waiting := rest, skipBefore := true
      cnt := { x.cnt with formed := wrap32 (x.cnt.formed + 1), boxes := wrap32 x.cnt.boxes, failed := x.cnt.failed + 1 } })
      (endTicket f.ticket 13 s)) [0x2C8 + v] noPuts) ∧
  (∀ v, v < 8 → Happens (.viewFrameSent · v) (fun s => ∀ f ∈ (vget s.views v).sending, f.delivery ≠ 1) id [] noPuts) ∧
  (∀ v, ∀ f : SentFrame, v < 8 → f.delivery = 1 → Happens (.viewFrameSent · v) (fun s => up s ∧ (vget s.views v).sending = some f)
    (fun s => endTicket f.ticket 0 (setView v (fun x => { x with
      sending := none
      cnt := { x.cnt with delivered := wrap32 (x.cnt.delivered + 1), datagrams := wrap32 (x.cnt.datagrams + f.datagrams.length) } }) s))
    [] (fun _ => f.datagrams.map Emit.datagram))

/-- CONTEXT_RESTORE writes a slot image whose check holds. DECOMPRESS claims its decompressor and slots, and ends with the decoded bytes written, or with ST_HOST_ERROR after two failed transfers. An archive stream begins when its strip is stitched, under a ticket of its first block. A finished block is counted and framed; a patch's last one stores header and frames at the write point with a directory entry; one failed verification is counted and reported and the block passes. -/
def Obligations.CompressionRuns : Prop :=
  (∀ (t : Nat) (c : HostCmd) (s : State), Ready contextRestoreSpec c s → badContext c s = none → slotHolder s (u16 c.params 0) = none → c.bulkFails = 0 →
    contextValid (bulkData c (parBulk c.params 4) s) = true →
    Next (.contextRestore t c) s fun r =>
      Completes 0x0A03 [] c s r ∧
      ReplyFrame (written [(contextOff s (u16 c.params 0), bulkData c (parBulk c.params 4) s)] s) r) ∧
  Refuses .contextRestore contextRestoreSpec
    (fun c s => badContext c s = none ∧ slotHolder s (u16 c.params 0) = none ∧ c.bulkFails = 0 ∧
      contextValid (bulkData c (parBulk c.params 4) s) = false) stBadParam (fun _ _ => paramBody 4) ∧
  Starts .decompress decompressSpec
    (fun c s => c.unit < 4 ∧ badDecompress c s (bulkData c (parBulk c.params 8) s) = none ∧ rtHolder s 0x0A c.unit = none ∧
      ∀ k ∈ (decIn c).toList ++ (decOut c).toList, rtHolder s 0x0F k = none)
    (fun _ c s => setDe c.unit (fun u => { u with run := some {
        ticket := nextTicket s
        padded := bitOf (u8 c.params 0) 3
        contextOut := decOut c
        contextIn := decIn c
        invert := bitOf (u8 c.params 0) 0
        source := parBulk c.params 8
        dest := parBulk c.params 24
        data := bulkData c (parBulk c.params 8) s } })
      { s with claims := s.claims ++ ⟨0x0A, c.unit, 0x0A04, c.unit⟩ ::
          ((decIn c).toList ++ (decOut c).toList).eraseDups.map fun k => ⟨0x0F, k, 0x0A04, c.unit⟩ }) ∧
  (∀ de fails, ∀ run : DecRun, de < 4 → 2 ≤ fails → Concludes (.decompressDone · de fails)
    (fun s => up s ∧ (vget s.comp.de de).run = some run) (fun _ => run.ticket) (fun _ => stHostError)
    (fun s => setDe de (fun u => { u with run := none })
      { s with claims := s.claims.filter fun c => !(decide (c.opcode = 0x0A04) && decide (c.unit = de)) }) [] noPuts) ∧
  (∀ de, ∀ run : DecRun, de < 4 → run.contextIn = none → run.contextOut = none → Concludes (.decompressDone · de 0)
    (fun s => up s ∧ (vget s.comp.de de).run = some run) (fun _ => run.ticket) (fun _ => stOk)
    (fun s =>
      let d := decodeFrames run run.dest.length (run.data.length / 32 + 1) 0 none {}
      setDe de (fun u => { u with
        run := none
        cnt := {
          frames := wrap32 (u.cnt.frames + d.frames)
          crcErrors := wrap32 (u.cnt.crcErrors + d.crcErrors)
          formatErrors := wrap32 (u.cnt.formatErrors + d.formatErrors) } })
        { s with claims := s.claims.filter fun c => !(decide (c.opcode = 0x0A04) && decide (c.unit = de)) })
    [] (fun _ => bulkEmits run.dest (decodeFrames run run.dest.length (run.data.length / 32 + 1) 0 none {}).out)) ∧
  (∀ de fails, Happens (.decompressDone · de fails) (fun s => 4 ≤ de ∨ (vget s.comp.de de).run = none) id [] noPuts) ∧
  Happens (.archiveStripStart ·) (fun s => ∀ n ∈ archiveNext s, isStitched s n = false ∨ archiveBusy s = true) id [] noPuts ∧
  (∀ last e, e < 16 → Happens (.archiveStripStart ·)
    (fun s => up s ∧ partUp s 12 = true ∧ partUp s 13 = true ∧ archiveNext s = some last ∧ inSpans s last = true ∧ isStitched s last = true ∧
      archiveBusy s = false ∧ (cfgAt s last).archive.engines = [e] ∧ (ceAt s e).job = none ∧ isFenced s 0x0A e = false ∧
      archiveStreams (cfgAt s last).archive = 1 ∧ (cfgAt s last).archive.hostStream = false ∧ s.comp.rings ≠ [] ∧
      s.comp.layout = some ((cfgAt s last).archive, (vget (cfgAt s last).part 13).baseMib, (vget (cfgAt s last).part 13).sizeA) ∧
      nextSlot s < ledgerSlots)
    (fun s =>
      let a := (cfgAt s last).archive
      let strip := stripOf (cfgAt s last).shift last
      let job : CeJob := { source := .archive 0, key := strip, ticket := some (nextTicket s)
                           raw := archiveRaw s a 0 (stripFirst (cfgAt s last).shift strip) (2 ^ (cfgAt s last).shift)
                           ptCols := if a.pretransform then a.bandCols else 0, ptPeriod := if a.pretransform then 1 else 0 }
      setCe e (fun u => { u with job := some job }) { (issued s) with comp := { s.comp with
        archiveStrip := some strip, archiveLine := some last
        rings := s.comp.rings.modify 0 fun r => { r with cur := some { strip } } } }) [] noPuts) ∧
  (∀ ce fails, Happens (.compressBlockDone · ce fails) (fun s => 16 ≤ ce ∨ (ceAt s ce).job = none ∨ isFenced s 0x0A ce = true) id [] noPuts) ∧
  (∀ ce fails q seq, ∀ j : CeJob, ce < 16 → j.source = .patch q seq → (j.blockSeq + 1) * blockBytes < j.raw.length → Happens (.compressBlockDone · ce fails)
    (fun s => up s ∧ partUp s 14 = true ∧ (ceAt s ce).job = some j ∧ isFenced s 0x0A ce = false ∧ hasVerifier s ce = false)
    (fun s => setCe ce (fun u => { u with
      job := some { j with blockSeq := j.blockSeq + 1, frames := j.frames ++ (blockFrame s j).1 }, cnt := blocked j s u.cnt }) s) [] noPuts) ∧
  (∀ ce fails, ∀ j : CeJob, ∀ p : PatchJob, ce < 16 → p.queue < 16 → j.source = .patch p.queue p.seq → j.raw.length ≤ (j.blockSeq + 1) * blockBytes →
    Happens (.compressBlockDone · ce fails)
    (fun s =>
      up s ∧ partUp s 14 = true ∧ (ceAt s ce).job = some j ∧ isFenced s 0x0A ce = false ∧ hasVerifier s ce = false ∧ s.scribe.jobs = [p] ∧
      s.ring.sources = [] ∧ (vget s.scribe.queues p.queue).patches = [] ∧
      (vget s.scribe.queues p.queue).storeWrite + ceilDiv (192 + (j.frames ++ (blockFrame s j).1).length) 64 * 64 ≤ (vget s.scribe.queues p.queue).storeSize)
    (fun s =>
      let frames := j.frames ++ (blockFrame s j).1
      let bytes := patchHeader p p.payload.length frames.length ++ frames
      let len := ceilDiv bytes.length 64 * 64
      let x := vget s.scribe.queues p.queue
      written [(x.storeBase + x.storeWrite, padTo len bytes),
          (dirEntryOff x p.seq, le 8 (x.storeBase + x.storeWrite) ++ le 4 bytes.length ++ le 4 p.seq)]
        (setQueue p.queue (fun x => { x with
            patches := [⟨p.seq, p.ticket, x.storeWrite, len⟩], storeWrite := (x.storeWrite + len) % x.storeSize })
          (setCe ce (fun u => { u with job := none, cnt := blocked j s u.cnt }) { s with scribe := { s.scribe with jobs := [] } }))) [] noPuts) ∧
  (∀ ce q seq, ∀ j : CeJob, ce < 16 → j.source = .patch q seq → (j.blockSeq + 1) * blockBytes < j.raw.length → Happens (.compressBlockDone · ce 1)
    (fun s => up s ∧ partUp s 14 = true ∧ (ceAt s ce).job = some j ∧ isFenced s 0x0A ce = false ∧ hasVerifier s ce = true ∧ s.faults.injections = [] ∧
      firstIn 0x2F0 (currentStrip s) s ∧ firstIn 0x004 (currentStrip s) s)
    (fun s =>
      let s' := setCe ce (fun u => { u with
        job := some { j with blockSeq := j.blockSeq + 1, frames := j.frames ++ (blockFrame s j).1 }
        cnt := { (blocked j s u.cnt) with transient := wrap32 (u.cnt.transient + 1) } }) s
      { s' with faults := { s.faults with cnt := { s.faults.cnt with verify := s.faults.cnt.verify + 1 } } }) [0x2F0, 0x004] noPuts)

/-- LOOKBACK whose lines the strip ring holds is accepted, and ends with the line records written to its destination, with ST_HOST_ERROR after two failed transfers, or with ST_GONE when a line is no longer held. SELF_REFRESH enter waits until the requests before it are served and then both controllers stop with their event; it is refused while triggering runs. Automatic self-refresh begins after AUTO_DELAY_MS without a request; the exit brings the controllers back and raises its event. -/
def Obligations.LookBackAndSelfRefresh : Prop :=
  Starts .lookback specLookback
    (fun c s => badLookback s c.params = none ∧ lookLines s (lookRuns s (parLookback c.params).firstPos (parLookback c.params).lastPos) ≠ [] ∧
      (parLookback c.params).source ≠ 2 ∧
      ∀ n ∈ lookLines s (lookRuns s (parLookback c.params).firstPos (parLookback c.params).lastPos), inStripRing s n = true)
    (fun _ c s => { s with bench := { s.bench with lookbacks := s.bench.lookbacks ++ [{
        par := parLookback c.params, ticket := nextTicket s
        lines := lookLines s (lookRuns s (parLookback c.params).firstPos (parLookback c.params).lastPos) }] } }) ∧
  (∀ w, ∀ x : LookbackRun, x.ticket = w → x.de = none → x.par.source ≠ 2 → Concludes (.lookbackDone · w 0)
    (fun s => up s ∧ partUp s 12 = true ∧ partUp s 13 = true ∧ s.bench.lookbacks = [x] ∧ ∀ n ∈ x.lines, inStripRing s n = true)
    (fun _ => w) (fun _ => stOk) (fun s => { s with bench := { s.bench with lookbacks := [] } }) []
    (fun s => bulkEmits x.par.dest (lookbackFront (x.lines.headD 0) x.lines.length x.par.firstCol x.par.cols x.par.field x.lines.length 0 ++
      x.lines.flatMap fun n => lookRecord s x.par (gridBase (cfgNow s))
        (lookStreams s x.par.field (x.par.firstCol - gridBase (cfgNow s)) x.par.cols) n 1))) ∧
  (∀ w fails, ∀ x : LookbackRun, x.ticket = w → x.de = none → x.par.source ≠ 2 → 2 ≤ fails → Concludes (.lookbackDone · w fails)
    (fun s => up s ∧ partUp s 12 = true ∧ partUp s 13 = true ∧ s.bench.lookbacks = [x] ∧ ∀ n ∈ x.lines, inStripRing s n = true)
    (fun _ => w) (fun _ => stHostError) (fun s => { s with bench := { s.bench with lookbacks := [] } }) [] noPuts) ∧
  (∀ w fails n, ∀ x : LookbackRun, x.ticket = w → x.de = none → x.lines = [n] → Concludes (.lookbackDone · w fails)
    (fun s => up s ∧ partUp s 12 = true ∧ partUp s 13 = true ∧ s.bench.lookbacks = [x] ∧ inStripRing s n = false ∧ s.comp.layout = none)
    (fun _ => w) (fun _ => stGone) (fun s => { s with bench := { s.bench with lookbacks := [] } }) [] noPuts) ∧
  (∀ w fails, Happens (.lookbackDone · w fails) (fun s => s.bench.lookbacks = []) id [] noPuts) ∧
  Waits .selfRefresh specSelfRefresh
    (fun c s => badSelfRefresh c.params = none ∧ u8 c.params 0 = 1 ∧ s.gauge.trigEnabled = false ∧ s.bench.entering = none)
    (fun _ _ s => { s with bench := { s.bench with
      entering := some s.bench.nextReq, autoEntered := false, srTickets := s.bench.srTickets ++ [nextTicket s] } }) ∧
  Refuses .selfRefresh specSelfRefresh (fun c s => badSelfRefresh c.params = none ∧ u8 c.params 0 = 1 ∧ s.gauge.trigEnabled = true)
    stWrongState (fun _ _ => zeros 8) ∧
  Acts .selfRefresh specSelfRefresh (fun c _ => badSelfRefresh c.params = none ∧ u8 c.params 0 = 2) (fun _ _ => [1, 1, 0, 0])
    (fun _ c s => { s with bench := { s.bench with auto := true, autoDelayMs := u32 c.params 4 } }) ∧
  Acts .selfRefresh specSelfRefresh (fun c s => badSelfRefresh c.params = none ∧ u8 c.params 0 = 3 ∧ s.bench.entering = none) (fun _ _ => [1, 0, 0, 0])
    (fun _ _ s => { s with bench := { s.bench with auto := false } }) ∧
  (∀ k, Happens (.selfRefreshEntered ·)
    (fun s => up s ∧ s.bench.entering = some k ∧ s.bench.exiting = false ∧ s.bench.forced = false ∧ s.bench.autoEntered = false ∧
      s.bench.srTickets = [] ∧ s.bench.hostWaiting = [] ∧ stackUp s 0 = true ∧ stackUp s 1 = true ∧
      (∀ q ∈ (vget s.bench.ctl 0).pending ++ (vget s.bench.ctl 1).pending, k ≤ q.id) ∧
      (∀ q ∈ (vget s.bench.ctl 0).issued ++ (vget s.bench.ctl 1).issued, q.data.isSome = true))
    (fun s => { s with bench := { s.bench with
      entering := none
      ctl := s.bench.ctl.map fun c => { c with state := .selfRefresh, srEntries := wrap32 (c.srEntries + 1) } } }) [0x348] noPuts) ∧
  Happens (.selfRefreshEntered ·) (fun s => s.bench.entering = none) id [] noPuts ∧
  Happens (.selfRefreshExited ·)
    (fun s => up s ∧ s.bench.exiting = true ∧ s.bench.entering = none ∧ s.bench.srTickets = [] ∧ s.bench.hostWaiting = [] ∧
      s.hf.srForced = false ∧ s.gauge.enableWait = none)
    (fun s => { s with bench := { s.bench with
      ctl := s.bench.ctl.map fun c => if c.state = .selfRefresh then { c with state := .ready } else c
      exiting := false, autoEntered := false, forced := false, lastRequest := s.now } }) [0x349] noPuts ∧
  Happens (.autoSelfRefreshTimeout ·)
    (fun s => s.bench.auto = true ∧ s.gauge.trigEnabled = false ∧ stackUp s 0 = true ∧ stackUp s 1 = true ∧ s.bench.entering = none ∧
      (vget s.bench.ctl 0).pending = [] ∧ (vget s.bench.ctl 1).pending = [] ∧ s.bench.lastRequest + s.bench.autoDelayMs * 1000000 ≤ s.now)
    (fun s => { s with bench := { s.bench with entering := some s.bench.nextReq, autoEntered := true } }) [] noPuts ∧
  Happens (.autoSelfRefreshTimeout ·)
    (fun s => s.bench.auto = false ∨ s.gauge.trigEnabled = true ∨ s.now < s.bench.lastRequest + s.bench.autoDelayMs * 1000000) id [] noPuts

/-- A request enters its controller and starts the exit from automatic self-refresh. A pseudo-channel issues an allowed request: a write puts its bytes in the Bench, and the port's bytes and urgency follow; reaching urgency 3 is reported. A read returns clean, corrected (counted and reported), after a transient error (counted, logged and reported), or freezes the controller and changes no byte. A refresh is issued, pulled in by a free number, or forced at 8 owed. A stack is hot above 85 C, until 80 C. -/
def Obligations.BenchServesRequests : Prop :=
  (∀ q : BenchReq, Happens (.benchRequest · q) (fun _ => reqOk q = false) id [] noPuts) ∧
  (∀ q : BenchReq, reqOk q = true → Happens (.benchRequest · q) (fun s => benchAsleep s = false)
    (fun s => setCtl (stackOf q.offset) (fun c => { c with pending := c.pending ++ [{ q with id := s.bench.nextReq, entered := s.now }] })
      (setPort q.port (fun p => { p with requests := wrap32 (p.requests + 1) })
        { s with bench := { s.bench with nextReq := s.bench.nextReq + 1, lastRequest := s.now } })) [] noPuts) ∧
  (∀ q : BenchReq, reqOk q = true → Happens (.benchRequest · q) (fun s => benchAsleep s = true ∧ s.bench.autoEntered = true)
    (fun s =>
      let s' := setCtl (stackOf q.offset) (fun c => { c with pending := c.pending ++ [{ q with id := s.bench.nextReq, entered := s.now }] })
        (setPort q.port (fun p => { p with requests := wrap32 (p.requests + 1) })
          { s with bench := { s.bench with nextReq := s.bench.nextReq + 1, lastRequest := s.now } })
      { s' with bench := { s'.bench with exiting := true } }) [] noPuts) ∧
  (∀ pch allowed, pch < 64 → Happens (.benchIssue · pch allowed)
    (fun s => stackUp s (pch / 32) = false ∨ ((vget s.bench.ctl (pch / 32)).pending.all fun q => !(decide (pchOf q.offset = pch) && allowed.contains q.id)) = true) id [] noPuts) ∧
  (∀ pch allowed, ∀ q : BenchReq, ∀ d : Bytes, pch < 64 → q.port < 16 → pchOf q.offset = pch → q.id ∈ allowed → q.data = some d →
    Happens (.benchIssue · pch allowed)
    (fun s => stackUp s (pch / 32) = true ∧ s.bench.entering = none ∧ (vget s.bench.ctl (pch / 32)).pending = [q] ∧
      (vget s.bench.ctl (1 - pch / 32)).pending = [] ∧ (vget s.bench.ctl (pch / 32)).issued = [])
    (fun s => written [(q.offset, d.take (32 * q.words))] (setPort q.port (fun p => { p with
        bytes := p.bytes + 32 * q.words
        urgent3 := wrap32 (p.urgent3 + (if portUrgency s q.port = 3 then 1 else 0))
        urgency := 0 })
      (setCtl (pch / 32) (fun x => { x with pending := [], issued := [q] }) s))) [] noPuts) ∧
  (∀ pch allowed, ∀ q : BenchReq, pch < 64 → q.port < 16 → pchOf q.offset = pch → q.id ∈ allowed → q.data = none →
    Happens (.benchIssue · pch allowed)
    (fun s => stackUp s (pch / 32) = true ∧ s.bench.entering = none ∧ (vget s.bench.ctl (pch / 32)).pending = [q] ∧
      (vget s.bench.ctl (1 - pch / 32)).pending = [] ∧ (vget s.bench.ctl (pch / 32)).issued = [])
    (fun s => setPort q.port (fun p => { p with
        bytes := p.bytes + 32 * q.words
        urgent3 := wrap32 (p.urgent3 + (if portUrgency s q.port = 3 then 1 else 0))
        urgency := 0 })
      (setCtl (pch / 32) (fun x => { x with pending := [], issued := [q] }) s)) [] noPuts) ∧
  (∀ p, p < 16 → Happens (.benchUrgencyRise · p) (fun s => portUrgency s p ≠ 3 ∨ (vget s.bench.ports p).urgency = 3)
    (fun s => setPort p (fun x => { x with urgency := portUrgency s p }) s) [] noPuts) ∧
  (∀ p, p < 16 → Happens (.benchUrgencyRise · p)
    (fun s => up s ∧ portUrgency s p = 3 ∧ (vget s.bench.ports p).urgency < 3 ∧ firstIn (0x350 + p) (currentStrip s) s)
    (setPort p fun x => { x with urgency := 3 }) [0x350 + p] noPuts) ∧
  (∀ id_ o, Happens (.benchReadDone · id_ o) (fun s => alone s ∧ issuedBy s id_ = none) id [] noPuts) ∧
  (∀ id_ c, ∀ q : BenchReq, Happens (.benchReadDone · id_ .clean)
    (fun s => alone s ∧ issuedBy s id_ = some (c, q) ∧ stackUp s c = true ∧ s.faults.injections = [])
    (setCtl c fun x => { x with issued := x.issued.filter fun r => decide (r.id ≠ id_) }) [] noPuts) ∧
  (∀ id_ c, ∀ q : BenchReq, c < 2 → Happens (.benchReadDone · id_ .corrected)
    (fun s => up s ∧ alone s ∧ issuedBy s id_ = some (c, q) ∧ stackUp s c = true ∧ s.faults.injections = [] ∧ firstIn (0x344 + c) (currentStrip s) s)
    (setCtl c fun x => { x with ce := wrap32 (x.ce + 1), issued := x.issued.filter fun r => decide (r.id ≠ id_) }) [0x344 + c] noPuts) ∧
  (∀ id_ c, ∀ q : BenchReq, ∀ e : ErrorCapture, c < 2 → e.cause = .read → Happens (.benchReadDone · id_ (.transient e))
    (fun s => up s ∧ alone s ∧ issuedBy s id_ = some (c, q) ∧ stackUp s c = true ∧ s.faults.injections = [] ∧
      firstIn (0x342 + c) (currentStrip s) s ∧ firstIn 0x004 (currentStrip s) s)
    (fun s => setCtl c (fun x => { x with
        ueTransient := wrap32 (x.ueTransient + 1)
        transients := ({ e with stime := shortTime s } :: x.transients).take 8
        issued := x.issued.filter fun r => decide (r.id ≠ id_) })
      { s with faults := { s.faults with cnt := { s.faults.cnt with bench := s.faults.cnt.bench + 1 } } }) [0x342 + c, 0x004] noPuts) ∧
  (∀ (t : Nat) (s : State) (id_ c : Nat) (q : BenchReq) (e : ErrorCapture), s.Inv → c < 2 → s.hf.fabric = .running → s.glue = none →
    s.pair.role = .solo → inPair s = false → issuedBy s id_ = some (c, q) → stackUp s c = true → s.faults.injections = [] → s.gauge.trigEnabled = false →
    (∀ k : Nat, k < 18 → partIn s k c = false) → (∀ d : Nat, d < 4 → (vget s.comp.de d).run = none) →
    Next (.benchReadDone t id_ (.lasting e)) s fun r =>
      (vget r.bench.ctl c).state = .frozen ∧ (vget r.bench.ctl c).pending = [] ∧ (vget r.bench.ctl c).issued = [] ∧
      (vget r.bench.ctl c).capture.isSome = true ∧ vget r.bench.ctl (1 - c) = vget s.bench.ctl (1 - c) ∧ r.bench.mem = s.bench.mem ∧
      r.faults.cnt.freezes = wrap32 (s.faults.cnt.freezes + 1) ∧ bitOf r.host.evt.pending (0x340 + c) = true) ∧
  (∀ id_ c, ∀ q : BenchReq, ∀ e : ErrorCapture, c < 2 → e.cause = .writeParity → Happens (.benchParityError · id_ (.transient e))
    (fun s => up s ∧ alone s ∧ issuedBy s id_ = some (c, q) ∧ stackUp s c = true ∧
      firstIn (0x342 + c) (currentStrip s) s ∧ firstIn 0x004 (currentStrip s) s)
    (fun s => setCtl c (fun x => { x with
        wparTransient := wrap32 (x.wparTransient + 1)
        transients := ({ e with stime := shortTime s } :: x.transients).take 8 })
      { s with faults := { s.faults with cnt := { s.faults.cnt with bench := s.faults.cnt.bench + 1 } } }) [0x342 + c, 0x004] noPuts) ∧
  (∀ id_ o, Happens (.benchParityError · id_ o) (fun s => alone s ∧ issuedBy s id_ = none) id [] noPuts) ∧
  (∀ pch, pch < 64 → Happens (.benchRefreshDue · pch)
    (fun s => stackUp s (pch / 32) = true ∧ pendingAt s pch = true ∧ urgentAt s pch = false)
    (setCtl (pch / 32) fun x => { x with
      owed := vset x.owed (pch % 32) (vget x.owed (pch % 32)), maxOwed := max x.maxOwed (vget x.owed (pch % 32)).toNat }) [] noPuts) ∧
  (∀ pch, pch < 64 → Happens (.benchRefreshDue · pch) (fun s => stackUp s (pch / 32) = true ∧ pendingAt s pch = false)
    (fun s => setCtl (pch / 32) (fun x => { x with owed := vset x.owed (pch % 32) (-((Config.freeValue s.free % 9 : Nat) : Int)) })
      { s with free := s.free + 1 }) [] noPuts) ∧
  (∀ pch, pch < 64 → Happens (.benchRefreshDue · pch)
    (fun s => up s ∧ stackUp s (pch / 32) = true ∧ pendingAt s pch = true ∧ urgentAt s pch = true ∧
      vget (vget s.bench.ctl (pch / 32)).owed (pch % 32) = 7 ∧ (vget s.bench.ctl (pch / 32)).maxOwed = 8 ∧ firstIn (0x34A + pch / 32) (currentStrip s) s)
    (setCtl (pch / 32) fun x => { x with refreshForced := wrap32 (x.refreshForced + 1) }) [0x34A + pch / 32] noPuts) ∧
  (∀ c temp, c < 2 → Happens (.stackTempChange · c temp)
    (fun s => up s ∧ decide (85 < temp) = true ∧ (vget s.bench.ctl c).hot = false)
    (setCtl c fun x => { x with temp := temp, hot := true }) [0x346 + c] noPuts) ∧
  (∀ c temp, c < 2 → Happens (.stackTempChange · c temp)
    (fun s => up s ∧ decide (temp ≤ 80) = true ∧ (vget s.bench.ctl c).hot = true)
    (setCtl c fun x => { x with temp := temp, hot := false }) [0x346 + c] noPuts) ∧
  (∀ c temp, c < 2 → Happens (.stackTempChange · c temp) (fun _ => decide (80 < temp) = true ∧ decide (temp ≤ 85) = true)
    (setCtl c fun x => { x with temp := temp }) [] noPuts)

/-- A write of CMDn_SIZE enables a disabled ring pair at its start, or disables it; a bad value sets CFG_ERR. A doorbell moves CMDn_PROD, or stops the ring with its event when it names no slot. RPLn_CONS frees reply slots. Without the fabric the writes are counted only. The command processor takes the packet of the ring whose turn it is: an unknown opcode ends ST_BAD_OPCODE, NOP ends ST_OK, a packet that cannot be read twice stops the ring, and one without a ticket waits, for 2 ms, and is then answered ST_BUSY. -/
def Obligations.CommandRings : Prop :=
  (∀ n v, n < 4 → v ≠ 0 → ringSizeOk v = true → Happens (.cmdSizeWrite · n v)
    (fun s => up s ∧ (vget s.host.rings n).enabled = false ∧ (vget s.host.rings n).rplSize ≠ 0 ∧ (vget s.host.rings n).posts = [])
    (setRing n fun p => { p with
      enabled := true, stopped := false, cmdSize := v, cmdProd := 0, cmdCons := 0, rplProd := 0, rplCons := 0, unread := 0
      phase := true, ticketWait := none }) [] noPuts) ∧
  (∀ n v, n < 4 → v < 2 ^ 32 → ringSizeOk v = false → Exactly (.cmdSizeWrite · n v) up (setRing n fun p => { p with cfgErr := true })) ∧
  (∀ n v, n < 4 → v ≠ 0 → ringSizeOk v = true → Exactly (.cmdSizeWrite · n v)
    (fun s => up s ∧ ((vget s.host.rings n).enabled = true ∨ (vget s.host.rings n).rplSize = 0)) (setRing n fun p => { p with cfgErr := true })) ∧
  (∀ n, n < 4 → Exactly (.cmdSizeWrite · n 0) (fun s => up s ∧ (vget s.host.rings n).enabled = true)
    (setRing n fun p => { p with enabled := false, cmdSize := 0, stopped := false, ticketWait := none })) ∧
  (∀ n v, n < 4 → v < 2 ^ 32 → Exactly (.cmdDoorbell · n v)
    (fun s => up s ∧ (vget s.host.rings n).enabled = true ∧ v < (vget s.host.rings n).cmdSize) (setRing n fun p => { p with cmdProd := v })) ∧
  (∀ n v, n < 4 → v < 2 ^ 32 → Happens (.cmdDoorbell · n v)
    (fun s => up s ∧ (vget s.host.rings n).enabled = true ∧ (vget s.host.rings n).cmdSize ≤ v)
    (setRing n fun p => { p with stopped := true, ringErr := true }) [0x014 + n] noPuts) ∧
  (∀ n v, n < 4 → Exactly (.cmdDoorbell · n v) (fun s => up s ∧ (vget s.host.rings n).enabled = false) id) ∧
  (∀ n v, n < 4 → v < 2 ^ 32 → Happens (.rplConsWrite · n v)
    (fun s => up s ∧ v < (vget s.host.rings n).rplSize ∧ (vget s.host.rings n).posts = [])
    (setRing n fun p => { p with rplCons := v, unread := (p.rplProd + p.rplSize - v) % p.rplSize }) [] noPuts) ∧
  (∀ n v, n < 4 → v < 2 ^ 32 → Exactly (.rplConsWrite · n v) (fun s => up s ∧ (vget s.host.rings n).rplSize ≤ v)
    (setRing n fun p => { p with cfgErr := true })) ∧
  (∀ n v, Exactly (.cmdSizeWrite · n v) (fun s => ¬ up s) wedgedAccess) ∧
  (∀ n v, Exactly (.cmdDoorbell · n v) (fun s => ¬ up s) wedgedAccess) ∧
  (∀ n v, Exactly (.rplConsWrite · n v) (fun s => ¬ up s) wedgedAccess) ∧
  (∀ pkts, Exactly (.commandTake · pkts) (fun s => nextTaken s pkts = none) id) ∧
  (∀ pkts n, 2 ≤ (pkts.getD n {}).readFails → Happens (.commandTake · pkts) (fun s => up s ∧ nextTaken s pkts = some n)
    (fun s => setRing n (fun p => { p with stopped := true, ringErr := true }) { s with host := { s.host with nextRing := (n + 1) % 4 } }) [0x014 + n] noPuts) ∧
  (∀ pkts n, (pkts.getD n {}).readFails = 0 → Exactly (.commandTake · pkts) (fun s => up s ∧ nextTaken s pkts = some n ∧ ledgerFull s = true)
    (fun s => setRing n (fun p => { p with ticketWait := some (p.ticketWait.getD s.now) }) { s with host := { s.host with nextRing := (n + 1) % 4 } })) ∧
  (∀ (t : Nat) (s : State) (pkts : List RawPkt) (n : Nat), s.Inv → up s → nextTaken s pkts = some n → (pkts.getD n {}).readFails = 0 →
    specOf (pktOpcode (pkts.getD n {})) = none → nextSlot s < ledgerSlots → sget s.ledger.gens (nextSlot s) 0 < 2 ^ 14 →
    (vget s.host.rings n).posts = [] → n < 4 →
    Next (.commandTake t pkts) s fun r =>
      EndsFailed (pktOpcode (pkts.getD n {})) stBadOpcode (zeros 8) (parsePkt n (pkts.getD n {})) s r ∧
      (vget r.host.rings n).cmdCons = ((vget s.host.rings n).cmdCons + rawSlots (pkts.getD n {})) % (vget s.host.rings n).cmdSize ∧
      ReplyFrame { s with host := { s.host with nextRing := (n + 1) % 4 } } r) ∧
  (∀ (t : Nat) (s : State) (pkts : List RawPkt) (n : Nat), s.Inv → up s → nextTaken s pkts = some n → (pkts.getD n {}).readFails = 0 →
    (pkts.getD n {}).stepFails = 0 → pktOpcode (pkts.getD n {}) = 0x0100 → lengthsAgree (parsePkt n (pkts.getD n {})) = true →
    (parsePkt n (pkts.getD n {})).paramLen = 0 → (parsePkt n (pkts.getD n {})).module = 0xFF →
    nextSlot s < ledgerSlots → sget s.ledger.gens (nextSlot s) 0 < 2 ^ 14 → (vget s.host.rings n).posts = [] → n < 4 →
    Next (.commandTake t pkts) s fun r =>
      Completes 0x0100 [] (parsePkt n (pkts.getD n {})) s r ∧
      (vget r.host.rings n).cmdCons = ((vget s.host.rings n).cmdCons + rawSlots (pkts.getD n {})) % (vget s.host.rings n).cmdSize ∧
      ReplyFrame { s with host := { s.host with nextRing := (n + 1) % 4 } } r) ∧
  (∀ (t : Nat) (s : State) (n w : Nat) (k : RawPkt), s.Inv → up s → postsNow n s → (vget s.host.rings n).stopped = false →
    (vget s.host.rings n).ticketWait = some w → w + 2000000 ≤ max s.now t → ledgerFull s = true →
    Next (.commandTicketTimeout t n k) s fun r =>
      replyOut n (replyBytes (pktOpcode k) stBusy (parsePkt n k).tag 0 s.ring.moduleId 8 (busyBody 1 0)) s ∈ r.emit ∧
      (vget r.host.rings n).ticketWait = none ∧ r.ledger = { s.ledger with noTicket := s.ledger.noTicket + 1 } ∧
      (vget r.host.rings n).unread = (vget s.host.rings n).unread + 1 ∧ r.cmds = s.cmds ∧ ReplyFrame s r) ∧
  (∀ n k, Exactly (.commandTicketTimeout · n k) (fun s => n < 4 ∧ ((vget s.host.rings n).ticketWait = none ∨ ledgerFull s = false)) id)

/-- A read of a register returns its word; one of type RC is cleared by an aligned read that covers it, and by no other. A wedged fabric answers ones and counts the access. Aligned writes set BAR4_PAGE, a ring's base and LOG_INDEX; read-only words take nothing, and an unaligned write is counted. A window read from byte 0 takes the record at RD or reports none; any other takes nothing. A BAR4 read returns Bench bytes; in commanded self-refresh ones, in automatic self-refresh it waits. A BAR4 write is discarded and counted, and changes no byte of the Bench. -/
def Obligations.RegistersWindowsAndBar4 : Prop :=
  (∀ off size, off % 4 = 0 → size = 4 → off ≠ 0x014 → off ≠ 0x018 → off < 0x1000 → Exactly (.rcRegisterRead · 0 off size) (fun s => up s ∧ noLocks s)
    (fun s => out (.readData (le 4 (bar0Word s off))) s)) ∧
  Exactly (.rcRegisterRead · 0 0x014 4) (fun s => up s ∧ noLocks s)
    (fun s => { out (.readData (le 4 s.host.badAccess)) s with host := { s.host with badAccess := 0 } }) ∧
  Exactly (.rcRegisterRead · 0 0x018 4) (fun s => up s ∧ noLocks s)
    (fun s => { out (.readData (le 4 s.host.bar4Dropped)) s with host := { s.host with bar4Dropped := 0 } }) ∧
  Exactly (.rcRegisterRead · 0 0x2018 4) (fun s => up s ∧ noLocks s)
    (fun s => { out (.readData (le 4 s.host.evt.lost)) s with host := { s.host with evt := { s.host.evt with lost := 0 } } }) ∧
  Exactly (.rcRegisterRead · 0 0x016 2) (fun s => up s ∧ noLocks s) (fun s => out (.readData ((le 4 s.host.badAccess).drop 2)) s) ∧
  (∀ off size, Exactly (.rcRegisterRead · 0 off size) (fun s => ¬ up s) (fun s => out (.readData (ones size)) (wedgedAccess s))) ∧
  Exactly (.rcRegisterRead · 2 0x0014 4) (fun s => hfReached s .bar2 = true)
    (fun s => { out (.readData (le 4 s.hf.bar0Wedged)) s with hf := { s.hf with bar0Wedged := 0 } }) ∧
  (∀ v, v < 2 ^ 32 → Exactly (.registerWrite · 0 0x010 4 v) up (fun s => { s with host := { s.host with bar4Page := v % 256 } })) ∧
  (∀ off size v, aligned off size = false → Exactly (.registerWrite · 0 off size v) up
    (fun s => { s with host := { s.host with badAccess := wrap32 (s.host.badAccess + 1) } })) ∧
  (∀ v, v < 2 ^ 32 → Exactly (.registerWrite · 0 0x000 4 v) up id) ∧
  (∀ n v, n < 4 → v < 2 ^ 64 → Exactly (.registerWrite · 0 (0x1000 + 0x40 * n) 8 v)
    (fun s => up s ∧ (vget s.host.rings n).enabled = false ∧ s.host.lowHalves = []) (setRing n fun p => { p with cmdBase := v / 4096 * 4096 })) ∧
  (∀ off size v, Exactly (.registerWrite · 0 off size v) (fun s => ¬ up s) wedgedAccess) ∧
  (∀ v, v < 2 ^ 32 → Exactly (.registerWrite · 2 0x0020 4 v) (fun s => hfReached s .bar2 = true) (fun s => { s with hf := { s.hf with logIndex := v } })) ∧
  (∀ q size, q < 16 → size ∈ ([4, 8, 16, 32, 64] : List Nat) → Exactly (.queueWindowRead · q 0 size)
    (fun s => up s ∧ ((vget s.scribe.queues q).head = 0 ∨ relayedAway s q = true))
    (fun s => out (.readData (zeros size)) (setQueue q (fun x => { x with
      latched := zeros 64, latchedEmpty := true, idleDone := false, cnt := { x.cnt with emptyReads := wrap32 (x.cnt.emptyReads + 1) } }) s))) ∧
  (∀ q, q < 16 → Exactly (.queueWindowRead · q 0 64)
    (fun s => up s ∧ (vget s.scribe.queues q).head ≠ 0 ∧ relayedAway s q = false ∧ (vget s.scribe.queues q).threshold = 0)
    (fun s =>
      let x := vget s.scribe.queues q
      let bytes := memRead s.bench.mem (recordOff x x.rd) 64
      out (.readData bytes) (setQueue q (fun x => { x with
        rd := nextRead x, head := min (x.head - 1) ((x.wr + 2 ^ 32 - nextRead x) % 2 ^ 32), latched := bytes, latchedEmpty := false
        idleDone := false, idleSince := s.now, thresholdDone := false }) s))) ∧
  (∀ q off size, q < 16 → off ≠ 0 → Exactly (.queueWindowRead · q off size) up
    (fun s => out (.readData (((padTo 4096 (windowBytes (vget s.scribe.queues q))).drop off).take size)) s)) ∧
  (∀ a size, Exactly (.bar4Read · a size)
    (fun s => up s ∧ s.bench.entering = none ∧ (vget s.bench.ctl 0).state = .ready ∧ (vget s.bench.ctl 1).state = .ready ∧
      s.host.bar4Page * 2 ^ s.host.pcie.bar4Log + a + size ≤ benchSize ∧
      (∀ i : Nat, i < size → inFirmware (s.host.bar4Page * 2 ^ s.host.pcie.bar4Log + a + i) = false))
    (fun s => out (.readData (memRead s.bench.mem (s.host.bar4Page * 2 ^ s.host.pcie.bar4Log + a) size))
      { s with bench := { s.bench with lastRequest := s.now } })) ∧
  (∀ a size, Exactly (.bar4Read · a size) (fun s => up s ∧ benchAsleep s = true ∧ (s.bench.forced = true ∨ (s.bench.autoEntered = false ∧ s.bench.exiting = false)))
    (fun s => out (.readData (ones size)) { s with bench := { s.bench with hostHeld := wrap32 (s.bench.hostHeld + 1) } })) ∧
  (∀ a size, Exactly (.bar4Read · a size) (fun s => up s ∧ benchAsleep s = true ∧ s.bench.forced = false ∧ s.bench.autoEntered = true)
    (fun s => { s with bench := { s.bench with
      exiting := true, hostWaiting := s.bench.hostWaiting ++ [(s.host.bar4Page * 2 ^ s.host.pcie.bar4Log + a, size)] } })) ∧
  (∀ a size, Exactly (.bar4Read · a size) (fun s => ¬ up s) (fun s => out (.readData (ones size)) s)) ∧
  (∀ a size, Exactly (.bar4Write · a size) (fun s => up s ∧ benchAsleep s = false)
    (fun s => { s with host := { s.host with bar4Dropped := wrap32 (s.host.bar4Dropped + 1) } })) ∧
  (∀ a size, Exactly (.bar4Write · a size) (fun s => ¬ up s) id)

/-- Before start-up step 3 has ended a configuration request gets retry status; afterwards it reads and writes the registers the function has, BAR4's size from 256 MiB to 64 GiB among them. A request of another kind is answered unsupported. D3hot aborts the channels in WAIT and RUN and no other. PERST# returns the registers of BAR0 to their reset values and counts, and touches neither the configurations, the tickets, the Bench nor the line units. The link's training makes the module a gateway, and its loss ends that. The time at which step 3 ends is the model's (assumption 66). -/
def Obligations.PciExpressFunction : Prop :=
  (∀ r : CfgReg, Exactly (.configRequest · (.read r)) (fun s => beforeStep3 s = true) (out .retryStatus)) ∧
  (∀ r : CfgReg, ∀ v, Exactly (.configRequest · (.write r v)) (fun s => beforeStep3 s = true) (out .retryStatus)) ∧
  Exactly (.configRequest · (.read .classCode)) (fun s => beforeStep3 s = false) (out (.readData (le 1 (Config.siliconRev % 256) ++ le 3 0x118000))) ∧
  Exactly (.configRequest · (.read .interruptPin)) (fun s => beforeStep3 s = false) (out (.readData [0])) ∧
  Exactly (.configRequest · (.read .serialNumber)) (fun s => beforeStep3 s = false) (out (.readData (le 8 Config.serial))) ∧
  (∀ v, 8 ≤ v → v ≤ 16 → Exactly (.configRequest · (.write .bar4Size v)) (fun s => beforeStep3 s = false) (setPcie fun p => { p with bar4Log := 20 + v })) ∧
  (∀ v, v < 8 ∨ 16 < v → Exactly (.configRequest · (.write .bar4Size v)) (fun s => beforeStep3 s = false) id) ∧
  Exactly (.configRequest · (.write .powerState 0)) (fun s => beforeStep3 s = false) (setPcie fun p => { p with d3hot := false }) ∧
  (∀ v, Exactly (.configRequest · (.write .msixControl v)) (fun s => beforeStep3 s = false ∧ s.host.pcie.heldMsgs = 0)
    (setPcie fun p => { p with funcMask := bitOf v 14, msixEnable := bitOf v 15 })) ∧
  Exactly (.unsupportedRequest ·) (fun _ => True) (out .unsupported) ∧
  Exactly (.d3hotEntry ·) (fun s => noLocks s ∧ ∀ c : Nat, c < 64 → ((vget s.dma.ch c).state ≠ .wait ∧ (vget s.dma.ch c).state ≠ .run))
    (setPcie fun p => { p with d3hot := true }) ∧
  (∀ (t : Nat) (s : State) (c w : Nat) (d : DmaRun), s.Inv → noLocks s → c < 64 → (vget s.dma.ch c).state = .run → (vget s.dma.ch c).run = some d →
    d.ticket = w → d.frame = none → bitOf d.desc.flags 0 = false → ticketLive s.ledger w = true →
    (∀ k : Nat, k < 64 → k ≠ c → (vget s.dma.ch k).state ≠ .wait ∧ (vget s.dma.ch k).state ≠ .run) →
    Next (.d3hotEntry t) s fun r => r.host.pcie.d3hot = true ∧ (vget r.dma.ch c).state = .idle ∧ (vget r.dma.ch c).run = none ∧
      (vget r.dma.ch c).lastStatus = 4 ∧ (vget r.dma.ch c).done = (vget s.dma.ch c).done ∧ r.ledger.failed = s.ledger.failed + 1 ∧
      sget r.ledger.failedBy 12 0 = sget s.ledger.failedBy 12 0 + 1 ∧ r.bench.mem = s.bench.mem) ∧
  Exactly (.perstAssert ·) (fun s => s.host.pcie.perst = true) id ∧
  (∀ (t : Nat) (s : State), s.Inv → s.host.pcie.perst = false → (∀ c : Nat, c < 64 → (vget s.dma.ch c).state = .off) →
    Next (.perstAssert t) s fun r =>
      r.host.evt = {} ∧ r.host.pcie = {} ∧ r.host.bar4Page = 0 ∧ r.host.badAccess = 0 ∧ r.host.bar4Dropped = 0 ∧ r.ring.gateway = false ∧
      (∀ n : Nat, n < 4 → vget r.host.rings n = { posts := (vget s.host.rings n).posts }) ∧
      r.boot = { s.boot with perstCount := wrap32 (s.boot.perstCount + 1) } ∧ r.running = s.running ∧ r.staged = s.staged ∧ r.ledger = s.ledger ∧
      r.bench.mem = s.bench.mem ∧ r.gauge = s.gauge ∧ r.axes = s.axes ∧ r.marq = s.marq ∧ r.hf = s.hf ∧ r.faults = s.faults ∧
      (∀ q : Nat, q < 16 → (vget r.scribe.queues q).rd = (vget s.scribe.queues q).rd)) ∧
  Exactly (.perstDeassert ·) (fun _ => True) (setPcie fun p => { p with perst := false }) ∧
  Exactly (.pcieLinkUp ·) (fun s => s.host.pcie.perst = false ∧ beforeStep3 s = false)
    (fun s => setPcie (fun p => { p with linkUp := true }) { s with ring := { s.ring with gateway := true } }) ∧
  Exactly (.pcieLinkUp ·) (fun s => s.host.pcie.perst = true ∨ beforeStep3 s = true) id ∧
  Exactly (.pcieLinkDown ·) (fun _ => True) (fun s => setPcie (fun p => { p with linkUp := false }) { s with ring := { s.ring with gateway := false } })

/-- Ones written to PENDING clear those bits and no other. A write of MASK or VECTOR sets its sources' bits or vectors; a source that becomes unmasked while pending is signalled then. VEC_ACK arms a vector; when a source of it is pending and not masked, its message goes out at once and the vector is disarmed. A message that a mask holds back is sent when the mask is removed. Nothing else changes, and while the fabric does not run the writes are counted only. -/
def Obligations.EventRegisters : Prop :=
  (∀ (t : Nat) (s : State) (word v : Nat), s.Inv → up s → word < 32 →
    Next (.pendingClear t word v) s fun r =>
      (∀ e : Nat, e < 1024 → bitOf r.host.evt.pending e = (bitOf s.host.evt.pending e && !(decide (e / 32 = word) && bitOf v (e % 32)))) ∧
      r.host.evt = { s.host.evt with pending := r.host.evt.pending } ∧ OutFrame s r ∧ r.emit = []) ∧
  (∀ (t : Nat) (s : State) (word v : Nat), s.Inv → up s → word < 32 →
    (∀ i : Nat, i < 32 → bitOf s.host.evt.mask (32 * word + i) = true → bitOf v i = false → bitOf s.host.evt.pending (32 * word + i) = false) →
    Next (.maskWrite t (0x2180 + 4 * word) v) s fun r =>
      (∀ e : Nat, e < 1024 → bitOf r.host.evt.mask e = (if e / 32 = word then bitOf v (e % 32) else bitOf s.host.evt.mask e)) ∧
      r.host.evt = { s.host.evt with mask := r.host.evt.mask } ∧ OutFrame s r ∧ r.emit = []) ∧
  (∀ (t : Nat) (s : State) (src v : Nat), s.Inv → up s → src < 256 →
    Next (.maskWrite t (0x2400 + 4 * src) v) s fun r =>
      (∀ e : Nat, e < 1024 → vectorOf r.host.evt e = (if e / 4 = src then v / 256 ^ (e % 4) % 64 else vectorOf s.host.evt e)) ∧
      r.host.evt = { s.host.evt with vectors := r.host.evt.vectors } ∧ OutFrame s r ∧ r.emit = []) ∧
  (∀ (t : Nat) (s : State) (src : Nat), s.Inv → up s → src < 1024 → bitOf s.host.evt.mask src = true → bitOf s.host.evt.pending src = true →
    s.host.evt.size = 0 → bitOf s.host.evt.armed (vectorOf s.host.evt src) = true → s.host.pcie.msixEnable = true → s.host.pcie.funcMask = false →
    (msixEntry s.host.pcie (vectorOf s.host.evt src)).masked = false →
    (∀ i : Nat, i < 32 → 32 * (src / 32) + i ≠ src → bitOf s.host.evt.mask (32 * (src / 32) + i) = false) →
    Next (.maskWrite t (0x2180 + 4 * (src / 32)) 0) s fun r =>
      r.emit = [.msix (vectorOf s.host.evt src)] ∧ bitOf r.host.evt.mask src = false ∧
      bitOf r.host.evt.armed (vectorOf s.host.evt src) = false ∧ bitOf r.host.evt.pending src = true ∧ OutFrame s r) ∧
  (∀ (t : Nat) (s : State) (v : Nat), s.Inv → up s → v < 64 → vectorPending s.host.evt v = false →
    Next (.vecAck t v) s fun r =>
      (∀ e : Nat, e < 64 → bitOf r.host.evt.armed e = (decide (e = v) || bitOf s.host.evt.armed e)) ∧
      r.host.evt = { s.host.evt with armed := r.host.evt.armed } ∧ OutFrame s r ∧ r.emit = []) ∧
  (∀ (t : Nat) (s : State) (v : Nat), s.Inv → up s → v < 64 → vectorPending s.host.evt v = true → s.host.pcie.msixEnable = true →
    s.host.pcie.funcMask = false → (msixEntry s.host.pcie v).masked = false →
    Next (.vecAck t v) s fun r =>
      r.emit = [.msix v] ∧ (∀ e : Nat, e < 64 → bitOf r.host.evt.armed e = (!decide (e = v) && bitOf s.host.evt.armed e)) ∧
      r.host.evt = { s.host.evt with armed := r.host.evt.armed } ∧ OutFrame s r) ∧
  (∀ (t : Nat) (s : State) (v : Nat), s.Inv → up s → v < 64 → vectorPending s.host.evt v = true → s.host.pcie.msixEnable = true →
    s.host.pcie.funcMask = true →
    Next (.vecAck t v) s fun r => r.emit = [] ∧ bitOf r.host.pcie.heldMsgs v = true ∧ bitOf r.host.evt.armed v = false ∧ OutFrame s r) ∧
  (∀ (t : Nat) (s : State) (v : Nat), s.Inv → up s → v < 64 → bitOf s.host.pcie.heldMsgs v = true → s.host.pcie.msixEnable = true →
    s.host.pcie.funcMask = false → (∀ k : Nat, k < 64 → k ≠ v → bitOf s.host.pcie.heldMsgs k = false) →
    Next (.msixUnmask t (.vector v)) s fun r => r.emit = [.msix v] ∧ bitOf r.host.pcie.heldMsgs v = false ∧
      (msixEntry r.host.pcie v).masked = false ∧ r.host.evt = s.host.evt ∧
      OutFrame { s with host := { s.host with pcie := { s.host.pcie with table := r.host.pcie.table } } } r) ∧
  (∀ (t : Nat) (s : State) (v : Nat), s.Inv → up s → v < 64 → bitOf s.host.pcie.heldMsgs v = true → s.host.pcie.msixEnable = true →
    (msixEntry s.host.pcie v).masked = false → (∀ k : Nat, k < 64 → k ≠ v → bitOf s.host.pcie.heldMsgs k = false) →
    Next (.msixUnmask t .function) s fun r => r.emit = [.msix v] ∧ bitOf r.host.pcie.heldMsgs v = false ∧ r.host.evt = s.host.evt ∧
      OutFrame { s with host := { s.host with pcie := { s.host.pcie with funcMask := false } } } r) ∧
  (∀ word v, Exactly (.pendingClear · word v) (fun s => ¬ up s) wedgedAccess) ∧
  (∀ off v, Exactly (.maskWrite · off v) (fun s => ¬ up s) wedgedAccess) ∧
  (∀ v, Exactly (.vecAck · v) (fun s => ¬ up s) wedgedAccess) ∧
  (∀ m : MsixMask, Exactly (.msixUnmask · m) (fun s => ¬ up s) wedgedAccess)

/-- A reply of the target is posted in the ring the command came from, with the target's number and the forwarded flag, and ends the ticket by its status; ST_ACCEPTED keeps the command, and its completion then ends it with its event. Without a reply for 10 ms the gateway answers ST_TIMEOUT naming the module; a reply that comes later is discarded and counted at its port. A packet that another gateway forwarded runs here and its reply goes back to that gateway: NOP answers ST_OK, an opcode of no command ST_BAD_OPCODE, and a broadcast of a command that takes none ST_BAD_TARGET. -/
def Obligations.ForwardedCommands : Prop :=
  (∀ (t : Nat) (s : State) (f : Forwarded) (status : Nat) (body : Bytes), s.Inv → up s → s.ring.forwarded = [f] → f.accepted = false →
    status ≠ stAccepted → status < 65536 → body.length ≤ 1008 → ticketLive s.ledger f.ticket = true → postsNow f.ring s →
    Next (.ringCommandReply t f.module f.ticket status false body) s fun r =>
      replyOut f.ring (replyBytes f.opcode status f.tag f.ticket f.module 4 body) s ∈ r.emit ∧
      r.ring.forwarded = [] ∧ r.ledger.complete = s.ledger.complete + (if status < 0x8000 then 1 else 0) ∧
      r.ledger.failed = s.ledger.failed + (if status < 0x8000 then 0 else 1) ∧ r.cmds = s.cmds ∧
      ReplyFrame { s with ring := { s.ring with forwarded := [] } } r) ∧
  (∀ (t : Nat) (s : State) (f : Forwarded), s.Inv → up s → s.ring.forwarded = [f] → f.accepted = false → postsNow f.ring s →
    Next (.ringCommandReply t f.module f.ticket stAccepted false []) s fun r =>
      replyOut f.ring (replyBytes f.opcode stAccepted f.tag f.ticket f.module 4 []) s ∈ r.emit ∧
      r.ring.forwarded = [{ f with accepted := true }] ∧ r.ledger.issued = s.ledger.issued ∧ r.ledger.failed = s.ledger.failed ∧
      ReplyFrame { s with ring := { s.ring with forwarded := [{ f with accepted := true }] } } r) ∧
  (∀ (t : Nat) (s : State) (f : Forwarded) (status : Nat) (body : Bytes), s.Inv → up s → s.ring.forwarded = [f] → f.accepted = true →
    status ≠ stAccepted → status < 65536 → body.length ≤ 1008 → ticketLive s.ledger f.ticket = true → postsNow f.ring s →
    Next (.ringCommandReply t f.module f.ticket status true body) s fun r =>
      replyOut f.ring (replyBytes f.opcode status f.tag f.ticket f.module 6 body) s ∈ r.emit ∧
      r.ring.forwarded = [] ∧ r.ledger.complete = s.ledger.complete + (if status < 0x8000 then 1 else 0) ∧
      r.ledger.failed = s.ledger.failed + (if status < 0x8000 then 0 else 1) ∧ bitOf r.host.evt.pending (0x010 + f.ring) = true) ∧
  (∀ m w status c body, ∀ p : Nat, Exactly (.ringCommandReply · m w status c body)
    (fun s => up s ∧ s.ring.forwarded = [] ∧ s.ring.broadcasts = [] ∧ (moduleById s m).bind (routeTo s) = some p)
    (setLinkPort p fun x => { x with cnt := { x.cnt with lateReplies := wrap32 (x.cnt.lateReplies + 1) } })) ∧
  (∀ (t : Nat) (s : State) (f : Forwarded), s.Inv → up s → s.ring.forwarded = [f] → s.ring.broadcasts = [] → f.accepted = false →
    f.sentAt + 10000000 ≤ max s.now t → ticketLive s.ledger f.ticket = true → postsNow f.ring s →
    Next (.forwardTimeout t f.ticket) s fun r =>
      replyOut f.ring (replyBytes f.opcode stTimeout f.tag f.ticket s.ring.moduleId 0 (le 1 f.module ++ zeros 7)) s ∈ r.emit ∧
      r.ring.forwarded = [] ∧ r.ledger.failed = s.ledger.failed + 1 ∧ ReplyFrame { s with ring := { s.ring with forwarded := [] } } r) ∧
  (∀ w, Exactly (.forwardTimeout · w)
    (fun s => s.ring.broadcasts = [] ∧ ∀ f ∈ s.ring.forwarded, f.accepted = true ∨ s.now < f.sentAt + 10000000 ∨ f.ticket ≠ w) id) ∧
  (∀ g, ∀ k : RawPkt, specOf (pktOpcode k) = none → Happens (.ringCommandReceived · g k) (fun s => up s ∧ g ≠ allModules) id []
    (fun s => [.remoteReply g (replyBytes (pktOpcode k) stBadOpcode (parsePkt 0 k).tag 0 s.ring.moduleId 0 (zeros 8))])) ∧
  (∀ g, ∀ k : RawPkt, pktOpcode k = 0x0100 → (parsePkt 0 k).paramLen = 0 → (parsePkt 0 k).module ≠ allModules → k.stepFails = 0 →
    Happens (.ringCommandReceived · g k) (fun s => up s ∧ g ≠ allModules) id []
    (fun s => [.remoteReply g (replyBytes 0x0100 stOk (parsePkt 0 k).tag 0 s.ring.moduleId 0 [])])) ∧
  (∀ g, ∀ k : RawPkt, pktOpcode k = 0x0100 → (parsePkt 0 k).module = allModules →
    Happens (.ringCommandReceived · g k) (fun s => up s ∧ g ≠ allModules) id []
    (fun s => [.remoteReply g (replyBytes 0x0100 stBadTarget (parsePkt 0 k).tag 0 s.ring.moduleId 0 (targetBody (parsePkt 0 k)))]))

/-- CFG and CFG_TIMER are staged edits, refused with the cause for a bad value, a pending glue-up or a conflict. DESC_BASE, DESC_COUNT, MODE and ARM go to the shadow bank; between capture and swap they are held and counted, and after the swap applied to the new shadow bank, setting LATE. DOORBELL, timers and chains start what the channel's state and START allow; a signal that finds it running is counted and discarded. The swap exchanges the banks with DONE 0. ABORT ends the descriptor FAILED and leaves DONE; RESET clears the status and the fence. A free time of at most 400 ns passes from capture to swap. -/
def Obligations.DmaRegisters : Prop :=
  (∀ ch timer v, ch < 64 → v < 2 ^ 32 → badDmaCfg timer v = true → Exactly (.dmaCfgWrite · ch timer v) (fun s => up s ∧ noLocks s)
    (setChan ch fun x => { x with cfgResult := 3, cfgKind := 0, cfgIndex := 0, cfgHolder := 0 })) ∧
  (∀ ch timer v, ch < 64 → v < 2 ^ 32 → badDmaCfg timer v = false → Exactly (.dmaCfgWrite · ch timer v)
    (fun s => up s ∧ noLocks s ∧ (s.glue.isSome = true ∨ s.ring.prepared.isSome = true))
    (setChan ch fun x => { x with cfgResult := 2, cfgKind := 0, cfgIndex := 0, cfgHolder := 0 })) ∧
  (∀ ch v, ∀ h : Holder, ch < 64 → v < 2 ^ 32 → badDmaCfg false v = false → Exactly (.dmaCfgWrite · ch false v)
    (fun s => up s ∧ noLocks s ∧ alone s ∧ s.ring.prepared = none ∧
      conflictOf (claimsOf { s.staged with dma := vmod s.staged.dma ch fun x => { x with cfg := dmaCfgBits v } } s.marq.shadow.region)
        (runningClaims s) s.claims 0 ch = some h)
    (setChan ch fun x => { x with cfgResult := 1, cfgKind := h.kind, cfgIndex := h.index, cfgHolder := h.opcode * 65536 + h.unit * 256 + h.state })) ∧
  (∀ ch v, ch < 64 → v < 2 ^ 32 → badDmaCfg false v = false → Exactly (.dmaCfgWrite · ch false v)
    (fun s => up s ∧ noLocks s ∧ alone s ∧ s.ring.prepared = none ∧
      conflictOf (claimsOf { s.staged with dma := vmod s.staged.dma ch fun x => { x with cfg := dmaCfgBits v } } s.marq.shadow.region)
        (runningClaims s) s.claims 0 ch = none)
    (fun s => setChan ch (fun x => { x with cfgResult := 0, cfgKind := 0, cfgIndex := 0, cfgHolder := 0 }) { s with
      staged := { s.staged with dma := vmod s.staged.dma ch fun x => { x with cfg := dmaCfgBits v } }, stageGen := wrap32 (s.stageGen + 1) })) ∧
  (∀ ch v, ch < 64 → 1000 ≤ v → v ≤ 4294967288 → v % 8 = 0 → Exactly (.dmaCfgWrite · ch true v)
    (fun s => up s ∧ noLocks s ∧ alone s ∧ s.ring.prepared = none ∧
      conflictOf (claimsOf { s.staged with dma := vmod s.staged.dma ch fun x => { x with timerNs := v } } s.marq.shadow.region)
        (runningClaims s) s.claims 0 ch = none)
    (fun s => setChan ch (fun x => { x with cfgResult := 0, cfgKind := 0, cfgIndex := 0, cfgHolder := 0 }) { s with
      staged := { s.staged with dma := vmod s.staged.dma ch fun x => { x with timerNs := v } }, stageGen := wrap32 (s.stageGen + 1) })) ∧
  (∀ ch v, ch < 64 → v < 2 ^ 64 → Exactly (.dmaShadowWrite · ch .descBase v) (fun s => up s ∧ noLocks s)
    (setChan ch fun x => { x with shadow := { x.shadow with base := v / 32 * 32 } })) ∧
  (∀ ch v, ch < 64 → v < 2 ^ 32 → Exactly (.dmaShadowWrite · ch .descCount v) (fun s => up s ∧ noLocks s)
    (setChan ch fun x => { x with shadow := { x.shadow with count := v } })) ∧
  (∀ ch i st, ch < 64 → i < 256 → st < 16 → Exactly (.dmaShadowWrite · ch .mode (i * 2 ^ 24 + st)) (fun s => up s ∧ noLocks s)
    (setChan ch fun x => { x with shadow := { x.shadow with mode := i * 2 ^ 24 + st } })) ∧
  (∀ ch v, ch < 64 → v < 2 ^ 32 → Exactly (.dmaShadowWrite · ch .descCount v)
    (fun s => up s ∧ locksHeld s ∧ (vget s.dma.ch ch).lockUntil.isSome = true)
    (setChan ch fun x => { x with held := x.held ++ [.count v], lateWrites := wrap32 (x.lateWrites + 1) })) ∧
  (∀ ch, ch < 64 → Exactly (.dmaArm · ch) (fun s => up s ∧ noLocks s) (setChan ch fun x => { x with armed := true })) ∧
  (∀ ch, ch < 64 → Exactly (.dmaArm · ch) (fun s => up s ∧ locksHeld s ∧ (vget s.dma.ch ch).lockUntil.isSome = true)
    (setChan ch fun x => { x with held := x.held ++ [.arm], lateWrites := wrap32 (x.lateWrites + 1) })) ∧
  (∀ ch, ch < 64 → Exactly (.dmaDoorbell · ch)
    (fun s => up s ∧ noLocks s ∧ (vget s.dma.ch ch).fencedBit = false ∧ (vget s.dma.ch ch).state = .idle ∧ (vget s.dma.ch ch).armed = false ∧
      (vget s.dma.ch ch).active.count ≠ 0 ∧ modeStart (vget s.dma.ch ch).active.mode = 0)
    (setChan ch fun x => { x with done := 0, state := .run, fetching := true, passiveHold := false })) ∧
  (∀ ch, ch < 64 → Exactly (.dmaDoorbell · ch)
    (fun s => up s ∧ noLocks s ∧ (vget s.dma.ch ch).fencedBit = false ∧ (vget s.dma.ch ch).state = .idle ∧ (vget s.dma.ch ch).armed = false ∧
      (vget s.dma.ch ch).active.count ≠ 0 ∧ modeStart (vget s.dma.ch ch).active.mode ≠ 0)
    (setChan ch fun x => { x with done := 0, state := .wait })) ∧
  (∀ ch, ch < 64 → Exactly (.dmaDoorbell · ch)
    (fun s => up s ∧ noLocks s ∧ (vget s.dma.ch ch).fencedBit = false ∧ (vget s.dma.ch ch).state = .idle ∧ (vget s.dma.ch ch).armed = true)
    (fun s => setChan ch (fun x => { x with state := .run, lockUntil := some (s.now + Config.freeValue s.free % 401) }) { s with free := s.free + 1 })) ∧
  (∀ ch, ch < 64 → Exactly (.dmaDoorbell · ch)
    (fun s => up s ∧ noLocks s ∧ (vget s.dma.ch ch).state = .idle ∧ (vget s.dma.ch ch).armed = false ∧ (vget s.dma.ch ch).active.count = 0) id) ∧
  (∀ ch, ch < 64 → Exactly (.dmaDoorbell · ch)
    (fun s => up s ∧ noLocks s ∧ (vget s.dma.ch ch).fencedBit = false ∧ (vget s.dma.ch ch).state = .wait ∧
      (vget s.dma.ch ch).done < (vget s.dma.ch ch).active.count) (setChan ch fetchingNow)) ∧
  (∀ ch, ch < 64 → Exactly (.dmaDoorbell · ch)
    (fun s => up s ∧ noLocks s ∧ (vget s.dma.ch ch).fencedBit = false ∧ (vget s.dma.ch ch).state = .run ∧ modeStart (vget s.dma.ch ch).active.mode ≠ 0)
    (setChan ch fun x => { x with ticksMissed := wrap32 (x.ticksMissed + 1) })) ∧
  (∀ ch, ch < 64 → Exactly (.dmaDoorbell · ch)
    (fun s => up s ∧ noLocks s ∧ (vget s.dma.ch ch).fencedBit = false ∧ (vget s.dma.ch ch).state = .stopped)
    (setChan ch fun x => { x with noTicket := false, state := .run, fetching := true, passiveHold := false })) ∧
  (∀ ch, ch < 64 → Exactly (.dmaDoorbell · ch) (fun s => up s ∧ noLocks s ∧ ((vget s.dma.ch ch).fencedBit = true ∨ (vget s.dma.ch ch).state = .off)) id) ∧
  (∀ ch, ch < 64 → Exactly (.dmaAbort · ch) (fun s => up s ∧ noLocks s ∧ (vget s.dma.ch ch).state = .off) id) ∧
  (∀ ch, ch < 64 → Exactly (.dmaAbort · ch) (fun s => up s ∧ noLocks s ∧ (vget s.dma.ch ch).state ≠ .off ∧ (vget s.dma.ch ch).run = none)
    (setChan ch fun x => { x with state := .idle, fetching := false, ticketWait := none, passiveHold := false })) ∧
  (∀ (t : Nat) (s : State) (c : Nat) (d : DmaRun), s.Inv → up s → noLocks s → dmaRuns c d s → (vget s.dma.ch c).state ≠ .off → bitOf d.desc.flags 3 = false →
    Next (.dmaAbort t c) s fun r =>
      (vget r.dma.ch c).state = .idle ∧ (vget r.dma.ch c).run = none ∧ (vget r.dma.ch c).done = (vget s.dma.ch c).done ∧
      (vget r.dma.ch c).lastStatus = 4 ∧ (vget r.dma.ch c).lastTicket = d.ticket ∧ (vget r.dma.ch c).active = (vget s.dma.ch c).active ∧
      r.ledger.failed = s.ledger.failed + 1 ∧ sget r.ledger.failedBy 12 0 = sget s.ledger.failedBy 12 0 + 1 ∧
      OutFrame { s with dma := { s.dma with ch := vset s.dma.ch c (vget r.dma.ch c) }, ledger := r.ledger } r) ∧
  (∀ ch, ch < 64 → Exactly (.dmaReset · ch) (fun s => up s ∧ noLocks s ∧ (vget s.dma.ch ch).state ≠ .off ∧ (vget s.dma.ch ch).run = none)
    (fun s => setChan ch (fun x => { x with
      state := .idle, fetching := false, ticketWait := none, passiveHold := false, armed := false, late := false, eoc := false
      noTicket := false, fencedBit := false, lastStatus := 0, done := 0 })
      { s with faults := { s.faults with fences := s.faults.fences.filter fun f => !(decide (f.unit = 0x11) && decide (f.index = ch)) } })) ∧
  (∀ k ch, ch < 64 → Exactly (.dmaTimerTick · k)
    (fun s => up s ∧ noLocks s ∧ (vget s.dma.ch ch).fencedBit = false ∧ (vget s.dma.ch ch).state = .wait ∧
      (vget s.dma.ch ch).done < (vget s.dma.ch ch).active.count ∧ modeStart (vget s.dma.ch ch).active.mode = 1 ∧
      dmaEnable (vget (cfgNow s).dma ch) = true ∧ dmaTimerEn (vget (cfgNow s).dma ch) = true ∧ dmaTimer (vget (cfgNow s).dma ch) = k ∧
      (∀ j : Nat, j < 64 → j ≠ ch → dmaTimerEn (vget (cfgNow s).dma j) = false ∨ dmaTimer (vget (cfgNow s).dma j) ≠ k))
    (setChan ch fetchingNow)) ∧
  (∀ k ch, ch < 64 → Exactly (.dmaTimerTick · k)
    (fun s => up s ∧ noLocks s ∧ (vget s.dma.ch ch).state = .run ∧ modeStart (vget s.dma.ch ch).active.mode = 1 ∧
      dmaEnable (vget (cfgNow s).dma ch) = true ∧ dmaTimerEn (vget (cfgNow s).dma ch) = true ∧ dmaTimer (vget (cfgNow s).dma ch) = k ∧
      (∀ j : Nat, j < 64 → j ≠ ch → dmaTimerEn (vget (cfgNow s).dma j) = false ∨ dmaTimer (vget (cfgNow s).dma j) ≠ k))
    (setChan ch fun x => { x with ticksMissed := wrap32 (x.ticksMissed + 1) })) ∧
  (∀ k ch, ch < 64 → Exactly (.dmaTimerTick · k)
    (fun s => up s ∧ (∀ j : Nat, j < 64 → dmaTimerEn (vget (cfgNow s).dma j) = false ∨ dmaTimer (vget (cfgNow s).dma j) ≠ k) ∧
      (∀ j : Nat, j < 64 → j ≠ ch → (vget s.dma.ch j).lockUntil = none) ∧ (vget s.dma.ch ch).lockUntil.any (fun t => decide (t ≤ s.now)) = true ∧
      (vget s.dma.ch ch).held = [] ∧ (vget s.dma.ch ch).state = .run ∧ (vget s.dma.ch ch).shadow.count ≠ 0 ∧ (vget s.dma.ch ch).fencedBit = false ∧
      modeStart (vget s.dma.ch ch).shadow.mode = 0)
    (setChan ch fun x => { x with
      active := x.shadow, shadow := x.active, armed := false, done := 0, lockUntil := none, fetching := true, passiveHold := false })) ∧
  (∀ k ch v, ch < 64 → Exactly (.dmaTimerTick · k)
    (fun s => up s ∧ (∀ j : Nat, j < 64 → dmaTimerEn (vget (cfgNow s).dma j) = false ∨ dmaTimer (vget (cfgNow s).dma j) ≠ k) ∧
      (∀ j : Nat, j < 64 → j ≠ ch → (vget s.dma.ch j).lockUntil = none) ∧ (vget s.dma.ch ch).lockUntil.any (fun t => decide (t ≤ s.now)) = true ∧
      (vget s.dma.ch ch).held = [.count v, .arm] ∧ (vget s.dma.ch ch).state = .run ∧ (vget s.dma.ch ch).shadow.count ≠ 0 ∧
      modeStart (vget s.dma.ch ch).shadow.mode = 1)
    (setChan ch fun x => { x with
      active := x.shadow, shadow := { x.active with count := v }, armed := true, late := true, held := [], done := 0, lockUntil := none, state := .wait })) ∧
  (∀ ch timer v, Exactly (.dmaCfgWrite · ch timer v) (fun s => ¬ up s) wedgedAccess) ∧
  (∀ ch, ∀ r : ShadowReg, ∀ v, Exactly (.dmaShadowWrite · ch r v) (fun s => ¬ up s) wedgedAccess) ∧
  (∀ ch, Exactly (.dmaArm · ch) (fun s => ¬ up s) wedgedAccess) ∧
  (∀ ch, Exactly (.dmaDoorbell · ch) (fun s => ¬ up s) wedgedAccess) ∧
  (∀ ch, Exactly (.dmaAbort · ch) (fun s => ¬ up s) wedgedAccess) ∧
  (∀ ch, Exactly (.dmaReset · ch) (fun s => ¬ up s) wedgedAccess)

/-- A fetched descriptor that passes the checks takes the next ticket and runs; without a ticket it waits, for 1 ms, and the channel then stops with NO_TICKET. A bad descriptor ends FAILED(BAD_DESC) and the channel goes on; two host errors fence the channel. Each burst read fills a page with the source's bytes, and the write engine puts it to host memory or into the Bench, whose other bytes stay. With the last write the descriptor ends COMPLETE: DONE counts, the write-back is put out where asked, and the event comes at end of count, where the channel becomes idle. -/
def Obligations.DmaDescriptors : Prop :=
  (∀ ch, ∀ d : Desc, ∀ b : Bytes, ch < 64 → b.length = 32 → parDesc b = d → d.srcKind ≤ 1 → d.dstKind = 0 → flushDesc d = false →
    Exactly (.dmaDescFetched · ch b 0)
    (fun s => up s ∧ noLocks s ∧ alone s ∧ s.faults.injections = [] ∧ (vget s.dma.ch ch).fetching = true ∧ descOk s d = true ∧ descFrozen s d = false ∧
      ledgerFull s = false)
    (fun s => setChan ch (fun x => { x with
      fetching := false, ticketWait := none, state := .run
      run := some { desc := d, ticket := nextTicket s, total := d.length, down := decide (d.srcKind = d.dstKind) && decide (d.src < d.dst) } }) (issued s))) ∧
  (∀ ch b, ∀ d : Desc, ch < 64 → b.length = 32 → parDesc b = d →
    Exactly (.dmaDescFetched · ch b 0)
    (fun s => up s ∧ noLocks s ∧ alone s ∧ s.faults.injections = [] ∧ (vget s.dma.ch ch).fetching = true ∧ (vget s.dma.ch ch).ticketWait = none ∧ ledgerFull s = true)
    (fun s => setChan ch (fun x => { x with fetching := false, ticketWait := some (d, s.now) })
      { s with ledger := { s.ledger with noTicket := s.ledger.noTicket + 1 } })) ∧
  (∀ (t : Nat) (s : State) (c : Nat) (b : Bytes), s.Inv → up s → noLocks s → alone s → c < 64 → s.faults.injections = [] →
    (vget s.dma.ch c).fetching = true → b.length = 32 → descOk s (parDesc b) = false → bitOf (parDesc b).flags 3 = false →
    nextSlot s < ledgerSlots → sget s.ledger.gens (nextSlot s) 0 < 2 ^ 14 → modeStart (vget s.dma.ch c).active.mode = 0 →
    (vget s.dma.ch c).fencedBit = false → (vget s.dma.ch c).done + 1 < (vget s.dma.ch c).active.count →
    Next (.dmaDescFetched t c b 0) s fun r =>
      (vget r.dma.ch c).lastStatus = 1 ∧ (vget r.dma.ch c).lastTicket = nextTicket s ∧ (vget r.dma.ch c).done = (vget s.dma.ch c).done + 1 ∧
      (vget r.dma.ch c).run = none ∧ (vget r.dma.ch c).fetching = true ∧ (vget r.dma.ch c).state = .run ∧
      (vget r.dma.ch c).descFailed = wrap32 ((vget s.dma.ch c).descFailed + 1) ∧ r.ledger.failed = s.ledger.failed + 1 ∧
      sget r.ledger.failedBy 10 0 = sget s.ledger.failedBy 10 0 + 1 ∧ r.bench.mem = s.bench.mem) ∧
  (∀ (t : Nat) (s : State) (c : Nat) (b : Bytes), s.Inv → up s → noLocks s → c < 64 → s.faults.injections = [] → (vget s.dma.ch c).fetching = true →
    (vget s.dma.ch c).run = none →
    Next (.dmaDescFetched t c b 2) s fun r =>
      (vget r.dma.ch c).state = .fenced ∧ (vget r.dma.ch c).fencedBit = true ∧ (vget r.dma.ch c).fetching = false ∧ (vget r.dma.ch c).lastStatus = 2 ∧
      (vget r.dma.ch c).done = (vget s.dma.ch c).done ∧ (fenceOf r 0x11 c).isSome = true ∧
      r.faults.cnt.fences = s.faults.cnt.fences + 1 ∧ bitOf r.host.evt.pending 0x003 = true ∧ bitOf r.host.evt.pending (0x300 + c) = true ∧
      r.ledger = s.ledger ∧ r.bench.mem = s.bench.mem ∧ r.cmds = s.cmds ∧ r.emit.length ≤ 6) ∧
  (∀ ch b f, ch < 64 → Exactly (.dmaDescFetched · ch b f) (fun s => noLocks s ∧ (vget s.dma.ch ch).fetching = false ∧ (vget s.dma.ch ch).ticketWait = none) id) ∧
  (∀ ch w, ∀ d : Desc, ch < 64 → Exactly (.dmaTicketTimeout · ch)
    (fun s => up s ∧ (vget s.dma.ch ch).ticketWait = some (d, w) ∧ ledgerFull s = true ∧ w + 1000000 ≤ s.now)
    (setChan ch fun x => { x with state := .stopped, noTicket := true, ticketWait := none })) ∧
  (∀ ch w, ∀ d : Desc, ch < 64 → Exactly (.dmaTicketTimeout · ch)
    (fun s => (vget s.dma.ch ch).ticketWait = some (d, w) ∧ ledgerFull s = true ∧ s.now < w + 1000000) id) ∧
  (∀ ch, Exactly (.dmaTicketTimeout · ch) (fun s => (vget s.dma.ch ch).ticketWait = none) id) ∧
  (∀ ch w, ∀ d : Desc, ch < 64 → d.srcKind ≤ 1 → d.dstKind = 0 → flushDesc d = false → Exactly (.dmaTicketTimeout · ch)
    (fun s => up s ∧ alone s ∧ (vget s.dma.ch ch).ticketWait = some (d, w) ∧ ledgerFull s = false ∧ descOk s d = true ∧ descFrozen s d = false)
    (fun s => setChan ch (fun x => { x with
      fetching := false, ticketWait := none, state := .run
      run := some { desc := d, ticket := nextTicket s, total := d.length, down := decide (d.srcKind = d.dstKind) && decide (d.src < d.dst) } }) (issued s))) ∧
  (∀ ch data, ∀ d : DmaRun, ch < 64 → d.waiting = false → flushDesc d.desc = false → d.desc.srcKind = 1 → d.payload = none → d.read < d.total →
    Exactly (.dmaBurstReadDone · ch data 0)
    (fun s => up s ∧ noLocks s ∧ (vget s.dma.ch ch).run = some d ∧ d.pages.length < dmaPages (vget (cfgNow s).dma ch))
    (fun s =>
      let b := nextBurst d.desc d.down d.total d.read
      setChan ch (fun x => { x with run := some { d with
          read := d.read + b.2, pages := d.pages ++ [{ off := b.1, data := memRead s.bench.mem (d.desc.src + b.1) b.2 }] } })
        { s with dma := { s.dma with lastRead := ch } })) ∧
  (∀ ch data, ∀ d : DmaRun, ch < 64 → d.waiting = false → flushDesc d.desc = false → d.desc.srcKind = 0 → d.payload = none → d.read < d.total →
    data.length = (nextBurst d.desc d.down d.total d.read).2 → Exactly (.dmaBurstReadDone · ch data 0)
    (fun s => up s ∧ noLocks s ∧ s.faults.injections = [] ∧ (vget s.dma.ch ch).run = some d ∧ d.pages.length < dmaPages (vget (cfgNow s).dma ch))
    (fun s => setChan ch (fun x => { x with run := some { d with
          read := d.read + data.length, pages := d.pages ++ [{ off := (nextBurst d.desc d.down d.total d.read).1, data := data }] } })
        { s with dma := { s.dma with lastRead := ch } })) ∧
  (∀ ch data f, ∀ d : DmaRun, ch < 64 → d.waiting = false → Exactly (.dmaBurstReadDone · ch data f)
    (fun s => noLocks s ∧ (vget s.dma.ch ch).run = some d ∧ (d.total ≤ d.read ∨ dmaPages (vget (cfgNow s).dma ch) ≤ d.pages.length)) id) ∧
  (∀ f, Exactly (.dmaBurstWrite · f) (fun s => writePick s = none) id) ∧
  (∀ ch, ∀ d : DmaRun, ∀ b : Burst, ∀ rest : List Burst, ch < 64 → d.desc.dstKind = 0 → d.pages = b :: rest → Exactly (.dmaBurstWrite · 0)
    (fun s => up s ∧ writePick s = some ch ∧ (vget s.dma.ch ch).run = some d)
    (fun s => out (.hostWrite (d.desc.dst + b.off) b.data (bitOf d.desc.flags 2)) (setChan ch (fun x => { x with
        bytes := (x.bytes + b.data.length) % 2 ^ 64, run := some { d with pages := rest, written := d.written + b.data.length } })
      { s with dma := { s.dma with lastWrite := ch } }))) ∧
  (∀ ch f, ∀ d : DmaRun, ∀ b : Burst, ∀ rest : List Burst, ch < 64 → d.desc.dstKind = 1 → d.pages = b :: rest → Exactly (.dmaBurstWrite · f)
    (fun s => up s ∧ writePick s = some ch ∧ (vget s.dma.ch ch).run = some d)
    (fun s => written [(d.desc.dst + b.off, b.data)] (setChan ch (fun x => { x with
        bytes := (x.bytes + b.data.length) % 2 ^ 64, run := some { d with pages := rest, written := d.written + b.data.length } })
      { s with dma := { s.dma with lastWrite := ch } }))) ∧
  (∀ ch, ∀ d : DmaRun, ch < 64 → d.waiting = true ∨ flushDesc d.desc = true ∨ d.written < d.total → Exactly (.dmaDescriptorComplete · ch)
    (fun s => noLocks s ∧ (vget s.dma.ch ch).run = some d) id) ∧
  (∀ (t : Nat) (s : State) (c : Nat) (d : DmaRun), s.Inv → up s → noLocks s → dmaRuns c d s → d.total ≤ d.written → flushDesc d.desc = false →
    (vget s.dma.ch c).active.count = (vget s.dma.ch c).done + 1 → (vget s.dma.ch c).armed = false →
    Next (.dmaDescriptorComplete t c) s fun r =>
      (vget r.dma.ch c).state = .idle ∧ (vget r.dma.ch c).eoc = true ∧ (vget r.dma.ch c).done = (vget s.dma.ch c).done + 1 ∧
      (vget r.dma.ch c).run = none ∧ (vget r.dma.ch c).lastTicket = d.ticket ∧ (vget r.dma.ch c).lastStatus = 0 ∧
      bitOf r.host.evt.pending (0x300 + c) = true ∧ r.ledger.complete = s.ledger.complete + 1 ∧ ticketLive r.ledger d.ticket = false ∧
      (bitOf d.desc.flags 3 = true →
        Emit.hostWrite ((vget s.dma.ch c).active.base + 32 * (vget s.dma.ch c).done + 24) (le 4 d.written ++ [0, 0, 1, 0]) false ∈ r.emit) ∧
      OutFrame { s with dma := { s.dma with ch := vset s.dma.ch c (vget r.dma.ch c) }, ledger := r.ledger } r) ∧
  (∀ (t : Nat) (s : State) (c : Nat) (d : DmaRun), s.Inv → up s → noLocks s → dmaRuns c d s → d.total ≤ d.written → flushDesc d.desc = false →
    (vget s.dma.ch c).done + 1 < (vget s.dma.ch c).active.count → modeStart (vget s.dma.ch c).active.mode = 0 → (vget s.dma.ch c).fencedBit = false →
    Next (.dmaDescriptorComplete t c) s fun r =>
      (vget r.dma.ch c).state = .run ∧ (vget r.dma.ch c).fetching = true ∧ (vget r.dma.ch c).done = (vget s.dma.ch c).done + 1 ∧
      (vget r.dma.ch c).run = none ∧ r.ledger.complete = s.ledger.complete + 1 ∧
      (bitOf d.desc.flags 0 = true → bitOf r.host.evt.pending (0x300 + c) = true) ∧
      OutFrame { s with dma := { s.dma with ch := vset s.dma.ch c (vget r.dma.ch c) }, ledger := r.ledger } r) ∧
  (∀ (t : Nat) (s : State) (c : Nat) (d : DmaRun), s.Inv → up s → noLocks s → dmaRuns c d s → flushDesc d.desc = true →
    (vget s.dma.ch c).active.count = (vget s.dma.ch c).done + 1 → (vget s.dma.ch c).armed = false →
    Next (.dmaFlushDone t c 0) s fun r =>
      (vget r.dma.ch c).state = .idle ∧ (vget r.dma.ch c).eoc = true ∧ (vget r.dma.ch c).done = (vget s.dma.ch c).done + 1 ∧
      bitOf r.host.evt.pending (0x300 + c) = true ∧ r.ledger.complete = s.ledger.complete + 1 ∧
      OutFrame { s with dma := { s.dma with ch := vset s.dma.ch c (vget r.dma.ch c) }, ledger := r.ledger } r) ∧
  (∀ ch f, Exactly (.dmaFlushDone · ch f) (fun s => noLocks s ∧ (vget s.dma.ch ch).run = none) id)

/-- AXIS_MOVE claims the axis and sets a target, absolute or relative, taken at the next update, or at the next line trigger while triggering runs; the reply names the line. A target beyond a soft limit is ST_BAD_PARAM. AXIS_HOME on an idle axis with HOME enabled begins the search with HOMED clear, after 1 ms where IRUN must be restored. AXIS_STOP decelerates a move at DECEL or EMERG_DECEL, safe-stops, or clears FAULT and SAFE_STOPPED where supply, temperature and inputs allow; a DISABLED axis refuses it. -/
def Obligations.AxisCommands : Prop :=
  (∀ a : Nat, a < 4 → Acts .axisMove specAxisMove
    (fun c s => c.unit = a ∧ (axisCfg s a).enable = true ∧ bitOf (u8 c.params 4) 1 = false ∧ (axisCfg s a).softMin ≤ s32 c.params 0 ∧
      s32 c.params 0 ≤ (axisCfg s a).softMax ∧ rtHolder s 0x0D a = none ∧ axisReady s a = true ∧ (vget s.axes.ax a).state ≠ .stroking ∧
      towardLimit (axisCfg s a) (vget s.axes.ax a) (s32 c.params 0 - axisPos (vget s.axes.ax a)) = false ∧ s.gauge.trigEnabled = false)
    (fun _ _ => le 4 0)
    (fun _ c s => setAxis a (fun x => { x with moveWait := none, moveDue := some {
        target := s32 c.params 0, notify := bitOf (u8 c.params 4) 0, line := trimLine s (nextTriggered s) } })
      { s with claims := s.claims ++ [⟨0x0D, a, 0x0D01, a⟩] })) ∧
  (∀ a : Nat, a < 4 → Acts .axisMove specAxisMove
    (fun c s => c.unit = a ∧ (axisCfg s a).enable = true ∧ bitOf (u8 c.params 4) 1 = true ∧
      (axisCfg s a).softMin ≤ s32 c.params 0 + moveBase (vget s.axes.ax a) ∧
      s32 c.params 0 + moveBase (vget s.axes.ax a) ≤ (axisCfg s a).softMax ∧ rtHolder s 0x0D a = none ∧ axisReady s a = true ∧
      (vget s.axes.ax a).state ≠ .stroking ∧
      towardLimit (axisCfg s a) (vget s.axes.ax a) (s32 c.params 0 + moveBase (vget s.axes.ax a) - axisPos (vget s.axes.ax a)) = false ∧
      s.gauge.trigEnabled = true)
    (fun _ s => le 4 (trimLine s (nextTriggered s)))
    (fun _ c s => setAxis a (fun x => { x with moveDue := none, moveWait := some {
        target := s32 c.params 0 + moveBase x, notify := bitOf (u8 c.params 4) 0, line := trimLine s (nextTriggered s) } })
      { s with claims := s.claims ++ [⟨0x0D, a, 0x0D01, a⟩] })) ∧
  (∀ a : Nat, a < 4 → Refuses .axisMove specAxisMove
    (fun c s => c.unit = a ∧ (axisCfg s a).enable = true ∧ bitOf (u8 c.params 4) 1 = false ∧
      (s32 c.params 0 < (axisCfg s a).softMin ∨ (axisCfg s a).softMax < s32 c.params 0)) stBadParam (fun _ _ => paramBody 0)) ∧
  (∀ a : Nat, a < 4 → Refuses .axisMove specAxisMove (fun c s => c.unit = a ∧ (axisCfg s a).enable = false) stWrongState (fun _ _ => zeros 8)) ∧
  (∀ a : Nat, a < 4 → Starts .axisHome specAxisHome
    (fun c s => c.unit = a ∧ (axisCfg s a).enable = true ∧ badHome c.params (axisCfg s a).vmax = none ∧ (vget s.axes.ax a).home = none ∧
      rtHolder s 0x0D a = none ∧ (vget s.axes.ax a).state = .idle ∧ bitOf (axisCfg s a).inputs 2 = true ∧
      ((parHome c.params).latchIndex = false ∨ (axisCfg s a).encoder ≠ none) ∧ inputAsserted (axisCfg s a) (vget s.axes.ax a) 2 = false ∧
      inputAsserted (axisCfg s a) (vget s.axes.ax a) (if (parHome c.params).positive then 1 else 0) = false)
    (fun t c s => setAxis a (fun x => { x with
        state := .homing, homed := false, restAt := none, standstill := none, lastUpdate := max s.now t
        irunUntil := if x.standstill = some .off ∨ x.standstill = some .short then some (max s.now t + 1000000) else none
        cnt := { x.cnt with homings := wrap32 (x.cnt.homings + 1) }
        home := some { par := parHome c.params, ticket := nextTicket s, deadline := max s.now t + (parHome c.params).timeoutMs * 1000000 } })
      { s with claims := s.claims ++ [⟨0x0D, a, 0x0D02, a⟩] })) ∧
  (∀ a : Nat, a < 4 → Refuses .axisHome specAxisHome
    (fun c s => c.unit = a ∧ (axisCfg s a).enable = true ∧ badHome c.params (axisCfg s a).vmax = none ∧ (vget s.axes.ax a).home = none ∧
      rtHolder s 0x0D a = none ∧ (vget s.axes.ax a).state ≠ .idle) stWrongState (fun _ _ => zeros 8)) ∧
  (∀ a : Nat, a < 4 → Acts .axisStop specAxisStop
    (fun c s => c.unit = a ∧ u8 c.params 0 ≤ 1 ∧ noStations s ∧ (vget s.axes.ax a).state = .moving ∧ (vget s.axes.ax a).vq ≠ 0 ∧ (axisCfg s a).jerk = 0 ∧
      (∀ k ∈ runningClaims s, k.kind = 0x0D → k.index ≠ a))
    (fun _ s => [6, BitVec.ofNat 8 (axisCauseCode (vget s.axes.ax a).cause), 0, 0])
    (fun _ c s => setAxis a (brakingAxis { emerg := decide (u8 c.params 0 = 1), cause := .stop }) (unmoved a s))) ∧
  (∀ a : Nat, a < 4 → Acts .axisStop specAxisStop
    (fun c s => c.unit = a ∧ u8 c.params 0 = 2 ∧ noStations s ∧ (vget s.axes.ax a).state = .idle ∧ (vget s.axes.ax a).vq = 0 ∧ (vget s.axes.ax a).stopping = none ∧
      (vget s.axes.ax a).home = none)
    (fun _ _ => [8, 12, 0, 0])
    (fun t _ s => setAxis a (fun x => { restingAxis .safeStopped 0 (droppedAxis x) with
        cause := .safeStop, standstill := some (standCfg s a).safe, restAt := none, lastUpdate := max s.now t
        cnt := { x.cnt with safeStops := wrap32 (x.cnt.safeStops + 1) } }) (unmoved a s))) ∧
  (∀ a : Nat, a < 4 → Acts .axisStop specAxisStop
    (fun c s => c.unit = a ∧ u8 c.params 0 = 3 ∧ ((vget s.axes.ax a).state = .fault ∨ (vget s.axes.ax a).state = .safeStopped) ∧
      (axisIn (cfgNow s) a).enable = true ∧ (axisCfg s a).encoder = none ∧ (vget s.axes.ax a).held = none ∧
      (vget s.axes.ax a).stopping = none ∧ 21000 ≤ s.axes.vmotorMv ∧ s.axes.vmotorMv ≤ 51000 ∧ (vget s.axes.ax a).temp < 125 ∧
      anyChatter (vget s.axes.ax a) = false)
    (fun _ s => [1, BitVec.ofNat 8 (axisCauseCode (vget s.axes.ax a).cause), 0, 0])
    (fun t _ s => setAxis a (fun x => { restingAxis .idle (max s.now t) x with
        bridgesOff := false, standstill := none, xref := axisPos x, eref := 0 }) s)) ∧
  (∀ a : Nat, a < 4 → Refuses .axisStop specAxisStop
    (fun c s => c.unit = a ∧ u8 c.params 0 = 3 ∧ (vget s.axes.ax a).state ≠ .disabled ∧ (s.axes.vmotorMv < 21000 ∨ 125 ≤ (vget s.axes.ax a).temp))
    stWrongState (fun _ _ => zeros 8)) ∧
  (∀ a : Nat, a < 4 → Refuses .axisStop specAxisStop
    (fun c s => c.unit = a ∧ u8 c.params 0 ≤ 3 ∧ (vget s.axes.ax a).state = .disabled) stWrongState (fun _ _ => zeros 8))

/-- Each 1 us update moves the axis as R627 gives; on arrival it rests IDLE, its claim ends and NOTIFY raises the event. Braking ends at rest with the cause reported. A moving axis without an update for 20 us is safe-stopped. A limit in the direction of motion stops the axis at EMERG_DECEL into FAULT; an input not enabled does nothing. A chattering input is counted and reported once. Overcurrent, more than 150 C, or VMOTOR below 20 V switches the bridges off and puts the axes in FAULT with HOMED clear; above 135 C comes a warning that re-arms below 125 C. No axis but the one named changes. -/
def Obligations.AxisMotionAndProtection : Prop :=
  (∀ a : Nat, a < 4 → Happens (.axisProfileUpdate · a)
    (fun s => updates a s ∧ (vget s.axes.ax a).state = .moving ∧ (vget s.axes.ax a).softBrake = false ∧
      softAlarm (axisCfg s a) (vget s.axes.ax a) = false ∧ (axisNext a s).2.2 = false)
    (fun s => setAxis a (fun x => { x with xq := (axisNext a s).1, vq := (axisNext a s).2.1, lastUpdate := s.now }) s) [] noPuts) ∧
  (∀ a : Nat, a < 4 → Happens (.axisProfileUpdate · a)
    (fun s => updates a s ∧ (vget s.axes.ax a).state = .moving ∧ (vget s.axes.ax a).softBrake = false ∧
      softAlarm (axisCfg s a) (vget s.axes.ax a) = false ∧ (axisNext a s).2.2 = true ∧ (vget s.axes.ax a).stroke = none ∧
      (vget s.axes.ax a).notify = true ∧ (vget s.axes.ax a).scribe = false)
    (fun s => setAxis a (fun x => { restingAxis .idle s.now x with xq := x.target * 2 ^ 32, lastUpdate := s.now }) (unmoved a s)) [0x3B4 + a] noPuts) ∧
  (∀ a : Nat, a < 4 → ∀ p : Stopping, p.atRest = .idle → p.emerg = true → Happens (.axisProfileUpdate · a)
    (fun s => updates a s ∧ (vget s.axes.ax a).state = .stopping ∧ (vget s.axes.ax a).stopping = some p ∧
      (brakeStep (axisCfg s a).emerg (vget s.axes.ax a).xq (vget s.axes.ax a).vq).2 = 0)
    (fun s => setAxis a (fun x => { restingAxis .idle s.now x with
      cause := p.cause, lastUpdate := s.now, xq := (brakeStep (axisCfg s a).emerg x.xq x.vq).1 }) s) [0x3B0 + a] noPuts) ∧
  (∀ a : Nat, a < 4 → Happens (.axisProfileUpdate · a)
    (fun s => noStations s ∧ (vget s.axes.ax a).moveDue = none ∧ (vget s.axes.ax a).gearDue = false ∧
      ((vget s.axes.ax a).irunUntil.isSome = true ∨ s.now < (vget s.axes.ax a).lastUpdate + 1000)) id [] noPuts) ∧
  (∀ a : Nat, a < 4 → Happens (.profileWatchdog · a)
    (fun s => up s ∧ noStations s ∧ (vget s.axes.ax a).state = .moving ∧ (vget s.axes.ax a).vq ≠ 0 ∧ (vget s.axes.ax a).stopping = none ∧
      (vget s.axes.ax a).home = none ∧ (vget s.axes.ax a).stroke = none ∧ (vget s.axes.ax a).irunUntil = none ∧ (axisCfg s a).jerk = 0 ∧
      (vget s.axes.ax a).lastUpdate + 20000 ≤ s.now)
    (fun s => setAxis a (fun x => { brakingAxis { emerg := true, cause := .wedged, atRest := .safe } x with
        cause := .wedged, lastUpdate := s.now, cnt := { x.cnt with safeStops := wrap32 (x.cnt.safeStops + 1) } }) (unmoved a s)) [0x3B0 + a] noPuts) ∧
  (∀ a : Nat, a < 4 → Happens (.profileWatchdog · a)
    (fun s => noStations s ∧ (s.now < (vget s.axes.ax a).lastUpdate + 20000 ∨ (vget s.axes.ax a).state = .idle)) id [] noPuts) ∧
  (∀ a i l, a < 4 → i < 3 → Happens (.axisInputChange · a i l) (fun s => noStations s ∧ bitOf (axisCfg s a).inputs i = false) id [] noPuts) ∧
  (∀ a i l, a < 4 → i < 3 → Happens (.axisInputChange · a i l)
    (fun s => noStations s ∧ bitOf (axisCfg s a).inputs i = true ∧ (vget s.axes.ax a).state = .idle ∧ (vget s.axes.ax a).vq = 0)
    (fun s => setAxis a (fun x => { x with inputs := vset x.inputs i { (vget x.inputs i) with level := l, changedAt := s.now } }) s) [] noPuts) ∧
  (∀ a l, a < 4 → Happens (.axisInputChange · a 1 l)
    (fun s => noStations s ∧ bitOf (axisCfg s a).inputs 1 = true ∧ bitOf (axisCfg s a).inputs 4 = l ∧ (vget s.axes.ax a).vioLow = false ∧
      (vget (vget s.axes.ax a).inputs 1).chatter = false ∧ (vget (vget s.axes.ax a).inputs 1).level ≠ l ∧ (vget s.axes.ax a).state = .moving ∧
      decide (0 < (vget s.axes.ax a).vq) = true ∧ (vget s.axes.ax a).stopping = none ∧ (axisCfg s a).jerk = 0)
    (fun s => setAxis a (fun x => { brakingAxis { emerg := true, cause := .hardLimit, atRest := .fault } x with
        inputs := vset x.inputs 1 { (vget x.inputs 1) with level := l, changedAt := s.now }
        cnt := { x.cnt with limitStops := wrap32 (x.cnt.limitStops + 1) } }) (unmoved a s)) [] noPuts) ∧
  (∀ a i, a < 4 → i < 3 → Happens (.limitChatter · a i)
    (fun s => up s ∧ noStations s ∧ bitOf (axisCfg s a).inputs i = true ∧ (vget (vget s.axes.ax a).inputs i).chatter = false ∧ (vget s.axes.ax a).state = .idle)
    (fun s => setAxis a (fun x => { x with
        inputs := vset x.inputs i { (vget x.inputs i) with chatter := true, changedAt := s.now }, cnt := { x.cnt with chatters := wrap32 (x.cnt.chatters + 1) } }) s)
    [0x3B8 + a] noPuts) ∧
  (∀ a i, a < 4 → i < 3 → Happens (.limitChatter · a i)
    (fun s => noStations s ∧ bitOf (axisCfg s a).inputs i = true ∧ (vget (vget s.axes.ax a).inputs i).chatter = true)
    (fun s => setAxis a (fun x => { x with inputs := vset x.inputs i { (vget x.inputs i) with changedAt := s.now } }) s) [] noPuts) ∧
  (∀ a, a < 4 → Happens (.axisOvercurrent · a) (fun s => noStations s ∧ (vget s.axes.ax a).state = .disabled) id [] noPuts) ∧
  (∀ a, a < 4 → Happens (.axisOvercurrent · a)
    (fun s => up s ∧ noStations s ∧ (vget s.axes.ax a).state ≠ .disabled ∧ (vget s.axes.ax a).home = none)
    (fun s => setAxis a (protectedAxis .overcurrent s.now) (unmoved a s)) [0x3B0 + a] noPuts) ∧
  (∀ a temp, a < 4 → Happens (.stageTemperature · a temp) (fun s => noStations s ∧ decide (125 ≤ temp) = true ∧ decide (temp ≤ 135) = true)
    (fun s => setAxis a (fun x => { x with temp := temp }) s) [] noPuts) ∧
  (∀ a temp, a < 4 → Happens (.stageTemperature · a temp)
    (fun s => up s ∧ noStations s ∧ decide (135 < temp) = true ∧ decide (temp ≤ 150) = true ∧ (vget s.axes.ax a).tempWarn = false)
    (fun s => setAxis a (fun x => { x with temp := temp, tempWarn := true }) s) [0x3BC + a] noPuts) ∧
  (∀ a temp, a < 4 → Happens (.stageTemperature · a temp) (fun s => noStations s ∧ decide (temp < 125) = true)
    (fun s => setAxis a (fun x => { x with temp := temp, tempWarn := false }) s) [] noPuts) ∧
  (∀ a temp, a < 4 → Happens (.stageTemperature · a temp)
    (fun s => up s ∧ noStations s ∧ decide (150 < temp) = true ∧ (vget s.axes.ax a).state ≠ .disabled ∧ (vget s.axes.ax a).home = none)
    (fun s => setAxis a (fun x => protectedAxis .overtemp s.now { x with temp := temp, tempWarn := true }) (unmoved a s)) [0x3B0 + a] noPuts) ∧
  (∀ mv, 20000 ≤ mv → mv ≤ 52000 → Happens (.vmotorFault · mv) noStations (fun s => { s with axes := { s.axes with vmotorMv := mv } }) [] noPuts) ∧
  (∀ mv, mv < 20000 → Happens (.vmotorFault · mv)
    (fun s => up s ∧ noStations s ∧ ∀ a : Nat, a < 4 → ((vget s.axes.ax a).state ≠ .disabled ∧ (vget s.axes.ax a).home = none))
    (fun s => [0, 1, 2, 3].foldl (fun s a => setAxis a (protectedAxis .vmotorLow s.now) (unmoved a s)) { s with axes := { s.axes with vmotorMv := mv } })
    [0x3B0, 0x3B1, 0x3B2, 0x3B3] noPuts)

/-- HOLD_DELAY after rest the standstill mode takes effect; 1 ms after IRUN is restored the motion starts; after STROKE_HOLD the stroke goes back to where it began; homing that has lasted TIMEOUT brakes with HOMED clear and that reason; a safe-stop's ramp that has reached rest leaves SAFE_STOPPED with SAFE_MODE. Each event that comes too early changes nothing. VIO below 0.8 V makes every input read asserted, and stops a moving axis as at a limit. -/
def Obligations.AxisTimers : Prop :=
  (∀ a r, a < 4 → Happens (.standstillDelayExpired · a)
    (fun s => noStations s ∧ (vget s.axes.ax a).restAt = some r ∧ r + (standCfg s a).holdDelay * 1000000 ≤ s.now ∧ (vget s.axes.ax a).bridgesOff = false)
    (fun s => setAxis a (fun x => { x with restAt := none, standstill := some (standCfg s a).mode }) s) [] noPuts) ∧
  (∀ a r, a < 4 → Happens (.standstillDelayExpired · a)
    (fun s => noStations s ∧ (vget s.axes.ax a).restAt = some r ∧ s.now < r + (standCfg s a).holdDelay * 1000000) id [] noPuts) ∧
  (∀ a u, a < 4 → Happens (.irunRestoreWait · a) (fun s => noStations s ∧ (vget s.axes.ax a).irunUntil = some u ∧ u ≤ s.now)
    (fun s => setAxis a (fun x => { x with irunUntil := none, lastUpdate := s.now }) s) [] noPuts) ∧
  (∀ a, a < 4 → Happens (.irunRestoreWait · a) (fun s => noStations s ∧ (vget s.axes.ax a).irunUntil = none) id [] noPuts) ∧
  (∀ a h, a < 4 → ∀ b : Int, Happens (.strokeHoldExpired · a)
    (fun s => noStations s ∧ (vget s.axes.ax a).stroke = some ⟨b, .holding h⟩ ∧ h ≤ s.now ∧ (axisCfg s a).jerk = 0)
    (fun s => setAxis a (fun x => { x with target := b, lastUpdate := s.now, stroke := some ⟨b, .back⟩, due := none }) s) [] noPuts) ∧
  (∀ a h, a < 4 → ∀ b : Int, Happens (.strokeHoldExpired · a)
    (fun s => noStations s ∧ (vget s.axes.ax a).stroke = some ⟨b, .holding h⟩ ∧ s.now < h) id [] noPuts) ∧
  (∀ a, a < 4 → ∀ h : HomeRun, h.reason = .none → Happens (.homingTimeout · a)
    (fun s => noStations s ∧ (vget s.axes.ax a).home = some h ∧ h.deadline ≤ s.now)
    (setAxis a fun x => { x with homed := false, home := some { h with reason := .timeout, braking := true } }) [] noPuts) ∧
  (∀ a, a < 4 → ∀ h : HomeRun, Happens (.homingTimeout · a) (fun s => noStations s ∧ (vget s.axes.ax a).home = some h ∧ s.now < h.deadline) id [] noPuts) ∧
  (∀ a, a < 4 → ∀ p : Stopping, p.atRest = .safe → Happens (.safeStopRest · a)
    (fun s => noStations s ∧ (vget s.axes.ax a).stopping = some p ∧ (safeRamp (axisCfg s a) (vget s.axes.ax a) s.now).2 = 0)
    (fun s => setAxis a (fun x => { restingAxis .safeStopped 0 x with
      xq := (safeRamp (axisCfg s a) x s.now).1, cause := p.cause, standstill := some (standCfg s a).safe, restAt := none }) s) [] noPuts) ∧
  (∀ a, a < 4 → Happens (.safeStopRest · a) (fun s => noStations s ∧ (safeRamp (axisCfg s a) (vget s.axes.ax a) s.now).2 ≠ 0) id [] noPuts) ∧
  (∀ low, Happens (.vioLow · low) (fun s => noStations s ∧ ∀ a : Nat, a < 4 → ((vget s.axes.ax a).state = .idle ∨ (vget s.axes.ax a).state = .disabled))
    (fun s => { s with axes := { s.axes with ax := s.axes.ax.map fun x => { x with vioLow := low } } }) [] noPuts) ∧
  (∀ (t : Nat) (s : State) (a : Nat), s.Inv → noStations s → a < 4 → (vget s.axes.ax a).state = .moving → (vget s.axes.ax a).vioLow = false →
    (vget s.axes.ax a).vq ≠ 0 → (vget s.axes.ax a).stopping = none →
    Next (.vioLow t true) s fun r =>
      (vget r.axes.ax a).state = .stopping ∧ (vget r.axes.ax a).stopping = some { emerg := true, cause := .hardLimit, atRest := .fault } ∧
      (vget r.axes.ax a).vioLow = true ∧ (vget r.axes.ax a).xq = (vget s.axes.ax a).xq ∧ r.bench.mem = s.bench.mem)

/-- A key lives 1 ms and allows one operation; without it an operation is refused with RESULT 2, in a wrong state with RESULT 3, and then nothing else changes. SAFE_STOP stops the axes of its mask and no other; FORCE_SELF_REFRESH begins the entry and RELEASE the exit; FAILOVER_SIGNAL gives the failure signal of a member of a pair; CLEAR_LATCHED clears the latched events. WARM_RESET and RECOVERY_BOOT take the fabric to RESETTING with the entry and counts, and after the 1 ms hold the images are verified in their order. -/
def Obligations.HoldfastOperations : Prop :=
  (∀ path, path ≠ HfPath.auto → Exactly (.hfKey · path 0x48464B59) (fun s => hfReached s path = true)
    (fun s => { s with hf := { s.hf with keys := (s.hf.keys.filter fun k => decide (k.1 ≠ path)) ++ [(path, s.now)] } })) ∧
  (∀ path v, v ≠ 0x48464B59 → Exactly (.hfKey · path v) (fun _ => True) id) ∧
  (∀ path v, Exactly (.hfKey · path v) (fun s => hfReached s path = false) id) ∧
  (∀ path, Exactly (.hfKeyExpired · path) (fun _ => True)
    (fun s => { s with hf := { s.hf with keys := s.hf.keys.filter fun k => decide (k.1 ≠ path) || decide (s.now < k.2 + 1000000) } })) ∧
  (∀ path mask, path ≠ HfPath.auto → Exactly (.safeStop · path mask) (fun s => hfReached s path = true ∧ keyValid s path = false) (opRefused 1 2 path)) ∧
  (∀ path, path ≠ HfPath.auto → Exactly (.forceSelfRefresh · path) (fun s => hfReached s path = true ∧ keyValid s path = false) (opRefused 2 2 path)) ∧
  (∀ path, path ≠ HfPath.auto → Exactly (.warmReset · path) (fun s => hfReached s path = true ∧ keyValid s path = false) (opRefused 4 2 path)) ∧
  (∀ path mask, Exactly (.safeStop · path mask) (fun s => hfReached s path = false) id) ∧
  (∀ path mask, Happens (.safeStop · path mask) (fun s => keyedPath path s ∧ up s ∧ noStations s ∧ axesOff s) (opTaken 1 0 none path) [0x3F5] noPuts) ∧
  (∀ (t : Nat) (s : State) (path : HfPath) (mask a : Nat), s.Inv → keyedPath path (tick t s) → up s → noStations s → a < 4 → mask < 16 →
    (vget s.axes.ax a).state = .idle → (vget s.axes.ax a).vq = 0 → (vget s.axes.ax a).stopping = none → (vget s.axes.ax a).home = none →
    Next (.safeStop t path mask) s fun r =>
      (bitOf mask a = true → (vget r.axes.ax a).state = .safeStopped ∧ (vget r.axes.ax a).standstill = some (standCfg s a).safe ∧
        (vget r.axes.ax a).cause = .safeStop ∧ bitOf r.host.evt.pending (0x3B0 + a) = true) ∧
      (bitOf mask a = false → vget r.axes.ax a = vget s.axes.ax a) ∧ r.bench.mem = s.bench.mem ∧ r.ledger = s.ledger) ∧
  (∀ path, Exactly (.forceSelfRefresh · path)
    (fun s => keyedPath path s ∧ s.hf.srForced = false ∧ (vget s.bench.ctl 0).state = .ready ∧ (vget s.bench.ctl 1).state = .ready ∧
      (vget s.bench.ctl 0).pending = [] ∧ (vget s.bench.ctl 1).pending = [])
    (fun s => opTaken 2 1 (some (.forceSelfRefresh, path)) path
      { s with bench := { s.bench with entering := some s.bench.nextReq, exiting := false, autoEntered := false, forced := true } })) ∧
  (∀ path, Exactly (.forceSelfRefresh · path) (fun s => keyedPath path s ∧ s.hf.srForced = true) (opRefused 2 3 path)) ∧
  (∀ path, Exactly (.releaseSelfRefresh · path) (fun s => keyedPath path s ∧ s.hf.srForced = true)
    (fun s => opTaken 3 1 (some (.releaseSelfRefresh, path)) path { s with bench := { s.bench with exiting := true } })) ∧
  (∀ path, Exactly (.releaseSelfRefresh · path) (fun s => keyedPath path s ∧ s.hf.srForced = false) (opRefused 3 3 path)) ∧
  (∀ (t : Nat) (s : State) (path : HfPath), s.Inv → keyedPath path (tick t s) → stillModule s → s.hf.monitors = [] →
    Next (.warmReset t path) s fun r => ResetBegun false path 2 s r ∧ r.hf.lastOp = 4 ∧ r.hf.opResult = 1 ∧ r.hf.opsTaken = s.hf.opsTaken + 1) ∧
  (∀ (t : Nat) (s : State) (path : HfPath), s.Inv → keyedPath path (tick t s) → stillModule s → s.hf.monitors = [] →
    Next (.recoveryBoot t path) s fun r => ResetBegun true path 4 s r ∧ r.hf.lastOp = 6 ∧ r.hf.opResult = 1 ∧ r.hf.opsTaken = s.hf.opsTaken + 1) ∧
  (∀ path, Exactly (.failoverSignal · path) (fun s => keyedPath path s ∧ s.pair.role = .solo) (opRefused 5 3 path)) ∧
  (∀ (t : Nat) (s : State) (path : HfPath), s.Inv → keyedPath path (tick t s) → up s → s.pair.role = .active → s.pair.signalling = false →
    s.gauge.trigEnabled = false → axesOff s → noStations s → s.pair.switchTicket = none →
    Next (.failoverSignal t path) s fun r =>
      r.pair.signalling = true ∧ r.pair.role = .failed ∧ r.gauge.trigHalted = true ∧ bitOf r.host.evt.pending 0x3F6 = true ∧
      bitOf r.host.evt.pending 0x3E6 = true ∧ (vget r.links.through 0).relaySource = true ∧ (vget r.links.through 1).relaySource = true ∧
      r.hf.lastOp = 5 ∧ r.hf.opResult = 0 ∧ r.bench.mem = s.bench.mem) ∧
  (∀ (t : Nat) (s : State) (path : HfPath), s.Inv → keyedPath path (tick t s) → up s →
    Next (.clearLatched t path) s fun r => r.hf.latched = 0 ∧ r.hf.latchedEvents = [] ∧ bitOf r.host.evt.pending 0x3F5 = true ∧
      OutFrame (opTaken 7 0 none path s) r) ∧
  (∀ u, Exactly (.fabricResetHoldExpired ·)
    (fun s => resetBusy s = true ∧ s.hf.monitorHold = false ∧ s.boot.holdUntil = some u ∧ u ≤ s.now ∧ s.pair.role = .solo ∧ s.boot.recovery = false)
    (fun s => { s with
      boot := { s.boot with
        holdUntil := none, stage := 2, verifying := true, image := s.boot.preferred, tryNext := [otherSlot s.boot.preferred, 0] }
      pair := { s.pair with signalling := false } })) ∧
  (∀ u, Exactly (.fabricResetHoldExpired ·)
    (fun s => resetBusy s = true ∧ s.hf.monitorHold = false ∧ s.boot.holdUntil = some u ∧ u ≤ s.now ∧ s.pair.role = .solo ∧ s.boot.recovery = true)
    (fun s => { s with
      boot := { s.boot with holdUntil := none, stage := 2, verifying := true, image := 0, tryNext := [] }
      pair := { s.pair with signalling := false } })) ∧
  (∀ u, Exactly (.fabricResetHoldExpired ·) (fun s => s.boot.holdUntil = some u ∧ s.now < u) id)

/-- A running fabric found wedged is WEDGED with a fault log entry, and its events are latched; nothing goes to the host. Once it runs again the latched sources reach the event block with EV 0x007, and what was held goes out. A quantity outside its window takes the fabric to RESETTING with the Bench in forced self-refresh; the release of the last one starts a warm reset. The junction warns above 110 C until below 105 C. Over SMBus registers are written and read at a moving offset, a 64-bit low half latching its high half; a bad transaction is discarded and counted, and one held too long has no effect. -/
def Obligations.WedgeMonitorsAndSmbus : Prop :=
  (∀ cause, Exactly (.fabricWedge · cause) (fun s => s.hf.fabric ≠ .running) id) ∧
  (∀ (t : Nat) (s : State) (cause : Nat), s.Inv → up s → 1 ≤ cause → cause ≤ 2 → axesOff s → s.pair.role = .solo → s.glue = none →
    (cfgNow s).time.source = 0 →
    Next (.fabricWedge t cause) s fun r =>
      r.hf.fabric = .wedged ∧ r.hf.wedgeSeen = true ∧ bitOf r.hf.latched 0x3F0 = true ∧ bitOf r.hf.latched 0x008 = true ∧
      (∃ e, r.faults.log.getLast? = some e ∧ e.cls = 4 ∧ e.unit = 0x12 ∧ e.cause = cause ∧ e.persistent = true) ∧
      r.faults.cnt = { s.faults.cnt with wedges := wrap32 (s.faults.cnt.wedges + 1) } ∧ r.faults.fences = s.faults.fences ∧ r.emit = [] ∧
      r.host = s.host ∧ r.ledger = s.ledger ∧ r.bench.mem = s.bench.mem ∧ r.axes = s.axes ∧ r.gauge = s.gauge ∧ r.running = s.running) ∧
  (∀ (t : Nat) (s : State) (src a0 a1 st : Nat), s.Inv → s.hf.fabric = .wedged → s.hf.wedgeSeen = true → s.spans = [] → s.hf.latchedEvents = [(src, a0, a1, st)] →
    src < 1024 → (∀ n : Nat, n < 4 → (vget s.host.rings n).posts = []) →
    Next (.fabricResume t) s fun r =>
      r.hf.fabric = .running ∧ r.hf.wedgeSeen = false ∧ r.hf.latchedEvents = [] ∧ bitOf r.host.evt.pending src = true ∧
      bitOf r.host.evt.pending 0x007 = true ∧ (∀ e ∈ s.heldOut, e ∈ r.emit) ∧ r.heldOut = [] ∧ r.ledger = s.ledger ∧ r.bench.mem = s.bench.mem) ∧
  Exactly (.fabricResume ·) (fun s => s.hf.fabric ≠ .wedged) id ∧
  (∀ v : Int, 10400 ≤ v → v ≤ 13800 → Exactly (.monitorFault · .vmain v) (fun _ => True) (fun s => { s with sense := { s.sense with vmainMv := v.toNat } })) ∧
  (∀ v : Int, v ≤ 125 → Exactly (.monitorFault · .junction v) (fun _ => True) (fun s => { s with sense := { s.sense with tj := v } })) ∧
  (∀ v : Int, Exactly (.monitorFault · .vfab v) (fun s => (v - (s.pace.vfabMv : Int)).natAbs ≤ 50) id) ∧
  (∀ (t : Nat) (s : State) (v : Int), s.Inv → 125 < v → s.boot.vmainUp = true → s.hf.monitors = [] → s.hf.busy = none → stillModule s →
    Next (.monitorFault t .junction v) s fun r =>
      r.hf.fabric = .resetting ∧ r.hf.monitorHold = true ∧ r.hf.monitors = [.junction] ∧ r.gauge = { s.gauge with trigHalted := true } ∧
      r.bench = { s.bench with entering := some s.bench.nextReq, exiting := false, autoEntered := false, forced := true } ∧
      bitOf r.hf.latched 0x3F4 = true ∧ r.faults.cnt = { s.faults.cnt with thermalFaults := wrap32 (s.faults.cnt.thermalFaults + 1) } ∧
      (∃ e, r.faults.log.getLast? = some e ∧ e.cls = 6 ∧ e.unit = 0x13 ∧ e.cause = 3 ∧ e.detail = leI 4 v) ∧ r.sense.tj = v ∧ r.ledger = s.ledger) ∧
  (∀ (t : Nat) (s : State) (v : Int), s.Inv → (v < 10400 ∨ 13800 < v) → s.boot.vmainUp = true → s.hf.monitors = [] → s.hf.busy = none → stillModule s →
    Next (.monitorFault t .vmain v) s fun r =>
      r.hf.fabric = .resetting ∧ r.hf.monitorHold = true ∧ r.hf.monitors = [.vmain] ∧ bitOf r.hf.latched 0x3F2 = true ∧
      r.faults.cnt = { s.faults.cnt with powerFaults := wrap32 (s.faults.cnt.powerFaults + 1) } ∧ r.ledger = s.ledger) ∧
  (∀ v : Int, 100 ≤ v → Exactly (.monitorFaultRelease · .junction v) (fun _ => True) (fun s => { s with sense := { s.sense with tj := v } })) ∧
  (∀ v : Int, v < 10800 ∨ 13200 < v → Exactly (.monitorFaultRelease · .vmain v) (fun _ => True)
    (fun s => { s with sense := { s.sense with vmainMv := v.toNat } })) ∧
  (∀ (t : Nat) (s : State) (v : Int), s.Inv → v < 100 → s.boot.vmainUp = true → s.hf.monitors = [.junction] → s.hf.busy = none → stillModule s →
    Next (.monitorFaultRelease t .junction v) s fun r => ResetBegun false .auto 3 s r ∧ r.hf.monitors = [] ∧ r.hf.monitorHold = false ∧ r.sense.tj = v) ∧
  (∀ temp : Int, 110 < temp → Happens (.junctionWarning · temp) (fun s => up s ∧ s.sense.junctionHot = false)
    (fun s => { s with sense := { s.sense with tj := temp, junctionHot := true } }) [0x006] noPuts) ∧
  (∀ temp : Int, temp < 105 → Happens (.junctionWarning · temp) (fun s => up s ∧ s.sense.junctionHot = true)
    (fun s => { s with sense := { s.sense with tj := temp, junctionHot := false } }) [0x006] noPuts) ∧
  (∀ temp : Int, 105 ≤ temp → temp ≤ 110 → Exactly (.junctionWarning · temp) (fun _ => True) (fun s => { s with sense := { s.sense with tj := temp } })) ∧
  (∀ v, v < 2 ^ 32 → Exactly (.smbusWriteRegister · 0x0020 v true) (fun s => s.boot.vauxUp = true)
    (fun s => { s with hf := { s.hf with highSmb := none, logIndex := v } })) ∧
  Exactly (.smbusWriteRegister · 0x0008 0x48464B59 true) (fun s => s.boot.vauxUp = true)
    (fun s => { s with hf := { s.hf with highSmb := none, keys := (s.hf.keys.filter fun k => decide (k.1 ≠ .smbus)) ++ [(.smbus, s.now)] } }) ∧
  (∀ off, off % 4 = 0 → off < 65536 → Exactly (.smbusSetOffset · off true) (fun s => s.boot.vauxUp = true)
    (fun s => { s with hf := { s.hf with smbOffset := off } })) ∧
  (∀ off v, Happens (.smbusWriteRegister · off v false) (fun s => s.boot.vauxUp = true ∧ up s ∧ firstIn 0x3FA (currentStrip s) s)
    (fun s => { s with faults := { s.faults with cnt := { s.faults.cnt with smbusErrors := wrap32 (s.faults.cnt.smbusErrors + 1) } } }) [0x3FA] noPuts) ∧
  (∀ off, off % 4 ≠ 0 → Happens (.smbusSetOffset · off true) (fun s => s.boot.vauxUp = true ∧ up s ∧ firstIn 0x3FA (currentStrip s) s)
    (fun s => { s with faults := { s.faults with cnt := { s.faults.cnt with smbusErrors := wrap32 (s.faults.cnt.smbusErrors + 1) } } }) [0x3FA] noPuts) ∧
  (∀ o, o ≠ 0x0200 → o ≠ 0x0208 → o ≠ 0x0014 → Exactly (.smbusRead · true) (fun s => s.boot.vauxUp = true ∧ s.hf.smbOffset = o ∧ s.hf.highSmb = none)
    (fun s => { out (.smbusData (le 4 (bar2Word s o))) s with hf := { s.hf with smbOffset := (o + 4) % 65536 } })) ∧
  Exactly (.smbusRead · true) (fun s => s.boot.vauxUp = true ∧ s.hf.smbOffset = 0x0200 ∧ s.hf.highSmb = none)
    (fun s => { out (.smbusData (le 4 (lo32 (toUnsigned 64 s.gauge.webPos)))) s with hf := { s.hf with
        smbOffset := 0x0204, highSmb := some (0x0204, hi32 (toUnsigned 64 s.gauge.webPos)) } }) ∧
  (∀ v, Exactly (.smbusRead · true) (fun s => s.boot.vauxUp = true ∧ s.hf.smbOffset = 0x0204 ∧ s.hf.highSmb = some (0x0204, v))
    (fun s => { out (.smbusData (le 4 v)) s with hf := { s.hf with smbOffset := 0x0208, highSmb := none } })) ∧
  Exactly (.smbusRead · true) (fun s => s.boot.vauxUp = false) id ∧
  Exactly (.smbusAlertResponse ·) (fun s => s.boot.vauxUp = true ∧ s.hf.alert = true)
    (fun s => { out (.smbusData [BitVec.ofNat 8 (2 * (0x58 + s.hf.addr))]) s with hf := { s.hf with alert := false } }) ∧
  Exactly (.smbusAlertResponse ·) (fun s => s.boot.vauxUp = false ∨ s.hf.alert = false) id ∧
  Exactly (.smbusClockLowTimeout ·) (fun _ => True) id

/-- With both supplies in range start-up begins and the preferred image is verified; one that fails is logged and reported and the next is tried, and without any the module stops at that stage. The calibration sets the pace's scale and VFAB; training readies both stacks and the fabric runs, or fences the Bench. After the ring step, with no gateway, the module is ready and the minimum security version rises. The loss of VAUX leaves what flash and fuses hold, that of VMAIN what the Holdfast domain holds; the Bench's contents are lost. A cage's module of too high a power class is not enabled. Events out of their stage change nothing. -/
def Obligations.BootSuppliesAndCages : Prop :=
  (∀ addr mv, Exactly (.vauxInRange · addr mv) (fun s => s.boot.vauxUp = true ∧ s.boot.vauxLost = false)
    (fun s => { s with sense := { s.sense with vauxMv := mv } })) ∧
  (∀ addr mv, addr < 4 → Exactly (.vauxInRange · addr mv) (fun s => s.boot.vauxLost = true ∧ s.boot.vmainUp = false)
    (fun s => { s with
      sense := { s.sense with vauxMv := mv }
      boot := { s.boot with vauxUp := true, vauxLost := false, vmainLost := false, powerOnAt := s.now }
      hf := { s.hf with addr := addr, alert := true } })) ∧
  (∀ (t : Nat) (s : State), s.Inv →
    Next (.vauxLoss t) s fun r =>
      r.boot.vauxUp = false ∧ r.boot.vauxLost = true ∧ r.hf = State.reset.hf ∧ r.bench.mem = [] ∧ r.faults.log = [] ∧ r.faults.flash = s.faults.flash ∧
      r.faults.cnt = {} ∧ r.ledger = {} ∧ r.running = {} ∧ r.staged = {} ∧ r.cmds = [] ∧ r.spans = [] ∧ r.time = State.reset.time ∧
      r.boot.slotA = s.boot.slotA ∧ r.boot.slotB = s.boot.slotB ∧ r.boot.preferred = s.boot.preferred ∧ r.boot.minSecurity = s.boot.minSecurity ∧
      r.boot.revoked = s.boot.revoked ∧ (vget r.axes.ax 0).inputs = (vget s.axes.ax 0).inputs ∧ (vget r.axes.ax 0).homed = false) ∧
  (∀ mv, Exactly (.vmainInRange · mv) (fun s => s.boot.vmainUp = true ∧ s.boot.vmainLost = false) (fun s => { s with sense := { s.sense with vmainMv := mv } })) ∧
  (∀ mv, Exactly (.vmainInRange · mv) (fun s => s.boot.vauxUp = false)
    (fun s => { s with sense := { s.sense with vmainMv := mv }, boot := { s.boot with vmainUp := true, vmainLost := false } })) ∧
  (∀ mv, Exactly (.vmainInRange · mv)
    (fun s => s.boot.vauxUp = true ∧ s.boot.vmainUp = false ∧ s.hf.monitors = [] ∧ s.pair.role = .solo)
    (fun s => { s with
      sense := { s.sense with vmainMv := mv }
      hf := { s.hf with fabric := .booting, monitorHold := false, monitors := [], srForced := false, alert := true }
      pair := { s.pair with signalling := false }
      boot := { s.boot with
        vmainUp := true, vmainLost := false, refTime := s.now, cause := if s.boot.vmainLost then 1 else 0, readyMs := 0, restored := false
        recovery := false, warm := false, ready := false, holdUntil := none, stage := 2, verifying := true
        image := s.boot.preferred, tryNext := [otherSlot s.boot.preferred, 0] } })) ∧
  Exactly (.vmainLoss ·) (fun s => s.boot.vmainUp = false) id ∧
  (∀ (t : Nat) (s : State), s.Inv → s.boot.vmainUp = true → s.boot.vauxUp = true → s.gauge.trigEnabled = false → axesOff s → s.pair.role = .solo →
    Next (.vmainLoss t) s fun r =>
      r.hf.fabric = .booting ∧ r.hf.busy = none ∧ r.hf.alert = true ∧ r.boot.vmainUp = false ∧ r.boot.vmainLost = true ∧ r.boot.stage = 0 ∧
      r.boot.ready = false ∧ r.running = {} ∧ r.staged = {} ∧ r.glue = none ∧ r.bench.mem = [] ∧ r.pace = {} ∧ r.cmds = [] ∧
      r.boot.slotA = s.boot.slotA ∧ r.boot.slotB = s.boot.slotB ∧ r.ring.gateway = false) ∧
  (∀ i, Exactly (.imageVerifyDone · i) (fun s => s.boot.verifying = false ∨ s.hf.monitorHold = true) id) ∧
  (∀ i : ImageInfo, i.signed = true → i.digest = true → Exactly (.imageVerifyDone · i)
    (fun s => s.boot.verifying = true ∧ s.hf.monitorHold = false ∧ (imageOf s.boot s.boot.image).valid = true ∧
      imageFault s.boot (imageOf s.boot s.boot.image) = 0)
    (fun s => { s with boot := { s.boot with verifying := false, stage := 4, tryNext := [] } })) ∧
  (∀ (t : Nat) (s : State) (i : ImageInfo) (n : Nat) (rest : List Nat), s.Inv → s.hf.fabric = .booting → s.boot.verifying = true → s.hf.monitorHold = false →
    i.signed = false → s.boot.tryNext = n :: rest →
    Next (.imageVerifyDone t i) s fun r =>
      r.boot = { s.boot with image := n, tryNext := rest } ∧ bitOf r.hf.latched 0x3F8 = true ∧
      (∃ e, r.faults.log.getLast? = some e ∧ e.cls = 8 ∧ e.unit = 0x14 ∧ e.cause = 1 ∧ e.persistent = true) ∧ r.faults.cnt = s.faults.cnt) ∧
  (∀ (t : Nat) (s : State) (i : ImageInfo), s.Inv → s.hf.fabric = .booting → s.boot.verifying = true → s.hf.monitorHold = false → i.signed = false →
    s.boot.tryNext = [] → Next (.imageVerifyDone t i) s fun r => r.boot = { s.boot with verifying := false, stage := 9 } ∧ bitOf r.hf.latched 0x3F8 = true) ∧
  (∀ figures, Exactly (.paceCalibrationDone · figures) (fun s => s.boot.stage ≠ 4) id) ∧
  (∀ figures, Exactly (.paceCalibrationDone · figures) (fun s => s.boot.stage = 4 ∧ s.hf.monitorHold = false)
    (fun s => { s with
      boot := { s.boot with stage := 5 }
      pace := { s.pace with
        scale := (paceScale figures s.sense.tj).1, clamped := (paceScale figures s.sense.tj).2
        vfabMv := (vfabFor (paceScale figures s.sense.tj).1 s.sense.tj 300).getD 950 } })) ∧
  (∀ a b : TrainResult, Exactly (.benchTrainingDone · a b) (fun s => s.boot.stage ≠ 5) id) ∧
  (∀ a b : TrainResult, trainingFails a = false → trainingFails b = false → Happens (.benchTrainingDone · a b)
    (fun s => s.boot.stage = 5 ∧ s.hf.monitorHold = false ∧ s.boot.warm = false ∧ s.boot.cause = 0 ∧ (vget s.bench.ctl 0).state = .training ∧
      (vget s.bench.ctl 1).state = .training ∧ s.hf.wedgeSeen = false ∧ s.hf.latchedEvents = [] ∧ s.heldOut = [] ∧
      ∀ n : Nat, n < 4 → (vget s.host.rings n).posts = [])
    (fun s => { s with
      hf := { s.hf with fabric := .running }
      boot := { s.boot with stage := 7, readyMs := (s.now - s.boot.refTime) / 1000000 }
      bench := { s.bench with ctl := s.bench.ctl.map fun c => { c with state := .ready } }
      ring := { s.ring with ports := .replicate 3 { since := s.now } } }) [] noPuts) ∧
  (∀ (t : Nat) (s : State) (a b : TrainResult), s.Inv → s.hf.fabric = .booting → trainingFails a = true → s.boot.stage = 5 → s.hf.monitorHold = false →
    s.boot.warm = false → s.boot.cause = 0 → (vget s.bench.ctl 0).state = .training → (vget s.bench.ctl 1).state = .training → s.hf.latchedEvents = [] →
    s.hf.latched = 0 → (∀ n : Nat, n < 4 → (vget s.host.rings n).posts = []) →
    Next (.benchTrainingDone t a b) s fun r =>
      (vget r.bench.ctl 0).state = .fenced ∧ (vget r.bench.ctl 1).state = .fenced ∧ (fenceOf r 0x09 0).isSome = true ∧ (fenceOf r 0x09 1).isSome = true ∧
      r.hf.fabric = .running ∧ r.boot.stage = 7 ∧ bitOf r.host.evt.pending 0x34C = true ∧ bitOf r.host.evt.pending 0x003 = true) ∧
  Exactly (.startupRingWaitExpired ·) (fun s => s.boot.stage ≠ 7) id ∧
  Exactly (.startupRingWaitExpired ·) (fun s => up s ∧ s.boot.stage = 7 ∧ (∀ p : Nat, p < 3 → portWaits s p = false) ∧ ringHasGateway s = false)
    (fun s => { s with boot := { s.boot with
      stage := 8, ready := true, readyMs := (s.now - s.boot.refTime) / 1000000
      minSecurity := max s.boot.minSecurity (imageOf s.boot s.boot.image).security } }) ∧
  Exactly (.startupRingWaitExpired ·) (fun s => up s ∧ s.boot.stage = 7 ∧ (∀ p : Nat, p < 3 → portWaits s p = false) ∧ ringHasGateway s = true)
    (fun s => { s with boot := { s.boot with stage := 8 } }) ∧
  (∀ c i k, c < 3 → 1 ≤ k → k ≤ 4 → Exactly (.cageModuleInserted · c i k) (fun _ => True)
    (fun s => { s with cages := vset s.cages c { present := true, identifier := i, powerClass := k, enabled := true } })) ∧
  (∀ c i k, c < 3 → 4 < k → Exactly (.cageModuleInserted · c i k) (fun s => (vget s.ring.ports c).state = .down)
    (fun s => { s with cages := vset s.cages c { present := true, identifier := i, powerClass := k, enabled := false } })) ∧
  (∀ c i k, 5 ≤ c → Exactly (.cageModuleInserted · c i k) (fun _ => True) id)

/-- Each pace figure is kept with the lowest; below the required pace and 4 % while triggering runs, VFAB rises by 5 mV with the event, or at 0.95 V the event says so. A self-test ends ST_OK with its result; a test that passes at its second attempt is counted and reported. INJECT_FAULT arms a fault, two attempts only without triggering, and it lapses after 1 s. A mark whose SETTLE has passed puts its entry into the station's compare unit and is armed; after DWELL the move to the next mark starts. Before its time nothing happens. -/
def Obligations.PaceSelftestsAndMarks : Prop :=
  (∀ f, f < 65536 → Exactly (.paceUpdate · f) (fun s => up s ∧ (s.gauge.trigEnabled = false ∨ s.pace.required * 104 / 100 ≤ (f : Rat)))
    (fun s => { s with pace := { s.pace with
      figure := f, lowest := some (match s.pace.lowest with | some l => min l f | none => f) } })) ∧
  (∀ f, f < 65536 → Happens (.paceUpdate · f) (fun s => up s ∧ s.gauge.trigEnabled = true ∧ (f : Rat) < s.pace.required * 104 / 100 ∧ s.pace.vfabMv < 950)
    (fun s => { s with pace := { s.pace with
      figure := f, lowest := some (match s.pace.lowest with | some l => min l f | none => f)
      vfabMv := s.pace.vfabMv + 5, events := wrap32 (s.pace.events + 1), steps := wrap32 (s.pace.steps + 1) } }) [0x000] noPuts) ∧
  (∀ f, f < 65536 → Happens (.paceUpdate · f) (fun s => up s ∧ s.gauge.trigEnabled = true ∧ (f : Rat) < s.pace.required * 104 / 100 ∧ 950 ≤ s.pace.vfabMv)
    (fun s => { s with pace := { s.pace with
      figure := f, lowest := some (match s.pace.lowest with | some l => min l f | none => f)
      events := wrap32 (s.pace.events + 1), lowEvents := wrap32 (s.pace.lowEvents + 1) } }) [0x000] noPuts) ∧
  (∀ w, ∀ run : SelftestRun, run.ticket = w → Concludes (.selftestDone · []) (fun s => up s ∧ s.faults.selftest = some run)
    (fun _ => w) (fun _ => stOk) (fun s => { s with faults := { s.faults with selftest := none } }) [] noPuts) ∧
  (∀ w u i, ∀ run : SelftestRun, run.ticket = w → run.tests = 1 → Concludes (.selftestDone · [{ bit := 0, fails := 1, unit := u, index := i }])
    (fun s => up s ∧ s.faults.selftest = some run ∧ firstIn 0x004 (currentStrip s) s)
    (fun _ => w) (fun _ => stOk)
    (fun s => { s with faults := { s.faults with selftest := none, cnt := { s.faults.cnt with selftest := s.faults.cnt.selftest + 1 } } }) [0x004] noPuts) ∧
  (∀ rs, Exactly (.selftestDone · rs) (fun s => s.faults.selftest = none) id) ∧
  Acts .injectFault specInjectFault (fun c s => badInject c.params = none ∧ (u8 c.params 0 = 6 ∨ u8 c.params 1 ≠ 2 ∨ s.gauge.trigEnabled = false)) (fun _ _ => [])
    (fun t c s => { s with faults := { s.faults with injections := s.faults.injections ++
      [{ kind := u8 c.params 0, count := u8 c.params 1, index := u8 c.params 2, armedAt := max s.now t }] } }) ∧
  Refuses .injectFault specInjectFault (fun c s => badInject c.params = none ∧ u8 c.params 0 ≠ 6 ∧ u8 c.params 1 = 2 ∧ s.gauge.trigEnabled = true)
    stWrongState (fun _ _ => zeros 8) ∧
  Refuses .injectFault specInjectFault (fun c _ => u8 c.params 0 = 0 ∨ 6 < u8 c.params 0) stBadParam (fun _ _ => paramBody 0) ∧
  Exactly (.injectionLapse ·) (fun _ => True)
    (fun s => { s with faults := { s.faults with injections := s.faults.injections.filter fun i => decide (s.now < i.armedAt + 1000000000) } }) ∧
  (∀ k m, ∀ rest : List Mark, k < 4 → m.state = .settling → Exactly (.markSettleExpired · k)
    (fun s => up s ∧ (vget s.scribe.stations k).pending = m :: rest ∧ (vget s.scribe.stations k).due ≤ s.now ∧
      (∀ p ∈ rest, p.ticket ≠ m.ticket) ∧ (vget (cfgNow s).cmp (stationCfg s k).compare).enable = true ∧
      (vget s.gauge.cmp (stationCfg s k).compare).active.length + (vget s.gauge.cmp (stationCfg s k).compare).inserting.length < cmpCap)
    (fun s =>
      let c := stationCfg s k
      setCmp c.compare (fun x => { x with inserting := x.inserting ++ [{
          entry := { pos := m.fire, tag := m.ticket, pulse := c.pulse, event := true, axisStart := c.strokeAxis.isSome, axis := c.strokeAxis.getD 0 }
          due := s.now + 2000, ticket := none }] })
        (setStation k (fun x => { x with pending := { m with state := .armed } :: rest }) s))) ∧
  (∀ k m, ∀ rest : List Mark, k < 4 → Exactly (.markSettleExpired · k)
    (fun s => (vget s.scribe.stations k).pending = m :: rest ∧ (m.state ≠ .settling ∨ s.now < (vget s.scribe.stations k).due)) id) ∧
  (∀ k m a, ∀ rest : List Mark, k < 4 → a < 4 → m.state = .waiting → Happens (.markDwellExpired · k)
    (fun s => up s ∧ (vget s.scribe.stations k).dwelling = true ∧ (vget s.scribe.stations k).due ≤ s.now ∧
      (vget s.scribe.stations k).pending = m :: rest ∧ (∀ p ∈ rest, p.ticket ≠ m.ticket) ∧ (stationCfg s k).posAxis = a ∧
      (vget s.axes.ax a).state = .idle ∧ (vget s.axes.ax a).vq = 0 ∧ (vget s.axes.ax a).standstill = some .hold ∧ (axisCfg s a).jerk = 0 ∧
      (vget s.axes.ax a).softBrake = false ∧
      towardLimit (axisCfg s a) (vget s.axes.ax a) (m.tgt - axisPos (vget s.axes.ax a)) = false)
    (fun s => setAxis a (fun x => { x with
        state := .moving, target := m.tgt, notify := false, scribe := true, due := none, restAt := none, standstill := none, lastUpdate := s.now
        irunUntil := none, cnt := { x.cnt with moves := wrap32 (x.cnt.moves + 1) } })
      (setStation k (fun x => { x with dwelling := false, pending := { m with state := .moving } :: rest }) s)) [] noPuts) ∧
  (∀ k, k < 4 → Exactly (.markDwellExpired · k)
    (fun s => (vget s.scribe.stations k).dwelling = false ∨ s.now < (vget s.scribe.stations k).due) id)

/-- With SOURCE 0, TIME_SET steps the clock, FRAC then 0, answering the clock before, and not while triggering; TIME_ADJUST sets ADDEND within 2 ns ± 500 ppm, or adds to the slew, up to 1 s; the end of a slew leaves none. A source silent for its time makes the clock hold, with no slew and LOCKED clear. A time message of the ring master gives the offset: within STEP_NS it steers ADDEND within MAX_SLEW_PPM of nominal and counts towards LOCKED; beyond, it steps the clock, or slews while triggering. Messages of others change nothing, and of this module itself raise NO_MASTER. The last 16 delays of a link are kept. The master's time goes out on both ports. -/
def Obligations.ClockAndRingTime : Prop :=
  (∀ (t : Nat) (c : HostCmd) (s : State), Ready specTimeSet c s → u32 c.params 8 < 1000000000 → (cfgNow s).time.source = 0 → s.gauge.trigEnabled = false →
    Next (.timeSet t c) s fun r =>
      Completes 0x0E01 (clockBody (tick t s).time.clock) c s r ∧
      ReplyFrame { s with time := { s.time with steps := wrap32 (s.time.steps + 1) } } r ∧
      r.time.clock = { (tick t s).time.clock with seconds := u64 c.params 0 % 2 ^ 48, ns := u32 c.params 8, frac := 0 } ∧
      bitOf r.host.evt.pending 0x3D0 = true) ∧
  Refuses .timeSet specTimeSet (fun c _ => 1000000000 ≤ u32 c.params 8) stBadParam (fun _ _ => paramBody 8) ∧
  Refuses .timeSet specTimeSet (fun c s => u32 c.params 8 < 1000000000 ∧ ((cfgNow s).time.source ≠ 0 ∨ s.gauge.trigEnabled = true)) stWrongState (fun _ _ => zeros 8) ∧
  (∀ (t : Nat) (c : HostCmd) (s : State), Ready specTimeAdjust c s → (cfgNow s).time.source = 0 → bitOf (u8 c.params 0) 0 = true →
    bitOf (u8 c.params 0) 1 = false → 8585639625 ≤ u64 c.params 8 % 2 ^ 34 → u64 c.params 8 % 2 ^ 34 ≤ 8594229559 →
    Next (.timeAdjust t c) s fun r =>
      Completes 0x0E02 (leI 8 (slewLeft (tick t s).time.clock)) c s r ∧ ReplyFrame s r ∧
      r.time.clock = { (tick t s).time.clock with addend := u64 c.params 8 % 2 ^ 34 }) ∧
  (∀ (t : Nat) (c : HostCmd) (s : State), Ready specTimeAdjust c s → (cfgNow s).time.source = 0 → bitOf (u8 c.params 0) 0 = false →
    bitOf (u8 c.params 0) 1 = true → (s64 c.params 16).natAbs ≤ 1000000000 →
    Next (.timeAdjust t c) s fun r =>
      Completes 0x0E02 (leI 8 (slewLeft r.time.clock)) c s r ∧ ReplyFrame s r ∧
      r.time.clock = { (tick t s).time.clock with
        slew := (tick t s).time.clock.slew + s64 c.params 16 * 4294967296, slewPpm := (cfgNow s).time.maxSlew }) ∧
  Refuses .timeAdjust specTimeAdjust (fun c _ => bitOf (u8 c.params 0) 0 = true ∧
    (u64 c.params 8 % 2 ^ 34 < 8585639625 ∨ 8594229559 < u64 c.params 8 % 2 ^ 34)) stBadParam (fun _ _ => paramBody 8) ∧
  Refuses .timeAdjust specTimeAdjust (fun c _ => bitOf (u8 c.params 0) 0 = false ∧ bitOf (u8 c.params 0) 1 = true ∧
    1000000000 < (s64 c.params 16).natAbs) stBadParam (fun _ _ => paramBody 16) ∧
  Refuses .timeAdjust specTimeAdjust (fun c s => bitOf (u8 c.params 0) 0 = false ∧ bitOf (u8 c.params 0) 1 = false ∧ (cfgNow s).time.source ≠ 0)
    stWrongState (fun _ _ => zeros 8) ∧
  Exactly (.slewDone ·) (fun s => s.time.clock.slew.natAbs ≤ ((slewAddend s.time.clock : Int) - s.time.clock.addend).natAbs)
    (fun s => { s with time := { s.time with clock := { setClock s.time.clock (clockUnits s.time.clock + s.time.clock.slew) with slew := 0 } } }) ∧
  Exactly (.slewDone ·) (fun s => ((slewAddend s.time.clock : Int) - s.time.clock.addend).natAbs < s.time.clock.slew.natAbs) id ∧
  (∀ (t : Nat) (s : State), s.Inv → up s → s.time.holdover = false → sourceSilent (tick t s) = true →
    Next (.timeSourceLost t) s fun r =>
      OutFrame { s with time := { s.time with holdover := true, locked := false, lockCount := 0 } } r ∧
      r.time.clock = { (tick t s).time.clock with slew := 0 } ∧
      bitOf r.host.evt.pending 0x3D5 = true ∧ (s.time.locked = true → bitOf r.host.evt.pending 0x3D3 = true)) ∧
  Exactly (.timeSourceLost ·) (fun s => s.time.holdover = true ∨ sourceSilent s = false) id ∧
  (∀ port ns, port < 2 → Exactly (.linkDelayEcho · port ns) up
    (fun s => { s with time := { s.time with linkDelays := vset s.time.linkDelays port ((ns :: vget s.time.linkDelays port).take 16) } })) ∧
  (∀ port ns, 2 ≤ port → Exactly (.linkDelayEcho · port ns) (fun _ => True) id) ∧
  (∀ port hops payload, Exactly (.ringTimeMessage · port hops payload)
    (fun s => (cfgNow s).time.source ≠ 2 ∨ (cfgNow s).time.ringMaster ≠ u8 payload 24 ∨ 2 ≤ port) id) ∧
  (∀ port hops payload, port < 2 → Happens (.ringTimeMessage · port hops payload)
    (fun s => up s ∧ followsRing payload s ∧ s.ring.enumerated = true ∧ s.ring.moduleId = u8 payload 24) id [0x3D5] noPuts) ∧
  (∀ (t : Nat) (s : State) (port hops : Nat) (payload : Bytes), s.Inv → up s → port < 2 → followsRing payload s → s.ring.enumerated = false →
    s.time.ringMsgAt = none → (ringOffset port payload (tick t s)).natAbs ≤ (cfgNow s).time.lockNs → (cfgNow s).time.lockNs < (cfgNow s).time.stepNs →
    s.time.lockCount < 15 → (cfgNow s).time.maxSlew ≤ 500 →
    Next (.ringTimeMessage t port hops payload) s fun r =>
      OutFrame { s with
        free := s.free + 1
        time := { s.time with
          offset := ringOffset port payload (tick t s), pathDelay := (ringPath port payload s).toNat, holdover := false, stepBlocked := false
          ringMsgAt := some (max s.now t), ringHops := some hops, hops := hops, lockCount := s.time.lockCount + 1 } } r ∧
      Steered (tick t s).time.clock (cfgNow s).time.maxSlew r.time.clock) ∧
  (∀ (t : Nat) (s : State) (port hops : Nat) (payload : Bytes), s.Inv → up s → port < 2 → followsRing payload s → s.ring.enumerated = false →
    s.time.ringMsgAt = none → s.gauge.trigEnabled = false → (cfgNow s).time.lockNs ≤ (cfgNow s).time.stepNs →
    (cfgNow s).time.stepNs < (ringOffset port payload (tick t s)).natAbs → s.time.locked = false →
    Next (.ringTimeMessage t port hops payload) s fun r =>
      OutFrame { s with
        time := { s.time with
          offset := ringOffset port payload (tick t s), pathDelay := (ringPath port payload s).toNat, holdover := false
          ringMsgAt := some (max s.now t), ringHops := some hops, hops := hops, lockCount := 0, steps := wrap32 (s.time.steps + 1) } } r ∧
      r.time.clock = { (tick t s).time.clock with
        seconds := ((clockNs (tick t s).time.clock : Int) - ringOffset port payload (tick t s)).toNat / 1000000000 % 281474976710656
        ns := ((clockNs (tick t s).time.clock : Int) - ringOffset port payload (tick t s)).toNat % 1000000000, frac := 0, slew := 0 } ∧
      bitOf r.host.evt.pending 0x3D0 = true) ∧
  (∀ (t : Nat) (s : State) (port hops : Nat) (payload : Bytes), s.Inv → up s → port < 2 → followsRing payload s → s.ring.enumerated = false →
    s.time.ringMsgAt = none → s.gauge.trigEnabled = true → (cfgNow s).time.lockNs ≤ (cfgNow s).time.stepNs →
    (cfgNow s).time.stepNs < (ringOffset port payload (tick t s)).natAbs → s.time.locked = false →
    Next (.ringTimeMessage t port hops payload) s fun r =>
      OutFrame { s with
        time := { s.time with
          offset := ringOffset port payload (tick t s), pathDelay := (ringPath port payload s).toNat, holdover := false, stepBlocked := true
          ringMsgAt := some (max s.now t), ringHops := some hops, hops := hops, lockCount := 0 } } r ∧
      r.time.clock = { (tick t s).time.clock with
        slew := -ringOffset port payload (tick t s) * 4294967296, slewPpm := (cfgNow s).time.maxSlew } ∧
      (s.time.stepBlocked = false → bitOf r.host.evt.pending 0x3D4 = true)) ∧
  Exactly (.ringTimeSend ·) (fun s => (cfgNow s).time.source = 2 ∨ s.ring.enumerated = false) id ∧
  Happens (.ringTimeSend ·)
    (fun s => up s ∧ (cfgNow s).time.source ≠ 2 ∧ s.ring.enumerated = true ∧ s.faults.injections = [] ∧ sends 0 s ∧ sends 1 s)
    (fun s => sent 1 (masterTime s) (sent 0 (masterTime s) s)) []
    (fun s => [.ringPacket 0 { masterTime s with seq := (vget s.ring.ports 0).nextSeq }, .ringPacket 1 { masterTime s with seq := (vget s.ring.ports 1).nextSeq }])

/-- A message on a port that runs no PTP counts in RX_OTHER, one outside the profile is discarded and counted. A Sync gives the offset to a slave port with SOURCE 1 and only notes its times otherwise; two-step Syncs wait for their Follow_Up; the offset steers the clock and the sixteenth within LOCK_NS sets LOCKED, or slews it while triggering. The better of the Announce and the local clock decides the state. Delay requests are answered by a master, peer requests by any port; times carry the port's corrections. An interval sends what the state asks for. Timeouts, link up and link down change the state with its event. ARP for the port's own address is answered, other frames are counted. The state decision is the model's reading (log 68). -/
def Obligations.PtpAndEthernet : Prop :=
  (∀ port m, Exactly (.ptpMessage · port m) (fun s => 2 ≤ port ∨ (vget s.time.ports port).linkUp = false) id) ∧
  (∀ port m, port < 2 → Exactly (.ptpMessage · port m) (fun s => up s ∧ (vget s.time.ports port).linkUp = true ∧ ptpRuns s port = false)
    (fun s => { s with time := { s.time with rxOther := wrap32 (s.time.rxOther + 1) } })) ∧
  (∀ port m, port < 2 → Exactly (.ptpMessage · port m) (fun s => up s ∧ runs port s ∧ ptpForeign s port m = true)
    (fun s => { s with time := { s.time with discards := wrap32 (s.time.discards + 1) } })) ∧
  (∀ port m, port < 2 → m.kind = .sync → m.twoStep = true → Exactly (.ptpMessage · port m) (fun s => up s ∧ runs port s ∧ ptpForeign s port m = false)
    (fun s => setEth port (fun x => { x with syncWait := some (m.seq, m.received + (ptpCfg s port).ingress, m.correction) }) s)) ∧
  (∀ port m, port < 2 → m.kind = .sync → m.twoStep = false → Exactly (.ptpMessage · port m)
    (fun s => up s ∧ runs port s ∧ ptpForeign s port m = false ∧ (cfgNow s).time.source ≠ 1)
    (fun s => setEth port (fun x => { x with
      lastSync := some (m.origin + m.correction, m.received + (ptpCfg s port).ingress), lastSyncAt := s.now }) s)) ∧
  (∀ port m at_ c, port < 2 → m.kind = .followUp → Exactly (.ptpMessage · port m)
    (fun s => up s ∧ runs port s ∧ ptpForeign s port m = false ∧ (cfgNow s).time.source ≠ 1 ∧ (vget s.time.ports port).syncWait = some (m.seq, at_, c))
    (fun s => setEth port (fun x => { x with syncWait := none, lastSync := some (m.origin + m.correction + c, at_), lastSyncAt := s.now }) s)) ∧
  (∀ (t : Nat) (s : State) (port : Nat) (m : PtpMsg), s.Inv → up s → port < 2 → runs port s → ptpForeign s port m = false → m.kind = .sync →
    m.twoStep = false → (cfgNow s).time.source = 1 → (vget s.time.ports port).state = .slave → keepsGm port s →
    (syncOffset port m s).natAbs ≤ (cfgNow s).time.lockNs → (cfgNow s).time.lockNs < (cfgNow s).time.stepNs → s.time.lockCount = 15 → s.time.locked = false →
    (cfgNow s).time.maxSlew ≤ 500 →
    Next (.ptpMessage t port m) s fun r =>
      OutFrame (setEth port (fun x => { x with
          lastSync := some (m.origin + m.correction, m.received + (ptpCfg s port).ingress), lastSyncAt := max s.now t })
        { s with
          free := s.free + 1
          time := { s.time with
            offset := syncOffset port m s, pathDelay := (vget s.time.ports port).pathDelay, holdover := false, stepBlocked := false, lockCount := 16
            locked := true } }) r ∧
      Steered (tick t s).time.clock (cfgNow s).time.maxSlew r.time.clock ∧ bitOf r.host.evt.pending 0x3D3 = true) ∧
  (∀ (t : Nat) (s : State) (port : Nat) (m : PtpMsg), s.Inv → up s → port < 2 → runs port s → ptpForeign s port m = false → m.kind = .sync →
    m.twoStep = false → (cfgNow s).time.source = 1 → (vget s.time.ports port).state = .slave → keepsGm port s → s.gauge.trigEnabled = true →
    (cfgNow s).time.lockNs ≤ (cfgNow s).time.stepNs → (cfgNow s).time.stepNs < (syncOffset port m s).natAbs → s.time.stepBlocked = true → s.time.locked = true →
    Next (.ptpMessage t port m) s fun r =>
      OutFrame (setEth port (fun x => { x with
          lastSync := some (m.origin + m.correction, m.received + (ptpCfg s port).ingress), lastSyncAt := max s.now t })
        { s with time := { s.time with
            offset := syncOffset port m s, pathDelay := (vget s.time.ports port).pathDelay, holdover := false, lockCount := 0, locked := false } }) r ∧
      r.time.clock = { (tick t s).time.clock with slew := -syncOffset port m s * 4294967296, slewPpm := (cfgNow s).time.maxSlew } ∧
      bitOf r.host.evt.pending 0x3D3 = true) ∧
  (∀ port m, port < 2 → m.kind = .announce → Happens (.ptpMessage · port m)
    (fun s => up s ∧ runs port s ∧ ptpForeign s port m = false ∧ ptpRuns s (1 - port) = false ∧ awake port s ∧ (vget s.time.ports port).state ≠ .slave ∧
      (vget s.time.ports port).state ≠ .uncalibrated ∧ s.time.gm ≠ m.announce.identity ∧
      ((cfgNow s).time.slaveOnly = true ∨ ¬ ((1 : Nat) ≤ (cfgNow s).time.clockClass ∧ (cfgNow s).time.clockClass ≤ 127) ∧
        m.announce.priority1 < (cfgNow s).time.priority1))
    (fun s => setEth port (fun x => { x with state := .uncalibrated, best := some { m.announce with steps := m.announce.steps + 1 } })
      { s with time := { s.time with gm := m.announce.identity } }) [0x3D1 + port, 0x3D6] noPuts) ∧
  (∀ port m, port < 2 → m.kind = .announce → Happens (.ptpMessage · port m)
    (fun s => up s ∧ runs port s ∧ ptpForeign s port m = false ∧ ptpRuns s (1 - port) = false ∧ awake port s ∧ (vget s.time.ports port).state ≠ .master ∧
      s.time.gm = 0 ∧ (cfgNow s).time.slaveOnly = false ∧ (cfgNow s).time.priority1 < m.announce.priority1)
    (fun s => setEth port (fun x => { x with state := .master, best := some { m.announce with steps := m.announce.steps + 1 } }) s)
    [0x3D1 + port] noPuts) ∧
  (∀ port m, port < 2 → m.kind = .delayReq → Happens (.ptpMessage · port m)
    (fun s => up s ∧ runs port s ∧ ptpForeign s port m = false ∧ (vget s.time.ports port).state = .master) id []
    (fun s => [.ptp port .delayResp m.seq (m.received + (ptpCfg s port).ingress)])) ∧
  (∀ port m, port < 2 → m.kind = .delayReq → Exactly (.ptpMessage · port m)
    (fun s => up s ∧ runs port s ∧ ptpForeign s port m = false ∧ (vget s.time.ports port).state ≠ .master) id) ∧
  (∀ port m, ∀ t1 t2 t3 : Int, port < 2 → m.kind = .delayResp → Exactly (.ptpMessage · port m)
    (fun s => up s ∧ runs port s ∧ ptpForeign s port m = false ∧ (vget s.time.ports port).delaySent = some (m.seq, t3) ∧
      (vget s.time.ports port).lastSync = some (t1, t2))
    (setEth port (fun x => { x with
      delaySent := none, pathDelay := (Int.fdiv ((t2 - t1) + (m.origin - m.correction - t3)) 2).toNat }))) ∧
  (∀ port m, port < 2 → m.kind = .pdelayReq → Happens (.ptpMessage · port m) (fun s => up s ∧ runs port s ∧ ptpForeign s port m = false) id []
    (fun s => [.ptp port .pdelayResp m.seq (m.received + (ptpCfg s port).ingress),
      .ptp port .pdelayFollowUp m.seq (clockNs s.time.clock + (ptpCfg s port).egress)])) ∧
  (∀ port kind, Exactly (.ptpIntervalTimer · port kind)
    (fun s => 2 ≤ port ∨ ptpRuns s port = false ∨ (vget s.time.ports port).linkUp = false) id) ∧
  (∀ port, port < 2 → Happens (.ptpIntervalTimer · port .sync) (fun s => up s ∧ runs port s ∧ (vget s.time.ports port).state = .master)
    (setEth port (fun x => { x with seqOut := (x.seqOut + 1) % 65536 })) []
    (fun s => [.ptp port .sync (((vget s.time.ports port).seqOut + 1) % 65536) 0,
      .ptp port .followUp (((vget s.time.ports port).seqOut + 1) % 65536) (clockNs s.time.clock + (ptpCfg s port).egress)])) ∧
  (∀ port, port < 2 → Exactly (.ptpIntervalTimer · port .sync) (fun s => (vget s.time.ports port).state ≠ .master) id) ∧
  (∀ port, port < 2 → Happens (.ptpIntervalTimer · port .announce) (fun s => up s ∧ runs port s ∧ (vget s.time.ports port).state = .master)
    (setEth port (fun x => { x with seqOut := (x.seqOut + 1) % 65536 })) []
    (fun s => [.ptp port .announce (((vget s.time.ports port).seqOut + 1) % 65536) 0])) ∧
  (∀ port, port < 2 → Happens (.ptpIntervalTimer · port .announce) (fun s => up s ∧ runs port s ∧ (vget s.time.ports port).state = .preMaster)
    (setEth port (fun x => { x with state := .master })) [0x3D1 + port] noPuts) ∧
  (∀ port, port < 2 → Happens (.ptpIntervalTimer · port .delayReq)
    (fun s => up s ∧ runs port s ∧ (cfgNow s).time.peer = false ∧ (vget s.time.ports port).state = .slave)
    (fun s => setEth port (fun x => { x with
      seqOut := (x.seqOut + 1) % 65536
      delaySent := some ((x.seqOut + 1) % 65536, clockNs s.time.clock + (ptpCfg s port).egress) }) s) []
    (fun s => [.ptp port .delayReq (((vget s.time.ports port).seqOut + 1) % 65536) 0])) ∧
  (∀ port, port < 2 → Happens (.announceReceiptTimeout · port)
    (fun s => up s ∧ runs port s ∧ ptpRuns s (1 - port) = false ∧ (vget s.time.ports port).state = .listening ∧ (cfgNow s).time.slaveOnly = false ∧ s.time.gm = 0)
    (setEth port (fun x => { x with state := .master, best := none })) [0x3D1 + port] noPuts) ∧
  (∀ port, Exactly (.announceReceiptTimeout · port)
    (fun s => 2 ≤ port ∨ ptpRuns s port = false ∨ (vget s.time.ports port).linkUp = false) id) ∧
  (∀ port ip, port < 2 → ip ≠ 0 → Happens (.arpRequest · port ip)
    (fun s => up s ∧ (vget s.time.ports port).linkUp = true ∧ (ptpCfg s port).ipv4 = ip) id [] (fun _ => [.arpReply port ip])) ∧
  (∀ port ip, Exactly (.arpRequest · port ip) (fun s => (ptpCfg s port).ipv4 ≠ ip ∨ (vget s.time.ports port).linkUp = false ∨ 2 ≤ port) id) ∧
  (∀ port, port < 2 → Exactly (.ethOtherFrame · port) (fun s => up s ∧ (vget s.time.ports port).linkUp = true)
    (fun s => { s with time := { s.time with rxOther := wrap32 (s.time.rxOther + 1) } })) ∧
  (∀ port, port < 2 → Exactly (.ethOtherFrame · port) (fun s => (vget s.time.ports port).linkUp = false) id) ∧
  (∀ port, port < 2 → Happens (.ethLinkUp · port)
    (fun s => up s ∧ (ptpCfg s port).speed ≠ 0 ∧ (vget s.cages (3 + port)).enabled = true ∧ ptpRuns s port = true ∧ (vget s.time.ports port).state = .initializing)
    (setEth port (fun x => { x with linkUp := true, state := .listening })) [0x3D1 + port] noPuts) ∧
  (∀ port, Exactly (.ethLinkUp · port) (fun s => 2 ≤ port ∨ (ptpCfg s port).speed = 0 ∨ (vget s.cages (3 + port)).enabled = false) id) ∧
  (∀ port, port < 2 → Happens (.ethLinkDown · port)
    (fun s => up s ∧ runs port s ∧ ptpRuns s (1 - port) = false ∧ awake port s ∧ s.time.gm = 0 ∧ (∀ v : Nat, v < 8 → (vget s.views v).sending = none))
    (setEth port (fun x => { x with linkUp := false, state := .faulty, best := none, syncWait := none })) [0x3D1 + port] noPuts) ∧
  (∀ port, Exactly (.ethLinkDown · port) (fun s => 2 ≤ port ∨ (vget s.time.ports port).linkUp = false) id)

/-- Each event of Table 16-1 moves a port out of the state it belongs to, with the port's event, and changes nothing in another state: DOWN to SEARCH after 10 ms, CAPS, STEP_UP and ALIGN to UP, the forerunner sequence to FR_UP on JE and JW where it is allowed. A state that lasts too long ends DOWN with its cause, and a failed STEP_UP or ALIGN counts. A port that comes up tells its neighbours the topology, and with both up the ring closes. A port that loses its link folds the ring: its routes are lost, and what waited on it goes the other way with REROUTED set. A fence of a port ends after 100 ms. A port that is up sends keepalives. What the port raises outside start-up step 9 is shown. -/
def Obligations.RingPorts : Prop :=
  (∀ p, p < 3 → Happens (.ringPortDownExpired · p) (fun s => up s ∧ portIn p .down s ∧ portEnabled s p = true ∧ (vget s.ring.ports p).since + 10000000 ≤ s.now)
    (entered p .search) [0x3E0 + p] (fun _ => [.ringHello p])) ∧
  (∀ p, Exactly (.ringPortDownExpired · p)
    (fun s => ¬ portIn p .down s ∨ portEnabled s p = false ∨ s.now < (vget s.ring.ports p).since + 10000000) id) ∧
  (∀ p, p < 3 → Happens (.ringHello · p) (fun s => up s ∧ portIn p .search s) (entered p .caps) [0x3E0 + p] noPuts) ∧
  (∀ p, Exactly (.ringHello · p) (fun s => ¬ portIn p .search s) id) ∧
  (∀ p k, k.forerunner = false → Happens (.ringCapability · p k) (fun s => up s ∧ portIn p .caps s)
    (fun s => setLinkPort p (fun x => { x with
      state := .stepUp, since := s.now, neighbour := some { serial := k.serial, id := k.id }
      lowRate := decide (2 ≤ x.nativeFails) || !k.fullRate }) s) [0x3E0 + p] noPuts) ∧
  (∀ p k, p < 2 → k.forerunner = true → Happens (.ringCapability · p k) (fun s => up s ∧ portIn p .caps s ∧ (cfgNow s).ring.allowForerunner = true)
    (fun s => setLinkPort p (fun x => { x with
      state := .frDetect, since := s.now, neighbour := some { serial := k.serial, id := k.id, forerunner := true } }) s) [0x3E0 + p] noPuts) ∧
  (∀ p k, k.forerunner = true → Happens (.ringCapability · p k)
    (fun s => up s ∧ portIn p .caps s ∧ (p = 2 ∨ (cfgNow s).ring.allowForerunner = false))
    (fallen p .down .forerunnerRefused 0) [0x3E0 + p] noPuts) ∧
  (∀ p k, p < 2 → Happens (.ringCapability · p k)
    (fun s => up s ∧ portIn p .frCaps s ∧ isPortUp (vget s.ring.ports (1 - p)).state = false ∧ s.boot.stage ≠ 7 ∧ s.ring.modules = [])
    (fun s => risen p .frUp (setLinkPort p (fun x => { x with neighbour := some { serial := k.serial, id := k.id, forerunner := k.forerunner } })
      { s with ring := { s.ring with modules := [if p = 0 then { serial := k.serial, forerunner := k.forerunner, hopsEast := some 1 }
          else { serial := k.serial, forerunner := k.forerunner, hopsWest := some 1 }] } })) [0x3E0 + p, 0x3E4]
    (fun _ => [.topology p [if p = 0 then { serial := k.serial, forerunner := k.forerunner, hopsEast := some 1 }
          else { serial := k.serial, forerunner := k.forerunner, hopsWest := some 1 }]])) ∧
  (∀ p k, Exactly (.ringCapability · p k) (fun s => ¬ portIn p .caps s ∧ ¬ portIn p .frCaps s) id) ∧
  (∀ p, Happens (.ringLanesLocked · p) (fun s => up s ∧ portIn p .stepUp s) (entered p .align) [0x3E0 + p] noPuts) ∧
  (∀ p, Happens (.ringLanesLocked · p) (fun s => up s ∧ portIn p .frLock s) (entered p .frCaps) [0x3E0 + p] noPuts) ∧
  (∀ p, Exactly (.ringLanesLocked · p) (fun s => ¬ portIn p .stepUp s ∧ ¬ portIn p .frLock s) id) ∧
  Happens (.ringLanesAligned · 2) (fun s => up s ∧ portIn 2 .align s ∧ s.boot.stage ≠ 7 ∧ (cfgNow s).pair.enable = false)
    (risen 2 .up) [0x3E2] (fun _ => [.keepalive 2]) ∧
  (∀ p, p < 2 → Happens (.ringLanesAligned · p)
    (fun s => up s ∧ portIn p .align s ∧ s.boot.stage ≠ 7 ∧ (vget s.ring.ports p).neighbour = none ∧ isPortUp (vget s.ring.ports (1 - p)).state = false)
    (risen p .up) [0x3E0 + p] (fun s => [.topology p s.ring.modules, .keepalive p])) ∧
  (∀ p, p < 2 → Happens (.ringLanesAligned · p)
    (fun s => up s ∧ portIn p .align s ∧ s.boot.stage ≠ 7 ∧ (vget s.ring.ports p).neighbour = none ∧ isPortUp (vget s.ring.ports (1 - p)).state = true)
    (fun s => risen p .up { s with ring := { s.ring with folded := false } }) [0x3E0 + p, 0x3E3]
    (fun s => [.topology (1 - p) s.ring.modules, .topology p s.ring.modules, .keepalive p])) ∧
  (∀ p, Exactly (.ringLanesAligned · p) (fun s => ¬ portIn p .align s) id) ∧
  (∀ p, Happens (.ringTerminationDetected · p) (fun s => up s ∧ portIn p .frDetect s) (entered p .frTrain) [0x3E0 + p] noPuts) ∧
  (∀ p, Exactly (.ringTerminationDetected · p) (fun s => ¬ portIn p .frDetect s) id) ∧
  (∀ p, Happens (.ringTrainingPattern · p) (fun s => up s ∧ portIn p .frTrain s) (entered p .frLock) [0x3E0 + p] noPuts) ∧
  (∀ p, Exactly (.ringTrainingPattern · p) (fun s => ¬ portIn p .frTrain s) id) ∧
  (∀ p st ns, (st, ns) ∈ [(PortState.stepUp, 10000000), (.align, 2000000)] → Happens (.ringBringupTimeout · p)
    (fun s => up s ∧ portIn p st s ∧ (vget s.ring.ports p).since + ns ≤ s.now)
    (fun s => fallen p .down (if st = .stepUp then .stepTimeout else .alignTimeout) 0
      (setLinkPort p (fun x => { x with nativeFails := if x.lowRate then 0 else x.nativeFails + 1 }) s)) [0x3E0 + p] noPuts) ∧
  (∀ p st ns, (st, ns) ∈ [(PortState.caps, 1000000), (.frDetect, 100000000), (.frTrain, 50000000), (.frLock, 20000000), (.frCaps, 10000000)] →
    Happens (.ringBringupTimeout · p) (fun s => up s ∧ portIn p st s ∧ (vget s.ring.ports p).since + ns ≤ s.now)
    (fallen p .down (if st = .caps then .capsTimeout else .frTimeout) 0) [0x3E0 + p] noPuts) ∧
  (∀ p st ns, (st, ns) ∈ [(PortState.stepUp, 10000000), (.align, 2000000), (.caps, 1000000), (.frDetect, 100000000), (.frTrain, 50000000), (.frLock, 20000000), (.frCaps, 10000000)] →
    Exactly (.ringBringupTimeout · p) (fun s => (vget s.ring.ports p).state = st ∧ s.now < (vget s.ring.ports p).since + ns) id) ∧
  (∀ p, p < 3 → Happens (.ringKeepaliveTimer · p) (fun s => up s ∧ isPortUp (vget s.ring.ports p).state = true) id [] (fun _ => [.keepalive p])) ∧
  (∀ p, Exactly (.ringKeepaliveTimer · p) (fun s => isPortUp (vget s.ring.ports p).state = false) id) ∧
  Happens (.ringLinkLost · 2) (fun s => up s ∧ isPortUp (vget s.ring.ports 2).state = true) (fallen 2 .down .linkLost 1) [0x3E2] noPuts ∧
  (∀ p, p < 2 → Happens (.ringLinkLost · p)
    (fun s => up s ∧ noRelays s ∧ isPortUp (vget s.ring.ports p).state = true ∧ isPortUp (vget s.ring.ports (1 - p)).state = false)
    (fun s => foldedAt p (fallen p .down .linkLost 1 s)) [0x3E0 + p, 0x3E3] noPuts) ∧
  (∀ p k, p < 2 → Happens (.ringLinkLost · p)
    (fun s => up s ∧ noRelays s ∧ isPortUp (vget s.ring.ports p).state = true ∧ sends (1 - p) s ∧ (vget s.ring.ports p).unacked.map (·.pkt) = [k] ∧
      (vget s.ring.ports p).waiting = [])
    (fun s => sent (1 - p) { k with rerouted := true } (foldedAt p (fallen p .down .linkLost 1 s))) [0x3E0 + p, 0x3E3]
    (fun s => [.topology (1 - p) (s.ring.modules.map fun m => if p = 0 then { m with hopsEast := none } else { m with hopsWest := none }),
      .ringPacket (1 - p) { k with rerouted := true, seq := (vget s.ring.ports (1 - p)).nextSeq }])) ∧
  (∀ p, Exactly (.ringLinkLost · p) (fun s => isPortUp (vget s.ring.ports p).state = false) id) ∧
  (∀ p, Happens (.ringFenceExpired · p) (fun s => up s ∧ portIn p .fenced s ∧ (vget s.ring.ports p).since + 100000000 ≤ s.now)
    (fun s => entered p .down { s with faults := { s.faults with fences := s.faults.fences.filter fun f => decide (f.unit ≠ 15 ∨ f.index ≠ p) } })
    [0x3E0 + p] noPuts) ∧
  (∀ p, Exactly (.ringFenceExpired · p) (fun s => ¬ portIn p .fenced s ∨ s.now < (vget s.ring.ports p).since + 100000000) id)

/-- A packet with a good CRC is acknowledged and counted; one for other modules goes on with HOPS counted on, to all modules out of the other port and to one module the way with fewer hops, east on a tie; a TIME message takes up its residence time, up to 800 ns, and the link's delay; EDGE packets towards a KL640 are counted and discarded. An acknowledgement frees the packet's place, and the next that waits goes out. A packet not acknowledged in 20 us is sent once more, and then its port is fenced. A topology message sets the routes, none through a port that is down. Enumeration numbers this module with the lowest free ID; without a gateway, or numbered already, it changes nothing. -/
def Obligations.RingPackets : Prop :=
  (∀ p k ok, Exactly (.ringPacketRx · p k ok) (fun s => ok = false ∨ 3 ≤ p ∨ isPortUp (vget s.ring.ports p).state = false) id) ∧
  (∀ p k, p < 3 → Happens (.ringPacketRx · p k true)
    (fun s => up s ∧ isPortUp (vget s.ring.ports p).state = true ∧
      (p = 2 ∨ s.ring.enumerated = true ∧ (k.dst = s.ring.moduleId ∨ k.src = s.ring.moduleId)))
    (received p) [] (fun _ => [.ringAck p k.seq])) ∧
  (∀ p k, p < 2 → k.dst = 0xFE → k.cls ≠ 1 → k.cls ≠ 2 → Happens (.ringPacketRx · p k true)
    (fun s => up s ∧ isPortUp (vget s.ring.ports p).state = true ∧ passing k s ∧ sends (1 - p) s)
    (fun s => sent (1 - p) { k with hops := k.hops + 1 } (received p s)) []
    (fun s => [.ringAck p k.seq, .ringPacket (1 - p) { k with hops := k.hops + 1, seq := (vget s.ring.ports (1 - p)).nextSeq }])) ∧
  (∀ p k m q, p < 2 → q < 2 → k.dst ≠ 0xFE → k.cls ≠ 1 → k.cls ≠ 2 → Happens (.ringPacketRx · p k true)
    (fun s => up s ∧ isPortUp (vget s.ring.ports p).state = true ∧ passing k s ∧ s.ring.modules = [m] ∧ m.id = some k.dst ∧ sends q s ∧
      (if q = 0 then m.hopsEast.isSome = true ∧ (m.hopsWest = none ∨ m.hopsEast.getD 0 ≤ m.hopsWest.getD 0)
        else m.hopsWest.isSome = true ∧ (m.hopsEast = none ∨ m.hopsWest.getD 0 < m.hopsEast.getD 0)))
    (fun s => sent q { k with hops := k.hops + 1 } (received p s)) [] (fun _ => [.ringAck p k.seq])) ∧
  (∀ p k, p < 2 → k.dst = 0xFE → k.cls = 2 → Happens (.ringPacketRx · p k true)
    (fun s => up s ∧ isPortUp (vget s.ring.ports p).state = true ∧ passing k s ∧ (vget s.ring.ports (1 - p)).state = .frUp)
    (fun s => setLinkPort (1 - p) (fun x => { x with cnt := { x.cnt with frDiscards := wrap32 (x.cnt.frDiscards + 1) } }) (received p s)) []
    (fun _ => [.ringAck p k.seq])) ∧
  (∀ (t : Nat) (s : State) (p : Nat) (k : RingPkt), s.Inv → up s → p < 2 → k.dst = 0xFE → k.cls = 1 → isPortUp (vget s.ring.ports p).state = true →
    passing k s → sends (1 - p) s →
    Next (.ringPacketRx t p k true) s fun r =>
      (∃ d, d < 801 ∧ OutFrame (sent (1 - p) { k with
          hops := k.hops + 1
          payload := k.payload.take 16 ++ leI 8 (s64 k.payload 16 + ((d + linkDelay s p : Nat) : Int) * 65536) ++ k.payload.drop 24 }
        (received p { tick t s with free := s.free + 1 })) r)) ∧
  (∀ p n u, p < 3 → u.pkt.seq = n → Happens (.ringAckRx · p n)
    (fun s => up s ∧ isPortUp (vget s.ring.ports p).state = true ∧ (vget s.ring.ports p).unacked = [u] ∧ u.retried = false ∧ (vget s.ring.ports p).waiting = [])
    (setLinkPort p (fun x => { x with unacked := [] })) [] noPuts) ∧
  (∀ p n u, p < 3 → u.pkt.seq = n → Happens (.ringAckRx · p n)
    (fun s => up s ∧ isPortUp (vget s.ring.ports p).state = true ∧ (vget s.ring.ports p).unacked = [u] ∧ u.retried = true ∧
      (vget s.ring.ports p).waiting = [] ∧ firstIn 0x004 (currentStrip s) s ∧ firstIn 0x3E5 (currentStrip s) s)
    (fun s => setLinkPort p (fun x => { x with unacked := [] })
      { s with faults := { s.faults with cnt := { s.faults.cnt with ring := s.faults.cnt.ring + 1 } } }) [0x004, 0x3E5] noPuts) ∧
  (∀ p n u k ks, p < 3 → u.pkt.seq = n → u.retried = false → Happens (.ringAckRx · p n)
    (fun s => up s ∧ isPortUp (vget s.ring.ports p).state = true ∧ (vget s.ring.ports p).unacked = [u] ∧ (vget s.ring.ports p).waiting = k :: ks)
    (fun s => sent p k (setLinkPort p (fun x => { x with unacked := [], waiting := ks }) s)) []
    (fun s => [.ringPacket p { k with seq := (vget s.ring.ports p).nextSeq }])) ∧
  (∀ p n, Exactly (.ringAckRx · p n) (fun s => ∀ u ∈ (vget s.ring.ports p).unacked, u.pkt.seq ≠ n) id) ∧
  (∀ p n u, p < 3 → u.pkt.seq = n → u.retried = false → Happens (.ringAckTimeout · p n)
    (fun s => up s ∧ (vget s.ring.ports p).unacked = [u] ∧ u.sentAt + 20000 ≤ s.now)
    (fun s => setLinkPort p (fun x => { x with
      unacked := [{ u with retried := true, sentAt := s.now }]
      cnt := { x.cnt with crcRetries := wrap32 (x.cnt.crcRetries + 1), tx := wrap32 (x.cnt.tx + 1) } }) s) [] (fun _ => [.ringPacket p u.pkt])) ∧
  (∀ (t : Nat) (s : State) (p n : Nat) (u : Unacked), s.Inv → up s → p < 3 → u.pkt.seq = n → u.retried = true → (vget s.ring.ports p).unacked = [u] →
    (vget s.ring.ports p).waiting = [] → noRelays s → u.sentAt + 20000 ≤ max s.now t →
    Next (.ringAckTimeout t p n) s fun r =>
      (vget r.ring.ports p).state = .fenced ∧ (vget r.ring.ports p).cause = .fenced ∧ (vget r.ring.ports p).unacked = [] ∧
      (vget r.ring.ports p).cnt.fences = wrap32 ((vget s.ring.ports p).cnt.fences + 1) ∧ fenceOf r 0x0F p ≠ none ∧
      bitOf r.host.evt.pending (0x3E0 + p) = true ∧ bitOf r.host.evt.pending 0x003 = true ∧ bitOf r.host.evt.pending 0x008 = true ∧
      (∃ e, r.faults.log.getLast? = some e ∧ e.cls = 2 ∧ e.unit = 0x0F ∧ e.index = p ∧ e.cause = 1 ∧ e.strip = s.gauge.lastStrip) ∧
      r.bench.mem = s.bench.mem ∧ r.ledger = s.ledger ∧ r.running = s.running) ∧
  (∀ p n u, u.pkt.seq = n → Exactly (.ringAckTimeout · p n)
    (fun s => (vget s.ring.ports p).unacked = [u] ∧ s.now < u.sentAt + 20000) id) ∧
  (∀ ms f, Happens (.ringTopologyMessage · ms f)
    (fun s => up s ∧ noRelays s ∧ isPortUp (vget s.ring.ports 0).state = true ∧ isPortUp (vget s.ring.ports 1).state = true ∧ s.ring.folded ≠ f ∧
      s.ring.modules = [] ∧ ∃ m ∈ ms, hasRoute m = true)
    (fun s => { s with ring := { s.ring with modules := ms, folded := f } }) [0x3E3, 0x3E4] noPuts) ∧
  (∀ ms f, Happens (.ringTopologyMessage · ms f)
    (fun s => up s ∧ noRelays s ∧ isPortUp (vget s.ring.ports 0).state = false ∧ isPortUp (vget s.ring.ports 1).state = true)
    (fun s => { s with ring := { s.ring with modules := ms.map (fun m => { m with hopsEast := none }), folded := f } }) [] noPuts) ∧
  Exactly (.enumeration ·) (fun s => s.boot.stage ≠ 8 ∧ s.ring.gateway = false ∧ ∀ m ∈ s.ring.modules, m.gateway = false) id ∧
  Exactly (.enumeration ·) (fun s => s.boot.stage ≠ 8 ∧ s.ring.enumerated = true ∧ ∀ m ∈ s.ring.modules, m.id.isSome = true) id ∧
  Happens (.enumeration ·) (fun s => up s ∧ s.boot.stage ≠ 8 ∧ s.ring.gateway = true ∧ s.ring.modules = [] ∧ s.ring.enumerated = false)
    (fun s => { s with ring := { s.ring with enumerated := true, moduleId := 0 } }) [0x3E4] noPuts ∧
  (∀ (t k : Nat) (s : State) (m : RingModule), s.Inv → up s → s.boot.stage ≠ 8 → s.ring.gateway = false → s.ring.enumerated = false → s.ring.modules = [m] →
    m.gateway = true → m.hopsEast.isSome = true → m.id = some k →
    Next (.enumeration t) s fun r =>
      r.ring.enumerated = true ∧ (m.serial ≠ Config.serial → r.ring.moduleId = if k = 0 then 1 else 0) ∧ r.ring.modules = [m] ∧
      bitOf r.host.evt.pending 0x3E4 = true ∧ OutFrame { s with ring := { s.ring with enumerated := true, moduleId := r.ring.moduleId } } r)

/-- A relayed record goes into the relay's local queue with its own SEQ and a new ticket, WR becoming that SEQ + 1, and is acknowledged; one placed before is only acknowledged; without a relay, or with its queue off, nothing happens. The gateway's acknowledgement releases the record at its source, whose ticket ends COMPLETE. A relay that has stalled for 10 ms is reported once. -/
def Obligations.RingRelays : Prop :=
  (∀ m q rec_ p, Exactly (.relayResultRx · m q rec_ p) (fun s => ∀ r ∈ s.ring.relays, r.srcModule ≠ m ∨ r.srcQueue ≠ q) id) ∧
  (∀ m q n rec_ p, ∀ k : RelayState, n < 16 → p.header = [] → k.localQueue = n → k.srcModule = m → k.srcQueue = q → Happens (.relayResultRx · m q rec_ p)
    (fun s => up s ∧ partUp s 14 = true ∧ partUp s 15 = true ∧ alone s ∧ s.ring.relays = [k] ∧ s.ring.sources = [] ∧ queueTakes n s ∧
      (vget s.scribe.queues n).live = [] ∧ (vget s.scribe.queues n).rd = (vget s.scribe.queues n).wr ∧ nextSlot s < ledgerSlots)
    (fun s =>
      let x := vget s.scribe.queues n
      let s' := setQueue n (fun x => { x with
          wr := wrap32 (u32 rec_ 0 + 1)
          rd := u32 rec_ 0
          rel := u32 rec_ 0
          head := if x.head = 0 then 1 else x.head
          live := [{ seq := u32 rec_ 0, strip := currentStrip s, ticket := nextTicket s }]
          idleSince := s.now
          cnt := { x.cnt with written := wrap32 (x.cnt.written + 1) } })
        { (issued s) with ring := { s.ring with relays := [{ k with stallSince := none, stallRaised := false }] } }
      written [(recordOff x (u32 rec_ 0), padTo 64 rec_)] s') [] (fun _ => [.relayAck m q (u32 rec_ 0)])) ∧
  (∀ m q n rec_ p, ∀ k : RelayState, n < 16 → k.localQueue = n → k.srcModule = m → k.srcQueue = q → Happens (.relayResultRx · m q rec_ p)
    (fun s => up s ∧ partUp s 14 = true ∧ partUp s 15 = true ∧ s.ring.relays = [k] ∧ (vget s.scribe.queues n).on = true ∧
      (vget s.scribe.queues n).live ≠ [] ∧ later32 (vget s.scribe.queues n).wr (u32 rec_ 0) = true)
    (fun s => { s with ring := { s.ring with relays := [{ k with stallSince := none, stallRaised := false }] } }) []
    (fun _ => [.relayAck m q (u32 rec_ 0)])) ∧
  (∀ m q n rec_ p, ∀ k : RelayState, n < 16 → k.localQueue = n → k.srcModule = m → k.srcQueue = q → Exactly (.relayResultRx · m q rec_ p)
    (fun s => s.ring.relays = [k] ∧ (vget s.scribe.queues n).on = false) id) ∧
  (∀ (t q n : Nat) (s : State) (k : RelayState) (l : LiveRec), s.Inv → q < 16 → l.seq = n → k.srcQueue = q → n + 1 < 4294967296 → up s →
    partUp s 14 = true → partUp s 15 = true → s.ring.sources = [k] → (vget s.scribe.queues q).live = [l] → (vget s.scribe.queues q).rel = n →
    (vget s.scribe.queues q).rd = n + 1 → ticketLive s.ledger l.ticket = true → l.patchTicket = none → (vget s.scribe.queues q).patches = [] →
    Next (.relayAckRx t q n) s fun r =>
      (vget r.scribe.queues q).live = [] ∧ (vget r.scribe.queues q).rel = n + 1 ∧ (vget r.scribe.queues q).rd = n + 1 ∧
      (vget r.scribe.queues q).wr = (vget s.scribe.queues q).wr ∧ r.ledger.complete = s.ledger.complete + 1 ∧ r.ledger.failed = s.ledger.failed ∧
      ticketLive r.ledger l.ticket = false ∧ r.ring.sources = [{ k with stallSince := none, stallRaised := false }] ∧ r.bench.mem = s.bench.mem ∧
      r.running = s.running) ∧
  (∀ q n, 16 ≤ q → Exactly (.relayAckRx · q n) (fun _ => True) id) ∧
  (∀ q, ∀ k : RelayState, ∀ a, k.localQueue = q → k.stallSince = some a → k.stallRaised = false → Happens (.relayStallTimeout · q)
    (fun s => up s ∧ s.ring.relays = [k] ∧ s.ring.sources = [] ∧ a + 10000000 ≤ s.now)
    (fun s => { s with ring := { s.ring with relays := [{ k with stallRaised := true }] } }) [0x3EC] noPuts) ∧
  (∀ q, Exactly (.relayStallTimeout · q)
    (fun s => ∀ k ∈ s.ring.relays ++ s.ring.sources, k.stallRaised = true ∨ k.stallSince = none ∨ s.now < k.stallSince.getD 0 + 10000000) id)

/-- PAIR_SWITCH MODE 0 of an active module names its current strip + 3 and runs until then; MODE 1 leaves the pair. A pairing exchange with masks that do not fit holds PAIRING with the event; else PREFER_ACTIVE decides, the chosen module sends its snapshot, the other discards its staged settings. Heartbeats are sent and noted; a partner that reached PASSIVE makes the chosen module ACTIVE, or hands it the active role with RD and MK of the ledger; MIRROR_LOST returns to PAIRING. Missed heartbeats make a passive module MIRROR_LOST, or the Holdfast gives the failure signal. With the partner's FAIL an active module goes on SOLO; a passive one takes over: the partner's marks fail, RD returns to REL, and the event comes. -/
def Obligations.PairRolesAndFailover : Prop :=
  (∀ (t : Nat) (c : HostCmd) (s : State), Ready specPairSwitch c s → acceptsMore s → u8 c.params 0 = 0 → s.pair.role = .active → s.pair.partnerRole = 3 →
    s.pair.switchAt = none → s.pair.switchTicket = none → noStop s → s.pair.work = [] → s.pair.snapshot = none → s.gauge.trigEnabled = true →
    (vget s.gauge.slots 0).pend ≠ [] →
    Next (.pairSwitch t c) s fun r =>
      Accepts 0x0F03 (le 4 (stripAhead s 3)) c s r ∧
      ReplyFrame (pairWith (fun p => { p with switchAt := some (stripAhead s 3), switchTicket := some (nextTicket s) }) s) r) ∧
  (∀ (t : Nat) (c : HostCmd) (s : State), Ready specPairSwitch c s → acceptsMore s → u8 c.params 0 = 1 → s.pair.role = .active →
    s.pair.switchTicket = none → noStop s → s.pair.partnerMarks = [] →
    Next (.pairSwitch t c) s fun r =>
      r.pair.role = .solo ∧ r.pair.cause = .left ∧ r.pair.partnerLost = true ∧ (vget r.links.through 0).relaySource = false ∧
      (vget r.links.through 1).relaySource = false ∧ r.ledger.complete = s.ledger.complete + 1 ∧ bitOf r.host.evt.pending 0x3E6 = true ∧
      r.gauge = s.gauge ∧ r.scribe = s.scribe ∧ r.bench.mem = s.bench.mem ∧ r.staged = s.staged ∧ r.running = s.running) ∧
  Refuses .pairSwitch specPairSwitch (fun c s => (u8 c.params 0 = 1 ∧ s.pair.role = .solo) ∨
    (u8 c.params 0 = 0 ∧ (s.pair.role ≠ .active ∨ s.pair.partnerRole ≠ 3 ∨ s.pair.switchAt.isSome = true))) stWrongState (fun _ _ => zeros 8) ∧
  Refuses .pairSwitch specPairSwitch (fun c _ => 1 < u8 c.params 0) stBadParam (fun _ _ => paramBody 0) ∧
  (∀ h, Exactly (.pairingExchange · h) (fun s => mirrors s ∧ s.pair.role ≠ .pairing) id) ∧
  (∀ h, Happens (.pairingExchange · h)
    (fun s => mirrors s ∧ s.pair.role = .pairing ∧ ((cfgNow s).pair.portHome ^^^ h.portHome ≠ 4095 ∨ (cfgNow s).pair.axisOwner &&& h.axisOwner ≠ 0))
    (pairWith fun p => { p with partner := some h, partnerLost := false, diverged := false, cause := .mismatch, chosen := none }) [0x3E6] noPuts) ∧
  (∀ h, h.preferActive = false → h.partnerSerial = 0 → Happens (.pairingExchange · h)
    (fun s => mirrors s ∧ s.pair.role = .pairing ∧ (cfgNow s).pair.portHome ^^^ h.portHome = 4095 ∧ (cfgNow s).pair.axisOwner &&& h.axisOwner = 0 ∧
      (cfgNow s).pair.partner = h.serial ∧ (cfgNow s).pair.preferActive = true)
    (fun s => pairWith (fun p => { p with
      partner := some h, partnerLost := false, diverged := false, chosen := some true, resyncFrom := stripAhead s 3
      atStrip := some (stripAhead s 6), journalEntries := wrap32 (p.journalEntries + 1) }) s) []
    (fun s => [.journal (.snapshot (cfgNow s) s.marq.active (s.dovetail.maps.toList.map (·.active)) (s.plane.slots.toList.map (·.active))
      (stripAhead s 3) s.gauge.n0 s.gauge.origin s.gauge.trigEnabled)])) ∧
  (∀ h, h.preferActive = true → h.partnerSerial = 0 → Exactly (.pairingExchange · h)
    (fun s => mirrors s ∧ s.pair.role = .pairing ∧ (cfgNow s).pair.portHome ^^^ h.portHome = 4095 ∧ (cfgNow s).pair.axisOwner &&& h.axisOwner = 0 ∧
      (cfgNow s).pair.partner = h.serial ∧ (cfgNow s).pair.preferActive = false ∧ s.gauge.trigEnabled = false)
    (fun s => pairWith (fun p => { p with partner := some h, partnerLost := false, diverged := false, chosen := some false, atStrip := none })
      { s with staged := cfgNow s })) ∧
  (∀ b, Exactly (.partnerFail · b) (fun s => b = false ∨ s.pair.partnerFail = true) (pairWith fun p => { p with partnerFail := b })) ∧
  Happens (.partnerFail · true) (fun s => up s ∧ s.pair.partnerFail = false ∧ s.pair.role = .solo)
    (pairWith fun p => { p with partnerFail := true }) [0x3F6] noPuts ∧
  (∀ (t : Nat) (s : State), s.Inv → up s → s.pair.partnerFail = false → s.pair.role = .active → noStop s → s.pair.switchTicket = none →
    s.pair.partnerMarks = [] →
    Next (.partnerFail t true) s fun r =>
      r.pair.role = .solo ∧ r.pair.cause = .partnerFail ∧ r.pair.partnerLost = true ∧ bitOf r.host.evt.pending 0x3F6 = true ∧
      bitOf r.host.evt.pending 0x3E6 = true ∧ r.gauge = s.gauge ∧ r.scribe = s.scribe ∧ r.bench.mem = s.bench.mem ∧ r.ledger = s.ledger) ∧
  (∀ (t q : Nat) (s : State) (m : PartnerMark), s.Inv → up s → s.pair.partnerFail = false → s.pair.role = .passive → noStop s → s.pair.switchTicket = none →
    s.gauge.trigEnabled = false → s.pair.partnerMarks = [m] → m.station < 4 → q < 16 → (vget s.scribe.queues q).on = true → queuesPlain s →
    Next (.partnerFail t true) s fun r =>
      r.pair.role = .solo ∧ r.pair.failovers = wrap32 (s.pair.failovers + 1) ∧ r.pair.diverged = false ∧ r.pair.partnerMarks = [] ∧
      (vget r.scribe.stations m.station).ended.head? = some { m.mark with state := .failed, cause := .partnerLost } ∧
      (vget r.scribe.queues q).rd = (vget s.scribe.queues q).rel ∧ (vget r.scribe.queues q).rel = (vget s.scribe.queues q).rel ∧
      (vget r.scribe.queues q).markValid = false ∧ (vget r.scribe.queues q).markLost = (vget s.scribe.queues q).markLost ∧
      (vget r.links.through 0).relaySource = false ∧ (vget r.links.through 1).relaySource = false ∧
      bitOf r.host.evt.pending (0x230 + m.station) = true ∧ bitOf r.host.evt.pending 0x3E9 = true ∧ bitOf r.host.evt.pending 0x3F6 = true ∧
      r.bench.mem = s.bench.mem ∧ r.running = s.running) ∧
  Exactly (.partnerHeartbeatTimeout ·)
    (fun s => s.pair.role = .solo ∧ s.glue = none ∧ s.pair.work = [] ∧ s.pair.snapshot = none) id ∧
  (∀ a, Happens (.partnerHeartbeatTimeout ·)
    (fun s => up s ∧ s.pair.role = .passive ∧ s.glue = none ∧ s.pair.work = [] ∧ s.pair.snapshot = none ∧ s.pair.lastSent = none ∧
      s.pair.lastHeartbeat = some a ∧ a + (cfgNow s).pair.hbTimeout * 1000 ≤ s.now ∧ s.pair.partnerFail = false ∧ s.gauge.trigEnabled = false)
    (pairWith fun p => { p with role := .mirrorLost, cause := .heartbeat }) [0x3E6, 0x3EA] noPuts) ∧
  (∀ (t a : Nat) (s : State), s.Inv → up s → s.pair.role = .active → s.glue = none → s.pair.work = [] → s.pair.snapshot = none →
    s.pair.lastSent = some a → a + (cfgNow s).pair.hbTimeout * 1000 ≤ max s.now t → s.pair.signalling = false → s.pair.switchTicket = none →
    s.gauge.trigEnabled = false → axesOff s → noStations s →
    Next (.partnerHeartbeatTimeout t) s fun r =>
      r.pair.role = .failed ∧ r.pair.signalling = true ∧ r.gauge = { s.gauge with trigHalted := true } ∧
      (vget r.links.through 0).relaySource = true ∧ (vget r.links.through 1).relaySource = true ∧ bitOf r.host.evt.pending 0x3F6 = true ∧
      bitOf r.host.evt.pending 0x3E6 = true ∧ r.bench.mem = s.bench.mem) ∧
  Happens (.jmHeartbeatTimer ·) (fun s => up s ∧ isPortUp (vget s.ring.ports 2).state = true ∧ s.pair.role ≠ .solo)
    (fun s => pairWith (fun p => { p with lastSent := some s.now }) s) [] (fun s => [.heartbeat (roleCode s.pair.role) s.gauge.lastStrip]) ∧
  Exactly (.jmHeartbeatTimer ·) (fun s => s.pair.role = .solo ∨ isPortUp (vget s.ring.ports 2).state = false) id ∧
  (∀ k strip, k ≠ 0 → Exactly (.jmHeartbeatRx · k strip) (fun s => mirrors s ∧ (s.pair.role = .active ∨ s.pair.role = .solo ∨ s.pair.role = .failed))
    (fun s => pairWith (fun p => { p with lastHeartbeat := some s.now, partnerRole := k }) s)) ∧
  (∀ strip, Happens (.jmHeartbeatRx · 3 strip) (fun s => mirrors s ∧ s.pair.role = .pairing ∧ s.pair.chosen = some true)
    (fun s => pairWith (fun p => { p with lastHeartbeat := some s.now, partnerRole := 3, role := .active, cause := .paired }) s) [0x3E6] noPuts) ∧
  (∀ k strip, Happens (.jmHeartbeatRx · k strip) (fun s => mirrors s ∧ s.pair.role = .mirrorLost ∧ s.pair.switchTicket = none)
    (fun s => rejoins .resumed (pairWith (fun p => { p with lastHeartbeat := some s.now, partnerRole := k }) s)) [0x3E6] noPuts) ∧
  (∀ (t strip q rd mk : Nat) (s : State), s.Inv → mirrors s → noStop s → s.pair.role = .passive → s.pair.ledger = [(q, rd, mk)] → q < 16 →
    (vget s.scribe.queues q).on = true → queuesPlain s → s.gauge.trigEnabled = false → s.pair.switchAt = none →
    Next (.jmHeartbeatRx t 3 strip) s fun r =>
      r.pair.role = .active ∧ r.pair.cause = .switch ∧ (vget r.scribe.queues q).rd = rd ∧ (vget r.scribe.queues q).mkp = mk ∧
      (vget r.scribe.queues q).live = (vget s.scribe.queues q).live ∧ (vget r.links.through 0).relaySource = false ∧
      (vget r.links.through 1).relaySource = false ∧ bitOf r.host.evt.pending 0x3E6 = true ∧ r.bench.mem = s.bench.mem ∧ r.gauge = s.gauge)

/-- JM_OFFSET is the echo's. A passive module takes the active's WebPos, with the event beyond 2 counts; a tag moves the slot past its target and waits for its line; records released in the active module are released, their tickets COMPLETE. Marks of the partner are kept while pending. A journalled DMA CFG write is staged, a journalled command stages without a reply, and an entry that cannot be applied returns the module to PAIRING. Equal digests are noted; a mismatch resynchronises the passive module and makes the active one name a strip; the digest of strip j returns it to PASSIVE. A snapshot is kept until its strip and then replaces the region table and window; one 20 ms late returns it to PAIRING. Modules that are not passive ignore all of this. -/
def Obligations.MirrorStream : Prop :=
  (∀ o, Exactly (.jmOffsetEcho · o) mirrors (pairWith fun p => { p with jmOffset := o })) ∧
  (∀ o, Exactly (.jmOffsetEcho · o) (fun s => isPortUp (vget s.ring.ports 2).state = false) id) ∧
  (∀ a b, Exactly (.mirrorPosRx · a b) (fun s => mirrors s ∧ isPassive s = false) id) ∧
  (∀ a b : Int, (a - b).natAbs ≤ 131072 → Exactly (.mirrorPosRx · a b) (fun s => mirrors s ∧ s.pair.role = .passive)
    (fun s => { s with gauge := { s.gauge with webPos := s.gauge.webPos + (a - b) } })) ∧
  (∀ a b : Int, 131072 < (a - b).natAbs → Happens (.mirrorPosRx · a b) (fun s => mirrors s ∧ s.pair.role = .passive)
    (fun s => pairWith (fun p => { p with posResyncs := wrap32 (p.posResyncs + 1) })
      { s with gauge := { s.gauge with webPos := s.gauge.webPos + (a - b) } }) [0x3EB] noPuts) ∧
  (∀ n, ∀ m : Mark, n < 4 → (m.state = .complete ∨ m.state = .failed) → Exactly (.mirrorMarksRx · n m) (fun s => mirrors s ∧ s.pair.partnerMarks = [⟨n, m⟩])
    (pairWith fun p => { p with partnerMarks := [] })) ∧
  (∀ n, ∀ m : Mark, n < 4 → m.state ≠ .complete → m.state ≠ .failed → Exactly (.mirrorMarksRx · n m) (fun s => mirrors s ∧ s.pair.partnerMarks = [])
    (pairWith fun p => { p with partnerMarks := [⟨n, m⟩] })) ∧
  (∀ n m, 4 ≤ n → Exactly (.mirrorMarksRx · n m) mirrors id) ∧
  (∀ k crc, Exactly (.mirrorDigestRx · k crc) (fun s => mirrors s ∧ s.pair.theirs = [] ∧ ∀ d ∈ s.pair.digests, d.1 ≠ k)
    (pairWith fun p => { p with theirs := [(k, crc)] })) ∧
  (∀ k crc, Exactly (.mirrorDigestRx · k crc) (fun s => mirrors s ∧ s.pair.role = .passive ∧ s.pair.digests = [(k, crc)] ∧ s.pair.atStrip ≠ some k)
    (pairWith fun p => { p with lastDigest := k })) ∧
  (∀ k crc own, crc ≠ own → Happens (.mirrorDigestRx · k crc) (fun s => mirrors s ∧ s.pair.role = .passive ∧ s.pair.digests = [(k, own)])
    (fun s => pairWith (fun p => { p with role := .passiveResync, cause := .digest }) (mismatched k s)) [0x3E7, 0x3E6] noPuts) ∧
  (∀ k crc own, crc ≠ own → Exactly (.mirrorDigestRx · k crc)
    (fun s => mirrors s ∧ s.pair.role = .active ∧ s.pair.digests = [(k, own)] ∧ s.pair.atStrip = none)
    (fun s => pairWith (fun p => { p with resyncFrom := k, atStrip := some (stripAhead s 3), resyncSince := none, snapshot := none }) s)) ∧
  (∀ (t k crc : Nat) (s : State), s.Inv → mirrors s → s.pair.role = .passiveResync → s.pair.digests = [(k, crc)] → s.pair.atStrip = some k →
    later32 (stripFirst (cfgNow s).shift k) (stripFirst (cfgNow s).shift k) = false → (∀ v : Nat, v < 8 → (vget s.views v).cur = none ∧
      (vget s.views v).waiting = [] ∧ (vget s.views v).sending = none) →
    Next (.mirrorDigestRx t k crc) s fun r =>
      r.pair.role = .passive ∧ r.pair.cause = .resumed ∧ r.pair.atStrip = none ∧ r.pair.resyncs = wrap32 (s.pair.resyncs + 1) ∧
      bitOf r.host.evt.pending 0x3E8 = true ∧ bitOf r.host.evt.pending 0x3E6 = true ∧ (vget r.links.through 0).relaySource = true ∧
      (vget r.links.through 1).relaySource = true ∧ r.ring.relays = [] ∧ r.scribe = s.scribe ∧ r.bench.mem = s.bench.mem) ∧
  (∀ e, Exactly (.mirrorJournalRx · e) (fun s => mirrors s ∧ isPassive s = false) id) ∧
  (∀ ch timer v, ch < 64 → badDmaCfg timer v = false → Exactly (.mirrorJournalRx · (.dmaCfg ch timer v)) (fun s => mirrors s ∧ s.pair.role = .passive)
    (fun s => pairWith (fun p => { p with journalEntries := wrap32 (p.journalEntries + 1) })
      { s with staged := setDmaStaged ch timer v s.staged, stageGen := wrap32 (s.stageGen + 1) })) ∧
  (∀ ch timer v, (64 ≤ ch ∨ badDmaCfg timer v = true) → Happens (.mirrorJournalRx · (.dmaCfg ch timer v))
    (fun s => mirrors s ∧ s.pair.role = .passive ∧ s.gauge.trigEnabled = false ∧ s.pair.switchTicket = none)
    (fun s => pairWith (fun p => { p with journalEntries := wrap32 (p.journalEntries + 1) }) (rejoins .journal s)) [0x3E6] noPuts) ∧
  (∀ (t line : Nat) (c : HostCmd) (s : State), s.Inv → mirrors s → s.pair.role = .passive → badTime c.params = none → s.ring.prepared = none →
    conflictOf (claimsOf { s.staged with time := parTime c.params } s.marq.shadow.region) (runningClaims s) s.claims 0x0E00 0 = none →
    Next (.mirrorJournalRx t (.command 0x0E00 c line)) s fun r =>
      r.staged = { s.staged with time := parTime c.params } ∧ r.stageGen = wrap32 (s.stageGen + 1) ∧ r.pair.role = .passive ∧
      r.pair.journalEntries = wrap32 (s.pair.journalEntries + 1) ∧ r.host.rings = s.host.rings ∧ r.ledger = s.ledger ∧ r.cmds = s.cmds ∧
      r.running = s.running ∧ r.bench.mem = s.bench.mem) ∧
  (∀ q rel rd mk, Exactly (.mirrorLedgerRx · q rel rd mk) (fun s => mirrors s ∧ (isPassive s = false ∨ 16 ≤ q)) id) ∧
  (∀ q rel rd mk, q < 16 → Exactly (.mirrorLedgerRx · q rel rd mk)
    (fun s => mirrors s ∧ s.pair.role = .passive ∧ ((vget s.scribe.queues q).on = false ∨
      (vget s.scribe.queues q).rel = rel ∧ later32 rel (vget s.scribe.queues q).rd = false ∧ later32 rel rel = false))
    (pairWith fun p => { p with ledger := (q, rd, mk) :: p.ledger.filter fun e => decide (e.1 ≠ q) })) ∧
  (∀ (t q n rd mk : Nat) (s : State) (l : LiveRec), s.Inv → mirrors s → s.pair.role = .passive → q < 16 → (vget s.scribe.queues q).on = true →
    (vget s.scribe.queues q).live = [l] → l.seq = n → n + 1 < 4294967296 → (vget s.scribe.queues q).rel = n → (vget s.scribe.queues q).rd = n →
    (vget s.scribe.queues q).threshold = 0 → (vget s.scribe.queues q).patches = [] → l.patchTicket = none → ticketLive s.ledger l.ticket = true →
    Next (.mirrorLedgerRx t q (n + 1) rd mk) s fun r =>
      (vget r.scribe.queues q).live = [] ∧ (vget r.scribe.queues q).rel = n + 1 ∧ (vget r.scribe.queues q).rd = n + 1 ∧
      ticketLive r.ledger l.ticket = false ∧ r.ledger.complete = s.ledger.complete + 1 ∧ r.bench.mem = s.bench.mem) ∧
  (∀ tag, Exactly (.mirrorTagRx · tag) (fun s => mirrors s ∧ (isPassive s = false ∨ 24 ≤ tag.slot)) id) ∧
  (∀ (t : Nat) (s : State) (tag : TrigTag), s.Inv → mirrors s → noStop s → s.pair.role = .passive → tag.slot < 24 → s.gauge.startPending = false →
    s.gauge.lastLine = some tag.line → ingestOn (cfgAt s tag.line) tag.slot = true → tag.skipBefore = false →
    (vget s.ingest.slots tag.slot).relayFrom = none → (vget s.ingest.slots tag.slot).outstanding.length < 8 →
    (vget s.ingest.slots tag.slot).unmatched = [] → lineLayout (cfgAt s tag.line) (tag.slot / 2) = vget s.ingest.layout (tag.slot / 2) →
    readyHeld tag.slot tag.line s → ((vget s.ingest.slots tag.slot).nextReady.all fun k => ingestOn (cfgAt s k) tag.slot) = true → fieldsOf (cfgAt s tag.line) = 1 →
    Next (.mirrorTagRx t tag) s fun r =>
      (vget r.ingest.slots tag.slot).outstanding = (vget s.ingest.slots tag.slot).outstanding ++ [{ tag := tag }] ∧
      (vget r.ingest.slots tag.slot).prevTag = some (tag.line, tag.field) ∧ (tag.field = 0 → (vget r.gauge.slots tag.slot).nextLine = wrap32 (tag.line + 1)) ∧
      (∀ i : Nat, i < 24 → i ≠ tag.slot → vget r.ingest.slots i = vget s.ingest.slots i ∧ vget r.gauge.slots i = vget s.gauge.slots i) ∧
      r.gauge.lastLine = s.gauge.lastLine ∧ r.bench.mem = s.bench.mem ∧ r.ledger = s.ledger) ∧
  (∀ n, Exactly (.resyncSnapshotRx · n) (fun s => mirrors s ∧ (isPassive s = false ∨ s.pair.role = .passive)) id) ∧
  (∀ n, Exactly (.resyncSnapshotRx · n) (fun s => mirrors s ∧ s.pair.role = .passiveResync ∧ s.marq.last = none)
    (pairWith fun p => { p with snapshot := some n, atStrip := some n.strip, resyncSince := none })) ∧
  (∀ n k, Exactly (.resyncSnapshotRx · n)
    (fun s => mirrors s ∧ s.pair.role = .passiveResync ∧ s.marq.last = some k ∧
      wrap32 (k + 1) = stripFirst (cfgAt s (wrap32 (k + 1))).shift n.strip ∧ ∀ q : Nat, q < 16 → (vget s.scribe.queues q).on = false)
    (fun s => pairWith (fun p => { p with snapshot := none, atStrip := some n.strip, resyncSince := none })
      { s with marq := { s.marq with regions := n.regions, gens := n.gens, window := n.window } })) ∧
  (∀ a, Happens (.resyncTimeout ·)
    (fun s => up s ∧ s.glue = none ∧ s.pair.role = .passiveResync ∧ s.pair.snapshot = none ∧ s.pair.resyncSince = some a ∧ a + 20000000 ≤ s.now ∧
      s.gauge.trigEnabled = false ∧ s.pair.switchTicket = none)
    (rejoins .snapshotLate) [0x3E6] noPuts) ∧
  Exactly (.resyncTimeout ·)
    (fun s => s.glue = none ∧ s.pair.work = [] ∧ s.pair.snapshot = none ∧ (isPassive s = false ∨ s.now < s.pair.resyncSince.getD s.now + 20000000)) id

/-- While triggering runs, GLUEUP of a fitted generation is accepted with its effective strip, the current + 3 or EARLIEST_STRIP: a glue-up of the staged configuration is pending under its ticket from that strip's first line, and the running configuration is as it was. It is refused busy, not staged, not fitted, in a wrong state or out of range in that order. A gateway keeps each module's answer; the last one commits, with the latest strip + 3, in every module; a refusal, or 1 ms without an answer, releases every module, and nothing is committed. -/
def Obligations.GlueUpCommands : Prop :=
  (∀ (t : Nat) (c : HostCmd) (s : State), Ready specGlueup c s → acceptsMore s → gluesFree s → noneHeld s → s.pair.role = .solo → nothingStaged s = false →
    fitted s (glueGen c s) = true → s.gauge.trigEnabled = true → s.staged.shift = (cfgNow s).shift → rtCollision s = none →
    (bitOf (u8 c.params 4) 0 = false ∨ sdiff32 (u32 c.params 8) s.gauge.lastStrip ≤ 65536) →
    Next (.glueup t c) s fun r =>
      Accepts 0x0201 (le 4 (effectiveStrip c s) ++ le 4 s.stageGen ++ zeros 4) c s r ∧
      r.glue.map (·.next) = some s.staged ∧ r.glue.map (·.strip) = some (effectiveStrip c s) ∧
      r.glue.map (·.first) = some (some (stripFirst s.staged.shift (effectiveStrip c s))) ∧ r.glue.map (·.gen) = some s.stageGen ∧
      r.glue.map (·.ticket) = some (nextTicket s) ∧ r.running = s.running ∧ r.staged = s.staged ∧ r.stageGen = s.stageGen) ∧
  Refuses .glueup specGlueup (fun _ s => s.glue.isSome = true) stBusy (fun _ _ => busyBody 2 0) ∧
  Refuses .glueup specGlueup (fun _ s => s.glue = none ∧ s.ring.prepared.isSome = true) stBusy (fun _ _ => busyBody 5 0) ∧
  Refuses .glueup specGlueup (fun _ s => gluesFree s ∧ nothingStaged s = true) stNotStaged (fun _ _ => zeros 8) ∧
  Refuses .glueup specGlueup (fun c s => gluesFree s ∧ nothingStaged s = false ∧ fitted s (glueGen c s) = false) stNotFitted
    (fun _ s => le 4 s.stageGen ++ le 4 (s.dryfit.getD {}).gen) ∧
  Refuses .glueup specGlueup (fun c s => gluesFree s ∧ nothingStaged s = false ∧ fitted s (glueGen c s) = true ∧ s.gauge.trigEnabled = true ∧
    s.staged.shift ≠ (cfgNow s).shift) stWrongState (fun _ _ => zeros 8) ∧
  Refuses .glueup specGlueup (fun c s => gluesFree s ∧ nothingStaged s = false ∧ fitted s (glueGen c s) = true ∧ s.gauge.trigEnabled = true ∧
    s.staged.shift = (cfgNow s).shift ∧ rtCollision s = none ∧ bitOf (u8 c.params 4) 0 = true ∧
    65536 < sdiff32 (u32 c.params 8) s.gauge.lastStrip) stBadParam (fun _ _ => paramBody 8) ∧
  (∀ m status strip, Exactly (.glueupPrepareReply · m status strip) (fun s => s.ring.prepare = none) id) ∧
  (∀ m status strip, ∀ q : Prepare, Exactly (.glueupPrepareReply · m status strip) (fun s => s.ring.prepare = some q ∧ m ∉ q.waiting) id) ∧
  (∀ m m' status strip, ∀ ms : List Nat, ∀ q : Prepare, status < 0x8000 → q.waiting = m :: m' :: ms → Exactly (.glueupPrepareReply · m status strip)
    (fun s => up s ∧ s.ring.prepare = some q)
    (fun s => { s with ring := { s.ring with prepare := some { q with waiting := m' :: ms, prepared := q.prepared ++ [(m, strip)] } } })) ∧
  (∀ (t m status strip own : Nat) (s : State) (q : Prepare), s.Inv → up s → status < 0x8000 → s.ring.prepare = some q → q.waiting = [m] →
    q.prepared = [(own, s.gauge.lastStrip)] → s.ring.moduleId = own → m ≠ own → q.earliest = none → s.glue = none → noneHeld s → s.pair.role = .solo →
    s.gauge.trigEnabled = true → later32 strip s.gauge.lastStrip = true → later32 s.gauge.lastStrip s.gauge.lastStrip = false →
    Next (.glueupPrepareReply t m status strip) s fun r =>
      r.glue.map (·.next) = some s.staged ∧ r.glue.map (·.strip) = some (wrap32 (strip + 3)) ∧
      r.glue.map (·.first) = some (some (stripFirst s.staged.shift (wrap32 (strip + 3)))) ∧ Emit.commit m (wrap32 (strip + 3)) ∈ r.emit ∧
      r.ring.prepare = none ∧ r.ring.prepared = none ∧ r.running = s.running ∧ r.staged = s.staged) ∧
  (∀ (t m status strip own : Nat) (s : State) (q : Prepare), s.Inv → up s → 0x8000 ≤ status → s.ring.prepare = some q → q.waiting = [m] →
    q.prepared = [(own, s.gauge.lastStrip)] → s.ring.moduleId = own → m ≠ own → ticketLive s.ledger q.ticket = true →
    Next (.glueupPrepareReply t m status strip) s fun r =>
      r.ring.prepare = none ∧ r.ring.prepared = none ∧ r.glue = s.glue ∧ r.ledger.failed = s.ledger.failed + 1 ∧
      ticketLive r.ledger q.ticket = false ∧ r.staged = s.staged ∧ r.running = s.running ∧ r.stageGen = s.stageGen ∧ r.bench.mem = s.bench.mem) ∧
  (∀ q : Prepare, Exactly (.glueupPrepareTimeout ·) (fun s => s.ring.prepare = some q ∧ s.now < q.sentAt + 1000000) id) ∧
  Exactly (.glueupPrepareTimeout ·) (fun s => s.ring.prepare = none) id ∧
  (∀ (t m own : Nat) (s : State) (q : Prepare), s.Inv → up s → s.ring.prepare = some q → q.waiting = [m] → q.sentAt + 1000000 ≤ max s.now t →
    q.prepared = [(own, s.gauge.lastStrip)] → s.ring.moduleId = own → m ≠ own → ticketLive s.ledger q.ticket = true →
    Next (.glueupPrepareTimeout t) s fun r =>
      r.ring.prepare = none ∧ r.ring.prepared = none ∧ r.glue = s.glue ∧ Emit.release m ∈ r.emit ∧ r.ledger.failed = s.ledger.failed + 1 ∧
      ticketLive r.ledger q.ticket = false ∧ r.staged = s.staged ∧ r.running = s.running ∧ r.stageGen = s.stageGen ∧ r.bench.mem = s.bench.mem)
end

