-- ==== Sys2Proof/Laws/Bytes.lean ====
section
/-! SUPPORT. Lengths of the byte fields that replies and records are built from. -/

namespace Sys2Proof.Machine

@[simp] theorem le_length (n v : Nat) : (le n v).length = n := by
  induction n generalizing v with
  | zero => rfl
  | succ n ih => simp [le, ih]

@[simp] theorem leI_length (n : Nat) (v : Int) : (leI n v).length = n := le_length _ _

@[simp] theorem zeros_length (n : Nat) : (zeros n).length = n := by simp [zeros]

@[simp] theorem slice_length (p : Bytes) (a n : Nat) : (slice p a n).length = n := by simp [slice]

@[simp] theorem padTo_length (n : Nat) (p : Bytes) : (padTo n p).length = n := by
  simp only [padTo, List.length_append, List.length_take, zeros_length]
  omega

/-- Entries of one length each. -/
theorem flatMap_length {α : Type} {k : Nat} {l : List α} {f : α → Bytes} (h : ∀ a ∈ l, (f a).length = k) : (l.flatMap f).length = l.length * k := by
  induction l with
  | nil => simp
  | cons a l ih =>
    rw [List.flatMap_cons, List.length_append, h a (by simp), ih fun b hb => h b (by simp [hb]), List.length_cons]
    ring

end Sys2Proof.Machine
end

