-- ==== Sys2Proof/Laws/Frame.lean ====
section
/-! SUPPORT. What the shared operations leave as it was: events, tickets and replies stay within ReplyFrame, and compose. -/

namespace Sys2Proof.Machine

theorem OutFrame.refl (s : State) : OutFrame s s := rfl

theorem OutFrame.trans {s r q : State} (h : OutFrame s r) (h' : OutFrame r q) : OutFrame s q := by
  unfold OutFrame at *
  rw [h] at h'
  exact h'

/-- `trans` with its second step first, so that the first can be `rfl`. -/
theorem OutFrame.after {s r q : State} (h' : OutFrame r q) (h : OutFrame s r) : OutFrame s q := h.trans h'

theorem ReplyFrame.refl (s : State) : ReplyFrame s s := rfl

theorem ReplyFrame.trans {s r q : State} (h : ReplyFrame s r) (h' : ReplyFrame r q) : ReplyFrame s q := by
  unfold ReplyFrame at *
  rw [h] at h'
  exact h'

theorem ReplyFrame.after {s r q : State} (h' : ReplyFrame r q) (h : ReplyFrame s r) : ReplyFrame s q := h.trans h'

theorem OutFrame.reply {s r : State} (h : OutFrame s r) : ReplyFrame s r := by
  unfold OutFrame at h
  unfold ReplyFrame
  rw [h]

theorem out_frame (e : Emit) (s : State) : OutFrame s (out e s) := rfl

theorem sendMsix_frame (v : Nat) (s : State) : OutFrame s (sendMsix v s) := by
  unfold sendMsix
  simp only
  split
  · rfl
  · split <;> rfl

theorem signalVector_frame (v : Nat) (s : State) : OutFrame s (signalVector v s) := by
  unfold signalVector
  split
  · exact (sendMsix_frame v _).after rfl
  · rfl

theorem writeEvent_frame (src : Nat) (a b : Int) (t : Nat) (s : State) : OutFrame s (writeEvent src a b t s) := by
  unfold writeEvent
  simp only
  split
  · rfl
  · split <;> rfl

theorem deliverEvent_frame (src : Nat) (a b : Int) (t : Nat) (s : State) : OutFrame s (deliverEvent src a b t s) := by
  unfold deliverEvent
  simp only
  split
  · rfl
  · exact (signalVector_frame _ _).after ((writeEvent_frame _ _ _ _ _).after rfl)

theorem latchEvent_frame (src : Nat) (a b : Int) (s : State) : OutFrame s (latchEvent src a b s) := by
  unfold latchEvent
  split <;> rfl

theorem raise_frame (src : Nat) (a b : Int) (s : State) : OutFrame s (raise src a b s) := by
  unfold raise
  split
  · exact deliverEvent_frame _ _ _ _ _
  · exact latchEvent_frame _ _ _ _

theorem raiseOnce_frame (src : Nat) (a b : Int) (s : State) : OutFrame s (raiseOnce src a b s) := by
  unfold raiseOnce
  split
  · rfl
  · exact (raise_frame _ _ _ _).after rfl

theorem tick_frame (t : Nat) {s : State} (h : s.Inv) : OutFrame s (tick t s) := by
  have hb : { s.bench with writes := [], emptied := [] } = s.bench := by rw [← h.writes, ← h.emptied]
  unfold OutFrame tick
  rw [hb]

end Sys2Proof.Machine
end

