-- ==== Sys2Proof/Laws/Reply.lean ====
section
/-! SUPPORT. Tickets and replies stay within ReplyFrame, and what the next reply of a ring puts out. -/

namespace Sys2Proof.Machine

theorem setRing_frame (n : Nat) (f : RingPair → RingPair) (s : State) : ReplyFrame s (setRing n f s) := rfl

theorem dropCmd_frame (w : Nat) (s : State) : ReplyFrame s (dropCmd w s) := rfl

theorem decideTicket_frame (w code : Nat) (s : State) : ReplyFrame s (decideTicket w code s) := by
  unfold decideTicket
  simp only
  split
  · rfl
  · split
    · exact (raise_frame _ _ _ _).reply.after rfl
    · rfl

theorem reportTicket_frame (w : Nat) (s : State) : ReplyFrame s (reportTicket w s) := by
  unfold reportTicket
  simp only
  split <;> rfl

theorem issueTicket_frame {s s' : State} {w : Nat} (h : issueTicket s = some (w, s')) : ReplyFrame s s' := by
  unfold issueTicket at h
  simp only at h
  split at h
  · cases h
  · simp only [Option.some.injEq, Prod.mk.injEq] at h
    rw [← h.2]
    split
    · exact (raiseOnce_frame _ _ _ _).reply.after rfl
    · rfl

theorem writeReply_frame (n : Nat) (irq : Bool) (bytes : Bytes) (s : State) : ReplyFrame s (writeReply n irq bytes s) := by
  unfold writeReply
  simp only
  split <;> split
  all_goals first | exact (raise_frame _ _ _ _).reply.after rfl | rfl

theorem drainPosts_frame (n : Nat) (l : List PostEntry) (hold : Nat) (s : State) : ReplyFrame s (drainPosts n l hold s).2 := by
  induction l generalizing hold s with
  | nil => rfl
  | cons e l ih =>
    cases e with
    | waiting t => unfold drainPosts; exact ih _ _
    | ready t irq bytes =>
      unfold drainPosts
      simp only
      split
      · exact ih _ _
      · exact (ih _ _).after ((reportTicket_frame _ _).after (writeReply_frame _ _ _ _))

theorem flushRing_frame (n : Nat) (s : State) : ReplyFrame s (flushRing n s) := by
  unfold flushRing
  simp only
  split
  · rfl
  · exact (setRing_frame _ _ _).after ((drainPosts_frame _ _ _ _).after rfl)

theorem postReply_frame (n w : Nat) (irq : Bool) (bytes : Bytes) (s : State) : ReplyFrame s (postReply n w irq bytes s) :=
  (flushRing_frame _ _).after rfl

theorem collectAnswer_frame (w m status : Nat) (body : Bytes) (s : State) : ReplyFrame s (collectAnswer w m status body s) := by
  unfold collectAnswer
  split
  · rfl
  · split
    · rfl
    · simp only
      split
      · rfl
      · exact (postReply_frame _ _ _ _ _).after ((decideTicket_frame _ _ _).after rfl)

theorem sendReply_frame (r : CmdRec) (status rflags : Nat) (body : Bytes) (s : State) : ReplyFrame s (sendReply r status rflags body s) := by
  unfold sendReply
  split
  · rfl
  · split
    · split
      · exact collectAnswer_frame _ _ _ _ _
      · rfl
    · exact postReply_frame _ _ _ _ _

theorem answer_frame (r : CmdRec) (status : Nat) (body : Bytes) (s : State) :
    ReplyFrame { s with stageGen := (answer r status body s).stageGen } (answer r status body s) := by
  unfold answer
  split
  · have h := (sendReply_frame r status 0 body { dropCmd r.ticket s with cmds := (dropCmd r.ticket s).cmds ++ [{ r with accepted := true }] }).after
      (s := s) rfl
    have hg := congrArg State.stageGen h
    simp only at hg
    unfold ReplyFrame at h ⊢
    simp only
    rw [hg]
    exact h
  · simp only
    split
    · have h := (sendReply_frame r status 0 body { decideTicket r.ticket (ticketCode status) (dropCmd r.ticket s) with
        stageGen := wrap32 ((decideTicket r.ticket (ticketCode status) (dropCmd r.ticket s)).stageGen + 1) }).after
        (s := { s with stageGen := wrap32 ((decideTicket r.ticket (ticketCode status) (dropCmd r.ticket s)).stageGen + 1) }) (by
          have hd := (decideTicket_frame r.ticket (ticketCode status) (dropCmd r.ticket s)).after (s := s) rfl
          unfold ReplyFrame at hd ⊢
          rw [hd])
      have hg := congrArg State.stageGen h
      simp only at hg
      unfold ReplyFrame at h ⊢
      simp only
      rw [hg]
      exact h
    · have h := (sendReply_frame r status 0 body (decideTicket r.ticket (ticketCode status) (dropCmd r.ticket s))).after
        (s := s) ((decideTicket_frame _ _ _).after rfl)
      have hg := congrArg State.stageGen h
      simp only at hg
      unfold ReplyFrame at h ⊢
      simp only
      rw [hg]
      exact h

end Sys2Proof.Machine
end

