-- ==== Sys2Proof/Laws/Fields.lean ====
section
/-! SUPPORT. What the frames keep, field by field. -/

namespace Sys2Proof.Machine

theorem OutFrame.free {s r : State} (h : OutFrame s r) : r.free = s.free := by
  unfold OutFrame at h
  rw [h]
theorem OutFrame.staged {s r : State} (h : OutFrame s r) : r.staged = s.staged := by
  unfold OutFrame at h
  rw [h]
theorem OutFrame.running {s r : State} (h : OutFrame s r) : r.running = s.running := by
  unfold OutFrame at h
  rw [h]
theorem OutFrame.prev {s r : State} (h : OutFrame s r) : r.prev = s.prev := by
  unfold OutFrame at h
  rw [h]
theorem OutFrame.glue {s r : State} (h : OutFrame s r) : r.glue = s.glue := by
  unfold OutFrame at h
  rw [h]
theorem OutFrame.stageGen {s r : State} (h : OutFrame s r) : r.stageGen = s.stageGen := by
  unfold OutFrame at h
  rw [h]
theorem OutFrame.dryfit {s r : State} (h : OutFrame s r) : r.dryfit = s.dryfit := by
  unfold OutFrame at h
  rw [h]
theorem OutFrame.dryfitRun {s r : State} (h : OutFrame s r) : r.dryfitRun = s.dryfitRun := by
  unfold OutFrame at h
  rw [h]
theorem OutFrame.glueCount {s r : State} (h : OutFrame s r) : r.glueCount = s.glueCount := by
  unfold OutFrame at h
  rw [h]
theorem OutFrame.ledger {s r : State} (h : OutFrame s r) : r.ledger = s.ledger := by
  unfold OutFrame at h
  rw [h]
theorem OutFrame.cmds {s r : State} (h : OutFrame s r) : r.cmds = s.cmds := by
  unfold OutFrame at h
  rw [h]
theorem OutFrame.claims {s r : State} (h : OutFrame s r) : r.claims = s.claims := by
  unfold OutFrame at h
  rw [h]
theorem OutFrame.spans {s r : State} (h : OutFrame s r) : r.spans = s.spans := by
  unfold OutFrame at h
  rw [h]
theorem OutFrame.gauge {s r : State} (h : OutFrame s r) : r.gauge = s.gauge := by
  unfold OutFrame at h
  rw [h]
theorem OutFrame.links {s r : State} (h : OutFrame s r) : r.links = s.links := by
  unfold OutFrame at h
  rw [h]
theorem OutFrame.ingest {s r : State} (h : OutFrame s r) : r.ingest = s.ingest := by
  unfold OutFrame at h
  rw [h]
theorem OutFrame.plane {s r : State} (h : OutFrame s r) : r.plane = s.plane := by
  unfold OutFrame at h
  rw [h]
theorem OutFrame.dovetail {s r : State} (h : OutFrame s r) : r.dovetail = s.dovetail := by
  unfold OutFrame at h
  rw [h]
theorem OutFrame.marq {s r : State} (h : OutFrame s r) : r.marq = s.marq := by
  unfold OutFrame at h
  rw [h]
theorem OutFrame.scribe {s r : State} (h : OutFrame s r) : r.scribe = s.scribe := by
  unfold OutFrame at h
  rw [h]
theorem OutFrame.prof {s r : State} (h : OutFrame s r) : r.prof = s.prof := by
  unfold OutFrame at h
  rw [h]
theorem OutFrame.views {s r : State} (h : OutFrame s r) : r.views = s.views := by
  unfold OutFrame at h
  rw [h]
theorem OutFrame.comp {s r : State} (h : OutFrame s r) : r.comp = s.comp := by
  unfold OutFrame at h
  rw [h]
theorem OutFrame.bench {s r : State} (h : OutFrame s r) : r.bench = s.bench := by
  unfold OutFrame at h
  rw [h]
theorem OutFrame.dma {s r : State} (h : OutFrame s r) : r.dma = s.dma := by
  unfold OutFrame at h
  rw [h]
theorem OutFrame.axes {s r : State} (h : OutFrame s r) : r.axes = s.axes := by
  unfold OutFrame at h
  rw [h]
theorem OutFrame.ring {s r : State} (h : OutFrame s r) : r.ring = s.ring := by
  unfold OutFrame at h
  rw [h]
theorem OutFrame.pair {s r : State} (h : OutFrame s r) : r.pair = s.pair := by
  unfold OutFrame at h
  rw [h]
theorem OutFrame.faults {s r : State} (h : OutFrame s r) : r.faults = s.faults := by
  unfold OutFrame at h
  rw [h]
theorem OutFrame.boot {s r : State} (h : OutFrame s r) : r.boot = s.boot := by
  unfold OutFrame at h
  rw [h]
theorem OutFrame.pace {s r : State} (h : OutFrame s r) : r.pace = s.pace := by
  unfold OutFrame at h
  rw [h]
theorem OutFrame.sense {s r : State} (h : OutFrame s r) : r.sense = s.sense := by
  unfold OutFrame at h
  rw [h]
theorem OutFrame.cages {s r : State} (h : OutFrame s r) : r.cages = s.cages := by
  unfold OutFrame at h
  rw [h]
theorem OutFrame.heldOut {s r : State} (h : OutFrame s r) : r.heldOut = s.heldOut := by
  unfold OutFrame at h
  rw [h]
theorem OutFrame.pending {s r : State} (h : OutFrame s r) : r.pending = s.pending := by
  unfold OutFrame at h
  rw [h]
theorem OutFrame.hf_fabric {s r : State} (h : OutFrame s r) : r.hf.fabric = s.hf.fabric := by
  unfold OutFrame at h
  rw [h]
theorem OutFrame.ring_moduleId {s r : State} (h : OutFrame s r) : r.ring.moduleId = s.ring.moduleId := by
  unfold OutFrame at h
  rw [h]
theorem OutFrame.ring_prepared {s r : State} (h : OutFrame s r) : r.ring.prepared = s.ring.prepared := by
  unfold OutFrame at h
  rw [h]
theorem OutFrame.ring_enumerated {s r : State} (h : OutFrame s r) : r.ring.enumerated = s.ring.enumerated := by
  unfold OutFrame at h
  rw [h]
theorem OutFrame.ring_modules {s r : State} (h : OutFrame s r) : r.ring.modules = s.ring.modules := by
  unfold OutFrame at h
  rw [h]
theorem OutFrame.pair_role {s r : State} (h : OutFrame s r) : r.pair.role = s.pair.role := by
  unfold OutFrame at h
  rw [h]
theorem OutFrame.pair_chosen {s r : State} (h : OutFrame s r) : r.pair.chosen = s.pair.chosen := by
  unfold OutFrame at h
  rw [h]
theorem OutFrame.rings {s r : State} (h : OutFrame s r) : r.host.rings = s.host.rings := by
  unfold OutFrame at h
  rw [h]

theorem ReplyFrame.free {s r : State} (h : ReplyFrame s r) : r.free = s.free := by
  unfold ReplyFrame at h
  rw [h]
theorem ReplyFrame.staged {s r : State} (h : ReplyFrame s r) : r.staged = s.staged := by
  unfold ReplyFrame at h
  rw [h]
theorem ReplyFrame.running {s r : State} (h : ReplyFrame s r) : r.running = s.running := by
  unfold ReplyFrame at h
  rw [h]
theorem ReplyFrame.prev {s r : State} (h : ReplyFrame s r) : r.prev = s.prev := by
  unfold ReplyFrame at h
  rw [h]
theorem ReplyFrame.glue {s r : State} (h : ReplyFrame s r) : r.glue = s.glue := by
  unfold ReplyFrame at h
  rw [h]
theorem ReplyFrame.stageGen {s r : State} (h : ReplyFrame s r) : r.stageGen = s.stageGen := by
  unfold ReplyFrame at h
  rw [h]
theorem ReplyFrame.dryfit {s r : State} (h : ReplyFrame s r) : r.dryfit = s.dryfit := by
  unfold ReplyFrame at h
  rw [h]
theorem ReplyFrame.dryfitRun {s r : State} (h : ReplyFrame s r) : r.dryfitRun = s.dryfitRun := by
  unfold ReplyFrame at h
  rw [h]
theorem ReplyFrame.glueCount {s r : State} (h : ReplyFrame s r) : r.glueCount = s.glueCount := by
  unfold ReplyFrame at h
  rw [h]
theorem ReplyFrame.claims {s r : State} (h : ReplyFrame s r) : r.claims = s.claims := by
  unfold ReplyFrame at h
  rw [h]
theorem ReplyFrame.spans {s r : State} (h : ReplyFrame s r) : r.spans = s.spans := by
  unfold ReplyFrame at h
  rw [h]
theorem ReplyFrame.gauge {s r : State} (h : ReplyFrame s r) : r.gauge = s.gauge := by
  unfold ReplyFrame at h
  rw [h]
theorem ReplyFrame.links {s r : State} (h : ReplyFrame s r) : r.links = s.links := by
  unfold ReplyFrame at h
  rw [h]
theorem ReplyFrame.ingest {s r : State} (h : ReplyFrame s r) : r.ingest = s.ingest := by
  unfold ReplyFrame at h
  rw [h]
theorem ReplyFrame.plane {s r : State} (h : ReplyFrame s r) : r.plane = s.plane := by
  unfold ReplyFrame at h
  rw [h]
theorem ReplyFrame.dovetail {s r : State} (h : ReplyFrame s r) : r.dovetail = s.dovetail := by
  unfold ReplyFrame at h
  rw [h]
theorem ReplyFrame.marq {s r : State} (h : ReplyFrame s r) : r.marq = s.marq := by
  unfold ReplyFrame at h
  rw [h]
theorem ReplyFrame.scribe {s r : State} (h : ReplyFrame s r) : r.scribe = s.scribe := by
  unfold ReplyFrame at h
  rw [h]
theorem ReplyFrame.prof {s r : State} (h : ReplyFrame s r) : r.prof = s.prof := by
  unfold ReplyFrame at h
  rw [h]
theorem ReplyFrame.views {s r : State} (h : ReplyFrame s r) : r.views = s.views := by
  unfold ReplyFrame at h
  rw [h]
theorem ReplyFrame.comp {s r : State} (h : ReplyFrame s r) : r.comp = s.comp := by
  unfold ReplyFrame at h
  rw [h]
theorem ReplyFrame.bench {s r : State} (h : ReplyFrame s r) : r.bench = s.bench := by
  unfold ReplyFrame at h
  rw [h]
theorem ReplyFrame.dma {s r : State} (h : ReplyFrame s r) : r.dma = s.dma := by
  unfold ReplyFrame at h
  rw [h]
theorem ReplyFrame.axes {s r : State} (h : ReplyFrame s r) : r.axes = s.axes := by
  unfold ReplyFrame at h
  rw [h]
theorem ReplyFrame.faults {s r : State} (h : ReplyFrame s r) : r.faults = s.faults := by
  unfold ReplyFrame at h
  rw [h]
theorem ReplyFrame.boot {s r : State} (h : ReplyFrame s r) : r.boot = s.boot := by
  unfold ReplyFrame at h
  rw [h]
theorem ReplyFrame.pace {s r : State} (h : ReplyFrame s r) : r.pace = s.pace := by
  unfold ReplyFrame at h
  rw [h]
theorem ReplyFrame.sense {s r : State} (h : ReplyFrame s r) : r.sense = s.sense := by
  unfold ReplyFrame at h
  rw [h]
theorem ReplyFrame.cages {s r : State} (h : ReplyFrame s r) : r.cages = s.cages := by
  unfold ReplyFrame at h
  rw [h]
theorem ReplyFrame.heldOut {s r : State} (h : ReplyFrame s r) : r.heldOut = s.heldOut := by
  unfold ReplyFrame at h
  rw [h]
theorem ReplyFrame.pending {s r : State} (h : ReplyFrame s r) : r.pending = s.pending := by
  unfold ReplyFrame at h
  rw [h]
theorem ReplyFrame.hf_fabric {s r : State} (h : ReplyFrame s r) : r.hf.fabric = s.hf.fabric := by
  unfold ReplyFrame at h
  rw [h]
theorem ReplyFrame.ring_moduleId {s r : State} (h : ReplyFrame s r) : r.ring.moduleId = s.ring.moduleId := by
  unfold ReplyFrame at h
  rw [h]
theorem ReplyFrame.ring_prepared {s r : State} (h : ReplyFrame s r) : r.ring.prepared = s.ring.prepared := by
  unfold ReplyFrame at h
  rw [h]
theorem ReplyFrame.ring_enumerated {s r : State} (h : ReplyFrame s r) : r.ring.enumerated = s.ring.enumerated := by
  unfold ReplyFrame at h
  rw [h]
theorem ReplyFrame.ring_modules {s r : State} (h : ReplyFrame s r) : r.ring.modules = s.ring.modules := by
  unfold ReplyFrame at h
  rw [h]
theorem ReplyFrame.pair_role {s r : State} (h : ReplyFrame s r) : r.pair.role = s.pair.role := by
  unfold ReplyFrame at h
  rw [h]
theorem ReplyFrame.pair_chosen {s r : State} (h : ReplyFrame s r) : r.pair.chosen = s.pair.chosen := by
  unfold ReplyFrame at h
  rw [h]

end Sys2Proof.Machine
end

