-- ==== Sys2Proof/Laws/Tables.lean ====
section
/-! SUPPORT. Reading the fixed tables and sparse lists after a write. -/

namespace Sys2Proof.Machine

@[simp] theorem vget_vset_self {α : Type} [Inhabited α] {n : Nat} (v : Vector α n) (i : Nat) (x : α) (h : i < n) : vget (vset v i x) i = x := by
  simp [vget, vset, h]

theorem vget_vset_ne {α : Type} [Inhabited α] {n : Nat} (v : Vector α n) (i j : Nat) (x : α) (h : j ≠ i) : vget (vset v i x) j = vget v j := by
  simp only [vget, vset]
  rw [Vector.getElem?_setIfInBounds_ne (Ne.symm h)]

@[simp] theorem vget_vmod_self {α : Type} [Inhabited α] {n : Nat} (v : Vector α n) (i : Nat) (f : α → α) (h : i < n) :
    vget (vmod v i f) i = f (vget v i) := vget_vset_self _ _ _ h

theorem vget_vmod_ne {α : Type} [Inhabited α] {n : Nat} (v : Vector α n) (i j : Nat) (f : α → α) (h : j ≠ i) : vget (vmod v i f) j = vget v j :=
  vget_vset_ne _ _ _ _ h

end Sys2Proof.Machine
end

