-- ==== Sys2Proof/Laws/Posting.lean ====
section
/-! SUPPORT. A reply that is next in its ring is written at once: what it puts out, and how the ring and the ledger stand after it. -/

namespace Sys2Proof.Machine

/-! ### Outputs are only added -/

theorem out_emits (e : Emit) (s : State) : s.emit ⊆ (out e s).emit := by
  intro x h
  simp [out, h]

theorem sendMsix_emits (v : Nat) (s : State) : s.emit ⊆ (sendMsix v s).emit := by
  unfold sendMsix
  simp only
  split
  · exact fun _ h => h
  · split
    · exact fun _ h => h
    · exact out_emits _ _

theorem signalVector_emits (v : Nat) (s : State) : s.emit ⊆ (signalVector v s).emit := by
  unfold signalVector
  split
  · exact fun _ h => sendMsix_emits _ _ h
  · exact fun _ h => h

theorem writeEvent_emits (src : Nat) (a b : Int) (t : Nat) (s : State) : s.emit ⊆ (writeEvent src a b t s).emit := by
  unfold writeEvent
  simp only
  split
  · exact fun _ h => h
  · split
    · exact fun _ h => h
    · exact out_emits _ _

theorem raise_emits (src : Nat) (a b : Int) (s : State) : s.emit ⊆ (raise src a b s).emit := by
  unfold raise
  split
  · unfold deliverEvent
    simp only
    split
    · exact fun _ h => h
    · exact fun _ h => signalVector_emits _ _ (writeEvent_emits _ _ _ _ _ h)
  · unfold latchEvent
    split <;> exact fun _ h => h

theorem reportTicket_emits (w : Nat) (s : State) : s.emit ⊆ (reportTicket w s).emit := by
  unfold reportTicket
  simp only
  split <;> exact fun _ h => h

/-! ### What raising keeps -/

@[simp] theorem raise_rings (src : Nat) (a b : Int) (s : State) : (raise src a b s).host.rings = s.host.rings := by
  rw [raise_frame src a b s]
@[simp] theorem raise_ledger (src : Nat) (a b : Int) (s : State) : (raise src a b s).ledger = s.ledger := by
  rw [raise_frame src a b s]
@[simp] theorem raiseOnce_ledger (src : Nat) (a b : Int) (s : State) : (raiseOnce src a b s).ledger = s.ledger := by
  rw [raiseOnce_frame src a b s]
@[simp] theorem reportTicket_rings (w : Nat) (s : State) : (reportTicket w s).host.rings = s.host.rings := by
  unfold reportTicket
  simp only
  split <;> rfl
@[simp] theorem writeReply_ledger (n : Nat) (irq : Bool) (bytes : Bytes) (s : State) : (writeReply n irq bytes s).ledger = s.ledger := by
  unfold writeReply
  simp only
  split <;> split
  all_goals simp [setRing, out]

/-! ### One reply -/

theorem writeReply_puts (n : Nat) (irq : Bool) (bytes : Bytes) (s : State) :
    Emit.hostWrite ((vget s.host.rings n).rplBase + 64 * (vget s.host.rings n).rplProd)
      ((replyData (vget s.host.rings n).phase bytes).take (64 * ((vget s.host.rings n).rplSize - (vget s.host.rings n).rplProd))) false ∈
      (writeReply n irq bytes s).emit := by
  unfold writeReply
  simp only
  split <;> split
  all_goals first | (refine raise_emits _ _ _ _ ?_; simp [out]) | simp [out]

theorem writeReply_unread (n : Nat) (irq : Bool) (bytes : Bytes) (s : State) (h : n < 4) :
    (vget (writeReply n irq bytes s).host.rings n).unread = (vget s.host.rings n).unread + replySlots bytes := by
  unfold writeReply
  simp only
  split <;> split
  all_goals simp [out, setRing, vmod, h]

/-- The next reply of a ring with room for it goes out at once. -/
theorem postReply_next (n w : Nat) (irq : Bool) (bytes : Bytes) (s : State) (hf : s.hf.fabric = .running) (hn : n < 4)
    (he : (vget s.host.rings n).enabled = true) (hp : (vget s.host.rings n).posts = []) (hr : replySlots bytes ≤ freeSlots s n) :
    postReply n w irq bytes s =
      setRing n (fun p => { p with posts := [] })
        (reportTicket w (writeReply n irq bytes (setRing n (fun p => { p with posts := [] }) (setRing n (fun p => { p with posts := [.ready w irq bytes] }) s)))) := by
  have hroom : replySlots bytes ≤ freeSlots (setRing n (fun p => { p with posts := [] }) (setRing n (fun p => { p with posts := [.ready w irq bytes] }) s)) n := by
    simpa [freeSlots, setRing, reservedSlots, vmod, hn] using hr
  have hs : setRing n (fun p => { p with posts := placePost w (.ready w irq bytes) p.posts }) s = setRing n (fun p => { p with posts := [.ready w irq bytes] }) s := by
    simp [setRing, vmod, hp, placePost]
  unfold postReply
  rw [hs]
  unfold flushRing
  have h1 : (vget (setRing n (fun p => { p with posts := [.ready w irq bytes] }) s).host.rings n).enabled = true := by
    simp [setRing, hn, he]
  have h2 : (vget (setRing n (fun p => { p with posts := [.ready w irq bytes] }) s).host.rings n).posts = [.ready w irq bytes] := by
    simp [setRing, hn]
  have h3 : (setRing n (fun p => { p with posts := [.ready w irq bytes] }) s).hf.fabric = .running := hf
  simp only [h1, h2, h3]
  simp only [Bool.not_true, ne_eq, not_true_eq_false, decide_false, Bool.or_self, Bool.false_eq_true, if_false]
  unfold drainPosts
  simp only [show decide ((0 : Nat) = 2) = false from rfl, show decide ((0 : Nat) = 1) = false from rfl, Bool.false_and, Bool.false_or,
    decide_eq_true hroom, Bool.not_true, Bool.or_self, Bool.false_eq_true, if_false]
  unfold drainPosts
  rfl

end Sys2Proof.Machine
end

