-- ==== Sys2Proof/Laws/Events.lean ====
section
/-! SUPPORT. A source that is raised while the fabric runs has its PENDING bit set, and raising clears no PENDING bit (R590, R591). -/

namespace Sys2Proof.Machine

theorem bitOf_add (v n m : Nat) (h : bitOf v n = false) : bitOf (v + 2 ^ n) m = (bitOf v m || decide (m = n)) := by
  unfold bitOf at *
  rcases lt_trichotomy m n with hm | rfl | hm
  · rw [Nat.add_comm, Nat.testBit_two_pow_add_gt hm]
    simp [Nat.ne_of_lt hm]
  · rw [Nat.add_comm, Nat.testBit_two_pow_add_eq, h]
    simp
  · have hd : (v + 2 ^ n) / 2 ^ (n + 1) = v / 2 ^ (n + 1) := by
      have h0 : v / 2 ^ n % 2 = 0 := by
        rw [Nat.testBit_eq_decide_div_mod_eq] at h
        simp only [decide_eq_false_iff_not] at h
        omega
      rw [pow_succ, ← Nat.div_div_eq_div_mul, ← Nat.div_div_eq_div_mul, Nat.add_div_right _ (Nat.two_pow_pos n)]
      omega
    have e : ∀ x : Nat, x.testBit m = (x / 2 ^ (n + 1)).testBit (m - (n + 1)) := by
      intro x
      rw [Nat.testBit_div_two_pow]
      congr 1
      omega
    rw [e (v + 2 ^ n), e v, hd]
    simp [Nat.ne_of_gt hm]

theorem setBit_self (v n : Nat) : bitOf (setBit v n true) n = true := by
  unfold setBit
  split
  · assumption
  · rename_i h
    simp only [if_true, bitOf_add v n n (by simpa using h), decide_true, Bool.or_true]

theorem setBit_keeps {v m : Nat} (n : Nat) (h : bitOf v m = true) : bitOf (setBit v n true) m = true := by
  unfold setBit
  split
  · exact h
  · rename_i hn
    simp only [if_true, bitOf_add v n m (by simpa using hn), h, Bool.true_or]

theorem sendMsix_pending (v : Nat) (s : State) : (sendMsix v s).host.evt = s.host.evt := by
  unfold sendMsix
  simp only
  split
  · rfl
  · split <;> rfl

theorem signalVector_pending (v : Nat) (s : State) : (signalVector v s).host.evt.pending = s.host.evt.pending := by
  unfold signalVector
  split
  · rw [sendMsix_pending]
  · rfl

theorem writeEvent_pending (src : Nat) (a b : Int) (t : Nat) (s : State) : (writeEvent src a b t s).host.evt.pending = s.host.evt.pending := by
  unfold writeEvent
  simp only
  split
  · rfl
  · split <;> rfl

theorem deliverEvent_pending (src : Nat) (a b : Int) (t : Nat) (s : State) :
    (deliverEvent src a b t s).host.evt.pending = setBit s.host.evt.pending src true := by
  unfold deliverEvent
  simp only
  split
  · rfl
  · rw [signalVector_pending, writeEvent_pending]

theorem raise_pending {s : State} (src : Nat) (a b : Int) (h : s.hf.fabric = .running) :
    (raise src a b s).host.evt.pending = setBit s.host.evt.pending src true := by
  unfold raise
  rw [if_pos h]
  exact deliverEvent_pending _ _ _ _ _

/-- A raised source is pending. -/
theorem raise_sets {s : State} (src : Nat) (a b : Int) (h : s.hf.fabric = .running) : bitOf (raise src a b s).host.evt.pending src = true := by
  rw [raise_pending src a b h]
  exact setBit_self _ _

/-- Raising clears no PENDING bit. -/
theorem raise_keeps {s : State} {x : Nat} (src : Nat) (a b : Int) (h : bitOf s.host.evt.pending x = true) :
    bitOf (raise src a b s).host.evt.pending x = true := by
  unfold raise
  split
  · rw [deliverEvent_pending]
    exact setBit_keeps _ h
  · unfold latchEvent
    split <;> exact h

theorem raiseOnce_keeps {s : State} {x : Nat} (src : Nat) (a b : Int) (h : bitOf s.host.evt.pending x = true) :
    bitOf (raiseOnce src a b s).host.evt.pending x = true := by
  unfold raiseOnce
  split
  · exact h
  · exact raise_keeps _ _ _ h

theorem raiseOnce_emits (src : Nat) (a b : Int) (s : State) : s.emit ⊆ (raiseOnce src a b s).emit := by
  unfold raiseOnce
  split
  · exact fun _ h => h
  · exact fun _ h => raise_emits _ _ _ _ h

/-! ### Replies take no output back -/

theorem decideTicket_emits (w code : Nat) (s : State) : s.emit ⊆ (decideTicket w code s).emit := by
  unfold decideTicket
  simp only
  split
  · exact fun _ h => h
  · split
    · exact fun _ h => raise_emits _ _ _ _ h
    · exact fun _ h => h

theorem writeReply_emits (n : Nat) (irq : Bool) (bytes : Bytes) (s : State) : s.emit ⊆ (writeReply n irq bytes s).emit := by
  intro x h
  unfold writeReply
  simp only
  split <;> split
  all_goals first | (refine raise_emits _ _ _ _ ?_; simp [out, setRing, h]) | simp [out, setRing, h]

theorem drainPosts_emits (n : Nat) (l : List PostEntry) (hold : Nat) (s : State) : s.emit ⊆ (drainPosts n l hold s).2.emit := by
  induction l generalizing hold s with
  | nil => exact fun _ h => h
  | cons e l ih =>
    cases e with
    | waiting t => exact ih _ _
    | ready t irq bytes =>
      unfold drainPosts
      simp only
      split
      · exact ih _ _
      · exact fun _ h => ih _ _ (reportTicket_emits _ _ (writeReply_emits _ _ _ _ h))

theorem flushRing_emits (n : Nat) (s : State) : s.emit ⊆ (flushRing n s).emit := by
  unfold flushRing
  simp only
  split
  · exact fun _ h => h
  · exact fun _ h => drainPosts_emits _ _ _ _ h

theorem postReply_emits (n w : Nat) (irq : Bool) (bytes : Bytes) (s : State) : s.emit ⊆ (postReply n w irq bytes s).emit :=
  fun _ h => flushRing_emits _ _ h

theorem collectAnswer_emits (w m status : Nat) (body : Bytes) (s : State) : s.emit ⊆ (collectAnswer w m status body s).emit := by
  unfold collectAnswer
  split
  · exact fun _ h => h
  · split
    · exact fun _ h => h
    · simp only
      split
      · exact fun _ h => h
      · exact fun _ h => postReply_emits _ _ _ _ _ (decideTicket_emits _ _ _ h)

theorem sendReply_emits (r : CmdRec) (status rflags : Nat) (body : Bytes) (s : State) : s.emit ⊆ (sendReply r status rflags body s).emit := by
  unfold sendReply
  split
  · exact fun _ h => h
  · split
    · split
      · exact collectAnswer_emits _ _ _ _ _
      · exact out_emits _ _
    · exact postReply_emits _ _ _ _ _

theorem answer_emits (r : CmdRec) (status : Nat) (body : Bytes) (s : State) : s.emit ⊆ (answer r status body s).emit := by
  unfold answer
  split
  · exact fun _ h => sendReply_emits _ _ _ _ _ h
  · intro x h
    refine sendReply_emits _ _ _ _ _ ?_
    have := decideTicket_emits r.ticket (ticketCode status) (dropCmd r.ticket s) h
    split <;> exact this

theorem complete_emits (w status : Nat) (body : Bytes) (s : State) : s.emit ⊆ (complete w status body s).emit := by
  unfold complete
  split
  · exact fun _ h => h
  · split
    · exact fun _ h => sendReply_emits _ _ _ _ _ (decideTicket_emits _ _ _ h)
    · exact answer_emits _ _ _ _

/-! ### Replies clear no PENDING bit -/

theorem decideTicket_keeps {s : State} {x : Nat} (w code : Nat) (h : bitOf s.host.evt.pending x = true) :
    bitOf (decideTicket w code s).host.evt.pending x = true := by
  unfold decideTicket
  simp only
  split
  · exact h
  · split
    · exact raise_keeps _ _ _ h
    · exact h

theorem reportTicket_keeps {s : State} {x : Nat} (w : Nat) (h : bitOf s.host.evt.pending x = true) :
    bitOf (reportTicket w s).host.evt.pending x = true := by
  unfold reportTicket
  simp only
  split <;> exact h

theorem writeReply_keeps {s : State} {x : Nat} (n : Nat) (irq : Bool) (bytes : Bytes) (h : bitOf s.host.evt.pending x = true) :
    bitOf (writeReply n irq bytes s).host.evt.pending x = true := by
  unfold writeReply
  simp only
  split <;> split
  · exact raise_keeps _ _ _ (by simpa [out, setRing] using h)
  · exact raise_keeps _ _ _ (by simpa [out, setRing] using h)
  · simpa [out, setRing] using h
  · simpa [out, setRing] using h

theorem drainPosts_keeps {x : Nat} (n : Nat) (l : List PostEntry) (hold : Nat) {s : State} (h : bitOf s.host.evt.pending x = true) :
    bitOf (drainPosts n l hold s).2.host.evt.pending x = true := by
  induction l generalizing hold s with
  | nil => exact h
  | cons e l ih =>
    cases e with
    | waiting t => exact ih _ h
    | ready t irq bytes =>
      unfold drainPosts
      simp only
      split
      · exact ih _ h
      · exact ih _ (reportTicket_keeps _ (writeReply_keeps _ _ _ h))

theorem postReply_keeps {s : State} {x : Nat} (n w : Nat) (irq : Bool) (bytes : Bytes) (h : bitOf s.host.evt.pending x = true) :
    bitOf (postReply n w irq bytes s).host.evt.pending x = true := by
  unfold postReply flushRing
  simp only
  split
  · exact h
  · exact drainPosts_keeps _ _ _ h

theorem collectAnswer_keeps {s : State} {x : Nat} (w m status : Nat) (body : Bytes) (h : bitOf s.host.evt.pending x = true) :
    bitOf (collectAnswer w m status body s).host.evt.pending x = true := by
  unfold collectAnswer
  split
  · exact h
  · split
    · exact h
    · simp only
      split
      · exact h
      · exact postReply_keeps _ _ _ _ (decideTicket_keeps _ _ h)

theorem sendReply_keeps {s : State} {x : Nat} (r : CmdRec) (status rflags : Nat) (body : Bytes) (h : bitOf s.host.evt.pending x = true) :
    bitOf (sendReply r status rflags body s).host.evt.pending x = true := by
  unfold sendReply
  split
  · exact h
  · split
    · split
      · exact collectAnswer_keeps _ _ _ _ h
      · exact h
    · exact postReply_keeps _ _ _ _ h

theorem answer_keeps {s : State} {x : Nat} (r : CmdRec) (status : Nat) (body : Bytes) (h : bitOf s.host.evt.pending x = true) :
    bitOf (answer r status body s).host.evt.pending x = true := by
  unfold answer
  split
  · exact sendReply_keeps _ _ _ _ h
  · refine sendReply_keeps _ _ _ _ ?_
    have := decideTicket_keeps (s := dropCmd r.ticket s) r.ticket (ticketCode status) h
    split <;> exact this

theorem complete_keeps {s : State} {x : Nat} (w status : Nat) (body : Bytes) (h : bitOf s.host.evt.pending x = true) :
    bitOf (complete w status body s).host.evt.pending x = true := by
  unfold complete
  split
  · exact h
  · split
    · exact sendReply_keeps _ _ _ _ (decideTicket_keeps _ _ h)
    · exact answer_keeps _ _ _ h

/-! ### The completion of an accepted command -/

/-- The completion of a command changes the ledger, the rings and the commands in progress, and STAGE_GEN. -/
theorem complete_frame (w status : Nat) (body : Bytes) (s : State) :
    ReplyFrame { s with stageGen := (complete w status body s).stageGen } (complete w status body s) := by
  unfold complete
  split
  · rfl
  · rename_i r _
    split
    · have h := (sendReply_frame r status 2 body _).after ((decideTicket_frame w (ticketCode status) (dropCmd w s)).after (dropCmd_frame w s))
      have hg := h.stageGen
      rw [hg]
      exact h
    · exact answer_frame _ _ _ _

end Sys2Proof.Machine
end

