-- ==== Sys2Proof/Laws/State.lean ====
section
/-! SUPPORT. What each update of the state leaves as it was, field by field, and what it writes. -/

namespace Sys2Proof.Machine

@[simp] theorem tick_free (t : Nat) (s : State) : (tick t s).free = s.free := rfl
@[simp] theorem tick_staged (t : Nat) (s : State) : (tick t s).staged = s.staged := rfl
@[simp] theorem tick_running (t : Nat) (s : State) : (tick t s).running = s.running := rfl
@[simp] theorem tick_prev (t : Nat) (s : State) : (tick t s).prev = s.prev := rfl
@[simp] theorem tick_glue (t : Nat) (s : State) : (tick t s).glue = s.glue := rfl
@[simp] theorem tick_stageGen (t : Nat) (s : State) : (tick t s).stageGen = s.stageGen := rfl
@[simp] theorem tick_dryfit (t : Nat) (s : State) : (tick t s).dryfit = s.dryfit := rfl
@[simp] theorem tick_dryfitRun (t : Nat) (s : State) : (tick t s).dryfitRun = s.dryfitRun := rfl
@[simp] theorem tick_glueCount (t : Nat) (s : State) : (tick t s).glueCount = s.glueCount := rfl
@[simp] theorem tick_ledger (t : Nat) (s : State) : (tick t s).ledger = s.ledger := rfl
@[simp] theorem tick_cmds (t : Nat) (s : State) : (tick t s).cmds = s.cmds := rfl
@[simp] theorem tick_claims (t : Nat) (s : State) : (tick t s).claims = s.claims := rfl
@[simp] theorem tick_spans (t : Nat) (s : State) : (tick t s).spans = s.spans := rfl
@[simp] theorem tick_evOnce (t : Nat) (s : State) : (tick t s).evOnce = s.evOnce := rfl
@[simp] theorem tick_gauge (t : Nat) (s : State) : (tick t s).gauge = s.gauge := rfl
@[simp] theorem tick_links (t : Nat) (s : State) : (tick t s).links = s.links := rfl
@[simp] theorem tick_ingest (t : Nat) (s : State) : (tick t s).ingest = s.ingest := rfl
@[simp] theorem tick_plane (t : Nat) (s : State) : (tick t s).plane = s.plane := rfl
@[simp] theorem tick_dovetail (t : Nat) (s : State) : (tick t s).dovetail = s.dovetail := rfl
@[simp] theorem tick_marq (t : Nat) (s : State) : (tick t s).marq = s.marq := rfl
@[simp] theorem tick_scribe (t : Nat) (s : State) : (tick t s).scribe = s.scribe := rfl
@[simp] theorem tick_prof (t : Nat) (s : State) : (tick t s).prof = s.prof := rfl
@[simp] theorem tick_views (t : Nat) (s : State) : (tick t s).views = s.views := rfl
@[simp] theorem tick_comp (t : Nat) (s : State) : (tick t s).comp = s.comp := rfl
@[simp] theorem tick_host (t : Nat) (s : State) : (tick t s).host = s.host := rfl
@[simp] theorem tick_dma (t : Nat) (s : State) : (tick t s).dma = s.dma := rfl
@[simp] theorem tick_axes (t : Nat) (s : State) : (tick t s).axes = s.axes := rfl
@[simp] theorem tick_ring (t : Nat) (s : State) : (tick t s).ring = s.ring := rfl
@[simp] theorem tick_pair (t : Nat) (s : State) : (tick t s).pair = s.pair := rfl
@[simp] theorem tick_faults (t : Nat) (s : State) : (tick t s).faults = s.faults := rfl
@[simp] theorem tick_hf (t : Nat) (s : State) : (tick t s).hf = s.hf := rfl
@[simp] theorem tick_boot (t : Nat) (s : State) : (tick t s).boot = s.boot := rfl
@[simp] theorem tick_pace (t : Nat) (s : State) : (tick t s).pace = s.pace := rfl
@[simp] theorem tick_sense (t : Nat) (s : State) : (tick t s).sense = s.sense := rfl
@[simp] theorem tick_cages (t : Nat) (s : State) : (tick t s).cages = s.cages := rfl
@[simp] theorem tick_heldOut (t : Nat) (s : State) : (tick t s).heldOut = s.heldOut := rfl
@[simp] theorem tick_pending (t : Nat) (s : State) : (tick t s).pending = s.pending := rfl
@[simp] theorem out_now (e : Emit) (s : State) : (out e s).now = s.now := rfl
@[simp] theorem out_free (e : Emit) (s : State) : (out e s).free = s.free := rfl
@[simp] theorem out_staged (e : Emit) (s : State) : (out e s).staged = s.staged := rfl
@[simp] theorem out_running (e : Emit) (s : State) : (out e s).running = s.running := rfl
@[simp] theorem out_prev (e : Emit) (s : State) : (out e s).prev = s.prev := rfl
@[simp] theorem out_glue (e : Emit) (s : State) : (out e s).glue = s.glue := rfl
@[simp] theorem out_stageGen (e : Emit) (s : State) : (out e s).stageGen = s.stageGen := rfl
@[simp] theorem out_dryfit (e : Emit) (s : State) : (out e s).dryfit = s.dryfit := rfl
@[simp] theorem out_dryfitRun (e : Emit) (s : State) : (out e s).dryfitRun = s.dryfitRun := rfl
@[simp] theorem out_glueCount (e : Emit) (s : State) : (out e s).glueCount = s.glueCount := rfl
@[simp] theorem out_ledger (e : Emit) (s : State) : (out e s).ledger = s.ledger := rfl
@[simp] theorem out_cmds (e : Emit) (s : State) : (out e s).cmds = s.cmds := rfl
@[simp] theorem out_claims (e : Emit) (s : State) : (out e s).claims = s.claims := rfl
@[simp] theorem out_spans (e : Emit) (s : State) : (out e s).spans = s.spans := rfl
@[simp] theorem out_evOnce (e : Emit) (s : State) : (out e s).evOnce = s.evOnce := rfl
@[simp] theorem out_gauge (e : Emit) (s : State) : (out e s).gauge = s.gauge := rfl
@[simp] theorem out_links (e : Emit) (s : State) : (out e s).links = s.links := rfl
@[simp] theorem out_ingest (e : Emit) (s : State) : (out e s).ingest = s.ingest := rfl
@[simp] theorem out_plane (e : Emit) (s : State) : (out e s).plane = s.plane := rfl
@[simp] theorem out_dovetail (e : Emit) (s : State) : (out e s).dovetail = s.dovetail := rfl
@[simp] theorem out_marq (e : Emit) (s : State) : (out e s).marq = s.marq := rfl
@[simp] theorem out_scribe (e : Emit) (s : State) : (out e s).scribe = s.scribe := rfl
@[simp] theorem out_prof (e : Emit) (s : State) : (out e s).prof = s.prof := rfl
@[simp] theorem out_views (e : Emit) (s : State) : (out e s).views = s.views := rfl
@[simp] theorem out_comp (e : Emit) (s : State) : (out e s).comp = s.comp := rfl
@[simp] theorem out_bench (e : Emit) (s : State) : (out e s).bench = s.bench := rfl
@[simp] theorem out_host (e : Emit) (s : State) : (out e s).host = s.host := rfl
@[simp] theorem out_dma (e : Emit) (s : State) : (out e s).dma = s.dma := rfl
@[simp] theorem out_axes (e : Emit) (s : State) : (out e s).axes = s.axes := rfl
@[simp] theorem out_time (e : Emit) (s : State) : (out e s).time = s.time := rfl
@[simp] theorem out_ring (e : Emit) (s : State) : (out e s).ring = s.ring := rfl
@[simp] theorem out_pair (e : Emit) (s : State) : (out e s).pair = s.pair := rfl
@[simp] theorem out_faults (e : Emit) (s : State) : (out e s).faults = s.faults := rfl
@[simp] theorem out_hf (e : Emit) (s : State) : (out e s).hf = s.hf := rfl
@[simp] theorem out_boot (e : Emit) (s : State) : (out e s).boot = s.boot := rfl
@[simp] theorem out_pace (e : Emit) (s : State) : (out e s).pace = s.pace := rfl
@[simp] theorem out_sense (e : Emit) (s : State) : (out e s).sense = s.sense := rfl
@[simp] theorem out_cages (e : Emit) (s : State) : (out e s).cages = s.cages := rfl
@[simp] theorem out_heldOut (e : Emit) (s : State) : (out e s).heldOut = s.heldOut := rfl
@[simp] theorem out_pending (e : Emit) (s : State) : (out e s).pending = s.pending := rfl
@[simp] theorem benchWrite_now (o : Nat) (d : Bytes) (s : State) : (benchWrite o d s).now = s.now := rfl
@[simp] theorem benchWrite_free (o : Nat) (d : Bytes) (s : State) : (benchWrite o d s).free = s.free := rfl
@[simp] theorem benchWrite_staged (o : Nat) (d : Bytes) (s : State) : (benchWrite o d s).staged = s.staged := rfl
@[simp] theorem benchWrite_running (o : Nat) (d : Bytes) (s : State) : (benchWrite o d s).running = s.running := rfl
@[simp] theorem benchWrite_prev (o : Nat) (d : Bytes) (s : State) : (benchWrite o d s).prev = s.prev := rfl
@[simp] theorem benchWrite_glue (o : Nat) (d : Bytes) (s : State) : (benchWrite o d s).glue = s.glue := rfl
@[simp] theorem benchWrite_stageGen (o : Nat) (d : Bytes) (s : State) : (benchWrite o d s).stageGen = s.stageGen := rfl
@[simp] theorem benchWrite_dryfit (o : Nat) (d : Bytes) (s : State) : (benchWrite o d s).dryfit = s.dryfit := rfl
@[simp] theorem benchWrite_dryfitRun (o : Nat) (d : Bytes) (s : State) : (benchWrite o d s).dryfitRun = s.dryfitRun := rfl
@[simp] theorem benchWrite_glueCount (o : Nat) (d : Bytes) (s : State) : (benchWrite o d s).glueCount = s.glueCount := rfl
@[simp] theorem benchWrite_ledger (o : Nat) (d : Bytes) (s : State) : (benchWrite o d s).ledger = s.ledger := rfl
@[simp] theorem benchWrite_cmds (o : Nat) (d : Bytes) (s : State) : (benchWrite o d s).cmds = s.cmds := rfl
@[simp] theorem benchWrite_claims (o : Nat) (d : Bytes) (s : State) : (benchWrite o d s).claims = s.claims := rfl
@[simp] theorem benchWrite_spans (o : Nat) (d : Bytes) (s : State) : (benchWrite o d s).spans = s.spans := rfl
@[simp] theorem benchWrite_evOnce (o : Nat) (d : Bytes) (s : State) : (benchWrite o d s).evOnce = s.evOnce := rfl
@[simp] theorem benchWrite_gauge (o : Nat) (d : Bytes) (s : State) : (benchWrite o d s).gauge = s.gauge := rfl
@[simp] theorem benchWrite_links (o : Nat) (d : Bytes) (s : State) : (benchWrite o d s).links = s.links := rfl
@[simp] theorem benchWrite_ingest (o : Nat) (d : Bytes) (s : State) : (benchWrite o d s).ingest = s.ingest := rfl
@[simp] theorem benchWrite_plane (o : Nat) (d : Bytes) (s : State) : (benchWrite o d s).plane = s.plane := rfl
@[simp] theorem benchWrite_dovetail (o : Nat) (d : Bytes) (s : State) : (benchWrite o d s).dovetail = s.dovetail := rfl
@[simp] theorem benchWrite_marq (o : Nat) (d : Bytes) (s : State) : (benchWrite o d s).marq = s.marq := rfl
@[simp] theorem benchWrite_scribe (o : Nat) (d : Bytes) (s : State) : (benchWrite o d s).scribe = s.scribe := rfl
@[simp] theorem benchWrite_prof (o : Nat) (d : Bytes) (s : State) : (benchWrite o d s).prof = s.prof := rfl
@[simp] theorem benchWrite_views (o : Nat) (d : Bytes) (s : State) : (benchWrite o d s).views = s.views := rfl
@[simp] theorem benchWrite_comp (o : Nat) (d : Bytes) (s : State) : (benchWrite o d s).comp = s.comp := rfl
@[simp] theorem benchWrite_host (o : Nat) (d : Bytes) (s : State) : (benchWrite o d s).host = s.host := rfl
@[simp] theorem benchWrite_dma (o : Nat) (d : Bytes) (s : State) : (benchWrite o d s).dma = s.dma := rfl
@[simp] theorem benchWrite_axes (o : Nat) (d : Bytes) (s : State) : (benchWrite o d s).axes = s.axes := rfl
@[simp] theorem benchWrite_time (o : Nat) (d : Bytes) (s : State) : (benchWrite o d s).time = s.time := rfl
@[simp] theorem benchWrite_ring (o : Nat) (d : Bytes) (s : State) : (benchWrite o d s).ring = s.ring := rfl
@[simp] theorem benchWrite_pair (o : Nat) (d : Bytes) (s : State) : (benchWrite o d s).pair = s.pair := rfl
@[simp] theorem benchWrite_faults (o : Nat) (d : Bytes) (s : State) : (benchWrite o d s).faults = s.faults := rfl
@[simp] theorem benchWrite_hf (o : Nat) (d : Bytes) (s : State) : (benchWrite o d s).hf = s.hf := rfl
@[simp] theorem benchWrite_boot (o : Nat) (d : Bytes) (s : State) : (benchWrite o d s).boot = s.boot := rfl
@[simp] theorem benchWrite_pace (o : Nat) (d : Bytes) (s : State) : (benchWrite o d s).pace = s.pace := rfl
@[simp] theorem benchWrite_sense (o : Nat) (d : Bytes) (s : State) : (benchWrite o d s).sense = s.sense := rfl
@[simp] theorem benchWrite_cages (o : Nat) (d : Bytes) (s : State) : (benchWrite o d s).cages = s.cages := rfl
@[simp] theorem benchWrite_heldOut (o : Nat) (d : Bytes) (s : State) : (benchWrite o d s).heldOut = s.heldOut := rfl
@[simp] theorem benchWrite_emit (o : Nat) (d : Bytes) (s : State) : (benchWrite o d s).emit = s.emit := rfl
@[simp] theorem benchWrite_pending (o : Nat) (d : Bytes) (s : State) : (benchWrite o d s).pending = s.pending := rfl
@[simp] theorem benchEmpty_now (o n : Nat) (s : State) : (benchEmpty o n s).now = s.now := rfl
@[simp] theorem benchEmpty_free (o n : Nat) (s : State) : (benchEmpty o n s).free = s.free := rfl
@[simp] theorem benchEmpty_staged (o n : Nat) (s : State) : (benchEmpty o n s).staged = s.staged := rfl
@[simp] theorem benchEmpty_running (o n : Nat) (s : State) : (benchEmpty o n s).running = s.running := rfl
@[simp] theorem benchEmpty_prev (o n : Nat) (s : State) : (benchEmpty o n s).prev = s.prev := rfl
@[simp] theorem benchEmpty_glue (o n : Nat) (s : State) : (benchEmpty o n s).glue = s.glue := rfl
@[simp] theorem benchEmpty_stageGen (o n : Nat) (s : State) : (benchEmpty o n s).stageGen = s.stageGen := rfl
@[simp] theorem benchEmpty_dryfit (o n : Nat) (s : State) : (benchEmpty o n s).dryfit = s.dryfit := rfl
@[simp] theorem benchEmpty_dryfitRun (o n : Nat) (s : State) : (benchEmpty o n s).dryfitRun = s.dryfitRun := rfl
@[simp] theorem benchEmpty_glueCount (o n : Nat) (s : State) : (benchEmpty o n s).glueCount = s.glueCount := rfl
@[simp] theorem benchEmpty_ledger (o n : Nat) (s : State) : (benchEmpty o n s).ledger = s.ledger := rfl
@[simp] theorem benchEmpty_cmds (o n : Nat) (s : State) : (benchEmpty o n s).cmds = s.cmds := rfl
@[simp] theorem benchEmpty_claims (o n : Nat) (s : State) : (benchEmpty o n s).claims = s.claims := rfl
@[simp] theorem benchEmpty_spans (o n : Nat) (s : State) : (benchEmpty o n s).spans = s.spans := rfl
@[simp] theorem benchEmpty_evOnce (o n : Nat) (s : State) : (benchEmpty o n s).evOnce = s.evOnce := rfl
@[simp] theorem benchEmpty_gauge (o n : Nat) (s : State) : (benchEmpty o n s).gauge = s.gauge := rfl
@[simp] theorem benchEmpty_links (o n : Nat) (s : State) : (benchEmpty o n s).links = s.links := rfl
@[simp] theorem benchEmpty_ingest (o n : Nat) (s : State) : (benchEmpty o n s).ingest = s.ingest := rfl
@[simp] theorem benchEmpty_plane (o n : Nat) (s : State) : (benchEmpty o n s).plane = s.plane := rfl
@[simp] theorem benchEmpty_dovetail (o n : Nat) (s : State) : (benchEmpty o n s).dovetail = s.dovetail := rfl
@[simp] theorem benchEmpty_marq (o n : Nat) (s : State) : (benchEmpty o n s).marq = s.marq := rfl
@[simp] theorem benchEmpty_scribe (o n : Nat) (s : State) : (benchEmpty o n s).scribe = s.scribe := rfl
@[simp] theorem benchEmpty_prof (o n : Nat) (s : State) : (benchEmpty o n s).prof = s.prof := rfl
@[simp] theorem benchEmpty_views (o n : Nat) (s : State) : (benchEmpty o n s).views = s.views := rfl
@[simp] theorem benchEmpty_comp (o n : Nat) (s : State) : (benchEmpty o n s).comp = s.comp := rfl
@[simp] theorem benchEmpty_host (o n : Nat) (s : State) : (benchEmpty o n s).host = s.host := rfl
@[simp] theorem benchEmpty_dma (o n : Nat) (s : State) : (benchEmpty o n s).dma = s.dma := rfl
@[simp] theorem benchEmpty_axes (o n : Nat) (s : State) : (benchEmpty o n s).axes = s.axes := rfl
@[simp] theorem benchEmpty_time (o n : Nat) (s : State) : (benchEmpty o n s).time = s.time := rfl
@[simp] theorem benchEmpty_ring (o n : Nat) (s : State) : (benchEmpty o n s).ring = s.ring := rfl
@[simp] theorem benchEmpty_pair (o n : Nat) (s : State) : (benchEmpty o n s).pair = s.pair := rfl
@[simp] theorem benchEmpty_faults (o n : Nat) (s : State) : (benchEmpty o n s).faults = s.faults := rfl
@[simp] theorem benchEmpty_hf (o n : Nat) (s : State) : (benchEmpty o n s).hf = s.hf := rfl
@[simp] theorem benchEmpty_boot (o n : Nat) (s : State) : (benchEmpty o n s).boot = s.boot := rfl
@[simp] theorem benchEmpty_pace (o n : Nat) (s : State) : (benchEmpty o n s).pace = s.pace := rfl
@[simp] theorem benchEmpty_sense (o n : Nat) (s : State) : (benchEmpty o n s).sense = s.sense := rfl
@[simp] theorem benchEmpty_cages (o n : Nat) (s : State) : (benchEmpty o n s).cages = s.cages := rfl
@[simp] theorem benchEmpty_heldOut (o n : Nat) (s : State) : (benchEmpty o n s).heldOut = s.heldOut := rfl
@[simp] theorem benchEmpty_emit (o n : Nat) (s : State) : (benchEmpty o n s).emit = s.emit := rfl
@[simp] theorem benchEmpty_pending (o n : Nat) (s : State) : (benchEmpty o n s).pending = s.pending := rfl
@[simp] theorem setRing_now (n : Nat) (f : RingPair → RingPair) (s : State) : (setRing n f s).now = s.now := rfl
@[simp] theorem setRing_free (n : Nat) (f : RingPair → RingPair) (s : State) : (setRing n f s).free = s.free := rfl
@[simp] theorem setRing_staged (n : Nat) (f : RingPair → RingPair) (s : State) : (setRing n f s).staged = s.staged := rfl
@[simp] theorem setRing_running (n : Nat) (f : RingPair → RingPair) (s : State) : (setRing n f s).running = s.running := rfl
@[simp] theorem setRing_prev (n : Nat) (f : RingPair → RingPair) (s : State) : (setRing n f s).prev = s.prev := rfl
@[simp] theorem setRing_glue (n : Nat) (f : RingPair → RingPair) (s : State) : (setRing n f s).glue = s.glue := rfl
@[simp] theorem setRing_stageGen (n : Nat) (f : RingPair → RingPair) (s : State) : (setRing n f s).stageGen = s.stageGen := rfl
@[simp] theorem setRing_dryfit (n : Nat) (f : RingPair → RingPair) (s : State) : (setRing n f s).dryfit = s.dryfit := rfl
@[simp] theorem setRing_dryfitRun (n : Nat) (f : RingPair → RingPair) (s : State) : (setRing n f s).dryfitRun = s.dryfitRun := rfl
@[simp] theorem setRing_glueCount (n : Nat) (f : RingPair → RingPair) (s : State) : (setRing n f s).glueCount = s.glueCount := rfl
@[simp] theorem setRing_ledger (n : Nat) (f : RingPair → RingPair) (s : State) : (setRing n f s).ledger = s.ledger := rfl
@[simp] theorem setRing_cmds (n : Nat) (f : RingPair → RingPair) (s : State) : (setRing n f s).cmds = s.cmds := rfl
@[simp] theorem setRing_claims (n : Nat) (f : RingPair → RingPair) (s : State) : (setRing n f s).claims = s.claims := rfl
@[simp] theorem setRing_spans (n : Nat) (f : RingPair → RingPair) (s : State) : (setRing n f s).spans = s.spans := rfl
@[simp] theorem setRing_evOnce (n : Nat) (f : RingPair → RingPair) (s : State) : (setRing n f s).evOnce = s.evOnce := rfl
@[simp] theorem setRing_gauge (n : Nat) (f : RingPair → RingPair) (s : State) : (setRing n f s).gauge = s.gauge := rfl
@[simp] theorem setRing_links (n : Nat) (f : RingPair → RingPair) (s : State) : (setRing n f s).links = s.links := rfl
@[simp] theorem setRing_ingest (n : Nat) (f : RingPair → RingPair) (s : State) : (setRing n f s).ingest = s.ingest := rfl
@[simp] theorem setRing_plane (n : Nat) (f : RingPair → RingPair) (s : State) : (setRing n f s).plane = s.plane := rfl
@[simp] theorem setRing_dovetail (n : Nat) (f : RingPair → RingPair) (s : State) : (setRing n f s).dovetail = s.dovetail := rfl
@[simp] theorem setRing_marq (n : Nat) (f : RingPair → RingPair) (s : State) : (setRing n f s).marq = s.marq := rfl
@[simp] theorem setRing_scribe (n : Nat) (f : RingPair → RingPair) (s : State) : (setRing n f s).scribe = s.scribe := rfl
@[simp] theorem setRing_prof (n : Nat) (f : RingPair → RingPair) (s : State) : (setRing n f s).prof = s.prof := rfl
@[simp] theorem setRing_views (n : Nat) (f : RingPair → RingPair) (s : State) : (setRing n f s).views = s.views := rfl
@[simp] theorem setRing_comp (n : Nat) (f : RingPair → RingPair) (s : State) : (setRing n f s).comp = s.comp := rfl
@[simp] theorem setRing_bench (n : Nat) (f : RingPair → RingPair) (s : State) : (setRing n f s).bench = s.bench := rfl
@[simp] theorem setRing_dma (n : Nat) (f : RingPair → RingPair) (s : State) : (setRing n f s).dma = s.dma := rfl
@[simp] theorem setRing_axes (n : Nat) (f : RingPair → RingPair) (s : State) : (setRing n f s).axes = s.axes := rfl
@[simp] theorem setRing_time (n : Nat) (f : RingPair → RingPair) (s : State) : (setRing n f s).time = s.time := rfl
@[simp] theorem setRing_ring (n : Nat) (f : RingPair → RingPair) (s : State) : (setRing n f s).ring = s.ring := rfl
@[simp] theorem setRing_pair (n : Nat) (f : RingPair → RingPair) (s : State) : (setRing n f s).pair = s.pair := rfl
@[simp] theorem setRing_faults (n : Nat) (f : RingPair → RingPair) (s : State) : (setRing n f s).faults = s.faults := rfl
@[simp] theorem setRing_hf (n : Nat) (f : RingPair → RingPair) (s : State) : (setRing n f s).hf = s.hf := rfl
@[simp] theorem setRing_boot (n : Nat) (f : RingPair → RingPair) (s : State) : (setRing n f s).boot = s.boot := rfl
@[simp] theorem setRing_pace (n : Nat) (f : RingPair → RingPair) (s : State) : (setRing n f s).pace = s.pace := rfl
@[simp] theorem setRing_sense (n : Nat) (f : RingPair → RingPair) (s : State) : (setRing n f s).sense = s.sense := rfl
@[simp] theorem setRing_cages (n : Nat) (f : RingPair → RingPair) (s : State) : (setRing n f s).cages = s.cages := rfl
@[simp] theorem setRing_heldOut (n : Nat) (f : RingPair → RingPair) (s : State) : (setRing n f s).heldOut = s.heldOut := rfl
@[simp] theorem setRing_emit (n : Nat) (f : RingPair → RingPair) (s : State) : (setRing n f s).emit = s.emit := rfl
@[simp] theorem setRing_pending (n : Nat) (f : RingPair → RingPair) (s : State) : (setRing n f s).pending = s.pending := rfl
@[simp] theorem dropCmd_now (w : Nat) (s : State) : (dropCmd w s).now = s.now := rfl
@[simp] theorem dropCmd_free (w : Nat) (s : State) : (dropCmd w s).free = s.free := rfl
@[simp] theorem dropCmd_staged (w : Nat) (s : State) : (dropCmd w s).staged = s.staged := rfl
@[simp] theorem dropCmd_running (w : Nat) (s : State) : (dropCmd w s).running = s.running := rfl
@[simp] theorem dropCmd_prev (w : Nat) (s : State) : (dropCmd w s).prev = s.prev := rfl
@[simp] theorem dropCmd_glue (w : Nat) (s : State) : (dropCmd w s).glue = s.glue := rfl
@[simp] theorem dropCmd_stageGen (w : Nat) (s : State) : (dropCmd w s).stageGen = s.stageGen := rfl
@[simp] theorem dropCmd_dryfit (w : Nat) (s : State) : (dropCmd w s).dryfit = s.dryfit := rfl
@[simp] theorem dropCmd_dryfitRun (w : Nat) (s : State) : (dropCmd w s).dryfitRun = s.dryfitRun := rfl
@[simp] theorem dropCmd_glueCount (w : Nat) (s : State) : (dropCmd w s).glueCount = s.glueCount := rfl
@[simp] theorem dropCmd_ledger (w : Nat) (s : State) : (dropCmd w s).ledger = s.ledger := rfl
@[simp] theorem dropCmd_claims (w : Nat) (s : State) : (dropCmd w s).claims = s.claims := rfl
@[simp] theorem dropCmd_spans (w : Nat) (s : State) : (dropCmd w s).spans = s.spans := rfl
@[simp] theorem dropCmd_evOnce (w : Nat) (s : State) : (dropCmd w s).evOnce = s.evOnce := rfl
@[simp] theorem dropCmd_gauge (w : Nat) (s : State) : (dropCmd w s).gauge = s.gauge := rfl
@[simp] theorem dropCmd_links (w : Nat) (s : State) : (dropCmd w s).links = s.links := rfl
@[simp] theorem dropCmd_ingest (w : Nat) (s : State) : (dropCmd w s).ingest = s.ingest := rfl
@[simp] theorem dropCmd_plane (w : Nat) (s : State) : (dropCmd w s).plane = s.plane := rfl
@[simp] theorem dropCmd_dovetail (w : Nat) (s : State) : (dropCmd w s).dovetail = s.dovetail := rfl
@[simp] theorem dropCmd_marq (w : Nat) (s : State) : (dropCmd w s).marq = s.marq := rfl
@[simp] theorem dropCmd_scribe (w : Nat) (s : State) : (dropCmd w s).scribe = s.scribe := rfl
@[simp] theorem dropCmd_prof (w : Nat) (s : State) : (dropCmd w s).prof = s.prof := rfl
@[simp] theorem dropCmd_views (w : Nat) (s : State) : (dropCmd w s).views = s.views := rfl
@[simp] theorem dropCmd_comp (w : Nat) (s : State) : (dropCmd w s).comp = s.comp := rfl
@[simp] theorem dropCmd_bench (w : Nat) (s : State) : (dropCmd w s).bench = s.bench := rfl
@[simp] theorem dropCmd_host (w : Nat) (s : State) : (dropCmd w s).host = s.host := rfl
@[simp] theorem dropCmd_dma (w : Nat) (s : State) : (dropCmd w s).dma = s.dma := rfl
@[simp] theorem dropCmd_axes (w : Nat) (s : State) : (dropCmd w s).axes = s.axes := rfl
@[simp] theorem dropCmd_time (w : Nat) (s : State) : (dropCmd w s).time = s.time := rfl
@[simp] theorem dropCmd_ring (w : Nat) (s : State) : (dropCmd w s).ring = s.ring := rfl
@[simp] theorem dropCmd_pair (w : Nat) (s : State) : (dropCmd w s).pair = s.pair := rfl
@[simp] theorem dropCmd_faults (w : Nat) (s : State) : (dropCmd w s).faults = s.faults := rfl
@[simp] theorem dropCmd_hf (w : Nat) (s : State) : (dropCmd w s).hf = s.hf := rfl
@[simp] theorem dropCmd_boot (w : Nat) (s : State) : (dropCmd w s).boot = s.boot := rfl
@[simp] theorem dropCmd_pace (w : Nat) (s : State) : (dropCmd w s).pace = s.pace := rfl
@[simp] theorem dropCmd_sense (w : Nat) (s : State) : (dropCmd w s).sense = s.sense := rfl
@[simp] theorem dropCmd_cages (w : Nat) (s : State) : (dropCmd w s).cages = s.cages := rfl
@[simp] theorem dropCmd_heldOut (w : Nat) (s : State) : (dropCmd w s).heldOut = s.heldOut := rfl
@[simp] theorem dropCmd_emit (w : Nat) (s : State) : (dropCmd w s).emit = s.emit := rfl
@[simp] theorem dropCmd_pending (w : Nat) (s : State) : (dropCmd w s).pending = s.pending := rfl
@[simp] theorem setSlotLink_now (i : Nat) (f : SlotLink → SlotLink) (s : State) : (setSlotLink i f s).now = s.now := rfl
@[simp] theorem setSlotLink_free (i : Nat) (f : SlotLink → SlotLink) (s : State) : (setSlotLink i f s).free = s.free := rfl
@[simp] theorem setSlotLink_staged (i : Nat) (f : SlotLink → SlotLink) (s : State) : (setSlotLink i f s).staged = s.staged := rfl
@[simp] theorem setSlotLink_running (i : Nat) (f : SlotLink → SlotLink) (s : State) : (setSlotLink i f s).running = s.running := rfl
@[simp] theorem setSlotLink_prev (i : Nat) (f : SlotLink → SlotLink) (s : State) : (setSlotLink i f s).prev = s.prev := rfl
@[simp] theorem setSlotLink_glue (i : Nat) (f : SlotLink → SlotLink) (s : State) : (setSlotLink i f s).glue = s.glue := rfl
@[simp] theorem setSlotLink_stageGen (i : Nat) (f : SlotLink → SlotLink) (s : State) : (setSlotLink i f s).stageGen = s.stageGen := rfl
@[simp] theorem setSlotLink_dryfit (i : Nat) (f : SlotLink → SlotLink) (s : State) : (setSlotLink i f s).dryfit = s.dryfit := rfl
@[simp] theorem setSlotLink_dryfitRun (i : Nat) (f : SlotLink → SlotLink) (s : State) : (setSlotLink i f s).dryfitRun = s.dryfitRun := rfl
@[simp] theorem setSlotLink_glueCount (i : Nat) (f : SlotLink → SlotLink) (s : State) : (setSlotLink i f s).glueCount = s.glueCount := rfl
@[simp] theorem setSlotLink_ledger (i : Nat) (f : SlotLink → SlotLink) (s : State) : (setSlotLink i f s).ledger = s.ledger := rfl
@[simp] theorem setSlotLink_cmds (i : Nat) (f : SlotLink → SlotLink) (s : State) : (setSlotLink i f s).cmds = s.cmds := rfl
@[simp] theorem setSlotLink_claims (i : Nat) (f : SlotLink → SlotLink) (s : State) : (setSlotLink i f s).claims = s.claims := rfl
@[simp] theorem setSlotLink_spans (i : Nat) (f : SlotLink → SlotLink) (s : State) : (setSlotLink i f s).spans = s.spans := rfl
@[simp] theorem setSlotLink_evOnce (i : Nat) (f : SlotLink → SlotLink) (s : State) : (setSlotLink i f s).evOnce = s.evOnce := rfl
@[simp] theorem setSlotLink_gauge (i : Nat) (f : SlotLink → SlotLink) (s : State) : (setSlotLink i f s).gauge = s.gauge := rfl
@[simp] theorem setSlotLink_ingest (i : Nat) (f : SlotLink → SlotLink) (s : State) : (setSlotLink i f s).ingest = s.ingest := rfl
@[simp] theorem setSlotLink_plane (i : Nat) (f : SlotLink → SlotLink) (s : State) : (setSlotLink i f s).plane = s.plane := rfl
@[simp] theorem setSlotLink_dovetail (i : Nat) (f : SlotLink → SlotLink) (s : State) : (setSlotLink i f s).dovetail = s.dovetail := rfl
@[simp] theorem setSlotLink_marq (i : Nat) (f : SlotLink → SlotLink) (s : State) : (setSlotLink i f s).marq = s.marq := rfl
@[simp] theorem setSlotLink_scribe (i : Nat) (f : SlotLink → SlotLink) (s : State) : (setSlotLink i f s).scribe = s.scribe := rfl
@[simp] theorem setSlotLink_prof (i : Nat) (f : SlotLink → SlotLink) (s : State) : (setSlotLink i f s).prof = s.prof := rfl
@[simp] theorem setSlotLink_views (i : Nat) (f : SlotLink → SlotLink) (s : State) : (setSlotLink i f s).views = s.views := rfl
@[simp] theorem setSlotLink_comp (i : Nat) (f : SlotLink → SlotLink) (s : State) : (setSlotLink i f s).comp = s.comp := rfl
@[simp] theorem setSlotLink_bench (i : Nat) (f : SlotLink → SlotLink) (s : State) : (setSlotLink i f s).bench = s.bench := rfl
@[simp] theorem setSlotLink_host (i : Nat) (f : SlotLink → SlotLink) (s : State) : (setSlotLink i f s).host = s.host := rfl
@[simp] theorem setSlotLink_dma (i : Nat) (f : SlotLink → SlotLink) (s : State) : (setSlotLink i f s).dma = s.dma := rfl
@[simp] theorem setSlotLink_axes (i : Nat) (f : SlotLink → SlotLink) (s : State) : (setSlotLink i f s).axes = s.axes := rfl
@[simp] theorem setSlotLink_time (i : Nat) (f : SlotLink → SlotLink) (s : State) : (setSlotLink i f s).time = s.time := rfl
@[simp] theorem setSlotLink_ring (i : Nat) (f : SlotLink → SlotLink) (s : State) : (setSlotLink i f s).ring = s.ring := rfl
@[simp] theorem setSlotLink_pair (i : Nat) (f : SlotLink → SlotLink) (s : State) : (setSlotLink i f s).pair = s.pair := rfl
@[simp] theorem setSlotLink_faults (i : Nat) (f : SlotLink → SlotLink) (s : State) : (setSlotLink i f s).faults = s.faults := rfl
@[simp] theorem setSlotLink_hf (i : Nat) (f : SlotLink → SlotLink) (s : State) : (setSlotLink i f s).hf = s.hf := rfl
@[simp] theorem setSlotLink_boot (i : Nat) (f : SlotLink → SlotLink) (s : State) : (setSlotLink i f s).boot = s.boot := rfl
@[simp] theorem setSlotLink_pace (i : Nat) (f : SlotLink → SlotLink) (s : State) : (setSlotLink i f s).pace = s.pace := rfl
@[simp] theorem setSlotLink_sense (i : Nat) (f : SlotLink → SlotLink) (s : State) : (setSlotLink i f s).sense = s.sense := rfl
@[simp] theorem setSlotLink_cages (i : Nat) (f : SlotLink → SlotLink) (s : State) : (setSlotLink i f s).cages = s.cages := rfl
@[simp] theorem setSlotLink_heldOut (i : Nat) (f : SlotLink → SlotLink) (s : State) : (setSlotLink i f s).heldOut = s.heldOut := rfl
@[simp] theorem setSlotLink_emit (i : Nat) (f : SlotLink → SlotLink) (s : State) : (setSlotLink i f s).emit = s.emit := rfl
@[simp] theorem setSlotLink_pending (i : Nat) (f : SlotLink → SlotLink) (s : State) : (setSlotLink i f s).pending = s.pending := rfl
@[simp] theorem setLane_now (i : Nat) (f : Lane → Lane) (s : State) : (setLane i f s).now = s.now := rfl
@[simp] theorem setLane_free (i : Nat) (f : Lane → Lane) (s : State) : (setLane i f s).free = s.free := rfl
@[simp] theorem setLane_staged (i : Nat) (f : Lane → Lane) (s : State) : (setLane i f s).staged = s.staged := rfl
@[simp] theorem setLane_running (i : Nat) (f : Lane → Lane) (s : State) : (setLane i f s).running = s.running := rfl
@[simp] theorem setLane_prev (i : Nat) (f : Lane → Lane) (s : State) : (setLane i f s).prev = s.prev := rfl
@[simp] theorem setLane_glue (i : Nat) (f : Lane → Lane) (s : State) : (setLane i f s).glue = s.glue := rfl
@[simp] theorem setLane_stageGen (i : Nat) (f : Lane → Lane) (s : State) : (setLane i f s).stageGen = s.stageGen := rfl
@[simp] theorem setLane_dryfit (i : Nat) (f : Lane → Lane) (s : State) : (setLane i f s).dryfit = s.dryfit := rfl
@[simp] theorem setLane_dryfitRun (i : Nat) (f : Lane → Lane) (s : State) : (setLane i f s).dryfitRun = s.dryfitRun := rfl
@[simp] theorem setLane_glueCount (i : Nat) (f : Lane → Lane) (s : State) : (setLane i f s).glueCount = s.glueCount := rfl
@[simp] theorem setLane_ledger (i : Nat) (f : Lane → Lane) (s : State) : (setLane i f s).ledger = s.ledger := rfl
@[simp] theorem setLane_cmds (i : Nat) (f : Lane → Lane) (s : State) : (setLane i f s).cmds = s.cmds := rfl
@[simp] theorem setLane_claims (i : Nat) (f : Lane → Lane) (s : State) : (setLane i f s).claims = s.claims := rfl
@[simp] theorem setLane_spans (i : Nat) (f : Lane → Lane) (s : State) : (setLane i f s).spans = s.spans := rfl
@[simp] theorem setLane_evOnce (i : Nat) (f : Lane → Lane) (s : State) : (setLane i f s).evOnce = s.evOnce := rfl
@[simp] theorem setLane_gauge (i : Nat) (f : Lane → Lane) (s : State) : (setLane i f s).gauge = s.gauge := rfl
@[simp] theorem setLane_ingest (i : Nat) (f : Lane → Lane) (s : State) : (setLane i f s).ingest = s.ingest := rfl
@[simp] theorem setLane_plane (i : Nat) (f : Lane → Lane) (s : State) : (setLane i f s).plane = s.plane := rfl
@[simp] theorem setLane_dovetail (i : Nat) (f : Lane → Lane) (s : State) : (setLane i f s).dovetail = s.dovetail := rfl
@[simp] theorem setLane_marq (i : Nat) (f : Lane → Lane) (s : State) : (setLane i f s).marq = s.marq := rfl
@[simp] theorem setLane_scribe (i : Nat) (f : Lane → Lane) (s : State) : (setLane i f s).scribe = s.scribe := rfl
@[simp] theorem setLane_prof (i : Nat) (f : Lane → Lane) (s : State) : (setLane i f s).prof = s.prof := rfl
@[simp] theorem setLane_views (i : Nat) (f : Lane → Lane) (s : State) : (setLane i f s).views = s.views := rfl
@[simp] theorem setLane_comp (i : Nat) (f : Lane → Lane) (s : State) : (setLane i f s).comp = s.comp := rfl
@[simp] theorem setLane_bench (i : Nat) (f : Lane → Lane) (s : State) : (setLane i f s).bench = s.bench := rfl
@[simp] theorem setLane_host (i : Nat) (f : Lane → Lane) (s : State) : (setLane i f s).host = s.host := rfl
@[simp] theorem setLane_dma (i : Nat) (f : Lane → Lane) (s : State) : (setLane i f s).dma = s.dma := rfl
@[simp] theorem setLane_axes (i : Nat) (f : Lane → Lane) (s : State) : (setLane i f s).axes = s.axes := rfl
@[simp] theorem setLane_time (i : Nat) (f : Lane → Lane) (s : State) : (setLane i f s).time = s.time := rfl
@[simp] theorem setLane_ring (i : Nat) (f : Lane → Lane) (s : State) : (setLane i f s).ring = s.ring := rfl
@[simp] theorem setLane_pair (i : Nat) (f : Lane → Lane) (s : State) : (setLane i f s).pair = s.pair := rfl
@[simp] theorem setLane_faults (i : Nat) (f : Lane → Lane) (s : State) : (setLane i f s).faults = s.faults := rfl
@[simp] theorem setLane_hf (i : Nat) (f : Lane → Lane) (s : State) : (setLane i f s).hf = s.hf := rfl
@[simp] theorem setLane_boot (i : Nat) (f : Lane → Lane) (s : State) : (setLane i f s).boot = s.boot := rfl
@[simp] theorem setLane_pace (i : Nat) (f : Lane → Lane) (s : State) : (setLane i f s).pace = s.pace := rfl
@[simp] theorem setLane_sense (i : Nat) (f : Lane → Lane) (s : State) : (setLane i f s).sense = s.sense := rfl
@[simp] theorem setLane_cages (i : Nat) (f : Lane → Lane) (s : State) : (setLane i f s).cages = s.cages := rfl
@[simp] theorem setLane_heldOut (i : Nat) (f : Lane → Lane) (s : State) : (setLane i f s).heldOut = s.heldOut := rfl
@[simp] theorem setLane_emit (i : Nat) (f : Lane → Lane) (s : State) : (setLane i f s).emit = s.emit := rfl
@[simp] theorem setLane_pending (i : Nat) (f : Lane → Lane) (s : State) : (setLane i f s).pending = s.pending := rfl
@[simp] theorem setPocxp_now (i : Nat) (f : Pocxp → Pocxp) (s : State) : (setPocxp i f s).now = s.now := rfl
@[simp] theorem setPocxp_free (i : Nat) (f : Pocxp → Pocxp) (s : State) : (setPocxp i f s).free = s.free := rfl
@[simp] theorem setPocxp_staged (i : Nat) (f : Pocxp → Pocxp) (s : State) : (setPocxp i f s).staged = s.staged := rfl
@[simp] theorem setPocxp_running (i : Nat) (f : Pocxp → Pocxp) (s : State) : (setPocxp i f s).running = s.running := rfl
@[simp] theorem setPocxp_prev (i : Nat) (f : Pocxp → Pocxp) (s : State) : (setPocxp i f s).prev = s.prev := rfl
@[simp] theorem setPocxp_glue (i : Nat) (f : Pocxp → Pocxp) (s : State) : (setPocxp i f s).glue = s.glue := rfl
@[simp] theorem setPocxp_stageGen (i : Nat) (f : Pocxp → Pocxp) (s : State) : (setPocxp i f s).stageGen = s.stageGen := rfl
@[simp] theorem setPocxp_dryfit (i : Nat) (f : Pocxp → Pocxp) (s : State) : (setPocxp i f s).dryfit = s.dryfit := rfl
@[simp] theorem setPocxp_dryfitRun (i : Nat) (f : Pocxp → Pocxp) (s : State) : (setPocxp i f s).dryfitRun = s.dryfitRun := rfl
@[simp] theorem setPocxp_glueCount (i : Nat) (f : Pocxp → Pocxp) (s : State) : (setPocxp i f s).glueCount = s.glueCount := rfl
@[simp] theorem setPocxp_ledger (i : Nat) (f : Pocxp → Pocxp) (s : State) : (setPocxp i f s).ledger = s.ledger := rfl
@[simp] theorem setPocxp_cmds (i : Nat) (f : Pocxp → Pocxp) (s : State) : (setPocxp i f s).cmds = s.cmds := rfl
@[simp] theorem setPocxp_claims (i : Nat) (f : Pocxp → Pocxp) (s : State) : (setPocxp i f s).claims = s.claims := rfl
@[simp] theorem setPocxp_spans (i : Nat) (f : Pocxp → Pocxp) (s : State) : (setPocxp i f s).spans = s.spans := rfl
@[simp] theorem setPocxp_evOnce (i : Nat) (f : Pocxp → Pocxp) (s : State) : (setPocxp i f s).evOnce = s.evOnce := rfl
@[simp] theorem setPocxp_gauge (i : Nat) (f : Pocxp → Pocxp) (s : State) : (setPocxp i f s).gauge = s.gauge := rfl
@[simp] theorem setPocxp_ingest (i : Nat) (f : Pocxp → Pocxp) (s : State) : (setPocxp i f s).ingest = s.ingest := rfl
@[simp] theorem setPocxp_plane (i : Nat) (f : Pocxp → Pocxp) (s : State) : (setPocxp i f s).plane = s.plane := rfl
@[simp] theorem setPocxp_dovetail (i : Nat) (f : Pocxp → Pocxp) (s : State) : (setPocxp i f s).dovetail = s.dovetail := rfl
@[simp] theorem setPocxp_marq (i : Nat) (f : Pocxp → Pocxp) (s : State) : (setPocxp i f s).marq = s.marq := rfl
@[simp] theorem setPocxp_scribe (i : Nat) (f : Pocxp → Pocxp) (s : State) : (setPocxp i f s).scribe = s.scribe := rfl
@[simp] theorem setPocxp_prof (i : Nat) (f : Pocxp → Pocxp) (s : State) : (setPocxp i f s).prof = s.prof := rfl
@[simp] theorem setPocxp_views (i : Nat) (f : Pocxp → Pocxp) (s : State) : (setPocxp i f s).views = s.views := rfl
@[simp] theorem setPocxp_comp (i : Nat) (f : Pocxp → Pocxp) (s : State) : (setPocxp i f s).comp = s.comp := rfl
@[simp] theorem setPocxp_bench (i : Nat) (f : Pocxp → Pocxp) (s : State) : (setPocxp i f s).bench = s.bench := rfl
@[simp] theorem setPocxp_host (i : Nat) (f : Pocxp → Pocxp) (s : State) : (setPocxp i f s).host = s.host := rfl
@[simp] theorem setPocxp_dma (i : Nat) (f : Pocxp → Pocxp) (s : State) : (setPocxp i f s).dma = s.dma := rfl
@[simp] theorem setPocxp_axes (i : Nat) (f : Pocxp → Pocxp) (s : State) : (setPocxp i f s).axes = s.axes := rfl
@[simp] theorem setPocxp_time (i : Nat) (f : Pocxp → Pocxp) (s : State) : (setPocxp i f s).time = s.time := rfl
@[simp] theorem setPocxp_ring (i : Nat) (f : Pocxp → Pocxp) (s : State) : (setPocxp i f s).ring = s.ring := rfl
@[simp] theorem setPocxp_pair (i : Nat) (f : Pocxp → Pocxp) (s : State) : (setPocxp i f s).pair = s.pair := rfl
@[simp] theorem setPocxp_faults (i : Nat) (f : Pocxp → Pocxp) (s : State) : (setPocxp i f s).faults = s.faults := rfl
@[simp] theorem setPocxp_hf (i : Nat) (f : Pocxp → Pocxp) (s : State) : (setPocxp i f s).hf = s.hf := rfl
@[simp] theorem setPocxp_boot (i : Nat) (f : Pocxp → Pocxp) (s : State) : (setPocxp i f s).boot = s.boot := rfl
@[simp] theorem setPocxp_pace (i : Nat) (f : Pocxp → Pocxp) (s : State) : (setPocxp i f s).pace = s.pace := rfl
@[simp] theorem setPocxp_sense (i : Nat) (f : Pocxp → Pocxp) (s : State) : (setPocxp i f s).sense = s.sense := rfl
@[simp] theorem setPocxp_cages (i : Nat) (f : Pocxp → Pocxp) (s : State) : (setPocxp i f s).cages = s.cages := rfl
@[simp] theorem setPocxp_heldOut (i : Nat) (f : Pocxp → Pocxp) (s : State) : (setPocxp i f s).heldOut = s.heldOut := rfl
@[simp] theorem setPocxp_emit (i : Nat) (f : Pocxp → Pocxp) (s : State) : (setPocxp i f s).emit = s.emit := rfl
@[simp] theorem setPocxp_pending (i : Nat) (f : Pocxp → Pocxp) (s : State) : (setPocxp i f s).pending = s.pending := rfl
@[simp] theorem setThrough_now (i : Nat) (f : Through → Through) (s : State) : (setThrough i f s).now = s.now := rfl
@[simp] theorem setThrough_free (i : Nat) (f : Through → Through) (s : State) : (setThrough i f s).free = s.free := rfl
@[simp] theorem setThrough_staged (i : Nat) (f : Through → Through) (s : State) : (setThrough i f s).staged = s.staged := rfl
@[simp] theorem setThrough_running (i : Nat) (f : Through → Through) (s : State) : (setThrough i f s).running = s.running := rfl
@[simp] theorem setThrough_prev (i : Nat) (f : Through → Through) (s : State) : (setThrough i f s).prev = s.prev := rfl
@[simp] theorem setThrough_glue (i : Nat) (f : Through → Through) (s : State) : (setThrough i f s).glue = s.glue := rfl
@[simp] theorem setThrough_stageGen (i : Nat) (f : Through → Through) (s : State) : (setThrough i f s).stageGen = s.stageGen := rfl
@[simp] theorem setThrough_dryfit (i : Nat) (f : Through → Through) (s : State) : (setThrough i f s).dryfit = s.dryfit := rfl
@[simp] theorem setThrough_dryfitRun (i : Nat) (f : Through → Through) (s : State) : (setThrough i f s).dryfitRun = s.dryfitRun := rfl
@[simp] theorem setThrough_glueCount (i : Nat) (f : Through → Through) (s : State) : (setThrough i f s).glueCount = s.glueCount := rfl
@[simp] theorem setThrough_ledger (i : Nat) (f : Through → Through) (s : State) : (setThrough i f s).ledger = s.ledger := rfl
@[simp] theorem setThrough_cmds (i : Nat) (f : Through → Through) (s : State) : (setThrough i f s).cmds = s.cmds := rfl
@[simp] theorem setThrough_claims (i : Nat) (f : Through → Through) (s : State) : (setThrough i f s).claims = s.claims := rfl
@[simp] theorem setThrough_spans (i : Nat) (f : Through → Through) (s : State) : (setThrough i f s).spans = s.spans := rfl
@[simp] theorem setThrough_evOnce (i : Nat) (f : Through → Through) (s : State) : (setThrough i f s).evOnce = s.evOnce := rfl
@[simp] theorem setThrough_gauge (i : Nat) (f : Through → Through) (s : State) : (setThrough i f s).gauge = s.gauge := rfl
@[simp] theorem setThrough_ingest (i : Nat) (f : Through → Through) (s : State) : (setThrough i f s).ingest = s.ingest := rfl
@[simp] theorem setThrough_plane (i : Nat) (f : Through → Through) (s : State) : (setThrough i f s).plane = s.plane := rfl
@[simp] theorem setThrough_dovetail (i : Nat) (f : Through → Through) (s : State) : (setThrough i f s).dovetail = s.dovetail := rfl
@[simp] theorem setThrough_marq (i : Nat) (f : Through → Through) (s : State) : (setThrough i f s).marq = s.marq := rfl
@[simp] theorem setThrough_scribe (i : Nat) (f : Through → Through) (s : State) : (setThrough i f s).scribe = s.scribe := rfl
@[simp] theorem setThrough_prof (i : Nat) (f : Through → Through) (s : State) : (setThrough i f s).prof = s.prof := rfl
@[simp] theorem setThrough_views (i : Nat) (f : Through → Through) (s : State) : (setThrough i f s).views = s.views := rfl
@[simp] theorem setThrough_comp (i : Nat) (f : Through → Through) (s : State) : (setThrough i f s).comp = s.comp := rfl
@[simp] theorem setThrough_bench (i : Nat) (f : Through → Through) (s : State) : (setThrough i f s).bench = s.bench := rfl
@[simp] theorem setThrough_host (i : Nat) (f : Through → Through) (s : State) : (setThrough i f s).host = s.host := rfl
@[simp] theorem setThrough_dma (i : Nat) (f : Through → Through) (s : State) : (setThrough i f s).dma = s.dma := rfl
@[simp] theorem setThrough_axes (i : Nat) (f : Through → Through) (s : State) : (setThrough i f s).axes = s.axes := rfl
@[simp] theorem setThrough_time (i : Nat) (f : Through → Through) (s : State) : (setThrough i f s).time = s.time := rfl
@[simp] theorem setThrough_ring (i : Nat) (f : Through → Through) (s : State) : (setThrough i f s).ring = s.ring := rfl
@[simp] theorem setThrough_pair (i : Nat) (f : Through → Through) (s : State) : (setThrough i f s).pair = s.pair := rfl
@[simp] theorem setThrough_faults (i : Nat) (f : Through → Through) (s : State) : (setThrough i f s).faults = s.faults := rfl
@[simp] theorem setThrough_hf (i : Nat) (f : Through → Through) (s : State) : (setThrough i f s).hf = s.hf := rfl
@[simp] theorem setThrough_boot (i : Nat) (f : Through → Through) (s : State) : (setThrough i f s).boot = s.boot := rfl
@[simp] theorem setThrough_pace (i : Nat) (f : Through → Through) (s : State) : (setThrough i f s).pace = s.pace := rfl
@[simp] theorem setThrough_sense (i : Nat) (f : Through → Through) (s : State) : (setThrough i f s).sense = s.sense := rfl
@[simp] theorem setThrough_cages (i : Nat) (f : Through → Through) (s : State) : (setThrough i f s).cages = s.cages := rfl
@[simp] theorem setThrough_heldOut (i : Nat) (f : Through → Through) (s : State) : (setThrough i f s).heldOut = s.heldOut := rfl
@[simp] theorem setThrough_emit (i : Nat) (f : Through → Through) (s : State) : (setThrough i f s).emit = s.emit := rfl
@[simp] theorem setThrough_pending (i : Nat) (f : Through → Through) (s : State) : (setThrough i f s).pending = s.pending := rfl
@[simp] theorem setSlotIngest_now (i : Nat) (f : SlotIngest → SlotIngest) (s : State) : (setSlotIngest i f s).now = s.now := rfl
@[simp] theorem setSlotIngest_free (i : Nat) (f : SlotIngest → SlotIngest) (s : State) : (setSlotIngest i f s).free = s.free := rfl
@[simp] theorem setSlotIngest_staged (i : Nat) (f : SlotIngest → SlotIngest) (s : State) : (setSlotIngest i f s).staged = s.staged := rfl
@[simp] theorem setSlotIngest_running (i : Nat) (f : SlotIngest → SlotIngest) (s : State) : (setSlotIngest i f s).running = s.running := rfl
@[simp] theorem setSlotIngest_prev (i : Nat) (f : SlotIngest → SlotIngest) (s : State) : (setSlotIngest i f s).prev = s.prev := rfl
@[simp] theorem setSlotIngest_glue (i : Nat) (f : SlotIngest → SlotIngest) (s : State) : (setSlotIngest i f s).glue = s.glue := rfl
@[simp] theorem setSlotIngest_stageGen (i : Nat) (f : SlotIngest → SlotIngest) (s : State) : (setSlotIngest i f s).stageGen = s.stageGen := rfl
@[simp] theorem setSlotIngest_dryfit (i : Nat) (f : SlotIngest → SlotIngest) (s : State) : (setSlotIngest i f s).dryfit = s.dryfit := rfl
@[simp] theorem setSlotIngest_dryfitRun (i : Nat) (f : SlotIngest → SlotIngest) (s : State) : (setSlotIngest i f s).dryfitRun = s.dryfitRun := rfl
@[simp] theorem setSlotIngest_glueCount (i : Nat) (f : SlotIngest → SlotIngest) (s : State) : (setSlotIngest i f s).glueCount = s.glueCount := rfl
@[simp] theorem setSlotIngest_ledger (i : Nat) (f : SlotIngest → SlotIngest) (s : State) : (setSlotIngest i f s).ledger = s.ledger := rfl
@[simp] theorem setSlotIngest_cmds (i : Nat) (f : SlotIngest → SlotIngest) (s : State) : (setSlotIngest i f s).cmds = s.cmds := rfl
@[simp] theorem setSlotIngest_claims (i : Nat) (f : SlotIngest → SlotIngest) (s : State) : (setSlotIngest i f s).claims = s.claims := rfl
@[simp] theorem setSlotIngest_spans (i : Nat) (f : SlotIngest → SlotIngest) (s : State) : (setSlotIngest i f s).spans = s.spans := rfl
@[simp] theorem setSlotIngest_evOnce (i : Nat) (f : SlotIngest → SlotIngest) (s : State) : (setSlotIngest i f s).evOnce = s.evOnce := rfl
@[simp] theorem setSlotIngest_gauge (i : Nat) (f : SlotIngest → SlotIngest) (s : State) : (setSlotIngest i f s).gauge = s.gauge := rfl
@[simp] theorem setSlotIngest_links (i : Nat) (f : SlotIngest → SlotIngest) (s : State) : (setSlotIngest i f s).links = s.links := rfl
@[simp] theorem setSlotIngest_plane (i : Nat) (f : SlotIngest → SlotIngest) (s : State) : (setSlotIngest i f s).plane = s.plane := rfl
@[simp] theorem setSlotIngest_dovetail (i : Nat) (f : SlotIngest → SlotIngest) (s : State) : (setSlotIngest i f s).dovetail = s.dovetail := rfl
@[simp] theorem setSlotIngest_marq (i : Nat) (f : SlotIngest → SlotIngest) (s : State) : (setSlotIngest i f s).marq = s.marq := rfl
@[simp] theorem setSlotIngest_scribe (i : Nat) (f : SlotIngest → SlotIngest) (s : State) : (setSlotIngest i f s).scribe = s.scribe := rfl
@[simp] theorem setSlotIngest_prof (i : Nat) (f : SlotIngest → SlotIngest) (s : State) : (setSlotIngest i f s).prof = s.prof := rfl
@[simp] theorem setSlotIngest_views (i : Nat) (f : SlotIngest → SlotIngest) (s : State) : (setSlotIngest i f s).views = s.views := rfl
@[simp] theorem setSlotIngest_comp (i : Nat) (f : SlotIngest → SlotIngest) (s : State) : (setSlotIngest i f s).comp = s.comp := rfl
@[simp] theorem setSlotIngest_bench (i : Nat) (f : SlotIngest → SlotIngest) (s : State) : (setSlotIngest i f s).bench = s.bench := rfl
@[simp] theorem setSlotIngest_host (i : Nat) (f : SlotIngest → SlotIngest) (s : State) : (setSlotIngest i f s).host = s.host := rfl
@[simp] theorem setSlotIngest_dma (i : Nat) (f : SlotIngest → SlotIngest) (s : State) : (setSlotIngest i f s).dma = s.dma := rfl
@[simp] theorem setSlotIngest_axes (i : Nat) (f : SlotIngest → SlotIngest) (s : State) : (setSlotIngest i f s).axes = s.axes := rfl
@[simp] theorem setSlotIngest_time (i : Nat) (f : SlotIngest → SlotIngest) (s : State) : (setSlotIngest i f s).time = s.time := rfl
@[simp] theorem setSlotIngest_ring (i : Nat) (f : SlotIngest → SlotIngest) (s : State) : (setSlotIngest i f s).ring = s.ring := rfl
@[simp] theorem setSlotIngest_pair (i : Nat) (f : SlotIngest → SlotIngest) (s : State) : (setSlotIngest i f s).pair = s.pair := rfl
@[simp] theorem setSlotIngest_faults (i : Nat) (f : SlotIngest → SlotIngest) (s : State) : (setSlotIngest i f s).faults = s.faults := rfl
@[simp] theorem setSlotIngest_hf (i : Nat) (f : SlotIngest → SlotIngest) (s : State) : (setSlotIngest i f s).hf = s.hf := rfl
@[simp] theorem setSlotIngest_boot (i : Nat) (f : SlotIngest → SlotIngest) (s : State) : (setSlotIngest i f s).boot = s.boot := rfl
@[simp] theorem setSlotIngest_pace (i : Nat) (f : SlotIngest → SlotIngest) (s : State) : (setSlotIngest i f s).pace = s.pace := rfl
@[simp] theorem setSlotIngest_sense (i : Nat) (f : SlotIngest → SlotIngest) (s : State) : (setSlotIngest i f s).sense = s.sense := rfl
@[simp] theorem setSlotIngest_cages (i : Nat) (f : SlotIngest → SlotIngest) (s : State) : (setSlotIngest i f s).cages = s.cages := rfl
@[simp] theorem setSlotIngest_heldOut (i : Nat) (f : SlotIngest → SlotIngest) (s : State) : (setSlotIngest i f s).heldOut = s.heldOut := rfl
@[simp] theorem setSlotIngest_emit (i : Nat) (f : SlotIngest → SlotIngest) (s : State) : (setSlotIngest i f s).emit = s.emit := rfl
@[simp] theorem setSlotIngest_pending (i : Nat) (f : SlotIngest → SlotIngest) (s : State) : (setSlotIngest i f s).pending = s.pending := rfl
@[simp] theorem setSlotPlane_now (i : Nat) (f : SlotPlane → SlotPlane) (s : State) : (setSlotPlane i f s).now = s.now := rfl
@[simp] theorem setSlotPlane_free (i : Nat) (f : SlotPlane → SlotPlane) (s : State) : (setSlotPlane i f s).free = s.free := rfl
@[simp] theorem setSlotPlane_staged (i : Nat) (f : SlotPlane → SlotPlane) (s : State) : (setSlotPlane i f s).staged = s.staged := rfl
@[simp] theorem setSlotPlane_running (i : Nat) (f : SlotPlane → SlotPlane) (s : State) : (setSlotPlane i f s).running = s.running := rfl
@[simp] theorem setSlotPlane_prev (i : Nat) (f : SlotPlane → SlotPlane) (s : State) : (setSlotPlane i f s).prev = s.prev := rfl
@[simp] theorem setSlotPlane_glue (i : Nat) (f : SlotPlane → SlotPlane) (s : State) : (setSlotPlane i f s).glue = s.glue := rfl
@[simp] theorem setSlotPlane_stageGen (i : Nat) (f : SlotPlane → SlotPlane) (s : State) : (setSlotPlane i f s).stageGen = s.stageGen := rfl
@[simp] theorem setSlotPlane_dryfit (i : Nat) (f : SlotPlane → SlotPlane) (s : State) : (setSlotPlane i f s).dryfit = s.dryfit := rfl
@[simp] theorem setSlotPlane_dryfitRun (i : Nat) (f : SlotPlane → SlotPlane) (s : State) : (setSlotPlane i f s).dryfitRun = s.dryfitRun := rfl
@[simp] theorem setSlotPlane_glueCount (i : Nat) (f : SlotPlane → SlotPlane) (s : State) : (setSlotPlane i f s).glueCount = s.glueCount := rfl
@[simp] theorem setSlotPlane_ledger (i : Nat) (f : SlotPlane → SlotPlane) (s : State) : (setSlotPlane i f s).ledger = s.ledger := rfl
@[simp] theorem setSlotPlane_cmds (i : Nat) (f : SlotPlane → SlotPlane) (s : State) : (setSlotPlane i f s).cmds = s.cmds := rfl
@[simp] theorem setSlotPlane_claims (i : Nat) (f : SlotPlane → SlotPlane) (s : State) : (setSlotPlane i f s).claims = s.claims := rfl
@[simp] theorem setSlotPlane_spans (i : Nat) (f : SlotPlane → SlotPlane) (s : State) : (setSlotPlane i f s).spans = s.spans := rfl
@[simp] theorem setSlotPlane_evOnce (i : Nat) (f : SlotPlane → SlotPlane) (s : State) : (setSlotPlane i f s).evOnce = s.evOnce := rfl
@[simp] theorem setSlotPlane_gauge (i : Nat) (f : SlotPlane → SlotPlane) (s : State) : (setSlotPlane i f s).gauge = s.gauge := rfl
@[simp] theorem setSlotPlane_links (i : Nat) (f : SlotPlane → SlotPlane) (s : State) : (setSlotPlane i f s).links = s.links := rfl
@[simp] theorem setSlotPlane_ingest (i : Nat) (f : SlotPlane → SlotPlane) (s : State) : (setSlotPlane i f s).ingest = s.ingest := rfl
@[simp] theorem setSlotPlane_dovetail (i : Nat) (f : SlotPlane → SlotPlane) (s : State) : (setSlotPlane i f s).dovetail = s.dovetail := rfl
@[simp] theorem setSlotPlane_marq (i : Nat) (f : SlotPlane → SlotPlane) (s : State) : (setSlotPlane i f s).marq = s.marq := rfl
@[simp] theorem setSlotPlane_scribe (i : Nat) (f : SlotPlane → SlotPlane) (s : State) : (setSlotPlane i f s).scribe = s.scribe := rfl
@[simp] theorem setSlotPlane_prof (i : Nat) (f : SlotPlane → SlotPlane) (s : State) : (setSlotPlane i f s).prof = s.prof := rfl
@[simp] theorem setSlotPlane_views (i : Nat) (f : SlotPlane → SlotPlane) (s : State) : (setSlotPlane i f s).views = s.views := rfl
@[simp] theorem setSlotPlane_comp (i : Nat) (f : SlotPlane → SlotPlane) (s : State) : (setSlotPlane i f s).comp = s.comp := rfl
@[simp] theorem setSlotPlane_bench (i : Nat) (f : SlotPlane → SlotPlane) (s : State) : (setSlotPlane i f s).bench = s.bench := rfl
@[simp] theorem setSlotPlane_host (i : Nat) (f : SlotPlane → SlotPlane) (s : State) : (setSlotPlane i f s).host = s.host := rfl
@[simp] theorem setSlotPlane_dma (i : Nat) (f : SlotPlane → SlotPlane) (s : State) : (setSlotPlane i f s).dma = s.dma := rfl
@[simp] theorem setSlotPlane_axes (i : Nat) (f : SlotPlane → SlotPlane) (s : State) : (setSlotPlane i f s).axes = s.axes := rfl
@[simp] theorem setSlotPlane_time (i : Nat) (f : SlotPlane → SlotPlane) (s : State) : (setSlotPlane i f s).time = s.time := rfl
@[simp] theorem setSlotPlane_ring (i : Nat) (f : SlotPlane → SlotPlane) (s : State) : (setSlotPlane i f s).ring = s.ring := rfl
@[simp] theorem setSlotPlane_pair (i : Nat) (f : SlotPlane → SlotPlane) (s : State) : (setSlotPlane i f s).pair = s.pair := rfl
@[simp] theorem setSlotPlane_faults (i : Nat) (f : SlotPlane → SlotPlane) (s : State) : (setSlotPlane i f s).faults = s.faults := rfl
@[simp] theorem setSlotPlane_hf (i : Nat) (f : SlotPlane → SlotPlane) (s : State) : (setSlotPlane i f s).hf = s.hf := rfl
@[simp] theorem setSlotPlane_boot (i : Nat) (f : SlotPlane → SlotPlane) (s : State) : (setSlotPlane i f s).boot = s.boot := rfl
@[simp] theorem setSlotPlane_pace (i : Nat) (f : SlotPlane → SlotPlane) (s : State) : (setSlotPlane i f s).pace = s.pace := rfl
@[simp] theorem setSlotPlane_sense (i : Nat) (f : SlotPlane → SlotPlane) (s : State) : (setSlotPlane i f s).sense = s.sense := rfl
@[simp] theorem setSlotPlane_cages (i : Nat) (f : SlotPlane → SlotPlane) (s : State) : (setSlotPlane i f s).cages = s.cages := rfl
@[simp] theorem setSlotPlane_heldOut (i : Nat) (f : SlotPlane → SlotPlane) (s : State) : (setSlotPlane i f s).heldOut = s.heldOut := rfl
@[simp] theorem setSlotPlane_emit (i : Nat) (f : SlotPlane → SlotPlane) (s : State) : (setSlotPlane i f s).emit = s.emit := rfl
@[simp] theorem setSlotPlane_pending (i : Nat) (f : SlotPlane → SlotPlane) (s : State) : (setSlotPlane i f s).pending = s.pending := rfl
@[simp] theorem setQueue_now (i : Nat) (f : Queue → Queue) (s : State) : (setQueue i f s).now = s.now := rfl
@[simp] theorem setQueue_free (i : Nat) (f : Queue → Queue) (s : State) : (setQueue i f s).free = s.free := rfl
@[simp] theorem setQueue_staged (i : Nat) (f : Queue → Queue) (s : State) : (setQueue i f s).staged = s.staged := rfl
@[simp] theorem setQueue_running (i : Nat) (f : Queue → Queue) (s : State) : (setQueue i f s).running = s.running := rfl
@[simp] theorem setQueue_prev (i : Nat) (f : Queue → Queue) (s : State) : (setQueue i f s).prev = s.prev := rfl
@[simp] theorem setQueue_glue (i : Nat) (f : Queue → Queue) (s : State) : (setQueue i f s).glue = s.glue := rfl
@[simp] theorem setQueue_stageGen (i : Nat) (f : Queue → Queue) (s : State) : (setQueue i f s).stageGen = s.stageGen := rfl
@[simp] theorem setQueue_dryfit (i : Nat) (f : Queue → Queue) (s : State) : (setQueue i f s).dryfit = s.dryfit := rfl
@[simp] theorem setQueue_dryfitRun (i : Nat) (f : Queue → Queue) (s : State) : (setQueue i f s).dryfitRun = s.dryfitRun := rfl
@[simp] theorem setQueue_glueCount (i : Nat) (f : Queue → Queue) (s : State) : (setQueue i f s).glueCount = s.glueCount := rfl
@[simp] theorem setQueue_ledger (i : Nat) (f : Queue → Queue) (s : State) : (setQueue i f s).ledger = s.ledger := rfl
@[simp] theorem setQueue_cmds (i : Nat) (f : Queue → Queue) (s : State) : (setQueue i f s).cmds = s.cmds := rfl
@[simp] theorem setQueue_claims (i : Nat) (f : Queue → Queue) (s : State) : (setQueue i f s).claims = s.claims := rfl
@[simp] theorem setQueue_spans (i : Nat) (f : Queue → Queue) (s : State) : (setQueue i f s).spans = s.spans := rfl
@[simp] theorem setQueue_evOnce (i : Nat) (f : Queue → Queue) (s : State) : (setQueue i f s).evOnce = s.evOnce := rfl
@[simp] theorem setQueue_gauge (i : Nat) (f : Queue → Queue) (s : State) : (setQueue i f s).gauge = s.gauge := rfl
@[simp] theorem setQueue_links (i : Nat) (f : Queue → Queue) (s : State) : (setQueue i f s).links = s.links := rfl
@[simp] theorem setQueue_ingest (i : Nat) (f : Queue → Queue) (s : State) : (setQueue i f s).ingest = s.ingest := rfl
@[simp] theorem setQueue_plane (i : Nat) (f : Queue → Queue) (s : State) : (setQueue i f s).plane = s.plane := rfl
@[simp] theorem setQueue_dovetail (i : Nat) (f : Queue → Queue) (s : State) : (setQueue i f s).dovetail = s.dovetail := rfl
@[simp] theorem setQueue_marq (i : Nat) (f : Queue → Queue) (s : State) : (setQueue i f s).marq = s.marq := rfl
@[simp] theorem setQueue_prof (i : Nat) (f : Queue → Queue) (s : State) : (setQueue i f s).prof = s.prof := rfl
@[simp] theorem setQueue_views (i : Nat) (f : Queue → Queue) (s : State) : (setQueue i f s).views = s.views := rfl
@[simp] theorem setQueue_comp (i : Nat) (f : Queue → Queue) (s : State) : (setQueue i f s).comp = s.comp := rfl
@[simp] theorem setQueue_bench (i : Nat) (f : Queue → Queue) (s : State) : (setQueue i f s).bench = s.bench := rfl
@[simp] theorem setQueue_host (i : Nat) (f : Queue → Queue) (s : State) : (setQueue i f s).host = s.host := rfl
@[simp] theorem setQueue_dma (i : Nat) (f : Queue → Queue) (s : State) : (setQueue i f s).dma = s.dma := rfl
@[simp] theorem setQueue_axes (i : Nat) (f : Queue → Queue) (s : State) : (setQueue i f s).axes = s.axes := rfl
@[simp] theorem setQueue_time (i : Nat) (f : Queue → Queue) (s : State) : (setQueue i f s).time = s.time := rfl
@[simp] theorem setQueue_ring (i : Nat) (f : Queue → Queue) (s : State) : (setQueue i f s).ring = s.ring := rfl
@[simp] theorem setQueue_pair (i : Nat) (f : Queue → Queue) (s : State) : (setQueue i f s).pair = s.pair := rfl
@[simp] theorem setQueue_faults (i : Nat) (f : Queue → Queue) (s : State) : (setQueue i f s).faults = s.faults := rfl
@[simp] theorem setQueue_hf (i : Nat) (f : Queue → Queue) (s : State) : (setQueue i f s).hf = s.hf := rfl
@[simp] theorem setQueue_boot (i : Nat) (f : Queue → Queue) (s : State) : (setQueue i f s).boot = s.boot := rfl
@[simp] theorem setQueue_pace (i : Nat) (f : Queue → Queue) (s : State) : (setQueue i f s).pace = s.pace := rfl
@[simp] theorem setQueue_sense (i : Nat) (f : Queue → Queue) (s : State) : (setQueue i f s).sense = s.sense := rfl
@[simp] theorem setQueue_cages (i : Nat) (f : Queue → Queue) (s : State) : (setQueue i f s).cages = s.cages := rfl
@[simp] theorem setQueue_heldOut (i : Nat) (f : Queue → Queue) (s : State) : (setQueue i f s).heldOut = s.heldOut := rfl
@[simp] theorem setQueue_emit (i : Nat) (f : Queue → Queue) (s : State) : (setQueue i f s).emit = s.emit := rfl
@[simp] theorem setQueue_pending (i : Nat) (f : Queue → Queue) (s : State) : (setQueue i f s).pending = s.pending := rfl
@[simp] theorem setStation_now (i : Nat) (f : Station → Station) (s : State) : (setStation i f s).now = s.now := rfl
@[simp] theorem setStation_free (i : Nat) (f : Station → Station) (s : State) : (setStation i f s).free = s.free := rfl
@[simp] theorem setStation_staged (i : Nat) (f : Station → Station) (s : State) : (setStation i f s).staged = s.staged := rfl
@[simp] theorem setStation_running (i : Nat) (f : Station → Station) (s : State) : (setStation i f s).running = s.running := rfl
@[simp] theorem setStation_prev (i : Nat) (f : Station → Station) (s : State) : (setStation i f s).prev = s.prev := rfl
@[simp] theorem setStation_glue (i : Nat) (f : Station → Station) (s : State) : (setStation i f s).glue = s.glue := rfl
@[simp] theorem setStation_stageGen (i : Nat) (f : Station → Station) (s : State) : (setStation i f s).stageGen = s.stageGen := rfl
@[simp] theorem setStation_dryfit (i : Nat) (f : Station → Station) (s : State) : (setStation i f s).dryfit = s.dryfit := rfl
@[simp] theorem setStation_dryfitRun (i : Nat) (f : Station → Station) (s : State) : (setStation i f s).dryfitRun = s.dryfitRun := rfl
@[simp] theorem setStation_glueCount (i : Nat) (f : Station → Station) (s : State) : (setStation i f s).glueCount = s.glueCount := rfl
@[simp] theorem setStation_ledger (i : Nat) (f : Station → Station) (s : State) : (setStation i f s).ledger = s.ledger := rfl
@[simp] theorem setStation_cmds (i : Nat) (f : Station → Station) (s : State) : (setStation i f s).cmds = s.cmds := rfl
@[simp] theorem setStation_claims (i : Nat) (f : Station → Station) (s : State) : (setStation i f s).claims = s.claims := rfl
@[simp] theorem setStation_spans (i : Nat) (f : Station → Station) (s : State) : (setStation i f s).spans = s.spans := rfl
@[simp] theorem setStation_evOnce (i : Nat) (f : Station → Station) (s : State) : (setStation i f s).evOnce = s.evOnce := rfl
@[simp] theorem setStation_gauge (i : Nat) (f : Station → Station) (s : State) : (setStation i f s).gauge = s.gauge := rfl
@[simp] theorem setStation_links (i : Nat) (f : Station → Station) (s : State) : (setStation i f s).links = s.links := rfl
@[simp] theorem setStation_ingest (i : Nat) (f : Station → Station) (s : State) : (setStation i f s).ingest = s.ingest := rfl
@[simp] theorem setStation_plane (i : Nat) (f : Station → Station) (s : State) : (setStation i f s).plane = s.plane := rfl
@[simp] theorem setStation_dovetail (i : Nat) (f : Station → Station) (s : State) : (setStation i f s).dovetail = s.dovetail := rfl
@[simp] theorem setStation_marq (i : Nat) (f : Station → Station) (s : State) : (setStation i f s).marq = s.marq := rfl
@[simp] theorem setStation_prof (i : Nat) (f : Station → Station) (s : State) : (setStation i f s).prof = s.prof := rfl
@[simp] theorem setStation_views (i : Nat) (f : Station → Station) (s : State) : (setStation i f s).views = s.views := rfl
@[simp] theorem setStation_comp (i : Nat) (f : Station → Station) (s : State) : (setStation i f s).comp = s.comp := rfl
@[simp] theorem setStation_bench (i : Nat) (f : Station → Station) (s : State) : (setStation i f s).bench = s.bench := rfl
@[simp] theorem setStation_host (i : Nat) (f : Station → Station) (s : State) : (setStation i f s).host = s.host := rfl
@[simp] theorem setStation_dma (i : Nat) (f : Station → Station) (s : State) : (setStation i f s).dma = s.dma := rfl
@[simp] theorem setStation_axes (i : Nat) (f : Station → Station) (s : State) : (setStation i f s).axes = s.axes := rfl
@[simp] theorem setStation_time (i : Nat) (f : Station → Station) (s : State) : (setStation i f s).time = s.time := rfl
@[simp] theorem setStation_ring (i : Nat) (f : Station → Station) (s : State) : (setStation i f s).ring = s.ring := rfl
@[simp] theorem setStation_pair (i : Nat) (f : Station → Station) (s : State) : (setStation i f s).pair = s.pair := rfl
@[simp] theorem setStation_faults (i : Nat) (f : Station → Station) (s : State) : (setStation i f s).faults = s.faults := rfl
@[simp] theorem setStation_hf (i : Nat) (f : Station → Station) (s : State) : (setStation i f s).hf = s.hf := rfl
@[simp] theorem setStation_boot (i : Nat) (f : Station → Station) (s : State) : (setStation i f s).boot = s.boot := rfl
@[simp] theorem setStation_pace (i : Nat) (f : Station → Station) (s : State) : (setStation i f s).pace = s.pace := rfl
@[simp] theorem setStation_sense (i : Nat) (f : Station → Station) (s : State) : (setStation i f s).sense = s.sense := rfl
@[simp] theorem setStation_cages (i : Nat) (f : Station → Station) (s : State) : (setStation i f s).cages = s.cages := rfl
@[simp] theorem setStation_heldOut (i : Nat) (f : Station → Station) (s : State) : (setStation i f s).heldOut = s.heldOut := rfl
@[simp] theorem setStation_emit (i : Nat) (f : Station → Station) (s : State) : (setStation i f s).emit = s.emit := rfl
@[simp] theorem setStation_pending (i : Nat) (f : Station → Station) (s : State) : (setStation i f s).pending = s.pending := rfl
@[simp] theorem setView_now (i : Nat) (f : ViewStream → ViewStream) (s : State) : (setView i f s).now = s.now := rfl
@[simp] theorem setView_free (i : Nat) (f : ViewStream → ViewStream) (s : State) : (setView i f s).free = s.free := rfl
@[simp] theorem setView_staged (i : Nat) (f : ViewStream → ViewStream) (s : State) : (setView i f s).staged = s.staged := rfl
@[simp] theorem setView_running (i : Nat) (f : ViewStream → ViewStream) (s : State) : (setView i f s).running = s.running := rfl
@[simp] theorem setView_prev (i : Nat) (f : ViewStream → ViewStream) (s : State) : (setView i f s).prev = s.prev := rfl
@[simp] theorem setView_glue (i : Nat) (f : ViewStream → ViewStream) (s : State) : (setView i f s).glue = s.glue := rfl
@[simp] theorem setView_stageGen (i : Nat) (f : ViewStream → ViewStream) (s : State) : (setView i f s).stageGen = s.stageGen := rfl
@[simp] theorem setView_dryfit (i : Nat) (f : ViewStream → ViewStream) (s : State) : (setView i f s).dryfit = s.dryfit := rfl
@[simp] theorem setView_dryfitRun (i : Nat) (f : ViewStream → ViewStream) (s : State) : (setView i f s).dryfitRun = s.dryfitRun := rfl
@[simp] theorem setView_glueCount (i : Nat) (f : ViewStream → ViewStream) (s : State) : (setView i f s).glueCount = s.glueCount := rfl
@[simp] theorem setView_ledger (i : Nat) (f : ViewStream → ViewStream) (s : State) : (setView i f s).ledger = s.ledger := rfl
@[simp] theorem setView_cmds (i : Nat) (f : ViewStream → ViewStream) (s : State) : (setView i f s).cmds = s.cmds := rfl
@[simp] theorem setView_claims (i : Nat) (f : ViewStream → ViewStream) (s : State) : (setView i f s).claims = s.claims := rfl
@[simp] theorem setView_spans (i : Nat) (f : ViewStream → ViewStream) (s : State) : (setView i f s).spans = s.spans := rfl
@[simp] theorem setView_evOnce (i : Nat) (f : ViewStream → ViewStream) (s : State) : (setView i f s).evOnce = s.evOnce := rfl
@[simp] theorem setView_gauge (i : Nat) (f : ViewStream → ViewStream) (s : State) : (setView i f s).gauge = s.gauge := rfl
@[simp] theorem setView_links (i : Nat) (f : ViewStream → ViewStream) (s : State) : (setView i f s).links = s.links := rfl
@[simp] theorem setView_ingest (i : Nat) (f : ViewStream → ViewStream) (s : State) : (setView i f s).ingest = s.ingest := rfl
@[simp] theorem setView_plane (i : Nat) (f : ViewStream → ViewStream) (s : State) : (setView i f s).plane = s.plane := rfl
@[simp] theorem setView_dovetail (i : Nat) (f : ViewStream → ViewStream) (s : State) : (setView i f s).dovetail = s.dovetail := rfl
@[simp] theorem setView_marq (i : Nat) (f : ViewStream → ViewStream) (s : State) : (setView i f s).marq = s.marq := rfl
@[simp] theorem setView_scribe (i : Nat) (f : ViewStream → ViewStream) (s : State) : (setView i f s).scribe = s.scribe := rfl
@[simp] theorem setView_prof (i : Nat) (f : ViewStream → ViewStream) (s : State) : (setView i f s).prof = s.prof := rfl
@[simp] theorem setView_comp (i : Nat) (f : ViewStream → ViewStream) (s : State) : (setView i f s).comp = s.comp := rfl
@[simp] theorem setView_bench (i : Nat) (f : ViewStream → ViewStream) (s : State) : (setView i f s).bench = s.bench := rfl
@[simp] theorem setView_host (i : Nat) (f : ViewStream → ViewStream) (s : State) : (setView i f s).host = s.host := rfl
@[simp] theorem setView_dma (i : Nat) (f : ViewStream → ViewStream) (s : State) : (setView i f s).dma = s.dma := rfl
@[simp] theorem setView_axes (i : Nat) (f : ViewStream → ViewStream) (s : State) : (setView i f s).axes = s.axes := rfl
@[simp] theorem setView_time (i : Nat) (f : ViewStream → ViewStream) (s : State) : (setView i f s).time = s.time := rfl
@[simp] theorem setView_ring (i : Nat) (f : ViewStream → ViewStream) (s : State) : (setView i f s).ring = s.ring := rfl
@[simp] theorem setView_pair (i : Nat) (f : ViewStream → ViewStream) (s : State) : (setView i f s).pair = s.pair := rfl
@[simp] theorem setView_faults (i : Nat) (f : ViewStream → ViewStream) (s : State) : (setView i f s).faults = s.faults := rfl
@[simp] theorem setView_hf (i : Nat) (f : ViewStream → ViewStream) (s : State) : (setView i f s).hf = s.hf := rfl
@[simp] theorem setView_boot (i : Nat) (f : ViewStream → ViewStream) (s : State) : (setView i f s).boot = s.boot := rfl
@[simp] theorem setView_pace (i : Nat) (f : ViewStream → ViewStream) (s : State) : (setView i f s).pace = s.pace := rfl
@[simp] theorem setView_sense (i : Nat) (f : ViewStream → ViewStream) (s : State) : (setView i f s).sense = s.sense := rfl
@[simp] theorem setView_cages (i : Nat) (f : ViewStream → ViewStream) (s : State) : (setView i f s).cages = s.cages := rfl
@[simp] theorem setView_heldOut (i : Nat) (f : ViewStream → ViewStream) (s : State) : (setView i f s).heldOut = s.heldOut := rfl
@[simp] theorem setView_emit (i : Nat) (f : ViewStream → ViewStream) (s : State) : (setView i f s).emit = s.emit := rfl
@[simp] theorem setView_pending (i : Nat) (f : ViewStream → ViewStream) (s : State) : (setView i f s).pending = s.pending := rfl
@[simp] theorem setCe_now (i : Nat) (f : CeUnit → CeUnit) (s : State) : (setCe i f s).now = s.now := rfl
@[simp] theorem setCe_free (i : Nat) (f : CeUnit → CeUnit) (s : State) : (setCe i f s).free = s.free := rfl
@[simp] theorem setCe_staged (i : Nat) (f : CeUnit → CeUnit) (s : State) : (setCe i f s).staged = s.staged := rfl
@[simp] theorem setCe_running (i : Nat) (f : CeUnit → CeUnit) (s : State) : (setCe i f s).running = s.running := rfl
@[simp] theorem setCe_prev (i : Nat) (f : CeUnit → CeUnit) (s : State) : (setCe i f s).prev = s.prev := rfl
@[simp] theorem setCe_glue (i : Nat) (f : CeUnit → CeUnit) (s : State) : (setCe i f s).glue = s.glue := rfl
@[simp] theorem setCe_stageGen (i : Nat) (f : CeUnit → CeUnit) (s : State) : (setCe i f s).stageGen = s.stageGen := rfl
@[simp] theorem setCe_dryfit (i : Nat) (f : CeUnit → CeUnit) (s : State) : (setCe i f s).dryfit = s.dryfit := rfl
@[simp] theorem setCe_dryfitRun (i : Nat) (f : CeUnit → CeUnit) (s : State) : (setCe i f s).dryfitRun = s.dryfitRun := rfl
@[simp] theorem setCe_glueCount (i : Nat) (f : CeUnit → CeUnit) (s : State) : (setCe i f s).glueCount = s.glueCount := rfl
@[simp] theorem setCe_ledger (i : Nat) (f : CeUnit → CeUnit) (s : State) : (setCe i f s).ledger = s.ledger := rfl
@[simp] theorem setCe_cmds (i : Nat) (f : CeUnit → CeUnit) (s : State) : (setCe i f s).cmds = s.cmds := rfl
@[simp] theorem setCe_claims (i : Nat) (f : CeUnit → CeUnit) (s : State) : (setCe i f s).claims = s.claims := rfl
@[simp] theorem setCe_spans (i : Nat) (f : CeUnit → CeUnit) (s : State) : (setCe i f s).spans = s.spans := rfl
@[simp] theorem setCe_evOnce (i : Nat) (f : CeUnit → CeUnit) (s : State) : (setCe i f s).evOnce = s.evOnce := rfl
@[simp] theorem setCe_gauge (i : Nat) (f : CeUnit → CeUnit) (s : State) : (setCe i f s).gauge = s.gauge := rfl
@[simp] theorem setCe_links (i : Nat) (f : CeUnit → CeUnit) (s : State) : (setCe i f s).links = s.links := rfl
@[simp] theorem setCe_ingest (i : Nat) (f : CeUnit → CeUnit) (s : State) : (setCe i f s).ingest = s.ingest := rfl
@[simp] theorem setCe_plane (i : Nat) (f : CeUnit → CeUnit) (s : State) : (setCe i f s).plane = s.plane := rfl
@[simp] theorem setCe_dovetail (i : Nat) (f : CeUnit → CeUnit) (s : State) : (setCe i f s).dovetail = s.dovetail := rfl
@[simp] theorem setCe_marq (i : Nat) (f : CeUnit → CeUnit) (s : State) : (setCe i f s).marq = s.marq := rfl
@[simp] theorem setCe_scribe (i : Nat) (f : CeUnit → CeUnit) (s : State) : (setCe i f s).scribe = s.scribe := rfl
@[simp] theorem setCe_prof (i : Nat) (f : CeUnit → CeUnit) (s : State) : (setCe i f s).prof = s.prof := rfl
@[simp] theorem setCe_views (i : Nat) (f : CeUnit → CeUnit) (s : State) : (setCe i f s).views = s.views := rfl
@[simp] theorem setCe_bench (i : Nat) (f : CeUnit → CeUnit) (s : State) : (setCe i f s).bench = s.bench := rfl
@[simp] theorem setCe_host (i : Nat) (f : CeUnit → CeUnit) (s : State) : (setCe i f s).host = s.host := rfl
@[simp] theorem setCe_dma (i : Nat) (f : CeUnit → CeUnit) (s : State) : (setCe i f s).dma = s.dma := rfl
@[simp] theorem setCe_axes (i : Nat) (f : CeUnit → CeUnit) (s : State) : (setCe i f s).axes = s.axes := rfl
@[simp] theorem setCe_time (i : Nat) (f : CeUnit → CeUnit) (s : State) : (setCe i f s).time = s.time := rfl
@[simp] theorem setCe_ring (i : Nat) (f : CeUnit → CeUnit) (s : State) : (setCe i f s).ring = s.ring := rfl
@[simp] theorem setCe_pair (i : Nat) (f : CeUnit → CeUnit) (s : State) : (setCe i f s).pair = s.pair := rfl
@[simp] theorem setCe_faults (i : Nat) (f : CeUnit → CeUnit) (s : State) : (setCe i f s).faults = s.faults := rfl
@[simp] theorem setCe_hf (i : Nat) (f : CeUnit → CeUnit) (s : State) : (setCe i f s).hf = s.hf := rfl
@[simp] theorem setCe_boot (i : Nat) (f : CeUnit → CeUnit) (s : State) : (setCe i f s).boot = s.boot := rfl
@[simp] theorem setCe_pace (i : Nat) (f : CeUnit → CeUnit) (s : State) : (setCe i f s).pace = s.pace := rfl
@[simp] theorem setCe_sense (i : Nat) (f : CeUnit → CeUnit) (s : State) : (setCe i f s).sense = s.sense := rfl
@[simp] theorem setCe_cages (i : Nat) (f : CeUnit → CeUnit) (s : State) : (setCe i f s).cages = s.cages := rfl
@[simp] theorem setCe_heldOut (i : Nat) (f : CeUnit → CeUnit) (s : State) : (setCe i f s).heldOut = s.heldOut := rfl
@[simp] theorem setCe_emit (i : Nat) (f : CeUnit → CeUnit) (s : State) : (setCe i f s).emit = s.emit := rfl
@[simp] theorem setCe_pending (i : Nat) (f : CeUnit → CeUnit) (s : State) : (setCe i f s).pending = s.pending := rfl
@[simp] theorem setDe_now (i : Nat) (f : DeUnit → DeUnit) (s : State) : (setDe i f s).now = s.now := rfl
@[simp] theorem setDe_free (i : Nat) (f : DeUnit → DeUnit) (s : State) : (setDe i f s).free = s.free := rfl
@[simp] theorem setDe_staged (i : Nat) (f : DeUnit → DeUnit) (s : State) : (setDe i f s).staged = s.staged := rfl
@[simp] theorem setDe_running (i : Nat) (f : DeUnit → DeUnit) (s : State) : (setDe i f s).running = s.running := rfl
@[simp] theorem setDe_prev (i : Nat) (f : DeUnit → DeUnit) (s : State) : (setDe i f s).prev = s.prev := rfl
@[simp] theorem setDe_glue (i : Nat) (f : DeUnit → DeUnit) (s : State) : (setDe i f s).glue = s.glue := rfl
@[simp] theorem setDe_stageGen (i : Nat) (f : DeUnit → DeUnit) (s : State) : (setDe i f s).stageGen = s.stageGen := rfl
@[simp] theorem setDe_dryfit (i : Nat) (f : DeUnit → DeUnit) (s : State) : (setDe i f s).dryfit = s.dryfit := rfl
@[simp] theorem setDe_dryfitRun (i : Nat) (f : DeUnit → DeUnit) (s : State) : (setDe i f s).dryfitRun = s.dryfitRun := rfl
@[simp] theorem setDe_glueCount (i : Nat) (f : DeUnit → DeUnit) (s : State) : (setDe i f s).glueCount = s.glueCount := rfl
@[simp] theorem setDe_ledger (i : Nat) (f : DeUnit → DeUnit) (s : State) : (setDe i f s).ledger = s.ledger := rfl
@[simp] theorem setDe_cmds (i : Nat) (f : DeUnit → DeUnit) (s : State) : (setDe i f s).cmds = s.cmds := rfl
@[simp] theorem setDe_claims (i : Nat) (f : DeUnit → DeUnit) (s : State) : (setDe i f s).claims = s.claims := rfl
@[simp] theorem setDe_spans (i : Nat) (f : DeUnit → DeUnit) (s : State) : (setDe i f s).spans = s.spans := rfl
@[simp] theorem setDe_evOnce (i : Nat) (f : DeUnit → DeUnit) (s : State) : (setDe i f s).evOnce = s.evOnce := rfl
@[simp] theorem setDe_gauge (i : Nat) (f : DeUnit → DeUnit) (s : State) : (setDe i f s).gauge = s.gauge := rfl
@[simp] theorem setDe_links (i : Nat) (f : DeUnit → DeUnit) (s : State) : (setDe i f s).links = s.links := rfl
@[simp] theorem setDe_ingest (i : Nat) (f : DeUnit → DeUnit) (s : State) : (setDe i f s).ingest = s.ingest := rfl
@[simp] theorem setDe_plane (i : Nat) (f : DeUnit → DeUnit) (s : State) : (setDe i f s).plane = s.plane := rfl
@[simp] theorem setDe_dovetail (i : Nat) (f : DeUnit → DeUnit) (s : State) : (setDe i f s).dovetail = s.dovetail := rfl
@[simp] theorem setDe_marq (i : Nat) (f : DeUnit → DeUnit) (s : State) : (setDe i f s).marq = s.marq := rfl
@[simp] theorem setDe_scribe (i : Nat) (f : DeUnit → DeUnit) (s : State) : (setDe i f s).scribe = s.scribe := rfl
@[simp] theorem setDe_prof (i : Nat) (f : DeUnit → DeUnit) (s : State) : (setDe i f s).prof = s.prof := rfl
@[simp] theorem setDe_views (i : Nat) (f : DeUnit → DeUnit) (s : State) : (setDe i f s).views = s.views := rfl
@[simp] theorem setDe_bench (i : Nat) (f : DeUnit → DeUnit) (s : State) : (setDe i f s).bench = s.bench := rfl
@[simp] theorem setDe_host (i : Nat) (f : DeUnit → DeUnit) (s : State) : (setDe i f s).host = s.host := rfl
@[simp] theorem setDe_dma (i : Nat) (f : DeUnit → DeUnit) (s : State) : (setDe i f s).dma = s.dma := rfl
@[simp] theorem setDe_axes (i : Nat) (f : DeUnit → DeUnit) (s : State) : (setDe i f s).axes = s.axes := rfl
@[simp] theorem setDe_time (i : Nat) (f : DeUnit → DeUnit) (s : State) : (setDe i f s).time = s.time := rfl
@[simp] theorem setDe_ring (i : Nat) (f : DeUnit → DeUnit) (s : State) : (setDe i f s).ring = s.ring := rfl
@[simp] theorem setDe_pair (i : Nat) (f : DeUnit → DeUnit) (s : State) : (setDe i f s).pair = s.pair := rfl
@[simp] theorem setDe_faults (i : Nat) (f : DeUnit → DeUnit) (s : State) : (setDe i f s).faults = s.faults := rfl
@[simp] theorem setDe_hf (i : Nat) (f : DeUnit → DeUnit) (s : State) : (setDe i f s).hf = s.hf := rfl
@[simp] theorem setDe_boot (i : Nat) (f : DeUnit → DeUnit) (s : State) : (setDe i f s).boot = s.boot := rfl
@[simp] theorem setDe_pace (i : Nat) (f : DeUnit → DeUnit) (s : State) : (setDe i f s).pace = s.pace := rfl
@[simp] theorem setDe_sense (i : Nat) (f : DeUnit → DeUnit) (s : State) : (setDe i f s).sense = s.sense := rfl
@[simp] theorem setDe_cages (i : Nat) (f : DeUnit → DeUnit) (s : State) : (setDe i f s).cages = s.cages := rfl
@[simp] theorem setDe_heldOut (i : Nat) (f : DeUnit → DeUnit) (s : State) : (setDe i f s).heldOut = s.heldOut := rfl
@[simp] theorem setDe_emit (i : Nat) (f : DeUnit → DeUnit) (s : State) : (setDe i f s).emit = s.emit := rfl
@[simp] theorem setDe_pending (i : Nat) (f : DeUnit → DeUnit) (s : State) : (setDe i f s).pending = s.pending := rfl
@[simp] theorem setCtl_now (i : Nat) (f : BenchCtl → BenchCtl) (s : State) : (setCtl i f s).now = s.now := rfl
@[simp] theorem setCtl_free (i : Nat) (f : BenchCtl → BenchCtl) (s : State) : (setCtl i f s).free = s.free := rfl
@[simp] theorem setCtl_staged (i : Nat) (f : BenchCtl → BenchCtl) (s : State) : (setCtl i f s).staged = s.staged := rfl
@[simp] theorem setCtl_running (i : Nat) (f : BenchCtl → BenchCtl) (s : State) : (setCtl i f s).running = s.running := rfl
@[simp] theorem setCtl_prev (i : Nat) (f : BenchCtl → BenchCtl) (s : State) : (setCtl i f s).prev = s.prev := rfl
@[simp] theorem setCtl_glue (i : Nat) (f : BenchCtl → BenchCtl) (s : State) : (setCtl i f s).glue = s.glue := rfl
@[simp] theorem setCtl_stageGen (i : Nat) (f : BenchCtl → BenchCtl) (s : State) : (setCtl i f s).stageGen = s.stageGen := rfl
@[simp] theorem setCtl_dryfit (i : Nat) (f : BenchCtl → BenchCtl) (s : State) : (setCtl i f s).dryfit = s.dryfit := rfl
@[simp] theorem setCtl_dryfitRun (i : Nat) (f : BenchCtl → BenchCtl) (s : State) : (setCtl i f s).dryfitRun = s.dryfitRun := rfl
@[simp] theorem setCtl_glueCount (i : Nat) (f : BenchCtl → BenchCtl) (s : State) : (setCtl i f s).glueCount = s.glueCount := rfl
@[simp] theorem setCtl_ledger (i : Nat) (f : BenchCtl → BenchCtl) (s : State) : (setCtl i f s).ledger = s.ledger := rfl
@[simp] theorem setCtl_cmds (i : Nat) (f : BenchCtl → BenchCtl) (s : State) : (setCtl i f s).cmds = s.cmds := rfl
@[simp] theorem setCtl_claims (i : Nat) (f : BenchCtl → BenchCtl) (s : State) : (setCtl i f s).claims = s.claims := rfl
@[simp] theorem setCtl_spans (i : Nat) (f : BenchCtl → BenchCtl) (s : State) : (setCtl i f s).spans = s.spans := rfl
@[simp] theorem setCtl_evOnce (i : Nat) (f : BenchCtl → BenchCtl) (s : State) : (setCtl i f s).evOnce = s.evOnce := rfl
@[simp] theorem setCtl_gauge (i : Nat) (f : BenchCtl → BenchCtl) (s : State) : (setCtl i f s).gauge = s.gauge := rfl
@[simp] theorem setCtl_links (i : Nat) (f : BenchCtl → BenchCtl) (s : State) : (setCtl i f s).links = s.links := rfl
@[simp] theorem setCtl_ingest (i : Nat) (f : BenchCtl → BenchCtl) (s : State) : (setCtl i f s).ingest = s.ingest := rfl
@[simp] theorem setCtl_plane (i : Nat) (f : BenchCtl → BenchCtl) (s : State) : (setCtl i f s).plane = s.plane := rfl
@[simp] theorem setCtl_dovetail (i : Nat) (f : BenchCtl → BenchCtl) (s : State) : (setCtl i f s).dovetail = s.dovetail := rfl
@[simp] theorem setCtl_marq (i : Nat) (f : BenchCtl → BenchCtl) (s : State) : (setCtl i f s).marq = s.marq := rfl
@[simp] theorem setCtl_scribe (i : Nat) (f : BenchCtl → BenchCtl) (s : State) : (setCtl i f s).scribe = s.scribe := rfl
@[simp] theorem setCtl_prof (i : Nat) (f : BenchCtl → BenchCtl) (s : State) : (setCtl i f s).prof = s.prof := rfl
@[simp] theorem setCtl_views (i : Nat) (f : BenchCtl → BenchCtl) (s : State) : (setCtl i f s).views = s.views := rfl
@[simp] theorem setCtl_comp (i : Nat) (f : BenchCtl → BenchCtl) (s : State) : (setCtl i f s).comp = s.comp := rfl
@[simp] theorem setCtl_host (i : Nat) (f : BenchCtl → BenchCtl) (s : State) : (setCtl i f s).host = s.host := rfl
@[simp] theorem setCtl_dma (i : Nat) (f : BenchCtl → BenchCtl) (s : State) : (setCtl i f s).dma = s.dma := rfl
@[simp] theorem setCtl_axes (i : Nat) (f : BenchCtl → BenchCtl) (s : State) : (setCtl i f s).axes = s.axes := rfl
@[simp] theorem setCtl_time (i : Nat) (f : BenchCtl → BenchCtl) (s : State) : (setCtl i f s).time = s.time := rfl
@[simp] theorem setCtl_ring (i : Nat) (f : BenchCtl → BenchCtl) (s : State) : (setCtl i f s).ring = s.ring := rfl
@[simp] theorem setCtl_pair (i : Nat) (f : BenchCtl → BenchCtl) (s : State) : (setCtl i f s).pair = s.pair := rfl
@[simp] theorem setCtl_faults (i : Nat) (f : BenchCtl → BenchCtl) (s : State) : (setCtl i f s).faults = s.faults := rfl
@[simp] theorem setCtl_hf (i : Nat) (f : BenchCtl → BenchCtl) (s : State) : (setCtl i f s).hf = s.hf := rfl
@[simp] theorem setCtl_boot (i : Nat) (f : BenchCtl → BenchCtl) (s : State) : (setCtl i f s).boot = s.boot := rfl
@[simp] theorem setCtl_pace (i : Nat) (f : BenchCtl → BenchCtl) (s : State) : (setCtl i f s).pace = s.pace := rfl
@[simp] theorem setCtl_sense (i : Nat) (f : BenchCtl → BenchCtl) (s : State) : (setCtl i f s).sense = s.sense := rfl
@[simp] theorem setCtl_cages (i : Nat) (f : BenchCtl → BenchCtl) (s : State) : (setCtl i f s).cages = s.cages := rfl
@[simp] theorem setCtl_heldOut (i : Nat) (f : BenchCtl → BenchCtl) (s : State) : (setCtl i f s).heldOut = s.heldOut := rfl
@[simp] theorem setCtl_emit (i : Nat) (f : BenchCtl → BenchCtl) (s : State) : (setCtl i f s).emit = s.emit := rfl
@[simp] theorem setCtl_pending (i : Nat) (f : BenchCtl → BenchCtl) (s : State) : (setCtl i f s).pending = s.pending := rfl
@[simp] theorem setPort_now (i : Nat) (f : BenchPort → BenchPort) (s : State) : (setPort i f s).now = s.now := rfl
@[simp] theorem setPort_free (i : Nat) (f : BenchPort → BenchPort) (s : State) : (setPort i f s).free = s.free := rfl
@[simp] theorem setPort_staged (i : Nat) (f : BenchPort → BenchPort) (s : State) : (setPort i f s).staged = s.staged := rfl
@[simp] theorem setPort_running (i : Nat) (f : BenchPort → BenchPort) (s : State) : (setPort i f s).running = s.running := rfl
@[simp] theorem setPort_prev (i : Nat) (f : BenchPort → BenchPort) (s : State) : (setPort i f s).prev = s.prev := rfl
@[simp] theorem setPort_glue (i : Nat) (f : BenchPort → BenchPort) (s : State) : (setPort i f s).glue = s.glue := rfl
@[simp] theorem setPort_stageGen (i : Nat) (f : BenchPort → BenchPort) (s : State) : (setPort i f s).stageGen = s.stageGen := rfl
@[simp] theorem setPort_dryfit (i : Nat) (f : BenchPort → BenchPort) (s : State) : (setPort i f s).dryfit = s.dryfit := rfl
@[simp] theorem setPort_dryfitRun (i : Nat) (f : BenchPort → BenchPort) (s : State) : (setPort i f s).dryfitRun = s.dryfitRun := rfl
@[simp] theorem setPort_glueCount (i : Nat) (f : BenchPort → BenchPort) (s : State) : (setPort i f s).glueCount = s.glueCount := rfl
@[simp] theorem setPort_ledger (i : Nat) (f : BenchPort → BenchPort) (s : State) : (setPort i f s).ledger = s.ledger := rfl
@[simp] theorem setPort_cmds (i : Nat) (f : BenchPort → BenchPort) (s : State) : (setPort i f s).cmds = s.cmds := rfl
@[simp] theorem setPort_claims (i : Nat) (f : BenchPort → BenchPort) (s : State) : (setPort i f s).claims = s.claims := rfl
@[simp] theorem setPort_spans (i : Nat) (f : BenchPort → BenchPort) (s : State) : (setPort i f s).spans = s.spans := rfl
@[simp] theorem setPort_evOnce (i : Nat) (f : BenchPort → BenchPort) (s : State) : (setPort i f s).evOnce = s.evOnce := rfl
@[simp] theorem setPort_gauge (i : Nat) (f : BenchPort → BenchPort) (s : State) : (setPort i f s).gauge = s.gauge := rfl
@[simp] theorem setPort_links (i : Nat) (f : BenchPort → BenchPort) (s : State) : (setPort i f s).links = s.links := rfl
@[simp] theorem setPort_ingest (i : Nat) (f : BenchPort → BenchPort) (s : State) : (setPort i f s).ingest = s.ingest := rfl
@[simp] theorem setPort_plane (i : Nat) (f : BenchPort → BenchPort) (s : State) : (setPort i f s).plane = s.plane := rfl
@[simp] theorem setPort_dovetail (i : Nat) (f : BenchPort → BenchPort) (s : State) : (setPort i f s).dovetail = s.dovetail := rfl
@[simp] theorem setPort_marq (i : Nat) (f : BenchPort → BenchPort) (s : State) : (setPort i f s).marq = s.marq := rfl
@[simp] theorem setPort_scribe (i : Nat) (f : BenchPort → BenchPort) (s : State) : (setPort i f s).scribe = s.scribe := rfl
@[simp] theorem setPort_prof (i : Nat) (f : BenchPort → BenchPort) (s : State) : (setPort i f s).prof = s.prof := rfl
@[simp] theorem setPort_views (i : Nat) (f : BenchPort → BenchPort) (s : State) : (setPort i f s).views = s.views := rfl
@[simp] theorem setPort_comp (i : Nat) (f : BenchPort → BenchPort) (s : State) : (setPort i f s).comp = s.comp := rfl
@[simp] theorem setPort_host (i : Nat) (f : BenchPort → BenchPort) (s : State) : (setPort i f s).host = s.host := rfl
@[simp] theorem setPort_dma (i : Nat) (f : BenchPort → BenchPort) (s : State) : (setPort i f s).dma = s.dma := rfl
@[simp] theorem setPort_axes (i : Nat) (f : BenchPort → BenchPort) (s : State) : (setPort i f s).axes = s.axes := rfl
@[simp] theorem setPort_time (i : Nat) (f : BenchPort → BenchPort) (s : State) : (setPort i f s).time = s.time := rfl
@[simp] theorem setPort_ring (i : Nat) (f : BenchPort → BenchPort) (s : State) : (setPort i f s).ring = s.ring := rfl
@[simp] theorem setPort_pair (i : Nat) (f : BenchPort → BenchPort) (s : State) : (setPort i f s).pair = s.pair := rfl
@[simp] theorem setPort_faults (i : Nat) (f : BenchPort → BenchPort) (s : State) : (setPort i f s).faults = s.faults := rfl
@[simp] theorem setPort_hf (i : Nat) (f : BenchPort → BenchPort) (s : State) : (setPort i f s).hf = s.hf := rfl
@[simp] theorem setPort_boot (i : Nat) (f : BenchPort → BenchPort) (s : State) : (setPort i f s).boot = s.boot := rfl
@[simp] theorem setPort_pace (i : Nat) (f : BenchPort → BenchPort) (s : State) : (setPort i f s).pace = s.pace := rfl
@[simp] theorem setPort_sense (i : Nat) (f : BenchPort → BenchPort) (s : State) : (setPort i f s).sense = s.sense := rfl
@[simp] theorem setPort_cages (i : Nat) (f : BenchPort → BenchPort) (s : State) : (setPort i f s).cages = s.cages := rfl
@[simp] theorem setPort_heldOut (i : Nat) (f : BenchPort → BenchPort) (s : State) : (setPort i f s).heldOut = s.heldOut := rfl
@[simp] theorem setPort_emit (i : Nat) (f : BenchPort → BenchPort) (s : State) : (setPort i f s).emit = s.emit := rfl
@[simp] theorem setPort_pending (i : Nat) (f : BenchPort → BenchPort) (s : State) : (setPort i f s).pending = s.pending := rfl
@[simp] theorem setChan_now (i : Nat) (f : DmaChan → DmaChan) (s : State) : (setChan i f s).now = s.now := rfl
@[simp] theorem setChan_free (i : Nat) (f : DmaChan → DmaChan) (s : State) : (setChan i f s).free = s.free := rfl
@[simp] theorem setChan_staged (i : Nat) (f : DmaChan → DmaChan) (s : State) : (setChan i f s).staged = s.staged := rfl
@[simp] theorem setChan_running (i : Nat) (f : DmaChan → DmaChan) (s : State) : (setChan i f s).running = s.running := rfl
@[simp] theorem setChan_prev (i : Nat) (f : DmaChan → DmaChan) (s : State) : (setChan i f s).prev = s.prev := rfl
@[simp] theorem setChan_glue (i : Nat) (f : DmaChan → DmaChan) (s : State) : (setChan i f s).glue = s.glue := rfl
@[simp] theorem setChan_stageGen (i : Nat) (f : DmaChan → DmaChan) (s : State) : (setChan i f s).stageGen = s.stageGen := rfl
@[simp] theorem setChan_dryfit (i : Nat) (f : DmaChan → DmaChan) (s : State) : (setChan i f s).dryfit = s.dryfit := rfl
@[simp] theorem setChan_dryfitRun (i : Nat) (f : DmaChan → DmaChan) (s : State) : (setChan i f s).dryfitRun = s.dryfitRun := rfl
@[simp] theorem setChan_glueCount (i : Nat) (f : DmaChan → DmaChan) (s : State) : (setChan i f s).glueCount = s.glueCount := rfl
@[simp] theorem setChan_ledger (i : Nat) (f : DmaChan → DmaChan) (s : State) : (setChan i f s).ledger = s.ledger := rfl
@[simp] theorem setChan_cmds (i : Nat) (f : DmaChan → DmaChan) (s : State) : (setChan i f s).cmds = s.cmds := rfl
@[simp] theorem setChan_claims (i : Nat) (f : DmaChan → DmaChan) (s : State) : (setChan i f s).claims = s.claims := rfl
@[simp] theorem setChan_spans (i : Nat) (f : DmaChan → DmaChan) (s : State) : (setChan i f s).spans = s.spans := rfl
@[simp] theorem setChan_evOnce (i : Nat) (f : DmaChan → DmaChan) (s : State) : (setChan i f s).evOnce = s.evOnce := rfl
@[simp] theorem setChan_gauge (i : Nat) (f : DmaChan → DmaChan) (s : State) : (setChan i f s).gauge = s.gauge := rfl
@[simp] theorem setChan_links (i : Nat) (f : DmaChan → DmaChan) (s : State) : (setChan i f s).links = s.links := rfl
@[simp] theorem setChan_ingest (i : Nat) (f : DmaChan → DmaChan) (s : State) : (setChan i f s).ingest = s.ingest := rfl
@[simp] theorem setChan_plane (i : Nat) (f : DmaChan → DmaChan) (s : State) : (setChan i f s).plane = s.plane := rfl
@[simp] theorem setChan_dovetail (i : Nat) (f : DmaChan → DmaChan) (s : State) : (setChan i f s).dovetail = s.dovetail := rfl
@[simp] theorem setChan_marq (i : Nat) (f : DmaChan → DmaChan) (s : State) : (setChan i f s).marq = s.marq := rfl
@[simp] theorem setChan_scribe (i : Nat) (f : DmaChan → DmaChan) (s : State) : (setChan i f s).scribe = s.scribe := rfl
@[simp] theorem setChan_prof (i : Nat) (f : DmaChan → DmaChan) (s : State) : (setChan i f s).prof = s.prof := rfl
@[simp] theorem setChan_views (i : Nat) (f : DmaChan → DmaChan) (s : State) : (setChan i f s).views = s.views := rfl
@[simp] theorem setChan_comp (i : Nat) (f : DmaChan → DmaChan) (s : State) : (setChan i f s).comp = s.comp := rfl
@[simp] theorem setChan_bench (i : Nat) (f : DmaChan → DmaChan) (s : State) : (setChan i f s).bench = s.bench := rfl
@[simp] theorem setChan_host (i : Nat) (f : DmaChan → DmaChan) (s : State) : (setChan i f s).host = s.host := rfl
@[simp] theorem setChan_axes (i : Nat) (f : DmaChan → DmaChan) (s : State) : (setChan i f s).axes = s.axes := rfl
@[simp] theorem setChan_time (i : Nat) (f : DmaChan → DmaChan) (s : State) : (setChan i f s).time = s.time := rfl
@[simp] theorem setChan_ring (i : Nat) (f : DmaChan → DmaChan) (s : State) : (setChan i f s).ring = s.ring := rfl
@[simp] theorem setChan_pair (i : Nat) (f : DmaChan → DmaChan) (s : State) : (setChan i f s).pair = s.pair := rfl
@[simp] theorem setChan_faults (i : Nat) (f : DmaChan → DmaChan) (s : State) : (setChan i f s).faults = s.faults := rfl
@[simp] theorem setChan_hf (i : Nat) (f : DmaChan → DmaChan) (s : State) : (setChan i f s).hf = s.hf := rfl
@[simp] theorem setChan_boot (i : Nat) (f : DmaChan → DmaChan) (s : State) : (setChan i f s).boot = s.boot := rfl
@[simp] theorem setChan_pace (i : Nat) (f : DmaChan → DmaChan) (s : State) : (setChan i f s).pace = s.pace := rfl
@[simp] theorem setChan_sense (i : Nat) (f : DmaChan → DmaChan) (s : State) : (setChan i f s).sense = s.sense := rfl
@[simp] theorem setChan_cages (i : Nat) (f : DmaChan → DmaChan) (s : State) : (setChan i f s).cages = s.cages := rfl
@[simp] theorem setChan_heldOut (i : Nat) (f : DmaChan → DmaChan) (s : State) : (setChan i f s).heldOut = s.heldOut := rfl
@[simp] theorem setChan_emit (i : Nat) (f : DmaChan → DmaChan) (s : State) : (setChan i f s).emit = s.emit := rfl
@[simp] theorem setChan_pending (i : Nat) (f : DmaChan → DmaChan) (s : State) : (setChan i f s).pending = s.pending := rfl
@[simp] theorem setAxis_now (i : Nat) (f : Axis → Axis) (s : State) : (setAxis i f s).now = s.now := rfl
@[simp] theorem setAxis_free (i : Nat) (f : Axis → Axis) (s : State) : (setAxis i f s).free = s.free := rfl
@[simp] theorem setAxis_staged (i : Nat) (f : Axis → Axis) (s : State) : (setAxis i f s).staged = s.staged := rfl
@[simp] theorem setAxis_running (i : Nat) (f : Axis → Axis) (s : State) : (setAxis i f s).running = s.running := rfl
@[simp] theorem setAxis_prev (i : Nat) (f : Axis → Axis) (s : State) : (setAxis i f s).prev = s.prev := rfl
@[simp] theorem setAxis_glue (i : Nat) (f : Axis → Axis) (s : State) : (setAxis i f s).glue = s.glue := rfl
@[simp] theorem setAxis_stageGen (i : Nat) (f : Axis → Axis) (s : State) : (setAxis i f s).stageGen = s.stageGen := rfl
@[simp] theorem setAxis_dryfit (i : Nat) (f : Axis → Axis) (s : State) : (setAxis i f s).dryfit = s.dryfit := rfl
@[simp] theorem setAxis_dryfitRun (i : Nat) (f : Axis → Axis) (s : State) : (setAxis i f s).dryfitRun = s.dryfitRun := rfl
@[simp] theorem setAxis_glueCount (i : Nat) (f : Axis → Axis) (s : State) : (setAxis i f s).glueCount = s.glueCount := rfl
@[simp] theorem setAxis_ledger (i : Nat) (f : Axis → Axis) (s : State) : (setAxis i f s).ledger = s.ledger := rfl
@[simp] theorem setAxis_cmds (i : Nat) (f : Axis → Axis) (s : State) : (setAxis i f s).cmds = s.cmds := rfl
@[simp] theorem setAxis_claims (i : Nat) (f : Axis → Axis) (s : State) : (setAxis i f s).claims = s.claims := rfl
@[simp] theorem setAxis_spans (i : Nat) (f : Axis → Axis) (s : State) : (setAxis i f s).spans = s.spans := rfl
@[simp] theorem setAxis_evOnce (i : Nat) (f : Axis → Axis) (s : State) : (setAxis i f s).evOnce = s.evOnce := rfl
@[simp] theorem setAxis_gauge (i : Nat) (f : Axis → Axis) (s : State) : (setAxis i f s).gauge = s.gauge := rfl
@[simp] theorem setAxis_links (i : Nat) (f : Axis → Axis) (s : State) : (setAxis i f s).links = s.links := rfl
@[simp] theorem setAxis_ingest (i : Nat) (f : Axis → Axis) (s : State) : (setAxis i f s).ingest = s.ingest := rfl
@[simp] theorem setAxis_plane (i : Nat) (f : Axis → Axis) (s : State) : (setAxis i f s).plane = s.plane := rfl
@[simp] theorem setAxis_dovetail (i : Nat) (f : Axis → Axis) (s : State) : (setAxis i f s).dovetail = s.dovetail := rfl
@[simp] theorem setAxis_marq (i : Nat) (f : Axis → Axis) (s : State) : (setAxis i f s).marq = s.marq := rfl
@[simp] theorem setAxis_scribe (i : Nat) (f : Axis → Axis) (s : State) : (setAxis i f s).scribe = s.scribe := rfl
@[simp] theorem setAxis_prof (i : Nat) (f : Axis → Axis) (s : State) : (setAxis i f s).prof = s.prof := rfl
@[simp] theorem setAxis_views (i : Nat) (f : Axis → Axis) (s : State) : (setAxis i f s).views = s.views := rfl
@[simp] theorem setAxis_comp (i : Nat) (f : Axis → Axis) (s : State) : (setAxis i f s).comp = s.comp := rfl
@[simp] theorem setAxis_bench (i : Nat) (f : Axis → Axis) (s : State) : (setAxis i f s).bench = s.bench := rfl
@[simp] theorem setAxis_host (i : Nat) (f : Axis → Axis) (s : State) : (setAxis i f s).host = s.host := rfl
@[simp] theorem setAxis_dma (i : Nat) (f : Axis → Axis) (s : State) : (setAxis i f s).dma = s.dma := rfl
@[simp] theorem setAxis_time (i : Nat) (f : Axis → Axis) (s : State) : (setAxis i f s).time = s.time := rfl
@[simp] theorem setAxis_ring (i : Nat) (f : Axis → Axis) (s : State) : (setAxis i f s).ring = s.ring := rfl
@[simp] theorem setAxis_pair (i : Nat) (f : Axis → Axis) (s : State) : (setAxis i f s).pair = s.pair := rfl
@[simp] theorem setAxis_faults (i : Nat) (f : Axis → Axis) (s : State) : (setAxis i f s).faults = s.faults := rfl
@[simp] theorem setAxis_hf (i : Nat) (f : Axis → Axis) (s : State) : (setAxis i f s).hf = s.hf := rfl
@[simp] theorem setAxis_boot (i : Nat) (f : Axis → Axis) (s : State) : (setAxis i f s).boot = s.boot := rfl
@[simp] theorem setAxis_pace (i : Nat) (f : Axis → Axis) (s : State) : (setAxis i f s).pace = s.pace := rfl
@[simp] theorem setAxis_sense (i : Nat) (f : Axis → Axis) (s : State) : (setAxis i f s).sense = s.sense := rfl
@[simp] theorem setAxis_cages (i : Nat) (f : Axis → Axis) (s : State) : (setAxis i f s).cages = s.cages := rfl
@[simp] theorem setAxis_heldOut (i : Nat) (f : Axis → Axis) (s : State) : (setAxis i f s).heldOut = s.heldOut := rfl
@[simp] theorem setAxis_emit (i : Nat) (f : Axis → Axis) (s : State) : (setAxis i f s).emit = s.emit := rfl
@[simp] theorem setAxis_pending (i : Nat) (f : Axis → Axis) (s : State) : (setAxis i f s).pending = s.pending := rfl
@[simp] theorem setEth_now (i : Nat) (f : EthPort → EthPort) (s : State) : (setEth i f s).now = s.now := rfl
@[simp] theorem setEth_free (i : Nat) (f : EthPort → EthPort) (s : State) : (setEth i f s).free = s.free := rfl
@[simp] theorem setEth_staged (i : Nat) (f : EthPort → EthPort) (s : State) : (setEth i f s).staged = s.staged := rfl
@[simp] theorem setEth_running (i : Nat) (f : EthPort → EthPort) (s : State) : (setEth i f s).running = s.running := rfl
@[simp] theorem setEth_prev (i : Nat) (f : EthPort → EthPort) (s : State) : (setEth i f s).prev = s.prev := rfl
@[simp] theorem setEth_glue (i : Nat) (f : EthPort → EthPort) (s : State) : (setEth i f s).glue = s.glue := rfl
@[simp] theorem setEth_stageGen (i : Nat) (f : EthPort → EthPort) (s : State) : (setEth i f s).stageGen = s.stageGen := rfl
@[simp] theorem setEth_dryfit (i : Nat) (f : EthPort → EthPort) (s : State) : (setEth i f s).dryfit = s.dryfit := rfl
@[simp] theorem setEth_dryfitRun (i : Nat) (f : EthPort → EthPort) (s : State) : (setEth i f s).dryfitRun = s.dryfitRun := rfl
@[simp] theorem setEth_glueCount (i : Nat) (f : EthPort → EthPort) (s : State) : (setEth i f s).glueCount = s.glueCount := rfl
@[simp] theorem setEth_ledger (i : Nat) (f : EthPort → EthPort) (s : State) : (setEth i f s).ledger = s.ledger := rfl
@[simp] theorem setEth_cmds (i : Nat) (f : EthPort → EthPort) (s : State) : (setEth i f s).cmds = s.cmds := rfl
@[simp] theorem setEth_claims (i : Nat) (f : EthPort → EthPort) (s : State) : (setEth i f s).claims = s.claims := rfl
@[simp] theorem setEth_spans (i : Nat) (f : EthPort → EthPort) (s : State) : (setEth i f s).spans = s.spans := rfl
@[simp] theorem setEth_evOnce (i : Nat) (f : EthPort → EthPort) (s : State) : (setEth i f s).evOnce = s.evOnce := rfl
@[simp] theorem setEth_gauge (i : Nat) (f : EthPort → EthPort) (s : State) : (setEth i f s).gauge = s.gauge := rfl
@[simp] theorem setEth_links (i : Nat) (f : EthPort → EthPort) (s : State) : (setEth i f s).links = s.links := rfl
@[simp] theorem setEth_ingest (i : Nat) (f : EthPort → EthPort) (s : State) : (setEth i f s).ingest = s.ingest := rfl
@[simp] theorem setEth_plane (i : Nat) (f : EthPort → EthPort) (s : State) : (setEth i f s).plane = s.plane := rfl
@[simp] theorem setEth_dovetail (i : Nat) (f : EthPort → EthPort) (s : State) : (setEth i f s).dovetail = s.dovetail := rfl
@[simp] theorem setEth_marq (i : Nat) (f : EthPort → EthPort) (s : State) : (setEth i f s).marq = s.marq := rfl
@[simp] theorem setEth_scribe (i : Nat) (f : EthPort → EthPort) (s : State) : (setEth i f s).scribe = s.scribe := rfl
@[simp] theorem setEth_prof (i : Nat) (f : EthPort → EthPort) (s : State) : (setEth i f s).prof = s.prof := rfl
@[simp] theorem setEth_views (i : Nat) (f : EthPort → EthPort) (s : State) : (setEth i f s).views = s.views := rfl
@[simp] theorem setEth_comp (i : Nat) (f : EthPort → EthPort) (s : State) : (setEth i f s).comp = s.comp := rfl
@[simp] theorem setEth_bench (i : Nat) (f : EthPort → EthPort) (s : State) : (setEth i f s).bench = s.bench := rfl
@[simp] theorem setEth_host (i : Nat) (f : EthPort → EthPort) (s : State) : (setEth i f s).host = s.host := rfl
@[simp] theorem setEth_dma (i : Nat) (f : EthPort → EthPort) (s : State) : (setEth i f s).dma = s.dma := rfl
@[simp] theorem setEth_axes (i : Nat) (f : EthPort → EthPort) (s : State) : (setEth i f s).axes = s.axes := rfl
@[simp] theorem setEth_ring (i : Nat) (f : EthPort → EthPort) (s : State) : (setEth i f s).ring = s.ring := rfl
@[simp] theorem setEth_pair (i : Nat) (f : EthPort → EthPort) (s : State) : (setEth i f s).pair = s.pair := rfl
@[simp] theorem setEth_faults (i : Nat) (f : EthPort → EthPort) (s : State) : (setEth i f s).faults = s.faults := rfl
@[simp] theorem setEth_hf (i : Nat) (f : EthPort → EthPort) (s : State) : (setEth i f s).hf = s.hf := rfl
@[simp] theorem setEth_boot (i : Nat) (f : EthPort → EthPort) (s : State) : (setEth i f s).boot = s.boot := rfl
@[simp] theorem setEth_pace (i : Nat) (f : EthPort → EthPort) (s : State) : (setEth i f s).pace = s.pace := rfl
@[simp] theorem setEth_sense (i : Nat) (f : EthPort → EthPort) (s : State) : (setEth i f s).sense = s.sense := rfl
@[simp] theorem setEth_cages (i : Nat) (f : EthPort → EthPort) (s : State) : (setEth i f s).cages = s.cages := rfl
@[simp] theorem setEth_heldOut (i : Nat) (f : EthPort → EthPort) (s : State) : (setEth i f s).heldOut = s.heldOut := rfl
@[simp] theorem setEth_emit (i : Nat) (f : EthPort → EthPort) (s : State) : (setEth i f s).emit = s.emit := rfl
@[simp] theorem setEth_pending (i : Nat) (f : EthPort → EthPort) (s : State) : (setEth i f s).pending = s.pending := rfl
@[simp] theorem setLinkPort_now (i : Nat) (f : LinkPort → LinkPort) (s : State) : (setLinkPort i f s).now = s.now := rfl
@[simp] theorem setLinkPort_free (i : Nat) (f : LinkPort → LinkPort) (s : State) : (setLinkPort i f s).free = s.free := rfl
@[simp] theorem setLinkPort_staged (i : Nat) (f : LinkPort → LinkPort) (s : State) : (setLinkPort i f s).staged = s.staged := rfl
@[simp] theorem setLinkPort_running (i : Nat) (f : LinkPort → LinkPort) (s : State) : (setLinkPort i f s).running = s.running := rfl
@[simp] theorem setLinkPort_prev (i : Nat) (f : LinkPort → LinkPort) (s : State) : (setLinkPort i f s).prev = s.prev := rfl
@[simp] theorem setLinkPort_glue (i : Nat) (f : LinkPort → LinkPort) (s : State) : (setLinkPort i f s).glue = s.glue := rfl
@[simp] theorem setLinkPort_stageGen (i : Nat) (f : LinkPort → LinkPort) (s : State) : (setLinkPort i f s).stageGen = s.stageGen := rfl
@[simp] theorem setLinkPort_dryfit (i : Nat) (f : LinkPort → LinkPort) (s : State) : (setLinkPort i f s).dryfit = s.dryfit := rfl
@[simp] theorem setLinkPort_dryfitRun (i : Nat) (f : LinkPort → LinkPort) (s : State) : (setLinkPort i f s).dryfitRun = s.dryfitRun := rfl
@[simp] theorem setLinkPort_glueCount (i : Nat) (f : LinkPort → LinkPort) (s : State) : (setLinkPort i f s).glueCount = s.glueCount := rfl
@[simp] theorem setLinkPort_ledger (i : Nat) (f : LinkPort → LinkPort) (s : State) : (setLinkPort i f s).ledger = s.ledger := rfl
@[simp] theorem setLinkPort_cmds (i : Nat) (f : LinkPort → LinkPort) (s : State) : (setLinkPort i f s).cmds = s.cmds := rfl
@[simp] theorem setLinkPort_claims (i : Nat) (f : LinkPort → LinkPort) (s : State) : (setLinkPort i f s).claims = s.claims := rfl
@[simp] theorem setLinkPort_spans (i : Nat) (f : LinkPort → LinkPort) (s : State) : (setLinkPort i f s).spans = s.spans := rfl
@[simp] theorem setLinkPort_evOnce (i : Nat) (f : LinkPort → LinkPort) (s : State) : (setLinkPort i f s).evOnce = s.evOnce := rfl
@[simp] theorem setLinkPort_gauge (i : Nat) (f : LinkPort → LinkPort) (s : State) : (setLinkPort i f s).gauge = s.gauge := rfl
@[simp] theorem setLinkPort_links (i : Nat) (f : LinkPort → LinkPort) (s : State) : (setLinkPort i f s).links = s.links := rfl
@[simp] theorem setLinkPort_ingest (i : Nat) (f : LinkPort → LinkPort) (s : State) : (setLinkPort i f s).ingest = s.ingest := rfl
@[simp] theorem setLinkPort_plane (i : Nat) (f : LinkPort → LinkPort) (s : State) : (setLinkPort i f s).plane = s.plane := rfl
@[simp] theorem setLinkPort_dovetail (i : Nat) (f : LinkPort → LinkPort) (s : State) : (setLinkPort i f s).dovetail = s.dovetail := rfl
@[simp] theorem setLinkPort_marq (i : Nat) (f : LinkPort → LinkPort) (s : State) : (setLinkPort i f s).marq = s.marq := rfl
@[simp] theorem setLinkPort_scribe (i : Nat) (f : LinkPort → LinkPort) (s : State) : (setLinkPort i f s).scribe = s.scribe := rfl
@[simp] theorem setLinkPort_prof (i : Nat) (f : LinkPort → LinkPort) (s : State) : (setLinkPort i f s).prof = s.prof := rfl
@[simp] theorem setLinkPort_views (i : Nat) (f : LinkPort → LinkPort) (s : State) : (setLinkPort i f s).views = s.views := rfl
@[simp] theorem setLinkPort_comp (i : Nat) (f : LinkPort → LinkPort) (s : State) : (setLinkPort i f s).comp = s.comp := rfl
@[simp] theorem setLinkPort_bench (i : Nat) (f : LinkPort → LinkPort) (s : State) : (setLinkPort i f s).bench = s.bench := rfl
@[simp] theorem setLinkPort_host (i : Nat) (f : LinkPort → LinkPort) (s : State) : (setLinkPort i f s).host = s.host := rfl
@[simp] theorem setLinkPort_dma (i : Nat) (f : LinkPort → LinkPort) (s : State) : (setLinkPort i f s).dma = s.dma := rfl
@[simp] theorem setLinkPort_axes (i : Nat) (f : LinkPort → LinkPort) (s : State) : (setLinkPort i f s).axes = s.axes := rfl
@[simp] theorem setLinkPort_time (i : Nat) (f : LinkPort → LinkPort) (s : State) : (setLinkPort i f s).time = s.time := rfl
@[simp] theorem setLinkPort_pair (i : Nat) (f : LinkPort → LinkPort) (s : State) : (setLinkPort i f s).pair = s.pair := rfl
@[simp] theorem setLinkPort_faults (i : Nat) (f : LinkPort → LinkPort) (s : State) : (setLinkPort i f s).faults = s.faults := rfl
@[simp] theorem setLinkPort_hf (i : Nat) (f : LinkPort → LinkPort) (s : State) : (setLinkPort i f s).hf = s.hf := rfl
@[simp] theorem setLinkPort_boot (i : Nat) (f : LinkPort → LinkPort) (s : State) : (setLinkPort i f s).boot = s.boot := rfl
@[simp] theorem setLinkPort_pace (i : Nat) (f : LinkPort → LinkPort) (s : State) : (setLinkPort i f s).pace = s.pace := rfl
@[simp] theorem setLinkPort_sense (i : Nat) (f : LinkPort → LinkPort) (s : State) : (setLinkPort i f s).sense = s.sense := rfl
@[simp] theorem setLinkPort_cages (i : Nat) (f : LinkPort → LinkPort) (s : State) : (setLinkPort i f s).cages = s.cages := rfl
@[simp] theorem setLinkPort_heldOut (i : Nat) (f : LinkPort → LinkPort) (s : State) : (setLinkPort i f s).heldOut = s.heldOut := rfl
@[simp] theorem setLinkPort_emit (i : Nat) (f : LinkPort → LinkPort) (s : State) : (setLinkPort i f s).emit = s.emit := rfl
@[simp] theorem setLinkPort_pending (i : Nat) (f : LinkPort → LinkPort) (s : State) : (setLinkPort i f s).pending = s.pending := rfl
@[simp] theorem setEnc_now (i : Nat) (f : Encoder → Encoder) (s : State) : (setEnc i f s).now = s.now := rfl
@[simp] theorem setEnc_free (i : Nat) (f : Encoder → Encoder) (s : State) : (setEnc i f s).free = s.free := rfl
@[simp] theorem setEnc_staged (i : Nat) (f : Encoder → Encoder) (s : State) : (setEnc i f s).staged = s.staged := rfl
@[simp] theorem setEnc_running (i : Nat) (f : Encoder → Encoder) (s : State) : (setEnc i f s).running = s.running := rfl
@[simp] theorem setEnc_prev (i : Nat) (f : Encoder → Encoder) (s : State) : (setEnc i f s).prev = s.prev := rfl
@[simp] theorem setEnc_glue (i : Nat) (f : Encoder → Encoder) (s : State) : (setEnc i f s).glue = s.glue := rfl
@[simp] theorem setEnc_stageGen (i : Nat) (f : Encoder → Encoder) (s : State) : (setEnc i f s).stageGen = s.stageGen := rfl
@[simp] theorem setEnc_dryfit (i : Nat) (f : Encoder → Encoder) (s : State) : (setEnc i f s).dryfit = s.dryfit := rfl
@[simp] theorem setEnc_dryfitRun (i : Nat) (f : Encoder → Encoder) (s : State) : (setEnc i f s).dryfitRun = s.dryfitRun := rfl
@[simp] theorem setEnc_glueCount (i : Nat) (f : Encoder → Encoder) (s : State) : (setEnc i f s).glueCount = s.glueCount := rfl
@[simp] theorem setEnc_ledger (i : Nat) (f : Encoder → Encoder) (s : State) : (setEnc i f s).ledger = s.ledger := rfl
@[simp] theorem setEnc_cmds (i : Nat) (f : Encoder → Encoder) (s : State) : (setEnc i f s).cmds = s.cmds := rfl
@[simp] theorem setEnc_claims (i : Nat) (f : Encoder → Encoder) (s : State) : (setEnc i f s).claims = s.claims := rfl
@[simp] theorem setEnc_spans (i : Nat) (f : Encoder → Encoder) (s : State) : (setEnc i f s).spans = s.spans := rfl
@[simp] theorem setEnc_evOnce (i : Nat) (f : Encoder → Encoder) (s : State) : (setEnc i f s).evOnce = s.evOnce := rfl
@[simp] theorem setEnc_links (i : Nat) (f : Encoder → Encoder) (s : State) : (setEnc i f s).links = s.links := rfl
@[simp] theorem setEnc_ingest (i : Nat) (f : Encoder → Encoder) (s : State) : (setEnc i f s).ingest = s.ingest := rfl
@[simp] theorem setEnc_plane (i : Nat) (f : Encoder → Encoder) (s : State) : (setEnc i f s).plane = s.plane := rfl
@[simp] theorem setEnc_dovetail (i : Nat) (f : Encoder → Encoder) (s : State) : (setEnc i f s).dovetail = s.dovetail := rfl
@[simp] theorem setEnc_marq (i : Nat) (f : Encoder → Encoder) (s : State) : (setEnc i f s).marq = s.marq := rfl
@[simp] theorem setEnc_scribe (i : Nat) (f : Encoder → Encoder) (s : State) : (setEnc i f s).scribe = s.scribe := rfl
@[simp] theorem setEnc_prof (i : Nat) (f : Encoder → Encoder) (s : State) : (setEnc i f s).prof = s.prof := rfl
@[simp] theorem setEnc_views (i : Nat) (f : Encoder → Encoder) (s : State) : (setEnc i f s).views = s.views := rfl
@[simp] theorem setEnc_comp (i : Nat) (f : Encoder → Encoder) (s : State) : (setEnc i f s).comp = s.comp := rfl
@[simp] theorem setEnc_bench (i : Nat) (f : Encoder → Encoder) (s : State) : (setEnc i f s).bench = s.bench := rfl
@[simp] theorem setEnc_host (i : Nat) (f : Encoder → Encoder) (s : State) : (setEnc i f s).host = s.host := rfl
@[simp] theorem setEnc_dma (i : Nat) (f : Encoder → Encoder) (s : State) : (setEnc i f s).dma = s.dma := rfl
@[simp] theorem setEnc_axes (i : Nat) (f : Encoder → Encoder) (s : State) : (setEnc i f s).axes = s.axes := rfl
@[simp] theorem setEnc_time (i : Nat) (f : Encoder → Encoder) (s : State) : (setEnc i f s).time = s.time := rfl
@[simp] theorem setEnc_ring (i : Nat) (f : Encoder → Encoder) (s : State) : (setEnc i f s).ring = s.ring := rfl
@[simp] theorem setEnc_pair (i : Nat) (f : Encoder → Encoder) (s : State) : (setEnc i f s).pair = s.pair := rfl
@[simp] theorem setEnc_faults (i : Nat) (f : Encoder → Encoder) (s : State) : (setEnc i f s).faults = s.faults := rfl
@[simp] theorem setEnc_hf (i : Nat) (f : Encoder → Encoder) (s : State) : (setEnc i f s).hf = s.hf := rfl
@[simp] theorem setEnc_boot (i : Nat) (f : Encoder → Encoder) (s : State) : (setEnc i f s).boot = s.boot := rfl
@[simp] theorem setEnc_pace (i : Nat) (f : Encoder → Encoder) (s : State) : (setEnc i f s).pace = s.pace := rfl
@[simp] theorem setEnc_sense (i : Nat) (f : Encoder → Encoder) (s : State) : (setEnc i f s).sense = s.sense := rfl
@[simp] theorem setEnc_cages (i : Nat) (f : Encoder → Encoder) (s : State) : (setEnc i f s).cages = s.cages := rfl
@[simp] theorem setEnc_heldOut (i : Nat) (f : Encoder → Encoder) (s : State) : (setEnc i f s).heldOut = s.heldOut := rfl
@[simp] theorem setEnc_emit (i : Nat) (f : Encoder → Encoder) (s : State) : (setEnc i f s).emit = s.emit := rfl
@[simp] theorem setEnc_pending (i : Nat) (f : Encoder → Encoder) (s : State) : (setEnc i f s).pending = s.pending := rfl
@[simp] theorem setSlotTrig_now (i : Nat) (f : SlotTrig → SlotTrig) (s : State) : (setSlotTrig i f s).now = s.now := rfl
@[simp] theorem setSlotTrig_free (i : Nat) (f : SlotTrig → SlotTrig) (s : State) : (setSlotTrig i f s).free = s.free := rfl
@[simp] theorem setSlotTrig_staged (i : Nat) (f : SlotTrig → SlotTrig) (s : State) : (setSlotTrig i f s).staged = s.staged := rfl
@[simp] theorem setSlotTrig_running (i : Nat) (f : SlotTrig → SlotTrig) (s : State) : (setSlotTrig i f s).running = s.running := rfl
@[simp] theorem setSlotTrig_prev (i : Nat) (f : SlotTrig → SlotTrig) (s : State) : (setSlotTrig i f s).prev = s.prev := rfl
@[simp] theorem setSlotTrig_glue (i : Nat) (f : SlotTrig → SlotTrig) (s : State) : (setSlotTrig i f s).glue = s.glue := rfl
@[simp] theorem setSlotTrig_stageGen (i : Nat) (f : SlotTrig → SlotTrig) (s : State) : (setSlotTrig i f s).stageGen = s.stageGen := rfl
@[simp] theorem setSlotTrig_dryfit (i : Nat) (f : SlotTrig → SlotTrig) (s : State) : (setSlotTrig i f s).dryfit = s.dryfit := rfl
@[simp] theorem setSlotTrig_dryfitRun (i : Nat) (f : SlotTrig → SlotTrig) (s : State) : (setSlotTrig i f s).dryfitRun = s.dryfitRun := rfl
@[simp] theorem setSlotTrig_glueCount (i : Nat) (f : SlotTrig → SlotTrig) (s : State) : (setSlotTrig i f s).glueCount = s.glueCount := rfl
@[simp] theorem setSlotTrig_ledger (i : Nat) (f : SlotTrig → SlotTrig) (s : State) : (setSlotTrig i f s).ledger = s.ledger := rfl
@[simp] theorem setSlotTrig_cmds (i : Nat) (f : SlotTrig → SlotTrig) (s : State) : (setSlotTrig i f s).cmds = s.cmds := rfl
@[simp] theorem setSlotTrig_claims (i : Nat) (f : SlotTrig → SlotTrig) (s : State) : (setSlotTrig i f s).claims = s.claims := rfl
@[simp] theorem setSlotTrig_spans (i : Nat) (f : SlotTrig → SlotTrig) (s : State) : (setSlotTrig i f s).spans = s.spans := rfl
@[simp] theorem setSlotTrig_evOnce (i : Nat) (f : SlotTrig → SlotTrig) (s : State) : (setSlotTrig i f s).evOnce = s.evOnce := rfl
@[simp] theorem setSlotTrig_links (i : Nat) (f : SlotTrig → SlotTrig) (s : State) : (setSlotTrig i f s).links = s.links := rfl
@[simp] theorem setSlotTrig_ingest (i : Nat) (f : SlotTrig → SlotTrig) (s : State) : (setSlotTrig i f s).ingest = s.ingest := rfl
@[simp] theorem setSlotTrig_plane (i : Nat) (f : SlotTrig → SlotTrig) (s : State) : (setSlotTrig i f s).plane = s.plane := rfl
@[simp] theorem setSlotTrig_dovetail (i : Nat) (f : SlotTrig → SlotTrig) (s : State) : (setSlotTrig i f s).dovetail = s.dovetail := rfl
@[simp] theorem setSlotTrig_marq (i : Nat) (f : SlotTrig → SlotTrig) (s : State) : (setSlotTrig i f s).marq = s.marq := rfl
@[simp] theorem setSlotTrig_scribe (i : Nat) (f : SlotTrig → SlotTrig) (s : State) : (setSlotTrig i f s).scribe = s.scribe := rfl
@[simp] theorem setSlotTrig_prof (i : Nat) (f : SlotTrig → SlotTrig) (s : State) : (setSlotTrig i f s).prof = s.prof := rfl
@[simp] theorem setSlotTrig_views (i : Nat) (f : SlotTrig → SlotTrig) (s : State) : (setSlotTrig i f s).views = s.views := rfl
@[simp] theorem setSlotTrig_comp (i : Nat) (f : SlotTrig → SlotTrig) (s : State) : (setSlotTrig i f s).comp = s.comp := rfl
@[simp] theorem setSlotTrig_bench (i : Nat) (f : SlotTrig → SlotTrig) (s : State) : (setSlotTrig i f s).bench = s.bench := rfl
@[simp] theorem setSlotTrig_host (i : Nat) (f : SlotTrig → SlotTrig) (s : State) : (setSlotTrig i f s).host = s.host := rfl
@[simp] theorem setSlotTrig_dma (i : Nat) (f : SlotTrig → SlotTrig) (s : State) : (setSlotTrig i f s).dma = s.dma := rfl
@[simp] theorem setSlotTrig_axes (i : Nat) (f : SlotTrig → SlotTrig) (s : State) : (setSlotTrig i f s).axes = s.axes := rfl
@[simp] theorem setSlotTrig_time (i : Nat) (f : SlotTrig → SlotTrig) (s : State) : (setSlotTrig i f s).time = s.time := rfl
@[simp] theorem setSlotTrig_ring (i : Nat) (f : SlotTrig → SlotTrig) (s : State) : (setSlotTrig i f s).ring = s.ring := rfl
@[simp] theorem setSlotTrig_pair (i : Nat) (f : SlotTrig → SlotTrig) (s : State) : (setSlotTrig i f s).pair = s.pair := rfl
@[simp] theorem setSlotTrig_faults (i : Nat) (f : SlotTrig → SlotTrig) (s : State) : (setSlotTrig i f s).faults = s.faults := rfl
@[simp] theorem setSlotTrig_hf (i : Nat) (f : SlotTrig → SlotTrig) (s : State) : (setSlotTrig i f s).hf = s.hf := rfl
@[simp] theorem setSlotTrig_boot (i : Nat) (f : SlotTrig → SlotTrig) (s : State) : (setSlotTrig i f s).boot = s.boot := rfl
@[simp] theorem setSlotTrig_pace (i : Nat) (f : SlotTrig → SlotTrig) (s : State) : (setSlotTrig i f s).pace = s.pace := rfl
@[simp] theorem setSlotTrig_sense (i : Nat) (f : SlotTrig → SlotTrig) (s : State) : (setSlotTrig i f s).sense = s.sense := rfl
@[simp] theorem setSlotTrig_cages (i : Nat) (f : SlotTrig → SlotTrig) (s : State) : (setSlotTrig i f s).cages = s.cages := rfl
@[simp] theorem setSlotTrig_heldOut (i : Nat) (f : SlotTrig → SlotTrig) (s : State) : (setSlotTrig i f s).heldOut = s.heldOut := rfl
@[simp] theorem setSlotTrig_emit (i : Nat) (f : SlotTrig → SlotTrig) (s : State) : (setSlotTrig i f s).emit = s.emit := rfl
@[simp] theorem setSlotTrig_pending (i : Nat) (f : SlotTrig → SlotTrig) (s : State) : (setSlotTrig i f s).pending = s.pending := rfl
@[simp] theorem setCmp_now (i : Nat) (f : CompareUnit → CompareUnit) (s : State) : (setCmp i f s).now = s.now := rfl
@[simp] theorem setCmp_free (i : Nat) (f : CompareUnit → CompareUnit) (s : State) : (setCmp i f s).free = s.free := rfl
@[simp] theorem setCmp_staged (i : Nat) (f : CompareUnit → CompareUnit) (s : State) : (setCmp i f s).staged = s.staged := rfl
@[simp] theorem setCmp_running (i : Nat) (f : CompareUnit → CompareUnit) (s : State) : (setCmp i f s).running = s.running := rfl
@[simp] theorem setCmp_prev (i : Nat) (f : CompareUnit → CompareUnit) (s : State) : (setCmp i f s).prev = s.prev := rfl
@[simp] theorem setCmp_glue (i : Nat) (f : CompareUnit → CompareUnit) (s : State) : (setCmp i f s).glue = s.glue := rfl
@[simp] theorem setCmp_stageGen (i : Nat) (f : CompareUnit → CompareUnit) (s : State) : (setCmp i f s).stageGen = s.stageGen := rfl
@[simp] theorem setCmp_dryfit (i : Nat) (f : CompareUnit → CompareUnit) (s : State) : (setCmp i f s).dryfit = s.dryfit := rfl
@[simp] theorem setCmp_dryfitRun (i : Nat) (f : CompareUnit → CompareUnit) (s : State) : (setCmp i f s).dryfitRun = s.dryfitRun := rfl
@[simp] theorem setCmp_glueCount (i : Nat) (f : CompareUnit → CompareUnit) (s : State) : (setCmp i f s).glueCount = s.glueCount := rfl
@[simp] theorem setCmp_ledger (i : Nat) (f : CompareUnit → CompareUnit) (s : State) : (setCmp i f s).ledger = s.ledger := rfl
@[simp] theorem setCmp_cmds (i : Nat) (f : CompareUnit → CompareUnit) (s : State) : (setCmp i f s).cmds = s.cmds := rfl
@[simp] theorem setCmp_claims (i : Nat) (f : CompareUnit → CompareUnit) (s : State) : (setCmp i f s).claims = s.claims := rfl
@[simp] theorem setCmp_spans (i : Nat) (f : CompareUnit → CompareUnit) (s : State) : (setCmp i f s).spans = s.spans := rfl
@[simp] theorem setCmp_evOnce (i : Nat) (f : CompareUnit → CompareUnit) (s : State) : (setCmp i f s).evOnce = s.evOnce := rfl
@[simp] theorem setCmp_links (i : Nat) (f : CompareUnit → CompareUnit) (s : State) : (setCmp i f s).links = s.links := rfl
@[simp] theorem setCmp_ingest (i : Nat) (f : CompareUnit → CompareUnit) (s : State) : (setCmp i f s).ingest = s.ingest := rfl
@[simp] theorem setCmp_plane (i : Nat) (f : CompareUnit → CompareUnit) (s : State) : (setCmp i f s).plane = s.plane := rfl
@[simp] theorem setCmp_dovetail (i : Nat) (f : CompareUnit → CompareUnit) (s : State) : (setCmp i f s).dovetail = s.dovetail := rfl
@[simp] theorem setCmp_marq (i : Nat) (f : CompareUnit → CompareUnit) (s : State) : (setCmp i f s).marq = s.marq := rfl
@[simp] theorem setCmp_scribe (i : Nat) (f : CompareUnit → CompareUnit) (s : State) : (setCmp i f s).scribe = s.scribe := rfl
@[simp] theorem setCmp_prof (i : Nat) (f : CompareUnit → CompareUnit) (s : State) : (setCmp i f s).prof = s.prof := rfl
@[simp] theorem setCmp_views (i : Nat) (f : CompareUnit → CompareUnit) (s : State) : (setCmp i f s).views = s.views := rfl
@[simp] theorem setCmp_comp (i : Nat) (f : CompareUnit → CompareUnit) (s : State) : (setCmp i f s).comp = s.comp := rfl
@[simp] theorem setCmp_bench (i : Nat) (f : CompareUnit → CompareUnit) (s : State) : (setCmp i f s).bench = s.bench := rfl
@[simp] theorem setCmp_host (i : Nat) (f : CompareUnit → CompareUnit) (s : State) : (setCmp i f s).host = s.host := rfl
@[simp] theorem setCmp_dma (i : Nat) (f : CompareUnit → CompareUnit) (s : State) : (setCmp i f s).dma = s.dma := rfl
@[simp] theorem setCmp_axes (i : Nat) (f : CompareUnit → CompareUnit) (s : State) : (setCmp i f s).axes = s.axes := rfl
@[simp] theorem setCmp_time (i : Nat) (f : CompareUnit → CompareUnit) (s : State) : (setCmp i f s).time = s.time := rfl
@[simp] theorem setCmp_ring (i : Nat) (f : CompareUnit → CompareUnit) (s : State) : (setCmp i f s).ring = s.ring := rfl
@[simp] theorem setCmp_pair (i : Nat) (f : CompareUnit → CompareUnit) (s : State) : (setCmp i f s).pair = s.pair := rfl
@[simp] theorem setCmp_faults (i : Nat) (f : CompareUnit → CompareUnit) (s : State) : (setCmp i f s).faults = s.faults := rfl
@[simp] theorem setCmp_hf (i : Nat) (f : CompareUnit → CompareUnit) (s : State) : (setCmp i f s).hf = s.hf := rfl
@[simp] theorem setCmp_boot (i : Nat) (f : CompareUnit → CompareUnit) (s : State) : (setCmp i f s).boot = s.boot := rfl
@[simp] theorem setCmp_pace (i : Nat) (f : CompareUnit → CompareUnit) (s : State) : (setCmp i f s).pace = s.pace := rfl
@[simp] theorem setCmp_sense (i : Nat) (f : CompareUnit → CompareUnit) (s : State) : (setCmp i f s).sense = s.sense := rfl
@[simp] theorem setCmp_cages (i : Nat) (f : CompareUnit → CompareUnit) (s : State) : (setCmp i f s).cages = s.cages := rfl
@[simp] theorem setCmp_heldOut (i : Nat) (f : CompareUnit → CompareUnit) (s : State) : (setCmp i f s).heldOut = s.heldOut := rfl
@[simp] theorem setCmp_emit (i : Nat) (f : CompareUnit → CompareUnit) (s : State) : (setCmp i f s).emit = s.emit := rfl
@[simp] theorem setCmp_pending (i : Nat) (f : CompareUnit → CompareUnit) (s : State) : (setCmp i f s).pending = s.pending := rfl

@[simp] theorem setSlotLink_slots (i : Nat) (f : SlotLink → SlotLink) (s : State) : (setSlotLink i f s).links.slots = vmod s.links.slots i f := rfl
@[simp] theorem setLane_lanes (i : Nat) (f : Lane → Lane) (s : State) : (setLane i f s).links.lanes = vmod s.links.lanes i f := rfl
@[simp] theorem setPocxp_pocxp (i : Nat) (f : Pocxp → Pocxp) (s : State) : (setPocxp i f s).links.pocxp = vmod s.links.pocxp i f := rfl
@[simp] theorem setThrough_through (i : Nat) (f : Through → Through) (s : State) : (setThrough i f s).links.through = vmod s.links.through i f := rfl
@[simp] theorem setSlotIngest_slots (i : Nat) (f : SlotIngest → SlotIngest) (s : State) : (setSlotIngest i f s).ingest.slots = vmod s.ingest.slots i f := rfl
@[simp] theorem setSlotPlane_slots (i : Nat) (f : SlotPlane → SlotPlane) (s : State) : (setSlotPlane i f s).plane.slots = vmod s.plane.slots i f := rfl
@[simp] theorem setQueue_queues (i : Nat) (f : Queue → Queue) (s : State) : (setQueue i f s).scribe.queues = vmod s.scribe.queues i f := rfl
@[simp] theorem setStation_stations (i : Nat) (f : Station → Station) (s : State) : (setStation i f s).scribe.stations = vmod s.scribe.stations i f := rfl
@[simp] theorem setView_views (i : Nat) (f : ViewStream → ViewStream) (s : State) : (setView i f s).views = vmod s.views i f := rfl
@[simp] theorem setDe_de (i : Nat) (f : DeUnit → DeUnit) (s : State) : (setDe i f s).comp.de = vmod s.comp.de i f := rfl
@[simp] theorem setCtl_ctl (i : Nat) (f : BenchCtl → BenchCtl) (s : State) : (setCtl i f s).bench.ctl = vmod s.bench.ctl i f := rfl
@[simp] theorem setPort_ports (i : Nat) (f : BenchPort → BenchPort) (s : State) : (setPort i f s).bench.ports = vmod s.bench.ports i f := rfl
@[simp] theorem setChan_ch (i : Nat) (f : DmaChan → DmaChan) (s : State) : (setChan i f s).dma.ch = vmod s.dma.ch i f := rfl
@[simp] theorem setAxis_ax (i : Nat) (f : Axis → Axis) (s : State) : (setAxis i f s).axes.ax = vmod s.axes.ax i f := rfl
@[simp] theorem setEth_ports (i : Nat) (f : EthPort → EthPort) (s : State) : (setEth i f s).time.ports = vmod s.time.ports i f := rfl
@[simp] theorem setLinkPort_ports (i : Nat) (f : LinkPort → LinkPort) (s : State) : (setLinkPort i f s).ring.ports = vmod s.ring.ports i f := rfl
@[simp] theorem setEnc_enc (i : Nat) (f : Encoder → Encoder) (s : State) : (setEnc i f s).gauge.enc = vmod s.gauge.enc i f := rfl
@[simp] theorem setSlotTrig_slots (i : Nat) (f : SlotTrig → SlotTrig) (s : State) : (setSlotTrig i f s).gauge.slots = vmod s.gauge.slots i f := rfl
@[simp] theorem setCmp_cmp (i : Nat) (f : CompareUnit → CompareUnit) (s : State) : (setCmp i f s).gauge.cmp = vmod s.gauge.cmp i f := rfl
@[simp] theorem out_emit (e : Emit) (s : State) : (out e s).emit = s.emit ++ [e] := rfl
@[simp] theorem tick_emit (t : Nat) (s : State) : (tick t s).emit = [] := rfl
@[simp] theorem tick_now (t : Nat) (s : State) : (tick t s).now = max s.now t := rfl
@[simp] theorem tick_mem (t : Nat) (s : State) : (tick t s).bench.mem = s.bench.mem := rfl
@[simp] theorem setRing_rings (n : Nat) (f : RingPair → RingPair) (s : State) : (setRing n f s).host.rings = vmod s.host.rings n f := rfl
@[simp] theorem dropCmd_cmds (w : Nat) (s : State) : (dropCmd w s).cmds = s.cmds.filter (fun r => decide (r.ticket ≠ w)) := rfl
@[simp] theorem benchWrite_writes (o : Nat) (d : Bytes) (s : State) : (benchWrite o d s).bench.writes = s.bench.writes ++ [(o, d)] := rfl
@[simp] theorem benchWrite_mem (o : Nat) (d : Bytes) (s : State) : (benchWrite o d s).bench.mem = s.bench.mem := rfl

end Sys2Proof.Machine
end

