-- ==== Sys2Proof/Laws/Command.lean ====
section
/-! SUPPORT. A command packet that the command processor is ready for: its ticket, its verdict, its reply, and how the ledger,
the ring and the rest of the state stand after it. -/

namespace Sys2Proof.Machine

/-! ### The frame of one command -/

/-- Where the effect left the Bench and the queue alone, the commit changes nothing but the time. -/
theorem commit_frame {s q : State} (t : Nat) (hi : s.Inv) (hb : q.bench = s.bench) (hp : q.pending = s.pending) :
    OutFrame q (commit (tick t s) q) := by
  have hm : ({ q.bench with mem := memNow { q.bench with mem := (tick t s).bench.mem }, writes := [], emptied := [] } : Bench) = q.bench := by
    rw [hb]
    have h1 := hi.writes
    have h2 := hi.emptied
    rcases h : s.bench with ⟨⟩
    rw [h] at h1 h2
    simp only at h1 h2
    subst h1 h2
    simp [memNow, emptyRanges, applyWrites, tick, h]
  unfold OutFrame commit
  rw [hm]
  have : (tick t s).pending = q.pending := hp.symm
  rw [this]

/-! ### The ticket of a packet -/

/-- The record under which a packet runs. -/
def recOf (sp : CmdSpec) (c : HostCmd) (s : State) : CmdRec :=
  { ticket := nextTicket s, ring := c.ring, tag := c.tag, opcode := sp.opcode, irq := c.irq, barrier := c.barrier }

theorem mem_insertBy {α : Type} (lt : α → α → Bool) (x : α) (l : List α) : x ∈ insertBy lt x l := by
  induction l with
  | nil => simp [insertBy]
  | cons y l ih =>
    unfold insertBy
    split
    · simp
    · simp [ih]

theorem issue_taken (t : Nat) {s : State} (hs : nextSlot s < ledgerSlots) : issueTicket (tick t s) = some (nextTicket s, taken t s) := by
  have hn : ¬ ledgerSlots ≤ lowestSlot 0 (mergeAsc (tick t s).ledger.issued (tick t s).ledger.ended) := by
    simpa [nextSlot] using hs
  have : ∃ s', issueTicket (tick t s) = some (nextTicket s, s') := by
    unfold issueTicket
    simp only [hn, if_false]
    exact ⟨_, rfl⟩
  obtain ⟨s', h⟩ := this
  simp [taken, h]

theorem issue_frame {s s' : State} {w : Nat} (h : issueTicket s = some (w, s')) : OutFrame { s with ledger := s'.ledger } s' := by
  unfold issueTicket at h
  simp only at h
  split at h
  · cases h
  · injection h with h
    injection h with _ h
    subst h
    split
    · exact (raiseOnce_frame _ _ _ _).after (by simp [OutFrame])
    · simp [OutFrame]

theorem issue_ledger {s s' : State} {w : Nat} (h : issueTicket s = some (w, s')) :
    s'.ledger.issued = insertNat (lowestSlot 0 (mergeAsc s.ledger.issued s.ledger.ended)) s.ledger.issued ∧
    s'.ledger.gens = s.ledger.gens ∧ s'.ledger.complete = s.ledger.complete ∧ s'.ledger.ended = s.ledger.ended := by
  unfold issueTicket at h
  simp only at h
  split at h
  · cases h
  · injection h with h
    injection h with _ h
    subst h
    split <;> simp

/-- Taking a packet issues its ticket; all else is as it was. -/
theorem taken_frame (t : Nat) {s : State} (hi : s.Inv) (hs : nextSlot s < ledgerSlots) :
    OutFrame { s with ledger := (taken t s).ledger } (taken t s) := by
  refine (issue_frame (issue_taken t hs)).after ?_
  have h := tick_frame t hi
  unfold OutFrame at *
  rw [h]

theorem taken_live (t : Nat) {s : State} (hs : nextSlot s < ledgerSlots) (hg : sget s.ledger.gens (nextSlot s) 0 < 2 ^ 14) :
    ticketLive (taken t s).ledger (nextTicket s) = true := by
  obtain ⟨h1, h2, -, -⟩ := issue_ledger (issue_taken t hs)
  have hs' : nextSlot s < 2 ^ 18 := by simpa [ledgerSlots] using hs
  have ha : ticketSlot (nextTicket s) = nextSlot s := by
    simp only [ticketSlot, nextTicket]
    omega
  have hb : ticketGen (nextTicket s) = sget s.ledger.gens (nextSlot s) 0 := by
    simp only [ticketGen, nextTicket]
    omega
  have hw : nextTicket s < 2 ^ 32 := by
    simp only [nextTicket]
    omega
  have hmem : nextSlot s ∈ (taken t s).ledger.issued := by
    rw [h1]
    exact mem_insertBy _ _ _
  simp only [ticketLive, ha, hb, h2, tick_ledger, Bool.and_eq_true, decide_eq_true_eq, List.contains_eq_mem]
  exact ⟨⟨hw, hmem⟩, trivial⟩

theorem taken_complete (t : Nat) {s : State} (hs : nextSlot s < ledgerSlots) : (taken t s).ledger.complete = s.ledger.complete := by
  obtain ⟨-, -, h, -⟩ := issue_ledger (issue_taken t hs)
  exact h

theorem taken_failed (t : Nat) {s : State} (hs : nextSlot s < ledgerSlots) : (taken t s).ledger.failed = s.ledger.failed := by
  have h := issue_taken t hs
  unfold issueTicket at h
  simp only at h
  split at h
  · cases h
  · injection h with h
    injection h with _ h
    rw [← h]
    split <;> simp

/-- A live ticket decided is counted, COMPLETE with code 0 and FAILED with another. -/
theorem decideTicket_counts {w : Nat} {s : State} (code : Nat) (h : ticketLive s.ledger w = true) :
    (decideTicket w code s).ledger.complete = s.ledger.complete + (if code = 0 then 1 else 0) ∧
    (decideTicket w code s).ledger.failed = s.ledger.failed + (if code = 0 then 0 else 1) := by
  unfold decideTicket
  simp only [h]
  split
  · simp at *
  · split <;> simp

theorem reportTicket_counts (w : Nat) (s : State) :
    (reportTicket w s).ledger.complete = s.ledger.complete ∧ (reportTicket w s).ledger.failed = s.ledger.failed := by
  unfold reportTicket
  simp only
  split <;> exact ⟨rfl, rfl⟩

/-- Deciding a ticket touches the ledger alone, beside an event. -/
theorem decide_frame (w code : Nat) (s : State) : OutFrame { s with ledger := (decideTicket w code s).ledger } (decideTicket w code s) := by
  unfold decideTicket
  simp only
  split
  · rfl
  · split
    · exact (raise_frame _ _ _ _).after (by simp [OutFrame])
    · rfl

/-! ### The reply -/

/-- The next reply of a ring that has room for it is posted at once. -/
theorem postReply_posts {n w : Nat} {irq : Bool} {bytes : Bytes} {s : State} (hf : s.hf.fabric = .running) (hn : n < 4)
    (he : (vget s.host.rings n).enabled = true) (hp : (vget s.host.rings n).posts = []) (hr : replySlots bytes ≤ freeSlots s n) :
    Emit.hostWrite ((vget s.host.rings n).rplBase + 64 * (vget s.host.rings n).rplProd)
      ((replyData (vget s.host.rings n).phase bytes).take (64 * ((vget s.host.rings n).rplSize - (vget s.host.rings n).rplProd))) false ∈
      (postReply n w irq bytes s).emit ∧
    (vget (postReply n w irq bytes s).host.rings n).unread = (vget s.host.rings n).unread + replySlots bytes ∧
    (postReply n w irq bytes s).ledger.complete = s.ledger.complete ∧ (postReply n w irq bytes s).ledger.failed = s.ledger.failed := by
  rw [postReply_next n w irq bytes s hf hn he hp hr]
  refine ⟨?_, ?_, ?_⟩
  · simp only [setRing_emit]
    refine reportTicket_emits _ _ ?_
    have h := writeReply_puts n irq bytes (setRing n (fun p => { p with posts := [] }) (setRing n (fun p => { p with posts := [.ready w irq bytes] }) s))
    simpa [hn] using h
  · have h := writeReply_unread n irq bytes (setRing n (fun p => { p with posts := [] }) (setRing n (fun p => { p with posts := [.ready w irq bytes] }) s)) hn
    simpa [hn] using h
  · simp only [setRing_ledger, (reportTicket_counts _ _).1, (reportTicket_counts _ _).2, writeReply_ledger, and_self]

theorem freeSlots_dropCmd (w n : Nat) (s : State) : freeSlots s n ≤ freeSlots (dropCmd w s) n := by
  have : ((s.cmds.filter fun r => decide (r.ticket ≠ w)).filter fun r => decide (r.ring = n) && r.accepted && r.via.isNone).length ≤
      (s.cmds.filter fun r => decide (r.ring = n) && r.accepted && r.via.isNone).length := by
    rw [List.filter_filter, ← List.countP_eq_length_filter, ← List.countP_eq_length_filter]
    exact List.countP_mono_left fun x _ hx => by simp only [Bool.and_eq_true] at hx ⊢; exact hx.1
  unfold freeSlots reservedSlots
  simp only [dropCmd_host, dropCmd_ring, dropCmd_cmds]
  omega

/-- What a ring must be for the next immediate reply of a command to go out at once. -/
structure RingReady (n slots : Nat) (s : State) : Prop where
  fabric : s.hf.fabric = .running
  ring : n < 4
  enabled : (vget s.host.rings n).enabled = true
  first : (vget s.host.rings n).posts = []
  room : slots ≤ freeSlots s n

theorem decide_rings (w code : Nat) (s : State) : (decideTicket w code s).host.rings = s.host.rings := (decide_frame w code s).rings
theorem decide_fabric (w code : Nat) (s : State) : (decideTicket w code s).hf.fabric = s.hf.fabric := (decide_frame w code s).hf_fabric

theorem freeSlots_decide (w code n : Nat) (s : State) : freeSlots (decideTicket w code s) n = freeSlots s n := by
  unfold freeSlots reservedSlots
  rw [decide_rings, (decide_frame w code s).cmds, (decide_frame w code s).ring]

/-- An immediate reply other than ST_ACCEPTED: its bytes are posted and the ticket ends, COMPLETE without an error and else FAILED
(R82, R88). -/
theorem answer_posts {r : CmdRec} {status : Nat} {body : Bytes} {q : State} (hv : r.via = none) (hs : r.silent = false)
    (h1 : status ≠ stAccepted) (hl : ticketLive q.ledger r.ticket = true)
    (hr : RingReady r.ring (replySlots (replyBytes r.opcode status r.tag r.ticket q.ring.moduleId 0 body)) q) :
    Emit.hostWrite ((vget q.host.rings r.ring).rplBase + 64 * (vget q.host.rings r.ring).rplProd)
      ((replyData (vget q.host.rings r.ring).phase (replyBytes r.opcode status r.tag r.ticket q.ring.moduleId 0 body)).take
        (64 * ((vget q.host.rings r.ring).rplSize - (vget q.host.rings r.ring).rplProd))) false ∈ (answer r status body q).emit ∧
    (vget (answer r status body q).host.rings r.ring).unread =
      (vget q.host.rings r.ring).unread + replySlots (replyBytes r.opcode status r.tag r.ticket q.ring.moduleId 0 body) ∧
    (answer r status body q).ledger.complete = q.ledger.complete + (if status < 0x8000 then 1 else 0) ∧
    (answer r status body q).ledger.failed = q.ledger.failed + (if status < 0x8000 then 0 else 1) ∧
    ReplyFrame { q with stageGen := if isStaged r.opcode && decide (status < 0x8000) then wrap32 (q.stageGen + 1) else q.stageGen }
      (answer r status body q) := by
  have hz : ticketCode status = 0 ↔ status < 0x8000 := by
    unfold ticketCode
    split <;> simp_all
    omega
  obtain ⟨hc1, hc2⟩ := decideTicket_counts (s := dropCmd r.ticket q) (ticketCode status) hl
  simp only [hz, dropCmd_ledger] at hc1 hc2
  have hfree : replySlots (replyBytes r.opcode status r.tag r.ticket q.ring.moduleId 0 body) ≤
      freeSlots (decideTicket r.ticket (ticketCode status) (dropCmd r.ticket q)) r.ring := by
    rw [freeSlots_decide]
    exact le_trans hr.room (freeSlots_dropCmd _ _ _)
  have hring : (decideTicket r.ticket (ticketCode status) (dropCmd r.ticket q)).host.rings = q.host.rings := by rw [decide_rings, dropCmd_host]
  have hmod : (decideTicket r.ticket (ticketCode status) (dropCmd r.ticket q)).ring.moduleId = q.ring.moduleId := (decide_frame _ _ _).ring_moduleId
  have hfab : (decideTicket r.ticket (ticketCode status) (dropCmd r.ticket q)).hf.fabric = .running := by rw [decide_fabric]; exact hr.fabric
  have hst : (decideTicket r.ticket (ticketCode status) (dropCmd r.ticket q)).stageGen = q.stageGen := (decide_frame _ _ _).stageGen
  have e : answer r status body q = postReply r.ring r.ticket r.irq (replyBytes r.opcode status r.tag r.ticket q.ring.moduleId 0 body)
      { decideTicket r.ticket (ticketCode status) (dropCmd r.ticket q) with
        stageGen := if isStaged r.opcode && decide (status < 0x8000) then wrap32 (q.stageGen + 1) else q.stageGen } := by
    unfold answer sendReply
    simp only [h1, if_false, hs, hv, Bool.false_eq_true]
    by_cases hx : (isStaged r.opcode && decide (status < 0x8000)) = true
    · simp only [hx, if_true, hmod, hst]
    · simp only [hx, if_false, Bool.false_eq_true, hmod, ← hst]
  obtain ⟨p1, p2, p3, p4⟩ := postReply_posts (n := r.ring) (w := r.ticket) (irq := r.irq)
    (bytes := replyBytes r.opcode status r.tag r.ticket q.ring.moduleId 0 body)
    (s := { decideTicket r.ticket (ticketCode status) (dropCmd r.ticket q) with
      stageGen := if isStaged r.opcode && decide (status < 0x8000) then wrap32 (q.stageGen + 1) else q.stageGen })
    hfab hr.ring (by simpa [hring] using hr.enabled) (by simpa [hring] using hr.first) hfree
  simp only [hring] at p1 p2
  rw [e]
  refine ⟨p1, p2, by rw [p3]; exact hc1, by rw [p4]; exact hc2, (postReply_frame _ _ _ _ _).after ?_⟩
  have hd := (decide_frame r.ticket (ticketCode status) (dropCmd r.ticket q)).reply
  unfold ReplyFrame at *
  rw [hd]
  simp [dropCmd]

/-! ### A packet that the command processor is ready for -/

theorem execCmd_runs {sp : CmdSpec} {t : Nat} {c : HostCmd} {s : State} (h : Ready sp c s) :
    execCmd sp t c s = .next (commit (tick t s) (runHere sp (recOf sp c s) c (taken t s))) := by
  have hup : fabricUp (tick t s) = true := by simp [fabricUp, tick, h.fabric]
  have hm : c.module = 0xFF ∨ isOwnId (taken t s) c.module = true := by
    have hr := (taken_frame t h.inv h.slot).ring
    rcases h.here with h1 | h1
    · exact .inl h1
    · right
      simpa [isOwnId, hr] using h1
  unfold execCmd runFabric runAt onFabric takeCmd
  simp only [hup, List.all_nil, Bool.and_self, if_true, issue_taken t h.slot]
  unfold runCmd
  simp only [h.lengths, h.length, Bool.not_true, Bool.and_false, Bool.false_eq_true, if_false, hm, if_true]
  rfl

/-- The verdict on such a packet is that of its command, but for the limit of R73. -/
theorem judge_ready {sp : CmdSpec} {t : Nat} {c : HostCmd} {s : State} (h : Ready sp c s)
    (hu : sp.unitOk (taken t s) c = sp.unitOk s c) (hd : ∀ k ∈ sp.dies (taken t s) c, k < 2) (r : CmdRec)
    (ha : (sp.run r c (taken t s)).status = stAccepted → acceptsMore s) :
    judge sp r c (taken t s) = sp.run r c (taken t s) := by
  have hf := taken_frame t h.inv h.slot
  have hctl : ∀ k ∈ sp.dies (taken t s) c, (vget (taken t s).bench.ctl k).state = .ready := by
    intro k hk
    have := h.awake k (by have := hd k hk; simp; omega)
    rwa [hf.bench]
  have hp : passiveRefuses (taken t s) sp.opcode c = false := by
    have := h.active
    simpa [passiveRefuses, isPassive, cfgNow, hf.pair, hf.glue, hf.running] using this
  have hfen : (sp.units c).findSome? (fun u => fenceOf (taken t s) u.1 u.2) = none := by
    rw [List.findSome?_eq_none_iff]
    intro u hu
    have := h.unfenced u hu
    simpa [fenceOf, hf.faults] using this
  have hb : benchRefuses (taken t s) (sp.dies (taken t s) c) = none := by
    have hne : ∀ st, st ≠ CtlState.ready → (sp.dies (taken t s) c).find? (fun k => decide ((vget (taken t s).bench.ctl k).state = st)) = none := by
      intro st hst
      rw [List.find?_eq_none]
      intro k hk
      simp [hctl k hk, Ne.symm hst]
    have hany : (sp.dies (taken t s) c).any (fun k => decide ((vget (taken t s).bench.ctl k).state = CtlState.selfRefresh)) = false := by
      rw [List.any_eq_false]
      intro k hk
      simp [hctl k hk]
    unfold benchRefuses
    rw [hne .frozen (by decide), hne .fenced (by decide)]
    simp [hany]
  have hw : wakeBench (sp.dies (taken t s) c) (taken t s) = taken t s := by
    have hany : (sp.dies (taken t s) c).any (fun k => decide ((vget (taken t s).bench.ctl k).state = CtlState.selfRefresh)) = false := by
      rw [List.any_eq_false]
      intro k hk
      simp [hctl k hk]
    simp [wakeBench, hany]
  unfold judge
  simp only [h.length, hu, h.unit, hp, hfen, hb, hw, Bool.not_true, Bool.false_eq_true, if_false]
  have hws : ∀ v, withStep sp r c (taken t s) v = v := by intro v; simp [withStep, h.steps]
  rw [hws]
  split
  · rename_i hx
    have := ha hx.1
    unfold acceptsMore at this
    rw [hf.cmds] at hx
    exact absurd hx.2 (by simpa using this)
  · rfl

/-- What an effect must have left alone for its command to be answered at once. -/
structure KeepsReply (q q' : State) : Prop where
  ledger : q'.ledger = q.ledger
  cmds : q'.cmds = q.cmds
  rings : q'.host.rings = q.host.rings
  ring : q'.ring = q.ring
  fabric : q'.hf.fabric = q.hf.fabric

theorem KeepsReply.ringReady {sp : CmdSpec} {t : Nat} {c : HostCmd} {s q : State} (h : Ready sp c s) (hk : KeepsReply (taken t s) q) :
    RingReady c.ring 16 q where
  fabric := by rw [hk.fabric, (taken_frame t h.inv h.slot).hf_fabric]; exact h.fabric
  ring := h.ring
  enabled := by rw [hk.rings, (taken_frame t h.inv h.slot).rings]; exact h.enabled
  first := by rw [hk.rings, (taken_frame t h.inv h.slot).rings]; exact h.first
  room := by
    have hf := taken_frame t h.inv h.slot
    have := h.room
    unfold freeSlots reservedSlots at *
    rwa [hk.rings, hk.cmds, hk.ring, hf.rings, hf.cmds, hf.ring]

/-- The journal entry of a command, where the active module of a pair sends one. -/
def maybeJournal (b : Bool) (e : JournalEntry) (s : State) : State := if b then journal e s else s

theorem maybeJournal_frame (b : Bool) (e : JournalEntry) (s : State) : ReplyFrame s (maybeJournal b e s) := by
  unfold maybeJournal
  split <;> rfl

theorem replySlots_le {opcode status tag ticket source rflags : Nat} {body : Bytes} (h : body.length ≤ 1008) :
    replySlots (replyBytes opcode status tag ticket source rflags body) ≤ 16 := by
  simp only [replySlots, replyBytes, List.length_append, le_length, ceilDiv]
  omega

theorem ReplyFrame.with_bench {a b : State} (h : ReplyFrame a b) (p : List Instr) (m : Bench) :
    ReplyFrame { a with pending := p, bench := m } { b with pending := p, bench := m } := by
  unfold ReplyFrame at *
  rw [h]

/-- The Bench after the commit of a command that left it as `b` and began with the memory `m`. -/
def committed (m : List Host.Cell) (b : Bench) : Bench := { b with mem := memNow { b with mem := m }, writes := [], emptied := [] }

theorem committed_quiet {s : State} {b : Bench} (hi : s.Inv) (hb : b = s.bench) : committed s.bench.mem b = s.bench := by
  subst hb
  have h1 := hi.writes
  have h2 := hi.emptied
  rcases h : s.bench with ⟨⟩
  rw [h] at h1 h2
  simp only at h1 h2
  subst h1 h2
  simp [committed, memNow, emptyRanges, applyWrites]

theorem commit_changes (t : Nat) (s q : State) : OutFrame { q with pending := s.pending, bench := committed s.bench.mem q.bench } (commit (tick t s) q) := rfl

/-- A ready packet whose effect answers at once: the reply is posted with its body, the ticket ends, and the rest of the state is as
the effect left it. -/
theorem execCmd_status {sp : CmdSpec} {t : Nat} {c : HostCmd} {s q : State} {status : Nat} {body : Bytes} (h : Ready sp c s)
    (hu : sp.unitOk (taken t s) c = sp.unitOk s c) (hd : ∀ k ∈ sp.dies (taken t s) c, k < 2)
    (hrun : sp.run (recOf sp c s) c (taken t s) = { status, body, st := q }) (hst : status ≠ stAccepted) (hk : KeepsReply (taken t s) q)
    (hafter : sp.after = id) (hlen : body.length ≤ 1008) :
    ∃ r, execCmd sp t c s = .next r ∧ Posted sp.opcode status body c s r ∧
      r.ledger.complete = s.ledger.complete + (if status < 0x8000 then 1 else 0) ∧
      r.ledger.failed = s.ledger.failed + (if status < 0x8000 then 0 else 1) ∧ q.emit ⊆ r.emit ∧
      (∀ x, bitOf q.host.evt.pending x = true → bitOf r.host.evt.pending x = true) ∧
      ReplyFrame { q with
        stageGen := if isStaged sp.opcode && decide (status < 0x8000) then wrap32 (q.stageGen + 1) else q.stageGen
        pending := s.pending
        bench := committed s.bench.mem q.bench } r := by
  have hf := taken_frame t h.inv h.slot
  refine ⟨_, execCmd_runs h, ?_⟩
  have hj := judge_ready h hu hd (recOf sp c s) (by rw [hrun]; intro hx; exact absurd hx hst)
  have hrh : ∃ b e, runHere sp (recOf sp c s) c (taken t s) = answer (recOf sp c s) status body (maybeJournal b e q) := by
    refine ⟨decide (status < 0x8000) && journalled q sp.opcode c, .command sp.opcode c (u32 body 0), ?_⟩
    unfold runHere maybeJournal
    simp only [hj, hrun, hafter, id]
    simp
  obtain ⟨b, e, hrh⟩ := hrh
  rw [hrh]
  have hmj := maybeJournal_frame b e q
  have hml : (maybeJournal b e q).ledger = q.ledger ∧ (maybeJournal b e q).host = q.host ∧ (maybeJournal b e q).cmds = q.cmds ∧
      (maybeJournal b e q).ring = q.ring ∧ q.emit ⊆ (maybeJournal b e q).emit := by
    unfold maybeJournal
    split <;> simp [journal, out]
  obtain ⟨m1, m2, m3, m4, m5⟩ := hml
  have hrr : RingReady c.ring 16 (maybeJournal b e q) := by
    have h0 := hk.ringReady h
    exact ⟨by rw [hmj.hf_fabric]; exact h0.fabric, h0.ring, by rw [m2]; exact h0.enabled, by rw [m2]; exact h0.first,
      by have := h0.room; unfold freeSlots reservedSlots at *; rwa [m2, m3, m4]⟩
  have hlive : ticketLive (maybeJournal b e q).ledger (recOf sp c s).ticket = true := by
    rw [m1, hk.ledger]
    exact taken_live t h.slot h.gen
  obtain ⟨a1, a2, a3, a4, a5⟩ := answer_posts (r := recOf sp c s) (status := status) (body := body) (q := maybeJournal b e q) rfl rfl hst hlive
    ⟨hrr.fabric, hrr.ring, hrr.enabled, hrr.first, le_trans (replySlots_le hlen) hrr.room⟩
  have hmod : (maybeJournal b e q).ring.moduleId = s.ring.moduleId := by rw [m4, hk.ring, hf.ring]
  have hrings : (maybeJournal b e q).host.rings = s.host.rings := by rw [m2, hk.rings, hf.rings]
  rw [hmod, hrings] at a1 a2
  have hcf := commit_changes t s (answer (recOf sp c s) status body (maybeJournal b e q))
  refine ⟨⟨a1, ?_⟩, ?_, ?_, ?_, ?_, ?_⟩
  · rw [hcf.rings]; exact a2
  · rw [hcf.ledger, a3, m1, hk.ledger, taken_complete t h.slot]
  · rw [hcf.ledger, a4, m1, hk.ledger, taken_failed t h.slot]
  · exact fun x hx => answer_emits _ _ _ _ (m5 hx)
  · intro x hx
    exact answer_keeps _ _ _ (by rw [m2]; exact hx)
  · refine hcf.reply.after ?_
    have a6 : ReplyFrame { q with stageGen := if isStaged sp.opcode && decide (status < 0x8000) then wrap32 (q.stageGen + 1) else q.stageGen }
        (answer (recOf sp c s) status body (maybeJournal b e q)) := by
      refine a5.after ?_
      have ho : (recOf sp c s).opcode = sp.opcode := rfl
      rw [ho, hmj.stageGen]
      unfold ReplyFrame at hmj ⊢
      rw [hmj]
    have := a6.with_bench s.pending (committed s.bench.mem q.bench)
    rwa [show (answer (recOf sp c s) status body (maybeJournal b e q)).bench = q.bench from a6.bench]

/-- A ready packet whose effect answers ST_OK and leaves the Bench alone. -/
theorem execCmd_ok {sp : CmdSpec} {t : Nat} {c : HostCmd} {s q : State} {body : Bytes} (h : Ready sp c s)
    (hu : sp.unitOk (taken t s) c = sp.unitOk s c) (hd : ∀ k ∈ sp.dies (taken t s) c, k < 2)
    (hrun : sp.run (recOf sp c s) c (taken t s) = ok body q) (hk : KeepsReply (taken t s) q) (hafter : sp.after = id)
    (hb : q.bench = s.bench) (hp : q.pending = s.pending) (hlen : body.length ≤ 1008) :
    ∃ r, execCmd sp t c s = .next r ∧ Completes sp.opcode body c s r ∧ q.emit ⊆ r.emit ∧
      (∀ x, bitOf q.host.evt.pending x = true → bitOf r.host.evt.pending x = true) ∧
      ReplyFrame { q with stageGen := if isStaged sp.opcode then wrap32 (q.stageGen + 1) else q.stageGen } r := by
  obtain ⟨r, h1, h2, h3, -, h4, h5, h6⟩ := execCmd_status h hu hd hrun (by decide) hk hafter hlen
  refine ⟨r, h1, ⟨h2, h3⟩, h4, h5, ?_⟩
  rw [committed_quiet h.inv hb, ← hb, ← hp] at h6
  simpa [stOk] using h6

/-- A ready packet that its command turns away. -/
theorem execCmd_fail {sp : CmdSpec} {t : Nat} {c : HostCmd} {s : State} {status : Nat} {body : Bytes} (h : Ready sp c s)
    (hu : sp.unitOk (taken t s) c = sp.unitOk s c) (hd : ∀ k ∈ sp.dies (taken t s) c, k < 2)
    (hrun : sp.run (recOf sp c s) c (taken t s) = fail status body (taken t s)) (hst : 0x8000 ≤ status) (hafter : sp.after = id)
    (hlen : body.length ≤ 1008) :
    ∃ r, execCmd sp t c s = .next r ∧ EndsFailed sp.opcode status body c s r ∧ ReplyFrame s r := by
  have hf := taken_frame t h.inv h.slot
  have hlt : ¬ status < 0x8000 := by omega
  obtain ⟨r, h1, h2, -, h3, -, -, h6⟩ := execCmd_status h hu hd hrun (by simp [stAccepted]; omega) ⟨rfl, rfl, rfl, rfl, rfl⟩ hafter hlen
  refine ⟨r, h1, ⟨h2, by simpa [hlt] using h3⟩, ?_⟩
  rw [committed_quiet h.inv hf.bench] at h6
  refine h6.after ?_
  have h0 := hf.reply
  unfold ReplyFrame at *
  rw [h0]
  simp [hlt]

/-- Accepting a command takes one reply slot more. -/
theorem freeSlots_accept (r : CmdRec) (n : Nat) (s : State) :
    freeSlots s n ≤ freeSlots { dropCmd r.ticket s with cmds := (dropCmd r.ticket s).cmds ++ [{ r with accepted := true }] } n + 1 := by
  have h := freeSlots_dropCmd r.ticket n s
  unfold freeSlots reservedSlots at *
  simp only [List.filter_append, List.length_append, dropCmd_host, dropCmd_ring] at *
  have : (([{ r with accepted := true }] : List CmdRec).filter fun x => decide (x.ring = n) && x.accepted && x.via.isNone).length ≤ 1 :=
    List.length_filter_le _ _
  omega

theorem postReply_cmds (n w : Nat) (irq : Bool) (bytes : Bytes) (s : State) : (postReply n w irq bytes s).cmds = s.cmds := by
  have hw : ∀ m (i : Bool) (b : Bytes) (x : State), (writeReply m i b x).cmds = x.cmds := by
    intro m i b x
    unfold writeReply
    simp only
    split <;> split
    · rw [(raise_frame _ _ _ _).cmds]; rfl
    · rw [(raise_frame _ _ _ _).cmds]; rfl
    · rfl
    · rfl
  have hr : ∀ t (x : State), (reportTicket t x).cmds = x.cmds := by
    intro t x
    unfold reportTicket
    simp only
    split <;> rfl
  have hd : ∀ (l : List PostEntry) (hold : Nat) (x : State), (drainPosts n l hold x).2.cmds = x.cmds := by
    intro l
    induction l with
    | nil => intro _ _; rfl
    | cons e l ih =>
      intro hold x
      cases e with
      | waiting t => exact ih _ _
      | ready t irq bytes =>
        unfold drainPosts
        simp only
        split
        · exact ih _ _
        · rw [ih, hr, hw]
  unfold postReply flushRing
  simp only
  split
  · rfl
  · simp only [setRing_cmds, hd]

/-- A ready packet whose command is accepted: ST_ACCEPTED is posted, and the command is in progress. -/
theorem execCmd_accepted {sp : CmdSpec} {t : Nat} {c : HostCmd} {s q : State} {body : Bytes} (h : Ready sp c s) (hm : acceptsMore s)
    (hu : sp.unitOk (taken t s) c = sp.unitOk s c) (hd : ∀ k ∈ sp.dies (taken t s) c, k < 2)
    (hrun : sp.run (recOf sp c s) c (taken t s) = accepted body q) (hk : KeepsReply (taken t s) q)
    (hafter : sp.after = id) (hlen : body.length ≤ 944) :
    ∃ r, execCmd sp t c s = .next r ∧ Accepts sp.opcode body c s r ∧ q.emit ⊆ r.emit ∧
      ReplyFrame { q with pending := s.pending, bench := committed s.bench.mem q.bench } r := by
  have hf := taken_frame t h.inv h.slot
  refine ⟨_, execCmd_runs h, ?_⟩
  have hj := judge_ready h hu hd (recOf sp c s) (fun _ => hm)
  have hrh : ∃ b e, runHere sp (recOf sp c s) c (taken t s) = answer (recOf sp c s) stAccepted body (maybeJournal b e q) := by
    refine ⟨journalled q sp.opcode c, .command sp.opcode c (u32 body 0), ?_⟩
    unfold runHere maybeJournal
    simp [hj, hrun, accepted, stAccepted, hafter]
  obtain ⟨b, e, hrh⟩ := hrh
  rw [hrh]
  have hmj := maybeJournal_frame b e q
  have hml : (maybeJournal b e q).ledger = q.ledger ∧ (maybeJournal b e q).host = q.host ∧ (maybeJournal b e q).cmds = q.cmds ∧
      (maybeJournal b e q).ring = q.ring ∧ q.emit ⊆ (maybeJournal b e q).emit := by
    unfold maybeJournal
    split <;> simp [journal, out]
  obtain ⟨m1, m2, m3, m4, m5⟩ := hml
  have h0 := hk.ringReady h
  have hmod : (maybeJournal b e q).ring.moduleId = s.ring.moduleId := by rw [m4, hk.ring, hf.ring]
  have hrings : (maybeJournal b e q).host.rings = s.host.rings := by rw [m2, hk.rings, hf.rings]
  have hroom : replySlots (replyBytes sp.opcode stAccepted c.tag (nextTicket s) s.ring.moduleId 0 body) ≤
      freeSlots { dropCmd (nextTicket s) (maybeJournal b e q) with
        cmds := (dropCmd (nextTicket s) (maybeJournal b e q)).cmds ++ [{ recOf sp c s with accepted := true }] } c.ring := by
    have h1 := freeSlots_accept (recOf sp c s) c.ring (maybeJournal b e q)
    have h2 : 16 ≤ freeSlots (maybeJournal b e q) c.ring := by
      have := h0.room
      unfold freeSlots reservedSlots at *
      rwa [m2, m3, m4]
    have h3 : replySlots (replyBytes sp.opcode stAccepted c.tag (nextTicket s) s.ring.moduleId 0 body) ≤ 15 := by
      simp only [replySlots, replyBytes, List.length_append, le_length, ceilDiv]
      omega
    have h4 := le_trans h2 h1
    have h5 := le_trans (Nat.succ_le_succ h3) h4
    exact Nat.le_of_succ_le_succ h5
  obtain ⟨p1, p2, p3, p4⟩ := postReply_posts (n := c.ring) (w := nextTicket s) (irq := c.irq)
    (bytes := replyBytes sp.opcode stAccepted c.tag (nextTicket s) s.ring.moduleId 0 body)
    (s := { dropCmd (nextTicket s) (maybeJournal b e q) with
        cmds := (dropCmd (nextTicket s) (maybeJournal b e q)).cmds ++ [{ recOf sp c s with accepted := true }] })
    (by simp only [dropCmd_hf]; rw [hmj.hf_fabric]; exact h0.fabric) h.ring (by simp only [dropCmd_host, hrings]; exact h.enabled)
    (by simp only [dropCmd_host, hrings]; exact h.first) hroom
  simp only [dropCmd_host, hrings] at p1 p2
  have ea : answer (recOf sp c s) stAccepted body (maybeJournal b e q) =
      postReply c.ring (nextTicket s) c.irq (replyBytes sp.opcode stAccepted c.tag (nextTicket s) s.ring.moduleId 0 body)
        { dropCmd (nextTicket s) (maybeJournal b e q) with
          cmds := (dropCmd (nextTicket s) (maybeJournal b e q)).cmds ++ [{ recOf sp c s with accepted := true }] } := by
    unfold answer sendReply
    simp only [if_true, recOf, Bool.false_eq_true, if_false, dropCmd_ring, hmod]
  rw [ea]
  have a6 : ReplyFrame q (postReply c.ring (nextTicket s) c.irq (replyBytes sp.opcode stAccepted c.tag (nextTicket s) s.ring.moduleId 0 body)
        { dropCmd (nextTicket s) (maybeJournal b e q) with
          cmds := (dropCmd (nextTicket s) (maybeJournal b e q)).cmds ++ [{ recOf sp c s with accepted := true }] }) :=
    (postReply_frame _ _ _ _ _).after (ReplyFrame.after (r := maybeJournal b e q) (by simp [ReplyFrame, dropCmd]) hmj)
  have hcf := commit_changes t s (postReply c.ring (nextTicket s) c.irq (replyBytes sp.opcode stAccepted c.tag (nextTicket s) s.ring.moduleId 0 body)
        { dropCmd (nextTicket s) (maybeJournal b e q) with
          cmds := (dropCmd (nextTicket s) (maybeJournal b e q)).cmds ++ [{ recOf sp c s with accepted := true }] })
  refine ⟨⟨⟨p1, ?_⟩, ?_⟩, ?_, ?_⟩
  · rw [hcf.rings]; exact p2
  · rw [hcf.cmds, postReply_cmds]
    simp [recOf]
  · exact fun x hx => postReply_emits _ _ _ _ _ (m5 hx)
  · have := a6.with_bench s.pending (committed s.bench.mem q.bench)
    rw [a6.bench] at hcf
    exact hcf.reply.after this

/-- A ready packet whose reply follows later keeps its place in its ring. -/
theorem execCmd_later {sp : CmdSpec} {t : Nat} {c : HostCmd} {s q : State} (h : Ready sp c s)
    (hu : sp.unitOk (taken t s) c = sp.unitOk s c) (hd : ∀ k ∈ sp.dies (taken t s) c, k < 2)
    (hrun : sp.run (recOf sp c s) c (taken t s) = replyLater q) (hk : KeepsReply (taken t s) q) (hafter : sp.after = id) :
    ∃ r, execCmd sp t c s = .next r ∧ Deferred c s r ∧ q.emit ⊆ r.emit ∧
      ReplyFrame { q with pending := s.pending, bench := committed s.bench.mem q.bench } r := by
  have hf := taken_frame t h.inv h.slot
  refine ⟨_, execCmd_runs h, ?_⟩
  have hj := judge_ready h hu hd (recOf sp c s) (by rw [hrun]; intro hx; simp [replyLater, stOk, stAccepted] at hx)
  have hrh : ∃ b e, runHere sp (recOf sp c s) c (taken t s) =
      setRing c.ring (fun p => { p with posts := p.posts ++ [.waiting (nextTicket s)] })
        { maybeJournal b e q with cmds := (maybeJournal b e q).cmds ++ [recOf sp c s] } := by
    refine ⟨journalled q sp.opcode c, .command sp.opcode c (u32 [] 0), ?_⟩
    unfold runHere maybeJournal
    simp only [hj, hrun, replyLater, hafter]
    simp [stOk, recOf]
  obtain ⟨b, e, hrh⟩ := hrh
  rw [hrh]
  have hmj := maybeJournal_frame b e q
  have hml : (maybeJournal b e q).host = q.host ∧ q.emit ⊆ (maybeJournal b e q).emit := by
    unfold maybeJournal
    split <;> simp [journal, out]
  obtain ⟨m2, m5⟩ := hml
  have h0 := hk.ringReady h
  have a6 : ReplyFrame q (setRing c.ring (fun p => { p with posts := p.posts ++ [.waiting (nextTicket s)] })
        { maybeJournal b e q with cmds := (maybeJournal b e q).cmds ++ [recOf sp c s] }) :=
    (setRing_frame _ _ _).after (ReplyFrame.after (r := maybeJournal b e q) (by simp [ReplyFrame]) hmj)
  have hcf := commit_changes t s (setRing c.ring (fun p => { p with posts := p.posts ++ [.waiting (nextTicket s)] })
        { maybeJournal b e q with cmds := (maybeJournal b e q).cmds ++ [recOf sp c s] })
  refine ⟨⟨?_, ?_⟩, ?_, ?_⟩
  · rw [hcf.rings]
    simp only [setRing_rings, m2]
    rw [vget_vmod_self _ _ _ h.ring, h0.first]
    rfl
  · rw [hcf.cmds]
    simp [recOf]
  · exact fun x hx => m5 hx
  · have := a6.with_bench s.pending (committed s.bench.mem q.bench)
    rw [a6.bench] at hcf
    exact hcf.reply.after this

/-! ### Queries, settings and refusals -/

/-- A command whose run only answers, perhaps with free bytes and a write to host memory, is a query. -/
theorem answers_of {i : Nat → HostCmd → Instr} {sp : CmdSpec} {cond : HostCmd → State → Prop} {body : HostCmd → State → Bytes}
    {puts : HostCmd → State → List Emit}
    (hi : ∀ t c s, exec (i t c) s = execCmd sp t c s) (hq : isStaged sp.opcode = false) (ha : sp.after = id)
    (hu : ∀ t c s, Ready sp c s → sp.unitOk (taken t s) c = sp.unitOk s c) (hd : ∀ c s, ∀ k ∈ sp.dies s c, k < 2)
    (hrun : ∀ t c s, Ready sp c s → cond c s →
      (body c (taken t s)).length ≤ 1008 ∧ ∃ n e, puts c (taken t s) ⊆ e ∧
      sp.run (recOf sp c s) c (taken t s) = ok (body c (taken t s)) { taken t s with free := n, emit := e }) : Answers i sp cond body puts := by
  intro t c s h hc
  obtain ⟨hl, n, e, he, hr⟩ := hrun t c s h hc
  have hf := taken_frame t h.inv h.slot
  obtain ⟨r, h1, h2, h3, -, h4⟩ := execCmd_ok (sp := sp) (t := t) (q := { taken t s with free := n, emit := e }) h (hu t c s h) (hd c (taken t s)) hr
    ⟨rfl, rfl, rfl, rfl, rfl⟩ ha hf.bench hf.pending hl
  refine ⟨r, (hi t c s).trans h1, h2, fun _ hx => h3 (he hx), h4.after ?_⟩
  have hfree : r.free = n := h4.free
  have h0 := hf.reply
  rw [hfree]
  unfold ReplyFrame at h0 ⊢
  rw [h0]
  simp only [hq, Bool.false_eq_true, if_false]

/-- A command whose run answers ST_OK at once. -/
theorem acts_of {i : Nat → HostCmd → Instr} {sp : CmdSpec} {cond : HostCmd → State → Prop} {body : HostCmd → State → Bytes}
    {new : Nat → HostCmd → State → State}
    (hi : ∀ t c s, exec (i t c) s = execCmd sp t c s) (ha : sp.after = id)
    (hu : ∀ t c s, sp.unitOk (taken t s) c = sp.unitOk s c) (hd : ∀ c s, ∀ k ∈ sp.dies s c, k < 2)
    (hrun : ∀ t c s, Ready sp c s → cond c s → (body c (taken t s)).length ≤ 1008 ∧
      ∃ q, sp.run (recOf sp c s) c (taken t s) = ok (body c (taken t s)) q ∧ KeepsReply (taken t s) q ∧ q.bench = s.bench ∧ q.pending = s.pending ∧
        ReplyFrame (new t c s) { q with stageGen := if isStaged sp.opcode then wrap32 (q.stageGen + 1) else q.stageGen }) :
    Acts i sp cond body new := by
  intro t c s h hc
  obtain ⟨hl, q, hr, hk, hb, hp, hn⟩ := hrun t c s h hc
  obtain ⟨r, h1, h2, -, -, h3⟩ := execCmd_ok (t := t) h (hu t c s) (hd c (taken t s)) hr hk ha hb hp hl
  exact ⟨r, (hi t c s).trans h1, h2, h3.after hn⟩

/-- A command whose run is accepted. -/
theorem starts_of {i : Nat → HostCmd → Instr} {sp : CmdSpec} {cond : HostCmd → State → Prop} {new : Nat → HostCmd → State → State}
    (hi : ∀ t c s, exec (i t c) s = execCmd sp t c s) (ha : sp.after = id)
    (hu : ∀ t c s, sp.unitOk (taken t s) c = sp.unitOk s c) (hd : ∀ c s, ∀ k ∈ sp.dies s c, k < 2)
    (hrun : ∀ t c s, Ready sp c s → cond c s →
      ∃ q, sp.run (recOf sp c s) c (taken t s) = accepted [] q ∧ KeepsReply (taken t s) q ∧
        ReplyFrame (new t c s) { q with pending := s.pending, bench := committed s.bench.mem q.bench }) :
    Starts i sp cond new := by
  intro t c s h hm hc
  obtain ⟨q, hr, hk, hn⟩ := hrun t c s h hc
  obtain ⟨r, h1, h2, -, h3⟩ := execCmd_accepted (t := t) h hm (hu t c s) (hd c (taken t s)) hr hk ha (Nat.zero_le _)
  exact ⟨r, (hi t c s).trans h1, h2, h3.after hn⟩

/-- A command whose run keeps its place for a later reply. -/
theorem waits_of {i : Nat → HostCmd → Instr} {sp : CmdSpec} {cond : HostCmd → State → Prop} {new : Nat → HostCmd → State → State}
    (hi : ∀ t c s, exec (i t c) s = execCmd sp t c s) (ha : sp.after = id)
    (hu : ∀ t c s, sp.unitOk (taken t s) c = sp.unitOk s c) (hd : ∀ c s, ∀ k ∈ sp.dies s c, k < 2)
    (hrun : ∀ t c s, Ready sp c s → cond c s →
      ∃ q, sp.run (recOf sp c s) c (taken t s) = replyLater q ∧ KeepsReply (taken t s) q ∧
        ReplyFrame (new t c s) { q with pending := s.pending, bench := committed s.bench.mem q.bench }) :
    Waits i sp cond new := by
  intro t c s h hc
  obtain ⟨q, hr, hk, hn⟩ := hrun t c s h hc
  obtain ⟨r, h1, h2, -, h3⟩ := execCmd_later (t := t) h (hu t c s) (hd c (taken t s)) hr hk ha
  exact ⟨r, (hi t c s).trans h1, h2, h3.after hn⟩

/-- A command whose run turns a packet away. -/
theorem refuses_of {i : Nat → HostCmd → Instr} {sp : CmdSpec} {cond : HostCmd → State → Prop} {status : Nat} {body : HostCmd → State → Bytes}
    (hi : ∀ t c s, exec (i t c) s = execCmd sp t c s) (hst : 0x8000 ≤ status) (ha : sp.after = id)
    (hu : ∀ t c s, sp.unitOk (taken t s) c = sp.unitOk s c) (hd : ∀ c s, ∀ k ∈ sp.dies s c, k < 2)
    (hrun : ∀ t c s, Ready sp c s → cond c s → (body c (taken t s)).length ≤ 1008 ∧
      sp.run (recOf sp c s) c (taken t s) = fail status (body c (taken t s)) (taken t s)) : Refuses i sp cond status body := by
  intro t c s h hc
  obtain ⟨hl, hr⟩ := hrun t c s h hc
  obtain ⟨r, h1, h2, h3⟩ := execCmd_fail (t := t) h (hu t c s) (hd c (taken t s)) hr hst ha hl
  exact ⟨r, (hi t c s).trans h1, h2, h3⟩

/-- A staged edit of a packet that nothing refuses. -/
theorem stageEdit_taken {sp : CmdSpec} {t : Nat} {c : HostCmd} {s : State} {edit : Cfg → Cfg} {opcode unit : Nat} (h : Ready sp c s) (hg : s.glue = none)
    (hp : s.ring.prepared = none)
    (hc : conflictOf (claimsOf (edit s.staged) s.marq.shadow.region) (runningClaims s) s.claims opcode unit = none) :
    stageEdit opcode unit none edit (taken t s) = ok [] { taken t s with staged := edit s.staged } := by
  have hf := taken_frame t h.inv h.slot
  have h1 : (taken t s).glue = none := by rw [hf.glue]; exact hg
  have h2 : (taken t s).ring.prepared = none := by rw [hf.ring_prepared]; exact hp
  have h3 : conflictOf (claimsOf (edit s.staged) (taken t s).marq.shadow.region) (runningClaims (taken t s)) (taken t s).claims opcode unit = none := by
    rw [← hc]
    simp only [runningClaims, cfgNow, hf.glue, hf.running, hf.marq, hf.claims]
  unfold stageEdit checked
  simp only [Option.isSome, h1, h2, Bool.false_eq_true, if_false, hf.staged]
  rw [h3]

/-- A command whose run stages an edit, and perhaps notes that its encoder or slot was staged, is a setting. -/
theorem stages_of {i : Nat → HostCmd → Instr} {sp : CmdSpec} {cond : HostCmd → State → Prop} {edit : HostCmd → Cfg → Cfg}
    (hi : ∀ t c s, exec (i t c) s = execCmd sp t c s) (hq : isStaged sp.opcode = true) (ha : sp.after = id)
    (hu : ∀ t c s, sp.unitOk (taken t s) c = sp.unitOk s c) (hd : ∀ c s, ∀ k ∈ sp.dies s c, k < 2)
    (hrun : ∀ t c s, Ready sp c s → cond c s →
      (∀ op u, op = sp.opcode → u = c.unit → stageEdit op u none (edit c) (taken t s) = ok [] { taken t s with staged := edit c s.staged }) →
      ∃ a b, sp.run (recOf sp c s) c (taken t s) = ok [] { taken t s with
        staged := edit c s.staged
        gauge := { (taken t s).gauge with encStaged := a }
        links := { (taken t s).links with linkStaged := b } }) : Stages i sp cond edit := by
  intro t c s h hb hg hp hc
  have hf := taken_frame t h.inv h.slot
  obtain ⟨a, b, hrun'⟩ := hrun t c s h hb (by rintro op u rfl rfl; exact stageEdit_taken h hg hp hc)
  have hk : KeepsReply (taken t s) { taken t s with
      staged := edit c s.staged
      gauge := { (taken t s).gauge with encStaged := a }
      links := { (taken t s).links with linkStaged := b } } := by constructor <;> rfl
  obtain ⟨r, h1, h2, -, -, h3⟩ := execCmd_ok (sp := sp) (t := t) h (hu t c s) (hd c (taken t s)) hrun' hk ha hf.bench hf.pending (Nat.zero_le _)
  have hst : r.staged = edit c s.staged := h3.staged
  have hsg : r.stageGen = wrap32 (s.stageGen + 1) := by
    have := h3.stageGen
    simpa only [hq, if_true, hf.stageGen] using this
  have hg' : r.gauge = { s.gauge with encStaged := a } := by
    have := h3.gauge
    simpa only [hf.gauge] using this
  have hl' : r.links = { s.links with linkStaged := b } := by
    have := h3.links
    simpa only [hf.links] using this
  refine ⟨r, (hi t c s).trans h1, hst, hsg, h2, h3.after ?_⟩
  have h0 := hf.reply
  rw [hst, hsg, hg', hl']
  unfold ReplyFrame at h0 ⊢
  rw [h0]
  simp only [hq, if_true]

/-- The same for a run that is the staged edit alone. -/
theorem stages_plain {i : Nat → HostCmd → Instr} {sp : CmdSpec} {cond : HostCmd → State → Prop} {edit : HostCmd → Cfg → Cfg}
    (hi : ∀ t c s, exec (i t c) s = execCmd sp t c s) (hq : isStaged sp.opcode = true) (ha : sp.after = id)
    (hu : ∀ t c s, sp.unitOk (taken t s) c = sp.unitOk s c) (hd : ∀ c s, ∀ k ∈ sp.dies s c, k < 2)
    (hrun : ∀ t c s, Ready sp c s → cond c s →
      ∃ op u, op = sp.opcode ∧ u = c.unit ∧ sp.run (recOf sp c s) c (taken t s) = stageEdit op u none (edit c) (taken t s)) :
    Stages i sp cond edit := by
  refine stages_of hi hq ha hu hd fun t c s h hb hst => ?_
  obtain ⟨op, u, h1, h2, h3⟩ := hrun t c s h hb
  exact ⟨(taken t s).gauge.encStaged, (taken t s).links.linkStaged, by rw [h3, hst op u h1 h2]⟩

end Sys2Proof.Machine
end

