-- ==== Sys2Proof/Laws/Happens.lean ====
section
/-! SUPPORT. What happens by itself: the frame of one event, and the end of a command in progress. -/

namespace Sys2Proof.Machine

theorem tick_inv (t : Nat) {s : State} (h : s.Inv) : (tick t s).Inv := ⟨h.mem, rfl, rfl⟩

theorem tick_bench (t : Nat) {s : State} (h : s.Inv) : (tick t s).bench = s.bench := by
  unfold tick
  simp only
  rw [← h.writes, ← h.emptied]

/-- The commit of an effect that left the Bench and the queue alone. -/
theorem commit_quiet (t : Nat) {s q : State} (h : s.Inv) (hb : q.bench = (tick t s).bench) (hp : q.pending = s.pending) :
    OutFrame q (commit (tick t s) q) := commit_frame t h (hb.trans (tick_bench t h)) hp

theorem happens_of {i : Nat → Instr} {f new : State → State} {cond : State → Prop} {evs : List Nat} {puts : State → List Emit}
    (hx : ∀ t s, exec (i t) s = runAt t s f)
    (h : ∀ q : State, q.Inv → q.emit = [] → cond q →
      OutFrame (new q) (f q) ∧ (new q).bench = q.bench ∧ (new q).pending = q.pending ∧
      (∀ e ∈ evs, bitOf (f q).host.evt.pending e = true) ∧ puts q ⊆ (f q).emit) :
    Happens i cond new evs puts := by
  intro t s hi hc
  obtain ⟨h1, h2, h3, h4, h5⟩ := h (tick t s) (tick_inv t hi) rfl hc
  refine ⟨_, hx t s, rfl, ?_, h4, h5⟩
  exact (commit_quiet t hi (h1.bench.trans h2) (h1.pending.trans h3)).after h1

/-- A unit of the fabric works while the fabric runs and its parts of the Bench serve. -/
theorem happens_up {i : Nat → Instr} {f new : State → State} {parts : List Nat} {cond : State → Prop} {evs : List Nat} {puts : State → List Emit}
    (hx : ∀ t s, exec (i t) s = runFabric t parts s f)
    (hu : ∀ q, cond q → up q ∧ ∀ k ∈ parts, partUp q k = true)
    (h : ∀ q : State, q.Inv → q.emit = [] → cond q →
      OutFrame (new q) (f q) ∧ (new q).bench = q.bench ∧ (new q).pending = q.pending ∧
      (∀ e ∈ evs, bitOf (f q).host.evt.pending e = true) ∧ puts q ⊆ (f q).emit) :
    Happens i cond new evs puts := by
  refine happens_of (f := onFabric parts f) hx ?_
  intro q hi he hc
  have hf : onFabric parts f q = f q := by
    obtain ⟨h1, h2⟩ := hu q hc
    have h3 : parts.all (partUp q) = true := List.all_eq_true.2 h2
    unfold onFabric fabricUp
    rw [h3, show q.hf.fabric = .running from h1]
    rfl
  rw [hf]
  exact h q hi he hc

/-! ### The end of a command in progress -/

theorem postReply_counts (n w : Nat) (irq : Bool) (bytes : Bytes) (s : State) :
    (postReply n w irq bytes s).ledger.complete = s.ledger.complete ∧ (postReply n w irq bytes s).ledger.failed = s.ledger.failed := by
  have hd : ∀ (l : List PostEntry) (hold : Nat) (x : State),
      (drainPosts n l hold x).2.ledger.complete = x.ledger.complete ∧ (drainPosts n l hold x).2.ledger.failed = x.ledger.failed := by
    intro l
    induction l with
    | nil => intro _ _; exact ⟨rfl, rfl⟩
    | cons e l ih =>
      intro hold x
      cases e with
      | waiting t => exact ih _ _
      | ready t irq bytes =>
        unfold drainPosts
        simp only
        split
        · exact ih _ _
        · obtain ⟨h1, h2⟩ := ih hold (reportTicket t (writeReply n irq bytes x))
          obtain ⟨h3, h4⟩ := reportTicket_counts t (writeReply n irq bytes x)
          rw [writeReply_ledger] at h3 h4
          exact ⟨h1.trans h3, h2.trans h4⟩
  unfold postReply flushRing
  simp only
  split
  · exact ⟨rfl, rfl⟩
  · simp only [setRing_ledger]
    obtain ⟨h1, h2⟩ := hd (vget (setRing n (fun p => { p with posts := placePost w (.ready w irq bytes) p.posts }) s).host.rings n).posts 0
      (setRing n (fun p => { p with posts := [] }) (setRing n (fun p => { p with posts := placePost w (.ready w irq bytes) p.posts }) s))
    exact ⟨h1, h2⟩

theorem dropCmd_gone (w : Nat) (s : State) : cmdOf (dropCmd w s) w = none := by
  simp [cmdOf, dropCmd, List.find?_eq_none]

theorem cmdOf_ticket {s : State} {w : Nat} {c : CmdRec} (h : cmdOf s w = some c) : c.ticket = w := by
  have := List.find?_some h
  simpa using this

theorem complete_over {w status : Nat} {c : CmdRec} {q : State} (body : Bytes) (h : InProgress w c q) (hs : status ≠ stAccepted) :
    Over w status c q (complete w status body q) ∧
    ReplyFrame { q with stageGen := (complete w status body q).stageGen } (complete w status body q) := by
  refine ⟨?_, complete_frame _ _ _ _⟩
  have ht := cmdOf_ticket h.found
  have hf : q.cmds.find? (fun r => decide (r.ticket = w)) = some c := h.found
  have hz : ticketCode status = 0 ↔ status < 0x8000 := by
    unfold ticketCode
    split <;> simp_all
    omega
  obtain ⟨c1, c2⟩ := decideTicket_counts (s := dropCmd w q) (ticketCode status) h.live
  simp only [hz, dropCmd_ledger] at c1 c2
  have hcm : cmdOf (decideTicket w (ticketCode status) (dropCmd w q)) w = none := by
    rw [show cmdOf (decideTicket w (ticketCode status) (dropCmd w q)) w = cmdOf (dropCmd w q) w from by
      unfold cmdOf; rw [(decide_frame w (ticketCode status) (dropCmd w q)).cmds]]
    exact dropCmd_gone w q
  have hst : (decideTicket w (ticketCode status) (dropCmd w q)).stageGen = q.stageGen := (decide_frame _ _ _).stageGen
  unfold complete
  simp only [hf]
  split
  · unfold sendReply
    simp only [h.heard, h.direct, Bool.false_eq_true, if_false]
    refine ⟨?_, ?_, ?_, fun _ => ?_⟩
    · simpa [cmdOf, postReply_cmds] using hcm
    · rw [(postReply_counts _ _ _ _ _).1]; exact c1
    · rw [(postReply_counts _ _ _ _ _).2]; exact c2
    · rw [(postReply_frame _ _ _ _ _).stageGen]; exact hst
  · rename_i hna
    unfold answer sendReply
    simp only [hs, if_false, ht, h.heard, h.direct, Bool.false_eq_true]
    refine ⟨?_, ?_, ?_, fun ha => absurd ha hna⟩
    · split <;> simpa [cmdOf, postReply_cmds] using hcm
    · split <;> (rw [(postReply_counts _ _ _ _ _).1]; exact c1)
    · split <;> (rw [(postReply_counts _ _ _ _ _).2]; exact c2)

theorem InProgress.of_eq {w : Nat} {c : CmdRec} {s q : State} (h : InProgress w c s) (h1 : q.cmds = s.cmds) (h2 : q.ledger = s.ledger) :
    InProgress w c q := ⟨by unfold cmdOf; rw [h1]; exact h.found, h.direct, h.heard, by rw [h2]; exact h.live⟩

theorem Over.of_eq {w status : Nat} {c : CmdRec} {s q r r' : State} (h : Over w status c q r) (h1 : q.ledger = s.ledger) (h2 : q.stageGen = s.stageGen)
    (h3 : r'.cmds = r.cmds) (h4 : r'.ledger = r.ledger) (h5 : r'.stageGen = r.stageGen) : Over w status c s r' := by
  obtain ⟨a, b, d, e⟩ := h
  refine ⟨by unfold cmdOf at *; rw [h3]; exact a, ?_, ?_, ?_⟩
  · rw [h4, b, h1]
  · rw [h4, d, h1]
  · intro hc; rw [h5, e hc, h2]

/-- An event whose effect is the completion of a command after a change `g`. -/
theorem concludes_of {i : Nat → Instr} {f g new : State → State} {cond : State → Prop} {w status : State → Nat} {body : State → Bytes}
    {evs : List Nat} {puts : State → List Emit}
    (hx : ∀ t s, exec (i t) s = runAt t s f)
    (h : ∀ (q : State) (c : CmdRec), q.Inv → q.emit = [] → cond q → InProgress (w q) c q →
      f q = complete (w q) (status q) (body q) (g q) ∧ status q ≠ stAccepted ∧ (g q).cmds = q.cmds ∧ (g q).ledger = q.ledger ∧
      (g q).stageGen = q.stageGen ∧
      ReplyFrame (new q) (g q) ∧ (new q).bench = q.bench ∧ (new q).pending = q.pending ∧
      (∀ e ∈ evs, bitOf (g q).host.evt.pending e = true) ∧ puts q ⊆ (g q).emit) :
    Concludes i cond w status new evs puts := by
  intro t s c hi hc hp
  have hp' : InProgress (w (tick t s)) c (tick t s) := hp.of_eq rfl rfl
  obtain ⟨h0, hs, h1, h2, h3, h4, h5, h6, h7, h8⟩ := h (tick t s) c (tick_inv t hi) rfl hc hp'
  obtain ⟨o, fr⟩ := complete_over (body (tick t s)) (hp'.of_eq h1 h2) hs
  have hb : (f (tick t s)).bench = (tick t s).bench := by rw [h0, fr.bench]; exact h4.bench.trans h5
  have hpe : (f (tick t s)).pending = s.pending := by rw [h0, fr.pending]; exact h4.pending.trans h6
  have hq := commit_quiet t hi hb hpe
  refine ⟨_, hx t s, rfl, ?_, ?_, ?_, ?_⟩
  · rw [h0]
    exact o.of_eq h2 h3 rfl rfl rfl
  · refine hq.reply.after ?_
    rw [h0]
    refine fr.after ?_
    unfold ReplyFrame at h4 ⊢
    rw [h4]
    rfl
  · intro e he
    show bitOf (f (tick t s)).host.evt.pending e = true
    rw [h0]
    exact complete_keeps _ _ _ (h7 e he)
  · show puts (tick t s) ⊆ (f (tick t s)).emit
    rw [h0]
    exact List.Subset.trans h8 (complete_emits _ _ _ _)

end Sys2Proof.Machine
end

