-- ==== Sys2Proof/Laws/Memory.lean ====
section
/-! SUPPORT. Bench memory keeps its canonical form, a read after a write gives the bytes written, and a write leaves every other
byte alone. -/

namespace Sys2Proof.Machine

/-- The canonical form in the library's words. -/
theorem cellsRise_iff (m : List Host.Cell) : cellsRise m = true ↔ m.Pairwise (fun a b => a.1 < b.1) := by
  induction m with
  | nil => simp [cellsRise]
  | cons a rest ih =>
    cases rest with
    | nil => simp [cellsRise]
    | cons b rest =>
      simp only [cellsRise, Bool.and_eq_true, decide_eq_true_eq, ih]
      constructor
      · rintro ⟨h, hp⟩
        refine List.pairwise_cons.2 ⟨?_, hp⟩
        intro c hc
        rcases List.mem_cons.1 hc with rfl | hc
        · exact h
        · exact lt_trans h ((List.pairwise_cons.1 hp).1 c hc)
      · intro hp
        exact ⟨(List.pairwise_cons.1 hp).1 b (by simp), (List.pairwise_cons.1 hp).2⟩

theorem Memory.wf_iff (m : List Host.Cell) :
    Memory.wf m = true ↔ m.Pairwise (fun a b => a.1 < b.1) ∧ ∀ c ∈ m, c.1 < benchSize ∧ c.2 ≠ 0 := by
  simp [Memory.wf, cellsRise_iff, List.all_eq_true]

/-- What a sparse list holds at an offset. -/
def cellAt (m : List Host.Cell) (a : Nat) : Byte := match m.find? fun c => decide (c.1 = a) with | some c => c.2 | none => 0

theorem cellAt_nil (a : Nat) : cellAt [] a = 0 := rfl

theorem cellAt_cons (c : Host.Cell) (m : List Host.Cell) (a : Nat) : cellAt (c :: m) a = if c.1 = a then c.2 else cellAt m a := by
  unfold cellAt
  by_cases h : c.1 = a <;> simp [h]

theorem cellAt_none {m : List Host.Cell} {a : Nat} (h : ∀ c ∈ m, c.1 ≠ a) : cellAt m a = 0 := by
  induction m with
  | nil => rfl
  | cons c m ih =>
    rw [cellAt_cons, if_neg (h c (by simp)), ih fun d hd => h d (by simp [hd])]

theorem cellAt_append (l m : List Host.Cell) (a : Nat) :
    cellAt (l ++ m) a = if ∃ c ∈ l, c.1 = a then cellAt l a else cellAt m a := by
  induction l with
  | nil => simp
  | cons c l ih =>
    rw [List.cons_append, cellAt_cons, ih, cellAt_cons]
    by_cases h : c.1 = a
    · simp [h]
    · simp [h]

theorem cellAt_filter (p : Nat → Bool) (m : List Host.Cell) (a : Nat) :
    cellAt (m.filter fun c => p c.1) a = if p a then cellAt m a else 0 := by
  induction m with
  | nil => simp [cellAt_nil]
  | cons c m ih =>
    by_cases hp : p c.1
    · rw [List.filter_cons_of_pos (by simpa using hp), cellAt_cons, cellAt_cons, ih]
      by_cases h : c.1 = a
      · subst h; simp [hp]
      · simp [h]
    · rw [List.filter_cons_of_neg (by simpa using hp), cellAt_cons, ih]
      by_cases h : c.1 = a
      · subst h; simp [hp]
      · simp [h]

theorem sexpand_none {α : Type} {l : List (Nat × α)} {d : Nat → α} {first : Nat} (n : Nat) (h : ∀ kv ∈ l, kv.1 < first) :
    sexpand l d first n = (List.range n).map fun i => d (first + i) := by
  cases n with
  | zero => rfl
  | succ n =>
    have : (l.dropWhile fun kv => decide (kv.1 < first)) = [] := by
      simp only [List.dropWhile_eq_nil_iff, decide_eq_true_eq]
      exact fun x hx => h x hx
    simp only [sexpand, this]

/-- A run of bytes is what the offsets hold, one after another. -/
theorem memRead_eq {m : List Host.Cell} (hm : m.Pairwise (fun a b => a.1 < b.1)) (off n : Nat) :
    memRead m off n = (List.range n).map fun i => cellAt m (off + i) := by
  unfold memRead
  induction n generalizing m off with
  | zero => rfl
  | succ n ih =>
    have hd : (m.dropWhile fun kv => decide (kv.1 < off)).Pairwise (fun a b => a.1 < b.1) := hm.sublist (List.dropWhile_sublist _)
    have hsame : ∀ a, off ≤ a → cellAt m a = cellAt (m.dropWhile fun kv => decide (kv.1 < off)) a := by
      intro a ha
      conv_lhs => rw [← List.takeWhile_append_dropWhile (p := fun kv : Host.Cell => decide (kv.1 < off)) (l := m)]
      rw [cellAt_append, if_neg]
      rintro ⟨c, hc, rfl⟩
      have := List.mem_takeWhile_imp hc
      simp at this
      omega
    simp only [sexpand]
    cases hk : (m.dropWhile fun kv => decide (kv.1 < off)) with
    | nil =>
      rw [hk] at hsame
      simp only
      refine List.map_congr_left fun i _ => ?_
      rw [hsame (off + i) (by omega), cellAt_nil]
    | cons c rest =>
      rw [hk] at hsame hd
      have hge : off ≤ c.1 := by
        have := List.head_dropWhile_not (p := fun kv : Host.Cell => decide (kv.1 < off)) (l := m) (by simp [hk])
        simp [hk] at this
        omega
      obtain ⟨hc, hr⟩ := List.pairwise_cons.1 hd
      have hcases : (if c.1 = off then c.2 :: sexpand rest (fun _ => (0 : Byte)) (off + 1) n else (0 : Byte) :: sexpand (c :: rest) (fun _ => 0) (off + 1) n) =
          cellAt m off :: (List.range n).map fun i => cellAt m (off + 1 + i) := by
        split
        · rename_i h
          rw [ih hr (off + 1), hsame off le_rfl, cellAt_cons, if_pos h]
          congr 1
          refine List.map_congr_left fun i _ => ?_
          rw [hsame (off + 1 + i) (by omega), cellAt_cons, if_neg (by omega)]
        · rename_i h
          rw [ih hd (off + 1), hsame off le_rfl, cellAt_none]
          · congr 1
            refine List.map_congr_left fun i _ => ?_
            rw [hsame (off + 1 + i) (by omega)]
          · intro x hx
            rcases List.mem_cons.1 hx with rfl | hx
            · exact h
            · have := hc x hx; omega
      obtain ⟨k, v⟩ := c
      simp only at hcases ⊢
      rw [hcases, List.range_succ_eq_map, List.map_cons, List.map_map]
      simp only [Nat.add_zero, List.cons.injEq, true_and]
      refine List.map_congr_left fun i _ => ?_
      simp only [Function.comp, Nat.succ_eq_add_one]
      congr 1
      omega

/-- The cells that a run of bytes lists. -/
def runCells (off : Nat) (data : Bytes) : List Host.Cell :=
  (data.zipIdx off).filterMap fun vi => if vi.1 = 0 then none else some (vi.2, vi.1)

theorem runCells_cons (off : Nat) (b : Byte) (data : Bytes) :
    runCells off (b :: data) = (if b = 0 then [] else [(off, b)]) ++ runCells (off + 1) data := by
  unfold runCells
  rw [List.zipIdx_cons]
  by_cases h : b = 0
  · rw [List.filterMap_cons_none (by simp [h]), if_pos h, List.nil_append]
  · rw [List.filterMap_cons_some (b := (off, b)) (by simpa using h), if_neg h, List.singleton_append]

theorem runCells_range {off : Nat} {data : Bytes} {c : Host.Cell} (h : c ∈ runCells off data) : off ≤ c.1 ∧ c.1 < off + data.length ∧ c.2 ≠ 0 := by
  induction data generalizing off with
  | nil => simp [runCells] at h
  | cons b data ih =>
    rw [runCells_cons] at h
    rcases List.mem_append.1 h with h | h
    · split at h
      · simp at h
      · simp only [List.mem_singleton] at h
        subst h
        simpa using ‹b ≠ 0›
    · obtain ⟨h1, h2, h3⟩ := ih h
      simp only [List.length_cons]
      exact ⟨by omega, by omega, h3⟩

theorem runCells_rise (off : Nat) (data : Bytes) : (runCells off data).Pairwise (fun a b => a.1 < b.1) := by
  induction data generalizing off with
  | nil => simp [runCells]
  | cons b data ih =>
    rw [runCells_cons]
    refine List.pairwise_append.2 ⟨by split <;> simp, ih _, ?_⟩
    intro a ha c hc
    split at ha
    · simp at ha
    · simp only [List.mem_singleton] at ha
      subst ha
      have := (runCells_range hc).1
      simp only
      omega

theorem cellAt_runCells (off : Nat) (data : Bytes) (a : Nat) :
    cellAt (runCells off data) a = if off ≤ a then data.getD (a - off) 0 else 0 := by
  induction data generalizing off with
  | nil => simp [runCells, cellAt_nil]
  | cons b data ih =>
    rw [runCells_cons, cellAt_append, ih]
    by_cases hb : b = 0
    · subst hb
      simp only [if_true, List.not_mem_nil, false_and, exists_const, if_false]
      by_cases h : off = a
      · subst h; simp
      · by_cases h' : off ≤ a
        · rw [if_pos (by omega), if_pos h', show a - off = (a - (off + 1)) + 1 by omega]; simp
        · rw [if_neg (by omega), if_neg h']
    · simp only [hb, if_false, List.mem_singleton, exists_eq_left]
      by_cases h : off = a
      · subst h; simp [cellAt_cons]
      · rw [if_neg h]
        by_cases h' : off ≤ a
        · rw [if_pos (by omega), if_pos h', show a - off = (a - (off + 1)) + 1 by omega]; simp
        · rw [if_neg (by omega), if_neg h']

theorem memWrite_eq (m : List Host.Cell) (off : Nat) (data : Bytes) :
    memWrite m off data =
      (m.filter fun c => decide (c.1 < off)) ++ runCells off (data.take (benchSize - off)) ++
        (m.filter fun c => decide (off + (data.take (benchSize - off)).length ≤ c.1)) := rfl

/-- A write keeps the canonical form. -/
theorem memWrite_wf {m : List Host.Cell} (h : Memory.wf m = true) (off : Nat) (data : Bytes) : Memory.wf (memWrite m off data) = true := by
  rw [Memory.wf_iff] at h ⊢
  obtain ⟨hr, hb⟩ := h
  rw [memWrite_eq]
  refine ⟨?_, ?_⟩
  · refine List.pairwise_append.2 ⟨List.pairwise_append.2 ⟨hr.sublist List.filter_sublist, runCells_rise _ _, ?_⟩, hr.sublist List.filter_sublist, ?_⟩
    · intro a ha c hc
      have h1 := (List.mem_filter.1 ha).2
      have h2 := (runCells_range hc).1
      simp at h1
      omega
    · intro a ha c hc
      have h2 := (List.mem_filter.1 hc).2
      simp only [decide_eq_true_eq] at h2
      rcases List.mem_append.1 ha with ha | ha
      · have h1 := (List.mem_filter.1 ha).2
        simp at h1
        omega
      · have h1 := (runCells_range ha).2.1
        omega
  · intro c hc
    rcases List.mem_append.1 hc with hc | hc
    · rcases List.mem_append.1 hc with hc | hc
      · exact hb c (List.mem_filter.1 hc).1
      · obtain ⟨h1, h2, h3⟩ := runCells_range hc
        refine ⟨?_, h3⟩
        simp only [List.length_take] at h2
        omega
    · exact hb c (List.mem_filter.1 hc).1

/-- A read after a write: the bytes written where the write lies, every other byte as before. -/
theorem cellAt_memWrite (m : List Host.Cell) (off : Nat) (data : Bytes) (a : Nat) :
    cellAt (memWrite m off data) a =
      if off ≤ a ∧ a < off + (data.take (benchSize - off)).length then (data.take (benchSize - off)).getD (a - off) 0 else cellAt m a := by
  rw [memWrite_eq, List.append_assoc, cellAt_append, cellAt_append, cellAt_runCells,
    cellAt_filter (fun x => decide (x < off)), cellAt_filter (fun x => decide (off + (data.take (benchSize - off)).length ≤ x))]
  by_cases h1 : a < off
  · rw [if_neg (c := off ≤ a ∧ _) (by omega)]
    split
    · simp [h1]
    · rename_i h
      have : cellAt m a = 0 := cellAt_none fun c hc hca => h ⟨c, List.mem_filter.2 ⟨hc, by simp [hca, h1]⟩, hca⟩
      split
      · simp [show ¬ off ≤ a by omega, this]
      · split
        · rfl
        · exact this.symm
  · rw [if_neg (c := ∃ c ∈ m.filter _, _)]
    · by_cases h2 : a < off + (data.take (benchSize - off)).length
      · rw [if_pos (c := off ≤ a ∧ _) ⟨by omega, h2⟩]
        split
        · rw [if_pos (by omega)]
        · rename_i h
          rw [if_neg (by simp only [decide_eq_true_eq]; omega)]
          have : cellAt (runCells off (data.take (benchSize - off))) a = 0 := cellAt_none fun c hc hca => h ⟨c, hc, hca⟩
          rw [cellAt_runCells, if_pos (by omega)] at this
          exact this.symm
      · rw [if_neg (c := off ≤ a ∧ _) (by omega), if_neg, if_pos (by simp only [decide_eq_true_eq]; omega)]
        rintro ⟨c, hc, rfl⟩
        exact h2 (runCells_range hc).2.1
    · rintro ⟨c, hc, rfl⟩
      have := (List.mem_filter.1 hc).2
      simp at this
      exact h1 this

theorem emptyRanges_wf {m : List Host.Cell} (h : Memory.wf m = true) (rs : List (Nat × Nat)) : Memory.wf (emptyRanges m rs) = true := by
  unfold emptyRanges
  induction rs generalizing m with
  | nil => exact h
  | cons r rs ih =>
    refine ih ?_
    rw [Memory.wf_iff] at h ⊢
    exact ⟨h.1.sublist List.filter_sublist, fun c hc => h.2 c (List.mem_filter.1 hc).1⟩

theorem applyWrites_wf {m : List Host.Cell} (h : Memory.wf m = true) (ws : List (Nat × Bytes)) : Memory.wf (applyWrites m ws) = true := by
  unfold applyWrites
  induction ws generalizing m with
  | nil => exact h
  | cons w ws ih => exact ih (memWrite_wf h _ _)

/-- Every memory operation of a command keeps the canonical form. -/
theorem memNow_wf {b : Bench} (h : Memory.wf b.mem = true) : Memory.wf (memNow b) = true := applyWrites_wf (emptyRanges_wf h _) _

end Sys2Proof.Machine
end

