-- ==== Sys2Proof/Tests/Slice0.lean ====
section
/-! SUPPORT. Checks of the model's own: well-formed commands, worked examples of the spec, and states that meet the hypotheses of the
statements. -/

namespace Sys2Proof.Tests

set_option Elab.async false

open Sys2Proof Sys2Proof.Machine

/-- The device with its fabric running and both stacks of the Bench ready, and ring 0 enabled with 256 slots each way. -/
def upState : State :=
  let r := State.reset
  { r with
    hf := { r.hf with fabric := .running }
    host := { r.host with rings := vset r.host.rings 0 { cmdBase := 65536, cmdSize := 256, rplBase := 131072, rplSize := 256, enabled := true } }
    bench := { r.bench with ctl := .replicate 2 { (vget r.bench.ctl 0) with state := .ready } } }

theorem inv_of {s : State} (h : Memory.wf s.bench.mem = true ∧ s.bench.writes = [] ∧ s.bench.emptied = []) : s.Inv := ⟨h.1, h.2.1, h.2.2⟩

theorem ready_of {sp : CmdSpec} {c : HostCmd} {s : State}
    (h : (Memory.wf s.bench.mem = true ∧ s.bench.writes = [] ∧ s.bench.emptied = []) ∧
      s.hf.fabric = .running ∧ nextSlot s < ledgerSlots ∧ sget s.ledger.gens (nextSlot s) 0 < 2 ^ 14 ∧ c.ring < 4 ∧
      (vget s.host.rings c.ring).enabled = true ∧ (vget s.host.rings c.ring).posts = [] ∧ 16 ≤ freeSlots s c.ring ∧
      (c.module = 0xFF ∨ isOwnId s c.module = true) ∧ lengthsAgree c = true ∧ (sp.need c).2 = true ∧ sp.unitOk s c = true ∧
      passiveRefuses s sp.opcode c = false ∧ (∀ u ∈ sp.units c, fenceOf s u.1 u.2 = none) ∧
      (∀ k ∈ [0, 1], (vget s.bench.ctl k).state = .ready) ∧ c.stepFails = 0) : Ready sp c s := by
  obtain ⟨h0, h1, h2, h3, h4, h5, h6, h7, h8, h9, h10, h11, h12, h13, h14, h15⟩ := h
  exact ⟨inv_of h0, h1, h2, h3, h4, h5, h6, h7, h8, h9, h10, h11, h12, h13, h14, h15⟩

/-- What a setting needs to be staged, beside its own checks (R16, R105). -/
abbrev stageFree (sp : CmdSpec) (edit : HostCmd → Cfg → Cfg) (c : HostCmd) (s : State) : Prop :=
  s.glue = none ∧ s.ring.prepared = none ∧
    conflictOf (claimsOf (edit c s.staged) s.marq.shadow.region) (runningClaims s) s.claims sp.opcode c.unit = none

theorem upState_inv : upState.Inv := ⟨rfl, rfl, rfl⟩

/-! ### Worked examples of the spec -/

/-- Table 6-2: pixel 6,000 of CAM5.A. -/
def refLin (i : Nat) : Nat := if i = 207 then 212100 else if i = 208 then 213130 else linDefault i

theorem test_correction : correctPixel 2052 20480 16220 3973 (some refLin) (expandCode 10 700) = (212771, false) := by decide +kernel

/-- The same pixel at code 1,023: stages z1 to z3. -/
theorem test_correction_stages : let z1 := (gainStage (expandCode 10 1023 - 2052) 20480 0x2000 14).1
    let z2 := (gainStage z1 16220 0x2000 14).1
    (z1, z2, (gainStage z2 3973 0x800 12).1) = (324795, 321544, 311888) := by decide +kernel

/-- The worked calibration of CAM5.A: gains of passes A and B. -/
theorem test_jig_gains : (jigGain 200000 10240000, jigGain 200000 10246400) = (20480, 20467) := by decide +kernel

/-- Table 7-3: column 70,000 of line 1,000,100. -/
theorem test_resample_left : resample 0 #[200120, 200340, 200600, 200480] 1 15 = 200406 := by decide +kernel
theorem test_resample_right : resample 0 #[199800, 199900, 200000, 200200] 1 48 = 199968 := by decide +kernel
theorem test_stitched : blend 200406 (applyGain 199968 (chainGain 16384 16400)) (featherWeight 69760 70239 70000) = 200285 := by decide +kernel
theorem test_seam_track : (seamStep true 200400 200160 16400).map (fun d => shimStep d.1 d.2 16400 64) = some (16420, false) := by decide +kernel

/-- Delays of the reference line (R348): 78,643,200 / 52,429 rounds up to 1,500. -/
theorem test_line_delay : (lineDelay 78643200 0 52429, lineDelay 78643200 78643200 52429) = (1500, 0) := by decide +kernel

/-- The strip ring and the line ring of the reference line. -/
def refStrip : StripLayout := { columns := 140000, lines := 16384 }
theorem test_strip_ring : (rowBytes refStrip, stripBytes refStrip) = (315008, 5161615360) := by decide +kernel
theorem test_strip_row : (stripPos refStrip 1000100, stripSampleOff refStrip 1000100 0, stripTagOff refStrip 1000100 0) = (676, 212945408, 5161112704) := by
  decide +kernel

/-- The Bench offset of that row lies in PCH44 at offset 6,654,464. -/
theorem test_pseudo_channel : (stackOf 0x60CB14A00, pchOf 0x60CB14A00, pchOffset 0x60CB14A00) = (1, 44, 6654464) := by decide +kernel

/-- Line positions of the reference line. -/
def refSeq : LineSeq := { pitch := 52429, k := 5, adj := -1 }
theorem test_line_positions : (linePos refSeq 0 0 1000100, linePos refSeq 0 0 1000101, linePos refSeq 0 0 1000105) =
    (52434042880, 52434095309, 52434305024) := by decide +kernel

/-- Table 8-10: the features of the scratch, with columns counted from 70,210. -/
def scratch : Feat :=
  { area := 42, minCol := 70210, maxCol := 70218, firstLine := 1000100, lastLine := 1000114, sc := 168 + 42 * 70210, scc := 970 + 2 * 70210 * 168 + 42 * 70210 ^ 2
    sl := 294, sll := 2898, scl := 1626 + 70210 * 294, isum := 7442000, votes := [42, 5], maskOr := 3 }
theorem test_scratch_centre : (centCol scratch, centLine scratch, imeanOf scratch) = (4493696, 448, 177190) := by decide +kernel
theorem test_scratch_moments : (momentXX scratch, momentYY scratch, momentXY scratch) = (464994, 1310720, 702171) := by decide +kernel
theorem test_rule_features : (ruleFeature { feat := scratch } 1, ruleFeature { feat := scratch } 2, ruleFeature { feat := scratch } 7,
    ruleFeature { feat := scratch } 8, ruleFeature { feat := scratch } 9) = (9, 15, 311111, 1666, 1000000) := by decide +kernel

/-- Table 8-9, steps 3 and 5: runs connect diagonally and across one empty line; with Gl = 0 they do not. -/
theorem test_runs_connect : (runsConnect 3 2 1000105 70213 70215 1000104 70210 70212, runsConnect 3 2 1000108 70213 70215 1000106 70213 70215,
    runsConnect 3 0 1000108 70213 70215 1000106 70213 70215) = (true, true, false) := by decide +kernel

/-- The mark of the scratch: its target and its move. -/
theorem test_mark_target : markTarget { colOrigin := 26, colScale := 3355443 } 4493696 = 3594983 := by decide +kernel
theorem test_mark_move : (moveTime 2560000 25600000 25600000 0 74983, moveTime 2560000 25600000 25600000 0 256000) = (108241, 200000) := by decide +kernel
theorem test_mark_infeasible : needExceeds 230000 (20 * 65536) 240000 = true ∧ needExceeds 118241 (40704 * 65536) 240000 = false := by decide +kernel

/-- The patch of record 52,319. -/
theorem test_patch : (patchRowBytes 41 * 47, patchLines 41 1 47, 32 + 2632 + 192) = (4512, 47, 2856) := by decide +kernel

/-- A row of the archive, and the output of the look-back of the scratch. -/
theorem test_archive_row : patchRowBytes 5000 = 11252 := by decide +kernel
theorem test_lookback_bytes : lookbackBytes 41 47 = 6080 := by decide +kernel

/-- The sine table at position 100, and the two phase currents at 2,000 mA. -/
theorem test_phases : (sineRef 100, sineRef 356, phaseTargets false 100 2000) = (143, 203, (1153, 1637)) := by decide +kernel

/-- The axis example: stopping distance from full speed. -/
theorem test_stop_distance : stopDistance 25600000 (2560000 * 2 ^ 16) = 128000 := by decide +kernel

/-- The time example: SHORT, and the full time of STIME 0xFFF0_BDC0. -/
theorem test_short_time : shortTime { upState with time := { upState.time with clock := { seconds := 4, ns := 295044160 } } } = 76864 := by decide +kernel
theorem test_full_time : (4295044160 : Int) + sdiff32 0xFFF0BDC0 76864 = 4293967296 := by decide +kernel

/-- CRC-32C of the digits 1 to 9 (the check value of its definition). -/
theorem test_crc : crc32c [0x31, 0x32, 0x33, 0x34, 0x35, 0x36, 0x37, 0x38, 0x39] = 0xE3069283 := by decide +kernel

/-- The line ring of CAM5.A. -/
theorem test_line_ring : ringBytes { widthA := 12288, fields := 1, depth := 2048, statsDepth := 64 } = 59277312 := by decide +kernel

/-- The reference line's pixel rate, pace and latency speed (Table 2-10's example). -/
def refCfg : Cfg :=
  { (default : Cfg) with
    link := .ofFn fun i => if i.val % 2 = 0 then { enable := true, width := 12288 } else { enable := false }
    trig := .ofFn fun i => { enable := decide (i.val % 2 = 0) }
    seq := some refSeq
    range := some { maxSpeed := 12000000, minSpeed := 2000000, countNm := 50000 }
    shift := 8 }
theorem test_pace : (requiredPace refCfg * 10 + 1 / 2).floor = 6912 ∧ targetPace refCfg = 775 ∧ (pixelRate refCfg / 1000000 + 1 / 2).floor = 44237 ∧
    latencySpeed refCfg = 6400000 := by decide +kernel

/-- The ledger: the lowest free slot, and its ticket (R39). -/
theorem test_ticket : (issueTicket { upState with ledger := { upState.ledger with issued := [0, 1, 3], ended := [2], gens := [(4, 7)] } }).map Prod.fst = some (4 + 7 * 2 ^ 18) := by
  decide +kernel

/-- The queue of commands is first in, first out: two commands of which the first runs. -/
theorem test_queue : (match step { upState with pending := [.encoderCount 5 2 true false, .indexEdge 6 2] } with
    | .next r => decide (r.pending = [.indexEdge 6 2]) && decide (r.now = 5)
    | _ => false) = true := by decide +kernel

/-! ### Well-formed commands: each check refuses the first value beyond its bound, and admits the last one below it -/

theorem test_wf_refuses_1 : ∀ i ∈ ([.glueupPrepareReply 5 64 0 0,
    .glueupPrepareReply 5 0 65536 0,
    .glueupPrepareReply 5 0 0 (2 ^ 32),
    .cmdSizeWrite 5 4 0,
    .cmdSizeWrite 5 0 (2 ^ 32),
    .cmdDoorbell 5 4 0,
    .cmdDoorbell 5 0 (2 ^ 32),
    .rplConsWrite 5 4 0,
    .rplConsWrite 5 0 (2 ^ 32),
    .commandTicketTimeout 5 4 default,
    .forwardTimeout 5 (2 ^ 32),
    .ringCommandReceived 5 64 default,
    .ringCommandReply 5 64 0 0 true [],
    .ringCommandReply 5 0 (2 ^ 32) 0 true [],
    .ringCommandReply 5 0 0 65536 true [],
    .compareInsertComplete 5 16,
    .encoderCount 5 6 true true,
    .indexEdge 5 6,
    .stillTimeout 5 6,
    .triggerRequest 5 24,
    .triggerFire 5 24,
    .minPeriodRelease 5 24,
    .compareFire 5 16,
    .trgPulseEnd 5 8,
    .prbsTestEnd 5 96 0 0 0 0 true,
    .eyeScanDone 5 96 [] [] [] (0 : Fails),
    .linkLock 5 48,
    .lockLost 5 48,
    .codeErrorLimit 5 48 0,
    .discoverTimeout 5 24,
    .bringupStepTimeout 5 24,
    .controlAnswer 5 24 .done,
    .controlTimeout 5 24,
    .adaptSweepDone 5 24 [],
    .testConnDone 5 24 true,
    .retryDelayExpired 5 24,
    .heartbeatTimeout 5 24,
    .streamPacket 5 24 default,
    .cameraEventPacket 5 24 0 0 0 [],
    .cameraEventPacket 5 0 65536 0 0 []] : List Instr), i.wf = false := by decide +kernel

theorem test_wf_refuses_2 : ∀ i ∈ ([.triggerAck 5 24,
    .pocxpDetectDone 5 24 true,
    .pocxpTrip 5 24 0,
    .pocxpRetry 5 24,
    .laneQualityUpdate 5 96 0 0,
    .relayLock 5 2 0,
    .tagTimeout 5 24,
    .unmatchedLineWait 5 24,
    .ingestLineWrite 5 24,
    .ingestWriteComplete 5 24,
    .planeLine 5 24,
    .jigAcquireLine 5 24,
    .jigComplete 5 24,
    .jigStageResult 5 24,
    .jigTimeout 5 24,
    .scribePlaceStrip 5 16,
    .queueWindowRead 5 16 0 0,
    .queueWindowRead 5 0 0 4097,
    .queueHeadRefill 5 16,
    .queueIdleTimeout 5 16,
    .patchCut 5 16,
    .markSettleExpired 5 4,
    .markDwellExpired 5 4,
    .profileLine 5 24,
    .backgroundRowStore 5 4,
    .veneerLine 5 8,
    .viewFrameForm 5 8,
    .viewFrameSent 5 8,
    .ethLinkDown 5 2,
    .decompressDone 5 4 (0 : Fails),
    .compressBlockDone 5 16 (0 : Fails),
    .lookbackDone 5 (2 ^ 32) (0 : Fails),
    .benchIssue 5 64 [],
    .benchUrgencyRise 5 16,
    .ingestDeadline 5 24,
    .benchRefreshDue 5 64,
    .stackTempChange 5 2 0,
    .bar4Read 5 0 4097,
    .bar4Write 5 0 4097,
    .rcRegisterRead 5 1 0 4] : List Instr), i.wf = false := by decide +kernel

theorem test_wf_refuses_3 : ∀ i ∈ ([.rcRegisterRead 5 0 0 4097,
    .registerWrite 5 1 0 4 0,
    .registerWrite 5 0 0 4097 0,
    .registerWrite 5 0 0 4 (2 ^ 64),
    .pendingClear 5 32 0,
    .pendingClear 5 0 (2 ^ 32),
    .maskWrite 5 0 (2 ^ 32),
    .vecAck 5 64,
    .dmaCfgWrite 5 64 true 0,
    .dmaCfgWrite 5 0 true (2 ^ 32),
    .dmaShadowWrite 5 64 default 0,
    .dmaShadowWrite 5 0 default (2 ^ 64),
    .dmaDoorbell 5 64,
    .dmaArm 5 64,
    .dmaAbort 5 64,
    .dmaReset 5 64,
    .dmaTimerTick 5 16,
    .dmaDescFetched 5 64 [] (0 : Fails),
    .dmaTicketTimeout 5 64,
    .dmaBurstReadDone 5 64 [] (0 : Fails),
    .dmaDescriptorComplete 5 64,
    .dmaFlushDone 5 64 (0 : Fails),
    .hfKey 5 default (2 ^ 32),
    .axisProfileUpdate 5 4,
    .profileWatchdog 5 4,
    .axisInputChange 5 4 0 true,
    .axisInputChange 5 0 3 true,
    .limitChatter 5 4 0,
    .limitChatter 5 0 3,
    .axisOvercurrent 5 4,
    .stageTemperature 5 4 0,
    .standstillDelayExpired 5 4,
    .irunRestoreWait 5 4,
    .strokeHoldExpired 5 4,
    .homingTimeout 5 4,
    .ptpMessage 5 2 default,
    .ptpIntervalTimer 5 2 default,
    .arpRequest 5 2 0,
    .arpRequest 5 0 (2 ^ 32),
    .ethOtherFrame 5 2] : List Instr), i.wf = false := by decide +kernel

theorem test_wf_refuses_4 : ∀ i ∈ ([.ringTimeMessage 5 2 0 [],
    .linkDelayEcho 5 2 0,
    .ringPortDownExpired 5 3,
    .ringHello 5 3,
    .ringCapability 5 3 default,
    .ringLanesLocked 5 3,
    .ringLanesAligned 5 3,
    .ringTerminationDetected 5 3,
    .ringTrainingPattern 5 3,
    .ringBringupTimeout 5 3,
    .ringKeepaliveTimer 5 3,
    .ringLinkLost 5 3,
    .ringFenceExpired 5 3,
    .ringPacketRx 5 3 default true,
    .ringAckRx 5 3 0,
    .ringAckRx 5 0 (2 ^ 32),
    .ringAckTimeout 5 3 0,
    .ringAckTimeout 5 0 (2 ^ 32),
    .relayResultRx 5 64 0 [] default,
    .relayResultRx 5 0 16 [] default,
    .relayAckRx 5 16 0,
    .relayAckRx 5 0 (2 ^ 32),
    .relayStallTimeout 5 16,
    .jmHeartbeatRx 5 0 (2 ^ 32),
    .mirrorLedgerRx 5 16 0 0 0,
    .mirrorLedgerRx 5 0 (2 ^ 32) 0 0,
    .mirrorLedgerRx 5 0 0 (2 ^ 32) 0,
    .mirrorLedgerRx 5 0 0 0 (2 ^ 32),
    .mirrorMarksRx 5 4 default,
    .mirrorDigestRx 5 (2 ^ 32) 0,
    .mirrorDigestRx 5 0 (2 ^ 32),
    .fabricWedge 5 256,
    .smbusWriteRegister 5 65536 0 true,
    .smbusWriteRegister 5 0 (2 ^ 32) true,
    .smbusSetOffset 5 65536 true,
    .vauxInRange 5 128 0,
    .cageModuleInserted 5 5 0 0,
    .cageModuleInserted 5 0 256 0,
    .cageModuleInserted 5 0 0 256,
    .thInputLockLoss 5 2 0] : List Instr), i.wf = false := by decide +kernel

theorem test_wf_refuses_5 : ∀ i ∈ ([.thInputLockLoss 5 0 24,
    .relayCharacterRx 5 2 [],
    .cameraHeartbeat 5 24,
    .ethLinkUp 5 2,
    .safeStopRest 5 4,
    .announceReceiptTimeout 5 2,
    .nop 5 { ring := 4 },
    .nop 5 { tag := 2 ^ 32 },
    .nop 5 { module := 256 },
    .nop 5 { unit := 256 },
    .nop 5 { paramLen := 65536 },
    .nop 5 { slots := 256 },
    .nop 5 { bulkFails := 3 },
    .nop 5 { stepFails := 3 },
    .nop 5 { params := zeros 4081 },
    .commandTake 5 [{ bytes := zeros 4097 }],
    .commandTake 5 [{ readFails := 3 }],
    .commandTake 5 [{ bulkFails := 3 }],
    .commandTake 5 [{ stepFails := 3 }],
    .benchRequest 5 { port := 16 },
    .benchRequest 5 { offset := benchSize },
    .benchRequest 5 { slot := 24 },
    .benchRequest 5 { line := 2 ^ 32 },
    .streamPacket 5 0 { link := 48 },
    .streamPacket 5 0 { tag := 256 },
    .streamPacket 5 0 { streamId := 256 },
    .ringPacketRx 5 0 { cls := 256 } default,
    .ringPacketRx 5 0 { type := 256 } default,
    .ringPacketRx 5 0 { src := 256 } default,
    .ringPacketRx 5 0 { dst := 256 } default,
    .ringPacketRx 5 0 { hops := 256 } default,
    .ringPacketRx 5 0 { payload := zeros 4097 } default,
    .benchTrainingDone 5 { crcFails := 3 } default,
    .benchTrainingDone 5 default { failedOnce := [32] },
    .benchTrainingDone 5 default { failedTwice := [32] },
    .selftestDone 5 [{ bit := 32 }],
    .selftestDone 5 [{ fails := 3 }],
    .msixUnmask 5 (.vector 64),
    .mirrorJournalRx 5 (.command 65536 {} 0),
    .mirrorJournalRx 5 (.command 0 {} (2 ^ 32))] : List Instr), i.wf = false := by decide +kernel

theorem test_wf_refuses_6 : ∀ i ∈ ([.mirrorJournalRx 5 (.dmaCfg 64 true 0),
    .mirrorJournalRx 5 (.dmaCfg 0 true (2 ^ 32)),
    .mirrorJournalRx 5 (.glueUp (2 ^ 32)),
    .mirrorJournalRx 5 (.jig 24 {}),
    .mirrorJournalRx 5 (.snapshot {} {} [] [] (2 ^ 32) 0 0 true),
    .mirrorJournalRx 5 (.snapshot {} {} [] [] 0 (2 ^ 32) 0 true),
    .mirrorJournalRx 5 (.command 0 { ring := 4 } 0),
    .mirrorTagRx 5 { line := 2 ^ 32 },
    .mirrorTagRx 5 { stime := 2 ^ 32 },
    .mirrorTagRx 5 { slot := 24 },
    .mirrorTagRx 5 { field := 4 },
    .dryfitDone 5 3,
    .eyeScanDone 5 0 [] [] [] 3,
    .decompressDone 5 0 3,
    .compressBlockDone 5 0 3,
    .lookbackDone 5 0 3,
    .dmaDescFetched 5 0 [] 3,
    .dmaBurstReadDone 5 0 [] 3,
    .dmaBurstWrite 5 3,
    .dmaFlushDone 5 0 3] : List Instr), i.wf = false := by decide +kernel

theorem test_wf_accepts_1 : ∀ i ∈ ([.glueupPrepareReply 5 63 0 0,
    .glueupPrepareReply 5 0 65535 0,
    .glueupPrepareReply 5 0 0 (2 ^ 32 - 1),
    .cmdSizeWrite 5 3 0,
    .cmdSizeWrite 5 0 (2 ^ 32 - 1),
    .cmdDoorbell 5 3 0,
    .cmdDoorbell 5 0 (2 ^ 32 - 1),
    .rplConsWrite 5 3 0,
    .rplConsWrite 5 0 (2 ^ 32 - 1),
    .commandTicketTimeout 5 3 default,
    .forwardTimeout 5 (2 ^ 32 - 1),
    .ringCommandReceived 5 63 default,
    .ringCommandReply 5 63 0 0 true [],
    .ringCommandReply 5 0 (2 ^ 32 - 1) 0 true [],
    .ringCommandReply 5 0 0 65535 true [],
    .compareInsertComplete 5 15,
    .encoderCount 5 5 true true,
    .indexEdge 5 5,
    .stillTimeout 5 5,
    .triggerRequest 5 23,
    .triggerFire 5 23,
    .minPeriodRelease 5 23,
    .compareFire 5 15,
    .trgPulseEnd 5 7,
    .prbsTestEnd 5 95 0 0 0 0 true,
    .eyeScanDone 5 95 [] [] [] (0 : Fails),
    .linkLock 5 47,
    .lockLost 5 47,
    .codeErrorLimit 5 47 0,
    .discoverTimeout 5 23,
    .bringupStepTimeout 5 23,
    .controlAnswer 5 23 .done,
    .controlTimeout 5 23,
    .adaptSweepDone 5 23 [],
    .testConnDone 5 23 true,
    .retryDelayExpired 5 23,
    .heartbeatTimeout 5 23,
    .streamPacket 5 23 default,
    .cameraEventPacket 5 23 0 0 0 [],
    .cameraEventPacket 5 0 65535 0 0 []] : List Instr), i.wf = true := by decide +kernel

theorem test_wf_accepts_2 : ∀ i ∈ ([.triggerAck 5 23,
    .pocxpDetectDone 5 23 true,
    .pocxpTrip 5 23 0,
    .pocxpRetry 5 23,
    .laneQualityUpdate 5 95 0 0,
    .relayLock 5 1 0,
    .tagTimeout 5 23,
    .unmatchedLineWait 5 23,
    .ingestLineWrite 5 23,
    .ingestWriteComplete 5 23,
    .planeLine 5 23,
    .jigAcquireLine 5 23,
    .jigComplete 5 23,
    .jigStageResult 5 23,
    .jigTimeout 5 23,
    .scribePlaceStrip 5 15,
    .queueWindowRead 5 15 0 0,
    .queueWindowRead 5 0 0 4096,
    .queueHeadRefill 5 15,
    .queueIdleTimeout 5 15,
    .patchCut 5 15,
    .markSettleExpired 5 3,
    .markDwellExpired 5 3,
    .profileLine 5 23,
    .backgroundRowStore 5 3,
    .veneerLine 5 7,
    .viewFrameForm 5 7,
    .viewFrameSent 5 7,
    .ethLinkDown 5 1,
    .decompressDone 5 3 (0 : Fails),
    .compressBlockDone 5 15 (0 : Fails),
    .lookbackDone 5 (2 ^ 32 - 1) (0 : Fails),
    .benchIssue 5 63 [],
    .benchUrgencyRise 5 15,
    .ingestDeadline 5 23,
    .benchRefreshDue 5 63,
    .stackTempChange 5 1 0,
    .bar4Read 5 0 4096,
    .bar4Write 5 0 4096,
    .rcRegisterRead 5 2 0 4] : List Instr), i.wf = true := by decide +kernel

theorem test_wf_accepts_3 : ∀ i ∈ ([.rcRegisterRead 5 0 0 4096,
    .registerWrite 5 2 0 4 0,
    .registerWrite 5 0 0 4096 0,
    .registerWrite 5 0 0 4 (2 ^ 64 - 1),
    .pendingClear 5 31 0,
    .pendingClear 5 0 (2 ^ 32 - 1),
    .maskWrite 5 0 (2 ^ 32 - 1),
    .vecAck 5 63,
    .dmaCfgWrite 5 63 true 0,
    .dmaCfgWrite 5 0 true (2 ^ 32 - 1),
    .dmaShadowWrite 5 63 default 0,
    .dmaShadowWrite 5 0 default (2 ^ 64 - 1),
    .dmaDoorbell 5 63,
    .dmaArm 5 63,
    .dmaAbort 5 63,
    .dmaReset 5 63,
    .dmaTimerTick 5 15,
    .dmaDescFetched 5 63 [] (0 : Fails),
    .dmaTicketTimeout 5 63,
    .dmaBurstReadDone 5 63 [] (0 : Fails),
    .dmaDescriptorComplete 5 63,
    .dmaFlushDone 5 63 (0 : Fails),
    .hfKey 5 default (2 ^ 32 - 1),
    .axisProfileUpdate 5 3,
    .profileWatchdog 5 3,
    .axisInputChange 5 3 0 true,
    .axisInputChange 5 0 2 true,
    .limitChatter 5 3 0,
    .limitChatter 5 0 2,
    .axisOvercurrent 5 3,
    .stageTemperature 5 3 0,
    .standstillDelayExpired 5 3,
    .irunRestoreWait 5 3,
    .strokeHoldExpired 5 3,
    .homingTimeout 5 3,
    .ptpMessage 5 1 default,
    .ptpIntervalTimer 5 1 default,
    .arpRequest 5 1 0,
    .arpRequest 5 0 (2 ^ 32 - 1),
    .ethOtherFrame 5 1] : List Instr), i.wf = true := by decide +kernel

theorem test_wf_accepts_4 : ∀ i ∈ ([.ringTimeMessage 5 1 0 [],
    .linkDelayEcho 5 1 0,
    .ringPortDownExpired 5 2,
    .ringHello 5 2,
    .ringCapability 5 2 default,
    .ringLanesLocked 5 2,
    .ringLanesAligned 5 2,
    .ringTerminationDetected 5 2,
    .ringTrainingPattern 5 2,
    .ringBringupTimeout 5 2,
    .ringKeepaliveTimer 5 2,
    .ringLinkLost 5 2,
    .ringFenceExpired 5 2,
    .ringPacketRx 5 2 default true,
    .ringAckRx 5 2 0,
    .ringAckRx 5 0 (2 ^ 32 - 1),
    .ringAckTimeout 5 2 0,
    .ringAckTimeout 5 0 (2 ^ 32 - 1),
    .relayResultRx 5 63 0 [] default,
    .relayResultRx 5 0 15 [] default,
    .relayAckRx 5 15 0,
    .relayAckRx 5 0 (2 ^ 32 - 1),
    .relayStallTimeout 5 15,
    .jmHeartbeatRx 5 0 (2 ^ 32 - 1),
    .mirrorLedgerRx 5 15 0 0 0,
    .mirrorLedgerRx 5 0 (2 ^ 32 - 1) 0 0,
    .mirrorLedgerRx 5 0 0 (2 ^ 32 - 1) 0,
    .mirrorLedgerRx 5 0 0 0 (2 ^ 32 - 1),
    .mirrorMarksRx 5 3 default,
    .mirrorDigestRx 5 (2 ^ 32 - 1) 0,
    .mirrorDigestRx 5 0 (2 ^ 32 - 1),
    .fabricWedge 5 255,
    .smbusWriteRegister 5 65535 0 true,
    .smbusWriteRegister 5 0 (2 ^ 32 - 1) true,
    .smbusSetOffset 5 65535 true,
    .vauxInRange 5 127 0,
    .cageModuleInserted 5 4 0 0,
    .cageModuleInserted 5 0 255 0,
    .cageModuleInserted 5 0 0 255,
    .thInputLockLoss 5 1 0] : List Instr), i.wf = true := by decide +kernel

theorem test_wf_accepts_5 : ∀ i ∈ ([.thInputLockLoss 5 0 23,
    .relayCharacterRx 5 1 [],
    .cameraHeartbeat 5 23,
    .ethLinkUp 5 1,
    .safeStopRest 5 3,
    .announceReceiptTimeout 5 1,
    .nop 5 { ring := 3 },
    .nop 5 { tag := 2 ^ 32 - 1 },
    .nop 5 { module := 255 },
    .nop 5 { unit := 255 },
    .nop 5 { paramLen := 65535 },
    .nop 5 { slots := 255 },
    .nop 5 { bulkFails := 2 },
    .nop 5 { stepFails := 2 },
    .nop 5 { params := zeros 4080 },
    .commandTake 5 [{ bytes := zeros 4096 }],
    .commandTake 5 [{ readFails := 2 }],
    .commandTake 5 [{ bulkFails := 2 }],
    .commandTake 5 [{ stepFails := 2 }],
    .benchRequest 5 { port := 15 },
    .benchRequest 5 { offset := (benchSize - 1) },
    .benchRequest 5 { slot := 23 },
    .benchRequest 5 { line := 2 ^ 32 - 1 },
    .streamPacket 5 0 { link := 47 },
    .streamPacket 5 0 { tag := 255 },
    .streamPacket 5 0 { streamId := 255 },
    .ringPacketRx 5 0 { cls := 255 } default,
    .ringPacketRx 5 0 { type := 255 } default,
    .ringPacketRx 5 0 { src := 255 } default,
    .ringPacketRx 5 0 { dst := 255 } default,
    .ringPacketRx 5 0 { hops := 255 } default,
    .ringPacketRx 5 0 { payload := zeros 4096 } default,
    .benchTrainingDone 5 { crcFails := 2 } default,
    .benchTrainingDone 5 default { failedOnce := [31] },
    .benchTrainingDone 5 default { failedTwice := [31] },
    .selftestDone 5 [{ bit := 31 }],
    .selftestDone 5 [{ fails := 2 }],
    .msixUnmask 5 (.vector 63),
    .mirrorJournalRx 5 (.command 65535 {} 0),
    .mirrorJournalRx 5 (.command 0 {} (2 ^ 32 - 1))] : List Instr), i.wf = true := by decide +kernel

theorem test_wf_accepts_6 : ∀ i ∈ ([.mirrorJournalRx 5 (.dmaCfg 63 true 0),
    .mirrorJournalRx 5 (.dmaCfg 0 true (2 ^ 32 - 1)),
    .mirrorJournalRx 5 (.glueUp (2 ^ 32 - 1)),
    .mirrorJournalRx 5 (.jig 23 {}),
    .mirrorJournalRx 5 (.snapshot {} {} [] [] (2 ^ 32 - 1) 0 0 true),
    .mirrorJournalRx 5 (.snapshot {} {} [] [] 0 (2 ^ 32 - 1) 0 true),
    .mirrorJournalRx 5 (.command 0 { ring := 3 } 0),
    .mirrorTagRx 5 { line := 2 ^ 32 - 1 },
    .mirrorTagRx 5 { stime := 2 ^ 32 - 1 },
    .mirrorTagRx 5 { slot := 23 },
    .mirrorTagRx 5 { field := 3 },
    .dryfitDone 5 2,
    .eyeScanDone 5 0 [] [] [] 2,
    .decompressDone 5 0 2,
    .compressBlockDone 5 0 2,
    .lookbackDone 5 0 2,
    .dmaDescFetched 5 0 [] 2,
    .dmaBurstReadDone 5 0 [] 2,
    .dmaBurstWrite 5 2,
    .dmaFlushDone 5 0 2] : List Instr), i.wf = true := by decide +kernel

/-! ### States that meet the hypotheses of the statements, clause by clause -/

theorem arrives_of {c : HostCmd} {s : State} (h : Memory.wf s.bench.mem = true ∧ s.bench.writes = [] ∧ s.bench.emptied = [])
    (h1 : s.hf.fabric = .running ∧ nextSlot s < ledgerSlots ∧ sget s.ledger.gens (nextSlot s) 0 < 2 ^ 14 ∧ c.ring < 4 ∧
      (vget s.host.rings c.ring).enabled = true ∧ (vget s.host.rings c.ring).posts = [] ∧ 16 ≤ freeSlots s c.ring ∧
      (c.module = 0xFF ∨ isOwnId s c.module = true) ∧ lengthsAgree c = true) : Arrives c s :=
  ⟨inv_of h, h1.1, h1.2.1, h1.2.2.1, h1.2.2.2.1, h1.2.2.2.2.1, h1.2.2.2.2.2.1, h1.2.2.2.2.2.2.1, h1.2.2.2.2.2.2.2.1, h1.2.2.2.2.2.2.2.2⟩

theorem wit_StepRunsTheFrontCommand : ∃ s : State, s.pending = [] := ⟨upState, rfl⟩

theorem wit_StepAnswersAndKeepsTheInvariant : ∃ s : State, s.Inv ∧ s.pending ≠ [] :=
  ⟨{ upState with pending := [.nop 5 {}] }, ⟨rfl, rfl, rfl⟩, by simp⟩

theorem wit_ClockRunsByAddend : ∃ c : Clock, c.slew = 0 ∧ c.seconds < 2 ^ 48 ∧ c.ns < 1000000000 ∧ c.frac < 2 ^ 32 ∧ 8585639625 ≤ c.addend ∧ c.addend ≤ 8594229559 :=
  ⟨{ seconds := 2 ^ 48 - 1, ns := 999999999, frac := 2 ^ 32 - 1, addend := 8594229559, slew := 0 }, by decide +kernel⟩

/-- One ticket in use, in generation 16,383. -/
def ticketState : State := { upState with ledger := { upState.ledger with issued := [5, 9], ended := [7], gens := [(5, 16383)] } }

theorem wit_EachTicketEndsOnce : ∃ (w : Nat) (s : State), LedgerWf s.ledger ∧ ticketLive s.ledger w = true :=
  ⟨5 + 2 ^ 18 * 16383, ticketState, by decide +kernel, by decide +kernel⟩

theorem wit_EachTicketEndsOnce_4 : ∃ (w : Nat) (s r : State), LedgerWf s.ledger ∧ issueTicket s = some (w, r) :=
  ⟨0, ticketState, _, by decide +kernel, rfl⟩

theorem wit_CommandsAreTurnedAway_1 : ∃ (c : HostCmd) (s : State), Arrives c s ∧ (specNop.need c).2 = false :=
  ⟨{ paramLen := 4, params := zeros 4 }, upState, arrives_of (by decide +kernel) (by decide +kernel), by decide +kernel⟩

theorem wit_CommandsAreTurnedAway_2 : ∃ (t : Nat) (c : HostCmd) (s : State), Arrives c s ∧ (specTimeStatus.need c).2 = true ∧ specTimeStatus.unitOk (taken t s) c = false :=
  ⟨5, { unit := 1 }, upState, arrives_of (by decide +kernel) (by decide +kernel), by decide +kernel, by decide +kernel⟩

theorem wit_CommandsAreTurnedAway_3 : ∃ (t : Nat) (c : HostCmd) (s : State), Arrives c s ∧ (specQueueMark.need c).2 = true ∧
    specQueueMark.unitOk (taken t s) c = true ∧ passiveRefuses s specQueueMark.opcode c = true :=
  ⟨5, { unit := 1 }, { upState with pair := { upState.pair with role := .passive } }, arrives_of (by decide +kernel) (by decide +kernel),
   by decide +kernel, by decide +kernel, by decide +kernel⟩

theorem wit_CommandsAreTurnedAway_4 : ∃ (t : Nat) (c : HostCmd) (s : State) (u : Nat × Nat) (f : Fence), Arrives c s ∧ (specQueueMark.need c).2 = true ∧
    specQueueMark.unitOk (taken t s) c = true ∧ passiveRefuses s specQueueMark.opcode c = false ∧ specQueueMark.units c = [u] ∧ fenceOf s u.1 u.2 = some f :=
  ⟨5, { unit := 15 }, { upState with faults := { upState.faults with fences := [⟨7, 15, 41⟩] } }, (7, 15), ⟨7, 15, 41⟩,
   arrives_of (by decide +kernel) (by decide +kernel), by decide +kernel, by decide +kernel, by decide +kernel, by decide +kernel, by decide +kernel⟩

/-- As many commands accepted as R73 allows. -/
def crowdedState : State := { upState with cmds := (List.range 256).map fun i => { ticket := i, opcode := 0x0200, ring := 1, accepted := true } }

theorem wit_CommandsAreTurnedAway_5 : ∃ (t : Nat) (c : HostCmd) (s : State), Arrives c s ∧ (specDryfit.need c).2 = true ∧
    specDryfit.unitOk (taken t s) c = true ∧ passiveRefuses s specDryfit.opcode c = false ∧ (∀ u ∈ specDryfit.units c, fenceOf s u.1 u.2 = none) ∧
    specDryfit.dies (taken t s) c = [] ∧ c.stepFails = 0 ∧ (∀ k : CmdRec, (specDryfit.run k c (taken t s)).status = stAccepted) ∧ ¬ acceptsMore s :=
  ⟨5, { unit := 0xFF, paramLen := 16, params := [0, 16, 0, 0, 0, 0, 0, 0, 64, 0, 0, 0, 0, 0, 0, 0] }, crowdedState,
   arrives_of (by decide +kernel) (by decide +kernel), by decide +kernel, by decide +kernel, by decide +kernel, by decide +kernel, by decide +kernel,
   by decide +kernel, fun _ => rfl, by decide +kernel⟩

/-- The event ring on, with four entries and one unread record. -/
def eventState (prod cons : Nat) (armed : Nat) (funcMask : Bool) : State :=
  { upState with host := { upState.host with
    evt := { upState.host.evt with size := 4, base := 4096, prod, cons, mask := 0, armed, phase := true }
    pcie := { upState.host.pcie with msixEnable := true, funcMask } } }

theorem wit_EventsReachTheHost_2 : ∃ (src : Nat) (s : State), up s ∧ bitOf s.host.evt.mask src = true := ⟨1023, upState, by decide +kernel, by decide +kernel⟩

theorem wit_EventsReachTheHost_3 : ∃ (src : Nat) (s : State), up s ∧ bitOf s.host.evt.mask src = false ∧ s.host.evt.size = 0 :=
  ⟨3, { upState with host := { upState.host with evt := { upState.host.evt with mask := 0 } } }, by decide +kernel, by decide +kernel, by decide +kernel⟩

theorem wit_EventsReachTheHost_4 : ∃ (src : Nat) (s : State), up s ∧ bitOf s.host.evt.mask src = false ∧ 1 < s.host.evt.size ∧
    s.host.evt.prod < s.host.evt.size ∧ evtUnread s.host.evt < s.host.evt.size - 1 :=
  ⟨3, eventState 3 1 0 false, by decide +kernel, by decide +kernel, by decide +kernel, by decide +kernel, by decide +kernel⟩

theorem wit_EventsReachTheHost_5 : ∃ (src : Nat) (s : State), up s ∧ bitOf s.host.evt.mask src = false ∧ 1 < s.host.evt.size ∧
    evtUnread s.host.evt = s.host.evt.size - 1 :=
  ⟨3, eventState 3 0 0 false, by decide +kernel, by decide +kernel, by decide +kernel, by decide +kernel⟩

theorem wit_VectorsAndLatchedEvents_1 : ∃ (src : Nat) (s : State), up s ∧ bitOf s.host.evt.mask src = false ∧
    bitOf s.host.evt.armed (vectorOf s.host.evt src) = true ∧ s.host.pcie.msixEnable = true ∧ s.host.pcie.funcMask = false ∧
    (msixEntry s.host.pcie (vectorOf s.host.evt src)).masked = false :=
  ⟨33, { eventState 0 0 4 false with host := { (eventState 0 0 4 false).host with pcie := { (eventState 0 0 4 false).host.pcie with table := [(2, { masked := false })] } } },
   by decide +kernel, by decide +kernel, by decide +kernel, by decide +kernel, by decide +kernel, by decide +kernel⟩

theorem wit_VectorsAndLatchedEvents_1b : ∃ (src : Nat) (s : State), up s ∧ bitOf s.host.evt.mask src = false ∧
    bitOf s.host.evt.armed (vectorOf s.host.evt src) = true ∧ s.host.pcie.msixEnable = true ∧ s.host.pcie.funcMask = true :=
  ⟨33, eventState 0 0 4 true, by decide +kernel, by decide +kernel, by decide +kernel, by decide +kernel, by decide +kernel⟩

theorem wit_VectorsAndLatchedEvents_2 : ∃ (src : Nat) (s : State), up s ∧ bitOf s.host.evt.armed (vectorOf s.host.evt src) = false :=
  ⟨33, eventState 0 0 0 false, by decide +kernel, by decide +kernel⟩

theorem wit_VectorsAndLatchedEvents_3 : ∃ (src : Nat) (s : State), s.hf.fabric ≠ .running ∧ bitOf s.hf.latched src = false :=
  ⟨1023, State.reset, by decide +kernel, by decide +kernel⟩

theorem wit_VectorsAndLatchedEvents_4 : ∃ (src : Nat) (s : State), s.hf.fabric ≠ .running ∧ bitOf s.hf.latched src = true ∧ ∃ e ∈ s.hf.latchedEvents, e.1 = src :=
  ⟨2, { State.reset with hf := { State.reset.hf with latched := 4, latchedEvents := [(2, 0, 0, 0)] } }, by decide +kernel, by decide +kernel, by decide +kernel⟩

theorem wit_BenchReadsBackWhatWasWritten : ∃ (m : List Host.Cell) (off : Nat) (d : Bytes), Memory.wf m = true ∧ off + d.length ≤ benchSize :=
  ⟨[(benchSize - 1, 7)], benchSize - 2, [0, 9], by decide +kernel, by decide +kernel⟩

/-- Queue 15 full, with its oldest record read by nobody, marked and with a stored patch. -/
def fullQueue : State :=
  setQueue 15 (fun x => { x with
    on := true, cap := 64, base := 4096, wr := 63, rd := 2 ^ 32 - 1, rel := 2 ^ 32 - 1, mkp := 2 ^ 32 - 1, markValid := true, head := 1, patches := [{ seq := 2 ^ 32 - 1, ticket := 1 }]
    live := { seq := 2 ^ 32 - 1, ticket := 0, patchTicket := some 1 } :: (List.range 63).map (fun i => { seq := i, ticket := i + 2 }) })
  { upState with ledger := { upState.ledger with issued := List.range 65 } }

theorem wit_FullQueuesOverwrite : ∃ (q : Nat) (d : Bytes) (s : State) (l : LiveRec) (rest : List LiveRec), q < 16 ∧ up s ∧ LedgerWf s.ledger ∧
    Memory.wf s.bench.mem = true ∧
    (let x := vget s.scribe.queues q
     unreleased x = x.cap ∧ 2 ^ 32 % x.cap = 0 ∧ x.wr < 2 ^ 32 ∧ x.rel < 2 ^ 32 ∧ x.live = l :: rest ∧ l.seq = x.rel ∧
     nextRecord x rest = wrap32 (x.rel + 1) ∧ (x.rd = x.rel ∨ later32 x.rd x.rel = true) ∧ (x.mkp = x.rel ∨ later32 x.mkp x.rel = true) ∧
     ticketLive s.ledger l.ticket = true ∧ (l.patchTicket.all fun k => ticketLive s.ledger k && decide (ticketSlot k ≠ ticketSlot l.ticket)) = true ∧
     (∀ p ∈ x.patches, p.seq = l.seq → l.patchTicket = some p.ticket) ∧ x.threshold = 0 ∧ d.length = 64 ∧ recordOff x x.wr + 64 ≤ benchSize) :=
  ⟨15, zeros 64, fullQueue, _, _, by decide +kernel, by decide +kernel, by decide +kernel, by decide +kernel, by decide +kernel, by decide +kernel,
   by decide +kernel, by decide +kernel, rfl, by decide +kernel, by decide +kernel, by decide +kernel, by decide +kernel, by decide +kernel,
   by decide +kernel, by decide +kernel, by decide +kernel, by decide +kernel, by decide +kernel⟩

theorem wit_BenchPlacesAreDistinct : ∃ a b : Nat, a < benchSize ∧ b < benchSize ∧ pchOf a = pchOf b ∧ pchOffset a = pchOffset b :=
  ⟨benchSize - 1, benchSize - 1, by decide, by decide, rfl, rfl⟩

theorem progress_of {w : Nat} {c : CmdRec} {s : State}
    (h : cmdOf s w = some c ∧ c.via = none ∧ c.silent = false ∧ ticketLive s.ledger w = true) : InProgress w c s := ⟨h.1, h.2.1, h.2.2.1, h.2.2.2⟩

theorem wit_SettingsOfLinksGaugeAndAxes :
    (∃ (c : HostCmd) (s : State), Ready specSetOperatingRange c s ∧ badOperatingRange c.params = none ∧
    stageFree specSetOperatingRange ((fun c g => { g with range := some (parOperatingRange c.params) })) c s) ∧
    (∃ (c : HostCmd) (s : State), Ready specLinkConfig c s ∧
    badLink c.unit c.params (vget s.staged.link (if c.unit % 2 = 0 then c.unit + 1 else c.unit - 1)) = none ∧
    stageFree specLinkConfig ((fun c g => { g with link := vset g.link c.unit (parLink c.params) })) c s) ∧
    (∃ (c : HostCmd) (s : State), Ready specKx25Config c s ∧ badKx c.params = none ∧
    stageFree specKx25Config ((fun c g => { g with kx := vset g.kx c.unit (parKx c.params) })) c s) ∧
    (∃ (c : HostCmd) (s : State), Ready specThroughConfig c s ∧ badThrough c.params = none ∧
    stageFree specThroughConfig ((fun c g => { g with through := vset g.through c.unit (parThrough c.params) })) c s) ∧
    (∃ (c : HostCmd) (s : State), Ready encoderConfigSpec c s ∧ badEncoder c.unit c.params = none ∧
    stageFree encoderConfigSpec ((fun c g => { g with enc := vset g.enc c.unit (parEncoder c.params) })) c s) ∧
    (∃ (c : HostCmd) (s : State), Ready triggerConfigSpec c s ∧ (if c.unit = 24 then badLineSeq c.params else badSlotTrig c.params) = none ∧
    stageFree triggerConfigSpec ((fun c g => if c.unit = 24 then { g with seq := some (parLineSeq c.params), shift := u8 c.params 10 } else { g with trig := vset g.trig c.unit (parSlotTrig c.params) })) c s) ∧
    (∃ (c : HostCmd) (s : State), Ready triggerConfigSpec c s ∧ (if c.unit = 24 then badLineSeq c.params else badSlotTrig c.params) = none ∧
    stageFree triggerConfigSpec ((fun c g => if c.unit = 24 then { g with seq := some (parLineSeq c.params), shift := u8 c.params 10 } else { g with trig := vset g.trig c.unit (parSlotTrig c.params) })) c s) ∧
    (∃ (c : HostCmd) (s : State), Ready compareConfigSpec c s ∧ badCompare c.params = none ∧
    stageFree compareConfigSpec ((fun c g => { g with cmp := vset g.cmp c.unit (parCompare c.params) })) c s) ∧
    (∃ (c : HostCmd) (s : State), Ready specAxisConfig c s ∧ badAxis c.params = none ∧
    stageFree specAxisConfig ((fun c g => { g with axis := vset g.axis c.unit (parAxis c.params) })) c s) ∧
    (∃ (c : HostCmd) (s : State), Ready specAxisGear c s ∧ badGear c.params = none ∧
    stageFree specAxisGear ((fun c g => { g with gear := vset g.gear c.unit (parGear c.params) })) c s) ∧
    (∃ (c : HostCmd) (s : State), Ready specAxisStandstill c s ∧ badStand c.params = none ∧
    stageFree specAxisStandstill ((fun c g => { g with stand := vset g.stand c.unit (parStand c.params) })) c s) := ⟨
   ⟨{unit := 0xFF, paramLen := 12, slots := 1, params := le 4 50000000 ++ le 4 50000000 ++ le 4 1}, upState, ready_of (by decide +kernel),
   by decide +kernel, by decide +kernel⟩,
   ⟨{unit := 23, paramLen := 24, slots := 1, params := zeros 24}, upState, ready_of (by decide +kernel), by decide +kernel, by decide +kernel⟩,
   ⟨{unit := 23, paramLen := 4, slots := 1, params := [1,0,0,0]}, upState, ready_of (by decide +kernel), by decide +kernel, by decide +kernel⟩,
   ⟨{unit := 1, paramLen := 4, slots := 1, params := [2,1,0,0]}, upState, ready_of (by decide +kernel), by decide +kernel, by decide +kernel⟩,
   ⟨{unit := 5, paramLen := 24, slots := 1, params := [3,15,0,0] ++ le 2 64 ++ zeros 6 ++ le 4 1000000 ++ zeros 8}, upState,
   ready_of (by decide +kernel), by decide +kernel, by decide +kernel⟩,
   ⟨{unit := 24, paramLen := 48, slots := 1, params := le 4 655360 ++ le 2 1 ++ [0,0,1,0,12,0,0,0] ++ zeros 34}, upState,
   ready_of (by decide +kernel), by decide +kernel, by decide +kernel⟩,
   ⟨{unit := 23, paramLen := 48, slots := 1, params := zeros 48}, upState, ready_of (by decide +kernel), by decide +kernel, by decide +kernel⟩,
   ⟨{unit := 15, paramLen := 8, slots := 1, params := [1,1,0xFF,0] ++ le 2 8 ++ [1,0]}, upState, ready_of (by decide +kernel), by decide +kernel,
   by decide +kernel⟩,
   ⟨{unit := 3, paramLen := 64, slots := 2, params := zeros 64}, upState, ready_of (by decide +kernel), by decide +kernel, by decide +kernel⟩,
   ⟨{unit := 3, paramLen := 40, slots := 1, params := [1,0,0,1] ++ zeros 12 ++ le 4 1 ++ zeros 20}, upState, ready_of (by decide +kernel),
   by decide +kernel, by decide +kernel⟩,
   ⟨{unit := 3, paramLen := 8, slots := 1, params := [2,2] ++ le 2 10000 ++ le 2 3000 ++ zeros 2}, upState, ready_of (by decide +kernel),
   by decide +kernel, by decide +kernel⟩⟩

theorem wit_SettingsOfTheLinePath :
    (∃ (c : HostCmd) (s : State), Ready specPlaneConfig c s ∧ badPlane c.params = none ∧
    stageFree specPlaneConfig ((fun c g => { g with plane := vset g.plane c.unit (parPlane c.params) })) c s) ∧
    (∃ (c : HostCmd) (s : State), Ready specGridConfig c s ∧ badGrid c.params = none ∧
    stageFree specGridConfig ((fun c g => { g with grid := some (parGrid c.params) })) c s) ∧
    (∃ (c : HostCmd) (s : State), Ready specKerfConfig c s ∧ (badKerf c.unit c.params (if 0 < c.unit ∧
    c.unit < 23 then vget s.staged.kerf (c.unit - 1) else none) (if c.unit < 22 then vget s.staged.kerf (c.unit + 1) else none) = none) ∧
    stageFree specKerfConfig ((fun c g => { g with kerf := vset g.kerf c.unit (some (parKerf c.params)) })) c s) ∧
    (∃ (c : HostCmd) (s : State), Ready specKerfConfig c s ∧ (badKerf c.unit c.params (if 0 < c.unit ∧
    c.unit < 23 then vget s.staged.kerf (c.unit - 1) else none) (if c.unit < 22 then vget s.staged.kerf (c.unit + 1) else none) = none) ∧
    stageFree specKerfConfig ((fun c g => { g with kerf := vset g.kerf c.unit (some (parKerf c.params)) })) c s) ∧
    (∃ (c : HostCmd) (s : State), Ready specQueueConfig c s ∧ badQueue c.params = none ∧
    stageFree specQueueConfig ((fun c g => { g with queue := vset g.queue c.unit (parQueue c.params) })) c s) ∧
    (∃ (c : HostCmd) (s : State), Ready specPatchConfig c s ∧ badPatch c.params = none ∧
    stageFree specPatchConfig ((fun c g => { g with patch := vset g.patch c.unit (parPatch c.params) })) c s) ∧
    (∃ (c : HostCmd) (s : State), Ready specMarkStation c s ∧ badStation c.params = none ∧
    stageFree specMarkStation ((fun c g => { g with station := vset g.station c.unit (parStation c.params) })) c s) ∧
    (∃ (c : HostCmd) (s : State), Ready specZoneConfig c s ∧ badZones c.params = none ∧
    stageFree specZoneConfig ((fun c g => { g with zone := vset g.zone c.unit (parZones c.params) })) c s) ∧
    (∃ (c : HostCmd) (s : State), Ready specGritConfig c s ∧ (if c.unit = 24 then badBg c.params else badGrit c.params) = none ∧
    stageFree specGritConfig ((fun c g => if c.unit = 24 then { g with bg := parBg c.params } else { g with grit := vset g.grit c.unit (parGrit c.params) })) c s) ∧
    (∃ (c : HostCmd) (s : State), Ready specGritConfig c s ∧ (if c.unit = 24 then badBg c.params else badGrit c.params) = none ∧
    stageFree specGritConfig ((fun c g => if c.unit = 24 then { g with bg := parBg c.params } else { g with grit := vset g.grit c.unit (parGrit c.params) })) c s) ∧
    (∃ (c : HostCmd) (s : State), Ready specThresholdConfig c s ∧ badWatch c.params = none ∧
    stageFree specThresholdConfig ((fun c g => setWatches c.unit c.params g)) c s) ∧
    (∃ (c : HostCmd) (s : State), Ready specViewConfig c s ∧ badView c.params = none ∧
    stageFree specViewConfig ((fun c g => { g with view := vset g.view c.unit (parView c.params) })) c s) := ⟨
   ⟨{unit := 23, paramLen := 32, slots := 1, params := zeros 4 ++ le 4 999999 ++ le 4 1000000 ++ [0,0xFF,0,0,0,0] ++ zeros 14}, upState,
   ready_of (by decide +kernel), by decide +kernel, by decide +kernel⟩,
   ⟨{unit := 0, paramLen := 64, slots := 2, params := le 4 262144 ++ le 4 1000 ++ zeros 4 ++ [1,0,0,0,7] ++ List.replicate 23 0xFF ++ zeros 8 ++ le 2 0 ++ le 2 0 ++ le 4 100 ++ zeros 8},
   upState, ready_of (by decide +kernel), by decide +kernel, by decide +kernel⟩,
   ⟨{unit := 24, paramLen := 20, slots := 1, params := zeros 20}, upState, ready_of (by decide +kernel), by decide +kernel, by decide +kernel⟩,
   ⟨{unit := 0, paramLen := 20, slots := 1, params := zeros 20}, upState, ready_of (by decide +kernel), by decide +kernel, by decide +kernel⟩,
   ⟨{unit := 15, paramLen := 8, slots := 1, params := [1,0,0,0] ++ le 4 1048576}, upState, ready_of (by decide +kernel), by decide +kernel,
   by decide +kernel⟩,
   ⟨{unit := 15, paramLen := 16, slots := 1, params := [1,1,0,0,9,0,15,0] ++ le 4 4096 ++ zeros 4}, upState, ready_of (by decide +kernel),
   by decide +kernel, by decide +kernel⟩,
   ⟨{unit := 3, paramLen := 48, slots := 1, params := [1,0,1,15] ++ zeros 28 ++ le 4 25000000 ++ zeros 12}, upState, ready_of (by decide +kernel),
   by decide +kernel, by decide +kernel⟩,
   ⟨{unit := 23, paramLen := 136, slots := 3, params := [1,0,0,0,0,0] ++ le 2 32768 ++ zeros 128}, upState, ready_of (by decide +kernel),
   by decide +kernel, by decide +kernel⟩,
   ⟨{unit := 23, paramLen := 8, slots := 1, params := [3,9,0,0,0,0,0,0]}, upState, ready_of (by decide +kernel), by decide +kernel, by decide +kernel⟩,
   ⟨{unit := 24, paramLen := 8, slots := 1, params := [3,0,0,0,0,0,0,0]}, upState, ready_of (by decide +kernel), by decide +kernel, by decide +kernel⟩,
   ⟨{unit := 23, paramLen := 32, slots := 1, params := [3,63,1,2] ++ le 4 5 ++ le 4 4 ++ zeros 4 ++ le 2 1 ++ zeros 14}, upState,
   ready_of (by decide +kernel), by decide +kernel, by decide +kernel⟩,
   ⟨{unit := 7, paramLen := 1088, slots := 18, params := zeros 1088}, upState, ready_of (by decide +kernel), by decide +kernel, by decide +kernel⟩⟩

theorem wit_SettingsOfStoreTimeRingAndPair :
    (∃ (c : HostCmd) (s : State), Ready specPartitionConfig c s ∧ badPart c.unit c.params = none ∧
    stageFree specPartitionConfig ((fun c g => { g with part := vset g.part c.unit (parPart c.params) })) c s) ∧
    (∃ (c : HostCmd) (s : State), Ready specPortConfig c s ∧ badPort c.unit c.params = none ∧
    stageFree specPortConfig ((fun c g => { g with port := vset g.port c.unit (some (parPort c.params)) })) c s) ∧
    (∃ (c : HostCmd) (s : State), Ready archiveConfigSpec c s ∧
    badArchive c.params (fieldsOf s.staged) (match s.staged.grid with | some g => g.columns | none => 0) = none ∧
    stageFree archiveConfigSpec ((fun c g => { g with archive := parArchive c.params })) c s) ∧
    (∃ (c : HostCmd) (s : State), Ready compressConfigSpec c s ∧ otherVerifier s c.unit (u16 c.params 0) = none ∧
    stageFree compressConfigSpec ((fun c g => { g with verify := vset g.verify c.unit (u16 c.params 0) })) c s) ∧
    (∃ (c : HostCmd) (s : State), Ready specTimeConfig c s ∧ badTime c.params = none ∧
    stageFree specTimeConfig ((fun c g => { g with time := parTime c.params })) c s) ∧
    (∃ (c : HostCmd) (s : State), Ready specPtpConfig c s ∧ badPtp c.params = none ∧
    stageFree specPtpConfig ((fun c g => { g with ptp := vset g.ptp c.unit (parPtp c.params) })) c s) ∧
    (∃ (c : HostCmd) (s : State), Ready specRingConfig c s ∧ badRing c.params s.ring.gateway = none ∧
    stageFree specRingConfig ((fun c g => { g with ring := parRing c.params })) c s) ∧
    (∃ (c : HostCmd) (s : State), Ready specPairConfig c s ∧ (s.pair.role = .solo ∧ badPair c.params = none) ∧
    stageFree specPairConfig ((fun c g => { g with pair := parPair c.params })) c s) := ⟨
   ⟨{unit := 17, paramLen := 16, slots := 1, params := zeros 16}, upState, ready_of (by decide +kernel), by decide +kernel, by decide +kernel⟩,
   ⟨{unit := 15, paramLen := 8, slots := 1, params := le 4 1000000 ++ le 4 0}, upState, ready_of (by decide +kernel), by decide +kernel,
   by decide +kernel⟩,
   ⟨{unit := 0, paramLen := 24, slots := 1, params := zeros 24}, upState, ready_of (by decide +kernel), by decide +kernel, by decide +kernel⟩,
   ⟨{unit := 3, paramLen := 4, slots := 1, params := [1,0,0,0]}, upState, ready_of (by decide +kernel), by decide +kernel, by decide +kernel⟩,
   ⟨{unit := 0, paramLen := 24, slots := 1, params := [0,0,0,0,0,0,0,0] ++ le 4 1000000000 ++ le 4 10 ++ le 2 500 ++ zeros 6}, upState,
   ready_of (by decide +kernel), by decide +kernel, by decide +kernel⟩,
   ⟨{unit := 1, paramLen := 24, slots := 1, params := zeros 24}, upState, ready_of (by decide +kernel), by decide +kernel, by decide +kernel⟩,
   ⟨{unit := 0, paramLen := 72, slots := 2, params := zeros 72}, upState, ready_of (by decide +kernel), by decide +kernel, by decide +kernel⟩,
   ⟨{unit := 0, paramLen := 16, slots := 1, params := [1,0,0,0,0,0] ++ le 2 2000 ++ zeros 8}, upState, ready_of (by decide +kernel),
   by decide +kernel, by decide +kernel⟩⟩

theorem wit_QueriesOfState :
    (∃ (c : HostCmd) (s : State), Ready specNop c s) ∧
    (∃ (c : HostCmd) (s : State), Ready specGetInfo c s) ∧
    (∃ (c : HostCmd) (s : State), Ready specGetStatus c s) ∧
    (∃ (c : HostCmd) (s : State), Ready specGetStage c s) ∧
    (∃ (c : HostCmd) (s : State), Ready specGetReport c s) ∧
    (∃ (c : HostCmd) (s : State), Ready specLinkStatus c s) ∧
    (∃ (c : HostCmd) (s : State), Ready specSegStatus c s) ∧
    (∃ (c : HostCmd) (s : State), Ready specBenchStatus c s) ∧
    (∃ (c : HostCmd) (s : State), Ready specReadCapture c s) ∧
    (∃ (c : HostCmd) (s : State), Ready gaugeStatusSpec c s) ∧
    (∃ (c : HostCmd) (s : State), Ready specAxisStatus c s) ∧
    (∃ (c : HostCmd) (s : State), Ready specTimeStatus c s) ∧
    (∃ (c : HostCmd) (s : State), Ready specPairStatus c s) ∧
    (∃ (c : HostCmd) (s : State), Ready specPaceStatus c s) := ⟨
   ⟨{unit := 0xFF, paramLen := 0, slots := 1, params := []}, upState, ready_of (by decide +kernel)⟩,
   ⟨{unit := 0xFF, paramLen := 0, slots := 1, params := []}, upState, ready_of (by decide +kernel)⟩,
   ⟨{unit := 0xFF, paramLen := 0, slots := 1, params := []}, upState, ready_of (by decide +kernel)⟩,
   ⟨{unit := 0xFF, paramLen := 0, slots := 1, params := []}, upState, ready_of (by decide +kernel)⟩,
   ⟨{unit := 0xFF, paramLen := 0, slots := 1, params := []}, upState, ready_of (by decide +kernel)⟩,
   ⟨{unit := 25, paramLen := 0, slots := 1, params := []}, upState, ready_of (by decide +kernel)⟩,
   ⟨{unit := 0, paramLen := 0, slots := 1, params := []}, upState, ready_of (by decide +kernel)⟩,
   ⟨{unit := 0, paramLen := 0, slots := 1, params := []}, upState, ready_of (by decide +kernel)⟩,
   ⟨{unit := 1, paramLen := 0, slots := 1, params := []}, upState, ready_of (by decide +kernel)⟩,
   ⟨{unit := 5, paramLen := 0, slots := 1, params := []}, upState, ready_of (by decide +kernel)⟩,
   ⟨{unit := 3, paramLen := 0, slots := 1, params := []}, upState, ready_of (by decide +kernel)⟩,
   ⟨{unit := 0, paramLen := 0, slots := 1, params := []}, upState, ready_of (by decide +kernel)⟩,
   ⟨{unit := 0, paramLen := 0, slots := 1, params := []}, upState, ready_of (by decide +kernel)⟩,
   ⟨{unit := 0, paramLen := 0, slots := 1, params := []}, upState, ready_of (by decide +kernel)⟩⟩

theorem wit_QueriesOfTablesAndLogs :
    (∃ (c : HostCmd) (s : State), Ready specSeamStatus c s ∧ seamInForce (unitCfg s .dovetail) c.unit = true) ∧
    (∃ (c : HostCmd) (s : State), Ready specQueueStatus c s ∧ c.unit < 16) ∧
    (∃ (c : HostCmd) (s : State), Ready specRingStatus c s ∧ (c.paramLen = 0 ∨ (firstBad (bulkHostOnly c.params 0) = none ∧ c.bulkFails = 0))) ∧
    (∃ (c : HostCmd) (s : State), Ready specProfileRead c s ∧ (c.unit < 24 ∧ u8 c.params 0 < 4 ∧
    bitOf (vget (unitCfg s (.profile c.unit)).grit c.unit).fields (u8 c.params 0) = true)) ∧
    (∃ (c : HostCmd) (s : State), Ready specReadTable c s ∧ (badReadTable c.params = none ∧ c.bulkFails = 0)) ∧
    (∃ (c : HostCmd) (s : State), Ready specJigResult c s ∧ (badJigResult c.params = none ∧ c.bulkFails = 0 ∧ (jigHeld c s).isSome = true)) ∧
    (∃ (c : HostCmd) (s : State), Ready specReadFaultLog c s ∧ (u8 c.params 2 < 2 ∧ firstBad (bulkHostOnly c.params 4) = none ∧ c.bulkFails = 0)) ∧
    (∃ (c : HostCmd) (s : State), Ready specReadCounters c s ∧ (c.paramLen = 4 ∧ (counterGroup (u8 c.params 0)).isSome = true ∧
    u8 c.params 1 < (blockShape c).2)) ∧
    (∃ (c : HostCmd) (s : State), Ready specQueueStatus c s ∧ (16 ≤ c.unit ∧ (c.paramLen = 0 ∨ (firstBad (bulkHostOnly c.params 0) = none ∧
    c.bulkFails = 0)))) ∧
    (∃ (c : HostCmd) (s : State), Ready specProfileRead c s ∧ (c.unit = 24 ∧ u8 c.params 0 < 4 ∧ firstBad (bulkHostOnly c.params 4) = none ∧
    c.bulkFails = 0 ∧ bitOf (unitCfg s .background).bg.fields (u8 c.params 0) = true ∧ (vget s.prof.bg (u8 c.params 0)).rows ≠ [])) ∧
    (∃ (c : HostCmd) (s : State), Ready specReadCounters c s ∧ (c.paramLen = 20 ∧ c.bulkFails = 0 ∧ (counterGroup (u8 c.params 0)).isSome = true ∧
    u8 c.params 1 < (blockShape c).2 ∧ firstBad (bulkHostOnly c.params 4) = none ∧ blocksAsked c * (blockShape c).1 ≤ (parBulk c.params 4).length)) ∧
    (∃ (c : HostCmd) (s : State), Ready contextSaveSpec c s ∧ (badContext c s = none ∧ slotHolder s (u16 c.params 0) = none ∧ c.bulkFails = 0)) := ⟨
   ⟨{unit := 0, paramLen := 0, slots := 1, params := []},
   (let b : State := upState; { b with running := { b.running with grid := some { columns := 5000, order := [3, 7] }, kerf := vset b.running.kerf 0 (some {}) } }),
   ready_of (by decide +kernel), by decide +kernel⟩,
   ⟨{unit := 15, paramLen := 0, slots := 1, params := []}, upState, ready_of (by decide +kernel), by decide +kernel⟩,
   ⟨{unit := 0, paramLen := 16, slots := 1, params := le 8 4096 ++ le 4 64 ++ [0,0,0,0]}, upState, ready_of (by decide +kernel), by decide +kernel⟩,
   ⟨{unit := 3, paramLen := 4, slots := 1, params := [1,0,0,0]},
   (let b : State := upState; { b with running := { b.running with grit := vset b.running.grit 3 { (vget b.running.grit 3) with fields := 2 } } }),
   ready_of (by decide +kernel), by decide +kernel⟩,
   ⟨{unit := 3, paramLen := 32, slots := 1, params := [0,0,1,0] ++ le 4 2 ++ le 4 4 ++ zeros 4 ++ le 8 4096 ++ le 4 64 ++ zeros 4}, upState,
   ready_of (by decide +kernel), by decide +kernel⟩,
   ⟨{unit := 3, paramLen := 20, slots := 1, params := [1,0,0,0] ++ le 8 4096 ++ le 4 64 ++ [0,0,0,0]},
   (let b : State := upState; { b with plane := { b.plane with results := [⟨3, .flat, {}, []⟩] } }), ready_of (by decide +kernel), by decide +kernel⟩,
   ⟨{unit := 0, paramLen := 20, slots := 1, params := [6,0,0,0] ++ le 8 4096 ++ le 4 64 ++ [0,0,0,0]},
   (let b : State := upState; { b with faults := { b.faults with log := [{ num := 5 }, { num := 6 }] } }), ready_of (by decide +kernel),
   by decide +kernel⟩,
   ⟨{unit := 0, paramLen := 4, slots := 1, params := [1,23,0,0]}, upState, ready_of (by decide +kernel), by decide +kernel⟩,
   ⟨{unit := 19, paramLen := 16, slots := 1, params := le 8 4096 ++ le 4 64 ++ [0,0,0,0]},
   (let b : State := upState; { b with scribe := { b.scribe with stations := vset b.scribe.stations 3 { (vget b.scribe.stations 3) with pending := [{ seq := 4 }] } } }),
   ready_of (by decide +kernel), by decide +kernel⟩,
   ⟨{unit := 24, paramLen := 20, slots := 1, params := [1,0,0,0] ++ le 8 4096 ++ le 4 64 ++ [0,0,0,0]},
   (let b : State := upState; { b with running := { b.running with bg := { b.running.bg with fields := 2 } }, prof := { b.prof with bg := vset b.prof.bg 1 { (vget b.prof.bg 1) with rows := [{ line := 512, entries := [some 4, none] }] } } }),
   ready_of (by decide +kernel), by decide +kernel⟩,
   ⟨{unit := 0, paramLen := 20, slots := 1, params := [1,23,1,0] ++ le 8 4096 ++ le 4 64 ++ [0,0,0,0]}, upState, ready_of (by decide +kernel),
   by decide +kernel⟩,
   ⟨{unit := 0, paramLen := 20, slots := 1, params := [0,0,0,0] ++ le 8 4096 ++ le 4 contextBytes ++ zeros 4},
   (let b : State := upState; { b with running := { b.running with part := vset b.running.part 16 { (vget b.running.part 16) with enable := true, baseMib := 40000, sizeA := 1 } } }),
   ready_of (by decide +kernel), by decide +kernel⟩⟩

theorem wit_BankedSettingsGoToTheShadowBank :
    (∃ (c : HostCmd) (s : State), Ready specLoadTable c s ∧ (badLoadTable c.params = none ∧ s.ring.prepared = none ∧
    unitTaken s (.plane c.unit) = true ∧ c.bulkFails = 0 ∧ tableBadEntry (parTable c.params).kind (tableLoaded c s).vals = none)) ∧
    (∃ (c : HostCmd) (s : State), Ready specLoadTable c s ∧ (badLoadTable c.params = none ∧ s.ring.prepared = none ∧
    unitTaken s (.plane c.unit) = false ∧ (vget s.plane.slots c.unit).captured.isSome = true ∧ c.bulkFails = 0 ∧
    tableBadEntry (parTable c.params).kind (tableLoaded c s).vals = none)) ∧
    (∃ (c : HostCmd) (s : State), Ready specLoadGeometry c s ∧ (badMap c.params = none ∧ s.ring.prepared = none ∧ unitTaken s .dovetail = true)) ∧
    (∃ (c : HostCmd) (s : State), Ready specLoadGeometry c s ∧ (badMap c.params = none ∧ s.ring.prepared = none ∧ unitTaken s .dovetail = false ∧
    s.dovetail.locked = true)) ∧
    (∃ (c : HostCmd) (s : State), Ready specClassConfig c s ∧ (badClass c.params = none ∧ s.ring.prepared = none ∧ unitTaken s .marquetry = true)) ∧
    (∃ (c : HostCmd) (s : State), Ready specRuleConfig c s ∧ (badRule c.params = none ∧ s.ring.prepared = none ∧ unitTaken s .marquetry = true)) ∧
    (∃ (c : HostCmd) (s : State), Ready specRegionConfig c s ∧ (badRegion c.params = none ∧ s.ring.prepared = none ∧ unitTaken s .marquetry = true ∧
    conflictOf (claimsOf s.staged (some (parRegion c.params))) (runningClaims s) s.claims 0x0601 0 = none)) ∧
    (∃ (c : HostCmd) (s : State), Ready specClassConfig c s ∧ (badClass c.params = none ∧ s.ring.prepared = none ∧ unitTaken s .marquetry = false ∧
    s.marq.captured.isSome = true)) ∧
    (∃ (c : HostCmd) (s : State), Ready specRuleConfig c s ∧ (badRule c.params = none ∧ s.ring.prepared = none ∧ unitTaken s .marquetry = false ∧
    s.marq.captured.isSome = true)) ∧
    (∃ (c : HostCmd) (s : State), Ready specRegionConfig c s ∧ (badRegion c.params = none ∧ s.ring.prepared = none ∧ unitTaken s .marquetry = false ∧
    s.marq.captured.isSome = true ∧ conflictOf (claimsOf s.staged (some (parRegion c.params))) (runningClaims s) s.claims 0x0601 0 = none)) := ⟨
   ⟨{unit := 3, paramLen := 32, slots := 1, params := [0,0,0,0] ++ le 4 2 ++ le 4 4 ++ zeros 4 ++ le 8 4096 ++ le 4 8 ++ zeros 4, bulk := [0,64,0,64,0,64,0,64]},
   upState, ready_of (by decide +kernel), by decide +kernel⟩,
   ⟨{unit := 3, paramLen := 32, slots := 1, params := [0,0,0,0] ++ le 4 2 ++ le 4 4 ++ zeros 4 ++ le 8 4096 ++ le 4 8 ++ zeros 4, bulk := [0,64,0,64,0,64,0,64]},
   (let b : State := (setSlotPlane 3 (fun x => { x with captured := some (vget upState.plane.slots 3).active }) upState); { b with glue := some {} }),
   ready_of (by decide +kernel), by decide +kernel⟩,
   ⟨{unit := 23, paramLen := 40, slots := 1, params := [2,0,0,0,0,0,0,0] ++ zeros 16 ++ le 4 1000000 ++ zeros 12}, upState,
   ready_of (by decide +kernel), by decide +kernel⟩,
   ⟨{unit := 23, paramLen := 40, slots := 1, params := [2,0,0,0,0,0,0,0] ++ zeros 16 ++ le 4 1000000 ++ zeros 12},
   (let b : State := (let b : State := upState; { b with dovetail := { b.dovetail with locked := true } }); { b with glue := some {} }),
   ready_of (by decide +kernel), by decide +kernel⟩,
   ⟨{unit := 15, paramLen := 16, slots := 1, params := [1,3,0,1] ++ zeros 12}, upState, ready_of (by decide +kernel), by decide +kernel⟩,
   ⟨{unit := 63, paramLen := 72, slots := 2, params := zeros 72}, upState, ready_of (by decide +kernel), by decide +kernel⟩,
   ⟨{unit := 0, paramLen := 32, slots := 1, params := [63,63,3,0] ++ le 4 65536 ++ le 2 4096 ++ zeros 6 ++ [0xFF,0xFF,0,0] ++ zeros 4 ++ le 4 131072 ++ zeros 4},
   upState, ready_of (by decide +kernel), by decide +kernel⟩,
   ⟨{unit := 15, paramLen := 16, slots := 1, params := [1,3,0,1] ++ zeros 12},
   (let b : State := (let b : State := upState; { b with marq := { b.marq with captured := some b.marq.active } }); { b with glue := some {} }),
   ready_of (by decide +kernel), by decide +kernel⟩,
   ⟨{unit := 63, paramLen := 72, slots := 2, params := zeros 72},
   (let b : State := (let b : State := upState; { b with marq := { b.marq with captured := some b.marq.active } }); { b with glue := some {} }),
   ready_of (by decide +kernel), by decide +kernel⟩,
   ⟨{unit := 0, paramLen := 32, slots := 1, params := [63,63,3,0] ++ le 4 65536 ++ le 2 4096 ++ zeros 6 ++ [0xFF,0xFF,0,0] ++ zeros 4 ++ le 4 131072 ++ zeros 4},
   (let b : State := (let b : State := upState; { b with marq := { b.marq with captured := some b.marq.active } }); { b with glue := some {} }),
   ready_of (by decide +kernel), by decide +kernel⟩⟩

theorem wit_LiveTrimsActFromTheNextLine :
    (∃ (c : HostCmd) (s : State), Ready specSetZoneShim c s ∧ (badZoneShim c.params (vget (unitCfg s (.plane c.unit)).zone c.unit).zones = none ∧
    ingestOn (unitCfg s (.plane c.unit)) c.unit = true ∧ (u8 c.params 1 = 2 →
    bitOf (vget (unitCfg s (.plane c.unit)).plane c.unit).drift (u8 c.params 0) = true))) ∧
    (∃ (c : HostCmd) (s : State), Ready specSetZoneShim c s ∧ (badZoneShim c.params (vget (unitCfg s (.plane c.unit)).zone c.unit).zones = none ∧
    ingestOn (unitCfg s (.plane c.unit)) c.unit = true ∧ (u8 c.params 1 = 2 →
    bitOf (vget (unitCfg s (.plane c.unit)).plane c.unit).drift (u8 c.params 0) = true))) ∧
    (∃ (c : HostCmd) (s : State), Ready specSetSeamShim c s ∧ (badSeamShim c.params = none ∧ seamInForce (unitCfg s .dovetail) c.unit = true)) ∧
    (∃ (c : HostCmd) (s : State), Ready specViewCrop c s ∧ (∃ g, (unitCfg s (.veneer c.unit)).grid = some g ∧
    (vget (unitCfg s (.veneer c.unit)).view c.unit).enable = true ∧
    u32 c.params 0 + (vget (unitCfg s (.veneer c.unit)).view c.unit).cropCols ≤ g.columns)) ∧
    (∃ (c : HostCmd) (s : State), Ready specQueueTrim c s ∧ (vget s.scribe.queues c.unit).on = true ∧
    badTrim (vget s.scribe.queues c.unit).cap c.params = none ∧ trimWaits s = false) := ⟨
   ⟨{unit := 3, paramLen := 8, slots := 1, params := [1,0,3,1] ++ le 2 16400 ++ [0,0]},
   (let b : State := (let b : State := (let b : State := (let b : State := upState; { b with running := { b.running with trig := vset b.running.trig 3 { (vget b.running.trig 3) with enable := true } } }); { b with running := { b.running with link := vset b.running.link 3 { (vget b.running.link 3) with enable := true } } }); { b with running := { b.running with plane := vset b.running.plane 3 { (vget b.running.plane 3) with drift := 2 } } }); { b with running := { b.running with zone := vset b.running.zone 3 { (vget b.running.zone 3) with zones := 4 } } }),
   ready_of (by decide +kernel), by decide +kernel⟩,
   ⟨{unit := 3, paramLen := 4, slots := 1, params := [1,2,0,0]},
   (let b : State := (let b : State := (let b : State := (let b : State := upState; { b with running := { b.running with trig := vset b.running.trig 3 { (vget b.running.trig 3) with enable := true } } }); { b with running := { b.running with link := vset b.running.link 3 { (vget b.running.link 3) with enable := true } } }); { b with running := { b.running with plane := vset b.running.plane 3 { (vget b.running.plane 3) with drift := 2 } } }); { b with running := { b.running with zone := vset b.running.zone 3 { (vget b.running.zone 3) with zones := 4 } } }),
   ready_of (by decide +kernel), by decide +kernel⟩,
   ⟨{unit := 0, paramLen := 4, slots := 1, params := [3,0] ++ le 2 16400},
   (let b : State := upState; { b with running := { b.running with grid := some { columns := 5000, order := [3, 7] }, kerf := vset b.running.kerf 0 (some {}) } }),
   ready_of (by decide +kernel), by decide +kernel⟩,
   ⟨{unit := 7, paramLen := 4, slots := 1, params := le 4 1000},
   (let b : State := (let b : State := upState; { b with running := { b.running with grid := some { columns := 5000, order := [3, 7] }, kerf := vset b.running.kerf 0 (some {}) } }); { b with running := { b.running with view := vset b.running.view 7 { (vget b.running.view 7) with enable := true, cropCols := 4000 } } }),
   ready_of (by decide +kernel), ⟨_, rfl, by decide +kernel, by decide +kernel⟩⟩,
   ⟨{unit := 15, paramLen := 12, slots := 1, params := le 4 64 ++ le 4 10 ++ [3,0,0,0]},
   (setQueue 15 (fun x => { x with on := true, cap := 64 }) upState), ready_of (by decide +kernel), by decide +kernel, by decide +kernel,
   by decide +kernel⟩⟩

theorem wit_QueueReadPoints :
    (∃ (c : HostCmd) (s : State), Ready specQueueMark c s ∧ (vget s.scribe.queues c.unit).on = true ∧ relayedAway s c.unit = false) ∧
    (∃ (c : HostCmd) (s : State), Ready specQueueRewind c s ∧ (vget s.scribe.queues c.unit).on = true ∧ relayedAway s c.unit = false ∧
    (vget s.scribe.queues c.unit).markValid = true) ∧
    (∃ (c : HostCmd) (s : State), Ready specQueueRewind c s ∧ (vget s.scribe.queues c.unit).on = true ∧ relayedAway s c.unit = false ∧
    (vget s.scribe.queues c.unit).markValid = false ∧ (vget s.scribe.queues c.unit).markLost = true) ∧
    (∃ (c : HostCmd) (s : State), Ready specQueueRelease c s ∧ (vget s.scribe.queues c.unit).on = true ∧ relayedAway s c.unit = false ∧
    later32 (u32 c.params 0) (vget s.scribe.queues c.unit).rd = false) ∧
    (∃ (c : HostCmd) (s : State), Ready specQueueMark c s ∧ (vget s.scribe.queues c.unit).on = false) ∧
    (∃ (c : HostCmd) (s : State), Ready specQueueRewind c s ∧ (vget s.scribe.queues c.unit).on = false) ∧
    (∃ (c : HostCmd) (s : State), Ready specQueueRelease c s ∧ (vget s.scribe.queues c.unit).on = false) := ⟨
   ⟨{unit := 15, paramLen := 0, slots := 1, params := []},
   (setQueue 15 (fun x => { x with on := true, cap := 64, wr := 9, rd := 5, rel := 2, live := (List.range 7).map (fun i => { seq := i + 2 }) }) upState),
   ready_of (by decide +kernel), by decide +kernel, by decide +kernel⟩,
   ⟨{unit := 15, paramLen := 0, slots := 1, params := []},
   (setQueue 15 (fun x => { x with on := true, cap := 64, wr := 9, rd := 5, rel := 2, mkp := 3, markValid := true, live := (List.range 7).map (fun i => { seq := i + 2 }) }) upState),
   ready_of (by decide +kernel), by decide +kernel, by decide +kernel, by decide +kernel⟩,
   ⟨{unit := 15, paramLen := 0, slots := 1, params := []},
   (setQueue 15 (fun x => { x with on := true, cap := 64, wr := 9, rd := 5, rel := 2, markLost := true, live := (List.range 7).map (fun i => { seq := i + 2 }) }) upState),
   ready_of (by decide +kernel), by decide +kernel, by decide +kernel, by decide +kernel, by decide +kernel⟩,
   ⟨{unit := 15, paramLen := 4, slots := 1, params := le 4 5},
   (setQueue 15 (fun x => { x with on := true, cap := 64, wr := 9, rd := 5, rel := 2, live := (List.range 7).map (fun i => { seq := i + 2 }) }) upState),
   ready_of (by decide +kernel), by decide +kernel, by decide +kernel, by decide +kernel⟩,
   ⟨{unit := 15, paramLen := 0, slots := 1, params := []}, upState, ready_of (by decide +kernel), by decide +kernel⟩,
   ⟨{unit := 15, paramLen := 0, slots := 1, params := []}, upState, ready_of (by decide +kernel), by decide +kernel⟩,
   ⟨{unit := 15, paramLen := 4, slots := 1, params := le 4 5}, upState, ready_of (by decide +kernel), by decide +kernel⟩⟩

theorem wit_FirmwareAndDebug :
    (∃ (c : HostCmd) (s : State), Ready specFwUpdate c s ∧ acceptsMore s ∧ (badFwUpdate c.params = none ∧ s.boot.fw = none ∧ u8 c.params 0 = 1 ∧
    (imageOf s.boot (u8 c.params 1)).valid = true)) ∧
    (∃ (c : HostCmd) (s : State), Ready specFwUpdate c s ∧ (badFwUpdate c.params = none ∧ s.boot.fw = none ∧ u8 c.params 0 = 1 ∧
    (imageOf s.boot (u8 c.params 1)).valid = false)) ∧
    (∃ (c : HostCmd) (s : State), Ready specFwUpdate c s ∧ acceptsMore s ∧ badFwUpdate c.params = none ∧ s.boot.fw = none ∧ u8 c.params 0 = 0 ∧
    c.bulkFails = 0) ∧
    (∃ (ok : Bool) (f : FwRun) (t : Nat) (s : State) (c : CmdRec), let q := tick t s; f.result = 0 ∧ s.Inv ∧ (q.boot.fw = some f ∧
    (ok || (imageOf q.boot f.slot).valid) = true ∧ (imageOf q.boot f.slot).valid = false) ∧ InProgress (f.ticket) c s) ∧
    (∃ (f : FwRun) (t : Nat) (s : State) (c : CmdRec), let q := tick t s; f.result = 0 ∧ s.Inv ∧ (q.boot.fw = some f ∧
    (imageOf q.boot f.slot).valid = true) ∧ InProgress (f.ticket) c s) ∧
    (∃ (f : FwRun) (t : Nat) (s : State) (c : CmdRec), let q := tick t s; f.result = 0 ∧ s.Inv ∧ (q.boot.fw = some f ∧
    (imageOf q.boot f.slot).valid = false) ∧ InProgress (f.ticket) c s) ∧
    (∃ (f : FwRun) (t : Nat) (s : State) (c : CmdRec), let q := tick t s; f.result ≠ 0 ∧ s.Inv ∧ q.boot.fw = some f ∧ InProgress (f.ticket) c s) ∧
    (∃ (c : HostCmd) (s : State), Ready specDebugUnlock c s ∧ u8 c.params 0 = 0) ∧
    (∃ (t : Nat) (c : HostCmd) (s : State) (v : Nat) (born : Nat), Ready specDebugUnlock c s ∧ u8 c.params 0 = 1 ∧ s.boot.authFails < 8 ∧
    s.boot.challenge = some (v, born) ∧ max s.now t < born + challengeLife) ∧
    (∃ (c : HostCmd) (s : State), Ready specDebugUnlock c s ∧ (u8 c.params 0 = 2 ∧ s.boot.unlocked = false)) ∧
    (∃ (t : Nat) (s : State), let q := tick t s; s.Inv ∧ liveChallenge q = none) ∧
    (∃ (t : Nat) (s : State), let q := tick t s; s.Inv ∧ (liveChallenge q).isSome = true) := ⟨
   ⟨{paramLen := 20, params := [1,2] ++ zeros 18}, { upState with boot := { upState.boot with slotB := { valid := true } } },
   ready_of (by decide +kernel), by unfold acceptsMore; decide +kernel, by decide +kernel⟩,
   ⟨{paramLen := 20, params := [1,2] ++ zeros 18}, upState, ready_of (by decide +kernel), by decide +kernel⟩,
   ⟨{paramLen := 20, params := [0,1,1,0, 0,16,0,0,0,0,0,0, 0,1,0,0, 0,0,0,0]}, upState, ready_of (by decide +kernel), by decide +kernel,
   by decide +kernel, by decide +kernel, by decide +kernel, by decide +kernel⟩,
   ⟨true, ({ ticket := 0, slot := 2, prefer := true, image := { version := 77 } } : FwRun), 1000,
   { ((let b : State := upState; { b with cmds := [{ ticket := 0, tag := 3, opcode := 0x0307, accepted := true }], ledger := { b.ledger with issued := [0], issuedCount := 1 }, free := 0 })) with boot := { upState.boot with fw := some ({ ticket := 0, slot := 2, prefer := true, image := { version := 77 } } : FwRun) } },
   ((cmdOf ({ ((let b : State := upState; { b with cmds := [{ ticket := 0, tag := 3, opcode := 0x0307, accepted := true }], ledger := { b.ledger with issued := [0], issuedCount := 1 }, free := 0 })) with boot := { upState.boot with fw := some ({ ticket := 0, slot := 2, prefer := true, image := { version := 77 } } : FwRun) } }) ((({ ticket := 0, slot := 2, prefer := true, image := { version := 77 } } : FwRun) : FwRun).ticket)).getD default),
   by decide +kernel, inv_of (by decide +kernel), by decide +kernel, progress_of (by decide +kernel)⟩,
   ⟨({ ticket := 0, slot := 2, prefer := true, image := { version := 77 } } : FwRun), 1000,
   { ((let b : State := upState; { b with cmds := [{ ticket := 0, tag := 3, opcode := 0x0307, accepted := true }], ledger := { b.ledger with issued := [0], issuedCount := 1 }, free := 0 })) with boot := { upState.boot with fw := some ({ ticket := 0, slot := 2, prefer := true, image := { version := 77 } } : FwRun), slotB := { valid := true } } },
   ((cmdOf ({ ((let b : State := upState; { b with cmds := [{ ticket := 0, tag := 3, opcode := 0x0307, accepted := true }], ledger := { b.ledger with issued := [0], issuedCount := 1 }, free := 0 })) with boot := { upState.boot with fw := some ({ ticket := 0, slot := 2, prefer := true, image := { version := 77 } } : FwRun), slotB := { valid := true } } }) ((({ ticket := 0, slot := 2, prefer := true, image := { version := 77 } } : FwRun) : FwRun).ticket)).getD default),
   by decide +kernel, inv_of (by decide +kernel), by decide +kernel, progress_of (by decide +kernel)⟩,
   ⟨({ ticket := 0, slot := 2, prefer := true, image := { version := 77 } } : FwRun), 1000,
   { ((let b : State := upState; { b with cmds := [{ ticket := 0, tag := 3, opcode := 0x0307, accepted := true }], ledger := { b.ledger with issued := [0], issuedCount := 1 }, free := 0 })) with boot := { upState.boot with fw := some ({ ticket := 0, slot := 2, prefer := true, image := { version := 77 } } : FwRun) } },
   ((cmdOf ({ ((let b : State := upState; { b with cmds := [{ ticket := 0, tag := 3, opcode := 0x0307, accepted := true }], ledger := { b.ledger with issued := [0], issuedCount := 1 }, free := 0 })) with boot := { upState.boot with fw := some ({ ticket := 0, slot := 2, prefer := true, image := { version := 77 } } : FwRun) } }) ((({ ticket := 0, slot := 2, prefer := true, image := { version := 77 } } : FwRun) : FwRun).ticket)).getD default),
   by decide +kernel, inv_of (by decide +kernel), by decide +kernel, progress_of (by decide +kernel)⟩,
   ⟨({ ticket := 0, slot := 2, result := 3 } : FwRun), 1000,
   { ((let b : State := upState; { b with cmds := [{ ticket := 0, tag := 3, opcode := 0x0307, accepted := true }], ledger := { b.ledger with issued := [0], issuedCount := 1 }, free := 0 })) with boot := { upState.boot with fw := some ({ ticket := 0, slot := 2, result := 3 } : FwRun) } },
   ((cmdOf ({ ((let b : State := upState; { b with cmds := [{ ticket := 0, tag := 3, opcode := 0x0307, accepted := true }], ledger := { b.ledger with issued := [0], issuedCount := 1 }, free := 0 })) with boot := { upState.boot with fw := some ({ ticket := 0, slot := 2, result := 3 } : FwRun) } }) ((({ ticket := 0, slot := 2, result := 3 } : FwRun) : FwRun).ticket)).getD default),
   by decide +kernel, inv_of (by decide +kernel), by decide +kernel, progress_of (by decide +kernel)⟩,
   ⟨{paramLen := 4, params := zeros 4}, upState, ready_of (by decide +kernel), by decide +kernel⟩,
   ⟨1000, {paramLen := 132, slots := 3, params := [1] ++ zeros 131}, { upState with boot := { upState.boot with challenge := some (9, 50) } }, 9, 50,
   ready_of (by decide +kernel), by decide +kernel, by decide +kernel, by decide +kernel, by decide +kernel⟩,
   ⟨{paramLen := 4, params := [2,0,0,0]}, upState, ready_of (by decide +kernel), by decide +kernel⟩,
   ⟨700000000000, { upState with boot := { upState.boot with challenge := some (9, 50) } }, inv_of (by decide +kernel), by decide +kernel⟩,
   ⟨1000, { upState with boot := { upState.boot with challenge := some (9, 50) } }, inv_of (by decide +kernel), by decide +kernel⟩⟩

theorem wit_DryFitAbandonAndReset :
    (∃ (c : HostCmd) (s : State), Ready specDryfit c s ∧ acceptsMore s ∧ (badDryfit c.params = none ∧ s.glue = none ∧ s.dryfitRun = none)) ∧
    (∃ (c : HostCmd) (s : State), Ready specDryfit c s ∧ (badDryfit c.params = none ∧ s.glue.isSome = true)) ∧
    (∃ (d : DryfitRun) (t : Nat) (s : State) (c : CmdRec), let q := tick t s; d.report ≠ [] ∧ s.Inv ∧ (up q ∧ q.dryfitRun = some d ∧
    (cmdOf q d.ticket).any (·.silent) = false) ∧ InProgress (d.ticket) c s) ∧
    (∃ (fails : Fails) (d : DryfitRun) (t : Nat) (s : State) (c : CmdRec), let q := tick t s; 2 ≤ fails ∧ s.Inv ∧ (up q ∧ q.dryfitRun = some d) ∧
    InProgress (d.ticket) c s) ∧
    (∃ (c : HostCmd) (s : State), Ready specAbandon c s ∧ (s.glue = none ∧ s.ring.prepared = none)) ∧
    (∃ (c : HostCmd) (s : State), Ready specAbandon c s ∧ s.glue.isSome = true) ∧
    (∃ (c : HostCmd) (s : State), Ready specResetUnit c s ∧ (u8 c.params 0 = 5 ∧ u16 c.params 2 = 0 ∧ s.gauge.trigEnabled = false ∧ s.glue = none ∧
    s.pair.role = .solo)) ∧
    (∃ (c : HostCmd) (s : State), Ready specResetUnit c s ∧ (u8 c.params 0 = 7 ∧ u16 c.params 2 < 16 ∧
    (vget s.scribe.queues (u16 c.params 2)).on = true ∧ s.glue = none ∧ s.pair.role = .solo)) ∧
    (∃ (c : HostCmd) (s : State), Ready specResetUnit c s ∧ ((u8 c.params 0 = 5 ∨ u8 c.params 0 = 6) ∧ u16 c.params 2 = 0 ∧
    s.gauge.trigEnabled = true)) ∧
    (∃ (c : HostCmd) (s : State), Ready specResetUnit c s ∧ (u8 c.params 0 = 9 ∧ u16 c.params 2 < 2 ∧
    (vget s.bench.ctl (u16 c.params 2)).state ≠ .frozen)) ∧
    (∃ (c : HostCmd) (s : State), Ready specResetUnit c s ∧ resetUnits (u8 c.params 0) = 0) := ⟨
   ⟨{unit := 0xFF, paramLen := 16, params := [0,16,0,0,0,0,0,0, 64,0,0,0, 0,0,0,0]}, upState, ready_of (by decide +kernel),
   by unfold acceptsMore; decide +kernel, by decide +kernel⟩,
   ⟨{unit := 0xFF, paramLen := 16, params := [0,16,0,0,0,0,0,0, 64,0,0,0, 0,0,0,0]}, { upState with glue := some {} }, ready_of (by decide +kernel),
   by decide +kernel⟩,
   ⟨({ ticket := 0, ref := { addr := 4096 }, gen := 5, fit := true, report := [1,2] } : DryfitRun), 1000,
   { ((let b : State := upState; { b with cmds := [{ ticket := 0, tag := 3, opcode := 0x0307, accepted := true }], ledger := { b.ledger with issued := [0], issuedCount := 1 }, free := 0 })) with dryfitRun := some ({ ticket := 0, ref := { addr := 4096 }, gen := 5, fit := true, report := [1,2] } : DryfitRun) },
   ((cmdOf ({ ((let b : State := upState; { b with cmds := [{ ticket := 0, tag := 3, opcode := 0x0307, accepted := true }], ledger := { b.ledger with issued := [0], issuedCount := 1 }, free := 0 })) with dryfitRun := some ({ ticket := 0, ref := { addr := 4096 }, gen := 5, fit := true, report := [1,2] } : DryfitRun) }) ((({ ticket := 0, ref := { addr := 4096 }, gen := 5, fit := true, report := [1,2] } : DryfitRun) : DryfitRun).ticket)).getD default),
   by decide +kernel, inv_of (by decide +kernel), by decide +kernel, progress_of (by decide +kernel)⟩,
   ⟨(2 : Fails), ({ ticket := 0, ref := { addr := 4096 }, gen := 5, fit := true, report := [1,2] } : DryfitRun), 1000,
   { ((let b : State := upState; { b with cmds := [{ ticket := 0, tag := 3, opcode := 0x0307, accepted := true }], ledger := { b.ledger with issued := [0], issuedCount := 1 }, free := 0 })) with dryfitRun := some ({ ticket := 0, ref := { addr := 4096 }, gen := 5, fit := true, report := [1,2] } : DryfitRun) },
   ((cmdOf ({ ((let b : State := upState; { b with cmds := [{ ticket := 0, tag := 3, opcode := 0x0307, accepted := true }], ledger := { b.ledger with issued := [0], issuedCount := 1 }, free := 0 })) with dryfitRun := some ({ ticket := 0, ref := { addr := 4096 }, gen := 5, fit := true, report := [1,2] } : DryfitRun) }) ((({ ticket := 0, ref := { addr := 4096 }, gen := 5, fit := true, report := [1,2] } : DryfitRun) : DryfitRun).ticket)).getD default),
   by decide +kernel, inv_of (by decide +kernel), by decide +kernel, progress_of (by decide +kernel)⟩,
   ⟨{unit := 0xFF}, { upState with staged := { upState.staged with shift := 9 } }, ready_of (by decide +kernel), by decide +kernel⟩,
   ⟨{unit := 0xFF}, { upState with glue := some {} }, ready_of (by decide +kernel), by decide +kernel⟩,
   ⟨{paramLen := 4, params := [5,0,0,0]}, { upState with faults := { upState.faults with fences := [⟨5,0,1⟩] } }, ready_of (by decide +kernel),
   by decide +kernel⟩,
   ⟨{paramLen := 4, params := [7,0,3,0]},
   (setQueue 3 (fun x => { x with on := true, wr := 40, rd := 2 }) { upState with faults := { upState.faults with fences := [⟨5,0,1⟩] } }),
   ready_of (by decide +kernel), by decide +kernel⟩,
   ⟨{paramLen := 4, params := [6,0,0,0]}, { upState with gauge := { upState.gauge with trigEnabled := true } }, ready_of (by decide +kernel),
   by decide +kernel⟩,
   ⟨{paramLen := 4, params := [9,0,1,0]}, upState, ready_of (by decide +kernel), by decide +kernel⟩,
   ⟨{paramLen := 4, params := [1,0,1,0]}, upState, ready_of (by decide +kernel), by decide +kernel⟩⟩

theorem wit_LinkCommandsBegin :
    (∃ (c : HostCmd) (s : State), Ready specLinkDiscover c s ∧ acceptsMore s ∧ ((vget (linkNow s c.unit).link c.unit).enable = true ∧
    (vget s.links.slots c.unit).state ≠ .linkTest ∧ connUp s c.unit = false ∧ (vget s.links.slots c.unit).discover = none ∧
    (vget s.links.slots c.unit).ctrl = [])) ∧
    (∃ (c : HostCmd) (s : State), Ready specLinkDiscover c s ∧
    ((vget (linkNow s c.unit).link c.unit).enable = false ∨ (vget s.links.slots c.unit).state = .linkTest)) ∧
    (∃ (c : HostCmd) (s : State), Ready specCamRead c s ∧ (badCamRead c.params = none ∧ camAllowed s c.unit = true)) ∧
    (∃ (c : HostCmd) (s : State), Ready specCamRead c s ∧ (badCamRead c.params = none ∧ camAllowed s c.unit = false)) ∧
    (∃ (c : HostCmd) (s : State), Ready specCamWrite c s ∧ (badCamWrite c.params c.paramLen = none ∧ camAllowed s c.unit = true)) ∧
    (∃ (c : HostCmd) (s : State), Ready specCamWrite c s ∧ (badCamWrite c.params c.paramLen = none ∧ camAllowed s c.unit = false)) ∧
    (∃ (c : HostCmd) (s : State), Ready specPrbsTest c s ∧ acceptsMore s ∧ (badPrbs c.unit c.params = none ∧ c.unit < 48 ∧
    rtHolder s 0x0E c.unit = none ∧ lanesSlotUp s c.unit = none)) ∧
    (∃ (c : HostCmd) (s : State), Ready specPrbsTest c s ∧ acceptsMore s ∧ (badPrbs c.unit c.params = none ∧ 48 ≤ c.unit ∧ laneTest s c.unit = none ∧
    (if (parPrbs c.params).generate then (vget (cfgNow s).through (laneConn c.unit)).outMode = 2 else (vget (cfgNow s).through (laneConn c.unit)).inMode = 0))) ∧
    (∃ (c : HostCmd) (s : State), Ready specPrbsTest c s ∧ (badPrbs c.unit c.params = none ∧ c.unit < 48 ∧ rtHolder s 0x0E c.unit = none ∧
    (lanesSlotUp s c.unit).isSome = true ∧ (parPrbs c.params).force = false)) ∧
    (∃ (c : HostCmd) (s : State), Ready specEyeScan c s ∧ acceptsMore s ∧ (badEyeScan c.params = none ∧ (c.unit < 48 →
    rtHolder s 0x0E c.unit = none ∧ (lanesSlotUp s c.unit = none ∨ u8 c.params 0 ≠ 2)) ∧ (48 ≤ c.unit → laneTest s c.unit = none))) := ⟨
   ⟨{unit := 3, tag := 7},
   (let b : State := upState; { b with running := { b.running with link := vset b.running.link 3 { (vget b.running.link 3) with enable := true, links := 2 } } }),
   ready_of (by decide +kernel), by unfold acceptsMore; decide +kernel, by decide +kernel⟩,
   ⟨{unit := 3}, upState, ready_of (by decide +kernel), by decide +kernel⟩,
   ⟨{unit := 3, paramLen := 8, params := [0,0,0,1, 8,0,0,0]}, (setSlotLink 3 (fun x => { x with state := .active }) upState),
   ready_of (by decide +kernel), by decide +kernel⟩,
   ⟨{unit := 3, paramLen := 8, params := [0,0,0,1, 8,0,0,0]}, upState, ready_of (by decide +kernel), by decide +kernel⟩,
   ⟨{unit := 3, paramLen := 12, params := [0,0,0,1, 4,0,0,0, 1,2,3,4]},
   (setSlotLink 3 (fun x => { x with state := .active, ctrl := [.bootRead] }) upState), ready_of (by decide +kernel), by decide +kernel⟩,
   ⟨{unit := 3, paramLen := 12, params := [0,0,0,1, 4,0,0,0, 1,2,3,4]}, upState, ready_of (by decide +kernel), by decide +kernel⟩,
   ⟨{unit := 3, paramLen := 20, params := [7,0,0,0, 0,0,12,0, 0,0,0,0, 1,0,0,0, 0,0,0,0]}, upState, ready_of (by decide +kernel),
   by unfold acceptsMore; decide +kernel, by decide +kernel⟩,
   ⟨{unit := 60, paramLen := 20, params := [7,0,0,0, 0,0,12,0, 0,0,0,0, 1,0,0,0, 0,0,0,0]}, upState, ready_of (by decide +kernel),
   by unfold acceptsMore; decide +kernel, by decide +kernel⟩,
   ⟨{unit := 6, paramLen := 20, params := [7,0,0,0, 0,0,12,0, 0,0,0,0, 1,0,0,0, 0,0,0,0]},
   (setSlotLink 3 (fun x => { x with state := .active }) (let b : State := upState; { b with running := { b.running with link := vset b.running.link 3 { (vget b.running.link 3) with enable := true, links := 2 } } })),
   ready_of (by decide +kernel), by decide +kernel⟩,
   ⟨{unit := 6, paramLen := 20, params := zeros 20}, upState, ready_of (by decide +kernel), by unfold acceptsMore; decide +kernel, by decide +kernel⟩⟩

theorem wit_PocxpSwitches :
    (∃ (c : HostCmd) (s : State), Ready specPocxpSwitch c s ∧ (u8 c.params 0 = 0 ∧ s.links.detectQueue.filter (· ≠ c.unit) = [])) ∧
    (∃ (c : HostCmd) (s : State), Ready specPocxpSwitch c s ∧ ((u8 c.params 0 = 1 ∧ (vget s.links.pocxp c.unit).state ≠ .fault ∨ u8 c.params 0 = 2) ∧
    s.links.vcamLow = true)) ∧
    (∃ (c : HostCmd) (s : State), Ready specPocxpSwitch c s ∧ (u8 c.params 0 = 1 ∧ (vget s.links.pocxp c.unit).state = .off ∧
    s.links.vcamLow = false ∧ s.links.detectQueue = [] ∧ (∀ i : Nat, i < 24 → (vget s.links.pocxp i).state ≠ .detecting) ∧
    (∀ o ∈ s.links.lastSwitchOn, o + 10000000 ≤ s.now))) ∧
    (∃ (c : HostCmd) (s : State), Ready specPocxpSwitch c s ∧ (u8 c.params 0 = 1 ∧ (vget s.links.pocxp c.unit).state = .fault)) ∧
    (∃ (slot : Nat) (t : Nat) (s : State), let q := tick t s; s.Inv ∧ (vget q.links.pocxp slot).state = .detecting) ∧
    (∃ (slot : Nat) (t : Nat) (s : State), let q := tick t s; s.Inv ∧ (up q ∧ (vget q.links.pocxp slot).state = .detecting ∧
    q.links.detectQueue = [])) ∧
    (∃ (slot : Nat) (ma : Nat) (t : Nat) (s : State), let q := tick t s; 650 < ma ∧ s.Inv ∧ (up q ∧ (vget q.links.pocxp slot).state = .on ∧
    (∀ f ∈ (vget q.links.pocxp slot).firstTrip, f + 10000000000 < q.now))) ∧
    (∃ (slot : Nat) (ma : Nat) (f : _) (t : Nat) (s : State), let q := tick t s; 650 < ma ∧ s.Inv ∧ (up q ∧ (vget q.links.pocxp slot).state = .on ∧
    (vget q.links.pocxp slot).firstTrip = some f ∧ q.now ≤ f + 10000000000)) ∧
    (∃ (slot : Nat) (t : Nat) (s : State), let q := tick t s; s.Inv ∧ ((vget q.links.pocxp slot).state = .retryWait ∧
    (vget q.links.pocxp slot).trippedAt + 1000000000 ≤ q.now)) ∧
    (∃ (slot : _) (rest : _) (t : Nat) (s : State), let q := tick t s; s.Inv ∧ (q.links.detectQueue = slot :: rest ∧ detectFree q = true)) ∧
    (∃ (s : State), s.Inv ∧ up s ∧ s.links.vcamLow = false) ∧
    (∃ (s : State), s.Inv ∧ s.links.vcamLow = true ∧ ((∀ i : Nat, i < 24 → (vget s.links.pocxp i).mode1 = false))) := ⟨
   ⟨{unit := 6, paramLen := 4, params := zeros 4}, upState, ready_of (by decide +kernel), by decide +kernel⟩,
   ⟨{unit := 6, paramLen := 4, params := [2,0,0,0]}, { upState with links := { upState.links with vcamLow := true } }, ready_of (by decide +kernel),
   by decide +kernel⟩,
   ⟨{unit := 6, paramLen := 4, params := [1,0,0,0]}, upState, ready_of (by decide +kernel), by decide +kernel⟩,
   ⟨{unit := 6, paramLen := 4, params := [1,0,0,0]}, (setPocxp 6 (fun x => { x with state := .fault }) upState), ready_of (by decide +kernel),
   by decide +kernel⟩,
   ⟨6, 1000, (setPocxp 6 (fun x => { x with state := .detecting }) upState), inv_of (by decide +kernel), by decide +kernel⟩,
   ⟨6, 1000, (setPocxp 6 (fun x => { x with state := .detecting }) upState), inv_of (by decide +kernel), by decide +kernel⟩,
   ⟨6, 651, 1000, (setPocxp 6 (fun x => { x with state := .on }) upState), by decide +kernel, inv_of (by decide +kernel), by decide +kernel⟩,
   ⟨6, 651, 3, 1000, (setPocxp 6 (fun x => { x with state := .on, firstTrip := some 3 }) upState), by decide +kernel, inv_of (by decide +kernel),
   by decide +kernel⟩,
   ⟨6, 1000000003, (setPocxp 6 (fun x => { x with state := .retryWait, trippedAt := 3 }) upState), inv_of (by decide +kernel), by decide +kernel⟩,
   ⟨5, [7], 1000, { upState with links := { upState.links with detectQueue := [5, 7] } }, inv_of (by decide +kernel), by decide +kernel⟩,
   ⟨(setPocxp 6 (fun x => { x with state := .fault }) upState), inv_of (by decide +kernel), by decide +kernel, by decide +kernel⟩,
   ⟨{ (setPocxp 6 (fun x => { x with state := .vcamLow }) upState) with links := { (setPocxp 6 (fun x => { x with state := .vcamLow }) upState).links with vcamLow := true } },
   inv_of (by decide +kernel), by decide +kernel, by decide +kernel⟩⟩

theorem wit_ConnectionStates :
    (∃ (link : Nat) (t : Nat) (s : State), let q := tick t s; 48 ≤ link ∧ s.Inv ∧ up (q)) ∧
    (∃ (link : Nat) (slot : _) (t : Nat) (s : State), let q := tick t s; link < 48 ∧ s.Inv ∧ (up q ∧ slotOfLink q link = some slot ∧
    link = masterLink slot ∧ (vget q.links.slots slot).state = .search ∧ Calm slot q)) ∧
    (∃ (link : Nat) (slot : _) (t : Nat) (s : State), let q := tick t s; link < 48 ∧ s.Inv ∧ (up q ∧ slotOfLink q link = some slot ∧
    (vget q.links.slots slot).state = .stepUp ∧ (∀ l ∈ usedLinks q slot, l ≠ link → laneLocked l q = true))) ∧
    (∃ (link : Nat) (t : Nat) (s : State), let q := tick t s; link < 48 ∧ s.Inv ∧ (up q ∧ laneLocked link q = true ∧ slotOfLink q link = none)) ∧
    (∃ (link : Nat) (slot : _) (t : Nat) (s : State), let q := tick t s; link < 48 ∧ s.Inv ∧ (up q ∧ laneLocked link q = true ∧
    slotOfLink q link = some slot ∧ connUp q slot = true ∧ Calm slot q)) ∧
    (∃ (link : Nat) (n : Nat) (slot : _) (t : Nat) (s : State), let q := tick t s; link < 48 ∧ 64 < n ∧ s.Inv ∧ (up q ∧
    slotOfLink q link = some slot ∧ connUp q slot = true ∧ Calm slot q)) ∧
    (∃ (slot : Nat) (t : Nat) (s : State), let q := tick t s; s.Inv ∧ (up q ∧ (vget q.links.slots slot).state = .search ∧ Calm slot q ∧
    (vget q.links.slots slot).since + (vget (linkNow q slot).link slot).discoverTimeout * 1000000 ≤ q.now)) ∧
    (∃ (slot : Nat) (t : Nat) (s : State), let q := tick t s; slot < 24 ∧ s.Inv ∧ (up q ∧ (vget q.links.slots slot).state = .stepUp ∧
    (vget q.links.slots slot).repeated = true ∧ (vget q.links.slots slot).tryRate = 1 ∧ Calm slot q ∧
    (vget q.links.slots slot).since + 200000000 ≤ q.now)) ∧
    (∃ (slot : Nat) (t : Nat) (s : State), let q := tick t s; slot < 24 ∧ s.Inv ∧ (up q ∧ (vget q.links.slots slot).state = .stepUp ∧
    (vget q.links.slots slot).repeated = false ∧ (vget q.links.slots slot).tryRate = 25 ∧ Calm slot q ∧
    (vget q.links.slots slot).since + 200000000 ≤ q.now)) ∧
    (∃ (slot : Nat) (t : Nat) (s : State), let q := tick t s; s.Inv ∧ (up q ∧ (vget q.links.slots slot).state = .adapt ∧ slot < 24)) ∧
    (∃ (slot : Nat) (t : Nat) (s : State), let q := tick t s; s.Inv ∧ (up q ∧ (vget q.links.slots slot).state = .testConn ∧ Calm slot q ∧ slot < 24)) ∧
    (∃ (slot : Nat) (t : Nat) (s : State), let q := tick t s; s.Inv ∧ (up q ∧ (vget q.links.slots slot).state = .error ∧ Calm slot q ∧
    (vget (linkNow q slot).link slot).autoRecover = true ∧
    (vget q.links.slots slot).since + (vget (linkNow q slot).link slot).retryDelay * 1000000 ≤ q.now)) ∧
    (∃ (slot : Nat) (t : Nat) (s : State), let q := tick t s; s.Inv ∧ (up q ∧ connUp q slot = true ∧ Calm slot q ∧
    (vget (linkNow q slot).link slot).heartbeatTimeout ≠ 0 ∧
    (vget q.links.slots slot).lastBeat + (vget (linkNow q slot).link slot).heartbeatTimeout * 1000000 ≤ q.now)) ∧
    (∃ (t : Nat) (s : State), let q := tick t s; s.Inv ∧ up (q)) ∧
    (∃ (t : Nat) (s : State), let q := tick t s; s.Inv ∧ up (q)) := ⟨
   ⟨48, 1000, upState, by decide +kernel, inv_of (by decide +kernel), by decide +kernel⟩,
   ⟨6, 3, 1000,
   (setSlotLink 3 (fun x => { x with state := .search }) (let b : State := upState; { b with running := { b.running with link := vset b.running.link 3 { (vget b.running.link 3) with enable := true, links := 2 } } })),
   by decide +kernel, inv_of (by decide +kernel), by decide +kernel⟩,
   ⟨6, 3, 1000,
   (setSlotLink 3 (fun x => { x with state := .stepUp, links := 2, tryRate := 5 }) (setLane 7 (fun l => { l with locked := true }) (let b : State := upState; { b with running := { b.running with link := vset b.running.link 3 { (vget b.running.link 3) with enable := true, links := 2 } } }))),
   by decide +kernel, inv_of (by decide +kernel), by decide +kernel⟩,
   ⟨6, 1000, (setLane 6 (fun l => { l with locked := true }) upState), by decide +kernel, inv_of (by decide +kernel), by decide +kernel⟩,
   ⟨6, 3, 1000,
   (setSlotLink 3 (fun x => { x with state := .active }) (setLane 6 (fun l => { l with locked := true }) (let b : State := upState; { b with running := { b.running with link := vset b.running.link 3 { (vget b.running.link 3) with enable := true, links := 2 } } }))),
   by decide +kernel, inv_of (by decide +kernel), by decide +kernel⟩,
   ⟨6, 65, 3, 1000,
   (setSlotLink 3 (fun x => { x with state := .degraded }) (setLane 6 (fun l => { l with locked := true }) (let b : State := upState; { b with running := { b.running with link := vset b.running.link 3 { (vget b.running.link 3) with enable := true, links := 2 } } }))),
   by decide +kernel, by decide +kernel, inv_of (by decide +kernel), by decide +kernel⟩,
   ⟨3, 1000000000000,
   (setSlotLink 3 (fun x => { x with state := .search, since := 5 }) (let b : State := upState; { b with running := { b.running with link := vset b.running.link 3 { (vget b.running.link 3) with enable := true, links := 2 } } })),
   inv_of (by decide +kernel), by decide +kernel⟩,
   ⟨3, 1000000000000,
   (setSlotLink 3 (fun x => { x with state := .stepUp, since := 5, repeated := true, tryRate := 1 }) (let b : State := upState; { b with running := { b.running with link := vset b.running.link 3 { (vget b.running.link 3) with enable := true, links := 2 } } })),
   by decide +kernel, inv_of (by decide +kernel), by decide +kernel⟩,
   ⟨3, 1000000000000,
   (setSlotLink 3 (fun x => { x with state := .stepUp, since := 5, tryRate := 25 }) (let b : State := upState; { b with running := { b.running with link := vset b.running.link 3 { (vget b.running.link 3) with enable := true, links := 2 } } })),
   by decide +kernel, inv_of (by decide +kernel), by decide +kernel⟩,
   ⟨3, 1000,
   (setSlotLink 3 (fun x => { x with state := .adapt, links := 2 }) (let b : State := upState; { b with running := { b.running with link := vset b.running.link 3 { (vget b.running.link 3) with enable := true, links := 2 } } })),
   inv_of (by decide +kernel), by decide +kernel⟩,
   ⟨3, 1000,
   (setSlotLink 3 (fun x => { x with state := .testConn, rate := 12 }) (let b : State := upState; { b with running := { b.running with link := vset b.running.link 3 { (vget b.running.link 3) with enable := true, links := 2 } } })),
   inv_of (by decide +kernel), by decide +kernel⟩,
   ⟨3, 1000000000000,
   (setSlotLink 3 (fun x => { x with state := .error }) (let b : State := upState; { b with running := { b.running with link := vset b.running.link 3 { (vget b.running.link 3) with enable := true, autoRecover := true, links := 2 } } })),
   inv_of (by decide +kernel), by decide +kernel⟩,
   ⟨3, 1000000000000,
   (setSlotLink 3 (fun x => { x with state := .active }) (let b : State := upState; { b with running := { b.running with link := vset b.running.link 3 { (vget b.running.link 3) with enable := true, links := 2, heartbeatTimeout := 5 } } })),
   inv_of (by decide +kernel), by decide +kernel⟩,
   ⟨1000, upState, inv_of (by decide +kernel), by decide +kernel⟩,
   ⟨1000, upState, inv_of (by decide +kernel), by decide +kernel⟩⟩

theorem wit_LinkCommandsEnd :
    (∃ (lane : Nat) (run : PrbsRun) (t : Nat) (s : State) (c : CmdRec), let q := tick t s; s.Inv ∧ (up q ∧
    q.links.prbs.find? (fun r => decide (r.lane = lane)) = some run ∧ ∀ slot ∈ slotOfLink q lane, (vget q.links.slots slot).state ≠ .linkTest) ∧
    InProgress (run.ticket) c s) ∧
    (∃ (lane : Nat) (run : EyeRun) (t : Nat) (s : State) (c : CmdRec), let q := tick t s; run.mode = 0 ∧ s.Inv ∧ (up q ∧
    q.links.eye.find? (fun r => decide (r.lane = lane)) = some run) ∧ InProgress (run.ticket) c s) ∧
    (∃ (lane : Nat) (run : EyeRun) (t : Nat) (s : State) (c : CmdRec), let q := tick t s; run.mode = 1 ∧ s.Inv ∧ (up q ∧
    q.links.eye.find? (fun r => decide (r.lane = lane)) = some run ∧ (cmdOf q run.ticket).any (·.silent) = false) ∧ InProgress (run.ticket) c s) ∧
    (∃ (lane : Nat) (fails : _) (run : EyeRun) (t : Nat) (s : State) (c : CmdRec), let q := tick t s; run.mode = 1 ∧ 2 ≤ fails ∧ s.Inv ∧ (up q ∧
    q.links.eye.find? (fun r => decide (r.lane = lane)) = some run) ∧ InProgress (run.ticket) c s) ∧
    (∃ (lane : Nat) (run : EyeRun) (t : Nat) (s : State) (c : CmdRec), let q := tick t s; run.mode = 2 ∧ s.Inv ∧ (up q ∧
    q.links.eye.find? (fun r => decide (r.lane = lane)) = some run) ∧ InProgress (run.ticket) c s) ∧
    (∃ (slot : Nat) (w : _) (addr : _) (len : _) (t : Nat) (s : State) (c : CmdRec), let q := tick t s; s.Inv ∧ (up q ∧ slot < 24 ∧
    (vget q.links.slots slot).ctrl = [.camRead w addr len] ∧ (vget q.links.slots slot).ctrlRetried = false) ∧ InProgress (w) c s) ∧
    (∃ (slot : Nat) (w : _) (addr : _) (todo : _) (n : _) (t : Nat) (s : State) (c : CmdRec), let q := tick t s; todo.length ≤ 256 ∧ s.Inv ∧ (up q ∧
    slot < 24 ∧ (vget q.links.slots slot).ctrl = [.camWrite w addr todo n] ∧ (vget q.links.slots slot).ctrlRetried = false) ∧ InProgress (w) c s) ∧
    (∃ (slot : Nat) (t : Nat) (s : State), let q := tick t s; s.Inv ∧ (up q ∧ (vget q.links.slots slot).ctrl ≠ [])) ∧
    (∃ (slot : Nat) (x : _) (rest : _) (t : Nat) (s : State), let q := tick t s; s.Inv ∧ (up q ∧ isPassive q = false ∧ slot < 24 ∧
    (vget q.links.slots slot).ctrl = x :: rest ∧ (vget q.links.slots slot).ctrlDeadline ≤ q.now ∧ (vget q.links.slots slot).ctrlRetried = false)) ∧
    (∃ (slot : Nat) (w : _) (addr : _) (len : _) (t : Nat) (s : State) (c : CmdRec), let q := tick t s; s.Inv ∧ (up q ∧ slot < 24 ∧
    (vget q.links.slots slot).ctrl = [.camRead w addr len] ∧ (vget q.links.slots slot).ctrlDeadline ≤ q.now ∧
    (vget q.links.slots slot).ctrlRetried = true) ∧ InProgress (w) c s) := ⟨
   ⟨6, { lane := 6, ticket := 0 }, 1000,
   (let b : State := upState; { b with cmds := [{ ticket := 0, tag := 3, opcode := 0x0307, accepted := true }], ledger := { b.ledger with issued := [0], issuedCount := 1 }, links := { b.links with prbs := [{ lane := 6, ticket := 0 }] }, claims := [⟨0x0E, 6, 0x0307, 6⟩] }),
   ((cmdOf ((let b : State := upState; { b with cmds := [{ ticket := 0, tag := 3, opcode := 0x0307, accepted := true }], ledger := { b.ledger with issued := [0], issuedCount := 1 }, links := { b.links with prbs := [{ lane := 6, ticket := 0 }] }, claims := [⟨0x0E, 6, 0x0307, 6⟩] })) (({ lane := 6, ticket := 0 } : PrbsRun).ticket)).getD default),
   inv_of (by decide +kernel), by decide +kernel, progress_of (by decide +kernel)⟩,
   ⟨6, { lane := 6, mode := 0, ticket := 0, ref := { addr := 4096, length := 4096 } }, 1000,
   (let b : State := upState; { b with cmds := [{ ticket := 0, tag := 3, opcode := 0x0307, accepted := true }], ledger := { b.ledger with issued := [0], issuedCount := 1 }, links := { b.links with eye := [{ lane := 6, mode := 0, ticket := 0, ref := { addr := 4096, length := 4096 } }] }, claims := [⟨0x0E, 6, 0x0308, 6⟩] }),
   ((cmdOf ((let b : State := upState; { b with cmds := [{ ticket := 0, tag := 3, opcode := 0x0307, accepted := true }], ledger := { b.ledger with issued := [0], issuedCount := 1 }, links := { b.links with eye := [{ lane := 6, mode := 0, ticket := 0, ref := { addr := 4096, length := 4096 } }] }, claims := [⟨0x0E, 6, 0x0308, 6⟩] })) (({ lane := 6, mode := 0, ticket := 0, ref := { addr := 4096, length := 4096 } } : EyeRun).ticket)).getD default),
   by decide +kernel, inv_of (by decide +kernel), by decide +kernel, progress_of (by decide +kernel)⟩,
   ⟨6, { lane := 6, mode := 1, ticket := 0, ref := { addr := 4096, length := 4096 } }, 1000,
   (let b : State := upState; { b with cmds := [{ ticket := 0, tag := 3, opcode := 0x0307, accepted := true }], ledger := { b.ledger with issued := [0], issuedCount := 1 }, links := { b.links with eye := [{ lane := 6, mode := 1, ticket := 0, ref := { addr := 4096, length := 4096 } }] }, claims := [⟨0x0E, 6, 0x0308, 6⟩] }),
   ((cmdOf ((let b : State := upState; { b with cmds := [{ ticket := 0, tag := 3, opcode := 0x0307, accepted := true }], ledger := { b.ledger with issued := [0], issuedCount := 1 }, links := { b.links with eye := [{ lane := 6, mode := 1, ticket := 0, ref := { addr := 4096, length := 4096 } }] }, claims := [⟨0x0E, 6, 0x0308, 6⟩] })) (({ lane := 6, mode := 1, ticket := 0, ref := { addr := 4096, length := 4096 } } : EyeRun).ticket)).getD default),
   by decide +kernel, inv_of (by decide +kernel), by decide +kernel, progress_of (by decide +kernel)⟩,
   ⟨6, (2 : Fails), { lane := 6, mode := 1, ticket := 0, ref := { addr := 4096, length := 4096 } }, 1000,
   (let b : State := upState; { b with cmds := [{ ticket := 0, tag := 3, opcode := 0x0307, accepted := true }], ledger := { b.ledger with issued := [0], issuedCount := 1 }, links := { b.links with eye := [{ lane := 6, mode := 1, ticket := 0, ref := { addr := 4096, length := 4096 } }] }, claims := [⟨0x0E, 6, 0x0308, 6⟩] }),
   ((cmdOf ((let b : State := upState; { b with cmds := [{ ticket := 0, tag := 3, opcode := 0x0307, accepted := true }], ledger := { b.ledger with issued := [0], issuedCount := 1 }, links := { b.links with eye := [{ lane := 6, mode := 1, ticket := 0, ref := { addr := 4096, length := 4096 } }] }, claims := [⟨0x0E, 6, 0x0308, 6⟩] })) (({ lane := 6, mode := 1, ticket := 0, ref := { addr := 4096, length := 4096 } } : EyeRun).ticket)).getD default),
   by decide +kernel, by decide +kernel, inv_of (by decide +kernel), by decide +kernel, progress_of (by decide +kernel)⟩,
   ⟨6, { lane := 6, mode := 2, ticket := 0, ref := { addr := 4096, length := 4096 } }, 1000,
   (let b : State := upState; { b with cmds := [{ ticket := 0, tag := 3, opcode := 0x0307, accepted := true }], ledger := { b.ledger with issued := [0], issuedCount := 1 }, links := { b.links with eye := [{ lane := 6, mode := 2, ticket := 0, ref := { addr := 4096, length := 4096 } }] }, claims := [⟨0x0E, 6, 0x0308, 6⟩] }),
   ((cmdOf ((let b : State := upState; { b with cmds := [{ ticket := 0, tag := 3, opcode := 0x0307, accepted := true }], ledger := { b.ledger with issued := [0], issuedCount := 1 }, links := { b.links with eye := [{ lane := 6, mode := 2, ticket := 0, ref := { addr := 4096, length := 4096 } }] }, claims := [⟨0x0E, 6, 0x0308, 6⟩] })) (({ lane := 6, mode := 2, ticket := 0, ref := { addr := 4096, length := 4096 } } : EyeRun).ticket)).getD default),
   by decide +kernel, inv_of (by decide +kernel), by decide +kernel, progress_of (by decide +kernel)⟩,
   ⟨3, 0, 4, 4, 1000,
   (setSlotLink 3 (fun x => { x with ctrl := [.camRead 0 4 4] }) (let b : State := upState; { b with cmds := [{ ticket := 0, tag := 3, opcode := 0x0307, accepted := true }], ledger := { b.ledger with issued := [0], issuedCount := 1 }, free := 0 })),
   ((cmdOf ((setSlotLink 3 (fun x => { x with ctrl := [.camRead 0 4 4] }) (let b : State := upState; { b with cmds := [{ ticket := 0, tag := 3, opcode := 0x0307, accepted := true }], ledger := { b.ledger with issued := [0], issuedCount := 1 }, free := 0 }))) ((0))).getD default),
   inv_of (by decide +kernel), by decide +kernel, progress_of (by decide +kernel)⟩,
   ⟨3, 0, 4, ([1,2,3,4] : Bytes), 0, 1000,
   (setSlotLink 3 (fun x => { x with ctrl := [.camWrite 0 4 [1,2,3,4] 0] }) (let b : State := upState; { b with cmds := [{ ticket := 0, tag := 3, opcode := 0x0307, accepted := true }], ledger := { b.ledger with issued := [0], issuedCount := 1 }, free := 0 })),
   ((cmdOf ((setSlotLink 3 (fun x => { x with ctrl := [.camWrite 0 4 [1,2,3,4] 0] }) (let b : State := upState; { b with cmds := [{ ticket := 0, tag := 3, opcode := 0x0307, accepted := true }], ledger := { b.ledger with issued := [0], issuedCount := 1 }, free := 0 }))) ((0))).getD default),
   by decide +kernel, inv_of (by decide +kernel), by decide +kernel, progress_of (by decide +kernel)⟩,
   ⟨3, 1000, (setSlotLink 3 (fun x => { x with ctrl := [.bootRead], ctrlLatest := 5000 }) upState), inv_of (by decide +kernel), by decide +kernel⟩,
   ⟨3, CtrlTxn.bootRead, ([] : List CtrlTxn), 1000, (setSlotLink 3 (fun x => { x with ctrl := [.bootRead] }) upState), inv_of (by decide +kernel),
   by decide +kernel⟩,
   ⟨3, 0, 4, 4, 1000,
   (setSlotLink 3 (fun x => { x with ctrl := [.camRead 0 4 4], ctrlRetried := true }) (let b : State := upState; { b with cmds := [{ ticket := 0, tag := 3, opcode := 0x0307, accepted := true }], ledger := { b.ledger with issued := [0], issuedCount := 1 }, free := 0 })),
   ((cmdOf ((setSlotLink 3 (fun x => { x with ctrl := [.camRead 0 4 4], ctrlRetried := true }) (let b : State := upState; { b with cmds := [{ ticket := 0, tag := 3, opcode := 0x0307, accepted := true }], ledger := { b.ledger with issued := [0], issuedCount := 1 }, free := 0 }))) ((0))).getD default),
   inv_of (by decide +kernel), by decide +kernel, progress_of (by decide +kernel)⟩⟩

theorem wit_PacketsLanesAndRelay :
    (∃ (slot : Nat) (t : Nat) (s : State), let q := tick t s; s.Inv ∧ (up q ∧ connUp q slot = false)) ∧
    (∃ (slot : Nat) (pkt : StreamPkt) (t : Nat) (s : State), let q := tick t s; pkt.crcOk = false ∧ s.Inv ∧ (up q ∧ connUp q slot = true ∧
    q.links.eye = [])) ∧
    (∃ (slot : Nat) (pkt : StreamPkt) (t : Nat) (s : State), let q := tick t s; pkt.crcOk = true ∧ s.Inv ∧ (up q ∧ connUp q slot = true ∧
    q.links.eye = [] ∧ pkt.streamId ≠ (vget (linkNow q slot).link slot).streamId)) ∧
    (∃ (slot : Nat) (n : _) (pkt : StreamPkt) (t : Nat) (s : State), let q := tick t s; pkt.crcOk = true ∧ s.Inv ∧ (up q ∧ connUp q slot = true ∧
    q.links.eye = [] ∧ pkt.streamId = (vget (linkNow q slot).link slot).streamId ∧ (vget q.links.slots slot).stream.nextTag = some n ∧
    128 ≤ tagAhead (pkt.tag % 256) n)) ∧
    (∃ (slot : Nat) (n : _) (pkt : StreamPkt) (t : Nat) (s : State), let q := tick t s; pkt.crcOk = true ∧ slot < 24 ∧ s.Inv ∧ (up q ∧
    connUp q slot = true ∧ q.links.eye = [] ∧ pkt.streamId = (vget (linkNow q slot).link slot).streamId ∧
    (vget q.links.slots slot).stream.nextTag = some n ∧ 0 < tagAhead (pkt.tag % 256) n ∧ tagAhead (pkt.tag % 256) n < 16 ∧
    (vget q.links.slots slot).stream.window = [] ∧ n < 256)) ∧
    (∃ (slot : Nat) (n : _) (pkt : StreamPkt) (t : Nat) (s : State), let q := tick t s; pkt.crcOk = true ∧ slot < 24 ∧ s.Inv ∧ (up q ∧
    connUp q slot = true ∧ q.links.eye = [] ∧ pkt.streamId = (vget (linkNow q slot).link slot).streamId ∧
    (vget q.links.slots slot).stream.nextTag = some n ∧ pkt.tag % 256 = n ∧ pkt.header = none ∧ pkt.first = false ∧ pkt.last = false ∧
    (vget q.links.slots slot).stream.window = [] ∧ (vget q.links.slots slot).stream.lineStart.isSome = true)) ∧
    (∃ (slot : Nat) (t : Nat) (s : State), let q := tick t s; slot < 24 ∧ s.Inv ∧ (up q ∧ (vget (linkNow q slot).link slot).eventQueue = none)) ∧
    (∃ (slot : Nat) (q : _) (line : Nat) (t : Nat) (s : State), let z := tick t s; slot < 24 ∧ s.Inv ∧ (up z ∧
    (vget (linkNow z slot).link slot).eventQueue = some q ∧ vget z.scribe.slotLine slot = some line)) ∧
    (∃ (slot : Nat) (q : _) (t : Nat) (s : State), let z := tick t s; slot < 24 ∧ s.Inv ∧ (up z ∧
    (vget (linkNow z slot).link slot).eventQueue = some q ∧ vget z.scribe.slotLine slot = none)) ∧
    (∃ (lane : Nat) (steps : Nat) (t : Nat) (s : State), let q := tick t s; lane < 96 ∧ s.Inv ∧ (up q ∧ eyeWidth steps < laneQualWarn q lane ∧
    (vget q.links.lanes lane).warned = false)) ∧
    (∃ (lane : Nat) (steps : Nat) (t : Nat) (s : State), let q := tick t s; lane < 96 ∧ s.Inv ∧ (eyeWidth steps < laneQualWarn q lane ∧
    (vget q.links.lanes lane).warned = true ∨ laneQualWarn q lane ≤ eyeWidth steps ∧ eyeWidth steps ≤ laneQualWarn q lane + 50)) ∧
    (∃ (lane : Nat) (steps : Nat) (t : Nat) (s : State), let q := tick t s; lane < 96 ∧ s.Inv ∧ laneQualWarn q lane + 50 < eyeWidth steps) ∧
    (∃ (conn : Nat) (lane : Nat) (t : Nat) (s : State), let q := tick t s; conn < 2 ∧ lane < 24 ∧ s.Inv ∧ (up q ∧
    laneLocked (48 + 24 * conn + lane) q = true)) ∧
    (∃ (conn : Nat) (ch : _) (t : Nat) (s : State), let q := tick t s; conn < 2 ∧ ch ≠ 0x13C ∧ s.Inv ∧ (vget q.links.through conn).relaySource = true) ∧
    (∃ (conn : Nat) (s : State), conn < 2 ∧ s.Inv) := ⟨
   ⟨3, 1000, upState, inv_of (by decide +kernel), by decide +kernel⟩,
   ⟨3, ({crcOk := false, link := 7} : StreamPkt), 1000,
   (setSlotLink 3 (fun x => { x with state := .active, stream := { nextTag := some 9 } }) (let b : State := upState; { b with running := { b.running with link := vset b.running.link 3 { (vget b.running.link 3) with enable := true, links := 2 } } })),
   by decide +kernel, inv_of (by decide +kernel), by decide +kernel⟩,
   ⟨3, ({streamId := 9} : StreamPkt), 1000,
   (setSlotLink 3 (fun x => { x with state := .active, stream := { nextTag := some 9 } }) (let b : State := upState; { b with running := { b.running with link := vset b.running.link 3 { (vget b.running.link 3) with enable := true, links := 2 } } })),
   by decide +kernel, inv_of (by decide +kernel), by decide +kernel⟩,
   ⟨3, 9, ({tag := 3} : StreamPkt), 1000,
   (setSlotLink 3 (fun x => { x with state := .active, stream := { nextTag := some 9 } }) (let b : State := upState; { b with running := { b.running with link := vset b.running.link 3 { (vget b.running.link 3) with enable := true, links := 2 } } })),
   by decide +kernel, inv_of (by decide +kernel), by decide +kernel⟩,
   ⟨3, 9, ({tag := 11, data := [1]} : StreamPkt), 1000,
   (setSlotLink 3 (fun x => { x with state := .active, stream := { nextTag := some 9 } }) (let b : State := upState; { b with running := { b.running with link := vset b.running.link 3 { (vget b.running.link 3) with enable := true, links := 2 } } })),
   by decide +kernel, by decide +kernel, inv_of (by decide +kernel), by decide +kernel⟩,
   ⟨3, 9, ({tag := 9, data := [1]} : StreamPkt), 1000,
   (setSlotLink 3 (fun x => { x with state := .active, stream := { nextTag := some 9, lineStart := some 4, lineData := [5] } }) (let b : State := upState; { b with running := { b.running with link := vset b.running.link 3 { (vget b.running.link 3) with enable := true, links := 2 } } })),
   by decide +kernel, by decide +kernel, inv_of (by decide +kernel), by decide +kernel⟩,
   ⟨3, 1000,
   (let b : State := upState; { b with running := { b.running with link := vset b.running.link 3 { (vget b.running.link 3) with enable := true, links := 2 } } }),
   by decide +kernel, inv_of (by decide +kernel), by decide +kernel⟩,
   ⟨3, 4, 700, 1000,
   (let b : State := (let b : State := upState; { b with running := { b.running with link := vset b.running.link 3 { (vget b.running.link 3) with enable := true, links := 2, eventQueue := some 4 } } }); { b with scribe := { b.scribe with slotLine := vset b.scribe.slotLine 3 (some 700) } }),
   by decide +kernel, inv_of (by decide +kernel), by decide +kernel⟩,
   ⟨3, 4, 1000,
   (let b : State := upState; { b with running := { b.running with link := vset b.running.link 3 { (vget b.running.link 3) with enable := true, links := 2, eventQueue := some 4 } } }),
   by decide +kernel, inv_of (by decide +kernel), by decide +kernel⟩,
   ⟨6, 10, 1000,
   (let b : State := upState; { b with running := { b.running with link := vset b.running.link 3 { (vget b.running.link 3) with enable := true, links := 2, qualWarn := 400 } } }),
   by decide +kernel, inv_of (by decide +kernel), by decide +kernel⟩,
   ⟨6, 10, 1000,
   (setLane 6 (fun l => { l with warned := true }) (let b : State := upState; { b with running := { b.running with link := vset b.running.link 3 { (vget b.running.link 3) with enable := true, links := 2, qualWarn := 400 } } })),
   by decide +kernel, inv_of (by decide +kernel), by decide +kernel⟩,
   ⟨6, 40, 1000,
   (setLane 6 (fun l => { l with warned := true }) (let b : State := upState; { b with running := { b.running with link := vset b.running.link 3 { (vget b.running.link 3) with enable := true, links := 2, qualWarn := 400 } } })),
   by decide +kernel, inv_of (by decide +kernel), by decide +kernel⟩,
   ⟨1, 5, 1000, (setLane 77 (fun l => { l with locked := true }) upState), by decide +kernel, by decide +kernel, inv_of (by decide +kernel),
   by decide +kernel⟩,
   ⟨1, 5, 1000, (setThrough 1 (fun x => { x with relaySource := true, relayDelay := some 40 }) upState), by decide +kernel, by decide +kernel,
   inv_of (by decide +kernel), by decide +kernel⟩,
   ⟨1, upState, by decide +kernel, inv_of (by decide +kernel)⟩⟩

theorem wit_EncodersCount :
    (∃ (e : Nat) (t : Nat) (s : State), let q := tick t s; e < 6 ∧ s.Inv ∧ (vget (cfgNow q).enc e).role = 0) ∧
    (∃ (e : Nat) (a : Bool) (b : Bool) (forward : _) (t : Nat) (s : State), let q := tick t s; e < 6 ∧ s.Inv ∧ ((vget (cfgNow q).enc e).role = 3 ∧
    q.faults.injections = [] ∧ noGearing q ∧ webEnc q ≠ some e ∧
    quadrature (vget q.gauge.enc e).levelA (vget q.gauge.enc e).levelB a b (vget (cfgNow q).enc e).sense = some forward ∧
    (vget q.gauge.enc e).held = none ∧ ((vget q.gauge.enc e).dir = none ∨ (vget q.gauge.enc e).dir = some forward))) ∧
    (∃ (e : Nat) (a : Bool) (b : Bool) (forward : _) (t : Nat) (s : State), let q := tick t s; e < 6 ∧ s.Inv ∧ ((vget (cfgNow q).enc e).role = 3 ∧
    q.faults.injections = [] ∧ webEnc q ≠ some e ∧
    quadrature (vget q.gauge.enc e).levelA (vget q.gauge.enc e).levelB a b (vget (cfgNow q).enc e).sense = some forward ∧
    (vget q.gauge.enc e).held = none ∧ (vget q.gauge.enc e).dir = some (!forward))) ∧
    (∃ (e : Nat) (a : Bool) (b : Bool) (forward : _) (t : Nat) (s : State), let q := tick t s; e < 6 ∧ s.Inv ∧ ((vget (cfgNow q).enc e).role = 1 ∧
    webEnc q = some e ∧ q.gauge.reserveActive = false ∧ q.faults.injections = [] ∧ noGearing q ∧ noCompares q ∧ lone q ∧
    q.gauge.trigEnabled = false ∧ (vget q.gauge.enc e).still = false ∧ (vget q.gauge.enc e).illegalAt = [] ∧ encOfRole (cfgNow q) 2 = none ∧
    quadrature (vget q.gauge.enc e).levelA (vget q.gauge.enc e).levelB a b (vget (cfgNow q).enc e).sense = some forward ∧
    (vget q.gauge.enc e).held = none ∧ ((vget q.gauge.enc e).dir = none ∨ (vget q.gauge.enc e).dir = some forward))) ∧
    (∃ (e : Nat) (a : Bool) (b : Bool) (t : Nat) (s : State), let q := tick t s; e < 6 ∧ s.Inv ∧ ((vget (cfgNow q).enc e).role = 3 ∧
    q.faults.injections = [] ∧ lone q ∧ (vget q.gauge.enc e).illegalAt.length < 7 ∧
    illegalChange (vget q.gauge.enc e).levelA (vget q.gauge.enc e).levelB a b = true)) ∧
    (∃ (e : Nat) (a : Bool) (b : Bool) (t : Nat) (s : State), let q := tick t s; e < 6 ∧ s.Inv ∧ (up q ∧ (vget (cfgNow q).enc e).role = 3 ∧
    q.faults.injections = [] ∧ lone q ∧ (vget q.gauge.enc e).encFault = false ∧ (vget q.gauge.enc e).illegalAt.length = 7 ∧
    (∀ n ∈ (vget q.gauge.enc e).illegalAt.getLast?, (vget q.gauge.enc e).counts ≤ n + 4096) ∧ (∀ i : Nat, i < 4 → (axisCfg q i).encoder ≠ some e) ∧
    illegalChange (vget q.gauge.enc e).levelA (vget q.gauge.enc e).levelB a b = true)) ∧
    (∃ (e : Nat) (t : Nat) (s : State), let q := tick t s; e < 6 ∧ s.Inv ∧ (up q ∧ (vget (cfgNow q).enc e).role ≠ 0 ∧ (∀ a : Nat, a < 4 →
    (vget q.axes.ax a).home = none) ∧
    ((vget (cfgNow q).enc e).indexMode = 1 ∨ (vget (cfgNow q).enc e).indexMode = 3 ∨ (vget (cfgNow q).enc e).indexMode = 2 ∧
    (vget q.gauge.enc e).rezeroArmed = true))) ∧
    (∃ (e : Nat) (t : Nat) (s : State), let q := tick t s; e < 6 ∧ s.Inv ∧ ((∀ a : Nat, a < 4 → (vget q.axes.ax a).home = none) ∧
    ((vget (cfgNow q).enc e).indexMode = 0 ∨ (vget (cfgNow q).enc e).indexMode = 2 ∧ (vget q.gauge.enc e).rezeroArmed = false))) ∧
    (∃ (e : Nat) (l : _) (t : Nat) (s : State), let q := tick t s; e < 6 ∧ s.Inv ∧ ((vget (cfgNow q).enc e).role ≠ 0 ∧ webEnc q ≠ some e ∧
    (vget q.gauge.enc e).lastCount = some l ∧ l + (vget (cfgNow q).enc e).stillTimeout * 1000 ≤ q.now)) ∧
    (∃ (e : Nat) (l : _) (t : Nat) (s : State), let q := tick t s; e < 6 ∧ s.Inv ∧ (up q ∧ (vget (cfgNow q).enc e).role ≠ 0 ∧ webEnc q = some e ∧
    (vget q.gauge.enc e).still = false ∧ (vget q.gauge.enc e).lastCount = some l ∧ l + (vget (cfgNow q).enc e).stillTimeout * 1000 ≤ q.now)) := ⟨
   ⟨2, 1000, upState, by decide +kernel, inv_of (by decide +kernel), by decide +kernel⟩,
   ⟨2, true, false, true, 1000,
   (setEnc 2 (fun x => { x with dir := some true, position := 65536, times := [9], still := true }) (let b : State := upState; { b with running := { b.running with enc := vset b.running.enc 2 { (vget b.running.enc 2) with role := 3, filter := 3, stillTimeout := 10 } } })),
   by decide +kernel, inv_of (by decide +kernel), by decide +kernel⟩,
   ⟨2, true, false, true, 1000,
   (setEnc 2 (fun x => { x with dir := some false }) (let b : State := upState; { b with running := { b.running with enc := vset b.running.enc 2 { (vget b.running.enc 2) with role := 3, filter := 3, stillTimeout := 10 } } })),
   by decide +kernel, inv_of (by decide +kernel), by decide +kernel⟩,
   ⟨2, true, false, true, 1000,
   (let b : State := upState; { b with running := { b.running with enc := vset b.running.enc 2 { (vget b.running.enc 2) with role := 1, filter := 3, stillTimeout := 10 } } }),
   by decide +kernel, inv_of (by decide +kernel), by decide +kernel⟩,
   ⟨2, true, true, 1000,
   (setEnc 2 (fun x => { x with illegalAt := [1,2,3] }) (let b : State := upState; { b with running := { b.running with enc := vset b.running.enc 2 { (vget b.running.enc 2) with role := 3, filter := 3, stillTimeout := 10 } } })),
   by decide +kernel, inv_of (by decide +kernel), by decide +kernel⟩,
   ⟨2, true, true, 1000,
   (setEnc 2 (fun x => { x with illegalAt := [1,2,3,4,5,6,7], counts := 4100 }) (let b : State := upState; { b with running := { b.running with enc := vset b.running.enc 2 { (vget b.running.enc 2) with role := 3, filter := 3, stillTimeout := 10 } } })),
   by decide +kernel, inv_of (by decide +kernel), by decide +kernel⟩,
   ⟨2, 1000,
   (setEnc 2 (fun x => { x with position := 7777 }) (let b : State := upState; { b with running := { b.running with enc := vset b.running.enc 2 { (vget b.running.enc 2) with role := 3, indexMode := 3, rezero := 55 } } })),
   by decide +kernel, inv_of (by decide +kernel), by decide +kernel⟩,
   ⟨2, 1000,
   (setEnc 2 (fun x => { x with position := 7777 }) (let b : State := upState; { b with running := { b.running with enc := vset b.running.enc 2 { (vget b.running.enc 2) with role := 3, indexMode := 2, rezero := 55 } } })),
   by decide +kernel, inv_of (by decide +kernel), by decide +kernel⟩,
   ⟨2, 5, 10000000,
   (setEnc 2 (fun x => { x with lastCount := some 5 }) (let b : State := upState; { b with running := { b.running with enc := vset b.running.enc 2 { (vget b.running.enc 2) with role := 3, filter := 3, stillTimeout := 10 } } })),
   by decide +kernel, inv_of (by decide +kernel), by decide +kernel⟩,
   ⟨2, 5, 10000000,
   (setEnc 2 (fun x => { x with lastCount := some 5 }) (let b : State := upState; { b with running := { b.running with enc := vset b.running.enc 2 { (vget b.running.enc 2) with role := 1, filter := 3, stillTimeout := 10 } } })),
   by decide +kernel, inv_of (by decide +kernel), by decide +kernel⟩⟩

theorem wit_LineTriggers :
    (∃ (c : HostCmd) (s : State) (q : LineSeq) (e : Nat), Ready specTriggerEnable c s ∧ badTriggerEnable c.params = none ∧ u8 c.params 0 = 1 ∧
    lone s ∧ s.gauge.trigEnabled = false ∧ s.gauge.enableWait = none ∧ s.bench.entering = none ∧ s.faults.selftest = none ∧ (cfgNow s).seq = some q ∧
    encOfRole (cfgNow s) 1 = some e ∧ startRefused s (u32 c.params 4) = false ∧ ((∀ i : Nat, i < 24 → (vget (cfgNow s).trig i).enable = false ∧
    (vget s.gauge.slots i).pend = []))) ∧
    (∃ (c : HostCmd) (s : State), Ready specTriggerEnable c s ∧ (u8 c.params 0 = 0 ∧ u8 c.params 1 = 0 ∧ s.gauge.trigEnabled = true ∧ s.glue = none ∧
    s.pair.role = .solo ∧ s.pair.switchAt = none ∧ ∃ i : Fin 24, (vget s.gauge.slots i).pend ≠ [])) ∧
    (∃ (c : HostCmd) (s : State), Ready specTriggerEnable c s ∧ (badTriggerEnable c.params = none ∧ (u8 c.params 0 = 0 ∧
    s.gauge.trigEnabled = false ∨ u8 c.params 0 = 1 ∧ s.gauge.trigEnabled = true))) ∧
    (∃ (slot : Nat) (t : Nat) (s : State), let q := tick t s; slot < 24 ∧ s.Inv ∧ (firing q = false ∨ nextTarget q slot = none)) ∧
    (∃ (slot : Nat) (n : _) (f : _) (pos : _) (q : _) (ft : _) (t : Nat) (s : State), let z := tick t s; slot < 24 ∧ s.Inv ∧ (firing z = true ∧
    inReverse z = false ∧ nextTarget z slot = some (n, f, pos, q) ∧ firesOnCount z slot n pos = false ∧ predictFire z q pos = some ft ∧
    ft ≤ z.now + leadOf z slot n ∧ atAnchor z pos = false)) ∧
    (∃ (t : Nat) (s : State) (slot : Nat) (n : Nat) (f : Nat) (ft : Nat) (pos : Int) (q : LineSeq), s.Inv ∧ slot < 24 ∧ lone s ∧
    noneRipe (tick t s) ∧ firing s = true ∧ inReverse s = false ∧ nextTarget (tick t s) slot = some (n, f, pos, q) ∧
    firesOnCount s slot n pos = false ∧ predictFire (tick t s) q pos = some ft ∧ ft ≤ max s.now t + leadOf s slot n ∧ atAnchor s pos = true ∧
    0 < leadOf s slot n ∧ heldOf (vget s.gauge.slots slot) = [] ∧ ((∀ l ∈ (vget s.gauge.slots slot).lastRequest,
    l + (slotTrigAt s slot n).minPeriod * 8 ≤ max s.now t)) ∧ (slotTrigAt s slot n).trgPacket = false) ∧
    (∃ (slot : Nat) (t : Nat) (s : State), let q := tick t s; slot < 24 ∧ s.Inv ∧ ripe q.now (vget q.gauge.slots slot) = []) ∧
    (∃ (p : TrigPend) (slot : Nat) (o : Nat) (t : Nat) (s : State), let q := tick t s; slot < 24 ∧ o < 8 ∧ p.late = false ∧ s.Inv ∧ (lone q ∧
    q.gauge.startPending = false ∧ (∀ l ∈ q.gauge.lastLine, later32 p.line l = false) ∧ q.gauge.lastLine ≠ none ∧
    (vget q.gauge.slots slot).pend = [p] ∧ p.requested = true ∧ p.fireTime ≤ q.now ∧ (∀ i : Nat, i < 24 → i ≠ slot →
    ripe q.now (vget q.gauge.slots i) = []) ∧ jigHoldsStrobes q slot p.line = false ∧ ingestOn (cfgAt q p.line) slot = false ∧
    (slotTrigAt q slot p.line).strobe0.trg = some o ∧ bitOf (slotTrigAt q slot p.line).strobe0.fieldMask p.field = true ∧
    (slotTrigAt q slot p.line).strobe1.trg = none)) ∧
    (∃ (slot : Nat) (t : Nat) (s : State), let q := tick t s; slot < 24 ∧ s.Inv ∧ heldOf (vget q.gauge.slots slot) = []) ∧
    (∃ (p : TrigPend) (rest : List TrigPend) (slot : Nat) (t : Nat) (s : State), let q := tick t s; slot < 24 ∧ s.Inv ∧ (lone q ∧ noneRipe q ∧
    heldOf (vget q.gauge.slots slot) = p :: rest ∧ 0 < leadOf q slot p.line ∧ (∀ l ∈ (vget q.gauge.slots slot).lastRequest,
    l + (slotTrigAt q slot p.line).minPeriod * 8 ≤ q.now) ∧ (slotTrigAt q slot p.line).trgPacket = false)) ∧
    (∃ (trg : Nat) (t : Nat) (s : State), let q := tick t s; trg < 8 ∧ s.Inv ∧ ((vget q.gauge.trg trg).active = true ∧
    (vget q.gauge.trg trg).until_ ≤ q.now)) ∧
    (∃ (trg : Nat) (t : Nat) (s : State), let q := tick t s; trg < 8 ∧ s.Inv ∧ q.now < (vget q.gauge.trg trg).until_) := ⟨
   ⟨{paramLen := 16, params := [1,1,0,0, 0,1,0,0, 5,0,0,0,0,0,0,0]},
    (let b : State := (let b : State := upState; { b with running := { b.running with enc := vset b.running.enc 2 { (vget b.running.enc 2) with role := 1, filter := 3, stillTimeout := 10 } } }); { b with running := { b.running with seq := some { pitch := 655360 } } }),
   ((cfgNow ( (let b : State := (let b : State := upState; { b with running := { b.running with enc := vset b.running.enc 2 { (vget b.running.enc 2) with role := 1, filter := 3, stillTimeout := 10 } } }); { b with running := { b.running with seq := some { pitch := 655360 } } }))).seq.getD default),
   2, ready_of (by decide +kernel), by decide +kernel, by decide +kernel, by decide +kernel, by decide +kernel, by decide +kernel, by decide +kernel,
   by decide +kernel, by decide +kernel, by decide +kernel, by decide +kernel, by decide +kernel⟩,
   ⟨{paramLen := 16, params := zeros 16},
   (setSlotTrig 4 (fun x => { x with pend := [{ line := 300, field := 1, requested := true, fireTime := 5000 }] }) (let b : State := upState; { b with gauge := { b.gauge with trigEnabled := true, lastStrip := 3, lastShift := 8 } })),
   ready_of (by decide +kernel), by decide +kernel⟩,
   ⟨{paramLen := 16, params := zeros 16}, upState, ready_of (by decide +kernel), by decide +kernel⟩,
   ⟨4, 1000, upState, by decide +kernel, inv_of (by decide +kernel), by decide +kernel⟩,
   ⟨4,
   ((nextTarget ((let b : State := (setSlotTrig 4 (fun x => { x with nextLine := 1, nextField := 0 }) (let b : State := (setEnc 2 (fun x => { x with dir := some true, position := 655360, counts := 10, times := [9000,8000,7000,6000,5000,4000,3000,2000,1000] })  (let b : State := (let b : State := (let b : State := upState; { b with running := { b.running with enc := vset b.running.enc 2 { (vget b.running.enc 2) with role := 1, filter := 3, stillTimeout := 10 } } }); { b with running := { b.running with trig := vset b.running.trig 4 { (vget b.running.trig 4) with enable := true, lead := 100, minPeriod := 3, offset := 98304 } } }); { b with running := { b.running with seq := some { pitch := 655360 } } })); { b with gauge := { b.gauge with trigEnabled := true, webPos := 655360, lateTrig := 0 } })); { b with now := 9000, running := { b.running with seq := some { pitch := 655360, predict := true, aLim := 100 } }, bench := { b.bench with epochs := [{ firstLine := 0, seq := { pitch := 655360, predict := true, aLim := 100 } }] } })) 4).getD default).1,
   0,
   ((nextTarget ((let b : State := (setSlotTrig 4 (fun x => { x with nextLine := 1, nextField := 0 }) (let b : State := (setEnc 2 (fun x => { x with dir := some true, position := 655360, counts := 10, times := [9000,8000,7000,6000,5000,4000,3000,2000,1000] })  (let b : State := (let b : State := (let b : State := upState; { b with running := { b.running with enc := vset b.running.enc 2 { (vget b.running.enc 2) with role := 1, filter := 3, stillTimeout := 10 } } }); { b with running := { b.running with trig := vset b.running.trig 4 { (vget b.running.trig 4) with enable := true, lead := 100, minPeriod := 3, offset := 98304 } } }); { b with running := { b.running with seq := some { pitch := 655360 } } })); { b with gauge := { b.gauge with trigEnabled := true, webPos := 655360, lateTrig := 0 } })); { b with now := 9000, running := { b.running with seq := some { pitch := 655360, predict := true, aLim := 100 } }, bench := { b.bench with epochs := [{ firstLine := 0, seq := { pitch := 655360, predict := true, aLim := 100 } }] } })) 4).getD default).2.2.1,
   ({ pitch := 655360, predict := true, aLim := 100 } : LineSeq), 10500, 11000,
   (let b : State := (setSlotTrig 4 (fun x => { x with nextLine := 1, nextField := 0 }) (let b : State := (setEnc 2 (fun x => { x with dir := some true, position := 655360, counts := 10, times := [9000,8000,7000,6000,5000,4000,3000,2000,1000] })  (let b : State := (let b : State := (let b : State := upState; { b with running := { b.running with enc := vset b.running.enc 2 { (vget b.running.enc 2) with role := 1, filter := 3, stillTimeout := 10 } } }); { b with running := { b.running with trig := vset b.running.trig 4 { (vget b.running.trig 4) with enable := true, lead := 100, minPeriod := 3, offset := 98304 } } }); { b with running := { b.running with seq := some { pitch := 655360 } } })); { b with gauge := { b.gauge with trigEnabled := true, webPos := 655360, lateTrig := 0 } })); { b with now := 9000, running := { b.running with seq := some { pitch := 655360, predict := true, aLim := 100 } }, bench := { b.bench with epochs := [{ firstLine := 0, seq := { pitch := 655360, predict := true, aLim := 100 } }] } }),
   by decide +kernel, inv_of (by decide +kernel), by decide +kernel⟩,
   ⟨9450,
   (let b : State := (setSlotTrig 4 (fun x => { x with nextLine := 1, nextField := 0 }) (let b : State := (setEnc 2 (fun x => { x with dir := some true, position := 655360, counts := 10, times := [9000,8000,7000,6000,5000,4000,3000,2000,1000] })  (let b : State := (let b : State := (let b : State := upState; { b with running := { b.running with enc := vset b.running.enc 2 { (vget b.running.enc 2) with role := 1, filter := 3, stillTimeout := 10 } } }); { b with running := { b.running with trig := vset b.running.trig 4 { (vget b.running.trig 4) with enable := true, lead := 100, minPeriod := 3, offset := 32768 } } }); { b with running := { b.running with seq := some { pitch := 655360 } } })); { b with gauge := { b.gauge with trigEnabled := true, webPos := 655360, lateTrig := 0 } })); { b with now := 9000, running := { b.running with seq := some { pitch := 655360, predict := true, aLim := 100 } }, bench := { b.bench with epochs := [{ firstLine := 0, seq := { pitch := 655360, predict := true, aLim := 100 } }] } }),
   4,
   ((nextTarget ((let b : State := (setSlotTrig 4 (fun x => { x with nextLine := 1, nextField := 0 }) (let b : State := (setEnc 2 (fun x => { x with dir := some true, position := 655360, counts := 10, times := [9000,8000,7000,6000,5000,4000,3000,2000,1000] })  (let b : State := (let b : State := (let b : State := upState; { b with running := { b.running with enc := vset b.running.enc 2 { (vget b.running.enc 2) with role := 1, filter := 3, stillTimeout := 10 } } }); { b with running := { b.running with trig := vset b.running.trig 4 { (vget b.running.trig 4) with enable := true, lead := 100, minPeriod := 3, offset := 32768 } } }); { b with running := { b.running with seq := some { pitch := 655360 } } })); { b with gauge := { b.gauge with trigEnabled := true, webPos := 655360, lateTrig := 0 } })); { b with now := 9000, running := { b.running with seq := some { pitch := 655360, predict := true, aLim := 100 } }, bench := { b.bench with epochs := [{ firstLine := 0, seq := { pitch := 655360, predict := true, aLim := 100 } }] } })) 4).getD default).1,
   0, 9500,
   ((nextTarget ((let b : State := (setSlotTrig 4 (fun x => { x with nextLine := 1, nextField := 0 }) (let b : State := (setEnc 2 (fun x => { x with dir := some true, position := 655360, counts := 10, times := [9000,8000,7000,6000,5000,4000,3000,2000,1000] })  (let b : State := (let b : State := (let b : State := upState; { b with running := { b.running with enc := vset b.running.enc 2 { (vget b.running.enc 2) with role := 1, filter := 3, stillTimeout := 10 } } }); { b with running := { b.running with trig := vset b.running.trig 4 { (vget b.running.trig 4) with enable := true, lead := 100, minPeriod := 3, offset := 32768 } } }); { b with running := { b.running with seq := some { pitch := 655360 } } })); { b with gauge := { b.gauge with trigEnabled := true, webPos := 655360, lateTrig := 0 } })); { b with now := 9000, running := { b.running with seq := some { pitch := 655360, predict := true, aLim := 100 } }, bench := { b.bench with epochs := [{ firstLine := 0, seq := { pitch := 655360, predict := true, aLim := 100 } }] } })) 4).getD default).2.2.1,
   ({ pitch := 655360, predict := true, aLim := 100 } : LineSeq), inv_of (by decide +kernel), by decide +kernel, by decide +kernel,
   by decide +kernel, by decide +kernel, by decide +kernel, by decide +kernel, by decide +kernel, by decide +kernel, by decide +kernel,
   by decide +kernel, by decide +kernel, by decide +kernel, by decide +kernel, by decide +kernel⟩,
   ⟨4, 1000, (setSlotTrig 4 (fun x => { x with pend := [{ line := 300, field := 1, requested := true, fireTime := 5000 }] }) upState),
   by decide +kernel, inv_of (by decide +kernel), by decide +kernel⟩,
   ⟨({ line := 300, field := 1, requested := true, fireTime := 5000 } : TrigPend), 4, 5, 6000,
   (setSlotTrig 4 (fun x => { x with pend := [{ line := 300, field := 1, requested := true, fireTime := 5000 }] }) (let b : State := (let b : State := upState; { b with running := { b.running with trig := vset b.running.trig 4 { (vget b.running.trig 4) with enable := true, lead := 7, minPeriod := 3, strobe0 := { trg := some 5, fieldMask := 2, width := 40, inverted := true } } } }); { b with gauge := { b.gauge with lastLine := some 300 } })),
   by decide +kernel, by decide +kernel, by decide +kernel, inv_of (by decide +kernel), by decide +kernel⟩,
   ⟨4, 1000, upState, by decide +kernel, inv_of (by decide +kernel), by decide +kernel⟩,
   ⟨({ line := 300, field := 1 } : TrigPend), ([{ line := 301, field := 1 }] : List TrigPend), 4, 1000,
   (setSlotTrig 4 (fun x => { x with pend := [{ line := 300, field := 1, requested := true, fireTime := 5000000 }, { line := 300, field := 1 }, { line := 301, field := 1 }], lastRequest := some 900 }) (let b : State := upState; { b with running := { b.running with trig := vset b.running.trig 4 { (vget b.running.trig 4) with enable := true, lead := 7, minPeriod := 3, strobe0 := { trg := some 5, fieldMask := 2, width := 40, inverted := true } } } })),
   by decide +kernel, inv_of (by decide +kernel), by decide +kernel⟩,
   ⟨3, 1000, (let b : State := upState; { b with gauge := { b.gauge with trg := vset b.gauge.trg 3 { active := true, until_ := 500 } } }),
   by decide +kernel, inv_of (by decide +kernel), by decide +kernel⟩,
   ⟨3, 1000, (let b : State := upState; { b with gauge := { b.gauge with trg := vset b.gauge.trg 3 { active := true, until_ := 5000 } } }),
   by decide +kernel, inv_of (by decide +kernel), by decide +kernel⟩⟩

theorem wit_CompareUnits :
    (∃ (c : HostCmd) (s : State), Ready compareAppendSpec c s ∧ (badAppend c = none ∧ compareShut s c.unit = false ∧ u8 c.params 0 = 1 ∧
    bitOf (u8 c.params 1) 0 = false ∧ (∀ e ∈ appendEntries c, e.axisStart = false) ∧ (vget s.gauge.cmp c.unit).lockUntil ≤ s.now ∧
    (vget s.gauge.cmp c.unit).shadow.length + u16 c.params 2 ≤ 4096)) ∧
    (∃ (c : HostCmd) (s : State), Ready compareAppendSpec c s ∧ (badAppend c = none ∧ compareShut s c.unit = false ∧ u8 c.params 0 = 1 ∧
    bitOf (u8 c.params 1) 0 = true ∧ (∀ e ∈ appendEntries c, e.axisStart = false) ∧ (vget s.gauge.cmp c.unit).lockUntil ≤ s.now)) ∧
    (∃ (c : HostCmd) (s : State), Ready compareAppendSpec c s ∧ (badAppend c = none ∧ compareShut s c.unit = false ∧ u8 c.params 0 = 0 ∧
    (∀ e ∈ appendEntries c, e.axisStart = false) ∧
    (vget s.gauge.cmp c.unit).active.length + (vget s.gauge.cmp c.unit).inserting.length + u16 c.params 2 ≤ 4096)) ∧
    (∃ (c : HostCmd) (s : State), Ready compareAppendSpec c s ∧ compareShut s c.unit = true) ∧
    (∃ (c : HostCmd) (s : State), Ready compareSwapSpec c s ∧ (compareShut s c.unit = false ∧ (cmpCfg s c.unit).reverse = true ∧
    ∀ e ∈ (vget s.gauge.cmp c.unit).shadow, e.pos < s.gauge.webPos)) ∧
    (∃ (c : HostCmd) (s : State), Ready compareSwapSpec c s ∧ compareShut s c.unit = true) ∧
    (∃ (u : Nat) (i : _) (rest : _) (t : Nat) (s : State), let q := tick t s; u < 16 ∧ i.ticket = none ∧ s.Inv ∧
    ((vget q.gauge.cmp u).inserting = i :: rest ∧ (cmpCfg q u).reverse = false ∧ q.gauge.webPos < i.entry.pos)) ∧
    (∃ (u : Nat) (i : _) (rest : _) (t : Nat) (s : State), let q := tick t s; u < 16 ∧ i.ticket = none ∧ s.Inv ∧
    ((vget q.gauge.cmp u).inserting = i :: rest ∧ (cmpCfg q u).reverse = false ∧ i.entry.pos ≤ q.gauge.webPos ∧ (cmpCfg q u).eventEnable = false ∧
    stationOfCmp (cfgNow q) u = none)) ∧
    (∃ (u : Nat) (i : _) (w : _) (t : Nat) (s : State) (c : CmdRec), let q := tick t s; u < 16 ∧ i.ticket = some w ∧ s.Inv ∧
    ((vget q.gauge.cmp u).inserting = [i] ∧ (cmpCfg q u).reverse = true ∧ i.entry.pos < q.gauge.webPos) ∧ InProgress (w) c s) ∧
    (∃ (u : Nat) (f : _) (e : _) (rest : _) (o : _) (t : Nat) (s : State), let q := tick t s; u < 16 ∧ o < 8 ∧ e.axisStart = false ∧ e.pulse = true ∧
    e.event = true ∧ s.Inv ∧ (up q ∧ noStations q ∧ (cmpCfg q u).enable = true ∧ (vget q.gauge.cmp u).fireAt = some f ∧ f ≤ q.now ∧
    (vget q.gauge.cmp u).active = e :: rest ∧ atAnchor q e.pos = true ∧ (cmpCfg q u).output = some o ∧ isPassive q = false ∧
    (cmpCfg q u).eventEnable = true)) ∧
    (∃ (u : Nat) (f : _) (e : _) (rest : _) (t : Nat) (s : State), let q := tick t s; u < 16 ∧ s.Inv ∧ ((cmpCfg q u).enable = true ∧
    (vget q.gauge.cmp u).fireAt = some f ∧ f ≤ q.now ∧ (vget q.gauge.cmp u).active = e :: rest ∧ atAnchor q e.pos = false)) ∧
    (∃ (u : Nat) (t : Nat) (s : State), let q := tick t s; u < 16 ∧ s.Inv ∧ (vget q.gauge.cmp u).fireAt = none) := ⟨
   ⟨{unit := 5, paramLen := 20, params := [1,0,1,0] ++ [0,0,1,0,0,0,0,0, 9,0,0,0, 3,0,0,0]},
   (setCmp 5 (fun x => { x with shadow := [{ pos := 4 }, { pos := 70000 }] }) (let b : State := upState; { b with running := { b.running with cmp := vset b.running.cmp 5 { (vget b.running.cmp 5) with enable := true, output := some 3, width := 50, eventEnable := true } } })),
   ready_of (by decide +kernel), by decide +kernel⟩,
   ⟨{unit := 5, paramLen := 20, params := [1,1,1,0] ++ [0,0,1,0,0,0,0,0, 9,0,0,0, 3,0,0,0]},
   (setCmp 5 (fun x => { x with shadow := [{ pos := 4 }, { pos := 70000 }] }) (let b : State := upState; { b with running := { b.running with cmp := vset b.running.cmp 5 { (vget b.running.cmp 5) with enable := true, output := some 3, width := 50, eventEnable := true } } })),
   ready_of (by decide +kernel), by decide +kernel⟩,
   ⟨{unit := 5, paramLen := 20, params := [0,0,1,0] ++ [0,0,1,0,0,0,0,0, 9,0,0,0, 3,0,0,0]},
   (let b : State := upState; { b with running := { b.running with cmp := vset b.running.cmp 5 { (vget b.running.cmp 5) with enable := true, output := some 3, width := 50, eventEnable := true } } }),
   ready_of (by decide +kernel), by decide +kernel⟩,
   ⟨{unit := 5, paramLen := 20, params := [0,0,1,0] ++ [0,0,1,0,0,0,0,0, 9,0,0,0, 3,0,0,0]}, upState, ready_of (by decide +kernel), by decide +kernel⟩,
   ⟨{unit := 5},
   (setCmp 5 (fun x => { x with shadow := [{ pos := -4 }, { pos := -7 }], active := [{ pos := -10 }] }) (let b : State := upState; { b with running := { b.running with cmp := vset b.running.cmp 5 { (vget b.running.cmp 5) with enable := true, reverse := true } } })),
   ready_of (by decide +kernel), by decide +kernel⟩,
   ⟨{unit := 5}, upState, ready_of (by decide +kernel), by decide +kernel⟩,
   ⟨5, ({ entry := { pos := 70000 }, due := 5 } : CmpInsert), ([] : List CmpInsert), 1000,
   (setCmp 5 (fun x => { x with inserting := [({ entry := { pos := 70000 }, due := 5 } : CmpInsert)], active := [{ pos := 80000 }] }) (let b : State := upState; { b with running := { b.running with cmp := vset b.running.cmp 5 { (vget b.running.cmp 5) with enable := true, output := some 3, width := 50, eventEnable := true } } })),
   by decide +kernel, by decide +kernel, inv_of (by decide +kernel), by decide +kernel⟩,
   ⟨5, ({ entry := { pos := -70000 }, due := 5 } : CmpInsert), ([] : List CmpInsert), 1000,
   (setCmp 5 (fun x => { x with inserting := [({ entry := { pos := -70000 }, due := 5 } : CmpInsert)] }) (let b : State := upState; { b with running := { b.running with cmp := vset b.running.cmp 5 { (vget b.running.cmp 5) with enable := true } } })),
   by decide +kernel, by decide +kernel, inv_of (by decide +kernel), by decide +kernel⟩,
   ⟨5, ({ entry := { pos := -70000 }, due := 5, ticket := some 0 } : CmpInsert), 0, 1000,
   (setCmp 5 (fun x => { x with inserting := [({ entry := { pos := -70000 }, due := 5, ticket := some 0 } : CmpInsert)] }) (let b : State := (let b : State := upState; { b with running := { b.running with cmp := vset b.running.cmp 5 { (vget b.running.cmp 5) with enable := true, reverse := true } } }); { b with cmds := [{ ticket := 0, tag := 3, opcode := 0x0307, accepted := true }], ledger := { b.ledger with issued := [0], issuedCount := 1 }, free := 0 })),
   ((cmdOf ((setCmp 5 (fun x => { x with inserting := [({ entry := { pos := -70000 }, due := 5, ticket := some 0 } : CmpInsert)] }) (let b : State := (let b : State := upState; { b with running := { b.running with cmp := vset b.running.cmp 5 { (vget b.running.cmp 5) with enable := true, reverse := true } } }); { b with cmds := [{ ticket := 0, tag := 3, opcode := 0x0307, accepted := true }], ledger := { b.ledger with issued := [0], issuedCount := 1 }, free := 0 }))) ((0))).getD default),
   by decide +kernel, by decide +kernel, inv_of (by decide +kernel), by decide +kernel, progress_of (by decide +kernel)⟩,
   ⟨5, 7, ({ pos := 3, pulse := true, event := true, tag := 8 } : CmpEntry), ([] : List CmpEntry), 3, 1000,
   (setCmp 5 (fun x => { x with fireAt := some 7, active := [({ pos := 3, pulse := true, event := true, tag := 8 } : CmpEntry)] }) (let b : State := upState; { b with running := { b.running with cmp := vset b.running.cmp 5 { (vget b.running.cmp 5) with enable := true, output := some 3, width := 50, eventEnable := true } } })),
   by decide +kernel, by decide +kernel, by decide +kernel, by decide +kernel, by decide +kernel, inv_of (by decide +kernel), by decide +kernel⟩,
   ⟨5, 7, ({ pos := 300000, pulse := true, event := true, tag := 8 } : CmpEntry), ([] : List CmpEntry), 1000,
   (setCmp 5 (fun x => { x with fireAt := some 7, active := [({ pos := 300000, pulse := true, event := true, tag := 8 } : CmpEntry)] }) (let b : State := upState; { b with running := { b.running with cmp := vset b.running.cmp 5 { (vget b.running.cmp 5) with enable := true, output := some 3, width := 50, eventEnable := true } } })),
   by decide +kernel, inv_of (by decide +kernel), by decide +kernel⟩,
   ⟨5, 1000, upState, by decide +kernel, inv_of (by decide +kernel), by decide +kernel⟩⟩

theorem wit_IngestWritesLines :
    (∃ (slot : Nat) (t : Nat) (s : State), let q := tick t s; slot < 24 ∧ s.Inv ∧ (∀ o ∈ (vget q.ingest.slots slot).outstanding,
    latencyTo (shortTime q) (tagTime q o.tag) ≤ ((planeCfgAt q slot o.tag.line).latMax : Int))) ∧
    (∃ (slot : Nat) (o : OutTag) (t : Nat) (s : State), let q := tick t s; slot < 24 ∧ o.tag.slot = slot ∧ s.Inv ∧ (up q ∧
    (vget q.ingest.slots slot).outstanding = [o] ∧ ((planeCfgAt q slot o.tag.line).latMax : Int) < latencyTo (shortTime q) (tagTime q o.tag) ∧
    statsOn q slot o.tag.line = false ∧ positionFree q slot o.tag.line = false ∧ firstIn (0x118 + slot) (stripAt q o.tag.line) q)) ∧
    (∃ (slot : Nat) (o : OutTag) (t : Nat) (s : State), let q := tick t s; slot < 24 ∧ o.tag.slot = slot ∧ s.Inv ∧ (up q ∧
    (vget q.ingest.slots slot).outstanding = [o] ∧ ((planeCfgAt q slot o.tag.line).latMax : Int) < latencyTo (shortTime q) (tagTime q o.tag) ∧
    readyHeld slot o.tag.line q ∧ statsOn q slot o.tag.line = false ∧ positionFree q slot o.tag.line = true ∧ (layoutAt q slot).depth ≠ 0 ∧
    firstIn (0x118 + slot) (stripAt q o.tag.line) q)) ∧
    (∃ (slot : Nat) (e : LineEntry) (rest : List LineEntry) (t : Nat) (s : State), let q := tick t s; slot < 24 ∧ s.Inv ∧ (up q ∧
    (vget q.ingest.slots slot).unmatched = e :: rest ∧ 2000 ≤ sdiff32 (shortTime q) e.start ∧ firstIn (0x118 + slot) (currentStrip q) q)) ∧
    (∃ (slot : Nat) (t : Nat) (s : State), let q := tick t s; slot < 24 ∧ s.Inv ∧ (∀ e ∈ (vget q.ingest.slots slot).unmatched.head?,
    sdiff32 (shortTime q) e.start < 2000)) ∧
    (∃ (slot : Nat) (e : LineEntry) (g : TrigTag) (t : Nat) (s : State), let q := tick t s; slot < 24 ∧ s.Inv ∧ (up q ∧ partUp q (slot / 2) = true ∧
    nextToWrite q (slot / 2) = some (slot, e) ∧ e.tag = some g ∧ positionFree q slot g.line = true)) ∧
    (∃ (slot : Nat) (t : Nat) (s : State), let q := tick t s; slot < 24 ∧ s.Inv ∧ nextToWrite q (slot / 2) = none) ∧
    (∃ (slot : Nat) (e : LineEntry) (g : TrigTag) (t : Nat) (s : State), let q := tick t s; slot < 24 ∧ e.tag = some g ∧ g.slot = slot ∧
    e.skew = false ∧ s.Inv ∧ (up q ∧ partUp q (slot / 2) = true ∧
    (vget q.ingest.slots slot).entries.find? (fun e => e.writing && e.arrived) = some e ∧ e.codes.length = (linkCfgAt q slot g.line).width ∧
    statsOn q slot g.line = false ∧ (layoutAt q slot).depth ≠ 0 ∧ readyHeld slot g.line q)) ∧
    (∃ (slot : Nat) (e : LineEntry) (g : TrigTag) (t : Nat) (s : State), let q := tick t s; slot < 24 ∧ e.tag = some g ∧ g.slot = slot ∧
    e.skew = false ∧ s.Inv ∧ (up q ∧ partUp q (slot / 2) = true ∧
    (vget q.ingest.slots slot).entries.find? (fun e => e.writing && e.arrived) = some e ∧ e.codes.length < (linkCfgAt q slot g.line).width ∧
    statsOn q slot g.line = false ∧ (layoutAt q slot).depth ≠ 0 ∧ readyHeld slot g.line q ∧ firstIn (0x130 + slot) (stripAt q g.line) q)) ∧
    (∃ (slot : Nat) (t : Nat) (s : State), let q := tick t s; slot < 24 ∧ s.Inv ∧ (∀ e ∈ (vget q.ingest.slots slot).entries, e.writing = false)) ∧
    (∃ (slot : Nat) (e : LineEntry) (g : TrigTag) (t : Nat) (s : State), let q := tick t s; slot < 24 ∧ e.tag = some g ∧ g.slot = slot ∧
    e.arrived = true ∧ s.Inv ∧ (up q ∧ (vget q.ingest.slots slot).entries.find? (·.writing) = some e ∧ statsOn q slot g.line = false ∧
    (layoutAt q slot).depth ≠ 0 ∧ readyHeld slot g.line q ∧ positionFree q slot g.line = true ∧ firstIn (0x360 + slot / 4) (currentStrip q) q ∧
    firstIn (0x100 + slot) (stripAt q g.line) q)) ∧
    (∃ (slot : Nat) (t : Nat) (s : State), let q := tick t s; slot < 24 ∧ s.Inv ∧ (∀ e ∈ (vget q.ingest.slots slot).entries, e.writing = false)) := ⟨
   ⟨2, 1000, upState, by decide +kernel, inv_of (by decide +kernel), by decide +kernel⟩,
   ⟨2, ({ tag := { line := 7, slot := 2, field := 0, stime := 5 } } : OutTag), 1000,
   (setSlotIngest 2 (fun x => { x with outstanding := [({ tag := { line := 7, slot := 2, field := 0, stime := 5 } } : OutTag)], nextReady := some 5 }) (let b : State := (setSlotLink 2 (fun x => { x with state := .active }) (let b : State := (let b : State := (let b : State := (let b : State := upState; { b with running := { b.running with plane := vset b.running.plane 2 { (vget b.running.plane 2) with latMax := 20 } } }); { b with running := { b.running with trig := vset b.running.trig 2 { (vget b.running.trig 2) with enable := true } } }); { b with running := { b.running with link := vset b.running.link 2 { (vget b.running.link 2) with enable := true, width := 4 } } }); { b with spans := [(0, 1000)], ingest := { b.ingest with layout := vset b.ingest.layout 1 { base := 4096, widthA := 4, widthB := 4, fields := 1, depth := 4 } } })); { b with time := { b.time with clock := { b.time.clock with ns := 3000, addend := 0 } } })),
   by decide +kernel, by decide +kernel, inv_of (by decide +kernel), by decide +kernel⟩,
   ⟨2, ({ tag := { line := 7, slot := 2, field := 0, stime := 5 } } : OutTag), 1000,
   (setSlotIngest 2 (fun x => { x with outstanding := [({ tag := { line := 7, slot := 2, field := 0, stime := 5 } } : OutTag)], nextReady := some 5 }) (setSlotPlane 2 (fun x => { x with last := some 6 }) (let b : State := (setSlotLink 2 (fun x => { x with state := .active }) (let b : State := (let b : State := (let b : State := (let b : State := upState; { b with running := { b.running with plane := vset b.running.plane 2 { (vget b.running.plane 2) with latMax := 20 } } }); { b with running := { b.running with trig := vset b.running.trig 2 { (vget b.running.trig 2) with enable := true } } }); { b with running := { b.running with link := vset b.running.link 2 { (vget b.running.link 2) with enable := true, width := 4 } } }); { b with spans := [(0, 1000)], ingest := { b.ingest with layout := vset b.ingest.layout 1 { base := 4096, widthA := 4, widthB := 4, fields := 1, depth := 4 } } })); { b with time := { b.time with clock := { b.time.clock with ns := 3000, addend := 0 } } }))),
   by decide +kernel, by decide +kernel, inv_of (by decide +kernel), by decide +kernel⟩,
   ⟨2, ({ start := 5 } : LineEntry), [{ start := 7 }], 1000,
   (setSlotIngest 2 (fun x => { x with unmatched := [({ start := 5 } : LineEntry), { start := 7 }] }) (let b : State := (setSlotLink 2 (fun x => { x with state := .active }) (let b : State := (let b : State := (let b : State := (let b : State := upState; { b with running := { b.running with plane := vset b.running.plane 2 { (vget b.running.plane 2) with latMax := 20 } } }); { b with running := { b.running with trig := vset b.running.trig 2 { (vget b.running.trig 2) with enable := true } } }); { b with running := { b.running with link := vset b.running.link 2 { (vget b.running.link 2) with enable := true, width := 4 } } }); { b with spans := [(0, 1000)], ingest := { b.ingest with layout := vset b.ingest.layout 1 { base := 4096, widthA := 4, widthB := 4, fields := 1, depth := 4 } } })); { b with time := { b.time with clock := { b.time.clock with ns := 3000, addend := 0 } } })),
   by decide +kernel, inv_of (by decide +kernel), by decide +kernel⟩,
   ⟨2, 1000, upState, by decide +kernel, inv_of (by decide +kernel), by decide +kernel⟩,
   ⟨2, ({ tag := some { line := 7, slot := 2, field := 0, stime := 5 }, start := 5, arrived := true, codes := [1,2,3,4] } : LineEntry),
   ({ line := 7, slot := 2, field := 0, stime := 5 } : TrigTag), 1000,
   (setSlotIngest 2 (fun x => { x with entries := [({ tag := some { line := 7, slot := 2, field := 0, stime := 5 }, start := 5, arrived := true, codes := [1,2,3,4] } : LineEntry)], nextReady := some 5 }) (setSlotPlane 2 (fun x => { x with last := some 6 }) (let b : State := (setSlotLink 2 (fun x => { x with state := .active }) (let b : State := (let b : State := (let b : State := (let b : State := upState; { b with running := { b.running with plane := vset b.running.plane 2 { (vget b.running.plane 2) with latMax := 20 } } }); { b with running := { b.running with trig := vset b.running.trig 2 { (vget b.running.trig 2) with enable := true } } }); { b with running := { b.running with link := vset b.running.link 2 { (vget b.running.link 2) with enable := true, width := 4 } } }); { b with spans := [(0, 1000)], ingest := { b.ingest with layout := vset b.ingest.layout 1 { base := 4096, widthA := 4, widthB := 4, fields := 1, depth := 4 } } })); { b with time := { b.time with clock := { b.time.clock with ns := 3000, addend := 0 } } }))),
   by decide +kernel, inv_of (by decide +kernel), by decide +kernel⟩,
   ⟨2, 1000, upState, by decide +kernel, inv_of (by decide +kernel), by decide +kernel⟩,
   ⟨2,
   ({ tag := some { line := 7, slot := 2, field := 0, stime := 5 }, start := 5, writing := true, arrived := true, codes := [1,2,3,4] } : LineEntry),
   ({ line := 7, slot := 2, field := 0, stime := 5 } : TrigTag), 1000,
   (setSlotIngest 2 (fun x => { x with entries := [({ tag := some { line := 7, slot := 2, field := 0, stime := 5 }, start := 5, writing := true, arrived := true, codes := [1,2,3,4] } : LineEntry)], nextReady := some 5 }) (setSlotPlane 2 (fun x => { x with last := some 6 }) (let b : State := (setSlotLink 2 (fun x => { x with state := .active }) (let b : State := (let b : State := (let b : State := (let b : State := upState; { b with running := { b.running with plane := vset b.running.plane 2 { (vget b.running.plane 2) with latMax := 20 } } }); { b with running := { b.running with trig := vset b.running.trig 2 { (vget b.running.trig 2) with enable := true } } }); { b with running := { b.running with link := vset b.running.link 2 { (vget b.running.link 2) with enable := true, width := 4 } } }); { b with spans := [(0, 1000)], ingest := { b.ingest with layout := vset b.ingest.layout 1 { base := 4096, widthA := 4, widthB := 4, fields := 1, depth := 4 } } })); { b with time := { b.time with clock := { b.time.clock with ns := 3000, addend := 0 } } }))),
   by decide +kernel, by decide +kernel, by decide +kernel, by decide +kernel, inv_of (by decide +kernel), by decide +kernel⟩,
   ⟨2, ({ tag := some { line := 7, slot := 2, field := 0, stime := 5 }, start := 5, writing := true, arrived := true, codes := [1,2] } : LineEntry),
   ({ line := 7, slot := 2, field := 0, stime := 5 } : TrigTag), 1000,
   (setSlotIngest 2 (fun x => { x with entries := [({ tag := some { line := 7, slot := 2, field := 0, stime := 5 }, start := 5, writing := true, arrived := true, codes := [1,2] } : LineEntry)], nextReady := some 5 }) (setSlotPlane 2 (fun x => { x with last := some 6 }) (let b : State := (setSlotLink 2 (fun x => { x with state := .active }) (let b : State := (let b : State := (let b : State := (let b : State := upState; { b with running := { b.running with plane := vset b.running.plane 2 { (vget b.running.plane 2) with latMax := 20 } } }); { b with running := { b.running with trig := vset b.running.trig 2 { (vget b.running.trig 2) with enable := true } } }); { b with running := { b.running with link := vset b.running.link 2 { (vget b.running.link 2) with enable := true, width := 4 } } }); { b with spans := [(0, 1000)], ingest := { b.ingest with layout := vset b.ingest.layout 1 { base := 4096, widthA := 4, widthB := 4, fields := 1, depth := 4 } } })); { b with time := { b.time with clock := { b.time.clock with ns := 3000, addend := 0 } } }))),
   by decide +kernel, by decide +kernel, by decide +kernel, by decide +kernel, inv_of (by decide +kernel), by decide +kernel⟩,
   ⟨2, 1000, upState, by decide +kernel, inv_of (by decide +kernel), by decide +kernel⟩,
   ⟨2,
   ({ tag := some { line := 7, slot := 2, field := 0, stime := 5 }, start := 5, writing := true, arrived := true, codes := [1,2,3,4] } : LineEntry),
   ({ line := 7, slot := 2, field := 0, stime := 5 } : TrigTag), 1000,
   (setSlotIngest 2 (fun x => { x with entries := [({ tag := some { line := 7, slot := 2, field := 0, stime := 5 }, start := 5, writing := true, arrived := true, codes := [1,2,3,4] } : LineEntry)], nextReady := some 5 }) (setSlotPlane 2 (fun x => { x with last := some 6 }) (let b : State := (setSlotLink 2 (fun x => { x with state := .active }) (let b : State := (let b : State := (let b : State := (let b : State := upState; { b with running := { b.running with plane := vset b.running.plane 2 { (vget b.running.plane 2) with latMax := 20 } } }); { b with running := { b.running with trig := vset b.running.trig 2 { (vget b.running.trig 2) with enable := true } } }); { b with running := { b.running with link := vset b.running.link 2 { (vget b.running.link 2) with enable := true, width := 4 } } }); { b with spans := [(0, 1000)], ingest := { b.ingest with layout := vset b.ingest.layout 1 { base := 4096, widthA := 4, widthB := 4, fields := 1, depth := 4 } } })); { b with time := { b.time with clock := { b.time.clock with ns := 3000, addend := 0 } } }))),
   by decide +kernel, by decide +kernel, by decide +kernel, by decide +kernel, inv_of (by decide +kernel), by decide +kernel⟩,
   ⟨2, 1000, upState, by decide +kernel, inv_of (by decide +kernel), by decide +kernel⟩⟩

theorem wit_PlaneAndJig :
    (∃ (slot : Nat) (t : Nat) (s : State), let q := tick t s; slot < 24 ∧ s.Inv ∧ (q.glue = none ∧ q.pair.role = .solo ∧
    (vget q.plane.slots slot).out = [] ∧ ∀ n ∈ planeNext q slot, isReady q slot n = false ∨ isFenced q 0x04 slot = true)) ∧
    (∃ (slot : Nat) (n : _) (tag : Bytes) (t : Nat) (s : State), let q := tick t s; slot < 24 ∧ s.Inv ∧ (planePlain slot n q ∧
    partUp q (slot / 2) = true ∧ readRingLine q slot n 0 = (tag, none))) ∧
    (∃ (slot : Nat) (n : _) (tag : Bytes) (xs : List Nat) (t : Nat) (s : State), let q := tick t s; slot < 24 ∧ s.Inv ∧ (planePlain slot n q ∧
    partUp q (slot / 2) = true ∧ readRingLine q slot n 0 = (tag, some xs))) ∧
    (∃ (t : Nat) (s : State) (slot : Nat) (n : Nat) (tag : Bytes) (xs : List Nat), s.Inv ∧ slot < 24 ∧ planePlain slot n (tick t s) ∧
    partUp s (slot / 2) = true ∧ readRingLine (tick t s) slot n 0 = (tag, some xs) ∧ firstIn (0x148 + slot) (stripAt s n) s ∧
    0 < (planeLine (vget s.plane.slots slot).active (vget (cfgAt s n).plane slot) 0 (pixelShim (vget (cfgAt s n).zone slot) (vget s.plane.slots slot) 0) (min (lineTagReceived tag) xs.length) xs).satSamples) ∧
    (∃ (c : HostCmd) (s : State), Ready specJigDark c s ∧ acceptsMore s ∧ jigFree .dark c s) ∧
    (∃ (c : HostCmd) (s : State), Ready specJigFlat c s ∧ acceptsMore s ∧ jigFree .flat c s) ∧
    (∃ (c : HostCmd) (s : State), Ready specJigGeometry c s ∧ acceptsMore s ∧ jigFree .geometry c s) ∧
    (∃ (c : HostCmd) (s : State), Ready specJigDark c s ∧ (badJig .dark c.params = none ∧ connUp s c.unit = false)) ∧
    (∃ (slot : Nat) (t : Nat) (s : State), let q := tick t s; slot < 24 ∧ s.Inv ∧ (∀ j ∈ vget q.plane.jig slot,
    j.ready = true ∨ isReady q slot j.nextLine = false)) ∧
    (∃ (slot : Nat) (a : _) (j : JigRun) (tag : Bytes) (xs : List Nat) (t : Nat) (s : State), let q := tick t s; slot < 24 ∧ j.passB = false ∧
    j.ready = false ∧ j.par.kind ≠ .flat ∧ j.par.fields = 1 ∧ j.firstA = some a ∧ wrap32 (j.nextLine + 1) ≠ wrap32 (a + j.par.lines) ∧ s.Inv ∧
    (up q ∧ partUp q (slot / 2) = true ∧ vget q.plane.jig slot = some j ∧ isReady q slot j.nextLine = true ∧ inSpans q j.nextLine = true ∧
    readRingLine q slot j.nextLine 0 = (tag, some xs) ∧ jigUsable tag (some xs) j.nextLine = true)) ∧
    (∃ (slot : Nat) (a : _) (j : JigRun) (tag : Bytes) (t : Nat) (s : State), let q := tick t s; slot < 24 ∧ j.passB = false ∧ j.ready = false ∧
    j.skipEvent = false ∧ j.par.fields = 1 ∧ j.firstA = some a ∧ wrap32 (j.nextLine + 1) ≠ wrap32 (a + j.par.lines) ∧ s.Inv ∧ (up q ∧
    partUp q (slot / 2) = true ∧ vget q.plane.jig slot = some j ∧ isReady q slot j.nextLine = true ∧ inSpans q j.nextLine = true ∧
    readRingLine q slot j.nextLine 0 = (tag, none))) ∧
    (∃ (slot : Nat) (a : _) (j : JigRun) (tag : Bytes) (xs : List Nat) (t : Nat) (s : State), let q := tick t s; slot < 24 ∧ j.passB = false ∧
    j.ready = false ∧ j.par.kind ≠ .flat ∧ j.par.fields = 1 ∧ j.firstA = some a ∧ wrap32 (j.nextLine + 1) = wrap32 (a + j.par.lines) ∧
    j.par.lines ≤ 2 * (vget j.nA 0 + 1) ∧ s.Inv ∧ (up q ∧ partUp q (slot / 2) = true ∧ vget q.plane.jig slot = some j ∧
    isReady q slot j.nextLine = true ∧ inSpans q j.nextLine = true ∧ readRingLine q slot j.nextLine 0 = (tag, some xs) ∧
    jigUsable tag (some xs) j.nextLine = true)) ∧
    (∃ (slot : Nat) (t : Nat) (s : State), let q := tick t s; slot < 24 ∧ s.Inv ∧ (∀ j ∈ vget q.plane.jig slot, j.ready = false)) ∧
    (∃ (slot : Nat) (j : JigRun) (t : Nat) (s : State) (c : CmdRec), let q := tick t s; slot < 24 ∧ j.ready = true ∧ j.result = none ∧
    j.par.kind ≠ .geometry ∧ s.Inv ∧ (up q ∧ vget q.plane.jig slot = some j ∧ (jigTables j (vget q.plane.slots slot).shadow).2.1 = none) ∧
    InProgress (j.ticket) c s) ∧
    (∃ (slot : Nat) (j : JigRun) (t : Nat) (s : State) (c : CmdRec), let q := tick t s; slot < 24 ∧ j.ready = true ∧ j.result = none ∧
    j.par.kind = .geometry ∧ s.Inv ∧ (up q ∧ vget q.plane.jig slot = some j ∧ (jigGeometry j (vget q.plane.slots slot).active).2.1 = none) ∧
    InProgress (j.ticket) c s) ∧
    (∃ (s : State) (slot : Nat) (j : JigRun) (f : JigFigures) (w : List TableWrite) (k : List JigCand) (x : CmdRec), s.Inv ∧ slot < 24 ∧
    s.hf.fabric = .running ∧ s.glue = none ∧ s.pair.role = .solo ∧ vget s.plane.jig slot = some j ∧ j.result = some (f, { writes := w }, k) ∧
    InProgress j.ticket x s) ∧
    (∃ (slot : Nat) (t : Nat) (s : State), let q := tick t s; slot < 24 ∧ s.Inv ∧ (∀ j ∈ vget q.plane.jig slot, j.result = none)) ∧
    (∃ (slot : Nat) (t : Nat) (s : State), let q := tick t s; slot < 24 ∧ s.Inv ∧ (∀ j ∈ vget q.plane.jig slot,
    j.ready = true ∨ q.now < j.start + j.par.timeout * 1000000)) ∧
    (∃ (slot : Nat) (j : JigRun) (t : Nat) (s : State) (c : CmdRec), let q := tick t s; slot < 24 ∧ j.ready = false ∧ s.Inv ∧ (up q ∧
    vget q.plane.jig slot = some j ∧ j.start + j.par.timeout * 1000000 ≤ q.now) ∧ InProgress (j.ticket) c s) := ⟨
   ⟨2, 1000, upState, by decide +kernel, inv_of (by decide +kernel), by decide +kernel⟩,
   ⟨2, 7,
   (readRingLine ((let z : State := (let b : State := (setSlotPlane 2 (fun x => { x with last := some 6 }) (setSlotIngest 2 (fun x => { x with nextReady := some 9 }) (let b : State := (setSlotLink 2 (fun x => { x with state := .active }) (let b : State := (let b : State := (let b : State := (let b : State := upState; { b with running := { b.running with plane := vset b.running.plane 2 { (vget b.running.plane 2) with latMax := 20 } } }); { b with running := { b.running with trig := vset b.running.trig 2 { (vget b.running.trig 2) with enable := true } } }); { b with running := { b.running with link := vset b.running.link 2 { (vget b.running.link 2) with enable := true, width := 4 } } }); { b with spans := [(0, 1000)], ingest := { b.ingest with layout := vset b.ingest.layout 1 { base := 4096, widthA := 4, widthB := 4, fields := 1, depth := 4 } } })); { b with time := { b.time with clock := { b.time.clock with ns := 3000, addend := 0 } } }))); { b with running := { b.running with grit := vset b.running.grit 2 { (vget b.running.grit 2) with fields := 1 } } }); written [(tagPlace 2 7 0 z, lineTagBytes ({ line := 7, slot := 2, field := 0, stime := 5 } : TrigTag) 0 0 4 0 false false false true), (samplePlace 2 7 0 z, [])] z)) 2 7 0).1,
   1000,
   (let z : State := (let b : State := (setSlotPlane 2 (fun x => { x with last := some 6 }) (setSlotIngest 2 (fun x => { x with nextReady := some 9 }) (let b : State := (setSlotLink 2 (fun x => { x with state := .active }) (let b : State := (let b : State := (let b : State := (let b : State := upState; { b with running := { b.running with plane := vset b.running.plane 2 { (vget b.running.plane 2) with latMax := 20 } } }); { b with running := { b.running with trig := vset b.running.trig 2 { (vget b.running.trig 2) with enable := true } } }); { b with running := { b.running with link := vset b.running.link 2 { (vget b.running.link 2) with enable := true, width := 4 } } }); { b with spans := [(0, 1000)], ingest := { b.ingest with layout := vset b.ingest.layout 1 { base := 4096, widthA := 4, widthB := 4, fields := 1, depth := 4 } } })); { b with time := { b.time with clock := { b.time.clock with ns := 3000, addend := 0 } } }))); { b with running := { b.running with grit := vset b.running.grit 2 { (vget b.running.grit 2) with fields := 1 } } }); written [(tagPlace 2 7 0 z, lineTagBytes ({ line := 7, slot := 2, field := 0, stime := 5 } : TrigTag) 0 0 4 0 false false false true), (samplePlace 2 7 0 z, [])] z),
   by decide +kernel, inv_of (by decide +kernel), by decide +kernel⟩,
   ⟨2, 7,
   (readRingLine ((let z : State := (let b : State := (setSlotPlane 2 (fun x => { x with last := some 6 }) (setSlotIngest 2 (fun x => { x with nextReady := some 9 }) (let b : State := (setSlotLink 2 (fun x => { x with state := .active }) (let b : State := (let b : State := (let b : State := (let b : State := upState; { b with running := { b.running with plane := vset b.running.plane 2 { (vget b.running.plane 2) with latMax := 20 } } }); { b with running := { b.running with trig := vset b.running.trig 2 { (vget b.running.trig 2) with enable := true } } }); { b with running := { b.running with link := vset b.running.link 2 { (vget b.running.link 2) with enable := true, width := 4 } } }); { b with spans := [(0, 1000)], ingest := { b.ingest with layout := vset b.ingest.layout 1 { base := 4096, widthA := 4, widthB := 4, fields := 1, depth := 4 } } })); { b with time := { b.time with clock := { b.time.clock with ns := 3000, addend := 0 } } }))); { b with running := { b.running with grit := vset b.running.grit 2 { (vget b.running.grit 2) with fields := 1 } } }); written [(tagPlace 2 7 0 z, lineTagBytes ({ line := 7, slot := 2, field := 0, stime := 5 } : TrigTag) 5 4 0 0 false false false false), (samplePlace 2 7 0 z, packRow [262143,2,3,262143])] z)) 2 7 0).1,
   [262143,2,3,262143], 1000,
   (let z : State := (let b : State := (setSlotPlane 2 (fun x => { x with last := some 6 }) (setSlotIngest 2 (fun x => { x with nextReady := some 9 }) (let b : State := (setSlotLink 2 (fun x => { x with state := .active }) (let b : State := (let b : State := (let b : State := (let b : State := upState; { b with running := { b.running with plane := vset b.running.plane 2 { (vget b.running.plane 2) with latMax := 20 } } }); { b with running := { b.running with trig := vset b.running.trig 2 { (vget b.running.trig 2) with enable := true } } }); { b with running := { b.running with link := vset b.running.link 2 { (vget b.running.link 2) with enable := true, width := 4 } } }); { b with spans := [(0, 1000)], ingest := { b.ingest with layout := vset b.ingest.layout 1 { base := 4096, widthA := 4, widthB := 4, fields := 1, depth := 4 } } })); { b with time := { b.time with clock := { b.time.clock with ns := 3000, addend := 0 } } }))); { b with running := { b.running with grit := vset b.running.grit 2 { (vget b.running.grit 2) with fields := 1 } } }); written [(tagPlace 2 7 0 z, lineTagBytes ({ line := 7, slot := 2, field := 0, stime := 5 } : TrigTag) 5 4 0 0 false false false false), (samplePlace 2 7 0 z, packRow [262143,2,3,262143])] z),
   by decide +kernel, inv_of (by decide +kernel), by decide +kernel⟩,
   ⟨1000,
   (let b : State := (let b : State := (let z : State := (let b : State := (setSlotPlane 2 (fun x => { x with last := some 6 }) (setSlotIngest 2 (fun x => { x with nextReady := some 9 }) (let b : State := (setSlotLink 2 (fun x => { x with state := .active }) (let b : State := (let b : State := (let b : State := (let b : State := upState; { b with running := { b.running with plane := vset b.running.plane 2 { (vget b.running.plane 2) with latMax := 20 } } }); { b with running := { b.running with trig := vset b.running.trig 2 { (vget b.running.trig 2) with enable := true } } }); { b with running := { b.running with link := vset b.running.link 2 { (vget b.running.link 2) with enable := true, width := 4 } } }); { b with spans := [(0, 1000)], ingest := { b.ingest with layout := vset b.ingest.layout 1 { base := 4096, widthA := 4, widthB := 4, fields := 1, depth := 4 } } })); { b with time := { b.time with clock := { b.time.clock with ns := 3000, addend := 0 } } }))); { b with running := { b.running with grit := vset b.running.grit 2 { (vget b.running.grit 2) with fields := 1 } } }); written [(tagPlace 2 7 0 z, lineTagBytes ({ line := 7, slot := 2, field := 0, stime := 5 } : TrigTag) 5 4 0 0 false false false false), (samplePlace 2 7 0 z, packRow [262143,2,3,262143])] z); { b with running := { b.running with plane := vset b.running.plane 2 { (vget b.running.plane 2) with latMax := 20, correct := true } } }); setSlotPlane 2 (fun x => { x with active := { x.active with gain := vset x.active.gain 0 [(0, 65535), (3, 65535)] } }) b),
   2, 7,
   (readRingLine ((let z : State := (let b : State := (setSlotPlane 2 (fun x => { x with last := some 6 }) (setSlotIngest 2 (fun x => { x with nextReady := some 9 }) (let b : State := (setSlotLink 2 (fun x => { x with state := .active }) (let b : State := (let b : State := (let b : State := (let b : State := upState; { b with running := { b.running with plane := vset b.running.plane 2 { (vget b.running.plane 2) with latMax := 20 } } }); { b with running := { b.running with trig := vset b.running.trig 2 { (vget b.running.trig 2) with enable := true } } }); { b with running := { b.running with link := vset b.running.link 2 { (vget b.running.link 2) with enable := true, width := 4 } } }); { b with spans := [(0, 1000)], ingest := { b.ingest with layout := vset b.ingest.layout 1 { base := 4096, widthA := 4, widthB := 4, fields := 1, depth := 4 } } })); { b with time := { b.time with clock := { b.time.clock with ns := 3000, addend := 0 } } }))); { b with running := { b.running with grit := vset b.running.grit 2 { (vget b.running.grit 2) with fields := 1 } } }); written [(tagPlace 2 7 0 z, lineTagBytes ({ line := 7, slot := 2, field := 0, stime := 5 } : TrigTag) 5 4 0 0 false false false false), (samplePlace 2 7 0 z, packRow [262143,2,3,262143])] z)) 2 7 0).1,
   [262143,2,3,262143], inv_of (by decide +kernel), by decide +kernel, by decide +kernel, by decide +kernel, by decide +kernel, by decide +kernel,
   by decide +kernel⟩,
   ⟨{unit := 2, paramLen := 24, params := [1,0,0,0] ++ le 4 256 ++ le 4 1 ++ le 4 1 ++ le 4 0 ++ le 4 100},
   (setSlotLink 2 (fun x => { x with state := .active }) (let b : State := (let b : State := (let b : State := (let b : State := upState; { b with running := { b.running with plane := vset b.running.plane 2 { (vget b.running.plane 2) with latMax := 20 } } }); { b with running := { b.running with trig := vset b.running.trig 2 { (vget b.running.trig 2) with enable := true } } }); { b with running := { b.running with link := vset b.running.link 2 { (vget b.running.link 2) with enable := true, width := 4 } } }); { b with spans := [(0, 1000)], ingest := { b.ingest with layout := vset b.ingest.layout 1 { base := 4096, widthA := 4, widthB := 4, fields := 1, depth := 4 } } })),
   ready_of (by decide +kernel), by unfold acceptsMore; decide +kernel, by decide +kernel⟩,
   ⟨{unit := 2, paramLen := 32, params := [1,0,0,0] ++ le 4 256 ++ le 4 1 ++ le 4 1 ++ le 4 0 ++ le 2 100 ++ le 2 200 ++ le 4 100 ++ le 4 0},
   (setSlotLink 2 (fun x => { x with state := .active }) (let b : State := (let b : State := (let b : State := (let b : State := upState; { b with running := { b.running with plane := vset b.running.plane 2 { (vget b.running.plane 2) with latMax := 20 } } }); { b with running := { b.running with trig := vset b.running.trig 2 { (vget b.running.trig 2) with enable := true } } }); { b with running := { b.running with link := vset b.running.link 2 { (vget b.running.link 2) with enable := true, width := 4 } } }); { b with spans := [(0, 1000)], ingest := { b.ingest with layout := vset b.ingest.layout 1 { base := 4096, widthA := 4, widthB := 4, fields := 1, depth := 4 } } })),
   ready_of (by decide +kernel), by unfold acceptsMore; decide +kernel, by decide +kernel⟩,
   ⟨{unit := 2, paramLen := 32, params := [0,0,0,0] ++ le 4 256 ++ le 4 100 ++ le 4 1 ++ le 4 1 ++ le 4 100 ++ le 4 100 ++ le 4 0},
   (setSlotLink 2 (fun x => { x with state := .active }) (let b : State := (let b : State := (let b : State := (let b : State := upState; { b with running := { b.running with plane := vset b.running.plane 2 { (vget b.running.plane 2) with latMax := 20 } } }); { b with running := { b.running with trig := vset b.running.trig 2 { (vget b.running.trig 2) with enable := true } } }); { b with running := { b.running with link := vset b.running.link 2 { (vget b.running.link 2) with enable := true, width := 4 } } }); { b with spans := [(0, 1000)], ingest := { b.ingest with layout := vset b.ingest.layout 1 { base := 4096, widthA := 4, widthB := 4, fields := 1, depth := 4 } } })),
   ready_of (by decide +kernel), by unfold acceptsMore; decide +kernel, by decide +kernel⟩,
   ⟨{unit := 2, paramLen := 24, params := [1,0,0,0] ++ le 4 256 ++ le 4 1 ++ le 4 1 ++ le 4 0 ++ le 4 100},
   (let b : State := (let b : State := (let b : State := (let b : State := upState; { b with running := { b.running with plane := vset b.running.plane 2 { (vget b.running.plane 2) with latMax := 20 } } }); { b with running := { b.running with trig := vset b.running.trig 2 { (vget b.running.trig 2) with enable := true } } }); { b with running := { b.running with link := vset b.running.link 2 { (vget b.running.link 2) with enable := true, width := 4 } } }); { b with spans := [(0, 1000)], ingest := { b.ingest with layout := vset b.ingest.layout 1 { base := 4096, widthA := 4, widthB := 4, fields := 1, depth := 4 } } }),
   ready_of (by decide +kernel), by decide +kernel⟩,
   ⟨2, 1000, upState, by decide +kernel, inv_of (by decide +kernel), by decide +kernel⟩,
   ⟨2, 1, ({ par := { lines := 256, timeout := 100, gapStrips := 2 }, firstA := some 1, nextLine := 7 } : JigRun),
   (readRingLine ((let z : State := (let b : State := (setSlotPlane 2 (fun x => { x with last := some 6 }) (setSlotIngest 2 (fun x => { x with nextReady := some 9 }) (let b : State := (setSlotLink 2 (fun x => { x with state := .active }) (let b : State := (let b : State := (let b : State := (let b : State := upState; { b with running := { b.running with plane := vset b.running.plane 2 { (vget b.running.plane 2) with latMax := 20 } } }); { b with running := { b.running with trig := vset b.running.trig 2 { (vget b.running.trig 2) with enable := true } } }); { b with running := { b.running with link := vset b.running.link 2 { (vget b.running.link 2) with enable := true, width := 4 } } }); { b with spans := [(0, 1000)], ingest := { b.ingest with layout := vset b.ingest.layout 1 { base := 4096, widthA := 4, widthB := 4, fields := 1, depth := 4 } } })); { b with time := { b.time with clock := { b.time.clock with ns := 3000, addend := 0 } } }))); { b with running := { b.running with grit := vset b.running.grit 2 { (vget b.running.grit 2) with fields := 1 } } }); written [(tagPlace 2 7 0 z, lineTagBytes ({ line := 7, slot := 2, field := 0, stime := 5 } : TrigTag) 5 4 0 0 false false false false), (samplePlace 2 7 0 z, packRow [262143,2,3,262143])] z)) 2 7 0).1,
   [262143,2,3,262143], 1000,
   (setJig 2 (some ({ par := { lines := 256, timeout := 100, gapStrips := 2 }, firstA := some 1, nextLine := 7 } : JigRun)) (let z : State := (let b : State := (setSlotPlane 2 (fun x => { x with last := some 6 }) (setSlotIngest 2 (fun x => { x with nextReady := some 9 }) (let b : State := (setSlotLink 2 (fun x => { x with state := .active }) (let b : State := (let b : State := (let b : State := (let b : State := upState; { b with running := { b.running with plane := vset b.running.plane 2 { (vget b.running.plane 2) with latMax := 20 } } }); { b with running := { b.running with trig := vset b.running.trig 2 { (vget b.running.trig 2) with enable := true } } }); { b with running := { b.running with link := vset b.running.link 2 { (vget b.running.link 2) with enable := true, width := 4 } } }); { b with spans := [(0, 1000)], ingest := { b.ingest with layout := vset b.ingest.layout 1 { base := 4096, widthA := 4, widthB := 4, fields := 1, depth := 4 } } })); { b with time := { b.time with clock := { b.time.clock with ns := 3000, addend := 0 } } }))); { b with running := { b.running with grit := vset b.running.grit 2 { (vget b.running.grit 2) with fields := 1 } } }); written [(tagPlace 2 7 0 z, lineTagBytes ({ line := 7, slot := 2, field := 0, stime := 5 } : TrigTag) 5 4 0 0 false false false false), (samplePlace 2 7 0 z, packRow [262143,2,3,262143])] z)),
   by decide +kernel, by decide +kernel, by decide +kernel, by decide +kernel, by decide +kernel, by decide +kernel, by decide +kernel,
   inv_of (by decide +kernel), by decide +kernel⟩,
   ⟨2, 1, ({ par := { lines := 256, timeout := 100, gapStrips := 2 }, firstA := some 1, nextLine := 7 } : JigRun),
   (readRingLine ((let z : State := (let b : State := (setSlotPlane 2 (fun x => { x with last := some 6 }) (setSlotIngest 2 (fun x => { x with nextReady := some 9 }) (let b : State := (setSlotLink 2 (fun x => { x with state := .active }) (let b : State := (let b : State := (let b : State := (let b : State := upState; { b with running := { b.running with plane := vset b.running.plane 2 { (vget b.running.plane 2) with latMax := 20 } } }); { b with running := { b.running with trig := vset b.running.trig 2 { (vget b.running.trig 2) with enable := true } } }); { b with running := { b.running with link := vset b.running.link 2 { (vget b.running.link 2) with enable := true, width := 4 } } }); { b with spans := [(0, 1000)], ingest := { b.ingest with layout := vset b.ingest.layout 1 { base := 4096, widthA := 4, widthB := 4, fields := 1, depth := 4 } } })); { b with time := { b.time with clock := { b.time.clock with ns := 3000, addend := 0 } } }))); { b with running := { b.running with grit := vset b.running.grit 2 { (vget b.running.grit 2) with fields := 1 } } }); written [(tagPlace 2 7 0 z, lineTagBytes ({ line := 7, slot := 2, field := 0, stime := 5 } : TrigTag) 0 0 4 0 false false false true), (samplePlace 2 7 0 z, [])] z)) 2 7 0).1,
   1000,
   (setJig 2 (some ({ par := { lines := 256, timeout := 100, gapStrips := 2 }, firstA := some 1, nextLine := 7 } : JigRun)) (let z : State := (let b : State := (setSlotPlane 2 (fun x => { x with last := some 6 }) (setSlotIngest 2 (fun x => { x with nextReady := some 9 }) (let b : State := (setSlotLink 2 (fun x => { x with state := .active }) (let b : State := (let b : State := (let b : State := (let b : State := upState; { b with running := { b.running with plane := vset b.running.plane 2 { (vget b.running.plane 2) with latMax := 20 } } }); { b with running := { b.running with trig := vset b.running.trig 2 { (vget b.running.trig 2) with enable := true } } }); { b with running := { b.running with link := vset b.running.link 2 { (vget b.running.link 2) with enable := true, width := 4 } } }); { b with spans := [(0, 1000)], ingest := { b.ingest with layout := vset b.ingest.layout 1 { base := 4096, widthA := 4, widthB := 4, fields := 1, depth := 4 } } })); { b with time := { b.time with clock := { b.time.clock with ns := 3000, addend := 0 } } }))); { b with running := { b.running with grit := vset b.running.grit 2 { (vget b.running.grit 2) with fields := 1 } } }); written [(tagPlace 2 7 0 z, lineTagBytes ({ line := 7, slot := 2, field := 0, stime := 5 } : TrigTag) 0 0 4 0 false false false true), (samplePlace 2 7 0 z, [])] z)),
   by decide +kernel, by decide +kernel, by decide +kernel, by decide +kernel, by decide +kernel, by decide +kernel, by decide +kernel,
   inv_of (by decide +kernel), by decide +kernel⟩,
   ⟨2, 4294967048,
   ({ par := { lines := 256, timeout := 100, gapStrips := 2 }, firstA := some 4294967048, nA := #v[200, 0, 0, 0], nextLine := 7 } : JigRun),
   (readRingLine ((let z : State := (let b : State := (setSlotPlane 2 (fun x => { x with last := some 6 }) (setSlotIngest 2 (fun x => { x with nextReady := some 9 }) (let b : State := (setSlotLink 2 (fun x => { x with state := .active }) (let b : State := (let b : State := (let b : State := (let b : State := upState; { b with running := { b.running with plane := vset b.running.plane 2 { (vget b.running.plane 2) with latMax := 20 } } }); { b with running := { b.running with trig := vset b.running.trig 2 { (vget b.running.trig 2) with enable := true } } }); { b with running := { b.running with link := vset b.running.link 2 { (vget b.running.link 2) with enable := true, width := 4 } } }); { b with spans := [(0, 1000)], ingest := { b.ingest with layout := vset b.ingest.layout 1 { base := 4096, widthA := 4, widthB := 4, fields := 1, depth := 4 } } })); { b with time := { b.time with clock := { b.time.clock with ns := 3000, addend := 0 } } }))); { b with running := { b.running with grit := vset b.running.grit 2 { (vget b.running.grit 2) with fields := 1 } } }); written [(tagPlace 2 7 0 z, lineTagBytes ({ line := 7, slot := 2, field := 0, stime := 5 } : TrigTag) 5 4 0 0 false false false false), (samplePlace 2 7 0 z, packRow [262143,2,3,262143])] z)) 2 7 0).1,
   [262143,2,3,262143], 1000,
   (setJig 2 (some ({ par := { lines := 256, timeout := 100, gapStrips := 2 }, firstA := some 4294967048, nA := #v[200, 0, 0, 0], nextLine := 7 } : JigRun)) (let z : State := (let b : State := (setSlotPlane 2 (fun x => { x with last := some 6 }) (setSlotIngest 2 (fun x => { x with nextReady := some 9 }) (let b : State := (setSlotLink 2 (fun x => { x with state := .active }) (let b : State := (let b : State := (let b : State := (let b : State := upState; { b with running := { b.running with plane := vset b.running.plane 2 { (vget b.running.plane 2) with latMax := 20 } } }); { b with running := { b.running with trig := vset b.running.trig 2 { (vget b.running.trig 2) with enable := true } } }); { b with running := { b.running with link := vset b.running.link 2 { (vget b.running.link 2) with enable := true, width := 4 } } }); { b with spans := [(0, 1000)], ingest := { b.ingest with layout := vset b.ingest.layout 1 { base := 4096, widthA := 4, widthB := 4, fields := 1, depth := 4 } } })); { b with time := { b.time with clock := { b.time.clock with ns := 3000, addend := 0 } } }))); { b with running := { b.running with grit := vset b.running.grit 2 { (vget b.running.grit 2) with fields := 1 } } }); written [(tagPlace 2 7 0 z, lineTagBytes ({ line := 7, slot := 2, field := 0, stime := 5 } : TrigTag) 5 4 0 0 false false false false), (samplePlace 2 7 0 z, packRow [262143,2,3,262143])] z)),
   by decide +kernel, by decide +kernel, by decide +kernel, by decide +kernel, by decide +kernel, by decide +kernel, by decide +kernel,
   by decide +kernel, inv_of (by decide +kernel), by decide +kernel⟩,
   ⟨2, 1000, upState, by decide +kernel, inv_of (by decide +kernel), by decide +kernel⟩,
   ⟨2,
   ({ par := { lines := 256, fractionPpm := 1000000, darkMax := 60000, tolNm := 1 }, firstA := some 1, firstB := some 512, ready := true, skipped := 3, sumsA := #v[[10, 20], [], [], []], sumsB := #v[[600000, 20], [], [], []], nA := #v[256,0,0,0], nB := #v[256,0,0,0], ticket := 0 } : JigRun),
   1000,
   (setJig 2 (some ({ par := { lines := 256, fractionPpm := 1000000, darkMax := 60000, tolNm := 1 }, firstA := some 1, firstB := some 512, ready := true, skipped := 3, sumsA := #v[[10, 20], [], [], []], sumsB := #v[[600000, 20], [], [], []], nA := #v[256,0,0,0], nB := #v[256,0,0,0], ticket := 0 } : JigRun)) (let b : State := (let b : State := upState; { b with claims := [⟨0x0E, 4, 0x0404, 2⟩] }); { b with cmds := [{ ticket := 0, tag := 3, opcode := 0x0404, accepted := true }], ledger := { b.ledger with issued := [0], issuedCount := 1 } })),
   ((cmdOf ((setJig 2 (some ({ par := { lines := 256, fractionPpm := 1000000, darkMax := 60000, tolNm := 1 }, firstA := some 1, firstB := some 512, ready := true, skipped := 3, sumsA := #v[[10, 20], [], [], []], sumsB := #v[[600000, 20], [], [], []], nA := #v[256,0,0,0], nB := #v[256,0,0,0], ticket := 0 } : JigRun)) (let b : State := (let b : State := upState; { b with claims := [⟨0x0E, 4, 0x0404, 2⟩] }); { b with cmds := [{ ticket := 0, tag := 3, opcode := 0x0404, accepted := true }], ledger := { b.ledger with issued := [0], issuedCount := 1 } }))) ((({ par := { lines := 256, fractionPpm := 1000000, darkMax := 60000, tolNm := 1 }, firstA := some 1, firstB := some 512, ready := true, skipped := 3, sumsA := #v[[10, 20], [], [], []], sumsB := #v[[600000, 20], [], [], []], nA := #v[256,0,0,0], nB := #v[256,0,0,0], ticket := 0 } : JigRun) : JigRun).ticket)).getD default),
   by decide +kernel, by decide +kernel, by decide +kernel, by decide +kernel, inv_of (by decide +kernel), by decide +kernel,
   progress_of (by decide +kernel)⟩,
   ⟨2,
   ({ par := { lines := 256, kind := .geometry, fractionPpm := 1000000, darkMax := 60000, tolNm := 1 }, firstA := some 1, firstB := some 512, ready := true, skipped := 3, sumsA := #v[[10, 20], [], [], []], sumsB := #v[[600000, 20], [], [], []], nA := #v[256,0,0,0], nB := #v[256,0,0,0], ticket := 0 } : JigRun),
   1000,
   (setJig 2 (some ({ par := { lines := 256, kind := .geometry, fractionPpm := 1000000, darkMax := 60000, tolNm := 1 }, firstA := some 1, firstB := some 512, ready := true, skipped := 3, sumsA := #v[[10, 20], [], [], []], sumsB := #v[[600000, 20], [], [], []], nA := #v[256,0,0,0], nB := #v[256,0,0,0], ticket := 0 } : JigRun)) (let b : State := upState; { b with cmds := [{ ticket := 0, tag := 3, opcode := 0x0406, accepted := true }], ledger := { b.ledger with issued := [0], issuedCount := 1 } })),
   ((cmdOf ((setJig 2 (some ({ par := { lines := 256, kind := .geometry, fractionPpm := 1000000, darkMax := 60000, tolNm := 1 }, firstA := some 1, firstB := some 512, ready := true, skipped := 3, sumsA := #v[[10, 20], [], [], []], sumsB := #v[[600000, 20], [], [], []], nA := #v[256,0,0,0], nB := #v[256,0,0,0], ticket := 0 } : JigRun)) (let b : State := upState; { b with cmds := [{ ticket := 0, tag := 3, opcode := 0x0406, accepted := true }], ledger := { b.ledger with issued := [0], issuedCount := 1 } }))) ((({ par := { lines := 256, kind := .geometry, fractionPpm := 1000000, darkMax := 60000, tolNm := 1 }, firstA := some 1, firstB := some 512, ready := true, skipped := 3, sumsA := #v[[10, 20], [], [], []], sumsB := #v[[600000, 20], [], [], []], nA := #v[256,0,0,0], nB := #v[256,0,0,0], ticket := 0 } : JigRun) : JigRun).ticket)).getD default),
   by decide +kernel, by decide +kernel, by decide +kernel, by decide +kernel, inv_of (by decide +kernel), by decide +kernel,
   progress_of (by decide +kernel)⟩,
   ⟨(setJig 2 (some ({ par := { lines := 256, fractionPpm := 1000000, darkMax := 60000, tolNm := 1 }, firstA := some 1, firstB := some 512, ready := true, result := some ({ agree := 3 }, { writes := [{ kind := 0, vals := [4, 5] }] }, []), skipped := 3, sumsA := #v[[10, 20], [], [], []], sumsB := #v[[600000, 20], [], [], []], nA := #v[256,0,0,0], nB := #v[256,0,0,0], ticket := 0 } : JigRun)) (let b : State := (let b : State := upState; { b with claims := [⟨0x0E, 4, 0x0404, 2⟩] }); { b with cmds := [{ ticket := 0, tag := 3, opcode := 0x0404, accepted := true }], ledger := { b.ledger with issued := [0], issuedCount := 1 } })),
   2,
   ({ par := { lines := 256, fractionPpm := 1000000, darkMax := 60000, tolNm := 1 }, firstA := some 1, firstB := some 512, ready := true, result := some ({ agree := 3 }, { writes := [{ kind := 0, vals := [4, 5] }] }, []), skipped := 3, sumsA := #v[[10, 20], [], [], []], sumsB := #v[[600000, 20], [], [], []], nA := #v[256,0,0,0], nB := #v[256,0,0,0], ticket := 0 } : JigRun),
   ({ agree := 3 } : JigFigures), ([{ kind := 0, vals := [4, 5] }] : List TableWrite), ([] : List JigCand),
   ((cmdOf ((setJig 2 (some ({ par := { lines := 256, fractionPpm := 1000000, darkMax := 60000, tolNm := 1 }, firstA := some 1, firstB := some 512, ready := true, result := some ({ agree := 3 }, { writes := [{ kind := 0, vals := [4, 5] }] }, []), skipped := 3, sumsA := #v[[10, 20], [], [], []], sumsB := #v[[600000, 20], [], [], []], nA := #v[256,0,0,0], nB := #v[256,0,0,0], ticket := 0 } : JigRun)) (let b : State := (let b : State := upState; { b with claims := [⟨0x0E, 4, 0x0404, 2⟩] }); { b with cmds := [{ ticket := 0, tag := 3, opcode := 0x0404, accepted := true }], ledger := { b.ledger with issued := [0], issuedCount := 1 } }))) 0).getD default),
   inv_of (by decide +kernel), by decide +kernel, by decide +kernel, by decide +kernel, by decide +kernel, by decide +kernel, by decide +kernel,
   progress_of (by decide +kernel)⟩,
   ⟨2, 1000, upState, by decide +kernel, inv_of (by decide +kernel), by decide +kernel⟩,
   ⟨2, 1000, upState, by decide +kernel, inv_of (by decide +kernel), by decide +kernel⟩,
   ⟨2, ({ par := { lines := 256, timeout := 100, gapStrips := 2 }, firstA := some 1, nextLine := 7 } : JigRun), 1000000000,
   (setJig 2 (some ({ par := { lines := 256, timeout := 100, gapStrips := 2 }, firstA := some 1, nextLine := 7 } : JigRun)) (let b : State := upState; { b with cmds := [{ ticket := 0, tag := 3, opcode := 0x0404, accepted := true }], ledger := { b.ledger with issued := [0], issuedCount := 1 } })),
   ((cmdOf ((setJig 2 (some ({ par := { lines := 256, timeout := 100, gapStrips := 2 }, firstA := some 1, nextLine := 7 } : JigRun)) (let b : State := upState; { b with cmds := [{ ticket := 0, tag := 3, opcode := 0x0404, accepted := true }], ledger := { b.ledger with issued := [0], issuedCount := 1 } }))) ((({ par := { lines := 256, timeout := 100, gapStrips := 2 }, firstA := some 1, nextLine := 7 } : JigRun) : JigRun).ticket)).getD default),
   by decide +kernel, by decide +kernel, inv_of (by decide +kernel), by decide +kernel, progress_of (by decide +kernel)⟩⟩

theorem wit_DovetailStitches :
    (∃ (t : Nat) (s : State), let q := tick t s; s.Inv ∧ (alone q ∧ ∀ n ∈ dovetailNext q, slotsReady q n = false ∨ isFenced q 0x05 0 = true)) ∧
    (∃ (i : _) (n : _) (g : GridCfg) (t : Nat) (s : State), let q := tick t s; i < 24 ∧ s.Inv ∧ (stitchPlain i n g q ∧
    (stitchSource n g q).gap = false)) ∧
    (∃ (i : _) (n : _) (g : GridCfg) (t : Nat) (s : State), let q := tick t s; i < 24 ∧ s.Inv ∧ (stitchPlain i n g q ∧
    (stitchSource n g q).gap = true ∧ firstIn 0x1B0 (stripAt q n) q)) ∧
    (∃ (n : _) (g : GridCfg) (t : Nat) (s : State), let q := tick t s; s.Inv ∧ (up q ∧ partUp q 12 = true ∧ alone q ∧ dovetailNext q = some n ∧
    (cfgAt q n).grid = some g ∧ inSpans q n = true ∧ slotsReady q n = true ∧ isFenced q 0x05 0 = false ∧
    stripLayout (cfgAt q n) = q.dovetail.layout ∧ rowFree q n = true ∧ bgWait q n = true ∧ q.prof.stallLine ≠ some n)) ∧
    (∃ (row : ImportRow) (t : Nat) (s : State), let q := tick t s; s.Inv ∧ ((cfgAt q row.line).grid = none ∨ ∃ g ∈ (cfgAt q row.line).grid,
    g.importCols = 0)) ∧
    (∃ (row : ImportRow) (g : GridCfg) (t : Nat) (s : State), let q := tick t s; s.Inv ∧ (up q ∧ (cfgAt q row.line).grid = some g ∧
    g.importCols ≠ 0 ∧ row.cols ≠ g.importCols ∧ firstIn 0x1B2 (stripAt q row.line) q)) ∧
    (∃ (row : ImportRow) (g : GridCfg) (t : Nat) (s : State), let q := tick t s; s.Inv ∧ (up q ∧ (cfgAt q row.line).grid = some g ∧
    g.importCols ≠ 0 ∧ row.cols = g.importCols ∧ row.line ∈ q.dovetail.importMissing ∧ firstIn 0x1B2 (stripAt q row.line) q)) ∧
    (∃ (row : ImportRow) (g : GridCfg) (t : Nat) (s : State), let q := tick t s; s.Inv ∧ (up q ∧ (cfgAt q row.line).grid = some g ∧
    g.importCols ≠ 0 ∧ row.cols = g.importCols ∧ q.dovetail.importMissing = [] ∧ ∀ l ∈ q.dovetail.last, atOrAfter l row.line = false)) ∧
    (∃ (t : Nat) (s : State), let q := tick t s; s.Inv ∧ (∀ n ∈ dovetailNext q, slotsReady q n = false ∨ importPresent q n = true)) ∧
    (∃ (n : _) (g : GridCfg) (t : Nat) (s : State), let q := tick t s; s.Inv ∧ (up q ∧ dovetailNext q = some n ∧ (cfgAt q n).grid = some g ∧
    g.importCols ≠ 0 ∧ inSpans q n = true ∧ slotsReady q n = true ∧ importPresent q n = false ∧ n ∉ q.dovetail.importMissing ∧
    firstIn 0x1B1 (stripAt q n) q)) := ⟨
   ⟨1000, upState, inv_of (by decide +kernel), by decide +kernel⟩,
   ⟨2, 7, ({ columns := 6, pitchNm := 1000, order := [2], uncoveredFill := 9 } : GridCfg), 1000,
   (let b : State := (setSlotPlane 2 (fun x => { x with last := some 7, out := [{ line := 7, field := 0, samples := [11,12,13,14], tag := zeros 32 }] }) (setSlotIngest 2 (fun x => { x with nextReady := some 9 }) (let b : State := (let b : State := (let b : State := (let b : State := upState; { b with running := { b.running with trig := vset b.running.trig 2 { (vget b.running.trig 2) with enable := true } } }); { b with running := { b.running with link := vset b.running.link 2 { (vget b.running.link 2) with enable := true, width := 4 } } }); { b with spans := [(0, 1000)], running := { b.running with grid := some ({ columns := 6, pitchNm := 1000, order := [2], uncoveredFill := 9 } : GridCfg), part := vset b.running.part 12 { (vget b.running.part 12) with enable := true, baseMib := 1, sizeA := 4 } } }); { b with dovetail := { b.dovetail with layout := stripLayout b.running, layoutFrom := some 0, last := some 6, maps := vset b.dovetail.maps 2 { active := [{ x := 0, p := 0, d := 4096000 }, { x := 4000, p := 16384, d := 4096000 }] } } }))); { b with marq := { b.marq with last := some 6 } }),
   by decide +kernel, inv_of (by decide +kernel), by decide +kernel⟩,
   ⟨2, 7, ({ columns := 6, pitchNm := 1000, order := [2], uncoveredFill := 9 } : GridCfg), 1000,
   (let b : State := (setSlotPlane 2 (fun x => { x with last := some 7, out := [{ line := 7, field := 0, gap := true, samples := [11,12,13,14], tag := zeros 32 }] }) (setSlotIngest 2 (fun x => { x with nextReady := some 9 }) (let b : State := (let b : State := (let b : State := (let b : State := upState; { b with running := { b.running with trig := vset b.running.trig 2 { (vget b.running.trig 2) with enable := true } } }); { b with running := { b.running with link := vset b.running.link 2 { (vget b.running.link 2) with enable := true, width := 4 } } }); { b with spans := [(0, 1000)], running := { b.running with grid := some ({ columns := 6, pitchNm := 1000, order := [2], uncoveredFill := 9 } : GridCfg), part := vset b.running.part 12 { (vget b.running.part 12) with enable := true, baseMib := 1, sizeA := 4 } } }); { b with dovetail := { b.dovetail with layout := stripLayout b.running, layoutFrom := some 0, last := some 6, maps := vset b.dovetail.maps 2 { active := [{ x := 0, p := 0, d := 4096000 }, { x := 4000, p := 16384, d := 4096000 }] } } }))); { b with marq := { b.marq with last := some 6 } }),
   by decide +kernel, inv_of (by decide +kernel), by decide +kernel⟩,
   ⟨63, ({ columns := 6, pitchNm := 1000, order := [2], uncoveredFill := 9 } : GridCfg), 1000,
   (let b : State := (let b : State := (setSlotPlane 2 (fun x => { x with last := some 63, out := [{ line := 63, field := 0, samples := [11,12,13,14], tag := zeros 32 }] }) (setSlotIngest 2 (fun x => { x with nextReady := some 90 }) (let b : State := (let b : State := (let b : State := (let b : State := upState; { b with running := { b.running with trig := vset b.running.trig 2 { (vget b.running.trig 2) with enable := true } } }); { b with running := { b.running with link := vset b.running.link 2 { (vget b.running.link 2) with enable := true, width := 4 } } }); { b with spans := [(0, 1000)], running := { b.running with grid := some ({ columns := 6, pitchNm := 1000, order := [2], uncoveredFill := 9 } : GridCfg), part := vset b.running.part 12 { (vget b.running.part 12) with enable := true, baseMib := 1, sizeA := 4 } } }); { b with dovetail := { b.dovetail with layout := stripLayout b.running, layoutFrom := some 0, last := some 62, maps := vset b.dovetail.maps 2 { active := [{ x := 0, p := 0, d := 4096000 }, { x := 4000, p := 16384, d := 4096000 }] } } }))); { b with marq := { b.marq with last := some 62 } }); { b with running := { b.running with bg := { b.running.bg with fields := 1 } }, prof := { b.prof with bg := vset b.prof.bg 0 { (vget b.prof.bg 0) with waiting := some default } } }),
   inv_of (by decide +kernel), by decide +kernel⟩,
   ⟨({ line := 9, field := 0, cols := 3, samples := [1,2,3] } : ImportRow), 1000, upState, inv_of (by decide +kernel), by decide +kernel⟩,
   ⟨({ line := 9, field := 0, cols := 4, samples := [1,2,3] } : ImportRow),
   ({ columns := 6, pitchNm := 1000, order := [2], importCols := 3, uncoveredFill := 9 } : GridCfg), 1000,
   (let b : State := (setSlotPlane 2 (fun x => { x with last := some 7, out := [{ line := 7, field := 0, samples := [11,12,13,14], tag := zeros 32 }] }) (setSlotIngest 2 (fun x => { x with nextReady := some 9 }) (let b : State := (let b : State := (let b : State := (let b : State := upState; { b with running := { b.running with trig := vset b.running.trig 2 { (vget b.running.trig 2) with enable := true } } }); { b with running := { b.running with link := vset b.running.link 2 { (vget b.running.link 2) with enable := true, width := 4 } } }); { b with spans := [(0, 1000)], running := { b.running with grid := some ({ columns := 6, pitchNm := 1000, order := [2], importCols := 3, uncoveredFill := 9 } : GridCfg), part := vset b.running.part 12 { (vget b.running.part 12) with enable := true, baseMib := 1, sizeA := 4 } } }); { b with dovetail := { b.dovetail with layout := stripLayout b.running, layoutFrom := some 0, last := some 6, maps := vset b.dovetail.maps 2 { active := [{ x := 0, p := 0, d := 4096000 }, { x := 4000, p := 16384, d := 4096000 }] } } }))); { b with marq := { b.marq with last := some 6 } }),
   inv_of (by decide +kernel), by decide +kernel⟩,
   ⟨({ line := 9, field := 0, cols := 3, samples := [1,2,3] } : ImportRow),
   ({ columns := 6, pitchNm := 1000, order := [2], importCols := 3, uncoveredFill := 9 } : GridCfg), 1000,
   (let b : State := (let b : State := (setSlotPlane 2 (fun x => { x with last := some 7, out := [{ line := 7, field := 0, samples := [11,12,13,14], tag := zeros 32 }] }) (setSlotIngest 2 (fun x => { x with nextReady := some 9 }) (let b : State := (let b : State := (let b : State := (let b : State := upState; { b with running := { b.running with trig := vset b.running.trig 2 { (vget b.running.trig 2) with enable := true } } }); { b with running := { b.running with link := vset b.running.link 2 { (vget b.running.link 2) with enable := true, width := 4 } } }); { b with spans := [(0, 1000)], running := { b.running with grid := some ({ columns := 6, pitchNm := 1000, order := [2], importCols := 3, uncoveredFill := 9 } : GridCfg), part := vset b.running.part 12 { (vget b.running.part 12) with enable := true, baseMib := 1, sizeA := 4 } } }); { b with dovetail := { b.dovetail with layout := stripLayout b.running, layoutFrom := some 0, last := some 6, maps := vset b.dovetail.maps 2 { active := [{ x := 0, p := 0, d := 4096000 }, { x := 4000, p := 16384, d := 4096000 }] } } }))); { b with marq := { b.marq with last := some 6 } }); { b with dovetail := { b.dovetail with importMissing := [9] } }),
   inv_of (by decide +kernel), by decide +kernel⟩,
   ⟨({ line := 9, field := 0, cols := 3, samples := [1,2,3] } : ImportRow),
   ({ columns := 6, pitchNm := 1000, order := [2], importCols := 3, uncoveredFill := 9 } : GridCfg), 1000,
   (let b : State := (setSlotPlane 2 (fun x => { x with last := some 7, out := [{ line := 7, field := 0, samples := [11,12,13,14], tag := zeros 32 }] }) (setSlotIngest 2 (fun x => { x with nextReady := some 9 }) (let b : State := (let b : State := (let b : State := (let b : State := upState; { b with running := { b.running with trig := vset b.running.trig 2 { (vget b.running.trig 2) with enable := true } } }); { b with running := { b.running with link := vset b.running.link 2 { (vget b.running.link 2) with enable := true, width := 4 } } }); { b with spans := [(0, 1000)], running := { b.running with grid := some ({ columns := 6, pitchNm := 1000, order := [2], importCols := 3, uncoveredFill := 9 } : GridCfg), part := vset b.running.part 12 { (vget b.running.part 12) with enable := true, baseMib := 1, sizeA := 4 } } }); { b with dovetail := { b.dovetail with layout := stripLayout b.running, layoutFrom := some 0, last := some 6, maps := vset b.dovetail.maps 2 { active := [{ x := 0, p := 0, d := 4096000 }, { x := 4000, p := 16384, d := 4096000 }] } } }))); { b with marq := { b.marq with last := some 6 } }),
   inv_of (by decide +kernel), by decide +kernel⟩,
   ⟨1000, upState, inv_of (by decide +kernel), by decide +kernel⟩,
   ⟨7, ({ columns := 6, pitchNm := 1000, order := [2], importCols := 3, uncoveredFill := 9 } : GridCfg), 1000,
   (let b : State := (setSlotPlane 2 (fun x => { x with last := some 7, out := [{ line := 7, field := 0, samples := [11,12,13,14], tag := zeros 32 }] }) (setSlotIngest 2 (fun x => { x with nextReady := some 9 }) (let b : State := (let b : State := (let b : State := (let b : State := upState; { b with running := { b.running with trig := vset b.running.trig 2 { (vget b.running.trig 2) with enable := true } } }); { b with running := { b.running with link := vset b.running.link 2 { (vget b.running.link 2) with enable := true, width := 4 } } }); { b with spans := [(0, 1000)], running := { b.running with grid := some ({ columns := 6, pitchNm := 1000, order := [2], importCols := 3, uncoveredFill := 9 } : GridCfg), part := vset b.running.part 12 { (vget b.running.part 12) with enable := true, baseMib := 1, sizeA := 4 } } }); { b with dovetail := { b.dovetail with layout := stripLayout b.running, layoutFrom := some 0, last := some 6, maps := vset b.dovetail.maps 2 { active := [{ x := 0, p := 0, d := 4096000 }, { x := 4000, p := 16384, d := 4096000 }] } } }))); { b with marq := { b.marq with last := some 6 } }),
   inv_of (by decide +kernel), by decide +kernel⟩⟩

theorem wit_MarquetrySegments :
    (∃ (t : Nat) (s : State), let q := tick t s; s.Inv ∧ (alone q ∧ q.pair.snapshot = none ∧ q.pair.atStrip = none ∧ q.pair.trims = [] ∧
    ∀ n ∈ marqNext q, isStitched q n = false ∨ isFenced q 0x06 0 = true)) ∧
    (∃ (n : _) (g : GridCfg) (t : Nat) (s : State), let q := tick t s; s.Inv ∧ (marqPlain n g q ∧ isStripLast (cfgAt q n).shift n = false ∧
    (∀ c : Nat, c < 16 → (vget q.marq.active.classes c).enable = false))) ∧
    (∃ (n : _) (g : GridCfg) (t : Nat) (s : State), let q := tick t s; s.Inv ∧ (marqPlain n g q ∧ isStripLast (cfgAt q n).shift n = true ∧
    flushAt q n = false ∧ (∀ c : Nat, c < 16 → (vget q.marq.active.classes c).enable = false))) ∧
    (∃ (n : _) (g : GridCfg) (t : Nat) (s : State), let q := tick t s; s.Inv ∧ (marqPlain n g q ∧ flushAt q n = true ∧ (∀ c : Nat, c < 16 →
    (vget q.marq.active.classes c).enable = false))) ∧
    (∃ (n : _) (g : GridCfg) (run : Run) (t : Nat) (s : State), let q := tick t s; s.Inv ∧ (marqPlain n g q ∧
    isStripLast (cfgAt q n).shift n = false ∧ codeRuns (lineMasks q q.marq.active g.columns n) 0 = [run] ∧ (∀ f ∈ fieldsRead q.marq.active false,
    stTagFlags (readStitchedTag q n f) = 0))) ∧
    (∃ (msg : EdgeMsg) (g : GridCfg) (t : Nat) (s : State), let q := tick t s; s.Inv ∧ (up q ∧ (cfgAt q msg.line).grid = some g ∧ g.importCols ≠ 0 ∧
    msg.line ∉ q.marq.edgeMissing ∧ ∀ l ∈ q.marq.last, atOrAfter l msg.line = false)) ∧
    (∃ (msg : EdgeMsg) (t : Nat) (s : State), let q := tick t s; s.Inv ∧ (msg.line ∈ q.marq.edgeMissing ∨ (∃ l ∈ q.marq.last,
    atOrAfter l msg.line = true) ∨ ∃ g ∈ (cfgAt q msg.line).grid, g.importCols = 0)) ∧
    (∃ (n : _) (g : GridCfg) (t : Nat) (s : State), let q := tick t s; s.Inv ∧ (up q ∧ marqNext q = some n ∧ (cfgAt q n).grid = some g ∧
    g.importCols ≠ 0 ∧ inSpans q n = true ∧ n ∉ q.marq.edgeMissing ∧ (∀ e ∈ q.marq.edges, e.line ≠ n) ∧ firstIn 0x1C5 (stripAt q n) q)) ∧
    (∃ (t : Nat) (s : State), let q := tick t s; s.Inv ∧ (∀ n ∈ marqNext q, n ∈ q.marq.edgeMissing)) := ⟨
   ⟨1000, upState, inv_of (by decide +kernel), by decide +kernel⟩,
   ⟨7, ({ columns := 6, pitchNm := 1000, order := [2], uncoveredFill := 9 } : GridCfg), 1000,
   (let b : State := (let b : State := (setSlotPlane 2 (fun x => { x with last := some 7, out := [{ line := 7, field := 0, samples := [11,12,13,14], tag := zeros 32 }] }) (setSlotIngest 2 (fun x => { x with nextReady := some 9 }) (let b : State := (let b : State := (let b : State := (let b : State := upState; { b with running := { b.running with trig := vset b.running.trig 2 { (vget b.running.trig 2) with enable := true } } }); { b with running := { b.running with link := vset b.running.link 2 { (vget b.running.link 2) with enable := true, width := 4 } } }); { b with spans := [(0, 1000)], running := { b.running with grid := some ({ columns := 6, pitchNm := 1000, order := [2], uncoveredFill := 9 } : GridCfg), part := vset b.running.part 12 { (vget b.running.part 12) with enable := true, baseMib := 1, sizeA := 4 } } }); { b with dovetail := { b.dovetail with layout := stripLayout b.running, layoutFrom := some 0, last := some 6, maps := vset b.dovetail.maps 2 { active := [{ x := 0, p := 0, d := 4096000 }, { x := 4000, p := 16384, d := 4096000 }] } } }))); { b with dovetail := { b.dovetail with last := some 8 } }); { b with marq := { b.marq with last := some 6 } }),
   inv_of (by decide +kernel), by decide +kernel⟩,
   ⟨255, ({ columns := 6, pitchNm := 1000, order := [2], uncoveredFill := 9 } : GridCfg), 1000,
   (let b : State := (let b : State := (setSlotPlane 2 (fun x => { x with last := some 7, out := [{ line := 7, field := 0, samples := [11,12,13,14], tag := zeros 32 }] }) (setSlotIngest 2 (fun x => { x with nextReady := some 9 }) (let b : State := (let b : State := (let b : State := (let b : State := upState; { b with running := { b.running with trig := vset b.running.trig 2 { (vget b.running.trig 2) with enable := true } } }); { b with running := { b.running with link := vset b.running.link 2 { (vget b.running.link 2) with enable := true, width := 4 } } }); { b with spans := [(0, 1000)], running := { b.running with grid := some ({ columns := 6, pitchNm := 1000, order := [2], uncoveredFill := 9 } : GridCfg), part := vset b.running.part 12 { (vget b.running.part 12) with enable := true, baseMib := 1, sizeA := 4 } } }); { b with dovetail := { b.dovetail with layout := stripLayout b.running, layoutFrom := some 0, last := some 254, maps := vset b.dovetail.maps 2 { active := [{ x := 0, p := 0, d := 4096000 }, { x := 4000, p := 16384, d := 4096000 }] } } }))); { b with dovetail := { b.dovetail with last := some 300 } }); { b with marq := { b.marq with last := some 254 } }),
   inv_of (by decide +kernel), by decide +kernel⟩,
   ⟨255, ({ columns := 6, pitchNm := 1000, order := [2], uncoveredFill := 9 } : GridCfg), 1000,
   (let b : State := (let b : State := (setSlotPlane 2 (fun x => { x with last := some 7, out := [{ line := 7, field := 0, samples := [11,12,13,14], tag := zeros 32 }] }) (setSlotIngest 2 (fun x => { x with nextReady := some 9 }) (let b : State := (let b : State := (let b : State := (let b : State := upState; { b with running := { b.running with trig := vset b.running.trig 2 { (vget b.running.trig 2) with enable := true } } }); { b with running := { b.running with link := vset b.running.link 2 { (vget b.running.link 2) with enable := true, width := 4 } } }); { b with spans := [(0, 255)], running := { b.running with grid := some ({ columns := 6, pitchNm := 1000, order := [2], uncoveredFill := 9 } : GridCfg), part := vset b.running.part 12 { (vget b.running.part 12) with enable := true, baseMib := 1, sizeA := 4 } } }); { b with dovetail := { b.dovetail with layout := stripLayout b.running, layoutFrom := some 0, last := some 254, maps := vset b.dovetail.maps 2 { active := [{ x := 0, p := 0, d := 4096000 }, { x := 4000, p := 16384, d := 4096000 }] } } }))); { b with dovetail := { b.dovetail with last := some 255 } }); { b with marq := { b.marq with last := some 254 } }),
   inv_of (by decide +kernel), by decide +kernel⟩,
   ⟨7, ({ columns := 6, pitchNm := 1000, order := [2], uncoveredFill := 9 } : GridCfg),
   ((codeRuns (lineMasks ((let z : State := (let b : State := (let b : State := (setSlotPlane 2 (fun x => { x with last := some 7, out := [{ line := 7, field := 0, samples := [11,12,13,14], tag := zeros 32 }] }) (setSlotIngest 2 (fun x => { x with nextReady := some 9 }) (let b : State := (let b : State := (let b : State := (let b : State := upState; { b with running := { b.running with trig := vset b.running.trig 2 { (vget b.running.trig 2) with enable := true } } }); { b with running := { b.running with link := vset b.running.link 2 { (vget b.running.link 2) with enable := true, width := 4 } } }); { b with spans := [(0, 1000)], running := { b.running with grid := some ({ columns := 6, pitchNm := 1000, order := [2], uncoveredFill := 9 } : GridCfg), part := vset b.running.part 12 { (vget b.running.part 12) with enable := true, baseMib := 1, sizeA := 4 } } }); { b with dovetail := { b.dovetail with layout := stripLayout b.running, layoutFrom := some 0, last := some 6, maps := vset b.dovetail.maps 2 { active := [{ x := 0, p := 0, d := 4096000 }, { x := 4000, p := 16384, d := 4096000 }] } } }))); { b with dovetail := { b.dovetail with last := some 8 } }); { b with marq := { b.marq with last := some 6, active := { b.marq.active with classes := vset b.marq.active.classes 3 { (vget b.marq.active.classes 3) with enable := true, op := 0, low := 3, high := 3 } } } }); written [(z.dovetail.layout.base + stripSampleOff z.dovetail.layout 7 0, packRow [1,2,3,3,1,1])] z)) ((let z : State := (let b : State := (let b : State := (setSlotPlane 2 (fun x => { x with last := some 7, out := [{ line := 7, field := 0, samples := [11,12,13,14], tag := zeros 32 }] }) (setSlotIngest 2 (fun x => { x with nextReady := some 9 }) (let b : State := (let b : State := (let b : State := (let b : State := upState; { b with running := { b.running with trig := vset b.running.trig 2 { (vget b.running.trig 2) with enable := true } } }); { b with running := { b.running with link := vset b.running.link 2 { (vget b.running.link 2) with enable := true, width := 4 } } }); { b with spans := [(0, 1000)], running := { b.running with grid := some ({ columns := 6, pitchNm := 1000, order := [2], uncoveredFill := 9 } : GridCfg), part := vset b.running.part 12 { (vget b.running.part 12) with enable := true, baseMib := 1, sizeA := 4 } } }); { b with dovetail := { b.dovetail with layout := stripLayout b.running, layoutFrom := some 0, last := some 6, maps := vset b.dovetail.maps 2 { active := [{ x := 0, p := 0, d := 4096000 }, { x := 4000, p := 16384, d := 4096000 }] } } }))); { b with dovetail := { b.dovetail with last := some 8 } }); { b with marq := { b.marq with last := some 6, active := { b.marq.active with classes := vset b.marq.active.classes 3 { (vget b.marq.active.classes 3) with enable := true, op := 0, low := 3, high := 3 } } } }); written [(z.dovetail.layout.base + stripSampleOff z.dovetail.layout 7 0, packRow [1,2,3,3,1,1])] z)).marq.active 6 7) 0).headD {}),
   1000,
   (let z : State := (let b : State := (let b : State := (setSlotPlane 2 (fun x => { x with last := some 7, out := [{ line := 7, field := 0, samples := [11,12,13,14], tag := zeros 32 }] }) (setSlotIngest 2 (fun x => { x with nextReady := some 9 }) (let b : State := (let b : State := (let b : State := (let b : State := upState; { b with running := { b.running with trig := vset b.running.trig 2 { (vget b.running.trig 2) with enable := true } } }); { b with running := { b.running with link := vset b.running.link 2 { (vget b.running.link 2) with enable := true, width := 4 } } }); { b with spans := [(0, 1000)], running := { b.running with grid := some ({ columns := 6, pitchNm := 1000, order := [2], uncoveredFill := 9 } : GridCfg), part := vset b.running.part 12 { (vget b.running.part 12) with enable := true, baseMib := 1, sizeA := 4 } } }); { b with dovetail := { b.dovetail with layout := stripLayout b.running, layoutFrom := some 0, last := some 6, maps := vset b.dovetail.maps 2 { active := [{ x := 0, p := 0, d := 4096000 }, { x := 4000, p := 16384, d := 4096000 }] } } }))); { b with dovetail := { b.dovetail with last := some 8 } }); { b with marq := { b.marq with last := some 6, active := { b.marq.active with classes := vset b.marq.active.classes 3 { (vget b.marq.active.classes 3) with enable := true, op := 0, low := 3, high := 3 } } } }); written [(z.dovetail.layout.base + stripSampleOff z.dovetail.layout 7 0, packRow [1,2,3,3,1,1])] z),
   inv_of (by decide +kernel), by decide +kernel⟩,
   ⟨({ line := 9 } : EdgeMsg), ({ columns := 6, pitchNm := 1000, order := [2], importCols := 3, uncoveredFill := 9 } : GridCfg), 1000,
   (let b : State := (setSlotPlane 2 (fun x => { x with last := some 7, out := [{ line := 7, field := 0, samples := [11,12,13,14], tag := zeros 32 }] }) (setSlotIngest 2 (fun x => { x with nextReady := some 9 }) (let b : State := (let b : State := (let b : State := (let b : State := upState; { b with running := { b.running with trig := vset b.running.trig 2 { (vget b.running.trig 2) with enable := true } } }); { b with running := { b.running with link := vset b.running.link 2 { (vget b.running.link 2) with enable := true, width := 4 } } }); { b with spans := [(0, 1000)], running := { b.running with grid := some ({ columns := 6, pitchNm := 1000, order := [2], importCols := 3, uncoveredFill := 9 } : GridCfg), part := vset b.running.part 12 { (vget b.running.part 12) with enable := true, baseMib := 1, sizeA := 4 } } }); { b with dovetail := { b.dovetail with layout := stripLayout b.running, layoutFrom := some 0, last := some 6, maps := vset b.dovetail.maps 2 { active := [{ x := 0, p := 0, d := 4096000 }, { x := 4000, p := 16384, d := 4096000 }] } } }))); { b with marq := { b.marq with last := some 6 } }),
   inv_of (by decide +kernel), by decide +kernel⟩,
   ⟨({ line := 9 } : EdgeMsg), 1000,
   (let b : State := (let b : State := (setSlotPlane 2 (fun x => { x with last := some 7, out := [{ line := 7, field := 0, samples := [11,12,13,14], tag := zeros 32 }] }) (setSlotIngest 2 (fun x => { x with nextReady := some 9 }) (let b : State := (let b : State := (let b : State := (let b : State := upState; { b with running := { b.running with trig := vset b.running.trig 2 { (vget b.running.trig 2) with enable := true } } }); { b with running := { b.running with link := vset b.running.link 2 { (vget b.running.link 2) with enable := true, width := 4 } } }); { b with spans := [(0, 1000)], running := { b.running with grid := some ({ columns := 6, pitchNm := 1000, order := [2], importCols := 3, uncoveredFill := 9 } : GridCfg), part := vset b.running.part 12 { (vget b.running.part 12) with enable := true, baseMib := 1, sizeA := 4 } } }); { b with dovetail := { b.dovetail with layout := stripLayout b.running, layoutFrom := some 0, last := some 6, maps := vset b.dovetail.maps 2 { active := [{ x := 0, p := 0, d := 4096000 }, { x := 4000, p := 16384, d := 4096000 }] } } }))); { b with marq := { b.marq with last := some 6 } }); { b with marq := { b.marq with last := some 11 } }),
   inv_of (by decide +kernel), by decide +kernel⟩,
   ⟨7, ({ columns := 6, pitchNm := 1000, order := [2], importCols := 3, uncoveredFill := 9 } : GridCfg), 1000,
   (let b : State := (setSlotPlane 2 (fun x => { x with last := some 7, out := [{ line := 7, field := 0, samples := [11,12,13,14], tag := zeros 32 }] }) (setSlotIngest 2 (fun x => { x with nextReady := some 9 }) (let b : State := (let b : State := (let b : State := (let b : State := upState; { b with running := { b.running with trig := vset b.running.trig 2 { (vget b.running.trig 2) with enable := true } } }); { b with running := { b.running with link := vset b.running.link 2 { (vget b.running.link 2) with enable := true, width := 4 } } }); { b with spans := [(0, 1000)], running := { b.running with grid := some ({ columns := 6, pitchNm := 1000, order := [2], importCols := 3, uncoveredFill := 9 } : GridCfg), part := vset b.running.part 12 { (vget b.running.part 12) with enable := true, baseMib := 1, sizeA := 4 } } }); { b with dovetail := { b.dovetail with layout := stripLayout b.running, layoutFrom := some 0, last := some 6, maps := vset b.dovetail.maps 2 { active := [{ x := 0, p := 0, d := 4096000 }, { x := 4000, p := 16384, d := 4096000 }] } } }))); { b with marq := { b.marq with last := some 6 } }),
   inv_of (by decide +kernel), by decide +kernel⟩,
   ⟨1000, upState, inv_of (by decide +kernel), by decide +kernel⟩⟩

theorem wit_QueuesPlaceAndServe :
    (∃ (q : Nat) (t : Nat) (s : State), let z := tick t s; q < 16 ∧ s.Inv ∧ (alone z ∧ z.ring.sources = [] ∧ (∀ i ∈ z.scribe.inbox, i.queue ≠ q))) ∧
    (∃ (q : Nat) (k : _) (i : ScribeItem) (t : Nat) (s : State), let z := tick t s; q < 16 ∧ i.queue = q ∧ i.item = none ∧ s.Inv ∧ (up z ∧
    partUp z 14 = true ∧ partUp z 15 = true ∧ alone z ∧ z.ring.sources = [] ∧ z.scribe.ticketWait = none ∧ z.scribe.inbox = [i] ∧
    nextStrip z q = some k ∧ sourcesDone z q k = true ∧ queueTakes q z ∧ nextSlot z < ledgerSlots)) ∧
    (∃ (q : Nat) (k : _) (i : ScribeItem) (t : Nat) (s : State), let z := tick t s; q < 16 ∧ i.queue = q ∧ s.Inv ∧ (up z ∧ partUp z 14 = true ∧
    partUp z 15 = true ∧ alone z ∧ z.ring.sources = [] ∧ z.scribe.ticketWait = none ∧ z.scribe.inbox = [i] ∧ nextStrip z q = some k ∧
    sourcesDone z q k = true ∧ (vget z.scribe.queues q).on = false)) ∧
    (∃ (q : Nat) (k : _) (t : Nat) (s : State), let z := tick t s; q < 16 ∧ s.Inv ∧ (alone z ∧ z.ring.sources = [] ∧ nextStrip z q = some k ∧
    sourcesDone z q k = false)) ∧
    (∃ (q : Nat) (t : Nat) (s : State), let z := tick t s; q < 16 ∧ s.Inv ∧ (up z ∧ partUp z 15 = true ∧ (vget z.scribe.queues q).on = true ∧
    z.ring.sources = [] ∧ (vget z.scribe.queues q).head < 32 ∧ (vget z.scribe.queues q).head < unread (vget z.scribe.queues q))) ∧
    (∃ (q : Nat) (t : Nat) (s : State), let z := tick t s; q < 16 ∧ s.Inv ∧
    ((vget z.scribe.queues q).on = false ∨ (vget z.scribe.queues q).head = 32 ∨ (vget z.scribe.queues q).head = unread (vget z.scribe.queues q))) ∧
    (∃ (q : Nat) (t : Nat) (s : State), let z := tick t s; q < 16 ∧ s.Inv ∧ (up z ∧ (vget z.scribe.queues q).on = true ∧
    (vget z.scribe.queues q).idleTimeout ≠ 0 ∧ (vget z.scribe.queues q).wr ≠ (vget z.scribe.queues q).rd ∧
    (vget z.scribe.queues q).idleDone = false ∧ (vget z.scribe.queues q).idleSince + (vget z.scribe.queues q).idleTimeout * 1000 ≤ z.now)) ∧
    (∃ (q : Nat) (t : Nat) (s : State), let z := tick t s; q < 16 ∧ s.Inv ∧
    ((vget z.scribe.queues q).idleDone = true ∨ (vget z.scribe.queues q).wr = (vget z.scribe.queues q).rd ∨ z.now < (vget z.scribe.queues q).idleSince + (vget z.scribe.queues q).idleTimeout * 1000)) ∧
    (∃ (q : Nat) (t : Nat) (s : State), let z := tick t s; q < 16 ∧ s.Inv ∧ (∀ j ∈ z.scribe.jobs, j.queue = q → j.cut = true)) ∧
    (∃ (q : Nat) (j : PatchJob) (t : Nat) (s : State), let z := tick t s; q < 16 ∧ j.engine < 16 ∧ j.queue = q ∧ j.cut = false ∧
    j.pretransform = false ∧ s.Inv ∧ (up z ∧ partUp z 12 = true ∧ z.scribe.jobs = [j] ∧ marqPast z j.lastLine = true ∧
    isFenced z 0x0A j.engine = false ∧ (ceAt z j.engine).job = none)) := ⟨
   ⟨3, 1000, upState, by decide +kernel, inv_of (by decide +kernel), by decide +kernel⟩,
   ⟨3, 767, ({ kind := .statistics, queue := 3, strip := 2, lastLine := 767, body := zeros 56 } : ScribeItem), 1000,
   (setQueue 3 (fun x => { x with on := true, cap := 1024, base := 65536, wr := 5, rd := 3, rel := 2 }) (let b : State := upState; { b with scribe := { b.scribe with inbox := [({ kind := .statistics, queue := 3, strip := 2, lastLine := 767, body := zeros 56 } : ScribeItem)] } })),
   by decide +kernel, by decide +kernel, by decide +kernel, inv_of (by decide +kernel), by decide +kernel⟩,
   ⟨3, 767, ({ kind := .statistics, queue := 3, strip := 2, lastLine := 767, body := zeros 56 } : ScribeItem), 1000,
   (let b : State := upState; { b with scribe := { b.scribe with inbox := [({ kind := .statistics, queue := 3, strip := 2, lastLine := 767, body := zeros 56 } : ScribeItem)] } }),
   by decide +kernel, by decide +kernel, inv_of (by decide +kernel), by decide +kernel⟩,
   ⟨3, 767, 1000,
   (let b : State := (let b : State := (setQueue 3 (fun x => { x with on := true, cap := 1024, base := 65536, wr := 5, rd := 3, rel := 2 }) (let b : State := upState; { b with scribe := { b.scribe with inbox := [({ kind := .statistics, queue := 3, strip := 2, lastLine := 767, body := zeros 56 } : ScribeItem)] } })); { b with running := { b.running with trig := vset b.running.trig 2 { (vget b.running.trig 2) with enable := true } } }); { b with running := { b.running with link := vset b.running.link 2 { (vget b.running.link 2) with enable := true, eventQueue := some 3 } } }),
   by decide +kernel, inv_of (by decide +kernel), by decide +kernel⟩,
   ⟨3, 1000,
   (setQueue 3 (fun x => { x with on := true, cap := 1024, base := 65536, wr := 5, rd := 3, rel := 2 }) (let b : State := upState; { b with scribe := { b.scribe with inbox := [({ kind := .statistics, queue := 3, strip := 2, lastLine := 767, body := zeros 56 } : ScribeItem)] } })),
   by decide +kernel, inv_of (by decide +kernel), by decide +kernel⟩,
   ⟨3, 1000, upState, by decide +kernel, inv_of (by decide +kernel), by decide +kernel⟩,
   ⟨3, 20000, (setQueue 3 (fun x => { x with on := true, wr := 5, rd := 3, idleTimeout := 10 }) upState), by decide +kernel,
   inv_of (by decide +kernel), by decide +kernel⟩,
   ⟨3, 1000, upState, by decide +kernel, inv_of (by decide +kernel), by decide +kernel⟩,
   ⟨3, 1000, upState, by decide +kernel, inv_of (by decide +kernel), by decide +kernel⟩,
   ⟨3, ({ queue := 3, seq := 4, cols := 2, lines := 1, firstLine := 7, lastLine := 7, engine := 5, truncated := true } : PatchJob), 1000,
   (let b : State := (let z : State := (let b : State := (let b : State := (setSlotPlane 2 (fun x => { x with last := some 7, out := [{ line := 7, field := 0, samples := [11,12,13,14], tag := zeros 32 }] }) (setSlotIngest 2 (fun x => { x with nextReady := some 9 }) (let b : State := (let b : State := (let b : State := (let b : State := upState; { b with running := { b.running with trig := vset b.running.trig 2 { (vget b.running.trig 2) with enable := true } } }); { b with running := { b.running with link := vset b.running.link 2 { (vget b.running.link 2) with enable := true, width := 4 } } }); { b with spans := [(0, 1000)], running := { b.running with grid := some ({ columns := 6, pitchNm := 1000, order := [2], uncoveredFill := 9 } : GridCfg), part := vset b.running.part 12 { (vget b.running.part 12) with enable := true, baseMib := 1, sizeA := 4 } } }); { b with dovetail := { b.dovetail with layout := stripLayout b.running, layoutFrom := some 0, last := some 7, maps := vset b.dovetail.maps 2 { active := [{ x := 0, p := 0, d := 4096000 }, { x := 4000, p := 16384, d := 4096000 }] } } }))); { b with dovetail := { b.dovetail with last := some 8 } }); { b with marq := { b.marq with last := some 7, active := { b.marq.active with classes := vset b.marq.active.classes 3 { (vget b.marq.active.classes 3) with enable := true, op := 0, low := 3, high := 3 } } } }); written [(z.dovetail.layout.base + stripSampleOff z.dovetail.layout 7 0, packRow [1,2,3,3,1,1])] z); { b with scribe := { b.scribe with jobs := [({ queue := 3, seq := 4, cols := 2, lines := 1, firstLine := 7, lastLine := 7, engine := 5, truncated := true } : PatchJob)] } }),
   by decide +kernel, by decide +kernel, by decide +kernel, by decide +kernel, by decide +kernel, inv_of (by decide +kernel), by decide +kernel⟩⟩

theorem wit_ProfilesAndViews :
    (∃ (slot : Nat) (t : Nat) (s : State), let q := tick t s; slot < 24 ∧ s.Inv ∧ (alone q ∧ profileNext q slot = none)) ∧
    (∃ (slot : Nat) (e : CorrLine) (t : Nat) (s : State), let q := tick t s; slot < 24 ∧ s.Inv ∧ (profilePlain slot e q ∧ zonePixels slot e q ≠ [] ∧
    (zoneTaken slot e q).2 = false)) ∧
    (∃ (slot : Nat) (m : Nat) (e : CorrLine) (w : WatchCfg) (t : Nat) (s : State), let q := tick t s; slot < 24 ∧ w.mode = 1 ∧ w.minDur ≤ 1 ∧
    w.high < (m : Int) ∧ s.Inv ∧ (profilePlain slot e q ∧ zonePixels slot e q ≠ [] ∧ (zoneTaken slot e q).2 = true ∧
    (zoneTaken slot e q).1.grit.out = some m ∧ watchOf (cfgAt q e.line) slot 0 = w)) ∧
    (∃ (t : Nat) (s : State), let q := tick t s; s.Inv ∧ (alone q ∧ q.dovetail.formed = [])) ∧
    (∃ (l : FormedLine) (rest : List FormedLine) (row : List Nat × List (Nat × Nat)) (g : GridCfg) (t : Nat) (s : State),
    let q := tick t s; l.rows = [row] ∧ g.columns ≤ 16 ∧ 0 < g.columns ∧ s.Inv ∧ (up q ∧ alone q ∧ q.dovetail.formed = l :: rest ∧
    (cfgAt q l.line).grid = some g ∧ (cfgAt q l.line).bg.fields = 1 ∧ bgCompletes (cfgAt q l.line).bg l.line = false ∧ (∀ f : Nat, f < 4 →
    (vget q.prof.bg f).last = none) ∧ (vget q.prof.bg 0).entries = [] ∧ (vget q.prof.bg 0).rows = [])) ∧
    (∃ (f : Nat) (t : Nat) (s : State), let q := tick t s; f < 4 ∧ s.Inv ∧ ((vget q.prof.bg f).waiting = none ∨ bgRoom q f = false)) ∧
    (∃ (f : Nat) (r : BgRow) (t : Nat) (s : State), let q := tick t s; f < 4 ∧ s.Inv ∧ (up q ∧ (vget q.prof.bg f).waiting = some r ∧
    bgRoom q f = true ∧ (vget q.prof.bg f).fresh = false)) ∧
    (∃ (f : Nat) (r : BgRow) (t : Nat) (s : State), let q := tick t s; f < 4 ∧ s.Inv ∧ (up q ∧ (vget q.prof.bg f).waiting = some r ∧
    bgRoom q f = true ∧ (vget q.prof.bg f).fresh = true)) ∧
    (∃ (v : Nat) (t : Nat) (s : State), let q := tick t s; v < 8 ∧ s.Inv ∧ (alone q ∧ ∀ n ∈ viewNext q v,
    isStitched q n = false ∨ isFenced q 0x08 v = true)) ∧
    (∃ (v : Nat) (n : _) (t : Nat) (s : State), let q := tick t s; v < 8 ∧ s.Inv ∧ (viewPlain v n q ∧ (vget q.views v).last = none ∧
    (vget q.views v).cur = none ∧ (vget q.views v).restart = true ∧ isStripFirst (cfgAt q n).shift n = false)) ∧
    (∃ (v : Nat) (n : _) (t : Nat) (s : State), let q := tick t s; v < 8 ∧ s.Inv ∧ (viewPlain v n q ∧ (vget q.views v).last = none ∧
    (vget q.views v).cur = none ∧ (vget q.views v).sending = none ∧ isStripFirst (cfgAt q n).shift n = true ∧ nextSlot q < ledgerSlots ∧
    wrap32 (n + (vget (cfgAt q n).view v).height * (vget (cfgAt q n).view v).ys - 1) ≠ n)) ∧
    (∃ (v : Nat) (n : _) (l : _) (f : ViewFrame) (t : Nat) (s : State), let q := tick t s; v < 8 ∧ wrap32 (l + 1) = n ∧ s.Inv ∧ (viewPlain v n q ∧
    (vget q.views v).last = some l ∧ resumedBetween q (some l) n = false ∧ (vget q.views v).cur = some f ∧
    (f.crops.getLast?).map Prod.snd = some (vget q.views v).crop)) ∧
    (∃ (v : Nat) (t : Nat) (s : State), let q := tick t s; v < 8 ∧ s.Inv ∧ ((vget q.views v).waiting = [] ∨ (vget q.views v).sending.isSome = true)) ∧
    (∃ (v : Nat) (f : ViewFrame) (rest : List ViewFrame) (t : Nat) (s : State), let q := tick t s; v < 8 ∧ s.Inv ∧ (frameReady v f rest q ∧
    ((vget (cfgAt q f.lastLine).view v).delivery ≠ 1 ∨ (vget q.time.ports (vget (cfgAt q f.lastLine).view v).port).linkUp = true))) ∧
    (∃ (v : Nat) (f : ViewFrame) (rest : List ViewFrame) (t : Nat) (s : State), let q := tick t s; v < 8 ∧ s.Inv ∧ (frameReady v f rest q ∧
    (vget (cfgAt q f.lastLine).view v).delivery = 1 ∧ (vget q.time.ports (vget (cfgAt q f.lastLine).view v).port).linkUp = false)) ∧
    (∃ (v : Nat) (t : Nat) (s : State), let q := tick t s; v < 8 ∧ s.Inv ∧ (∀ f ∈ (vget q.views v).sending, f.delivery ≠ 1)) ∧
    (∃ (v : Nat) (f : SentFrame) (t : Nat) (s : State), let q := tick t s; v < 8 ∧ f.delivery = 1 ∧ s.Inv ∧ (up q ∧
    (vget q.views v).sending = some f)) := ⟨
   ⟨2, 1000, upState, by decide +kernel, inv_of (by decide +kernel), by decide +kernel⟩,
   ⟨2, ({ line := 8, field := 0, samples := [11,12,13,14], tag := zeros 24 ++ [4,0] ++ zeros 6 } : CorrLine), 1000,
   (let b : State := (let b : State := (setSlotPlane 2 (fun x => { x with out := [({ line := 8, field := 0, samples := [11,12,13,14], tag := zeros 24 ++ [4,0] ++ zeros 6 } : CorrLine)] }) upState); { b with running := { b.running with zone := vset b.running.zone 2 { (vget b.running.zone 2) with zones := 1, bounds := [1,3] } } }); { b with running := { b.running with grit := vset b.running.grit 2 { (vget b.running.grit 2) with fields := 1 } } }),
   by decide +kernel, inv_of (by decide +kernel), by decide +kernel⟩,
   ⟨2,
   ((zoneTaken 2 ({ line := 7, field := 0, samples := [11,12,13,14], tag := zeros 24 ++ [4,0] ++ zeros 6 } : CorrLine) (let b : State := (let b : State := (let b : State := (setSlotPlane 2 (fun x => { x with out := [({ line := 7, field := 0, samples := [11,12,13,14], tag := zeros 24 ++ [4,0] ++ zeros 6 } : CorrLine)] }) upState); { b with running := { b.running with zone := vset b.running.zone 2 { (vget b.running.zone 2) with zones := 1, bounds := [1,3] } } }); { b with running := { b.running with grit := vset b.running.grit 2 { (vget b.running.grit 2) with fields := 1 } } }); { b with running := { b.running with watch := [(512, ({ mode := 1, high := 3, low := 1 } : WatchCfg))] } })).1.grit.out.getD 0),
   ({ line := 7, field := 0, samples := [11,12,13,14], tag := zeros 24 ++ [4,0] ++ zeros 6 } : CorrLine),
   ({ mode := 1, high := 3, low := 1 } : WatchCfg), 1000,
   (let b : State := (let b : State := (let b : State := (setSlotPlane 2 (fun x => { x with out := [({ line := 7, field := 0, samples := [11,12,13,14], tag := zeros 24 ++ [4,0] ++ zeros 6 } : CorrLine)] }) upState); { b with running := { b.running with zone := vset b.running.zone 2 { (vget b.running.zone 2) with zones := 1, bounds := [1,3] } } }); { b with running := { b.running with grit := vset b.running.grit 2 { (vget b.running.grit 2) with fields := 1 } } }); { b with running := { b.running with watch := [(512, ({ mode := 1, high := 3, low := 1 } : WatchCfg))] } }),
   by decide +kernel, by decide +kernel, by decide +kernel, by decide +kernel, inv_of (by decide +kernel), by decide +kernel⟩,
   ⟨1000, upState, inv_of (by decide +kernel), by decide +kernel⟩,
   ⟨({ line := 8, rows := [([5,6,7,8], [(2,2)])] } : FormedLine), ([] : List FormedLine), ([5,6,7,8], [(2,2)]),
   ({ columns := 4, order := [2] } : GridCfg), 1000,
   (let b : State := upState; { b with running := { b.running with grid := some ({ columns := 4, order := [2] } : GridCfg), bg := { b.running.bg with fields := 1 } }, dovetail := { b.dovetail with formed := [({ line := 8, rows := [([5,6,7,8], [(2,2)])] } : FormedLine)] } }),
   by decide +kernel, by decide +kernel, by decide +kernel, inv_of (by decide +kernel), by decide +kernel⟩,
   ⟨1, 1000, upState, by decide +kernel, inv_of (by decide +kernel), by decide +kernel⟩,
   ⟨1, ({ line := 63, entries := [some 4] } : BgRow), 1000,
   (setBg 1 (fun x => { x with waiting := some ({ line := 63, entries := [some 4] } : BgRow), fresh := false }) upState), by decide +kernel,
   inv_of (by decide +kernel), by decide +kernel⟩,
   ⟨1, ({ line := 63, entries := [some 4] } : BgRow), 1000,
   (setBg 1 (fun x => { x with waiting := some ({ line := 63, entries := [some 4] } : BgRow) }) upState), by decide +kernel,
   inv_of (by decide +kernel), by decide +kernel⟩,
   ⟨3, 1000, upState, by decide +kernel, inv_of (by decide +kernel), by decide +kernel⟩,
   ⟨3, 257, 1000,
   (let b : State := (let b : State := upState; { b with running := { b.running with view := vset b.running.view 3 { (vget b.running.view 3) with enable := true, cropCols := 2, height := 4, ys := 3, delivery := 2 } } }); { b with spans := [(257, 1000)], running := { b.running with grid := some ({ columns := 4, order := [2] } : GridCfg) }, dovetail := { b.dovetail with last := some 800 } }),
   by decide +kernel, inv_of (by decide +kernel), by decide +kernel⟩,
   ⟨3, 256, 1000,
   (let b : State := (let b : State := upState; { b with running := { b.running with view := vset b.running.view 3 { (vget b.running.view 3) with enable := true, cropCols := 2, height := 4, ys := 3, delivery := 2 } } }); { b with spans := [(256, 1000)], running := { b.running with grid := some ({ columns := 4, order := [2] } : GridCfg) }, dovetail := { b.dovetail with last := some 800 } }),
   by decide +kernel, inv_of (by decide +kernel), by decide +kernel⟩,
   ⟨3, 267, 266, ({ seq := 4, firstLine := 256, lastLine := 267, ticket := 0, crops := [(256, 0)] } : ViewFrame), 1000,
   (setView 3 (fun x => { x with last := some 266, cur := some ({ seq := 4, firstLine := 256, lastLine := 267, ticket := 0, crops := [(256, 0)] } : ViewFrame) }) (let b : State := (let b : State := upState; { b with running := { b.running with view := vset b.running.view 3 { (vget b.running.view 3) with enable := true, cropCols := 2, height := 4, ys := 3, delivery := 2 } } }); { b with spans := [(256, 1000)], running := { b.running with grid := some ({ columns := 4, order := [2] } : GridCfg) }, dovetail := { b.dovetail with last := some 800 } })),
   by decide +kernel, by decide +kernel, inv_of (by decide +kernel), by decide +kernel⟩,
   ⟨3, 1000, upState, by decide +kernel, inv_of (by decide +kernel), by decide +kernel⟩,
   ⟨3, ({ seq := 4, firstLine := 256, lastLine := 267, ticket := 0, crops := [(256, 0)] } : ViewFrame), ([] : List ViewFrame), 1000,
   (setView 3 (fun x => { x with waiting := [({ seq := 4, firstLine := 256, lastLine := 267, ticket := 0, crops := [(256, 0)] } : ViewFrame)] }) (let b : State := (let b : State := upState; { b with running := { b.running with view := vset b.running.view 3 { (vget b.running.view 3) with enable := true, cropCols := 2, height := 4, ys := 3, delivery := 2 } } }); { b with spans := [(256, 1000)], running := { b.running with grid := some ({ columns := 4, order := [2] } : GridCfg) }, dovetail := { b.dovetail with last := some 800 } })),
   by decide +kernel, inv_of (by decide +kernel), by decide +kernel⟩,
   ⟨3, ({ seq := 4, firstLine := 256, lastLine := 267, ticket := 0, crops := [(256, 0)] } : ViewFrame), ([] : List ViewFrame), 1000,
   (setView 3 (fun x => { x with waiting := [({ seq := 4, firstLine := 256, lastLine := 267, ticket := 0, crops := [(256, 0)] } : ViewFrame)] }) (let b : State := (let b : State := (let b : State := (let b : State := upState; { b with running := { b.running with view := vset b.running.view 3 { (vget b.running.view 3) with enable := true, cropCols := 2, height := 4, ys := 3, delivery := 2 } } }); { b with spans := [(256, 1000)], running := { b.running with grid := some ({ columns := 4, order := [2] } : GridCfg) }, dovetail := { b.dovetail with last := some 800 } }); { b with running := { b.running with view := vset b.running.view 3 { (vget b.running.view 3) with delivery := 1 } } }); { b with cmds := [{ ticket := 0, tag := 3, opcode := 0x0404, accepted := true }], ledger := { b.ledger with issued := [0], issuedCount := 1 } })),
   by decide +kernel, inv_of (by decide +kernel), by decide +kernel⟩,
   ⟨3, 1000, upState, by decide +kernel, inv_of (by decide +kernel), by decide +kernel⟩,
   ⟨3, ({ ticket := 0, delivery := 1, datagrams := [{ port := 1 }, { port := 1, payload := [4] }] } : SentFrame), 1000,
   (setView 3 (fun x => { x with sending := some ({ ticket := 0, delivery := 1, datagrams := [{ port := 1 }, { port := 1, payload := [4] }] } : SentFrame) }) (let b : State := upState; { b with cmds := [{ ticket := 0, tag := 3, opcode := 0x0404, accepted := true }], ledger := { b.ledger with issued := [0], issuedCount := 1 } })),
   by decide +kernel, by decide +kernel, inv_of (by decide +kernel), by decide +kernel⟩⟩

theorem wit_CompressionRuns :
    (∃ (c : HostCmd) (s : State), Ready contextRestoreSpec c s ∧ badContext c s = none ∧ slotHolder s (u16 c.params 0) = none ∧ c.bulkFails = 0 ∧
    contextValid (bulkData c (parBulk c.params 4) s) = true) ∧
    (∃ (c : HostCmd) (s : State), Ready contextRestoreSpec c s ∧ (badContext c s = none ∧ slotHolder s (u16 c.params 0) = none ∧ c.bulkFails = 0 ∧
    contextValid (bulkData c (parBulk c.params 4) s) = false)) ∧
    (∃ (c : HostCmd) (s : State), Ready decompressSpec c s ∧ acceptsMore s ∧ (c.unit < 4 ∧
    badDecompress c s (bulkData c (parBulk c.params 8) s) = none ∧ rtHolder s 0x0A c.unit = none ∧ ∀ k ∈ (decIn c).toList ++ (decOut c).toList,
    rtHolder s 0x0F k = none)) ∧
    (∃ (de : Nat) (fails : Fails) (run : DecRun) (t : Nat) (s : State) (c : CmdRec), let q := tick t s; de < 4 ∧ 2 ≤ fails ∧ s.Inv ∧ (up q ∧
    (vget q.comp.de de).run = some run) ∧ InProgress (run.ticket) c s) ∧
    (∃ (de : Nat) (run : DecRun) (t : Nat) (s : State) (c : CmdRec), let q := tick t s; de < 4 ∧ run.contextIn = none ∧ run.contextOut = none ∧
    s.Inv ∧ (up q ∧ (vget q.comp.de de).run = some run) ∧ InProgress (run.ticket) c s) ∧
    (∃ (de : Nat) (t : Nat) (s : State), let q := tick t s; s.Inv ∧ (4 ≤ de ∨ (vget q.comp.de de).run = none)) ∧
    (∃ (t : Nat) (s : State), let q := tick t s; s.Inv ∧ (∀ n ∈ archiveNext q, isStitched q n = false ∨ archiveBusy q = true)) ∧
    (∃ (last : _) (e : _) (t : Nat) (s : State), let q := tick t s; e < 16 ∧ s.Inv ∧ (up q ∧ partUp q 12 = true ∧ partUp q 13 = true ∧
    archiveNext q = some last ∧ inSpans q last = true ∧ isStitched q last = true ∧ archiveBusy q = false ∧ (cfgAt q last).archive.engines = [e] ∧
    (ceAt q e).job = none ∧ isFenced q 0x0A e = false ∧ archiveStreams (cfgAt q last).archive = 1 ∧ (cfgAt q last).archive.hostStream = false ∧
    q.comp.rings ≠ [] ∧ q.comp.layout = some ((cfgAt q last).archive, (vget (cfgAt q last).part 13).baseMib, (vget (cfgAt q last).part 13).sizeA) ∧
    nextSlot q < ledgerSlots)) ∧
    (∃ (ce : Nat) (t : Nat) (s : State), let q := tick t s; s.Inv ∧ (16 ≤ ce ∨ (ceAt q ce).job = none ∨ isFenced q 0x0A ce = true)) ∧
    (∃ (ce : Nat) (q : _) (seq : _) (j : CeJob) (t : Nat) (s : State), let z := tick t s; ce < 16 ∧ j.source = .patch q seq ∧
    (j.blockSeq + 1) * blockBytes < j.raw.length ∧ s.Inv ∧ (up z ∧ partUp z 14 = true ∧ (ceAt z ce).job = some j ∧ isFenced z 0x0A ce = false ∧
    hasVerifier z ce = false)) ∧
    (∃ (ce : Nat) (j : CeJob) (p : PatchJob) (t : Nat) (s : State), let q := tick t s; ce < 16 ∧ p.queue < 16 ∧ j.source = .patch p.queue p.seq ∧
    j.raw.length ≤ (j.blockSeq + 1) * blockBytes ∧ s.Inv ∧ (up q ∧ partUp q 14 = true ∧ (ceAt q ce).job = some j ∧ isFenced q 0x0A ce = false ∧
    hasVerifier q ce = false ∧ q.scribe.jobs = [p] ∧ q.ring.sources = [] ∧ (vget q.scribe.queues p.queue).patches = [] ∧
    (vget q.scribe.queues p.queue).storeWrite + ceilDiv (192 + (j.frames ++ (blockFrame q j).1).length) 64 * 64 ≤ (vget q.scribe.queues p.queue).storeSize)) ∧
    (∃ (ce : Nat) (q : _) (seq : _) (j : CeJob) (t : Nat) (s : State), let z := tick t s; ce < 16 ∧ j.source = .patch q seq ∧
    (j.blockSeq + 1) * blockBytes < j.raw.length ∧ s.Inv ∧ (up z ∧ partUp z 14 = true ∧ (ceAt z ce).job = some j ∧ isFenced z 0x0A ce = false ∧
    hasVerifier z ce = true ∧ z.faults.injections = [] ∧ firstIn 0x2F0 (currentStrip z) z ∧ firstIn 0x004 (currentStrip z) z)) := ⟨
   ⟨{unit := 0, paramLen := 20, params := [1,0,0,0] ++ le 8 4096 ++ le 4 1310720 ++ [0,0,0,0], bulk := (contextHead ({ id := 7 } : DecStream)) ++ zeros 16 },
   (let b : State := upState; { b with running := { b.running with part := vset b.running.part 16 { (vget b.running.part 16) with enable := true, baseMib := 2, sizeA := 2 } } }),
   ready_of (by decide +kernel), by decide +kernel, by decide +kernel, by decide +kernel, by decide +kernel⟩,
   ⟨{unit := 0, paramLen := 20, params := [1,0,0,0] ++ le 8 4096 ++ le 4 1310720 ++ [0,0,0,0], bulk := [1] },
   (let b : State := upState; { b with running := { b.running with part := vset b.running.part 16 { (vget b.running.part 16) with enable := true, baseMib := 2, sizeA := 2 } } }),
   ready_of (by decide +kernel), by decide +kernel⟩,
   ⟨{unit := 2, paramLen := 48, params := [6,0,1,0,0,0,0,0] ++ le 8 4096 ++ le 4 64 ++ zeros 4 ++ le 8 8192 ++ le 4 64 ++ zeros 4 ++ zeros 8, bulk := [1] },
   (let b : State := upState; { b with running := { b.running with part := vset b.running.part 16 { (vget b.running.part 16) with enable := true, baseMib := 2, sizeA := 2 } } }),
   ready_of (by decide +kernel), by unfold acceptsMore; decide +kernel, by decide +kernel⟩,
   ⟨2, 2, ({ ticket := 0, dest := { addr := 4096, length := 64 }, data := zeros 64 } : DecRun), 1000,
   (setDe 2 (fun x => { x with run := some ({ ticket := 0, dest := { addr := 4096, length := 64 }, data := zeros 64 } : DecRun) }) (let b : State := upState; { b with cmds := [{ ticket := 0, tag := 3, opcode := 0x0A04, accepted := true }], ledger := { b.ledger with issued := [0], issuedCount := 1 } })),
   ((cmdOf ((setDe 2 (fun x => { x with run := some ({ ticket := 0, dest := { addr := 4096, length := 64 }, data := zeros 64 } : DecRun) }) (let b : State := upState; { b with cmds := [{ ticket := 0, tag := 3, opcode := 0x0A04, accepted := true }], ledger := { b.ledger with issued := [0], issuedCount := 1 } }))) ((({ ticket := 0, dest := { addr := 4096, length := 64 }, data := zeros 64 } : DecRun) : DecRun).ticket)).getD default),
   by decide +kernel, by decide +kernel, inv_of (by decide +kernel), by decide +kernel, progress_of (by decide +kernel)⟩,
   ⟨2,
   ({ ticket := 0, dest := { addr := 4096, length := 64 }, data := ([0x4B,0x50,1,3] ++ le 4 5 ++ le 4 6 ++ le 4 0 ++ le 4 3 ++ le 4 8 ++ le 4 (crc32c [1,2,3]) ++ zeros 4 ++ [1,3,0,0xFC,0xFF,1,2,3]) } : DecRun),
   1000,
   (setDe 2 (fun x => { x with run := some ({ ticket := 0, dest := { addr := 4096, length := 64 }, data := ([0x4B,0x50,1,3] ++ le 4 5 ++ le 4 6 ++ le 4 0 ++ le 4 3 ++ le 4 8 ++ le 4 (crc32c [1,2,3]) ++ zeros 4 ++ [1,3,0,0xFC,0xFF,1,2,3]) } : DecRun) }) (let b : State := upState; { b with cmds := [{ ticket := 0, tag := 3, opcode := 0x0A04, accepted := true }], ledger := { b.ledger with issued := [0], issuedCount := 1 } })),
   ((cmdOf ((setDe 2 (fun x => { x with run := some ({ ticket := 0, dest := { addr := 4096, length := 64 }, data := ([0x4B,0x50,1,3] ++ le 4 5 ++ le 4 6 ++ le 4 0 ++ le 4 3 ++ le 4 8 ++ le 4 (crc32c [1,2,3]) ++ zeros 4 ++ [1,3,0,0xFC,0xFF,1,2,3]) } : DecRun) }) (let b : State := upState; { b with cmds := [{ ticket := 0, tag := 3, opcode := 0x0A04, accepted := true }], ledger := { b.ledger with issued := [0], issuedCount := 1 } }))) ((({ ticket := 0, dest := { addr := 4096, length := 64 }, data := ([0x4B,0x50,1,3] ++ le 4 5 ++ le 4 6 ++ le 4 0 ++ le 4 3 ++ le 4 8 ++ le 4 (crc32c [1,2,3]) ++ zeros 4 ++ [1,3,0,0xFC,0xFF,1,2,3]) } : DecRun) : DecRun).ticket)).getD default),
   by decide +kernel, by decide +kernel, by decide +kernel, inv_of (by decide +kernel), by decide +kernel, progress_of (by decide +kernel)⟩,
   ⟨2, 1000, upState, inv_of (by decide +kernel), by decide +kernel⟩,
   ⟨1000, upState, inv_of (by decide +kernel), by decide +kernel⟩,
   ⟨((archiveNext (let b : State := upState; { b with running := { b.running with archive := ({ enable := true, bands := 1, fields := [0], engines := [5], bandCols := 4, indexStrips := 16 } : ArchiveCfg), grid := some ({ columns := 4, order := [2] } : GridCfg), shift := 1 }, spans := [(0, 1000)], dovetail := { b.dovetail with last := some 800 }, comp := { b.comp with rings := [{ base := 0, size := 4194304 }], layout := some (({ enable := true, bands := 1, fields := [0], engines := [5], bandCols := 4, indexStrips := 16 } : ArchiveCfg), 0, 0) } })).getD 0),
   5, 1000,
   (let b : State := upState; { b with running := { b.running with archive := ({ enable := true, bands := 1, fields := [0], engines := [5], bandCols := 4, indexStrips := 16 } : ArchiveCfg), grid := some ({ columns := 4, order := [2] } : GridCfg), shift := 1 }, spans := [(0, 1000)], dovetail := { b.dovetail with last := some 800 }, comp := { b.comp with rings := [{ base := 0, size := 4194304 }], layout := some (({ enable := true, bands := 1, fields := [0], engines := [5], bandCols := 4, indexStrips := 16 } : ArchiveCfg), 0, 0) } }),
   by decide +kernel, inv_of (by decide +kernel), by decide +kernel⟩,
   ⟨5, 1000, upState, inv_of (by decide +kernel), by decide +kernel⟩,
   ⟨5, 3, 4, ({ source := .patch 3 4, key := 4, raw := zeros 32769 } : CeJob), 1000,
   (setCe 5 (fun x => { x with job := some ({ source := .patch 3 4, key := 4, raw := zeros 32769 } : CeJob) }) upState), by decide +kernel,
   by decide +kernel, by show (0 + 1) * blockBytes < (List.replicate 32769 (0 : Byte)).length; rw [List.length_replicate]; decide +kernel,
   inv_of (by decide +kernel), ⟨by decide +kernel, by decide +kernel, rfl, by decide +kernel, by decide +kernel⟩⟩,
   ⟨5, ({ source := .patch 3 4, key := 4, raw := [1,2,3], frames := [9] } : CeJob),
   ({ queue := 3, seq := 4, cut := true, payload := [1,2,3], engine := 5 } : PatchJob), 1000,
   (setCe 5 (fun x => { x with job := some ({ source := .patch 3 4, key := 4, raw := [1,2,3], frames := [9] } : CeJob) }) (setQueue 3 (fun x => { x with on := true, cap := 1024, storeBase := 65536, storeSize := 1048576, storeWrite := 128, dirBase := 4096 }) (let b : State := upState; { b with scribe := { b.scribe with jobs := [({ queue := 3, seq := 4, cut := true, payload := [1,2,3], engine := 5 } : PatchJob)] } }))),
   by decide +kernel, by decide +kernel, by decide +kernel, by decide +kernel, inv_of (by decide +kernel), by decide +kernel⟩,
   ⟨5, 3, 4, ({ source := .patch 3 4, key := 4, raw := zeros 32769 } : CeJob), 1000,
   (setCe 5 (fun x => { x with job := some ({ source := .patch 3 4, key := 4, raw := zeros 32769 } : CeJob) }) (let b : State := upState; { b with running := { b.running with verify := vset b.running.verify 1 32 } })),
   by decide +kernel, by decide +kernel,
   by show (0 + 1) * blockBytes < (List.replicate 32769 (0 : Byte)).length; rw [List.length_replicate]; decide +kernel, inv_of (by decide +kernel),
   ⟨by decide +kernel, by decide +kernel, rfl, by decide +kernel, by decide +kernel, by decide +kernel, by decide +kernel, by decide +kernel⟩⟩⟩

theorem wit_LookBackAndSelfRefresh :
    (∃ (c : HostCmd) (s : State), Ready specLookback c s ∧ acceptsMore s ∧ (badLookback s c.params = none ∧
    lookLines s (lookRuns s (parLookback c.params).firstPos (parLookback c.params).lastPos) ≠ [] ∧ (parLookback c.params).source ≠ 2 ∧
    ∀ n ∈ lookLines s (lookRuns s (parLookback c.params).firstPos (parLookback c.params).lastPos), inStripRing s n = true)) ∧
    (∃ (w : Nat) (x : LookbackRun) (t : Nat) (s : State) (c : CmdRec), let q := tick t s; x.ticket = w ∧ x.de = none ∧ x.par.source ≠ 2 ∧ s.Inv ∧
    (up q ∧ partUp q 12 = true ∧ partUp q 13 = true ∧ q.bench.lookbacks = [x] ∧ ∀ n ∈ x.lines, inStripRing q n = true) ∧ InProgress (w) c s) ∧
    (∃ (w : Nat) (fails : Fails) (x : LookbackRun) (t : Nat) (s : State) (c : CmdRec), let q := tick t s; x.ticket = w ∧ x.de = none ∧
    x.par.source ≠ 2 ∧ 2 ≤ fails ∧ s.Inv ∧ (up q ∧ partUp q 12 = true ∧ partUp q 13 = true ∧ q.bench.lookbacks = [x] ∧ ∀ n ∈ x.lines,
    inStripRing q n = true) ∧ InProgress (w) c s) ∧
    (∃ (w : Nat) (n : _) (x : LookbackRun) (t : Nat) (s : State) (c : CmdRec), let q := tick t s; x.ticket = w ∧ x.de = none ∧ x.lines = [n] ∧
    s.Inv ∧ (up q ∧ partUp q 12 = true ∧ partUp q 13 = true ∧ q.bench.lookbacks = [x] ∧ inStripRing q n = false ∧ q.comp.layout = none) ∧
    InProgress (w) c s) ∧
    (∃ (t : Nat) (s : State), let q := tick t s; s.Inv ∧ q.bench.lookbacks = []) ∧
    (∃ (c : HostCmd) (s : State), Ready specSelfRefresh c s ∧ (badSelfRefresh c.params = none ∧ u8 c.params 0 = 1 ∧ s.gauge.trigEnabled = false ∧
    s.bench.entering = none)) ∧
    (∃ (c : HostCmd) (s : State), Ready specSelfRefresh c s ∧ (badSelfRefresh c.params = none ∧ u8 c.params 0 = 1 ∧ s.gauge.trigEnabled = true)) ∧
    (∃ (c : HostCmd) (s : State), Ready specSelfRefresh c s ∧ (badSelfRefresh c.params = none ∧ u8 c.params 0 = 2)) ∧
    (∃ (c : HostCmd) (s : State), Ready specSelfRefresh c s ∧ (badSelfRefresh c.params = none ∧ u8 c.params 0 = 3 ∧ s.bench.entering = none)) ∧
    (∃ (k : _) (t : Nat) (s : State), let z := tick t s; s.Inv ∧ (up z ∧ z.bench.entering = some k ∧ z.bench.exiting = false ∧
    z.bench.forced = false ∧ z.bench.autoEntered = false ∧ z.bench.srTickets = [] ∧ z.bench.hostWaiting = [] ∧ stackUp z 0 = true ∧
    stackUp z 1 = true ∧ (∀ q ∈ (vget z.bench.ctl 0).pending ++ (vget z.bench.ctl 1).pending, k ≤ q.id) ∧
    (∀ q ∈ (vget z.bench.ctl 0).issued ++ (vget z.bench.ctl 1).issued, q.data.isSome = true))) ∧
    (∃ (t : Nat) (s : State), let q := tick t s; s.Inv ∧ q.bench.entering = none) ∧
    (∃ (t : Nat) (s : State), let q := tick t s; s.Inv ∧ (up q ∧ q.bench.exiting = true ∧ q.bench.entering = none ∧ q.bench.srTickets = [] ∧
    q.bench.hostWaiting = [] ∧ q.hf.srForced = false ∧ q.gauge.enableWait = none)) ∧
    (∃ (t : Nat) (s : State), let q := tick t s; s.Inv ∧ (q.bench.auto = true ∧ q.gauge.trigEnabled = false ∧ stackUp q 0 = true ∧
    stackUp q 1 = true ∧ q.bench.entering = none ∧ (vget q.bench.ctl 0).pending = [] ∧ (vget q.bench.ctl 1).pending = [] ∧
    q.bench.lastRequest + q.bench.autoDelayMs * 1000000 ≤ q.now)) ∧
    (∃ (t : Nat) (s : State), let q := tick t s; s.Inv ∧
    (q.bench.auto = false ∨ q.gauge.trigEnabled = true ∨ q.now < q.bench.lastRequest + q.bench.autoDelayMs * 1000000)) := ⟨
   ⟨{unit := 0, paramLen := 48, params := [0,1,0,0] ++ le 4 1 ++ le 4 2 ++ leI 8 (posOfLine (let z : State := (let b : State := (let b : State := upState; { b with running := { b.running with grid := some ({ columns := 6, pitchNm := 1000, order := [2], uncoveredFill := 9 } : GridCfg), part := vset b.running.part 12 { (vget b.running.part 12) with enable := true, baseMib := 1, sizeA := 4 } }, spans := [(0, 1000)] }); { b with dovetail := { b.dovetail with layout := stripLayout b.running, layoutFrom := some 0, last := some 8 }, bench := { b.bench with epochs := [{ seq := { pitch := 65536 } }] } }); written [(z.dovetail.layout.base + stripSampleOff z.dovetail.layout 7 0, packRow [1,2,3,3,1,1]), (z.dovetail.layout.base + stripTagOff z.dovetail.layout 7 0, le 4 7 ++ zeros 28)] z) 7) ++ leI 8 (posOfLine (let z : State := (let b : State := (let b : State := upState; { b with running := { b.running with grid := some ({ columns := 6, pitchNm := 1000, order := [2], uncoveredFill := 9 } : GridCfg), part := vset b.running.part 12 { (vget b.running.part 12) with enable := true, baseMib := 1, sizeA := 4 } }, spans := [(0, 1000)] }); { b with dovetail := { b.dovetail with layout := stripLayout b.running, layoutFrom := some 0, last := some 8 }, bench := { b.bench with epochs := [{ seq := { pitch := 65536 } }] } }); written [(z.dovetail.layout.base + stripSampleOff z.dovetail.layout 7 0, packRow [1,2,3,3,1,1]), (z.dovetail.layout.base + stripTagOff z.dovetail.layout 7 0, le 4 7 ++ zeros 28)] z) 7) ++ zeros 4 ++ le 8 4096 ++ le 4 4096 ++ zeros 4},
   (let z : State := (let b : State := (let b : State := upState; { b with running := { b.running with grid := some ({ columns := 6, pitchNm := 1000, order := [2], uncoveredFill := 9 } : GridCfg), part := vset b.running.part 12 { (vget b.running.part 12) with enable := true, baseMib := 1, sizeA := 4 } }, spans := [(0, 1000)] }); { b with dovetail := { b.dovetail with layout := stripLayout b.running, layoutFrom := some 0, last := some 8 }, bench := { b.bench with epochs := [{ seq := { pitch := 65536 } }] } }); written [(z.dovetail.layout.base + stripSampleOff z.dovetail.layout 7 0, packRow [1,2,3,3,1,1]), (z.dovetail.layout.base + stripTagOff z.dovetail.layout 7 0, le 4 7 ++ zeros 28)] z),
   ready_of (by decide +kernel), by unfold acceptsMore; decide +kernel, by decide +kernel⟩,
   ⟨0, ({ par := { source := 1, firstCol := 1, cols := 2, dest := { addr := 4096, length := 4096 } }, ticket := 0, lines := [7] } : LookbackRun),
   1000,
   (let b : State := (let b : State := (let z : State := (let b : State := (let b : State := upState; { b with running := { b.running with grid := some ({ columns := 6, pitchNm := 1000, order := [2], uncoveredFill := 9 } : GridCfg), part := vset b.running.part 12 { (vget b.running.part 12) with enable := true, baseMib := 1, sizeA := 4 } }, spans := [(0, 1000)] }); { b with dovetail := { b.dovetail with layout := stripLayout b.running, layoutFrom := some 0, last := some 8 }, bench := { b.bench with epochs := [{ seq := { pitch := 65536 } }] } }); written [(z.dovetail.layout.base + stripSampleOff z.dovetail.layout 7 0, packRow [1,2,3,3,1,1]), (z.dovetail.layout.base + stripTagOff z.dovetail.layout 7 0, le 4 7 ++ zeros 28)] z); { b with cmds := [{ ticket := 0, tag := 3, opcode := 0x0902, accepted := true }], ledger := { b.ledger with issued := [0], issuedCount := 1 } }); { b with bench := { b.bench with lookbacks := [({ par := { source := 1, firstCol := 1, cols := 2, dest := { addr := 4096, length := 4096 } }, ticket := 0, lines := [7] } : LookbackRun)] } }),
   ((cmdOf ((let b : State := (let b : State := (let z : State := (let b : State := (let b : State := upState; { b with running := { b.running with grid := some ({ columns := 6, pitchNm := 1000, order := [2], uncoveredFill := 9 } : GridCfg), part := vset b.running.part 12 { (vget b.running.part 12) with enable := true, baseMib := 1, sizeA := 4 } }, spans := [(0, 1000)] }); { b with dovetail := { b.dovetail with layout := stripLayout b.running, layoutFrom := some 0, last := some 8 }, bench := { b.bench with epochs := [{ seq := { pitch := 65536 } }] } }); written [(z.dovetail.layout.base + stripSampleOff z.dovetail.layout 7 0, packRow [1,2,3,3,1,1]), (z.dovetail.layout.base + stripTagOff z.dovetail.layout 7 0, le 4 7 ++ zeros 28)] z); { b with cmds := [{ ticket := 0, tag := 3, opcode := 0x0902, accepted := true }], ledger := { b.ledger with issued := [0], issuedCount := 1 } }); { b with bench := { b.bench with lookbacks := [({ par := { source := 1, firstCol := 1, cols := 2, dest := { addr := 4096, length := 4096 } }, ticket := 0, lines := [7] } : LookbackRun)] } })) ((0 : Nat))).getD default),
   by decide +kernel, by decide +kernel, by decide +kernel, inv_of (by decide +kernel), by decide +kernel, progress_of (by decide +kernel)⟩,
   ⟨0, 2, ({ par := { source := 1, firstCol := 1, cols := 2, dest := { addr := 4096, length := 4096 } }, ticket := 0, lines := [7] } : LookbackRun),
   1000,
   (let b : State := (let b : State := (let z : State := (let b : State := (let b : State := upState; { b with running := { b.running with grid := some ({ columns := 6, pitchNm := 1000, order := [2], uncoveredFill := 9 } : GridCfg), part := vset b.running.part 12 { (vget b.running.part 12) with enable := true, baseMib := 1, sizeA := 4 } }, spans := [(0, 1000)] }); { b with dovetail := { b.dovetail with layout := stripLayout b.running, layoutFrom := some 0, last := some 8 }, bench := { b.bench with epochs := [{ seq := { pitch := 65536 } }] } }); written [(z.dovetail.layout.base + stripSampleOff z.dovetail.layout 7 0, packRow [1,2,3,3,1,1]), (z.dovetail.layout.base + stripTagOff z.dovetail.layout 7 0, le 4 7 ++ zeros 28)] z); { b with cmds := [{ ticket := 0, tag := 3, opcode := 0x0902, accepted := true }], ledger := { b.ledger with issued := [0], issuedCount := 1 } }); { b with bench := { b.bench with lookbacks := [({ par := { source := 1, firstCol := 1, cols := 2, dest := { addr := 4096, length := 4096 } }, ticket := 0, lines := [7] } : LookbackRun)] } }),
   ((cmdOf ((let b : State := (let b : State := (let z : State := (let b : State := (let b : State := upState; { b with running := { b.running with grid := some ({ columns := 6, pitchNm := 1000, order := [2], uncoveredFill := 9 } : GridCfg), part := vset b.running.part 12 { (vget b.running.part 12) with enable := true, baseMib := 1, sizeA := 4 } }, spans := [(0, 1000)] }); { b with dovetail := { b.dovetail with layout := stripLayout b.running, layoutFrom := some 0, last := some 8 }, bench := { b.bench with epochs := [{ seq := { pitch := 65536 } }] } }); written [(z.dovetail.layout.base + stripSampleOff z.dovetail.layout 7 0, packRow [1,2,3,3,1,1]), (z.dovetail.layout.base + stripTagOff z.dovetail.layout 7 0, le 4 7 ++ zeros 28)] z); { b with cmds := [{ ticket := 0, tag := 3, opcode := 0x0902, accepted := true }], ledger := { b.ledger with issued := [0], issuedCount := 1 } }); { b with bench := { b.bench with lookbacks := [({ par := { source := 1, firstCol := 1, cols := 2, dest := { addr := 4096, length := 4096 } }, ticket := 0, lines := [7] } : LookbackRun)] } })) ((0 : Nat))).getD default),
   by decide +kernel, by decide +kernel, by decide +kernel, by decide +kernel, inv_of (by decide +kernel), by decide +kernel,
   progress_of (by decide +kernel)⟩,
   ⟨0, 7, ({ par := { source := 1, firstCol := 1, cols := 2, dest := { addr := 4096, length := 4096 } }, ticket := 0, lines := [7] } : LookbackRun),
   1000,
   (let b : State := (let b : State := upState; { b with cmds := [{ ticket := 0, tag := 3, opcode := 0x0902, accepted := true }], ledger := { b.ledger with issued := [0], issuedCount := 1 } }); { b with bench := { b.bench with lookbacks := [({ par := { source := 1, firstCol := 1, cols := 2, dest := { addr := 4096, length := 4096 } }, ticket := 0, lines := [7] } : LookbackRun)] } }),
   ((cmdOf ((let b : State := (let b : State := upState; { b with cmds := [{ ticket := 0, tag := 3, opcode := 0x0902, accepted := true }], ledger := { b.ledger with issued := [0], issuedCount := 1 } }); { b with bench := { b.bench with lookbacks := [({ par := { source := 1, firstCol := 1, cols := 2, dest := { addr := 4096, length := 4096 } }, ticket := 0, lines := [7] } : LookbackRun)] } })) ((0 : Nat))).getD default),
   by decide +kernel, by decide +kernel, by decide +kernel, inv_of (by decide +kernel), by decide +kernel, progress_of (by decide +kernel)⟩,
   ⟨1000, upState, inv_of (by decide +kernel), by decide +kernel⟩,
   ⟨{unit := 0, paramLen := 8, params := [1,0,0,0,0,0,0,0]}, upState, ready_of (by decide +kernel), by decide +kernel⟩,
   ⟨{unit := 0, paramLen := 8, params := [1,0,0,0,0,0,0,0]}, (let b : State := upState; { b with gauge := { b.gauge with trigEnabled := true } }),
   ready_of (by decide +kernel), by decide +kernel⟩,
   ⟨{unit := 0, paramLen := 8, params := [2,0,0,0,5,0,0,0]}, upState, ready_of (by decide +kernel), by decide +kernel⟩,
   ⟨{unit := 0, paramLen := 8, params := [3,0,0,0,5,0,0,0]}, upState, ready_of (by decide +kernel), by decide +kernel⟩,
   ⟨4, 1000, (let b : State := upState; { b with bench := { b.bench with entering := some 4, nextReq := 4 } }), inv_of (by decide +kernel),
   by decide +kernel⟩,
   ⟨1000, upState, inv_of (by decide +kernel), by decide +kernel⟩,
   ⟨1000, (let b : State := (setCtl 0 (fun x => { x with state := .selfRefresh }) upState); { b with bench := { b.bench with exiting := true } }),
   inv_of (by decide +kernel), by decide +kernel⟩,
   ⟨3000000, (let b : State := upState; { b with bench := { b.bench with auto := true, autoDelayMs := 2 } }), inv_of (by decide +kernel),
   by decide +kernel⟩,
   ⟨1000, upState, inv_of (by decide +kernel), by decide +kernel⟩⟩

theorem wit_BenchServesRequests :
    (∃ (q : BenchReq) (s : State), s.Inv ∧ reqOk q = false) ∧
    (∃ (q : BenchReq) (t : Nat) (s : State), let z := tick t s; reqOk q = true ∧ s.Inv ∧ benchAsleep z = false) ∧
    (∃ (q : BenchReq) (t : Nat) (s : State), let z := tick t s; reqOk q = true ∧ s.Inv ∧ (benchAsleep z = true ∧ z.bench.autoEntered = true)) ∧
    (∃ (pch : Nat) (allowed : List Nat) (t : Nat) (s : State), let z := tick t s; pch < 64 ∧ s.Inv ∧
    (stackUp z (pch / 32) = false ∨ ((vget z.bench.ctl (pch / 32)).pending.all fun q => !(decide (pchOf q.offset = pch) && allowed.contains q.id)) = true)) ∧
    (∃ (pch : Nat) (allowed : List Nat) (q : BenchReq) (d : Bytes) (t : Nat) (s : State), let z := tick t s; pch < 64 ∧ q.port < 16 ∧
    pchOf q.offset = pch ∧ q.id ∈ allowed ∧ q.data = some d ∧ s.Inv ∧ (stackUp z (pch / 32) = true ∧ z.bench.entering = none ∧
    (vget z.bench.ctl (pch / 32)).pending = [q] ∧ (vget z.bench.ctl (1 - pch / 32)).pending = [] ∧ (vget z.bench.ctl (pch / 32)).issued = [])) ∧
    (∃ (pch : Nat) (allowed : List Nat) (q : BenchReq) (t : Nat) (s : State), let z := tick t s; pch < 64 ∧ q.port < 16 ∧ pchOf q.offset = pch ∧
    q.id ∈ allowed ∧ q.data = none ∧ s.Inv ∧ (stackUp z (pch / 32) = true ∧ z.bench.entering = none ∧ (vget z.bench.ctl (pch / 32)).pending = [q] ∧
    (vget z.bench.ctl (1 - pch / 32)).pending = [] ∧ (vget z.bench.ctl (pch / 32)).issued = [])) ∧
    (∃ (p : Nat) (t : Nat) (s : State), let q := tick t s; p < 16 ∧ s.Inv ∧ (portUrgency q p ≠ 3 ∨ (vget q.bench.ports p).urgency = 3)) ∧
    (∃ (p : Nat) (t : Nat) (s : State), let q := tick t s; p < 16 ∧ s.Inv ∧ (up q ∧ portUrgency q p = 3 ∧ (vget q.bench.ports p).urgency < 3 ∧
    firstIn (0x350 + p) (currentStrip q) q)) ∧
    (∃ (id_ : Nat) (t : Nat) (s : State), let q := tick t s; s.Inv ∧ (alone q ∧ issuedBy q id_ = none)) ∧
    (∃ (id_ : Nat) (c : _) (q : BenchReq) (t : Nat) (s : State), let z := tick t s; s.Inv ∧ (alone z ∧ issuedBy z id_ = some (c, q) ∧
    stackUp z c = true ∧ z.faults.injections = [])) ∧
    (∃ (id_ : Nat) (c : _) (q : BenchReq) (t : Nat) (s : State), let z := tick t s; c < 2 ∧ s.Inv ∧ (up z ∧ alone z ∧ issuedBy z id_ = some (c, q) ∧
    stackUp z c = true ∧ z.faults.injections = [] ∧ firstIn (0x344 + c) (currentStrip z) z)) ∧
    (∃ (id_ : Nat) (c : _) (q : BenchReq) (e : ErrorCapture) (t : Nat) (s : State), let z := tick t s; c < 2 ∧ e.cause = .read ∧ s.Inv ∧ (up z ∧
    alone z ∧ issuedBy z id_ = some (c, q) ∧ stackUp z c = true ∧ z.faults.injections = [] ∧ firstIn (0x342 + c) (currentStrip z) z ∧
    firstIn 0x004 (currentStrip z) z)) ∧
    (∃ (s : State) (id_ : Nat) (c : Nat) (q : BenchReq), s.Inv ∧ c < 2 ∧ s.hf.fabric = .running ∧ s.glue = none ∧ s.pair.role = .solo ∧
    inPair s = false ∧ issuedBy s id_ = some (c, q) ∧ stackUp s c = true ∧ s.faults.injections = [] ∧ s.gauge.trigEnabled = false ∧ ((∀ k : Nat,
    k < 18 → partIn s k c = false)) ∧ ((∀ d : Nat, d < 4 → (vget s.comp.de d).run = none))) ∧
    (∃ (id_ : Nat) (c : _) (q : BenchReq) (e : ErrorCapture) (t : Nat) (s : State), let z := tick t s; c < 2 ∧ e.cause = .writeParity ∧ s.Inv ∧
    (up z ∧ alone z ∧ issuedBy z id_ = some (c, q) ∧ stackUp z c = true ∧ firstIn (0x342 + c) (currentStrip z) z ∧ firstIn 0x004 (currentStrip z) z)) ∧
    (∃ (id_ : Nat) (t : Nat) (s : State), let q := tick t s; s.Inv ∧ (alone q ∧ issuedBy q id_ = none)) ∧
    (∃ (pch : Nat) (t : Nat) (s : State), let q := tick t s; pch < 64 ∧ s.Inv ∧ (stackUp q (pch / 32) = true ∧ pendingAt q pch = true ∧
    urgentAt q pch = false)) ∧
    (∃ (pch : Nat) (t : Nat) (s : State), let q := tick t s; pch < 64 ∧ s.Inv ∧ (stackUp q (pch / 32) = true ∧ pendingAt q pch = false)) ∧
    (∃ (pch : Nat) (t : Nat) (s : State), let q := tick t s; pch < 64 ∧ s.Inv ∧ (up q ∧ stackUp q (pch / 32) = true ∧ pendingAt q pch = true ∧
    urgentAt q pch = true ∧ vget (vget q.bench.ctl (pch / 32)).owed (pch % 32) = 7 ∧ (vget q.bench.ctl (pch / 32)).maxOwed = 8 ∧
    firstIn (0x34A + pch / 32) (currentStrip q) q)) ∧
    (∃ (c : Nat) (temp : Int) (t : Nat) (s : State), let q := tick t s; c < 2 ∧ s.Inv ∧ (up q ∧ decide (85 < temp) = true ∧
    (vget q.bench.ctl c).hot = false)) ∧
    (∃ (c : Nat) (temp : Int) (t : Nat) (s : State), let q := tick t s; c < 2 ∧ s.Inv ∧ (up q ∧ decide (temp ≤ 80) = true ∧
    (vget q.bench.ctl c).hot = true)) ∧
    (∃ (c : Nat) (temp : Int) (s : State), c < 2 ∧ s.Inv ∧ (decide (80 < temp) = true ∧ decide (temp ≤ 85) = true)) := ⟨
   ⟨({ port := 3, offset := 64, words := 9 } : BenchReq), upState, inv_of (by decide +kernel), by decide +kernel⟩,
   ⟨({ port := 3, offset := 64, words := 2 } : BenchReq), 1000, upState, by decide +kernel, inv_of (by decide +kernel), by decide +kernel⟩,
   ⟨({ port := 3, offset := 64, words := 2 } : BenchReq), 1000,
   (let b : State := (setCtl 0 (fun x => { x with state := .selfRefresh }) upState); { b with bench := { b.bench with autoEntered := true } }),
   by decide +kernel, inv_of (by decide +kernel), by decide +kernel⟩,
   ⟨(0 : Nat), ([7] : List Nat), 1000, upState, by decide +kernel, inv_of (by decide +kernel), by decide +kernel⟩,
   ⟨0, ([7] : List Nat), ({ id := 7, port := 3, offset := 64, words := 1, data := some [1,2,3] } : BenchReq), [1,2,3], 1000,
   (setCtl 0 (fun x => { x with pending := [({ id := 7, port := 3, offset := 64, words := 1, data := some [1,2,3] } : BenchReq)] }) upState),
   by decide +kernel, by decide +kernel, by decide +kernel, by decide +kernel, by decide +kernel, inv_of (by decide +kernel), by decide +kernel⟩,
   ⟨0, ([7] : List Nat), ({ id := 7, port := 3, offset := 64, words := 1 } : BenchReq), 1000,
   (setCtl 0 (fun x => { x with pending := [({ id := 7, port := 3, offset := 64, words := 1 } : BenchReq)] }) upState), by decide +kernel,
   by decide +kernel, by decide +kernel, by decide +kernel, by decide +kernel, inv_of (by decide +kernel), by decide +kernel⟩,
   ⟨3, 1000, upState, by decide +kernel, inv_of (by decide +kernel), by decide +kernel⟩,
   ⟨3, 1000000000, (setCtl 0 (fun x => { x with pending := [({ id := 7, port := 3, offset := 64, words := 1 } : BenchReq)] }) upState),
   by decide +kernel, inv_of (by decide +kernel), by decide +kernel⟩,
   ⟨7, 1000, upState, inv_of (by decide +kernel), by decide +kernel⟩,
   ⟨7, 0, ({ id := 7, port := 3, offset := 64, words := 1 } : BenchReq), 1000,
   (setCtl 0 (fun x => { x with issued := [({ id := 7, port := 3, offset := 64, words := 1 } : BenchReq)] }) upState), inv_of (by decide +kernel),
   by decide +kernel⟩,
   ⟨7, 0, ({ id := 7, port := 3, offset := 64, words := 1 } : BenchReq), 1000,
   (setCtl 0 (fun x => { x with issued := [({ id := 7, port := 3, offset := 64, words := 1 } : BenchReq)] }) upState), by decide +kernel,
   inv_of (by decide +kernel), by decide +kernel⟩,
   ⟨7, 0, ({ id := 7, port := 3, offset := 64, words := 1 } : BenchReq), ({ offset := 64 } : ErrorCapture), 1000,
   (setCtl 0 (fun x => { x with issued := [({ id := 7, port := 3, offset := 64, words := 1 } : BenchReq)] }) upState), by decide +kernel,
   by decide +kernel, inv_of (by decide +kernel), by decide +kernel⟩,
   ⟨(setCtl 0 (fun x => { x with issued := [({ id := 7, port := 3, offset := 64, words := 1 } : BenchReq)] }) upState), 7, 0,
   ({ id := 7, port := 3, offset := 64, words := 1 } : BenchReq), inv_of (by decide +kernel), by decide +kernel, by decide +kernel,
   by decide +kernel, by decide +kernel, by decide +kernel, by decide +kernel, by decide +kernel, by decide +kernel, by decide +kernel,
   by decide +kernel, by decide +kernel⟩,
   ⟨7, 0, ({ id := 7, port := 3, offset := 64, words := 1 } : BenchReq), ({ cause := .writeParity, offset := 64 } : ErrorCapture), 1000,
   (setCtl 0 (fun x => { x with issued := [({ id := 7, port := 3, offset := 64, words := 1 } : BenchReq)] }) upState), by decide +kernel,
   by decide +kernel, inv_of (by decide +kernel), by decide +kernel⟩,
   ⟨7, 1000, upState, inv_of (by decide +kernel), by decide +kernel⟩,
   ⟨0, 1000,
   (setCtl 0 (fun x => { x with pending := [{ ({ id := 7, port := 3, offset := 64, words := 1 } : BenchReq) with entered := 900 }] }) upState),
   by decide +kernel, inv_of (by decide +kernel), by decide +kernel⟩,
   ⟨0, 1000, (setCtl 0 (fun x => { x with owed := vset x.owed 0 3 }) upState), by decide +kernel, inv_of (by decide +kernel), by decide +kernel⟩,
   ⟨0, 1000000000,
   (setCtl 0 (fun x => { x with pending := [({ id := 7, port := 3, offset := 64, words := 1 } : BenchReq)], owed := vset x.owed 0 7, maxOwed := 8 }) upState),
   by decide +kernel, inv_of (by decide +kernel), by decide +kernel⟩,
   ⟨1, 86, 1000, upState, by decide +kernel, inv_of (by decide +kernel), by decide +kernel⟩,
   ⟨1, 80, 1000, (setCtl 1 (fun x => { x with hot := true }) upState), by decide +kernel, inv_of (by decide +kernel), by decide +kernel⟩,
   ⟨1, 83, upState, by decide +kernel, inv_of (by decide +kernel), by decide +kernel⟩⟩

theorem wit_CommandRings :
    (∃ (n : Nat) (v : Nat) (t : Nat) (s : State), let q := tick t s; n < 4 ∧ v ≠ 0 ∧ ringSizeOk v = true ∧ s.Inv ∧ (up q ∧
    (vget q.host.rings n).enabled = false ∧ (vget q.host.rings n).rplSize ≠ 0 ∧ (vget q.host.rings n).posts = [])) ∧
    (∃ (n : Nat) (v : Nat) (t : Nat) (s : State), let q := tick t s; n < 4 ∧ v < 2 ^ 32 ∧ ringSizeOk v = false ∧ s.Inv ∧ up (q)) ∧
    (∃ (n : Nat) (v : Nat) (t : Nat) (s : State), let q := tick t s; n < 4 ∧ v ≠ 0 ∧ ringSizeOk v = true ∧ s.Inv ∧ (up q ∧
    ((vget q.host.rings n).enabled = true ∨ (vget q.host.rings n).rplSize = 0))) ∧
    (∃ (n : Nat) (t : Nat) (s : State), let q := tick t s; n < 4 ∧ s.Inv ∧ (up q ∧ (vget q.host.rings n).enabled = true)) ∧
    (∃ (n : Nat) (v : Nat) (t : Nat) (s : State), let q := tick t s; n < 4 ∧ v < 2 ^ 32 ∧ s.Inv ∧ (up q ∧ (vget q.host.rings n).enabled = true ∧
    v < (vget q.host.rings n).cmdSize)) ∧
    (∃ (n : Nat) (v : Nat) (t : Nat) (s : State), let q := tick t s; n < 4 ∧ v < 2 ^ 32 ∧ s.Inv ∧ (up q ∧ (vget q.host.rings n).enabled = true ∧
    (vget q.host.rings n).cmdSize ≤ v)) ∧
    (∃ (n : Nat) (t : Nat) (s : State), let q := tick t s; n < 4 ∧ s.Inv ∧ (up q ∧ (vget q.host.rings n).enabled = false)) ∧
    (∃ (n : Nat) (v : Nat) (t : Nat) (s : State), let q := tick t s; n < 4 ∧ v < 2 ^ 32 ∧ s.Inv ∧ (up q ∧ v < (vget q.host.rings n).rplSize ∧
    (vget q.host.rings n).posts = [])) ∧
    (∃ (n : Nat) (v : Nat) (t : Nat) (s : State), let q := tick t s; n < 4 ∧ v < 2 ^ 32 ∧ s.Inv ∧ (up q ∧ (vget q.host.rings n).rplSize ≤ v)) ∧
    (∃ (t : Nat) (s : State), let q := tick t s; s.Inv ∧ ¬ up q) ∧
    (∃ (t : Nat) (s : State), let q := tick t s; s.Inv ∧ ¬ up q) ∧
    (∃ (t : Nat) (s : State), let q := tick t s; s.Inv ∧ ¬ up q) ∧
    (∃ (pkts : List RawPkt) (t : Nat) (s : State), let q := tick t s; s.Inv ∧ nextTaken q pkts = none) ∧
    (∃ (pkts : List RawPkt) (n : _) (t : Nat) (s : State), let q := tick t s; 2 ≤ (pkts.getD n {}).readFails ∧ s.Inv ∧ (up q ∧
    nextTaken q pkts = some n)) ∧
    (∃ (s : State) (pkts : List RawPkt) (n : Nat), s.Inv ∧ up s ∧ nextTaken s pkts = some n ∧ (pkts.getD n {}).readFails = 0 ∧
    specOf (pktOpcode (pkts.getD n {})) = none ∧ nextSlot s < ledgerSlots ∧ sget s.ledger.gens (nextSlot s) 0 < 2 ^ 14 ∧
    (vget s.host.rings n).posts = [] ∧ n < 4) ∧
    (∃ (s : State) (pkts : List RawPkt) (n : Nat), s.Inv ∧ up s ∧ nextTaken s pkts = some n ∧ (pkts.getD n {}).readFails = 0 ∧
    (pkts.getD n {}).stepFails = 0 ∧ pktOpcode (pkts.getD n {}) = 0x0100 ∧ lengthsAgree (parsePkt n (pkts.getD n {})) = true ∧
    (parsePkt n (pkts.getD n {})).paramLen = 0 ∧ (parsePkt n (pkts.getD n {})).module = 0xFF ∧ nextSlot s < ledgerSlots ∧
    sget s.ledger.gens (nextSlot s) 0 < 2 ^ 14 ∧ (vget s.host.rings n).posts = [] ∧ n < 4) ∧
    (∃ (n : Nat) (t : Nat) (s : State), let q := tick t s; s.Inv ∧ (n < 4 ∧ ((vget q.host.rings n).ticketWait = none ∨ ledgerFull q = false))) := ⟨
   ⟨1, 64, 1000, (setRing 1 (fun p => { p with rplSize := 64 }) upState), by decide +kernel, by decide +kernel, by decide +kernel,
   inv_of (by decide +kernel), by decide +kernel⟩,
   ⟨1, 65, 1000, upState, by decide +kernel, by decide +kernel, by decide +kernel, inv_of (by decide +kernel), by decide +kernel⟩,
   ⟨0, 64, 1000, upState, by decide +kernel, by decide +kernel, by decide +kernel, inv_of (by decide +kernel), by decide +kernel⟩,
   ⟨0, 1000, upState, by decide +kernel, inv_of (by decide +kernel), by decide +kernel⟩,
   ⟨0, 255, 1000, upState, by decide +kernel, by decide +kernel, inv_of (by decide +kernel), by decide +kernel⟩,
   ⟨0, 256, 1000, upState, by decide +kernel, by decide +kernel, inv_of (by decide +kernel), by decide +kernel⟩,
   ⟨1, 1000, upState, by decide +kernel, inv_of (by decide +kernel), by decide +kernel⟩,
   ⟨0, 5, 1000, (setRing 0 (fun p => { p with rplProd := 9, unread := 9 }) upState), by decide +kernel, by decide +kernel,
   inv_of (by decide +kernel), by decide +kernel⟩,
   ⟨0, 256, 1000, upState, by decide +kernel, by decide +kernel, inv_of (by decide +kernel), by decide +kernel⟩,
   ⟨1000, (let b : State := upState; { b with hf := { b.hf with fabric := .wedged } }), inv_of (by decide +kernel), by decide +kernel⟩,
   ⟨1000, (let b : State := upState; { b with hf := { b.hf with fabric := .wedged } }), inv_of (by decide +kernel), by decide +kernel⟩,
   ⟨1000, (let b : State := upState; { b with hf := { b.hf with fabric := .wedged } }), inv_of (by decide +kernel), by decide +kernel⟩,
   ⟨([] : List RawPkt), 1000, upState, inv_of (by decide +kernel), by decide +kernel⟩,
   ⟨([{ bytes := le 2 0x0100 ++ [0,0] ++ le 4 77 ++ [0xFF, 0xFF] ++ le 2 0 ++ [1,0,0,0] ++ zeros 48, readFails := 2 }] : List RawPkt), (0 : Nat),
   1000, (setRing 0 (fun p => { p with cmdProd := 1 }) upState), by decide +kernel, inv_of (by decide +kernel), by decide +kernel⟩,
   ⟨(setRing 0 (fun p => { p with cmdProd := 1 }) upState),
   ([{ bytes := le 2 0x0110 ++ [0,0] ++ le 4 77 ++ [0xFF, 0xFF] ++ le 2 0 ++ [1,0,0,0] ++ zeros 48 }] : List RawPkt), (0 : Nat),
   inv_of (by decide +kernel), by decide +kernel, by decide +kernel, by decide +kernel, by decide +kernel, by decide +kernel, by decide +kernel,
   by decide +kernel, by decide +kernel⟩,
   ⟨(setRing 0 (fun p => { p with cmdProd := 1 }) upState),
   ([{ bytes := le 2 0x0100 ++ [0,0] ++ le 4 77 ++ [0xFF, 0xFF] ++ le 2 0 ++ [1,0,0,0] ++ zeros 48 }] : List RawPkt), (0 : Nat),
   inv_of (by decide +kernel), by decide +kernel, by decide +kernel, by decide +kernel, by decide +kernel, by decide +kernel, by decide +kernel,
   by decide +kernel, by decide +kernel, by decide +kernel, by decide +kernel, by decide +kernel, by decide +kernel⟩,
   ⟨0, 1000, upState, inv_of (by decide +kernel), by decide +kernel⟩⟩

theorem wit_RegistersWindowsAndBar4 :
    (∃ (off : Nat) (size : Nat) (t : Nat) (s : State), let q := tick t s; off % 4 = 0 ∧ size = 4 ∧ off ≠ 0x014 ∧ off ≠ 0x018 ∧ off < 0x1000 ∧ s.Inv ∧
    (up q ∧ noLocks q)) ∧
    (∃ (t : Nat) (s : State), let q := tick t s; s.Inv ∧ (up q ∧ noLocks q)) ∧
    (∃ (t : Nat) (s : State), let q := tick t s; s.Inv ∧ (up q ∧ noLocks q)) ∧
    (∃ (t : Nat) (s : State), let q := tick t s; s.Inv ∧ (up q ∧ noLocks q)) ∧
    (∃ (t : Nat) (s : State), let q := tick t s; s.Inv ∧ (up q ∧ noLocks q)) ∧
    (∃ (t : Nat) (s : State), let q := tick t s; s.Inv ∧ ¬ up q) ∧
    (∃ (t : Nat) (s : State), let q := tick t s; s.Inv ∧ hfReached q .bar2 = true) ∧
    (∃ (v : Nat) (t : Nat) (s : State), let q := tick t s; v < 2 ^ 32 ∧ s.Inv ∧ up (q)) ∧
    (∃ (off : Nat) (size : Nat) (t : Nat) (s : State), let q := tick t s; aligned off size = false ∧ s.Inv ∧ up (q)) ∧
    (∃ (v : Nat) (t : Nat) (s : State), let q := tick t s; v < 2 ^ 32 ∧ s.Inv ∧ up (q)) ∧
    (∃ (n : _) (v : _) (t : Nat) (s : State), let q := tick t s; n < 4 ∧ v < 2 ^ 64 ∧ s.Inv ∧ (up q ∧ (vget q.host.rings n).enabled = false ∧
    q.host.lowHalves = [])) ∧
    (∃ (t : Nat) (s : State), let q := tick t s; s.Inv ∧ ¬ up q) ∧
    (∃ (v : Nat) (t : Nat) (s : State), let q := tick t s; v < 2 ^ 32 ∧ s.Inv ∧ hfReached q .bar2 = true) ∧
    (∃ (q : Nat) (size : Nat) (t : Nat) (s : State), let z := tick t s; q < 16 ∧ size ∈ ([4, 8, 16, 32, 64] : List Nat) ∧ s.Inv ∧ (up z ∧
    ((vget z.scribe.queues q).head = 0 ∨ relayedAway z q = true))) ∧
    (∃ (q : Nat) (t : Nat) (s : State), let z := tick t s; q < 16 ∧ s.Inv ∧ (up z ∧ (vget z.scribe.queues q).head ≠ 0 ∧ relayedAway z q = false ∧
    (vget z.scribe.queues q).threshold = 0)) ∧
    (∃ (q : Nat) (off : Nat) (t : Nat) (s : State), let z := tick t s; q < 16 ∧ off ≠ 0 ∧ s.Inv ∧ up (z)) ∧
    (∃ (a : Nat) (size : Nat) (t : Nat) (s : State), let q := tick t s; s.Inv ∧ (up q ∧ q.bench.entering = none ∧
    (vget q.bench.ctl 0).state = .ready ∧ (vget q.bench.ctl 1).state = .ready ∧ q.host.bar4Page * 2 ^ q.host.pcie.bar4Log + a + size ≤ benchSize ∧
    (∀ i : Nat, i < size → inFirmware (q.host.bar4Page * 2 ^ q.host.pcie.bar4Log + a + i) = false))) ∧
    (∃ (t : Nat) (s : State), let q := tick t s; s.Inv ∧ (up q ∧ benchAsleep q = true ∧ (q.bench.forced = true ∨ (q.bench.autoEntered = false ∧
    q.bench.exiting = false)))) ∧
    (∃ (t : Nat) (s : State), let q := tick t s; s.Inv ∧ (up q ∧ benchAsleep q = true ∧ q.bench.forced = false ∧ q.bench.autoEntered = true)) ∧
    (∃ (t : Nat) (s : State), let q := tick t s; s.Inv ∧ ¬ up q) ∧
    (∃ (t : Nat) (s : State), let q := tick t s; s.Inv ∧ (up q ∧ benchAsleep q = false)) ∧
    (∃ (t : Nat) (s : State), let q := tick t s; s.Inv ∧ ¬ up q) := ⟨
   ⟨0x008, (4 : Nat), 1000, upState, by decide +kernel, by decide +kernel, by decide +kernel, by decide +kernel, by decide +kernel,
   inv_of (by decide +kernel), by decide +kernel⟩,
   ⟨1000, (let b : State := upState; { b with host := { b.host with badAccess := 6 } }), inv_of (by decide +kernel), by decide +kernel⟩,
   ⟨1000, (let b : State := upState; { b with host := { b.host with bar4Dropped := 6 } }), inv_of (by decide +kernel), by decide +kernel⟩,
   ⟨1000, (let b : State := upState; { b with host := { b.host with evt := { b.host.evt with lost := 6 } } }), inv_of (by decide +kernel),
   by decide +kernel⟩,
   ⟨1000, (let b : State := upState; { b with host := { b.host with badAccess := 0x60001 } }), inv_of (by decide +kernel), by decide +kernel⟩,
   ⟨1000, (let b : State := upState; { b with hf := { b.hf with fabric := .wedged } }), inv_of (by decide +kernel), by decide +kernel⟩,
   ⟨1000,
   (let b : State := (let b : State := (let b : State := upState; { b with hf := { b.hf with bar0Wedged := 3 } }); { b with host := { b.host with pcie := { b.host.pcie with linkUp := true, perst := false } } }); { b with boot := { b.boot with vmainUp := true, vauxUp := true } }),
   inv_of (by decide +kernel), by decide +kernel⟩,
   ⟨5, 1000, upState, by decide +kernel, inv_of (by decide +kernel), by decide +kernel⟩,
   ⟨2, 4, 1000, upState, by decide +kernel, inv_of (by decide +kernel), by decide +kernel⟩,
   ⟨5, 1000, upState, by decide +kernel, inv_of (by decide +kernel), by decide +kernel⟩,
   ⟨1, 0x1234567890123, 1000, upState, by decide +kernel, by decide +kernel, inv_of (by decide +kernel), by decide +kernel⟩,
   ⟨1000, (let b : State := upState; { b with hf := { b.hf with fabric := .wedged } }), inv_of (by decide +kernel), by decide +kernel⟩,
   ⟨9, 1000,
   (let b : State := (let b : State := (let b : State := upState; { b with hf := { b.hf with bar0Wedged := 3 } }); { b with host := { b.host with pcie := { b.host.pcie with linkUp := true, perst := false } } }); { b with boot := { b.boot with vmainUp := true, vauxUp := true } }),
   by decide +kernel, inv_of (by decide +kernel), by decide +kernel⟩,
   ⟨3, (8 : Nat), 1000, upState, by decide +kernel, by decide +kernel, inv_of (by decide +kernel), by decide +kernel⟩,
   ⟨3, 1000,
   (let z : State := (setQueue 3 (fun x => { x with on := true, cap := 64, base := 4096, wr := 2, head := 2, live := [{ seq := 0 }, { seq := 1 }] }) upState); written [(4096, [1,2,3])] z),
   by decide +kernel, inv_of (by decide +kernel), by decide +kernel⟩,
   ⟨3, 64, 1000,
   (let z : State := (setQueue 3 (fun x => { x with on := true, cap := 64, base := 4096, wr := 2, head := 2, live := [{ seq := 0 }, { seq := 1 }] }) upState); written [(4096, [1,2,3])] z),
   by decide +kernel, by decide +kernel, inv_of (by decide +kernel), by decide +kernel⟩,
   ⟨(98 : Nat), (8 : Nat), 1000, (written [(100, [1,2,3])] upState), inv_of (by decide +kernel), by decide +kernel⟩,
   ⟨1000, (setCtl 0 (fun x => { x with state := .selfRefresh }) (setCtl 1 (fun x => { x with state := .selfRefresh }) upState)),
   inv_of (by decide +kernel), by decide +kernel⟩,
   ⟨1000,
   (let b : State := (setCtl 0 (fun x => { x with state := .selfRefresh }) (setCtl 1 (fun x => { x with state := .selfRefresh }) upState)); { b with bench := { b.bench with autoEntered := true } }),
   inv_of (by decide +kernel), by decide +kernel⟩,
   ⟨1000, (let b : State := upState; { b with hf := { b.hf with fabric := .wedged } }), inv_of (by decide +kernel), by decide +kernel⟩,
   ⟨1000, upState, inv_of (by decide +kernel), by decide +kernel⟩,
   ⟨1000, (let b : State := upState; { b with hf := { b.hf with fabric := .wedged } }), inv_of (by decide +kernel), by decide +kernel⟩⟩

theorem wit_PciExpressFunction :
    (∃ (t : Nat) (s : State), let q := tick t s; s.Inv ∧ beforeStep3 q = true) ∧
    (∃ (t : Nat) (s : State), let q := tick t s; s.Inv ∧ beforeStep3 q = true) ∧
    (∃ (t : Nat) (s : State), let q := tick t s; s.Inv ∧ beforeStep3 q = false) ∧
    (∃ (t : Nat) (s : State), let q := tick t s; s.Inv ∧ beforeStep3 q = false) ∧
    (∃ (t : Nat) (s : State), let q := tick t s; s.Inv ∧ beforeStep3 q = false) ∧
    (∃ (v : _) (t : Nat) (s : State), let q := tick t s; 8 ≤ v ∧ v ≤ 16 ∧ s.Inv ∧ beforeStep3 q = false) ∧
    (∃ (v : _) (t : Nat) (s : State), let q := tick t s; (v < 8 ∨ 16 < v) ∧ s.Inv ∧ beforeStep3 q = false) ∧
    (∃ (t : Nat) (s : State), let q := tick t s; s.Inv ∧ beforeStep3 q = false) ∧
    (∃ (t : Nat) (s : State), let q := tick t s; s.Inv ∧ (beforeStep3 q = false ∧ q.host.pcie.heldMsgs = 0)) ∧
    (∃ (t : Nat) (s : State), let q := tick t s; s.Inv ∧ (noLocks q ∧ ∀ c : Nat, c < 64 → ((vget q.dma.ch c).state ≠ .wait ∧
    (vget q.dma.ch c).state ≠ .run))) ∧
    (∃ (s : State) (c : Nat) (w : Nat) (d : DmaRun), s.Inv ∧ noLocks s ∧ c < 64 ∧ (vget s.dma.ch c).state = .run ∧ (vget s.dma.ch c).run = some d ∧
    d.ticket = w ∧ d.frame = none ∧ bitOf d.desc.flags 0 = false ∧ ticketLive s.ledger w = true ∧ ((∀ k : Nat, k < 64 → k ≠ c →
    (vget s.dma.ch k).state ≠ .wait ∧ (vget s.dma.ch k).state ≠ .run))) ∧
    (∃ (t : Nat) (s : State), let q := tick t s; s.Inv ∧ q.host.pcie.perst = true) ∧
    (∃ (s : State), s.Inv ∧ s.host.pcie.perst = false ∧ ((∀ c : Nat, c < 64 → (vget s.dma.ch c).state = .off))) ∧
    (∃ (t : Nat) (s : State), let q := tick t s; s.Inv ∧ (q.host.pcie.perst = false ∧ beforeStep3 q = false)) ∧
    (∃ (t : Nat) (s : State), let q := tick t s; s.Inv ∧ (q.host.pcie.perst = true ∨ beforeStep3 q = true)) := ⟨
   ⟨1000, upState, inv_of (by decide +kernel), by decide +kernel⟩,
   ⟨1000, upState, inv_of (by decide +kernel), by decide +kernel⟩,
   ⟨1000, (let b : State := upState; { b with boot := { b.boot with vmainUp := true, stage := 7 } }), inv_of (by decide +kernel), by decide +kernel⟩,
   ⟨1000, (let b : State := upState; { b with boot := { b.boot with vmainUp := true, stage := 7 } }), inv_of (by decide +kernel), by decide +kernel⟩,
   ⟨1000, (let b : State := upState; { b with boot := { b.boot with vmainUp := true, stage := 7 } }), inv_of (by decide +kernel), by decide +kernel⟩,
   ⟨12, 1000, (let b : State := upState; { b with boot := { b.boot with vmainUp := true, stage := 7 } }), by decide +kernel, by decide +kernel,
   inv_of (by decide +kernel), by decide +kernel⟩,
   ⟨17, 1000, (let b : State := upState; { b with boot := { b.boot with vmainUp := true, stage := 7 } }), by decide +kernel,
   inv_of (by decide +kernel), by decide +kernel⟩,
   ⟨1000,
   (let b : State := (let b : State := upState; { b with boot := { b.boot with vmainUp := true, stage := 7 } }); { b with host := { b.host with pcie := { b.host.pcie with d3hot := true } } }),
   inv_of (by decide +kernel), by decide +kernel⟩,
   ⟨1000, (let b : State := upState; { b with boot := { b.boot with vmainUp := true, stage := 7 } }), inv_of (by decide +kernel), by decide +kernel⟩,
   ⟨1000, upState, inv_of (by decide +kernel), by decide +kernel⟩,
   ⟨(setChan 5 (fun x => { x with state := .run, run := some { desc := { length := 64 }, ticket := 0 } }) (let b : State := upState; { b with ledger := { b.ledger with issued := [0] } })),
   5, 0, ({ desc := { length := 64 }, ticket := 0 } : DmaRun), inv_of (by decide +kernel), by decide +kernel, by decide +kernel, by decide +kernel,
   by decide +kernel, by decide +kernel, by decide +kernel, by decide +kernel, by decide +kernel, by decide +kernel⟩,
   ⟨1000, upState, inv_of (by decide +kernel), by decide +kernel⟩,
   ⟨(let b : State := upState; { b with host := { b.host with pcie := { b.host.pcie with perst := false } } }), inv_of (by decide +kernel),
   by decide +kernel, by decide +kernel⟩,
   ⟨1000,
   (let b : State := (let b : State := upState; { b with boot := { b.boot with vmainUp := true, stage := 7 } }); { b with host := { b.host with pcie := { b.host.pcie with perst := false } } }),
   inv_of (by decide +kernel), by decide +kernel⟩,
   ⟨1000, upState, inv_of (by decide +kernel), by decide +kernel⟩⟩

theorem wit_EventRegisters :
    (∃ (s : State) (word : Nat), s.Inv ∧ up s ∧ word < 32) ∧
    (∃ (s : State) (word : Nat) (v : Nat), s.Inv ∧ up s ∧ word < 32 ∧ ((∀ i : Nat, i < 32 → bitOf s.host.evt.mask (32 * word + i) = true →
    bitOf v i = false → bitOf s.host.evt.pending (32 * word + i) = false))) ∧
    (∃ (s : State) (src : Nat), s.Inv ∧ up s ∧ src < 256) ∧
    (∃ (s : State) (src : Nat), s.Inv ∧ up s ∧ src < 1024 ∧ bitOf s.host.evt.mask src = true ∧ bitOf s.host.evt.pending src = true ∧
    s.host.evt.size = 0 ∧ bitOf s.host.evt.armed (vectorOf s.host.evt src) = true ∧ s.host.pcie.msixEnable = true ∧ s.host.pcie.funcMask = false ∧
    (msixEntry s.host.pcie (vectorOf s.host.evt src)).masked = false ∧ ((∀ i : Nat, i < 32 → 32 * (src / 32) + i ≠ src →
    bitOf s.host.evt.mask (32 * (src / 32) + i) = false))) ∧
    (∃ (s : State) (v : Nat), s.Inv ∧ up s ∧ v < 64 ∧ vectorPending s.host.evt v = false) ∧
    (∃ (s : State) (v : Nat), s.Inv ∧ up s ∧ v < 64 ∧ vectorPending s.host.evt v = true ∧ s.host.pcie.msixEnable = true ∧
    s.host.pcie.funcMask = false ∧ (msixEntry s.host.pcie v).masked = false) ∧
    (∃ (s : State) (v : Nat), s.Inv ∧ up s ∧ v < 64 ∧ vectorPending s.host.evt v = true ∧ s.host.pcie.msixEnable = true ∧ s.host.pcie.funcMask = true) ∧
    (∃ (s : State) (v : Nat), s.Inv ∧ up s ∧ v < 64 ∧ bitOf s.host.pcie.heldMsgs v = true ∧ s.host.pcie.msixEnable = true ∧
    s.host.pcie.funcMask = false ∧ ((∀ k : Nat, k < 64 → k ≠ v → bitOf s.host.pcie.heldMsgs k = false))) ∧
    (∃ (s : State) (v : Nat), s.Inv ∧ up s ∧ v < 64 ∧ bitOf s.host.pcie.heldMsgs v = true ∧ s.host.pcie.msixEnable = true ∧
    (msixEntry s.host.pcie v).masked = false ∧ ((∀ k : Nat, k < 64 → k ≠ v → bitOf s.host.pcie.heldMsgs k = false))) ∧
    (∃ (t : Nat) (s : State), let q := tick t s; s.Inv ∧ ¬ up q) ∧
    (∃ (t : Nat) (s : State), let q := tick t s; s.Inv ∧ ¬ up q) ∧
    (∃ (t : Nat) (s : State), let q := tick t s; s.Inv ∧ ¬ up q) ∧
    (∃ (t : Nat) (s : State), let q := tick t s; s.Inv ∧ ¬ up q) := ⟨
   ⟨(let b : State := upState; { b with host := { b.host with evt := { b.host.evt with pending := 2 ^ 40 + 2 ^ 33 + 7 } } }), 1,
   inv_of (by decide +kernel), by decide +kernel, by decide +kernel⟩,
   ⟨(let b : State := upState; { b with host := { b.host with evt := { b.host.evt with pending := 2 ^ 40 + 2 ^ 33 + 7 } } }), 1, (2 ^ 32 - 1 - 4),
   inv_of (by decide +kernel), by decide +kernel, by decide +kernel, by decide +kernel⟩,
   ⟨upState, 3, inv_of (by decide +kernel), by decide +kernel, by decide +kernel⟩,
   ⟨(let b : State := (let b : State := upState; { b with host := { b.host with evt := { b.host.evt with pending := 2 ^ 40, mask := 2 ^ 40 } } }); { b with host := { b.host with pcie := { b.host.pcie with msixEnable := true, funcMask := false, table := [(2, { masked := false })] } } }),
   40, inv_of (by decide +kernel), by decide +kernel, by decide +kernel, by decide +kernel, by decide +kernel, by decide +kernel, by decide +kernel,
   by decide +kernel, by decide +kernel, by decide +kernel, by decide +kernel⟩,
   ⟨(let b : State := upState; { b with host := { b.host with evt := { b.host.evt with armed := 3 } } }), 7, inv_of (by decide +kernel),
   by decide +kernel, by decide +kernel, by decide +kernel⟩,
   ⟨(let b : State := (let b : State := upState; { b with host := { b.host with evt := { b.host.evt with pending := 2 ^ 40, mask := 2 ^ 41, armed := 3 } } }); { b with host := { b.host with pcie := { b.host.pcie with msixEnable := true, funcMask := false, table := [(2, { masked := false })] } } }),
   2, inv_of (by decide +kernel), by decide +kernel, by decide +kernel, by decide +kernel, by decide +kernel, by decide +kernel, by decide +kernel⟩,
   ⟨(let b : State := (let b : State := upState; { b with host := { b.host with evt := { b.host.evt with pending := 2 ^ 40, mask := 2 ^ 41, armed := 3 } } }); { b with host := { b.host with pcie := { b.host.pcie with msixEnable := true, funcMask := true, table := [(2, { masked := false })] } } }),
   2, inv_of (by decide +kernel), by decide +kernel, by decide +kernel, by decide +kernel, by decide +kernel, by decide +kernel⟩,
   ⟨(let b : State := upState; { b with host := { b.host with pcie := { b.host.pcie with msixEnable := true, heldMsgs := 4 } } }), 2,
   inv_of (by decide +kernel), by decide +kernel, by decide +kernel, by decide +kernel, by decide +kernel, by decide +kernel, by decide +kernel⟩,
   ⟨(let b : State := upState; { b with host := { b.host with pcie := { b.host.pcie with msixEnable := true, funcMask := true, heldMsgs := 4, table := [(2, { masked := false })] } } }),
   2, inv_of (by decide +kernel), by decide +kernel, by decide +kernel, by decide +kernel, by decide +kernel, by decide +kernel, by decide +kernel⟩,
   ⟨1000, (let b : State := upState; { b with hf := { b.hf with fabric := .wedged } }), inv_of (by decide +kernel), by decide +kernel⟩,
   ⟨1000, (let b : State := upState; { b with hf := { b.hf with fabric := .wedged } }), inv_of (by decide +kernel), by decide +kernel⟩,
   ⟨1000, (let b : State := upState; { b with hf := { b.hf with fabric := .wedged } }), inv_of (by decide +kernel), by decide +kernel⟩,
   ⟨1000, (let b : State := upState; { b with hf := { b.hf with fabric := .wedged } }), inv_of (by decide +kernel), by decide +kernel⟩⟩

theorem wit_ForwardedCommands :
    (∃ (s : State) (f : Forwarded) (status : Nat) (body : Bytes), s.Inv ∧ up s ∧ s.ring.forwarded = [f] ∧ f.accepted = false ∧ status ≠ stAccepted ∧
    status < 65536 ∧ body.length ≤ 1008 ∧ ticketLive s.ledger f.ticket = true ∧ postsNow f.ring s) ∧
    (∃ (s : State) (f : Forwarded), s.Inv ∧ up s ∧ s.ring.forwarded = [f] ∧ f.accepted = false ∧ postsNow f.ring s) ∧
    (∃ (s : State) (f : Forwarded) (status : Nat) (body : Bytes), s.Inv ∧ up s ∧ s.ring.forwarded = [f] ∧ f.accepted = true ∧ status ≠ stAccepted ∧
    status < 65536 ∧ body.length ≤ 1008 ∧ ticketLive s.ledger f.ticket = true ∧ postsNow f.ring s) ∧
    (∃ (m : Nat) (p : Nat) (t : Nat) (s : State), let q := tick t s; s.Inv ∧ (up q ∧ q.ring.forwarded = [] ∧ q.ring.broadcasts = [] ∧
    (moduleById q m).bind (routeTo q) = some p)) ∧
    (∃ (t : Nat) (s : State) (f : Forwarded), s.Inv ∧ up s ∧ s.ring.forwarded = [f] ∧ s.ring.broadcasts = [] ∧ f.accepted = false ∧
    f.sentAt + 10000000 ≤ max s.now t ∧ ticketLive s.ledger f.ticket = true ∧ postsNow f.ring s) ∧
    (∃ (w : Nat) (t : Nat) (s : State), let q := tick t s; s.Inv ∧ (q.ring.broadcasts = [] ∧ ∀ f ∈ q.ring.forwarded,
    f.accepted = true ∨ q.now < f.sentAt + 10000000 ∨ f.ticket ≠ w)) ∧
    (∃ (g : Nat) (k : RawPkt) (t : Nat) (s : State), let q := tick t s; specOf (pktOpcode k) = none ∧ s.Inv ∧ (up q ∧ g ≠ allModules)) ∧
    (∃ (g : Nat) (k : RawPkt) (t : Nat) (s : State), let q := tick t s; pktOpcode k = 0x0100 ∧ (parsePkt 0 k).paramLen = 0 ∧
    (parsePkt 0 k).module ≠ allModules ∧ k.stepFails = 0 ∧ s.Inv ∧ (up q ∧ g ≠ allModules)) ∧
    (∃ (g : Nat) (k : RawPkt) (t : Nat) (s : State), let q := tick t s; pktOpcode k = 0x0100 ∧ (parsePkt 0 k).module = allModules ∧ s.Inv ∧ (up q ∧
    g ≠ allModules)) := ⟨
   ⟨(let b : State := (let b : State := upState; { b with ledger := { b.ledger with issued := [0] } }); { b with ring := { b.ring with forwarded := [({ ring := 0, tag := 9, ticket := 0, module := 3, opcode := 0x0100, sentAt := 5, accepted := false } : Forwarded)] } }),
   ({ ring := 0, tag := 9, ticket := 0, module := 3, opcode := 0x0100, sentAt := 5, accepted := false } : Forwarded), 0, ([1,2] : Bytes),
   inv_of (by decide +kernel), by decide +kernel, by decide +kernel, by decide +kernel, by decide +kernel, by decide +kernel, by decide +kernel,
   by decide +kernel, by decide +kernel⟩,
   ⟨(let b : State := (let b : State := upState; { b with ledger := { b.ledger with issued := [0] } }); { b with ring := { b.ring with forwarded := [({ ring := 0, tag := 9, ticket := 0, module := 3, opcode := 0x0100, sentAt := 5, accepted := false } : Forwarded)] } }),
   ({ ring := 0, tag := 9, ticket := 0, module := 3, opcode := 0x0100, sentAt := 5, accepted := false } : Forwarded), inv_of (by decide +kernel),
   by decide +kernel, by decide +kernel, by decide +kernel, by decide +kernel⟩,
   ⟨(let b : State := (let b : State := upState; { b with ledger := { b.ledger with issued := [0] } }); { b with ring := { b.ring with forwarded := [({ ring := 0, tag := 9, ticket := 0, module := 3, opcode := 0x0100, sentAt := 5, accepted := true } : Forwarded)] } }),
   ({ ring := 0, tag := 9, ticket := 0, module := 3, opcode := 0x0100, sentAt := 5, accepted := true } : Forwarded), 0x8010, ([1,2] : Bytes),
   inv_of (by decide +kernel), by decide +kernel, by decide +kernel, by decide +kernel, by decide +kernel, by decide +kernel, by decide +kernel,
   by decide +kernel, by decide +kernel⟩,
   ⟨3, 0, 1000,
   (setLinkPort 0 (fun x => { x with state := .up }) (let b : State := upState; { b with ring := { b.ring with modules := [{ id := some 3, hopsEast := some 1 }] } })),
   inv_of (by decide +kernel), by decide +kernel⟩,
   ⟨10000005,
   (let b : State := (let b : State := upState; { b with ledger := { b.ledger with issued := [0] } }); { b with ring := { b.ring with forwarded := [({ ring := 0, tag := 9, ticket := 0, module := 3, opcode := 0x0100, sentAt := 5, accepted := false } : Forwarded)] } }),
   ({ ring := 0, tag := 9, ticket := 0, module := 3, opcode := 0x0100, sentAt := 5, accepted := false } : Forwarded), inv_of (by decide +kernel),
   by decide +kernel, by decide +kernel, by decide +kernel, by decide +kernel, by decide +kernel, by decide +kernel, by decide +kernel⟩,
   ⟨0, 1000,
   (let b : State := (let b : State := upState; { b with ledger := { b.ledger with issued := [0] } }); { b with ring := { b.ring with forwarded := [({ ring := 0, tag := 9, ticket := 0, module := 3, opcode := 0x0100, sentAt := 5, accepted := false } : Forwarded)] } }),
   inv_of (by decide +kernel), by decide +kernel⟩,
   ⟨3, ({ bytes := le 2 0x0110 ++ [0,0] ++ le 4 77 ++ [0xFF, 0xFF] ++ le 2 0 ++ [1,0,0,0] ++ zeros 48 } : RawPkt), 1000, upState, by decide +kernel,
   inv_of (by decide +kernel), by decide +kernel⟩,
   ⟨3, ({ bytes := le 2 0x0100 ++ [0,0] ++ le 4 77 ++ [0xFF, 0xFF] ++ le 2 0 ++ [1,0,0,0] ++ zeros 48 } : RawPkt), 1000, upState, by decide +kernel,
   by decide +kernel, by decide +kernel, by decide +kernel, inv_of (by decide +kernel), by decide +kernel⟩,
   ⟨3, ({ bytes := le 2 0x0100 ++ [0,0] ++ le 4 77 ++ [0xFE, 0xFF] ++ le 2 0 ++ [1,0,0,0] ++ zeros 48 } : RawPkt), 1000, upState, by decide +kernel,
   by decide +kernel, inv_of (by decide +kernel), by decide +kernel⟩⟩

theorem wit_DmaRegisters :
    (∃ (ch : Nat) (timer : Bool) (v : Nat) (t : Nat) (s : State), let q := tick t s; ch < 64 ∧ v < 2 ^ 32 ∧ badDmaCfg timer v = true ∧ s.Inv ∧
    (up q ∧ noLocks q)) ∧
    (∃ (ch : Nat) (timer : Bool) (v : Nat) (t : Nat) (s : State), let q := tick t s; ch < 64 ∧ v < 2 ^ 32 ∧ badDmaCfg timer v = false ∧ s.Inv ∧
    (up q ∧ noLocks q ∧ (q.glue.isSome = true ∨ q.ring.prepared.isSome = true))) ∧
    (∃ (ch : Nat) (v : Nat) (h : Holder) (t : Nat) (s : State), let q := tick t s; ch < 64 ∧ v < 2 ^ 32 ∧ badDmaCfg false v = false ∧ s.Inv ∧ (up q ∧
    noLocks q ∧ alone q ∧ q.ring.prepared = none ∧
    conflictOf (claimsOf { q.staged with dma := vmod q.staged.dma ch fun x => { x with cfg := dmaCfgBits v } } q.marq.shadow.region) (runningClaims q) q.claims 0 ch = some h)) ∧
    (∃ (ch : Nat) (v : Nat) (t : Nat) (s : State), let q := tick t s; ch < 64 ∧ v < 2 ^ 32 ∧ badDmaCfg false v = false ∧ s.Inv ∧ (up q ∧ noLocks q ∧
    alone q ∧ q.ring.prepared = none ∧
    conflictOf (claimsOf { q.staged with dma := vmod q.staged.dma ch fun x => { x with cfg := dmaCfgBits v } } q.marq.shadow.region) (runningClaims q) q.claims 0 ch = none)) ∧
    (∃ (ch : Nat) (v : Nat) (t : Nat) (s : State), let q := tick t s; ch < 64 ∧ 1000 ≤ v ∧ v ≤ 4294967288 ∧ v % 8 = 0 ∧ s.Inv ∧ (up q ∧ noLocks q ∧
    alone q ∧ q.ring.prepared = none ∧
    conflictOf (claimsOf { q.staged with dma := vmod q.staged.dma ch fun x => { x with timerNs := v } } q.marq.shadow.region) (runningClaims q) q.claims 0 ch = none)) ∧
    (∃ (ch : Nat) (v : _) (t : Nat) (s : State), let q := tick t s; ch < 64 ∧ v < 2 ^ 64 ∧ s.Inv ∧ (up q ∧ noLocks q)) ∧
    (∃ (ch : Nat) (v : _) (t : Nat) (s : State), let q := tick t s; ch < 64 ∧ v < 2 ^ 32 ∧ s.Inv ∧ (up q ∧ noLocks q)) ∧
    (∃ (ch : Nat) (i : _) (st : _) (t : Nat) (s : State), let q := tick t s; ch < 64 ∧ i < 256 ∧ st < 16 ∧ s.Inv ∧ (up q ∧ noLocks q)) ∧
    (∃ (ch : Nat) (v : _) (t : Nat) (s : State), let q := tick t s; ch < 64 ∧ v < 2 ^ 32 ∧ s.Inv ∧ (up q ∧ locksHeld q ∧
    (vget q.dma.ch ch).lockUntil.isSome = true)) ∧
    (∃ (ch : Nat) (t : Nat) (s : State), let q := tick t s; ch < 64 ∧ s.Inv ∧ (up q ∧ noLocks q)) ∧
    (∃ (ch : Nat) (t : Nat) (s : State), let q := tick t s; ch < 64 ∧ s.Inv ∧ (up q ∧ locksHeld q ∧ (vget q.dma.ch ch).lockUntil.isSome = true)) ∧
    (∃ (ch : Nat) (t : Nat) (s : State), let q := tick t s; ch < 64 ∧ s.Inv ∧ (up q ∧ noLocks q ∧ (vget q.dma.ch ch).fencedBit = false ∧
    (vget q.dma.ch ch).state = .idle ∧ (vget q.dma.ch ch).armed = false ∧ (vget q.dma.ch ch).active.count ≠ 0 ∧
    modeStart (vget q.dma.ch ch).active.mode = 0)) ∧
    (∃ (ch : Nat) (t : Nat) (s : State), let q := tick t s; ch < 64 ∧ s.Inv ∧ (up q ∧ noLocks q ∧ (vget q.dma.ch ch).fencedBit = false ∧
    (vget q.dma.ch ch).state = .idle ∧ (vget q.dma.ch ch).armed = false ∧ (vget q.dma.ch ch).active.count ≠ 0 ∧
    modeStart (vget q.dma.ch ch).active.mode ≠ 0)) ∧
    (∃ (ch : Nat) (t : Nat) (s : State), let q := tick t s; ch < 64 ∧ s.Inv ∧ (up q ∧ noLocks q ∧ (vget q.dma.ch ch).fencedBit = false ∧
    (vget q.dma.ch ch).state = .idle ∧ (vget q.dma.ch ch).armed = true)) ∧
    (∃ (ch : Nat) (t : Nat) (s : State), let q := tick t s; ch < 64 ∧ s.Inv ∧ (up q ∧ noLocks q ∧ (vget q.dma.ch ch).state = .idle ∧
    (vget q.dma.ch ch).armed = false ∧ (vget q.dma.ch ch).active.count = 0)) ∧
    (∃ (ch : Nat) (t : Nat) (s : State), let q := tick t s; ch < 64 ∧ s.Inv ∧ (up q ∧ noLocks q ∧ (vget q.dma.ch ch).fencedBit = false ∧
    (vget q.dma.ch ch).state = .wait ∧ (vget q.dma.ch ch).done < (vget q.dma.ch ch).active.count)) ∧
    (∃ (ch : Nat) (t : Nat) (s : State), let q := tick t s; ch < 64 ∧ s.Inv ∧ (up q ∧ noLocks q ∧ (vget q.dma.ch ch).fencedBit = false ∧
    (vget q.dma.ch ch).state = .run ∧ modeStart (vget q.dma.ch ch).active.mode ≠ 0)) ∧
    (∃ (ch : Nat) (t : Nat) (s : State), let q := tick t s; ch < 64 ∧ s.Inv ∧ (up q ∧ noLocks q ∧ (vget q.dma.ch ch).fencedBit = false ∧
    (vget q.dma.ch ch).state = .stopped)) ∧
    (∃ (ch : Nat) (t : Nat) (s : State), let q := tick t s; ch < 64 ∧ s.Inv ∧ (up q ∧ noLocks q ∧
    ((vget q.dma.ch ch).fencedBit = true ∨ (vget q.dma.ch ch).state = .off))) ∧
    (∃ (ch : Nat) (t : Nat) (s : State), let q := tick t s; ch < 64 ∧ s.Inv ∧ (up q ∧ noLocks q ∧ (vget q.dma.ch ch).state = .off)) ∧
    (∃ (ch : Nat) (t : Nat) (s : State), let q := tick t s; ch < 64 ∧ s.Inv ∧ (up q ∧ noLocks q ∧ (vget q.dma.ch ch).state ≠ .off ∧
    (vget q.dma.ch ch).run = none)) ∧
    (∃ (s : State) (c : Nat) (d : DmaRun), s.Inv ∧ up s ∧ noLocks s ∧ dmaRuns c d s ∧ (vget s.dma.ch c).state ≠ .off ∧ bitOf d.desc.flags 3 = false) ∧
    (∃ (ch : Nat) (t : Nat) (s : State), let q := tick t s; ch < 64 ∧ s.Inv ∧ (up q ∧ noLocks q ∧ (vget q.dma.ch ch).state ≠ .off ∧
    (vget q.dma.ch ch).run = none)) ∧
    (∃ (k : Nat) (ch : _) (t : Nat) (s : State), let q := tick t s; ch < 64 ∧ s.Inv ∧ (up q ∧ noLocks q ∧ (vget q.dma.ch ch).fencedBit = false ∧
    (vget q.dma.ch ch).state = .wait ∧ (vget q.dma.ch ch).done < (vget q.dma.ch ch).active.count ∧ modeStart (vget q.dma.ch ch).active.mode = 1 ∧
    dmaEnable (vget (cfgNow q).dma ch) = true ∧ dmaTimerEn (vget (cfgNow q).dma ch) = true ∧ dmaTimer (vget (cfgNow q).dma ch) = k ∧ (∀ j : Nat,
    j < 64 → j ≠ ch → dmaTimerEn (vget (cfgNow q).dma j) = false ∨ dmaTimer (vget (cfgNow q).dma j) ≠ k))) ∧
    (∃ (k : Nat) (ch : _) (t : Nat) (s : State), let q := tick t s; ch < 64 ∧ s.Inv ∧ (up q ∧ noLocks q ∧ (vget q.dma.ch ch).state = .run ∧
    modeStart (vget q.dma.ch ch).active.mode = 1 ∧ dmaEnable (vget (cfgNow q).dma ch) = true ∧ dmaTimerEn (vget (cfgNow q).dma ch) = true ∧
    dmaTimer (vget (cfgNow q).dma ch) = k ∧ (∀ j : Nat, j < 64 → j ≠ ch →
    dmaTimerEn (vget (cfgNow q).dma j) = false ∨ dmaTimer (vget (cfgNow q).dma j) ≠ k))) ∧
    (∃ (k : Nat) (ch : _) (t : Nat) (s : State), let q := tick t s; ch < 64 ∧ s.Inv ∧ (up q ∧ (∀ j : Nat, j < 64 →
    dmaTimerEn (vget (cfgNow q).dma j) = false ∨ dmaTimer (vget (cfgNow q).dma j) ≠ k) ∧ (∀ j : Nat, j < 64 → j ≠ ch →
    (vget q.dma.ch j).lockUntil = none) ∧ (vget q.dma.ch ch).lockUntil.any (fun t => decide (t ≤ q.now)) = true ∧ (vget q.dma.ch ch).held = [] ∧
    (vget q.dma.ch ch).state = .run ∧ (vget q.dma.ch ch).shadow.count ≠ 0 ∧ (vget q.dma.ch ch).fencedBit = false ∧
    modeStart (vget q.dma.ch ch).shadow.mode = 0)) ∧
    (∃ (k : Nat) (ch : _) (v : _) (t : Nat) (s : State), let q := tick t s; ch < 64 ∧ s.Inv ∧ (up q ∧ (∀ j : Nat, j < 64 →
    dmaTimerEn (vget (cfgNow q).dma j) = false ∨ dmaTimer (vget (cfgNow q).dma j) ≠ k) ∧ (∀ j : Nat, j < 64 → j ≠ ch →
    (vget q.dma.ch j).lockUntil = none) ∧ (vget q.dma.ch ch).lockUntil.any (fun t => decide (t ≤ q.now)) = true ∧
    (vget q.dma.ch ch).held = [.count v, .arm] ∧ (vget q.dma.ch ch).state = .run ∧ (vget q.dma.ch ch).shadow.count ≠ 0 ∧
    modeStart (vget q.dma.ch ch).shadow.mode = 1)) ∧
    (∃ (t : Nat) (s : State), let q := tick t s; s.Inv ∧ ¬ up q) ∧
    (∃ (t : Nat) (s : State), let q := tick t s; s.Inv ∧ ¬ up q) ∧
    (∃ (t : Nat) (s : State), let q := tick t s; s.Inv ∧ ¬ up q) ∧
    (∃ (t : Nat) (s : State), let q := tick t s; s.Inv ∧ ¬ up q) ∧
    (∃ (t : Nat) (s : State), let q := tick t s; s.Inv ∧ ¬ up q) ∧
    (∃ (t : Nat) (s : State), let q := tick t s; s.Inv ∧ ¬ up q) := ⟨
   ⟨5, true, 7, 1000, upState, by decide +kernel, by decide +kernel, by decide +kernel, inv_of (by decide +kernel), by decide +kernel⟩,
   ⟨5, true, 1000, 1000, (let b : State := upState; { b with ring := { b.ring with prepared := some (3, 0) } }), by decide +kernel,
   by decide +kernel, by decide +kernel, inv_of (by decide +kernel), by decide +kernel⟩,
   ⟨5, 0x93000001,
   ((fun s : State => (conflictOf (claimsOf { s.staged with dma := vmod s.staged.dma 5 fun x => { x with cfg := dmaCfgBits 0x93000001 } } s.marq.shadow.region) (runningClaims s) s.claims 0 5).getD {}) (let b : State := upState; { b with staged := { b.staged with dma := vset b.staged.dma 6 { cfg := 0x93000001 } } })),
   1000, (let b : State := upState; { b with staged := { b.staged with dma := vset b.staged.dma 6 { cfg := 0x93000001 } } }), by decide +kernel,
   by decide +kernel, by decide +kernel, inv_of (by decide +kernel), by decide +kernel⟩,
   ⟨5, 0x93000001, 1000, upState, by decide +kernel, by decide +kernel, by decide +kernel, inv_of (by decide +kernel), by decide +kernel⟩,
   ⟨5, 1008, 1000, upState, by decide +kernel, by decide +kernel, by decide +kernel, by decide +kernel, inv_of (by decide +kernel), by decide +kernel⟩,
   ⟨5, 4097, 1000, upState, by decide +kernel, by decide +kernel, inv_of (by decide +kernel), by decide +kernel⟩,
   ⟨5, 4097, 1000, upState, by decide +kernel, by decide +kernel, inv_of (by decide +kernel), by decide +kernel⟩,
   ⟨5, 9, 2, 1000, upState, by decide +kernel, by decide +kernel, by decide +kernel, inv_of (by decide +kernel), by decide +kernel⟩,
   ⟨5, 3, 1000, (setChan 5 (fun x => { x with state := .run, lockUntil := some 1001 }) upState), by decide +kernel, by decide +kernel,
   inv_of (by decide +kernel), by decide +kernel⟩,
   ⟨5, 1000, upState, by decide +kernel, inv_of (by decide +kernel), by decide +kernel⟩,
   ⟨5, 1000, (setChan 5 (fun x => { x with state := .run, lockUntil := some 1001 }) upState), by decide +kernel, inv_of (by decide +kernel),
   by decide +kernel⟩,
   ⟨5, 1000, (setChan 5 (fun x => { x with state := .idle, active := { count := 3 }, done := 3 }) upState), by decide +kernel,
   inv_of (by decide +kernel), by decide +kernel⟩,
   ⟨5, 1000, (setChan 5 (fun x => { x with state := .idle, active := { count := 3, mode := 1 }, done := 3 }) upState), by decide +kernel,
   inv_of (by decide +kernel), by decide +kernel⟩,
   ⟨5, 1000, (setChan 5 (fun x => { x with state := .idle, armed := true }) upState), by decide +kernel, inv_of (by decide +kernel),
   by decide +kernel⟩,
   ⟨5, 1000, (setChan 5 (fun x => { x with state := .idle }) upState), by decide +kernel, inv_of (by decide +kernel), by decide +kernel⟩,
   ⟨5, 1000, (setChan 5 (fun x => { x with state := .wait, active := { count := 3, mode := 1 }, done := 2 }) upState), by decide +kernel,
   inv_of (by decide +kernel), by decide +kernel⟩,
   ⟨5, 1000, (setChan 5 (fun x => { x with state := .run, active := { count := 3, mode := 1 }, done := 2 }) upState), by decide +kernel,
   inv_of (by decide +kernel), by decide +kernel⟩,
   ⟨5, 1000, (setChan 5 (fun x => { x with state := .stopped, noTicket := true }) upState), by decide +kernel, inv_of (by decide +kernel),
   by decide +kernel⟩,
   ⟨5, 1000, upState, by decide +kernel, inv_of (by decide +kernel), by decide +kernel⟩,
   ⟨5, 1000, upState, by decide +kernel, inv_of (by decide +kernel), by decide +kernel⟩,
   ⟨5, 1000, (setChan 5 (fun x => { x with state := .wait, fetching := true }) upState), by decide +kernel, inv_of (by decide +kernel),
   by decide +kernel⟩,
   ⟨(setChan 5 (fun x => { x with state := .run, run := some ({ desc := { length := 64 }, ticket := 0 } : DmaRun) }) (let b : State := upState; { b with ledger := { b.ledger with issued := [0] } })),
   5, ({ desc := { length := 64 }, ticket := 0 } : DmaRun), inv_of (by decide +kernel), by decide +kernel, by decide +kernel, by decide +kernel,
   by decide +kernel, by decide +kernel⟩,
   ⟨5, 1000,
   (setChan 5 (fun x => { x with state := .fenced, fencedBit := true, done := 3, lastStatus := 2 }) (let b : State := upState; { b with faults := { b.faults with fences := [⟨0x11, 5, 1⟩, ⟨0x11, 6, 1⟩] } })),
   by decide +kernel, inv_of (by decide +kernel), by decide +kernel⟩,
   ⟨3, 5, 1000,
   (setChan 5 (fun x => { x with state := .wait, active := { count := 3, mode := 1 }, done := 2 }) (let b : State := upState; { b with running := { b.running with dma := vset b.running.dma 5 { cfg := 0x93000002 } } })),
   by decide +kernel, inv_of (by decide +kernel), by decide +kernel⟩,
   ⟨3, 5, 1000,
   (setChan 5 (fun x => { x with state := .run, active := { count := 3, mode := 1 }, done := 2 }) (let b : State := upState; { b with running := { b.running with dma := vset b.running.dma 5 { cfg := 0x93000002 } } })),
   by decide +kernel, inv_of (by decide +kernel), by decide +kernel⟩,
   ⟨3, 5, 1000,
   (setChan 5 (fun x => { x with state := .run, active := { count := 3, mode := 1 }, shadow := { count := 2, base := 4096 }, armed := true, done := 2, lockUntil := some 999 }) upState),
   by decide +kernel, inv_of (by decide +kernel), by decide +kernel⟩,
   ⟨3, 5, 7, 1000,
   (setChan 5 (fun x => { x with state := .run, active := { count := 3, mode := 1 }, shadow := { count := 2, base := 4096, mode := 1 }, armed := true, done := 2, lockUntil := some 999, held := [.count 7, .arm] }) upState),
   by decide +kernel, inv_of (by decide +kernel), by decide +kernel⟩,
   ⟨1000, (let b : State := upState; { b with hf := { b.hf with fabric := .wedged } }), inv_of (by decide +kernel), by decide +kernel⟩,
   ⟨1000, (let b : State := upState; { b with hf := { b.hf with fabric := .wedged } }), inv_of (by decide +kernel), by decide +kernel⟩,
   ⟨1000, (let b : State := upState; { b with hf := { b.hf with fabric := .wedged } }), inv_of (by decide +kernel), by decide +kernel⟩,
   ⟨1000, (let b : State := upState; { b with hf := { b.hf with fabric := .wedged } }), inv_of (by decide +kernel), by decide +kernel⟩,
   ⟨1000, (let b : State := upState; { b with hf := { b.hf with fabric := .wedged } }), inv_of (by decide +kernel), by decide +kernel⟩,
   ⟨1000, (let b : State := upState; { b with hf := { b.hf with fabric := .wedged } }), inv_of (by decide +kernel), by decide +kernel⟩⟩

theorem wit_DmaDescriptors :
    (∃ (ch : Nat) (d : Desc) (b : Bytes) (t : Nat) (s : State), let q := tick t s; ch < 64 ∧ b.length = 32 ∧ parDesc b = d ∧ d.srcKind ≤ 1 ∧
    d.dstKind = 0 ∧ flushDesc d = false ∧ s.Inv ∧ (up q ∧ noLocks q ∧ alone q ∧ q.faults.injections = [] ∧ (vget q.dma.ch ch).fetching = true ∧
    descOk q d = true ∧ descFrozen q d = false ∧ ledgerFull q = false)) ∧
    (∃ (s : State) (c : Nat) (b : Bytes), s.Inv ∧ up s ∧ noLocks s ∧ alone s ∧ c < 64 ∧ s.faults.injections = [] ∧
    (vget s.dma.ch c).fetching = true ∧ b.length = 32 ∧ descOk s (parDesc b) = false ∧ bitOf (parDesc b).flags 3 = false ∧ nextSlot s < ledgerSlots ∧
    sget s.ledger.gens (nextSlot s) 0 < 2 ^ 14 ∧ modeStart (vget s.dma.ch c).active.mode = 0 ∧ (vget s.dma.ch c).fencedBit = false ∧
    (vget s.dma.ch c).done + 1 < (vget s.dma.ch c).active.count) ∧
    (∃ (s : State) (c : Nat), s.Inv ∧ up s ∧ noLocks s ∧ c < 64 ∧ s.faults.injections = [] ∧ (vget s.dma.ch c).fetching = true ∧
    (vget s.dma.ch c).run = none) ∧
    (∃ (ch : Nat) (t : Nat) (s : State), let q := tick t s; ch < 64 ∧ s.Inv ∧ (noLocks q ∧ (vget q.dma.ch ch).fetching = false ∧
    (vget q.dma.ch ch).ticketWait = none)) ∧
    (∃ (ch : Nat) (t : Nat) (s : State), let q := tick t s; s.Inv ∧ (vget q.dma.ch ch).ticketWait = none) ∧
    (∃ (ch : Nat) (w : _) (d : Desc) (t : Nat) (s : State), let q := tick t s; ch < 64 ∧ d.srcKind ≤ 1 ∧ d.dstKind = 0 ∧ flushDesc d = false ∧
    s.Inv ∧ (up q ∧ alone q ∧ (vget q.dma.ch ch).ticketWait = some (d, w) ∧ ledgerFull q = false ∧ descOk q d = true ∧ descFrozen q d = false)) ∧
    (∃ (ch : Nat) (d : DmaRun) (t : Nat) (s : State), let q := tick t s; ch < 64 ∧ d.waiting = false ∧ flushDesc d.desc = false ∧
    d.desc.srcKind = 1 ∧ d.payload = none ∧ d.read < d.total ∧ s.Inv ∧ (up q ∧ noLocks q ∧ (vget q.dma.ch ch).run = some d ∧
    d.pages.length < dmaPages (vget (cfgNow q).dma ch))) ∧
    (∃ (ch : Nat) (data : Bytes) (d : DmaRun) (t : Nat) (s : State), let q := tick t s; ch < 64 ∧ d.waiting = false ∧ flushDesc d.desc = false ∧
    d.desc.srcKind = 0 ∧ d.payload = none ∧ d.read < d.total ∧ data.length = (nextBurst d.desc d.down d.total d.read).2 ∧ s.Inv ∧ (up q ∧ noLocks q ∧
    q.faults.injections = [] ∧ (vget q.dma.ch ch).run = some d ∧ d.pages.length < dmaPages (vget (cfgNow q).dma ch))) ∧
    (∃ (ch : Nat) (d : DmaRun) (t : Nat) (s : State), let q := tick t s; ch < 64 ∧ d.waiting = false ∧ s.Inv ∧ (noLocks q ∧
    (vget q.dma.ch ch).run = some d ∧ (d.total ≤ d.read ∨ dmaPages (vget (cfgNow q).dma ch) ≤ d.pages.length))) ∧
    (∃ (t : Nat) (s : State), let q := tick t s; s.Inv ∧ writePick q = none) ∧
    (∃ (ch : _) (d : DmaRun) (b : Burst) (rest : List Burst) (t : Nat) (s : State), let q := tick t s; ch < 64 ∧ d.desc.dstKind = 0 ∧
    d.pages = b :: rest ∧ s.Inv ∧ (up q ∧ writePick q = some ch ∧ (vget q.dma.ch ch).run = some d)) ∧
    (∃ (ch : _) (d : DmaRun) (b : Burst) (rest : List Burst) (t : Nat) (s : State), let q := tick t s; ch < 64 ∧ d.desc.dstKind = 1 ∧
    d.pages = b :: rest ∧ s.Inv ∧ (up q ∧ writePick q = some ch ∧ (vget q.dma.ch ch).run = some d)) ∧
    (∃ (ch : Nat) (d : DmaRun) (t : Nat) (s : State), let q := tick t s; ch < 64 ∧
    (d.waiting = true ∨ flushDesc d.desc = true ∨ d.written < d.total) ∧ s.Inv ∧ (noLocks q ∧ (vget q.dma.ch ch).run = some d)) ∧
    (∃ (s : State) (c : Nat) (d : DmaRun), s.Inv ∧ up s ∧ noLocks s ∧ dmaRuns c d s ∧ d.total ≤ d.written ∧ flushDesc d.desc = false ∧
    (vget s.dma.ch c).active.count = (vget s.dma.ch c).done + 1 ∧ (vget s.dma.ch c).armed = false) ∧
    (∃ (s : State) (c : Nat) (d : DmaRun), s.Inv ∧ up s ∧ noLocks s ∧ dmaRuns c d s ∧ d.total ≤ d.written ∧ flushDesc d.desc = false ∧
    (vget s.dma.ch c).done + 1 < (vget s.dma.ch c).active.count ∧ modeStart (vget s.dma.ch c).active.mode = 0 ∧ (vget s.dma.ch c).fencedBit = false) ∧
    (∃ (s : State) (c : Nat) (d : DmaRun), s.Inv ∧ up s ∧ noLocks s ∧ dmaRuns c d s ∧ flushDesc d.desc = true ∧
    (vget s.dma.ch c).active.count = (vget s.dma.ch c).done + 1 ∧ (vget s.dma.ch c).armed = false) ∧
    (∃ (ch : Nat) (t : Nat) (s : State), let q := tick t s; s.Inv ∧ (noLocks q ∧ (vget q.dma.ch ch).run = none)) := ⟨
   ⟨5, parDesc (le 8 64 ++ le 8 4096 ++ le 4 8 ++ [1,0,0,0] ++ zeros 8 : Bytes), (le 8 64 ++ le 8 4096 ++ le 4 8 ++ [1,0,0,0] ++ zeros 8 : Bytes),
   1000, (setChan 5 (fun x => { x with state := .run, fetching := true, active := { count := 3, base := 8192 } }) upState), by decide +kernel,
   by decide +kernel, by decide +kernel, by decide +kernel, by decide +kernel, by decide +kernel, inv_of (by decide +kernel), by decide +kernel⟩,
   ⟨(setChan 5 (fun x => { x with state := .run, fetching := true, active := { count := 3, base := 8192 } }) upState), 5,
   (le 8 64 ++ le 8 4096 ++ le 4 7 ++ [1,0,0,0] ++ zeros 8 : Bytes), inv_of (by decide +kernel), by decide +kernel, by decide +kernel,
   by decide +kernel, by decide +kernel, by decide +kernel, by decide +kernel, by decide +kernel, by decide +kernel, by decide +kernel,
   by decide +kernel, by decide +kernel, by decide +kernel, by decide +kernel, by decide +kernel⟩,
   ⟨(setChan 5 (fun x => { x with state := .run, fetching := true, active := { count := 3, base := 8192 } }) upState), 5, inv_of (by decide +kernel),
   by decide +kernel, by decide +kernel, by decide +kernel, by decide +kernel, by decide +kernel, by decide +kernel⟩,
   ⟨5, 1000, upState, by decide +kernel, inv_of (by decide +kernel), by decide +kernel⟩,
   ⟨5, 1000, upState, inv_of (by decide +kernel), by decide +kernel⟩,
   ⟨5, 4, parDesc (le 8 64 ++ le 8 4096 ++ le 4 8 ++ [1,0,0,0] ++ zeros 8 : Bytes), 1000,
   (setChan 5 (fun x => { x with state := .run, ticketWait := some (parDesc (le 8 64 ++ le 8 4096 ++ le 4 8 ++ [1,0,0,0] ++ zeros 8 : Bytes), 4) }) upState),
   by decide +kernel, by decide +kernel, by decide +kernel, by decide +kernel, inv_of (by decide +kernel), by decide +kernel⟩,
   ⟨5, ({ desc := parDesc (le 8 64 ++ le 8 4096 ++ le 4 8 ++ [1,0,0,0] ++ zeros 8 : Bytes), ticket := 0, total := 8 } : DmaRun), 1000,
   (written [(64, [1,2,3])] (setChan 5 (fun x => { x with state := .run, run := some ({ desc := parDesc (le 8 64 ++ le 8 4096 ++ le 4 8 ++ [1,0,0,0] ++ zeros 8 : Bytes), ticket := 0, total := 8 } : DmaRun) }) (let b : State := upState; { b with running := { b.running with dma := vset b.running.dma 5 { cfg := 0x93000002 } } }))),
   by decide +kernel, by decide +kernel, by decide +kernel, by decide +kernel, by decide +kernel, by decide +kernel, inv_of (by decide +kernel),
   by decide +kernel⟩,
   ⟨5, ([1,2,3,4,5,6,7,8] : Bytes),
   ({ desc := parDesc (le 8 64 ++ le 8 4096 ++ le 4 8 ++ [0,0,0,0] ++ zeros 8 : Bytes), ticket := 0, total := 8 } : DmaRun), 1000,
   (setChan 5 (fun x => { x with state := .run, run := some ({ desc := parDesc (le 8 64 ++ le 8 4096 ++ le 4 8 ++ [0,0,0,0] ++ zeros 8 : Bytes), ticket := 0, total := 8 } : DmaRun) }) (let b : State := upState; { b with running := { b.running with dma := vset b.running.dma 5 { cfg := 0x93000002 } } })),
   by decide +kernel, by decide +kernel, by decide +kernel, by decide +kernel, by decide +kernel, by decide +kernel, by decide +kernel,
   inv_of (by decide +kernel), by decide +kernel⟩,
   ⟨5, { ({ desc := parDesc (le 8 64 ++ le 8 4096 ++ le 4 8 ++ [0,0,0,0] ++ zeros 8 : Bytes), ticket := 0, total := 8 } : DmaRun) with read := 8 },
   1000,
   (setChan 5 (fun x => { x with state := .run, run := some { ({ desc := parDesc (le 8 64 ++ le 8 4096 ++ le 4 8 ++ [0,0,0,0] ++ zeros 8 : Bytes), ticket := 0, total := 8 } : DmaRun) with read := 8 } }) (let b : State := upState; { b with running := { b.running with dma := vset b.running.dma 5 { cfg := 0x93000002 } } })),
   by decide +kernel, by decide +kernel, inv_of (by decide +kernel), by decide +kernel⟩,
   ⟨1000, upState, inv_of (by decide +kernel), by decide +kernel⟩,
   ⟨5,
   { ({ desc := parDesc (le 8 64 ++ le 8 4096 ++ le 4 8 ++ [1,0,0,0] ++ zeros 8 : Bytes), ticket := 0, total := 8 } : DmaRun) with read := 8, pages := [{ off := 0, data := [1,2,3] }] },
   ({ off := 0, data := [1,2,3] } : Burst), ([] : List Burst), 1000,
   (setChan 5 (fun x => { x with state := .run, run := some { ({ desc := parDesc (le 8 64 ++ le 8 4096 ++ le 4 8 ++ [1,0,0,0] ++ zeros 8 : Bytes), ticket := 0, total := 8 } : DmaRun) with read := 8, pages := [{ off := 0, data := [1,2,3] }] } }) (let b : State := upState; { b with running := { b.running with dma := vset b.running.dma 5 { cfg := 0x93000002 } } })),
   by decide +kernel, by decide +kernel, by decide +kernel, inv_of (by decide +kernel), by decide +kernel⟩,
   ⟨5,
   { ({ desc := parDesc (le 8 64 ++ le 8 4096 ++ le 4 8 ++ [0,0,1,0] ++ zeros 8 : Bytes), ticket := 0, total := 8 } : DmaRun) with read := 8, pages := [{ off := 0, data := [1,2,3] }] },
   ({ off := 0, data := [1,2,3] } : Burst), ([] : List Burst), 1000,
   (setChan 5 (fun x => { x with state := .run, run := some { ({ desc := parDesc (le 8 64 ++ le 8 4096 ++ le 4 8 ++ [0,0,1,0] ++ zeros 8 : Bytes), ticket := 0, total := 8 } : DmaRun) with read := 8, pages := [{ off := 0, data := [1,2,3] }] } }) (let b : State := upState; { b with running := { b.running with dma := vset b.running.dma 5 { cfg := 0x93000002 } } })),
   by decide +kernel, by decide +kernel, by decide +kernel, inv_of (by decide +kernel), by decide +kernel⟩,
   ⟨5, ({ desc := parDesc (le 8 64 ++ le 8 4096 ++ le 4 8 ++ [1,0,0,0] ++ zeros 8 : Bytes), ticket := 0, total := 8 } : DmaRun), 1000,
   (setChan 5 (fun x => { x with state := .run, run := some ({ desc := parDesc (le 8 64 ++ le 8 4096 ++ le 4 8 ++ [1,0,0,0] ++ zeros 8 : Bytes), ticket := 0, total := 8 } : DmaRun) }) upState),
   by decide +kernel, by decide +kernel, inv_of (by decide +kernel), by decide +kernel⟩,
   ⟨(setChan 5 (fun x => { x with state := .run, active := { count := 3, base := 64 }, done := 2, run := some ({ desc := { length := 8, flags := 9 }, ticket := 0, total := 8, read := 8, written := 8 } : DmaRun) }) (let b : State := upState; { b with ledger := { b.ledger with issued := [0] } })),
   5, ({ desc := { length := 8, flags := 9 }, ticket := 0, total := 8, read := 8, written := 8 } : DmaRun), inv_of (by decide +kernel),
   by decide +kernel, by decide +kernel, by decide +kernel, by decide +kernel, by decide +kernel, by decide +kernel, by decide +kernel⟩,
   ⟨(setChan 5 (fun x => { x with state := .run, active := { count := 4, base := 64 }, done := 2, run := some ({ desc := { length := 8, flags := 9 }, ticket := 0, total := 8, read := 8, written := 8 } : DmaRun) }) (let b : State := upState; { b with ledger := { b.ledger with issued := [0] } })),
   5, ({ desc := { length := 8, flags := 9 }, ticket := 0, total := 8, read := 8, written := 8 } : DmaRun), inv_of (by decide +kernel),
   by decide +kernel, by decide +kernel, by decide +kernel, by decide +kernel, by decide +kernel, by decide +kernel, by decide +kernel,
   by decide +kernel⟩,
   ⟨(setChan 5 (fun x => { x with state := .run, active := { count := 3, base := 64 }, done := 2, run := some ({ desc := { length := 0, flags := 2 }, ticket := 0 } : DmaRun) }) (let b : State := upState; { b with ledger := { b.ledger with issued := [0] } })),
   5, ({ desc := { length := 0, flags := 2 }, ticket := 0 } : DmaRun), inv_of (by decide +kernel), by decide +kernel, by decide +kernel,
   by decide +kernel, by decide +kernel, by decide +kernel, by decide +kernel⟩,
   ⟨5, 1000, upState, inv_of (by decide +kernel), by decide +kernel⟩⟩

theorem wit_AxisCommands :
    (∃ (a : Nat) (c : HostCmd) (s : State), a < 4 ∧ Ready specAxisMove c s ∧ (c.unit = a ∧ (axisCfg s a).enable = true ∧
    bitOf (u8 c.params 4) 1 = false ∧ (axisCfg s a).softMin ≤ s32 c.params 0 ∧ s32 c.params 0 ≤ (axisCfg s a).softMax ∧ rtHolder s 0x0D a = none ∧
    axisReady s a = true ∧ (vget s.axes.ax a).state ≠ .stroking ∧
    towardLimit (axisCfg s a) (vget s.axes.ax a) (s32 c.params 0 - axisPos (vget s.axes.ax a)) = false ∧ s.gauge.trigEnabled = false)) ∧
    (∃ (a : Nat) (c : HostCmd) (s : State), a < 4 ∧ Ready specAxisMove c s ∧ (c.unit = a ∧ (axisCfg s a).enable = true ∧
    bitOf (u8 c.params 4) 1 = true ∧ (axisCfg s a).softMin ≤ s32 c.params 0 + moveBase (vget s.axes.ax a) ∧
    s32 c.params 0 + moveBase (vget s.axes.ax a) ≤ (axisCfg s a).softMax ∧ rtHolder s 0x0D a = none ∧ axisReady s a = true ∧
    (vget s.axes.ax a).state ≠ .stroking ∧
    towardLimit (axisCfg s a) (vget s.axes.ax a) (s32 c.params 0 + moveBase (vget s.axes.ax a) - axisPos (vget s.axes.ax a)) = false ∧
    s.gauge.trigEnabled = true)) ∧
    (∃ (a : Nat) (c : HostCmd) (s : State), a < 4 ∧ Ready specAxisMove c s ∧ (c.unit = a ∧ (axisCfg s a).enable = true ∧
    bitOf (u8 c.params 4) 1 = false ∧ (s32 c.params 0 < (axisCfg s a).softMin ∨ (axisCfg s a).softMax < s32 c.params 0))) ∧
    (∃ (a : Nat) (c : HostCmd) (s : State), a < 4 ∧ Ready specAxisMove c s ∧ (c.unit = a ∧ (axisCfg s a).enable = false)) ∧
    (∃ (a : Nat) (c : HostCmd) (s : State), a < 4 ∧ Ready specAxisHome c s ∧ acceptsMore s ∧ (c.unit = a ∧ (axisCfg s a).enable = true ∧
    badHome c.params (axisCfg s a).vmax = none ∧ (vget s.axes.ax a).home = none ∧ rtHolder s 0x0D a = none ∧ (vget s.axes.ax a).state = .idle ∧
    bitOf (axisCfg s a).inputs 2 = true ∧ ((parHome c.params).latchIndex = false ∨ (axisCfg s a).encoder ≠ none) ∧
    inputAsserted (axisCfg s a) (vget s.axes.ax a) 2 = false ∧
    inputAsserted (axisCfg s a) (vget s.axes.ax a) (if (parHome c.params).positive then 1 else 0) = false)) ∧
    (∃ (a : Nat) (c : HostCmd) (s : State), a < 4 ∧ Ready specAxisHome c s ∧ (c.unit = a ∧ (axisCfg s a).enable = true ∧
    badHome c.params (axisCfg s a).vmax = none ∧ (vget s.axes.ax a).home = none ∧ rtHolder s 0x0D a = none ∧ (vget s.axes.ax a).state ≠ .idle)) ∧
    (∃ (a : Nat) (c : HostCmd) (s : State), a < 4 ∧ Ready specAxisStop c s ∧ (c.unit = a ∧ u8 c.params 0 ≤ 1 ∧ noStations s ∧
    (vget s.axes.ax a).state = .moving ∧ (vget s.axes.ax a).vq ≠ 0 ∧ (axisCfg s a).jerk = 0 ∧ (∀ k ∈ runningClaims s, k.kind = 0x0D → k.index ≠ a))) ∧
    (∃ (a : Nat) (c : HostCmd) (s : State), a < 4 ∧ Ready specAxisStop c s ∧ (c.unit = a ∧ u8 c.params 0 = 2 ∧ noStations s ∧
    (vget s.axes.ax a).state = .idle ∧ (vget s.axes.ax a).vq = 0 ∧ (vget s.axes.ax a).stopping = none ∧ (vget s.axes.ax a).home = none)) ∧
    (∃ (a : Nat) (c : HostCmd) (s : State), a < 4 ∧ Ready specAxisStop c s ∧ (c.unit = a ∧ u8 c.params 0 = 3 ∧
    ((vget s.axes.ax a).state = .fault ∨ (vget s.axes.ax a).state = .safeStopped) ∧ (axisIn (cfgNow s) a).enable = true ∧
    (axisCfg s a).encoder = none ∧ (vget s.axes.ax a).held = none ∧ (vget s.axes.ax a).stopping = none ∧ 21000 ≤ s.axes.vmotorMv ∧
    s.axes.vmotorMv ≤ 51000 ∧ (vget s.axes.ax a).temp < 125 ∧ anyChatter (vget s.axes.ax a) = false)) ∧
    (∃ (a : Nat) (c : HostCmd) (s : State), a < 4 ∧ Ready specAxisStop c s ∧ (c.unit = a ∧ u8 c.params 0 = 3 ∧ (vget s.axes.ax a).state ≠ .disabled ∧
    (s.axes.vmotorMv < 21000 ∨ 125 ≤ (vget s.axes.ax a).temp))) ∧
    (∃ (a : Nat) (c : HostCmd) (s : State), a < 4 ∧ Ready specAxisStop c s ∧ (c.unit = a ∧ u8 c.params 0 ≤ 3 ∧ (vget s.axes.ax a).state = .disabled)) := ⟨
   ⟨2, {unit := 2, paramLen := 8, params := leI 4 500 ++ [1,0,0,0]},
   (setAxis 2 (fun x => { x with state := .idle, standstill := some .off, inputs := #v[{ level := false }, { level := false }, { level := false }] }) (let b : State := upState; { b with running := { b.running with axis := vset b.running.axis 2 { (vget b.running.axis 2) with enable := true, vmax := 100000, accel := 1000000, decel := 1000000, emerg := 2000000, softMin := -100000, softMax := 100000, inputs := 0x3F } } })),
   by decide +kernel, ready_of (by decide +kernel), by decide +kernel⟩,
   ⟨2, {unit := 2, paramLen := 8, params := leI 4 500 ++ [3,0,0,0]},
   (let b : State := (setAxis 2 (fun x => { x with xq := 5 * 2 ^ 32 }) (setAxis 2 (fun x => { x with state := .idle, standstill := some .off, inputs := #v[{ level := false }, { level := false }, { level := false }] }) (let b : State := upState; { b with running := { b.running with axis := vset b.running.axis 2 { (vget b.running.axis 2) with enable := true, vmax := 100000, accel := 1000000, decel := 1000000, emerg := 2000000, softMin := -100000, softMax := 100000, inputs := 0x3F } } }))); { b with gauge := { b.gauge with trigEnabled := true } }),
   by decide +kernel, ready_of (by decide +kernel), by decide +kernel⟩,
   ⟨2, {unit := 2, paramLen := 8, params := leI 4 100001 ++ [1,0,0,0]},
   (setAxis 2 (fun x => { x with state := .idle, standstill := some .off, inputs := #v[{ level := false }, { level := false }, { level := false }] }) (let b : State := upState; { b with running := { b.running with axis := vset b.running.axis 2 { (vget b.running.axis 2) with enable := true, vmax := 100000, accel := 1000000, decel := 1000000, emerg := 2000000, softMin := -100000, softMax := 100000, inputs := 0x3F } } })),
   by decide +kernel, ready_of (by decide +kernel), by decide +kernel⟩,
   ⟨2, {unit := 2, paramLen := 8, params := leI 4 5 ++ [1,0,0,0]}, upState, by decide +kernel, ready_of (by decide +kernel), by decide +kernel⟩,
   ⟨2, {unit := 2, paramLen := 32, params := [1,0,0,0] ++ le 4 5000 ++ le 4 500 ++ le 4 100 ++ le 4 0 ++ le 4 1 ++ le 4 100 ++ zeros 4},
   (setAxis 2 (fun x => { x with state := .idle, standstill := some .off, inputs := #v[{ level := false }, { level := false }, { level := false }] }) (let b : State := upState; { b with running := { b.running with axis := vset b.running.axis 2 { (vget b.running.axis 2) with enable := true, vmax := 100000, accel := 1000000, decel := 1000000, emerg := 2000000, softMin := -100000, softMax := 100000, inputs := 0x3F } } })),
   by decide +kernel, ready_of (by decide +kernel), by unfold acceptsMore; decide +kernel, by decide +kernel⟩,
   ⟨2, {unit := 2, paramLen := 32, params := [1,0,0,0] ++ le 4 5000 ++ le 4 500 ++ le 4 100 ++ le 4 0 ++ le 4 1 ++ le 4 100 ++ zeros 4},
   (setAxis 2 (fun x => { x with state := .geared }) (setAxis 2 (fun x => { x with state := .idle, standstill := some .off, inputs := #v[{ level := false }, { level := false }, { level := false }] }) (let b : State := upState; { b with running := { b.running with axis := vset b.running.axis 2 { (vget b.running.axis 2) with enable := true, vmax := 100000, accel := 1000000, decel := 1000000, emerg := 2000000, softMin := -100000, softMax := 100000, inputs := 0x3F } } }))),
   by decide +kernel, ready_of (by decide +kernel), by decide +kernel⟩,
   ⟨2, {unit := 2, paramLen := 4, params := [1,0,0,0]},
   (setAxis 2 (fun x => { x with state := .moving, vq := 2 ^ 40, target := 50000 }) (setAxis 2 (fun x => { x with state := .idle, standstill := some .off, inputs := #v[{ level := false }, { level := false }, { level := false }] }) (let b : State := upState; { b with running := { b.running with axis := vset b.running.axis 2 { (vget b.running.axis 2) with enable := true, vmax := 100000, accel := 1000000, decel := 1000000, emerg := 2000000, softMin := -100000, softMax := 100000, inputs := 0x3F } } }))),
   by decide +kernel, ready_of (by decide +kernel), by decide +kernel⟩,
   ⟨2, {unit := 2, paramLen := 4, params := [2,0,0,0]},
   (setAxis 2 (fun x => { x with state := .idle, standstill := some .off, inputs := #v[{ level := false }, { level := false }, { level := false }] }) (let b : State := upState; { b with running := { b.running with axis := vset b.running.axis 2 { (vget b.running.axis 2) with enable := true, vmax := 100000, accel := 1000000, decel := 1000000, emerg := 2000000, softMin := -100000, softMax := 100000, inputs := 0x3F } } })),
   by decide +kernel, ready_of (by decide +kernel), by decide +kernel⟩,
   ⟨2, {unit := 2, paramLen := 4, params := [3,0,0,0]},
   (setAxis 2 (fun x => { x with state := .fault, bridgesOff := true, cause := .overcurrent }) (setAxis 2 (fun x => { x with state := .idle, standstill := some .off, inputs := #v[{ level := false }, { level := false }, { level := false }] }) (let b : State := upState; { b with running := { b.running with axis := vset b.running.axis 2 { (vget b.running.axis 2) with enable := true, vmax := 100000, accel := 1000000, decel := 1000000, emerg := 2000000, softMin := -100000, softMax := 100000, inputs := 0x3F } } }))),
   by decide +kernel, ready_of (by decide +kernel), by decide +kernel⟩,
   ⟨2, {unit := 2, paramLen := 4, params := [3,0,0,0]},
   (setAxis 2 (fun x => { x with temp := 125 }) (setAxis 2 (fun x => { x with state := .idle, standstill := some .off, inputs := #v[{ level := false }, { level := false }, { level := false }] }) (let b : State := upState; { b with running := { b.running with axis := vset b.running.axis 2 { (vget b.running.axis 2) with enable := true, vmax := 100000, accel := 1000000, decel := 1000000, emerg := 2000000, softMin := -100000, softMax := 100000, inputs := 0x3F } } }))),
   by decide +kernel, ready_of (by decide +kernel), by decide +kernel⟩,
   ⟨2, {unit := 2, paramLen := 4, params := [3,0,0,0]}, upState, by decide +kernel, ready_of (by decide +kernel), by decide +kernel⟩⟩

theorem wit_AxisMotionAndProtection :
    (∃ (a : Nat) (t : Nat) (s : State), let q := tick t s; a < 4 ∧ s.Inv ∧ (updates a q ∧ (vget q.axes.ax a).state = .moving ∧
    (vget q.axes.ax a).softBrake = false ∧ softAlarm (axisCfg q a) (vget q.axes.ax a) = false ∧ (axisNext a q).2.2 = false)) ∧
    (∃ (a : Nat) (t : Nat) (s : State), let q := tick t s; a < 4 ∧ s.Inv ∧ (updates a q ∧ (vget q.axes.ax a).state = .moving ∧
    (vget q.axes.ax a).softBrake = false ∧ softAlarm (axisCfg q a) (vget q.axes.ax a) = false ∧ (axisNext a q).2.2 = true ∧
    (vget q.axes.ax a).stroke = none ∧ (vget q.axes.ax a).notify = true ∧ (vget q.axes.ax a).scribe = false)) ∧
    (∃ (a : Nat) (p : Stopping) (t : Nat) (s : State), let q := tick t s; a < 4 ∧ p.atRest = .idle ∧ p.emerg = true ∧ s.Inv ∧ (updates a q ∧
    (vget q.axes.ax a).state = .stopping ∧ (vget q.axes.ax a).stopping = some p ∧
    (brakeStep (axisCfg q a).emerg (vget q.axes.ax a).xq (vget q.axes.ax a).vq).2 = 0)) ∧
    (∃ (a : Nat) (t : Nat) (s : State), let q := tick t s; a < 4 ∧ s.Inv ∧ (noStations q ∧ (vget q.axes.ax a).moveDue = none ∧
    (vget q.axes.ax a).gearDue = false ∧ ((vget q.axes.ax a).irunUntil.isSome = true ∨ q.now < (vget q.axes.ax a).lastUpdate + 1000))) ∧
    (∃ (a : Nat) (t : Nat) (s : State), let q := tick t s; a < 4 ∧ s.Inv ∧ (up q ∧ noStations q ∧ (vget q.axes.ax a).state = .moving ∧
    (vget q.axes.ax a).vq ≠ 0 ∧ (vget q.axes.ax a).stopping = none ∧ (vget q.axes.ax a).home = none ∧ (vget q.axes.ax a).stroke = none ∧
    (vget q.axes.ax a).irunUntil = none ∧ (axisCfg q a).jerk = 0 ∧ (vget q.axes.ax a).lastUpdate + 20000 ≤ q.now)) ∧
    (∃ (a : Nat) (t : Nat) (s : State), let q := tick t s; a < 4 ∧ s.Inv ∧ (noStations q ∧
    (q.now < (vget q.axes.ax a).lastUpdate + 20000 ∨ (vget q.axes.ax a).state = .idle))) ∧
    (∃ (a : Nat) (i : Nat) (t : Nat) (s : State), let q := tick t s; a < 4 ∧ i < 3 ∧ s.Inv ∧ (noStations q ∧ bitOf (axisCfg q a).inputs i = false)) ∧
    (∃ (a : Nat) (i : Nat) (t : Nat) (s : State), let q := tick t s; a < 4 ∧ i < 3 ∧ s.Inv ∧ (noStations q ∧ bitOf (axisCfg q a).inputs i = true ∧
    (vget q.axes.ax a).state = .idle ∧ (vget q.axes.ax a).vq = 0)) ∧
    (∃ (a : Nat) (l : Bool) (t : Nat) (s : State), let q := tick t s; a < 4 ∧ s.Inv ∧ (noStations q ∧ bitOf (axisCfg q a).inputs 1 = true ∧
    bitOf (axisCfg q a).inputs 4 = l ∧ (vget q.axes.ax a).vioLow = false ∧ (vget (vget q.axes.ax a).inputs 1).chatter = false ∧
    (vget (vget q.axes.ax a).inputs 1).level ≠ l ∧ (vget q.axes.ax a).state = .moving ∧ decide (0 < (vget q.axes.ax a).vq) = true ∧
    (vget q.axes.ax a).stopping = none ∧ (axisCfg q a).jerk = 0)) ∧
    (∃ (a : Nat) (i : Nat) (t : Nat) (s : State), let q := tick t s; a < 4 ∧ i < 3 ∧ s.Inv ∧ (up q ∧ noStations q ∧
    bitOf (axisCfg q a).inputs i = true ∧ (vget (vget q.axes.ax a).inputs i).chatter = false ∧ (vget q.axes.ax a).state = .idle)) ∧
    (∃ (a : Nat) (i : Nat) (t : Nat) (s : State), let q := tick t s; a < 4 ∧ i < 3 ∧ s.Inv ∧ (noStations q ∧ bitOf (axisCfg q a).inputs i = true ∧
    (vget (vget q.axes.ax a).inputs i).chatter = true)) ∧
    (∃ (a : Nat) (t : Nat) (s : State), let q := tick t s; a < 4 ∧ s.Inv ∧ (noStations q ∧ (vget q.axes.ax a).state = .disabled)) ∧
    (∃ (a : Nat) (t : Nat) (s : State), let q := tick t s; a < 4 ∧ s.Inv ∧ (up q ∧ noStations q ∧ (vget q.axes.ax a).state ≠ .disabled ∧
    (vget q.axes.ax a).home = none)) ∧
    (∃ (a : Nat) (temp : Int) (t : Nat) (s : State), let q := tick t s; a < 4 ∧ s.Inv ∧ (noStations q ∧ decide (125 ≤ temp) = true ∧
    decide (temp ≤ 135) = true)) ∧
    (∃ (a : Nat) (temp : Int) (t : Nat) (s : State), let q := tick t s; a < 4 ∧ s.Inv ∧ (up q ∧ noStations q ∧ decide (135 < temp) = true ∧
    decide (temp ≤ 150) = true ∧ (vget q.axes.ax a).tempWarn = false)) ∧
    (∃ (a : Nat) (temp : Int) (t : Nat) (s : State), let q := tick t s; a < 4 ∧ s.Inv ∧ (noStations q ∧ decide (temp < 125) = true)) ∧
    (∃ (a : Nat) (temp : Int) (t : Nat) (s : State), let q := tick t s; a < 4 ∧ s.Inv ∧ (up q ∧ noStations q ∧ decide (150 < temp) = true ∧
    (vget q.axes.ax a).state ≠ .disabled ∧ (vget q.axes.ax a).home = none)) ∧
    (∃ (mv : Nat) (t : Nat) (s : State), let q := tick t s; 20000 ≤ mv ∧ mv ≤ 52000 ∧ s.Inv ∧ noStations (q)) ∧
    (∃ (mv : Nat) (t : Nat) (s : State), let q := tick t s; mv < 20000 ∧ s.Inv ∧ (up q ∧ noStations q ∧ ∀ a : Nat, a < 4 →
    ((vget q.axes.ax a).state ≠ .disabled ∧ (vget q.axes.ax a).home = none))) := ⟨
   ⟨2, 1000,
   (setAxis 2 (fun x => { x with state := .moving, vq := 2 ^ 40, target := 50000, standstill := none }) (setAxis 2 (fun x => { x with state := .idle, standstill := some .off, inputs := #v[{ level := false }, { level := false }, { level := false }] }) (let b : State := upState; { b with running := { b.running with axis := vset b.running.axis 2 { (vget b.running.axis 2) with enable := true, vmax := 100000, accel := 1000000, decel := 1000000, emerg := 2000000, softMin := -100000, softMax := 100000, inputs := 0x3F } } }))),
   by decide +kernel, inv_of (by decide +kernel), by decide +kernel⟩,
   ⟨2, 1000,
   (setAxis 2 (fun x => { x with state := .moving, xq := 7 * 2 ^ 32 - 5, target := 7, notify := true }) (let b : State := (setAxis 2 (fun x => { x with state := .idle, standstill := some .off, inputs := #v[{ level := false }, { level := false }, { level := false }] }) (let b : State := upState; { b with running := { b.running with axis := vset b.running.axis 2 { (vget b.running.axis 2) with enable := true, vmax := 100000, accel := 1000000, decel := 1000000, emerg := 2000000, softMin := -100000, softMax := 100000, inputs := 0x3F } } })); { b with claims := [⟨0x0D, 2, 0x0D01, 2⟩] })),
   by decide +kernel, inv_of (by decide +kernel), by decide +kernel⟩,
   ⟨2, ({ emerg := true, cause := .stop } : Stopping), 1000,
   (setAxis 2 (fun x => { x with state := .stopping, vq := 4096, stopping := some ({ emerg := true, cause := .stop } : Stopping) }) (setAxis 2 (fun x => { x with state := .idle, standstill := some .off, inputs := #v[{ level := false }, { level := false }, { level := false }] }) (let b : State := upState; { b with running := { b.running with axis := vset b.running.axis 2 { (vget b.running.axis 2) with enable := true, vmax := 100000, accel := 1000000, decel := 1000000, emerg := 2000000, softMin := -100000, softMax := 100000, inputs := 0x3F } } }))),
   by decide +kernel, by decide +kernel, by decide +kernel, inv_of (by decide +kernel), by decide +kernel⟩,
   ⟨2, 1000,
   (setAxis 2 (fun x => { x with lastUpdate := 100 }) (setAxis 2 (fun x => { x with state := .idle, standstill := some .off, inputs := #v[{ level := false }, { level := false }, { level := false }] }) (let b : State := upState; { b with running := { b.running with axis := vset b.running.axis 2 { (vget b.running.axis 2) with enable := true, vmax := 100000, accel := 1000000, decel := 1000000, emerg := 2000000, softMin := -100000, softMax := 100000, inputs := 0x3F } } }))),
   by decide +kernel, inv_of (by decide +kernel), by decide +kernel⟩,
   ⟨2, 20000,
   (setAxis 2 (fun x => { x with state := .moving, vq := 2 ^ 40, target := 50000, standstill := none }) (setAxis 2 (fun x => { x with state := .idle, standstill := some .off, inputs := #v[{ level := false }, { level := false }, { level := false }] }) (let b : State := upState; { b with running := { b.running with axis := vset b.running.axis 2 { (vget b.running.axis 2) with enable := true, vmax := 100000, accel := 1000000, decel := 1000000, emerg := 2000000, softMin := -100000, softMax := 100000, inputs := 0x3F } } }))),
   by decide +kernel, inv_of (by decide +kernel), by decide +kernel⟩,
   ⟨2, 1000, upState, by decide +kernel, inv_of (by decide +kernel), by decide +kernel⟩,
   ⟨2, 1, 1000, upState, by decide +kernel, by decide +kernel, inv_of (by decide +kernel), by decide +kernel⟩,
   ⟨2, 1, 1000,
   (setAxis 2 (fun x => { x with state := .idle, standstill := some .off, inputs := #v[{ level := false }, { level := false }, { level := false }] }) (let b : State := upState; { b with running := { b.running with axis := vset b.running.axis 2 { (vget b.running.axis 2) with enable := true, vmax := 100000, accel := 1000000, decel := 1000000, emerg := 2000000, softMin := -100000, softMax := 100000, inputs := 0x3F } } })),
   by decide +kernel, by decide +kernel, inv_of (by decide +kernel), by decide +kernel⟩,
   ⟨2, true, 1000,
   (setAxis 2 (fun x => { x with state := .moving, vq := 2 ^ 40, target := 50000, standstill := none }) (setAxis 2 (fun x => { x with state := .idle, standstill := some .off, inputs := #v[{ level := false }, { level := false }, { level := false }] }) (let b : State := upState; { b with running := { b.running with axis := vset b.running.axis 2 { (vget b.running.axis 2) with enable := true, vmax := 100000, accel := 1000000, decel := 1000000, emerg := 2000000, softMin := -100000, softMax := 100000, inputs := 0x3F } } }))),
   by decide +kernel, inv_of (by decide +kernel), by decide +kernel⟩,
   ⟨2, 1, 1000,
   (setAxis 2 (fun x => { x with state := .idle, standstill := some .off, inputs := #v[{ level := false }, { level := false }, { level := false }] }) (let b : State := upState; { b with running := { b.running with axis := vset b.running.axis 2 { (vget b.running.axis 2) with enable := true, vmax := 100000, accel := 1000000, decel := 1000000, emerg := 2000000, softMin := -100000, softMax := 100000, inputs := 0x3F } } })),
   by decide +kernel, by decide +kernel, inv_of (by decide +kernel), by decide +kernel⟩,
   ⟨2, 1, 1000,
   (setAxis 2 (fun x => { x with inputs := vset x.inputs 1 { chatter := true } }) (setAxis 2 (fun x => { x with state := .idle, standstill := some .off, inputs := #v[{ level := false }, { level := false }, { level := false }] }) (let b : State := upState; { b with running := { b.running with axis := vset b.running.axis 2 { (vget b.running.axis 2) with enable := true, vmax := 100000, accel := 1000000, decel := 1000000, emerg := 2000000, softMin := -100000, softMax := 100000, inputs := 0x3F } } }))),
   by decide +kernel, by decide +kernel, inv_of (by decide +kernel), by decide +kernel⟩,
   ⟨2, 1000, upState, by decide +kernel, inv_of (by decide +kernel), by decide +kernel⟩,
   ⟨2, 1000,
   (setAxis 2 (fun x => { x with state := .moving, vq := 2 ^ 40, target := 50000, standstill := none }) (setAxis 2 (fun x => { x with state := .idle, standstill := some .off, inputs := #v[{ level := false }, { level := false }, { level := false }] }) (let b : State := upState; { b with running := { b.running with axis := vset b.running.axis 2 { (vget b.running.axis 2) with enable := true, vmax := 100000, accel := 1000000, decel := 1000000, emerg := 2000000, softMin := -100000, softMax := 100000, inputs := 0x3F } } }))),
   by decide +kernel, inv_of (by decide +kernel), by decide +kernel⟩,
   ⟨2, 125, 1000, upState, by decide +kernel, inv_of (by decide +kernel), by decide +kernel⟩,
   ⟨2, 150, 1000, upState, by decide +kernel, inv_of (by decide +kernel), by decide +kernel⟩,
   ⟨2, 124, 1000, (setAxis 2 (fun x => { x with tempWarn := true }) upState), by decide +kernel, inv_of (by decide +kernel), by decide +kernel⟩,
   ⟨2, 151, 1000,
   (setAxis 2 (fun x => { x with state := .moving, vq := 2 ^ 40, target := 50000, standstill := none }) (setAxis 2 (fun x => { x with state := .idle, standstill := some .off, inputs := #v[{ level := false }, { level := false }, { level := false }] }) (let b : State := upState; { b with running := { b.running with axis := vset b.running.axis 2 { (vget b.running.axis 2) with enable := true, vmax := 100000, accel := 1000000, decel := 1000000, emerg := 2000000, softMin := -100000, softMax := 100000, inputs := 0x3F } } }))),
   by decide +kernel, inv_of (by decide +kernel), by decide +kernel⟩,
   ⟨52000, 1000, upState, by decide +kernel, by decide +kernel, inv_of (by decide +kernel), by decide +kernel⟩,
   ⟨19999, 1000, ((let b : State := upState; { b with axes := { b.axes with ax := b.axes.ax.map fun x => { x with state := .idle } } })),
   by decide +kernel, inv_of (by decide +kernel), by decide +kernel⟩⟩

theorem wit_AxisTimers :
    (∃ (a : Nat) (r : _) (t : Nat) (s : State), let q := tick t s; a < 4 ∧ s.Inv ∧ (noStations q ∧ (vget q.axes.ax a).restAt = some r ∧
    r + (standCfg q a).holdDelay * 1000000 ≤ q.now ∧ (vget q.axes.ax a).bridgesOff = false)) ∧
    (∃ (a : Nat) (r : _) (t : Nat) (s : State), let q := tick t s; a < 4 ∧ s.Inv ∧ (noStations q ∧ (vget q.axes.ax a).restAt = some r ∧
    q.now < r + (standCfg q a).holdDelay * 1000000)) ∧
    (∃ (a : Nat) (u : _) (t : Nat) (s : State), let q := tick t s; a < 4 ∧ s.Inv ∧ (noStations q ∧ (vget q.axes.ax a).irunUntil = some u ∧ u ≤ q.now)) ∧
    (∃ (a : Nat) (t : Nat) (s : State), let q := tick t s; a < 4 ∧ s.Inv ∧ (noStations q ∧ (vget q.axes.ax a).irunUntil = none)) ∧
    (∃ (a : Nat) (h : _) (b : Int) (t : Nat) (s : State), let q := tick t s; a < 4 ∧ s.Inv ∧ (noStations q ∧ (vget q.axes.ax a).stroke = some ⟨b,
    .holding h⟩ ∧ h ≤ q.now ∧ (axisCfg q a).jerk = 0)) ∧
    (∃ (a : Nat) (h : _) (b : Int) (t : Nat) (s : State), let q := tick t s; a < 4 ∧ s.Inv ∧ (noStations q ∧ (vget q.axes.ax a).stroke = some ⟨b,
    .holding h⟩ ∧ q.now < h)) ∧
    (∃ (a : Nat) (h : HomeRun) (t : Nat) (s : State), let q := tick t s; a < 4 ∧ h.reason = .none ∧ s.Inv ∧ (noStations q ∧
    (vget q.axes.ax a).home = some h ∧ h.deadline ≤ q.now)) ∧
    (∃ (a : Nat) (h : HomeRun) (t : Nat) (s : State), let q := tick t s; a < 4 ∧ s.Inv ∧ (noStations q ∧ (vget q.axes.ax a).home = some h ∧
    q.now < h.deadline)) ∧
    (∃ (a : Nat) (p : Stopping) (t : Nat) (s : State), let q := tick t s; a < 4 ∧ p.atRest = .safe ∧ s.Inv ∧ (noStations q ∧
    (vget q.axes.ax a).stopping = some p ∧ (safeRamp (axisCfg q a) (vget q.axes.ax a) q.now).2 = 0)) ∧
    (∃ (a : Nat) (t : Nat) (s : State), let q := tick t s; a < 4 ∧ s.Inv ∧ (noStations q ∧ (safeRamp (axisCfg q a) (vget q.axes.ax a) q.now).2 ≠ 0)) ∧
    (∃ (t : Nat) (s : State), let q := tick t s; s.Inv ∧ (noStations q ∧ ∀ a : Nat, a < 4 →
    ((vget q.axes.ax a).state = .idle ∨ (vget q.axes.ax a).state = .disabled))) ∧
    (∃ (s : State) (a : Nat), s.Inv ∧ noStations s ∧ a < 4 ∧ (vget s.axes.ax a).state = .moving ∧ (vget s.axes.ax a).vioLow = false ∧
    (vget s.axes.ax a).vq ≠ 0 ∧ (vget s.axes.ax a).stopping = none) := ⟨
   ⟨2, 1000, 1000, (setAxis 2 (fun x => { x with restAt := some 1000 }) upState), by decide +kernel, inv_of (by decide +kernel), by decide +kernel⟩,
   ⟨2, 1001, 1000, (setAxis 2 (fun x => { x with restAt := some 1001 }) upState), by decide +kernel, inv_of (by decide +kernel), by decide +kernel⟩,
   ⟨2, 1000, 1000, (setAxis 2 (fun x => { x with irunUntil := some 1000 }) upState), by decide +kernel, inv_of (by decide +kernel), by decide +kernel⟩,
   ⟨2, 1000, upState, by decide +kernel, inv_of (by decide +kernel), by decide +kernel⟩,
   ⟨2, 1000, (7 : Int), 1000, (setAxis 2 (fun x => { x with state := .stroking, stroke := some ⟨7, .holding 1000⟩ }) upState), by decide +kernel,
   inv_of (by decide +kernel), by decide +kernel⟩,
   ⟨2, 1001, (7 : Int), 1000, (setAxis 2 (fun x => { x with state := .stroking, stroke := some ⟨7, .holding 1001⟩ }) upState), by decide +kernel,
   inv_of (by decide +kernel), by decide +kernel⟩,
   ⟨2, ({ deadline := 1000 } : HomeRun), 1000,
   (setAxis 2 (fun x => { x with state := .homing, home := some ({ deadline := 1000 } : HomeRun) }) upState), by decide +kernel, by decide +kernel,
   inv_of (by decide +kernel), by decide +kernel⟩,
   ⟨2, ({ deadline := 1000 } : HomeRun), 999,
   (setAxis 2 (fun x => { x with state := .homing, home := some ({ deadline := 1000 } : HomeRun) }) upState), by decide +kernel,
   inv_of (by decide +kernel), by decide +kernel⟩,
   ⟨2, ({ emerg := true, cause := .safeStop, atRest := .safe } : Stopping), 1000000000,
   (setAxis 2 (fun x => { x with state := .stopping, vq := 2 ^ 40, stopping := some ({ emerg := true, cause := .safeStop, atRest := .safe } : Stopping) }) (let b : State := upState; { b with running := { b.running with axis := vset b.running.axis 2 { (vget b.running.axis 2) with enable := true, vmax := 100000, accel := 1000000, decel := 1000000, emerg := 2000000, softMin := -100000, softMax := 100000, inputs := 0x3F } } })),
   by decide +kernel, by decide +kernel, inv_of (by decide +kernel), by decide +kernel⟩,
   ⟨2, 10,
   (setAxis 2 (fun x => { x with state := .stopping, vq := 2 ^ 40, stopping := some ({ emerg := true, cause := .safeStop, atRest := .safe } : Stopping) }) (let b : State := upState; { b with running := { b.running with axis := vset b.running.axis 2 { (vget b.running.axis 2) with enable := true, vmax := 100000, accel := 1000000, decel := 1000000, emerg := 2000000, softMin := -100000, softMax := 100000, inputs := 0x3F } } })),
   by decide +kernel, inv_of (by decide +kernel), by decide +kernel⟩,
   ⟨1000, ((let b : State := upState; { b with axes := { b.axes with ax := b.axes.ax.map fun x => { x with state := .idle } } })),
   inv_of (by decide +kernel), by decide +kernel⟩,
   ⟨(setAxis 2 (fun x => { x with state := .moving, vq := 2 ^ 40, target := 50000, standstill := none }) (setAxis 2 (fun x => { x with state := .idle, standstill := some .off, inputs := #v[{ level := false }, { level := false }, { level := false }] }) (let b : State := upState; { b with running := { b.running with axis := vset b.running.axis 2 { (vget b.running.axis 2) with enable := true, vmax := 100000, accel := 1000000, decel := 1000000, emerg := 2000000, softMin := -100000, softMax := 100000, inputs := 0x3F } } }))),
   2, inv_of (by decide +kernel), by decide +kernel, by decide +kernel, by decide +kernel, by decide +kernel, by decide +kernel, by decide +kernel⟩⟩

theorem wit_HoldfastOperations :
    (∃ (path : HfPath) (t : Nat) (s : State), let q := tick t s; path ≠ HfPath.auto ∧ s.Inv ∧ hfReached q path = true) ∧
    (∃ (v : Nat) (s : State), v ≠ 0x48464B59 ∧ s.Inv) ∧
    (∃ (path : HfPath) (t : Nat) (s : State), let q := tick t s; s.Inv ∧ hfReached q path = false) ∧
    (∃ (path : HfPath) (t : Nat) (s : State), let q := tick t s; path ≠ HfPath.auto ∧ s.Inv ∧ (hfReached q path = true ∧ keyValid q path = false)) ∧
    (∃ (path : HfPath) (t : Nat) (s : State), let q := tick t s; path ≠ HfPath.auto ∧ s.Inv ∧ (hfReached q path = true ∧ keyValid q path = false)) ∧
    (∃ (path : HfPath) (t : Nat) (s : State), let q := tick t s; path ≠ HfPath.auto ∧ s.Inv ∧ (hfReached q path = true ∧ keyValid q path = false)) ∧
    (∃ (path : HfPath) (t : Nat) (s : State), let q := tick t s; s.Inv ∧ hfReached q path = false) ∧
    (∃ (path : HfPath) (t : Nat) (s : State), let q := tick t s; s.Inv ∧ (keyedPath path q ∧ up q ∧ noStations q ∧ axesOff q)) ∧
    (∃ (t : Nat) (s : State) (path : HfPath) (mask : Nat) (a : Nat), s.Inv ∧ keyedPath path (tick t s) ∧ up s ∧ noStations s ∧ a < 4 ∧ mask < 16 ∧
    (vget s.axes.ax a).state = .idle ∧ (vget s.axes.ax a).vq = 0 ∧ (vget s.axes.ax a).stopping = none ∧ (vget s.axes.ax a).home = none) ∧
    (∃ (path : HfPath) (t : Nat) (s : State), let q := tick t s; s.Inv ∧ (keyedPath path q ∧ q.hf.srForced = false ∧
    (vget q.bench.ctl 0).state = .ready ∧ (vget q.bench.ctl 1).state = .ready ∧ (vget q.bench.ctl 0).pending = [] ∧
    (vget q.bench.ctl 1).pending = [])) ∧
    (∃ (path : HfPath) (t : Nat) (s : State), let q := tick t s; s.Inv ∧ (keyedPath path q ∧ q.hf.srForced = true)) ∧
    (∃ (path : HfPath) (t : Nat) (s : State), let q := tick t s; s.Inv ∧ (keyedPath path q ∧ q.hf.srForced = true)) ∧
    (∃ (path : HfPath) (t : Nat) (s : State), let q := tick t s; s.Inv ∧ (keyedPath path q ∧ q.hf.srForced = false)) ∧
    (∃ (t : Nat) (s : State) (path : HfPath), s.Inv ∧ keyedPath path (tick t s) ∧ stillModule s ∧ s.hf.monitors = []) ∧
    (∃ (t : Nat) (s : State) (path : HfPath), s.Inv ∧ keyedPath path (tick t s) ∧ stillModule s ∧ s.hf.monitors = []) ∧
    (∃ (path : HfPath) (t : Nat) (s : State), let q := tick t s; s.Inv ∧ (keyedPath path q ∧ q.pair.role = .solo)) ∧
    (∃ (t : Nat) (s : State) (path : HfPath), s.Inv ∧ keyedPath path (tick t s) ∧ up s ∧ s.pair.role = .active ∧ s.pair.signalling = false ∧
    s.gauge.trigEnabled = false ∧ axesOff s ∧ noStations s ∧ s.pair.switchTicket = none) ∧
    (∃ (t : Nat) (s : State) (path : HfPath), s.Inv ∧ keyedPath path (tick t s) ∧ up s) ∧
    (∃ (u : _) (t : Nat) (s : State), let q := tick t s; s.Inv ∧ (resetBusy q = true ∧ q.hf.monitorHold = false ∧ q.boot.holdUntil = some u ∧
    u ≤ q.now ∧ q.pair.role = .solo ∧ q.boot.recovery = false)) ∧
    (∃ (u : _) (t : Nat) (s : State), let q := tick t s; s.Inv ∧ (resetBusy q = true ∧ q.hf.monitorHold = false ∧ q.boot.holdUntil = some u ∧
    u ≤ q.now ∧ q.pair.role = .solo ∧ q.boot.recovery = true)) ∧
    (∃ (u : _) (t : Nat) (s : State), let q := tick t s; s.Inv ∧ (q.boot.holdUntil = some u ∧ q.now < u)) := ⟨
   ⟨(.smbus : HfPath), 1000, (let b : State := upState; { b with boot := { b.boot with vauxUp := true } }), by decide +kernel,
   inv_of (by decide +kernel), by decide +kernel⟩,
   ⟨5, upState, by decide +kernel, inv_of (by decide +kernel)⟩,
   ⟨(.smbus : HfPath), 1000, upState, inv_of (by decide +kernel), by decide +kernel⟩,
   ⟨(.smbus : HfPath), 1000501,
   (let b : State := (let b : State := upState; { b with hf := { b.hf with keys := [(.smbus, 500)] } }); { b with boot := { b.boot with vauxUp := true, vmainUp := true } }),
   by decide +kernel, inv_of (by decide +kernel), by decide +kernel⟩,
   ⟨(.smbus : HfPath), 1000501,
   (let b : State := (let b : State := upState; { b with hf := { b.hf with keys := [(.smbus, 500)] } }); { b with boot := { b.boot with vauxUp := true, vmainUp := true } }),
   by decide +kernel, inv_of (by decide +kernel), by decide +kernel⟩,
   ⟨(.smbus : HfPath), 1000501,
   (let b : State := (let b : State := upState; { b with hf := { b.hf with keys := [(.smbus, 500)] } }); { b with boot := { b.boot with vauxUp := true, vmainUp := true } }),
   by decide +kernel, inv_of (by decide +kernel), by decide +kernel⟩,
   ⟨(.smbus : HfPath), 1000, upState, inv_of (by decide +kernel), by decide +kernel⟩,
   ⟨(.smbus : HfPath), 1000,
   (let b : State := (let b : State := upState; { b with hf := { b.hf with keys := [(.smbus, 500)] } }); { b with boot := { b.boot with vauxUp := true, vmainUp := true } }),
   inv_of (by decide +kernel), by decide +kernel⟩,
   ⟨1000,
   (let b : State := (let b : State := (setAxis 2 (fun x => { x with state := .idle }) upState); { b with hf := { b.hf with keys := [(.smbus, 500)] } }); { b with boot := { b.boot with vauxUp := true, vmainUp := true } }),
   (.smbus : HfPath), 5, 2, inv_of (by decide +kernel), by decide +kernel, by decide +kernel, by decide +kernel, by decide +kernel,
   by decide +kernel, by decide +kernel, by decide +kernel, by decide +kernel, by decide +kernel⟩,
   ⟨(.smbus : HfPath), 1000,
   (let b : State := (let b : State := upState; { b with hf := { b.hf with keys := [(.smbus, 500)] } }); { b with boot := { b.boot with vauxUp := true, vmainUp := true } }),
   inv_of (by decide +kernel), by decide +kernel⟩,
   ⟨(.smbus : HfPath), 1000,
   (let b : State := (let b : State := upState; { b with hf := { b.hf with keys := [(.smbus, 500)], srForced := true } }); { b with boot := { b.boot with vauxUp := true, vmainUp := true } }),
   inv_of (by decide +kernel), by decide +kernel⟩,
   ⟨(.smbus : HfPath), 1000,
   (let b : State := (let b : State := upState; { b with hf := { b.hf with keys := [(.smbus, 500)], srForced := true } }); { b with boot := { b.boot with vauxUp := true, vmainUp := true } }),
   inv_of (by decide +kernel), by decide +kernel⟩,
   ⟨(.smbus : HfPath), 1000,
   (let b : State := (let b : State := upState; { b with hf := { b.hf with keys := [(.smbus, 500)] } }); { b with boot := { b.boot with vauxUp := true, vmainUp := true } }),
   inv_of (by decide +kernel), by decide +kernel⟩,
   ⟨1000,
   (let b : State := (let b : State := upState; { b with hf := { b.hf with keys := [(.smbus, 500)] } }); { b with boot := { b.boot with vauxUp := true, vmainUp := true } }),
   (.smbus : HfPath), inv_of (by decide +kernel), by decide +kernel, by decide +kernel, by decide +kernel⟩,
   ⟨1000,
   (let b : State := (let b : State := upState; { b with hf := { b.hf with keys := [(.smbus, 500)] } }); { b with boot := { b.boot with vauxUp := true, vmainUp := true } }),
   (.smbus : HfPath), inv_of (by decide +kernel), by decide +kernel, by decide +kernel, by decide +kernel⟩,
   ⟨(.smbus : HfPath), 1000,
   (let b : State := (let b : State := upState; { b with hf := { b.hf with keys := [(.smbus, 500)] } }); { b with boot := { b.boot with vauxUp := true, vmainUp := true } }),
   inv_of (by decide +kernel), by decide +kernel⟩,
   ⟨1000,
   (let b : State := (let b : State := (let b : State := upState; { b with pair := { b.pair with role := .active } }); { b with hf := { b.hf with keys := [(.smbus, 500)] } }); { b with boot := { b.boot with vauxUp := true, vmainUp := true } }),
   (.smbus : HfPath), inv_of (by decide +kernel), by decide +kernel, by decide +kernel, by decide +kernel, by decide +kernel, by decide +kernel,
   by decide +kernel, by decide +kernel, by decide +kernel⟩,
   ⟨1000,
   (let b : State := (let b : State := upState; { b with hf := { b.hf with keys := [(.smbus, 500)], latched := 5, latchedEvents := [(2, 0, 0, 0)] } }); { b with boot := { b.boot with vauxUp := true, vmainUp := true } }),
   (.smbus : HfPath), inv_of (by decide +kernel), by decide +kernel, by decide +kernel⟩,
   ⟨1000, 1000,
   (let b : State := (let b : State := upState; { b with boot := { b.boot with holdUntil := some 1000, warm := true } }); { b with hf := { b.hf with fabric := .resetting, busy := some (.warmReset, .smbus) } }),
   inv_of (by decide +kernel), by decide +kernel⟩,
   ⟨1000, 1000,
   (let b : State := (let b : State := (let b : State := upState; { b with boot := { b.boot with holdUntil := some 1000, warm := true } }); { b with hf := { b.hf with fabric := .resetting, busy := some (.warmReset, .smbus) } }); { b with boot := { b.boot with recovery := true } }),
   inv_of (by decide +kernel), by decide +kernel⟩,
   ⟨1000, 999,
   (let b : State := (let b : State := upState; { b with boot := { b.boot with holdUntil := some 1000, warm := true } }); { b with hf := { b.hf with fabric := .resetting, busy := some (.warmReset, .smbus) } }),
   inv_of (by decide +kernel), by decide +kernel⟩⟩

theorem wit_WedgeMonitorsAndSmbus :
    (∃ (t : Nat) (s : State), let q := tick t s; s.Inv ∧ q.hf.fabric ≠ .running) ∧
    (∃ (s : State) (cause : Nat), s.Inv ∧ up s ∧ 1 ≤ cause ∧ cause ≤ 2 ∧ axesOff s ∧ s.pair.role = .solo ∧ s.glue = none ∧ (cfgNow s).time.source = 0) ∧
    (∃ (s : State) (src : Nat) (a0 : Nat) (a1 : Nat) (st : Nat), s.Inv ∧ s.hf.fabric = .wedged ∧ s.hf.wedgeSeen = true ∧ s.spans = [] ∧
    s.hf.latchedEvents = [(src, a0, a1, st)] ∧ src < 1024 ∧ ((∀ n : Nat, n < 4 → (vget s.host.rings n).posts = []))) ∧
    (∃ (t : Nat) (s : State), let q := tick t s; s.Inv ∧ q.hf.fabric ≠ .wedged) ∧
    (∃ (v : Int) (s : State), 10400 ≤ v ∧ v ≤ 13800 ∧ s.Inv) ∧
    (∃ (v : Int) (s : State), v ≤ 125 ∧ s.Inv) ∧
    (∃ (v : Int) (t : Nat) (s : State), let q := tick t s; s.Inv ∧ (v - (q.pace.vfabMv : Int)).natAbs ≤ 50) ∧
    (∃ (s : State) (v : Int), s.Inv ∧ 125 < v ∧ s.boot.vmainUp = true ∧ s.hf.monitors = [] ∧ s.hf.busy = none ∧ stillModule s) ∧
    (∃ (s : State) (v : Int), s.Inv ∧ ((v < 10400 ∨ 13800 < v)) ∧ s.boot.vmainUp = true ∧ s.hf.monitors = [] ∧ s.hf.busy = none ∧ stillModule s) ∧
    (∃ (v : Int) (s : State), 100 ≤ v ∧ s.Inv) ∧
    (∃ (v : Int) (s : State), (v < 10800 ∨ 13200 < v) ∧ s.Inv) ∧
    (∃ (s : State) (v : Int), s.Inv ∧ v < 100 ∧ s.boot.vmainUp = true ∧ s.hf.monitors = [.junction] ∧ s.hf.busy = none ∧ stillModule s) ∧
    (∃ (temp : Int) (t : Nat) (s : State), let q := tick t s; 110 < temp ∧ s.Inv ∧ (up q ∧ q.sense.junctionHot = false)) ∧
    (∃ (temp : Int) (t : Nat) (s : State), let q := tick t s; temp < 105 ∧ s.Inv ∧ (up q ∧ q.sense.junctionHot = true)) ∧
    (∃ (temp : Int) (s : State), 105 ≤ temp ∧ temp ≤ 110 ∧ s.Inv) ∧
    (∃ (v : Nat) (t : Nat) (s : State), let q := tick t s; v < 2 ^ 32 ∧ s.Inv ∧ q.boot.vauxUp = true) ∧
    (∃ (t : Nat) (s : State), let q := tick t s; s.Inv ∧ q.boot.vauxUp = true) ∧
    (∃ (off : Nat) (t : Nat) (s : State), let q := tick t s; off % 4 = 0 ∧ off < 65536 ∧ s.Inv ∧ q.boot.vauxUp = true) ∧
    (∃ (t : Nat) (s : State), let q := tick t s; s.Inv ∧ (q.boot.vauxUp = true ∧ up q ∧ firstIn 0x3FA (currentStrip q) q)) ∧
    (∃ (off : Nat) (t : Nat) (s : State), let q := tick t s; off % 4 ≠ 0 ∧ s.Inv ∧ (q.boot.vauxUp = true ∧ up q ∧ firstIn 0x3FA (currentStrip q) q)) ∧
    (∃ (o : _) (t : Nat) (s : State), let q := tick t s; o ≠ 0x0200 ∧ o ≠ 0x0208 ∧ o ≠ 0x0014 ∧ s.Inv ∧ (q.boot.vauxUp = true ∧ q.hf.smbOffset = o ∧
    q.hf.highSmb = none)) ∧
    (∃ (t : Nat) (s : State), let q := tick t s; s.Inv ∧ (q.boot.vauxUp = true ∧ q.hf.smbOffset = 0x0200 ∧ q.hf.highSmb = none)) ∧
    (∃ (v : _) (t : Nat) (s : State), let q := tick t s; s.Inv ∧ (q.boot.vauxUp = true ∧ q.hf.smbOffset = 0x0204 ∧ q.hf.highSmb = some (0x0204, v))) ∧
    (∃ (t : Nat) (s : State), let q := tick t s; s.Inv ∧ q.boot.vauxUp = false) ∧
    (∃ (t : Nat) (s : State), let q := tick t s; s.Inv ∧ (q.boot.vauxUp = true ∧ q.hf.alert = true)) ∧
    (∃ (t : Nat) (s : State), let q := tick t s; s.Inv ∧ (q.boot.vauxUp = false ∨ q.hf.alert = false)) := ⟨
   ⟨1000, (let b : State := upState; { b with hf := { b.hf with fabric := .wedged } }), inv_of (by decide +kernel), by decide +kernel⟩,
   ⟨upState, 2, inv_of (by decide +kernel), by decide +kernel, by decide +kernel, by decide +kernel, by decide +kernel, by decide +kernel,
   by decide +kernel, by decide +kernel⟩,
   ⟨(let b : State := (let b : State := upState; { b with heldOut := [.unsupported] }); { b with hf := { b.hf with fabric := .wedged, wedgeSeen := true, latchedEvents := [(0x3F0, 1, 2, 3)] } }),
   0x3F0, 1, 2, 3, inv_of (by decide +kernel), by decide +kernel, by decide +kernel, by decide +kernel, by decide +kernel, by decide +kernel,
   by decide +kernel⟩,
   ⟨1000, upState, inv_of (by decide +kernel), by decide +kernel⟩,
   ⟨(13800 : Int), upState, by decide +kernel, by decide +kernel, inv_of (by decide +kernel)⟩,
   ⟨(125 : Int), upState, by decide +kernel, inv_of (by decide +kernel)⟩,
   ⟨(870 : Int), 1000, upState, inv_of (by decide +kernel), by decide +kernel⟩,
   ⟨(let b : State := upState; { b with boot := { b.boot with vmainUp := true } }), (126 : Int), inv_of (by decide +kernel), by decide +kernel,
   by decide +kernel, by decide +kernel, by decide +kernel, by decide +kernel⟩,
   ⟨(let b : State := upState; { b with boot := { b.boot with vmainUp := true } }), (10399 : Int), inv_of (by decide +kernel), by decide +kernel,
   by decide +kernel, by decide +kernel, by decide +kernel, by decide +kernel⟩,
   ⟨(100 : Int), upState, by decide +kernel, inv_of (by decide +kernel)⟩,
   ⟨(10799 : Int), upState, by decide +kernel, inv_of (by decide +kernel)⟩,
   ⟨(let b : State := (let b : State := upState; { b with hf := { b.hf with monitors := [.junction], monitorHold := true, fabric := .resetting } }); { b with boot := { b.boot with vmainUp := true } }),
   (99 : Int), inv_of (by decide +kernel), by decide +kernel, by decide +kernel, by decide +kernel, by decide +kernel, by decide +kernel⟩,
   ⟨(111 : Int), 1000, upState, by decide +kernel, inv_of (by decide +kernel), by decide +kernel⟩,
   ⟨(104 : Int), 1000, (let b : State := upState; { b with sense := { b.sense with junctionHot := true } }), by decide +kernel,
   inv_of (by decide +kernel), by decide +kernel⟩,
   ⟨(105 : Int), upState, by decide +kernel, by decide +kernel, inv_of (by decide +kernel)⟩,
   ⟨7, 1000, (let b : State := upState; { b with boot := { b.boot with vauxUp := true } }), by decide +kernel, inv_of (by decide +kernel),
   by decide +kernel⟩,
   ⟨1000, (let b : State := upState; { b with boot := { b.boot with vauxUp := true } }), inv_of (by decide +kernel), by decide +kernel⟩,
   ⟨65532, 1000, (let b : State := upState; { b with boot := { b.boot with vauxUp := true } }), by decide +kernel, by decide +kernel,
   inv_of (by decide +kernel), by decide +kernel⟩,
   ⟨1000, (let b : State := upState; { b with boot := { b.boot with vauxUp := true } }), inv_of (by decide +kernel), by decide +kernel⟩,
   ⟨6, 1000, (let b : State := upState; { b with boot := { b.boot with vauxUp := true } }), by decide +kernel, inv_of (by decide +kernel),
   by decide +kernel⟩,
   ⟨65532, 1000,
   (let b : State := (let b : State := upState; { b with boot := { b.boot with vauxUp := true } }); { b with hf := { b.hf with smbOffset := 65532 } }),
   by decide +kernel, by decide +kernel, by decide +kernel, inv_of (by decide +kernel), by decide +kernel⟩,
   ⟨1000,
   (let b : State := (let b : State := (let b : State := upState; { b with boot := { b.boot with vauxUp := true } }); { b with gauge := { b.gauge with webPos := -5 } }); { b with hf := { b.hf with smbOffset := 0x200 } }),
   inv_of (by decide +kernel), by decide +kernel⟩,
   ⟨77, 1000,
   (let b : State := (let b : State := upState; { b with boot := { b.boot with vauxUp := true } }); { b with hf := { b.hf with smbOffset := 0x204, highSmb := some (0x204, 77) } }),
   inv_of (by decide +kernel), by decide +kernel⟩,
   ⟨1000, upState, inv_of (by decide +kernel), by decide +kernel⟩,
   ⟨1000,
   (let b : State := (let b : State := upState; { b with boot := { b.boot with vauxUp := true } }); { b with hf := { b.hf with alert := true, addr := 2 } }),
   inv_of (by decide +kernel), by decide +kernel⟩,
   ⟨1000, upState, inv_of (by decide +kernel), by decide +kernel⟩⟩

theorem wit_BootSuppliesAndCages :
    (∃ (t : Nat) (s : State), let q := tick t s; s.Inv ∧ (q.boot.vauxUp = true ∧ q.boot.vauxLost = false)) ∧
    (∃ (addr : Nat) (t : Nat) (s : State), let q := tick t s; addr < 4 ∧ s.Inv ∧ (q.boot.vauxLost = true ∧ q.boot.vmainUp = false)) ∧
    (∃ (t : Nat) (s : State), let q := tick t s; s.Inv ∧ (q.boot.vmainUp = true ∧ q.boot.vmainLost = false)) ∧
    (∃ (t : Nat) (s : State), let q := tick t s; s.Inv ∧ q.boot.vauxUp = false) ∧
    (∃ (t : Nat) (s : State), let q := tick t s; s.Inv ∧ (q.boot.vauxUp = true ∧ q.boot.vmainUp = false ∧ q.hf.monitors = [] ∧ q.pair.role = .solo)) ∧
    (∃ (t : Nat) (s : State), let q := tick t s; s.Inv ∧ q.boot.vmainUp = false) ∧
    (∃ (s : State), s.Inv ∧ s.boot.vmainUp = true ∧ s.boot.vauxUp = true ∧ s.gauge.trigEnabled = false ∧ axesOff s ∧ s.pair.role = .solo) ∧
    (∃ (t : Nat) (s : State), let q := tick t s; s.Inv ∧ (q.boot.verifying = false ∨ q.hf.monitorHold = true)) ∧
    (∃ (i : ImageInfo) (t : Nat) (s : State), let q := tick t s; i.signed = true ∧ i.digest = true ∧ s.Inv ∧ (q.boot.verifying = true ∧
    q.hf.monitorHold = false ∧ (imageOf q.boot q.boot.image).valid = true ∧ imageFault q.boot (imageOf q.boot q.boot.image) = 0)) ∧
    (∃ (s : State) (i : ImageInfo) (n : Nat) (rest : List Nat), s.Inv ∧ s.hf.fabric = .booting ∧ s.boot.verifying = true ∧ s.hf.monitorHold = false ∧
    i.signed = false ∧ s.boot.tryNext = n :: rest) ∧
    (∃ (s : State) (i : ImageInfo), s.Inv ∧ s.hf.fabric = .booting ∧ s.boot.verifying = true ∧ s.hf.monitorHold = false ∧ i.signed = false ∧
    s.boot.tryNext = []) ∧
    (∃ (t : Nat) (s : State), let q := tick t s; s.Inv ∧ q.boot.stage ≠ 4) ∧
    (∃ (t : Nat) (s : State), let q := tick t s; s.Inv ∧ (q.boot.stage = 4 ∧ q.hf.monitorHold = false)) ∧
    (∃ (t : Nat) (s : State), let q := tick t s; s.Inv ∧ q.boot.stage ≠ 5) ∧
    (∃ (a : TrainResult) (b : TrainResult) (t : Nat) (s : State), let q := tick t s; trainingFails a = false ∧ trainingFails b = false ∧ s.Inv ∧
    (q.boot.stage = 5 ∧ q.hf.monitorHold = false ∧ q.boot.warm = false ∧ q.boot.cause = 0 ∧ (vget q.bench.ctl 0).state = .training ∧
    (vget q.bench.ctl 1).state = .training ∧ q.hf.wedgeSeen = false ∧ q.hf.latchedEvents = [] ∧ q.heldOut = [] ∧ ∀ n : Nat, n < 4 →
    (vget q.host.rings n).posts = [])) ∧
    (∃ (s : State) (a : TrainResult), s.Inv ∧ s.hf.fabric = .booting ∧ trainingFails a = true ∧ s.boot.stage = 5 ∧ s.hf.monitorHold = false ∧
    s.boot.warm = false ∧ s.boot.cause = 0 ∧ (vget s.bench.ctl 0).state = .training ∧ (vget s.bench.ctl 1).state = .training ∧
    s.hf.latchedEvents = [] ∧ s.hf.latched = 0 ∧ ((∀ n : Nat, n < 4 → (vget s.host.rings n).posts = []))) ∧
    (∃ (t : Nat) (s : State), let q := tick t s; s.Inv ∧ q.boot.stage ≠ 7) ∧
    (∃ (t : Nat) (s : State), let q := tick t s; s.Inv ∧ (up q ∧ q.boot.stage = 7 ∧ (∀ p : Nat, p < 3 → portWaits q p = false) ∧
    ringHasGateway q = false)) ∧
    (∃ (t : Nat) (s : State), let q := tick t s; s.Inv ∧ (up q ∧ q.boot.stage = 7 ∧ (∀ p : Nat, p < 3 → portWaits q p = false) ∧
    ringHasGateway q = true)) ∧
    (∃ (c : Nat) (k : Nat) (s : State), c < 3 ∧ 1 ≤ k ∧ k ≤ 4 ∧ s.Inv) ∧
    (∃ (c : Nat) (k : Nat) (t : Nat) (s : State), let q := tick t s; c < 3 ∧ 4 < k ∧ s.Inv ∧ (vget q.ring.ports c).state = .down) ∧
    (∃ (c : Nat) (s : State), 5 ≤ c ∧ s.Inv) := ⟨
   ⟨1000, (let b : State := State.reset; { b with boot := { b.boot with vauxUp := true, vauxLost := false, powerOnAt := 5 } }),
   inv_of (by decide +kernel), by decide +kernel⟩,
   ⟨2, 1000, State.reset, by decide +kernel, inv_of (by decide +kernel), by decide +kernel⟩,
   ⟨1000, (let b : State := upState; { b with boot := { b.boot with vmainUp := true } }), inv_of (by decide +kernel), by decide +kernel⟩,
   ⟨1000, State.reset, inv_of (by decide +kernel), by decide +kernel⟩,
   ⟨1000,
   (let b : State := (let b : State := State.reset; { b with boot := { b.boot with vauxUp := true, vauxLost := false, powerOnAt := 5 } }); { b with boot := { b.boot with vmainLost := true } }),
   inv_of (by decide +kernel), by decide +kernel⟩,
   ⟨1000, State.reset, inv_of (by decide +kernel), by decide +kernel⟩,
   ⟨(let b : State := (written [(100,[1])] upState); { b with boot := { b.boot with vauxUp := true, vmainUp := true } }), inv_of (by decide +kernel),
   by decide +kernel, by decide +kernel, by decide +kernel, by decide +kernel, by decide +kernel⟩,
   ⟨1000, State.reset, inv_of (by decide +kernel), by decide +kernel⟩,
   ⟨({ signed := true, digest := true } : ImageInfo), 1000,
   (let b : State := (let b : State := (let b : State := State.reset; { b with boot := { b.boot with vauxUp := true, vauxLost := false, powerOnAt := 5 } }); { b with boot := { b.boot with vmainUp := true, verifying := true, stage := 2, image := 1, tryNext := [2, 0], slotA := { valid := true } } }); { b with boot := { b.boot with slotA := { valid := true, signed := true, digest := true } } }),
   by decide +kernel, by decide +kernel, inv_of (by decide +kernel), by decide +kernel⟩,
   ⟨(let b : State := (let b : State := State.reset; { b with boot := { b.boot with vauxUp := true, vauxLost := false, powerOnAt := 5 } }); { b with boot := { b.boot with vmainUp := true, verifying := true, stage := 2, image := 1, tryNext := [2, 0], slotA := { valid := true } } }),
   ({ digest := true } : ImageInfo), 2, ([0] : List Nat), inv_of (by decide +kernel), by decide +kernel, by decide +kernel, by decide +kernel,
   by decide +kernel, by decide +kernel⟩,
   ⟨(let b : State := (let b : State := (let b : State := State.reset; { b with boot := { b.boot with vauxUp := true, vauxLost := false, powerOnAt := 5 } }); { b with boot := { b.boot with vmainUp := true, verifying := true, stage := 2, image := 1, tryNext := [2, 0], slotA := { valid := true } } }); { b with boot := { b.boot with tryNext := [] } }),
   ({ digest := true } : ImageInfo), inv_of (by decide +kernel), by decide +kernel, by decide +kernel, by decide +kernel, by decide +kernel,
   by decide +kernel⟩,
   ⟨1000, upState, inv_of (by decide +kernel), by decide +kernel⟩,
   ⟨1000, (let b : State := State.reset; { b with boot := { b.boot with stage := 4 } }), inv_of (by decide +kernel), by decide +kernel⟩,
   ⟨1000, upState, inv_of (by decide +kernel), by decide +kernel⟩,
   ⟨({} : TrainResult), ({} : TrainResult), 5000000,
   (setCtl 0 (fun x => { x with state := .training }) (setCtl 1 (fun x => { x with state := .training }) (let b : State := State.reset; { b with boot := { b.boot with stage := 5 } }))),
   by decide +kernel, by decide +kernel, inv_of (by decide +kernel), by decide +kernel⟩,
   ⟨(setCtl 0 (fun x => { x with state := .training }) (setCtl 1 (fun x => { x with state := .training }) (let b : State := State.reset; { b with boot := { b.boot with stage := 5 } }))),
   ({ failedTwice := [3] } : TrainResult), inv_of (by decide +kernel), by decide +kernel, by decide +kernel, by decide +kernel, by decide +kernel,
   by decide +kernel, by decide +kernel, by decide +kernel, by decide +kernel, by decide +kernel, by decide +kernel, by decide +kernel⟩,
   ⟨1000, upState, inv_of (by decide +kernel), by decide +kernel⟩,
   ⟨1000,
   (let b : State := (let b : State := upState; { b with ring := { b.ring with ports := .replicate 3 { state := .up } } }); { b with boot := { b.boot with stage := 7, slotA := { security := 4 } } }),
   inv_of (by decide +kernel), by decide +kernel⟩,
   ⟨1000,
   (let b : State := (let b : State := (let b : State := upState; { b with ring := { b.ring with ports := .replicate 3 { state := .up } } }); { b with ring := { b.ring with gateway := true } }); { b with boot := { b.boot with stage := 7 } }),
   inv_of (by decide +kernel), by decide +kernel⟩,
   ⟨1, 3, upState, by decide +kernel, by decide +kernel, by decide +kernel, inv_of (by decide +kernel)⟩,
   ⟨1, 5, 1000, upState, by decide +kernel, by decide +kernel, inv_of (by decide +kernel), by decide +kernel⟩,
   ⟨5, upState, by decide +kernel, inv_of (by decide +kernel)⟩⟩

theorem wit_PaceSelftestsAndMarks :
    (∃ (f : Nat) (t : Nat) (s : State), let q := tick t s; f < 65536 ∧ s.Inv ∧ (up q ∧
    (q.gauge.trigEnabled = false ∨ q.pace.required * 104 / 100 ≤ (f : Rat)))) ∧
    (∃ (f : Nat) (t : Nat) (s : State), let q := tick t s; f < 65536 ∧ s.Inv ∧ (up q ∧ q.gauge.trigEnabled = true ∧
    (f : Rat) < q.pace.required * 104 / 100 ∧ q.pace.vfabMv < 950)) ∧
    (∃ (f : Nat) (t : Nat) (s : State), let q := tick t s; f < 65536 ∧ s.Inv ∧ (up q ∧ q.gauge.trigEnabled = true ∧
    (f : Rat) < q.pace.required * 104 / 100 ∧ 950 ≤ q.pace.vfabMv)) ∧
    (∃ (w : _) (run : SelftestRun) (t : Nat) (s : State) (c : CmdRec), let q := tick t s; run.ticket = w ∧ s.Inv ∧ (up q ∧
    q.faults.selftest = some run) ∧ InProgress (w) c s) ∧
    (∃ (w : _) (run : SelftestRun) (t : Nat) (s : State) (c : CmdRec), let q := tick t s; run.ticket = w ∧ run.tests = 1 ∧ s.Inv ∧ (up q ∧
    q.faults.selftest = some run ∧ firstIn 0x004 (currentStrip q) q) ∧ InProgress (w) c s) ∧
    (∃ (t : Nat) (s : State), let q := tick t s; s.Inv ∧ q.faults.selftest = none) ∧
    (∃ (c : HostCmd) (s : State), Ready specInjectFault c s ∧ (badInject c.params = none ∧
    (u8 c.params 0 = 6 ∨ u8 c.params 1 ≠ 2 ∨ s.gauge.trigEnabled = false))) ∧
    (∃ (c : HostCmd) (s : State), Ready specInjectFault c s ∧ (badInject c.params = none ∧ u8 c.params 0 ≠ 6 ∧ u8 c.params 1 = 2 ∧
    s.gauge.trigEnabled = true)) ∧
    (∃ (c : HostCmd) (s : State), Ready specInjectFault c s ∧ (u8 c.params 0 = 0 ∨ 6 < u8 c.params 0)) ∧
    (∃ (k : Nat) (m : _) (rest : List Mark) (t : Nat) (s : State), let q := tick t s; k < 4 ∧ m.state = .settling ∧ s.Inv ∧ (up q ∧
    (vget q.scribe.stations k).pending = m :: rest ∧ (vget q.scribe.stations k).due ≤ q.now ∧ (∀ p ∈ rest, p.ticket ≠ m.ticket) ∧
    (vget (cfgNow q).cmp (stationCfg q k).compare).enable = true ∧
    (vget q.gauge.cmp (stationCfg q k).compare).active.length + (vget q.gauge.cmp (stationCfg q k).compare).inserting.length < cmpCap)) ∧
    (∃ (k : Nat) (m : _) (rest : List Mark) (t : Nat) (s : State), let q := tick t s; k < 4 ∧ s.Inv ∧
    ((vget q.scribe.stations k).pending = m :: rest ∧ (m.state ≠ .settling ∨ q.now < (vget q.scribe.stations k).due))) ∧
    (∃ (k : Nat) (m : _) (a : _) (rest : List Mark) (t : Nat) (s : State), let q := tick t s; k < 4 ∧ a < 4 ∧ m.state = .waiting ∧ s.Inv ∧ (up q ∧
    (vget q.scribe.stations k).dwelling = true ∧ (vget q.scribe.stations k).due ≤ q.now ∧ (vget q.scribe.stations k).pending = m :: rest ∧
    (∀ p ∈ rest, p.ticket ≠ m.ticket) ∧ (stationCfg q k).posAxis = a ∧ (vget q.axes.ax a).state = .idle ∧ (vget q.axes.ax a).vq = 0 ∧
    (vget q.axes.ax a).standstill = some .hold ∧ (axisCfg q a).jerk = 0 ∧ (vget q.axes.ax a).softBrake = false ∧
    towardLimit (axisCfg q a) (vget q.axes.ax a) (m.tgt - axisPos (vget q.axes.ax a)) = false)) ∧
    (∃ (k : Nat) (t : Nat) (s : State), let q := tick t s; k < 4 ∧ s.Inv ∧
    ((vget q.scribe.stations k).dwelling = false ∨ q.now < (vget q.scribe.stations k).due)) := ⟨
   ⟨(300 : Nat), 1000, upState, by decide +kernel, inv_of (by decide +kernel), by decide +kernel⟩,
   ⟨(311 : Nat), 1000, (let b : State := upState; { b with pace := { b.pace with required := 300 }, gauge := { b.gauge with trigEnabled := true } }),
   by decide +kernel, inv_of (by decide +kernel), by decide +kernel⟩,
   ⟨(311 : Nat), 1000,
   (let b : State := (let b : State := upState; { b with pace := { b.pace with required := 300 }, gauge := { b.gauge with trigEnabled := true } }); { b with pace := { b.pace with vfabMv := 950 } }),
   by decide +kernel, inv_of (by decide +kernel), by decide +kernel⟩,
   ⟨0, ({ ticket := 0, tests := 1 } : SelftestRun), 1000000000,
   (let b : State := (let b : State := upState; { b with cmds := [{ ticket := 0, tag := 3, opcode := 0x1000, accepted := true }], ledger := { b.ledger with issued := [0], issuedCount := 1 } }); { b with faults := { b.faults with selftest := some { ticket := 0, tests := 1 } } }),
   ((cmdOf ((let b : State := (let b : State := upState; { b with cmds := [{ ticket := 0, tag := 3, opcode := 0x1000, accepted := true }], ledger := { b.ledger with issued := [0], issuedCount := 1 } }); { b with faults := { b.faults with selftest := some { ticket := 0, tests := 1 } } })) ((0))).getD default),
   by decide +kernel, inv_of (by decide +kernel), by decide +kernel, progress_of (by decide +kernel)⟩,
   ⟨0, ({ ticket := 0, tests := 1 } : SelftestRun), 1000000000,
   (let b : State := (let b : State := upState; { b with cmds := [{ ticket := 0, tag := 3, opcode := 0x1000, accepted := true }], ledger := { b.ledger with issued := [0], issuedCount := 1 } }); { b with faults := { b.faults with selftest := some { ticket := 0, tests := 1 } } }),
   ((cmdOf ((let b : State := (let b : State := upState; { b with cmds := [{ ticket := 0, tag := 3, opcode := 0x1000, accepted := true }], ledger := { b.ledger with issued := [0], issuedCount := 1 } }); { b with faults := { b.faults with selftest := some { ticket := 0, tests := 1 } } })) ((0))).getD default),
   by decide +kernel, by decide +kernel, inv_of (by decide +kernel), by decide +kernel, progress_of (by decide +kernel)⟩,
   ⟨1000, upState, inv_of (by decide +kernel), by decide +kernel⟩,
   ⟨{unit := 0, paramLen := 8, params := [1,2,1,0,0,0,0,0]}, upState, ready_of (by decide +kernel), by decide +kernel⟩,
   ⟨{unit := 0, paramLen := 8, params := [1,2,1,0,0,0,0,0]}, (let b : State := upState; { b with gauge := { b.gauge with trigEnabled := true } }),
   ready_of (by decide +kernel), by decide +kernel⟩,
   ⟨{unit := 0, paramLen := 8, params := [7,2,1,0,0,0,0,0]}, upState, ready_of (by decide +kernel), by decide +kernel⟩,
   ⟨1, ({ ticket := 9, tgt := 700, fire := 65536000, state := .settling } : Mark), ([] : List Mark), 1000,
   (setStation 1 (fun x => { x with due := 1000, pending := [({ ticket := 9, tgt := 700, fire := 65536000, state := .settling } : Mark)] }) (let b : State := (let b : State := (let b : State := upState; { b with running := { b.running with axis := vset b.running.axis 2 { (vget b.running.axis 2) with enable := true, vmax := 100000, accel := 1000000, decel := 1000000, emerg := 2000000, softMin := -100000, softMax := 100000, inputs := 0x3F } } }); { b with running := { b.running with station := vset b.running.station 1 { (vget b.running.station 1) with enable := true, posAxis := 2, compare := 3, pulse := true, travelMax := 1000 } } }); { b with running := { b.running with cmp := vset b.running.cmp 3 { (vget b.running.cmp 3) with enable := true } } })),
   by decide +kernel, by decide +kernel, inv_of (by decide +kernel), by decide +kernel⟩,
   ⟨1, ({ ticket := 9, tgt := 700, fire := 65536000, state := .settling } : Mark), ([] : List Mark), 1000,
   (setStation 1 (fun x => { x with due := 1001, pending := [({ ticket := 9, tgt := 700, fire := 65536000, state := .settling } : Mark)] }) (let b : State := (let b : State := (let b : State := upState; { b with running := { b.running with axis := vset b.running.axis 2 { (vget b.running.axis 2) with enable := true, vmax := 100000, accel := 1000000, decel := 1000000, emerg := 2000000, softMin := -100000, softMax := 100000, inputs := 0x3F } } }); { b with running := { b.running with station := vset b.running.station 1 { (vget b.running.station 1) with enable := true, posAxis := 2, compare := 3, pulse := true, travelMax := 1000 } } }); { b with running := { b.running with cmp := vset b.running.cmp 3 { (vget b.running.cmp 3) with enable := true } } })),
   by decide +kernel, inv_of (by decide +kernel), by decide +kernel⟩,
   ⟨1, ({ ticket := 9, tgt := 700, fire := 65536000, state := .waiting } : Mark), 2, ([] : List Mark), 1000,
   (setAxis 2 (fun x => { x with state := .idle, standstill := some .hold }) (setStation 1 (fun x => { x with dwelling := true, due := 1000, pending := [({ ticket := 9, tgt := 700, fire := 65536000, state := .waiting } : Mark)] }) (let b : State := (let b : State := (let b : State := upState; { b with running := { b.running with axis := vset b.running.axis 2 { (vget b.running.axis 2) with enable := true, vmax := 100000, accel := 1000000, decel := 1000000, emerg := 2000000, softMin := -100000, softMax := 100000, inputs := 0x3F } } }); { b with running := { b.running with station := vset b.running.station 1 { (vget b.running.station 1) with enable := true, posAxis := 2, compare := 3, pulse := true, travelMax := 1000 } } }); { b with running := { b.running with cmp := vset b.running.cmp 3 { (vget b.running.cmp 3) with enable := true } } }))),
   by decide +kernel, by decide +kernel, by decide +kernel, inv_of (by decide +kernel), by decide +kernel⟩,
   ⟨1, 1000, upState, by decide +kernel, inv_of (by decide +kernel), by decide +kernel⟩⟩

theorem wit_ClockAndRingTime :
    (∃ (c : HostCmd) (s : State), Ready specTimeSet c s ∧ u32 c.params 8 < 1000000000 ∧ (cfgNow s).time.source = 0 ∧ s.gauge.trigEnabled = false) ∧
    (∃ (c : HostCmd) (s : State), Ready specTimeSet c s ∧ 1000000000 ≤ u32 c.params 8) ∧
    (∃ (c : HostCmd) (s : State), Ready specTimeSet c s ∧ (u32 c.params 8 < 1000000000 ∧ ((cfgNow s).time.source ≠ 0 ∨ s.gauge.trigEnabled = true))) ∧
    (∃ (c : HostCmd) (s : State), Ready specTimeSet c s ∧ (u32 c.params 8 < 1000000000 ∧ ((cfgNow s).time.source ≠ 0 ∨ s.gauge.trigEnabled = true))) ∧
    (∃ (c : HostCmd) (s : State), Ready specTimeAdjust c s ∧ (cfgNow s).time.source = 0 ∧ bitOf (u8 c.params 0) 0 = true ∧
    bitOf (u8 c.params 0) 1 = false ∧ 8585639625 ≤ u64 c.params 8 % 2 ^ 34 ∧ u64 c.params 8 % 2 ^ 34 ≤ 8594229559) ∧
    (∃ (c : HostCmd) (s : State), Ready specTimeAdjust c s ∧ (cfgNow s).time.source = 0 ∧ bitOf (u8 c.params 0) 0 = true ∧
    bitOf (u8 c.params 0) 1 = false ∧ 8585639625 ≤ u64 c.params 8 % 2 ^ 34 ∧ u64 c.params 8 % 2 ^ 34 ≤ 8594229559) ∧
    (∃ (c : HostCmd) (s : State), Ready specTimeAdjust c s ∧ (cfgNow s).time.source = 0 ∧ bitOf (u8 c.params 0) 0 = false ∧
    bitOf (u8 c.params 0) 1 = true ∧ (s64 c.params 16).natAbs ≤ 1000000000) ∧
    (∃ (c : HostCmd) (s : State), Ready specTimeAdjust c s ∧ (bitOf (u8 c.params 0) 0 = true ∧
    (u64 c.params 8 % 2 ^ 34 < 8585639625 ∨ 8594229559 < u64 c.params 8 % 2 ^ 34))) ∧
    (∃ (c : HostCmd) (s : State), Ready specTimeAdjust c s ∧ (bitOf (u8 c.params 0) 0 = true ∧
    (u64 c.params 8 % 2 ^ 34 < 8585639625 ∨ 8594229559 < u64 c.params 8 % 2 ^ 34))) ∧
    (∃ (c : HostCmd) (s : State), Ready specTimeAdjust c s ∧ (bitOf (u8 c.params 0) 0 = false ∧ bitOf (u8 c.params 0) 1 = true ∧
    1000000000 < (s64 c.params 16).natAbs)) ∧
    (∃ (c : HostCmd) (s : State), Ready specTimeAdjust c s ∧ (bitOf (u8 c.params 0) 0 = false ∧ bitOf (u8 c.params 0) 1 = false ∧
    (cfgNow s).time.source ≠ 0)) ∧
    (∃ (t : Nat) (s : State), let q := tick t s; s.Inv ∧ q.time.clock.slew.natAbs ≤ ((slewAddend q.time.clock : Int) - q.time.clock.addend).natAbs) ∧
    (∃ (t : Nat) (s : State), let q := tick t s; s.Inv ∧ ((slewAddend q.time.clock : Int) - q.time.clock.addend).natAbs < q.time.clock.slew.natAbs) ∧
    (∃ (t : Nat) (s : State), s.Inv ∧ up s ∧ s.time.holdover = false ∧ sourceSilent (tick t s) = true) ∧
    (∃ (t : Nat) (s : State), s.Inv ∧ up s ∧ s.time.holdover = false ∧ sourceSilent (tick t s) = true) ∧
    (∃ (t : Nat) (s : State), let q := tick t s; s.Inv ∧ (q.time.holdover = true ∨ sourceSilent q = false)) ∧
    (∃ (port : Nat) (t : Nat) (s : State), let q := tick t s; port < 2 ∧ s.Inv ∧ up (q)) ∧
    (∃ (port : Nat) (s : State), 2 ≤ port ∧ s.Inv) ∧
    (∃ (port : Nat) (payload : Bytes) (t : Nat) (s : State), let q := tick t s; s.Inv ∧
    ((cfgNow q).time.source ≠ 2 ∨ (cfgNow q).time.ringMaster ≠ u8 payload 24 ∨ 2 ≤ port)) ∧
    (∃ (port : Nat) (payload : Bytes) (t : Nat) (s : State), let q := tick t s; s.Inv ∧
    ((cfgNow q).time.source ≠ 2 ∨ (cfgNow q).time.ringMaster ≠ u8 payload 24 ∨ 2 ≤ port)) ∧
    (∃ (port : Nat) (payload : Bytes) (t : Nat) (s : State), let q := tick t s; s.Inv ∧
    ((cfgNow q).time.source ≠ 2 ∨ (cfgNow q).time.ringMaster ≠ u8 payload 24 ∨ 2 ≤ port)) ∧
    (∃ (port : Nat) (payload : Bytes) (t : Nat) (s : State), let q := tick t s; port < 2 ∧ s.Inv ∧ (up q ∧ followsRing payload q ∧
    q.ring.enumerated = true ∧ q.ring.moduleId = u8 payload 24)) ∧
    (∃ (t : Nat) (s : State) (port : Nat) (payload : Bytes), s.Inv ∧ up s ∧ port < 2 ∧ followsRing payload s ∧ s.ring.enumerated = false ∧
    s.time.ringMsgAt = none ∧ (ringOffset port payload (tick t s)).natAbs ≤ (cfgNow s).time.lockNs ∧
    (cfgNow s).time.lockNs < (cfgNow s).time.stepNs ∧ s.time.lockCount < 15 ∧ (cfgNow s).time.maxSlew ≤ 500) ∧
    (∃ (t : Nat) (s : State) (port : Nat) (payload : Bytes), s.Inv ∧ up s ∧ port < 2 ∧ followsRing payload s ∧ s.ring.enumerated = false ∧
    s.time.ringMsgAt = none ∧ s.gauge.trigEnabled = false ∧ (cfgNow s).time.lockNs ≤ (cfgNow s).time.stepNs ∧
    (cfgNow s).time.stepNs < (ringOffset port payload (tick t s)).natAbs ∧ s.time.locked = false) ∧
    (∃ (t : Nat) (s : State) (port : Nat) (payload : Bytes), s.Inv ∧ up s ∧ port < 2 ∧ followsRing payload s ∧ s.ring.enumerated = false ∧
    s.time.ringMsgAt = none ∧ s.gauge.trigEnabled = true ∧ (cfgNow s).time.lockNs ≤ (cfgNow s).time.stepNs ∧
    (cfgNow s).time.stepNs < (ringOffset port payload (tick t s)).natAbs ∧ s.time.locked = false) ∧
    (∃ (t : Nat) (s : State), let q := tick t s; s.Inv ∧ ((cfgNow q).time.source = 2 ∨ q.ring.enumerated = false)) ∧
    (∃ (t : Nat) (s : State), let q := tick t s; s.Inv ∧ ((cfgNow q).time.source = 2 ∨ q.ring.enumerated = false)) ∧
    (∃ (t : Nat) (s : State), let q := tick t s; s.Inv ∧ (up q ∧ (cfgNow q).time.source ≠ 2 ∧ q.ring.enumerated = true ∧ q.faults.injections = [] ∧
    sends 0 q ∧ sends 1 q)) := ⟨
   ⟨{unit := 0, paramLen := 16, params := le 8 500 ++ le 4 999999999 ++ zeros 4},
   (let b : State := upState; { b with time := { b.time with clock := { b.time.clock with seconds := 3, ns := 999999999, frac := 5 } } }),
   ready_of (by decide +kernel), by decide +kernel, by decide +kernel, by decide +kernel⟩,
   ⟨{unit := 0, paramLen := 16, params := le 8 500 ++ le 4 1000000000 ++ zeros 4}, upState, ready_of (by decide +kernel), by decide +kernel⟩,
   ⟨{unit := 0, paramLen := 16, params := le 8 500 ++ le 4 9 ++ zeros 4},
   (let b : State := upState; { b with gauge := { b.gauge with trigEnabled := true } }), ready_of (by decide +kernel), by decide +kernel⟩,
   ⟨{unit := 0, paramLen := 16, params := le 8 500 ++ le 4 9 ++ zeros 4},
   (let b : State := upState; { b with running := { b.running with time := { b.running.time with source := 1 } } }), ready_of (by decide +kernel),
   by decide +kernel⟩,
   ⟨{unit := 0, paramLen := 24, params := [1,0,0,0,0,0,0,0] ++ le 8 8589907104 ++ leI 8 (-7)},
   (let b : State := upState; { b with time := { b.time with clock := { b.time.clock with slew := 5 * 4294967296 } } }),
   ready_of (by decide +kernel), by decide +kernel, by decide +kernel, by decide +kernel, by decide +kernel, by decide +kernel⟩,
   ⟨{unit := 0, paramLen := 24, params := [1,0,0,0,0,0,0,0] ++ le 8 8585639625 ++ leI 8 (-7)},
   (let b : State := upState; { b with time := { b.time with clock := { b.time.clock with slew := 5 * 4294967296 } } }),
   ready_of (by decide +kernel), by decide +kernel, by decide +kernel, by decide +kernel, by decide +kernel, by decide +kernel⟩,
   ⟨{unit := 0, paramLen := 24, params := [2,0,0,0,0,0,0,0] ++ le 8 3 ++ leI 8 (-1000000000)},
   (let b : State := upState; { b with time := { b.time with clock := { b.time.clock with slew := 5 * 4294967296 } } }),
   ready_of (by decide +kernel), by decide +kernel, by decide +kernel, by decide +kernel, by decide +kernel⟩,
   ⟨{unit := 0, paramLen := 24, params := [1,0,0,0,0,0,0,0] ++ le 8 8585639624 ++ leI 8 (0)}, upState, ready_of (by decide +kernel),
   by decide +kernel⟩,
   ⟨{unit := 0, paramLen := 24, params := [3,0,0,0,0,0,0,0] ++ le 8 8594229560 ++ leI 8 (0)}, upState, ready_of (by decide +kernel),
   by decide +kernel⟩,
   ⟨{unit := 0, paramLen := 24, params := [2,0,0,0,0,0,0,0] ++ le 8 0 ++ leI 8 (-1000000001)}, upState, ready_of (by decide +kernel),
   by decide +kernel⟩,
   ⟨{unit := 0, paramLen := 24, params := [0,0,0,0,0,0,0,0] ++ le 8 0 ++ leI 8 (0)},
   (let b : State := upState; { b with running := { b.running with time := { b.running.time with source := 2 } } }), ready_of (by decide +kernel),
   by decide +kernel⟩,
   ⟨1000, (let b : State := upState; { b with time := { b.time with clock := { b.time.clock with slew := 3 } } }), inv_of (by decide +kernel),
   by decide +kernel⟩,
   ⟨1000, (let b : State := upState; { b with time := { b.time with clock := { b.time.clock with slew := 4000000000000 } } }),
   inv_of (by decide +kernel), by decide +kernel⟩,
   ⟨10000000,
   (let b : State := (let b : State := upState; { b with time := { b.time with locked := true, ringMsgAt := some 0, clock := { b.time.clock with slew := 77777777777 } } }); { b with running := { b.running with time := { b.running.time with source := 2 } } }),
   inv_of (by decide +kernel), by decide +kernel, by decide +kernel, by decide +kernel⟩,
   ⟨3000000000,
   (let b : State := (setEth 1 (fun x => { x with state := .slave }) (let b : State := upState; { b with time := { b.time with locked := true } })); { b with running := { b.running with time := { b.running.time with source := 1 } } }),
   inv_of (by decide +kernel), by decide +kernel, by decide +kernel, by decide +kernel⟩,
   ⟨1000, upState, inv_of (by decide +kernel), by decide +kernel⟩,
   ⟨1, 1000, (let b : State := upState; { b with time := { b.time with linkDelays := .replicate 2 (List.range 16) } }), by decide +kernel,
   inv_of (by decide +kernel), by decide +kernel⟩,
   ⟨2, upState, by decide +kernel, inv_of (by decide +kernel)⟩,
   ⟨0, (le 8 7 ++ le 4 1 ++ zeros 4 ++ leI 8 (0) ++ [4] ++ zeros 7 : Bytes), 1000,
   (let b : State := upState; { b with running := { b.running with time := { b.running.time with source := 2, ringMaster := 5 } } }),
   inv_of (by decide +kernel), by decide +kernel⟩,
   ⟨0, (le 8 7 ++ le 4 1 ++ zeros 4 ++ leI 8 (0) ++ [0] ++ zeros 7 : Bytes), 1000, upState, inv_of (by decide +kernel), by decide +kernel⟩,
   ⟨2, (le 8 7 ++ le 4 1 ++ zeros 4 ++ leI 8 (0) ++ [5] ++ zeros 7 : Bytes), 1000,
   (let b : State := upState; { b with running := { b.running with time := { b.running.time with source := 2, ringMaster := 5 } } }),
   inv_of (by decide +kernel), by decide +kernel⟩,
   ⟨0, (le 8 7 ++ le 4 1 ++ zeros 4 ++ leI 8 (0) ++ [5] ++ zeros 7 : Bytes), 1000,
   (let b : State := (let b : State := upState; { b with ring := { b.ring with enumerated := true, moduleId := 5 } }); { b with running := { b.running with time := { b.running.time with source := 2, ringMaster := 5 } } }),
   by decide +kernel, inv_of (by decide +kernel), by decide +kernel⟩,
   ⟨1000,
   (let b : State := (let b : State := (let b : State := upState; { b with time := { b.time with clock := { b.time.clock with seconds := 7, ns := 5000 } } }); { b with time := { b.time with linkDelays := .replicate 2 [40, 44], lockCount := 3 } }); { b with running := { b.running with time := { b.running.time with source := 2, ringMaster := 5 } } }),
   1, (le 8 7 ++ le 4 5955 ++ zeros 4 ++ leI 8 (196608) ++ [5] ++ zeros 7 : Bytes), inv_of (by decide +kernel), by decide +kernel, by decide +kernel,
   by decide +kernel, by decide +kernel, by decide +kernel, by decide +kernel, by decide +kernel, by decide +kernel, by decide +kernel⟩,
   ⟨1000,
   (let b : State := (let b : State := (let b : State := upState; { b with time := { b.time with clock := { b.time.clock with seconds := 7, ns := 5000 } } }); { b with time := { b.time with linkDelays := .replicate 2 [40, 44] } }); { b with running := { b.running with time := { b.running.time with source := 2, ringMaster := 5 } } }),
   1, (le 8 6 ++ le 4 5955 ++ zeros 4 ++ leI 8 (196608) ++ [5] ++ zeros 7 : Bytes), inv_of (by decide +kernel), by decide +kernel, by decide +kernel,
   by decide +kernel, by decide +kernel, by decide +kernel, by decide +kernel, by decide +kernel, by decide +kernel, by decide +kernel⟩,
   ⟨1000,
   (let b : State := (let b : State := (let b : State := (let b : State := upState; { b with time := { b.time with clock := { b.time.clock with seconds := 7, ns := 5000 } } }); { b with time := { b.time with linkDelays := .replicate 2 [40, 44] } }); { b with running := { b.running with time := { b.running.time with source := 2, ringMaster := 5 } } }); { b with gauge := { b.gauge with trigEnabled := true } }),
   1, (le 8 8 ++ le 4 5955 ++ zeros 4 ++ leI 8 (196608) ++ [5] ++ zeros 7 : Bytes), inv_of (by decide +kernel), by decide +kernel, by decide +kernel,
   by decide +kernel, by decide +kernel, by decide +kernel, by decide +kernel, by decide +kernel, by decide +kernel, by decide +kernel⟩,
   ⟨1000, upState, inv_of (by decide +kernel), by decide +kernel⟩,
   ⟨1000,
   (let b : State := (let b : State := upState; { b with ring := { b.ring with enumerated := true } }); { b with running := { b.running with time := { b.running.time with source := 2, ringMaster := 5 } } }),
   inv_of (by decide +kernel), by decide +kernel⟩,
   ⟨1000,
   (setLinkPort 0 (fun x => { x with state := .up, nextSeq := 4294967295 }) (setLinkPort 1 (fun x => { x with state := .frUp, nextSeq := 7 }) (let b : State := (let b : State := upState; { b with time := { b.time with clock := { b.time.clock with seconds := 7, ns := 5000 } } }); { b with ring := { b.ring with enumerated := true, moduleId := 9 } }))),
   inv_of (by decide +kernel), by decide +kernel⟩⟩

theorem wit_PtpAndEthernet :
    (∃ (port : Nat) (t : Nat) (s : State), let q := tick t s; s.Inv ∧ (2 ≤ port ∨ (vget q.time.ports port).linkUp = false)) ∧
    (∃ (port : Nat) (t : Nat) (s : State), let q := tick t s; s.Inv ∧ (2 ≤ port ∨ (vget q.time.ports port).linkUp = false)) ∧
    (∃ (port : Nat) (t : Nat) (s : State), let q := tick t s; port < 2 ∧ s.Inv ∧ (up q ∧ (vget q.time.ports port).linkUp = true ∧
    ptpRuns q port = false)) ∧
    (∃ (port : Nat) (m : PtpMsg) (t : Nat) (s : State), let q := tick t s; port < 2 ∧ s.Inv ∧ (up q ∧ runs port q ∧ ptpForeign q port m = true)) ∧
    (∃ (port : Nat) (m : PtpMsg) (t : Nat) (s : State), let q := tick t s; port < 2 ∧ s.Inv ∧ (up q ∧ runs port q ∧ ptpForeign q port m = true)) ∧
    (∃ (port : Nat) (m : PtpMsg) (t : Nat) (s : State), let q := tick t s; port < 2 ∧ s.Inv ∧ (up q ∧ runs port q ∧ ptpForeign q port m = true)) ∧
    (∃ (port : Nat) (m : PtpMsg) (t : Nat) (s : State), let q := tick t s; port < 2 ∧ s.Inv ∧ (up q ∧ runs port q ∧ ptpForeign q port m = true)) ∧
    (∃ (port : Nat) (m : PtpMsg) (t : Nat) (s : State), let q := tick t s; port < 2 ∧ s.Inv ∧ (up q ∧ runs port q ∧ ptpForeign q port m = true)) ∧
    (∃ (port : Nat) (m : PtpMsg) (t : Nat) (s : State), let q := tick t s; port < 2 ∧ s.Inv ∧ (up q ∧ runs port q ∧ ptpForeign q port m = true)) ∧
    (∃ (port : Nat) (m : PtpMsg) (t : Nat) (s : State), let q := tick t s; port < 2 ∧ m.kind = .sync ∧ m.twoStep = true ∧ s.Inv ∧ (up q ∧
    runs port q ∧ ptpForeign q port m = false)) ∧
    (∃ (port : Nat) (m : PtpMsg) (t : Nat) (s : State), let q := tick t s; port < 2 ∧ m.kind = .sync ∧ m.twoStep = false ∧ s.Inv ∧ (up q ∧
    runs port q ∧ ptpForeign q port m = false ∧ (cfgNow q).time.source ≠ 1)) ∧
    (∃ (port : Nat) (m : PtpMsg) (at_ : _) (c : _) (t : Nat) (s : State), let q := tick t s; port < 2 ∧ m.kind = .followUp ∧ s.Inv ∧ (up q ∧
    runs port q ∧ ptpForeign q port m = false ∧ (cfgNow q).time.source ≠ 1 ∧ (vget q.time.ports port).syncWait = some (m.seq, at_, c))) ∧
    (∃ (s : State) (port : Nat) (m : PtpMsg), s.Inv ∧ up s ∧ port < 2 ∧ runs port s ∧ ptpForeign s port m = false ∧ m.kind = .sync ∧
    m.twoStep = false ∧ (cfgNow s).time.source = 1 ∧ (vget s.time.ports port).state = .slave ∧ keepsGm port s ∧
    (syncOffset port m s).natAbs ≤ (cfgNow s).time.lockNs ∧ (cfgNow s).time.lockNs < (cfgNow s).time.stepNs ∧ s.time.lockCount = 15 ∧
    s.time.locked = false ∧ (cfgNow s).time.maxSlew ≤ 500) ∧
    (∃ (s : State) (port : Nat) (m : PtpMsg), s.Inv ∧ up s ∧ port < 2 ∧ runs port s ∧ ptpForeign s port m = false ∧ m.kind = .sync ∧
    m.twoStep = false ∧ (cfgNow s).time.source = 1 ∧ (vget s.time.ports port).state = .slave ∧ keepsGm port s ∧ s.gauge.trigEnabled = true ∧
    (cfgNow s).time.lockNs ≤ (cfgNow s).time.stepNs ∧ (cfgNow s).time.stepNs < (syncOffset port m s).natAbs ∧ s.time.stepBlocked = true ∧
    s.time.locked = true) ∧
    (∃ (port : Nat) (m : PtpMsg) (t : Nat) (s : State), let q := tick t s; port < 2 ∧ m.kind = .announce ∧ s.Inv ∧ (up q ∧ runs port q ∧
    ptpForeign q port m = false ∧ ptpRuns q (1 - port) = false ∧ awake port q ∧ (vget q.time.ports port).state ≠ .slave ∧
    (vget q.time.ports port).state ≠ .uncalibrated ∧ q.time.gm ≠ m.announce.identity ∧
    ((cfgNow q).time.slaveOnly = true ∨ ¬ ((1 : Nat) ≤ (cfgNow q).time.clockClass ∧ (cfgNow q).time.clockClass ≤ 127) ∧
    m.announce.priority1 < (cfgNow q).time.priority1))) ∧
    (∃ (port : Nat) (m : PtpMsg) (t : Nat) (s : State), let q := tick t s; port < 2 ∧ m.kind = .announce ∧ s.Inv ∧ (up q ∧ runs port q ∧
    ptpForeign q port m = false ∧ ptpRuns q (1 - port) = false ∧ awake port q ∧ (vget q.time.ports port).state ≠ .slave ∧
    (vget q.time.ports port).state ≠ .uncalibrated ∧ q.time.gm ≠ m.announce.identity ∧
    ((cfgNow q).time.slaveOnly = true ∨ ¬ ((1 : Nat) ≤ (cfgNow q).time.clockClass ∧ (cfgNow q).time.clockClass ≤ 127) ∧
    m.announce.priority1 < (cfgNow q).time.priority1))) ∧
    (∃ (port : Nat) (m : PtpMsg) (t : Nat) (s : State), let q := tick t s; port < 2 ∧ m.kind = .announce ∧ s.Inv ∧ (up q ∧ runs port q ∧
    ptpForeign q port m = false ∧ ptpRuns q (1 - port) = false ∧ awake port q ∧ (vget q.time.ports port).state ≠ .master ∧ q.time.gm = 0 ∧
    (cfgNow q).time.slaveOnly = false ∧ (cfgNow q).time.priority1 < m.announce.priority1)) ∧
    (∃ (port : Nat) (m : PtpMsg) (t : Nat) (s : State), let q := tick t s; port < 2 ∧ m.kind = .delayReq ∧ s.Inv ∧ (up q ∧ runs port q ∧
    ptpForeign q port m = false ∧ (vget q.time.ports port).state = .master)) ∧
    (∃ (port : Nat) (m : PtpMsg) (t : Nat) (s : State), let q := tick t s; port < 2 ∧ m.kind = .delayReq ∧ s.Inv ∧ (up q ∧ runs port q ∧
    ptpForeign q port m = false ∧ (vget q.time.ports port).state ≠ .master)) ∧
    (∃ (port : Nat) (m : PtpMsg) (t1 : Int) (t2 : Int) (t3 : Int) (t : Nat) (s : State), let q := tick t s; port < 2 ∧ m.kind = .delayResp ∧ s.Inv ∧
    (up q ∧ runs port q ∧ ptpForeign q port m = false ∧ (vget q.time.ports port).delaySent = some (m.seq, t3) ∧
    (vget q.time.ports port).lastSync = some (t1, t2))) ∧
    (∃ (port : Nat) (m : PtpMsg) (t : Nat) (s : State), let q := tick t s; port < 2 ∧ m.kind = .pdelayReq ∧ s.Inv ∧ (up q ∧ runs port q ∧
    ptpForeign q port m = false)) ∧
    (∃ (port : Nat) (t : Nat) (s : State), let q := tick t s; s.Inv ∧ (2 ≤ port ∨ ptpRuns q port = false ∨ (vget q.time.ports port).linkUp = false)) ∧
    (∃ (port : Nat) (t : Nat) (s : State), let q := tick t s; port < 2 ∧ s.Inv ∧ (up q ∧ runs port q ∧ (vget q.time.ports port).state = .master)) ∧
    (∃ (port : Nat) (t : Nat) (s : State), let q := tick t s; port < 2 ∧ s.Inv ∧ (vget q.time.ports port).state ≠ .master) ∧
    (∃ (port : Nat) (t : Nat) (s : State), let q := tick t s; port < 2 ∧ s.Inv ∧ (up q ∧ runs port q ∧ (vget q.time.ports port).state = .master)) ∧
    (∃ (port : Nat) (t : Nat) (s : State), let q := tick t s; port < 2 ∧ s.Inv ∧ (up q ∧ runs port q ∧ (vget q.time.ports port).state = .preMaster)) ∧
    (∃ (port : Nat) (t : Nat) (s : State), let q := tick t s; port < 2 ∧ s.Inv ∧ (up q ∧ runs port q ∧ (cfgNow q).time.peer = false ∧
    (vget q.time.ports port).state = .slave)) ∧
    (∃ (port : Nat) (t : Nat) (s : State), let q := tick t s; port < 2 ∧ s.Inv ∧ (up q ∧ runs port q ∧ ptpRuns q (1 - port) = false ∧
    (vget q.time.ports port).state = .listening ∧ (cfgNow q).time.slaveOnly = false ∧ q.time.gm = 0)) ∧
    (∃ (port : Nat) (t : Nat) (s : State), let q := tick t s; s.Inv ∧ (2 ≤ port ∨ ptpRuns q port = false ∨ (vget q.time.ports port).linkUp = false)) ∧
    (∃ (port : Nat) (ip : Nat) (t : Nat) (s : State), let q := tick t s; port < 2 ∧ ip ≠ 0 ∧ s.Inv ∧ (up q ∧ (vget q.time.ports port).linkUp = true ∧
    (ptpCfg q port).ipv4 = ip)) ∧
    (∃ (port : Nat) (ip : Nat) (t : Nat) (s : State), let q := tick t s; s.Inv ∧
    ((ptpCfg q port).ipv4 ≠ ip ∨ (vget q.time.ports port).linkUp = false ∨ 2 ≤ port)) ∧
    (∃ (port : Nat) (t : Nat) (s : State), let q := tick t s; port < 2 ∧ s.Inv ∧ (up q ∧ (vget q.time.ports port).linkUp = true)) ∧
    (∃ (port : Nat) (t : Nat) (s : State), let q := tick t s; port < 2 ∧ s.Inv ∧ (vget q.time.ports port).linkUp = false) ∧
    (∃ (port : Nat) (t : Nat) (s : State), let q := tick t s; port < 2 ∧ s.Inv ∧ (up q ∧ (ptpCfg q port).speed ≠ 0 ∧
    (vget q.cages (3 + port)).enabled = true ∧ ptpRuns q port = true ∧ (vget q.time.ports port).state = .initializing)) ∧
    (∃ (port : Nat) (t : Nat) (s : State), let q := tick t s; s.Inv ∧
    (2 ≤ port ∨ (ptpCfg q port).speed = 0 ∨ (vget q.cages (3 + port)).enabled = false)) ∧
    (∃ (port : Nat) (t : Nat) (s : State), let q := tick t s; port < 2 ∧ s.Inv ∧ (up q ∧ runs port q ∧ ptpRuns q (1 - port) = false ∧ awake port q ∧
    q.time.gm = 0 ∧ (∀ v : Nat, v < 8 → (vget q.views v).sending = none))) ∧
    (∃ (port : Nat) (t : Nat) (s : State), let q := tick t s; s.Inv ∧ (2 ≤ port ∨ (vget q.time.ports port).linkUp = false)) := ⟨
   ⟨2, 1000, upState, inv_of (by decide +kernel), by decide +kernel⟩,
   ⟨0, 1000, upState, inv_of (by decide +kernel), by decide +kernel⟩,
   ⟨1, 1000, (setEth 1 (fun x => { x with linkUp := true }) upState), by decide +kernel, inv_of (by decide +kernel), by decide +kernel⟩,
   ⟨1, ({ kind := .sync, domain := 3 } : PtpMsg), 1000,
   (let b : State := (setEth 1 (fun x => { x with linkUp := true }) upState); { b with running := { b.running with ptp := vset b.running.ptp 1 { vget b.running.ptp 1 with speed := 1, enable := true } } }),
   by decide +kernel, inv_of (by decide +kernel), by decide +kernel⟩,
   ⟨1, ({ kind := .sync, version := 1 } : PtpMsg), 1000,
   (let b : State := (setEth 1 (fun x => { x with linkUp := true }) upState); { b with running := { b.running with ptp := vset b.running.ptp 1 { vget b.running.ptp 1 with speed := 1, enable := true } } }),
   by decide +kernel, inv_of (by decide +kernel), by decide +kernel⟩,
   ⟨1, ({ kind := .sync, udp := true } : PtpMsg), 1000,
   (let b : State := (setEth 1 (fun x => { x with linkUp := true }) upState); { b with running := { b.running with ptp := vset b.running.ptp 1 { vget b.running.ptp 1 with speed := 1, enable := true } } }),
   by decide +kernel, inv_of (by decide +kernel), by decide +kernel⟩,
   ⟨1, ({ kind := .sync, foreign := true } : PtpMsg), 1000,
   (let b : State := (setEth 1 (fun x => { x with linkUp := true }) upState); { b with running := { b.running with ptp := vset b.running.ptp 1 { vget b.running.ptp 1 with speed := 1, enable := true } } }),
   by decide +kernel, inv_of (by decide +kernel), by decide +kernel⟩,
   ⟨1, ({ kind := .pdelayReq } : PtpMsg), 1000,
   (let b : State := (setEth 1 (fun x => { x with linkUp := true }) upState); { b with running := { b.running with ptp := vset b.running.ptp 1 { vget b.running.ptp 1 with speed := 1, enable := true } } }),
   by decide +kernel, inv_of (by decide +kernel), by decide +kernel⟩,
   ⟨1, ({ kind := .management } : PtpMsg), 1000,
   (let b : State := (setEth 1 (fun x => { x with linkUp := true }) upState); { b with running := { b.running with ptp := vset b.running.ptp 1 { vget b.running.ptp 1 with speed := 1, enable := true } } }),
   by decide +kernel, inv_of (by decide +kernel), by decide +kernel⟩,
   ⟨1, ({ kind := .sync, twoStep := true, seq := 4, received := 100, correction := 7 } : PtpMsg), 1000,
   (let b : State := (setEth 1 (fun x => { x with linkUp := true }) upState); { b with running := { b.running with ptp := vset b.running.ptp 1 { vget b.running.ptp 1 with speed := 1, enable := true, ingress := -3 } } }),
   by decide +kernel, by decide +kernel, by decide +kernel, inv_of (by decide +kernel), by decide +kernel⟩,
   ⟨1, ({ kind := .sync, seq := 4, received := 100, origin := 50, correction := 7 } : PtpMsg), 1000,
   (let b : State := (setEth 1 (fun x => { x with linkUp := true, state := .slave }) upState); { b with running := { b.running with ptp := vset b.running.ptp 1 { vget b.running.ptp 1 with speed := 1, enable := true, ingress := -3 } } }),
   by decide +kernel, by decide +kernel, by decide +kernel, inv_of (by decide +kernel), by decide +kernel⟩,
   ⟨1, ({ kind := .followUp, seq := 4, origin := 50, correction := 2 } : PtpMsg), (97 : Int), (7 : Int), 1000,
   (let b : State := (setEth 1 (fun x => { x with linkUp := true, state := .slave, syncWait := some (4, 97, 7) }) upState); { b with running := { b.running with ptp := vset b.running.ptp 1 { vget b.running.ptp 1 with speed := 1, enable := true } } }),
   by decide +kernel, by decide +kernel, inv_of (by decide +kernel), by decide +kernel⟩,
   ⟨(let b : State := (let b : State := (setEth 1 (fun x => { x with linkUp := true, state := .slave, pathDelay := 36, best := some { identity := 77 } }) (let b : State := upState; { b with time := { b.time with gm := 77, lockCount := 15 } })); { b with running := { b.running with ptp := vset b.running.ptp 1 { vget b.running.ptp 1 with speed := 1, enable := true, ingress := -3 } } }); { b with running := { b.running with time := { b.running.time with source := 1 } } }),
   1, ({ kind := .sync, received := 100, origin := 50, correction := 7 } : PtpMsg), inv_of (by decide +kernel), by decide +kernel, by decide +kernel,
   by decide +kernel, by decide +kernel, by decide +kernel, by decide +kernel, by decide +kernel, by decide +kernel, by decide +kernel,
   by decide +kernel, by decide +kernel, by decide +kernel, by decide +kernel, by decide +kernel⟩,
   ⟨(let b : State := (let b : State := (let b : State := (setEth 1 (fun x => { x with linkUp := true, state := .slave, pathDelay := 36, best := some { identity := 77 } }) (let b : State := upState; { b with time := { b.time with gm := 77, stepBlocked := true, locked := true } })); { b with running := { b.running with ptp := vset b.running.ptp 1 { vget b.running.ptp 1 with speed := 1, enable := true, ingress := -3 } } }); { b with running := { b.running with time := { b.running.time with source := 1 } } }); { b with gauge := { b.gauge with trigEnabled := true } }),
   1, ({ kind := .sync, received := 10000, origin := 50, correction := 7 } : PtpMsg), inv_of (by decide +kernel), by decide +kernel,
   by decide +kernel, by decide +kernel, by decide +kernel, by decide +kernel, by decide +kernel, by decide +kernel, by decide +kernel,
   by decide +kernel, by decide +kernel, by decide +kernel, by decide +kernel, by decide +kernel, by decide +kernel⟩,
   ⟨1, ({ kind := .announce, announce := { priority1 := 127, identity := 99 } } : PtpMsg), 1000,
   (let b : State := (setEth 1 (fun x => { x with linkUp := true, state := .master }) upState); { b with running := { b.running with ptp := vset b.running.ptp 1 { vget b.running.ptp 1 with speed := 1, enable := true } } }),
   by decide +kernel, by decide +kernel, inv_of (by decide +kernel), by decide +kernel⟩,
   ⟨1, ({ kind := .announce, announce := { priority1 := 255, identity := 99 } } : PtpMsg), 1000,
   (let b : State := (let b : State := (setEth 1 (fun x => { x with linkUp := true, state := .listening }) upState); { b with running := { b.running with ptp := vset b.running.ptp 1 { vget b.running.ptp 1 with speed := 1, enable := true } } }); { b with running := { b.running with time := { b.running.time with slaveOnly := true } } }),
   by decide +kernel, by decide +kernel, inv_of (by decide +kernel), by decide +kernel⟩,
   ⟨1, ({ kind := .announce, announce := { priority1 := 129, identity := 99 } } : PtpMsg), 1000,
   (let b : State := (setEth 1 (fun x => { x with linkUp := true, state := .listening }) upState); { b with running := { b.running with ptp := vset b.running.ptp 1 { vget b.running.ptp 1 with speed := 1, enable := true } } }),
   by decide +kernel, by decide +kernel, inv_of (by decide +kernel), by decide +kernel⟩,
   ⟨1, ({ kind := .delayReq, seq := 4, received := 100 } : PtpMsg), 1000,
   (let b : State := (setEth 1 (fun x => { x with linkUp := true, state := .master }) upState); { b with running := { b.running with ptp := vset b.running.ptp 1 { vget b.running.ptp 1 with speed := 1, enable := true, ingress := 8 } } }),
   by decide +kernel, by decide +kernel, inv_of (by decide +kernel), by decide +kernel⟩,
   ⟨1, ({ kind := .delayReq, seq := 4, received := 100 } : PtpMsg), 1000,
   (let b : State := (setEth 1 (fun x => { x with linkUp := true, state := .slave }) upState); { b with running := { b.running with ptp := vset b.running.ptp 1 { vget b.running.ptp 1 with speed := 1, enable := true, ingress := 8 } } }),
   by decide +kernel, by decide +kernel, inv_of (by decide +kernel), by decide +kernel⟩,
   ⟨1, ({ kind := .delayResp, seq := 4, origin := 95, correction := 2 } : PtpMsg), (10:Int), (40:Int), (60:Int), 1000,
   (let b : State := (setEth 1 (fun x => { x with linkUp := true, state := .slave, delaySent := some (4, 60), lastSync := some (10, 40) }) upState); { b with running := { b.running with ptp := vset b.running.ptp 1 { vget b.running.ptp 1 with speed := 1, enable := true } } }),
   by decide +kernel, by decide +kernel, inv_of (by decide +kernel), by decide +kernel⟩,
   ⟨1, ({ kind := .pdelayReq, seq := 4, received := 100 } : PtpMsg), 1000,
   (let b : State := (let b : State := (setEth 1 (fun x => { x with linkUp := true, state := .slave }) upState); { b with running := { b.running with ptp := vset b.running.ptp 1 { vget b.running.ptp 1 with speed := 1, enable := true, ingress := 8, egress := 5 } } }); { b with running := { b.running with time := { b.running.time with peer := true } } }),
   by decide +kernel, by decide +kernel, inv_of (by decide +kernel), by decide +kernel⟩,
   ⟨0, 1000, upState, inv_of (by decide +kernel), by decide +kernel⟩,
   ⟨1, 1000,
   (let b : State := (setEth 1 (fun x => { x with linkUp := true, state := .master, seqOut := 65535 }) (let b : State := upState; { b with time := { b.time with clock := { b.time.clock with seconds := 7, ns := 5000 } } })); { b with running := { b.running with ptp := vset b.running.ptp 1 { vget b.running.ptp 1 with speed := 1, enable := true, egress := 5 } } }),
   by decide +kernel, inv_of (by decide +kernel), by decide +kernel⟩,
   ⟨1, 1000,
   (let b : State := (setEth 1 (fun x => { x with linkUp := true, state := .slave }) upState); { b with running := { b.running with ptp := vset b.running.ptp 1 { vget b.running.ptp 1 with speed := 1, enable := true } } }),
   by decide +kernel, inv_of (by decide +kernel), by decide +kernel⟩,
   ⟨1, 1000,
   (let b : State := (setEth 1 (fun x => { x with linkUp := true, state := .master, seqOut := 65535 }) (let b : State := upState; { b with time := { b.time with clock := { b.time.clock with seconds := 7, ns := 5000 } } })); { b with running := { b.running with ptp := vset b.running.ptp 1 { vget b.running.ptp 1 with speed := 1, enable := true, egress := 5 } } }),
   by decide +kernel, inv_of (by decide +kernel), by decide +kernel⟩,
   ⟨1, 1000,
   (let b : State := (setEth 1 (fun x => { x with linkUp := true, state := .preMaster }) upState); { b with running := { b.running with ptp := vset b.running.ptp 1 { vget b.running.ptp 1 with speed := 1, enable := true } } }),
   by decide +kernel, inv_of (by decide +kernel), by decide +kernel⟩,
   ⟨1, 1000,
   (let b : State := (setEth 1 (fun x => { x with linkUp := true, state := .slave, seqOut := 7 }) (let b : State := upState; { b with time := { b.time with clock := { b.time.clock with seconds := 7, ns := 5000 } } })); { b with running := { b.running with ptp := vset b.running.ptp 1 { vget b.running.ptp 1 with speed := 1, enable := true, egress := 5 } } }),
   by decide +kernel, inv_of (by decide +kernel), by decide +kernel⟩,
   ⟨1, 1000,
   (let b : State := (setEth 1 (fun x => { x with linkUp := true, state := .listening, best := some {} }) upState); { b with running := { b.running with ptp := vset b.running.ptp 1 { vget b.running.ptp 1 with speed := 1, enable := true } } }),
   by decide +kernel, inv_of (by decide +kernel), by decide +kernel⟩,
   ⟨1, 1000, upState, inv_of (by decide +kernel), by decide +kernel⟩,
   ⟨1, 3232235777, 1000,
   (let b : State := (setEth 1 (fun x => { x with linkUp := true }) upState); { b with running := { b.running with ptp := vset b.running.ptp 1 { vget b.running.ptp 1 with speed := 1, enable := true, ipv4 := 3232235777 } } }),
   by decide +kernel, by decide +kernel, inv_of (by decide +kernel), by decide +kernel⟩,
   ⟨1, 3232235778, 1000,
   (let b : State := (setEth 1 (fun x => { x with linkUp := true }) upState); { b with running := { b.running with ptp := vset b.running.ptp 1 { vget b.running.ptp 1 with speed := 1, enable := true, ipv4 := 3232235777 } } }),
   inv_of (by decide +kernel), by decide +kernel⟩,
   ⟨1, 1000, (setEth 1 (fun x => { x with linkUp := true }) upState), by decide +kernel, inv_of (by decide +kernel), by decide +kernel⟩,
   ⟨1, 1000, upState, by decide +kernel, inv_of (by decide +kernel), by decide +kernel⟩,
   ⟨1, 1000,
   (let b : State := (setEth 1 (fun x => { x with state := .initializing }) (let z : State := upState; { z with cages := vset z.cages 4 { present := true, enabled := true } })); { b with running := { b.running with ptp := vset b.running.ptp 1 { vget b.running.ptp 1 with speed := 1, enable := true } } }),
   by decide +kernel, inv_of (by decide +kernel), by decide +kernel⟩,
   ⟨2, 1000, upState, inv_of (by decide +kernel), by decide +kernel⟩,
   ⟨1, 1000,
   (let b : State := (setEth 1 (fun x => { x with linkUp := true, state := .slave, best := some {}, syncWait := some (1,2,3) }) upState); { b with running := { b.running with ptp := vset b.running.ptp 1 { vget b.running.ptp 1 with speed := 1, enable := true } } }),
   by decide +kernel, inv_of (by decide +kernel), by decide +kernel⟩,
   ⟨1, 1000, upState, inv_of (by decide +kernel), by decide +kernel⟩⟩

theorem wit_RingPorts :
    (∃ (p : Nat) (t : Nat) (s : State), let q := tick t s; p < 3 ∧ s.Inv ∧ (up q ∧ portIn p .down q ∧ portEnabled q p = true ∧
    (vget q.ring.ports p).since + 10000000 ≤ q.now)) ∧
    (∃ (p : Nat) (t : Nat) (s : State), let q := tick t s; s.Inv ∧
    (¬ portIn p .down q ∨ portEnabled q p = false ∨ q.now < (vget q.ring.ports p).since + 10000000)) ∧
    (∃ (p : Nat) (t : Nat) (s : State), let q := tick t s; s.Inv ∧
    (¬ portIn p .down q ∨ portEnabled q p = false ∨ q.now < (vget q.ring.ports p).since + 10000000)) ∧
    (∃ (p : Nat) (t : Nat) (s : State), let q := tick t s; s.Inv ∧
    (¬ portIn p .down q ∨ portEnabled q p = false ∨ q.now < (vget q.ring.ports p).since + 10000000)) ∧
    (∃ (p : Nat) (t : Nat) (s : State), let q := tick t s; p < 3 ∧ s.Inv ∧ (up q ∧ portIn p .search q)) ∧
    (∃ (p : Nat) (t : Nat) (s : State), let q := tick t s; s.Inv ∧ ¬ portIn p .search q) ∧
    (∃ (p : Nat) (k : RingCaps) (t : Nat) (s : State), let q := tick t s; k.forerunner = false ∧ s.Inv ∧ (up q ∧ portIn p .caps q)) ∧
    (∃ (p : Nat) (k : RingCaps) (t : Nat) (s : State), let q := tick t s; p < 2 ∧ k.forerunner = true ∧ s.Inv ∧ (up q ∧ portIn p .caps q ∧
    (cfgNow q).ring.allowForerunner = true)) ∧
    (∃ (p : Nat) (k : RingCaps) (t : Nat) (s : State), let q := tick t s; k.forerunner = true ∧ s.Inv ∧ (up q ∧ portIn p .caps q ∧
    (p = 2 ∨ (cfgNow q).ring.allowForerunner = false))) ∧
    (∃ (p : Nat) (k : RingCaps) (t : Nat) (s : State), let q := tick t s; k.forerunner = true ∧ s.Inv ∧ (up q ∧ portIn p .caps q ∧
    (p = 2 ∨ (cfgNow q).ring.allowForerunner = false))) ∧
    (∃ (p : Nat) (t : Nat) (s : State), let q := tick t s; p < 2 ∧ s.Inv ∧ (up q ∧ portIn p .frCaps q ∧
    isPortUp (vget q.ring.ports (1 - p)).state = false ∧ q.boot.stage ≠ 7 ∧ q.ring.modules = [])) ∧
    (∃ (p : Nat) (t : Nat) (s : State), let q := tick t s; p < 2 ∧ s.Inv ∧ (up q ∧ portIn p .frCaps q ∧
    isPortUp (vget q.ring.ports (1 - p)).state = false ∧ q.boot.stage ≠ 7 ∧ q.ring.modules = [])) ∧
    (∃ (p : Nat) (t : Nat) (s : State), let q := tick t s; s.Inv ∧ (¬ portIn p .caps q ∧ ¬ portIn p .frCaps q)) ∧
    (∃ (p : Nat) (t : Nat) (s : State), let q := tick t s; s.Inv ∧ (¬ portIn p .caps q ∧ ¬ portIn p .frCaps q)) ∧
    (∃ (p : Nat) (t : Nat) (s : State), let q := tick t s; s.Inv ∧ (up q ∧ portIn p .stepUp q)) ∧
    (∃ (p : Nat) (t : Nat) (s : State), let q := tick t s; s.Inv ∧ (up q ∧ portIn p .frLock q)) ∧
    (∃ (p : Nat) (t : Nat) (s : State), let q := tick t s; s.Inv ∧ (¬ portIn p .stepUp q ∧ ¬ portIn p .frLock q)) ∧
    (∃ (t : Nat) (s : State), let q := tick t s; s.Inv ∧ (up q ∧ portIn 2 .align q ∧ q.boot.stage ≠ 7 ∧ (cfgNow q).pair.enable = false)) ∧
    (∃ (p : Nat) (t : Nat) (s : State), let q := tick t s; p < 2 ∧ s.Inv ∧ (up q ∧ portIn p .align q ∧ q.boot.stage ≠ 7 ∧
    (vget q.ring.ports p).neighbour = none ∧ isPortUp (vget q.ring.ports (1 - p)).state = false)) ∧
    (∃ (p : Nat) (t : Nat) (s : State), let q := tick t s; p < 2 ∧ s.Inv ∧ (up q ∧ portIn p .align q ∧ q.boot.stage ≠ 7 ∧
    (vget q.ring.ports p).neighbour = none ∧ isPortUp (vget q.ring.ports (1 - p)).state = true)) ∧
    (∃ (p : Nat) (t : Nat) (s : State), let q := tick t s; s.Inv ∧ ¬ portIn p .align q) ∧
    (∃ (p : Nat) (t : Nat) (s : State), let q := tick t s; s.Inv ∧ (up q ∧ portIn p .frDetect q)) ∧
    (∃ (p : Nat) (t : Nat) (s : State), let q := tick t s; s.Inv ∧ ¬ portIn p .frDetect q) ∧
    (∃ (p : Nat) (t : Nat) (s : State), let q := tick t s; s.Inv ∧ (up q ∧ portIn p .frTrain q)) ∧
    (∃ (p : Nat) (t : Nat) (s : State), let q := tick t s; s.Inv ∧ ¬ portIn p .frTrain q) ∧
    (∃ (p : Nat) (st : _) (ns : _) (t : Nat) (s : State), let q := tick t s; (st, ns) ∈ [(PortState.stepUp, 10000000), (.align, 2000000)] ∧ s.Inv ∧
    (up q ∧ portIn p st q ∧ (vget q.ring.ports p).since + ns ≤ q.now)) ∧
    (∃ (p : Nat) (st : _) (ns : _) (t : Nat) (s : State), let q := tick t s; (st, ns) ∈ [(PortState.stepUp, 10000000), (.align, 2000000)] ∧ s.Inv ∧
    (up q ∧ portIn p st q ∧ (vget q.ring.ports p).since + ns ≤ q.now)) ∧
    (∃ (p : Nat) (st : _) (ns : _) (t : Nat) (s : State), let q := tick t s; (st, ns) ∈ [(PortState.stepUp, 10000000), (.align, 2000000)] ∧ s.Inv ∧
    (up q ∧ portIn p st q ∧ (vget q.ring.ports p).since + ns ≤ q.now)) ∧
    (∃ (p : Nat) (st : _) (ns : _) (t : Nat) (s : State), let q := tick t s; (st,
    ns) ∈ [(PortState.caps, 1000000), (.frDetect, 100000000), (.frTrain, 50000000), (.frLock, 20000000), (.frCaps, 10000000)] ∧ s.Inv ∧ (up q ∧
    portIn p st q ∧ (vget q.ring.ports p).since + ns ≤ q.now)) ∧
    (∃ (p : Nat) (st : _) (ns : _) (t : Nat) (s : State), let q := tick t s; (st,
    ns) ∈ [(PortState.caps, 1000000), (.frDetect, 100000000), (.frTrain, 50000000), (.frLock, 20000000), (.frCaps, 10000000)] ∧ s.Inv ∧ (up q ∧
    portIn p st q ∧ (vget q.ring.ports p).since + ns ≤ q.now)) ∧
    (∃ (p : Nat) (st : _) (ns : _) (t : Nat) (s : State), let q := tick t s; (st,
    ns) ∈ [(PortState.caps, 1000000), (.frDetect, 100000000), (.frTrain, 50000000), (.frLock, 20000000), (.frCaps, 10000000)] ∧ s.Inv ∧ (up q ∧
    portIn p st q ∧ (vget q.ring.ports p).since + ns ≤ q.now)) ∧
    (∃ (p : Nat) (st : _) (ns : _) (t : Nat) (s : State), let q := tick t s; (st,
    ns) ∈ [(PortState.caps, 1000000), (.frDetect, 100000000), (.frTrain, 50000000), (.frLock, 20000000), (.frCaps, 10000000)] ∧ s.Inv ∧ (up q ∧
    portIn p st q ∧ (vget q.ring.ports p).since + ns ≤ q.now)) ∧
    (∃ (p : Nat) (st : _) (ns : _) (t : Nat) (s : State), let q := tick t s; (st,
    ns) ∈ [(PortState.caps, 1000000), (.frDetect, 100000000), (.frTrain, 50000000), (.frLock, 20000000), (.frCaps, 10000000)] ∧ s.Inv ∧ (up q ∧
    portIn p st q ∧ (vget q.ring.ports p).since + ns ≤ q.now)) ∧
    (∃ (p : Nat) (st : _) (ns : _) (t : Nat) (s : State), let q := tick t s; (st,
    ns) ∈ [(PortState.stepUp, 10000000), (.align, 2000000), (.caps, 1000000), (.frDetect, 100000000), (.frTrain, 50000000), (.frLock, 20000000), (.frCaps, 10000000)] ∧
    s.Inv ∧ ((vget q.ring.ports p).state = st ∧ q.now < (vget q.ring.ports p).since + ns)) ∧
    (∃ (p : Nat) (st : _) (ns : _) (t : Nat) (s : State), let q := tick t s; (st,
    ns) ∈ [(PortState.stepUp, 10000000), (.align, 2000000), (.caps, 1000000), (.frDetect, 100000000), (.frTrain, 50000000), (.frLock, 20000000), (.frCaps, 10000000)] ∧
    s.Inv ∧ ((vget q.ring.ports p).state = st ∧ q.now < (vget q.ring.ports p).since + ns)) ∧
    (∃ (p : Nat) (st : _) (ns : _) (t : Nat) (s : State), let q := tick t s; (st,
    ns) ∈ [(PortState.stepUp, 10000000), (.align, 2000000), (.caps, 1000000), (.frDetect, 100000000), (.frTrain, 50000000), (.frLock, 20000000), (.frCaps, 10000000)] ∧
    s.Inv ∧ ((vget q.ring.ports p).state = st ∧ q.now < (vget q.ring.ports p).since + ns)) ∧
    (∃ (p : Nat) (st : _) (ns : _) (t : Nat) (s : State), let q := tick t s; (st,
    ns) ∈ [(PortState.stepUp, 10000000), (.align, 2000000), (.caps, 1000000), (.frDetect, 100000000), (.frTrain, 50000000), (.frLock, 20000000), (.frCaps, 10000000)] ∧
    s.Inv ∧ ((vget q.ring.ports p).state = st ∧ q.now < (vget q.ring.ports p).since + ns)) ∧
    (∃ (p : Nat) (st : _) (ns : _) (t : Nat) (s : State), let q := tick t s; (st,
    ns) ∈ [(PortState.stepUp, 10000000), (.align, 2000000), (.caps, 1000000), (.frDetect, 100000000), (.frTrain, 50000000), (.frLock, 20000000), (.frCaps, 10000000)] ∧
    s.Inv ∧ ((vget q.ring.ports p).state = st ∧ q.now < (vget q.ring.ports p).since + ns)) ∧
    (∃ (p : Nat) (t : Nat) (s : State), let q := tick t s; p < 3 ∧ s.Inv ∧ (up q ∧ isPortUp (vget q.ring.ports p).state = true)) ∧
    (∃ (p : Nat) (t : Nat) (s : State), let q := tick t s; s.Inv ∧ isPortUp (vget q.ring.ports p).state = false) ∧
    (∃ (t : Nat) (s : State), let q := tick t s; s.Inv ∧ (up q ∧ isPortUp (vget q.ring.ports 2).state = true)) ∧
    (∃ (p : Nat) (t : Nat) (s : State), let q := tick t s; p < 2 ∧ s.Inv ∧ (up q ∧ noRelays q ∧ isPortUp (vget q.ring.ports p).state = true ∧
    isPortUp (vget q.ring.ports (1 - p)).state = false)) ∧
    (∃ (p : Nat) (t : Nat) (s : State), let q := tick t s; p < 2 ∧ s.Inv ∧ (up q ∧ noRelays q ∧ isPortUp (vget q.ring.ports p).state = true ∧
    isPortUp (vget q.ring.ports (1 - p)).state = false)) ∧
    (∃ (p : Nat) (k : _) (t : Nat) (s : State), let q := tick t s; p < 2 ∧ s.Inv ∧ (up q ∧ noRelays q ∧ isPortUp (vget q.ring.ports p).state = true ∧
    sends (1 - p) q ∧ (vget q.ring.ports p).unacked.map (·.pkt) = [k] ∧ (vget q.ring.ports p).waiting = [])) ∧
    (∃ (p : Nat) (t : Nat) (s : State), let q := tick t s; s.Inv ∧ isPortUp (vget q.ring.ports p).state = false) ∧
    (∃ (p : Nat) (t : Nat) (s : State), let q := tick t s; s.Inv ∧ (up q ∧ portIn p .fenced q ∧ (vget q.ring.ports p).since + 100000000 ≤ q.now)) ∧
    (∃ (p : Nat) (t : Nat) (s : State), let q := tick t s; s.Inv ∧ (¬ portIn p .fenced q ∨ q.now < (vget q.ring.ports p).since + 100000000)) := ⟨
   ⟨1, 10000003,
   (setLinkPort 1 (fun x => { x with since := 3 }) (let b : State := upState; { b with cages := vset b.cages 1 { present := true, enabled := true } })),
   by decide +kernel, inv_of (by decide +kernel), by decide +kernel⟩,
   ⟨1, 1000, upState, inv_of (by decide +kernel), by decide +kernel⟩,
   ⟨1, 10000000,
   (setLinkPort 1 (fun x => { x with since := 3 }) (let b : State := upState; { b with cages := vset b.cages 1 { present := true, enabled := true } })),
   inv_of (by decide +kernel), by decide +kernel⟩,
   ⟨3, 1000, upState, inv_of (by decide +kernel), by decide +kernel⟩,
   ⟨2, 1000, (setLinkPort 2 (fun x => { x with state := .search }) upState), by decide +kernel, inv_of (by decide +kernel), by decide +kernel⟩,
   ⟨2, 1000, upState, inv_of (by decide +kernel), by decide +kernel⟩,
   ⟨1, ({ serial := 9, id := 4 } : RingCaps), 1000, (setLinkPort 1 (fun x => { x with state := .caps, nativeFails := 2 }) upState),
   by decide +kernel, inv_of (by decide +kernel), by decide +kernel⟩,
   ⟨1, ({ serial := 9, id := 4, forerunner := true } : RingCaps), 1000,
   (let b : State := (setLinkPort 1 (fun x => { x with state := .caps }) upState); { b with running := { b.running with ring := { b.running.ring with allowForerunner := true } } }),
   by decide +kernel, by decide +kernel, inv_of (by decide +kernel), by decide +kernel⟩,
   ⟨2, ({ serial := 9, id := 4, forerunner := true } : RingCaps), 1000,
   (let b : State := (setLinkPort 2 (fun x => { x with state := .caps }) upState); { b with running := { b.running with ring := { b.running.ring with allowForerunner := true } } }),
   by decide +kernel, inv_of (by decide +kernel), by decide +kernel⟩,
   ⟨0, ({ serial := 9, id := 4, forerunner := true } : RingCaps), 1000,
   (setLinkPort 0 (fun x => { x with state := .caps, nativeFails := 1 }) upState), by decide +kernel, inv_of (by decide +kernel), by decide +kernel⟩,
   ⟨1, 1000, (setLinkPort 1 (fun x => { x with state := .frCaps, nativeFails := 1, cause := .frTimeout }) upState), by decide +kernel,
   inv_of (by decide +kernel), by decide +kernel⟩,
   ⟨0, 1000, (setLinkPort 0 (fun x => { x with state := .frCaps }) upState), by decide +kernel, inv_of (by decide +kernel), by decide +kernel⟩,
   ⟨1, 1000, upState, inv_of (by decide +kernel), by decide +kernel⟩,
   ⟨3, 1000, upState, inv_of (by decide +kernel), by decide +kernel⟩,
   ⟨1, 1000, (setLinkPort 1 (fun x => { x with state := .stepUp }) upState), inv_of (by decide +kernel), by decide +kernel⟩,
   ⟨1, 1000, (setLinkPort 1 (fun x => { x with state := .frLock }) upState), inv_of (by decide +kernel), by decide +kernel⟩,
   ⟨1, 1000, upState, inv_of (by decide +kernel), by decide +kernel⟩,
   ⟨1000, (setLinkPort 2 (fun x => { x with state := .align, nativeFails := 1, cause := .alignTimeout }) upState), inv_of (by decide +kernel),
   by decide +kernel⟩,
   ⟨1, 1000, (setLinkPort 1 (fun x => { x with state := .align, nativeFails := 1, cause := .alignTimeout }) upState), by decide +kernel,
   inv_of (by decide +kernel), by decide +kernel⟩,
   ⟨1, 1000,
   (setLinkPort 0 (fun x => { x with state := .up }) (setLinkPort 1 (fun x => { x with state := .align, nativeFails := 1, cause := .alignTimeout }) (let b : State := upState; { b with ring := { b.ring with folded := true } }))),
   by decide +kernel, inv_of (by decide +kernel), by decide +kernel⟩,
   ⟨1, 1000, upState, inv_of (by decide +kernel), by decide +kernel⟩,
   ⟨1, 1000, (setLinkPort 1 (fun x => { x with state := .frDetect }) upState), inv_of (by decide +kernel), by decide +kernel⟩,
   ⟨1, 1000, upState, inv_of (by decide +kernel), by decide +kernel⟩,
   ⟨1, 1000, (setLinkPort 1 (fun x => { x with state := .frTrain }) upState), inv_of (by decide +kernel), by decide +kernel⟩,
   ⟨1, 1000, upState, inv_of (by decide +kernel), by decide +kernel⟩,
   ⟨1, PortState.stepUp, 10000000, 10000005, (setLinkPort 1 (fun x => { x with since := 5, state := .stepUp, nativeFails := 1 }) upState),
   by decide +kernel, inv_of (by decide +kernel), by decide +kernel⟩,
   ⟨1, PortState.align, 2000000, 2000005, (setLinkPort 1 (fun x => { x with since := 5, state := .align, nativeFails := 1 }) upState),
   by decide +kernel, inv_of (by decide +kernel), by decide +kernel⟩,
   ⟨1, PortState.align, 2000000, 2000005,
   (setLinkPort 1 (fun x => { x with since := 5, lowRate := true, state := .align, nativeFails := 1 }) upState), by decide +kernel,
   inv_of (by decide +kernel), by decide +kernel⟩,
   ⟨2, PortState.caps, 1000000, 1000005, (setLinkPort 2 (fun x => { x with since := 5, state := .caps, nativeFails := 1 }) upState),
   by decide +kernel, inv_of (by decide +kernel), by decide +kernel⟩,
   ⟨2, PortState.frDetect, 100000000, 100000005, (setLinkPort 2 (fun x => { x with since := 5, state := .frDetect, nativeFails := 1 }) upState),
   by decide +kernel, inv_of (by decide +kernel), by decide +kernel⟩,
   ⟨2, PortState.frTrain, 50000000, 50000005, (setLinkPort 2 (fun x => { x with since := 5, state := .frTrain, nativeFails := 1 }) upState),
   by decide +kernel, inv_of (by decide +kernel), by decide +kernel⟩,
   ⟨2, PortState.frLock, 20000000, 20000005, (setLinkPort 2 (fun x => { x with since := 5, state := .frLock, nativeFails := 1 }) upState),
   by decide +kernel, inv_of (by decide +kernel), by decide +kernel⟩,
   ⟨2, PortState.frCaps, 10000000, 10000005, (setLinkPort 2 (fun x => { x with since := 5, state := .frCaps, nativeFails := 1 }) upState),
   by decide +kernel, inv_of (by decide +kernel), by decide +kernel⟩,
   ⟨2, PortState.caps, 1000000, 1000004, (setLinkPort 2 (fun x => { x with since := 5, state := .caps, nativeFails := 1 }) upState),
   by decide +kernel, inv_of (by decide +kernel), by decide +kernel⟩,
   ⟨2, PortState.frDetect, 100000000, 100000004, (setLinkPort 2 (fun x => { x with since := 5, state := .frDetect, nativeFails := 1 }) upState),
   by decide +kernel, inv_of (by decide +kernel), by decide +kernel⟩,
   ⟨2, PortState.frTrain, 50000000, 50000004, (setLinkPort 2 (fun x => { x with since := 5, state := .frTrain, nativeFails := 1 }) upState),
   by decide +kernel, inv_of (by decide +kernel), by decide +kernel⟩,
   ⟨2, PortState.frLock, 20000000, 20000004, (setLinkPort 2 (fun x => { x with since := 5, state := .frLock, nativeFails := 1 }) upState),
   by decide +kernel, inv_of (by decide +kernel), by decide +kernel⟩,
   ⟨2, PortState.frCaps, 10000000, 10000004, (setLinkPort 2 (fun x => { x with since := 5, state := .frCaps, nativeFails := 1 }) upState),
   by decide +kernel, inv_of (by decide +kernel), by decide +kernel⟩,
   ⟨2, 1000, (setLinkPort 2 (fun x => { x with state := .frUp }) upState), by decide +kernel, inv_of (by decide +kernel), by decide +kernel⟩,
   ⟨2, 1000, upState, inv_of (by decide +kernel), by decide +kernel⟩,
   ⟨1000,
   (setLinkPort 2 (fun x => { x with state := .up, neighbour := some { serial := 9 }, unacked := [{ pkt := { src := 4, dst := 0xFE, seq := 8 }, sentAt := 7 }] }) upState),
   inv_of (by decide +kernel), by decide +kernel⟩,
   ⟨1, 1000,
   (setLinkPort 1 (fun x => { x with state := .up, neighbour := some { serial := 9 }, unacked := [{ pkt := { src := 4, dst := 0xFE, seq := 8 }, sentAt := 7 }] }) (let b : State := upState; { b with ring := { b.ring with modules := [{ serial := 9, hopsEast := some 2, hopsWest := some 1 }] } })),
   by decide +kernel, inv_of (by decide +kernel), by decide +kernel⟩,
   ⟨0, 1000,
   (setLinkPort 0 (fun x => { x with state := .up, neighbour := some { serial := 9 }, unacked := [{ pkt := { src := 4, dst := 0xFE, seq := 8 }, sentAt := 7 }] }) (let b : State := upState; { b with ring := { b.ring with modules := [{ serial := 9, hopsEast := some 2 }] } })),
   by decide +kernel, inv_of (by decide +kernel), by decide +kernel⟩,
   ⟨0, ({ src := 4, dst := 0xFE, seq := 8 } : RingPkt), 1000,
   (setLinkPort 1 (fun x => { x with state := .up, nextSeq := 55 }) (setLinkPort 0 (fun x => { x with state := .up, neighbour := some { serial := 9 }, unacked := [{ pkt := { src := 4, dst := 0xFE, seq := 8 }, sentAt := 7 }] }) (let b : State := upState; { b with ring := { b.ring with modules := [{ serial := 9, hopsEast := some 2, hopsWest := some 1 }] } }))),
   by decide +kernel, inv_of (by decide +kernel), by decide +kernel⟩,
   ⟨1, 1000, upState, inv_of (by decide +kernel), by decide +kernel⟩,
   ⟨1, 100000006,
   (setLinkPort 1 (fun x => { x with state := .fenced, since := 6 }) (let b : State := upState; { b with faults := { b.faults with fences := [⟨15, 1, 3⟩, ⟨15, 0, 4⟩, ⟨9, 1, 5⟩] } })),
   inv_of (by decide +kernel), by decide +kernel⟩,
   ⟨1, 100000005,
   (setLinkPort 1 (fun x => { x with state := .fenced, since := 6 }) (let b : State := upState; { b with faults := { b.faults with fences := [⟨15, 1, 3⟩, ⟨15, 0, 4⟩, ⟨9, 1, 5⟩] } })),
   inv_of (by decide +kernel), by decide +kernel⟩⟩

theorem wit_RingPackets :
    (∃ (p : Nat) (ok : Bool) (t : Nat) (s : State), let q := tick t s; s.Inv ∧ (ok = false ∨ 3 ≤ p ∨ isPortUp (vget q.ring.ports p).state = false)) ∧
    (∃ (p : Nat) (ok : Bool) (t : Nat) (s : State), let q := tick t s; s.Inv ∧ (ok = false ∨ 3 ≤ p ∨ isPortUp (vget q.ring.ports p).state = false)) ∧
    (∃ (p : Nat) (k : RingPkt) (t : Nat) (s : State), let q := tick t s; p < 3 ∧ s.Inv ∧ (up q ∧ isPortUp (vget q.ring.ports p).state = true ∧
    (p = 2 ∨ q.ring.enumerated = true ∧ (k.dst = q.ring.moduleId ∨ k.src = q.ring.moduleId)))) ∧
    (∃ (p : Nat) (k : RingPkt) (t : Nat) (s : State), let q := tick t s; p < 3 ∧ s.Inv ∧ (up q ∧ isPortUp (vget q.ring.ports p).state = true ∧
    (p = 2 ∨ q.ring.enumerated = true ∧ (k.dst = q.ring.moduleId ∨ k.src = q.ring.moduleId)))) ∧
    (∃ (p : Nat) (k : RingPkt) (t : Nat) (s : State), let q := tick t s; p < 2 ∧ k.dst = 0xFE ∧ k.cls ≠ 1 ∧ k.cls ≠ 2 ∧ s.Inv ∧ (up q ∧
    isPortUp (vget q.ring.ports p).state = true ∧ passing k q ∧ sends (1 - p) q)) ∧
    (∃ (p : Nat) (k : RingPkt) (m : _) (q : _) (t : Nat) (s : State), let z := tick t s; p < 2 ∧ q < 2 ∧ k.dst ≠ 0xFE ∧ k.cls ≠ 1 ∧ k.cls ≠ 2 ∧
    s.Inv ∧ (up z ∧ isPortUp (vget z.ring.ports p).state = true ∧ passing k z ∧ z.ring.modules = [m] ∧ m.id = some k.dst ∧ sends q z ∧
    (if q = 0 then m.hopsEast.isSome = true ∧ (m.hopsWest = none ∨ m.hopsEast.getD 0 ≤ m.hopsWest.getD 0) else m.hopsWest.isSome = true ∧
    (m.hopsEast = none ∨ m.hopsWest.getD 0 < m.hopsEast.getD 0)))) ∧
    (∃ (p : Nat) (k : RingPkt) (m : _) (q : _) (t : Nat) (s : State), let z := tick t s; p < 2 ∧ q < 2 ∧ k.dst ≠ 0xFE ∧ k.cls ≠ 1 ∧ k.cls ≠ 2 ∧
    s.Inv ∧ (up z ∧ isPortUp (vget z.ring.ports p).state = true ∧ passing k z ∧ z.ring.modules = [m] ∧ m.id = some k.dst ∧ sends q z ∧
    (if q = 0 then m.hopsEast.isSome = true ∧ (m.hopsWest = none ∨ m.hopsEast.getD 0 ≤ m.hopsWest.getD 0) else m.hopsWest.isSome = true ∧
    (m.hopsEast = none ∨ m.hopsWest.getD 0 < m.hopsEast.getD 0)))) ∧
    (∃ (p : Nat) (k : RingPkt) (m : _) (q : _) (t : Nat) (s : State), let z := tick t s; p < 2 ∧ q < 2 ∧ k.dst ≠ 0xFE ∧ k.cls ≠ 1 ∧ k.cls ≠ 2 ∧
    s.Inv ∧ (up z ∧ isPortUp (vget z.ring.ports p).state = true ∧ passing k z ∧ z.ring.modules = [m] ∧ m.id = some k.dst ∧ sends q z ∧
    (if q = 0 then m.hopsEast.isSome = true ∧ (m.hopsWest = none ∨ m.hopsEast.getD 0 ≤ m.hopsWest.getD 0) else m.hopsWest.isSome = true ∧
    (m.hopsEast = none ∨ m.hopsWest.getD 0 < m.hopsEast.getD 0)))) ∧
    (∃ (p : Nat) (k : RingPkt) (m : _) (q : _) (t : Nat) (s : State), let z := tick t s; p < 2 ∧ q < 2 ∧ k.dst ≠ 0xFE ∧ k.cls ≠ 1 ∧ k.cls ≠ 2 ∧
    s.Inv ∧ (up z ∧ isPortUp (vget z.ring.ports p).state = true ∧ passing k z ∧ z.ring.modules = [m] ∧ m.id = some k.dst ∧ sends q z ∧
    (if q = 0 then m.hopsEast.isSome = true ∧ (m.hopsWest = none ∨ m.hopsEast.getD 0 ≤ m.hopsWest.getD 0) else m.hopsWest.isSome = true ∧
    (m.hopsEast = none ∨ m.hopsWest.getD 0 < m.hopsEast.getD 0)))) ∧
    (∃ (p : Nat) (k : RingPkt) (t : Nat) (s : State), let q := tick t s; p < 2 ∧ k.dst = 0xFE ∧ k.cls = 2 ∧ s.Inv ∧ (up q ∧
    isPortUp (vget q.ring.ports p).state = true ∧ passing k q ∧ (vget q.ring.ports (1 - p)).state = .frUp)) ∧
    (∃ (s : State) (p : Nat) (k : RingPkt), s.Inv ∧ up s ∧ p < 2 ∧ k.dst = 0xFE ∧ k.cls = 1 ∧ isPortUp (vget s.ring.ports p).state = true ∧
    passing k s ∧ sends (1 - p) s) ∧
    (∃ (p : Nat) (n : Nat) (u : _) (t : Nat) (s : State), let q := tick t s; p < 3 ∧ u.pkt.seq = n ∧ s.Inv ∧ (up q ∧
    isPortUp (vget q.ring.ports p).state = true ∧ (vget q.ring.ports p).unacked = [u] ∧ u.retried = false ∧ (vget q.ring.ports p).waiting = [])) ∧
    (∃ (p : Nat) (n : Nat) (u : _) (t : Nat) (s : State), let q := tick t s; p < 3 ∧ u.pkt.seq = n ∧ s.Inv ∧ (up q ∧
    isPortUp (vget q.ring.ports p).state = true ∧ (vget q.ring.ports p).unacked = [u] ∧ u.retried = true ∧ (vget q.ring.ports p).waiting = [] ∧
    firstIn 0x004 (currentStrip q) q ∧ firstIn 0x3E5 (currentStrip q) q)) ∧
    (∃ (p : Nat) (n : Nat) (u : _) (k : _) (ks : _) (t : Nat) (s : State), let q := tick t s; p < 3 ∧ u.pkt.seq = n ∧ u.retried = false ∧ s.Inv ∧
    (up q ∧ isPortUp (vget q.ring.ports p).state = true ∧ (vget q.ring.ports p).unacked = [u] ∧ (vget q.ring.ports p).waiting = k :: ks)) ∧
    (∃ (p : Nat) (n : Nat) (t : Nat) (s : State), let q := tick t s; s.Inv ∧ (∀ u ∈ (vget q.ring.ports p).unacked, u.pkt.seq ≠ n)) ∧
    (∃ (p : Nat) (n : Nat) (u : _) (t : Nat) (s : State), let q := tick t s; p < 3 ∧ u.pkt.seq = n ∧ u.retried = false ∧ s.Inv ∧ (up q ∧
    (vget q.ring.ports p).unacked = [u] ∧ u.sentAt + 20000 ≤ q.now)) ∧
    (∃ (t : Nat) (s : State) (p : Nat) (n : Nat) (u : Unacked), s.Inv ∧ up s ∧ p < 3 ∧ u.pkt.seq = n ∧ u.retried = true ∧
    (vget s.ring.ports p).unacked = [u] ∧ (vget s.ring.ports p).waiting = [] ∧ noRelays s ∧ u.sentAt + 20000 ≤ max s.now t) ∧
    (∃ (p : Nat) (n : Nat) (u : _) (t : Nat) (s : State), let q := tick t s; u.pkt.seq = n ∧ s.Inv ∧ ((vget q.ring.ports p).unacked = [u] ∧
    q.now < u.sentAt + 20000)) ∧
    (∃ (ms : List RingModule) (f : Bool) (t : Nat) (s : State), let q := tick t s; s.Inv ∧ (up q ∧ noRelays q ∧
    isPortUp (vget q.ring.ports 0).state = true ∧ isPortUp (vget q.ring.ports 1).state = true ∧ q.ring.folded ≠ f ∧ q.ring.modules = [] ∧ ∃ m ∈ ms,
    hasRoute m = true)) ∧
    (∃ (t : Nat) (s : State), let q := tick t s; s.Inv ∧ (up q ∧ noRelays q ∧ isPortUp (vget q.ring.ports 0).state = false ∧
    isPortUp (vget q.ring.ports 1).state = true)) ∧
    (∃ (t : Nat) (s : State), let q := tick t s; s.Inv ∧ (q.boot.stage ≠ 8 ∧ q.ring.gateway = false ∧ ∀ m ∈ q.ring.modules, m.gateway = false)) ∧
    (∃ (t : Nat) (s : State), let q := tick t s; s.Inv ∧ (q.boot.stage ≠ 8 ∧ q.ring.enumerated = true ∧ ∀ m ∈ q.ring.modules, m.id.isSome = true)) ∧
    (∃ (t : Nat) (s : State), let q := tick t s; s.Inv ∧ (up q ∧ q.boot.stage ≠ 8 ∧ q.ring.gateway = true ∧ q.ring.modules = [] ∧
    q.ring.enumerated = false)) ∧
    (∃ (k : Nat) (s : State) (m : RingModule), s.Inv ∧ up s ∧ s.boot.stage ≠ 8 ∧ s.ring.gateway = false ∧ s.ring.enumerated = false ∧
    s.ring.modules = [m] ∧ m.gateway = true ∧ m.hopsEast.isSome = true ∧ m.id = some k) ∧
    (∃ (k : Nat) (s : State) (m : RingModule), s.Inv ∧ up s ∧ s.boot.stage ≠ 8 ∧ s.ring.gateway = false ∧ s.ring.enumerated = false ∧
    s.ring.modules = [m] ∧ m.gateway = true ∧ m.hopsEast.isSome = true ∧ m.id = some k) := ⟨
   ⟨1, false, 1000,
   (setLinkPort 1 (fun x => { x with state := .up, nextSeq := 4294967295 }) (setLinkPort 0 (fun x => { x with state := .up, nextSeq := 20 }) (let b : State := upState; { b with ring := { b.ring with enumerated := true, moduleId := 6 } }))),
   inv_of (by decide +kernel), by decide +kernel⟩,
   ⟨1, true, 1000, upState, inv_of (by decide +kernel), by decide +kernel⟩,
   ⟨1, ({ src := 4, dst := 6, cls := 3, seq := 8, hops := 2, payload := le 8 5 ++ le 8 6 ++ leI 8 (-65536) ++ [4] ++ zeros 7 } : RingPkt), 1000,
   (setLinkPort 1 (fun x => { x with state := .up, nextSeq := 4294967295 }) (setLinkPort 0 (fun x => { x with state := .up, nextSeq := 20 }) (let b : State := upState; { b with ring := { b.ring with enumerated := true, moduleId := 6 } }))),
   by decide +kernel, inv_of (by decide +kernel), by decide +kernel⟩,
   ⟨2, ({ src := 4, dst := 9, cls := 3, seq := 8, hops := 2, payload := le 8 5 ++ le 8 6 ++ leI 8 (-65536) ++ [4] ++ zeros 7 } : RingPkt), 1000,
   (setLinkPort 2 (fun x => { x with state := .up }) upState), by decide +kernel, inv_of (by decide +kernel), by decide +kernel⟩,
   ⟨0, ({ src := 4, dst := 254, cls := 3, seq := 8, hops := 2, payload := le 8 5 ++ le 8 6 ++ leI 8 (-65536) ++ [4] ++ zeros 7 } : RingPkt), 1000,
   (setLinkPort 1 (fun x => { x with state := .up, nextSeq := 4294967295 }) (setLinkPort 0 (fun x => { x with state := .up, nextSeq := 20 }) (let b : State := upState; { b with ring := { b.ring with enumerated := true, moduleId := 6 } }))),
   by decide +kernel, by decide +kernel, by decide +kernel, by decide +kernel, inv_of (by decide +kernel), by decide +kernel⟩,
   ⟨0, ({ src := 4, dst := 3, cls := 4, seq := 8, hops := 2, payload := le 8 5 ++ le 8 6 ++ leI 8 (-65536) ++ [4] ++ zeros 7 } : RingPkt),
   ({ serial := 9, id := some 3, hopsEast := some 2, hopsWest := some 2 } : RingModule), 0, 1000,
   (let b : State := (setLinkPort 1 (fun x => { x with state := .up, nextSeq := 4294967295 }) (setLinkPort 0 (fun x => { x with state := .up, nextSeq := 20 }) (let b : State := upState; { b with ring := { b.ring with enumerated := true, moduleId := 6 } }))); { b with ring := { b.ring with modules := [{ serial := 9, id := some 3, hopsEast := some 2, hopsWest := some 2 }] } }),
   by decide +kernel, by decide +kernel, by decide +kernel, by decide +kernel, by decide +kernel, inv_of (by decide +kernel), by decide +kernel⟩,
   ⟨0, ({ src := 4, dst := 3, cls := 4, seq := 8, hops := 2, payload := le 8 5 ++ le 8 6 ++ leI 8 (-65536) ++ [4] ++ zeros 7 } : RingPkt),
   ({ serial := 9, id := some 3, hopsEast := some 3, hopsWest := some 2 } : RingModule), 1, 1000,
   (let b : State := (setLinkPort 1 (fun x => { x with state := .up, nextSeq := 4294967295 }) (setLinkPort 0 (fun x => { x with state := .up, nextSeq := 20 }) (let b : State := upState; { b with ring := { b.ring with enumerated := true, moduleId := 6 } }))); { b with ring := { b.ring with modules := [{ serial := 9, id := some 3, hopsEast := some 3, hopsWest := some 2 }] } }),
   by decide +kernel, by decide +kernel, by decide +kernel, by decide +kernel, by decide +kernel, inv_of (by decide +kernel), by decide +kernel⟩,
   ⟨0, ({ src := 4, dst := 3, cls := 4, seq := 8, hops := 2, payload := le 8 5 ++ le 8 6 ++ leI 8 (-65536) ++ [4] ++ zeros 7 } : RingPkt),
   ({ serial := 9, id := some 3, hopsEast := none, hopsWest := some 2 } : RingModule), 1, 1000,
   (let b : State := (setLinkPort 1 (fun x => { x with state := .up, nextSeq := 4294967295 }) (setLinkPort 0 (fun x => { x with state := .up, nextSeq := 20 }) (let b : State := upState; { b with ring := { b.ring with enumerated := true, moduleId := 6 } }))); { b with ring := { b.ring with modules := [{ serial := 9, id := some 3, hopsEast := none, hopsWest := some 2 }] } }),
   by decide +kernel, by decide +kernel, by decide +kernel, by decide +kernel, by decide +kernel, inv_of (by decide +kernel), by decide +kernel⟩,
   ⟨0, ({ src := 4, dst := 3, cls := 4, seq := 8, hops := 2, payload := le 8 5 ++ le 8 6 ++ leI 8 (-65536) ++ [4] ++ zeros 7 } : RingPkt),
   ({ serial := 9, id := some 3, hopsEast := some 3, hopsWest := none } : RingModule), 0, 1000,
   (let b : State := (setLinkPort 1 (fun x => { x with state := .up, nextSeq := 4294967295 }) (setLinkPort 0 (fun x => { x with state := .up, nextSeq := 20 }) (let b : State := upState; { b with ring := { b.ring with enumerated := true, moduleId := 6 } }))); { b with ring := { b.ring with modules := [{ serial := 9, id := some 3, hopsEast := some 3, hopsWest := none }] } }),
   by decide +kernel, by decide +kernel, by decide +kernel, by decide +kernel, by decide +kernel, inv_of (by decide +kernel), by decide +kernel⟩,
   ⟨0, ({ src := 4, dst := 254, cls := 2, seq := 8, hops := 2, payload := le 8 5 ++ le 8 6 ++ leI 8 (-65536) ++ [4] ++ zeros 7 } : RingPkt), 1000,
   (setLinkPort 1 (fun x => { x with state := .frUp }) (setLinkPort 1 (fun x => { x with state := .up, nextSeq := 4294967295 }) (setLinkPort 0 (fun x => { x with state := .up, nextSeq := 20 }) (let b : State := upState; { b with ring := { b.ring with enumerated := true, moduleId := 6 } })))),
   by decide +kernel, by decide +kernel, by decide +kernel, inv_of (by decide +kernel), by decide +kernel⟩,
   ⟨(let b : State := (setLinkPort 1 (fun x => { x with state := .up, nextSeq := 4294967295 }) (setLinkPort 0 (fun x => { x with state := .up, nextSeq := 20 }) (let b : State := upState; { b with ring := { b.ring with enumerated := true, moduleId := 6 } }))); { b with time := { b.time with linkDelays := .replicate 2 [40, 44] } }),
   0, ({ src := 4, dst := 254, cls := 1, seq := 8, hops := 2, payload := le 8 5 ++ le 8 6 ++ leI 8 (-65536) ++ [4] ++ zeros 7 } : RingPkt),
   inv_of (by decide +kernel), by decide +kernel, by decide +kernel, by decide +kernel, by decide +kernel, by decide +kernel, by decide +kernel,
   by decide +kernel⟩,
   ⟨1, 8, ({ pkt := { src := 4, dst := 0xFE, seq := 8 }, sentAt := 7, retried := false } : Unacked), 1000,
   (setLinkPort 1 (fun x => { x with unacked := [({ pkt := { src := 4, dst := 0xFE, seq := 8 }, sentAt := 7, retried := false } : Unacked)] }) (setLinkPort 1 (fun x => { x with state := .up, nextSeq := 4294967295 }) (setLinkPort 0 (fun x => { x with state := .up, nextSeq := 20 }) (let b : State := upState; { b with ring := { b.ring with enumerated := true, moduleId := 6 } })))),
   by decide +kernel, by decide +kernel, inv_of (by decide +kernel), by decide +kernel⟩,
   ⟨1, 8, ({ pkt := { src := 4, dst := 0xFE, seq := 8 }, sentAt := 7, retried := true } : Unacked), 1000,
   (setLinkPort 1 (fun x => { x with unacked := [({ pkt := { src := 4, dst := 0xFE, seq := 8 }, sentAt := 7, retried := true } : Unacked)] }) (setLinkPort 1 (fun x => { x with state := .up, nextSeq := 4294967295 }) (setLinkPort 0 (fun x => { x with state := .up, nextSeq := 20 }) (let b : State := upState; { b with ring := { b.ring with enumerated := true, moduleId := 6 } })))),
   by decide +kernel, by decide +kernel, inv_of (by decide +kernel), by decide +kernel⟩,
   ⟨1, 8, ({ pkt := { src := 4, dst := 0xFE, seq := 8 }, sentAt := 7, retried := false } : Unacked),
   ({ src := 4, dst := 9, cls := 3, seq := 8, hops := 2, payload := le 8 5 ++ le 8 6 ++ leI 8 (-65536) ++ [4] ++ zeros 7 } : RingPkt),
   [(({ src := 4, dst := 8, cls := 3, seq := 8, hops := 2, payload := le 8 5 ++ le 8 6 ++ leI 8 (-65536) ++ [4] ++ zeros 7 } : RingPkt))], 1000,
   (setLinkPort 1 (fun x => { x with unacked := [({ pkt := { src := 4, dst := 0xFE, seq := 8 }, sentAt := 7, retried := false } : Unacked)], waiting := [({ src := 4, dst := 9, cls := 3, seq := 8, hops := 2, payload := le 8 5 ++ le 8 6 ++ leI 8 (-65536) ++ [4] ++ zeros 7 } : RingPkt), ({ src := 4, dst := 8, cls := 3, seq := 8, hops := 2, payload := le 8 5 ++ le 8 6 ++ leI 8 (-65536) ++ [4] ++ zeros 7 } : RingPkt)] }) (setLinkPort 1 (fun x => { x with state := .up, nextSeq := 4294967295 }) (setLinkPort 0 (fun x => { x with state := .up, nextSeq := 20 }) (let b : State := upState; { b with ring := { b.ring with enumerated := true, moduleId := 6 } })))),
   by decide +kernel, by decide +kernel, by decide +kernel, inv_of (by decide +kernel), by decide +kernel⟩,
   ⟨1, 9, 1000,
   (setLinkPort 1 (fun x => { x with unacked := [({ pkt := { src := 4, dst := 0xFE, seq := 8 }, sentAt := 7, retried := false } : Unacked)] }) (setLinkPort 1 (fun x => { x with state := .up, nextSeq := 4294967295 }) (setLinkPort 0 (fun x => { x with state := .up, nextSeq := 20 }) (let b : State := upState; { b with ring := { b.ring with enumerated := true, moduleId := 6 } })))),
   inv_of (by decide +kernel), by decide +kernel⟩,
   ⟨1, 8, ({ pkt := { src := 4, dst := 0xFE, seq := 8 }, sentAt := 7, retried := false } : Unacked), 20007,
   (setLinkPort 1 (fun x => { x with unacked := [({ pkt := { src := 4, dst := 0xFE, seq := 8 }, sentAt := 7, retried := false } : Unacked)] }) (setLinkPort 1 (fun x => { x with state := .up, nextSeq := 4294967295 }) (setLinkPort 0 (fun x => { x with state := .up, nextSeq := 20 }) (let b : State := upState; { b with ring := { b.ring with enumerated := true, moduleId := 6 } })))),
   by decide +kernel, by decide +kernel, by decide +kernel, inv_of (by decide +kernel), by decide +kernel⟩,
   ⟨20007,
   (setLinkPort 1 (fun x => { x with unacked := [({ pkt := { src := 4, dst := 0xFE, seq := 8 }, sentAt := 7, retried := true } : Unacked)] }) (setLinkPort 1 (fun x => { x with state := .up, nextSeq := 4294967295 }) (setLinkPort 0 (fun x => { x with state := .up, nextSeq := 20 }) (let b : State := upState; { b with ring := { b.ring with enumerated := true, moduleId := 6 } })))),
   1, 8, ({ pkt := { src := 4, dst := 0xFE, seq := 8 }, sentAt := 7, retried := true } : Unacked), inv_of (by decide +kernel), by decide +kernel,
   by decide +kernel, by decide +kernel, by decide +kernel, by decide +kernel, by decide +kernel, by decide +kernel, by decide +kernel⟩,
   ⟨1, 8, ({ pkt := { src := 4, dst := 0xFE, seq := 8 }, sentAt := 7, retried := true } : Unacked), 20006,
   (setLinkPort 1 (fun x => { x with unacked := [({ pkt := { src := 4, dst := 0xFE, seq := 8 }, sentAt := 7, retried := true } : Unacked)] }) (setLinkPort 1 (fun x => { x with state := .up, nextSeq := 4294967295 }) (setLinkPort 0 (fun x => { x with state := .up, nextSeq := 20 }) (let b : State := upState; { b with ring := { b.ring with enumerated := true, moduleId := 6 } })))),
   by decide +kernel, inv_of (by decide +kernel), by decide +kernel⟩,
   ⟨([{ serial := 9, id := some 3, hopsEast := some 1 }] : List RingModule), true, 1000,
   (setLinkPort 1 (fun x => { x with state := .up, nextSeq := 4294967295 }) (setLinkPort 0 (fun x => { x with state := .up, nextSeq := 20 }) (let b : State := upState; { b with ring := { b.ring with enumerated := true, moduleId := 6 } }))),
   inv_of (by decide +kernel), by decide +kernel⟩,
   ⟨1000,
   (setLinkPort 0 (fun x => { x with state := .down }) (setLinkPort 1 (fun x => { x with state := .up, nextSeq := 4294967295 }) (setLinkPort 0 (fun x => { x with state := .up, nextSeq := 20 }) (let b : State := upState; { b with ring := { b.ring with enumerated := true, moduleId := 6 } })))),
   inv_of (by decide +kernel), by decide +kernel⟩,
   ⟨1000, upState, inv_of (by decide +kernel), by decide +kernel⟩,
   ⟨1000, (let b : State := upState; { b with ring := { b.ring with enumerated := true, gateway := true, moduleId := 4 } }),
   inv_of (by decide +kernel), by decide +kernel⟩,
   ⟨1000, (let b : State := upState; { b with ring := { b.ring with gateway := true } }), inv_of (by decide +kernel), by decide +kernel⟩,
   ⟨0,
   (let b : State := upState; { b with ring := { b.ring with modules := [({ serial := 9, id := some 0, gateway := true, hopsEast := some 1 } : RingModule)] } }),
   ({ serial := 9, id := some 0, gateway := true, hopsEast := some 1 } : RingModule), inv_of (by decide +kernel), by decide +kernel,
   by decide +kernel, by decide +kernel, by decide +kernel, by decide +kernel, by decide +kernel, by decide +kernel, by decide +kernel⟩,
   ⟨4,
   (let b : State := upState; { b with ring := { b.ring with modules := [({ serial := 9, id := some 4, gateway := true, hopsEast := some 1 } : RingModule)] } }),
   ({ serial := 9, id := some 4, gateway := true, hopsEast := some 1 } : RingModule), inv_of (by decide +kernel), by decide +kernel,
   by decide +kernel, by decide +kernel, by decide +kernel, by decide +kernel, by decide +kernel, by decide +kernel, by decide +kernel⟩⟩

theorem wit_RingRelays :
    (∃ (m : Nat) (q : Nat) (t : Nat) (s : State), let z := tick t s; s.Inv ∧ (∀ r ∈ z.ring.relays, r.srcModule ≠ m ∨ r.srcQueue ≠ q)) ∧
    (∃ (m : Nat) (q : Nat) (n : _) (p : RelayPatch) (k : RelayState) (t : Nat) (s : State), let z := tick t s; n < 16 ∧ p.header = [] ∧
    k.localQueue = n ∧ k.srcModule = m ∧ k.srcQueue = q ∧ s.Inv ∧ (up z ∧ partUp z 14 = true ∧ partUp z 15 = true ∧ alone z ∧ z.ring.relays = [k] ∧
    z.ring.sources = [] ∧ queueTakes n z ∧ (vget z.scribe.queues n).live = [] ∧ (vget z.scribe.queues n).rd = (vget z.scribe.queues n).wr ∧
    nextSlot z < ledgerSlots)) ∧
    (∃ (m : Nat) (q : Nat) (n : _) (rec_ : Bytes) (k : RelayState) (t : Nat) (s : State), let z := tick t s; n < 16 ∧ k.localQueue = n ∧
    k.srcModule = m ∧ k.srcQueue = q ∧ s.Inv ∧ (up z ∧ partUp z 14 = true ∧ partUp z 15 = true ∧ z.ring.relays = [k] ∧
    (vget z.scribe.queues n).on = true ∧ (vget z.scribe.queues n).live ≠ [] ∧ later32 (vget z.scribe.queues n).wr (u32 rec_ 0) = true)) ∧
    (∃ (m : Nat) (q : Nat) (n : _) (k : RelayState) (t : Nat) (s : State), let z := tick t s; n < 16 ∧ k.localQueue = n ∧ k.srcModule = m ∧
    k.srcQueue = q ∧ s.Inv ∧ (z.ring.relays = [k] ∧ (vget z.scribe.queues n).on = false)) ∧
    (∃ (q : Nat) (n : Nat) (s : State) (k : RelayState) (l : LiveRec), s.Inv ∧ q < 16 ∧ l.seq = n ∧ k.srcQueue = q ∧ n + 1 < 4294967296 ∧ up s ∧
    partUp s 14 = true ∧ partUp s 15 = true ∧ s.ring.sources = [k] ∧ (vget s.scribe.queues q).live = [l] ∧ (vget s.scribe.queues q).rel = n ∧
    (vget s.scribe.queues q).rd = n + 1 ∧ ticketLive s.ledger l.ticket = true ∧ l.patchTicket = none ∧ (vget s.scribe.queues q).patches = []) ∧
    (∃ (q : Nat) (s : State), 16 ≤ q ∧ s.Inv) ∧
    (∃ (q : Nat) (k : RelayState) (a : _) (t : Nat) (s : State), let z := tick t s; k.localQueue = q ∧ k.stallSince = some a ∧
    k.stallRaised = false ∧ s.Inv ∧ (up z ∧ z.ring.relays = [k] ∧ z.ring.sources = [] ∧ a + 10000000 ≤ z.now)) ∧
    (∃ (t : Nat) (s : State), let z := tick t s; s.Inv ∧ (∀ k ∈ z.ring.relays ++ z.ring.sources,
    k.stallRaised = true ∨ k.stallSince = none ∨ z.now < k.stallSince.getD 0 + 10000000)) := ⟨
   ⟨3, 2, 1000, upState, inv_of (by decide +kernel), by decide +kernel⟩,
   ⟨3, 2, 4, ({} : RelayPatch), ({ localQueue := 4, srcModule := 3, srcQueue := 2, stallSince := some 5, stallRaised := true } : RelayState), 1000,
   (let b : State := (setQueue 4 (fun x => { x with on := true, cap := 64, base := 4096, wr := 7, rd := 7, rel := 7 }) upState); { b with ring := { b.ring with relays := [({ localQueue := 4, srcModule := 3, srcQueue := 2, stallSince := some 5, stallRaised := true } : RelayState)] } }),
   by decide +kernel, by decide +kernel, by decide +kernel, by decide +kernel, by decide +kernel, inv_of (by decide +kernel), by decide +kernel⟩,
   ⟨3, 2, 4, (le 4 6 ++ zeros 60 : Bytes),
   ({ localQueue := 4, srcModule := 3, srcQueue := 2, stallSince := some 5, stallRaised := true } : RelayState), 1000,
   (let b : State := (setQueue 4 (fun x => { x with on := true, cap := 64, base := 4096, wr := 7, rd := 7, rel := 7, live := [{ seq := 6 }] }) upState); { b with ring := { b.ring with relays := [({ localQueue := 4, srcModule := 3, srcQueue := 2, stallSince := some 5, stallRaised := true } : RelayState)] } }),
   by decide +kernel, by decide +kernel, by decide +kernel, by decide +kernel, inv_of (by decide +kernel), by decide +kernel⟩,
   ⟨3, 2, 4, ({ localQueue := 4, srcModule := 3, srcQueue := 2, stallSince := some 5, stallRaised := true } : RelayState), 1000,
   (let b : State := upState; { b with ring := { b.ring with relays := [({ localQueue := 4, srcModule := 3, srcQueue := 2, stallSince := some 5, stallRaised := true } : RelayState)] } }),
   by decide +kernel, by decide +kernel, by decide +kernel, by decide +kernel, inv_of (by decide +kernel), by decide +kernel⟩,
   ⟨2, 6,
   (let b : State := (let b : State := (setQueue 2 (fun x => { x with on := true, cap := 64, base := 4096, wr := 7, rd := 7, rel := 6, live := [{ seq := 6, ticket := 0 }] }) upState); { b with ring := { b.ring with sources := [({ localQueue := 0, srcModule := 3, srcQueue := 2, stallSince := some 5, stallRaised := true } : RelayState)] } }); { b with ledger := { b.ledger with issued := [0], issuedCount := 1 } }),
   ({ localQueue := 0, srcModule := 3, srcQueue := 2, stallSince := some 5, stallRaised := true } : RelayState),
   ({ seq := 6, ticket := 0 } : LiveRec), inv_of (by decide +kernel), by decide +kernel, by decide +kernel, by decide +kernel, by decide +kernel,
   by decide +kernel, by decide +kernel, by decide +kernel, by decide +kernel, by decide +kernel, by decide +kernel, by decide +kernel,
   by decide +kernel, by decide +kernel, by decide +kernel⟩,
   ⟨16, upState, by decide +kernel, inv_of (by decide +kernel)⟩,
   ⟨4, ({ localQueue := 4, srcModule := 3, srcQueue := 2, stallSince := some 5, stallRaised := false } : RelayState), 5, 10000005,
   (let b : State := upState; { b with ring := { b.ring with relays := [({ localQueue := 4, srcModule := 3, srcQueue := 2, stallSince := some 5, stallRaised := false } : RelayState)] } }),
   by decide +kernel, by decide +kernel, by decide +kernel, inv_of (by decide +kernel), by decide +kernel⟩,
   ⟨10000004,
   (let b : State := upState; { b with ring := { b.ring with relays := [({ localQueue := 4, srcModule := 3, srcQueue := 2, stallSince := some 5, stallRaised := false } : RelayState)] } }),
   inv_of (by decide +kernel), by decide +kernel⟩⟩

theorem wit_PairRolesAndFailover :
    (∃ (c : HostCmd) (s : State), Ready specPairSwitch c s ∧ acceptsMore s ∧ u8 c.params 0 = 0 ∧ s.pair.role = .active ∧ s.pair.partnerRole = 3 ∧
    s.pair.switchAt = none ∧ s.pair.switchTicket = none ∧ noStop s ∧ s.pair.work = [] ∧ s.pair.snapshot = none ∧ s.gauge.trigEnabled = true ∧
    (vget s.gauge.slots 0).pend ≠ []) ∧
    (∃ (c : HostCmd) (s : State), Ready specPairSwitch c s ∧ acceptsMore s ∧ u8 c.params 0 = 1 ∧ s.pair.role = .active ∧ s.pair.switchTicket = none ∧
    noStop s ∧ s.pair.partnerMarks = []) ∧
    (∃ (c : HostCmd) (s : State), Ready specPairSwitch c s ∧ ((u8 c.params 0 = 1 ∧ s.pair.role = .solo) ∨ (u8 c.params 0 = 0 ∧
    (s.pair.role ≠ .active ∨ s.pair.partnerRole ≠ 3 ∨ s.pair.switchAt.isSome = true)))) ∧
    (∃ (c : HostCmd) (s : State), Ready specPairSwitch c s ∧ ((u8 c.params 0 = 1 ∧ s.pair.role = .solo) ∨ (u8 c.params 0 = 0 ∧
    (s.pair.role ≠ .active ∨ s.pair.partnerRole ≠ 3 ∨ s.pair.switchAt.isSome = true)))) ∧
    (∃ (c : HostCmd) (s : State), Ready specPairSwitch c s ∧ 1 < u8 c.params 0) ∧
    (∃ (t : Nat) (s : State), let q := tick t s; s.Inv ∧ (mirrors q ∧ q.pair.role ≠ .pairing)) ∧
    (∃ (h : PairHello) (t : Nat) (s : State), let q := tick t s; s.Inv ∧ (mirrors q ∧ q.pair.role = .pairing ∧
    ((cfgNow q).pair.portHome ^^^ h.portHome ≠ 4095 ∨ (cfgNow q).pair.axisOwner &&& h.axisOwner ≠ 0))) ∧
    (∃ (h : PairHello) (t : Nat) (s : State), let q := tick t s; s.Inv ∧ (mirrors q ∧ q.pair.role = .pairing ∧
    ((cfgNow q).pair.portHome ^^^ h.portHome ≠ 4095 ∨ (cfgNow q).pair.axisOwner &&& h.axisOwner ≠ 0))) ∧
    (∃ (h : PairHello) (t : Nat) (s : State), let q := tick t s; h.preferActive = false ∧ h.partnerSerial = 0 ∧ s.Inv ∧ (mirrors q ∧
    q.pair.role = .pairing ∧ (cfgNow q).pair.portHome ^^^ h.portHome = 4095 ∧ (cfgNow q).pair.axisOwner &&& h.axisOwner = 0 ∧
    (cfgNow q).pair.partner = h.serial ∧ (cfgNow q).pair.preferActive = true)) ∧
    (∃ (h : PairHello) (t : Nat) (s : State), let q := tick t s; h.preferActive = true ∧ h.partnerSerial = 0 ∧ s.Inv ∧ (mirrors q ∧
    q.pair.role = .pairing ∧ (cfgNow q).pair.portHome ^^^ h.portHome = 4095 ∧ (cfgNow q).pair.axisOwner &&& h.axisOwner = 0 ∧
    (cfgNow q).pair.partner = h.serial ∧ (cfgNow q).pair.preferActive = false ∧ q.gauge.trigEnabled = false)) ∧
    (∃ (b : Bool) (t : Nat) (s : State), let q := tick t s; s.Inv ∧ (b = false ∨ q.pair.partnerFail = true)) ∧
    (∃ (t : Nat) (s : State), let q := tick t s; s.Inv ∧ (up q ∧ q.pair.partnerFail = false ∧ q.pair.role = .solo)) ∧
    (∃ (s : State), s.Inv ∧ up s ∧ s.pair.partnerFail = false ∧ s.pair.role = .active ∧ noStop s ∧ s.pair.switchTicket = none ∧
    s.pair.partnerMarks = []) ∧
    (∃ (q : Nat) (s : State) (m : PartnerMark), s.Inv ∧ up s ∧ s.pair.partnerFail = false ∧ s.pair.role = .passive ∧ noStop s ∧
    s.pair.switchTicket = none ∧ s.gauge.trigEnabled = false ∧ s.pair.partnerMarks = [m] ∧ m.station < 4 ∧ q < 16 ∧
    (vget s.scribe.queues q).on = true ∧ queuesPlain s) ∧
    (∃ (t : Nat) (s : State), let q := tick t s; s.Inv ∧ (q.pair.role = .solo ∧ q.glue = none ∧ q.pair.work = [] ∧ q.pair.snapshot = none)) ∧
    (∃ (a : _) (t : Nat) (s : State), let q := tick t s; s.Inv ∧ (up q ∧ q.pair.role = .passive ∧ q.glue = none ∧ q.pair.work = [] ∧
    q.pair.snapshot = none ∧ q.pair.lastSent = none ∧ q.pair.lastHeartbeat = some a ∧ a + (cfgNow q).pair.hbTimeout * 1000 ≤ q.now ∧
    q.pair.partnerFail = false ∧ q.gauge.trigEnabled = false)) ∧
    (∃ (t : Nat) (a : Nat) (s : State), s.Inv ∧ up s ∧ s.pair.role = .active ∧ s.glue = none ∧ s.pair.work = [] ∧ s.pair.snapshot = none ∧
    s.pair.lastSent = some a ∧ a + (cfgNow s).pair.hbTimeout * 1000 ≤ max s.now t ∧ s.pair.signalling = false ∧ s.pair.switchTicket = none ∧
    s.gauge.trigEnabled = false ∧ axesOff s ∧ noStations s) ∧
    (∃ (t : Nat) (s : State), let q := tick t s; s.Inv ∧ (up q ∧ isPortUp (vget q.ring.ports 2).state = true ∧ q.pair.role ≠ .solo)) ∧
    (∃ (t : Nat) (s : State), let q := tick t s; s.Inv ∧ (q.pair.role = .solo ∨ isPortUp (vget q.ring.ports 2).state = false)) ∧
    (∃ (k : Nat) (t : Nat) (s : State), let q := tick t s; k ≠ 0 ∧ s.Inv ∧ (mirrors q ∧
    (q.pair.role = .active ∨ q.pair.role = .solo ∨ q.pair.role = .failed))) ∧
    (∃ (k : Nat) (t : Nat) (s : State), let q := tick t s; k ≠ 0 ∧ s.Inv ∧ (mirrors q ∧
    (q.pair.role = .active ∨ q.pair.role = .solo ∨ q.pair.role = .failed))) ∧
    (∃ (t : Nat) (s : State), let q := tick t s; s.Inv ∧ (mirrors q ∧ q.pair.role = .pairing ∧ q.pair.chosen = some true)) ∧
    (∃ (t : Nat) (s : State), let q := tick t s; s.Inv ∧ (mirrors q ∧ q.pair.role = .mirrorLost ∧ q.pair.switchTicket = none)) ∧
    (∃ (q : Nat) (rd : Nat) (mk : Nat) (s : State), s.Inv ∧ mirrors s ∧ noStop s ∧ s.pair.role = .passive ∧ s.pair.ledger = [(q, rd, mk)] ∧ q < 16 ∧
    (vget s.scribe.queues q).on = true ∧ queuesPlain s ∧ s.gauge.trigEnabled = false ∧ s.pair.switchAt = none) := ⟨
   ⟨{unit := 0, paramLen := 4, params := [0,0,0,0]},
   (let b : State := (let b : State := upState; { b with pair := { b.pair with role := .active, partnerRole := 3 } }); { b with gauge := { b.gauge with trigEnabled := true, lastStrip := 5, slots := vset b.gauge.slots 0 { (vget b.gauge.slots 0) with pend := [{ line := 3 }] } } }),
   ready_of (by decide +kernel), by decide +kernel, by decide +kernel, by decide +kernel, by decide +kernel, by decide +kernel, by decide +kernel,
   by decide +kernel, by decide +kernel, by decide +kernel, by decide +kernel, by decide +kernel⟩,
   ⟨{unit := 0, paramLen := 4, params := [1,0,0,0]},
   (setThrough 0 (fun x => { x with relaySource := true }) (let b : State := upState; { b with pair := { b.pair with role := .active, work := [{ strip := 4 }] } })),
   ready_of (by decide +kernel), by decide +kernel, by decide +kernel, by decide +kernel, by decide +kernel, by decide +kernel, by decide +kernel⟩,
   ⟨{unit := 0, paramLen := 4, params := [1,0,0,0]}, upState, ready_of (by decide +kernel), by decide +kernel⟩,
   ⟨{unit := 0, paramLen := 4, params := [0,0,0,0]}, upState, ready_of (by decide +kernel), by decide +kernel⟩,
   ⟨{unit := 0, paramLen := 4, params := [2,0,0,0]}, upState, ready_of (by decide +kernel), by decide +kernel⟩,
   ⟨1000, (setLinkPort 2 (fun x => { x with state := .up }) (let b : State := upState; { b with pair := { b.pair with role := .active } })),
   inv_of (by decide +kernel), by decide +kernel⟩,
   ⟨({ serial := 9, portHome := 4033, axisOwner := 12, preferActive := false } : PairHello), 1000,
   (let b : State := (setLinkPort 2 (fun x => { x with state := .up }) (let b : State := upState; { b with pair := { b.pair with role := .pairing } })); { b with running := { b.running with pair := { b.running.pair with portHome := 63, axisOwner := 3, partner := 9, preferActive := true } } }),
   inv_of (by decide +kernel), by decide +kernel⟩,
   ⟨({ serial := 9, portHome := 4032, axisOwner := 14, preferActive := false } : PairHello), 1000,
   (let b : State := (setLinkPort 2 (fun x => { x with state := .up }) (let b : State := upState; { b with pair := { b.pair with role := .pairing } })); { b with running := { b.running with pair := { b.running.pair with portHome := 63, axisOwner := 3, partner := 9, preferActive := true } } }),
   inv_of (by decide +kernel), by decide +kernel⟩,
   ⟨({ serial := 9, portHome := 4032, axisOwner := 12, preferActive := false } : PairHello), 1000,
   (let b : State := (setLinkPort 2 (fun x => { x with state := .up }) (let b : State := upState; { b with pair := { b.pair with role := .pairing, journalEntries := 4294967295 } })); { b with running := { b.running with pair := { b.running.pair with portHome := 63, axisOwner := 3, partner := 9, preferActive := true } } }),
   by decide +kernel, by decide +kernel, inv_of (by decide +kernel), by decide +kernel⟩,
   ⟨({ serial := 9, portHome := 4032, axisOwner := 12, preferActive := true } : PairHello), 1000,
   (let b : State := (let b : State := (setLinkPort 2 (fun x => { x with state := .up }) (let b : State := upState; { b with pair := { b.pair with role := .pairing } })); { b with running := { b.running with pair := { b.running.pair with portHome := 63, axisOwner := 3, partner := 9, preferActive := false } } }); { b with staged := { b.staged with shift := 9 } }),
   by decide +kernel, by decide +kernel, inv_of (by decide +kernel), by decide +kernel⟩,
   ⟨false, 1000, (let b : State := upState; { b with pair := { b.pair with partnerFail := true } }), inv_of (by decide +kernel), by decide +kernel⟩,
   ⟨1000, upState, inv_of (by decide +kernel), by decide +kernel⟩,
   ⟨(let b : State := upState; { b with pair := { b.pair with role := .active } }), inv_of (by decide +kernel), by decide +kernel, by decide +kernel,
   by decide +kernel, by decide +kernel, by decide +kernel, by decide +kernel⟩,
   ⟨4,
   (setQueue 4 (fun x => { x with on := true, cap := 64, wr := 9, rd := 8, rel := 6, live := [{ seq := 6 }, { seq := 7 }, { seq := 8 }], markValid := true, markLost := true, thresholdDone := true }) (let b : State := upState; { b with pair := { b.pair with role := .passive, partnerMarks := [({ station := 2, mark := { ticket := 77, tgt := 5, fire := 6, state := .waiting } } : PartnerMark)] } })),
   ({ station := 2, mark := { ticket := 77, tgt := 5, fire := 6, state := .waiting } } : PartnerMark), inv_of (by decide +kernel), by decide +kernel,
   by decide +kernel, by decide +kernel, by decide +kernel, by decide +kernel, by decide +kernel, by decide +kernel, by decide +kernel,
   by decide +kernel, by decide +kernel, by decide +kernel⟩,
   ⟨1000, upState, inv_of (by decide +kernel), by decide +kernel⟩,
   ⟨7, 500007,
   (let b : State := (let b : State := upState; { b with pair := { b.pair with role := .passive, lastHeartbeat := some 7 } }); { b with running := { b.running with pair := { b.running.pair with hbTimeout := 500 } } }),
   inv_of (by decide +kernel), by decide +kernel⟩,
   ⟨500007, 7,
   (let b : State := (let b : State := upState; { b with pair := { b.pair with role := .active, lastSent := some 7 } }); { b with running := { b.running with pair := { b.running.pair with hbTimeout := 500 } } }),
   inv_of (by decide +kernel), by decide +kernel, by decide +kernel, by decide +kernel, by decide +kernel, by decide +kernel, by decide +kernel,
   by decide +kernel, by decide +kernel, by decide +kernel, by decide +kernel, by decide +kernel, by decide +kernel⟩,
   ⟨1000, (setLinkPort 2 (fun x => { x with state := .up }) (let b : State := upState; { b with pair := { b.pair with role := .passive } })),
   inv_of (by decide +kernel), by decide +kernel⟩,
   ⟨1000, upState, inv_of (by decide +kernel), by decide +kernel⟩,
   ⟨3, 1000, (setLinkPort 2 (fun x => { x with state := .up }) (let b : State := upState; { b with pair := { b.pair with role := .active } })),
   by decide +kernel, inv_of (by decide +kernel), by decide +kernel⟩,
   ⟨5, 1000, (setLinkPort 2 (fun x => { x with state := .up }) (let b : State := upState; { b with pair := { b.pair with role := .failed } })),
   by decide +kernel, inv_of (by decide +kernel), by decide +kernel⟩,
   ⟨1000,
   (setLinkPort 2 (fun x => { x with state := .up }) (let b : State := upState; { b with pair := { b.pair with role := .pairing, chosen := some true } })),
   inv_of (by decide +kernel), by decide +kernel⟩,
   ⟨1000,
   (setLinkPort 2 (fun x => { x with state := .up }) (let b : State := upState; { b with pair := { b.pair with role := .mirrorLost, theirs := [(1,2)] } })),
   inv_of (by decide +kernel), by decide +kernel⟩,
   ⟨4, 7, 6,
   (setQueue 4 (fun x => { x with on := true, cap := 64, wr := 9, rd := 8, rel := 6, live := [{ seq := 6 }, { seq := 7 }, { seq := 8 }] }) (setLinkPort 2 (fun x => { x with state := .up }) (let b : State := upState; { b with pair := { b.pair with role := .passive, ledger := [(4, 7, 6)] } }))),
   inv_of (by decide +kernel), by decide +kernel, by decide +kernel, by decide +kernel, by decide +kernel, by decide +kernel, by decide +kernel,
   by decide +kernel, by decide +kernel, by decide +kernel⟩⟩

theorem wit_MirrorStream :
    (∃ (t : Nat) (s : State), let q := tick t s; s.Inv ∧ mirrors (q)) ∧
    (∃ (t : Nat) (s : State), let q := tick t s; s.Inv ∧ isPortUp (vget q.ring.ports 2).state = false) ∧
    (∃ (t : Nat) (s : State), let q := tick t s; s.Inv ∧ (mirrors q ∧ isPassive q = false)) ∧
    (∃ (a : Int) (b : Int) (t : Nat) (s : State), let q := tick t s; (a - b).natAbs ≤ 131072 ∧ s.Inv ∧ (mirrors q ∧ q.pair.role = .passive)) ∧
    (∃ (a : Int) (b : Int) (t : Nat) (s : State), let q := tick t s; 131072 < (a - b).natAbs ∧ s.Inv ∧ (mirrors q ∧ q.pair.role = .passive)) ∧
    (∃ (n : Nat) (m : Mark) (t : Nat) (s : State), let q := tick t s; n < 4 ∧ ((m.state = .complete ∨ m.state = .failed)) ∧ s.Inv ∧ (mirrors q ∧
    q.pair.partnerMarks = [⟨n, m⟩])) ∧
    (∃ (n : Nat) (m : Mark) (t : Nat) (s : State), let q := tick t s; n < 4 ∧ m.state ≠ .complete ∧ m.state ≠ .failed ∧ s.Inv ∧ (mirrors q ∧
    q.pair.partnerMarks = [])) ∧
    (∃ (n : Nat) (t : Nat) (s : State), let q := tick t s; 4 ≤ n ∧ s.Inv ∧ mirrors (q)) ∧
    (∃ (k : Nat) (t : Nat) (s : State), let q := tick t s; s.Inv ∧ (mirrors q ∧ q.pair.theirs = [] ∧ ∀ d ∈ q.pair.digests, d.1 ≠ k)) ∧
    (∃ (k : Nat) (crc : Nat) (t : Nat) (s : State), let q := tick t s; s.Inv ∧ (mirrors q ∧ q.pair.role = .passive ∧ q.pair.digests = [(k, crc)] ∧
    q.pair.atStrip ≠ some k)) ∧
    (∃ (k : Nat) (crc : Nat) (own : _) (t : Nat) (s : State), let q := tick t s; crc ≠ own ∧ s.Inv ∧ (mirrors q ∧ q.pair.role = .passive ∧
    q.pair.digests = [(k, own)])) ∧
    (∃ (k : Nat) (crc : Nat) (own : _) (t : Nat) (s : State), let q := tick t s; crc ≠ own ∧ s.Inv ∧ (mirrors q ∧ q.pair.role = .active ∧
    q.pair.digests = [(k, own)] ∧ q.pair.atStrip = none)) ∧
    (∃ (k : Nat) (crc : Nat) (s : State), s.Inv ∧ mirrors s ∧ s.pair.role = .passiveResync ∧ s.pair.digests = [(k, crc)] ∧ s.pair.atStrip = some k ∧
    later32 (stripFirst (cfgNow s).shift k) (stripFirst (cfgNow s).shift k) = false ∧ ((∀ v : Nat, v < 8 → (vget s.views v).cur = none ∧
    (vget s.views v).waiting = [] ∧ (vget s.views v).sending = none))) ∧
    (∃ (t : Nat) (s : State), let q := tick t s; s.Inv ∧ (mirrors q ∧ isPassive q = false)) ∧
    (∃ (ch : _) (timer : _) (v : _) (t : Nat) (s : State), let q := tick t s; ch < 64 ∧ badDmaCfg timer v = false ∧ s.Inv ∧ (mirrors q ∧
    q.pair.role = .passive)) ∧
    (∃ (ch : _) (timer : _) (v : _) (t : Nat) (s : State), let q := tick t s; ((64 ≤ ch ∨ badDmaCfg timer v = true)) ∧ s.Inv ∧ (mirrors q ∧
    q.pair.role = .passive ∧ q.gauge.trigEnabled = false ∧ q.pair.switchTicket = none)) ∧
    (∃ (c : HostCmd) (s : State), s.Inv ∧ mirrors s ∧ s.pair.role = .passive ∧ badTime c.params = none ∧ s.ring.prepared = none ∧
    conflictOf (claimsOf { s.staged with time := parTime c.params } s.marq.shadow.region) (runningClaims s) s.claims 0x0E00 0 = none) ∧
    (∃ (q : Nat) (t : Nat) (s : State), let z := tick t s; s.Inv ∧ (mirrors z ∧ (isPassive z = false ∨ 16 ≤ q))) ∧
    (∃ (q : Nat) (t : Nat) (s : State), let z := tick t s; s.Inv ∧ (mirrors z ∧ (isPassive z = false ∨ 16 ≤ q))) ∧
    (∃ (q : Nat) (rel : Nat) (t : Nat) (s : State), let z := tick t s; q < 16 ∧ s.Inv ∧ (mirrors z ∧ z.pair.role = .passive ∧
    ((vget z.scribe.queues q).on = false ∨ (vget z.scribe.queues q).rel = rel ∧ later32 rel (vget z.scribe.queues q).rd = false ∧
    later32 rel rel = false))) ∧
    (∃ (q : Nat) (rel : Nat) (t : Nat) (s : State), let z := tick t s; q < 16 ∧ s.Inv ∧ (mirrors z ∧ z.pair.role = .passive ∧
    ((vget z.scribe.queues q).on = false ∨ (vget z.scribe.queues q).rel = rel ∧ later32 rel (vget z.scribe.queues q).rd = false ∧
    later32 rel rel = false))) ∧
    (∃ (q : Nat) (n : Nat) (s : State) (l : LiveRec), s.Inv ∧ mirrors s ∧ s.pair.role = .passive ∧ q < 16 ∧ (vget s.scribe.queues q).on = true ∧
    (vget s.scribe.queues q).live = [l] ∧ l.seq = n ∧ n + 1 < 4294967296 ∧ (vget s.scribe.queues q).rel = n ∧ (vget s.scribe.queues q).rd = n ∧
    (vget s.scribe.queues q).threshold = 0 ∧ (vget s.scribe.queues q).patches = [] ∧ l.patchTicket = none ∧ ticketLive s.ledger l.ticket = true) ∧
    (∃ (tag : TrigTag) (t : Nat) (s : State), let q := tick t s; s.Inv ∧ (mirrors q ∧ (isPassive q = false ∨ 24 ≤ tag.slot))) ∧
    (∃ (tag : TrigTag) (t : Nat) (s : State), let q := tick t s; s.Inv ∧ (mirrors q ∧ (isPassive q = false ∨ 24 ≤ tag.slot))) ∧
    (∃ (s : State) (tag : TrigTag), s.Inv ∧ mirrors s ∧ noStop s ∧ s.pair.role = .passive ∧ tag.slot < 24 ∧ s.gauge.startPending = false ∧
    s.gauge.lastLine = some tag.line ∧ ingestOn (cfgAt s tag.line) tag.slot = true ∧ tag.skipBefore = false ∧
    (vget s.ingest.slots tag.slot).relayFrom = none ∧ (vget s.ingest.slots tag.slot).outstanding.length < 8 ∧
    (vget s.ingest.slots tag.slot).unmatched = [] ∧ lineLayout (cfgAt s tag.line) (tag.slot / 2) = vget s.ingest.layout (tag.slot / 2) ∧
    readyHeld tag.slot tag.line s ∧ ((vget s.ingest.slots tag.slot).nextReady.all fun k => ingestOn (cfgAt s k) tag.slot) = true ∧
    fieldsOf (cfgAt s tag.line) = 1) ∧
    (∃ (t : Nat) (s : State), let q := tick t s; s.Inv ∧ (mirrors q ∧ (isPassive q = false ∨ q.pair.role = .passive))) ∧
    (∃ (t : Nat) (s : State), let q := tick t s; s.Inv ∧ (mirrors q ∧ q.pair.role = .passiveResync ∧ q.marq.last = none)) ∧
    (∃ (n : Snapshot) (k : _) (t : Nat) (s : State), let z := tick t s; s.Inv ∧ (mirrors z ∧ z.pair.role = .passiveResync ∧ z.marq.last = some k ∧
    wrap32 (k + 1) = stripFirst (cfgAt z (wrap32 (k + 1))).shift n.strip ∧ ∀ q : Nat, q < 16 → (vget z.scribe.queues q).on = false)) ∧
    (∃ (a : _) (t : Nat) (s : State), let q := tick t s; s.Inv ∧ (up q ∧ q.glue = none ∧ q.pair.role = .passiveResync ∧ q.pair.snapshot = none ∧
    q.pair.resyncSince = some a ∧ a + 20000000 ≤ q.now ∧ q.gauge.trigEnabled = false ∧ q.pair.switchTicket = none)) ∧
    (∃ (t : Nat) (s : State), let q := tick t s; s.Inv ∧ (q.glue = none ∧ q.pair.work = [] ∧ q.pair.snapshot = none ∧
    (isPassive q = false ∨ q.now < q.pair.resyncSince.getD q.now + 20000000))) ∧
    (∃ (t : Nat) (s : State), let q := tick t s; s.Inv ∧ (q.glue = none ∧ q.pair.work = [] ∧ q.pair.snapshot = none ∧
    (isPassive q = false ∨ q.now < q.pair.resyncSince.getD q.now + 20000000))) := ⟨
   ⟨1000, (setLinkPort 2 (fun x => { x with state := .up }) (let b : State := upState; { b with pair := { b.pair with role := .passive } })),
   inv_of (by decide +kernel), by decide +kernel⟩,
   ⟨1000, upState, inv_of (by decide +kernel), by decide +kernel⟩,
   ⟨1000, (setLinkPort 2 (fun x => { x with state := .up }) (let b : State := upState; { b with pair := { b.pair with role := .active } })),
   inv_of (by decide +kernel), by decide +kernel⟩,
   ⟨(131077 : Int), (5 : Int), 1000,
   (setLinkPort 2 (fun x => { x with state := .up }) (let b : State := upState; { b with pair := { b.pair with role := .passive } })),
   by decide +kernel, inv_of (by decide +kernel), by decide +kernel⟩,
   ⟨(5 : Int), (131078 : Int), 1000,
   (setLinkPort 2 (fun x => { x with state := .up }) (let b : State := upState; { b with pair := { b.pair with role := .passive } })),
   by decide +kernel, inv_of (by decide +kernel), by decide +kernel⟩,
   ⟨2, ({ ticket := 7, state := .complete } : Mark), 1000,
   (setLinkPort 2 (fun x => { x with state := .up }) (let b : State := upState; { b with pair := { b.pair with role := .active, partnerMarks := [⟨2, { ticket := 7, state := .complete }⟩] } })),
   by decide +kernel, by decide +kernel, inv_of (by decide +kernel), by decide +kernel⟩,
   ⟨2, ({ ticket := 7, state := .waiting } : Mark), 1000,
   (setLinkPort 2 (fun x => { x with state := .up }) (let b : State := upState; { b with pair := { b.pair with role := .passive } })),
   by decide +kernel, by decide +kernel, by decide +kernel, inv_of (by decide +kernel), by decide +kernel⟩,
   ⟨4, 1000, (setLinkPort 2 (fun x => { x with state := .up }) (let b : State := upState; { b with pair := { b.pair with role := .passive } })),
   by decide +kernel, inv_of (by decide +kernel), by decide +kernel⟩,
   ⟨5, 1000,
   (setLinkPort 2 (fun x => { x with state := .up }) (let b : State := upState; { b with pair := { b.pair with role := .passive, digests := [(4,5)] } })),
   inv_of (by decide +kernel), by decide +kernel⟩,
   ⟨5, 6, 1000,
   (setLinkPort 2 (fun x => { x with state := .up }) (let b : State := upState; { b with pair := { b.pair with role := .passive, digests := [(5,6)] } })),
   inv_of (by decide +kernel), by decide +kernel⟩,
   ⟨5, 6, 7, 1000,
   (setLinkPort 2 (fun x => { x with state := .up }) (let b : State := upState; { b with pair := { b.pair with role := .passive, digests := [(5,7)] } })),
   by decide +kernel, inv_of (by decide +kernel), by decide +kernel⟩,
   ⟨5, 6, 7, 1000,
   (setLinkPort 2 (fun x => { x with state := .up }) (let b : State := upState; { b with pair := { b.pair with role := .active, digests := [(5,7)] } })),
   by decide +kernel, inv_of (by decide +kernel), by decide +kernel⟩,
   ⟨5, 7,
   (setLinkPort 2 (fun x => { x with state := .up }) (let b : State := upState; { b with pair := { b.pair with role := .passiveResync, digests := [(5,7)], atStrip := some 5, resyncs := 3 } })),
   inv_of (by decide +kernel), by decide +kernel, by decide +kernel, by decide +kernel, by decide +kernel, by decide +kernel, by decide +kernel⟩,
   ⟨1000, (setLinkPort 2 (fun x => { x with state := .up }) (let b : State := upState; { b with pair := { b.pair with role := .active } })),
   inv_of (by decide +kernel), by decide +kernel⟩,
   ⟨5, true, 1000, 1000,
   (setLinkPort 2 (fun x => { x with state := .up }) (let b : State := upState; { b with pair := { b.pair with role := .passive } })),
   by decide +kernel, by decide +kernel, inv_of (by decide +kernel), by decide +kernel⟩,
   ⟨64, true, 1000, 1000,
   (setLinkPort 2 (fun x => { x with state := .up }) (let b : State := upState; { b with pair := { b.pair with role := .passive, partner := some {}, theirs := [(1,2)] } })),
   by decide +kernel, inv_of (by decide +kernel), by decide +kernel⟩,
   ⟨({ params := [0,0,0,0,128,128,248,254] ++ le 4 5000 ++ le 4 50 ++ le 2 200 ++ zeros 6, paramLen := 24 } : HostCmd),
   (setLinkPort 2 (fun x => { x with state := .up }) (let b : State := upState; { b with pair := { b.pair with role := .passive } })),
   inv_of (by decide +kernel), by decide +kernel, by decide +kernel, by decide +kernel, by decide +kernel, by decide +kernel⟩,
   ⟨16, 1000, (setLinkPort 2 (fun x => { x with state := .up }) (let b : State := upState; { b with pair := { b.pair with role := .passive } })),
   inv_of (by decide +kernel), by decide +kernel⟩,
   ⟨1, 1000, (setLinkPort 2 (fun x => { x with state := .up }) (let b : State := upState; { b with pair := { b.pair with role := .active } })),
   inv_of (by decide +kernel), by decide +kernel⟩,
   ⟨1, 4, 1000,
   (setLinkPort 2 (fun x => { x with state := .up }) (let b : State := upState; { b with pair := { b.pair with role := .passive, ledger := [(1, 2, 3), (2, 4, 5)] } })),
   by decide +kernel, inv_of (by decide +kernel), by decide +kernel⟩,
   ⟨1, 4, 1000,
   (setQueue 1 (fun x => { x with on := true, rel := 4, rd := 4, wr := 6 }) (setLinkPort 2 (fun x => { x with state := .up }) (let b : State := upState; { b with pair := { b.pair with role := .passive } }))),
   by decide +kernel, inv_of (by decide +kernel), by decide +kernel⟩,
   ⟨1, 4,
   (setQueue 1 (fun x => { x with on := true, cap := 64, rel := 4, rd := 4, wr := 5, head := 1, live := [{ seq := 4, ticket := 0 }] }) (let b : State := (setLinkPort 2 (fun x => { x with state := .up }) (let b : State := upState; { b with pair := { b.pair with role := .passive } })); { b with ledger := { b.ledger with issued := [0] } })),
   ({ seq := 4, ticket := 0 } : LiveRec), inv_of (by decide +kernel), by decide +kernel, by decide +kernel, by decide +kernel, by decide +kernel,
   by decide +kernel, by decide +kernel, by decide +kernel, by decide +kernel, by decide +kernel, by decide +kernel, by decide +kernel,
   by decide +kernel, by decide +kernel⟩,
   ⟨({ slot := 24 } : TrigTag), 1000,
   (setLinkPort 2 (fun x => { x with state := .up }) (let b : State := upState; { b with pair := { b.pair with role := .passive } })),
   inv_of (by decide +kernel), by decide +kernel⟩,
   ⟨({ slot := 3 } : TrigTag), 1000,
   (setLinkPort 2 (fun x => { x with state := .up }) (let b : State := upState; { b with pair := { b.pair with role := .active } })),
   inv_of (by decide +kernel), by decide +kernel⟩,
   ⟨(setSlotIngest 2 (fun x => { x with nextReady := some 5, outstanding := [{}] }) (let b : State := (let b : State := (let b : State := (let b : State := (let b : State := (setLinkPort 2 (fun x => { x with state := .up }) (let b : State := upState; { b with pair := { b.pair with role := .passive } })); { b with running := { b.running with plane := vset b.running.plane 2 { (vget b.running.plane 2) with latMax := 20 } } }); { b with running := { b.running with trig := vset b.running.trig 2 { (vget b.running.trig 2) with enable := true } } }); { b with running := { b.running with link := vset b.running.link 2 { (vget b.running.link 2) with enable := true, width := 4 } } }); { b with ingest := { b.ingest with layout := vset b.ingest.layout 1 (lineLayout (cfgNow b) 1) } }); { b with gauge := { b.gauge with lastLine := some 7 } })),
   ({ line := 7, slot := 2, field := 0, stime := 5 } : TrigTag), inv_of (by decide +kernel), by decide +kernel, by decide +kernel, by decide +kernel,
   by decide +kernel, by decide +kernel, by decide +kernel, by decide +kernel, by decide +kernel, by decide +kernel, by decide +kernel,
   by decide +kernel, by decide +kernel, by decide +kernel, by decide +kernel, by decide +kernel⟩,
   ⟨1000, (setLinkPort 2 (fun x => { x with state := .up }) (let b : State := upState; { b with pair := { b.pair with role := .passive } })),
   inv_of (by decide +kernel), by decide +kernel⟩,
   ⟨1000, (setLinkPort 2 (fun x => { x with state := .up }) (let b : State := upState; { b with pair := { b.pair with role := .passiveResync } })),
   inv_of (by decide +kernel), by decide +kernel⟩,
   ⟨({ strip := 5, regions := [{ id := 7 }], gens := [(1, 2)], window := [{ line := 4 }] } : Snapshot), 5119, 1000,
   (let b : State := (setLinkPort 2 (fun x => { x with state := .up }) (let b : State := (let b : State := upState; { b with running := { b.running with shift := 10 } }); { b with pair := { b.pair with role := .passiveResync } })); { b with marq := { b.marq with last := some 5119 } }),
   inv_of (by decide +kernel), by decide +kernel⟩,
   ⟨4, 20000004,
   (setLinkPort 2 (fun x => { x with state := .up }) (let b : State := upState; { b with pair := { b.pair with role := .passiveResync, resyncSince := some 4 } })),
   inv_of (by decide +kernel), by decide +kernel⟩,
   ⟨1000, upState, inv_of (by decide +kernel), by decide +kernel⟩,
   ⟨20000003, (let b : State := upState; { b with pair := { b.pair with role := .passive, resyncSince := some 4 } }), inv_of (by decide +kernel),
   by decide +kernel⟩⟩

theorem wit_GlueUpCommands :
    (∃ (c : HostCmd) (s : State), Ready specGlueup c s ∧ acceptsMore s ∧ gluesFree s ∧ noneHeld s ∧ s.pair.role = .solo ∧ nothingStaged s = false ∧
    fitted s (glueGen c s) = true ∧ s.gauge.trigEnabled = true ∧ s.staged.shift = (cfgNow s).shift ∧ rtCollision s = none ∧
    ((bitOf (u8 c.params 4) 0 = false ∨ sdiff32 (u32 c.params 8) s.gauge.lastStrip ≤ 65536))) ∧
    (∃ (c : HostCmd) (s : State), Ready specGlueup c s ∧ acceptsMore s ∧ gluesFree s ∧ noneHeld s ∧ s.pair.role = .solo ∧ nothingStaged s = false ∧
    fitted s (glueGen c s) = true ∧ s.gauge.trigEnabled = true ∧ s.staged.shift = (cfgNow s).shift ∧ rtCollision s = none ∧
    ((bitOf (u8 c.params 4) 0 = false ∨ sdiff32 (u32 c.params 8) s.gauge.lastStrip ≤ 65536))) ∧
    (∃ (c : HostCmd) (s : State), Ready specGlueup c s ∧ acceptsMore s ∧ gluesFree s ∧ noneHeld s ∧ s.pair.role = .solo ∧ nothingStaged s = false ∧
    fitted s (glueGen c s) = true ∧ s.gauge.trigEnabled = true ∧ s.staged.shift = (cfgNow s).shift ∧ rtCollision s = none ∧
    ((bitOf (u8 c.params 4) 0 = false ∨ sdiff32 (u32 c.params 8) s.gauge.lastStrip ≤ 65536))) ∧
    (∃ (c : HostCmd) (s : State), Ready specGlueup c s ∧ s.glue.isSome = true) ∧
    (∃ (c : HostCmd) (s : State), Ready specGlueup c s ∧ (s.glue = none ∧ s.ring.prepared.isSome = true)) ∧
    (∃ (c : HostCmd) (s : State), Ready specGlueup c s ∧ (gluesFree s ∧ nothingStaged s = true)) ∧
    (∃ (c : HostCmd) (s : State), Ready specGlueup c s ∧ (gluesFree s ∧ nothingStaged s = false ∧ fitted s (glueGen c s) = false)) ∧
    (∃ (c : HostCmd) (s : State), Ready specGlueup c s ∧ (gluesFree s ∧ nothingStaged s = false ∧ fitted s (glueGen c s) = true ∧
    s.gauge.trigEnabled = true ∧ s.staged.shift ≠ (cfgNow s).shift)) ∧
    (∃ (c : HostCmd) (s : State), Ready specGlueup c s ∧ (gluesFree s ∧ nothingStaged s = false ∧ fitted s (glueGen c s) = true ∧
    s.gauge.trigEnabled = true ∧ s.staged.shift = (cfgNow s).shift ∧ rtCollision s = none ∧ bitOf (u8 c.params 4) 0 = true ∧
    65536 < sdiff32 (u32 c.params 8) s.gauge.lastStrip)) ∧
    (∃ (t : Nat) (s : State), let q := tick t s; s.Inv ∧ q.ring.prepare = none) ∧
    (∃ (m : Nat) (q : Prepare) (t : Nat) (s : State), let z := tick t s; s.Inv ∧ (z.ring.prepare = some q ∧ m ∉ q.waiting)) ∧
    (∃ (m : Nat) (m' : _) (status : Nat) (ms : List Nat) (q : Prepare) (t : Nat) (s : State), let z := tick t s; status < 0x8000 ∧
    q.waiting = m :: m' :: ms ∧ s.Inv ∧ (up z ∧ z.ring.prepare = some q)) ∧
    (∃ (m : Nat) (status : Nat) (strip : Nat) (own : Nat) (s : State) (q : Prepare), s.Inv ∧ up s ∧ status < 0x8000 ∧ s.ring.prepare = some q ∧
    q.waiting = [m] ∧ q.prepared = [(own, s.gauge.lastStrip)] ∧ s.ring.moduleId = own ∧ m ≠ own ∧ q.earliest = none ∧ s.glue = none ∧ noneHeld s ∧
    s.pair.role = .solo ∧ s.gauge.trigEnabled = true ∧ later32 strip s.gauge.lastStrip = true ∧ later32 s.gauge.lastStrip s.gauge.lastStrip = false) ∧
    (∃ (m : Nat) (status : Nat) (own : Nat) (s : State) (q : Prepare), s.Inv ∧ up s ∧ 0x8000 ≤ status ∧ s.ring.prepare = some q ∧ q.waiting = [m] ∧
    q.prepared = [(own, s.gauge.lastStrip)] ∧ s.ring.moduleId = own ∧ m ≠ own ∧ ticketLive s.ledger q.ticket = true) ∧
    (∃ (q : Prepare) (t : Nat) (s : State), let z := tick t s; s.Inv ∧ (z.ring.prepare = some q ∧ z.now < q.sentAt + 1000000)) ∧
    (∃ (t : Nat) (s : State), let q := tick t s; s.Inv ∧ q.ring.prepare = none) ∧
    (∃ (t : Nat) (m : Nat) (own : Nat) (s : State) (q : Prepare), s.Inv ∧ up s ∧ s.ring.prepare = some q ∧ q.waiting = [m] ∧
    q.sentAt + 1000000 ≤ max s.now t ∧ q.prepared = [(own, s.gauge.lastStrip)] ∧ s.ring.moduleId = own ∧ m ≠ own ∧
    ticketLive s.ledger q.ticket = true) := ⟨
   ⟨{paramLen := 12, params := le 4 6 ++ [1,0,0,0] ++ le 4 50},
   (let b : State := (let b : State := upState; { b with staged := { b.staged with bg := { b.staged.bg with fields := 3 } }, stageGen := 6, dryfit := some { gen := 6, fit := true } }); { b with gauge := { b.gauge with trigEnabled := true, lastStrip := 40 } }),
   ready_of (by decide +kernel), by decide +kernel, by decide +kernel, by decide +kernel, by decide +kernel, by decide +kernel, by decide +kernel,
   by decide +kernel, by decide +kernel, by decide +kernel, by decide +kernel⟩,
   ⟨{paramLen := 12, params := le 4 0 ++ [2,0,0,0] ++ le 4 50},
   (let b : State := (let b : State := upState; { b with staged := { b.staged with bg := { b.staged.bg with fields := 3 } }, stageGen := 6, dryfit := some { gen := 6, fit := true } }); { b with gauge := { b.gauge with trigEnabled := true, lastStrip := 40 } }),
   ready_of (by decide +kernel), by decide +kernel, by decide +kernel, by decide +kernel, by decide +kernel, by decide +kernel, by decide +kernel,
   by decide +kernel, by decide +kernel, by decide +kernel, by decide +kernel⟩,
   ⟨{paramLen := 12, params := le 4 0 ++ [3,0,0,0] ++ le 4 42},
   (let b : State := (let b : State := upState; { b with staged := { b.staged with bg := { b.staged.bg with fields := 3 } }, stageGen := 6, dryfit := some { gen := 6, fit := true } }); { b with gauge := { b.gauge with trigEnabled := true, lastStrip := 40 } }),
   ready_of (by decide +kernel), by decide +kernel, by decide +kernel, by decide +kernel, by decide +kernel, by decide +kernel, by decide +kernel,
   by decide +kernel, by decide +kernel, by decide +kernel, by decide +kernel⟩,
   ⟨{paramLen := 12, params := le 4 6 ++ [1,0,0,0] ++ le 4 50},
   (let b : State := (let b : State := (let b : State := upState; { b with staged := { b.staged with bg := { b.staged.bg with fields := 3 } }, stageGen := 6, dryfit := some { gen := 6, fit := true } }); { b with gauge := { b.gauge with trigEnabled := true, lastStrip := 40 } }); { b with glue := some {} }),
   ready_of (by decide +kernel), by decide +kernel⟩,
   ⟨{paramLen := 12, params := le 4 6 ++ [1,0,0,0] ++ le 4 50},
   (let b : State := (let b : State := (let b : State := upState; { b with staged := { b.staged with bg := { b.staged.bg with fields := 3 } }, stageGen := 6, dryfit := some { gen := 6, fit := true } }); { b with gauge := { b.gauge with trigEnabled := true, lastStrip := 40 } }); { b with ring := { b.ring with prepared := some (3,4) } }),
   ready_of (by decide +kernel), by decide +kernel⟩,
   ⟨{paramLen := 12, params := le 4 6 ++ [1,0,0,0] ++ le 4 50}, (let b : State := upState; { b with stageGen := 9 }), ready_of (by decide +kernel),
   by decide +kernel⟩,
   ⟨{paramLen := 12, params := le 4 5 ++ [1,0,0,0] ++ le 4 50},
   (let b : State := (let b : State := upState; { b with staged := { b.staged with bg := { b.staged.bg with fields := 3 } }, stageGen := 6, dryfit := some { gen := 6, fit := true } }); { b with gauge := { b.gauge with trigEnabled := true, lastStrip := 40 } }),
   ready_of (by decide +kernel), by decide +kernel⟩,
   ⟨{paramLen := 12, params := le 4 6 ++ [1,0,0,0] ++ le 4 50},
   (let b : State := (let b : State := (let b : State := upState; { b with staged := { b.staged with bg := { b.staged.bg with fields := 3 } }, stageGen := 6, dryfit := some { gen := 6, fit := true } }); { b with gauge := { b.gauge with trigEnabled := true, lastStrip := 40 } }); { b with staged := { b.staged with shift := 9 } }),
   ready_of (by decide +kernel), by decide +kernel⟩,
   ⟨{paramLen := 12, params := le 4 6 ++ [1,0,0,0] ++ le 4 65577},
   (let b : State := (let b : State := upState; { b with staged := { b.staged with bg := { b.staged.bg with fields := 3 } }, stageGen := 6, dryfit := some { gen := 6, fit := true } }); { b with gauge := { b.gauge with trigEnabled := true, lastStrip := 40 } }),
   ready_of (by decide +kernel), by decide +kernel⟩,
   ⟨1000, upState, inv_of (by decide +kernel), by decide +kernel⟩,
   ⟨3, ({ ring := 1, ticket := 0, tag := 9, waiting := [5], prepared := [(2, 40)], sentAt := 7 } : Prepare), 1000,
   (let b : State := upState; { b with ring := { b.ring with moduleId := 2, enumerated := true, prepared := some (2, 40), prepare := some ({ ring := 1, ticket := 0, tag := 9, waiting := [5], prepared := [(2, 40)], sentAt := 7 } : Prepare) } }),
   inv_of (by decide +kernel), by decide +kernel⟩,
   ⟨3, 5, 1, ([] : List Nat), ({ ring := 1, ticket := 0, tag := 9, waiting := [3,5], prepared := [(2, 40)], sentAt := 7 } : Prepare), 1000,
   (let b : State := upState; { b with ring := { b.ring with moduleId := 2, enumerated := true, prepared := some (2, 40), prepare := some ({ ring := 1, ticket := 0, tag := 9, waiting := [3,5], prepared := [(2, 40)], sentAt := 7 } : Prepare) } }),
   by decide +kernel, by decide +kernel, inv_of (by decide +kernel), by decide +kernel⟩,
   ⟨3, 1, 44, 2,
   (let b : State := (let b : State := (let b : State := upState; { b with staged := { b.staged with bg := { b.staged.bg with fields := 3 } }, stageGen := 6, dryfit := some { gen := 6, fit := true } }); { b with gauge := { b.gauge with trigEnabled := true, lastStrip := 40 } }); { b with ring := { b.ring with moduleId := 2, enumerated := true, prepared := some (2, 40), prepare := some ({ ring := 1, ticket := 0, tag := 9, waiting := [3], prepared := [(2, 40)], sentAt := 7 } : Prepare) } }),
   ({ ring := 1, ticket := 0, tag := 9, waiting := [3], prepared := [(2, 40)], sentAt := 7 } : Prepare), inv_of (by decide +kernel),
   by decide +kernel, by decide +kernel, by decide +kernel, by decide +kernel, by decide +kernel, by decide +kernel, by decide +kernel,
   by decide +kernel, by decide +kernel, by decide +kernel, by decide +kernel, by decide +kernel, by decide +kernel, by decide +kernel⟩,
   ⟨3, 0x8005, 2,
   (let b : State := (let b : State := (let b : State := (let b : State := upState; { b with staged := { b.staged with bg := { b.staged.bg with fields := 3 } }, stageGen := 6, dryfit := some { gen := 6, fit := true } }); { b with gauge := { b.gauge with trigEnabled := true, lastStrip := 40 } }); { b with ledger := { b.ledger with issued := [0] }, cmds := [{ ticket := 0 }] }); { b with ring := { b.ring with moduleId := 2, enumerated := true, prepared := some (2, 40), prepare := some ({ ring := 1, ticket := 0, tag := 9, waiting := [3], prepared := [(2, 40)], sentAt := 7 } : Prepare) } }),
   ({ ring := 1, ticket := 0, tag := 9, waiting := [3], prepared := [(2, 40)], sentAt := 7 } : Prepare), inv_of (by decide +kernel),
   by decide +kernel, by decide +kernel, by decide +kernel, by decide +kernel, by decide +kernel, by decide +kernel, by decide +kernel,
   by decide +kernel⟩,
   ⟨({ ring := 1, ticket := 0, tag := 9, waiting := [3], prepared := [(2, 40)], sentAt := 7 } : Prepare), 1000006,
   (let b : State := (let b : State := (let b : State := (let b : State := upState; { b with staged := { b.staged with bg := { b.staged.bg with fields := 3 } }, stageGen := 6, dryfit := some { gen := 6, fit := true } }); { b with gauge := { b.gauge with trigEnabled := true, lastStrip := 40 } }); { b with ledger := { b.ledger with issued := [0] }, cmds := [{ ticket := 0 }] }); { b with ring := { b.ring with moduleId := 2, enumerated := true, prepared := some (2, 40), prepare := some ({ ring := 1, ticket := 0, tag := 9, waiting := [3], prepared := [(2, 40)], sentAt := 7 } : Prepare) } }),
   inv_of (by decide +kernel), by decide +kernel⟩,
   ⟨1000, upState, inv_of (by decide +kernel), by decide +kernel⟩,
   ⟨1000007, 3, 2,
   (let b : State := (let b : State := (let b : State := (let b : State := upState; { b with staged := { b.staged with bg := { b.staged.bg with fields := 3 } }, stageGen := 6, dryfit := some { gen := 6, fit := true } }); { b with gauge := { b.gauge with trigEnabled := true, lastStrip := 40 } }); { b with ledger := { b.ledger with issued := [0] }, cmds := [{ ticket := 0 }] }); { b with ring := { b.ring with moduleId := 2, enumerated := true, prepared := some (2, 40), prepare := some ({ ring := 1, ticket := 0, tag := 9, waiting := [3], prepared := [(2, 40)], sentAt := 7 } : Prepare) } }),
   ({ ring := 1, ticket := 0, tag := 9, waiting := [3], prepared := [(2, 40)], sentAt := 7 } : Prepare), inv_of (by decide +kernel),
   by decide +kernel, by decide +kernel, by decide +kernel, by decide +kernel, by decide +kernel, by decide +kernel, by decide +kernel,
   by decide +kernel⟩⟩

theorem insertBy_last (x : Nat) (l : List Nat) (h : ∀ y ∈ l, y < x) : insertBy (fun m n => decide (m < n)) x l = l ++ [x] := by
  induction l with
  | nil => rfl
  | cons y l ih =>
    have h1 : ¬ x < y := Nat.lt_asymm (h y (by simp))
    simp only [insertBy, h1, decide_false, Bool.false_eq_true, if_false, ih fun z hz => h z (by simp [hz]), List.cons_append]

theorem mergeAsc_range (n : Nat) : mergeAsc (List.range n) [] = List.range n := by
  unfold mergeAsc
  rw [List.append_nil]
  induction n with
  | zero => rfl
  | succ n ih =>
    rw [List.range_succ, List.foldl_append, ih]
    simp only [List.foldl_cons, List.foldl_nil, List.mem_range, Nat.lt_irrefl, if_false]
    exact insertBy_last n _ fun y hy => List.mem_range.1 hy

theorem lowestSlot_range (k n : Nat) : lowestSlot k (List.range' k n) = k + n := by
  induction n generalizing k with
  | zero => rfl
  | succ n ih =>
    rw [List.range'_succ]
    simp only [lowestSlot, Nat.lt_irrefl, if_false]
    rw [ih]; omega

/-- Every slot of the ledger. -/
@[irreducible] def allSlots : List Nat := List.range ledgerSlots

theorem allSlots_eq : allSlots = List.range ledgerSlots := by unfold allSlots; rfl

/-- Every slot of the ledger is in use. -/
def full (s : State) : State := { s with ledger := { s.ledger with issued := allSlots, ended := [] } }

theorem full_ledger {s : State} (h1 : s.ledger.issued = allSlots) (h2 : s.ledger.ended = []) : ledgerFull s = true := by
  have h : ∀ n : Nat, lowestSlot 0 (mergeAsc (List.range n) []) = n := by
    intro n
    rw [mergeAsc_range, List.range_eq_range', lowestSlot_range, Nat.zero_add]
  have h : lowestSlot 0 (mergeAsc s.ledger.issued s.ledger.ended) = ledgerSlots := by
    rw [h1, h2]
    exact (congrArg (fun l => lowestSlot 0 (mergeAsc l [])) allSlots_eq).trans (h ledgerSlots)
  unfold ledgerFull issueTicket
  simp only
  rw [if_pos (Nat.le_of_eq h.symm)]
  rfl

/-- The first slot of a command packet with this opcode, for this module. -/
def rawPkt (op : Nat) : RawPkt := { bytes := le 2 op ++ [0, 0] ++ le 4 77 ++ [0xFF, 0xFF] ++ le 2 0 ++ [1, 0, 0, 0] ++ zeros 48 }

def fullRing (wait : Option Nat) : State := setRing 0 (fun p => { p with cmdProd := 1, ticketWait := wait }) (full upState)

theorem wit_CommandRings_15 : ∃ (pkts : List RawPkt) (n t : Nat) (s : State), (pkts.getD n {}).readFails = 0 ∧ s.Inv ∧
    (up (tick t s) ∧ nextTaken (tick t s) pkts = some n ∧ ledgerFull (tick t s) = true) := by
  have h : ledgerFull (tick 1000 (fullRing none)) = true := full_ledger rfl rfl
  refine ⟨[rawPkt 0x0100], 0, 1000, fullRing none, by decide +kernel, ⟨rfl, rfl, rfl⟩, rfl, ?_, h⟩
  have h1 : ringReady (tick 1000 (fullRing none)) 0 (rawPkt 0x0100) = true := by decide +kernel
  show ((List.range 4).map fun i => i % 4).find? _ = some 0
  have h2 : ((List.range 4).map fun i => i % 4) = [0, 1, 2, 3] := by decide
  rw [h2, List.find?_cons_of_pos]
  rw [h]
  simp only [List.getD_cons_zero, h1]
  rfl

theorem wit_CommandRings_18 : ∃ (t : Nat) (s : State) (n w : Nat), s.Inv ∧ up s ∧ postsNow n s ∧ (vget s.host.rings n).stopped = false ∧
    (vget s.host.rings n).ticketWait = some w ∧ w + 2000000 ≤ max s.now t ∧ ledgerFull s = true :=
  ⟨2000007, fullRing (some 7), 0, 7, ⟨rfl, rfl, rfl⟩, rfl, by decide +kernel, by decide +kernel, by decide +kernel, by decide +kernel, full_ledger rfl rfl⟩

/-- A descriptor of 8 bytes from Bench offset 64 to host address 4,096. -/
def descBytes : Bytes := le 8 64 ++ le 8 4096 ++ le 4 8 ++ [1, 0, 0, 0] ++ zeros 8

def fullChan (wait : Option (Desc × Nat)) : State :=
  setChan 63 (fun x => { x with state := .run, fetching := true, active := { count := 3, base := 8192 }, ticketWait := wait }) (full upState)

theorem wit_DmaDescriptors_2 : ∃ (ch : Nat) (b : Bytes) (d : Desc) (t : Nat) (s : State), let q := tick t s; ch < 64 ∧ b.length = 32 ∧ parDesc b = d ∧ s.Inv ∧
    (up q ∧ noLocks q ∧ alone q ∧ q.faults.injections = [] ∧ (vget q.dma.ch ch).fetching = true ∧ (vget q.dma.ch ch).ticketWait = none ∧ ledgerFull q = true) :=
  ⟨63, descBytes, _, 1000, fullChan none, by decide +kernel, by decide +kernel, rfl, ⟨rfl, rfl, rfl⟩, rfl, by decide +kernel, by decide +kernel, rfl,
   by decide +kernel, by decide +kernel, full_ledger rfl rfl⟩

theorem wit_DmaDescriptors_6 : ∃ (ch w : Nat) (d : Desc) (t : Nat) (s : State), let q := tick t s; ch < 64 ∧ s.Inv ∧
    (up q ∧ (vget q.dma.ch ch).ticketWait = some (d, w) ∧ ledgerFull q = true ∧ w + 1000000 ≤ q.now) :=
  ⟨63, 4, {}, 1000004, fullChan (some ({}, 4)), by decide, ⟨rfl, rfl, rfl⟩, rfl, by decide +kernel, full_ledger rfl rfl, by decide +kernel⟩

theorem wit_DmaDescriptors_7 : ∃ (ch w : Nat) (d : Desc) (t : Nat) (s : State), let q := tick t s; ch < 64 ∧ s.Inv ∧
    ((vget q.dma.ch ch).ticketWait = some (d, w) ∧ ledgerFull q = true ∧ q.now < w + 1000000) :=
  ⟨63, 4, {}, 1000003, fullChan (some ({}, 4)), by decide, ⟨rfl, rfl, rfl⟩, by decide +kernel, full_ledger rfl rfl, by decide +kernel⟩

end Sys2Proof.Tests
end

/-! ## Shared rules: events with every field of their outcome, runs of bytes, the queue table, frames, the end of a ticket -/

namespace Sys2Proof.Machine

/-! ### An event with every field of its outcome -/

/-- `r` differs from `q` neither in the time and the queue nor in the Bench's bytes and outstanding writes: a commit leaves it as it is. -/
structure Settled (q r : State) : Prop where
  now : r.now = q.now
  pending : r.pending = q.pending
  mem : r.bench.mem = q.bench.mem
  writes : r.bench.writes = q.bench.writes
  emptied : r.bench.emptied = q.bench.emptied

theorem Settled.refl (q : State) : Settled q q := ⟨rfl, rfl, rfl, rfl, rfl⟩

theorem memNow_of_inv {q : State} (h : q.Inv) : memNow q.bench = q.bench.mem := by
  unfold memNow
  rw [h.writes, h.emptied]
  rfl

theorem commit_settled {q r : State} (h : q.Inv) (hr : Settled q r) : commit q r = r := by
  have hm : memNow { r.bench with mem := q.bench.mem } = r.bench.mem := by
    show applyWrites (emptyRanges q.bench.mem r.bench.emptied) r.bench.writes = r.bench.mem
    rw [hr.emptied, hr.writes, h.emptied, h.writes, hr.mem]
    rfl
  have hw : ([] : List (Nat × Bytes)) = r.bench.writes := (hr.writes.trans h.writes).symm
  have he : ([] : List (Nat × Nat)) = r.bench.emptied := (hr.emptied.trans h.emptied).symm
  unfold commit
  rw [hm, ← hr.now, ← hr.pending, hw, he]

/-- An event whose effect is known as a whole, and settled. -/
theorem exactly_of {i : Nat → Instr} {f new : State → State} {cond : State → Prop} (hx : ∀ t s, exec (i t) s = runAt t s f)
    (h : ∀ q : State, q.Inv → cond q → f q = new q ∧ Settled q (new q)) : Exactly i cond new := by
  intro t s hi hc
  obtain ⟨hf, hn⟩ := h (tick t s) (tick_inv t hi) hc
  rw [hx, runAt, hf, commit_settled (tick_inv t hi) hn]

/-- While the fabric runs and its parts of the Bench serve, a unit works. -/
theorem onFabric_up {parts : List Nat} {s : State} (f : State → State) (hu : up s) (hp : ∀ k ∈ parts, partUp s k = true) : onFabric parts f s = f s := by
  have hall : parts.all (partUp s) = true := List.all_eq_true.2 hp
  simp only [onFabric, fabricUp, hall, decide_eq_true hu, Bool.and_self, if_true]

/-! ### Runs of bytes, and 32-bit order -/

theorem padTo_take {n m : Nat} {p : Bytes} (hm : n ≤ m) (hp : n ≤ p.length) : (padTo m p).take n = p.take n := by
  have hl : n ≤ (p.take m).length := by simp [hm, hp]
  rw [padTo, List.take_append_of_le_length hl, List.take_take, min_eq_left hm]

theorem zeros_take {n m : Nat} (h : n ≤ m) : (zeros m).take n = zeros n := by
  rw [zeros, List.take_replicate, min_eq_left h, zeros]

theorem memRead_length (m : List Host.Cell) (off n : Nat) : (memRead m off n).length = n := by
  unfold memRead
  induction n generalizing m off with
  | zero => rfl
  | succ n ih =>
    unfold sexpand
    split
    · simp
    · split <;> exact congrArg Nat.succ (ih _ _)

theorem later32_succ {n : Nat} (h : n + 1 < 2 ^ 32) : later32 (n + 1) n = true := by
  have h1 : (n + 1 + 2 ^ 32 - n % 2 ^ 32) % 2 ^ 32 = 1 := by omega
  simp only [later32, sdiff32, h1]
  decide

theorem later32_self (n : Nat) : later32 n n = false := by
  have h1 : (n + 2 ^ 32 - n % 2 ^ 32) % 2 ^ 32 = 0 := by omega
  simp only [later32, sdiff32, h1]
  decide

/-! ### The queue table -/

theorem vmod_eq_self {α : Type} [Inhabited α] {n : Nat} {v : Vector α n} {i : Nat} {f : α → α} (h : f (vget v i) = vget v i) : vmod v i f = v := by
  ext j hj
  by_cases hij : i = j
  · subst hij
    simpa [vmod, vset, vget, hj] using h
  · simp [vmod, vset, hij]

theorem vmod_vmod {α : Type} [Inhabited α] {n : Nat} (v : Vector α n) {i : Nat} (f g : α → α) :
    vmod (vmod v i g) i f = vmod v i fun x => f (g x) := by
  ext j hj
  by_cases hij : i = j
  · subst hij
    simp [vmod, vset, vget, hj]
  · simp [vmod, vset, hij]

theorem setQueue_eq_self {q : Nat} {f : Queue → Queue} {s : State} (h : f (vget s.scribe.queues q) = vget s.scribe.queues q) : setQueue q f s = s := by
  unfold setQueue
  rw [vmod_eq_self h]

theorem setQueue_congr {q : Nat} {f g : Queue → Queue} {s : State} (h : f (vget s.scribe.queues q) = g (vget s.scribe.queues q)) :
    setQueue q f s = setQueue q g s := by
  unfold setQueue vmod
  rw [h]

theorem setQueue_setQueue {q : Nat} (f g : Queue → Queue) (s : State) :
    setQueue q f (setQueue q g s) = setQueue q (fun x => f (g x)) s := by
  unfold setQueue
  simp only [vmod_vmod]

/-! ### Frames under a further change -/

theorem OutFrame.withLedger {a b : State} (h : OutFrame a b) (l : Ledger) : OutFrame { a with ledger := l } { b with ledger := l } := by
  unfold OutFrame at *
  rw [h]

theorem OutFrame.setQueue {a b : State} (h : OutFrame a b) (q : Nat) (f : Queue → Queue) : OutFrame (setQueue q f a) (setQueue q f b) := by
  unfold OutFrame at *
  rw [h]
  rfl

theorem OutFrame.withSources {a b : State} (h : OutFrame a b) (l : List RelayState) :
    OutFrame { a with ring := { a.ring with sources := l } } { b with ring := { b.ring with sources := l } } := by
  unfold OutFrame at *
  rw [h]

/-! ### The end of a ticket -/

theorem reportTicket_out (w : Nat) (s : State) : OutFrame { s with ledger := (reportTicket w s).ledger } (reportTicket w s) := by
  unfold reportTicket
  simp only
  split <;> rfl

/-- A ticket that ends touches the ledger alone, beside an event. -/
theorem endTicket_frame (w code : Nat) (s : State) : OutFrame { s with ledger := (endTicket w code s).ledger } (endTicket w code s) :=
  (reportTicket_out w (decideTicket w code s)).after ((decide_frame w code s).withLedger _)

theorem decideTicket_issued {w : Nat} {s : State} (code : Nat) (h : ticketLive s.ledger w = true) :
    (decideTicket w code s).ledger.issued = s.ledger.issued.erase (ticketSlot w) := by
  unfold decideTicket
  simp only [h, Bool.not_true, Bool.false_eq_true, if_false]
  split
  · rw [raise_ledger]
  · rfl

theorem reportTicket_issued (w : Nat) (s : State) : (reportTicket w s).ledger.issued = s.ledger.issued := by
  unfold reportTicket
  simp only
  split <;> rfl

/-- A live ticket that ends is counted by its code, and where its slot is issued once it is live no longer (R43). -/
theorem endTicket_ends {w : Nat} {s : State} (code : Nat) (h : ticketLive s.ledger w = true) (hn : s.ledger.issued.Nodup) :
    (endTicket w code s).ledger.complete = s.ledger.complete + (if code = 0 then 1 else 0) ∧
    (endTicket w code s).ledger.failed = s.ledger.failed + (if code = 0 then 0 else 1) ∧
    ticketLive (endTicket w code s).ledger w = false := by
  obtain ⟨hc, hf⟩ := decideTicket_counts code h
  obtain ⟨rc, rf⟩ := reportTicket_counts w (decideTicket w code s)
  have hgone : ticketSlot w ∉ (endTicket w code s).ledger.issued := by
    rw [endTicket, reportTicket_issued, decideTicket_issued code h]
    exact hn.not_mem_erase
  refine ⟨rc.trans hc, rf.trans hf, ?_⟩
  simp [ticketLive, hgone]

end Sys2Proof.Machine

/-! ## Registers, queue windows and BAR4 (R13, R438 to R440, R554, R555, R581 to R589) -/

namespace Sys2Proof.Machine

/-! ### Words and bytes of an access -/

theorem up_bar0Up {s : State} (h : up s) : bar0Up s = true := decide_eq_true h
theorem not_up_bar0Up {s : State} (h : ¬ up s) : bar0Up s = false := decide_eq_false h

theorem lo32_of_lt {v : Nat} (h : v < 2 ^ 32) : lo32 v = v := Nat.mod_eq_of_lt h

theorem hi32_lo32 {v : Nat} (h : v < 2 ^ 64) : hi32 v * 2 ^ 32 + lo32 v = v := by
  unfold hi32 lo32
  omega

/-- An aligned read of one word gives that word. -/
theorem wordBytes_word (word : Nat → Nat) {off : Nat} (h : off % 4 = 0) : wordBytes word off 4 = le 4 (word off) := by
  have hoff : off / 4 * 4 = off := by omega
  simp [wordBytes, h, hoff, List.range_succ]

/-- Where no channel is between capture and swap, nothing settles. -/
theorem settleLocks_of_noLocks {s : State} (h : noLocks s) : settleLocks s = s := by
  have hall : (s.dma.ch.toList.all fun x => x.lockUntil.isNone) = true := by
    simp only [List.all_eq_true]
    intro x hx
    obtain ⟨c, hc, rfl⟩ := List.getElem_of_mem hx
    have hc' : c < 64 := by simpa using hc
    have := h c hc'
    simp only [vget, Vector.getElem?_eq_getElem hc', Option.getD_some] at this
    simp [this]
  unfold settleLocks
  rw [hall]
  rfl

/-! ### Registers of BAR0 and BAR2 -/

/-- A read of BAR0 outside the queue windows. -/
theorem regRead_bar0 {s : State} {off : Nat} (size : Nat) (hu : up s) (hl : noLocks s) (hoff : off < 0x10000) :
    regRead 0 off size s = clearBar0 off size (out (.readData (wordBytes (bar0Word s) off size)) s) := by
  have hw : inRange 0x10000 0x1FFFF off = false := by
    simp only [inRange, Bool.and_eq_false_iff, decide_eq_false_iff_not]
    omega
  have hm : off % 2 ^ 24 = off := Nat.mod_eq_of_lt (by omega)
  simp only [regRead, bar0Read, hm, up_bar0Up hu, settleLocks_of_noLocks hl, hw, Bool.not_true, Bool.false_eq_true, if_false]

/-- A read of a word of no register of type RC clears nothing. -/
theorem clearBar0_none {off : Nat} (s : State) (h1 : off ≠ 0x014) (h2 : off ≠ 0x018) (h3 : off < 0x1000) (h4 : off % 4 = 0) : clearBar0 off 4 s = s := by
  have hc (r : Nat) (hr : r % 4 = 0) (hne : off ≠ r) : covers off 4 r = false := by
    simp only [covers, inRange, Bool.and_eq_false_iff, decide_eq_false_iff_not]
    omega
  simp only [clearBar0, hc 0x014 rfl h1, hc 0x018 rfl h2, hc 0x2018 rfl (by omega), Bool.false_eq_true, if_false]

/-- An aligned read of one word of BAR0 outside the queue windows gives the word and clears what it covers. -/
theorem registerRead_word {off : Nat} {new : State → State} (hoff : off < 0x10000) (h4 : off % 4 = 0)
    (hnew : ∀ s, clearBar0 off 4 (out (.readData (le 4 (bar0Word s off))) s) = new s) (hs : ∀ s, Settled s (new s)) :
    Exactly (.rcRegisterRead · 0 off 4) (fun s => up s ∧ noLocks s) new := by
  refine exactly_of (fun _ _ => rfl) fun q _ ⟨hu, hl⟩ => ⟨?_, hs q⟩
  rw [regRead_bar0 4 hu hl hoff, wordBytes_word _ h4, hnew]

theorem registerRead_plain (off size : Nat) (h4 : off % 4 = 0) (hs : size = 4) (h1 : off ≠ 0x014) (h2 : off ≠ 0x018) (h3 : off < 0x1000) :
    Exactly (.rcRegisterRead · 0 off size) (fun s => up s ∧ noLocks s) (fun s => out (.readData (le 4 (bar0Word s off))) s) := by
  subst hs
  exact registerRead_word (by omega) h4 (fun _ => clearBar0_none _ h1 h2 h3 h4) fun _ => ⟨rfl, rfl, rfl, rfl, rfl⟩

theorem registerRead_badAccess :
    Exactly (.rcRegisterRead · 0 0x014 4) (fun s => up s ∧ noLocks s)
      (fun s => { out (.readData (le 4 s.host.badAccess)) s with host := { s.host with badAccess := 0 } }) :=
  registerRead_word (by decide) rfl (fun _ => rfl) fun _ => ⟨rfl, rfl, rfl, rfl, rfl⟩

theorem registerRead_bar4Dropped :
    Exactly (.rcRegisterRead · 0 0x018 4) (fun s => up s ∧ noLocks s)
      (fun s => { out (.readData (le 4 s.host.bar4Dropped)) s with host := { s.host with bar4Dropped := 0 } }) :=
  registerRead_word (by decide) rfl (fun _ => rfl) fun _ => ⟨rfl, rfl, rfl, rfl, rfl⟩

theorem registerRead_eventsLost :
    Exactly (.rcRegisterRead · 0 0x2018 4) (fun s => up s ∧ noLocks s)
      (fun s => { out (.readData (le 4 s.host.evt.lost)) s with host := { s.host with evt := { s.host.evt with lost := 0 } } }) :=
  registerRead_word (by decide) rfl (fun _ => rfl) fun _ => ⟨rfl, rfl, rfl, rfl, rfl⟩

/-- A read that covers a register of type RC in part clears nothing (R13). -/
theorem registerRead_unaligned :
    Exactly (.rcRegisterRead · 0 0x016 2) (fun s => up s ∧ noLocks s) (fun s => out (.readData ((le 4 s.host.badAccess).drop 2)) s) := by
  refine exactly_of (fun _ _ => rfl) fun q _ ⟨hu, hl⟩ => ⟨?_, rfl, rfl, rfl, rfl, rfl⟩
  rw [regRead_bar0 2 hu hl (by decide)]
  rfl

theorem registerRead_wedged (off size : Nat) :
    Exactly (.rcRegisterRead · 0 off size) (fun s => ¬ up s) (fun s => out (.readData (ones size)) (wedgedAccess s)) := by
  refine exactly_of (fun _ _ => rfl) fun q _ hu => ⟨?_, rfl, rfl, rfl, rfl, rfl⟩
  simp only [regRead, bar0Read, not_up_bar0Up hu, Bool.not_false, if_true]
  rfl

theorem registerRead_bar0Wedged :
    Exactly (.rcRegisterRead · 2 0x0014 4) (fun s => hfReached s .bar2 = true)
      (fun s => { out (.readData (le 4 s.hf.bar0Wedged)) s with hf := { s.hf with bar0Wedged := 0 } }) := by
  refine exactly_of (fun _ _ => rfl) fun q _ hr => ⟨?_, rfl, rfl, rfl, rfl, rfl⟩
  simp only [regRead, hr, if_true, bar2Read]
  rfl

/-- A write of BAR0 while the fabric runs: aligned, its words; else it is counted (R581). -/
theorem regWrite_bar0 {s : State} (off size v : Nat) (hu : up s) :
    regWrite 0 off size v s = if aligned off size then writeWords bar0Write32 (off % 2 ^ 24) size v s else countBad s := by
  simp only [regWrite, bar0Write, up_bar0Up hu, if_true]

theorem registerWrite_bar4Page (v : Nat) (hv : v < 2 ^ 32) :
    Exactly (.registerWrite · 0 0x010 4 v) up (fun s => { s with host := { s.host with bar4Page := v % 256 } }) := by
  refine exactly_of (fun _ _ => rfl) fun q _ hu => ⟨?_, rfl, rfl, rfl, rfl, rfl⟩
  rw [regWrite_bar0 _ _ _ hu]
  show bar0Write32 0x010 (lo32 v) q = _
  rw [lo32_of_lt hv]
  rfl

theorem registerWrite_unaligned (off size v : Nat) (ha : aligned off size = false) :
    Exactly (.registerWrite · 0 off size v) up (fun s => { s with host := { s.host with badAccess := wrap32 (s.host.badAccess + 1) } }) := by
  refine exactly_of (fun _ _ => rfl) fun q _ hu => ⟨?_, rfl, rfl, rfl, rfl, rfl⟩
  rw [regWrite_bar0 _ _ _ hu, ha]
  rfl

theorem registerWrite_readOnly (v : Nat) : Exactly (.registerWrite · 0 0x000 4 v) up id := by
  refine exactly_of (fun _ _ => rfl) fun q _ hu => ⟨?_, .refl q⟩
  rw [regWrite_bar0 _ _ _ hu]
  rfl

/-- A word of a command ring pair is written by the pair's rule. -/
theorem bar0Write32_ring {n r : Nat} (v : Nat) (s : State) (hn : n < 4) (hr : r < 0x40) :
    bar0Write32 (0x1000 + 0x40 * n + r) v s = ringWrite32 n r (0x1000 + 0x40 * n + r) v s := by
  have h0 : 0x1000 + 0x40 * n + r ≠ 0x010 := by omega
  have h1 : inRange 0x1000 0x10FF (0x1000 + 0x40 * n + r) = true := by
    simp only [inRange, Bool.and_eq_true, decide_eq_true_eq]
    omega
  have h2 : (0x1000 + 0x40 * n + r - 0x1000) / 0x40 = n := by omega
  have h3 : (0x1000 + 0x40 * n + r) % 0x40 = r := by omega
  simp only [bar0Write32, h0, h1, h2, h3, if_true, if_false]

/-- A low half waits only for the high half that follows it (R582). -/
theorem highHalf_lowHalf (off old lo hi : Nat) {s : State} (h : s.host.lowHalves = []) :
    highHalf off old hi (lowHalf off lo s) = (hi * 2 ^ 32 + lo, s) := by
  have hs : { s with host := { s.host with lowHalves := [] } } = s := by rw [← h]
  simpa [highHalf, lowHalf, h] using hs

/-- Both halves of a ring's base in one access. -/
theorem registerWrite_cmdBase (n v : Nat) (hn : n < 4) (hv : v < 2 ^ 64) :
    Exactly (.registerWrite · 0 (0x1000 + 0x40 * n) 8 v)
      (fun s => up s ∧ (vget s.host.rings n).enabled = false ∧ s.host.lowHalves = []) (setRing n fun p => { p with cmdBase := v / 4096 * 4096 }) := by
  refine exactly_of (fun _ _ => rfl) fun q _ ⟨hu, he, hh⟩ => ⟨?_, rfl, rfl, rfl, rfl, rfl⟩
  have ha : aligned (0x1000 + 0x40 * n) 8 = true := by
    simp only [aligned, decide_true, Bool.true_and, Bool.or_eq_true, decide_eq_true_eq]
    omega
  have hm : (0x1000 + 0x40 * n) % 2 ^ 24 = 0x1000 + 0x40 * n := Nat.mod_eq_of_lt (by omega)
  have hlow : bar0Write32 (0x1000 + 0x40 * n) (lo32 v) q = lowHalf (0x1000 + 0x40 * n) (lo32 v) q :=
    bar0Write32_ring _ q hn (r := 0) (by decide)
  have hhigh (s : State) := bar0Write32_ring (hi32 v) s hn (r := 4) (by decide)
  rw [regWrite_bar0 _ _ _ hu, ha, hm]
  simp only [if_true, writeWords, hlow, hhigh, ringWrite32, Nat.add_sub_cancel, highHalf_lowHalf _ _ _ _ hh, hi32_lo32 hv, ringSetWrite, he,
    Bool.not_true, Bool.or_self, Bool.false_eq_true, if_false]

theorem registerWrite_wedged (off size v : Nat) : Exactly (.registerWrite · 0 off size v) (fun s => ¬ up s) wedgedAccess := by
  refine exactly_of (fun _ _ => rfl) fun q _ hu => ⟨?_, rfl, rfl, rfl, rfl, rfl⟩
  simp only [regWrite, bar0Write, not_up_bar0Up hu, Bool.false_eq_true, if_false]
  rfl

theorem registerWrite_logIndex (v : Nat) (hv : v < 2 ^ 32) :
    Exactly (.registerWrite · 2 0x0020 4 v) (fun s => hfReached s .bar2 = true) (fun s => { s with hf := { s.hf with logIndex := v } }) := by
  refine exactly_of (fun _ _ => rfl) fun q _ hr => ⟨?_, rfl, rfl, rfl, rfl, rfl⟩
  simp only [regWrite, hr, Bool.not_true, Bool.false_eq_true, if_false]
  show bar2Write32 .bar2 0x0020 (lo32 v) q = _
  rw [lo32_of_lt hv]
  rfl

/-! ### Queue windows -/

/-- A window read while the fabric runs (R589). -/
theorem windowRead_exec {q : Nat} (off size : Nat) (hq : q < 16) {cond : State → Prop} {new : State → State} (hu : ∀ s, cond s → up s)
    (h : ∀ s : State, s.Inv → cond s → out (.readData (windowRead q off size s).1) (windowRead q off size s).2 = new s ∧ Settled s (new s)) :
    Exactly (.queueWindowRead · q off size) cond new := by
  refine exactly_of (show ∀ t s, exec (.queueWindowRead t q off size) s = execQueueWindowRead t q off size s from fun _ _ => rfl) fun s hi hc => ?_
  have hq' : ¬ 16 ≤ q := by omega
  simpa only [up_bar0Up (hu s hc), hq', Bool.not_true, Bool.false_eq_true, if_false] using h s hi hc

/-- The first bytes of a window are those of the record latched (Table 13-9). -/
theorem windowBytes_take {x : Queue} {n : Nat} (hl : x.latched.length = 64) (hn : n ≤ 64) :
    (padTo 4096 (windowBytes x)).take n = x.latched.take n := by
  have hlen : n ≤ (windowBytes x).length := by
    simp only [windowBytes, List.length_append, padTo_length]
    omega
  rw [padTo_take (by omega) hlen, windowBytes]
  simp only [List.append_assoc]
  rw [List.take_append_of_le_length (by simpa using hn), padTo_take hn (by omega)]

/-- A window read that takes a record gives the first bytes of what it has latched (R589). -/
theorem windowRead_takes {q n : Nat} {s r : State} (hn : n ∈ ([4, 8, 16, 32, 64] : List Nat)) (hr : (takeRecord q s).2 = r)
    (hl : (vget r.scribe.queues q).latched.length = 64) :
    windowRead q 0 n s = ((vget r.scribe.queues q).latched.take n, r) := by
  have hc : ([4, 8, 16, 32, 64] : List Nat).contains n = true := List.contains_iff_mem.2 hn
  have hle : n ≤ 64 := by fin_cases hn <;> decide
  simp only [windowRead, hc, and_self, if_true, hr, List.drop_zero, windowBytes_take hl hle]

theorem takeRecord_none {q : Nat} {s : State} (h : (vget s.scribe.queues q).head = 0 ∨ relayedAway s q = true) :
    (takeRecord q s).2 = setQueue q (fun x => { x with
      latched := zeros 64, latchedEmpty := true, idleDone := false, cnt := { x.cnt with emptyReads := wrap32 (x.cnt.emptyReads + 1) } }) s := by
  simp only [takeRecord, h, if_true]

theorem windowRead_empty (q size : Nat) (hq : q < 16) (hs : size ∈ ([4, 8, 16, 32, 64] : List Nat)) :
    Exactly (.queueWindowRead · q 0 size) (fun s => up s ∧ ((vget s.scribe.queues q).head = 0 ∨ relayedAway s q = true))
      (fun s => out (.readData (zeros size)) (setQueue q (fun x => { x with
        latched := zeros 64, latchedEmpty := true, idleDone := false, cnt := { x.cnt with emptyReads := wrap32 (x.cnt.emptyReads + 1) } }) s)) := by
  refine windowRead_exec 0 size hq (fun _ h => h.1) fun s _ ⟨_, he⟩ => ⟨?_, rfl, rfl, rfl, rfl, rfl⟩
  have hle : size ≤ 64 := by fin_cases hs <;> decide
  rw [windowRead_takes hs (takeRecord_none he) (by rw [setQueue_queues, vget_vmod_self _ _ _ hq, zeros_length]), setQueue_queues,
    vget_vmod_self _ _ _ hq, zeros_take hle]

/-- A queue without a threshold re-arms and signals nothing (R445). -/
theorem queueLevel_off {q : Nat} {s : State} (h : (vget s.scribe.queues q).threshold = 0) :
    queueLevel q s = setQueue q (fun x => { x with thresholdDone := false }) s := by
  unfold queueLevel
  simp only [h, ne_eq, not_true_eq_false, decide_false, Bool.and_false, Bool.false_and, Bool.false_eq_true, if_false, Bool.not_false, Bool.true_and]
  split
  · rfl
  · rename_i hd
    refine (setQueue_eq_self ?_).symm
    rw [← Bool.eq_false_of_not_eq_true hd]

theorem takeRecord_takes {q : Nat} {s : State} (hq : q < 16) (hi : s.Inv) (hh : (vget s.scribe.queues q).head ≠ 0) (hr : relayedAway s q = false)
    (ht : (vget s.scribe.queues q).threshold = 0) :
    (takeRecord q s).2 =
      let x := vget s.scribe.queues q
      let bytes := memRead s.bench.mem (recordOff x x.rd) 64
      setQueue q (fun x => { x with
        rd := nextRead x, head := min (x.head - 1) ((x.wr + 2 ^ 32 - nextRead x) % 2 ^ 32), latched := bytes, latchedEmpty := false
        idleDone := false, idleSince := s.now, thresholdDone := false }) s := by
  simp only [takeRecord, hh, hr, Bool.false_eq_true, or_self, if_false, benchRead, memNow_of_inv hi]
  rw [queueLevel_off (by rw [setQueue_queues, vget_vmod_self _ _ _ hq]; exact ht), setQueue_setQueue]
  exact setQueue_congr rfl

theorem windowRead_record (q : Nat) (hq : q < 16) :
    Exactly (.queueWindowRead · q 0 64)
      (fun s => up s ∧ (vget s.scribe.queues q).head ≠ 0 ∧ relayedAway s q = false ∧ (vget s.scribe.queues q).threshold = 0)
      (fun s =>
        let x := vget s.scribe.queues q
        let bytes := memRead s.bench.mem (recordOff x x.rd) 64
        out (.readData bytes) (setQueue q (fun x => { x with
          rd := nextRead x, head := min (x.head - 1) ((x.wr + 2 ^ 32 - nextRead x) % 2 ^ 32), latched := bytes, latchedEmpty := false
          idleDone := false, idleSince := s.now, thresholdDone := false }) s)) := by
  refine windowRead_exec 0 64 hq (fun _ h => h.1) fun s hi ⟨_, hh, hr, ht⟩ => ⟨?_, rfl, rfl, rfl, rfl, rfl⟩
  have hlen := memRead_length s.bench.mem (recordOff (vget s.scribe.queues q) (vget s.scribe.queues q).rd) 64
  rw [windowRead_takes (by decide) (takeRecord_takes hq hi hh hr ht) (by simp only [setQueue_queues, vget_vmod_self _ _ _ hq, hlen])]
  simp only [setQueue_queues, vget_vmod_self _ _ _ hq, List.take_of_length_le (Nat.le_of_eq hlen)]

theorem windowRead_rest (q off size : Nat) (hq : q < 16) (hoff : off ≠ 0) :
    Exactly (.queueWindowRead · q off size) up
      (fun s => out (.readData (((padTo 4096 (windowBytes (vget s.scribe.queues q))).drop off).take size)) s) := by
  refine windowRead_exec off size hq (fun _ h => h) fun s _ _ => ⟨?_, rfl, rfl, rfl, rfl, rfl⟩
  simp only [windowRead, hoff, false_and, if_false]

/-! ### BAR4 -/

theorem stackOf_lt (o : Nat) : stackOf o < 2 := by
  unfold stackOf
  split <;> decide

/-- Where both stacks serve requests, a BAR4 read finds the Bench's bytes (R587). -/
theorem bar4Bytes_ready {s : State} {off n : Nat} (hi : s.Inv) (hc : ∀ k : Nat, k < 2 → (vget s.bench.ctl k).state = .ready)
    (hb : off + n ≤ benchSize) (hf : ∀ i : Nat, i < n → inFirmware (off + i) = false) : bar4Bytes off n s = (memRead s.bench.mem off n, s) := by
  have h0 := hc _ (stackOf_lt off)
  have hlen := memRead_length s.bench.mem off n
  simp only [bar4Bytes, h0, reduceCtorEq, or_self, if_false, Prod.mk.injEq, and_true, benchRead, memNow_of_inv hi]
  refine List.ext_getElem (by simp) fun i h1 h2 => ?_
  have hin : i < n := by omega
  have hlt : ¬ benchSize ≤ off + i := by omega
  simp [hlt, hf i hin, stackFrozen, hc _ (stackOf_lt _)]

theorem not_asleep {s : State} (h0 : (vget s.bench.ctl 0).state = .ready) (h1 : (vget s.bench.ctl 1).state = .ready) : benchAsleep s = false := by
  simp [benchAsleep, h0, h1]

theorem bar4Read_serves (a size : Nat) :
    Exactly (.bar4Read · a size)
      (fun s => up s ∧ s.bench.entering = none ∧ (vget s.bench.ctl 0).state = .ready ∧ (vget s.bench.ctl 1).state = .ready ∧
        s.host.bar4Page * 2 ^ s.host.pcie.bar4Log + a + size ≤ benchSize ∧
        (∀ i : Nat, i < size → inFirmware (s.host.bar4Page * 2 ^ s.host.pcie.bar4Log + a + i) = false))
      (fun s => out (.readData (memRead s.bench.mem (s.host.bar4Page * 2 ^ s.host.pcie.bar4Log + a) size))
        { s with bench := { s.bench with lastRequest := s.now } }) := by
  refine exactly_of (fun _ _ => rfl) fun q hi ⟨hu, hen, h0, h1, hb, hf⟩ => ⟨?_, rfl, rfl, rfl, rfl, rfl⟩
  have hc : ∀ k : Nat, k < 2 → (vget q.bench.ctl k).state = .ready := by
    intro k hk
    interval_cases k <;> assumption
  have he : q.bench.entering.isSome = false := by rw [hen]; rfl
  have hbytes := bar4Bytes_ready (s := { q with bench := { q.bench with lastRequest := q.now } }) ⟨hi.mem, hi.writes, hi.emptied⟩ hc hb hf
  simp only [bar4Read, bar4Offset, up_bar0Up hu, not_asleep h0 h1, he, Bool.not_true, Bool.false_eq_true, Bool.false_and, if_false]
  rw [hbytes]

theorem bar4Read_commanded (a size : Nat) :
    Exactly (.bar4Read · a size)
      (fun s => up s ∧ benchAsleep s = true ∧ (s.bench.forced = true ∨ (s.bench.autoEntered = false ∧ s.bench.exiting = false)))
      (fun s => out (.readData (ones size)) { s with bench := { s.bench with hostHeld := wrap32 (s.bench.hostHeld + 1) } }) := by
  refine exactly_of (fun _ _ => rfl) fun q _ ⟨hu, hs, hk⟩ => ⟨?_, rfl, rfl, rfl, rfl, rfl⟩
  have hc : (q.bench.forced || !(q.bench.autoEntered || q.bench.exiting)) = true := by
    rcases hk with h | ⟨h1, h2⟩
    · rw [h, Bool.true_or]
    · rw [h1, h2, Bool.or_false, Bool.not_false, Bool.or_true]
  simp only [bar4Read, up_bar0Up hu, hs, hc, Bool.and_self, Bool.not_true, Bool.false_eq_true, if_false, if_true]
  rfl

theorem bar4Read_waits (a size : Nat) :
    Exactly (.bar4Read · a size) (fun s => up s ∧ benchAsleep s = true ∧ s.bench.forced = false ∧ s.bench.autoEntered = true)
      (fun s => { s with bench := { s.bench with
        exiting := true, hostWaiting := s.bench.hostWaiting ++ [(s.host.bar4Page * 2 ^ s.host.pcie.bar4Log + a, size)] } }) := by
  refine exactly_of (fun _ _ => rfl) fun q _ ⟨hu, hs, hf, ha⟩ => ⟨?_, rfl, rfl, rfl, rfl, rfl⟩
  have hc : (q.bench.forced || !(q.bench.autoEntered || q.bench.exiting)) = false := by
    rw [hf, ha, Bool.true_or, Bool.not_true, Bool.or_self]
  simp only [bar4Read, up_bar0Up hu, hs, hc, Bool.and_false, Bool.not_true, Bool.false_eq_true, if_false, if_true]
  rfl

theorem bar4Read_wedged (a size : Nat) : Exactly (.bar4Read · a size) (fun s => ¬ up s) (fun s => out (.readData (ones size)) s) := by
  refine exactly_of (fun _ _ => rfl) fun q _ hu => ⟨?_, rfl, rfl, rfl, rfl, rfl⟩
  simp only [bar4Read, not_up_bar0Up hu, Bool.not_false, if_true]

theorem bar4Write_drops (a size : Nat) :
    Exactly (.bar4Write · a size) (fun s => up s ∧ benchAsleep s = false)
      (fun s => { s with host := { s.host with bar4Dropped := wrap32 (s.host.bar4Dropped + 1) } }) := by
  refine exactly_of (fun _ _ => rfl) fun q _ ⟨hu, hs⟩ => ⟨?_, rfl, rfl, rfl, rfl, rfl⟩
  have hs' : benchAsleep { q with host := { q.host with bar4Dropped := wrap32 (q.host.bar4Dropped + 1) } } = false := hs
  simp only [bar4Write, up_bar0Up hu, hs', Bool.not_true, Bool.false_eq_true, Bool.false_and, if_false]

theorem bar4Write_wedged (a size : Nat) : Exactly (.bar4Write · a size) (fun s => ¬ up s) id := by
  refine exactly_of (fun _ _ => rfl) fun q _ hu => ⟨?_, .refl q⟩
  simp only [bar4Write, not_up_bar0Up hu, Bool.not_false, if_true, id_eq]

/-- Settles O40: each access by the rule of its kind. -/
theorem registersWindowsAndBar4 : Obligations.RegistersWindowsAndBar4 :=
  ⟨registerRead_plain, registerRead_badAccess, registerRead_bar4Dropped, registerRead_eventsLost, registerRead_unaligned, registerRead_wedged,
    registerRead_bar0Wedged, registerWrite_bar4Page, registerWrite_unaligned, fun v _ => registerWrite_readOnly v, registerWrite_cmdBase, registerWrite_wedged,
    registerWrite_logIndex, windowRead_empty, windowRead_record, windowRead_rest, bar4Read_serves, bar4Read_commanded, bar4Read_waits,
    bar4Read_wedged, bar4Write_drops, bar4Write_wedged⟩

end Sys2Proof.Machine

/-! ## The acknowledgement of a relayed record (R693) -/

namespace Sys2Proof.Machine

/-! ### Release of a record -/

theorem reportLedger_frame (q : Nat) (s : State) : OutFrame s (reportLedger q s) := by
  unfold reportLedger
  simp only
  split <;> rfl

/-- A record without a patch ends with its ticket. -/
theorem endRecord_plain {q : Nat} {r : LiveRec} {code : Nat} {s : State} (hr : r.patchTicket = none) (hp : (vget s.scribe.queues q).patches = []) :
    endRecord q r code s = endTicket r.ticket code s := by
  unfold endRecord dropPatch
  rw [(endTicket_frame r.ticket code s).scribe, hp, hr]
  rfl

/-- The only record of a queue is released: its ticket ends COMPLETE, and REL moves behind it (R444). -/
theorem releaseTo_only {q n : Nat} {s : State} {l : LiveRec} (hn : n + 1 < 2 ^ 32) (hl : (vget s.scribe.queues q).live = [l]) (hs : l.seq = n)
    (hrel : (vget s.scribe.queues q).rel = n) (hw : l.patchTicket = none) (hp : (vget s.scribe.queues q).patches = []) :
    ∃ x : Queue, x.live = [] ∧ x.rel = n + 1 ∧ x.rd = (vget s.scribe.queues q).rd ∧ x.wr = (vget s.scribe.queues q).wr ∧
      OutFrame (setQueue q (fun _ => x) { s with ledger := (endTicket l.ticket 0 s).ledger }) (releaseTo q (n + 1) s).2 := by
  have hlate := later32_succ hn
  unfold releaseTo
  simp only [hl, hs, hrel, hlate, Bool.not_true, Bool.false_eq_true, if_false, List.filter_cons_of_pos, List.filter_nil, List.foldl_cons, List.foldl_nil,
    endRecord_plain hw hp]
  refine ⟨_, ?_, ?_, ?_, ?_, (reportLedger_frame _ _).after (((endTicket_frame l.ticket 0 s).setQueue q _).after
    (by rw [setQueue_congr (g := fun _ => _) rfl]; rfl))⟩
  all_goals simp [hl, hs, hlate]

/-! ### The acknowledgement of a relayed record -/

/-- The source of a relay has nothing to send from an empty queue. -/
theorem relaySend_empty {q : Nat} {s : State} (h : (vget s.scribe.queues q).live = []) : relaySend q s = s := by
  unfold relaySend
  split
  · rfl
  · split
    · rfl
    · simp [relayReady, h]

theorem relaySend_sources {q : Nat} {s : State} (l : List RelayState) (h : (vget s.scribe.queues q).live = []) :
    relaySend q { s with ring := { s.ring with sources := l } } = { s with ring := { s.ring with sources := l } } := relaySend_empty h

/-- The source of a relay is told that its only record, already sent, has been placed: it releases the record, and the stall of the relay is
over (R693, R694). -/
theorem relayAcked_only {q n : Nat} {s : State} {k : RelayState} {l : LiveRec} (hq : q < 16) (hn : n + 1 < 2 ^ 32) (hk : k.srcQueue = q)
    (hsrc : s.ring.sources = [k]) (hl : (vget s.scribe.queues q).live = [l]) (hs : l.seq = n) (hrel : (vget s.scribe.queues q).rel = n)
    (hrd : (vget s.scribe.queues q).rd = n + 1) (hw : l.patchTicket = none) (hp : (vget s.scribe.queues q).patches = []) :
    ∃ x : Queue, x.live = [] ∧ x.rel = n + 1 ∧ x.rd = n + 1 ∧ x.wr = (vget s.scribe.queues q).wr ∧
      OutFrame { setQueue q (fun _ => x) { s with ledger := (endTicket l.ticket 0 s).ledger } with
        ring := { s.ring with sources := [{ k with stallSince := none, stallRaised := false }] } } (relayAcked q n s) := by
  obtain ⟨x, x1, x2, x3, x4, hx⟩ := releaseTo_only hn hl hs hrel hw hp
  refine ⟨x, x1, x2, x3.trans hrd, x4, ?_⟩
  have haway : relayedAway s q = true := by simp [relayedAway, hsrc, hk]
  have hwrap : wrap32 (n + 1) = n + 1 := Nat.mod_eq_of_lt hn
  simp only [relayAcked, haway, if_true, hwrap, hrd, later32_self, Bool.false_eq_true, if_false]
  generalize (releaseTo q (n + 1) s).2 = r at hx ⊢
  have hring : r.ring.sources = [k] := by rw [hx.ring]; exact hsrc
  have hempty : (vget r.scribe.queues q).live = [] := by rw [hx.scribe, setQueue_queues, vget_vmod_self _ _ _ hq, x1]
  simp only [hring, List.map_cons, List.map_nil, hk, if_true]
  rw [relaySend_sources _ hempty]
  exact hx.withSources _

/-- What `Obligations.RingRelays` says of the gateway's acknowledgement holds wherever the ledger is well-formed, so that no slot is issued twice:
the record is released at its source and its ticket ends COMPLETE (R693). -/
theorem relayAckRx_releases {t q n : Nat} {s : State} {k : RelayState} {l : LiveRec} (hi : s.Inv) (hwf : LedgerWf s.ledger) (hq : q < 16)
    (hl : l.seq = n) (hk : k.srcQueue = q) (hn : n + 1 < 2 ^ 32) (hu : up s) (h14 : partUp s 14 = true) (h15 : partUp s 15 = true)
    (hsrc : s.ring.sources = [k]) (hlive : (vget s.scribe.queues q).live = [l]) (hrel : (vget s.scribe.queues q).rel = n)
    (hrd : (vget s.scribe.queues q).rd = n + 1) (ht : ticketLive s.ledger l.ticket = true) (hw : l.patchTicket = none)
    (hp : (vget s.scribe.queues q).patches = []) :
    Next (.relayAckRx t q n) s fun r =>
      (vget r.scribe.queues q).live = [] ∧ (vget r.scribe.queues q).rel = n + 1 ∧ (vget r.scribe.queues q).rd = n + 1 ∧
      (vget r.scribe.queues q).wr = (vget s.scribe.queues q).wr ∧ r.ledger.complete = s.ledger.complete + 1 ∧ r.ledger.failed = s.ledger.failed ∧
      ticketLive r.ledger l.ticket = false ∧ r.ring.sources = [{ k with stallSince := none, stallRaised := false }] ∧ r.bench.mem = s.bench.mem ∧
      r.running = s.running := by
  obtain ⟨hc, hf, hd⟩ := endTicket_ends (s := tick t s) 0 ht (hwf.1.imp Nat.ne_of_lt)
  obtain ⟨x, x1, x2, x3, x4, hx⟩ := relayAcked_only (s := tick t s) hq hn hk hsrc hlive hl hrel hrd hw hp
  have hr := (commit_quiet t hi hx.bench hx.pending).after hx
  have hup : ∀ k ∈ [14, 15], partUp (tick t s) k = true := by simpa using ⟨h14, h15⟩
  refine ⟨commit (tick t s) (relayAcked q n (tick t s)), ?_, ?_⟩
  · rw [← onFabric_up (s := tick t s) (relayAcked q n) hu hup]
    show execRelayAckRx t q n s = _
    simp only [execRelayAckRx, runFabric, runAt, hq, if_true]
  · generalize commit (tick t s) (relayAcked q n (tick t s)) = r at hr ⊢
    have hqueue : vget r.scribe.queues q = x := by rw [hr.scribe, setQueue_queues, vget_vmod_self _ _ _ hq]
    simp only [hqueue, hr.ledger, hr.ring, hr.bench, hr.running]
    exact ⟨x1, x2, x3, x4, hc, hf, hd, trivial, rfl, rfl⟩

/-- A state whose ledger lists slot 3 twice, as issued and in its last generation, which `State.Inv` does not exclude; record 6 of queue 2 carries
the slot's ticket and waits for the gateway's acknowledgement. -/
def slotTwiceIssued : State :=
  let r := State.reset
  let s := setQueue 2 (fun x => { x with on := true, cap := 64, wr := 7, rd := 7, rel := 6, live := [{ seq := 6, ticket := 3 + 2 ^ 18 * 16383 }] }) r
  { s with
    hf := { s.hf with fabric := .running }
    bench := { s.bench with ctl := .replicate 2 { (vget s.bench.ctl 0) with state := .ready } }
    ring := { s.ring with sources := [{ srcQueue := 2 }] }
    ledger := { s.ledger with issued := [3, 3], gens := [(3, 16383), (3, 16383)] } }

/-- Ending the ticket takes one of the slot's two places and one of its two generations: the ticket stays live. -/
theorem relayAckRx_slotTwiceIssued :
    ∃ r, exec (.relayAckRx 0 2 6) slotTwiceIssued = .next r ∧ ticketLive r.ledger (3 + 2 ^ 18 * 16383) = true :=
  ⟨_, rfl, by decide +kernel⟩

/-- Refutes O57: the acknowledgement of a record whose slot is listed twice in the ledger leaves the record's ticket live. The statement asks for
`State.Inv`, which says nothing of the ledger; `relayAckRx_releases` is the same clause with `LedgerWf`. -/
theorem not_ringRelays : ¬ Obligations.RingRelays := by
  unfold Obligations.RingRelays
  rintro ⟨-, -, -, -, hack, -, -, -⟩
  obtain ⟨r, hr, -, -, -, -, -, -, hdead, -⟩ := hack 0 2 6 slotTwiceIssued { srcQueue := 2 } { seq := 6, ticket := 3 + 2 ^ 18 * 16383 } ⟨rfl, rfl, rfl⟩
    (by decide) rfl rfl (by decide) rfl (by decide +kernel) (by decide +kernel) rfl (by decide +kernel) (by decide +kernel) (by decide +kernel)
    (by decide +kernel) rfl (by decide +kernel)
  obtain ⟨r', hr', hlive⟩ := relayAckRx_slotTwiceIssued
  obtain rfl : r' = r := by
    rw [hr'] at hr
    exact Host.Outcome.next.inj hr
  rw [hlive] at hdead
  cases hdead

end Sys2Proof.Machine

/-! ## What every step keeps (R16, R24, R27, R531), and the state after reset (R46, R592, R657, R746) -/

namespace Sys2Proof.Machine

/-- A command answers with the commit, at some time, of what its effect has left. -/
def Commits (s : State) (o : Host.Outcome State Fault Refusal) : Prop := ∃ (t : Nat) (q : State), o = .next (commit (tick t s) q)

/-- Every arm of `exec` is one effect between the passing of time and its commit: none faults, and none refuses. -/
theorem exec_commits (i : Instr) (s : State) : Commits s (exec i s) := by
  cases i <;> exact ⟨_, _, rfl⟩

/-- Whatever an effect did, its commit leaves the Bench in its canonical form with nothing outstanding. -/
theorem commit_inv {s : State} (t : Nat) (q : State) (h : s.Inv) : (commit (tick t s) q).Inv :=
  ⟨memNow_wf h.mem, rfl, rfl⟩

/-- Settles O2: a step is the commit of one effect on the state without its front command, or idles. -/
theorem stepAnswersAndKeepsTheInvariant : Obligations.StepAnswersAndKeepsTheInvariant := by
  intro s h
  unfold step
  cases hp : s.pending with
  | nil => exact ⟨s, rfl, h, le_rfl, hp⟩
  | cons i rest =>
    obtain ⟨t, q, hx⟩ := exec_commits i { s with pending := rest }
    exact ⟨_, hx, commit_inv t q ⟨h.mem, h.writes, h.emptied⟩, le_max_left _ _, rfl⟩

/-- Settles O3: the fields of `State.reset`, read one by one. -/
theorem resetLeavesTheDevice : Obligations.ResetLeavesTheDevice := by
  have hrings : ∀ n : Nat, n < 4 → (vget State.reset.host.rings n).enabled = false ∧ (vget State.reset.host.rings n).unread = 0 := by decide
  have haxes : ∀ a : Nat, a < 4 → (vget State.reset.axes.ax a).state = .disabled := by decide
  exact ⟨⟨rfl, rfl, rfl⟩, rfl, rfl, rfl, rfl, rfl, hrings, rfl, rfl, rfl, fun _ => rfl, rfl, rfl, rfl, rfl, haxes, rfl, rfl, rfl, rfl⟩

end Sys2Proof.Machine

/-! ## The ticket ledger (R40, R41, R43, R44) -/

namespace Sys2Proof.Machine

/-! ### Sparse tables and rising lists -/

/-- A value other than the default reads back. -/
theorem sget_sset_self {α : Type} [DecidableEq α] (l : List (Nat × α)) (k : Nat) {v d : α} (e : α) (hv : v ≠ d) : sget (sset l k v d) k e = v := by
  induction l with
  | nil => simp [sset, sget, hv]
  | cons a l ih =>
    obtain ⟨k', v'⟩ := a
    unfold sset
    split
    · next h => simp [sget, Nat.ne_of_lt h, ih]
    · split <;> simp [sget]

/-- A write leaves every other key as it was, also in a table that is not in order. -/
theorem sget_sset_ne {α : Type} [DecidableEq α] (l : List (Nat × α)) {k j : Nat} (v d e : α) (hj : k ≠ j) : sget (sset l k v d) j e = sget l j e := by
  induction l with
  | nil => by_cases hv : v = d <;> simp [sset, sget, hv, hj]
  | cons a l ih =>
    obtain ⟨k', v'⟩ := a
    unfold sset
    split
    · simp only [sget, ih]
    · split
      · next h => subst h; split <;> simp [sget, hj]
      · split <;> simp [sget, hj]

theorem mem_insertNat {x y : Nat} {l : List Nat} : y ∈ insertNat x l ↔ y = x ∨ y ∈ l := by
  unfold insertNat
  induction l with
  | nil => simp [insertBy]
  | cons z l ih =>
    unfold insertBy
    split
    · simp
    · simp only [List.mem_cons, ih]
      exact or_left_comm

/-- A number that a rising list lacks goes to its place. -/
theorem insertNat_rises {x : Nat} {l : List Nat} (hl : l.Pairwise (· < ·)) (hx : x ∉ l) : (insertNat x l).Pairwise (· < ·) := by
  induction l with
  | nil => simp [insertNat, insertBy]
  | cons z l ih =>
    obtain ⟨hz, hl'⟩ := List.pairwise_cons.1 hl
    obtain ⟨hxz, hxl⟩ := not_or.1 (List.mem_cons.not.1 hx)
    unfold insertNat insertBy
    split
    · next h =>
      have hlt : x < z := of_decide_eq_true h
      refine List.pairwise_cons.2 ⟨fun y hy => ?_, hl⟩
      rcases List.mem_cons.1 hy with rfl | hy
      · exact hlt
      · exact hlt.trans (hz y hy)
    · next h =>
      have hlt : z < x := by
        simp only [decide_eq_true_eq] at h
        omega
      refine List.pairwise_cons.2 ⟨fun y hy => ?_, ih hl' hxl⟩
      rcases mem_insertNat.1 hy with rfl | hy
      · exact hlt
      · exact hz y hy

/-- The merge of two lists rises and holds what they hold. -/
theorem mergeAsc_spec (a b : List Nat) : (mergeAsc a b).Pairwise (· < ·) ∧ ∀ y, y ∈ mergeAsc a b ↔ y ∈ a ∨ y ∈ b := by
  have hfold (l acc : List Nat) (h : acc.Pairwise (· < ·)) :
      (l.foldl (fun acc x => if x ∈ acc then acc else insertNat x acc) acc).Pairwise (· < ·) ∧
      ∀ y, y ∈ l.foldl (fun acc x => if x ∈ acc then acc else insertNat x acc) acc ↔ y ∈ acc ∨ y ∈ l := by
    induction l generalizing acc with
    | nil => simpa using h
    | cons x l ih =>
      simp only [List.foldl_cons, List.mem_cons]
      by_cases hx : x ∈ acc
      · obtain ⟨h1, h2⟩ := ih acc h
        simp only [hx, if_true]
        exact ⟨h1, fun y => by rw [h2]; grind⟩
      · obtain ⟨h1, h2⟩ := ih _ (insertNat_rises h hx)
        simp only [hx, if_false]
        exact ⟨h1, fun y => by rw [h2, mem_insertNat]; grind⟩
  have h := hfold (a ++ b) [] List.Pairwise.nil
  simp only [List.not_mem_nil, false_or, List.mem_append] at h
  exact h

/-- The lowest number from `k` on that a rising list of such numbers lacks is none of the list's. -/
theorem lowestSlot_notMem {k : Nat} {l : List Nat} (hl : l.Pairwise (· < ·)) (hk : ∀ x ∈ l, k ≤ x) : k ≤ lowestSlot k l ∧ lowestSlot k l ∉ l := by
  induction l generalizing k with
  | nil => simp [lowestSlot]
  | cons x l ih =>
    obtain ⟨hx, hl'⟩ := List.pairwise_cons.1 hl
    have hkx := hk x (by simp)
    unfold lowestSlot
    split
    · next h =>
      refine ⟨le_rfl, fun hm => ?_⟩
      rcases List.mem_cons.1 hm with rfl | hm
      · omega
      · have := hx k hm
        omega
    · obtain ⟨h1, h2⟩ := ih (k := x + 1) hl' fun y hy => hx y hy
      refine ⟨by omega, fun hm => ?_⟩
      rcases List.mem_cons.1 hm with hm | hm
      · omega
      · exact h2 hm

/-! ### Issue, decision and report -/

theorem LedgerWf.nodup {l : Ledger} (h : LedgerWf l) : l.issued.Nodup := h.1.imp Nat.ne_of_lt

/-- A ticket that is issued takes a slot that neither list holds (R43). -/
theorem nextSlot_free (s : State) : nextSlot s ∉ s.ledger.issued ∧ nextSlot s ∉ s.ledger.ended := by
  obtain ⟨hrise, hmem⟩ := mergeAsc_spec s.ledger.issued s.ledger.ended
  have h := (lowestSlot_notMem hrise fun x _ => Nat.zero_le x).2
  exact not_or.1 ((hmem _).not.1 h)

theorem ticketSlot_add {slot : Nat} (g : Nat) (h : slot < ledgerSlots) : ticketSlot (slot + 2 ^ 18 * g) = slot := by
  have h18 : slot < 2 ^ 18 := h
  unfold ticketSlot
  omega

theorem issueTicket_slot {w : Nat} {s r : State} (h : issueTicket s = some (w, r)) : nextSlot s < ledgerSlots ∧ ticketSlot w = nextSlot s := by
  unfold issueTicket at h
  simp only at h
  split at h
  · cases h
  · next hs =>
    have hlt : nextSlot s < ledgerSlots := Nat.lt_of_not_le hs
    obtain ⟨rfl, -⟩ := Prod.mk.inj (Option.some.inj h)
    exact ⟨hlt, ticketSlot_add _ hlt⟩

theorem issueTicket_wf {w : Nat} {s r : State} (hw : LedgerWf s.ledger) (h : issueTicket s = some (w, r)) : LedgerWf r.ledger := by
  obtain ⟨hi, -, -, he⟩ := issue_ledger h
  obtain ⟨hfi, hfe⟩ := nextSlot_free s
  obtain ⟨h1, h2, h3⟩ := hw
  refine ⟨?_, ?_, ?_⟩
  · rw [hi]
    exact insertNat_rises h1 hfi
  · rw [he]
    exact h2
  · intro x hx
    rw [hi] at hx
    rw [he]
    rcases mem_insertNat.1 hx with rfl | hx
    · exact hfe
    · exact h3 x hx

/-- The ledger after the deciding event of a ticket in use, field by field. -/
theorem decideTicket_ledger {w : Nat} {s : State} (code : Nat) (h : ticketLive s.ledger w = true) :
    (decideTicket w code s).ledger.ended = insertNat (ticketSlot w) s.ledger.ended ∧
    (decideTicket w code s).ledger.gens = s.ledger.gens ∧
    (decideTicket w code s).ledger.failedBy =
      if 0 < code ∧ code < 16 then sset s.ledger.failedBy code (sget s.ledger.failedBy code 0 + 1) 0 else s.ledger.failedBy := by
  unfold decideTicket
  simp only [h, Bool.not_true, Bool.false_eq_true, if_false]
  split <;> simp

theorem decideTicket_dead {w : Nat} {s : State} (code : Nat) (h : ticketLive s.ledger w = false) : decideTicket w code s = s := by
  simp [decideTicket, h]

theorem ticketLive_mem {l : Ledger} {w : Nat} (h : ticketLive l w = true) : ticketSlot w ∈ l.issued := by
  simp only [ticketLive, Bool.and_eq_true, List.contains_eq_mem, decide_eq_true_eq] at h
  exact h.1.2

theorem decideTicket_wf {w : Nat} {s : State} (code : Nat) (hw : LedgerWf s.ledger) : LedgerWf (decideTicket w code s).ledger := by
  cases hl : ticketLive s.ledger w with
  | false => rwa [decideTicket_dead code hl]
  | true =>
    obtain ⟨he, -, -⟩ := decideTicket_ledger code hl
    have hi := decideTicket_issued code hl
    obtain ⟨h1, h2, h3⟩ := hw
    refine ⟨?_, ?_, ?_⟩
    · rw [hi]
      exact h1.sublist List.erase_sublist
    · rw [he]
      exact insertNat_rises h2 (h3 _ (ticketLive_mem hl))
    · intro x hx hx'
      rw [hi] at hx
      rw [he] at hx'
      rcases mem_insertNat.1 hx' with rfl | hx'
      · exact (LedgerWf.nodup ⟨h1, h2, h3⟩).not_mem_erase hx
      · exact h3 x (List.mem_of_mem_erase hx) hx'

/-- A report frees the slot of a ticket that has ended, in its next generation, and touches nothing else of the ledger (R43). -/
theorem reportTicket_ledger (w : Nat) (s : State) :
    (reportTicket w s).ledger = s.ledger ∨
    (reportTicket w s).ledger =
      { s.ledger with ended := s.ledger.ended.erase (ticketSlot w), gens := sset s.ledger.gens (ticketSlot w) ((ticketGen w + 1) % 2 ^ 14) 0 } := by
  unfold reportTicket
  simp only
  split
  · exact .inr rfl
  · exact .inl rfl

theorem reportTicket_wf (w : Nat) {s : State} (hw : LedgerWf s.ledger) : LedgerWf (reportTicket w s).ledger := by
  rcases reportTicket_ledger w s with h | h <;> rw [h]
  · exact hw
  · obtain ⟨h1, h2, h3⟩ := hw
    exact ⟨h1, h2.sublist List.erase_sublist, fun x hx hx' => h3 x hx (List.mem_of_mem_erase hx')⟩

/-- The end of a ticket leaves every ticket of another slot in use, or not, as it was. -/
theorem endTicket_other {w v : Nat} {s : State} (code : Nat) (h : ticketLive s.ledger w = true) (hv : ticketSlot v ≠ ticketSlot w) :
    ticketLive (endTicket w code s).ledger v = ticketLive s.ledger v := by
  have hi : (endTicket w code s).ledger.issued = s.ledger.issued.erase (ticketSlot w) :=
    (reportTicket_issued w _).trans (decideTicket_issued code h)
  have hg : sget (endTicket w code s).ledger.gens (ticketSlot v) 0 = sget s.ledger.gens (ticketSlot v) 0 := by
    obtain ⟨-, hd, -⟩ := decideTicket_ledger code h
    unfold endTicket
    rcases reportTicket_ledger w (decideTicket w code s) with hr | hr <;> rw [hr]
    · rw [hd]
    · rw [hd]
      exact sget_sset_ne _ _ _ _ (Ne.symm hv)
  simp only [ticketLive, hi, hg, List.contains_eq_mem, List.mem_erase_of_ne hv]

/-- The cause of a FAILED item is counted at its end (Table 17-3). -/
theorem endTicket_failedBy {w code : Nat} {s : State} (h : ticketLive s.ledger w = true) (h0 : 0 < code) (h16 : code < 16) :
    sget (endTicket w code s).ledger.failedBy code 0 = sget s.ledger.failedBy code 0 + 1 := by
  obtain ⟨-, -, hd⟩ := decideTicket_ledger code h
  have hr : (endTicket w code s).ledger.failedBy = (decideTicket w code s).ledger.failedBy := by
    unfold endTicket
    rcases reportTicket_ledger w (decideTicket w code s) with hr | hr <;> rw [hr]
  rw [hr, hd, if_pos ⟨h0, h16⟩]
  exact sget_sset_self _ _ _ (Nat.succ_ne_zero _)

/-- Settles O5: the two lists of slots stay apart, so the end of a ticket takes its slot's only place. -/
theorem eachTicketEndsOnce : Obligations.EachTicketEndsOnce := by
  refine ⟨?_, ?_, ?_, ?_, ?_⟩
  · intro w code s hw hl
    obtain ⟨hc, hf, hd⟩ := endTicket_ends code hl hw.nodup
    exact ⟨hd, hc, hf, endTicket_failedBy hl, fun v hv => endTicket_other code hl hv⟩
  · intro w a b s hw hl
    obtain ⟨-, -, hd⟩ := endTicket_ends a hl hw.nodup
    exact decideTicket_dead b hd
  · exact ⟨List.Pairwise.nil, List.Pairwise.nil, fun _ h => absurd h List.not_mem_nil⟩
  · intro w s r hw h
    obtain ⟨hlt, hslot⟩ := issueTicket_slot h
    obtain ⟨hi, he⟩ := nextSlot_free s
    rw [hslot]
    exact ⟨issueTicket_wf hw h, hi, he, hlt⟩
  · intro w code s hw
    have hd := decideTicket_wf (w := w) code hw
    exact ⟨hd, reportTicket_wf w hw, reportTicket_wf w hd⟩

end Sys2Proof.Machine

/-! ## Bench memory: a read after a write (R22, R24, R531) -/

namespace Sys2Proof.Machine

theorem memRead_of_wf {m : List Host.Cell} (h : Memory.wf m = true) (off n : Nat) : memRead m off n = (List.range n).map fun i => cellAt m (off + i) :=
  memRead_eq ((Memory.wf_iff m).1 h).1 off n

theorem memRead_one {m : List Host.Cell} (h : Memory.wf m = true) (a : Nat) : memRead m a 1 = [cellAt m a] := by
  rw [memRead_of_wf h]
  rfl

/-- A write inside the Bench is written whole. -/
theorem take_inside {off : Nat} {d : Bytes} (h : off + d.length ≤ benchSize) : d.take (benchSize - off) = d :=
  List.take_of_length_le (by omega)

theorem memRead_memWrite_same {m : List Host.Cell} {off : Nat} {d : Bytes} (h : Memory.wf m = true) (hd : off + d.length ≤ benchSize) :
    memRead (memWrite m off d) off d.length = d := by
  rw [memRead_of_wf (memWrite_wf h off d)]
  refine List.ext_getElem (by simp) fun i h1 h2 => ?_
  simp [cellAt_memWrite, take_inside hd, h2]

theorem memRead_memWrite_other {m : List Host.Cell} {off a : Nat} {d : Bytes} (h : Memory.wf m = true) (hd : off + d.length ≤ benchSize)
    (ha : a < off ∨ off + d.length ≤ a) : memRead (memWrite m off d) a 1 = memRead m a 1 := by
  have hout : ¬ (off ≤ a ∧ a < off + d.length) := by omega
  rw [memRead_one (memWrite_wf h off d), memRead_one h, cellAt_memWrite, take_inside hd, if_neg hout]

/-- In the canonical form the cells listed are the bytes that do not read 0. -/
theorem mem_iff_cellAt {m : List Host.Cell} (hr : m.Pairwise fun a b => a.1 < b.1) (hz : ∀ c ∈ m, c.2 ≠ 0) (c : Host.Cell) :
    c ∈ m ↔ cellAt m c.1 = c.2 ∧ c.2 ≠ 0 := by
  induction m with
  | nil =>
    have hnot : ¬ (cellAt [] c.1 = c.2 ∧ c.2 ≠ 0) := fun h => h.2 h.1.symm
    simp only [List.not_mem_nil, hnot]
  | cons a m ih =>
    obtain ⟨ha, hr'⟩ := List.pairwise_cons.1 hr
    have ih' := ih hr' fun b hb => hz b (List.mem_cons_of_mem _ hb)
    rw [cellAt_cons, List.mem_cons]
    by_cases hk : a.1 = c.1
    · have hcm : c ∉ m := fun h => Nat.ne_of_lt (ha c h) hk
      rw [if_pos hk, or_iff_left hcm]
      constructor
      · rintro rfl
        exact ⟨rfl, hz c List.mem_cons_self⟩
      · exact fun h => Prod.ext hk.symm h.1.symm
    · have hca : c ≠ a := fun h => hk (congrArg Prod.fst h.symm)
      rw [if_neg hk, or_iff_right hca, ih']

/-- Two memories in canonical form that read the same everywhere are the same list of cells. -/
theorem mem_ext_of_wf {m n : List Host.Cell} (hm : Memory.wf m = true) (hn : Memory.wf n = true) (h : ∀ a, memRead m a 1 = memRead n a 1) : m = n := by
  obtain ⟨rm, bm⟩ := (Memory.wf_iff m).1 hm
  obtain ⟨rn, bn⟩ := (Memory.wf_iff n).1 hn
  have hcell (a : Nat) : cellAt m a = cellAt n a := by simpa [memRead_one hm, memRead_one hn] using h a
  have hirr : Std.Irrefl fun a b : Host.Cell => a.1 < b.1 := ⟨fun a => Nat.lt_irrefl a.1⟩
  have hanti : Std.Antisymm fun a b : Host.Cell => a.1 < b.1 := ⟨fun a b hab hba => absurd hba (Nat.lt_asymm hab)⟩
  refine rm.eq_of_mem_iff rn fun c => ?_
  rw [mem_iff_cellAt rm (fun b hb => (bm b hb).2), mem_iff_cellAt rn (fun b hb => (bn b hb).2), hcell]

/-- A command reads what it has itself written (R531). -/
theorem benchRead_benchWrite {s : State} {off : Nat} {d : Bytes} (h : s.Inv) (hd : off + d.length ≤ benchSize) :
    benchRead (benchWrite off d s) off d.length = d := by
  have hnow : memNow (benchWrite off d s).bench = memWrite s.bench.mem off d := by
    unfold memNow benchWrite
    simp only [h.writes, h.emptied]
    rfl
  rw [benchRead, hnow]
  exact memRead_memWrite_same h.mem hd

/-- Settles O9, by what each offset reads (`cellAt`) before and after a write. -/
theorem benchReadsBackWhatWasWritten : Obligations.BenchReadsBackWhatWasWritten :=
  ⟨fun _ off d hm hd => ⟨memWrite_wf hm off d, memRead_memWrite_same hm hd, fun _ ha => memRead_memWrite_other hm hd ha⟩,
    fun _ _ hm hn h => mem_ext_of_wf hm hn h,
    fun _ _ _ h hd => benchRead_benchWrite h hd⟩

end Sys2Proof.Machine

/-! ## Settings are staged (R16, R88, R98, R105, R511, Table 2-19) -/

namespace Sys2Proof.Machine

/-- What the settings commands share: their row runs their specification, which is of class S, follows its reply with nothing, knows its units
without the state, and needs no more of the Bench than its two stacks. -/
structure SettingSpec (i : Nat → HostCmd → Instr) (sp : CmdSpec) : Prop where
  row : ∀ t c s, exec (i t c) s = execCmd sp t c s
  staged : isStaged sp.opcode = true
  after : sp.after = id
  units : ∀ c s q, sp.unitOk q c = sp.unitOk s c
  dies : ∀ c s, ∀ k ∈ sp.dies s c, k < 2

section
variable {i : Nat → HostCmd → Instr} {sp : CmdSpec} {cond : HostCmd → State → Prop} {edit : HostCmd → Cfg → Cfg}

/-- A setting whose run is its edit wherever its condition holds: it is staged where the condition, once the packet has been taken, still holds. -/
theorem SettingSpec.stages (hp : SettingSpec i sp) (htaken : ∀ t c s, Ready sp c s → cond c s → cond c (taken t s))
    (hrun : ∀ r c q, sp.unitOk q c = true → cond c q → sp.run r c q = stageEdit sp.opcode c.unit none (edit c) q) : Stages i sp cond edit :=
  stages_plain hp.row hp.staged hp.after (fun _ c _ => hp.units c _ _) hp.dies fun t c s h hc =>
    ⟨sp.opcode, c.unit, rfl, rfl, hrun _ c _ ((hp.units c s _).trans h.unit) (htaken t c s h hc)⟩

end

/-- A setting whose checks look at the packet alone. -/
theorem SettingSpec.stages_packet {i : Nat → HostCmd → Instr} {sp : CmdSpec} {bad : HostCmd → Option Nat} {edit : HostCmd → Cfg → Cfg}
    (hp : SettingSpec i sp) (hrun : ∀ r c q, sp.unitOk q c = true → sp.run r c q = stageEdit sp.opcode c.unit (bad c) (edit c) q) :
    Stages i sp (fun c _ => bad c = none) edit :=
  hp.stages (fun _ _ _ _ h => h) fun r c q hu hb => by rw [hrun r c q hu, hb]

/-- The same for a command of one unit, whose run names that unit. -/
theorem SettingSpec.stages_single {i : Nat → HostCmd → Instr} {sp : CmdSpec} {bad : HostCmd → Option Nat} {edit : HostCmd → Cfg → Cfg} {n : Nat}
    (hp : SettingSpec i sp) (hone : sp.unitOk = unitIs n) (hrun : ∀ r c q, sp.run r c q = stageEdit sp.opcode n (bad c) (edit c) q) :
    Stages i sp (fun c _ => bad c = none) edit :=
  hp.stages_packet fun r c q hu => by
    rw [hone] at hu
    rw [hrun, show c.unit = n from of_decide_eq_true hu]

theorem linkConfig_stages :
    Stages .linkConfig specLinkConfig (fun c s => badLink c.unit c.params (vget s.staged.link (if c.unit % 2 = 0 then c.unit + 1 else c.unit - 1)) = none)
      (fun c g => { g with link := vset g.link c.unit (parLink c.params) }) := by
  refine stages_of (fun _ _ _ => rfl) rfl rfl (fun _ _ _ => rfl) (fun _ _ => nofun) fun t c s h hb hst => ?_
  have hb' : badLink c.unit c.params (vget (taken t s).staged.link (if c.unit % 2 = 0 then c.unit + 1 else c.unit - 1)) = none := by
    rw [(taken_frame t h.inv h.slot).staged]
    exact hb
  let staged := (taken t s).links.linkStaged
  refine ⟨(taken t s).gauge.encStaged, if staged.contains c.unit then staged else staged ++ [c.unit], ?_⟩
  simp only [specLinkConfig, hb', hst 0x0300 c.unit rfl rfl]
  rfl

theorem encoderConfig_stages :
    Stages .encoderConfig encoderConfigSpec (fun c _ => badEncoder c.unit c.params = none)
      (fun c g => { g with enc := vset g.enc c.unit (parEncoder c.params) }) := by
  refine stages_of (fun _ _ _ => rfl) rfl rfl (fun _ _ _ => rfl) (fun _ _ => nofun) fun t c s h hb hst =>
    ⟨c.unit :: (taken t s).gauge.encStaged.filter (fun e => decide (e ≠ c.unit)), (taken t s).links.linkStaged, ?_⟩
  simp only [encoderConfigSpec, hb, hst 0x0C00 c.unit rfl rfl]
  rfl

/-- TRIGGER_CONFIG stages the line sequence with unit 24, and else a slot's triggers. -/
theorem triggerConfig_stages :
    Stages .triggerConfig triggerConfigSpec (fun c _ => (if c.unit = 24 then badLineSeq c.params else badSlotTrig c.params) = none)
      (fun c g => if c.unit = 24 then { g with seq := some (parLineSeq c.params), shift := u8 c.params 10 }
        else { g with trig := vset g.trig c.unit (parSlotTrig c.params) }) := by
  refine SettingSpec.stages_packet ⟨fun _ _ _ => rfl, rfl, rfl, fun _ _ _ => rfl, fun _ _ => nofun⟩ fun r c q _ => ?_
  by_cases hu : c.unit = 24
  · simp only [triggerConfigSpec, hu, if_true]
  · simp only [triggerConfigSpec, hu, if_false]

/-- Settles O12: each run is its edit of the staged configuration. -/
theorem settingsOfLinksGaugeAndAxes : Obligations.SettingsOfLinksGaugeAndAxes :=
  ⟨SettingSpec.stages_single ⟨fun _ _ _ => rfl, rfl, rfl, fun _ _ _ => rfl, fun _ _ => nofun⟩ rfl fun _ _ _ => by simp only [specSetOperatingRange],
    linkConfig_stages,
    SettingSpec.stages_packet ⟨fun _ _ _ => rfl, rfl, rfl, fun _ _ _ => rfl, fun _ _ => nofun⟩ fun _ _ _ _ => by simp only [specKx25Config],
    SettingSpec.stages_packet ⟨fun _ _ _ => rfl, rfl, rfl, fun _ _ _ => rfl, fun _ _ => nofun⟩ fun _ _ _ _ => by simp only [specThroughConfig],
    encoderConfig_stages,
    triggerConfig_stages,
    SettingSpec.stages_packet ⟨fun _ _ _ => rfl, rfl, rfl, fun _ _ _ => rfl, fun _ _ => nofun⟩ fun _ _ _ _ => by simp only [compareConfigSpec],
    SettingSpec.stages_packet ⟨fun _ _ _ => rfl, rfl, rfl, fun _ _ _ => rfl, fun _ _ => nofun⟩ fun _ _ _ _ => by simp only [specAxisConfig],
    SettingSpec.stages_packet ⟨fun _ _ _ => rfl, rfl, rfl, fun _ _ _ => rfl, fun _ _ => nofun⟩ fun _ _ _ _ => by simp only [specAxisGear],
    SettingSpec.stages_packet ⟨fun _ _ _ => rfl, rfl, rfl, fun _ _ _ => rfl, fun _ _ => nofun⟩ fun _ _ _ _ => by simp only [specAxisStandstill]⟩

theorem kerfConfig_stages :
    Stages .kerfConfig specKerfConfig
      (fun c s => badKerf c.unit c.params (if 0 < c.unit ∧ c.unit < 23 then vget s.staged.kerf (c.unit - 1) else none)
        (if c.unit < 22 then vget s.staged.kerf (c.unit + 1) else none) = none)
      (fun c g => { g with kerf := vset g.kerf c.unit (some (parKerf c.params)) }) := by
  refine SettingSpec.stages ⟨fun _ _ _ => rfl, rfl, rfl, fun _ _ _ => rfl, fun _ _ => nofun⟩ (fun t c s h hc => ?_) fun r c q _ hc => ?_
  · rw [(taken_frame t h.inv h.slot).staged]
    exact hc
  · simp only [specKerfConfig, hc]

/-- GRIT_CONFIG stages the background's filtering with unit 24, and else a slot's. -/
theorem gritConfig_stages :
    Stages .gritConfig specGritConfig (fun c _ => (if c.unit = 24 then badBg c.params else badGrit c.params) = none)
      (fun c g => if c.unit = 24 then { g with bg := parBg c.params } else { g with grit := vset g.grit c.unit (parGrit c.params) }) := by
  refine SettingSpec.stages_packet ⟨fun _ _ _ => rfl, rfl, rfl, fun _ _ _ => rfl, fun _ _ => nofun⟩ fun r c q _ => ?_
  by_cases hu : c.unit = 24
  · simp only [specGritConfig, hu, if_true]
  · simp only [specGritConfig, hu, if_false]

/-- Settles O13: each run is its edit of the staged configuration. -/
theorem settingsOfTheLinePath : Obligations.SettingsOfTheLinePath :=
  ⟨SettingSpec.stages_packet ⟨fun _ _ _ => rfl, rfl, rfl, fun _ _ _ => rfl, fun _ _ => nofun⟩ fun _ _ _ _ => by simp only [specPlaneConfig],
    SettingSpec.stages_single ⟨fun _ _ _ => rfl, rfl, rfl, fun _ _ _ => rfl, fun _ _ => nofun⟩ rfl fun _ _ _ => by simp only [specGridConfig],
    kerfConfig_stages,
    SettingSpec.stages_packet ⟨fun _ _ _ => rfl, rfl, rfl, fun _ _ _ => rfl, fun _ _ => nofun⟩ fun _ _ _ _ => by simp only [specQueueConfig],
    SettingSpec.stages_packet ⟨fun _ _ _ => rfl, rfl, rfl, fun _ _ _ => rfl, fun _ _ => nofun⟩ fun _ _ _ _ => by simp only [specPatchConfig],
    SettingSpec.stages_packet ⟨fun _ _ _ => rfl, rfl, rfl, fun _ _ _ => rfl, fun _ _ => nofun⟩ fun _ _ _ _ => by simp only [specMarkStation],
    SettingSpec.stages_packet ⟨fun _ _ _ => rfl, rfl, rfl, fun _ _ _ => rfl, fun _ _ => nofun⟩ fun _ _ _ _ => by simp only [specZoneConfig],
    gritConfig_stages,
    SettingSpec.stages_packet ⟨fun _ _ _ => rfl, rfl, rfl, fun _ _ _ => rfl, fun _ _ => nofun⟩ fun _ _ _ _ => by simp only [specThresholdConfig],
    SettingSpec.stages_packet ⟨fun _ _ _ => rfl, rfl, rfl, fun _ _ _ => rfl, fun _ _ => nofun⟩ fun _ _ _ _ => by simp only [specViewConfig]⟩

theorem archiveConfig_stages :
    Stages .archiveConfig archiveConfigSpec
      (fun c s => badArchive c.params (fieldsOf s.staged) (match s.staged.grid with | some g => g.columns | none => 0) = none)
      (fun c g => { g with archive := parArchive c.params }) := by
  refine SettingSpec.stages ⟨fun _ _ _ => rfl, rfl, rfl, fun _ _ _ => rfl, fun _ _ => nofun⟩ (fun t c s h hc => ?_) fun r c q hu hc => ?_
  · rw [(taken_frame t h.inv h.slot).staged]
    exact hc
  · have hone : c.unit = 0 := of_decide_eq_true hu
    simp only [archiveConfigSpec, hone]
    exact congrArg (fun b => stageEdit 0x0A00 0 b _ q) hc

/-- COMPRESS_CONFIG stages where no other verifier names its compressors (R511). -/
theorem compressConfig_stages :
    Stages .compressConfig compressConfigSpec (fun c s => otherVerifier s c.unit (u16 c.params 0) = none)
      (fun c g => { g with verify := vset g.verify c.unit (u16 c.params 0) }) := by
  refine SettingSpec.stages ⟨fun _ _ _ => rfl, rfl, rfl, fun _ _ _ => rfl, fun _ _ => nofun⟩ (fun t c s h hc => ?_) fun r c q _ hc => ?_
  · have hf := taken_frame t h.inv h.slot
    simp only [otherVerifier, cfgNow, hf.staged, hf.glue, hf.running]
    exact hc
  · simp only [compressConfigSpec, hc, ite_self]

theorem ringConfig_stages :
    Stages .ringConfig specRingConfig (fun c s => badRing c.params s.ring.gateway = none) (fun c g => { g with ring := parRing c.params }) := by
  refine SettingSpec.stages ⟨fun _ _ _ => rfl, rfl, rfl, fun _ _ _ => rfl, fun _ _ => nofun⟩ (fun t c s h hc => ?_) fun r c q hu hc => ?_
  · rw [(taken_frame t h.inv h.slot).ring]
    exact hc
  · have hone : c.unit = 0 := of_decide_eq_true hu
    simp only [specRingConfig, hone, hc]

/-- PAIR_CONFIG stages in the role SOLO (R710). -/
theorem pairConfig_stages :
    Stages .pairConfig specPairConfig (fun c s => s.pair.role = .solo ∧ badPair c.params = none) (fun c g => { g with pair := parPair c.params }) := by
  refine SettingSpec.stages ⟨fun _ _ _ => rfl, rfl, rfl, fun _ _ _ => rfl, fun _ _ => nofun⟩ (fun t c s h hc => ?_) fun r c q hu hc => ?_
  · rw [(taken_frame t h.inv h.slot).pair]
    exact hc
  · obtain ⟨hrole, hb⟩ := hc
    have hone : c.unit = 0 := of_decide_eq_true hu
    simp only [specPairConfig, hone, hrole, if_true, hb]

/-- Settles O14: each run is its edit of the staged configuration. -/
theorem settingsOfStoreTimeRingAndPair : Obligations.SettingsOfStoreTimeRingAndPair :=
  ⟨SettingSpec.stages_packet ⟨fun _ _ _ => rfl, rfl, rfl, fun _ _ _ => rfl, fun _ _ => nofun⟩ fun _ _ _ _ => by simp only [specPartitionConfig],
    SettingSpec.stages_packet ⟨fun _ _ _ => rfl, rfl, rfl, fun _ _ _ => rfl, fun _ _ => nofun⟩ fun _ _ _ _ => by simp only [specPortConfig],
    archiveConfig_stages,
    compressConfig_stages,
    SettingSpec.stages_single ⟨fun _ _ _ => rfl, rfl, rfl, fun _ _ _ => rfl, fun _ _ => nofun⟩ rfl fun _ _ _ => by simp only [specTimeConfig],
    SettingSpec.stages_packet ⟨fun _ _ _ => rfl, rfl, rfl, fun _ _ _ => rfl, fun _ _ => nofun⟩ fun _ _ _ _ => by simp only [specPtpConfig],
    ringConfig_stages,
    pairConfig_stages⟩

end Sys2Proof.Machine

/-! ## Banked settings (R53, R88, R98, R100, R101, R105, R379) -/

namespace Sys2Proof.Machine

/-- The state with the units that keep a shadow bank changed: the Plane, the Dovetail and Marquetry. -/
def withBanks (p : PlaneUnit) (d : Dovetail) (m : Marquetry) (s : State) : State := { s with plane := p, dovetail := d, marq := m }

theorem ReplyFrame.withBanks {a b : State} (h : ReplyFrame a b) (p : PlaneUnit) (d : Dovetail) (m : Marquetry) :
    ReplyFrame (withBanks p d m a) (withBanks p d m b) := by
  unfold ReplyFrame at *
  rw [h]
  rfl

theorem ReplyFrame.withStageGen {a b : State} (h : ReplyFrame a b) (n : Nat) : ReplyFrame { a with stageGen := n } { b with stageGen := n } := by
  unfold ReplyFrame at *
  rw [h]

section
variable {i : Nat → HostCmd → Instr} {sp : CmdSpec} {cond : HostCmd → State → Prop} {new : HostCmd → State → State}

/-- A command of class S that changes banks at once and replies ST_OK. -/
theorem SettingSpec.acts_banked (hp : SettingSpec i sp)
    (hrun : ∀ t c s, Ready sp c s → cond c s →
      ∃ p d m, sp.run (recOf sp c s) c (taken t s) = ok [] (withBanks p d m (taken t s)) ∧ new c s = counted (withBanks p d m s)) :
    Acts i sp cond (fun _ _ => []) (fun _ c s => new c s) := by
  refine acts_of hp.row hp.after (fun _ c _ => hp.units c _ _) hp.dies fun t c s h hc => ⟨Nat.zero_le _, ?_⟩
  obtain ⟨p, d, m, hr, hn⟩ := hrun t c s h hc
  have hf := taken_frame t h.inv h.slot
  refine ⟨_, hr, ⟨rfl, rfl, rfl, rfl, rfl⟩, hf.bench, hf.pending, ?_⟩
  have hg : (withBanks p d m (taken t s)).stageGen = s.stageGen := hf.stageGen
  rw [hn, hg, if_pos hp.staged]
  exact (hf.reply.withBanks p d m).withStageGen (wrap32 (s.stageGen + 1))

/-- A command that holds its write for a bank which is locked, and is answered after the swap. -/
theorem SettingSpec.waits_banked (hp : SettingSpec i sp)
    (hrun : ∀ t c s, Ready sp c s → cond c s →
      ∃ p d m, sp.run (recOf sp c s) c (taken t s) = replyLater (withBanks p d m (taken t s)) ∧ new c s = withBanks p d m s) :
    Waits i sp cond (fun _ c s => new c s) := by
  refine waits_of hp.row hp.after (fun _ c _ => hp.units c _ _) hp.dies fun t c s h hc => ?_
  obtain ⟨p, d, m, hr, hn⟩ := hrun t c s h hc
  have hf := taken_frame t h.inv h.slot
  refine ⟨_, hr, ⟨rfl, rfl, rfl, rfl, rfl⟩, ?_⟩
  have hb : committed s.bench.mem (withBanks p d m (taken t s)).bench = (taken t s).bench := by
    rw [hf.bench]
    exact committed_quiet h.inv hf.bench
  rw [hn, hb, ← hf.pending]
  exact hf.reply.withBanks p d m

end

/-! ### The two answers of a bank's write -/

/-- ST_OK is no refusal. -/
theorem stOk_accepted : ¬ 0x8000 ≤ stOk := by decide

/-- With no glue-up prepared, a unit that has taken the pending one is written at once. -/
theorem bankEdit_now {s : State} {u : LineUnit} (locked : Bool) (now later : State → State) (hp : s.ring.prepared = none)
    (hu : unitTaken s u = true) : bankEdit s u locked now later = ok [] (now s) := by
  simp [bankEdit, hp, hu]

/-- Between the capture and the swap of a unit's banks the write is held. -/
theorem bankEdit_later {s : State} {u : LineUnit} (now later : State → State) (hp : s.ring.prepared = none) (hu : unitTaken s u = false) :
    bankEdit s u true now later = replyLater (later s) := by
  simp [bankEdit, hp, hu]

section
variable {sp : CmdSpec} {c : HostCmd} {s : State}

theorem taken_prepared (t : Nat) (h : Ready sp c s) (hp : s.ring.prepared = none) : (taken t s).ring.prepared = none :=
  (taken_frame t h.inv h.slot).ring_prepared.trans hp

theorem taken_unitTaken (t : Nat) (h : Ready sp c s) (u : LineUnit) : unitTaken (taken t s) u = unitTaken s u := by
  unfold unitTaken
  rw [(taken_frame t h.inv h.slot).glue]

theorem taken_tableLoaded (t : Nat) (h : Ready sp c s) : tableLoaded c (taken t s) = tableLoaded c s := by
  simp only [tableLoaded, bulkData, benchRead, (taken_frame t h.inv h.slot).bench]

end

/-! ### LOAD_TABLE and LOAD_GEOMETRY -/

theorem bulkStacks_lt (ref : BulkRef) : ∀ k ∈ bulkStacks ref, k < 2 := by
  intro k hk
  unfold bulkStacks at hk
  split at hk
  · simp only [List.mem_cons, List.not_mem_nil, or_false] at hk
    rcases hk with rfl | rfl <;> exact stackOf_lt _
  · cases hk

theorem loadTable_spec : SettingSpec .loadTable specLoadTable :=
  ⟨fun _ _ _ => rfl, rfl, rfl, fun _ _ _ => rfl, fun c _ => bulkStacks_lt (parBulk c.params 16)⟩

/-- LOAD_TABLE's run where its packet, its transfer and its entries are in order: one write of the slot's bank. -/
theorem loadTable_run {r : CmdRec} {c : HostCmd} {q : State} (hb : badLoadTable c.params = none) (hf : c.bulkFails = 0)
    (he : tableBadEntry (parTable c.params).kind (tableLoaded c q).vals = none)
    (hgate : ¬ 0x8000 ≤ (bankEdit q (.plane c.unit) (vget q.plane.slots c.unit).captured.isSome id id).status) :
    specLoadTable.run r c q = bankEdit q (.plane c.unit) (vget q.plane.slots c.unit).captured.isSome
      (setSlotPlane c.unit fun x => { x with shadow := tableApply (tableLoaded c q) x.shadow })
      (setSlotPlane c.unit fun x => { x with held := x.held ++ [(tableLoaded c q, r.ticket)] }) := by
  have he' : tableBadEntry (parTable c.params).kind (tableEntries (parTable c.params) (bulkData c (parTable c.params).ref q)) = none := he
  simp only [specLoadTable, checked, hb, hgate, if_false, withBulk, hf, or_true, if_true, he']
  rfl

theorem loadTable_acts :
    Acts .loadTable specLoadTable
      (fun c s => badLoadTable c.params = none ∧ s.ring.prepared = none ∧ unitTaken s (.plane c.unit) = true ∧ c.bulkFails = 0 ∧
        tableBadEntry (parTable c.params).kind (tableLoaded c s).vals = none)
      (fun _ _ => []) (fun _ c s => counted (setSlotPlane c.unit (fun x => { x with shadow := tableApply (tableLoaded c s) x.shadow }) s)) := by
  refine loadTable_spec.acts_banked fun t c s h hc => ?_
  obtain ⟨hb, hp, hu, hf, he⟩ := hc
  have hp' := taken_prepared t h hp
  have hu' := (taken_unitTaken t h _).trans hu
  have hload := taken_tableLoaded t h
  have hplane := (taken_frame t h.inv h.slot).plane
  refine ⟨(setSlotPlane c.unit (fun x => { x with shadow := tableApply (tableLoaded c s) x.shadow }) s).plane, (taken t s).dovetail, (taken t s).marq, ?_, ?_⟩
  · rw [loadTable_run hb hf (by rw [hload]; exact he) (by rw [bankEdit_now _ _ _ hp' hu']; exact stOk_accepted), bankEdit_now _ _ _ hp' hu', hload]
    unfold setSlotPlane withBanks
    rw [hplane]
  · rw [(taken_frame t h.inv h.slot).dovetail, (taken_frame t h.inv h.slot).marq]
    rfl

theorem loadTable_waits :
    Waits .loadTable specLoadTable
      (fun c s => badLoadTable c.params = none ∧ s.ring.prepared = none ∧ unitTaken s (.plane c.unit) = false ∧
        (vget s.plane.slots c.unit).captured.isSome = true ∧ c.bulkFails = 0 ∧ tableBadEntry (parTable c.params).kind (tableLoaded c s).vals = none)
      (fun _ c s => setSlotPlane c.unit (fun x => { x with held := x.held ++ [(tableLoaded c s, nextTicket s)] }) s) := by
  refine loadTable_spec.waits_banked fun t c s h hc => ?_
  obtain ⟨hb, hp, hu, hlock, hf, he⟩ := hc
  have hp' := taken_prepared t h hp
  have hu' := (taken_unitTaken t h _).trans hu
  have hload := taken_tableLoaded t h
  have hplane := (taken_frame t h.inv h.slot).plane
  have hlock' : (vget (taken t s).plane.slots c.unit).captured.isSome = true := by rw [hplane]; exact hlock
  refine ⟨(setSlotPlane c.unit (fun x => { x with held := x.held ++ [(tableLoaded c s, nextTicket s)] }) s).plane, (taken t s).dovetail, (taken t s).marq, ?_, ?_⟩
  · rw [loadTable_run hb hf (by rw [hload]; exact he) (by rw [hlock', bankEdit_later _ _ hp' hu']; exact stOk_accepted), hlock', bankEdit_later _ _ hp' hu', hload]
    unfold setSlotPlane withBanks
    rw [hplane]
    rfl
  · rw [(taken_frame t h.inv h.slot).dovetail, (taken_frame t h.inv h.slot).marq]
    rfl


/-! ### LOAD_GEOMETRY -/

theorem loadGeometry_spec : SettingSpec .loadGeometry specLoadGeometry :=
  ⟨fun _ _ _ => rfl, rfl, rfl, fun _ _ _ => rfl, fun _ _ => nofun⟩

/-- LOAD_GEOMETRY's run of a good packet: one write of the slot's bank. -/
theorem loadGeometry_run {r : CmdRec} {c : HostCmd} {q : State} (hb : badMap c.params = none) :
    specLoadGeometry.run r c q = bankEdit q .dovetail q.dovetail.locked (mapShadow c.unit fun b => { b with shadow := parMap c.params })
      (mapShadow c.unit fun b => { b with held := b.held ++ [(parMap c.params, r.ticket)] }) := by
  simp only [specLoadGeometry, checked, hb]
  rfl

/-- A write of the Dovetail's banks after the packet has been taken is that write before it. -/
theorem taken_mapShadow (t : Nat) {sp : CmdSpec} {c : HostCmd} {s : State} (h : Ready sp c s) (slot : Nat) (f : MapBank → MapBank) :
    mapShadow slot f (taken t s) = withBanks (taken t s).plane (mapShadow slot f s).dovetail (taken t s).marq (taken t s) ∧
      mapShadow slot f s = withBanks (taken t s).plane (mapShadow slot f s).dovetail (taken t s).marq s := by
  have hf := taken_frame t h.inv h.slot
  refine ⟨?_, ?_⟩
  · unfold mapShadow withBanks
    rw [hf.dovetail]
  · rw [hf.plane, hf.marq]
    rfl

theorem loadGeometry_acts :
    Acts .loadGeometry specLoadGeometry (fun c s => badMap c.params = none ∧ s.ring.prepared = none ∧ unitTaken s .dovetail = true)
      (fun _ _ => []) (fun _ c s => counted (mapShadow c.unit (fun b => { b with shadow := parMap c.params }) s)) := by
  refine loadGeometry_spec.acts_banked fun t c s h hc => ?_
  obtain ⟨hb, hp, hu⟩ := hc
  obtain ⟨hafter, hbefore⟩ := taken_mapShadow t h c.unit fun b => { b with shadow := parMap c.params }
  refine ⟨_, _, _, ?_, congrArg counted hbefore⟩
  rw [loadGeometry_run hb, bankEdit_now _ _ _ (taken_prepared t h hp) ((taken_unitTaken t h _).trans hu), hafter]

theorem loadGeometry_waits :
    Waits .loadGeometry specLoadGeometry
      (fun c s => badMap c.params = none ∧ s.ring.prepared = none ∧ unitTaken s .dovetail = false ∧ s.dovetail.locked = true)
      (fun _ c s => mapShadow c.unit (fun b => { b with held := b.held ++ [(parMap c.params, nextTicket s)] }) s) := by
  refine loadGeometry_spec.waits_banked fun t c s h hc => ?_
  obtain ⟨hb, hp, hu, hlock⟩ := hc
  have hlock' : (taken t s).dovetail.locked = true := by rw [(taken_frame t h.inv h.slot).dovetail]; exact hlock
  obtain ⟨hafter, hbefore⟩ := taken_mapShadow t h c.unit fun b => { b with held := b.held ++ [(parMap c.params, nextTicket s)] }
  refine ⟨_, _, _, ?_, hbefore⟩
  rw [loadGeometry_run hb, hlock', bankEdit_later _ _ (taken_prepared t h hp) ((taken_unitTaken t h _).trans hu), ← hafter]
  rfl

/-! ### CLASS_CONFIG, RULE_CONFIG and REGION_CONFIG -/

/-- REGION_CONFIG's claims stand in nobody's way; the other two settings of Marquetry claim nothing (R105). -/
def SegUnclaimed (op : Nat) (c : HostCmd) (s : State) : Prop :=
  op = 0x0601 → conflictOf (claimsOf s.staged (some (parRegion c.params))) (runningClaims s) s.claims 0x0601 0 = none

/-- The write that a setting of Marquetry is. -/
def segWrite (op ticket : Nat) (c : HostCmd) : SegWrite := { opcode := op, unit := c.unit, params := c.params, ticket }

section
variable {op : Nat} {bad : HostCmd → Option Nat} {r : CmdRec} {c : HostCmd} {q : State}

theorem segEdit_now (hb : bad c = none) (hp : q.ring.prepared = none) (hu : unitTaken q .marquetry = true) (hclaim : SegUnclaimed op c q) :
    segEdit op bad r c q = ok [] (segShadow (segApply (segWrite op r.ticket c)) q) := by
  unfold segEdit
  simp only [checked, hb, bankEdit_now _ _ _ hp hu]
  split
  · rfl
  next hop =>
    rw [hclaim (Decidable.not_not.1 fun h => hop (Or.inr h))]
    rfl

theorem segEdit_later (hb : bad c = none) (hp : q.ring.prepared = none) (hu : unitTaken q .marquetry = false)
    (hlock : q.marq.captured.isSome = true) (hclaim : SegUnclaimed op c q) :
    segEdit op bad r c q = replyLater (holdSeg (segWrite op r.ticket c) q) := by
  unfold segEdit
  simp only [checked, hb, hlock, bankEdit_later _ _ hp hu]
  split
  · rfl
  next hop =>
    rw [hclaim (Decidable.not_not.1 fun h => hop (Or.inr h))]
    rfl

end

theorem taken_unclaimed (t : Nat) {sp : CmdSpec} {c : HostCmd} {s : State} {op : Nat} (h : Ready sp c s) (hc : SegUnclaimed op c s) :
    SegUnclaimed op c (taken t s) := by
  have hf := taken_frame t h.inv h.slot
  unfold SegUnclaimed runningClaims cfgNow at *
  rw [hf.staged, hf.glue, hf.running, hf.claims, hf.marq]
  exact hc

section
variable {i : Nat → HostCmd → Instr} {sp : CmdSpec} {op : Nat} {bad : HostCmd → Option Nat}

theorem SettingSpec.seg_acts (hp : SettingSpec i sp) (hseg : sp.run = segEdit op bad) (new : HostCmd → SegBank → SegBank)
    (hnew : ∀ ticket c, segApply (segWrite op ticket c) = new c) :
    Acts i sp (fun c s => bad c = none ∧ s.ring.prepared = none ∧ unitTaken s .marquetry = true ∧ SegUnclaimed op c s)
      (fun _ _ => []) (fun _ c s => counted (segShadow (new c) s)) := by
  refine hp.acts_banked fun t c s h hc => ?_
  obtain ⟨hb, hprep, hu, hclaim⟩ := hc
  have hf := taken_frame t h.inv h.slot
  refine ⟨(taken t s).plane, (taken t s).dovetail, (segShadow (new c) s).marq, ?_, ?_⟩
  · rw [hseg, segEdit_now hb (taken_prepared t h hprep) ((taken_unitTaken t h _).trans hu) (taken_unclaimed t h hclaim), hnew]
    unfold segShadow withBanks
    rw [hf.marq]
  · rw [hf.plane, hf.dovetail]
    rfl

theorem SettingSpec.seg_waits (hp : SettingSpec i sp) (hseg : sp.run = segEdit op bad) :
    Waits i sp (fun c s => bad c = none ∧ s.ring.prepared = none ∧ unitTaken s .marquetry = false ∧ s.marq.captured.isSome = true ∧ SegUnclaimed op c s)
      (fun _ c s => holdSeg (segWrite op (nextTicket s) c) s) := by
  refine hp.waits_banked fun t c s h hc => ?_
  obtain ⟨hb, hprep, hu, hlock, hclaim⟩ := hc
  have hf := taken_frame t h.inv h.slot
  have hlock' : (taken t s).marq.captured.isSome = true := by rw [hf.marq]; exact hlock
  refine ⟨(taken t s).plane, (taken t s).dovetail, (holdSeg (segWrite op (nextTicket s) c) s).marq, ?_, ?_⟩
  · rw [hseg, segEdit_later hb (taken_prepared t h hprep) ((taken_unitTaken t h _).trans hu) hlock' (taken_unclaimed t h hclaim)]
    unfold holdSeg withBanks
    rw [hf.marq]
    rfl
  · rw [hf.plane, hf.dovetail]
    rfl

end

theorem Acts.of_cond {i : Nat → HostCmd → Instr} {sp : CmdSpec} {cond cond' : HostCmd → State → Prop} {body : HostCmd → State → Bytes}
    {new : Nat → HostCmd → State → State} (h : Acts i sp cond body new) (hc : ∀ c s, cond' c s → cond c s) : Acts i sp cond' body new :=
  fun t c s hr h' => h t c s hr (hc c s h')

theorem Waits.of_cond {i : Nat → HostCmd → Instr} {sp : CmdSpec} {cond cond' : HostCmd → State → Prop}
    {new : Nat → HostCmd → State → State} (h : Waits i sp cond new) (hc : ∀ c s, cond' c s → cond c s) : Waits i sp cond' new :=
  fun t c s hr h' => h t c s hr (hc c s h')

theorem classConfig_spec : SettingSpec .classConfig specClassConfig := ⟨fun _ _ _ => rfl, rfl, rfl, fun _ _ _ => rfl, fun _ _ => nofun⟩
theorem ruleConfig_spec : SettingSpec .ruleConfig specRuleConfig := ⟨fun _ _ _ => rfl, rfl, rfl, fun _ _ _ => rfl, fun _ _ => nofun⟩
theorem regionConfig_spec : SettingSpec .regionConfig specRegionConfig := ⟨fun _ _ _ => rfl, rfl, rfl, fun _ _ _ => rfl, fun _ _ => nofun⟩

theorem segApply_class (ticket : Nat) (c : HostCmd) :
    segApply (segWrite 0x0600 ticket c) = fun b => { b with classes := vset b.classes c.unit (parClass c.params) } := by
  funext b
  simp [segApply, segWrite]
theorem segApply_region (ticket : Nat) (c : HostCmd) :
    segApply (segWrite 0x0601 ticket c) = fun b => { b with region := some (parRegion c.params) } := by
  funext b
  simp [segApply, segWrite]
theorem segApply_rule (ticket : Nat) (c : HostCmd) :
    segApply (segWrite 0x0602 ticket c) = fun b => { b with rules := vset b.rules c.unit (parRule c.unit c.params) } := by
  funext b
  simp [segApply, segWrite]

/-- Settles O17: at once where the unit's banks are free, held where they are locked. -/
theorem bankedSettingsGoToTheShadowBank : Obligations.BankedSettingsGoToTheShadowBank :=
  ⟨loadTable_acts, loadTable_waits, loadGeometry_acts, loadGeometry_waits,
    (classConfig_spec.seg_acts (op := 0x0600) rfl _ segApply_class).of_cond fun _ _ ⟨hb, hp, hu⟩ => ⟨hb, hp, hu, nofun⟩,
    (ruleConfig_spec.seg_acts (op := 0x0602) rfl _ segApply_rule).of_cond fun _ _ ⟨hb, hp, hu⟩ => ⟨hb, hp, hu, nofun⟩,
    (regionConfig_spec.seg_acts (op := 0x0601) rfl _ segApply_region).of_cond fun _ _ ⟨hb, hp, hu, hclaim⟩ => ⟨hb, hp, hu, fun _ => hclaim⟩,
    (classConfig_spec.seg_waits (op := 0x0600) rfl).of_cond fun _ _ ⟨hb, hp, hu, hl⟩ => ⟨hb, hp, hu, hl, nofun⟩,
    (ruleConfig_spec.seg_waits (op := 0x0602) rfl).of_cond fun _ _ ⟨hb, hp, hu, hl⟩ => ⟨hb, hp, hu, hl, nofun⟩,
    (regionConfig_spec.seg_waits (op := 0x0601) rfl).of_cond fun _ _ ⟨hb, hp, hu, hl, hclaim⟩ => ⟨hb, hp, hu, hl, fun _ => hclaim⟩⟩

end Sys2Proof.Machine

/-! ## A broadcast glue-up at its gateway (R124 to R126) -/

namespace Sys2Proof.Machine

/-- The broadcast GLUEUP whose ticket `slotTwicePrepared` lists twice: module 5 has yet to answer the gateway, module 0. -/
def twicePrepared : Prepare :=
  { ticket := 3 + 2 ^ 18 * 16383, waiting := [5], prepared := [(0, 0)] }

/-- A gateway between the two phases of a broadcast glue-up, whose ledger lists the command's slot twice, as issued and in its last generation,
which `State.Inv` does not exclude. -/
def slotTwicePrepared : State :=
  let s := State.reset
  { s with
    hf := { s.hf with fabric := .running }
    bench := { s.bench with ctl := .replicate 2 { (vget s.bench.ctl 0) with state := .ready } }
    ring := { s.ring with moduleId := 0, prepare := some twicePrepared, prepared := some (0, 0) }
    ledger := { s.ledger with issued := [3, 3], gens := [(3, 16383), (3, 16383)] } }

/-- The refusal of module 5 ends the command: that takes one of its slot's two places, and the ticket stays live. -/
theorem glueupPrepareReply_slotTwicePrepared :
    ∃ r, exec (.glueupPrepareReply 0 5 stBadParam 0) slotTwicePrepared = .next r ∧ ticketLive r.ledger twicePrepared.ticket = true :=
  ⟨_, rfl, by decide +kernel⟩

/-- Refutes O60: a module's refusal of a broadcast glue-up whose slot is listed twice in the ledger leaves the command's ticket live. The
statement asks for `State.Inv`, which says nothing of the ledger. -/
theorem not_glueUpCommands : ¬ Obligations.GlueUpCommands := by
  unfold Obligations.GlueUpCommands
  rintro ⟨-, -, -, -, -, -, -, -, -, -, -, hrefusal, -, -, -⟩
  obtain ⟨r, hr, -, -, -, -, hdead, -⟩ := hrefusal 0 5 stBadParam 0 0 slotTwicePrepared twicePrepared ⟨rfl, rfl, rfl⟩ rfl (by decide) rfl rfl
    (by decide +kernel) rfl (by decide) (by decide +kernel)
  obtain ⟨r', hr', hlive⟩ := glueupPrepareReply_slotTwicePrepared
  obtain rfl : r' = r := by
    rw [hr'] at hr
    exact Host.Outcome.next.inj hr
  rw [hlive] at hdead
  cases hdead

end Sys2Proof.Machine

/-! ## A request held by MIN_PERIOD (R159, R163) -/

namespace Sys2Proof.Machine

/-- The request for line 1 that MIN_PERIOD holds, and one for line 2 that has gone out and is due at 0. -/
def heldRequest : TrigPend := { line := 1 }
def dueRequest : TrigPend := { line := 2, requested := true }

/-- Slot 0 holds a request before one that has gone out: `State.Inv` does not keep the order of `SlotTrig.pend`, in which the requests that have
gone out stand before those held. -/
def heldBeforeDue : State :=
  let s := State.reset
  setSlotTrig 0 (fun x => { x with pend := [heldRequest, dueRequest] })
    { s with running := { s.running with trig := vset s.running.trig 0 { lead := 100 } } }

/-- As the held request goes out it moves behind the one that is due, which fires. -/
theorem minPeriodRelease_heldBeforeDue :
    ∃ r, exec (.minPeriodRelease 0 0) heldBeforeDue = .next r ∧ dueRequest ∉ (vget r.gauge.slots 0).pend :=
  ⟨_, rfl, by decide +kernel⟩

/-- Refutes O28: no request of the slot is ripe, for the first one is held; its release makes the due one the first, and fires it. The statement
asks for `State.Inv`, which does not order a slot's requests. -/
theorem not_lineTriggers : ¬ Obligations.LineTriggers := by
  unfold Obligations.LineTriggers
  rintro ⟨-, -, -, -, -, -, -, -, -, hrelease, -, -⟩
  obtain ⟨r, hr, -, hframe, -, -⟩ := hrelease heldRequest [] 0 (by decide) 0 heldBeforeDue ⟨rfl, rfl, rfl⟩
    ⟨by decide +kernel, by decide +kernel, by decide +kernel, by decide +kernel, by decide +kernel, by decide +kernel⟩
  obtain ⟨r', hr', hfired⟩ := minPeriodRelease_heldBeforeDue
  obtain rfl : r' = r := by
    rw [hr'] at hr
    exact Host.Outcome.next.inj hr
  have hkept : dueRequest ∈ (vget (setSlotTrig 0 (fun x => { x with
      pend := (x.pend.filter (·.requested)) ++ { heldRequest with requested := true, fireTime := 0 + leadOf heldBeforeDue 0 1 } :: []
      lastRequest := some 0 }) heldBeforeDue).gauge.slots 0).pend := by decide +kernel
  rw [hframe.gauge] at hfired
  exact hfired hkept

end Sys2Proof.Machine

/-! ## Compare units (R174 to R180, R814, R818) -/

namespace Sys2Proof.Machine

/-! ### One unit of the table -/

section
variable {u : Nat} {s : State}

theorem setCmp_congr {f g : CompareUnit → CompareUnit} (h : f (vget s.gauge.cmp u) = g (vget s.gauge.cmp u)) : setCmp u f s = setCmp u g s := by
  unfold setCmp vmod
  rw [h]

theorem setCmp_setCmp (f g : CompareUnit → CompareUnit) : setCmp u f (setCmp u g s) = setCmp u (fun x => f (g x)) s := by
  unfold setCmp
  simp only [vmod_vmod]

theorem setCmp_self (hu : u < 16) (f : CompareUnit → CompareUnit) : vget (setCmp u f s).gauge.cmp u = f (vget s.gauge.cmp u) :=
  vget_vmod_self _ _ _ hu

end

theorem OutFrame.setCmp {a b : State} (h : OutFrame a b) (u : Nat) (f : CompareUnit → CompareUnit) : OutFrame (setCmp u f a) (setCmp u f b) := by
  unfold OutFrame at *
  rw [h]
  rfl

theorem ReplyFrame.setCmp {a b : State} (h : ReplyFrame a b) (u : Nat) (f : CompareUnit → CompareUnit) :
    ReplyFrame (setCmp u f a) (setCmp u f b) := by
  unfold ReplyFrame at *
  rw [h]
  rfl

theorem setCmp_keepsReply (u : Nat) (f : CompareUnit → CompareUnit) (s : State) : KeepsReply s (setCmp u f s) := ⟨rfl, rfl, rfl, rfl, rfl⟩

/-! ### What the lists' commands read of the state -/

theorem OutFrame.cfgNow {a b : State} (h : OutFrame a b) : cfgNow b = cfgNow a := by
  unfold Machine.cfgNow
  rw [h.glue, h.running]

section
variable {sp : CmdSpec} {c : HostCmd} {s : State}

theorem taken_cfgNow (t : Nat) (h : Ready sp c s) : cfgNow (taken t s) = cfgNow s := (taken_frame t h.inv h.slot).cfgNow

theorem taken_cmpCfg (t : Nat) (h : Ready sp c s) (u : Nat) : cmpCfg (taken t s) u = cmpCfg s u := by
  unfold cmpCfg
  rw [taken_cfgNow t h]

theorem taken_compareShut (t : Nat) (h : Ready sp c s) (u : Nat) : compareShut (taken t s) u = compareShut s u := by
  unfold compareShut
  rw [taken_cfgNow t h, taken_cmpCfg t h]

theorem taken_gauge (t : Nat) (h : Ready sp c s) : (taken t s).gauge = s.gauge := (taken_frame t h.inv h.slot).gauge

theorem writeEvent_now (src : Nat) (a b : Int) (t : Nat) (s : State) : (writeEvent src a b t s).now = s.now := by
  unfold writeEvent
  simp only
  repeat' split
  all_goals rfl

theorem sendMsix_now (v : Nat) (s : State) : (sendMsix v s).now = s.now := by
  unfold sendMsix
  simp only
  repeat' split
  all_goals rfl

theorem signalVector_now (v : Nat) (s : State) : (signalVector v s).now = s.now := by
  unfold signalVector
  split
  · exact sendMsix_now _ _
  · rfl

/-- A raised event takes no time. -/
theorem raise_now (src : Nat) (a b : Int) (s : State) : (raise src a b s).now = s.now := by
  unfold raise deliverEvent latchEvent
  simp only
  repeat' split
  any_goals rfl
  rw [signalVector_now, writeEvent_now]

theorem raiseOnce_now (src : Nat) (a b : Int) (s : State) : (raiseOnce src a b s).now = s.now := by
  unfold raiseOnce
  split
  · rfl
  · exact raise_now _ _ _ _

theorem taken_now (t : Nat) (h : Ready sp c s) : (taken t s).now = max s.now t := by
  have hi := issue_taken t h.slot
  unfold issueTicket at hi
  simp only at hi
  split at hi
  · cases hi
  · rw [Option.some.injEq, Prod.mk.injEq] at hi
    obtain ⟨-, hi⟩ := hi
    rw [← hi]
    split
    · exact raiseOnce_now _ _ _ _
    · rfl

end

theorem insertBy_length {α : Type} (before : α → α → Bool) (x : α) (l : List α) : (insertBy before x l).length = l.length + 1 := by
  induction l with
  | nil => rfl
  | cons y l ih =>
    unfold insertBy
    split
    · rfl
    · simp [ih]

theorem foldl_insertBy_length {α : Type} (before : α → α → Bool) (es l : List α) :
    (es.foldl (fun l e => insertBy before e l) l).length = l.length + es.length := by
  induction es generalizing l with
  | nil => rfl
  | cons e es ih =>
    rw [List.foldl_cons, ih, insertBy_length, List.length_cons]
    omega

theorem appendEntries_length (c : HostCmd) : (appendEntries c).length = u16 c.params 2 := by simp [appendEntries]

/-- A packet in range appends at most 254 entries. -/
theorem appendEntries_le {c : HostCmd} (h : badAppend c = none) : u16 c.params 2 ≤ 254 := by
  by_contra hn
  have hr : inRange 1 254 (u16 c.params 2) = false := by simp [inRange, hn]
  unfold badAppend at h
  simp only [List.cons_append, List.nil_append, firstBad, hr] at h
  split at h
  · split at h <;> cases h
  · cases h

/-- A command that is no setting and answers ST_OK at once. -/
theorem acts_unstaged {i : Nat → HostCmd → Instr} {sp : CmdSpec} {cond : HostCmd → State → Prop} {body : HostCmd → State → Bytes}
    {new : Nat → HostCmd → State → State} (hi : ∀ t c s, exec (i t c) s = execCmd sp t c s) (hs : isStaged sp.opcode = false) (ha : sp.after = id)
    (hu : ∀ c s q, sp.unitOk q c = sp.unitOk s c) (hd : ∀ c s, ∀ k ∈ sp.dies s c, k < 2)
    (hrun : ∀ t c s, Ready sp c s → cond c s → (body c (taken t s)).length ≤ 1008 ∧
      ∃ q, sp.run (recOf sp c s) c (taken t s) = ok (body c (taken t s)) q ∧ KeepsReply (taken t s) q ∧ q.bench = (taken t s).bench ∧
        q.pending = (taken t s).pending ∧ ReplyFrame (new t c s) q) : Acts i sp cond body new := by
  refine acts_of hi ha (fun _ _ _ => hu _ _ _) hd fun t c s h hc => ?_
  obtain ⟨hl, q, hr, hk, hb, hp, hn⟩ := hrun t c s h hc
  have hf := taken_frame t h.inv h.slot
  refine ⟨hl, q, hr, hk, hb.trans hf.bench, hp.trans hf.pending, ?_⟩
  rw [hs]
  exact hn

/-- A command answered later whose run leaves the Bench alone. -/
theorem waits_quiet {i : Nat → HostCmd → Instr} {sp : CmdSpec} {cond : HostCmd → State → Prop} {new : Nat → HostCmd → State → State}
    (hi : ∀ t c s, exec (i t c) s = execCmd sp t c s) (ha : sp.after = id) (hu : ∀ c s q, sp.unitOk q c = sp.unitOk s c)
    (hd : ∀ c s, ∀ k ∈ sp.dies s c, k < 2)
    (hrun : ∀ t c s, Ready sp c s → cond c s → ∃ q, sp.run (recOf sp c s) c (taken t s) = replyLater q ∧ KeepsReply (taken t s) q ∧
      q.bench = (taken t s).bench ∧ q.pending = (taken t s).pending ∧ ReplyFrame (new t c s) q) : Waits i sp cond new := by
  refine waits_of hi ha (fun _ _ _ => hu _ _ _) hd fun t c s h hc => ?_
  obtain ⟨q, hr, hk, hb, hp, hn⟩ := hrun t c s h hc
  have hf := taken_frame t h.inv h.slot
  have hb' := hb.trans hf.bench
  refine ⟨q, hr, hk, ?_⟩
  rw [committed_quiet h.inv hb', ← hb', ← hp.trans hf.pending]
  exact hn

/-! ### COMPARE_APPEND -/

/-- The shadow list that an append goes to: CLEAR empties it first. -/
def oldShadow (c : HostCmd) (x : CompareUnit) : List CmpEntry := if bitOf (u8 c.params 1) 0 then [] else x.shadow

/-- The unit with the entries of an append in their places of its shadow list. -/
def shadowAppended (c : HostCmd) (reverse : Bool) (x : CompareUnit) : CompareUnit :=
  { x with shadow := (appendEntries c).foldl (fun l e => insertBy (cmpBefore reverse) e l) (oldShadow c x) }

section
variable {r : CmdRec} {c : HostCmd} {q : State}

/-- COMPARE_APPEND's run of entries that are in range, start no axis, and find room. -/
theorem compareAppend_run {free : Nat} (hb : badAppend c = none) (hshut : compareShut q c.unit = false) (hax : ∀ e ∈ appendEntries c, e.axisStart = false)
    (hfree : free = if u8 c.params 0 = 1 then (if bitOf (u8 c.params 1) 0 then cmpCap else listFree (vget q.gauge.cmp c.unit).shadow)
      else cmpCap - (vget q.gauge.cmp c.unit).active.length - (vget q.gauge.cmp c.unit).inserting.length)
    (hroom : u16 c.params 2 ≤ free) :
    compareAppend r c q = if u8 c.params 0 = 1 then appendShadow c.unit (bitOf (u8 c.params 1) 0) (appendEntries c) q
      else replyLater (beginInserts c.unit (appendEntries c) (some r.ticket) q) := by
  have hnone : (appendEntries c).filter (·.axisStart) = [] := List.filter_eq_nil_iff.2 fun e he => by simp [hax e he]
  have hfits : ¬ free < (appendEntries c).length := by
    rw [appendEntries_length]
    exact Nat.not_lt.2 hroom
  unfold compareAppend
  simp only [hshut, Bool.false_eq_true, if_false, checked, hb, hnone, List.findSome?_nil, decide_eq_true_eq, ← hfree, hfits]

/-- The shadow list out of its lock takes the entries. -/
theorem appendShadow_unlocked (hu : c.unit < 16) (hlock : (vget q.gauge.cmp c.unit).lockUntil ≤ q.now) :
    appendShadow c.unit (bitOf (u8 c.params 1) 0) (appendEntries c) q =
      ok (appendBody (u16 c.params 2) 0 (4096 - ((oldShadow c (vget q.gauge.cmp c.unit)).length + u16 c.params 2)))
        (setCmp c.unit (shadowAppended c (cmpCfg q c.unit).reverse) q) := by
  have hlate : decide (q.now < (vget q.gauge.cmp c.unit).lockUntil) = false := decide_eq_false (Nat.not_lt.2 hlock)
  unfold appendShadow
  simp only [hlate, Bool.false_eq_true, if_false, setCmp_self hu, listFree, cmpCap, foldl_insertBy_length, appendEntries_length]
  rfl

end

section
variable {c : HostCmd} {s : State}

theorem appendBody_length (a b n : Nat) : (appendBody a b n).length ≤ 1008 := by simp [appendBody]

theorem compareAppend_acts :
    Acts .compareAppend compareAppendSpec
      (fun c s => badAppend c = none ∧ compareShut s c.unit = false ∧ u8 c.params 0 = 1 ∧ (∀ e ∈ appendEntries c, e.axisStart = false) ∧
        (vget s.gauge.cmp c.unit).lockUntil ≤ s.now ∧ (oldShadow c (vget s.gauge.cmp c.unit)).length + u16 c.params 2 ≤ 4096)
      (fun c s => appendBody (u16 c.params 2) 0 (4096 - ((oldShadow c (vget s.gauge.cmp c.unit)).length + u16 c.params 2)))
      (fun _ c s => setCmp c.unit (shadowAppended c (cmpCfg s c.unit).reverse) s) := by
  refine acts_unstaged (fun _ _ _ => rfl) rfl rfl (fun _ _ _ => rfl) (fun _ _ => nofun) fun t c s h hc => ⟨appendBody_length _ _ _, ?_⟩
  obtain ⟨hb, hshut, hshadow, hax, hlock, hroom⟩ := hc
  have hu : c.unit < 16 := of_decide_eq_true h.unit
  have hf := taken_frame t h.inv h.slot
  have hg := taken_gauge t h
  have hn : s.now ≤ (taken t s).now := by rw [taken_now t h]; exact Nat.le_max_left _ _
  refine ⟨setCmp c.unit (shadowAppended c (cmpCfg s c.unit).reverse) (taken t s), ?_, setCmp_keepsReply _ _ _, setCmp_bench _ _ _,
    setCmp_pending _ _ _, hf.reply.setCmp _ _⟩
  show compareAppend _ c (taken t s) = _
  rw [compareAppend_run hb ((taken_compareShut t h _).trans hshut) hax rfl, if_pos hshadow,
    appendShadow_unlocked hu (by rw [hg]; exact Nat.le_trans hlock hn), taken_cmpCfg t h]
  rw [if_pos hshadow, hg]
  unfold oldShadow at hroom
  split
  · exact Nat.le_trans (appendEntries_le hb) (by decide)
  next hkeep =>
    rw [if_neg hkeep] at hroom
    rw [listFree, cmpCap]
    omega

/-- A command's case told in other words. -/
theorem Acts.in_case {i : Nat → HostCmd → Instr} {sp : CmdSpec} {cond cond' : HostCmd → State → Prop} {body body' : HostCmd → State → Bytes}
    {new new' : Nat → HostCmd → State → State} (h : Acts i sp cond body new)
    (hc : ∀ t c s, cond' c s → cond c s ∧ body' c (taken t s) = body c (taken t s) ∧ new' t c s = new t c s) : Acts i sp cond' body' new' := by
  intro t c s hr hc'
  obtain ⟨h1, h2, h3⟩ := hc t c s hc'
  rw [h2, h3]
  exact h t c s hr h1

/-- Without CLEAR the entries join those of the list. -/
theorem compareAppend_keeps :
    Acts .compareAppend compareAppendSpec
      (fun c s => badAppend c = none ∧ compareShut s c.unit = false ∧ u8 c.params 0 = 1 ∧ bitOf (u8 c.params 1) 0 = false ∧
        (∀ e ∈ appendEntries c, e.axisStart = false) ∧ (vget s.gauge.cmp c.unit).lockUntil ≤ s.now ∧
        (vget s.gauge.cmp c.unit).shadow.length + u16 c.params 2 ≤ 4096)
      (fun c s => appendBody (u16 c.params 2) 0 (4096 - ((vget s.gauge.cmp c.unit).shadow.length + u16 c.params 2)))
      (fun _ c s => setCmp c.unit (fun x => { x with
        shadow := (appendEntries c).foldl (fun l e => insertBy (cmpBefore (cmpCfg s c.unit).reverse) e l) x.shadow }) s) := by
  refine compareAppend_acts.in_case fun t c s hc => ?_
  obtain ⟨hb, hshut, hshadow, hkeep, hax, hlock, hroom⟩ := hc
  have hold : oldShadow c = fun x => x.shadow := by
    funext x
    simp [oldShadow, hkeep]
  unfold shadowAppended
  simp only [hold, and_true]
  exact ⟨hb, hshut, hshadow, hax, hlock, hroom⟩

/-- With CLEAR the entries are the list. -/
theorem compareAppend_clears :
    Acts .compareAppend compareAppendSpec
      (fun c s => badAppend c = none ∧ compareShut s c.unit = false ∧ u8 c.params 0 = 1 ∧ bitOf (u8 c.params 1) 0 = true ∧
        (∀ e ∈ appendEntries c, e.axisStart = false) ∧ (vget s.gauge.cmp c.unit).lockUntil ≤ s.now)
      (fun c _ => appendBody (u16 c.params 2) 0 (4096 - u16 c.params 2))
      (fun _ c s => setCmp c.unit (fun x => { x with
        shadow := (appendEntries c).foldl (fun l e => insertBy (cmpBefore (cmpCfg s c.unit).reverse) e l) [] }) s) := by
  refine compareAppend_acts.in_case fun t c s hc => ?_
  obtain ⟨hb, hshut, hshadow, hclear, hax, hlock⟩ := hc
  have hold : oldShadow c = fun _ => [] := by
    funext x
    simp [oldShadow, hclear]
  have hle := appendEntries_le hb
  unfold shadowAppended
  simp only [hold, List.length_nil, Nat.zero_add, and_true]
  exact ⟨hb, hshut, hshadow, hax, hlock, by omega⟩

/-- An append to the active list waits for its last insertion. -/
theorem compareAppend_waits :
    Waits .compareAppend compareAppendSpec
      (fun c s => badAppend c = none ∧ compareShut s c.unit = false ∧ u8 c.params 0 = 0 ∧ (∀ e ∈ appendEntries c, e.axisStart = false) ∧
        (vget s.gauge.cmp c.unit).active.length + (vget s.gauge.cmp c.unit).inserting.length + u16 c.params 2 ≤ 4096)
      (fun t c s => setCmp c.unit (fun x => { x with
        inserting := x.inserting ++ (appendEntries c).zipIdx.map fun e =>
          { entry := e.1, due := max s.now t + 2000, ticket := if e.2 + 1 = u16 c.params 2 then some (nextTicket s) else none } }) s) := by
  refine waits_quiet (fun _ _ _ => rfl) rfl (fun _ _ _ => rfl) (fun _ _ => nofun) fun t c s h hc => ?_
  obtain ⟨hb, hshut, hactive, hax, hroom⟩ := hc
  have hf := taken_frame t h.inv h.slot
  have hne : ¬ u8 c.params 0 = 1 := by omega
  refine ⟨beginInserts c.unit (appendEntries c) (some (nextTicket s)) (taken t s), ?_, setCmp_keepsReply _ _ _, setCmp_bench _ _ _,
    setCmp_pending _ _ _, ?_⟩
  · show compareAppend _ c (taken t s) = _
    rw [compareAppend_run hb ((taken_compareShut t h _).trans hshut) hax rfl, if_neg hne]
    · rfl
    · rw [if_neg hne, taken_gauge t h, cmpCap]
      omega
  · simp only [beginInserts, appendEntries_length, taken_now t h]
    exact hf.reply.setCmp _ _

end

theorem compareAppend_refuses :
    Refuses .compareAppend compareAppendSpec (fun c s => compareShut s c.unit = true) stWrongState (fun _ _ => zeros 8) := by
  refine refuses_of (fun _ _ _ => rfl) (by decide) rfl (fun _ _ _ => rfl) (fun _ _ => nofun) fun t c s h hc => ⟨by decide, ?_⟩
  show compareAppend _ c (taken t s) = _
  unfold compareAppend
  rw [if_pos ((taken_compareShut t h _).trans hc)]
  rfl

/-! ### The first entry's time -/

section
variable {u : Nat} {s : State}

/-- A unit in reverse fires on counts alone: no time is computed (R175). -/
theorem planCompare_reverse (h : (cmpCfg s u).reverse = true) : planCompare u s = setCmp u (fun x => { x with fireAt := none }) s := by
  unfold planCompare
  simp only [h, Bool.or_true, Bool.true_or, if_true]
  split <;> rfl

/-- The time is computed anew: what it was before makes no difference. -/
theorem planCompare_fireAt (hu : u < 16) (v : Option Nat) : planCompare u (setCmp u (fun x => { x with fireAt := v }) s) = planCompare u s := by
  unfold planCompare
  simp only [setCmp_self hu, setCmp_setCmp]
  rfl

end

theorem OutFrame.planCompare {a b : State} (h : OutFrame a b) (u : Nat) : OutFrame (planCompare u a) (planCompare u b) := by
  have henc : webEnc b = webEnc a := by rw [webEnc, h.cfgNow, h.gauge, webEnc]
  have hstep : webStep b = webStep a := by rw [webStep, h.cfgNow, h.gauge, henc, webStep]
  have hpredict : predictFire b = predictFire a := by
    funext q pos
    rw [predictFire, predictFire, webPredictor, webPredictor, countsAhead, countsAhead, henc, hstep, h.gauge]
  unfold Machine.planCompare
  simp only [cmpCfg, h.cfgNow, h.gauge, hpredict]
  exact h.setCmp _ _

/-! ### COMPARE_SWAP -/

/-- The lists exchanged at `now`, each entry kept, under the lock that the free value gives. -/
def swapped (u now : Nat) (s : State) : State :=
  { setCmp u (fun x => { x with
      active := x.shadow, shadow := x.active, lockUntil := now + Config.freeValue s.free % 401, fireAt := none }) s with free := s.free + 1 }

theorem swapped_keepsReply (u now : Nat) (s : State) : KeepsReply s (swapped u now s) := ⟨rfl, rfl, rfl, rfl, rfl⟩
theorem swapped_bench (u now : Nat) (s : State) : (swapped u now s).bench = s.bench := rfl
theorem swapped_pending (u now : Nat) (s : State) : (swapped u now s).pending = s.pending := rfl

theorem ReplyFrame.swapped {a b : State} (h : ReplyFrame a b) (u now : Nat) : ReplyFrame (swapped u now a) (swapped u now b) := by
  unfold ReplyFrame at *
  rw [h]
  rfl

/-- A swap of a unit in reverse whose shadow entries all lie ahead loses none of them (R179). -/
theorem swapLists_ahead {u : Nat} {s : State} (hr : (cmpCfg s u).reverse = true) (ha : ∀ e ∈ (vget s.gauge.cmp u).shadow, e.pos < s.gauge.webPos) :
    swapLists u s = (swapped u s.now s, (vget s.gauge.cmp u).shadow.length, 0) := by
  have hkeep : (vget s.gauge.cmp u).shadow.filter (cmpAhead true s.gauge.webPos) = (vget s.gauge.cmp u).shadow :=
    List.filter_eq_self.2 fun e he => decide_eq_true (ha e he)
  have hgone : (vget s.gauge.cmp u).shadow.filter (fun e => !cmpAhead true s.gauge.webPos e) = [] :=
    List.filter_eq_nil_iff.2 fun e he => by simp [cmpAhead, ha e he]
  unfold swapLists
  simp only [hr, hkeep, hgone, List.foldl_nil, List.length_nil]
  rw [planCompare_reverse (by exact hr), setCmp_setCmp]
  refine congrArg (fun x => (x, _)) ?_
  exact setCmp_congr (s := { s with free := s.free + 1 }) rfl

theorem compareSwap_acts :
    Acts .compareSwap compareSwapSpec
      (fun c s => compareShut s c.unit = false ∧ (cmpCfg s c.unit).reverse = true ∧
        ∀ e ∈ (vget s.gauge.cmp c.unit).shadow, e.pos < s.gauge.webPos)
      (fun c s => le 2 (vget s.gauge.cmp c.unit).shadow.length ++ le 2 0) (fun t c s => swapped c.unit (max s.now t) s) := by
  refine acts_unstaged (fun _ _ _ => rfl) rfl rfl (fun _ _ _ => rfl) (fun _ _ => nofun) fun t c s h hc => ⟨by simp, ?_⟩
  obtain ⟨hshut, hrev, hahead⟩ := hc
  have hf := taken_frame t h.inv h.slot
  refine ⟨swapped c.unit (max s.now t) (taken t s), ?_, swapped_keepsReply _ _ _, swapped_bench _ _ _, swapped_pending _ _ _, hf.reply.swapped _ _⟩
  show (if compareShut (taken t s) c.unit then _ else _) = _
  rw [if_neg (by rw [taken_compareShut t h, hshut]; exact Bool.false_ne_true),
    swapLists_ahead (by rw [taken_cmpCfg t h]; exact hrev) (by rw [taken_gauge t h]; exact hahead), taken_now t h]

theorem compareSwap_refuses :
    Refuses .compareSwap compareSwapSpec (fun c s => compareShut s c.unit = true) stWrongState (fun _ _ => zeros 8) := by
  refine refuses_of (fun _ _ _ => rfl) (by decide) rfl (fun _ _ _ => rfl) (fun _ _ => nofun) fun t c s h hc => ⟨by decide, ?_⟩
  show (if compareShut (taken t s) c.unit then _ else _) = _
  rw [if_pos ((taken_compareShut t h _).trans hc)]
  rfl

/-! ### An insertion completes -/

section
variable {u : Nat} {s : State} {i : CmpInsert} {rest : List CmpInsert}

/-- The unit once its oldest insertion, of an entry ahead of WebPos, is done (R176). -/
def insertedUnit (reverse : Bool) (i : CmpInsert) (rest : List CmpInsert) (x : CompareUnit) : CompareUnit :=
  { x with inserting := rest, active := insertBy (cmpBefore reverse) i.entry x.active, inserted := x.inserted + 1 }

/-- The reply body of a COMPARE_APPEND whose last insertion has left `rest` to be inserted. -/
def insertedBody (rest : List CmpInsert) (x : CompareUnit) : Bytes :=
  appendBody x.inserted x.notAhead (cmpCap - x.active.length - rest.length)

theorem completeInsert_ahead (hi : (vget s.gauge.cmp u).inserting = i :: rest)
    (ha : cmpAhead (cmpCfg s u).reverse s.gauge.webPos i.entry = true) (ht : i.ticket = none) :
    completeInsert u s = (planCompare u (setCmp u (insertedUnit (cmpCfg s u).reverse i rest) s), none) := by
  unfold completeInsert
  simp only [hi, ha, if_true, ht]
  refine congrArg (fun x => (planCompare u x, none)) ?_
  exact setCmp_congr rfl

theorem completeInsert_missed (hi : (vget s.gauge.cmp u).inserting = i :: rest)
    (ha : cmpAhead (cmpCfg s u).reverse s.gauge.webPos i.entry = false) (ht : i.ticket = none) :
    completeInsert u s = (missEntry u i.entry (setCmp u (fun x => { x with inserting := rest, notAhead := x.notAhead + 1 }) s), some i.entry) := by
  unfold completeInsert
  simp only [hi, ha, Bool.false_eq_true, if_false, ht]
  refine congrArg (fun x => (missEntry u i.entry x, some i.entry)) ?_
  exact setCmp_congr rfl

theorem completeInsert_ends {w : Nat} (hi : (vget s.gauge.cmp u).inserting = i :: rest)
    (ha : cmpAhead (cmpCfg s u).reverse s.gauge.webPos i.entry = true) (ht : i.ticket = some w) :
    completeInsert u s = (complete w stOk (insertedBody rest (insertedUnit (cmpCfg s u).reverse i rest (vget s.gauge.cmp u))) (setCmp u (fun x => { x with inserted := 0, notAhead := 0 })
      (planCompare u (setCmp u (insertedUnit (cmpCfg s u).reverse i rest) s))), none) := by
  unfold completeInsert
  simp only [hi, ha, if_true, ht]
  refine congrArg (fun x => (complete w stOk (insertedBody rest (insertedUnit (cmpCfg s u).reverse i rest (vget s.gauge.cmp u)))
    (setCmp u (fun x => { x with inserted := 0, notAhead := 0 }) (planCompare u x)), none)) ?_
  exact setCmp_congr rfl

/-- The effect of an insertion: the entry missed by a station's unit ends its mark. -/
def insertDone (u : Nat) (s : State) : State :=
  match (completeInsert u s).2 with
  | some e => markMissed u e (completeInsert u s).1
  | none => (completeInsert u s).1

theorem exec_compareInsertComplete (hu : u < 16) (t : Nat) (s : State) : exec (.compareInsertComplete t u) s = runAt t s (insertDone u) := by
  show runAt t s (fun s => if 16 ≤ u then s else insertDone u s) = _
  simp only [Nat.not_le.2 hu, if_false]

end

/-- What an insertion ahead of WebPos does to a unit that counts forward, and to one in reverse. -/
theorem insertedUnit_forward (i : CmpInsert) (rest : List CmpInsert) : insertedUnit false i rest = fun x => { x with
    inserting := rest, active := insertBy (fun a b => decide (a.pos < b.pos)) i.entry x.active, inserted := x.inserted + 1 } := rfl

theorem insertedUnit_reverse (i : CmpInsert) (rest : List CmpInsert) : insertedUnit true i rest = fun x => { x with
    inserting := rest, active := insertBy (fun a b => decide (b.pos < a.pos)) i.entry x.active, inserted := x.inserted + 1 } := rfl

theorem insertDone_ahead {u : Nat} {s : State} {i : CmpInsert} {rest : List CmpInsert} (hi : (vget s.gauge.cmp u).inserting = i :: rest)
    (hr : (cmpCfg s u).reverse = false) (hpos : s.gauge.webPos < i.entry.pos) (ht : i.ticket = none) :
    insertDone u s = planCompare u (setCmp u (insertedUnit false i rest) s) := by
  unfold insertDone
  rw [completeInsert_ahead hi (by rw [hr]; exact decide_eq_true hpos) ht, hr]

theorem compareInsert_ahead {u : Nat} {i : CmpInsert} (rest : List CmpInsert) (hu : u < 16) (ht : i.ticket = none) :
    Happens (.compareInsertComplete · u)
      (fun s => (vget s.gauge.cmp u).inserting = i :: rest ∧ (cmpCfg s u).reverse = false ∧ s.gauge.webPos < i.entry.pos)
      (fun s => planCompare u (setCmp u (insertedUnit false i rest) s)) [] noPuts := by
  refine happens_of (f := insertDone u) (exec_compareInsertComplete hu) fun q _ _ hc => ?_
  obtain ⟨hi, hr, hpos⟩ := hc
  rw [insertDone_ahead hi hr hpos ht]
  exact ⟨OutFrame.refl _, rfl, rfl, List.forall_mem_nil _, List.nil_subset _⟩

/-- An entry missed by a unit without EVENT_ENABLE that no station claims counts, and nothing else (R176, R818). -/
theorem insertDone_missed {u : Nat} {s : State} {i : CmpInsert} {rest : List CmpInsert} (hi : (vget s.gauge.cmp u).inserting = i :: rest)
    (hr : (cmpCfg s u).reverse = false) (hpos : i.entry.pos ≤ s.gauge.webPos) (hev : (cmpCfg s u).eventEnable = false)
    (hst : stationOfCmp (cfgNow s) u = none) (ht : i.ticket = none) :
    insertDone u s = countMissed 1 (setCmp u (fun x => { x with inserting := rest, notAhead := x.notAhead + 1 }) s) := by
  unfold insertDone
  rw [completeInsert_missed hi (by rw [hr]; exact decide_eq_false (Int.not_lt.2 hpos)) ht]
  generalize hq : setCmp u (fun x => { x with inserting := rest, notAhead := x.notAhead + 1 }) s = q
  have hcfg : cfgNow q = cfgNow s := by rw [← hq]; rfl
  have hquiet : missEntry u i.entry q = countMissed 1 q := by
    unfold missEntry raiseCompare
    exact if_neg (by rw [show cmpCfg (countMissed 1 q) u = cmpCfg s u from congrArg (fun g : Cfg => vget g.cmp u) hcfg, hev]; exact Bool.false_ne_true)
  rw [hquiet]
  unfold markMissed
  rw [show stationOfCmp (cfgNow (countMissed 1 q)) u = none from (congrArg (stationOfCmp · u) hcfg).trans hst]

theorem compareInsert_missed {u : Nat} {i : CmpInsert} (rest : List CmpInsert) (hu : u < 16) (ht : i.ticket = none) :
    Happens (.compareInsertComplete · u)
      (fun s => (vget s.gauge.cmp u).inserting = i :: rest ∧ (cmpCfg s u).reverse = false ∧ i.entry.pos ≤ s.gauge.webPos ∧
        (cmpCfg s u).eventEnable = false ∧ stationOfCmp (cfgNow s) u = none)
      (fun s => countMissed 1 (setCmp u (fun x => { x with inserting := rest, notAhead := x.notAhead + 1 }) s)) [] noPuts := by
  refine happens_of (f := insertDone u) (exec_compareInsertComplete hu) fun q _ _ hc => ?_
  obtain ⟨hi, hr, hpos, hev, hst⟩ := hc
  rw [insertDone_missed hi hr hpos hev hst ht]
  exact ⟨OutFrame.refl _, rfl, rfl, List.forall_mem_nil _, List.nil_subset _⟩

/-- The last insertion of a COMPARE_APPEND, of an entry ahead of a unit in reverse, ends the command. -/
theorem insertDone_ends {u : Nat} {s : State} {i : CmpInsert} {w : Nat} (hi : (vget s.gauge.cmp u).inserting = [i])
    (hr : (cmpCfg s u).reverse = true) (hpos : i.entry.pos < s.gauge.webPos) (ht : i.ticket = some w) :
    insertDone u s = complete w stOk (insertedBody [] (insertedUnit true i [] (vget s.gauge.cmp u)))
      (setCmp u (fun x => { insertedUnit true i [] x with inserted := 0, notAhead := 0, fireAt := none }) s) := by
  unfold insertDone
  rw [completeInsert_ends hi (by rw [hr]; exact decide_eq_true hpos) ht, hr, planCompare_reverse (by exact hr), setCmp_setCmp, setCmp_setCmp]

theorem compareInsert_ends {u : Nat} {i : CmpInsert} {w : Nat} (hu : u < 16) (ht : i.ticket = some w) :
    Concludes (.compareInsertComplete · u)
      (fun s => (vget s.gauge.cmp u).inserting = [i] ∧ (cmpCfg s u).reverse = true ∧ i.entry.pos < s.gauge.webPos)
      (fun _ => w) (fun _ => stOk)
      (fun s => setCmp u (fun x => { insertedUnit true i [] x with inserted := 0, notAhead := 0, fireAt := none }) s) [] noPuts := by
  refine concludes_of (f := insertDone u) (g := fun s => setCmp u (fun x => { insertedUnit true i [] x with inserted := 0, notAhead := 0, fireAt := none }) s)
    (body := fun s => insertedBody [] (insertedUnit true i [] (vget s.gauge.cmp u))) (exec_compareInsertComplete hu) fun q c _ _ hc _ => ?_
  obtain ⟨hi, hr, hpos⟩ := hc
  exact ⟨insertDone_ends hi hr hpos ht, by decide, rfl, rfl, rfl, ReplyFrame.refl _, rfl, rfl, List.forall_mem_nil _, List.nil_subset _⟩

/-! ### A first entry fires -/

section
variable {u : Nat} {s : State}

/-- A stop or a move of an axis changes no mark where no station is in use. -/
theorem marksAfter_noStations (old : State) (h : noStations s) : marksAfter old s = s := by
  have hoff : ∀ t : Nat, t < 4 → (stationCfg s t).enable = false := h
  have hstep : ∀ l : List Nat, (∀ t ∈ l, t < 4) → ∀ f : State → Nat → State, (∀ t : Nat, t < 4 → f s t = s) → l.foldl f s = s := by
    intro l
    induction l with
    | nil => exact fun _ _ _ => rfl
    | cons t l ih =>
      intro hl f hf
      rw [List.foldl_cons, hf t (hl t (by simp))]
      exact ih (fun k hk => hl k (by simp [hk])) f hf
  unfold marksAfter
  refine hstep _ (fun t ht => List.mem_range.1 ht) _ fun t ht => ?_
  simp [hoff t ht]

/-- No station claims a unit where none is in use. -/
theorem stationOfCmp_noStations (h : noStations s) : stationOfCmp (cfgNow s) u = none :=
  List.find?_eq_none.2 fun t ht => by simp [h t (List.mem_range.1 ht)]

/-- A compare unit's event, and the pulse of its output, as a firing of an entry with both gives them (R178). -/
theorem fireOutputs_both {e : CmpEntry} {o : Nat} (hp : e.pulse = true) (he : e.event = true) (ho : (cmpCfg s u).output = some o)
    (hev : (cmpCfg s u).eventEnable = true) (hact : isPassive s = false) :
    fireOutputs u e s = raise (0x3A0 + u) e.tag 0 (pulseTrg o (cmpCfg s u).width (cmpCfg s u).inverted s) := by
  have hheld : holdsCompare s u = false := by simp [holdsCompare, hact]
  have hcfg : (cmpCfg (pulseTrg o (cmpCfg s u).width (cmpCfg s u).inverted s) u).eventEnable = true := hev
  simp only [fireOutputs, hp, ho, hheld, Bool.false_eq_true, if_false, he, if_true, raiseCompare, hcfg]
  rfl

/-- The state in which a unit's entry has left its list and its output pulses. -/
def firedEntry (u o : Nat) (rest : List CmpEntry) (s : State) : State :=
  setCmp u (fun x => { x with active := rest }) { s with gauge := { s.gauge with trg := vset s.gauge.trg o {
    active := true, inverted := (cmpCfg s u).inverted
    until_ := if (vget s.gauge.trg o).active then max (vget s.gauge.trg o).until_ (s.now + (cmpCfg s u).width) else s.now + (cmpCfg s u).width } } }

/-- A firing ends no mark where no station claims the unit. -/
theorem markFired_unclaimed {e : CmpEntry} {k : Bool} (h : stationOfCmp (cfgNow s) u = none) : markFired u e k s = s := by
  unfold markFired
  rw [h]

theorem fireFirst_noStations {e : CmpEntry} {rest : List CmpEntry} {o : Nat} (hl : (vget s.gauge.cmp u).active = e :: rest)
    (hst : noStations s) (hax : e.axisStart = false) (hp : e.pulse = true) (he : e.event = true) (ho : (cmpCfg s u).output = some o)
    (hev : (cmpCfg s u).eventEnable = true) (hact : isPassive s = false) :
    fireFirst u s = planCompare u (raise (0x3A0 + u) e.tag 0 (setCmp u (fun x => { x with fireAt := none }) (firedEntry u o rest s))) := by
  have hleft : setCmp u (fun x => { x with fireAt := none }) (firedEntry u o rest s) =
      pulseTrg o (cmpCfg s u).width (cmpCfg s u).inverted (setCmp u (fun x => { x with active := rest, fireAt := none }) s) :=
    setCmp_setCmp (s := (pulseTrg o (cmpCfg s u).width (cmpCfg s u).inverted s)) _ _
  have hcfg := (raise_frame (0x3A0 + u) e.tag 0
    (pulseTrg o (cmpCfg s u).width (cmpCfg s u).inverted (setCmp u (fun x => { x with active := rest, fireAt := none }) s))).cfgNow
  unfold fireFirst
  rw [hl, hleft]
  simp only [fireEntry, hax, Bool.not_false, if_true]
  rw [fireOutputs_both hp he (by exact ho) (by exact hev) (by exact hact), markFired_unclaimed]
  · rfl
  · exact (congrArg (stationOfCmp · u) hcfg).trans (stationOfCmp_noStations (s := s) hst)

/-- A first entry whose time has come at or past its anchor count fires, and its marks follow (R162, R175). -/
theorem compareFire_fires {f : Nat} {e : CmpEntry} {rest : List CmpEntry} (hon : (cmpCfg s u).enable = true)
    (hf : (vget s.gauge.cmp u).fireAt = some f) (hnow : f ≤ s.now) (hl : (vget s.gauge.cmp u).active = e :: rest) (ha : atAnchor s e.pos = true) :
    compareFire u s = withMarks (fireFirst u) s := by
  unfold compareFire
  simp [hf, hl, hon, ha, Nat.not_lt.2 hnow]

/-- One whose time has come before its anchor count waits for the next count (R162). -/
theorem compareFire_overshot {f : Nat} {e : CmpEntry} {rest : List CmpEntry} (hon : (cmpCfg s u).enable = true)
    (hf : (vget s.gauge.cmp u).fireAt = some f) (hnow : f ≤ s.now) (hl : (vget s.gauge.cmp u).active = e :: rest) (ha : atAnchor s e.pos = false) :
    compareFire u s = setCmp u (fun x => { x with fireAt := none }) s := by
  unfold compareFire
  simp [hf, hl, hon, ha, Nat.not_lt.2 hnow]

theorem compareFire_none (h : (vget s.gauge.cmp u).fireAt = none) : compareFire u s = s := by
  unfold compareFire
  simp only [h]

end

theorem exec_compareFire {u : Nat} (hu : u < 16) (t : Nat) (s : State) : exec (.compareFire t u) s = runAt t s (compareFire u) := by
  show runAt t s (fun s => if 16 ≤ u then s else compareFire u s) = _
  simp only [Nat.not_le.2 hu, if_false]

theorem compareFire_happens {u o f : Nat} {e : CmpEntry} (rest : List CmpEntry) (hu : u < 16) (hax : e.axisStart = false) (hp : e.pulse = true)
    (he : e.event = true) :
    Happens (.compareFire · u)
      (fun s => up s ∧ noStations s ∧ (cmpCfg s u).enable = true ∧ (vget s.gauge.cmp u).fireAt = some f ∧ f ≤ s.now ∧
        (vget s.gauge.cmp u).active = e :: rest ∧ atAnchor s e.pos = true ∧ (cmpCfg s u).output = some o ∧ isPassive s = false ∧
        (cmpCfg s u).eventEnable = true)
      (fun s => planCompare u (firedEntry u o rest s)) [0x3A0 + u] noPuts := by
  refine happens_of (f := compareFire u) (exec_compareFire hu) fun q _ _ hc => ?_
  obtain ⟨hup, hst, hon, hf, hnow, hl, ha, ho, hact, hev⟩ := hc
  generalize hr : setCmp u (fun x => { x with fireAt := none }) (firedEntry u o rest q) = r
  have hraise := raise_frame (0x3A0 + u) e.tag 0 r
  have hplan : OutFrame (planCompare u (firedEntry u o rest q)) (planCompare u (raise (0x3A0 + u) e.tag 0 r)) := by
    rw [← planCompare_fireAt hu none, hr]
    exact hraise.planCompare u
  have hrun : compareFire u q = planCompare u (raise (0x3A0 + u) e.tag 0 r) := by
    rw [compareFire_fires hon hf hnow hl ha, withMarks, fireFirst_noStations hl hst hax hp he ho hev hact, hr]
    refine marksAfter_noStations _ fun t ht => ?_
    rw [hplan.cfgNow]
    exact hst t ht
  have hset : bitOf (raise (0x3A0 + u) e.tag 0 r).host.evt.pending (0x3A0 + u) = true := raise_sets _ _ _ (by rw [← hr]; exact hup)
  rw [hrun]
  refine ⟨hplan, rfl, rfl, fun k hk => ?_, List.nil_subset _⟩
  rw [List.mem_singleton.1 hk]
  exact hset

theorem compareFire_waits {u f : Nat} {e : CmpEntry} (rest : List CmpEntry) (hu : u < 16) :
    Happens (.compareFire · u)
      (fun s => (cmpCfg s u).enable = true ∧ (vget s.gauge.cmp u).fireAt = some f ∧ f ≤ s.now ∧ (vget s.gauge.cmp u).active = e :: rest ∧
        atAnchor s e.pos = false)
      (setCmp u fun x => { x with fireAt := none }) [] noPuts := by
  refine happens_of (f := compareFire u) (exec_compareFire hu) fun q _ _ hc => ?_
  obtain ⟨hon, hf, hnow, hl, ha⟩ := hc
  rw [compareFire_overshot hon hf hnow hl ha]
  exact ⟨OutFrame.refl _, rfl, rfl, List.forall_mem_nil _, List.nil_subset _⟩

theorem compareFire_idle {u : Nat} (hu : u < 16) : Happens (.compareFire · u) (fun s => (vget s.gauge.cmp u).fireAt = none) id [] noPuts := by
  refine happens_of (f := compareFire u) (exec_compareFire hu) fun q _ _ hc => ?_
  rw [compareFire_none hc]
  exact ⟨OutFrame.refl _, rfl, rfl, List.forall_mem_nil _, List.nil_subset _⟩

/-- Settles O29: the lists' commands and the insertions of a unit, and the firing of its first entry. -/
theorem compareUnits : Obligations.CompareUnits := by
  refine ⟨compareAppend_keeps, compareAppend_clears, compareAppend_waits, compareAppend_refuses, compareSwap_acts, compareSwap_refuses, ?_, ?_, ?_, ?_,
    fun u f e rest hu => compareFire_waits rest hu, fun u hu => compareFire_idle hu⟩
  · exact fun u i rest hu ht => compareInsert_ahead rest hu ht
  · exact fun u i rest hu ht => compareInsert_missed rest hu ht
  · exact fun u i w hu ht => compareInsert_ends hu ht
  · exact fun u f e rest o hu _ hax hp he => compareFire_happens rest hu hax hp he

end Sys2Proof.Machine

/-! ## One step of the command queue, and commands that are turned away (R73, R75, R76, R78, R87, R91, R703) -/

namespace Sys2Proof.Machine

/-- Settles O1: each part is `step`, or the reader of table words, on its case. -/
theorem stepRunsTheFrontCommand : Obligations.StepRunsTheFrontCommand := by
  refine ⟨fun _ _ _ => rfl, fun s hempty => ?_, fun _ _ _ => ⟨rfl, rfl⟩⟩
  simp only [step, hempty]

section
variable {sp : CmdSpec} {r : CmdRec} {c : HostCmd} {q : State}

/-! ### The verdicts, in their order -/

theorem judge_badLength (hn : (sp.need c).2 = false) : judge sp r c q = fail stBadLength (lengthBody (sp.need c).1 c.paramLen) q := by
  simp only [judge, hn, Bool.not_false, if_true]

theorem judge_badTarget (hn : (sp.need c).2 = true) (hu : sp.unitOk q c = false) : judge sp r c q = fail stBadTarget (targetBody c) q := by
  simp only [judge, hn, hu, Bool.not_true, Bool.not_false, Bool.false_eq_true, if_false, if_true]

theorem judge_passive (hn : (sp.need c).2 = true) (hu : sp.unitOk q c = true) (hp : passiveRefuses q sp.opcode c = true) :
    judge sp r c q = fail stWrongState (zeros 8) q := by
  simp only [judge, hn, hu, hp, Bool.not_true, Bool.false_eq_true, if_false, if_true, wrongState]

theorem judge_fenced {f : Fence} (hn : (sp.need c).2 = true) (hu : sp.unitOk q c = true) (hp : passiveRefuses q sp.opcode c = false)
    (hf : (sp.units c).findSome? (fun u => fenceOf q u.1 u.2) = some f) : judge sp r c q = fail stFenced (entryNoBody f.entry) q := by
  simp only [judge, hn, hu, hp, hf, Bool.not_true, Bool.false_eq_true, if_false]

/-- A command that passes every check is judged by its own run, but for the limit of R73. -/
theorem judge_runs (hn : (sp.need c).2 = true) (hu : sp.unitOk q c = true) (hp : passiveRefuses q sp.opcode c = false)
    (hf : ∀ u ∈ sp.units c, fenceOf q u.1 u.2 = none) (hd : sp.dies q c = []) (hs : c.stepFails = 0) :
    judge sp r c q = if (sp.run r c q).status = stAccepted ∧ ¬ acceptsMore q then busy 4 0 q else sp.run r c q := by
  have hfence : (sp.units c).findSome? (fun u => fenceOf q u.1 u.2) = none := List.findSome?_eq_none_iff.2 hf
  simp only [judge, hn, hu, hp, hfence, hd, benchRefuses, wakeBench, withStep, hs, List.find?_nil, List.any_nil, Bool.false_and, Bool.not_true,
    Bool.false_eq_true, if_false, true_or, if_true, acceptsMore, not_lt]

/-! ### A refusal is answered at once -/

theorem runHere_fails {status : Nat} {body : Bytes} (hj : judge sp r c q = fail status body q) (hst : 0x8000 ≤ status) :
    runHere sp r c q = answer r status body q := by
  have hlt : ¬ status < 0x8000 := Nat.not_lt.2 hst
  simp only [runHere, hj, fail, hlt, decide_false, Bool.false_and, Bool.false_eq_true, if_false]

/-- The early length check of GLUEUP (R817) gives the verdict that every command gets. -/
theorem runCmd_fails {status : Nat} {body : Bytes} (hl : lengthsAgree c = true) (hm : c.module = 0xFF ∨ isOwnId q c.module = true)
    (hj : judge sp r c q = fail status body q) (hst : 0x8000 ≤ status) : runCmd sp r c q = answer r status body q := by
  by_cases hn : (sp.need c).2 = true
  · simp only [runCmd, hl, hn, hm, Bool.not_true, Bool.and_false, Bool.false_eq_true, if_false, if_true, runHere_fails hj hst]
  · have hn' : (sp.need c).2 = false := by simpa using hn
    by_cases hop : sp.opcode = 0x0201
    · rw [judge_badLength hn'] at hj
      simp only [fail, Verdict.mk.injEq] at hj
      obtain ⟨rfl, rfl, -, -⟩ := hj
      simp only [runCmd, hl, hn', hop, decide_true, Bool.not_true, Bool.not_false, Bool.and_self, Bool.false_eq_true, if_false, if_true]
    · simp only [runCmd, hl, hop, hm, decide_false, Bool.false_and, Bool.not_true, Bool.false_eq_true, if_false, if_true, runHere_fails hj hst]

end

section
variable {sp : CmdSpec} {t : Nat} {c : HostCmd} {s : State}

theorem Arrives.taken_ringReady (h : Arrives c s) (t : Nat) : RingReady c.ring 16 (taken t s) := by
  have hf := taken_frame t h.inv h.slot
  refine ⟨hf.hf_fabric.trans h.fabric, h.ring, by rw [hf.rings]; exact h.enabled, by rw [hf.rings]; exact h.first, ?_⟩
  have hroom := h.room
  unfold freeSlots reservedSlots at *
  rwa [hf.rings, hf.cmds, hf.ring]

/-- A packet on whose state the verdict is a refusal is turned away. -/
theorem Arrives.turnedAway {status : Nat} {body : Bytes} (h : Arrives c s)
    (hj : judge sp (recOf sp c s) c (taken t s) = fail status body (taken t s)) (hst : 0x8000 ≤ status) (hlen : body.length ≤ 1008) :
    TurnedAway sp t c s status body := by
  have hf := taken_frame t h.inv h.slot
  have hup : up (tick t s) := h.fabric
  have hm : c.module = 0xFF ∨ isOwnId (taken t s) c.module = true := by
    simpa only [isOwnId, hf.ring] using h.here
  have hready := h.taken_ringReady t
  have hlt : ¬ status < 0x8000 := Nat.not_lt.2 hst
  obtain ⟨hput, hunread, -, hfailed, hframe⟩ := answer_posts (r := recOf sp c s) (status := status) (body := body) (q := taken t s) rfl rfl
    (by rintro rfl; exact absurd hst (by decide)) (taken_live t h.slot h.gen)
    ⟨hready.fabric, hready.ring, hready.enabled, hready.first, le_trans (replySlots_le hlen) hready.room⟩
  have hkeep : ReplyFrame (taken t s) (answer (recOf sp c s) status body (taken t s)) := by
    refine hframe.after ?_
    simp [ReplyFrame, hlt]
  have hcommit := commit_frame t h.inv (hkeep.bench.trans hf.bench) (hkeep.pending.trans hf.pending)
  refine ⟨_, ?_, ⟨⟨?_, ?_⟩, ?_⟩, hcommit.reply.after (hkeep.after hf.reply)⟩
  · show runAt t s (onFabric [] (takeCmd sp c)) = _
    rw [runAt, onFabric_up (parts := []) _ hup (fun _ => nofun), takeCmd, issue_taken t h.slot]
    exact congrArg (fun q => Host.Outcome.next (commit (tick t s) q)) (runCmd_fails h.lengths hm hj hst)
  · rw [hf.rings, hf.ring_moduleId] at hput
    exact hput
  · rw [hf.rings, hf.ring_moduleId] at hunread
    rw [hcommit.rings]
    exact hunread
  · rw [hcommit.ledger, hfailed, taken_failed t h.slot, if_neg hlt]

theorem Arrives.taken_passiveRefuses (h : Arrives c s) (t op : Nat) : passiveRefuses (taken t s) op c = passiveRefuses s op c := by
  have hf := taken_frame t h.inv h.slot
  simp only [passiveRefuses, isPassive, cfgNow, hf.pair, hf.glue, hf.running]

theorem Arrives.taken_fenceOf (h : Arrives c s) (t unit index : Nat) : fenceOf (taken t s) unit index = fenceOf s unit index := by
  simp only [fenceOf, (taken_frame t h.inv h.slot).faults]

end

/-- Settles O6: the verdicts in their order, each answered at once. -/
theorem commandsAreTurnedAway : Obligations.CommandsAreTurnedAway := by
  refine ⟨fun sp t c s h hn => ?_, fun sp t c s h hn hu => ?_, fun sp t c s h hn hu hp => ?_, fun sp t c s u f h hn hu hp hus hf => ?_,
    fun sp t c s h hn hu hp hfree hd hs hacc hfull => ?_⟩
  · exact h.turnedAway (judge_badLength hn) (by decide) (by simp [lengthBody])
  · exact h.turnedAway (judge_badTarget hn hu) (by decide) (by simp [targetBody])
  · exact h.turnedAway (judge_passive hn hu ((h.taken_passiveRefuses t _).trans hp)) (by decide) (by simp)
  · have hfence : (sp.units c).findSome? (fun u => fenceOf (taken t s) u.1 u.2) = some f := by simp [hus, h.taken_fenceOf, hf]
    exact h.turnedAway (judge_fenced hn hu ((h.taken_passiveRefuses t _).trans hp) hfence) (by decide) (by simp [entryNoBody])
  · have hfence : ∀ u ∈ sp.units c, fenceOf (taken t s) u.1 u.2 = none := fun u hu => (h.taken_fenceOf t _ _).trans (hfree u hu)
    have hfull' : ¬ acceptsMore (taken t s) := by
      rw [acceptsMore, (taken_frame t h.inv h.slot).cmds]
      exact hfull
    refine h.turnedAway ?_ (by decide) (by simp [busyBody])
    rw [judge_runs hn hu ((h.taken_passiveRefuses t _).trans hp) hfence hd hs, if_pos ⟨hacc _, hfull'⟩, busy]

end Sys2Proof.Machine

/-! ## Queries (R68, R70, R80, R82, R88, R99, R103, Tables 2-2 and 2-19) -/

namespace Sys2Proof.Machine

/-- What the queries share: their row runs their specification, which is no setting, follows its reply with nothing, knows its units without the
state, and needs no more of the Bench than its two stacks. -/
structure QuerySpec (i : Nat → HostCmd → Instr) (sp : CmdSpec) : Prop where
  row : ∀ t c s, exec (i t c) s = execCmd sp t c s := by intros; rfl
  unstaged : isStaged sp.opcode = false := by rfl
  after : sp.after = id := by rfl
  units : ∀ c s q, sp.unitOk q c = sp.unitOk s c := by intros; rfl
  dies : ∀ c s, ∀ k ∈ sp.dies s c, k < 2 := by intros; contradiction

section
variable {i : Nat → HostCmd → Instr} {sp : CmdSpec} {cond : HostCmd → State → Prop} {body : HostCmd → State → Bytes} {puts : HostCmd → State → List Emit}

/-- A query answers with its body where its condition, once the packet has been taken, still holds; its run may use free values and put something out. -/
theorem QuerySpec.answers (hp : QuerySpec i sp) (htaken : ∀ t c s, Ready sp c s → cond c s → cond c (taken t s))
    (hlen : ∀ c q, cond c q → (body c q).length ≤ 1008)
    (hrun : ∀ r c q, cond c q → ∃ n, sp.run r c q = ok (body c q) { q with free := n, emit := q.emit ++ puts c q }) : Answers i sp cond body puts :=
  answers_of hp.row hp.unstaged hp.after (fun _ c _ _ => hp.units c _ _) hp.dies fun t c s h hc => by
    have hc' := htaken t c s h hc
    obtain ⟨n, hr⟩ := hrun (recOf sp c s) c (taken t s) hc'
    exact ⟨hlen c _ hc', n, _, List.subset_append_right _ _, hr⟩

/-- A query whose run is its answer alone. -/
theorem QuerySpec.answers_only (hp : QuerySpec i sp) (hlen : ∀ c q, (body c q).length ≤ 1008) (hrun : ∀ r c q, sp.run r c q = ok (body c q) q) :
    Answers i sp (fun _ _ => True) body (fun _ _ => []) :=
  hp.answers (fun _ _ _ _ h => h) (fun c q _ => hlen c q) fun r c q _ => ⟨q.free, by rw [hrun, List.append_nil]⟩

end

theorem slotStatus_length (slot : Nat) (s : State) : (slotStatus slot s).1.length ≤ 1008 := by simp [slotStatus]

theorem slotStatus_state (slot : Nat) (s : State) : ∃ n, (slotStatus slot s).2 = { s with free := n } := by
  by_cases hon : (vget s.links.pocxp slot).state = .on
  · exact ⟨s.free + 1, by simp [slotStatus, hon, freshValue]⟩
  · exact ⟨s.free, by simp [slotStatus, hon]⟩

theorem linkStatus_answers :
    Answers .linkStatus specLinkStatus (fun _ _ => True)
      (fun c s => if c.unit < 24 then (slotStatus c.unit s).1 else connectorStatus (c.unit - 24) s) (fun _ _ => []) := by
  refine QuerySpec.answers {} (fun _ _ _ _ h => h) (fun c q _ => ?_) fun r c q _ => ?_
  · split
    · exact slotStatus_length _ _
    · simp [connectorStatus]
  · by_cases hu : c.unit < 24
    · obtain ⟨n, hn⟩ := slotStatus_state c.unit q
      exact ⟨n, by simp [specLinkStatus, hu, hn]⟩
    · exact ⟨q.free, by simp [specLinkStatus, hu]⟩

theorem getReport_answers :
    Answers .getReport specGetReport (fun _ _ => True) (fun _ s => (freshBytes 64 s).1) (fun _ _ => []) :=
  QuerySpec.answers {} (fun _ _ _ _ h => h) (fun _ _ _ => by simp [freshBytes])
    fun _ _ q _ => ⟨q.free + 64, by simp [specGetReport, freshBytes]⟩

theorem benchStatusBody_length (s : State) : (benchStatusBody s).length ≤ 1008 := by
  have hctl (c : BenchCtl) : (ctlBlock s.bench.auto c).length = 32 := by simp [ctlBlock, ctlCounterBytes]
  have hpart (k : Nat) : (partBlock (cfgNow s) k).length = 8 := by
    simp only [partBlock]
    split
    · simp
    · split <;> simp
  have hports : ((List.range 16).flatMap fun p => le 4 (portCfg s p).target ++ le 4 (portCfg s p).deadline).length = 128 := by
    rw [flatMap_length (k := 8) (by simp), List.length_range]
  have hparts : ((List.range 19).flatMap (partBlock (cfgNow s))).length = 152 := by
    rw [flatMap_length (k := 8) fun k _ => hpart k, List.length_range]
  simp only [benchStatusBody, List.length_append, hctl, hports, hparts]
  decide

theorem captureBody_length (c : BenchCtl) : (captureBody c).length ≤ 1008 := by
  have hhead (e : ErrorCapture) : (captureHead true e).length = 24 := by simp [captureHead]
  have hcap (o : Option FreezeCapture) : (captureBytes o).length = 64 := by cases o <;> simp [captureBytes, hhead]
  simp [captureBody, hcap]

/-- Settles O15: each run is its answer, and every body fits the 16 slots of a reply. -/
theorem queriesOfState : Obligations.QueriesOfState :=
  ⟨QuerySpec.answers_only {} (fun _ _ => by simp) fun _ _ _ => rfl,
    QuerySpec.answers_only {} (fun _ _ => by simp [infoBody]) fun _ _ _ => rfl,
    QuerySpec.answers_only {} (fun _ _ => by simp [statusBody]) fun _ _ _ => rfl,
    QuerySpec.answers_only {} (fun _ _ => by simp [stageBody]) fun _ _ _ => rfl,
    getReport_answers,
    linkStatus_answers,
    QuerySpec.answers_only {} (fun _ _ => by simp [segStatusBytes]) fun _ _ _ => rfl,
    QuerySpec.answers_only {} (fun _ _ => benchStatusBody_length _) fun _ _ _ => rfl,
    QuerySpec.answers_only {} (fun _ _ => captureBody_length _) fun _ _ _ => rfl,
    QuerySpec.answers_only {} (fun _ _ => by simp [gaugeBody]) fun _ _ _ => rfl,
    QuerySpec.answers_only {} (fun _ _ => by simp [axisStatusBytes]) fun _ _ _ => rfl,
    QuerySpec.answers_only {} (fun _ _ => by simp [timeBody, clockBody, timeCounters])
      fun _ _ _ => rfl,
    QuerySpec.answers_only {} (fun _ _ => by simp [pairStatusBody]) fun _ _ _ => rfl,
    QuerySpec.answers_only {} (fun _ _ => by simp [paceBody]) fun _ _ _ => rfl⟩

/-! ### Tables, logs and counters -/

/-- What a query writes to host memory is added to its outputs. -/
theorem bulkOut_emits (ref : BulkRef) (data : Bytes) (q : State) : bulkOut ref data q = { q with emit := q.emit ++ bulkEmits ref data } := by
  unfold bulkOut bulkEmits
  split
  · rw [List.append_nil]
  · rfl

/-- A transfer that does not fail. -/
theorem withBulk_clean (ref : BulkRef) (q : State) (go : State → Verdict) : withBulk 0 ref q go = go q := if_pos (.inr rfl)

theorem firstBad_eq_none (l : List (Nat × Bool)) : firstBad l = none ↔ ∀ x ∈ l, x.2 = true := by
  induction l with
  | nil => simp [firstBad]
  | cons x l ih =>
    obtain ⟨off, good⟩ := x
    cases good <;> simp [firstBad, ih]

/-- A list of checks holds when its first does and the others do. -/
theorem firstBad_cons {off : Nat} {good : Bool} {l : List (Nat × Bool)} (h : good = true) (hl : firstBad l = none) : firstBad ((off, good) :: l) = none := by
  rw [firstBad, if_pos h, hl]

/-- Parameters in range. -/
theorem checked_good {bad : Option Nat} {q : State} {go : Unit → Verdict} (h : bad = none) : checked bad q go = go () := by
  rw [h]
  rfl

section
variable {sp : CmdSpec} {c : HostCmd} {s : State}

theorem taken_unitCfg (t : Nat) (h : Ready sp c s) (u : LineUnit) : unitCfg (taken t s) u = unitCfg s u := by
  have hf := taken_frame t h.inv h.slot
  simp only [unitCfg, hf.glue, hf.running]

theorem taken_rtHolder (t : Nat) (h : Ready sp c s) (kind index : Nat) : rtHolder (taken t s) kind index = rtHolder s kind index := by
  have hf := taken_frame t h.inv h.slot
  simp only [rtHolder, runningClaims, taken_cfgNow t h, hf.marq, hf.claims]

end

theorem seamStatus_answers :
    Answers .seamStatus specSeamStatus (fun c s => seamInForce (unitCfg s .dovetail) c.unit = true)
      (fun c s => seamStatusBytes s (unitCfg s .dovetail) c.unit) (fun _ _ => []) :=
  QuerySpec.answers {} (fun t c s h hc => by rw [taken_unitCfg t h]; exact hc) (fun c q _ => by simp [seamStatusBytes, List.range_succ])
    fun r c q hc => ⟨q.free, by simp [specSeamStatus, hc]⟩

theorem queueStatus_spec : QuerySpec .queueStatus specQueueStatus := {}

theorem queueStatus_queue :
    Answers .queueStatus specQueueStatus (fun c _ => c.unit < 16) (fun c s => queueStatusBytes (vget s.scribe.queues c.unit)) (fun _ _ => []) :=
  queueStatus_spec.answers (fun _ _ _ _ h => h) (fun c q _ => by simp [queueStatusBytes]) fun r c q hc => ⟨q.free, by simp [specQueueStatus, hc]⟩

theorem queueStatus_station :
    Answers .queueStatus specQueueStatus (fun c _ => 16 ≤ c.unit ∧ (c.paramLen = 0 ∨ (firstBad (bulkHostOnly c.params 0) = none ∧ c.bulkFails = 0)))
      (fun c s => le 2 (vget s.scribe.stations (c.unit - 16)).pending.length ++ le 2 (marksAsked c s).length ++
        le 1 (if (stationCfg s (c.unit - 16)).enable then 1 else 0) ++ zeros 3)
      (fun c s => bulkEmits (parBulk c.params 0) ((marksAsked c s).flatMap markEntry)) := by
  refine queueStatus_spec.answers (fun _ _ _ _ h => h) (fun c q _ => by simp) fun r c q hc => ⟨q.free, ?_⟩
  obtain ⟨hu, href⟩ := hc
  have hq : ¬ c.unit < 16 := Nat.not_lt.2 hu
  by_cases hlen : c.paramLen = 0
  · simp [specQueueStatus, stationStatus, marksAsked, bulkEmits, hq, hlen]
  · obtain ⟨hgood, hfails⟩ := href.resolve_left hlen
    simp [specQueueStatus, stationStatus, marksAsked, checked, bulkOut_emits, withBulk_clean, hq, hlen, hgood, hfails]

theorem ringStatus_answers :
    Answers .ringStatus specRingStatus (fun c _ => c.paramLen = 0 ∨ (firstBad (bulkHostOnly c.params 0) = none ∧ c.bulkFails = 0))
      (fun c s => ringStatusBody s (if c.paramLen = 0 then 0 else ((knownModules s).take ((parBulk c.params 0).length / 16)).length))
      (fun c s => if c.paramLen = 0 then []
        else bulkEmits (parBulk c.params 0) (((knownModules s).take ((parBulk c.params 0).length / 16)).flatMap moduleBytes)) := by
  refine QuerySpec.answers {} (fun _ _ _ _ h => h) (fun c q _ => by simp [ringStatusBody]) fun r c q hc => ⟨q.free, ?_⟩
  by_cases hlen : c.paramLen = 0
  · simp [specRingStatus, hlen]
  · obtain ⟨hgood, hfails⟩ := hc.resolve_left hlen
    simp [specRingStatus, checked, bulkOut_emits, withBulk_clean, hlen, hgood, hfails]

theorem readTable_answers :
    Answers .readTable specReadTable (fun c _ => badReadTable c.params = none ∧ c.bulkFails = 0) (fun c s => le 4 (tableAsked c s).length)
      (fun c s => bulkEmits (parTable c.params).ref ((tableAsked c s).flatMap (le (tableEntryBytes (parTable c.params).kind)))) :=
  QuerySpec.answers {} (fun _ _ _ _ h => h) (fun c q _ => by simp) fun r c q hc =>
    ⟨q.free, by simp only [specReadTable, checked, hc.1, hc.2, withBulk_clean, bulkOut_emits]; rfl⟩

theorem jigResult_answers :
    Answers .jigResult specJigResult (fun c s => badJigResult c.params = none ∧ c.bulkFails = 0 ∧ (jigHeld c s).isSome = true)
      (fun c s => jigFigureBytes ((jigHeld c s).getD default).figures ++
        le 4 (((jigHeld c s).getD default).cands.take ((parBulk c.params 4).length / 4)).length)
      (fun c s => bulkEmits (parBulk c.params 4) ((((jigHeld c s).getD default).cands.take ((parBulk c.params 4).length / 4)).flatMap candBytes)) := by
  refine QuerySpec.answers {} (fun t c s h hc => ?_) (fun c q _ => by simp [jigFigureBytes]) fun r c q hc => ⟨q.free, ?_⟩
  · have hheld : jigHeld c (taken t s) = jigHeld c s := by simp only [jigHeld, (taken_frame t h.inv h.slot).plane]
    rw [hheld]
    exact hc
  · obtain ⟨hgood, hfails, hsome⟩ := hc
    obtain ⟨held, hheld⟩ := Option.isSome_iff_exists.1 hsome
    have hfind := hheld
    unfold jigHeld at hfind
    simp [specJigResult, checked, hgood, hfails, hfind, hheld, withBulk_clean, bulkOut_emits]

theorem readFaultLog_answers :
    Answers .readFaultLog specReadFaultLog (fun c _ => u8 c.params 2 < 2 ∧ firstBad (bulkHostOnly c.params 4) = none ∧ c.bulkFails = 0)
      (fun c s => le 4 (logAsked c s).length ++ le 2 (entryNumber (logAsked c s).head?) ++ le 2 (entryNumber (logAsked c s).getLast?) ++
        le 4 ((entriesFrom (u16 c.params 0) (logAsked c s)).take ((parBulk c.params 4).length / 64)).length)
      (fun c s => bulkEmits (parBulk c.params 4) (((entriesFrom (u16 c.params 0) (logAsked c s)).take ((parBulk c.params 4).length / 64)).flatMap faultBytes)) := by
  refine QuerySpec.answers {} (fun _ _ _ _ h => h) (fun c q _ => by simp) fun r c q hc => ⟨q.free, ?_⟩
  obtain ⟨hlog, hgood, hfails⟩ := hc
  have hrange : inRange 0 1 (u8 c.params 2) = true := by
    simp only [inRange, Bool.and_eq_true, decide_eq_true_eq]
    omega
  simp only [specReadFaultLog, checked, firstBad_cons hrange hgood, hfails, withBulk_clean, bulkOut_emits]
  rfl

/-! ### Profiles -/

theorem profileRead_spec : QuerySpec .profileRead specProfileRead := {}

theorem zoneEntry_length (z : ZoneState) : (zoneEntry z).length = 8 := by
  simp only [zoneEntry, List.length_append, le_length, zeros_length]

theorem fieldInRange {f : Nat} (h : f < 4) : inRange 0 3 f = true := by
  simp only [inRange, Bool.and_eq_true, decide_eq_true_eq]
  omega

theorem profileRead_slot :
    Answers .profileRead specProfileRead
      (fun c s => c.unit < 24 ∧ u8 c.params 0 < 4 ∧ bitOf (vget (unitCfg s (.profile c.unit)).grit c.unit).fields (u8 c.params 0) = true)
      (fun c s => le 4 (vget s.prof.slots c.unit).blockEnd ++ le 1 (vget (unitCfg s (.profile c.unit)).zone c.unit).zones ++
        le 1 (vget (unitCfg s (.profile c.unit)).grit c.unit).grit ++ zeros 2 ++
        (List.range 64).flatMap fun z => zoneEntry (((vget s.prof.slots c.unit).zones.find? fun x => decide (x.key = shimKey (u8 c.params 0) z)).getD {}))
      (fun _ _ => []) := by
  refine profileRead_spec.answers (fun t c s h hc => by rw [taken_unitCfg t h]; exact hc) (fun c q _ => ?_) fun r c q hc => ⟨q.free, ?_⟩
  · simp only [List.length_append, le_length, zeros_length, flatMap_length fun _ _ => zoneEntry_length _, List.length_range]
    decide
  · obtain ⟨hu, hf, hon⟩ := hc
    have hslot : c.unit ≠ 24 := by omega
    simp [specProfileRead, readSlotProfile, checked, hslot, firstBad_cons (fieldInRange hf) (l := []) rfl, hon]

theorem profileRead_background :
    Answers .profileRead specProfileRead
      (fun c s => c.unit = 24 ∧ u8 c.params 0 < 4 ∧ firstBad (bulkHostOnly c.params 4) = none ∧ c.bulkFails = 0 ∧
        bitOf (unitCfg s .background).bg.fields (u8 c.params 0) = true ∧ (vget s.prof.bg (u8 c.params 0)).rows ≠ [])
      (fun c s => le 4 (rowAsked c s).line ++ le 4 ((rowAsked c s).entries.take ((parBulk c.params 4).length / 4)).length)
      (fun c s => bulkEmits (parBulk c.params 4)
        (((rowAsked c s).entries.take ((parBulk c.params 4).length / 4)).flatMap fun v => le 4 (v.getD 0xFFFFFFFF))) := by
  refine profileRead_spec.answers (fun t c s h hc => ?_) (fun c q _ => by simp) fun r c q hc => ⟨q.free, ?_⟩
  · rw [taken_unitCfg t h, (taken_frame t h.inv h.slot).prof]
    exact hc
  · obtain ⟨hu, hf, hgood, hfails, hon, hrows⟩ := hc
    have hrow := List.getLast?_eq_some_getLast hrows
    simp [specProfileRead, readBackground, checked, hu, firstBad_cons (fieldInRange hf) hgood, hon, hrow, hfails, withBulk_clean, bulkOut_emits, rowAsked]

/-! ### Counters -/

theorem readCounters_spec : QuerySpec .readCounters specReadCounters := {}

theorem counterBlocks_length (s : State) (g first size n : Nat) :
    ((List.range n).flatMap fun i => padTo size (counterBytes s g (first + i))).length = n * size := by
  rw [flatMap_length fun _ _ => padTo_length _ _, List.length_range]

theorem readCounters_reply :
    Answers .readCounters specReadCounters
      (fun c _ => c.paramLen = 4 ∧ (counterGroup (u8 c.params 0)).isSome = true ∧ u8 c.params 1 < (blockShape c).2)
      (fun c s => le 1 (u8 c.params 0) ++ le 1 (u8 c.params 1) ++ le 1 (blocksGiven c) ++ zeros 1 ++ le 2 (blockShape c).1 ++ zeros 2 ++
        (List.range (blocksGiven c)).flatMap fun i => padTo (blockShape c).1 (counterBytes s (u8 c.params 0) (u8 c.params 1 + i)))
      (fun _ _ => []) := by
  refine readCounters_spec.answers (fun _ _ _ _ h => h) (fun c q _ => ?_) fun r c q hc => ⟨q.free, ?_⟩
  · have hfit : blocksGiven c * (blockShape c).1 ≤ 1000 :=
      le_trans (Nat.mul_le_mul_right _ (Nat.min_le_right _ _)) (Nat.div_mul_le_self _ _)
    simp only [List.length_append, le_length, zeros_length, counterBlocks_length]
    omega
  · obtain ⟨hlen, hgroup, hfirst⟩ := hc
    have hbulk : decide (c.paramLen = 20) = false := decide_eq_false (by omega)
    simp only [specReadCounters, hbulk, Bool.false_eq_true, if_false, List.append_nil]
    exact checked_good (firstBad_cons hgroup (firstBad_cons (decide_eq_true hfirst) rfl))

theorem readCounters_bulk :
    Answers .readCounters specReadCounters
      (fun c _ => c.paramLen = 20 ∧ c.bulkFails = 0 ∧ (counterGroup (u8 c.params 0)).isSome = true ∧ u8 c.params 1 < (blockShape c).2 ∧
        firstBad (bulkHostOnly c.params 4) = none ∧ blocksAsked c * (blockShape c).1 ≤ (parBulk c.params 4).length)
      (fun c _ => le 1 (u8 c.params 0) ++ le 1 (u8 c.params 1) ++ le 1 (blocksAsked c) ++ zeros 1 ++ le 2 (blockShape c).1 ++ zeros 2)
      (fun c s => bulkEmits (parBulk c.params 4)
        ((List.range (blocksAsked c)).flatMap fun i => padTo (blockShape c).1 (counterBytes s (u8 c.params 0) (u8 c.params 1 + i)))) := by
  refine readCounters_spec.answers (fun _ _ _ _ h => h) (fun c q _ => by simp) fun r c q hc => ⟨q.free, ?_⟩
  obtain ⟨hlen, hfails, hgroup, hfirst, hgood, hroom⟩ := hc
  have hgood' : firstBad (bulkHostOnly c.params 4 ++ [(16, decide (blocksAsked c * (blockShape c).1 ≤ (parBulk c.params 4).length))]) = none := by
    rw [firstBad_eq_none] at hgood ⊢
    simpa [hroom] using hgood
  have hbulk : decide (c.paramLen = 20) = true := decide_eq_true hlen
  simp only [specReadCounters, hbulk, if_true, hfails, withBulk_clean, bulkOut_emits]
  exact checked_good (firstBad_cons hgroup (firstBad_cons (decide_eq_true hfirst) hgood'))

/-! ### Stream contexts -/

theorem contextDies_lt (off : Nat) (s : State) (c : HostCmd) : ∀ k ∈ contextDies off s c, k < 2 := by
  intro k hk
  unfold contextDies at hk
  simp only at hk
  split at hk
  · rw [List.mem_singleton.1 hk]
    exact stackOf_lt _
  · cases hk

theorem contextSave_answers :
    Answers .contextSave contextSaveSpec (fun c s => badContext c s = none ∧ slotHolder s (u16 c.params 0) = none ∧ c.bulkFails = 0)
      (fun _ _ => []) (fun c s => bulkEmits (parBulk c.params 4) (benchRead s (contextOff s (u16 c.params 0)) contextBytes)) := by
  refine QuerySpec.answers { dies := fun c s => contextDies_lt 0 s c } (fun t c s h hc => ?_) (fun _ _ _ => Nat.zero_le _) fun r c q hc => ⟨q.free, ?_⟩
  · have hslots : contextSlots (taken t s) = contextSlots s := by simp only [contextSlots, taken_cfgNow t h]
    rw [badContext, hslots, slotHolder, taken_rtHolder t h]
    exact hc
  · obtain ⟨hgood, hfree, hfails⟩ := hc
    simp only [contextSaveSpec, checked, hgood, hfree, hfails, withBulk_clean, bulkOut_emits]

/-- Settles O16: each run is its answer, with what its bulk reference asks for put out. -/
theorem queriesOfTablesAndLogs : Obligations.QueriesOfTablesAndLogs :=
  ⟨seamStatus_answers, queueStatus_queue, ringStatus_answers, profileRead_slot, readTable_answers, jigResult_answers, readFaultLog_answers,
    readCounters_reply, queueStatus_station, profileRead_background, readCounters_bulk, contextSave_answers⟩

end Sys2Proof.Machine

/-! ## DRYFIT, ABANDON and RESET_UNIT (R80, R98, R112, R113, R116, R124, R128, R764, Tables 2-5 and 18-8) -/

namespace Sys2Proof.Machine

/-! ### Shared rules of commands that start, or are refused -/

theorem OutFrame.keepsReply {a b : State} (h : OutFrame a b) : KeepsReply a b := ⟨h.ledger, h.cmds, h.rings, h.ring, h.hf_fabric⟩

theorem KeepsReply.trans {a b d : State} (h : KeepsReply a b) (h' : KeepsReply b d) : KeepsReply a d :=
  ⟨h'.ledger.trans h.ledger, h'.cmds.trans h.cmds, h'.rings.trans h.rings, h'.ring.trans h.ring, h'.fabric.trans h.fabric⟩

/-- A command that is accepted and leaves the Bench alone. -/
theorem starts_quiet {i : Nat → HostCmd → Instr} {sp : CmdSpec} {cond : HostCmd → State → Prop} {new : Nat → HostCmd → State → State}
    (hi : ∀ t c s, exec (i t c) s = execCmd sp t c s) (ha : sp.after = id) (hu : ∀ c s q, sp.unitOk q c = sp.unitOk s c)
    (hd : ∀ c s, ∀ k ∈ sp.dies s c, k < 2)
    (hrun : ∀ t c s, Ready sp c s → cond c s → ∃ q, sp.run (recOf sp c s) c (taken t s) = accepted [] q ∧ KeepsReply (taken t s) q ∧
      q.bench = (taken t s).bench ∧ q.pending = (taken t s).pending ∧ ReplyFrame (new t c s) q) : Starts i sp cond new := by
  refine starts_of hi ha (fun _ _ _ => hu _ _ _) hd fun t c s h hc => ?_
  obtain ⟨q, hr, hk, hb, hp, hn⟩ := hrun t c s h hc
  have hf := taken_frame t h.inv h.slot
  have hb' := hb.trans hf.bench
  refine ⟨q, hr, hk, ?_⟩
  rw [committed_quiet h.inv hb', ← hb', ← hp.trans hf.pending]
  exact hn

theorem Ready.arrives {sp : CmdSpec} {c : HostCmd} {s : State} (h : Ready sp c s) : Arrives c s :=
  ⟨h.inv, h.fabric, h.slot, h.gen, h.ring, h.enabled, h.first, h.room, h.here, h.lengths⟩

/-- A command whose run turns a packet away, whatever would follow its reply. -/
theorem refuses_run {i : Nat → HostCmd → Instr} {sp : CmdSpec} {cond : HostCmd → State → Prop} {status : Nat} {body : HostCmd → State → Bytes}
    (hi : ∀ t c s, exec (i t c) s = execCmd sp t c s) (hst : 0x8000 ≤ status) (hu : ∀ c s q, sp.unitOk q c = sp.unitOk s c)
    (hd : ∀ c s, ∀ k ∈ sp.dies s c, k < 2) (hlen : ∀ c s, (body c s).length ≤ 1008)
    (hrun : ∀ r t c s, Ready sp c s → cond c s → sp.run r c (taken t s) = fail status (body c (taken t s)) (taken t s)) : Refuses i sp cond status body := by
  intro t c s h hc
  have hr := hrun (recOf sp c s) t c s h hc
  have hj := judge_ready h (hu c s _) (hd c (taken t s)) (recOf sp c s) (by rw [hr]; rintro rfl; exact absurd hst (by decide))
  obtain ⟨r, h1, h2, h3⟩ := h.arrives.turnedAway (hj.trans hr) hst (hlen c _)
  exact ⟨r, (hi t c s).trans h1, h2, h3⟩

theorem taken_reply (t : Nat) {sp : CmdSpec} {c : HostCmd} {s : State} (h : Ready sp c s) : ReplyFrame s (taken t s) :=
  (taken_frame t h.inv h.slot).reply

/-! ### DRYFIT -/

theorem ReplyFrame.withDryfitRun {a b : State} (h : ReplyFrame a b) (d : Option DryfitRun) : ReplyFrame { a with dryfitRun := d } { b with dryfitRun := d } := by
  unfold ReplyFrame at *
  rw [h]

theorem dryfit_starts :
    Starts .dryfit specDryfit (fun c s => badDryfit c.params = none ∧ s.glue = none ∧ s.dryfitRun = none)
      (fun t c s => { s with dryfitRun := some {
        ticket := nextTicket s, ref := parBulk c.params 0, gen := s.stageGen, fit := (dryReport (taken t s) (parBulk c.params 0).length).2
        report := (dryReport (taken t s) (parBulk c.params 0).length).1 } }) := by
  refine starts_quiet (fun _ _ _ => rfl) rfl (fun _ _ _ => rfl) (fun _ _ => nofun) fun t c s h hc => ?_
  obtain ⟨hgood, hglue, hidle⟩ := hc
  have hf := taken_frame t h.inv h.slot
  refine ⟨{ taken t s with dryfitRun := some { ticket := nextTicket s, ref := parBulk c.params 0, gen := s.stageGen, fit := _, report := _ } }, ?_,
    ⟨rfl, rfl, rfl, rfl, rfl⟩, rfl, rfl, hf.reply.withDryfitRun _⟩
  simp only [specDryfit, checked_good hgood, hf.glue, hglue, hf.dryfitRun, hidle, hf.stageGen, Option.isSome_none, Bool.false_eq_true, if_false]
  rfl

theorem dryfit_refuses :
    Refuses .dryfit specDryfit (fun c s => badDryfit c.params = none ∧ s.glue.isSome = true) stBusy (fun _ _ => [2, 0, 0, 0, 0, 0, 0, 0]) := by
  refine refuses_run (fun _ _ _ => rfl) (by decide) (fun _ _ _ => rfl) (fun _ _ => nofun) (fun _ _ => by decide) fun r t c s h hc => ?_
  obtain ⟨hgood, hglue⟩ := hc
  simp only [specDryfit, checked_good hgood, (taken_frame t h.inv h.slot).glue, hglue, if_true]
  rfl

theorem finishDryfit_clean {d : DryfitRun} {q : State} (hrun : q.dryfitRun = some d) :
    finishDryfit 0 q = complete d.ticket stOk (d.report.take 48)
      { bulkFor d.ticket d.ref d.report { q with dryfitRun := none } with dryfit := some { gen := d.gen, fit := d.fit } } := by
  unfold finishDryfit
  rw [hrun]
  rfl

theorem finishDryfit_fails {fails : Nat} {d : DryfitRun} {q : State} (hrun : q.dryfitRun = some d) (hfails : 2 ≤ fails) :
    finishDryfit fails q = complete d.ticket stHostError (zeros 8) { q with dryfitRun := none } := by
  unfold finishDryfit
  rw [hrun]
  exact if_pos hfails

/-- A command of this module's own host writes its bulk data. -/
theorem bulkFor_heard {w : Nat} {ref : BulkRef} {data : Bytes} {q : State} (hheard : (cmdOf q w).any (·.silent) = false) (hd : data ≠ []) :
    bulkFor w ref data q = out (.hostWrite ref.addr data false) q := by
  simp only [bulkFor, bulkOut, hheard, hd, Bool.false_eq_true, if_false]

/-- The end of a dry-fit while the fabric runs. -/
theorem exec_dryfitDone (t fails : Nat) (s : State) : exec (.dryfitDone t fails) s = runAt t s (onFabric [] (finishDryfit fails)) := rfl

/-- A dry-fit whose report has been written. -/
def dryfitReported (d : DryfitRun) (q : State) : State :=
  { out (.hostWrite d.ref.addr d.report false) { q with dryfitRun := none } with dryfit := some { gen := d.gen, fit := d.fit } }

theorem dryfitDone_fits (d : DryfitRun) (hd : d.report ≠ []) :
    Concludes (.dryfitDone · 0) (fun s => up s ∧ s.dryfitRun = some d ∧ (cmdOf s d.ticket).any (·.silent) = false) (fun _ => d.ticket) (fun _ => stOk)
      (fun s => { s with dryfitRun := none, dryfit := some { gen := d.gen, fit := d.fit } }) [] (fun _ => [.hostWrite d.ref.addr d.report false]) := by
  refine concludes_of (g := dryfitReported d) (body := fun _ => d.report.take 48) (fun t s => exec_dryfitDone t 0 s) fun q c _ _ hc _ => ?_
  obtain ⟨hup, hrun, hheard⟩ := hc
  refine ⟨?_, by decide, rfl, rfl, rfl, rfl, rfl, rfl, nofun, by simp [dryfitReported]⟩
  rw [onFabric_up (parts := []) _ hup (fun _ => nofun), finishDryfit_clean hrun, bulkFor_heard (q := { q with dryfitRun := none }) hheard hd]
  rfl

theorem dryfitDone_fails (fails : Nat) (d : DryfitRun) (hfails : 2 ≤ fails) :
    Concludes (.dryfitDone · fails) (fun s => up s ∧ s.dryfitRun = some d) (fun _ => d.ticket) (fun _ => stHostError)
      (fun s => { s with dryfitRun := none }) [] noPuts := by
  refine concludes_of (g := fun q => { q with dryfitRun := none }) (body := fun _ => zeros 8) (fun t s => exec_dryfitDone t fails s) fun q c _ _ hc _ => ?_
  obtain ⟨hup, hrun⟩ := hc
  refine ⟨?_, by decide, rfl, rfl, rfl, rfl, rfl, rfl, nofun, List.nil_subset _⟩
  rw [onFabric_up (parts := []) _ hup (fun _ => nofun), finishDryfit_fails hrun hfails]

/-! ### ABANDON -/

theorem ReplyFrame.abandonStaged {a b : State} (h : ReplyFrame a b) : ReplyFrame (abandonStaged a) (abandonStaged b) := by
  have hcfg : cfgNow b = cfgNow a := by simp only [cfgNow, h.glue, h.running]
  unfold Machine.abandonStaged
  rw [hcfg]
  unfold ReplyFrame at *
  rw [h]

theorem abandonStaged_noGlue {s : State} (hglue : s.glue = none) :
    abandonStaged s = { s with
      staged := s.running
      stageGen := wrap32 (s.stageGen + 1)
      marq := { s.marq with shadow := s.marq.active }
      dovetail := { s.dovetail with maps := s.dovetail.maps.map fun m => { m with shadow := m.active } }
      plane := { s.plane with slots := s.plane.slots.map fun x => { x with shadow := x.active } }
      gauge := { s.gauge with encStaged := [] }
      links := { s.links with linkStaged := [] } } := by
  simp only [abandonStaged, cfgNow, hglue]

theorem abandon_acts :
    Acts .abandon specAbandon (fun _ s => s.glue = none ∧ s.ring.prepared = none) (fun _ s => le 4 (wrap32 (s.stageGen + 1)))
      (fun _ _ s => { s with
        staged := s.running
        stageGen := wrap32 (s.stageGen + 1)
        marq := { s.marq with shadow := s.marq.active }
        dovetail := { s.dovetail with maps := s.dovetail.maps.map fun m => { m with shadow := m.active } }
        plane := { s.plane with slots := s.plane.slots.map fun x => { x with shadow := x.active } }
        gauge := { s.gauge with encStaged := [] }
        links := { s.links with linkStaged := [] } }) := by
  refine acts_unstaged (fun _ _ _ => rfl) rfl rfl (fun _ _ _ => rfl) (fun _ _ => nofun) fun t c s h hc => ⟨by simp, ?_⟩
  obtain ⟨hglue, hprepared⟩ := hc
  have hf := taken_frame t h.inv h.slot
  refine ⟨abandonStaged (taken t s), ?_, ⟨rfl, rfl, rfl, rfl, rfl⟩, rfl, rfl, ?_⟩
  · simp only [specAbandon, specAbandonHere, hf.glue, hglue, hf.ring, hprepared, Option.isSome_none, Bool.false_eq_true, if_false]
    rfl
  · have hkeep := (taken_reply t h).abandonStaged
    rwa [abandonStaged_noGlue hglue] at hkeep

theorem abandon_refuses : Refuses .abandon specAbandon (fun _ s => s.glue.isSome = true) stBusy (fun _ _ => [2, 0, 0, 0, 0, 0, 0, 0]) := by
  refine refuses_run (fun _ _ _ => rfl) (by decide) (fun _ _ _ => rfl) (fun _ _ => nofun) (fun _ _ => by decide) fun r t c s h hglue => ?_
  simp only [specAbandon, specAbandonHere, (taken_frame t h.inv h.slot).glue, hglue, if_true]
  rfl

/-! ### What follows the reply of RESET_UNIT -/

/-- A module that stands alone with no glue-up pending has nothing to settle. -/
theorem settle_alone {s : State} (h : alone s) : settle s = s := by
  obtain ⟨hglue, hsolo⟩ := h
  have hactive : isActive s = false := by simp [isActive, hsolo]
  have hunpaired : paired s = false := by simp [paired, isActive, isPassive, hsolo]
  have hdigest : pairDigest (settleGlue s) = s := by simp [settleGlue, hglue, pairDigest, hunpaired]
  rw [settle, hdigest]
  unfold sendSnapshot
  split
  · simp only [hactive, Bool.not_false, Bool.true_or, if_true]
  · rfl

/-- A command without what follows its reply. -/
def withoutAfter (sp : CmdSpec) : CmdSpec := { sp with after := id }

section
variable {sp : CmdSpec} {c : HostCmd} {s : State}

theorem Ready.withoutAfter (h : Ready sp c s) : Ready (withoutAfter sp) c s := by
  cases h
  constructor <;> assumption

theorem runHere_after (r : CmdRec) (hquiet : sp.after (runHere (withoutAfter sp) r c s) = runHere (withoutAfter sp) r c s) :
    runHere sp r c s = runHere (withoutAfter sp) r c s := by
  have hj : judge (withoutAfter sp) r c s = judge sp r c s := rfl
  by_cases hst : (judge sp r c s).status < 0x8000
  · have hafter : runHere sp r c s = sp.after (runHere (withoutAfter sp) r c s) := by
      simp only [runHere, hj, hst, if_true]
      rfl
    rw [hafter, hquiet]
  · simp only [runHere, hj, hst, if_false]
    rfl

end

/-- A command that settles what its reply may have left, in a module that stands alone with no glue-up pending, and answers ST_OK at once. -/
theorem acts_settling {i : Nat → HostCmd → Instr} {sp : CmdSpec} {cond : HostCmd → State → Prop} {body : HostCmd → State → Bytes}
    {new : Nat → HostCmd → State → State} (hi : ∀ t c s, exec (i t c) s = execCmd sp t c s) (hs : isStaged sp.opcode = false) (ha : sp.after = settle)
    (hu : ∀ c s q, sp.unitOk q c = sp.unitOk s c) (hd : ∀ c s, ∀ k ∈ sp.dies s c, k < 2)
    (hrun : ∀ t c s, Ready sp c s → cond c s → (body c (taken t s)).length ≤ 1008 ∧
      ∃ q, sp.run (recOf sp c s) c (taken t s) = ok (body c (taken t s)) q ∧ KeepsReply (taken t s) q ∧ q.bench = (taken t s).bench ∧
        q.pending = (taken t s).pending ∧ alone q ∧ ReplyFrame (new t c s) q) : Acts i sp cond body new := by
  intro t c s h hc
  obtain ⟨hl, q, hr, hk, hb, hp, ⟨hglue, hsolo⟩, hn⟩ := hrun t c s h hc
  have hf := taken_frame t h.inv h.slot
  have h' := h.withoutAfter
  obtain ⟨r, h1, h2, -, -, h3⟩ := execCmd_ok (t := t) h' (hu c s _) (hd c (taken t s)) hr hk rfl (hb.trans hf.bench) (hp.trans hf.pending) hl
  have hcommit : commit (tick t s) (runHere (withoutAfter sp) (recOf sp c s) c (taken t s)) = r := by
    have hboth := (execCmd_runs (t := t) h').symm.trans h1
    injection hboth
  have hquiet : settle (runHere (withoutAfter sp) (recOf sp c s) c (taken t s)) = runHere (withoutAfter sp) (recOf sp c s) c (taken t s) := by
    refine settle_alone ⟨?_, ?_⟩
    · show (commit (tick t s) _).glue = none
      rw [hcommit, h3.glue, hglue]
    · show (commit (tick t s) _).pair.role = .solo
      rw [hcommit, h3.pair_role, hsolo]
  refine ⟨r, ?_, h2, h3.after ?_⟩
  · rw [hi, execCmd_runs h, runHere_after _ (by rw [ha]; exact hquiet), hcommit]
  · have hop : isStaged (withoutAfter sp).opcode = false := hs
    rw [hop]
    exact hn

/-! ### RESET_UNIT -/

/-- RESET_UNIT's run where Table 18-8 lists the unit and allows its reset. -/
theorem resetUnit_run {r : CmdRec} {c : HostCmd} {q q' : State} {n : Nat} (hbelow : u16 c.params 2 < resetUnits (u8 c.params 0))
    (hfree : resetForbidden q (u8 c.params 0) (u16 c.params 2) = false) (heff : resetEffect (u8 c.params 0) (u16 c.params 2) q = (n, q')) :
    specResetUnit.run r c q = ok (le 4 n) q' := by
  have hlisted : resetUnits (u8 c.params 0) ≠ 0 := by omega
  simp only [specResetUnit, hlisted, Nat.not_le.2 hbelow, hfree, heff, Bool.false_eq_true, if_false]

theorem le_four_zero : le 4 0 = zeros 4 := rfl

/-- The Dovetail after its reset, its fence cleared. -/
def dovetailReset (s : State) : State := clearFence 5 0 (resetDovetail s)

section
variable (s : State)

theorem dovetailReset_keepsReply : KeepsReply s (dovetailReset s) := ⟨rfl, rfl, rfl, rfl, rfl⟩
theorem dovetailReset_bench : (dovetailReset s).bench = s.bench := rfl
theorem dovetailReset_pending : (dovetailReset s).pending = s.pending := rfl

end

theorem dovetailReset_alone {s : State} (h : alone s) : alone (dovetailReset s) := h

theorem ReplyFrame.dovetailReset {a b : State} (h : ReplyFrame a b) : ReplyFrame (dovetailReset a) (dovetailReset b) := by
  unfold ReplyFrame Machine.dovetailReset Machine.clearFence Machine.resetDovetail at *
  rw [h]

theorem resetDovetail_acts :
    Acts .resetUnit specResetUnit
      (fun c s => u8 c.params 0 = 5 ∧ u16 c.params 2 = 0 ∧ s.gauge.trigEnabled = false ∧ s.glue = none ∧ s.pair.role = .solo) (fun _ _ => zeros 4)
      (fun _ _ s => { s with
        dovetail := { s.dovetail with imports := [], importMissing := [], acc := .replicate 25 {} }
        faults := { s.faults with fences := s.faults.fences.filter fun f => !(decide (f.unit = 5) && decide (f.index = 0)) } }) := by
  refine acts_settling (fun _ _ _ => rfl) rfl rfl (fun _ _ _ => rfl) (fun _ _ => nofun) fun t c s h hc => ⟨by simp, ?_⟩
  obtain ⟨hunit, hindex, htrig, hglue, hsolo⟩ := hc
  have hf := taken_frame t h.inv h.slot
  refine ⟨dovetailReset (taken t s), ?_, dovetailReset_keepsReply _, dovetailReset_bench _, dovetailReset_pending _,
    dovetailReset_alone ⟨hf.glue.trans hglue, hf.pair_role.trans hsolo⟩, (taken_reply t h).dovetailReset⟩
  have hfree : (taken t s).gauge.trigEnabled = false := (congrArg Gauge.trigEnabled hf.gauge).trans htrig
  rw [← le_four_zero]
  exact resetUnit_run (by rw [hunit, hindex]; decide) (by rw [hunit]; exact hfree) (by rw [hunit, hindex]; rfl)

/-- A queue whose head has been filled anew, and its fence cleared. -/
def queueReset (i : Nat) (s : State) : State := clearFence 7 i (setQueue i (fun x => { x with head := min 32 (unread x) }) s)

section
variable (i : Nat) (s : State)

theorem queueReset_keepsReply : KeepsReply s (queueReset i s) := ⟨rfl, rfl, rfl, rfl, rfl⟩
theorem queueReset_bench : (queueReset i s).bench = s.bench := rfl
theorem queueReset_pending : (queueReset i s).pending = s.pending := rfl

end

theorem queueReset_alone (i : Nat) {s : State} (h : alone s) : alone (queueReset i s) := h

theorem ReplyFrame.queueReset {a b : State} (h : ReplyFrame a b) (i : Nat) : ReplyFrame (queueReset i a) (queueReset i b) := by
  unfold ReplyFrame Machine.queueReset Machine.clearFence Machine.setQueue at *
  rw [h]

theorem resetQueue_acts :
    Acts .resetUnit specResetUnit
      (fun c s => u8 c.params 0 = 7 ∧ u16 c.params 2 < 16 ∧ (vget s.scribe.queues (u16 c.params 2)).on = true ∧ s.glue = none ∧ s.pair.role = .solo)
      (fun _ _ => zeros 4)
      (fun _ c s => { setQueue (u16 c.params 2) (fun x => { x with head := min 32 (unread x) }) s with
        faults := { s.faults with fences := s.faults.fences.filter fun f => !(decide (f.unit = 7) && decide (f.index = u16 c.params 2)) } }) := by
  refine acts_settling (fun _ _ _ => rfl) rfl rfl (fun _ _ _ => rfl) (fun _ _ => nofun) fun t c s h hc => ⟨by simp, ?_⟩
  obtain ⟨hunit, hindex, hon, hglue, hsolo⟩ := hc
  have hf := taken_frame t h.inv h.slot
  refine ⟨queueReset (u16 c.params 2) (taken t s), ?_, queueReset_keepsReply _ _, queueReset_bench _ _, queueReset_pending _ _,
    queueReset_alone _ ⟨hf.glue.trans hglue, hf.pair_role.trans hsolo⟩, (taken_reply t h).queueReset _⟩
  have hopen : (vget (taken t s).scribe.queues (u16 c.params 2)).on = true := by rw [hf.scribe]; exact hon
  rw [← le_four_zero]
  exact resetUnit_run (by rw [hunit]; exact hindex) (by rw [hunit]; simp only [resetForbidden, hopen, Bool.not_true]) (by rw [hunit]; rfl)

/-- RESET_UNIT answers an error where Table 18-8 does not list the unit, or forbids its reset. -/
theorem resetUnit_refuses {cond : HostCmd → State → Prop} {status : Nat} (hst : 0x8000 ≤ status)
    (hrun : ∀ r t c s, Ready specResetUnit c s → cond c s → specResetUnit.run r c (taken t s) = fail status (zeros 8) (taken t s)) :
    Refuses .resetUnit specResetUnit cond status (fun _ _ => zeros 8) :=
  refuses_run (fun _ _ _ => rfl) hst (fun _ _ _ => rfl) (fun _ _ => nofun) (fun _ _ => by simp) hrun

/-- Settles O21: the dry-fit's two ends, ABANDON's banks, and the rows of Table 18-8 named. -/
theorem dryFitAbandonAndReset : Obligations.DryFitAbandonAndReset := by
  refine ⟨dryfit_starts, dryfit_refuses, dryfitDone_fits, dryfitDone_fails, abandon_acts, abandon_refuses, resetDovetail_acts, resetQueue_acts,
    resetUnit_refuses (by decide) fun r t c s h hc => ?_, resetUnit_refuses (by decide) fun r t c s h hc => ?_,
    resetUnit_refuses (by decide) fun r t c s h hc => ?_⟩
  · obtain ⟨hunit, hindex, htrig⟩ := hc
    have hbusy : (taken t s).gauge.trigEnabled = true := (congrArg Gauge.trigEnabled (taken_gauge t h)).trans htrig
    rcases hunit with hunit | hunit <;> simp [specResetUnit, hunit, hindex, resetUnits, resetForbidden, hbusy, wrongState]
  · obtain ⟨hunit, hindex, hstate⟩ := hc
    have hstate' : (vget (taken t s).bench.ctl (u16 c.params 2)).state ≠ .frozen := by
      rw [(taken_frame t h.inv h.slot).bench]
      exact hstate
    have hbelow : ¬ 2 ≤ u16 c.params 2 := Nat.not_le.2 hindex
    simp [specResetUnit, hunit, hbelow, resetUnits, resetForbidden, hstate', wrongState]
  · simp [specResetUnit, hc, badParam, paramBody, zeros, le]

end Sys2Proof.Machine

/-! ## Link commands (R82, R109, R193, R199, R213, R214, R226 to R228, Table 4-4) -/

namespace Sys2Proof.Machine

/-! ### A slot's search -/

/-- The lanes after one change to each of a list. -/
def lanesAfter (ls : List Nat) (f : Lane → Lane) (v : Vector Lane 96) : Vector Lane 96 := ls.foldl (fun v l => vmod v l f) v

theorem setLanes_eq (ls : List Nat) (f : Lane → Lane) (s : State) :
    setLanes ls f s = { s with links := { s.links with lanes := lanesAfter ls f s.links.lanes } } := by
  induction ls generalizing s with
  | nil => rfl
  | cons l ls ih => exact ih (setLane l f s)

theorem setSlotLink_eq_self {i : Nat} {f : SlotLink → SlotLink} {s : State} (h : f (vget s.links.slots i) = vget s.links.slots i) :
    setSlotLink i f s = s := by
  unfold setSlotLink
  rw [vmod_eq_self h]

theorem setSlotLink_congr {i : Nat} {f g : SlotLink → SlotLink} {s : State} (h : f (vget s.links.slots i) = g (vget s.links.slots i)) :
    setSlotLink i f s = setSlotLink i g s := by
  unfold setSlotLink vmod
  rw [h]

theorem setSlotLink_setSlotLink (i : Nat) (f g : SlotLink → SlotLink) (s : State) :
    setSlotLink i f (setSlotLink i g s) = setSlotLink i (fun x => f (g x)) s := by
  unfold setSlotLink
  rw [vmod_vmod]

/-- A slot without a control transaction has no bring-up to drop. -/
theorem dropBringup_idle {slot : Nat} {s : State} (h : (vget s.links.slots slot).ctrl = []) : dropBringup slot s = s := by
  have hsame : setSlotLink slot (fun x => { x with ctrl := (vget s.links.slots slot).ctrl.filter isCamTxn }) s = s :=
    setSlotLink_eq_self (by rw [h, List.filter_nil, ← h])
  unfold dropBringup
  simp only [hsame]
  rw [h]
  rfl

/-- A slot that is not up goes to SEARCH with no more than an event. -/
theorem setConn_search {slot : Nat} {s : State} (h : connUp s slot = false) :
    OutFrame (setSlotLink slot (fun x => { x with state := .search, cause := .none, since := s.now }) s) (setConn slot .search .none s) := by
  unfold connUp at h
  unfold setConn
  simp only [h, Bool.false_and, Bool.false_eq_true, if_false]
  have hdown : (decide (ConnState.search = .active) || decide (ConnState.search = .degraded) || decide (ConnState.search = .error)) = false := rfl
  simp only [hdown, Bool.false_eq_true, if_false]
  split
  · exact OutFrame.refl _
  · exact raise_frame _ _ _ _

theorem startSearch_idle {slot : Nat} {s : State} (hctrl : (vget s.links.slots slot).ctrl = []) (hdown : connUp s slot = false) (hslot : slot < 24) :
    OutFrame (searching slot s) (startSearch slot true s) := by
  unfold startSearch
  simp only [dropBringup_idle hctrl, setLanes_eq, if_true]
  refine (setConn_search ?_).after ?_
  · simpa [connUp, setSlotLink, hslot] using hdown
  · unfold searching
    rw [setLanes_eq]
    unfold setSlotLink OutFrame
    simp only [vmod_vmod]

theorem ReplyFrame.searching {a b : State} (h : ReplyFrame a b) (hnow : b.now = a.now) (slot : Nat) : ReplyFrame (searching slot a) (searching slot b) := by
  have hlinks : slotLinks b slot = slotLinks a slot := by simp only [slotLinks, linkNow, h.glue, h.running]
  unfold Machine.searching
  rw [hlinks, hnow, setLanes_eq, setLanes_eq]
  unfold ReplyFrame setSlotLink at *
  rw [h]

theorem ReplyFrame.setSlotLink {a b : State} (h : ReplyFrame a b) (slot : Nat) (f : SlotLink → SlotLink) :
    ReplyFrame (setSlotLink slot f a) (setSlotLink slot f b) := by
  unfold ReplyFrame Machine.setSlotLink at *
  rw [h]

/-! ### Control transactions -/

theorem startTxn_head {slot : Nat} {x : CtrlTxn} {s : State} (h : (vget s.links.slots slot).ctrl.head? = some x) :
    OutFrame (setSlotLink slot (fun y => { y with ctrlDeadline := s.now + 200000000, ctrlLatest := s.now + 10000000000 }) s) (startTxn slot s) := by
  unfold startTxn
  rw [h]
  simp only
  split
  · exact OutFrame.refl _
  · exact out_frame _ _

theorem queueTxns_cam {slot : Nat} {x : CtrlTxn} {s : State} (hx : isCamTxn x = true) (hslot : slot < 24) :
    OutFrame (txnQueued slot x s.now s) (queueTxns slot [x] s) := by
  unfold queueTxns txnQueued
  rcases hctrl : (vget s.links.slots slot).ctrl with _ | ⟨y, rest⟩
  · simp only
    refine (startTxn_head (x := x) (by simp [setSlotLink, hslot])).after ?_
    rw [setSlotLink_setSlotLink]
    exact Eq.subst (motive := fun q => OutFrame q _) (setSlotLink_congr (by simp [hctrl])) (OutFrame.refl _)
  · simp only [List.all_cons, List.all_nil, hx, Bool.and_true, if_true]
    exact Eq.subst (motive := fun q => OutFrame q _) (setSlotLink_congr (by simp [hctrl])) (OutFrame.refl _)

theorem ReplyFrame.txnQueued {a b : State} (h : ReplyFrame a b) (slot : Nat) (x : CtrlTxn) (now : Nat) :
    ReplyFrame (txnQueued slot x now a) (txnQueued slot x now b) := h.setSlotLink slot _

section
variable {sp : CmdSpec} {c : HostCmd} {s : State}

/-! ### What the taking of the packet leaves of the links -/

theorem taken_links (t : Nat) (h : Ready sp c s) : (taken t s).links = s.links := (taken_frame t h.inv h.slot).links

theorem taken_linkNow (t : Nat) (h : Ready sp c s) (slot : Nat) : linkNow (taken t s) slot = linkNow s slot := by
  have hf := taken_frame t h.inv h.slot
  simp only [linkNow, hf.glue, hf.running]

theorem taken_connUp (t : Nat) (h : Ready sp c s) (slot : Nat) : connUp (taken t s) slot = connUp s slot := by
  simp only [connUp, taken_links t h]

theorem taken_camAllowed (t : Nat) (h : Ready sp c s) (slot : Nat) : camAllowed (taken t s) slot = camAllowed s slot := by
  simp only [camAllowed, taken_connUp t h, taken_links t h]

theorem taken_slotOfLink (t : Nat) (h : Ready sp c s) (lane : Nat) : slotOfLink (taken t s) lane = slotOfLink s lane := by
  have hnow : linkNow (taken t s) = linkNow s := funext (taken_linkNow t h)
  have hlinks : slotLinks (taken t s) = slotLinks s := funext fun slot => by rw [slotLinks, slotLinks, hnow]
  unfold slotOfLink
  rw [hnow, hlinks]

theorem taken_lanesSlotUp (t : Nat) (h : Ready sp c s) (lane : Nat) : lanesSlotUp (taken t s) lane = lanesSlotUp s lane := by
  unfold lanesSlotUp
  rw [taken_slotOfLink t h]
  cases slotOfLink s lane with
  | none => rfl
  | some slot => simp only [taken_connUp t h]

theorem taken_laneTest (t : Nat) (h : Ready sp c s) (lane : Nat) : laneTest (taken t s) lane = laneTest s lane := by
  simp only [laneTest, taken_links t h]

/-- The state with the taking's time, of which the taken state is a frame. -/
theorem taken_timed (t : Nat) (h : Ready sp c s) : ReplyFrame { s with now := max s.now t } (taken t s) := by
  have hf := taken_reply t h
  unfold ReplyFrame at *
  rw [hf]

end

/-! ### LINK_DISCOVER -/

/-- A slot whose search answers a ticket. -/
def discovering (slot w : Nat) (s : State) : State := setSlotLink slot (fun x => { x with discover := some (w, s.now) }) s

section
variable (slot w : Nat) (s : State)

theorem searching_keepsReply : KeepsReply s (searching slot s) := by
  unfold searching
  rw [setLanes_eq]
  exact ⟨rfl, rfl, rfl, rfl, rfl⟩

theorem searching_bench : (searching slot s).bench = s.bench := by
  unfold searching
  rw [setLanes_eq]
  rfl

theorem searching_pending : (searching slot s).pending = s.pending := by
  unfold searching
  rw [setLanes_eq]
  rfl

theorem discovering_keepsReply : KeepsReply s (discovering slot w s) := ⟨rfl, rfl, rfl, rfl, rfl⟩
theorem discovering_bench : (discovering slot w s).bench = s.bench := rfl
theorem discovering_pending : (discovering slot w s).pending = s.pending := rfl
theorem discovering_now : (discovering slot w s).now = s.now := rfl

end

theorem discovering_idle {slot w : Nat} {s : State} (hslot : slot < 24) (hctrl : (vget s.links.slots slot).ctrl = []) (hdown : connUp s slot = false) :
    (vget (discovering slot w s).links.slots slot).ctrl = [] ∧ connUp (discovering slot w s) slot = false := by
  unfold connUp at *
  simpa [discovering, setSlotLink, hslot, hctrl] using hdown

theorem linkDiscover_run {r : CmdRec} {c : HostCmd} {q : State} (henabled : (vget (linkNow q c.unit).link c.unit).enable = true)
    (htest : (vget q.links.slots c.unit).state ≠ .linkTest) (hidle : (vget q.links.slots c.unit).discover = none) :
    specLinkDiscover.run r c q = accepted [] (startSearch c.unit true (discovering c.unit r.ticket q)) := by
  simp only [specLinkDiscover, henabled, htest, decide_false, Bool.not_true, Bool.or_self, Bool.false_eq_true, if_false, hidle]
  rfl

theorem linkDiscover_starts :
    Starts .linkDiscover specLinkDiscover
      (fun c s => (vget (linkNow s c.unit).link c.unit).enable = true ∧ (vget s.links.slots c.unit).state ≠ .linkTest ∧
        connUp s c.unit = false ∧ (vget s.links.slots c.unit).discover = none ∧ (vget s.links.slots c.unit).ctrl = [])
      (fun t c s => searching c.unit (setSlotLink c.unit (fun x => { x with discover := some (nextTicket s, max s.now t) }) { s with now := max s.now t })) := by
  refine starts_quiet (fun _ _ _ => rfl) rfl (fun _ _ _ => rfl) (fun _ _ => nofun) fun t c s h hc => ?_
  obtain ⟨henabled, htest, hdown, hidle, hctrl⟩ := hc
  have hslot : c.unit < 24 := of_decide_eq_true h.unit
  rw [← taken_linkNow t h] at henabled
  rw [← taken_connUp t h] at hdown
  rw [← taken_links t h] at htest hidle hctrl
  obtain ⟨hctrl', hdown'⟩ := discovering_idle (w := nextTicket s) hslot hctrl hdown
  have hframe := startSearch_idle hctrl' hdown' hslot
  refine ⟨_, linkDiscover_run henabled htest hidle,
    ((discovering_keepsReply _ _ _).trans (searching_keepsReply _ _)).trans hframe.keepsReply,
    (hframe.bench.trans (searching_bench _ _)).trans (discovering_bench _ _ _),
    (hframe.pending.trans (searching_pending _ _)).trans (discovering_pending _ _ _), hframe.reply.after ?_⟩
  refine ReplyFrame.searching ?_ ((discovering_now _ _ _).trans (taken_now t h)) _
  unfold discovering
  rw [taken_now t h]
  exact (taken_timed t h).setSlotLink _ _

theorem linkDiscover_refuses :
    Refuses .linkDiscover specLinkDiscover
      (fun c s => (vget (linkNow s c.unit).link c.unit).enable = false ∨ (vget s.links.slots c.unit).state = .linkTest) stWrongState (fun _ _ => zeros 8) := by
  refine refuses_run (fun _ _ _ => rfl) (by decide) (fun _ _ _ => rfl) (fun _ _ => nofun) (fun _ _ => by simp) fun r t c s h hc => ?_
  rw [← taken_linkNow t h, ← taken_links t h] at hc
  have hforbidden : (!(vget (linkNow (taken t s) c.unit).link c.unit).enable || decide ((vget (taken t s).links.slots c.unit).state = .linkTest)) = true := by
    rcases hc with hoff | htest
    · rw [hoff]
      rfl
    · simp [htest]
  simp only [specLinkDiscover, hforbidden, if_true, wrongState]

/-! ### CAM_READ and CAM_WRITE -/

section
variable (slot : Nat) (x : CtrlTxn) (now : Nat) (s : State)

theorem txnQueued_keepsReply : KeepsReply s (txnQueued slot x now s) := ⟨rfl, rfl, rfl, rfl, rfl⟩
theorem txnQueued_bench : (txnQueued slot x now s).bench = s.bench := rfl
theorem txnQueued_pending : (txnQueued slot x now s).pending = s.pending := rfl

end

/-- A camera's transaction, once the packet has been taken. -/
theorem queueTxns_taken {sp : CmdSpec} {c : HostCmd} {s : State} (t : Nat) (h : Ready sp c s) {slot : Nat} {x : CtrlTxn} (hx : isCamTxn x = true)
    (hslot : slot < 24) :
    KeepsReply (taken t s) (queueTxns slot [x] (taken t s)) ∧ (queueTxns slot [x] (taken t s)).bench = (taken t s).bench ∧
      (queueTxns slot [x] (taken t s)).pending = (taken t s).pending ∧
      ReplyFrame (txnQueued slot x (max s.now t) s) (queueTxns slot [x] (taken t s)) := by
  have hframe := queueTxns_cam (s := taken t s) hx hslot
  refine ⟨(txnQueued_keepsReply _ _ _ _).trans hframe.keepsReply, hframe.bench.trans (txnQueued_bench _ _ _ _),
    hframe.pending.trans (txnQueued_pending _ _ _ _), hframe.reply.after ?_⟩
  rw [taken_now t h]
  exact (taken_reply t h).txnQueued _ _ _

theorem camRead_waits :
    Waits .camRead specCamRead (fun c s => badCamRead c.params = none ∧ camAllowed s c.unit = true)
      (fun t c s => txnQueued c.unit (.camRead (nextTicket s) (u32 c.params 0) (u16 c.params 4)) (max s.now t) s) := by
  refine waits_quiet (fun _ _ _ => rfl) rfl (fun _ _ _ => rfl) (fun _ _ => nofun) fun t c s h hc => ?_
  obtain ⟨hgood, hallowed⟩ := hc
  refine ⟨_, ?_, queueTxns_taken t h rfl (of_decide_eq_true h.unit)⟩
  simp only [specCamRead, checked_good hgood, taken_camAllowed t h, hallowed, Bool.not_true, Bool.false_eq_true, if_false]
  rfl

theorem camRead_refuses :
    Refuses .camRead specCamRead (fun c s => badCamRead c.params = none ∧ camAllowed s c.unit = false) stWrongState (fun _ _ => zeros 8) := by
  refine refuses_run (fun _ _ _ => rfl) (by decide) (fun _ _ _ => rfl) (fun _ _ => nofun) (fun _ _ => by simp) fun r t c s h hc => ?_
  obtain ⟨hgood, hforbidden⟩ := hc
  simp only [specCamRead, checked_good hgood, taken_camAllowed t h, hforbidden, Bool.not_false, if_true, wrongState]

theorem camWrite_waits :
    Waits .camWrite specCamWrite (fun c s => badCamWrite c.params c.paramLen = none ∧ camAllowed s c.unit = true)
      (fun t c s => txnQueued c.unit (.camWrite (nextTicket s) (u32 c.params 0) (slice c.params 8 (u16 c.params 4)) 0) (max s.now t) s) := by
  refine waits_quiet (fun _ _ _ => rfl) rfl (fun _ _ _ => rfl) (fun _ _ => nofun) fun t c s h hc => ?_
  obtain ⟨hgood, hallowed⟩ := hc
  refine ⟨_, ?_, queueTxns_taken t h rfl (of_decide_eq_true h.unit)⟩
  simp only [specCamWrite, checked_good hgood, taken_camAllowed t h, hallowed, Bool.not_true, Bool.false_eq_true, if_false]
  rfl

theorem camWrite_refuses :
    Refuses .camWrite specCamWrite (fun c s => badCamWrite c.params c.paramLen = none ∧ camAllowed s c.unit = false) stWrongState (fun _ _ => zeros 8) := by
  refine refuses_run (fun _ _ _ => rfl) (by decide) (fun _ _ _ => rfl) (fun _ _ => nofun) (fun _ _ => by simp) fun r t c s h hc => ?_
  obtain ⟨hgood, hforbidden⟩ := hc
  simp only [specCamWrite, checked_good hgood, taken_camAllowed t h, hforbidden, Bool.not_false, if_true, wrongState]

/-! ### PRBS_TEST and EYE_SCAN -/

theorem ReplyFrame.withPrbs {a b : State} (h : ReplyFrame a b) (run : PrbsRun) :
    ReplyFrame { a with links := { a.links with prbs := a.links.prbs ++ [run] } } { b with links := { b.links with prbs := b.links.prbs ++ [run] } } := by
  unfold ReplyFrame at *
  rw [h]

theorem ReplyFrame.withEye {a b : State} (h : ReplyFrame a b) (run : EyeRun) :
    ReplyFrame { a with links := { a.links with eye := a.links.eye ++ [run] } } { b with links := { b.links with eye := b.links.eye ++ [run] } } := by
  unfold ReplyFrame at *
  rw [h]

theorem ReplyFrame.holdRt {a b : State} (h : ReplyFrame a b) (kind index opcode unit : Nat) :
    ReplyFrame (holdRt kind index opcode unit a) (holdRt kind index opcode unit b) := by
  unfold ReplyFrame Machine.holdRt at *
  rw [h]

section
variable {r : CmdRec} {c : HostCmd} {q : State}

/-- PRBS_TEST's run on a camera's lane that is free. -/
theorem prbsTest_run_camera (hgood : badPrbs c.unit c.params = none) (hcamera : c.unit < 48) (hfree : rtHolder q 0x0E c.unit = none)
    (hdown : lanesSlotUp q c.unit = none) (run : PrbsRun) (hrun : run = { lane := c.unit, par := parPrbs c.params, ticket := r.ticket }) :
    specPrbsTest.run r c q = accepted [] (holdRt 0x0E c.unit 0x0307 c.unit { q with links := { q.links with prbs := q.links.prbs ++ [run] } }) := by
  subst hrun
  simp only [specPrbsTest, checked_good hgood, hcamera, if_true, hfree, hdown]
  rfl

/-- PRBS_TEST's run on a TH lane whose connector is set for it. -/
theorem prbsTest_run_through (hgood : badPrbs c.unit c.params = none) (hthrough : ¬ c.unit < 48) (hidle : laneTest q c.unit = none)
    (hmode : if (parPrbs c.params).generate then (vget (cfgNow q).through (laneConn c.unit)).outMode = 2
      else (vget (cfgNow q).through (laneConn c.unit)).inMode = 0)
    (run : PrbsRun) (hrun : run = { lane := c.unit, par := parPrbs c.params, ticket := r.ticket }) :
    specPrbsTest.run r c q = accepted [] { q with links := { q.links with prbs := q.links.prbs ++ [run] } } := by
  subst hrun
  have hset : ¬ (if (parPrbs c.params).generate then decide ((vget (cfgNow q).through (laneConn c.unit)).outMode ≠ 2)
      else decide ((vget (cfgNow q).through (laneConn c.unit)).inMode ≠ 0)) = true := by
    split at hmode <;> simp [*]
  simp only [specPrbsTest, checked_good hgood, hthrough, if_false, hset, hidle, Bool.false_eq_true]

end

theorem prbsTest_camera :
    Starts .prbsTest specPrbsTest
      (fun c s => badPrbs c.unit c.params = none ∧ c.unit < 48 ∧ rtHolder s 0x0E c.unit = none ∧ lanesSlotUp s c.unit = none)
      (fun _ c s => holdRt 0x0E c.unit 0x0307 c.unit
        { s with links := { s.links with prbs := s.links.prbs ++ [{ lane := c.unit, par := parPrbs c.params, ticket := nextTicket s }] } }) := by
  refine starts_quiet (fun _ _ _ => rfl) rfl (fun _ _ _ => rfl) (fun _ _ => nofun) fun t c s h hc => ?_
  obtain ⟨hgood, hcamera, hfree, hdown⟩ := hc
  exact ⟨_, prbsTest_run_camera hgood hcamera ((taken_rtHolder t h _ _).trans hfree) ((taken_lanesSlotUp t h _).trans hdown) _ rfl,
    ⟨rfl, rfl, rfl, rfl, rfl⟩, rfl, rfl, ((taken_reply t h).withPrbs _).holdRt _ _ _ _⟩

theorem prbsTest_through :
    Starts .prbsTest specPrbsTest
      (fun c s => badPrbs c.unit c.params = none ∧ 48 ≤ c.unit ∧ laneTest s c.unit = none ∧
        (if (parPrbs c.params).generate then (vget (cfgNow s).through (laneConn c.unit)).outMode = 2
          else (vget (cfgNow s).through (laneConn c.unit)).inMode = 0))
      (fun _ c s => { s with links := { s.links with prbs := s.links.prbs ++ [{ lane := c.unit, par := parPrbs c.params, ticket := nextTicket s }] } }) := by
  refine starts_quiet (fun _ _ _ => rfl) rfl (fun _ _ _ => rfl) (fun _ _ => nofun) fun t c s h hc => ?_
  obtain ⟨hgood, hthrough, hidle, hmode⟩ := hc
  rw [← taken_cfgNow t h] at hmode
  exact ⟨_, prbsTest_run_through hgood (Nat.not_lt.2 hthrough) ((taken_laneTest t h _).trans hidle) hmode _ rfl,
    ⟨rfl, rfl, rfl, rfl, rfl⟩, rfl, rfl, (taken_reply t h).withPrbs _⟩

theorem prbsTest_refuses :
    Refuses .prbsTest specPrbsTest
      (fun c s => badPrbs c.unit c.params = none ∧ c.unit < 48 ∧ rtHolder s 0x0E c.unit = none ∧ (lanesSlotUp s c.unit).isSome = true ∧
        (parPrbs c.params).force = false) stWrongState (fun _ _ => zeros 8) := by
  refine refuses_run (fun _ _ _ => rfl) (by decide) (fun _ _ _ => rfl) (fun _ _ => nofun) (fun _ _ => by simp) fun r t c s h hc => ?_
  obtain ⟨hgood, hcamera, hfree, hup, hforce⟩ := hc
  obtain ⟨slot, hslot⟩ := Option.isSome_iff_exists.1 hup
  simp only [specPrbsTest, checked_good hgood, hcamera, if_true, taken_rtHolder t h, hfree, taken_lanesSlotUp t h, hslot, hforce, Bool.not_false, wrongState]

/-- EYE_SCAN's run on a camera's lane that is free, and whose slot, when it is up, keeps its stream. -/
theorem eyeScan_run_camera {r : CmdRec} {c : HostCmd} {q : State} (hgood : badEyeScan c.params = none) (hcamera : c.unit < 48)
    (hfree : rtHolder q 0x0E c.unit = none) (hkeeps : lanesSlotUp q c.unit = none ∨ u8 c.params 0 ≠ 2) (run : EyeRun)
    (hrun : run = { lane := c.unit, mode := u8 c.params 0, force := bitOf (u8 c.params 1) 0, ref := parBulk c.params 4, ticket := r.ticket }) :
    specEyeScan.run r c q = accepted [] (holdRt 0x0E c.unit 0x0308 c.unit { q with links := { q.links with eye := q.links.eye ++ [run] } }) := by
  subst hrun
  simp only [specEyeScan, checked_good hgood, hcamera, if_true, hfree]
  rcases hup : lanesSlotUp q c.unit with _ | slot
  · rfl
  · have hmode : u8 c.params 0 ≠ 2 := hkeeps.resolve_left (by simp [hup])
    simp only [hmode, if_false]
    rfl

theorem eyeScan_run_through {r : CmdRec} {c : HostCmd} {q : State} (hgood : badEyeScan c.params = none) (hthrough : ¬ c.unit < 48)
    (hidle : laneTest q c.unit = none) (run : EyeRun)
    (hrun : run = { lane := c.unit, mode := u8 c.params 0, force := bitOf (u8 c.params 1) 0, ref := parBulk c.params 4, ticket := r.ticket }) :
    specEyeScan.run r c q = accepted [] { q with links := { q.links with eye := q.links.eye ++ [run] } } := by
  subst hrun
  simp only [specEyeScan, checked_good hgood, hthrough, if_false, hidle]

theorem eyeScan_starts :
    Starts .eyeScan specEyeScan
      (fun c s => badEyeScan c.params = none ∧ (c.unit < 48 → rtHolder s 0x0E c.unit = none ∧ (lanesSlotUp s c.unit = none ∨ u8 c.params 0 ≠ 2)) ∧
        (48 ≤ c.unit → laneTest s c.unit = none))
      (fun _ c s =>
        let run : EyeRun := { lane := c.unit, mode := u8 c.params 0, force := bitOf (u8 c.params 1) 0, ref := parBulk c.params 4, ticket := nextTicket s }
        let s' := { s with links := { s.links with eye := s.links.eye ++ [run] } }
        if c.unit < 48 then holdRt 0x0E c.unit 0x0308 c.unit s' else s') := by
  refine starts_quiet (fun _ _ _ => rfl) rfl (fun _ _ _ => rfl) (fun _ _ => nofun) fun t c s h hc => ?_
  obtain ⟨hgood, hcamera, hthrough⟩ := hc
  have heye := (taken_reply t h).withEye
    { lane := c.unit, mode := u8 c.params 0, force := bitOf (u8 c.params 1) 0, ref := parBulk c.params 4, ticket := nextTicket s }
  by_cases hu : c.unit < 48
  · obtain ⟨hfree, hkeeps⟩ := hcamera hu
    refine ⟨_, eyeScan_run_camera hgood hu ((taken_rtHolder t h _ _).trans hfree) (by rwa [taken_lanesSlotUp t h]) _ rfl,
      ⟨rfl, rfl, rfl, rfl, rfl⟩, rfl, rfl, ?_⟩
    simp only [hu, if_true]
    exact heye.holdRt _ _ _ _
  · refine ⟨_, eyeScan_run_through hgood hu ((taken_laneTest t h _).trans (hthrough (Nat.not_lt.1 hu))) _ rfl, ⟨rfl, rfl, rfl, rfl, rfl⟩, rfl, rfl, ?_⟩
    simp only [hu, if_false]
    exact heye

/-- Settles O22: each run begins its operation on the state in which the packet was taken. -/
theorem linkCommandsBegin : Obligations.LinkCommandsBegin :=
  ⟨linkDiscover_starts, linkDiscover_refuses, camRead_waits, camRead_refuses, camWrite_waits, camWrite_refuses, prbsTest_camera, prbsTest_through,
    prbsTest_refuses, eyeScan_starts⟩

end Sys2Proof.Machine

/-! ## Command rings: their registers, and the packets taken from them (R62, R63, R66, R67, R71, R81, R89, R583, R586) -/

namespace Sys2Proof.Machine

/-! ### One ring of the table -/

theorem setRing_eq_self {n : Nat} {f : RingPair → RingPair} {s : State} (h : f (vget s.host.rings n) = vget s.host.rings n) : setRing n f s = s := by
  unfold setRing
  rw [vmod_eq_self h]

/-- A ring whose reply order is empty has nothing to post. -/
theorem flushRing_idle {n : Nat} {s : State} (h : (vget s.host.rings n).posts = []) : flushRing n s = s := by
  have hsame : setRing n (fun p => { p with posts := [] }) s = s := setRing_eq_self (by rw [← h])
  simp only [flushRing, h, drainPosts, hsame, ite_self]

/-! ### Registers -/

theorem wrap32_of_lt {v : Nat} (h : v < 2 ^ 32) : wrap32 v = v := Nat.mod_eq_of_lt h

theorem ringSizeOk_lt {v : Nat} (h : ringSizeOk v = true) : v < 2 ^ 32 := by
  simp only [ringSizeOk, inRange, Bool.or_eq_true, Bool.and_eq_true, decide_eq_true_eq] at h
  omega

section
variable {i : Nat → Instr} {g : Nat → Nat → State → State} {n v : Nat} {cond : State → Prop} {new : State → State}

/-- The three registers of a ring pair are written by their rules, with BAR0's word. -/
def pairWrite (g : Nat → Nat → State → State) (n v : Nat) : State → State := bar0Write fun s => if 4 ≤ n then s else g n (wrap32 v) s

theorem pairWrite_up {q : State} (hup : up q) (hn : n < 4) : pairWrite g n v q = g n (wrap32 v) q := by
  simp only [pairWrite, bar0Write, up_bar0Up hup, if_true, Nat.not_le.2 hn, if_false]

theorem pairWrite_wedged (hi : ∀ t s, exec (i t) s = runAt t s (pairWrite g n v)) : Exactly i (fun s => ¬ up s) wedgedAccess := by
  refine exactly_of hi fun q _ hup => ⟨?_, rfl, rfl, rfl, rfl, rfl⟩
  simp only [pairWrite, bar0Write, not_up_bar0Up hup, Bool.false_eq_true, if_false]
  rfl

theorem pairWrite_exactly (hi : ∀ t s, exec (i t) s = runAt t s (pairWrite g n v)) (hn : n < 4) (hset : ∀ q, Settled q (new q))
    (h : ∀ q, cond q → up q ∧ g n (wrap32 v) q = new q) : Exactly i cond new := by
  refine exactly_of hi fun q _ hc => ?_
  obtain ⟨hup, hg⟩ := h q hc
  exact ⟨(pairWrite_up hup hn).trans hg, hset q⟩

theorem pairWrite_happens {evs : List Nat} (hi : ∀ t s, exec (i t) s = runAt t s (pairWrite g n v)) (hn : n < 4)
    (hset : ∀ q, (new q).bench = q.bench ∧ (new q).pending = q.pending)
    (h : ∀ q, cond q → up q ∧ OutFrame (new q) (g n (wrap32 v) q) ∧ ∀ e ∈ evs, bitOf (g n (wrap32 v) q).host.evt.pending e = true) :
    Happens i cond new evs noPuts := by
  refine happens_of hi fun q _ _ hc => ?_
  obtain ⟨hup, hframe, hev⟩ := h q hc
  rw [pairWrite_up hup hn]
  exact ⟨hframe, (hset q).1, (hset q).2, hev, List.nil_subset _⟩

end

theorem setRing_settled (n : Nat) (f : RingPair → RingPair) (q : State) : Settled q (setRing n f q) := ⟨rfl, rfl, rfl, rfl, rfl⟩

section
variable {n v : Nat} {s : State}

/-! ### CMDn_SIZE -/

theorem cmdSizeWrite_bad (hv : ringSizeOk v = false) : cmdSizeWrite n v s = cfgErr n s := by
  simp only [cmdSizeWrite, hv, Bool.not_false, if_true]

theorem cmdSizeWrite_refused (hv : v ≠ 0) (hok : ringSizeOk v = true) (h : (vget s.host.rings n).enabled = true ∨ (vget s.host.rings n).rplSize = 0) :
    cmdSizeWrite n v s = cfgErr n s := by
  simp only [cmdSizeWrite, hok, hv, Bool.not_true, Bool.false_eq_true, if_false]
  by_cases he : (vget s.host.rings n).enabled = true
  · simp only [he, if_true]
  · simp only [he, h.resolve_left he, if_true, Bool.false_eq_true, if_false]

theorem cmdSizeWrite_disables (he : (vget s.host.rings n).enabled = true) :
    cmdSizeWrite n 0 s = setRing n (fun p => { p with enabled := false, cmdSize := 0, stopped := false, ticketWait := none }) s := by
  have hok : ringSizeOk 0 = true := rfl
  simp only [cmdSizeWrite, hok, he, Bool.not_true, Bool.false_eq_true, if_false, if_true]

/-- A pair of rings at their start. -/
def ringStarted (v : Nat) (p : RingPair) : RingPair :=
  { p with enabled := true, stopped := false, cmdSize := v, cmdProd := 0, cmdCons := 0, rplProd := 0, rplCons := 0, unread := 0, phase := true, ticketWait := none }

theorem cmdSizeWrite_enables (hn : n < 4) (hv : v ≠ 0) (hok : ringSizeOk v = true) (he : (vget s.host.rings n).enabled = false)
    (hsize : (vget s.host.rings n).rplSize ≠ 0) (hposts : (vget s.host.rings n).posts = []) : cmdSizeWrite n v s = setRing n (ringStarted v) s := by
  simp only [cmdSizeWrite, hok, he, hv, hsize, Bool.not_true, Bool.false_eq_true, if_false]
  exact flushRing_idle (by simp [setRing, hn, hposts])

/-! ### The doorbell -/

theorem cmdProdWrite_disabled (he : (vget s.host.rings n).enabled = false) : cmdProdWrite n v s = s := by
  simp only [cmdProdWrite, he, Bool.not_false, if_true]

theorem cmdProdWrite_moves (he : (vget s.host.rings n).enabled = true) (hv : v < (vget s.host.rings n).cmdSize) :
    cmdProdWrite n v s = setRing n (fun p => { p with cmdProd := v }) s := by
  simp only [cmdProdWrite, he, Nat.not_le.2 hv, Bool.not_true, Bool.false_eq_true, if_false]

theorem cmdProdWrite_stops (he : (vget s.host.rings n).enabled = true) (hv : (vget s.host.rings n).cmdSize ≤ v) : cmdProdWrite n v s = stopRing n s := by
  simp only [cmdProdWrite, he, hv, Bool.not_true, Bool.false_eq_true, if_false, if_true]

/-! ### RPLn_CONS -/

theorem rplConsWrite_bad (hv : (vget s.host.rings n).rplSize ≤ v) : rplConsWrite n v s = cfgErr n s := by
  simp only [rplConsWrite, hv, if_true]

theorem rplConsWrite_frees (hn : n < 4) (hv : v < (vget s.host.rings n).rplSize) (hposts : (vget s.host.rings n).posts = []) :
    rplConsWrite n v s = setRing n (fun p => { p with rplCons := v, unread := (p.rplProd + p.rplSize - v) % p.rplSize }) s := by
  simp only [rplConsWrite, Nat.not_le.2 hv, if_false]
  exact flushRing_idle (by simp [setRing, hn, hposts])

end

/-- A ring that stops raises its event. -/
theorem stopRing_raises (n : Nat) (s : State) (hup : up s) :
    OutFrame (setRing n (fun p => { p with stopped := true, ringErr := true }) s) (stopRing n s) ∧ bitOf (stopRing n s).host.evt.pending (0x014 + n) = true :=
  ⟨raise_frame _ _ _ _, raise_sets _ _ _ hup⟩

/-! ### The rules of the registers, as instructions -/

section
variable {n : Nat}

theorem cmdSizeWrite_happens (v : Nat) (hn : n < 4) (hv : v ≠ 0) (hok : ringSizeOk v = true) :
    Happens (.cmdSizeWrite · n v)
      (fun s => up s ∧ (vget s.host.rings n).enabled = false ∧ (vget s.host.rings n).rplSize ≠ 0 ∧ (vget s.host.rings n).posts = [])
      (setRing n (ringStarted v)) [] noPuts := by
  refine pairWrite_happens (g := cmdSizeWrite) (fun _ _ => rfl) hn (fun _ => ⟨rfl, rfl⟩) fun q hc => ?_
  obtain ⟨hup, he, hsize, hposts⟩ := hc
  rw [wrap32_of_lt (ringSizeOk_lt hok), cmdSizeWrite_enables hn hv hok he hsize hposts]
  exact ⟨hup, OutFrame.refl _, nofun⟩

theorem cmdSizeWrite_badSize (v : Nat) (hn : n < 4) (hv : v < 2 ^ 32) (hok : ringSizeOk v = false) :
    Exactly (.cmdSizeWrite · n v) up (setRing n fun p => { p with cfgErr := true }) :=
  pairWrite_exactly (g := cmdSizeWrite) (fun _ _ => rfl) hn (setRing_settled _ _) fun _ hup =>
    ⟨hup, cmdSizeWrite_bad (by rwa [wrap32_of_lt hv])⟩

theorem cmdSizeWrite_cfgErr (v : Nat) (hn : n < 4) (hv : v ≠ 0) (hok : ringSizeOk v = true) :
    Exactly (.cmdSizeWrite · n v) (fun s => up s ∧ ((vget s.host.rings n).enabled = true ∨ (vget s.host.rings n).rplSize = 0))
      (setRing n fun p => { p with cfgErr := true }) := by
  refine pairWrite_exactly (g := cmdSizeWrite) (fun _ _ => rfl) hn (setRing_settled _ _) fun q hc => ⟨hc.1, ?_⟩
  rw [wrap32_of_lt (ringSizeOk_lt hok)]
  exact cmdSizeWrite_refused hv hok hc.2

theorem cmdSizeWrite_zero (hn : n < 4) :
    Exactly (.cmdSizeWrite · n 0) (fun s => up s ∧ (vget s.host.rings n).enabled = true)
      (setRing n fun p => { p with enabled := false, cmdSize := 0, stopped := false, ticketWait := none }) :=
  pairWrite_exactly (g := cmdSizeWrite) (fun _ _ => rfl) hn (setRing_settled _ _) fun _ hc => ⟨hc.1, cmdSizeWrite_disables hc.2⟩

theorem cmdDoorbell_moves (v : Nat) (hn : n < 4) (hv : v < 2 ^ 32) :
    Exactly (.cmdDoorbell · n v) (fun s => up s ∧ (vget s.host.rings n).enabled = true ∧ v < (vget s.host.rings n).cmdSize)
      (setRing n fun p => { p with cmdProd := v }) := by
  refine pairWrite_exactly (g := cmdProdWrite) (fun _ _ => rfl) hn (setRing_settled _ _) fun q hc => ⟨hc.1, ?_⟩
  rw [wrap32_of_lt hv]
  exact cmdProdWrite_moves hc.2.1 hc.2.2

theorem cmdDoorbell_stops (v : Nat) (hn : n < 4) (hv : v < 2 ^ 32) :
    Happens (.cmdDoorbell · n v) (fun s => up s ∧ (vget s.host.rings n).enabled = true ∧ (vget s.host.rings n).cmdSize ≤ v)
      (setRing n fun p => { p with stopped := true, ringErr := true }) [0x014 + n] noPuts := by
  refine pairWrite_happens (g := cmdProdWrite) (fun _ _ => rfl) hn (fun _ => ⟨rfl, rfl⟩) fun q hc => ?_
  obtain ⟨hup, he, hsize⟩ := hc
  rw [wrap32_of_lt hv, cmdProdWrite_stops he hsize]
  exact ⟨hup, by simpa using stopRing_raises n q hup⟩

theorem cmdDoorbell_disabled (v : Nat) (hn : n < 4) : Exactly (.cmdDoorbell · n v) (fun s => up s ∧ (vget s.host.rings n).enabled = false) id :=
  pairWrite_exactly (g := cmdProdWrite) (fun _ _ => rfl) hn Settled.refl fun _ hc => ⟨hc.1, cmdProdWrite_disabled hc.2⟩

theorem rplConsWrite_happens (v : Nat) (hn : n < 4) (hv : v < 2 ^ 32) :
    Happens (.rplConsWrite · n v) (fun s => up s ∧ v < (vget s.host.rings n).rplSize ∧ (vget s.host.rings n).posts = [])
      (setRing n fun p => { p with rplCons := v, unread := (p.rplProd + p.rplSize - v) % p.rplSize }) [] noPuts := by
  refine pairWrite_happens (g := rplConsWrite) (fun _ _ => rfl) hn (fun _ => ⟨rfl, rfl⟩) fun q hc => ?_
  obtain ⟨hup, hsize, hposts⟩ := hc
  rw [wrap32_of_lt hv, rplConsWrite_frees hn hsize hposts]
  exact ⟨hup, OutFrame.refl _, nofun⟩

theorem rplConsWrite_cfgErr (v : Nat) (hn : n < 4) (hv : v < 2 ^ 32) :
    Exactly (.rplConsWrite · n v) (fun s => up s ∧ (vget s.host.rings n).rplSize ≤ v) (setRing n fun p => { p with cfgErr := true }) := by
  refine pairWrite_exactly (g := rplConsWrite) (fun _ _ => rfl) hn (setRing_settled _ _) fun q hc => ⟨hc.1, ?_⟩
  rw [wrap32_of_lt hv]
  exact rplConsWrite_bad hc.2

end

/-! ### What a reply leaves of the command's side of its ring -/

/-- `q` is the ring pair `p` but for its replies. -/
def ReplySide (p q : RingPair) : Prop := q = { p with rplProd := q.rplProd, phase := q.phase, unread := q.unread, posts := q.posts }

theorem ReplySide.refl (p : RingPair) : ReplySide p p := rfl

theorem ReplySide.trans {p q r : RingPair} (h : ReplySide p q) (h' : ReplySide q r) : ReplySide p r := by
  unfold ReplySide at *
  rw [h] at h'
  exact h'

theorem ReplySide.cmdCons {p q : RingPair} (h : ReplySide p q) : q.cmdCons = p.cmdCons := by rw [h]

theorem ReplySide.ticketWait {p q : RingPair} (h : ReplySide p q) : q.ticketWait = p.ticketWait := by rw [h]

theorem setRing_replySide {n : Nat} {f : RingPair → RingPair} (hf : ∀ p, ReplySide p (f p)) (hn : n < 4) (s : State) :
    ReplySide (vget s.host.rings n) (vget (setRing n f s).host.rings n) := by
  rw [setRing_rings, vget_vmod_self _ _ _ hn]
  exact hf _

theorem writeReply_replySide {n : Nat} (irq : Bool) (bytes : Bytes) (hn : n < 4) (s : State) :
    ReplySide (vget s.host.rings n) (vget (writeReply n irq bytes s).host.rings n) := by
  unfold writeReply
  simp only
  split <;> split
  · rw [raise_rings]
    exact setRing_replySide (fun _ => by rfl) hn s
  · rw [raise_rings]
    exact setRing_replySide (fun _ => by rfl) hn s
  · exact setRing_replySide (fun _ => by rfl) hn s
  · exact setRing_replySide (fun _ => by rfl) hn s

theorem drainPosts_replySide {n : Nat} (hn : n < 4) (l : List PostEntry) (hold : Nat) (s : State) :
    ReplySide (vget s.host.rings n) (vget (drainPosts n l hold s).2.host.rings n) := by
  induction l generalizing hold s with
  | nil => exact .refl _
  | cons e l ih =>
    cases e with
    | waiting w => exact ih _ _
    | ready w irq bytes =>
      unfold drainPosts
      simp only
      split
      · exact ih _ _
      · refine (writeReply_replySide irq bytes hn s).trans ?_
        rw [← reportTicket_rings w]
        exact ih _ _

theorem flushRing_replySide {n : Nat} (hn : n < 4) (s : State) : ReplySide (vget s.host.rings n) (vget (flushRing n s).host.rings n) := by
  unfold flushRing
  simp only
  split
  · exact .refl _
  · exact ((setRing_replySide (fun _ => by rfl) hn s).trans (drainPosts_replySide hn _ _ _)).trans (setRing_replySide (fun _ => by rfl) hn _)

theorem postReply_replySide {n : Nat} (w : Nat) (irq : Bool) (bytes : Bytes) (hn : n < 4) (s : State) :
    ReplySide (vget s.host.rings n) (vget (postReply n w irq bytes s).host.rings n) :=
  (setRing_replySide (fun _ => by rfl) hn s).trans (flushRing_replySide hn _)

/-- The final reply of a command of this module's own host. -/
theorem answer_replySide {r : CmdRec} {status : Nat} {body : Bytes} {q : State} (hv : r.via = none) (hs : r.silent = false) (hst : status ≠ stAccepted)
    (hr : r.ring < 4) : ReplySide (vget q.host.rings r.ring) (vget (answer r status body q).host.rings r.ring) := by
  have hring : (decideTicket r.ticket (ticketCode status) (dropCmd r.ticket q)).host.rings = q.host.rings := by rw [decide_rings, dropCmd_host]
  have hsend (x : State) (hx : x.host.rings = q.host.rings) :
      ReplySide (vget q.host.rings r.ring) (vget (sendReply r status 0 body x).host.rings r.ring) := by
    simp only [sendReply, hs, hv, Bool.false_eq_true, if_false]
    rw [← hx]
    exact postReply_replySide _ _ _ hr x
  unfold answer
  simp only [hst, if_false]
  refine hsend _ ?_
  split
  · exact hring
  · exact hring

/-! ### Whose turn it is -/

section
variable {s r : State}

theorem ledgerFull_eq (s : State) : ledgerFull s = decide (ledgerSlots ≤ nextSlot s) := by
  unfold ledgerFull issueTicket nextSlot
  simp only
  split <;> simp_all

theorem OutFrame.ringReady (h : OutFrame s r) (n : Nat) (k : RawPkt) : ringReady r n k = ringReady s n k := by
  unfold Machine.ringReady freeSlots reservedSlots barrierHolds allReplied
  rw [h.rings, h.cmds, h.ring]

theorem OutFrame.ledgerFull (h : OutFrame s r) : ledgerFull r = ledgerFull s := by
  rw [ledgerFull_eq, ledgerFull_eq, nextSlot, nextSlot, h.ledger]

theorem OutFrame.nextRing (h : OutFrame s r) : r.host.nextRing = s.host.nextRing := by
  unfold OutFrame at h
  rw [h]

theorem OutFrame.nextTaken (h : OutFrame s r) (pkts : List RawPkt) : nextTaken r pkts = nextTaken s pkts := by
  simp only [Machine.nextTaken, h.ringReady, h.ledgerFull, h.rings, h.nextRing]

end

/-- The turn passes to the next ring. -/
def turned (n : Nat) (s : State) : State := { s with host := { s.host with nextRing := (n + 1) % 4 } }

section
variable {n : Nat} {k : RawPkt} {pkts : List RawPkt} {s : State}

theorem nextTaken_ready (h : nextTaken s pkts = some n) : ringReady s n (pkts.getD n {}) = true := by
  have hfind := List.find?_some h
  simp only [Bool.and_eq_true] at hfind
  exact hfind.1

theorem takeTurn_none (h : nextTaken s pkts = none) : takeTurn pkts s = s := by
  unfold takeTurn
  rw [h]

theorem takeTurn_some (h : nextTaken s pkts = some n) : takeTurn pkts s = takeFront n (pkts.getD n {}) s := by
  unfold takeTurn
  rw [h]

theorem takeFront_unread (h : 2 ≤ k.readFails) : takeFront n k s = stopRing n (turned n s) := by
  simp only [takeFront, h, if_true]
  rfl

theorem takeFront_full (hk : k.readFails = 0) (hfull : ledgerFull s = true) :
    takeFront n k s = setRing n (fun p => { p with ticketWait := some (p.ticketWait.getD s.now) }) (turned n s) := by
  have hnone : issueTicket (turned n s) = none := by
    have h : ledgerFull (turned n s) = true := by rw [ledgerFull_eq] at hfull ⊢; exact hfull
    simpa only [ledgerFull, Option.isNone_iff_eq_none] using h
  unfold turned at hnone
  simp only [takeFront, hk, hnone, show ¬ 2 ≤ 0 from by decide, show ¬ (0 = 1) from by decide, if_false]
  rfl

end

/-- The record of the packet at the front of a ring. -/
def frontRec (n w : Nat) (k : RawPkt) : CmdRec :=
  { ticket := w, ring := n, tag := (parsePkt n k).tag, opcode := pktOpcode k, irq := (parsePkt n k).irq, barrier := (parsePkt n k).barrier }

/-- The state in which the packet of a ring's front runs. -/
def frontTaken (t n : Nat) (k : RawPkt) (s : State) : State := passPacket n k (taken t (turned n s))

theorem takeFront_runs {t n : Nat} {k : RawPkt} {s : State} (hk : k.readFails = 0) (hslot : nextSlot s < ledgerSlots) :
    takeFront n k (tick t s) = runPacket (frontRec n (nextTicket s) k) (parsePkt n k) (frontTaken t n k s) := by
  have hissue : issueTicket (turned n (tick t s)) = some (nextTicket s, taken t (turned n s)) := issue_taken t (s := turned n s) hslot
  unfold turned at hissue
  simp only [takeFront, hk, hissue, show ¬ 2 ≤ 0 from by decide, show ¬ (0 = 1) from by decide, if_false]
  rfl

/-! ### The packet at the front -/

theorem commandTake_idle (pkts : List RawPkt) : Exactly (.commandTake · pkts) (fun s => nextTaken s pkts = none) id := by
  refine exactly_of (f := onFabric [] (takeTurn pkts)) (fun _ _ => rfl) fun q _ hnone => ⟨?_, .refl q⟩
  rw [onFabric, takeTurn_none hnone, ite_self, id_eq]

theorem commandTake_stops (pkts : List RawPkt) (n : Nat) (hk : 2 ≤ (pkts.getD n {}).readFails) :
    Happens (.commandTake · pkts) (fun s => up s ∧ nextTaken s pkts = some n)
      (fun s => setRing n (fun p => { p with stopped := true, ringErr := true }) (turned n s)) [0x014 + n] noPuts := by
  refine happens_up (f := takeTurn pkts) (parts := []) (fun _ _ => rfl) (fun q hc => ⟨hc.1, fun _ => nofun⟩) fun q _ _ hc => ?_
  obtain ⟨hup, hnext⟩ := hc
  obtain ⟨hframe, hev⟩ := stopRing_raises n (turned n q) hup
  rw [takeTurn_some hnext, takeFront_unread hk]
  exact ⟨hframe, rfl, rfl, by simpa using hev, List.nil_subset _⟩

theorem commandTake_waits (pkts : List RawPkt) (n : Nat) (hk : (pkts.getD n {}).readFails = 0) :
    Exactly (.commandTake · pkts) (fun s => up s ∧ nextTaken s pkts = some n ∧ ledgerFull s = true)
      (fun s => setRing n (fun p => { p with ticketWait := some (p.ticketWait.getD s.now) }) (turned n s)) := by
  refine exactly_of (f := onFabric [] (takeTurn pkts)) (fun _ _ => rfl) fun q _ hc => ⟨?_, rfl, rfl, rfl, rfl, rfl⟩
  obtain ⟨hup, hnext, hfull⟩ := hc
  rw [onFabric_up (parts := []) _ hup (fun _ => nofun), takeTurn_some hnext, takeFront_full hk hfull]

/-- The command's side of a ring whose packet has been passed. -/
def passed (k : RawPkt) (p : RingPair) : RingPair :=
  { p with cmdCons := if p.cmdSize = 0 then p.cmdCons else (p.cmdCons + rawSlots k) % p.cmdSize, ticketWait := none }

theorem passPacket_ring {n : Nat} (k : RawPkt) {s : State} (hn : n < 4) :
    vget (passPacket n k s).host.rings n = passed k (vget s.host.rings n) := vget_vmod_self _ _ _ hn

theorem passPacket_freeSlots {n : Nat} (k : RawPkt) {s : State} (hn : n < 4) : freeSlots (passPacket n k s) n = freeSlots s n := by
  unfold freeSlots
  rw [passPacket_ring k hn]
  rfl

theorem passPacket_frame (n : Nat) (k : RawPkt) (s : State) : ReplyFrame s (passPacket n k s) := setRing_frame _ _ _

theorem OutFrame.freeSlots {s r : State} (h : OutFrame s r) (n : Nat) : freeSlots r n = freeSlots s n := by
  unfold Machine.freeSlots reservedSlots
  rw [h.rings, h.cmds, h.ring]

/-- A packet that is whole has at least one slot, so that its ring has a size. -/
theorem ringReady_size {n : Nat} {k : RawPkt} {s : State} (h : ringReady s n k = true) : (vget s.host.rings n).cmdSize ≠ 0 := by
  intro hzero
  simp only [ringReady, waitingSlots, hzero, if_true, rawSlots, packetSlots, Bool.and_eq_true, decide_eq_true_eq] at h
  omega

section
variable {t n : Nat} {k : RawPkt} {s : State}

/-- What stands before a front packet runs: its ring is ready, and the ledger has a slot. -/
structure FrontReady (n : Nat) (k : RawPkt) (s : State) : Prop where
  inv : s.Inv
  fabric : up s
  ready : ringReady s n k = true
  slot : nextSlot s < ledgerSlots
  gen : sget s.ledger.gens (nextSlot s) 0 < 2 ^ 14
  first : (vget s.host.rings n).posts = []
  ring : n < 4

theorem FrontReady.turned_inv (h : FrontReady n k s) : (turned n s).Inv := ⟨h.inv.mem, h.inv.writes, h.inv.emptied⟩

theorem FrontReady.frame (h : FrontReady n k s) (t : Nat) : ReplyFrame (turned n s) (frontTaken t n k s) :=
  (passPacket_frame n k _).after (taken_frame t h.turned_inv h.slot).reply

theorem FrontReady.taken_ring (h : FrontReady n k s) (t : Nat) : vget (frontTaken t n k s).host.rings n = passed k (vget s.host.rings n) := by
  have hrings : (taken t (turned n s)).host.rings = s.host.rings := (taken_frame t h.turned_inv h.slot).rings
  rw [frontTaken, passPacket_ring k h.ring, hrings]

theorem FrontReady.taken_ringReady (h : FrontReady n k s) (t : Nat) : RingReady n 16 (frontTaken t n k s) := by
  have hf := taken_frame t h.turned_inv h.slot
  have hready := h.ready
  simp only [ringReady, Bool.and_eq_true, decide_eq_true_eq] at hready
  obtain ⟨⟨⟨⟨⟨⟨henabled, -⟩, -⟩, -⟩, hroom⟩, -⟩, -⟩ := hready
  refine ⟨?_, h.ring, ?_, ?_, ?_⟩
  · exact hf.hf_fabric.trans h.fabric
  · rw [h.taken_ring]
    exact henabled
  · rw [h.taken_ring]
    exact h.first
  · rw [frontTaken, passPacket_freeSlots k h.ring, hf.freeSlots]
    exact hroom

/-- A front packet that is answered at once: its reply, its ticket, its place in the ring, and what else changes. -/
theorem FrontReady.answered (h : FrontReady n k s) (t status : Nat) (body : Bytes) (hst : status ≠ stAccepted) (hlen : body.length ≤ 1008)
    (hstaged : (isStaged (pktOpcode k) && decide (status < 0x8000)) = false) :
    ∃ r, runAt t s (fun _ => answer (frontRec n (nextTicket s) k) status body (frontTaken t n k s)) = .next r ∧
      Posted (pktOpcode k) status body (parsePkt n k) s r ∧
      r.ledger.complete = s.ledger.complete + (if status < 0x8000 then 1 else 0) ∧
      r.ledger.failed = s.ledger.failed + (if status < 0x8000 then 0 else 1) ∧
      (vget r.host.rings n).cmdCons = ((vget s.host.rings n).cmdCons + rawSlots k) % (vget s.host.rings n).cmdSize ∧
      ReplyFrame (turned n s) r := by
  have hready := h.taken_ringReady t
  have hlive : ticketLive (frontTaken t n k s).ledger (nextTicket s) = true := taken_live t (s := turned n s) h.slot h.gen
  have hcomplete : (frontTaken t n k s).ledger.complete = s.ledger.complete := taken_complete t (s := turned n s) h.slot
  have hfailed : (frontTaken t n k s).ledger.failed = s.ledger.failed := taken_failed t (s := turned n s) h.slot
  obtain ⟨hput, hunread, hc, hf, hframe⟩ := answer_posts (r := frontRec n (nextTicket s) k) (status := status) (body := body) rfl rfl hst hlive
    ⟨hready.fabric, hready.ring, hready.enabled, hready.first, le_trans (replySlots_le hlen) hready.room⟩
  have hside := answer_replySide (r := frontRec n (nextTicket s) k) (status := status) (body := body) (q := frontTaken t n k s) rfl rfl hst h.ring
  have hkeep : ReplyFrame (turned n s) (answer (frontRec n (nextTicket s) k) status body (frontTaken t n k s)) := by
    refine hframe.after ((h.frame t).trans ?_)
    simp [ReplyFrame, frontRec, hstaged]
  have hcommit := commit_frame t h.inv (q := answer (frontRec n (nextTicket s) k) status body (frontTaken t n k s)) hkeep.bench hkeep.pending
  have hmodule : (frontTaken t n k s).ring.moduleId = s.ring.moduleId := (h.frame t).ring_moduleId
  refine ⟨_, rfl, ⟨?_, ?_⟩, ?_, ?_, ?_, hcommit.reply.after hkeep⟩
  · simp only [frontRec, h.taken_ring, hmodule] at hput
    exact hput
  · simp only [frontRec, h.taken_ring, hmodule] at hunread
    rw [hcommit.rings]
    exact hunread
  · rw [hcommit.ledger, hc, hcomplete]
  · rw [hcommit.ledger, hf, hfailed]
  · rw [hcommit.rings]
    refine hside.cmdCons.trans ?_
    simp only [frontRec, h.taken_ring, passed, ringReady_size h.ready, if_false]

theorem commandTake_runs {pkts : List RawPkt} (h : FrontReady n (pkts.getD n {}) s) (hnext : nextTaken s pkts = some n)
    (hk : (pkts.getD n {}).readFails = 0) :
    exec (.commandTake t pkts) s = runAt t s fun _ =>
      runPacket (frontRec n (nextTicket s) (pkts.getD n {})) (parsePkt n (pkts.getD n {})) (frontTaken t n (pkts.getD n {}) s) := by
  have hup : up (tick t s) := h.fabric
  have hturn := takeTurn_some (((tick_frame t h.inv).nextTaken pkts).trans hnext)
  show runAt t s (onFabric [] (takeTurn pkts)) = _
  simp only [runAt, onFabric_up (parts := []) _ hup (fun _ => nofun), hturn, takeFront_runs hk h.slot]

end

/-! ### NOP -/

/-- A NOP is answered ST_OK, whatever the state. -/
theorem runHere_nop {r : CmdRec} {c : HostCmd} {q : State} (hlen : c.paramLen = 0) (hs : c.stepFails = 0) :
    runHere specNop r c q = answer r stOk [] q := by
  have hquery : isQuery 0x0100 = true := by decide
  have hneed : (specNop.need c).2 = true := decide_eq_true hlen
  have hpassive : passiveRefuses q specNop.opcode c = false := by
    simp only [passiveRefuses, specNop, hquery, Bool.true_or, Bool.not_true, Bool.and_false]
  have hjournal : journalled q specNop.opcode c = false := by
    simp only [journalled, specNop, hquery, Bool.true_or, Bool.not_true, Bool.and_false]
  have hj : judge specNop r c q = ok [] q := by
    rw [judge_runs hneed rfl hpassive (fun _ => nofun) rfl hs]
    exact if_neg fun h => absurd h.1 (show stOk ≠ stAccepted by decide)
  simp only [runHere, hj, ok, hjournal, Bool.and_false, Bool.false_eq_true, if_false]
  rfl

theorem runCmd_nop {r : CmdRec} {c : HostCmd} {q : State} (hl : lengthsAgree c = true) (hlen : c.paramLen = 0)
    (hm : c.module = 0xFF ∨ isOwnId q c.module = true) (hs : c.stepFails = 0) : runCmd specNop r c q = answer r stOk [] q := by
  have hneed : (specNop.need c).2 = true := decide_eq_true hlen
  simp only [runCmd, hl, hneed, hm, runHere_nop hlen hs, Bool.not_true, Bool.and_false, Bool.false_eq_true, if_false, if_true]

theorem specOf_nop : specOf 0x0100 = some specNop := rfl

theorem runPacket_nop {r : CmdRec} {c : HostCmd} {q : State} (hop : r.opcode = 0x0100) : runPacket r c q = runCmd specNop r c q := by
  unfold runPacket
  rw [hop, specOf_nop]

theorem runPacket_unknown {r : CmdRec} {c : HostCmd} {q : State} (hop : specOf r.opcode = none) : runPacket r c q = answer r stBadOpcode (zeros 8) q := by
  unfold runPacket
  rw [hop]

/-! ### Packets that end at once -/

section
variable {t n : Nat} {s : State} {pkts : List RawPkt}

theorem commandTake_unknown (h : FrontReady n (pkts.getD n {}) s) (hnext : nextTaken s pkts = some n) (hk : (pkts.getD n {}).readFails = 0)
    (hop : specOf (pktOpcode (pkts.getD n {})) = none) :
    Next (.commandTake t pkts) s fun r =>
      EndsFailed (pktOpcode (pkts.getD n {})) stBadOpcode (zeros 8) (parsePkt n (pkts.getD n {})) s r ∧
      (vget r.host.rings n).cmdCons = ((vget s.host.rings n).cmdCons + rawSlots (pkts.getD n {})) % (vget s.host.rings n).cmdSize ∧
      ReplyFrame (turned n s) r := by
  obtain ⟨r, hr, hposted, -, hfailed, hcons, hframe⟩ := h.answered t stBadOpcode (zeros 8) (by decide) (by simp)
    (by rw [show decide (stBadOpcode < 0x8000) = false from rfl, Bool.and_false])
  refine ⟨r, ?_, ⟨hposted, hfailed⟩, hcons, hframe⟩
  rw [commandTake_runs h hnext hk, runPacket_unknown hop]
  exact hr

theorem commandTake_nop (h : FrontReady n (pkts.getD n {}) s) (hnext : nextTaken s pkts = some n) (hk : (pkts.getD n {}).readFails = 0)
    (hs : (pkts.getD n {}).stepFails = 0) (hop : pktOpcode (pkts.getD n {}) = 0x0100) (hl : lengthsAgree (parsePkt n (pkts.getD n {})) = true)
    (hlen : (parsePkt n (pkts.getD n {})).paramLen = 0) (hm : (parsePkt n (pkts.getD n {})).module = 0xFF) :
    Next (.commandTake t pkts) s fun r =>
      Completes 0x0100 [] (parsePkt n (pkts.getD n {})) s r ∧
      (vget r.host.rings n).cmdCons = ((vget s.host.rings n).cmdCons + rawSlots (pkts.getD n {})) % (vget s.host.rings n).cmdSize ∧
      ReplyFrame (turned n s) r := by
  have hstaged : (isStaged (pktOpcode (pkts.getD n {})) && decide (stOk < 0x8000)) = false := by
    rw [hop]
    decide
  obtain ⟨r, hr, hposted, hcomplete, -, hcons, hframe⟩ := h.answered t stOk [] (by decide) (Nat.zero_le _) hstaged
  rw [hop] at hposted
  refine ⟨r, ?_, ⟨hposted, hcomplete⟩, hcons, hframe⟩
  rw [commandTake_runs h hnext hk, runPacket_nop hop, runCmd_nop hl hlen (.inl hm) hs]
  exact hr

end

/-! ### A packet without a ticket -/

theorem ticketTimeout_idle {n : Nat} {k : RawPkt} {s : State} (h : (vget s.host.rings n).ticketWait = none ∨ ledgerFull s = false) :
    ticketTimeout n k s = s := by
  rcases h with hnone | hfree
  · simp only [ticketTimeout, hnone, Option.any_none, Bool.and_false, Bool.false_and, Bool.false_eq_true, if_false]
  · simp only [ticketTimeout, hfree, Bool.and_false, Bool.false_eq_true, if_false]

theorem commandTicketTimeout_idle (n : Nat) (k : RawPkt) :
    Exactly (.commandTicketTimeout · n k) (fun s => n < 4 ∧ ((vget s.host.rings n).ticketWait = none ∨ ledgerFull s = false)) id := by
  refine exactly_of (f := onFabric [] (if n < 4 then ticketTimeout n k else id)) (fun _ _ => rfl) fun q _ hc => ⟨?_, .refl q⟩
  rw [onFabric, if_pos hc.1, ticketTimeout_idle hc.2, ite_self, id_eq]

/-- The reply of a packet that waited in vain for a ticket. -/
def noTicketReply (n : Nat) (k : RawPkt) (m : Nat) : Bytes := replyBytes (pktOpcode k) stBusy (parsePkt n k).tag 0 m 8 (busyBody 1 0)

theorem noTicketReply_slots (n : Nat) (k : RawPkt) (m : Nat) : replySlots (noTicketReply n k m) = 1 := by
  simp [noTicketReply, replySlots, replyBytes, busyBody, ceilDiv]

/-- A word that names no ticket reports none. -/
theorem reportTicket_noTicket (s : State) : reportTicket noTicketWord s = s := by
  have hword : decide (noTicketWord < 2 ^ 32) = false := decide_eq_false (Nat.lt_irrefl _)
  simp only [reportTicket, hword, Bool.false_and, Bool.false_eq_true, if_false]

/-- The state in which such a packet is answered: passed, and counted. -/
def passedUntaken (n : Nat) (k : RawPkt) (s : State) : State := countNoTicket (passPacket n k s)

theorem ticketTimeout_answers {n w : Nat} {k : RawPkt} {s : State} (henabled : (vget s.host.rings n).enabled = true)
    (hstopped : (vget s.host.rings n).stopped = false) (hwait : (vget s.host.rings n).ticketWait = some w) (hlate : w + 2000000 ≤ s.now)
    (hfull : ledgerFull s = true) :
    ticketTimeout n k s = postReply n noTicketWord (parsePkt n k).irq (noTicketReply n k s.ring.moduleId) (passedUntaken n k s) := by
  unfold ticketTimeout
  refine if_pos ?_
  rw [henabled, hstopped, hwait, Option.any_some, decide_eq_true hlate, hfull]
  rfl

theorem commandTicketTimeout_answers {t n w : Nat} {k : RawPkt} {s : State} (hinv : s.Inv) (hup : up s) (hposts : postsNow n s)
    (hstopped : (vget s.host.rings n).stopped = false) (hwait : (vget s.host.rings n).ticketWait = some w) (hlate : w + 2000000 ≤ max s.now t)
    (hfull : ledgerFull s = true) :
    Next (.commandTicketTimeout t n k) s fun r =>
      replyOut n (noTicketReply n k s.ring.moduleId) s ∈ r.emit ∧
      (vget r.host.rings n).ticketWait = none ∧ r.ledger = { s.ledger with noTicket := s.ledger.noTicket + 1 } ∧
      (vget r.host.rings n).unread = (vget s.host.rings n).unread + 1 ∧ r.cmds = s.cmds ∧ ReplyFrame s r := by
  obtain ⟨hn, henabled, hfirst, hroom⟩ := hposts
  have hf := tick_frame t hinv
  have hring : vget (passedUntaken n k (tick t s)).host.rings n = passed k (vget s.host.rings n) := passPacket_ring k (s := tick t s) hn
  have hfree : freeSlots (passedUntaken n k (tick t s)) n = freeSlots s n := (passPacket_freeSlots k (s := tick t s) hn).trans (hf.freeSlots n)
  have hslots := noTicketReply_slots n k s.ring.moduleId
  have hfit : replySlots (noTicketReply n k s.ring.moduleId) ≤ freeSlots (passedUntaken n k (tick t s)) n := by omega
  have hpost := postReply_posts (n := n) (w := noTicketWord) (irq := (parsePkt n k).irq) (bytes := noTicketReply n k s.ring.moduleId)
    (s := passedUntaken n k (tick t s)) hup hn (by rw [hring]; exact henabled) (by rw [hring]; exact hfirst) hfit
  have hnext := postReply_next n noTicketWord (parsePkt n k).irq (noTicketReply n k s.ring.moduleId) (passedUntaken n k (tick t s)) hup hn
    (by rw [hring]; exact henabled) (by rw [hring]; exact hfirst) hfit
  have hside := postReply_replySide noTicketWord (parsePkt n k).irq (noTicketReply n k s.ring.moduleId) hn (passedUntaken n k (tick t s))
  have hkeep : ReplyFrame s (postReply n noTicketWord (parsePkt n k).irq (noTicketReply n k s.ring.moduleId) (passedUntaken n k (tick t s))) :=
    (postReply_frame _ _ _ _ _).after (ReplyFrame.after (r := tick t s) rfl hf.reply)
  obtain ⟨hput, hunread, -, -⟩ := hpost
  have hcommit := commit_frame t hinv (q := postReply n noTicketWord (parsePkt n k).irq (noTicketReply n k s.ring.moduleId) (passedUntaken n k (tick t s)))
    hkeep.bench hkeep.pending
  refine ⟨_, ?_, ?_, ?_, ?_, ?_, ?_, hcommit.reply.after hkeep⟩
  · have hup' : up (tick t s) := hup
    show runAt t s (onFabric [] (if n < 4 then ticketTimeout n k else id)) = _
    rw [runAt, onFabric_up (parts := []) _ hup' (fun _ => nofun), if_pos hn,
      ticketTimeout_answers (s := tick t s) henabled hstopped hwait hlate (hf.ledgerFull.trans hfull)]
    rfl
  · rw [hring] at hput
    exact hput
  · rw [hcommit.rings, hside.ticketWait, hring]
    rfl
  · rw [hcommit.ledger, hnext, reportTicket_noTicket, setRing_ledger, writeReply_ledger]
    rfl
  · rw [hcommit.rings, hunread, hring, hslots]
    rfl
  · rw [hcommit.cmds, postReply_cmds]
    rfl

/-- Settles O39: the rules of the three registers, and each thing that may become of a front packet. -/
theorem commandRings : Obligations.CommandRings := by
  refine ⟨fun _ v => cmdSizeWrite_happens v, fun _ v => cmdSizeWrite_badSize v, fun _ v => cmdSizeWrite_cfgErr v, fun _ => cmdSizeWrite_zero,
    fun _ v => cmdDoorbell_moves v, fun _ v => cmdDoorbell_stops v, fun _ v => cmdDoorbell_disabled v, fun _ v => rplConsWrite_happens v,
    fun _ v => rplConsWrite_cfgErr v, fun _ _ => pairWrite_wedged (g := cmdSizeWrite) (fun _ _ => rfl),
    fun _ _ => pairWrite_wedged (g := cmdProdWrite) (fun _ _ => rfl), fun _ _ => pairWrite_wedged (g := rplConsWrite) (fun _ _ => rfl),
    commandTake_idle, commandTake_stops, commandTake_waits, ?_, ?_, ?_, commandTicketTimeout_idle⟩
  · intro t s pkts n hinv hup hnext hk hop hslot hgen hfirst hn
    exact commandTake_unknown ⟨hinv, hup, nextTaken_ready hnext, hslot, hgen, hfirst, hn⟩ hnext hk hop
  · intro t s pkts n hinv hup hnext hk hs hop hl hlen hm hslot hgen hfirst hn
    exact commandTake_nop ⟨hinv, hup, nextTaken_ready hnext, hslot, hgen, hfirst, hn⟩ hnext hk hs hop hl hlen hm
  · intro t s n w k hinv hup hposts hstopped hwait hlate hfull
    exact commandTicketTimeout_answers hinv hup hposts hstopped hwait hlate hfull

end Sys2Proof.Machine

/-! ## Commands that go over the ring (R71, R83, R88, R92, R94 to R96) -/

namespace Sys2Proof.Machine

/-! ### What a reply that is next in its ring keeps -/

theorem reportTicket_evt (w : Nat) (s : State) : (reportTicket w s).host.evt = s.host.evt := by
  unfold reportTicket
  simp only
  split <;> rfl

/-- A reply is written with no more than outputs, and an event. -/
theorem writeReply_ring (n : Nat) (irq : Bool) (bytes : Bytes) (s : State) : (writeReply n irq bytes s).ring = s.ring := by
  unfold writeReply
  simp only
  split <;> split
  · rw [(raise_frame _ _ _ _).ring]
    simp only [out, setRing_ring]
  · rw [(raise_frame _ _ _ _).ring]
    simp only [out, setRing_ring]
  · simp only [out, setRing_ring]
  · simp only [out, setRing_ring]

/-- A completion's reply raises the event of its ring (R71). -/
theorem writeReply_raises {n : Nat} (irq : Bool) {bytes : Bytes} {s : State} (hup : up s) (hc : isCompletion bytes = true) :
    bitOf (writeReply n irq bytes s).host.evt.pending (0x010 + n) = true := by
  unfold writeReply
  simp only [hc, Bool.or_true, if_true]
  split
  · exact raise_sets _ _ _ hup
  · exact raise_sets _ _ _ hup

/-- The flags of a completion that came over the ring (R92). -/
theorem isCompletion_forwarded (opcode status tag ticket source : Nat) (body : Bytes) :
    isCompletion (replyBytes opcode status tag ticket source 6 body) = true := by
  have hflags : u8 (replyBytes opcode status tag ticket source 6 body) 13 = 6 := rfl
  rw [isCompletion, hflags]
  decide

section
variable {n : Nat} {s : State} (w : Nat) (irq : Bool) {bytes : Bytes} (h : RingReady n (replySlots bytes) s)
include h

theorem RingReady.postReply_ring : (postReply n w irq bytes s).ring = s.ring := by
  rw [postReply_next n w irq bytes s h.fabric h.ring h.enabled h.first h.room, setRing_ring, (reportTicket_out _ _).ring, writeReply_ring]
  rfl

theorem RingReady.postReply_issued : (postReply n w irq bytes s).ledger.issued = s.ledger.issued := by
  rw [postReply_next n w irq bytes s h.fabric h.ring h.enabled h.first h.room, setRing_ledger, reportTicket_issued, writeReply_ledger]
  rfl

theorem RingReady.postReply_raises (hc : isCompletion bytes = true) : bitOf (postReply n w irq bytes s).host.evt.pending (0x010 + n) = true := by
  rw [postReply_next n w irq bytes s h.fabric h.ring h.enabled h.first h.room]
  show bitOf (reportTicket w _).host.evt.pending _ = true
  rw [reportTicket_evt]
  exact writeReply_raises irq (s := setRing n _ (setRing n _ s)) h.fabric hc

end

/-! ### The reply of a command that this module forwarded -/

/-- What stays of a command that has got a reply: it is kept where the reply is ST_ACCEPTED. -/
def keptForwarded (f : Forwarded) (status : Nat) : List Forwarded := if status = stAccepted then [{ f with accepted := true }] else []

/-- The one forwarded command has got its reply. -/
def forwardReplied (f : Forwarded) (status : Nat) (s : State) : State := { s with ring := { s.ring with forwarded := keptForwarded f status } }

/-- Its ticket is decided, where the reply is the final one. -/
def forwardDecided (f : Forwarded) (status : Nat) (s : State) : State :=
  if status = stAccepted then forwardReplied f status s else decideTicket f.ticket (ticketCode status) (forwardReplied f status s)

section
variable {f : Forwarded} {status source rflags : Nat} {body : Bytes} {s : State}

theorem replyForwarded_one (hone : s.ring.forwarded = [f]) :
    replyForwarded f status source rflags body s =
      postReply f.ring f.ticket f.irq (replyBytes f.opcode status f.tag f.ticket source rflags body) (forwardDecided f status s) := by
  have hrest : s.ring.forwarded.filter (fun x => !(decide (x.ticket = f.ticket) && decide (x.module = f.module))) = [] := by simp [hone]
  unfold replyForwarded
  rw [hrest]
  rfl

/-- The ledger is none of what ReplyFrame keeps. -/
theorem replyFrame_ledger (s : State) (l : Ledger) : ReplyFrame s { s with ledger := l } := rfl

theorem forwardDecided_frame (f : Forwarded) (status : Nat) (s : State) :
    OutFrame { forwardReplied f status s with ledger := (forwardDecided f status s).ledger } (forwardDecided f status s) := by
  unfold forwardDecided
  split
  · exact OutFrame.refl _
  · exact decide_frame _ _ _

/-- The reply frees the slots that were kept for it. -/
theorem freeSlots_forwardDecided (hone : s.ring.forwarded = [f]) (n : Nat) : freeSlots s n ≤ freeSlots (forwardDecided f status s) n := by
  have hf := forwardDecided_frame f status s
  have hkept : (((keptForwarded f status).filter fun x => decide (x.ring = n)).map fun x => if x.accepted then 1 else 16).sum ≤
      ((s.ring.forwarded.filter fun x => decide (x.ring = n)).map fun x => if x.accepted then 1 else 16).sum := by
    rw [hone]
    unfold keptForwarded
    by_cases hst : status = stAccepted <;> by_cases hn : f.ring = n <;> by_cases ha : f.accepted = true <;> simp [hst, hn, ha]
  unfold freeSlots reservedSlots
  rw [hf.rings, hf.cmds, hf.ring]
  simp only [forwardReplied] at hkept ⊢
  omega

/-- What a reply of the target, or the gateway's own, comes to where its ring posts it at once. -/
structure ForwardAnswered (f : Forwarded) (status : Nat) (bytes : Bytes) (s r : State) : Prop where
  put : replyOut f.ring bytes s ∈ r.emit
  ring : r.ring = { s.ring with forwarded := keptForwarded f status }
  complete : r.ledger.complete = (forwardDecided f status s).ledger.complete
  failed : r.ledger.failed = (forwardDecided f status s).ledger.failed
  issued : r.ledger.issued = (forwardDecided f status s).ledger.issued
  cmds : r.cmds = s.cmds
  frame : ReplyFrame (forwardReplied f status s) r
  event : isCompletion bytes = true → bitOf r.host.evt.pending (0x010 + f.ring) = true

theorem replyForwarded_answers (hup : up s) (hone : s.ring.forwarded = [f]) (hposts : postsNow f.ring s) (hlen : body.length ≤ 1008) :
    ForwardAnswered f status (replyBytes f.opcode status f.tag f.ticket source rflags body) s (replyForwarded f status source rflags body s) := by
  obtain ⟨hn, henabled, hfirst, hroom⟩ := hposts
  have hf := forwardDecided_frame f status s
  have hrings : (forwardDecided f status s).host.rings = s.host.rings := hf.rings
  have hready : RingReady f.ring (replySlots (replyBytes f.opcode status f.tag f.ticket source rflags body)) (forwardDecided f status s) :=
    ⟨hf.hf_fabric.trans hup, hn, by rw [hrings]; exact henabled, by rw [hrings]; exact hfirst,
      le_trans (replySlots_le hlen) (le_trans hroom (freeSlots_forwardDecided hone _))⟩
  obtain ⟨hput, -, hcomplete, hfailed⟩ := postReply_posts (w := f.ticket) (irq := f.irq) hready.fabric hready.ring hready.enabled hready.first hready.room
  rw [hrings] at hput
  rw [replyForwarded_one hone]
  exact ⟨hput, (hready.postReply_ring _ _).trans hf.ring, hcomplete, hfailed, hready.postReply_issued _ _, (postReply_cmds _ _ _ _ _).trans hf.cmds,
    (postReply_frame _ _ _ _ _).after (hf.reply.after (replyFrame_ledger _ _)), hready.postReply_raises _ _⟩

theorem ReplyFrame.forwardReplied {a b : State} (h : ReplyFrame a b) (f : Forwarded) (status : Nat) :
    ReplyFrame (forwardReplied f status a) (forwardReplied f status b) := by
  unfold ReplyFrame Machine.forwardReplied at *
  rw [h]

theorem ForwardAnswered.commit {t : Nat} {bytes : Bytes} {q : State} (hinv : s.Inv) (h : ForwardAnswered f status bytes (tick t s) q) :
    ForwardAnswered f status bytes (tick t s) (commit (tick t s) q) := by
  have hf := tick_frame t hinv
  have hc := commit_frame t hinv (h.frame.bench.trans hf.bench) (h.frame.pending.trans hf.pending)
  exact ⟨h.put, hc.ring.trans h.ring, (congrArg Ledger.complete hc.ledger).trans h.complete, (congrArg Ledger.failed hc.ledger).trans h.failed,
    (congrArg Ledger.issued hc.ledger).trans h.issued, hc.cmds.trans h.cmds, hc.reply.after h.frame, h.event⟩

/-- An instruction that answers the one forwarded command. -/
theorem forwarded_next {t : Nat} {i : Instr} {g : State → State} (hx : exec i s = runAt t s (onFabric [] g))
    (hg : g (tick t s) = replyForwarded f status source rflags body (tick t s)) (hinv : s.Inv) (hup : up s) (hone : s.ring.forwarded = [f])
    (hposts : postsNow f.ring s) (hlen : body.length ≤ 1008) :
    ∃ r, exec i s = .next r ∧ ForwardAnswered f status (replyBytes f.opcode status f.tag f.ticket source rflags body) (tick t s) r ∧
      ReplyFrame (forwardReplied f status s) r := by
  have hup' : up (tick t s) := hup
  have hall := replyForwarded_answers (status := status) (source := source) (rflags := rflags) (s := tick t s) hup hone hposts hlen
  have hcommit := hall.commit hinv
  refine ⟨_, ?_, hcommit, hcommit.frame.after ((tick_frame t hinv).reply.forwardReplied f status)⟩
  rw [hx, runAt, onFabric_up (parts := []) _ hup' (fun _ => nofun), hg]

theorem ticketCode_eq_zero (status : Nat) : ticketCode status = 0 ↔ status < 0x8000 := by
  unfold ticketCode
  split <;> omega

/-- The final reply ends the ticket by its status. -/
theorem ForwardAnswered.ends {bytes : Bytes} {r : State} (h : ForwardAnswered f status bytes s r) (hst : status ≠ stAccepted)
    (hlive : ticketLive s.ledger f.ticket = true) :
    r.ring.forwarded = [] ∧ r.ledger.complete = s.ledger.complete + (if status < 0x8000 then 1 else 0) ∧
      r.ledger.failed = s.ledger.failed + (if status < 0x8000 then 0 else 1) := by
  obtain ⟨hcomplete, hfailed⟩ := decideTicket_counts (s := forwardReplied f status s) (ticketCode status) hlive
  simp only [ticketCode_eq_zero] at hcomplete hfailed
  have hdecided : forwardDecided f status s = decideTicket f.ticket (ticketCode status) (forwardReplied f status s) := if_neg hst
  refine ⟨?_, ?_, ?_⟩
  · rw [h.ring]
    exact if_neg hst
  · rw [h.complete, hdecided, hcomplete]
    rfl
  · rw [h.failed, hdecided, hfailed]
    rfl

theorem forwardReplied_final (hst : status ≠ stAccepted) : forwardReplied f status s = { s with ring := { s.ring with forwarded := [] } } := by
  rw [forwardReplied, keptForwarded, if_neg hst]

/-! ### Replies of the target -/

theorem takeReply_found {completion : Bool} (hone : s.ring.forwarded = [f]) (ha : f.accepted = completion) :
    takeReply f.module f.ticket status completion body s = replyForwarded f status f.module (4 + flagBit completion 1) body s := by
  have hfind : s.ring.forwarded.find? (fun x => decide (x.ticket = f.ticket) && decide (x.module = f.module) && decide (x.accepted = completion)) = some f := by
    simp [hone, ha]
  unfold takeReply
  rw [hfind]

/-- A reply, or a completion, of the target of the one forwarded command. -/
theorem ringCommandReply_next {t : Nat} {completion : Bool} (hinv : s.Inv) (hup : up s) (hone : s.ring.forwarded = [f]) (ha : f.accepted = completion)
    (hposts : postsNow f.ring s) (hlen : body.length ≤ 1008) :
    ∃ r, exec (.ringCommandReply t f.module f.ticket status completion body) s = .next r ∧
      ForwardAnswered f status (replyBytes f.opcode status f.tag f.ticket f.module (4 + flagBit completion 1) body) (tick t s) r ∧
      ReplyFrame (forwardReplied f status s) r :=
  forwarded_next (g := takeReply f.module f.ticket status completion body) rfl (takeReply_found (s := tick t s) hone ha) hinv hup hone hposts hlen

theorem lateReply_counts (m w status : Nat) (completion : Bool) (body : Bytes) (p : Nat) :
    Exactly (.ringCommandReply · m w status completion body)
      (fun s => up s ∧ s.ring.forwarded = [] ∧ s.ring.broadcasts = [] ∧ (moduleById s m).bind (routeTo s) = some p)
      (setLinkPort p fun x => { x with cnt := { x.cnt with lateReplies := wrap32 (x.cnt.lateReplies + 1) } }) := by
  refine exactly_of (f := onFabric [] (takeReply m w status completion body)) (fun _ _ => rfl) fun q _ hc => ⟨?_, rfl, rfl, rfl, rfl, rfl⟩
  obtain ⟨hup, hforwarded, hbroadcasts, hroute⟩ := hc
  rw [onFabric_up (parts := []) _ hup (fun _ => nofun)]
  simp only [takeReply, lateReply, hforwarded, hbroadcasts, hroute, List.find?_nil, List.any_nil, Bool.false_eq_true, if_false]

/-! ### Commands without a reply (R95) -/

theorem forwardTimeout_one (hone : s.ring.forwarded = [f]) (ha : f.accepted = false) (hlate : f.sentAt + 10000000 ≤ s.now)
    (hring : (replyForwarded f stTimeout s.ring.moduleId 0 (timeoutBody f.module) s).ring.broadcasts = []) :
    forwardTimeout f.ticket s = replyForwarded f stTimeout s.ring.moduleId 0 (timeoutBody f.module) s := by
  have hfilter : (s.ring.forwarded.filter fun x => decide (x.ticket = f.ticket) && !x.accepted && decide (x.sentAt + 10000000 ≤ s.now)) = [f] := by
    simp [hone, ha, hlate]
  unfold forwardTimeout
  simp only [hfilter, List.foldl_cons, List.foldl_nil, hring, List.find?_nil]

theorem forwardTimeout_idle (w : Nat) :
    Exactly (.forwardTimeout · w)
      (fun s => s.ring.broadcasts = [] ∧ ∀ f ∈ s.ring.forwarded, f.accepted = true ∨ s.now < f.sentAt + 10000000 ∨ f.ticket ≠ w) id := by
  refine exactly_of (f := onFabric [] (forwardTimeout w)) (fun _ _ => rfl) fun q _ hc => ⟨?_, .refl q⟩
  obtain ⟨hnone, hquiet⟩ := hc
  have hfilter : (q.ring.forwarded.filter fun x => decide (x.ticket = w) && !x.accepted && decide (x.sentAt + 10000000 ≤ q.now)) = [] := by
    rw [List.filter_eq_nil_iff]
    intro f hf
    rcases hquiet f hf with ha | hearly | hother
    · simp [ha]
    · simp [Nat.not_le.2 hearly]
    · simp [hother]
  have hidle : forwardTimeout w q = q := by
    unfold forwardTimeout
    simp only [hfilter, List.foldl_nil, hnone, List.find?_nil]
  rw [onFabric, hidle, ite_self, id_eq]

theorem forwardTimeout_next {t : Nat} (hinv : s.Inv) (hup : up s) (hone : s.ring.forwarded = [f]) (hnone : s.ring.broadcasts = [])
    (ha : f.accepted = false) (hlate : f.sentAt + 10000000 ≤ max s.now t) (hposts : postsNow f.ring s) :
    ∃ r, exec (.forwardTimeout t f.ticket) s = .next r ∧
      ForwardAnswered f stTimeout (replyBytes f.opcode stTimeout f.tag f.ticket s.ring.moduleId 0 (timeoutBody f.module)) (tick t s) r ∧
      ReplyFrame (forwardReplied f stTimeout s) r := by
  have hlen : (timeoutBody f.module).length ≤ 1008 := by simp [timeoutBody]
  have hanswer := replyForwarded_answers (status := stTimeout) (source := s.ring.moduleId) (rflags := 0) (s := tick t s) hup hone hposts hlen
  exact forwarded_next (g := forwardTimeout f.ticket) rfl
    (forwardTimeout_one (s := tick t s) hone ha hlate ((congrArg RingUnit.broadcasts hanswer.ring).trans hnone)) hinv hup hone hposts hlen

end

/-! ### Packets that another gateway forwarded (R92, R94) -/

section
variable {q : State}

theorem le_foldl_max (l : List Nat) (a : Nat) : a ≤ l.foldl max a ∧ ∀ x ∈ l, x ≤ l.foldl max a := by
  induction l generalizing a with
  | nil => simp
  | cons y l ih =>
    obtain ⟨hbase, hall⟩ := ih (max a y)
    refine ⟨le_trans (le_max_left _ _) hbase, fun x hx => ?_⟩
    rcases List.mem_cons.1 hx with rfl | hx
    · exact le_trans (le_max_right _ _) hbase
    · exact hall x hx

/-- The key of a command without a ticket is no ticket, and no other command's key. -/
theorem freshKey_notLive : ticketLive q.ledger (freshKey q) = false := by
  have hbase := (le_foldl_max (q.cmds.map (·.ticket)) (2 ^ 41)).1
  have hkey : ¬ freshKey q < 2 ^ 32 := by
    unfold freshKey
    omega
  simp only [ticketLive, decide_eq_false hkey, Bool.false_and]

theorem dropCmd_freshKey : dropCmd (freshKey q) q = q := by
  have hkeep : (q.cmds.filter fun r => decide (r.ticket ≠ freshKey q)) = q.cmds := by
    rw [List.filter_eq_self]
    intro r hr
    have hle := (le_foldl_max (q.cmds.map (·.ticket)) (2 ^ 41)).2 r.ticket (List.mem_map_of_mem hr)
    exact decide_eq_true (by unfold freshKey; omega)
  rw [dropCmd, hkeep]

/-- A command of another gateway is answered with one packet over the ring. -/
theorem answer_remote {r : CmdRec} {g status : Nat} {body : Bytes} (hv : r.via = some g) (hg : g ≠ allModules) (hs : r.silent = false)
    (hkey : r.ticket = freshKey q) (hst : status ≠ stAccepted) (hstaged : (isStaged r.opcode && decide (status < 0x8000)) = false) :
    answer r status body q = out (.remoteReply g (replyBytes r.opcode status r.tag 0 q.ring.moduleId 0 body)) q := by
  have hdecided : decideTicket r.ticket (ticketCode status) (dropCmd r.ticket q) = q := by
    rw [hkey, dropCmd_freshKey, decideTicket_dead _ freshKey_notLive]
  simp only [answer, hst, if_false, hdecided, hstaged, Bool.false_eq_true, sendReply, hs, hv, hg]

/-- The record of a packet that a gateway forwarded. -/
def remoteRec (g : Nat) (k : RawPkt) (s : State) : CmdRec :=
  { ticket := freshKey s, tag := (parsePkt 0 k).tag, opcode := pktOpcode k, irq := (parsePkt 0 k).irq, via := some g }

theorem answer_remoteRec {g status : Nat} {k : RawPkt} {body : Bytes} (hg : g ≠ allModules) (hst : status ≠ stAccepted)
    (hstaged : (isStaged (pktOpcode k) && decide (status < 0x8000)) = false) :
    answer (remoteRec g k q) status body q = out (.remoteReply g (replyBytes (pktOpcode k) status (parsePkt 0 k).tag 0 q.ring.moduleId 0 body)) q :=
  answer_remote rfl hg rfl rfl hst hstaged

theorem takeForwarded_unknown {g : Nat} {k : RawPkt} (hop : specOf (pktOpcode k) = none) :
    takeForwarded g k q = answer (remoteRec g k q) stBadOpcode (zeros 8) q := by
  simp only [takeForwarded, hop]
  rfl

theorem takeForwarded_nop {g : Nat} {k : RawPkt} (hop : pktOpcode k = 0x0100) (hlen : (parsePkt 0 k).paramLen = 0)
    (hm : (parsePkt 0 k).module ≠ allModules) (hs : k.stepFails = 0) : takeForwarded g k q = answer (remoteRec g k q) stOk [] q := by
  simp only [takeForwarded, hop, specOf_nop, if_pos hm]
  have hrec : remoteRec g k q = { ticket := freshKey q, tag := (parsePkt 0 k).tag, opcode := 0x0100, irq := (parsePkt 0 k).irq, via := some g } := by
    rw [remoteRec, hop]
  rw [hrec]
  exact runHere_nop hlen hs

theorem takeForwarded_nopToAll {g : Nat} {k : RawPkt} (hop : pktOpcode k = 0x0100) (hm : (parsePkt 0 k).module = allModules) :
    takeForwarded g k q = answer (remoteRec g k q) stBadTarget (targetBody (parsePkt 0 k)) q := by
  have hopcode : specNop.opcode ≠ 0x0201 := by decide
  have hevery : specNop.every = none := rfl
  simp only [takeForwarded, remoteRec, hop, specOf_nop, hm, ne_eq, not_true_eq_false, if_false, hopcode, hevery, Option.isSome_none, Bool.false_eq_true]

/-- A packet of another gateway that is answered with no more than its reply. -/
theorem ringCommandReceived_happens {g status : Nat} {k : RawPkt} {body : Bytes} (hst : status ≠ stAccepted)
    (hstaged : (isStaged (pktOpcode k) && decide (status < 0x8000)) = false)
    (hrun : ∀ q, takeForwarded g k q = answer (remoteRec g k q) status body q) :
    Happens (.ringCommandReceived · g k) (fun s => up s ∧ g ≠ allModules) id []
      (fun s => [.remoteReply g (replyBytes (pktOpcode k) status (parsePkt 0 k).tag 0 s.ring.moduleId 0 body)]) := by
  refine happens_up (f := takeForwarded g k) (parts := []) (fun _ _ => rfl) (fun q hc => ⟨hc.1, fun _ => nofun⟩) fun q _ _ hc => ?_
  rw [hrun, answer_remoteRec hc.2 hst hstaged]
  exact ⟨out_frame _ _, rfl, rfl, nofun, by simp [out]⟩

end

/-- Settles O43: each reply of the one forwarded command, its 10 ms, and the packets that another gateway forwarded. -/
theorem forwardedCommands : Obligations.ForwardedCommands := by
  refine ⟨?_, ?_, ?_, lateReply_counts, ?_, forwardTimeout_idle, ?_, ?_, ?_⟩
  · intro t s f status body hinv hup hone ha hst _ hlen hlive hposts
    obtain ⟨r, hr, hall, hframe⟩ := ringCommandReply_next (t := t) (status := status) hinv hup hone ha hposts hlen
    obtain ⟨hgone, hcomplete, hfailed⟩ := hall.ends hst hlive
    rw [forwardReplied_final hst] at hframe
    exact ⟨r, hr, hall.put, hgone, hcomplete, hfailed, hall.cmds, hframe⟩
  · intro t s f hinv hup hone ha hposts
    obtain ⟨r, hr, hall, hframe⟩ := ringCommandReply_next (t := t) (status := stAccepted) (body := []) hinv hup hone ha hposts (Nat.zero_le _)
    exact ⟨r, hr, hall.put, congrArg RingUnit.forwarded hall.ring, hall.issued, hall.failed, hframe⟩
  · intro t s f status body hinv hup hone ha hst _ hlen hlive hposts
    obtain ⟨r, hr, hall, -⟩ := ringCommandReply_next (t := t) (status := status) hinv hup hone ha hposts hlen
    obtain ⟨hgone, hcomplete, hfailed⟩ := hall.ends hst hlive
    exact ⟨r, hr, hall.put, hgone, hcomplete, hfailed, hall.event (isCompletion_forwarded _ _ _ _ _ _)⟩
  · intro t s f hinv hup hone hnone ha hlate hlive hposts
    obtain ⟨r, hr, hall, hframe⟩ := forwardTimeout_next (t := t) hinv hup hone hnone ha hlate hposts
    obtain ⟨hgone, -, hfailed⟩ := hall.ends (by decide) hlive
    rw [forwardReplied_final (by decide)] at hframe
    exact ⟨r, hr, hall.put, hgone, hfailed, hframe⟩
  · intro g k hop
    exact ringCommandReceived_happens (by decide) (by rw [show decide (stBadOpcode < 0x8000) = false from rfl, Bool.and_false])
      fun q => takeForwarded_unknown hop
  · intro g k hop hlen hm hs
    have h := ringCommandReceived_happens (g := g) (k := k) (status := stOk) (body := []) (by decide) (by rw [hop]; decide)
      fun q => takeForwarded_nop hop hlen hm hs
    rwa [hop] at h
  · intro g k hop hm
    have h := ringCommandReceived_happens (g := g) (k := k) (status := stBadTarget) (body := targetBody (parsePkt 0 k)) (by decide)
      (by rw [hop]; decide) fun q => takeForwarded_nopToAll hop hm
    rwa [hop] at h

end Sys2Proof.Machine

/-! ## Vectors and latched events (R131, R592, R594, R726, logs 80 and 112) -/

namespace Sys2Proof.Machine

/-- A bit that is taken out of a word is clear in it. -/
theorem setBit_clears {v n : Nat} (h : bitOf v n = true) : bitOf (setBit v n false) n = false := by
  have hge : 2 ^ n ≤ v := Nat.ge_two_pow_of_testBit h
  have hsum := Nat.testBit_two_pow_add_eq (v - 2 ^ n) n
  rw [Nat.add_sub_cancel' hge, show v.testBit n = true from h] at hsum
  simpa [setBit, bitOf, show v.testBit n = true from h] using hsum.symm

section
variable {s : State} {v src : Nat} {a b : Int}

/-! ### A vector's message -/

/-- A vector disarmed. -/
def disarmed (v : Nat) (s : State) : State :=
  { s with host := { s.host with evt := { s.host.evt with armed := setBit s.host.evt.armed v false } } }

theorem signalVector_armed (h : bitOf s.host.evt.armed v = true) : signalVector v s = sendMsix v (disarmed v s) := if_pos h

theorem signalVector_disarmed (h : bitOf s.host.evt.armed v = false) : signalVector v s = s := if_neg (by simp [h])

theorem sendMsix_sends (hon : s.host.pcie.msixEnable = true) (hfunc : s.host.pcie.funcMask = false)
    (hentry : (msixEntry s.host.pcie v).masked = false) : sendMsix v s = out (.msix v) s := by
  simp [sendMsix, hon, hfunc, hentry]

/-- A mask of the function or of the vector keeps the message back. -/
theorem sendMsix_held (hon : s.host.pcie.msixEnable = true) (hmask : s.host.pcie.funcMask = true ∨ (msixEntry s.host.pcie v).masked = true) :
    (sendMsix v s).emit = s.emit ∧ (sendMsix v s).host.pcie.heldMsgs = setBit s.host.pcie.heldMsgs v true := by
  have hheld : (s.host.pcie.funcMask || (msixEntry s.host.pcie v).masked) = true := by simpa using hmask
  simp [sendMsix, hon, hheld]

/-! ### A source raised while the fabric runs -/

/-- A source with its PENDING bit set. -/
def pended (src : Nat) (s : State) : State :=
  { s with host := { s.host with evt := { s.host.evt with pending := setBit s.host.evt.pending src true } } }

/-- A source pending, and its record in the ring or lost: what comes before its vector. -/
def recorded (src : Nat) (a b : Int) (s : State) : State := writeEvent src a b (shortTime s) (pended src s)

theorem raise_masked (hup : up s) (hmask : bitOf s.host.evt.mask src = true) : raise src a b s = pended src s := by
  rw [raise, if_pos hup, deliverEvent, if_pos hmask, pended]

theorem raise_unmasked (hup : up s) (hmask : bitOf s.host.evt.mask src = false) :
    raise src a b s = signalVector (vectorOf s.host.evt src) (recorded src a b s) := by
  rw [raise, if_pos hup, deliverEvent, if_neg (by simp [hmask]), recorded, pended]

/-- A record in the ring neither arms a vector nor sends or holds a message. -/
theorem writeEvent_vectors (t : Nat) :
    (writeEvent src a b t s).host.evt.armed = s.host.evt.armed ∧ (writeEvent src a b t s).host.pcie = s.host.pcie ∧
      ∀ v, Emit.msix v ∈ (writeEvent src a b t s).emit → Emit.msix v ∈ s.emit := by
  unfold writeEvent
  simp only
  split
  · exact ⟨rfl, rfl, fun _ h => h⟩
  · split
    · exact ⟨rfl, rfl, fun _ h => h⟩
    · exact ⟨rfl, rfl, fun _ h => by simpa [out] using h⟩

theorem recorded_armed : (recorded src a b s).host.evt.armed = s.host.evt.armed := (writeEvent_vectors _).1

theorem recorded_pcie : (recorded src a b s).host.pcie = s.host.pcie := (writeEvent_vectors _).2.1

theorem recorded_msix (h : Emit.msix v ∈ (recorded src a b s).emit) : Emit.msix v ∈ s.emit :=
  (writeEvent_vectors (s := pended src s) _).2.2 v h

theorem raise_armed (hup : up s) (hmask : bitOf s.host.evt.mask src = false) (harmed : bitOf s.host.evt.armed (vectorOf s.host.evt src) = true) :
    raise src a b s = sendMsix (vectorOf s.host.evt src) (disarmed (vectorOf s.host.evt src) (recorded src a b s)) := by
  rw [raise_unmasked hup hmask, signalVector_armed (by rw [recorded_armed]; exact harmed)]

theorem raise_disarms (hup : up s) (hmask : bitOf s.host.evt.mask src = false) (harmed : bitOf s.host.evt.armed (vectorOf s.host.evt src) = true) :
    bitOf (raise src a b s).host.evt.armed (vectorOf s.host.evt src) = false := by
  rw [raise_armed hup hmask harmed, sendMsix_pending]
  exact setBit_clears (by rw [recorded_armed]; exact harmed)

/-- The message of an armed vector that no mask holds is the last output. -/
theorem raise_sends (hup : up s) (hmask : bitOf s.host.evt.mask src = false) (harmed : bitOf s.host.evt.armed (vectorOf s.host.evt src) = true)
    (hon : s.host.pcie.msixEnable = true) (hfunc : s.host.pcie.funcMask = false)
    (hentry : (msixEntry s.host.pcie (vectorOf s.host.evt src)).masked = false) :
    (raise src a b s).emit.getLast? = some (.msix (vectorOf s.host.evt src)) ∧ (raise src a b s).host.pcie = s.host.pcie := by
  have hpcie : (disarmed (vectorOf s.host.evt src) (recorded src a b s)).host.pcie = s.host.pcie := recorded_pcie
  rw [raise_armed hup hmask harmed, sendMsix_sends (by rw [hpcie, hon]) (by rw [hpcie, hfunc]) (by rw [hpcie, hentry])]
  exact ⟨List.getLast?_concat, hpcie⟩

/-- A masked vector or function keeps the message of an armed vector back. -/
theorem raise_holds (hup : up s) (hmask : bitOf s.host.evt.mask src = false) (harmed : bitOf s.host.evt.armed (vectorOf s.host.evt src) = true)
    (hon : s.host.pcie.msixEnable = true)
    (hheld : s.host.pcie.funcMask = true ∨ (msixEntry s.host.pcie (vectorOf s.host.evt src)).masked = true) :
    (∀ v, Emit.msix v ∈ (raise src a b s).emit → Emit.msix v ∈ s.emit) ∧
      bitOf (raise src a b s).host.pcie.heldMsgs (vectorOf s.host.evt src) = true := by
  have hpcie : (disarmed (vectorOf s.host.evt src) (recorded src a b s)).host.pcie = s.host.pcie := recorded_pcie
  obtain ⟨hemit, hmsgs⟩ := sendMsix_held (s := disarmed (vectorOf s.host.evt src) (recorded src a b s)) (by rw [hpcie, hon]) (by rwa [hpcie])
  rw [raise_armed hup hmask harmed, hemit, hmsgs]
  exact ⟨fun _ h => recorded_msix h, setBit_self _ _⟩

/-- With its vector disarmed a source touches neither vectors nor messages, whether it is masked or not. -/
theorem raise_disarmed (hup : up s) (harmed : bitOf s.host.evt.armed (vectorOf s.host.evt src) = false) :
    (raise src a b s).host.pcie = s.host.pcie ∧ (raise src a b s).host.evt.armed = s.host.evt.armed ∧
      ∀ v, Emit.msix v ∈ (raise src a b s).emit → Emit.msix v ∈ s.emit := by
  cases hmask : bitOf s.host.evt.mask src with
  | true =>
    rw [raise_masked hup hmask]
    exact ⟨rfl, rfl, fun _ h => h⟩
  | false =>
    rw [raise_unmasked hup hmask, signalVector_disarmed (by rw [recorded_armed]; exact harmed)]
    exact ⟨recorded_pcie, recorded_armed, fun _ h => recorded_msix h⟩

/-! ### A source raised while it does not run -/

theorem raise_latches (hdown : s.hf.fabric ≠ .running) (hfirst : bitOf s.hf.latched src = false) :
    raise src a b s = { s with hf := { s.hf with
      latched := s.hf.latched + 2 ^ src
      latchedEvents := s.hf.latchedEvents ++ [(src, toUnsigned 32 a, toUnsigned 32 b, shortTime s)] } } := by
  have hset : setBit s.hf.latched src true = s.hf.latched + 2 ^ src := by simp [setBit, hfirst]
  rw [raise, if_neg hdown, latchEvent, if_neg (by simp [hfirst]), hset]

/-- A source is latched once, with the arguments of its first raise. -/
theorem raise_latched (hdown : s.hf.fabric ≠ .running) (hset : bitOf s.hf.latched src = true) (hheld : ∃ e ∈ s.hf.latchedEvents, e.1 = src) :
    raise src a b s = s := by
  have hany : (s.hf.latchedEvents.any fun e => decide (e.1 = src)) = true := by simpa using hheld
  rw [raise, if_neg hdown, latchEvent, if_pos (by rw [hset, hany]; rfl)]

end

/-- Settles O8: what an armed vector sends or keeps back, a disarmed one, and the latch of the Holdfast. -/
theorem vectorsAndLatchedEvents : Obligations.VectorsAndLatchedEvents := by
  refine ⟨fun src a b s hup hmask harmed => ⟨raise_disarms hup hmask harmed, ?_, ?_⟩, ?_, ?_, ?_⟩
  · exact raise_sends hup hmask harmed
  · exact raise_holds hup hmask harmed
  · exact fun src a b s hup harmed => raise_disarmed hup harmed
  · exact fun src a b s hdown hfirst => raise_latches hdown hfirst
  · exact fun src a b s hdown hset hheld => raise_latched hdown hset hheld

end Sys2Proof.Machine

/-! ## Encoder inputs (R134 to R136, R138, R140, R143, R147, R148, R150) -/

namespace Sys2Proof.Machine

/-! ### One input of the table -/

section
variable {e : Nat} {s : State}

theorem setEnc_congr {f g : Encoder → Encoder} (h : f (vget s.gauge.enc e) = g (vget s.gauge.enc e)) : setEnc e f s = setEnc e g s := by
  unfold setEnc vmod
  rw [h]

theorem setEnc_setEnc (f g : Encoder → Encoder) : setEnc e f (setEnc e g s) = setEnc e (fun x => f (g x)) s := by
  unfold setEnc
  simp only [vmod_vmod]

theorem setEnc_eq_self {f : Encoder → Encoder} (h : f (vget s.gauge.enc e) = vget s.gauge.enc e) : setEnc e f s = s := by
  unfold setEnc
  rw [vmod_eq_self h]

theorem setEnc_self (he : e < 6) (f : Encoder → Encoder) : vget (setEnc e f s).gauge.enc e = f (vget s.gauge.enc e) :=
  vget_vmod_self _ _ _ he

theorem setEnc_cfgNow (f : Encoder → Encoder) : cfgNow (setEnc e f s) = cfgNow s := rfl

theorem setEnc_webEnc (f : Encoder → Encoder) : webEnc (setEnc e f s) = webEnc s := rfl

end

/-! ### What a count or an edge drives, where nothing waits for it -/

section
variable {s : State}

theorem foldl_range_fixed {n : Nat} {f : State → Nat → State} (h : ∀ i : Nat, i < n → f s i = s) : (List.range n).foldl f s = s :=
  List.foldlRecOn (motive := (· = s)) (List.range n) f rfl fun r hr i hi => by rw [hr, h i (List.mem_range.1 hi)]

theorem OutFrame.axisCfg {a b : State} (h : OutFrame a b) (i : Nat) : axisCfg b i = axisCfg a i := by
  unfold Machine.axisCfg
  rw [h.axes, h.cfgNow]

theorem OutFrame.lone {a b : State} (h : OutFrame a b) (hl : lone a) : lone b := by
  obtain ⟨hglue, hrole, hswitch, hstop⟩ := hl
  exact ⟨h.glue.trans hglue, h.pair_role.trans hrole, (congrArg PairUnit.switchAt h.pair).trans hswitch,
    (congrArg Gauge.stopAfter h.gauge).trans hstop⟩

theorem afterTriggers_lone (h : lone s) : afterTriggers s = s := by
  obtain ⟨hglue, hrole, hswitch, hstop⟩ := h
  have hcheck : checkStop s = s := by simp only [checkStop, hstop]
  have hstay : checkSwitch s = s := by simp only [checkSwitch, hswitch]
  rw [afterTriggers, hcheck, onFabric, Function.comp_apply, hstay, settle_alone ⟨hglue, hrole⟩, ite_self]

theorem gearMaster_noGearing (e : Nat) (before after : Int) (h : noGearing s) : gearMaster e before after s = s :=
  foldl_range_fixed fun a ha => by simp [h a ha]

theorem driveCompares_noCompares (forward : Bool) (h : noCompares s) : driveCompares forward s = s :=
  foldl_range_fixed fun u hu => by simp [cmpCfg, h u hu]

theorem driveTargets_disabled (counting : Bool) (h : s.gauge.trigEnabled = false) : driveTargets counting s = s := by
  simp [driveTargets, firing, h]

theorem injectedIllegal_none (e : Nat) (h : s.faults.injections = []) : injectedIllegal e s = (false, s) := by
  simp [injectedIllegal, h]

end

/-! ### A change of the lines: unused, illegal, or a count (R134, R136) -/

/-- An input with new levels of its lines. -/
def sampled (e : Nat) (a b : Bool) (s : State) : State := setEnc e (fun x => { x with levelA := a, levelB := b }) s

/-- A change that counts is a change, and not an illegal one. -/
theorem quadrature_counts {a b a' b' sense forward : Bool} (h : quadrature a b a' b' sense = some forward) :
    illegalChange a b a' b' = false ∧ (a' ≠ a ∨ b' ≠ b) := by
  unfold quadrature at h
  split at h
  · cases h
  · next hmoved =>
    split at h
    · cases h
    · next hboth =>
      refine ⟨?_, ?_⟩
      · simpa [illegalChange] using hboth
      · by_contra hsame
        push Not at hsame
        exact hmoved ⟨hsame.1.symm, hsame.2.symm⟩

section
variable {e : Nat} {a b forward : Bool} {s : State}

theorem encoderChange_unused (hrole : (vget (cfgNow s).enc e).role = 0) : encoderChange e a b s = sampled e a b s := by
  unfold encoderChange
  simp [hrole, sampled]

theorem encoderChange_illegal (hrole : (vget (cfgNow s).enc e).role ≠ 0) (hinj : s.faults.injections = [])
    (hill : illegalChange (vget s.gauge.enc e).levelA (vget s.gauge.enc e).levelB a b = true) :
    encoderChange e a b s = afterTriggers (illegalStep e (sampled e a b s)) := by
  have hmoved : (decide (a ≠ (vget s.gauge.enc e).levelA) || decide (b ≠ (vget s.gauge.enc e).levelB)) = true := by
    have hne : (vget s.gauge.enc e).levelA ≠ a := fun hsame => by simp [illegalChange, hsame] at hill
    simp [hne.symm]
  have hnone := injectedIllegal_none (s := sampled e a b s) e hinj
  unfold encoderChange
  unfold sampled at hnone ⊢
  simp only [hrole, hmoved, hnone, hill]
  rfl

/-- What a count of an input does once its levels stand: it is held, or it moves the position and what follows from it. -/
def countTaken (e : Nat) (forward : Bool) (stamp : Nat) (s : State) : State :=
  let r := applyCount e forward stamp (countSeen e s)
  if !r.1 then r.2
  else
    let q := gearMaster e (vget (countSeen e s).gauge.enc e).position (vget r.2.gauge.enc e).position (followWeb e r.2)
    if webEnc q ≠ some e then q
    else afterTriggers (driveCompares forward (if forward then driveTargets true q else q))

theorem encoderChange_counts (hrole : (vget (cfgNow s).enc e).role ≠ 0) (hinj : s.faults.injections = [])
    (hquad : quadrature (vget s.gauge.enc e).levelA (vget s.gauge.enc e).levelB a b (vget (cfgNow s).enc e).sense = some forward) :
    encoderChange e a b s = countTaken e forward (s.now - 2 * ((vget (cfgNow s).enc e).filter - 1)) (sampled e a b s) := by
  obtain ⟨hlegal, hmoved⟩ := quadrature_counts hquad
  have hmoved' : (decide (a ≠ (vget s.gauge.enc e).levelA) || decide (b ≠ (vget s.gauge.enc e).levelB)) = true := by simpa using hmoved
  have hnone := injectedIllegal_none (s := sampled e a b s) e hinj
  unfold encoderChange
  unfold sampled at hnone ⊢
  simp only [hrole, hmoved', hnone, hlegal, hquad]
  rfl

/-! ### A count (R135, R143, R147, R148, R150) -/

/-- An input at a count: it is not still, and the time stamps from before a standstill are gone. -/
def seen (now : Nat) (x : Encoder) : Encoder := { x with lastCount := some now, still := false, times := if x.still then [] else x.times }

theorem countSeen_quiet (h : (vget s.gauge.enc e).still = false ∨ webEnc s ≠ some e) : countSeen e s = setEnc e (seen s.now) s := by
  have hnot : ¬ ((vget s.gauge.enc e).still && decide (webEnc (setEnc e (seen s.now) s) = some e)) = true := by
    rw [setEnc_webEnc]
    rcases h with hstill | hother
    · simp [hstill]
    · simp [hother]
  exact if_neg hnot

/-- A first count, or one in the present direction. -/
theorem applyCount_along (stamp : Nat) (hheld : (vget s.gauge.enc e).held = none)
    (hdir : (vget s.gauge.enc e).dir = none ∨ (vget s.gauge.enc e).dir = some forward) :
    applyCount e forward stamp s = (true, setEnc e (fun x => { x with
      dir := some forward
      position := x.position + (if forward then 65536 else -65536)
      counts := x.counts + 1
      times := (stamp :: x.times).take 65 }) s) := by
  have hstep : (if forward then (1 : Int) * 65536 else -(1 * 65536)) = if forward then 65536 else -65536 := by
    cases forward <;> rfl
  rcases hdir with hfirst | hsame
  · simp only [applyCount, hheld, hfirst, hstep]
  · simp only [applyCount, hheld, hsame, hstep, if_true]
    exact congrArg (Prod.mk true) (setEnc_congr (by rw [← hsame]))

/-- The first count against the present direction is held. -/
theorem applyCount_against (stamp : Nat) (hheld : (vget s.gauge.enc e).held = none) (hdir : (vget s.gauge.enc e).dir = some (!forward)) :
    applyCount e forward stamp s = (false, setEnc e (fun x => { x with held := some stamp }) s) := by
  have hturn : ¬ (!forward) = forward := by cases forward <;> decide
  simp only [applyCount, hheld, hdir, if_neg hturn]

/-- An encoder that is neither the web encoder nor its reserve leaves WebPos. -/
theorem followWeb_other (hweb : (vget (cfgNow s).enc e).role ≠ 1) (hreserve : (vget (cfgNow s).enc e).role ≠ 2) : followWeb e s = s := by
  simp [followWeb, hweb, hreserve]

/-- The web encoder gives WebPos, and with no illegal transition behind it the reserve offset (R143, R147). -/
theorem followWeb_web (hrole : (vget (cfgNow s).enc e).role = 1) (hactive : s.gauge.reserveActive = false)
    (hlegal : (vget s.gauge.enc e).illegalAt = []) (hnone : encOfRole (cfgNow s) 2 = none) :
    followWeb e s = { s with gauge := { s.gauge with
      webPos := (vget s.gauge.enc e).position
      reserveOffset := (vget s.gauge.enc e).position * 65536 } } := by
  have hfollows : offsetFollows (vget s.gauge.enc e) = true := by simp [offsetFollows, hlegal]
  simp only [followWeb, hrole, hactive, hfollows, reserveExact, hnone]
  simp

/-! ### An illegal transition (R136, R138) -/

/-- An input that has seen an illegal transition. -/
def noted (x : Encoder) : Encoder := { x with illegal := wrap32 (x.illegal + 1), illegalAt := x.counts :: x.illegalAt }

theorem noted_take {x : Encoder} (h : x.illegalAt.length ≤ 7) :
    { x with illegal := wrap32 (x.illegal + 1), illegalAt := (x.counts :: x.illegalAt).take 8 } = noted x := by
  rw [List.take_of_length_le (Nat.succ_le_succ h), noted]

/-- The eighth illegal transition within 4,096 counts, of an input without ENC_FAULT (R138). -/
def eighthIllegal (x : Encoder) : Bool :=
  decide (x.illegalAt.length = 8) && (x.illegalAt.getLast?.any fun n => decide (x.counts ≤ n + 4096)) && !x.encFault

theorem noted_eighth {x : Encoder} (hseven : x.illegalAt.length = 7) (hclear : x.encFault = false)
    (hnear : ∀ n ∈ x.illegalAt.getLast?, x.counts ≤ n + 4096) : eighthIllegal (noted x) = true := by
  have hne : x.illegalAt ≠ [] := by
    rintro hnil
    simp [hnil] at hseven
  have hlast := List.getLast?_eq_some_getLast hne
  have hclose := hnear _ hlast
  simp [eighthIllegal, noted, hseven, hclear, List.getLast?_cons, hlast, hclose]

/-- An illegal transition that is not the eighth is counted. -/
theorem illegalStep_counts (he : e < 6) (hrole : (vget (cfgNow s).enc e).role = 3) (hlen : (vget s.gauge.enc e).illegalAt.length ≤ 7)
    (hnot : eighthIllegal (noted (vget s.gauge.enc e)) = false) : illegalStep e s = setEnc e noted s := by
  unfold illegalStep
  rw [setEnc_congr (noted_take hlen)]
  have hweb : ¬ (vget (cfgNow (setEnc e noted s)).enc e).role = 1 := by rw [setEnc_cfgNow, hrole]; decide
  unfold eighthIllegal at hnot
  simp only [if_neg hweb, setEnc_self he, hnot, Bool.false_eq_true, if_false]

/-- The eighth sets ENC_FAULT with its event; no axis that takes its position from another input stops. -/
theorem illegalStep_faults (he : e < 6) (hrole : (vget (cfgNow s).enc e).role = 3) (hlen : (vget s.gauge.enc e).illegalAt.length ≤ 7)
    (heighth : eighthIllegal (noted (vget s.gauge.enc e)) = true) (haxes : ∀ i : Nat, i < 4 → (axisCfg s i).encoder ≠ some e) :
    illegalStep e s = raise (0x380 + e) 0 0 (setEnc e (fun x => { noted x with encFault := true }) s) := by
  have hframe := raise_frame (0x380 + e) 0 0 (setEnc e (fun x => { noted x with encFault := true }) s)
  unfold illegalStep
  rw [setEnc_congr (noted_take hlen)]
  have hweb : ¬ (vget (cfgNow (setEnc e noted s)).enc e).role = 1 := by rw [setEnc_cfgNow, hrole]; decide
  have hreserve : ¬ (vget (cfgNow (setEnc e noted s)).enc e).role = 2 := by rw [setEnc_cfgNow, hrole]; decide
  unfold eighthIllegal at heighth
  simp only [if_neg hweb, setEnc_self he, heighth, if_true, hreserve, decide_false, Bool.false_and, Bool.false_eq_true, if_false, setEnc_setEnc]
  refine foldl_range_fixed fun i hi => ?_
  have hother : (axisCfg (raise (0x380 + e) 0 0 (setEnc e (fun x => { noted x with encFault := true }) s)) i).encoder ≠ some e := by
    rw [hframe.axisCfg]
    exact haxes i hi
  simp only [hother, decide_false, Bool.and_false, Bool.false_eq_true, if_false]

end

/-! ### The changes of an input's lines, as they happen -/

section
variable {e : Nat} {a b forward : Bool}

theorem exec_encoderCount (he : e < 6) (t : Nat) (s : State) : exec (.encoderCount t e a b) s = runAt t s (encoderChange e a b) := by
  show runAt t s (if e < 6 then encoderChange e a b else id) = _
  rw [if_pos he]

theorem encoderCount_unused (he : e < 6) :
    Happens (.encoderCount · e a b) (fun s => (vget (cfgNow s).enc e).role = 0) (setEnc e fun x => { x with levelA := a, levelB := b }) [] noPuts := by
  refine happens_of (f := encoderChange e a b) (exec_encoderCount he) fun q _ _ hrole => ?_
  rw [encoderChange_unused hrole]
  exact ⟨OutFrame.refl _, rfl, rfl, List.forall_mem_nil _, List.nil_subset _⟩

/-- An accepted count, from the levels to the position (R134, R135, R148). -/
def countedOnce (e : Nat) (a b forward : Bool) (s : State) : State :=
  setEnc e (fun x => { counted1 forward (s.now - 2 * ((vget (cfgNow s).enc e).filter - 1)) s.now x with levelA := a, levelB := b }) s

theorem countSeen_sampled {s : State} (he : e < 6) (hquiet : (vget s.gauge.enc e).still = false ∨ webEnc s ≠ some e) :
    countSeen e (sampled e a b s) = setEnc e (fun x => seen s.now { x with levelA := a, levelB := b }) s := by
  rw [countSeen_quiet, sampled, setEnc_setEnc]
  · rfl
  · rwa [sampled, setEnc_self he, setEnc_webEnc]

theorem applyCount_counted {s : State} (he : e < 6) (hquiet : (vget s.gauge.enc e).still = false ∨ webEnc s ≠ some e)
    (hheld : (vget s.gauge.enc e).held = none) (hdir : (vget s.gauge.enc e).dir = none ∨ (vget s.gauge.enc e).dir = some forward) :
    applyCount e forward (s.now - 2 * ((vget (cfgNow s).enc e).filter - 1)) (countSeen e (sampled e a b s)) =
      (true, countedOnce e a b forward s) := by
  rw [countSeen_sampled he hquiet, applyCount_along, setEnc_setEnc]
  · rfl
  · rwa [setEnc_self he]
  · rwa [setEnc_self he]

theorem countTaken_other {s : State} (he : e < 6) (hrole : (vget (cfgNow s).enc e).role = 3) (hgear : noGearing s) (hother : webEnc s ≠ some e)
    (hheld : (vget s.gauge.enc e).held = none) (hdir : (vget s.gauge.enc e).dir = none ∨ (vget s.gauge.enc e).dir = some forward) :
    countTaken e forward (s.now - 2 * ((vget (cfgNow s).enc e).filter - 1)) (sampled e a b s) = countedOnce e a b forward s := by
  have hrole' : (vget (cfgNow (countedOnce e a b forward s)).enc e).role = 3 := hrole
  have hgear' : noGearing (countedOnce e a b forward s) := hgear
  have hother' : webEnc (countedOnce e a b forward s) ≠ some e := hother
  unfold countTaken
  simp only [applyCount_counted he (.inr hother) hheld hdir]
  rw [followWeb_other (by rw [hrole']; decide) (by rw [hrole']; decide), gearMaster_noGearing _ _ _ hgear', if_pos hother']
  rfl

theorem encoderCount_counts (he : e < 6) :
    Happens (.encoderCount · e a b)
      (fun s => (vget (cfgNow s).enc e).role = 3 ∧ s.faults.injections = [] ∧ noGearing s ∧ webEnc s ≠ some e ∧
        quadrature (vget s.gauge.enc e).levelA (vget s.gauge.enc e).levelB a b (vget (cfgNow s).enc e).sense = some forward ∧
        (vget s.gauge.enc e).held = none ∧ ((vget s.gauge.enc e).dir = none ∨ (vget s.gauge.enc e).dir = some forward))
      (countedOnce e a b forward) [] noPuts := by
  refine happens_of (f := encoderChange e a b) (exec_encoderCount he) fun q _ _ hc => ?_
  obtain ⟨hrole, hinj, hgear, hother, hquad, hheld, hdir⟩ := hc
  rw [encoderChange_counts (by rw [hrole]; decide) hinj hquad, countTaken_other he hrole hgear hother hheld hdir]
  exact ⟨OutFrame.refl _, rfl, rfl, List.forall_mem_nil _, List.nil_subset _⟩

/-- The first count against the present direction, held (R135). -/
def heldCount (e : Nat) (a b : Bool) (s : State) : State :=
  setEnc e (fun x => { x with
    levelA := a, levelB := b, held := some (s.now - 2 * ((vget (cfgNow s).enc e).filter - 1)), lastCount := some s.now, still := false
    times := if x.still then [] else x.times }) s

theorem encoderCount_held (he : e < 6) :
    Happens (.encoderCount · e a b)
      (fun s => (vget (cfgNow s).enc e).role = 3 ∧ s.faults.injections = [] ∧ webEnc s ≠ some e ∧
        quadrature (vget s.gauge.enc e).levelA (vget s.gauge.enc e).levelB a b (vget (cfgNow s).enc e).sense = some forward ∧
        (vget s.gauge.enc e).held = none ∧ (vget s.gauge.enc e).dir = some (!forward))
      (heldCount e a b) [] noPuts := by
  refine happens_of (f := encoderChange e a b) (exec_encoderCount he) fun q _ _ hc => ?_
  obtain ⟨hrole, hinj, hother, hquad, hheld, hdir⟩ := hc
  have hrun : countTaken e forward (q.now - 2 * ((vget (cfgNow q).enc e).filter - 1)) (sampled e a b q) = heldCount e a b q := by
    rw [countTaken, countSeen_sampled he (.inr hother), applyCount_against, setEnc_setEnc]
    · rfl
    · rwa [setEnc_self he]
    · rwa [setEnc_self he]
  rw [encoderChange_counts (by rw [hrole]; decide) hinj hquad, hrun]
  exact ⟨OutFrame.refl _, rfl, rfl, List.forall_mem_nil _, List.nil_subset _⟩

/-- WebPos at the position of an input (R143, R147). -/
def webAt (e : Nat) (s : State) : State :=
  { s with gauge := { s.gauge with
    webPos := (vget s.gauge.enc e).position
    reserveOffset := (vget s.gauge.enc e).position * 65536 } }

theorem countTaken_web {s : State} (he : e < 6) (hrole : (vget (cfgNow s).enc e).role = 1) (hweb : webEnc s = some e)
    (hactive : s.gauge.reserveActive = false) (hgear : noGearing s) (hcmp : noCompares s) (hlone : lone s) (htrig : s.gauge.trigEnabled = false)
    (hstill : (vget s.gauge.enc e).still = false) (hlegal : (vget s.gauge.enc e).illegalAt = []) (hnone : encOfRole (cfgNow s) 2 = none)
    (hheld : (vget s.gauge.enc e).held = none) (hdir : (vget s.gauge.enc e).dir = none ∨ (vget s.gauge.enc e).dir = some forward) :
    countTaken e forward (s.now - 2 * ((vget (cfgNow s).enc e).filter - 1)) (sampled e a b s) = webAt e (countedOnce e a b forward s) := by
  have hlegal' : (vget (countedOnce e a b forward s).gauge.enc e).illegalAt = [] := by rwa [countedOnce, setEnc_self he]
  have hfollow : followWeb e (countedOnce e a b forward s) = webAt e (countedOnce e a b forward s) :=
    followWeb_web hrole hactive hlegal' hnone
  have hgear' : noGearing (webAt e (countedOnce e a b forward s)) := hgear
  have hcmp' : noCompares (webAt e (countedOnce e a b forward s)) := hcmp
  have hlone' : lone (webAt e (countedOnce e a b forward s)) := hlone
  have htrig' : (webAt e (countedOnce e a b forward s)).gauge.trigEnabled = false := htrig
  have hweb' : webEnc (webAt e (countedOnce e a b forward s)) = some e := hweb
  unfold countTaken
  simp only [applyCount_counted he (.inl hstill) hheld hdir, hfollow, gearMaster_noGearing _ _ _ hgear', hweb', driveTargets_disabled _ htrig',
    ite_self, driveCompares_noCompares _ hcmp', afterTriggers_lone hlone']
  simp

theorem encoderCount_web (he : e < 6) :
    Happens (.encoderCount · e a b)
      (fun s => (vget (cfgNow s).enc e).role = 1 ∧ webEnc s = some e ∧ s.gauge.reserveActive = false ∧ s.faults.injections = [] ∧ noGearing s ∧
        noCompares s ∧ lone s ∧ s.gauge.trigEnabled = false ∧ (vget s.gauge.enc e).still = false ∧ (vget s.gauge.enc e).illegalAt = [] ∧
        encOfRole (cfgNow s) 2 = none ∧
        quadrature (vget s.gauge.enc e).levelA (vget s.gauge.enc e).levelB a b (vget (cfgNow s).enc e).sense = some forward ∧
        (vget s.gauge.enc e).held = none ∧ ((vget s.gauge.enc e).dir = none ∨ (vget s.gauge.enc e).dir = some forward))
      (fun s => webAt e (countedOnce e a b forward s)) [] noPuts := by
  refine happens_of (f := encoderChange e a b) (exec_encoderCount he) fun q _ _ hc => ?_
  obtain ⟨hrole, hweb, hactive, hinj, hgear, hcmp, hlone, htrig, hstill, hlegal, hnone, hquad, hheld, hdir⟩ := hc
  rw [encoderChange_counts (by rw [hrole]; decide) hinj hquad,
    countTaken_web he hrole hweb hactive hgear hcmp hlone htrig hstill hlegal hnone hheld hdir]
  exact ⟨OutFrame.refl _, rfl, rfl, List.forall_mem_nil _, List.nil_subset _⟩

/-- An illegal transition before the eighth (R136). -/
theorem encoderCount_illegal (he : e < 6) :
    Happens (.encoderCount · e a b)
      (fun s => (vget (cfgNow s).enc e).role = 3 ∧ s.faults.injections = [] ∧ lone s ∧ (vget s.gauge.enc e).illegalAt.length < 7 ∧
        illegalChange (vget s.gauge.enc e).levelA (vget s.gauge.enc e).levelB a b = true)
      (setEnc e fun x => { x with levelA := a, levelB := b, illegal := wrap32 (x.illegal + 1), illegalAt := x.counts :: x.illegalAt }) [] noPuts := by
  refine happens_of (f := encoderChange e a b) (exec_encoderCount he) fun q _ _ hc => ?_
  obtain ⟨hrole, hinj, hlone, hfew, hill⟩ := hc
  have hsame : (vget (sampled e a b q).gauge.enc e).illegalAt = (vget q.gauge.enc e).illegalAt := by rw [sampled, setEnc_self he]
  have hnot : eighthIllegal (noted (vget (sampled e a b q).gauge.enc e)) = false := by
    have hshort : ¬ (vget q.gauge.enc e).illegalAt.length + 1 = 8 := by omega
    simp only [eighthIllegal, noted, hsame, List.length_cons, decide_eq_false hshort, Bool.false_and]
  have hlone' : lone (setEnc e noted (sampled e a b q)) := hlone
  rw [encoderChange_illegal (by rw [hrole]; decide) hinj hill,
    illegalStep_counts (s := sampled e a b q) he hrole (by rw [hsame]; omega) hnot, afterTriggers_lone hlone', sampled, setEnc_setEnc]
  exact ⟨OutFrame.refl _, rfl, rfl, List.forall_mem_nil _, List.nil_subset _⟩

/-- The eighth within 4,096 counts (R138). -/
theorem encoderCount_faults (he : e < 6) :
    Happens (.encoderCount · e a b)
      (fun s => up s ∧ (vget (cfgNow s).enc e).role = 3 ∧ s.faults.injections = [] ∧ lone s ∧ (vget s.gauge.enc e).encFault = false ∧
        (vget s.gauge.enc e).illegalAt.length = 7 ∧
        (∀ n ∈ (vget s.gauge.enc e).illegalAt.getLast?, (vget s.gauge.enc e).counts ≤ n + 4096) ∧
        (∀ i : Nat, i < 4 → (axisCfg s i).encoder ≠ some e) ∧
        illegalChange (vget s.gauge.enc e).levelA (vget s.gauge.enc e).levelB a b = true)
      (setEnc e fun x => { x with
        levelA := a, levelB := b, illegal := wrap32 (x.illegal + 1), illegalAt := x.counts :: x.illegalAt, encFault := true }) [0x380 + e] noPuts := by
  refine happens_of (f := encoderChange e a b) (exec_encoderCount he) fun q _ _ hc => ?_
  obtain ⟨hup, hrole, hinj, hlone, hclear, hseven, hnear, haxes, hill⟩ := hc
  have hinput : vget (sampled e a b q).gauge.enc e = { vget q.gauge.enc e with levelA := a, levelB := b } := by rw [sampled, setEnc_self he]
  have heighth : eighthIllegal (noted (vget (sampled e a b q).gauge.enc e)) = true := by
    rw [hinput]
    exact noted_eighth hseven hclear hnear
  have hframe := raise_frame (0x380 + e) 0 0 (setEnc e (fun x => { noted x with encFault := true }) (sampled e a b q))
  have hset := raise_sets (s := setEnc e (fun x => { noted x with encFault := true }) (sampled e a b q)) (0x380 + e) 0 0 hup
  rw [encoderChange_illegal (by rw [hrole]; decide) hinj hill,
    illegalStep_faults (s := sampled e a b q) he hrole (by rw [hinput]; exact hseven.le) heighth haxes, afterTriggers_lone (hframe.lone hlone)]
  refine ⟨hframe.after ?_, rfl, rfl, fun k hk => ?_, List.nil_subset _⟩
  · rw [sampled, setEnc_setEnc]
    rfl
  · rw [List.mem_singleton.1 hk]
    exact hset

end

/-! ### The index edge (R140) -/

section
variable {e : Nat} {s : State}

/-- An index edge acts on an input: in modes 1 and 3, and once in mode 2. -/
abbrev indexActs (e : Nat) (s : State) : Prop :=
  (vget (cfgNow s).enc e).indexMode = 1 ∨ (vget (cfgNow s).enc e).indexMode = 3 ∨
    (vget (cfgNow s).enc e).indexMode = 2 ∧ (vget s.gauge.enc e).rezeroArmed = true

/-- An input as an index edge leaves it. -/
def indexed (e : Nat) (s : State) : State :=
  setEnc e (fun x => { x with
    indexPos := x.position
    position := if (vget (cfgNow s).enc e).indexMode = 1 then x.position else (vget (cfgNow s).enc e).rezero
    rezeroArmed := false }) s

/-- With no axis homing, an index edge is the input's own matter. -/
theorem indexEdge_eq (hhome : ∀ a : Nat, a < 4 → (vget s.axes.ax a).home = none) :
    indexEdge e s = if (vget (cfgNow s).enc e).role = 0 then s else if indexActs e s then raise (0x386 + e) 0 0 (indexed e s) else s := by
  unfold indexEdge
  dsimp only
  rw [foldl_range_fixed fun a ha => by simp [hhome a ha]]
  rfl

theorem exec_indexEdge (he : e < 6) (t : Nat) (s : State) : exec (.indexEdge t e) s = runAt t s (indexEdge e) := by
  show runAt t s (if e < 6 then indexEdge e else id) = _
  rw [if_pos he]

theorem indexEdge_latches (he : e < 6) :
    Happens (.indexEdge · e)
      (fun s => up s ∧ (vget (cfgNow s).enc e).role ≠ 0 ∧ (∀ a : Nat, a < 4 → (vget s.axes.ax a).home = none) ∧ indexActs e s)
      (indexed e) [0x386 + e] noPuts := by
  refine happens_of (f := indexEdge e) (exec_indexEdge he) fun q _ _ hc => ?_
  obtain ⟨hup, hrole, hhome, hacts⟩ := hc
  rw [indexEdge_eq hhome, if_neg hrole, if_pos hacts]
  refine ⟨raise_frame _ _ _ _, rfl, rfl, fun k hk => ?_, List.nil_subset _⟩
  rw [List.mem_singleton.1 hk]
  exact raise_sets _ _ _ hup

theorem indexEdge_keeps (he : e < 6) :
    Happens (.indexEdge · e)
      (fun s => (∀ a : Nat, a < 4 → (vget s.axes.ax a).home = none) ∧
        ((vget (cfgNow s).enc e).indexMode = 0 ∨ (vget (cfgNow s).enc e).indexMode = 2 ∧ (vget s.gauge.enc e).rezeroArmed = false)) id [] noPuts := by
  refine happens_of (f := indexEdge e) (exec_indexEdge he) fun q _ _ hc => ?_
  obtain ⟨hhome, hmode⟩ := hc
  have hnot : ¬ indexActs e q := by
    rcases hmode with hoff | ⟨htwo, hdone⟩
    · simp [indexActs, hoff]
    · simp [indexActs, htwo, hdone]
  rw [indexEdge_eq hhome, if_neg hnot, ite_self]
  exact ⟨OutFrame.refl _, rfl, rfl, List.forall_mem_nil _, List.nil_subset _⟩

/-! ### Standstill (R150) -/

/-- An input that is still. -/
def stilled (e : Nat) (s : State) : State := setEnc e (fun x => { x with still := true }) s

/-- STILL_TIMEOUT has passed since the last count of an input. -/
def countsOver (e : Nat) (s : State) : Prop :=
  ∃ l, (vget s.gauge.enc e).lastCount = some l ∧ l + (vget (cfgNow s).enc e).stillTimeout * 1000 ≤ s.now

theorem stillTimeout_sets (hrole : (vget (cfgNow s).enc e).role ≠ 0) (hstill : (vget s.gauge.enc e).still = false) (hover : countsOver e s) :
    stillTimeout e s = if webEnc s = some e then raise 0x391 0 0 (stilled e s) else stilled e s := by
  obtain ⟨l, hlast, hpast⟩ := hover
  have hdue : (decide ((vget (cfgNow s).enc e).role ≠ 0) && !(vget s.gauge.enc e).still &&
      ((vget s.gauge.enc e).lastCount.any fun l => decide (l + (vget (cfgNow s).enc e).stillTimeout * 1000 ≤ s.now))) = true := by
    simp [hrole, hstill, hlast, hpast]
  exact if_pos hdue

/-- An input that is still stays as it is. -/
theorem stillTimeout_still (hstill : (vget s.gauge.enc e).still = true) : stillTimeout e s = stilled e s := by
  rw [stilled, setEnc_eq_self (by rw [← hstill])]
  simp [stillTimeout, hstill]

theorem exec_stillTimeout (he : e < 6) (t : Nat) (s : State) : exec (.stillTimeout t e) s = runAt t s (stillTimeout e) := by
  show runAt t s (if e < 6 then stillTimeout e else id) = _
  rw [if_pos he]

theorem stillTimeout_other (l : Nat) (he : e < 6) :
    Happens (.stillTimeout · e)
      (fun s => (vget (cfgNow s).enc e).role ≠ 0 ∧ webEnc s ≠ some e ∧ (vget s.gauge.enc e).lastCount = some l ∧
        l + (vget (cfgNow s).enc e).stillTimeout * 1000 ≤ s.now)
      (stilled e) [] noPuts := by
  refine happens_of (f := stillTimeout e) (exec_stillTimeout he) fun q _ _ hc => ?_
  obtain ⟨hrole, hother, hlast, hpast⟩ := hc
  have hrun : stillTimeout e q = stilled e q := by
    cases hstill : (vget q.gauge.enc e).still with
    | true => exact stillTimeout_still hstill
    | false => rw [stillTimeout_sets hrole hstill ⟨l, hlast, hpast⟩, if_neg hother]
  rw [hrun]
  exact ⟨OutFrame.refl _, rfl, rfl, List.forall_mem_nil _, List.nil_subset _⟩

theorem stillTimeout_web (l : Nat) (he : e < 6) :
    Happens (.stillTimeout · e)
      (fun s => up s ∧ (vget (cfgNow s).enc e).role ≠ 0 ∧ webEnc s = some e ∧ (vget s.gauge.enc e).still = false ∧
        (vget s.gauge.enc e).lastCount = some l ∧ l + (vget (cfgNow s).enc e).stillTimeout * 1000 ≤ s.now)
      (stilled e) [0x391] noPuts := by
  refine happens_of (f := stillTimeout e) (exec_stillTimeout he) fun q _ _ hc => ?_
  obtain ⟨hup, hrole, hweb, hstill, hlast, hpast⟩ := hc
  rw [stillTimeout_sets hrole hstill ⟨l, hlast, hpast⟩, if_pos hweb]
  refine ⟨raise_frame _ _ _ _, rfl, rfl, fun k hk => ?_, List.nil_subset _⟩
  rw [List.mem_singleton.1 hk]
  exact raise_sets _ _ _ hup

end

/-- Settles O27: each change of an input's lines, the index edge, and the standstill. -/
theorem encodersCount : Obligations.EncodersCount :=
  ⟨fun _ _ _ he => encoderCount_unused he, fun _ _ _ _ he => encoderCount_counts he, fun _ _ _ _ he => encoderCount_held he,
    fun _ _ _ _ he => encoderCount_web he, fun _ _ _ he => encoderCount_illegal he, fun _ _ _ he => encoderCount_faults he,
    fun _ he => indexEdge_latches he, fun _ he => indexEdge_keeps he, fun _ l he => stillTimeout_other l he, fun _ l he => stillTimeout_web l he⟩

end Sys2Proof.Machine

/-! ## Camera packets, lane quality and the relay (R191, R198, R210, R211, R215, R221, R222, R233, R235, R236, R238, Table 4-13, logs 124 and 128) -/

namespace Sys2Proof.Machine

/-! ### An event that changes tables, and raises at most one source -/

section
variable {i : Nat → Instr} {f new : State → State} {cond : State → Prop}

theorem happens_silently (hx : ∀ t s, exec (i t) s = runAt t s f) (hb : ∀ q, (new q).bench = q.bench) (hp : ∀ q, (new q).pending = q.pending)
    (h : ∀ q, cond q → f q = new q) : Happens i cond new [] noPuts := by
  refine happens_of hx fun q _ _ hc => ?_
  rw [h q hc]
  exact ⟨OutFrame.refl _, hb q, hp q, List.forall_mem_nil _, List.nil_subset _⟩

theorem happens_raising (src : Nat) (hx : ∀ t s, exec (i t) s = runAt t s f) (hb : ∀ q, (new q).bench = q.bench)
    (hp : ∀ q, (new q).pending = q.pending) (h : ∀ q, cond q → up (new q) ∧ f q = raise src 0 0 (new q)) :
    Happens i cond new [src] noPuts := by
  refine happens_of hx fun q _ _ hc => ?_
  obtain ⟨hup, hf⟩ := h q hc
  rw [hf]
  refine ⟨raise_frame _ _ _ _, hb q, hp q, fun k hk => ?_, List.nil_subset _⟩
  rw [List.mem_singleton.1 hk]
  exact raise_sets _ _ _ hup

end

/-! ### A stream packet that is not taken (R210, Table 4-13) -/

section
variable {slot : Nat} {p : StreamPkt} {s : State}

theorem streamPacket_down (hdown : connUp s slot = false) : streamPacket slot p s = s := by simp [streamPacket, hdown]

theorem readapting_idle (heye : s.links.eye = []) : readapting s slot = false := by simp [readapting, heye]

theorem streamPacket_badCrc (hconn : connUp s slot = true) (heye : s.links.eye = []) (hcrc : p.crcOk = false) :
    streamPacket slot p s = setLane p.link (fun l => { l with pktCrc := wrap32 (l.pktCrc + 1) }) s := by
  simp [streamPacket, hconn, readapting_idle heye, hcrc]

theorem streamPacket_otherStream (hconn : connUp s slot = true) (heye : s.links.eye = []) (hcrc : p.crcOk = true)
    (hid : p.streamId ≠ (vget (linkNow s slot).link slot).streamId) : streamPacket slot p s = countStreamErr slot s := by
  simp [streamPacket, hconn, readapting_idle heye, hcrc, hid]

end

/-! ### The reassembly window (R210, log 124) -/

theorem setStream_setStream (slot : Nat) (f g : StreamState → StreamState) (s : State) :
    setStream slot f (setStream slot g s) = setStream slot (fun x => f (g x)) s := setSlotLink_setSlotLink _ _ _ _

theorem setStream_self {slot : Nat} (hslot : slot < 24) (f : StreamState → StreamState) (s : State) :
    (vget (setStream slot f s).links.slots slot).stream = f (vget s.links.slots slot).stream :=
  congrArg SlotLink.stream (vget_vmod_self _ _ _ hslot)

theorem setStream_congr {slot : Nat} {f g : StreamState → StreamState} {s : State}
    (h : f (vget s.links.slots slot).stream = g (vget s.links.slots slot).stream) : setStream slot f s = setStream slot g s :=
  setSlotLink_congr (by rw [h])

theorem tagAhead_self (n : Nat) : tagAhead n n = 0 := by
  unfold tagAhead
  omega

/-- A packet as it waits in the window. -/
def windowed (p : StreamPkt) (s : State) : WindowPkt := { pkt := { p with tag := p.tag % 256 }, time := shortTime s }

/-- A packet put into the window of a slot. -/
def waiting (slot : Nat) (p : StreamPkt) (s : State) : State := setStream slot (fun t => { t with window := t.window ++ [windowed p s] }) s

/-- A slot's stream past a tag that has come. -/
def pastTag (slot n : Nat) (s : State) : State :=
  setStream slot (fun t => { t with nextTag := some ((n + 1) % 256), window := t.window.filter fun v => decide (v.pkt.tag % 256 ≠ n) }) s

section
variable {slot n : Nat} {p : StreamPkt} {s : State}

theorem moveWindow_inside (fuel : Nat) {tag : Nat} (hnext : (vget s.links.slots slot).stream.nextTag = some n) (hin : tagAhead tag n < 16) :
    moveWindow slot tag fuel s = s := by
  cases fuel with
  | zero => rfl
  | succ fuel => simp only [moveWindow, hnext, if_pos hin]

theorem drainWindow_waits (fuel : Nat) (hnext : (vget s.links.slots slot).stream.nextTag = some n)
    (hnone : (vget s.links.slots slot).stream.window.find? (fun w => decide (w.pkt.tag % 256 = n)) = none) : drainWindow slot fuel s = s := by
  cases fuel with
  | zero => rfl
  | succ fuel => simp only [drainWindow, hnext, hnone]

theorem drainWindow_takes (fuel : Nat) {w : WindowPkt} (hnext : (vget s.links.slots slot).stream.nextTag = some n)
    (hfound : (vget s.links.slots slot).stream.window.find? (fun w => decide (w.pkt.tag % 256 = n)) = some w) :
    drainWindow slot (fuel + 1) s = drainWindow slot fuel (takePacket slot w (pastTag slot n s)) := by
  simp only [drainWindow, hnext, hfound]
  rfl

/-- A packet inside a line, which neither starts nor ends one, adds its data to the line. -/
theorem takePacket_continues {w : WindowPkt} (hheader : w.pkt.header = none) (hfirst : w.pkt.first = false) (hlast : w.pkt.last = false)
    (hline : (vget s.links.slots slot).stream.lineStart.isSome = true) :
    takePacket slot w s = setStream slot (fun t => { t with lineData := t.lineData ++ w.pkt.data }) s := by
  simp [takePacket, hheader, hfirst, hlast, hline]

/-- A packet of the slot's stream, once the stream has begun: late, or put into the window, from which what follows on is taken. -/
theorem streamPacket_inStream (hconn : connUp s slot = true) (heye : s.links.eye = []) (hcrc : p.crcOk = true)
    (hid : p.streamId = (vget (linkNow s slot).link slot).streamId) (hnext : (vget s.links.slots slot).stream.nextTag = some n) :
    streamPacket slot p s =
      if 128 ≤ tagAhead (p.tag % 256) n then s else drainWindow slot 16 (waiting slot p (moveWindow slot (p.tag % 256) 128 s)) := by
  have hcomes : ¬ (!connUp s slot || readapting s slot) = true := by simp [hconn, readapting_idle heye]
  have hgood : ¬ (!p.crcOk) = true := by simp [hcrc]
  unfold streamPacket
  rw [if_neg hcomes, if_neg hgood, if_neg (not_not.2 hid)]
  simp only [hnext, Option.isNone_some, Bool.false_eq_true, if_false]
  rfl

theorem streamPacket_inWindow (hconn : connUp s slot = true) (heye : s.links.eye = []) (hcrc : p.crcOk = true)
    (hid : p.streamId = (vget (linkNow s slot).link slot).streamId) (hnext : (vget s.links.slots slot).stream.nextTag = some n)
    (hin : tagAhead (p.tag % 256) n < 16) : streamPacket slot p s = drainWindow slot 16 (waiting slot p s) := by
  rw [streamPacket_inStream hconn heye hcrc hid hnext, if_neg (by omega), moveWindow_inside 128 hnext hin]

/-- The stream of a slot whose window was empty, with one packet in it. -/
theorem waiting_stream (hslot : slot < 24) (hempty : (vget s.links.slots slot).stream.window = []) :
    (vget (waiting slot p s).links.slots slot).stream = { (vget s.links.slots slot).stream with window := [windowed p s] } := by
  rw [waiting, setStream_self hslot, hempty, List.nil_append]

/-- A packet ahead of the next tag waits. -/
theorem drainWindow_ahead (fuel : Nat) (hslot : slot < 24) (hempty : (vget s.links.slots slot).stream.window = [])
    (hnext : (vget s.links.slots slot).stream.nextTag = some n) (hahead : p.tag % 256 ≠ n) :
    drainWindow slot fuel (waiting slot p s) = waiting slot p s := by
  refine drainWindow_waits (n := n) fuel ?_ ?_
  · rw [waiting_stream hslot hempty, hnext]
  · rw [waiting_stream hslot hempty]
    simp [windowed, hahead]

/-- The packet with the next tag is taken, and the window is empty again. -/
theorem drainWindow_inOrder (fuel : Nat) (hslot : slot < 24) (hempty : (vget s.links.slots slot).stream.window = [])
    (hnext : (vget s.links.slots slot).stream.nextTag = some n) (htag : p.tag % 256 = n) (hheader : p.header = none) (hfirst : p.first = false)
    (hlast : p.last = false) (hline : (vget s.links.slots slot).stream.lineStart.isSome = true) :
    drainWindow slot (fuel + 1) (waiting slot p s) =
      setStream slot (fun t => { t with nextTag := some ((n + 1) % 256), lineData := t.lineData ++ p.data }) s := by
  have hmod : p.tag % 256 % 256 = n := by omega
  have hstream := waiting_stream (p := p) hslot hempty
  have hpast : pastTag slot n (waiting slot p s) = setStream slot (fun t => { t with nextTag := some ((n + 1) % 256) }) s := by
    rw [pastTag, waiting, setStream_setStream]
    refine setStream_congr ?_
    simp [hempty, windowed, hmod]
  rw [drainWindow_takes (n := n) (w := windowed p s) fuel, hpast, takePacket_continues hheader hfirst hlast, setStream_setStream,
    drainWindow_waits (n := (n + 1) % 256) fuel]
  · rfl
  · rw [setStream_self hslot]
  · rw [setStream_self hslot, hempty]
    rfl
  · rwa [setStream_self hslot]
  · rw [hstream, hnext]
  · rw [hstream]
    simp [windowed, hmod]

end

/-! ### Stream packets (R210, Table 4-13) -/

section
variable {slot : Nat} {p : StreamPkt}

theorem streamPacket_silently {cond : State → Prop} {new : State → State} (hb : ∀ q, (new q).bench = q.bench)
    (hp : ∀ q, (new q).pending = q.pending) (h : ∀ q, cond q → up q ∧ streamPacket slot p q = new q) :
    Happens (.streamPacket · slot p) cond new [] noPuts :=
  happens_silently (f := onFabric [] (streamPacket slot p)) (fun _ _ => rfl) hb hp fun q hc => by
    rw [onFabric_up _ (h q hc).1 (List.forall_mem_nil _), (h q hc).2]

theorem streamPacket_ignored : Happens (.streamPacket · slot p) (fun s => up s ∧ connUp s slot = false) id [] noPuts :=
  streamPacket_silently (fun _ => rfl) (fun _ => rfl) fun _ hc => ⟨hc.1, streamPacket_down hc.2⟩

theorem streamPacket_countsCrc (hcrc : p.crcOk = false) :
    Happens (.streamPacket · slot p) (fun s => up s ∧ connUp s slot = true ∧ s.links.eye = [])
      (setLane p.link fun l => { l with pktCrc := wrap32 (l.pktCrc + 1) }) [] noPuts :=
  streamPacket_silently (fun _ => rfl) (fun _ => rfl) fun q hc => by
    obtain ⟨hup, hconn, heye⟩ := hc
    exact ⟨hup, streamPacket_badCrc hconn heye hcrc⟩

theorem streamPacket_countsStream (hcrc : p.crcOk = true) :
    Happens (.streamPacket · slot p)
      (fun s => up s ∧ connUp s slot = true ∧ s.links.eye = [] ∧ p.streamId ≠ (vget (linkNow s slot).link slot).streamId)
      (setSlotLink slot fun x => { x with streamErr := wrap32 (x.streamErr + 1) }) [] noPuts := by
  refine happens_up (f := streamPacket slot p) (parts := []) (fun _ _ => rfl) (fun _ hc => ⟨hc.1, List.forall_mem_nil _⟩) fun q _ _ hc => ?_
  obtain ⟨-, hconn, heye, hid⟩ := hc
  rw [streamPacket_otherStream hconn heye hcrc hid]
  exact ⟨raiseOnce_frame _ _ _ _, rfl, rfl, List.forall_mem_nil _, List.nil_subset _⟩

theorem streamPacket_late (n : Nat) (hcrc : p.crcOk = true) :
    Happens (.streamPacket · slot p)
      (fun s => up s ∧ connUp s slot = true ∧ s.links.eye = [] ∧ p.streamId = (vget (linkNow s slot).link slot).streamId ∧
        (vget s.links.slots slot).stream.nextTag = some n ∧ 128 ≤ tagAhead (p.tag % 256) n) id [] noPuts :=
  streamPacket_silently (fun _ => rfl) (fun _ => rfl) fun q hc => by
    obtain ⟨hup, hconn, heye, hid, hnext, hlate⟩ := hc
    exact ⟨hup, (streamPacket_inStream hconn heye hcrc hid hnext).trans (if_pos hlate)⟩

theorem streamPacket_waits (n : Nat) (hcrc : p.crcOk = true) (hslot : slot < 24) :
    Happens (.streamPacket · slot p)
      (fun s => up s ∧ connUp s slot = true ∧ s.links.eye = [] ∧ p.streamId = (vget (linkNow s slot).link slot).streamId ∧
        (vget s.links.slots slot).stream.nextTag = some n ∧ 0 < tagAhead (p.tag % 256) n ∧ tagAhead (p.tag % 256) n < 16 ∧
        (vget s.links.slots slot).stream.window = [] ∧ n < 256)
      (fun s => setSlotLink slot (fun x => { x with stream := { x.stream with window := [windowed p s] } }) s) [] noPuts :=
  streamPacket_silently (fun _ => rfl) (fun _ => rfl) fun q hc => by
    obtain ⟨hup, hconn, heye, hid, hnext, hahead, hin, hempty, -⟩ := hc
    have hne : p.tag % 256 ≠ n := by
      rintro rfl
      exact hahead.ne' (tagAhead_self _)
    have hone : waiting slot p q = setStream slot (fun t => { t with window := [windowed p q] }) q :=
      setStream_congr (by rw [hempty, List.nil_append])
    exact ⟨hup, by rw [streamPacket_inWindow hconn heye hcrc hid hnext hin, drainWindow_ahead 16 hslot hempty hnext hne, hone]; rfl⟩

theorem streamPacket_continues (n : Nat) (hcrc : p.crcOk = true) (hslot : slot < 24) :
    Happens (.streamPacket · slot p)
      (fun s => up s ∧ connUp s slot = true ∧ s.links.eye = [] ∧ p.streamId = (vget (linkNow s slot).link slot).streamId ∧
        (vget s.links.slots slot).stream.nextTag = some n ∧ p.tag % 256 = n ∧ p.header = none ∧ p.first = false ∧ p.last = false ∧
        (vget s.links.slots slot).stream.window = [] ∧ (vget s.links.slots slot).stream.lineStart.isSome = true)
      (fun s => setSlotLink slot (fun x => { x with stream := { x.stream with
        nextTag := some ((n + 1) % 256), lineData := x.stream.lineData ++ p.data } }) s) [] noPuts :=
  streamPacket_silently (fun _ => rfl) (fun _ => rfl) fun q hc => by
    obtain ⟨hup, hconn, heye, hid, hnext, htag, hheader, hfirst, hlast, hempty, hline⟩ := hc
    have hin : tagAhead (p.tag % 256) n < 16 := by
      rw [htag, tagAhead_self]
      decide
    refine ⟨hup, ?_⟩
    rw [streamPacket_inWindow hconn heye hcrc hid hnext hin, drainWindow_inOrder 15 hslot hempty hnext htag hheader hfirst hlast hline]
    rfl

end

/-! ### Camera event packets (R215, R238) -/

theorem OutFrame.linkNow {a b : State} (h : OutFrame a b) (slot : Nat) : linkNow b slot = linkNow a slot := by
  unfold Machine.linkNow
  rw [h.glue, h.running]

theorem OutFrame.cfgAt {a b : State} (h : OutFrame a b) (line : Nat) : cfgAt b line = cfgAt a line := by
  unfold Machine.cfgAt
  rw [h.glue, h.prev, h.running]

theorem OutFrame.stripAt {a b : State} (h : OutFrame a b) (line : Nat) : stripAt b line = stripAt a line := by
  unfold Machine.stripAt
  rw [h.cfgAt]

theorem OutFrame.stripEnd {a b : State} (h : OutFrame a b) (line : Nat) : stripEnd b line = stripEnd a line := by
  unfold Machine.stripEnd
  rw [h.cfgAt]

theorem OutFrame.withScribe {a b : State} (h : OutFrame a b) (x : Scribe) : OutFrame { a with scribe := x } { b with scribe := x } := by
  unfold OutFrame at *
  rw [h]

/-- A slot with one more event packet. -/
abbrev eventCounted (slot : Nat) (s : State) : State := setSlotLink slot (fun x => { x with eventPkt := wrap32 (x.eventPkt + 1) }) s

/-- A slot with one more event packet, and its event raised. -/
abbrev eventRaised (slot : Nat) (s : State) : State := raise (0x098 + slot) 0 0 (eventCounted slot s)

section
variable {slot : Nat} {s : State}

theorem eventRaised_frame : OutFrame (eventCounted slot s) (eventRaised slot s) := raise_frame _ _ _ _

theorem eventRaised_sets (hup : up s) : ∀ k ∈ [0x098 + slot], bitOf (eventRaised slot s).host.evt.pending k = true := by
  intro k hk
  rw [List.mem_singleton.1 hk]
  exact raise_sets _ _ _ hup

theorem eventRaised_linkNow : linkNow (eventRaised slot s) slot = linkNow s slot := eventRaised_frame.linkNow slot

theorem eventRaised_scribe : (eventRaised slot s).scribe = s.scribe := eventRaised_frame.scribe

theorem eventRaised_stripAt (line : Nat) : stripAt (eventRaised slot s) line = stripAt s line := eventRaised_frame.stripAt line

theorem eventRaised_stripEnd (line : Nat) : stripEnd (eventRaised slot s) line = stripEnd s line := eventRaised_frame.stripEnd line

end

section
variable {slot : Nat} (eventId ns time : Nat) (data : Bytes)

/-- The record of an event packet, for EVENT_QUEUE and a strip. -/
def eventItem (slot q strip lastLine : Nat) : ScribeItem :=
  { kind := .camEvent, queue := q, strip := strip, lastLine := lastLine, slot := slot, body := camEventBody strip slot eventId ns time data }

theorem cameraEventPacket_unqueued (hslot : slot < 24) :
    Happens (.cameraEventPacket · slot eventId ns time data) (fun s => up s ∧ (vget (linkNow s slot).link slot).eventQueue = none)
      (eventCounted slot) [0x098 + slot] noPuts := by
  refine happens_up (parts := []) (fun _ _ => rfl) (fun _ hc => ⟨hc.1, List.forall_mem_nil _⟩) fun q _ _ hc => ?_
  obtain ⟨hup, hnone⟩ := hc
  simp only [if_neg (Nat.not_le.2 hslot), eventRaised_linkNow, hnone]
  exact ⟨eventRaised_frame, rfl, rfl, eventRaised_sets hup, List.nil_subset _⟩

/-- With a line of the slot behind it, the packet is recorded for the strip of that line. -/
theorem cameraEventPacket_inStrip (q line : Nat) (hslot : slot < 24) :
    Happens (.cameraEventPacket · slot eventId ns time data)
      (fun s => up s ∧ (vget (linkNow s slot).link slot).eventQueue = some q ∧ vget s.scribe.slotLine slot = some line)
      (fun s => { eventCounted slot s with scribe := { s.scribe with
        inbox := s.scribe.inbox ++ [eventItem eventId ns time data slot q (stripAt s line) (stripEnd s line)] } })
      [0x098 + slot] noPuts := by
  refine happens_up (parts := []) (fun _ _ => rfl) (fun _ hc => ⟨hc.1, List.forall_mem_nil _⟩) fun s _ _ hc => ?_
  obtain ⟨hup, hqueue, hline⟩ := hc
  simp only [if_neg (Nat.not_le.2 hslot), eventRaised_linkNow, hqueue, eventRaised_scribe, hline, eventRaised_stripAt, eventRaised_stripEnd]
  exact ⟨eventRaised_frame.withScribe _, rfl, rfl, eventRaised_sets hup, List.nil_subset _⟩

/-- Before the slot's first line, the packet is held for the strip of the next line. -/
theorem cameraEventPacket_held (q : Nat) (hslot : slot < 24) :
    Happens (.cameraEventPacket · slot eventId ns time data)
      (fun s => up s ∧ (vget (linkNow s slot).link slot).eventQueue = some q ∧ vget s.scribe.slotLine slot = none)
      (fun s => { eventCounted slot s with scribe := { s.scribe with camHeld := s.scribe.camHeld ++ [eventItem eventId ns time data slot q 0 0] } })
      [0x098 + slot] noPuts := by
  refine happens_up (parts := []) (fun _ _ => rfl) (fun _ hc => ⟨hc.1, List.forall_mem_nil _⟩) fun s _ _ hc => ?_
  obtain ⟨hup, hqueue, hnone⟩ := hc
  simp only [if_neg (Nat.not_le.2 hslot), eventRaised_linkNow, hqueue, eventRaised_scribe, hnone]
  exact ⟨eventRaised_frame.withScribe _, rfl, rfl, eventRaised_sets hup, List.nil_subset _⟩

end

/-! ### Lane quality (R221, R222) -/

section
variable {lane : Nat} (steps errs : Nat)

theorem setLane_setLane (f g : Lane → Lane) (s : State) : setLane lane f (setLane lane g s) = setLane lane (fun l => f (g l)) s := by
  unfold setLane
  simp only [vmod_vmod]

theorem laneQualityUpdate_warns (hlane : lane < 96) :
    Happens (.laneQualityUpdate · lane steps errs)
      (fun s => up s ∧ eyeWidth steps < laneQualWarn s lane ∧ (vget s.links.lanes lane).warned = false)
      (setLane lane fun l => { l with quality := eyeWidth steps, codeErr := wrap32 (l.codeErr + errs), warned := true })
      [if lane < 48 then 0x0C8 + lane else 0x0F8 + laneConn lane] noPuts := by
  refine happens_raising _ (fun t s => execLaneQualityUpdate.eq_def t lane steps errs s) (fun _ => rfl) (fun _ => rfl) fun s hc => ?_
  obtain ⟨hup, hbelow, hfresh⟩ := hc
  refine ⟨hup, ?_⟩
  simp only [if_neg (Nat.not_le.2 hlane), if_pos hbelow, hfresh, Bool.false_eq_true, if_false, setLane_setLane]

/-- Below QUAL_WARN after its event, or between the two thresholds, the quality and the count are all that changes. -/
theorem laneQualityUpdate_keeps (hlane : lane < 96) :
    Happens (.laneQualityUpdate · lane steps errs)
      (fun s => eyeWidth steps < laneQualWarn s lane ∧ (vget s.links.lanes lane).warned = true ∨
        laneQualWarn s lane ≤ eyeWidth steps ∧ eyeWidth steps ≤ laneQualWarn s lane + 50)
      (setLane lane fun l => { l with quality := eyeWidth steps, codeErr := wrap32 (l.codeErr + errs) }) [] noPuts := by
  refine happens_silently (fun t s => execLaneQualityUpdate.eq_def t lane steps errs s) (fun _ => rfl) (fun _ => rfl) fun s hc => ?_
  rcases hc with ⟨hbelow, hwarned⟩ | ⟨habove, hwithin⟩
  · simp only [if_neg (Nat.not_le.2 hlane), if_pos hbelow, hwarned, if_true]
  · simp only [if_neg (Nat.not_le.2 hlane), if_neg (Nat.not_lt.2 habove), if_neg (Nat.not_lt.2 hwithin)]

theorem laneQualityUpdate_rearms (hlane : lane < 96) :
    Happens (.laneQualityUpdate · lane steps errs) (fun s => laneQualWarn s lane + 50 < eyeWidth steps)
      (setLane lane fun l => { l with quality := eyeWidth steps, codeErr := wrap32 (l.codeErr + errs), warned := false }) [] noPuts := by
  refine happens_silently (fun t s => execLaneQualityUpdate.eq_def t lane steps errs s) (fun _ => rfl) (fun _ => rfl) fun s hc => ?_
  have habove : ¬ eyeWidth steps < laneQualWarn s lane := by omega
  simp only [if_neg (Nat.not_le.2 hlane), if_neg habove, if_pos hc, setLane_setLane]

end

/-! ### The relay and the TH input lanes (R233, R235, R236, R238) -/

section
variable {conn : Nat}

theorem relayLock_measures (delay : Nat) :
    Happens (.relayLock · conn delay) (fun _ => True)
      (setThrough conn fun x => { x with relayLocked := true, relayDelay := some (x.relayDelay.getD delay) }) [] noPuts :=
  happens_silently (fun _ _ => rfl) (fun _ => rfl) (fun _ => rfl) fun _ _ => rfl

theorem thInputLockLoss_counts {lane : Nat} (hconn : conn < 2) (hlane : lane < 24) :
    Happens (.thInputLockLoss · conn lane) (fun s => up s ∧ laneLocked (48 + 24 * conn + lane) s = true)
      (fun s => setThrough conn (fun x => { x with inLockLoss := wrap32 (x.inLockLoss + 1) })
        (setLane (48 + 24 * conn + lane) (fun l => { l with locked := false, lockLoss := wrap32 (l.lockLoss + 1) }) s)) [0x0F8 + conn] noPuts :=
  happens_raising _ (fun t s => execThInputLockLoss.eq_def t conn lane s) (fun _ => rfl) (fun _ => rfl) fun _ hc =>
    ⟨hc.1, if_pos ⟨hconn, hlane, hc.2⟩⟩

theorem relayCharacterRx_relays {ch : Nat} (hconn : conn < 2) (hch : ch ≠ 0x13C) :
    Happens (.relayCharacterRx · conn [some ch]) (fun s => (vget s.links.through conn).relaySource = true) id []
      (fun s => [.relayChar (24 * conn) ch ((vget s.links.through conn).relayDelay.getD 0)]) := by
  refine happens_of (fun t s => execRelayCharacterRx.eq_def t conn [some ch] s) fun s _ _ hsource => ?_
  simp only [if_neg (Nat.not_le.2 hconn), List.take, List.zipIdx, List.foldl, hsource, hch, ne_eq, not_false_eq_true, decide_true,
    Bool.and_self, if_true]
  exact ⟨out_frame _ _, rfl, rfl, List.forall_mem_nil _, List.subset_append_right _ _⟩

theorem relayCharacterRx_countsInvalid (hconn : conn < 2) :
    Happens (.relayCharacterRx · conn [none]) (fun _ => True) (setThrough conn fun x => { x with relayCharErr := wrap32 (x.relayCharErr + 1) })
      [] noPuts :=
  happens_silently (fun t s => execRelayCharacterRx.eq_def t conn [none] s) (fun _ => rfl) (fun _ => rfl) fun _ _ => if_neg (Nat.not_le.2 hconn)

end

/-- Settles O26: each fate of a stream packet (log 124: tags count modulo 256), the three of a camera event packet, the thresholds of lane
quality (log 128: those of a TH input lane, and the invalid characters counted with an update), and the relay. -/
theorem packetsLanesAndRelay : Obligations.PacketsLanesAndRelay :=
  ⟨fun _ _ => streamPacket_ignored, fun _ _ hcrc => streamPacket_countsCrc hcrc, fun _ _ hcrc => streamPacket_countsStream hcrc,
    fun _ n _ hcrc => streamPacket_late n hcrc, fun _ n _ hcrc hslot => streamPacket_waits n hcrc hslot,
    fun _ n _ hcrc hslot => streamPacket_continues n hcrc hslot,
    fun _ id_ ns time data hslot => cameraEventPacket_unqueued id_ ns time data hslot,
    fun _ id_ ns time data q line hslot => cameraEventPacket_inStrip id_ ns time data q line hslot,
    fun _ id_ ns time data q hslot => cameraEventPacket_held id_ ns time data q hslot,
    fun _ steps errs hlane => laneQualityUpdate_warns steps errs hlane, fun _ steps errs hlane => laneQualityUpdate_keeps steps errs hlane,
    fun _ steps errs hlane => laneQualityUpdate_rearms steps errs hlane, fun _ delay => relayLock_measures delay,
    fun _ _ hconn hlane => thInputLockLoss_counts hconn hlane, fun _ _ hconn hch => relayCharacterRx_relays hconn hch,
    fun _ hconn => relayCharacterRx_countsInvalid hconn⟩

end Sys2Proof.Machine

/-! ## Ingest: tags that time out, lines without a tag, and the Bench write of a line or its gap (R245 to R265, R699) -/

namespace Sys2Proof.Machine

/-! ### An event that writes to the Bench -/

/-- The Bench with runs of bytes still outstanding behind those it holds. -/
def outstanding (ws : List (Nat × Bytes)) (s : State) : State := { s with bench := { s.bench with writes := s.bench.writes ++ ws } }

theorem OutFrame.outstanding {a b : State} (h : OutFrame a b) (ws : List (Nat × Bytes)) : OutFrame (outstanding ws a) (outstanding ws b) := by
  unfold OutFrame at *
  rw [h]
  rfl

theorem OutFrame.setSlotIngest {a b : State} (h : OutFrame a b) (slot : Nat) (f : SlotIngest → SlotIngest) :
    OutFrame (setSlotIngest slot f a) (setSlotIngest slot f b) := by
  unfold OutFrame at *
  rw [h]
  rfl

theorem outstanding_outstanding (ws vs : List (Nat × Bytes)) (s : State) : outstanding ws (outstanding vs s) = outstanding (vs ++ ws) s := by
  unfold outstanding
  simp only [List.append_assoc]

/-- What stood outstanding as a command ended is written by its commit. -/
theorem commit_outstanding {q n r : State} {ws : List (Nat × Bytes)} (hi : q.Inv) (hn : Settled q n) (h : OutFrame (outstanding ws n) r) :
    OutFrame (written ws n) (commit q r) := by
  have hmem : memNow { r.bench with mem := q.bench.mem } = applyWrites n.bench.mem ws := by
    rw [h.bench]
    show applyWrites (emptyRanges q.bench.mem n.bench.emptied) (n.bench.writes ++ ws) = _
    rw [hn.emptied, hn.writes, hi.emptied, hi.writes, hn.mem]
    rfl
  have hbench : { r.bench with mem := applyWrites n.bench.mem ws, writes := [], emptied := [] } = (written ws n).bench := by
    rw [h.bench, ← hi.writes, ← hi.emptied, ← hn.writes, ← hn.emptied]
    rfl
  unfold commit
  rw [hmem, hbench, ← hn.pending]
  unfold OutFrame at *
  rw [h]
  rfl

/-- A unit of the fabric whose effect leaves writes outstanding: they are done when the event is over. -/
theorem happens_writing {i : Nat → Instr} {f new : State → State} {ws : State → List (Nat × Bytes)} {parts : List Nat} {cond : State → Prop}
    {evs : List Nat} (hx : ∀ t s, exec (i t) s = runFabric t parts s f) (hu : ∀ q, cond q → up q ∧ ∀ k ∈ parts, partUp q k = true)
    (h : ∀ q : State, cond q → OutFrame (outstanding (ws q) (new q)) (f q) ∧ Settled q (new q) ∧ ∀ e ∈ evs, bitOf (f q).host.evt.pending e = true) :
    Happens i cond (fun s => written (ws s) (new s)) evs noPuts := by
  intro t s hi hc
  obtain ⟨hup, hparts⟩ := hu (tick t s) hc
  obtain ⟨hframe, hsettled, hevs⟩ := h (tick t s) hc
  refine ⟨commit (tick t s) (f (tick t s)), ?_, rfl, commit_outstanding (tick_inv t hi) hsettled hframe, hevs, List.nil_subset _⟩
  rw [hx, runFabric, runAt, onFabric_up f hup hparts]

theorem onFabric_idle {parts : List Nat} {f : State → State} {s : State} (h : f s = s) : onFabric parts f s = s := by
  unfold onFabric
  rw [h, ite_self]

/-- A unit of the fabric that finds nothing to do. -/
theorem happens_idle {i : Nat → Instr} {f : State → State} {parts : List Nat} {cond : State → Prop}
    (hx : ∀ t s, exec (i t) s = runFabric t parts s f) (h : ∀ q, cond q → f q = q) : Happens i cond id [] noPuts :=
  happens_silently (f := onFabric parts f) hx (fun _ => rfl) (fun _ => rfl) fun q hc => onFabric_idle (h q hc)

/-! ### Events of Table 5-8 (R274) -/

section
variable (strip src : Nat) (s : State)

theorem raiseOnceIn_frame : OutFrame s (raiseOnceIn strip src 0 0 s) := by
  unfold raiseOnceIn
  split
  · rfl
  · exact (raise_frame _ _ _ _).after rfl

variable {strip src s}

theorem raiseOnceIn_sets (hup : up s) (hfirst : firstIn src strip s) : bitOf (raiseOnceIn strip src 0 0 s).host.evt.pending src = true := by
  rw [raiseOnceIn, if_neg hfirst]
  exact raise_sets _ _ _ hup

theorem raiseOnceIn_keeps {k : Nat} (h : bitOf s.host.evt.pending k = true) : bitOf (raiseOnceIn strip src 0 0 s).host.evt.pending k = true := by
  unfold raiseOnceIn
  split
  · exact h
  · exact raise_keeps _ _ _ h

end

/-! ### One slot's table -/

theorem setSlotIngest_congr {slot : Nat} {f g : SlotIngest → SlotIngest} {s : State}
    (h : f (vget s.ingest.slots slot) = g (vget s.ingest.slots slot)) :
    setSlotIngest slot f s = setSlotIngest slot g s := by
  unfold setSlotIngest vmod
  rw [h]

theorem setSlotIngest_setSlotIngest (slot : Nat) (f g : SlotIngest → SlotIngest) (s : State) :
    setSlotIngest slot f (setSlotIngest slot g s) = setSlotIngest slot (fun x => f (g x)) s := by
  unfold setSlotIngest
  simp only [vmod_vmod]

theorem setSlotIngest_self {slot : Nat} (hslot : slot < 24) (f : SlotIngest → SlotIngest) (s : State) :
    vget (setSlotIngest slot f s).ingest.slots slot = f (vget s.ingest.slots slot) := vget_vmod_self _ _ _ hslot

/-! ### What placing a line of a slot depends on -/

/-- Two states agree in all that places a line of a slot in its ring: the configurations, the lines triggered, the ring's layout, how far its
readers are, and how far the slot's written tags reach. -/
structure SamePlacing (slot : Nat) (a b : State) : Prop where
  glue : b.glue = a.glue
  prev : b.prev = a.prev
  running : b.running = a.running
  spans : b.spans = a.spans
  plane : b.plane = a.plane
  dovetail : b.dovetail = a.dovetail
  layout : b.ingest.layout = a.ingest.layout
  relaid : (vget b.ingest.slots slot).relaid = (vget a.ingest.slots slot).relaid
  nextReady : (vget b.ingest.slots slot).nextReady = (vget a.ingest.slots slot).nextReady
  holes : (vget b.ingest.slots slot).holes = (vget a.ingest.slots slot).holes
  written : (vget b.ingest.slots slot).written = (vget a.ingest.slots slot).written

/-- What a line tag needs to be written at once, and to be all that the slot's ready point sees of it: no statistics, a ring whose position is
free, and a ready point that waits at another line. -/
structure TakesTag (slot line : Nat) (s : State) : Prop where
  unmeasured : statsOn s slot line = false
  free : positionFree s slot line = true
  ring : (layoutAt s slot).depth ≠ 0
  held : readyHeld slot line s

namespace SamePlacing
variable {slot : Nat} {a b c : State}

theorem trans (h : SamePlacing slot a b) (h' : SamePlacing slot b c) : SamePlacing slot a c :=
  ⟨h'.glue.trans h.glue, h'.prev.trans h.prev, h'.running.trans h.running, h'.spans.trans h.spans, h'.plane.trans h.plane,
    h'.dovetail.trans h.dovetail, h'.layout.trans h.layout, h'.relaid.trans h.relaid, h'.nextReady.trans h.nextReady, h'.holes.trans h.holes,
    h'.written.trans h.written⟩

theorem of_frame (h : OutFrame a b) : SamePlacing slot a b := by
  have hslots := congrArg (fun i => vget i.slots slot) h.ingest
  exact ⟨h.glue, h.prev, h.running, h.spans, h.plane, h.dovetail, congrArg _ h.ingest, congrArg _ hslots, congrArg _ hslots, congrArg _ hslots,
    congrArg _ hslots⟩

theorem of_outstanding (ws : List (Nat × Bytes)) (s : State) : SamePlacing slot s (outstanding ws s) :=
  ⟨rfl, rfl, rfl, rfl, rfl, rfl, rfl, rfl, rfl, rfl, rfl⟩

/-- Entries, outstanding tags, tags that wait and counters have no part in it. -/
theorem of_setSlotIngest (hslot : slot < 24) (f : SlotIngest → SlotIngest) (s : State)
    (hf : ∀ x, (f x).relaid = x.relaid ∧ (f x).nextReady = x.nextReady ∧ (f x).holes = x.holes ∧ (f x).written = x.written) :
    SamePlacing slot s (setSlotIngest slot f s) := by
  obtain ⟨hrelaid, hready, hholes, hwritten⟩ := hf (vget s.ingest.slots slot)
  refine ⟨rfl, rfl, rfl, rfl, rfl, rfl, rfl, ?_, ?_, ?_, ?_⟩ <;> rw [setSlotIngest_self hslot] <;> assumption

variable (h : SamePlacing slot a b) (line field : Nat)
include h

theorem cfgAt : cfgAt b line = cfgAt a line := by
  unfold Machine.cfgAt
  rw [h.glue, h.prev, h.running]

theorem stripAt : stripAt b line = stripAt a line := by
  unfold Machine.stripAt
  rw [h.cfgAt]

theorem layoutAt : layoutAt b slot = layoutAt a slot := by
  unfold Machine.layoutAt
  rw [h.layout]

theorem tagPlace : tagPlace slot line field b = tagPlace slot line field a := by
  unfold Machine.tagPlace
  rw [h.layoutAt]

theorem inSpans : inSpans b line = inSpans a line := by
  unfold Machine.inSpans
  rw [h.spans]

theorem lineAfter : lineAfter b line = lineAfter a line := by
  unfold Machine.lineAfter
  simp only [h.inSpans, h.spans]

theorem statsOn : statsOn b slot line = statsOn a slot line := by
  unfold Machine.statsOn planeCfgAt
  rw [h.cfgAt, h.layoutAt]

theorem lineReleased : lineReleased b slot line = lineReleased a slot line := by
  unfold Machine.lineReleased
  simp only [h.cfgAt, h.inSpans, h.relaid, h.plane, h.dovetail]

theorem positionFree : positionFree b slot line = positionFree a slot line := by
  unfold Machine.positionFree
  simp only [h.layoutAt, h.lineReleased]

theorem passOver : passOver b slot line = passOver a slot line := by
  unfold Machine.passOver
  simp only [h.inSpans, h.lineAfter, h.holes]

theorem lineWritten : lineWritten b slot line = lineWritten a slot line := by
  unfold Machine.lineWritten
  rw [h.cfgAt, h.written]

theorem readyHeld (hheld : readyHeld slot line a) : readyHeld slot line b := by
  obtain ⟨c, hready, hne, hpass, hopen⟩ := hheld
  exact ⟨c, h.nextReady.trans hready, hne, (h.passOver c).trans hpass, (h.lineWritten c).trans hopen⟩

theorem takesTag (ht : TakesTag slot line a) : TakesTag slot line b :=
  ⟨(h.statsOn line).trans ht.unmeasured, (h.positionFree line).trans ht.free, by rw [h.layoutAt]; exact ht.ring, h.readyHeld line ht.held⟩

end SamePlacing

/-! ### The ready point, and the end of a tag as a gap (R244 to R266) -/

/-- A slot with one more tag written past its ready point. -/
abbrev tagWritten (slot line field code : Nat) (s : State) : State :=
  setSlotIngest slot (fun x => { x with written := x.written ++ [(line, field, code)] }) s

/-- The source of Table 5-8 that reports a gap; the slot is added. -/
def gapSource : GapCause → Option Nat
  | .buffer | .deadline => some 0x100
  | .missing | .noLink => some 0x118
  | _ => none

/-- The line tag of a gap. -/
def gapBytes (t : TrigTag) (cause : GapCause) : Bytes := lineTagBytes t 0 0 (gapCode cause) 0 false false false true

/-- A slot with one more gap of a cause. -/
abbrev gapCounted (slot : Nat) (cause : GapCause) (s : State) : State := setSlotIngest slot (fun x => { x with cnt := countGap cause x.cnt }) s

/-- A gap of a tag, counted and reported. -/
def gapReported (t : TrigTag) (cause : GapCause) (src : Nat) (s : State) : State :=
  raiseOnceIn (stripAt (gapCounted t.slot cause s) t.line) (src + t.slot) 0 0 (gapCounted t.slot cause s)

section
variable {slot line field : Nat} {s : State}

/-- A written tag of another line leaves a ready point that waits where it is. -/
theorem lineWritten_tagWritten (hslot : slot < 24) {c : Nat} (code : Nat) (hne : c ≠ line) :
    lineWritten (tagWritten slot line field code s) slot c = lineWritten s slot c := by
  have hcfg : cfgAt (tagWritten slot line field code s) c = cfgAt s c := rfl
  unfold lineWritten
  simp only [hcfg, setSlotIngest_self hslot, List.any_append, List.any_cons, List.any_nil, Ne.symm hne, decide_false, Bool.false_and, Bool.or_false]

theorem settleReady_waits {c : Nat} (hready : (vget s.ingest.slots slot).nextReady = some c) (hpass : passOver s slot c = c)
    (hopen : lineWritten s slot c = false) : settleReady slot s = s := by
  have hsame : setSlotIngest slot (fun x => { x with nextReady := some c }) s = s := by
    unfold setSlotIngest
    rw [vmod_eq_self (by rw [← hready])]
  unfold settleReady advanceReady
  simp only [hready, hpass, hopen, Bool.false_eq_true, if_false, if_true, hsame]

theorem markWritten_held (hslot : slot < 24) (code : Nat) (hheld : readyHeld slot line s) :
    markWritten slot line field code s = tagWritten slot line field code s := by
  obtain ⟨c, hready, hne, hpass, hopen⟩ := hheld
  refine settleReady_waits (c := c) ?_ ?_ ((lineWritten_tagWritten hslot code hne).trans hopen)
  · rw [setSlotIngest_self hslot, hready]
  · have hsame : passOver (tagWritten slot line field code s) slot c = passOver s slot c := by
      unfold passOver
      simp only [setSlotIngest_self hslot]
      rfl
    exact hsame.trans hpass

theorem ringWriteTag_inRing (bytes : Bytes) (hring : (layoutAt s slot).depth ≠ 0) :
    ringWriteTag slot line field bytes s = outstanding [(tagPlace slot line field s, bytes)] s := if_neg hring

/-- A tag is written to the ring and taken into the slot's table, and the ready point waits. -/
theorem markWritten_ringWriteTag (hslot : slot < 24) (code : Nat) (bytes : Bytes) (hring : (layoutAt s slot).depth ≠ 0)
    (hheld : readyHeld slot line s) :
    markWritten slot line field code (ringWriteTag slot line field bytes s) =
      tagWritten slot line field code (outstanding [(tagPlace slot line field s, bytes)] s) := by
  rw [ringWriteTag_inRing bytes hring, markWritten_held hslot code ((SamePlacing.of_outstanding _ s).readyHeld line hheld)]

theorem ringWriteSamples_inRing {t : TrigTag} (row : Bytes) (hring : (layoutAt s t.slot).depth ≠ 0) :
    ringWriteSamples t row s = outstanding [(samplePlace t.slot t.line t.field s, row)] s := if_neg hring

end

section
variable {t : TrigTag} {cause : GapCause} {src : Nat} {s : State}

theorem gapReported_frame (t : TrigTag) (cause : GapCause) (src : Nat) (s : State) :
    OutFrame (gapCounted t.slot cause s) (gapReported t cause src s) := raiseOnceIn_frame _ _ _

theorem gapReported_placing (hslot : t.slot < 24) : SamePlacing t.slot s (gapReported t cause src s) :=
  (SamePlacing.of_setSlotIngest hslot (fun x => { x with cnt := countGap cause x.cnt }) s fun _ => ⟨rfl, rfl, rfl, rfl⟩).trans
    (.of_frame (gapReported_frame t cause src s))

/-- A gap that is reported, and not measured, is written or waits. -/
theorem gapTag_reported (hslot : t.slot < 24) (hsrc : gapSource cause = some src) (hstats : statsOn s t.slot t.line = false) :
    gapTag t cause s =
      if positionFree s t.slot t.line then
        markWritten t.slot t.line t.field (gapCode cause) (ringWriteTag t.slot t.line t.field (gapBytes t cause) (gapReported t cause src s))
      else setSlotIngest t.slot (fun x => { x with gapsWaiting := x.gapsWaiting ++ [(t.line, t.field, gapBytes t cause)] })
        (gapReported t cause src s) := by
  have hplace := gapReported_placing (cause := cause) (src := src) (s := s) hslot
  have hunmeasured : statsOn (gapReported t cause src s) t.slot t.line = false := (hplace.statsOn t.line).trans hstats
  rw [← hplace.positionFree t.line]
  unfold gapReported at hunmeasured ⊢
  unfold gapTag gapBytes
  cases cause <;> cases hsrc
  all_goals
    simp only [reduceCtorEq, if_false]
    rw [if_neg (Bool.eq_false_iff.1 hunmeasured)]

/-- Its position held, the line tag of a gap waits. -/
theorem gapTag_waits (hslot : t.slot < 24) (hsrc : gapSource cause = some src) (hstats : statsOn s t.slot t.line = false)
    (hpos : positionFree s t.slot t.line = false) :
    gapTag t cause s = setSlotIngest t.slot (fun x => { x with gapsWaiting := x.gapsWaiting ++ [(t.line, t.field, gapBytes t cause)] })
      (gapReported t cause src s) := by
  rw [gapTag_reported hslot hsrc hstats, if_neg (Bool.eq_false_iff.1 hpos)]

/-- Its position free, the line tag of a gap is written. -/
theorem gapTag_written (hslot : t.slot < 24) (hsrc : gapSource cause = some src) (ht : TakesTag t.slot t.line s) :
    gapTag t cause s = tagWritten t.slot t.line t.field (gapCode cause)
      (outstanding [(tagPlace t.slot t.line t.field s, gapBytes t cause)] (gapReported t cause src s)) := by
  have hplace := gapReported_placing (cause := cause) (src := src) (s := s) hslot
  have ht' := hplace.takesTag t.line ht
  rw [gapTag_reported hslot hsrc ht.unmeasured, if_pos ht.free, markWritten_ringWriteTag hslot _ _ ht'.ring ht'.held, hplace.tagPlace]

/-- What a gap leaves of the slot's table where its line tag waits. -/
abbrev gapWaiting (t : TrigTag) (cause : GapCause) (s : State) : State :=
  setSlotIngest t.slot (fun x => { x with
    cnt := countGap cause x.cnt, gapsWaiting := x.gapsWaiting ++ [(t.line, t.field, gapBytes t cause)] }) s

/-- What it leaves where its line tag is written. -/
abbrev gapInRing (t : TrigTag) (cause : GapCause) (s : State) : State :=
  setSlotIngest t.slot (fun x => { x with cnt := countGap cause x.cnt, written := x.written ++ [(t.line, t.field, gapCode cause)] }) s

theorem gapTag_waits_frame (hslot : t.slot < 24) (hsrc : gapSource cause = some src) (hstats : statsOn s t.slot t.line = false)
    (hpos : positionFree s t.slot t.line = false) : OutFrame (gapWaiting t cause s) (gapTag t cause s) := by
  have h := (gapReported_frame t cause src s).setSlotIngest t.slot
    fun x => { x with gapsWaiting := x.gapsWaiting ++ [(t.line, t.field, gapBytes t cause)] }
  rwa [setSlotIngest_setSlotIngest, ← gapTag_waits hslot hsrc hstats hpos] at h

theorem gapTag_written_frame (hslot : t.slot < 24) (hsrc : gapSource cause = some src) (ht : TakesTag t.slot t.line s) :
    OutFrame (outstanding [(tagPlace t.slot t.line t.field s, gapBytes t cause)] (gapInRing t cause s)) (gapTag t cause s) := by
  have h := ((gapReported_frame t cause src s).setSlotIngest t.slot
    fun x => { x with written := x.written ++ [(t.line, t.field, gapCode cause)] }).outstanding [(tagPlace t.slot t.line t.field s, gapBytes t cause)]
  rw [setSlotIngest_setSlotIngest] at h
  rwa [gapTag_written hslot hsrc ht]

theorem gapTag_waits_host (hslot : t.slot < 24) (hsrc : gapSource cause = some src) (hstats : statsOn s t.slot t.line = false)
    (hpos : positionFree s t.slot t.line = false) : (gapTag t cause s).host = (gapReported t cause src s).host := by
  rw [gapTag_waits hslot hsrc hstats hpos]
  rfl

theorem gapTag_written_host (hslot : t.slot < 24) (hsrc : gapSource cause = some src) (ht : TakesTag t.slot t.line s) :
    (gapTag t cause s).host = (gapReported t cause src s).host := by
  rw [gapTag_written hslot hsrc ht]
  rfl

theorem gapReported_sets (hup : up s) (hfirst : firstIn (src + t.slot) (stripAt s t.line) s) :
    bitOf (gapReported t cause src s).host.evt.pending (src + t.slot) = true :=
  raiseOnceIn_sets (s := gapCounted t.slot cause s) hup hfirst

theorem gapReported_keeps {k : Nat} (h : bitOf s.host.evt.pending k = true) : bitOf (gapReported t cause src s).host.evt.pending k = true :=
  raiseOnceIn_keeps (s := gapCounted t.slot cause s) h

end

/-! ### Tags that time out (R245) -/

/-- The cause of a gap whose tag is past LAT_MAX. -/
abbrev missCause (slot : Nat) (s : State) : GapCause := if connUp s slot then .missing else .noLink

theorem gapSource_missCause (slot : Nat) (s : State) : gapSource (missCause slot s) = some 0x118 := by
  unfold missCause
  split <;> rfl

theorem gapCode_missCause (slot : Nat) (s : State) : gapCode (missCause slot s) = if connUp s slot then 4 else 5 := apply_ite gapCode _ _ _

theorem gapBytes_missCause (t : TrigTag) (slot : Nat) (s : State) :
    gapBytes t (missCause slot s) = lineTagBytes t 0 0 (if connUp s slot then 4 else 5) 0 false false false true := by
  rw [gapBytes, gapCode_missCause]

/-- The slot of a tag without it. -/
abbrev tagEnded (o : OutTag) (s : State) : State := setSlotIngest o.tag.slot (fun x => { x with outstanding := x.outstanding.erase o }) s

section
variable {slot : Nat} {o : OutTag} {s : State}

theorem expireTags_young (h : ∀ o ∈ (vget s.ingest.slots slot).outstanding,
    latencyTo (shortTime s) (tagTime s o.tag) ≤ ((planeCfgAt s slot o.tag.line).latMax : Int)) : expireTags slot (shortTime s) s = s := by
  have hnone : (vget s.ingest.slots slot).outstanding.filter (fun o =>
      decide (((planeCfgAt s slot o.tag.line).latMax : Int) < latencyTo (shortTime s) (tagTime s o.tag))) = [] :=
    List.filter_eq_nil_iff.2 fun o ho => by simpa using h o ho
  rw [expireTags, hnone, List.foldl_nil]

theorem expireTags_single (hout : (vget s.ingest.slots slot).outstanding = [o])
    (hlate : ((planeCfgAt s slot o.tag.line).latMax : Int) < latencyTo (shortTime s) (tagTime s o.tag)) :
    expireTags slot (shortTime s) s = gapTag o.tag (missCause o.tag.slot s) (tagEnded o s) := by
  simp only [expireTags, hout, List.filter_cons, hlate, decide_true, if_true, List.filter_nil, List.foldl_cons, List.foldl_nil, missTag]
  rfl

theorem tagEnded_placing (hslot : o.tag.slot < 24) : SamePlacing o.tag.slot s (tagEnded o s) :=
  .of_setSlotIngest hslot (fun x => { x with outstanding := x.outstanding.erase o }) s fun _ => ⟨rfl, rfl, rfl, rfl⟩

theorem setSlotIngest_tagEnded (hout : (vget s.ingest.slots o.tag.slot).outstanding = [o]) (f : SlotIngest → SlotIngest) :
    setSlotIngest o.tag.slot f (tagEnded o s) = setSlotIngest o.tag.slot (fun x => f { x with outstanding := [] }) s := by
  rw [setSlotIngest_setSlotIngest]
  refine setSlotIngest_congr ?_
  rw [hout, List.erase_cons_head]

end

section
variable {slot : Nat}

theorem tagTimeout_keepsYoung : Happens (.tagTimeout · slot)
    (fun s => ∀ o ∈ (vget s.ingest.slots slot).outstanding, latencyTo (shortTime s) (tagTime s o.tag) ≤ ((planeCfgAt s slot o.tag.line).latMax : Int))
    id [] noPuts :=
  happens_idle (f := fun s => expireTags slot (shortTime s) s) (parts := []) (fun _ _ => rfl) fun _ hc => expireTags_young hc

theorem tagTimeout_gapWaits {o : OutTag} (hslot : slot < 24) (htag : o.tag.slot = slot) : Happens (.tagTimeout · slot)
    (fun s => up s ∧ (vget s.ingest.slots slot).outstanding = [o] ∧
      ((planeCfgAt s slot o.tag.line).latMax : Int) < latencyTo (shortTime s) (tagTime s o.tag) ∧
      statsOn s slot o.tag.line = false ∧ positionFree s slot o.tag.line = false ∧ firstIn (0x118 + slot) (stripAt s o.tag.line) s)
    (fun s => setSlotIngest slot (fun x => { x with
      outstanding := []
      cnt := countGap (if connUp s slot then .missing else .noLink) x.cnt
      gapsWaiting := x.gapsWaiting ++ [(o.tag.line, o.tag.field, lineTagBytes o.tag 0 0 (if connUp s slot then 4 else 5) 0 false false false true)] }) s)
    [0x118 + slot] noPuts := by
  subst htag
  refine happens_up (parts := []) (fun _ _ => rfl) (fun _ hc => ⟨hc.1, List.forall_mem_nil _⟩) fun q _ _ hc => ?_
  obtain ⟨hup, hout, hlate, hstats, hpos, hfirst⟩ := hc
  have hplace := tagEnded_placing (o := o) (s := q) hslot
  have hstats' := (hplace.statsOn o.tag.line).trans hstats
  have hpos' := (hplace.positionFree o.tag.line).trans hpos
  have hsrc := gapSource_missCause o.tag.slot q
  have hframe := gapTag_waits_frame hslot hsrc hstats' hpos'
  rw [gapWaiting, setSlotIngest_tagEnded hout, gapBytes_missCause] at hframe
  rw [expireTags_single hout hlate]
  refine ⟨hframe, rfl, rfl, List.forall_mem_singleton.2 ?_, List.nil_subset _⟩
  rw [gapTag_waits_host hslot hsrc hstats' hpos']
  exact gapReported_sets (s := tagEnded o q) hup hfirst

theorem tagTimeout_gapWritten {o : OutTag} (hslot : slot < 24) (htag : o.tag.slot = slot) : Happens (.tagTimeout · slot)
    (fun s => up s ∧ (vget s.ingest.slots slot).outstanding = [o] ∧
      ((planeCfgAt s slot o.tag.line).latMax : Int) < latencyTo (shortTime s) (tagTime s o.tag) ∧ readyHeld slot o.tag.line s ∧
      statsOn s slot o.tag.line = false ∧ positionFree s slot o.tag.line = true ∧ (layoutAt s slot).depth ≠ 0 ∧
      firstIn (0x118 + slot) (stripAt s o.tag.line) s)
    (fun s => written [(tagPlace slot o.tag.line o.tag.field s, lineTagBytes o.tag 0 0 (if connUp s slot then 4 else 5) 0 false false false true)]
      (setSlotIngest slot (fun x => { x with
        outstanding := []
        cnt := countGap (if connUp s slot then .missing else .noLink) x.cnt
        written := x.written ++ [(o.tag.line, o.tag.field, if connUp s slot then 4 else 5)] }) s))
    [0x118 + slot] noPuts := by
  subst htag
  refine happens_writing (parts := []) (fun _ _ => rfl) (fun _ hc => ⟨hc.1, List.forall_mem_nil _⟩) fun q hc => ?_
  obtain ⟨hup, hout, hlate, hheld, hstats, hpos, hring, hfirst⟩ := hc
  have hplace := tagEnded_placing (o := o) (s := q) hslot
  have ht := hplace.takesTag o.tag.line ⟨hstats, hpos, hring, hheld⟩
  have hsrc := gapSource_missCause o.tag.slot q
  have hframe := gapTag_written_frame hslot hsrc ht
  rw [gapInRing, setSlotIngest_tagEnded hout, gapBytes_missCause, gapCode_missCause, hplace.tagPlace] at hframe
  rw [expireTags_single hout hlate]
  refine ⟨hframe, ⟨rfl, rfl, rfl, rfl, rfl⟩, List.forall_mem_singleton.2 ?_⟩
  rw [gapTag_written_host hslot hsrc ht]
  exact gapReported_sets (s := tagEnded o q) hup hfirst

end

/-! ### Lines of a passive module without a tag (R247, R699) -/

section
variable {slot : Nat}

theorem unmatchedLineWait_drops {e : LineEntry} {rest : List LineEntry} : Happens (.unmatchedLineWait · slot)
    (fun s => up s ∧ (vget s.ingest.slots slot).unmatched = e :: rest ∧ 2000 ≤ sdiff32 (shortTime s) e.start ∧ firstIn (0x118 + slot) (currentStrip s) s)
    (setSlotIngest slot fun x => { x with unmatched := rest, cnt := { x.cnt with untriggered := wrap32 (x.cnt.untriggered + 1) } })
    [0x118 + slot] noPuts := by
  refine happens_up (parts := []) (fun _ _ => rfl) (fun _ hc => ⟨hc.1, List.forall_mem_nil _⟩) fun q _ _ hc => ?_
  obtain ⟨hup, hwaits, hold, hfirst⟩ := hc
  have hdrop : setSlotIngest slot (fun x => { x with unmatched := x.unmatched.drop 1 }) q =
      setSlotIngest slot (fun x => { x with unmatched := rest }) q :=
    setSlotIngest_congr (by rw [hwaits, List.drop_one, List.tail_cons])
  simp only [hwaits, List.head?_cons, if_pos hold, hdrop, countUntriggered]
  rw [setSlotIngest_setSlotIngest]
  exact ⟨raiseOnceIn_frame _ _ _, rfl, rfl, List.forall_mem_singleton.2 (raiseOnceIn_sets hup hfirst), List.nil_subset _⟩

theorem unmatchedLineWait_keepsYoung : Happens (.unmatchedLineWait · slot)
    (fun s => ∀ e ∈ (vget s.ingest.slots slot).unmatched.head?, sdiff32 (shortTime s) e.start < 2000) id [] noPuts := by
  refine happens_idle (parts := []) (fun _ _ => rfl) fun q hc => ?_
  cases hhead : (vget q.ingest.slots slot).unmatched.head? with
  | none => rfl
  | some e => exact if_neg (Int.not_le.2 (hc e hhead))

/-! ### The Bench write of a line begins (R253, R255) -/

theorem ingestLineWrite_begins {e : LineEntry} {g : TrigTag} : Happens (.ingestLineWrite · slot)
    (fun s => up s ∧ partUp s (slot / 2) = true ∧ nextToWrite s (slot / 2) = some (slot, e) ∧ e.tag = some g ∧ positionFree s slot g.line = true)
    (setSlotIngest slot fun x => { x with entries := x.entries.map fun y => if y = e then { y with writing := true } else y }) [] noPuts := by
  refine happens_up (f := beginWrite slot) (parts := [slot / 2]) (fun _ _ => rfl) (fun _ hc => ⟨hc.1, List.forall_mem_singleton.2 hc.2.1⟩)
    fun q _ _ hc => ?_
  obtain ⟨-, -, hnext, htag, hpos⟩ := hc
  simp only [beginWrite, hnext, htag, hpos, and_self, if_true]
  exact ⟨.refl _, rfl, rfl, List.forall_mem_nil _, List.nil_subset _⟩

theorem ingestLineWrite_idle : Happens (.ingestLineWrite · slot) (fun s => nextToWrite s (slot / 2) = none) id [] noPuts :=
  happens_idle (f := beginWrite slot) (fun _ _ => rfl) fun q hc => by simp only [beginWrite, hc]

end

/-! ### The last write of a line (R253, R261, R265) -/

/-- The counters of a slot after a line that is no longer than WIDTH, and whose tag was the oldest. -/
def lineCounted (short : Bool) (c : IngestCounters) : IngestCounters :=
  { c with
    linesWritten := wrap32 (c.linesWritten + 1)
    short := wrap32 (c.short + (if short then 1 else 0))
    long := wrap32 c.long
    fieldSkew := wrap32 c.fieldSkew }

/-- The counters that a line may add to have the 32 bits of Table 5-7. -/
structure CountsFit (c : IngestCounters) : Prop where
  short : c.short < 2 ^ 32
  long : c.long < 2 ^ 32
  fieldSkew : c.fieldSkew < 2 ^ 32

theorem lineCounted_whole {c : IngestCounters} (h : CountsFit c) : lineCounted false c = { c with linesWritten := wrap32 (c.linesWritten + 1) } := by
  simp only [lineCounted, wrap32, Bool.false_eq_true, if_false, Nat.add_zero, Nat.mod_eq_of_lt h.short, Nat.mod_eq_of_lt h.long,
    Nat.mod_eq_of_lt h.fieldSkew]

theorem lineCounted_short {c : IngestCounters} (h : CountsFit c) :
    lineCounted true c = { c with linesWritten := wrap32 (c.linesWritten + 1), short := wrap32 (c.short + 1) } := by
  simp only [lineCounted, wrap32, if_true, Nat.mod_eq_of_lt h.long, Nat.mod_eq_of_lt h.fieldSkew]

/-- The samples of a line and its line tag, where they go. -/
def lineRuns (e : LineEntry) (g : TrigTag) (short : Bool) (s : State) : List (Nat × Bytes) :=
  [(samplePlace g.slot g.line g.field s, lineRow s g e.codes),
    (tagPlace g.slot g.line g.field s, lineTagBytes g e.start e.codes.length 0 e.rfield short false false false)]

/-- A slot whose line has gone to the ring: the entry is free and the line counted. -/
def lineStored (e : LineEntry) (g : TrigTag) (short : Bool) (s : State) : State :=
  setSlotIngest g.slot (fun x => { x with entries := x.entries.erase e, cnt := lineCounted short x.cnt }) (outstanding (lineRuns e g short s) s)

/-- A line that is SHORT is reported. -/
def lineReported (e : LineEntry) (g : TrigTag) (short : Bool) (s : State) : State :=
  if short then raiseOnceIn (stripAt s g.line) (0x130 + g.slot) 0 0 (lineStored e g short s) else lineStored e g short s

section
variable {e : LineEntry} {g : TrigTag} {short : Bool} {s : State}

theorem lineReported_frame (e : LineEntry) (g : TrigTag) (short : Bool) (s : State) :
    OutFrame (lineStored e g short s) (lineReported e g short s) := by
  unfold lineReported
  split
  · exact raiseOnceIn_frame _ _ _
  · rfl

theorem lineStored_placing (hslot : g.slot < 24) : SamePlacing g.slot s (lineStored e g short s) :=
  (SamePlacing.of_outstanding _ s).trans
    (.of_setSlotIngest hslot (fun x => { x with entries := x.entries.erase e, cnt := lineCounted short x.cnt }) _ fun _ => ⟨rfl, rfl, rfl, rfl⟩)

theorem lineReported_placing (hslot : g.slot < 24) : SamePlacing g.slot s (lineReported e g short s) :=
  (lineStored_placing hslot).trans (.of_frame (lineReported_frame e g short s))

theorem finishWrite_stores (hslot : g.slot < 24) (hfind : (vget s.ingest.slots g.slot).entries.find? (fun e => e.writing && e.arrived) = some e)
    (htag : e.tag = some g) (hskew : e.skew = false) (hshort : decide (e.codes.length < (linkCfgAt s g.slot g.line).width) = short)
    (hlong : e.codes.length ≤ (linkCfgAt s g.slot g.line).width) (hstats : statsOn s g.slot g.line = false) (hring : (layoutAt s g.slot).depth ≠ 0)
    (hheld : readyHeld g.slot g.line s) :
    finishWrite g.slot s = tagWritten g.slot g.line g.field 0 (lineReported e g short s) := by
  have hplace := lineReported_placing (e := e) (short := short) (s := s) hslot
  have hruns : ringWriteTag g.slot g.line g.field (lineTagBytes g e.start e.codes.length 0 e.rfield short false false false)
      (ringWriteSamples g (lineRow s g e.codes) s) = outstanding (lineRuns e g short s) s := by
    rw [ringWriteSamples_inRing _ hring, ringWriteTag_inRing (s := outstanding _ s) _ hring, outstanding_outstanding]
    rfl
  have hunmeasured : ¬ statsOn (lineReported e g short s) g.slot g.line = true := by
    rw [hplace.statsOn, hstats]
    exact Bool.false_ne_true
  have hnotLong : decide ((linkCfgAt s g.slot g.line).width < e.codes.length) = false := decide_eq_false (Nat.not_lt.2 hlong)
  rw [← markWritten_held hslot 0 (hplace.readyHeld g.line hheld)]
  unfold finishWrite
  simp only [hfind, htag, hshort, hnotLong, hskew, hruns, Bool.or_false, Bool.false_eq_true, if_false]
  exact congrArg _ (if_neg hunmeasured)

theorem finishWrite_frame (h : finishWrite g.slot s = tagWritten g.slot g.line g.field 0 (lineReported e g short s)) :
    OutFrame (outstanding (lineRuns e g short s) (setSlotIngest g.slot (fun x => { x with
      entries := x.entries.erase e, cnt := lineCounted short x.cnt, written := x.written ++ [(g.line, g.field, 0)] }) s)) (finishWrite g.slot s) := by
  have hframe := (lineReported_frame e g short s).setSlotIngest g.slot fun x => { x with written := x.written ++ [(g.line, g.field, 0)] }
  rw [lineStored, setSlotIngest_setSlotIngest] at hframe
  rwa [h]

theorem finishWrite_none {slot : Nat} (h : ∀ e ∈ (vget s.ingest.slots slot).entries, e.writing = false) : finishWrite slot s = s := by
  have hnone : (vget s.ingest.slots slot).entries.find? (fun e => e.writing && e.arrived) = none :=
    List.find?_eq_none.2 fun e he => by simp [h e he]
  simp only [finishWrite, hnone]

end

section
variable {slot : Nat} {e : LineEntry} {g : TrigTag}

/-- The clause of O30 for a line of WIDTH pixels, wherever the slot's counters have their 32 bits. -/
theorem ingestWriteComplete_writesWhole (hslot : slot < 24) (htag : e.tag = some g) (hg : g.slot = slot) (hskew : e.skew = false) :
    Happens (.ingestWriteComplete · slot)
      (fun s => CountsFit (vget s.ingest.slots slot).cnt ∧ up s ∧ partUp s (slot / 2) = true ∧
        (vget s.ingest.slots slot).entries.find? (fun e => e.writing && e.arrived) = some e ∧
        e.codes.length = (linkCfgAt s slot g.line).width ∧ statsOn s slot g.line = false ∧ (layoutAt s slot).depth ≠ 0 ∧ readyHeld slot g.line s)
      (fun s => written [(samplePlace slot g.line g.field s, lineRow s g e.codes),
          (tagPlace slot g.line g.field s, lineTagBytes g e.start e.codes.length 0 e.rfield false false false false)]
        (setSlotIngest slot (fun x => { x with
          entries := x.entries.erase e
          cnt := { x.cnt with linesWritten := wrap32 (x.cnt.linesWritten + 1) }
          written := x.written ++ [(g.line, g.field, 0)] }) s)) [] noPuts := by
  subst hg
  refine happens_writing (f := finishWrite g.slot) (parts := [g.slot / 2]) (fun _ _ => rfl)
    (fun _ hc => ⟨hc.2.1, List.forall_mem_singleton.2 hc.2.2.1⟩) fun q hc => ?_
  obtain ⟨hfit, -, -, hfind, hlen, hstats, hring, hheld⟩ := hc
  have hframe := finishWrite_frame
    (finishWrite_stores hslot hfind htag hskew (decide_eq_false hlen.not_lt) hlen.le hstats hring hheld)
  rw [setSlotIngest_congr (g := fun x => { x with
    entries := x.entries.erase e, cnt := { x.cnt with linesWritten := wrap32 (x.cnt.linesWritten + 1) }
    written := x.written ++ [(g.line, g.field, 0)] }) (by simp only [lineCounted_whole hfit])] at hframe
  exact ⟨hframe, ⟨rfl, rfl, rfl, rfl, rfl⟩, List.forall_mem_nil _⟩

/-- The clause of O30 for a SHORT line, wherever the slot's counters have their 32 bits. -/
theorem ingestWriteComplete_writesShort (hslot : slot < 24) (htag : e.tag = some g) (hg : g.slot = slot) (hskew : e.skew = false) :
    Happens (.ingestWriteComplete · slot)
      (fun s => CountsFit (vget s.ingest.slots slot).cnt ∧ up s ∧ partUp s (slot / 2) = true ∧
        (vget s.ingest.slots slot).entries.find? (fun e => e.writing && e.arrived) = some e ∧
        e.codes.length < (linkCfgAt s slot g.line).width ∧ statsOn s slot g.line = false ∧ (layoutAt s slot).depth ≠ 0 ∧ readyHeld slot g.line s ∧
        firstIn (0x130 + slot) (stripAt s g.line) s)
      (fun s => written [(samplePlace slot g.line g.field s, lineRow s g e.codes),
          (tagPlace slot g.line g.field s, lineTagBytes g e.start e.codes.length 0 e.rfield true false false false)]
        (setSlotIngest slot (fun x => { x with
          entries := x.entries.erase e
          cnt := { x.cnt with linesWritten := wrap32 (x.cnt.linesWritten + 1), short := wrap32 (x.cnt.short + 1) }
          written := x.written ++ [(g.line, g.field, 0)] }) s)) [0x130 + slot] noPuts := by
  subst hg
  refine happens_writing (f := finishWrite g.slot) (parts := [g.slot / 2]) (fun _ _ => rfl)
    (fun _ hc => ⟨hc.2.1, List.forall_mem_singleton.2 hc.2.2.1⟩) fun q hc => ?_
  obtain ⟨hfit, hup, -, hfind, hlen, hstats, hring, hheld, hfirst⟩ := hc
  have hstores := finishWrite_stores hslot hfind htag hskew (decide_eq_true hlen) hlen.le hstats hring hheld
  have hframe := finishWrite_frame hstores
  rw [setSlotIngest_congr (g := fun x => { x with
    entries := x.entries.erase e, cnt := { x.cnt with linesWritten := wrap32 (x.cnt.linesWritten + 1), short := wrap32 (x.cnt.short + 1) }
    written := x.written ++ [(g.line, g.field, 0)] }) (by simp only [lineCounted_short hfit])] at hframe
  refine ⟨hframe, ⟨rfl, rfl, rfl, rfl, rfl⟩, List.forall_mem_singleton.2 ?_⟩
  rw [hstores]
  exact raiseOnceIn_sets (s := lineStored e g true q) hup hfirst

theorem ingestWriteComplete_idle :
    Happens (.ingestWriteComplete · slot) (fun s => ∀ e ∈ (vget s.ingest.slots slot).entries, e.writing = false) id [] noPuts :=
  happens_idle (f := finishWrite slot) (fun _ _ => rfl) fun _ hc => finishWrite_none hc

end

/-! ### A write that misses its deadline (R257, R547, R548) -/

theorem sendMsix_evOnce (v : Nat) (s : State) : (sendMsix v s).evOnce = s.evOnce := by
  unfold sendMsix
  simp only
  repeat' split
  all_goals rfl

theorem signalVector_evOnce (v : Nat) (s : State) : (signalVector v s).evOnce = s.evOnce := by
  unfold signalVector
  split
  · exact sendMsix_evOnce _ _
  · rfl

theorem writeEvent_evOnce (src : Nat) (a b : Int) (t : Nat) (s : State) : (writeEvent src a b t s).evOnce = s.evOnce := by
  unfold writeEvent
  simp only
  repeat' split
  all_goals rfl

theorem raise_evOnce (src : Nat) (a b : Int) (s : State) : (raise src a b s).evOnce = s.evOnce := by
  unfold raise deliverEvent latchEvent
  simp only
  repeat' split
  any_goals rfl
  rw [signalVector_evOnce, writeEvent_evOnce]

/-- What one source has raised in a strip keeps no other from being raised. -/
theorem firstIn_raiseOnceIn {src other strip n : Nat} {s : State} (hne : other ≠ src) (h : firstIn src n s) :
    firstIn src n (raiseOnceIn strip other 0 0 s) := by
  unfold raiseOnceIn
  split
  · exact h
  · rwa [firstIn, raise_evOnce, sget_sset_ne _ _ _ _ hne]

/-- The controller counts a missed deadline on the slot's port, and withdraws the line's requests. -/
def missCounted (slot : Nat) (g : TrigTag) (s : State) : State :=
  setPort (slot / 4) (fun x => { x with misses := wrap32 (x.misses + 1) }) { s with bench := { s.bench with ctl := s.bench.ctl.map fun c => { c with
    pending := c.pending.filter fun r => !(decide (r.port = slot / 4) && decide (r.slot = slot) && decide (r.line = g.line)) } } }

/-- It reports the miss. -/
def missReported (slot : Nat) (g : TrigTag) (s : State) : State := raiseOnce (0x360 + slot / 4) 0 0 (missCounted slot g s)

/-- The part of a line's samples that stands in the ring as the line is abandoned: how much of it is free. -/
def leftRow (e : LineEntry) (g : TrigTag) (s : State) : Bytes :=
  (lineRow s g e.codes).take (Config.freeValue s.free % ((lineRow s g e.codes).length + 1))

/-- A line abandoned: its entry is free, and part of its samples may stand in the ring. -/
def lineAbandoned (e : LineEntry) (g : TrigTag) (s : State) : State :=
  setSlotIngest g.slot (fun x => { x with entries := x.entries.erase e })
    (outstanding [(samplePlace g.slot g.line g.field s, leftRow e g s)] { s with free := s.free + 1 })

section
variable {e : LineEntry} {g : TrigTag} {s : State}

theorem missReported_frame (slot : Nat) (g : TrigTag) (s : State) : OutFrame (missCounted slot g s) (missReported slot g s) := raiseOnce_frame _ _ _ _

theorem missReported_sets (hup : up s) (hmiss : firstIn (0x360 + g.slot / 4) (currentStrip s) s) :
    bitOf (missReported g.slot g s).host.evt.pending (0x360 + g.slot / 4) = true := by
  unfold missReported
  exact raiseOnceIn_sets (s := missCounted g.slot g s) hup hmiss

theorem missReported_firstIn {src strip : Nat} (hsrc : 0x360 + g.slot / 4 ≠ src) (h : firstIn src strip s) :
    firstIn src strip (missReported g.slot g s) := by
  unfold missReported
  exact firstIn_raiseOnceIn (s := missCounted g.slot g s) hsrc h

theorem missReported_placing : SamePlacing g.slot s (missReported g.slot g s) :=
  SamePlacing.trans (b := missCounted g.slot g s) ⟨rfl, rfl, rfl, rfl, rfl, rfl, rfl, rfl, rfl, rfl, rfl⟩ (.of_frame (missReported_frame g.slot g s))

theorem lineAbandoned_host : (lineAbandoned e g s).host = s.host := rfl
theorem lineAbandoned_hf : (lineAbandoned e g s).hf = s.hf := rfl
theorem lineAbandoned_evOnce : (lineAbandoned e g s).evOnce = s.evOnce := rfl

theorem lineAbandoned_placing (hslot : g.slot < 24) : SamePlacing g.slot s (lineAbandoned e g s) :=
  SamePlacing.trans (b := outstanding [(samplePlace g.slot g.line g.field s, leftRow e g s)] { s with free := s.free + 1 })
    ⟨rfl, rfl, rfl, rfl, rfl, rfl, rfl, rfl, rfl, rfl, rfl⟩
    (.of_setSlotIngest hslot (fun x => { x with entries := x.entries.erase e }) _ fun _ => ⟨rfl, rfl, rfl, rfl⟩)

theorem abandonWrite_arrived (hfind : (vget s.ingest.slots g.slot).entries.find? (·.writing) = some e) (htag : e.tag = some g)
    (harrived : e.arrived = true) (hring : (layoutAt s g.slot).depth ≠ 0) : abandonWrite g.slot s = gapTag g .deadline (lineAbandoned e g s) := by
  unfold abandonWrite
  simp only [hfind, htag, harrived, if_true, freshValue]
  rw [ringWriteSamples_inRing (s := { s with free := s.free + 1 }) _ hring]
  rfl

/-- The gap of an abandoned line, with the part of the line that went before its line tag. -/
theorem gapInRing_lineAbandoned (place : Nat) (bytes : Bytes) :
    outstanding [(place, bytes)] (gapInRing g .deadline (lineAbandoned e g s)) =
      outstanding [(samplePlace g.slot g.line g.field s, leftRow e g s), (place, bytes)] (setSlotIngest g.slot (fun x => { x with
        entries := x.entries.erase e, cnt := countGap .deadline x.cnt, written := x.written ++ [(g.line, g.field, 2)] })
        { s with free := s.free + 1 }) := by
  rw [gapInRing, lineAbandoned, setSlotIngest_setSlotIngest]
  exact outstanding_outstanding _ _ (setSlotIngest g.slot _ { s with free := s.free + 1 })

theorem missDeadline_arrived (hfind : (vget s.ingest.slots g.slot).entries.find? (·.writing) = some e) (htag : e.tag = some g)
    (harrived : e.arrived = true) (hring : (layoutAt s g.slot).depth ≠ 0) :
    missDeadline g.slot s = gapTag g .deadline (lineAbandoned e g (missReported g.slot g s)) := by
  have hfind' : (vget (missReported g.slot g s).ingest.slots g.slot).entries.find? (·.writing) = some e := by
    rw [(missReported_frame g.slot g s).ingest]
    exact hfind
  have hring' : (layoutAt (missReported g.slot g s) g.slot).depth ≠ 0 := by
    rw [missReported_placing.layoutAt]
    exact hring
  rw [← abandonWrite_arrived hfind' htag harrived hring']
  unfold missDeadline
  simp only [hfind, htag]
  rfl

theorem missDeadline_none {slot : Nat} (h : ∀ e ∈ (vget s.ingest.slots slot).entries, e.writing = false) : missDeadline slot s = s := by
  have hnone : (vget s.ingest.slots slot).entries.find? (·.writing) = none := List.find?_eq_none.2 fun e he => by simp [h e he]
  simp only [missDeadline, hnone]

/-- An abandoned line keeps what its miss changed. -/
theorem lineAbandoned_frame (e : LineEntry) (g : TrigTag) {a b : State} (h : OutFrame a b) :
    OutFrame (lineAbandoned e g a) (lineAbandoned e g b) := by
  unfold OutFrame at *
  rw [h]
  rfl

end

section
variable {slot : Nat} {e : LineEntry} {g : TrigTag}

theorem ingestDeadline_endsLine (hslot : slot < 24) (htag : e.tag = some g) (hg : g.slot = slot) (harrived : e.arrived = true) :
    Happens (.ingestDeadline · slot)
      (fun s => up s ∧ (vget s.ingest.slots slot).entries.find? (·.writing) = some e ∧ statsOn s slot g.line = false ∧
        (layoutAt s slot).depth ≠ 0 ∧ readyHeld slot g.line s ∧ positionFree s slot g.line = true ∧
        firstIn (0x360 + slot / 4) (currentStrip s) s ∧ firstIn (0x100 + slot) (stripAt s g.line) s)
      (fun s =>
        let part := (lineRow s g e.codes).take (Config.freeValue s.free % ((lineRow s g e.codes).length + 1))
        let s' := written [(samplePlace slot g.line g.field s, part), (tagPlace slot g.line g.field s, lineTagBytes g 0 0 2 0 false false false true)]
          (setPort (slot / 4) (fun x => { x with misses := wrap32 (x.misses + 1) }) (setSlotIngest slot (fun x => { x with
            entries := x.entries.erase e
            cnt := { x.cnt with gapDeadline := wrap32 (x.cnt.gapDeadline + 1) }
            written := x.written ++ [(g.line, g.field, 2)] }) s))
        { s' with
          free := s.free + 1
          bench := { s'.bench with ctl := s.bench.ctl.map fun c => { c with
            pending := c.pending.filter fun r => !(decide (r.port = slot / 4) && decide (r.slot = slot) && decide (r.line = g.line)) } } })
      [0x360 + slot / 4, 0x100 + slot] noPuts := by
  subst hg
  refine happens_writing (f := missDeadline g.slot) (parts := [])
    (ws := fun s => [(samplePlace g.slot g.line g.field s, leftRow e g s), (tagPlace g.slot g.line g.field s, gapBytes g .deadline)])
    (new := fun s => setSlotIngest g.slot (fun x => { x with
      entries := x.entries.erase e, cnt := countGap .deadline x.cnt, written := x.written ++ [(g.line, g.field, 2)] })
      { missCounted g.slot g s with free := s.free + 1 })
    (fun _ _ => rfl) (fun _ hc => ⟨hc.1, List.forall_mem_nil _⟩) fun q hc => ?_
  obtain ⟨hup, hfind, hstats, hring, hheld, hpos, hmiss, hgap⟩ := hc
  have hreport := missReported_placing (g := g) (s := q)
  have hplace := hreport.trans (lineAbandoned_placing (e := e) (s := missReported g.slot g q) hslot)
  have ht := hplace.takesTag g.line ⟨hstats, hpos, hring, hheld⟩
  have hsrc : gapSource .deadline = some 0x100 := rfl
  have hkept := ((lineAbandoned_frame e g (missReported_frame g.slot g q)).setSlotIngest g.slot fun x => { x with
    cnt := countGap .deadline x.cnt, written := x.written ++ [(g.line, g.field, 2)] }).outstanding
      [(tagPlace g.slot g.line g.field q, gapBytes g .deadline)]
  have hframe := gapTag_written_frame hslot hsrc ht
  rw [hplace.tagPlace] at hframe
  rw [missDeadline_arrived hfind htag harrived hring]
  refine ⟨?_, ⟨rfl, rfl, rfl, rfl, rfl⟩, List.forall_mem_cons.2 ⟨?_, List.forall_mem_singleton.2 ?_⟩⟩
  · exact hframe.after (gapInRing_lineAbandoned (s := missCounted g.slot g q) _ _ ▸ hkept)
  · rw [gapTag_written_host hslot hsrc ht]
    refine gapReported_keeps ?_
    rw [lineAbandoned_host]
    exact missReported_sets hup hmiss
  · rw [gapTag_written_host hslot hsrc ht]
    refine gapReported_sets ?_ ?_
    · rw [up, lineAbandoned_hf]
      exact (missReported_frame g.slot g q).hf_fabric.trans hup
    · rw [firstIn, lineAbandoned_evOnce, hplace.stripAt]
      exact missReported_firstIn (by omega) hgap

theorem ingestDeadline_idle :
    Happens (.ingestDeadline · slot) (fun s => ∀ e ∈ (vget s.ingest.slots slot).entries, e.writing = false) id [] noPuts :=
  happens_idle (f := missDeadline slot) (parts := []) (fun _ _ => rfl) fun _ hc => missDeadline_none hc

end

/-! ### A count past 32 bits -/

/-- The tag of web line 7 of slot 0, and the line that answered it: one pixel, arrived whole, its Bench write under way. -/
def tagOfLine7 : TrigTag := { line := 7 }
def wholeLine7 : LineEntry := { tag := some tagOfLine7, arrived := true, writing := true, codes := [3] }

/-- Slot 0 writes web line 7 while its ready point waits at web line 5, and its count of LONG lines stands at 2^32: `State.Inv` does not keep the
counters of Table 5-7 to the 32 bits they have. -/
def longPastItsWidth : State :=
  let s := setSlotIngest 0 (fun x => { x with entries := [wholeLine7], nextReady := some 5, cnt := { x.cnt with long := 2 ^ 32 } }) State.reset
  { s with
    hf := { s.hf with fabric := .running }
    running := { s.running with link := vset s.running.link 0 { width := 1 } }
    ingest := { s.ingest with layout := vset s.ingest.layout 0 { widthA := 1, depth := 16 } } }

/-- The line is not LONG, but as it is counted its slot's count of LONG lines goes back into 32 bits. -/
theorem ingestWriteComplete_longPastItsWidth :
    ∃ r, exec (.ingestWriteComplete 0 0) longPastItsWidth = .next r ∧ (vget r.ingest.slots 0).cnt.long = 0 :=
  ⟨_, rfl, by decide +kernel⟩

/-- Refutes O30: a line that is neither SHORT nor LONG changes its slot's count of LONG lines where that count is past 32 bits. The statement asks
for `State.Inv`, which says nothing of the counters; `ingestWriteComplete_writesWhole` and `ingestWriteComplete_writesShort` are the two clauses
concerned with `CountsFit` as one condition more, and the lemmas `tagTimeout_…`, `unmatchedLineWait_…`, `ingestLineWrite_…`, `ingestWriteComplete_idle` and `ingestDeadline_…`
are the ten others as they stand. -/
theorem not_ingestWritesLines : ¬ Obligations.IngestWritesLines := by
  unfold Obligations.IngestWritesLines
  rintro ⟨-, -, -, -, -, -, -, hwrites, -, -, -, -⟩
  obtain ⟨r, hr, -, hframe, -, -⟩ := hwrites 0 wholeLine7 tagOfLine7 (by decide) rfl rfl rfl 0 longPastItsWidth ⟨rfl, rfl, rfl⟩
    ⟨by decide +kernel, by decide +kernel, by decide +kernel, by decide +kernel, by decide +kernel, by decide +kernel, 5, by decide +kernel⟩
  obtain ⟨r', hr', hlong⟩ := ingestWriteComplete_longPastItsWidth
  obtain rfl : r' = r := by
    rw [hr'] at hr
    exact Host.Outcome.next.inj hr
  rw [hframe.ingest] at hlong
  revert hlong
  decide +kernel

end Sys2Proof.Machine

/-! ## The Dovetail: a web line of one slot, its imports (R344, R349, R350, R367 to R369, R373, R375, R478) -/

namespace Sys2Proof.Machine

/-! ### The slots' tables, and shared rules -/

theorem setSlotPlane_eq_self {i : Nat} {f : SlotPlane → SlotPlane} {s : State} (h : f (vget s.plane.slots i) = vget s.plane.slots i) :
    setSlotPlane i f s = s := by
  unfold setSlotPlane
  rw [vmod_eq_self h]

theorem setSlotPlane_congr {i : Nat} {f g : SlotPlane → SlotPlane} {s : State} (h : f (vget s.plane.slots i) = g (vget s.plane.slots i)) :
    setSlotPlane i f s = setSlotPlane i g s := by
  unfold setSlotPlane vmod
  rw [h]

theorem OutFrame.setSlotPlane {a b : State} (h : OutFrame a b) (i : Nat) (f : SlotPlane → SlotPlane) :
    OutFrame (setSlotPlane i f a) (setSlotPlane i f b) := by
  unfold OutFrame at *
  rw [h]
  rfl

theorem setSlotIngest_eq_self {i : Nat} {f : SlotIngest → SlotIngest} {s : State} (h : f (vget s.ingest.slots i) = vget s.ingest.slots i) :
    setSlotIngest i f s = s := by
  unfold setSlotIngest
  rw [vmod_eq_self h]

theorem Settled.trans {a b c : State} (h : Settled a b) (h' : Settled b c) : Settled a c :=
  ⟨h'.now.trans h.now, h'.pending.trans h.pending, h'.mem.trans h.mem, h'.writes.trans h.writes, h'.emptied.trans h.emptied⟩

/-- A web line is at or after itself (R11). -/
theorem atOrAfter_self (n : Nat) : atOrAfter n n = true := by
  have hdiff : (n + 2 ^ 32 - n % 2 ^ 32) % 2 ^ 32 = 0 := by omega
  simp only [atOrAfter, sdiff32, hdiff]
  decide

/-! ### What a unit that stands alone leaves undone -/

section
variable {s : State} {n : Nat}

theorem afterGlue_none (h : s.glue = none) : afterGlue s n = false := by simp only [afterGlue, h]

theorem lastBeforeGlue_none (h : s.glue = none) : lastBeforeGlue s n = false := by simp only [lastBeforeGlue, h]

theorem takeTrims_none (due : Trim → Bool) (h : s.pair.trims = []) : takeTrims due s = ([], s) := by
  have hkept : ([] : List Trim) = s.pair.trims := h.symm
  simp only [takeTrims, h, List.filter_nil]
  rw [hkept]

theorem seamTrims_none (h : s.pair.trims = []) : seamTrims n s = s := by
  unfold seamTrims
  rw [takeTrims_none _ h]
  rfl

theorem applySeamUpdates_none (h : s.dovetail.updates = []) : applySeamUpdates n s = s := by
  have hkept : ([] : List ShimUpdate) = s.dovetail.updates := h.symm
  simp only [applySeamUpdates, h, List.filter_nil, List.foldl_nil]
  rw [hkept]

theorem relayStrips_same (h : stripLayout (cfgAt s n) = s.dovetail.layout) : relayStrips n s = s := if_pos h.symm

theorem digestGap_solo (strip slot : Nat) (h : s.pair.role = .solo) : digestGap strip slot s = s := by
  simp [digestGap, digestWork, paired, isActive, isPassive, h]

end

/-! ### What the readers of a slot are past -/

/-- A slot with none of its corrected lines left for its readers. -/
def drained (i : Nat) (s : State) : State := setSlotPlane i (fun x => { x with out := [] }) s

theorem OutFrame.drained {a b : State} (h : OutFrame a b) (i : Nat) : OutFrame (drained i a) (drained i b) := h.setSlotPlane i _

/-- What the Dovetail lets go of a slot once a line is stitched. -/
def sweepSlot (s : State) (k : Nat) : State := flushGaps k (pruneRelaid k (pruneOut k s))

/-- Only slot `i` has corrected lines, of field 0 of web line `n`: the Dovetail has taken that line, and the profile chain does not read it. -/
structure SweepsOne (i n : Nat) (s : State) : Prop where
  clear : slotsClear i s
  last : s.dovetail.last = some n
  ungrit : bitOf (vget (cfgAt s n).grit i).fields 0 = false
  lines : ∀ e ∈ (vget s.plane.slots i).out, e.line = n ∧ e.field = 0

section
variable {i k n : Nat} {s : State}

theorem flushGaps_none (h : (vget s.ingest.slots k).gapsWaiting = []) : flushGaps k s = s := by
  unfold flushGaps
  rw [h]
  rfl

theorem pruneRelaid_none (h : (vget s.ingest.slots k).relaid = []) : pruneRelaid k s = s := by
  have hself (l : Nat) : setSlotIngest k (fun x => { x with relaid := x.relaid.filter fun r => later32 r.1 l }) s = s := by
    refine setSlotIngest_eq_self ?_
    simp only [h, List.filter_nil]
    rw [← h]
  unfold pruneRelaid
  simp only [hself, ite_self]
  split <;> rfl

theorem pruneOut_empty (h : (vget s.plane.slots k).out = []) : pruneOut k s = s := by
  refine setSlotPlane_eq_self ?_
  simp only [h, List.filter_nil]
  rw [← h]

/-- The lines of a slot that the Dovetail has just taken, and that the profile chain does not read, are dropped. -/
theorem pruneOut_taken (hlast : s.dovetail.last = some n) (hgrit : bitOf (vget (cfgAt s n).grit i).fields 0 = false)
    (hlines : ∀ e ∈ (vget s.plane.slots i).out, e.line = n ∧ e.field = 0) : pruneOut i s = drained i s := by
  refine setSlotPlane_congr ?_
  congr 1
  refine List.filter_eq_nil_iff.2 fun e he => ?_
  obtain ⟨hline, hfield⟩ := hlines e he
  simp [hline, hfield, hlast, hgrit, atOrAfter_self]

theorem drained_self (hi : i < 24) : (vget (drained i s).plane.slots i).out = [] := by
  unfold drained
  rw [setSlotPlane_slots, vget_vmod_self _ _ _ hi]

theorem SweepsOne.drained (hi : i < 24) (h : SweepsOne i n s) : SweepsOne i n (drained i s) where
  clear k hk := by
    obtain ⟨hgaps, hrelaid, hout⟩ := h.clear k hk
    refine ⟨hgaps, hrelaid, fun hne => ?_⟩
    rw [Machine.drained, setSlotPlane_slots, vget_vmod_ne _ _ _ _ hne]
    exact hout hne
  last := h.last
  ungrit := h.ungrit
  lines := by
    rw [drained_self hi]
    exact List.forall_mem_nil _

theorem sweepSlot_other (h : SweepsOne i n s) (hk : k < 24) (hne : k ≠ i) : sweepSlot s k = s := by
  obtain ⟨hgaps, hrelaid, hout⟩ := h.clear k hk
  rw [sweepSlot, pruneOut_empty (hout hne), pruneRelaid_none hrelaid, flushGaps_none hgaps]

theorem sweepSlot_own (h : SweepsOne i n s) (hi : i < 24) : sweepSlot s i = drained i s := by
  obtain ⟨hgaps, hrelaid, -⟩ := h.clear i hi
  rw [sweepSlot, pruneOut_taken h.last h.ungrit h.lines, pruneRelaid_none (s := drained i s) hrelaid, flushGaps_none (s := drained i s) hgaps]

theorem drained_drained (hi : i < 24) : drained i (drained i s) = drained i s :=
  setSlotPlane_eq_self (s := drained i s) (by simp only [← drained_self (s := s) hi])

theorem sweepSlots (hi : i < 24) (l : List Nat) (hl : ∀ k ∈ l, k < 24) (h : SweepsOne i n s) :
    l.foldl sweepSlot s = if i ∈ l then drained i s else s := by
  induction l generalizing s with
  | nil => rfl
  | cons k l ih =>
    obtain ⟨hk, hl⟩ := List.forall_mem_cons.1 hl
    rw [List.foldl_cons]
    by_cases hki : k = i
    · subst hki
      rw [sweepSlot_own h hi, ih hl (h.drained hi), drained_drained hi, ite_self, if_pos List.mem_cons_self]
    · rw [sweepSlot_other h hk hki, ih hl h]
      simp only [List.mem_cons, Ne.symm hki, false_or]

end

/-! ### The one source of a line (R349, R354, R358) -/

section
variable {i n : Nat} {g : GridCfg} {s : State} {x : Source}

/-- With one slot in ORDER and no import, a line has one source: the slot's corrected line. -/
theorem sourcesOf_single (horder : g.order = [i]) (hanchor : g.anchor = 0) (himport : g.importCols = 0) :
    sourcesOf s g n 0 = [stitchSource n g s] ∧ (stitchSource n g s).slot = some i := by
  have hsources : ∃ x : Source, sourcesOf s g n 0 = [x] ∧ x.slot = some i := by
    unfold sourcesOf
    rw [if_pos himport, horder, hanchor]
    exact ⟨_, rfl, rfl⟩
  obtain ⟨x, hx, hslot⟩ := hsources
  rw [stitchSource, hx]
  exact ⟨rfl, hslot⟩

theorem seamsOf_single {cfg : Cfg} (horder : g.order = [i]) (himport : g.importCols = 0) : seamsOf cfg g = [] := by
  unfold seamsOf
  rw [if_pos himport, horder]
  rfl

theorem slotMask_single (p : Source → Bool) (hslot : x.slot = some i) : slotMask p [x] = if p x then 2 ^ i else 0 := by
  simp only [slotMask, List.foldl_cons, List.foldl_nil, hslot, Nat.zero_or]

/-- Two runs of bytes written are outstanding in their order. -/
theorem benchWrite_benchWrite (a b : Nat) (x y : Bytes) : benchWrite b y (benchWrite a x s) = outstanding [(a, x), (b, y)] s :=
  outstanding_outstanding [(b, y)] [(a, x)] s

theorem exportField_none (xs : List Source) (h : g.exportCols = 0) : exportField g n 0 xs s = s := by
  unfold exportField
  split
  · rfl
  · exact if_pos h

end

/-! ### The line formed (R350 to R369) -/

/-- The row and the tag of a line, at their places in the strip ring (R367). -/
def stitchWrites (i n : Nat) (g : GridCfg) (s : State) : List (Nat × Bytes) :=
  let l := s.dovetail.layout
  [(l.base + stripSampleOff l n 0, packRow ((stitchColumns n g s).map (·.1))), (l.base + stripTagOff l n 0, stitchTag i n g s)]

/-- The Dovetail with a line begun (R349). -/
abbrev lineBegun (n : Nat) (s : State) : State := { s with dovetail := { s.dovetail with last := some n } }

/-- The Dovetail with the void columns of a row kept for Marquetry (R384). -/
def voidsKept (n : Nat) (voids : List (Nat × Nat)) (s : State) : State :=
  { s with dovetail := { s.dovetail with voids := if voids = [] then s.dovetail.voids else s.dovetail.voids ++ [⟨n, 0, voids⟩] } }

/-- The Dovetail with its slot counted as dropped, where it is a gap. -/
def dropCounted (gap : Bool) (s : State) : State :=
  { s with dovetail := { s.dovetail with cnt := { s.dovetail.cnt with
    dropped := if gap then wrap32 (s.dovetail.cnt.dropped + 1) else s.dovetail.cnt.dropped } } }

/-- A slot that is a gap is counted as dropped, and reported once per strip. -/
def dropReported (gap : Bool) (strip : Nat) (s : State) : State :=
  if gap = false then s else raiseOnceIn strip 0x1B0 0 0 (dropCounted true s)

/-- A line formed: its row and its tag outstanding, its void columns kept. -/
def lineFormed (i n : Nat) (g : GridCfg) (s : State) : State :=
  voidsKept n (spansOf ((stitchColumns n g s).map (·.2)) 0) (outstanding (stitchWrites i n g s) s)

/-- The Dovetail with the imports of a line, and of those before it, let go. -/
def importsPassed (n : Nat) (s : State) : State :=
  { s with dovetail := { s.dovetail with
    imports := s.dovetail.imports.filter fun x => later32 x.line n
    importMissing := s.dovetail.importMissing.filter fun x => later32 x n } }

/-- The Dovetail with one more line counted. -/
def lineStitched (s : State) : State :=
  { s with dovetail := { s.dovetail with cnt := { s.dovetail.cnt with stitched := wrap32 (s.dovetail.cnt.stitched + 1) } } }

section
variable {gap : Bool} {strip : Nat} {s : State}

theorem voidsKept_eq_ite (n : Nat) (voids : List (Nat × Nat)) (s : State) :
    (if voids = [] then s else { s with dovetail := { s.dovetail with voids := s.dovetail.voids ++ [⟨n, 0, voids⟩] } }) = voidsKept n voids s := by
  unfold voidsKept
  split <;> rfl

theorem voidsKept_outstanding (n : Nat) (voids : List (Nat × Nat)) (ws : List (Nat × Bytes)) (s : State) :
    voidsKept n voids (outstanding ws s) = outstanding ws (voidsKept n voids s) := rfl

theorem dropCounted_outstanding (gap : Bool) (ws : List (Nat × Bytes)) (s : State) :
    dropCounted gap (outstanding ws s) = outstanding ws (dropCounted gap s) := rfl

theorem lineStitched_outstanding (ws : List (Nat × Bytes)) (s : State) : lineStitched (outstanding ws s) = outstanding ws (lineStitched s) := rfl

theorem drained_outstanding (i : Nat) (ws : List (Nat × Bytes)) (s : State) : drained i (outstanding ws s) = outstanding ws (drained i s) := rfl

theorem dropReported_frame (gap : Bool) (strip : Nat) (s : State) : OutFrame (dropCounted gap s) (dropReported gap strip s) := by
  cases gap
  · rfl
  · exact raiseOnceIn_frame _ _ _

theorem dropReported_sets (hup : up s) (hfirst : firstIn 0x1B0 strip s) :
    bitOf (dropReported true strip s).host.evt.pending 0x1B0 = true := raiseOnceIn_sets (s := dropCounted true s) hup hfirst

theorem importsPassed_none {n : Nat} (himports : s.dovetail.imports = []) (hmissing : s.dovetail.importMissing = []) : importsPassed n s = s := by
  have hkeptImports : ([] : List ImportRow) = s.dovetail.imports := himports.symm
  have hkeptMissing : ([] : List Nat) = s.dovetail.importMissing := hmissing.symm
  simp only [importsPassed, himports, hmissing, List.filter_nil]
  rw [hkeptImports, hkeptMissing]

theorem OutFrame.lineStitched {a b : State} (h : OutFrame a b) : OutFrame (lineStitched a) (lineStitched b) := by
  unfold OutFrame at *
  rw [h]
  rfl

end

/-- A line of one field that one slot in ORDER gives, with no import, export, trim, update or re-lay. -/
structure FromOneSlot (i n : Nat) (g : GridCfg) (s : State) : Prop where
  alone : alone s
  sweeps : SweepsOne i n (lineBegun n s)
  trims : s.pair.trims = []
  grid : (cfgAt s n).grid = some g
  order : g.order = [i]
  anchor : g.anchor = 0
  noImport : g.importCols = 0
  noExport : g.exportCols = 0
  layout : stripLayout (cfgAt s n) = s.dovetail.layout
  ring : s.dovetail.layout.lines ≠ 0
  noBackground : (cfgAt s n).bg.fields = 0
  oneField : fieldsOf (cfgAt s n) = 1
  updates : s.dovetail.updates = []
  imports : s.dovetail.imports = []
  missing : s.dovetail.importMissing = []

section
variable (i n : Nat) (g : GridCfg) (s : State)

theorem stitchSource_begun : stitchSource n g (lineBegun n s) = stitchSource n g s := rfl

theorem stitchColumns_begun : stitchColumns n g (lineBegun n s) = stitchColumns n g s := by
  rw [stitchColumns, stitchSource_begun, stitchColumns]

theorem posOfLine_begun : posOfLine (lineBegun n s) n = posOfLine s n := rfl

theorem stitchTag_begun : stitchTag i n g (lineBegun n s) = stitchTag i n g s := by
  rw [stitchTag, stitchSource_begun, posOfLine_begun, stitchTag]
  rfl

/-- The line that has begun is formed from what stood before it. -/
theorem lineFormed_begun : lineFormed i n g (lineBegun n s) =
    voidsKept n (spansOf ((stitchColumns n g s).map (·.2)) 0) (outstanding (stitchWrites i n g s) (lineBegun n s)) := by
  rw [lineFormed, stitchWrites, stitchColumns_begun, stitchTag_begun, stitchWrites]

end

section
variable {i n : Nat} {g : GridCfg} {s : State}

theorem FromOneSlot.of_plain (h : stitchPlain i n g s) : FromOneSlot i n g s := by
  obtain ⟨-, -, halone, hclear, htrims, -, hgrid, horder, hanchor, himport, hexport, -, -, -, hlayout, hring, -, hbg, hfields, hupdates, himports,
    hmissing, hgrit, hlines⟩ := h
  exact ⟨halone, ⟨hclear, rfl, hgrit, hlines⟩, htrims, hgrid, horder, hanchor, himport, hexport, hlayout, hring, hbg, hfields, hupdates, himports,
    hmissing⟩

/-- One field of a line: its row and its tag written, its void columns kept, its gap counted and reported. -/
theorem stitchField_single (horder : g.order = [i]) (hanchor : g.anchor = 0) (himport : g.importCols = 0) (hexport : g.exportCols = 0)
    (hring : s.dovetail.layout.lines ≠ 0) :
    (stitchField g n (stripAt s n) 0 s).2 = dropReported (stitchSource n g s).gap (stripAt s n) (lineFormed i n g s) := by
  obtain ⟨hsources, hslot⟩ := sourcesOf_single (s := s) (n := n) horder hanchor himport
  have hanchorSource : [stitchSource n g s].find? (fun x => decide (x.slot = g.order[g.anchor]?) && x.slot.isSome) = some (stitchSource n g s) := by
    simp [horder, hanchor, hslot]
  have hdrop : (if (stitchSource n g s).gap = true then 2 ^ i else 0) = 0 ↔ (stitchSource n g s).gap = false := by simp
  unfold stitchField
  simp only [exportField_none _ hexport, hsources, seamsOf_single horder himport, slotMask_single _ hslot, hanchorSource, if_neg hring, hdrop,
    himport, ne_eq, not_true, Bool.not_eq_false, Bool.decide_eq_true, decide_false, Bool.false_and, List.any_cons, List.any_nil, Bool.or_false,
    show flagBit false 7 = 0 from rfl, Nat.or_zero, benchWrite_benchWrite]
  rw [lineFormed, ← voidsKept_eq_ite]
  rfl

/-- `r` is `s` in all that the end of a line reads: the configurations, the partner, the slots, and what the Dovetail has taken. -/
structure SameSlots (s r : State) : Prop where
  glue : r.glue = s.glue
  prev : r.prev = s.prev
  running : r.running = s.running
  pair : r.pair = s.pair
  ingest : r.ingest = s.ingest
  plane : r.plane = s.plane
  last : r.dovetail.last = s.dovetail.last
  imports : r.dovetail.imports = s.dovetail.imports
  missing : r.dovetail.importMissing = s.dovetail.importMissing

namespace SameSlots
variable {r : State}

theorem trans {a : State} (h : SameSlots s r) (h' : SameSlots r a) : SameSlots s a :=
  ⟨h'.glue.trans h.glue, h'.prev.trans h.prev, h'.running.trans h.running, h'.pair.trans h.pair, h'.ingest.trans h.ingest,
    h'.plane.trans h.plane, h'.last.trans h.last, h'.imports.trans h.imports, h'.missing.trans h.missing⟩

theorem of_frame (h : OutFrame s r) : SameSlots s r := by
  have hd := h.dovetail
  exact ⟨h.glue, h.prev, h.running, h.pair, h.ingest, h.plane, congrArg _ hd, congrArg _ hd, congrArg _ hd⟩

theorem lineFormed (i n : Nat) (g : GridCfg) (s : State) : SameSlots s (lineFormed i n g s) :=
  ⟨rfl, rfl, rfl, rfl, rfl, rfl, rfl, rfl, rfl⟩

theorem dropReported (gap : Bool) (strip : Nat) (s : State) : SameSlots s (dropReported gap strip s) :=
  trans (r := dropCounted gap s) ⟨rfl, rfl, rfl, rfl, rfl, rfl, rfl, rfl, rfl⟩ (of_frame (dropReported_frame gap strip s))

theorem reported (i n : Nat) (g : GridCfg) (s : State) :
    SameSlots (lineBegun n s) (Machine.dropReported (stitchSource n g s).gap (stripAt s n) (Machine.lineFormed i n g (lineBegun n s))) :=
  (lineFormed i n g (lineBegun n s)).trans (dropReported _ _ _)

variable (h : SameSlots s r)
include h

theorem cfgAt (line : Nat) : cfgAt r line = cfgAt s line := by
  unfold Machine.cfgAt
  rw [h.glue, h.prev, h.running]

theorem sweepsOne (hs : SweepsOne i n s) : SweepsOne i n r := by
  obtain ⟨hclear, hlast, hungrit, hlines⟩ := hs
  refine ⟨?_, h.last.trans hlast, ?_, ?_⟩
  · unfold slotsClear
    rwa [h.ingest, h.plane]
  · rwa [h.cfgAt]
  · rwa [h.plane]

end SameSlots

/-- A line of one slot: the Dovetail is past it, its field is formed and the line counted, and the slot's corrected line is let go. -/
theorem stitchLine_fromOneSlot (hi : i < 24) (h : FromOneSlot i n g s) :
    stitchLine g n s = drained i (lineStitched (dropReported (stitchSource n g s).gap (stripAt s n) (lineFormed i n g (lineBegun n s)))) := by
  obtain ⟨⟨hglue, hsolo⟩, hsweeps, htrims, hgrid, horder, hanchor, himport, hexport, hlayout, hring, hbg, hfields, hupdates, himports, hmissing⟩ := h
  have hfield : (stitchField g n (stripOf (cfgAt s n).shift n) 0 (lineBegun n s)).2 =
      dropReported (stitchSource n g s).gap (stripAt s n) (lineFormed i n g (lineBegun n s)) :=
    stitchField_single (s := lineBegun n s) horder hanchor himport hexport hring
  have hsame := SameSlots.reported i n g s
  have hbegun : applySeamUpdates n (seamTrims n (lineBegun n s)) = lineBegun n s := by
    rw [seamTrims_none (s := lineBegun n s) htrims, applySeamUpdates_none (s := lineBegun n s) hupdates]
  have hslots : orderOf (cfgAt s n) = [i] := by rw [orderOf, hgrid, ← horder]
  unfold stitchLine
  simp only [afterGlue_none hglue, lastBeforeGlue_none hglue, Bool.false_eq_true, if_false, relayStrips_same hlayout, hbegun, hfields, List.range_one,
    List.foldl_cons, List.foldl_nil, hfield, hbg, if_true, seamsOf_single horder himport, ite_self, hslots]
  generalize dropReported (stitchSource n g s).gap (stripAt s n) (lineFormed i n g (lineBegun n s)) = r at hsame ⊢
  obtain ⟨hclear, hlast, hungrit, hlines⟩ := hsame.sweepsOne hsweeps
  have hsweeps' : SweepsOne i n (lineStitched r) := ⟨hclear, hlast, hungrit, hlines⟩
  have hend := importsPassed_none (n := n) (hsame.imports.trans himports) (hsame.missing.trans hmissing)
  have hrole : r.pair.role = .solo := (congrArg _ hsame.pair).trans hsolo
  -- Without a partner a gap leaves nothing in a digest (R706), so the slots are swept as the line was counted.
  rw [digestGap_solo, ite_self]
  case h => exact hrole
  change (List.range 24).foldl sweepSlot (lineStitched (importsPassed n r)) = _
  rw [hend, sweepSlots hi _ (fun _ => List.mem_range.1) hsweeps', if_pos (List.mem_range.2 hi)]

end

/-! ### The Dovetail's next line (R349, R478) -/

/-- The next web line has its slots, and its position in a strip ring that stays as it is laid. -/
structure TakesLine (n : Nat) (g : GridCfg) (s : State) : Prop where
  next : dovetailNext s = some n
  grid : (cfgAt s n).grid = some g
  triggered : inSpans s n = true
  ready : slotsReady s n = true
  unfenced : isFenced s 0x05 0 = false
  layout : stripLayout (cfgAt s n) = s.dovetail.layout
  free : rowFree s n = true

section
variable {n : Nat} {g : GridCfg} {s : State}

theorem bgWait_noBackground (h : (cfgAt s n).bg.fields = 0) : bgWait s n = false := by
  have hnone : maskFields 0 = [] := rfl
  simp only [bgWait, h, hnone, List.any_nil, Bool.and_false]

theorem dovetailStep_idle (h : ∀ n ∈ dovetailNext s, slotsReady s n = false ∨ isFenced s 0x05 0 = true) : dovetailStep s = s := by
  unfold dovetailStep
  split
  · rfl
  case h_2 n hnext =>
    have hstop : (!inSpans s n || !slotsReady s n || isFenced s 0x05 0) = true := by
      rcases h n hnext with hready | hfence
      · simp [hready]
      · simp [hfence]
    simp only [hstop, if_true]
    split <;> rfl

theorem dovetailStep_waits (h : TakesLine n g s) (hwait : bgWait s n = true) : dovetailStep s = countStall n s := by
  simp [dovetailStep, h.next, h.grid, h.triggered, h.ready, h.unfenced, h.layout, h.free, hwait]

theorem dovetailStep_stitches (h : TakesLine n g s) (hwait : bgWait s n = false) (himport : g.importCols = 0) :
    dovetailStep s = stitchLine g n s := by
  simp [dovetailStep, h.next, h.grid, h.triggered, h.ready, h.unfenced, h.layout, h.free, hwait, himport]

theorem dovetailLine_idle : Happens (.dovetailLine ·)
    (fun s => alone s ∧ ∀ n ∈ dovetailNext s, slotsReady s n = false ∨ isFenced s 0x05 0 = true) id [] noPuts :=
  happens_idle (f := settle ∘ dovetailStep) (parts := [12]) (fun _ _ => rfl) fun _ ⟨halone, hidle⟩ => by
    rw [Function.comp_apply, dovetailStep_idle hidle, settle_alone halone]

theorem dovetailLine_stalls : Happens (.dovetailLine ·)
    (fun s => up s ∧ partUp s 12 = true ∧ alone s ∧ dovetailNext s = some n ∧ (cfgAt s n).grid = some g ∧ inSpans s n = true ∧
      slotsReady s n = true ∧ isFenced s 0x05 0 = false ∧ stripLayout (cfgAt s n) = s.dovetail.layout ∧ rowFree s n = true ∧
      bgWait s n = true ∧ s.prof.stallLine ≠ some n)
    (fun s => { s with prof := { s.prof with stallLine := some n, bgStalls := wrap32 (s.prof.bgStalls + 1) } }) [] noPuts := by
  refine happens_silently (f := onFabric [12] (settle ∘ dovetailStep)) (fun _ _ => rfl) (fun _ => rfl) (fun _ => rfl) fun q hc => ?_
  obtain ⟨hup, hpart, halone, hnext, hgrid, hspan, hready, hfence, hlayout, hfree, hwait, hstall⟩ := hc
  rw [onFabric_up _ hup (List.forall_mem_singleton.2 hpart), Function.comp_apply,
    dovetailStep_waits ⟨hnext, hgrid, hspan, hready, hfence, hlayout, hfree⟩ hwait, countStall, if_neg hstall]
  exact settle_alone halone

end

/-- The Dovetail past a line of one slot, all but the line's row and tag. -/
def lineTaken (i n : Nat) (g : GridCfg) (s : State) : State :=
  drained i (lineStitched (dropCounted (stitchSource n g s).gap (voidsKept n (spansOf ((stitchColumns n g s).map (·.2)) 0) (lineBegun n s))))

section
variable {i n : Nat} {g : GridCfg} {s : State}

theorem stitched_eq_written (i n : Nat) (g : GridCfg) : stitched i n g = fun s => written (stitchWrites i n g s) (lineTaken i n g s) :=
  funext fun _ => rfl

theorem lineTaken_outstanding : outstanding (stitchWrites i n g s) (lineTaken i n g s) =
    drained i (lineStitched (dropCounted (stitchSource n g s).gap (lineFormed i n g (lineBegun n s)))) := by
  rw [lineFormed_begun, voidsKept_outstanding, dropCounted_outstanding, lineStitched_outstanding, drained_outstanding, lineTaken]

theorem lineTaken_settled : Settled s (lineTaken i n g s) := by
  have hbegun : Settled s (lineBegun n s) := ⟨rfl, rfl, rfl, rfl, rfl⟩
  have hvoids (voids : List (Nat × Nat)) (q : State) : Settled q (voidsKept n voids q) := ⟨rfl, rfl, rfl, rfl, rfl⟩
  have hdropped (gap : Bool) (q : State) : Settled q (dropCounted gap q) := ⟨rfl, rfl, rfl, rfl, rfl⟩
  have hstitched (q : State) : Settled q (lineStitched q) := ⟨rfl, rfl, rfl, rfl, rfl⟩
  have hdrained (q : State) : Settled q (drained i q) := ⟨rfl, rfl, rfl, rfl, rfl⟩
  exact (((hbegun.trans (hvoids _ _)).trans (hdropped _ _)).trans (hstitched _)).trans (hdrained _)

/-- Beside the report of a gap, a line of one slot leaves its row and its tag outstanding, and the Dovetail past it. -/
theorem stitchLine_frame (hi : i < 24) (h : FromOneSlot i n g s) :
    OutFrame (outstanding (stitchWrites i n g s) (lineTaken i n g s)) (stitchLine g n s) := by
  rw [stitchLine_fromOneSlot hi h, lineTaken_outstanding]
  exact (dropReported_frame _ _ _).lineStitched.drained i

theorem stitchLine_host (hi : i < 24) (h : FromOneSlot i n g s) : (stitchLine g n s).host =
    (dropReported (stitchSource n g s).gap (stripAt s n) (lineFormed i n g (lineBegun n s))).host := by
  rw [stitchLine_fromOneSlot hi h]
  rfl

theorem stitchLine_alone (hi : i < 24) (h : FromOneSlot i n g s) : alone (stitchLine g n s) := by
  have hsame := SameSlots.reported i n g s
  rw [stitchLine_fromOneSlot hi h]
  exact ⟨hsame.glue.trans h.alone.1, (congrArg _ hsame.pair).trans h.alone.2⟩

/-- A line of one slot is stitched under every condition that includes the plain ones; the sources pending after it are left to that condition. -/
theorem dovetailLine_stitches {cond : State → Prop} {evs : List Nat} (hi : i < 24) (hplain : ∀ q, cond q → stitchPlain i n g q)
    (hevs : ∀ q, cond q → ∀ e ∈ evs, bitOf (stitchLine g n q).host.evt.pending e = true) :
    Happens (.dovetailLine ·) cond (stitched i n g) evs noPuts := by
  rw [stitched_eq_written]
  refine happens_writing (f := settle ∘ dovetailStep) (parts := [12]) (fun _ _ => rfl) (fun q hc => ?_) fun q hc => ?_
  · obtain ⟨hup, hpart, -⟩ := hplain q hc
    exact ⟨hup, List.forall_mem_singleton.2 hpart⟩
  · have hone := FromOneSlot.of_plain (hplain q hc)
    obtain ⟨-, -, -, -, -, hnext, -, -, -, -, -, hspan, hready, hfence, -, -, hfree, -⟩ := hplain q hc
    have hstep : (settle ∘ dovetailStep) q = stitchLine g n q := by
      rw [Function.comp_apply, dovetailStep_stitches ⟨hnext, hone.grid, hspan, hready, hfence, hone.layout, hfree⟩
        (bgWait_noBackground hone.noBackground) hone.noImport, settle_alone (stitchLine_alone hi hone)]
    rw [hstep]
    exact ⟨stitchLine_frame hi hone, lineTaken_settled, hevs q hc⟩

theorem dovetailLine_formed (hi : i < 24) : Happens (.dovetailLine ·)
    (fun s => stitchPlain i n g s ∧ (stitchSource n g s).gap = false) (stitched i n g) [] noPuts :=
  dovetailLine_stitches hi (fun _ hc => hc.1) fun _ _ => List.forall_mem_nil _

theorem dovetailLine_gap (hi : i < 24) : Happens (.dovetailLine ·)
    (fun s => stitchPlain i n g s ∧ (stitchSource n g s).gap = true ∧ firstIn 0x1B0 (stripAt s n) s) (stitched i n g) [0x1B0] noPuts := by
  refine dovetailLine_stitches hi (fun _ hc => hc.1) fun q hc => List.forall_mem_singleton.2 ?_
  obtain ⟨hplain, hgap, hfirst⟩ := hc
  rw [stitchLine_host hi (.of_plain hplain), hgap]
  exact dropReported_sets (s := lineFormed i n g (lineBegun n q)) hplain.1 hfirst

end

/-! ### Imports of the west neighbour (R373, R375) -/

/-- An event of the fabric that counts what it meets, and reports it where its source has not yet been raised in the strip. -/
theorem happens_raisingOnce {i : Nat → Instr} {f new : State → State} {cond : State → Prop} {strip : State → Nat} (src : Nat)
    (hx : ∀ t s, exec (i t) s = runFabric t [] s f)
    (hkeeps : ∀ q, (new q).bench = q.bench ∧ (new q).pending = q.pending ∧ (new q).hf = q.hf ∧ (new q).evOnce = q.evOnce)
    (h : ∀ q, cond q → up q ∧ firstIn src (strip q) q ∧ f q = raiseOnceIn (strip q) src 0 0 (new q)) : Happens i cond new [src] noPuts := by
  refine happens_up (parts := []) hx (fun q hc => ⟨(h q hc).1, List.forall_mem_nil _⟩) fun q _ _ hc => ?_
  obtain ⟨hbench, hpending, hhf, honce⟩ := hkeeps q
  obtain ⟨hup, hfirst, hf⟩ := h q hc
  rw [hf]
  refine ⟨raiseOnceIn_frame _ _ _, hbench, hpending, List.forall_mem_singleton.2 (raiseOnceIn_sets ?_ ?_), List.nil_subset _⟩
  · rwa [up, hhf]
  · rwa [firstIn, honce]

/-- One more import discarded for its column count. -/
def mismatchCounted (s : State) : State :=
  { s with dovetail := { s.dovetail with cnt := { s.dovetail.cnt with importMismatch := wrap32 (s.dovetail.cnt.importMismatch + 1) } } }

/-- One more import discarded as late. -/
def lateCounted (s : State) : State :=
  { s with dovetail := { s.dovetail with cnt := { s.dovetail.cnt with importLate := wrap32 (s.dovetail.cnt.importLate + 1) } } }

/-- An import kept, in the place of one of the same line and field. -/
def importKept (row : ImportRow) (s : State) : State :=
  { s with dovetail := { s.dovetail with
    imports := (s.dovetail.imports.filter fun x => !(decide (x.line = row.line) && decide (x.field = row.field))) ++ [row] } }

/-- The import of a line declared missing. -/
def missingCounted (n : Nat) (s : State) : State :=
  { s with dovetail := { s.dovetail with
    importMissing := s.dovetail.importMissing ++ [n]
    cnt := { s.dovetail.cnt with importMissing := wrap32 (s.dovetail.cnt.importMissing + 1) } } }

/-- The import of a line comes too late: its line is stitched, or its import declared missing. -/
def importTooLate (line : Nat) (s : State) : Bool :=
  (match s.dovetail.last with | some l => atOrAfter l line | none => false) || s.dovetail.importMissing.contains line

section
variable {n : Nat} {g : GridCfg} {row : ImportRow} {s : State}

theorem importTooLate_missing (h : n ∈ s.dovetail.importMissing) : importTooLate n s = true := by
  rw [importTooLate, List.contains_iff_mem.2 h, Bool.or_true]

theorem importTooLate_ahead (hmissing : s.dovetail.importMissing = []) (hlast : ∀ l ∈ s.dovetail.last, atOrAfter l n = false) :
    importTooLate n s = false := by
  unfold importTooLate
  rw [hmissing]
  cases hl : s.dovetail.last with
  | none => rfl
  | some l => exact (Bool.or_false _).trans (hlast l hl)

theorem importRow_unused (h : (cfgAt s row.line).grid = none ∨ ∃ g ∈ (cfgAt s row.line).grid, g.importCols = 0) : importRow row s = s := by
  unfold importRow
  rcases h with hnone | ⟨g, hgrid, himport⟩
  · rw [hnone]
  · rw [Option.mem_def.1 hgrid]
    exact if_pos himport

/-- An export for a line that imports columns is discarded for its column count, or as late, or kept. -/
theorem importRow_imports (hgrid : (cfgAt s row.line).grid = some g) (himport : g.importCols ≠ 0) :
    importRow row s =
      if row.cols ≠ g.importCols then raiseOnceIn (stripAt s row.line) 0x1B2 0 0 (mismatchCounted s)
      else if importTooLate row.line s then raiseOnceIn (stripAt s row.line) 0x1B2 0 0 (lateCounted s)
      else importKept row s := by
  unfold importRow
  rw [hgrid]
  exact if_neg himport

theorem importReceived_unused :
    Happens (.importReceived · row) (fun s => (cfgAt s row.line).grid = none ∨ ∃ g ∈ (cfgAt s row.line).grid, g.importCols = 0) id [] noPuts :=
  happens_idle (f := importRow row) (parts := []) (fun _ _ => rfl) fun _ hc => importRow_unused hc

theorem importReceived_mismatch : Happens (.importReceived · row)
    (fun s => up s ∧ (cfgAt s row.line).grid = some g ∧ g.importCols ≠ 0 ∧ row.cols ≠ g.importCols ∧ firstIn 0x1B2 (stripAt s row.line) s)
    mismatchCounted [0x1B2] noPuts :=
  happens_raisingOnce 0x1B2 (fun _ _ => rfl) (fun _ => ⟨rfl, rfl, rfl, rfl⟩) fun _ ⟨hup, hgrid, himport, hcols, hfirst⟩ =>
    ⟨hup, hfirst, by rw [importRow_imports hgrid himport, if_pos hcols]⟩

theorem importReceived_late : Happens (.importReceived · row)
    (fun s => up s ∧ (cfgAt s row.line).grid = some g ∧ g.importCols ≠ 0 ∧ row.cols = g.importCols ∧ row.line ∈ s.dovetail.importMissing ∧
      firstIn 0x1B2 (stripAt s row.line) s) lateCounted [0x1B2] noPuts :=
  happens_raisingOnce 0x1B2 (fun _ _ => rfl) (fun _ => ⟨rfl, rfl, rfl, rfl⟩) fun _ ⟨hup, hgrid, himport, hcols, hmissing, hfirst⟩ =>
    ⟨hup, hfirst, by rw [importRow_imports hgrid himport, if_neg (not_not.2 hcols), if_pos (importTooLate_missing hmissing)]⟩

theorem importReceived_kept : Happens (.importReceived · row)
    (fun s => up s ∧ (cfgAt s row.line).grid = some g ∧ g.importCols ≠ 0 ∧ row.cols = g.importCols ∧ s.dovetail.importMissing = [] ∧
      ∀ l ∈ s.dovetail.last, atOrAfter l row.line = false) (importKept row) [] noPuts :=
  happens_silently (f := onFabric [] (importRow row)) (fun _ _ => rfl) (fun _ => rfl) (fun _ => rfl)
    fun _ ⟨hup, hgrid, himport, hcols, hmissing, hlast⟩ => by
      rw [onFabric_up _ hup (List.forall_mem_nil _), importRow_imports hgrid himport, if_neg (not_not.2 hcols),
        if_neg (Bool.eq_false_iff.1 (importTooLate_ahead hmissing hlast))]

theorem importTimeout_idle (h : ∀ n ∈ dovetailNext s, slotsReady s n = false ∨ importPresent s n = true) : importTimeout s = s := by
  unfold importTimeout
  split
  · rfl
  case h_2 n hnext =>
    split
    · rfl
    · refine if_pos ?_
      rcases h n hnext with hready | hpresent
      · simp [hready]
      · simp [hpresent]

theorem importTimeout_declares (hnext : dovetailNext s = some n) (hgrid : (cfgAt s n).grid = some g) (himport : g.importCols ≠ 0)
    (hspan : inSpans s n = true) (hready : slotsReady s n = true) (habsent : importPresent s n = false) (hnew : n ∉ s.dovetail.importMissing) :
    importTimeout s = raiseOnceIn (stripAt s n) 0x1B1 0 0 (missingCounted n s) := by
  unfold importTimeout
  simp only [hnext, hgrid]
  exact if_neg (by simp [himport, hspan, hready, habsent, hnew])

theorem importTimeout_waits : Happens (.importTimeout ·)
    (fun s => ∀ n ∈ dovetailNext s, slotsReady s n = false ∨ importPresent s n = true) id [] noPuts :=
  happens_idle (f := importTimeout) (parts := []) (fun _ _ => rfl) fun _ hc => importTimeout_idle hc

theorem importTimeout_declaresMissing : Happens (.importTimeout ·)
    (fun s => up s ∧ dovetailNext s = some n ∧ (cfgAt s n).grid = some g ∧ g.importCols ≠ 0 ∧ inSpans s n = true ∧ slotsReady s n = true ∧
      importPresent s n = false ∧ n ∉ s.dovetail.importMissing ∧ firstIn 0x1B1 (stripAt s n) s) (missingCounted n) [0x1B1] noPuts :=
  happens_raisingOnce 0x1B1 (fun _ _ => rfl) (fun _ => ⟨rfl, rfl, rfl, rfl⟩)
    fun _ ⟨hup, hnext, hgrid, himport, hspan, hready, habsent, hnew, hfirst⟩ =>
      ⟨hup, hfirst, importTimeout_declares hnext hgrid himport hspan hready habsent hnew⟩

end

/-- Settles O32: the fates of a line that is next, of an export of the west neighbour, and of one that does not come. -/
theorem dovetailStitches : Obligations.DovetailStitches :=
  ⟨dovetailLine_idle, fun _ _ _ => dovetailLine_formed, fun _ _ _ => dovetailLine_gap, fun _ _ => dovetailLine_stalls,
    fun _ => importReceived_unused, fun _ _ => importReceived_mismatch, fun _ _ => importReceived_late, fun _ _ => importReceived_kept,
    importTimeout_waits, fun _ _ => importTimeout_declaresMissing⟩

end Sys2Proof.Machine

/-! ## Marquetry: a web line with no region open, the hand-over at a strip's end, edge messages (R378, R383 to R400, R411, R414, R419) -/

namespace Sys2Proof.Machine

/-! ### A line without a segmented sample (R381, R384, R385) -/

section
variable {s : State} {b : SegBank} {n : Nat}

/-- The bank enables no class. -/
abbrev classesOff (b : SegBank) : Prop := ∀ c : Nat, c < 16 → (vget b.classes c).enable = false

theorem classesOff_all (h : classesOff b) (i : Nat) : (vget b.classes i).enable = false := by
  by_cases hi : i < 16
  · exact h i hi
  · have hnone : b.classes[i]? = none := Vector.getElem?_eq_none (Nat.le_of_not_lt hi)
    rw [vget, hnone]
    rfl

theorem fieldsRead_off (backgroundOnly : Bool) (h : classesOff b) : fieldsRead b backgroundOnly = [] := by
  refine List.filter_eq_nil_iff.2 fun f _ hany => ?_
  obtain ⟨c, hc, hreads⟩ := List.any_eq_true.1 hany
  obtain ⟨i, hi, hci⟩ := Vector.mem_iff_getElem.1 (Vector.mem_toList_iff.1 hc)
  have hoff : c.enable = false := by simpa [vget, hi, hci] using h i hi
  simp [hoff] at hreads

theorem classMask_off (h : classesOff b) (vals bgs : List (Option Nat)) : classMask b.classes vals bgs = 0 := by
  unfold classMask
  exact List.foldl_fixed' (fun i => by simp [classesOff_all h i, flagBit]) _

theorem codeRuns_zero {ms : List Nat} (h : ∀ m ∈ ms, m = 0) (c : Nat) : codeRuns ms c = [] := by
  induction ms generalizing c with
  | nil => rfl
  | cons m ms ih =>
    obtain ⟨hm, hms⟩ := List.forall_mem_cons.1 h
    rw [codeRuns, if_pos hm, ih hms]

theorem lineRuns_off (h : classesOff b) (columns : Nat) : codeRuns (lineMasks s b columns n) 0 = [] := by
  refine codeRuns_zero (fun m hm => ?_) 0
  obtain ⟨c, -, rfl⟩ := List.mem_map.1 hm
  exact classMask_off h _ _

/-- The line flags of R403 are none where no field that the classes read has any. -/
theorem lineRflags_none {fields : List Nat} (h : ∀ f ∈ fields, stTagFlags (readStitchedTag s n f) = 0) :
    fields.foldl (fun m f => m ||| lineRflags (stTagFlags (readStitchedTag s n f))) 0 = 0 := by
  induction fields with
  | nil => rfl
  | cons f fields ih =>
    obtain ⟨hf, hfields⟩ := List.forall_mem_cons.1 h
    rw [List.foldl_cons, hf]
    exact ih hfields

end

/-! ### The segmentation of a line with no region open (R386 to R404) -/

/-- A region table with nothing that a line could add to, close, or flag. -/
structure ClearTable (m : Marquetry) : Prop where
  regions : m.regions = []
  window : m.window = []
  lineFlags : m.lineFlags = []

/-- The segmented spans of a line kept beside those of the line before (R402), and Marquetry past that line. -/
def spansKept (n : Nat) (spans : List (Nat × Nat)) (m : Marquetry) : Marquetry := { m with spans := (n, spans) :: m.spans.take 1 }
def linePassed (n : Nat) (spans : List (Nat × Nat)) (m : Marquetry) : Marquetry := { spansKept n spans m with last := some n }

/-- A flush that finds no region counts none (R400). -/
def flushedNone (m : Marquetry) : Marquetry := { m with cnt := { m.cnt with flushed := wrap32 m.cnt.flushed } }

/-- The region that a run opens in slot 0, and the run in the window (R389, R391, R392). -/
def openedRegion (l : SegLine) (run : Run) (m : Marquetry) : Region :=
  let id := regionId (sget m.gens 0 0) 0
  { id, chainId := id, lastRun := l.n, feat := featCombine { firstLine := l.n, lastLine := l.n } (runFeat l run) }
def openedRun (l : SegLine) (run : Run) (m : Marquetry) : WinRun :=
  { line := l.n, start := run.start, stop := run.stop, mask := run.mask, region := regionId (sget m.gens 0 0) 0 }
def regionOpened (l : SegLine) (run : Run) (m : Marquetry) : Marquetry :=
  { m with
    regions := [openedRegion l run m]
    window := [openedRun l run m]
    highWater := max m.highWater 1
    cnt := { m.cnt with opened := wrap32 (m.cnt.opened + 1) } }

section
variable {l : SegLine} {m : Marquetry} {run : Run}

theorem sdiff32_self (n : Nat) : sdiff32 n n = 0 := by
  have hdiff : (n + 2 ^ 32 - n % 2 ^ 32) % 2 ^ 32 = 0 := by omega
  rw [sdiff32, hdiff]
  rfl

/-- With no region open a run meets none, so it opens one, in slot 0 (R391, R392). -/
theorem segRun_opens (h : ClearTable m) (hexp : l.exporting = false) : segRun l { m } run = { m := regionOpened l run m } := by
  obtain ⟨hregions, hwindow, -⟩ := h
  cases m
  subst hregions hwindow
  simp [segRun, lowestFree, lowestFreeFrom, sortBy, insertRegion, insertBy, joinRun, updRegion, hexp, regionOpened, openedRegion, openedRun]

/-- An open region whose latest run is of the line itself is not due to close (R394). -/
theorem closeDue_current {w : SegWork} {r : Region} (h : w.m.regions = [r]) (hopen : r.pending = false) (hrun : r.lastRun = l.n) : closeDue l w = w := by
  have hdue : ¬ (l.cfg.gl : Int) + 1 ≤ 0 := by omega
  simp only [closeDue, h, List.foldl_cons, List.foldl_nil, hopen, hrun, sdiff32_self, hdue, Bool.false_eq_true, if_false]

theorem ownRuns_opened : ownRuns (regionOpened l run m) l.n = [openedRun l run m] := by
  simp [ownRuns, regionOpened, openedRun]

theorem pruneFlags_none (h : m.lineFlags = []) : pruneFlags m = m := by
  rw [pruneFlags, h, List.filter_nil, ← h]

theorem segmentLine_noRun (h : ClearTable m) (flush : Bool) :
    segmentLine l 0 [] none false flush m =
      { m := linePassed l.n [] (if flush then flushedNone m else m), out := { flushed := flush } } := by
  obtain ⟨hregions, hwindow, hflags⟩ := h
  cases m
  subst hregions hwindow hflags
  cases flush <;> rfl

theorem segmentLine_opens (h : ClearTable m) (hexp : l.exporting = false) :
    segmentLine l 0 [run] none false false m =
      { m := linePassed l.n [(l.base + run.start, l.base + run.stop)] (regionOpened l run m) } := by
  have hstart : startLine l none false m = { m } := by
    simp only [startLine, ownRuns, h.window, List.filter_nil, List.map_nil, Bool.false_eq_true, if_false]
    rw [← h.window]
  have hlimit : limitRuns [run] = ([run], 0, false) := rfl
  have hperim : settlePerim l { m := regionOpened l run m } = { m := regionOpened l run m } := rfl
  have hnote : noteLine l 0 (regionOpened l run m) = spansKept l.n [(l.base + run.start, l.base + run.stop)] (regionOpened l run m) := by
    simp only [noteLine, ownRuns_opened, if_true]
    rfl
  have hdue (spans : List (Nat × Nat)) :
      closeDue l { m := spansKept l.n spans (regionOpened l run m) } = { m := spansKept l.n spans (regionOpened l run m) } :=
    closeDue_current rfl rfl rfl
  simp only [segmentLine, hstart, hlimit, List.foldl_cons, List.foldl_nil, segRun_opens h hexp, hperim, hexp, hnote, hdue, Bool.false_eq_true,
    if_false, Bool.false_and, List.filter_false, List.map_nil]
  rw [pruneFlags_none]
  · rfl
  · exact h.lineFlags

end

/-! ### What follows the segmentation of a line (R397, R398, R411) -/

/-- A strip handed over with no item of its own (R411). -/
def stripHanded (strip shift : Nat) (s : State) : State :=
  { s with
    marq := { s.marq with lastStrip := strip, handed := 0, cnt := { s.marq.cnt with handed := wrap32 s.marq.cnt.handed } }
    scribe := { s.scribe with marqDone := some (wrap32 (stripFirst shift strip + 2 ^ shift - 1)) } }

/-- Where the count of items handed over is within its 32 bits, a strip without items leaves it as it is. -/
def stripEnded (strip shift : Nat) (s : State) : State :=
  { s with
    marq := { s.marq with lastStrip := strip, handed := 0 }
    scribe := { s.scribe with marqDone := some (wrap32 (stripFirst shift strip + 2 ^ shift - 1)) } }

theorem stripHanded_fits {s : State} (strip shift : Nat) (h : s.marq.cnt.handed < 2 ^ 32) : stripHanded strip shift s = stripEnded strip shift s := by
  rw [stripHanded, wrap32, Nat.mod_eq_of_lt h]
  rfl

theorem OutFrame.stripHanded {a b : State} (h : OutFrame a b) (strip shift : Nat) : OutFrame (stripHanded strip shift a) (stripHanded strip shift b) := by
  unfold OutFrame at *
  rw [h]
  rfl

section
variable {l : SegLine} {s : State}

theorem stripHanded_host (strip shift : Nat) : (stripHanded strip shift s).host = s.host := rfl

theorem digestRegions_solo (strip : Nat) (regions : List Region) (h : s.pair.role = .solo) : digestRegions strip regions s = s := by
  simp [digestRegions, digestWork, paired, isActive, isPassive, h]

theorem handStale_none (strip shift : Nat) (hclosed : s.marq.closed = []) (hoverflow : s.marq.overflow = none) : handStale strip shift s = s := by
  simp only [handStale, hclosed, hoverflow]
  rfl

theorem handOver_none (strip shift : Nat) (hsolo : s.pair.role = .solo) (hclosed : s.marq.closed = []) (hoverflow : s.marq.overflow = none) :
    handOver strip shift s = stripHanded strip shift s := by
  have hself : s = { s with marq := { s.marq with closed := [], overflow := none }, pair := { s.pair with role := .solo } } := by
    rw [← hclosed, ← hoverflow, ← hsolo]
  have hinbox : { s.scribe with inbox := s.scribe.inbox ++ [] } = s.scribe := by rw [List.append_nil]
  rw [stripHanded, ← hinbox, hself]
  rfl

theorem warnTable_off (h : s.marq.regions.length ≤ s.marq.highWater) : warnTable 0 s = s := by
  simp only [warnTable, Nat.max_eq_left h, if_true]

/-- Nothing of a line but a flush and its strip's end is left to settle, where it exports nothing, closes nothing, and no table warning is set. -/
theorem settleLine_quiet (strip : Nat) (flushed : Bool) (hexp : l.exporting = false) (hwarn : l.cfg.tableWarn = 0)
    (hhigh : s.marq.regions.length ≤ s.marq.highWater) :
    settleLine l strip false { flushed } s =
      if isStripLast l.shift l.n then handOver strip l.shift (if flushed then raise 0x1C4 0 0 s else s) else if flushed then raise 0x1C4 0 0 s else s := by
  have hmarq : (if flushed then raise 0x1C4 0 0 s else s).marq = s.marq := by
    split
    · exact (raise_frame _ _ _ _).marq
    · rfl
  simp only [settleLine, routeItems, List.foldl_nil, hexp, hwarn, Bool.false_eq_true, if_false]
  rw [warnTable_off]
  rwa [hmarq]

end

/-! ### One web line (R378, R391, R400) -/

/-- The next web line is stitched, and Marquetry may begin it: it waits for no background and no edge message. -/
structure BeginsLine (n : Nat) (g : GridCfg) (s : State) : Prop where
  next : marqNext s = some n
  grid : (cfgAt s n).grid = some g
  triggered : inSpans s n = true
  stitched : isStitched s n = true
  unfenced : isFenced s 0x06 0 = false
  background : bgReady s (segBankFor s n) n = true
  noImport : g.importCols = 0

/-- Marquetry has no region open and nothing closed, lost or received that waits, and a line takes nothing but its own samples. -/
structure NothingOpen (g : GridCfg) (s : State) : Prop where
  alone : alone s
  noImport : g.importCols = 0
  noExport : g.exportCols = 0
  table : ClearTable s.marq
  closed : s.marq.closed = []
  overflow : s.marq.overflow = none
  edges : s.marq.edges = []
  edgeMissing : s.marq.edgeMissing = []
  noWarning : (regionCfg s.marq.active).tableWarn = 0
  voids : s.dovetail.voids = []

section
variable {n : Nat} {g : GridCfg} {s : State}

theorem BeginsLine.of_plain (h : marqPlain n g s) : BeginsLine n g s := by
  obtain ⟨-, -, -, -, -, -, hnext, hgrid, himport, -, hspan, hstitched, hfence, hbg, -⟩ := h
  exact ⟨hnext, hgrid, hspan, hstitched, hfence, hbg, himport⟩

theorem NothingOpen.of_plain (h : marqPlain n g s) : NothingOpen g s := by
  obtain ⟨-, -, halone, -, -, -, -, -, himport, hexport, -, -, -, -, hregions, hwindow, hclosed, hoverflow, hedges, hmissing, -, hflags, hwarn, hvoids⟩ := h
  exact ⟨halone, himport, hexport, ⟨hregions, hwindow, hflags⟩, hclosed, hoverflow, hedges, hmissing, hwarn, hvoids⟩

/-- A flush comes with a strip's last line only (R400). -/
theorem flushAt_stripLast (h : flushAt s n = true) : isStripLast (cfgAt s n).shift n = true := (Bool.and_eq_true_iff.1 h).1

theorem flushAt_midStrip (h : isStripLast (cfgAt s n).shift n = false) : flushAt s n = false := by
  rw [flushAt, h, Bool.false_and]

theorem marqStep_idle (h : ∀ n ∈ marqNext s, isStitched s n = false ∨ isFenced s 0x06 0 = true) : marqStep s = s := by
  unfold marqStep
  split
  · rfl
  case h_2 n hnext =>
    split
    · rfl
    · refine if_pos ?_
      rcases h n hnext with hunstitched | hfence
      · simp [hunstitched]
      · simp [hfence]

theorem marqStep_begins (h : BeginsLine n g s) : marqStep s = marqLine g n s := by
  simp [marqStep, h.next, h.grid, h.triggered, h.stitched, h.unfenced, h.background, h.noImport]

/-- A line without flags of its own (R403), as far as its runs leave the region table: what follows is settled on that table. -/
theorem marqLine_segments (h : NothingOpen g s) {runs : List Run} {m : Marquetry} {flush : Bool} (hflush : flushAt s n = flush)
    (hruns : codeRuns (lineMasks s s.marq.active g.columns n) 0 = runs) (hlimit : (limitRuns runs).2.2 = false)
    (hflags : ∀ f ∈ fieldsRead s.marq.active false, stTagFlags (readStitchedTag s n f) = 0)
    (hseg : segmentLine (segLineOf s g n) 0 runs none false flush s.marq = { m, out := { flushed := flush } })
    (hedges : m.edges = []) (hmissing : m.edgeMissing = []) :
    marqLine g n s = settleLine (segLineOf s g n) (stripAt s n) false { flushed := flush } { s with marq := m } := by
  simp only [marqLine, afterGlue_none h.alone.1, lastBeforeGlue_none h.alone.1, Bool.false_eq_true, if_false,
    handStale_none _ _ h.closed h.overflow, lineRflags_none hflags, hruns, h.noImport, h.edgeMissing, ne_eq, not_true_eq_false, decide_false,
    Bool.false_and, true_or, if_true, hflush, hseg, hlimit, hedges, hmissing, h.voids, List.filter_nil]
  rw [← hedges, ← hmissing, ← h.voids]
  rfl

theorem segLineOf_noExport (h : g.exportCols = 0) : (segLineOf s g n).exporting = false := decide_eq_false (not_not.2 h)

/-- Marquetry past a line without a segmented sample, with a flush (R400). -/
def flushTaken (n : Nat) (s : State) : State := { s with marq := linePassed n [] (flushedNone s.marq) }

/-- Marquetry past a line whose one run has opened a region. -/
def runTaken (n : Nat) (g : GridCfg) (run : Run) (s : State) : State :=
  { s with marq := linePassed n [(g.base + run.start, g.base + run.stop)] (regionOpened (segLineOf s g n) run s.marq) }

theorem marqLine_noRun (h : NothingOpen g s) (hoff : classesOff s.marq.active) (hmid : isStripLast (cfgAt s n).shift n = false) :
    marqLine g n s = marqTaken n [] s := by
  rw [marqLine_segments h (flushAt_midStrip hmid) (lineRuns_off hoff _) rfl (by simp [fieldsRead_off false hoff]) (segmentLine_noRun h.table false)
    h.edges h.edgeMissing, settleLine_quiet _ _ (segLineOf_noExport h.noExport) h.noWarning (by simp [linePassed, spansKept, h.table.regions])]
  exact if_neg (Bool.eq_false_iff.1 hmid)

theorem marqLine_stripEnds (h : NothingOpen g s) (hoff : classesOff s.marq.active) (hlast : isStripLast (cfgAt s n).shift n = true)
    (hflush : flushAt s n = false) : marqLine g n s = stripHanded (stripAt s n) (cfgAt s n).shift (marqTaken n [] s) := by
  rw [marqLine_segments h hflush (lineRuns_off hoff _) rfl (by simp [fieldsRead_off false hoff]) (segmentLine_noRun h.table false)
    h.edges h.edgeMissing, settleLine_quiet _ _ (segLineOf_noExport h.noExport) h.noWarning (by simp [linePassed, spansKept, h.table.regions])]
  exact (if_pos hlast).trans (handOver_none (s := marqTaken n [] s) _ _ h.alone.2 h.closed h.overflow)

theorem marqLine_flushes (h : NothingOpen g s) (hoff : classesOff s.marq.active) (hflush : flushAt s n = true) :
    marqLine g n s = stripHanded (stripAt s n) (cfgAt s n).shift (raise 0x1C4 0 0 (flushTaken n s)) := by
  have hraise := raise_frame 0x1C4 0 0 (flushTaken n s)
  rw [marqLine_segments h hflush (lineRuns_off hoff _) rfl (by simp [fieldsRead_off false hoff]) (segmentLine_noRun h.table true)
    h.edges h.edgeMissing, settleLine_quiet _ _ (segLineOf_noExport h.noExport) h.noWarning
      (by simp [linePassed, spansKept, flushedNone, h.table.regions])]
  refine (if_pos (flushAt_stripLast hflush)).trans (handOver_none (s := raise 0x1C4 0 0 (flushTaken n s)) _ _ ?_ ?_ ?_)
  · exact hraise.pair_role.trans h.alone.2
  · exact (congrArg _ hraise.marq).trans h.closed
  · exact (congrArg _ hraise.marq).trans h.overflow

theorem marqLine_opens (h : NothingOpen g s) {run : Run} (hruns : codeRuns (lineMasks s s.marq.active g.columns n) 0 = [run])
    (hflags : ∀ f ∈ fieldsRead s.marq.active false, stTagFlags (readStitchedTag s n f) = 0) (hmid : isStripLast (cfgAt s n).shift n = false) :
    marqLine g n s = runTaken n g run s := by
  have hexp := segLineOf_noExport (s := s) (n := n) h.noExport
  rw [marqLine_segments h (flushAt_midStrip hmid) hruns rfl hflags (segmentLine_opens h.table hexp) h.edges h.edgeMissing,
    settleLine_quiet _ _ hexp h.noWarning (Nat.le_max_right _ _)]
  exact if_neg (Bool.eq_false_iff.1 hmid)

/-- Without a partner, a snapshot or a trim that waits, Marquetry's step is all that its next line does. -/
theorem marqNextLine_lone (halone : alone s) (hsnap : s.pair.snapshot = none) (hstrip : s.pair.atStrip = none) (htrims : s.pair.trims = [])
    (hpair : (marqStep s).pair = s.pair) : marqNextLine s = marqStep s := by
  obtain ⟨hglue, hsolo⟩ := halone
  have happly : applySnapshot s = s := by simp only [applySnapshot, hsnap]
  have hholds : pairHolds s = false := by simp [pairHolds, isPassive, hsolo]
  have htake : takeSnapshot (marqStep s) = marqStep s := by simp only [takeSnapshot, hpair, hstrip]
  have hqueues (l : Nat) : queueTrims l (marqStep s) = marqStep s := by
    rw [queueTrims, takeTrims_none _ ((congrArg _ hpair).trans htrims)]
    rfl
  simp only [marqNextLine, happly, hholds, Bool.false_eq_true, if_false, hglue, hqueues, ite_self]
  split <;> exact htake

end

/-! ### Marquetry's next line -/

/-- What the steps around Marquetry's line read is as it was. -/
structure KeepsRest (s r : State) : Prop where
  bench : r.bench = s.bench
  pending : r.pending = s.pending
  pair : r.pair = s.pair
  glue : r.glue = s.glue

theorem KeepsRest.trans {a b c : State} (h : KeepsRest a b) (h' : KeepsRest b c) : KeepsRest a c :=
  ⟨h'.bench.trans h.bench, h'.pending.trans h.pending, h'.pair.trans h.pair, h'.glue.trans h.glue⟩

section
variable {n : Nat} {g : GridCfg} {run : Run} {s : State}

theorem marqTaken_keeps (spans : List (Nat × Nat)) : KeepsRest s (marqTaken n spans s) := ⟨rfl, rfl, rfl, rfl⟩

theorem flushTaken_keeps : KeepsRest s (flushTaken n s) := ⟨rfl, rfl, rfl, rfl⟩

theorem runTaken_keeps : KeepsRest s (runTaken n g run s) := ⟨rfl, rfl, rfl, rfl⟩

theorem stripEnded_keeps (strip shift : Nat) : KeepsRest s (stripEnded strip shift s) := ⟨rfl, rfl, rfl, rfl⟩

theorem marquetryLine_idle : Happens (.marquetryLine ·)
    (fun s => alone s ∧ s.pair.snapshot = none ∧ s.pair.atStrip = none ∧ s.pair.trims = [] ∧
      ∀ n ∈ marqNext s, isStitched s n = false ∨ isFenced s 0x06 0 = true) id [] noPuts :=
  happens_idle (f := settle ∘ marqNextLine) (parts := [12]) (fun _ _ => rfl) fun q ⟨halone, hsnap, hstrip, htrims, hidle⟩ => by
    have hstep := marqStep_idle hidle
    rw [Function.comp_apply, marqNextLine_lone halone hsnap hstrip htrims (by rw [hstep]), hstep, settle_alone halone]

/-- What is so of a plain line is so of the event: no partner, glue-up or trim adds to it. -/
theorem marquetryLine_takes {cond : State → Prop} {new : State → State} {evs : List Nat} (hplain : ∀ q, cond q → marqPlain n g q)
    (hkeeps : ∀ q, KeepsRest q (new q))
    (h : ∀ q, cond q → OutFrame (new q) (marqLine g n q) ∧ ∀ e ∈ evs, bitOf (marqLine g n q).host.evt.pending e = true) :
    Happens (.marquetryLine ·) cond new evs noPuts := by
  refine happens_up (f := settle ∘ marqNextLine) (parts := [12]) (fun _ _ => rfl) (fun q hc => ?_) fun q _ _ hc => ?_
  · obtain ⟨hup, hpart, -⟩ := hplain q hc
    exact ⟨hup, List.forall_mem_singleton.2 hpart⟩
  · obtain ⟨hframe, hevs⟩ := h q hc
    obtain ⟨hbench, hpending, hpair, hglue⟩ := hkeeps q
    obtain ⟨-, -, halone, hsnap, hstrip, htrims, -⟩ := hplain q hc
    have hpair' := hframe.pair.trans hpair
    have hstep : (settle ∘ marqNextLine) q = marqLine g n q := by
      have hbegins := marqStep_begins (.of_plain (hplain q hc))
      rw [Function.comp_apply, marqNextLine_lone halone hsnap hstrip htrims (by rw [hbegins, hpair']), hbegins, settle_alone]
      exact ⟨(hframe.glue.trans hglue).trans halone.1, (congrArg _ hpair').trans halone.2⟩
    rw [hstep]
    exact ⟨hframe, hbench, hpending, hevs, List.nil_subset _⟩

theorem marquetryLine_noRun : Happens (.marquetryLine ·)
    (fun s => marqPlain n g s ∧ isStripLast (cfgAt s n).shift n = false ∧ classesOff s.marq.active) (marqTaken n []) [] noPuts :=
  marquetryLine_takes (fun _ hc => hc.1) (fun _ => marqTaken_keeps _) fun _ ⟨hplain, hmid, hoff⟩ => by
    rw [marqLine_noRun (.of_plain hplain) hoff hmid]
    exact ⟨.refl _, List.forall_mem_nil _⟩

theorem marquetryLine_stripEnds : Happens (.marquetryLine ·)
    (fun s => (marqPlain n g s ∧ isStripLast (cfgAt s n).shift n = true ∧ flushAt s n = false ∧ classesOff s.marq.active) ∧
      s.marq.cnt.handed < 2 ^ 32)
    (fun s => stripEnded (stripAt s n) (cfgAt s n).shift (marqTaken n [] s)) [] noPuts :=
  marquetryLine_takes (fun _ hc => hc.1.1) (fun _ => (marqTaken_keeps _).trans (stripEnded_keeps _ _)) fun q ⟨⟨hplain, hlast, hflush, hoff⟩, hfits⟩ => by
    rw [marqLine_stripEnds (.of_plain hplain) hoff hlast hflush, stripHanded_fits (s := marqTaken n [] q) _ _ hfits]
    exact ⟨.refl _, List.forall_mem_nil _⟩

theorem marquetryLine_flushes : Happens (.marquetryLine ·)
    (fun s => (marqPlain n g s ∧ flushAt s n = true ∧ classesOff s.marq.active) ∧ s.marq.cnt.handed < 2 ^ 32)
    (fun s => stripEnded (stripAt s n) (cfgAt s n).shift (flushTaken n s)) [0x1C4] noPuts :=
  marquetryLine_takes (fun _ hc => hc.1.1) (fun _ => flushTaken_keeps.trans (stripEnded_keeps _ _)) fun q ⟨⟨hplain, hflush, hoff⟩, hfits⟩ => by
    rw [marqLine_flushes (.of_plain hplain) hoff hflush, ← stripHanded_fits (s := flushTaken n q) _ _ hfits]
    have hframe := (raise_frame 0x1C4 0 0 (flushTaken n q)).stripHanded (stripAt q n) (cfgAt q n).shift
    refine ⟨hframe, List.forall_mem_singleton.2 ?_⟩
    rw [stripHanded_host]
    exact raise_sets (s := flushTaken n q) 0x1C4 0 0 hplain.1

theorem marquetryLine_opens : Happens (.marquetryLine ·)
    (fun s => marqPlain n g s ∧ isStripLast (cfgAt s n).shift n = false ∧ codeRuns (lineMasks s s.marq.active g.columns n) 0 = [run] ∧
      (∀ f ∈ fieldsRead s.marq.active false, stTagFlags (readStitchedTag s n f) = 0))
    (runTaken n g run) [] noPuts :=
  marquetryLine_takes (fun _ hc => hc.1) (fun _ => runTaken_keeps) fun _ ⟨hplain, hmid, hruns, hflags⟩ => by
    rw [marqLine_opens (.of_plain hplain) hruns hflags hmid]
    exact ⟨.refl _, List.forall_mem_nil _⟩

end

/-! ### Edge messages of the west neighbour (R414, R419) -/

/-- An edge message kept, in the place of one of the same line. -/
def edgeKept (msg : EdgeMsg) (s : State) : State :=
  { s with marq := { s.marq with edges := (s.marq.edges.filter fun x => decide (x.line ≠ msg.line)) ++ [msg] } }

/-- The edge message of a line declared missing. -/
def edgeMissingCounted (n : Nat) (s : State) : State :=
  { s with marq := { s.marq with
    edgeMissing := s.marq.edgeMissing ++ [n]
    cnt := { s.marq.cnt with edgeMissing := wrap32 (s.marq.cnt.edgeMissing + 1) } } }

section
variable {n : Nat} {g : GridCfg} {msg : EdgeMsg} {s : State}

theorem edgeReceived_keeps (hgrid : (cfgAt s msg.line).grid = some g) (himport : g.importCols ≠ 0) (hmissing : msg.line ∉ s.marq.edgeMissing)
    (hlast : ∀ l ∈ s.marq.last, atOrAfter l msg.line = false) : edgeReceived msg s = edgeKept msg s := by
  simp only [edgeReceived, hgrid]
  refine if_neg ?_
  cases hl : s.marq.last with
  | none => simp [hmissing, himport]
  | some l => simp [hmissing, himport, hlast l hl]

theorem edgeReceived_discards (h : msg.line ∈ s.marq.edgeMissing ∨ (∃ l ∈ s.marq.last, atOrAfter l msg.line = true) ∨
    ∃ g ∈ (cfgAt s msg.line).grid, g.importCols = 0) : edgeReceived msg s = s := by
  unfold edgeReceived
  split
  · rfl
  case h_2 g hgrid =>
    refine if_pos ?_
    rcases h with hmissing | ⟨l, hl, hpast⟩ | ⟨g', hg', himport⟩
    · simp [hmissing]
    · simp [Option.mem_def.1 hl, hpast]
    · obtain rfl : g' = g := Option.some.inj (hg'.symm.trans hgrid)
      simp [himport]

theorem edgeTimeout_idle (h : ∀ n ∈ marqNext s, n ∈ s.marq.edgeMissing) : edgeTimeout s = s := by
  unfold edgeTimeout
  split
  · rfl
  case h_2 n hnext =>
    split
    · rfl
    · exact if_pos (by simp [h n hnext])

theorem edgeTimeout_declares (hnext : marqNext s = some n) (hgrid : (cfgAt s n).grid = some g) (himport : g.importCols ≠ 0)
    (hspan : inSpans s n = true) (hnew : n ∉ s.marq.edgeMissing) (habsent : ∀ e ∈ s.marq.edges, e.line ≠ n) :
    edgeTimeout s = raiseOnceIn (stripAt s n) 0x1C5 0 0 (edgeMissingCounted n s) := by
  simp only [edgeTimeout, hnext, hgrid]
  exact if_neg (by simpa [himport, hspan, hnew] using habsent)

theorem edgeMessageReceived_kept : Happens (.edgeMessageReceived · msg)
    (fun s => up s ∧ (cfgAt s msg.line).grid = some g ∧ g.importCols ≠ 0 ∧ msg.line ∉ s.marq.edgeMissing ∧ ∀ l ∈ s.marq.last, atOrAfter l msg.line = false)
    (edgeKept msg) [] noPuts :=
  happens_silently (f := onFabric [] (edgeReceived msg)) (fun _ _ => rfl) (fun _ => rfl) (fun _ => rfl)
    fun _ ⟨hup, hgrid, himport, hmissing, hlast⟩ => by
      rw [onFabric_up _ hup (List.forall_mem_nil _), edgeReceived_keeps hgrid himport hmissing hlast]

theorem edgeMessageReceived_discarded : Happens (.edgeMessageReceived · msg)
    (fun s => msg.line ∈ s.marq.edgeMissing ∨ (∃ l ∈ s.marq.last, atOrAfter l msg.line = true) ∨ ∃ g ∈ (cfgAt s msg.line).grid, g.importCols = 0)
    id [] noPuts :=
  happens_idle (f := edgeReceived msg) (parts := []) (fun _ _ => rfl) fun _ hc => edgeReceived_discards hc

theorem edgeMessageTimeout_declaresMissing : Happens (.edgeMessageTimeout ·)
    (fun s => up s ∧ marqNext s = some n ∧ (cfgAt s n).grid = some g ∧ g.importCols ≠ 0 ∧ inSpans s n = true ∧ n ∉ s.marq.edgeMissing ∧
      (∀ e ∈ s.marq.edges, e.line ≠ n) ∧ firstIn 0x1C5 (stripAt s n) s) (edgeMissingCounted n) [0x1C5] noPuts :=
  happens_raisingOnce 0x1C5 (fun _ _ => rfl) (fun _ => ⟨rfl, rfl, rfl, rfl⟩)
    fun _ ⟨hup, hnext, hgrid, himport, hspan, hnew, habsent, hfirst⟩ =>
      ⟨hup, hfirst, edgeTimeout_declares hnext hgrid himport hspan hnew habsent⟩

theorem edgeMessageTimeout_idle : Happens (.edgeMessageTimeout ·) (fun s => ∀ n ∈ marqNext s, n ∈ s.marq.edgeMissing) id [] noPuts :=
  happens_idle (f := edgeTimeout) (parts := []) (fun _ _ => rfl) fun _ hc => edgeTimeout_idle hc

end

/-! ### A count of items past 32 bits -/

/-- Marquetry has web line 255, the last of strip 0 with its 256 lines, before it, and nothing to hand over; its count of items handed over stands
at 2^32: `State.Inv` does not keep the counters of Table 8-17 to the 32 bits they have. -/
def handedPastItsWidth : State :=
  let s := State.reset
  { s with
    hf := { s.hf with fabric := .running }
    spans := [(0, 1000)]
    running := { s.running with grid := some {} }
    dovetail := { s.dovetail with last := some 300 }
    marq := { s.marq with last := some 254, cnt := { s.marq.cnt with handed := 2 ^ 32 } } }

theorem marqPlain_handedPastItsWidth : marqPlain 255 {} (tick 0 handedPastItsWidth) := by decide +kernel

/-- The strip has no item, but as it ends the count of items handed over goes back into 32 bits. -/
theorem marquetryLine_handedPastItsWidth : ∃ r, exec (.marquetryLine 0) handedPastItsWidth = .next r ∧ r.marq.cnt.handed = 0 :=
  ⟨_, rfl, by decide +kernel⟩

/-- Refutes O33: the hand-over of a strip without items changes the count of items handed over where that count is past 32 bits. The statement asks
for `State.Inv`, which says nothing of the counters; `marquetryLine_stripEnds` and `marquetryLine_flushes` are the two clauses concerned with the
count within 32 bits as one condition more, and the lemmas `marquetryLine_idle`, `marquetryLine_noRun`, `marquetryLine_opens`,
`edgeMessageReceived_…` and `edgeMessageTimeout_…` are the seven others as they stand. -/
theorem not_marquetrySegments : ¬ Obligations.MarquetrySegments := by
  unfold Obligations.MarquetrySegments
  rintro ⟨-, -, hhands, -, -, -, -, -, -⟩
  obtain ⟨r, hr, -, hframe, -, -⟩ := hhands 255 {} 0 handedPastItsWidth ⟨rfl, rfl, rfl⟩
    ⟨marqPlain_handedPastItsWidth, by decide +kernel, by decide +kernel, by decide +kernel⟩
  obtain ⟨r', hr', hzero⟩ := marquetryLine_handedPastItsWidth
  obtain rfl : r' = r := by
    rw [hr'] at hr
    exact Host.Outcome.next.inj hr
  rw [hframe.marq] at hzero
  revert hzero
  decide +kernel

end Sys2Proof.Machine

/-! ## The Scribe: items placed as records, heads, idle queues, patches cut (R427 to R434, R445 to R449) -/

namespace Sys2Proof.Machine

/-! ### Shared rules: frames, the next ticket, one queue of the table -/

section
variable {a b r s : State}

theorem OutFrame.symm (h : OutFrame s r) : OutFrame r s := by
  unfold OutFrame at *
  rw [h]

/-- The state with another Scribe. -/
def withScribe (x : Scribe) (s : State) : State := { s with scribe := x }

theorem issueTicket_next (h : nextSlot s < ledgerSlots) : issueTicket s = some (nextTicket s, issued s) := by
  have hsome : ∃ r, issueTicket s = some (nextTicket s, r) := by
    unfold issueTicket
    simp only [Nat.not_le.2 (show lowestSlot 0 (mergeAsc s.ledger.issued s.ledger.ended) < ledgerSlots from h), if_false]
    exact ⟨_, rfl⟩
  obtain ⟨r, hr⟩ := hsome
  simp only [issued, hr]

theorem issued_frame (h : nextSlot s < ledgerSlots) : OutFrame { s with ledger := (issued s).ledger } (issued s) := issue_frame (issueTicket_next h)

/-- The ledger after an issue follows from the ledger before it. -/
theorem issueTicket_ledger {w v : Nat} {r' : State} (hl : b.ledger = a.ledger) (h : issueTicket a = some (w, r)) (h' : issueTicket b = some (v, r')) :
    r'.ledger = r.ledger := by
  unfold issueTicket at h h'
  rw [hl] at h'
  simp only at h h'
  split at h
  · cases h
  · next hs =>
    rw [if_neg hs] at h'
    obtain ⟨-, rfl⟩ := Prod.mk.inj (Option.some.inj h)
    obtain ⟨-, rfl⟩ := Prod.mk.inj (Option.some.inj h')
    rw [apply_ite State.ledger, apply_ite State.ledger, raiseOnce_ledger, raiseOnce_ledger]

/-- An issue takes no time. -/
theorem issued_now (s : State) : (issued s).now = s.now := by
  unfold issued issueTicket
  simp only
  split
  · next heq =>
    split at heq
    · cases heq
    · obtain ⟨-, rfl⟩ := Prod.mk.inj (Option.some.inj heq)
      split
      · exact raiseOnce_now _ _ _ _
      · rfl
  · rfl

/-- What the Scribe holds has no part in the issue of a ticket. -/
theorem issued_withScribe (x : Scribe) (h : nextSlot s < ledgerSlots) : OutFrame (withScribe x (issued s)) (issued (withScribe x s)) := by
  have hlast := issued_frame (s := withScribe x s) h
  rw [issueTicket_ledger (a := s) (b := withScribe x s) rfl (issueTicket_next h) (issueTicket_next h)] at hlast
  exact ((issued_frame h).withScribe x).symm.trans hlast

theorem setQueue_self {q : Nat} (hq : q < 16) (f : Queue → Queue) (s : State) :
    vget (setQueue q f s).scribe.queues q = f (vget s.scribe.queues q) := vget_vmod_self _ _ _ hq

/-- A unit of the fabric that changes tables alone. -/
theorem happens_working {i : Nat → Instr} {f new : State → State} {parts : List Nat} {cond : State → Prop}
    (hx : ∀ t s, exec (i t) s = runFabric t parts s f) (hb : ∀ q, (new q).bench = q.bench) (hp : ∀ q, (new q).pending = q.pending)
    (h : ∀ q, cond q → up q ∧ (∀ k ∈ parts, partUp q k = true) ∧ f q = new q) : Happens i cond new [] noPuts :=
  happens_silently (f := onFabric parts f) hx hb hp fun q hc => by
    obtain ⟨hup, hparts, hf⟩ := h q hc
    rw [onFabric_up f hup hparts, hf]

end

/-! ### A record written at WR (R430, R434, R445) -/

section
variable {q : Nat} {s : State}

/-- One record more raises the count of unread records by one at most. -/
theorem unread_succ_le (x : Queue) : (wrap32 (x.wr + 1) + 2 ^ 32 - x.rd) % 2 ^ 32 ≤ unread x + 1 := by
  unfold wrap32 unread
  omega

theorem queueLevel_below (hdone : (vget s.scribe.queues q).thresholdDone = false)
    (h : (vget s.scribe.queues q).threshold = 0 ∨ unread (vget s.scribe.queues q) < (vget s.scribe.queues q).threshold) : queueLevel q s = s := by
  have hreached : (decide ((vget s.scribe.queues q).threshold ≠ 0) &&
      decide ((vget s.scribe.queues q).threshold ≤ unread (vget s.scribe.queues q))) = false := by
    rcases h with h | h
    · simp [h]
    · simp [Nat.not_le.2 h]
  unfold queueLevel
  simp only [Bool.and_assoc, hreached, hdone, Bool.and_false, Bool.false_and, Bool.not_false, Bool.false_eq_true, if_false]

theorem digestRecord_solo (strip : Nat) (bytes : Bytes) (h : s.pair.role = .solo) : digestRecord strip q bytes s = s := by
  simp [digestRecord, digestWork, paired, isActive, isPassive, h]

/-- A queue with room takes a record at WR, below its threshold. -/
theorem writeRecord_takes (hq : q < 16) (strip w : Nat) (bytes : Bytes) (hsolo : s.pair.role = .solo) (h : queueTakes q s) :
    writeRecord q strip w none bytes s = outstanding [(recordOff (vget s.scribe.queues q) (vget s.scribe.queues q).wr, bytes)]
      (setQueue q (queued q strip w s.now) s) := by
  obtain ⟨-, hroom, hdone, hlevel⟩ := h
  have hplaced : setQueue q (fun y => { y with
      wr := wrap32 ((vget s.scribe.queues q).wr + 1)
      head := if (vget s.scribe.queues q).head = unread (vget s.scribe.queues q) ∧ (vget s.scribe.queues q).head < 32 then
        (vget s.scribe.queues q).head + 1 else (vget s.scribe.queues q).head
      live := (vget s.scribe.queues q).live ++ [{ seq := (vget s.scribe.queues q).wr, strip, ticket := w, patchTicket := none }]
      idleSince := if (vget s.scribe.queues q).wr = (vget s.scribe.queues q).rd then s.now else (vget s.scribe.queues q).idleSince
      cnt := { y.cnt with written := wrap32 (y.cnt.written + 1) } }) s = setQueue q (queued q strip w s.now) s := setQueue_congr rfl
  unfold writeRecord
  simp only [Nat.not_le.2 hroom, if_false]
  rw [digestRecord_solo (h := by exact hsolo)]
  refine (queueLevel_below ?_ ?_).trans (congrArg (outstanding _) hplaced)
  · rw [setQueue_self hq]
    exact hdone
  · rw [setQueue_self hq]
    exact hlevel.imp id fun h => (unread_succ_le _).trans_lt h

/-! ### The items of a strip (R427, R429, R430) -/

variable {i : ScribeItem} {k : Nat}

/-- What the Scribe does with a queue's next strip, with what follows it: a relay of the queue sends on, and a glue-up settles. -/
abbrev placingStrip (q : Nat) : State → State := settle ∘ relaySend q ∘ placeStrip q

theorem exec_scribePlaceStrip (hq : q < 16) (t : Nat) (s : State) : exec (.scribePlaceStrip t q) s = runFabric t [14, 15] s (placingStrip q) := by
  show execScribePlaceStrip t q s = _
  rw [execScribePlaceStrip, if_pos hq]

theorem relaySend_noSources (h : s.ring.sources = []) : relaySend q s = s := by
  simp [relaySend, h]

/-- Where no relay is open and the module stands alone, nothing follows the placing. -/
theorem placingStrip_alone {r : State} (hplace : placeStrip q s = r) (halone : alone r) (hsources : r.ring.sources = []) : placingStrip q s = r := by
  show settle (relaySend q (placeStrip q s)) = r
  rw [hplace, relaySend_noSources hsources, settle_alone halone]

theorem placeStrip_noItem (h : ∀ i ∈ s.scribe.inbox, i.queue ≠ q) : placeStrip q s = s := by
  have hnone : nextStrip s q = none := by
    have hempty : s.scribe.inbox.filter (fun i => decide (i.queue = q)) = [] := List.filter_eq_nil_iff.2 fun i hi => by simp [h i hi]
    rw [nextStrip, hempty]
    rfl
  unfold placeStrip
  rw [hnone]
  exact ite_self _

theorem placeStrip_waits (hnext : nextStrip s q = some k) (hdone : sourcesDone s q k = false) : placeStrip q s = s := by
  unfold placeStrip
  simp only [hnext, hdone, Bool.not_false, if_true, ite_self]

/-- The Scribe with no item waiting. -/
def inboxEmptied (s : State) : State := withScribe { s.scribe with inbox := [] } s

/-- The one item of a strip goes to its queue. -/
theorem placeStrip_one (hi : i.queue = q) (hwait : s.scribe.ticketWait = none) (hinbox : s.scribe.inbox = [i]) (hnext : nextStrip s q = some k)
    (hdone : sourcesDone s q k = true) :
    placeStrip q s = withScribe { (placeItems [i] (inboxEmptied s)).2.scribe with
        inbox := (placeItems [i] (inboxEmptied s)).1 ++ (placeItems [i] (inboxEmptied s)).2.scribe.inbox } (placeItems [i] (inboxEmptied s)).2 := by
  have hk : i.lastLine = k := by simpa [nextStrip, hinbox, hi] using hnext
  have hmine : s.scribe.inbox.filter (fun i => decide (i.queue = q) && decide (i.lastLine = k)) = [i] := by simp [hinbox, hi, hk]
  have hothers : s.scribe.inbox.filter (fun i => !(decide (i.queue = q) && decide (i.lastLine = k))) = [] := by simp [hinbox, hi, hk]
  have hsort : sortBy itemOrder [i] = [i] := rfl
  unfold placeStrip
  rw [if_neg (by simp [hwait])]
  simp only [hnext, hdone, Bool.not_true, Bool.false_eq_true, if_false, hmine, hothers, hsort]
  rfl

theorem noTicketWait {s : State} (h : s.scribe.ticketWait = none) : withScribe { s.scribe with ticketWait := none } s = s := by
  rw [← h]
  rfl

theorem placeItems_none (h : s.scribe.ticketWait = none) : placeItems [] s = ([], s) := congrArg (Prod.mk []) (noTicketWait h)

/-- A queue that is off discards an item, and counts it. -/
def discarded (q : Nat) : State → State := setQueue q fun x => { x with cnt := { x.cnt with offDiscards := wrap32 (x.cnt.offDiscards + 1) } }

theorem placeItems_off (hi : i.queue = q) (hwait : s.scribe.ticketWait = none) (hoff : (vget s.scribe.queues q).on = false) :
    placeItems [i] s = ([], discarded q s) := by
  unfold placeItems
  simp only [hi, hoff, Bool.not_false, if_true]
  exact placeItems_none hwait

/-- A queue that is on takes an item under the next ticket. -/
theorem placeItems_on (hi : i.queue = q) (hon : (vget s.scribe.queues q).on = true) (hslot : nextSlot s < ledgerSlots)
    (hwait : s.scribe.ticketWait = none) (hkept : (placeItem i (nextTicket s) (issued s)).scribe.ticketWait = none) :
    placeItems [i] s = ([], placeItem i (nextTicket s) (issued s)) := by
  have hissued : (issued s).scribe.ticketWait = none := by rw [(issued_frame hslot).scribe]; exact hwait
  unfold placeItems
  simp only [hi, hon, Bool.not_true, Bool.false_eq_true, if_false, issueTicket_next hslot]
  rw [show ({ issued s with scribe := { (issued s).scribe with ticketWait := none } } : State) = issued s from noTicketWait hissued]
  exact placeItems_none hkept

/-- The record of an item without a region: its header, no flag of which is set but VALID, and its body (R430, Table 9-1). -/
def plainRecord (x : Queue) (i : ScribeItem) : Bytes := recHeader x.wr (recKindCode i.kind) 0 0 128 ++ i.body

/-- The queue's record written under the ticket issued, nothing waiting: what the placing leaves but for the outstanding write. -/
def placed (q : Nat) (i : ScribeItem) (s : State) : State :=
  setQueue q (queued q i.strip (nextTicket s) s.now) (withScribe { s.scribe with inbox := [] } (issued s))

theorem placeStrip_places (hq : q < 16) (hi : i.queue = q) (hitem : i.item = none) (halone : alone s) (hwait : s.scribe.ticketWait = none)
    (hinbox : s.scribe.inbox = [i]) (hnext : nextStrip s q = some k) (hdone : sourcesDone s q k = true) (htakes : queueTakes q s)
    (hslot : nextSlot s < ledgerSlots) :
    OutFrame (outstanding [(recordOff (vget s.scribe.queues q) (vget s.scribe.queues q).wr, plainRecord (vget s.scribe.queues q) i)] (placed q i s))
      (placeStrip q s) := by
  have hframe := issued_withScribe { s.scribe with inbox := [] } hslot
  have hfields := issued_frame (s := inboxEmptied s) hslot
  generalize hr : issued (inboxEmptied s) = r at hfields
  have hscribe : r.scribe = { s.scribe with inbox := [] } := hfields.scribe
  have hnow : r.now = s.now := hr ▸ issued_now _
  have hplace : placeItem i (nextTicket (inboxEmptied s)) (issued (inboxEmptied s)) =
      outstanding [(recordOff (vget s.scribe.queues q) (vget s.scribe.queues q).wr, plainRecord (vget s.scribe.queues q) i)]
        (setQueue q (queued q i.strip (nextTicket s) s.now) r) := by
    have hwrite := writeRecord_takes (s := r) hq i.strip (nextTicket s) (plainRecord (vget s.scribe.queues q) i)
      (hfields.pair_role.trans halone.2) (by rw [queueTakes, hscribe]; exact htakes)
    rw [hscribe, hnow] at hwrite
    rw [hr, ← hwrite]
    unfold placeItem
    simp only [hitem, hi, hscribe]
    rfl
  have hitems := placeItems_on hi (s := inboxEmptied s) htakes.1 hslot hwait (by rw [hplace]; show r.scribe.ticketWait = none; rw [hscribe]; exact hwait)
  rw [placeStrip_one hi hwait hinbox hnext hdone, hitems, hplace]
  exact ((hr ▸ hframe : OutFrame _ r).setQueue q _).outstanding _

theorem placed_settled (hslot : nextSlot s < ledgerSlots) : Settled s (placed q i s) := by
  have hframe := issued_frame hslot
  refine ⟨issued_now s, hframe.pending, ?_, ?_, ?_⟩
  all_goals
    simp only [placed, setQueue_bench, withScribe, hframe.bench]

theorem placed_others (hslot : nextSlot s < ledgerSlots) :
    (placed q i s).glue = s.glue ∧ (placed q i s).pair = s.pair ∧ (placed q i s).ring = s.ring := by
  have hframe := issued_frame hslot
  simp only [placed, setQueue_glue, setQueue_pair, setQueue_ring, withScribe, hframe.glue, hframe.pair, hframe.ring, and_self]

theorem scribePlaceStrip_noItem (hq : q < 16) : Happens (.scribePlaceStrip · q)
    (fun s => alone s ∧ s.ring.sources = [] ∧ (∀ i ∈ s.scribe.inbox, i.queue ≠ q)) id [] noPuts :=
  happens_idle (exec_scribePlaceStrip hq) fun _ ⟨halone, hsources, hnone⟩ => placingStrip_alone (placeStrip_noItem hnone) halone hsources

theorem scribePlaceStrip_waits (hq : q < 16) : Happens (.scribePlaceStrip · q)
    (fun s => alone s ∧ s.ring.sources = [] ∧ nextStrip s q = some k ∧ sourcesDone s q k = false) id [] noPuts :=
  happens_idle (exec_scribePlaceStrip hq) fun _ ⟨halone, hsources, hnext, hdone⟩ => placingStrip_alone (placeStrip_waits hnext hdone) halone hsources

theorem scribePlaceStrip_places (hq : q < 16) (hi : i.queue = q) (hitem : i.item = none) : Happens (.scribePlaceStrip · q)
    (fun s => up s ∧ partUp s 14 = true ∧ partUp s 15 = true ∧ alone s ∧ s.ring.sources = [] ∧ s.scribe.ticketWait = none ∧
      s.scribe.inbox = [i] ∧ nextStrip s q = some k ∧ sourcesDone s q k = true ∧ queueTakes q s ∧ nextSlot s < ledgerSlots)
    (fun s => written [(recordOff (vget s.scribe.queues q) (vget s.scribe.queues q).wr, plainRecord (vget s.scribe.queues q) i)] (placed q i s)) []
    noPuts := by
  refine happens_writing (exec_scribePlaceStrip hq) (fun s hc => ?_) fun s hc => ?_
  · obtain ⟨hup, h14, h15, -⟩ := hc
    exact ⟨hup, by simpa using ⟨h14, h15⟩⟩
  · obtain ⟨-, -, -, halone, hsources, hwait, hinbox, hnext, hdone, htakes, hslot⟩ := hc
    have hframe := placeStrip_places hq hi hitem halone hwait hinbox hnext hdone htakes hslot
    obtain ⟨hglue, hpair, hring⟩ := placed_others (q := q) (i := i) hslot
    have halone' : alone (placeStrip q s) := ⟨by rw [hframe.glue, ← halone.1, ← hglue]; rfl, by rw [hframe.pair, ← halone.2, ← hpair]; rfl⟩
    have hsources' : (placeStrip q s).ring.sources = [] := by rw [hframe.ring, ← hsources, ← hring]; rfl
    rw [placingStrip_alone rfl halone' hsources']
    exact ⟨hframe, placed_settled hslot, List.forall_mem_nil _⟩

theorem scribePlaceStrip_off (hq : q < 16) (hi : i.queue = q) : Happens (.scribePlaceStrip · q)
    (fun s => up s ∧ partUp s 14 = true ∧ partUp s 15 = true ∧ alone s ∧ s.ring.sources = [] ∧ s.scribe.ticketWait = none ∧
      s.scribe.inbox = [i] ∧ nextStrip s q = some k ∧ sourcesDone s q k = true ∧ (vget s.scribe.queues q).on = false)
    (fun s => discarded q (inboxEmptied s)) [] noPuts := by
  refine happens_working (exec_scribePlaceStrip hq) (fun _ => rfl) (fun _ => rfl) fun s hc => ?_
  obtain ⟨hup, h14, h15, halone, hsources, hwait, hinbox, hnext, hdone, hoff⟩ := hc
  refine ⟨hup, by simpa using ⟨h14, h15⟩, placingStrip_alone ?_ halone hsources⟩
  rw [placeStrip_one hi hwait hinbox hnext hdone, placeItems_off hi (s := inboxEmptied s) hwait hoff]
  rfl

end

/-! ### Heads and idle queues (R434, R445) -/

section
variable {q : Nat} {s : State}

theorem exec_queueHeadRefill (hq : q < 16) (t : Nat) (s : State) : exec (.queueHeadRefill t q) s = runFabric t [15] s (refillHead q) := by
  show execQueueHeadRefill t q s = _
  rw [execQueueHeadRefill, if_pos hq]

theorem exec_queueIdleTimeout (hq : q < 16) (t : Nat) (s : State) : exec (.queueIdleTimeout t q) s = runFabric t [] s (queueIdle q) := by
  show execQueueIdleTimeout t q s = _
  rw [execQueueIdleTimeout, if_pos hq]

theorem queueHeadRefill_takes (hq : q < 16) : Happens (.queueHeadRefill · q)
    (fun s => up s ∧ partUp s 15 = true ∧ (vget s.scribe.queues q).on = true ∧ s.ring.sources = [] ∧ (vget s.scribe.queues q).head < 32 ∧
      (vget s.scribe.queues q).head < unread (vget s.scribe.queues q))
    (setQueue q fun x => { x with head := x.head + 1 }) [] noPuts := by
  refine happens_working (exec_queueHeadRefill hq) (fun _ => rfl) (fun _ => rfl) fun s hc => ?_
  obtain ⟨hup, hpart, hon, hsources, hroom, hmore⟩ := hc
  refine ⟨hup, List.forall_mem_singleton.2 hpart, ?_⟩
  simp only [refillHead, relayedAway, hon, hsources, List.any_nil, Bool.not_false, hroom, hmore, decide_true, Bool.and_self, if_true]
  exact setQueue_congr rfl

theorem queueHeadRefill_rests (hq : q < 16) : Happens (.queueHeadRefill · q)
    (fun s => (vget s.scribe.queues q).on = false ∨ (vget s.scribe.queues q).head = 32 ∨ (vget s.scribe.queues q).head = unread (vget s.scribe.queues q))
    id [] noPuts := by
  refine happens_idle (exec_queueHeadRefill hq) fun s hc => ?_
  unfold refillHead
  rcases hc with hoff | hfull | hall
  · simp [hoff]
  · simp [hfull]
  · simp [hall]

theorem queueIdleTimeout_raises (hq : q < 16) : Happens (.queueIdleTimeout · q)
    (fun s => up s ∧ (vget s.scribe.queues q).on = true ∧ (vget s.scribe.queues q).idleTimeout ≠ 0 ∧
      (vget s.scribe.queues q).wr ≠ (vget s.scribe.queues q).rd ∧ (vget s.scribe.queues q).idleDone = false ∧
      (vget s.scribe.queues q).idleSince + (vget s.scribe.queues q).idleTimeout * 1000 ≤ s.now)
    (setQueue q fun x => { x with idleDone := true }) [0x210 + q] noPuts := by
  refine happens_raising (f := onFabric [] (queueIdle q)) _ (exec_queueIdleTimeout hq) (fun _ => rfl) (fun _ => rfl) fun s hc => ?_
  obtain ⟨hup, hon, htime, hunread, hfirst, hlate⟩ := hc
  refine ⟨hup, ?_⟩
  rw [onFabric_up _ hup (List.forall_mem_nil _)]
  simp [queueIdle, hon, htime, hunread, hfirst, hlate]

theorem queueIdleTimeout_rests (hq : q < 16) : Happens (.queueIdleTimeout · q)
    (fun s => (vget s.scribe.queues q).idleDone = true ∨ (vget s.scribe.queues q).wr = (vget s.scribe.queues q).rd ∨
      s.now < (vget s.scribe.queues q).idleSince + (vget s.scribe.queues q).idleTimeout * 1000) id [] noPuts := by
  refine happens_idle (exec_queueIdleTimeout hq) fun s hc => ?_
  unfold queueIdle
  rcases hc with hdone | hread | hearly
  · simp [hdone]
  · simp [hread]
  · simp [Nat.not_le.2 hearly]

end

/-! ### Patches cut (R446 to R449) -/

section
variable {q : Nat} {s : State} {j : PatchJob}

theorem exec_patchCut (hq : q < 16) (t : Nat) (s : State) : exec (.patchCut t q) s = runFabric t [12] s (cutPatch q) := by
  show execPatchCut t q s = _
  rw [execPatchCut, if_pos hq]

/-- A queue whose patches have all been cut has none to cut. -/
theorem cutPatch_none (h : ∀ j ∈ s.scribe.jobs, j.queue = q → j.cut = true) : cutPatch q s = s := by
  have hnone : nextPatch s q = none := by
    unfold nextPatch
    split
    · rfl
    · next hany =>
      refine List.find?_eq_none.2 fun j hj hjq => hany ?_
      have hqueue : j.queue = q := of_decide_eq_true hjq
      exact List.any_eq_true.2 ⟨j, hj, by simp [hqueue, h j hj hqueue]⟩
  unfold cutPatch
  rw [hnone]

/-- The rows of a patch's box go to its compressor, and the patch is counted. -/
def patchCutTo (q : Nat) (j : PatchJob) (s : State) : State :=
  let raw := packRows j.cols (patchRows s j)
  setQueue q (fun x => { x with cnt := { x.cnt with
      patchesCut := wrap32 (x.cnt.patchesCut + 1)
      truncated := wrap32 (x.cnt.truncated + (if j.truncated then 1 else 0)) } })
    (setCe j.engine (fun u => { u with job := some { source := .patch q j.seq, key := j.seq, level := j.level, raw, ptCols := 0, ptPeriod := 0 } })
      (withScribe { s.scribe with jobs := [{ j with cut := true, payload := raw }] } s))

theorem cutPatch_cuts (hqueue : j.queue = q) (huncut : j.cut = false) (hplain : j.pretransform = false) (hjobs : s.scribe.jobs = [j])
    (hpast : marqPast s j.lastLine = true) (hfence : isFenced s 0x0A j.engine = false) (hidle : (ceAt s j.engine).job = none) :
    cutPatch q s = patchCutTo q j s := by
  have hnext : nextPatch s q = some j := by simp [nextPatch, hjobs, hqueue, huncut]
  have hwaits : (!marqPast s j.lastLine || isFenced s 0x0A j.engine || (ceAt s j.engine).job.isSome) = false := by simp [hpast, hfence, hidle]
  have hmap : s.scribe.jobs.map (fun x => if decide (x.queue = q) && decide (x.seq = j.seq) then
      { x with cut := true, payload := packRows j.cols (patchRows s j) } else x) =
      [{ j with cut := true, payload := packRows j.cols (patchRows s j) }] := by simp [hjobs, hqueue]
  unfold cutPatch
  simp only [hnext, hwaits, Bool.false_eq_true, if_false, hmap]
  simp only [if_neg (Bool.eq_false_iff.1 hplain)]
  rfl

theorem patchCut_rests (hq : q < 16) : Happens (.patchCut · q) (fun s => ∀ j ∈ s.scribe.jobs, j.queue = q → j.cut = true) id [] noPuts :=
  happens_idle (exec_patchCut hq) fun _ hc => cutPatch_none hc

theorem patchCut_cuts (hq : q < 16) (hqueue : j.queue = q) (huncut : j.cut = false) (hplain : j.pretransform = false) : Happens (.patchCut · q)
    (fun s => up s ∧ partUp s 12 = true ∧ s.scribe.jobs = [j] ∧ marqPast s j.lastLine = true ∧ isFenced s 0x0A j.engine = false ∧
      (ceAt s j.engine).job = none)
    (patchCutTo q j) [] noPuts := by
  refine happens_working (exec_patchCut hq) (fun _ => rfl) (fun _ => rfl) fun s hc => ?_
  obtain ⟨hup, hpart, hjobs, hpast, hfence, hidle⟩ := hc
  exact ⟨hup, List.forall_mem_singleton.2 hpart, cutPatch_cuts hqueue huncut hplain hjobs hpast hfence hidle⟩

end

/-- Settles O34: each event of the Scribe by what its unit does with the one item, record or patch that it finds. -/
theorem queuesPlaceAndServe : Obligations.QueuesPlaceAndServe :=
  ⟨fun _ hq => scribePlaceStrip_noItem hq, fun _ _ _ hq hi hitem => scribePlaceStrip_places hq hi hitem,
    fun _ _ _ hq hi => scribePlaceStrip_off hq hi, fun _ _ hq => scribePlaceStrip_waits hq, fun _ hq => queueHeadRefill_takes hq,
    fun _ hq => queueHeadRefill_rests hq, fun _ hq => queueIdleTimeout_raises hq, fun _ hq => queueIdleTimeout_rests hq,
    fun _ hq => patchCut_rests hq, fun _ _ hq _ hqueue huncut hplain => patchCut_cuts hq hqueue huncut hplain⟩

end Sys2Proof.Machine

/-! ## A full queue gives up its oldest unreleased record (R437) -/

namespace Sys2Proof.Machine

/-! ### Events and pending bits -/

section
variable {s : State} {n : Nat}

theorem setBit_other {v m : Nat} (h : m ≠ n) : bitOf (setBit v n true) m = bitOf v m := by
  unfold setBit
  split
  · rfl
  · next hn =>
    have hclear : bitOf v n = false := Bool.eq_false_iff.2 hn
    simp only [if_true, bitOf_add v n m hclear, h, decide_false, Bool.or_false]

/-- A raised source leaves every other source pending, or not, as it was. -/
theorem raise_pending_other {src : Nat} (a b : Int) (h : n ≠ src) :
    bitOf (raise src a b s).host.evt.pending n = bitOf s.host.evt.pending n := by
  by_cases hup : up s
  · rw [raise_pending src a b hup, setBit_other h]
  · rw [raise, if_neg hup, latchEvent]
    split <;> rfl

theorem reportTicket_evOnce (w : Nat) (s : State) : (reportTicket w s).evOnce = s.evOnce := by
  unfold reportTicket
  simp only
  split <;> rfl

theorem endTicket_evOnce (w code : Nat) (s : State) : (endTicket w code s).evOnce = s.evOnce := by
  rw [endTicket, reportTicket_evOnce, decideTicket]
  simp only
  split
  · rfl
  · split
    · rw [raise_evOnce]
    · rfl

/-- The one event of a ticket that ends is the ledger's, EV 0x002 (R44). -/
theorem endTicket_pending (w code : Nat) (s : State) (h : n ≠ 2) :
    bitOf (endTicket w code s).host.evt.pending n = bitOf s.host.evt.pending n := by
  rw [endTicket, reportTicket_evt, decideTicket]
  simp only
  split
  · rfl
  · split
    · rw [raise_pending_other _ _ h]
    · rfl

end

/-! ### The end of a record (R437, R444, R450) -/

/-- The queue but for its records, its stored patches and its count of patches lost. -/
def SamePoints (x y : Queue) : Prop := y = { x with live := y.live, patches := y.patches, cnt := { x.cnt with patchesLost := y.cnt.patchesLost } }

theorem SamePoints.trans {x y z : Queue} (h : SamePoints x y) (h' : SamePoints y z) : SamePoints x z := by
  unfold SamePoints at *
  rw [h] at h'
  exact h'

/-- What the end of a record, and of its patch, may change: tickets, the records and patches of its queue, jobs of the Scribe, compressors, and
directory entries not yet written. -/
structure EndsRecord (q : Nat) (s r : State) : Prop where
  frame : OutFrame { s with ledger := r.ledger, scribe := r.scribe, comp := r.comp, bench := r.bench } r
  queue : SamePoints (vget s.scribe.queues q) (vget r.scribe.queues q)
  mem : r.bench.mem = s.bench.mem
  once : r.evOnce = s.evOnce
  pending : ∀ n, n ≠ 2 → bitOf r.host.evt.pending n = bitOf s.host.evt.pending n

section
variable {q : Nat} {s : State}

theorem EndsRecord.refl (s : State) : EndsRecord q s s := ⟨rfl, rfl, rfl, rfl, fun _ _ => rfl⟩

theorem EndsRecord.trans {a b : State} (h : EndsRecord q s a) (h' : EndsRecord q a b) : EndsRecord q s b where
  frame := by
    have hf := h.frame
    have hf' := h'.frame
    unfold OutFrame at *
    rw [hf] at hf'
    exact hf'
  queue := h.queue.trans h'.queue
  mem := h'.mem.trans h.mem
  once := h'.once.trans h.once
  pending n hn := (h'.pending n hn).trans (h.pending n hn)

theorem endTicket_endsRecord (w code : Nat) (s : State) : EndsRecord q s (endTicket w code s) := by
  have hframe := endTicket_frame w code s
  have hscribe : (endTicket w code s).scribe = s.scribe := hframe.scribe
  have hcomp : (endTicket w code s).comp = s.comp := hframe.comp
  have hbench : (endTicket w code s).bench = s.bench := hframe.bench
  refine ⟨?_, ?_, by rw [hbench], endTicket_evOnce w code s, fun n hn => endTicket_pending w code s hn⟩
  · rw [hscribe, hcomp, hbench]
    exact hframe
  · rw [hscribe]
    rfl

theorem setQueue_endsRecord (hq : q < 16) {f : Queue → Queue} (hf : ∀ x, SamePoints x (f x)) (s : State) : EndsRecord q s (setQueue q f s) :=
  ⟨rfl, by rw [setQueue_self hq]; exact hf _, rfl, rfl, fun _ _ => rfl⟩

theorem clearDirEntry_endsRecord (seq : Nat) (s : State) : EndsRecord q s (clearDirEntry q seq s) := by
  unfold clearDirEntry
  simp only
  split
  · exact .refl s
  · exact ⟨rfl, rfl, rfl, rfl, fun _ _ => rfl⟩

theorem clearDirEntry_ledger (seq : Nat) (s : State) : (clearDirEntry q seq s).ledger = s.ledger := by
  unfold clearDirEntry
  simp only
  split <;> rfl

/-- The compressors at work on a record's patch stop. -/
def cesStopped (q seq : Nat) (s : State) : State :=
  ((s.scribe.jobs.filter fun j => (decide (j.queue = q) && decide (j.seq = seq)) && j.cut).map (·.engine)).foldl
    (fun s e => setCe e (fun u => { u with job := none }) s) s

theorem cesStopped_endsRecord (seq : Nat) (s : State) : EndsRecord q s (cesStopped q seq s) ∧ (cesStopped q seq s).ledger = s.ledger := by
  have hall (es : List Nat) (a : State) : EndsRecord q a (es.foldl (fun s e => setCe e (fun u => { u with job := none }) s) a) ∧
      (es.foldl (fun s e => setCe e (fun u => { u with job := none }) s) a).ledger = a.ledger := by
    induction es generalizing a with
    | nil => exact ⟨.refl a, rfl⟩
    | cons e es ih =>
      obtain ⟨h, hl⟩ := ih (setCe e (fun u => { u with job := none }) a)
      have hfirst : EndsRecord q a (setCe e (fun u => { u with job := none }) a) := ⟨rfl, rfl, rfl, rfl, fun _ _ => rfl⟩
      exact ⟨hfirst.trans h, hl⟩
  exact hall _ s

/-- A record's patch is no longer among those to be cut or compressed. -/
def jobDropped (q seq : Nat) (s : State) : State :=
  withScribe { s.scribe with jobs := s.scribe.jobs.filter fun j => !(decide (j.queue = q) && decide (j.seq = seq)) } s

theorem jobDropped_endsRecord (seq : Nat) (s : State) : EndsRecord q s (jobDropped q seq s) := ⟨rfl, rfl, rfl, rfl, fun _ _ => rfl⟩

/-- A queue counts a patch lost where the code is that of an overwrite. -/
def patchCounted (q code : Nat) : State → State :=
  setQueue q fun x => { x with cnt := { x.cnt with patchesLost := wrap32 (x.cnt.patchesLost + (if code = 1 then 1 else 0)) } }

theorem patchCounted_endsRecord (hq : q < 16) (code : Nat) (s : State) : EndsRecord q s (patchCounted q code s) := by
  unfold patchCounted
  refine setQueue_endsRecord hq ?_ s
  exact fun _ => rfl

/-- Within what the end of a record may change, one ticket has ended with a code, and the ledger is otherwise as it was. -/
def EndsTicket (q w code : Nat) (s r : State) : Prop :=
  EndsRecord q s r ∧ ∃ a : State, a.ledger = s.ledger ∧ r.ledger = (endTicket w code a).ledger

theorem EndsRecord.endsTicket {a : State} (h : EndsRecord q s a) (hl : a.ledger = s.ledger) (w code seq : Nat) :
    EndsTicket q w code s (clearDirEntry q seq (endTicket w code a)) :=
  ⟨h.trans ((endTicket_endsRecord w code a).trans (clearDirEntry_endsRecord seq _)), a, hl, clearDirEntry_ledger seq _⟩

theorem freeStored_ends (hq : q < 16) (p : StoredPatch) (code : Nat) (s : State) : EndsTicket q p.ticket code s (freeStored q p code s) := by
  unfold freeStored
  refine EndsRecord.endsTicket (setQueue_endsRecord hq ?_ s) rfl p.ticket code p.seq
  exact fun _ => rfl

/-- The patch of a record, where it is stored. -/
abbrev storedOf (x : Queue) (r : LiveRec) : Option StoredPatch := x.patches.find? fun p => decide (p.seq = r.seq)

section
variable {r : LiveRec} (code : Nat)

theorem dropPatch_stored {p : StoredPatch} (h : storedOf (vget s.scribe.queues q) r = some p) : dropPatch q r code s = freeStored q p code s := by
  unfold storedOf at h
  unfold dropPatch
  rw [h]

theorem dropPatch_none (h : storedOf (vget s.scribe.queues q) r = none) (hw : r.patchTicket = none) : dropPatch q r code s = s := by
  unfold storedOf at h
  unfold dropPatch
  rw [h]
  simp only [hw]

/-- A patch still to be cut or compressed ends with its ticket; a compressor at work on it stops. -/
theorem dropPatch_pending (hq : q < 16) {w : Nat} (h : storedOf (vget s.scribe.queues q) r = none) (hw : r.patchTicket = some w) :
    EndsTicket q w code s (dropPatch q r code s) := by
  obtain ⟨hstop, hledger⟩ := cesStopped_endsRecord (q := q) r.seq s
  have heq : dropPatch q r code s = clearDirEntry q r.seq (endTicket w code (jobDropped q r.seq (patchCounted q code (cesStopped q r.seq s)))) := by
    unfold storedOf at h
    unfold dropPatch
    rw [h]
    simp only [hw]
    rfl
  rw [heq]
  exact (hstop.trans ((patchCounted_endsRecord hq code _).trans (jobDropped_endsRecord r.seq _))).endsTicket hledger w code r.seq

theorem dropPatch_endsRecord (hq : q < 16) : EndsRecord q s (dropPatch q r code s) := by
  cases h : storedOf (vget s.scribe.queues q) r with
  | some p => exact dropPatch_stored code h ▸ (freeStored_ends hq p code s).1
  | none =>
    cases hw : r.patchTicket with
    | some w => exact (dropPatch_pending code hq h hw).1
    | none => exact (dropPatch_none code h hw).symm ▸ .refl s

theorem endRecord_endsRecord (hq : q < 16) : EndsRecord q s (endRecord q r code s) :=
  (endTicket_endsRecord r.ticket code s).trans (dropPatch_endsRecord code hq)

end

/-! ### The tickets of a record (R437, Table 17-3) -/

/-- A record's tickets are in use, in slots of their own, and a stored patch of the record is that of its patch ticket. -/
structure OwnsTickets (x : Queue) (r : LiveRec) (l : Ledger) : Prop where
  wf : LedgerWf l
  record : ticketLive l r.ticket = true
  patch : ∀ w, r.patchTicket = some w → ticketLive l w = true ∧ ticketSlot w ≠ ticketSlot r.ticket
  stored : ∀ p ∈ x.patches, p.seq = r.seq → r.patchTicket = some p.ticket

/-- What follows of a ledger in which one ticket has ended FAILED for a cause. -/
theorem EndsTicket.fails {w code : Nat} {r : State} (h : EndsTicket q w code s r) (hwf : LedgerWf s.ledger) (hlive : ticketLive s.ledger w = true)
    (h0 : 0 < code) (h16 : code < 16) :
    ticketLive r.ledger w = false ∧ sget r.ledger.failedBy code 0 = sget s.ledger.failedBy code 0 + 1 ∧
    ∀ v, ticketSlot v ≠ ticketSlot w → ticketLive r.ledger v = ticketLive s.ledger v := by
  obtain ⟨-, a, ha, hr⟩ := h
  rw [← ha] at hwf hlive
  obtain ⟨-, -, hdead⟩ := endTicket_ends code hlive hwf.nodup
  rw [hr, ← ha]
  exact ⟨hdead, endTicket_failedBy hlive h0 h16, fun v hv => endTicket_other code hlive hv⟩

theorem endTicket_wf (w code : Nat) {s : State} (h : LedgerWf s.ledger) : LedgerWf (endTicket w code s).ledger :=
  reportTicket_wf w (decideTicket_wf code h)

theorem endTicket_endsTicket (w code : Nat) (s : State) : EndsTicket q w code s (endTicket w code s) :=
  ⟨endTicket_endsRecord w code s, s, rfl, rfl⟩

/-- The record's tickets end FAILED for a cause: its own, and its patch's. -/
theorem endRecord_fails {r : LiveRec} {code : Nat} (hq : q < 16) (h : OwnsTickets (vget s.scribe.queues q) r s.ledger)
    (h0 : 0 < code) (h16 : code < 16) :
    ticketLive (endRecord q r code s).ledger r.ticket = false ∧
    (∀ w, r.patchTicket = some w → ticketLive (endRecord q r code s).ledger w = false) ∧
    sget (endRecord q r code s).ledger.failedBy code 0 = sget s.ledger.failedBy code 0 + (if r.patchTicket.isSome then 2 else 1) := by
  obtain ⟨hwf, hrecord, hpatch, hstored⟩ := h
  obtain ⟨hdead, hcount, hothers⟩ := (endTicket_endsTicket (q := q) r.ticket code s).fails hwf hrecord h0 h16
  have hwf' := endTicket_wf r.ticket code hwf
  have hscribe : (endTicket r.ticket code s).scribe = s.scribe := (endTicket_frame r.ticket code s).scribe
  unfold endRecord
  generalize endTicket r.ticket code s = a at *
  rw [← hscribe] at hstored
  cases hw : r.patchTicket with
  | none =>
    have hnone : storedOf (vget a.scribe.queues q) r = none :=
      List.find?_eq_none.2 fun p hp hseq => by simpa [hw] using hstored p hp (of_decide_eq_true hseq)
    rw [dropPatch_none code hnone hw]
    exact ⟨hdead, nofun, hcount⟩
  | some w =>
    have hends : EndsTicket q w code a (dropPatch q r code a) := by
      cases hfind : storedOf (vget a.scribe.queues q) r with
      | none => exact dropPatch_pending code hq hfind hw
      | some p =>
        have hseq : p.seq = r.seq := by simpa using List.find?_some (p := fun p : StoredPatch => decide (p.seq = r.seq)) hfind
        have hp := hstored p (List.mem_of_find?_eq_some hfind) hseq
        obtain rfl : w = p.ticket := Option.some.inj (hw.symm.trans hp)
        exact dropPatch_stored code hfind ▸ freeStored_ends hq p code a
    obtain ⟨hlive, hslot⟩ := hpatch w hw
    obtain ⟨hdead', hcount', hothers'⟩ := hends.fails hwf' ((hothers w hslot).trans hlive) h0 h16
    refine ⟨(hothers' _ (Ne.symm hslot)).trans hdead, fun v hv => Option.some.inj hv ▸ hdead', ?_⟩
    rw [hcount', hcount]
    rfl

/-! ### What a full queue gives up (R437) -/

section
variable {strip : Nat} {r : LiveRec} {rest : List LiveRec} {x y : Queue}

/-- A queue `y` without the oldest of the records that it had as `x`; its read point and its mark move on where they stood there. -/
def givenUp (x : Queue) (r : LiveRec) (rest : List LiveRec) (y : Queue) : Queue :=
  { y with
    live := rest
    rel := nextRecord x rest
    rd := if !later32 x.rd r.seq then nextRecord x rest else x.rd
    head := if !later32 x.rd r.seq then x.head - 1 else x.head
    markValid := x.markValid && !(x.markValid && !later32 x.mkp r.seq)
    markLost := x.markLost || (x.markValid && !later32 x.mkp r.seq)
    cnt := { y.cnt with
      lost := wrap32 (y.cnt.lost + 1)
      unreadLost := wrap32 (y.cnt.unreadLost + (if !later32 x.rd r.seq then 1 else 0))
      markLosses := wrap32 (y.cnt.markLosses + (if x.markValid && !later32 x.mkp r.seq then 1 else 0)) } }

theorem overwriteOldest_live (h : (vget s.scribe.queues q).live = r :: rest) : overwriteOldest q strip s =
    reportLedger q (raiseOnceIn strip (0x220 + q) 0 0 (setQueue q (givenUp (vget s.scribe.queues q) r rest) (endRecord q r 1 s))) := by
  unfold overwriteOldest
  simp only [h]
  rfl

theorem reportLedger_evt (q : Nat) (s : State) : (reportLedger q s).host.evt = s.host.evt := by
  unfold reportLedger
  simp only
  split <;> rfl

/-- The overwrite event is raised where the record's strip has not raised it (R274). -/
theorem raiseOnceIn_once {src : Nat} {a : State} (hup : up a) :
    (sget a.evOnce src 0 ≠ strip + 1 → bitOf (raiseOnceIn strip src 0 0 a).host.evt.pending src = true) ∧
    (sget a.evOnce src 0 = strip + 1 → (raiseOnceIn strip src 0 0 a).host.evt.pending = a.host.evt.pending) :=
  ⟨raiseOnceIn_sets hup, fun h => by rw [raiseOnceIn, if_pos h]⟩

/-- The state of a full queue with its oldest record given up. -/
structure GaveUp (q strip : Nat) (r : LiveRec) (rest : List LiveRec) (s o : State) : Prop where
  ledger : o.ledger = (endRecord q r 1 s).ledger
  queue : ∃ y, SamePoints (vget s.scribe.queues q) y ∧ vget o.scribe.queues q = givenUp (vget s.scribe.queues q) r rest y
  mem : o.bench.mem = s.bench.mem
  raised : sget s.evOnce (0x220 + q) 0 ≠ strip + 1 → bitOf o.host.evt.pending (0x220 + q) = true
  quiet : sget s.evOnce (0x220 + q) 0 = strip + 1 → bitOf o.host.evt.pending (0x220 + q) = bitOf s.host.evt.pending (0x220 + q)

theorem overwriteOldest_gaveUp (hq : q < 16) (hup : up s) (h : (vget s.scribe.queues q).live = r :: rest) :
    GaveUp q strip r rest s (overwriteOldest q strip s) := by
  have hends : EndsRecord q s (endRecord q r 1 s) := endRecord_endsRecord 1 hq
  have hupE : up (endRecord q r 1 s) := by
    have hfabric : (endRecord q r 1 s).hf.fabric = s.hf.fabric := by rw [hends.frame]
    exact hfabric.trans hup
  obtain ⟨hraised, hquiet⟩ := raiseOnceIn_once (strip := strip) (src := 0x220 + q)
    (a := setQueue q (givenUp (vget s.scribe.queues q) r rest) (endRecord q r 1 s)) hupE
  have hframe := (raiseOnceIn_frame (strip := strip) (src := 0x220 + q)
    (s := setQueue q (givenUp (vget s.scribe.queues q) r rest) (endRecord q r 1 s))).trans (reportLedger_frame q _)
  rw [overwriteOldest_live h]
  refine ⟨hframe.ledger, ⟨_, hends.queue, ?_⟩, ?_, ?_, ?_⟩
  · rw [hframe.scribe, setQueue_self hq]
  · rw [hframe.bench]
    exact hends.mem
  · rw [reportLedger_evt, ← hends.once]
    exact hraised
  · rw [reportLedger_evt, ← hends.once]
    intro honce
    rw [hquiet honce]
    exact hends.pending _ (by omega)

/-! ### The record that overwrites (R430, R436) -/

def withPair (p : PairUnit) (s : State) : State := { s with pair := p }

theorem digestRecord_pair (strip : Nat) (d : Bytes) (s : State) : ∃ p, digestRecord strip q d s = withPair p s := by
  unfold digestRecord digestWork
  simp only
  split
  · exact ⟨_, rfl⟩
  · exact ⟨_, rfl⟩

/-- A record written over the oldest of a full queue without a threshold. -/
theorem writeRecord_full (hq : q < 16) (w : Nat) (d : Bytes) (hfull : (vget s.scribe.queues q).cap ≤ unreleased (vget s.scribe.queues q))
    (hth : (vget (overwriteOldest q strip s).scribe.queues q).threshold = 0) :
    ∃ p, writeRecord q strip w none d s =
      setQueue q (fun y => { queued q strip w (overwriteOldest q strip s).now y with thresholdDone := false })
        (withPair p (outstanding
          [(recordOff (vget (overwriteOldest q strip s).scribe.queues q) (vget (overwriteOldest q strip s).scribe.queues q).wr, d)]
          (overwriteOldest q strip s))) := by
  unfold writeRecord
  rw [if_pos hfull]
  generalize overwriteOldest q strip s = o at *
  obtain ⟨p, hp⟩ := digestRecord_pair (q := q) strip d (setQueue q (queued q strip w o.now)
    (outstanding [(recordOff (vget o.scribe.queues q) (vget o.scribe.queues q).wr, d)] o))
  refine ⟨p, (congrArg (fun a => queueLevel q (digestRecord strip q d a)) (setQueue_congr (g := queued q strip w o.now) rfl)).trans ?_⟩
  refine (congrArg (queueLevel q) hp).trans ?_
  rw [queueLevel_off]
  · exact setQueue_setQueue _ _ (withPair p (outstanding _ o))
  · change (vget (setQueue q (queued q strip w o.now) o).scribe.queues q).threshold = 0
    rw [setQueue_self hq]
    exact hth

/-- Bytes that were written last read back. -/
theorem benchRead_outstanding {off : Nat} {d : Bytes} {a : State} (ha : a.bench = (outstanding [(off, d)] s).bench)
    (h : Memory.wf s.bench.mem = true) (hd : off + d.length ≤ benchSize) : benchRead a off d.length = d := by
  have hnow : memNow (outstanding [(off, d)] s).bench = memWrite (memNow s.bench) off d := by
    simp [memNow, outstanding, applyWrites, List.foldl_append]
  rw [benchRead, ha, hnow]
  exact memRead_memWrite_same (memNow_wf h) hd

/-! ### Where the points of a full queue stand -/

/-- In a full queue, WR and REL name the same place of the body. -/
theorem recordOff_of_full (hcap : 2 ^ 32 % x.cap = 0) (hwr : x.wr < 2 ^ 32) (hrel : x.rel < 2 ^ 32) (h : unreleased x = x.cap) :
    recordOff x x.wr = recordOff x x.rel := by
  have hplace : x.wr % x.cap = x.rel % x.cap := by
    unfold unreleased at h
    have hstep : x.wr ≡ x.rel [MOD x.cap] := by
      have hdvd : x.cap ∣ 2 ^ 32 := Nat.dvd_of_mod_eq_zero hcap
      have hsum : (x.wr + 2 ^ 32 - x.rel) % x.cap = 0 := by
        rw [← Nat.mod_mod_of_dvd _ hdvd, h, Nat.mod_self]
      have hmod : x.rel + (x.wr + 2 ^ 32 - x.rel) ≡ x.rel [MOD x.cap] := by
        simpa [Nat.ModEq] using (Nat.ModEq.refl x.rel).add (show _ ≡ 0 [MOD x.cap] from hsum)
      have hall : x.rel + (x.wr + 2 ^ 32 - x.rel) = x.wr + 2 ^ 32 := by omega
      have hturn : x.wr + 2 ^ 32 ≡ x.wr [MOD x.cap] := by
        simpa [Nat.ModEq] using (Nat.ModEq.refl x.wr).add (show 2 ^ 32 ≡ 0 [MOD x.cap] from hcap)
      exact hturn.symm.trans (hall ▸ hmod)
    exact hstep
  rw [recordOff, recordOff, hplace]

/-- A point at or past another is past it unless it is the same. -/
theorem later32_eq_decide {a b : Nat} (h : a = b ∨ later32 a b = true) : later32 a b = decide (a ≠ b) := by
  by_cases hab : a = b
  · rw [hab, later32_self]
    simp
  · rw [h.resolve_left hab]
    simp [hab]

/-! ### A record for a full queue (R437) -/

/-- The points of a full queue after its oldest record gave way to a new one; the read point and the mark stood at that record or past it. -/
theorem queued_givenUp {w now : Nat} (hz : SamePoints x y) (hseq : r.seq = x.rel) (hnext : nextRecord x rest = wrap32 (x.rel + 1))
    (hrd : x.rd = x.rel ∨ later32 x.rd x.rel = true) (hmk : x.mkp = x.rel ∨ later32 x.mkp x.rel = true) {z : Queue}
    (h : z = { queued q strip w now (givenUp x r rest y) with thresholdDone := false }) :
    z.wr = wrap32 (x.wr + 1) ∧ z.rel = wrap32 (x.rel + 1) ∧ z.cnt.lost = wrap32 (x.cnt.lost + 1) ∧
    z.rd = (if x.rd = x.rel then wrap32 (x.rel + 1) else x.rd) ∧
    z.cnt.unreadLost = wrap32 (x.cnt.unreadLost + (if x.rd = x.rel then 1 else 0)) ∧
    z.markValid = (x.markValid && decide (x.mkp ≠ x.rel)) ∧ z.markLost = (x.markLost || (x.markValid && decide (x.mkp = x.rel))) := by
  have hread := later32_eq_decide hrd
  have hmark := later32_eq_decide hmk
  subst h
  rw [hz]
  simp only [queued, givenUp, hseq, hread, hmark, hnext]
  refine ⟨trivial, trivial, trivial, ?_, ?_, ?_, ?_⟩
  · split <;> simp_all
  · split <;> simp_all
  · cases x.markValid <;> simp
  · simp

theorem recordOff_givenUp (h : SamePoints x y) : recordOff (givenUp x r rest y) (givenUp x r rest y).wr = recordOff x x.wr := by
  have hcap : y.cap = x.cap := by rw [h]
  have hbase : y.base = x.base := by rw [h]
  have hwr : y.wr = x.wr := by rw [h]
  simp only [recordOff, givenUp, hcap, hbase, hwr]

/-- What a record for a full queue does: the queue has given up its oldest record and taken the new one, whose bytes stand where that one's did. -/
structure Overwrites (q strip w : Nat) (d : Bytes) (r : LiveRec) (rest : List LiveRec) (s o : State) : Prop where
  ledger : o.ledger = (endRecord q r 1 s).ledger
  queue : ∃ y now, SamePoints (vget s.scribe.queues q) y ∧
    vget o.scribe.queues q = { queued q strip w now (givenUp (vget s.scribe.queues q) r rest y) with thresholdDone := false }
  bytes : benchRead o (recordOff (vget s.scribe.queues q) (vget s.scribe.queues q).wr) d.length = d
  raised : sget s.evOnce (0x220 + q) 0 ≠ strip + 1 → bitOf o.host.evt.pending (0x220 + q) = true
  quiet : sget s.evOnce (0x220 + q) 0 = strip + 1 → bitOf o.host.evt.pending (0x220 + q) = bitOf s.host.evt.pending (0x220 + q)

theorem writeRecord_overwrites (hq : q < 16) (hup : up s) (w : Nat) {d : Bytes} (hmem : Memory.wf s.bench.mem = true)
    (hfull : unreleased (vget s.scribe.queues q) = (vget s.scribe.queues q).cap) (hlive : (vget s.scribe.queues q).live = r :: rest)
    (hth : (vget s.scribe.queues q).threshold = 0) (hoff : recordOff (vget s.scribe.queues q) (vget s.scribe.queues q).wr + d.length ≤ benchSize) :
    Overwrites q strip w d r rest s (writeRecord q strip w none d s) := by
  obtain ⟨hledger, ⟨y, hy, hqueue⟩, hmem', hraised, hquiet⟩ := overwriteOldest_gaveUp (strip := strip) hq hup hlive
  obtain ⟨p, hr⟩ := writeRecord_full (strip := strip) hq w d hfull.ge (by rw [hqueue, givenUp, hy]; exact hth)
  rw [hr]
  generalize overwriteOldest q strip s = o at *
  have hplace : recordOff (vget o.scribe.queues q) (vget o.scribe.queues q).wr = recordOff (vget s.scribe.queues q) (vget s.scribe.queues q).wr := by
    rw [hqueue]
    exact recordOff_givenUp hy
  refine ⟨hledger, ⟨y, o.now, hy, ?_⟩, ?_, hraised, hquiet⟩
  · rw [setQueue_self hq, ← hqueue]
    rfl
  · rw [hplace]
    exact benchRead_outstanding rfl (hmem' ▸ hmem) hoff

end

end

/-- Settles O10: the oldest record's tickets end, the queue's points move past it, and the new record takes its place. -/
theorem fullQueuesOverwrite : Obligations.FullQueuesOverwrite := by
  intro q strip w d s r rest hq hup hledger hmem x hfull hcap hwr hrel hlive hseq hnext hrd hmk hticket hpatch hstored hth hlen hoff
  have howns : OwnsTickets x r s.ledger := by
    refine ⟨hledger, hticket, fun k hk => ?_, hstored⟩
    simpa [hk] using hpatch
  obtain ⟨hdead, hdeadPatch, hcount⟩ := endRecord_fails (code := 1) hq howns (by omega) (by omega)
  rw [← hlen] at hoff
  obtain ⟨hledger', ⟨y, now, hy, hqueue⟩, hbytes, hraised, hquiet⟩ :=
    writeRecord_overwrites (strip := strip) hq hup w hmem hfull hlive hth hoff
  obtain ⟨hwr', hrel', hlost, hrd', hunread, hmark, hmarkLost⟩ := queued_givenUp hy hseq hnext hrd hmk hqueue
  rw [← hledger'] at hdead hdeadPatch hcount
  rw [hlen] at hbytes
  exact ⟨recordOff_of_full hcap hwr hrel hfull, hbytes, hdead, hdeadPatch, hcount, hwr', hrel', hlost, hrd', hunread, hmark, hmarkLost,
    hraised, hquiet⟩

end Sys2Proof.Machine

/-! ## QUEUE_MARK, QUEUE_REWIND and QUEUE_RELEASE (R442 to R444) -/

namespace Sys2Proof.Machine

/-! ### What a threshold signal can change (R445, R602, R603) -/

/-- `r` is `s` but for the DMA channels, the time, the outputs and the event block. -/
def ChannelFrame (s r : State) : Prop := OutFrame { s with dma := { s.dma with ch := r.dma.ch } } r

section
variable {s r p : State} {q : Nat}

theorem ChannelFrame.refl (s : State) : ChannelFrame s s := rfl

theorem ChannelFrame.trans (h : ChannelFrame s r) (h' : ChannelFrame r p) : ChannelFrame s p := by
  unfold ChannelFrame OutFrame at *
  rw [h] at h'
  exact h'

theorem setChan_channels (c : Nat) (f : DmaChan → DmaChan) (s : State) : ChannelFrame s (setChan c f s) := rfl

theorem raise_channels (src : Nat) (a b : Int) (s : State) : ChannelFrame s (raise src a b s) := by
  have h := raise_frame src a b s
  have hch : (raise src a b s).dma = s.dma := h.dma
  unfold ChannelFrame
  rw [hch]
  exact h

/-- What acts on the channels one after another changes them alone. -/
theorem foldl_channels {f : State → Nat → State} (hf : ∀ c s, ChannelFrame s (f s c)) (cs : List Nat) (s : State) :
    ChannelFrame s (cs.foldl f s) := by
  induction cs generalizing s with
  | nil => exact .refl s
  | cons c cs ih => exact (hf c s).trans (ih _)

theorem fetchDesc_channels (c : Nat) (s : State) : ChannelFrame s (fetchDesc c s) := by
  unfold fetchDesc
  split
  · exact .refl s
  · exact setChan_channels _ _ s

theorem startSignal_channels (c : Nat) (s : State) : ChannelFrame s (startSignal c s) := by
  unfold startSignal
  simp only
  split
  · split
    · exact fetchDesc_channels c s
    · exact setChan_channels _ _ s
  · exact setChan_channels _ _ s
  · exact .refl s

theorem beginSet_channels (c : Nat) (s : State) : ChannelFrame s (beginSet c s) := by
  unfold beginSet
  split
  · exact fetchDesc_channels c s
  · exact setChan_channels _ _ s

theorem settleLock_channels (c : Nat) (s : State) : ChannelFrame s (settleLock c s) := by
  unfold settleLock
  simp only
  split
  · exact .refl s
  · split
    · exact .refl s
    · split
      · exact setChan_channels _ _ s
      · split
        · exact (setChan_channels _ _ s).trans ((setChan_channels _ _ _).trans (raise_channels _ _ _ _))
        · exact (setChan_channels _ _ s).trans (beginSet_channels c _)

theorem settleLocks_channels (s : State) : ChannelFrame s (settleLocks s) := by
  unfold settleLocks
  split
  · exact .refl s
  · exact foldl_channels settleLock_channels _ s

theorem queueSignal_channels (q : Nat) (s : State) : ChannelFrame s (queueSignal q s) := by
  refine (settleLocks_channels s).trans (foldl_channels (fun c s => ?_) _ _)
  simp only
  split
  · exact startSignal_channels c s
  · exact .refl s

/-- A threshold is reached or not: the queue notes it, and channels may start. -/
theorem queueLevel_channels (q : Nat) (s : State) : ∃ b, ChannelFrame (setQueue q (fun x => { x with thresholdDone := b }) s) (queueLevel q s) := by
  unfold queueLevel
  simp only
  split
  · exact ⟨true, (raise_channels _ _ _ _).trans (queueSignal_channels q _)⟩
  · split
    · exact ⟨false, .refl _⟩
    · refine ⟨(vget s.scribe.queues q).thresholdDone, ?_⟩
      rw [setQueue_eq_self]
      · exact .refl s
      · rfl

/-- A queue whose read point has returned to an earlier record (R443). -/
def rewound (seq : Nat) (b : Bool) (x : Queue) : Queue :=
  { x with rd := seq, head := 0, markLost := false, thresholdDone := b, cnt := { x.cnt with rewinds := wrap32 (x.cnt.rewinds + 1) } }

theorem rewindTo_channels (q seq : Nat) (s : State) : ∃ b, ChannelFrame (setQueue q (rewound seq b) s) (rewindTo q seq s) := by
  obtain ⟨b, h⟩ := queueLevel_channels q (setQueue q (fun y => { y with
    rd := seq, head := 0, markLost := false, cnt := { y.cnt with rewinds := wrap32 (y.cnt.rewinds + 1) } }) s)
  refine ⟨b, ?_⟩
  rw [setQueue_setQueue] at h
  exact h

end

/-! ### A command on a queue of its own (R442, R692) -/

section
variable {sp : CmdSpec} {t : Nat} {c : HostCmd} {s q r : State}

theorem onOwnQueue_taken (h : Ready sp c s) (hon : (vget s.scribe.queues c.unit).on = true) (haway : relayedAway s c.unit = false)
    (go : Queue → Verdict) : onOwnQueue c.unit (taken t s) go = go (vget s.scribe.queues c.unit) := by
  have hf := taken_frame t h.inv h.slot
  have haway' : relayedAway (taken t s) c.unit = false := by
    unfold relayedAway at *
    rwa [hf.ring]
  unfold onOwnQueue onQueue
  simp only [hf.scribe, hon, haway', if_true, Bool.false_eq_true, if_false]

theorem onOwnQueue_off (h : Ready sp c s) (hoff : (vget s.scribe.queues c.unit).on = false) (go : Queue → Verdict) :
    onOwnQueue c.unit (taken t s) go = wrongState (taken t s) := by
  have hf := taken_frame t h.inv h.slot
  unfold onOwnQueue onQueue
  simp only [hf.scribe, hoff, Bool.false_eq_true, if_false]

/-- What such a command does to its queue and the channels leaves its reply free to be posted. -/
theorem ChannelFrame.keepsReply {f : Queue → Queue} (h : ChannelFrame (setQueue c.unit f (taken t s)) q) : KeepsReply (taken t s) q := by
  unfold ChannelFrame at h
  exact ⟨h.ledger, h.cmds, h.rings, h.ring, h.hf_fabric⟩

/-- A command that changes its queue, and channels, and is answered at once. -/
theorem execCmd_queue {status : Nat} {body : Bytes} {f : Queue → Queue} (h : Ready sp c s) (hunit : sp.unitOk = unitBelow 16)
    (hdies : sp.dies = fun _ _ => []) (hafter : sp.after = id) (hstaged : isStaged sp.opcode = false) (hst : status ≠ stAccepted)
    (hlen : body.length ≤ 1008) (hrun : sp.run (recOf sp c s) c (taken t s) = { status, body, st := q })
    (hq : ChannelFrame (setQueue c.unit f (taken t s)) q) :
    ∃ r, execCmd sp t c s = .next r ∧ Posted sp.opcode status body c s r ∧
      r.ledger.complete = s.ledger.complete + (if status < 0x8000 then 1 else 0) ∧
      r.ledger.failed = s.ledger.failed + (if status < 0x8000 then 0 else 1) ∧ ReplyFrame q r := by
  have hf := taken_frame t h.inv h.slot
  have hb : q.bench = s.bench := (OutFrame.bench hq).trans hf.bench
  have hp : q.pending = s.pending := (OutFrame.pending hq).trans hf.pending
  obtain ⟨r, hnext, hposted, hcomplete, hfailed, -, -, hframe⟩ :=
    execCmd_status h (by rw [hunit]; rfl) (by rw [hdies]; exact nofun) hrun hst hq.keepsReply hafter hlen
  refine ⟨r, hnext, hposted, hcomplete, hfailed, ?_⟩
  rw [committed_quiet h.inv hb, ← hb, ← hp, hstaged] at hframe
  exact hframe

/-- After such a command the queue is as the command left it, and the rest of the module is as it was but for the channels. -/
theorem ChannelFrame.reply {sp : CmdSpec} {f : Queue → Queue} (h : Ready sp c s) (hq : ChannelFrame (setQueue c.unit f (taken t s)) q)
    (hr : ReplyFrame q r) : r.scribe.queues = vmod s.scribe.queues c.unit f ∧
      ReplyFrame { s with scribe := { s.scribe with queues := r.scribe.queues }, dma := { s.dma with ch := r.dma.ch } } r := by
  have htaken := (taken_frame t h.inv h.slot).setQueue c.unit f
  have hframe : ReplyFrame { setQueue c.unit f s with dma := { s.dma with ch := q.dma.ch } } r := by
    refine hr.after ?_
    have hq' := OutFrame.reply hq
    have htaken' := htaken.reply
    unfold ReplyFrame at *
    rw [htaken'] at hq'
    exact hq'
  have hqueues : r.scribe.queues = vmod s.scribe.queues c.unit f := congrArg Scribe.queues hframe.scribe
  have hdma : r.dma = { s.dma with ch := q.dma.ch } := hframe.dma
  have hchannels : r.dma.ch = q.dma.ch := by rw [hdma]
  refine ⟨hqueues, ?_⟩
  rw [hqueues, hchannels]
  exact hframe

theorem unit_lt (h : Ready sp c s) (hunit : sp.unitOk = unitBelow 16) : c.unit < 16 := by
  have hu := h.unit
  rw [hunit] at hu
  exact of_decide_eq_true hu

end

/-! ### QUEUE_MARK and QUEUE_REWIND (R442, R443) -/

section
variable {t : Nat} {c : HostCmd} {s : State}

/-- A queue whose read point is saved. -/
def marked (x : Queue) : Queue := { x with mkp := x.rd, markValid := true, markLost := false }

theorem queueMark_saves (h : Ready specQueueMark c s) (hon : (vget s.scribe.queues c.unit).on = true) (haway : relayedAway s c.unit = false) :
    Next (.queueMark t c) s fun r => Completes 0x0702 (le 4 (vget s.scribe.queues c.unit).rd) c s r ∧ ReplyFrame (setQueue c.unit marked s) r := by
  have hrun : specQueueMark.run (recOf specQueueMark c s) c (taken t s) =
      ok (le 4 (vget s.scribe.queues c.unit).rd) (setQueue c.unit marked (taken t s)) := by
    simp only [specQueueMark]
    rw [onOwnQueue_taken h hon haway]
    rfl
  obtain ⟨r, hnext, hposted, hcomplete, -, hframe⟩ := execCmd_queue h rfl rfl rfl (by decide) (by decide) (by simp) hrun (.refl _)
  refine ⟨r, hnext, ⟨hposted, hcomplete⟩, hframe.after ?_⟩
  exact ((taken_frame t h.inv h.slot).setQueue c.unit marked).reply

theorem queueRewind_returns (h : Ready specQueueRewind c s) (hon : (vget s.scribe.queues c.unit).on = true) (haway : relayedAway s c.unit = false)
    (hmark : (vget s.scribe.queues c.unit).markValid = true) :
    Next (.queueRewind t c) s fun r =>
      Completes 0x0703 (le 4 (vget s.scribe.queues c.unit).mkp) c s r ∧
      (vget r.scribe.queues c.unit).rd = (vget s.scribe.queues c.unit).mkp ∧ (vget r.scribe.queues c.unit).head = 0 ∧
      (vget r.scribe.queues c.unit).live = (vget s.scribe.queues c.unit).live ∧
      (∀ q : Nat, q < 16 → q ≠ c.unit → vget r.scribe.queues q = vget s.scribe.queues q) ∧
      ReplyFrame { s with scribe := { s.scribe with queues := r.scribe.queues }, dma := { s.dma with ch := r.dma.ch } } r := by
  obtain ⟨b, hq⟩ := rewindTo_channels c.unit (vget s.scribe.queues c.unit).mkp (taken t s)
  have hrun : specQueueRewind.run (recOf specQueueRewind c s) c (taken t s) =
      ok (le 4 (vget s.scribe.queues c.unit).mkp) (rewindTo c.unit (vget s.scribe.queues c.unit).mkp (taken t s)) := by
    simp only [specQueueRewind]
    rw [onOwnQueue_taken h hon haway, if_pos hmark]
  obtain ⟨r, hnext, hposted, hcomplete, -, hframe⟩ := execCmd_queue h rfl rfl rfl (by decide) (by decide) (by simp) hrun hq
  obtain ⟨hqueues, hreply⟩ := hq.reply h hframe
  have hown : vget r.scribe.queues c.unit = rewound (vget s.scribe.queues c.unit).mkp b (vget s.scribe.queues c.unit) := by
    rw [hqueues, vget_vmod_self _ _ _ (unit_lt h rfl)]
  refine ⟨r, hnext, ⟨hposted, hcomplete⟩, ?_, ?_, ?_, fun q _ hne => ?_, hreply⟩
  · rw [hown]; rfl
  · rw [hown]; rfl
  · rw [hown]; rfl
  · rw [hqueues, vget_vmod_ne _ _ _ _ hne]

theorem queueRewind_lost (h : Ready specQueueRewind c s) (hon : (vget s.scribe.queues c.unit).on = true) (haway : relayedAway s c.unit = false)
    (hmark : (vget s.scribe.queues c.unit).markValid = false) (hlost : (vget s.scribe.queues c.unit).markLost = true) :
    Next (.queueRewind t c) s fun r =>
      EndsFailed 0x0703 stMarkLost (le 4 (vget s.scribe.queues c.unit).rel ++ zeros 4) c s r ∧
      (vget r.scribe.queues c.unit).rd = (vget s.scribe.queues c.unit).rel ∧ (vget r.scribe.queues c.unit).markLost = false ∧
      ReplyFrame { s with scribe := { s.scribe with queues := r.scribe.queues }, dma := { s.dma with ch := r.dma.ch } } r := by
  obtain ⟨b, hq⟩ := rewindTo_channels c.unit (vget s.scribe.queues c.unit).rel (taken t s)
  have hrun : specQueueRewind.run (recOf specQueueRewind c s) c (taken t s) =
      fail stMarkLost (le 4 (vget s.scribe.queues c.unit).rel ++ zeros 4) (rewindTo c.unit (vget s.scribe.queues c.unit).rel (taken t s)) := by
    simp only [specQueueRewind]
    rw [onOwnQueue_taken h hon haway]
    simp only [hmark, hlost, if_true, Bool.false_eq_true, if_false]
  obtain ⟨r, hnext, hposted, -, hfailed, hframe⟩ := execCmd_queue h rfl rfl rfl (by decide) (by decide) (by simp [zeros]) hrun hq
  obtain ⟨hqueues, hreply⟩ := hq.reply h hframe
  have hown : vget r.scribe.queues c.unit = rewound (vget s.scribe.queues c.unit).rel b (vget s.scribe.queues c.unit) := by
    rw [hqueues, vget_vmod_self _ _ _ (unit_lt h rfl)]
  refine ⟨r, hnext, ⟨hposted, hfailed⟩, ?_, ?_, hreply⟩
  · rw [hown]; rfl
  · rw [hown]; rfl

end

/-! ### QUEUE_RELEASE (R444) -/

section
variable {q : Nat} {s : State}

/-- A queue's records that are released end one after another. -/
theorem endRecords_endsRecord (hq : q < 16) (code : Nat) (rs : List LiveRec) (s : State) :
    EndsRecord q s (rs.foldl (fun s r => endRecord q r code s) s) := by
  induction rs generalizing s with
  | nil => exact .refl s
  | cons r rs ih => exact (endRecord_endsRecord code hq).trans (ih _)

/-- A queue whose records below UPTO are released. -/
def released (upto : Nat) (drops : Bool) (n : Nat) (x : Queue) : Queue :=
  { x with
    live := x.live.filter fun r => !later32 upto r.seq
    rel := upto
    markValid := x.markValid && !drops
    cnt := { x.cnt with released := wrap32 (x.cnt.released + n) } }

theorem releaseTo_later {upto : Nat} (h : later32 upto (vget s.scribe.queues q).rel = true) : ∃ drops n, (releaseTo q upto s).2 =
    reportLedger q (setQueue q (released upto drops n)
      (((vget s.scribe.queues q).live.filter fun r => later32 upto r.seq).foldl (fun s r => endRecord q r 0 s) s)) := by
  unfold releaseTo
  simp only [h, Bool.not_true, Bool.false_eq_true, if_false]
  exact ⟨_, _, rfl⟩

/-- What a release of records may change. -/
def ReleaseFrame (s r : State) : Prop := OutFrame { s with ledger := r.ledger, scribe := r.scribe, comp := r.comp, bench := r.bench } r

/-- A release moves REL forward to UPTO, and no other point of the queue but its mark. -/
theorem releaseTo_moves (hq : q < 16) (upto : Nat) (s : State) : ReleaseFrame s (releaseTo q upto s).2 ∧
    (vget (releaseTo q upto s).2.scribe.queues q).rel =
      (if later32 upto (vget s.scribe.queues q).rel then upto else (vget s.scribe.queues q).rel) ∧
    (vget (releaseTo q upto s).2.scribe.queues q).rd = (vget s.scribe.queues q).rd ∧
    (vget (releaseTo q upto s).2.scribe.queues q).wr = (vget s.scribe.queues q).wr := by
  by_cases hlater : later32 upto (vget s.scribe.queues q).rel = true
  case neg =>
    unfold releaseTo
    simp only [hlater, Bool.not_false, if_true, Bool.false_eq_true, if_false]
    exact ⟨rfl, trivial, trivial, trivial⟩
  case pos =>
    obtain ⟨hframe, hqueue, -⟩ := endRecords_endsRecord hq 0 ((vget s.scribe.queues q).live.filter fun r => later32 upto r.seq) s
    obtain ⟨drops, n, heq⟩ := releaseTo_later hlater
    rw [heq, if_pos hlater]
    generalize List.foldl _ _ _ = a at *
    have hreport := reportLedger_frame q (setQueue q (released upto drops n) a)
    refine ⟨?_, ?_⟩
    · rw [ReleaseFrame, hreport.ledger, hreport.scribe, hreport.comp, hreport.bench]
      exact hreport.after (hframe.withScribe (setQueue q (released upto drops n) a).scribe)
    · rw [hreport.scribe, setQueue_self hq, released, hqueue]
      exact ⟨rfl, rfl, rfl⟩

end

section
variable {sp : CmdSpec} {t : Nat} {c : HostCmd} {s q : State} {body : Bytes}

/-- An immediate reply of a command that stages nothing. -/
theorem answer_unstaged {r : CmdRec} {status : Nat} (hstaged : isStaged r.opcode = false) (hst : status ≠ stAccepted) (s : State) :
    ReplyFrame s (answer r status body s) := by
  simp only [answer, hst, hstaged, Bool.false_and, Bool.false_eq_true, if_false]
  exact (sendReply_frame r status 0 body _).after ((decideTicket_frame _ _ _).after rfl)

/-- A command that answers ST_OK at once leaves, but for its reply and what is written in the Bench, what its run left. -/
theorem execCmd_answers (h : Ready sp c s) (hunit : sp.unitOk = unitBelow 16) (hdies : sp.dies = fun _ _ => []) (hafter : sp.after = id)
    (hstaged : isStaged sp.opcode = false) (hrun : sp.run (recOf sp c s) c (taken t s) = ok body q) :
    ∃ r, execCmd sp t c s = .next r ∧ ReplyFrame { q with pending := r.pending, bench := r.bench } r := by
  have hj := judge_ready (t := t) h (by rw [hunit]; rfl) (by rw [hdies]; exact nofun) (recOf sp c s) (by rw [hrun]; exact nofun)
  have hanswer : ∃ b e, runHere sp (recOf sp c s) c (taken t s) = answer (recOf sp c s) stOk body (maybeJournal b e q) := by
    refine ⟨journalled q sp.opcode c, .command sp.opcode c (u32 body 0), ?_⟩
    unfold runHere maybeJournal
    simp [hj, hrun, ok, stOk, hafter]
  obtain ⟨b, e, hrh⟩ := hanswer
  refine ⟨_, execCmd_runs h, ?_⟩
  rw [hrh]
  have hframe := (answer_unstaged (body := body) (r := recOf sp c s) hstaged (by decide : stOk ≠ stAccepted) (maybeJournal b e q)).after
    (maybeJournal_frame b e q)
  exact (commit_changes t s _).reply.after (hframe.with_bench _ _)

/-- After a release whose command has replied, settings, links and axes are as they were. -/
theorem ReleaseFrame.replied {r : State} (h : Ready sp c s) (hq : ReleaseFrame (taken t s) q)
    (hr : ReplyFrame { q with pending := r.pending, bench := r.bench } r) : r.scribe = q.scribe ∧
      r.staged = s.staged ∧ r.running = s.running ∧ r.stageGen = s.stageGen ∧ r.gauge = s.gauge ∧ r.links = s.links ∧ r.axes = s.axes := by
  have hf := taken_frame t h.inv h.slot
  unfold ReleaseFrame at hq
  exact ⟨hr.scribe, (hr.staged.trans hq.staged).trans hf.staged, (hr.running.trans hq.running).trans hf.running,
    (hr.stageGen.trans hq.stageGen).trans hf.stageGen, (hr.gauge.trans hq.gauge).trans hf.gauge, (hr.links.trans hq.links).trans hf.links,
    (hr.axes.trans hq.axes).trans hf.axes⟩

theorem queueRelease_moves (h : Ready specQueueRelease c s) (hon : (vget s.scribe.queues c.unit).on = true) (haway : relayedAway s c.unit = false)
    (hupto : later32 (u32 c.params 0) (vget s.scribe.queues c.unit).rd = false) :
    Next (.queueRelease t c) s fun r =>
      (vget r.scribe.queues c.unit).rel =
        (if later32 (u32 c.params 0) (vget s.scribe.queues c.unit).rel then u32 c.params 0 else (vget s.scribe.queues c.unit).rel) ∧
      (vget r.scribe.queues c.unit).rd = (vget s.scribe.queues c.unit).rd ∧
      (vget r.scribe.queues c.unit).wr = (vget s.scribe.queues c.unit).wr ∧
      r.staged = s.staged ∧ r.running = s.running ∧ r.stageGen = s.stageGen ∧ r.gauge = s.gauge ∧ r.links = s.links ∧ r.axes = s.axes := by
  have htaken : (taken t s).scribe = s.scribe := (taken_frame t h.inv h.slot).scribe
  obtain ⟨hframe, hrel, hrd, hwr⟩ := releaseTo_moves (unit_lt h rfl) (u32 c.params 0) (taken t s)
  rw [htaken] at hrel hrd hwr
  have hrun : ∃ body, specQueueRelease.run (recOf specQueueRelease c s) c (taken t s) =
      ok body (releaseTo c.unit (u32 c.params 0) (taken t s)).2 := by
    simp only [specQueueRelease]
    rw [onOwnQueue_taken h hon haway]
    simp only [hupto, Bool.false_eq_true, if_false]
    exact ⟨_, rfl⟩
  obtain ⟨body, hrun⟩ := hrun
  obtain ⟨r, hnext, hreply⟩ := execCmd_answers h rfl rfl rfl (by decide) hrun
  obtain ⟨hscribe, hrest⟩ := hframe.replied h hreply
  refine ⟨r, hnext, ?_⟩
  simp only [hscribe]
  exact ⟨hrel, hrd, hwr, hrest⟩

end

/-! ### On a queue that is off -/

/-- A command that acts on the queue of its unit, where it is on and no relay takes its records. -/
def RunsOnOwnQueue (sp : CmdSpec) : Prop := ∀ r c s, ∃ go, sp.run r c s = onOwnQueue c.unit s go

theorem queueMark_runsOnOwnQueue : RunsOnOwnQueue specQueueMark := by
  intro r c s
  simp only [specQueueMark]
  exact ⟨_, rfl⟩

theorem queueRewind_runsOnOwnQueue : RunsOnOwnQueue specQueueRewind := by
  intro r c s
  simp only [specQueueRewind]
  exact ⟨_, rfl⟩

theorem queueRelease_runsOnOwnQueue : RunsOnOwnQueue specQueueRelease := by
  intro r c s
  simp only [specQueueRelease]
  exact ⟨_, rfl⟩

theorem refuses_queueOff {i : Nat → HostCmd → Instr} {sp : CmdSpec} (hi : ∀ t c s, exec (i t c) s = execCmd sp t c s)
    (hunit : sp.unitOk = unitBelow 16) (hdies : sp.dies = fun _ _ => []) (hrun : RunsOnOwnQueue sp) :
    Refuses i sp (fun c s => (vget s.scribe.queues c.unit).on = false) stWrongState (fun _ _ => zeros 8) :=
  refuses_run hi (by decide) (fun _ _ _ => by rw [hunit]; rfl) (fun _ _ => by rw [hdies]; exact nofun) (fun _ _ => by simp [zeros])
    fun r t c s h hoff => by
      obtain ⟨go, hgo⟩ := hrun r c (taken t s)
      exact hgo.trans (onOwnQueue_off h hoff go)

/-- Settles O19: each command's run on its own queue is computed, and its reply leaves the queue alone. -/
theorem queueReadPoints : Obligations.QueueReadPoints :=
  ⟨fun _ _ _ h hon haway => queueMark_saves h hon haway, fun _ _ _ h hon haway hmark => queueRewind_returns h hon haway hmark,
    fun _ _ _ h hon haway hmark hlost => queueRewind_lost h hon haway hmark hlost,
    fun _ _ _ h hon haway hupto => queueRelease_moves h hon haway hupto,
    refuses_queueOff (fun _ _ _ => rfl) rfl rfl queueMark_runsOnOwnQueue, refuses_queueOff (fun _ _ _ => rfl) rfl rfl queueRewind_runsOnOwnQueue,
    refuses_queueOff (fun _ _ _ => rfl) rfl rfl queueRelease_runsOnOwnQueue⟩

end Sys2Proof.Machine

/-! ## The profile chain, the background and the Veneer (R464 to R493) -/

namespace Sys2Proof.Machine

/-! ### A unit whose work may settle a glue-up -/

/-- A unit that stands alone has nothing to settle behind its work. -/
theorem happens_settling {i : Nat → Instr} {f new : State → State} {parts : List Nat} {cond : State → Prop} {evs : List Nat}
    (hx : ∀ t s, exec (i t) s = runFabric t parts s (settle ∘ f))
    (hc : ∀ q, cond q → up q ∧ (∀ k ∈ parts, partUp q k = true) ∧ alone q) (hkeeps : ∀ q, KeepsRest q (new q))
    (h : ∀ q, cond q → OutFrame (new q) (f q) ∧ ∀ e ∈ evs, bitOf (f q).host.evt.pending e = true) : Happens i cond new evs noPuts := by
  refine happens_up hx (fun q hq => ?_) fun q _ _ hq => ?_
  · obtain ⟨hup, hparts, -⟩ := hc q hq
    exact ⟨hup, hparts⟩
  · obtain ⟨-, -, hglue, hsolo⟩ := hc q hq
    obtain ⟨hframe, hevs⟩ := h q hq
    obtain ⟨hbench, hpending, hpair, hkept⟩ := hkeeps q
    have halone : alone (f q) := ⟨(hframe.glue.trans hkept).trans hglue, (hframe.pair_role.trans (congrArg _ hpair)).trans hsolo⟩
    rw [Function.comp_apply, settle_alone halone]
    exact ⟨hframe, hbench, hpending, hevs, List.nil_subset _⟩

/-- The same, where the unit finds nothing to do. -/
theorem happens_settlingNothing {i : Nat → Instr} {f : State → State} {parts : List Nat} {cond : State → Prop}
    (hx : ∀ t s, exec (i t) s = runFabric t parts s (settle ∘ f)) (h : ∀ q, cond q → alone q ∧ f q = q) : Happens i cond id [] noPuts :=
  happens_idle hx fun q hq => by
    obtain ⟨halone, hf⟩ := h q hq
    rw [Function.comp_apply, hf, settle_alone halone]

/-- Line triggering cannot have resumed since a unit's last line where the unit has taken none. -/
theorem resumedBetween_none (s : State) (n : Nat) : resumedBetween s none n = false := rfl

/-! ### Zones and watches (R464 to R473) -/

theorem setProf_congr {slot : Nat} {f g : SlotProfile → SlotProfile} {s : State} (h : f (vget s.prof.slots slot) = g (vget s.prof.slots slot)) :
    setProf slot f s = setProf slot g s := by
  unfold setProf vmod
  rw [h]

section
variable {slot : Nat} {e : CorrLine} {s : State} {p : SlotProfile}

/-- A slot's chain with its first line in the filters of its one zone, and with that line behind it. -/
def zoneFiltered (slot : Nat) (e : CorrLine) (s : State) (p : SlotProfile) : SlotProfile :=
  { p with
    zones := [(zoneTaken slot e s).1]
    cnt := { p.cnt with
      heldInputs := wrap32 p.cnt.heldInputs
      outputs := wrap32 (p.cnt.outputs + if (zoneTaken slot e s).2 then 1 else 0) } }
def lineFiltered (slot : Nat) (e : CorrLine) (s : State) : SlotProfile :=
  { zoneFiltered slot e s (vget s.prof.slots slot) with last := [(0, e.line)] }

/-- A line's pixels of zone 0 go through filters that have taken no line before. -/
theorem zoneLine_first (hfield : e.field = 0) (hgap : e.gap = false) (hpx : zonePixels slot e s ≠ []) (hzones : p.zones = []) :
    zoneLine (cfgAt s e.line) slot e 0 p = (zoneFiltered slot e s p, (zoneTaken slot e s).2) := by
  have hpixels : (e.samples.take (min (min ((vget (cfgAt s e.line).zone slot).bounds.getD 1 0) e.samples.length) (lineTagReceived e.tag))).drop
      ((vget (cfgAt s e.line).zone slot).bounds.getD 0 0) = zonePixels slot e s := rfl
  have hkey : shimKey e.field 0 = 0 := by rw [hfield]; rfl
  unfold zoneLine
  simp only [hgap, hkey, hzones, Bool.false_eq_true, if_false, Nat.zero_add, hpixels, if_neg hpx]
  rfl

/-- One field of a plain line through the slot's one zone: its watch is looked at where the filters formed an output (R471). -/
theorem profileField_plain (h : profilePlain slot e s) (hpx : zonePixels slot e s ≠ []) :
    profileField (cfgAt s e.line) slot e (vget s.prof.slots slot) =
      if (zoneTaken slot e s).2 then watchField (cfgAt s e.line) slot 0 { lineFiltered slot e s with blockEnd := e.line }
      else (lineFiltered slot e s, []) := by
  obtain ⟨-, -, hfield, hgap, -, -, -, hone, -, hzones, hlast⟩ := h
  have hnone : (zoneFiltered slot e s (vget s.prof.slots slot)).last = [] := hlast
  unfold profileField
  simp only [hone, List.range_one, List.foldl_cons, List.foldl_nil, zoneLine_first hfield hgap hpx hzones, Bool.false_or, hfield, hnone,
    List.filter_nil]
  rfl

/-- An output over the limit of a zone that may enter HIGH at once (R472, Table 10-3). -/
theorem watchStep_high {w : WatchCfg} {q : Int} (hdur : w.minDur ≤ 1) (hhigh : w.high < q) : watchStep w .normal 0 q = (.high, 0) := by
  simp only [watchStep, hhigh, if_true, Nat.zero_add, hdur]

/-- The one zone of field 0 enters HIGH from NORMAL, and is counted and named. -/
theorem watchField_high {cfg : Cfg} {z : ZoneState} {m : Nat} {w : WatchCfg} (hzones : p.zones = [z]) (hkey : z.key = 0) (hstate : z.watch = .normal)
    (hcount : z.count = 0) (hout : z.grit.out = some m) (hwatch : watchOf cfg slot 0 = w) (hmode : w.mode = 1) (hdur : w.minDur ≤ 1)
    (hhigh : w.high < (m : Int)) :
    watchField cfg slot 0 p =
      ({ p with zones := [{ z with watch := .high, count := 0 }], cnt := { p.cnt with highEntries := wrap32 (p.cnt.highEntries + 1) } },
        [(0, 0, .high)]) := by
  have hmine : [z].filter (fun z => decide (z.key / 64 = 0) && z.grit.out.isSome) = [z] := by simp [hkey, hout]
  have hvalue (a : Nat) : watchValue w.mode (z.grit.out.getD 0) a = some (m : Int) := by simp [watchValue, hmode, hout]
  unfold watchField
  simp only [hzones, hmine, List.foldl_cons, List.foldl_nil, hkey, hwatch, hvalue, hstate, hcount, watchStep_high hdur hhigh, List.map_cons,
    List.map_nil, reduceCtorEq, if_true, if_false, List.nil_append]

/-! ### A slot's next corrected line (R464) -/

theorem profileNext_plain (h : profilePlain slot e s) : profileNext s slot = some e.line := by
  obtain ⟨-, -, hfield, -, hout, -, hfields, -, -, -, hlast⟩ := h
  have hbit : bitOf 1 0 = true := by decide
  simp [profileNext, hout, hfields, hfield, hlast, hbit]

/-- A plain line is all that its step takes: what its field makes of the chain is kept and reported, and what nobody needs any more is dropped. -/
theorem profileStep_plain (h : profilePlain slot e s) {x : SlotProfile × List ZoneChange}
    (hx : profileField (cfgAt s e.line) slot e (vget s.prof.slots slot) = x) :
    profileStep slot s = pruneOut slot (driftDue slot (raiseWatch slot x.2 (setProf slot (fun _ => x.1) s))) := by
  have hnext := profileNext_plain h
  obtain ⟨-, halone, hfield, -, hout, -, hfields, -, -, -, hlast⟩ := h
  have hbit : bitOf 1 0 = true := by decide
  unfold profileStep
  simp only [hnext, afterGlue_none halone.1, hlast, hout, hfields, hfield, hbit, List.foldl_nil, resumedBetween_none, Bool.false_eq_true, if_false,
    decide_true, Bool.and_self, List.filter_cons_of_pos, List.filter_nil, List.foldl_cons, List.nil_append, hx]

/-- The line taken is dropped: no other unit has still to take it, and no drift update waits for it. -/
theorem pruneOut_plain {r : State} (h : profilePlain slot e s) (hlast : (vget r.prof.slots slot).last = [(0, e.line)]) (hplane : r.plane = s.plane)
    (hcfg : cfgAt r e.line = cfgAt s e.line) :
    pruneOut slot (driftDue slot r) = setSlotPlane slot (fun x => { x with out := [] }) r := by
  obtain ⟨-, -, hfield, -, hout, hends, -, -, horder, -⟩ := h
  rw [← hplane] at hout hends
  have hdrift : driftDue slot r = r := by
    unfold driftDue
    simp only [hends, List.filter_nil, List.foldl_nil]
    refine setSlotPlane_eq_self ?_
    simp only [hends, List.filter_nil]
    rw [← hends]
  rw [hdrift]
  refine setSlotPlane_congr ?_
  simpa [hout, hcfg, hlast, hfield, atOrAfter_self] using fun hin => absurd (List.contains_iff_mem.2 hin) (Bool.eq_false_iff.1 horder)

theorem raiseWatch_frame (slot : Nat) (changes : List ZoneChange) (s : State) : OutFrame s (raiseWatch slot changes s) := by
  have hone (src : Nat) (st : WatchState) (s : State) : OutFrame s (match changes.find? fun c => decide (c.2.2 = st) with
      | some c => raise (src + slot) c.1 c.2.1 s
      | none => s) := by
    split
    · exact raise_frame _ _ _ _
    · exact .refl _
  exact (hone _ _ _).after ((hone _ _ _).after (hone _ _ _))

/-- What a plain line leaves: the chain as its field made it, and no line for the slot; what changed in its zones is reported. -/
theorem profileStep_takes (hslot : slot < 24) (h : profilePlain slot e s) {changes : List ZoneChange}
    (hfield : profileField (cfgAt s e.line) slot e (vget s.prof.slots slot) = (p, changes)) (hlast : p.last = [(0, e.line)]) :
    profileStep slot s = setSlotPlane slot (fun x => { x with out := [] }) (raiseWatch slot changes (setProf slot (fun _ => p) s)) := by
  have hframe := raiseWatch_frame slot changes (setProf slot (fun _ => p) s)
  rw [profileStep_plain h hfield]
  refine pruneOut_plain h ?_ hframe.plane (hframe.cfgAt _)
  rw [hframe.prof]
  exact (congrArg SlotProfile.last (vget_vmod_self _ _ _ hslot)).trans hlast

/-- What it leaves is `profiled`, but for what the report of the changes adds. -/
theorem profileStep_profiled (hslot : slot < 24) (h : profilePlain slot e s) {z : ZoneState} {f : SlotProfile → SlotProfile}
    {changes : List ZoneChange} (hfield : profileField (cfgAt s e.line) slot e (vget s.prof.slots slot) = (p, changes))
    (hlast : p.last = [(0, e.line)]) (hp : f { vget s.prof.slots slot with zones := [z], last := [(0, e.line)] } = p) :
    OutFrame (profiled slot e z f s) (profileStep slot s) := by
  have hkept : setProf slot (fun x => f { x with zones := [z], last := [(0, e.line)] }) s = setProf slot (fun _ => p) s := setProf_congr hp
  rw [profileStep_takes hslot h hfield hlast]
  refine ((raiseWatch_frame slot changes _).setSlotPlane slot _).after ?_
  rw [← hkept]
  rfl

theorem exec_profileLine_slot (hslot : slot < 24) (t : Nat) (s : State) :
    exec (.profileLine t slot) s = runFabric t [] s (settle ∘ profileStep slot) := by
  show execProfileLine t slot s = _
  rw [execProfileLine, if_pos hslot]

theorem profileLine_idle (hslot : slot < 24) : Happens (.profileLine · slot) (fun s => alone s ∧ profileNext s slot = none) id [] noPuts :=
  happens_settlingNothing (exec_profileLine_slot hslot) fun _ ⟨halone, hnone⟩ => ⟨halone, by rw [profileStep, hnone]⟩

/-- What the chain makes of a plain line's field is what its event leaves, and what changed in the slot's zones is reported. -/
theorem profileLine_takes {cond : State → Prop} {z : State → ZoneState} {f : SlotProfile → SlotProfile} {p : State → SlotProfile}
    {changes : List ZoneChange} {evs : List Nat} (hslot : slot < 24) (hplain : ∀ q, cond q → profilePlain slot e q)
    (hfield : ∀ q, cond q → profileField (cfgAt q e.line) slot e (vget q.prof.slots slot) = (p q, changes))
    (hp : ∀ q, cond q → (p q).last = [(0, e.line)] ∧ f { vget q.prof.slots slot with zones := [z q], last := [(0, e.line)] } = p q)
    (hevs : ∀ q, up q → ∀ k ∈ evs, bitOf (raiseWatch slot changes q).host.evt.pending k = true) :
    Happens (.profileLine · slot) cond (fun q => profiled slot e (z q) f q) evs noPuts := by
  refine happens_settling (exec_profileLine_slot hslot) (fun q hq => ?_) (fun _ => ⟨rfl, rfl, rfl, rfl⟩) fun q hq => ?_
  · obtain ⟨hup, halone, -⟩ := hplain q hq
    exact ⟨hup, List.forall_mem_nil _, halone⟩
  · obtain ⟨hlast, hchain⟩ := hp q hq
    refine ⟨profileStep_profiled hslot (hplain q hq) (hfield q hq) hlast hchain, ?_⟩
    rw [profileStep_takes hslot (hplain q hq) (hfield q hq) hlast]
    exact hevs (setProf slot (fun _ => p q) q) (hplain q hq).1

theorem profileLine_filters (hslot : slot < 24) : Happens (.profileLine · slot)
    (fun s => profilePlain slot e s ∧ zonePixels slot e s ≠ [] ∧ (zoneTaken slot e s).2 = false)
    (fun s => profiled slot e (zoneTaken slot e s).1 (fun p => { p with cnt := { p.cnt with
      heldInputs := wrap32 p.cnt.heldInputs, outputs := wrap32 p.cnt.outputs } }) s) [] noPuts := by
  refine profileLine_takes (changes := []) (p := lineFiltered slot e) hslot (fun _ hq => hq.1) (fun q ⟨hplain, hpx, hno⟩ => ?_)
    (fun q ⟨_, _, hno⟩ => ⟨rfl, ?_⟩) fun _ _ => List.forall_mem_nil _
  · rw [profileField_plain hplain hpx, hno, if_neg Bool.false_ne_true]
  · simp only [lineFiltered, zoneFiltered, hno, Bool.false_eq_true, if_false, Nat.add_zero]

/-- The chain with its one zone HIGH (R472). -/
def zoneHigh (slot : Nat) (e : CorrLine) (s : State) : SlotProfile :=
  { lineFiltered slot e s with
    zones := [{ (zoneTaken slot e s).1 with watch := .high, count := 0 }]
    blockEnd := e.line
    cnt := { (lineFiltered slot e s).cnt with highEntries := wrap32 ((lineFiltered slot e s).cnt.highEntries + 1) } }

theorem profileLine_entersHigh {m : Nat} {w : WatchCfg} (hslot : slot < 24) (hmode : w.mode = 1) (hdur : w.minDur ≤ 1) (hhigh : w.high < (m : Int)) :
    Happens (.profileLine · slot)
    (fun s => profilePlain slot e s ∧ zonePixels slot e s ≠ [] ∧ (zoneTaken slot e s).2 = true ∧ (zoneTaken slot e s).1.grit.out = some m ∧
      watchOf (cfgAt s e.line) slot 0 = w)
    (fun s => profiled slot e { (zoneTaken slot e s).1 with watch := .high, count := 0 } (fun p => { p with
      blockEnd := e.line
      cnt := { p.cnt with
        heldInputs := wrap32 p.cnt.heldInputs, outputs := wrap32 (p.cnt.outputs + 1)
        highEntries := wrap32 (p.cnt.highEntries + 1) } }) s) [0x240 + slot] noPuts := by
  refine profileLine_takes (changes := [(0, 0, .high)]) (p := zoneHigh slot e) hslot (fun _ hq => hq.1)
    (fun q ⟨hplain, hpx, hformed, hout, hwatch⟩ => ?_) (fun q ⟨_, _, hformed, _⟩ => ⟨rfl, ?_⟩) fun _ hup => List.forall_mem_singleton.2 ?_
  · rw [profileField_plain hplain hpx, hformed, if_pos rfl]
    exact watchField_high (z := (zoneTaken slot e q).1) rfl rfl rfl rfl hout hwatch hmode hdur hhigh
  · simp only [zoneHigh, lineFiltered, zoneFiltered, hformed, if_true]
  · exact raise_sets (0x240 + slot) 0 0 hup

end

/-! ### The background (R475 to R480) -/

section
variable {f : Nat} {s : State} {l : FormedLine} {rest : List FormedLine} {row : List Nat × List (Nat × Nat)} {g : GridCfg}

theorem setBg_congr {f : Nat} {a b : BgField → BgField} {s : State} (h : a (vget s.prof.bg f) = b (vget s.prof.bg f)) : setBg f a s = setBg f b s := by
  unfold setBg vmod
  rw [h]

theorem exec_profileLine_background (t : Nat) (s : State) : exec (.profileLine t 24) s = runFabric t [] s (settle ∘ backgroundStep) := rfl

theorem exec_backgroundRowStore (hf : f < 4) (t : Nat) (s : State) : exec (.backgroundRowStore t f) s = runFabric t [] s (storeRow f) := by
  show execBackgroundRowStore t f s = _
  rw [execBackgroundRowStore, if_pos hf]

theorem profileLine_noFormed : Happens (.profileLine · 24) (fun s => alone s ∧ s.dovetail.formed = []) id [] noPuts :=
  happens_settlingNothing exec_profileLine_background fun _ ⟨halone, hnone⟩ => ⟨halone, by rw [backgroundStep, hnone]⟩

/-- The one entry of a background of at most 16 columns, with a row taken into filters that have taken none, and the samples clipped (R476). -/
def firstEntry (l : FormedLine) (row : List Nat × List (Nat × Nat)) (columns : Nat) (s : State) : BgEntry × Nat :=
  bgEntryStep (cfgAt s l.line).bg l.line none ((List.range columns).map fun c => if spanHas row.2 c then none else some (row.1.toArray.getD c 0)) {}

/-- The background with that row behind it. -/
def rowTaken (l : FormedLine) (rest : List FormedLine) (x : BgEntry × Nat) (s : State) : State :=
  let s' := setBg 0 (fun b => { b with entries := [x.1], last := some l.line }) s
  { s' with dovetail := { s.dovetail with formed := rest }, prof := { s'.prof with bgClipped := wrap32 (s.prof.bgClipped + x.2) } }

theorem bgField_first {columns : Nat} (hcols : columns ≤ 16) (hpos : 0 < columns) (hmid : bgCompletes (cfgAt s l.line).bg l.line = false)
    (hentries : (vget s.prof.bg 0).entries = []) (hrows : (vget s.prof.bg 0).rows = []) :
    bgField (cfgAt s l.line) columns l.line 0 row { s with dovetail := { s.dovetail with formed := rest } } =
      rowTaken l rest (firstEntry l row columns s) s := by
  have hcount : bgCount columns = 1 := by unfold bgCount; omega
  unfold bgField
  simp only [hcount, List.range_one, List.foldl_cons, List.foldl_nil, hentries, hrows, hmid, Nat.mul_zero, Nat.sub_zero, Nat.min_eq_right hcols,
    Nat.zero_add, List.nil_append, Bool.false_eq_true, if_false]
  rfl

/-- A line that restarts nothing and completes no row goes through the filters of the one field. -/
theorem backgroundStep_first (hrow : l.rows = [row]) (hcols : g.columns ≤ 16) (hpos : 0 < g.columns) (halone : alone s)
    (hformed : s.dovetail.formed = l :: rest) (hgrid : (cfgAt s l.line).grid = some g) (hfields : (cfgAt s l.line).bg.fields = 1)
    (hmid : bgCompletes (cfgAt s l.line).bg l.line = false) (hlast : ∀ f : Nat, f < 4 → (vget s.prof.bg f).last = none)
    (hentries : (vget s.prof.bg 0).entries = []) (hrows : (vget s.prof.bg 0).rows = []) :
    backgroundStep s = rowTaken l rest (firstEntry l row g.columns s) s := by
  have hnone : ((List.range 4).findSome? fun f => (vget s.prof.bg f).last) = none :=
    List.findSome?_eq_none_iff.2 fun f hf => hlast f (List.mem_range.1 hf)
  have hmask : maskFields 1 = [0] := by decide
  have htaken := bgField_first (row := row) (rest := rest) hcols hpos hmid hentries hrows
  unfold backgroundStep
  simp only [hformed, afterGlue_none halone.1, hnone, resumedBetween_none, hmid, Bool.false_and, Bool.and_false, Bool.or_self, Bool.false_eq_true,
    if_false]
  simp only [hgrid, hfields, hmask, List.foldl_cons, List.foldl_nil, hrow, List.getElem?_cons_zero, htaken]

theorem profileLine_background (hrow : l.rows = [row]) (hcols : g.columns ≤ 16) (hpos : 0 < g.columns) : Happens (.profileLine · 24)
    (fun s => up s ∧ alone s ∧ s.dovetail.formed = l :: rest ∧ (cfgAt s l.line).grid = some g ∧ (cfgAt s l.line).bg.fields = 1 ∧
      bgCompletes (cfgAt s l.line).bg l.line = false ∧ (∀ f : Nat, f < 4 → (vget s.prof.bg f).last = none) ∧
      (vget s.prof.bg 0).entries = [] ∧ (vget s.prof.bg 0).rows = [])
    (fun s => rowTaken l rest (firstEntry l row g.columns s) s) [] noPuts := by
  refine happens_settling exec_profileLine_background (fun _ ⟨hup, halone, _⟩ => ⟨hup, List.forall_mem_nil _, halone⟩) (fun _ => ⟨rfl, rfl, rfl, rfl⟩)
    fun q ⟨_, halone, hformed, hgrid, hfields, hmid, hlast, hentries, hrows⟩ => ?_
  rw [backgroundStep_first hrow hcols hpos halone hformed hgrid hfields hmid hlast hentries hrows]
  exact ⟨.refl _, List.forall_mem_nil _⟩

/-- A waiting row behind those of the profile memory, and counted (R478). -/
def rowStored (f : Nat) (r : BgRow) (s : State) : State :=
  let s' := setBg f (fun b => { b with rows := takeLast 68 (b.rows ++ [r]), waiting := none, fresh := false }) s
  { s' with prof := { s'.prof with bgRows := wrap32 (s.prof.bgRows + 1) } }

theorem storeRow_rests (h : (vget s.prof.bg f).waiting = none ∨ bgRoom s f = false) : storeRow f s = s := by
  unfold storeRow
  rcases h with hnone | hfull
  · simp only [hnone]
  · cases hwait : (vget s.prof.bg f).waiting with
    | none => simp only [hwait]
    | some r => simp only [hwait, hfull, Bool.not_false, if_true]

/-- A row that has room is stored, and the first since a restart is reported. -/
theorem storeRow_stores {r : BgRow} (hwait : (vget s.prof.bg f).waiting = some r) (hroom : bgRoom s f = true) :
    storeRow f s = if (vget s.prof.bg f).fresh then raise (0x288 + f) 0 0 (rowStored f r s) else rowStored f r s := by
  unfold storeRow
  simp only [hwait, hroom, Bool.not_true, Bool.false_eq_true, if_false]
  rfl

theorem backgroundRowStore_rests (hf : f < 4) :
    Happens (.backgroundRowStore · f) (fun s => (vget s.prof.bg f).waiting = none ∨ bgRoom s f = false) id [] noPuts :=
  happens_idle (exec_backgroundRowStore hf) fun _ h => storeRow_rests h

theorem backgroundRowStore_later {r : BgRow} (hf : f < 4) : Happens (.backgroundRowStore · f)
    (fun s => up s ∧ (vget s.prof.bg f).waiting = some r ∧ bgRoom s f = true ∧ (vget s.prof.bg f).fresh = false)
    (fun s =>
      let s' := setBg f (fun b => { b with rows := takeLast 68 (b.rows ++ [r]), waiting := none }) s
      { s' with prof := { s'.prof with bgRows := wrap32 (s.prof.bgRows + 1) } }) [] noPuts := by
  refine happens_working (exec_backgroundRowStore hf) (fun _ => rfl) (fun _ => rfl) fun q ⟨hup, hwait, hroom, hfresh⟩ => ?_
  have hkept : setBg f (fun b => { b with rows := takeLast 68 (b.rows ++ [r]), waiting := none, fresh := false }) q =
      setBg f (fun b => { b with rows := takeLast 68 (b.rows ++ [r]), waiting := none }) q := setBg_congr (by simp only [hfresh])
  refine ⟨hup, List.forall_mem_nil _, ?_⟩
  rw [storeRow_stores hwait hroom, hfresh, if_neg Bool.false_ne_true, rowStored, hkept]

theorem backgroundRowStore_first {r : BgRow} (hf : f < 4) : Happens (.backgroundRowStore · f)
    (fun s => up s ∧ (vget s.prof.bg f).waiting = some r ∧ bgRoom s f = true ∧ (vget s.prof.bg f).fresh = true) (rowStored f r) [0x288 + f] noPuts := by
  refine happens_raising (f := onFabric [] (storeRow f)) _ (exec_backgroundRowStore hf) (fun _ => rfl) (fun _ => rfl)
    fun q ⟨hup, hwait, hroom, hfresh⟩ => ⟨hup, ?_⟩
  rw [onFabric_up _ hup (List.forall_mem_nil _), storeRow_stores hwait hroom, hfresh, if_pos rfl]

end

/-! ### A view stream's next web line (R483, R485, R488) -/

section
variable {v n l : Nat} {f : ViewFrame} {s : State}

theorem setView_congr {v : Nat} {f g : ViewStream → ViewStream} {s : State} (h : f (vget s.views v) = g (vget s.views v)) :
    setView v f s = setView v g s := by
  unfold setView vmod
  rw [h]

theorem setView_setView (v : Nat) (f g : ViewStream → ViewStream) (s : State) : setView v f (setView v g s) = setView v (fun x => f (g x)) s := by
  unfold setView
  simp only [vmod_vmod]

theorem setView_self {v : Nat} (hv : v < 8) (f : ViewStream → ViewStream) (s : State) : vget (setView v f s).views v = f (vget s.views v) :=
  vget_vmod_self _ _ _ hv

theorem OutFrame.setView {a b : State} (h : OutFrame a b) (v : Nat) (f : ViewStream → ViewStream) : OutFrame (setView v f a) (setView v f b) := by
  unfold OutFrame at *
  rw [h]
  rfl

theorem exec_veneerLine (hv : v < 8) (t : Nat) (s : State) : exec (.veneerLine t v) s = runFabric t [12] s (settle ∘ veneerStep v) := by
  show execVeneerLine t v s = _
  rw [execVeneerLine, if_pos hv]

theorem veneerStep_rests (h : ∀ n ∈ viewNext s v, isStitched s n = false ∨ isFenced s 0x08 v = true) : veneerStep v s = s := by
  unfold veneerStep
  split
  · rfl
  case h_2 n hnext =>
    refine if_pos ?_
    rcases h n hnext with hunstitched | hfenced
    · simp [hunstitched]
    · simp [hfenced]

theorem cropTrims_none (h : s.pair.trims = []) : cropTrims v n s = s := by
  unfold cropTrims
  rw [takeTrims_none _ h]
  rfl

/-- The stream past a web line. -/
def linePast (v n : Nat) : State → State := setView v fun x => { x with last := some n }

theorem linePast_self (hv : v < 8) : vget (linePast v n s).views v = { vget s.views v with last := some n } := setView_self hv _ _

/-- A frame takes a web line of its stream: it notes a change of crop, and with its last line it waits to be formed. -/
def frameLine (v n : Nat) (f : ViewFrame) (s : State) : State :=
  let f' := if (f.crops.getLast?).map Prod.snd = some (vget s.views v).crop then f else { f with crops := f.crops ++ [(n, (vget s.views v).crop)] }
  if f'.lastLine = n then setView v (fun x => { x with cur := none, waiting := if f'.skipped then x.waiting else x.waiting ++ [f'] }) s
  else setView v (fun x => { x with cur := some f' }) s

/-- The line enters the frame that is open, if one is. -/
def lineEntered (v n : Nat) (s : State) : State :=
  match (vget s.views v).cur with
  | none => s
  | some f => frameLine v n f s

theorem lineEntered_none (h : (vget s.views v).cur = none) : lineEntered v n s = s := by rw [lineEntered, h]

theorem lineEntered_some (h : (vget s.views v).cur = some f) : lineEntered v n s = frameLine v n f s := by rw [lineEntered, h]

/-- A frame whose crop has not changed is left as it is but for its last line. -/
theorem frameLine_sameCrop (h : (f.crops.getLast?).map Prod.snd = some (vget s.views v).crop) :
    frameLine v n f s = setView v (fun x => { x with
      cur := if f.lastLine = n then none else some f
      waiting := if f.lastLine = n ∧ f.skipped = false then x.waiting ++ [f] else x.waiting }) s := by
  unfold frameLine
  rw [if_pos h]
  by_cases hlast : f.lastLine = n
  · simp only [hlast, if_true, true_and]
    cases hskip : f.skipped <;> rfl
  · simp only [hlast, if_false, false_and]

/-- A line that follows the stream's last one, which the stream has not been resumed from, breaks no frame. -/
def followsLast (v n : Nat) (s : State) : Prop :=
  (∀ l ∈ (vget s.views v).last, wrap32 (l + 1) = n) ∧ resumedBetween s (vget s.views v).last n = false

/-- What a stream makes of its next web line: a frame begins with it where none is open and the stream does not wait for a strip's first line. -/
theorem veneerStep_follows (hv : v < 8) (h : viewPlain v n s) (hfollows : followsLast v n s) :
    veneerStep v s =
      lineEntered v n (if (vget s.views v).cur.isSome || ((vget s.views v).restart && !isStripFirst (cfgAt s n).shift n) then linePast v n s
        else beginFrame v n (vget (cfgAt s n).view v) (cfgAt s n).shift (vget s.views v).restart (linePast v n s)) := by
  obtain ⟨-, -, halone, htrims, hnext, hspan, hstitched, hfence⟩ := h
  obtain ⟨hlast, hresumed⟩ := hfollows
  have hactive : isPassive (linePast v n s) = false := by simp [isPassive, linePast, setView, halone.2]
  have hpast : setView v (fun x => { x with last := some n }) s = linePast v n s := rfl
  unfold veneerStep
  simp only [hnext, hspan, hstitched, hfence, Bool.not_true, Bool.or_self, Bool.false_eq_true, if_false, afterGlue_none halone.1,
    cropTrims_none htrims, hresumed, Bool.or_false]
  cases hl : (vget s.views v).last with
  | none => simp only [hpast, linePast_self hv, hactive, Bool.or_false]; rfl
  | some l => simp only [hpast, linePast_self hv, hactive, hlast l hl, ne_eq, not_true_eq_false, decide_false, Bool.or_false]; rfl

theorem issued_keeps (s : State) : KeepsRest s (issued s) := by
  unfold issued
  split
  · next h =>
    have hframe := issue_frame h
    exact ⟨hframe.bench, hframe.pending, hframe.pair, hframe.glue⟩
  · exact ⟨rfl, rfl, rfl, rfl⟩

/-- A view stream has no part in the issue of a ticket. -/
theorem issued_setView (v : Nat) (f : ViewStream → ViewStream) (h : nextSlot s < ledgerSlots) :
    OutFrame (setView v f (issued s)) (issued (setView v f s)) := by
  have hlast := issued_frame (s := setView v f s) h
  rw [issueTicket_ledger (a := s) (b := setView v f s) rfl (issueTicket_next h) (issueTicket_next h)] at hlast
  exact ((issued_frame h).setView v f).symm.trans hlast

/-- The frame that begins with web line `n`, under its ticket (R485, R488), and the stream with that frame open. -/
def frameOf (v n w : Nat) (s : State) : ViewFrame :=
  { seq := (vget s.views v).seq, firstLine := n, strip := stripAt s n, shift := (cfgAt s n).shift, restart := (vget s.views v).restart,
    skipBefore := (vget s.views v).skipBefore
    lastLine := wrap32 (n + (vget (cfgAt s n).view v).height * (vget (cfgAt s n).view v).ys - 1)
    crops := [(n, (vget s.views v).crop)], ticket := w }
def frameOpened (n : Nat) (f : ViewFrame) (x : ViewStream) : ViewStream :=
  { x with last := some n, seq := wrap32 (x.seq + 1), restart := false, skipBefore := false, cur := some f }

theorem issued_linePast (hv : v < 8) (hslot : nextSlot s < ledgerSlots) :
    vget (issued (linePast v n s)).views v = { vget s.views v with last := some n } := by
  rw [(issued_frame (s := linePast v n s) hslot).views, linePast_self hv]

/-- With a ticket free and nothing of the stream on its way, a frame begins. -/
theorem beginFrame_begins (hv : v < 8) (hslot : nextSlot s < ledgerSlots) (hsending : (vget s.views v).sending = none) :
    beginFrame v n (vget (cfgAt s n).view v) (cfgAt s n).shift (vget s.views v).restart (linePast v n s) =
      setView v (frameOpened n (frameOf v n (nextTicket s) s)) (issued (linePast v n s)) := by
  have hissue : issueTicket (linePast v n s) = some (nextTicket s, issued (linePast v n s)) := issueTicket_next (s := linePast v n s) hslot
  unfold beginFrame
  simp only [linePast_self hv, hsending, hissue, Option.isSome_none, Bool.false_eq_true, if_false]
  refine setView_congr ?_
  rw [issued_linePast hv hslot]
  rfl

theorem veneerStep_begins (hv : v < 8) (h : viewPlain v n s) (hlast : (vget s.views v).last = none) (hcur : (vget s.views v).cur = none)
    (hsending : (vget s.views v).sending = none) (hfirst : isStripFirst (cfgAt s n).shift n = true) (hslot : nextSlot s < ledgerSlots)
    (hmore : (frameOf v n (nextTicket s) s).lastLine ≠ n) :
    OutFrame (setView v (frameOpened n (frameOf v n (nextTicket s) s)) (issued s)) (veneerStep v s) := by
  generalize hf : frameOf v n (nextTicket s) s = f at hmore
  have hfollows : followsLast v n s := by rw [followsLast, hlast]; exact ⟨nofun, rfl⟩
  have hopened : vget (setView v (frameOpened n f) (issued (linePast v n s))).views v = frameOpened n f { vget s.views v with last := some n } := by
    rw [setView_self hv, issued_linePast hv hslot]
  have hcrop : (f.crops.getLast?).map Prod.snd = some (vget (setView v (frameOpened n f) (issued (linePast v n s))).views v).crop := by
    rw [hopened, ← hf]
    rfl
  have hstep : veneerStep v s = setView v (frameOpened n f) (issued (linePast v n s)) := by
    rw [veneerStep_follows hv h hfollows, hcur, hfirst]
    simp only [Option.isSome_none, Bool.not_true, Bool.and_false, Bool.or_self, Bool.false_eq_true, if_false]
    rw [beginFrame_begins hv hslot hsending, hf, lineEntered_some (by rw [hopened]; rfl), frameLine_sameCrop hcrop, setView_setView]
    simp only [hmore, if_false, false_and]
    rfl
  rw [hstep]
  have hframe := (issued_setView v (fun x => { x with last := some n }) hslot).setView v (frameOpened n f)
  rw [setView_setView] at hframe
  exact hframe

theorem veneerLine_rests (hv : v < 8) : Happens (.veneerLine · v)
    (fun s => alone s ∧ ∀ n ∈ viewNext s v, isStitched s n = false ∨ isFenced s 0x08 v = true) id [] noPuts :=
  happens_settlingNothing (exec_veneerLine hv) fun _ ⟨halone, h⟩ => ⟨halone, veneerStep_rests h⟩

/-- What is so of a line that a stream takes is so of its event. -/
theorem veneerLine_takes {cond : State → Prop} {new : State → State} (hv : v < 8) (hplain : ∀ q, cond q → viewPlain v n q)
    (hkeeps : ∀ q, KeepsRest q (new q)) (h : ∀ q, cond q → OutFrame (new q) (veneerStep v q)) : Happens (.veneerLine · v) cond new [] noPuts :=
  happens_settling (exec_veneerLine hv) (fun q hq => by
    obtain ⟨hup, hpart, halone, -⟩ := hplain q hq
    exact ⟨hup, List.forall_mem_singleton.2 hpart, halone⟩) hkeeps fun q hq => ⟨h q hq, List.forall_mem_nil _⟩

theorem veneerLine_waits (hv : v < 8) : Happens (.veneerLine · v)
    (fun s => viewPlain v n s ∧ (vget s.views v).last = none ∧ (vget s.views v).cur = none ∧ (vget s.views v).restart = true ∧
      isStripFirst (cfgAt s n).shift n = false) (linePast v n) [] noPuts :=
  veneerLine_takes hv (fun _ hq => hq.1) (fun _ => ⟨rfl, rfl, rfl, rfl⟩) fun q ⟨hplain, hlast, hcur, hrestart, hfirst⟩ => by
    have hfollows : followsLast v n q := by rw [followsLast, hlast]; exact ⟨nofun, rfl⟩
    rw [veneerStep_follows hv hplain hfollows, hcur, hrestart, hfirst]
    simp only [Option.isSome_none, Bool.not_false, Bool.and_self, Bool.or_true, if_true]
    rw [lineEntered_none (by rw [linePast_self hv]; exact hcur)]
    exact .refl _

theorem veneerLine_begins (hv : v < 8) : Happens (.veneerLine · v)
    (fun s => viewPlain v n s ∧ (vget s.views v).last = none ∧ (vget s.views v).cur = none ∧ (vget s.views v).sending = none ∧
      isStripFirst (cfgAt s n).shift n = true ∧ nextSlot s < ledgerSlots ∧
      wrap32 (n + (vget (cfgAt s n).view v).height * (vget (cfgAt s n).view v).ys - 1) ≠ n)
    (fun s => setView v (fun x => { x with
      last := some n, seq := wrap32 (x.seq + 1), restart := false, skipBefore := false
      cur := some {
        seq := x.seq, firstLine := n, strip := stripAt s n, shift := (cfgAt s n).shift, restart := x.restart, skipBefore := x.skipBefore
        lastLine := wrap32 (n + (vget (cfgAt s n).view v).height * (vget (cfgAt s n).view v).ys - 1)
        crops := [(n, x.crop)], ticket := nextTicket s } }) (issued s)) [] noPuts :=
  veneerLine_takes hv (fun _ hq => hq.1) (fun q => (issued_keeps q).trans ⟨rfl, rfl, rfl, rfl⟩)
    fun q ⟨hplain, hlast, hcur, hsending, hfirst, hslot, hmore⟩ => by
    refine (veneerStep_begins hv hplain hlast hcur hsending hfirst hslot hmore).after ?_
    have hviews : vget (issued q).views v = vget q.views v := by rw [(issued_frame hslot).views]
    rw [setView_congr (s := issued q) (g := frameOpened n (frameOf v n (nextTicket q) q)) (by rw [hviews]; rfl)]
    exact .refl _

theorem veneerLine_continues (hv : v < 8) (hnext : wrap32 (l + 1) = n) : Happens (.veneerLine · v)
    (fun s => viewPlain v n s ∧ (vget s.views v).last = some l ∧ resumedBetween s (some l) n = false ∧ (vget s.views v).cur = some f ∧
      (f.crops.getLast?).map Prod.snd = some (vget s.views v).crop)
    (fun s => setView v (fun x => { x with
      last := some n
      cur := if f.lastLine = n then none else some f
      waiting := if f.lastLine = n ∧ f.skipped = false then x.waiting ++ [f] else x.waiting }) s) [] noPuts :=
  veneerLine_takes hv (fun _ hq => hq.1) (fun _ => ⟨rfl, rfl, rfl, rfl⟩) fun q ⟨hplain, hlast, hresumed, hcur, hcrop⟩ => by
    have hfollows : followsLast v n q := by
      rw [followsLast, hlast]
      exact ⟨fun k hk => Option.some.inj hk ▸ hnext, hresumed⟩
    rw [veneerStep_follows hv hplain hfollows, hcur, Option.isSome_some, Bool.true_or, if_pos rfl, lineEntered_some (by rw [linePast_self hv]; exact hcur),
      frameLine_sameCrop (by rw [linePast_self hv]; exact hcrop), linePast, setView_setView]
    exact .refl _

end

/-! ### The end of a ticket and the streams (R489) -/

section
variable {a b s : State}

/-- The ledger after the end of a ticket follows from the ledger before it. -/
theorem endTicket_ledger_eq (w code : Nat) (h : b.ledger = a.ledger) : (endTicket w code b).ledger = (endTicket w code a).ledger := by
  have hdecide : (decideTicket w code b).ledger = (decideTicket w code a).ledger := by
    unfold decideTicket
    simp only [h, apply_ite State.ledger, raise_ledger]
  unfold endTicket reportTicket
  simp only [hdecide, apply_ite State.ledger]

/-- What an event adds has no part in the end of a ticket. -/
theorem OutFrame.endTicket (h : OutFrame a b) (w code : Nat) : OutFrame (endTicket w code a) (endTicket w code b) := by
  have hend := endTicket_frame w code b
  rw [endTicket_ledger_eq w code h.ledger] at hend
  exact (endTicket_frame w code a).symm.trans ((h.withLedger _).trans hend)

/-- A view stream has no part in the end of a ticket. -/
theorem endTicket_setView (w code v : Nat) (f : ViewStream → ViewStream) (s : State) :
    OutFrame (setView v f (endTicket w code s)) (endTicket w code (setView v f s)) := by
  have hend := endTicket_frame w code (setView v f s)
  rw [endTicket_ledger_eq (a := s) (b := setView v f s) w code rfl] at hend
  exact ((endTicket_frame w code s).setView v f).symm.trans hend

theorem endTicket_emits (w code : Nat) (s : State) : s.emit ⊆ (endTicket w code s).emit :=
  List.Subset.trans (decideTicket_emits w code s) (reportTicket_emits w _)

end

/-! ### A frame is formed, and sent (R484 to R493) -/

section
variable {v : Nat} {f : ViewFrame} {rest : List ViewFrame} {s : State}

theorem exec_viewFrameForm (hv : v < 8) (t : Nat) (s : State) : exec (.viewFrameForm t v) s = runFabric t [12] s (formFrame v) := by
  show execViewFrameForm t v s = _
  rw [execViewFrameForm, if_pos hv]

theorem exec_viewFrameSent (hv : v < 8) (t : Nat) (s : State) : exec (.viewFrameSent t v) s = runFabric t [] s (sendFrame v) := by
  show execViewFrameSent t v s = _
  rw [execViewFrameSent, if_pos hv]

theorem pruneBoxes_none (h : s.scribe.boxes = []) : pruneBoxes s = s := by
  have hboxes : ([] : List _) = s.scribe.boxes := h.symm
  simp only [pruneBoxes, h, List.filter_nil]
  rw [hboxes]

theorem formFrame_rests (h : (vget s.views v).waiting = [] ∨ (vget s.views v).sending.isSome = true) : formFrame v s = s := by
  unfold formFrame
  cases hwait : (vget s.views v).waiting with
  | nil => simp only [hwait]
  | cons f rest =>
    have hsending : (vget s.views v).sending.isSome = true := h.resolve_left (by simp [hwait])
    simp only [hwait, hsending, Bool.true_or, if_true]

/-- The stream with its oldest waiting frame formed, and sent as `sent`. -/
def frameSentAs (rest : List ViewFrame) (sent : Option SentFrame) (x : ViewStream) : ViewStream :=
  { x with waiting := rest, sending := sent, cnt := { x.cnt with formed := wrap32 (x.cnt.formed + 1), boxes := wrap32 x.cnt.boxes } }

/-- The frame's port is Ethernet, and has no link. -/
def portDown (v : Nat) (f : ViewFrame) (s : State) : Bool :=
  decide ((vget (cfgAt s f.lastLine).view v).delivery = 1) && !(vget s.time.ports (vget (cfgAt s f.lastLine).view v).port).linkUp

theorem frameReady_serves (h : frameReady v f rest s) : up s ∧ ∀ k ∈ [12], partUp s k = true := by
  obtain ⟨hup, hpart, -⟩ := h
  exact ⟨hup, List.forall_mem_singleton.2 hpart⟩

theorem formFrame_forms (h : frameReady v f rest s) :
    formFrame v s =
      if portDown v f s then failFrame v f.ticket 13 (setView v (frameSentAs rest none) s)
      else setView v (frameSentAs rest (some (frameFormed v f s))) s := by
  obtain ⟨-, -, hwait, hsending, hstitched, hoverlay, hboxes⟩ := h
  have hnone : setView v (fun x => { x with sending := none }) (setView v (frameSentAs rest (some (frameFormed v f s))) s) =
      setView v (frameSentAs rest none) s := by
    rw [setView_setView]
    rfl
  rw [← hnone]
  unfold formFrame
  simp only [hwait, hsending, hstitched, hoverlay, Option.isSome_none, Bool.not_true, Bool.false_and, Bool.or_self, Bool.false_eq_true, if_false,
    List.length_nil, Nat.add_zero]
  rw [pruneBoxes_none (by exact hboxes)]
  rfl

theorem viewFrameForm_rests (hv : v < 8) :
    Happens (.viewFrameForm · v) (fun s => (vget s.views v).waiting = [] ∨ (vget s.views v).sending.isSome = true) id [] noPuts :=
  happens_idle (exec_viewFrameForm hv) fun _ h => formFrame_rests h

theorem viewFrameForm_forms (hv : v < 8) : Happens (.viewFrameForm · v)
    (fun s => frameReady v f rest s ∧ ((vget (cfgAt s f.lastLine).view v).delivery ≠ 1 ∨
      (vget s.time.ports (vget (cfgAt s f.lastLine).view v).port).linkUp = true))
    (fun s => setView v (frameSentAs rest (some (frameFormed v f s))) s) [] noPuts := by
  refine happens_working (exec_viewFrameForm hv) (fun _ => rfl) (fun _ => rfl) fun q ⟨hready, hpath⟩ => ?_
  have hup : portDown v f q = false := by
    rcases hpath with hother | hlink
    · simp [portDown, hother]
    · simp [portDown, hlink]
  obtain ⟨hfabric, hparts⟩ := frameReady_serves hready
  exact ⟨hfabric, hparts, by rw [formFrame_forms hready, hup, if_neg Bool.false_ne_true]⟩

/-- The stream with a frame of it failed, and with its oldest waiting frame failed as it is formed. -/
def frameFailed (x : ViewStream) : ViewStream := { x with skipBefore := true, cnt := { x.cnt with failed := x.cnt.failed + 1 } }
def frameLost (rest : List ViewFrame) (x : ViewStream) : ViewStream :=
  { x with
    waiting := rest, skipBefore := true
    cnt := { x.cnt with formed := wrap32 (x.cnt.formed + 1), boxes := wrap32 x.cnt.boxes, failed := x.cnt.failed + 1 } }

/-- A frame that fails: its ticket ends, and the stream counts it and marks its next frame (R489). -/
theorem failFrame_frame (v w code : Nat) (g : ViewStream → ViewStream) (s : State) :
    OutFrame (setView v (fun x => frameFailed (g x)) (endTicket w code s)) (failFrame v w code (setView v g s)) := by
  have hend := (endTicket_setView w code v g s).setView v frameFailed
  rw [setView_setView] at hend
  exact (raise_frame _ _ _ _).after hend

theorem failFrame_sets (v w code : Nat) (h : up s) : bitOf (failFrame v w code s).host.evt.pending (0x2C8 + v) = true :=
  raise_sets _ _ _ ((endTicket_frame w code s).hf_fabric.trans h)

theorem endTicket_keeps (w code : Nat) (s : State) : KeepsRest s (endTicket w code s) := by
  have hframe := endTicket_frame w code s
  exact ⟨hframe.bench, hframe.pending, hframe.pair, hframe.glue⟩

theorem viewFrameForm_linkDown (hv : v < 8) : Happens (.viewFrameForm · v)
    (fun s => frameReady v f rest s ∧ (vget (cfgAt s f.lastLine).view v).delivery = 1 ∧
      (vget s.time.ports (vget (cfgAt s f.lastLine).view v).port).linkUp = false)
    (fun s => setView v (frameLost rest) (endTicket f.ticket 13 s)) [0x2C8 + v] noPuts := by
  refine happens_up (exec_viewFrameForm hv) (fun q hq => frameReady_serves hq.1) fun q _ _ ⟨hready, hethernet, hlink⟩ => ?_
  have hdown : portDown v f q = true := by simp [portDown, hethernet, hlink]
  have hform := formFrame_forms hready
  obtain ⟨hup, -, -, hsending, -⟩ := hready
  have hviews : vget (endTicket f.ticket 13 q).views v = vget q.views v := by rw [(endTicket_frame f.ticket 13 q).views]
  have hlost : setView v (frameLost rest) (endTicket f.ticket 13 q) =
      setView v (fun x => frameFailed (frameSentAs rest none x)) (endTicket f.ticket 13 q) :=
    setView_congr (by simp only [frameLost, frameFailed, frameSentAs, hviews, hsending])
  have hkept := endTicket_keeps f.ticket 13 q
  rw [hform, hdown, if_pos rfl, hlost]
  exact ⟨failFrame_frame v f.ticket 13 (frameSentAs rest none) q, hkept.bench, hkept.pending,
    List.forall_mem_singleton.2 (failFrame_sets v f.ticket 13 hup), List.nil_subset _⟩

/-! ### The last byte of a frame -/

theorem sendFrame_rests (h : ∀ f ∈ (vget s.views v).sending, f.delivery ≠ 1) : sendFrame v s = s := by
  unfold sendFrame
  cases hsending : (vget s.views v).sending with
  | none => rfl
  | some f => exact if_pos (h f hsending)

/-- Datagrams handed to the Ethernet MAC, in their order. -/
def datagramsOut (l : List Datagram) (s : State) : State := { s with emit := s.emit ++ l.map Emit.datagram }

theorem datagramsOut_frame (l : List Datagram) (s : State) : OutFrame s (datagramsOut l s) := rfl

theorem foldl_datagrams (l : List Datagram) (s : State) : l.foldl (fun s d => out (.datagram d) s) s = datagramsOut l s := by
  induction l generalizing s with
  | nil => simp [datagramsOut]
  | cons d l ih => rw [List.foldl_cons, ih, datagramsOut, datagramsOut, List.map_cons, out, List.append_assoc, List.singleton_append]

/-- The stream with the frame on its delivery path sent. -/
def frameDelivered (f : SentFrame) (x : ViewStream) : ViewStream :=
  { x with
    sending := none
    cnt := { x.cnt with delivered := wrap32 (x.cnt.delivered + 1), datagrams := wrap32 (x.cnt.datagrams + f.datagrams.length) } }

/-- A frame's datagrams leave, and its ticket ends. -/
theorem sendFrame_sends {f : SentFrame} (hdelivery : f.delivery = 1) (hsending : (vget s.views v).sending = some f) :
    sendFrame v s = endTicket f.ticket 0 (setView v (frameDelivered f) (datagramsOut f.datagrams s)) := by
  unfold sendFrame
  simp only [hsending, hdelivery, ne_eq, not_true_eq_false, if_false, foldl_datagrams]
  rfl

theorem viewFrameSent_rests (hv : v < 8) :
    Happens (.viewFrameSent · v) (fun s => ∀ f ∈ (vget s.views v).sending, f.delivery ≠ 1) id [] noPuts :=
  happens_idle (exec_viewFrameSent hv) fun _ h => sendFrame_rests h

theorem viewFrameSent_sends {f : SentFrame} (hv : v < 8) (hdelivery : f.delivery = 1) : Happens (.viewFrameSent · v)
    (fun s => up s ∧ (vget s.views v).sending = some f) (fun s => endTicket f.ticket 0 (setView v (frameDelivered f) s)) []
    (fun _ => f.datagrams.map Emit.datagram) := by
  refine happens_up (exec_viewFrameSent hv) (fun q hq => ⟨hq.1, List.forall_mem_nil _⟩) fun q _ _ ⟨_, hsending⟩ => ?_
  have hkept := endTicket_keeps f.ticket 0 (setView v (frameDelivered f) q)
  rw [sendFrame_sends hdelivery hsending]
  have hemits := endTicket_emits f.ticket 0 (setView v (frameDelivered f) (datagramsOut f.datagrams q))
  have hframe := ((datagramsOut_frame f.datagrams q).setView v (frameDelivered f)).endTicket f.ticket 0
  refine ⟨hframe, hkept.bench, hkept.pending, List.forall_mem_nil _, ?_⟩
  exact List.Subset.trans (List.subset_append_right q.emit _) hemits

end

/-- Settles O35: each event of the profile chain, the background and the Veneer by what its unit does with the next line, row or frame. -/
theorem profilesAndViews : Obligations.ProfilesAndViews :=
  ⟨fun _ hslot => profileLine_idle hslot, fun _ _ hslot => profileLine_filters hslot,
    fun _ _ _ _ hslot hmode hdur hhigh => profileLine_entersHigh hslot hmode hdur hhigh, profileLine_noFormed,
    fun _ _ _ _ hrow hcols hpos => profileLine_background hrow hcols hpos, fun _ hf => backgroundRowStore_rests hf,
    fun _ _ hf => backgroundRowStore_later hf, fun _ _ hf => backgroundRowStore_first hf, fun _ hv => veneerLine_rests hv,
    fun _ _ hv => veneerLine_waits hv, fun _ _ hv => veneerLine_begins hv, fun _ _ _ _ hv hnext => veneerLine_continues hv hnext,
    fun _ hv => viewFrameForm_rests hv, fun _ _ _ hv => viewFrameForm_forms hv, fun _ _ _ hv => viewFrameForm_linkDown hv,
    fun _ hv => viewFrameSent_rests hv, fun _ _ hv hdelivery => viewFrameSent_sends hv hdelivery⟩

end Sys2Proof.Machine

/-! ## The places of the Bench (R529, R530) -/

namespace Sys2Proof.Machine

/-- An offset's place in its stack. -/
theorem mod_stackSize {o : Nat} (h : o < benchSize) : o % stackSize = o - stackSize * stackOf o := by
  unfold benchSize at h
  unfold stackOf stackSize
  split <;> omega

theorem stackSize_mul_le (o : Nat) : stackSize * stackOf o ≤ o := by
  unfold stackOf stackSize
  split <;> omega

theorem pchOf_div (o : Nat) : pchOf o / 32 = stackOf o := by
  simp only [pchOf]
  omega

theorem pchOf_mod (o : Nat) :
    pchOf o % 32 = (o % stackSize / 256 ^^^ o % stackSize / 8192 ^^^ o % stackSize / 262144) % 32 := by
  simp only [pchOf]
  omega

theorem pchOf_lt (o : Nat) : pchOf o < 64 := by
  have hstack : stackOf o < 2 := stackOf_lt o
  have hdiv := pchOf_div o
  omega

/-- The quotients of R530 as the manual writes them, by shifts and a mask. -/
theorem xor_shifts (w : Nat) :
    (w / 256 ^^^ w / 8192 ^^^ w / 262144) % 32 = ((w >>> 8) ^^^ (w >>> 13) ^^^ (w >>> 18)) &&& 0x1F := by
  rw [show 0x1F = 2 ^ 5 - 1 from rfl, Nat.and_two_pow_sub_one_eq_mod]
  simp only [Nat.shiftRight_eq_div_pow]

theorem div_add_shifts (w : Nat) : w / 8192 * 256 + w % 256 = ((w >>> 13) <<< 8) + (w &&& 0xFF) := by
  rw [show 0xFF = 2 ^ 8 - 1 from rfl, Nat.and_two_pow_sub_one_eq_mod]
  simp only [Nat.shiftRight_eq_div_pow, Nat.shiftLeft_eq]

/-- Where the upper bits agree, the pseudo-channel tells the five bits that select it. -/
theorem xor_mod_cancel {a b k : Nat} (h : (a ^^^ k) % 32 = (b ^^^ k) % 32) : a % 32 = b % 32 := by
  rw [show 32 = 2 ^ 5 from rfl, Nat.xor_mod_two_pow, Nat.xor_mod_two_pow] at h
  exact Nat.xor_left_injective h

theorem mod_stackSize_inj {a b : Nat} (hpch : pchOf a = pchOf b) (hoff : pchOffset a = pchOffset b) : a % stackSize = b % stackSize := by
  have hsel := (pchOf_mod a).symm.trans ((congrArg (· % 32) hpch).trans (pchOf_mod b))
  simp only [pchOffset] at hoff
  generalize a % stackSize = v at hsel hoff ⊢
  generalize b % stackSize = w at hsel hoff ⊢
  have hhigh : v / 8192 = w / 8192 := by omega
  have hhigher : v / 262144 = w / 262144 := by omega
  rw [hhigh, hhigher, Nat.xor_assoc, Nat.xor_assoc] at hsel
  have hmid := xor_mod_cancel hsel
  omega

/-- Settles O11: a stack, an offset's upper bits and its selector bits give the offset back. -/
theorem benchPlacesAreDistinct : Obligations.BenchPlacesAreDistinct := by
  refine ⟨fun o ho => ?_, fun a b ha hb hpch hoff => ?_⟩
  · have hmod := mod_stackSize ho
    refine ⟨?_, ?_, pchOf_lt o, pchOf_div o⟩
    · rw [← hmod, ← xor_shifts, ← pchOf_mod, ← pchOf_div, Nat.div_add_mod]
    · rw [← hmod, ← div_add_shifts]
      rfl
  · have hstack : stackOf a = stackOf b := by rw [← pchOf_div, ← pchOf_div, hpch]
    have hplace : a - stackSize * stackOf a = b - stackSize * stackOf b := by
      rw [← mod_stackSize ha, ← mod_stackSize hb, mod_stackSize_inj hpch hoff]
    have hbase := stackSize_mul_le a
    have hbase' := stackSize_mul_le b
    rw [hstack] at hplace hbase
    omega

end Sys2Proof.Machine

/-! ## The Bench: requests, reads, refresh and temperature (R531, R542 to R545, R550, R551, R558 to R561) -/

namespace Sys2Proof.Machine

/-! ### The tables of the controllers and of the ports -/

section
variable {i j : Nat} {s : State}

/-- What a change of one entry keeps of it, it keeps of every entry. -/
theorem vget_vmod_congr {α β : Type} [Inhabited α] {n : Nat} (v : Vector α n) {f : α → α} {g : α → β} (h : ∀ x, g (f x) = g x) :
    g (vget (vmod v i f) j) = g (vget v j) := by
  by_cases hij : j = i
  · subst hij
    by_cases hj : j < n
    · rw [vget_vmod_self _ _ _ hj, h]
    · have hout : vmod v j f = v := Vector.setIfInBounds_eq_of_size_le (Nat.le_of_not_lt hj)
      rw [hout]
  · rw [vget_vmod_ne _ _ _ _ hij]

theorem setCtl_setCtl (f g : BenchCtl → BenchCtl) (s : State) : setCtl i f (setCtl i g s) = setCtl i (fun x => f (g x)) s := by
  unfold setCtl
  simp only [vmod_vmod]

theorem setCtl_congr {f g : BenchCtl → BenchCtl} (h : f (vget s.bench.ctl i) = g (vget s.bench.ctl i)) : setCtl i f s = setCtl i g s := by
  unfold setCtl vmod
  rw [h]

theorem setPort_setPort (f g : BenchPort → BenchPort) (s : State) : setPort i f (setPort i g s) = setPort i (fun x => f (g x)) s := by
  unfold setPort
  simp only [vmod_vmod]

theorem setCtl_settled (f : BenchCtl → BenchCtl) : Settled s (setCtl i f s) := ⟨rfl, rfl, rfl, rfl, rfl⟩

theorem setPort_settled (f : BenchPort → BenchPort) : Settled s (setPort i f s) := ⟨rfl, rfl, rfl, rfl, rfl⟩

theorem benchAsleep_setCtl {f : BenchCtl → BenchCtl} (h : ∀ x, (f x).state = x.state) : benchAsleep (setCtl i f s) = benchAsleep s := by
  have hstate (j : Nat) : (vget (setCtl i f s).bench.ctl j).state = (vget s.bench.ctl j).state :=
    vget_vmod_congr (g := BenchCtl.state) s.bench.ctl h
  simp only [benchAsleep, hstate]

end

/-! ### Events of the Bench, which change its tables -/

section
variable {i : Nat → Instr} {f g new : State → State} {ws : State → List (Nat × Bytes)} {cond : State → Prop} {evs : List Nat}

/-- An event that leaves writes outstanding: they are done when it is over. -/
theorem happens_committing (hx : ∀ t s, exec (i t) s = runAt t s f)
    (h : ∀ q, cond q → OutFrame (outstanding (ws q) (new q)) (f q) ∧ Settled q (new q) ∧ ∀ e ∈ evs, bitOf (f q).host.evt.pending e = true) :
    Happens i cond (fun s => written (ws s) (new s)) evs noPuts := by
  intro t s hi hc
  obtain ⟨hframe, hsettled, hevs⟩ := h (tick t s) hc
  exact ⟨_, hx t s, rfl, commit_outstanding (tick_inv t hi) hsettled hframe, hevs, List.nil_subset _⟩

theorem outstanding_nil (s : State) : outstanding [] s = s := by
  unfold outstanding
  rw [List.append_nil]

/-- An event that writes no byte of the Bench. -/
theorem happens_tabling (hx : ∀ t s, exec (i t) s = runAt t s f)
    (h : ∀ q, cond q → OutFrame (new q) (f q) ∧ Settled q (new q) ∧ ∀ e ∈ evs, bitOf (f q).host.evt.pending e = true) :
    Happens i cond new evs noPuts :=
  happens_committing (ws := fun _ => []) hx fun q hc => by
    rw [outstanding_nil]
    exact h q hc

theorem happens_tablingSilently (hx : ∀ t s, exec (i t) s = runAt t s f) (h : ∀ q, cond q → f q = new q ∧ Settled q (new q)) :
    Happens i cond new [] noPuts :=
  happens_tabling hx fun q hc => by
    obtain ⟨hf, hsettled⟩ := h q hc
    rw [hf]
    exact ⟨OutFrame.refl _, hsettled, List.forall_mem_nil _⟩

theorem OutFrame.alone {a b : State} (h : OutFrame a b) (ha : alone a) : alone b :=
  ⟨h.glue.trans ha.1, h.pair_role.trans ha.2⟩

theorem onFabric_settle {s : State} (h : alone s) : onFabric [] settle s = s := onFabric_idle (settle_alone h)

/-- An event of a controller, which may settle a glue-up: a unit that stands alone has nothing to settle. -/
theorem happens_settlingAfter (hx : ∀ t s, exec (i t) s = runAt t s (onFabric [] settle ∘ g))
    (h : ∀ q, cond q → alone (new q) ∧ OutFrame (new q) (g q) ∧ Settled q (new q) ∧ ∀ e ∈ evs, bitOf (g q).host.evt.pending e = true) :
    Happens i cond new evs noPuts :=
  happens_tabling hx fun q hc => by
    obtain ⟨halone, hframe, hsettled, hevs⟩ := h q hc
    rw [Function.comp_apply, onFabric_settle (hframe.alone halone)]
    exact ⟨hframe, hsettled, hevs⟩

end

section
variable {src other : Nat} {a b : Int} {s : State}

theorem raiseOnce_sets (hup : up s) (hfirst : firstIn src (currentStrip s) s) : bitOf (raiseOnce src a b s).host.evt.pending src = true := by
  rw [raiseOnce, if_neg hfirst]
  exact raise_sets _ _ _ hup

theorem firstIn_raiseOnce {n : Nat} (hne : other ≠ src) (h : firstIn src n s) : firstIn src n (raiseOnce other a b s) := by
  unfold raiseOnce
  split
  · exact h
  · rwa [firstIn, raise_evOnce, sget_sset_ne _ _ _ _ hne]

end

/-! ### Requests enter a controller (R531, R542, R543, R555) -/

/-- A request has entered its controller through its port. -/
def requestTaken (q : BenchReq) (s : State) : State :=
  setCtl (stackOf q.offset) (fun c => { c with pending := c.pending ++ [{ q with id := s.bench.nextReq, entered := s.now }] })
    (setPort q.port (fun p => { p with requests := wrap32 (p.requests + 1) })
      { s with bench := { s.bench with nextReq := s.bench.nextReq + 1, lastRequest := s.now } })

section
variable {q : BenchReq} {s : State}

theorem benchRequest_refused (h : reqOk q = false) : benchRequest q s = s := by
  simp only [benchRequest, h, Bool.not_false, if_true]

theorem benchAsleep_requestTaken : benchAsleep (requestTaken q s) = benchAsleep s := benchAsleep_setCtl fun _ => rfl

theorem benchRequest_taken (h : reqOk q = true) :
    benchRequest q s = if benchAsleep s && s.bench.autoEntered then startExit (requestTaken q s) else requestTaken q s := by
  rw [← benchAsleep_requestTaken (q := q)]
  simp only [benchRequest, h, Bool.not_true, Bool.false_eq_true, if_false]
  rfl

theorem benchRequest_enters (h : reqOk q = true) :
    Happens (.benchRequest · q) (fun s => benchAsleep s = false) (requestTaken q) [] noPuts :=
  happens_tablingSilently (fun _ _ => rfl) fun s hawake =>
    ⟨by rw [benchRequest_taken h, hawake, Bool.false_and, if_neg Bool.false_ne_true], ⟨rfl, rfl, rfl, rfl, rfl⟩⟩

theorem benchRequest_wakes (h : reqOk q = true) : Happens (.benchRequest · q) (fun s => benchAsleep s = true ∧ s.bench.autoEntered = true)
    (fun s => startExit (requestTaken q s)) [] noPuts :=
  happens_tablingSilently (fun _ _ => rfl) fun s ⟨hasleep, hauto⟩ =>
    ⟨by rw [benchRequest_taken h, hasleep, hauto, Bool.and_self, if_pos rfl], ⟨rfl, rfl, rfl, rfl, rfl⟩⟩

end

/-! ### A pseudo-channel issues a request (R544, R545) -/

section
variable {pch : Nat} {allowed : List Nat} {q : BenchReq} {s : State}

theorem exec_benchIssue (h : pch < 64) (t : Nat) (s : State) : exec (.benchIssue t pch allowed) s = runAt t s (benchIssue pch allowed) :=
  congrArg (runAt t s) (funext fun _ => if_neg (Nat.not_le.2 h))

theorem mem_of_mem_grantable {l : List BenchReq} {r : BenchReq} (h : r ∈ grantable s l) : r ∈ l := by
  unfold grantable at h
  split at h
  · exact List.mem_of_mem_filter h
  · exact h

theorem issuable_none {l : List BenchReq} (h : ∀ r ∈ l, (decide (pchOf r.offset = pch) && allowed.contains r.id) = false) :
    issuable pch allowed l = [] :=
  List.filter_eq_nil_iff.2 fun r hr => by rw [h r hr, Bool.false_and]; exact Bool.false_ne_true

theorem issuable_single (hpch : pchOf q.offset = pch) (hid : q.id ∈ allowed) : issuable pch allowed [q] = [q] := by
  simp [issuable, hpch, hid]

theorem benchIssue_rests (h : stackUp s (pch / 32) = false ∨
    ((vget s.bench.ctl (pch / 32)).pending.all fun r => !(decide (pchOf r.offset = pch) && allowed.contains r.id)) = true) :
    benchIssue pch allowed s = s := by
  rcases h with hdown | hnone
  · simp only [benchIssue, hdown, Bool.not_false, if_true]
  · have hempty : issuable pch allowed (grantable s (vget s.bench.ctl (pch / 32)).pending) = [] :=
      issuable_none fun r hr => Bool.not_eq_true' _ ▸ List.all_eq_true.1 hnone r (mem_of_mem_grantable hr)
    simp only [benchIssue, hempty, minBy, ite_self]

/-- A port with nothing pending has no urgency. -/
theorem portUrgency_idle (p : Nat) (h0 : (vget s.bench.ctl 0).pending = []) (h1 : (vget s.bench.ctl 1).pending = []) : portUrgency s p = 0 := by
  simp [portUrgency, portAge, h0, h1, minBy]

/-- One request is pending in its stack, and none in the other; nothing is issued there. -/
structure OnlyPending (pch : Nat) (q : BenchReq) (s : State) : Prop where
  serves : stackUp s (pch / 32) = true
  stays : s.bench.entering = none
  pending : (vget s.bench.ctl (pch / 32)).pending = [q]
  other : (vget s.bench.ctl (1 - pch / 32)).pending = []
  issued : (vget s.bench.ctl (pch / 32)).issued = []

theorem onlyPending_of (h : stackUp s (pch / 32) = true ∧ s.bench.entering = none ∧ (vget s.bench.ctl (pch / 32)).pending = [q] ∧
    (vget s.bench.ctl (1 - pch / 32)).pending = [] ∧ (vget s.bench.ctl (pch / 32)).issued = []) : OnlyPending pch q s :=
  let ⟨hserves, hstays, hpending, hother, hissued⟩ := h
  ⟨hserves, hstays, hpending, hother, hissued⟩

/-- The controller has issued its one request. -/
def onlyIssued (pch : Nat) (q : BenchReq) (s : State) : State := setCtl (pch / 32) (fun x => { x with pending := [], issued := [q] }) s

/-- The request's port has counted its bytes, and whether it was urgent. -/
def requestCounted (q : BenchReq) (urgency : Nat) (s : State) : State :=
  setPort q.port (fun p => { p with bytes := p.bytes + 32 * q.words, urgent3 := wrap32 (p.urgent3 + (if urgency = 3 then 1 else 0)) }) s

/-- The request is issued, and its port has counted it and has nothing pending. -/
def requestIssued (pch : Nat) (q : BenchReq) (s : State) : State :=
  setPort q.port (fun p => { p with
      bytes := p.bytes + 32 * q.words
      urgent3 := wrap32 (p.urgent3 + (if portUrgency s q.port = 3 then 1 else 0))
      urgency := 0 })
    (onlyIssued pch q s)

theorem onlyIssued_idle (hpch : pch < 64) (h : OnlyPending pch q s) {j : Nat} (hj : j < 2) : (vget (onlyIssued pch q s).bench.ctl j).pending = [] := by
  by_cases hstack : j = pch / 32
  · rw [onlyIssued, setCtl_ctl, hstack, vget_vmod_self _ _ _ (by omega)]
  · have hother : j = 1 - pch / 32 := by omega
    rw [onlyIssued, setCtl_ctl, vget_vmod_ne _ _ _ _ hstack, hother, h.other]

/-- The writes that an issued request leaves outstanding. -/
def issuedWrites (q : BenchReq) : List (Nat × Bytes) := q.data.toList.map fun d => (q.offset, d.take (32 * q.words))

/-- A port's urgency formed over outstanding writes, where it has nothing pending. -/
theorem setPort_urgency_idle {p : Nat} (ws : List (Nat × Bytes)) {x : State} (h : portUrgency (outstanding ws x) p = 0) :
    setPort p (fun y => { y with urgency := portUrgency (outstanding ws x) p }) (outstanding ws x) =
      outstanding ws (setPort p (fun y => { y with urgency := 0 }) x) := by
  rw [h]
  rfl

theorem benchIssue_issues (hpch : pch < 64) (hplace : pchOf q.offset = pch) (hid : q.id ∈ allowed) (h : OnlyPending pch q s) :
    benchIssue pch allowed s = outstanding (issuedWrites q) (requestIssued pch q s) := by
  have hnext : minBy (issueBefore (portUrgency s)) (issuable pch allowed (grantable s (vget s.bench.ctl (pch / 32)).pending)) = some q := by
    simp only [grantable, h.stays, h.pending, issuable_single hplace hid]
    rfl
  have hctl : setCtl (pch / 32) (fun x => { x with
      pending := x.pending.filter fun r => decide (r.id ≠ q.id)
      issued := (x.issued.filter fun r => r.data.isNone || decide (pchOf r.offset ≠ pch)) ++ [q] }) s = onlyIssued pch q s :=
    setCtl_congr (by simp [h.pending, h.issued])
  have hflag : flagBit (decide (portUrgency s q.port = 3)) 0 = if portUrgency s q.port = 3 then 1 else 0 := by simp [flagBit]
  have hidle (ws : List (Nat × Bytes)) : portUrgency (outstanding ws (requestCounted q (portUrgency s q.port) (onlyIssued pch q s))) q.port = 0 :=
    portUrgency_idle _ (onlyIssued_idle hpch h (by decide)) (onlyIssued_idle hpch h (by decide))
  have hformed (ws : List (Nat × Bytes)) := setPort_urgency_idle ws (hidle ws)
  have hcleared : setPort q.port (fun p => { p with urgency := 0 }) (requestCounted q (portUrgency s q.port) (onlyIssued pch q s)) =
      requestIssued pch q s := setPort_setPort _ _ _
  rw [← hcleared]
  simp only [benchIssue, h.serves, hnext, hctl, hflag, Bool.not_true, Bool.false_eq_true, if_false]
  unfold issuedWrites
  cases q.data with
  | none =>
    have hread := hformed []
    rw [outstanding_nil] at hread
    exact hread
  | some d => exact hformed [(q.offset, d.take (32 * q.words))]

theorem requestIssued_settled : Settled s (requestIssued pch q s) := ⟨rfl, rfl, rfl, rfl, rfl⟩

theorem benchIssue_commits (hpch : pch < 64) (hplace : pchOf q.offset = pch) (hid : q.id ∈ allowed) :
    Happens (.benchIssue · pch allowed) (OnlyPending pch q) (fun s => written (issuedWrites q) (requestIssued pch q s)) [] noPuts :=
  happens_committing (exec_benchIssue hpch) fun s hs => by
    rw [benchIssue_issues hpch hplace hid hs]
    exact ⟨OutFrame.refl _, requestIssued_settled, List.forall_mem_nil _⟩

theorem Happens.weaken {i : Nat → Instr} {cond cond' : State → Prop} {new : State → State} {evs : List Nat} {puts : State → List Emit}
    (h : Happens i cond new evs puts) (hcond : ∀ s, cond' s → cond s) : Happens i cond' new evs puts :=
  fun t s hi hc => h t s hi (hcond _ hc)

theorem benchIssue_read (hpch : pch < 64) (hplace : pchOf q.offset = pch) (hid : q.id ∈ allowed) (hdata : q.data = none) :
    Happens (.benchIssue · pch allowed) (OnlyPending pch q) (requestIssued pch q) [] noPuts := by
  have h := benchIssue_commits hpch hplace hid
  rwa [issuedWrites, hdata] at h

theorem benchIssue_write {d : Bytes} (hpch : pch < 64) (hplace : pchOf q.offset = pch) (hid : q.id ∈ allowed) (hdata : q.data = some d) :
    Happens (.benchIssue · pch allowed) (OnlyPending pch q)
      (fun s => written [(q.offset, d.take (32 * q.words))] (requestIssued pch q s)) [] noPuts := by
  have h := benchIssue_commits hpch hplace hid
  rwa [issuedWrites, hdata] at h

end

/-! ### The urgency of a port (R543, R546) -/

section
variable {p : Nat} {s : State}

theorem exec_benchUrgencyRise (hp : p < 16) (t : Nat) (s : State) : exec (.benchUrgencyRise t p) s = runAt t s (urgencyRise p) :=
  congrArg (runAt t s) (funext fun _ => if_neg (Nat.not_le.2 hp))

theorem benchUrgencyRise_forms (hp : p < 16) :
    Happens (.benchUrgencyRise · p) (fun s => portUrgency s p ≠ 3 ∨ (vget s.bench.ports p).urgency = 3)
      (fun s => setPort p (fun x => { x with urgency := portUrgency s p }) s) [] noPuts :=
  happens_tablingSilently (exec_benchUrgencyRise hp) fun s h => by
    have hquiet : ¬ (portUrgency s p = 3 ∧ (vget s.bench.ports p).urgency < 3) := by omega
    exact ⟨if_neg hquiet, setPort_settled _⟩

theorem benchUrgencyRise_reports (hp : p < 16) :
    Happens (.benchUrgencyRise · p)
      (fun s => up s ∧ portUrgency s p = 3 ∧ (vget s.bench.ports p).urgency < 3 ∧ firstIn (0x350 + p) (currentStrip s) s)
      (setPort p fun x => { x with urgency := 3 }) [0x350 + p] noPuts :=
  happens_tabling (exec_benchUrgencyRise hp) fun s ⟨hup, hthree, hbefore, hfirst⟩ => by
    have hrises : urgencyRise p s = raiseOnce (0x350 + p) 0 0 (setPort p (fun x => { x with urgency := 3 }) s) := by
      unfold urgencyRise
      simp only [hthree]
      exact if_pos ⟨trivial, hbefore⟩
    rw [hrises]
    exact ⟨raiseOnce_frame _ _ _ _, setPort_settled _, List.forall_mem_singleton.2 (raiseOnce_sets hup hfirst)⟩

end

/-! ### The end of a read, and parity errors (R558 to R562) -/

section
variable {id_ c : Nat} {q : BenchReq} {e : ErrorCapture} {o : BenchOutcome} {s : State}

theorem takeInjection_none (kind index : Nat) (h : s.faults.injections = []) : takeInjection kind index s = (0, s) := by
  simp only [takeInjection, h, List.find?_nil]

/-- What the controller does with a read that returned so, where no error is injected. -/
def readEnds (c : Nat) : BenchOutcome → State → State
  | .clean => id
  | .corrected => benchCorrected c
  | .transient e => benchTransient c e
  | .lasting e => freezeCtl c e

theorem benchReadDone_unissued (h : issuedBy s id_ = none) : benchReadDone id_ o s = s := by
  simp only [benchReadDone, h]

theorem benchReadDone_issued (h : issuedBy s id_ = some (c, q)) (hup : stackUp s c = true) (hinj : s.faults.injections = []) :
    benchReadDone id_ o s = readEnds c o (retire c id_ s) := by
  have hnone (k : Nat) : takeInjection k c (retire c id_ s) = (0, retire c id_ s) := takeInjection_none k c hinj
  simp only [benchReadDone, h, hup, hnone, Bool.not_true, Bool.false_eq_true, if_false, if_true]
  cases o <;> rfl

theorem benchReadDone_idle : Happens (.benchReadDone · id_ o) (fun s => alone s ∧ issuedBy s id_ = none) id [] noPuts :=
  happens_settlingAfter (fun _ _ => rfl) fun s ⟨halone, hnone⟩ => by
    rw [benchReadDone_unissued hnone]
    exact ⟨halone, OutFrame.refl _, Settled.refl _, List.forall_mem_nil _⟩

theorem benchReadDone_clean :
    Happens (.benchReadDone · id_ .clean)
      (fun s => alone s ∧ issuedBy s id_ = some (c, q) ∧ stackUp s c = true ∧ s.faults.injections = []) (retire c id_) [] noPuts :=
  happens_settlingAfter (fun _ _ => rfl) fun s ⟨halone, hissued, hup, hinj⟩ => by
    rw [benchReadDone_issued hissued hup hinj]
    exact ⟨halone, OutFrame.refl _, setCtl_settled _, List.forall_mem_nil _⟩

/-- The request is retired, and a corrected error counted. -/
def readCorrected (c id_ : Nat) : State → State :=
  setCtl c fun x => { x with ce := wrap32 (x.ce + 1), issued := x.issued.filter fun r => decide (r.id ≠ id_) }

theorem benchCorrected_retire : benchCorrected c (retire c id_ s) = raiseOnce (0x344 + c) 0 0 (readCorrected c id_ s) :=
  congrArg (raiseOnce (0x344 + c) 0 0) (setCtl_setCtl _ _ _)

theorem benchReadDone_corrected :
    Happens (.benchReadDone · id_ .corrected)
      (fun s => up s ∧ alone s ∧ issuedBy s id_ = some (c, q) ∧ stackUp s c = true ∧ s.faults.injections = [] ∧
        firstIn (0x344 + c) (currentStrip s) s)
      (readCorrected c id_) [0x344 + c] noPuts :=
  happens_settlingAfter (fun _ _ => rfl) fun s ⟨hfabric, halone, hissued, hup, hinj, hfirst⟩ => by
    rw [benchReadDone_issued hissued hup hinj, readEnds, benchCorrected_retire]
    exact ⟨halone, raiseOnce_frame _ _ _ _, setCtl_settled _, List.forall_mem_singleton.2 (raiseOnce_sets hfabric hfirst)⟩

/-- A controller counts a transient error by its cause, and logs it. -/
def transientLogged (e : ErrorCapture) (x : BenchCtl) : BenchCtl :=
  let x := { x with transients := (e :: x.transients).take 8 }
  match e.cause with
  | .read => { x with ueTransient := wrap32 (x.ueTransient + 1) }
  | .writeParity => { x with wparTransient := wrap32 (x.wparTransient + 1) }
  | .caParity => { x with caparTransient := wrap32 (x.caparTransient + 1) }

/-- One more transient error of the Bench. -/
def transientCounted (s : State) : State := { s with faults := { s.faults with cnt := { s.faults.cnt with bench := s.faults.cnt.bench + 1 } } }

/-- The state in which a transient error is reported. -/
def transientNoted (c : Nat) (e : ErrorCapture) (s : State) : State :=
  setCtl c (transientLogged { e with stime := shortTime s }) (transientCounted s)

theorem benchTransient_reports :
    benchTransient c e s = raiseOnce (0x342 + c) 0 0 (raiseOnce 0x004 4 0 (transientNoted c e s)) := rfl

theorem benchTransient_frame : OutFrame (transientNoted c e s) (benchTransient c e s) :=
  (raiseOnce_frame _ _ _ _).after (raiseOnce_frame _ _ _ _)

theorem benchTransient_sets (hup : up s) (hctl : firstIn (0x342 + c) (currentStrip s) s) (hcnt : firstIn 0x004 (currentStrip s) s) :
    ∀ k ∈ [0x342 + c, 0x004], bitOf (benchTransient c e s).host.evt.pending k = true := by
  have hframe := raiseOnce_frame 0x004 4 0 (transientNoted c e s)
  have hstrip : currentStrip (raiseOnce 0x004 4 0 (transientNoted c e s)) = currentStrip s := by
    rw [currentStrip, hframe.gauge]
    rfl
  have hne : 0x004 ≠ 0x342 + c := by omega
  have hlater : firstIn (0x342 + c) (currentStrip s) (raiseOnce 0x004 4 0 (transientNoted c e s)) := firstIn_raiseOnce hne hctl
  have hfabric : up (raiseOnce 0x004 4 0 (transientNoted c e s)) := hframe.hf_fabric.trans hup
  rw [benchTransient_reports]
  intro k hk
  rcases List.mem_pair.1 hk with rfl | rfl
  · exact raiseOnce_sets hfabric (by rwa [hstrip])
  · exact raiseOnce_keeps _ _ _ (raiseOnce_sets (s := transientNoted c e s) hup hcnt)

/-- The request is retired, and a transient error of a read counted and logged. -/
def readRepeated (c id_ : Nat) (e : ErrorCapture) (s : State) : State :=
  setCtl c (fun x => { x with
      ueTransient := wrap32 (x.ueTransient + 1)
      transients := ({ e with stime := shortTime s } :: x.transients).take 8
      issued := x.issued.filter fun r => decide (r.id ≠ id_) })
    (transientCounted s)

theorem transientNoted_retire (h : e.cause = .read) : transientNoted c e (retire c id_ s) = readRepeated c id_ e s := by
  have hretire : transientCounted (retire c id_ s) = retire c id_ (transientCounted s) := rfl
  rw [transientNoted, hretire]
  refine (setCtl_setCtl _ _ _).trans (setCtl_congr ?_)
  simp only [transientLogged, h]
  rfl

theorem benchReadDone_transient (hcause : e.cause = .read) :
    Happens (.benchReadDone · id_ (.transient e))
      (fun s => up s ∧ alone s ∧ issuedBy s id_ = some (c, q) ∧ stackUp s c = true ∧ s.faults.injections = [] ∧
        firstIn (0x342 + c) (currentStrip s) s ∧ firstIn 0x004 (currentStrip s) s)
      (readRepeated c id_ e) [0x342 + c, 0x004] noPuts :=
  happens_settlingAfter (fun _ _ => rfl) fun s ⟨hfabric, halone, hissued, hup, hinj, hctl, hcnt⟩ => by
    rw [benchReadDone_issued hissued hup hinj, readEnds, ← transientNoted_retire hcause]
    exact ⟨halone, benchTransient_frame, ⟨rfl, rfl, rfl, rfl, rfl⟩, benchTransient_sets (s := retire c id_ s) hfabric hctl hcnt⟩

theorem benchParity_unissued (h : issuedBy s id_ = none) : benchParity id_ o s = s := by
  simp only [benchParity, h]

theorem benchParityError_idle : Happens (.benchParityError · id_ o) (fun s => alone s ∧ issuedBy s id_ = none) id [] noPuts :=
  happens_settlingAfter (fun _ _ => rfl) fun s ⟨halone, hnone⟩ => by
    rw [benchParity_unissued hnone]
    exact ⟨halone, OutFrame.refl _, Settled.refl _, List.forall_mem_nil _⟩

/-- A write parity error counted and logged; the command stays issued. -/
def writeRepeated (c : Nat) (e : ErrorCapture) (s : State) : State :=
  setCtl c (fun x => { x with
      wparTransient := wrap32 (x.wparTransient + 1)
      transients := ({ e with stime := shortTime s } :: x.transients).take 8 })
    (transientCounted s)

theorem transientNoted_parity (h : e.cause = .writeParity) : transientNoted c e s = writeRepeated c e s :=
  setCtl_congr (by simp only [transientLogged, h])

theorem benchParityError_transient (hcause : e.cause = .writeParity) :
    Happens (.benchParityError · id_ (.transient e))
      (fun s => up s ∧ alone s ∧ issuedBy s id_ = some (c, q) ∧ stackUp s c = true ∧
        firstIn (0x342 + c) (currentStrip s) s ∧ firstIn 0x004 (currentStrip s) s)
      (writeRepeated c e) [0x342 + c, 0x004] noPuts :=
  happens_settlingAfter (fun _ _ => rfl) fun s ⟨hfabric, halone, hissued, hup, hctl, hcnt⟩ => by
    have hparity : benchParity id_ (.transient e) s = benchTransient c e s := by
      simp only [benchParity, hissued, hup, Bool.not_true, Bool.false_eq_true, if_false]
    rw [hparity, ← transientNoted_parity hcause]
    exact ⟨halone, benchTransient_frame, ⟨rfl, rfl, rfl, rfl, rfl⟩, benchTransient_sets hfabric hctl hcnt⟩

end

/-! ### A refresh interval (R549, R550) -/

section
variable {pch : Nat} {s : State}

/-- A pseudo-channel owes so many refreshes. -/
def owing (k : Nat) (v : Int) (x : BenchCtl) : BenchCtl := { x with owed := vset x.owed k v, maxOwed := max x.maxOwed v.toNat }

theorem refreshDue_issues (hpch : pch < 64) (hup : stackUp s (pch / 32) = true) (hpend : pendingAt s pch = true) (hcalm : urgentAt s pch = false) :
    refreshDue pch s = setCtl (pch / 32) (owing (pch % 32) (vget (vget s.bench.ctl (pch / 32)).owed (pch % 32))) s := by
  simp only [refreshDue, decide_eq_false (Nat.not_le.2 hpch), hup, hpend, hcalm, Bool.not_true, Bool.or_self, Bool.false_eq_true, if_false,
    add_sub_cancel_right]
  rfl

theorem benchRefreshDue_issues (hpch : pch < 64) :
    Happens (.benchRefreshDue · pch) (fun s => stackUp s (pch / 32) = true ∧ pendingAt s pch = true ∧ urgentAt s pch = false)
      (setCtl (pch / 32) fun x => owing (pch % 32) (vget x.owed (pch % 32)) x) [] noPuts :=
  happens_tablingSilently (fun _ _ => rfl) fun _ ⟨hup, hpend, hcalm⟩ =>
    ⟨(refreshDue_issues hpch hup hpend hcalm).trans (setCtl_congr rfl), setCtl_settled _⟩

/-- A number of refreshes pulled in ahead raises no count of those owed. -/
theorem owing_ahead (k n : Nat) (x : BenchCtl) : owing k (-(n : Int)) x = { x with owed := vset x.owed k (-(n : Int)) } := by
  have hzero : (-(n : Int)).toNat = 0 := by omega
  rw [owing, hzero, Nat.max_zero]

/-- Every refresh owed is paid, and a free number pulled in ahead. -/
def refreshedAhead (pch : Nat) (s : State) : State :=
  setCtl (pch / 32) (fun x => { x with owed := vset x.owed (pch % 32) (-((Config.freeValue s.free % 9 : Nat) : Int)) }) { s with free := s.free + 1 }

theorem refreshDue_ahead (hpch : pch < 64) (hup : stackUp s (pch / 32) = true) (hnone : pendingAt s pch = false) :
    refreshDue pch s = refreshedAhead pch s := by
  simp only [refreshDue, decide_eq_false (Nat.not_le.2 hpch), hup, hnone, Bool.not_true, Bool.not_false, Bool.or_self, Bool.false_eq_true, if_false,
    if_true]
  exact setCtl_congr (owing_ahead _ _ _)

theorem benchRefreshDue_ahead (hpch : pch < 64) :
    Happens (.benchRefreshDue · pch) (fun s => stackUp s (pch / 32) = true ∧ pendingAt s pch = false) (refreshedAhead pch) [] noPuts :=
  happens_tablingSilently (fun _ _ => rfl) fun _ ⟨hup, hnone⟩ => ⟨refreshDue_ahead hpch hup hnone, ⟨rfl, rfl, rfl, rfl, rfl⟩⟩

/-- One refresh more is forced. -/
def refreshForcedOnce (x : BenchCtl) : BenchCtl := { x with refreshForced := wrap32 (x.refreshForced + 1) }

/-- The eighth refresh owed is counted and paid at once. -/
theorem owing_forced {k : Nat} {x : BenchCtl} (howed : vget x.owed k = 7) (hmax : x.maxOwed = 8) :
    owing k 7 (refreshForcedOnce (owing k 8 x)) = refreshForcedOnce x := by
  have hvec : vset (vset x.owed k 8) k 7 = x.owed :=
    (vmod_vmod x.owed (fun _ => (7 : Int)) fun _ => 8).trans (vmod_eq_self howed.symm)
  have hcount : max (max x.maxOwed (8 : Int).toNat) (7 : Int).toNat = x.maxOwed := by rw [hmax]; rfl
  simp only [owing, refreshForcedOnce, hvec, hcount]

theorem refreshDue_forces (hpch : pch < 64) (hup : stackUp s (pch / 32) = true) (hpend : pendingAt s pch = true) (hurgent : urgentAt s pch = true)
    (howed : vget (vget s.bench.ctl (pch / 32)).owed (pch % 32) = 7) (hmax : (vget s.bench.ctl (pch / 32)).maxOwed = 8) :
    refreshDue pch s = raiseOnce (0x34A + pch / 32) 0 0 (setCtl (pch / 32) refreshForcedOnce s) := by
  have hctl : setCtl (pch / 32) (owing (pch % 32) 7) (setCtl (pch / 32) refreshForcedOnce (setCtl (pch / 32) (owing (pch % 32) 8) s)) =
      setCtl (pch / 32) refreshForcedOnce s := by
    rw [setCtl_setCtl, setCtl_setCtl]
    exact setCtl_congr (owing_forced howed hmax)
  rw [← hctl]
  simp only [refreshDue, decide_eq_false (Nat.not_le.2 hpch), hup, hpend, hurgent, howed, Bool.not_true, Bool.or_self, Bool.false_eq_true, if_false,
    if_true]
  rfl

theorem benchRefreshDue_forces (hpch : pch < 64) :
    Happens (.benchRefreshDue · pch)
      (fun s => up s ∧ stackUp s (pch / 32) = true ∧ pendingAt s pch = true ∧ urgentAt s pch = true ∧
        vget (vget s.bench.ctl (pch / 32)).owed (pch % 32) = 7 ∧ (vget s.bench.ctl (pch / 32)).maxOwed = 8 ∧
        firstIn (0x34A + pch / 32) (currentStrip s) s)
      (setCtl (pch / 32) refreshForcedOnce) [0x34A + pch / 32] noPuts :=
  happens_tabling (fun _ _ => rfl) fun s ⟨hfabric, hup, hpend, hurgent, howed, hmax, hfirst⟩ => by
    rw [refreshDue_forces hpch hup hpend hurgent howed hmax]
    exact ⟨raiseOnce_frame _ _ _ _, setCtl_settled _, List.forall_mem_singleton.2 (raiseOnce_sets hfabric hfirst)⟩

end

/-! ### The temperature of a stack (R551) -/

section
variable {c : Nat} {temp : Int} {s : State}

theorem exec_stackTempChange (hc : c < 2) (t : Nat) (s : State) : exec (.stackTempChange t c temp) s = runAt t s (stackTemp c temp) :=
  congrArg (runAt t s) (funext fun _ => if_neg (Nat.not_le.2 hc))

/-- Whether a stack that is hot, or is not, is so at a temperature. -/
def hotAt (temp : Int) (hot : Bool) : Bool := if hot then decide (80 < temp) else decide (85 < temp)

/-- A stack at a temperature. -/
def atTemp (temp : Int) (hot : Bool) (x : BenchCtl) : BenchCtl := { x with temp := temp, hot := hot }

theorem stackTemp_keeps (h : hotAt temp (vget s.bench.ctl c).hot = (vget s.bench.ctl c).hot) :
    stackTemp c temp s = setCtl c (fun x => { x with temp := temp }) s := by
  have hctl : setCtl c (atTemp temp (hotAt temp (vget s.bench.ctl c).hot)) s = setCtl c (fun x => { x with temp := temp }) s :=
    setCtl_congr (by rw [h]; rfl)
  rw [← hctl]
  exact if_pos h

theorem stackTemp_crosses {hot : Bool} (h : hotAt temp (vget s.bench.ctl c).hot = hot) (hne : hot ≠ (vget s.bench.ctl c).hot) :
    stackTemp c temp s = raise (0x346 + c) 0 0 (setCtl c (atTemp temp hot) s) := by
  subst h
  exact if_neg hne

theorem stackTempChange_crosses {hot : Bool} {cond : State → Prop} (hc : c < 2)
    (h : ∀ s, cond s → up s ∧ hotAt temp (vget s.bench.ctl c).hot = hot ∧ hot ≠ (vget s.bench.ctl c).hot) :
    Happens (.stackTempChange · c temp) cond (setCtl c (atTemp temp hot)) [0x346 + c] noPuts :=
  happens_tabling (exec_stackTempChange hc) fun s hs => by
    obtain ⟨hup, hhot, hne⟩ := h s hs
    rw [stackTemp_crosses hhot hne]
    exact ⟨raise_frame _ _ _ _, setCtl_settled _, List.forall_mem_singleton.2 (raise_sets _ _ _ hup)⟩

theorem stackTempChange_heats (hc : c < 2) :
    Happens (.stackTempChange · c temp) (fun s => up s ∧ decide (85 < temp) = true ∧ (vget s.bench.ctl c).hot = false)
      (setCtl c (atTemp temp true)) [0x346 + c] noPuts :=
  stackTempChange_crosses hc fun s ⟨hup, habove, hcool⟩ => by
    rw [hcool]
    exact ⟨hup, habove, Bool.false_ne_true.symm⟩

theorem stackTempChange_cools (hc : c < 2) :
    Happens (.stackTempChange · c temp) (fun s => up s ∧ decide (temp ≤ 80) = true ∧ (vget s.bench.ctl c).hot = true)
      (setCtl c (atTemp temp false)) [0x346 + c] noPuts :=
  stackTempChange_crosses hc fun s ⟨hup, hbelow, hhot⟩ => by
    rw [hhot]
    exact ⟨hup, decide_eq_false (Int.not_lt.2 (of_decide_eq_true hbelow)), Bool.false_ne_true⟩

theorem stackTempChange_keeps (hc : c < 2) :
    Happens (.stackTempChange · c temp) (fun _ => decide (80 < temp) = true ∧ decide (temp ≤ 85) = true)
      (setCtl c fun x => { x with temp := temp }) [] noPuts :=
  happens_tablingSilently (exec_stackTempChange hc) fun s ⟨hwarm, hbelow⟩ => by
    have hhot (b : Bool) : hotAt temp b = b := by
      cases b with
      | false => exact decide_eq_false (Int.not_lt.2 (of_decide_eq_true hbelow))
      | true => exact hwarm
    exact ⟨stackTemp_keeps (hhot _), setCtl_settled _⟩

end

end Sys2Proof.Machine

/-! ## The freeze of a controller (R562 to R565) -/

namespace Sys2Proof.Machine

/-! ### What the end of a DMA descriptor keeps (R613, R615) -/

/-- What the end of a descriptor keeps: the Bench, the queue, the pair, a glue-up, the fault log, and every pending event. -/
structure EndsWork (s r : State) : Prop where
  rest : KeepsRest s r
  faults : r.faults = s.faults
  events : ∀ n, bitOf s.host.evt.pending n = true → bitOf r.host.evt.pending n = true

section
variable {a b c s : State}

theorem EndsWork.refl (s : State) : EndsWork s s := ⟨⟨rfl, rfl, rfl, rfl⟩, rfl, fun _ h => h⟩

theorem EndsWork.trans (h : EndsWork a b) (h' : EndsWork b c) : EndsWork a c :=
  ⟨h.rest.trans h'.rest, h'.faults.trans h.faults, fun n hn => h'.events n (h.events n hn)⟩

theorem EndsWork.foldl {α : Type} {f : State → α → State} (hf : ∀ s x, EndsWork s (f s x)) (l : List α) (s : State) : EndsWork s (l.foldl f s) :=
  List.foldlRecOn (motive := EndsWork s) l f (.refl s) fun r hr x _ => hr.trans (hf r x)

theorem OutFrame.endsWork (h : OutFrame a b) (hevents : ∀ n, bitOf a.host.evt.pending n = true → bitOf b.host.evt.pending n = true) : EndsWork a b :=
  ⟨⟨h.bench, h.pending, h.pair, h.glue⟩, h.faults, hevents⟩

theorem raise_endsWork (src : Nat) (x y : Int) (s : State) : EndsWork s (raise src x y s) :=
  (raise_frame src x y s).endsWork fun _ h => raise_keeps src x y h

theorem setChan_endsWork (i : Nat) (f : DmaChan → DmaChan) (s : State) : EndsWork s (setChan i f s) :=
  ⟨⟨rfl, rfl, rfl, rfl⟩, rfl, fun _ h => h⟩

theorem setView_endsWork (i : Nat) (f : ViewStream → ViewStream) (s : State) : EndsWork s (setView i f s) :=
  ⟨⟨rfl, rfl, rfl, rfl⟩, rfl, fun _ h => h⟩

theorem endTicket_endsWork (w code : Nat) (s : State) : EndsWork s (endTicket w code s) :=
  ⟨endTicket_keeps w code s, (endTicket_frame w code s).faults, fun _ h => reportTicket_keeps w (decideTicket_keeps w code h)⟩

theorem failFrame_endsWork (v w code : Nat) (s : State) : EndsWork s (failFrame v w code s) :=
  (endTicket_endsWork w code s).trans ((setView_endsWork v _ _).trans (raise_endsWork _ _ _ _))

theorem endCarried_endsWork (run : DmaRun) (status : DStatus) (code : Nat) (s : State) : EndsWork s (endCarried run status code s) := by
  unfold endCarried
  simp only
  split
  · exact .refl s
  · refine (setView_endsWork run.desc.srcUnit (fun x => { x with sending := none }) s).trans ?_
    split
    · exact (endTicket_endsWork _ _ _).trans (setView_endsWork _ _ _)
    · exact failFrame_endsWork _ _ _ _

theorem endDesc_endsWork (i : Nat) (status : DStatus) (code : Nat) (run : DmaRun) (s : State) : EndsWork s (endDesc i status code run s) := by
  have hdrop (s : State) (k : Nat) : EndsWork s (dropRt 0x0F k 0 i s) := ⟨⟨rfl, rfl, rfl, rfl⟩, rfl, fun _ h => h⟩
  have hout (e : Emit) (s : State) : EndsWork s (out e s) := (out_frame e s).endsWork fun _ h => h
  have hclosed (f : DmaChan → DmaChan) : EndsWork s (setChan i f (run.slots.foldl (fun s k => dropRt 0x0F k 0 i s) s)) :=
    (EndsWork.foldl hdrop run.slots s).trans (setChan_endsWork i f _)
  unfold endDesc
  simp only
  refine EndsWork.trans ?_ ((endTicket_endsWork run.ticket code _).trans (endCarried_endsWork run status code _))
  split
  · exact (hclosed _).trans (hout _ _)
  · exact hclosed _

theorem fetchDesc_endsWork (i : Nat) (s : State) : EndsWork s (fetchDesc i s) := by
  unfold fetchDesc
  split
  · exact .refl s
  · exact setChan_endsWork _ _ _

theorem startSignal_endsWork (i : Nat) (s : State) : EndsWork s (startSignal i s) := by
  unfold startSignal
  simp only
  split
  · split
    · exact fetchDesc_endsWork i s
    · exact setChan_endsWork _ _ s
  · exact setChan_endsWork _ _ s
  · exact .refl s

theorem chainSignal_endsWork (i : Nat) (s : State) : EndsWork s (chainSignal i s) := by
  refine EndsWork.foldl (fun s k => ?_) _ _
  simp only
  split
  · exact startSignal_endsWork k s
  · exact .refl s

theorem captureBank_endsWork (i : Nat) (s : State) : EndsWork s (captureBank i s) := ⟨⟨rfl, rfl, rfl, rfl⟩, rfl, fun _ h => h⟩

theorem afterDesc_endsWork (i : Nat) (event : Bool) (s : State) : EndsWork s (afterDesc i event s) := by
  unfold afterDesc
  simp only
  generalize hraised : (if (event || decide ((vget s.dma.ch i).active.count ≤ (vget s.dma.ch i).done)) = true then
    raise (0x300 + i) (vget s.dma.ch i).lastTicket (dmaArg1 (vget s.dma.ch i)) s else s) = r
  have hr : EndsWork s r := by
    rw [← hraised]
    split
    · exact raise_endsWork _ _ _ s
    · exact .refl s
  refine hr.trans ?_
  split
  · refine ((setChan_endsWork i (fun x => { x with eoc := true }) r).trans (chainSignal_endsWork i _)).trans ?_
    split
    · exact captureBank_endsWork i _
    · exact setChan_endsWork i _ _
  · split
    · exact fetchDesc_endsWork i r
    · exact setChan_endsWork i _ r

theorem completeDesc_endsWork (i : Nat) (status : DStatus) (run : DmaRun) (s : State) : EndsWork s (completeDesc i status run s) :=
  (endDesc_endsWork i status _ run s).trans (afterDesc_endsWork i _ _)

theorem dmaFreeze_endsWork (archive : Bool) (s : State) : EndsWork s (dmaFreeze archive s).2 := by
  refine List.foldlRecOn (motive := fun a : Nat × State => EndsWork s a.2) (List.range 64) _ (.refl s) fun a ha i _ => ?_
  split
  · exact ha
  · split
    · exact ha.trans (completeDesc_endsWork i _ _ a.2)
    · exact ha

end

/-! ### A lasting error freezes its controller -/

section
variable {c : Nat} {e : ErrorCapture} {s : State}

theorem haltTriggers_idle (h : s.gauge.trigEnabled = false) : haltTriggers s = { s with gauge := { s.gauge with trigHalted := true } } := by
  simp only [haltTriggers, stopNow, h, Bool.not_false, if_true]

/-- A fault's entry changes the fault log and the alert, beside an event, and no count. -/
theorem logFault_frame (f : FaultEntry) (s : State) :
    ∃ fs : Faults, fs.cnt = s.faults.cnt ∧ OutFrame { s with faults := fs, hf := { s.hf with alert := true } } (logFault f s).2 := by
  unfold logFault
  simp only
  exact ⟨_, by rfl, raise_frame _ _ _ _⟩

/-- The fault that a lasting error is (R563). -/
def freezeFault (c : Nat) (e : ErrorCapture) : FaultEntry :=
  { cls := 3, unit := 0x09, index := c, cause := benchErrorCode e.cause, tickets := 0xFFFFFFFF,
    detail := le 8 e.offset ++ le 1 e.port ++ le 1 (pchOf e.offset) ++ le 1 e.syndrome1 ++ le 1 e.syndrome2 }

def ctlFrozen (c : Nat) (s : State) : State := setCtl c (fun x => { x with state := .frozen }) s

def freezeCounted (s : State) : State :=
  { s with faults := { s.faults with cnt := { s.faults.cnt with freezes := wrap32 (s.faults.cnt.freezes + 1) } } }

/-- The state in which a freeze has been reported, before the items in the stack end. -/
def freezeReported (c : Nat) (e : ErrorCapture) (s : State) : State :=
  raise (0x340 + c) 0 0 (haltTriggers (freezeCounted (logFault (freezeFault c e) (ctlFrozen c s)).2))

/-- The controller with its capture, and no request left. -/
def captured (c : Nat) (err : FreezeCapture) (s : State) : State :=
  setCtl c (fun x => { x with capture := some err, pending := [], issued := [] }) s

theorem captured_bench {a b : State} (err : FreezeCapture) (h : a.bench = b.bench) : (captured c err a).bench = (captured c err b).bench := by
  unfold captured setCtl
  rw [h]

/-- The frozen stack once the items in it have ended. -/
def frozenStack (c : Nat) (e : ErrorCapture) (s : State) : State :=
  let l := (logFault (freezeFault c e) (ctlFrozen c s)).1
  let r := freezeItems c (freezeReported c e s)
  captured c { err := e, ticketsFailed := r.1, faultEntry := l } (setTicketsFailed l r.1 r.2)

/-- A module of a pair gives the failure signal at a freeze (R711). -/
def freezeSignalled (s : State) : State := if inPair s then giveSignal s else s

theorem freezeCtl_eq : freezeCtl c e s = freezeSignalled (frozenStack c { e with stime := shortTime s } s) := by rfl

theorem freezeCtl_solo (h : inPair (frozenStack c { e with stime := shortTime s } s) = false) :
    freezeCtl c e s = frozenStack c { e with stime := shortTime s } s := by
  rw [freezeCtl_eq, freezeSignalled, h, if_neg Bool.false_ne_true]

/-- What a reported freeze leaves of the state. -/
structure Reported (c : Nat) (s r : State) : Prop where
  bench : r.bench = (ctlFrozen c s).bench
  freezes : r.faults.cnt.freezes = wrap32 (s.faults.cnt.freezes + 1)
  glue : r.glue = s.glue
  pair : r.pair = s.pair
  cfg : cfgNow r = cfgNow s
  comp : r.comp = s.comp
  event : bitOf r.host.evt.pending (0x340 + c) = true

theorem freezeReported_reported (hup : up s) (htrig : s.gauge.trigEnabled = false) : Reported c s (freezeReported c e s) := by
  obtain ⟨fs, hcnt, hlog⟩ := logFault_frame (freezeFault c e) (ctlFrozen c s)
  have hquiet : (freezeCounted (logFault (freezeFault c e) (ctlFrozen c s)).2).gauge.trigEnabled = false :=
    (congrArg Gauge.trigEnabled hlog.gauge).trans htrig
  unfold freezeReported
  rw [haltTriggers_idle hquiet]
  have hraise := raise_frame (0x340 + c) 0 0
    { freezeCounted (logFault (freezeFault c e) (ctlFrozen c s)).2 with
      gauge := { (freezeCounted (logFault (freezeFault c e) (ctlFrozen c s)).2).gauge with trigHalted := true } }
  have hfaults : (logFault (freezeFault c e) (ctlFrozen c s)).2.faults.cnt = s.faults.cnt := by rw [hlog.faults]; exact hcnt
  refine ⟨hraise.bench.trans hlog.bench, ?_, hraise.glue.trans hlog.glue, hraise.pair.trans hlog.pair,
    hraise.cfgNow.trans hlog.cfgNow, hraise.comp.trans hlog.comp, raise_sets _ _ _ (hlog.hf_fabric.trans hup)⟩
  rw [hraise.faults]
  exact congrArg (fun n : FaultCounters => wrap32 (n.freezes + 1)) hfaults

/-- No decompressor works. -/
theorem freezeDecompress_idle (c : Nat) (h : ∀ d : Nat, d < 4 → (vget s.comp.de d).run = none) : freezeDecompress c s = (0, s) := by
  refine List.foldlRecOn (motive := (· = (0, s))) (List.range 4) _ rfl fun a ha d hd => ?_
  subst ha
  simp only [h d (List.mem_range.1 hd)]

/-- Where no partition lies in the stack and no decompressor works, the DMA channels alone have items to end. -/
theorem freezeItems_channels (hparts : ∀ k : Nat, k < 18 → partIn s k c = false) (hidle : ∀ d : Nat, d < 4 → (vget s.comp.de d).run = none) :
    (freezeItems c s).2 = (dmaFreeze false s).2 := by
  simp only [freezeItems, hparts 12 (by decide), hparts 13 (by decide), hparts 14 (by decide), hparts 15 (by decide), Bool.or_self, andThen,
    freezeDecompress_idle c hidle, Bool.false_eq_true, if_false, if_true]

/-- A frozen stack that stands alone, and holds no partition. -/
structure Frozen (c : Nat) (s r : State) : Prop where
  bench : ∃ err, r.bench = (captured c err (ctlFrozen c s)).bench
  freezes : r.faults.cnt.freezes = wrap32 (s.faults.cnt.freezes + 1)
  glue : r.glue = s.glue
  pair : r.pair = s.pair
  event : bitOf r.host.evt.pending (0x340 + c) = true

theorem Reported.captures {a r : State} (h : Reported c s a) (hends : EndsWork a r) (err : FreezeCapture) (num count : Nat) :
    Frozen c s (captured c err (setTicketsFailed num count r)) := by
  refine ⟨⟨err, captured_bench err (a := setTicketsFailed num count r) (hends.rest.bench.trans h.bench)⟩, ?_, hends.rest.glue.trans h.glue,
    hends.rest.pair.trans h.pair, hends.events _ h.event⟩
  show r.faults.cnt.freezes = _
  rw [hends.faults, h.freezes]

theorem frozenStack_frozen (hup : up s) (htrig : s.gauge.trigEnabled = false) (hparts : ∀ k : Nat, k < 18 → partIn s k c = false)
    (hidle : ∀ d : Nat, d < 4 → (vget s.comp.de d).run = none) : Frozen c s (frozenStack c e s) := by
  have hreported := freezeReported_reported (c := c) (e := e) hup htrig
  have hparts' (k : Nat) (hk : k < 18) : partIn (freezeReported c e s) k c = false := by
    rw [partIn, hreported.cfg]
    exact hparts k hk
  have hends : EndsWork (freezeReported c e s) (freezeItems c (freezeReported c e s)).2 := by
    rw [freezeItems_channels hparts' (by rwa [hreported.comp])]
    exact dmaFreeze_endsWork false _
  exact hreported.captures hends _ _ _

theorem freezeCtl_frozen (hup : up s) (hsolo : inPair s = false) (htrig : s.gauge.trigEnabled = false)
    (hparts : ∀ k : Nat, k < 18 → partIn s k c = false) (hidle : ∀ d : Nat, d < 4 → (vget s.comp.de d).run = none) :
    Frozen c s (freezeCtl c e s) := by
  have hfrozen := frozenStack_frozen (e := { e with stime := shortTime s }) hup htrig hparts hidle
  rw [freezeCtl_solo (by rwa [inPair, hfrozen.pair])]
  exact hfrozen

/-- A command that leaves no write outstanding changes no byte of the Bench. -/
theorem commit_mem {q r : State} (hwrites : r.bench.writes = []) (hemptied : r.bench.emptied = []) : (commit q r).bench.mem = q.bench.mem := by
  show applyWrites (emptyRanges q.bench.mem r.bench.emptied) r.bench.writes = _
  rw [hwrites, hemptied]
  rfl

/-- A controller that freezes at a read stops with its capture and no request; the other controller, and every byte, stay. -/
theorem Frozen.committed {id_ : Nat} {r : State} (hc : c < 2) (hinv : s.Inv) (h : Frozen c (retire c id_ s) r) :
    (vget (commit s r).bench.ctl c).state = .frozen ∧ (vget (commit s r).bench.ctl c).pending = [] ∧ (vget (commit s r).bench.ctl c).issued = [] ∧
      (vget (commit s r).bench.ctl c).capture.isSome = true ∧ vget (commit s r).bench.ctl (1 - c) = vget s.bench.ctl (1 - c) ∧
      (commit s r).bench.mem = s.bench.mem ∧ (commit s r).faults.cnt.freezes = wrap32 (s.faults.cnt.freezes + 1) ∧
      bitOf (commit s r).host.evt.pending (0x340 + c) = true := by
  obtain ⟨⟨err, hbench⟩, hfreezes, -, -, hevent⟩ := h
  have hne : 1 - c ≠ c := by omega
  have hkept : r.bench.ctl = (captured c err (ctlFrozen c (retire c id_ s))).bench.ctl := congrArg Bench.ctl hbench
  have hctl : (commit s r).bench.ctl = (captured c err (ctlFrozen c (retire c id_ s))).bench.ctl := hkept
  have hmem : (commit s r).bench.mem = s.bench.mem :=
    commit_mem ((congrArg Bench.writes hbench).trans hinv.writes) ((congrArg Bench.emptied hbench).trans hinv.emptied)
  rw [hctl]
  simp only [captured, ctlFrozen, retire, setCtl_ctl, vget_vmod_self _ _ _ hc, vget_vmod_ne _ _ _ _ hne]
  exact ⟨trivial, trivial, trivial, rfl, trivial, hmem, hfreezes, hevent⟩

theorem benchReadDone_freezes (t : Nat) (s : State) (id_ c : Nat) (q : BenchReq) (e : ErrorCapture) (hinv : s.Inv) (hc : c < 2) (hup : up s)
    (hglue : s.glue = none) (hrole : s.pair.role = .solo) (hsolo : inPair s = false) (hissued : issuedBy s id_ = some (c, q))
    (hserves : stackUp s c = true) (hinj : s.faults.injections = []) (htrig : s.gauge.trigEnabled = false)
    (hparts : ∀ k : Nat, k < 18 → partIn s k c = false) (hidle : ∀ d : Nat, d < 4 → (vget s.comp.de d).run = none) :
    Next (.benchReadDone t id_ (.lasting e)) s fun r =>
      (vget r.bench.ctl c).state = .frozen ∧ (vget r.bench.ctl c).pending = [] ∧ (vget r.bench.ctl c).issued = [] ∧
      (vget r.bench.ctl c).capture.isSome = true ∧ vget r.bench.ctl (1 - c) = vget s.bench.ctl (1 - c) ∧ r.bench.mem = s.bench.mem ∧
      r.faults.cnt.freezes = wrap32 (s.faults.cnt.freezes + 1) ∧ bitOf r.host.evt.pending (0x340 + c) = true := by
  have hends : benchReadDone id_ (.lasting e) (tick t s) = freezeCtl c e (retire c id_ (tick t s)) := by
    rw [benchReadDone_issued (s := tick t s) hissued hserves hinj, readEnds]
  have hfrozen : Frozen c (retire c id_ (tick t s)) (freezeCtl c e (retire c id_ (tick t s))) := freezeCtl_frozen hup hsolo htrig hparts hidle
  have halone : alone (freezeCtl c e (retire c id_ (tick t s))) :=
    ⟨hfrozen.glue.trans hglue, (congrArg PairUnit.role hfrozen.pair).trans hrole⟩
  refine ⟨_, ?_, hfrozen.committed (s := tick t s) hc (tick_inv t hinv)⟩
  show runAt t s (onFabric [] settle ∘ benchReadDone id_ (.lasting e)) = _
  rw [runAt, Function.comp_apply, hends, onFabric_settle halone]

end

/-- Settles O38: a request's way through its controller, the four ends of a read, the refresh of a pseudo-channel, and a stack's temperature. -/
theorem benchServesRequests : Obligations.BenchServesRequests :=
  ⟨fun _ => happens_silently (fun _ _ => rfl) (fun _ => rfl) (fun _ => rfl) fun _ h => benchRequest_refused h,
    fun _ hok => benchRequest_enters hok, fun _ hok => benchRequest_wakes hok,
    fun _ _ hpch => happens_silently (exec_benchIssue hpch) (fun _ => rfl) (fun _ => rfl) fun _ h => benchIssue_rests h,
    fun _ _ _ _ hpch _ hplace hid hdata => (benchIssue_write hpch hplace hid hdata).weaken fun _ => onlyPending_of,
    fun _ _ _ hpch _ hplace hid hdata => (benchIssue_read hpch hplace hid hdata).weaken fun _ => onlyPending_of,
    fun _ hp => benchUrgencyRise_forms hp, fun _ hp => benchUrgencyRise_reports hp,
    fun _ _ => benchReadDone_idle, fun _ _ _ => benchReadDone_clean, fun _ _ _ _ => benchReadDone_corrected,
    fun _ _ _ _ _ hcause => benchReadDone_transient hcause,
    benchReadDone_freezes,
    fun _ _ _ _ _ hcause => benchParityError_transient hcause, fun _ _ => benchParityError_idle,
    fun _ hpch => benchRefreshDue_issues hpch, fun _ hpch => benchRefreshDue_ahead hpch, fun _ hpch => benchRefreshDue_forces hpch,
    fun _ _ hc => stackTempChange_heats hc, fun _ _ hc => stackTempChange_cools hc, fun _ _ hc => stackTempChange_keeps hc⟩

end Sys2Proof.Machine

/-! ## The event ring (R590, R591, Table 13-8) -/

namespace Sys2Proof.Machine

/-! ### The record of a source -/

section
variable {s : State} {src v t : Nat} {a b : Int}

/-- The points of the event ring, and what it has lost. -/
def ringPoints (e : EventBlock) : Nat × Bool × Bool × Bool × Nat := (e.prod, e.phase, e.overflow, e.lostBefore, e.lost)

/-- A vector's message leaves the event ring alone, and writes nothing to the host's memory. -/
theorem signalVector_ring (v : Nat) (s : State) :
    ringPoints (signalVector v s).host.evt = ringPoints s.host.evt ∧
      ∀ o d w, Emit.hostWrite o d w ∈ (signalVector v s).emit → Emit.hostWrite o d w ∈ s.emit := by
  unfold signalVector
  split
  · rw [sendMsix_pending]
    refine ⟨rfl, fun o d w h => ?_⟩
    unfold sendMsix at h
    simp only at h
    split at h
    · exact h
    · split at h
      · exact h
      · simpa [out] using h
  · exact ⟨rfl, fun _ _ _ h => h⟩

theorem raise_ring (hup : up s) (hmask : bitOf s.host.evt.mask src = false) :
    ringPoints (raise src a b s).host.evt = ringPoints (recorded src a b s).host.evt ∧
      ∀ o d w, Emit.hostWrite o d w ∈ (raise src a b s).emit → Emit.hostWrite o d w ∈ (recorded src a b s).emit := by
  rw [raise_unmasked hup hmask]
  exact signalVector_ring _ _

/-- With its ring switched off a source writes no record. -/
theorem recorded_off (h : s.host.evt.size = 0) : recorded src a b s = pended src s := if_pos h

/-- With EVR_SIZE - 1 records unread a source's record is lost (R591). -/
theorem recorded_full (hsize : 1 < s.host.evt.size) (hfull : evtUnread s.host.evt = s.host.evt.size - 1) :
    recorded src a b s = withEvt (fun e => { e with overflow := true, lost := wrap32 (e.lost + 1), lostBefore := true }) (pended src s) := by
  have hne : ¬ s.host.evt.size = 0 := by omega
  exact (if_neg hne).trans (if_pos hfull)

/-- The record that a source writes at EVR_PROD (Table 13-8). -/
def recordOf (src : Nat) (a b : Int) (s : State) : Emit :=
  .hostWrite (s.host.evt.base + 16 * s.host.evt.prod)
    (eventRecord src (flagBit s.host.evt.phase 0 + flagBit s.host.evt.lostBefore 1) a b (shortTime s)) false

/-- EVR_PROD past one record, PHASE inverting at the wrap. -/
def advanced (e : EventBlock) : EventBlock :=
  { e with
    prod := (e.prod + 1) % e.size
    lostBefore := false
    phase := if (e.prod + 1) % e.size = 0 then !e.phase else e.phase }

theorem recorded_written (hsize : 1 < s.host.evt.size) (hroom : evtUnread s.host.evt < s.host.evt.size - 1) :
    recorded src a b s = out (recordOf src a b s) (withEvt advanced (pended src s)) := by
  have hne : ¬ s.host.evt.size = 0 := by omega
  have hnf : ¬ evtUnread s.host.evt = s.host.evt.size - 1 := by omega
  exact (if_neg hne).trans (if_neg hnf)

theorem advanced_next {e : EventBlock} (hprod : e.prod < e.size) :
    (advanced e).prod = (if e.prod + 1 = e.size then 0 else e.prod + 1) ∧
      (advanced e).phase = (if e.prod + 1 = e.size then !e.phase else e.phase) := by
  by_cases h : e.prod + 1 = e.size
  · simp [advanced, h]
  · have hlt : (e.prod + 1) % e.size = e.prod + 1 := Nat.mod_eq_of_lt (by omega)
    simp [advanced, h, hlt]

theorem eventFlags (p l : Bool) : flagBit p 0 + flagBit l 1 = (if p then 1 else 0) + (if l then 2 else 0) := by
  cases p <;> cases l <;> rfl

/-! ### What a raised source does -/

theorem raise_pends_only (hup : up s) (e : Nat) :
    bitOf (raise src a b s).host.evt.pending e = true ↔ e = src ∨ bitOf s.host.evt.pending e = true := by
  rw [raise_pending src a b hup]
  by_cases h : bitOf s.host.evt.pending src = true
  · rw [setBit, if_pos h]
    exact ⟨Or.inr, fun hor => hor.elim (fun he => he ▸ h) id⟩
  · rw [setBit, if_neg h, if_pos rfl, bitOf_add _ _ _ (by simpa using h)]
    simp [or_comm]

theorem raise_silent (hup : up s) (hmask : bitOf s.host.evt.mask src = true) :
    raise src a b s = withEvt (fun e => { e with pending := (raise src a b s).host.evt.pending }) s := by
  rw [raise_masked hup hmask]
  rfl

theorem raise_unrecorded (hup : up s) (hmask : bitOf s.host.evt.mask src = false) (hsize : s.host.evt.size = 0) :
    (raise src a b s).host.evt.prod = s.host.evt.prod ∧ (raise src a b s).host.evt.lost = s.host.evt.lost := by
  obtain ⟨hring, -⟩ := raise_ring (a := a) (b := b) hup hmask
  rw [recorded_off hsize] at hring
  simp only [ringPoints, Prod.mk.injEq] at hring
  obtain ⟨hprod, -, -, -, hlost⟩ := hring
  exact ⟨hprod, hlost⟩

theorem raise_records (hup : up s) (hmask : bitOf s.host.evt.mask src = false) (hsize : 1 < s.host.evt.size)
    (hprod : s.host.evt.prod < s.host.evt.size) (hroom : evtUnread s.host.evt < s.host.evt.size - 1) :
    recordOf src a b s ∈ (raise src a b s).emit ∧
      (raise src a b s).host.evt.prod = (if s.host.evt.prod + 1 = s.host.evt.size then 0 else s.host.evt.prod + 1) ∧
      (raise src a b s).host.evt.phase = (if s.host.evt.prod + 1 = s.host.evt.size then !s.host.evt.phase else s.host.evt.phase) ∧
      (raise src a b s).host.evt.lostBefore = false ∧ (raise src a b s).host.evt.lost = s.host.evt.lost := by
  obtain ⟨hring, -⟩ := raise_ring (a := a) (b := b) hup hmask
  obtain ⟨hnext, hphase⟩ := advanced_next hprod
  rw [recorded_written hsize hroom] at hring
  simp only [ringPoints, Prod.mk.injEq] at hring
  obtain ⟨rprod, rphase, -, rbefore, rlost⟩ := hring
  refine ⟨?_, rprod.trans hnext, rphase.trans hphase, rbefore, rlost⟩
  rw [raise_unmasked hup hmask, recorded_written hsize hroom]
  exact signalVector_emits _ _ (by simp [out])

theorem raise_leaves_disarmed (hup : up s) (hmask : bitOf s.host.evt.mask src = false) :
    bitOf (raise src a b s).host.evt.armed (vectorOf s.host.evt src) = false := by
  cases harmed : bitOf s.host.evt.armed (vectorOf s.host.evt src) with
  | true => exact raise_disarms hup hmask harmed
  | false =>
    obtain ⟨-, hkept, -⟩ := raise_disarmed (a := a) (b := b) hup harmed
    rw [hkept, harmed]

theorem raise_loses (hup : up s) (hmask : bitOf s.host.evt.mask src = false) (hsize : 1 < s.host.evt.size)
    (hfull : evtUnread s.host.evt = s.host.evt.size - 1) :
    (raise src a b s).host.evt.overflow = true ∧ (raise src a b s).host.evt.lost = wrap32 (s.host.evt.lost + 1) ∧
      (raise src a b s).host.evt.lostBefore = true ∧ (raise src a b s).host.evt.prod = s.host.evt.prod ∧
      (raise src a b s).host.evt.phase = s.host.evt.phase ∧
      ∀ o d w, Emit.hostWrite o d w ∈ (raise src a b s).emit → Emit.hostWrite o d w ∈ s.emit := by
  obtain ⟨hring, hputs⟩ := raise_ring (a := a) (b := b) hup hmask
  rw [recorded_full hsize hfull] at hring hputs
  simp only [ringPoints, Prod.mk.injEq] at hring
  obtain ⟨rprod, rphase, roverflow, rbefore, rlost⟩ := hring
  exact ⟨roverflow, rlost, rbefore, rprod, rphase, hputs⟩

end

/-- The ring that is switched on after reset begins its first pass. -/
theorem evrSizeWrite_reset {k : Nat} (hk : 8 ≤ k) (hk' : k ≤ 16) :
    (evrSizeWrite (2 ^ k) State.reset).host.evt = { State.reset.host.evt with size := 2 ^ k, prod := 0, cons := 0, phase := true } := by
  have hpos : 2 ^ k ≠ State.reset.host.evt.size := Nat.ne_of_gt (Nat.two_pow_pos k)
  have hok : (isPow2 (2 ^ k) && inRange 256 65536 (2 ^ k)) = true := by
    interval_cases k <;> rfl
  rw [evrSizeWrite, if_neg hpos, if_pos (Or.inr hok)]
  rfl

/-- Settles O7: the record of a source that is not masked is written, or lost where the ring is full, before its vector's message. -/
theorem eventsReachTheHost : Obligations.EventsReachTheHost := by
  refine ⟨fun src e a b s hup => raise_pends_only hup e, fun src a b s hup hmask => raise_silent hup hmask,
    fun src a b s hup hmask hsize => raise_unrecorded hup hmask hsize, ?_, ?_, ?_⟩
  · intro src a b s hup hmask hsize hprod hroom
    have h := raise_records (a := a) (b := b) hup hmask hsize hprod hroom
    rw [recordOf, eventFlags] at h
    exact h
  · intro src a b s hup hmask hsize hfull
    obtain ⟨hover, hlost, hbefore, hprod, hphase, hputs⟩ := raise_loses (a := a) (b := b) hup hmask hsize hfull
    exact ⟨hover, hlost, hbefore, hprod, hphase, hputs, raise_leaves_disarmed hup hmask⟩
  · intro k hk hk'
    rw [evrSizeWrite_reset hk hk']
    exact ⟨rfl, rfl, rfl⟩

end Sys2Proof.Machine

/-! ## The clock without a slew (R655) -/

namespace Sys2Proof.Machine

/-- The clock's units before SECONDS wraps (R654). -/
def clockSpan : Nat := 2 ^ 32 * (1000000000 * 2 ^ 48)

/-- The clock read as a natural number. -/
def clockNat (c : Clock) : Nat := (c.seconds * 1000000000 + c.ns) * 2 ^ 32 + c.frac

/-- The clock set from a natural number. -/
def clockAt (c : Clock) (v : Nat) : Clock :=
  { c with seconds := v / 2 ^ 32 / 1000000000 % 2 ^ 48, ns := v / 2 ^ 32 % 1000000000, frac := v % 2 ^ 32 }

theorem setClock_natCast (c : Clock) (v : Nat) : setClock c v = clockAt c v := rfl

theorem clockUnits_natCast (c : Clock) : clockUnits c = (clockNat c : Int) := by
  simp [clockUnits, clockNat]

theorem runClock_steady {c : Clock} (h : c.slew = 0) (n : Nat) : runClock n c = clockAt c (clockNat c + n * c.addend) := by
  rw [runClock, if_pos (Or.inl h), clockUnits_natCast, ← setClock_natCast]
  push_cast
  rfl

/-- What is read back is what was set, but for the wraps of SECONDS. -/
theorem clockNat_clockAt (c : Clock) (v : Nat) : clockNat (clockAt c v) = v % clockSpan := by
  simp only [clockNat, clockAt, clockSpan, Nat.mod_mul]
  rw [Nat.add_comm, Nat.mul_comm, Nat.add_comm (_ * 1000000000), Nat.mul_comm (_ % _) 1000000000]

theorem clockAt_mod (c : Clock) (v : Nat) : clockAt c (v % clockSpan) = clockAt c v := by
  have hns : v % clockSpan / 2 ^ 32 = v / 2 ^ 32 % (1000000000 * 2 ^ 48) := Nat.mod_mul_right_div_self ..
  have hf : v % clockSpan % 2 ^ 32 = v % 2 ^ 32 := Nat.mod_mul_right_mod ..
  simp only [clockAt, hns, hf, Nat.mod_mul_right_div_self, Nat.mod_mul_right_mod, Nat.mod_mod]

theorem clockAt_slew (c : Clock) (v : Nat) : (clockAt c v).slew = c.slew := rfl
theorem clockAt_addend (c : Clock) (v : Nat) : (clockAt c v).addend = c.addend := rfl
theorem clockAt_clockAt (c : Clock) (v w : Nat) : clockAt (clockAt c v) w = clockAt c w := rfl

theorem runClock_add {c : Clock} (h : c.slew = 0) (m n : Nat) : runClock (m + n) c = runClock n (runClock m c) := by
  have hmod : ((clockNat c + m * c.addend) % clockSpan + n * c.addend) % clockSpan = (clockNat c + (m + n) * c.addend) % clockSpan := by
    rw [Nat.mod_add_mod, Nat.add_mul, Nat.add_assoc]
  calc
    runClock (m + n) c = clockAt c (clockNat c + (m + n) * c.addend) := runClock_steady h _
    _ = clockAt c ((clockNat c + m * c.addend) % clockSpan + n * c.addend) := by rw [← clockAt_mod, ← hmod, clockAt_mod]
    _ = runClock n (runClock m c) := by
      rw [runClock_steady h m, runClock_steady ((clockAt_slew c _).trans h), clockNat_clockAt, clockAt_clockAt, clockAt_addend]

/-- The clock at its own seconds and less than two more: a full second of NS goes over to SECONDS. -/
theorem clockAt_within {c : Clock} {v x : Nat} (hs : c.seconds < 2 ^ 48) (hv : v / 2 ^ 32 = c.seconds * 1000000000 + x) (hx : x < 2000000000) :
    clockAt c v =
      if x < 1000000000 then { c with ns := x, frac := v % 2 ^ 32 }
      else { c with seconds := (c.seconds + 1) % 2 ^ 48, ns := x - 1000000000, frac := v % 2 ^ 32 } := by
  have hsec : (c.seconds * 1000000000 + x) / 1000000000 = c.seconds + x / 1000000000 := by
    rw [Nat.mul_comm, Nat.mul_add_div (by decide)]
  have hns : (c.seconds * 1000000000 + x) % 1000000000 = x % 1000000000 := Nat.mul_add_mod_self_right ..
  simp only [clockAt, hv, hsec, hns]
  split
  case isTrue h => rw [Nat.div_eq_of_lt h, Nat.mod_eq_of_lt h, Nat.add_zero, Nat.mod_eq_of_lt hs]
  case isFalse h =>
    have hge : 1000000000 ≤ x := Nat.le_of_not_lt h
    have hlt : x - 1000000000 < 1000000000 := Nat.sub_lt_left_of_lt_add hge hx
    rw [Nat.div_eq_sub_div (by decide) hge, Nat.mod_eq_sub_mod hge, Nat.div_eq_of_lt hlt, Nat.mod_eq_of_lt hlt]

theorem clockNat_add (c : Clock) (a : Nat) :
    clockNat c + a = 2 ^ 32 * (c.seconds * 1000000000) + (c.ns * 2 ^ 32 + c.frac + a) := by
  rw [clockNat, Nat.add_mul, Nat.mul_comm (_ * _), Nat.add_assoc, Nat.add_assoc, Nat.add_assoc]

/-- ADDEND adds less than a second to NS in one cycle. -/
theorem cycleNs_lt {c : Clock} (hn : c.ns < 1000000000) (hf : c.frac < 2 ^ 32) (ha : c.addend ≤ 8594229559) :
    (c.ns * 2 ^ 32 + c.frac + c.addend) / 2 ^ 32 < 2000000000 := by
  have hlt : c.ns * 2 ^ 32 + c.frac < 1000000000 * 2 ^ 32 :=
    Nat.lt_of_lt_of_le (Nat.add_lt_add_left hf _) (Nat.succ_mul .. ▸ Nat.mul_le_mul_right _ hn)
  exact Nat.div_lt_of_lt_mul ((Nat.add_lt_add_of_lt_of_le hlt ha).trans_le (by decide))

/-- One cycle: NS:FRAC takes ADDEND. -/
theorem runClock_one {c : Clock} (h : c.slew = 0) (hs : c.seconds < 2 ^ 48) (hn : c.ns < 1000000000) (hf : c.frac < 2 ^ 32)
    (ha : c.addend ≤ 8594229559) :
    runClock 1 c =
      (let v := c.ns * 2 ^ 32 + c.frac + c.addend
       if v / 2 ^ 32 < 1000000000 then { c with ns := v / 2 ^ 32, frac := v % 2 ^ 32 }
       else { c with seconds := (c.seconds + 1) % 2 ^ 48, ns := v / 2 ^ 32 - 1000000000, frac := v % 2 ^ 32 }) := by
  have hv : (clockNat c + 1 * c.addend) / 2 ^ 32 = c.seconds * 1000000000 + (c.ns * 2 ^ 32 + c.frac + c.addend) / 2 ^ 32 := by
    rw [Nat.one_mul, clockNat_add, Nat.mul_add_div (by decide)]
  have hfrac : (clockNat c + 1 * c.addend) % 2 ^ 32 = (c.ns * 2 ^ 32 + c.frac + c.addend) % 2 ^ 32 := by
    rw [Nat.one_mul, clockNat_add, Nat.mul_add_mod]
  have hset := clockAt_within hs hv (cycleNs_lt hn hf ha)
  rw [hfrac] at hset
  exact (runClock_steady h 1).trans hset

/-- A clock that has been set reads less than a second in NS, with a slew or without. -/
theorem runClock_ns_lt (n : Nat) (c : Clock) : (runClock n c).ns < 1000000000 := by
  have hset (u : Int) : (setClock c u).ns < 1000000000 := Nat.mod_lt _ (by decide)
  unfold runClock
  simp only
  split
  · exact hset _
  · split
    · exact hset _
    · exact hset _

/-- Settles O4: without a slew, `n` cycles set the clock ahead by `n` times ADDEND, and SECONDS wraps. -/
theorem clockRunsByAddend : Obligations.ClockRunsByAddend :=
  ⟨fun _ h hs hn hf _ ha => runClock_one h hs hn hf ha, runClock_ns_lt, fun m n _ h => runClock_add h m n, fun _ _ => rfl⟩

end Sys2Proof.Machine

/-! ## Vectors of a table with a source listed twice (R592) -/

namespace Sys2Proof.Machine

/-- Two entries for source 1 stand in the table of vectors, which `State.Inv` does not exclude. -/
def sourceTwiceListed : State :=
  let s := State.reset
  { s with hf := { s.hf with fabric := .running }, host := { s.host with evt := { s.host.evt with vectors := [(1, 1), (1, 1)] } } }

/-- Vector 0 written for sources 0 to 3 takes away the first entry of source 1, and the second stands. -/
theorem maskWrite_sourceTwiceListed : ∃ r, exec (.maskWrite 0 0x2400 0) sourceTwiceListed = .next r ∧ vectorOf r.host.evt 1 = 1 :=
  ⟨_, rfl, by decide +kernel⟩

/-- Refutes O42: a write of a VECTOR register leaves a source its old vector where the table lists the source twice. The statement asks for
`State.Inv`, which says nothing of the table of vectors. -/
theorem not_eventRegisters : ¬ Obligations.EventRegisters := by
  unfold Obligations.EventRegisters
  rintro ⟨-, -, hvector, -⟩
  obtain ⟨r, hr, hvec, -⟩ := hvector 0 sourceTwiceListed 0 0 ⟨rfl, rfl, rfl⟩ rfl (by decide)
  obtain ⟨r', hr', hold⟩ := maskWrite_sourceTwiceListed
  obtain rfl : r' = r := by
    rw [show 0x2400 + 4 * 0 = 0x2400 from rfl, hr'] at hr
    exact Host.Outcome.next.inj hr
  have hnew := hvec 1 (by decide)
  rw [hold] at hnew
  revert hnew
  decide

end Sys2Proof.Machine

/-! ## A descriptor whose slot is listed twice in the ledger (R608) -/

namespace Sys2Proof.Machine

/-- The ticket of slot 3 in its last generation. -/
def lastTicketOfSlot3 : Nat := 3 + 2 ^ 18 * 16383

/-- DMA channel 0 has done the only descriptor of its set; the ledger lists the descriptor's slot twice, as issued and in its last generation,
which `State.Inv` does not exclude. -/
def slotTwiceRun : State :=
  let s := State.reset
  setChan 0 (fun x => { x with state := .run, active := { x.active with count := 1 }, run := some { ticket := lastTicketOfSlot3 } })
    { s with hf := { s.hf with fabric := .running }, ledger := { s.ledger with issued := [3, 3], gens := [(3, 16383), (3, 16383)] } }

/-- The descriptor's end takes one of the slot's two places and one of its two generations: the ticket stays live. -/
theorem dmaDescriptorComplete_slotTwiceRun :
    ∃ r, exec (.dmaDescriptorComplete 0 0) slotTwiceRun = .next r ∧ ticketLive r.ledger lastTicketOfSlot3 = true :=
  ⟨_, rfl, by decide +kernel⟩

/-- Refutes O45: a descriptor that ends COMPLETE leaves its ticket live where the ledger lists the ticket's slot twice. The statement asks for
`State.Inv`, which says nothing of the ledger. -/
theorem not_dmaDescriptors : ¬ Obligations.DmaDescriptors := by
  unfold Obligations.DmaDescriptors
  rintro ⟨-, -, -, -, -, -, -, -, -, -, -, -, -, -, -, -, hends, -⟩
  obtain ⟨r, hr, -, -, -, -, -, -, -, -, hdead, -⟩ := hends 0 slotTwiceRun 0 { ticket := lastTicketOfSlot3 } ⟨rfl, rfl, rfl⟩ rfl
    (by decide +kernel) (by decide +kernel) (by decide) (by decide +kernel) (by decide +kernel) (by decide +kernel)
  obtain ⟨r', hr', hlive⟩ := dmaDescriptorComplete_slotTwiceRun
  obtain rfl : r' = r := by
    rw [hr'] at hr
    exact Host.Outcome.next.inj hr
  rw [hlive] at hdead
  cases hdead

end Sys2Proof.Machine

/-! ## A refused AXIS_STOP MODE 3 that settles the inputs (R636, R648) -/

namespace Sys2Proof.Machine

/-- Axis 2 at rest, too hot to be cleared, with an input that has chattered and been stable since for its CHATTER_WINDOW. -/
def hotSettledAxis : State :=
  let s := State.reset
  setAxis 2 (fun x => { x with state := .idle, temp := 125, inputs := vset x.inputs 0 { chatter := true } })
    { s with
      hf := { s.hf with fabric := .running }
      host := { s.host with rings := vset s.host.rings 0 { cmdBase := 65536, cmdSize := 256, rplBase := 131072, rplSize := 256, enabled := true } }
      bench := { s.bench with ctl := .replicate 2 { (vget s.bench.ctl 0) with state := .ready } } }

/-- AXIS_STOP MODE 3 of axis 2. -/
def clearAxis2 : HostCmd := { unit := 2, paramLen := 4, params := [3, 0, 0, 0] }

/-- The command is refused for the temperature, and the axis counts the input as stable again. -/
theorem axisStop_hotSettledAxis : ∃ r, exec (.axisStop 10000000000 clearAxis2) hotSettledAxis = .next r ∧ anyChatter (vget r.axes.ax 2) = false :=
  ⟨_, rfl, by decide +kernel⟩

/-- Refutes O46: AXIS_STOP MODE 3 refused for the temperature changes the axis all the same, where one of its inputs has been stable for
CHATTER_WINDOW: R636 takes the end of the chatter as found by the command, refused or not. -/
theorem not_axisCommands : ¬ Obligations.AxisCommands := by
  unfold Obligations.AxisCommands
  rintro ⟨-, -, -, -, -, -, -, -, -, hrefused, -⟩
  obtain ⟨r, hr, -, hframe⟩ := hrefused 2 (by decide) 10000000000 clearAxis2 hotSettledAxis
    ⟨⟨rfl, rfl, rfl⟩, rfl, by decide +kernel, by decide +kernel, by decide, rfl, rfl, by decide +kernel, Or.inl rfl, by decide +kernel, by decide +kernel,
      by decide +kernel, by decide +kernel, by decide +kernel, by decide +kernel, rfl⟩
    ⟨rfl, rfl, by decide +kernel, by decide +kernel⟩
  obtain ⟨r', hr', hstable⟩ := axisStop_hotSettledAxis
  obtain rfl : r' = r := by
    rw [hr'] at hr
    exact Host.Outcome.next.inj hr
  rw [hframe.axes] at hstable
  revert hstable
  decide +kernel

end Sys2Proof.Machine

/-! ## A safe stop of an axis that homes beside an idle one (R646) -/

namespace Sys2Proof.Machine

/-- Axis 0 is idle, and axis 1 homes by the command in progress under ticket 0. -/
def homingBesideIdle : State :=
  let s := State.reset
  setAxis 1 (fun x => { x with state := .homing, home := some { ticket := 0 } }) (setAxis 0 (fun x => { x with state := .idle })
    { s with
      hf := { s.hf with fabric := .running, keys := [(.smbus, 0)] }
      boot := { s.boot with vauxUp := true }
      ledger := { s.ledger with issued := [0] }
      cmds := [{ ticket := 0, opcode := 0x0D02, accepted := true }] })

/-- SAFE_STOP of both axes aborts the homing, whose ticket ends FAILED. -/
theorem safeStop_homingBesideIdle : ∃ r, exec (.safeStop 0 .smbus 3) homingBesideIdle = .next r ∧ r.ledger.failed = 1 := ⟨_, rfl, by decide +kernel⟩

/-- Refutes O49: SAFE_STOP of an idle axis changes the ledger where its mask names a homing axis too, whose AXIS_HOME it aborts. -/
theorem not_holdfastOperations : ¬ Obligations.HoldfastOperations := by
  unfold Obligations.HoldfastOperations
  rintro ⟨-, -, -, -, -, -, -, -, -, hstops, -⟩
  obtain ⟨r, hr, -, -, -, hledger⟩ := hstops 0 homingBesideIdle .smbus 3 0 ⟨rfl, rfl, rfl⟩ (by decide +kernel) rfl (by decide +kernel) (by decide) (by decide)
    rfl rfl rfl rfl
  obtain ⟨r', hr', hfailed⟩ := safeStop_homingBesideIdle
  obtain rfl : r' = r := by
    rw [hr'] at hr
    exact Host.Outcome.next.inj hr
  rw [hledger] at hfailed
  cases hfailed

end Sys2Proof.Machine

/-! ## A record released over the mirror whose slot is listed twice in the ledger (R714) -/

namespace Sys2Proof.Machine

/-- The one record of queue 0, with the ticket of slot 3. -/
def mirroredRecord : LiveRec := { ticket := lastTicketOfSlot3 }

/-- A passive module with JM up, whose ledger lists the slot of its one record twice, as issued and in its last generation, which `State.Inv`
does not exclude. -/
def slotTwiceMirrored : State :=
  let s := State.reset
  setQueue 0 (fun x => { x with on := true, cap := 64, wr := 1, live := [mirroredRecord] })
    { s with
      hf := { s.hf with fabric := .running }
      pair := { s.pair with role := .passive }
      ring := { s.ring with ports := vset s.ring.ports 2 { (vget s.ring.ports 2) with state := .up } }
      ledger := { s.ledger with issued := [3, 3], gens := [(3, 16383), (3, 16383)] } }

/-- The record's release takes one of the slot's two places and one of its two generations: the ticket stays live. -/
theorem mirrorLedgerRx_slotTwiceMirrored :
    ∃ r, exec (.mirrorLedgerRx 0 0 1 0 0) slotTwiceMirrored = .next r ∧ ticketLive r.ledger lastTicketOfSlot3 = true :=
  ⟨_, rfl, by decide +kernel⟩

/-- Refutes O59: a record released in the active module, and so here, leaves its ticket live where the ledger lists the ticket's slot twice. The
statement asks for `State.Inv`, which says nothing of the ledger. -/
theorem not_mirrorStream : ¬ Obligations.MirrorStream := by
  unfold Obligations.MirrorStream
  rintro ⟨-, -, -, -, -, -, -, -, -, -, -, -, -, -, -, -, -, -, -, hreleases, -⟩
  obtain ⟨r, hr, -, -, -, hdead, -⟩ := hreleases 0 0 0 0 0 slotTwiceMirrored mirroredRecord ⟨rfl, rfl, rfl⟩ (by decide +kernel) rfl (by decide) rfl rfl rfl
    (by decide) rfl rfl rfl rfl rfl (by decide +kernel)
  obtain ⟨r', hr', hlive⟩ := mirrorLedgerRx_slotTwiceMirrored
  obtain rfl : r' = r := by
    rw [show 0 + 1 = 1 from rfl, hr'] at hr
    exact Host.Outcome.next.inj hr
  rw [show mirroredRecord.ticket = lastTicketOfSlot3 from rfl, hlive] at hdead
  cases hdead

end Sys2Proof.Machine

/-! ## The registers of the DMA channels (R595 to R603, R612, R616) -/

namespace Sys2Proof.Machine

/-! ### One step of a table acts alone -/

/-- Of the steps over a table only the one at `i` acts. -/
theorem foldl_range_only {n i : Nat} {f : State → Nat → State} {s r : State} (hi : i < n) (hact : f s i = r)
    (hbefore : ∀ j : Nat, j < n → j ≠ i → f s j = s) (hafter : ∀ j : Nat, j < n → j ≠ i → f r j = r) : (List.range n).foldl f s = r := by
  induction n with
  | zero => omega
  | succ n ih =>
    rw [List.range_succ, List.foldl_append, List.foldl_cons, List.foldl_nil]
    by_cases hn : i = n
    · subst hn
      rw [foldl_range_fixed fun j hj => hbefore j (by omega) (by omega), hact]
    · rw [ih (by omega) (fun j hj => hbefore j (by omega)) fun j hj => hafter j (by omega)]
      exact hafter n (by omega) (Ne.symm hn)

/-! ### One channel of the table -/

section
variable {c : Nat} {s : State}

theorem setChan_congr {f g : DmaChan → DmaChan} (h : f (vget s.dma.ch c) = g (vget s.dma.ch c)) : setChan c f s = setChan c g s := by
  unfold setChan vmod
  rw [h]

theorem setChan_setChan (c : Nat) (f g : DmaChan → DmaChan) (s : State) : setChan c f (setChan c g s) = setChan c (fun x => f (g x)) s := by
  unfold setChan
  simp only [vmod_vmod]

theorem setChan_settled (c : Nat) (f : DmaChan → DmaChan) (q : State) : Settled q (setChan c f q) := ⟨rfl, rfl, rfl, rfl, rfl⟩

theorem setChan_get (hc : c < 64) (f : DmaChan → DmaChan) (s : State) : vget (setChan c f s).dma.ch c = f (vget s.dma.ch c) := by
  simp [hc]

theorem setChan_get_ne {j : Nat} (hj : j ≠ c) (f : DmaChan → DmaChan) (s : State) : vget (setChan c f s).dma.ch j = vget s.dma.ch j := by
  rw [setChan_ch, vget_vmod_ne _ _ _ _ hj]

theorem OutFrame.setChan {a b : State} (h : OutFrame a b) (c : Nat) (f : DmaChan → DmaChan) : OutFrame (setChan c f a) (setChan c f b) := by
  unfold OutFrame at *
  rw [h]
  rfl

/-! ### Locks (R599, R616) -/

/-- A channel that is not between capture and swap, or whose swap is not due, keeps its banks. -/
theorem settleLock_held (h : (vget s.dma.ch c).lockUntil.all (fun t => decide (s.now < t)) = true) : settleLock c s = s := by
  unfold settleLock
  simp only
  split
  · rfl
  · next t ht =>
    rw [ht] at h
    exact if_pos (by simpa using h)

theorem settleLock_open (h : (vget s.dma.ch c).lockUntil = none) : settleLock c s = s := settleLock_held (by rw [h]; rfl)

theorem locksHeld_of_noLocks (h : noLocks s) : locksHeld s := fun c hc => by rw [h c hc]; rfl

theorem settleLocks_of_locksHeld (h : locksHeld s) : settleLocks s = s := by
  unfold settleLocks
  split
  · rfl
  · exact foldl_range_fixed fun c hc => settleLock_held (h c hc)

/-- A swap that is due takes place, and the channel goes on as its state asks. -/
theorem settleLock_swaps (hdue : (vget s.dma.ch c).lockUntil.any (fun t => decide (t ≤ s.now)) = true) (hrun : (vget s.dma.ch c).state = .run)
    (hcount : (vget s.dma.ch c).shadow.count ≠ 0) : settleLock c s = beginSet c (setChan c swapBanks s) := by
  obtain ⟨t, ht, hle⟩ := (Option.any_eq_true _ _).1 hdue
  have hpast : ¬ s.now < t := by simpa using hle
  simp only [settleLock, ht, hrun, hcount, hpast, if_false, ne_eq, not_true]

/-- The only swap that is due is the only one to take place. -/
theorem settleLocks_one {r : State} (hc : c < 64) (hdue : (vget s.dma.ch c).lockUntil.any (fun t => decide (t ≤ s.now)) = true)
    (hact : settleLock c s = r) (hothers : ∀ j : Nat, j < 64 → j ≠ c → (vget s.dma.ch j).lockUntil = none)
    (hkept : ∀ j : Nat, j < 64 → j ≠ c → (vget r.dma.ch j).lockUntil = none) : settleLocks s = r := by
  obtain ⟨t, ht, -⟩ := (Option.any_eq_true _ _).1 hdue
  have hlocked : ¬ (s.dma.ch.toList.all fun x => x.lockUntil.isNone) = true := by
    intro hall
    have hmem : vget s.dma.ch c ∈ s.dma.ch.toList := by
      simp [vget, hc]
    have hnone := List.all_eq_true.1 hall _ hmem
    simp [ht] at hnone
  rw [settleLocks, if_neg hlocked]
  exact foldl_range_only hc hact (fun j hj hne => settleLock_open (hothers j hj hne)) fun j hj hne => settleLock_open (hkept j hj hne)

/-! ### A write to a channel's registers -/

/-- A write to a channel of a running fabric with no swap due does what its register asks. -/
theorem chanWrite_exactly {i : Nat → Instr} {f new : State → State} {cond : State → Prop} (hi : ∀ t s, exec (i t) s = chanWrite t c s f) (hc : c < 64)
    (h : ∀ q : State, cond q → up q ∧ locksHeld q ∧ f q = new q ∧ Settled q (new q)) : Exactly i cond new := by
  refine exactly_of hi fun q _ hq => ?_
  obtain ⟨hup, hlocks, hf, hset⟩ := h q hq
  refine ⟨?_, hset⟩
  simp only [bar0Write, up_bar0Up hup, if_true, Nat.not_le.2 hc, if_false, settleLocks_of_locksHeld hlocks, hf]

theorem chanWrite_wedged {i : Nat → Instr} {f : State → State} (hi : ∀ t s, exec (i t) s = chanWrite t c s f) : Exactly i (fun s => ¬ up s) wedgedAccess := by
  refine exactly_of hi fun q _ hup => ⟨?_, rfl, rfl, rfl, rfl, rfl⟩
  simp only [bar0Write, not_up_bar0Up hup, Bool.false_eq_true, if_false]
  rfl

/-! ### CFG and CFG_TIMER (R595) -/

section
variable {timer : Bool} {v : Nat} {h : Holder}

theorem dmaCfgWrite_bad (hbad : badDmaCfg timer v = true) : dmaCfgWrite c timer v s = dmaRefuse c 3 {} s := if_pos hbad

theorem dmaCfgWrite_pending (hgood : badDmaCfg timer v = false) (hglue : s.glue.isSome = true ∨ s.ring.prepared.isSome = true) :
    dmaCfgWrite c timer v s = dmaRefuse c 2 {} s := by
  have hwaits : (isPassive s || s.glue.isSome || s.ring.prepared.isSome) = true := by
    rcases hglue with h | h <;> simp [h]
  simp only [dmaCfgWrite, hgood, Bool.false_eq_true, if_false, hwaits, if_true]

/-- A module alone, with nothing pending, asks for the claims of the new configuration. -/
theorem dmaCfgWrite_open (halone : alone s) (hprep : s.ring.prepared = none) : (isPassive s || s.glue.isSome || s.ring.prepared.isSome) = false := by
  obtain ⟨hglue, hsolo⟩ := halone
  simp [isPassive, hglue, hsolo, hprep]

theorem dmaCfgWrite_conflict (hgood : badDmaCfg timer v = false) (halone : alone s) (hprep : s.ring.prepared = none)
    (hconf : conflictOf (claimsOf (setDmaStaged c timer v s.staged) s.marq.shadow.region) (runningClaims s) s.claims 0 c = some h) :
    dmaCfgWrite c timer v s = dmaRefuse c 1 h s := by
  simp only [dmaCfgWrite, hgood, Bool.false_eq_true, if_false, dmaCfgWrite_open halone hprep, hconf]

theorem dmaCfgWrite_stages (hgood : badDmaCfg timer v = false) (halone : alone s) (hprep : s.ring.prepared = none)
    (hfree : conflictOf (claimsOf (setDmaStaged c timer v s.staged) s.marq.shadow.region) (runningClaims s) s.claims 0 c = none) :
    dmaCfgWrite c timer v s = dmaRefuse c 0 {} { s with staged := setDmaStaged c timer v s.staged, stageGen := wrap32 (s.stageGen + 1) } := by
  simp only [dmaCfgWrite, hgood, Bool.false_eq_true, if_false, dmaCfgWrite_open halone hprep, hfree]
  exact if_neg (by simp [isActive, dmaRefuse, setChan, halone.2])

end

end

/-! ### The shadow bank and ARM (R597, R600) -/

section
variable {c : Nat} {h : DmaHeld} {s : State}

theorem shadowWrite_applies (hopen : (vget s.dma.ch c).lockUntil = none) : shadowWrite c h s = setChan c (fun x => applyHeld x h) s := by
  simp only [shadowWrite, settleLock_open hopen, hopen, Option.isSome_none, Bool.false_eq_true, if_false]

theorem shadowWrite_waits (hheld : (vget s.dma.ch c).lockUntil.all (fun t => decide (s.now < t)) = true) (hlock : (vget s.dma.ch c).lockUntil.isSome = true) :
    shadowWrite c h s = holdLate c h s := by
  simp only [shadowWrite, settleLock_held hheld, hlock, if_true]

/-- MODE's bits as the host writes them. -/
theorem shadowHeld_mode {i st : Nat} (hi : i < 256) (hst : st < 16) : shadowHeld .mode (i * 2 ^ 24 + st) = .mode (i * 2 ^ 24 + st) := by
  have hindex : fieldOf (i * 2 ^ 24 + st) 24 8 = i := by
    rw [fieldOf, Nat.shiftRight_eq_div_pow, Nat.mul_comm, Nat.mul_add_div (by decide), Nat.div_eq_of_lt (hst.trans (by decide)), Nat.add_zero]
    exact Nat.mod_eq_of_lt hi
  have hstart : fieldOf (i * 2 ^ 24 + st) 0 4 = st := by
    have hdvd : 2 ^ 4 ∣ i * 2 ^ 24 := Nat.dvd_mul_left_of_dvd (Nat.pow_dvd_pow 2 (by decide)) i
    rw [fieldOf, Nat.shiftRight_zero, Nat.add_mod, Nat.mod_eq_zero_of_dvd hdvd, Nat.zero_add, Nat.mod_mod]
    exact Nat.mod_eq_of_lt hst
  simp only [shadowHeld, hindex, hstart]

theorem shadowHeld_base {v : Nat} (hv : v < 2 ^ 64) : shadowHeld .descBase v = .base (v / 32 * 32) := by
  simp only [shadowHeld, Nat.mod_eq_of_lt hv]

theorem shadowHeld_count {v : Nat} (hv : v < 2 ^ 32) : shadowHeld .descCount v = .count v := by
  simp only [shadowHeld, wrap32_of_lt hv]

theorem dmaShadowWrite_applies {v : Nat} (reg : ShadowReg) (hc : c < 64) (hword : shadowHeld reg v = h) :
    Exactly (.dmaShadowWrite · c reg v) (fun s => up s ∧ noLocks s) (setChan c fun x => applyHeld x h) :=
  chanWrite_exactly (fun _ _ => rfl) hc fun q ⟨hup, hl⟩ =>
    ⟨hup, locksHeld_of_noLocks hl, by rw [hword, shadowWrite_applies (hl c hc)], setChan_settled _ _ q⟩

end

/-! ### Start signals and the doorbell (R601 to R603) -/

section
variable {c : Nat} {s : State}

theorem fetchDesc_free (h : (vget s.dma.ch c).fencedBit = false) : fetchDesc c s = setChan c fetchingNow s := by
  simp only [fetchDesc, h, Bool.false_eq_true, if_false]
  rfl

theorem startSignal_wait (hwait : (vget s.dma.ch c).state = .wait) (hfree : (vget s.dma.ch c).fencedBit = false)
    (hleft : (vget s.dma.ch c).done < (vget s.dma.ch c).active.count) : startSignal c s = setChan c fetchingNow s := by
  simp only [startSignal, hwait, hleft, if_true, fetchDesc_free hfree]

theorem startSignal_run (hrun : (vget s.dma.ch c).state = .run) : startSignal c s = countTickMissed c s := by
  simp only [startSignal, hrun]

theorem beginSet_now (hmode : modeStart (vget s.dma.ch c).active.mode = 0) (hfree : (vget s.dma.ch c).fencedBit = false) :
    beginSet c s = setChan c fetchingNow s := by
  rw [beginSet, if_pos hmode, fetchDesc_free hfree]

theorem beginSet_waits (hmode : modeStart (vget s.dma.ch c).active.mode ≠ 0) : beginSet c s = setChan c (fun x => { x with state := .wait }) s := if_neg hmode

theorem dmaDoorbell_fenced (hopen : (vget s.dma.ch c).lockUntil = none) (hfenced : (vget s.dma.ch c).fencedBit = true) : dmaDoorbell c s = s := by
  simp only [dmaDoorbell, settleLock_open hopen, hfenced, if_true]

theorem dmaDoorbell_off (hopen : (vget s.dma.ch c).lockUntil = none) (hoff : (vget s.dma.ch c).state = .off) : dmaDoorbell c s = s := by
  simp only [dmaDoorbell, settleLock_open hopen, hoff, ite_self]

section
variable (hopen : (vget s.dma.ch c).lockUntil = none) (hfree : (vget s.dma.ch c).fencedBit = false)
include hopen hfree

theorem dmaDoorbell_armed (hidle : (vget s.dma.ch c).state = .idle) (harmed : (vget s.dma.ch c).armed = true) : dmaDoorbell c s = captureBank c s := by
  simp only [dmaDoorbell, settleLock_open hopen, hfree, hidle, hopen, harmed, Option.isSome_none, Bool.false_eq_true, if_false, if_true]

theorem dmaDoorbell_idle (hidle : (vget s.dma.ch c).state = .idle) (harmed : (vget s.dma.ch c).armed = false) :
    dmaDoorbell c s = if (vget s.dma.ch c).active.count = 0 then s else beginSet c (setChan c (fun x => { x with done := 0 }) s) := by
  simp only [dmaDoorbell, settleLock_open hopen, hfree, hidle, hopen, harmed, Option.isSome_none, Bool.false_eq_true, if_false]

theorem dmaDoorbell_wait (hwait : (vget s.dma.ch c).state = .wait) : dmaDoorbell c s = startSignal c s := by
  simp only [dmaDoorbell, settleLock_open hopen, hfree, hwait, Bool.false_eq_true, if_false]

theorem dmaDoorbell_run (hrun : (vget s.dma.ch c).state = .run) (hmode : modeStart (vget s.dma.ch c).active.mode ≠ 0) :
    dmaDoorbell c s = countTickMissed c s := by
  simp only [dmaDoorbell, settleLock_open hopen, hfree, hrun, hmode, Bool.false_eq_true, if_false, startSignal_run hrun]

theorem dmaDoorbell_stopped (hstopped : (vget s.dma.ch c).state = .stopped) :
    dmaDoorbell c s = fetchDesc c (setChan c (fun x => { x with noTicket := false }) s) := by
  simp only [dmaDoorbell, settleLock_open hopen, hfree, hstopped, Bool.false_eq_true, if_false]

end

/-- An idle channel with nothing armed and an empty set starts nothing, fenced or not. -/
theorem dmaDoorbell_empty (hopen : (vget s.dma.ch c).lockUntil = none) (hidle : (vget s.dma.ch c).state = .idle) (harmed : (vget s.dma.ch c).armed = false)
    (hcount : (vget s.dma.ch c).active.count = 0) : dmaDoorbell c s = s := by
  cases hfenced : (vget s.dma.ch c).fencedBit with
  | true => exact dmaDoorbell_fenced hopen hfenced
  | false => rw [dmaDoorbell_idle hopen hfenced hidle harmed, if_pos hcount]

end

/-! ### ABORT and RESET (R612) -/

section
variable {c : Nat} {s : State}

theorem abortChan_off (code frameCode : Nat) (hopen : (vget s.dma.ch c).lockUntil = none) (hoff : (vget s.dma.ch c).state = .off) :
    abortChan c code frameCode s = s := by
  simp only [abortChan, settleLock_open hopen, hoff, if_true]

/-- A channel at rest, and what an abort leaves of its work. -/
def aborted (x : DmaChan) : DmaChan := { x with state := .idle, fetching := false, ticketWait := none, passiveHold := false }

theorem abortChan_idle (code frameCode : Nat) (hopen : (vget s.dma.ch c).lockUntil = none) (hon : (vget s.dma.ch c).state ≠ .off)
    (hrun : (vget s.dma.ch c).run = none) : abortChan c code frameCode s = setChan c aborted s := by
  simp only [abortChan, settleLock_open hopen, hon, if_false, hrun]
  rfl

/-- The channel of a descriptor that has been aborted: DONE as it was. -/
def abortedRun (d : DmaRun) (x : DmaChan) : DmaChan :=
  { x with
    run := none, fetching := false, ticketWait := none, done := x.done, lastTicket := d.ticket, lastStatus := 4, descFailed := wrap32 (x.descFailed + 1) }

/-- The abort of a descriptor without a frame, a write-back or context slots: its ticket ends, and nothing else of the module changes. -/
theorem endDesc_aborted {d : DmaRun} (code : Nat) (hframe : d.frame = none) (hslots : d.slots = []) (hback : bitOf d.desc.flags 3 = false) :
    endDesc c .aborted code d s = endTicket d.ticket code (setChan c (abortedRun d) s) := by
  simp only [endDesc, hslots, List.foldl_nil, hback, Bool.false_eq_true, if_false, endCarried, hframe, if_true]
  rfl

/-- ABORT of a descriptor without a frame, a write-back or context slots: its ticket ends, and its event is raised where its flags ask for it. -/
theorem abortChan_runs {d : DmaRun} (code frameCode : Nat) (hopen : (vget s.dma.ch c).lockUntil = none) (hon : (vget s.dma.ch c).state ≠ .off)
    (hrun : (vget s.dma.ch c).run = some d) (hframe : d.frame = none) (hslots : d.slots = []) (hback : bitOf d.desc.flags 3 = false) :
    ∃ r, OutFrame (endTicket d.ticket code (setChan c (abortedRun d) s)) r ∧ abortChan c code frameCode s = setChan c aborted r := by
  have hnone : ({ d with frame := none } : DmaRun) = d := by
    cases d
    simp_all
  have hend : endDesc c .aborted code { d with frame := none } s = endTicket d.ticket code (setChan c (abortedRun d) s) := by
    rw [hnone, endDesc_aborted code hframe hslots hback]
  have hcarried (q : State) : endCarried d .aborted frameCode q = q := by simp only [endCarried, hframe]
  simp only [abortChan, settleLock_open hopen, hon, if_false, hrun, hend, hcarried]
  split
  · exact ⟨_, raise_frame _ _ _ _, rfl⟩
  · exact ⟨_, .refl _, rfl⟩

end

/-! ### The instructions -/

section
variable {c : Nat}

theorem dmaCfgWrite_exactly {timer : Bool} {v : Nat} {cond : State → Prop} {new : State → State} (hc : c < 64) (hv : v < 2 ^ 32)
    (hcond : ∀ q, cond q → up q ∧ noLocks q) (h : ∀ q, cond q → dmaCfgWrite c timer v q = new q) (hset : ∀ q, Settled q (new q)) :
    Exactly (.dmaCfgWrite · c timer v) cond new :=
  chanWrite_exactly (fun _ _ => rfl) hc fun q hq => by
    obtain ⟨hup, hl⟩ := hcond q hq
    rw [wrap32_of_lt hv]
    exact ⟨hup, locksHeld_of_noLocks hl, h q hq, hset q⟩

/-- A doorbell that finds no channel between capture and swap. -/
theorem dmaDoorbell_exactly {cond : State → Prop} {new : State → State} (hc : c < 64) (hcond : ∀ q, cond q → up q ∧ noLocks q)
    (h : ∀ q, cond q → (vget q.dma.ch c).lockUntil = none → dmaDoorbell c q = new q) (hset : ∀ q, Settled q (new q)) :
    Exactly (.dmaDoorbell · c) cond new :=
  chanWrite_exactly (fun _ _ => rfl) hc fun q hq => by
    obtain ⟨hup, hl⟩ := hcond q hq
    exact ⟨hup, locksHeld_of_noLocks hl, h q hq (hl c hc), hset q⟩

theorem dmaDoorbell_begins (hc : c < 64) : Exactly (.dmaDoorbell · c)
    (fun s => up s ∧ noLocks s ∧ (vget s.dma.ch c).fencedBit = false ∧ (vget s.dma.ch c).state = .idle ∧ (vget s.dma.ch c).armed = false ∧
      (vget s.dma.ch c).active.count ≠ 0 ∧ modeStart (vget s.dma.ch c).active.mode = 0)
    (setChan c fun x => { x with done := 0, state := .run, fetching := true, passiveHold := false }) := by
  refine dmaDoorbell_exactly hc (fun _ => And.imp_right And.left) (fun q ⟨_, _, hfree, hidle, harmed, hcount, hmode⟩ hopen => ?_) fun q => setChan_settled _ _ q
  have hget := setChan_get hc (fun x => { x with done := 0 }) q
  rw [dmaDoorbell_idle hopen hfree hidle harmed, if_neg hcount, beginSet_now (by rw [hget]; exact hmode) (by rw [hget]; exact hfree), setChan_setChan]
  rfl

theorem dmaDoorbell_beginsToWait (hc : c < 64) : Exactly (.dmaDoorbell · c)
    (fun s => up s ∧ noLocks s ∧ (vget s.dma.ch c).fencedBit = false ∧ (vget s.dma.ch c).state = .idle ∧ (vget s.dma.ch c).armed = false ∧
      (vget s.dma.ch c).active.count ≠ 0 ∧ modeStart (vget s.dma.ch c).active.mode ≠ 0)
    (setChan c fun x => { x with done := 0, state := .wait }) := by
  refine dmaDoorbell_exactly hc (fun _ => And.imp_right And.left) (fun q ⟨_, _, hfree, hidle, harmed, hcount, hmode⟩ hopen => ?_) fun q => setChan_settled _ _ q
  have hget := setChan_get hc (fun x => { x with done := 0 }) q
  rw [dmaDoorbell_idle hopen hfree hidle harmed, if_neg hcount, beginSet_waits (by rw [hget]; exact hmode), setChan_setChan]

theorem dmaDoorbell_resumes (hc : c < 64) : Exactly (.dmaDoorbell · c)
    (fun s => up s ∧ noLocks s ∧ (vget s.dma.ch c).fencedBit = false ∧ (vget s.dma.ch c).state = .stopped)
    (setChan c fun x => { x with noTicket := false, state := .run, fetching := true, passiveHold := false }) := by
  refine dmaDoorbell_exactly hc (fun _ => And.imp_right And.left) (fun q ⟨_, _, hfree, hstopped⟩ hopen => ?_) fun q => setChan_settled _ _ q
  rw [dmaDoorbell_stopped hopen hfree hstopped, fetchDesc_free (by rw [setChan_get hc]; exact hfree), setChan_setChan]
  rfl

theorem dmaAbort_ends (t c : Nat) (s : State) (d : DmaRun) (hi : s.Inv) (hup : up s) (hl : noLocks s) (hruns : dmaRuns c d s)
    (hon : (vget s.dma.ch c).state ≠ .off) (hback : bitOf d.desc.flags 3 = false) :
    Next (.dmaAbort t c) s fun r =>
      (vget r.dma.ch c).state = .idle ∧ (vget r.dma.ch c).run = none ∧ (vget r.dma.ch c).done = (vget s.dma.ch c).done ∧
      (vget r.dma.ch c).lastStatus = 4 ∧ (vget r.dma.ch c).lastTicket = d.ticket ∧ (vget r.dma.ch c).active = (vget s.dma.ch c).active ∧
      r.ledger.failed = s.ledger.failed + 1 ∧ sget r.ledger.failedBy 12 0 = sget s.ledger.failedBy 12 0 + 1 ∧
      OutFrame { s with dma := { s.dma with ch := vset s.dma.ch c (vget r.dma.ch c) }, ledger := r.ledger } r := by
  obtain ⟨hc, hrun, -, hframe, hslots, hlive, -⟩ := hruns
  let q := tick t s
  obtain ⟨e, he, habort⟩ := abortChan_runs (s := q) 12 12 (hl c hc) hon hrun hframe hslots hback
  have hstep : exec (.dmaAbort t c) s = .next (commit q (setChan c aborted e)) := by
    show runAt t s (bar0Write _) = _
    simp only [runAt, bar0Write, up_bar0Up (s := tick t s) hup, if_true, Nat.not_le.2 hc, if_false,
      settleLocks_of_locksHeld (locksHeld_of_noLocks (s := tick t s) hl), habort, q]
  have hout : OutFrame { setChan c (abortedRun d) q with ledger := (endTicket d.ticket 12 (setChan c (abortedRun d) q)).ledger } e :=
    (endTicket_frame d.ticket 12 (setChan c (abortedRun d) q)).trans he
  have hch : (setChan c aborted e).dma.ch = vset s.dma.ch c (aborted (abortedRun d (vget s.dma.ch c))) := by
    rw [setChan_ch, hout.dma, setChan_ch, vmod_vmod]
    rfl
  have hchan : vget (setChan c aborted e).dma.ch c = aborted (abortedRun d (vget s.dma.ch c)) := by rw [hch, vget_vset_self _ _ _ hc]
  have hledger : (setChan c aborted e).ledger = (endTicket d.ticket 12 (setChan c (abortedRun d) q)).ledger := hout.ledger
  obtain ⟨-, hfailed⟩ := decideTicket_counts (s := setChan c (abortedRun d) q) 12 hlive
  obtain ⟨-, hreported⟩ := reportTicket_counts d.ticket (decideTicket d.ticket 12 (setChan c (abortedRun d) q))
  refine ⟨_, hstep, ?_⟩
  show (vget (setChan c aborted e).dma.ch c).state = .idle ∧ (vget (setChan c aborted e).dma.ch c).run = none ∧
    (vget (setChan c aborted e).dma.ch c).done = (vget s.dma.ch c).done ∧ (vget (setChan c aborted e).dma.ch c).lastStatus = 4 ∧
    (vget (setChan c aborted e).dma.ch c).lastTicket = d.ticket ∧ (vget (setChan c aborted e).dma.ch c).active = (vget s.dma.ch c).active ∧
    (setChan c aborted e).ledger.failed = s.ledger.failed + 1 ∧
    sget (setChan c aborted e).ledger.failedBy 12 0 = sget s.ledger.failedBy 12 0 + 1 ∧
    OutFrame { s with dma := { s.dma with ch := vset s.dma.ch c (vget (setChan c aborted e).dma.ch c) }, ledger := (setChan c aborted e).ledger }
      (commit q (setChan c aborted e))
  rw [hchan, hledger]
  refine ⟨rfl, rfl, rfl, rfl, rfl, rfl, hreported.trans hfailed, endTicket_failedBy hlive (by decide) (by decide), ?_⟩
  refine (commit_quiet (q := setChan c aborted e) t hi hout.bench hout.pending).after ((hout.setChan c aborted).after ?_)
  have hchans : OutFrame (setChan c (fun x => aborted (abortedRun d x)) s) (setChan c aborted (setChan c (abortedRun d) q)) := by
    rw [setChan_setChan]
    exact (tick_frame t hi).setChan c _
  exact hchans.withLedger _

/-- A pacing timer that no channel claims signals none. -/
theorem timerTick_unclaimed {k : Nat} {s : State} (h : ∀ j : Nat, j < 64 → dmaTimerEn (vget (cfgNow s).dma j) = false ∨ dmaTimer (vget (cfgNow s).dma j) ≠ k) :
    timerTick k s = settleLocks s := by
  refine foldl_range_fixed fun j hj => if_neg ?_
  have hcfg : cfgNow (settleLocks s) = cfgNow s := by
    have hf := settleLocks_channels s
    unfold ChannelFrame at hf
    rw [hf]
    rfl
  unfold unitDma
  rw [hcfg]
  rcases h j hj with he | hk
  · simp [he]
  · simp [hk]

/-- A pacing timer that one channel claims and starts by signals that channel alone. -/
theorem timerTick_claimed {k : Nat} {s r : State} (hc : c < 64) (hl : noLocks s) (hmode : modeStart (vget s.dma.ch c).active.mode = 1)
    (hon : dmaEnable (vget (cfgNow s).dma c) = true) (htimer : dmaTimerEn (vget (cfgNow s).dma c) = true) (hk : dmaTimer (vget (cfgNow s).dma c) = k)
    (hothers : ∀ j : Nat, j < 64 → j ≠ c → dmaTimerEn (vget (cfgNow s).dma j) = false ∨ dmaTimer (vget (cfgNow s).dma j) ≠ k)
    (hr : startSignal c s = r) : timerTick k s = r := by
  have hskip (q : State) (hq : cfgNow q = cfgNow s) (j : Nat) (hj : j < 64) (hne : j ≠ c) :
      ¬ (dmaEnable (unitDma q j) && dmaTimerEn (unitDma q j) && decide (dmaTimer (unitDma q j) = k) &&
        decide (modeStart (vget q.dma.ch j).active.mode = 1)) = true := by
    unfold unitDma
    rw [hq]
    rcases hothers j hj hne with he | hk'
    · simp [he]
    · simp [hk']
  have hcfg : cfgNow r = cfgNow s := by
    have hf := startSignal_channels c s
    unfold ChannelFrame at hf
    rw [hr] at hf
    rw [hf]
    rfl
  unfold timerTick
  rw [settleLocks_of_locksHeld (locksHeld_of_noLocks hl)]
  refine foldl_range_only hc ?_ (fun j hj hne => if_neg (hskip s rfl j hj hne)) fun j hj hne => if_neg (hskip r hcfg j hj hne)
  simp only [unitDma, hon, htimer, hk, hmode, decide_true, Bool.and_self, if_true, hr]

/-- A tick of a timer that no channel claims lets the only swap that is due take place. -/
theorem dmaTimerTick_swaps {k : Nat} {cond : State → Prop} {f : DmaChan → DmaChan} (hc : c < 64)
    (hcond : ∀ q, cond q → up q ∧ (∀ j : Nat, j < 64 → dmaTimerEn (vget (cfgNow q).dma j) = false ∨ dmaTimer (vget (cfgNow q).dma j) ≠ k) ∧
      (∀ j : Nat, j < 64 → j ≠ c → (vget q.dma.ch j).lockUntil = none) ∧ (vget q.dma.ch c).lockUntil.any (fun t => decide (t ≤ q.now)) = true)
    (hswap : ∀ q, cond q → settleLock c q = setChan c f q) : Exactly (.dmaTimerTick · k) cond (setChan c f) := by
  refine exactly_of (fun _ _ => rfl) fun q _ hq => ⟨?_, setChan_settled _ _ q⟩
  obtain ⟨hup, hfree, hothers, hdue⟩ := hcond q hq
  rw [onFabric_up _ hup (List.forall_mem_nil _), timerTick_unclaimed hfree]
  exact settleLocks_one hc hdue (hswap q hq) hothers fun j hj hne => by rw [setChan_get_ne hne]; exact hothers j hj hne

/-- The swap of a channel whose new set starts by the doorbell: it goes on with it at once. -/
theorem settleLock_goesOn {s : State} (hc : c < 64) (hdue : (vget s.dma.ch c).lockUntil.any (fun t => decide (t ≤ s.now)) = true)
    (hheld : (vget s.dma.ch c).held = []) (hrun : (vget s.dma.ch c).state = .run) (hcount : (vget s.dma.ch c).shadow.count ≠ 0)
    (hfree : (vget s.dma.ch c).fencedBit = false) (hmode : modeStart (vget s.dma.ch c).shadow.mode = 0) :
    settleLock c s = setChan c (fun x => { x with
      active := x.shadow, shadow := x.active, armed := false, done := 0, lockUntil := none, fetching := true, passiveHold := false }) s := by
  have hget := setChan_get hc swapBanks s
  have hswap : swapBanks (vget s.dma.ch c) =
      { (vget s.dma.ch c) with active := (vget s.dma.ch c).shadow, shadow := (vget s.dma.ch c).active, armed := false, done := 0, lockUntil := none } := by
    simp only [swapBanks, hheld, List.foldl_nil, List.isEmpty_nil, Bool.not_true, Bool.or_false]
  rw [settleLock_swaps hdue hrun hcount, beginSet_now (by rw [hget, hswap]; exact hmode) (by rw [hget, hswap]; exact hfree), setChan_setChan]
  refine setChan_congr ?_
  simp only [fetchingNow, hswap, hrun]

/-- The swap of a channel whose new set waits for its signals: what was held goes to the new shadow bank. -/
theorem settleLock_waits {s : State} {v : Nat} (hc : c < 64) (hdue : (vget s.dma.ch c).lockUntil.any (fun t => decide (t ≤ s.now)) = true)
    (hheld : (vget s.dma.ch c).held = [.count v, .arm]) (hrun : (vget s.dma.ch c).state = .run) (hcount : (vget s.dma.ch c).shadow.count ≠ 0)
    (hmode : modeStart (vget s.dma.ch c).shadow.mode = 1) :
    settleLock c s = setChan c (fun x => { x with
      active := x.shadow, shadow := { x.active with count := v }, armed := true, late := true, held := [], done := 0, lockUntil := none, state := .wait }) s := by
  have hswap : swapBanks (vget s.dma.ch c) = { (vget s.dma.ch c) with
      active := (vget s.dma.ch c).shadow, shadow := { (vget s.dma.ch c).active with count := v }, armed := true, late := true, held := [], done := 0
      lockUntil := none } := by
    simp only [swapBanks, hheld, List.foldl_cons, List.foldl_nil, List.isEmpty_cons, Bool.not_false, Bool.or_true, applyHeld]
  have hwaits : modeStart (vget (setChan c swapBanks s).dma.ch c).active.mode ≠ 0 := by
    rw [setChan_get hc, hswap, hmode]
    decide
  rw [settleLock_swaps hdue hrun hcount, beginSet_waits hwaits, setChan_setChan]
  refine setChan_congr ?_
  simp only [hswap]

theorem dmaTimerTick_signals {k : Nat} {cond : State → Prop} {f : DmaChan → DmaChan} (hc : c < 64)
    (hcond : ∀ q, cond q → up q ∧ noLocks q ∧ modeStart (vget q.dma.ch c).active.mode = 1 ∧ dmaEnable (vget (cfgNow q).dma c) = true ∧
      dmaTimerEn (vget (cfgNow q).dma c) = true ∧ dmaTimer (vget (cfgNow q).dma c) = k ∧
      ∀ j : Nat, j < 64 → j ≠ c → dmaTimerEn (vget (cfgNow q).dma j) = false ∨ dmaTimer (vget (cfgNow q).dma j) ≠ k)
    (hsignal : ∀ q, cond q → startSignal c q = setChan c f q) : Exactly (.dmaTimerTick · k) cond (setChan c f) := by
  refine exactly_of (fun _ _ => rfl) fun q _ hq => ⟨?_, setChan_settled _ _ q⟩
  obtain ⟨hup, hl, hmode, hon, htimer, hk, hothers⟩ := hcond q hq
  rw [onFabric_up _ hup (List.forall_mem_nil _)]
  exact timerTick_claimed hc hl hmode hon htimer hk hothers (hsignal q hq)

/-- RESET of a channel that runs nothing. -/
theorem resetChan_idle {s : State} (code frameCode : Nat) (hc : c < 64) (hopen : (vget s.dma.ch c).lockUntil = none) (hon : (vget s.dma.ch c).state ≠ .off)
    (hrun : (vget s.dma.ch c).run = none) :
    resetChan c code frameCode s = clearFence 0x11 c (setChan c (fun x => { x with
      state := .idle, fetching := false, ticketWait := none, passiveHold := false, armed := false, late := false, eoc := false
      noTicket := false, fencedBit := false, lastStatus := 0, done := 0 }) s) := by
  have hidle : ¬ (vget (setChan c aborted s).dma.ch c).state = .off := by
    rw [setChan_get hc]
    simp [aborted]
  rw [resetChan, abortChan_idle code frameCode hopen hon hrun]
  simp only [hidle, if_false, setChan_setChan]
  rfl

end

/-- Settles O44: register by register, with the lemma about each. -/
theorem dmaRegisters : Obligations.DmaRegisters := by
  refine ⟨?_, ?_, ?_, ?_, ?_, ?_, ?_, ?_, ?_, ?_, ?_, ?_, ?_, ?_, ?_, ?_, ?_, ?_, ?_, ?_, ?_, ?_, ?_, ?_, ?_, ?_, ?_,
    fun _ _ _ => chanWrite_wedged fun _ _ => rfl, fun _ _ _ => chanWrite_wedged fun _ _ => rfl, fun _ => chanWrite_wedged fun _ _ => rfl,
    fun _ => chanWrite_wedged fun _ _ => rfl, fun _ => chanWrite_wedged fun _ _ => rfl, fun _ => chanWrite_wedged fun _ _ => rfl⟩
  · exact fun ch timer v hc hv hbad => dmaCfgWrite_exactly hc hv (fun _ h => h) (fun _ _ => dmaCfgWrite_bad hbad) fun q => setChan_settled _ _ q
  · exact fun ch timer v hc hv hgood => dmaCfgWrite_exactly hc hv (fun _ => And.imp_right And.left)
      (fun _ h => dmaCfgWrite_pending hgood h.2.2) fun q => setChan_settled _ _ q
  · refine fun ch v h hc hv hgood => dmaCfgWrite_exactly hc hv (fun _ => And.imp_right And.left) (fun _ hq => ?_) fun q => setChan_settled _ _ q
    obtain ⟨-, -, halone, hprep, hconf⟩ := hq
    exact dmaCfgWrite_conflict hgood halone hprep hconf
  · refine fun ch v hc hv hgood => dmaCfgWrite_exactly hc hv (fun _ => And.imp_right And.left) (fun _ hq => ?_) fun q => ⟨rfl, rfl, rfl, rfl, rfl⟩
    obtain ⟨-, -, halone, hprep, hfree⟩ := hq
    exact dmaCfgWrite_stages hgood halone hprep hfree
  · intro ch v hc hlo hhi h8
    have hgood : badDmaCfg true v = false := by simp [badDmaCfg, inRange, hlo, hhi, h8]
    refine dmaCfgWrite_exactly hc (hhi.trans_lt (by decide)) (fun _ => And.imp_right And.left) (fun _ hq => ?_) fun q => ⟨rfl, rfl, rfl, rfl, rfl⟩
    obtain ⟨-, -, halone, hprep, hfree⟩ := hq
    exact dmaCfgWrite_stages hgood halone hprep hfree
  · exact fun ch v hc hv => dmaShadowWrite_applies .descBase hc (shadowHeld_base hv)
  · exact fun ch v hc hv => dmaShadowWrite_applies .descCount hc (shadowHeld_count hv)
  · exact fun ch i st hc hi hst => dmaShadowWrite_applies .mode hc (shadowHeld_mode hi hst)
  · exact fun ch v hc hv => chanWrite_exactly (fun _ _ => rfl) hc fun q ⟨hup, hheld, hlock⟩ =>
      ⟨hup, hheld, by rw [shadowHeld_count hv]; exact shadowWrite_waits (hheld ch hc) hlock, setChan_settled _ _ q⟩
  · exact fun ch hc => chanWrite_exactly (fun _ _ => rfl) hc fun q ⟨hup, hl⟩ =>
      ⟨hup, locksHeld_of_noLocks hl, shadowWrite_applies (hl ch hc), setChan_settled _ _ q⟩
  · exact fun ch hc => chanWrite_exactly (fun _ _ => rfl) hc fun q ⟨hup, hheld, hlock⟩ =>
      ⟨hup, hheld, shadowWrite_waits (hheld ch hc) hlock, setChan_settled _ _ q⟩
  · exact fun ch hc => dmaDoorbell_begins hc
  · exact fun ch hc => dmaDoorbell_beginsToWait hc
  · refine fun ch hc => dmaDoorbell_exactly hc (fun _ => And.imp_right And.left) (fun _ hq hopen => ?_) fun q => ⟨rfl, rfl, rfl, rfl, rfl⟩
    obtain ⟨-, -, hfree, hidle, harmed⟩ := hq
    exact dmaDoorbell_armed hopen hfree hidle harmed
  · refine fun ch hc => dmaDoorbell_exactly hc (fun _ => And.imp_right And.left) (fun _ hq hopen => ?_) fun q => .refl q
    obtain ⟨-, -, hidle, harmed, hcount⟩ := hq
    exact dmaDoorbell_empty hopen hidle harmed hcount
  · refine fun ch hc => dmaDoorbell_exactly hc (fun _ => And.imp_right And.left) (fun _ hq hopen => ?_) fun q => setChan_settled _ _ q
    obtain ⟨-, -, hfree, hwait, hleft⟩ := hq
    exact (dmaDoorbell_wait hopen hfree hwait).trans (startSignal_wait hwait hfree hleft)
  · refine fun ch hc => dmaDoorbell_exactly hc (fun _ => And.imp_right And.left) (fun _ hq hopen => ?_) fun q => setChan_settled _ _ q
    obtain ⟨-, -, hfree, hrun, hmode⟩ := hq
    exact dmaDoorbell_run hopen hfree hrun hmode
  · exact fun ch hc => dmaDoorbell_resumes hc
  · exact fun ch hc => dmaDoorbell_exactly hc (fun _ => And.imp_right And.left)
      (fun _ hq hopen => hq.2.2.elim (dmaDoorbell_fenced hopen) (dmaDoorbell_off hopen)) fun q => .refl q
  · refine fun ch hc => chanWrite_exactly (fun _ _ => rfl) hc fun q hq => ?_
    obtain ⟨hup, hl, hoff⟩ := hq
    exact ⟨hup, locksHeld_of_noLocks hl, abortChan_off 12 12 (hl ch hc) hoff, .refl q⟩
  · refine fun ch hc => chanWrite_exactly (fun _ _ => rfl) hc fun q hq => ?_
    obtain ⟨hup, hl, hon, hrun⟩ := hq
    exact ⟨hup, locksHeld_of_noLocks hl, abortChan_idle 12 12 (hl ch hc) hon hrun, setChan_settled _ _ q⟩
  · exact fun t s c d hi hup hl hruns hon hback => dmaAbort_ends t c s d hi hup hl hruns hon hback
  · refine fun ch hc => chanWrite_exactly (fun _ _ => rfl) hc fun q hq => ?_
    obtain ⟨hup, hl, hon, hrun⟩ := hq
    exact ⟨hup, locksHeld_of_noLocks hl, resetChan_idle 12 12 hc (hl ch hc) hon hrun, ⟨rfl, rfl, rfl, rfl, rfl⟩⟩
  · refine fun k ch hc => dmaTimerTick_signals hc (fun _ hq => ?_) fun _ hq => ?_
    · obtain ⟨hup, hl, -, -, -, hmode, hon, htimer, hk, hothers⟩ := hq
      exact ⟨hup, hl, hmode, hon, htimer, hk, hothers⟩
    · obtain ⟨-, -, hfree, hwait, hleft, -⟩ := hq
      exact startSignal_wait hwait hfree hleft
  · refine fun k ch hc => dmaTimerTick_signals hc (fun _ hq => ?_) fun _ hq => ?_
    · obtain ⟨hup, hl, -, hmode, hon, htimer, hk, hothers⟩ := hq
      exact ⟨hup, hl, hmode, hon, htimer, hk, hothers⟩
    · exact startSignal_run hq.2.2.1
  · refine fun k ch hc => dmaTimerTick_swaps hc (fun _ hq => ?_) fun _ hq => ?_
    · obtain ⟨hup, hnone, hothers, hdue, -⟩ := hq
      exact ⟨hup, hnone, hothers, hdue⟩
    · obtain ⟨-, -, -, hdue, hheld, hrun, hcount, hfree, hmode⟩ := hq
      exact settleLock_goesOn hc hdue hheld hrun hcount hfree hmode
  · refine fun k ch v hc => dmaTimerTick_swaps hc (fun _ hq => ?_) fun _ hq => ?_
    · obtain ⟨hup, hnone, hothers, hdue, -⟩ := hq
      exact ⟨hup, hnone, hothers, hdue⟩
    · obtain ⟨-, -, -, hdue, hheld, hrun, hcount, hmode⟩ := hq
      exact settleLock_waits hc hdue hheld hrun hcount hmode

end Sys2Proof.Machine

/-! ## The PCI Express function (R578, R580, R594, R677, R747, R763) -/

namespace Sys2Proof.Machine

/-! ### Configuration requests (R747) -/

section
variable {s : State}

theorem configRequest_retried {op : CfgOp} (h : beforeStep3 s = true) : configRequest op s = out .retryStatus s := if_pos h

theorem configRequest_read {r : CfgReg} (h : beforeStep3 s = false) : configRequest (.read r) s = out (.readData (cfgRead s r)) s := by
  simp only [configRequest, h, Bool.false_eq_true, if_false]

theorem configRequest_write {r : CfgReg} {v : Nat} (h : beforeStep3 s = false) : configRequest (.write r v) s = cfgWrite r v s := by
  simp only [configRequest, h, Bool.false_eq_true, if_false]

theorem out_settled (e : Emit) (q : State) : Settled q (out e q) := ⟨rfl, rfl, rfl, rfl, rfl⟩
theorem setPcie_settled (f : Pcie → Pcie) (q : State) : Settled q (setPcie f q) := ⟨rfl, rfl, rfl, rfl, rfl⟩

theorem configRead_exactly (r : CfgReg) {b : Bytes} (hb : ∀ q, cfgRead q r = b) :
    Exactly (.configRequest · (.read r)) (fun s => beforeStep3 s = false) (out (.readData b)) :=
  exactly_of (fun _ _ => rfl) fun q _ hq => ⟨by rw [configRequest_read hq, hb], out_settled _ q⟩

theorem configWrite_exactly {r : CfgReg} {v : Nat} {cond : State → Prop} {new : State → State}
    (h : ∀ q, cond q → beforeStep3 q = false ∧ cfgWrite r v q = new q) (hset : ∀ q, Settled q (new q)) : Exactly (.configRequest · (.write r v)) cond new :=
  exactly_of (fun _ _ => rfl) fun q _ hq => ⟨(configRequest_write (h q hq).1).trans (h q hq).2, hset q⟩

/-- No message is held back, so none goes out. -/
theorem sendHeld_none (h : s.host.pcie.heldMsgs = 0) : sendHeld s = s :=
  foldl_range_fixed fun v _ => by simp [h, bitOf]

theorem cfgWrite_bar4 {v : Nat} (hlo : 8 ≤ v) (hhi : v ≤ 16) : cfgWrite .bar4Size v s = setPcie (fun p => { p with bar4Log := 20 + v }) s := by
  simp [cfgWrite, inRange, hlo, hhi]

theorem cfgWrite_bar4_out {v : Nat} (h : v < 8 ∨ 16 < v) : cfgWrite .bar4Size v s = s := by
  refine if_neg ?_
  simp only [inRange, Bool.and_eq_true, decide_eq_true_eq]
  omega

end

/-! ### D3hot (R578, R616) -/

section
variable {c : Nat} {s : State}

/-- No channel waits or runs: D3hot stops none. -/
theorem dmaD3hot_idle (hl : noLocks s) (h : ∀ k : Nat, k < 64 → (vget s.dma.ch k).state ≠ .wait ∧ (vget s.dma.ch k).state ≠ .run) : dmaD3hot s = s := by
  rw [dmaD3hot, settleLocks_of_locksHeld (locksHeld_of_noLocks hl)]
  refine foldl_range_fixed fun k hk => if_neg ?_
  obtain ⟨hwait, hrun⟩ := h k hk
  exact fun hor => hor.elim hwait hrun

/-- D3hot stops the one channel that runs. -/
theorem dmaD3hot_one {r : State} (hc : c < 64) (hl : noLocks s) (hrun : (vget s.dma.ch c).state = .run)
    (hothers : ∀ k : Nat, k < 64 → k ≠ c → (vget s.dma.ch k).state ≠ .wait ∧ (vget s.dma.ch k).state ≠ .run) (hr : abortChan c 12 12 s = r)
    (hkept : ∀ k : Nat, k ≠ c → vget r.dma.ch k = vget s.dma.ch k) : dmaD3hot s = r := by
  rw [dmaD3hot, settleLocks_of_locksHeld (locksHeld_of_noLocks hl)]
  have hskip (k : Nat) (hk : k < 64) (hne : k ≠ c) : ¬ ((vget s.dma.ch k).state = .wait ∨ (vget s.dma.ch k).state = .run) := by
    obtain ⟨hwait, hrun⟩ := hothers k hk hne
    exact fun hor => hor.elim hwait hrun
  refine foldl_range_only hc ((if_pos (Or.inr hrun)).trans hr) (fun k hk hne => if_neg (hskip k hk hne)) fun k hk hne => if_neg ?_
  rw [hkept k hne]
  exact hskip k hk hne

/-- The abort of a descriptor without a frame ends its ticket; beside that it touches its channel, its claims and the outputs. -/
theorem endDesc_abortsRun {d : DmaRun} (code : Nat) (hframe : d.frame = none) :
    ∃ e, endDesc c .aborted code d s = endTicket d.ticket code e ∧
      e = { s with claims := e.claims, emit := e.emit, dma := { s.dma with ch := vmod s.dma.ch c (abortedRun d) } } := by
  have hdrop (l : List Nat) : ∃ k, l.foldl (fun s k => dropRt 0x0F k 0 c s) s = { s with claims := k } :=
    List.foldlRecOn (motive := fun r => ∃ k, r = { s with claims := k }) l _ ⟨_, rfl⟩ fun r ⟨k, hk⟩ x _ => ⟨_, by rw [hk]; rfl⟩
  obtain ⟨k, hk⟩ := hdrop d.slots
  simp only [endDesc, endCarried, hframe, hk]
  split
  · exact ⟨_, rfl, rfl⟩
  · exact ⟨_, rfl, rfl⟩

theorem abortChan_runsSilently {d : DmaRun} (code frameCode : Nat) (hopen : (vget s.dma.ch c).lockUntil = none) (hon : (vget s.dma.ch c).state ≠ .off)
    (hrun : (vget s.dma.ch c).run = some d) (hframe : d.frame = none) (hsilent : bitOf d.desc.flags 0 = false) :
    ∃ e, abortChan c code frameCode s = setChan c aborted (endTicket d.ticket code e) ∧
      e = { s with claims := e.claims, emit := e.emit, dma := { s.dma with ch := vmod s.dma.ch c (abortedRun d) } } := by
  have hnone : ({ d with frame := none } : DmaRun) = d := by
    cases d
    simp_all
  obtain ⟨e, hend, he⟩ := endDesc_abortsRun (c := c) (s := s) (d := d) code hframe
  have hcarried (q : State) : endCarried d .aborted frameCode q = q := by simp only [endCarried, hframe]
  refine ⟨e, ?_, he⟩
  simp only [abortChan, settleLock_open hopen, hon, if_false, hrun, hnone, hend, hcarried, hsilent, Bool.false_eq_true]
  rfl

end

theorem d3hotEntry_aborts (t : Nat) (s : State) (c : Nat) (d : DmaRun) (hi : s.Inv) (hl : noLocks s) (hc : c < 64) (hstate : (vget s.dma.ch c).state = .run)
    (hrun : (vget s.dma.ch c).run = some d) (hframe : d.frame = none) (hsilent : bitOf d.desc.flags 0 = false) (hlive : ticketLive s.ledger d.ticket = true)
    (hothers : ∀ k : Nat, k < 64 → k ≠ c → (vget s.dma.ch k).state ≠ .wait ∧ (vget s.dma.ch k).state ≠ .run) :
    Next (.d3hotEntry t) s fun r => r.host.pcie.d3hot = true ∧ (vget r.dma.ch c).state = .idle ∧ (vget r.dma.ch c).run = none ∧
      (vget r.dma.ch c).lastStatus = 4 ∧ (vget r.dma.ch c).done = (vget s.dma.ch c).done ∧ r.ledger.failed = s.ledger.failed + 1 ∧
      sget r.ledger.failedBy 12 0 = sget s.ledger.failedBy 12 0 + 1 ∧ r.bench.mem = s.bench.mem := by
  let q := setPcie (fun p => { p with d3hot := true }) (tick t s)
  have hon : (vget q.dma.ch c).state ≠ .off := fun h => by
    have hoff : (vget s.dma.ch c).state = .off := h
    rw [hstate] at hoff
    cases hoff
  obtain ⟨e, habort, he⟩ := abortChan_runsSilently (s := q) 12 12 (hl c hc) hon hrun hframe hsilent
  have hframe := endTicket_frame d.ticket 12 e
  have hch : (endTicket d.ticket 12 e).dma.ch = vmod s.dma.ch c (abortedRun d) :=
    (congrArg Dma.ch hframe.dma).trans (congrArg (fun x : State => x.dma.ch) he :)
  have hmod : (setChan c aborted (endTicket d.ticket 12 e)).dma.ch = vmod s.dma.ch c (fun x => aborted (abortedRun d x)) := by
    rw [setChan_ch, hch, vmod_vmod]
  have hd3 : dmaD3hot q = setChan c aborted (endTicket d.ticket 12 e) := by
    refine dmaD3hot_one hc hl hstate hothers habort fun k hne => ?_
    rw [hmod, vget_vmod_ne _ _ _ _ hne]
    rfl
  have hled : e.ledger = s.ledger := (congrArg State.ledger he :)
  have hlive' : ticketLive e.ledger d.ticket = true := by rw [hled]; exact hlive
  have hbench : (endTicket d.ticket 12 e).bench = (tick t s).bench := hframe.bench.trans (congrArg State.bench he :)
  have hpending : (endTicket d.ticket 12 e).pending = s.pending := hframe.pending.trans (congrArg State.pending he :)
  have hchan : vget (setChan c aborted (endTicket d.ticket 12 e)).dma.ch c = aborted (abortedRun d (vget s.dma.ch c)) := by
    rw [hmod, vget_vmod_self _ _ _ hc]
  obtain ⟨-, hfailed⟩ := decideTicket_counts (s := e) 12 hlive'
  obtain ⟨-, hreported⟩ := reportTicket_counts d.ticket (decideTicket d.ticket 12 e)
  have hstep : exec (.d3hotEntry t) s = .next (commit (tick t s) (setChan c aborted (endTicket d.ticket 12 e))) := by
    show runAt t s enterD3hot = _
    rw [runAt, enterD3hot, hd3]
  have hquiet := commit_quiet (q := setChan c aborted (endTicket d.ticket 12 e)) t hi hbench hpending
  refine ⟨_, hstep, ?_, ?_, ?_, ?_, ?_, ?_, ?_, ?_⟩
  · show (endTicket d.ticket 12 e).host.pcie.d3hot = true
    rw [hframe]
    exact (congrArg (fun x : State => x.host.pcie.d3hot) he :)
  · rw [hquiet.dma, hchan]
    rfl
  · rw [hquiet.dma, hchan]
    rfl
  · rw [hquiet.dma, hchan]
    rfl
  · rw [hquiet.dma, hchan]
    rfl
  · rw [hquiet.ledger, ← hled]
    exact hreported.trans hfailed
  · rw [hquiet.ledger, ← hled]
    exact endTicket_failedBy hlive' (by decide) (by decide)
  · rw [hquiet.bench]
    exact congrArg Bench.mem (hbench.trans (tick_bench t hi))

/-! ### PERST# and the link (R677, R763) -/

/-- `r` is `s` but for the DMA channels. -/
def ChannelsOnly (s r : State) : Prop := r = { s with dma := { s.dma with ch := r.dma.ch } }

theorem ChannelsOnly.trans {a b c : State} (h : ChannelsOnly a b) (h' : ChannelsOnly b c) : ChannelsOnly a c := by
  unfold ChannelsOnly at *
  rw [h] at h'
  exact h'

/-- PERST# at one channel. -/
def perstChan (c : Nat) (s : State) : State :=
  let s := abortChan c 12 15 s
  setChan c (fun x => { x with
    state := if dmaEnable (unitDma s c) then .idle else .off, active := {}, shadow := {}, armed := false, lockUntil := none, held := [] }) s

section
variable {c : Nat} {s : State}

/-- A lock of a channel that is off ends with its swap alone. -/
theorem settleLock_off (hoff : (vget s.dma.ch c).state = .off) : settleLock c s = s ∨ settleLock c s = setChan c swapBanks s := by
  have hnrun : (vget s.dma.ch c).state ≠ .run := by simp [hoff]
  unfold settleLock
  simp only [hnrun, ne_eq, not_false_eq_true, if_true]
  split
  · exact .inl rfl
  · split
    · exact .inl rfl
    · exact .inr rfl

/-- What was held goes to the banks, and to nothing else of the channel. -/
theorem swapBanks_state (x : DmaChan) : (swapBanks x).state = x.state := by
  unfold swapBanks
  refine List.foldlRecOn (motive := fun y : DmaChan => y.state = x.state) x.held _ rfl fun y hy h _ => ?_
  cases h <;> exact hy

theorem abortChan_ofOff (code frameCode : Nat) (hc : c < 64) (hoff : (vget s.dma.ch c).state = .off) :
    abortChan c code frameCode s = settleLock c s := by
  have hstill : (vget (settleLock c s).dma.ch c).state = .off := by
    rcases settleLock_off hoff with h | h <;> rw [h]
    · exact hoff
    · rw [setChan_get hc, swapBanks_state, hoff]
  exact if_pos hstill

/-- A channel that is off has its registers reset, and no other channel changes. -/
theorem perstChan_off (hc : c < 64) (hoff : (vget s.dma.ch c).state = .off) :
    ChannelsOnly s (perstChan c s) ∧ ∀ k : Nat, k ≠ c → vget (perstChan c s).dma.ch k = vget s.dma.ch k := by
  unfold perstChan
  simp only
  rw [abortChan_ofOff 12 15 hc hoff]
  rcases settleLock_off hoff with h | h <;> rw [h]
  · exact ⟨rfl, fun k hk => setChan_get_ne hk _ _⟩
  · exact ⟨rfl, fun k hk => (setChan_get_ne hk _ _).trans (setChan_get_ne hk _ _)⟩

/-- Channels that are off are reset one after another. -/
theorem foldl_perstChan (l : List Nat) (hl : l.Nodup) (h64 : ∀ k ∈ l, k < 64) (hoff : ∀ k ∈ l, (vget s.dma.ch k).state = .off) :
    ChannelsOnly s (l.foldl (fun s k => perstChan k s) s) := by
  induction l generalizing s with
  | nil => rfl
  | cons k l ih =>
    obtain ⟨hout, hl⟩ := List.nodup_cons.1 hl
    obtain ⟨honly, hkept⟩ := perstChan_off (h64 k List.mem_cons_self) (hoff k List.mem_cons_self)
    refine honly.trans (ih hl (fun j hj => h64 j (List.mem_cons_of_mem _ hj)) fun j hj => ?_)
    rw [hkept j fun heq => hout (heq ▸ hj)]
    exact hoff j (List.mem_cons_of_mem _ hj)

theorem dmaPerst_off (hoff : ∀ k : Nat, k < 64 → (vget s.dma.ch k).state = .off) : ChannelsOnly s (dmaPerst s) :=
  foldl_perstChan (List.range 64) List.nodup_range (fun _ hk => List.mem_range.1 hk) fun k hk => hoff k (List.mem_range.1 hk)

end

/-- What the queue windows have latched is dropped. -/
def unlatched (s : State) : State := (List.range 16).foldl (fun s q => setQueue q (fun x => { x with latched := [], latchedEmpty := true }) s) s

theorem unlatched_rest (s : State) : unlatched s = { s with scribe := { s.scribe with queues := (unlatched s).scribe.queues } } := by
  unfold unlatched
  refine List.foldlRecOn (motive := fun r : State => r = { s with scribe := { s.scribe with queues := r.scribe.queues } }) (List.range 16) _ rfl
    fun r hr q _ => ?_
  rw [hr]
  rfl

theorem unlatched_rd (s : State) (k : Nat) : (vget (unlatched s).scribe.queues k).rd = (vget s.scribe.queues k).rd :=
  List.foldlRecOn (motive := fun r : State => (vget r.scribe.queues k).rd = (vget s.scribe.queues k).rd) (List.range 16) _ rfl fun r hr q _ => by
    rw [← hr, setQueue_queues]
    exact vget_vmod_congr r.scribe.queues fun _ => rfl

/-- The registers of BAR0 at their reset values, and the assertion counted. -/
def bar0Reset (s : State) : State :=
  { s with
    host := { s.host with
      rings := s.host.rings.map fun p => { posts := p.posts }
      evt := {}, pcie := {}, bar4Page := 0, badAccess := 0, bar4Dropped := 0, lowHalves := [] }
    ring := { s.ring with gateway := false }
    boot := { s.boot with perstCount := wrap32 (s.boot.perstCount + 1) } }

theorem perstAssert_resets {s : State} (h : s.host.pcie.perst = false) :
    perstAssert s = unlatched (bar0Reset (if bar0Up s then dmaPerst s else s)) := by
  unfold perstAssert
  simp only [h, Bool.false_eq_true, if_false]
  rfl

theorem vget_map {α β : Type} [Inhabited α] [Inhabited β] {n i : Nat} (v : Vector α n) (f : α → β) (h : i < n) : vget (v.map f) i = f (vget v i) := by
  simp [vget, h]

theorem perstAssert_next (t : Nat) (s : State) (hi : s.Inv) (hoff : ∀ c : Nat, c < 64 → (vget s.dma.ch c).state = .off) (hperst : s.host.pcie.perst = false) :
    Next (.perstAssert t) s fun r =>
      r.host.evt = {} ∧ r.host.pcie = {} ∧ r.host.bar4Page = 0 ∧ r.host.badAccess = 0 ∧ r.host.bar4Dropped = 0 ∧ r.ring.gateway = false ∧
      (∀ n : Nat, n < 4 → vget r.host.rings n = { posts := (vget s.host.rings n).posts }) ∧
      r.boot = { s.boot with perstCount := wrap32 (s.boot.perstCount + 1) } ∧ r.running = s.running ∧ r.staged = s.staged ∧ r.ledger = s.ledger ∧
      r.bench.mem = s.bench.mem ∧ r.gauge = s.gauge ∧ r.axes = s.axes ∧ r.marq = s.marq ∧ r.hf = s.hf ∧ r.faults = s.faults ∧
      (∀ q : Nat, q < 16 → (vget r.scribe.queues q).rd = (vget s.scribe.queues q).rd) := by
  let q := tick t s
  let p := if bar0Up q then dmaPerst q else q
  have honly : ChannelsOnly q p := by
    show ChannelsOnly q (if bar0Up q then dmaPerst q else q)
    split
    · exact dmaPerst_off hoff
    · exact rfl
  have hrest := unlatched_rest (bar0Reset p)
  have hset : Settled q (unlatched (bar0Reset p)) := by
    rw [hrest, honly]
    exact ⟨rfl, rfl, rfl, rfl, rfl⟩
  have hstep : exec (.perstAssert t) s = .next (unlatched (bar0Reset p)) := by
    show runAt t s perstAssert = _
    rw [runAt, perstAssert_resets (s := tick t s) hperst, commit_settled (tick_inv t hi) hset]
  have hrd (k : Nat) : (vget (unlatched (bar0Reset p)).scribe.queues k).rd = (vget s.scribe.queues k).rd := by
    rw [unlatched_rd]
    exact (congrArg (fun x : State => (vget x.scribe.queues k).rd) honly :)
  refine ⟨_, hstep, ?_⟩
  have hrings (n : Nat) (hn : n < 4) : vget (unlatched (bar0Reset p)).host.rings n = { posts := (vget s.host.rings n).posts } := by
    rw [hrest]
    show vget (p.host.rings.map _) n = _
    rw [vget_map _ _ hn, honly]
    rfl
  refine ⟨?_, ?_, ?_, ?_, ?_, ?_, hrings, ?_, ?_, ?_, ?_, ?_, ?_, ?_, ?_, ?_, ?_, fun k _ => hrd k⟩ <;> (rw [hrest, honly]; rfl)

/-- Settles O41: the registers of the function one by one, the abort of a channel that runs, and PERST# over channels that are off. -/
theorem pciExpressFunction : Obligations.PciExpressFunction := by
  refine ⟨fun r => exactly_of (fun _ _ => rfl) fun q _ hq => ⟨configRequest_retried hq, out_settled _ q⟩,
    fun r v => exactly_of (fun _ _ => rfl) fun q _ hq => ⟨configRequest_retried hq, out_settled _ q⟩,
    configRead_exactly .classCode fun _ => rfl, configRead_exactly .interruptPin fun _ => rfl, configRead_exactly .serialNumber fun _ => rfl,
    fun v hlo hhi => configWrite_exactly (fun _ hq => ⟨hq, cfgWrite_bar4 hlo hhi⟩) fun q => setPcie_settled _ q,
    fun v h => configWrite_exactly (fun _ hq => ⟨hq, cfgWrite_bar4_out h⟩) fun q => .refl q,
    configWrite_exactly (fun _ hq => ⟨hq, rfl⟩) fun q => setPcie_settled _ q,
    fun v => configWrite_exactly (fun _ ⟨hq, hheld⟩ => ⟨hq, sendHeld_none hheld⟩) fun q => setPcie_settled _ q,
    exactly_of (fun _ _ => rfl) fun q _ _ => ⟨rfl, out_settled _ q⟩,
    exactly_of (fun _ _ => rfl) fun q _ ⟨hl, hidle⟩ => ⟨dmaD3hot_idle (s := setPcie (fun p => { p with d3hot := true }) q) hl hidle, setPcie_settled _ q⟩,
    ?_, exactly_of (fun _ _ => rfl) fun q _ hperst => ⟨if_pos hperst, .refl q⟩,
    fun t s hi hperst hoff => perstAssert_next t s hi hoff hperst,
    exactly_of (fun _ _ => rfl) fun q _ _ => ⟨rfl, setPcie_settled _ q⟩,
    exactly_of (fun _ _ => rfl) fun q _ ⟨hperst, hstep⟩ => ⟨if_neg (by simp [hperst, hstep]), ⟨rfl, rfl, rfl, rfl, rfl⟩⟩,
    exactly_of (fun _ _ => rfl) fun q _ h => ⟨if_pos (by simpa using h), .refl q⟩,
    exactly_of (fun _ _ => rfl) fun q _ _ => ⟨rfl, ⟨rfl, rfl, rfl, rfl, rfl⟩⟩⟩
  rintro t s c w d hi hl hc hstate hrun rfl hframe hsilent hlive hothers
  exact d3hotEntry_aborts t s c d hi hl hc hstate hrun hframe hsilent hlive hothers

end Sys2Proof.Machine

/-! ## Rules for one event of a unit of the fabric -/

namespace Sys2Proof.Machine

/-! ### What a raised source leaves -/

section
variable (src v t : Nat) (a b : Int) (s : State)

theorem writeEvent_time : (writeEvent src a b t s).time = s.time := by
  unfold writeEvent
  simp only
  repeat' split
  all_goals rfl

theorem sendMsix_time : (sendMsix v s).time = s.time := by
  unfold sendMsix
  simp only
  repeat' split
  all_goals rfl

theorem signalVector_time : (signalVector v s).time = s.time := by
  unfold signalVector
  split
  · exact sendMsix_time _ _
  · rfl

/-- A raised source leaves the clock as it is, and all else of the time unit. -/
@[simp] theorem raise_time : (raise src a b s).time = s.time := by
  unfold raise deliverEvent latchEvent
  simp only
  repeat' split
  any_goals rfl
  rw [signalVector_time, writeEvent_time]

@[simp] theorem raiseOnce_time : (raiseOnce src a b s).time = s.time := by
  unfold raiseOnce
  split
  · rfl
  · exact raise_time _ _ _ _

theorem raise_settled : Settled s (raise src a b s) := by
  have hf := raise_frame src a b s
  exact ⟨raise_now _ _ _ _, hf.pending, congrArg Bench.mem hf.bench, congrArg Bench.writes hf.bench, congrArg Bench.emptied hf.bench⟩

theorem raiseOnce_settled : Settled s (raiseOnce src a b s) := by
  have hf := raiseOnce_frame src a b s
  exact ⟨raiseOnce_now _ _ _ _, hf.pending, congrArg Bench.mem hf.bench, congrArg Bench.writes hf.bench, congrArg Bench.emptied hf.bench⟩

/-- A source raised in a state with the fabric running is pending, whatever is raised after it. -/
theorem raise_up {s : State} (h : up s) : up (raise src a b s) := (raise_frame src a b s).hf_fabric.trans h

end

/-! ### One event -/

section
variable {i : Nat → Instr} {parts : List Nat} {f new : State → State} {cond : State → Prop}

/-- The one step of a unit whose effect settles. -/
theorem next_of {j : Instr} {t : Nat} {s : State} {P : State → Prop} (hx : exec j s = runAt t s f) (hi : s.Inv)
    (hset : Settled (tick t s) (f (tick t s))) (h : P (f (tick t s))) : Next j s P :=
  ⟨_, hx.trans (congrArg Host.Outcome.next (commit_settled (tick_inv t hi) hset)), h⟩

/-- The one step of a unit of the fabric whose effect settles. -/
theorem next_up {j : Instr} {t : Nat} {s : State} {P : State → Prop} (hx : exec j s = runFabric t parts s f) (hi : s.Inv) (hup : up s)
    (hparts : ∀ k ∈ parts, partUp (tick t s) k = true) (hset : Settled (tick t s) (f (tick t s))) (h : P (f (tick t s))) : Next j s P := by
  have hf : onFabric parts f (tick t s) = f (tick t s) := onFabric_up f hup hparts
  refine next_of (f := onFabric parts f) hx hi ?_ ?_
  · rwa [hf]
  · rwa [hf]

/-- A unit of the fabric whose effect is known as a whole. -/
theorem exactly_up (hx : ∀ t s, exec (i t) s = runFabric t [] s f) (h : ∀ q, cond q → up q ∧ f q = new q ∧ Settled q (new q)) :
    Exactly i cond new := by
  refine exactly_of (f := onFabric [] f) hx fun q _ hq => ?_
  obtain ⟨hup, hf, hset⟩ := h q hq
  exact ⟨(onFabric_up f hup (List.forall_mem_nil _)).trans hf, hset⟩

/-- A unit of the fabric that finds nothing to do, whether the fabric runs or not. -/
theorem exactly_still (hx : ∀ t s, exec (i t) s = runFabric t parts s f) (h : ∀ q, cond q → f q = q) : Exactly i cond id :=
  exactly_of (f := onFabric parts f) hx fun q _ hq => ⟨onFabric_idle (h q hq), .refl q⟩

end

/-! ### A packet that runs -/

section
variable {sp : CmdSpec} {c : HostCmd} {s : State} (t : Nat)

theorem issueTicket_time {w : Nat} {s r : State} (h : issueTicket s = some (w, r)) : r.time = s.time := by
  unfold issueTicket at h
  simp only at h
  split at h
  · cases h
  · cases h
    split
    · exact raiseOnce_time _ _ _ _
    · rfl

/-- A packet runs with the clock of its time. -/
theorem taken_time : (taken t s).time = (tick t s).time := by
  unfold taken
  split
  · next hw => exact issueTicket_time hw
  · rfl

end

/-! ### The clock through a reply -/

section
variable (n w status hold : Nat) (irq : Bool) (bytes body : Bytes) (s : State)

theorem writeReply_time : (writeReply n irq bytes s).time = s.time := by
  unfold writeReply
  simp only
  split
  · rw [raise_time]
    split <;> rfl
  · split <;> rfl

theorem reportTicket_time : (reportTicket w s).time = s.time := by
  unfold reportTicket
  simp only
  split <;> rfl

theorem drainPosts_time (l : List PostEntry) : (drainPosts n l hold s).2.time = s.time := by
  induction l generalizing hold s with
  | nil => rfl
  | cons e l ih =>
    cases e with
    | waiting t => exact ih _ _
    | ready t irq bytes =>
      unfold drainPosts
      simp only
      split
      · exact ih _ _
      · rw [ih, reportTicket_time, writeReply_time]

theorem postReply_time : (postReply n w irq bytes s).time = s.time := by
  unfold postReply flushRing
  simp only
  split
  · rfl
  · exact drainPosts_time _ _ _ _

theorem decideTicket_time (code : Nat) : (decideTicket w code s).time = s.time := by
  unfold decideTicket
  simp only
  split
  · rfl
  · split
    · rw [raise_time]
    · rfl

/-- The immediate reply of a packet of this module's own rings. -/
theorem answer_time {r : CmdRec} (hst : status ≠ stAccepted) (hheard : r.silent = false) (hdirect : r.via = none) :
    (answer r status body s).time = s.time := by
  simp only [answer, hst, if_false, sendReply, hheard, hdirect, Bool.false_eq_true, postReply_time]
  split <;> exact decideTicket_time _ _ _

end

section
variable {sp : CmdSpec} {c : HostCmd} {s q : State} {t : Nat} {body : Bytes}

/-- A packet that answers ST_OK leaves the time unit as its effect did. -/
theorem execCmd_time (h : Ready sp c s) (hu : ∀ q, sp.unitOk q c = sp.unitOk s c) (hd : ∀ k ∈ sp.dies (taken t s) c, k < 2)
    (hrun : sp.run (recOf sp c s) c (taken t s) = ok body q) (hafter : sp.after = id) {r : State} (hr : execCmd sp t c s = .next r) :
    r.time = q.time := by
  rw [execCmd_runs h] at hr
  cases hr
  have hj := judge_ready h (hu _) hd (recOf sp c s) (by rw [hrun]; exact fun hx => absurd hx (by decide : stOk ≠ stAccepted))
  show (runHere sp (recOf sp c s) c (taken t s)).time = q.time
  simp only [runHere, hj, hrun, ok, hafter, Bool.false_eq_true, if_false, id, ite_self]
  rw [answer_time stOk _ _ (by decide) rfl rfl]
  split <;> rfl

/-- A packet that answers ST_OK, stages nothing, and leaves the Bench alone. -/
theorem execCmd_acts (h : Ready sp c s) (hu : ∀ q, sp.unitOk q c = sp.unitOk s c) (hd : ∀ k ∈ sp.dies (taken t s) c, k < 2)
    (hrun : sp.run (recOf sp c s) c (taken t s) = ok body q) (hk : KeepsReply (taken t s) q) (hafter : sp.after = id)
    (hstaged : isStaged sp.opcode = false) (hb : q.bench = (taken t s).bench) (hp : q.pending = (taken t s).pending) (hlen : body.length ≤ 1008) :
    ∃ r, execCmd sp t c s = .next r ∧ Completes sp.opcode body c s r ∧ ReplyFrame q r ∧ r.time = q.time ∧ q.emit ⊆ r.emit ∧
      ∀ x, bitOf q.host.evt.pending x = true → bitOf r.host.evt.pending x = true := by
  have hf := taken_frame t h.inv h.slot
  obtain ⟨r, hr, hdone, hemit, hpend, hframe⟩ := execCmd_ok h (hu _) hd hrun hk hafter (hb.trans hf.bench) (hp.trans hf.pending) hlen
  rw [hstaged] at hframe
  exact ⟨r, hr, hdone, hframe, execCmd_time h hu hd hrun hafter hr, hemit, hpend⟩

end

end Sys2Proof.Machine

/-! ## The clock and ring time (R654 to R674) -/

namespace Sys2Proof.Machine

/-! ### A state with another time unit -/

section
variable {a b : State} {x y : TimeUnit}

theorem ReplyFrame.withTime (h : ReplyFrame a b) (hy : { x with clock := y.clock } = y) : ReplyFrame { a with time := x } { b with time := y } := by
  unfold ReplyFrame at *
  rw [h]
  simp only [hy]

/-- `b` is `a` but for the time unit, the outputs and the event block. -/
def Timed (a b : State) : Prop := OutFrame { a with time := b.time } b

theorem OutFrame.timed (h : OutFrame a b) : Timed a b := by
  unfold Timed OutFrame at *
  rw [h]

theorem Timed.trans {c : State} (h : Timed a b) (h' : Timed b c) : Timed a c := by
  unfold Timed OutFrame at *
  rw [h] at h'
  exact h'

theorem Timed.withFree (h : Timed a b) (n : Nat) : Timed { a with free := n } { b with free := n } := by
  unfold Timed OutFrame at *
  rw [h]

/-- Another time unit, in a state that differs in nothing else. -/
theorem Timed.of (h : Timed a b) : Timed a { b with time := x } := h.trans rfl

theorem Timed.frame (h : Timed a b) (hy : { x with clock := b.time.clock } = b.time) : OutFrame { a with time := x } b := by
  unfold Timed OutFrame at *
  simp only at h ⊢
  rw [hy]
  exact h

end

/-! ### TIME_SET and TIME_ADJUST (R656, R663, R664) -/

section
variable {c : HostCmd} {s : State}

/-- The time unit with the clock stepped to `ns`. -/
def steppedTo (ns : Nat) (u : TimeUnit) : TimeUnit :=
  { u with clock := { u.clock with seconds := ns / 1000000000 % 2 ^ 48, ns := ns % 1000000000, frac := 0 }, steps := wrap32 (u.steps + 1) }

theorem stepClock_raises (ns : Nat) (s : State) :
    stepClock ns s = raise 0x3D0 (sat32 ((ns : Int) - clockNs s.time.clock)) 0 { s with time := steppedTo ns s.time } := rfl

theorem timeCfg_taken {sp : CmdSpec} (t : Nat) (h : Ready sp c s) : timeCfg (taken t s) = (cfgNow s).time := by
  rw [timeCfg, taken_cfgNow t h]

theorem specTimeSet_run (r : CmdRec) (hns : u32 c.params 8 < 1000000000) (hsource : (timeCfg s).source = 0) (hoff : s.gauge.trigEnabled = false) :
    specTimeSet.run r c s = ok (clockBody s.time.clock) (stepClock (u64 c.params 0 % 2 ^ 48 * 1000000000 + u32 c.params 8) s) := by
  have hgood : firstBad [(8, decide (u32 c.params 8 < 1000000000))] = none := firstBad_cons (decide_eq_true hns) rfl
  simp only [specTimeSet, checked_good hgood, hsource, hoff, ne_eq, not_true_eq_false, Bool.false_eq_true, or_self, if_false]

theorem specTimeSet_bad (r : CmdRec) (hns : 1000000000 ≤ u32 c.params 8) : specTimeSet.run r c s = fail stBadParam (paramBody 8) s := by
  simp only [specTimeSet, firstBad, decide_eq_false (Nat.not_lt.2 hns), Bool.false_eq_true, if_false]
  rfl

theorem specTimeSet_shut (r : CmdRec) (hns : u32 c.params 8 < 1000000000) (h : (timeCfg s).source ≠ 0 ∨ s.gauge.trigEnabled = true) :
    specTimeSet.run r c s = fail stWrongState (zeros 8) s := by
  have hgood : firstBad [(8, decide (u32 c.params 8 < 1000000000))] = none := firstBad_cons (decide_eq_true hns) rfl
  simp only [specTimeSet, checked_good hgood, if_pos h]
  rfl

theorem timeSet_steps (t : Nat) (c : HostCmd) (s : State) (h : Ready specTimeSet c s) (hns : u32 c.params 8 < 1000000000)
    (hsource : (cfgNow s).time.source = 0) (hoff : s.gauge.trigEnabled = false) :
    Next (.timeSet t c) s fun r =>
      Completes 0x0E01 (clockBody (tick t s).time.clock) c s r ∧
      ReplyFrame { s with time := { s.time with steps := wrap32 (s.time.steps + 1) } } r ∧
      r.time.clock = { (tick t s).time.clock with seconds := u64 c.params 0 % 2 ^ 48, ns := u32 c.params 8, frac := 0 } ∧
      bitOf r.host.evt.pending 0x3D0 = true := by
  have hf := taken_frame t h.inv h.slot
  have hrun := specTimeSet_run (s := taken t s) (recOf specTimeSet c s) hns (by rw [timeCfg_taken t h, hsource]) (by rw [hf.gauge, hoff])
  rw [stepClock_raises] at hrun
  let q := { taken t s with time := steppedTo (u64 c.params 0 % 2 ^ 48 * 1000000000 + u32 c.params 8) (taken t s).time }
  have hraise := raise_frame 0x3D0 (sat32 ((u64 c.params 0 % 2 ^ 48 * 1000000000 + u32 c.params 8 : Nat) - clockNs (taken t s).time.clock)) 0 q
  have hkeeps : KeepsReply (taken t s) q := ⟨rfl, rfl, rfl, rfl, rfl⟩
  obtain ⟨r, hr, hdone, hframe, htime, -, hpend⟩ := execCmd_acts h (fun _ => rfl) (fun _ => nofun) hrun
    (hkeeps.trans hraise.keepsReply) rfl rfl hraise.bench hraise.pending (by simp [clockBody])
  rw [raise_time, taken_time] at htime
  refine ⟨r, hr, ?_, ?_, ?_, hpend _ (raise_sets _ _ _ (hf.hf_fabric.trans h.fabric))⟩
  · rwa [taken_time] at hdone
  · exact hframe.after (hraise.reply.after (hf.reply.withTime (by rw [taken_time]; rfl)))
  · rw [htime]
    have hsec : (u64 c.params 0 % 2 ^ 48 * 1000000000 + u32 c.params 8) / 1000000000 % 2 ^ 48 = u64 c.params 0 % 2 ^ 48 := by
      rw [Nat.mul_comm, Nat.mul_add_div (by decide), Nat.div_eq_of_lt hns, Nat.add_zero, Nat.mod_mod]
    have hrest : (u64 c.params 0 % 2 ^ 48 * 1000000000 + u32 c.params 8) % 1000000000 = u32 c.params 8 := by
      rw [Nat.mul_add_mod_self_right, Nat.mod_eq_of_lt hns]
    simp only [steppedTo, hsec, hrest]

/-- The checks of TIME_ADJUST. -/
def adjustChecks (p : Bytes) : List (Nat × Bool) :=
  [(8, !bitOf (u8 p 0) 0 || addendOk (u64 p 8 % 2 ^ 34)), (16, !bitOf (u8 p 0) 1 || decide ((s64 p 16).natAbs ≤ 1000000000))]

/-- What TIME_ADJUST does with good parameters. -/
def adjusted (p : Bytes) (s : State) : Verdict :=
  if (timeCfg s).source ≠ 0 then wrongState s
  else
    let s := if bitOf (u8 p 0) 0 then setClockOf (fun k => { k with addend := u64 p 8 % 2 ^ 34 }) s else s
    let s := if bitOf (u8 p 0) 1 then addSlew (s64 p 16) s else s
    ok (leI 8 (slewLeft s.time.clock)) s

theorem specTimeAdjust_run (r : CmdRec) (c : HostCmd) (s : State) :
    specTimeAdjust.run r c s = checked (firstBad (adjustChecks c.params)) s fun _ => adjusted c.params s := rfl

theorem specTimeAdjust_refuses (r : CmdRec) {off : Nat} (h : firstBad (adjustChecks c.params) = some off) :
    specTimeAdjust.run r c s = fail stBadParam (paramBody off) s := by
  rw [specTimeAdjust_run, h]
  rfl

theorem specTimeAdjust_shut (r : CmdRec) (h : firstBad (adjustChecks c.params) = none) (hsource : (timeCfg s).source ≠ 0) :
    specTimeAdjust.run r c s = fail stWrongState (zeros 8) s := by
  rw [specTimeAdjust_run, checked_good h, adjusted, if_pos hsource]
  rfl

theorem setAddend_slewLeft (v : Nat) (s : State) : slewLeft (setClockOf (fun k => { k with addend := v }) s).time.clock = slewLeft s.time.clock := by
  simp only [slewLeft, setClockOf]

theorem specTimeAdjust_addend (r : CmdRec) (hsource : (timeCfg s).source = 0) (hsets : bitOf (u8 c.params 0) 0 = true) (hslews : bitOf (u8 c.params 0) 1 = false)
    (hok : addendOk (u64 c.params 8 % 2 ^ 34) = true) :
    specTimeAdjust.run r c s = ok (leI 8 (slewLeft s.time.clock)) (setClockOf (fun k => { k with addend := u64 c.params 8 % 2 ^ 34 }) s) := by
  have hgood : firstBad (adjustChecks c.params) = none := by simp only [adjustChecks, firstBad, hsets, hslews, hok, Bool.not_true, Bool.not_false, Bool.or_true, Bool.true_or, if_true]
  rw [specTimeAdjust_run, checked_good hgood, adjusted, if_neg (not_not.2 hsource)]
  simp only [hsets, hslews, if_true, Bool.false_eq_true, if_false, setAddend_slewLeft]

theorem specTimeAdjust_slew (r : CmdRec) (hsource : (timeCfg s).source = 0) (hsets : bitOf (u8 c.params 0) 0 = false) (hslews : bitOf (u8 c.params 0) 1 = true)
    (hok : (s64 c.params 16).natAbs ≤ 1000000000) :
    specTimeAdjust.run r c s = ok (leI 8 (slewLeft (addSlew (s64 c.params 16) s).time.clock)) (addSlew (s64 c.params 16) s) := by
  have hgood : firstBad (adjustChecks c.params) = none := by simp only [adjustChecks, firstBad, hsets, hslews, hok, decide_true, Bool.not_true, Bool.not_false, Bool.or_true, Bool.true_or, if_true]
  rw [specTimeAdjust_run, checked_good hgood, adjusted, if_neg (not_not.2 hsource)]
  simp only [hsets, hslews, if_true, Bool.false_eq_true, if_false]

/-- A change of the clock alone, answered ST_OK with 8 bytes. -/
theorem timeAdjust_acts {f : Clock → Clock} {v : Int} (t : Nat) (h : Ready specTimeAdjust c s)
    (hrun : specTimeAdjust.run (recOf specTimeAdjust c s) c (taken t s) = ok (leI 8 v) (setClockOf f (taken t s))) :
    ∃ r, exec (.timeAdjust t c) s = .next r ∧ Completes 0x0E02 (leI 8 v) c s r ∧ ReplyFrame s r ∧ r.time.clock = f (tick t s).time.clock := by
  have hf := taken_frame t h.inv h.slot
  obtain ⟨r, hr, hdone, hframe, htime, -, -⟩ := execCmd_acts h (fun _ => rfl) (fun _ => nofun) hrun ⟨rfl, rfl, rfl, rfl, rfl⟩ rfl rfl rfl rfl (by simp)
  refine ⟨r, hr, hdone, hframe.after (hf.reply.withTime (x := s.time) ?_), ?_⟩
  · rw [taken_time]
    rfl
  · rw [htime]
    exact congrArg (fun u : TimeUnit => f u.clock) (taken_time t)

theorem timeAdjust_addend (t : Nat) (c : HostCmd) (s : State) (h : Ready specTimeAdjust c s) (hsource : (cfgNow s).time.source = 0)
    (hsets : bitOf (u8 c.params 0) 0 = true) (hslews : bitOf (u8 c.params 0) 1 = false) (hlo : 8585639625 ≤ u64 c.params 8 % 2 ^ 34)
    (hhi : u64 c.params 8 % 2 ^ 34 ≤ 8594229559) :
    Next (.timeAdjust t c) s fun r =>
      Completes 0x0E02 (leI 8 (slewLeft (tick t s).time.clock)) c s r ∧ ReplyFrame s r ∧
      r.time.clock = { (tick t s).time.clock with addend := u64 c.params 8 % 2 ^ 34 } := by
  have hok : addendOk (u64 c.params 8 % 2 ^ 34) = true := by
    simp only [addendOk, inRange, Bool.and_eq_true, decide_eq_true_eq]
    exact ⟨hlo, hhi⟩
  have hrun := specTimeAdjust_addend (s := taken t s) (recOf specTimeAdjust c s) (by rw [timeCfg_taken t h, hsource]) hsets hslews hok
  rw [taken_time] at hrun
  exact timeAdjust_acts t h hrun

theorem timeAdjust_slew (t : Nat) (c : HostCmd) (s : State) (h : Ready specTimeAdjust c s) (hsource : (cfgNow s).time.source = 0)
    (hsets : bitOf (u8 c.params 0) 0 = false) (hslews : bitOf (u8 c.params 0) 1 = true) (hok : (s64 c.params 16).natAbs ≤ 1000000000) :
    Next (.timeAdjust t c) s fun r =>
      Completes 0x0E02 (leI 8 (slewLeft r.time.clock)) c s r ∧ ReplyFrame s r ∧
      r.time.clock = { (tick t s).time.clock with
        slew := (tick t s).time.clock.slew + s64 c.params 16 * 4294967296, slewPpm := (cfgNow s).time.maxSlew } := by
  have hrun := specTimeAdjust_slew (s := taken t s) (recOf specTimeAdjust c s) (by rw [timeCfg_taken t h, hsource]) hsets hslews hok
  obtain ⟨r, hr, hdone, hframe, hclock⟩ := timeAdjust_acts t h (f := fun k => { k with slew := k.slew + s64 c.params 16 * 2 ^ 32, slewPpm := (timeCfg (taken t s)).maxSlew }) hrun
  have hnew : r.time.clock = (addSlew (s64 c.params 16) (taken t s)).time.clock :=
    hclock.trans (congrArg (fun u : TimeUnit => { u.clock with slew := u.clock.slew + s64 c.params 16 * 2 ^ 32, slewPpm := (timeCfg (taken t s)).maxSlew })
      (taken_time t).symm)
  rw [← hnew] at hdone
  refine ⟨r, hr, hdone, hframe, hclock.trans ?_⟩
  rw [timeCfg_taken t h]
  rfl

theorem timeSet_refuses {cond : HostCmd → State → Prop} {status : Nat} {body : Bytes} (hst : 0x8000 ≤ status) (hlen : body.length ≤ 1008)
    (hrun : ∀ r t c s, Ready specTimeSet c s → cond c s → specTimeSet.run r c (taken t s) = fail status body (taken t s)) :
    Refuses .timeSet specTimeSet cond status fun _ _ => body :=
  refuses_run (fun _ _ _ => rfl) hst (fun _ _ _ => rfl) (fun _ _ => nofun) (fun _ _ => hlen) hrun

theorem timeAdjust_refuses {cond : HostCmd → State → Prop} {status : Nat} {body : Bytes} (hst : 0x8000 ≤ status) (hlen : body.length ≤ 1008)
    (hrun : ∀ r t c s, Ready specTimeAdjust c s → cond c s → specTimeAdjust.run r c (taken t s) = fail status body (taken t s)) :
    Refuses .timeAdjust specTimeAdjust cond status fun _ _ => body :=
  refuses_run (fun _ _ _ => rfl) hst (fun _ _ _ => rfl) (fun _ _ => nofun) (fun _ _ => hlen) hrun

theorem adjustChecks_addend (hsets : bitOf (u8 c.params 0) 0 = true)
    (h : u64 c.params 8 % 2 ^ 34 < 8585639625 ∨ 8594229559 < u64 c.params 8 % 2 ^ 34) : firstBad (adjustChecks c.params) = some 8 := by
  have hbad : addendOk (u64 c.params 8 % 2 ^ 34) = false := by
    simp only [addendOk, inRange, Bool.and_eq_false_iff, decide_eq_false_iff_not]
    omega
  simp only [adjustChecks, firstBad, hsets, hbad, Bool.not_true, Bool.or_self, Bool.false_eq_true, if_false]

theorem adjustChecks_slew (hsets : bitOf (u8 c.params 0) 0 = false) (hslews : bitOf (u8 c.params 0) 1 = true)
    (h : 1000000000 < (s64 c.params 16).natAbs) : firstBad (adjustChecks c.params) = some 16 := by
  simp [adjustChecks, firstBad, hsets, hslews, h]

theorem adjustChecks_none (hsets : bitOf (u8 c.params 0) 0 = false) (hslews : bitOf (u8 c.params 0) 1 = false) :
    firstBad (adjustChecks c.params) = none := by
  simp [adjustChecks, firstBad, hsets, hslews]

end

/-! ### The servo (R668) -/

section
variable {offset : Int} {delay : Nat} {s : State}

/-- The time unit with an offset measured. -/
def measured (offset : Int) (delay : Nat) (s : State) : State := { s with time := { s.time with offset, pathDelay := delay, holdover := false } }

/-- The state with no slew left. -/
def unslewed (s : State) : State := setClockOf (fun k => { k with slew := 0 }) s

theorem countLock_within (hin : offset.natAbs ≤ (timeCfg s).lockNs) (hn : s.time.lockCount < 15) :
    countLock offset s = { s with time := { s.time with lockCount := s.time.lockCount + 1 } } := by
  have hmin : min 16 (s.time.lockCount + 1) = s.time.lockCount + 1 := Nat.min_eq_right (Nat.le_succ_of_le hn)
  have hne : ¬ s.time.lockCount + 1 = 16 := Nat.ne_of_lt (Nat.succ_lt_succ hn)
  simp only [countLock, hin, if_true, hmin, hne, if_false]

theorem countLock_beyond (hout : (timeCfg s).lockNs < offset.natAbs) (hl : s.time.locked = false) :
    countLock offset s = { s with time := { s.time with lockCount := 0 } } := by
  simp only [countLock, Nat.not_le.2 hout, if_false, setLocked, hl, if_true]

/-- ADDEND as the servo sets it is within MAX_SLEW_PPM of nominal. -/
theorem servoAddend_near (h : (timeCfg s).maxSlew ≤ 500) :
    8589934592 - 8589934592 * (timeCfg s).maxSlew / 1000000 ≤ (servoAddend s).1 ∧
      (servoAddend s).1 ≤ 8589934592 + 8589934592 * (timeCfg s).maxSlew / 1000000 := by
  simp only [servoAddend, nominalAddend]
  generalize hw : 8589934592 * (timeCfg s).maxSlew / 1000000 = w
  have hmod := Nat.mod_lt (freshValue s).1 (show 0 < 2 * w + 1 by omega)
  have hsmall : w ≤ 8589934592 := hw ▸ Nat.div_le_of_le_mul (Nat.mul_comm .. ▸ Nat.mul_le_mul_right _ (h.trans (by decide)))
  omega

/-- A small offset steers ADDEND. -/
theorem discipline_steers (hin : offset.natAbs < (timeCfg s).stepNs) :
    discipline offset delay s = countLock offset
      { s with
        free := s.free + 1
        time := { s.time with
          clock := { s.time.clock with addend := (servoAddend s).1, slew := 0 }, offset, pathDelay := delay, holdover := false, stepBlocked := false } } := by
  have hnot : ¬ (timeCfg s).stepNs < offset.natAbs := Nat.lt_asymm hin
  simp only [discipline, hin, hnot, if_true, if_false]
  rfl

/-- A large offset steps the clock. -/
theorem discipline_stepsClock (hout : (timeCfg s).stepNs < offset.natAbs) (hoff : s.gauge.trigEnabled = false) :
    discipline offset delay s = countLock offset (stepClock ((clockNs s.time.clock : Int) - offset).toNat (unslewed (measured offset delay s))) := by
  have hnot : ¬ offset.natAbs < (timeCfg s).stepNs := Nat.lt_asymm hout
  show countLock offset _ = _
  rw [if_neg hnot, if_pos hout]
  simp only [hoff, Bool.false_eq_true, if_false]
  rfl

/-- A large offset while triggering slews the clock, and is reported once. -/
theorem discipline_slews (hout : (timeCfg s).stepNs < offset.natAbs) (hon : s.gauge.trigEnabled = true) :
    discipline offset delay s = countLock offset
      (if s.time.stepBlocked then addSlew (-offset) (unslewed (measured offset delay s))
       else
        let q := addSlew (-offset) (unslewed (measured offset delay s))
        raise 0x3D4 0 0 { q with time := { q.time with stepBlocked := true } }) := by
  have hnot : ¬ offset.natAbs < (timeCfg s).stepNs := Nat.lt_asymm hout
  show countLock offset _ = _
  rw [if_neg hnot, if_pos hout]
  simp only [hon, if_true]
  rfl

end

/-! ### Time messages of the ring (R671, R672, R690) -/

section
variable {port hops : Nat} {payload : Bytes} {s : State}

/-- A time message noted. -/
def messageNoted (hops : Nat) (s : State) : State := { s with time := { s.time with ringMsgAt := some s.now, ringHops := some hops, hops } }

theorem takeRingTime_strange (h : (timeCfg s).source ≠ 2 ∨ (timeCfg s).ringMaster ≠ u8 payload 24) : takeRingTime port hops payload s = s := if_pos h

theorem takeRingTime_own (hf : followsRing payload s) (he : s.ring.enumerated = true) (hid : s.ring.moduleId = u8 payload 24) :
    takeRingTime port hops payload s = raise 0x3D5 2 0 s := by
  obtain ⟨hsource, hmaster⟩ := hf
  simp only [takeRingTime, timeCfg, hsource, hmaster, he, hid, ne_eq, not_true_eq_false, or_self, if_false, decide_true, Bool.and_self, if_true]

theorem takeRingTime_first (hf : followsRing payload s) (he : s.ring.enumerated = false) (hnone : s.time.ringMsgAt = none) :
    takeRingTime port hops payload s = discipline (ringOffset port payload s) (ringPath port payload s).toNat (messageNoted hops s) := by
  obtain ⟨hsource, hmaster⟩ := hf
  simp only [takeRingTime, timeCfg, hsource, hmaster, he, longerCopy, hnone, ne_eq, not_true_eq_false, or_self, if_false, Bool.false_and,
    Bool.false_eq_true]
  rfl

/-- A message on a port of the ring, taken at a time. -/
theorem ringTimeMessage_next {t : Nat} {P : State → Prop} (hi : s.Inv) (hup : up s) (hport : port < 2)
    (hset : Settled (tick t s) (takeRingTime port hops payload (tick t s))) (h : P (takeRingTime port hops payload (tick t s))) :
    Next (.ringTimeMessage t port hops payload) s P := by
  have hf : (if 2 ≤ port then tick t s else takeRingTime port hops payload (tick t s)) = takeRingTime port hops payload (tick t s) :=
    if_neg (Nat.not_le.2 hport)
  refine next_up (parts := []) (f := fun s => if 2 ≤ port then s else takeRingTime port hops payload s) rfl hi hup (List.forall_mem_nil _) ?_ ?_
  · rwa [hf]
  · rwa [hf]

theorem setTime_settled (x : TimeUnit) (n : Nat) (s : State) : Settled s { s with free := n, time := x } := ⟨rfl, rfl, rfl, rfl, rfl⟩

theorem ringTimeMessage_steers (t : Nat) (s : State) (port hops : Nat) (payload : Bytes) (hi : s.Inv) (hup : up s) (hport : port < 2)
    (hf : followsRing payload s) (he : s.ring.enumerated = false) (hnone : s.time.ringMsgAt = none)
    (hlock : (ringOffset port payload (tick t s)).natAbs ≤ (cfgNow s).time.lockNs) (hstep : (cfgNow s).time.lockNs < (cfgNow s).time.stepNs)
    (hcount : s.time.lockCount < 15) (hslew : (cfgNow s).time.maxSlew ≤ 500) :
    Next (.ringTimeMessage t port hops payload) s fun r =>
      OutFrame { s with
        free := s.free + 1
        time := { s.time with
          offset := ringOffset port payload (tick t s), pathDelay := (ringPath port payload s).toNat, holdover := false, stepBlocked := false
          ringMsgAt := some (max s.now t), ringHops := some hops, hops := hops, lockCount := s.time.lockCount + 1 } } r ∧
      Steered (tick t s).time.clock (cfgNow s).time.maxSlew r.time.clock := by
  have hin : (ringOffset port payload (tick t s)).natAbs < (timeCfg (messageNoted hops (tick t s))).stepNs := lt_of_le_of_lt hlock hstep
  have htake := takeRingTime_first (port := port) (hops := hops) (s := tick t s) hf he hnone
  have htake := (htake.trans (discipline_steers hin)).trans (countLock_within hlock hcount)
  refine ringTimeMessage_next hi hup hport ?_ ?_
  · rw [htake]
    exact setTime_settled _ _ _
  · rw [htake]
    have hnear := servoAddend_near (s := messageNoted hops (tick t s)) hslew
    exact ⟨((tick_frame t hi).timed.withFree _).of.frame rfl, hnear.1, hnear.2, rfl⟩

/-- The time unit with a message of the ring noted and its offset measured. -/
def taking (port hops : Nat) (payload : Bytes) (s : State) : TimeUnit :=
  { s.time with
    offset := ringOffset port payload s, pathDelay := (ringPath port payload s).toNat, holdover := false
    ringMsgAt := some s.now, ringHops := some hops, hops := hops }

/-- The same with the clock stepped to `ns`. -/
def jumped (ns port hops : Nat) (payload : Bytes) (s : State) : TimeUnit :=
  steppedTo ns { taking port hops payload s with clock := { s.time.clock with slew := 0 } }

/-- The time unit with a slew to the master's time. -/
def slewing (blocked : Bool) (port hops : Nat) (payload : Bytes) (s : State) : TimeUnit :=
  { taking port hops payload s with
    clock := { s.time.clock with slew := -ringOffset port payload s * 4294967296, slewPpm := (cfgNow s).time.maxSlew }, stepBlocked := blocked }

/-- `r` is `s` with the time unit `x`, and what a raised source writes. -/
def Reaches (x : TimeUnit) (s r : State) : Prop := r.time = x ∧ Timed s r ∧ Settled s r

theorem reaches_time (x : TimeUnit) (s : State) : Reaches x s { s with time := x } := ⟨rfl, rfl, rfl, rfl, rfl, rfl, rfl⟩

theorem reaches_raise (src : Nat) (a b : Int) (x : TimeUnit) (s : State) : Reaches x s (raise src a b { s with time := x }) :=
  ⟨raise_time _ _ _ _, Timed.trans (reaches_time x s).2.1 (raise_frame src a b { s with time := x }).timed,
    (reaches_time x s).2.2.trans (raise_settled _ _ _ _)⟩

theorem Timed.timeCfg (h : Timed a b) : timeCfg b = Machine.timeCfg a := 
  congrArg Cfg.time (show OutFrame { a with time := b.time } b from h).cfgNow

/-- An offset beyond LOCK_NS starts the count of R668 again. -/
theorem Reaches.counts {x : TimeUnit} {s r : State} {offset : Int} (h : Reaches x s r) (hout : (timeCfg s).lockNs < offset.natAbs)
    (hl : x.locked = false) : Reaches { x with lockCount := 0 } s (countLock offset r) ∧ (countLock offset r).host = r.host := by
  obtain ⟨htime, hframe, hset⟩ := h
  rw [countLock_beyond (by rwa [hframe.timeCfg]) (by rwa [htime]), htime]
  exact ⟨⟨rfl, hframe.trans rfl, hset.trans ⟨rfl, rfl, rfl, rfl, rfl⟩⟩, rfl⟩

theorem stepClock_taking (ns : Nat) :
    stepClock ns (unslewed (measured (ringOffset port payload s) (ringPath port payload s).toNat (messageNoted hops s))) =
      raise 0x3D0 (sat32 ((ns : Int) - clockNs { s.time.clock with slew := 0 })) 0
        { s with time := jumped ns port hops payload s } := by
  simp only [stepClock, steppedTo, unslewed, measured, messageNoted, setClockOf, jumped, taking]

theorem takeRingTime_jumps (hf : followsRing payload s) (he : s.ring.enumerated = false) (hnone : s.time.ringMsgAt = none)
    (hoff : s.gauge.trigEnabled = false) (hlock : (cfgNow s).time.lockNs ≤ (cfgNow s).time.stepNs)
    (hstep : (cfgNow s).time.stepNs < (ringOffset port payload s).natAbs) (hfree : s.time.locked = false) {ns : Nat}
    (hns : ((clockNs s.time.clock : Int) - ringOffset port payload s).toNat = ns) :
    Reaches { jumped ns port hops payload s with lockCount := 0 } s (takeRingTime port hops payload s) ∧
      (up s → bitOf (takeRingTime port hops payload s).host.evt.pending 0x3D0 = true) := by
  have htake := (takeRingTime_first (port := port) (hops := hops) hf he hnone).trans (discipline_stepsClock hstep hoff)
  rw [show ((clockNs (messageNoted hops s).time.clock : Int) - ringOffset port payload s).toNat = ns from hns, stepClock_taking] at htake
  obtain ⟨hreach, hhost⟩ := (reaches_raise 0x3D0 (sat32 ((ns : Int) - clockNs { s.time.clock with slew := 0 })) 0
    (jumped ns port hops payload s) s).counts
    (offset := ringOffset port payload s) (lt_of_le_of_lt hlock hstep) hfree
  rw [htake]
  refine ⟨hreach, fun hup => ?_⟩
  rw [hhost]
  exact raise_sets _ _ _ hup

theorem addSlew_taking :
    addSlew (-ringOffset port payload s) (unslewed (measured (ringOffset port payload s) (ringPath port payload s).toNat (messageNoted hops s))) =
      { s with time := slewing s.time.stepBlocked port hops payload s } := by
  simp only [addSlew, unslewed, measured, messageNoted, setClockOf, slewing, taking, zero_add, Int.reducePow]
  rfl

theorem slewing_reported :
    ({ s with time := { slewing s.time.stepBlocked port hops payload s with stepBlocked := true } } : State) =
      { s with time := slewing true port hops payload s } := by
  simp only [slewing]

theorem slewing_locked (b : Bool) : (slewing b port hops payload s).locked = s.time.locked := by simp only [slewing, taking]

theorem takeRingTime_slews (hf : followsRing payload s) (he : s.ring.enumerated = false) (hnone : s.time.ringMsgAt = none)
    (hon : s.gauge.trigEnabled = true) (hlock : (cfgNow s).time.lockNs ≤ (cfgNow s).time.stepNs)
    (hstep : (cfgNow s).time.stepNs < (ringOffset port payload s).natAbs) (hfree : s.time.locked = false) :
    Reaches { slewing true port hops payload s with lockCount := 0 } s (takeRingTime port hops payload s) ∧
      (up s → s.time.stepBlocked = false → bitOf (takeRingTime port hops payload s).host.evt.pending 0x3D4 = true) := by
  have htake := (takeRingTime_first (port := port) (hops := hops) hf he hnone).trans (discipline_slews hstep hon)
  rw [addSlew_taking] at htake
  have hlost : (timeCfg s).lockNs < (ringOffset port payload s).natAbs := lt_of_le_of_lt hlock hstep
  simp only [slewing_reported] at htake
  rw [htake]
  by_cases hb : s.time.stepBlocked = true
  · obtain ⟨hreach, -⟩ := (reaches_time (slewing true port hops payload s) s).counts hlost ((slewing_locked true).trans hfree)
    rw [if_pos (show (messageNoted hops s).time.stepBlocked = true from hb), hb]
    exact ⟨hreach, fun _ => nofun⟩
  · obtain ⟨hreach, hhost⟩ := (reaches_raise 0x3D4 0 0 (slewing true port hops payload s) s).counts hlost ((slewing_locked true).trans hfree)
    rw [if_neg (show ¬ (messageNoted hops s).time.stepBlocked = true from hb)]
    refine ⟨hreach, fun hup _ => ?_⟩
    rw [hhost]
    exact raise_sets _ _ _ hup

end

/-! ### The loss of a source, and the sending of ring time (R673, R674, R690) -/

section
variable {s : State}

/-- The time unit while the clock holds. -/
def holding (u : TimeUnit) : TimeUnit := { u with clock := { u.clock with slew := 0 }, holdover := true, locked := false, lockCount := 0 }

theorem holdClock_raises (s : State) :
    holdClock s = raise 0x3D5 1 0 (if s.time.locked then raise 0x3D3 0 0 { s with time := holding s.time } else { s with time := holding s.time }) := rfl

theorem Reaches.raised {x : TimeUnit} {s r : State} (h : Reaches x s r) (src : Nat) (a b : Int) : Reaches x s (raise src a b r) := by
  obtain ⟨htime, hframe, hset⟩ := h
  exact ⟨(raise_time _ _ _ _).trans htime, hframe.trans (raise_frame _ _ _ _).timed, hset.trans (raise_settled _ _ _ _)⟩

theorem Timed.upholds {a b : State} (h : Timed a b) (hup : up a) : up b :=
  (show OutFrame { a with time := b.time } b from h).hf_fabric.trans hup

theorem holdClock_reaches (hup : up s) :
    Reaches (holding s.time) s (holdClock s) ∧ bitOf (holdClock s).host.evt.pending 0x3D5 = true ∧
      (s.time.locked = true → bitOf (holdClock s).host.evt.pending 0x3D3 = true) := by
  rw [holdClock_raises]
  by_cases hl : s.time.locked = true
  · have hreach := reaches_raise 0x3D3 0 0 (holding s.time) s
    rw [if_pos hl]
    refine ⟨hreach.raised _ _ _, raise_sets _ _ _ (hreach.2.1.upholds hup), fun _ => raise_keeps _ _ _ (raise_sets _ _ _ ?_)⟩
    exact hup
  · rw [if_neg hl]
    exact ⟨(reaches_time _ _).raised _ _ _, raise_sets _ _ _ hup, fun h => absurd h hl⟩

theorem timeSourceLost_holds (t : Nat) (s : State) (hi : s.Inv) (hup : up s) (hheld : s.time.holdover = false)
    (hsilent : sourceSilent (tick t s) = true) :
    Next (.timeSourceLost t) s fun r =>
      OutFrame { s with time := { s.time with holdover := true, locked := false, lockCount := 0 } } r ∧
      r.time.clock = { (tick t s).time.clock with slew := 0 } ∧
      bitOf r.host.evt.pending 0x3D5 = true ∧ (s.time.locked = true → bitOf r.host.evt.pending 0x3D3 = true) := by
  have hgo : (if (tick t s).time.holdover || !sourceSilent (tick t s) then tick t s else holdClock (tick t s)) = holdClock (tick t s) := by
    refine if_neg ?_
    rw [hsilent, show (tick t s).time.holdover = false from hheld]
    decide
  obtain ⟨⟨htime, hframe, hset⟩, hpend, hlock⟩ := holdClock_reaches (s := tick t s) hup
  refine next_up (parts := []) (f := fun s => if s.time.holdover || !sourceSilent s then s else holdClock s) rfl hi hup (List.forall_mem_nil _) ?_ ?_
  · rwa [hgo]
  · rw [hgo]
    refine ⟨((tick_frame t hi).timed.trans hframe).frame ?_, congrArg TimeUnit.clock htime, hpend, hlock⟩
    rw [htime]
    rfl

theorem sendPacket_sends {p : Nat} (pkt : RingPkt) (h : sends p s) (hinj : s.faults.injections = []) :
    sendPacket p pkt s = out (.ringPacket p { pkt with seq := (vget s.ring.ports p).nextSeq }) (sent p pkt s) := by
  obtain ⟨hport, hroom⟩ := h
  have htransmit : transmit p pkt s = out (.ringPacket p { pkt with seq := (vget s.ring.ports p).nextSeq }) (sent p pkt s) := by
    rw [transmit, if_neg (Nat.not_le.2 hroom)]
    rfl
  simp only [sendPacket, portUp, hport, Bool.not_true, Bool.false_eq_true, if_false, htransmit]
  rw [takeInjection_none (s := out _ (sent p pkt s)) 3 p hinj]
  rfl

theorem sendRingTime_sends (hsource : (cfgNow s).time.source ≠ 2) (he : s.ring.enumerated = true) (hinj : s.faults.injections = [])
    (heast : sends 0 s) (hwest : sends 1 s) :
    sendRingTime s =
      out (.ringPacket 1 { masterTime s with seq := (vget s.ring.ports 1).nextSeq })
        (sent 1 (masterTime s) (out (.ringPacket 0 { masterTime s with seq := (vget s.ring.ports 0).nextSeq }) (sent 0 (masterTime s) s))) := by
  have hport : vget (out (.ringPacket 0 { masterTime s with seq := (vget s.ring.ports 0).nextSeq }) (sent 0 (masterTime s) s)).ring.ports 1 =
      vget s.ring.ports 1 := vget_vmod_ne _ _ _ _ (by decide)
  have hgo : ¬ ((timeCfg s).source = 2 ∨ (!s.ring.enumerated) = true) := by simp [timeCfg, hsource, he]
  show (if _ then s else sendPacket 1 (masterTime s) (sendPacket 0 (masterTime s) s)) = _
  rw [if_neg hgo, sendPacket_sends _ heast hinj, sendPacket_sends (s := out _ (sent 0 _ s)) (masterTime s) (by rw [sends, hport]; exact hwest) hinj, hport]

theorem ringTimeSend_sends : Happens (.ringTimeSend ·)
    (fun s => up s ∧ (cfgNow s).time.source ≠ 2 ∧ s.ring.enumerated = true ∧ s.faults.injections = [] ∧ sends 0 s ∧ sends 1 s)
    (fun s => sent 1 (masterTime s) (sent 0 (masterTime s) s)) []
    (fun s => [.ringPacket 0 { masterTime s with seq := (vget s.ring.ports 0).nextSeq }, .ringPacket 1 { masterTime s with seq := (vget s.ring.ports 1).nextSeq }]) := by
  refine happens_up (parts := []) (fun _ _ => rfl) (fun _ h => ⟨h.1, List.forall_mem_nil _⟩) fun q _ he hc => ?_
  obtain ⟨-, hsource, henum, hinj, heast, hwest⟩ := hc
  rw [sendRingTime_sends hsource henum hinj heast hwest]
  refine ⟨rfl, rfl, rfl, List.forall_mem_nil _, fun e h => ?_⟩
  simpa [out, sent, setLinkPort, he] using h

end

section
variable {s : State}

theorem endSlew_last (h : s.time.clock.slew.natAbs ≤ ((slewAddend s.time.clock : Int) - s.time.clock.addend).natAbs) :
    endSlew s = { s with time := { s.time with clock := { setClock s.time.clock (clockUnits s.time.clock + s.time.clock.slew) with slew := 0 } } } := if_pos h

theorem endSlew_goesOn (h : ((slewAddend s.time.clock : Int) - s.time.clock.addend).natAbs < s.time.clock.slew.natAbs) : endSlew s = s :=
  if_neg (Nat.not_le.2 h)

end

/-- Settles O53: the two commands over the clock's own equations, and a time message as a step, a slew or a steering of the servo. -/
theorem clockAndRingTime : Obligations.ClockAndRingTime := by
  refine ⟨timeSet_steps, ?_, ?_, timeAdjust_addend, timeAdjust_slew, ?_, ?_, ?_, ?_, ?_, timeSourceLost_holds, ?_, ?_, ?_, ?_, ?_,
    ringTimeMessage_steers, ?_, ?_, ?_, ringTimeSend_sends⟩
  · exact timeSet_refuses (by decide) (by simp [paramBody]) fun r t c s _ hns => specTimeSet_bad r hns
  · refine timeSet_refuses (by decide) (by simp) fun r t c s h ⟨hns, hshut⟩ => specTimeSet_shut r hns ?_
    rwa [timeCfg_taken t h, (taken_frame t h.inv h.slot).gauge]
  · exact timeAdjust_refuses (by decide) (by simp [paramBody]) fun r t c s _ ⟨hsets, hbad⟩ => specTimeAdjust_refuses r (adjustChecks_addend hsets hbad)
  · exact timeAdjust_refuses (by decide) (by simp [paramBody]) fun r t c s _ ⟨hsets, hslews, hbad⟩ =>
      specTimeAdjust_refuses r (adjustChecks_slew hsets hslews hbad)
  · refine timeAdjust_refuses (by decide) (by simp) fun r t c s h ⟨hsets, hslews, hsource⟩ => specTimeAdjust_shut r (adjustChecks_none hsets hslews) ?_
    rwa [timeCfg_taken t h]
  · exact exactly_of (fun _ _ => rfl) fun q _ h => ⟨endSlew_last h, rfl, rfl, rfl, rfl, rfl⟩
  · exact exactly_of (fun _ _ => rfl) fun q _ h => ⟨endSlew_goesOn h, .refl q⟩
  · refine exactly_still (fun _ _ => rfl) fun q h => if_pos ?_
    rw [Bool.or_eq_true, Bool.not_eq_true']
    exact h
  · exact fun port ns hport => exactly_up (fun _ _ => rfl) fun q hup => ⟨hup, if_neg (Nat.not_le.2 hport), rfl, rfl, rfl, rfl, rfl⟩
  · exact fun port ns hport => exactly_still (fun _ _ => rfl) fun q _ => if_pos hport
  · refine fun port hops payload => exactly_still (fun _ _ => rfl) fun q h => ?_
    by_cases hport : 2 ≤ port
    · exact if_pos hport
    · exact (if_neg hport).trans (takeRingTime_strange (h.imp_right fun h => h.resolve_right hport))
  · refine fun port hops payload hport => happens_up (parts := []) (fun _ _ => rfl) (fun _ h => ⟨h.1, List.forall_mem_nil _⟩) fun q _ _ hc => ?_
    obtain ⟨hup, hf, henum, hid⟩ := hc
    rw [if_neg (Nat.not_le.2 hport), takeRingTime_own hf henum hid]
    exact ⟨raise_frame _ _ _ _, rfl, rfl, List.forall_mem_singleton.2 (raise_sets _ _ _ hup), List.nil_subset _⟩
  · intro t s port hops payload hi hup hport hf he hnone hoff hlock hstep hfree
    obtain ⟨⟨htime, hframe, hset⟩, hpend⟩ := takeRingTime_jumps (s := tick t s) (hops := hops) hf he hnone hoff hlock hstep hfree rfl
    refine ringTimeMessage_next hi hup hport hset ⟨((tick_frame t hi).timed.trans hframe).frame ?_, ?_, hpend hup⟩
    · rw [htime]
      simp only [jumped, steppedTo, taking]
      rfl
    · rw [htime]
      simp only [jumped, steppedTo, Nat.reducePow]
  · intro t s port hops payload hi hup hport hf he hnone hon hlock hstep hfree
    obtain ⟨⟨htime, hframe, hset⟩, hpend⟩ := takeRingTime_slews (s := tick t s) (hops := hops) hf he hnone hon hlock hstep hfree
    refine ringTimeMessage_next hi hup hport hset ⟨((tick_frame t hi).timed.trans hframe).frame ?_, ?_, hpend hup⟩
    · rw [htime]
      simp only [slewing, taking]
      rfl
    · rw [htime]
      simp only [slewing]
      rfl
  · exact exactly_still (fun _ _ => rfl) fun q h => if_pos (by simpa [timeCfg] using h)

end Sys2Proof.Machine

/-! ## The link ports of the ring (R680 to R688, Table 16-1) -/

namespace Sys2Proof.Machine

/-! ### Frames of the ring unit -/

section
variable {a b : State}

theorem OutFrame.withRing (h : OutFrame a b) (g : RingUnit → RingUnit) : OutFrame { a with ring := g a.ring } { b with ring := g b.ring } := by
  unfold OutFrame at *
  rw [h]

theorem OutFrame.setLinkPort (h : OutFrame a b) (p : Nat) (f : LinkPort → LinkPort) : OutFrame (setLinkPort p f a) (setLinkPort p f b) :=
  h.withRing fun r => { r with ports := vmod r.ports p f }

theorem OutFrame.sent (h : OutFrame a b) (hnow : b.now = a.now) (p : Nat) (k : RingPkt) : OutFrame (sent p k a) (sent p k b) := by
  unfold Machine.sent
  rw [hnow]
  exact h.setLinkPort _ _

theorem sent_bench (p : Nat) (k : RingPkt) (s : State) : (Machine.sent p k s).bench = s.bench := rfl

theorem sent_pending (p : Nat) (k : RingPkt) (s : State) : (Machine.sent p k s).pending = s.pending := rfl

theorem OutFrame.outs (h : OutFrame a b) (e : Emit) : OutFrame a (out e b) := OutFrame.after rfl h

/-- A packet sent behind an output. -/
theorem OutFrame.sentPast (h : OutFrame a b) (hnow : b.now = a.now) (e : Emit) (p : Nat) (k : RingPkt) :
    OutFrame (Machine.sent p k a) (Machine.sent p k (out e b)) := (h.outs e).sent hnow p k

end

/-- A unit of the fabric that raises one source. -/
theorem happens_raises {i : Nat → Instr} {f new : State → State} {cond : State → Prop} (src : Nat) (hx : ∀ t s, exec (i t) s = runFabric t [] s f)
    (hkeeps : ∀ q, (new q).bench = q.bench ∧ (new q).pending = q.pending ∧ (new q).hf = q.hf)
    (h : ∀ q, cond q → up q ∧ f q = raise src 0 0 (new q)) : Happens i cond new [src] noPuts := by
  refine happens_up (parts := []) hx (fun q hc => ⟨(h q hc).1, List.forall_mem_nil _⟩) fun q _ _ hc => ?_
  obtain ⟨hbench, hpending, hhf⟩ := hkeeps q
  obtain ⟨hup, hf⟩ := h q hc
  rw [hf]
  refine ⟨raise_frame _ _ _ _, hbench, hpending, List.forall_mem_singleton.2 (raise_sets _ _ _ ?_), List.nil_subset _⟩
  rwa [hhf]

/-! ### A port that changes its state -/

theorem otherPort_ne (p : Nat) : 1 - p ≠ p := by omega

section
variable {p : Nat} {st : PortState} {cause : PortCause} {s : State}

theorem setLinkPort_setLinkPort (f g : LinkPort → LinkPort) : setLinkPort p f (setLinkPort p g s) = setLinkPort p (fun x => f (g x)) s := by
  simp only [setLinkPort, vmod_vmod]

theorem enterPort_raises (p : Nat) (st : PortState) (s : State) : enterPort p st s = raise (0x3E0 + p) 0 0 (entered p st s) := rfl

/-- A port that leaves its state falls, and its event is raised; one that was up folds the ring (R687). -/
theorem portFalls_raises : portFalls p st cause s =
    if isPortUp (vget s.ring.ports p).state && decide (p < 2) then
      foldRing p (vget s.ring.ports p)
        (raise (0x3E0 + p) 0 0 (fallen p st cause (if isPortUp (vget s.ring.ports p).state && decide (st = .down) then 1 else 0) s))
    else raise (0x3E0 + p) 0 0 (fallen p st cause (if isPortUp (vget s.ring.ports p).state && decide (st = .down) then 1 else 0) s) := by
  unfold portFalls
  simp only [enterPort, setLinkPort_setLinkPort]
  rfl

theorem portFalls_quiet (h : isPortUp (vget s.ring.ports p).state = false) : portFalls p st cause s = raise (0x3E0 + p) 0 0 (fallen p st cause 0 s) := by
  rw [portFalls_raises, h]
  rfl

theorem portFalls_folds (hp : p < 2) (h : isPortUp (vget s.ring.ports p).state = true) :
    portFalls p .down cause s = foldRing p (vget s.ring.ports p) (raise (0x3E0 + p) 0 0 (fallen p .down cause 1 s)) := by
  rw [portFalls_raises, h, decide_eq_true hp]
  rfl

theorem portFalls_jm (h : isPortUp (vget s.ring.ports 2).state = true) : portFalls 2 .down cause s = raise 0x3E2 0 0 (fallen 2 .down cause 1 s) := by
  rw [portFalls_raises, h]
  rfl

/-- What JE or JW leaves: the other one alone tells whether the ring closes. -/
theorem portUp_other {q : Nat} (hq : q ≠ p) (f : LinkPort → LinkPort) : portUp (setLinkPort p f s) q = portUp s q := by
  rw [portUp, show (setLinkPort p f s).ring.ports = vmod s.ring.ports p f from rfl, vget_vmod_ne _ _ _ _ hq]
  rfl

theorem tryRingStep_other (h : s.boot.stage ≠ 7) : tryRingStep s = s := by
  simp [tryRingStep, ringStepDone, h]

theorem enterPort_risen (p : Nat) (st : PortState) (s : State) :
    enterPort p st (setLinkPort p (fun x => { x with nativeFails := 0, cause := .none }) s) = raise (0x3E0 + p) 0 0 (risen p st s) := by
  simp only [enterPort, setLinkPort_setLinkPort]
  rfl

end

/-! ### The fold (R687, R688) -/

section
variable {p : Nat} {s : State}

theorem setRoutes_frame (ms : List RingModule) (s : State) : OutFrame { s with ring := { s.ring with modules := ms } } (setRoutes ms s) := by
  unfold setRoutes
  simp only
  split
  · rfl
  · exact raise_frame _ _ _ _

theorem setRoutes_keeps (ms : List RingModule) {e : Nat} (h : bitOf s.host.evt.pending e = true) :
    bitOf (setRoutes ms s).host.evt.pending e = true := by
  unfold setRoutes
  simp only
  split
  · exact h
  · exact raise_keeps _ _ _ h

theorem setRoutes_emits (ms : List RingModule) (s : State) : s.emit ⊆ (setRoutes ms s).emit := by
  unfold setRoutes
  simp only
  split
  · exact fun _ h => h
  · exact raise_emits 0x3E4 0 0 { s with ring := { s.ring with modules := ms } }

theorem setRoutes_now (ms : List RingModule) (s : State) : (setRoutes ms s).now = s.now := by
  unfold setRoutes
  simp only
  split
  · rfl
  · exact raise_now _ _ _ _

/-- Without relays none stalls. -/
theorem stallRelays_none (h : noRelays s) : stallRelays s = s := by
  obtain ⟨hrelays, hsources⟩ := h
  simp only [stallRelays, hrelays, hsources, List.filter_nil, List.map_nil, List.foldl_nil]
  have hring : ({ s.ring with relays := [], sources := [] } : RingUnit) = s.ring :=
    (by rw [hrelays, hsources] : { s.ring with relays := [], sources := [] } = { s.ring with relays := s.ring.relays, sources := s.ring.sources })
  exact congrArg (fun r => { s with ring := r }) hring

/-- The ring as a fold at a port leaves it, before the event is raised. -/
def foldUnsignalled (p : Nat) (s : State) : State :=
  let s := setLinkPort p (fun x => { x with cnt := { x.cnt with folds := wrap32 (x.cnt.folds + 1) } }) s
  setRoutes (dropRoutes p s.ring.modules) { s with ring := { s.ring with folded := true } }

theorem foldUnsignalled_frame (p : Nat) (s : State) : OutFrame (foldedAt p s) (foldUnsignalled p s) := setRoutes_frame _ _

theorem foldedAt_frame {a b : State} (h : OutFrame a b) (p : Nat) : OutFrame (foldedAt p a) (foldedAt p b) :=
  (h.withRing fun r => { r with
    folded := true, modules := r.modules.map fun m => if p = 0 then { m with hopsEast := none } else { m with hopsWest := none } }).setLinkPort p _

/-- The state that a fold raises EV 0x3E3 in. -/
def foldSignalled (p : Nat) (s : State) : State := raise 0x3E3 0 0 (foldUnsignalled p s)

theorem foldSignalled_frame (p : Nat) (s : State) : OutFrame (foldedAt p s) (foldSignalled p s) :=
  (foldUnsignalled_frame p s).trans (raise_frame _ _ _ _)

theorem foldSignalled_now (p : Nat) (s : State) : (foldSignalled p s).now = s.now := (raise_now _ _ _ _).trans (setRoutes_now _ _)

theorem foldSignalled_sets (hup : up s) : bitOf (foldSignalled p s).host.evt.pending 0x3E3 = true :=
  raise_sets _ _ _ ((foldUnsignalled_frame p s).hf_fabric.trans hup)

theorem foldSignalled_keeps {e : Nat} (h : bitOf s.host.evt.pending e = true) : bitOf (foldSignalled p s).host.evt.pending e = true :=
  raise_keeps _ _ _ (setRoutes_keeps _ h)

theorem foldSignalled_port {k : Nat} (hk : k ≠ p) : vget (foldSignalled p s).ring.ports k = vget s.ring.ports k := by
  rw [(foldSignalled_frame p s).ring]
  exact vget_vmod_ne _ _ _ _ hk

theorem foldSignalled_modules : (foldSignalled p s).ring.modules = dropRoutes p s.ring.modules :=
  congrArg RingUnit.modules (foldSignalled_frame p s).ring

/-- With no relay open a fold is its event, and what goes the other way. -/
theorem foldRing_raises {old : LinkPort} (hrelays : noRelays s) :
    foldRing p old s =
      if portUp (foldSignalled p s) (1 - p) then
        (old.unacked.map (·.pkt) ++ old.waiting).foldl (fun s k => transmit (1 - p) { k with rerouted := true } s)
          (out (.topology (1 - p) (foldSignalled p s).ring.modules) (foldSignalled p s))
      else foldSignalled p s := by
  have hframe := foldUnsignalled_frame p s
  have hnone : noRelays (foldUnsignalled p s) := by
    rw [noRelays, hframe.ring]
    exact hrelays
  have hsignal : raise 0x3E3 0 0 (stallRelays (foldUnsignalled p s)) = foldSignalled p s := by rw [stallRelays_none hnone, foldSignalled]
  rw [← hsignal]
  rfl

/-- The other port is down: nothing goes out. -/
theorem foldRing_alone {old : LinkPort} (hrelays : noRelays s) (hother : portUp s (1 - p) = false) : foldRing p old s = foldSignalled p s := by
  have hne := otherPort_ne p
  rw [foldRing_raises hrelays, portUp, foldSignalled_port hne]
  exact if_neg (by simpa [portUp] using hother)

theorem transmit_sends {q : Nat} (k : RingPkt) (hroom : (vget s.ring.ports q).unacked.length < 256) :
    transmit q k s = out (.ringPacket q { k with seq := (vget s.ring.ports q).nextSeq }) (sent q k s) := by
  rw [transmit, if_neg (Nat.not_le.2 hroom)]
  rfl

/-- The one packet that waited on the port goes the other way (R687). -/
theorem foldRing_reroutes {old : LinkPort} {k : RingPkt} (hrelays : noRelays s) (hother : sends (1 - p) s)
    (hwaits : old.unacked.map (·.pkt) = [k]) (hnone : old.waiting = []) :
    foldRing p old s = out (.ringPacket (1 - p) { k with rerouted := true, seq := (vget s.ring.ports (1 - p)).nextSeq })
      (sent (1 - p) { k with rerouted := true } (out (.topology (1 - p) (dropRoutes p s.ring.modules)) (foldSignalled p s))) := by
  have hne := otherPort_ne p
  have hport := foldSignalled_port (s := s) hne
  obtain ⟨hup, hroom⟩ := hother
  rw [foldRing_raises hrelays, portUp, hport, if_pos hup, hwaits, hnone, foldSignalled_modules]
  have hsend := transmit_sends (s := out (.topology (1 - p) (dropRoutes p s.ring.modules)) (foldSignalled p s)) (q := 1 - p) { k with rerouted := true }
    (by rw [show (out _ (foldSignalled p s)).ring = (foldSignalled p s).ring from rfl, hport]; exact hroom)
  exact hsend.trans (by rw [show (out _ (foldSignalled p s)).ring = (foldSignalled p s).ring from rfl, hport])

end

theorem out_puts (e : Emit) (s : State) : [e] ⊆ (out e s).emit := List.subset_append_right _ _

/-! ### The transitions of Table 16-1 -/

section
variable {i : Nat → Instr} {f : State → State} {cond : State → Prop} {p : Nat}

theorem entered_keeps (p : Nat) (st : PortState) (q : State) :
    (entered p st q).bench = q.bench ∧ (entered p st q).pending = q.pending ∧ (entered p st q).hf = q.hf := ⟨rfl, rfl, rfl⟩

/-- An event of a port that enters a state. -/
theorem happens_entering {st : PortState} {new : State → State} (hx : ∀ t s, exec (i t) s = runFabric t [] s f)
    (hkeeps : ∀ q, (new q).bench = q.bench ∧ (new q).pending = q.pending ∧ (new q).hf = q.hf)
    (h : ∀ q, cond q → up q ∧ f q = enterPort p st (new q)) : Happens i cond (fun q => entered p st (new q)) [0x3E0 + p] noPuts :=
  happens_raises (0x3E0 + p) hx hkeeps h

/-- A port that is in a state, at an event of that state. -/
theorem onPort_in {st : PortState} {g : State → State} {q : State} (h : portIn p st q) :
    (if p < 3 ∧ (vget q.ring.ports p).state = st then g q else q) = g q := if_pos h

theorem onPort_out {st : PortState} {g : State → State} {q : State} (h : ¬ portIn p st q) :
    (if p < 3 ∧ (vget q.ring.ports p).state = st then g q else q) = q := if_neg h

end

/-- An event of a port in the state it belongs to. -/
theorem happens_onPort {i : Nat → Instr} {p : Nat} {st : PortState} {g new : State → State} {cond : State → Prop} {evs : List Nat}
    {puts : State → List Emit} (hx : ∀ t s, exec (i t) s = onPort t p st s g) (hin : ∀ q, cond q → up q ∧ portIn p st q)
    (h : ∀ q, q.emit = [] → cond q → OutFrame (new q) (g q) ∧ (new q).bench = q.bench ∧ (new q).pending = q.pending ∧
      (∀ e ∈ evs, bitOf (g q).host.evt.pending e = true) ∧ puts q ⊆ (g q).emit) : Happens i cond new evs puts := by
  refine happens_up (parts := []) hx (fun q hc => ⟨(hin q hc).1, List.forall_mem_nil _⟩) fun q _ he hc => ?_
  rw [onPort_in (hin q hc).2]
  exact h q he hc

theorem portDownExpired_searches (p : Nat) :
    Happens (.ringPortDownExpired · p) (fun s => up s ∧ portIn p .down s ∧ portEnabled s p = true ∧ (vget s.ring.ports p).since + 10000000 ≤ s.now)
      (entered p .search) [0x3E0 + p] (fun _ => [.ringHello p]) := by
  refine happens_onPort (fun _ _ => rfl) (fun _ h => ⟨h.1, h.2.1⟩) fun q _ hc => ?_
  obtain ⟨hup, -, hon, hage⟩ := hc
  rw [if_pos (by rw [hon, portAged, decide_eq_true hage]; rfl), enterPort_raises]
  exact ⟨(raise_frame _ _ _ _).outs _, rfl, rfl, List.forall_mem_singleton.2 (raise_sets _ _ _ hup),
    out_puts _ _⟩

theorem portDownExpired_waits (p : Nat) : Exactly (.ringPortDownExpired · p)
    (fun s => ¬ portIn p .down s ∨ portEnabled s p = false ∨ s.now < (vget s.ring.ports p).since + 10000000) id := by
  refine exactly_still (fun _ _ => rfl) fun q h => ?_
  by_cases hin : portIn p .down q
  · rw [onPort_in hin]
    refine if_neg ?_
    rw [Bool.and_eq_true, portAged, decide_eq_true_eq]
    rintro ⟨hon, hage⟩
    rcases h with h | h | h
    · exact h hin
    · rw [hon] at h
      cases h
    · exact absurd hage (Nat.not_le.2 h)
  · exact onPort_out hin

/-- A state that an event of its own alone leaves: the event enters another, and finds nothing to do in any other. -/
theorem onPort_enters {i : Nat → Instr} {p : Nat} {st new : PortState} (hx : ∀ t s, exec (i t) s = onPort t p st s (enterPort p new)) :
    Happens i (fun s => up s ∧ portIn p st s) (entered p new) [0x3E0 + p] noPuts ∧ Exactly i (fun s => ¬ portIn p st s) id :=
  ⟨happens_raises (0x3E0 + p) hx (entered_keeps p new) fun _ h => ⟨h.1, onPort_in h.2⟩, exactly_still hx fun _ h => onPort_out h⟩

/-! ### The exchange of capability blocks -/

section
variable {p : Nat} {k : RingCaps} {s : State}

/-- A capability block on a port that takes one. -/
theorem ringCapability_taken (h : p < 3) (hst : (vget s.ring.ports p).state = .caps ∨ (vget s.ring.ports p).state = .frCaps) :
    (if p < 3 ∧ ((vget s.ring.ports p).state = .caps ∨ (vget s.ring.ports p).state = .frCaps) then takeCaps p k s else s) = takeCaps p k s :=
  if_pos ⟨h, hst⟩

theorem takeCaps_native (hst : (vget s.ring.ports p).state = .caps) (hk : k.forerunner = false) :
    takeCaps p k s = raise (0x3E0 + p) 0 0 (setLinkPort p (fun x => { x with
      state := .stepUp, since := s.now, neighbour := some { serial := k.serial, id := k.id }
      lowRate := decide (2 ≤ x.nativeFails) || !k.fullRate }) s) := by
  simp only [takeCaps, hst, hk, Bool.not_false, if_true, enterPort, setLinkPort_setLinkPort]
  rfl

theorem takeCaps_forerunner (hp : p < 2) (hst : (vget s.ring.ports p).state = .caps) (hk : k.forerunner = true)
    (hallow : (cfgNow s).ring.allowForerunner = true) :
    takeCaps p k s = raise (0x3E0 + p) 0 0 (setLinkPort p (fun x => { x with
      state := .frDetect, since := s.now, neighbour := some { serial := k.serial, id := k.id, forerunner := true } }) s) := by
  have hgo : p < 2 ∧ (cfgNow (setLinkPort p (fun x => { x with neighbour := some { serial := k.serial, id := k.id, forerunner := true } }) s)).ring.allowForerunner = true :=
    ⟨hp, hallow⟩
  simp only [takeCaps, hst, hk, Bool.not_true, Bool.false_eq_true, if_false, if_pos hgo, enterPort, setLinkPort_setLinkPort]
  rfl

theorem takeCaps_refused (hp3 : p < 3) (hst : (vget s.ring.ports p).state = .caps) (hk : k.forerunner = true)
    (hrefused : p = 2 ∨ (cfgNow s).ring.allowForerunner = false) :
    takeCaps p k s = raise (0x3E0 + p) 0 0 (fallen p .down .forerunnerRefused 0 s) := by
  let q := setLinkPort p (fun x => { x with neighbour := some { serial := k.serial, id := k.id, forerunner := true } }) s
  have hstop : ¬ (p < 2 ∧ (cfgNow q).ring.allowForerunner = true) := by
    rintro ⟨hp, hallow⟩
    rcases hrefused with rfl | hno
    · exact absurd hp (by decide)
    · exact absurd (hallow.symm.trans hno) (by decide)
  have hdown : isPortUp (vget q.ring.ports p).state = false := by
    have hport : (vget q.ring.ports p).state = (vget s.ring.ports p).state := vget_vmod_congr _ fun _ => rfl
    rw [hport, hst]
    rfl
  have htake : takeCaps p k s = portFalls p .down .forerunnerRefused q := by
    simp only [takeCaps, hst, hk, Bool.not_true, Bool.false_eq_true, if_false]
    exact if_neg hstop
  rw [htake, portFalls_quiet hdown]
  show raise _ 0 0 (setLinkPort p _ (setLinkPort p _ s)) = _
  rw [setLinkPort_setLinkPort]
  rfl

/-- The one module that a forerunner's port leads to. -/
def forerunnerRing (p : Nat) (k : RingCaps) : List RingModule :=
  [if p = 0 then { serial := k.serial, forerunner := k.forerunner, hopsEast := some 1 }
   else { serial := k.serial, forerunner := k.forerunner, hopsWest := some 1 }]

/-- The state in which a forerunner's port has come up. -/
def forerunnerUp (p : Nat) (k : RingCaps) (s : State) : State :=
  risen p .frUp (setLinkPort p (fun x => { x with neighbour := some { serial := k.serial, id := k.id, forerunner := k.forerunner } })
    { s with ring := { s.ring with modules := forerunnerRing p k } })

/-- A module that the ring did not reach is reachable now (R688). -/
theorem setRoutes_first (hnone : s.ring.modules = []) (p : Nat) (k : RingCaps) :
    setRoutes (forerunnerRing p k) s = raise 0x3E4 0 0 { s with ring := { s.ring with modules := forerunnerRing p k } } := by
  have hnew : (reachableSerials (forerunnerRing p k)).all (reachableSerials ([] : List RingModule)).contains = false := by
    by_cases hp : p = 0 <;> simp [forerunnerRing, hp, reachableSerials, hasRoute]
  unfold setRoutes
  simp only [hnone, hnew, Bool.and_false, Bool.false_eq_true, if_false]

end

/-! ### A port that comes up (R687, R688) -/

section
variable {p : Nat} {st : PortState} {s : State}

/-- What the neighbour of a port adds to the routes. -/
def routed (p : Nat) (n : Option Neighbour) (s : State) : State :=
  match n with
  | some n => setRoutes (addNeighbour p n s.ring.modules) s
  | none => s

/-- With the other port up the ring closes. -/
def closing (p : Nat) (s : State) : State :=
  if portUp s (1 - p) then raise 0x3E3 0 0 (out (.topology (1 - p) s.ring.modules) { s with ring := { s.ring with folded := false } }) else s

/-- The port with its event raised. -/
def risenSignalled (p : Nat) (st : PortState) (s : State) : State := raise (0x3E0 + p) 0 0 (risen p st s)

theorem portRises_ring (hp : p < 2) :
    portRises p st s = out (.topology p (closing p (routed p (vget s.ring.ports p).neighbour (risenSignalled p st s))).ring.modules)
      (closing p (routed p (vget s.ring.ports p).neighbour (risenSignalled p st s))) := by
  have hneighbour : (vget (risenSignalled p st s).ring.ports p).neighbour = (vget s.ring.ports p).neighbour := by
    rw [risenSignalled, (raise_frame _ _ _ _).ring]
    exact vget_vmod_congr (g := fun x : LinkPort => x.neighbour) _ fun _ => rfl
  unfold portRises
  simp only [enterPort_risen, if_neg (Nat.not_le.2 hp)]
  rw [← hneighbour]
  rfl

theorem portRises_jm : portRises 2 st s = risenSignalled 2 st s := by
  unfold portRises
  simp only [enterPort_risen]
  rfl

theorem risenSignalled_frame (p : Nat) (st : PortState) (s : State) : OutFrame (risen p st s) (risenSignalled p st s) := raise_frame _ _ _ _

theorem risenSignalled_sets (hup : up s) : bitOf (risenSignalled p st s).host.evt.pending (0x3E0 + p) = true := raise_sets _ _ _ hup

theorem risenSignalled_other {q : Nat} (hq : q ≠ p) : portUp (risenSignalled p st s) q = portUp s q := by
  rw [portUp, (risenSignalled_frame p st s).ring]
  exact portUp_other hq _

theorem closing_open (h : portUp s (1 - p) = false) : closing p s = s := if_neg (by simp [h])

theorem closing_closes (h : portUp s (1 - p) = true) :
    closing p s = raise 0x3E3 0 0 (out (.topology (1 - p) s.ring.modules) { s with ring := { s.ring with folded := false } }) := if_pos h

end

theorem takeCaps_frUp {p : Nat} {k : RingCaps} {s : State} (hp : p < 2) (hst : (vget s.ring.ports p).state = .frCaps)
    (hother : portUp s (1 - p) = false) (hstage : s.boot.stage ≠ 7) (hnone : s.ring.modules = []) :
    ∃ q, takeCaps p k s = out (.topology p (forerunnerRing p k)) q ∧ OutFrame (forerunnerUp p k s) q ∧
      (up s → bitOf q.host.evt.pending (0x3E0 + p) = true ∧ bitOf q.host.evt.pending 0x3E4 = true) := by
  let n : Neighbour := { serial := k.serial, id := k.id, forerunner := k.forerunner }
  let s1 := setLinkPort p (fun x => { x with neighbour := some n }) s
  let s2 := risenSignalled p .frUp s1
  let s3 := raise 0x3E4 0 0 { s2 with ring := { s2.ring with modules := forerunnerRing p k } }
  have hne := otherPort_ne p
  have hframe2 := risenSignalled_frame p .frUp s1
  have hframe3 : OutFrame { s2 with ring := { s2.ring with modules := forerunnerRing p k } } s3 := raise_frame _ _ _ _
  have hmodules : s2.ring.modules = [] := (congrArg RingUnit.modules hframe2.ring).trans hnone
  have hneighbour : (vget s1.ring.ports p).neighbour = some n := by
    rw [show s1.ring.ports = vmod s.ring.ports p (fun x => { x with neighbour := some n }) from rfl, vget_vmod_self _ _ _ (Nat.lt_succ_of_lt hp)]
  have hrouted : routed p (some n) s2 = s3 := by
    show setRoutes (addNeighbour p n s2.ring.modules) s2 = s3
    rw [hmodules]
    exact setRoutes_first hmodules p k
  have hother3 : portUp s3 (1 - p) = false := by
    have h3 : portUp s3 (1 - p) = portUp s2 (1 - p) := by rw [portUp, hframe3.ring]; rfl
    rw [h3, risenSignalled_other hne, portUp_other hne, hother]
  have hrises : portRises p .frUp s1 = out (.topology p (forerunnerRing p k)) s3 := by
    rw [portRises_ring hp, hneighbour, hrouted, closing_open hother3, hframe3.ring]
  have hframe : OutFrame (forerunnerUp p k s) s3 := (hframe2.withRing fun r => { r with modules := forerunnerRing p k }).trans hframe3
  have htake : takeCaps p k s = tryRingStep (portRises p .frUp s1) := by
    simp only [takeCaps, hst]
    rfl
  refine ⟨s3, ?_, hframe, fun hup => ⟨raise_keeps _ _ _ (risenSignalled_sets hup), raise_sets _ _ _ (hframe2.hf_fabric.trans hup)⟩⟩
  rw [htake, hrises, tryRingStep_other (s := out _ s3) (show s3.boot.stage ≠ 7 by rw [hframe.boot]; exact hstage)]

/-! ### Lanes aligned -/

section
variable {p : Nat} {s : State}

/-- What the lanes' alignment does to a port. -/
def alignPort (p : Nat) (s : State) : State :=
  let s := tryRingStep (out (.keepalive p) (portRises p .up s))
  if p = 2 then tryPairing s else s

theorem tryPairing_off (h : (cfgNow s).pair.enable = false) : tryPairing s = s := by simp [tryPairing, h]

theorem alignPort_jm (hstage : s.boot.stage ≠ 7) (hpair : (cfgNow s).pair.enable = false) :
    alignPort 2 s = out (.keepalive 2) (risenSignalled 2 .up s) := by
  have hframe := (risenSignalled_frame 2 .up s).outs (.keepalive 2)
  have hstep : tryRingStep (out (.keepalive 2) (risenSignalled 2 .up s)) = out (.keepalive 2) (risenSignalled 2 .up s) :=
    tryRingStep_other (by rw [hframe.boot]; exact hstage)
  have hoff : tryPairing (out (.keepalive 2) (risenSignalled 2 .up s)) = out (.keepalive 2) (risenSignalled 2 .up s) :=
    tryPairing_off (by rw [hframe.cfgNow]; exact hpair)
  simp only [alignPort, portRises_jm, hstep, if_true, hoff]

theorem alignPort_ring {q : State} (hp : p < 2) (hq : portRises p .up s = q) (hframe : q.boot = s.boot) (hstage : s.boot.stage ≠ 7) :
    alignPort p s = out (.keepalive p) q := by
  have hne : p ≠ 2 := Nat.ne_of_lt hp
  simp only [alignPort, hq, hne, if_false]
  exact tryRingStep_other (by rw [show (out _ q).boot = q.boot from rfl, hframe]; exact hstage)

/-- A port without a neighbour comes up, the other one down. -/
theorem portRises_alone (hp : p < 2) (hnone : (vget s.ring.ports p).neighbour = none) (hother : portUp s (1 - p) = false) :
    portRises p .up s = out (.topology p s.ring.modules) (risenSignalled p .up s) := by
  have hopen : closing p (risenSignalled p .up s) = risenSignalled p .up s := closing_open (by rw [risenSignalled_other (otherPort_ne p), hother])
  rw [portRises_ring hp, hnone]
  show out (.topology p (closing p (risenSignalled p .up s)).ring.modules) (closing p (risenSignalled p .up s)) = _
  rw [hopen, (risenSignalled_frame p .up s).ring]
  rfl

/-- The closed ring, with its event raised. -/
def closedSignalled (p : Nat) (s : State) : State :=
  let r := risenSignalled p .up s
  raise 0x3E3 0 0 (out (.topology (1 - p) s.ring.modules) { r with ring := { r.ring with folded := false } })

theorem portRises_closes (hp : p < 2) (hnone : (vget s.ring.ports p).neighbour = none) (hother : portUp s (1 - p) = true) :
    portRises p .up s = out (.topology p s.ring.modules) (closedSignalled p s) := by
  have hmodules : (risenSignalled p .up s).ring.modules = s.ring.modules := by
    rw [(risenSignalled_frame p .up s).ring]
    rfl
  have hclose : closing p (risenSignalled p .up s) = closedSignalled p s := by
    rw [closing_closes (by rw [risenSignalled_other (otherPort_ne p), hother]), hmodules]
    rfl
  rw [portRises_ring hp, hnone]
  show out (.topology p (closing p (risenSignalled p .up s)).ring.modules) (closing p (risenSignalled p .up s)) = _
  have hclosed : (closedSignalled p s).ring.modules = s.ring.modules :=
    (congrArg RingUnit.modules (raise_frame 0x3E3 0 0 _).ring).trans hmodules
  rw [hclose, hclosed]

theorem closedSignalled_frame (p : Nat) (s : State) :
    OutFrame (risen p .up { s with ring := { s.ring with folded := false } }) (closedSignalled p s) :=
  ((risenSignalled_frame p .up s).withRing fun r => { r with folded := false }).outs _ |>.trans (raise_frame _ _ _ _)

end

theorem lanesAligned_jm : Happens (.ringLanesAligned · 2) (fun s => up s ∧ portIn 2 .align s ∧ s.boot.stage ≠ 7 ∧ (cfgNow s).pair.enable = false)
    (risen 2 .up) [0x3E2] (fun _ => [.keepalive 2]) := by
  refine happens_onPort (g := alignPort 2) (fun _ _ => rfl) (fun _ h => ⟨h.1, h.2.1⟩) fun q _ hc => ?_
  obtain ⟨hup, -, hstage, hpair⟩ := hc
  rw [alignPort_jm hstage hpair]
  exact ⟨(risenSignalled_frame 2 .up q).outs _, rfl, rfl, List.forall_mem_singleton.2 (risenSignalled_sets hup), out_puts _ _⟩

theorem lanesAligned_alone (p : Nat) (hp : p < 2) : Happens (.ringLanesAligned · p)
    (fun s => up s ∧ portIn p .align s ∧ s.boot.stage ≠ 7 ∧ (vget s.ring.ports p).neighbour = none ∧ isPortUp (vget s.ring.ports (1 - p)).state = false)
    (risen p .up) [0x3E0 + p] (fun s => [.topology p s.ring.modules, .keepalive p]) := by
  refine happens_onPort (g := alignPort p) (fun _ _ => rfl) (fun _ h => ⟨h.1, h.2.1⟩) fun q _ hc => ?_
  obtain ⟨hup, -, hstage, hnone, hother⟩ := hc
  have hframe := risenSignalled_frame p .up q
  rw [alignPort_ring hp (portRises_alone hp hnone hother) hframe.boot hstage]
  refine ⟨(hframe.outs _).outs _, rfl, rfl, List.forall_mem_singleton.2 (risenSignalled_sets hup), ?_⟩
  simp [out]

theorem lanesAligned_closes (p : Nat) (hp : p < 2) : Happens (.ringLanesAligned · p)
    (fun s => up s ∧ portIn p .align s ∧ s.boot.stage ≠ 7 ∧ (vget s.ring.ports p).neighbour = none ∧ isPortUp (vget s.ring.ports (1 - p)).state = true)
    (fun s => risen p .up { s with ring := { s.ring with folded := false } }) [0x3E0 + p, 0x3E3]
    (fun s => [.topology (1 - p) s.ring.modules, .topology p s.ring.modules, .keepalive p]) := by
  refine happens_onPort (g := alignPort p) (fun _ _ => rfl) (fun _ h => ⟨h.1, h.2.1⟩) fun q _ hc => ?_
  obtain ⟨hup, -, hstage, hnone, hother⟩ := hc
  have hframe := closedSignalled_frame p q
  have htop : Emit.topology (1 - p) q.ring.modules ∈ (closedSignalled p q).emit := raise_emits _ _ _ _ (List.mem_append_right _ List.mem_cons_self)
  have hrisen : bitOf (closedSignalled p q).host.evt.pending (0x3E0 + p) = true := raise_keeps _ _ _ (risenSignalled_sets hup)
  have hclosed : bitOf (closedSignalled p q).host.evt.pending 0x3E3 = true := raise_sets _ _ _ ((risenSignalled_frame p .up q).hf_fabric.trans hup)
  rw [alignPort_ring hp (portRises_closes hp hnone hother) hframe.boot hstage]
  refine ⟨(hframe.outs _).outs _, rfl, rfl, ?_, ?_⟩
  · simpa [out] using ⟨hrisen, hclosed⟩
  · simpa [out] using Or.inl htop

/-! ### States that last too long, and keepalives -/

section
variable {p ns : Nat} {st : PortState} {cause : PortCause} {s : State}

/-- A port's failures of STEP_UP and ALIGN, one more at the full rate. -/
def failsCounted (p : Nat) (s : State) : State := setLinkPort p (fun x => { x with nativeFails := if x.lowRate then 0 else x.nativeFails + 1 }) s

theorem bringupTimeout_early (hst : (vget s.ring.ports p).state = st) (hlimit : bringupLimit st = some (ns, cause))
    (hage : s.now < (vget s.ring.ports p).since + ns) : bringupTimeout p s = s := by
  subst hst
  have haged : portAged s p ns = false := decide_eq_false (Nat.not_le.2 hage)
  simp only [bringupTimeout, hlimit, haged, Bool.not_false, if_true]

/-- A port in a bring-up state is not up. -/
theorem bringup_down (hlimit : bringupLimit st = some (ns, cause)) : isPortUp st = false := by
  cases st with
  | up => cases hlimit
  | frUp => cases hlimit
  | down | search | caps | stepUp | align | frDetect | frTrain | frLock | frCaps | fenced => rfl

theorem setLinkPort_down (p : Nat) {f : LinkPort → LinkPort} (hf : ∀ x, (f x).state = x.state) (h : isPortUp (vget s.ring.ports p).state = false) :
    isPortUp (vget (setLinkPort p f s).ring.ports p).state = false := by
  have hport : (vget (setLinkPort p f s).ring.ports p).state = (vget s.ring.ports p).state := vget_vmod_congr _ hf
  rwa [hport]

theorem bringupTimeout_late (hst : (vget s.ring.ports p).state = st) (hlimit : bringupLimit st = some (ns, cause))
    (hage : (vget s.ring.ports p).since + ns ≤ s.now) :
    bringupTimeout p s = portFalls p .down cause (setLinkPort p (fun x => { x with
      nativeFails := if !(decide (st = .stepUp) || decide (st = .align)) then (vget s.ring.ports p).nativeFails
        else if (vget s.ring.ports p).lowRate then 0 else (vget s.ring.ports p).nativeFails + 1 }) s) := by
  subst hst
  have haged : portAged s p ns = true := decide_eq_true hage
  simp only [bringupTimeout, hlimit, haged, Bool.not_true, Bool.false_eq_true, if_false]

theorem bringupTimeout_native (hst : (vget s.ring.ports p).state = st) (hnative : st = .stepUp ∨ st = .align) (hlimit : bringupLimit st = some (ns, cause))
    (hage : (vget s.ring.ports p).since + ns ≤ s.now) :
    bringupTimeout p s = raise (0x3E0 + p) 0 0 (fallen p .down cause 0 (failsCounted p s)) := by
  have hdown : isPortUp (vget s.ring.ports p).state = false := hst ▸ bringup_down hlimit
  have hboth : (!(decide (st = .stepUp) || decide (st = .align))) = false := by rcases hnative with rfl | rfl <;> rfl
  have hfalls : bringupTimeout p s = portFalls p .down cause (failsCounted p s) := by
    rw [bringupTimeout_late hst hlimit hage, hboth]
    rfl
  have hdown' : isPortUp (vget (failsCounted p s).ring.ports p).state = false := setLinkPort_down p (fun _ => rfl) hdown
  rw [hfalls, portFalls_quiet hdown']

theorem bringupTimeout_other (hst : (vget s.ring.ports p).state = st) (hother : st ≠ .stepUp ∧ st ≠ .align) (hlimit : bringupLimit st = some (ns, cause))
    (hage : (vget s.ring.ports p).since + ns ≤ s.now) :
    bringupTimeout p s = raise (0x3E0 + p) 0 0 (fallen p .down cause 0 s) := by
  have hdown : isPortUp (vget s.ring.ports p).state = false := hst ▸ bringup_down hlimit
  have hneither : (!(decide (st = .stepUp) || decide (st = .align))) = true := by simpa using hother
  have hsame : setLinkPort p (fun x => { x with nativeFails := (vget s.ring.ports p).nativeFails }) s = s := by
    simp only [setLinkPort]
    rw [vmod_eq_self rfl]
  rw [bringupTimeout_late hst hlimit hage, hneither, if_pos rfl, hsame, portFalls_quiet hdown]

end

/-- The timeout of a port of the ring. -/
theorem bringupTimeout_port {p : Nat} {q : State} (h : p < 3) : (if p < 3 then bringupTimeout p else id) q = bringupTimeout p q := by rw [if_pos h]

theorem happens_bringupTimeout {p : Nat} {cond : State → Prop} {new : State → State}
    (hkeeps : ∀ q, (new q).bench = q.bench ∧ (new q).pending = q.pending ∧ (new q).hf = q.hf)
    (h : ∀ q, cond q → up q ∧ p < 3 ∧ bringupTimeout p q = raise (0x3E0 + p) 0 0 (new q)) : Happens (.ringBringupTimeout · p) cond new [0x3E0 + p] noPuts := by
  refine happens_raises _ (fun _ _ => rfl) hkeeps fun q hc => ?_
  obtain ⟨hup, hp, hf⟩ := h q hc
  exact ⟨hup, (bringupTimeout_port hp).trans hf⟩

theorem bringupTimeout_fails (p : Nat) (st : PortState) (ns : Nat) (h : (st, ns) ∈ [(PortState.stepUp, 10000000), (.align, 2000000)]) :
    Happens (.ringBringupTimeout · p) (fun s => up s ∧ portIn p st s ∧ (vget s.ring.ports p).since + ns ≤ s.now)
      (fun s => fallen p .down (if st = .stepUp then .stepTimeout else .alignTimeout) 0 (failsCounted p s)) [0x3E0 + p] noPuts := by
  refine happens_bringupTimeout (fun q => ⟨rfl, rfl, rfl⟩) fun q ⟨hup, ⟨hp, hst⟩, hage⟩ => ⟨hup, hp, ?_⟩
  simp only [List.mem_cons, Prod.mk.injEq, List.not_mem_nil, or_false] at h
  obtain ⟨rfl, rfl⟩ | ⟨rfl, rfl⟩ := h
  · exact bringupTimeout_native hst (.inl rfl) rfl hage
  · exact bringupTimeout_native hst (.inr rfl) rfl hage

theorem bringupTimeout_falls (p : Nat) (st : PortState) (ns : Nat)
    (h : (st, ns) ∈ [(PortState.caps, 1000000), (.frDetect, 100000000), (.frTrain, 50000000), (.frLock, 20000000), (.frCaps, 10000000)]) :
    Happens (.ringBringupTimeout · p) (fun s => up s ∧ portIn p st s ∧ (vget s.ring.ports p).since + ns ≤ s.now)
      (fallen p .down (if st = .caps then .capsTimeout else .frTimeout) 0) [0x3E0 + p] noPuts := by
  refine happens_bringupTimeout (fun q => ⟨rfl, rfl, rfl⟩) fun q ⟨hup, ⟨hp, hst⟩, hage⟩ => ⟨hup, hp, ?_⟩
  simp only [List.mem_cons, Prod.mk.injEq, List.not_mem_nil, or_false] at h
  obtain ⟨rfl, rfl⟩ | ⟨rfl, rfl⟩ | ⟨rfl, rfl⟩ | ⟨rfl, rfl⟩ | ⟨rfl, rfl⟩ := h <;>
    exact bringupTimeout_other hst (by decide) rfl hage

theorem bringupTimeout_waits (p : Nat) (st : PortState) (ns : Nat)
    (h : (st, ns) ∈ [(PortState.stepUp, 10000000), (.align, 2000000), (.caps, 1000000), (.frDetect, 100000000), (.frTrain, 50000000), (.frLock, 20000000),
      (.frCaps, 10000000)]) :
    Exactly (.ringBringupTimeout · p) (fun s => (vget s.ring.ports p).state = st ∧ s.now < (vget s.ring.ports p).since + ns) id := by
  have hlimit : ∃ cause, bringupLimit st = some (ns, cause) := by
    simp only [List.mem_cons, Prod.mk.injEq, List.not_mem_nil, or_false] at h
    obtain ⟨rfl, rfl⟩ | ⟨rfl, rfl⟩ | ⟨rfl, rfl⟩ | ⟨rfl, rfl⟩ | ⟨rfl, rfl⟩ | ⟨rfl, rfl⟩ | ⟨rfl, rfl⟩ := h <;> exact ⟨_, rfl⟩
  obtain ⟨cause, hlimit⟩ := hlimit
  refine exactly_still (fun _ _ => rfl) fun q ⟨hst, hage⟩ => ?_
  by_cases hp : p < 3
  · rw [if_pos hp, bringupTimeout_early hst hlimit hage]
  · rw [if_neg hp]
    rfl

/-! ### The loss of a link -/

section
variable {p : Nat} {s : State}

/-- The port fallen, with its event raised. -/
def lostSignalled (p : Nat) (s : State) : State := raise (0x3E0 + p) 0 0 (fallen p .down .linkLost 1 s)

theorem lostSignalled_frame (p : Nat) (s : State) : OutFrame (fallen p .down .linkLost 1 s) (lostSignalled p s) := raise_frame _ _ _ _

theorem lostSignalled_port {k : Nat} (hk : k ≠ p) : vget (lostSignalled p s).ring.ports k = vget s.ring.ports k := by
  rw [(lostSignalled_frame p s).ring]
  exact vget_vmod_ne _ _ _ _ hk

theorem lostSignalled_relays (h : noRelays s) : noRelays (lostSignalled p s) := by
  rw [noRelays, (lostSignalled_frame p s).ring]
  exact h

/-- A port that was up loses its link. -/
theorem linkLost_up (hp : p < 3) (h : isPortUp (vget s.ring.ports p).state = true) :
    (if p < 3 ∧ portUp s p = true then portFalls p .down .linkLost s else s) = portFalls p .down .linkLost s := if_pos ⟨hp, h⟩

theorem linkLost_frame (p : Nat) (s : State) :
    OutFrame (foldedAt p (fallen p .down .linkLost 1 s)) (foldSignalled p (lostSignalled p s)) :=
  (foldedAt_frame (lostSignalled_frame p s) p).trans (foldSignalled_frame p _)

theorem linkLost_signals (hup : up s) :
    bitOf (foldSignalled p (lostSignalled p s)).host.evt.pending (0x3E0 + p) = true ∧
      bitOf (foldSignalled p (lostSignalled p s)).host.evt.pending 0x3E3 = true :=
  ⟨foldSignalled_keeps (raise_sets _ _ _ hup), foldSignalled_sets ((lostSignalled_frame p s).hf_fabric.trans hup)⟩

end

theorem ringLinkLost_jm : Happens (.ringLinkLost · 2) (fun s => up s ∧ isPortUp (vget s.ring.ports 2).state = true)
    (fallen 2 .down .linkLost 1) [0x3E2] noPuts :=
  happens_raises 0x3E2 (fun _ _ => rfl) (fun _ => ⟨rfl, rfl, rfl⟩) fun _ h => ⟨h.1, (linkLost_up (by decide) h.2).trans (portFalls_jm h.2)⟩

theorem ringLinkLost_folds (p : Nat) (hp : p < 2) : Happens (.ringLinkLost · p)
    (fun s => up s ∧ noRelays s ∧ isPortUp (vget s.ring.ports p).state = true ∧ isPortUp (vget s.ring.ports (1 - p)).state = false)
    (fun s => foldedAt p (fallen p .down .linkLost 1 s)) [0x3E0 + p, 0x3E3] noPuts := by
  refine happens_up (parts := []) (fun _ _ => rfl) (fun _ h => ⟨h.1, List.forall_mem_nil _⟩) fun q _ _ hc => ?_
  obtain ⟨hup, hrelays, hwas, hother⟩ := hc
  have hother' : portUp (lostSignalled p q) (1 - p) = false := by
    rw [portUp, lostSignalled_port (otherPort_ne p)]
    exact hother
  obtain ⟨hlost, hfold⟩ := linkLost_signals (p := p) hup
  rw [linkLost_up (Nat.lt_succ_of_lt hp) hwas, portFalls_folds hp hwas]
  have hfolds : foldRing p (vget q.ring.ports p) (lostSignalled p q) = foldSignalled p (lostSignalled p q) :=
    foldRing_alone (lostSignalled_relays hrelays) hother'
  rw [show raise (0x3E0 + p) 0 0 (fallen p .down .linkLost 1 q) = lostSignalled p q from rfl, hfolds]
  exact ⟨linkLost_frame p q, rfl, rfl, by simpa using ⟨hlost, hfold⟩, List.nil_subset _⟩

theorem ringLinkLost_reroutes (p : Nat) (k : RingPkt) (hp : p < 2) : Happens (.ringLinkLost · p)
    (fun s => up s ∧ noRelays s ∧ isPortUp (vget s.ring.ports p).state = true ∧ sends (1 - p) s ∧ (vget s.ring.ports p).unacked.map (·.pkt) = [k] ∧
      (vget s.ring.ports p).waiting = [])
    (fun s => sent (1 - p) { k with rerouted := true } (foldedAt p (fallen p .down .linkLost 1 s))) [0x3E0 + p, 0x3E3]
    (fun s => [.topology (1 - p) (s.ring.modules.map fun m => if p = 0 then { m with hopsEast := none } else { m with hopsWest := none }),
      .ringPacket (1 - p) { k with rerouted := true, seq := (vget s.ring.ports (1 - p)).nextSeq }]) := by
  refine happens_up (parts := []) (fun _ _ => rfl) (fun _ h => ⟨h.1, List.forall_mem_nil _⟩) fun q _ _ hc => ?_
  obtain ⟨hup, hrelays, hwas, hother, hwaits, hnone⟩ := hc
  have hport : vget (lostSignalled p q).ring.ports (1 - p) = vget q.ring.ports (1 - p) := lostSignalled_port (otherPort_ne p)
  have hmodules : (lostSignalled p q).ring.modules = q.ring.modules := by
    rw [(lostSignalled_frame p q).ring]
    rfl
  obtain ⟨hlost, hfold⟩ := linkLost_signals (p := p) hup
  have hnow : (foldSignalled p (lostSignalled p q)).now = q.now := (foldSignalled_now p _).trans (raise_now _ _ _ _)
  rw [linkLost_up (Nat.lt_succ_of_lt hp) hwas, portFalls_folds hp hwas]
  have hfolds := foldRing_reroutes (old := vget q.ring.ports p) (k := k) (lostSignalled_relays hrelays) (by rw [sends, hport]; exact hother) hwaits hnone
  rw [hport, hmodules] at hfolds
  rw [show raise (0x3E0 + p) 0 0 (fallen p .down .linkLost 1 q) = lostSignalled p q from rfl, hfolds]
  have hframe := (linkLost_frame p q).sentPast hnow (.topology (1 - p) (dropRoutes p q.ring.modules)) (1 - p) { k with rerouted := true }
  refine ⟨hframe.outs _, sent_bench _ _ _, sent_pending _ _ _, List.forall_mem_cons.2 ⟨hlost, List.forall_mem_singleton.2 hfold⟩, ?_⟩
  simp [out, sent, setLinkPort, dropRoutes]

/-! ### The end of a fence (R720) -/

/-- The fences but those of a port. -/
def portUnfenced (p : Nat) (s : State) : State :=
  { s with faults := { s.faults with fences := s.faults.fences.filter fun f => decide (f.unit ≠ 15 ∨ f.index ≠ p) } }

theorem clearFence_port (p : Nat) (s : State) : clearFence 0x0F p s = portUnfenced p s := by
  have hkept (f : Fence) : (!(decide (f.unit = 15) && decide (f.index = p))) = decide (f.unit ≠ 15 ∨ f.index ≠ p) := by
    rw [← Bool.decide_and, ← decide_not, decide_eq_decide, not_and_or]
  simp only [clearFence, portUnfenced, hkept]

theorem ringFenceExpired_ends (p : Nat) :
    Happens (.ringFenceExpired · p) (fun s => up s ∧ portIn p .fenced s ∧ (vget s.ring.ports p).since + 100000000 ≤ s.now)
      (fun s => entered p .down (portUnfenced p s)) [0x3E0 + p] noPuts := by
  refine happens_onPort (fun _ _ => rfl) (fun _ h => ⟨h.1, h.2.1⟩) fun q _ hc => ?_
  obtain ⟨hup, -, hage⟩ := hc
  have hraise := raise_frame (0x3E0 + p) 0 0 (entered p .down q)
  rw [if_pos (show portAged q p 100000000 = true from decide_eq_true hage), enterPort_raises, clearFence_port]
  refine ⟨?_, rfl, rfl, List.forall_mem_singleton.2 (raise_sets _ _ _ hup), List.nil_subset _⟩
  unfold OutFrame at hraise
  unfold OutFrame portUnfenced
  rw [hraise]
  rfl

theorem lanesLocked_enters (p : Nat) {st new : PortState} (h : (st, new) ∈ [(PortState.stepUp, PortState.align), (.frLock, .frCaps)]) :
    Happens (.ringLanesLocked · p) (fun s => up s ∧ portIn p st s) (entered p new) [0x3E0 + p] noPuts := by
  refine happens_raises (0x3E0 + p) (fun _ _ => rfl) (entered_keeps p new) fun q ⟨hup, hp, hst⟩ => ⟨hup, ?_⟩
  simp only [List.mem_cons, Prod.mk.injEq, List.not_mem_nil, or_false] at h
  rw [if_neg (Nat.not_le.2 hp)]
  obtain ⟨rfl, rfl⟩ | ⟨rfl, rfl⟩ := h <;> (rw [hst]; rfl)

theorem lanesLocked_still (p : Nat) : Exactly (.ringLanesLocked · p) (fun s => ¬ portIn p .stepUp s ∧ ¬ portIn p .frLock s) id := by
  refine exactly_still (fun _ _ => rfl) fun q ⟨hstep, hlock⟩ => ?_
  by_cases hp : 3 ≤ p
  · exact if_pos hp
  · rw [if_neg hp]
    have hstep' : (vget q.ring.ports p).state ≠ .stepUp := fun h => hstep ⟨Nat.not_le.1 hp, h⟩
    have hlock' : (vget q.ring.ports p).state ≠ .frLock := fun h => hlock ⟨Nat.not_le.1 hp, h⟩
    split
    · next h => exact absurd h hstep'
    · next h => exact absurd h hlock'
    · rfl

/-- Settles O55: every event of Table 16-1 as the one state change it makes, and the fold of the ring with what goes the other way. -/
theorem ringPorts : Obligations.RingPorts := by
  refine ⟨fun p _ => portDownExpired_searches p, portDownExpired_waits, ?_, ?_, ?_, ?_, ?_, ?_, ?_, ?_, ?_, lanesLocked_still, lanesAligned_jm,
    lanesAligned_alone, lanesAligned_closes, ?_, ?_, ?_, ?_, ?_, bringupTimeout_fails, bringupTimeout_falls, bringupTimeout_waits, ?_, ?_,
    ringLinkLost_jm, ringLinkLost_folds, ringLinkLost_reroutes, ?_, ringFenceExpired_ends, ?_⟩
  · exact fun p _ => (onPort_enters fun _ _ => rfl).1
  · exact fun p => (onPort_enters fun _ _ => rfl).2
  · exact fun p k hk => happens_raises _ (fun _ _ => rfl) (fun _ => ⟨rfl, rfl, rfl⟩) fun q ⟨hup, hp, hst⟩ =>
      ⟨hup, (ringCapability_taken hp (.inl hst)).trans (takeCaps_native hst hk)⟩
  · exact fun p k hp hk => happens_raises _ (fun _ _ => rfl) (fun _ => ⟨rfl, rfl, rfl⟩) fun q ⟨hup, ⟨hp3, hst⟩, hallow⟩ =>
      ⟨hup, (ringCapability_taken hp3 (.inl hst)).trans (takeCaps_forerunner hp hst hk hallow)⟩
  · exact fun p k hk => happens_raises _ (fun _ _ => rfl) (fun _ => ⟨rfl, rfl, rfl⟩) fun q ⟨hup, ⟨hp3, hst⟩, hrefused⟩ =>
      ⟨hup, (ringCapability_taken hp3 (.inl hst)).trans (takeCaps_refused hp3 hst hk hrefused)⟩
  · refine fun p k hp => happens_up (parts := []) (fun _ _ => rfl) (fun _ h => ⟨h.1, List.forall_mem_nil _⟩) fun q _ _ hc => ?_
    obtain ⟨hup, ⟨hp3, hst⟩, hother, hstage, hnone⟩ := hc
    obtain ⟨r, hr, hframe, hpend⟩ := takeCaps_frUp (k := k) hp hst hother hstage hnone
    obtain ⟨hrise, hreach⟩ := hpend hup
    rw [ringCapability_taken hp3 (.inr hst), hr]
    exact ⟨hframe.outs _, rfl, rfl, List.forall_mem_cons.2 ⟨hrise, List.forall_mem_singleton.2 hreach⟩, out_puts _ _⟩
  · refine fun p k => exactly_still (fun _ _ => rfl) fun q ⟨hcaps, hfr⟩ => if_neg ?_
    rintro ⟨hp, hst | hst⟩
    · exact hcaps ⟨hp, hst⟩
    · exact hfr ⟨hp, hst⟩
  · exact fun p => lanesLocked_enters p (by decide)
  · exact fun p => lanesLocked_enters p (by decide)
  · exact fun p => exactly_still (fun _ _ => rfl) fun _ h => onPort_out (g := alignPort p) h
  · exact fun p => (onPort_enters fun _ _ => rfl).1
  · exact fun p => (onPort_enters fun _ _ => rfl).2
  · exact fun p => (onPort_enters fun _ _ => rfl).1
  · exact fun p => (onPort_enters fun _ _ => rfl).2
  · refine fun p hp => happens_up (parts := []) (fun _ _ => rfl) (fun _ h => ⟨h.1, List.forall_mem_nil _⟩) fun q _ _ hc => ?_
    rw [if_pos ⟨hp, hc.2⟩]
    exact ⟨rfl, rfl, rfl, List.forall_mem_nil _, out_puts _ _⟩
  · exact fun p => exactly_still (fun _ _ => rfl) fun q h => if_neg fun hup => absurd (h.symm.trans hup.2) (by decide)
  · exact fun p => exactly_still (fun _ _ => rfl) fun q h => if_neg fun hup => absurd (h.symm.trans hup.2) (by decide)
  · refine fun p => exactly_still (fun _ _ => rfl) fun q h => ?_
    by_cases hin : portIn p .fenced q
    · rw [onPort_in hin]
      exact if_neg (by simpa [portAged] using h.resolve_left (not_not.2 hin))
    · exact onPort_out hin

end Sys2Proof.Machine

/-! ## Ring packets, topology messages and enumeration (R671, R678 to R690) -/

namespace Sys2Proof.Machine

/-! ### A packet received (R684, R685) -/

section
variable {p q : Nat} {k : RingPkt} {s : State}

/-- A packet counted and acknowledged. -/
def acked (p : Nat) (k : RingPkt) (s : State) : State := out (.ringAck p k.seq) (received p s)

theorem acked_frame (p : Nat) (k : RingPkt) (s : State) : OutFrame (received p s) (acked p k s) := (OutFrame.refl _).outs _

theorem received_port {β : Type} (g : LinkPort → β) (hg : ∀ (x : LinkPort) (c : PortCounters), g { x with cnt := c } = g x) :
    g (vget (acked p k s).ring.ports q) = g (vget s.ring.ports q) := vget_vmod_congr _ fun x => hg x _

theorem acked_sends (h : sends q s) : sends q (acked p k s) := by
  obtain ⟨hup, hroom⟩ := h
  have hstate : (vget (acked p k s).ring.ports q).state = (vget s.ring.ports q).state := received_port (fun x : LinkPort => x.state) fun _ _ => rfl
  have hunacked : (vget (acked p k s).ring.ports q).unacked = (vget s.ring.ports q).unacked := received_port (fun x : LinkPort => x.unacked) fun _ _ => rfl
  exact ⟨by rw [hstate]; exact hup, by rw [hunacked]; exact hroom⟩

theorem acked_seq : (vget (acked p k s).ring.ports q).nextSeq = (vget s.ring.ports q).nextSeq := received_port (fun x : LinkPort => x.nextSeq) fun _ _ => rfl

/-- A packet of or for this module, and every packet of JM, goes no further. -/
theorem ringReceive_kept (h : p = 2 ∨ s.ring.enumerated = true ∧ (k.dst = s.ring.moduleId ∨ k.src = s.ring.moduleId)) :
    ringReceive p k s = acked p k s := by
  refine if_pos ?_
  rcases h with rfl | ⟨he, hdst | hsrc⟩
  · exact .inl (le_refl 2)
  · exact .inr (.inl (by show (s.ring.enumerated && decide (k.dst = s.ring.moduleId)) = true; simp [he, hdst]))
  · exact .inr (.inr (by show (s.ring.enumerated && decide (k.src = s.ring.moduleId)) = true; simp [he, hsrc]))

/-- A packet with its payload, on its way. -/
def goesOn (p : Nat) (k : RingPkt) (s : State) : State :=
  if k.dst = 0xFE then passOn (1 - p) k s
  else
    match (moduleById s k.dst).bind (routeTo s) with
    | some q => passOn q k s
    | none => s

theorem ringReceive_passing (hp : p < 2) (h : passing k s) :
    ringReceive p k s =
      let r := if k.cls = 1 then forwardTime p k.payload (acked p k s) else (k.payload, acked p k s)
      goesOn p { k with payload := r.1 } r.2 := by
  obtain ⟨he, hdst, hsrc⟩ := h
  refine if_neg ?_
  show ¬ (2 ≤ p ∨ (s.ring.enumerated && decide (k.dst = s.ring.moduleId)) = true ∨ (s.ring.enumerated && decide (k.src = s.ring.moduleId)) = true)
  simp [he, hdst, hsrc, Nat.not_le.2 hp]

theorem ringReceive_goesOn (hp : p < 2) (h : passing k s) (hcls : k.cls ≠ 1) : ringReceive p k s = goesOn p k (acked p k s) := by
  rw [ringReceive_passing hp h, if_neg hcls]

theorem passOn_sends (h : sends q s) (hcls : k.cls ≠ 2) :
    passOn q k s = out (.ringPacket q { k with hops := k.hops + 1, seq := (vget s.ring.ports q).nextSeq }) (sent q { k with hops := k.hops + 1 } s) := by
  obtain ⟨hup, hroom⟩ := h
  have hgo : ¬ ((vget s.ring.ports q).state = .frUp ∧ k.cls = 2) := fun h => hcls h.2
  simp only [passOn, portUp, hup, Bool.not_true, Bool.false_eq_true, if_false, if_neg hgo]
  exact transmit_sends _ hroom

/-- An EDGE packet towards a KL640 is counted and discarded (R681). -/
theorem passOn_discards (hst : (vget s.ring.ports q).state = .frUp) (hcls : k.cls = 2) :
    passOn q k s = setLinkPort q (fun x => { x with cnt := { x.cnt with frDiscards := wrap32 (x.cnt.frDiscards + 1) } }) s := by
  have hup : portUp s q = true := by
    rw [portUp, hst]
    rfl
  simp only [passOn, hup, Bool.not_true, Bool.false_eq_true, if_false, if_pos (And.intro hst hcls)]

theorem goesOn_everywhere (h : k.dst = 0xFE) : goesOn p k s = passOn (1 - p) k s := if_pos h

/-- The way with fewer hops, east on a tie. -/
theorem routeTo_shorter {m : RingModule} (hq : q < 2) (hup : portUp s q = true)
    (h : if q = 0 then m.hopsEast.isSome = true ∧ (m.hopsWest = none ∨ m.hopsEast.getD 0 ≤ m.hopsWest.getD 0)
      else m.hopsWest.isSome = true ∧ (m.hopsEast = none ∨ m.hopsWest.getD 0 < m.hopsEast.getD 0)) : routeTo s m = some q := by
  unfold routeTo
  by_cases hq0 : q = 0
  · subst hq0
    obtain ⟨heast, hless⟩ := h
    obtain ⟨e, he⟩ := Option.isSome_iff_exists.1 heast
    rw [he] at hless ⊢
    cases hw : m.hopsWest with
    | none => exact if_pos hup
    | some w =>
      rw [hw] at hless
      exact if_neg (Nat.not_lt.2 (by simpa using hless))
  · have hq1 : q = 1 := by omega
    subst hq1
    obtain ⟨hwest, hless⟩ := h
    obtain ⟨w, hw⟩ := Option.isSome_iff_exists.1 hwest
    rw [hw] at hless ⊢
    cases he : m.hopsEast with
    | none => exact if_pos hup
    | some e =>
      rw [he] at hless
      exact if_pos (by simpa using hless)

theorem goesOn_routed {m : RingModule} (hdst : k.dst ≠ 0xFE) (hmodules : s.ring.modules = [m]) (hid : m.id = some k.dst) (hroute : routeTo s m = some q) :
    goesOn p k s = passOn q k s := by
  have hfind : moduleById s k.dst = some m := by simp [moduleById, hmodules, hid]
  rw [goesOn, if_neg hdst, hfind]
  show (match routeTo s m with | some q => passOn q k s | none => s) = _
  rw [hroute]

end

/-- A packet with a good CRC on a port that is up. -/
theorem happens_receiving {p : Nat} {k : RingPkt} {cond : State → Prop} {new : State → State} {puts : State → List Emit} (hp : p < 3)
    (hup : ∀ q, cond q → up q ∧ isPortUp (vget q.ring.ports p).state = true)
    (h : ∀ q, q.emit = [] → cond q → OutFrame (new q) (ringReceive p k q) ∧ (new q).bench = q.bench ∧ (new q).pending = q.pending ∧
      puts q ⊆ (ringReceive p k q).emit) : Happens (.ringPacketRx · p k true) cond new [] puts := by
  refine happens_up (parts := []) (fun _ _ => rfl) (fun q hc => ⟨(hup q hc).1, List.forall_mem_nil _⟩) fun q _ he hc => ?_
  obtain ⟨hframe, hbench, hpending, hputs⟩ := h q he hc
  rw [if_pos ⟨hp, (hup q hc).2, rfl⟩]
  exact ⟨hframe, hbench, hpending, List.forall_mem_nil _, hputs⟩

theorem packetRx_kept (p : Nat) (k : RingPkt) (hp : p < 3) : Happens (.ringPacketRx · p k true)
    (fun s => up s ∧ isPortUp (vget s.ring.ports p).state = true ∧
      (p = 2 ∨ s.ring.enumerated = true ∧ (k.dst = s.ring.moduleId ∨ k.src = s.ring.moduleId)))
    (received p) [] (fun _ => [.ringAck p k.seq]) := by
  refine happens_receiving hp (fun _ h => ⟨h.1, h.2.1⟩) fun q _ ⟨_, _, hc⟩ => ?_
  rw [ringReceive_kept hc]
  exact ⟨acked_frame p k q, rfl, rfl, out_puts _ _⟩

/-- A packet that goes on through a port. -/
theorem acked_passesOn {p q : Nat} {k : RingPkt} {s : State} (h : sends q s) (hcls : k.cls ≠ 2) :
    OutFrame (sent q { k with hops := k.hops + 1 } (received p s)) (passOn q k (acked p k s)) ∧
      [.ringAck p k.seq, .ringPacket q { k with hops := k.hops + 1, seq := (vget s.ring.ports q).nextSeq }] ⊆ (passOn q k (acked p k s)).emit := by
  rw [passOn_sends (acked_sends h) hcls, acked_seq]
  refine ⟨(OutFrame.sent (acked_frame p k s) rfl _ _).outs _, ?_⟩
  simp [acked, out, sent, setLinkPort]

theorem packetRx_everywhere (p : Nat) (k : RingPkt) (hp : p < 2) (hdst : k.dst = 0xFE) (htime : k.cls ≠ 1) (hedge : k.cls ≠ 2) :
    Happens (.ringPacketRx · p k true)
      (fun s => up s ∧ isPortUp (vget s.ring.ports p).state = true ∧ passing k s ∧ sends (1 - p) s)
      (fun s => sent (1 - p) { k with hops := k.hops + 1 } (received p s)) []
      (fun s => [.ringAck p k.seq, .ringPacket (1 - p) { k with hops := k.hops + 1, seq := (vget s.ring.ports (1 - p)).nextSeq }]) := by
  refine happens_receiving (Nat.lt_succ_of_lt hp) (fun _ h => ⟨h.1, h.2.1⟩) fun q _ ⟨_, _, hpass, hsends⟩ => ?_
  obtain ⟨hframe, hputs⟩ := acked_passesOn (p := p) hsends hedge
  rw [ringReceive_goesOn hp hpass htime, goesOn_everywhere hdst]
  exact ⟨hframe, sent_bench _ _ _, sent_pending _ _ _, hputs⟩

theorem packetRx_routed (p : Nat) (k : RingPkt) (m : RingModule) (q : Nat) (hp : p < 2) (hq : q < 2) (hdst : k.dst ≠ 0xFE) (htime : k.cls ≠ 1)
    (hedge : k.cls ≠ 2) : Happens (.ringPacketRx · p k true)
      (fun s => up s ∧ isPortUp (vget s.ring.ports p).state = true ∧ passing k s ∧ s.ring.modules = [m] ∧ m.id = some k.dst ∧ sends q s ∧
        (if q = 0 then m.hopsEast.isSome = true ∧ (m.hopsWest = none ∨ m.hopsEast.getD 0 ≤ m.hopsWest.getD 0)
          else m.hopsWest.isSome = true ∧ (m.hopsEast = none ∨ m.hopsWest.getD 0 < m.hopsEast.getD 0)))
      (fun s => sent q { k with hops := k.hops + 1 } (received p s)) [] (fun _ => [.ringAck p k.seq]) := by
  refine happens_receiving (Nat.lt_succ_of_lt hp) (fun _ h => ⟨h.1, h.2.1⟩) fun r _ ⟨_, _, hpass, hmodules, hid, hsends, hshort⟩ => ?_
  obtain ⟨hframe, hputs⟩ := acked_passesOn (p := p) (k := k) hsends hedge
  have hroute : routeTo (acked p k r) m = some q := routeTo_shorter hq (acked_sends hsends).1 hshort
  rw [ringReceive_goesOn hp hpass htime, goesOn_routed (s := acked p k r) hdst hmodules hid hroute]
  exact ⟨hframe, sent_bench _ _ _, sent_pending _ _ _, List.cons_subset.2 ⟨(List.cons_subset.1 hputs).1, List.nil_subset _⟩⟩

theorem packetRx_discards (p : Nat) (k : RingPkt) (hp : p < 2) (hdst : k.dst = 0xFE) (hedge : k.cls = 2) : Happens (.ringPacketRx · p k true)
    (fun s => up s ∧ isPortUp (vget s.ring.ports p).state = true ∧ passing k s ∧ (vget s.ring.ports (1 - p)).state = .frUp)
    (fun s => setLinkPort (1 - p) (fun x => { x with cnt := { x.cnt with frDiscards := wrap32 (x.cnt.frDiscards + 1) } }) (received p s)) []
    (fun _ => [.ringAck p k.seq]) := by
  refine happens_receiving (Nat.lt_succ_of_lt hp) (fun _ h => ⟨h.1, h.2.1⟩) fun q _ ⟨_, _, hpass, hfr⟩ => ?_
  have hst : (vget (acked p k q).ring.ports (1 - p)).state = .frUp := (received_port (fun x : LinkPort => x.state) fun _ _ => rfl).trans hfr
  rw [ringReceive_goesOn hp hpass (by rw [hedge]; decide), goesOn_everywhere hdst, passOn_discards hst hedge]
  exact ⟨(acked_frame p k q).setLinkPort _ _, rfl, rfl, out_puts _ _⟩

/-- A TIME message with its residence time and the delay of its link added (R671). -/
def delayed (d p : Nat) (k : RingPkt) (s : State) : RingPkt :=
  { k with payload := k.payload.take 16 ++ leI 8 (s64 k.payload 16 + ((d + linkDelay s p : Nat) : Int) * 65536) ++ k.payload.drop 24 }

theorem ringReceive_time {p : Nat} {k : RingPkt} {s : State} (hp : p < 2) (hpass : passing k s) (htime : k.cls = 1) :
    ∃ d, d < 801 ∧ ringReceive p k s = goesOn p (delayed d p k s) { acked p k s with free := s.free + 1 } := by
  refine ⟨Config.freeValue s.free % 801, Nat.mod_lt _ (by decide), ?_⟩
  rw [ringReceive_passing hp hpass, if_pos htime]
  rfl

theorem packetRx_delays (t : Nat) (s : State) (p : Nat) (k : RingPkt) (hi : s.Inv) (hup : up s) (hp : p < 2) (hdst : k.dst = 0xFE) (htime : k.cls = 1)
    (hport : isPortUp (vget s.ring.ports p).state = true) (hpass : passing k s) (hsends : sends (1 - p) s) :
    Next (.ringPacketRx t p k true) s fun r =>
      (∃ d, d < 801 ∧ OutFrame (sent (1 - p) { k with
          hops := k.hops + 1
          payload := k.payload.take 16 ++ leI 8 (s64 k.payload 16 + ((d + linkDelay s p : Nat) : Int) * 65536) ++ k.payload.drop 24 }
        (received p { tick t s with free := s.free + 1 })) r) := by
  obtain ⟨d, hd, hreceive⟩ := ringReceive_time (s := tick t s) hp hpass htime
  have hfree : sends (1 - p) { acked p k (tick t s) with free := s.free + 1 } := acked_sends (k := k) (s := tick t s) hsends
  have hcls : (delayed d p k (tick t s)).cls ≠ 2 := by
    rw [show (delayed d p k (tick t s)).cls = k.cls from rfl, htime]
    decide
  have hgo := hreceive.trans ((goesOn_everywhere (p := p) (k := delayed d p k (tick t s)) hdst).trans (passOn_sends hfree hcls))
  have hif : (if p < 3 ∧ portUp (tick t s) p = true ∧ true = true then ringReceive p k (tick t s) else tick t s) = ringReceive p k (tick t s) :=
    if_pos ⟨Nat.lt_succ_of_lt hp, hport, rfl⟩
  refine next_up (parts := []) (f := fun s => if p < 3 ∧ portUp s p = true ∧ true = true then ringReceive p k s else s) rfl hi hup (List.forall_mem_nil _) ?_ ?_
  · rw [hif, hgo]
    exact ⟨rfl, rfl, rfl, rfl, rfl⟩
  · rw [hif, hgo]
    exact ⟨d, hd, (OutFrame.sent (a := received p { tick t s with free := s.free + 1 }) (b := { acked p k (tick t s) with free := s.free + 1 }) rfl rfl _ _).outs _⟩

/-! ### Acknowledgements (R684) -/

section
variable {p n : Nat} {u : Unacked} {s : State}

theorem setLinkPort_congr {f g : LinkPort → LinkPort} (h : f (vget s.ring.ports p) = g (vget s.ring.ports p)) : setLinkPort p f s = setLinkPort p g s := by
  simp only [setLinkPort, vmod, h]

theorem unacked_found (hn : u.pkt.seq = n) (h : (vget s.ring.ports p).unacked = [u]) :
    ((vget s.ring.ports p).unacked.find? fun u => decide (u.pkt.seq = n)) = some u := by
  simp [h, hn]

/-- The port with no packet unacknowledged. -/
def settledPort (p : Nat) (s : State) : State := setLinkPort p (fun x => { x with unacked := [] }) s

theorem settledPort_waiting : (vget (settledPort p s).ring.ports p).waiting = (vget s.ring.ports p).waiting :=
  vget_vmod_congr (g := fun x : LinkPort => x.waiting) _ fun _ => rfl

/-- The next packet that waits on a port goes out. -/
def waitingGoes (p : Nat) (s : State) : State :=
  match (vget s.ring.ports p).waiting with
  | k :: rest => transmit p k (setLinkPort p (fun x => { x with waiting := rest }) s)
  | [] => s

theorem packetAcked_one (hn : u.pkt.seq = n) (h : (vget s.ring.ports p).unacked = [u]) :
    packetAcked p n s = waitingGoes p (if u.retried then raiseOnce 0x3E5 0 0 (countTransient 5 (settledPort p s)) else settledPort p s) := by
  have hdropped : setLinkPort p (fun x => { x with unacked := x.unacked.filter fun v => decide (v.pkt.seq ≠ n) }) s = settledPort p s :=
    setLinkPort_congr (by simp [h, hn])
  simp only [packetAcked, unacked_found hn h, hdropped]
  rfl

theorem waitingGoes_none (h : (vget s.ring.ports p).waiting = []) : waitingGoes p s = s := by
  unfold waitingGoes
  rw [h]

theorem waitingGoes_next {k : RingPkt} {ks : List RingPkt} (h : (vget s.ring.ports p).waiting = k :: ks) :
    waitingGoes p s = transmit p k (setLinkPort p (fun x => { x with waiting := ks }) s) := by
  unfold waitingGoes
  rw [h]

theorem packetAcked_none (h : ∀ u ∈ (vget s.ring.ports p).unacked, u.pkt.seq ≠ n) : packetAcked p n s = s := by
  have hnone : ((vget s.ring.ports p).unacked.find? fun u => decide (u.pkt.seq = n)) = none := by
    simpa [List.find?_eq_none] using h
  simp only [packetAcked, hnone]

end

/-- An acknowledgement on a port that is up. -/
theorem happens_acked {p n : Nat} {cond : State → Prop} {new : State → State} {evs : List Nat} {puts : State → List Emit} (hp : p < 3)
    (hup : ∀ q, cond q → up q ∧ isPortUp (vget q.ring.ports p).state = true)
    (h : ∀ q, cond q → OutFrame (new q) (packetAcked p n q) ∧ (new q).bench = q.bench ∧ (new q).pending = q.pending ∧
      (∀ e ∈ evs, bitOf (packetAcked p n q).host.evt.pending e = true) ∧ puts q ⊆ (packetAcked p n q).emit) :
    Happens (.ringAckRx · p n) cond new evs puts := by
  refine happens_up (parts := []) (fun _ _ => rfl) (fun q hc => ⟨(hup q hc).1, List.forall_mem_nil _⟩) fun q _ _ hc => ?_
  rw [if_pos ⟨hp, (hup q hc).2⟩]
  exact h q hc

theorem ringAckRx_frees (p n : Nat) (u : Unacked) (hp : p < 3) (hn : u.pkt.seq = n) : Happens (.ringAckRx · p n)
    (fun s => up s ∧ isPortUp (vget s.ring.ports p).state = true ∧ (vget s.ring.ports p).unacked = [u] ∧ u.retried = false ∧ (vget s.ring.ports p).waiting = [])
    (settledPort p) [] noPuts := by
  refine happens_acked hp (fun _ h => ⟨h.1, h.2.1⟩) fun q ⟨_, _, hone, hfirst, hnone⟩ => ?_
  rw [packetAcked_one hn hone, hfirst, if_neg (by decide), waitingGoes_none (settledPort_waiting.trans hnone)]
  exact ⟨rfl, rfl, rfl, List.forall_mem_nil _, List.nil_subset _⟩

/-- A retry that succeeded, counted. -/
def retryCounted (s : State) : State := { s with faults := { s.faults with cnt := { s.faults.cnt with ring := s.faults.cnt.ring + 1 } } }

theorem countTransient_ring (s : State) : countTransient 5 s = raiseOnce 0x004 5 0 (retryCounted s) := rfl

theorem ringAckRx_countsRetry (p n : Nat) (u : Unacked) (hp : p < 3) (hn : u.pkt.seq = n) : Happens (.ringAckRx · p n)
    (fun s => up s ∧ isPortUp (vget s.ring.ports p).state = true ∧ (vget s.ring.ports p).unacked = [u] ∧ u.retried = true ∧
      (vget s.ring.ports p).waiting = [] ∧ firstIn 0x004 (currentStrip s) s ∧ firstIn 0x3E5 (currentStrip s) s)
    (fun s => settledPort p (retryCounted s)) [0x004, 0x3E5] noPuts := by
  refine happens_acked hp (fun _ h => ⟨h.1, h.2.1⟩) fun q ⟨hup, _, hone, hretried, hnone, hfirst, hsecond⟩ => ?_
  have h1 := raiseOnce_frame 0x004 5 0 (retryCounted (settledPort p q))
  have h2 := raiseOnce_frame 0x3E5 0 0 (raiseOnce 0x004 5 0 (retryCounted (settledPort p q)))
  have hframe : OutFrame (settledPort p (retryCounted q)) (raiseOnce 0x3E5 0 0 (raiseOnce 0x004 5 0 (retryCounted (settledPort p q)))) := h1.trans h2
  have hwaits : (vget (raiseOnce 0x3E5 0 0 (raiseOnce 0x004 5 0 (retryCounted (settledPort p q)))).ring.ports p).waiting = [] := by
    rw [hframe.ring]
    exact (settledPort_waiting (s := q)).trans hnone
  have hstrip : currentStrip (raiseOnce 0x004 5 0 (retryCounted (settledPort p q))) = currentStrip q := congrArg Gauge.lastStrip h1.gauge
  rw [packetAcked_one hn hone, hretried, if_pos rfl, countTransient_ring, waitingGoes_none hwaits]
  refine ⟨hframe, rfl, rfl, List.forall_mem_cons.2 ⟨raiseOnce_keeps _ _ _ (raiseOnce_sets hup hfirst), List.forall_mem_singleton.2 (raiseOnce_sets ?_ ?_)⟩,
    List.nil_subset _⟩
  · exact h1.hf_fabric.trans hup
  · rw [hstrip]
    exact firstIn_raiseOnce (by decide) hsecond

theorem ringAckRx_sendsNext (p n : Nat) (u : Unacked) (k : RingPkt) (ks : List RingPkt) (hp : p < 3) (hn : u.pkt.seq = n) (hfirst : u.retried = false) :
    Happens (.ringAckRx · p n)
      (fun s => up s ∧ isPortUp (vget s.ring.ports p).state = true ∧ (vget s.ring.ports p).unacked = [u] ∧ (vget s.ring.ports p).waiting = k :: ks)
      (fun s => sent p k (setLinkPort p (fun x => { x with unacked := [], waiting := ks }) s)) []
      (fun s => [.ringPacket p { k with seq := (vget s.ring.ports p).nextSeq }]) := by
  refine happens_acked hp (fun _ h => ⟨h.1, h.2.1⟩) fun q ⟨_, _, hone, hwaits⟩ => ?_
  let r := setLinkPort p (fun x => { x with unacked := [], waiting := ks }) q
  have hseq : (vget r.ring.ports p).nextSeq = (vget q.ring.ports p).nextSeq := vget_vmod_congr (g := fun x : LinkPort => x.nextSeq) _ fun _ => rfl
  have hroom : (vget r.ring.ports p).unacked.length < 256 := by
    rw [show r.ring.ports = vmod q.ring.ports p (fun x => { x with unacked := [], waiting := ks }) from rfl, vget_vmod_self _ _ _ hp]
    exact Nat.zero_lt_succ _
  have hboth : setLinkPort p (fun x => { x with waiting := ks }) (settledPort p q) = r := setLinkPort_setLinkPort _ _
  rw [packetAcked_one hn hone, hfirst, if_neg (by decide), waitingGoes_next (settledPort_waiting.trans hwaits), hboth, transmit_sends _ hroom, hseq]
  exact ⟨(OutFrame.refl _).outs _, sent_bench _ _ _, sent_pending _ _ _, List.forall_mem_nil _, out_puts _ _⟩

theorem ringAckRx_strange (p n : Nat) : Exactly (.ringAckRx · p n) (fun s => ∀ u ∈ (vget s.ring.ports p).unacked, u.pkt.seq ≠ n) id := by
  refine exactly_still (fun _ _ => rfl) fun q h => ?_
  rw [packetAcked_none h, ite_self]

/-! ### A packet that is not acknowledged (R684, R720) -/

/-- Nothing but the ring unit, the outputs and the event block differ. -/
def Ringed (a b : State) : Prop := OutFrame { a with ring := b.ring } b

section
variable {a b c : State}

theorem OutFrame.ringed (h : OutFrame a b) : Ringed a b := by
  unfold Ringed OutFrame at *
  rw [h]

theorem Ringed.trans (h : Ringed a b) (h' : Ringed b c) : Ringed a c := by
  unfold Ringed OutFrame at *
  rw [h] at h'
  exact h'

theorem Ringed.upholds (h : Ringed a b) (hup : up a) : up b := (show OutFrame { a with ring := b.ring } b from h).hf_fabric.trans hup

end

section
variable {p q : Nat} {k : RingPkt} {s : State}

/-- What a packet handed to another port leaves of a port, and of the module. -/
structure Elsewhere (p : Nat) (s r : State) : Prop where
  frame : Ringed s r
  port : vget r.ring.ports p = vget s.ring.ports p
  evt : r.host.evt.pending = s.host.evt.pending
  now : r.now = s.now

theorem transmit_elsewhere (hq : p ≠ q) (k : RingPkt) (s : State) : Elsewhere p s (transmit q k s) := by
  unfold transmit
  simp only
  split
  · exact ⟨rfl, vget_vmod_ne _ _ _ _ hq, rfl, rfl⟩
  · exact ⟨rfl, vget_vmod_ne _ _ _ _ hq, rfl, rfl⟩

theorem Elsewhere.refl (s : State) : Elsewhere p s s := ⟨rfl, rfl, rfl, rfl⟩

theorem Elsewhere.outs (e : Emit) (s : State) : Elsewhere p s (out e s) := ⟨rfl, rfl, rfl, rfl⟩

theorem Elsewhere.trans {a b c : State} (h : Elsewhere p a b) (h' : Elsewhere p b c) : Elsewhere p a c :=
  ⟨h.frame.trans h'.frame, h'.port.trans h.port, h'.evt.trans h.evt, h'.now.trans h.now⟩

/-- What a fold leaves of the port that fell, and of the module. -/
theorem foldRing_frame {old : LinkPort} (hrelays : noRelays s) : Elsewhere p (foldSignalled p s) (foldRing p old s) := by
  have hne := (otherPort_ne p).symm
  rw [foldRing_raises hrelays]
  split
  · refine List.foldlRecOn (motive := fun r : State => Elsewhere p (foldSignalled p s) r) _ _ (.outs _ _) fun r hr k _ => ?_
    exact hr.trans (transmit_elsewhere hne _ r)
  · exact .refl _

/-- A port that has fallen into FENCED, and what that leaves of the module. -/
structure FallenFenced (p : Nat) (s r : State) : Prop where
  frame : Ringed s r
  state : (vget r.ring.ports p).state = .fenced
  cause : (vget r.ring.ports p).cause = .fenced
  unacked : (vget r.ring.ports p).unacked = []
  fences : (vget r.ring.ports p).cnt.fences = (vget s.ring.ports p).cnt.fences
  pending : up s → bitOf r.host.evt.pending (0x3E0 + p) = true
  now : r.now = s.now

theorem fallen_fenced (hp : p < 3) : FallenFenced p s (raise (0x3E0 + p) 0 0 (fallen p .fenced .fenced 0 s)) := by
  have hframe := raise_frame (0x3E0 + p) 0 0 (fallen p .fenced .fenced 0 s)
  have hport := (congrArg (fun r : RingUnit => vget r.ports p) hframe.ring).trans (vget_vmod_self s.ring.ports p _ hp)
  exact ⟨Ringed.trans (b := fallen p .fenced .fenced 0 s) rfl hframe.ringed, congrArg LinkPort.state hport, congrArg LinkPort.cause hport,
    congrArg LinkPort.unacked hport, (congrArg (fun x : LinkPort => x.cnt.fences) hport :), fun hup => raise_sets _ _ _ hup, raise_now _ _ _ _⟩

theorem FallenFenced.folds {r : State} (h : FallenFenced p s r) (hp : p < 3) : FallenFenced p s (foldSignalled p r) := by
  have hframe := foldSignalled_frame p r
  have hport : vget (foldSignalled p r).ring.ports p = { vget r.ring.ports p with
      cnt := { (vget r.ring.ports p).cnt with folds := wrap32 ((vget r.ring.ports p).cnt.folds + 1) } } := by
    rw [hframe.ring]
    exact vget_vmod_self r.ring.ports p _ hp
  exact ⟨h.frame.trans (Ringed.trans (b := foldedAt p r) rfl hframe.ringed), (congrArg LinkPort.state hport).trans h.state,
    (congrArg LinkPort.cause hport).trans h.cause, (congrArg LinkPort.unacked hport).trans h.unacked,
    (congrArg (fun x : LinkPort => x.cnt.fences) hport).trans h.fences, fun hup => foldSignalled_keeps (h.pending hup), (foldSignalled_now p r).trans h.now⟩

theorem FallenFenced.elsewhere {r q : State} (h : FallenFenced p s r) (h' : Elsewhere p r q) : FallenFenced p s q :=
  ⟨h.frame.trans h'.frame, by rw [h'.port, h.state], by rw [h'.port, h.cause], by rw [h'.port, h.unacked], by rw [h'.port, h.fences],
    fun hup => by rw [h'.evt, h.pending hup], h'.now.trans h.now⟩

/-- A port falls into FENCED, whether it was up and the ring folds, or not. -/
theorem portFalls_fenced (hp : p < 3) (hrelays : noRelays s) : FallenFenced p s (portFalls p .fenced .fenced s) := by
  have hone := fallen_fenced (s := s) hp
  have hn : (if isPortUp (vget s.ring.ports p).state && decide (PortState.fenced = .down) then 1 else 0) = 0 := if_neg (by simp)
  rw [portFalls_raises, hn]
  split
  · have hnone : noRelays (raise (0x3E0 + p) 0 0 (fallen p .fenced .fenced 0 s)) := by
      rw [noRelays, (raise_frame _ _ _ _).ring]
      exact hrelays
    exact (hone.folds hp).elsewhere (foldRing_frame hnone)
  · exact hone

end

/-! ### A fence and its entry (R718 to R720) -/

section
variable {e : FaultEntry} {s : State}

theorem OutFrame.withFaults {a b : State} (h : OutFrame a b) (f : Faults) : OutFrame { a with faults := f } { b with faults := f } := by
  unfold OutFrame at *
  rw [h]

theorem takeLast_last {α : Type} (n : Nat) (hn : 0 < n) (l : List α) (x : α) : (takeLast n (l ++ [x])).getLast? = some x := by
  have hlen : ¬ (l ++ [x]).length ≤ (l ++ [x]).length - n := by
    rw [List.length_append, List.length_singleton]
    omega
  rw [takeLast, List.getLast?_drop, if_neg hlen, List.getLast?_concat]

/-- The entry of the fault log that a fault is kept as. -/
def entryOf (e : FaultEntry) (s : State) : FaultEntry :=
  { e with
    num := s.faults.nextEntry
    persistent := persistentClass e.cls
    stime := shortTime s
    seconds := s.time.clock.seconds
    ns := s.time.clock.ns
    strip := currentStrip s }

/-- What a fault leaves: its entry is the last of the log, its event is raised, and nothing else of the module changes. -/
structure Logged (e : FaultEntry) (s r : State) : Prop where
  frame : OutFrame { s with faults := r.faults, hf := { s.hf with alert := true } } r
  last : r.faults.log.getLast? = some (entryOf e s)
  sets : up s → bitOf r.host.evt.pending 0x008 = true
  keeps : ∀ x, bitOf s.host.evt.pending x = true → bitOf r.host.evt.pending x = true
  now : r.now = s.now

theorem logFault_logged (e : FaultEntry) (s : State) : Logged e s (logFault e s).2 := by
  let f : Faults := { s.faults with
    log := takeLast 256 (s.faults.log ++ [entryOf e s])
    flash := if persistentClass e.cls then takeLast 64 (s.faults.flash ++ [entryOf e s]) else s.faults.flash
    nextEntry := if s.faults.nextEntry = 65535 then 1 else s.faults.nextEntry + 1 }
  have hlog : (logFault e s).2 = raise 0x008 s.faults.nextEntry e.cls { s with faults := f, hf := { s.hf with alert := true } } := rfl
  have hframe := raise_frame 0x008 s.faults.nextEntry e.cls { s with faults := f, hf := { s.hf with alert := true } }
  rw [hlog]
  refine ⟨?_, ?_, fun hup => raise_sets _ _ _ hup, fun x hx => raise_keeps _ _ _ hx, raise_now _ _ _ _⟩
  · rw [hframe.faults]
    exact hframe
  · rw [hframe.faults]
    simp only [f, takeLast_last 256 (by decide)]

/-- What a fence leaves: as a fault, and the unit is fenced. -/
structure FenceSet (e : FaultEntry) (s r : State) : Prop where
  logged : Logged { e with cls := 2 } s r
  fenced : fenceOf r e.unit e.index ≠ none
  signalled : up s → bitOf r.host.evt.pending 0x003 = true

theorem fenceUnit_sets (e : FaultEntry) (s : State) : FenceSet e s (fenceUnit e s).2 := by
  let q := (logFault { e with cls := 2 } s).2
  let n := (logFault { e with cls := 2 } s).1
  let f : Faults := { q.faults with fences := q.faults.fences ++ [⟨e.unit, e.index, n⟩], cnt := { q.faults.cnt with fences := q.faults.cnt.fences + 1 } }
  have hlogged : Logged { e with cls := 2 } s q := logFault_logged _ s
  have hframe := raise_frame 0x003 n (e.unit * 65536 + e.index) { q with faults := f }
  have hfence : (fenceUnit e s).2 = raise 0x003 n (e.unit * 65536 + e.index) { q with faults := f } := rfl
  have hup (h : up s) : up q := hlogged.frame.hf_fabric.trans h
  rw [hfence]
  refine ⟨⟨?_, ?_, fun h => raise_keeps _ _ _ (hlogged.sets h), fun x hx => raise_keeps _ _ _ (hlogged.keeps x hx),
    (raise_now _ _ _ _).trans hlogged.now⟩, ?_, fun h => raise_sets _ _ _ (hup h)⟩
  · rw [hframe.faults]
    exact (hlogged.frame.withFaults f).trans hframe
  · rw [hframe.faults]
    exact hlogged.last
  · unfold fenceOf
    rw [hframe.faults]
    simp [f, List.find?_append]

end

/-! ### The time limit of an acknowledgement -/

section
variable {p n : Nat} {u : Unacked} {s : State}

theorem ackTimeout_due (hn : u.pkt.seq = n) (hone : (vget s.ring.ports p).unacked = [u]) (hage : u.sentAt + 20000 ≤ s.now) :
    ackTimeout p n s = packetFails p n s := by
  simp only [ackTimeout, unacked_found hn hone, if_pos hage]

theorem ackTimeout_early (hn : u.pkt.seq = n) (hone : (vget s.ring.ports p).unacked = [u]) (hage : s.now < u.sentAt + 20000) : ackTimeout p n s = s := by
  simp only [ackTimeout, unacked_found hn hone, if_neg (Nat.not_le.2 hage)]

/-- The one packet of a port sent once more. -/
def sentAgain (p : Nat) (u : Unacked) (s : State) : State :=
  setLinkPort p (fun x => { x with
    unacked := [{ u with retried := true, sentAt := s.now }]
    cnt := { x.cnt with crcRetries := wrap32 (x.cnt.crcRetries + 1), tx := wrap32 (x.cnt.tx + 1) } }) s

theorem packetFails_retries (hn : u.pkt.seq = n) (hone : (vget s.ring.ports p).unacked = [u]) (hfirst : u.retried = false) :
    packetFails p n s = out (.ringPacket p u.pkt) (sentAgain p u s) := by
  simp only [packetFails, unacked_found hn hone, hfirst, Bool.false_eq_true, if_false]
  exact congrArg (out _) (setLinkPort_congr (by simp [hone, hn]))

theorem packetFails_fences (hn : u.pkt.seq = n) (hone : (vget s.ring.ports p).unacked = [u]) (hretried : u.retried = true) :
    packetFails p n s = fencePort p u.pkt s := by
  simp only [packetFails, unacked_found hn hone, hretried, if_true]

end

theorem ringAckTimeout_retries (p n : Nat) (u : Unacked) (hp : p < 3) (hn : u.pkt.seq = n) (hfirst : u.retried = false) : Happens (.ringAckTimeout · p n)
    (fun s => up s ∧ (vget s.ring.ports p).unacked = [u] ∧ u.sentAt + 20000 ≤ s.now) (sentAgain p u) [] (fun _ => [.ringPacket p u.pkt]) := by
  refine happens_up (parts := []) (fun _ _ => rfl) (fun _ h => ⟨h.1, List.forall_mem_nil _⟩) fun q _ _ ⟨_, hone, hage⟩ => ?_
  rw [if_pos hp, ackTimeout_due hn hone hage, packetFails_retries hn hone hfirst]
  exact ⟨(OutFrame.refl _).outs _, rfl, rfl, List.forall_mem_nil _, out_puts _ _⟩

/-- The fault that a port of the ring is fenced for. -/
def portFault (p : Nat) (k : RingPkt) : FaultEntry := { unit := 0x0F, index := p, cause := 1, detail := le 1 k.cls ++ zeros 3 ++ le 4 k.seq }

/-- The port with one fence more counted. -/
def fenceCounted (p : Nat) (s : State) : State := setLinkPort p (fun x => { x with cnt := { x.cnt with fences := wrap32 (x.cnt.fences + 1) } }) s

theorem ringAckTimeout_fences (t : Nat) (s : State) (p n : Nat) (u : Unacked) (hi : s.Inv) (hup : up s) (hp : p < 3) (hn : u.pkt.seq = n)
    (hretried : u.retried = true) (hone : (vget s.ring.ports p).unacked = [u]) (hrelays : noRelays s) (hage : u.sentAt + 20000 ≤ max s.now t) :
    Next (.ringAckTimeout t p n) s fun r =>
      (vget r.ring.ports p).state = .fenced ∧ (vget r.ring.ports p).cause = .fenced ∧ (vget r.ring.ports p).unacked = [] ∧
      (vget r.ring.ports p).cnt.fences = wrap32 ((vget s.ring.ports p).cnt.fences + 1) ∧ fenceOf r 0x0F p ≠ none ∧
      bitOf r.host.evt.pending (0x3E0 + p) = true ∧ bitOf r.host.evt.pending 0x003 = true ∧ bitOf r.host.evt.pending 0x008 = true ∧
      (∃ e, r.faults.log.getLast? = some e ∧ e.cls = 2 ∧ e.unit = 0x0F ∧ e.index = p ∧ e.cause = 1 ∧ e.strip = s.gauge.lastStrip) ∧
      r.bench.mem = s.bench.mem ∧ r.ledger = s.ledger ∧ r.running = s.running := by
  let q := tick t s
  let f := portFalls p .fenced .fenced (fenceCounted p q)
  let r := (fenceUnit (portFault p u.pkt) f).2
  have hgo : (if p < 3 then ackTimeout p n else id) q = r := by
    rw [if_pos hp, ackTimeout_due (s := q) hn hone hage, packetFails_fences (s := q) hn hone hretried]
    rfl
  have hcounted : vget (fenceCounted p q).ring.ports p = _ := vget_vmod_self s.ring.ports p (fun x => { x with cnt := { x.cnt with fences := wrap32 (x.cnt.fences + 1) } }) hp
  have hfall : FallenFenced p (fenceCounted p q) f := portFalls_fenced hp hrelays
  have hset : FenceSet (portFault p u.pkt) f r := fenceUnit_sets _ f
  have hfframe : OutFrame { fenceCounted p q with ring := f.ring } f := hfall.frame
  have hframe := hset.logged.frame
  have hfup : up f := hfall.frame.upholds hup
  have hbench : r.bench = q.bench := hframe.bench.trans hfframe.bench
  refine next_up (parts := []) (f := if p < 3 then ackTimeout p n else id) rfl hi hup (List.forall_mem_nil _) ?_ ?_
  · rw [hgo]
    exact ⟨hset.logged.now.trans hfall.now, hframe.pending.trans hfframe.pending, congrArg Bench.mem hbench, congrArg Bench.writes hbench,
      congrArg Bench.emptied hbench⟩
  · rw [hgo, hframe.ring]
    refine ⟨hfall.state, hfall.cause, hfall.unacked, ?_, hset.fenced, hset.logged.keeps _ (hfall.pending hup), hset.signalled hfup, hset.logged.sets hfup,
      ⟨_, hset.logged.last, rfl, rfl, rfl, rfl, congrArg Gauge.lastStrip hfframe.gauge⟩, (congrArg Bench.mem hbench :), hframe.ledger.trans hfframe.ledger,
      hframe.running.trans hfframe.running⟩
    rw [hfall.fences, hcounted]

/-! ### Topology messages (R687, R688) -/

section
variable {ms : List RingModule} {folded : Bool} {s : State}

/-- The modules that a message names, none through a port that is down. -/
def reached (ms : List RingModule) (s : State) : List RingModule :=
  let ms := if portUp s 0 then ms else dropRoutes 0 ms
  if portUp s 1 then ms else dropRoutes 1 ms

/-- The state with the routes of a message, before the fold is reported. -/
def rerouted (ms : List RingModule) (folded : Bool) (s : State) : State := setRoutes (reached ms s) { s with ring := { s.ring with folded := folded } }

theorem rerouted_frame : OutFrame { s with ring := { s.ring with modules := reached ms s, folded := folded } } (rerouted ms folded s) := setRoutes_frame _ _

/-- With no relay open a message sets the routes, and a change of FOLDED is reported. -/
theorem takeTopology_sets (h : noRelays s) :
    takeTopology ms folded s = if s.ring.folded != folded then raise 0x3E3 0 0 (rerouted ms folded s) else rerouted ms folded s := by
  have hnone : noRelays (rerouted ms folded s) := by
    rw [noRelays, rerouted_frame.ring]
    exact h
  have hsources : (if s.ring.folded != folded then raise 0x3E3 0 0 (rerouted ms folded s) else rerouted ms folded s).ring.sources = [] := by
    split
    · rw [(raise_frame _ _ _ _).ring]
      exact hnone.2
    · exact hnone.2
  show (if s.ring.folded != folded then raise 0x3E3 0 0 (stallRelays (rerouted ms folded s)) else stallRelays (rerouted ms folded s)).ring.sources.foldl
    (fun s r => relaySend r.srcQueue s)
    (if s.ring.folded != folded then raise 0x3E3 0 0 (stallRelays (rerouted ms folded s)) else stallRelays (rerouted ms folded s)) = _
  rw [stallRelays_none hnone, hsources, List.foldl_nil]

theorem takeTopology_frame (h : noRelays s) :
    OutFrame { s with ring := { s.ring with modules := reached ms s, folded := folded } } (takeTopology ms folded s) := by
  rw [takeTopology_sets h]
  split
  · exact rerouted_frame.trans (raise_frame _ _ _ _)
  · exact rerouted_frame

/-- A module becomes reachable where none was. -/
theorem setRoutes_raises {m : RingModule} (hup : up s) (hnone : s.ring.modules = []) (hm : m ∈ ms) (hroute : hasRoute m = true) :
    bitOf (setRoutes ms s).host.evt.pending 0x3E4 = true := by
  have hnew : (reachableSerials ms).all (reachableSerials ([] : List RingModule)).contains = false := by
    rw [List.all_eq_false]
    exact ⟨m.serial, List.mem_map.2 ⟨m, List.mem_filter.2 ⟨hm, hroute⟩, rfl⟩, by simp [reachableSerials]⟩
  unfold setRoutes
  simp only [hnone, hnew, Bool.and_false, Bool.false_eq_true, if_false]
  exact raise_sets _ _ _ hup

end

theorem topology_closes (ms : List RingModule) (f : Bool) : Happens (.ringTopologyMessage · ms f)
    (fun s => up s ∧ noRelays s ∧ isPortUp (vget s.ring.ports 0).state = true ∧ isPortUp (vget s.ring.ports 1).state = true ∧ s.ring.folded ≠ f ∧
      s.ring.modules = [] ∧ ∃ m ∈ ms, hasRoute m = true)
    (fun s => { s with ring := { s.ring with modules := ms, folded := f } }) [0x3E3, 0x3E4] noPuts := by
  refine happens_up (parts := []) (fun _ _ => rfl) (fun _ h => ⟨h.1, List.forall_mem_nil _⟩) fun q _ _ hc => ?_
  obtain ⟨hup, hrelays, heast, hwest, hchanged, hnone, m, hm, hroute⟩ := hc
  have hreached : reached ms q = ms := by simp only [reached, portUp, heast, hwest, if_true]
  have hframe := takeTopology_frame (ms := ms) (folded := f) hrelays
  have hraises : takeTopology ms f q = raise 0x3E3 0 0 (rerouted ms f q) := by rw [takeTopology_sets hrelays, if_pos (bne_iff_ne.2 hchanged)]
  have hfirst : bitOf (rerouted ms f q).host.evt.pending 0x3E4 = true := by
    rw [rerouted, hreached]
    exact setRoutes_raises hup hnone hm hroute
  rw [hreached] at hframe
  refine ⟨hframe, rfl, rfl, ?_, List.nil_subset _⟩
  rw [hraises]
  exact List.forall_mem_cons.2 ⟨raise_sets _ _ _ (rerouted_frame.hf_fabric.trans hup), List.forall_mem_singleton.2 (raise_keeps _ _ _ hfirst)⟩

theorem topology_east (ms : List RingModule) (f : Bool) : Happens (.ringTopologyMessage · ms f)
    (fun s => up s ∧ noRelays s ∧ isPortUp (vget s.ring.ports 0).state = false ∧ isPortUp (vget s.ring.ports 1).state = true)
    (fun s => { s with ring := { s.ring with modules := ms.map (fun m => { m with hopsEast := none }), folded := f } }) [] noPuts := by
  refine happens_up (parts := []) (fun _ _ => rfl) (fun _ h => ⟨h.1, List.forall_mem_nil _⟩) fun q _ _ hc => ?_
  obtain ⟨_, hrelays, heast, hwest⟩ := hc
  have hreached : reached ms q = ms.map fun m => { m with hopsEast := none } := by
    simp only [reached, portUp, heast, hwest, if_true, Bool.false_eq_true, if_false]
    rfl
  have hframe := takeTopology_frame (ms := ms) (folded := f) hrelays
  rw [hreached] at hframe
  exact ⟨hframe, rfl, rfl, List.forall_mem_nil _, List.nil_subset _⟩

/-! ### Enumeration (R678, R679) -/

section
variable {s : State}

theorem afterEnumeration_other (h : s.boot.stage ≠ 8) : afterEnumeration s = s := by simp [afterEnumeration, h]

/-- The modules that enumeration numbers: this one and those that it reaches. -/
def ringMembers (s : State) : List RingModule := selfModule s :: s.ring.modules.filter hasRoute

theorem enumeratorOf_none {l : List RingModule} (h : ∀ m ∈ l, m.gateway = false) : enumeratorOf l = none := by
  induction l with
  | nil => rfl
  | cons m l ih =>
    rw [enumeratorOf, ih fun x hx => h x (List.mem_cons_of_mem _ hx), h m List.mem_cons_self]
    rfl

theorem enumerate_noGateway (hself : s.ring.gateway = false) (hothers : ∀ m ∈ s.ring.modules, m.gateway = false) : enumerate s = s := by
  have hnone : enumeratorOf (selfModule s :: s.ring.modules.filter hasRoute) = none :=
    enumeratorOf_none (List.forall_mem_cons.2 ⟨hself, fun m hm => hothers m (List.mem_of_mem_filter hm)⟩)
  simp only [enumerate, hnone]

/-- The IDs that an enumerator assigns. -/
def assigned (e : RingModule) (s : State) : List (Nat × Nat) :=
  numberAll (enumOrder (portUp s 0 && portUp s 1 && !s.ring.folded) (ringMembers s) e) ((ringMembers s).filterMap (·.id))

/-- The ID assigned to a serial number. -/
def assignedTo (e : RingModule) (s : State) (serial : Nat) : Option Nat := ((assigned e s).find? fun x => decide (x.1 = serial)).map (·.2)

theorem enumerate_by {e : RingModule} (h : enumeratorOf (ringMembers s) = some e) :
    enumerate s =
      let new := assignedTo e s Config.serial
      let ms := s.ring.modules.map fun m => if m.id.isSome then m else { m with id := assignedTo e s m.serial }
      let r := { s with ring := { s.ring with
        modules := ms, moduleId := if s.ring.enumerated then s.ring.moduleId else new.getD 0, enumerated := s.ring.enumerated || new.isSome } }
      if decide (ms ≠ s.ring.modules) || (!s.ring.enumerated && new.isSome) then raise 0x3E4 0 0 r else r := by
  simp only [enumerate, show enumeratorOf (selfModule s :: s.ring.modules.filter hasRoute) = some e from h]
  rfl

theorem modules_numbered {f : RingModule → Option Nat} (h : ∀ m ∈ s.ring.modules, m.id.isSome = true) :
    (s.ring.modules.map fun m => if m.id.isSome then m else { m with id := f m }) = s.ring.modules := by
  conv_rhs => rw [← List.map_id s.ring.modules]
  exact List.map_congr_left fun m hm => if_pos (h m hm)

theorem enumerate_numbered (hself : s.ring.enumerated = true) (hothers : ∀ m ∈ s.ring.modules, m.id.isSome = true) : enumerate s = s := by
  cases he : enumeratorOf (ringMembers s) with
  | none => simp only [enumerate, show enumeratorOf (selfModule s :: s.ring.modules.filter hasRoute) = none from he]
  | some e =>
    rw [enumerate_by he]
    simp only [modules_numbered hothers, hself, if_true, Bool.true_or, ne_eq, not_true_eq_false, decide_false, Bool.not_true, Bool.false_and, Bool.or_self,
      Bool.false_eq_true, if_false]
    rw [← hself]

/-- A module not numbered before takes the ID that it is assigned, and the change is reported. -/
theorem enumerate_numbers {e : RingModule} {i : Nat} (h : enumeratorOf (ringMembers s) = some e) (hnone : s.ring.enumerated = false)
    (hothers : ∀ m ∈ s.ring.modules, m.id.isSome = true) (hnew : assignedTo e s Config.serial = some i) :
    enumerate s = raise 0x3E4 0 0 { s with ring := { s.ring with enumerated := true, moduleId := i } } := by
  rw [enumerate_by h]
  simp only [modules_numbered hothers, hnone, hnew, Option.isSome_some, Bool.not_false, Bool.and_self, Bool.or_true, if_true, Bool.false_eq_true, if_false,
    Option.getD_some]

theorem lowestFreeId_first : lowestFreeId [] = 0 := by decide

theorem lowestFreeId_beside (k : Nat) : lowestFreeId [k] = if k = 0 then 1 else 0 := by
  by_cases hk : k = 0
  · subst hk
    decide
  · have hfree : ([k].contains 0) = false := by simpa using Ne.symm hk
    rw [if_neg hk, lowestFreeId, List.range_eq_range', List.range'_succ, List.find?_cons_of_pos (by rw [hfree]; rfl)]
    rfl

theorem sortBy_two {α : Type} (before : α → α → Bool) (a b : α) : sortBy before [a, b] = [a, b] ∨ sortBy before [a, b] = [b, a] := by
  simp only [sortBy, List.foldl_cons, List.foldl_nil, insertBy]
  split
  · exact .inr rfl
  · exact .inl rfl

theorem enumOrder_two (closed : Bool) (a b e : RingModule) : enumOrder closed [a, b] e = [a, b] ∨ enumOrder closed [a, b] e = [b, a] :=
  sortBy_two _ a b

theorem selfModule_unnumbered (h : s.ring.enumerated = false) : (selfModule s).id = none := by simp [selfModule, h]

theorem assignedTo_alone (hnone : s.ring.enumerated = false) (hmodules : s.ring.modules = []) (e : RingModule) :
    assignedTo e s Config.serial = some 0 := by
  have hmembers : ringMembers s = [selfModule s] := by simp [ringMembers, hmodules]
  have hself := selfModule_unnumbered hnone
  have hids : assigned e s = [(Config.serial, 0)] := by
    rw [assigned, hmembers]
    simp only [enumOrder, sortBy, List.foldl_cons, List.foldl_nil, insertBy, numberAll, hself, List.filterMap_cons, List.filterMap_nil, lowestFreeId_first]
    rfl
  simp [assignedTo, hids]

/-- Beside a numbered module this one takes the lowest free ID. -/
theorem assignedTo_beside {m : RingModule} {k : Nat} (hnone : s.ring.enumerated = false) (hmembers : ringMembers s = [selfModule s, m]) (hid : m.id = some k)
    (e : RingModule) :
    ∃ i, assignedTo e s Config.serial = some i ∧ (m.serial ≠ Config.serial → i = if k = 0 then 1 else 0) := by
  have hself := selfModule_unnumbered hnone
  have hserial : (selfModule s).serial = Config.serial := rfl
  have hused : (ringMembers s).filterMap (·.id) = [k] := by simp [hmembers, hself, hid]
  rcases enumOrder_two (portUp s 0 && portUp s 1 && !s.ring.folded) (selfModule s) m e with horder | horder
  · have hids : assigned e s = [(Config.serial, if k = 0 then 1 else 0), (m.serial, k)] := by
      rw [assigned, hused, hmembers, horder]
      simp only [numberAll, hself, hid, lowestFreeId_beside, hserial]
    exact ⟨if k = 0 then 1 else 0, by simp [assignedTo, hids], fun _ => rfl⟩
  · have hids : assigned e s = [(m.serial, k), (Config.serial, if k = 0 then 1 else 0)] := by
      rw [assigned, hused, hmembers, horder]
      simp only [numberAll, hself, hid, lowestFreeId_beside, hserial]
    by_cases hsame : m.serial = Config.serial
    · exact ⟨k, by simp [assignedTo, hids, hsame], fun h => absurd hsame h⟩
    · exact ⟨if k = 0 then 1 else 0, by simp [assignedTo, hids, hsame], fun _ => rfl⟩

end

theorem enumeration_first : Happens (.enumeration ·)
    (fun s => up s ∧ s.boot.stage ≠ 8 ∧ s.ring.gateway = true ∧ s.ring.modules = [] ∧ s.ring.enumerated = false)
    (fun s => { s with ring := { s.ring with enumerated := true, moduleId := 0 } }) [0x3E4] noPuts := by
  refine happens_raises 0x3E4 (fun _ _ => rfl) (fun _ => ⟨rfl, rfl, rfl⟩) fun q ⟨hup, hstage, hgateway, hmodules, hnone⟩ => ⟨hup, ?_⟩
  have hby : enumeratorOf (ringMembers q) = some (selfModule q) := by simp [ringMembers, hmodules, enumeratorOf, selfModule, hgateway]
  have hnumbers := enumerate_numbers hby hnone (by simp [hmodules]) (assignedTo_alone hnone hmodules _)
  rw [Function.comp_apply, hnumbers, afterEnumeration_other]
  rw [(raise_frame _ _ _ _).boot]
  exact hstage

theorem enumeration_beside (t k : Nat) (s : State) (m : RingModule) (hi : s.Inv) (hup : up s) (hstage : s.boot.stage ≠ 8) (hgateway : s.ring.gateway = false)
    (hnone : s.ring.enumerated = false) (hmodules : s.ring.modules = [m]) (hm : m.gateway = true) (heast : m.hopsEast.isSome = true) (hid : m.id = some k) :
    Next (.enumeration t) s fun r =>
      r.ring.enumerated = true ∧ (m.serial ≠ Config.serial → r.ring.moduleId = if k = 0 then 1 else 0) ∧ r.ring.modules = [m] ∧
      bitOf r.host.evt.pending 0x3E4 = true ∧ OutFrame { s with ring := { s.ring with enumerated := true, moduleId := r.ring.moduleId } } r := by
  let q := tick t s
  have hmembers : ringMembers q = [selfModule q, m] := by simp [ringMembers, q, hmodules, hasRoute, heast]
  have hby : enumeratorOf (ringMembers q) = some m := by simp [hmembers, enumeratorOf, hm, selfModule, q, hgateway]
  obtain ⟨i, hnew, hlowest⟩ := assignedTo_beside (s := q) hnone hmembers hid m
  let r := { q with ring := { q.ring with enumerated := true, moduleId := i } }
  have hframe := raise_frame 0x3E4 0 0 r
  have hgo : (afterEnumeration ∘ enumerate) q = raise 0x3E4 0 0 r := by
    have hnumbers := enumerate_numbers (s := q) hby hnone (by simp [q, hmodules, hid]) hnew
    rw [Function.comp_apply, hnumbers]
    refine afterEnumeration_other ?_
    rw [hframe.boot]
    exact hstage
  refine next_up (parts := []) (f := afterEnumeration ∘ enumerate) rfl hi hup (List.forall_mem_nil _) ?_ ?_
  · rw [hgo]
    exact Settled.trans (b := r) ⟨rfl, rfl, rfl, rfl, rfl⟩ (raise_settled _ _ _ _)
  · rw [hgo, hframe.ring]
    exact ⟨rfl, hlowest, hmodules, raise_sets _ _ _ hup, ((tick_frame t hi).withRing fun x => { x with enumerated := true, moduleId := i }).trans hframe⟩

/-- Settles O56: what a received packet, an acknowledgement and a time limit do to a port, and the routes and IDs that messages set. -/
theorem ringPackets : Obligations.RingPackets := by
  refine ⟨?_, packetRx_kept, packetRx_everywhere, packetRx_routed, packetRx_discards,
    fun t s p k hi hup hp hdst htime hport hpass hsends => packetRx_delays t s p k hi hup hp hdst htime hport hpass hsends, ringAckRx_frees, ringAckRx_countsRetry,
    fun p n u k ks hp hn hfirst => ringAckRx_sendsNext p n u k ks hp hn hfirst, ringAckRx_strange, ringAckTimeout_retries, ?_, ?_,
    topology_closes, topology_east, ?_, ?_, enumeration_first, enumeration_beside⟩
  · refine fun p k ok => exactly_still (fun _ _ => rfl) fun q h => if_neg ?_
    rintro ⟨hp, hport, hcrc⟩
    rcases h with h | h | h
    · exact absurd (h.symm.trans hcrc) (by decide)
    · omega
    · exact absurd (h.symm.trans hport) (by decide)
  · intro t s p n u hi hup hp hn hretried hone _ hrelays hage
    exact ringAckTimeout_fences t s p n u hi hup hp hn hretried hone hrelays hage
  · refine fun p n u hn => exactly_still (fun _ _ => rfl) fun q ⟨hone, hage⟩ => ?_
    split
    · exact ackTimeout_early hn hone hage
    · rfl
  · refine exactly_still (fun _ _ => rfl) fun q ⟨hstage, hself, hothers⟩ => ?_
    rw [Function.comp_apply, enumerate_noGateway hself hothers, afterEnumeration_other hstage]
  · refine exactly_still (fun _ _ => rfl) fun q ⟨hstage, hself, hothers⟩ => ?_
    rw [Function.comp_apply, enumerate_numbered hself hothers, afterEnumeration_other hstage]

end Sys2Proof.Machine

/-! ## PTP and the Ethernet ports (R489, R665 to R670, R675) -/

namespace Sys2Proof.Machine

/-! ### A PTP message (R665 to R668) -/

section
variable {port : Nat} {m : PtpMsg} {s : State}

/-- What a PTP message does on a port. -/
def receivePtp (port : Nat) (m : PtpMsg) (s : State) : State :=
  if 2 ≤ port then s
  else if !(vget s.time.ports port).linkUp then s
  else if !ptpRuns s port then countOther s
  else if ptpForeign s port m then { s with time := { s.time with discards := wrap32 (s.time.discards + 1) } }
  else takePtp port m s

theorem receivePtp_unlinked (h : 2 ≤ port ∨ (vget s.time.ports port).linkUp = false) : receivePtp port m s = s := by
  rcases h with h | h
  · exact if_pos h
  · simp [receivePtp, h]

theorem receivePtp_other (hp : port < 2) (hlink : (vget s.time.ports port).linkUp = true) (hoff : ptpRuns s port = false) :
    receivePtp port m s = countOther s := by
  simp [receivePtp, Nat.not_le.2 hp, hlink, hoff]

theorem receivePtp_foreign (hp : port < 2) (hruns : runs port s) (h : ptpForeign s port m = true) :
    receivePtp port m s = { s with time := { s.time with discards := wrap32 (s.time.discards + 1) } } := by
  simp [receivePtp, Nat.not_le.2 hp, hruns.1, hruns.2, h]

theorem receivePtp_taken (hp : port < 2) (hruns : runs port s) (h : ptpForeign s port m = false) : receivePtp port m s = takePtp port m s := by
  simp [receivePtp, Nat.not_le.2 hp, hruns.1, hruns.2, h]

theorem setEth_settled (p : Nat) (f : EthPort → EthPort) (s : State) : Settled s (setEth p f s) := ⟨rfl, rfl, rfl, rfl, rfl⟩

theorem setEth_setEth (p : Nat) (f g : EthPort → EthPort) (s : State) : setEth p f (setEth p g s) = setEth p (fun x => f (g x)) s := by
  simp only [setEth, vmod_vmod]

theorem setEth_congr {p : Nat} {f g : EthPort → EthPort} (h : f (vget s.time.ports p) = g (vget s.time.ports p)) : setEth p f s = setEth p g s := by
  simp only [setEth, vmod, h]

end

/-- A PTP message that a port takes, with every field of what follows. -/
theorem exactly_ptp {port : Nat} {m : PtpMsg} {cond : State → Prop} {new : State → State} (hp : port < 2)
    (h : ∀ q, cond q → up q ∧ runs port q ∧ ptpForeign q port m = false ∧ takePtp port m q = new q ∧ Settled q (new q)) :
    Exactly (.ptpMessage · port m) cond new := by
  refine exactly_up (f := receivePtp port m) (fun _ _ => rfl) fun q hq => ?_
  obtain ⟨hup, hruns, hforeign, htake, hset⟩ := h q hq
  exact ⟨hup, (receivePtp_taken hp hruns hforeign).trans htake, hset⟩

/-- A PTP message that a port takes. -/
theorem happens_ptp {port : Nat} {m : PtpMsg} {cond : State → Prop} {new : State → State} {evs : List Nat} {puts : State → List Emit} (hp : port < 2)
    (hc : ∀ q, cond q → up q ∧ runs port q ∧ ptpForeign q port m = false)
    (h : ∀ q, cond q → OutFrame (new q) (takePtp port m q) ∧ (new q).bench = q.bench ∧ (new q).pending = q.pending ∧
      (∀ e ∈ evs, bitOf (takePtp port m q).host.evt.pending e = true) ∧ puts q ⊆ (takePtp port m q).emit) :
    Happens (.ptpMessage · port m) cond new evs puts := by
  refine happens_up (f := receivePtp port m) (parts := []) (fun _ _ => rfl) (fun q hq => ⟨(hc q hq).1, List.forall_mem_nil _⟩) fun q _ _ hq => ?_
  obtain ⟨-, hruns, hforeign⟩ := hc q hq
  rw [receivePtp_taken hp hruns hforeign]
  exact h q hq

/-! ### Sync and Follow_Up -/

section
variable {port : Nat} {m : PtpMsg} {s : State}

/-- A Sync noted on its port. -/
def syncNoted (port : Nat) (origin recv : Int) (s : State) : State := setEth port (fun x => { x with lastSync := some (origin, recv), lastSyncAt := s.now }) s

theorem takeSync_noted (origin recv : Int) (h : (timeCfg s).source ≠ 1) : takeSync port origin recv s = syncNoted port origin recv s :=
  if_pos (.inl h)

theorem takePtp_twoStep (hk : m.kind = .sync) (h : m.twoStep = true) :
    takePtp port m s = setEth port (fun x => { x with syncWait := some (m.seq, m.received + (ptpCfg s port).ingress, m.correction) }) s := by
  simp only [takePtp, hk, h, if_true]

theorem takePtp_oneStep (hk : m.kind = .sync) (h : m.twoStep = false) :
    takePtp port m s = takeSync port (m.origin + m.correction) (m.received + (ptpCfg s port).ingress) s := by
  simp only [takePtp, hk, h, Bool.false_eq_true, if_false]

theorem takePtp_followUp {at_ c : Int} (hk : m.kind = .followUp) (h : (vget s.time.ports port).syncWait = some (m.seq, at_, c)) :
    takePtp port m s = takeSync port (m.origin + m.correction + c) at_ (setEth port (fun x => { x with syncWait := none }) s) := by
  simp only [takePtp, hk, h, if_true]

/-! ### Requests and answers -/

theorem takePtp_delayReq (hk : m.kind = .delayReq) :
    takePtp port m s = if (vget s.time.ports port).state = .master then out (.ptp port .delayResp m.seq (m.received + (ptpCfg s port).ingress)) s else s := by
  simp only [takePtp, hk, decide_eq_true_eq]

theorem takePtp_delayResp {t1 t2 t3 : Int} (hk : m.kind = .delayResp) (hsent : (vget s.time.ports port).delaySent = some (m.seq, t3))
    (hsync : (vget s.time.ports port).lastSync = some (t1, t2)) :
    takePtp port m s = setEth port (fun x => { x with
      delaySent := none, pathDelay := (Int.fdiv ((t2 - t1) + (m.origin - m.correction - t3)) 2).toNat }) s := by
  simp only [takePtp, hk, hsent, hsync, if_true]

theorem takePtp_pdelayReq (hk : m.kind = .pdelayReq) :
    takePtp port m s = out (.ptp port .pdelayFollowUp m.seq (clockNs s.time.clock + (ptpCfg s port).egress))
      (out (.ptp port .pdelayResp m.seq (m.received + (ptpCfg s port).ingress)) s) := by
  simp only [takePtp, hk]

end

/-! ### The state of a port (R667) -/

section
variable {port : Nat} {st : PtpState} {s : State}

theorem setPtpState_same (h : (vget s.time.ports port).state = st) : setPtpState port st s = s := if_pos h

theorem setPtpState_enters (h : (vget s.time.ports port).state ≠ st) :
    setPtpState port st s = raise (0x3D1 + port) (ptpCode st) 0 (setEth port (fun x => { x with state := st }) s) := if_neg h

theorem ptpRuns_congr {a b : State} (h : cfgNow b = cfgNow a) (p : Nat) : ptpRuns b p = ptpRuns a p := by
  unfold ptpRuns ptpCfg timeCfg
  rw [h]

/-- With one port running, its Announce is the best. -/
theorem bestPort_alone (hp : port < 2) (hruns : ptpRuns s port = true) (hother : ptpRuns s (1 - port) = false) :
    bestPort s = (vget s.time.ports port).best.map fun a => (port, a) := by
  unfold bestPort
  obtain rfl | rfl : port = 0 ∨ port = 1 := by omega
  · simp only [hruns, show ptpRuns s 1 = false from hother, if_true, Bool.false_eq_true, if_false]
    cases (vget s.time.ports 0).best <;> rfl
  · simp only [hruns, show ptpRuns s 0 = false from hother, if_true, Bool.false_eq_true, if_false]

/-- What the state decision does to one port. -/
def bmcaAt (p : Nat) (s : State) : State :=
  let st := (vget s.time.ports p).state
  if !ptpRuns s p ∨ !(vget s.time.ports p).linkUp ∨ st = .faulty ∨ st = .disabled ∨ st = .initializing then s else setPtpState p (decideState s p) s

theorem bmcaAt_off (h : ptpRuns s port = false) : bmcaAt port s = s := if_pos (.inl (by rw [h]; rfl))

theorem bmcaAt_frame (port : Nat) (s : State) : cfgNow (bmcaAt port s) = cfgNow s := by
  unfold bmcaAt setPtpState
  simp only
  split
  · rfl
  · split
    · rfl
    · exact (raise_frame _ _ _ _).cfgNow

/-- With one port running, the decision is that port's. -/
theorem runBmca_alone (hp : port < 2) (hother : ptpRuns s (1 - port) = false) : runBmca s = followGm (bmcaAt port s) := by
  show followGm (bmcaAt 1 (bmcaAt 0 s)) = _
  obtain rfl | rfl : port = 0 ∨ port = 1 := by omega
  · rw [bmcaAt_off (port := 1) ((ptpRuns_congr (bmcaAt_frame 0 s) 1).trans hother)]
  · rw [bmcaAt_off (port := 0) hother]

theorem bmcaAt_decides (hruns : runs port s) (hawake : awake port s) : bmcaAt port s = setPtpState port (decideState s port) s := by
  obtain ⟨hinit, hfaulty, hdisabled⟩ := hawake
  refine if_neg ?_
  simp [hruns.1, hruns.2, hinit, hfaulty, hdisabled]

/-- The grandmaster that the best Announce and its port's state give (R675). -/
def gmOf (s : State) : Nat :=
  match bestPort s with
  | some (p, a) => if (vget s.time.ports p).state = .slave ∨ (vget s.time.ports p).state = .uncalibrated then a.identity else 0
  | none => 0

theorem followGm_same (h : gmOf s = s.time.gm) : followGm s = s := if_pos h.symm

theorem followGm_changes (h : gmOf s ≠ s.time.gm) : followGm s = raise 0x3D6 0 0 { s with time := { s.time with gm := gmOf s } } := if_neg (Ne.symm h)

theorem gmOf_none (h : bestPort s = none) : gmOf s = 0 := by
  unfold gmOf
  rw [h]

theorem gmOf_best {p : Nat} {a : Announce} (h : bestPort s = some (p, a)) :
    gmOf s = if (vget s.time.ports p).state = .slave ∨ (vget s.time.ports p).state = .uncalibrated then a.identity else 0 := by
  unfold gmOf
  rw [h]

/-- A slave whose master is the grandmaster keeps it. -/
theorem followGm_slave (hp : port < 2) (hruns : ptpRuns s port = true) (hst : (vget s.time.ports port).state = .slave) (hkeeps : keepsGm port s) :
    followGm s = s := by
  obtain ⟨hother, hgm⟩ := hkeeps
  obtain ⟨a, hbest, hid⟩ := Option.map_eq_some_iff.1 hgm
  have hport : bestPort s = some (port, a) := by rw [bestPort_alone hp hruns hother, hbest]; rfl
  exact followGm_same (by rw [gmOf_best hport, hst, if_pos (.inl rfl), hid])

end

/-! ### The offset of a Sync (R668) -/

section
variable {port : Nat} {m : PtpMsg} {s : State}

/-- The time unit with a Sync noted and its offset measured. -/
def synced (port : Nat) (m : PtpMsg) (s : State) : TimeUnit :=
  { s.time with
    ports := vmod s.time.ports port fun x => { x with
      lastSync := some (m.origin + m.correction, m.received + (ptpCfg s port).ingress), lastSyncAt := s.now }
    offset := syncOffset port m s, pathDelay := (vget s.time.ports port).pathDelay, holdover := false }

/-- The same with the clock steered, and LOCKED at the sixteenth measurement. -/
def steeredTo (addend : Nat) (port : Nat) (m : PtpMsg) (s : State) : TimeUnit :=
  { synced port m s with clock := { s.time.clock with addend := addend, slew := 0 }, stepBlocked := false, lockCount := 16, locked := true }

/-- The same with the clock slewed, and LOCKED lost. -/
def slewedTo (port : Nat) (m : PtpMsg) (s : State) : TimeUnit :=
  { synced port m s with
    clock := { s.time.clock with slew := -syncOffset port m s * 4294967296, slewPpm := (cfgNow s).time.maxSlew }, lockCount := 0, locked := false }

theorem setLocked_changes {b : Bool} (h : s.time.locked ≠ b) : setLocked b s = raise 0x3D3 0 0 { s with time := { s.time with locked := b } } := if_neg h

theorem countLock_sixteenth {offset : Int} (hin : offset.natAbs ≤ (timeCfg s).lockNs) (hn : s.time.lockCount = 15) (hl : s.time.locked = false) :
    countLock offset s = raise 0x3D3 0 0 { s with time := { s.time with lockCount := 16, locked := true } } := by
  have hchange : ({ s with time := { s.time with lockCount := 16 } } : State).time.locked ≠ true := by simp [hl]
  simp only [countLock, hin, if_true, hn, Nat.reduceAdd, min_self]
  exact setLocked_changes hchange

theorem countLock_loses {x : TimeUnit} {offset : Int} (hout : (timeCfg s).lockNs < offset.natAbs) (hl : x.locked = true) :
    countLock offset { s with time := x } = raise 0x3D3 0 0 { s with time := { x with lockCount := 0, locked := false } } := by
  have hchange : ({ s with time := { x with lockCount := 0 } } : State).time.locked ≠ false := by simp [hl]
  have hcfg : timeCfg { s with time := x } = timeCfg s := rfl
  simp only [countLock, hcfg, Nat.not_le.2 hout, if_false]
  exact setLocked_changes hchange

/-- A Sync at a slave port disciplines the clock. -/
theorem takeSync_slave (origin recv : Int) (hp : port < 2) (hsource : (timeCfg s).source = 1) (hst : (vget s.time.ports port).state = .slave) :
    takeSync port origin recv s =
      followGm (discipline (recv - origin - (vget s.time.ports port).pathDelay) (vget s.time.ports port).pathDelay (syncNoted port origin recv s)) := by
  have hport : vget (syncNoted port origin recv s).time.ports port = { vget s.time.ports port with lastSync := some (origin, recv), lastSyncAt := s.now } :=
    vget_vmod_self s.time.ports port _ hp
  have hstate : (vget (syncNoted port origin recv s).time.ports port).state = .slave := by rw [hport]; exact hst
  have hpath : (vget (syncNoted port origin recv s).time.ports port).pathDelay = (vget s.time.ports port).pathDelay := by rw [hport]
  have hsource' : (timeCfg (syncNoted port origin recv s)).source = 1 := hsource
  simp only [takeSync]
  rw [show setEth port (fun x => { x with lastSync := some (origin, recv), lastSyncAt := s.now }) s = syncNoted port origin recv s from rfl, hsource', hstate,
    hpath, setPtpState_same hstate]
  exact if_neg (by decide)

/-- What a one-step Sync at a slave port does, whose master is the grandmaster. -/
abbrev slaveSync (port : Nat) (m : PtpMsg) (s : State) : Prop :=
  port < 2 ∧ runs port s ∧ m.kind = .sync ∧ m.twoStep = false ∧ (cfgNow s).time.source = 1 ∧ (vget s.time.ports port).state = .slave ∧ keepsGm port s

theorem takePtp_disciplines (h : slaveSync port m s) :
    takePtp port m s = followGm (discipline (syncOffset port m s) (vget s.time.ports port).pathDelay
      (syncNoted port (m.origin + m.correction) (m.received + (ptpCfg s port).ingress) s)) := by
  obtain ⟨hp, -, hk, hone, hsource, hst, -⟩ := h
  exact (takePtp_oneStep hk hone).trans (takeSync_slave _ _ hp hsource hst)

/-- A state that differs from the one a Sync came in by the clock's discipline alone keeps its grandmaster. -/
theorem followGm_synced {r : State} {x : TimeUnit} (h : slaveSync port m s) (hcfg : cfgNow r = cfgNow s) (htime : r.time = x)
    (hports : x.ports = (synced port m s).ports) (hgm : x.gm = s.time.gm) : followGm r = r := by
  obtain ⟨hp, hruns, -, -, -, hst, hother, hbest⟩ := h
  have hport : vget r.time.ports port = { vget s.time.ports port with
      lastSync := some (m.origin + m.correction, m.received + (ptpCfg s port).ingress), lastSyncAt := s.now } := by
    rw [htime, hports]
    exact vget_vmod_self s.time.ports port _ hp
  refine followGm_slave hp ((ptpRuns_congr hcfg port).trans hruns.1) (by rw [hport]; exact hst) ⟨(ptpRuns_congr hcfg _).trans hother, ?_⟩
  rw [hport, htime, hgm]
  exact hbest

theorem steeredTo_ports (a : Nat) : (steeredTo a port m s).ports = (synced port m s).ports ∧ (steeredTo a port m s).gm = s.time.gm := by
  constructor <;> simp only [steeredTo, synced]

theorem slewedTo_ports : (slewedTo port m s).ports = (synced port m s).ports ∧ (slewedTo port m s).gm = s.time.gm := by
  constructor <;> simp only [slewedTo, synced]

theorem takePtp_locks (h : slaveSync port m s) (hin : (syncOffset port m s).natAbs ≤ (cfgNow s).time.lockNs)
    (hstep : (cfgNow s).time.lockNs < (cfgNow s).time.stepNs) (hn : s.time.lockCount = 15) (hl : s.time.locked = false)
    (hslew : (cfgNow s).time.maxSlew ≤ 500) :
    ∃ a, takePtp port m s = raise 0x3D3 0 0 { s with free := s.free + 1, time := steeredTo a port m s } ∧
      8589934592 - 8589934592 * (cfgNow s).time.maxSlew / 1000000 ≤ a ∧ a ≤ 8589934592 + 8589934592 * (cfgNow s).time.maxSlew / 1000000 := by
  let q := syncNoted port (m.origin + m.correction) (m.received + (ptpCfg s port).ingress) s
  obtain ⟨hlo, hhi⟩ := servoAddend_near (s := q) hslew
  refine ⟨(servoAddend q).1, ?_, hlo, hhi⟩
  have hsteers := discipline_steers (s := q) (offset := syncOffset port m s) (delay := (vget s.time.ports port).pathDelay) (lt_of_le_of_lt hin hstep)
  have hdisc := hsteers.trans (countLock_sixteenth (by exact hin) (by exact hn) (by exact hl))
  have hframe := raise_frame 0x3D3 0 0 { s with free := s.free + 1, time := steeredTo (servoAddend q).1 port m s }
  have hstate : discipline (syncOffset port m s) (vget s.time.ports port).pathDelay q =
      raise 0x3D3 0 0 { s with free := s.free + 1, time := steeredTo (servoAddend q).1 port m s } := by
    rw [hdisc]
    simp only [q, syncNoted, setEth, steeredTo, synced]
  rw [takePtp_disciplines h, hstate]
  exact followGm_synced h hframe.cfgNow (raise_time _ _ _ _) (steeredTo_ports _).1 (steeredTo_ports _).2

theorem takePtp_loses (h : slaveSync port m s) (hon : s.gauge.trigEnabled = true) (hlock : (cfgNow s).time.lockNs ≤ (cfgNow s).time.stepNs)
    (hstep : (cfgNow s).time.stepNs < (syncOffset port m s).natAbs) (hblocked : s.time.stepBlocked = true) (hl : s.time.locked = true) :
    takePtp port m s = raise 0x3D3 0 0 { s with time := slewedTo port m s } := by
  let q := syncNoted port (m.origin + m.correction) (m.received + (ptpCfg s port).ingress) s
  let x : TimeUnit := { slewedTo port m s with lockCount := s.time.lockCount, locked := s.time.locked }
  have hslews := discipline_slews (s := q) (offset := syncOffset port m s) (delay := (vget s.time.ports port).pathDelay) hstep hon
  have hx : addSlew (-syncOffset port m s) (unslewed (measured (syncOffset port m s) (vget s.time.ports port).pathDelay q)) = { s with time := x } := by
    simp only [q, x, addSlew, unslewed, measured, setClockOf, syncNoted, setEth, slewedTo, synced, zero_add, Int.reducePow]
    rfl
  rw [if_pos (show q.time.stepBlocked = true from hblocked), hx] at hslews
  have hlost : x.locked = true := hl
  have hframe := raise_frame 0x3D3 0 0 { s with time := slewedTo port m s }
  have hstate : discipline (syncOffset port m s) (vget s.time.ports port).pathDelay q = raise 0x3D3 0 0 { s with time := slewedTo port m s } := by
    rw [hslews, countLock_loses (lt_of_le_of_lt hlock hstep) hlost]
    simp only [x, slewedTo]
  rw [takePtp_disciplines h, hstate]
  exact followGm_synced h hframe.cfgNow (raise_time _ _ _ _) slewedTo_ports.1 slewedTo_ports.2

end

/-! ### The state decision (R667, assumption 68) -/

section
variable {port : Nat} {e : Announce} {s : State}

theorem betterAnnounce_less {a b : Announce} (h : a.priority1 < b.priority1) : betterAnnounce a b = true := by
  simp [betterAnnounce, announceKey, lexLess, h]

theorem betterAnnounce_more {a b : Announce} (h : b.priority1 < a.priority1) : betterAnnounce a b = false := by
  have hlt : ¬ a.priority1 < b.priority1 := Nat.lt_asymm h
  have hne : ¬ a.priority1 = b.priority1 := Nat.ne_of_gt h
  simp [betterAnnounce, announceKey, lexLess, hlt, hne]

/-- A better foreign master is followed. -/
theorem decideState_follows (hbest : (vget s.time.ports port).best = some e) (hport : bestPort s = some (port, e))
    (hst : (vget s.time.ports port).state ≠ .slave)
    (hmine : (timeCfg s).slaveOnly = true ∨ inRange 1 127 (timeCfg s).clockClass = false ∧ betterAnnounce (localAnnounce s) e = false) :
    decideState s port = .uncalibrated := by
  rcases hmine with hslave | ⟨hclass, hworse⟩
  · simp [decideState, hbest, hport, hslave, hst]
  · simp [decideState, hbest, hport, hclass, hworse, hst]

/-- With the better local clock a port is master. -/
theorem decideState_leads (hbest : (vget s.time.ports port).best = some e) (hslave : (timeCfg s).slaveOnly = false)
    (hbetter : betterAnnounce (localAnnounce s) e = true) : decideState s port = .master := by
  simp [decideState, hbest, hslave, hbetter]

theorem decideState_noMaster (hbest : (vget s.time.ports port).best = none) (hport : bestPort s = none) (hst : (vget s.time.ports port).state = .master)
    (hslave : (timeCfg s).slaveOnly = false) : decideState s port = .master := by
  simp [decideState, hbest, hport, hst, hslave]

end

/-! ### Changes of the time unit alone -/

section
variable {p : Nat} {st : PtpState} {x y : TimeUnit} {s r : State}

/-- The time unit with one Ethernet port changed. -/
def onEth (p : Nat) (f : EthPort → EthPort) (u : TimeUnit) : TimeUnit := { u with ports := vmod u.ports p f }

theorem onEth_onEth (f g : EthPort → EthPort) (u : TimeUnit) : onEth p f (onEth p g u) = onEth p (fun x => f (g x)) u := by
  simp only [onEth, vmod_vmod]

theorem onEth_port (hp : p < 2) (f : EthPort → EthPort) (u : TimeUnit) : vget (onEth p f u).ports p = f (vget u.ports p) := vget_vmod_self _ _ _ hp

theorem Reaches.frame (h : Reaches x s r) : OutFrame { s with time := x } r := by
  obtain ⟨htime, hframe, -⟩ := h
  exact hframe.frame (by rw [htime])

theorem Reaches.retimed (h : Reaches x s r) (y : TimeUnit) : Reaches y s { r with time := y } := by
  obtain ⟨-, hframe, hset⟩ := h
  exact ⟨rfl, hframe.trans rfl, hset.trans ⟨rfl, rfl, rfl, rfl, rfl⟩⟩

theorem Reaches.onEth (h : Reaches x s r) (p : Nat) (f : EthPort → EthPort) : Reaches (onEth p f x) s (setEth p f r) := by
  rw [← h.1]
  exact h.retimed (Machine.onEth p f r.time)

theorem Reaches.port (h : Reaches x s r) (p : Nat) : vget r.time.ports p = vget x.ports p := by rw [h.1]

theorem Reaches.cfgNow (h : Reaches x s r) : cfgNow r = Machine.cfgNow s := h.frame.cfgNow

theorem Reaches.upholds (h : Reaches x s r) (hup : up s) : up r := h.frame.hf_fabric.trans hup

/-- A port that enters a state, with its event. -/
theorem Reaches.enters (h : Reaches x s r) (hst : (vget x.ports p).state ≠ st) :
    Reaches (Machine.onEth p (fun y => { y with state := st }) x) s (setPtpState p st r) ∧
      (up s → bitOf (setPtpState p st r).host.evt.pending (0x3D1 + p) = true) := by
  have hset := h.onEth p (fun y => { y with state := st })
  rw [setPtpState_enters (by rw [h.port]; exact hst)]
  exact ⟨hset.raised _ _ _, fun hup => raise_sets _ _ _ (hset.upholds hup)⟩

theorem reaches_eth (p : Nat) (f : EthPort → EthPort) (s : State) : Reaches (Machine.onEth p f s.time) s (setEth p f s) := reaches_time _ _

end

/-! ### Announce (R667, R675) -/

section
variable {port : Nat} {m : PtpMsg} {s : State}

/-- The foreign master that an Announce names. -/
def foreignMaster (m : PtpMsg) : Announce := { m.announce with steps := m.announce.steps + 1 }

theorem takePtp_announce (hk : m.kind = .announce) :
    takePtp port m s = runBmca (setEth port (fun x => { x with best := some (foreignMaster m) }) s) := by
  simp only [takePtp, hk, foreignMaster]

/-- What the state decision finds on the one port that runs, its foreign master known. -/
theorem announced (hp : port < 2) (hruns : runs port s) (hother : ptpRuns s (1 - port) = false) {q : State}
    (hq : q = setEth port (fun x => { x with best := some (foreignMaster m) }) s) :
    vget q.time.ports port = { vget s.time.ports port with best := some (foreignMaster m) } ∧ runs port q ∧ ptpRuns q (1 - port) = false ∧
      bestPort q = some (port, foreignMaster m) := by
  subst hq
  let q := setEth port (fun x => { x with best := some (foreignMaster m) }) s
  have hport : vget q.time.ports port = { vget s.time.ports port with best := some (foreignMaster m) } := onEth_port hp _ _
  have hruns' : runs port q := ⟨hruns.1, by rw [hport]; exact hruns.2⟩
  refine ⟨hport, hruns', hother, ?_⟩
  rw [bestPort_alone hp hruns'.1 hother, hport]
  rfl

theorem awake_congr {q : State} (hport : (vget q.time.ports port).state = (vget s.time.ports port).state) (h : awake port s) : awake port q := by
  rw [awake, hport]
  exact h

end

section
variable {port : Nat} {x : TimeUnit} {s r : State}

theorem Reaches.ptpRuns (h : Reaches x s r) (p : Nat) : ptpRuns r p = Machine.ptpRuns s p := ptpRuns_congr h.cfgNow p

/-- The grandmaster of a state that differs in the time unit alone, one port running. -/
theorem Reaches.gmOf_best (h : Reaches x s r) {a : Announce} (hp : port < 2) (hruns : Machine.ptpRuns s port = true)
    (hother : Machine.ptpRuns s (1 - port) = false) (hbest : (vget x.ports port).best = some a) :
    gmOf r = if (vget x.ports port).state = .slave ∨ (vget x.ports port).state = .uncalibrated then a.identity else 0 := by
  have hport : bestPort r = some (port, a) := by
    rw [bestPort_alone hp ((h.ptpRuns port).trans hruns) ((h.ptpRuns _).trans hother), h.port, hbest]
    rfl
  rw [Machine.gmOf_best hport, h.port]

theorem Reaches.gmOf_none (h : Reaches x s r) (hp : port < 2) (hruns : Machine.ptpRuns s port = true)
    (hother : Machine.ptpRuns s (1 - port) = false) (hbest : (vget x.ports port).best = none) : gmOf r = 0 := by
  refine Machine.gmOf_none ?_
  rw [bestPort_alone hp ((h.ptpRuns port).trans hruns) ((h.ptpRuns _).trans hother), h.port, hbest]
  rfl

theorem Reaches.followsNew (h : Reaches x s r) {g : Nat} (hgm : gmOf r = g) (hne : g ≠ x.gm) :
    Reaches { x with gm := g } s (followGm r) ∧ (up s → bitOf (followGm r).host.evt.pending 0x3D6 = true) ∧
      ∀ e, bitOf r.host.evt.pending e = true → bitOf (followGm r).host.evt.pending e = true := by
  rw [followGm_changes (by rw [hgm, h.1]; exact hne), hgm, h.1]
  have hreach := h.retimed { x with gm := g }
  exact ⟨hreach.raised _ _ _, fun hup => raise_sets _ _ _ (hreach.upholds hup), fun e he => raise_keeps _ _ _ he⟩

theorem Reaches.followsSame (h : Reaches x s r) (hgm : gmOf r = x.gm) : followGm r = r := followGm_same (by rw [hgm, h.1])

/-- The state decision moves the one port that runs. -/
theorem runBmca_enters {st : PtpState} (hp : port < 2) (hruns : runs port s) (hother : ptpRuns s (1 - port) = false) (hawake : awake port s)
    (hdecide : decideState s port = st) : runBmca s = followGm (setPtpState port st s) := by
  rw [runBmca_alone hp hother, bmcaAt_decides hruns hawake, hdecide]

/-- The state decision does nothing to a port that sleeps. -/
theorem runBmca_asleep (hp : port < 2) (hother : ptpRuns s (1 - port) = false) (hst : (vget s.time.ports port).state = .faulty) :
    runBmca s = followGm s := by
  rw [runBmca_alone hp hother]
  exact congrArg followGm (if_pos (.inr (.inr (.inl hst))))

end

theorem announce_follows (port : Nat) (m : PtpMsg) (hp : port < 2) (hk : m.kind = .announce) : Happens (.ptpMessage · port m)
    (fun s => up s ∧ runs port s ∧ ptpForeign s port m = false ∧ ptpRuns s (1 - port) = false ∧ awake port s ∧ (vget s.time.ports port).state ≠ .slave ∧
      (vget s.time.ports port).state ≠ .uncalibrated ∧ s.time.gm ≠ m.announce.identity ∧
      ((cfgNow s).time.slaveOnly = true ∨ ¬ ((1 : Nat) ≤ (cfgNow s).time.clockClass ∧ (cfgNow s).time.clockClass ≤ 127) ∧
        m.announce.priority1 < (cfgNow s).time.priority1))
    (fun s => setEth port (fun x => { x with state := .uncalibrated, best := some { m.announce with steps := m.announce.steps + 1 } })
      { s with time := { s.time with gm := m.announce.identity } }) [0x3D1 + port, 0x3D6] noPuts := by
  refine happens_ptp hp (fun q hc => ⟨hc.1, hc.2.1, hc.2.2.1⟩) fun q hc => ?_
  obtain ⟨hup, hruns, -, hother, hawake, hslave, huncal, hgm, hmine⟩ := hc
  obtain ⟨hport, hruns', hother', hbest⟩ := announced (m := m) hp hruns hother rfl
  have hreach := reaches_eth port (fun x => { x with best := some (foreignMaster m) }) q
  have hoff : ¬ ((1 : Nat) ≤ (cfgNow q).time.clockClass ∧ (cfgNow q).time.clockClass ≤ 127) → inRange 1 127 (cfgNow q).time.clockClass = false :=
    fun hclass => by simpa [inRange] using hclass
  have hdecide := decideState_follows (s := setEth port (fun x => { x with best := some (foreignMaster m) }) q) (by rw [hport]) hbest
    (by rw [hport]; exact hslave) (hmine.imp id fun ⟨hclass, hless⟩ => ⟨hoff hclass, betterAnnounce_more hless⟩)
  obtain ⟨henter, hstate⟩ := hreach.enters (st := .uncalibrated) (by rw [onEth_port hp]; exact huncal)
  have hfound := henter.gmOf_best hp hruns.1 hother (a := foreignMaster m) (by rw [onEth_port hp, onEth_port hp])
  rw [onEth_port hp, if_pos (.inr rfl)] at hfound
  obtain ⟨hfollow, hset, hkeep⟩ := henter.followsNew hfound (Ne.symm hgm)
  rw [takePtp_announce hk, runBmca_enters hp hruns' hother' (awake_congr (by rw [hport]) hawake) hdecide]
  refine ⟨?_, rfl, rfl, List.forall_mem_cons.2 ⟨hkeep _ (hstate hup), List.forall_mem_singleton.2 (hset hup)⟩, List.nil_subset _⟩
  rw [onEth_onEth] at hfollow
  exact hfollow.frame

theorem announce_leads (port : Nat) (m : PtpMsg) (hp : port < 2) (hk : m.kind = .announce) : Happens (.ptpMessage · port m)
    (fun s => up s ∧ runs port s ∧ ptpForeign s port m = false ∧ ptpRuns s (1 - port) = false ∧ awake port s ∧ (vget s.time.ports port).state ≠ .master ∧
      s.time.gm = 0 ∧ (cfgNow s).time.slaveOnly = false ∧ (cfgNow s).time.priority1 < m.announce.priority1)
    (fun s => setEth port (fun x => { x with state := .master, best := some { m.announce with steps := m.announce.steps + 1 } }) s)
    [0x3D1 + port] noPuts := by
  refine happens_ptp hp (fun q hc => ⟨hc.1, hc.2.1, hc.2.2.1⟩) fun q hc => ?_
  obtain ⟨hup, hruns, -, hother, hawake, hmaster, hgm, hslave, hless⟩ := hc
  obtain ⟨hport, hruns', hother', -⟩ := announced (m := m) hp hruns hother rfl
  have hreach := reaches_eth port (fun x => { x with best := some (foreignMaster m) }) q
  have hdecide := decideState_leads (s := setEth port (fun x => { x with best := some (foreignMaster m) }) q) (by rw [hport]) hslave
    (e := foreignMaster m) (betterAnnounce_less hless)
  obtain ⟨henter, hstate⟩ := hreach.enters (st := .master) (by rw [onEth_port hp]; exact hmaster)
  have hfound := henter.gmOf_best hp hruns.1 hother (a := foreignMaster m) (by rw [onEth_port hp, onEth_port hp])
  rw [onEth_port hp, if_neg (by simp)] at hfound
  rw [takePtp_announce hk, runBmca_enters hp hruns' hother' (awake_congr (by rw [hport]) hawake) hdecide, henter.followsSame (hfound.trans hgm.symm)]
  refine ⟨?_, rfl, rfl, List.forall_mem_singleton.2 (hstate hup), List.nil_subset _⟩
  rw [onEth_onEth] at henter
  exact henter.frame

/-! ### Intervals and timeouts (R666, R667) -/

section
variable {port : Nat} {s : State}

/-- What an interval of a port does. -/
def interval (port : Nat) (kind : PtpTimer) (s : State) : State :=
  if 2 ≤ port ∨ !ptpRuns s port ∨ !(vget s.time.ports port).linkUp then s else sendPtp port kind s

theorem interval_sends {kind : PtpTimer} (hp : port < 2) (h : runs port s) : interval port kind s = sendPtp port kind s := by
  simp [interval, Nat.not_le.2 hp, h.1, h.2]

/-- An interval of a port that sends. -/
theorem happens_interval {kind : PtpTimer} {cond : State → Prop} {f : State → EthPort → EthPort} {puts : State → List Emit} (hp : port < 2)
    (hc : ∀ q, cond q → up q ∧ runs port q) (h : ∀ q, cond q → sendPtp port kind q = setEth port (f q) { q with emit := q.emit ++ puts q }) :
    Happens (.ptpIntervalTimer · port kind) cond (fun q => setEth port (f q) q) [] puts := by
  refine happens_up (f := interval port kind) (parts := []) (fun _ _ => rfl) (fun q hq => ⟨(hc q hq).1, List.forall_mem_nil _⟩) fun q _ _ hq => ?_
  rw [interval_sends hp (hc q hq).2, h q hq]
  exact ⟨rfl, rfl, rfl, List.forall_mem_nil _, List.subset_append_right _ _⟩

theorem out_out (a b : Emit) (s : State) : out b (out a s) = { s with emit := s.emit ++ [a, b] } := by simp [out]

theorem interval_masters (hp : port < 2) : Happens (.ptpIntervalTimer · port .announce)
    (fun s => up s ∧ runs port s ∧ (vget s.time.ports port).state = .preMaster)
    (setEth port (fun x => { x with state := .master })) [0x3D1 + port] noPuts := by
  refine happens_up (f := interval port .announce) (parts := []) (fun _ _ => rfl) (fun q hq => ⟨hq.1, List.forall_mem_nil _⟩) fun q _ _ hq => ?_
  obtain ⟨hup, hruns, hst⟩ := hq
  have hsend : sendPtp port .announce q = setPtpState port .master q := if_pos hst
  obtain ⟨henter, hset⟩ := (reaches_time q.time q).enters (p := port) (st := .master) (by rw [hst]; decide)
  rw [interval_sends hp hruns, hsend]
  exact ⟨henter.frame, rfl, rfl, List.forall_mem_singleton.2 (hset hup), List.nil_subset _⟩

/-- What the receipt timeout of a port does. -/
def announceGone (port : Nat) (s : State) : State :=
  if 2 ≤ port ∨ !ptpRuns s port ∨ !(vget s.time.ports port).linkUp then s
  else
    let s := setEth port (fun x => { x with best := none }) s
    let s := if (vget s.time.ports port).state = .listening ∧ !(timeCfg s).slaveOnly then setPtpState port .master s else s
    runBmca s

theorem receiptTimeout_masters (hp : port < 2) : Happens (.announceReceiptTimeout · port)
    (fun s => up s ∧ runs port s ∧ ptpRuns s (1 - port) = false ∧ (vget s.time.ports port).state = .listening ∧ (cfgNow s).time.slaveOnly = false ∧ s.time.gm = 0)
    (setEth port (fun x => { x with state := .master, best := none })) [0x3D1 + port] noPuts := by
  refine happens_up (f := announceGone port) (parts := []) (fun _ _ => rfl) (fun q hq => ⟨hq.1, List.forall_mem_nil _⟩) fun q _ _ hq => ?_
  obtain ⟨hup, hruns, hother, hst, hslave, hgm⟩ := hq
  let a := setEth port (fun x => { x with best := none }) q
  have hport : (vget a.time.ports port).state = .listening := by
    rw [show vget a.time.ports port = { vget q.time.ports port with best := none } from onEth_port hp _ _]
    exact hst
  obtain ⟨henter, hset⟩ := (reaches_eth port (fun x => { x with best := none }) q).enters (p := port) (st := .master)
    (by rw [onEth_port hp, hst]; decide)
  let r := setPtpState port .master a
  have hgone : announceGone port q = runBmca r := by
    have hslave' : (timeCfg a).slaveOnly = false := hslave
    simp only [announceGone, Nat.not_le.2 hp, hruns.1, hruns.2, Bool.not_true, Bool.false_eq_true, or_self, if_false]
    rw [if_pos ⟨hport, by rw [hslave']; rfl⟩]
  have hnew : vget r.time.ports port = { vget q.time.ports port with best := none, state := .master } := by
    rw [henter.port, onEth_port hp, onEth_port hp]
  have hruns' : runs port r := ⟨(henter.ptpRuns port).trans hruns.1, by rw [hnew]; exact hruns.2⟩
  have hother' : ptpRuns r (1 - port) = false := (henter.ptpRuns _).trans hother
  have hnone : bestPort r = none := by
    rw [bestPort_alone hp hruns'.1 hother', hnew]
    rfl
  have hdecide : decideState r port = .master :=
    decideState_noMaster (by rw [hnew]) hnone (by rw [hnew]) (by rw [show timeCfg r = timeCfg q from congrArg Cfg.time henter.cfgNow]; exact hslave)
  have hdone : runBmca r = r := by
    rw [runBmca_enters hp hruns' hother' (by rw [awake, hnew]; exact ⟨nofun, nofun, nofun⟩) hdecide, setPtpState_same (by rw [hnew])]
    exact henter.followsSame ((gmOf_none hnone).trans hgm.symm)
  rw [hgone, hdone]
  refine ⟨?_, rfl, rfl, List.forall_mem_singleton.2 (hset hup), List.nil_subset _⟩
  rw [onEth_onEth] at henter
  exact henter.frame

/-! ### ARP and the link (R489, R667, R670) -/

/-- What an ARP request does. -/
def arpAsked (port ip : Nat) (s : State) : State :=
  if 2 ≤ port then s
  else if (vget s.time.ports port).linkUp && decide ((ptpCfg s port).ipv4 ≠ 0) && decide ((ptpCfg s port).ipv4 = ip) then out (.arpReply port ip) s
  else s

/-- What the link of a port does when it comes. -/
def linkRises (port : Nat) (s : State) : State :=
  if 2 ≤ port ∨ (ptpCfg s port).speed = 0 ∨ !(vget s.cages (3 + port)).enabled then s
  else
    let s := setEth port (fun x => { x with linkUp := true }) s
    let st := (vget s.time.ports port).state
    if ptpRuns s port ∧ (st = .initializing ∨ st = .faulty ∨ st = .disabled) then setPtpState port .listening s else s

theorem linkUp_listens (hp : port < 2) : Happens (.ethLinkUp · port)
    (fun s => up s ∧ (ptpCfg s port).speed ≠ 0 ∧ (vget s.cages (3 + port)).enabled = true ∧ ptpRuns s port = true ∧ (vget s.time.ports port).state = .initializing)
    (setEth port (fun x => { x with linkUp := true, state := .listening })) [0x3D1 + port] noPuts := by
  refine happens_up (f := linkRises port) (parts := []) (fun _ _ => rfl) (fun q hq => ⟨hq.1, List.forall_mem_nil _⟩) fun q _ _ hq => ?_
  obtain ⟨hup, hspeed, hcage, hruns, hst⟩ := hq
  let a := setEth port (fun x => { x with linkUp := true }) q
  have hport : (vget a.time.ports port).state = .initializing := by
    rw [show vget a.time.ports port = { vget q.time.ports port with linkUp := true } from onEth_port hp _ _]
    exact hst
  have hrise : linkRises port q = setPtpState port .listening a := by
    simp only [linkRises, Nat.not_le.2 hp, hspeed, hcage, Bool.not_true, Bool.false_eq_true, or_self, if_false]
    exact if_pos ⟨hruns, .inl hport⟩
  obtain ⟨henter, hset⟩ := (reaches_eth port (fun x => { x with linkUp := true }) q).enters (p := port) (st := .listening)
    (by rw [onEth_port hp, hst]; decide)
  rw [hrise]
  refine ⟨?_, rfl, rfl, List.forall_mem_singleton.2 (hset hup), List.nil_subset _⟩
  rw [onEth_onEth] at henter
  exact henter.frame

/-- With no frame in transmission the loss of a link ends none. -/
theorem ethDownViews_idle (h : ∀ v : Nat, v < 8 → (vget s.views v).sending = none) : ethDownViews port s = s :=
  foldl_range_fixed fun v hv => by rw [h v hv]

/-- What the loss of a port's link does. -/
def linkFalls (port : Nat) (s : State) : State :=
  if 2 ≤ port ∨ !(vget s.time.ports port).linkUp then s
  else
    let s := ethDownViews port (setEth port (fun x => { x with linkUp := false, best := none, syncWait := none }) s)
    runBmca (if ptpRuns s port then setPtpState port .faulty s else s)

theorem linkDown_faults (hp : port < 2) : Happens (.ethLinkDown · port)
    (fun s => up s ∧ runs port s ∧ ptpRuns s (1 - port) = false ∧ awake port s ∧ s.time.gm = 0 ∧ (∀ v : Nat, v < 8 → (vget s.views v).sending = none))
    (setEth port (fun x => { x with linkUp := false, state := .faulty, best := none, syncWait := none })) [0x3D1 + port] noPuts := by
  refine happens_up (f := linkFalls port) (parts := []) (fun _ _ => rfl) (fun q hq => ⟨hq.1, List.forall_mem_nil _⟩) fun q _ _ hq => ?_
  obtain ⟨hup, hruns, hother, ⟨-, hfaulty, -⟩, hgm, hidle⟩ := hq
  let a := setEth port (fun x => { x with linkUp := false, best := none, syncWait := none }) q
  obtain ⟨henter, hset⟩ := (reaches_eth port (fun x => { x with linkUp := false, best := none, syncWait := none }) q).enters (p := port) (st := .faulty)
    (by rw [onEth_port hp]; exact hfaulty)
  let r := setPtpState port .faulty a
  have hfall : linkFalls port q = runBmca r := by
    simp only [linkFalls, Nat.not_le.2 hp, hruns.2, Bool.not_true, Bool.false_eq_true, or_self, if_false]
    rw [ethDownViews_idle (s := a) hidle, if_pos (show ptpRuns a port = true from hruns.1)]
  have hnew : vget r.time.ports port = { vget q.time.ports port with linkUp := false, best := none, syncWait := none, state := .faulty } := by
    rw [henter.port, onEth_port hp, onEth_port hp]
  have hdone : runBmca r = r := by
    rw [runBmca_asleep hp ((henter.ptpRuns _).trans hother) (by rw [hnew])]
    exact henter.followsSame ((henter.gmOf_none hp hruns.1 hother (by rw [onEth_port hp, onEth_port hp])).trans hgm.symm)
  rw [hfall, hdone]
  refine ⟨?_, rfl, rfl, List.forall_mem_singleton.2 (hset hup), List.nil_subset _⟩
  rw [onEth_onEth] at henter
  exact henter.frame

end

/-! ### What a slave's Sync leaves -/

section
variable {s : State} {f : State → State} {src n : Nat} {x y : TimeUnit} {j : Instr} {t : Nat}

theorem OutFrame.retimed {a b : State} (h : OutFrame a b) (hy : { y with clock := x.clock } = x) :
    OutFrame { a with free := n, time := y } { b with free := n, time := x } := by
  unfold OutFrame at *
  rw [h]
  simp only [hy]

theorem retimed_settled (n : Nat) (x : TimeUnit) (q : State) : Settled q { q with free := n, time := x } := ⟨rfl, rfl, rfl, rfl, rfl⟩

/-- A unit of the fabric that changes the time unit and raises a source. -/
theorem next_raised (hx : exec j s = runFabric t [] s f) (hi : s.Inv) (hup : up s)
    (hf : f (tick t s) = raise src 0 0 { tick t s with free := n, time := x }) (hy : { y with clock := x.clock } = x) :
    Next j s fun r => OutFrame { s with free := n, time := y } r ∧ r.time.clock = x.clock ∧ bitOf r.host.evt.pending src = true := by
  have hq : up { tick t s with free := n, time := x } := hup
  have hframe : OutFrame { s with free := n, time := y } { tick t s with free := n, time := x } := (tick_frame t hi).retimed hy
  refine next_up hx hi hup (List.forall_mem_nil _) ?_ ?_
  · rw [hf]
    exact (retimed_settled n x (tick t s)).trans (raise_settled _ _ _ _)
  · rw [hf]
    exact ⟨hframe.trans (raise_frame _ _ _ _), congrArg TimeUnit.clock (raise_time _ _ _ _), raise_sets _ _ _ hq⟩

end

section
variable {port : Nat} {m : PtpMsg} {s : State}

/-- The time unit of a Sync taken at a time, the clock as before. -/
def lockedAt (t port : Nat) (m : PtpMsg) (s : State) : TimeUnit :=
  { s.time with
    ports := vmod s.time.ports port fun x => { x with
      lastSync := some (m.origin + m.correction, m.received + (ptpCfg s port).ingress), lastSyncAt := max s.now t }
    offset := syncOffset port m s, pathDelay := (vget s.time.ports port).pathDelay, holdover := false, stepBlocked := false, lockCount := 16
    locked := true }

def lostAt (t port : Nat) (m : PtpMsg) (s : State) : TimeUnit :=
  { s.time with
    ports := vmod s.time.ports port fun x => { x with
      lastSync := some (m.origin + m.correction, m.received + (ptpCfg s port).ingress), lastSyncAt := max s.now t }
    offset := syncOffset port m s, pathDelay := (vget s.time.ports port).pathDelay, holdover := false, lockCount := 0, locked := false }

theorem locked_clock (a t : Nat) :
    { lockedAt t port m s with clock := (steeredTo a port m (tick t s)).clock } = steeredTo a port m (tick t s) := by
  simp only [lockedAt, steeredTo, synced]
  rfl

theorem lost_clock (t : Nat) : { lostAt t port m s with clock := (slewedTo port m (tick t s)).clock } = slewedTo port m (tick t s) := by
  simp only [lostAt, slewedTo, synced]
  rfl

theorem next_locks (t : Nat) (hi : s.Inv) (hup : up s) (h : slaveSync port m s) (hforeign : ptpForeign s port m = false)
    (hin : (syncOffset port m s).natAbs ≤ (cfgNow s).time.lockNs) (hstep : (cfgNow s).time.lockNs < (cfgNow s).time.stepNs)
    (hn : s.time.lockCount = 15) (hl : s.time.locked = false) (hslew : (cfgNow s).time.maxSlew ≤ 500) :
    Next (.ptpMessage t port m) s fun r =>
      OutFrame (setEth port (fun x => { x with
          lastSync := some (m.origin + m.correction, m.received + (ptpCfg s port).ingress), lastSyncAt := max s.now t })
        { s with
          free := s.free + 1
          time := { s.time with
            offset := syncOffset port m s, pathDelay := (vget s.time.ports port).pathDelay, holdover := false, stepBlocked := false, lockCount := 16
            locked := true } }) r ∧
      Steered (tick t s).time.clock (cfgNow s).time.maxSlew r.time.clock ∧ bitOf r.host.evt.pending 0x3D3 = true := by
  obtain ⟨a, htake, hlo, hhi⟩ := takePtp_locks (s := tick t s) h hin hstep hn hl hslew
  have hreceive : receivePtp port m (tick t s) = _ := (receivePtp_taken (s := tick t s) h.1 h.2.1 hforeign).trans htake
  obtain ⟨r, hr, hframe, hclock, hset⟩ := next_raised (j := .ptpMessage t port m) rfl hi hup hreceive (locked_clock a t)
  refine ⟨r, hr, hframe, ?_, hset⟩
  rw [hclock]
  exact ⟨hlo, hhi, rfl⟩

theorem next_loses (t : Nat) (hi : s.Inv) (hup : up s) (h : slaveSync port m s) (hforeign : ptpForeign s port m = false)
    (hon : s.gauge.trigEnabled = true) (hlock : (cfgNow s).time.lockNs ≤ (cfgNow s).time.stepNs)
    (hstep : (cfgNow s).time.stepNs < (syncOffset port m s).natAbs) (hblocked : s.time.stepBlocked = true) (hl : s.time.locked = true) :
    Next (.ptpMessage t port m) s fun r =>
      OutFrame (setEth port (fun x => { x with
          lastSync := some (m.origin + m.correction, m.received + (ptpCfg s port).ingress), lastSyncAt := max s.now t })
        { s with time := { s.time with
            offset := syncOffset port m s, pathDelay := (vget s.time.ports port).pathDelay, holdover := false, lockCount := 0, locked := false } }) r ∧
      r.time.clock = { (tick t s).time.clock with slew := -syncOffset port m s * 4294967296, slewPpm := (cfgNow s).time.maxSlew } ∧
      bitOf r.host.evt.pending 0x3D3 = true := by
  have hreceive : receivePtp port m (tick t s) = _ :=
    (receivePtp_taken (s := tick t s) h.1 h.2.1 hforeign).trans (takePtp_loses (s := tick t s) h hon hlock hstep hblocked hl)
  obtain ⟨r, hr, hframe, hclock, hset⟩ := next_raised (j := .ptpMessage t port m) (n := s.free) rfl hi hup hreceive (lost_clock t)
  exact ⟨r, hr, hframe, hclock, hset⟩

end

/-- Settles O54: a message is followed through the port it comes to, the offset of a Sync through the servo, and an Announce, a timeout or the
link through the state decision of the one port that runs. -/
theorem ptpAndEthernet : Obligations.PtpAndEthernet := by
  unfold Obligations.PtpAndEthernet
  refine ⟨?_, ?_, ?_, ?_, ?_, ?_, ?_, ?_, announce_follows, announce_leads, ?_, ?_, ?_, ?_, ?_, ?_, ?_, ?_, fun _ hp => interval_masters hp, ?_,
    fun _ hp => receiptTimeout_masters hp, ?_, ?_, ?_, ?_, ?_, fun _ hp => linkUp_listens hp, ?_, fun _ hp => linkDown_faults hp, ?_⟩
  · exact fun port m => exactly_still (f := receivePtp port m) (fun _ _ => rfl) fun q h => receivePtp_unlinked h
  · exact fun port m hp => exactly_up (f := receivePtp port m) (fun _ _ => rfl) fun q ⟨hup, hlink, hoff⟩ =>
      ⟨hup, receivePtp_other hp hlink hoff, rfl, rfl, rfl, rfl, rfl⟩
  · exact fun port m hp => exactly_up (f := receivePtp port m) (fun _ _ => rfl) fun q ⟨hup, hruns, hforeign⟩ =>
      ⟨hup, receivePtp_foreign hp hruns hforeign, rfl, rfl, rfl, rfl, rfl⟩
  · exact fun port m hp hk htwo => exactly_ptp hp fun q ⟨hup, hruns, hforeign⟩ =>
      ⟨hup, hruns, hforeign, takePtp_twoStep hk htwo, setEth_settled _ _ _⟩
  · exact fun port m hp hk hone => exactly_ptp hp fun q ⟨hup, hruns, hforeign, hsource⟩ =>
      ⟨hup, hruns, hforeign, (takePtp_oneStep hk hone).trans (takeSync_noted _ _ hsource), setEth_settled _ _ _⟩
  · refine fun port m at_ c hp hk => exactly_ptp hp fun q ⟨hup, hruns, hforeign, hsource, hwait⟩ => ⟨hup, hruns, hforeign, ?_, setEth_settled _ _ _⟩
    exact ((takePtp_followUp hk hwait).trans (takeSync_noted _ _ hsource)).trans (setEth_setEth _ _ _ _)
  · exact fun t s port m hi hup hp hruns hforeign hk hone hsource hst hkeeps hin hstep hn hl hslew =>
      next_locks t hi hup ⟨hp, hruns, hk, hone, hsource, hst, hkeeps⟩ hforeign hin hstep hn hl hslew
  · exact fun t s port m hi hup hp hruns hforeign hk hone hsource hst hkeeps hon hlock hstep hblocked hl =>
      next_loses t hi hup ⟨hp, hruns, hk, hone, hsource, hst, hkeeps⟩ hforeign hon hlock hstep hblocked hl
  · refine fun port m hp hk => happens_ptp hp (fun q hc => ⟨hc.1, hc.2.1, hc.2.2.1⟩) fun q hc => ?_
    rw [takePtp_delayReq hk, if_pos hc.2.2.2]
    exact ⟨rfl, rfl, rfl, List.forall_mem_nil _, out_puts _ _⟩
  · exact fun port m hp hk => exactly_ptp hp fun q ⟨hup, hruns, hforeign, hst⟩ =>
      ⟨hup, hruns, hforeign, (takePtp_delayReq hk).trans (if_neg hst), .refl q⟩
  · exact fun port m t1 t2 t3 hp hk => exactly_ptp hp fun q ⟨hup, hruns, hforeign, hsent, hsync⟩ =>
      ⟨hup, hruns, hforeign, takePtp_delayResp hk hsent hsync, setEth_settled _ _ _⟩
  · refine fun port m hp hk => happens_ptp hp (fun q hc => hc) fun q _ => ?_
    rw [takePtp_pdelayReq hk, out_out]
    exact ⟨rfl, rfl, rfl, List.forall_mem_nil _, List.subset_append_right _ _⟩
  · refine fun port kind => exactly_still (f := interval port kind) (fun _ _ => rfl) fun q h => if_pos ?_
    simpa using h
  · refine fun port hp => happens_interval hp (fun q hc => ⟨hc.1, hc.2.1⟩) fun q hc => ?_
    exact (if_pos hc.2.2).trans (congrArg (setEth port _) (out_out _ _ q))
  · refine fun port hp => exactly_still (f := interval port .sync) (fun _ _ => rfl) fun q h => ?_
    have hsend : sendPtp port .sync q = q := if_neg h
    unfold interval
    rw [hsend, ite_self]
  · refine fun port hp => happens_interval hp (fun q hc => ⟨hc.1, hc.2.1⟩) fun q hc => ?_
    exact (if_neg (by rw [hc.2.2]; decide)).trans (if_pos hc.2.2)
  · refine fun port hp => happens_interval hp (fun q hc => ⟨hc.1, hc.2.1⟩) fun q hc => ?_
    obtain ⟨-, -, hpeer, hst⟩ := hc
    have hpeer' : ¬ (timeCfg q).peer = true := by rw [show (timeCfg q).peer = false from hpeer]; decide
    exact ((if_neg hpeer').trans (if_pos (.inl hst))).trans (setEth_setEth _ _ _ _)
  · refine fun port => exactly_still (f := announceGone port) (fun _ _ => rfl) fun q h => if_pos ?_
    simpa using h
  · refine fun port ip hp hip => happens_up (f := arpAsked port ip) (parts := []) (fun _ _ => rfl) (fun q hq => ⟨hq.1, List.forall_mem_nil _⟩) fun q _ _ hq => ?_
    obtain ⟨-, hlink, haddr⟩ := hq
    rw [show arpAsked port ip q = out (.arpReply port ip) q by simp [arpAsked, Nat.not_le.2 hp, hlink, haddr, hip]]
    exact ⟨rfl, rfl, rfl, List.forall_mem_nil _, out_puts _ _⟩
  · refine fun port ip => exactly_still (f := arpAsked port ip) (fun _ _ => rfl) fun q h => ?_
    rcases h with h | h | h <;> simp [arpAsked, h]
  · refine fun port hp => exactly_up (f := fun s => if 2 ≤ port ∨ !(vget s.time.ports port).linkUp then s else countOther s) (fun _ _ => rfl)
      fun q ⟨hup, hlink⟩ => ⟨hup, if_neg (by simp [Nat.not_le.2 hp, hlink]), rfl, rfl, rfl, rfl, rfl⟩
  · exact fun port _ => exactly_still (f := fun s => if 2 ≤ port ∨ !(vget s.time.ports port).linkUp then s else countOther s) (fun _ _ => rfl)
      fun q h => if_pos (.inr (by rw [h]; rfl))
  · refine fun port => exactly_still (f := linkRises port) (fun _ _ => rfl) fun q h => if_pos ?_
    simpa using h
  · refine fun port => exactly_still (f := linkFalls port) (fun _ _ => rfl) fun q h => if_pos ?_
    simpa using h

end Sys2Proof.Machine

/-! ## The pair: roles, heartbeats and failover (R697 to R715) -/

namespace Sys2Proof.Machine

/-! ### What a change of role leaves -/

section
variable {a b c s r : State}

/-- `r` is `s` but for the pair, the links, the ring, the queues and stations, the view streams, and what a raised source writes. -/
structure RoleFrame (s r : State) : Prop where
  now : r.now = s.now
  frame : OutFrame { s with pair := r.pair, links := r.links, ring := r.ring, scribe := r.scribe, views := r.views } r

theorem RoleFrame.trans (h : RoleFrame a b) (h' : RoleFrame b c) : RoleFrame a c := by
  obtain ⟨hnow, hframe⟩ := h
  obtain ⟨hnow', hframe'⟩ := h'
  refine ⟨hnow'.trans hnow, ?_⟩
  unfold OutFrame at *
  rw [hframe] at hframe'
  exact hframe'

/-- A change of role: what the pair's state and the queues and stations are after it. -/
structure Moves (s r : State) (pair : PairUnit) (scribe : Scribe) : Prop where
  frame : RoleFrame s r
  pair : r.pair = pair
  scribe : r.scribe = scribe
  keeps : ∀ e, bitOf s.host.evt.pending e = true → bitOf r.host.evt.pending e = true

variable {p p' : PairUnit} {x x' : Scribe}

theorem Moves.trans (h : Moves a b p x) (h' : Moves b c p' x') : Moves a c p' x' :=
  ⟨h.frame.trans h'.frame, h'.pair, h'.scribe, fun e he => h'.keeps e (h.keeps e he)⟩

/-- A further change that leaves the pair's state, the queues and the stations. -/
theorem Moves.same (h : Moves a b p x) (h' : Moves b c b.pair b.scribe) : Moves a c p x := by
  rw [h.pair, h.scribe] at h'
  exact h.trans h'

theorem moves_raise (src : Nat) (v w : Int) (s : State) : Moves s (raise src v w s) s.pair s.scribe := by
  have hf := raise_frame src v w s
  refine ⟨⟨raise_now _ _ _ _, ?_⟩, hf.pair, hf.scribe, fun _ => raise_keeps _ _ _⟩
  unfold OutFrame at *
  rw [hf]

theorem moves_setPair (f : PairUnit → PairUnit) (s : State) : Moves s (setPair f s) (f s.pair) s.scribe := ⟨⟨rfl, rfl⟩, rfl, rfl, fun _ => id⟩

theorem moves_setUplink (relay : Bool) (s : State) : Moves s (setUplink relay s) s.pair s.scribe := ⟨⟨rfl, rfl⟩, rfl, rfl, fun _ => id⟩

theorem moves_openRelays (s : State) : Moves s (openRelays s) s.pair s.scribe := ⟨⟨rfl, rfl⟩, rfl, rfl, fun _ => id⟩

theorem setRole_raises {role : PairRole} {cause : PairCause} (h : s.pair.role ≠ role) :
    setRole role cause s = raise 0x3E6 (roleCode role) (pairCauseCode cause) (setPair (fun p => { p with role := role, cause := cause }) s) := if_neg h

theorem moves_setRole {role : PairRole} (cause : PairCause) (h : s.pair.role ≠ role) :
    Moves s (setRole role cause s) { s.pair with role := role, cause := cause } s.scribe := by
  rw [setRole_raises h]
  exact (moves_setPair _ s).trans (moves_raise _ _ _ _)

theorem setRole_sets {role : PairRole} (cause : PairCause) (h : s.pair.role ≠ role) (hup : up s) :
    bitOf (setRole role cause s).host.evt.pending 0x3E6 = true := by
  rw [setRole_raises h]
  exact raise_sets (s := setPair _ s) _ _ _ hup

theorem Moves.upholds (h : Moves a b p x) (hup : up a) : up b := h.frame.frame.hf_fabric.trans hup

theorem Moves.settled (h : Moves a b p x) : Settled a b :=
  ⟨h.frame.now, h.frame.frame.pending, congrArg Bench.mem h.frame.frame.bench, congrArg Bench.writes h.frame.frame.bench,
    congrArg Bench.emptied h.frame.frame.bench⟩

/-- The uplinks of both through connectors after a change of their source (R697). -/
abbrev uplinks (relay : Bool) (s : State) : Prop := (vget s.links.through 0).relaySource = relay ∧ (vget s.links.through 1).relaySource = relay

theorem setUplink_uplinks (relay : Bool) (s : State) : uplinks relay (setUplink relay s) := by
  have hone := (vget_vmod_ne (setThrough 1 (fun x => { x with relaySource := relay }) s).links.through 0 1 (fun x => { x with relaySource := relay })
    (by decide)).trans (vget_vmod_self s.links.through 1 _ (by decide))
  exact ⟨congrArg Through.relaySource (vget_vmod_self _ 0 _ (by decide)), congrArg Through.relaySource hone⟩

theorem openRelays_uplinks {relay : Bool} (h : uplinks relay s) : uplinks relay (openRelays s) := h

/-! ### What settles -/

/-- Neither a glue-up, a digest nor a snapshot waits for anything. -/
abbrev unhurried (s : State) : Prop := s.glue = none ∧ s.pair.work = [] ∧ s.pair.snapshot = none

theorem settle_unhurried (h : unhurried s) : settle s = s := by
  obtain ⟨hglue, hwork, hsnap⟩ := h
  have hstill : settleGlue s = s := by simp only [settleGlue, hglue]
  have hdigest : pairDigest s = s := by simp only [pairDigest, hwork, List.foldl_nil, ite_self]
  rw [settle, hstill, hdigest]
  simp only [sendSnapshot, hsnap]

theorem OutFrame.unhurried (h : OutFrame a b) (ha : Machine.unhurried a) : Machine.unhurried b := by
  rw [Machine.unhurried, h.glue, h.pair]
  exact ha

theorem checkStop_none (h : s.gauge.stopAfter = none) : checkStop s = s := by simp only [checkStop, h]

theorem checkSwitch_none (h : s.pair.switchAt = none) : checkSwitch s = s := by simp only [checkSwitch, h]

theorem afterTriggers_still (hstop : s.gauge.stopAfter = none) (hswitch : checkSwitch s = s) (h : unhurried s) : afterTriggers s = s := by
  rw [afterTriggers, checkStop_none hstop, onFabric, Function.comp_apply, hswitch, settle_unhurried h, ite_self]

end

/-! ### A message over JM -/

section
variable {i : Nat → Instr} {f new : State → State} {cond : State → Prop} {evs : List Nat} {puts : State → List Emit}

/-- What a message over JM does. -/
def mirrored (f : State → State) (s : State) : State := if portUp s 2 then onFabric [] settle (f s) else s

theorem mirrored_takes {s : State} (h : isPortUp (vget s.ring.ports 2).state = true) (hf : unhurried (f s)) : mirrored f s = f s := by
  rw [mirrored, if_pos (show portUp s 2 = true from h), onFabric_idle (settle_unhurried hf)]

theorem exactly_mirrored (hx : ∀ t s, exec (i t) s = onMirror t s f)
    (h : ∀ q, cond q → mirrors q ∧ f q = new q ∧ Settled q (new q) ∧ unhurried (new q)) : Exactly i cond new := by
  refine exactly_up (f := mirrored f) hx fun q hq => ?_
  obtain ⟨⟨hup, hport, -⟩, hf, hset, hstill⟩ := h q hq
  refine ⟨hup, ?_, hset⟩
  rw [mirrored_takes hport (by rw [hf]; exact hstill), hf]

theorem happens_mirrored (hx : ∀ t s, exec (i t) s = onMirror t s f) (hc : ∀ q, cond q → mirrors q)
    (h : ∀ q, cond q → OutFrame (new q) (f q) ∧ unhurried (new q) ∧ (new q).bench = q.bench ∧ (new q).pending = q.pending ∧
      (∀ e ∈ evs, bitOf (f q).host.evt.pending e = true) ∧ puts q ⊆ (f q).emit) : Happens i cond new evs puts := by
  refine happens_up (f := mirrored f) (parts := []) hx (fun q hq => ⟨(hc q hq).1, List.forall_mem_nil _⟩) fun q _ _ hq => ?_
  obtain ⟨hframe, hstill, hrest⟩ := h q hq
  rw [mirrored_takes (hc q hq).2.1 (hframe.unhurried hstill)]
  exact ⟨hframe, hrest⟩

/-- A message over JM that raises one source. -/
theorem happens_mirrorRaises (src : Nat) (hx : ∀ t s, exec (i t) s = onMirror t s f) (hc : ∀ q, cond q → mirrors q)
    (hkeeps : ∀ q, (new q).bench = q.bench ∧ (new q).pending = q.pending ∧ (new q).hf = q.hf)
    (h : ∀ q, cond q → unhurried (new q) ∧ ∃ v w, f q = raise src v w (new q)) : Happens i cond new [src] noPuts := by
  refine happens_mirrored hx hc fun q hq => ?_
  obtain ⟨hbench, hpending, hhf⟩ := hkeeps q
  obtain ⟨hstill, v, w, hf⟩ := h q hq
  rw [hf]
  refine ⟨raise_frame _ _ _ _, hstill, hbench, hpending, List.forall_mem_singleton.2 (raise_sets _ _ _ ?_), List.nil_subset _⟩
  rw [hhf]
  exact (hc q hq).1

end

/-! ### The pairing exchange (R709) -/

section
variable {h : PairHello} {s : State}

/-- The exchange noted. -/
def helloNoted (h : PairHello) (s : State) : State := setPair (fun p => { p with partner := some h, partnerLost := false, diverged := false }) s

theorem takeHello_other (hrole : s.pair.role ≠ .pairing) : takeHello h s = s := if_pos hrole

theorem takeHello_mismatch (hrole : s.pair.role = .pairing) (hbad : helloMatches (ownHello s) h = false) :
    takeHello h s = raise 0x3E6 (roleCode .pairing) (pairCauseCode .mismatch)
      (setPair (fun p => { p with partner := some h, partnerLost := false, diverged := false, cause := .mismatch, chosen := none }) s) := by
  simp only [takeHello, hrole, ne_eq, not_true_eq_false, if_false, hbad, Bool.not_false, if_true]
  rfl

theorem takeHello_chosen (hrole : s.pair.role = .pairing) (hgood : helloMatches (ownHello s) h = true) (hself : choosesSelf (ownHello s) h = true) :
    takeHello h s = journal (pairSnapshot (stripAhead s 3) s) (setPair (fun p => { p with
      partner := some h, partnerLost := false, diverged := false, chosen := some true, resyncFrom := stripAhead s 3
      atStrip := some (stripAhead s 6), snapshot := none }) s) := by
  simp only [takeHello, hrole, ne_eq, not_true_eq_false, if_false, hgood, hself, Bool.not_true, Bool.false_eq_true, if_true]
  rfl

theorem takeHello_other_chosen (hrole : s.pair.role = .pairing) (hgood : helloMatches (ownHello s) h = true)
    (hself : choosesSelf (ownHello s) h = false) (hoff : s.gauge.trigEnabled = false) :
    takeHello h s = setPair (fun p => { p with partner := some h, partnerLost := false, diverged := false, chosen := some false, atStrip := none })
      { s with staged := cfgNow s } := by
  have hstop : stopNow (helloNoted h s) = helloNoted h s := by
    unfold stopNow
    simp only [show (helloNoted h s).gauge.trigEnabled = false from hoff, Bool.not_false, if_true]
  unfold takeHello
  simp only [hrole, ne_eq, not_true_eq_false, if_false, hgood, hself, Bool.not_true, Bool.false_eq_true]
  rw [show setPair (fun p => { p with partner := some h, partnerLost := false, diverged := false }) s = helloNoted h s from rfl, hstop]
  rfl

theorem helloMatches_masks (hbad : (cfgNow s).pair.portHome ^^^ h.portHome ≠ 4095 ∨ (cfgNow s).pair.axisOwner &&& h.axisOwner ≠ 0) :
    helloMatches (ownHello s) h = false := by
  rcases hbad with hbad | hbad <;> simp [helloMatches, ownHello, hbad]

theorem helloMatches_pair (hhome : (cfgNow s).pair.portHome ^^^ h.portHome = 4095) (howner : (cfgNow s).pair.axisOwner &&& h.axisOwner = 0)
    (hserial : (cfgNow s).pair.partner = h.serial) (hany : h.partnerSerial = 0) : helloMatches (ownHello s) h = true := by
  simp [helloMatches, ownHello, hhome, howner, hserial, hany]

theorem choosesSelf_prefers (hprefer : (cfgNow s).pair.preferActive = !h.preferActive) : choosesSelf (ownHello s) h = !h.preferActive := by
  unfold choosesSelf
  rw [show (ownHello s).preferActive = !h.preferActive from hprefer, if_pos (by simp)]

end

theorem pairingExchange_chosen (h : PairHello) (hp : h.preferActive = false) (hany : h.partnerSerial = 0) : Happens (.pairingExchange · h)
    (fun s => mirrors s ∧ s.pair.role = .pairing ∧ (cfgNow s).pair.portHome ^^^ h.portHome = 4095 ∧ (cfgNow s).pair.axisOwner &&& h.axisOwner = 0 ∧
      (cfgNow s).pair.partner = h.serial ∧ (cfgNow s).pair.preferActive = true)
    (fun s => pairWith (fun p => { p with
      partner := some h, partnerLost := false, diverged := false, chosen := some true, resyncFrom := stripAhead s 3
      atStrip := some (stripAhead s 6), journalEntries := wrap32 (p.journalEntries + 1) }) s) []
    (fun s => [.journal (.snapshot (cfgNow s) s.marq.active (s.dovetail.maps.toList.map (·.active)) (s.plane.slots.toList.map (·.active))
      (stripAhead s 3) s.gauge.n0 s.gauge.origin s.gauge.trigEnabled)]) := by
  refine happens_mirrored (f := takeHello h) (fun _ _ => rfl) (fun q hq => hq.1) fun q hq => ?_
  obtain ⟨⟨-, -, hglue, hwork, hsnap⟩, hrole, hhome, howner, hserial, hprefer⟩ := hq
  rw [takeHello_chosen hrole (helloMatches_pair hhome howner hserial hany)
    ((choosesSelf_prefers (by rw [hprefer, hp]; rfl)).trans (by rw [hp]; rfl))]
  refine ⟨OutFrame.outs ?_ _, ⟨hglue, hwork, hsnap⟩, rfl, rfl, List.forall_mem_nil _, out_puts _ _⟩
  unfold OutFrame setPair pairWith
  simp only [hsnap]

/-! ### Heartbeats (R702, R711, R712) -/

section
variable {k : Nat} {s : State}

/-- The partner's heartbeat noted. -/
def heartbeatNoted (k : Nat) (s : State) : State := setPair (fun p => { p with lastHeartbeat := some s.now, partnerRole := k }) s

/-- What the partner's heartbeat does. -/
def heartbeatTaken (k : Nat) (s : State) : State := takeUpTriggers s.pair.role (takeHeartbeat k s)

theorem takeUpTriggers_other {was : PairRole} (h : was ≠ .passive ∨ s.pair.role ≠ .active) : takeUpTriggers was s = s :=
  if_neg fun hboth => h.elim (· hboth.1) (· hboth.2)

theorem heartbeatTaken_noted (hk : k ≠ 0) (hrole : s.pair.role = .active ∨ s.pair.role = .solo ∨ s.pair.role = .failed) :
    heartbeatTaken k s = heartbeatNoted k s := by
  have htake : takeHeartbeat k s = heartbeatNoted k s := by
    have hnoted : (heartbeatNoted k s).pair.role = s.pair.role := rfl
    show followPartner k (heartbeatNoted k s) = _
    rcases hrole with hrole | hrole | hrole <;> simp [followPartner, hnoted, hrole, hk]
  rw [heartbeatTaken, htake]
  exact takeUpTriggers_other (.inl (by rcases hrole with h | h | h <;> rw [h] <;> decide))

theorem heartbeatTaken_paired (hrole : s.pair.role = .pairing) (hchosen : s.pair.chosen = some true) :
    heartbeatTaken 3 s = raise 0x3E6 (roleCode .active) (pairCauseCode .paired)
      (pairWith (fun p => { p with lastHeartbeat := some s.now, partnerRole := 3, role := .active, cause := .paired }) s) := by
  have htake : takeHeartbeat 3 s = setRole .active .paired (heartbeatNoted 3 s) := by
    have hnoted : (heartbeatNoted 3 s).pair.role = .pairing := hrole
    have hself : (heartbeatNoted 3 s).pair.chosen = some true := hchosen
    show followPartner 3 (heartbeatNoted 3 s) = _
    simp [followPartner, hnoted, hself]
  rw [heartbeatTaken, htake, takeUpTriggers_other (.inl (by rw [hrole]; decide)), setRole_raises (by rw [show (heartbeatNoted 3 s).pair.role = .pairing from hrole]; decide)]
  rfl

theorem quiet_other (h : isPassive s = false) : quiet s = s := by simp [quiet, h]

theorem heartbeatTaken_rejoins (hrole : s.pair.role = .mirrorLost) (hticket : s.pair.switchTicket = none) :
    heartbeatTaken k s = raise 0x3E6 (roleCode .pairing) (pairCauseCode .resumed)
      (rejoins .resumed (pairWith (fun p => { p with lastHeartbeat := some s.now, partnerRole := k }) s)) := by
  have hnoted : (heartbeatNoted k s).pair.role = .mirrorLost := hrole
  have hquiet : quiet (heartbeatNoted k s) = heartbeatNoted k s := quiet_other (by simp [isPassive, hnoted])
  have htake : takeHeartbeat k s = becomePairing .resumed (heartbeatNoted k s) := by
    show followPartner k (heartbeatNoted k s) = _
    simp only [followPartner, hnoted]
  have habort : abortSwitch (heartbeatNoted k s) = setPair (fun p => { p with switchAt := none, switchTicket := none }) (heartbeatNoted k s) := by
    simp only [abortSwitch, show (heartbeatNoted k s).pair.switchTicket = none from hticket, setPair]
  rw [heartbeatTaken, htake, takeUpTriggers_other (.inl (by rw [hrole]; decide)), becomePairing, hquiet, habort, setRole_raises (by
    show s.pair.role ≠ .pairing
    rw [hrole]
    decide)]
  rfl

end

/-! ### The queues as the active role moves (R713, R714) -/

section
variable {s : State}

theorem moves_setQueue (q : Nat) (f : Queue → Queue) (s : State) :
    Moves s (setQueue q f s) s.pair { s.scribe with queues := vmod s.scribe.queues q f } := ⟨⟨rfl, rfl⟩, rfl, rfl, fun _ => id⟩

theorem setQueue_plain {q : Nat} {f : Queue → Queue} (hf : ∀ x, (f x).threshold = x.threshold) (h : (vget s.scribe.queues q).threshold = 0) :
    (vget (setQueue q f s).scribe.queues q).threshold = 0 := (vget_vmod_congr (g := Queue.threshold) _ hf).trans h

/-- A queue of the lost partner's records: RD returns to REL (R713, step 4). -/
def queueTakenOver (x : Queue) : Queue := if x.on then { x with rd := x.rel, markValid := false, head := 0, thresholdDone := false } else x

theorem takeOverQueue_plain {q : Nat} (h : (vget s.scribe.queues q).threshold = 0) : takeOverQueue s q = setQueue q queueTakenOver s := by
  by_cases hon : (vget s.scribe.queues q).on = true
  · have hlevel : (vget (setQueue q (fun x => { x with rd := x.rel, markValid := false, head := 0 }) s).scribe.queues q).threshold = 0 :=
      setQueue_plain (fun _ => rfl) h
    rw [takeOverQueue, if_pos hon, queueLevel_off hlevel]
    simp only [setQueue, vmod_vmod]
    exact setQueue_congr (by rw [queueTakenOver, if_pos hon])
  · rw [takeOverQueue, if_neg hon]
    exact (setQueue_eq_self (by rw [queueTakenOver, if_neg hon])).symm

/-- The queues of the scribe, those below `n` taken over. -/
def queuesTaken (n : Nat) (x : Scribe) : Scribe := { x with queues := (List.range n).foldl (fun v q => vmod v q queueTakenOver) x.queues }

theorem queuesTaken_succ (n : Nat) (x : Scribe) :
    queuesTaken (n + 1) x = { queuesTaken n x with queues := vmod (queuesTaken n x).queues n queueTakenOver } := by
  simp only [queuesTaken, List.range_succ, List.foldl_append, List.foldl_cons, List.foldl_nil]

theorem queuesTaken_queue {q : Nat} (n : Nat) (x : Scribe) (hq : q < 16) :
    vget (queuesTaken n x).queues q = if q < n then queueTakenOver (vget x.queues q) else vget x.queues q := by
  induction n with
  | zero => rfl
  | succ n ih =>
    rw [queuesTaken_succ]
    by_cases h : q = n
    · subst h
      rw [if_neg (Nat.lt_irrefl q)] at ih
      rw [if_pos (Nat.lt_succ_self q)]
      exact (vget_vmod_self _ _ _ hq).trans (congrArg queueTakenOver ih)
    · have hlt : q < n + 1 ↔ q < n := by omega
      simp only [hlt]
      exact (vget_vmod_ne _ _ _ _ h).trans ih

theorem queuesTaken_stations (n : Nat) (x : Scribe) : (queuesTaken n x).stations = x.stations := rfl

theorem takeOverQueues_moves (h : ∀ q : Nat, q < 16 → (vget s.scribe.queues q).threshold = 0) (n : Nat) (hn : n ≤ 16) :
    Moves s ((List.range n).foldl takeOverQueue s) s.pair (queuesTaken n s.scribe) := by
  induction n with
  | zero => exact ⟨⟨rfl, rfl⟩, rfl, rfl, fun _ => id⟩
  | succ n ih =>
    have hbefore := ih (Nat.le_of_succ_le hn)
    have hplain : (vget ((List.range n).foldl takeOverQueue s).scribe.queues n).threshold = 0 := by
      rw [hbefore.scribe, queuesTaken_queue n _ hn, if_neg (Nat.lt_irrefl n)]
      exact h n hn
    have hstep := moves_setQueue n queueTakenOver ((List.range n).foldl takeOverQueue s)
    rw [hbefore.pair, hbefore.scribe, ← queuesTaken_succ] at hstep
    rw [List.range_succ, List.foldl_append, List.foldl_cons, List.foldl_nil, takeOverQueue_plain hplain]
    exact hbefore.trans hstep

theorem restartViews_moves (n : Nat) (s : State) : Moves s ((List.range n).foldl restartView s) s.pair s.scribe := by
  induction n with
  | zero => exact ⟨⟨rfl, rfl⟩, rfl, rfl, fun _ => id⟩
  | succ n ih =>
    have hstep : Moves ((List.range n).foldl restartView s) (restartView ((List.range n).foldl restartView s) n) _ _ :=
      ⟨⟨rfl, rfl⟩, ih.pair, ih.scribe, fun _ => id⟩
    rw [List.range_succ, List.foldl_append, List.foldl_cons, List.foldl_nil]
    exact ih.trans hstep

theorem restartViews_links (n : Nat) (s : State) : ((List.range n).foldl restartView s).links = s.links := by
  induction n with
  | zero => rfl
  | succ n ih => rwa [List.range_succ, List.foldl_append, List.foldl_cons, List.foldl_nil]

/-- A queue's read point and mark as the ledger of the mirror has them (R714). -/
def ledgerTaken (rd mk : Nat) (x : Queue) : Queue := { x with rd := rd, mkp := mk, head := 0, thresholdDone := false }

theorem takeLedgerMarks_one {q rd mk : Nat} (hledger : s.pair.ledger = [(q, rd, mk)]) (hon : (vget s.scribe.queues q).on = true)
    (h : (vget s.scribe.queues q).threshold = 0) : takeLedgerMarks s = setQueue q (ledgerTaken rd mk) s := by
  have hlevel : (vget (setQueue q (fun x => { x with rd := rd, mkp := mk, head := 0 }) s).scribe.queues q).threshold = 0 :=
    setQueue_plain (fun _ => rfl) h
  simp only [takeLedgerMarks, hledger, List.foldl_cons, List.foldl_nil, hon, if_true]
  rw [queueLevel_off hlevel]
  simp only [setQueue, vmod_vmod]
  rfl

end

/-! ### Leaving the pair (R697, R713, Table 16-6) -/

section
variable {cause : PairCause} {s r : State}

/-- The pair with nothing of an alignment, and no planned switch. -/
def unaligned (p : PairUnit) : PairUnit :=
  { p with
    switchAt := none, switchTicket := none, chosen := none, atStrip := none, resyncSince := none, snapshot := none, work := [], theirs := [] }

/-- The module has left the pair with a cause. -/
structure Left (cause : PairCause) (s r : State) : Prop where
  moves : Moves s r { unaligned s.pair with role := .solo, cause := cause } s.scribe
  uplinks : uplinks false r
  event : up s → bitOf r.host.evt.pending 0x3E6 = true

theorem becomeSolo_left (hrole : s.pair.role ≠ .solo) (hticket : s.pair.switchTicket = none) : Left cause s (becomeSolo cause s) := by
  have hsolo : becomeSolo cause s = openRelays (setUplink false (setRole .solo cause (setPair unaligned s))) := by
    simp only [becomeSolo, abortSwitch, hticket]
    rfl
  have hrole' : (setPair unaligned s).pair.role ≠ .solo := hrole
  have hmoves := ((moves_setPair unaligned s).trans (moves_setRole cause hrole')).same (moves_setUplink false _)
  have hopen := moves_openRelays (setUplink false (setRole .solo cause (setPair unaligned s)))
  rw [hsolo]
  exact ⟨hmoves.same hopen, openRelays_uplinks (setUplink_uplinks _ _),
    fun hup => hopen.keeps _ ((moves_setUplink _ _).keeps _ (setRole_sets cause hrole' hup))⟩

theorem Left.lone (h : Left cause s r) (hstop : noStop s) : lone r := by
  obtain ⟨hstop, hglue⟩ := hstop
  have hframe := h.moves.frame.frame
  refine ⟨hframe.glue.trans hglue, ?_, ?_, (congrArg Gauge.stopAfter hframe.gauge).trans hstop⟩
  · rw [h.moves.pair]
  · rw [h.moves.pair]
    rfl

theorem losePartner_none (h : s.pair.partnerMarks = []) : losePartner s = setPair (fun p => { p with partnerMarks := [], partnerLost := true }) s := by
  simp only [losePartner, h, List.foldl_nil]

/-- What the partner's failure makes of an active module (R712). -/
def goesAlone (s : State) : State := afterTriggers (becomeSolo .partnerFail (losePartner s))

theorem goesAlone_left (hrole : s.pair.role = .active) (hticket : s.pair.switchTicket = none) (hmarks : s.pair.partnerMarks = []) (hstop : noStop s) :
    Left .partnerFail (setPair (fun p => { p with partnerMarks := [], partnerLost := true }) s) (goesAlone s) := by
  have hleft := becomeSolo_left (cause := .partnerFail) (s := setPair (fun p => { p with partnerMarks := [], partnerLost := true }) s)
    (show s.pair.role ≠ .solo by rw [hrole]; decide) hticket
  rw [goesAlone, losePartner_none hmarks, afterTriggers_lone (hleft.lone hstop)]
  exact hleft

end

/-! ### The partner's FAIL (R712, R713) -/

section
variable {s : State}

/-- The partner's FAIL as it is now. -/
def failSeen (b : Bool) (s : State) : State := setPair (fun p => { p with partnerFail := b }) s

theorem partnerFail_quiet {b : Bool} (h : b = false ∨ s.pair.partnerFail = true) : partnerFail b s = failSeen b s := by
  rcases h with rfl | h
  · simp [partnerFail, failSeen]
  · simp [partnerFail, failSeen, h]

/-- The partner's FAIL comes. -/
def failRaised (s : State) : State := raise 0x3F6 1 0 (failSeen true s)

theorem failRaised_moves (s : State) : Moves s (failRaised s) { s.pair with partnerFail := true } s.scribe :=
  (moves_setPair _ s).same (moves_raise _ _ _ _)

theorem failRaised_sets (hup : up s) : bitOf (failRaised s).host.evt.pending 0x3F6 = true := raise_sets (s := failSeen true s) _ _ _ hup

theorem failRaised_role (s : State) : (failRaised s).pair.role = s.pair.role := by rw [(failRaised_moves s).pair]

theorem partnerFail_comes (h : s.pair.partnerFail = false) : partnerFail true s =
    match (failRaised s).pair.role with
    | .passive | .passiveResync => onFabric [] takeOver (failRaised s)
    | .active => onFabric [] goesAlone (failRaised s)
    | _ => failRaised s := by
  simp only [partnerFail, h, Bool.not_false, Bool.and_self, if_true, Bool.not_true, Bool.false_eq_true, or_self, if_false]
  rfl

theorem partnerFail_active (h : s.pair.partnerFail = false) (hup : up s) (hrole : s.pair.role = .active) :
    partnerFail true s = goesAlone (failRaised s) := by
  rw [partnerFail_comes h, failRaised_role, hrole]
  exact onFabric_up (parts := []) goesAlone ((failRaised_moves s).upholds hup) (List.forall_mem_nil _)

theorem partnerFail_passive (h : s.pair.partnerFail = false) (hup : up s) (hrole : s.pair.role = .passive) :
    partnerFail true s = takeOver (failRaised s) := by
  rw [partnerFail_comes h, failRaised_role, hrole]
  exact onFabric_up (parts := []) takeOver ((failRaised_moves s).upholds hup) (List.forall_mem_nil _)

theorem partnerFail_solo (h : s.pair.partnerFail = false) (hrole : s.pair.role = .solo) : partnerFail true s = failRaised s := by
  rw [partnerFail_comes h, failRaised_role, hrole]

end

/-! ### Takeover (R713) -/

section
variable {s : State} {m : PartnerMark}

/-- A mark of the lost partner as it ends. -/
def failedMark (m : PartnerMark) : Mark := { m.mark with state := .failed, cause := .partnerLost }

def stationLost (m : PartnerMark) (x : Station) : Station :=
  { x with ended := (failedMark m :: x.ended).take 256, cnt := countMark .partnerLost x.cnt }

theorem losePartnerMark_raises (m : PartnerMark) (s : State) : losePartnerMark m s =
    raise (0x230 + m.station) m.mark.ticket (markCauseCode .partnerLost) (setStation m.station (stationLost m) s) := rfl

/-- The stations with the mark of the lost partner ended. -/
def stationsLost (m : PartnerMark) (x : Scribe) : Scribe := { x with stations := vmod x.stations m.station (stationLost m) }

theorem losePartnerMark_moves (m : PartnerMark) (s : State) : Moves s (losePartnerMark m s) s.pair (stationsLost m s.scribe) := by
  have hset : Moves s (setStation m.station (stationLost m) s) s.pair (stationsLost m s.scribe) := ⟨⟨rfl, rfl⟩, rfl, rfl, fun _ => id⟩
  rw [losePartnerMark_raises]
  exact hset.same (moves_raise _ _ _ _)

theorem losePartner_moves (hmark : s.pair.partnerMarks = [m]) :
    Moves s (losePartner s) { s.pair with partnerMarks := [], partnerLost := true } (stationsLost m s.scribe) ∧
      (up s → bitOf (losePartner s).host.evt.pending (0x230 + m.station) = true) := by
  have hlose : losePartner s = losePartnerMark m (setPair (fun p => { p with partnerMarks := [], partnerLost := true }) s) := by
    simp only [losePartner, hmark, List.foldl_cons, List.foldl_nil]
  rw [hlose]
  refine ⟨(moves_setPair _ s).trans (losePartnerMark_moves m _), fun hup => ?_⟩
  rw [losePartnerMark_raises]
  exact raise_sets (s := setStation _ _ (setPair _ s)) _ _ _ hup

/-- The module in its new role, its uplinks its own. -/
def uplinkTaken (s : State) : State := setUplink false (setRole .takingOver .partnerFail s)

theorem uplinkTaken_moves (hrole : s.pair.role = .passive) :
    Moves s (uplinkTaken s) { s.pair with role := .takingOver, cause := .partnerFail } s.scribe :=
  (moves_setRole .partnerFail (by rw [hrole]; decide)).same (moves_setUplink false _)

/-- The pair's state of a module that takes over. -/
def takingOverPair (p : PairUnit) : PairUnit := { p with role := .takingOver, cause := .partnerFail, partnerMarks := [], partnerLost := true }

/-- The module taking over, its partner's marks ended. -/
def takingOver (s : State) : State := losePartner (uplinkTaken s)

theorem takingOver_moves (hrole : s.pair.role = .passive) (hmark : s.pair.partnerMarks = [m]) :
    Moves s (takingOver s) (takingOverPair s.pair) (stationsLost m s.scribe) ∧ (up s → bitOf (takingOver s).host.evt.pending (0x230 + m.station) = true) := by
  have htake := uplinkTaken_moves hrole
  obtain ⟨hlose, hset⟩ := losePartner_moves (s := uplinkTaken s) (m := m) (by rw [htake.pair]; exact hmark)
  rw [htake.pair, htake.scribe] at hlose
  exact ⟨htake.trans hlose, fun hup => hset (htake.upholds hup)⟩

/-- The read points of every queue returned. -/
def queuesOver (s : State) : State := openRelays ((List.range 16).foldl takeOverQueue s)

theorem queuesOver_moves (hplain : ∀ q : Nat, q < 16 → (vget s.scribe.queues q).threshold = 0) :
    Moves s (queuesOver s) s.pair (queuesTaken 16 s.scribe) := by
  unfold queuesOver
  exact (takeOverQueues_moves hplain 16 (Nat.le_refl _)).same (moves_openRelays _)

/-- Every view stream starts again. -/
def viewsRestarted (s : State) : State := (List.range 8).foldl restartView s

theorem viewsRestarted_moves (s : State) : Moves s (viewsRestarted s) s.pair s.scribe := by
  unfold viewsRestarted
  exact restartViews_moves 8 s

/-- The streams of a module that takes over, started again. -/
def restarted (s : State) : State := viewsRestarted (queuesOver (takingOver s))

theorem restarted_moves (hrole : s.pair.role = .passive) (hmark : s.pair.partnerMarks = [m])
    (hplain : ∀ q : Nat, q < 16 → (vget s.scribe.queues q).threshold = 0) :
    Moves s (restarted s) (takingOverPair s.pair) (queuesTaken 16 (stationsLost m s.scribe)) ∧
      (up s → bitOf (restarted s).host.evt.pending (0x230 + m.station) = true) := by
  obtain ⟨hover, hset⟩ := takingOver_moves hrole hmark
  have hafter := (queuesOver_moves (s := takingOver s) (by rw [hover.scribe]; exact hplain)).same (viewsRestarted_moves _)
  rw [hover.pair, hover.scribe] at hafter
  unfold restarted
  exact ⟨hover.trans hafter, fun hup => hafter.keeps (0x230 + m.station) (hset hup)⟩

theorem startHeld_none (h : ∀ c : Nat, c < 64 → (vget s.dma.ch c).passiveHold = false) : (List.range 64).foldl startHeld s = s :=
  foldl_range_fixed fun c hc => by simp [startHeld, h c hc]

/-- The failover counted. -/
def failoverCounted (p : PairUnit) : PairUnit := { p with diverged := false, failovers := wrap32 (p.failovers + 1) }

theorem takeOver_raises (hrole : s.pair.role = .passive) (hoff : s.gauge.trigEnabled = false)
    (hplain : ∀ q : Nat, q < 16 → (vget s.scribe.queues q).threshold = 0) (hheld : ∀ c : Nat, c < 64 → (vget s.dma.ch c).passiveHold = false)
    (hmark : s.pair.partnerMarks = [m]) :
    takeOver s = afterTriggers (raise 0x3E9 0 0 (becomeSolo .partnerFail (setPair failoverCounted (restarted s)))) := by
  obtain ⟨hover, -⟩ := takingOver_moves hrole hmark
  have hqueues := queuesOver_moves (s := takingOver s) (by rw [hover.scribe]; exact hplain)
  have hdma : (queuesOver (takingOver s)).dma = s.dma := hqueues.frame.frame.dma.trans hover.frame.frame.dma
  have hgauge : (setRole .takingOver .partnerFail s).gauge.trigEnabled = false := by
    rw [(moves_setRole .partnerFail (by rw [hrole]; decide)).frame.frame.gauge]
    exact hoff
  have hstart : (List.range 64).foldl startHeld (queuesOver (takingOver s)) = queuesOver (takingOver s) :=
    startHeld_none (by rw [hdma]; exact hheld)
  simp only [takeOver, hrole, reduceCtorEq, decide_false, hgauge, Bool.false_eq_true, if_false]
  rw [show openRelays ((List.range 16).foldl takeOverQueue (losePartner (setUplink false (setRole .takingOver .partnerFail s)))) =
    queuesOver (takingOver s) from rfl, hstart]
  rfl

/-- What a takeover leaves. -/
structure TakenOver (m : PartnerMark) (s r : State) : Prop where
  moves : Moves s r { unaligned (failoverCounted (takingOverPair s.pair)) with role := .solo, cause := .partnerFail }
    (queuesTaken 16 (stationsLost m s.scribe))
  uplinks : uplinks false r
  marked : up s → bitOf r.host.evt.pending (0x230 + m.station) = true
  event : up s → bitOf r.host.evt.pending 0x3E9 = true

/-- The end of a takeover, the streams started again. -/
theorem takenOver_ends {g : State} (hg : Moves s g (failoverCounted (takingOverPair s.pair)) (queuesTaken 16 (stationsLost m s.scribe)))
    (hset : up s → bitOf g.host.evt.pending (0x230 + m.station) = true) (hstop : noStop s) (hticket : s.pair.switchTicket = none) :
    TakenOver m s (afterTriggers (raise 0x3E9 0 0 (becomeSolo .partnerFail g))) := by
  have hleft : Left .partnerFail g (becomeSolo .partnerFail g) := becomeSolo_left (by rw [hg.pair]; exact nofun) (by rw [hg.pair]; exact hticket)
  have hraise := raise_frame 0x3E9 0 0 (becomeSolo .partnerFail g)
  have hstop' : noStop g := by
    rw [noStop, hg.frame.frame.gauge, hg.frame.frame.glue]
    exact hstop
  have hmoves := hleft.moves.same (moves_raise 0x3E9 0 0 _)
  rw [hg.pair, hg.scribe] at hmoves
  rw [afterTriggers_lone (hraise.lone (hleft.lone hstop'))]
  refine ⟨hg.trans hmoves, ?_, fun hup => hmoves.keeps _ (hset hup), fun hup => raise_sets _ _ _ (hleft.moves.upholds (hg.upholds hup))⟩
  rw [uplinks, hraise.links]
  exact hleft.uplinks

theorem takeOver_takes (hrole : s.pair.role = .passive) (hoff : s.gauge.trigEnabled = false) (hplain : queuesPlain s)
    (hmark : s.pair.partnerMarks = [m]) (hstop : noStop s) (hticket : s.pair.switchTicket = none) : TakenOver m s (takeOver s) := by
  obtain ⟨hthreshold, hheld⟩ := hplain
  obtain ⟨hrestart, hset⟩ := restarted_moves hrole hmark hthreshold
  have hstep := moves_setPair failoverCounted (restarted s)
  rw [hrestart.pair, hrestart.scribe] at hstep
  rw [takeOver_raises hrole hoff hthreshold hheld hmark]
  exact takenOver_ends (hrestart.trans hstep) (fun hup => hstep.keeps _ (hset hup)) hstop hticket

end

/-! ### Missed heartbeats (R711, R712) -/

section
variable {s : State}

theorem stopNow_off (h : s.gauge.trigEnabled = false) : stopNow s = s := by simp only [stopNow, h, Bool.not_false, if_true]

theorem quiet_off (h : s.gauge.trigEnabled = false) : quiet s = s := by
  rw [quiet, stopNow_off h, ite_self]

theorem missed_some {a : Nat} (h : a + (cfgNow s).pair.hbTimeout * 1000 ≤ s.now) : missed s (some a) = true := decide_eq_true h

theorem heartbeatTimeout_solo (h : s.pair.role = .solo) : heartbeatTimeout s = s := by simp [heartbeatTimeout, inPair, h]

theorem heartbeatTimeout_passive {a : Nat} (hrole : s.pair.role = .passive) (hsent : s.pair.lastSent = none) (hheard : s.pair.lastHeartbeat = some a)
    (hlate : a + (cfgNow s).pair.hbTimeout * 1000 ≤ s.now) (hfail : s.pair.partnerFail = false) (hoff : s.gauge.trigEnabled = false) :
    heartbeatTimeout s = raise 0x3EA 0 0 (setRole .mirrorLost .heartbeat s) := by
  have hown : missed s s.pair.lastSent = false := by rw [hsent]; rfl
  have htheirs : missed s s.pair.lastHeartbeat = true := by rw [hheard]; exact missed_some hlate
  simp only [heartbeatTimeout, hown, Bool.and_false, Bool.false_eq_true, if_false, hrole, decide_true, Bool.true_or, htheirs, hfail, Bool.not_false,
    Bool.and_self, if_true, quiet_off hoff]

/-- The failure signal given, triggering halted. -/
def signalled (s : State) : State :=
  { s with
    pair := { s.pair with signalling := true, switchAt := none, switchTicket := none }
    gauge := { s.gauge with trigHalted := true } }

theorem safeStopAxes_off (mask : Nat) (cause : AxisCause) (haxes : axesOff s) (hstations : noStations s) : safeStopAxes mask cause s = s :=
  foldl_range_fixed fun a ha => by
    have hoff : safeStopAxis a cause s = s := by simp [safeStopAxis, haxes a ha]
    rw [withMarks, hoff, marksAfter_noStations s hstations, ite_self]

theorem giveSignal_raises (hsignal : s.pair.signalling = false) (hticket : s.pair.switchTicket = none) (hoff : s.gauge.trigEnabled = false)
    (haxes : axesOff s) (hstations : noStations s) :
    giveSignal s = raise 0x3F6 0 0 (setRole .failed .ownFail (setUplink true (signalled s))) := by
  have habort : haltTriggers (abortSwitch { s with pair := { s.pair with signalling := true } }) = signalled s := by
    simp only [abortSwitch, hticket]
    exact haltTriggers_idle hoff
  have haxes' : safeStopAxes 15 .safeStop (signalled s) = signalled s := safeStopAxes_off _ _ haxes hstations
  simp only [giveSignal, hsignal, Bool.false_eq_true, if_false]
  rw [habort, haxes']

/-- What the failure signal leaves of an active module. -/
structure Signalled (s r : State) : Prop where
  moves : Moves (signalled s) r { (signalled s).pair with role := .failed, cause := .ownFail } s.scribe
  uplinks : uplinks true r
  signal : up s → bitOf r.host.evt.pending 0x3F6 = true
  event : up s → bitOf r.host.evt.pending 0x3E6 = true

theorem signal_gives {q : State} (hrole : q.pair.role ≠ .failed) (hlinks : uplinks true q) :
    Moves q (raise 0x3F6 0 0 (setRole .failed .ownFail q)) { q.pair with role := .failed, cause := .ownFail } q.scribe ∧
      uplinks true (raise 0x3F6 0 0 (setRole .failed .ownFail q)) ∧
      (up q → bitOf (raise 0x3F6 0 0 (setRole .failed .ownFail q)).host.evt.pending 0x3F6 = true ∧
        bitOf (raise 0x3F6 0 0 (setRole .failed .ownFail q)).host.evt.pending 0x3E6 = true) := by
  have hmoves := moves_setRole .ownFail hrole
  refine ⟨hmoves.same (moves_raise _ _ _ _), ?_, fun hup => ⟨raise_sets _ _ _ (hmoves.upholds hup), raise_keeps _ _ _ (setRole_sets _ hrole hup)⟩⟩
  rw [uplinks, (raise_frame _ _ _ _).links, setRole_raises hrole, (raise_frame _ _ _ _).links]
  exact hlinks

theorem giveSignal_signalled (hrole : s.pair.role = .active) (hsignal : s.pair.signalling = false) (hticket : s.pair.switchTicket = none)
    (hoff : s.gauge.trigEnabled = false) (haxes : axesOff s) (hstations : noStations s) : Signalled s (giveSignal s) := by
  obtain ⟨hmoves, hlinks, hset⟩ := signal_gives (q := setUplink true (signalled s))
    (show s.pair.role ≠ .failed by rw [hrole]; decide) (setUplink_uplinks _ _)
  rw [giveSignal_raises hsignal hticket hoff haxes hstations]
  exact ⟨(moves_setUplink true (signalled s)).trans hmoves, hlinks, fun hup => (hset hup).1, fun hup => (hset hup).2⟩

theorem heartbeatTimeout_active {a : Nat} (hrole : s.pair.role = .active) (hsent : s.pair.lastSent = some a)
    (hlate : a + (cfgNow s).pair.hbTimeout * 1000 ≤ s.now) (hfailed : (giveSignal s).pair.role = .failed) : heartbeatTimeout s = giveSignal s := by
  have hown : missed s s.pair.lastSent = true := by rw [hsent]; exact missed_some hlate
  have hin : inPair s = true := by simp [inPair, hrole]
  simp [heartbeatTimeout, hown, hin, hfailed]

end

/-- What HB_TIMEOUT does, and what then settles. -/
def timeoutSettled (s : State) : State := onFabric [] settle (heartbeatTimeout s)

theorem timeoutSettled_unhurried {s : State} (h : unhurried (heartbeatTimeout s)) : timeoutSettled s = heartbeatTimeout s :=
  onFabric_idle (settle_unhurried h)

theorem heartbeatTimeout_mirrorLost (a : Nat) : Happens (.partnerHeartbeatTimeout ·)
    (fun s => up s ∧ s.pair.role = .passive ∧ s.glue = none ∧ s.pair.work = [] ∧ s.pair.snapshot = none ∧ s.pair.lastSent = none ∧
      s.pair.lastHeartbeat = some a ∧ a + (cfgNow s).pair.hbTimeout * 1000 ≤ s.now ∧ s.pair.partnerFail = false ∧ s.gauge.trigEnabled = false)
    (pairWith fun p => { p with role := .mirrorLost, cause := .heartbeat }) [0x3E6, 0x3EA] noPuts := by
  refine happens_of (f := timeoutSettled) (fun _ _ => rfl) fun q _ _ hq => ?_
  obtain ⟨hup, hrole, hglue, hwork, hsnap, hsent, hheard, hlate, hfail, hoff⟩ := hq
  have hne : q.pair.role ≠ .mirrorLost := by rw [hrole]; decide
  have htimeout := heartbeatTimeout_passive hrole hsent hheard hlate hfail hoff
  have hframe : OutFrame (pairWith (fun p => { p with role := .mirrorLost, cause := .heartbeat }) q) (heartbeatTimeout q) := by
    rw [htimeout, setRole_raises hne]
    exact (raise_frame _ _ _ _).trans (raise_frame _ _ _ _)
  rw [timeoutSettled_unhurried (hframe.unhurried ⟨hglue, hwork, hsnap⟩)]
  refine ⟨hframe, rfl, rfl, ?_, List.nil_subset _⟩
  rw [htimeout]
  exact List.forall_mem_cons.2 ⟨raise_keeps _ _ _ (setRole_sets _ hne hup),
    List.forall_mem_singleton.2 (raise_sets _ _ _ ((moves_setRole .heartbeat hne).upholds hup))⟩

theorem heartbeatTimeout_signals (t a : Nat) (s : State) (hi : s.Inv) (hup : up s) (hrole : s.pair.role = .active) (hglue : s.glue = none)
    (hwork : s.pair.work = []) (hsnap : s.pair.snapshot = none) (hsent : s.pair.lastSent = some a)
    (hlate : a + (cfgNow s).pair.hbTimeout * 1000 ≤ max s.now t) (hsignal : s.pair.signalling = false) (hticket : s.pair.switchTicket = none)
    (hoff : s.gauge.trigEnabled = false) (haxes : axesOff s) (hstations : noStations s) :
    Next (.partnerHeartbeatTimeout t) s fun r =>
      r.pair.role = .failed ∧ r.pair.signalling = true ∧ r.gauge = { s.gauge with trigHalted := true } ∧
      (vget r.links.through 0).relaySource = true ∧ (vget r.links.through 1).relaySource = true ∧ bitOf r.host.evt.pending 0x3F6 = true ∧
      bitOf r.host.evt.pending 0x3E6 = true ∧ r.bench.mem = s.bench.mem := by
  have hsignalled : Signalled (tick t s) (giveSignal (tick t s)) :=
    giveSignal_signalled (s := tick t s) hrole hsignal hticket hoff haxes hstations
  obtain ⟨hmoves, ⟨heast, hwest⟩, hset, hevent⟩ := hsignalled
  have hframe := hmoves.frame.frame
  have htimeout : heartbeatTimeout (tick t s) = giveSignal (tick t s) :=
    heartbeatTimeout_active (s := tick t s) hrole hsent hlate (by rw [hmoves.pair])
  have hstill : unhurried (heartbeatTimeout (tick t s)) := by
    rw [htimeout, unhurried, hframe.glue, hmoves.pair]
    exact ⟨hglue, hwork, hsnap⟩
  have hdone : timeoutSettled (tick t s) = giveSignal (tick t s) := (timeoutSettled_unhurried hstill).trans htimeout
  have hbase : Settled (tick t s) (signalled (tick t s)) := ⟨rfl, rfl, rfl, rfl, rfl⟩
  refine next_of (f := timeoutSettled) rfl hi ?_ ?_
  · rw [hdone]
    exact hbase.trans hmoves.settled
  · rw [hdone]
    refine ⟨?_, ?_, hframe.gauge, heast, hwest, hset hup, hevent hup, hmoves.settled.mem⟩
    · rw [hmoves.pair]
    · rw [hmoves.pair]
      rfl

/-! ### The planned switch (R714) -/

section
variable {s : State}

theorem driveTargets_off (counting : Bool) (h : s.gauge.trigEnabled = false) : driveTargets counting s = s := by
  simp [driveTargets, firing, h]

/-- The active role taken up, with the ledger's read points. -/
def switched (s : State) : State := openRelays (setUplink false (setRole .active .switch (takeLedgerMarks (heartbeatNoted 3 s))))

/-- The pair's state of a module that the switch has made active. -/
def switchedPair (now : Nat) (p : PairUnit) : PairUnit :=
  { p with lastHeartbeat := some now, partnerRole := 3, role := .active, cause := .switch }

/-- The queues with one read point and mark taken from the ledger of the mirror. -/
def ledgerQueues (q rd mk : Nat) (x : Scribe) : Scribe := { x with queues := vmod x.queues q (ledgerTaken rd mk) }

theorem switched_moves {q rd mk : Nat} (hrole : s.pair.role = .passive) (hledger : s.pair.ledger = [(q, rd, mk)])
    (hon : (vget s.scribe.queues q).on = true) (hplain : (vget s.scribe.queues q).threshold = 0) :
    Moves s (switched s) (switchedPair s.now s.pair) (ledgerQueues q rd mk s.scribe) ∧ uplinks false (switched s) ∧
      (up s → bitOf (switched s).host.evt.pending 0x3E6 = true) := by
  have hnoted : Moves s (heartbeatNoted 3 s) _ s.scribe := moves_setPair _ s
  have hmarks := moves_setQueue q (ledgerTaken rd mk) (heartbeatNoted 3 s)
  rw [← takeLedgerMarks_one (s := heartbeatNoted 3 s) hledger hon hplain, hnoted.pair, hnoted.scribe] at hmarks
  have hbefore := hnoted.trans hmarks
  have hne : (takeLedgerMarks (heartbeatNoted 3 s)).pair.role ≠ .active := by
    rw [hbefore.pair]
    show s.pair.role ≠ .active
    rw [hrole]
    decide
  have htake := moves_setRole .switch hne
  rw [hbefore.pair, hbefore.scribe] at htake
  have hopen := moves_openRelays (setUplink false (setRole .active .switch (takeLedgerMarks (heartbeatNoted 3 s))))
  unfold switched
  exact ⟨((hbefore.trans htake).same (moves_setUplink false _)).same hopen, openRelays_uplinks (setUplink_uplinks _ _),
    fun hup => hopen.keeps _ ((moves_setUplink _ _).keeps _ (setRole_sets _ hne (hbefore.upholds hup)))⟩

theorem heartbeatTaken_switches {q rd mk : Nat} (hrole : s.pair.role = .passive) (hledger : s.pair.ledger = [(q, rd, mk)])
    (hon : (vget s.scribe.queues q).on = true) (hplain : (vget s.scribe.queues q).threshold = 0) (hstop : noStop s) (hwork : s.pair.work = [])
    (hsnap : s.pair.snapshot = none) (hoff : s.gauge.trigEnabled = false) (hswitch : s.pair.switchAt = none) :
    heartbeatTaken 3 s = switched s ∧ unhurried (switched s) := by
  obtain ⟨hmoves, -, -⟩ := switched_moves hrole hledger hon hplain
  have hframe := hmoves.frame.frame
  have hstill : unhurried (switched s) := by
    rw [unhurried, hframe.glue, hmoves.pair]
    exact ⟨hstop.2, hwork, hsnap⟩
  have htake : takeHeartbeat 3 s = switched s := by
    show followPartner 3 (heartbeatNoted 3 s) = _
    simp only [followPartner, show (heartbeatNoted 3 s).pair.role = .passive from hrole, if_true]
    rfl
  have hactive : (switched s).pair.role = .active := by
    rw [hmoves.pair]
    rfl
  have hswitch' : (switched s).pair.switchAt = none := by
    rw [hmoves.pair]
    exact hswitch
  have hoff' : (switched s).gauge.trigEnabled = false := by
    rw [hframe.gauge]
    exact hoff
  have hstop' : (switched s).gauge.stopAfter = none := by
    rw [hframe.gauge]
    exact hstop.1
  refine ⟨?_, hstill⟩
  rw [heartbeatTaken, htake, takeUpTriggers, if_pos ⟨hrole, hactive⟩, driveTargets_off false hoff',
    afterTriggers_still hstop' (checkSwitch_none hswitch') hstill]

end

theorem heartbeat_switches (t strip q rd mk : Nat) (s : State) (hi : s.Inv) (hmirrors : mirrors s) (hstop : noStop s) (hrole : s.pair.role = .passive)
    (hledger : s.pair.ledger = [(q, rd, mk)]) (hq : q < 16) (hon : (vget s.scribe.queues q).on = true) (hplain : queuesPlain s)
    (hoff : s.gauge.trigEnabled = false) (hswitch : s.pair.switchAt = none) :
    Next (.jmHeartbeatRx t 3 strip) s fun r =>
      r.pair.role = .active ∧ r.pair.cause = .switch ∧ (vget r.scribe.queues q).rd = rd ∧ (vget r.scribe.queues q).mkp = mk ∧
      (vget r.scribe.queues q).live = (vget s.scribe.queues q).live ∧ (vget r.links.through 0).relaySource = false ∧
      (vget r.links.through 1).relaySource = false ∧ bitOf r.host.evt.pending 0x3E6 = true ∧ r.bench.mem = s.bench.mem ∧ r.gauge = s.gauge := by
  obtain ⟨hup, hport, -, hwork, hsnap⟩ := hmirrors
  have hthreshold := hplain.1 q hq
  obtain ⟨hmoves, ⟨heast, hwest⟩, hset⟩ := switched_moves (s := tick t s) hrole hledger hon hthreshold
  obtain ⟨htake, hstill⟩ := heartbeatTaken_switches (s := tick t s) hrole hledger hon hthreshold hstop hwork hsnap hoff hswitch
  have hdone : mirrored (heartbeatTaken 3) (tick t s) = switched (tick t s) :=
    (mirrored_takes (s := tick t s) hport (by rw [htake]; exact hstill)).trans htake
  have hqueue : vget (switched (tick t s)).scribe.queues q = ledgerTaken rd mk (vget s.scribe.queues q) := by
    rw [hmoves.scribe]
    exact vget_vmod_self s.scribe.queues q _ hq
  refine next_up (f := mirrored (heartbeatTaken 3)) (parts := []) rfl hi hup (List.forall_mem_nil _) ?_ ?_
  · rw [hdone]
    exact hmoves.settled
  · rw [hdone]
    refine ⟨by rw [hmoves.pair]; rfl, by rw [hmoves.pair]; rfl, by rw [hqueue]; rfl, by rw [hqueue]; rfl, by rw [hqueue]; rfl, heast, hwest, hset hup,
      hmoves.settled.mem, hmoves.frame.frame.gauge⟩

/-! ### A command that is accepted (R72, R83) -/

section
variable {sp : CmdSpec} {c : HostCmd} {s q : State} {t n w : Nat} {body : Bytes}

/-- Replies whose tickets have not ended leave the ledger as it is. -/
theorem drainPosts_unended (l : List PostEntry) (hold : Nat) (s : State)
    (h : ∀ w irq bytes, PostEntry.ready w irq bytes ∈ l → ticketSlot w ∉ s.ledger.ended) : (drainPosts n l hold s).2.ledger = s.ledger := by
  induction l generalizing hold s with
  | nil => rfl
  | cons e l ih =>
    have hrest : ∀ w irq bytes, PostEntry.ready w irq bytes ∈ l → ticketSlot w ∉ s.ledger.ended := fun w irq bytes hmem =>
      h w irq bytes (List.mem_cons_of_mem _ hmem)
    cases e with
    | waiting w => exact ih _ _ hrest
    | ready w irq bytes =>
      have hreport : (reportTicket w (writeReply n irq bytes s)).ledger = s.ledger := by
        have hended := h w irq bytes List.mem_cons_self
        simp only [reportTicket, writeReply_ledger, List.contains_eq_mem, decide_eq_false hended, Bool.and_false, Bool.false_and, Bool.false_eq_true,
          if_false]
      unfold drainPosts
      simp only
      split
      · exact ih _ _ hrest
      · rw [ih _ _ (by rw [hreport]; exact hrest), hreport]

theorem postReply_unended (irq : Bool) (bytes : Bytes) (hn : n < 4) (hposts : (vget s.host.rings n).posts = []) (hw : ticketSlot w ∉ s.ledger.ended) :
    (postReply n w irq bytes s).ledger = s.ledger := by
  have hplaced : (vget (setRing n (fun p => { p with posts := placePost w (.ready w irq bytes) p.posts }) s).host.rings n).posts = [.ready w irq bytes] := by
    rw [setRing_rings, vget_vmod_self _ _ _ hn, hposts]
    rfl
  unfold postReply flushRing
  simp only
  split
  · rfl
  · rw [hplaced, setRing_ledger]
    refine (drainPosts_unended _ _ _ fun v irq' bytes' hmem => ?_).trans rfl
    obtain ⟨rfl, -, -⟩ := PostEntry.ready.inj (List.mem_singleton.1 hmem)
    exact hw

/-- What ST_ACCEPTED leaves: the command in progress, its ticket as it was issued. -/
structure Running (r : CmdRec) (q x : State) : Prop where
  frame : ReplyFrame q x
  ledger : x.ledger = q.ledger
  found : cmdOf x r.ticket = some { r with accepted := true }

theorem answer_running {r : CmdRec} (hring : r.ring < 4) (hdirect : r.via = none) (hheard : r.silent = false)
    (hposts : (vget q.host.rings r.ring).posts = []) (hended : ticketSlot r.ticket ∉ q.ledger.ended) : Running r q (answer r stAccepted body q) := by
  let z := { dropCmd r.ticket q with cmds := (dropCmd r.ticket q).cmds ++ [{ r with accepted := true }] }
  have hanswer : answer r stAccepted body q = postReply r.ring r.ticket r.irq (replyBytes r.opcode stAccepted r.tag r.ticket z.ring.moduleId 0 body) z := by
    simp only [answer, sendReply, if_true, hdirect, hheard, Bool.false_eq_true, if_false, z]
  have hframe : ReplyFrame q z := rfl
  have hfound : cmdOf z r.ticket = some { r with accepted := true } := by
    have hnone := dropCmd_gone r.ticket q
    simp only [cmdOf] at hnone
    simp only [cmdOf, z, List.find?_append, hnone, Option.none_or]
    simp
  rw [hanswer]
  refine ⟨(postReply_frame _ _ _ _ _).after hframe, postReply_unended (s := z) _ _ hring hposts hended, ?_⟩
  rw [cmdOf, postReply_cmds]
  exact hfound

/-- A command that is accepted and leaves the Bench alone. -/
theorem execCmd_starts (h : Ready sp c s) (hm : acceptsMore s) (hu : sp.unitOk (taken t s) c = sp.unitOk s c) (hd : ∀ k ∈ sp.dies (taken t s) c, k < 2)
    (hrun : sp.run (recOf sp c s) c (taken t s) = accepted body q) (hk : KeepsReply (taken t s) q) (hafter : sp.after = id) (hlen : body.length ≤ 944)
    (hb : q.bench = s.bench) (hp : q.pending = s.pending) : ∃ r, execCmd sp t c s = .next r ∧ Accepts sp.opcode body c s r ∧ ReplyFrame q r := by
  obtain ⟨r, hr, haccepts, -, hreply⟩ := execCmd_accepted h hm hu hd hrun hk hafter hlen
  rw [committed_quiet h.inv hb, ← hb, ← hp] at hreply
  exact ⟨r, hr, haccepts, hreply⟩

/-- A command with what follows its reply, where it is accepted. -/
theorem execCmd_runsOn (h : Ready sp c s) (hm : acceptsMore s) (hu : sp.unitOk (taken t s) c = sp.unitOk s c) (hd : ∀ k ∈ sp.dies (taken t s) c, k < 2)
    (hrun : sp.run (recOf sp c s) c (taken t s) = accepted body q) (hk : KeepsReply (taken t s) q) :
    ∃ x, execCmd sp t c s = .next (commit (tick t s) (sp.after x)) ∧ runHere (withoutAfter sp) (recOf sp c s) c (taken t s) = x ∧
      Running (recOf sp c s) q x := by
  have hj : judge sp (recOf sp c s) c (taken t s) = accepted body q := (judge_ready h hu hd (recOf sp c s) fun _ => hm).trans hrun
  have hj' : judge (withoutAfter sp) (recOf sp c s) c (taken t s) = accepted body q := hj
  let b := journalled q sp.opcode c
  let e := JournalEntry.command sp.opcode c (u32 body 0)
  have hquiet : runHere (withoutAfter sp) (recOf sp c s) c (taken t s) = answer (recOf sp c s) stAccepted body (maybeJournal b e q) := by
    have hafter : (withoutAfter sp).after = id := rfl
    have hopcode : (withoutAfter sp).opcode = sp.opcode := rfl
    unfold runHere maybeJournal
    simp [hj', accepted, stAccepted, hafter, hopcode, b, e]
  have hfollowed : runHere sp (recOf sp c s) c (taken t s) = sp.after (answer (recOf sp c s) stAccepted body (maybeJournal b e q)) := by
    unfold runHere maybeJournal
    simp [hj, accepted, stAccepted, b, e]
  have hjournal := maybeJournal_frame b e q
  have hledger : (maybeJournal b e q).ledger = (taken t s).ledger := by
    rw [← hk.ledger]
    unfold maybeJournal
    split <;> rfl
  have hrings : (maybeJournal b e q).host.rings = s.host.rings := by
    rw [← (taken_frame t h.inv h.slot).rings, ← hk.rings]
    unfold maybeJournal
    split <;> rfl
  have hended : ticketSlot (nextTicket s) ∉ (maybeJournal b e q).ledger.ended := by
    rw [hledger, (issue_ledger (issue_taken t h.slot)).2.2.2, tick_ledger, nextTicket, ticketSlot_add _ h.slot]
    exact (nextSlot_free s).2
  obtain ⟨hframe, hsame, hfound⟩ := answer_running (r := recOf sp c s) (body := body) (q := maybeJournal b e q) h.ring rfl rfl
    (by rw [hrings]; exact h.first) hended
  refine ⟨_, ?_, hquiet, hframe.after hjournal, hsame.trans (hledger.trans hk.ledger.symm), hfound⟩
  rw [execCmd_runs h, hfollowed]

end

/-! ### PAIR_SWITCH (R714) -/

section
variable {c : HostCmd} {s : State} {r : CmdRec}

theorem specPairSwitch_names (hmode : u8 c.params 0 = 0) (hrole : s.pair.role = .active) (hpartner : s.pair.partnerRole = 3)
    (hfree : s.pair.switchAt = none) : specPairSwitch.run r c s =
      accepted (le 4 (stripAhead s 3)) (setPair (fun p => { p with switchAt := some (stripAhead s 3), switchTicket := some r.ticket }) s) := by
  simp [specPairSwitch, firstBad, inRange, checked, hmode, hrole, hpartner, hfree]

theorem specPairSwitch_leaves (hmode : u8 c.params 0 = 1) (hrole : s.pair.role ≠ .solo) (hticket : s.pair.switchTicket = none) :
    specPairSwitch.run r c s =
      accepted (le 4 (currentStrip s)) (setPair (fun p => { p with switchAt := none, switchTicket := some r.ticket }) s) := by
  have habort : abortSwitch s = setPair (fun p => { p with switchAt := none, switchTicket := none }) s := by
    simp only [abortSwitch, hticket, setPair]
  simp [specPairSwitch, firstBad, inRange, checked, hmode, hrole, habort, setPair]

theorem specPairSwitch_wrong (h : (u8 c.params 0 = 1 ∧ s.pair.role = .solo) ∨
    (u8 c.params 0 = 0 ∧ (s.pair.role ≠ .active ∨ s.pair.partnerRole ≠ 3 ∨ s.pair.switchAt.isSome = true))) :
    specPairSwitch.run r c s = wrongState s := by
  rcases h with ⟨hmode, hsolo⟩ | ⟨hmode, hwrong⟩ 
  · simp [specPairSwitch, firstBad, inRange, checked, hmode, hsolo]
  · simp only [specPairSwitch, firstBad, inRange, checked, hmode, hwrong, Nat.zero_ne_one, if_true, if_false]
    rfl

theorem specPairSwitch_bad (h : 1 < u8 c.params 0) : specPairSwitch.run r c s = badParam 0 s := by
  have hbad : inRange 0 1 (u8 c.params 0) = false := by simp [inRange]; omega
  simp [specPairSwitch, hbad, firstBad, checked]

theorem checkSwitch_busy (hon : s.gauge.trigEnabled = true) (hpend : (vget s.gauge.slots 0).pend ≠ []) : checkSwitch s = s := by
  have hbusy : (List.range 24).all (fun slot => (nextTarget s slot).isNone && (vget s.gauge.slots slot).pend.isEmpty) = false :=
    List.all_eq_false.2 ⟨0, by decide, by simp [hpend]⟩
  unfold checkSwitch
  simp only [hbusy, hon, Bool.not_true, Bool.or_self, Bool.and_false, Bool.false_eq_true, if_false]
  split <;> rfl

theorem afterSwitch_named {j : Nat} (h : s.pair.switchAt = some j) : afterSwitch s = afterTriggers s := by simp only [afterSwitch, h]

theorem afterSwitch_leaves {w : Nat} (h : s.pair.switchAt = none) (hticket : s.pair.switchTicket = some w) :
    afterSwitch s = afterTriggers (complete w stOk [] (leavePair (setPair (fun p => { p with switchTicket := none }) s))) := by
  simp only [afterSwitch, h, hticket]

end

theorem OutFrame.pairWith {a b : State} (h : OutFrame a b) (f : PairUnit → PairUnit) : OutFrame (pairWith f a) (pairWith f b) := by
  unfold OutFrame Machine.pairWith at *
  rw [h]

theorem ledger_pairWith (f : PairUnit → PairUnit) (l : Ledger) (s : State) : ReplyFrame (pairWith f s) (pairWith f { s with ledger := l }) := rfl

theorem pairSwitch_names (t : Nat) (c : HostCmd) (s : State) (h : Ready specPairSwitch c s) (hm : acceptsMore s) (hmode : u8 c.params 0 = 0)
    (hrole : s.pair.role = .active) (hpartner : s.pair.partnerRole = 3) (hfree : s.pair.switchAt = none) (hstop : noStop s) (hwork : s.pair.work = [])
    (hsnap : s.pair.snapshot = none) (hon : s.gauge.trigEnabled = true) (hpend : (vget s.gauge.slots 0).pend ≠ []) :
    Next (.pairSwitch t c) s fun r =>
      Accepts 0x0F03 (le 4 (stripAhead s 3)) c s r ∧
      ReplyFrame (pairWith (fun p => { p with switchAt := some (stripAhead s 3), switchTicket := some (nextTicket s) }) s) r := by
  have hf := taken_frame t h.inv h.slot
  have hstrip : stripAhead (taken t s) 3 = stripAhead s 3 := by
    unfold stripAhead currentStrip
    rw [hf.gauge, hf.cfgNow]
    rfl
  let named := setPair (fun p => { p with switchAt := some (stripAhead s 3), switchTicket := some (nextTicket s) }) (taken t s)
  have hrun : specPairSwitch.run (recOf specPairSwitch c s) c (taken t s) = accepted (le 4 (stripAhead s 3)) named := by
    rw [specPairSwitch_names hmode (by rw [hf.pair]; exact hrole) (by rw [hf.pair]; exact hpartner) (by rw [hf.pair]; exact hfree), hstrip]
    rfl
  have hk : KeepsReply (taken t s) named := ⟨rfl, rfl, rfl, rfl, rfl⟩
  obtain ⟨x, hexec, hx, hframe, -, -⟩ := execCmd_runsOn h hm rfl nofun hrun hk
  obtain ⟨r, hr, haccepts, hreply⟩ := execCmd_starts h.withoutAfter hm rfl nofun hrun hk rfl (by simp) hf.bench hf.pending
  have hpair : x.pair.switchAt = named.pair.switchAt := by rw [hframe]
  have hquiet : specPairSwitch.after x = x := by
    show afterSwitch x = x
    have hgauge : x.gauge = s.gauge := hframe.gauge.trans hf.gauge
    rw [afterSwitch_named (j := stripAhead s 3) hpair]
    refine afterTriggers_still (by rw [hgauge]; exact hstop.1) (checkSwitch_busy (by rw [hgauge]; exact hon) (by rw [hgauge]; exact hpend)) ⟨?_, ?_, ?_⟩
    · exact (hframe.glue.trans hf.glue).trans hstop.2
    · rw [hframe]
      exact (congrArg PairUnit.work hf.pair).trans hwork
    · rw [hframe]
      exact (congrArg PairUnit.snapshot hf.pair).trans hsnap
  have hsame : commit (tick t s) x = r := by
    have hboth := (execCmd_runs (t := t) h.withoutAfter).symm.trans hr
    rw [show runHere (withoutAfter specPairSwitch) (recOf (withoutAfter specPairSwitch) c s) c (taken t s) = x from hx] at hboth
    exact Host.Outcome.next.inj hboth
  refine ⟨r, ?_, haccepts, ?_⟩
  · show execCmd specPairSwitch t c s = _
    rw [hexec, hquiet, hsame]
  · exact hreply.after ((hf.pairWith _).reply.after (ledger_pairWith _ _ s))

/-- The module about to leave the pair by command. -/
def leaving (s : State) : State := setPair (fun p => { p with switchTicket := none, partnerMarks := [], partnerLost := true }) s

/-- What the end of PAIR_SWITCH MODE 1 leaves. -/
structure LeftByCommand (x v : State) : Prop where
  role : v.pair.role = .solo
  cause : v.pair.cause = .left
  lost : v.pair.partnerLost = true
  uplinks : uplinks false v
  complete : v.ledger.complete = x.ledger.complete + 1
  event : bitOf v.host.evt.pending 0x3E6 = true
  gauge : v.gauge = x.gauge
  scribe : v.scribe = x.scribe
  bench : v.bench = x.bench
  staged : v.staged = x.staged
  running : v.running = x.running
  pending : v.pending = x.pending

theorem complete_leftByCommand {x z : State} {w : Nat} {k : CmdRec} (hleft : Left .left (leaving x) z) (hup : up x) (hprogress : InProgress w k x) :
    LeftByCommand x (complete w stOk [] z) ∧ ReplyFrame { z with stageGen := (complete w stOk [] z).stageGen } (complete w stOk [] z) := by
  have hframe := hleft.moves.frame.frame
  obtain ⟨⟨-, hcomplete, -, -⟩, hreply⟩ := complete_over (status := stOk) [] (hprogress.of_eq hframe.cmds hframe.ledger) (by decide)
  have hpair := hleft.moves.pair
  refine ⟨⟨?_, ?_, ?_, ?_, ?_, complete_keeps _ _ _ (hleft.event hup), hreply.gauge.trans hframe.gauge, hreply.scribe.trans hleft.moves.scribe,
    hreply.bench.trans hframe.bench, hreply.staged.trans hframe.staged, hreply.running.trans hframe.running, hreply.pending.trans hframe.pending⟩, hreply⟩
  · rw [hreply.pair_role, hpair]
  · rw [hreply, hpair]
  · rw [hreply, hpair]
    rfl
  · rw [uplinks, hreply.links]
    exact hleft.uplinks
  · rw [hcomplete, hframe.ledger]
    rfl

theorem afterSwitch_leftByCommand {x : State} {w : Nat} {k : CmdRec} (hup : up x) (hprogress : InProgress w k x) (hswitch : x.pair.switchAt = none)
    (hticket : x.pair.switchTicket = some w) (hrole : x.pair.role = .active) (hmarks : x.pair.partnerMarks = []) (hstop : noStop x) :
    LeftByCommand x (afterSwitch x) := by
  have hleave : leavePair (setPair (fun p => { p with switchTicket := none }) x) = becomeSolo .left (leaving x) := by
    have hquiet : quiet (setPair (fun p => { p with switchTicket := none }) x) = setPair (fun p => { p with switchTicket := none }) x :=
      quiet_other (by simp [isPassive, setPair, hrole])
    rw [leavePair, hquiet, losePartner_none (s := setPair (fun p => { p with switchTicket := none }) x) hmarks]
    rfl
  have hleft : Left .left (leaving x) (becomeSolo .left (leaving x)) := becomeSolo_left (s := leaving x) (by
    show x.pair.role ≠ .solo
    rw [hrole]
    decide) rfl
  obtain ⟨hdone, hreply⟩ := complete_leftByCommand hleft hup hprogress
  have hlone := hleft.lone (s := leaving x) hstop
  rw [afterSwitch_leaves hswitch hticket, hleave, afterTriggers_lone]
  · exact hdone
  · refine ⟨hreply.glue.trans hlone.1, hdone.role, ?_, (congrArg Gauge.stopAfter hreply.gauge).trans hlone.2.2.2⟩
    rw [hreply]
    exact hlone.2.2.1

theorem pairSwitch_leaves (t : Nat) (c : HostCmd) (s : State) (h : Ready specPairSwitch c s) (hm : acceptsMore s) (hmode : u8 c.params 0 = 1)
    (hrole : s.pair.role = .active) (hticket : s.pair.switchTicket = none) (hstop : noStop s) (hmarks : s.pair.partnerMarks = []) :
    Next (.pairSwitch t c) s fun r =>
      r.pair.role = .solo ∧ r.pair.cause = .left ∧ r.pair.partnerLost = true ∧ (vget r.links.through 0).relaySource = false ∧
      (vget r.links.through 1).relaySource = false ∧ r.ledger.complete = s.ledger.complete + 1 ∧ bitOf r.host.evt.pending 0x3E6 = true ∧
      r.gauge = s.gauge ∧ r.scribe = s.scribe ∧ r.bench.mem = s.bench.mem ∧ r.staged = s.staged ∧ r.running = s.running := by
  have hf := taken_frame t h.inv h.slot
  let q := setPair (fun p => { p with switchAt := none, switchTicket := some (nextTicket s) }) (taken t s)
  have hrun : specPairSwitch.run (recOf specPairSwitch c s) c (taken t s) = accepted (le 4 (currentStrip (taken t s))) q :=
    specPairSwitch_leaves hmode (by rw [hf.pair, hrole]; decide) (by rw [hf.pair]; exact hticket)
  obtain ⟨x, hexec, -, hframe, hledger, hfound⟩ := execCmd_runsOn h hm rfl nofun hrun ⟨rfl, rfl, rfl, rfl, rfl⟩
  have hpair : x.pair = { q.pair with journalEntries := x.pair.journalEntries } := congrArg State.pair hframe
  have hlive : ticketLive x.ledger (nextTicket s) = true := by
    rw [hledger]
    exact taken_live t h.slot h.gen
  have hdone : LeftByCommand x (afterSwitch x) := by
    refine afterSwitch_leftByCommand (hframe.hf_fabric.trans (hf.hf_fabric.trans h.fabric)) ⟨hfound, rfl, rfl, hlive⟩ ?_ ?_ ?_ ?_ ⟨?_, ?_⟩
    · rw [hpair]
      rfl
    · rw [hpair]
      rfl
    · exact hframe.pair_role.trans ((congrArg PairUnit.role hf.pair).trans hrole)
    · rw [hpair]
      exact (congrArg PairUnit.partnerMarks hf.pair).trans hmarks
    · exact (congrArg Gauge.stopAfter (hframe.gauge.trans hf.gauge)).trans hstop.1
    · exact (hframe.glue.trans hf.glue).trans hstop.2
  have hbench : (afterSwitch x).bench = s.bench := hdone.bench.trans (hframe.bench.trans hf.bench)
  have hpending : (afterSwitch x).pending = s.pending := hdone.pending.trans (hframe.pending.trans hf.pending)
  have hcommit := commit_frame t h.inv hbench hpending
  refine ⟨_, hexec, hdone.role, hdone.cause, hdone.lost, hdone.uplinks.1, hdone.uplinks.2, ?_, hdone.event, ?_, ?_, ?_, ?_, ?_⟩
  · exact hdone.complete.trans (by rw [hledger, show q.ledger = (taken t s).ledger from rfl, taken_complete t h.slot])
  · exact hdone.gauge.trans (hframe.gauge.trans hf.gauge)
  · exact hdone.scribe.trans (hframe.scribe.trans hf.scribe)
  · exact congrArg Bench.mem (hcommit.bench.trans hbench)
  · exact hdone.staged.trans (hframe.staged.trans hf.staged)
  · exact hdone.running.trans (hframe.running.trans hf.running)

/-! ### What the partner's FAIL leaves -/

theorem partnerFail_goesAlone (t : Nat) (s : State) (hi : s.Inv) (hup : up s) (hclear : s.pair.partnerFail = false) (hrole : s.pair.role = .active)
    (hstop : noStop s) (hticket : s.pair.switchTicket = none) (hmarks : s.pair.partnerMarks = []) :
    Next (.partnerFail t true) s fun r =>
      r.pair.role = .solo ∧ r.pair.cause = .partnerFail ∧ r.pair.partnerLost = true ∧ bitOf r.host.evt.pending 0x3F6 = true ∧
      bitOf r.host.evt.pending 0x3E6 = true ∧ r.gauge = s.gauge ∧ r.scribe = s.scribe ∧ r.bench.mem = s.bench.mem ∧ r.ledger = s.ledger := by
  have hraised := failRaised_moves (tick t s)
  have hup' : up (failRaised (tick t s)) := hraised.upholds hup
  have hstop' : noStop (failRaised (tick t s)) := by
    rw [noStop, hraised.frame.frame.gauge, hraised.frame.frame.glue]
    exact hstop
  have hleft := goesAlone_left (s := failRaised (tick t s)) (by rw [hraised.pair]; exact hrole) (by rw [hraised.pair]; exact hticket)
    (by rw [hraised.pair]; exact hmarks) hstop'
  have hfail : partnerFail true (tick t s) = goesAlone (failRaised (tick t s)) := partnerFail_active (s := tick t s) hclear hup hrole
  have hlose := moves_setPair (fun p => { p with partnerMarks := [], partnerLost := true }) (failRaised (tick t s))
  have hmoves := (hraised.trans hlose).trans hleft.moves
  refine next_of (f := partnerFail true) rfl hi ?_ ?_
  · rw [hfail]
    exact hmoves.settled
  · rw [hfail]
    refine ⟨by rw [hmoves.pair], by rw [hmoves.pair], by rw [hmoves.pair]; rfl, hleft.moves.keeps _ (hlose.keeps _ (failRaised_sets (s := tick t s) hup)),
      hleft.event hup', hmoves.frame.frame.gauge, ?_, hmoves.settled.mem, hmoves.frame.frame.ledger⟩
    rw [hmoves.scribe, hlose.scribe, hraised.scribe]
    rfl

theorem partnerFail_takesOver (t q : Nat) (s : State) (m : PartnerMark) (hi : s.Inv) (hup : up s) (hclear : s.pair.partnerFail = false)
    (hrole : s.pair.role = .passive) (hstop : noStop s) (hticket : s.pair.switchTicket = none) (hoff : s.gauge.trigEnabled = false)
    (hmark : s.pair.partnerMarks = [m]) (hstation : m.station < 4) (hq : q < 16) (hon : (vget s.scribe.queues q).on = true) (hplain : queuesPlain s) :
    Next (.partnerFail t true) s fun r =>
      r.pair.role = .solo ∧ r.pair.failovers = wrap32 (s.pair.failovers + 1) ∧ r.pair.diverged = false ∧ r.pair.partnerMarks = [] ∧
      (vget r.scribe.stations m.station).ended.head? = some { m.mark with state := .failed, cause := .partnerLost } ∧
      (vget r.scribe.queues q).rd = (vget s.scribe.queues q).rel ∧ (vget r.scribe.queues q).rel = (vget s.scribe.queues q).rel ∧
      (vget r.scribe.queues q).markValid = false ∧ (vget r.scribe.queues q).markLost = (vget s.scribe.queues q).markLost ∧
      (vget r.links.through 0).relaySource = false ∧ (vget r.links.through 1).relaySource = false ∧
      bitOf r.host.evt.pending (0x230 + m.station) = true ∧ bitOf r.host.evt.pending 0x3E9 = true ∧ bitOf r.host.evt.pending 0x3F6 = true ∧
      r.bench.mem = s.bench.mem ∧ r.running = s.running := by
  have hraised := failRaised_moves (tick t s)
  have hframe := hraised.frame.frame
  have hup' : up (failRaised (tick t s)) := hraised.upholds hup
  have hstop' : noStop (failRaised (tick t s)) := by
    rw [noStop, hframe.gauge, hframe.glue]
    exact hstop
  have hplain' : queuesPlain (failRaised (tick t s)) := by
    rw [queuesPlain, hraised.scribe, hframe.dma]
    exact hplain
  obtain ⟨hover, hlinks, hmarked, hevent⟩ := takeOver_takes (s := failRaised (tick t s)) (m := m) (by rw [hraised.pair]; exact hrole)
    (by rw [hframe.gauge]; exact hoff) hplain' (by rw [hraised.pair]; exact hmark) hstop' (by rw [hraised.pair]; exact hticket)
  rw [hraised.pair, hraised.scribe] at hover
  have hfail : partnerFail true (tick t s) = takeOver (failRaised (tick t s)) := partnerFail_passive (s := tick t s) hclear hup hrole
  have hmoves := hraised.trans hover
  have hqueue : vget (takeOver (failRaised (tick t s))).scribe.queues q =
      { vget s.scribe.queues q with rd := (vget s.scribe.queues q).rel, markValid := false, head := 0, thresholdDone := false } := by
    rw [hover.scribe, queuesTaken_queue 16 _ hq, if_pos hq]
    exact if_pos hon
  have hended : vget (takeOver (failRaised (tick t s))).scribe.stations m.station = stationLost m (vget s.scribe.stations m.station) := by
    rw [hover.scribe, queuesTaken_stations]
    exact vget_vmod_self s.scribe.stations m.station _ hstation
  refine next_of (f := partnerFail true) rfl hi ?_ ?_
  · rw [hfail]
    exact hmoves.settled
  · rw [hfail]
    refine ⟨by rw [hmoves.pair], by rw [hmoves.pair]; rfl, by rw [hmoves.pair]; rfl, by rw [hmoves.pair]; rfl, by rw [hended]; rfl, by rw [hqueue],
      by rw [hqueue], by rw [hqueue], by rw [hqueue], hlinks.1, hlinks.2, hmarked hup', hevent hup', hover.keeps _ (failRaised_sets (s := tick t s) hup),
      hmoves.settled.mem, hmoves.frame.frame.running⟩

theorem failRaised_happens : Happens (.partnerFail · true) (fun s => up s ∧ s.pair.partnerFail = false ∧ s.pair.role = .solo)
    (pairWith fun p => { p with partnerFail := true }) [0x3F6] noPuts := by
  refine happens_of (f := partnerFail true) (fun _ _ => rfl) fun q _ _ hq => ?_
  obtain ⟨hup, hclear, hrole⟩ := hq
  rw [partnerFail_solo hclear hrole]
  exact ⟨raise_frame _ _ _ _, rfl, rfl, List.forall_mem_singleton.2 (failRaised_sets hup), List.nil_subset _⟩

theorem heartbeat_sent : Happens (.jmHeartbeatTimer ·) (fun s => up s ∧ isPortUp (vget s.ring.ports 2).state = true ∧ s.pair.role ≠ .solo)
    (fun s => pairWith (fun p => { p with lastSent := some s.now }) s) [] (fun s => [.heartbeat (roleCode s.pair.role) s.gauge.lastStrip]) := by
  refine happens_up (f := sendHeartbeat) (parts := []) (fun _ _ => rfl) (fun q hq => ⟨hq.1, List.forall_mem_nil _⟩) fun q _ _ hq => ?_
  obtain ⟨-, hport, hrole⟩ := hq
  have hsend : sendHeartbeat q = out (.heartbeat (roleCode q.pair.role) (currentStrip q)) (setPair (fun p => { p with lastSent := some q.now }) q) := by
    simp [sendHeartbeat, portUp, hport, inPair, hrole]
  rw [hsend]
  exact ⟨rfl, rfl, rfl, List.forall_mem_nil _, out_puts _ _⟩

/-- Settles O58: a change of role is followed through the pair's state, the queues and the stations, and what then settles finds nothing to do. -/
theorem pairRolesAndFailover : Obligations.PairRolesAndFailover := by
  unfold Obligations.PairRolesAndFailover
  refine ⟨?_, ?_, ?_, ?_, ?_, ?_, pairingExchange_chosen, ?_, ?_, failRaised_happens, ?_, ?_, ?_, heartbeatTimeout_mirrorLost, ?_, heartbeat_sent, ?_, ?_, ?_, ?_, ?_⟩
  · exact fun t c s h hm hmode hrole hpartner hfree _ hstop hwork hsnap hon hpend =>
      pairSwitch_names t c s h hm hmode hrole hpartner hfree hstop hwork hsnap hon hpend
  · exact pairSwitch_leaves
  · refine refuses_run (fun _ _ _ => rfl) (by decide) (fun _ _ _ => rfl) (fun _ _ => nofun) (fun _ _ => by decide) fun r t c s h hc => ?_
    exact specPairSwitch_wrong (by rw [(taken_frame t h.inv h.slot).pair]; exact hc)
  · exact refuses_run (fun _ _ _ => rfl) (by decide) (fun _ _ _ => rfl) (fun _ _ => nofun) (fun _ _ => by decide) fun r t c s _ hc =>
      specPairSwitch_bad hc
  · exact fun h => exactly_mirrored (f := takeHello h) (fun _ _ => rfl) fun q ⟨hmirrors, hrole⟩ =>
      ⟨hmirrors, takeHello_other hrole, .refl q, hmirrors.2.2⟩
  · exact fun h => happens_mirrorRaises (f := takeHello h) 0x3E6 (fun _ _ => rfl) (fun _ hq => hq.1) (fun _ => ⟨rfl, rfl, rfl⟩)
      fun q ⟨hmirrors, hrole, hbad⟩ => ⟨hmirrors.2.2, _, _, takeHello_mismatch hrole (helloMatches_masks hbad)⟩
  · refine fun h hp hany => exactly_mirrored (f := takeHello h) (fun _ _ => rfl) fun q hq => ?_
    obtain ⟨hmirrors, hrole, hhome, howner, hserial, hprefer, hoff⟩ := hq
    refine ⟨hmirrors, takeHello_other_chosen hrole (helloMatches_pair hhome howner hserial hany) ?_ hoff, ⟨rfl, rfl, rfl, rfl, rfl⟩, hmirrors.2.2⟩
    exact (choosesSelf_prefers (by rw [hprefer, hp]; rfl)).trans (by rw [hp]; rfl)
  · exact fun b => exactly_of (f := partnerFail b) (fun _ _ => rfl) fun q _ hq => ⟨partnerFail_quiet hq, rfl, rfl, rfl, rfl, rfl⟩
  · exact partnerFail_goesAlone
  · exact fun t q s m hi hup hclear hrole hstop hticket hoff hmark hstation hq hon hplain =>
      partnerFail_takesOver t q s m hi hup hclear hrole hstop hticket hoff hmark hstation hq hon hplain
  · refine exactly_of (f := timeoutSettled) (fun _ _ => rfl) fun q _ hq => ⟨?_, .refl q⟩
    have hsolo := heartbeatTimeout_solo hq.1
    rw [timeoutSettled_unhurried (by rw [hsolo]; exact hq.2), hsolo]
    rfl
  · exact heartbeatTimeout_signals
  · refine exactly_still (f := sendHeartbeat) (fun _ _ => rfl) fun q hq => ?_
    rcases hq with h | h <;> simp [sendHeartbeat, portUp, inPair, h]
  · exact fun k strip hk => exactly_mirrored (f := heartbeatTaken k) (fun _ _ => rfl) fun q ⟨hmirrors, hrole⟩ =>
      ⟨hmirrors, heartbeatTaken_noted hk hrole, ⟨rfl, rfl, rfl, rfl, rfl⟩, hmirrors.2.2⟩
  · exact fun strip => happens_mirrorRaises (f := heartbeatTaken 3) 0x3E6 (fun _ _ => rfl) (fun _ hq => hq.1) (fun _ => ⟨rfl, rfl, rfl⟩)
      fun q ⟨hmirrors, hrole, hchosen⟩ => ⟨hmirrors.2.2, _, _, heartbeatTaken_paired hrole hchosen⟩
  · exact fun k strip => happens_mirrorRaises (f := heartbeatTaken k) 0x3E6 (fun _ _ => rfl) (fun _ hq => hq.1) (fun _ => ⟨rfl, rfl, rfl⟩)
      fun q ⟨hmirrors, hrole, hticket⟩ => ⟨⟨hmirrors.2.2.1, rfl, rfl⟩, _, _, heartbeatTaken_rejoins hrole hticket⟩
  · exact heartbeat_switches

end Sys2Proof.Machine

/-! ## An axis whose settings from before a glue-up end with its motion (R637, R649) -/

namespace Sys2Proof.Machine

/-- A stop at EMERG_DECEL after which the axis rests IDLE. -/
def stopToIdle : Stopping := { emerg := true, cause := .stop, atRest := .idle }

/-- Axis 0 at the end of a stop, held, with the settings from before a glue-up, which had no stall watch. Those of the glue-up have one, with an
encoder that is 16 counts off: `State.Inv` excludes none of it. -/
def stallAwaitsRest : State :=
  let s := State.reset
  setAxis 0 (fun x => { x with state := .stopping, stopping := some stopToIdle, held := some (default, default), standstill := some .hold })
    (setEnc 2 (fun x => { x with position := 16 * 65536 })
      { s with
        hf := { s.hf with fabric := .running }
        running := { s.running with axis := vset s.running.axis 0 { stallEn := true, encoder := some 2, encScale := 65536, stallWindow := 1 } } })

/-- At rest the new settings are in force, and the same update finds the axis stalled. -/
theorem axisProfileUpdate_stallAwaitsRest :
    ∃ r, exec (.axisProfileUpdate 1000 0) stallAwaitsRest = .next r ∧ (vget r.axes.ax 0).state = .fault :=
  ⟨_, rfl, by decide +kernel⟩

/-- Refutes O47: braking that ends at rest does not leave the axis IDLE where the settings that then come into force have a stall watch and the
axis is off its encoder. The statement asks of the settings from before the rest only that they have none. -/
theorem not_axisMotionAndProtection : ¬ Obligations.AxisMotionAndProtection := by
  unfold Obligations.AxisMotionAndProtection
  rintro ⟨-, -, hrests, -⟩
  obtain ⟨r, hr, -, hframe, -⟩ := hrests 0 (by decide) stopToIdle rfl rfl 1000 stallAwaitsRest ⟨rfl, rfl, rfl⟩ (by decide +kernel)
  obtain ⟨r', hr', hfault⟩ := axisProfileUpdate_stallAwaitsRest
  obtain rfl : r' = r := by
    rw [hr'] at hr
    exact Host.Outcome.next.inj hr
  rw [hframe.axes] at hfault
  revert hfault
  decide +kernel

end Sys2Proof.Machine

/-! ## What an event does to an axis while no station is in use (R641 to R646, R744) -/

namespace Sys2Proof.Machine

section
variable {a : Nat} {s : State}

/-! ### Changes of one axis -/

theorem setAxis_setAxis (f g : Axis → Axis) : setAxis a f (setAxis a g s) = setAxis a (fun x => f (g x)) s :=
  congrArg (fun v => { s with axes := { s.axes with ax := v } }) (vmod_vmod s.axes.ax f g)

theorem setAxis_congr {f g : Axis → Axis} (h : f (vget s.axes.ax a) = g (vget s.axes.ax a)) : setAxis a f s = setAxis a g s :=
  congrArg (fun x => { s with axes := { s.axes with ax := vset s.axes.ax a x } }) h

@[simp] theorem vget_setAxis_self (ha : a < 4) (f : Axis → Axis) : vget (setAxis a f s).axes.ax a = f (vget s.axes.ax a) := vget_vmod_self _ _ _ ha

theorem vget_setAxis_ne {k : Nat} (hk : k ≠ a) (f : Axis → Axis) : vget (setAxis a f s).axes.ax k = vget s.axes.ax k := vget_vmod_ne _ _ _ _ hk

/-- The settings in force for an axis are those of the configuration as long as it keeps what it holds. -/
theorem axisCfg_setAxis (ha : a < 4) {f : Axis → Axis} (hf : ∀ x, (f x).held = x.held) : axisCfg (setAxis a f s) a = axisCfg s a := by
  have hheld : (vget (setAxis a f s).axes.ax a).held = (vget s.axes.ax a).held := by rw [vget_setAxis_self ha, hf]
  unfold axisCfg
  rw [hheld]
  rfl

theorem standCfg_setAxis (ha : a < 4) {f : Axis → Axis} (hf : ∀ x, (f x).held = x.held) : standCfg (setAxis a f s) a = standCfg s a := by
  have hheld : (vget (setAxis a f s).axes.ax a).held = (vget s.axes.ax a).held := by rw [vget_setAxis_self ha, hf]
  unfold standCfg
  rw [hheld]
  rfl

/-- No station uses an axis where none is in use. -/
theorem stationUse_noStations (h : noStations s) : stationUse (cfgNow s) a = none :=
  List.findSome?_eq_none_iff.2 fun t ht => by simp [h t (List.mem_range.1 ht)]

end

/-! ### An event on an axis -/

/-- A state that differs from another in its axes and claims alone. -/
def AxesOnly (s r : State) : Prop := r = { s with axes := r.axes, claims := r.claims }

/-- While no station is in use an event on an axis is its effect alone: no mark follows it. -/
theorem withMarks_noStations {f : State → State} {s : State} (h : noStations (f s)) : withMarks f s = f s := marksAfter_noStations s h

theorem OutFrame.noStations {s r : State} (h : OutFrame s r) (hs : noStations s) : noStations r := by
  intro t ht
  rw [h.cfgNow]
  exact hs t ht

theorem AxesOnly.noStations {s r : State} (h : AxesOnly s r) (hs : noStations s) : noStations r := by
  intro t ht
  have hcfg : cfgNow r = cfgNow s := by
    rw [show r = _ from h]
    rfl
  rw [hcfg]
  exact hs t ht

section
variable {a : Nat} {i : Nat → Instr} {f new : State → State} {cond : State → Prop}

/-- An event on an axis whose effect is known, while no station is in use. -/
theorem happens_axis (ha : a < 4) (hx : ∀ t s, exec (i t) s = onAxis t a f s) (hnew : ∀ q, AxesOnly q (new q)) (h : ∀ q, cond q → noStations q ∧ f q = new q) :
    Happens i cond new [] noPuts := by
  refine happens_silently (f := withMarks f) (fun t s => ?_) (fun q => ?_) (fun q => ?_) fun q hc => ?_
  · rw [hx, onAxis, if_pos ha]
  · rw [hnew q]
  · rw [hnew q]
  · obtain ⟨hoff, hf⟩ := h q hc
    rw [withMarks_noStations (hf ▸ (hnew q).noStations hoff), hf]

end

/-! ### Rest, strokes and homing -/

section
variable {a : Nat} {s : State}

theorem standstillDue_due {r : Nat} (hr : (vget s.axes.ax a).restAt = some r) (hdue : r + (standCfg s a).holdDelay * 1000000 ≤ s.now)
    (hon : (vget s.axes.ax a).bridgesOff = false) (hoff : noStations s) :
    standstillDue a s = setAxis a (fun x => { x with restAt := none, standstill := some (standCfg s a).mode }) s := by
  simp [standstillDue, hr, Nat.not_lt.2 hdue, hon, stationUse_noStations hoff]

theorem standstillDue_early {r : Nat} (hr : (vget s.axes.ax a).restAt = some r) (hearly : s.now < r + (standCfg s a).holdDelay * 1000000) :
    standstillDue a s = s := by simp [standstillDue, hr, hearly]

theorem strokeBack_due {b : Int} {h : Nat} (hstroke : (vget s.axes.ax a).stroke = some ⟨b, .holding h⟩) (hdue : h ≤ s.now) (hjerk : (axisCfg s a).jerk = 0) :
    strokeBack a s = setAxis a (fun x => { x with target := b, lastUpdate := s.now, stroke := some ⟨b, .back⟩, due := none }) s := by
  simp only [strokeBack, hstroke, if_pos hdue, moveDue, hjerk, if_true]

theorem strokeBack_early {b : Int} {h : Nat} (hstroke : (vget s.axes.ax a).stroke = some ⟨b, .holding h⟩) (hearly : s.now < h) :
    strokeBack a s = s := by simp only [strokeBack, hstroke, if_neg (Nat.not_le.2 hearly)]

theorem failHoming_fails {h : HomeRun} (reason : HomeReason) (hhome : (vget s.axes.ax a).home = some h) (hnone : h.reason = .none) :
    failHoming a reason s = setAxis a (fun x => { x with homed := false, home := some { h with reason := reason, braking := true } }) s := by
  simp only [failHoming, hhome, hnone, if_true, setHome, setAxis_setAxis]
  refine setAxis_congr ?_
  rw [hhome]
  rfl

theorem safeRest_rests {p : Stopping} (ha : a < 4) (hstop : (vget s.axes.ax a).stopping = some p) (hsafe : p.atRest = .safe)
    (hrest : (safeRamp (axisCfg s a) (vget s.axes.ax a) s.now).2 = 0) :
    safeRest a s = setAxis a (fun x => { restingAxis .safeStopped 0 x with
      xq := (safeRamp (axisCfg s a) x s.now).1, cause := p.cause, standstill := some (standCfg s a).safe, restAt := none }) s := by
  have hstand : standCfg (setAxis a (fun x => { x with xq := (safeRamp (axisCfg s a) (vget s.axes.ax a) s.now).1 }) s) a = standCfg s a :=
    standCfg_setAxis ha fun _ => rfl
  simp only [safeRest, hstop, hsafe, ne_eq, not_true_eq_false, if_false, hrest, finishStop, hstand, comeToRest, setAxis_setAxis]
  exact setAxis_congr rfl

theorem safeRest_early (hrest : (safeRamp (axisCfg s a) (vget s.axes.ax a) s.now).2 ≠ 0) : safeRest a s = s := by
  cases hstop : (vget s.axes.ax a).stopping with
  | none => simp only [safeRest, hstop]
  | some p => simp only [safeRest, hstop, hrest, ne_eq, not_false_eq_true, if_true, ite_self]

end

/-! ### A stop at a limit, and what VIO does to every axis (R635, R744) -/

/-- The axes after a change of some: the others are as they were, and of all else only the claims and what events touch has changed. -/
structure AxesMoved (l : List Nat) (s r : State) : Prop where
  frame : OutFrame { s with axes := r.axes, claims := r.claims } r
  now : r.now = s.now
  others : ∀ k, k ∉ l → vget r.axes.ax k = vget s.axes.ax k

section
variable {a : Nat} {l : List Nat} {s r q : State}

theorem AxesMoved.refl : AxesMoved l s s := ⟨OutFrame.refl _, rfl, fun _ _ => rfl⟩

theorem AxesMoved.mono {l' : List Nat} (h : AxesMoved l s r) (hl : l ⊆ l') : AxesMoved l' s r := ⟨h.frame, h.now, fun k hk => h.others k fun hin => hk (hl hin)⟩

theorem AxesMoved.trans (h : AxesMoved l s r) (h' : AxesMoved l r q) : AxesMoved l s q := by
  have hframe : OutFrame { s with axes := q.axes, claims := q.claims } q := by
    have hfirst := h.frame
    have hnext := h'.frame
    unfold OutFrame at *
    rw [hfirst] at hnext
    exact hnext
  exact ⟨hframe, h'.now.trans h.now, fun k hk => (h'.others k hk).trans (h.others k hk)⟩

theorem AxesMoved.settled (h : AxesMoved l s r) : Settled s r := by
  have hbench : r.bench = s.bench := h.frame.bench
  exact ⟨h.now, h.frame.pending, congrArg Bench.mem hbench, congrArg Bench.writes hbench, congrArg Bench.emptied hbench⟩

theorem setAxis_moved (f : Axis → Axis) (s : State) : AxesMoved [a] s (setAxis a f s) :=
  ⟨OutFrame.refl _, rfl, fun _ hk => vget_setAxis_ne (fun he => hk (List.mem_singleton.2 he)) f⟩

theorem unmoved_moved (s : State) : AxesMoved [a] s (unmoved a s) := ⟨OutFrame.refl _, rfl, fun _ _ => rfl⟩

theorem raise_moved (src : Nat) (a0 a1 : Int) (s : State) : AxesMoved [a] s (raise src a0 a1 s) := by
  have hframe := raise_frame src a0 a1 s
  refine ⟨?_, raise_now _ _ _ _, fun k _ => congrArg (fun x => vget x.ax k) hframe.axes⟩
  rw [show { s with axes := (raise src a0 a1 s).axes, claims := (raise src a0 a1 s).claims } = s by rw [hframe.axes, hframe.claims]]
  exact hframe

@[simp] theorem unmoved_axes : (unmoved a s).axes = s.axes := rfl
@[simp] theorem unmoved_now : (unmoved a s).now = s.now := rfl

/-- What an axis was to do is dropped, and with it the claim of a move by command. -/
theorem dropMotion_eq (a : Nat) (s : State) : dropMotion a s = setAxis a droppedAxis (unmoved a s) := rfl

theorem dropMotion_moved (s : State) : AxesMoved [a] s (dropMotion a s) := (unmoved_moved s).trans (setAxis_moved _ _)

theorem finishStop_moved (p : Stopping) (s : State) : AxesMoved [a] s (finishStop a p s) := by
  have hrest (state : AxisState) (f : Axis → Axis) : AxesMoved [a] s (setAxis a f (comeToRest a state s)) := (setAxis_moved _ s).trans (setAxis_moved f _)
  unfold finishStop
  cases p.atRest with
  | idle => exact (hrest _ _).trans (raise_moved _ _ _ _)
  | disabled => exact (hrest _ _).trans (raise_moved _ _ _ _)
  | fault => exact ((hrest _ _).trans (raise_moved _ _ _ _)).trans (setAxis_moved _ _)
  | safe => exact hrest _ _

theorem startStop_moved (p : Stopping) (s : State) : AxesMoved [a] s (startStop a p s) := by
  unfold startStop
  simp only
  split
  · exact (dropMotion_moved s).trans (finishStop_moved p _)
  · exact (dropMotion_moved s).trans (setAxis_moved _ _)

/-- A moving axis begins to brake. -/
theorem startStop_brakes (p : Stopping) (hmoves : (vget s.axes.ax a).vq ≠ 0) :
    startStop a p s = setAxis a (fun x => { droppedAxis x with
      state := .stopping, stopping := some p, irunUntil := none
      due := stopDue (axisCfg s a) (if p.emerg then (axisCfg s a).emerg else (axisCfg s a).decel) s.now x.vq }) (unmoved a s) := by
  simp only [startStop, if_neg hmoves, dropMotion_eq, setAxis_setAxis, setAxis_now, unmoved_now]
  rfl

theorem limitStop_moved (cause : AxisCause) (s : State) : AxesMoved [a] s (limitStop a cause s) := by
  unfold limitStop
  simp only
  split
  · exact AxesMoved.refl
  · split
    · exact AxesMoved.refl
    · exact (setAxis_moved _ s).trans (startStop_moved _ _)

theorem failHoming_moved (reason : HomeReason) (s : State) : AxesMoved [a] s (failHoming a reason s) := by
  unfold failHoming
  split
  · exact AxesMoved.refl
  · split
    · exact (setAxis_moved _ s).trans (setAxis_moved _ _)
    · exact AxesMoved.refl

theorem latchHome_moved (s : State) : AxesMoved [a] s (latchHome a s) := by
  unfold latchHome
  simp only
  split
  · exact AxesMoved.refl
  · exact (setAxis_moved _ s).trans (setAxis_moved _ _)

theorem homeSense_moved (s : State) : AxesMoved [a] s (homeSense a s) := by
  have hset (f : HomeRun → HomeRun) : AxesMoved [a] s (setHome a f s) := setAxis_moved _ s
  have hlatch := latchHome_moved (a := a) s
  have hsame := AxesMoved.refl (l := [a]) (s := s)
  unfold homeSense
  simp only
  repeat' split
  all_goals solve_by_elim

theorem homeLimit_moved (s : State) : AxesMoved [a] s (homeLimit a s) := by
  have hfail := failHoming_moved (a := a) .secondLimit s
  have hsame := AxesMoved.refl (l := [a]) (s := s)
  unfold homeLimit
  repeat' split
  all_goals assumption

theorem vioAxis_moved (low : Bool) (s : State) : AxesMoved [a] s (vioAxis a low s) := by
  have hset := setAxis_moved (a := a) (fun x => { x with vioLow := low }) s
  unfold vioAxis
  simp only
  split
  · exact hset
  · split
    · have hsense := hset.trans (homeSense_moved _)
      split
      · exact hsense.trans (homeLimit_moved _)
      · exact hsense
    · split
      · exact hset.trans (limitStop_moved _ _)
      · exact hset

/-- A moving axis meets VIO low as it would a limit. -/
theorem vioAxis_brakes (ha : a < 4) (hmoving : (vget s.axes.ax a).state = .moving) (hon : (vget s.axes.ax a).vioLow = false)
    (hmoves : (vget s.axes.ax a).vq ≠ 0) (hstop : (vget s.axes.ax a).stopping = none) :
    let x := vget (vioAxis a true s).axes.ax a
    x.state = .stopping ∧ x.stopping = some { emerg := true, cause := .hardLimit, atRest := .fault } ∧ x.vioLow = true ∧
      x.xq = (vget s.axes.ax a).xq := by
  have hlow : vioAxis a true s = startStop a { emerg := true, cause := .hardLimit, atRest := .fault }
      (setAxis a (fun x => { x with vioLow := true, cnt := { x.cnt with limitStops := wrap32 (x.cnt.limitStops + 1) } }) s) := by
    simp [vioAxis, hon, hmoving, inMotion, limitStop, ha, hstop, countAxis, setAxis_setAxis]
  rw [hlow, startStop_brakes _ (by simpa [ha] using hmoves)]
  simp only [vget_setAxis_self ha, unmoved_axes]
  exact ⟨trivial, trivial, rfl, rfl⟩

end

/-! ### VIO -/

/-- The step of one axis when VIO changes. -/
def vioStep (low : Bool) (s : State) (a : Nat) : State := withMarks (vioAxis a low) s

section
variable {s : State} {low : Bool}

theorem AxesMoved.noStations {l : List Nat} {r : State} (h : AxesMoved l s r) (hs : noStations s) : noStations r :=
  h.frame.noStations (AxesOnly.noStations (s := s) rfl hs)

theorem vioStep_eq (a : Nat) (h : noStations s) : vioStep low s a = vioAxis a low s :=
  withMarks_noStations ((vioAxis_moved low s).noStations h)

theorem vioSteps_moved : ∀ (l : List Nat) {q : State}, noStations q → AxesMoved l q (l.foldl (vioStep low) q)
  | [], _, _ => AxesMoved.refl
  | k :: l, q, hoff => by
    have hstep : AxesMoved [k] q (vioStep low q k) := by
      rw [vioStep_eq k hoff]
      exact vioAxis_moved low q
    exact (hstep.mono (by simp)).trans ((vioSteps_moved l (hstep.noStations hoff)).mono (by simp))

/-- Of the steps of all axes, the one of an axis finds it as it was before them, and the later ones leave it. -/
theorem vioSteps_split {a : Nat} {l : List Nat} (ha : a ∈ l) (hnodup : l.Nodup) (hoff : noStations s) :
    ∃ q : State, vget q.axes.ax a = vget s.axes.ax a ∧ vget (l.foldl (vioStep low) s).axes.ax a = vget (vioAxis a low q).axes.ax a := by
  obtain ⟨before, after, rfl⟩ := List.append_of_mem ha
  have hsplit := List.nodup_append.1 hnodup
  have hbefore : a ∉ before := fun h => hsplit.2.2 a h a (by simp) rfl
  have hafter : a ∉ after := (List.nodup_cons.1 hsplit.2.1).1
  have hfirst := vioSteps_moved (low := low) before hoff
  have hoff' := hfirst.noStations hoff
  refine ⟨before.foldl (vioStep low) s, hfirst.others a hbefore, ?_⟩
  have hlast := vioSteps_moved (low := low) after ((vioAxis_moved (a := a) low _).noStations hoff')
  rw [List.foldl_append, List.foldl_cons, vioStep_eq a hoff']
  exact hlast.others a hafter

/-- An axis at rest, or disabled, takes note of VIO and does no more. -/
theorem vioAxis_still {a : Nat} (hrest : (vget s.axes.ax a).state = .idle ∨ (vget s.axes.ax a).state = .disabled) :
    vioAxis a low s = setAxis a (fun x => { x with vioLow := low }) s := by
  rcases hrest with h | h <;> simp [vioAxis, h, inMotion]

theorem vioSteps_still : ∀ (l : List Nat) {s : State}, (∀ a ∈ l, a < 4) → noStations s →
    (∀ a : Nat, a < 4 → ((vget s.axes.ax a).state = .idle ∨ (vget s.axes.ax a).state = .disabled)) →
    l.foldl (vioStep low) s = l.foldl (fun s a => setAxis a (fun x => { x with vioLow := low }) s) s
  | [], _, _, _, _ => rfl
  | a :: l, s, hl, hoff, hrest => by
    have ha : a < 4 := hl a (by simp)
    rw [List.foldl_cons, List.foldl_cons, vioStep_eq a hoff, vioAxis_still (hrest a ha)]
    refine vioSteps_still l (fun k hk => hl k (by simp [hk])) hoff fun k hk => ?_
    have hsame : (vget (setAxis a (fun x => { x with vioLow := low }) s).axes.ax k).state = (vget s.axes.ax k).state :=
      vget_vmod_congr _ (g := Axis.state) fun _ => rfl
    rw [hsame]
    exact hrest k hk

theorem vmods_map {α : Type} [Inhabited α] (f : α → α) (v : Vector α 4) : (List.range 4).foldl (fun v a => vmod v a f) v = v.map f := by
  ext i hi
  interval_cases i <;> simp [List.range_succ, vmod, vset, vget]

theorem setAxes_ax (f : Axis → Axis) : ∀ (l : List Nat) (s : State),
    l.foldl (fun s a => setAxis a f s) s = { s with axes := { s.axes with ax := l.foldl (fun v a => vmod v a f) s.axes.ax } }
  | [], _ => rfl
  | a :: l, s => setAxes_ax f l (setAxis a f s)

theorem vioLow_still : Happens (.vioLow · low)
    (fun s => noStations s ∧ ∀ a : Nat, a < 4 → ((vget s.axes.ax a).state = .idle ∨ (vget s.axes.ax a).state = .disabled))
    (fun s => { s with axes := { s.axes with ax := s.axes.ax.map fun x => { x with vioLow := low } } }) [] noPuts := by
  refine happens_silently (f := fun s => (List.range 4).foldl (vioStep low) s) (fun _ _ => rfl) (fun _ => rfl) (fun _ => rfl) fun q hq => ?_
  rw [vioSteps_still _ (fun a ha => List.mem_range.1 ha) hq.1 hq.2, setAxes_ax, vmods_map]

theorem vioLow_brakes (t : Nat) (s : State) (a : Nat) (hi : s.Inv) (hoff : noStations s) (ha : a < 4) (hmoving : (vget s.axes.ax a).state = .moving)
    (hon : (vget s.axes.ax a).vioLow = false) (hmoves : (vget s.axes.ax a).vq ≠ 0) (hstop : (vget s.axes.ax a).stopping = none) :
    Next (.vioLow t true) s fun r =>
      (vget r.axes.ax a).state = .stopping ∧ (vget r.axes.ax a).stopping = some { emerg := true, cause := .hardLimit, atRest := .fault } ∧
      (vget r.axes.ax a).vioLow = true ∧ (vget r.axes.ax a).xq = (vget s.axes.ax a).xq ∧ r.bench.mem = s.bench.mem := by
  have hmoved := vioSteps_moved (low := true) (q := tick t s) (List.range 4) hoff
  have hset : Settled (tick t s) ((List.range 4).foldl (vioStep true) (tick t s)) := hmoved.settled
  obtain ⟨q, hq, hr⟩ := vioSteps_split (s := tick t s) (low := true) (List.mem_range.2 ha) List.nodup_range hoff
  refine next_of (f := fun s => (List.range 4).foldl (vioStep true) s) rfl hi hset ?_
  have hq' : vget q.axes.ax a = vget s.axes.ax a := hq
  obtain ⟨hstate, hstopping, hlow, hxq⟩ := vioAxis_brakes (s := q) ha (by rw [hq', hmoving]) (by rw [hq', hon]) (by rwa [hq']) (by rw [hq', hstop])
  rw [hr]
  exact ⟨hstate, hstopping, hlow, by rw [hxq, hq'], hset.mem.trans (congrArg Bench.mem (tick_bench t hi))⟩

end

/-- Settles O48, clause by clause: an event on an axis is its effect alone while no station is in use, and of the four steps of VIO the one of a
moving axis finds that axis as it was. -/
theorem axisTimers : Obligations.AxisTimers := by
  unfold Obligations.AxisTimers
  refine ⟨fun a r ha => ?_, fun a r ha => ?_, fun a u ha => ?_, fun a ha => ?_, fun a h ha b => ?_, fun a h ha b => ?_, fun a ha h hnone => ?_,
    fun a ha h => ?_, fun a ha p hsafe => ?_, fun a ha => ?_, fun low => vioLow_still, vioLow_brakes⟩
  · exact happens_axis ha (fun _ _ => rfl) (fun _ => rfl) fun q ⟨hoff, hr, hdue, hon⟩ => ⟨hoff, standstillDue_due hr hdue hon hoff⟩
  · exact happens_axis ha (fun _ _ => rfl) (fun _ => rfl) fun q ⟨hoff, hr, hearly⟩ => ⟨hoff, standstillDue_early hr hearly⟩
  · refine happens_axis ha (fun _ _ => rfl) (fun _ => rfl) fun q ⟨hoff, hu, hdue⟩ => ⟨hoff, ?_⟩
    simp only [hu, if_pos hdue]
  · refine happens_axis ha (fun _ _ => rfl) (fun _ => rfl) fun q ⟨hoff, hu⟩ => ⟨hoff, ?_⟩
    simp only [hu, id]
  · exact happens_axis ha (fun _ _ => rfl) (fun _ => rfl) fun q ⟨hoff, hstroke, hdue, hjerk⟩ => ⟨hoff, strokeBack_due hstroke hdue hjerk⟩
  · exact happens_axis ha (fun _ _ => rfl) (fun _ => rfl) fun q ⟨hoff, hstroke, hearly⟩ => ⟨hoff, strokeBack_early hstroke hearly⟩
  · refine happens_axis ha (fun _ _ => rfl) (fun _ => rfl) fun q ⟨hoff, hhome, hdue⟩ => ⟨hoff, ?_⟩
    simp only [hhome, if_pos hdue, failHoming_fails .timeout hhome hnone]
  · refine happens_axis ha (fun _ _ => rfl) (fun _ => rfl) fun q ⟨hoff, hhome, hearly⟩ => ⟨hoff, ?_⟩
    simp only [hhome, if_neg (Nat.not_le.2 hearly), id]
  · exact happens_axis ha (fun _ _ => rfl) (fun _ => rfl) fun q ⟨hoff, hstop, hrest⟩ => ⟨hoff, safeRest_rests ha hstop hsafe hrest⟩
  · exact happens_axis ha (fun _ _ => rfl) (fun _ => rfl) fun q ⟨hoff, hrest⟩ => ⟨hoff, safeRest_early hrest⟩

end Sys2Proof.Machine

/-! ## The Holdfast while the fabric does not run: latched events, faults, resets, and the fabric that runs again (R724, R726, R760) -/

namespace Sys2Proof.Machine

/-! ### Events and faults of a fabric that does not run -/

/-- What events change while the fabric does not run: they are latched, and nothing else happens. -/
def LatchFrame (s r : State) : Prop := r = { s with hf := { s.hf with latched := r.hf.latched, latchedEvents := r.hf.latchedEvents } }

section
variable {s r q : State} {src : Nat} {a b : Int}

theorem LatchFrame.trans (h : LatchFrame s r) (h' : LatchFrame r q) : LatchFrame s q := by
  unfold LatchFrame at *
  rw [h] at h'
  exact h'

theorem latchEvent_latchFrame (src : Nat) (a b : Int) (s : State) : LatchFrame s (latchEvent src a b s) := by
  unfold latchEvent
  split
  · rfl
  · rfl

theorem raise_latchFrame (src : Nat) (a b : Int) (hdown : s.hf.fabric ≠ .running) : LatchFrame s (raise src a b s) := by
  rw [raise, if_neg hdown]
  exact latchEvent_latchFrame src a b s

/-- A source raised while the fabric does not run is latched. -/
theorem raise_setsLatched (src : Nat) (a b : Int) (hdown : s.hf.fabric ≠ .running) : bitOf (raise src a b s).hf.latched src = true := by
  rw [raise, if_neg hdown]
  unfold latchEvent
  split
  · next h => exact (Bool.and_eq_true_iff.1 h).1
  · exact setBit_self _ _

/-- A source raised while the fabric does not run is among the events held. -/
theorem raise_lists (src : Nat) (a b : Int) (hdown : s.hf.fabric ≠ .running) : ∃ e ∈ (raise src a b s).hf.latchedEvents, e.1 = src := by
  rw [raise, if_neg hdown]
  unfold latchEvent
  split
  · next h =>
    obtain ⟨e, he, hsrc⟩ := List.any_eq_true.1 (Bool.and_eq_true_iff.1 h).2
    exact ⟨e, he, of_decide_eq_true hsrc⟩
  · exact ⟨_, List.mem_append_right _ (List.mem_singleton_self _), rfl⟩

theorem raise_keepsListed {e : Nat × Nat × Nat × Nat} (src : Nat) (a b : Int) (hdown : s.hf.fabric ≠ .running) (h : e ∈ s.hf.latchedEvents) :
    e ∈ (raise src a b s).hf.latchedEvents := by
  rw [raise, if_neg hdown]
  unfold latchEvent
  split
  · exact h
  · exact List.mem_append_left _ h

/-- Raising clears nothing that is latched. -/
theorem raise_keepsLatched {n : Nat} (src : Nat) (a b : Int) (hdown : s.hf.fabric ≠ .running) (h : bitOf s.hf.latched n = true) :
    bitOf (raise src a b s).hf.latched n = true := by
  rw [raise, if_neg hdown]
  unfold latchEvent
  split
  · exact h
  · exact setBit_keeps _ h

end

section
variable {s r q : State}

theorem LatchFrame.out (h : LatchFrame s r) : OutFrame s r := by
  unfold LatchFrame at h
  unfold OutFrame
  rw [h]

theorem LatchFrame.now (h : LatchFrame s r) : r.now = s.now := by
  unfold LatchFrame at h
  rw [h]

theorem LatchFrame.host (h : LatchFrame s r) : r.host = s.host := by
  unfold LatchFrame at h
  rw [h]

theorem LatchFrame.emit (h : LatchFrame s r) : r.emit = s.emit := by
  unfold LatchFrame at h
  rw [h]

theorem LatchFrame.hf (h : LatchFrame s r) : r.hf = { s.hf with latched := r.hf.latched, latchedEvents := r.hf.latchedEvents } := congrArg State.hf h

theorem LatchFrame.settled (h : LatchFrame s r) : Settled s r := by
  have hbench := h.out.bench
  exact ⟨h.now, h.out.pending, congrArg Bench.mem hbench, congrArg Bench.writes hbench, congrArg Bench.emptied hbench⟩

/-- What a fault leaves while the fabric does not run: an entry and the alert, its event latched, counts, and the fences as they were. -/
structure LoggedDown (e : FaultEntry) (cnt : FaultCounters) (s r : State) : Prop where
  frame : LatchFrame { s with faults := r.faults, hf := { s.hf with alert := true } } r
  last : r.faults.log.getLast? = some (entryOf e s)
  counts : r.faults.cnt = cnt
  fences : r.faults.fences = s.faults.fences
  latched : bitOf r.hf.latched 0x008 = true

variable {e : FaultEntry} {cnt : FaultCounters}

theorem logFault_down (e : FaultEntry) (hdown : s.hf.fabric ≠ .running) : LoggedDown e s.faults.cnt s (logFault e s).2 := by
  let f : Faults := { s.faults with
    log := takeLast 256 (s.faults.log ++ [entryOf e s])
    flash := if persistentClass e.cls then takeLast 64 (s.faults.flash ++ [entryOf e s]) else s.faults.flash
    nextEntry := if s.faults.nextEntry = 65535 then 1 else s.faults.nextEntry + 1 }
  let q : State := { s with faults := f, hf := { s.hf with alert := true } }
  have hlog : (logFault e s).2 = raise 0x008 s.faults.nextEntry e.cls q := rfl
  have hq : q.hf.fabric ≠ .running := hdown
  have hframe := raise_latchFrame 0x008 s.faults.nextEntry e.cls hq
  have hfaults : (raise 0x008 s.faults.nextEntry e.cls q).faults = f := (raise_frame _ _ _ _).faults
  rw [hlog]
  refine ⟨?_, ?_, ?_, ?_, raise_setsLatched _ _ _ hq⟩
  · rw [hfaults]
    exact hframe
  · rw [hfaults]
    simp only [f, takeLast_last 256 (by decide)]
  · rw [hfaults]
  · rw [hfaults]

/-- A fault's own count is set. -/
def withFaultCounts (cnt : FaultCounters) (s : State) : State := { s with faults := { s.faults with cnt := cnt } }

theorem LoggedDown.counted {old : FaultCounters} (h : LoggedDown e old s r) (cnt : FaultCounters) : LoggedDown e cnt s (withFaultCounts cnt r) := by
  refine ⟨?_, h.last, rfl, h.fences, h.latched⟩
  have hframe := h.frame
  unfold LatchFrame at *
  rw [hframe]
  rfl

theorem LoggedDown.down (h : LoggedDown e cnt s r) (hdown : s.hf.fabric ≠ .running) : r.hf.fabric ≠ .running := by
  rw [h.frame.hf]
  exact hdown

theorem LoggedDown.settled (h : LoggedDown e cnt s r) : Settled s r := by
  have hset := h.frame.settled
  exact ⟨hset.now, hset.pending, hset.mem, hset.writes, hset.emptied⟩

/-- The fault's own event, raised after its entry. -/
theorem LoggedDown.raised (h : LoggedDown e cnt s r) (src : Nat) (a b : Int) (hdown : s.hf.fabric ≠ .running) : LoggedDown e cnt s (raise src a b r) := by
  have hframe := raise_latchFrame src a b (h.down hdown)
  have hfaults := hframe.out.faults
  refine ⟨?_, ?_, ?_, ?_, raise_keepsLatched _ _ _ (h.down hdown) h.latched⟩
  · rw [hfaults]
    exact h.frame.trans hframe
  · rw [hfaults, h.last]
  · rw [hfaults, h.counts]
  · rw [hfaults, h.fences]

end

theorem map_eq_self {α : Type} [Inhabited α] {n : Nat} {v : Vector α n} {f : α → α} (h : ∀ i, i < n → f (vget v i) = vget v i) : v.map f = v := by
  ext i hi
  simpa [vget, hi] using h i hi

/-! ### Forced self-refresh and a reset of a module that is still -/

section
variable {s : State}

/-- The axes that a stop leaves as they were end no mark. -/
theorem marksAfter_self (s : State) : marksAfter s s = s := by
  unfold marksAfter
  refine foldl_range_fixed fun t _ => ?_
  have hstill : (stationAxes (stationCfg s t)).any (fun a =>
      (axisDown (vget s.axes.ax a) && !axisDown (vget s.axes.ax a)) || ((vget s.axes.ax a).softBrake && !(vget s.axes.ax a).softBrake)) = false := by
    simp
  have hmove : ∀ x : Axis, (decide (x.state = .moving) && x.scribe && decide (x.state = .idle)) = false := by
    intro x
    cases x.state <;> simp
  simp only [hstill, hmove, Bool.false_eq_true, if_false, ite_self]

theorem safeStopAxes_disabled (mask : Nat) (cause : AxisCause) (haxes : axesOff s) : safeStopAxes mask cause s = s :=
  foldl_range_fixed fun a ha => by
    have hoff : safeStopAxis a cause s = s := by simp [safeStopAxis, haxes a ha]
    rw [withMarks, hoff, marksAfter_self, ite_self]

/-- The Bench on its way into forced self-refresh. -/
def benchForced (b : Bench) : Bench := { b with entering := some b.nextReq, exiting := false, autoEntered := false, forced := true }

/-- A Bench that serves requests, with none waiting. -/
abbrev benchQuiet (s : State) : Prop :=
  (vget s.bench.ctl 0).state = .ready ∧ (vget s.bench.ctl 1).state = .ready ∧ (vget s.bench.ctl 0).pending = [] ∧ (vget s.bench.ctl 1).pending = []

theorem forceSr_quiet (hquiet : benchQuiet s) : forceSr s = { s with bench := benchForced s.bench } := by
  obtain ⟨hready0, hready1, hnone0, hnone1⟩ := hquiet
  have hsame : (s.bench.ctl.map fun c => { c with pending := [] }) = s.bench.ctl := by
    refine map_eq_self fun i hi => ?_
    have hnone : (vget s.bench.ctl i).pending = [] := by
      interval_cases i
      · exact hnone0
      · exact hnone1
    rw [← hnone]
  have hawake : benchAsleep s = false := by simp [benchAsleep, hready0, hready1]
  simp only [forceSr, hawake, Bool.false_eq_true, if_false, hnone0, hnone1, hsame]
  rfl

/-- What puts nothing out holds nothing back. -/
theorem deferOut_silent {f : State → State} (h : (f s).emit = s.emit) : deferOut f s = f s := by
  simp only [deferOut, h, List.drop_length, List.filter_nil, List.append_nil]
  rw [← h, ite_self]

theorem startForced_quiet (hquiet : benchQuiet s) : startForced s = { s with bench := benchForced s.bench } := by
  have hforce := forceSr_quiet hquiet
  have hdefer : deferOut forceSr s = { s with bench := benchForced s.bench } := by rw [deferOut_silent (by rw [hforce]), hforce]
  rw [startForced, hdefer]
  rfl

end

/-! ### A reset of the fabric begins (Table 18-4) -/

section
variable {s : State}

/-- A reset of the fabric that the Holdfast starts by itself, before triggering halts. -/
def resetEntered (recovery : Bool) (cause : Nat) (s : State) : State :=
  { s with
    hf := { s.hf with fabric := .resetting, busy := some (if recovery then .recoveryBoot else .warmReset, .auto), monitorHold := !s.hf.monitors.isEmpty }
    boot := { s.boot with
      stage := 2, recovery := recovery, warm := true, cause := cause, refTime := s.now, readyMs := 0
      warmResets := wrap32 (s.boot.warmResets + 1), fw := none, verifying := false, ready := false, holdUntil := none } }

/-- The same with triggering halted. -/
def resetStarted (recovery : Bool) (cause : Nat) (s : State) : State :=
  { resetEntered recovery cause s with gauge := { s.gauge with trigHalted := true } }

/-- The entry of a reset of the fabric. -/
def resetEntry (recovery : Bool) : FaultEntry :=
  { cls := 9, unit := 0x12, holdfast := true, cause := if recovery then 4 else 3, detail := le 1 (pathCode .auto) }

def resetCounts (s : State) : FaultCounters := { s.faults.cnt with warmResets := wrap32 (s.faults.cnt.warmResets + 1) }

def withBench (b : Bench) (s : State) : State := { s with bench := b }

/-- A reset that has been logged and counted. -/
def resetLogged (recovery : Bool) (q : State) : State := withFaultCounts (resetCounts (logFault (resetEntry recovery) q).2) (logFault (resetEntry recovery) q).2

theorem startReset_idle (recovery : Bool) (cause : Nat) (hoff : s.gauge.trigEnabled = false) (hbusy : s.hf.busy = none) :
    startReset recovery .auto cause s = startForced (safeStopAxes 15 .safeStop (resetLogged recovery (resetStarted recovery cause s))) := by
  have hhalt : haltTriggers (resetEntered recovery cause s) = resetStarted recovery cause s := haltTriggers_idle hoff
  rw [← hhalt]
  simp only [startReset, hbusy]
  rfl

/-- A reset of a module that is still: it is logged and counted, and the Bench is on its way into self-refresh. -/
theorem startReset_quiet (recovery : Bool) (cause : Nat) (hstill : stillModule s) (hbusy : s.hf.busy = none) :
    ∃ r, LoggedDown (resetEntry recovery) (resetCounts s) (resetStarted recovery cause s) r ∧
      startReset recovery .auto cause s = withBench (benchForced s.bench) r := by
  obtain ⟨hoff, haxes, -, -, hquiet⟩ := hstill
  have hdown : (resetStarted recovery cause s).hf.fabric ≠ .running := FabricState.noConfusion
  have hlog := logFault_down (resetEntry recovery) hdown
  have hcounts : resetCounts (logFault (resetEntry recovery) (resetStarted recovery cause s)).2 = resetCounts s := by
    rw [resetCounts, hlog.counts]
    rfl
  have hcounted := hlog.counted (resetCounts s)
  have hbench : (resetLogged recovery (resetStarted recovery cause s)).bench = s.bench := hlog.frame.out.bench
  have haxes' : axesOff (resetLogged recovery (resetStarted recovery cause s)) := by
    have hsame : (resetLogged recovery (resetStarted recovery cause s)).axes = s.axes := hlog.frame.out.axes
    rw [axesOff, hsame]
    exact haxes
  refine ⟨_, hcounted, ?_⟩
  rw [startReset_idle recovery cause hoff hbusy, safeStopAxes_disabled _ _ haxes', startForced_quiet (by rw [benchQuiet, hbench]; exact hquiet), hbench,
    resetLogged, hcounts]
  rfl

end

/-! ### The fabric runs again (R726) -/

section
variable {s : State}

theorem sendMsix_hf (v : Nat) (s : State) : (sendMsix v s).hf = s.hf := by
  unfold sendMsix
  simp only
  repeat' split
  all_goals rfl

theorem signalVector_hf (v : Nat) (s : State) : (signalVector v s).hf = s.hf := by
  unfold signalVector
  split
  · exact sendMsix_hf v _
  · rfl

theorem writeEvent_hf (src : Nat) (a b : Int) (t : Nat) (s : State) : (writeEvent src a b t s).hf = s.hf := by
  unfold writeEvent
  simp only
  repeat' split
  all_goals rfl

theorem deliverEvent_hf (src : Nat) (a b : Int) (t : Nat) (s : State) : (deliverEvent src a b t s).hf = s.hf := by
  unfold deliverEvent
  simp only
  split
  · rfl
  · exact (signalVector_hf _ _).trans (writeEvent_hf _ _ _ _ _)

/-- An event that reaches the event block is an event raised while the fabric runs, but for its time. -/
structure EventsOut (s r : State) : Prop where
  frame : OutFrame s r
  hf : r.hf = s.hf
  now : r.now = s.now
  emits : s.emit ⊆ r.emit
  keeps : ∀ n, bitOf s.host.evt.pending n = true → bitOf r.host.evt.pending n = true

theorem EventsOut.refl (s : State) : EventsOut s s := ⟨OutFrame.refl s, rfl, rfl, List.Subset.refl _, fun _ h => h⟩

theorem EventsOut.trans {r q : State} (h : EventsOut s r) (h' : EventsOut r q) : EventsOut s q :=
  ⟨h.frame.trans h'.frame, h'.hf.trans h.hf, h'.now.trans h.now, fun _ he => h'.emits (h.emits he), fun n hn => h'.keeps n (h.keeps n hn)⟩

theorem deliverEvent_out (src : Nat) (a b : Int) (t : Nat) (s : State) : EventsOut s (deliverEvent src a b t s) := by
  refine ⟨deliverEvent_frame _ _ _ _ _, deliverEvent_hf _ _ _ _ _, ?_, ?_, fun n hn => ?_⟩
  · unfold deliverEvent
    simp only
    split
    · rfl
    · rw [signalVector_now, writeEvent_now]
  · unfold deliverEvent
    simp only
    split
    · exact List.Subset.refl _
    · exact fun _ h => signalVector_emits _ _ (writeEvent_emits _ _ _ _ _ h)
  · rw [deliverEvent_pending]
    exact setBit_keeps _ hn

theorem raise_out (src : Nat) (a b : Int) (hup : up s) : EventsOut s (raise src a b s) := by
  rw [raise, if_pos hup]
  exact deliverEvent_out _ _ _ _ _

/-- The events latched reach the event block, each of them. -/
theorem deliverEvents_out : ∀ (l : List (Nat × Nat × Nat × Nat)) (s : State),
    let r := l.foldl (fun s e => deliverEvent e.1 e.2.1 e.2.2.1 e.2.2.2 s) s
    EventsOut s r ∧ ∀ e ∈ l, bitOf r.host.evt.pending e.1 = true
  | [], s => ⟨EventsOut.refl s, List.forall_mem_nil _⟩
  | e :: l, s => by
    have hfirst := deliverEvent_out e.1 e.2.1 e.2.2.1 e.2.2.2 s
    obtain ⟨hrest, hset⟩ := deliverEvents_out l (deliverEvent e.1 e.2.1 e.2.2.1 e.2.2.2 s)
    refine ⟨hfirst.trans hrest, List.forall_mem_cons.2 ⟨hrest.keeps _ ?_, hset⟩⟩
    rw [deliverEvent_pending]
    exact setBit_self _ _

/-- The fabric as it runs again, with what was held put out and no event yet delivered. -/
def runsAgain (s : State) : State :=
  { s with emit := s.emit ++ s.heldOut, heldOut := [], hf := { s.hf with fabric := .running, wedgeSeen := false, latchedEvents := [] } }

/-- What the fabric does when it runs again and no ring has a reply to post. -/
structure RunsAgain (s r : State) : Prop where
  out : EventsOut (runsAgain s) r
  events : ∀ e ∈ s.hf.latchedEvents, bitOf r.host.evt.pending e.1 = true
  report : s.hf.wedgeSeen = true → bitOf r.host.evt.pending 0x007 = true

theorem fabricRuns_again (hposts : ∀ n : Nat, n < 4 → (vget s.host.rings n).posts = []) : RunsAgain s (fabricRuns s) := by
  obtain ⟨hout, hset⟩ := deliverEvents_out s.hf.latchedEvents (runsAgain s)
  have hflush : deliverLatched (setHf (fun h => { h with fabric := .running, wedgeSeen := false }) s) =
      s.hf.latchedEvents.foldl (fun s e => deliverEvent e.1 e.2.1 e.2.2.1 e.2.2.2 s) (runsAgain s) := by
    refine foldl_range_fixed fun n hn => flushRing_idle ?_
    exact (congrArg (fun x : Vector RingPair 4 => (vget x n).posts) hout.frame.rings).trans (hposts n hn)
  have hup : up (s.hf.latchedEvents.foldl (fun s e => deliverEvent e.1 e.2.1 e.2.2.1 e.2.2.2 s) (runsAgain s)) := by
    rw [up, hout.hf]
    rfl
  unfold fabricRuns
  simp only [hflush]
  split
  · exact ⟨hout.trans (raise_out _ _ _ hup), fun e he => raise_keeps _ _ _ (hset e he), fun _ => raise_sets _ _ _ hup⟩
  · next hseen => exact ⟨hout, hset, fun h => absurd h hseen⟩

end

end Sys2Proof.Machine

/-! ## A wedged fabric, the monitors, and the Holdfast over SMBus (R726, R727, R730, R731) -/

namespace Sys2Proof.Machine

/-! ### The wedge -/

section
variable {s : State}

theorem wedge_stopped (cause : Nat) (hdown : s.hf.fabric ≠ .running) : wedge cause s = s := by
  simp only [wedge, hdown, ne_eq, not_false_eq_true, true_or, if_true]

theorem stopMoving_off (haxes : axesOff s) : stopMoving s = s :=
  foldl_range_fixed fun a ha => by simp [haxes a ha, inMotion]

def wedgeBegun (s : State) : State := { s with hf := { s.hf with fabric := .wedged, wedgeSeen := true } }

def wedgeEntry (cause : Nat) : FaultEntry := { cls := 4, unit := 0x12, holdfast := true, cause := cause, detail := le 1 0 }

def wedgeCounts (s : State) : FaultCounters := { s.faults.cnt with wedges := wrap32 (s.faults.cnt.wedges + 1) }

/-- The wedge logged, counted and raised. -/
def wedgeReported (cause : Nat) (q : State) : State :=
  raise 0x3F0 (logFault (wedgeEntry cause) q).1 cause (withFaultCounts (wedgeCounts (logFault (wedgeEntry cause) q).2) (logFault (wedgeEntry cause) q).2)

theorem wedgeReported_logged (cause : Nat) (hdown : s.hf.fabric ≠ .running) :
    LoggedDown (wedgeEntry cause) (wedgeCounts s) s (wedgeReported cause s) ∧ bitOf (wedgeReported cause s).hf.latched 0x3F0 = true := by
  have hlog := logFault_down (wedgeEntry cause) hdown
  have hcounts : wedgeCounts (logFault (wedgeEntry cause) s).2 = wedgeCounts s := by rw [wedgeCounts, hlog.counts, wedgeCounts]
  have hcounted := hlog.counted (wedgeCounts s)
  unfold wedgeReported
  rw [hcounts]
  exact ⟨hcounted.raised _ _ _ hdown, raise_setsLatched _ _ _ (hcounted.down hdown)⟩

/-- A wedge of a module that stands alone, with nothing in motion, no glue-up and its clock its own, is reported and no more. -/
theorem wedge_reports {cause : Nat} (hup : up s) (hcause : inRange 1 2 cause = true) (haxes : axesOff s) (hsolo : s.pair.role = .solo) (hglue : s.glue = none)
    (hsource : (cfgNow s).time.source = 0) : wedge cause s = wedgeReported cause (wedgeBegun s) := by
  have hdown : (wedgeBegun s).hf.fabric ≠ .running := FabricState.noConfusion
  have hframe := (wedgeReported_logged cause hdown).1.frame.out
  have haxes' : axesOff (wedgeReported cause (wedgeBegun s)) := by
    have hsame : (wedgeReported cause (wedgeBegun s)).axes = s.axes := hframe.axes
    rw [axesOff, hsame]
    exact haxes
  have hpair : inPair (wedgeReported cause (wedgeBegun s)) = false := by
    have hsame : (wedgeReported cause (wedgeBegun s)).pair = s.pair := hframe.pair
    rw [inPair, hsame, hsolo]
    rfl
  have hglue' : (wedgeReported cause (wedgeBegun s)).glue = none := (hframe.glue).trans hglue
  have htime : (timeCfg (wedgeReported cause (wedgeBegun s))).source = 0 := by
    have hcfg : cfgNow (wedgeReported cause (wedgeBegun s)) = cfgNow s := hframe.cfgNow
    rw [timeCfg, hcfg, hsource]
  have hopen : wedge cause s =
      (let q := stopMoving (wedgeReported cause (wedgeBegun s))
       let q := if inPair q then giveSignal q else q
       let q := if (timeCfg q).source ≠ 0 then holdClock q else q
       { q with glue := q.glue.map fun g => if g.others then g else { g with first := none } }) := by
    simp only [wedge, show s.hf.fabric = .running from hup, hcause]
    rfl
  rw [hopen, stopMoving_off haxes']
  simp only [hpair, Bool.false_eq_true, if_false, htime, ne_eq, not_true_eq_false]
  rw [hglue', Option.map_none, ← hglue']

end

theorem fabricWedge_reports (t : Nat) (s : State) (cause : Nat) (hi : s.Inv) (hup : up s) (h1 : 1 ≤ cause) (h2 : cause ≤ 2) (haxes : axesOff s)
    (hsolo : s.pair.role = .solo) (hglue : s.glue = none) (hsource : (cfgNow s).time.source = 0) :
    Next (.fabricWedge t cause) s fun r =>
      r.hf.fabric = .wedged ∧ r.hf.wedgeSeen = true ∧ bitOf r.hf.latched 0x3F0 = true ∧ bitOf r.hf.latched 0x008 = true ∧
      (∃ e, r.faults.log.getLast? = some e ∧ e.cls = 4 ∧ e.unit = 0x12 ∧ e.cause = cause ∧ e.persistent = true) ∧
      r.faults.cnt = { s.faults.cnt with wedges := wrap32 (s.faults.cnt.wedges + 1) } ∧ r.faults.fences = s.faults.fences ∧ r.emit = [] ∧
      r.host = s.host ∧ r.ledger = s.ledger ∧ r.bench.mem = s.bench.mem ∧ r.axes = s.axes ∧ r.gauge = s.gauge ∧ r.running = s.running := by
  have hwedge : wedge cause (tick t s) = wedgeReported cause (wedgeBegun (tick t s)) :=
    wedge_reports (s := tick t s) hup (by simp [inRange, h1, h2]) haxes hsolo hglue hsource
  have hdown : (wedgeBegun (tick t s)).hf.fabric ≠ .running := FabricState.noConfusion
  obtain ⟨hlogged, hlatched⟩ := wedgeReported_logged cause hdown
  have hframe := hlogged.frame
  have hhf := hframe.hf
  have hout := hframe.out
  have hbegun : Settled (tick t s) (wedgeBegun (tick t s)) := ⟨rfl, rfl, rfl, rfl, rfl⟩
  have hset := hbegun.trans hlogged.settled
  refine next_of rfl hi ?_ ?_
  · rw [hwedge]
    exact hset
  · rw [hwedge]
    exact ⟨congrArg Holdfast.fabric hhf, congrArg Holdfast.wedgeSeen hhf, hlatched, hlogged.latched, ⟨_, hlogged.last, rfl, rfl, rfl, rfl⟩, hlogged.counts,
      hlogged.fences, hframe.emit, hframe.host, hout.ledger, hset.mem, hout.axes, hout.gauge, hout.running⟩

/-! ### A wedged fabric runs again -/

theorem resume_again {s : State} (hwedged : s.hf.fabric = .wedged) (hspans : s.spans = []) (hposts : ∀ n : Nat, n < 4 → (vget s.host.rings n).posts = []) :
    resume s = fabricRuns s := by
  have hspans' : (fabricRuns s).spans = [] := ((fabricRuns_again hposts).out.frame.spans).trans hspans
  rw [resume, if_pos hwedged, flushIdle, hspans']
  rfl

theorem EventsOut.settled {s r : State} (h : EventsOut s r) : Settled s r := by
  have hbench := h.frame.bench
  exact ⟨h.now, h.frame.pending, congrArg Bench.mem hbench, congrArg Bench.writes hbench, congrArg Bench.emptied hbench⟩

theorem fabricResume_again (t : Nat) (s : State) (src a0 a1 st : Nat) (hi : s.Inv) (hwedged : s.hf.fabric = .wedged) (hseen : s.hf.wedgeSeen = true)
    (hspans : s.spans = []) (hevents : s.hf.latchedEvents = [(src, a0, a1, st)]) (hposts : ∀ n : Nat, n < 4 → (vget s.host.rings n).posts = []) :
    Next (.fabricResume t) s fun r =>
      r.hf.fabric = .running ∧ r.hf.wedgeSeen = false ∧ r.hf.latchedEvents = [] ∧ bitOf r.host.evt.pending src = true ∧
      bitOf r.host.evt.pending 0x007 = true ∧ (∀ e ∈ s.heldOut, e ∈ r.emit) ∧ r.heldOut = [] ∧ r.ledger = s.ledger ∧ r.bench.mem = s.bench.mem := by
  have hresume : resume (tick t s) = fabricRuns (tick t s) := resume_again (s := tick t s) hwedged hspans hposts
  obtain ⟨hout, hset, hreport⟩ := fabricRuns_again (s := tick t s) hposts
  have hhf := hout.hf
  have hagain : Settled (tick t s) (runsAgain (tick t s)) := ⟨rfl, rfl, rfl, rfl, rfl⟩
  have hsettled := hagain.trans hout.settled
  refine next_of rfl hi ?_ ?_
  · rw [hresume]
    exact hsettled
  · rw [hresume]
    exact ⟨congrArg Holdfast.fabric hhf, congrArg Holdfast.wedgeSeen hhf, congrArg Holdfast.latchedEvents hhf,
      hset (src, a0, a1, st) (by rw [tick_hf, hevents]; exact List.mem_singleton_self _), hreport hseen,
      fun e he => hout.emits (List.mem_append_right _ he), hout.frame.heldOut, hout.frame.ledger, hsettled.mem⟩

/-! ### The monitors (R727) -/

section
variable {s : State} {what : Monitor} {v : Int}

/-- A quantity inside its fault window is noted, and no more. -/
theorem monitorFault_inside (h : outsideWindow what (senseValue what v s).pace.vfabMv v = false) : monitorFault what v s = senseValue what v s := by
  simp only [monitorFault, h, Bool.not_false, Bool.true_or, if_true]

/-- A quantity outside its release window is noted, and no more. -/
theorem monitorRelease_outside (h : insideRelease what v = false) : monitorRelease what v s = senseValue what v s := by
  simp only [monitorRelease, h, Bool.not_false, Bool.true_or, if_true]

/-- A first monitor fault as it is found. -/
def monitorOpened (what : Monitor) (q : State) : State :=
  { q with hf := { q.hf with fabric := .resetting, monitorHold := true, monitors := [what] } }

/-- The first monitor fault found, with triggering halted and the Bench on its way into self-refresh. -/
def monitorHeld (what : Monitor) (q : State) : State :=
  { q with
    hf := { q.hf with fabric := .resetting, monitorHold := true, monitors := [what] }
    gauge := { q.gauge with trigHalted := true }
    bench := benchForced q.bench }

def monitorEntry (what : Monitor) (v : Int) : FaultEntry :=
  { cls := if what = .junction then 6 else 5, unit := 0x13, holdfast := true, cause := monitorCause what, detail := leI 4 v }

def monitorCounts (what : Monitor) (c : FaultCounters) : FaultCounters :=
  if what = .junction then { c with thermalFaults := wrap32 (c.thermalFaults + 1) } else { c with powerFaults := wrap32 (c.powerFaults + 1) }

/-- A monitor fault logged, counted and raised. -/
def monitorReported (what : Monitor) (v : Int) (q : State) : State :=
  raise (monitorEvent what) v 1
    (withFaultCounts (monitorCounts what (logFault (monitorEntry what v) q).2.faults.cnt) (logFault (monitorEntry what v) q).2)

theorem monitorReported_logged (hdown : s.hf.fabric ≠ .running) :
    LoggedDown (monitorEntry what v) (monitorCounts what s.faults.cnt) s (monitorReported what v s) ∧
      bitOf (monitorReported what v s).hf.latched (monitorEvent what) = true := by
  have hlog := logFault_down (monitorEntry what v) hdown
  have hcounted := hlog.counted (monitorCounts what s.faults.cnt)
  unfold monitorReported
  rw [hlog.counts]
  exact ⟨hcounted.raised _ _ _ hdown, raise_setsLatched _ _ _ (hcounted.down hdown)⟩

/-- A first monitor fault of VMAIN or the junction, found in a module that is still. -/
theorem monitorFault_holds (hwhat : what ≠ .vfab) (hout : outsideWindow what (senseValue what v s).pace.vfabMv v = true)
    (hmain : (senseValue what v s).boot.vmainUp = true) (hnone : (senseValue what v s).hf.monitors = []) (hstill : stillModule (senseValue what v s)) :
    monitorFault what v s = monitorReported what v (monitorHeld what (senseValue what v s)) := by
  obtain ⟨q, hq⟩ : ∃ q, q = senseValue what v s := ⟨_, rfl⟩
  rw [← hq] at hout hmain hnone hstill ⊢
  obtain ⟨hoff, haxes, hsolo, -, hquiet⟩ := hstill
  have hheld : startForced (safeStopAxes 15 .safeStop (haltTriggers (monitorOpened what q))) = monitorHeld what q := by
    have hhalt : haltTriggers (monitorOpened what q) = { monitorOpened what q with gauge := { q.gauge with trigHalted := true } } := haltTriggers_idle hoff
    have haxes' : axesOff (haltTriggers (monitorOpened what q)) := by
      rw [hhalt]
      exact haxes
    have hquiet' : benchQuiet (haltTriggers (monitorOpened what q)) := by
      rw [hhalt]
      exact hquiet
    rw [safeStopAxes_disabled _ _ haxes', startForced_quiet hquiet', hhalt]
    rfl
  have hpair : inPair (monitorHeld what q) = false := by
    have hsame : (monitorHeld what q).pair = q.pair := rfl
    rw [inPair, hsame, hsolo]
    rfl
  have hopened : { q with hf := { q.hf with fabric := .resetting, monitorHold := true, monitors := q.hf.monitors ++ [what] } } = monitorOpened what q := by
    rw [hnone]
    rfl
  have hfirst : q.hf.monitors.contains what = false := by rw [hnone]; rfl
  simp only [monitorFault, setHf, ← hq, hout, hmain, hfirst, hopened, hheld, hpair, Bool.not_true, Bool.or_self, Bool.false_eq_true, if_false, hwhat, false_and]
  rfl

/-- What a first monitor fault leaves. -/
structure MonitorHeld (what : Monitor) (v : Int) (q r : State) : Prop where
  logged : LoggedDown (monitorEntry what v) (monitorCounts what q.faults.cnt) (monitorHeld what q) r
  latched : bitOf r.hf.latched (monitorEvent what) = true

theorem MonitorHeld.settled {q r : State} (h : MonitorHeld what v q r) : Settled q r := by
  have hheld : Settled q (monitorHeld what q) := ⟨rfl, rfl, rfl, rfl, rfl⟩
  exact hheld.trans h.logged.settled

theorem monitorReported_held (q : State) : MonitorHeld what v q (monitorReported what v (monitorHeld what q)) := by
  have hdown : (monitorHeld what q).hf.fabric ≠ .running := FabricState.noConfusion
  obtain ⟨hlogged, hlatched⟩ := monitorReported_logged (what := what) (v := v) hdown
  exact ⟨hlogged, hlatched⟩

end

theorem monitorFault_junction (t : Nat) (s : State) (v : Int) (hi : s.Inv) (hhot : 125 < v) (hmain : s.boot.vmainUp = true) (hnone : s.hf.monitors = [])
    (hstill : stillModule s) :
    Next (.monitorFault t .junction v) s fun r =>
      r.hf.fabric = .resetting ∧ r.hf.monitorHold = true ∧ r.hf.monitors = [.junction] ∧ r.gauge = { s.gauge with trigHalted := true } ∧
      r.bench = { s.bench with entering := some s.bench.nextReq, exiting := false, autoEntered := false, forced := true } ∧
      bitOf r.hf.latched 0x3F4 = true ∧ r.faults.cnt = { s.faults.cnt with thermalFaults := wrap32 (s.faults.cnt.thermalFaults + 1) } ∧
      (∃ e, r.faults.log.getLast? = some e ∧ e.cls = 6 ∧ e.unit = 0x13 ∧ e.cause = 3 ∧ e.detail = leI 4 v) ∧ r.sense.tj = v ∧ r.ledger = s.ledger := by
  have hfault := monitorFault_holds (s := tick t s) (what := .junction) (v := v) (by decide) (decide_eq_true hhot) hmain hnone hstill
  have hheld := monitorReported_held (what := .junction) (v := v) (senseValue .junction v (tick t s))
  have hnoted : Settled (tick t s) (senseValue .junction v (tick t s)) := ⟨rfl, rfl, rfl, rfl, rfl⟩
  have hset := hnoted.trans hheld.settled
  have hhf := hheld.logged.frame.hf
  have hout := hheld.logged.frame.out
  refine next_of rfl hi ?_ ?_
  · rw [hfault]
    exact hset
  · rw [hfault]
    exact ⟨congrArg Holdfast.fabric hhf, congrArg Holdfast.monitorHold hhf, congrArg Holdfast.monitors hhf, hout.gauge,
      hout.bench.trans (congrArg benchForced (tick_bench t hi)), hheld.latched, hheld.logged.counts, ⟨_, hheld.logged.last, rfl, rfl, rfl, rfl⟩,
      congrArg Sense.tj hout.sense, hout.ledger⟩

theorem monitorFault_vmain (t : Nat) (s : State) (v : Int) (hi : s.Inv) (hfault : v < 10400 ∨ 13800 < v) (hmain : s.boot.vmainUp = true)
    (hnone : s.hf.monitors = []) (hstill : stillModule s) :
    Next (.monitorFault t .vmain v) s fun r =>
      r.hf.fabric = .resetting ∧ r.hf.monitorHold = true ∧ r.hf.monitors = [.vmain] ∧ bitOf r.hf.latched 0x3F2 = true ∧
      r.faults.cnt = { s.faults.cnt with powerFaults := wrap32 (s.faults.cnt.powerFaults + 1) } ∧ r.ledger = s.ledger := by
  have hfault := monitorFault_holds (s := tick t s) (what := .vmain) (v := v) (by decide) (by simpa [outsideWindow] using hfault) hmain hnone hstill
  have hheld := monitorReported_held (what := .vmain) (v := v) (senseValue .vmain v (tick t s))
  have hnoted : Settled (tick t s) (senseValue .vmain v (tick t s)) := ⟨rfl, rfl, rfl, rfl, rfl⟩
  have hset := hnoted.trans hheld.settled
  have hhf := hheld.logged.frame.hf
  refine next_of rfl hi ?_ ?_
  · rw [hfault]
    exact hset
  · rw [hfault]
    exact ⟨congrArg Holdfast.fabric hhf, congrArg Holdfast.monitorHold hhf, congrArg Holdfast.monitors hhf, hheld.latched, hheld.logged.counts,
      hheld.logged.frame.out.ledger⟩

/-! ### The last monitor fault is released -/

theorem OutFrame.hf {s r : State} (h : OutFrame s r) : r.hf = { s.hf with latched := r.hf.latched, latchedEvents := r.hf.latchedEvents } := congrArg State.hf h

/-- No monitor fault holds the fabric. -/
def monitorsClear (s : State) : State := { s with hf := { s.hf with monitors := [] } }

theorem monitorsClear_twice (s : State) : monitorsClear (monitorsClear s) = monitorsClear s := rfl

theorem OutFrame.monitorsClear {a b : State} (h : OutFrame a b) : OutFrame (Machine.monitorsClear a) (Machine.monitorsClear b) := by
  unfold OutFrame at *
  rw [h]
  rfl

theorem monitorRelease_resets {s : State} {v : Int} (hcool : v < 100) (hmain : s.boot.vmainUp = true) (hone : s.hf.monitors = [.junction]) :
    monitorRelease .junction v s = startReset false .auto 3 (monitorsClear (raise (monitorEvent .junction) v 0 (monitorsClear
      (senseValue .junction v s)))) := by
  have hinside : insideRelease .junction v = true := decide_eq_true hcool
  have hmain' : (senseValue .junction v s).boot.vmainUp = true := hmain
  have hone' : (senseValue .junction v s).hf.monitors = [.junction] := hone
  have hclear : setHf (fun h => { h with monitors := h.monitors.erase .junction }) (senseValue .junction v s) = monitorsClear (senseValue .junction v s) := by
    rw [setHf, hone']
    rfl
  have hnone : (raise (monitorEvent .junction) v 0 (monitorsClear (senseValue .junction v s))).hf.monitors = [] :=
    congrArg Holdfast.monitors (raise_frame _ _ _ _).hf
  have hlone : [Monitor.junction].contains .junction = true := rfl
  simp only [monitorRelease, hinside, hmain', hone', hclear, hnone, hlone, Bool.not_true, Bool.or_self, Bool.false_eq_true, if_false, List.all_nil, if_true]
  rfl

theorem monitorFaultRelease_resets (t : Nat) (s : State) (v : Int) (hi : s.Inv) (hcool : v < 100) (hmain : s.boot.vmainUp = true)
    (hone : s.hf.monitors = [.junction]) (hbusy : s.hf.busy = none) (hstill : stillModule s) :
    Next (.monitorFaultRelease t .junction v) s fun r => ResetBegun false .auto 3 s r ∧ r.hf.monitors = [] ∧ r.hf.monitorHold = false ∧ r.sense.tj = v := by
  have hrelease := monitorRelease_resets (s := tick t s) hcool hmain hone
  obtain ⟨y, hy⟩ : ∃ y, y = monitorsClear (raise (monitorEvent .junction) v 0 (monitorsClear (senseValue .junction v (tick t s)))) := ⟨_, rfl⟩
  have hframe : OutFrame (monitorsClear (senseValue .junction v (tick t s))) y := by
    have hraise := (raise_frame (monitorEvent .junction) v 0 (monitorsClear (senseValue .junction v (tick t s)))).monitorsClear
    rw [hy]
    rwa [monitorsClear_twice] at hraise
  have hnow : y.now = (tick t s).now := by
    rw [hy]
    exact raise_now (monitorEvent .junction) v 0 (monitorsClear (senseValue .junction v (tick t s)))
  rw [← hy] at hrelease
  have hsame : y.gauge = s.gauge ∧ y.axes = s.axes ∧ y.pair = s.pair ∧ y.glue = s.glue := ⟨hframe.gauge, hframe.axes, hframe.pair, hframe.glue⟩
  obtain ⟨hgauge, haxes, hpair, hglue⟩ := hsame
  have hbench : y.bench = (tick t s).bench := hframe.bench
  have hbench' : y.bench = s.bench := hbench.trans (tick_bench t hi)
  have hstill' : stillModule y := by rwa [stillModule, axesOff, hgauge, haxes, hpair, hglue, hbench']
  have hbusy' : y.hf.busy = none := (congrArg Holdfast.busy hframe.hf).trans hbusy
  obtain ⟨r, hlogged, hreset⟩ := startReset_quiet false 3 hstill' hbusy'
  have hhf := hlogged.frame.hf
  have hout := hlogged.frame.out
  have hboot : y.boot = s.boot := hframe.boot
  have hfaults : y.faults = s.faults := hframe.faults
  have hrnow : r.now = (tick t s).now := hlogged.frame.now.trans hnow
  have hset : Settled (tick t s) (withBench (benchForced y.bench) r) := by
    refine ⟨hrnow, hout.pending.trans hframe.pending, ?_, ?_, ?_⟩ <;> rw [← hbench] <;> rfl
  refine next_of rfl hi ?_ ?_
  · rw [hrelease, hreset]
    exact hset
  · rw [hrelease, hreset]
    have hcounts : resetCounts y = { s.faults.cnt with warmResets := wrap32 (s.faults.cnt.warmResets + 1) } := by rw [resetCounts, hfaults]
    have hclear : y.hf.monitors = [] := congrArg Holdfast.monitors hframe.hf
    refine ⟨⟨congrArg Holdfast.fabric hhf, congrArg Holdfast.busy hhf, ?_, ?_, hout.axes.trans haxes, congrArg benchForced hbench',
      hlogged.counts.trans hcounts,
      ⟨_, hlogged.last, rfl, rfl, rfl, rfl⟩, hout.ledger.trans hframe.ledger, hout.running.trans hframe.running, hout.staged.trans hframe.staged,
      hout.cmds.trans hframe.cmds⟩, (congrArg Holdfast.monitors hhf).trans hclear, (congrArg Holdfast.monitorHold hhf).trans ?_,
      (congrArg Sense.tj hout.sense).trans (congrArg Sense.tj hframe.sense)⟩
    · have hrboot : (withBench (benchForced y.bench) r).boot = (resetStarted false 3 y).boot := hout.boot
      have hrefTime : (withBench (benchForced y.bench) r).now = y.now := hlogged.frame.now
      rw [hrboot, hrefTime, ← hboot]
      rfl
    · have hrgauge : (withBench (benchForced y.bench) r).gauge = { y.gauge with trigHalted := true } := hout.gauge
      rw [hrgauge, hgauge]
    · show (!y.hf.monitors.isEmpty) = false
      rw [hclear]
      rfl

/-! ### The junction, and SMBus -/

section
variable {s : State}

theorem junctionWarning_warns {temp : Int} (hhot : 110 < temp) (hcold : s.sense.junctionHot = false) :
    junctionWarning temp s = raise 0x006 temp 1 { s with sense := { s.sense with tj := temp, junctionHot := true } } := by
  simp only [junctionWarning, hcold, Bool.not_false, hhot, and_self, if_true]

theorem junctionWarning_ends {temp : Int} (hcool : temp < 105) (hhot : s.sense.junctionHot = true) :
    junctionWarning temp s = raise 0x006 temp 0 { s with sense := { s.sense with tj := temp, junctionHot := false } } := by
  simp only [junctionWarning, hhot, Bool.not_true, Bool.false_eq_true, false_and, if_false, hcool, and_self, if_true]

theorem junctionWarning_between {temp : Int} (h1 : 105 ≤ temp) (h2 : temp ≤ 110) :
    junctionWarning temp s = { s with sense := { s.sense with tj := temp } } := by
  simp only [junctionWarning, Int.not_lt.2 h1, Int.not_lt.2 h2, and_false, if_false]

theorem smbus_taken (f : State → State) (hvaux : s.boot.vauxUp = true) : smbus true f s = f s := by
  simp only [smbus, hvaux, Bool.not_true, Bool.false_eq_true, if_false, if_true]

theorem smbus_bad (f : State → State) (hvaux : s.boot.vauxUp = true) : smbus false f s = smbusDiscard s := by
  simp only [smbus, hvaux, Bool.not_true, Bool.false_eq_true, if_false]

theorem smbus_off (pecOk : Bool) (f : State → State) (hvaux : s.boot.vauxUp = false) : smbus pecOk f s = s := by
  simp only [smbus, hvaux, Bool.not_false, if_true]

theorem smbusWrite_aligned {off : Nat} (v : Nat) (h : off % 4 = 0 ∧ off < 65536) :
    smbusWrite off v s = bar2Write32 .smbus off (lo32 v) { s with hf := { s.hf with highSmb := none } } := by
  obtain ⟨hword, hsize⟩ := h
  simp only [smbusWrite, hword, ne_eq, not_true_eq_false, Nat.not_le.2 hsize, or_self, if_false]
  rfl

theorem smbusOffset_aligned {off : Nat} (hword : off % 4 = 0) (hsize : off < 65536) : smbusOffset off s = { s with hf := { s.hf with smbOffset := off } } := by
  simp only [smbusOffset, hword, ne_eq, not_true_eq_false, Nat.not_le.2 hsize, or_self, if_false]
  rfl

theorem smbusOffset_bad {off : Nat} (hword : off % 4 ≠ 0) : smbusOffset off s = smbusDiscard s := by
  simp only [smbusOffset, hword, ne_eq, not_false_eq_true, true_or, if_true]

/-- A transaction that is discarded is counted, with its event. -/
theorem happens_discards {i : Nat → Instr} {f : State → State} {cond : State → Prop} (hx : ∀ t s, exec (i t) s = runAt t s f)
    (hf : ∀ q, cond q → up q ∧ firstIn 0x3FA (currentStrip q) q ∧ f q = smbusDiscard q) :
    Happens i cond (fun s => { s with faults := { s.faults with cnt := { s.faults.cnt with smbusErrors := wrap32 (s.faults.cnt.smbusErrors + 1) } } })
      [0x3FA] noPuts := by
  refine happens_of hx fun q _ _ hc => ?_
  obtain ⟨hup, hfirst, hdiscard⟩ := hf q hc
  rw [hdiscard, smbusDiscard]
  exact ⟨raiseOnce_frame _ _ _ _, rfl, rfl, List.forall_mem_singleton.2 (raiseOnce_sets hup hfirst), List.nil_subset _⟩

/-- A read at an offset whose high half is not held, of a register that is no low half and that reading does not clear. -/
theorem smbusRead_word {o : Nat} (hoff : s.hf.smbOffset = o) (hnone : s.hf.highSmb = none) (hlow : o ≠ 0x0200 ∧ o ≠ 0x0208) (hkept : o ≠ 0x0014) :
    smbusRead s = { out (.smbusData (le 4 (bar2Word s o))) s with hf := { s.hf with smbOffset := (o + 4) % 65536 } } := by
  have hword : lowHalves2.contains o = false := by simp [lowHalves2, hlow]
  simp only [smbusRead, hoff, hnone, hword, Bool.false_eq_true, if_false, hkept, setHf]
  rw [← hnone]
  rfl

theorem smbusRead_low (hoff : s.hf.smbOffset = 0x0200) (hnone : s.hf.highSmb = none) :
    smbusRead s = { out (.smbusData (le 4 (lo32 (toUnsigned 64 s.gauge.webPos)))) s with hf := { s.hf with
      smbOffset := 0x0204, highSmb := some (0x0204, hi32 (toUnsigned 64 s.gauge.webPos)) } } := by
  have hword : lowHalves2.contains 0x0200 = true := by decide
  simp only [smbusRead, hoff, hnone, hword, if_true, setHf]
  rfl

theorem smbusRead_high {v : Nat} (hoff : s.hf.smbOffset = 0x0204) (hheld : s.hf.highSmb = some (0x0204, v)) :
    smbusRead s = { out (.smbusData (le 4 v)) s with hf := { s.hf with smbOffset := 0x0208, highSmb := none } } := by
  have hword : lowHalves2.contains 0x0204 = false := by decide
  simp only [smbusRead, hoff, hheld, hword, Bool.false_eq_true, if_false, if_true, setHf]
  rfl

end

/-- An event that notes a quantity of the module's sensors and raises a source. -/
theorem happens_senses {i : Nat → Instr} {f : State → State} {cond : State → Prop} (src : Nat) (a b : Int) (g : Sense → Sense)
    (hx : ∀ t s, exec (i t) s = runAt t s f) (h : ∀ q, cond q → up q ∧ f q = raise src a b { q with sense := g q.sense }) :
    Happens i cond (fun s => { s with sense := g s.sense }) [src] noPuts := by
  refine happens_of hx fun q _ _ hc => ?_
  obtain ⟨hup, hf⟩ := h q hc
  rw [hf]
  exact ⟨raise_frame _ _ _ _, rfl, rfl, List.forall_mem_singleton.2 (raise_sets _ _ _ hup), List.nil_subset _⟩

/-- Settles O50, clause by clause: while the fabric does not run events are latched, so that a wedge, a monitor fault and a reset are known as a
whole; an SMBus transaction is the register access that it makes. -/
theorem wedgeMonitorsAndSmbus : Obligations.WedgeMonitorsAndSmbus := by
  unfold Obligations.WedgeMonitorsAndSmbus
  refine ⟨fun cause => ?_, fabricWedge_reports, fun t s src a0 a1 st hi hwedged hseen hspans hevents _ hposts =>
    fabricResume_again t s src a0 a1 st hi hwedged hseen hspans hevents hposts, ?_, fun v h1 h2 => ?_, fun v h => ?_, fun v => ?_,
    fun t s v hi hhot hmain hnone _ hstill => monitorFault_junction t s v hi hhot hmain hnone hstill,
    fun t s v hi hfault hmain hnone _ hstill => monitorFault_vmain t s v hi hfault hmain hnone hstill, fun v h => ?_, fun v h => ?_,
    monitorFaultRelease_resets, fun temp hhot => ?_, fun temp hcool => ?_, fun temp h1 h2 => ?_, fun v hv => ?_, ?_, fun off hword hsize => ?_,
    fun off v => ?_, fun off hword => ?_, fun o h1 h2 h3 => ?_, ?_, fun v => ?_, ?_, ?_, ?_, ?_⟩
  · exact exactly_of (fun _ _ => rfl) fun q _ hdown => ⟨wedge_stopped cause hdown, Settled.refl q⟩
  · exact exactly_of (fun _ _ => rfl) fun q _ hother => ⟨if_neg hother, Settled.refl q⟩
  · exact exactly_of (fun _ _ => rfl) fun q _ _ => ⟨monitorFault_inside (by simp [outsideWindow, h1, h2]), ⟨rfl, rfl, rfl, rfl, rfl⟩⟩
  · exact exactly_of (fun _ _ => rfl) fun q _ _ => ⟨monitorFault_inside (by simp [outsideWindow, h]), ⟨rfl, rfl, rfl, rfl, rfl⟩⟩
  · exact exactly_of (fun _ _ => rfl) fun q _ hset => ⟨monitorFault_inside (decide_eq_false (Nat.not_lt.2 hset)), Settled.refl q⟩
  · exact exactly_of (fun _ _ => rfl) fun q _ _ => ⟨monitorRelease_outside (by simp [insideRelease, h]), ⟨rfl, rfl, rfl, rfl, rfl⟩⟩
  · refine exactly_of (fun _ _ => rfl) fun q _ _ => ⟨monitorRelease_outside ?_, ⟨rfl, rfl, rfl, rfl, rfl⟩⟩
    rcases h with h | h <;> simp [insideRelease, h]
  · exact happens_senses 0x006 temp 1 (fun x => { x with tj := temp, junctionHot := true }) (fun _ _ => rfl) fun q ⟨hup, hcold⟩ =>
      ⟨hup, junctionWarning_warns hhot hcold⟩
  · exact happens_senses 0x006 temp 0 (fun x => { x with tj := temp, junctionHot := false }) (fun _ _ => rfl) fun q ⟨hup, hhot⟩ =>
      ⟨hup, junctionWarning_ends hcool hhot⟩
  · exact exactly_of (fun _ _ => rfl) fun q _ _ => ⟨junctionWarning_between h1 h2, ⟨rfl, rfl, rfl, rfl, rfl⟩⟩
  · refine exactly_of (fun _ _ => rfl) fun q _ hvaux => ⟨?_, ⟨rfl, rfl, rfl, rfl, rfl⟩⟩
    rw [smbus_taken _ hvaux, smbusWrite_aligned v (by decide), lo32, Nat.mod_eq_of_lt hv]
    rfl
  · refine exactly_of (fun _ _ => rfl) fun q _ hvaux => ⟨?_, ⟨rfl, rfl, rfl, rfl, rfl⟩⟩
    rw [smbus_taken _ hvaux, smbusWrite_aligned _ (by decide)]
    rfl
  · refine exactly_of (fun _ _ => rfl) fun q _ hvaux => ⟨?_, ⟨rfl, rfl, rfl, rfl, rfl⟩⟩
    rw [smbus_taken _ hvaux, smbusOffset_aligned hword hsize]
  · exact happens_discards (fun _ _ => rfl) fun q ⟨hvaux, hup, hfirst⟩ => ⟨hup, hfirst, smbus_bad _ hvaux⟩
  · exact happens_discards (fun _ _ => rfl) fun q ⟨hvaux, hup, hfirst⟩ => ⟨hup, hfirst, (smbus_taken _ hvaux).trans (smbusOffset_bad hword)⟩
  · exact exactly_of (fun _ _ => rfl) fun q _ ⟨hvaux, hoff, hnone⟩ =>
      ⟨(smbus_taken _ hvaux).trans (smbusRead_word hoff hnone ⟨h1, h2⟩ h3), ⟨rfl, rfl, rfl, rfl, rfl⟩⟩
  · exact exactly_of (fun _ _ => rfl) fun q _ ⟨hvaux, hoff, hnone⟩ => ⟨(smbus_taken _ hvaux).trans (smbusRead_low hoff hnone), ⟨rfl, rfl, rfl, rfl, rfl⟩⟩
  · exact exactly_of (fun _ _ => rfl) fun q _ ⟨hvaux, hoff, hheld⟩ => ⟨(smbus_taken _ hvaux).trans (smbusRead_high hoff hheld), ⟨rfl, rfl, rfl, rfl, rfl⟩⟩
  · exact exactly_of (fun _ _ => rfl) fun q _ hvaux => ⟨smbus_off _ _ hvaux, Settled.refl q⟩
  · exact exactly_of (fun _ _ => rfl) fun q _ halert => ⟨if_pos halert, ⟨rfl, rfl, rfl, rfl, rfl⟩⟩
  · refine exactly_of (fun _ _ => rfl) fun q _ hnone => ⟨if_neg fun h => ?_, Settled.refl q⟩
    rcases hnone with hnone | hnone
    · exact Bool.false_ne_true (hnone.symm.trans h.1)
    · exact Bool.false_ne_true (hnone.symm.trans h.2)
  · exact exactly_of (f := id) (fun _ _ => rfl) fun q _ _ => ⟨rfl, Settled.refl q⟩

end Sys2Proof.Machine

/-! ## What the end of the fabric's work keeps: start-up, and the Holdfast but for what it latches (R724, R758) -/

namespace Sys2Proof.Machine

/-- What stands outside the fabric is kept: the state of start-up, and the Holdfast but for latched events. -/
structure Outlives (s r : State) : Prop where
  boot : r.boot = s.boot
  hf : r.hf = { s.hf with latched := r.hf.latched, latchedEvents := r.hf.latchedEvents }

section
variable {s r q : State}

theorem Outlives.refl (s : State) : Outlives s s := ⟨rfl, rfl⟩

theorem Outlives.trans (h : Outlives s r) (h' : Outlives r q) : Outlives s q := by
  refine ⟨h'.boot.trans h.boot, ?_⟩
  have hfirst := h.hf
  have hnext := h'.hf
  rw [hfirst] at hnext
  exact hnext

theorem Outlives.foldl {α : Type} {f : State → α → State} (hf : ∀ s x, Outlives s (f s x)) (l : List α) (s : State) : Outlives s (l.foldl f s) :=
  List.foldlRecOn (motive := Outlives s) l f (.refl s) fun r hr x _ => hr.trans (hf r x)

theorem ReplyFrame.outlives (h : ReplyFrame s r) : Outlives s r := by
  unfold ReplyFrame at h
  exact ⟨(congrArg State.boot h :), (congrArg State.hf h :)⟩

theorem OutFrame.outlives (h : OutFrame s r) : Outlives s r := h.reply.outlives

theorem raise_outlives (src : Nat) (a b : Int) (s : State) : Outlives s (raise src a b s) := (raise_frame src a b s).outlives

theorem setView_outlives (i : Nat) (f : ViewStream → ViewStream) (s : State) : Outlives s (setView i f s) := ⟨rfl, rfl⟩

theorem setQueue_outlives (i : Nat) (f : Queue → Queue) (s : State) : Outlives s (setQueue i f s) := ⟨rfl, rfl⟩

theorem setRing_outlives (i : Nat) (f : RingPair → RingPair) (s : State) : Outlives s (setRing i f s) := ⟨rfl, rfl⟩

theorem setCe_outlives (i : Nat) (f : CeUnit → CeUnit) (s : State) : Outlives s (setCe i f s) := ⟨rfl, rfl⟩

theorem setChan_outlives (i : Nat) (f : DmaChan → DmaChan) (s : State) : Outlives s (setChan i f s) := ⟨rfl, rfl⟩

theorem dropRt_outlives (kind index opcode unit : Nat) (s : State) : Outlives s (dropRt kind index opcode unit s) := ⟨rfl, rfl⟩

theorem out_outlives (e : Emit) (s : State) : Outlives s (out e s) := ⟨rfl, rfl⟩

theorem benchWrite_outlives (off : Nat) (data : Bytes) (s : State) : Outlives s (benchWrite off data s) := ⟨rfl, rfl⟩

theorem scribe_outlives (x : Scribe) (s : State) : Outlives s { s with scribe := x } := ⟨rfl, rfl⟩

theorem comp_outlives (x : Compress) (s : State) : Outlives s { s with comp := x } := ⟨rfl, rfl⟩

theorem ring_outlives (x : RingUnit) (s : State) : Outlives s { s with ring := x } := ⟨rfl, rfl⟩

/-! ### Tickets, frames and commands -/

theorem endTicket_outlives (w code : Nat) (s : State) : Outlives s (endTicket w code s) := by
  have hframe := (endTicket_frame w code s).outlives
  exact ⟨hframe.boot, hframe.hf⟩

theorem failFrame_outlives (v w code : Nat) (s : State) : Outlives s (failFrame v w code s) :=
  ((endTicket_outlives w code s).trans (setView_outlives v _ _)).trans (raise_outlives _ _ _ _)

theorem dropFrames_outlives (v code : Nat) (s : State) : Outlives s (dropFrames v code s).2 := by
  unfold dropFrames
  exact (setView_outlives v _ s).trans (Outlives.foldl (fun s w => failFrame_outlives v w code s) _ _)

theorem complete_outlives (w status : Nat) (body : Bytes) (s : State) : Outlives s (complete w status body s) := by
  have hframe := (complete_frame w status body s).outlives
  exact ⟨hframe.boot, hframe.hf⟩

theorem postReply_outlives (n w : Nat) (irq : Bool) (bytes : Bytes) (s : State) : Outlives s (postReply n w irq bytes s) :=
  (setRing_outlives n _ s).trans (flushRing_frame n _).outlives

theorem abortCommands_outlives (s : State) : Outlives s (abortCommands s) := by
  have hpost (ring w : Nat) (irq : Bool) (bytes : Bytes) (s : State) : Outlives s (postReply ring w irq bytes (decideTicket w 15 s)) :=
    (decideTicket_frame w 15 s).outlives.trans (postReply_outlives _ _ _ _ _)
  have hcomplete (s : State) (r : CmdRec) : Outlives s (complete r.ticket stAborted (zeros 8) (decideTicket r.ticket 15 s)) :=
    (decideTicket_frame r.ticket 15 s).outlives.trans (complete_outlives _ _ _ _)
  unfold abortCommands
  simp only
  refine Outlives.trans ?_ (Outlives.foldl hcomplete _ _)
  refine Outlives.trans ?_ (Outlives.foldl (fun s _ => hpost _ _ _ _ s) _ _)
  refine Outlives.trans ?_ (Outlives.foldl (fun s _ => hpost _ _ _ _ s) _ _)
  exact (ring_outlives _ s).trans (Outlives.foldl (fun s _ => hpost _ _ _ _ s) _ _)

/-! ### Patches, strips and records -/

theorem clearDirEntry_outlives (q seq : Nat) (s : State) : Outlives s (clearDirEntry q seq s) := by
  unfold clearDirEntry
  simp only
  split
  · exact .refl s
  · exact benchWrite_outlives _ _ s

theorem failPatchJob_outlives (j : PatchJob) (code : Nat) (s : State) : Outlives s (failPatchJob j code s) :=
  (((scribe_outlives _ s).trans (endTicket_outlives j.ticket code _)).trans (setQueue_outlives j.queue _ _)).trans (clearDirEntry_outlives _ _ _)

theorem freeStored_outlives (q : Nat) (p : StoredPatch) (code : Nat) (s : State) : Outlives s (freeStored q p code s) :=
  ((setQueue_outlives q _ s).trans (endTicket_outlives p.ticket code _)).trans (clearDirEntry_outlives _ _ _)

theorem dropPatch_outlives (q : Nat) (r : LiveRec) (code : Nat) (s : State) : Outlives s (dropPatch q r code s) := by
  unfold dropPatch
  split
  · exact freeStored_outlives _ _ _ _
  · split
    · exact .refl s
    · simp only
      exact (((Outlives.foldl (fun s e => setCe_outlives e _ s) _ s).trans (setQueue_outlives q _ _)).trans (scribe_outlives _ _)).trans
        ((endTicket_outlives _ _ _).trans (clearDirEntry_outlives _ _ _))

theorem endRecords_outlives (s : State) : Outlives s (endRecords s) := by
  have hrecord (q : Nat) (s : State) (r : LiveRec) : Outlives s (endRecord q r 15 s) := (endTicket_outlives _ _ _).trans (dropPatch_outlives _ _ _ _)
  unfold endRecords
  exact Outlives.foldl (fun s q => (Outlives.foldl (hrecord q) _ s).trans (setQueue_outlives q _ _)) _ s

theorem freeStrip_outlives (j : Nat) (s : State) : Outlives s (freeStrip j s) := by
  unfold freeStrip
  simp only
  split
  · exact .refl s
  · exact ((comp_outlives _ s).trans (benchWrite_outlives _ _ _)).trans (comp_outlives _ _)

theorem freeForEntry_outlives (j strip : Nat) : ∀ (n : Nat) (s : State), Outlives s (freeForEntry j strip n s)
  | 0, s => .refl s
  | n + 1, s => by
    unfold freeForEntry
    simp only
    split
    · exact (freeStrip_outlives j s).trans (freeForEntry_outlives j strip n _)
    · exact .refl s

theorem finishStrip_outlives (j : Nat) (done failed : Bool) (s : State) : Outlives s (finishStrip j done failed s) := by
  unfold finishStrip
  simp only
  split
  · exact .refl s
  · exact (((freeForEntry_outlives j _ _ s).trans (benchWrite_outlives _ _ _)).trans (comp_outlives _ _)).trans (comp_outlives _ _)

/-! ### DMA channels -/

theorem ChannelFrame.outlives (h : ChannelFrame s r) : Outlives s r := by
  have hframe := OutFrame.outlives h
  exact ⟨hframe.boot, hframe.hf⟩

theorem endCarried_outlives (run : DmaRun) (status : DStatus) (code : Nat) (s : State) : Outlives s (endCarried run status code s) := by
  unfold endCarried
  split
  · exact .refl s
  · simp only
    split
    · exact ((setView_outlives _ _ s).trans (endTicket_outlives _ _ _)).trans (setView_outlives _ _ _)
    · exact (setView_outlives _ _ s).trans (failFrame_outlives _ _ _ _)

theorem endDesc_outlives (c : Nat) (status : DStatus) (code : Nat) (run : DmaRun) (s : State) : Outlives s (endDesc c status code run s) := by
  have hclosed (f : DmaChan → DmaChan) : Outlives s (setChan c f (run.slots.foldl (fun s k => dropRt 0x0F k 0 c s) s)) :=
    (Outlives.foldl (fun s k => dropRt_outlives 0x0F k 0 c s) run.slots s).trans (setChan_outlives c f _)
  unfold endDesc
  simp only
  refine Outlives.trans ?_ ((endTicket_outlives run.ticket code _).trans (endCarried_outlives run status code _))
  split
  · exact (hclosed _).trans (out_outlives _ _)
  · exact hclosed _

theorem abortChan_outlives (c code frameCode : Nat) (s : State) : Outlives s (abortChan c code frameCode s) := by
  have hsettle := (settleLock_channels c s).outlives
  have hend (run : DmaRun) : Outlives s (endCarried run .aborted frameCode (endDesc c .aborted code { run with frame := none } (settleLock c s))) :=
    (hsettle.trans (endDesc_outlives c .aborted code _ _)).trans (endCarried_outlives run .aborted frameCode _)
  unfold abortChan
  simp only
  split
  · exact hsettle
  · refine Outlives.trans ?_ (setChan_outlives c _ _)
    split
    · split
      · exact (hend _).trans (raise_outlives _ _ _ _)
      · exact hend _
    · exact hsettle

/-! ### The end of the fabric's work -/

/-- The work of an engine ends with its tickets. -/
theorem endEngine_outlives (ws : List Nat) (e : Nat) (s : State) : Outlives s (endTickets ws 15 (setCe e (fun u => { u with job := none }) s)) :=
  (setCe_outlives e _ s).trans (Outlives.foldl (fun s w => endTicket_outlives w 15 s) ws _)

theorem endForReset_outlives (recovery : Bool) (s : State) : Outlives s (endForReset recovery s) := by
  have hcounts : Outlives s (abortCommands (freshCounts s)) := Outlives.trans (r := freshCounts s) ⟨rfl, rfl⟩ (abortCommands_outlives _)
  suffices hrecords : ∀ r, Outlives s r → Outlives s (if recovery then endRecords r else r) by
    unfold endForReset
    refine hrecords _ ?_
    refine Outlives.trans ?_ (Outlives.foldl (fun s v => dropFrames_outlives v 15 s) (List.range 8) _)
    refine Outlives.trans ?_ (Outlives.foldl (fun s c => abortChan_outlives c 15 15 s) (List.range 64) _)
    refine Outlives.trans (hcounts.trans (Outlives.foldl (fun s j => failPatchJob_outlives j 15 s) _ _)) (Outlives.foldl (fun s e => ?_) (List.range 16) _)
    split
    · exact .refl s
    · simp only
      split
      · exact (endEngine_outlives _ e s).trans (finishStrip_outlives _ _ _ _)
      · exact endEngine_outlives _ e s
  intro r hr
  split
  · exact hr.trans (endRecords_outlives r)
  · exact hr

end

end Sys2Proof.Machine

/-! ## Supplies, images, calibration, training, the ring step of start-up, and the cages (R734, R742 to R758, R780) -/

namespace Sys2Proof.Machine

/-! ### The Bench's contents are gone -/

theorem emptyRanges_wiped {m : List Host.Cell} (h : Memory.wf m = true) (rs : List (Nat × Nat)) : emptyRanges m (rs ++ [(0, benchSize)]) = [] := by
  have hall := (Bool.and_eq_true_iff.1 (emptyRanges_wf h rs)).2
  have hlast : emptyRanges m (rs ++ [(0, benchSize)]) = (emptyRanges m rs).filter fun c => !(decide (0 ≤ c.1) && decide (c.1 < 0 + benchSize)) := by
    simp only [emptyRanges, List.foldl_append, List.foldl_cons, List.foldl_nil]
  rw [hlast, List.filter_eq_nil_iff]
  intro c hc
  have hin : c.1 < benchSize := of_decide_eq_true (Bool.and_eq_true_iff.1 (List.all_eq_true.1 hall c hc)).1
  simp only [Nat.zero_le, decide_true, Nat.zero_add, hin, Bool.and_self, Bool.not_true, Bool.false_eq_true, not_false_eq_true]

/-- Writes beyond the Bench leave an empty memory empty. -/
theorem applyWrites_beyond : ∀ {ws : List (Nat × Bytes)}, (∀ w ∈ ws, benchSize ≤ w.1) → applyWrites [] ws = []
  | [], _ => rfl
  | w :: ws, h => by
    have hnone : memWrite [] w.1 w.2 = [] := by
      rw [memWrite, Nat.sub_eq_zero_of_le (h w (by simp)), List.take_zero]
      rfl
    rw [applyWrites, List.foldl_cons, hnone]
    exact applyWrites_beyond fun x hx => h x (by simp [hx])

/-- A wiped Bench holds nothing, whatever was written before. -/
theorem commit_wiped {q y : State} (h : Memory.wf q.bench.mem = true) (hwiped : (y.bench.emptied, y.bench.writes) =
    ((wipeBench r).bench.emptied, (wipeBench r).bench.writes)) : (commit q y).bench.mem = [] := by
  obtain ⟨hemptied, hwrites⟩ := Prod.mk.inj hwiped
  have hbeyond : ∀ w ∈ y.bench.writes, benchSize ≤ w.1 := by
    intro w hw
    rw [hwrites] at hw
    have hkept : (!(decide (0 ≤ w.1) && decide (w.1 < 0 + benchSize))) = true := (List.mem_filter.1 hw).2
    simpa only [Nat.zero_le, decide_true, Nat.zero_add, Bool.true_and, Bool.not_eq_true', decide_eq_false_iff_not, Nat.not_lt] using hkept
  have hnow : (commit q y).bench.mem = applyWrites (emptyRanges q.bench.mem y.bench.emptied) y.bench.writes := rfl
  have hempty : emptyRanges q.bench.mem y.bench.emptied = [] := by
    rw [hemptied]
    exact emptyRanges_wiped h _
  rw [hnow, hempty, applyWrites_beyond hbeyond]

/-! ### The loss of the supplies (R742, R758) -/

theorem vauxLoss_keeps (t : Nat) (s : State) (hi : s.Inv) :
    Next (.vauxLoss t) s fun r =>
      r.boot.vauxUp = false ∧ r.boot.vauxLost = true ∧ r.hf = State.reset.hf ∧ r.bench.mem = [] ∧ r.faults.log = [] ∧ r.faults.flash = s.faults.flash ∧
      r.faults.cnt = {} ∧ r.ledger = {} ∧ r.running = {} ∧ r.staged = {} ∧ r.cmds = [] ∧ r.spans = [] ∧ r.time = State.reset.time ∧
      r.boot.slotA = s.boot.slotA ∧ r.boot.slotB = s.boot.slotB ∧ r.boot.preferred = s.boot.preferred ∧ r.boot.minSecurity = s.boot.minSecurity ∧
      r.boot.revoked = s.boot.revoked ∧ (vget r.axes.ax 0).inputs = (vget s.axes.ax 0).inputs ∧ (vget r.axes.ax 0).homed = false := by
  have hmem : (commit (tick t s) (vauxLoss (tick t s))).bench.mem = [] := commit_wiped (r := State.reset) hi.mem rfl
  have hax : vget (commit (tick t s) (vauxLoss (tick t s))).axes.ax 0 =
      { inputs := (vget s.axes.ax 0).inputs, vioLow := (vget s.axes.ax 0).vioLow, temp := (vget s.axes.ax 0).temp } := vget_map _ _ (by decide)
  refine ⟨_, rfl, rfl, rfl, rfl, hmem, rfl, rfl, rfl, rfl, rfl, rfl, rfl, rfl, rfl, rfl, rfl, rfl, rfl, rfl, ?_, ?_⟩
  · rw [hax]
  · rw [hax]

/-- The module as the loss of VMAIN finds it. -/
def mainOff (s : State) : State :=
  { s with
    hf := { s.hf with
      fabric := .booting
      busy := none
      opResult := if s.hf.busy.isSome then 0 else s.hf.opResult
      monitorHold := false
      monitors := s.hf.monitors.filter fun m => decide (m = .vmain)
      alert := true }
    boot := { s.boot with vmainUp := false, vmainLost := s.boot.vauxUp, stage := 0, verifying := false, ready := false, holdUntil := none, fw := none } }

/-- The same with triggering halted. -/
def mainLost (s : State) : State := { mainOff s with gauge := { s.gauge with trigHalted := true } }

/-- What is left of a module without VMAIN. -/
def withoutMain (p : PairUnit) (s : State) : State :=
  { wipeBench (freshFabric s) with
    bench := { (wipeBench (freshFabric s)).bench with ctl := .replicate 2 {} }
    faults := { (wipeBench (freshFabric s)).faults with fences := [] }
    pace := {}
    host := { (wipeBench (freshFabric s)).host with pcie := { perst := (wipeBench (freshFabric s)).host.pcie.perst } }
    ring := { (wipeBench (freshFabric s)).ring with gateway := false }
    pair := { role := p.role, cause := p.cause, signalling := p.signalling } }

theorem vmainLoss_loses {s : State} (hmain : s.boot.vmainUp = true) (hvaux : s.boot.vauxUp = true) (hoff : s.gauge.trigEnabled = false) (haxes : axesOff s)
    (hsolo : s.pair.role = .solo) : vmainLoss s = withoutMain s.pair (deferOut (endForReset true) (mainLost s)) := by
  have hhalt : haltTriggers (mainOff s) = mainLost s := haltTriggers_idle hoff
  have hstops : safeStopAxes 15 .safeStop (mainLost s) = mainLost s := safeStopAxes_disabled _ _ haxes
  have hpair : inPair (mainLost s) = false := by
    have hsame : (mainLost s).pair = s.pair := rfl
    rw [inPair, hsame, hsolo]
    rfl
  have hopen : vmainLoss s =
      (let q := safeStopAxes 15 .safeStop (haltTriggers (mainOff s))
       let q := if inPair q then giveSignal q else q
       withoutMain q.pair (deferOut (endForReset true) q)) := by
    simp only [vmainLoss, hmain, setHf, setBoot, hvaux, mainOff, Bool.not_true, Bool.false_eq_true, if_false]
    rfl
  rw [hopen]
  simp only [hhalt, hstops, hpair, Bool.false_eq_true, if_false]
  rfl

theorem deferOut_outlives {f : State → State} (hf : ∀ s, Outlives s (f s)) (s : State) : Outlives s (deferOut f s) := by
  have hwork := hf s
  unfold deferOut
  simp only
  split
  · exact hwork
  · exact ⟨hwork.boot, hwork.hf⟩

theorem vmainLoss_keeps (t : Nat) (s : State) (hi : s.Inv) (hmain : s.boot.vmainUp = true) (hvaux : s.boot.vauxUp = true)
    (hoff : s.gauge.trigEnabled = false) (haxes : axesOff s) (hsolo : s.pair.role = .solo) :
    Next (.vmainLoss t) s fun r =>
      r.hf.fabric = .booting ∧ r.hf.busy = none ∧ r.hf.alert = true ∧ r.boot.vmainUp = false ∧ r.boot.vmainLost = true ∧ r.boot.stage = 0 ∧
      r.boot.ready = false ∧ r.running = {} ∧ r.staged = {} ∧ r.glue = none ∧ r.bench.mem = [] ∧ r.pace = {} ∧ r.cmds = [] ∧
      r.boot.slotA = s.boot.slotA ∧ r.boot.slotB = s.boot.slotB ∧ r.ring.gateway = false := by
  have hloss := vmainLoss_loses (s := tick t s) hmain hvaux hoff haxes hsolo
  have hends := deferOut_outlives (endForReset_outlives true) (mainLost (tick t s))
  obtain ⟨y, hy⟩ : ∃ y, y = deferOut (endForReset true) (mainLost (tick t s)) := ⟨_, rfl⟩
  rw [← hy] at hloss hends
  obtain ⟨hboot, hhf⟩ := hends
  have hmem : (commit (tick t s) (withoutMain (tick t s).pair y)).bench.mem = [] := commit_wiped (r := freshFabric y) hi.mem rfl
  have hrboot : (commit (tick t s) (withoutMain (tick t s).pair y)).boot = (mainLost (tick t s)).boot := hboot
  have hrhf : (commit (tick t s) (withoutMain (tick t s).pair y)).hf = y.hf := rfl
  refine ⟨commit (tick t s) (withoutMain (tick t s).pair y), ?_, ?_⟩
  · rw [← hloss]
    rfl
  · simp only [hrboot, hrhf]
    exact ⟨congrArg Holdfast.fabric hhf, congrArg Holdfast.busy hhf, congrArg Holdfast.alert hhf, rfl, hvaux, rfl, rfl, rfl, rfl, rfl, hmem, rfl,
      rfl, rfl, rfl, rfl⟩

/-! ### The supplies come in range (R742, R743) -/

section
variable {s : State}

theorem vauxInRange_held (addr mv : Nat) (hup : s.boot.vauxUp = true) (hheld : s.boot.vauxLost = false) :
    vauxInRange addr mv s = { s with sense := { s.sense with vauxMv := mv } } := by
  simp only [vauxInRange, hup, hheld, Bool.not_false, Bool.and_self, if_true]

theorem vauxInRange_returns {addr : Nat} (mv : Nat) (haddr : addr < 4) (hlost : s.boot.vauxLost = true) (hmain : s.boot.vmainUp = false) :
    vauxInRange addr mv s = { s with
      sense := { s.sense with vauxMv := mv }
      boot := { s.boot with vauxUp := true, vauxLost := false, vmainLost := false, powerOnAt := s.now }
      hf := { s.hf with addr := addr, alert := true } } := by
  simp only [vauxInRange, hlost, Bool.not_true, Bool.and_false, Bool.false_eq_true, if_false, setBoot, setHf, hmain, Nat.mod_eq_of_lt haddr]

theorem vmainInRange_held (mv : Nat) (hup : s.boot.vmainUp = true) (hheld : s.boot.vmainLost = false) :
    vmainInRange mv s = { s with sense := { s.sense with vmainMv := mv } } := by
  have hsame : { s.boot with vmainUp := true, vmainLost := false } = s.boot := by rw [← hheld, ← hup]
  simp only [vmainInRange, hup, true_or, if_true, setBoot, hsame]

theorem vmainInRange_alone (mv : Nat) (hvaux : s.boot.vauxUp = false) :
    vmainInRange mv s = { s with sense := { s.sense with vmainMv := mv }, boot := { s.boot with vmainUp := true, vmainLost := false } } := by
  simp only [vmainInRange, setBoot, hvaux, Bool.not_false, or_true, if_true]

theorem setRole_same {r : PairRole} (cause : PairCause) (h : s.pair.role = r) : setRole r cause s = s := if_pos h

/-- The state as start-up leaves it: the preferred image is verified first. -/
def startedUp (cause : Nat) (s : State) : State :=
  { s with
    hf := { s.hf with fabric := .booting, monitorHold := false, monitors := [], srForced := false, alert := true }
    pair := { s.pair with signalling := false }
    boot := { s.boot with
      refTime := s.now, cause, readyMs := 0, restored := false, recovery := false, warm := false, ready := false, holdUntil := none, stage := 2
      verifying := true, image := s.boot.preferred, tryNext := [otherSlot s.boot.preferred, 0] } }

theorem startUp_solo (cause : Nat) (hsolo : s.pair.role = .solo) : startUp cause s = startedUp cause s := by
  refine (congrArg beginVerify (setRole_same .resumed ?_)).trans rfl
  exact hsolo

/-- With both supplies in range the preferred image is verified first. -/
theorem vmainInRange_starts (mv : Nat) (hvaux : s.boot.vauxUp = true) (hmain : s.boot.vmainUp = false) (hnone : s.hf.monitors = []) (hsolo :
    s.pair.role = .solo) :
    vmainInRange mv s = startedUp (if s.boot.vmainLost then 1 else 0)
      { s with sense := { s.sense with vmainMv := mv }, boot := { s.boot with vmainUp := true, vmainLost := false } } := by
  have hgo : ¬ (s.boot.vmainUp = true ∨ (!s.boot.vauxUp) = true) := by simp [hvaux, hmain]
  have hfault : s.hf.monitors.contains .vmain = false := by rw [hnone]; rfl
  refine (if_neg hgo).trans ?_
  rw [hfault]
  exact startUp_solo _ hsolo

/-! ### Images and the pace (R734, R746, R749, R750) -/

theorem imageVerified_idle (i : ImageInfo) (h : s.boot.verifying = false ∨ s.hf.monitorHold = true) : imageVerified i s = s := by
  rcases h with h | h <;> simp [imageVerified, h]

theorem imageVerified_loads {i : ImageInfo} (hsigned : i.signed = true) (hdigest : i.digest = true) (hverify : s.boot.verifying = true)
    (hfree : s.hf.monitorHold = false) (hvalid : (imageOf s.boot s.boot.image).valid = true) (hfault : imageFault s.boot (imageOf s.boot s.boot.image) = 0) :
    imageVerified i s = { s with boot := { s.boot with verifying := false, stage := 4, tryNext := [] } } := by
  have hgood : verifyFault s.boot s.boot.image i = 0 := by simp [verifyFault, hvalid, hsigned, hdigest, hfault]
  simp only [imageVerified, hverify, hfree, Bool.not_true, Bool.or_self, Bool.false_eq_true, if_false, hgood, if_true, setBoot]

/-- The entry of an image that fails verification. -/
def imageEntry (s : State) : FaultEntry :=
  { cls := 8, unit := 0x14, holdfast := true, cause := 1, detail := le 4 (imageOf s.boot s.boot.image).version }

/-- An image that fails verification, logged and reported. -/
def imageReported (s : State) : State := raise 0x3F8 s.boot.image (logFault (imageEntry s) s).1 (logFault (imageEntry s) s).2

theorem imageReported_logged (hdown : s.hf.fabric ≠ .running) :
    LoggedDown (imageEntry s) s.faults.cnt s (imageReported s) ∧ bitOf (imageReported s).hf.latched 0x3F8 = true := by
  have hlog := logFault_down (imageEntry s) hdown
  exact ⟨hlog.raised _ _ _ hdown, raise_setsLatched _ _ _ (hlog.down hdown)⟩

theorem imageVerified_fails {i : ImageInfo} (hsigned : i.signed = false) (hverify : s.boot.verifying = true) (hfree : s.hf.monitorHold = false) :
    imageVerified i s = match s.boot.tryNext with
      | n :: rest => setBoot (fun b => { b with image := n, tryNext := rest }) (imageReported s)
      | [] => setBoot (fun b => { b with verifying := false, stage := 9 }) (imageReported s) := by
  have hbad : verifyFault s.boot s.boot.image i = 1 := by simp [verifyFault, hsigned]
  simp only [imageVerified, hverify, hfree, Bool.not_true, Bool.or_self, Bool.false_eq_true, if_false, hbad, Nat.one_ne_zero]
  cases s.boot.tryNext <;> rfl

end

/-- A change of start-up alone settles. -/
theorem setBoot_settled (f : Boot → Boot) (s : State) : Settled s (setBoot f s) := ⟨rfl, rfl, rfl, rfl, rfl⟩

theorem imageVerifyDone_tries (t : Nat) (s : State) (i : ImageInfo) (n : Nat) (rest : List Nat) (hi : s.Inv) (hboot : s.hf.fabric = .booting)
    (hverify : s.boot.verifying = true) (hfree : s.hf.monitorHold = false) (hsigned : i.signed = false) (hnext : s.boot.tryNext = n :: rest) :
    Next (.imageVerifyDone t i) s fun r =>
      r.boot = { s.boot with image := n, tryNext := rest } ∧ bitOf r.hf.latched 0x3F8 = true ∧
      (∃ e, r.faults.log.getLast? = some e ∧ e.cls = 8 ∧ e.unit = 0x14 ∧ e.cause = 1 ∧ e.persistent = true) ∧ r.faults.cnt = s.faults.cnt := by
  have hdown : (tick t s).hf.fabric ≠ .running := by
    rw [tick_hf, hboot]
    exact FabricState.noConfusion
  have hfails := imageVerified_fails (s := tick t s) hsigned hverify hfree
  rw [tick_boot, hnext] at hfails
  obtain ⟨hlogged, hlatched⟩ := imageReported_logged hdown
  have hrboot : (imageReported (tick t s)).boot = s.boot := hlogged.frame.out.boot
  refine next_of rfl hi ?_ ?_
  · rw [hfails]
    exact hlogged.settled.trans (setBoot_settled _ _)
  · rw [hfails]
    exact ⟨congrArg (fun b => { b with image := n, tryNext := rest }) hrboot, hlatched, ⟨_, hlogged.last, rfl, rfl, rfl, rfl⟩, hlogged.counts⟩

theorem imageVerifyDone_stops (t : Nat) (s : State) (i : ImageInfo) (hi : s.Inv) (hboot : s.hf.fabric = .booting) (hverify : s.boot.verifying = true)
    (hfree : s.hf.monitorHold = false) (hsigned : i.signed = false) (hnone : s.boot.tryNext = []) :
    Next (.imageVerifyDone t i) s fun r => r.boot = { s.boot with verifying := false, stage := 9 } ∧ bitOf r.hf.latched 0x3F8 = true := by
  have hdown : (tick t s).hf.fabric ≠ .running := by
    rw [tick_hf, hboot]
    exact FabricState.noConfusion
  have hfails := imageVerified_fails (s := tick t s) hsigned hverify hfree
  rw [tick_boot, hnone] at hfails
  obtain ⟨hlogged, hlatched⟩ := imageReported_logged hdown
  have hrboot : (imageReported (tick t s)).boot = s.boot := hlogged.frame.out.boot
  refine next_of rfl hi ?_ ?_
  · rw [hfails]
    exact hlogged.settled.trans (setBoot_settled _ _)
  · rw [hfails]
    exact ⟨congrArg (fun b => { b with verifying := false, stage := 9 }) hrboot, hlatched⟩

/-! ### The Bench is trained, and the fabric runs (R538 to R540, R751) -/

section
variable {s : State} {a b : TrainResult}

theorem trainStack_readies {c : Nat} (htrains : (vget s.bench.ctl c).state = .training) (hopen : benchFenced s = false) (hgood : trainingFails a = false) :
    trainStack c a s = setCtl c (fun x => { x with state := .ready }) s := by
  have hfrozen : decide ((vget s.bench.ctl c).state = .frozen) = false := by rw [htrains]; rfl
  simp only [trainStack, hfrozen, hopen, Bool.or_self, Bool.false_eq_true, if_false, hgood]

theorem benchFenced_neither (h0 : (vget s.bench.ctl 0).state ≠ .fenced) (h1 : (vget s.bench.ctl 1).state ≠ .fenced) : benchFenced s = false := by
  simp only [benchFenced, h0, h1, decide_false, Bool.or_self]

theorem vmodPair_map {α : Type} [Inhabited α] (f : α → α) (v : Vector α 2) : vmod (vmod v 0 f) 1 f = v.map f := by
  ext i hi
  interval_cases i <;> simp [vmod, vset, vget]

/-- Both controllers in a state. -/
def ctlsIn (st : CtlState) (s : State) : State := { s with bench := { s.bench with ctl := s.bench.ctl.map fun c => { c with state := st } } }

theorem trainStacks_ready (h0 : (vget s.bench.ctl 0).state = .training) (h1 : (vget s.bench.ctl 1).state = .training) (ha : trainingFails a = false)
    (hb : trainingFails b = false) : trainStack 1 b (trainStack 0 a s) = ctlsIn .ready s := by
  have hfirst : trainStack 0 a s = setCtl 0 (fun x => { x with state := .ready }) s := trainStack_readies h0 (benchFenced_neither
    (by rw [h0]; decide) (by rw [h1]; decide)) ha
  have hctl0 : (vget (setCtl 0 (fun x => { x with state := .ready }) s).bench.ctl 0).state = .ready := by
    rw [setCtl_ctl, vget_vmod_self _ _ _ (by decide)]
  have hctl1 : (vget (setCtl 0 (fun x => { x with state := .ready }) s).bench.ctl 1).state = .training := by
    rw [setCtl_ctl, vget_vmod_ne _ _ _ _ (by decide), h1]
  rw [hfirst, trainStack_readies hctl1 (benchFenced_neither (by rw [hctl0]; decide) (by rw [hctl1]; decide)) hb, ctlsIn, ← vmodPair_map]
  rfl

/-- A start from power that has come through the Bench's training: step 8 ends, and the ring ports begin anew. -/
def coldStarted (s : State) : State :=
  restartPorts { s with boot := { s.boot with stage := 7, readyMs := (s.now - s.boot.refTime) / 1000000 } }

theorem coldDone_runs (hcause : s.boot.cause = 0) : coldDone s = fabricRuns (coldStarted s) := by
  have hcold : s.boot.cause ≠ 1 := by rw [hcause]; decide
  simp only [coldDone, if_neg hcold]
  rfl

/-- A start from power ends with the Bench trained, or fenced. -/
theorem trainingDone_cold {q : State} (hstage : s.boot.stage = 5) (hfree : s.hf.monitorHold = false) (htrain : trainStack 1 b (trainStack 0 a s) = q)
    (hcold : s.boot.warm = false) (hcause : q.boot.cause = 0) : trainingDone a b s = fabricRuns (coldStarted q) := by
  simp only [trainingDone, hstage, hfree, ne_eq, not_true_eq_false, Bool.false_eq_true, or_self, if_false, htrain, hcold, coldDone_runs hcause]

theorem trainingDone_early (hstage : s.boot.stage ≠ 5) : trainingDone a b s = s := by
  simp only [trainingDone, hstage, ne_eq, not_false_eq_true, true_or, if_true]

/-- A fenced Bench is left alone. -/
theorem trainStack_fenced {c : Nat} (h : benchFenced s = true) : trainStack c a s = s := by simp only [trainStack, h, Bool.or_true, if_true]

/-- The entry of a stack that training fences. -/
def trainEntry (c : Nat) (r : TrainResult) : FaultEntry :=
  { cls := 8, unit := 0x09, index := c, cause := 4, detail := zeros 8 ++ le 1 (r.failedTwice.headD 0) ++ zeros 3 ++ le 4 r.lanes }

/-- The Bench fenced under an entry. -/
def fencedBy (n : Nat) (q : State) : State :=
  { ctlsIn .fenced q with faults := { q.faults with
      fences := q.faults.fences ++ [⟨0x09, 0, n⟩, ⟨0x09, 1, n⟩], cnt := { q.faults.cnt with fences := wrap32 (q.faults.cnt.fences + 1) } } }

/-- The Bench fenced by its training, before its events. -/
def trainFenced (r : TrainResult) (s : State) : State := fencedBy (logFault (trainEntry 0 r) s).1 (logFault (trainEntry 0 r) s).2

theorem fenceBench_raises (r : TrainResult) (s : State) :
    fenceBench 0 r s = raise 0x34C 0 0 (raise 0x003 (logFault (trainEntry 0 r) s).1 (9 * 65536 + (0 : Nat)) (trainFenced r s)) := rfl

theorem trainStacks_fenced (hfails : trainingFails a = true) (h0 : (vget s.bench.ctl 0).state = .training) (h1 : (vget s.bench.ctl 1).state = .training) :
    trainStack 0 a s = fenceBench 0 a s := by
  have hfrozen : decide ((vget s.bench.ctl 0).state = .frozen) = false := by rw [h0]; rfl
  have hopen : benchFenced s = false := benchFenced_neither (by rw [h0]; decide) (by rw [h1]; decide)
  simp only [trainStack, hfrozen, hopen, Bool.or_self, Bool.false_eq_true, if_false, hfails, if_true]

/-- What the fencing of the Bench leaves while the fabric does not run. -/
structure BenchFenced (s r : State) : Prop where
  frame : LatchFrame (ctlsIn .fenced { s with faults := r.faults, hf := { s.hf with alert := true } }) r
  fenced : ∀ c : Nat, c < 2 → (fenceOf r 0x09 c).isSome = true
  fence : ∃ e ∈ r.hf.latchedEvents, e.1 = 0x003
  bench : ∃ e ∈ r.hf.latchedEvents, e.1 = 0x34C

theorem LoggedDown.fencedBy {e : FaultEntry} {cnt : FaultCounters} {l : State} (h : LoggedDown e cnt s l) (n : Nat) :
    LatchFrame (ctlsIn .fenced { s with faults := (Machine.fencedBy n l).faults, hf := { s.hf with alert := true } }) (Machine.fencedBy n l) := by
  have hframe := h.frame
  unfold LatchFrame at *
  rw [hframe]
  rfl

theorem fenceBench_fences (r : TrainResult) (hdown : s.hf.fabric ≠ .running) : BenchFenced s (fenceBench 0 r s) := by
  have hlog := logFault_down (trainEntry 0 r) hdown
  have hfdown : (trainFenced r s).hf.fabric ≠ .running := hlog.down hdown
  obtain ⟨e, he, hsrc⟩ := raise_lists 0x003 (logFault (trainEntry 0 r) s).1 (9 * 65536 + (0 : Nat)) hfdown
  have hfirst := raise_latchFrame 0x003 (logFault (trainEntry 0 r) s).1 (9 * 65536 + (0 : Nat)) hfdown
  have hrdown : (raise 0x003 (logFault (trainEntry 0 r) s).1 (9 * 65536 + (0 : Nat)) (trainFenced r s)).hf.fabric ≠ .running := by
    rw [hfirst.hf]
    exact hfdown
  have hframe := hfirst.trans (raise_latchFrame 0x34C 0 0 hrdown)
  have hfaults := hframe.out.faults
  rw [fenceBench_raises]
  refine ⟨?_, fun c hc => ?_, ⟨e, raise_keepsListed _ _ _ hrdown he, hsrc⟩, raise_lists _ _ _ hrdown⟩
  · rw [hfaults]
    exact (hlog.fencedBy _).trans hframe
  · rw [fenceOf, hfaults]
    simp only [trainFenced, fencedBy]
    interval_cases c <;> simp [List.find?_append]

end

/-- The module as it starts from power with its Bench trained. -/
def trainedStart (s : State) : State :=
  { s with
    hf := { s.hf with fabric := .running }
    boot := { s.boot with stage := 7, readyMs := (s.now - s.boot.refTime) / 1000000 }
    bench := { s.bench with ctl := s.bench.ctl.map fun c => { c with state := .ready } }
    ring := { s.ring with ports := .replicate 3 { since := s.now } } }

theorem ctlsIn_settled (st : CtlState) (s : State) : Settled s (ctlsIn st s) := ⟨rfl, rfl, rfl, rfl, rfl⟩

theorem runsAgain_settled (s : State) : Settled s (runsAgain (coldStarted s)) := ⟨rfl, rfl, rfl, rfl, rfl⟩

/-- Nothing waits for the fabric of `s` to run: no event, no output and no wedge to report. -/
theorem runsAgain_trained {s : State} (hseen : s.hf.wedgeSeen = false) (hheld : s.heldOut = []) : OutFrame (trainedStart s) (runsAgain (coldStarted
    (ctlsIn .ready s))) := by
  have hsame : runsAgain (coldStarted (ctlsIn .ready s)) =
      { trainedStart s with emit := s.emit ++ s.heldOut, heldOut := [], hf := { s.hf with fabric := .running, wedgeSeen := false, latchedEvents := [] } } := rfl
  rw [hsame, ← hseen, ← hheld]
  rfl

theorem benchTrainingDone_trains {a b : TrainResult} (ha : trainingFails a = false) (hb : trainingFails b = false) : Happens (.benchTrainingDone · a b)
    (fun s => s.boot.stage = 5 ∧ s.hf.monitorHold = false ∧ s.boot.warm = false ∧ s.boot.cause = 0 ∧ (vget s.bench.ctl 0).state = .training ∧
      (vget s.bench.ctl 1).state = .training ∧ s.hf.wedgeSeen = false ∧ s.hf.latchedEvents = [] ∧ s.heldOut = [] ∧
      ∀ n : Nat, n < 4 → (vget s.host.rings n).posts = [])
    trainedStart [] noPuts := by
  rintro t s hi ⟨hstage, hfree, hcold, hcause, h0, h1, hseen, -, hheld, hposts⟩
  have hstep := trainingDone_cold (s := tick t s) hstage hfree (trainStacks_ready h0 h1 ha hb) hcold hcause
  have hruns := (fabricRuns_again (s := coldStarted (ctlsIn .ready (tick t s))) hposts).out
  have hset := ((ctlsIn_settled .ready (tick t s)).trans (runsAgain_settled _)).trans hruns.settled
  refine next_of rfl hi ?_ ?_
  · rw [hstep]
    exact hset
  · rw [hstep]
    exact ⟨hset.now, (runsAgain_trained hseen hheld).trans hruns.frame, List.forall_mem_nil _, List.nil_subset _⟩

theorem benchTrainingDone_fences (t : Nat) (s : State) (a b : TrainResult) (hi : s.Inv) (hboot : s.hf.fabric = .booting) (hfails : trainingFails a = true)
    (hstage : s.boot.stage = 5) (hfree : s.hf.monitorHold = false) (hcold : s.boot.warm = false) (hcause : s.boot.cause = 0)
    (h0 : (vget s.bench.ctl 0).state = .training) (h1 : (vget s.bench.ctl 1).state = .training)
    (hposts : ∀ n : Nat, n < 4 → (vget s.host.rings n).posts = []) :
    Next (.benchTrainingDone t a b) s fun r =>
      (vget r.bench.ctl 0).state = .fenced ∧ (vget r.bench.ctl 1).state = .fenced ∧ (fenceOf r 0x09 0).isSome = true ∧ (fenceOf r 0x09 1).isSome = true ∧
      r.hf.fabric = .running ∧ r.boot.stage = 7 ∧ bitOf r.host.evt.pending 0x34C = true ∧ bitOf r.host.evt.pending 0x003 = true := by
  have hdown : (tick t s).hf.fabric ≠ .running := by
    rw [tick_hf, hboot]
    exact FabricState.noConfusion
  have hfence := fenceBench_fences a hdown
  obtain ⟨y, hy⟩ : ∃ y, y = fenceBench 0 a (tick t s) := ⟨_, rfl⟩
  rw [← hy] at hfence
  obtain ⟨hframe, hfenced, ⟨e, he, hesrc⟩, e', he', hesrc'⟩ := hfence
  have hbench : y.bench = (ctlsIn .fenced (tick t s)).bench := hframe.out.bench
  have hctl (c : Nat) (hc : c < 2) : (vget y.bench.ctl c).state = .fenced := by
    rw [hbench, ctlsIn, vget_map _ _ hc]
  have hboot' : y.boot = s.boot := hframe.out.boot
  have hstacks : trainStack 1 b (trainStack 0 a (tick t s)) = y := by
    rw [trainStacks_fenced (s := tick t s) hfails h0 h1, ← hy]
    exact trainStack_fenced (by simp [benchFenced, hctl 0 (by decide)])
  have hstep := trainingDone_cold (s := tick t s) hstage hfree hstacks hcold (by rw [hboot', hcause])
  have hposts' (n : Nat) (hn : n < 4) : (vget (coldStarted y).host.rings n).posts = [] :=
    (congrArg (fun x : HostIf => (vget x.rings n).posts) hframe.host).trans (hposts n hn)
  obtain ⟨hruns, hevents, -⟩ := fabricRuns_again hposts'
  have hrbench : (fabricRuns (coldStarted y)).bench = y.bench := hruns.frame.bench
  have hrfaults : (fabricRuns (coldStarted y)).faults = y.faults := hruns.frame.faults
  have hy0 : Settled (tick t s) y := by
    refine ⟨hframe.now, hframe.out.pending, ?_, ?_, ?_⟩ <;> rw [hbench] <;> rfl
  refine next_of rfl hi ?_ ?_
  · rw [hstep]
    exact (hy0.trans (runsAgain_settled y)).trans hruns.settled
  · rw [hstep, hrbench, fenceOf, fenceOf, hrfaults]
    exact ⟨hctl 0 (by decide), hctl 1 (by decide), hfenced 0 (by decide), hfenced 1 (by decide), congrArg Holdfast.fabric hruns.hf,
      congrArg Boot.stage hruns.frame.boot, hesrc' ▸ hevents e' he', hesrc ▸ hevents e he⟩

/-! ### The ring step of start-up, and the cages (R753, R754, R780) -/

section
variable {s : State}

theorem ringStepDone_waits (h : s.boot.stage ≠ 7) : tryRingStep s = s := by
  simp only [tryRingStep, ringStepDone, h, decide_false, Bool.false_and, Bool.false_eq_true, if_false]

theorem tryRingStep_ends (hstage : s.boot.stage = 7) (hports : ∀ p : Nat, p < 3 → portWaits s p = false) : tryRingStep s = ringStepEnds s := by
  have hnone : (List.range 3).any (portWaits s) = false := List.any_eq_false.2 fun p hp => by rw [hports p (List.mem_range.1 hp)]; exact Bool.false_ne_true
  simp only [tryRingStep, ringStepDone, hstage, hnone, decide_true, Bool.not_false, Bool.and_self, if_true]

theorem ringStepEnds_alone (hnone : ringHasGateway s = false) :
    ringStepEnds s = { s with boot := { s.boot with
      stage := 8, ready := true, readyMs := (s.now - s.boot.refTime) / 1000000
      minSecurity := max s.boot.minSecurity (imageOf s.boot s.boot.image).security } } := by
  have hnone' : ringHasGateway (setBoot (fun b => { b with stage := 8 }) s) = false := hnone
  simp only [ringStepEnds, hnone', Bool.false_eq_true, if_false]
  rfl

theorem ringStepEnds_gateway (hsome : ringHasGateway s = true) : ringStepEnds s = { s with boot := { s.boot with stage := 8 } } := by
  have hsome' : ringHasGateway (setBoot (fun b => { b with stage := 8 }) s) = true := hsome
  simp only [ringStepEnds, hsome', if_true]
  rfl

theorem cageInserted_enables {c k : Nat} (i : Nat) (hc : c < 3) (h1 : 1 ≤ k) (h4 : k ≤ 4) :
    cageInserted c i k s = { s with cages := vset s.cages c { present := true, identifier := i, powerClass := k, enabled := true } } := by
  have hok : cageEnables c k = true := by simp [cageEnables, hc, inRange, h1, h4]
  simp only [cageInserted, hok, true_or, if_true]

theorem cageInserted_refuses {c k : Nat} (i : Nat) (hc : c < 3) (h4 : 4 < k) (hdown : (vget s.ring.ports c).state = .down) :
    cageInserted c i k s = { s with cages := vset s.cages c { present := true, identifier := i, powerClass := k, enabled := false } } := by
  have hok : cageEnables c k = false := by simp [cageEnables, hc, inRange, Nat.not_le.2 h4]
  simp only [cageInserted, hok, Bool.false_eq_true, false_or, hc, if_true, hdown, ite_self]

end

/-- Settles O51, clause by clause: start-up's steps are known as a whole; while the fabric does not run its events are latched, and what it ends leaves
start-up and the Holdfast alone. -/
theorem bootSuppliesAndCages : Obligations.BootSuppliesAndCages := by
  unfold Obligations.BootSuppliesAndCages
  refine ⟨fun addr mv => ?_, fun addr mv haddr => ?_, vauxLoss_keeps, fun mv => ?_, fun mv => ?_, fun mv => ?_, ?_, vmainLoss_keeps, fun i => ?_,
    fun i hsigned hdigest => ?_, imageVerifyDone_tries, imageVerifyDone_stops, fun figures => ?_, fun figures => ?_, fun a b => ?_,
    fun a b ha hb => benchTrainingDone_trains ha hb, fun t s a b hi hboot hfails hstage hfree hcold hcause h0 h1 _ _ hposts =>
      benchTrainingDone_fences t s a b hi hboot hfails hstage hfree hcold hcause h0 h1 hposts, ?_, ?_, ?_, fun c i k hc h1 h4 => ?_, fun c i k hc h4 => ?_,
    fun c i k hc => ?_⟩
  · exact exactly_of (fun _ _ => rfl) fun q _ ⟨hup, hheld⟩ => ⟨vauxInRange_held addr mv hup hheld, ⟨rfl, rfl, rfl, rfl, rfl⟩⟩
  · exact exactly_of (fun _ _ => rfl) fun q _ ⟨hlost, hmain⟩ => ⟨vauxInRange_returns mv haddr hlost hmain, ⟨rfl, rfl, rfl, rfl, rfl⟩⟩
  · exact exactly_of (fun _ _ => rfl) fun q _ ⟨hup, hheld⟩ => ⟨vmainInRange_held mv hup hheld, ⟨rfl, rfl, rfl, rfl, rfl⟩⟩
  · exact exactly_of (fun _ _ => rfl) fun q _ hvaux => ⟨vmainInRange_alone mv hvaux, ⟨rfl, rfl, rfl, rfl, rfl⟩⟩
  · exact exactly_of (fun _ _ => rfl) fun q _ ⟨hvaux, hmain, hnone, hsolo⟩ => ⟨vmainInRange_starts mv hvaux hmain hnone hsolo, ⟨rfl, rfl, rfl, rfl, rfl⟩⟩
  · refine exactly_of (fun _ _ => rfl) fun q _ hmain => ⟨if_pos ?_, Settled.refl q⟩
    rw [hmain]
    rfl
  · exact exactly_of (fun _ _ => rfl) fun q _ hidle => ⟨imageVerified_idle i hidle, Settled.refl q⟩
  · exact exactly_of (fun _ _ => rfl) fun q _ ⟨hverify, hfree, hvalid, hfault⟩ =>
      ⟨imageVerified_loads hsigned hdigest hverify hfree hvalid hfault, ⟨rfl, rfl, rfl, rfl, rfl⟩⟩
  · exact exactly_of (fun _ _ => rfl) fun q _ hstage => ⟨if_pos (Or.inl hstage), Settled.refl q⟩
  · refine exactly_of (fun _ _ => rfl) fun q _ ⟨hstage, hfree⟩ => ⟨?_, ⟨rfl, rfl, rfl, rfl, rfl⟩⟩
    simp only [paceDone, hstage, hfree, ne_eq, not_true_eq_false, Bool.false_eq_true, or_self, if_false]
    rfl
  · exact exactly_of (fun _ _ => rfl) fun q _ hstage => ⟨trainingDone_early hstage, Settled.refl q⟩
  · exact exactly_still (fun _ _ => rfl) fun q hstage => ringStepDone_waits hstage
  · exact exactly_up (fun _ _ => rfl) fun q ⟨hup, hstage, hports, hnone⟩ =>
      ⟨hup, (tryRingStep_ends hstage hports).trans (ringStepEnds_alone hnone), ⟨rfl, rfl, rfl, rfl, rfl⟩⟩
  · exact exactly_up (fun _ _ => rfl) fun q ⟨hup, hstage, hports, hsome⟩ =>
      ⟨hup, (tryRingStep_ends hstage hports).trans (ringStepEnds_gateway hsome), ⟨rfl, rfl, rfl, rfl, rfl⟩⟩
  · refine exactly_of (f := fun s => if 5 ≤ c then s else cageInserted c i k s) (fun _ _ => rfl) fun q _ _ => ⟨?_, ⟨rfl, rfl, rfl, rfl, rfl⟩⟩
    rw [if_neg (by omega)]
    exact cageInserted_enables i hc h1 h4
  · refine exactly_of (f := fun s => if 5 ≤ c then s else cageInserted c i k s) (fun _ _ => rfl) fun q _ hdown => ⟨?_, ⟨rfl, rfl, rfl, rfl, rfl⟩⟩
    rw [if_neg (by omega)]
    exact cageInserted_refuses i hc h4 hdown
  · exact exactly_of (fun _ _ => rfl) fun q _ _ => ⟨if_pos hc, Settled.refl q⟩

end Sys2Proof.Machine
